-- ==== Sys2Proof/Machine/Types.lean ====
section
/-!
DEFINITION. Sys2Proof/Machine/Types.lean: the data that commands carry: the path of an access, descriptors, step records
and what else a command names.
-/
namespace Sys2Proof.Machine

/-- The path a register access takes: the PF of a port, the VF of a function (2p + x), or the service console (R13, R310,
R565). -/
inductive Via where
  | pf (port : Nat)
  | vf (fn : Nat)
  | console
deriving DecidableEq, Repr

/-- A descriptor as a command names it: partition and port of its function, its SQ, its index there (plus 2^16 times the losses the
function had before, so that descriptors of different lives differ), its TAG, the ORDER
and INTR flags (R323), whether a reserved field of it is not 0, and whether a read of host memory it names fails
(R308, R325). -/
structure Desc where
  part : Nat
  port : Nat
  sq : Nat
  index : Nat
  tag : Nat
  order : Bool
  intr : Bool
  resv : Bool
  readFail : Bool
deriving DecidableEq, Repr

/-- A descriptor as a fetch reads it (R320): opcode, tag, flags and bytes 16 to 23. -/
structure Fetched where
  op : Nat
  tag : Nat
  order : Bool
  intr : Bool
  resv : Bool
  body0 : Nat
deriving DecidableEq, Repr

/-- How a host vanishes (R339): the link of a port goes down, or a function receives an FLR or loses bus mastering. -/
inductive HostLoss where
  | linkDown (port : Nat)
  | flr (part port : Nat)
  /-- An FLR of the physical function of a port (R311). -/
  | flrPf (port : Nat)
  /-- A conventional reset, hot reset or link disable of a port (R307, R516). -/
  | portReset (port : Nat)
  | busMaster (part port : Nat)
deriving DecidableEq, Repr

/-- The stored elements of one position of a page: element codes in the order of R61, and for a sealed page in an MX
format the E8M0 scale bytes of its groups of 32 (R185). -/
structure Pos where
  codes : List Nat
  scales : List Nat
deriving DecidableEq, Repr

/-- KIND_CFG of a sweep descriptor (R152). -/
structure KindCfg where
  selK : Nat
  selSink : Nat
  noSummary : Bool
  selRecent : Nat
  gradEn : Bool
deriving DecidableEq, Repr

def KindCfg.init : KindCfg := ⟨0, 0, false, 0, false⟩

/-- A sweep descriptor (R110). -/
structure SweepDesc where
  g : Nat
  qFmt : Nat
  qQuant : Nat
  pFmt : Nat
  outFmt : Nat
  stats : Nat
  scale : Nat
  window : Nat
  mask : Nat
  kind : KindCfg
deriving DecidableEq, Repr

/-- The descriptor of a context without a SWEEP_SET (R111). -/
def SweepDesc.init : SweepDesc := ⟨1, 0, 1, 0, 1, 0, 0, 0, 0, KindCfg.init⟩

/-- The fields of a step record (R113, R153), with its query block, its append block and, for BACKWARD, the output
gradients and saved statistics (R114, R115, R175). `resv` says that a Reserved field is not 0 and `badLen` that the image
length differs from the one R113 to R115 give. -/
structure StepRec where
  kind : Nat
  append : Bool
  mask : Nat
  list : Bool
  layer : Nat
  seq : Nat
  ctx : Nat
  qCount : Nat
  qPos : Nat
  kvFirst : Nat
  kvLast : Nat
  window : Nat
  appendCount : Nat
  out : Nat
  stats : Nat
  /-- Bytes 30 and 31: K of a SELECTIVE record, GRAD_ID of a BACKWARD one. -/
  extra : Nat
  resultKey : Nat
  appendPos : Nat
  resultOff : Nat
  statusOff : Nat
  signal : Nat
  tag : Nat
  resv : Bool
  badLen : Bool
  rows : List Pos
  dOut : List (List Nat)
  rowStats : List (Nat × Nat)
  appToks : List Nat
  appData : List (List Nat)
deriving DecidableEq, Repr

/-- A map edit that a descriptor or a step record asks for, with the data it brings (R99, R115). -/
inductive Edit where
  | append (seq layer pos : Nat) (toks : List Nat) (data : List (List Nat))
  | write (seq layer pos : Nat) (data : List (List Nat))
  | truncate (seq len : Nat)
  | fork (seq src len : Nat) (parked : Bool)
  | free (seq : Nat)
  /-- SEQ_CLASS (R223 to R225). -/
  | class_ (seq : Nat) (parked : Bool)
deriving DecidableEq, Repr

/-- The header of an NRT packet (R352). `typ` is the packet type of R353, `status` that of an ACK or NAK. -/
structure NrtHdr where
  typ : Nat
  retx : Bool
  fence : Bool
  ceEcho : Bool
  path : Nat
  segLog2 : Nat
  paths : Nat
  src : Nat
  msg : Nat
  total : Nat
  off : Nat
  status : Nat
  key : Nat
  sigIndex : Nat
  addr : Nat
  sigAdd : Nat
  dep : Nat
deriving DecidableEq, Repr

/-- Operations of the RoCEv2 subset (R383): RDMA WRITE First, Middle, Last, Only, Last and Only with Immediate, READ
Request, READ Response First, Middle, Last, Only, Acknowledge, NAK and CNP; anything else is unsupported. -/
inductive RoceOp where
  | wFirst | wMiddle | wLast | wOnly | wLastImm | wOnlyImm | rReq | rFirst | rMiddle | rLast | rOnly | ack | nak | cnp
  | other
deriving DecidableEq, Repr

/-- A RoCEv2 packet: QP it is for, sequence number, RETH (R_Key, virtual address, length), immediate and syndrome. -/
structure RoceHdr where
  op : RoceOp
  qpn : Nat
  psn : Nat
  rkey : Nat
  va : Nat
  len : Nat
  imm : Nat
  syn : Nat
deriving DecidableEq, Repr

/-- The UDP checksum of a received packet: it holds, it fails, or the field is 0 (R351). -/
inductive UdpSum where
  | good | bad | zero
deriving DecidableEq, Repr

/-- Whether a packet with such a checksum is taken: a checksum of 0 over IPv4 only (R351). -/
def UdpSum.ok (c : UdpSum) (v4 : Bool) : Bool := c == .good || (c == .zero && v4)

/-- What a frame of the fabric port carries (R388). -/
inductive Packet where
  | nrt (h : NrtHdr) (payload : List Byte)
  | roce (h : RoceHdr) (payload : List Byte)
  | mka (kind : Nat)
  | ptp (kind : Nat)
deriving DecidableEq, Repr

/-- Kinds of frame of R395, which LNK_TC_MAP maps to classes; PTP and MKA frames are TC7. -/
inductive FKind where
  | result | step | control | read | bulk | armed | other | net
  /-- A READ_RESP: the class of the READ_REQ it serves. -/
  | as (cls : Nat)
deriving DecidableEq, Repr

/-- Operation of an armed request (R378). -/
inductive ArmOp where
  | write | writeSig | read
deriving DecidableEq, Repr

/-- The body of an ARM (R378). -/
structure ArmBody where
  op : ArmOp
  die : Nat
  trigIndex : Nat
  trigValue : Nat
  localKey : Nat
  remoteKey : Nat
  localOff : Nat
  remoteOff : Nat
  len : Nat
  doneEn : Bool
  sigIndex : Nat
  doneIndex : Nat
deriving DecidableEq, Repr

/-- The body of a KEY_REGISTER (R368). -/
structure KeyBody where
  ctx : Nat
  inbox : Bool
  rights : Nat
  entry : Nat
  bytes : Nat
  entryLog2 : Nat
  srcMatch : Nat
  srcMask : Nat
  ctrBase : Nat
  ctrCount : Nat
deriving DecidableEq, Repr

/-- The body of a PEER_SET (R372): TRANSPORT 0, 1 or 0xFF. -/
structure PeerBody where
  peer : Nat
  transport : Nat
  ipv4 : Bool
  die : Nat
  shape : Nat
  addr : Nat
  id : Nat
  sendPsn : Nat
  recvPsn : Nat
deriving DecidableEq, Repr

/-- What a received frame is (R388, R392): NRT, RoCEv2, PTP, EAPOL, or another kind. -/
inductive FrameKind where
  | nrt | roce | ptp | eapol | other
deriving DecidableEq, Repr

/-- What a weight bundle says and proves (R451, R452): its header fields, whether BYTES is its size, and whether its tenant
signature, binding, tag and digest hold. -/
structure Bundle where
  fmt : Nat
  model : Nat
  first : Nat
  countM1 : Nat
  payload : Nat
  sized : Bool
  proven : Bool
deriving DecidableEq, Repr

/-- A pin entry (R230). -/
structure Pin where
  seq : Nat
  ctx : Nat
  layerFirst : Nat
  layers : Nat
  posFirst : Nat
  posCount : Nat
deriving DecidableEq, Repr

/-- The body of a PREFETCH (R238). -/
structure HintBody where
  seq : Nat
  ctx : Nat
  unpark : Bool
  asap : Bool
  deadline : Nat
  tag : Nat
  layerFirst : Nat
  layers : Nat
  posFirst : Nat
  posCount : Nat
deriving DecidableEq, Repr

/-- What a read of a page's copy brings: the stored bytes as they were written, other bytes, or nothing: it failed. A read of a
copy on another die may be refused (R250). -/
inductive CopyRead where
  | stored
  | bytes (l : List Byte)
  | failed
  | refused
deriving DecidableEq, Repr

/-- The parameter page of a LUN (R254 to R256): its channel, number and chip enable; interface (0 ONFI NV-LPDDR4, 1 Toggle), bus
width, transfer rate in units of 25 MT/s, bytes of data and spare of a page, planes, blocks of a plane, pages of a block, cell (0 TLC, 1
QLC), whether it has the pSLC mode and the features that the part uses; the largest program times in µs, native and pSLC, and
the rated cycles. -/
structure LunPage where
  chan : Nat
  lun : Nat
  ce : Nat
  iface : Nat
  bus : Nat
  rate : Nat
  pageBytes : Nat
  spareBytes : Nat
  planes : Nat
  blocks : Nat
  pages : Nat
  cell : Nat
  pslc : Bool
  features : Bool
  tprog : Nat
  tprogSlc : Nat
  peRated : Nat
deriving DecidableEq, Repr

/-- Who reads a sector: the staging task of a page, a relocation's source, its verification, or another reader. -/
inductive ReadUse where
  | staging (page : Nat)
  | source
  | verify
  | other
deriving DecidableEq, Repr

/-- A codeword that decoded in a read (R271): the one that was written, or another one. -/
inductive Codeword where
  | written
  | other (b : List Byte)
deriving DecidableEq, Repr

/-- A sector read (R271): where; the codewords that decoded, each with the step that gave it, in order; the retry reads on the
way; the corrected bits of the last codeword and the retry-table entry that decoded it; T_ns of its issue, and the channel time in ns that it
took. -/
structure SectorRead where
  band : Nat
  sector : Nat
  decoded : List (Nat × Codeword)
  retries : Nat
  bits : Nat
  entry : Nat
  issued : Nat
  ns : Nat
deriving DecidableEq, Repr


/-- A firmware slot image as the checks of R444 step 3 see it: whether MAGIC and VERSION match, the vendor slot whose digest
SIGNER has, whether SIGNATURE verifies, the SVN, the two part codes, whether every component's digest matches, the versions of
the control-complex firmware and the recipes, and a number for its contents. -/
structure FwImage where
  magicOk : Bool
  vendor : Option Nat
  sigOk : Bool
  svn : Nat
  parts : Nat × Nat
  digestsOk : Bool
  fwVer : Nat
  rcpVer : Nat
  id : Nat
deriving DecidableEq, Repr

/-- What the module finds of a mailbox object (R454): the object could be read and is well formed, its SERIAL is the part's,
its COUNTER, and whether the owner signature is as the operation asks for (OWNER_PROVISION with no owner slot programmed: unsigned). -/
structure MboxObj where
  readable : Bool
  wellFormed : Bool
  serialOk : Bool
  counter : Nat
  sigOk : Bool
deriving DecidableEq, Repr

/-- What the module finds of a CAK object (R453). -/
structure CakObj where
  plain : Bool
  sizesOk : Bool
  serialOk : Bool
  counter : Nat
  sigOk : Bool
  unwraps : Bool
deriving DecidableEq, Repr

/-- A task that a producer queues at a cluster (R124, R569): whether it is a stage 2 plan task, whether it reads a frame (R92),
and the descriptor (fn, sq, index) or the sweep that issues it. -/
structure TaskReq where
  cluster : Nat
  plan : Bool
  reads : Bool
  desc : Option (Nat × Nat × Nat)
  sweep : Option Nat
deriving DecidableEq, Repr

/-- Whether the code of R465 corrects a line with `n` of its 36 symbols in error: 32 data symbols and 4 check symbols of 16 bits
correct any error confined to two symbols, and report any other. -/
def eccCorrects (n : Nat) : Bool := decide (n ≤ 2)

/-- A line of HBM that the scrubber read with errors (R466): its byte address, the number of its symbols in error (R465), and, when
the line is metadata, whether neither copy decodes (R467). -/
structure ScrubLine where
  addr : Nat
  syms : Nat
  both : Bool
deriving DecidableEq, Repr

/-- What an uncorrectable line of SRAM holds (R461, R468): a block of the operand store, rows of a record of the sweep on the
Casement, a wicket's local memory, a cluster's queue, a region's network, or anything else. -/
inductive SramLine where
  | store (page blk : Nat)
  | rows (rec : Nat)
  | wicket (w : Nat)
  | queue (c : Nat)
  | network (r : Nat)
  | other
deriving DecidableEq, Repr

/-- How a UCIe flit arrives (R465, R472): failing the link's CRC, or with a number of the payload's symbols in error. -/
inductive FlitRx where
  | crc
  | line (syms : Nat)
deriving DecidableEq, Repr

/-- A read over PLDM (R495): the numeric sensor for the voltage or the current of a domain (R501), a sensor of a die, package
power, or the state sensor of a die. -/
inductive PldmSensor where
  | volts (k : Nat)
  | amps (k : Nat)
  | temp (d n : Nat)
  | power
  | state (d : Nat)
deriving DecidableEq, Repr

/-- What starts a package cold reset (R516): a write of PWR_CTRL with COLD = 1, or RESET_N low for 1 µs. -/
inductive ColdBy where
  | write (via : Via) (key : Nat)
  | pin
deriving DecidableEq, Repr

/-- Levels of the four straps as the board ties them; none for an open strap (R589). -/
structure Straps where
  spiQuad : Option Bool
  smb0 : Option Bool
  smb1 : Option Bool
  smb2 : Option Bool
deriving DecidableEq, Repr

end Sys2Proof.Machine
end

