-- ==== Sys2Proof/Syntax.lean ====
section
/-!
DEFINITION. Sys2Proof/Syntax.lean: the commands of the block, one constructor per row of spec/opcode_table.json.
-/
namespace Sys2Proof
open Sys2Proof.Machine

/-- A command (a row of spec/opcode_table.json) with what it names. Instants `t` are T_ns of R29. -/
inductive Instr where
  /-- TIME_REFCLK has been absent for 10 µs, or returns (R586). -/
  | timeRefclkLoss (t : Nat)
  | timeRefclkReturn (t : Nat)
  /-- A tick edge of partition `p` at T_ns = `t` (R54). -/
  | tickBoundary (p t : Nat)
  /-- A slot boundary of partition `p` after slot 0, at T_ns = `t` (R35). -/
  | slotBoundary (p t : Nat)
  /-- A Sync message on die `d`'s port that measures `offset` ns (R21). -/
  | ptpSyncRx (d : Nat) (offset : Int) (t : Nat)
  /-- An Announce message of PTP domain `dom` on die `d`'s port; `logInt` is its logMessageInterval (R22). -/
  | ptpAnnounceRx (d dom : Nat) (logInt : Int) (t : Nat)
  /-- Three announce intervals without an Announce message (R22). -/
  | announceTimeout (t : Nat)
  /-- The search finds a time transmitter: `heard` names the ports on which one is heard, as (die, logMessageInterval of its
  Announce message) (R26). -/
  | srcChange (heard : List (Nat × Int)) (t : Nat)
  /-- TIK_HOLD_TIME passes TIK_HOLD_LIMIT (R22, R27). -/
  | holdLimitExpiry (t : Nat)
  /-- TIK_CTRL.DISC_EN written 0 (R22). -/
  | discEnClear (via : Via)
  /-- TIK_CTRL.STEP_NOW written 1 (R24). -/
  | stepNow (via : Via)
  /-- TIK_PERIOD.EN of partition `p` written (R34). -/
  | tikPeriodEnWrite (p : Nat) (en : Bool) (via : Via)
  /-- TIK_PERIOD.N and SLOTS of partition `p` written at T_ns = `t` (R595). -/
  | tikPeriodWrite (p n slots t : Nat) (via : Via)
  /-- The instant at which a pending change of period applies (R595). -/
  | periodChangeApply (p t : Nat)
  /-- A read of TIK_TIME_NS (R56). -/
  | tikTimeNsRead (via : Via)
  /-- A read of TIK_TICK_LO of partition `p` (R56). -/
  | tikTickLoRead (p : Nat) (via : Via)
  /-- MAP_CREATE (R99): the prompt's token identifiers as read from TOKENS. -/
  | mapCreate (d : Desc) (seq ctx : Nat) (lookup parked : Bool) (toks : List Nat)
  /-- MAP_APPEND (R99): positions in the layout of R61 and their token identifiers, as read from SOURCE and TOKENS. -/
  | mapAppend (d : Desc) (seq layer pos : Nat) (toks : List Nat) (data : List (List Nat))
  /-- The sealing wicket ends its encoding of the page `page` in state SEALING (R77); `ok` says that the reference decode of the new
  page agrees (R470). -/
  | sealComplete (die page : Nat) (ok : Bool)
  /-- Chunk completion of sequence `seq` (R78). -/
  | chunkCompletion (die seq : Nat)
  | mapWrite (d : Desc) (seq layer pos : Nat) (data : List (List Nat))
  | mapTruncate (d : Desc) (seq len : Nat)
  | mapFork (d : Desc) (seq src len : Nat) (parked : Bool)
  | mapFree (d : Desc) (seq : Nat)
  /-- TREE_EVICT (R99). -/
  | treeEvict (d : Desc) (ctx : Nat) (cascade : Bool) (chain : Nat)
  /-- Automatic eviction runs on a die (R90). -/
  | autoEvict (die : Nat)
  /-- PFX_CTRL.EN written 1 (R103). -/
  | pfxEnable (die : Nat) (via : Via)
  /-- The Casement of a die is handed to the next admitted sweep (R125). -/
  | sweepStart (d t : Nat)
  | planComplete (d sweep : Nat)
  /-- A block (8: the summary area of the page) in the operand store; `tab` are the bytes of its page's header, index and accord
  tables as loaded with it, none for the stored ones; `ue` is the address of an HBM line that failed (R201, R202, R468). -/
  | blockFetchDone (d page blk : Nat) (tab : Option (List Byte)) (ue : Option Nat)
  /-- `read` are the bytes delivered to the atomizer, none for the stored ones; `wait` pane wait cycles (R205, R206). -/
  | blockExpandDone (d page blk : Nat) (read : Option (List Byte)) (wait : Nat)
  /-- Tile `n` of a head and group of a block, issued at `issued` (R146); block 9 stands for the projection tiles of record
  `head`, group 0 of its queries and 1 of its output (R173). -/
  | tileProductDone (d pane page blk head group n : Nat) (mismatch : Bool) (issued stall t : Nat)
  | recordFinalise (d sweep r : Nat) (bad : Bool) (t : Nat)
  | resultDelivered (d sweep r t : Nat)
  | sweepSet (q : Desc) (ctx : Nat) (b : SweepDesc)
  | csmEnWrite (d : Nat) (en : Bool) (via : Via)
  | csmInject (d mask : Nat) (via : Via)
  /-- CSM_PANE_FENCE written with FENCE and UNFENCE masks; PANE_UNFENCE also carries which self-tests pass (R148). -/
  | paneFence (d fence unfence : Nat) (via : Via)
  | paneUnfence (d fence unfence pass : Nat) (via : Via)
  /-- LATENT_LOAD of images, or of a bundle whose plaintext they are (R169, R451). -/
  | latentLoad (q : Desc) (ctx first countM1 fmt bytes : Nat) (bundle : Option Bundle) (img : List Byte)
  | gradOpen (q : Desc) (ctx grad seq first countM1 posFirst posCount : Nat)
  | gradClose (q : Desc) (ctx grad : Nat) (keep : Bool) (dest room : Nat)
  /-- The present step of a page's rebuild ends; `ok` says that the copy is sound (R209). -/
  | rebuildDone (d page : Nat) (read : CopyRead)
  | atmFence (d fence unfence : Nat) (via : Via)
  | atmUnfence (d fence unfence pass : Nat) (via : Via)
  | atmInject (d mask : Nat) (via : Via)
  /-- A read of ATM_CODED_LO (0), ATM_RAW_LO (1) or ATM_PLAIN_LO (2) (R215). -/
  | atmLoRead (d which : Nat) (via : Via)
  | seqClass (d : Desc) (seq ctx : Nat) (parked : Bool)
  | ctxQuota (d : Desc) (ctx hbmMax hbmMin flashMax : Nat)
  | pinSet (d : Desc) (id : Nat) (p : Pin)
  | pinClear (d : Desc) (id ctx : Nat)
  | prefetch (d : Desc) (h : HintBody)
  /-- CHUNK_EXPORT (R249); `die` when FLAGS.DIE is 1. -/
  | chunkExport (d : Desc) (ctx : Nat) (replica : Bool) (die : Option Nat) (key chain off room : Nat)
  /-- CHUNK_IMPORT (R251). -/
  | chunkImport (d : Desc) (ctx : Nat) (replica : Bool) (key off bytes : Nat)
  /-- The read of a staging task ends; of a replica in a fabric region, what the remote read brought counts and not `read`. -/
  | stagingReadDone (d page : Nat) (read : CopyRead)
  | heldExpiry (d t : Nat)
  /-- The placement scan visits a page (R232). -/
  | placementScan (d page : Nat)
  | stgQueuedLoRead (d : Nat) (via : Via)
  /-- The program of a page of a band completes (R266), after `ns` of channel time; band 0 is an anchor page (R279). -/
  | flashProgramDone (d band stripe member : Nat) (ok : Bool) (ns : Nat)
  | sectorReadDone (d : Nat) (use : ReadUse) (r : SectorRead) (t : Nat)
  | journalWindowExpiry (d t : Nat)
  | checkpointStart (d t : Nat)
  | ckptNow (d : Nat) (via : Via)
  | gcStart (d : Nat)
  /-- The erase of a band completes, after `ns` of channel time; the channels in `failed` failed theirs (R285). -/
  | eraseDone (d band failed ns : Nat)
  | patrolRead (d : Nat) (reads : List SectorRead) (t : Nat)
  /-- FTL_CTRL.EN written; the parameter pages of the LUNs (R255, R291). -/
  | ftlEnable (d : Nat) (en : Bool) (luns : List LunPage) (via : Via)
  /-- The replay of die `d`'s journal ends; `seen` is the highest JSEQ read (R291). -/
  | ftlReplay (d seen t : Nat)
  | ftlInject (d : Nat) (via : Via)
  | ftlJseqLoRead (d : Nat) (via : Via)
  | channelCmdTimeout (d c t : Nat)
  | channelFence (d fence unfence : Nat) (via : Via)
  | channelUnfence (d fence unfence pass : Nat) (via : Via)
  | reclaim (d : Nat) (via : Via)
  | release (d : Nat) (via : Via)
  /-- A write of an SQ tail doorbell; `w32` says it is a 32-bit write (R319). -/
  | sqTailDoorbell (p x n idx : Nat) (w32 : Bool)
  /-- A write of a CQ head doorbell (R319). -/
  | cqHeadDoorbell (p x n idx : Nat) (w32 : Bool)
  /-- A fetch opportunity of a function: the descriptors host memory holds, or a failed read (R320, R341). -/
  | descriptorFetch (p x : Nat) (descs : List Fetched) (fail : Bool)
  | nop (d : Desc)
  /-- RESYNC into `dest`, `room` bytes (R342). -/
  | resync (d : Desc) (dest room : Nat) (adopt : Bool)
  /-- RING_CREATE (R326): `cq` is KIND = 1. -/
  | ringCreate (d : Desc) (cq : Bool) (id log2 flags link coalCount coalTime base : Nat)
  | ringDelete (d : Desc) (cq : Bool) (id : Nat)
  /-- STEP: the inbox entry image read from SOURCE, complete at T_ns = `t` (R329, R330). -/
  | step (d : Desc) (img : List Byte) (output statusAddr t : Nat)
  /-- COAL_TIME passes on a CQ (R334). -/
  | interruptCoalesceTimeout (p x cq t : Nat)
  /-- HRG_CTRL.EN of a function written (R316, R339). -/
  | hrgEnWrite (p x : Nat) (en : Bool)
  | hostFunctionLoss (loss : HostLoss)
  /-- PTN_BIND of partition `p` written with `v` (R313). -/
  | ptnBindWrite (p v : Nat)
  /-- PTN_DIES of partition `p` written with `v` (R314). -/
  | ptnDiesWrite (p v : Nat)
  /-- PTN_CTRL.SEAL written 1 (R314, R420). -/
  | seal (p : Nat)
  /-- PTN_CTRL.RESET written 1 (R517). -/
  | partitionReset (p t : Nat)
  /-- The link of a host port comes up (R348). -/
  | hostLinkUp (port rate width : Nat) (flit : Bool) (vfs : Nat)
  /-- A host port logs an AER error (R348). -/
  | aerErrorLogged (port : Nat)
  /-- A WRITE or WRITE_SIG packet reaches die `d` from an address: `dscp` and `ce` are those of its IP header, `wf` says
  that its version is 1 and its Reserved fields are 0, `sum` is its UDP checksum (R351, R367). -/
  | nrtDataPacketRx (d : Nat) (h : NrtHdr) (p : List Byte) (v4 : Bool) (addr dscp : Nat) (ce wf : Bool) (sum : UdpSum) (t : Nat)
  | readReqRx (d : Nat) (h : NrtHdr) (v4 : Bool) (addr dscp : Nat) (wf : Bool) (sum : UdpSum) (t : Nat)
  | readRespRx (d : Nat) (h : NrtHdr) (p : List Byte) (v4 : Bool) (addr dscp : Nat) (wf : Bool) (sum : UdpSum) (t : Nat)
  | ackRx (d : Nat) (h : NrtHdr) (wf : Bool) (sum : UdpSum) (t : Nat)
  | nakRx (d : Nat) (h : NrtHdr) (wf : Bool) (sum : UdpSum) (t : Nat)
  | snackRx (d : Nat) (h : NrtHdr) (ranges : List (Nat × Nat)) (wf : Bool) (sum : UdpSum) (t : Nat)
  /-- PATH_TMO passes on the context of a message; `read` says that it is a read of this port (R363). -/
  | pathTmoExpiry (d src msg : Nat) (read : Bool) (t : Nat)
  /-- ACK_TMO passes on a message, or on the queue pair of peer `id` (R364). -/
  | ackTmoExpiry (d : Nat) (roce : Bool) (id t : Nat)
  | holdTmoExpiry (d src msg t : Nat)
  | lingerExpiry (d t : Nat)
  | rateStepTimer (d peer t : Nat)
  | keyRegister (q : Desc) (b : KeyBody)
  | keyRevoke (q : Desc) (key : Nat) (keep : Bool)
  | keyScrubbed (d entry : Nat)
  | peerSet (q : Desc) (b : PeerBody)
  | remoteKey (q : Desc) (key peer : Nat) (unbind : Bool)
  | counterSet (q : Desc) (d : Nat) (add : Bool) (index value : Nat)
  | counterWait (q : Desc) (d index thresh timeout : Nat)
  | counterWaitTimeout (d t : Nat)
  | arm (q : Desc) (b : ArmBody)
  | armCancel (q : Desc) (d index : Nat)
  | rocePacketRx (d : Nat) (h : RoceHdr) (b : List Byte) (v4 : Bool) (dscp : Nat) (ce icrcOk : Bool) (t : Nat)
  | nrtInject (d : Nat) (via : Via)
  | pathUp (d peer path t : Nat)
  /-- A transmission opportunity of die `d`'s fabric port at T_ns = `t` (R397). -/
  | frameTransmit (d t : Nat)
  /-- A frame received: its kind, its SecTAG (association, PN) if it has one, whether its ICV holds, and what it carries with
  the fields of its IP header and its UDP checksum; of a RoCEv2 packet `wf` says that its ICRC holds (R351, R383, R392). -/
  | frameRx (d : Nat) (k : FrameKind) (sec : Option (Nat × Nat)) (icvOk : Bool) (p : Packet) (v4 : Bool) (addr dscp : Nat)
      (ce wf : Bool) (sum : UdpSum) (t : Nat)
  /-- An MKA frame of peer `mi` of key server priority `prio`; `first` says that its SCI precedes the part's, `sak` that it distributes
  a SAK (R390). -/
  | mkaFrameRx (d mi prio : Nat) (first leave wantSak sak cakOk : Bool) (t : Nat)
  | sakInstalled (d : Nat)
  | rekeyTimer (d t : Nat)
  | rekeyNow (d : Nat) (via : Via)
  /-- MKA loses its peer, or an SA when `sa` (R393). -/
  | securedLost (d : Nat) (sa : Bool)
  | lnkEnWrite (d : Nat) (en : Bool) (via : Via)
  /-- The lanes in `bad` fail (R388). -/
  | laneFailure (d bad : Nat)
  | shutterGateChange (d t : Nat)
  | shutterCommit (d : Nat) (via : Via)
  | policerCommit (d v : Nat) (via : Via)
  | latClr (d : Nat) (via : Via)
  | lnkTxpnLoRead (d : Nat) (via : Via)
  /-- Training completes; the lanes in `good` work (R388). -/
  | fabricLinkTrained (d good : Nat)
  /-- CTX_CREATE (R416): `latent` is FLAGS[0], `home` HOME_DIE, `format` FORMAT and `tail` TAIL_FORMAT. -/
  | ctxCreate (q : Desc) (ctx home : Nat) (latent : Bool) (model layersM1 h dim w g format tail : Nat)
  | ctxDestroy (q : Desc) (ctx : Nat) (force : Bool)
  | attest (q : Desc) (dest room : Nat) (certs : Bool) (nonce : List Byte)
  /-- CAK_SET (R453): CKN_BYTES, BYTES, and what the object read from SOURCE shows. -/
  | cakSet (q : Desc) (die ckn bytes : Nat) (obj : CakObj)
  /-- TENANT_REMOVE (R423). -/
  | tenantRemove (q : Desc) (dest t : Nat)
  /-- The present removal step of partition `p` ends (R424). -/
  | removalStepEnd (p t : Nat)
  /-- Mailbox operations (R454, R455), with the port whose PF wrote GO. -/
  | remove (port : Nat) (obj : MboxObj) (p dest t : Nat)
  | fwStage (port : Nat) (obj : MboxObj) (img : FwImage)
  | fwSelect (port : Nat) (obj : MboxObj) (slot : Nat)
  | svnCommit (port : Nat) (obj : MboxObj)
  | approvedSet (port : Nat) (obj : MboxObj) (mode : Nat)
  | tenantKey (port : Nat) (obj : MboxObj) (p : Nat) (key : List Byte)
  | zeroize (port : Nat) (obj : MboxObj)
  | debugSeal (port : Nat) (obj : MboxObj)
  | ownerProvision (port : Nat) (obj : MboxObj) (key : List Byte)
  /-- SEC_CTRL.SELFTEST_NOW written 1; `code` is the first failed test, 0 for none (R457). -/
  | selftestNow (via : Via) (code : Nat)
  | entropyHealthFail
  /-- Wicket `w` ends its task, the producers queue `fresh`, and the wicket takes its next task (R569). -/
  | wicketTakeTask (d w : Nat) (fresh : List TaskReq) (t : Nat)
  | wicketWatchdogExpiry (d w t : Nat)
  /-- Lines of HBM and SRAM that the scrubber found in error; `last` ends the pass of HBM (R466). -/
  | hbmScrubPass (d : Nat) (hbm : List ScrubLine) (sramCe : Nat) (sram : List SramLine) (last : Bool) (t : Nat)
  /-- A flit of the UCIe link of dies `d` and `e` arrives (R472). -/
  | d2dFlitRx (d e : Nat) (rx : FlitRx)
  /-- A die is fenced for a cause of R493. -/
  | dieFence (d cause t : Nat)
  | adoption (d t : Nat)
  | dieAssign (q : Desc) (die : Nat)
  | unitTest (q : Desc) (kind die index : Nat)
  | unitFence (q : Desc) (kind die index : Nat)
  | lossList (q : Desc) (dest room : Nat)
  /-- The self-test of unit `u` of kind `k` on die `d` ends with a code of R557. -/
  | selftestComplete (k d u code t : Nat)
  | rasUnitFenceCmd (via : Via)
  | rasUnitTestCmd (via : Via)
  | rasUnitRow0Read (via : Via)
  | getUnits (die first count : Nat)
  | reportUnit (kind die index report t : Nat)
  | getAttest (part : Nat) (certs : Bool) (nonce : List Byte) (offset : Nat)
  | getRas (die : Nat)
  /-- Set Endpoint ID, on PCI Express or on SMBus (R494). -/
  | setEndpointId (pcie : Bool) (eid : Nat)
  | pldmRequest (sensor : PldmSensor)
  /-- The AON supply rises through power good; `lossLow` says that PWR_LOSS_N is low then, `code` is the first self-test of the
  boot to fail, 0 for none, `straps` the levels sampled, and `rails` one bit for each die whose rails fail to reach 90 % (R456, R516,
  R584, R587, R589). -/
  | powerOnReset (lossLow : Bool) (code : Nat) (straps : Straps) (rails : Nat)
  | packageColdReset (by_ : ColdBy) (code t : Nat)
  | deferredColdReset (t : Nat)
  /-- A write of PWR_CTRL with WARM = 1. -/
  | packageWarmReset (via : Via) (key t : Nat)
  /-- A write of DPM_CTRL with RESET = 1; the stacks in `bad` fail training (R471, R516). -/
  | dieReset (d : Nat) (via : Via) (key bad t : Nat)
  /-- A domain (R501) has stayed at `mv` or below for 200 ns, below its warning level or its reset level; the warned domains of a die
  (R505 to R510) may have recovered: `lows` gives (domain, lowest voltage captured, voltage stayed above for 10 µs). -/
  | supplyWarning (dom mv t : Nat)
  | supplyRecovery (d : Nat) (lows : List (Nat × Nat × Nat)) (t : Nat)
  | supplyReset (dom mv code t : Nat)
  /-- A step of the adaptive voltage loop with the timing margins of CAS and LOG in ps (R511). -/
  | avsStep (d cas log t : Nat)
  | stateReq (d req : Nat) (via : Via)
  /-- The change of power state that a die has under way completes; `code` is that of a die power-on test that fails (R456,
  R502). -/
  | powerStateChange (d code t : Nat)
  | minClr (via : Via)
  | pwrLossQualified (t : Nat)
  | pwrLossRelease (t : Nat)
  /-- Sensor `n` of a die reads `temp` °C: 0 to 3 its junction sensors, 4 to 6 its stacks' (R590). -/
  | thermtrip (d n temp : Nat)
  | ppsOut (t : Nat)
  /-- A stack's temperature crosses a threshold of R572. -/
  | stackHot (d k temp t : Nat)
  | memInject (d : Nat) (via : Via)
  /-- Both programs of the i-th journal page in flight pass (R277). -/
  | journalPageDurable (d n ns : Nat)
  /-- PMC_VALUE of partition `p` written (R529). -/
  | pmcValueWrite (p v : Nat) (via : Via)
  /-- PMC_SNAP.FREEZE and PMC_CTRL.FREEZE written (R530). -/
  | partitionFreeze (p : Nat) (on : Bool) (via : Via)
  | packageFreeze (on : Bool) (via : Via)
  | freezeAtReached (t : Nat)
  | pmcTagSeedWrite (p seed : Nat) (via : Via)
  | pmcTraceEnWrite (p : Nat) (en : Bool) (via : Via)
  | peakClr (p : Nat) (via : Via)
  | histogramClr (p : Nat) (via : Via)
  | pmcIdxWrite (p v : Nat) (via : Via)
  /-- A write of a register without a row of its own (R10 to R13); offsets from 2²⁶ on stand for BAR2 (R534). -/
  | registerWrite (via : Via) (off w : Nat)
  /-- An access, a write when `write`, at an offset that no register or doorbell occupies (R563), or of BAR2 (R534). -/
  | unmappedAccess (via : Via) (off : Nat) (write : Bool)
  /-- An access of a wrong size or alignment (R564). -/
  | badAccess (via : Via) (off : Nat) (write : Bool)
  /-- Console commands (R549). -/
  | help
  | ident
  | status (d : Option Nat)
  | units (d : Nat)
  | sense (dom : Option Nat)
  | log (n : Option Nat)
  | regRead (off : Nat)
  | regWrite (off v : Nat)
  | memRead (d addr n : Nat)
  | memWrite (d addr v : Nat)
  | svcOn
  | svcOff
  | holdOn (d : Nat)
  | holdOff (d : Nat)
  | level (v : Nat)
  | levelAuto
  | pattern (d c byte : Nat)
  | patternOff (d c : Nat)
  /-- LOOP, with BITS, ERR and UNCORR that each lane or channel ends with (R556). -/
  | loop (kind d u : Nat) (far : Bool) (lanes : List (Nat × Nat × Nat))
  | test (kind d u : Nat)
  | testDie (d : Nat)
  | fence (kind d u : Nat)
  | unfence (kind d u : Nat)
  /-- Injections: `seen` says that the unit's check sees the error; INJECT FLASH carries the read of the checkpoint's sector. -/
  | injectPane (d u : Nat) (seen : Bool)
  | injectAtm (d u : Nat) (seen : Bool)
  | injectFlash (d : Nat) (r : SectorRead) (t : Nat)
  | pstate (d st : Nat)
  /-- Resets by the console; `code` is the first self-test of the boot to fail, and the stacks in `bad` fail training (R456, R516). -/
  | resetCold (code t : Nat)
  | resetWarm (t : Nat)
  | resetDie (d bad t : Nat)
  | baud (rate : Nat)
  | baudSwitch
  | debugOpen
  | consoleAbort
  | consoleBreak
  | aonHeartbeat
  /-- TAP instructions (R559): what the boundary register captures, and the bits shifted in. -/
  | idcode
  | samplePreload (captured din : List Bool)
  | extest (captured din : List Bool)
  | clamp (captured din : List Bool)
  | highz (captured din : List Bool)
  | bypass (din : List Bool)
  /-- An internal scan instruction, 0x10 to 0xFE (R440, R559). -/
  | internalScan (code : Nat) (din : List Bool)
  | testLogicReset
deriving DecidableEq, Repr

end Sys2Proof
end

