-- ==== Sys2Proof/Decode.lean ====
section
/-!
DEFINITION. Sys2Proof/Decode.lean: the command a word spells. Every row of spec/opcode_table.json has an empty list of
fields: the block's commands have no encoding in bits.
-/
namespace Sys2Proof

/-- No word of any length spells a command (DESIGN CHOICE, log entry 87). -/
def decodeTableWord (_nbits _w : Nat) : Option Instr := none

end Sys2Proof
end

