-- ==== Sys2Proof/Config.lean ====
section
/-!
DEFINITION. Sys2Proof/Config.lean: the free values of the model: what the spec leaves open although the part goes on.
None has a body, so a claim holds whatever they are. Each is named in the assumption log.
-/
namespace Sys2Proof

/-- The FP32 word the exp2 unit gives for an FP32 argument, within the bound of R130 (DESIGN CHOICE, log entry 5). -/
opaque Config.exp2 : Nat → Nat

/-- The FP32 word of m + ln(l), within the bound of R132 (DESIGN CHOICE, log entry 5). -/
opaque Config.lse : Nat → Nat → Nat

/-- Which free segment, page, chunk or slot an allocation takes (R62 to R65): its argument is the free counter (DESIGN CHOICE, log entry 2; DESIGN CHOICE, log entry 8). -/
opaque Config.pick : Nat → Nat

/-- The rate adjustment the servo takes after a measurement (R23), in 2⁻⁴⁸ ns per TIME cycle (DESIGN CHOICE, log entry 6). -/
opaque Config.servo : Nat → Int

/-- HBM addresses at which the structures of a die are placed (R103) (DESIGN CHOICE, log entry 9). -/
opaque Config.place : Nat → Nat

/-- The first MSG_ID, PSN and similar starting numbers the spec leaves to the part (DESIGN CHOICE, log entry 2; DESIGN CHOICE, log entry 22). -/
opaque Config.first : Nat → Nat

/-- Keys, nonces and other random words of the cryptographic module, by draw (DESIGN CHOICE, log entry 2; DESIGN CHOICE, log entry 49). -/
opaque Config.random : Nat → Nat

/-- The generation a key table entry gets when its table is placed: the draw of the placement and the entry (R371) (DESIGN CHOICE, log entry 50). -/
opaque Config.keyGen : Nat → Nat → Nat

/-- Values a sensor or link shows that no rule computes (DESIGN CHOICE, log entry 2; DESIGN CHOICE, log entry 56). -/
opaque Config.sense : Nat → Nat

/-- Whether the tagging LFSR of R535 shifts right (towards bit 0) or left: R535 gives its polynomial only (DESIGN CHOICE, log entry 10). -/
opaque Config.lfsrRight : Bool

/-- Bytes of a digest, key or certificate whose input the model does not hold: what it is of, a number for that thing, and the
place of the byte (R447, R449) (DESIGN CHOICE, log entry 49). -/
opaque Config.digest : Nat → Nat → Nat → BitVec 8

/-- Bytes of a signature: the draw it is made with and the place of the byte (R430, R449) (DESIGN CHOICE, log entry 49). -/
opaque Config.sign : Nat → Nat → BitVec 8

/-- The manufacturer identity of the IDCODE register, which is fused (R559) (DESIGN CHOICE, log entry 69). -/
opaque Config.jedec : Nat

/-- Data shifted out of the internal scan chains (R559) (DESIGN CHOICE, log entry 69). -/
opaque Config.scan : Nat → Bool

/-- Bytes of a record in HBM or of a checkpoint or an anchor that no rule gives: the kind of record, its number, and the place of
the byte (DESIGN CHOICE, log entry 33; DESIGN CHOICE, log entry 134). -/
opaque Config.recByte : Nat → Nat → Nat → BitVec 8

/-- The parity bytes of the LDPC code over the first 4,136 bytes of a codeword (R257) (DESIGN CHOICE, log entry 134). -/
opaque Config.ldpc : List Nat → Nat → Nat

/-- The key that wraps a namespace key: KDF(PKEK, "NORVOS NSK", namespace, generation, die) (R437) (DESIGN CHOICE, log entry 134). -/
opaque Config.kek : Nat → Nat → Nat → Nat

/-- The IV of an anchor's sector, and in its low 56 bits the BAND_SEQ of its metadata: it lies in no band (R258, R267, R279) (DESIGN CHOICE, log entry 33). -/
opaque Config.anchorIv : Nat → Nat

/-- The message sequence number of a RoCEv2 acknowledgement: queue pair and PSN (R383) (PRESUMED, log entry 128). -/
opaque Config.roceMsn : Nat → Nat → Nat

/-- Octets of an MKA frame (0) or a PTP frame (1) by its kind and their place: other standards give them (R390, R394) (PRESUMED, log entry 128). -/
opaque Config.netByte : Nat → Nat → Nat → Nat

/-- The SSCI of a die's port by the number of the SAK: MKA gives it (R390) (PRESUMED, log entry 128). -/
opaque Config.ssci : Nat → Nat → Nat

/-- The salt of a die's port by the number of the SAK: MKA gives it (R390) (PRESUMED, log entry 128). -/
opaque Config.salt : Nat → Nat → Nat

/-- The SAK of a die's port by its number: MKA gives it (R390) (PRESUMED, log entry 128). -/
opaque Config.sak : Nat → Nat → Nat

end Sys2Proof
end

