-- ==== Sys2Proof/Machine/Tables.lean ====
section
/-!
DEFINITION. Sys2Proof/Machine/Tables.lean: the sparse tables the state is built from. A table is a list of keys and
values with the keys strictly rising; a default-valued table lists no value equal to its default, so that equal
contents are equal lists.
-/
namespace Sys2Proof.Machine

/-- The value at key `k`, if the table lists one. -/
def tget {α : Type} : List (Nat × α) → Nat → Option α
  | [], _ => none
  | e :: r, k => if e.1 = k then some e.2 else tget r k

/-- The table with `v` at key `k`, the keys kept rising (DESIGN CHOICE, log entry 85). -/
def tput {α : Type} : List (Nat × α) → Nat → α → List (Nat × α)
  | [], k, v => [(k, v)]
  | e :: r, k, v =>
    if k < e.1 then (k, v) :: e :: r
    else if e.1 = k then (k, v) :: r
    else e :: tput r k v

/-- The table without key `k`. -/
def tdel {α : Type} : List (Nat × α) → Nat → List (Nat × α)
  | [], _ => []
  | e :: r, k => if e.1 = k then tdel r k else e :: tdel r k

/-- Whether the table lists key `k`. -/
def thas {α : Type} (t : List (Nat × α)) (k : Nat) : Bool := (tget t k).isSome

/-- The value at key `k` of a table whose unlisted keys hold `d`. -/
def dget {α : Type} (t : List (Nat × α)) (d : α) (k : Nat) : α := (tget t k).getD d

/-- The table with `v` at `k`; writing the default removes the entry (DESIGN CHOICE, log entry 85). -/
def dset {α : Type} [DecidableEq α] (t : List (Nat × α)) (d : α) (k : Nat) (v : α) : List (Nat × α) :=
  if v = d then tdel t k else tput t k v

/-- The table with the entry at `k`, if any, changed by `f`. -/
def tmod {α : Type} (t : List (Nat × α)) (k : Nat) (f : α → α) : List (Nat × α) :=
  match tget t k with
  | none => t
  | some v => tput t k (f v)

/-- Every listed value changed by `f`, which also sees its key. -/
def tmap {α : Type} (f : Nat → α → α) : List (Nat × α) → List (Nat × α)
  | [] => []
  | e :: r => (e.1, f e.1 e.2) :: tmap f r

/-- The entries that satisfy `p`. -/
def tfilter {α : Type} (p : Nat → α → Bool) : List (Nat × α) → List (Nat × α)
  | [] => []
  | e :: r => if p e.1 e.2 then e :: tfilter p r else tfilter p r

/-- A default-valued table without its entries that hold the default. -/
def dnorm {α : Type} [DecidableEq α] (d : α) (t : List (Nat × α)) : List (Nat × α) := tfilter (fun _ v => decide (v ≠ d)) t

/-- Every listed value of a default-valued table changed by `f`. -/
def dmap {α : Type} [DecidableEq α] (d : α) (f : Nat → α → α) (t : List (Nat × α)) : List (Nat × α) := dnorm d (tmap f t)

/-- The keys of a table. -/
def tkeys {α : Type} (t : List (Nat × α)) : List Nat := t.map (·.1)

/-- The `n`-th number at or above `lo` that is not in the rising list `used`. -/
def nthFree : List Nat → Nat → Nat → Nat
  | [], lo, n => lo + n
  | u :: r, lo, n =>
    if u < lo then nthFree r lo n
    else if lo + n < u then lo + n
    else nthFree r (u + 1) (n - (u - lo))

/-- The keys of the table strictly rise (DESIGN CHOICE, log entry 85). -/
def trising {α : Type} : List (Nat × α) → Bool
  | [] => true
  | e :: r =>
    (match r with
     | [] => true
     | e' :: _ => decide (e.1 < e'.1)) && trising r

/-- The canonical form of a default-valued table (DESIGN CHOICE, log entry 85). -/
def dwf {α : Type} [DecidableEq α] (d : α) (t : List (Nat × α)) : Bool :=
  trising t && t.all (fun e => decide (e.2 ≠ d))

end Sys2Proof.Machine
end

