-- ==== Sys2Proof/Machine/Operands.lean ====
section
/-!
DEFINITION. Sys2Proof/Machine/Operands.lean: the element formats (R108), exact values, their rounding, and the
arithmetic of the Casement (R107, R127 to R134, R171, R176, R195).
-/
namespace Sys2Proof.Machine

/-! ### Exact values -/

/-- A value: NaN, an infinity, or (−1)^neg × m × 2^e exactly. -/
inductive Num where
  | nan
  | inf (neg : Bool)
  | fin (neg : Bool) (m : Nat) (e : Int)
deriving DecidableEq, Repr

def Num.zero : Num := .fin false 0 0

/-- The value as a signed multiple of 2^e. -/
def signed (neg : Bool) (m : Nat) : Int := if neg then -(m : Int) else (m : Int)

/-- `n` × 2^e as a value; `z` is the sign a zero takes. -/
def ofSigned (n : Int) (e : Int) (z : Bool) : Num :=
  if n = 0 then .fin z 0 e else .fin (decide (n < 0)) n.natAbs e

def Num.isNaN : Num → Bool
  | .nan => true
  | _ => false

def Num.finite : Num → Bool
  | .fin _ _ _ => true
  | _ => false

def Num.isZero : Num → Bool
  | .fin _ m _ => m == 0
  | _ => false

def Num.neg : Num → Num
  | .nan => .nan
  | .inf b => .inf (!b)
  | .fin b m e => .fin (!b) m e

/-- Exact sum (IEEE 754 for infinities and NaN; a sum of zeros of unlike sign is +0). -/
def Num.add : Num → Num → Num
  | .nan, _ => .nan
  | _, .nan => .nan
  | .inf a, .inf b => if a = b then .inf a else .nan
  | .inf a, _ => .inf a
  | _, .inf b => .inf b
  | .fin a m e, .fin b n f =>
    let k := min e f
    ofSigned (signed a m * 2 ^ (e - k).toNat + signed b n * 2 ^ (f - k).toNat) k (a && b)

/-- Exact product. -/
def Num.mul : Num → Num → Num
  | .nan, _ => .nan
  | _, .nan => .nan
  | .inf a, .inf b => .inf (a != b)
  | .inf a, .fin b n _ => if n = 0 then .nan else .inf (a != b)
  | .fin a m _, .inf b => if m = 0 then .nan else .inf (a != b)
  | .fin a m e, .fin b n f => .fin (a != b) (m * n) (e + f)

/-- Exact sum of a list, from −0 so that the sum of no terms or of −0 terms is −0. -/
def Num.sum : List Num → Num
  | [] => .fin true 0 0
  | x :: r => x.add (Num.sum r)

/-- `a < b` of two values that are not NaN; zeros are equal. -/
def Num.lt : Num → Num → Bool
  | .nan, _ => false
  | _, .nan => false
  | .inf a, .inf b => a && !b
  | .inf a, _ => a
  | _, .inf b => !b
  | .fin a m e, .fin b n f =>
    let k := min e f
    decide (signed a m * 2 ^ (e - k).toNat < signed b n * 2 ^ (f - k).toNat)

/-- The larger value; NaN prevails (R134). -/
def Num.max (a b : Num) : Num := if a.isNaN || b.isNaN then .nan else if a.lt b then b else a

/-- Magnitude. -/
def Num.abs : Num → Num
  | .fin _ m e => .fin false m e
  | .inf _ => .inf false
  | .nan => .nan

/-- floor(log2) of a value that is finite and not 0. -/
def Num.log2 : Num → Int
  | .fin _ m e => (Nat.log2 m : Int) + e
  | _ => 0

/-! ### Rounding -/

/-- `m` × 2^e rounded to nearest, ties to even, at the quantum 2^q. -/
def rneAt (m : Nat) (e q : Int) : Nat :=
  if q ≤ e then m * 2 ^ (e - q).toNat
  else
    let s := (q - e).toNat
    let d := m / 2 ^ s
    let r := m % 2 ^ s
    if 2 * r < 2 ^ s then d else if 2 ^ s < 2 * r then d + 1 else if d % 2 = 0 then d else d + 1

/-- A binary format: precision with the hidden bit, exponents of its smallest and largest normal numbers, and its
largest finite value as m × 2^e. -/
structure Fmt where
  prec : Nat
  emin : Int
  emax : Int
  maxM : Nat
  maxE : Int
  /-- Exponent bits and bias of the code, for codes of R108. -/
  ebits : Nat
  bias : Nat
  /-- The all-ones exponent codes infinity and NaN. -/
  ieee : Bool
deriving DecidableEq, Repr

/-- The weight of the sign bit in a code (DEDUCED, log entry 113). -/
def Fmt.signBit (f : Fmt) : Nat := 2 ^ (f.prec - 1 + f.ebits)

def fmtFP32 : Fmt := ⟨24, -126, 127, 0xFFFFFF, 104, 8, 127, true⟩
def fmtBF16 : Fmt := ⟨8, -126, 127, 0xFF, 120, 8, 127, true⟩
def fmtFP16 : Fmt := ⟨11, -14, 15, 0x7FF, 5, 5, 15, true⟩
def fmtE4M3 : Fmt := ⟨4, -6, 8, 14, 5, 4, 7, false⟩
def fmtE5M2 : Fmt := ⟨3, -14, 15, 7, 13, 5, 15, true⟩
def fmtE3M2 : Fmt := ⟨3, -2, 4, 7, 2, 3, 3, false⟩
def fmtE2M3 : Fmt := ⟨4, 0, 2, 15, -1, 2, 1, false⟩
def fmtE2M1 : Fmt := ⟨2, 0, 2, 3, 1, 2, 1, false⟩

/-- The quantum of a value of exponent `x` in the format. -/
def Fmt.quantum (f : Fmt) (x : Int) : Int := max x f.emin - (f.prec - 1 : Nat)

/-- A finite value rounded RNE, without regard to the format's largest value. -/
def Fmt.rne (f : Fmt) (v : Num) : Num :=
  match v with
  | .fin b m e => if m = 0 then .fin b 0 0 else let q := f.quantum v.log2; .fin b (rneAt m e q) q
  | v => v

/-- Whether a finite value lies beyond the format's largest finite value. -/
def Fmt.over (f : Fmt) (v : Num) : Bool := (Num.fin false f.maxM f.maxE).lt v.abs

/-- Rounded RNE, overflowing to infinity (IEEE 754). -/
def Fmt.round (f : Fmt) (v : Num) : Num :=
  match v with
  | .fin b _ _ => let r := f.rne v; if f.over r then .inf b else r
  | v => v

/-- Rounded RNE, saturating at the largest finite value; an infinity saturates too. -/
def Fmt.sat (f : Fmt) (v : Num) : Num :=
  match v with
  | .nan => .nan
  | .inf b => .fin b f.maxM f.maxE
  | .fin b _ _ => let r := f.rne v; if f.over r then .fin b f.maxM f.maxE else r

/-- Rounded to FP32, RNE. -/
def r32 (v : Num) : Num := fmtFP32.round v
/-- Sum and product rounded to FP32. -/
def add32 (a b : Num) : Num := r32 (a.add b)
def mul32 (a b : Num) : Num := r32 (a.mul b)
def sub32 (a b : Num) : Num := r32 (a.add b.neg)

/-- Quotient of two values rounded RNE to FP32. -/
def div32 : Num → Num → Num
  | .nan, _ => .nan
  | _, .nan => .nan
  | .inf _, .inf _ => .nan
  | .inf a, .fin b _ _ => .inf (a != b)
  | .fin a _ _, .inf b => .fin (a != b) 0 0
  | .fin a m e, .fin b n f =>
    if n = 0 then (if m = 0 then .nan else .inf (a != b))
    else
      let s := 64 + Nat.log2 n
      let q := m * 2 ^ s / n
      let st := if m * 2 ^ s % n = 0 then 0 else 1
      r32 (.fin (a != b) (2 * q + st) (e - f - (s : Int) - 1))

/-! ### Codes (R108) -/

/-- The value a code of the format holds. -/
def Fmt.decode (f : Fmt) (c : Nat) : Num :=
  let mb := f.prec - 1
  let man := c % 2 ^ mb
  let ex := c / 2 ^ mb % 2 ^ f.ebits
  let neg := c / 2 ^ (mb + f.ebits) % 2 == 1
  if f.ieee && ex == 2 ^ f.ebits - 1 then (if man = 0 then .inf neg else .nan)
  else if f == fmtE4M3 && ex == 15 && man == 7 then .nan
  else if ex = 0 then .fin neg man (f.emin - (mb : Int))
  else .fin neg (2 ^ mb + man) ((ex : Int) - (f.bias : Int) - (mb : Int))

/-- The code of a value the format holds exactly; NaN gives the canonical quiet NaN. -/
def Fmt.encode (f : Fmt) (v : Num) : Nat :=
  let mb := f.prec - 1
  let sgn (b : Bool) : Nat := if b then 2 ^ (mb + f.ebits) else 0
  match v with
  | .nan => if f.ieee then (2 ^ f.ebits - 1) * 2 ^ mb + 2 ^ (mb - 1) else 2 ^ (mb + f.ebits) - 1
  | .inf b => sgn b + (2 ^ f.ebits - 1) * 2 ^ mb
  | .fin b m e =>
    if m = 0 then sgn b
    else
      let q := f.quantum v.log2
      let k := rneAt m e q
      if k < 2 ^ mb then sgn b + k
      else sgn b + ((q + (mb : Int) + (f.bias : Int)).toNat) * 2 ^ mb + (k - 2 ^ mb)

/-- FP32 words. -/
def dec32 (w : Nat) : Num := fmtFP32.decode w
def enc32 (v : Num) : Nat := fmtFP32.encode v

/-- The format of a code of R108. -/
def fmtOf (code : Nat) : Fmt :=
  if code = 1 then fmtE4M3 else if code = 2 then fmtE5M2 else if code = 3 then fmtE3M2 else if code = 4 then fmtE2M3
  else if code = 5 then fmtE2M1 else if code = 8 then fmtBF16 else if code = 9 then fmtFP16 else fmtFP32

/-- Element bits of a format code (R108). -/
def bitsOfFmt (code : Nat) : Nat :=
  if code ≤ 2 then 8 else if code ≤ 4 then 6 else if code = 5 then 4 else if code ≤ 9 then 16 else 32

/-- Codes 0x1 to 0x5 are MX formats, with an E8M0 scale per 32 elements. -/
def isMX (code : Nat) : Bool := decide (1 ≤ code) && decide (code ≤ 5)

/-- emax of R195. -/
def emaxOf (code : Nat) : Int :=
  if code = 1 then 8 else if code = 2 then 15 else if code = 3 then 4 else 2

/-- A value scaled by an E8M0 scale byte: 2^(byte − 127), 0xFF makes it NaN (R107). -/
def scaleBy (v : Num) (byte : Nat) : Num :=
  if byte = 255 then .nan
  else match v with
    | .fin b m e => .fin b m (e + (byte : Int) - 127)
    | v => v

/-! ### Block quantisation (R127, R195) -/

/-- The largest magnitude of a list of values. -/
def amax : List Num → Num
  | [] => .zero
  | x :: r => x.abs.max (amax r)

/-- The scale exponent of a group: floor(log2 amax) − emax within −127 to 127; −127 when amax is 0 (R195). -/
def scaleExp (code : Nat) (a : Num) : Int :=
  if a.isZero then -127 else max (-127) (min 127 (a.log2 - emaxOf code))

/-- A group of values in an MX format: its scale byte, its codes, and how many elements saturated (R195). A group with
a NaN or an infinity takes scale 0xFF and codes 0 (DESIGN CHOICE, log entry 116). -/
def quantGroup (code : Nat) (g : List Num) : Nat × List Nat × Nat :=
  let a := amax g
  if !a.finite then (255, g.map (fun _ => 0), 0)
  else
    let x := scaleExp code a
    let f := fmtOf code
    let sc : List Num := g.map (fun v => match v with | .fin b m e => .fin b m (e - x) | v => v)
    ((x + 127).toNat, sc.map (fun v => f.encode (f.sat v)),
      (sc.filter (fun v => f.over (f.rne v))).length)

/-- Lists cut in groups of `n`; `fuel` bounds the number of groups. -/
def groupsOf {α : Type} (n : Nat) : Nat → List α → List (List α)
  | 0, _ => []
  | _, [] => []
  | k + 1, l => l.take n :: groupsOf n k (l.drop n)

/-- A list cut in groups of 32 (R108). -/
def by32 {α : Type} (l : List α) : List (List α) := groupsOf 32 l.length l

/-- A row of values in an MX format. -/
def quantRow (code : Nat) (l : List Num) : Pos :=
  let qs := (by32 l).map (quantGroup code)
  ⟨(qs.map (fun q => q.2.1)).flatten, qs.map (·.1)⟩

/-- The values of a row of codes: widened, and with each group's scale folded in for an MX format (R107). -/
def rowValues (code : Nat) (p : Pos) : List Num :=
  let f := fmtOf code
  if isMX code then
    ((by32 p.codes).zip p.scales).flatMap (fun g => g.1.map (fun c => scaleBy (f.decode c) g.2))
  else p.codes.map f.decode

/-! ### Dot products (R128) -/

/-- Exact group sums of 32 products, each rounded once to FP32, added in order to an accumulator that starts at +0. -/
def dotAcc : Num → List (List (Num × Num)) → Num
  | acc, [] => acc
  | acc, g :: r => dotAcc (add32 acc (r32 (Num.sum (g.map (fun p => p.1.mul p.2))))) r

/-- A dot product of two rows (R128). -/
def dot32 (a b : List Num) : Num := dotAcc .zero (by32 (a.zip b))

/-! ### exp2 and ln (R130, R132) -/

/-- 2^(2^−i) for i from 1 to 96, in units of 2⁻¹²⁸. -/
def exp2Tab : List Nat :=
  [0x16A09E667F3BCC908B2FB1366EA957D3E, 0x1306FE0A31B7152DE8D5A46305C85EDEC, 0x1172B83C7D517ADCDF7C8C50EB14A7920] ++
  [0x10B5586CF9890F6298B92B71842A98364, 0x1059B0D31585743AE7C548EB68CA417FE, 0x102C9A3E778060EE6F7CACA4F7A29BDE9] ++
  [0x10163DA9FB33356D84A66AE336DCDFA40, 0x100B1AFA5ABCBED6129AB13EC11DC9544, 0x10058C86DA1C09EA1FF19D294CF2F679C] ++
  [0x1002C605E2E8CEC506D21BFC89A23A010, 0x100162F3904051FA128BCA9C55C31E5E0, 0x1000B175EFFDC76BA38E31671CA939726] ++
  [0x100058BA01FB9F96D6CACD4B180917C3E, 0x10002C5CC37DA9491D0985C348C68E7B3, 0x1000162E525EE054754457D5995292026] ++
  [0x10000B17255775C040618BF4A4ADE83FC, 0x1000058B91B5BC9AE2EED81E9B7D4CFAC, 0x100002C5C89D5EC6CA4D7C8ACC017B7C9] ++
  [0x10000162E43F4F831060E02D839A9D16D, 0x100000B1721BCFC99D9F890EA06911763, 0x10000058B90CF1E6D97F9CA14DBCC1628] ++
  [0x1000002C5C863B73F016468F6BAC5CA2C, 0x100000162E430E5A18F6119E3C02282A5, 0x1000000B1721835514B86E6D96EFD1BFF] ++
  [0x100000058B90C0B48C6BE5DF846C5B2F0, 0x10000002C5C8601CC6B9E94213C72737A, 0x1000000162E42FFF037DF38AA2B219F06] ++
  [0x10000000B17217FBA9C739AA5819F44F9, 0x1000000058B90BFCDEE5ACD3C1CEDC823, 0x100000002C5C85FE31F35A6A30DA1BE50] ++
  [0x10000000162E42FF0999CE3541B9FFFCF, 0x100000000B17217F80F4EF5AADDA45554, 0x10000000058B90BFBF8479BD5A81B51AD] ++
  [0x1000000002C5C85FDF84BD62AE30A74CC, 0x100000000162E42FEFB2FED257559BDAA, 0x1000000000B17217F7D5A7716BBA4A9AF] ++
  [0x100000000058B90BFBE9DDBAC5E109CCF, 0x10000000002C5C85FDF4B15DE6F17EB0D, 0x1000000000162E42FEFA494F1478FDE05] ++
  [0x10000000000B17217F7D20CF927C8E94C, 0x1000000000058B90BFBE8F71CB4E4B33E, 0x100000000002C5C85FDF477B662B26945] ++
  [0x10000000000162E42FEFA3AE53369388C, 0x100000000000B17217F7D1D351A389D40, 0x10000000000058B90BFBE8E8B2D3D4EDE] ++
  [0x1000000000002C5C85FDF4741BEA6E77F, 0x100000000000162E42FEFA39FE95583C3, 0x1000000000000B17217F7D1CFB72B45E2] ++
  [0x100000000000058B90BFBE8E7CC35C3F1, 0x10000000000002C5C85FDF473E242EA38, 0x1000000000000162E42FEFA39F02B772C] ++
  [0x10000000000000B17217F7D1CF7D83C1A, 0x1000000000000058B90BFBE8E7BDCBE2E, 0x100000000000002C5C85FDF473DEA871F] ++
  [0x10000000000000162E42FEFA39EF44D91, 0x100000000000000B17217F7D1CF79E949, 0x10000000000000058B90BFBE8E7BCE544] ++
  [0x1000000000000002C5C85FDF473DE6ECA, 0x100000000000000162E42FEFA39EF366F, 0x1000000000000000B17217F7D1CF79AFA] ++
  [0x100000000000000058B90BFBE8E7BCD6D, 0x10000000000000002C5C85FDF473DE6B2, 0x1000000000000000162E42FEFA39EF358] ++
  [0x10000000000000000B17217F7D1CF79AC, 0x1000000000000000058B90BFBE8E7BCD5, 0x100000000000000002C5C85FDF473DE6A] ++
  [0x10000000000000000162E42FEFA39EF35, 0x100000000000000000B17217F7D1CF79A, 0x10000000000000000058B90BFBE8E7BCD] ++
  [0x1000000000000000002C5C85FDF473DE6, 0x100000000000000000162E42FEFA39EF3, 0x1000000000000000000B17217F7D1CF79] ++
  [0x100000000000000000058B90BFBE8E7BC, 0x10000000000000000002C5C85FDF473DE, 0x1000000000000000000162E42FEFA39EF] ++
  [0x10000000000000000000B17217F7D1CF7, 0x1000000000000000000058B90BFBE8E7B, 0x100000000000000000002C5C85FDF473D] ++
  [0x10000000000000000000162E42FEFA39E, 0x100000000000000000000B17217F7D1CF, 0x10000000000000000000058B90BFBE8E7] ++
  [0x1000000000000000000002C5C85FDF473, 0x100000000000000000000162E42FEFA39, 0x1000000000000000000000B17217F7D1C] ++
  [0x100000000000000000000058B90BFBE8E, 0x10000000000000000000002C5C85FDF47, 0x1000000000000000000000162E42FEFA3] ++
  [0x10000000000000000000000B17217F7D1, 0x1000000000000000000000058B90BFBE8, 0x100000000000000000000002C5C85FDF4] ++
  [0x10000000000000000000000162E42FEFA, 0x100000000000000000000000B17217F7D, 0x10000000000000000000000058B90BFBE] ++
  [0x1000000000000000000000002C5C85FDF, 0x100000000000000000000000162E42FEF, 0x1000000000000000000000000B17217F7]

/-- The product of the table's factors that the bits of `f` (96 fraction bits, highest first) select. -/
def exp2Mul : List Nat → Nat → Nat → Nat
  | [], _, acc => acc
  | c :: r, f, acc =>
    let f2 := 2 * f
    if 2 ^ 96 ≤ f2 then exp2Mul r (f2 - 2 ^ 96) (acc * c / 2 ^ 128) else exp2Mul r f2 acc

/-- 2^t for a finite t, to better than 2⁻⁸⁵ of it. -/
def exp2Near (t : Num) : Num :=
  match t with
  | .fin b m e =>
    let n : Int := signed b m
    let x : Int := if 0 ≤ e + 96 then n * 2 ^ (e + 96).toNat else n / 2 ^ (-(e + 96)).toNat
    let fl : Int := x / 2 ^ 96
    .fin false (exp2Mul exp2Tab (x % 2 ^ 96).toNat (2 ^ 128)) (fl - 128)
  | v => v

/-- Whether `r` differs from a value by at most 2⁻²² of it; `x` is that value to better than 2⁻⁸⁵ of it, and the bound is
drawn in by 2⁻⁸⁰, so that nothing beyond the rule's is taken. -/
def within22 (r x : Num) : Bool :=
  match r with
  | .fin _ _ _ =>
    let d := (r.add x.neg).abs
    !((x.mul (.fin false (2 ^ 58 - 1) (-80))).lt d)
  | _ => false

/-- The exp2 unit (R130): 0 below −126; otherwise a free value within 2⁻²² of 2^t. NaN propagates (R134) (DESIGN CHOICE, log entry 5). -/
def exp2 (t : Num) : Num :=
  match t with
  | .nan => .nan
  | .inf true => .zero
  | .inf false => .inf false
  | t =>
    if t.lt (.fin true 126 0) then .zero
    else
      let x := exp2Near t
      let r := dec32 (Config.exp2 (enc32 t))
      if within22 r x then r else r32 x

/-- Bits of log2 of a number in [1, 2) held in units of 2⁻¹⁹², by repeated squaring: `n` bits. -/
def log2Bits : Nat → Nat → Nat → Nat
  | 0, _, acc => acc
  | n + 1, x, acc =>
    let y := x * x / 2 ^ 192
    if 2 ^ 193 ≤ y then log2Bits n (y / 2) (2 * acc + 1) else log2Bits n y (2 * acc)

/-- ln of a positive value, to better than 2⁻⁸⁵. -/
def lnNear (v : Num) : Num :=
  match v with
  | .fin _ m e =>
    let k := Nat.log2 m
    let x := if k ≤ 192 then m * 2 ^ (192 - k) else m / 2 ^ (k - 192)
    let lg : Int := ((k : Int) + e) * 2 ^ 96 + (log2Bits 96 x 0 : Int)
    ofSigned (lg * 0xB17217F7D1CF79ABC9E3B39803F2F6AF) (-224) false
  | v => v

/-- m + ln(l) of R132, rounded to FP32: a free value within 2⁻²¹, absolute below magnitude 1 and relative above; as at
`within22`, nothing beyond that bound is taken (DESIGN CHOICE, log entry 5). -/
def logSumExp (m l : Num) : Num :=
  if m.isNaN || l.isNaN || !m.finite || !l.finite || l.isZero then
    (if m.isNaN || l.isNaN then .nan else if l.isZero then .inf true else m.add l)
  else
    let x := m.add (lnNear l)
    let r := dec32 (Config.lse (enc32 m) (enc32 l))
    let bound := (Num.max x.abs (.fin false 1 0)).mul (.fin false (2 ^ 59 - 1) (-80))
    if r.finite && !(bound.lt (r.add x.neg).abs) then r else r32 x

end Sys2Proof.Machine
end

