-- ==== Sys2Proof/Machine/Field.lean ====
section
/-!
DEFINITION. Sys2Proof/Machine/Field.lean: how a register field is named: its BAR0 offset for instance 0, the distance
between instances, its lowest bit, its width and its reset value (R8, R10, R562).
-/
namespace Sys2Proof.Machine

/-- The blocks of the register map (R562): the package common ones, then those of a die window. -/
inductive Blk where
  | sys | tik | hrg | sec | pwr | ras | pmc | svc | ptn
  | csm | atm | pfx | stg | ftl | nrt | lnk | mem | wkt | dpm
deriving DecidableEq, Repr

/-- A field of a register of block `blk`. `off` is the register's BAR0 offset for instance 0 and `stride` the step between instances. -/
structure Fld where
  blk : Blk
  off : Nat
  stride : Nat
  lo : Nat
  w : Nat
  rst : Nat
deriving DecidableEq, Repr

/-- The access codes of R10. -/
inductive Acc where
  | rw | ro | wo | w1c | rwl
deriving DecidableEq, Repr

/-- A field as its register table states it: access code and legal range of values (R13). -/
structure FldRow where
  fld : Fld
  acc : Acc
  min : Nat
  max : Nat
deriving DecidableEq, Repr

/-- A register: `insts` instances `stride` apart, each a run of `reps` registers at 4-byte steps. -/
structure Reg where
  off : Nat
  stride : Nat
  insts : Nat
  reps : Nat
  flds : List FldRow
deriving DecidableEq, Repr

/-- The same field of the `n`-th register of a run (4-byte steps). -/
def Fld.nth (F : Fld) (n : Nat) : Fld := { F with off := F.off + 4 * n }

/-- A number for each block. -/
def Blk.ix : Blk → Nat
  | .sys => 0 | .tik => 1 | .hrg => 2 | .sec => 3 | .pwr => 4 | .ras => 5 | .pmc => 6 | .svc => 7 | .ptn => 8
  | .csm => 9 | .atm => 10 | .pfx => 11 | .stg => 12 | .ftl => 13 | .nrt => 14 | .lnk => 15 | .mem => 16 | .wkt => 17
  | .dpm => 18

/-- The key under which the register file holds field `F` of instance `i`: its offset, its block and its lowest bit. -/
def Fld.key (F : Fld) (i : Nat) : Nat := ((F.off + i * F.stride) * 32 + F.blk.ix) * 32 + F.lo % 32

/-- The BAR0 offset and the lowest bit a key names. -/
def keyOff (k : Nat) : Nat := k / 1024
def keyLo (k : Nat) : Nat := k % 32

end Sys2Proof.Machine
end

