-- ==== Sys2Proof/Machine/RegMapCas.lean ====
section
/-!
DEFINITION. Sys2Proof/Machine/RegMapCas.lean: the register fields of the die window CSM, ATM, PFX, STG blocks, from the offset and field
tables of the spec (R562 gives the bases).
-/
namespace Sys2Proof.Machine

/-- CSM_CTRL.INJECT (R150). -/
def CSM_CTRL_INJECT : Fld := ⟨.csm, 0x1000000, 0x400000, 4, 4, 0x0⟩
/-- CSM_CTRL.EN (R150). -/
def CSM_CTRL_EN : Fld := ⟨.csm, 0x1000000, 0x400000, 0, 1, 0x1⟩
/-- CSM_STATUS.ATM_ACT (R150). -/
def CSM_STATUS_ATM_ACT : Fld := ⟨.csm, 0x1000004, 0x400000, 12, 4, 0xF⟩
/-- CSM_STATUS.PANE_ACT (R150). -/
def CSM_STATUS_PANE_ACT : Fld := ⟨.csm, 0x1000004, 0x400000, 8, 4, 0xF⟩
/-- CSM_STATUS.BUSY (R150). -/
def CSM_STATUS_BUSY : Fld := ⟨.csm, 0x1000004, 0x400000, 0, 1, 0x0⟩
/-- CSM_PANE_FENCE.UNFENCE (R150). -/
def CSM_PANE_FENCE_UNFENCE : Fld := ⟨.csm, 0x1000008, 0x400000, 16, 4, 0x0⟩
/-- CSM_PANE_FENCE.FENCE (R150). -/
def CSM_PANE_FENCE_FENCE : Fld := ⟨.csm, 0x1000008, 0x400000, 8, 4, 0x0⟩
/-- CSM_PANE_FENCE.TEST_FAIL (R150). -/
def CSM_PANE_FENCE_TEST_FAIL : Fld := ⟨.csm, 0x1000008, 0x400000, 4, 4, 0x0⟩
/-- CSM_PANE_FENCE.FENCED (R150). -/
def CSM_PANE_FENCE_FENCED : Fld := ⟨.csm, 0x1000008, 0x400000, 0, 4, 0x0⟩
/-- CSM_EST_CFG.EMIT (R150). -/
def CSM_EST_CFG_EMIT : Fld := ⟨.csm, 0x100000C, 0x400000, 16, 12, 0x334⟩
/-- CSM_EST_CFG.SETUP (R150). -/
def CSM_EST_CFG_SETUP : Fld := ⟨.csm, 0x100000C, 0x400000, 0, 12, 0x100⟩
/-- CSM_EVENT.RESDROP (R150). -/
def CSM_EVENT_RESDROP : Fld := ⟨.csm, 0x1000010, 0x400000, 6, 1, 0x0⟩
/-- CSM_EVENT.NONFINITE (R150). -/
def CSM_EVENT_NONFINITE : Fld := ⟨.csm, 0x1000010, 0x400000, 5, 1, 0x0⟩
/-- CSM_EVENT.CASEMENT_FENCED (R150). -/
def CSM_EVENT_CASEMENT_FENCED : Fld := ⟨.csm, 0x1000010, 0x400000, 4, 1, 0x0⟩
/-- CSM_EVENT.DOUBLE (R150). -/
def CSM_EVENT_DOUBLE : Fld := ⟨.csm, 0x1000010, 0x400000, 3, 1, 0x0⟩
/-- CSM_EVENT.PANE_FENCED (R150). -/
def CSM_EVENT_PANE_FENCED : Fld := ⟨.csm, 0x1000010, 0x400000, 2, 1, 0x0⟩
/-- CSM_EVENT.MISMATCH (R150). -/
def CSM_EVENT_MISMATCH : Fld := ⟨.csm, 0x1000010, 0x400000, 0, 1, 0x0⟩
/-- CSM_SWEEP_ID.SWEEP (R150). -/
def CSM_SWEEP_ID_SWEEP : Fld := ⟨.csm, 0x1000014, 0x400000, 0, 32, 0x0⟩
/-- CSM_SWEEP_INFO.RECORDS (R150). -/
def CSM_SWEEP_INFO_RECORDS : Fld := ⟨.csm, 0x1000018, 0x400000, 16, 12, 0x0⟩
/-- CSM_SWEEP_INFO.CONTEXT (R150). -/
def CSM_SWEEP_INFO_CONTEXT : Fld := ⟨.csm, 0x1000018, 0x400000, 0, 12, 0x0⟩
/-- CSM_SWEEP_EST.EST (R150). -/
def CSM_SWEEP_EST_EST : Fld := ⟨.csm, 0x100001C, 0x400000, 0, 32, 0x0⟩
/-- CSM_SWEEP_RUN.CYCLES (R150). -/
def CSM_SWEEP_RUN_CYCLES : Fld := ⟨.csm, 0x1000020, 0x400000, 0, 32, 0x0⟩
/-- CSM_STALL_LAST.STALL (R150). -/
def CSM_STALL_LAST_STALL : Fld := ⟨.csm, 0x1000024, 0x400000, 0, 32, 0x0⟩
/-- CSM_SWEEPS.COUNT (R150). -/
def CSM_SWEEPS_COUNT : Fld := ⟨.csm, 0x1000028, 0x400000, 0, 32, 0x0⟩
/-- CSM_TILES.COUNT (R150). -/
def CSM_TILES_COUNT : Fld := ⟨.csm, 0x100002C, 0x400000, 0, 32, 0x0⟩
/-- CSM_SKIPS.COUNT (R150). -/
def CSM_SKIPS_COUNT : Fld := ⟨.csm, 0x1000030, 0x400000, 0, 32, 0x0⟩
/-- CSM_MISMATCH.COUNT (R150). -/
def CSM_MISMATCH_COUNT : Fld := ⟨.csm, 0x1000034, 0x400000, 0, 32, 0x0⟩
/-- CSM_RERUN_CYC.CYCLES (R150). -/
def CSM_RERUN_CYC_CYCLES : Fld := ⟨.csm, 0x1000038, 0x400000, 0, 32, 0x0⟩
/-- CSM_INTEGRITY.COUNT (R150). -/
def CSM_INTEGRITY_COUNT : Fld := ⟨.csm, 0x100003C, 0x400000, 0, 32, 0x0⟩
/-- CSM_RESDROP.COUNT (R150). -/
def CSM_RESDROP_COUNT : Fld := ⟨.csm, 0x1000040, 0x400000, 0, 32, 0x0⟩
/-- CSM_NONFINITE.COUNT (R150). -/
def CSM_NONFINITE_COUNT : Fld := ⟨.csm, 0x1000044, 0x400000, 0, 32, 0x0⟩
/-- CSM_STALL_SUM.CYCLES (R150). -/
def CSM_STALL_SUM_CYCLES : Fld := ⟨.csm, 0x1000048, 0x400000, 0, 32, 0x0⟩
/-- CSM_PANE_RETRY.COUNT (R150). -/
def CSM_PANE_RETRY_COUNT : Fld := ⟨.csm, 0x1000050, 0x400000, 0, 32, 0x0⟩

/-- The registers of the CSM block. -/
def regsCSM : List Reg :=
  [⟨0x1000000, 0x400000, 8, 1, [⟨CSM_CTRL_INJECT, .wo, 0x0, 0xF⟩, ⟨CSM_CTRL_EN, .rw, 0x0, 0x1⟩]⟩] ++
  [⟨0x1000004, 0x400000, 8, 1, [⟨CSM_STATUS_ATM_ACT, .ro, 0x0, 0xF⟩, ⟨CSM_STATUS_PANE_ACT, .ro, 0x0, 0xF⟩, ⟨CSM_STATUS_BUSY, .ro, 0x0, 0x1⟩]⟩] ++
  [⟨0x1000008, 0x400000, 8, 1, [⟨CSM_PANE_FENCE_UNFENCE, .wo, 0x0, 0xF⟩, ⟨CSM_PANE_FENCE_FENCE, .wo, 0x0, 0xF⟩, ⟨CSM_PANE_FENCE_TEST_FAIL, .ro, 0x0, 0xF⟩, ⟨CSM_PANE_FENCE_FENCED, .ro, 0x0, 0xF⟩]⟩] ++
  [⟨0x100000C, 0x400000, 8, 1, [⟨CSM_EST_CFG_EMIT, .rw, 0x0, 0xFFF⟩, ⟨CSM_EST_CFG_SETUP, .rw, 0x0, 0xFFF⟩]⟩] ++
  [⟨0x1000010, 0x400000, 8, 1, [⟨CSM_EVENT_RESDROP, .w1c, 0x0, 0x1⟩, ⟨CSM_EVENT_NONFINITE, .w1c, 0x0, 0x1⟩, ⟨CSM_EVENT_CASEMENT_FENCED, .w1c, 0x0, 0x1⟩, ⟨CSM_EVENT_DOUBLE, .w1c, 0x0, 0x1⟩, ⟨CSM_EVENT_PANE_FENCED, .w1c, 0x0, 0x1⟩, ⟨CSM_EVENT_MISMATCH, .w1c, 0x0, 0x1⟩]⟩] ++
  [⟨0x1000014, 0x400000, 8, 1, [⟨CSM_SWEEP_ID_SWEEP, .ro, 0x0, 0xFFFFFFFF⟩]⟩] ++
  [⟨0x1000018, 0x400000, 8, 1, [⟨CSM_SWEEP_INFO_RECORDS, .ro, 0x0, 0xFFF⟩, ⟨CSM_SWEEP_INFO_CONTEXT, .ro, 0x0, 0xFFF⟩]⟩] ++
  [⟨0x100001C, 0x400000, 8, 1, [⟨CSM_SWEEP_EST_EST, .ro, 0x0, 0xFFFFFFFF⟩]⟩] ++
  [⟨0x1000020, 0x400000, 8, 1, [⟨CSM_SWEEP_RUN_CYCLES, .ro, 0x0, 0xFFFFFFFF⟩]⟩] ++
  [⟨0x1000024, 0x400000, 8, 1, [⟨CSM_STALL_LAST_STALL, .ro, 0x0, 0xFFFFFFFF⟩]⟩] ++
  [⟨0x1000028, 0x400000, 8, 1, [⟨CSM_SWEEPS_COUNT, .ro, 0x0, 0xFFFFFFFF⟩]⟩] ++
  [⟨0x100002C, 0x400000, 8, 1, [⟨CSM_TILES_COUNT, .ro, 0x0, 0xFFFFFFFF⟩]⟩] ++
  [⟨0x1000030, 0x400000, 8, 1, [⟨CSM_SKIPS_COUNT, .ro, 0x0, 0xFFFFFFFF⟩]⟩] ++
  [⟨0x1000034, 0x400000, 8, 1, [⟨CSM_MISMATCH_COUNT, .ro, 0x0, 0xFFFFFFFF⟩]⟩] ++
  [⟨0x1000038, 0x400000, 8, 1, [⟨CSM_RERUN_CYC_CYCLES, .ro, 0x0, 0xFFFFFFFF⟩]⟩] ++
  [⟨0x100003C, 0x400000, 8, 1, [⟨CSM_INTEGRITY_COUNT, .ro, 0x0, 0xFFFFFFFF⟩]⟩] ++
  [⟨0x1000040, 0x400000, 8, 1, [⟨CSM_RESDROP_COUNT, .ro, 0x0, 0xFFFFFFFF⟩]⟩] ++
  [⟨0x1000044, 0x400000, 8, 1, [⟨CSM_NONFINITE_COUNT, .ro, 0x0, 0xFFFFFFFF⟩]⟩] ++
  [⟨0x1000048, 0x400000, 8, 1, [⟨CSM_STALL_SUM_CYCLES, .ro, 0x0, 0xFFFFFFFF⟩]⟩] ++
  [⟨0x1000050, 0x400000, 8, 4, [⟨CSM_PANE_RETRY_COUNT, .ro, 0x0, 0xFFFFFFFF⟩]⟩]

/-- ATM_CTRL.INJECT (R214). -/
def ATM_CTRL_INJECT : Fld := ⟨.atm, 0x1010000, 0x400000, 4, 4, 0x0⟩
/-- ATM_STATUS.REBUILDS (R214). -/
def ATM_STATUS_REBUILDS : Fld := ⟨.atm, 0x1010004, 0x400000, 8, 8, 0x0⟩
/-- ATM_STATUS.ACTIVE (R214). -/
def ATM_STATUS_ACTIVE : Fld := ⟨.atm, 0x1010004, 0x400000, 0, 4, 0xF⟩
/-- ATM_FENCE.UNFENCE (R214). -/
def ATM_FENCE_UNFENCE : Fld := ⟨.atm, 0x1010008, 0x400000, 16, 4, 0x0⟩
/-- ATM_FENCE.FENCE (R214). -/
def ATM_FENCE_FENCE : Fld := ⟨.atm, 0x1010008, 0x400000, 8, 4, 0x0⟩
/-- ATM_FENCE.TEST_FAIL (R214). -/
def ATM_FENCE_TEST_FAIL : Fld := ⟨.atm, 0x1010008, 0x400000, 4, 4, 0x0⟩
/-- ATM_FENCE.FENCED (R214). -/
def ATM_FENCE_FENCED : Fld := ⟨.atm, 0x1010008, 0x400000, 0, 4, 0x0⟩
/-- ATM_CFG.FAULT_MAX (R214). -/
def ATM_CFG_FAULT_MAX : Fld := ⟨.atm, 0x101000C, 0x400000, 0, 4, 0x2⟩
/-- ATM_EVENT.INJECT_SEEN (R214). -/
def ATM_EVENT_INJECT_SEEN : Fld := ⟨.atm, 0x1010010, 0x400000, 8, 1, 0x0⟩
/-- ATM_EVENT.ALL_FENCED (R214). -/
def ATM_EVENT_ALL_FENCED : Fld := ⟨.atm, 0x1010010, 0x400000, 7, 1, 0x0⟩
/-- ATM_EVENT.ATM_FENCED (R214). -/
def ATM_EVENT_ATM_FENCED : Fld := ⟨.atm, 0x1010010, 0x400000, 6, 1, 0x0⟩
/-- ATM_EVENT.LOST_FULL (R214). -/
def ATM_EVENT_LOST_FULL : Fld := ⟨.atm, 0x1010010, 0x400000, 5, 1, 0x0⟩
/-- ATM_EVENT.LOST (R214). -/
def ATM_EVENT_LOST : Fld := ⟨.atm, 0x1010010, 0x400000, 4, 1, 0x0⟩
/-- ATM_EVENT.CLEARED (R214). -/
def ATM_EVENT_CLEARED : Fld := ⟨.atm, 0x1010010, 0x400000, 3, 1, 0x0⟩
/-- ATM_EVENT.REBUILT (R214). -/
def ATM_EVENT_REBUILT : Fld := ⟨.atm, 0x1010010, 0x400000, 2, 1, 0x0⟩
/-- ATM_EVENT.TABLE_BAD (R214). -/
def ATM_EVENT_TABLE_BAD : Fld := ⟨.atm, 0x1010010, 0x400000, 1, 1, 0x0⟩
/-- ATM_EVENT.MISMATCH (R214). -/
def ATM_EVENT_MISMATCH : Fld := ⟨.atm, 0x1010010, 0x400000, 0, 1, 0x0⟩
/-- ATM_LOST.COUNT (R214). -/
def ATM_LOST_COUNT : Fld := ⟨.atm, 0x1010014, 0x400000, 0, 17, 0x0⟩
/-- ATM_FAULTS.FAULTS0 (R214). -/
def ATM_FAULTS_FAULTS0 : Fld := ⟨.atm, 0x1010018, 0x400000, 0, 8, 0x0⟩
/-- ATM_FAULTS.FAULTS1 (R214). -/
def ATM_FAULTS_FAULTS1 : Fld := ⟨.atm, 0x1010018, 0x400000, 8, 8, 0x0⟩
/-- ATM_FAULTS.FAULTS2 (R214). -/
def ATM_FAULTS_FAULTS2 : Fld := ⟨.atm, 0x1010018, 0x400000, 16, 8, 0x0⟩
/-- ATM_FAULTS.FAULTS3 (R214). -/
def ATM_FAULTS_FAULTS3 : Fld := ⟨.atm, 0x1010018, 0x400000, 24, 8, 0x0⟩
/-- ATM_CODED_LO.BYTES (R214). -/
def ATM_CODED_LO_BYTES : Fld := ⟨.atm, 0x1010020, 0x400000, 0, 32, 0x0⟩
/-- ATM_CODED_HI.BYTES (R214). -/
def ATM_CODED_HI_BYTES : Fld := ⟨.atm, 0x1010024, 0x400000, 0, 32, 0x0⟩
/-- ATM_RAW_LO.BYTES (R214). -/
def ATM_RAW_LO_BYTES : Fld := ⟨.atm, 0x1010028, 0x400000, 0, 32, 0x0⟩
/-- ATM_RAW_HI.BYTES (R214). -/
def ATM_RAW_HI_BYTES : Fld := ⟨.atm, 0x101002C, 0x400000, 0, 32, 0x0⟩
/-- ATM_PLAIN_LO.BYTES (R214). -/
def ATM_PLAIN_LO_BYTES : Fld := ⟨.atm, 0x1010030, 0x400000, 0, 32, 0x0⟩
/-- ATM_PLAIN_HI.BYTES (R214). -/
def ATM_PLAIN_HI_BYTES : Fld := ⟨.atm, 0x1010034, 0x400000, 0, 32, 0x0⟩
/-- ATM_BLOCKS.COUNT (R214). -/
def ATM_BLOCKS_COUNT : Fld := ⟨.atm, 0x1010040, 0x400000, 0, 32, 0x0⟩
/-- ATM_RAWBLKS.COUNT (R214). -/
def ATM_RAWBLKS_COUNT : Fld := ⟨.atm, 0x1010044, 0x400000, 0, 32, 0x0⟩
/-- ATM_MISMATCH.COUNT (R214). -/
def ATM_MISMATCH_COUNT : Fld := ⟨.atm, 0x1010048, 0x400000, 0, 32, 0x0⟩
/-- ATM_INTEGRITY.COUNT (R214). -/
def ATM_INTEGRITY_COUNT : Fld := ⟨.atm, 0x101004C, 0x400000, 0, 32, 0x0⟩
/-- ATM_REBUILDS.COUNT (R214). -/
def ATM_REBUILDS_COUNT : Fld := ⟨.atm, 0x1010050, 0x400000, 0, 32, 0x0⟩
/-- ATM_LOSTPAGES.COUNT (R214). -/
def ATM_LOSTPAGES_COUNT : Fld := ⟨.atm, 0x1010054, 0x400000, 0, 32, 0x0⟩
/-- ATM_SEALS.COUNT (R214). -/
def ATM_SEALS_COUNT : Fld := ⟨.atm, 0x1010058, 0x400000, 0, 32, 0x0⟩
/-- ATM_SEAL_RAW.COUNT (R214). -/
def ATM_SEAL_RAW_COUNT : Fld := ⟨.atm, 0x101005C, 0x400000, 0, 32, 0x0⟩
/-- ATM_SEAL_SAT.COUNT (R214). -/
def ATM_SEAL_SAT_COUNT : Fld := ⟨.atm, 0x1010060, 0x400000, 0, 32, 0x0⟩
/-- ATM_SEAL_NAN.COUNT (R214). -/
def ATM_SEAL_NAN_COUNT : Fld := ⟨.atm, 0x1010064, 0x400000, 0, 32, 0x0⟩
/-- ATM_STORE_HITS.COUNT (R214). -/
def ATM_STORE_HITS_COUNT : Fld := ⟨.atm, 0x1010068, 0x400000, 0, 32, 0x0⟩
/-- ATM_STORE_MISSES.COUNT (R214). -/
def ATM_STORE_MISSES_COUNT : Fld := ⟨.atm, 0x101006C, 0x400000, 0, 32, 0x0⟩
/-- ATM_WAIT.CYCLES (R214). -/
def ATM_WAIT_CYCLES : Fld := ⟨.atm, 0x1010070, 0x400000, 0, 32, 0x0⟩

/-- The registers of the ATM block. -/
def regsATM : List Reg :=
  [⟨0x1010000, 0x400000, 8, 1, [⟨ATM_CTRL_INJECT, .wo, 0x0, 0xF⟩]⟩] ++
  [⟨0x1010004, 0x400000, 8, 1, [⟨ATM_STATUS_REBUILDS, .ro, 0x0, 0xFF⟩, ⟨ATM_STATUS_ACTIVE, .ro, 0x0, 0xF⟩]⟩] ++
  [⟨0x1010008, 0x400000, 8, 1, [⟨ATM_FENCE_UNFENCE, .wo, 0x0, 0xF⟩, ⟨ATM_FENCE_FENCE, .wo, 0x0, 0xF⟩, ⟨ATM_FENCE_TEST_FAIL, .ro, 0x0, 0xF⟩, ⟨ATM_FENCE_FENCED, .ro, 0x0, 0xF⟩]⟩] ++
  [⟨0x101000C, 0x400000, 8, 1, [⟨ATM_CFG_FAULT_MAX, .rw, 0x0, 0xF⟩]⟩] ++
  [⟨0x1010010, 0x400000, 8, 1, [⟨ATM_EVENT_INJECT_SEEN, .w1c, 0x0, 0x1⟩, ⟨ATM_EVENT_ALL_FENCED, .w1c, 0x0, 0x1⟩, ⟨ATM_EVENT_ATM_FENCED, .w1c, 0x0, 0x1⟩, ⟨ATM_EVENT_LOST_FULL, .w1c, 0x0, 0x1⟩, ⟨ATM_EVENT_LOST, .w1c, 0x0, 0x1⟩, ⟨ATM_EVENT_CLEARED, .w1c, 0x0, 0x1⟩, ⟨ATM_EVENT_REBUILT, .w1c, 0x0, 0x1⟩, ⟨ATM_EVENT_TABLE_BAD, .w1c, 0x0, 0x1⟩, ⟨ATM_EVENT_MISMATCH, .w1c, 0x0, 0x1⟩]⟩] ++
  [⟨0x1010014, 0x400000, 8, 1, [⟨ATM_LOST_COUNT, .ro, 0x0, 0x1FFFF⟩]⟩] ++
  [⟨0x1010018, 0x400000, 8, 1, [⟨ATM_FAULTS_FAULTS0, .ro, 0x0, 0xFF⟩, ⟨ATM_FAULTS_FAULTS1, .ro, 0x0, 0xFF⟩, ⟨ATM_FAULTS_FAULTS2, .ro, 0x0, 0xFF⟩, ⟨ATM_FAULTS_FAULTS3, .ro, 0x0, 0xFF⟩]⟩] ++
  [⟨0x1010020, 0x400000, 8, 1, [⟨ATM_CODED_LO_BYTES, .ro, 0x0, 0xFFFFFFFF⟩]⟩] ++
  [⟨0x1010024, 0x400000, 8, 1, [⟨ATM_CODED_HI_BYTES, .ro, 0x0, 0xFFFFFFFF⟩]⟩] ++
  [⟨0x1010028, 0x400000, 8, 1, [⟨ATM_RAW_LO_BYTES, .ro, 0x0, 0xFFFFFFFF⟩]⟩] ++
  [⟨0x101002C, 0x400000, 8, 1, [⟨ATM_RAW_HI_BYTES, .ro, 0x0, 0xFFFFFFFF⟩]⟩] ++
  [⟨0x1010030, 0x400000, 8, 1, [⟨ATM_PLAIN_LO_BYTES, .ro, 0x0, 0xFFFFFFFF⟩]⟩] ++
  [⟨0x1010034, 0x400000, 8, 1, [⟨ATM_PLAIN_HI_BYTES, .ro, 0x0, 0xFFFFFFFF⟩]⟩] ++
  [⟨0x1010040, 0x400000, 8, 1, [⟨ATM_BLOCKS_COUNT, .ro, 0x0, 0xFFFFFFFF⟩]⟩] ++
  [⟨0x1010044, 0x400000, 8, 1, [⟨ATM_RAWBLKS_COUNT, .ro, 0x0, 0xFFFFFFFF⟩]⟩] ++
  [⟨0x1010048, 0x400000, 8, 1, [⟨ATM_MISMATCH_COUNT, .ro, 0x0, 0xFFFFFFFF⟩]⟩] ++
  [⟨0x101004C, 0x400000, 8, 1, [⟨ATM_INTEGRITY_COUNT, .ro, 0x0, 0xFFFFFFFF⟩]⟩] ++
  [⟨0x1010050, 0x400000, 8, 1, [⟨ATM_REBUILDS_COUNT, .ro, 0x0, 0xFFFFFFFF⟩]⟩] ++
  [⟨0x1010054, 0x400000, 8, 1, [⟨ATM_LOSTPAGES_COUNT, .ro, 0x0, 0xFFFFFFFF⟩]⟩] ++
  [⟨0x1010058, 0x400000, 8, 1, [⟨ATM_SEALS_COUNT, .ro, 0x0, 0xFFFFFFFF⟩]⟩] ++
  [⟨0x101005C, 0x400000, 8, 1, [⟨ATM_SEAL_RAW_COUNT, .ro, 0x0, 0xFFFFFFFF⟩]⟩] ++
  [⟨0x1010060, 0x400000, 8, 1, [⟨ATM_SEAL_SAT_COUNT, .ro, 0x0, 0xFFFFFFFF⟩]⟩] ++
  [⟨0x1010064, 0x400000, 8, 1, [⟨ATM_SEAL_NAN_COUNT, .ro, 0x0, 0xFFFFFFFF⟩]⟩] ++
  [⟨0x1010068, 0x400000, 8, 1, [⟨ATM_STORE_HITS_COUNT, .ro, 0x0, 0xFFFFFFFF⟩]⟩] ++
  [⟨0x101006C, 0x400000, 8, 1, [⟨ATM_STORE_MISSES_COUNT, .ro, 0x0, 0xFFFFFFFF⟩]⟩] ++
  [⟨0x1010070, 0x400000, 8, 4, [⟨ATM_WAIT_CYCLES, .ro, 0x0, 0xFFFFFFFF⟩]⟩]

/-- PFX_CTRL.AUTO_EVICT (R102). -/
def PFX_CTRL_AUTO_EVICT : Fld := ⟨.pfx, 0x1020000, 0x400000, 2, 1, 0x1⟩
/-- PFX_CTRL.VERIFY (R102). -/
def PFX_CTRL_VERIFY : Fld := ⟨.pfx, 0x1020000, 0x400000, 1, 1, 0x1⟩
/-- PFX_CTRL.EN (R102). -/
def PFX_CTRL_EN : Fld := ⟨.pfx, 0x1020000, 0x400000, 0, 1, 0x0⟩
/-- PFX_STATUS.CFG_ERR (R102). -/
def PFX_STATUS_CFG_ERR : Fld := ⟨.pfx, 0x1020004, 0x400000, 2, 1, 0x0⟩
/-- PFX_STATUS.TREE_FULL (R102). -/
def PFX_STATUS_TREE_FULL : Fld := ⟨.pfx, 0x1020004, 0x400000, 1, 1, 0x0⟩
/-- PFX_STATUS.READY (R102). -/
def PFX_STATUS_READY : Fld := ⟨.pfx, 0x1020004, 0x400000, 0, 1, 0x0⟩
/-- PFX_TREE_CFG.LMAX_M1 (R102). -/
def PFX_TREE_CFG_LMAX_M1 : Fld := ⟨.pfx, 0x1020008, 0x400000, 16, 8, 0xFF⟩
/-- PFX_TREE_CFG.OVF_PCT (R102). -/
def PFX_TREE_CFG_OVF_PCT : Fld := ⟨.pfx, 0x1020008, 0x400000, 8, 8, 0x8⟩
/-- PFX_TREE_CFG.BUCKET_BITS (R102). -/
def PFX_TREE_CFG_BUCKET_BITS : Fld := ⟨.pfx, 0x1020008, 0x400000, 0, 5, 0x14⟩
/-- PFX_CHUNK_CAP.CAP (R102). -/
def PFX_CHUNK_CAP_CAP : Fld := ⟨.pfx, 0x102000C, 0x400000, 0, 28, 0x100000⟩
/-- PFX_PAGE_CAP.CAP (R102). -/
def PFX_PAGE_CAP_CAP : Fld := ⟨.pfx, 0x1020010, 0x400000, 0, 32, 0x2000000⟩
/-- PFX_SEQ_CFG.SEQ_BITS (R102). -/
def PFX_SEQ_CFG_SEQ_BITS : Fld := ⟨.pfx, 0x1020014, 0x400000, 0, 5, 0x14⟩
/-- PFX_EVICT.AGE (R102). -/
def PFX_EVICT_AGE : Fld := ⟨.pfx, 0x1020018, 0x400000, 16, 16, 0x258⟩
/-- PFX_EVICT.LWM (R102). -/
def PFX_EVICT_LWM : Fld := ⟨.pfx, 0x1020018, 0x400000, 8, 8, 0x5A⟩
/-- PFX_EVICT.HWM (R102). -/
def PFX_EVICT_HWM : Fld := ⟨.pfx, 0x1020018, 0x400000, 0, 8, 0x5F⟩
/-- PFX_EVENT.SEQ_FULL (R102). -/
def PFX_EVENT_SEQ_FULL : Fld := ⟨.pfx, 0x102001C, 0x400000, 5, 1, 0x0⟩
/-- PFX_EVENT.SAT (R102). -/
def PFX_EVENT_SAT : Fld := ⟨.pfx, 0x102001C, 0x400000, 4, 1, 0x0⟩
/-- PFX_EVENT.TOKEN_MISMATCH (R102). -/
def PFX_EVENT_TOKEN_MISMATCH : Fld := ⟨.pfx, 0x102001C, 0x400000, 3, 1, 0x0⟩
/-- PFX_EVENT.NOMEM (R102). -/
def PFX_EVENT_NOMEM : Fld := ⟨.pfx, 0x102001C, 0x400000, 2, 1, 0x0⟩
/-- PFX_EVENT.COLLIDE (R102). -/
def PFX_EVENT_COLLIDE : Fld := ⟨.pfx, 0x102001C, 0x400000, 1, 1, 0x0⟩
/-- PFX_EVENT.TREE_FULL (R102). -/
def PFX_EVENT_TREE_FULL : Fld := ⟨.pfx, 0x102001C, 0x400000, 0, 1, 0x0⟩
/-- PFX_TREE_BASE_LO.BASE_LO (R102). -/
def PFX_TREE_BASE_LO_BASE_LO : Fld := ⟨.pfx, 0x1020020, 0x400000, 0, 32, 0x0⟩
/-- PFX_TREE_BASE_HI.BASE_HI (R102). -/
def PFX_TREE_BASE_HI_BASE_HI : Fld := ⟨.pfx, 0x1020024, 0x400000, 0, 6, 0x0⟩
/-- PFX_CHUNK_BASE_LO.BASE_LO (R102). -/
def PFX_CHUNK_BASE_LO_BASE_LO : Fld := ⟨.pfx, 0x1020028, 0x400000, 0, 32, 0x0⟩
/-- PFX_CHUNK_BASE_HI.BASE_HI (R102). -/
def PFX_CHUNK_BASE_HI_BASE_HI : Fld := ⟨.pfx, 0x102002C, 0x400000, 0, 6, 0x0⟩
/-- PFX_PAGE_BASE_LO.BASE_LO (R102). -/
def PFX_PAGE_BASE_LO_BASE_LO : Fld := ⟨.pfx, 0x1020030, 0x400000, 0, 32, 0x0⟩
/-- PFX_PAGE_BASE_HI.BASE_HI (R102). -/
def PFX_PAGE_BASE_HI_BASE_HI : Fld := ⟨.pfx, 0x1020034, 0x400000, 0, 6, 0x0⟩
/-- PFX_SEQ_BASE_LO.BASE_LO (R102). -/
def PFX_SEQ_BASE_LO_BASE_LO : Fld := ⟨.pfx, 0x1020038, 0x400000, 0, 32, 0x0⟩
/-- PFX_SEQ_BASE_HI.BASE_HI (R102). -/
def PFX_SEQ_BASE_HI_BASE_HI : Fld := ⟨.pfx, 0x102003C, 0x400000, 0, 6, 0x0⟩
/-- PFX_EPOCH.EPOCH (R102). -/
def PFX_EPOCH_EPOCH : Fld := ⟨.pfx, 0x1020040, 0x400000, 0, 32, 0x0⟩
/-- PFX_EPOCH_MIN.OLDEST (R102). -/
def PFX_EPOCH_MIN_OLDEST : Fld := ⟨.pfx, 0x1020044, 0x400000, 0, 32, 0x0⟩
/-- PFX_LIMBO.SEGS (R102). -/
def PFX_LIMBO_SEGS : Fld := ⟨.pfx, 0x1020048, 0x400000, 0, 32, 0x0⟩
/-- PFX_FREE_SEGS.SEGS (R102). -/
def PFX_FREE_SEGS_SEGS : Fld := ⟨.pfx, 0x102004C, 0x400000, 0, 32, 0x0⟩
/-- PFX_TREE_USED.SLOTS (R102). -/
def PFX_TREE_USED_SLOTS : Fld := ⟨.pfx, 0x1020050, 0x400000, 0, 32, 0x0⟩
/-- PFX_LOOKUPS.COUNT (R102). -/
def PFX_LOOKUPS_COUNT : Fld := ⟨.pfx, 0x1020060, 0x400000, 0, 32, 0x0⟩
/-- PFX_HITS.COUNT (R102). -/
def PFX_HITS_COUNT : Fld := ⟨.pfx, 0x1020064, 0x400000, 0, 32, 0x0⟩
/-- PFX_INSERTS.COUNT (R102). -/
def PFX_INSERTS_COUNT : Fld := ⟨.pfx, 0x1020068, 0x400000, 0, 32, 0x0⟩
/-- PFX_DEDUPS.COUNT (R102). -/
def PFX_DEDUPS_COUNT : Fld := ⟨.pfx, 0x102006C, 0x400000, 0, 32, 0x0⟩
/-- PFX_EVICTS.COUNT (R102). -/
def PFX_EVICTS_COUNT : Fld := ⟨.pfx, 0x1020070, 0x400000, 0, 32, 0x0⟩
/-- PFX_COLLIDES.COUNT (R102). -/
def PFX_COLLIDES_COUNT : Fld := ⟨.pfx, 0x1020074, 0x400000, 0, 32, 0x0⟩
/-- PFX_COWS.COUNT (R102). -/
def PFX_COWS_COUNT : Fld := ⟨.pfx, 0x1020078, 0x400000, 0, 32, 0x0⟩
/-- PFX_PRIVATE.COUNT (R102). -/
def PFX_PRIVATE_COUNT : Fld := ⟨.pfx, 0x102007C, 0x400000, 0, 32, 0x0⟩
/-- PFX_TOKMISS.COUNT (R102). -/
def PFX_TOKMISS_COUNT : Fld := ⟨.pfx, 0x1020080, 0x400000, 0, 32, 0x0⟩
/-- PFX_SAT.COUNT (R102). -/
def PFX_SAT_COUNT : Fld := ⟨.pfx, 0x1020084, 0x400000, 0, 32, 0x0⟩

/-- The registers of the PFX block. -/
def regsPFX : List Reg :=
  [⟨0x1020000, 0x400000, 8, 1, [⟨PFX_CTRL_AUTO_EVICT, .rw, 0x0, 0x1⟩, ⟨PFX_CTRL_VERIFY, .rwl, 0x0, 0x1⟩, ⟨PFX_CTRL_EN, .rwl, 0x0, 0x1⟩]⟩] ++
  [⟨0x1020004, 0x400000, 8, 1, [⟨PFX_STATUS_CFG_ERR, .ro, 0x0, 0x1⟩, ⟨PFX_STATUS_TREE_FULL, .ro, 0x0, 0x1⟩, ⟨PFX_STATUS_READY, .ro, 0x0, 0x1⟩]⟩] ++
  [⟨0x1020008, 0x400000, 8, 1, [⟨PFX_TREE_CFG_LMAX_M1, .rwl, 0x0, 0xFF⟩, ⟨PFX_TREE_CFG_OVF_PCT, .rwl, 0x0, 0x64⟩, ⟨PFX_TREE_CFG_BUCKET_BITS, .rwl, 0x10, 0x1A⟩]⟩] ++
  [⟨0x102000C, 0x400000, 8, 1, [⟨PFX_CHUNK_CAP_CAP, .rwl, 0x0, 0xFFFFFFF⟩]⟩] ++
  [⟨0x1020010, 0x400000, 8, 1, [⟨PFX_PAGE_CAP_CAP, .rwl, 0x0, 0xFFFFFFFF⟩]⟩] ++
  [⟨0x1020014, 0x400000, 8, 1, [⟨PFX_SEQ_CFG_SEQ_BITS, .rwl, 0xC, 0x18⟩]⟩] ++
  [⟨0x1020018, 0x400000, 8, 1, [⟨PFX_EVICT_AGE, .rw, 0x0, 0xFFFF⟩, ⟨PFX_EVICT_LWM, .rw, 0x0, 0xFF⟩, ⟨PFX_EVICT_HWM, .rw, 0x0, 0xFF⟩]⟩] ++
  [⟨0x102001C, 0x400000, 8, 1, [⟨PFX_EVENT_SEQ_FULL, .w1c, 0x0, 0x1⟩, ⟨PFX_EVENT_SAT, .w1c, 0x0, 0x1⟩, ⟨PFX_EVENT_TOKEN_MISMATCH, .w1c, 0x0, 0x1⟩, ⟨PFX_EVENT_NOMEM, .w1c, 0x0, 0x1⟩, ⟨PFX_EVENT_COLLIDE, .w1c, 0x0, 0x1⟩, ⟨PFX_EVENT_TREE_FULL, .w1c, 0x0, 0x1⟩]⟩] ++
  [⟨0x1020020, 0x400000, 8, 1, [⟨PFX_TREE_BASE_LO_BASE_LO, .ro, 0x0, 0xFFFFFFFF⟩]⟩] ++
  [⟨0x1020024, 0x400000, 8, 1, [⟨PFX_TREE_BASE_HI_BASE_HI, .ro, 0x0, 0x3F⟩]⟩] ++
  [⟨0x1020028, 0x400000, 8, 1, [⟨PFX_CHUNK_BASE_LO_BASE_LO, .ro, 0x0, 0xFFFFFFFF⟩]⟩] ++
  [⟨0x102002C, 0x400000, 8, 1, [⟨PFX_CHUNK_BASE_HI_BASE_HI, .ro, 0x0, 0x3F⟩]⟩] ++
  [⟨0x1020030, 0x400000, 8, 1, [⟨PFX_PAGE_BASE_LO_BASE_LO, .ro, 0x0, 0xFFFFFFFF⟩]⟩] ++
  [⟨0x1020034, 0x400000, 8, 1, [⟨PFX_PAGE_BASE_HI_BASE_HI, .ro, 0x0, 0x3F⟩]⟩] ++
  [⟨0x1020038, 0x400000, 8, 1, [⟨PFX_SEQ_BASE_LO_BASE_LO, .ro, 0x0, 0xFFFFFFFF⟩]⟩] ++
  [⟨0x102003C, 0x400000, 8, 1, [⟨PFX_SEQ_BASE_HI_BASE_HI, .ro, 0x0, 0x3F⟩]⟩] ++
  [⟨0x1020040, 0x400000, 8, 1, [⟨PFX_EPOCH_EPOCH, .ro, 0x0, 0xFFFFFFFF⟩]⟩] ++
  [⟨0x1020044, 0x400000, 8, 1, [⟨PFX_EPOCH_MIN_OLDEST, .ro, 0x0, 0xFFFFFFFF⟩]⟩] ++
  [⟨0x1020048, 0x400000, 8, 1, [⟨PFX_LIMBO_SEGS, .ro, 0x0, 0xFFFFFFFF⟩]⟩] ++
  [⟨0x102004C, 0x400000, 8, 1, [⟨PFX_FREE_SEGS_SEGS, .ro, 0x0, 0xFFFFFFFF⟩]⟩] ++
  [⟨0x1020050, 0x400000, 8, 1, [⟨PFX_TREE_USED_SLOTS, .ro, 0x0, 0xFFFFFFFF⟩]⟩] ++
  [⟨0x1020060, 0x400000, 8, 1, [⟨PFX_LOOKUPS_COUNT, .ro, 0x0, 0xFFFFFFFF⟩]⟩] ++
  [⟨0x1020064, 0x400000, 8, 1, [⟨PFX_HITS_COUNT, .ro, 0x0, 0xFFFFFFFF⟩]⟩] ++
  [⟨0x1020068, 0x400000, 8, 1, [⟨PFX_INSERTS_COUNT, .ro, 0x0, 0xFFFFFFFF⟩]⟩] ++
  [⟨0x102006C, 0x400000, 8, 1, [⟨PFX_DEDUPS_COUNT, .ro, 0x0, 0xFFFFFFFF⟩]⟩] ++
  [⟨0x1020070, 0x400000, 8, 1, [⟨PFX_EVICTS_COUNT, .ro, 0x0, 0xFFFFFFFF⟩]⟩] ++
  [⟨0x1020074, 0x400000, 8, 1, [⟨PFX_COLLIDES_COUNT, .ro, 0x0, 0xFFFFFFFF⟩]⟩] ++
  [⟨0x1020078, 0x400000, 8, 1, [⟨PFX_COWS_COUNT, .ro, 0x0, 0xFFFFFFFF⟩]⟩] ++
  [⟨0x102007C, 0x400000, 8, 1, [⟨PFX_PRIVATE_COUNT, .ro, 0x0, 0xFFFFFFFF⟩]⟩] ++
  [⟨0x1020080, 0x400000, 8, 1, [⟨PFX_TOKMISS_COUNT, .ro, 0x0, 0xFFFFFFFF⟩]⟩] ++
  [⟨0x1020084, 0x400000, 8, 1, [⟨PFX_SAT_COUNT, .ro, 0x0, 0xFFFFFFFF⟩]⟩]

/-- STG_CTRL.IDLE_RELEASE (R252). -/
def STG_CTRL_IDLE_RELEASE : Fld := ⟨.stg, 0x1030000, 0x400000, 3, 1, 0x1⟩
/-- STG_CTRL.RELEASE (R252). -/
def STG_CTRL_RELEASE : Fld := ⟨.stg, 0x1030000, 0x400000, 2, 1, 0x1⟩
/-- STG_CTRL.SPILL (R252). -/
def STG_CTRL_SPILL : Fld := ⟨.stg, 0x1030000, 0x400000, 1, 1, 0x1⟩
/-- STG_CTRL.DEMAND (R252). -/
def STG_CTRL_DEMAND : Fld := ⟨.stg, 0x1030000, 0x400000, 0, 1, 0x1⟩
/-- STG_STATUS.POOL_LOW (R252). -/
def STG_STATUS_POOL_LOW : Fld := ⟨.stg, 0x1030004, 0x400000, 16, 1, 0x0⟩
/-- STG_STATUS.HINTS (R252). -/
def STG_STATUS_HINTS : Fld := ⟨.stg, 0x1030004, 0x400000, 0, 13, 0x0⟩
/-- STG_HEAT.COLD (R252). -/
def STG_HEAT_COLD : Fld := ⟨.stg, 0x1030008, 0x400000, 16, 8, 0x4⟩
/-- STG_HEAT.INC (R252). -/
def STG_HEAT_INC : Fld := ⟨.stg, 0x1030008, 0x400000, 8, 8, 0x20⟩
/-- STG_HEAT.HALF (R252). -/
def STG_HEAT_HALF : Fld := ⟨.stg, 0x1030008, 0x400000, 0, 8, 0x40⟩
/-- STG_POOL.HIGH (R252). -/
def STG_POOL_HIGH : Fld := ⟨.stg, 0x103000C, 0x400000, 16, 16, 0x400⟩
/-- STG_POOL.LOW (R252). -/
def STG_POOL_LOW : Fld := ⟨.stg, 0x103000C, 0x400000, 0, 16, 0x200⟩
/-- STG_FLASH.UTIL_MAX (R252). -/
def STG_FLASH_UTIL_MAX : Fld := ⟨.stg, 0x1030010, 0x400000, 24, 8, 0xF0⟩
/-- STG_FLASH.UTIL_MIN (R252). -/
def STG_FLASH_UTIL_MIN : Fld := ⟨.stg, 0x1030010, 0x400000, 16, 8, 0x40⟩
/-- STG_FLASH.FIRST (R252). -/
def STG_FLASH_FIRST : Fld := ⟨.stg, 0x1030010, 0x400000, 0, 16, 0x226⟩
/-- STG_HINT.HOLD (R252). -/
def STG_HINT_HOLD : Fld := ⟨.stg, 0x1030014, 0x400000, 0, 16, 0x64⟩
/-- STG_UTIL.MEASURED (R252). -/
def STG_UTIL_MEASURED : Fld := ⟨.stg, 0x1030018, 0x400000, 0, 8, 0x0⟩
/-- STG_EVENT.PINNED (R252). -/
def STG_EVENT_PINNED : Fld := ⟨.stg, 0x103001C, 0x400000, 6, 1, 0x0⟩
/-- STG_EVENT.REPLICA_DROP (R252). -/
def STG_EVENT_REPLICA_DROP : Fld := ⟨.stg, 0x103001C, 0x400000, 5, 1, 0x0⟩
/-- STG_EVENT.SPILL_REFUSED (R252). -/
def STG_EVENT_SPILL_REFUSED : Fld := ⟨.stg, 0x103001C, 0x400000, 4, 1, 0x0⟩
/-- STG_EVENT.STAGE_FAIL (R252). -/
def STG_EVENT_STAGE_FAIL : Fld := ⟨.stg, 0x103001C, 0x400000, 3, 1, 0x0⟩
/-- STG_EVENT.ADMIT_MISS (R252). -/
def STG_EVENT_ADMIT_MISS : Fld := ⟨.stg, 0x103001C, 0x400000, 2, 1, 0x0⟩
/-- STG_EVENT.HINT_MISSED (R252). -/
def STG_EVENT_HINT_MISSED : Fld := ⟨.stg, 0x103001C, 0x400000, 1, 1, 0x0⟩
/-- STG_EVENT.POOL_LOW (R252). -/
def STG_EVENT_POOL_LOW : Fld := ⟨.stg, 0x103001C, 0x400000, 0, 1, 0x0⟩
/-- STG_QUEUED_LO.BYTES (R252). -/
def STG_QUEUED_LO_BYTES : Fld := ⟨.stg, 0x1030020, 0x400000, 0, 32, 0x0⟩
/-- STG_QUEUED_HI.BYTES (R252). -/
def STG_QUEUED_HI_BYTES : Fld := ⟨.stg, 0x1030024, 0x400000, 0, 32, 0x0⟩
/-- STG_PINNED.TICKS (R252). -/
def STG_PINNED_TICKS : Fld := ⟨.stg, 0x1030028, 0x400000, 0, 32, 0x0⟩
/-- STG_HINTS_OK.COUNT (R252). -/
def STG_HINTS_OK_COUNT : Fld := ⟨.stg, 0x1030030, 0x400000, 0, 32, 0x0⟩
/-- STG_HINTS_REFUSED.COUNT (R252). -/
def STG_HINTS_REFUSED_COUNT : Fld := ⟨.stg, 0x1030034, 0x400000, 0, 32, 0x0⟩
/-- STG_HINTS_MET.COUNT (R252). -/
def STG_HINTS_MET_COUNT : Fld := ⟨.stg, 0x1030038, 0x400000, 0, 32, 0x0⟩
/-- STG_HINTS_MISSED.COUNT (R252). -/
def STG_HINTS_MISSED_COUNT : Fld := ⟨.stg, 0x103003C, 0x400000, 0, 32, 0x0⟩
/-- STG_ADMIT_MISS.COUNT (R252). -/
def STG_ADMIT_MISS_COUNT : Fld := ⟨.stg, 0x1030040, 0x400000, 0, 32, 0x0⟩
/-- STG_RELEASES.COUNT (R252). -/
def STG_RELEASES_COUNT : Fld := ⟨.stg, 0x1030044, 0x400000, 0, 32, 0x0⟩
/-- STG_SPILLS.COUNT (R252). -/
def STG_SPILLS_COUNT : Fld := ⟨.stg, 0x1030048, 0x400000, 0, 32, 0x0⟩
/-- STG_PARKS.COUNT (R252). -/
def STG_PARKS_COUNT : Fld := ⟨.stg, 0x103004C, 0x400000, 0, 32, 0x0⟩
/-- STG_EXPORTS.COUNT (R252). -/
def STG_EXPORTS_COUNT : Fld := ⟨.stg, 0x1030050, 0x400000, 0, 32, 0x0⟩
/-- STG_IMPORTS.COUNT (R252). -/
def STG_IMPORTS_COUNT : Fld := ⟨.stg, 0x1030054, 0x400000, 0, 32, 0x0⟩
/-- STG_REPLICA_DROPS.COUNT (R252). -/
def STG_REPLICA_DROPS_COUNT : Fld := ⟨.stg, 0x1030058, 0x400000, 0, 32, 0x0⟩

/-- The registers of the STG block. -/
def regsSTG : List Reg :=
  [⟨0x1030000, 0x400000, 8, 1, [⟨STG_CTRL_IDLE_RELEASE, .rw, 0x0, 0x1⟩, ⟨STG_CTRL_RELEASE, .rw, 0x0, 0x1⟩, ⟨STG_CTRL_SPILL, .rw, 0x0, 0x1⟩, ⟨STG_CTRL_DEMAND, .rw, 0x0, 0x1⟩]⟩] ++
  [⟨0x1030004, 0x400000, 8, 1, [⟨STG_STATUS_POOL_LOW, .ro, 0x0, 0x1⟩, ⟨STG_STATUS_HINTS, .ro, 0x0, 0x1FFF⟩]⟩] ++
  [⟨0x1030008, 0x400000, 8, 1, [⟨STG_HEAT_COLD, .rw, 0x0, 0xFF⟩, ⟨STG_HEAT_INC, .rw, 0x0, 0xFF⟩, ⟨STG_HEAT_HALF, .rw, 0x0, 0xFF⟩]⟩] ++
  [⟨0x103000C, 0x400000, 8, 1, [⟨STG_POOL_HIGH, .rw, 0x0, 0xFFFF⟩, ⟨STG_POOL_LOW, .rw, 0x0, 0xFFFF⟩]⟩] ++
  [⟨0x1030010, 0x400000, 8, 1, [⟨STG_FLASH_UTIL_MAX, .rw, 0x0, 0xFF⟩, ⟨STG_FLASH_UTIL_MIN, .rw, 0x0, 0xFF⟩, ⟨STG_FLASH_FIRST, .rw, 0x0, 0xFFFF⟩]⟩] ++
  [⟨0x1030014, 0x400000, 8, 1, [⟨STG_HINT_HOLD, .rw, 0x0, 0xFFFF⟩]⟩] ++
  [⟨0x1030018, 0x400000, 8, 1, [⟨STG_UTIL_MEASURED, .ro, 0x0, 0xFF⟩]⟩] ++
  [⟨0x103001C, 0x400000, 8, 1, [⟨STG_EVENT_PINNED, .w1c, 0x0, 0x1⟩, ⟨STG_EVENT_REPLICA_DROP, .w1c, 0x0, 0x1⟩, ⟨STG_EVENT_SPILL_REFUSED, .w1c, 0x0, 0x1⟩, ⟨STG_EVENT_STAGE_FAIL, .w1c, 0x0, 0x1⟩, ⟨STG_EVENT_ADMIT_MISS, .w1c, 0x0, 0x1⟩, ⟨STG_EVENT_HINT_MISSED, .w1c, 0x0, 0x1⟩, ⟨STG_EVENT_POOL_LOW, .w1c, 0x0, 0x1⟩]⟩] ++
  [⟨0x1030020, 0x400000, 8, 1, [⟨STG_QUEUED_LO_BYTES, .ro, 0x0, 0xFFFFFFFF⟩]⟩] ++
  [⟨0x1030024, 0x400000, 8, 1, [⟨STG_QUEUED_HI_BYTES, .ro, 0x0, 0xFFFFFFFF⟩]⟩] ++
  [⟨0x1030028, 0x400000, 8, 1, [⟨STG_PINNED_TICKS, .ro, 0x0, 0xFFFFFFFF⟩]⟩] ++
  [⟨0x1030030, 0x400000, 8, 1, [⟨STG_HINTS_OK_COUNT, .ro, 0x0, 0xFFFFFFFF⟩]⟩] ++
  [⟨0x1030034, 0x400000, 8, 1, [⟨STG_HINTS_REFUSED_COUNT, .ro, 0x0, 0xFFFFFFFF⟩]⟩] ++
  [⟨0x1030038, 0x400000, 8, 1, [⟨STG_HINTS_MET_COUNT, .ro, 0x0, 0xFFFFFFFF⟩]⟩] ++
  [⟨0x103003C, 0x400000, 8, 1, [⟨STG_HINTS_MISSED_COUNT, .ro, 0x0, 0xFFFFFFFF⟩]⟩] ++
  [⟨0x1030040, 0x400000, 8, 1, [⟨STG_ADMIT_MISS_COUNT, .ro, 0x0, 0xFFFFFFFF⟩]⟩] ++
  [⟨0x1030044, 0x400000, 8, 1, [⟨STG_RELEASES_COUNT, .ro, 0x0, 0xFFFFFFFF⟩]⟩] ++
  [⟨0x1030048, 0x400000, 8, 1, [⟨STG_SPILLS_COUNT, .ro, 0x0, 0xFFFFFFFF⟩]⟩] ++
  [⟨0x103004C, 0x400000, 8, 1, [⟨STG_PARKS_COUNT, .ro, 0x0, 0xFFFFFFFF⟩]⟩] ++
  [⟨0x1030050, 0x400000, 8, 1, [⟨STG_EXPORTS_COUNT, .ro, 0x0, 0xFFFFFFFF⟩]⟩] ++
  [⟨0x1030054, 0x400000, 8, 1, [⟨STG_IMPORTS_COUNT, .ro, 0x0, 0xFFFFFFFF⟩]⟩] ++
  [⟨0x1030058, 0x400000, 8, 1, [⟨STG_REPLICA_DROPS_COUNT, .ro, 0x0, 0xFFFFFFFF⟩]⟩]

end Sys2Proof.Machine
end

