-- ==== Sys2Proof/Machine/RegMapDev.lean ====
section
/-!
DEFINITION. Sys2Proof/Machine/RegMapDev.lean: the register fields of the die window FTL, NRT, LNK, MEM, WKT, DPM blocks, from the offset and field
tables of the spec (R562 gives the bases).
-/
namespace Sys2Proof.Machine

/-- FTL_CTRL.INJECT (R305). -/
def FTL_CTRL_INJECT : Fld := ⟨.ftl, 0x1040000, 0x400000, 8, 1, 0x0⟩
/-- FTL_CTRL.CKPT_NOW (R305). -/
def FTL_CTRL_CKPT_NOW : Fld := ⟨.ftl, 0x1040000, 0x400000, 4, 1, 0x0⟩
/-- FTL_CTRL.PATROL_EN (R305). -/
def FTL_CTRL_PATROL_EN : Fld := ⟨.ftl, 0x1040000, 0x400000, 2, 1, 0x1⟩
/-- FTL_CTRL.GC_EN (R305). -/
def FTL_CTRL_GC_EN : Fld := ⟨.ftl, 0x1040000, 0x400000, 1, 1, 0x1⟩
/-- FTL_CTRL.EN (R305). -/
def FTL_CTRL_EN : Fld := ⟨.ftl, 0x1040000, 0x400000, 0, 1, 0x0⟩
/-- FTL_STATUS.TAKEN_OVER (R305). -/
def FTL_STATUS_TAKEN_OVER : Fld := ⟨.ftl, 0x1040004, 0x400000, 5, 1, 0x0⟩
/-- FTL_STATUS.GC_ACTIVE (R305). -/
def FTL_STATUS_GC_ACTIVE : Fld := ⟨.ftl, 0x1040004, 0x400000, 4, 1, 0x0⟩
/-- FTL_STATUS.GEOM_BAD (R305). -/
def FTL_STATUS_GEOM_BAD : Fld := ⟨.ftl, 0x1040004, 0x400000, 3, 1, 0x0⟩
/-- FTL_STATUS.READ_ONLY (R305). -/
def FTL_STATUS_READ_ONLY : Fld := ⟨.ftl, 0x1040004, 0x400000, 2, 1, 0x0⟩
/-- FTL_STATUS.REPLAYING (R305). -/
def FTL_STATUS_REPLAYING : Fld := ⟨.ftl, 0x1040004, 0x400000, 1, 1, 0x0⟩
/-- FTL_STATUS.READY (R305). -/
def FTL_STATUS_READY : Fld := ⟨.ftl, 0x1040004, 0x400000, 0, 1, 0x0⟩
/-- FTL_GEOM.BLOCKS_M1 (R305). -/
def FTL_GEOM_BLOCKS_M1 : Fld := ⟨.ftl, 0x1040008, 0x400000, 16, 16, 0x0⟩
/-- FTL_GEOM.LUNS_M1 (R305). -/
def FTL_GEOM_LUNS_M1 : Fld := ⟨.ftl, 0x1040008, 0x400000, 12, 4, 0x0⟩
/-- FTL_GEOM.PAGES_M1 (R305). -/
def FTL_GEOM_PAGES_M1 : Fld := ⟨.ftl, 0x1040008, 0x400000, 0, 12, 0x0⟩
/-- FTL_DEVICE.RATE (R305). -/
def FTL_DEVICE_RATE : Fld := ⟨.ftl, 0x104000C, 0x400000, 8, 8, 0x0⟩
/-- FTL_DEVICE.CELL (R305). -/
def FTL_DEVICE_CELL : Fld := ⟨.ftl, 0x104000C, 0x400000, 4, 2, 0x0⟩
/-- FTL_DEVICE.PLANES (R305). -/
def FTL_DEVICE_PLANES : Fld := ⟨.ftl, 0x104000C, 0x400000, 2, 2, 0x0⟩
/-- FTL_DEVICE.IFACE (R305). -/
def FTL_DEVICE_IFACE : Fld := ⟨.ftl, 0x104000C, 0x400000, 0, 1, 0x0⟩
/-- FTL_TIMING.TPROG (R305). -/
def FTL_TIMING_TPROG : Fld := ⟨.ftl, 0x1040010, 0x400000, 16, 16, 0x0⟩
/-- FTL_TIMING.TPROG_SLC (R305). -/
def FTL_TIMING_TPROG_SLC : Fld := ⟨.ftl, 0x1040010, 0x400000, 0, 16, 0x0⟩
/-- FTL_STRIPE.WIDTH (R305). -/
def FTL_STRIPE_WIDTH : Fld := ⟨.ftl, 0x1040014, 0x400000, 16, 5, 0x0⟩
/-- FTL_STRIPE.IN_SERVICE (R305). -/
def FTL_STRIPE_IN_SERVICE : Fld := ⟨.ftl, 0x1040014, 0x400000, 0, 16, 0x0⟩
/-- FTL_GC.SHARE_MAX (R305). -/
def FTL_GC_SHARE_MAX : Fld := ⟨.ftl, 0x1040018, 0x400000, 24, 8, 0x32⟩
/-- FTL_GC.RESERVE (R305). -/
def FTL_GC_RESERVE : Fld := ⟨.ftl, 0x1040018, 0x400000, 16, 8, 0x2⟩
/-- FTL_GC.HIGH (R305). -/
def FTL_GC_HIGH : Fld := ⟨.ftl, 0x1040018, 0x400000, 8, 8, 0x10⟩
/-- FTL_GC.LOW (R305). -/
def FTL_GC_LOW : Fld := ⟨.ftl, 0x1040018, 0x400000, 0, 8, 0x8⟩
/-- FTL_PATROL.RD_LIMIT (R305). -/
def FTL_PATROL_RD_LIMIT : Fld := ⟨.ftl, 0x104001C, 0x400000, 16, 16, 0xC8⟩
/-- FTL_PATROL.PERIOD (R305). -/
def FTL_PATROL_PERIOD : Fld := ⟨.ftl, 0x104001C, 0x400000, 0, 16, 0xA8⟩
/-- FTL_RETRY.REFRESH_BITS (R305). -/
def FTL_RETRY_REFRESH_BITS : Fld := ⟨.ftl, 0x1040020, 0x400000, 8, 8, 0x48⟩
/-- FTL_RETRY.START_MAX (R305). -/
def FTL_RETRY_START_MAX : Fld := ⟨.ftl, 0x1040020, 0x400000, 0, 4, 0xF⟩
/-- FTL_HEALTH.WEAR_CRIT (R305). -/
def FTL_HEALTH_WEAR_CRIT : Fld := ⟨.ftl, 0x1040024, 0x400000, 24, 8, 0x5F⟩
/-- FTL_HEALTH.WEAR_WARN (R305). -/
def FTL_HEALTH_WEAR_WARN : Fld := ⟨.ftl, 0x1040024, 0x400000, 16, 8, 0x50⟩
/-- FTL_HEALTH.BAD_CRIT (R305). -/
def FTL_HEALTH_BAD_CRIT : Fld := ⟨.ftl, 0x1040024, 0x400000, 8, 8, 0x28⟩
/-- FTL_HEALTH.BAD_WARN (R305). -/
def FTL_HEALTH_BAD_WARN : Fld := ⟨.ftl, 0x1040024, 0x400000, 0, 8, 0x14⟩
/-- FTL_HEALTH2.RETRY_WARN (R305). -/
def FTL_HEALTH2_RETRY_WARN : Fld := ⟨.ftl, 0x1040028, 0x400000, 0, 16, 0x40⟩
/-- FTL_JNL.CKPT_MIN (R305). -/
def FTL_JNL_CKPT_MIN : Fld := ⟨.ftl, 0x104002C, 0x400000, 24, 8, 0xA⟩
/-- FTL_JNL.CKPT_MIB (R305). -/
def FTL_JNL_CKPT_MIB : Fld := ⟨.ftl, 0x104002C, 0x400000, 8, 16, 0x100⟩
/-- FTL_JNL.WINDOW (R305). -/
def FTL_JNL_WINDOW : Fld := ⟨.ftl, 0x104002C, 0x400000, 0, 8, 0x14⟩
/-- FTL_PE_RATED.CYCLES (R305). -/
def FTL_PE_RATED_CYCLES : Fld := ⟨.ftl, 0x1040030, 0x400000, 0, 32, 0x0⟩
/-- FTL_EVENT.INJECT_SEEN (R305). -/
def FTL_EVENT_INJECT_SEEN : Fld := ⟨.ftl, 0x1040034, 0x400000, 12, 1, 0x0⟩
/-- FTL_EVENT.CRYPTO_ERASED (R305). -/
def FTL_EVENT_CRYPTO_ERASED : Fld := ⟨.ftl, 0x1040034, 0x400000, 11, 1, 0x0⟩
/-- FTL_EVENT.HOLDUP (R305). -/
def FTL_EVENT_HOLDUP : Fld := ⟨.ftl, 0x1040034, 0x400000, 10, 1, 0x0⟩
/-- FTL_EVENT.TAKEOVER (R305). -/
def FTL_EVENT_TAKEOVER : Fld := ⟨.ftl, 0x1040034, 0x400000, 9, 1, 0x0⟩
/-- FTL_EVENT.PINNED (R305). -/
def FTL_EVENT_PINNED : Fld := ⟨.ftl, 0x1040034, 0x400000, 8, 1, 0x0⟩
/-- FTL_EVENT.READ_ONLY (R305). -/
def FTL_EVENT_READ_ONLY : Fld := ⟨.ftl, 0x1040034, 0x400000, 7, 1, 0x0⟩
/-- FTL_EVENT.CH_FENCED (R305). -/
def FTL_EVENT_CH_FENCED : Fld := ⟨.ftl, 0x1040034, 0x400000, 6, 1, 0x0⟩
/-- FTL_EVENT.DATA_LOSS (R305). -/
def FTL_EVENT_DATA_LOSS : Fld := ⟨.ftl, 0x1040034, 0x400000, 5, 1, 0x0⟩
/-- FTL_EVENT.REBUILT (R305). -/
def FTL_EVENT_REBUILT : Fld := ⟨.ftl, 0x1040034, 0x400000, 4, 1, 0x0⟩
/-- FTL_EVENT.ERASE_FAIL (R305). -/
def FTL_EVENT_ERASE_FAIL : Fld := ⟨.ftl, 0x1040034, 0x400000, 3, 1, 0x0⟩
/-- FTL_EVENT.PROG_FAIL (R305). -/
def FTL_EVENT_PROG_FAIL : Fld := ⟨.ftl, 0x1040034, 0x400000, 2, 1, 0x0⟩
/-- FTL_EVENT.GEOM_BAD (R305). -/
def FTL_EVENT_GEOM_BAD : Fld := ⟨.ftl, 0x1040034, 0x400000, 1, 1, 0x0⟩
/-- FTL_EVENT.HEALTH (R305). -/
def FTL_EVENT_HEALTH : Fld := ⟨.ftl, 0x1040034, 0x400000, 0, 1, 0x0⟩
/-- FTL_OWN.ADOPTED (R305). -/
def FTL_OWN_ADOPTED : Fld := ⟨.ftl, 0x1040038, 0x400000, 16, 16, 0x0⟩
/-- FTL_OWN.OWNED (R305). -/
def FTL_OWN_OWNED : Fld := ⟨.ftl, 0x1040038, 0x400000, 0, 16, 0x0⟩
/-- FTL_OWN_CMD.RELEASE (R305). -/
def FTL_OWN_CMD_RELEASE : Fld := ⟨.ftl, 0x104003C, 0x400000, 1, 1, 0x0⟩
/-- FTL_OWN_CMD.RECLAIM (R305). -/
def FTL_OWN_CMD_RECLAIM : Fld := ⟨.ftl, 0x104003C, 0x400000, 0, 1, 0x0⟩
/-- FTL_CH_FENCE.FENCED (R305). -/
def FTL_CH_FENCE_FENCED : Fld := ⟨.ftl, 0x1040040, 0x400000, 0, 16, 0x0⟩
/-- FTL_CH_CMD.UNFENCE (R305). -/
def FTL_CH_CMD_UNFENCE : Fld := ⟨.ftl, 0x1040044, 0x400000, 16, 16, 0x0⟩
/-- FTL_CH_CMD.FENCE (R305). -/
def FTL_CH_CMD_FENCE : Fld := ⟨.ftl, 0x1040044, 0x400000, 0, 16, 0x0⟩
/-- FTL_FREE_BANDS.BANDS (R305). -/
def FTL_FREE_BANDS_BANDS : Fld := ⟨.ftl, 0x1040048, 0x400000, 0, 32, 0x0⟩
/-- FTL_BAD.MEMBERS (R305). -/
def FTL_BAD_MEMBERS : Fld := ⟨.ftl, 0x104004C, 0x400000, 0, 32, 0x0⟩
/-- FTL_WEAR.MAX (R305). -/
def FTL_WEAR_MAX : Fld := ⟨.ftl, 0x1040050, 0x400000, 16, 16, 0x0⟩
/-- FTL_WEAR.AVG (R305). -/
def FTL_WEAR_AVG : Fld := ⟨.ftl, 0x1040050, 0x400000, 0, 16, 0x0⟩
/-- FTL_PATROL_POS.DONE (R305). -/
def FTL_PATROL_POS_DONE : Fld := ⟨.ftl, 0x1040054, 0x400000, 0, 8, 0x0⟩
/-- FTL_JSEQ_LO.JSEQ_LO (R305). -/
def FTL_JSEQ_LO_JSEQ_LO : Fld := ⟨.ftl, 0x1040058, 0x400000, 0, 32, 0x0⟩
/-- FTL_JSEQ_HI.JSEQ_HI (R305). -/
def FTL_JSEQ_HI_JSEQ_HI : Fld := ⟨.ftl, 0x104005C, 0x400000, 0, 24, 0x0⟩
/-- FTL_RETRIES.COUNT (R305). -/
def FTL_RETRIES_COUNT : Fld := ⟨.ftl, 0x1040060, 0x400000, 0, 32, 0x0⟩
/-- FTL_SOFT.COUNT (R305). -/
def FTL_SOFT_COUNT : Fld := ⟨.ftl, 0x1040064, 0x400000, 0, 32, 0x0⟩
/-- FTL_REBUILDS.COUNT (R305). -/
def FTL_REBUILDS_COUNT : Fld := ⟨.ftl, 0x1040068, 0x400000, 0, 32, 0x0⟩
/-- FTL_UNCORR.COUNT (R305). -/
def FTL_UNCORR_COUNT : Fld := ⟨.ftl, 0x104006C, 0x400000, 0, 32, 0x0⟩
/-- FTL_TAG_FAIL.COUNT (R305). -/
def FTL_TAG_FAIL_COUNT : Fld := ⟨.ftl, 0x1040070, 0x400000, 0, 32, 0x0⟩
/-- FTL_PROG_FAIL.COUNT (R305). -/
def FTL_PROG_FAIL_COUNT : Fld := ⟨.ftl, 0x1040074, 0x400000, 0, 32, 0x0⟩
/-- FTL_ERASE_FAIL.COUNT (R305). -/
def FTL_ERASE_FAIL_COUNT : Fld := ⟨.ftl, 0x1040078, 0x400000, 0, 32, 0x0⟩
/-- FTL_GC_BANDS.COUNT (R305). -/
def FTL_GC_BANDS_COUNT : Fld := ⟨.ftl, 0x104007C, 0x400000, 0, 32, 0x0⟩
/-- FTL_GC_DISCARD.COUNT (R305). -/
def FTL_GC_DISCARD_COUNT : Fld := ⟨.ftl, 0x1040080, 0x400000, 0, 32, 0x0⟩
/-- FTL_REFRESHES.COUNT (R305). -/
def FTL_REFRESHES_COUNT : Fld := ⟨.ftl, 0x1040084, 0x400000, 0, 32, 0x0⟩
/-- FTL_ORPHANS.COUNT (R305). -/
def FTL_ORPHANS_COUNT : Fld := ⟨.ftl, 0x1040088, 0x400000, 0, 32, 0x0⟩
/-- FTL_PINNED.COUNT (R305). -/
def FTL_PINNED_COUNT : Fld := ⟨.ftl, 0x104008C, 0x400000, 0, 32, 0x0⟩

/-- The registers of the FTL block. -/
def regsFTL : List Reg :=
  [⟨0x1040000, 0x400000, 8, 1, [⟨FTL_CTRL_INJECT, .wo, 0x0, 0x1⟩, ⟨FTL_CTRL_CKPT_NOW, .wo, 0x0, 0x1⟩, ⟨FTL_CTRL_PATROL_EN, .rw, 0x0, 0x1⟩, ⟨FTL_CTRL_GC_EN, .rw, 0x0, 0x1⟩, ⟨FTL_CTRL_EN, .rwl, 0x0, 0x1⟩]⟩] ++
  [⟨0x1040004, 0x400000, 8, 1, [⟨FTL_STATUS_TAKEN_OVER, .ro, 0x0, 0x1⟩, ⟨FTL_STATUS_GC_ACTIVE, .ro, 0x0, 0x1⟩, ⟨FTL_STATUS_GEOM_BAD, .ro, 0x0, 0x1⟩, ⟨FTL_STATUS_READ_ONLY, .ro, 0x0, 0x1⟩, ⟨FTL_STATUS_REPLAYING, .ro, 0x0, 0x1⟩, ⟨FTL_STATUS_READY, .ro, 0x0, 0x1⟩]⟩] ++
  [⟨0x1040008, 0x400000, 8, 1, [⟨FTL_GEOM_BLOCKS_M1, .ro, 0x0, 0xFFFF⟩, ⟨FTL_GEOM_LUNS_M1, .ro, 0x0, 0xF⟩, ⟨FTL_GEOM_PAGES_M1, .ro, 0x0, 0xFFF⟩]⟩] ++
  [⟨0x104000C, 0x400000, 8, 1, [⟨FTL_DEVICE_RATE, .ro, 0x0, 0xFF⟩, ⟨FTL_DEVICE_CELL, .ro, 0x0, 0x3⟩, ⟨FTL_DEVICE_PLANES, .ro, 0x0, 0x3⟩, ⟨FTL_DEVICE_IFACE, .ro, 0x0, 0x1⟩]⟩] ++
  [⟨0x1040010, 0x400000, 8, 1, [⟨FTL_TIMING_TPROG, .ro, 0x0, 0xFFFF⟩, ⟨FTL_TIMING_TPROG_SLC, .ro, 0x0, 0xFFFF⟩]⟩] ++
  [⟨0x1040014, 0x400000, 8, 1, [⟨FTL_STRIPE_WIDTH, .ro, 0x0, 0x1F⟩, ⟨FTL_STRIPE_IN_SERVICE, .ro, 0x0, 0xFFFF⟩]⟩] ++
  [⟨0x1040018, 0x400000, 8, 1, [⟨FTL_GC_SHARE_MAX, .rw, 0x0, 0xFF⟩, ⟨FTL_GC_RESERVE, .rw, 0x0, 0xFF⟩, ⟨FTL_GC_HIGH, .rw, 0x0, 0xFF⟩, ⟨FTL_GC_LOW, .rw, 0x0, 0xFF⟩]⟩] ++
  [⟨0x104001C, 0x400000, 8, 1, [⟨FTL_PATROL_RD_LIMIT, .rw, 0x0, 0xFFFF⟩, ⟨FTL_PATROL_PERIOD, .rw, 0x1, 0x2238⟩]⟩] ++
  [⟨0x1040020, 0x400000, 8, 1, [⟨FTL_RETRY_REFRESH_BITS, .rw, 0x0, 0xFF⟩, ⟨FTL_RETRY_START_MAX, .rw, 0x0, 0xF⟩]⟩] ++
  [⟨0x1040024, 0x400000, 8, 1, [⟨FTL_HEALTH_WEAR_CRIT, .rw, 0x0, 0xFF⟩, ⟨FTL_HEALTH_WEAR_WARN, .rw, 0x0, 0xFF⟩, ⟨FTL_HEALTH_BAD_CRIT, .rw, 0x0, 0xFF⟩, ⟨FTL_HEALTH_BAD_WARN, .rw, 0x0, 0xFF⟩]⟩] ++
  [⟨0x1040028, 0x400000, 8, 1, [⟨FTL_HEALTH2_RETRY_WARN, .rw, 0x0, 0xFFFF⟩]⟩] ++
  [⟨0x104002C, 0x400000, 8, 1, [⟨FTL_JNL_CKPT_MIN, .rw, 0x0, 0xFF⟩, ⟨FTL_JNL_CKPT_MIB, .rw, 0x0, 0xFFFF⟩, ⟨FTL_JNL_WINDOW, .rw, 0x0, 0xFF⟩]⟩] ++
  [⟨0x1040030, 0x400000, 8, 1, [⟨FTL_PE_RATED_CYCLES, .rw, 0x0, 0xFFFFFFFF⟩]⟩] ++
  [⟨0x1040034, 0x400000, 8, 1, [⟨FTL_EVENT_INJECT_SEEN, .w1c, 0x0, 0x1⟩, ⟨FTL_EVENT_CRYPTO_ERASED, .w1c, 0x0, 0x1⟩, ⟨FTL_EVENT_HOLDUP, .w1c, 0x0, 0x1⟩, ⟨FTL_EVENT_TAKEOVER, .w1c, 0x0, 0x1⟩, ⟨FTL_EVENT_PINNED, .w1c, 0x0, 0x1⟩, ⟨FTL_EVENT_READ_ONLY, .w1c, 0x0, 0x1⟩, ⟨FTL_EVENT_CH_FENCED, .w1c, 0x0, 0x1⟩, ⟨FTL_EVENT_DATA_LOSS, .w1c, 0x0, 0x1⟩, ⟨FTL_EVENT_REBUILT, .w1c, 0x0, 0x1⟩, ⟨FTL_EVENT_ERASE_FAIL, .w1c, 0x0, 0x1⟩, ⟨FTL_EVENT_PROG_FAIL, .w1c, 0x0, 0x1⟩, ⟨FTL_EVENT_GEOM_BAD, .w1c, 0x0, 0x1⟩, ⟨FTL_EVENT_HEALTH, .w1c, 0x0, 0x1⟩]⟩] ++
  [⟨0x1040038, 0x400000, 8, 1, [⟨FTL_OWN_ADOPTED, .ro, 0x0, 0xFFFF⟩, ⟨FTL_OWN_OWNED, .ro, 0x0, 0xFFFF⟩]⟩] ++
  [⟨0x104003C, 0x400000, 8, 1, [⟨FTL_OWN_CMD_RELEASE, .wo, 0x0, 0x1⟩, ⟨FTL_OWN_CMD_RECLAIM, .wo, 0x0, 0x1⟩]⟩] ++
  [⟨0x1040040, 0x400000, 8, 1, [⟨FTL_CH_FENCE_FENCED, .ro, 0x0, 0xFFFF⟩]⟩] ++
  [⟨0x1040044, 0x400000, 8, 1, [⟨FTL_CH_CMD_UNFENCE, .wo, 0x0, 0xFFFF⟩, ⟨FTL_CH_CMD_FENCE, .wo, 0x0, 0xFFFF⟩]⟩] ++
  [⟨0x1040048, 0x400000, 8, 1, [⟨FTL_FREE_BANDS_BANDS, .ro, 0x0, 0xFFFFFFFF⟩]⟩] ++
  [⟨0x104004C, 0x400000, 8, 1, [⟨FTL_BAD_MEMBERS, .ro, 0x0, 0xFFFFFFFF⟩]⟩] ++
  [⟨0x1040050, 0x400000, 8, 1, [⟨FTL_WEAR_MAX, .ro, 0x0, 0xFFFF⟩, ⟨FTL_WEAR_AVG, .ro, 0x0, 0xFFFF⟩]⟩] ++
  [⟨0x1040054, 0x400000, 8, 1, [⟨FTL_PATROL_POS_DONE, .ro, 0x0, 0xFF⟩]⟩] ++
  [⟨0x1040058, 0x400000, 8, 1, [⟨FTL_JSEQ_LO_JSEQ_LO, .ro, 0x0, 0xFFFFFFFF⟩]⟩] ++
  [⟨0x104005C, 0x400000, 8, 1, [⟨FTL_JSEQ_HI_JSEQ_HI, .ro, 0x0, 0xFFFFFF⟩]⟩] ++
  [⟨0x1040060, 0x400000, 8, 1, [⟨FTL_RETRIES_COUNT, .ro, 0x0, 0xFFFFFFFF⟩]⟩] ++
  [⟨0x1040064, 0x400000, 8, 1, [⟨FTL_SOFT_COUNT, .ro, 0x0, 0xFFFFFFFF⟩]⟩] ++
  [⟨0x1040068, 0x400000, 8, 1, [⟨FTL_REBUILDS_COUNT, .ro, 0x0, 0xFFFFFFFF⟩]⟩] ++
  [⟨0x104006C, 0x400000, 8, 1, [⟨FTL_UNCORR_COUNT, .ro, 0x0, 0xFFFFFFFF⟩]⟩] ++
  [⟨0x1040070, 0x400000, 8, 1, [⟨FTL_TAG_FAIL_COUNT, .ro, 0x0, 0xFFFFFFFF⟩]⟩] ++
  [⟨0x1040074, 0x400000, 8, 1, [⟨FTL_PROG_FAIL_COUNT, .ro, 0x0, 0xFFFFFFFF⟩]⟩] ++
  [⟨0x1040078, 0x400000, 8, 1, [⟨FTL_ERASE_FAIL_COUNT, .ro, 0x0, 0xFFFFFFFF⟩]⟩] ++
  [⟨0x104007C, 0x400000, 8, 1, [⟨FTL_GC_BANDS_COUNT, .ro, 0x0, 0xFFFFFFFF⟩]⟩] ++
  [⟨0x1040080, 0x400000, 8, 1, [⟨FTL_GC_DISCARD_COUNT, .ro, 0x0, 0xFFFFFFFF⟩]⟩] ++
  [⟨0x1040084, 0x400000, 8, 1, [⟨FTL_REFRESHES_COUNT, .ro, 0x0, 0xFFFFFFFF⟩]⟩] ++
  [⟨0x1040088, 0x400000, 8, 1, [⟨FTL_ORPHANS_COUNT, .ro, 0x0, 0xFFFFFFFF⟩]⟩] ++
  [⟨0x104008C, 0x400000, 8, 1, [⟨FTL_PINNED_COUNT, .ro, 0x0, 0xFFFFFFFF⟩]⟩]

/-- NRT_CTRL.INJECT (R386). -/
def NRT_CTRL_INJECT : Fld := ⟨.nrt, 0x1060000, 0x400000, 2, 1, 0x0⟩
/-- NRT_CTRL.ROCE_EN (R386). -/
def NRT_CTRL_ROCE_EN : Fld := ⟨.nrt, 0x1060000, 0x400000, 1, 1, 0x0⟩
/-- NRT_CTRL.EN (R386). -/
def NRT_CTRL_EN : Fld := ⟨.nrt, 0x1060000, 0x400000, 0, 1, 0x0⟩
/-- NRT_STATUS.REVOKING (R386). -/
def NRT_STATUS_REVOKING : Fld := ⟨.nrt, 0x1060004, 0x400000, 2, 1, 0x0⟩
/-- NRT_STATUS.LINK_UP (R386). -/
def NRT_STATUS_LINK_UP : Fld := ⟨.nrt, 0x1060004, 0x400000, 1, 1, 0x0⟩
/-- NRT_STATUS.READY (R386). -/
def NRT_STATUS_READY : Fld := ⟨.nrt, 0x1060004, 0x400000, 0, 1, 0x0⟩
/-- NRT_CFG.UDP_PORT (R386). -/
def NRT_CFG_UDP_PORT : Fld := ⟨.nrt, 0x1060008, 0x400000, 16, 16, 0xC352⟩
/-- NRT_CFG.SEG_LOG2 (R386). -/
def NRT_CFG_SEG_LOG2 : Fld := ⟨.nrt, 0x1060008, 0x400000, 12, 4, 0xC⟩
/-- NRT_CFG.RETRY (R386). -/
def NRT_CFG_RETRY : Fld := ⟨.nrt, 0x1060008, 0x400000, 0, 8, 0x4⟩
/-- NRT_TMO.ACK_TMO (R386). -/
def NRT_TMO_ACK_TMO : Fld := ⟨.nrt, 0x106000C, 0x400000, 16, 16, 0xC8⟩
/-- NRT_TMO.PATH_TMO (R386). -/
def NRT_TMO_PATH_TMO : Fld := ⟨.nrt, 0x106000C, 0x400000, 8, 8, 0x10⟩
/-- NRT_TMO2.LINGER (R386). -/
def NRT_TMO2_LINGER : Fld := ⟨.nrt, 0x1060010, 0x400000, 16, 16, 0x3E8⟩
/-- NRT_TMO2.HOLD_TMO (R386). -/
def NRT_TMO2_HOLD_TMO : Fld := ⟨.nrt, 0x1060010, 0x400000, 0, 16, 0x64⟩
/-- NRT_RATE.MAX (R386). -/
def NRT_RATE_MAX : Fld := ⟨.nrt, 0x1060014, 0x400000, 20, 12, 0x640⟩
/-- NRT_RATE.MIN (R386). -/
def NRT_RATE_MIN : Fld := ⟨.nrt, 0x1060014, 0x400000, 8, 12, 0x19⟩
/-- NRT_RATE.STEP (R386). -/
def NRT_RATE_STEP : Fld := ⟨.nrt, 0x1060014, 0x400000, 0, 8, 0xA⟩
/-- NRT_EVENT.KEY_SCRUBBED (R386). -/
def NRT_EVENT_KEY_SCRUBBED : Fld := ⟨.nrt, 0x1060018, 0x400000, 8, 1, 0x0⟩
/-- NRT_EVENT.INJECT_SEEN (R386). -/
def NRT_EVENT_INJECT_SEEN : Fld := ⟨.nrt, 0x1060018, 0x400000, 7, 1, 0x0⟩
/-- NRT_EVENT.ROCE_ERR (R386). -/
def NRT_EVENT_ROCE_ERR : Fld := ⟨.nrt, 0x1060018, 0x400000, 6, 1, 0x0⟩
/-- NRT_EVENT.PINNED (R386). -/
def NRT_EVENT_PINNED : Fld := ⟨.nrt, 0x1060018, 0x400000, 5, 1, 0x0⟩
/-- NRT_EVENT.PATH_DOWN (R386). -/
def NRT_EVENT_PATH_DOWN : Fld := ⟨.nrt, 0x1060018, 0x400000, 4, 1, 0x0⟩
/-- NRT_EVENT.UNREACH (R386). -/
def NRT_EVENT_UNREACH : Fld := ⟨.nrt, 0x1060018, 0x400000, 3, 1, 0x0⟩
/-- NRT_EVENT.MALFORMED (R386). -/
def NRT_EVENT_MALFORMED : Fld := ⟨.nrt, 0x1060018, 0x400000, 2, 1, 0x0⟩
/-- NRT_EVENT.ACCESS (R386). -/
def NRT_EVENT_ACCESS : Fld := ⟨.nrt, 0x1060018, 0x400000, 1, 1, 0x0⟩
/-- NRT_EVENT.CTX_FULL (R386). -/
def NRT_EVENT_CTX_FULL : Fld := ⟨.nrt, 0x1060018, 0x400000, 0, 1, 0x0⟩
/-- NRT_PORT_ID.ID (R386). -/
def NRT_PORT_ID_ID : Fld := ⟨.nrt, 0x106001C, 0x400000, 0, 32, 0x0⟩
/-- NRT_MAC_LO.ADDR_LO (R386). -/
def NRT_MAC_LO_ADDR_LO : Fld := ⟨.nrt, 0x1060020, 0x400000, 0, 32, 0x0⟩
/-- NRT_MAC_HI.ADDR_HI (R386). -/
def NRT_MAC_HI_ADDR_HI : Fld := ⟨.nrt, 0x1060024, 0x400000, 0, 16, 0x0⟩
/-- NRT_GW_LO.ADDR_LO (R386). -/
def NRT_GW_LO_ADDR_LO : Fld := ⟨.nrt, 0x1060028, 0x400000, 0, 32, 0x0⟩
/-- NRT_GW_HI.ADDR_HI (R386). -/
def NRT_GW_HI_ADDR_HI : Fld := ⟨.nrt, 0x106002C, 0x400000, 0, 16, 0x0⟩
/-- NRT_IP6_.ADDR (R386). -/
def NRT_IP6_ADDR : Fld := ⟨.nrt, 0x1060030, 0x400000, 0, 32, 0x0⟩
/-- NRT_IP4.ADDR (R386). -/
def NRT_IP4_ADDR : Fld := ⟨.nrt, 0x1060040, 0x400000, 0, 32, 0x0⟩
/-- NRT_CTX_USED.CONTEXTS (R386). -/
def NRT_CTX_USED_CONTEXTS : Fld := ⟨.nrt, 0x1060044, 0x400000, 0, 11, 0x0⟩
/-- NRT_PINNED.TICKS (R386). -/
def NRT_PINNED_TICKS : Fld := ⟨.nrt, 0x1060048, 0x400000, 0, 32, 0x0⟩
/-- NRT_TX_MSGS.COUNT (R386). -/
def NRT_TX_MSGS_COUNT : Fld := ⟨.nrt, 0x1060050, 0x400000, 0, 32, 0x0⟩
/-- NRT_RX_MSGS.COUNT (R386). -/
def NRT_RX_MSGS_COUNT : Fld := ⟨.nrt, 0x1060054, 0x400000, 0, 32, 0x0⟩
/-- NRT_RX_PKTS.COUNT (R386). -/
def NRT_RX_PKTS_COUNT : Fld := ⟨.nrt, 0x1060058, 0x400000, 0, 32, 0x0⟩
/-- NRT_DUPS.COUNT (R386). -/
def NRT_DUPS_COUNT : Fld := ⟨.nrt, 0x106005C, 0x400000, 0, 32, 0x0⟩
/-- NRT_SNACKS_TX.COUNT (R386). -/
def NRT_SNACKS_TX_COUNT : Fld := ⟨.nrt, 0x1060060, 0x400000, 0, 32, 0x0⟩
/-- NRT_SNACKS_RX.COUNT (R386). -/
def NRT_SNACKS_RX_COUNT : Fld := ⟨.nrt, 0x1060064, 0x400000, 0, 32, 0x0⟩
/-- NRT_RETX.COUNT (R386). -/
def NRT_RETX_COUNT : Fld := ⟨.nrt, 0x1060068, 0x400000, 0, 32, 0x0⟩
/-- NRT_ACCESS.COUNT (R386). -/
def NRT_ACCESS_COUNT : Fld := ⟨.nrt, 0x106006C, 0x400000, 0, 32, 0x0⟩
/-- NRT_MALFORMED.COUNT (R386). -/
def NRT_MALFORMED_COUNT : Fld := ⟨.nrt, 0x1060070, 0x400000, 0, 32, 0x0⟩
/-- NRT_CTX_FULL.COUNT (R386). -/
def NRT_CTX_FULL_COUNT : Fld := ⟨.nrt, 0x1060074, 0x400000, 0, 32, 0x0⟩
/-- NRT_FILTER_EVICT.COUNT (R386). -/
def NRT_FILTER_EVICT_COUNT : Fld := ⟨.nrt, 0x1060078, 0x400000, 0, 32, 0x0⟩
/-- NRT_UNREACH.COUNT (R386). -/
def NRT_UNREACH_COUNT : Fld := ⟨.nrt, 0x106007C, 0x400000, 0, 32, 0x0⟩

/-- The registers of the NRT block. -/
def regsNRT : List Reg :=
  [⟨0x1060000, 0x400000, 8, 1, [⟨NRT_CTRL_INJECT, .wo, 0x0, 0x1⟩, ⟨NRT_CTRL_ROCE_EN, .rwl, 0x0, 0x1⟩, ⟨NRT_CTRL_EN, .rw, 0x0, 0x1⟩]⟩] ++
  [⟨0x1060004, 0x400000, 8, 1, [⟨NRT_STATUS_REVOKING, .ro, 0x0, 0x1⟩, ⟨NRT_STATUS_LINK_UP, .ro, 0x0, 0x1⟩, ⟨NRT_STATUS_READY, .ro, 0x0, 0x1⟩]⟩] ++
  [⟨0x1060008, 0x400000, 8, 1, [⟨NRT_CFG_UDP_PORT, .rwl, 0x0, 0xFFFF⟩, ⟨NRT_CFG_SEG_LOG2, .rw, 0xA, 0xD⟩, ⟨NRT_CFG_RETRY, .rw, 0x0, 0xFF⟩]⟩] ++
  [⟨0x106000C, 0x400000, 8, 1, [⟨NRT_TMO_ACK_TMO, .rw, 0x0, 0xFFFF⟩, ⟨NRT_TMO_PATH_TMO, .rw, 0x0, 0xFF⟩]⟩] ++
  [⟨0x1060010, 0x400000, 8, 1, [⟨NRT_TMO2_LINGER, .rw, 0x0, 0xFFFF⟩, ⟨NRT_TMO2_HOLD_TMO, .rw, 0x0, 0xFFFF⟩]⟩] ++
  [⟨0x1060014, 0x400000, 8, 1, [⟨NRT_RATE_MAX, .rw, 0x0, 0xFFF⟩, ⟨NRT_RATE_MIN, .rw, 0x0, 0xFFF⟩, ⟨NRT_RATE_STEP, .rw, 0x0, 0xFF⟩]⟩] ++
  [⟨0x1060018, 0x400000, 8, 1, [⟨NRT_EVENT_KEY_SCRUBBED, .w1c, 0x0, 0x1⟩, ⟨NRT_EVENT_INJECT_SEEN, .w1c, 0x0, 0x1⟩, ⟨NRT_EVENT_ROCE_ERR, .w1c, 0x0, 0x1⟩, ⟨NRT_EVENT_PINNED, .w1c, 0x0, 0x1⟩, ⟨NRT_EVENT_PATH_DOWN, .w1c, 0x0, 0x1⟩, ⟨NRT_EVENT_UNREACH, .w1c, 0x0, 0x1⟩, ⟨NRT_EVENT_MALFORMED, .w1c, 0x0, 0x1⟩, ⟨NRT_EVENT_ACCESS, .w1c, 0x0, 0x1⟩, ⟨NRT_EVENT_CTX_FULL, .w1c, 0x0, 0x1⟩]⟩] ++
  [⟨0x106001C, 0x400000, 8, 1, [⟨NRT_PORT_ID_ID, .rwl, 0x0, 0xFFFFFFFF⟩]⟩] ++
  [⟨0x1060020, 0x400000, 8, 1, [⟨NRT_MAC_LO_ADDR_LO, .rw, 0x0, 0xFFFFFFFF⟩]⟩] ++
  [⟨0x1060024, 0x400000, 8, 1, [⟨NRT_MAC_HI_ADDR_HI, .rw, 0x0, 0xFFFF⟩]⟩] ++
  [⟨0x1060028, 0x400000, 8, 1, [⟨NRT_GW_LO_ADDR_LO, .rw, 0x0, 0xFFFFFFFF⟩]⟩] ++
  [⟨0x106002C, 0x400000, 8, 1, [⟨NRT_GW_HI_ADDR_HI, .rw, 0x0, 0xFFFF⟩]⟩] ++
  [⟨0x1060030, 0x400000, 8, 4, [⟨NRT_IP6_ADDR, .rw, 0x0, 0xFFFFFFFF⟩]⟩] ++
  [⟨0x1060040, 0x400000, 8, 1, [⟨NRT_IP4_ADDR, .rw, 0x0, 0xFFFFFFFF⟩]⟩] ++
  [⟨0x1060044, 0x400000, 8, 1, [⟨NRT_CTX_USED_CONTEXTS, .ro, 0x0, 0x7FF⟩]⟩] ++
  [⟨0x1060048, 0x400000, 8, 1, [⟨NRT_PINNED_TICKS, .ro, 0x0, 0xFFFFFFFF⟩]⟩] ++
  [⟨0x1060050, 0x400000, 8, 1, [⟨NRT_TX_MSGS_COUNT, .ro, 0x0, 0xFFFFFFFF⟩]⟩] ++
  [⟨0x1060054, 0x400000, 8, 1, [⟨NRT_RX_MSGS_COUNT, .ro, 0x0, 0xFFFFFFFF⟩]⟩] ++
  [⟨0x1060058, 0x400000, 8, 1, [⟨NRT_RX_PKTS_COUNT, .ro, 0x0, 0xFFFFFFFF⟩]⟩] ++
  [⟨0x106005C, 0x400000, 8, 1, [⟨NRT_DUPS_COUNT, .ro, 0x0, 0xFFFFFFFF⟩]⟩] ++
  [⟨0x1060060, 0x400000, 8, 1, [⟨NRT_SNACKS_TX_COUNT, .ro, 0x0, 0xFFFFFFFF⟩]⟩] ++
  [⟨0x1060064, 0x400000, 8, 1, [⟨NRT_SNACKS_RX_COUNT, .ro, 0x0, 0xFFFFFFFF⟩]⟩] ++
  [⟨0x1060068, 0x400000, 8, 1, [⟨NRT_RETX_COUNT, .ro, 0x0, 0xFFFFFFFF⟩]⟩] ++
  [⟨0x106006C, 0x400000, 8, 1, [⟨NRT_ACCESS_COUNT, .ro, 0x0, 0xFFFFFFFF⟩]⟩] ++
  [⟨0x1060070, 0x400000, 8, 1, [⟨NRT_MALFORMED_COUNT, .ro, 0x0, 0xFFFFFFFF⟩]⟩] ++
  [⟨0x1060074, 0x400000, 8, 1, [⟨NRT_CTX_FULL_COUNT, .ro, 0x0, 0xFFFFFFFF⟩]⟩] ++
  [⟨0x1060078, 0x400000, 8, 1, [⟨NRT_FILTER_EVICT_COUNT, .ro, 0x0, 0xFFFFFFFF⟩]⟩] ++
  [⟨0x106007C, 0x400000, 8, 1, [⟨NRT_UNREACH_COUNT, .ro, 0x0, 0xFFFFFFFF⟩]⟩]

/-- LNK_CTRL.LAT_CLR (R410). -/
def LNK_CTRL_LAT_CLR : Fld := ⟨.lnk, 0x1080000, 0x400000, 4, 1, 0x0⟩
/-- LNK_CTRL.REKEY_NOW (R410). -/
def LNK_CTRL_REKEY_NOW : Fld := ⟨.lnk, 0x1080000, 0x400000, 3, 1, 0x0⟩
/-- LNK_CTRL.SCI_OMIT (R410). -/
def LNK_CTRL_SCI_OMIT : Fld := ⟨.lnk, 0x1080000, 0x400000, 2, 1, 0x0⟩
/-- LNK_CTRL.MACSEC_EN (R410). -/
def LNK_CTRL_MACSEC_EN : Fld := ⟨.lnk, 0x1080000, 0x400000, 1, 1, 0x1⟩
/-- LNK_CTRL.EN (R410). -/
def LNK_CTRL_EN : Fld := ⟨.lnk, 0x1080000, 0x400000, 0, 1, 0x0⟩
/-- LNK_STATUS.LANES (R410). -/
def LNK_STATUS_LANES : Fld := ⟨.lnk, 0x1080004, 0x400000, 8, 4, 0x0⟩
/-- LNK_STATUS.TX_AN (R410). -/
def LNK_STATUS_TX_AN : Fld := ⟨.lnk, 0x1080004, 0x400000, 4, 2, 0x0⟩
/-- LNK_STATUS.SECURED (R410). -/
def LNK_STATUS_SECURED : Fld := ⟨.lnk, 0x1080004, 0x400000, 3, 1, 0x0⟩
/-- LNK_STATUS.SHUT_HELD (R410). -/
def LNK_STATUS_SHUT_HELD : Fld := ⟨.lnk, 0x1080004, 0x400000, 2, 1, 0x0⟩
/-- LNK_STATUS.PN_STOP (R410). -/
def LNK_STATUS_PN_STOP : Fld := ⟨.lnk, 0x1080004, 0x400000, 1, 1, 0x0⟩
/-- LNK_STATUS.UP (R410). -/
def LNK_STATUS_UP : Fld := ⟨.lnk, 0x1080004, 0x400000, 0, 1, 0x0⟩
/-- LNK_MACSEC.REPLAY_WIN (R410). -/
def LNK_MACSEC_REPLAY_WIN : Fld := ⟨.lnk, 0x1080008, 0x400000, 16, 16, 0x0⟩
/-- LNK_MACSEC.REKEY_LOG2 (R410). -/
def LNK_MACSEC_REKEY_LOG2 : Fld := ⟨.lnk, 0x1080008, 0x400000, 0, 8, 0x30⟩
/-- LNK_MKA.REKEY_S (R410). -/
def LNK_MKA_REKEY_S : Fld := ⟨.lnk, 0x108000C, 0x400000, 16, 16, 0xE10⟩
/-- LNK_MKA.KS_PRIO (R410). -/
def LNK_MKA_KS_PRIO : Fld := ⟨.lnk, 0x108000C, 0x400000, 0, 8, 0x80⟩
/-- LNK_TC_MAP.OTHER (R410). -/
def LNK_TC_MAP_OTHER : Fld := ⟨.lnk, 0x1080010, 0x400000, 24, 4, 0x0⟩
/-- LNK_TC_MAP.ARMED (R410). -/
def LNK_TC_MAP_ARMED : Fld := ⟨.lnk, 0x1080010, 0x400000, 20, 4, 0x1⟩
/-- LNK_TC_MAP.BULK (R410). -/
def LNK_TC_MAP_BULK : Fld := ⟨.lnk, 0x1080010, 0x400000, 16, 4, 0x2⟩
/-- LNK_TC_MAP.READ (R410). -/
def LNK_TC_MAP_READ : Fld := ⟨.lnk, 0x1080010, 0x400000, 12, 4, 0x3⟩
/-- LNK_TC_MAP.CONTROL (R410). -/
def LNK_TC_MAP_CONTROL : Fld := ⟨.lnk, 0x1080010, 0x400000, 8, 4, 0x4⟩
/-- LNK_TC_MAP.STEP (R410). -/
def LNK_TC_MAP_STEP : Fld := ⟨.lnk, 0x1080010, 0x400000, 4, 4, 0x5⟩
/-- LNK_TC_MAP.RESULT (R410). -/
def LNK_TC_MAP_RESULT : Fld := ⟨.lnk, 0x1080010, 0x400000, 0, 4, 0x6⟩
/-- LNK_DSCP_LO.DSCP0 (R410). -/
def LNK_DSCP_LO_DSCP0 : Fld := ⟨.lnk, 0x1080014, 0x400000, 0, 6, 0x0⟩
/-- LNK_DSCP_LO.DSCP1 (R410). -/
def LNK_DSCP_LO_DSCP1 : Fld := ⟨.lnk, 0x1080014, 0x400000, 8, 6, 0x8⟩
/-- LNK_DSCP_LO.DSCP2 (R410). -/
def LNK_DSCP_LO_DSCP2 : Fld := ⟨.lnk, 0x1080014, 0x400000, 16, 6, 0x10⟩
/-- LNK_DSCP_LO.DSCP3 (R410). -/
def LNK_DSCP_LO_DSCP3 : Fld := ⟨.lnk, 0x1080014, 0x400000, 24, 6, 0x18⟩
/-- LNK_DSCP_HI.DSCP0 (R410). -/
def LNK_DSCP_HI_DSCP0 : Fld := ⟨.lnk, 0x1080018, 0x400000, 0, 6, 0x20⟩
/-- LNK_DSCP_HI.DSCP1 (R410). -/
def LNK_DSCP_HI_DSCP1 : Fld := ⟨.lnk, 0x1080018, 0x400000, 8, 6, 0x28⟩
/-- LNK_DSCP_HI.DSCP2 (R410). -/
def LNK_DSCP_HI_DSCP2 : Fld := ⟨.lnk, 0x1080018, 0x400000, 16, 6, 0x30⟩
/-- LNK_DSCP_HI.DSCP3 (R410). -/
def LNK_DSCP_HI_DSCP3 : Fld := ⟨.lnk, 0x1080018, 0x400000, 24, 6, 0x38⟩
/-- LNK_EVENT.SWAPPED (R410). -/
def LNK_EVENT_SWAPPED : Fld := ⟨.lnk, 0x108001C, 0x400000, 7, 1, 0x0⟩
/-- LNK_EVENT.LAT_OVER (R410). -/
def LNK_EVENT_LAT_OVER : Fld := ⟨.lnk, 0x108001C, 0x400000, 6, 1, 0x0⟩
/-- LNK_EVENT.POL_DROP (R410). -/
def LNK_EVENT_POL_DROP : Fld := ⟨.lnk, 0x108001C, 0x400000, 5, 1, 0x0⟩
/-- LNK_EVENT.ICV_FAIL (R410). -/
def LNK_EVENT_ICV_FAIL : Fld := ⟨.lnk, 0x108001C, 0x400000, 4, 1, 0x0⟩
/-- LNK_EVENT.PN_STOP (R410). -/
def LNK_EVENT_PN_STOP : Fld := ⟨.lnk, 0x108001C, 0x400000, 3, 1, 0x0⟩
/-- LNK_EVENT.REKEY (R410). -/
def LNK_EVENT_REKEY : Fld := ⟨.lnk, 0x108001C, 0x400000, 2, 1, 0x0⟩
/-- LNK_EVENT.SECURED_LOST (R410). -/
def LNK_EVENT_SECURED_LOST : Fld := ⟨.lnk, 0x108001C, 0x400000, 1, 1, 0x0⟩
/-- LNK_EVENT.CFG_ERR (R410). -/
def LNK_EVENT_CFG_ERR : Fld := ⟨.lnk, 0x108001C, 0x400000, 0, 1, 0x0⟩
/-- LNK_TXPN_LO.PN_LO (R410). -/
def LNK_TXPN_LO_PN_LO : Fld := ⟨.lnk, 0x1080020, 0x400000, 0, 32, 0x0⟩
/-- LNK_TXPN_HI.PN_HI (R410). -/
def LNK_TXPN_HI_PN_HI : Fld := ⟨.lnk, 0x1080024, 0x400000, 0, 32, 0x0⟩
/-- LNK_CBS_LIM.LIMIT (R410). -/
def LNK_CBS_LIM_LIMIT : Fld := ⟨.lnk, 0x1080028, 0x400000, 0, 24, 0x8000⟩
/-- LNK_CBS.EN (R410). -/
def LNK_CBS_EN : Fld := ⟨.lnk, 0x1080040, 0x400000, 31, 1, 0x0⟩
/-- LNK_CBS.IDLE (R410). -/
def LNK_CBS_IDLE : Fld := ⟨.lnk, 0x1080040, 0x400000, 0, 15, 0x0⟩
/-- LNK_SHUT_CTRL.PENDING (R410). -/
def LNK_SHUT_CTRL_PENDING : Fld := ⟨.lnk, 0x1080060, 0x400000, 2, 1, 0x0⟩
/-- LNK_SHUT_CTRL.COMMIT (R410). -/
def LNK_SHUT_CTRL_COMMIT : Fld := ⟨.lnk, 0x1080060, 0x400000, 1, 1, 0x0⟩
/-- LNK_SHUT_CTRL.EN (R410). -/
def LNK_SHUT_CTRL_EN : Fld := ⟨.lnk, 0x1080060, 0x400000, 0, 1, 0x0⟩
/-- LNK_SHUT_CYCLE.CYCLE (R410). -/
def LNK_SHUT_CYCLE_CYCLE : Fld := ⟨.lnk, 0x1080064, 0x400000, 0, 32, 0x186A0⟩
/-- LNK_SHUT_LEN.LEN (R410). -/
def LNK_SHUT_LEN_LEN : Fld := ⟨.lnk, 0x1080068, 0x400000, 0, 7, 0x1⟩
/-- LNK_POL_SEL.POLICER (R410). -/
def LNK_POL_SEL_POLICER : Fld := ⟨.lnk, 0x1080070, 0x400000, 0, 8, 0x0⟩
/-- LNK_POL_RATE.RATE (R410). -/
def LNK_POL_RATE_RATE : Fld := ⟨.lnk, 0x1080074, 0x400000, 0, 18, 0x0⟩
/-- LNK_POL_BURST.BURST (R410). -/
def LNK_POL_BURST_BURST : Fld := ⟨.lnk, 0x1080078, 0x400000, 0, 24, 0x0⟩
/-- LNK_POL_KEY.EN (R410). -/
def LNK_POL_KEY_EN : Fld := ⟨.lnk, 0x108007C, 0x400000, 31, 1, 0x0⟩
/-- LNK_POL_KEY.ENTRY (R410). -/
def LNK_POL_KEY_ENTRY : Fld := ⟨.lnk, 0x108007C, 0x400000, 0, 21, 0x0⟩
/-- LNK_POL_MARK.LEVEL (R410). -/
def LNK_POL_MARK_LEVEL : Fld := ⟨.lnk, 0x1080080, 0x400000, 0, 8, 0x19⟩
/-- LNK_QLAT.THRESH (R410). -/
def LNK_QLAT_THRESH : Fld := ⟨.lnk, 0x10800A0, 0x400000, 16, 16, 0x0⟩
/-- LNK_QLAT.HWM (R410). -/
def LNK_QLAT_HWM : Fld := ⟨.lnk, 0x10800A0, 0x400000, 0, 16, 0x0⟩
/-- LNK_ICV_FAIL.COUNT (R410). -/
def LNK_ICV_FAIL_COUNT : Fld := ⟨.lnk, 0x10800C0, 0x400000, 0, 32, 0x0⟩
/-- LNK_REPLAY.COUNT (R410). -/
def LNK_REPLAY_COUNT : Fld := ⟨.lnk, 0x10800C4, 0x400000, 0, 32, 0x0⟩
/-- LNK_NOSA.COUNT (R410). -/
def LNK_NOSA_COUNT : Fld := ⟨.lnk, 0x10800C8, 0x400000, 0, 32, 0x0⟩
/-- LNK_UNPROT.COUNT (R410). -/
def LNK_UNPROT_COUNT : Fld := ⟨.lnk, 0x10800CC, 0x400000, 0, 32, 0x0⟩
/-- LNK_REKEYS.COUNT (R410). -/
def LNK_REKEYS_COUNT : Fld := ⟨.lnk, 0x10800D0, 0x400000, 0, 32, 0x0⟩
/-- LNK_POL_MARKS.COUNT (R410). -/
def LNK_POL_MARKS_COUNT : Fld := ⟨.lnk, 0x10800D4, 0x400000, 0, 32, 0x0⟩
/-- LNK_POL_DROPS.COUNT (R410). -/
def LNK_POL_DROPS_COUNT : Fld := ⟨.lnk, 0x10800D8, 0x400000, 0, 32, 0x0⟩
/-- LNK_GATE_DEFER.COUNT (R410). -/
def LNK_GATE_DEFER_COUNT : Fld := ⟨.lnk, 0x10800DC, 0x400000, 0, 32, 0x0⟩
/-- LNK_LAT_OVER.COUNT (R410). -/
def LNK_LAT_OVER_COUNT : Fld := ⟨.lnk, 0x10800E0, 0x400000, 0, 32, 0x0⟩
/-- LNK_SHUT_SWAPS.COUNT (R410). -/
def LNK_SHUT_SWAPS_COUNT : Fld := ⟨.lnk, 0x10800E4, 0x400000, 0, 32, 0x0⟩
/-- LNK_SHUT_ENTRY0.GATES (R410). -/
def LNK_SHUT_ENTRY0_GATES : Fld := ⟨.lnk, 0x1080100, 0x400000, 24, 8, 0xFF⟩
/-- LNK_SHUT_ENTRY0.INTERVAL (R410). -/
def LNK_SHUT_ENTRY0_INTERVAL : Fld := ⟨.lnk, 0x1080100, 0x400000, 0, 24, 0x186A0⟩
/-- LNK_SHUT_ENTRY.GATES (R410). -/
def LNK_SHUT_ENTRY_GATES : Fld := ⟨.lnk, 0x1080104, 0x400000, 24, 8, 0xFF⟩
/-- LNK_SHUT_ENTRY.INTERVAL (R410). -/
def LNK_SHUT_ENTRY_INTERVAL : Fld := ⟨.lnk, 0x1080104, 0x400000, 0, 24, 0x0⟩

/-- The registers of the LNK block. -/
def regsLNK : List Reg :=
  [⟨0x1080000, 0x400000, 8, 1, [⟨LNK_CTRL_LAT_CLR, .wo, 0x0, 0x1⟩, ⟨LNK_CTRL_REKEY_NOW, .wo, 0x0, 0x1⟩, ⟨LNK_CTRL_SCI_OMIT, .rwl, 0x0, 0x1⟩, ⟨LNK_CTRL_MACSEC_EN, .rwl, 0x0, 0x1⟩, ⟨LNK_CTRL_EN, .rw, 0x0, 0x1⟩]⟩] ++
  [⟨0x1080004, 0x400000, 8, 1, [⟨LNK_STATUS_LANES, .ro, 0x0, 0xF⟩, ⟨LNK_STATUS_TX_AN, .ro, 0x0, 0x3⟩, ⟨LNK_STATUS_SECURED, .ro, 0x0, 0x1⟩, ⟨LNK_STATUS_SHUT_HELD, .ro, 0x0, 0x1⟩, ⟨LNK_STATUS_PN_STOP, .ro, 0x0, 0x1⟩, ⟨LNK_STATUS_UP, .ro, 0x0, 0x1⟩]⟩] ++
  [⟨0x1080008, 0x400000, 8, 1, [⟨LNK_MACSEC_REPLAY_WIN, .rw, 0x0, 0xFFFF⟩, ⟨LNK_MACSEC_REKEY_LOG2, .rw, 0x20, 0x3E⟩]⟩] ++
  [⟨0x108000C, 0x400000, 8, 1, [⟨LNK_MKA_REKEY_S, .rw, 0x0, 0xFFFF⟩, ⟨LNK_MKA_KS_PRIO, .rw, 0x0, 0xFF⟩]⟩] ++
  [⟨0x1080010, 0x400000, 8, 1, [⟨LNK_TC_MAP_OTHER, .rw, 0x0, 0x7⟩, ⟨LNK_TC_MAP_ARMED, .rw, 0x0, 0x7⟩, ⟨LNK_TC_MAP_BULK, .rw, 0x0, 0x7⟩, ⟨LNK_TC_MAP_READ, .rw, 0x0, 0x7⟩, ⟨LNK_TC_MAP_CONTROL, .rw, 0x0, 0x7⟩, ⟨LNK_TC_MAP_STEP, .rw, 0x0, 0x7⟩, ⟨LNK_TC_MAP_RESULT, .rw, 0x0, 0x7⟩]⟩] ++
  [⟨0x1080014, 0x400000, 8, 1, [⟨LNK_DSCP_LO_DSCP0, .rw, 0x0, 0x3F⟩, ⟨LNK_DSCP_LO_DSCP1, .rw, 0x0, 0x3F⟩, ⟨LNK_DSCP_LO_DSCP2, .rw, 0x0, 0x3F⟩, ⟨LNK_DSCP_LO_DSCP3, .rw, 0x0, 0x3F⟩]⟩] ++
  [⟨0x1080018, 0x400000, 8, 1, [⟨LNK_DSCP_HI_DSCP0, .rw, 0x0, 0x3F⟩, ⟨LNK_DSCP_HI_DSCP1, .rw, 0x0, 0x3F⟩, ⟨LNK_DSCP_HI_DSCP2, .rw, 0x0, 0x3F⟩, ⟨LNK_DSCP_HI_DSCP3, .rw, 0x0, 0x3F⟩]⟩] ++
  [⟨0x108001C, 0x400000, 8, 1, [⟨LNK_EVENT_SWAPPED, .w1c, 0x0, 0x1⟩, ⟨LNK_EVENT_LAT_OVER, .w1c, 0x0, 0x1⟩, ⟨LNK_EVENT_POL_DROP, .w1c, 0x0, 0x1⟩, ⟨LNK_EVENT_ICV_FAIL, .w1c, 0x0, 0x1⟩, ⟨LNK_EVENT_PN_STOP, .w1c, 0x0, 0x1⟩, ⟨LNK_EVENT_REKEY, .w1c, 0x0, 0x1⟩, ⟨LNK_EVENT_SECURED_LOST, .w1c, 0x0, 0x1⟩, ⟨LNK_EVENT_CFG_ERR, .w1c, 0x0, 0x1⟩]⟩] ++
  [⟨0x1080020, 0x400000, 8, 1, [⟨LNK_TXPN_LO_PN_LO, .ro, 0x0, 0xFFFFFFFF⟩]⟩] ++
  [⟨0x1080024, 0x400000, 8, 1, [⟨LNK_TXPN_HI_PN_HI, .ro, 0x0, 0xFFFFFFFF⟩]⟩] ++
  [⟨0x1080028, 0x400000, 8, 1, [⟨LNK_CBS_LIM_LIMIT, .rw, 0x0, 0xFFFFFF⟩]⟩] ++
  [⟨0x1080040, 0x400000, 8, 8, [⟨LNK_CBS_EN, .rw, 0x0, 0x1⟩, ⟨LNK_CBS_IDLE, .rw, 0x1, 0x3E80⟩]⟩] ++
  [⟨0x1080060, 0x400000, 8, 1, [⟨LNK_SHUT_CTRL_PENDING, .ro, 0x0, 0x1⟩, ⟨LNK_SHUT_CTRL_COMMIT, .wo, 0x0, 0x1⟩, ⟨LNK_SHUT_CTRL_EN, .rw, 0x0, 0x1⟩]⟩] ++
  [⟨0x1080064, 0x400000, 8, 1, [⟨LNK_SHUT_CYCLE_CYCLE, .rw, 0x0, 0xFFFFFFFF⟩]⟩] ++
  [⟨0x1080068, 0x400000, 8, 1, [⟨LNK_SHUT_LEN_LEN, .rw, 0x1, 0x40⟩]⟩] ++
  [⟨0x1080070, 0x400000, 8, 1, [⟨LNK_POL_SEL_POLICER, .rw, 0x0, 0xFF⟩]⟩] ++
  [⟨0x1080074, 0x400000, 8, 1, [⟨LNK_POL_RATE_RATE, .rw, 0x1, 0x27100⟩]⟩] ++
  [⟨0x1080078, 0x400000, 8, 1, [⟨LNK_POL_BURST_BURST, .rw, 0x0, 0xFFFFFF⟩]⟩] ++
  [⟨0x108007C, 0x400000, 8, 1, [⟨LNK_POL_KEY_EN, .rw, 0x0, 0x1⟩, ⟨LNK_POL_KEY_ENTRY, .rw, 0x0, 0x1FFFFF⟩]⟩] ++
  [⟨0x1080080, 0x400000, 8, 1, [⟨LNK_POL_MARK_LEVEL, .rw, 0x0, 0xFF⟩]⟩] ++
  [⟨0x10800A0, 0x400000, 8, 8, [⟨LNK_QLAT_THRESH, .rw, 0x0, 0xFFFF⟩, ⟨LNK_QLAT_HWM, .ro, 0x0, 0xFFFF⟩]⟩] ++
  [⟨0x10800C0, 0x400000, 8, 1, [⟨LNK_ICV_FAIL_COUNT, .ro, 0x0, 0xFFFFFFFF⟩]⟩] ++
  [⟨0x10800C4, 0x400000, 8, 1, [⟨LNK_REPLAY_COUNT, .ro, 0x0, 0xFFFFFFFF⟩]⟩] ++
  [⟨0x10800C8, 0x400000, 8, 1, [⟨LNK_NOSA_COUNT, .ro, 0x0, 0xFFFFFFFF⟩]⟩] ++
  [⟨0x10800CC, 0x400000, 8, 1, [⟨LNK_UNPROT_COUNT, .ro, 0x0, 0xFFFFFFFF⟩]⟩] ++
  [⟨0x10800D0, 0x400000, 8, 1, [⟨LNK_REKEYS_COUNT, .ro, 0x0, 0xFFFFFFFF⟩]⟩] ++
  [⟨0x10800D4, 0x400000, 8, 1, [⟨LNK_POL_MARKS_COUNT, .ro, 0x0, 0xFFFFFFFF⟩]⟩] ++
  [⟨0x10800D8, 0x400000, 8, 1, [⟨LNK_POL_DROPS_COUNT, .ro, 0x0, 0xFFFFFFFF⟩]⟩] ++
  [⟨0x10800DC, 0x400000, 8, 1, [⟨LNK_GATE_DEFER_COUNT, .ro, 0x0, 0xFFFFFFFF⟩]⟩] ++
  [⟨0x10800E0, 0x400000, 8, 1, [⟨LNK_LAT_OVER_COUNT, .ro, 0x0, 0xFFFFFFFF⟩]⟩] ++
  [⟨0x10800E4, 0x400000, 8, 1, [⟨LNK_SHUT_SWAPS_COUNT, .ro, 0x0, 0xFFFFFFFF⟩]⟩] ++
  [⟨0x1080100, 0x400000, 8, 1, [⟨LNK_SHUT_ENTRY0_GATES, .rw, 0x0, 0xFF⟩, ⟨LNK_SHUT_ENTRY0_INTERVAL, .rw, 0x0, 0xFFFFFF⟩]⟩] ++
  [⟨0x1080104, 0x400000, 8, 63, [⟨LNK_SHUT_ENTRY_GATES, .rw, 0x0, 0xFF⟩, ⟨LNK_SHUT_ENTRY_INTERVAL, .rw, 0x0, 0xFFFFFF⟩]⟩]

/-- MEM_CTRL.INJECT (R574). -/
def MEM_CTRL_INJECT : Fld := ⟨.mem, 0x10A0000, 0x400000, 8, 1, 0x0⟩
/-- MEM_CTRL.INJ_STACK (R574). -/
def MEM_CTRL_INJ_STACK : Fld := ⟨.mem, 0x10A0000, 0x400000, 4, 2, 0x0⟩
/-- MEM_CTRL.INJ_SYMBOLS (R574). -/
def MEM_CTRL_INJ_SYMBOLS : Fld := ⟨.mem, 0x10A0000, 0x400000, 0, 2, 0x1⟩
/-- MEM_STATUS.HOT (R574). -/
def MEM_STATUS_HOT : Fld := ⟨.mem, 0x10A0004, 0x400000, 8, 3, 0x0⟩
/-- MEM_STATUS.IN_SERVICE (R574). -/
def MEM_STATUS_IN_SERVICE : Fld := ⟨.mem, 0x10A0004, 0x400000, 4, 3, 0x0⟩
/-- MEM_STATUS.TRAINED (R574). -/
def MEM_STATUS_TRAINED : Fld := ⟨.mem, 0x10A0004, 0x400000, 0, 3, 0x0⟩
/-- MEM_REFRESH.HYST_C (R574). -/
def MEM_REFRESH_HYST_C : Fld := ⟨.mem, 0x10A0008, 0x400000, 16, 8, 0x5⟩
/-- MEM_REFRESH.HOT_C (R574). -/
def MEM_REFRESH_HOT_C : Fld := ⟨.mem, 0x10A0008, 0x400000, 8, 8, 0x55⟩
/-- MEM_REFRESH.PER_BANK (R574). -/
def MEM_REFRESH_PER_BANK : Fld := ⟨.mem, 0x10A0008, 0x400000, 0, 1, 0x1⟩
/-- MEM_RSVD.RSVD_MIB (R574). -/
def MEM_RSVD_RSVD_MIB : Fld := ⟨.mem, 0x10A000C, 0x400000, 0, 16, 0x600⟩
/-- MEM_CAP.RATE (R574). -/
def MEM_CAP_RATE : Fld := ⟨.mem, 0x10A0010, 0x400000, 16, 8, 0x50⟩
/-- MEM_CAP.GIB (R574). -/
def MEM_CAP_GIB : Fld := ⟨.mem, 0x10A0010, 0x400000, 0, 16, 0x40⟩
/-- MEM_TEMP.TEMP0 (R574). -/
def MEM_TEMP_TEMP0 : Fld := ⟨.mem, 0x10A0014, 0x400000, 0, 8, 0x0⟩
/-- MEM_TEMP.TEMP1 (R574). -/
def MEM_TEMP_TEMP1 : Fld := ⟨.mem, 0x10A0014, 0x400000, 8, 8, 0x0⟩
/-- MEM_TEMP.TEMP2 (R574). -/
def MEM_TEMP_TEMP2 : Fld := ⟨.mem, 0x10A0014, 0x400000, 16, 8, 0x0⟩
/-- MEM_EVENT.TRAIN_FAIL (R574). -/
def MEM_EVENT_TRAIN_FAIL : Fld := ⟨.mem, 0x10A0018, 0x400000, 2, 1, 0x0⟩
/-- MEM_EVENT.INJECT_SEEN (R574). -/
def MEM_EVENT_INJECT_SEEN : Fld := ⟨.mem, 0x10A0018, 0x400000, 1, 1, 0x0⟩
/-- MEM_EVENT.HOT (R574). -/
def MEM_EVENT_HOT : Fld := ⟨.mem, 0x10A0018, 0x400000, 0, 1, 0x0⟩

/-- The registers of the MEM block. -/
def regsMEM : List Reg :=
  [⟨0x10A0000, 0x400000, 8, 1, [⟨MEM_CTRL_INJECT, .wo, 0x0, 0x1⟩, ⟨MEM_CTRL_INJ_STACK, .rw, 0x0, 0x3⟩, ⟨MEM_CTRL_INJ_SYMBOLS, .rw, 0x0, 0x3⟩]⟩] ++
  [⟨0x10A0004, 0x400000, 8, 1, [⟨MEM_STATUS_HOT, .ro, 0x0, 0x7⟩, ⟨MEM_STATUS_IN_SERVICE, .ro, 0x0, 0x7⟩, ⟨MEM_STATUS_TRAINED, .ro, 0x0, 0x7⟩]⟩] ++
  [⟨0x10A0008, 0x400000, 8, 1, [⟨MEM_REFRESH_HYST_C, .rw, 0x0, 0xFF⟩, ⟨MEM_REFRESH_HOT_C, .rw, 0x3C, 0x5F⟩, ⟨MEM_REFRESH_PER_BANK, .rwl, 0x0, 0x1⟩]⟩] ++
  [⟨0x10A000C, 0x400000, 8, 1, [⟨MEM_RSVD_RSVD_MIB, .ro, 0x0, 0xFFFF⟩]⟩] ++
  [⟨0x10A0010, 0x400000, 8, 1, [⟨MEM_CAP_RATE, .ro, 0x0, 0xFF⟩, ⟨MEM_CAP_GIB, .ro, 0x0, 0xFFFF⟩]⟩] ++
  [⟨0x10A0014, 0x400000, 8, 1, [⟨MEM_TEMP_TEMP0, .ro, 0x0, 0xFF⟩, ⟨MEM_TEMP_TEMP1, .ro, 0x0, 0xFF⟩, ⟨MEM_TEMP_TEMP2, .ro, 0x0, 0xFF⟩]⟩] ++
  [⟨0x10A0018, 0x400000, 8, 1, [⟨MEM_EVENT_TRAIN_FAIL, .w1c, 0x0, 0x1⟩, ⟨MEM_EVENT_INJECT_SEEN, .w1c, 0x0, 0x1⟩, ⟨MEM_EVENT_HOT, .w1c, 0x0, 0x1⟩]⟩]

/-- WKT_CTRL.PLAN_RSV (R570). -/
def WKT_CTRL_PLAN_RSV : Fld := ⟨.wkt, 0x10C0000, 0x400000, 16, 4, 0x1⟩
/-- WKT_CTRL.STEAL_MIN (R570). -/
def WKT_CTRL_STEAL_MIN : Fld := ⟨.wkt, 0x10C0000, 0x400000, 8, 8, 0x2⟩
/-- WKT_CTRL.STEAL (R570). -/
def WKT_CTRL_STEAL : Fld := ⟨.wkt, 0x10C0000, 0x400000, 0, 2, 0x2⟩
/-- WKT_STATUS.READY (R570). -/
def WKT_STATUS_READY : Fld := ⟨.wkt, 0x10C0004, 0x400000, 16, 1, 0x0⟩
/-- WKT_STATUS.ACTIVE (R570). -/
def WKT_STATUS_ACTIVE : Fld := ⟨.wkt, 0x10C0004, 0x400000, 0, 9, 0x0⟩
/-- WKT_QDEPTH.MAX (R570). -/
def WKT_QDEPTH_MAX : Fld := ⟨.wkt, 0x10C0008, 0x400000, 16, 16, 0x0⟩
/-- WKT_QDEPTH.NOW (R570). -/
def WKT_QDEPTH_NOW : Fld := ⟨.wkt, 0x10C0008, 0x400000, 0, 16, 0x0⟩
/-- WKT_EVENT.QUEUE_FULL (R570). -/
def WKT_EVENT_QUEUE_FULL : Fld := ⟨.wkt, 0x10C000C, 0x400000, 0, 1, 0x0⟩
/-- WKT_TASKS.COUNT (R570). -/
def WKT_TASKS_COUNT : Fld := ⟨.wkt, 0x10C0010, 0x400000, 0, 32, 0x0⟩
/-- WKT_STEAL_CLU.COUNT (R570). -/
def WKT_STEAL_CLU_COUNT : Fld := ⟨.wkt, 0x10C0014, 0x400000, 0, 32, 0x0⟩
/-- WKT_STEAL_REG.COUNT (R570). -/
def WKT_STEAL_REG_COUNT : Fld := ⟨.wkt, 0x10C0018, 0x400000, 0, 32, 0x0⟩

/-- The registers of the WKT block. -/
def regsWKT : List Reg :=
  [⟨0x10C0000, 0x400000, 8, 1, [⟨WKT_CTRL_PLAN_RSV, .rw, 0x0, 0xF⟩, ⟨WKT_CTRL_STEAL_MIN, .rw, 0x0, 0xFF⟩, ⟨WKT_CTRL_STEAL, .rw, 0x0, 0x3⟩]⟩] ++
  [⟨0x10C0004, 0x400000, 8, 1, [⟨WKT_STATUS_READY, .ro, 0x0, 0x1⟩, ⟨WKT_STATUS_ACTIVE, .ro, 0x0, 0x1FF⟩]⟩] ++
  [⟨0x10C0008, 0x400000, 8, 1, [⟨WKT_QDEPTH_MAX, .ro, 0x0, 0xFFFF⟩, ⟨WKT_QDEPTH_NOW, .ro, 0x0, 0xFFFF⟩]⟩] ++
  [⟨0x10C000C, 0x400000, 8, 1, [⟨WKT_EVENT_QUEUE_FULL, .w1c, 0x0, 0x1⟩]⟩] ++
  [⟨0x10C0010, 0x400000, 8, 1, [⟨WKT_TASKS_COUNT, .ro, 0x0, 0xFFFFFFFF⟩]⟩] ++
  [⟨0x10C0014, 0x400000, 8, 1, [⟨WKT_STEAL_CLU_COUNT, .ro, 0x0, 0xFFFFFFFF⟩]⟩] ++
  [⟨0x10C0018, 0x400000, 8, 1, [⟨WKT_STEAL_REG_COUNT, .ro, 0x0, 0xFFFFFFFF⟩]⟩]

/-- DPM_CTRL.KEY (R524). -/
def DPM_CTRL_KEY : Fld := ⟨.dpm, 0x10E0000, 0x400000, 16, 16, 0x0⟩
/-- DPM_CTRL.RESET (R524). -/
def DPM_CTRL_RESET : Fld := ⟨.dpm, 0x10E0000, 0x400000, 3, 1, 0x0⟩
/-- DPM_CTRL.AUTO_P1 (R524). -/
def DPM_CTRL_AUTO_P1 : Fld := ⟨.dpm, 0x10E0000, 0x400000, 2, 1, 0x1⟩
/-- DPM_CTRL.STATE_REQ (R524). -/
def DPM_CTRL_STATE_REQ : Fld := ⟨.dpm, 0x10E0000, 0x400000, 0, 2, 0x0⟩
/-- DPM_STATUS.STATE (R524). -/
def DPM_STATUS_STATE : Fld := ⟨.dpm, 0x10E0004, 0x400000, 8, 2, 0x0⟩
/-- DPM_STATUS.PAUSED (R524). -/
def DPM_STATUS_PAUSED : Fld := ⟨.dpm, 0x10E0004, 0x400000, 2, 1, 0x0⟩
/-- DPM_STATUS.WARN (R524). -/
def DPM_STATUS_WARN : Fld := ⟨.dpm, 0x10E0004, 0x400000, 1, 1, 0x0⟩
/-- DPM_STATUS.TRANSITION (R524). -/
def DPM_STATUS_TRANSITION : Fld := ⟨.dpm, 0x10E0004, 0x400000, 0, 1, 0x0⟩
/-- DPM_CFG.PARK_TICKS (R524). -/
def DPM_CFG_PARK_TICKS : Fld := ⟨.dpm, 0x10E0008, 0x400000, 0, 16, 0x14⟩
/-- DPM_AVS_CAS.VMAX (R524). -/
def DPM_AVS_CAS_VMAX : Fld := ⟨.dpm, 0x10E000C, 0x400000, 16, 16, 0x320⟩
/-- DPM_AVS_CAS.VMIN (R524). -/
def DPM_AVS_CAS_VMIN : Fld := ⟨.dpm, 0x10E000C, 0x400000, 0, 16, 0x28A⟩
/-- DPM_AVS_LOG.VMAX (R524). -/
def DPM_AVS_LOG_VMAX : Fld := ⟨.dpm, 0x10E0010, 0x400000, 16, 16, 0x352⟩
/-- DPM_AVS_LOG.VMIN (R524). -/
def DPM_AVS_LOG_VMIN : Fld := ⟨.dpm, 0x10E0010, 0x400000, 0, 16, 0x2BC⟩
/-- DPM_AVS_CFG.EN (R524). -/
def DPM_AVS_CFG_EN : Fld := ⟨.dpm, 0x10E0014, 0x400000, 16, 1, 0x1⟩
/-- DPM_AVS_CFG.STEP (R524). -/
def DPM_AVS_CFG_STEP : Fld := ⟨.dpm, 0x10E0014, 0x400000, 8, 8, 0x5⟩
/-- DPM_AVS_CFG.MARGIN (R524). -/
def DPM_AVS_CFG_MARGIN : Fld := ⟨.dpm, 0x10E0014, 0x400000, 0, 8, 0x14⟩
/-- DPM_VOLT.LOG (R524). -/
def DPM_VOLT_LOG : Fld := ⟨.dpm, 0x10E0018, 0x400000, 16, 16, 0x2EE⟩
/-- DPM_VOLT.CAS (R524). -/
def DPM_VOLT_CAS : Fld := ⟨.dpm, 0x10E0018, 0x400000, 0, 16, 0x2BC⟩
/-- DPM_EVENT.WARN (R524). -/
def DPM_EVENT_WARN : Fld := ⟨.dpm, 0x10E001C, 0x400000, 3, 1, 0x0⟩
/-- DPM_EVENT.PINNED (R524). -/
def DPM_EVENT_PINNED : Fld := ⟨.dpm, 0x10E001C, 0x400000, 2, 1, 0x0⟩
/-- DPM_EVENT.REFUSED (R524). -/
def DPM_EVENT_REFUSED : Fld := ⟨.dpm, 0x10E001C, 0x400000, 1, 1, 0x0⟩
/-- DPM_EVENT.STATE_CHANGE (R524). -/
def DPM_EVENT_STATE_CHANGE : Fld := ⟨.dpm, 0x10E001C, 0x400000, 0, 1, 0x0⟩
/-- DPM_PINNED.TICKS (R524). -/
def DPM_PINNED_TICKS : Fld := ⟨.dpm, 0x10E0020, 0x400000, 0, 32, 0x0⟩
/-- DPM_PAUSE_CYC.CYCLES (R524). -/
def DPM_PAUSE_CYC_CYCLES : Fld := ⟨.dpm, 0x10E0024, 0x400000, 0, 32, 0x0⟩
/-- DPM_WAKES.COUNT (R524). -/
def DPM_WAKES_COUNT : Fld := ⟨.dpm, 0x10E0028, 0x400000, 0, 32, 0x0⟩

/-- The registers of the DPM block. -/
def regsDPM : List Reg :=
  [⟨0x10E0000, 0x400000, 8, 1, [⟨DPM_CTRL_KEY, .wo, 0x0, 0xFFFF⟩, ⟨DPM_CTRL_RESET, .wo, 0x0, 0x1⟩, ⟨DPM_CTRL_AUTO_P1, .rw, 0x0, 0x1⟩, ⟨DPM_CTRL_STATE_REQ, .rw, 0x0, 0x3⟩]⟩] ++
  [⟨0x10E0004, 0x400000, 8, 1, [⟨DPM_STATUS_STATE, .ro, 0x0, 0x3⟩, ⟨DPM_STATUS_PAUSED, .ro, 0x0, 0x1⟩, ⟨DPM_STATUS_WARN, .ro, 0x0, 0x1⟩, ⟨DPM_STATUS_TRANSITION, .ro, 0x0, 0x1⟩]⟩] ++
  [⟨0x10E0008, 0x400000, 8, 1, [⟨DPM_CFG_PARK_TICKS, .rw, 0x0, 0xFFFF⟩]⟩] ++
  [⟨0x10E000C, 0x400000, 8, 1, [⟨DPM_AVS_CAS_VMAX, .rw, 0x0, 0xFFFF⟩, ⟨DPM_AVS_CAS_VMIN, .rw, 0x0, 0xFFFF⟩]⟩] ++
  [⟨0x10E0010, 0x400000, 8, 1, [⟨DPM_AVS_LOG_VMAX, .rw, 0x0, 0xFFFF⟩, ⟨DPM_AVS_LOG_VMIN, .rw, 0x0, 0xFFFF⟩]⟩] ++
  [⟨0x10E0014, 0x400000, 8, 1, [⟨DPM_AVS_CFG_EN, .rw, 0x0, 0x1⟩, ⟨DPM_AVS_CFG_STEP, .rw, 0x1, 0x5⟩, ⟨DPM_AVS_CFG_MARGIN, .rw, 0x0, 0xFF⟩]⟩] ++
  [⟨0x10E0018, 0x400000, 8, 1, [⟨DPM_VOLT_LOG, .ro, 0x0, 0xFFFF⟩, ⟨DPM_VOLT_CAS, .ro, 0x0, 0xFFFF⟩]⟩] ++
  [⟨0x10E001C, 0x400000, 8, 1, [⟨DPM_EVENT_WARN, .w1c, 0x0, 0x1⟩, ⟨DPM_EVENT_PINNED, .w1c, 0x0, 0x1⟩, ⟨DPM_EVENT_REFUSED, .w1c, 0x0, 0x1⟩, ⟨DPM_EVENT_STATE_CHANGE, .w1c, 0x0, 0x1⟩]⟩] ++
  [⟨0x10E0020, 0x400000, 8, 1, [⟨DPM_PINNED_TICKS, .ro, 0x0, 0xFFFFFFFF⟩]⟩] ++
  [⟨0x10E0024, 0x400000, 8, 1, [⟨DPM_PAUSE_CYC_CYCLES, .ro, 0x0, 0xFFFFFFFF⟩]⟩] ++
  [⟨0x10E0028, 0x400000, 8, 1, [⟨DPM_WAKES_COUNT, .ro, 0x0, 0xFFFFFFFF⟩]⟩]

end Sys2Proof.Machine
end

