-- ==== Sys2Proof/Machine/RegMapPkg.lean ====
section
/-!
DEFINITION. Sys2Proof/Machine/RegMapPkg.lean: the register fields of the package common (SYS, TIK, HRG, SEC, PWR, RAS, PMC, SVC, PTN) blocks, from the offset and field
tables of the spec (R562 gives the bases).
-/
namespace Sys2Proof.Machine

/-- SYS_IDENT.PART (R5). -/
def SYS_IDENT_PART : Fld := ⟨.sys, 0x0, 0x0, 16, 16, 0x0⟩
/-- SYS_IDENT.STEP (R5). -/
def SYS_IDENT_STEP : Fld := ⟨.sys, 0x0, 0x0, 8, 8, 0x0⟩
/-- SYS_IDENT.DIES (R5). -/
def SYS_IDENT_DIES : Fld := ⟨.sys, 0x0, 0x0, 4, 4, 0x0⟩
/-- SYS_CAPS.CHANNELS (R568). -/
def SYS_CAPS_CHANNELS : Fld := ⟨.sys, 0x4, 0x0, 16, 8, 0x10⟩
/-- SYS_CAPS.STACKS (R568). -/
def SYS_CAPS_STACKS : Fld := ⟨.sys, 0x4, 0x0, 12, 4, 0x3⟩
/-- SYS_CAPS.LANES (R568). -/
def SYS_CAPS_LANES : Fld := ⟨.sys, 0x4, 0x0, 8, 4, 0x8⟩
/-- SYS_CAPS.DIE_PRESENT (R568). -/
def SYS_CAPS_DIE_PRESENT : Fld := ⟨.sys, 0x4, 0x0, 0, 8, 0x0⟩
/-- SYS_FWVER.VERSION (R568). -/
def SYS_FWVER_VERSION : Fld := ⟨.sys, 0x8, 0x0, 0, 32, 0x0⟩
/-- SYS_RCPVER.VERSION (R568). -/
def SYS_RCPVER_VERSION : Fld := ⟨.sys, 0xC, 0x0, 0, 32, 0x0⟩
/-- SYS_STRAP.SPI_QUAD (R568). -/
def SYS_STRAP_SPI_QUAD : Fld := ⟨.sys, 0x10, 0x0, 8, 1, 0x0⟩
/-- SYS_STRAP.SMB_ADDR (R568). -/
def SYS_STRAP_SMB_ADDR : Fld := ⟨.sys, 0x10, 0x0, 0, 7, 0x0⟩
/-- SYS_EVENT.BAD_FIELD (R568). -/
def SYS_EVENT_BAD_FIELD : Fld := ⟨.sys, 0x14, 0x0, 2, 1, 0x0⟩
/-- SYS_EVENT.BAD_ACCESS (R568). -/
def SYS_EVENT_BAD_ACCESS : Fld := ⟨.sys, 0x14, 0x0, 1, 1, 0x0⟩
/-- SYS_EVENT.UNMAPPED (R568). -/
def SYS_EVENT_UNMAPPED : Fld := ⟨.sys, 0x14, 0x0, 0, 1, 0x0⟩
/-- SYS_BAD_ADDR.PORT (R568). -/
def SYS_BAD_ADDR_PORT : Fld := ⟨.sys, 0x18, 0x0, 31, 1, 0x0⟩
/-- SYS_BAD_ADDR.OFFSET (R568). -/
def SYS_BAD_ADDR_OFFSET : Fld := ⟨.sys, 0x18, 0x0, 0, 26, 0x0⟩
/-- SYS_SCRATCH.VALUE (R568). -/
def SYS_SCRATCH_VALUE : Fld := ⟨.sys, 0x20, 0x0, 0, 32, 0x0⟩

/-- The registers of the SYS block. -/
def regsSYS : List Reg :=
  [⟨0x0, 0x0, 1, 1, [⟨SYS_IDENT_PART, .ro, 0x0, 0xFFFF⟩, ⟨SYS_IDENT_STEP, .ro, 0x0, 0xFF⟩, ⟨SYS_IDENT_DIES, .ro, 0x0, 0xF⟩]⟩] ++
  [⟨0x4, 0x0, 1, 1, [⟨SYS_CAPS_CHANNELS, .ro, 0x0, 0xFF⟩, ⟨SYS_CAPS_STACKS, .ro, 0x0, 0xF⟩, ⟨SYS_CAPS_LANES, .ro, 0x0, 0xF⟩, ⟨SYS_CAPS_DIE_PRESENT, .ro, 0x0, 0xFF⟩]⟩] ++
  [⟨0x8, 0x0, 1, 1, [⟨SYS_FWVER_VERSION, .ro, 0x0, 0xFFFFFFFF⟩]⟩] ++
  [⟨0xC, 0x0, 1, 1, [⟨SYS_RCPVER_VERSION, .ro, 0x0, 0xFFFFFFFF⟩]⟩] ++
  [⟨0x10, 0x0, 1, 1, [⟨SYS_STRAP_SPI_QUAD, .ro, 0x0, 0x1⟩, ⟨SYS_STRAP_SMB_ADDR, .ro, 0x0, 0x7F⟩]⟩] ++
  [⟨0x14, 0x0, 1, 1, [⟨SYS_EVENT_BAD_FIELD, .w1c, 0x0, 0x1⟩, ⟨SYS_EVENT_BAD_ACCESS, .w1c, 0x0, 0x1⟩, ⟨SYS_EVENT_UNMAPPED, .w1c, 0x0, 0x1⟩]⟩] ++
  [⟨0x18, 0x0, 1, 1, [⟨SYS_BAD_ADDR_PORT, .ro, 0x0, 0x1⟩, ⟨SYS_BAD_ADDR_OFFSET, .ro, 0x0, 0x3FFFFFF⟩]⟩] ++
  [⟨0x20, 0x0, 1, 4, [⟨SYS_SCRATCH_VALUE, .rw, 0x0, 0xFFFFFFFF⟩]⟩]

/-- TIK_CTRL.STEP_NOW (R57). -/
def TIK_CTRL_STEP_NOW : Fld := ⟨.tik, 0x10000, 0x0, 7, 1, 0x0⟩
/-- TIK_CTRL.RUN_UNLOCKED (R57). -/
def TIK_CTRL_RUN_UNLOCKED : Fld := ⟨.tik, 0x10000, 0x0, 6, 1, 0x0⟩
/-- TIK_CTRL.SRC_DIE (R57). -/
def TIK_CTRL_SRC_DIE : Fld := ⟨.tik, 0x10000, 0x0, 3, 3, 0x0⟩
/-- TIK_CTRL.FAILOVER (R57). -/
def TIK_CTRL_FAILOVER : Fld := ⟨.tik, 0x10000, 0x0, 2, 1, 0x1⟩
/-- TIK_CTRL.DISC_EN (R57). -/
def TIK_CTRL_DISC_EN : Fld := ⟨.tik, 0x10000, 0x0, 1, 1, 0x1⟩
/-- TIK_STATUS.SRC_ACT (R57). -/
def TIK_STATUS_SRC_ACT : Fld := ⟨.tik, 0x10004, 0x0, 4, 3, 0x0⟩
/-- TIK_STATUS.STATE (R57). -/
def TIK_STATUS_STATE : Fld := ⟨.tik, 0x10004, 0x0, 0, 4, 0x0⟩
/-- TIK_TIME_NS.NS (R57). -/
def TIK_TIME_NS_NS : Fld := ⟨.tik, 0x10008, 0x0, 0, 32, 0x0⟩
/-- TIK_TIME_SEC_LO.SEC_LO (R57). -/
def TIK_TIME_SEC_LO_SEC_LO : Fld := ⟨.tik, 0x1000C, 0x0, 0, 32, 0x0⟩
/-- TIK_TIME_SEC_HI.SEC_HI (R57). -/
def TIK_TIME_SEC_HI_SEC_HI : Fld := ⟨.tik, 0x10010, 0x0, 0, 16, 0x0⟩
/-- TIK_TIME_FRAC.FRAC (R57). -/
def TIK_TIME_FRAC_FRAC : Fld := ⟨.tik, 0x10014, 0x0, 0, 16, 0x0⟩
/-- TIK_OFFSET.OFFSET (R57). -/
def TIK_OFFSET_OFFSET : Fld := ⟨.tik, 0x10018, 0x0, 0, 32, 0x0⟩
/-- TIK_SLEW.SLEW_MAX (R57). -/
def TIK_SLEW_SLEW_MAX : Fld := ⟨.tik, 0x1001C, 0x0, 0, 16, 0xC8⟩
/-- TIK_PTP_CFG.LOCK_NS (R57). -/
def TIK_PTP_CFG_LOCK_NS : Fld := ⟨.tik, 0x10020, 0x0, 16, 8, 0x64⟩
/-- TIK_PTP_CFG.TRANSPORT (R57). -/
def TIK_PTP_CFG_TRANSPORT : Fld := ⟨.tik, 0x10020, 0x0, 8, 2, 0x0⟩
/-- TIK_PTP_CFG.DOMAIN (R57). -/
def TIK_PTP_CFG_DOMAIN : Fld := ⟨.tik, 0x10020, 0x0, 0, 7, 0x0⟩
/-- TIK_HOLD_LIMIT.LIMIT (R57). -/
def TIK_HOLD_LIMIT_LIMIT : Fld := ⟨.tik, 0x10024, 0x0, 0, 32, 0x258⟩
/-- TIK_HOLD_TIME.HELD (R57). -/
def TIK_HOLD_TIME_HELD : Fld := ⟨.tik, 0x10028, 0x0, 0, 32, 0x0⟩
/-- TIK_EVENT.CFG_ERR (R57). -/
def TIK_EVENT_CFG_ERR : Fld := ⟨.tik, 0x1002C, 0x0, 5, 1, 0x0⟩
/-- TIK_EVENT.STEP_REFUSED (R57). -/
def TIK_EVENT_STEP_REFUSED : Fld := ⟨.tik, 0x1002C, 0x0, 4, 1, 0x0⟩
/-- TIK_EVENT.SRC_CHANGE (R57). -/
def TIK_EVENT_SRC_CHANGE : Fld := ⟨.tik, 0x1002C, 0x0, 3, 1, 0x0⟩
/-- TIK_EVENT.UNSYNC (R57). -/
def TIK_EVENT_UNSYNC : Fld := ⟨.tik, 0x1002C, 0x0, 2, 1, 0x0⟩
/-- TIK_EVENT.HOLDOVER (R57). -/
def TIK_EVENT_HOLDOVER : Fld := ⟨.tik, 0x1002C, 0x0, 1, 1, 0x0⟩
/-- TIK_EVENT.LOCK (R57). -/
def TIK_EVENT_LOCK : Fld := ⟨.tik, 0x1002C, 0x0, 0, 1, 0x0⟩
/-- TIK_PERIOD.EN (R57). -/
def TIK_PERIOD_EN : Fld := ⟨.tik, 0x10100, 0x40, 31, 1, 0x0⟩
/-- TIK_PERIOD.SLOTS (R57). -/
def TIK_PERIOD_SLOTS : Fld := ⟨.tik, 0x10100, 0x40, 6, 2, 0x2⟩
/-- TIK_PERIOD.N (R57). -/
def TIK_PERIOD_N : Fld := ⟨.tik, 0x10100, 0x40, 0, 6, 0x2⟩
/-- TIK_ADMIT.CUTOFF (R57). -/
def TIK_ADMIT_CUTOFF : Fld := ⟨.tik, 0x10104, 0x40, 12, 12, 0xC8⟩
/-- TIK_ADMIT.DEFER_MAX (R57). -/
def TIK_ADMIT_DEFER_MAX : Fld := ⟨.tik, 0x10104, 0x40, 8, 4, 0x2⟩
/-- TIK_ADMIT.DEBT_GAIN (R57). -/
def TIK_ADMIT_DEBT_GAIN : Fld := ⟨.tik, 0x10104, 0x40, 4, 4, 0x4⟩
/-- TIK_ADMIT.MODE (R57). -/
def TIK_ADMIT_MODE : Fld := ⟨.tik, 0x10104, 0x40, 0, 1, 0x0⟩
/-- TIK_GUARD.GUARD (R57). -/
def TIK_GUARD_GUARD : Fld := ⟨.tik, 0x10108, 0x40, 0, 24, 0x0⟩
/-- TIK_DEBT_MAX.DEBT_MAX (R57). -/
def TIK_DEBT_MAX_DEBT_MAX : Fld := ⟨.tik, 0x1010C, 0x40, 0, 24, 0x27100⟩
/-- TIK_SCALE.SCALE_MAX (R57). -/
def TIK_SCALE_SCALE_MAX : Fld := ⟨.tik, 0x10110, 0x40, 16, 16, 0x1800⟩
/-- TIK_SCALE.SCALE_MIN (R57). -/
def TIK_SCALE_SCALE_MIN : Fld := ⟨.tik, 0x10110, 0x40, 0, 16, 0xE00⟩
/-- TIK_SCALE_NOW.SCALE (R57). -/
def TIK_SCALE_NOW_SCALE : Fld := ⟨.tik, 0x10114, 0x40, 0, 16, 0x1000⟩
/-- TIK_TICK_LO.TICK_LO (R57). -/
def TIK_TICK_LO_TICK_LO : Fld := ⟨.tik, 0x10118, 0x40, 0, 32, 0x0⟩
/-- TIK_TICK_HI.TICK_HI (R57). -/
def TIK_TICK_HI_TICK_HI : Fld := ⟨.tik, 0x1011C, 0x40, 0, 32, 0x0⟩
/-- TIK_PINNED.PINNED (R57). -/
def TIK_PINNED_PINNED : Fld := ⟨.tik, 0x10120, 0x40, 0, 32, 0x0⟩
/-- TIK_DEBT.DEBT (R57). -/
def TIK_DEBT_DEBT : Fld := ⟨.tik, 0x10400, 0x20, 0, 24, 0x0⟩
/-- TIK_LATE.LATE (R57). -/
def TIK_LATE_LATE : Fld := ⟨.tik, 0x10404, 0x20, 0, 32, 0x0⟩
/-- TIK_LATE_MAX.LATE_MAX (R57). -/
def TIK_LATE_MAX_LATE_MAX : Fld := ⟨.tik, 0x10408, 0x20, 0, 32, 0x0⟩
/-- TIK_DEFER.DEFER (R57). -/
def TIK_DEFER_DEFER : Fld := ⟨.tik, 0x1040C, 0x20, 0, 32, 0x0⟩
/-- TIK_BUDGET.BUDGET (R57). -/
def TIK_BUDGET_BUDGET : Fld := ⟨.tik, 0x10410, 0x20, 0, 24, 0x0⟩

/-- The registers of the TIK block. -/
def regsTIK : List Reg :=
  [⟨0x10000, 0x0, 1, 1, [⟨TIK_CTRL_STEP_NOW, .wo, 0x0, 0x1⟩, ⟨TIK_CTRL_RUN_UNLOCKED, .rw, 0x0, 0x1⟩, ⟨TIK_CTRL_SRC_DIE, .rw, 0x0, 0x7⟩, ⟨TIK_CTRL_FAILOVER, .rw, 0x0, 0x1⟩, ⟨TIK_CTRL_DISC_EN, .rw, 0x0, 0x1⟩]⟩] ++
  [⟨0x10004, 0x0, 1, 1, [⟨TIK_STATUS_SRC_ACT, .ro, 0x0, 0x7⟩, ⟨TIK_STATUS_STATE, .ro, 0x0, 0xF⟩]⟩] ++
  [⟨0x10008, 0x0, 1, 1, [⟨TIK_TIME_NS_NS, .ro, 0x0, 0xFFFFFFFF⟩]⟩] ++
  [⟨0x1000C, 0x0, 1, 1, [⟨TIK_TIME_SEC_LO_SEC_LO, .ro, 0x0, 0xFFFFFFFF⟩]⟩] ++
  [⟨0x10010, 0x0, 1, 1, [⟨TIK_TIME_SEC_HI_SEC_HI, .ro, 0x0, 0xFFFF⟩]⟩] ++
  [⟨0x10014, 0x0, 1, 1, [⟨TIK_TIME_FRAC_FRAC, .ro, 0x0, 0xFFFF⟩]⟩] ++
  [⟨0x10018, 0x0, 1, 1, [⟨TIK_OFFSET_OFFSET, .ro, 0x0, 0xFFFFFFFF⟩]⟩] ++
  [⟨0x1001C, 0x0, 1, 1, [⟨TIK_SLEW_SLEW_MAX, .rw, 0x1, 0x1F4⟩]⟩] ++
  [⟨0x10020, 0x0, 1, 1, [⟨TIK_PTP_CFG_LOCK_NS, .rw, 0x0, 0xFF⟩, ⟨TIK_PTP_CFG_TRANSPORT, .rw, 0x0, 0x2⟩, ⟨TIK_PTP_CFG_DOMAIN, .rw, 0x0, 0x7F⟩]⟩] ++
  [⟨0x10024, 0x0, 1, 1, [⟨TIK_HOLD_LIMIT_LIMIT, .rw, 0x0, 0xFFFFFFFF⟩]⟩] ++
  [⟨0x10028, 0x0, 1, 1, [⟨TIK_HOLD_TIME_HELD, .ro, 0x0, 0xFFFFFFFF⟩]⟩] ++
  [⟨0x1002C, 0x0, 1, 1, [⟨TIK_EVENT_CFG_ERR, .w1c, 0x0, 0x1⟩, ⟨TIK_EVENT_STEP_REFUSED, .w1c, 0x0, 0x1⟩, ⟨TIK_EVENT_SRC_CHANGE, .w1c, 0x0, 0x1⟩, ⟨TIK_EVENT_UNSYNC, .w1c, 0x0, 0x1⟩, ⟨TIK_EVENT_HOLDOVER, .w1c, 0x0, 0x1⟩, ⟨TIK_EVENT_LOCK, .w1c, 0x0, 0x1⟩]⟩] ++
  [⟨0x10100, 0x40, 8, 1, [⟨TIK_PERIOD_EN, .rw, 0x0, 0x1⟩, ⟨TIK_PERIOD_SLOTS, .rwl, 0x0, 0x3⟩, ⟨TIK_PERIOD_N, .rwl, 0x1, 0x28⟩]⟩] ++
  [⟨0x10104, 0x40, 8, 1, [⟨TIK_ADMIT_CUTOFF, .rw, 0x32, 0x1F4⟩, ⟨TIK_ADMIT_DEFER_MAX, .rw, 0x0, 0xF⟩, ⟨TIK_ADMIT_DEBT_GAIN, .rw, 0x0, 0xF⟩, ⟨TIK_ADMIT_MODE, .rw, 0x0, 0x1⟩]⟩] ++
  [⟨0x10108, 0x40, 8, 1, [⟨TIK_GUARD_GUARD, .rw, 0x0, 0xFFFFFF⟩]⟩] ++
  [⟨0x1010C, 0x40, 8, 1, [⟨TIK_DEBT_MAX_DEBT_MAX, .rw, 0x0, 0xFFFFFF⟩]⟩] ++
  [⟨0x10110, 0x40, 8, 1, [⟨TIK_SCALE_SCALE_MAX, .rw, 0x0, 0xFFFF⟩, ⟨TIK_SCALE_SCALE_MIN, .rw, 0x0, 0xFFFF⟩]⟩] ++
  [⟨0x10114, 0x40, 8, 1, [⟨TIK_SCALE_NOW_SCALE, .ro, 0x0, 0xFFFF⟩]⟩] ++
  [⟨0x10118, 0x40, 8, 1, [⟨TIK_TICK_LO_TICK_LO, .ro, 0x0, 0xFFFFFFFF⟩]⟩] ++
  [⟨0x1011C, 0x40, 8, 1, [⟨TIK_TICK_HI_TICK_HI, .ro, 0x0, 0xFFFFFFFF⟩]⟩] ++
  [⟨0x10120, 0x40, 8, 1, [⟨TIK_PINNED_PINNED, .ro, 0x0, 0xFFFFFFFF⟩]⟩] ++
  [⟨0x10400, 0x20, 8, 1, [⟨TIK_DEBT_DEBT, .ro, 0x0, 0xFFFFFF⟩]⟩] ++
  [⟨0x10404, 0x20, 8, 1, [⟨TIK_LATE_LATE, .ro, 0x0, 0xFFFFFFFF⟩]⟩] ++
  [⟨0x10408, 0x20, 8, 1, [⟨TIK_LATE_MAX_LATE_MAX, .ro, 0x0, 0xFFFFFFFF⟩]⟩] ++
  [⟨0x1040C, 0x20, 8, 1, [⟨TIK_DEFER_DEFER, .ro, 0x0, 0xFFFFFFFF⟩]⟩] ++
  [⟨0x10410, 0x20, 8, 1, [⟨TIK_BUDGET_BUDGET, .ro, 0x0, 0xFFFFFF⟩]⟩]

/-- HRG_PORT_A.VFS (R348). -/
def HRG_PORT_A_VFS : Fld := ⟨.hrg, 0x20000, 0x0, 16, 4, 0x0⟩
/-- HRG_PORT_A.FLIT (R348). -/
def HRG_PORT_A_FLIT : Fld := ⟨.hrg, 0x20000, 0x0, 12, 1, 0x0⟩
/-- HRG_PORT_A.WIDTH (R348). -/
def HRG_PORT_A_WIDTH : Fld := ⟨.hrg, 0x20000, 0x0, 8, 4, 0x0⟩
/-- HRG_PORT_A.RATE (R348). -/
def HRG_PORT_A_RATE : Fld := ⟨.hrg, 0x20000, 0x0, 4, 4, 0x0⟩
/-- HRG_PORT_A.UP (R348). -/
def HRG_PORT_A_UP : Fld := ⟨.hrg, 0x20000, 0x0, 0, 1, 0x0⟩
/-- HRG_PORT_B.VFS (R348). -/
def HRG_PORT_B_VFS : Fld := ⟨.hrg, 0x20004, 0x0, 16, 4, 0x0⟩
/-- HRG_PORT_B.FLIT (R348). -/
def HRG_PORT_B_FLIT : Fld := ⟨.hrg, 0x20004, 0x0, 12, 1, 0x0⟩
/-- HRG_PORT_B.WIDTH (R348). -/
def HRG_PORT_B_WIDTH : Fld := ⟨.hrg, 0x20004, 0x0, 8, 4, 0x0⟩
/-- HRG_PORT_B.RATE (R348). -/
def HRG_PORT_B_RATE : Fld := ⟨.hrg, 0x20004, 0x0, 4, 4, 0x0⟩
/-- HRG_PORT_B.UP (R348). -/
def HRG_PORT_B_UP : Fld := ⟨.hrg, 0x20004, 0x0, 0, 1, 0x0⟩
/-- HRG_EVENT.B_AER (R348). -/
def HRG_EVENT_B_AER : Fld := ⟨.hrg, 0x20008, 0x0, 5, 1, 0x0⟩
/-- HRG_EVENT.A_AER (R348). -/
def HRG_EVENT_A_AER : Fld := ⟨.hrg, 0x20008, 0x0, 4, 1, 0x0⟩
/-- HRG_EVENT.B_UP (R348). -/
def HRG_EVENT_B_UP : Fld := ⟨.hrg, 0x20008, 0x0, 3, 1, 0x0⟩
/-- HRG_EVENT.B_DOWN (R348). -/
def HRG_EVENT_B_DOWN : Fld := ⟨.hrg, 0x20008, 0x0, 2, 1, 0x0⟩
/-- HRG_EVENT.A_UP (R348). -/
def HRG_EVENT_A_UP : Fld := ⟨.hrg, 0x20008, 0x0, 1, 1, 0x0⟩
/-- HRG_EVENT.A_DOWN (R348). -/
def HRG_EVENT_A_DOWN : Fld := ⟨.hrg, 0x20008, 0x0, 0, 1, 0x0⟩
/-- HRG_ASQ_LO.BASE_LO (R348). -/
def HRG_ASQ_LO_BASE_LO : Fld := ⟨.hrg, 0x20100, 0x40, 12, 20, 0x0⟩
/-- HRG_ASQ_HI.BASE_HI (R348). -/
def HRG_ASQ_HI_BASE_HI : Fld := ⟨.hrg, 0x20104, 0x40, 0, 32, 0x0⟩
/-- HRG_ACQ_LO.BASE_LO (R348). -/
def HRG_ACQ_LO_BASE_LO : Fld := ⟨.hrg, 0x20108, 0x40, 12, 20, 0x0⟩
/-- HRG_ACQ_HI.BASE_HI (R348). -/
def HRG_ACQ_HI_BASE_HI : Fld := ⟨.hrg, 0x2010C, 0x40, 0, 32, 0x0⟩
/-- HRG_ASIZE.ACQ_VEC (R348). -/
def HRG_ASIZE_ACQ_VEC : Fld := ⟨.hrg, 0x20110, 0x40, 16, 8, 0x0⟩
/-- HRG_ASIZE.ACQ_LOG2 (R348). -/
def HRG_ASIZE_ACQ_LOG2 : Fld := ⟨.hrg, 0x20110, 0x40, 8, 5, 0x6⟩
/-- HRG_ASIZE.ASQ_LOG2 (R348). -/
def HRG_ASIZE_ASQ_LOG2 : Fld := ⟨.hrg, 0x20110, 0x40, 0, 5, 0x6⟩
/-- HRG_CTRL.EN (R348). -/
def HRG_CTRL_EN : Fld := ⟨.hrg, 0x20114, 0x40, 0, 1, 0x0⟩
/-- HRG_STATUS.CAUSE (R348). -/
def HRG_STATUS_CAUSE : Fld := ⟨.hrg, 0x20118, 0x40, 4, 4, 0x0⟩
/-- HRG_STATUS.STOPPED (R348). -/
def HRG_STATUS_STOPPED : Fld := ⟨.hrg, 0x20118, 0x40, 1, 1, 0x0⟩
/-- HRG_STATUS.READY (R348). -/
def HRG_STATUS_READY : Fld := ⟨.hrg, 0x20118, 0x40, 0, 1, 0x0⟩
/-- HRG_FEVENT.CFG_ERR (R348). -/
def HRG_FEVENT_CFG_ERR : Fld := ⟨.hrg, 0x2011C, 0x40, 4, 1, 0x0⟩
/-- HRG_FEVENT.VIOLATION (R348). -/
def HRG_FEVENT_VIOLATION : Fld := ⟨.hrg, 0x2011C, 0x40, 3, 1, 0x0⟩
/-- HRG_FEVENT.DROPPED (R348). -/
def HRG_FEVENT_DROPPED : Fld := ⟨.hrg, 0x2011C, 0x40, 2, 1, 0x0⟩
/-- HRG_FEVENT.EVT_LOST (R348). -/
def HRG_FEVENT_EVT_LOST : Fld := ⟨.hrg, 0x2011C, 0x40, 1, 1, 0x0⟩
/-- HRG_FEVENT.DB_ERR (R348). -/
def HRG_FEVENT_DB_ERR : Fld := ⟨.hrg, 0x2011C, 0x40, 0, 1, 0x0⟩
/-- HRG_DROPPED.COUNT (R348). -/
def HRG_DROPPED_COUNT : Fld := ⟨.hrg, 0x20120, 0x40, 0, 32, 0x0⟩
/-- HRG_EVT_LOST.COUNT (R348). -/
def HRG_EVT_LOST_COUNT : Fld := ⟨.hrg, 0x20124, 0x40, 0, 32, 0x0⟩
/-- HRG_OUTSTANDING.COUNT (R348). -/
def HRG_OUTSTANDING_COUNT : Fld := ⟨.hrg, 0x20128, 0x40, 0, 32, 0x0⟩
/-- HRG_DB_ERRS.COUNT (R348). -/
def HRG_DB_ERRS_COUNT : Fld := ⟨.hrg, 0x2012C, 0x40, 0, 32, 0x0⟩
/-- HRG_VIOLATIONS.COUNT (R348). -/
def HRG_VIOLATIONS_COUNT : Fld := ⟨.hrg, 0x20130, 0x40, 0, 32, 0x0⟩
/-- HRG_EVT_SEQ.NEXT (R348). -/
def HRG_EVT_SEQ_NEXT : Fld := ⟨.hrg, 0x20134, 0x40, 0, 16, 0x0⟩

/-- The registers of the HRG block. -/
def regsHRG : List Reg :=
  [⟨0x20000, 0x0, 1, 1, [⟨HRG_PORT_A_VFS, .ro, 0x0, 0xF⟩, ⟨HRG_PORT_A_FLIT, .ro, 0x0, 0x1⟩, ⟨HRG_PORT_A_WIDTH, .ro, 0x0, 0xF⟩, ⟨HRG_PORT_A_RATE, .ro, 0x0, 0xF⟩, ⟨HRG_PORT_A_UP, .ro, 0x0, 0x1⟩]⟩] ++
  [⟨0x20004, 0x0, 1, 1, [⟨HRG_PORT_B_VFS, .ro, 0x0, 0xF⟩, ⟨HRG_PORT_B_FLIT, .ro, 0x0, 0x1⟩, ⟨HRG_PORT_B_WIDTH, .ro, 0x0, 0xF⟩, ⟨HRG_PORT_B_RATE, .ro, 0x0, 0xF⟩, ⟨HRG_PORT_B_UP, .ro, 0x0, 0x1⟩]⟩] ++
  [⟨0x20008, 0x0, 1, 1, [⟨HRG_EVENT_B_AER, .w1c, 0x0, 0x1⟩, ⟨HRG_EVENT_A_AER, .w1c, 0x0, 0x1⟩, ⟨HRG_EVENT_B_UP, .w1c, 0x0, 0x1⟩, ⟨HRG_EVENT_B_DOWN, .w1c, 0x0, 0x1⟩, ⟨HRG_EVENT_A_UP, .w1c, 0x0, 0x1⟩, ⟨HRG_EVENT_A_DOWN, .w1c, 0x0, 0x1⟩]⟩] ++
  [⟨0x20100, 0x40, 16, 1, [⟨HRG_ASQ_LO_BASE_LO, .rw, 0x0, 0xFFFFF⟩]⟩] ++
  [⟨0x20104, 0x40, 16, 1, [⟨HRG_ASQ_HI_BASE_HI, .rw, 0x0, 0xFFFFFFFF⟩]⟩] ++
  [⟨0x20108, 0x40, 16, 1, [⟨HRG_ACQ_LO_BASE_LO, .rw, 0x0, 0xFFFFF⟩]⟩] ++
  [⟨0x2010C, 0x40, 16, 1, [⟨HRG_ACQ_HI_BASE_HI, .rw, 0x0, 0xFFFFFFFF⟩]⟩] ++
  [⟨0x20110, 0x40, 16, 1, [⟨HRG_ASIZE_ACQ_VEC, .rw, 0x0, 0x7F⟩, ⟨HRG_ASIZE_ACQ_LOG2, .rw, 0x6, 0x10⟩, ⟨HRG_ASIZE_ASQ_LOG2, .rw, 0x6, 0x10⟩]⟩] ++
  [⟨0x20114, 0x40, 16, 1, [⟨HRG_CTRL_EN, .rw, 0x0, 0x1⟩]⟩] ++
  [⟨0x20118, 0x40, 16, 1, [⟨HRG_STATUS_CAUSE, .ro, 0x0, 0xF⟩, ⟨HRG_STATUS_STOPPED, .ro, 0x0, 0x1⟩, ⟨HRG_STATUS_READY, .ro, 0x0, 0x1⟩]⟩] ++
  [⟨0x2011C, 0x40, 16, 1, [⟨HRG_FEVENT_CFG_ERR, .w1c, 0x0, 0x1⟩, ⟨HRG_FEVENT_VIOLATION, .w1c, 0x0, 0x1⟩, ⟨HRG_FEVENT_DROPPED, .w1c, 0x0, 0x1⟩, ⟨HRG_FEVENT_EVT_LOST, .w1c, 0x0, 0x1⟩, ⟨HRG_FEVENT_DB_ERR, .w1c, 0x0, 0x1⟩]⟩] ++
  [⟨0x20120, 0x40, 16, 1, [⟨HRG_DROPPED_COUNT, .ro, 0x0, 0xFFFFFFFF⟩]⟩] ++
  [⟨0x20124, 0x40, 16, 1, [⟨HRG_EVT_LOST_COUNT, .ro, 0x0, 0xFFFFFFFF⟩]⟩] ++
  [⟨0x20128, 0x40, 16, 1, [⟨HRG_OUTSTANDING_COUNT, .ro, 0x0, 0xFFFFFFFF⟩]⟩] ++
  [⟨0x2012C, 0x40, 16, 1, [⟨HRG_DB_ERRS_COUNT, .ro, 0x0, 0xFFFFFFFF⟩]⟩] ++
  [⟨0x20130, 0x40, 16, 1, [⟨HRG_VIOLATIONS_COUNT, .ro, 0x0, 0xFFFFFFFF⟩]⟩] ++
  [⟨0x20134, 0x40, 16, 1, [⟨HRG_EVT_SEQ_NEXT, .ro, 0x0, 0xFFFF⟩]⟩]

/-- SEC_CTRL.SELFTEST_NOW (R459). -/
def SEC_CTRL_SELFTEST_NOW : Fld := ⟨.sec, 0x40000, 0x0, 0, 1, 0x0⟩
/-- SEC_STATUS.BOOT_SLOT (R459). -/
def SEC_STATUS_BOOT_SLOT : Fld := ⟨.sec, 0x40004, 0x0, 6, 1, 0x0⟩
/-- SEC_STATUS.MODE_PENDING (R459). -/
def SEC_STATUS_MODE_PENDING : Fld := ⟨.sec, 0x40004, 0x0, 5, 1, 0x0⟩
/-- SEC_STATUS.OWNER_SET (R459). -/
def SEC_STATUS_OWNER_SET : Fld := ⟨.sec, 0x40004, 0x0, 4, 1, 0x0⟩
/-- SEC_STATUS.DEBUG_SEALED (R459). -/
def SEC_STATUS_DEBUG_SEALED : Fld := ⟨.sec, 0x40004, 0x0, 3, 1, 0x0⟩
/-- SEC_STATUS.ERROR (R459). -/
def SEC_STATUS_ERROR : Fld := ⟨.sec, 0x40004, 0x0, 2, 1, 0x0⟩
/-- SEC_STATUS.APPROVED (R459). -/
def SEC_STATUS_APPROVED : Fld := ⟨.sec, 0x40004, 0x0, 1, 1, 0x0⟩
/-- SEC_STATUS.READY (R459). -/
def SEC_STATUS_READY : Fld := ⟨.sec, 0x40004, 0x0, 0, 1, 0x0⟩
/-- SEC_EVENT.ZEROIZED (R459). -/
def SEC_EVENT_ZEROIZED : Fld := ⟨.sec, 0x40008, 0x0, 6, 1, 0x0⟩
/-- SEC_EVENT.MBOX_DONE (R459). -/
def SEC_EVENT_MBOX_DONE : Fld := ⟨.sec, 0x40008, 0x0, 5, 1, 0x0⟩
/-- SEC_EVENT.FW_STAGED (R459). -/
def SEC_EVENT_FW_STAGED : Fld := ⟨.sec, 0x40008, 0x0, 4, 1, 0x0⟩
/-- SEC_EVENT.PHYS_ERASED (R459). -/
def SEC_EVENT_PHYS_ERASED : Fld := ⟨.sec, 0x40008, 0x0, 3, 1, 0x0⟩
/-- SEC_EVENT.REMOVED (R459). -/
def SEC_EVENT_REMOVED : Fld := ⟨.sec, 0x40008, 0x0, 2, 1, 0x0⟩
/-- SEC_EVENT.AUTH_FAIL (R459). -/
def SEC_EVENT_AUTH_FAIL : Fld := ⟨.sec, 0x40008, 0x0, 1, 1, 0x0⟩
/-- SEC_EVENT.SELFTEST_FAIL (R459). -/
def SEC_EVENT_SELFTEST_FAIL : Fld := ⟨.sec, 0x40008, 0x0, 0, 1, 0x0⟩
/-- SEC_SELFTEST.RUNS (R459). -/
def SEC_SELFTEST_RUNS : Fld := ⟨.sec, 0x4000C, 0x0, 16, 16, 0x0⟩
/-- SEC_SELFTEST.FAIL_CODE (R459). -/
def SEC_SELFTEST_FAIL_CODE : Fld := ⟨.sec, 0x4000C, 0x0, 0, 8, 0x0⟩
/-- SEC_FUSE.VENDOR_REVOKED (R459). -/
def SEC_FUSE_VENDOR_REVOKED : Fld := ⟨.sec, 0x40010, 0x0, 4, 4, 0x0⟩
/-- SEC_FUSE.OWNER (R459). -/
def SEC_FUSE_OWNER : Fld := ⟨.sec, 0x40010, 0x0, 2, 2, 0x0⟩
/-- SEC_FUSE.DEBUG_SEAL (R459). -/
def SEC_FUSE_DEBUG_SEAL : Fld := ⟨.sec, 0x40010, 0x0, 0, 1, 0x0⟩
/-- SEC_SVN.SVN_MIN (R459). -/
def SEC_SVN_SVN_MIN : Fld := ⟨.sec, 0x40014, 0x0, 16, 16, 0x0⟩
/-- SEC_SVN.SVN_RUN (R459). -/
def SEC_SVN_SVN_RUN : Fld := ⟨.sec, 0x40014, 0x0, 0, 16, 0x0⟩
/-- SEC_MBOX_ADDR_LO.ADDR_LO (R459). -/
def SEC_MBOX_ADDR_LO_ADDR_LO : Fld := ⟨.sec, 0x40018, 0x0, 6, 26, 0x0⟩
/-- SEC_MBOX_ADDR_HI.ADDR_HI (R459). -/
def SEC_MBOX_ADDR_HI_ADDR_HI : Fld := ⟨.sec, 0x4001C, 0x0, 0, 32, 0x0⟩
/-- SEC_MBOX_LEN.BYTES (R459). -/
def SEC_MBOX_LEN_BYTES : Fld := ⟨.sec, 0x40020, 0x0, 0, 25, 0x0⟩
/-- SEC_MBOX_CMD.GO (R459). -/
def SEC_MBOX_CMD_GO : Fld := ⟨.sec, 0x40024, 0x0, 0, 1, 0x0⟩
/-- SEC_MBOX_STATUS.STATUS (R459). -/
def SEC_MBOX_STATUS_STATUS : Fld := ⟨.sec, 0x40028, 0x0, 8, 8, 0x0⟩
/-- SEC_MBOX_STATUS.DONE (R459). -/
def SEC_MBOX_STATUS_DONE : Fld := ⟨.sec, 0x40028, 0x0, 1, 1, 0x0⟩
/-- SEC_MBOX_STATUS.BUSY (R459). -/
def SEC_MBOX_STATUS_BUSY : Fld := ⟨.sec, 0x40028, 0x0, 0, 1, 0x0⟩
/-- SEC_RM_STATUS.ERASE_PENDING (R459). -/
def SEC_RM_STATUS_ERASE_PENDING : Fld := ⟨.sec, 0x4002C, 0x0, 8, 8, 0x0⟩
/-- SEC_RM_STATUS.REMOVING (R459). -/
def SEC_RM_STATUS_REMOVING : Fld := ⟨.sec, 0x4002C, 0x0, 0, 8, 0x0⟩
/-- SEC_SERIAL.SERIAL (R459). -/
def SEC_SERIAL_SERIAL : Fld := ⟨.sec, 0x40030, 0x0, 0, 32, 0x0⟩
/-- SEC_SCRUBS.COUNT (R459). -/
def SEC_SCRUBS_COUNT : Fld := ⟨.sec, 0x40040, 0x0, 0, 32, 0x0⟩
/-- SEC_AUTH_FAILS.COUNT (R459). -/
def SEC_AUTH_FAILS_COUNT : Fld := ⟨.sec, 0x40060, 0x0, 0, 32, 0x0⟩
/-- SEC_BUNDLES.COUNT (R459). -/
def SEC_BUNDLES_COUNT : Fld := ⟨.sec, 0x40064, 0x0, 0, 32, 0x0⟩
/-- SEC_ATTESTS.COUNT (R459). -/
def SEC_ATTESTS_COUNT : Fld := ⟨.sec, 0x40068, 0x0, 0, 32, 0x0⟩

/-- The registers of the SEC block. -/
def regsSEC : List Reg :=
  [⟨0x40000, 0x0, 1, 1, [⟨SEC_CTRL_SELFTEST_NOW, .wo, 0x0, 0x1⟩]⟩] ++
  [⟨0x40004, 0x0, 1, 1, [⟨SEC_STATUS_BOOT_SLOT, .ro, 0x0, 0x1⟩, ⟨SEC_STATUS_MODE_PENDING, .ro, 0x0, 0x1⟩, ⟨SEC_STATUS_OWNER_SET, .ro, 0x0, 0x1⟩, ⟨SEC_STATUS_DEBUG_SEALED, .ro, 0x0, 0x1⟩, ⟨SEC_STATUS_ERROR, .ro, 0x0, 0x1⟩, ⟨SEC_STATUS_APPROVED, .ro, 0x0, 0x1⟩, ⟨SEC_STATUS_READY, .ro, 0x0, 0x1⟩]⟩] ++
  [⟨0x40008, 0x0, 1, 1, [⟨SEC_EVENT_ZEROIZED, .w1c, 0x0, 0x1⟩, ⟨SEC_EVENT_MBOX_DONE, .w1c, 0x0, 0x1⟩, ⟨SEC_EVENT_FW_STAGED, .w1c, 0x0, 0x1⟩, ⟨SEC_EVENT_PHYS_ERASED, .w1c, 0x0, 0x1⟩, ⟨SEC_EVENT_REMOVED, .w1c, 0x0, 0x1⟩, ⟨SEC_EVENT_AUTH_FAIL, .w1c, 0x0, 0x1⟩, ⟨SEC_EVENT_SELFTEST_FAIL, .w1c, 0x0, 0x1⟩]⟩] ++
  [⟨0x4000C, 0x0, 1, 1, [⟨SEC_SELFTEST_RUNS, .ro, 0x0, 0xFFFF⟩, ⟨SEC_SELFTEST_FAIL_CODE, .ro, 0x0, 0xFF⟩]⟩] ++
  [⟨0x40010, 0x0, 1, 1, [⟨SEC_FUSE_VENDOR_REVOKED, .ro, 0x0, 0xF⟩, ⟨SEC_FUSE_OWNER, .ro, 0x0, 0x3⟩, ⟨SEC_FUSE_DEBUG_SEAL, .ro, 0x0, 0x1⟩]⟩] ++
  [⟨0x40014, 0x0, 1, 1, [⟨SEC_SVN_SVN_MIN, .ro, 0x0, 0xFFFF⟩, ⟨SEC_SVN_SVN_RUN, .ro, 0x0, 0xFFFF⟩]⟩] ++
  [⟨0x40018, 0x0, 1, 1, [⟨SEC_MBOX_ADDR_LO_ADDR_LO, .rw, 0x0, 0x3FFFFFF⟩]⟩] ++
  [⟨0x4001C, 0x0, 1, 1, [⟨SEC_MBOX_ADDR_HI_ADDR_HI, .rw, 0x0, 0xFFFFFFFF⟩]⟩] ++
  [⟨0x40020, 0x0, 1, 1, [⟨SEC_MBOX_LEN_BYTES, .rw, 0x0, 0x1FFFFFF⟩]⟩] ++
  [⟨0x40024, 0x0, 1, 1, [⟨SEC_MBOX_CMD_GO, .wo, 0x0, 0x1⟩]⟩] ++
  [⟨0x40028, 0x0, 1, 1, [⟨SEC_MBOX_STATUS_STATUS, .ro, 0x0, 0xFF⟩, ⟨SEC_MBOX_STATUS_DONE, .ro, 0x0, 0x1⟩, ⟨SEC_MBOX_STATUS_BUSY, .ro, 0x0, 0x1⟩]⟩] ++
  [⟨0x4002C, 0x0, 1, 1, [⟨SEC_RM_STATUS_ERASE_PENDING, .ro, 0x0, 0xFF⟩, ⟨SEC_RM_STATUS_REMOVING, .ro, 0x0, 0xFF⟩]⟩] ++
  [⟨0x40030, 0x0, 1, 4, [⟨SEC_SERIAL_SERIAL, .ro, 0x0, 0xFFFFFFFF⟩]⟩] ++
  [⟨0x40040, 0x0, 1, 8, [⟨SEC_SCRUBS_COUNT, .ro, 0x0, 0xFFFFFFFF⟩]⟩] ++
  [⟨0x40060, 0x0, 1, 1, [⟨SEC_AUTH_FAILS_COUNT, .ro, 0x0, 0xFFFFFFFF⟩]⟩] ++
  [⟨0x40064, 0x0, 1, 1, [⟨SEC_BUNDLES_COUNT, .ro, 0x0, 0xFFFFFFFF⟩]⟩] ++
  [⟨0x40068, 0x0, 1, 1, [⟨SEC_ATTESTS_COUNT, .ro, 0x0, 0xFFFFFFFF⟩]⟩]

/-- PWR_CTRL.KEY (R523). -/
def PWR_CTRL_KEY : Fld := ⟨.pwr, 0x60000, 0x0, 16, 16, 0x0⟩
/-- PWR_CTRL.MIN_CLR (R523). -/
def PWR_CTRL_MIN_CLR : Fld := ⟨.pwr, 0x60000, 0x0, 2, 1, 0x0⟩
/-- PWR_CTRL.WARM (R523). -/
def PWR_CTRL_WARM : Fld := ⟨.pwr, 0x60000, 0x0, 1, 1, 0x0⟩
/-- PWR_CTRL.COLD (R523). -/
def PWR_CTRL_COLD : Fld := ⟨.pwr, 0x60000, 0x0, 0, 1, 0x0⟩
/-- PWR_STATUS.LAST_RESET (R523). -/
def PWR_STATUS_LAST_RESET : Fld := ⟨.pwr, 0x60004, 0x0, 8, 4, 0x1⟩
/-- PWR_STATUS.PWR_LOSS (R523). -/
def PWR_STATUS_PWR_LOSS : Fld := ⟨.pwr, 0x60004, 0x0, 2, 1, 0x0⟩
/-- PWR_STATUS.WARN_ANY (R523). -/
def PWR_STATUS_WARN_ANY : Fld := ⟨.pwr, 0x60004, 0x0, 1, 1, 0x0⟩
/-- PWR_STATUS.READY (R523). -/
def PWR_STATUS_READY : Fld := ⟨.pwr, 0x60004, 0x0, 0, 1, 0x0⟩
/-- PWR_EVENT.RESTORE_FREED (R523). -/
def PWR_EVENT_RESTORE_FREED : Fld := ⟨.pwr, 0x60008, 0x0, 3, 1, 0x0⟩
/-- PWR_EVENT.PWR_LOSS (R523). -/
def PWR_EVENT_PWR_LOSS : Fld := ⟨.pwr, 0x60008, 0x0, 2, 1, 0x0⟩
/-- PWR_EVENT.SUPPLY_RESET (R523). -/
def PWR_EVENT_SUPPLY_RESET : Fld := ⟨.pwr, 0x60008, 0x0, 1, 1, 0x0⟩
/-- PWR_EVENT.DIP (R523). -/
def PWR_EVENT_DIP : Fld := ⟨.pwr, 0x60008, 0x0, 0, 1, 0x0⟩
/-- PWR_SEL.DOMAIN (R523). -/
def PWR_SEL_DOMAIN : Fld := ⟨.pwr, 0x6000C, 0x0, 0, 6, 0x0⟩
/-- PWR_MON.SETPOINT (R523). -/
def PWR_MON_SETPOINT : Fld := ⟨.pwr, 0x60010, 0x0, 16, 16, 0x0⟩
/-- PWR_MON.NOW (R523). -/
def PWR_MON_NOW : Fld := ⟨.pwr, 0x60010, 0x0, 0, 16, 0x0⟩
/-- PWR_MIN.WARN (R523). -/
def PWR_MIN_WARN : Fld := ⟨.pwr, 0x60014, 0x0, 16, 1, 0x0⟩
/-- PWR_MIN.MIN (R523). -/
def PWR_MIN_MIN : Fld := ⟨.pwr, 0x60014, 0x0, 0, 16, 0xFFFF⟩
/-- PWR_DIP.DURATION (R523). -/
def PWR_DIP_DURATION : Fld := ⟨.pwr, 0x60018, 0x0, 16, 16, 0x0⟩
/-- PWR_DIP.MIN (R523). -/
def PWR_DIP_MIN : Fld := ⟨.pwr, 0x60018, 0x0, 0, 16, 0x0⟩
/-- PWR_DIPS.COUNT (R523). -/
def PWR_DIPS_COUNT : Fld := ⟨.pwr, 0x6001C, 0x0, 0, 32, 0x0⟩
/-- PWR_SUPPLY_RESETS.COUNT (R523). -/
def PWR_SUPPLY_RESETS_COUNT : Fld := ⟨.pwr, 0x60020, 0x0, 0, 32, 0x0⟩
/-- PWR_RESTORE_FREED.COUNT (R523). -/
def PWR_RESTORE_FREED_COUNT : Fld := ⟨.pwr, 0x60024, 0x0, 0, 32, 0x0⟩

/-- The registers of the PWR block. -/
def regsPWR : List Reg :=
  [⟨0x60000, 0x0, 1, 1, [⟨PWR_CTRL_KEY, .wo, 0x0, 0xFFFF⟩, ⟨PWR_CTRL_MIN_CLR, .wo, 0x0, 0x1⟩, ⟨PWR_CTRL_WARM, .wo, 0x0, 0x1⟩, ⟨PWR_CTRL_COLD, .wo, 0x0, 0x1⟩]⟩] ++
  [⟨0x60004, 0x0, 1, 1, [⟨PWR_STATUS_LAST_RESET, .ro, 0x0, 0xF⟩, ⟨PWR_STATUS_PWR_LOSS, .ro, 0x0, 0x1⟩, ⟨PWR_STATUS_WARN_ANY, .ro, 0x0, 0x1⟩, ⟨PWR_STATUS_READY, .ro, 0x0, 0x1⟩]⟩] ++
  [⟨0x60008, 0x0, 1, 1, [⟨PWR_EVENT_RESTORE_FREED, .w1c, 0x0, 0x1⟩, ⟨PWR_EVENT_PWR_LOSS, .w1c, 0x0, 0x1⟩, ⟨PWR_EVENT_SUPPLY_RESET, .w1c, 0x0, 0x1⟩, ⟨PWR_EVENT_DIP, .w1c, 0x0, 0x1⟩]⟩] ++
  [⟨0x6000C, 0x0, 1, 1, [⟨PWR_SEL_DOMAIN, .rw, 0x0, 0x3F⟩]⟩] ++
  [⟨0x60010, 0x0, 1, 1, [⟨PWR_MON_SETPOINT, .ro, 0x0, 0xFFFF⟩, ⟨PWR_MON_NOW, .ro, 0x0, 0xFFFF⟩]⟩] ++
  [⟨0x60014, 0x0, 1, 1, [⟨PWR_MIN_WARN, .ro, 0x0, 0x1⟩, ⟨PWR_MIN_MIN, .ro, 0x0, 0xFFFF⟩]⟩] ++
  [⟨0x60018, 0x0, 1, 1, [⟨PWR_DIP_DURATION, .ro, 0x0, 0xFFFF⟩, ⟨PWR_DIP_MIN, .ro, 0x0, 0xFFFF⟩]⟩] ++
  [⟨0x6001C, 0x0, 1, 1, [⟨PWR_DIPS_COUNT, .ro, 0x0, 0xFFFFFFFF⟩]⟩] ++
  [⟨0x60020, 0x0, 1, 1, [⟨PWR_SUPPLY_RESETS_COUNT, .ro, 0x0, 0xFFFFFFFF⟩]⟩] ++
  [⟨0x60024, 0x0, 1, 1, [⟨PWR_RESTORE_FREED_COUNT, .ro, 0x0, 0xFFFFFFFF⟩]⟩]

/-- RAS_CTRL.LEDGER_EN (R497). -/
def RAS_CTRL_LEDGER_EN : Fld := ⟨.ras, 0x70000, 0x0, 1, 1, 0x1⟩
/-- RAS_CTRL.SCRUB_EN (R497). -/
def RAS_CTRL_SCRUB_EN : Fld := ⟨.ras, 0x70000, 0x0, 0, 1, 0x1⟩
/-- RAS_STATUS.ADOPTING (R497). -/
def RAS_STATUS_ADOPTING : Fld := ⟨.ras, 0x70004, 0x0, 8, 1, 0x0⟩
/-- RAS_STATUS.DIES_LOST (R497). -/
def RAS_STATUS_DIES_LOST : Fld := ⟨.ras, 0x70004, 0x0, 0, 8, 0x0⟩
/-- RAS_CFG.HOLDOFF (R497). -/
def RAS_CFG_HOLDOFF : Fld := ⟨.ras, 0x70008, 0x0, 24, 8, 0xA⟩
/-- RAS_CFG.WDOG (R497). -/
def RAS_CFG_WDOG : Fld := ⟨.ras, 0x70008, 0x0, 16, 8, 0xA⟩
/-- RAS_CFG.CE_RETIRE (R497). -/
def RAS_CFG_CE_RETIRE : Fld := ⟨.ras, 0x70008, 0x0, 8, 8, 0x4⟩
/-- RAS_SCRUB.PERIOD (R497). -/
def RAS_SCRUB_PERIOD : Fld := ⟨.ras, 0x7000C, 0x0, 0, 16, 0x18⟩
/-- RAS_LEDGER.MIB (R497). -/
def RAS_LEDGER_MIB : Fld := ⟨.ras, 0x70010, 0x0, 0, 13, 0x100⟩
/-- RAS_EVENT.RETIRED (R497). -/
def RAS_EVENT_RETIRED : Fld := ⟨.ras, 0x70014, 0x0, 7, 1, 0x0⟩
/-- RAS_EVENT.LEDGER_FULL (R497). -/
def RAS_EVENT_LEDGER_FULL : Fld := ⟨.ras, 0x70014, 0x0, 6, 1, 0x0⟩
/-- RAS_EVENT.UE (R497). -/
def RAS_EVENT_UE : Fld := ⟨.ras, 0x70014, 0x0, 5, 1, 0x0⟩
/-- RAS_EVENT.ORPHANED (R497). -/
def RAS_EVENT_ORPHANED : Fld := ⟨.ras, 0x70014, 0x0, 4, 1, 0x0⟩
/-- RAS_EVENT.ADOPTED (R497). -/
def RAS_EVENT_ADOPTED : Fld := ⟨.ras, 0x70014, 0x0, 3, 1, 0x0⟩
/-- RAS_EVENT.DIE_LOST (R497). -/
def RAS_EVENT_DIE_LOST : Fld := ⟨.ras, 0x70014, 0x0, 2, 1, 0x0⟩
/-- RAS_EVENT.DISPUTE (R497). -/
def RAS_EVENT_DISPUTE : Fld := ⟨.ras, 0x70014, 0x0, 1, 1, 0x0⟩
/-- RAS_EVENT.UNIT_FENCED (R497). -/
def RAS_EVENT_UNIT_FENCED : Fld := ⟨.ras, 0x70014, 0x0, 0, 1, 0x0⟩
/-- RAS_UNIT_SEL.KIND (R497). -/
def RAS_UNIT_SEL_KIND : Fld := ⟨.ras, 0x70018, 0x0, 24, 4, 0x0⟩
/-- RAS_UNIT_SEL.DIE (R497). -/
def RAS_UNIT_SEL_DIE : Fld := ⟨.ras, 0x70018, 0x0, 16, 3, 0x0⟩
/-- RAS_UNIT_SEL.INDEX (R497). -/
def RAS_UNIT_SEL_INDEX : Fld := ⟨.ras, 0x70018, 0x0, 0, 16, 0x0⟩
/-- RAS_UNIT_CMD.OP (R497). -/
def RAS_UNIT_CMD_OP : Fld := ⟨.ras, 0x7001C, 0x0, 0, 2, 0x0⟩
/-- RAS_UNIT_ROW.ROW (R497). -/
def RAS_UNIT_ROW_ROW : Fld := ⟨.ras, 0x70020, 0x0, 0, 32, 0x0⟩
/-- RAS_MCTP.EID_PCIE (R497). -/
def RAS_MCTP_EID_PCIE : Fld := ⟨.ras, 0x70030, 0x0, 16, 8, 0x0⟩
/-- RAS_MCTP.EID_SMB (R497). -/
def RAS_MCTP_EID_SMB : Fld := ⟨.ras, 0x70030, 0x0, 8, 8, 0x0⟩
/-- RAS_MCTP.SMB_ADDR (R497). -/
def RAS_MCTP_SMB_ADDR : Fld := ⟨.ras, 0x70030, 0x0, 0, 7, 0x0⟩
/-- RAS_DISPUTES.COUNT (R497). -/
def RAS_DISPUTES_COUNT : Fld := ⟨.ras, 0x70040, 0x0, 0, 32, 0x0⟩
/-- RAS_DISPUTE_PASS.COUNT (R497). -/
def RAS_DISPUTE_PASS_COUNT : Fld := ⟨.ras, 0x70044, 0x0, 0, 32, 0x0⟩
/-- RAS_DISPUTE_FAIL.COUNT (R497). -/
def RAS_DISPUTE_FAIL_COUNT : Fld := ⟨.ras, 0x70048, 0x0, 0, 32, 0x0⟩
/-- RAS_DISPUTE_HOLD.COUNT (R497). -/
def RAS_DISPUTE_HOLD_COUNT : Fld := ⟨.ras, 0x7004C, 0x0, 0, 32, 0x0⟩
/-- RAS_DIE_LOSSES.COUNT (R497). -/
def RAS_DIE_LOSSES_COUNT : Fld := ⟨.ras, 0x70050, 0x0, 0, 32, 0x0⟩
/-- RAS_RECOVERED.COUNT (R497). -/
def RAS_RECOVERED_COUNT : Fld := ⟨.ras, 0x70054, 0x0, 0, 32, 0x0⟩
/-- RAS_LOST_RECORDS.COUNT (R497). -/
def RAS_LOST_RECORDS_COUNT : Fld := ⟨.ras, 0x70058, 0x0, 0, 32, 0x0⟩
/-- RAS_SEQ_LOST.COUNT (R497). -/
def RAS_SEQ_LOST_COUNT : Fld := ⟨.ras, 0x7005C, 0x0, 0, 32, 0x0⟩
/-- RAS_DIE_STATE.LEDGER_DIE (R497). -/
def RAS_DIE_STATE_LEDGER_DIE : Fld := ⟨.ras, 0x70100, 0x40, 16, 8, 0xFF⟩
/-- RAS_DIE_STATE.STACKS (R497). -/
def RAS_DIE_STATE_STACKS : Fld := ⟨.ras, 0x70100, 0x40, 8, 3, 0x7⟩
/-- RAS_DIE_STATE.STATE (R497). -/
def RAS_DIE_STATE_STATE : Fld := ⟨.ras, 0x70100, 0x40, 0, 4, 0x0⟩
/-- RAS_CE_HBM.COUNT (R497). -/
def RAS_CE_HBM_COUNT : Fld := ⟨.ras, 0x70104, 0x40, 0, 32, 0x0⟩
/-- RAS_UE_HBM.COUNT (R497). -/
def RAS_UE_HBM_COUNT : Fld := ⟨.ras, 0x70108, 0x40, 0, 32, 0x0⟩
/-- RAS_CE_SRAM.COUNT (R497). -/
def RAS_CE_SRAM_COUNT : Fld := ⟨.ras, 0x7010C, 0x40, 0, 32, 0x0⟩
/-- RAS_UE_SRAM.COUNT (R497). -/
def RAS_UE_SRAM_COUNT : Fld := ⟨.ras, 0x70110, 0x40, 0, 32, 0x0⟩
/-- RAS_CE_D2D.COUNT (R497). -/
def RAS_CE_D2D_COUNT : Fld := ⟨.ras, 0x70114, 0x40, 0, 32, 0x0⟩
/-- RAS_UE_D2D.COUNT (R497). -/
def RAS_UE_D2D_COUNT : Fld := ⟨.ras, 0x70118, 0x40, 0, 32, 0x0⟩
/-- RAS_RETIRED.SEGS (R497). -/
def RAS_RETIRED_SEGS : Fld := ⟨.ras, 0x7011C, 0x40, 0, 32, 0x0⟩
/-- RAS_WKT_FENCED.WICKETS (R497). -/
def RAS_WKT_FENCED_WICKETS : Fld := ⟨.ras, 0x70120, 0x40, 0, 9, 0x0⟩
/-- RAS_LEDGER_USED.ENTRIES (R497). -/
def RAS_LEDGER_USED_ENTRIES : Fld := ⟨.ras, 0x70124, 0x40, 0, 32, 0x0⟩
/-- RAS_LEDGER_SHORT.COUNT (R497). -/
def RAS_LEDGER_SHORT_COUNT : Fld := ⟨.ras, 0x70128, 0x40, 0, 32, 0x0⟩
/-- RAS_TASK_RESTARTS.COUNT (R497). -/
def RAS_TASK_RESTARTS_COUNT : Fld := ⟨.ras, 0x7012C, 0x40, 0, 32, 0x0⟩

/-- The registers of the RAS block. -/
def regsRAS : List Reg :=
  [⟨0x70000, 0x0, 1, 1, [⟨RAS_CTRL_LEDGER_EN, .rw, 0x0, 0x1⟩, ⟨RAS_CTRL_SCRUB_EN, .rw, 0x0, 0x1⟩]⟩] ++
  [⟨0x70004, 0x0, 1, 1, [⟨RAS_STATUS_ADOPTING, .ro, 0x0, 0x1⟩, ⟨RAS_STATUS_DIES_LOST, .ro, 0x0, 0xFF⟩]⟩] ++
  [⟨0x70008, 0x0, 1, 1, [⟨RAS_CFG_HOLDOFF, .rw, 0x0, 0xFF⟩, ⟨RAS_CFG_WDOG, .rw, 0x0, 0xFF⟩, ⟨RAS_CFG_CE_RETIRE, .rw, 0x0, 0xFF⟩]⟩] ++
  [⟨0x7000C, 0x0, 1, 1, [⟨RAS_SCRUB_PERIOD, .rw, 0x1, 0x2D0⟩]⟩] ++
  [⟨0x70010, 0x0, 1, 1, [⟨RAS_LEDGER_MIB, .rw, 0x10, 0x1000⟩]⟩] ++
  [⟨0x70014, 0x0, 1, 1, [⟨RAS_EVENT_RETIRED, .w1c, 0x0, 0x1⟩, ⟨RAS_EVENT_LEDGER_FULL, .w1c, 0x0, 0x1⟩, ⟨RAS_EVENT_UE, .w1c, 0x0, 0x1⟩, ⟨RAS_EVENT_ORPHANED, .w1c, 0x0, 0x1⟩, ⟨RAS_EVENT_ADOPTED, .w1c, 0x0, 0x1⟩, ⟨RAS_EVENT_DIE_LOST, .w1c, 0x0, 0x1⟩, ⟨RAS_EVENT_DISPUTE, .w1c, 0x0, 0x1⟩, ⟨RAS_EVENT_UNIT_FENCED, .w1c, 0x0, 0x1⟩]⟩] ++
  [⟨0x70018, 0x0, 1, 1, [⟨RAS_UNIT_SEL_KIND, .rw, 0x0, 0xF⟩, ⟨RAS_UNIT_SEL_DIE, .rw, 0x0, 0x7⟩, ⟨RAS_UNIT_SEL_INDEX, .rw, 0x0, 0xFFFF⟩]⟩] ++
  [⟨0x7001C, 0x0, 1, 1, [⟨RAS_UNIT_CMD_OP, .wo, 0x0, 0x3⟩]⟩] ++
  [⟨0x70020, 0x0, 1, 4, [⟨RAS_UNIT_ROW_ROW, .ro, 0x0, 0xFFFFFFFF⟩]⟩] ++
  [⟨0x70030, 0x0, 1, 1, [⟨RAS_MCTP_EID_PCIE, .ro, 0x0, 0xFF⟩, ⟨RAS_MCTP_EID_SMB, .ro, 0x0, 0xFF⟩, ⟨RAS_MCTP_SMB_ADDR, .ro, 0x0, 0x7F⟩]⟩] ++
  [⟨0x70040, 0x0, 1, 1, [⟨RAS_DISPUTES_COUNT, .ro, 0x0, 0xFFFFFFFF⟩]⟩] ++
  [⟨0x70044, 0x0, 1, 1, [⟨RAS_DISPUTE_PASS_COUNT, .ro, 0x0, 0xFFFFFFFF⟩]⟩] ++
  [⟨0x70048, 0x0, 1, 1, [⟨RAS_DISPUTE_FAIL_COUNT, .ro, 0x0, 0xFFFFFFFF⟩]⟩] ++
  [⟨0x7004C, 0x0, 1, 1, [⟨RAS_DISPUTE_HOLD_COUNT, .ro, 0x0, 0xFFFFFFFF⟩]⟩] ++
  [⟨0x70050, 0x0, 1, 1, [⟨RAS_DIE_LOSSES_COUNT, .ro, 0x0, 0xFFFFFFFF⟩]⟩] ++
  [⟨0x70054, 0x0, 1, 1, [⟨RAS_RECOVERED_COUNT, .ro, 0x0, 0xFFFFFFFF⟩]⟩] ++
  [⟨0x70058, 0x0, 1, 1, [⟨RAS_LOST_RECORDS_COUNT, .ro, 0x0, 0xFFFFFFFF⟩]⟩] ++
  [⟨0x7005C, 0x0, 1, 1, [⟨RAS_SEQ_LOST_COUNT, .ro, 0x0, 0xFFFFFFFF⟩]⟩] ++
  [⟨0x70100, 0x40, 8, 1, [⟨RAS_DIE_STATE_LEDGER_DIE, .ro, 0x0, 0xFF⟩, ⟨RAS_DIE_STATE_STACKS, .ro, 0x0, 0x7⟩, ⟨RAS_DIE_STATE_STATE, .ro, 0x0, 0xF⟩]⟩] ++
  [⟨0x70104, 0x40, 8, 1, [⟨RAS_CE_HBM_COUNT, .ro, 0x0, 0xFFFFFFFF⟩]⟩] ++
  [⟨0x70108, 0x40, 8, 1, [⟨RAS_UE_HBM_COUNT, .ro, 0x0, 0xFFFFFFFF⟩]⟩] ++
  [⟨0x7010C, 0x40, 8, 1, [⟨RAS_CE_SRAM_COUNT, .ro, 0x0, 0xFFFFFFFF⟩]⟩] ++
  [⟨0x70110, 0x40, 8, 1, [⟨RAS_UE_SRAM_COUNT, .ro, 0x0, 0xFFFFFFFF⟩]⟩] ++
  [⟨0x70114, 0x40, 8, 1, [⟨RAS_CE_D2D_COUNT, .ro, 0x0, 0xFFFFFFFF⟩]⟩] ++
  [⟨0x70118, 0x40, 8, 1, [⟨RAS_UE_D2D_COUNT, .ro, 0x0, 0xFFFFFFFF⟩]⟩] ++
  [⟨0x7011C, 0x40, 8, 1, [⟨RAS_RETIRED_SEGS, .ro, 0x0, 0xFFFFFFFF⟩]⟩] ++
  [⟨0x70120, 0x40, 8, 1, [⟨RAS_WKT_FENCED_WICKETS, .ro, 0x0, 0x1FF⟩]⟩] ++
  [⟨0x70124, 0x40, 8, 1, [⟨RAS_LEDGER_USED_ENTRIES, .ro, 0x0, 0xFFFFFFFF⟩]⟩] ++
  [⟨0x70128, 0x40, 8, 1, [⟨RAS_LEDGER_SHORT_COUNT, .ro, 0x0, 0xFFFFFFFF⟩]⟩] ++
  [⟨0x7012C, 0x40, 8, 1, [⟨RAS_TASK_RESTARTS_COUNT, .ro, 0x0, 0xFFFFFFFF⟩]⟩]

/-- PMC_CTRL.ARM_AT (R542). -/
def PMC_CTRL_ARM_AT : Fld := ⟨.pmc, 0x80000, 0x0, 1, 1, 0x0⟩
/-- PMC_CTRL.FREEZE (R542). -/
def PMC_CTRL_FREEZE : Fld := ⟨.pmc, 0x80000, 0x0, 0, 1, 0x0⟩
/-- PMC_FREEZE_AT_LO.T_NS (R542). -/
def PMC_FREEZE_AT_LO_T_NS : Fld := ⟨.pmc, 0x80004, 0x0, 0, 32, 0x0⟩
/-- PMC_FREEZE_AT_HI.T_NS (R542). -/
def PMC_FREEZE_AT_HI_T_NS : Fld := ⟨.pmc, 0x80008, 0x0, 0, 32, 0x0⟩
/-- PMC_STATUS.FROZEN (R542). -/
def PMC_STATUS_FROZEN : Fld := ⟨.pmc, 0x8000C, 0x0, 0, 1, 0x0⟩
/-- PMC_GRANT.WRITE (R542). -/
def PMC_GRANT_WRITE : Fld := ⟨.pmc, 0x80100, 0x40, 1, 1, 0x0⟩
/-- PMC_GRANT.USER (R542). -/
def PMC_GRANT_USER : Fld := ⟨.pmc, 0x80100, 0x40, 0, 1, 0x0⟩
/-- PMC_SNAP.FREEZE (R542). -/
def PMC_SNAP_FREEZE : Fld := ⟨.pmc, 0x80104, 0x40, 16, 1, 0x0⟩
/-- PMC_SNAP.EVERY (R542). -/
def PMC_SNAP_EVERY : Fld := ⟨.pmc, 0x80104, 0x40, 0, 8, 0x1⟩
/-- PMC_TAG.RATE (R542). -/
def PMC_TAG_RATE : Fld := ⟨.pmc, 0x80108, 0x40, 0, 16, 0x0⟩
/-- PMC_TAG_SEED.SEED (R542). -/
def PMC_TAG_SEED_SEED : Fld := ⟨.pmc, 0x8010C, 0x40, 0, 32, 0x1⟩
/-- PMC_TRACE.STOP_FULL (R542). -/
def PMC_TRACE_STOP_FULL : Fld := ⟨.pmc, 0x80110, 0x40, 1, 1, 0x0⟩
/-- PMC_TRACE.EN (R542). -/
def PMC_TRACE_EN : Fld := ⟨.pmc, 0x80110, 0x40, 0, 1, 0x0⟩
/-- PMC_BW.PEAK_CLR (R542). -/
def PMC_BW_PEAK_CLR : Fld := ⟨.pmc, 0x80114, 0x40, 16, 1, 0x0⟩
/-- PMC_BW.TICKS (R542). -/
def PMC_BW_TICKS : Fld := ⟨.pmc, 0x80114, 0x40, 0, 16, 0xA⟩
/-- PMC_IDX.DIE (R542). -/
def PMC_IDX_DIE : Fld := ⟨.pmc, 0x80118, 0x40, 8, 3, 0x0⟩
/-- PMC_IDX.UNIT (R542). -/
def PMC_IDX_UNIT : Fld := ⟨.pmc, 0x80118, 0x40, 0, 4, 0x0⟩
/-- PMC_EVSEL.CTX_EN (R542). -/
def PMC_EVSEL_CTX_EN : Fld := ⟨.pmc, 0x8011C, 0x40, 28, 1, 0x0⟩
/-- PMC_EVSEL.CONTEXT (R542). -/
def PMC_EVSEL_CONTEXT : Fld := ⟨.pmc, 0x8011C, 0x40, 16, 12, 0x0⟩
/-- PMC_EVSEL.EN (R542). -/
def PMC_EVSEL_EN : Fld := ⟨.pmc, 0x8011C, 0x40, 11, 1, 0x0⟩
/-- PMC_EVSEL.FRZ_OVF (R542). -/
def PMC_EVSEL_FRZ_OVF : Fld := ⟨.pmc, 0x8011C, 0x40, 10, 1, 0x0⟩
/-- PMC_EVSEL.CHAIN (R542). -/
def PMC_EVSEL_CHAIN : Fld := ⟨.pmc, 0x8011C, 0x40, 9, 1, 0x0⟩
/-- PMC_EVSEL.MODE (R542). -/
def PMC_EVSEL_MODE : Fld := ⟨.pmc, 0x8011C, 0x40, 8, 1, 0x0⟩
/-- PMC_EVSEL.EVENT (R542). -/
def PMC_EVSEL_EVENT : Fld := ⟨.pmc, 0x8011C, 0x40, 0, 8, 0x0⟩
/-- PMC_VALUE.VALUE (R542). -/
def PMC_VALUE_VALUE : Fld := ⟨.pmc, 0x80120, 0x40, 0, 32, 0x0⟩
/-- PMC_HCFG.PARAM (R542). -/
def PMC_HCFG_PARAM : Fld := ⟨.pmc, 0x80124, 0x40, 24, 8, 0x0⟩
/-- PMC_HCFG.SRC (R542). -/
def PMC_HCFG_SRC : Fld := ⟨.pmc, 0x80124, 0x40, 16, 8, 0x0⟩
/-- PMC_HCFG.SHIFT (R542). -/
def PMC_HCFG_SHIFT : Fld := ⟨.pmc, 0x80124, 0x40, 8, 5, 0x0⟩
/-- PMC_HCFG.CLR (R542). -/
def PMC_HCFG_CLR : Fld := ⟨.pmc, 0x80124, 0x40, 1, 1, 0x0⟩
/-- PMC_HCFG.LOG (R542). -/
def PMC_HCFG_LOG : Fld := ⟨.pmc, 0x80124, 0x40, 0, 1, 0x0⟩
/-- PMC_HBASE.BASE (R542). -/
def PMC_HBASE_BASE : Fld := ⟨.pmc, 0x80128, 0x40, 0, 32, 0x0⟩
/-- PMC_PEVENT.CFG_ERR (R542). -/
def PMC_PEVENT_CFG_ERR : Fld := ⟨.pmc, 0x8012C, 0x40, 3, 1, 0x0⟩
/-- PMC_PEVENT.FROZEN (R542). -/
def PMC_PEVENT_FROZEN : Fld := ⟨.pmc, 0x8012C, 0x40, 2, 1, 0x0⟩
/-- PMC_PEVENT.TRACE_DROP (R542). -/
def PMC_PEVENT_TRACE_DROP : Fld := ⟨.pmc, 0x8012C, 0x40, 1, 1, 0x0⟩
/-- PMC_PEVENT.OVF (R542). -/
def PMC_PEVENT_OVF : Fld := ⟨.pmc, 0x8012C, 0x40, 0, 1, 0x0⟩

/-- The registers of the PMC block. -/
def regsPMC : List Reg :=
  [⟨0x80000, 0x0, 1, 1, [⟨PMC_CTRL_ARM_AT, .rw, 0x0, 0x1⟩, ⟨PMC_CTRL_FREEZE, .rw, 0x0, 0x1⟩]⟩] ++
  [⟨0x80004, 0x0, 1, 1, [⟨PMC_FREEZE_AT_LO_T_NS, .rw, 0x0, 0xFFFFFFFF⟩]⟩] ++
  [⟨0x80008, 0x0, 1, 1, [⟨PMC_FREEZE_AT_HI_T_NS, .rw, 0x0, 0xFFFFFFFF⟩]⟩] ++
  [⟨0x8000C, 0x0, 1, 1, [⟨PMC_STATUS_FROZEN, .ro, 0x0, 0x1⟩]⟩] ++
  [⟨0x80100, 0x40, 8, 1, [⟨PMC_GRANT_WRITE, .rw, 0x0, 0x1⟩, ⟨PMC_GRANT_USER, .rw, 0x0, 0x1⟩]⟩] ++
  [⟨0x80104, 0x40, 8, 1, [⟨PMC_SNAP_FREEZE, .rw, 0x0, 0x1⟩, ⟨PMC_SNAP_EVERY, .rw, 0x0, 0xFF⟩]⟩] ++
  [⟨0x80108, 0x40, 8, 1, [⟨PMC_TAG_RATE, .rw, 0x0, 0xFFFF⟩]⟩] ++
  [⟨0x8010C, 0x40, 8, 1, [⟨PMC_TAG_SEED_SEED, .rw, 0x0, 0xFFFFFFFF⟩]⟩] ++
  [⟨0x80110, 0x40, 8, 1, [⟨PMC_TRACE_STOP_FULL, .rw, 0x0, 0x1⟩, ⟨PMC_TRACE_EN, .rw, 0x0, 0x1⟩]⟩] ++
  [⟨0x80114, 0x40, 8, 1, [⟨PMC_BW_PEAK_CLR, .wo, 0x0, 0x1⟩, ⟨PMC_BW_TICKS, .rw, 0x0, 0xFFFF⟩]⟩] ++
  [⟨0x80118, 0x40, 8, 1, [⟨PMC_IDX_DIE, .rw, 0x0, 0x7⟩, ⟨PMC_IDX_UNIT, .rw, 0x0, 0xF⟩]⟩] ++
  [⟨0x8011C, 0x40, 8, 1, [⟨PMC_EVSEL_CTX_EN, .rw, 0x0, 0x1⟩, ⟨PMC_EVSEL_CONTEXT, .rw, 0x0, 0xFFF⟩, ⟨PMC_EVSEL_EN, .rw, 0x0, 0x1⟩, ⟨PMC_EVSEL_FRZ_OVF, .rw, 0x0, 0x1⟩, ⟨PMC_EVSEL_CHAIN, .rw, 0x0, 0x1⟩, ⟨PMC_EVSEL_MODE, .rw, 0x0, 0x1⟩, ⟨PMC_EVSEL_EVENT, .rw, 0x0, 0xFF⟩]⟩] ++
  [⟨0x80120, 0x40, 8, 1, [⟨PMC_VALUE_VALUE, .rw, 0x0, 0xFFFFFFFF⟩]⟩] ++
  [⟨0x80124, 0x40, 8, 1, [⟨PMC_HCFG_PARAM, .rw, 0x0, 0xFF⟩, ⟨PMC_HCFG_SRC, .rw, 0x0, 0xFF⟩, ⟨PMC_HCFG_SHIFT, .rw, 0x0, 0x1F⟩, ⟨PMC_HCFG_CLR, .wo, 0x0, 0x1⟩, ⟨PMC_HCFG_LOG, .rw, 0x0, 0x1⟩]⟩] ++
  [⟨0x80128, 0x40, 8, 1, [⟨PMC_HBASE_BASE, .rw, 0x0, 0xFFFFFFFF⟩]⟩] ++
  [⟨0x8012C, 0x40, 8, 1, [⟨PMC_PEVENT_CFG_ERR, .w1c, 0x0, 0x1⟩, ⟨PMC_PEVENT_FROZEN, .w1c, 0x0, 0x1⟩, ⟨PMC_PEVENT_TRACE_DROP, .w1c, 0x0, 0x1⟩, ⟨PMC_PEVENT_OVF, .w1c, 0x0, 0x1⟩]⟩]

/-- SVC_CTRL.HOST_LOCK (R560). -/
def SVC_CTRL_HOST_LOCK : Fld := ⟨.svc, 0x90000, 0x0, 0, 1, 0x0⟩
/-- SVC_STATUS.LAST_CODE (R560). -/
def SVC_STATUS_LAST_CODE : Fld := ⟨.svc, 0x90004, 0x0, 8, 8, 0x0⟩
/-- SVC_STATUS.STATIC (R560). -/
def SVC_STATUS_STATIC : Fld := ⟨.svc, 0x90004, 0x0, 2, 1, 0x0⟩
/-- SVC_STATUS.ROM (R560). -/
def SVC_STATUS_ROM : Fld := ⟨.svc, 0x90004, 0x0, 1, 1, 0x1⟩
/-- SVC_STATUS.MODE (R560). -/
def SVC_STATUS_MODE : Fld := ⟨.svc, 0x90004, 0x0, 0, 1, 0x0⟩
/-- SVC_EVENT.BREAK (R560). -/
def SVC_EVENT_BREAK : Fld := ⟨.svc, 0x90008, 0x0, 3, 1, 0x0⟩
/-- SVC_EVENT.TEST_FAIL (R560). -/
def SVC_EVENT_TEST_FAIL : Fld := ⟨.svc, 0x90008, 0x0, 2, 1, 0x0⟩
/-- SVC_EVENT.SVC_OFF (R560). -/
def SVC_EVENT_SVC_OFF : Fld := ⟨.svc, 0x90008, 0x0, 1, 1, 0x0⟩
/-- SVC_EVENT.SVC_ON (R560). -/
def SVC_EVENT_SVC_ON : Fld := ⟨.svc, 0x90008, 0x0, 0, 1, 0x0⟩
/-- SVC_BAUD.RATE (R560). -/
def SVC_BAUD_RATE : Fld := ⟨.svc, 0x9000C, 0x0, 0, 15, 0x480⟩
/-- SVC_LEVEL.FORCED (R560). -/
def SVC_LEVEL_FORCED : Fld := ⟨.svc, 0x90010, 0x0, 8, 1, 0x0⟩
/-- SVC_LEVEL.PINS (R560). -/
def SVC_LEVEL_PINS : Fld := ⟨.svc, 0x90010, 0x0, 0, 8, 0x0⟩
/-- SVC_TESTS.COUNT (R560). -/
def SVC_TESTS_COUNT : Fld := ⟨.svc, 0x90014, 0x0, 0, 32, 0x0⟩
/-- SVC_FAILS.COUNT (R560). -/
def SVC_FAILS_COUNT : Fld := ⟨.svc, 0x90018, 0x0, 0, 32, 0x0⟩

/-- The registers of the SVC block. -/
def regsSVC : List Reg :=
  [⟨0x90000, 0x0, 1, 1, [⟨SVC_CTRL_HOST_LOCK, .rw, 0x0, 0x1⟩]⟩] ++
  [⟨0x90004, 0x0, 1, 1, [⟨SVC_STATUS_LAST_CODE, .ro, 0x0, 0xFF⟩, ⟨SVC_STATUS_STATIC, .ro, 0x0, 0x1⟩, ⟨SVC_STATUS_ROM, .ro, 0x0, 0x1⟩, ⟨SVC_STATUS_MODE, .ro, 0x0, 0x1⟩]⟩] ++
  [⟨0x90008, 0x0, 1, 1, [⟨SVC_EVENT_BREAK, .w1c, 0x0, 0x1⟩, ⟨SVC_EVENT_TEST_FAIL, .w1c, 0x0, 0x1⟩, ⟨SVC_EVENT_SVC_OFF, .w1c, 0x0, 0x1⟩, ⟨SVC_EVENT_SVC_ON, .w1c, 0x0, 0x1⟩]⟩] ++
  [⟨0x9000C, 0x0, 1, 1, [⟨SVC_BAUD_RATE, .ro, 0x0, 0x7FFF⟩]⟩] ++
  [⟨0x90010, 0x0, 1, 1, [⟨SVC_LEVEL_FORCED, .ro, 0x0, 0x1⟩, ⟨SVC_LEVEL_PINS, .ro, 0x0, 0xFF⟩]⟩] ++
  [⟨0x90014, 0x0, 1, 1, [⟨SVC_TESTS_COUNT, .ro, 0x0, 0xFFFFFFFF⟩]⟩] ++
  [⟨0x90018, 0x0, 1, 1, [⟨SVC_FAILS_COUNT, .ro, 0x0, 0xFFFFFFFF⟩]⟩]

/-- PTN_BIND.B_EN (R349). -/
def PTN_BIND_B_EN : Fld := ⟨.ptn, 0xA0000, 0x20, 15, 1, 0x0⟩
/-- PTN_BIND.B_VF (R349). -/
def PTN_BIND_B_VF : Fld := ⟨.ptn, 0xA0000, 0x20, 8, 4, 0x0⟩
/-- PTN_BIND.A_EN (R349). -/
def PTN_BIND_A_EN : Fld := ⟨.ptn, 0xA0000, 0x20, 7, 1, 0x0⟩
/-- PTN_BIND.A_VF (R349). -/
def PTN_BIND_A_VF : Fld := ⟨.ptn, 0xA0000, 0x20, 0, 4, 0x0⟩
/-- PTN_DIES.DIES (R349). -/
def PTN_DIES_DIES : Fld := ⟨.ptn, 0xA0004, 0x20, 0, 8, 0x0⟩
/-- PTN_CTRL.RESET (R349). -/
def PTN_CTRL_RESET : Fld := ⟨.ptn, 0xA0008, 0x20, 1, 1, 0x0⟩
/-- PTN_CTRL.SEAL (R349). -/
def PTN_CTRL_SEAL : Fld := ⟨.ptn, 0xA0008, 0x20, 0, 1, 0x0⟩
/-- PTN_STATUS.B_READY (R349). -/
def PTN_STATUS_B_READY : Fld := ⟨.ptn, 0xA000C, 0x20, 9, 1, 0x0⟩
/-- PTN_STATUS.A_READY (R349). -/
def PTN_STATUS_A_READY : Fld := ⟨.ptn, 0xA000C, 0x20, 8, 1, 0x0⟩
/-- PTN_STATUS.STATE (R349). -/
def PTN_STATUS_STATE : Fld := ⟨.ptn, 0xA000C, 0x20, 0, 3, 0x0⟩
/-- PTN_EVENT.BIND_REFUSED (R349). -/
def PTN_EVENT_BIND_REFUSED : Fld := ⟨.ptn, 0xA0010, 0x20, 1, 1, 0x0⟩
/-- PTN_EVENT.CONFLICT (R349). -/
def PTN_EVENT_CONFLICT : Fld := ⟨.ptn, 0xA0010, 0x20, 0, 1, 0x0⟩

/-- The registers of the PTN block. -/
def regsPTN : List Reg :=
  [⟨0xA0000, 0x20, 8, 1, [⟨PTN_BIND_B_EN, .rw, 0x0, 0x1⟩, ⟨PTN_BIND_B_VF, .rw, 0x0, 0xF⟩, ⟨PTN_BIND_A_EN, .rw, 0x0, 0x1⟩, ⟨PTN_BIND_A_VF, .rw, 0x0, 0xF⟩]⟩] ++
  [⟨0xA0004, 0x20, 8, 1, [⟨PTN_DIES_DIES, .rwl, 0x0, 0xFF⟩]⟩] ++
  [⟨0xA0008, 0x20, 8, 1, [⟨PTN_CTRL_RESET, .wo, 0x0, 0x1⟩, ⟨PTN_CTRL_SEAL, .rw, 0x0, 0x1⟩]⟩] ++
  [⟨0xA000C, 0x20, 8, 1, [⟨PTN_STATUS_B_READY, .ro, 0x0, 0x1⟩, ⟨PTN_STATUS_A_READY, .ro, 0x0, 0x1⟩, ⟨PTN_STATUS_STATE, .ro, 0x0, 0x7⟩]⟩] ++
  [⟨0xA0010, 0x20, 8, 1, [⟨PTN_EVENT_BIND_REFUSED, .w1c, 0x0, 0x1⟩, ⟨PTN_EVENT_CONFLICT, .w1c, 0x0, 0x1⟩]⟩]

end Sys2Proof.Machine
end

