-- ==== Sys2Proof/Machine/RegMap.lean ====
section
/-!
DEFINITION. Sys2Proof/Machine/RegMap.lean: every register of BAR0 (R562) and the search for the one at an offset.
-/
namespace Sys2Proof.Machine

/-- Every register of the part. -/
def allRegs : List Reg :=
  regsSYS ++ regsTIK ++ regsHRG ++ regsSEC ++ regsPWR ++ regsRAS ++ regsPMC ++ regsSVC ++ regsPTN ++ regsCSM ++ regsATM ++ regsPFX ++ regsSTG ++ regsFTL ++ regsNRT ++ regsLNK ++ regsMEM ++ regsWKT ++ regsDPM

/-- Where offset `a` falls in register `r`: the instance and the register of a run, if it does. -/
def Reg.at? (r : Reg) (a : Nat) : Option (Nat × Nat) :=
  if a < r.off then none
  else
    let i := if r.stride = 0 then 0 else (a - r.off) / r.stride
    let e := a - r.off - i * r.stride
    if i < r.insts ∧ e % 4 = 0 ∧ e / 4 < r.reps then some (i, e / 4) else none

/-- The register at BAR0 offset `a`: its description, its instance and its place in a run (R563). -/
def findReg : List Reg → Nat → Option (Reg × Nat × Nat)
  | [], _ => none
  | r :: rs, a =>
    match r.at? a with
    | some (i, k) => some (r, i, k)
    | none => findReg rs a

end Sys2Proof.Machine
end

