-- ==== Sys2Proof/Machine/State.lean ====
section
/-!
DEFINITION. Sys2Proof/Machine/State.lean: the state of the part, as plain data, and the state after reset.
-/
namespace Sys2Proof.Machine

/-- The three variants of the family (R2). -/
inductive Variant where
  | n820 | n840 | n880
deriving DecidableEq, Repr

/-- Dies of a variant, the N of R3. -/
def Variant.dies : Variant → Nat
  | .n820 => 2
  | .n840 => 4
  | .n880 => 8

/-- The body of a completion-queue entry that reports a descriptor (R331). -/
structure Completion where
  result0 : Nat
  result1 : Nat
  tick : Nat
  tag : Nat
  sqHead : Nat
  sqId : Nat
  status : Nat
  op : Nat
deriving DecidableEq, Repr

/-- An event as raised for a function (R335): code, die (0xFF for the package), payload bytes, tick and serial. -/
structure Event where
  code : Nat
  die : Nat
  payload : List Byte
  tick : Nat
  seq : Nat
deriving DecidableEq, Repr

/-- What the part sends out of itself, in the order in which it goes out. -/
inductive Emit where
  /-- A completion entry written to a function's CQ slot (R331); `phase` is the entry's PHASE. -/
  | completion (fn cq slot : Nat) (phase : Bool) (c : Completion)
  /-- An event entry written to a function's CQ slot (R335). -/
  | event (fn cq slot : Nat) (phase : Bool) (e : Event)
  /-- MSI-X vector of a VF (R334). -/
  | interrupt (fn vec : Nat)
  /-- PF vector 0 (R338). -/
  | pfVector (port : Nat)
  /-- A posted write of host memory by a function (R333). -/
  | hostWrite (fn addr : Nat) (bytes : List Byte)
  /-- A frame given to the medium by the fabric port of a die: class, DSCP, MACsec association and packet number (none for
  an unprotected frame), the address it goes to, what it carries, and its octets on the wire. -/
  | frame (die cls dscp : Nat) (sec : Option (Nat × Nat)) (addr : Nat) (p : Packet) (octets : List Nat)
  /-- A word returned by a register read. -/
  | regValue (off : Nat) (w : Word)
  /-- A line of the service console (R547): the words of the answer. -/
  | console (line : List String)
  /-- Bytes returned over MCTP to the package manager (R496). -/
  | mctp (kind : Nat) (bytes : List Byte)
  /-- A level of an output pin: 0 THERMTRIP_N, 1 PPS_OUT, 2 SVC_LVL, 16 + d EN_DIE_d, 24 + d EN_CAS_d, 32 + d EN_FLP_d (R580,
  R583). -/
  | pin (pin level : Nat)
  /-- A voltage commanded over a die's AVSBus, mV: rail 0 CAS, 1 LOG, 2 SRM (R583). -/
  | avs (d rail mv : Nat)
  /-- What the TAP shifts out. -/
  | tap (ir : Nat) (bits : List Bool)
deriving DecidableEq, Repr

/-- A deferred or held write of a settings field (R594): the value still in force is kept beside the register. -/
inductive When where
  | now | slot | tick
deriving DecidableEq, Repr

/-- The time counter and its discipline (R17 to R28). `tNs` is T_ns = SEC × 10⁹ + NS of R29, `sub` the fraction in
2⁻⁴⁸ ns and `adj` the signed rate adjustment per TIME cycle in the same unit (R18). A TIME cycle that passes two nanoseconds
reaches both: at the first of them `sub` holds the second. Every die's local copy is the package counter itself, an offset
of 0 within the ±4 ns of R19 (DESIGN CHOICE, log entry 94). -/
structure Clock where
  tNs : Nat
  sub : Nat
  adj : Int
  /-- Consecutive Sync messages within LOCK_NS (R21). -/
  inLock : Nat
  /-- LOCKED was reached since the last power-on or package cold reset. -/
  lockedEver : Bool
  /-- An offset has been measured since power-on, cold reset or the last entry to FREE_RUN (R24). -/
  measured : Bool
  /-- The offset measured at the latest Sync message, in ns, without the saturation of TIK_OFFSET; 0 after a step (R24). -/
  off : Int
  /-- Correction applied since the latest measurement, in 2⁻⁴⁸ ns (R24). -/
  corr : Int
  /-- Nanoseconds counted by TIK_HOLD_TIME, and whether it counts (R22). -/
  holdNs : Nat
  holding : Bool
  /-- logMessageInterval of the latest Announce message and the instant it was heard (R22). -/
  annLog : Int
  annAt : Nat
  /-- A search of R26 runs. -/
  searching : Bool
  /-- TIME_REFCLK is lost (R586). -/
  refLost : Bool
deriving DecidableEq, Repr

/-- The counter at reset: every part 0 (R57). -/
def Clock.init : Clock := ⟨0, 0, 0, 0, false, false, 0, 0, 0, false, 0, 0, false, false⟩

/-- State of a ring (R317). -/
inductive RingState where
  | disabled | active | stopped
deriving DecidableEq, Repr

/-- A submission or completion ring (R315, R326). For an SQ, `head` is the next index to fetch and `tail` the last tail
doorbell; for a CQ, `head` is the last head doorbell and `tail` the next index the part writes. -/
structure Ring where
  st : RingState
  log2 : Nat
  base : Nat
  flags : Nat
  link : Nat
  coalCount : Nat
  coalTime : Nat
  head : Nat
  tail : Nat
  phase : Bool
  /-- Entries written since the CQ's last interrupt (R334). -/
  since : Nat
  /-- T_ns of the first entry written since the last interrupt (R334). -/
  sinceT : Nat
  dropped : Nat
deriving DecidableEq, Repr

/-- A descriptor accepted and not yet completed (R346 OUTSTANDING). `gen` is the function's enable generation at
acceptance: after a loss of the function its completion is discarded (R339). -/
structure Outst where
  fn : Nat
  sq : Nat
  index : Nat
  tag : Nat
  op : Nat
  body0 : Nat
  tick : Nat
  order : Bool
  intr : Bool
  started : Bool
  adopted : Bool
  gen : Nat
  /-- T_ns of acceptance (R540). -/
  accT : Nat
deriving DecidableEq, Repr

/-- A RESYNC waiting for its snapshot (R342). -/
structure ResyncWait where
  fn : Nat
  sq : Nat
  index : Nat
  dest : Nat
  room : Nat
  adopt : Bool
deriving DecidableEq, Repr

/-- A host function: the VF of partition p on port x, numbered 2p + x (R318). Rings are keyed by doorbell page: SQ n
at n, CQ n at 128 + n. -/
structure HostFn where
  rings : List (Nat × Ring)
  /-- The CQ that receives events (R327). -/
  eventCq : Nat
  held : List Event
  /-- Events discarded since EVT_OVERFLOW was last posted (R336). -/
  lost : Nat
  gen : Nat
  /-- Ring numbers last served among URGENT SQs and among the others (R322). -/
  lastUrgent : Nat
  lastNormal : Nat
  masked : List Nat
  pendVec : List Nat
  resyncs : List ResyncWait
  /-- Bits of HRG_FEVENT newly set in the tick (R338). -/
  fevNew : Nat
deriving DecidableEq, Repr

def HostFn.init : HostFn := ⟨[], 0, [], 0, 0, 0, 0, [], [], [], 0⟩

/-- State of a page record (R67). -/
inductive PageSt where
  | free | open_ | full | sealing | sealed | suspect | limbo
deriving DecidableEq, Repr

/-- What the index table says of a token block (R189): declared size and the RAW flag. -/
structure BlkInfo where
  bytes : Nat
  raw : Bool
deriving DecidableEq, Repr

/-- Residency of a page (the PLACE field, R217): RES bits, heat and its tick, replica entry and flash location. -/
structure Place where
  hbm : Bool
  flash : Bool
  durable : Bool
  replica : Bool
  staging : Bool
  held : Bool
  heat : Nat
  heatTick : Nat
  replicaIdx : Nat
  flashObj : Nat
  /-- Die whose channels hold the flash copy, plus 1; 0 for the die's own (R484). -/
  flashDie : Nat
deriving DecidableEq, Repr

def Place.init : Place := ⟨true, false, false, false, false, false, 0, 0, 0, 0, 0⟩

/-- A page record with the contents of its frame (R60 to R68). -/
structure Page where
  st : PageSt
  format : Nat
  layer : Nat
  raw : Bool
  pinned : Bool
  fill : Nat
  segs : List Nat
  /-- List slot that holds its segment list, numbered 2 × list segment + slot: SEG_LIST is 2,048 times it; 0 for none (R65). -/
  list : Nat
  refs : Nat
  rel : Nat
  bytes : Nat
  posBase : Nat
  origin : Nat
  ctx : Nat
  place : Place
  /-- Stored positions in order. -/
  pos : List Pos
  /-- Index table of a sealed page. -/
  blks : List BlkInfo
  /-- SUMMARY_BYTES of a sealed page; 0 when it has no summary area. -/
  sumBytes : Nat
  /-- Tick at which sealing completed (SEALED of R188). -/
  sealedAt : Nat
  /-- Stored bytes of a page that came from another part (R213); none: those that sealing writes. -/
  stored : Option (List Byte)
deriving DecidableEq, Repr

/-- State of a chunk record (R69). -/
inductive ChunkSt where
  | tree | priv | limbo
deriving DecidableEq, Repr

/-- A chunk record (R69). -/
structure Chunk where
  chain : Nat
  model : Nat
  parent : Nat
  st : ChunkSt
  parked : Bool
  written : Bool
  holders : Nat
  children : Nat
  depth : Nat
  rel : Nat
  ctx : Nat
  created : Nat
  tokens : List Nat
  pages : List Nat
deriving DecidableEq, Repr

/-- A layer entry of a tail record (R73). -/
structure LayerEnt where
  full : Nat
  open_ : Nat
  fill : Nat
  done : Bool
  sealed : Nat
deriving DecidableEq, Repr

def LayerEnt.init : LayerEnt := ⟨0, 0, 0, false, 0⟩

/-- A tail record (R73); `known` lists the recorded token identifiers from BASE, TOKENS_KNOWN of them. -/
structure Tail where
  base : Nat
  known : List Nat
  layers : List LayerEnt
  segs : List Nat
deriving DecidableEq, Repr

/-- A map version body (R72). -/
structure MapBody where
  version : Nat
  chunks : List Nat
  written : Nat
  prev : Nat
  segs : List Nat
deriving DecidableEq, Repr

/-- An entry of the sequence index that is LIVE, or a TOMBSTONE (R70). -/
structure SeqSlot where
  seq : Nat
  ctx : Nat
  live : Bool
  parked : Bool
  body : MapBody
  tail : Tail
deriving DecidableEq, Repr

/-- State of an occupied slot of the tree (R86). -/
inductive EntrySt where
  | valid | inserting | evicting
deriving DecidableEq, Repr

/-- An occupied entry slot of the prefix tree (R86). -/
structure TreeEnt where
  chain : Nat
  chunk : Nat
  st : EntrySt
  lastHit : Nat
deriving DecidableEq, Repr

/-- An item of the limbo list (R92): a page, a chunk record, segments of a body, a tail record or a list, or the segments of a
frame that its page no longer has, still charged to a context (R227). -/
inductive LimboWhat where
  | page (id : Nat)
  | chunk (id : Nat)
  | segs (l : List Nat)
  | frame (ctx : Nat) (l : List Nat)
deriving DecidableEq, Repr

structure Limbo where
  what : LimboWhat
  rel : Nat
deriving DecidableEq, Repr

/-- An edit accepted that waits for staging (R597) or behind an earlier edit of its sequence (R82): the descriptor that it
completes, or, for an append that a step record carries, the sweep and the record's place in it. -/
structure WaitEdit where
  desc : Option (Nat × Nat × Nat)
  rec_ : Option (Nat × Nat)
  seq : Nat
  edit : Edit
deriving DecidableEq, Repr

/-- The maps, pages and prefix tree of a die (chapter 03). Unlisted page and chunk records are FREE. -/
structure Pfx where
  pages : List (Nat × Page)
  chunks : List (Nat × Chunk)
  index : List (Nat × SeqSlot)
  /-- Occupied slots: five per bucket, main buckets first, then overflow buckets (R85, R86). -/
  tree : List (Nat × TreeEnt)
  /-- OVF links of buckets that have one (R86). -/
  ovf : List (Nat × Nat)
  /-- Segments of the die that are not free: in frames, bodies, tail records, lists, limbo or retired; rising. -/
  used : List Nat
  /-- Segments taken by the structures placed at PFX_CTRL.EN (R103). -/
  placed : Nat
  /-- List segments held, each with a bit for each of its two slots in use (R65). -/
  listSegs : List (Nat × Nat)
  limbo : List Limbo
  /-- Open holders by epoch (R92). -/
  open_ : List (Nat × Nat)
  cursor : Nat
  /-- Seals (page id of the FULL page) and chunk completions (sequence) that wait for room (R65). -/
  sealWait : List Nat
  chunkWait : List Nat
  edits : List WaitEdit
  /-- Lost pages (R211). -/
  lost : List Nat
deriving DecidableEq, Repr

def Pfx.init : Pfx := ⟨[], [], [], [], [], [], 0, [], [], [], 0, [], [], [], []⟩

/-- Current latent weights of one layer (R168, R170): format, the projection matrices in row order, and the segments that
hold them. -/
structure Weights where
  fmt : Nat
  uk : List (List Pos)
  uv : List (List Pos)
  segs : List Nat
deriving DecidableEq, Repr

/-- A context of a partition (R416, R417, R226): its shape, its descriptor, and its quotas. -/
structure Ctx where
  home : Nat
  latent : Bool
  model : Nat
  layers : Nat
  h : Nat
  d : Nat
  w : Nat
  g : Nat
  format : Nat
  tailFmt : Nat
  desc : SweepDesc
  weights : List (Nat × Weights)
  hbmMax : Nat
  hbmMin : Nat
  flashMax : Nat
  /-- A CTX_DESTROY of the context runs: the descriptor that completes it and the sequences it freed (R419). -/
  destroying : Option (Nat × Nat × Nat × Nat)
deriving DecidableEq, Repr

/-- Where a step record came from: an inbox entry of a requester (R379; `from_` is the address it came from), or a STEP descriptor with the host addresses of
its output block and status entry (R329). -/
inductive RecSrc where
  | inbox (inbox entry from_ : Nat)
  | ring (fn sq index output statusAddr : Nat)
deriving DecidableEq, Repr

/-- A step record held by its die (R32): the inbox entry image, the record as read from it, with its signal timestamp and deferral count. `checked` is set once R117 was
applied at the boundary at which it became eligible; `tagged` by R535. -/
structure Held where
  img : List Byte
  step : StepRec
  src : RecSrc
  tSig : Nat
  deferrals : Nat
  checked : Bool
  tagged : Bool
  /-- What the die's ledger keeps of it: nothing, its record alone (false), or a full copy (R480). -/
  copy : Option Bool
  /-- T_FIRST and the boundary at which the record became eligible (R536). -/
  tFirst : Nat
  tElig : Nat
  /-- A forced record that R118 cut off at a boundary: it stays forced (R46). -/
  cutOff : Bool
  /-- For a ledger entry that is rerun (R485): the start of the tick after that of its first admission, 0 for an entry never
  admitted. -/
  recov : Option Nat
deriving DecidableEq, Repr

/-- The snapshot of a record (R79): the current map version's chunks and base, and a copy of the layer entry. -/
structure Snap where
  chunks : List Nat
  base : Nat
  full : Nat
  open_ : Nat
  fill : Nat
deriving DecidableEq, Repr

/-- The state of a row (R129): running maximum and sum and the accumulator, as FP32 words; `seen` once the row had an
admissible position. For a BACKWARD row the accumulator is dq (R176). -/
structure Row where
  m : Nat
  l : Nat
  acc : List Nat
  seen : Bool
deriving DecidableEq, Repr

/-- A record of a sweep. `status` is none while it runs; `sel` are the kept blocks of each head in rank order (R160);
`rows` the row state; `output` its output block once finalised; `flags` those of R120. -/
structure SweepRec where
  held : Held
  snap : Snap
  appendStatus : Nat
  /-- The carried append is accepted and waits for its turn (R82, R115). -/
  appWait : Bool
  rows : List Row
  sel : List (List Nat)
  rerun : Bool
  status : Option Nat
  finalised : Bool
  delivered : Bool
  output : List Byte
  /-- MSG_ID of the output message, once sent (R382). -/
  outMsg : Option Nat
  flags : Nat
  /-- For R536: instants of its first tile's issue, its last tile's commit and its finalisation, tiles rerun, blocks fetched
  with an admissible position, blocks skipped, store hits, coded bytes and raw bytes. -/
  tTile : Option Nat
  tLast : Option Nat
  tFin : Option Nat
  reruns : Nat
  blocks : Nat
  skipped : Nat
  hits : Nat
  codedB : Nat
  rawB : Nat
  /-- Projection tiles of a LATENT record that passed their checks (R173): 0x10000 × side + number, side 0 for the query
  projection of R171 and 1 for the output projection of R172. -/
  proj : List Nat
  /-- The output message was refused: no status entry follows (R123). -/
  outBad : Bool
  /-- SERIAL of its sillage record, once written (R536). -/
  traced : Option Nat
deriving DecidableEq, Repr

/-- A block of a sweep's plan (R124, R126): layer, page, token block and first position of the page; the positions present,
the bytes and rate class of R142; the records that need it, each with the key/value heads, all of them for an empty list;
and what has been done with it. Token block 8 stands for the summary area of the page (R165). `tiles` lists the tiles
committed. `elems` are the positions (the keys, for a summary area) that the atomizer released, where they are not the
stored ones. -/
structure PlanBlk where
  layer : Nat
  page : Nat
  blk : Nat
  posBase : Nat
  present : Nat
  bytes : Nat
  coded : Bool
  tail : Bool
  need : List (Nat × List Nat)
  fetched : Bool
  expanded : Bool
  failed : Bool
  atomizer : Nat
  tiles : List Nat
  committed : Bool
  elems : Option (List Pos)
deriving DecidableEq, Repr

/-- A sweep admitted on a die (R104, R112, R125): descriptor copy and weights, records in admission order, its estimate
unscaled and scaled, when it was admitted and started, its plan, the tiles in rerun (page × 16 + block, tile code,
mismatches so far, pane of the latest), nanoseconds paused (R509), and when it emitted its last tile. -/
structure Sweep where
  id : Nat
  part : Nat
  ctx : Nat
  shape : Ctx
  recs : List SweepRec
  est : Nat
  scaled : Nat
  admTick : Nat
  admT : Nat
  /-- Start of the tick after that of admission (R49). -/
  endTick : Nat
  epoch : Nat
  started : Bool
  startT : Nat
  planned : Bool
  selDone : Bool
  summaries : List PlanBlk
  blocks : List PlanBlk
  retry : List (Nat × Nat × Nat × Nat)
  /-- Records that have met their last block, in the order in which they did: that of their finalisation (R126). -/
  order : List Nat
  /-- Pages whose header, index or accord check failed in this sweep (R206). -/
  badTabs : List Nat
  paused : Nat
  endT : Nat
  ended : Bool
  stall : Nat
  lateness : Nat
deriving DecidableEq, Repr

/-- A gradient region (R179): its range, its entries as FP32 words that are not +0, and its counts. -/
structure Grad where
  ctx : Nat
  seq : Nat
  layerFirst : Nat
  layers : Nat
  posFirst : Nat
  positions : Nat
  entries : List (Nat × Nat)
  count : Nat
  poisoned : Bool
  segs : List Nat
  /-- GRAD_CLOSE descriptors that wait for admitted records, in the order of acceptance (R182): fn, sq, index, keep, dest. -/
  closing : List (Nat × Nat × Nat × Bool × Nat)
deriving DecidableEq, Repr

/-- An entry of the operand store: key (page × 16 + block, 8 for the summary area), bytes, and whether the sweep on the
Casement pins it; most recently used last (R202). -/
structure StoreEnt where
  page : Nat
  blk : Nat
  bytes : Nat
  pinned : Bool
deriving DecidableEq, Repr

/-- An entry of the table cache (R201): a page, the bytes of its header, index and accord tables, and those tables as they
were read where they are not the stored ones. The least recently used is first. -/
structure TabEnt where
  page : Nat
  bytes : Nat
  read : Option (List Byte)
deriving DecidableEq, Repr

/-- The Casement of a die, its atomizers and operand store, and the records and sweeps it holds (chapters 04 to 06). -/
structure Casement where
  held : List Held
  /-- Sweeps in admission order; the first that has started and not ended holds the Casement. -/
  sweeps : List Sweep
  /-- Sums over sweeps whose last result was issued in the present tick (R41). -/
  sumActual : Nat
  sumEst : Nat
  /-- The instant from which the Casement is free for the next sweep: the latest sweep emitted its last tile, or a pause of
  the die ended (R33). -/
  freeT : Nat
  lastCtx : Nat
  ranAny : Bool
  injPane : Nat
  injAtm : Nat
  /-- Panes and atomizers returned by an unfence while a sweep runs: they take work from the next one on (R148). -/
  paneBack : Nat
  atmBack : Nat
  /-- Panes and atomizers to be fenced at their next tile or block boundary. -/
  paneFence : Nat
  atmFence : Nat
  grads : List (Nat × Grad)
  store : List StoreEnt
  tables : List TabEnt
  /-- Rebuild tasks: page, step 1 to 3, atomizer charged (R209). -/
  rebuilds : List (Nat × Nat × Nat)
  coded : Nat
  rawBytes : Nat
  plain : Nat
  /-- Tick at which the die's Casement last was busy, for R503. -/
  idleTicks : Nat
  fencedAll : Bool
  /-- Serial number of the latest sweep admitted (R120). -/
  serial : Nat
deriving DecidableEq, Repr

def Casement.init : Casement :=
  ⟨[], [], 0, 0, 0, 0, false, 0, 0, 0, 0, 0, 0, [], [], [], [], 0, 0, 0, 0, false, 0⟩

/-- A flash location (R264). -/
structure FLoc where
  band : Nat
  sector : Nat
  count : Nat
deriving DecidableEq, Repr

/-- Kinds of band (R261). -/
inductive BandKind where
  | park | spill | gc | meta_ | journal
deriving DecidableEq, Repr

/-- Where a band stands in garbage collection (R281). -/
inductive GcSt where
  | none_ | victim | copying | erasing
deriving DecidableEq, Repr

/-- A band (R260 to R263): kind, namespace, JSEQ of its BAND record, members by ascending channel as (channel, LUN,
block), write pointer, pages programmed in stripes whose parity has not passed (stripe × 64 + member), and stripes whose parity
has passed. Of a JOURNAL band the write pointer counts slot pairs (R274), and `last` is the highest JSEQ of a page in it. -/
structure Band where
  kind : BandKind
  ns : Nat
  seq : Nat
  members : List (Nat × Nat × Nat)
  wp : Nat
  closed : Bool
  gc : GcSt
  done : List Nat
  par : List Nat
  last : Nat
deriving DecidableEq, Repr

/-- A member that was ever used: erase count, whether it is retired, whether a band holds it, reads since its last erase
and its read-retry start entry (R260, R272, R295). -/
structure Member where
  erases : Nat
  bad : Bool
  inUse : Bool
  reads : Nat
  start : Nat
deriving DecidableEq, Repr

/-- What a checkpoint holds (R279): the journal sequence it covers, the band table, the members with their erase counts and
states (the grown-bad list among them), and the durable objects as (KIND, OBJECT, location), NSKEY objects included. -/
structure CkptBody where
  jseq : Nat
  bands : List (Nat × Band)
  members : List (Nat × Member)
  objs : List (Nat × Nat × FLoc)
deriving DecidableEq, Repr

/-- An anchor (R279): its serial, the checkpoint's JSEQ and location, and the first journal page after it, by band and slot
pair. -/
structure Anchor where
  serial : Nat
  jseq : Nat
  loc : FLoc
  band : Nat
  pair : Nat
deriving DecidableEq, Repr

/-- Contents of a flash object (R259). JOURNAL and ANCHOR objects stand in `jpages` and `anchors`. -/
inductive FData where
  | page (p : Page)
  | chunk (c : Chunk)
  | mapv (e : SeqSlot)
  | ckpt (b : CkptBody)
  /-- An NSKEY object of a namespace (0xFF: the die's DMK) and generation: its key, none when DESTROYED (R437). -/
  | nskey (ns gen : Nat) (key : Option Nat)
  | parity (band stripe : Nat)
deriving DecidableEq, Repr

/-- Progress of a flash object: its source is being read, its pages are being programmed, its destination is being read
back (R281), or its programs have passed. -/
inductive FSt where
  | reading | programming | verifying | passed
deriving DecidableEq, Repr

/-- A flash object (R259). `left` lists the NAND pages still to program, as stripe × 64 + member; `reads` the sectors still
to read; `src` is the source of a relocation; `jseq` is that of its record, 0 before it is appended. -/
structure FObj where
  kind : Nat
  obj : Nat
  ns : Nat
  gen : Nat
  loc : FLoc
  st : FSt
  left : List Nat
  reads : List Nat
  src : Option FLoc
  data : FData
  jseq : Nat
  durable : Bool
  /-- Epoch at which its write began: until its programs have passed, the write of a page is a holder (R92, R247). -/
  epoch : Nat
  /-- A relocation off a fenced channel: at the priority of rebuilds (R304). -/
  urgent : Bool
deriving DecidableEq, Repr

/-- What the PAGE record of a page says of it beside its location (R276). -/
structure PageRec where
  ctx : Nat
  layer : Nat
  format : Nat
  posBase : Nat
  bytes : Nat
  origin : Nat
  fill : Nat
  tail : Bool
deriving DecidableEq, Repr

/-- What a journal record says (R276). -/
inductive JWhat where
  | pad
  | page (id : Nat) (p : PageRec) (loc : FLoc)
  | chunk (id ctx : Nat) (loc : FLoc)
  | mapv (seq ctx : Nat) (parked : Bool) (version : Nat) (loc : FLoc)
  | reloc (kind obj : Nat) (src dst : FLoc)
  | retire (ch lun block cause erases : Nat)
  | band (num op : Nat) (kind : BandKind) (members : List (Nat × Nat × Nat))
  | free (kind obj : Nat) (loc : FLoc)
  | seq (q ctx : Nat) (parked freed : Bool)
  /-- The location is that of the NSKEY object; a DESTROYED record has none. -/
  | nskey (gen : Nat) (destroyed : Bool) (loc : Option FLoc)
  | ckpt (n : Nat) (loc : FLoc) (jseq : Nat)
  | parity (band stripe : Nat) (loc : FLoc)
deriving DecidableEq, Repr

/-- A journal record (R275). -/
structure JRec where
  jseq : Nat
  ns : Nat
  what : JWhat
deriving DecidableEq, Repr

/-- A journal page in flight (R274): its number, records and the PAD records that follow them, its slot pair, and which of its two
programs have passed. -/
structure JPage where
  no : Nat
  recs : List JRec
  pads : Nat
  band : Nat
  pair : Nat
  okA : Bool
  okB : Bool
deriving DecidableEq, Repr

/-- What a LUN works on (R286): the program of a page of a band, by stripe and member, a member's erase in the erase of a band, or
an anchor. -/
inductive FOp where
  | prog (band stripe member : Nat)
  | erase (band : Nat)
  | anchor
deriving DecidableEq, Repr

/-- What holds a die's flash: nothing; a supply warning, which suspends programs and erases (R506); a power-loss warning, under which
the programs in progress and the journal end (R288); the module's ERROR, which stops every channel (R434). -/
inductive FHold where
  | free | warn | loss | error
deriving DecidableEq, Repr

/-- A parked structure to write. -/
inductive FItem where
  | page (id : Nat)
  /-- A page that the edit changed: written though an older copy of it is durable (R218, R220). -/
  | fresh (id : Nat)
  | chunk (id : Nat)
  | mapv (seq : Nat)
  | class_ (seq : Nat) (parked : Bool)
deriving DecidableEq, Repr

/-- An edit, a class change or a spill that writes to flash (R220, R224, R235): the descriptor it completes, if any, what
is still to be written, the JSEQ its completion waits for, its result words, whether it writes objects and so holds the epoch at
which it began (R92, R247). -/
structure DTask where
  desc : Option (Nat × Nat × Nat)
  seq : Nat
  ns : Nat
  band : BandKind
  todo : List FItem
  jwait : Nat
  sectors : Nat
  r0 : Option Nat
  r1 : Nat
  reads : Bool
  epoch : Nat
deriving DecidableEq, Repr

/-- States of a channel (R300). -/
inductive ChSt where
  | home | twinRo | returning | fenced
deriving DecidableEq, Repr

/-- The flash of a die (chapter 08). -/
structure Ftl where
  /-- Channels not in HOME. -/
  chans : List (Nat × ChSt)
  /-- Channels out of service under R255. -/
  outCh : List Nat
  /-- Instants of recent channel errors, by channel (R304). -/
  chErr : List (Nat × List Nat)
  bands : List (Nat × Band)
  members : List (Nat × Member)
  objs : List FObj
  jseq : Nat
  /-- Records appended and not yet in a page, and T_ns of the first (R277). -/
  jpend : List JRec
  jpendT : Nat
  jpages : List JPage
  /-- Durable records since the checkpoint, oldest first; JSEQ below which everything is durable. -/
  jlog : List JRec
  jdur : Nat
  /-- Journal bytes and T_ns since the last checkpoint (R279). -/
  ckptBytes : Nat
  ckptT : Nat
  ckptNo : Nat
  ckptRun : Bool
  /-- The anchors last written, by channel (R279); the one being written; serials given. -/
  anchors : List (Nat × Anchor)
  anchorRun : Option Anchor
  anchorNo : Nat
  /-- Journal pages numbered so far. -/
  jpageNo : Nat
  tasks : List DTask
  /-- Objects (kind, identifier) queued for refresh (R273), or, with true, to leave a fenced channel (R304). -/
  refresh : List (Nat × Nat × Bool)
  inject : Bool
  hold : FHold
  lostTail : Bool
  /-- Bands whose partial parity was written in this power-loss warning (R288). -/
  parNow : List Nat
  /-- What each LUN works on (channel × 16 + LUN), and how often reads have suspended it (R286). -/
  lun : List (Nat × FOp × Nat)
  /-- Channel time of the last ticks in ns, the present one first: all but hint staging, and garbage collection (R240, R286). -/
  util : List (Nat × Nat)
  /-- The parameter pages of the LUNs (R255). -/
  luns : List LunPage
  /-- Thresholds of R296 that have been crossed, and occurrences not yet posted, by code; codes posted in this tick. -/
  crossed : List Nat
  occur : List (Nat × Nat)
  posted : List Nat
  /-- Patrol: band and sector last read, start of the pass, sectors read in the pass (R294). -/
  patBand : Nat
  patStripe : Nat
  patT : Nat
  patRead : Nat
  /-- Patrol reads of the last 24 hours as (T_ns, codewords read, those that needed step 2 or later) (R296). -/
  cwLog : List (Nat × Nat × Nat)
  /-- READ_RETRY pinned in this tick (R272). -/
  pinned : Bool
  /-- Durable copies that were freed or replaced, until the record that does so is durable (R278). -/
  ghosts : List FObj
  /-- Garbage collection runs until free bands reach HIGH (R280). -/
  gcOn : Bool
  /-- Bands of a destroyed namespace generation that are still to be erased, each with the generation (R270). -/
  dead : List (Nat × Nat)
  /-- Members that reached their read-disturb limit and are to be patrolled at once (R295). -/
  disturb : List Nat
  /-- Parked sequences have been restored since replay (R293). -/
  restored : Bool
deriving DecidableEq, Repr

def Ftl.init : Ftl :=
  { chans := [], outCh := [], chErr := [], bands := [], members := [], objs := [], jseq := 0, jpend := [], jpendT := 0,
    jpages := [], jlog := [], jdur := 0, ckptBytes := 0, ckptT := 0, ckptNo := 0, ckptRun := false, anchors := [],
    anchorRun := none, anchorNo := 0, jpageNo := 0, tasks := [], refresh := [], inject := false, hold := .free,
    lostTail := false, parNow := [], lun := [], util := [], luns := [], crossed := [], occur := [], posted := [],
    patBand := 0, patStripe := 0, patT := 0, patRead := 0, cwLog := [], pinned := false, ghosts := [], gcOn := false, dead := [],
    disturb := [], restored := false }

/-- A replica entry (R250). `segs` are the segments of a holding die that are charged to the
context. -/
structure Replica where
  kind : Nat
  die : Nat
  key : Nat
  off : Nat
  bytes : Nat
  chunk : Nat
  ctx : Nat
  segs : List Nat
deriving DecidableEq, Repr

/-- An accepted prefetch hint (R238 to R244). After HINT_MET it stays until its HELD period ends; `release` is the tick
at which it does, 0 before. -/
structure Hint where
  seq : Nat
  ctx : Nat
  tag : Nat
  deadline : Nat
  unpark : Bool
  pages : List Nat
  met : Bool
  missed : Bool
  release : Nat
  /-- Tick of acceptance, and the port that posted it (R347). -/
  accTick : Nat
  port : Nat
  /-- STG_HINT.HOLD in force at acceptance (R253). -/
  hold : Nat
deriving DecidableEq, Repr

/-- A staging task (R245): the page it brings in, its priority, and its new frame and list slot once allocated. -/
structure StgTask where
  page : Nat
  prio : Nat
  segs : List Nat
  list : Nat
  /-- T_ns at which the task started (R540). -/
  startT : Nat
  /-- Whether a remote read of the replica was sent, and what it ended with: a status and the bytes (R250). -/
  sent : Bool
  got : Option (Nat × List Byte)
  /-- FLASH_LOC of the die's own copy that it reads; 0 for another (R283). -/
  src : Nat
deriving DecidableEq, Repr

/-- An export over the fabric whose messages have not all been answered (R249): its descriptor, messages left, the entry it
makes, whether it makes one, and the epoch of its holder (R247). -/
structure ExportJob where
  fn : Nat
  sq : Nat
  index : Nat
  left : Nat
  entry : Replica
  keep : Bool
  epoch : Nat
deriving DecidableEq, Repr

/-- An import that is running (R251): its descriptor, context and source, what of the image has been read (header and tokens,
page table, page images), and whether the source is kept as the chunk's replica. -/
structure ImportJob where
  fn : Nat
  sq : Nat
  index : Nat
  part : Nat
  ctx : Nat
  keep : Bool
  key : Nat
  off : Nat
  bytes : Nat
  head : List Byte
  table : List Byte
  imgs : List (List Byte)
deriving DecidableEq, Repr

/-- Residency state of a die (chapter 07). -/
structure Staging where
  pins : List (Nat × Pin)
  replicas : List (Nat × Replica)
  /-- Images that exports without REPLICA wrote to other dies: no table entry names them, and their frames stay charged (R227,
  R249). -/
  loose : List Replica
  hints : List Hint
  tasks : List StgTask
  /-- Pages whose heat was raised in the present tick (R232). -/
  heated : List Nat
  /-- PLACEMENT held at its bounds in this tick (R236). -/
  pinnedTick : Bool
  exports : List ExportJob
  imports : List ImportJob
deriving DecidableEq, Repr

def Staging.init : Staging := ⟨[], [], [], [], [], [], false, [], []⟩

/-- State of a removal log entry (R446). -/
inductive RmSt where
  | removing | erasePending | done
deriving DecidableEq, Repr

/-- A tenant removal: its log entry (R446) and its progress through the steps of R424. `dies` are bits; `writer` is the
function that writes the report (16 + port for the PF) and `dest` the address, 0 for none; `steps` are the BEGIN and END of
the steps begun. `metaBands` are the META bands (die, band) that step 5 erases; `scrub`, `destroy` and `erase` are the dies
still to be scrubbed, to have the key destroyed, and to raise CRYPTO_ERASED (R428). -/
structure Removal where
  st : RmSt
  oldGen : Nat
  dies : Nat
  accepted : Nat
  durable : Bool
  operator : Bool
  desc : Option (Nat × Nat × Nat)
  writer : Nat
  dest : Nat
  step : Nat
  steps : List (Nat × Nat)
  records : Nat
  descs : Nat
  bands : Nat
  partial_ : Bool
  metaBands : List (Nat × Nat)
  scrub : List Nat
  destroy : List Nat
  erase : List Nat
deriving DecidableEq, Repr

/-- A report of R449 as served over the management path: TOTAL bytes of report and certificates (R496). -/
structure MgmtReport where
  part : Nat
  certs : Bool
  nonce : List Byte
  bytes : List Byte
deriving DecidableEq, Repr

/-- A copy of the module record area (R446): sequence number, last accepted owner and CAK counters, FW_SELECT, recorded mode, tenant keys,
CAKs by die, and the removal log: state, OLD_GEN, DIES and ACCEPTED of a partition's entry. The tag over it, and the certificate in it,
are free bytes of the module. -/
structure RecCopy where
  seq : Nat
  ownerCtr : Nat
  cakCtr : List (Nat × Nat)
  fwSel : Nat
  mode : Bool
  tenants : List (Nat × List Byte)
  caks : List (Nat × Nat)
  log : List (Nat × RmSt × Nat × Nat × Nat)
deriving DecidableEq, Repr

/-- The cryptographic module (chapter 12). `gens` are the namespace generations in force, `keys` the keys held in engine key
slots (namespace p at p, the DMK of die d at 256 + d), `lastDead` the last destroyed generation of a namespace; `rms` the
removals by partition. From the module record area (R446): the tenant keys, the last accepted owner and CAK counters, the slot
of FW_SELECT, the recorded mode. `slots` are the images of SPI NOR slots A and B; `running` is the image that booted;
`owner` numbers the owner keys fused. -/
structure Sec where
  gens : List (Nat × Nat)
  keys : List (Nat × Nat)
  lastDead : List (Nat × Nat)
  rms : List (Nat × Removal)
  tenants : List (Nat × List Byte)
  ownerCtr : Nat
  cakCtr : List (Nat × Nat)
  fwSel : Nat
  mode : Bool
  slots : List (Nat × FwImage)
  running : Option FwImage
  reports : List MgmtReport
  /-- The two copies of the module record area, by number (R442, R446). -/
  copies : List (Nat × RecCopy)
  /-- OWNER_HASH: digests of the owner keys, by fuse slot (R439). -/
  ownerHash : List (Nat × List Nat)
  /-- META bands (die, band) whose erase the running ZEROIZE waits for (R455). -/
  zeroBands : List (Nat × Nat)
deriving DecidableEq, Repr

def Sec.init : Sec := ⟨[], [], [], [], [], 0, [], 0, false, [], none, [], [], [], []⟩

/-- State of an inbox entry (R380). -/
inductive InEnt where
  | free | filling (src msg : Nat) | ready | admitted
deriving DecidableEq, Repr

/-- States of a key table entry (R366). -/
inductive KeySt where
  | free | valid | dead
deriving DecidableEq, Repr

/-- A key table entry (R366, R368) with the region's contents (unlisted bytes are 0: R368) and, for an INBOX region, the
states of its entries. `gen` counts the entry's revocations since its generation was set or scrubbed (R371). `old` is the key that was revoked, while the region waits for its scrub. -/
structure Region where
  st : KeySt
  gen : Nat
  inbox : Bool
  ctx : Nat
  rights : Nat
  bytes : Nat
  entryLog2 : Nat
  srcMatch : Nat
  srcMask : Nat
  ctrBase : Nat
  ctrCount : Nat
  segs : List Nat
  data : List (Nat × Byte)
  ents : List (Nat × InEnt)
  old : Nat
deriving DecidableEq, Repr

def Region.init : Region := ⟨.free, 0, false, 0, 0, 0, 0, 0, 0, 0, 0, [], [], [], 0⟩

/-- A reassembly context (R361): the message's header, the address it came from, the packets covered, the arrivals that
R363 counts as (packet index, path, RETX, T_ns), the payload of a held FENCE packet with the instant it was held, the
instant of the latest SNACK, whether a packet was marked CE, whether an injected drop hit it, and PATH_TMO, LINGER and
HOLD_TMO as they were when the message started (R387). -/
structure Rx where
  hdr : NrtHdr
  from_ : Nat
  cover : List Nat
  arrivals : List (Nat × Nat × Bool × Nat)
  held : Option (List Byte × Nat)
  snackT : Nat
  ce : Bool
  injected : Bool
  cls : Nat
  pathTmo : Nat
  linger : Nat
  holdTmo : Nat
deriving DecidableEq, Repr

/-- An entry of the filter of answered messages (R362). -/
structure Answered where
  src : Nat
  msg : Nat
  from_ : Nat
  hdr : NrtHdr
  status : Nat
  ce : Bool
  t : Nat
  sentT : Nat
  linger : Nat
  pathTmo : Nat
deriving DecidableEq, Repr

/-- What a message of the part is for, and so what its outcome completes: the output block of record `i` of a sweep or a status
entry of a result, an
armed request (with its descriptor), or nothing that the part waits for. -/
inductive TxFor where
  | output (sweep i : Nat)
  | status
  | armed (fn sq index : Nat) (b : ArmBody)
  | exported (fn sq index : Nat)
  /-- The read of a staging task, by its page and start: of the replica's page table when `table`, else of the page image. -/
  | staged (page start : Nat) (table : Bool)
  /-- A read of an import (R251). -/
  | imported (fn sq index : Nat)
  | none_
deriving DecidableEq, Repr

/-- A message of the part that has no outcome yet (R356, R358, R364). `bytes` are the message's bytes;
of a read that goes to no region, those received so far. `from_` is the local region and offset they come from or, for a read, go to. `sent` are resends by packet index. -/
structure Tx where
  msg : Nat
  peer : Nat
  hdr : NrtHdr
  bytes : List Byte
  from_ : Option (Nat × Nat)
  use : TxFor
  kind : FKind
  sent : List (Nat × Nat)
  tmo : Nat
  lastT : Nat
  lastPath : Nat
  retry : Nat
  ackTmo : Nat
  minRate : Nat
deriving DecidableEq, Repr

/-- A remote read that the port serves (R358). -/
structure Serve where
  src : Nat
  msg : Nat
  from_ : Nat
  hdr : NrtHdr
  cls : Nat
  t : Nat
deriving DecidableEq, Repr

/-- A work request on a QP that has not been acknowledged: its packets in PSN order, what it is for, and its retries. -/
structure QpSend where
  pkts : List (RoceHdr × List Byte)
  use : TxFor
  kind : FKind
  from_ : Option (Nat × Nat)
  /-- Bytes received so far of a read that goes to no region. -/
  got : List Byte
  /-- Response packets of a read that have come, in order. -/
  next : Nat
deriving DecidableEq, Repr

/-- A queue pair (R383, R384): numbers, sequence numbers, error state, the message being received (its RETH, bytes taken
and whether it is an RDMA READ of this port), what is sent and not acknowledged, and retries in a row. -/
structure Qp where
  qpn : Nat
  remote : Nat
  sendPsn : Nat
  recvPsn : Nat
  mtu : Nat
  err : Bool
  cur : Option (RoceHdr × Nat)
  curT : Nat
  sends : List QpSend
  tmo : Nat
  lastT : Nat
deriving DecidableEq, Repr

/-- A peer table entry (R372): address (IPv4 when `v4`), paths, PEER_ID, send rate in kb/s with the instants of its latest
fall and latest rise or congestion (R374), consecutive timeouts by path, and paths left out of spraying since when (R385).
RoCEv2 peers have a queue pair. -/
structure Peer where
  roce : Bool
  v4 : Bool
  addr : Nat
  paths : Nat
  id : Nat
  rate : Nat
  fallT : Nat
  calmT : Nat
  tmos : List (Nat × Nat)
  down : List (Nat × Nat)
  failed : Nat
  qp : Option Qp
deriving DecidableEq, Repr

/-- A counter wait (R377): descriptor, counter, threshold, and the tick at which it fails, 0 for none. -/
structure CtrWait where
  fn : Nat
  sq : Nat
  index : Nat
  ctr : Nat
  thresh : Nat
  endTick : Nat
deriving DecidableEq, Repr

/-- An unfired armed request (R378). -/
structure Armed where
  fn : Nat
  sq : Nat
  index : Nat
  body : ArmBody
deriving DecidableEq, Repr

/-- A KEY_REVOKE that waits for placements of packets checked before its revocation point (R369): the key revoked and the result
words. -/
structure RevokeWait where
  fn : Nat
  sq : Nat
  index : Nat
  key : Nat
  r0 : Nat
  r1 : Nat
deriving DecidableEq, Repr

/-- NRT on the port of a die (chapter 10). Unlisted key table entries are FREE of generation 0; unlisted counters are 0. -/
structure Nrt where
  keys : List (Nat × Region)
  rx : List Rx
  filter : List Answered
  tx : List Tx
  nextMsg : Nat
  serves : List Serve
  peers : List (Nat × Peer)
  /-- Remote key bindings: key to peer entry. -/
  binds : List (Nat × Nat)
  ctrs : List (Nat × Nat)
  waits : List CtrWait
  armed : List Armed
  revokes : List RevokeWait
  inject : Bool
  /-- Occurrences not yet posted by event code, codes posted in this tick, and the last key and source rejected (R385). -/
  occur : List (Nat × Nat)
  posted : List Nat
  lastKey : Nat
  lastSrc : Nat
  /-- The peer of the latest PEER_UNREACHABLE occurrence (R385). -/
  lastPeer : Nat
  /-- FABRIC_RATE raised ADAPT_PINNED in this tick (R374). -/
  pinned : Bool
  /-- Draw from which the generations of the key table were set when it was placed, and scrubs since (R371). -/
  genSeed : Nat
  genAdd : Nat
deriving DecidableEq, Repr

def Nrt.init : Nrt := ⟨[], [], [], [], 0, [], [], [], [], [], [], [], false, [], [], 0, 0, 0, false, 0, 0⟩

/-- A frame in a transmit queue (R395): IPv4 or IPv6, address, contents, kind, bytes under R398, instant of its enqueue, and whether its
gate has held it (R401). -/
structure QFrame where
  v4 : Bool
  addr : Nat
  pkt : Packet
  bytes : Nat
  enqT : Nat
  deferred : Bool
  idle : Nat
  shaped : Bool
  limit : Nat
  dscp : Nat
deriving DecidableEq, Repr

/-- A traffic class (R395, R398): its queue, its credit in 1/16000 byte, and the instant up to which the credit counts, in
1/200 ns. -/
structure TcQueue where
  frames : List QFrame
  credit : Int
  upTo : Nat
deriving DecidableEq, Repr

def TcQueue.init : TcQueue := ⟨[], 0, 0⟩

/-- A shutter list (R400): entries of gate bits and interval, and CYCLE. -/
structure Shutter where
  entries : List (Nat × Nat)
  cycle : Nat
deriving DecidableEq, Repr

/-- A policer (R406, R407): enabled, key table entry, RATE, BURST, and its bucket in 1/800 byte at an instant. -/
structure Policer where
  en : Bool
  entry : Nat
  rate : Nat
  burst : Nat
  bucket : Nat
  t : Nat
deriving DecidableEq, Repr

def Policer.init : Policer := ⟨false, 0, 0, 0, 0, 0⟩

/-- A receive SA (R390, R392): association number and the next packet number. -/
structure RxSa where
  an : Nat
  next : Nat
deriving DecidableEq, Repr

/-- The fabric port of a die (chapter 11). -/
structure Lnk where
  tcs : List (Nat × TcQueue)
  /-- The medium is busy until this instant, in 1/200 ns. -/
  busy : Nat
  shut : Shutter
  /-- Committed list and the instant of its first cycle. -/
  pend : Option (Shutter × Nat)
  entry : Nat
  entryT : Nat
  policers : List (Nat × Policer)
  /-- The installed CAK's draw, live MKA peers, transmit SA (association, whether installed) and its next packet number,
  receive SAs, a SAK that waits for the peer, and the instant of the latest SAK. -/
  cak : Option Nat
  mkaPeers : List Nat
  /-- Live peers that rank before the part as key server, KS_PRIO in force, and whether a SAK was asked for and has not come (R390). -/
  mkaServers : List Nat
  ksPrio : Nat
  asked : Bool
  txAn : Nat
  txSa : Bool
  txPn : Nat
  rxSas : List RxSa
  /-- SAKs installed so far, and the number of that under which the port transmits. -/
  sakNo : Nat
  txSak : Nat
  rekey : Option Nat
  sakT : Nat
  /-- REKEY_S, REKEY_LOG2 and REPLAY_WIN in force for the present SAK (R411). -/
  rekeyS : Nat
  rekeyLog2 : Nat
  replayWin : Nat
  /-- Lanes that work, as bits. -/
  lanes : Nat
deriving DecidableEq, Repr

def Lnk.init : Lnk :=
  { tcs := [], busy := 0, shut := ⟨[(0xFF, 100000)], 100000⟩, pend := none, entry := 0, entryT := 0, policers := [],
    cak := none, mkaPeers := [], mkaServers := [], ksPrio := 0x80, asked := false, txAn := 0, txSa := false, txPn := 1, rxSas := [], sakNo := 0, txSak := 0, rekey := none, sakT := 0,
    rekeyS := 0xE10, rekeyLog2 := 0x30, replayWin := 0, lanes := 0xFF }

/-- A partition (chapters 02, 09, 12): whether its tick generator runs, the period and slots in force and those that
wait (R595), its outstanding descriptors in acceptance order, the package event bits newly set for it, and its contexts. -/
structure Part where
  genOn : Bool
  /-- TIK_PERIOD.N and SLOTS in force. -/
  perN : Nat
  perSlots : Nat
  /-- A change of N or SLOTS waits (R595). -/
  pendPer : Bool
  /-- Slot boundary last taken, as T_ns. -/
  slotT : Nat
  outst : List Outst
  evPkg : List (Nat × Nat)
  ctxs : List (Nat × Ctx)
  /-- Gradient regions discarded with a die and not yet closed, as (context, number) (R184). -/
  lostGrads : List (Nat × Nat)
  /-- A SEAL was accepted and its NSKEY objects are not all durable (R420). -/
  sealing : Bool
  /-- A partition reset waits for the next slot boundary (R517). -/
  resetDue : Bool
deriving DecidableEq, Repr

def Part.init : Part := ⟨false, 2, 2, false, 0, [], [], [], [], false, false⟩

/-- A task of the wickets (R124, R462, R569): whether it is a stage 2 plan task, whether it reads a frame (R92), the descriptor
(fn, sq, index) or the sweep that issued it, its restarts, and the epoch its holder opened in. -/
structure WTask where
  plan : Bool
  reads : Bool
  desc : Option (Nat × Nat × Nat)
  sweep : Option Nat
  restarts : Nat
  epoch : Nat
  /-- T_ns at which it started. -/
  startT : Nat
deriving DecidableEq, Repr

/-- The wickets of a die (R569): its 32 cluster queues, head first, and the task of each busy wicket. -/
structure Wkt where
  queues : List (Nat × List WTask)
  running : List (Nat × WTask)
  /-- Tasks of producers that found their cluster's queue full, in order. -/
  waits : List (Nat × WTask)
deriving DecidableEq, Repr

def Wkt.init : Wkt := ⟨[], [], []⟩

/-- A programmable counter (R526): its live value, PMC_EVSEL in force and as written, and the value of the latest snapshot. -/
structure PmcCtr where
  live : Nat
  sel : Nat
  next : Nat
  snap : Nat
deriving DecidableEq, Repr

def PmcCtr.init : PmcCtr := ⟨0, 0, 0, 0⟩

/-- A histogram unit (R539): PMC_HCFG and PMC_HBASE in force and as written, and what it captured. -/
structure PmcHist where
  cfg : Nat
  base : Nat
  nextCfg : Nat
  nextBase : Nat
  lo : Nat
  hi : Nat
  count : Nat
  sum : Nat
  bins : List (Nat × Nat)
deriving DecidableEq, Repr

def PmcHist.init : PmcHist := ⟨0, 0, 0, 0, 0xFFFFFFFF, 0, 0, 0, []⟩

/-- Counters, windows, histograms and the counter page of a partition (R533). Counters are keyed die × 16 + n, windows (bytes
now, LAST, PEAK) die × 16 + port, histograms die × 4 + unit, sillage records by ring index; `lfsr` by die (R535). -/
structure Pmc where
  snapSeq : Nat
  snapTick : Nat
  snapNs : Nat
  ovf : Nat
  traceWrite : Nat
  traceRead : Nat
  traceDrops : Nat
  windows : Nat
  ctrs : List (Nat × PmcCtr)
  wins : List (Nat × (Nat × Nat × Nat))
  hists : List (Nat × PmcHist)
  ring : List (Nat × List Byte)
  lfsr : List (Nat × Nat)
deriving DecidableEq, Repr

def Pmc.init : Pmc := ⟨0, 0, 0, 0, 0, 0, 0, 0, [], [], [], [], []⟩

/-- A row of the unit-state table (R473), with what settles disputes and tests: the unit is in TESTING or, for a die, LOST
or PASSED its test since its reset; the instant of a dispute settled by a pass (R478), the tick of its latest UNIT_STATE event
(R493), the instant of a REPORT_UNIT that waits to be repeated (R496), the code of its latest failed test (R557), and the
descriptor of a UNIT_TEST that waits (R491). -/
structure UnitRow where
  data : Nat
  mgmt : Nat
  cause : Nat
  faults : Nat
  disputes : Nat
  changed : Nat
  testing : Bool
  lost : Bool
  passed : Bool
  passT : Option Nat
  postTick : Option Nat
  reportT : Option Nat
  code : Nat
  desc : Option (Nat × Nat × Nat)
  /-- A self-test of the unit runs. -/
  due : Bool
  /-- The management path has reported while it runs (R551). -/
  midTest : Bool
deriving DecidableEq, Repr

def UnitRow.init : UnitRow := ⟨0, 0, 0, 0, 0, 0, false, false, false, none, none, none, 0, none, false, false⟩

/-- A ledger entry frozen with a lost die (R480, R482): the record, the tick in which it was admitted with its sweep, and
whether its sequence was parked. -/
structure LedgerEnt where
  held : Held
  adm : Option (Nat × Nat × Nat)
  parked : Bool
deriving DecidableEq, Repr

/-- What a lost die leaves behind (R482 to R488): its partition and ledger die, the ledger entries not yet completed, the
descriptors that wait for event 3, pins discarded, the new home of each context, and whether events 3 and 4 have run. -/
structure Loss where
  die : Nat
  part : Nat
  ledgerDie : Option Nat
  ledger : List LedgerEnt
  descs : List (Nat × Nat × Nat)
  pins : Nat
  homes : List (Nat × Nat)
  rehomed : Bool
  /-- DIE_ASSIGN descriptor that waits for event 7. -/
  assign : Option (Nat × Nat × Nat)
  /-- Images of the die's chunks that surviving dies hold: replica entry, chunk record, with the chain of its parent in place of its number, and pages (R484). -/
  images : List (Replica × Chunk × List Page)
  /-- Its live sequences, with their contexts (R484, R492). -/
  seqs : List (Nat × Nat)
  /-- Instant of its detection (R487). -/
  t : Nat
deriving DecidableEq, Repr

/-- Uncorrectable reads of a die not yet posted (R493): memory, stack or link, occurrences and address; and whether MEM_UE
was posted in the present tick. -/
structure UeOcc where
  mem : Nat
  unit : Nat
  count : Nat
  addr : Nat
  posted : Bool
deriving DecidableEq, Repr

def UeOcc.init : UeOcc := ⟨0, 0, 0, 0, false⟩

/-- The always-on state of chapter 13: rows keyed kind × 2²⁴ + die × 2¹⁶ + index, losses not yet recovered, sequences lost by
each partition's latest adoption, the ledger size in force by die, retired segments, lines corrected in the scrub pass by
(die, segment), restarts of the running tasks, and the rows that RAS_UNIT_ROW1 to 3 have latched. -/
structure Ras where
  units : List (Nat × UnitRow)
  losses : List Loss
  lossList : List (Nat × List (Nat × Nat))
  ledgerMib : List (Nat × Nat)
  retired : List (Nat × List Nat)
  corrected : List (Nat × List (Nat × Nat))
  ueT : List (Nat × List Nat)
  ue : List (Nat × UeOcc)
  latch : List Byte
  /-- Replays by UCIe link since its last good flit (R472), keyed die × 8 + other end. -/
  replays : List (Nat × Nat)
  /-- Instant at which a die began to mirror its ledger to another ledger die, after the loss of the one before (R480). -/
  moved : List (Nat × Nat)
deriving DecidableEq, Repr

def Ras.init : Ras := ⟨[], [], [], [], [], [], [], [], [], [], []⟩

/-- The monitor of a power domain (R505, R523): lowest voltage captured since MIN_CLR, whether it is in warning, T_ns of that
warning's first and latest qualification and the lowest voltage since, and the latest dip in units of 100 ns with its lowest voltage. -/
structure Dom where
  low : Nat
  warn : Bool
  warnT : Nat
  lastT : Nat
  cur : Nat
  dipDur : Nat
  dipLow : Nat
deriving DecidableEq, Repr

def Dom.init : Dom := ⟨0xFFFF, false, 0, 0, 0xFFFF, 0, 0⟩

/-- Power of the package: domain monitors (R505), a change of power state in progress by die, as state × 4 + cause (R504), dies
under a HOLD of the console (R550), the tick in which each die last raised ADAPT_PINNED for VOLTAGE, plus 1 (R512), T_ns at which
each die's warning was qualified and the instant from which its Casement is paused (R506, R509), T_ns at which PWR_LOSS_N was qualified (R587), whether a cold reset waits for it, whether dies wait
for PWR_LOSS_N to start (R587), and whether THERMTRIP_N is latched (R590). -/
structure Pwr where
  doms : List (Nat × Dom)
  target : List (Nat × Nat)
  hold : List Nat
  avsTick : List (Nat × Nat)
  pauseT : List (Nat × (Nat × Nat))
  lossT : Option Nat
  /-- A cold reset that waits, with the first self-test to fail at its boot, 0 for none. -/
  coldWait : Option Nat
  bootWait : Bool
  trip : Bool
  /-- Level of PPS_OUT (R580). -/
  pps : Bool
  /-- Dies whose admission starts again at the next tick edge of their partition (R20). -/
  waitTick : List Nat
  /-- Regulator enables that are high, as 8 × k + d: k is 0 for EN_DIE_d, 1 for EN_CAS_d, 2 for EN_FLP_d (R583). -/
  en : List Nat
  /-- T_ns at which the change of power state that a die has under way began (R584, R585). -/
  moveT : List (Nat × Nat)
  /-- Dies whose rails do not reach 90 % at the power-up under way, one bit each (R584). -/
  railBad : Nat
deriving DecidableEq, Repr

def Pwr.init : Pwr := ⟨[], [], [], [], [], none, none, false, false, false, [], [], [], 0⟩

/-- What the console runs until its self-tests end (R547, R551, R556): a unit's test; the tests of a die, with the units
left, the first code that was not PASS and the units that failed; a loop, with BITS, ERR and UNCORR of each lane it shows;
or the test of an UNFENCE. -/
inductive SvcRun where
  | test (kind die idx : Nat)
  | die (die : Nat) (left : List (Nat × Nat)) (first : Nat) (bad : List (Nat × Nat))
  | loop (kind die idx : Nat) (far : Bool) (lanes : List (Nat × Nat × Nat))
  | unfence (kind die idx : Nat)
deriving DecidableEq, Repr

/-- What the TAP makes of the package's pins (R559): the part's own levels, the boundary register's, or none. -/
inductive TapDrive where
  | normal | boundary | highz
deriving DecidableEq, Repr

/-- The service port (chapter 16): the rate that waits for the line to be idle, what the console runs, the patterns driven
(die × 16 + channel, byte) and FAR loops standing (R550), the log of R558, oldest first, as (tick, unit key, code), the
instruction the TAP holds with its boundary register, and the heartbeat level of R553. -/
structure Svc where
  baudNext : Option Nat
  run : Option SvcRun
  patterns : List (Nat × Nat)
  loops : List (Nat × Nat × Nat)
  log : List (Nat × Nat × Nat)
  tapIr : Nat
  boundary : List Bool
  drive : TapDrive
  beat : Bool
deriving DecidableEq, Repr

/-- The console at power-on; the TAP selects IDCODE (R559). -/
def Svc.init : Svc := ⟨none, none, [], [], [], 1, [], .normal, false⟩

/-- The state of the package. -/
structure State where
  /-- Commands that wait, first in first out. -/
  pending : List Instr
  /-- What the part has sent out, oldest first. -/
  out : List Emit
  /-- Counter of free values drawn (the model's own field). -/
  free : Nat
  variant : Variant
  /-- The register file: values by field key; a field at its reset value is not listed. -/
  regs : List (Nat × Nat)
  /-- Values still in force of fields whose write waits for a boundary (R594). -/
  force : List (Nat × Nat)
  /-- Event bits newly set in the present tick, by register offset (R338). -/
  evNew : List (Nat × Nat)
  clk : Clock
  parts : List (Nat × Part)
  fns : List (Nat × HostFn)
  csms : List (Nat × Casement)
  pfxs : List (Nat × Pfx)
  stgs : List (Nat × Staging)
  ftls : List (Nat × Ftl)
  nrts : List (Nat × Nrt)
  wkts : List (Nat × Wkt)
  lnks : List (Nat × Lnk)
  sec : Sec
  pmcs : List (Nat × Pmc)
  ras : Ras
  pwr : Pwr
  svc : Svc
  /-- HBM bytes the console wrote (R549), at die × 2³⁸ + address; an unlisted byte reads 0 (log entry 7). -/
  hbm : List Host.Cell
deriving DecidableEq, Repr

/-- Why the part would stop: no command of the spec makes it stop. -/
inductive Fault where
  /-- Never raised: kept so that the type names a reason. Safe. -/
  | halted
deriving DecidableEq, Repr

/-- A command the model does not give a meaning to. -/
inductive Refusal where
  /-- Raised by the dispatcher for a command without a meaning. Safe: the model stops. -/
  | notModelled (mnemonic : String)
deriving DecidableEq, Repr

/-- The part right after reset (R516): every register at its reset value, nothing configured. -/
def State.reset : State :=
  { pending := [], out := [], free := 0, variant := .n880, regs := [], force := [], evNew := [], clk := Clock.init,
    parts := [], fns := [], csms := [], pfxs := [], stgs := [], ftls := [], nrts := [], wkts := [], lnks := [],
    sec := Sec.init, pmcs := [], ras := Ras.init, pwr := Pwr.init, svc := Svc.init, hbm := [] }

end Sys2Proof.Machine
end

