-- ==== Sys2Proof/Machine/Ops.lean ====
section
/-!
DEFINITION. Sys2Proof/Machine/Ops.lean: the named operations over the state: register fields, event bits, time,
partitions and their dies, completion queues, completions and events (chapters 00, 02, 09, 17).
-/
namespace Sys2Proof.Machine

/-! ### The register file -/

/-- The value of field `F` of instance `i`. -/
def State.fget (s : State) (F : Fld) (i : Nat) : Nat := dget s.regs F.rst (F.key i)

/-- Field `F` of instance `i` set to the low bits of `v`. -/
def State.fset (s : State) (F : Fld) (i v : Nat) : State :=
  { s with regs := dset s.regs F.rst (F.key i) (v % 2 ^ F.w) }

/-- Whether a one-bit field is set. -/
def State.fbit (s : State) (F : Fld) (i : Nat) : Bool := s.fget F i != 0

/-- A one-bit field set from a Bool. -/
def State.fput (s : State) (F : Fld) (i : Nat) (b : Bool) : State := s.fset F i b.toNat

/-- `n` added to a count that saturates at its largest value (R151, R215, R350, R387, R575). -/
def State.fadd (s : State) (F : Fld) (i n : Nat) : State := s.fset F i (min (s.fget F i + n) (2 ^ F.w - 1))

/-- `v` stored, saturating at the largest value of the field. -/
def State.fsat (s : State) (F : Fld) (i v : Nat) : State := s.fset F i (min v (2 ^ F.w - 1))

/-- The larger of the field and `v` stored, saturating. -/
def State.fmax (s : State) (F : Fld) (i v : Nat) : State := s.fsat F i (max (s.fget F i) v)

/-- Field back at its reset value. -/
def State.frst (s : State) (F : Fld) (i : Nat) : State := s.fset F i F.rst

/-- Bit `k` of a bit-per-unit field. -/
def State.fbitAt (s : State) (F : Fld) (i k : Nat) : Bool := (s.fget F i).testBit k

/-- `v` with bit `k` set to `b`. -/
def setBit (v k : Nat) (b : Bool) : Nat :=
  if v.testBit k = b then v else if b then v + 2 ^ k else v - 2 ^ k

/-- Bit `k` of a bit-per-unit field set to `b`. -/
def State.fputAt (s : State) (F : Fld) (i k : Nat) (b : Bool) : State := s.fset F i (setBit (s.fget F i) k b)

/-- The value of a field that is in force: while a write waits for its boundary (R594), the earlier value (DESIGN CHOICE, log entry 11). -/
def State.inForce (s : State) (F : Fld) (i : Nat) : Nat := (tget s.force (F.key i)).getD (s.fget F i)

/-- A field written with effect at a later boundary: the value in force until then is kept (R594) (DESIGN CHOICE, log entry 11). -/
def State.fsetLater (s : State) (F : Fld) (i v : Nat) : State :=
  let old := s.inForce F i
  { (s.fset F i v) with force := tput s.force (F.key i) old }

/-- The waiting writes of the listed fields take effect (R594). -/
def State.applyForce (s : State) (keys : List Nat) : State :=
  { s with force := keys.foldl tdel s.force }

/-- What the part sends out. -/
def State.emit (s : State) (e : Emit) : State := { s with out := s.out ++ [e] }

/-- The next argument of a free value, and the counter advanced past it (DESIGN CHOICE, log entry 2). -/
def State.draw (s : State) : Nat × State := (s.free, { s with free := s.free + 1 })

/-- A sensor reading, which no rule computes (DESIGN CHOICE, log entry 60). -/
def State.sensed (s : State) (n : Nat) : Nat × State := let (k, s) := s.draw; (Config.sense k % 2 ^ n, s)

/-! ### Records of the state by index -/

def State.part (s : State) (p : Nat) : Part := dget s.parts Part.init p
def State.setPart (s : State) (p : Nat) (v : Part) : State := { s with parts := dset s.parts Part.init p v }
def State.modPart (s : State) (p : Nat) (f : Part → Part) : State := s.setPart p (f (s.part p))
def State.fn (s : State) (f : Nat) : HostFn := dget s.fns HostFn.init f
def State.setFn (s : State) (f : Nat) (v : HostFn) : State := { s with fns := dset s.fns HostFn.init f v }
def State.modFn (s : State) (f : Nat) (g : HostFn → HostFn) : State := s.setFn f (g (s.fn f))

def State.csm (s : State) (d : Nat) : Casement := dget s.csms Casement.init d
def State.modCsm (s : State) (d : Nat) (f : Casement → Casement) : State :=
  { s with csms := dset s.csms Casement.init d (f (s.csm d)) }
def State.pfx (s : State) (d : Nat) : Pfx := dget s.pfxs Pfx.init d
def State.modPfx (s : State) (d : Nat) (f : Pfx → Pfx) : State :=
  { s with pfxs := dset s.pfxs Pfx.init d (f (s.pfx d)) }
def State.stg (s : State) (d : Nat) : Staging := dget s.stgs Staging.init d
def State.modStg (s : State) (d : Nat) (f : Staging → Staging) : State :=
  { s with stgs := dset s.stgs Staging.init d (f (s.stg d)) }

def State.ftl (s : State) (d : Nat) : Ftl := dget s.ftls Ftl.init d
def State.modFtl (s : State) (d : Nat) (f : Ftl → Ftl) : State :=
  { s with ftls := dset s.ftls Ftl.init d (f (s.ftl d)) }

def State.nrt (s : State) (d : Nat) : Nrt := dget s.nrts Nrt.init d
def State.modNrt (s : State) (d : Nat) (f : Nrt → Nrt) : State :=
  { s with nrts := dset s.nrts Nrt.init d (f (s.nrt d)) }

def State.wkt (s : State) (d : Nat) : Wkt := dget s.wkts Wkt.init d
def State.modWkt (s : State) (d : Nat) (f : Wkt → Wkt) : State :=
  { s with wkts := dset s.wkts Wkt.init d (f (s.wkt d)) }

def State.lnk (s : State) (d : Nat) : Lnk := dget s.lnks Lnk.init d
def State.modLnk (s : State) (d : Nat) (f : Lnk → Lnk) : State :=
  { s with lnks := dset s.lnks Lnk.init d (f (s.lnk d)) }

/-- Dies of the package (R2). -/
def State.nDies (s : State) : Nat := s.variant.dies

/-- The dies a bit map names, ascending. -/
def bitsOf (n v : Nat) : List Nat := (List.range n).filter (fun k => v.testBit k)

/-- Dies of partition `p` (R314). -/
def State.diesOf (s : State) (p : Nat) : List Nat := bitsOf 8 (s.fget PTN_DIES_DIES p)

/-- The partition that owns die `d`, if any (R314). -/
def State.owner (s : State) (d : Nat) : Option Nat :=
  (List.range 8).find? (fun p => (s.fget PTN_DIES_DIES p).testBit d)

/-- Partition states of R312. -/
def ptnFree : Nat := 0
def ptnOpen : Nat := 1
def ptnSealed : Nat := 2
def ptnRemoving : Nat := 3
def ptnOrphaned : Nat := 4

def State.ptnState (s : State) (p : Nat) : Nat := s.fget PTN_STATUS_STATE p
def State.sealed (s : State) (p : Nat) : Bool := s.ptnState p == ptnSealed

/-- The twin of a die: the other die of its pair (R300). -/
def twin (d : Nat) : Nat := if d % 2 = 0 then d + 1 else d - 1

/-! ### Time (R17 to R35) -/

/-- Period in force of partition `p`, in ns (R29). -/
def State.periodNs (s : State) (p : Nat) : Nat := (s.part p).perN * 50000

/-- Slots per tick in force (R29). -/
def State.slotsOf (s : State) (p : Nat) : Nat := 2 ^ (s.part p).perSlots

/-- The tick number of partition `p` now (R29). -/
def State.tickNo (s : State) (p : Nat) : Nat := s.clk.tNs / s.periodNs p

/-- The start of the tick after the present one (R29, R35). -/
def State.nextTick (s : State) (p : Nat) : Nat := (s.tickNo p + 1) * s.periodNs p

/-- Discipline states of R21. -/
def discFree : Nat := 0
def discAcq : Nat := 1
def discLocked : Nat := 2
def discHold : Nat := 3
def discUnsync : Nat := 4

/-- Whether R21 lets tick generators run. -/
def State.ticksAllowed (s : State) : Bool :=
  let d := s.fget TIK_STATUS_STATE 0
  s.fbit TIK_CTRL_RUN_UNLOCKED 0 || d == discLocked || d == discHold || d == discUnsync
    || (d == discAcq && s.clk.lockedEver)

/-- Whether some partition's tick generator runs (R23, R24). -/
def State.anyGen (s : State) : Bool := (List.range 8).any (fun p => (s.part p).genOn)

/-- One second in ns. -/
def secNs : Nat := 1000000000

/-- TIK_HOLD_TIME counted on by `dt` ns (R22). -/
def State.holdCount (s : State) (dt : Nat) : State :=
  if s.clk.holding then
    let h := s.clk.holdNs + dt
    ({ s with clk := { s.clk with holdNs := h } }).fsat TIK_HOLD_TIME_HELD 0 (h / secNs)
  else s

/-- One nanosecond in the unit of the rate adjustment, 2⁻⁴⁸ ns (R18). -/
def nsUnit : Int := 281474976710656

/-- The whole counter in 2⁻⁴⁸ ns after `c` more TIME cycles, each of 1 ns plus the rate adjustment (R18). -/
def Clock.total (k : Clock) (c : Nat) : Int := (k.tNs : Int) * nsUnit + k.sub + (c : Int) * (nsUnit + k.adj)

/-- `c` TIME cycles pass (R18). -/
def Clock.cycles (k : Clock) (c : Nat) : Clock :=
  { k with tNs := (k.total c / nsUnit).toNat, sub := (k.total c % nsUnit).toNat, corr := k.corr + (c : Int) * k.adj }

/-- TIME cycles until T_ns is at or past the instant `t` (R18). -/
def Clock.cyclesTo (k : Clock) (t : Nat) : Nat :=
  (((t : Int) * nsUnit - k.total 0 + (nsUnit + k.adj) - 1) / (nsUnit + k.adj)).toNat

/-- The counter at the first TIME cycle on which T_ns is at or past `t`, at the instant `t` of that cycle (R18, R29). -/
def Clock.reach (k : Clock) (t : Nat) : Clock :=
  let c := k.cyclesTo t
  { k with tNs := t, sub := (k.total c - (t : Int) * nsUnit).toNat, corr := k.corr + (c : Int) * k.adj }

/-- The counter brought forward to the instant `t` (T_ns) a command carries; a command that carries an earlier instant
takes effect now. The correction applied on the way follows the rate adjustment (R18, R24) (DESIGN CHOICE, log entry 94). -/
def State.advanceTo (s : State) (t : Nat) : State :=
  if s.clk.tNs < t then
    let s := s.holdCount (t - s.clk.tNs)
    { s with clk := s.clk.reach t }
  else s

/-! ### Event registers (R338) -/

/-- Bit `lo` of the register at `off` newly set, for the EVENT_REG of its partition's next tick (DEDUCED, log entry 74). -/
def State.noteEvt (s : State) (off lo : Nat) : State :=
  { s with evNew := tput s.evNew off (setBit (dget s.evNew 0 off) lo true) }

/-- An event bit of a die window set; newly set bits of a die in a partition are noted for EVENT_REG (R338). -/
def State.evtDie (s : State) (F : Fld) (d : Nat) : State :=
  if s.fbit F d then s
  else
    let s := s.fset F d 1
    match s.owner d with
    | none => s
    | some _ => s.noteEvt (F.off + d * F.stride) F.lo

/-- A bit of PTN_EVENT or PMC_PEVENT of partition `p` set (R338, R543); PTN_EVENT also raises PF vector 0. -/
def State.evtPart (s : State) (F : Fld) (p : Nat) : State :=
  if s.fbit F p then s else (s.fset F p 1).noteEvt (F.off + p * F.stride) F.lo

/-- PF vector 0 raised on both ports (R338) (DEDUCED, log entry 74). -/
def State.pf0 (s : State) : State := (s.emit (.pfVector 0)).emit (.pfVector 1)

/-- A bit of a package common EVENT register set: noted for every SEALED partition; PF vector 0 (R338) (DEDUCED, log entry 74). -/
def State.evtPkg (s : State) (F : Fld) : State :=
  if s.fbit F 0 then s
  else
    let s := s.fset F 0 1
    let note (s : State) (p : Nat) : State :=
      if s.sealed p then
        s.modPart p (fun v => { v with evPkg := tput v.evPkg F.off (setBit (dget v.evPkg 0 F.off) F.lo true) })
      else s
    ((List.range 8).foldl note s).pf0

/-- A bit of HRG_FEVENT of a function set (R338). -/
def State.evtFn (s : State) (F : Fld) (f : Nat) : State :=
  if s.fbit F f then s
  else (s.fset F f 1).modFn f (fun v => { v with fevNew := setBit v.fevNew F.lo true })

/-- A bit of PTN_EVENT set; PF vector 0 (R338). -/
def State.evtPtn (s : State) (F : Fld) (p : Nat) : State :=
  if s.fbit F p then s else (s.evtPart F p).pf0

/-! ### Counters (R526 to R530, R538 to R540) -/

def State.pmcOf (s : State) (p : Nat) : Pmc := dget s.pmcs Pmc.init p
def State.modPmc (s : State) (p : Nat) (f : Pmc → Pmc) : State := { s with pmcs := dset s.pmcs Pmc.init p (f (s.pmcOf p)) }

def State.modPwr (s : State) (f : Pwr → Pwr) : State := { s with pwr := f s.pwr }

/-- PMC_FREEZE_AT as T_ns. -/
def State.freezeAt (s : State) : Nat := s.fget PMC_FREEZE_AT_HI_T_NS 0 * 2 ^ 32 + s.fget PMC_FREEZE_AT_LO_T_NS 0

/-- Whether an armed freeze of the package has its instant behind it: what follows that instant is not counted (R530) (DEDUCED, log entry 148). -/
def State.freezeReached (s : State) : Bool := s.fbit PMC_CTRL_ARM_AT 0 && decide (s.freezeAt ≤ s.clk.tNs)

/-- Whether a freeze of the package is in force. -/
def State.pkgFrozen (s : State) : Bool := s.fbit PMC_STATUS_FROZEN 0 || s.freezeReached

/-- Whether a freeze covers partition `p` (R530). -/
def State.frozen (s : State) (p : Nat) : Bool := s.pkgFrozen || s.fbit PMC_SNAP_FREEZE p

def PmcCtr.en (c : PmcCtr) : Bool := c.sel.testBit 11
/-- CHAIN of counter `n`; it acts as 0 on counter 0 (R528). -/
def PmcCtr.chain (c : PmcCtr) (n : Nat) : Bool := c.sel.testBit 9 && n != 0

/-- Counter `n` of die `d` gains `v`: wraps carry to a chained counter n + 1 in the same instant, before the wrap sets OVF
and, with FRZ_OVF, freezes the partition (R528). `fuel` bounds the chain (DEDUCED, log entry 58). -/
def State.pmcAdd (s : State) (p d n v : Nat) : Nat → State
  | 0 => s
  | fuel + 1 =>
    let c := dget (s.pmcOf p).ctrs PmcCtr.init (16 * d + n)
    if !c.en || v == 0 then s
    else
      let tot := c.live + v
      let s := s.modPmc p (fun x => { x with ctrs := dset x.ctrs PmcCtr.init (16 * d + n) { c with live := tot % 2 ^ 32 } })
      if tot < 2 ^ 32 then s
      else
        let up := dget (s.pmcOf p).ctrs PmcCtr.init (16 * d + n + 1)
        let s := if decide (n < 15) && up.chain (n + 1) then s.pmcAdd p d (n + 1) (tot / 2 ^ 32) fuel else s
        let s := (s.modPmc p (fun x => { x with ovf := setBit x.ovf (16 * d + n) true })).evtPart PMC_PEVENT_OVF p
        if c.sel.testBit 10 && !s.fbit PMC_SNAP_FREEZE p then (s.fset PMC_SNAP_FREEZE p 1).evtPart PMC_PEVENT_FROZEN p else s

/-- Whether a counter counts an event of code `ev` and of a context. -/
def PmcCtr.counts (c : PmcCtr) (n ev : Nat) (ctx : Option Nat) : Bool :=
  c.en && !c.chain n && c.sel % 256 == ev
    && (!c.sel.testBit 28 || (match ctx with | some x => x == c.sel / 2 ^ 16 % 2 ^ 12 | none => false))

/-- An event of die `d` counted (R527): `pulses` in edge mode, `weight` in level mode. -/
def State.pmc (s : State) (d ev pulses weight : Nat) (ctx : Option Nat) : State :=
  match s.owner d with
  | none => s
  | some p =>
    if s.frozen p then s
    else
      ((s.pmcOf p).ctrs.filter (fun e => e.1 / 16 == d && e.2.counts (e.1 % 16) ev ctx)).foldl (fun s e =>
        s.pmcAdd p d (e.1 % 16) (if e.2.sel.testBit 8 then weight else pulses) 16) s

/-- Bytes through a window port of die `d` (R538). -/
def State.bw (s : State) (d port bytes : Nat) : State :=
  match s.owner d with
  | none => s
  | some p =>
    if s.frozen p then s
    else s.modPmc p (fun x =>
      let w := dget x.wins (0, 0, 0) (16 * d + port)
      { x with wins := dset x.wins (0, 0, 0) (16 * d + port) (w.1 + bytes, w.2.1, w.2.2) })

/-- The bin of a value (R539). -/
def histBin (log : Bool) (base shift v : Nat) : Nat :=
  if log then (if v ≤ base then 0 else min 31 (Nat.log2 (v - base) + 1))
  else min 31 ((max v base - base) / 2 ^ shift)

/-- A value captured by a unit (R539). -/
def PmcHist.take (h : PmcHist) (v0 : Nat) : PmcHist :=
  let v := min v0 0xFFFFFFFF
  let b := histBin (h.cfg.testBit 0) h.base (h.cfg / 256 % 32) v
  { h with
    lo := min h.lo v, hi := max h.hi v, count := min (h.count + 1) (2 ^ 64 - 1), sum := min (h.sum + v) (2 ^ 64 - 1),
    bins := dset h.bins 0 b (min (dget h.bins 0 b + 1) 0xFFFFFFFF) }

/-- A value of source `src`, of parameter `param`, taken by the units of die `d` that capture it (R540). -/
def State.hist (s : State) (d src param v : Nat) : State :=
  match s.owner d with
  | none => s
  | some p =>
    if s.frozen p then s
    else s.modPmc p (fun x =>
      { x with hists := x.hists.map (fun e =>
          if e.1 / 4 = d ∧ e.2.cfg / 2 ^ 16 % 256 = src ∧ ((src = 5 ∨ src = 10) → e.2.cfg / 2 ^ 24 = param) then (e.1, e.2.take v)
          else e) })

/-- `bytes` of HBM read on die `d`, line by line: the counter, the window, and the latency of each line to the units that
take it, which no rule computes (R527, R538, R540) (DEDUCED, log entry 40). -/
def State.hbmRead (s : State) (d bytes : Nat) (ctx : Option Nat) : State :=
  let lines := (bytes + 63) / 64
  let s := (s.pmc d 0x10 lines (64 * lines) ctx).bw d 2 (64 * lines)
  let takes := match s.owner d with
    | some p => (s.pmcOf p).hists.any (fun e => e.1 / 4 == d && e.2.cfg / 2 ^ 16 % 256 == 9)
    | none => false
  if takes then
    (List.range lines).foldl (fun (s : State) _ =>
      let (n, s) := s.draw
      s.hist d 9 0 (Config.sense n % 2 ^ 32)) s
  else s

/-- `bytes` of HBM written on die `d` (R527, R538) (DEDUCED, log entry 40). -/
def State.hbmWrite (s : State) (d bytes : Nat) (ctx : Option Nat) : State :=
  let lines := (bytes + 63) / 64
  (s.pmc d 0x11 lines (64 * lines) ctx).bw d 3 (64 * lines)

/-- The die of host port `x` (R307). -/
def State.hostDie (s : State) (x : Nat) : Nat := if x = 0 then 0 else s.nDies / 2

/-! ### Completion queues (R315 to R336) -/

/-- Page of CQ `n` among a function's rings (R318). -/
def cqPage (n : Nat) : Nat := 128 + n

/-- Entries of a ring (R315). -/
def Ring.size (r : Ring) : Nat := 2 ^ r.log2

/-- Entries between a ring's head and tail. -/
def Ring.used (r : Ring) : Nat := (r.tail + r.size - r.head) % r.size

def HostFn.ring? (h : HostFn) (page : Nat) : Option Ring := tget h.rings page

/-- The ring at `page`, when it is ACTIVE. -/
def HostFn.active? (h : HostFn) (page : Nat) : Option Ring :=
  match tget h.rings page with
  | some r => if r.st = .active then some r else none
  | none => none

/-- The CQ a submission ring is bound to. -/
def HostFn.cqOf (h : HostFn) (sq : Nat) : Nat :=
  match tget h.rings sq with
  | some r => r.link
  | none => 0

/-- Partition and port of a function number. -/
def fnPart (f : Nat) : Nat := f / 2
def fnPort (f : Nat) : Nat := f % 2

/-- Accepted descriptors of the function's present generation that hold a slot of its CQ `cq` (R321). -/
def State.reserved (s : State) (f cq : Nat) : Nat :=
  let h := s.fn f
  ((s.part (fnPart f)).outst.filter (fun o => o.fn == f && o.gen == h.gen && h.cqOf o.sq == cq)).length

/-- Slots of CQ `cq` neither occupied nor reserved (R321, R336). -/
def State.cqFree (s : State) (f cq : Nat) : Nat :=
  match (s.fn f).active? (cqPage cq) with
  | some r => r.size - 1 - r.used - s.reserved f cq
  | none => 0

/-- Vector `v` of the function raised, under its mask and pending bit (R334). -/
def State.raiseVec (s : State) (f v : Nat) : State :=
  if (s.fn f).masked.contains v then
    s.modFn f (fun h => { h with pendVec := if h.pendVec.contains v then h.pendVec else h.pendVec ++ [v] })
  else s.emit (.interrupt f v)

/-- Whether a CQ raises its vector after an entry (R334): an entry with INTR, a full count, or no coalescing. -/
def Ring.dueNow (r : Ring) (intr : Bool) : Bool :=
  intr || (r.coalCount != 0 && decide (r.coalCount ≤ r.since)) || (r.coalCount == 0 && r.coalTime == 0)

/-- The interrupt of CQ `cq`, and its count restarted (R334). A CQ created NO_INTR raises none. -/
def State.cqInterrupt (s : State) (f cq : Nat) : State :=
  match (s.fn f).ring? (cqPage cq) with
  | none => s
  | some r =>
    let s := s.modFn f (fun h => { h with rings := tput h.rings (cqPage cq) { r with since := 0 } })
    if r.flags.testBit 0 then s else s.raiseVec f r.link

/-- Payload bytes of TLPs of a function through its host port: 6 sent, 7 received (R538), counted where the partition owns
the port's die (R526). -/
def State.tlp (s : State) (f dir bytes : Nat) : State :=
  if f < 16 ∧ s.owner (s.hostDie (fnPort f)) = some (fnPart f) then s.bw (s.hostDie (fnPort f)) dir bytes else s

/-- Bytes written to host memory by a function (R333). -/
def State.hostWrite (s : State) (f addr : Nat) (b : List Byte) : State := (s.tlp f 6 b.length).emit (.hostWrite f addr b)

/-- An entry written at the tail of CQ `cq`: `mk` builds what goes out from the slot and its phase (R331, R332). The
tail and phase advance, and the interrupt follows the entry (R333, R334). -/
def State.cqWrite (s : State) (f cq : Nat) (intr : Bool) (mk : Nat → Bool → Emit) : State :=
  match (s.fn f).ring? (cqPage cq) with
  | none => s
  | some r =>
    let r' := { r with
      tail := (r.tail + 1) % r.size
      phase := if r.tail + 1 = r.size then !r.phase else r.phase
      since := r.since + 1
      sinceT := if r.since = 0 then s.clk.tNs else r.sinceT }
    let s := ((s.tlp f 6 32).emit (mk r.tail r.phase)).modFn f (fun h => { h with rings := tput h.rings (cqPage cq) r' })
    if r'.dueNow intr then s.cqInterrupt f cq else s

/-! ### Events (R335 to R338) -/

/-- Whether the rings of function `f` are READY (R316). -/
def State.ready (s : State) (f : Nat) : Bool := s.fbit HRG_STATUS_READY f

/-- The next EVENT_SEQ of the function, and the serial advanced (R335). -/
def State.nextSeq (s : State) (f : Nat) : Nat × State :=
  let n := s.fget HRG_EVT_SEQ_NEXT f
  (n, s.fset HRG_EVT_SEQ_NEXT f (n + 1))

/-- An event raised for one function (R336): written when a slot is free and none is held, held while fewer than 1,024
are, and otherwise discarded. Its serial is taken first. -/
def State.raiseEvent (s : State) (f code die : Nat) (payload : List Byte) : State :=
  if !s.ready f then s
  else
    let (n, s) := s.nextSeq f
    let e : Event := ⟨code, die, payload, s.tickNo (fnPart f), n⟩
    let h := s.fn f
    if h.held.isEmpty && h.lost == 0 && decide (0 < s.cqFree f h.eventCq) then
      s.cqWrite f h.eventCq false (fun slot ph => .event f h.eventCq slot ph e)
    else if h.held.length < 1024 then s.modFn f (fun h => { h with held := h.held ++ [e] })
    else
      ((s.modFn f (fun h => { h with lost := h.lost + 1 })).fadd HRG_EVT_LOST_COUNT f 1).evtFn HRG_FEVENT_EVT_LOST f

/-- An event raised on CQ 0, whichever CQ holds the events (R341); with no slot free there it is raised like any other (DEDUCED, log entry 139). -/
def State.raiseOn0 (s : State) (f code die : Nat) (payload : List Byte) : State :=
  if s.ready f && (s.fn f).eventCq != 0 && decide (0 < s.cqFree f 0) then
    let (n, s) := s.nextSeq f
    let e : Event := ⟨code, die, payload, s.tickNo (fnPart f), n⟩
    s.cqWrite f 0 false (fun slot ph => .event f 0 slot ph e)
  else s.raiseEvent f code die payload

/-- `v` as `n` little-endian bytes (R9). -/
def le : Nat → Nat → List Byte
  | 0, _ => []
  | n + 1, v => BitVec.ofNat 8 v :: le n (v / 256)

/-- `n` zero bytes. -/
def zeros (n : Nat) : List Byte := List.replicate n 0

/-- Event codes of R337. -/
def evPageLost : Nat := 0x01
def evHintMet : Nat := 0x02
def evHintMissed : Nat := 0x03
def evFlashHealth : Nat := 0x04
def evAdaptPinned : Nat := 0x05
def evEventReg : Nat := 0x06
def evRingError : Nat := 0x07
def evOverflow : Nat := 0x08
def evAdopted : Nat := 0x09
def evPortChange : Nat := 0x0A

/-- Held events written while slots are free, EVT_OVERFLOW first when events were discarded (R336). `n` bounds the
number of entries. -/
def State.flushHeld (s : State) (f : Nat) : Nat → State
  | 0 => s
  | n + 1 =>
    let h := s.fn f
    if s.cqFree f h.eventCq = 0 then s
    else if h.lost ≠ 0 then
      let (q, s) := s.nextSeq f
      let e : Event := ⟨evOverflow, 0xFF, le 4 h.lost, s.tickNo (fnPart f), q⟩
      ((s.modFn f (fun h => { h with lost := 0 })).cqWrite f h.eventCq false
        (fun slot ph => .event f h.eventCq slot ph e)).flushHeld f n
    else
      match h.held with
      | [] => s
      | e :: r =>
        ((s.modFn f (fun h => { h with held := r })).cqWrite f h.eventCq false
          (fun slot ph => .event f h.eventCq slot ph e)).flushHeld f n

/-- PTN_BIND's enable of port `x` of partition `p` (R313). -/
def State.bound (s : State) (p x : Nat) : Bool :=
  if x = 0 then s.fbit PTN_BIND_A_EN p else s.fbit PTN_BIND_B_EN p

/-- A partition event: to every bound function whose rings are READY (chapter 09, Events). -/
def State.partEvent (s : State) (p code die : Nat) (payload : List Byte) : State :=
  let one (s : State) (x : Nat) : State := if s.bound p x then s.raiseEvent (2 * p + x) code die payload else s
  one (one s 0) 1

/-- An event of die `d`: to the partition that owns it. -/
def State.dieEvent (s : State) (d code : Nat) (payload : List Byte) : State :=
  match s.owner d with
  | some p => s.partEvent p code d payload
  | none => s

/-- An event to every partition that is SEALED. -/
def State.sealedEvent (s : State) (code : Nat) (payload : List Byte) : State :=
  (List.range 8).foldl (fun s p => if s.sealed p then s.partEvent p code 0xFF payload else s) s

/-! ### Completions (R330 to R339) -/

/-- Status codes of R121. -/
def stOK : Nat := 0x00
def stLATE : Nat := 0x01
def stDEFERRED : Nat := 0x02
def stINTEGRITY : Nat := 0x03
def stRECOVERED : Nat := 0x04
def stLOST : Nat := 0x05
def stACCESS : Nat := 0x06
def stNOT_READY : Nat := 0x07
def stFENCED : Nat := 0x08
def stREVOKED : Nat := 0x09
def stMALFORMED : Nat := 0x0A
def stQUOTA : Nat := 0x0B

/-- Whether an outstanding entry is that of the descriptor. -/
def Outst.of (o : Outst) (f sq index : Nat) : Bool := o.fn == f && o.sq == sq && o.index == index

/-- The outstanding entries without the first that is the descriptor's. -/
def dropOutst (f sq index : Nat) : List Outst → List Outst
  | [] => []
  | o :: r => if o.of f sq index then r else o :: dropOutst f sq index r

/-- The completion of an accepted descriptor (R330 to R339): its CQ entry is written, or discarded when the function was
lost after acceptance (R339); an adopted one is also posted as ADOPTED_COMPLETION to the other function (R344). -/
def State.completeOne (s : State) (o : Outst) (status r0 r1 : Nat) : State :=
  let f := o.fn
  let p := fnPart f
  let s := s.modPart p (fun v => { v with outst := dropOutst f o.sq o.index v.outst })
  let h := s.fn f
  let s := if o.gen = h.gen then s.fset HRG_OUTSTANDING_COUNT f (s.fget HRG_OUTSTANDING_COUNT f - 1) else s
  let cq := h.cqOf o.sq
  let c : Completion :=
    { result0 := r0 % 2 ^ 32, result1 := r1 % 2 ^ 32, tick := s.tickNo p, tag := o.tag,
      sqHead := (match h.ring? o.sq with | some r => r.head | none => 0),
      sqId := o.sq, status := status, op := o.op }
  let live := o.gen == h.gen && s.ready f && (h.active? (cqPage cq)).isSome
  let s :=
    if live then
      let hd := s.hostDie (fnPort f)
      let s := s.cqWrite f cq o.intr (fun slot ph => .completion f cq slot ph c)
      if s.owner hd = some p then (s.pmc hd 0x19 1 1 none).hist hd 6 0 (s.clk.tNs - o.accT) else s
    else
      let s := s.modFn f (fun h =>
        { h with rings := tmod h.rings (cqPage cq) (fun r => { r with dropped := r.dropped + 1 }) })
      (s.fadd HRG_DROPPED_COUNT f 1).evtFn HRG_FEVENT_DROPPED f
  if o.adopted then
    let g := 2 * p + (1 - fnPort f)
    s.raiseEvent g evAdopted 0xFF
      (le 4 r0 ++ le 4 r1 ++ le 2 o.tag ++ le 2 o.index ++ le 1 o.sq ++ le 1 status ++ le 1 o.op ++ le 1 (fnPort f))
  else s

/-- A RING_DELETE of an SQ that waits for its descriptors completes once none is outstanding (R328). -/
def State.finishDeletes (s : State) (p : Nat) : List Outst → State
  | [] => s
  | o :: r =>
    let sq := o.body0 / 256 % 256
    let isDel := o.op == 0x03 && o.started && o.body0 % 256 == 0
    let busy := (s.part p).outst.any (fun q => q.fn == o.fn && q.sq == sq && !q.of o.fn o.sq o.index)
    let s :=
      if isDel && !busy && o.gen != (s.fn o.fn).gen then s.completeOne o stOK 0 0
      else if isDel && !busy then
        let left := match (s.fn o.fn).ring? sq with | some r => r.used | none => 0
        (s.modFn o.fn (fun h => { h with rings := tdel h.rings sq })).completeOne o stOK left 0
      else s
    s.finishDeletes p r

/-- A descriptor as its command names it: the function's partition and port, its SQ and index, its header, whether a
reserved field of it is not 0, and whether a read of host memory it names fails (R308, R323, R325). -/
def Desc.fn (d : Desc) : Nat := 2 * d.part + d.port

/-- The outstanding entry of a descriptor, if DESCRIPTOR_FETCH accepted it. -/
def State.outst? (s : State) (d : Desc) : Option Outst :=
  (s.part d.part).outst.find? (fun o => o.of d.fn d.sq d.index)

/-- Whether the function of a descriptor was lost after it was accepted: nothing of it reaches the host any more, and the rings it
named are gone (R339) (DEDUCED, log entry 139). -/
def State.lostDesc (s : State) (d : Desc) : Bool :=
  match s.outst? d with
  | some o => o.gen != (s.fn d.fn).gen
  | none => false

/-- A host memory write that a descriptor makes: discarded once its function was lost (R339) (DEDUCED, log entry 139). -/
def State.descWrite (s : State) (k : Nat × Nat × Nat) (addr : Nat) (b : List Byte) : State :=
  match (s.part (fnPart k.1)).outst.find? (fun o => o.of k.1 k.2.1 k.2.2) with
  | some o => if o.gen = (s.fn k.1).gen ∧ s.ready k.1 = true then s.hostWrite k.1 addr b else s
  | none => s

/-- A descriptor accepted: it reserves a slot of its CQ and is outstanding (R321). -/
def State.accept (s : State) (d : Desc) (op body0 : Nat) : State :=
  let o : Outst :=
    { fn := d.fn, sq := d.sq, index := d.index, tag := d.tag, op := op, body0 := body0, tick := s.tickNo d.part,
      order := d.order, intr := d.intr, started := false, adopted := false, gen := (s.fn d.fn).gen, accT := s.clk.tNs }
  (s.modPart d.part (fun v => { v with outst := v.outst ++ [o] })).fadd HRG_OUTSTANDING_COUNT d.fn 1

/-- A descriptor's command begins: a descriptor that no fetch accepted is accepted now; it is marked STARTED (R346). -/
def State.begin (s : State) (d : Desc) (op body0 : Nat) : State :=
  let s := match s.outst? d with
    | some _ => s
    | none => s.accept d op body0
  s.modPart d.part (fun v =>
    { v with outst := v.outst.map (fun o => if o.of d.fn d.sq d.index then { o with started := true } else o) })

/-- The completion of the descriptor a command names. -/
def State.complete (s : State) (d : Desc) (status r0 r1 : Nat) : State :=
  match s.outst? d with
  | none => s
  | some o =>
    let s := s.completeOne o status r0 r1
    s.finishDeletes d.part (s.part d.part).outst

/-- The completion with result words 0. -/
def State.fail (s : State) (d : Desc) (status : Nat) : State := s.complete d status 0 0

/-- Whether an earlier descriptor of the SQ keeps an ORDER descriptor from starting (R333). -/
def State.orderWait (s : State) (d : Desc) : Bool :=
  d.order && ((s.part d.part).outst.takeWhile (fun o => !o.of d.fn d.sq d.index)).any
    (fun o => o.fn == d.fn && o.sq == d.sq)

end Sys2Proof.Machine
end

