-- ==== Sys2Proof/Machine/Attar.lean ====
section
/-!
DEFINITION. Sys2Proof/Machine/Attar.lean: the attar form of a sealed page: seal conversion, code tables, block sizes, page
layout and bytes (R185 to R198), and summary keys (R156, R157).
-/
namespace Sys2Proof.Machine

/-- `a` rounded up to a multiple of `n`. -/
def roundUp (n a : Nat) : Nat := (a + n - 1) / n * n

/-- Ceiling of a / b. -/
def ceilDiv (a b : Nat) : Nat := (a + b - 1) / b

def sumNat (l : List Nat) : Nat := l.foldl (· + ·) 0

/-- Element count of a position in a context (R60). -/
def Ctx.elems (c : Ctx) : Nat := if c.latent then c.w else 2 * c.h * c.d

/-- Bytes of a tail position (R60). -/
def Ctx.posBytes (c : Ctx) : Nat := 2 * c.elems

/-- The parts of a position by format: keys and values, or the latent vector (R109, R185). -/
def splitParts (latent : Bool) (h d fmt : Nat) (l : List Nat) : List (Nat × List Nat) :=
  if latent then [(fmt % 16, l)] else [(fmt % 16, l.take (h * d)), (fmt / 16, l.drop (h * d))]

/-- A 16-bit element converted to another 16-bit format: code, and whether it saturated (R96, R195). -/
def conv16 (src dst c : Nat) : Nat × Bool :=
  if src = dst then (c, false)
  else
    let v := (fmtOf src).decode c
    let f := fmtOf dst
    match v with
    | .nan => (c / 32768 * 32768 + f.encode .nan, false)
    | .inf b => (f.encode (.inf b), false)
    | v => (f.encode (f.sat v), f.over (f.rne v))

/-- What sealing makes of a position: its stored form, saturated elements, and groups that took scale 0xFF (R195). -/
structure Conv where
  pos : Pos
  sat : Nat
  nan : Nat

/-- A part of a position converted to its sealed format. -/
def sealPart (tail : Nat) (part : Nat × List Nat) : Conv :=
  if isMX part.1 then
    let qs := (by32 (part.2.map (fmtOf tail).decode)).map (quantGroup part.1)
    ⟨⟨(qs.map (fun q => q.2.1)).flatten, qs.map (·.1)⟩, sumNat (qs.map (fun q => q.2.2)),
      (qs.filter (fun q => q.1 == 255)).length⟩
  else
    let cs := part.2.map (conv16 tail part.1)
    ⟨⟨cs.map (·.1), []⟩, (cs.filter (·.2)).length, 0⟩

/-- A position of a tail page converted to the sealed formats (R195). -/
def sealPos (latent : Bool) (h d fmt tail : Nat) (p : Pos) : Conv :=
  let cs := (splitParts latent h d fmt p.codes).map (sealPart tail)
  ⟨⟨(cs.map (·.pos.codes)).flatten, (cs.map (·.pos.scales)).flatten⟩, sumNat (cs.map (·.sat)), sumNat (cs.map (·.nan))⟩

/-! ### Streams (R185, R186) -/

/-- The streams of a page: for each its format, its first element in a position and its length. -/
def streamsOf (latent : Bool) (h d w fmt : Nat) : List (Nat × Nat × Nat) :=
  if latent then (List.range (ceilDiv w 128)).map (fun t => (fmt % 16, 128 * t, min 128 (w - 128 * t)))
  else (List.range (2 * h)).map (fun t => (if t < h then fmt % 16 else fmt / 16, d * t, d))

/-- The symbol of an element: its whole code up to 8 bits, the upper byte of a 16-bit element (R186). -/
def symbolOf (fmt c : Nat) : Nat := if bitsOfFmt fmt = 16 then c / 256 else c

/-- Alphabet of a stream (R186). -/
def alphabet (fmt : Nat) : Nat := if bitsOfFmt fmt = 16 then 256 else 2 ^ bitsOfFmt fmt

/-- The elements of stream (first, length) over some positions, in plain-form order (R185). -/
def streamElems (pos : List Pos) (st : Nat × Nat × Nat) : List Nat :=
  pos.flatMap (fun p => (p.codes.drop st.2.1).take st.2.2)

/-! ### Code tables (R194, R196) -/

/-- Occurrences of each symbol of a list, as a table. -/
def symCounts : List Nat → List (Nat × Nat)
  | [] => []
  | s :: r => let t := symCounts r; tput t s ((tget t s).getD 0 + 1)

/-- A node of the first pass: weight, rank and the symbols below it with their depths. -/
structure HNode where
  weight : Nat
  rank : Nat
  syms : List (Nat × Nat)

/-- `a` comes before `b` in the order of R196: weight, then rank. -/
def HNode.before (a b : HNode) : Bool := decide (a.weight < b.weight) || (a.weight == b.weight && decide (a.rank < b.rank))

/-- The nodes with `n` put in its place in the order. -/
def insNode (n : HNode) : List HNode → List HNode
  | [] => [n]
  | x :: r => if n.before x then n :: x :: r else x :: insNode n r

/-- The joins of R196: the two lowest nodes are joined until one is left. -/
def joinNodes : Nat → Nat → List HNode → List HNode
  | 0, _, l => l
  | k + 1, made, a :: b :: r =>
    let up (l : List (Nat × Nat)) : List (Nat × Nat) := l.map (fun e => (e.1, e.2 + 1))
    joinNodes k (made + 1) (insNode ⟨a.weight + b.weight, 65536 + made, up a.syms ++ up b.syms⟩ r)
  | _ + 1, _, l => l

/-- Kraft sum of lengths in units of 2⁻¹⁵ (R193). -/
def kraft (lens : List (Nat × Nat)) : Nat := sumNat (lens.map (fun e => 2 ^ (15 - e.2)))

/-- The symbol whose code is lengthened: largest length below 15, ties to the lower count, then to the higher symbol. -/
def longest (counts : List (Nat × Nat)) : List (Nat × Nat) → Option (Nat × Nat)
  | [] => none
  | e :: r =>
    match longest counts r with
    | none => if e.2 < 15 then some e else none
    | some b =>
      if 15 ≤ e.2 then some b
      else
        let ce := (tget counts e.1).getD 0
        let cb := (tget counts b.1).getD 0
        if b.2 < e.2 ∨ (b.2 = e.2 ∧ (ce < cb ∨ (ce = cb ∧ b.1 < e.1))) then some e else some b

/-- Lengths of 15 forced and the code made to fit (R196); `k` bounds the number of adjustments. -/
def fitLens (counts : List (Nat × Nat)) : Nat → List (Nat × Nat) → List (Nat × Nat)
  | 0, l => l
  | k + 1, l =>
    if kraft l ≤ 2 ^ 15 then l
    else
      match longest counts l with
      | none => l
      | some b => fitLens counts k (l.map (fun e => if e.1 = b.1 then (e.1, e.2 + 1) else e))

/-- Code lengths of a stream by symbol, from the symbols of all its elements (R196). -/
def codeLens (syms : List Nat) : List (Nat × Nat) :=
  let counts := symCounts syms
  match counts with
  | [] => []
  | [e] => [(e.1, 1)]
  | _ =>
    let nodes := counts.foldl (fun l e => insNode ⟨e.2, e.1, [(e.1, 0)]⟩ l) []
    let lens := ((joinNodes counts.length 0 nodes).flatMap (·.syms)).map (fun e => (e.1, min e.2 15))
    fitLens counts (15 * counts.length) (lens.foldl (fun t e => tput t e.1 e.2) [])

/-- The codes of the symbols of one length, from `code` on (R194). -/
def codesAt (len : Nat) : Nat → List (Nat × Nat) → List (Nat × Nat × Nat) × Nat
  | code, [] => ([], code)
  | code, e :: r =>
    if e.2 = len then
      let q := codesAt len (code + 1) r
      ((e.1, len, code) :: q.1, q.2)
    else codesAt len code r

/-- The codes of a table (R194): symbol, length and code; lengths `len` to 15, `k` of them. -/
def codesFrom (lens : List (Nat × Nat)) : Nat → Nat → Nat → List (Nat × Nat × Nat)
  | 0, _, _ => []
  | k + 1, len, code =>
    let q := codesAt len code lens
    q.1 ++ codesFrom lens k (len + 1) (q.2 * 2)

def codesOf (lens : List (Nat × Nat)) : List (Nat × Nat × Nat) := codesFrom lens 15 1 0

/-- `n` bits of `v`, most significant first. -/
def bitsMsb : Nat → Nat → List Bool
  | 0, _ => []
  | n + 1, v => v.testBit n :: bitsMsb n v

/-- `n` bits of `v`, bit 0 first. -/
def bitsLsb : Nat → Nat → List Bool
  | 0, _ => []
  | n + 1, v => (v % 2 == 1) :: bitsLsb n (v / 2)

/-- Bits packed in bytes, bit n at bit (n mod 8) of byte floor(n / 8) (R191); `k` bounds the bytes. -/
def packBits : Nat → List Bool → List Byte
  | 0, _ => []
  | _, [] => []
  | k + 1, l =>
    BitVec.ofNat 8 ((l.take 8).foldr (fun b a => 2 * a + b.toNat) 0) :: packBits k (l.drop 8)

/-- Coded bits of one element (R191). -/
def elemBits (fmt : Nat) (codes : List (Nat × Nat × Nat)) (c : Nat) : List Bool :=
  let head := match codes.find? (fun e => e.1 == symbolOf fmt c) with
    | some e => bitsMsb e.2.1 e.2.2
    | none => []
  if bitsOfFmt fmt = 16 then head ++ bitsLsb 8 (c % 256) else head

/-- Coded bits of a stream over some positions. -/
def streamBits (pos : List Pos) (st : Nat × Nat × Nat) (codes : List (Nat × Nat × Nat)) : List Bool :=
  (streamElems pos st).flatMap (elemBits st.1 codes)

/-- Length in bits of a coded stream. -/
def streamLen (pos : List Pos) (st : Nat × Nat × Nat) (lens : List (Nat × Nat)) : Nat :=
  let extra := if bitsOfFmt st.1 = 16 then 8 else 0
  sumNat ((streamElems pos st).map (fun c => (tget lens (symbolOf st.1 c)).getD 0 + extra))

/-- Bytes of the plain form of a token block (R185). -/
def plainSize (strs : List (Nat × Nat × Nat)) : Nat :=
  16 * sumNat (strs.map (fun s => s.2.2 * bitsOfFmt s.1 / 8 + if isMX s.1 then s.2.2 / 32 else 0))

/-- Bytes of the scale part of a token block (R185). -/
def scaleBytes (strs : List (Nat × Nat × Nat)) : Nat :=
  16 * sumNat (strs.map (fun s => if isMX s.1 then s.2.2 / 32 else 0))

/-- Bytes of the directory of a coded block (R190). -/
def dirBytes (strs : List (Nat × Nat × Nat)) : Nat := roundUp 16 (2 * strs.length)

/-- Positions of token block `b` of a page. -/
def blkPos (pos : List Pos) (b : Nat) : List Pos := (pos.drop (16 * b)).take 16

/-- What a sealed page takes: its streams, code lengths and blocks (R196, R197). -/
structure Coded where
  strs : List (Nat × Nat × Nat)
  lens : List (List (Nat × Nat))
  blks : List BlkInfo

/-- The page coded: one table per stream, each block coded or raw under the escape (R196, R197). -/
def codePage (latent : Bool) (h d w fmt : Nat) (pos : List Pos) : Coded :=
  let strs := streamsOf latent h d w fmt
  let lens := strs.map (fun s => codeLens ((streamElems pos s).map (symbolOf s.1)))
  let p := plainSize strs
  let blk (b : Nat) : BlkInfo :=
    let bp := blkPos pos b
    let c := dirBytes strs + sumNat ((strs.zip lens).map (fun e => ceilDiv (streamLen bp e.1 e.2) 8)) + scaleBytes strs
    if 15 * p < 16 * c then ⟨p, true⟩ else ⟨c, false⟩
  ⟨strs, lens, (List.range 8).map blk⟩

/-- Accord table bytes without padding (R192); none when every block is raw (R198). -/
def Coded.accord (c : Coded) : Nat :=
  if c.blks.all (·.raw) then 0 else 16 + sumNat (c.strs.map (fun s => alphabet s.1 / 2))

/-- Offset of the summary area, and of block 0 (R187). -/
def Coded.sumOff (c : Coded) : Nat := 192 + roundUp 64 c.accord
def Coded.blkOff (c : Coded) (sum : Nat) : Nat := c.sumOff + roundUp 64 sum

/-- Offset of block `b` (R187). -/
def Coded.offOf (c : Coded) (sum b : Nat) : Nat :=
  c.blkOff sum + sumNat ((c.blks.take b).map (fun i => roundUp 64 i.bytes))

/-- Encoded length of the page (R187). -/
def Coded.length (c : Coded) (sum : Nat) : Nat := c.offOf sum 8

/-- The page's slowest block: its number (R188). -/
def slowest (blks : List BlkInfo) : Nat :=
  let cost (i : BlkInfo) : Nat := (if i.raw then 3 else 4) * i.bytes
  ((List.range blks.length).foldl (fun (best : Nat × Nat) b =>
    match blks[b]? with
    | some i => if best.2 < cost i then (b, cost i) else best
    | none => best) (0, 0)).1

/-! ### Summary keys (R156, R157) -/

/-- The key of head `h` at a position, its scales folded in (R107). -/
def keyOf (latent : Bool) (h d fmt head : Nat) (p : Pos) : List Num :=
  let kf := fmt % 16
  if latent then rowValues kf p
  else
    let sc := if isMX kf then p.scales.take (h * d / 32) else []
    let row : Pos := ⟨(p.codes.drop (head * d)).take d, (sc.drop (head * d / 32)).take (d / 32)⟩
    rowValues kf row

/-- The value vector of head `h` at a position; the latent vector itself in a latent page (R172). -/
def valOf (latent : Bool) (h d fmt head : Nat) (p : Pos) : List Num :=
  if latent then rowValues (fmt % 16) p
  else
    let vf := fmt / 16
    let kScales := if isMX (fmt % 16) then h * d / 32 else 0
    let sc := if isMX vf then p.scales.drop kScales else []
    let row : Pos := ⟨(p.codes.drop (h * d + head * d)).take d, (sc.drop (head * d / 32)).take (d / 32)⟩
    rowValues vf row

/-- The element-wise exact sum of rows. -/
def sumRows (d : Nat) (rows : List (List Num)) : List Num :=
  (List.range d).map (fun i => Num.sum (rows.map (fun r => r.getD i .zero)))

/-- The summary key of block `b` and head `head`: the mean of its 16 keys, rounded RNE to BF16 (R156). -/
def summaryKey (h d fmt head b : Nat) (pos : List Pos) : List Num :=
  (sumRows d ((blkPos pos b).map (keyOf false h d fmt head))).map
    (fun v => fmtBF16.round (v.mul (.fin false 1 (-4))))

/-! ### The page's bytes (R187 to R192) -/

/-- `l` padded with zeros to a multiple of `n`. -/
def padTo (n : Nat) (l : List Byte) : List Byte := l ++ zeros (roundUp n l.length - l.length)

/-- The code table of a stream (R192): two lengths a byte. -/
def tableBytes (a : Nat) (lens : List (Nat × Nat)) : List Byte :=
  (List.range (a / 2)).map (fun k =>
    BitVec.ofNat 8 ((tget lens (2 * k)).getD 0 + 16 * (tget lens (2 * k + 1)).getD 0))

/-- A position's row of a stream packed without gaps (R186). -/
def packRow (fmt : Nat) (l : List Nat) : List Byte :=
  packBits (2 * l.length) (l.flatMap (bitsLsb (bitsOfFmt fmt)))

/-- The scale bytes of a stream at a position. -/
def streamScales (strs : List (Nat × Nat × Nat)) (t : Nat) (p : Pos) : List Byte :=
  let before := sumNat ((strs.take t).map (fun s => if isMX s.1 then s.2.2 / 32 else 0))
  match strs[t]? with
  | some s => if isMX s.1 then ((p.scales.drop before).take (s.2.2 / 32)).map (BitVec.ofNat 8) else []
  | none => []

/-- The scale part of a block (R185). -/
def scalePart (strs : List (Nat × Nat × Nat)) (bp : List Pos) : List Byte :=
  (List.range strs.length).flatMap (fun t => bp.flatMap (streamScales strs t))

/-- The bytes of a block as stored (R185, R190). -/
def Coded.blkBytes (c : Coded) (pos : List Pos) (b : Nat) : List Byte :=
  let bp := blkPos pos b
  match c.blks[b]? with
  | none => []
  | some i =>
    if i.raw then
      c.strs.flatMap (fun s => bp.flatMap (fun p => packRow s.1 ((p.codes.drop s.2.1).take s.2.2))) ++ scalePart c.strs bp
    else
      let ss := (c.strs.zip c.lens).map (fun e =>
        let bits := streamBits bp e.1 (codesOf e.2)
        packBits (bits.length + 1) bits)
      let dir := padTo 16 (ss.flatMap (fun s => le 2 s.length))
      dir ++ ss.flatten ++ scalePart c.strs bp

/-- The summary area (R157). -/
def summaryBytes (h d fmt : Nat) (pos : List Pos) : List Byte :=
  (List.range 8).flatMap (fun b => (List.range h).flatMap (fun head =>
    (summaryKey h d fmt head b pos).flatMap (fun v => le 2 (fmtBF16.encode v))))

/-- log2 of an alphabet, for the accord header. -/
def alphaLog (fmt : Nat) : Nat := Nat.log2 (alphabet fmt)

/-- The stored bytes of an attar page (R187 to R192). -/
def attarImage (latent : Bool) (h d w fmt layer posBase sealedAt sum : Nat) (pos : List Pos) : List Byte :=
  let c := codePage latent h d w fmt pos
  let allRaw := c.blks.all (·.raw)
  let anyRaw := c.blks.any (·.raw)
  let slow := slowest c.blks
  let t := c.strs.length
  let header :=
    le 4 0x41545231 ++ le 1 1 ++ le 1 fmt
      ++ le 1 ((if sum = 0 then 0 else 1) + 2 * latent.toNat + 4 * anyRaw.toNat + 8 * allRaw.toNat)
      ++ le 1 t ++ le 1 (if latent then 0 else h) ++ le 1 layer ++ le 2 (if latent then w else d) ++ le 4 posBase
      ++ le 4 (if allRaw then 0 else 192) ++ le 4 c.accord ++ le 4 (if sum = 0 then 0 else c.sumOff) ++ le 4 sum
      ++ le 4 (c.blkOff sum) ++ le 4 (c.length sum) ++ le 4 ((c.blks.map (·.bytes)).getD slow 0) ++ le 1 slow ++ zeros 3
      ++ le 8 sealedAt ++ zeros 8
  let index := (List.range 8).flatMap (fun b =>
    le 4 (c.offOf sum b) ++ le 4 ((c.blks.map (·.bytes)).getD b 0) ++ le 4 (16 * sumNat (c.strs.map (·.2.2)))
      ++ le 1 ((c.blks.map (·.raw)).getD b false).toNat ++ le 1 16 ++ zeros 2)
  let accord :=
    if allRaw then []
    else
      le 1 t ++ le 1 (alphaLog (fmt % 16)) ++ le 1 (if latent then 0 else alphaLog (fmt / 16)) ++ le 1 15 ++ zeros 12
        ++ (c.strs.zip c.lens).flatMap (fun e => tableBytes (alphabet e.1.1) e.2)
  let summary := if sum = 0 then [] else summaryBytes h d fmt pos
  header ++ index ++ padTo 64 accord ++ padTo 64 summary
    ++ (List.range 8).flatMap (fun b => padTo 64 (c.blkBytes pos b))

/-! ### Reading a page (R185 to R194, R206, R213) -/

/-- The `n`-byte little-endian number at offset `off` of an image; bytes beyond its end read 0. -/
def numAt (b : List Byte) (off : Nat) : Nat → Nat
  | 0 => 0
  | n + 1 => (b.getD off 0).toNat + 256 * numAt b (off + 1) n

/-- `n` consecutive numbers of `w` bytes. -/
def numsAt (b : List Byte) (off w n : Nat) : List Nat := (List.range n).map (fun i => numAt (b.drop (off + w * i)) 0 w)

/-- The code lengths above 0 of a table for `a` symbols at `off` (R192). -/
def tableLens (b : List Byte) (off a : Nat) : List (Nat × Nat) :=
  (List.range a).filterMap (fun s =>
    let v := numAt b (off + s / 2) 1
    let l := if s % 2 = 0 then v % 16 else v / 16
    if l = 0 then none else some (s, l))

/-- Whether a code table is valid (R193). -/
def validTable (lens : List (Nat × Nat)) : Bool := !lens.isEmpty && decide (kraft lens ≤ 2 ^ 15)

/-- The code tables of the streams, one after the other from `off` (R192). -/
def tablesFrom (b : List Byte) : Nat → List (Nat × Nat × Nat) → List (List (Nat × Nat))
  | _, [] => []
  | off, s :: r => tableLens b off (alphabet s.1) :: tablesFrom b (off + alphabet s.1 / 2) r

/-- The code that the next bits of a stream match: its symbol and the bits left (R194). `none` when the stream ends first or
`k` more bits match no code: the checks for fewer elements and for the code (R206). -/
def matchCode (codes : List (Nat × Nat × Nat)) : Nat → Nat → Nat → List Bool → Option (Nat × List Bool)
  | 0, _, _, _ => none
  | _ + 1, _, _, [] => none
  | k + 1, len, v, b :: r =>
    match codes.find? (fun e => e.2.1 == len + 1 && e.2.2 == 2 * v + b.toNat) with
    | some e => some (e.1, r)
    | none => matchCode codes k (len + 1) (2 * v + b.toNat) r

/-- The value of bits, bit 0 first. -/
def bitsVal (l : List Bool) : Nat := l.foldr (fun b a => 2 * a + b.toNat) 0

/-- `n` elements decoded from a stream (R191): the elements and the bits left. -/
def decodeElems (fmt : Nat) (codes : List (Nat × Nat × Nat)) : Nat → List Bool → Option (List Nat × List Bool)
  | 0, l => some ([], l)
  | n + 1, l =>
    match matchCode codes 15 0 0 l with
    | none => none
    | some (s, l) =>
      let wide := bitsOfFmt fmt = 16
      if wide ∧ l.length < 8 then none
      else
        let c := if wide then 256 * s + bitsVal (l.take 8) else s
        (decodeElems fmt codes n (if wide then l.drop 8 else l)).map (fun x => (c :: x.1, x.2))

/-- The bits of bytes (R191). -/
def unpackBits (l : List Byte) : List Bool := l.flatMap (fun b => bitsLsb 8 b.toNat)

/-- A stream of `n` elements decoded; bits left over must be fewer than 8 and 0 (R206). -/
def decodeStream (fmt : Nat) (lens : List (Nat × Nat)) (n : Nat) (b : List Byte) : Option (List Nat) :=
  match decodeElems fmt (codesOf lens) n (unpackBits b) with
  | some (l, rest) => if rest.length < 8 ∧ rest.all (!·) then some l else none
  | none => none

/-- A list cut in pieces of the given lengths. -/
def cutBy {α : Type} : List Nat → List α → List (List α)
  | [], _ => []
  | n :: r, l => l.take n :: cutBy r (l.drop n)

/-- Scale bytes of each stream at a position (R185). -/
def scaleCounts (strs : List (Nat × Nat × Nat)) : List Nat := strs.map (fun s => if isMX s.1 then s.2.2 / 32 else 0)

/-- The 16 positions of a block from each stream's elements and the scale part (R185). -/
def joinBlk (strs : List (Nat × Nat × Nat)) (elems : List (List Nat)) (scales : List Byte) : List Pos :=
  let rows := (strs.zip elems).map (fun x => groupsOf x.1.2.2 16 x.2)
  let sc := ((scaleCounts strs).zip (cutBy ((scaleCounts strs).map (16 * ·)) scales)).map (fun x => groupsOf x.1 16 (x.2.map (·.toNat)))
  (List.range 16).map (fun i => ⟨rows.flatMap (fun r => r.getD i []), sc.flatMap (fun r => r.getD i [])⟩)

/-- Bytes of a stream's rows in plain form (R186). -/
def rawBytes (s : Nat × Nat × Nat) : Nat := 16 * ceilDiv (s.2.2 * bitsOfFmt s.1) 8

/-- The elements of a stream in plain form. -/
def rawElems (s : Nat × Nat × Nat) (b : List Byte) : List Nat :=
  (groupsOf (ceilDiv (s.2.2 * bitsOfFmt s.1) 8) 16 b).flatMap (fun row =>
    (groupsOf (bitsOfFmt s.1) s.2.2 (unpackBits row)).map bitsVal)

/-- A block expanded from the bytes delivered for it, under the code tables of its page and its index entry: `none` when a
check of R206 on the block fails (DESIGN CHOICE, log entry 123). -/
def expandBlk (strs : List (Nat × Nat × Nat)) (lens : List (List (Nat × Nat))) (raw : Bool) (bytes elems : Nat) (b : List Byte) :
    Option (List Pos) :=
  if 16 * sumNat (strs.map (·.2.2)) ≠ elems then none
  else if raw then
    if b.length ≠ bytes then none
    else
      let parts := cutBy (strs.map rawBytes) b
      some (joinBlk strs ((strs.zip parts).map (fun x => rawElems x.1 x.2)) (b.drop (sumNat (strs.map rawBytes))))
  else
    let dir := (List.range strs.length).map (fun t => numAt b (2 * t) 2)
    let head := dirBytes strs
    if head + sumNat dir + scaleBytes strs ≠ bytes ∨ b.length < bytes then none
    else
      match ((strs.zip lens).zip (cutBy dir (b.drop head))).mapM (fun x => decodeStream x.1.1.1 x.1.2 (16 * x.1.1.2.2) x.2) with
      | some es => some (joinBlk strs es (b.drop (head + sumNat dir)))
      | none => none

/-- An index entry (R189): offset, declared size, elements, and whether the block is raw. -/
def indexAt (b : List Byte) (k : Nat) : Nat × Nat × Nat × Bool :=
  let o := 64 + 16 * k
  (numAt b o 4, numAt b (o + 4) 4, numAt b (o + 8) 4, numAt b (o + 12) 1 % 2 == 1)

/-- The header check (R206) of a page whose record holds `bytes` (DESIGN CHOICE, log entry 123). -/
def headerOk (strs : List (Nat × Nat × Nat)) (fmt bytes : Nat) (b : List Byte) : Bool :=
  numAt b 0 4 == 0x41545231 && numAt b 4 1 == 1 && numAt b 5 1 == fmt && numAt b 7 1 == strs.length && numAt b 36 4 == bytes
    && [16, 24, 32].all (fun o => decide (numAt b o 4 < bytes))

/-- The index check (R206). -/
def indexOk (strs : List (Nat × Nat × Nat)) (bytes : Nat) (b : List Byte) : Bool :=
  (List.range 8).all (fun k =>
    let (off, sz, n, raw) := indexAt b k
    let p := plainSize strs
    off % 64 == 0 && decide (off + sz ≤ bytes) && n == 16 * sumNat (strs.map (·.2.2))
      && (if raw then sz == p else decide (16 * sz ≤ 15 * p)))

/-- Whether the index lists a coded block. -/
def anyCoded (b : List Byte) : Bool := (List.range 8).any (fun k => !(indexAt b k).2.2.2)

/-- The code tables of a page's accord table. -/
def accordLens (strs : List (Nat × Nat × Nat)) (b : List Byte) : List (List (Nat × Nat)) := tablesFrom b (numAt b 16 4 + 16) strs

/-- The accord check (R206). -/
def accordOk (latent : Bool) (strs : List (Nat × Nat × Nat)) (fmt : Nat) (b : List Byte) : Bool :=
  let o := numAt b 16 4
  !anyCoded b || (numAt b (o + 1) 1 == alphaLog (fmt % 16) && numAt b (o + 2) 1 == (if latent then 0 else alphaLog (fmt / 16))
    && (accordLens strs b).all validTable)

/-- The checks on a page's tables (R206) (DESIGN CHOICE, log entry 123). -/
def tablesOk (latent : Bool) (strs : List (Nat × Nat × Nat)) (fmt bytes : Nat) (b : List Byte) : Bool :=
  headerOk strs fmt bytes b && indexOk strs bytes b && accordOk latent strs fmt b

/-- Block `k` of a page whose header, index and accord tables are `tab`, expanded from `b`. -/
def expandAt (strs : List (Nat × Nat × Nat)) (tab : List Byte) (k : Nat) (b : List Byte) : Option (List Pos) :=
  let (_, sz, n, raw) := indexAt tab k
  expandBlk strs (if raw then [] else accordLens strs tab) raw sz n b

/-- The bytes of block `k` in a page. -/
def blkOf (img : List Byte) (k : Nat) : List Byte :=
  let (off, sz, _, _) := indexAt img k
  (img.drop off).take sz

/-- Whether every check of R206 on a page and on its blocks passes. -/
def pageOk (latent : Bool) (strs : List (Nat × Nat × Nat)) (fmt bytes : Nat) (img : List Byte) : Bool :=
  tablesOk latent strs fmt bytes img && img.length == bytes
    && (List.range 8).all (fun k => (expandAt strs img k (blkOf img k)).isSome)

/-! ### The image of a page record (R187, R213) -/

/-- Streams of a sealed page in a context (R185). -/
def Page.strs (c : Ctx) (p : Page) : List (Nat × Nat × Nat) := streamsOf c.latent c.h c.d c.w p.format

/-- Stored bytes of a sealed page (R187, R213). -/
def Page.image (c : Ctx) (p : Page) : List Byte :=
  p.stored.getD (attarImage c.latent c.h c.d c.w p.format p.layer p.posBase p.sealedAt p.sumBytes p.pos)

/-- Header and index checks of a page image that arrives (R206, R213, R217). -/
def Page.arrivalOk (c : Ctx) (p : Page) (img : List Byte) : Bool :=
  img.length == p.bytes && headerOk (p.strs c) p.format p.bytes img && indexOk (p.strs c) p.bytes img

/-- Every check of R206, by the reference decoder (R209). -/
def Page.sound (c : Ctx) (p : Page) (img : List Byte) : Bool := pageOk c.latent (p.strs c) p.format p.bytes img

/-- A position of zeros of a page. -/
def Page.zeroPos (c : Ctx) (p : Page) : Pos :=
  ⟨List.replicate c.elems 0, List.replicate (sumNat (scaleCounts (p.strs c))) 0⟩

/-- A page record whose stored bytes are `img`, kept unchanged (R213). A block that does not expand has zeros, which nothing
reads: its expansion fails (R206). -/
def Page.withImage (c : Ctx) (img : List Byte) (p : Page) : Page :=
  if img = p.image c then p
  else
    let strs := p.strs c
    let blks := (List.range 8).map (fun k => let x := indexAt img k; (⟨x.2.1, x.2.2.2⟩ : BlkInfo))
    { p with
      bytes := img.length, raw := blks.any (·.raw), blks := blks, sumBytes := numAt img 28 4
      sealedAt := numAt img 48 8, stored := some img
      pos := (List.range 8).flatMap (fun k => (expandAt strs img k (blkOf img k)).getD (List.replicate 16 (p.zeroPos c))) }

end Sys2Proof.Machine
end

