-- ==== Sys2Proof/Machine/Chain.lean ====
section
/-!
DEFINITION. Sys2Proof/Machine/Chain.lean: the chain hash (R84): cSHAKE128 of NIST SP 800-185 with an empty function name
and the customisation string NORVOS CHAIN V1.
-/
namespace Sys2Proof.Machine

/-- Rotation of a 64-bit lane. -/
def rotl64 (n x : Nat) : Nat :=
  let n := n % 64
  (x * 2 ^ n) % 2 ^ 64 + x / 2 ^ (64 - n)

/-- Lane (x, y) of a state of 25 lanes, at index x + 5y. -/
def lane (a : List Nat) (x y : Nat) : Nat := a.getD (x % 5 + 5 * (y % 5)) 0

/-- Rotation offsets of the rho step, by index x + 5y. -/
def rhoOffsets : List Nat :=
  [0, 1, 62, 28, 27, 36, 44, 6, 55, 20, 3, 10, 43, 25, 39, 41, 45, 15, 21, 8, 18, 2, 61, 56, 14]

/-- Round constants of the iota step. -/
def roundConstants : List Nat :=
  [0x0000000000000001, 0x0000000000008082, 0x800000000000808A, 0x8000000080008000, 0x000000000000808B, 0x0000000080000001,
   0x8000000080008081, 0x8000000000008009, 0x000000000000008A, 0x0000000000000088, 0x0000000080008009, 0x000000008000000A] ++
  [0x000000008000808B, 0x800000000000008B, 0x8000000000008089, 0x8000000000008003, 0x8000000000008002, 0x8000000000000080,
   0x000000000000800A, 0x800000008000000A, 0x8000000080008081, 0x8000000000008080, 0x0000000080000001, 0x8000000080008008]

/-- One round of Keccak-f[1600]. -/
def keccakRound (a : List Nat) (rc : Nat) : List Nat :=
  let c := (List.range 5).map (fun x => (List.range 5).foldl (fun v y => v ^^^ lane a x y) 0)
  let d := (List.range 5).map (fun x => c.getD ((x + 4) % 5) 0 ^^^ rotl64 1 (c.getD ((x + 1) % 5) 0))
  let th := (List.range 25).map (fun i => a.getD i 0 ^^^ d.getD (i % 5) 0)
  let rho := (List.range 25).map (fun i => rotl64 (rhoOffsets.getD i 0) (th.getD i 0))
  -- pi: B[y, 2x + 3y] = A[x, y], so the lane at (X, Y) comes from x = X + 3Y, y = X
  let pi := (List.range 25).map (fun i => lane rho (i % 5 + 3 * (i / 5)) (i % 5))
  let chi := (List.range 25).map (fun i =>
    let x := i % 5
    let y := i / 5
    lane pi x y ^^^ ((2 ^ 64 - 1 - lane pi (x + 1) y) &&& lane pi (x + 2) y))
  match chi with
  | [] => []
  | l :: r => (l ^^^ rc) :: r

def keccakF (a : List Nat) : List Nat := roundConstants.foldl keccakRound a

/-- A little-endian number of a list of bytes given as numbers. -/
def leNat : List Nat → Nat
  | [] => 0
  | b :: r => b % 256 + 256 * leNat r

/-- The state with one block of 168 bytes absorbed. -/
def absorb (a : List Nat) (blk : List Nat) : List Nat :=
  keccakF ((List.range 25).map (fun i => a.getD i 0 ^^^ leNat ((blk.drop (8 * i)).take (if i < 21 then 8 else 0))))

/-- Blocks absorbed in order; `k` bounds their number. -/
def absorbAll : Nat → List Nat → List Nat → List Nat
  | 0, a, _ => a
  | k + 1, a, l => if l.isEmpty then a else absorbAll k (absorb a (l.take 168)) (l.drop 168)

/-- NORVOS CHAIN V1 in ASCII. -/
def chainCustom : List Nat := [78, 79, 82, 86, 79, 83, 32, 67, 72, 65, 73, 78, 32, 86, 49]

/-- bytepad(encode_string("") || encode_string(S), 168) of SP 800-185. -/
def chainPrefix : List Nat :=
  let l := [1, 168, 1, 0, 1, 120] ++ chainCustom
  l ++ List.replicate (168 - l.length) 0

/-- The message padded for cSHAKE: suffix bits 00, then pad10*1. -/
def padShake (l : List Nat) : List Nat :=
  let r := 168 - (l.length + 1) % 168
  let r := if r = 168 then 0 else r
  let m := l ++ [4] ++ List.replicate r 0
  m.dropLast ++ [(m.getLastD 0) + 128]

/-- cSHAKE128 with the chain customisation, 128 bits of output as a little-endian number (R84). -/
def cshakeChain (msg : List Nat) : Nat :=
  let l := padShake (chainPrefix ++ msg)
  let a := absorbAll (l.length / 168 + 1) (List.replicate 25 0) l
  a.getD 0 0 + 2 ^ 64 * a.getD 1 0

/-- `v` as `n` little-endian byte numbers. -/
def leNats : Nat → Nat → List Nat
  | 0, _ => []
  | n + 1, v => v % 256 :: leNats n (v / 256)

/-- The chain hash of a chunk (R84): parent key, model identifier and the 128 token identifiers. -/
def chainHash (parent model : Nat) (tokens : List Nat) : Nat :=
  cshakeChain (leNats 16 parent ++ leNats 4 model ++ tokens.flatMap (leNats 4))

/-- The state with one block of 136 bytes absorbed. -/
def absorb136 (a : List Nat) (blk : List Nat) : List Nat :=
  keccakF ((List.range 25).map (fun i => a.getD i 0 ^^^ leNat ((blk.drop (8 * i)).take (if i < 17 then 8 else 0))))

/-- Blocks absorbed in order; `k` bounds their number. -/
def absorbAll136 : Nat → List Nat → List Nat → List Nat
  | 0, a, _ => a
  | k + 1, a, l => if l.isEmpty then a else absorbAll136 k (absorb136 a (l.take 136)) (l.drop 136)

/-- SHAKE256 with `n` bytes of output, at most 136 (R430). -/
def shake256 (msg : List Nat) (n : Nat) : List Nat :=
  let r := (136 - (msg.length + 1) % 136) % 136
  let m := msg ++ [31] ++ List.replicate r 0
  let l := m.dropLast ++ [m.getLastD 0 ^^^ 128]
  let a := absorbAll136 (l.length / 136 + 1) (List.replicate 25 0) l
  ((List.range 17).flatMap (fun i => leNats 8 (a.getD i 0))).take n

end Sys2Proof.Machine
end

