-- ==== Sys2Proof/Machine/Access.lean ====
section
/-!
DEFINITION. Sys2Proof/Machine/Access.lean: who sees and writes which register: the view of a VF (R310), the RWL lock (R12,
R567), dies served from their shadow (R566), and settings that wait for a boundary (R594).
-/
namespace Sys2Proof.Machine

/-- Whether partition `p` is SEALED, REMOVING or ORPHANED: its RWL fields are locked (R567). -/
def State.locked (s : State) (p : Nat) : Bool := decide (ptnSealed ≤ s.ptnState p) && decide (s.ptnState p ≤ ptnOrphaned)

/-- Whether the RWL fields of a die's window are locked (R567). -/
def State.dieLocked (s : State) (d : Nat) : Bool := match s.owner d with | some p => s.locked p | none => false

/-- Unit-state of a die is LOST (R464). -/
def State.dieLost (s : State) (d : Nat) : Bool := s.fget RAS_DIE_STATE_STATE d == 4

/-- Whether a die's window is served from its shadow: P2, P3 or LOST (R566). -/
def State.shadowed (s : State) (d : Nat) : Bool := decide (2 ≤ s.fget DPM_STATUS_STATE d) || s.dieLost d

/-- First offset of the die windows and their size (R562). -/
def windowBase : Nat := 0x1000000
def windowSize : Nat := 0x400000

/-- The die whose window an offset lies in. -/
def dieOfOff (off : Nat) : Option Nat :=
  if windowBase ≤ off ∧ off < windowBase + 8 * windowSize then some ((off - windowBase) / windowSize) else none

/-- What the VF of function `f` sees at an offset (R310): 0 nothing, 1 read-only, 2 read and write. Its own doorbell pages are
in the view (R318). -/
def State.vfView (s : State) (f off : Nat) : Nat :=
  let p := fnPart f
  if off = 0 then 1
  else if !s.bound p (fnPort f) then 0
  else if 0x10000 ≤ off ∧ off < 0x10030 then 1
  else if 0x10100 + p * 0x40 ≤ off ∧ off < 0x10100 + (p + 1) * 0x40 then 2
  else if 0x10400 ≤ off ∧ off < 0x10500 then (if (s.diesOf p).contains ((off - 0x10400) / 0x20) then 2 else 0)
  else if 0x20100 + f * 0x40 ≤ off ∧ off < 0x20100 + (f + 1) * 0x40 then 2
  else if off = 0x40004 ∨ off = 0x40014 ∨ (0x40030 ≤ off ∧ off < 0x40040) then 1
  else if 0x70100 ≤ off ∧ off < 0x70300 then (if (s.diesOf p).contains ((off - 0x70100) / 0x40) then 1 else 0)
  else if 0x80100 + p * 0x40 ≤ off ∧ off < 0x80100 + (p + 1) * 0x40 then (if off = 0x80100 + p * 0x40 then 1 else 2)
  else if off = 0xA000C + p * 0x20 then 1
  else
    match dieOfOff off with
    | some d => if (s.diesOf p).contains d then 2 else 0
    | none => if 0x3000000 + f * 0x100000 ≤ off ∧ off < 0x3000000 + (f + 1) * 0x100000 then 2 else 0

/-- An access outside a VF's view (R310). -/
def State.violation (s : State) (f : Nat) : State := (s.fadd HRG_VIOLATIONS_COUNT f 1).evtFn HRG_FEVENT_VIOLATION f

/-- A register write by a path: outside a VF's view it changes nothing and is a violation (R310). -/
def regWrite (via : Via) (off : Nat) (s : State) (go : State → State) : State :=
  match via with
  | .vf f => if s.vfView f off = 2 then go s else s.violation f
  | _ => go s

/-- A register read by a path: the value goes out; outside a VF's view it is 0 and a violation (R310). -/
def regRead (via : Via) (off : Nat) (s : State) (go : State → Nat × State) : State :=
  let out (r : Nat × State) : State := r.2.emit (.regValue off (BitVec.ofNat 32 r.1))
  match via with
  | .vf f => if s.vfView f off = 0 then out (0, s.violation f) else out (go s)
  | _ => out (go s)

/-- PORT of SYS_BAD_ADDR: the port of the path; for the console, which has none, a free bit (DESIGN CHOICE, log entry 72). -/
def State.portOf (s : State) : Via → Nat × State
  | .pf x => (x % 2, s)
  | .vf f => (fnPort f, s)
  | .console => s.sensed 1

/-- SYS_BAD_ADDR records an access (DESIGN CHOICE, log entry 72). -/
def State.badAddr (s : State) (via : Via) (off : Nat) : State :=
  let (x, s) := s.portOf via
  (s.fset SYS_BAD_ADDR_PORT 0 x).fset SYS_BAD_ADDR_OFFSET 0 off

/-- A value outside a field's range through the PF or the console (R13). -/
def State.badField (s : State) (via : Via) (off : Nat) : State :=
  match via with
  | .vf _ => s
  | _ => (s.evtPkg SYS_EVENT_BAD_FIELD).badAddr via off

/-- BAR0 offset of a field's register. -/
def Fld.at_ (F : Fld) (i : Nat) : Nat := F.off + i * F.stride

/-- The partition whose boundaries a field's waiting writes take: that of the die or register concerned (R594). -/
def State.boundaryOf (s : State) (off : Nat) : Option Nat :=
  match dieOfOff off with
  | some d => s.owner d
  | none =>
    if 0x10100 ≤ off ∧ off < 0x10300 then some ((off - 0x10100) / 0x40)
    else if 0x10400 ≤ off ∧ off < 0x10500 then s.owner ((off - 0x10400) / 0x20)
    else if 0x70000 ≤ off ∧ off < 0x70100 then some 0
    else if 0x80100 ≤ off ∧ off < 0x80300 then some ((off - 0x80100) / 0x40)
    else none

/-- No write of the setting waits any more. -/
def State.unforce (s : State) (k : Nat) : State := { s with force := tdel s.force k }

/-- A setting written with effect at once: a write that waited is replaced (R594). -/
def State.fsetNow (s : State) (F : Fld) (i v : Nat) : State := (s.fset F i v).unforce (F.key i)

/-- A setting written that takes effect at its boundary, or at once when no generator runs (R594) (DESIGN CHOICE, log entry 11). -/
def State.fsetWhen (s : State) (F : Fld) (i v : Nat) : State :=
  match s.boundaryOf (F.at_ i) with
  | some p => if (s.part p).genOn then s.fsetLater F i v else s.fsetNow F i v
  | none => s.fsetNow F i v

/-- Whether a waiting write is one of the DPM_AVS registers, which wait for AVS_STEP (R525) (DESIGN CHOICE, log entry 11). -/
def avsKey (k : Nat) : Bool :=
  [DPM_AVS_CAS_VMIN, DPM_AVS_LOG_VMIN, DPM_AVS_CFG_EN].any (fun F => (keyOff k - F.off) % F.stride == 0 && decide (F.off ≤ keyOff k))

/-- Waiting writes of the partition's registers take effect, but for those that `keep` names (R594) (DESIGN CHOICE, log entry 11). -/
def State.applyWrites (s : State) (p : Nat) (keep : Nat → Bool) : State :=
  s.applyForce ((tkeys s.force).filter (fun k => s.boundaryOf (keyOff k) == some p && !avsKey k && !keep k))

/-- Waiting writes of dies that belong to no partition take effect (R594). -/
def State.applyUnowned (s : State) : State :=
  s.applyForce ((tkeys s.force).filter (fun k => s.boundaryOf (keyOff k) == none && !avsKey k))

/-- The written period and slots of a partition come into force (R595) (DEDUCED, log entry 15). -/
def State.takePeriod (s : State) (p : Nat) : State :=
  s.modPart p (fun v =>
    { v with perN := s.fget TIK_PERIOD_N p, perSlots := s.fget TIK_PERIOD_SLOTS p, pendPer := false })

/-- Keys of waiting writes whose boundary is that of partition `p` and whose register satisfies `sel`. -/
def State.waiting (s : State) (p : Nat) (sel : Nat → Bool) : List Nat :=
  (tkeys s.force).filter (fun k => s.boundaryOf (keyOff k) == some p && sel k)

end Sys2Proof.Machine
end

