-- ==== Sys2Proof/Machine/Flags.lean ====
section
/-!
DEFINITION. Sys2Proof/Machine/Flags.lean: status codes and their precedence (R48), and the checks every descriptor meets
before its own rules (R324, R325, R424, R434, R488).
-/
namespace Sys2Proof.Machine

/-- Rank of a status in the precedence of R48, highest first. -/
def statusRank (st : Nat) : Nat :=
  if st = stINTEGRITY then 11
  else if st = stLOST then 10
  else if st = stRECOVERED then 9
  else if st = stFENCED then 8
  else if st = stACCESS then 7
  else if st = stREVOKED then 6
  else if st = stMALFORMED then 5
  else if st = stQUOTA then 4
  else if st = stNOT_READY then 3
  else if st = stLATE then 2
  else if st = stDEFERRED then 1
  else 0

/-- The status that prevails of two (R48). -/
def prevail (a b : Nat) : Nat := if statusRank a < statusRank b then b else a

/-- Whether a status comes with an output block (R122). -/
def hasOutput (st : Nat) : Bool := st == stOK || st == stLATE || st == stDEFERRED || st == stRECOVERED

/-- Opcodes the part assigns (R324, and the chapters it names). -/
def knownOp (op : Nat) : Bool :=
  decide (op ≤ 0x03) || (decide (0x10 ≤ op) && decide (op ≤ 0x14)) || (decide (0x20 ≤ op) && decide (op ≤ 0x26))
    || (decide (0x30 ≤ op) && decide (op ≤ 0x34)) || (decide (0x40 ≤ op) && decide (op ≤ 0x46))
    || (decide (0x50 ≤ op) && decide (op ≤ 0x57)) || (decide (0x70 ≤ op) && decide (op ≤ 0x73))

/-- Descriptors an ORPHANED partition accepts (R488). -/
def orphanOp (op : Nat) : Bool := decide (op ≤ 0x03) || op == 0x14 || op == 0x70 || op == 0x73

/-- Descriptors accepted before the seal (R325). -/
def unsealedOp (op : Nat) : Bool := decide (op ≤ 0x03) || (decide (0x10 ≤ op) && decide (op ≤ 0x1F))

/-- The status with which a descriptor completes before its own rules are looked at, if any: in ERROR (R434), in a partition
being removed (R423) or orphaned (R488), with a reserved field that is not 0 (R325), before the seal (R325), or when a read of
host memory failed (R325). -/
def State.gate (s : State) (d : Desc) (op : Nat) : Option Nat :=
  let st := s.ptnState d.part
  if s.fbit SEC_STATUS_ERROR 0 && !decide (op ≤ 0x01) then some stNOT_READY
  else if st == ptnRemoving then some stFENCED
  else if st == ptnOrphaned && !orphanOp op then some stFENCED
  else if d.resv then some stMALFORMED
  else if st != ptnSealed && st != ptnOrphaned && !unsealedOp op then some stNOT_READY
  else if d.readFail then some stACCESS
  else none

/-- A descriptor's command: while ORDER holds it back nothing happens (R333); otherwise it is accepted if no fetch
accepted it, the general checks are made, and `go` is its own effect. -/
def runDesc (d : Desc) (op body0 : Nat) (s : State) (go : State → State) : State :=
  if s.orderWait d then s
  else
    let s := s.begin d op body0
    match s.gate d op with
    | some st => s.fail d st
    | none => go s

end Sys2Proof.Machine
end

