-- ==== Sys2Proof/Machine/UnitState.lean ====
section
/-!
DEFINITION. Sys2Proof/Machine/UnitState.lean: the rows of the unit-state table and the effective state of a unit (R473 to R476).
-/
namespace Sys2Proof.Machine

/-! ### The unit-state table (R473 to R476) -/

/-- Unit kinds of R474. -/
def uWicket : Nat := 1
def uCluster : Nat := 2
def uRegion : Nat := 3
def uPane : Nat := 4
def uAtm : Nat := 5
def uStack : Nat := 6
def uChan : Nat := 7
def uFabric : Nat := 8
def uHost : Nat := 9
def uLink : Nat := 10
def uCtl : Nat := 11
def uDie : Nat := 12

/-- Effective states of R475. -/
def usACTIVE : Nat := 0
def usFENCED : Nat := 1
def usDISPUTED : Nat := 2
def usTESTING : Nat := 3
def usLOST : Nat := 4
def usABSENT : Nat := 5

/-- The dies at the other end of a die's UCIe links (R474, R538); the spec gives four links a die and not their ends. -/
def State.linksOf (s : State) (d : Nat) : List Nat :=
  (List.range s.nDies).filter (fun e => Nat.xor d e == 1 || Nat.xor d e == 2 || Nat.xor d e == 4 || Nat.xor d e == 7)

/-- Indices of the units of a kind on a die (R474). -/
def State.unitIdx (s : State) (k d : Nat) : List Nat :=
  if s.nDies ≤ d then []
  else if k = uWicket then List.range 256
  else if k = uCluster then List.range 32
  else if k = uRegion ∨ k = uPane ∨ k = uAtm then List.range 4
  else if k = uStack then List.range 3
  else if k = uChan then List.range 16
  else if k = uHost then (if d = 0 ∨ d = s.nDies / 2 then [0] else [])
  else if k = uLink then s.linksOf d
  else if k = uFabric ∨ k = uCtl ∨ k = uDie then [0]
  else []

def State.unitExists (s : State) (k d i : Nat) : Bool := (s.unitIdx k d).contains i

def unitKey (k d i : Nat) : Nat := k * 2 ^ 24 + d * 2 ^ 16 + i

def State.row (s : State) (k d i : Nat) : UnitRow := dget s.ras.units UnitRow.init (unitKey k d i)
def State.modRow (s : State) (k d i : Nat) (f : UnitRow → UnitRow) : State :=
  { s with ras := { s.ras with units := dset s.ras.units UnitRow.init (unitKey k d i) (f (s.row k d i)) } }

/-- The effective state that the two reports give (R476). -/
def UnitRow.own (r : UnitRow) : Nat :=
  if r.lost then usLOST
  else if r.testing then usTESTING
  else if r.data = 2 then (if r.mgmt = 1 then usDISPUTED else usFENCED)
  else if r.mgmt = 2 then (if r.data = 1 then usDISPUTED else usFENCED)
  else usACTIVE

/-- Effective state of a unit that the variant has: one whose cluster, region or die is FENCED is FENCED (R463, R477, R482). -/
def State.unitIn (s : State) (k d i : Nat) : Nat :=
  let fenced (k i : Nat) : Bool := (s.row k d i).own == usFENCED
  if k ≠ uDie ∧ (s.row uDie d 0).lost then usFENCED
  else if k = uWicket ∧ (fenced uCluster (i / 8) ∨ fenced uRegion (i / 64)) then usFENCED
  else if k = uCluster ∧ fenced uRegion (i / 8) then usFENCED
  else (s.row k d i).own

/-- Effective state of a unit (R475, R476). -/
def State.unitState (s : State) (k d i : Nat) : Nat := if s.unitExists k d i then s.unitIn k d i else usABSENT

/-- Whether a clock domain of R499, by its number, runs on a die in power state `st`. -/
def clockRuns (dom st : Nat) : Bool :=
  match dom with
  | 1 => st == 0
  | 4 => decide (st < 3)
  | 14 => true
  | 15 => true
  | 16 => true
  | 17 => true
  | 18 => true
  | _ => decide (st < 2)

/-- Whether clock domain `dom` runs on a die (R499, R502). -/
def State.clockOn (s : State) (d dom : Nat) : Bool := clockRuns dom (s.fget DPM_STATUS_STATE d)

/-- Whether a unit takes new work: it is neither FENCED, DISPUTED nor TESTING (R475). -/
def State.unitOn (s : State) (k d i : Nat) : Bool := s.unitState k d i == usACTIVE

/-- Whether a host port takes new work. -/
def State.hostOn (s : State) (port : Nat) : Bool := s.unitOn uHost (if port = 0 then 0 else s.nDies / 2) 0

end Sys2Proof.Machine
end

