-- ==== Sys2Proof/Machine/Pages.lean ====
section
/-!
DEFINITION. Sys2Proof/Machine/Pages.lean: segments and frames, page and chunk records, references, the limbo list and
epochs, the sequence index and the prefix tree of a die (R59 to R93).
-/
namespace Sys2Proof.Machine

/-! ### Contexts -/

/-- Context `c` of partition `p`, if it exists (R416). -/
def State.ctx? (s : State) (p c : Nat) : Option Ctx := tget (s.part p).ctxs c

/-- The partition a die works for; a die in none works for no context. -/
def State.dieCtx? (s : State) (d c : Nat) : Option Ctx :=
  match s.owner d with
  | some p => s.ctx? p c
  | none => none

def State.modCtx (s : State) (p c : Nat) (f : Ctx → Ctx) : State :=
  s.modPart p (fun v => { v with ctxs := tmod v.ctxs c f })

/-- Whether a die is fenced or lost: its unit row is not ACTIVE (R101, R464) (DESIGN CHOICE, log entry 105). -/
def State.dieDown (s : State) (d : Nat) : Bool := s.fget RAS_DIE_STATE_STATE d != 0

/-! ### The free pool (R62 to R65, R571) -/

/-- Segments of a stack below its reserved top (R571). -/
def State.stackSegs (s : State) (d : Nat) : Nat := 2 ^ 24 - s.fget MEM_RSVD_RSVD_MIB d / 3 * 256

/-- Segments of stack `k` taken by the structures of R103, lowest first. -/
def State.placedIn (s : State) (d k : Nat) : Nat :=
  min (s.stackSegs d) ((s.pfx d).placed - k * s.stackSegs d)

/-- Whether stack `k` of a die is in service (R471). -/
def State.stackOn (s : State) (d k : Nat) : Bool := (s.fget RAS_DIE_STATE_STACKS d).testBit k

/-- Used segments of stack `k`. -/
def State.usedIn (s : State) (d k : Nat) : List Nat := (s.pfx d).used.filter (fun g => g / 2 ^ 24 == k)

/-- Free segments of stack `k`: one that is DISPUTED or TESTING gives none (R475). -/
def State.freeIn (s : State) (d k : Nat) : Nat :=
  if s.stackOn d k && s.unitOn uStack d k then s.stackSegs d - s.placedIn d k - (s.usedIn d k).length else 0

/-- Free segments of the die's pool (PFX_FREE_SEGS). -/
def State.freeSegs (s : State) (d : Nat) : Nat := s.freeIn d 0 + s.freeIn d 1 + s.freeIn d 2

/-- A number put in a rising list. -/
def insNat (n : Nat) : List Nat → List Nat
  | [] => [n]
  | x :: r => if n < x then n :: x :: r else if n = x then x :: r else x :: insNat n r

/-- One free segment taken; which one is a free value among the free ones (DESIGN CHOICE, log entry 8). -/
def State.takeSeg (s : State) (d : Nat) : Nat × State :=
  let c := Config.pick s.free
  let s := { s with free := s.free + 1 }
  let on := (List.range 3).filter (fun k => decide (0 < s.freeIn d k))
  let k := on.getD (c % on.length) 0
  let lo := k * 2 ^ 24 + s.placedIn d k
  let g := nthFree (s.usedIn d k) lo (c / max on.length 1 % max (s.freeIn d k) 1)
  (g, s.modPfx d (fun x => { x with used := insNat g x.used }))

/-- `n` segments taken one by one. -/
def State.takeSegs (s : State) (d : Nat) : Nat → List Nat × State
  | 0 => ([], s)
  | n + 1 =>
    let (l, s) := s.takeSegs d n
    let (g, s) := s.takeSeg d
    (l ++ [g], s)

/-- Segments charged to context `c` on die `d` (R209, R227, R368): frames, those in limbo and those of staging tasks and rebuilds
included, latent weights, gradient regions, replica frames and regions. -/
def State.charged (s : State) (d c : Nat) : Nat :=
  let pages := sumNat ((s.pfx d).pages.map (fun e => if e.2.ctx = c then e.2.segs.length else 0))
  let w := match s.dieCtx? d c with
    | some x => sumNat (x.weights.map (fun e => e.2.segs.length))
    | none => 0
  let g := sumNat ((s.csm d).grads.map (fun e => if e.2.ctx = c then e.2.segs.length else 0))
  let r := sumNat ((s.stg d).replicas.map (fun e => if e.2.ctx = c then e.2.segs.length else 0))
    + sumNat ((s.stg d).loose.map (fun e => if e.ctx = c then e.segs.length else 0))
  let k := sumNat ((s.nrt d).keys.map (fun e => if e.2.st ≠ .free ∧ e.2.ctx = c then e.2.segs.length else 0))
  let l := sumNat ((s.pfx d).limbo.map (fun e => match e.what with | .frame x l => if x = c then l.length else 0 | _ => 0))
  let t := sumNat ((s.stg d).tasks.map (fun t => match tget (s.pfx d).pages t.page with
    | some p => if p.ctx = c then t.segs.length else 0
    | none => 0))
  pages + w + g + r + k + l + t

/-- Whether `n` more segments keep context `c` within HBM_MAX (R228). -/
def State.quotaOk (s : State) (d c n : Nat) : Bool :=
  match s.dieCtx? d c with
  | some x => x.hbmMax == 0 || decide (s.charged d c + n ≤ x.hbmMax)
  | none => true

/-- The free pool, page table or chunk table could not serve an edit (R64, R65). -/
def State.nomem (s : State) (d : Nat) : State := s.evtDie PFX_EVENT_NOMEM d

/-- Retired segments of a die (R466) (DEDUCED, log entry 51). -/
def State.retiredSegs (s : State) (d : Nat) : List Nat := dget s.ras.retired [] d

/-- Segments returned to the free pool; a retired one never returns (R466). -/
def State.giveSegs (s : State) (d : Nat) (l : List Nat) : State :=
  let dead := s.retiredSegs d
  s.modPfx d (fun x => { x with used := x.used.filter (fun g => !l.contains g || dead.contains g) })

/-! ### Records and references (R66 to R69, R91) -/

def State.page? (s : State) (d id : Nat) : Option Page := tget (s.pfx d).pages id
def State.modPage (s : State) (d id : Nat) (f : Page → Page) : State :=
  s.modPfx d (fun x => { x with pages := tmod x.pages id f })
def State.chunk? (s : State) (d id : Nat) : Option Chunk := tget (s.pfx d).chunks id
def State.modChunk (s : State) (d id : Nat) (f : Chunk → Chunk) : State :=
  s.modPfx d (fun x => { x with chunks := tmod x.chunks id f })

/-- FREE records of the page and chunk tables; record 0 is never used (R66, R69). -/
def State.freePages (s : State) (d : Nat) : Nat := s.fget PFX_PAGE_CAP_CAP d - 1 - (s.pfx d).pages.length
def State.freeChunks (s : State) (d : Nat) : Nat := s.fget PFX_CHUNK_CAP_CAP d - 1 - (s.pfx d).chunks.length

/-- A FREE record's ID, a free value among the free ones (DESIGN CHOICE, log entry 8). -/
def State.pickId (s : State) (used : List Nat) (n : Nat) : Nat × State :=
  let c := Config.pick s.free
  (nthFree used 1 (c % max n 1), { s with free := s.free + 1 })

/-- The epoch of a die (R92). -/
def State.epoch (s : State) (d : Nat) : Nat := s.fget PFX_EPOCH_EPOCH d

/-- Something released now: it enters limbo with release epoch e + 1 (R92). -/
def State.toLimbo (s : State) (d : Nat) (w : LimboWhat) : State :=
  let rel := (s.epoch d + 1) % 2 ^ 32
  s.modPfx d (fun x => { x with limbo := x.limbo ++ [⟨w, rel⟩] })

/-- Segments of a body, tail record or list released; nothing to do for none. -/
def State.segsToLimbo (s : State) (d : Nat) (l : List Nat) : State :=
  if l.isEmpty then s else s.toLimbo d (.segs l)

/-- The segments of a frame of a page of context `c` released: they stay charged until they are reclaimed (R92, R227). -/
def State.frameToLimbo (s : State) (d c : Nat) (l : List Nat) : State :=
  if l.isEmpty then s else s.toLimbo d (.frame c l)

/-- A reference added to a page (R91). -/
def State.addRef (s : State) (d id : Nat) : State := s.modPage d id (fun p => { p with refs := p.refs + 1 })

/-- A page without references enters limbo: it leaves the lost-page list and its rebuild ends (R92, R209, R211). -/
def State.limboPage (s : State) (d id : Nat) : State :=
  let rel := (s.epoch d + 1) % 2 ^ 32
  let s := s.modPage d id (fun p => { p with st := .limbo, rel := rel })
  let s := s.modPfx d (fun x => { x with lost := x.lost.filter (· != id) })
  let s := s.fsat ATM_LOST_COUNT d (s.pfx d).lost.length
  let s := s.modCsm d (fun x => { x with rebuilds := x.rebuilds.filter (fun r => r.1 != id) })
  let s := s.fsat ATM_STATUS_REBUILDS d (s.csm d).rebuilds.length
  let ctx := match s.page? d id with | some p => p.ctx | none => 0
  -- a staging task of the page ends, and its frame enters limbo (R246)
  let own := ((s.stg d).tasks.filter (fun t => t.page == id)).flatMap (·.segs)
  let s := s.modStg d (fun x => { x with tasks := x.tasks.map (fun t => if t.page = id then { t with segs := [] } else t) })
  (s.frameToLimbo d ctx own).toLimbo d (.page id)

/-- A reference dropped from a page; the last one sends it to limbo (R91, R93). -/
def State.dropRef (s : State) (d id : Nat) : State :=
  match s.page? d id with
  | none => s
  | some p =>
    let s := s.modPage d id (fun p => { p with refs := p.refs - 1 })
    if p.refs ≤ 1 && p.st != .limbo then s.limboPage d id else s

def State.addRefs (s : State) (d : Nat) (l : List Nat) : State := l.foldl (fun s id => s.addRef d id) s
def State.dropRefs (s : State) (d : Nat) (l : List Nat) : State := l.foldl (fun s id => s.dropRef d id) s

/-- A holder of a chunk added: its pages each gain a reference (R91). -/
def State.addHold (s : State) (d id : Nat) : State :=
  match s.chunk? d id with
  | none => s
  | some c => (s.modChunk d id (fun c => { c with holders := c.holders + 1 })).addRefs d c.pages

/-- A holder of a chunk dropped; the last one sends the record to limbo (R90, R91). -/
def State.dropHold (s : State) (d id : Nat) : State :=
  match s.chunk? d id with
  | none => s
  | some c =>
    let s := (s.modChunk d id (fun c => { c with holders := c.holders - 1 })).dropRefs d c.pages
    if c.holders ≤ 1 then
      let rel := (s.epoch d + 1) % 2 ^ 32
      (s.modChunk d id (fun c => { c with st := .limbo, rel := rel })).toLimbo d (.chunk id)
    else s

/-! ### Segment lists (R65) -/

/-- A free list slot of the list segments held, if there is one: the segment and the slot in it (DESIGN CHOICE, log entry 112). -/
def Pfx.listSlot (x : Pfx) : Option (Nat × Nat) :=
  x.listSegs.findSome? (fun e => if e.2 = 3 then none else some (e.1, if e.2.testBit 0 then 1 else 0))

/-- Segments a new segment list needs from the pool: one when no slot is free (R65). -/
def State.listNeed (s : State) (d : Nat) : Nat := if ((s.pfx d).listSlot).isSome then 0 else 1

/-- A list slot taken, numbered 2 × list segment + slot (DESIGN CHOICE, log entry 112). -/
def State.takeList (s : State) (d : Nat) : Nat × State :=
  match (s.pfx d).listSlot with
  | some (g, i) => (2 * g + i, s.modPfx d (fun x => { x with listSegs := tmod x.listSegs g (fun m => setBit m i true) }))
  | none =>
    let (g, s) := s.takeSeg d
    (2 * g, s.modPfx d (fun x => { x with listSegs := tput x.listSegs g 1 }))

/-- A list slot given back; a list segment with both slots free is released under R92. -/
def State.giveList (s : State) (d a : Nat) : State :=
  if a = 0 then s
  else
    let g := a / 2
    match tget (s.pfx d).listSegs g with
    | none => s
    | some m =>
      let m := setBit m (a % 2) false
      if m = 0 then (s.modPfx d (fun x => { x with listSegs := tdel x.listSegs g })).segsToLimbo d [g]
      else s.modPfx d (fun x => { x with listSegs := tput x.listSegs g m })

/-- A page gives up its frame (R217, R234): its segments enter limbo, and its segment list is given back. -/
def State.dropFrame (s : State) (d id : Nat) : State :=
  match s.page? d id with
  | none => s
  | some p =>
    let s := s.modPage d id (fun p => { p with segs := [], list := 0, place := { p.place with hbm := false } })
    (s.frameToLimbo d p.ctx p.segs).giveList d p.list

/-- Why an allocation failed (R64, R65): a quota, or the pool or a table. -/
inductive AllocFail where
  | quota | nomem
deriving DecidableEq, Repr

/-- A page record with a frame of `n` segments, charged to its context (R64, R65). The quota is checked before the pool. -/
def State.newPage (s : State) (d n : Nat) (pg : Page) : Except AllocFail (Nat × State) :=
  if !s.quotaOk d pg.ctx n then .error .quota
  else if s.freePages d = 0 ∨ s.freeSegs d < n + (if n = 0 then 0 else s.listNeed d) then .error .nomem
  else
    let (id, s) := s.pickId (tkeys (s.pfx d).pages) (s.freePages d)
    let (g, s) := if n = 0 then (0, s) else s.takeList d
    let (l, s) := s.takeSegs d n
    .ok (id, s.modPfx d (fun x => { x with pages := tput x.pages id { pg with segs := l, list := g } }))

/-- The frame of a page grown by `n` segments (R63). -/
def State.growPage (s : State) (d id n : Nat) : Except AllocFail State :=
  match s.page? d id with
  | none => .ok s
  | some p =>
    if n = 0 then .ok s
    else if !s.quotaOk d p.ctx n then .error .quota
    else if s.freeSegs d < n + (if p.list = 0 then s.listNeed d else 0) then .error .nomem
    else
      let (g, s) := if p.list = 0 then s.takeList d else (p.list, s)
      let (l, s) := s.takeSegs d n
      .ok (s.modPage d id (fun p => { p with segs := p.segs ++ l, list := g }))

/-- `n` segments charged to a context (R64, R228). The quota is checked before the pool. -/
def State.ctxSegs (s : State) (d c n : Nat) : Except AllocFail (List Nat × State) :=
  if !s.quotaOk d c n then .error .quota
  else if s.freeSegs d < n then .error .nomem
  else .ok (s.takeSegs d n)

/-- Segments that structures of the pool take, outside quotas (R65). -/
def State.poolSegs (s : State) (d n : Nat) : Except AllocFail (List Nat × State) :=
  if s.freeSegs d < n then .error .nomem else .ok (s.takeSegs d n)

/-- Segments of a map version body of `n` chunks and of a tail record of `l` layers (R72, R73). -/
def bodySegs (n : Nat) : Nat := ceilDiv (64 + 4 * n) 4096
def tailSegs (l : Nat) : Nat := ceilDiv (1088 + 16 * l) 4096

/-- The status an allocation failure gives (R64), and its event. -/
def State.allocStatus (s : State) (d : Nat) : AllocFail → Nat × State
  | .quota => (stQUOTA, s)
  | .nomem => (stNOT_READY, s.nomem d)

/-! ### Reclamation (R93) -/

/-- Comparison of epochs modulo 2^32: a at or below b (R92). -/
def epochLe (a b : Nat) : Bool := decide ((b + 2 ^ 32 - a) % 2 ^ 32 < 2 ^ 31)

/-- Epochs of the tasks that read frames to write them to flash: parking, and a spill or another page write in progress (R92,
R247). -/
def State.writerEpochs (s : State) (d : Nat) : List Nat :=
  ((s.ftl d).tasks.filter (·.reads)).map (·.epoch)
    ++ ((s.ftl d).objs.filter (fun o => o.kind == 1 && o.src.isNone && o.st == .programming)).map (·.epoch)

/-- The oldest open holder's epoch, or the present one (PFX_EPOCH_MIN). -/
def State.oldest (s : State) (d : Nat) : Nat :=
  (tkeys (s.pfx d).open_ ++ s.writerEpochs d).foldl (fun m e => if epochLe e m then e else m) (s.epoch d)

/-- A holder opens at the die's epoch, and closes (R92). -/
def State.openHolder (s : State) (d : Nat) : State :=
  s.modPfx d (fun x => { x with open_ := dset x.open_ 0 (s.epoch d) (dget x.open_ 0 (s.epoch d) + 1) })
def State.closeHolder (s : State) (d e : Nat) : State :=
  s.modPfx d (fun x => { x with open_ := dset x.open_ 0 e (dget x.open_ 0 e - 1) })

/-- Operand-store entries and table-cache lines of a page dropped (R202). -/
def State.dropStore (s : State) (d id : Nat) : State :=
  s.modCsm d (fun x =>
    { x with store := x.store.filter (fun e => e.page != id), tables := x.tables.filter (fun e => e.page != id) })

/-- Segments in limbo (PFX_LIMBO). -/
def State.limboSegs (s : State) (d : Nat) : Nat :=
  sumNat ((s.pfx d).limbo.map (fun l => match l.what with
    | .page id => (match s.page? d id with | some p => p.segs.length | none => 0)
    | .chunk _ => 0
    | .segs l | .frame _ l => l.length))

/-! ### The sequence index (R70, R71) -/

/-- The home slot of a sequence (R70). -/
def homeSlot (bits q : Nat) : Nat := q * 0x9E3779B1 % 2 ^ 32 / 2 ^ (32 - bits)

/-- What a probe for a sequence finds (R70, R71): its slot when it is LIVE, the first TOMBSTONE met, and the FREE slot at
which it stopped. -/
structure Probe where
  found : Option Nat
  tomb : Option Nat
  freeAt : Option Nat

/-- The probe from `slot` on; `n` bounds the slots visited. -/
def probeFrom (index : List (Nat × SeqSlot)) (size q : Nat) (tomb : Option Nat) (slot : Nat) : Nat → Probe
  | 0 => ⟨none, tomb, none⟩
  | n + 1 =>
    match tget index slot with
    | none => ⟨none, tomb, some slot⟩
    | some e =>
      if e.live && e.seq == q then ⟨some slot, tomb, none⟩
      else
        let tomb := if !e.live && tomb.isNone then some slot else tomb
        probeFrom index size q tomb ((slot + 1) % size) n

/-- The probe for sequence `q` on die `d`: no more slots than the index has, and no more than hold an entry, plus one. -/
def State.probe (s : State) (d q : Nat) : Probe :=
  let bits := s.fget PFX_SEQ_CFG_SEQ_BITS d
  let x := s.pfx d
  probeFrom x.index (2 ^ bits) q none (homeSlot bits q) (min (2 ^ bits) (x.index.length + 1))

/-- The index slot of a LIVE sequence. -/
def State.seqSlot? (s : State) (d q : Nat) : Option (Nat × SeqSlot) :=
  match (s.probe d q).found with
  | some k => (tget (s.pfx d).index k).map (fun e => (k, e))
  | none => none

/-- The die of a partition that holds a LIVE sequence. -/
def State.seqDie? (s : State) (p q : Nat) : Option Nat :=
  (s.diesOf p).find? (fun d => (s.seqSlot? d q).isSome)

/-- The slot a new sequence takes, or none when the last FREE slot would go (R71). -/
def State.newSlot? (s : State) (d q : Nat) : Option Nat :=
  let pr := s.probe d q
  match pr.tomb with
  | some k => some k
  | none => if (s.pfx d).index.length + 1 < 2 ^ s.fget PFX_SEQ_CFG_SEQ_BITS d then pr.freeAt else none

def State.setSlot (s : State) (d k : Nat) (e : SeqSlot) : State :=
  s.modPfx d (fun x => { x with index := tput x.index k e })

/-- TOMBSTONEs before a FREE slot turned FREE, from the slot before it on (R71); `n` bounds the changes. -/
def tombSweep (size : Nat) : Nat → List (Nat × SeqSlot) → List (Nat × SeqSlot)
  | 0, t => t
  | n + 1, t =>
    match t.find? (fun e => !e.2.live && (tget t ((e.1 + 1) % size)).isNone) with
    | some e => tombSweep size n (tdel t e.1)
    | none => t

/-- The clean-up of TOMBSTONEs at a tick boundary (R71). -/
def State.tombClean (s : State) (d : Nat) : State :=
  let size := 2 ^ s.fget PFX_SEQ_CFG_SEQ_BITS d
  let t := (s.pfx d).index
  let n := (t.filter (fun e => !e.2.live)).length
  if size ≤ 8 * n then s.modPfx d (fun x => { x with index := tombSweep size n x.index }) else s

/-! ### The prefix tree (R85 to R90) -/

/-- Main buckets and overflow buckets of the die's tree (R85). -/
def State.mainBuckets (s : State) (d : Nat) : Nat := 2 ^ s.fget PFX_TREE_CFG_BUCKET_BITS d
def State.ovfBuckets (s : State) (d : Nat) : Nat := s.mainBuckets d * s.fget PFX_TREE_CFG_OVF_PCT d / 100

/-- Overflow bucket `o` (from 1) among the buckets. -/
def State.ovfIdx (s : State) (d o : Nat) : Nat := s.mainBuckets d + o - 1

/-- The buckets of a chain from bucket `b` (R86); `n` bounds the links. -/
def State.bucketChain (s : State) (d b : Nat) : Nat → List Nat
  | 0 => [b]
  | n + 1 =>
    match tget (s.pfx d).ovf b with
    | some o => b :: s.bucketChain d (s.ovfIdx d o) n
    | none => [b]

/-- The chain of buckets of a hash (R85, R87). -/
def State.chainOf (s : State) (d h : Nat) : List Nat :=
  s.bucketChain d (h % s.mainBuckets d) (s.pfx d).ovf.length

/-- Slots of a chain of buckets in search order. -/
def slotsOfChain (l : List Nat) : List Nat := l.flatMap (fun b => (List.range 5).map (fun i => 5 * b + i))

/-- The VALID entry of a hash (R87): its slot and chunk. -/
def State.treeFind (s : State) (d h : Nat) : Option (Nat × TreeEnt) :=
  ((slotsOfChain (s.chainOf d h)).filterMap (fun k => (tget (s.pfx d).tree k).map (fun e => (k, e)))).find?
    (fun e => e.2.st == .valid && e.2.chain == h)

/-- A search of the tree for one hash (R87, R88): PFX_LOOKUPS counts it; a hit writes LAST_HIT and counts in PFX_HITS; with
VERIFY a different model or different tokens are a miss, counted in PFX_COLLIDES. A search that knows no tokens, for a parent
(R251), compares the model (DEDUCED, log entry 110). -/
def State.treeSearchFor (s : State) (d h model tick : Nat) (tokens : Option (List Nat)) : Option Nat × State :=
  let s := s.fadd PFX_LOOKUPS_COUNT d 1
  match s.treeFind d h with
  | none => (none, s)
  | some (k, e) =>
    let same := match s.chunk? d e.chunk with
      | some c => c.model == model && (match tokens with | some t => c.tokens == t | none => true)
      | none => false
    if s.fbit PFX_CTRL_VERIFY d && !same then
      (none, (s.fadd PFX_COLLIDES_COUNT d 1).evtDie PFX_EVENT_COLLIDE d)
    else
      let s := s.modPfx d (fun x => { x with tree := tput x.tree k { e with lastHit := tick % 2 ^ 32 } })
      (some e.chunk, s.fadd PFX_HITS_COUNT d 1)

/-- A search for the hash of a chunk whose tokens are known (R87, R88). -/
def State.treeSearch (s : State) (d h model tick : Nat) (tokens : List Nat) : Option Nat × State :=
  s.treeSearchFor d h model tick (some tokens)

/-- Overflow buckets that some chain holds. -/
def State.ovfUsed (s : State) (d : Nat) : List Nat := (s.pfx d).ovf.foldl (fun l e => insNat e.2 l) []

/-- An overflow bucket that holds no entry leaves its chain and returns to the pool (R90). -/
def State.trimOvf (s : State) (d k : Nat) : State :=
  let b := k / 5
  if b < s.mainBuckets d ∨ (s.pfx d).tree.any (fun e => e.1 / 5 == b) then s
  else
    let o := b - s.mainBuckets d + 1
    match (s.pfx d).ovf.find? (fun e => e.2 == o) with
    | none => s
    | some (prev, _) =>
      s.modPfx d (fun x =>
        { x with ovf := match tget x.ovf b with
            | some nx => tput (tdel x.ovf b) prev nx
            | none => tdel x.ovf prev })

/-- The entry at slot `k` evicted (R90): the chunk loses its tree holder and becomes PRIVATE, its parent a child. -/
def State.evictSlot (s : State) (d k : Nat) : State :=
  match tget (s.pfx d).tree k with
  | none => s
  | some e =>
    let parent := match s.chunk? d e.chunk with | some c => c.parent | none => 0
    let s := s.modPfx d (fun x => { x with tree := tdel x.tree k })
    let s := s.modChunk d e.chunk (fun c => { c with st := .priv })
    let s := s.modChunk d parent (fun c => { c with children := c.children - 1 })
    ((s.dropHold d e.chunk).fadd PFX_EVICTS_COUNT d 1).trimOvf d k

/-- Slots of the tree entries whose chunk has parent `c`. -/
def State.childSlots (s : State) (d c : Nat) : List Nat :=
  ((s.pfx d).tree.filter (fun e => match s.chunk? d e.2.chunk with | some k => k.parent == c | none => false)).map (·.1)

/-- The entries at some slots of one depth and their descendants, deepest first (R90, CASCADE); `n` bounds the depth. -/
def State.cascade (s : State) (d : Nat) (l : List Nat) : Nat → List Nat
  | 0 => l
  | n + 1 =>
    let kids := l.flatMap (fun k => match tget (s.pfx d).tree k with | some e => s.childSlots d e.chunk | none => [])
    if kids.isEmpty then l else s.cascade d kids n ++ l

/-- An entry evicted with its descendants; answers how many (R90). -/
def State.evictCascade (s : State) (d k : Nat) : Nat × State :=
  let l := s.cascade d [k] (s.pfx d).tree.length
  (l.length, l.foldl (fun s j => s.evictSlot d j) s)

/-- Slots of the tree, main and overflow. -/
def State.treeSlots (s : State) (d : Nat) : Nat := 5 * (s.mainBuckets d + s.ovfBuckets d)

/-- Whether occupancy is at or below the stop level (R90). -/
def State.atLwm (s : State) (d : Nat) : Bool :=
  decide (100 * (s.pfx d).tree.length ≤ s.fget PFX_EVICT_LWM d * s.treeSlots d)

/-- A pass of automatic eviction over slots in order (R90): entries whose chunk has one holder and no child, and, in the
first pass, whose last hit is old enough. The cursor follows. -/
def State.evictPass (s : State) (d tick : Nat) (aged : Bool) : List Nat → State
  | [] => s
  | k :: r =>
    if s.atLwm d then s
    else
      let s := match tget (s.pfx d).tree k with
        | none => s
        | some e =>
          let cand := match s.chunk? d e.chunk with
            | some c => c.holders == 1 && c.children == 0
            | none => false
          let old := decide (s.fget PFX_EVICT_AGE d * 1024 ≤ (tick + 2 ^ 32 - e.lastHit) % 2 ^ 32)
          if cand && (!aged || old) then s.evictSlot d k else s
      (s.modPfx d (fun x => { x with cursor := k / 5 })).evictPass d tick aged r

/-- Occupied slots from the cursor's bucket on, then those before it. -/
def State.fromCursor (s : State) (d : Nat) : List Nat :=
  let x := s.pfx d
  let ks := tkeys x.tree
  ks.filter (fun k => decide (x.cursor ≤ k / 5)) ++ ks.filter (fun k => decide (k / 5 < x.cursor))

/-- Automatic eviction (R90): when it is on and occupancy has reached HWM, a pass by age and, if LWM is not reached, a
second pass. -/
def State.autoEvict (s : State) (d tick : Nat) : State :=
  let full := decide (s.fget PFX_EVICT_HWM d * s.treeSlots d ≤ 100 * (s.pfx d).tree.length)
  if s.fbit PFX_CTRL_AUTO_EVICT d && full then
    let s := s.evictPass d (tick % 2 ^ 32) true (s.fromCursor d)
    if s.atLwm d then s else s.evictPass d (tick % 2 ^ 32) false (s.fromCursor d)
  else s

/-- A slot for a new entry of hash `h` (R89): the first free one of the chain, else one of a bucket linked from the
overflow pool. -/
def State.freeSlot (s : State) (d h : Nat) : Option (Nat × State) :=
  let chain := s.chainOf d h
  match (slotsOfChain chain).find? (fun k => (tget (s.pfx d).tree k).isNone) with
  | some k => some (k, s)
  | none =>
    let used := s.ovfUsed d
    let n := s.ovfBuckets d - used.length
    if n = 0 then none
    else
      let (o, s) := s.pickId used n
      let last := chain.getLastD (h % s.mainBuckets d)
      some (5 * s.ovfIdx d o, s.modPfx d (fun x => { x with ovf := tput x.ovf last o }))

/-- Most entries of the trees of one partition together (R85). -/
def treeMax : Nat := 2 ^ 28

/-- Whether the trees of a die's partition may take one more entry (R85) (DEDUCED, log entry 109). -/
def State.treeRoom (s : State) (d : Nat) : Bool :=
  let dies := match s.owner d with | some p => s.diesOf p | none => [d]
  decide (sumNat (dies.map (fun e => (s.pfx e).tree.length)) < treeMax)

/-- Whether a chunk may be inserted under R89: its parent is in the tree, or it is chunk 0 of its sequence. -/
def State.parentIn (s : State) (d parent : Nat) : Bool :=
  parent == 0 || (match s.chunk? d parent with | some c => c.st == .tree | none => false)

/-- A place for an entry of the hash, while the tree has room (R85). -/
def State.treeSlot (s : State) (d h : Nat) : Option (Nat × State) := if s.treeRoom d then s.freeSlot d h else none

/-- Chunk `id` inserted in the tree, or left PRIVATE (R89). Automatic eviction runs first when it is due (R90), so that its
victims and the parent's place are settled before the insertion. A tree at the limit of R85 takes no entry, as one without a
free slot (DEDUCED, log entry 109). -/
def State.treeInsert (s : State) (d id tick : Nat) : State :=
  let s := s.autoEvict d tick
  match s.chunk? d id with
  | none => s
  | some c =>
    if !s.parentIn d c.parent then s.fadd PFX_PRIVATE_COUNT d 1
    else
      match s.treeSlot d c.chain with
      | none => (s.fadd PFX_PRIVATE_COUNT d 1).evtDie PFX_EVENT_TREE_FULL d
      | some (k, s) =>
        let e : TreeEnt := ⟨c.chain, id, .valid, tick % 2 ^ 32⟩
        let s := s.modPfx d (fun x => { x with tree := tput x.tree k e })
        let s := s.modChunk d id (fun c => { c with st := .tree })
        let s := s.modChunk d c.parent (fun c => { c with children := c.children + 1 })
        (s.addHold d id).fadd PFX_INSERTS_COUNT d 1

/-! ### Tokens and lookup (R84, R87) -/

/-- Chunks matched for a prompt's tokens, with the chunk list so far (R87): lookup stops at the first miss. -/
def State.lookupRun (s : State) (d model tick : Nat) (parent : Nat) : List (List Nat) → List Nat × State
  | [] => ([], s)
  | t :: r =>
    let h := chainHash parent model t
    match s.treeSearch d h model tick t with
    | (none, s) => ([], s)
    | (some c, s) =>
      let (l, s) := s.lookupRun d model tick h r
      (c :: l, s)

/-- Whole chunks of 128 tokens of a prompt. -/
def chunksOf (toks : List Nat) : List (List Nat) :=
  (groupsOf 128 (toks.length / 128) toks)

/-- PFX_TOKMISS and its event (R75). -/
def State.tokenMiss (s : State) (d : Nat) : State :=
  (s.fadd PFX_TOKMISS_COUNT d 1).evtDie PFX_EVENT_TOKEN_MISMATCH d

end Sys2Proof.Machine
end

