-- ==== Sys2Proof/Machine/Flash.lean ====
section
/-!
DEFINITION. Sys2Proof/Machine/Flash.lean: the flash store of a die as operations: bands, placement, programs, objects, the
journal and what its durability releases (R254 to R286, R296 to R298).
-/
namespace Sys2Proof.Machine

/-! ### Locations and geometry -/

/-- A location as the 8-byte FLASH_LOC word (R264). -/
def FLoc.word (l : FLoc) : Nat := l.band * 2 ^ 40 + l.sector * 2 ^ 16 + (l.count - 1) * 2 ^ 7

/-- The sectors of a location. -/
def FLoc.sectors (l : FLoc) : List Nat := (List.range l.count).map (l.sector + ·)

/-- Sectors of an object of `n` bytes (R257, R259). -/
def sectorsOf (n : Nat) : Nat := max 1 (ceilDiv n 4096)

/-- Namespace of a die's data: its partition, or 0xFF (R258). -/
def State.nsOf (s : State) (d : Nat) : Nat := (s.owner d).getD 0xFF

/-- Key generation of a namespace (R269). -/
def State.genOf (s : State) (ns : Nat) : Nat := dget s.sec.gens 0 ns

/-- State of channel `c` of die `d` (R300). -/
def Ftl.chan (f : Ftl) (c : Nat) : ChSt := (tget f.chans c).getD .home

/-- Channels of the die that are HOME or RETURNING: those it owns (FTL_OWN.OWNED). -/
def Ftl.owned (f : Ftl) : List Nat := (List.range 16).filter (fun c => f.chan c == .home || f.chan c == .returning)

/-- Channel in service for new bands: owned, not fenced, neither DISPUTED nor TESTING (R475), within R255 (DEDUCED, log entry 146). -/
def State.chUp (s : State) (d c : Nat) : Bool :=
  let f := s.ftl d
  f.chan c == .home && !(s.fget FTL_CH_FENCE_FENCED d).testBit c && s.unitOn uChan d c && !f.outCh.contains c

def State.chsUp (s : State) (d : Nat) : List Nat :=
  if s.fbit FTL_STATUS_READY d || s.fbit FTL_STATUS_REPLAYING d then (List.range 16).filter (s.chUp d) else []

/-- Sectors one member holds in a stripe (R262). -/
def State.spm (s : State) (d : Nat) : Nat := 4 * 2 ^ s.fget FTL_DEVICE_PLANES d

/-- Members per LUN and LUNs per channel. -/
def State.blocksOf (s : State) (d : Nat) : Nat := s.fget FTL_GEOM_BLOCKS_M1 d + 1
def State.lunsOf (s : State) (d : Nat) : Nat := s.fget FTL_GEOM_LUNS_M1 d + 1
def State.stripesOf (s : State) (d : Nat) : Nat := s.fget FTL_GEOM_PAGES_M1 d + 1

/-- Key of a member among the die's members. -/
def memKey (c lun block : Nat) : Nat := c * 2 ^ 20 + lun * 2 ^ 16 + block

def Member.init : Member := ⟨0, false, false, 0, 0⟩

def Ftl.member (f : Ftl) (k : Nat) : Member := dget f.members Member.init k
def Ftl.modMember (f : Ftl) (k : Nat) (g : Member → Member) : Ftl :=
  { f with members := dset f.members Member.init k (g (f.member k)) }

/-- Members of a LUN that are listed, as block numbers, rising. -/
def Ftl.listed (f : Ftl) (c lun : Nat) : List Nat :=
  (f.members.filter (fun e => e.1 / 2 ^ 16 == c * 16 + lun)).map (fun e => e.1 % 2 ^ 16)

/-- Block 0 of LUN 0 of channels 0 and 1 holds anchors and never joins a band (R279). -/
def anchorMember (c lun block : Nat) : Bool := decide (c ≤ 1) && lun == 0 && block == 0

/-- The unlisted free member of a channel with the lowest LUN and block: never erased, so of erase count 0. -/
def State.freshMember (s : State) (d c : Nat) : Option (Nat × Nat) :=
  (List.range (s.lunsOf d)).findSome? (fun lun =>
    let lo := if anchorMember c lun 0 then 1 else 0
    let b := nthFree ((s.ftl d).listed c lun) lo 0
    if b < s.blocksOf d then some (lun, b) else none)

/-- Listed free members of a channel. -/
def Ftl.usedFree (f : Ftl) (c : Nat) : List (Nat × Member) :=
  f.members.filter (fun e => e.1 / 2 ^ 20 == c && !e.2.bad && !e.2.inUse)

/-- The free member a channel gives a band: lowest erase count, then lower LUN, then lower block (R260). -/
def State.pickMember (s : State) (d c : Nat) : Option (Nat × Nat) :=
  match s.freshMember d c with
  | some m => some m
  | none =>
    let best := ((s.ftl d).usedFree c).foldl (fun (b : Option (Nat × Nat)) e =>
      match b with
      | none => some (e.2.erases, e.1)
      | some x => if e.2.erases < x.1 then some (e.2.erases, e.1) else some x) none
    best.map (fun x => (x.2 / 2 ^ 16 % 16, x.2 % 2 ^ 16))

/-- Free members of a channel. -/
def State.freeMembers (s : State) (d c : Nat) : Nat :=
  let all := s.lunsOf d * s.blocksOf d - (if c ≤ 1 then 1 else 0)
  let f := s.ftl d
  let taken := (f.members.filter (fun e => e.1 / 2 ^ 20 == c && (e.2.bad || e.2.inUse))).length
  all - taken

/-- Free bands: those that free members could form (R280). -/
def State.freeBands (s : State) (d : Nat) : Nat :=
  match s.chsUp d with
  | [] => 0
  | c :: r => r.foldl (fun m x => min m (s.freeMembers d x)) (s.freeMembers d c)

/-- Grown-bad members, and all members of the die's channels. -/
def Ftl.badCount (f : Ftl) : Nat := (f.members.filter (fun e => e.2.bad)).length
def State.memberCount (s : State) (d : Nat) : Nat := 16 * s.lunsOf d * s.blocksOf d

/-! ### Health events (R296, R297) -/

/-- FLASH_HEALTH posted with its code, channel (0xFF for none), occurrences and value (R337); FTL_EVENT.HEALTH set. -/
def State.postHealth (s : State) (d code ch n value : Nat) : State :=
  (s.evtDie FTL_EVENT_HEALTH d).dieEvent d evFlashHealth (le 1 code ++ le 1 ch ++ le 2 0 ++ le 4 n ++ le 4 value)

/-- An occurrence event: at most once per tick per code, carrying the occurrences since the last one raised. -/
def State.healthOccur (s : State) (d code ch : Nat) : State :=
  let f := s.ftl d
  let n := dget f.occur 0 code + 1
  if f.posted.contains code then s.modFtl d (fun f => { f with occur := dset f.occur 0 code n })
  else (s.modFtl d (fun f => { f with occur := dset f.occur 0 code 0, posted := code :: f.posted })).postHealth d code ch n 0

/-- A threshold event: once, when its value crosses upward; with `again` it may be raised anew below half (R297). -/
def State.healthCross (s : State) (d code value thresh : Nat) (again : Bool) : State :=
  let was := (s.ftl d).crossed.contains code
  if thresh ≤ value ∧ was = false then
    (s.modFtl d (fun f => { f with crossed := code :: f.crossed })).postHealth d code 0xFF 1 value
  else if again ∧ was ∧ 2 * value < thresh then
    s.modFtl d (fun f => { f with crossed := f.crossed.filter (· != code) })
  else s

/-- The wear and spare thresholds looked at, and FTL_BAD, FTL_WEAR and FTL_FREE_BANDS refreshed. -/
def State.wearCheck (s : State) (d : Nat) : State :=
  let f := s.ftl d
  let bad := f.badCount
  let all := max 1 (s.memberCount d)
  let mx := f.members.foldl (fun m e => max m e.2.erases) 0
  let sum := f.members.foldl (fun m e => m + e.2.erases) 0
  let s := ((s.fsat FTL_BAD_MEMBERS d bad).fsat FTL_WEAR_MAX d mx).fsat FTL_WEAR_AVG d (sum / all)
  let s := s.fsat FTL_FREE_BANDS_BANDS d (s.freeBands d)
  let pm := 1000 * bad / all
  let s := s.healthCross d 0x01 pm (s.inForce FTL_HEALTH_BAD_WARN d) false
  let s := s.healthCross d 0x02 pm (s.inForce FTL_HEALTH_BAD_CRIT d) false
  let pe := s.fget FTL_PE_RATED_CYCLES d
  if pe = 0 then s
  else
    let s := s.healthCross d 0x03 (100 * sum / (all * pe)) (s.inForce FTL_HEALTH_WEAR_WARN d) false
    s.healthCross d 0x04 (100 * mx / pe) (s.inForce FTL_HEALTH_WEAR_CRIT d) false

/-! ### Bands (R260 to R263) -/

/-- Whether the die is in READ_ONLY (R298). -/
def State.readOnly (s : State) (d : Nat) : Bool := s.fbit FTL_STATUS_READ_ONLY d

/-- The lowest free band number (R260). -/
def Ftl.newBandNo (f : Ftl) : Nat := nthFree (tkeys f.bands) 1 0

/-- The open band of a kind. -/
def Ftl.openBand (f : Ftl) (k : BandKind) : Option (Nat × Band) := f.bands.find? (fun e => e.2.kind == k && !e.2.closed)

def State.modBand (s : State) (d n : Nat) (g : Band → Band) : State :=
  s.modFtl d (fun f => { f with bands := tmod f.bands n g })

/-- A record appended: JSEQ rises by 1; the window opens at the first unprogrammed record (R268, R277). -/
def State.appendRec (s : State) (d ns : Nat) (w : JWhat) : Nat × State :=
  let f := s.ftl d
  let q := f.jseq + 1
  let t := if f.jpend.isEmpty then s.clk.tNs else f.jpendT
  (q, s.modFtl d (fun f => { f with jseq := q, jpend := f.jpend ++ [⟨q, ns, w⟩], jpendT := t }))

/-- A band opened: one member of each channel in service, and its BAND record; none when fewer than three channels are in service or
one of them has no free member (R260). -/
def State.openBand (s : State) (d : Nat) (k : BandKind) (ns : Nat) : Option (Nat × State) :=
  let chs := s.chsUp d
  let ms := chs.filterMap (fun c => (s.pickMember d c).map (fun m => (c, m.1, m.2)))
  if ms.length < 3 ∨ ms.length ≠ chs.length then none
  else
    let n := (s.ftl d).newBandNo
    let (q, s) := s.appendRec d ns (.band n 1 k ms)
    let b : Band := ⟨k, ns, q, ms, 0, false, .none_, [], [], 0⟩
    let s := s.modFtl d (fun f =>
      let f := { f with bands := tput f.bands n b }
      ms.foldl (fun f m => f.modMember (memKey m.1 m.2.1 m.2.2) (fun x => { x with inUse := true })) f)
    some (n, (s.fset FTL_STRIPE_WIDTH d ms.length).fsat FTL_FREE_BANDS_BANDS d (s.freeBands d))

/-- A band closed, with its CLOSED record (R265). -/
def State.closeBand (s : State) (d n : Nat) : State :=
  match tget (s.ftl d).bands n with
  | none => s
  | some b =>
    if b.closed then s
    else ((s.modBand d n (fun b => { b with closed := true })).appendRec d b.ns (.band n 2 b.kind b.members)).2

/-! ### JOURNAL bands (R274) -/

/-- Members that hold slots 2n and 2n + 1, each with the NAND page of its slot. -/
def Band.slots (b : Band) (n : Nat) : List (Nat × Nat) :=
  let w := max 1 b.members.length
  [2 * n, 2 * n + 1].map (fun i => (i / w, i % w))

/-- Whether neither member of a slot pair is retired. -/
def Ftl.pairOk (f : Ftl) (b : Band) (n : Nat) : Bool :=
  (b.slots n).all (fun x => match b.members[x.2]? with | some m => !(f.member (memKey m.1 m.2.1 m.2.2)).bad | none => false)

/-- Slot pairs of a JOURNAL band. -/
def State.pairsOf (s : State) (d : Nat) (b : Band) : Nat := s.stripesOf d * b.members.length / 2

/-- The next usable slot pair of a JOURNAL band from pair `n` on: any as many pairs as it has members meet each of them (DEDUCED, log entry 127). -/
def State.nextPair (s : State) (d : Nat) (b : Band) (n : Nat) : Option Nat :=
  ((List.range b.members.length).map (fun i => n + i)).find? (fun p => decide (p < s.pairsOf d b) && (s.ftl d).pairOk b p)

/-- A band that has not been put before those of lower JSEQ. -/
def insBand (e : Nat × Band) : List (Nat × Band) → List (Nat × Band)
  | [] => [e]
  | x :: r => if x.2.seq ≤ e.2.seq then x :: insBand e r else e :: x :: r

/-- The JOURNAL bands in the order in which they were opened. -/
def Ftl.journalBands (f : Ftl) : List (Nat × Band) :=
  (f.bands.filter (fun e => e.2.kind == .journal && e.2.gc == .none_)).foldl (fun l e => insBand e l) []

/-- Whether programs may start in a band: its BAND record is durable (R260, R277 item 5). The first JOURNAL band, which no other
one can record, needs none (DEDUCED, log entry 127). -/
def Ftl.bandUp (f : Ftl) (b : Band) : Bool :=
  decide (b.seq ≤ f.jdur) || (b.kind == .journal && decide (f.journalBands.length ≤ 1))

/-- The slot pair of the next journal page: in the oldest JOURNAL band that has one left; none while that band waits for its BAND
record (DEDUCED, log entry 127). -/
def State.journalSlot (s : State) (d : Nat) : Option (Nat × Nat) :=
  match (s.ftl d).journalBands.findSome? (fun e => (s.nextPair d e.2 e.2.wp).map (fun p => (e.1, p))) with
  | some (n, p) => if (match tget (s.ftl d).bands n with | some b => (s.ftl d).bandUp b | none => false) then some (n, p) else none
  | none => none

/-- The successor of a JOURNAL band that has at most four slot pairs left, one for each page in flight, is opened, so that its
BAND record is durable before the last pair is taken (R260, R274) (DEDUCED, log entry 127). -/
def State.rollJournal (s : State) (d n : Nat) : State :=
  match tget (s.ftl d).bands n with
  | none => s
  | some b =>
    let later := (s.ftl d).journalBands.any (fun e => decide (b.seq < e.2.seq))
    if later || decide (b.wp + 4 < s.pairsOf d b) then s
    else match (s.closeBand d n).openBand d .journal 0xFF with | some (_, s) => s | none => s

/-- READ_ONLY entered or left (R298): free bands fell to RESERVE with no victim left, fewer than three channels are in service, or
the journal cannot advance (DEDUCED, log entry 133). -/
def State.roCheck (s : State) (d : Nat) : State :=
  let f := s.ftl d
  let few := decide ((s.chsUp d).length < 3)
  let starved := decide (s.freeBands d ≤ s.inForce FTL_GC_RESERVE d)
    && !(f.bands.any (fun e => e.2.closed && e.2.kind != .journal))
  let stuck := f.journalBands.all (fun e => (s.nextPair d e.2 e.2.wp).isNone) && (s.openBand d .journal 0xFF).isNone
  if !s.fbit FTL_STATUS_READY d then s
  else if few || starved || stuck then
    if s.readOnly d then s
    else ((s.fset FTL_STATUS_READ_ONLY d 1).evtDie FTL_EVENT_READ_ONLY d).healthOccur d 0x09 0xFF
  else if s.readOnly d && decide (s.inForce FTL_GC_RESERVE d < s.freeBands d) then s.fset FTL_STATUS_READ_ONLY d 0
  else s

/-! ### What each LUN works on (R286) -/

/-- Order of service of the programs of a band (R245, R286): the journal first, then parking, spill and garbage collection. META
objects go with the journal (DEDUCED, log entry 131). -/
def BandKind.rank : BandKind → Nat
  | .journal | .meta_ => 10
  | .park => 24
  | .spill => 26
  | .gc => 30

/-- The stripes of a band whose parity page is to be programmed (R263, R266): every data page of the stripe is programmed, or the band
is closed and no program of the stripe is left. -/
def State.parityDue (s : State) (d n : Nat) (b : Band) : List Nat :=
  let w := b.members.length
  ((b.done.map (· / 64)).eraseDups).filter (fun st =>
    !b.par.contains st
      && ((b.done.filter (fun p => p / 64 == st)).length == w - 1
        || (b.closed && !(s.ftl d).objs.any (fun o => o.loc.band == n && o.st == .programming && o.left.any (fun p => p / 64 == st)))))

/-- The key of a LUN of a die. -/
def lunKey (c lun : Nat) : Nat := c * 16 + lun

/-- Programs and erases that could run, as (LUN, order of service, work) (DEDUCED, log entry 131). -/
def State.pendingOps (s : State) (d : Nat) : List (Nat × Nat × FOp) :=
  let f := s.ftl d
  let prog (b : Band) (n stripe m rank : Nat) : Option (Nat × Nat × FOp) :=
    (b.members[m]?).map (fun x => (lunKey x.1 x.2.1, rank, .prog n stripe m))
  let up (n : Nat) : Option Band := match tget f.bands n with | some b => if f.bandUp b then some b else none | none => none
  f.jpages.flatMap (fun p =>
      match up p.band with
      | none => []
      | some b => (((b.slots p.pair).zip [p.okA, p.okB]).filter (fun x => !x.2)).filterMap (fun x => prog b p.band x.1.1 x.1.2 10))
    ++ (match f.anchorRun with | some a => [(lunKey (a.serial % 2) 0, 10, .anchor)] | none => [])
    ++ (f.objs.filter (fun o => o.st == .programming)).flatMap (fun o =>
      match up o.loc.band with
      | none => []
      | some b => o.left.filterMap (fun p => prog b o.loc.band (p / 64) (p % 64) (if o.urgent then 21 else b.kind.rank)))
    ++ f.bands.flatMap (fun e =>
      if e.2.kind = .journal then []
      else (s.parityDue d e.1 e.2).filterMap (fun st => prog e.2 e.1 st (st % max 1 e.2.members.length) e.2.kind.rank))
    ++ f.bands.flatMap (fun e => if e.2.gc = .erasing then e.2.members.map (fun m => (lunKey m.1 m.2.1, 30, .erase e.1)) else [])

/-- Channel time that garbage collection and refresh have left: at or above RESERVE they take at most SHARE_MAX percent of the time of
the last ticks (R286) (DESIGN CHOICE, log entry 132). -/
def State.gcMay (s : State) (d : Nat) : Bool :=
  let per := match s.owner d with | some p => s.periodNs p | none => 100000
  let all := 16 * per * max 1 (s.chsUp d).length
  decide (s.freeBands d < s.inForce FTL_GC_RESERVE d)
    || decide (100 * sumNat ((s.ftl d).util.map (·.2)) < s.inForce FTL_GC_SHARE_MAX d * all)

/-- What holds the flash of a die (R288, R434, R506): a supply warning yields to PWR_LOSS_N (DEDUCED, log entry 136). -/
def State.holdOf (s : State) (d : Nat) : FHold :=
  if s.fbit SEC_STATUS_ERROR 0 then .error
  else if s.fbit PWR_STATUS_PWR_LOSS 0 then .loss
  else if s.fbit DPM_STATUS_WARN d then .warn
  else .free

/-- Whether programs and erases in progress stand still (DEDUCED, log entry 136). -/
def Ftl.still (f : Ftl) : Bool := f.hold == .warn || f.hold == .error

/-- Whether staging, garbage collection and patrol stand still (DEDUCED, log entry 136). -/
def Ftl.stopped (f : Ftl) : Bool := f.hold == .loss || f.hold == .error

/-- LUNs that are free take the work that comes first in the order of R286. While a power-loss warning holds the die only journal
programs start, and none under another hold (R288, R434, R506) (DEDUCED, log entry 131; DEDUCED, log entry 136). -/
def State.serve (s : State) (d : Nat) : State :=
  let f := s.ftl d
  let gc := s.gcMay d
  let may (e : Nat × Nat × FOp) : Bool :=
    s.fbit FTL_STATUS_READY d && !thas f.lun e.1 && (gc || e.2.1 != 30) && f.chan (e.1 / 16) == .home
      && (f.hold == .free || (f.hold == .loss && match e.2.2 with
        | .prog n _ _ => (match tget f.bands n with | some b => b.kind == .journal | none => false)
        | .erase _ => false
        | .anchor => true))
  let best := ((s.pendingOps d).filter may).foldl (fun (l : List (Nat × Nat × FOp)) e =>
    match tget l e.1 with
    | some x => if e.2.1 < x.1 then tput l e.1 e.2 else l
    | none => tput l e.1 e.2) []
  s.modFtl d (fun f => { f with lun := best.foldl (fun l e => tput l e.1 (e.2.2, 0)) f.lun })

/-- Channel time used by work of order `rank` (R240, R286) (DESIGN CHOICE, log entry 132). -/
def State.chanTime (s : State) (d ns : Nat) (hint gc : Bool) : State :=
  s.modFtl d (fun f =>
    let h := f.util.headD (0, 0)
    { f with util := (h.1 + (if hint then 0 else ns), h.2 + (if gc then ns else 0)) :: f.util.drop 1 })

/-! ### The journal (R268, R274 to R278) -/

/-- Journal pages in flight that have no slot (a program failed and no pair was left) get the next one (R274). -/
def State.placePages (s : State) (d : Nat) : State :=
  ((s.ftl d).jpages.filter (fun p => p.band == 0)).foldl (fun s pg =>
    match s.journalSlot d with
    | none => s
    | some (n, p) =>
      let last := pg.recs.foldl (fun m r => max m r.jseq) 0 + pg.pads
      (s.modFtl d (fun f =>
        { f with
          jpages := f.jpages.map (fun x => if x.no = pg.no then { x with band := n, pair := p } else x)
          bands := tmod f.bands n (fun b => { b with wp := p + 1, last := max b.last last }) })).rollJournal d n) s

/-- Pending records padded and issued as a page of 256 in the next slot pair; at most four pages are in flight (R274, R277). -/
def State.issueJournal (s : State) (d : Nat) : State :=
  if (s.ftl d).jpend.isEmpty ∨ 4 ≤ (s.ftl d).jpages.length then s
  else
    let s := if (s.ftl d).journalBands.isEmpty then (match s.openBand d .journal 0xFF with | some (_, s) => s | none => s) else s
    let s := s.placePages d
    match s.journalSlot d with
    | none => s
    | some (n, p) =>
      let s := s.modFtl d (fun f =>
        let recs := f.jpend.take 256
        let pads := 256 - recs.length
        let last := recs.foldl (fun m r => max m r.jseq) 0 + pads
        { f with
          jpages := f.jpages ++ [⟨f.jpageNo + 1, recs, pads, n, p, false, false⟩], jpend := f.jpend.drop 256, jpendT := s.clk.tNs
          jpageNo := f.jpageNo + 1, jseq := f.jseq + pads
          bands := tmod f.bands n (fun b => { b with wp := p + 1, last := max b.last last }) })
      (s.rollJournal d n).serve d

/-- A record appended; a full page of them is issued at once. -/
def State.journal (s : State) (d ns : Nat) (w : JWhat) : Nat × State :=
  let (q, s) := s.appendRec d ns w
  (q, if 256 ≤ (s.ftl d).jpend.length then s.issueJournal d else s)

/-! ### Placement (R262, R265) -/

/-- Data sectors of a band (R262). -/
def State.bandSectors (s : State) (d : Nat) (b : Band) : Nat := s.stripesOf d * (b.members.length - 1) * s.spm d

/-- Where a sector lies in its band: stripe, member, sector of the member's stripe page, plane and codeword (R262). -/
structure SectorPos where
  stripe : Nat
  member : Nat
  u : Nat
  plane : Nat
  cw : Nat
deriving DecidableEq, Repr

/-- The place of sector address `a` of a band of width `w` (R262). -/
def sectorAt (w spm a : Nat) : SectorPos :=
  let stripe := a / ((w - 1) * spm)
  let r := a % ((w - 1) * spm)
  let k := r / spm
  let u := r % spm
  ⟨stripe, if k < stripe % w then k else k + 1, u, u / 4, u % 4⟩

/-- The place of a sector of a band: of a JOURNAL band slot `a / spm` (R274; log entry 127), of another one as in R262. -/
def State.posIn (s : State) (d : Nat) (b : Band) (a : Nat) : SectorPos :=
  let w := b.members.length
  if b.kind = .journal then
    let i := a / s.spm d
    let u := a % s.spm d
    ⟨i / max 1 w, i % max 1 w, u, u / 4, u % 4⟩
  else sectorAt w (s.spm d) a

/-- NAND pages of a run of sectors, as stripe × 64 + member. -/
def pagesOfRun (w spm a n : Nat) : List Nat :=
  ((List.range n).map (fun i => let p := sectorAt w spm (a + i); p.stripe * 64 + p.member)).eraseDups

/-- Sectors assigned to an object: the next ones of the open band of its kind, or of a new band (R265). -/
def State.place (s : State) (d : Nat) (k : BandKind) (ns n : Nat) : Option (FLoc × State) :=
  let take (s : State) (m : Nat) (b : Band) : Option (FLoc × State) :=
    if s.bandSectors d b < b.wp + n then none
    else some (⟨m, b.wp, n⟩, s.modBand d m (fun b => { b with wp := b.wp + n }))
  let fresh (s : State) : Option (FLoc × State) :=
    match s.openBand d k ns with
    | none => none
    | some (m, s) =>
      match tget (s.ftl d).bands m with
      | some b => take s m b
      | none => none
  match (s.ftl d).openBand k with
  | none => fresh s
  | some (m, b) =>
    if b.ns = ns then
      match take s m b with
      | some r => some r
      | none => fresh (s.closeBand d m)
    else fresh (s.closeBand d m)

/-- Whether a written sector is still in the staging buffers: the parity of its stripe has not passed and its band is open
(R265). -/
def Band.buffered (b : Band) (stripe : Nat) : Bool := !b.closed && !b.par.contains stripe

/-! ### Objects -/

/-- The valid location of an object: the latest copy that is not a destination still to be committed. -/
def Ftl.valid (f : Ftl) (kind obj : Nat) : Option FObj :=
  f.objs.find? (fun o => o.kind == kind && o.obj == obj && o.src.isNone && o.st == .passed)

/-- Valid sectors of a band (R280): those of objects whose location lies in it and that are not uncommitted copies, of
namespaces whose generation still stands (R270). -/
def State.validIn (s : State) (d n : Nat) : Nat :=
  ((s.ftl d).objs.filter (fun o => o.loc.band == n && o.src.isNone && (o.ns == 0xFF || o.gen == s.genOf o.ns))).foldl
    (fun m o => m + o.loc.count) 0

/-- Objects of a list changed where they are the named copy. -/
def modObj (loc : FLoc) (g : FObj → FObj) (l : List FObj) : List FObj := l.map (fun o => if o.loc = loc then g o else o)

/-- An object of 1 to 512 sectors written: sectors assigned, and its programs wait for their LUNs, those of a relocation until its
source is read (R259, R281, R286); answers its location. -/
def State.writeObj (s : State) (d : Nat) (k : BandKind) (kind obj ns n : Nat) (src : Option FLoc) (data : FData) :
    Option (FLoc × State) :=
  match (if n = 0 ∨ 512 < n then none else s.place d k ns n) with
  | none => none
  | some (loc, s) =>
    let w := match tget (s.ftl d).bands loc.band with | some b => b.members.length | none => 3
    let o : FObj :=
      { kind := kind, obj := obj, ns := ns, gen := if ns = 0xFF then 0 else s.genOf ns, loc := loc,
        st := if src.isSome then .reading else .programming, left := pagesOfRun w (s.spm d) loc.sector n,
        reads := (match src with | some l => l.sectors | none => []), src := src, data := data, jseq := 0, durable := false,
        epoch := s.epoch d, urgent := false }
    some (loc, (s.modFtl d (fun f => { f with objs := f.objs ++ [o] })).serve d)

/-- The copy at a location dropped. -/
def State.dropObj (s : State) (d : Nat) (loc : FLoc) : State :=
  s.modFtl d (fun f => { f with objs := f.objs.filter (fun o => o.loc != loc) })

/-- Whether a copy holds its object, or will once a RELOC that is already appended is durable (R278, R282). -/
def FObj.stands (o : FObj) : Bool := o.src.isNone || o.jseq != 0

/-- The flash copies of an object released: a FREE record for a copy that has a record (R276, R278). A destination whose RELOC was
appended goes with its source: the FREE record applies after it (R282). -/
def State.freeObj (s : State) (d kind obj : Nat) : State :=
  let mine (o : FObj) : Bool := o.kind == kind && o.obj == obj && o.stands
  match (s.ftl d).valid kind obj with
  | none => s.modFtl d (fun f => { f with objs := f.objs.filter (fun o => !mine o) })
  | some o =>
    let s := if o.jseq = 0 then s else (s.journal d o.ns (.free kind obj o.loc)).2
    s.modFtl d (fun f =>
      { f with ghosts := f.ghosts ++ f.objs.filter (fun o => mine o && o.jseq != 0), objs := f.objs.filter (fun o => !mine o) })

/-- Flash copies of a page released, and its RES bits cleared (R218, R225). -/
def State.freeFlash (s : State) (d id : Nat) : State :=
  (s.freeObj d 1 id).modPage d id (fun p =>
    { p with place := { p.place with flash := false, durable := false, flashObj := 0, flashDie := 0 } })

/-- Sectors of the flash copies charged to a context, those of the pages `but` left out (R227): of a page that is written anew, the new
copy alone (DEDUCED, log entry 154). -/
def State.flashSectors (s : State) (d c : Nat) (but : List Nat) : Nat :=
  let copies := (s.ftl d).objs.filter (fun o => o.kind == 1 && o.src.isNone && !but.contains o.obj)
  (copies.foldl (fun l o => tput l o.obj o.loc.count) []).foldl (fun m e =>
    match s.page? d e.1 with
    | some p => if p.ctx = c then m + e.2 else m
    | none => m) 0

/-- Whether copies of `n` sectors in place of those of the pages `but` keep context `c` within FLASH_MAX (R226, R228) (DEDUCED, log entry 154). -/
def State.flashOk (s : State) (d c n : Nat) (but : List Nat) : Bool :=
  match s.dieCtx? d c with
  | some x => x.flashMax == 0 || decide (ceilDiv (s.flashSectors d c but + n) 16 ≤ x.flashMax)
  | none => true

/-- Bytes a page has when it is stored (R239, R259). -/
def State.storedBytes (s : State) (d : Nat) (p : Page) : Nat :=
  match p.st with
  | .open_ | .full => match s.dieCtx? d p.ctx with | some c => p.fill * c.posBytes | none => p.bytes
  | _ => p.bytes

/-! ### Tasks that write parked structures (R220, R224) -/

/-- The object an item of a task writes: kind, identifier, sectors and contents. -/
def State.itemObj (s : State) (d : Nat) : FItem → Option (Nat × Nat × Nat × FData)
  | .page id => (s.page? d id).map (fun p => (1, id, sectorsOf (s.storedBytes d p), .page p))
  | .fresh id => (s.page? d id).map (fun p => (1, id, sectorsOf (s.storedBytes d p), .page p))
  | .chunk id => (s.chunk? d id).map (fun c => (2, id, 1, .chunk c))
  | .mapv q =>
    match s.seqSlot? d q with
    | some (_, e) =>
      let n := roundUp 64 (64 + 4 * e.body.chunks.length) + 1088 + 16 * e.tail.layers.length
      some (3, q, sectorsOf n, .mapv e)
    | none => none
  | .class_ _ _ => none

/-- Whether an item is already written: a durable page or a PARKED chunk (R224). -/
def State.itemDone (s : State) (d : Nat) : FItem → Bool
  | .page id =>
    match s.page? d id with
    | some p =>
      p.place.flashDie == 0 && (p.place.durable
        || (p.place.flash && (match (s.ftl d).valid 1 id with | some o => o.jseq != 0 | none => false)))
    | none => true
  | .chunk id => match s.chunk? d id with | some c => c.parked | none => true
  | _ => false

/-- Whether an item is written as an object. -/
def FItem.names (i : FItem) (o : FObj) : Bool :=
  match i with
  | .page id | .fresh id => o.kind == 1 && o.obj == id
  | .chunk id => o.kind == 2 && o.obj == id
  | .mapv q => o.kind == 3 && o.obj == q
  | .class_ _ _ => false

/-- Identity of a task. -/
def DTask.same (a b : DTask) : Bool := a.desc == b.desc && a.seq == b.seq && a.band == b.band

/-- Tasks with the first like `t` replaced by `u`. -/
def putTask (t u : DTask) : List DTask → List DTask
  | [] => []
  | x :: r => if x.same t then u :: r else x :: putTask t u r

def delTask (t : DTask) : List DTask → List DTask
  | [] => []
  | x :: r => if x.same t then r else x :: delTask t r

/-- Sectors that items still need. -/
def State.itemsSectors (s : State) (d : Nat) (l : List FItem) : Nat :=
  sumNat (l.map (fun i => if s.itemDone d i then 0 else match s.itemObj d i with | some (_, _, n, _) => n | none => 0))

/-- Sectors that PARK objects of namespace `ns` can still take: in the open band, and in bands that free members form. -/
def State.flashRoom (s : State) (d ns : Nat) : Nat :=
  let here := match (s.ftl d).openBand .park with
    | some (_, b) => if b.ns = ns then s.bandSectors d b - b.wp else 0
    | none => 0
  here + s.freeBands d * (s.stripesOf d * ((s.chsUp d).length - 1) * s.spm d)

/-- Whether the flash has room for items beside what the running tasks still need: an edit that finds none is refused before it
takes effect (R101, R220) (DEDUCED, log entry 111). -/
def State.flashFits (s : State) (d ns : Nat) (l : List FItem) : Bool :=
  decide (sumNat ((s.ftl d).tasks.map (fun t => s.itemsSectors d t.todo)) + s.itemsSectors d l ≤ s.flashRoom d ns)

/-- A task ends with a status that is not OK; what it has written stays. -/
def State.endTaskWith (s : State) (d : Nat) (t : DTask) (st : Nat) : State :=
  let s := s.modFtl d (fun f => { f with tasks := delTask t f.tasks })
  match t.desc with
  | some (f, q, i) => s.complete ⟨fnPart f, fnPort f, q, i, 0, false, false, false, false⟩ st 0 0
  | none => s

/-- A task issues its next object; finished items are passed over. A change of class ends with QUOTA at a page that the flash
quota refuses, and with NOT_READY without flash space: the class stays as it was, and chunks already PARKED stay so (R224,
R225, R228); another task waits and tries again at each tick. `n` bounds the items (DEDUCED, log entry 111). -/
def State.runTask (s : State) (d : Nat) (t : DTask) : Nat → State
  | 0 => s
  | n + 1 =>
    match t.todo with
    | [] => s
    | .class_ q parked :: r =>
      let ctx := match s.seqSlot? d q with | some (_, e) => e.ctx | none => 0
      let (j, s) := s.journal d t.ns (.seq q ctx parked false)
      let t' := { t with todo := r, jwait := j }
      (s.modFtl d (fun f => { f with tasks := putTask t t' f.tasks })).runTask d t' n
    | i :: r =>
      if s.itemDone d i then
        let t' := { t with todo := r }
        (s.modFtl d (fun f => { f with tasks := putTask t t' f.tasks })).runTask d t' n
      else
        if (s.ftl d).hold ≠ .free then s
        else
        match s.itemObj d i with
        | none =>
          let t' := { t with todo := r }
          (s.modFtl d (fun f => { f with tasks := putTask t t' f.tasks })).runTask d t' n
        | some (kind, obj, sec, data) =>
          let refused := match i with
            | .page id => t.r0.isNone && (match s.page? d id with | some p => !s.flashOk d p.ctx sec [id] | none => false)
            | _ => false
          if refused then s.endTaskWith d t stQUOTA
          else
          match s.writeObj d t.band kind obj t.ns sec none data with
          | some (_, s) =>
            let t' := { t with sectors := t.sectors + sec }
            s.modFtl d (fun f => { f with tasks := putTask t t' f.tasks })
          | none =>
            if t.r0.isSome then s else s.endTaskWith d t stNOT_READY

/-- A task added and started; it holds the present epoch while it runs if it reads frames (R92). -/
def State.addTask (s : State) (d : Nat) (t : DTask) : State :=
  let t := { t with reads := !t.todo.isEmpty, epoch := s.epoch d }
  (s.modFtl d (fun f => { f with tasks := f.tasks ++ [t] })).runTask d t (t.todo.length + 1)

/-- The class of a sequence set in its index entry. -/
def State.setClass (s : State) (d q : Nat) (parked : Bool) : State :=
  match s.seqSlot? d q with
  | some (k, e) => s.setSlot d k { e with parked := parked }
  | none => s

/-- A partition whose SEAL was accepted is SEALED once every die's NSKEY object of its generation is durable (R420) (DEDUCED, log entry 48). -/
def State.sealCheck (s : State) (p : Nat) : State :=
  let g := s.genOf p
  let here (d : Nat) : Bool := (s.ftl d).objs.any (fun o =>
    o.durable && (match o.data with | .nskey n x k => n == p && x == g && k.isSome | _ => false))
  if (s.part p).sealing && (s.diesOf p).all here then
    (s.modPart p (fun x => { x with sealing := false })).fset PTN_STATUS_STATE p ptnSealed
  else s

/-- A mailbox command completed (R454) (DEDUCED, log entry 45). -/
def State.mboxDone (s : State) (st : Nat) : State :=
  (((s.fset SEC_MBOX_STATUS_STATUS 0 st).fset SEC_MBOX_STATUS_DONE 0 1).fset SEC_MBOX_STATUS_BUSY 0 0).evtPkg SEC_EVENT_MBOX_DONE

/-- ZEROIZE completes once the META bands it condemned are erased (R455) (DEDUCED, log entry 45). -/
def State.zeroized (s : State) : State := (s.evtPkg SEC_EVENT_ZEROIZED).mboxDone stOK

/-- The removal log entry of a partition whose every named die is scrubbed, has destroyed the key and is erased: DONE, and
ERASE_PENDING clears (R424, R428). -/
def State.settleRemoval (s : State) (p : Nat) : State :=
  match tget s.sec.rms p with
  | none => s
  | some r =>
    if r.st = .erasePending ∧ r.scrub = [] ∧ r.destroy = [] ∧ r.erase = [] then
      let s := { s with sec := { s.sec with rms := tput s.sec.rms p { r with st := .done } } }
      (s.fputAt SEC_RM_STATUS_ERASE_PENDING 0 p false).evtPkg SEC_EVENT_PHYS_ERASED
    else s

/-- What the module record area is to say: a removal log entry from when it is durable on (R446, R427) (DESIGN CHOICE, log entry 143). -/
def State.recordNow (s : State) (seq : Nat) : RecCopy :=
  { seq := seq, ownerCtr := s.sec.ownerCtr, cakCtr := s.sec.cakCtr, fwSel := s.sec.fwSel, mode := s.sec.mode, tenants := s.sec.tenants
    caks := (List.range 8).filterMap (fun d => (s.lnk d).cak.map (fun k => (d, k)))
    log := (s.sec.rms.filter (fun e => e.2.st != .removing || e.2.durable)).map (fun e => (e.1, e.2.st, e.2.oldGen, e.2.dies, e.2.accepted)) }

/-- The copy with the higher sequence number (DESIGN CHOICE, log entry 143). -/
def Sec.newest (x : Sec) : Option (Nat × RecCopy) :=
  x.copies.foldl (fun m e => match m with
    | some y => if y.2.seq < e.2.seq then some e else some y
    | none => some e) none

/-- The record area written when what it says has changed: the copy with the older sequence number takes it (R446) (DESIGN CHOICE, log entry 143). -/
def State.record (s : State) : State :=
  match s.sec.newest with
  | none => { s with sec := { s.sec with copies := tput s.sec.copies 0 (s.recordNow 1) } }
  | some (k, c) =>
    if c = s.recordNow c.seq then s
    else { s with sec := { s.sec with copies := tput s.sec.copies (1 - k) (s.recordNow (c.seq + 1)) } }

/-- The module takes what the newest copy says (R446) (DESIGN CHOICE, log entry 143). -/
def State.recall (s : State) : State :=
  match s.sec.newest with
  | none => s
  | some (_, c) =>
    { s with sec := { s.sec with ownerCtr := c.ownerCtr, cakCtr := c.cakCtr, fwSel := c.fwSel, mode := c.mode, tenants := c.tenants } }

/-- Every removal changed, and those that are then complete settled. -/
def State.modRemovals (s : State) (f : Removal → Removal) : State :=
  let s := { s with sec := { s.sec with rms := tmap (fun _ r => f r) s.sec.rms } }
  ((List.range 8).foldl (fun s p => s.settleRemoval p) s).record

/-- CRYPTO_ERASED was raised on a die: its part of every removal's physical erase is done (R424). -/
def State.physErased (s : State) (d : Nat) : State :=
  s.modRemovals (fun r => if r.destroy.contains d then r else { r with erase := r.erase.filter (· != d) })

/-- A META band that step 5 of a removal or a ZEROIZE waits for was erased (R424, R455). -/
def State.metaErased (s : State) (d band : Nat) : State :=
  let s := s.modRemovals (fun r =>
    if r.metaBands.contains (d, band) then { r with metaBands := r.metaBands.filter (· != (d, band)), bands := r.bands + 1 } else r)
  if s.sec.zeroBands = [] then s
  else
    let left := s.sec.zeroBands.filter (· != (d, band))
    let s := { s with sec := { s.sec with zeroBands := left } }
    if left = [] then s.zeroized else s

/-- The copies at a location changed, among the present ones and those that were freed or replaced (R278). -/
def State.modCopies (s : State) (d : Nat) (loc : FLoc) (g : FObj → FObj) : State :=
  s.modFtl d (fun f => { f with objs := modObj loc g f.objs, ghosts := modObj loc g f.ghosts })

/-- The object a record is about (R278). -/
def JWhat.about : JWhat → Option (Nat × Nat)
  | .page id _ _ => some (1, id)
  | .chunk id _ _ => some (2, id)
  | .mapv q _ _ _ _ => some (3, q)
  | .free k o _ => some (k, o)
  | .seq q _ _ true => some (3, q)
  | _ => none

/-- A record takes effect once it is durable, in JSEQ order: a later record about an object supersedes an earlier one, so that the
copies it replaces are gone; RES.DURABLE, PARKED, the class, a relocation's switch, and the anchor of a checkpoint (R221, R277 to
R279, R281). -/
def State.applyDurable (s : State) (d : Nat) (r : JRec) : State :=
  let s := s.modFtl d (fun f =>
    { f with objs := f.objs.map (fun o => if o.jseq = r.jseq ∧ r.jseq ≠ 0 ∧ o.src.isNone then { o with durable := true } else o) })
  let mark (s : State) (loc : FLoc) : State := s.modCopies d loc (fun o => { o with durable := true })
  let s := match r.what.about with
    | some a => s.modFtl d (fun f => { f with ghosts := f.ghosts.filter (fun o => !(o.kind == a.1 && o.obj == a.2 && decide (o.jseq < r.jseq))) })
    | none => s
  match r.what with
  | .page id _ loc =>
    (mark s loc).modPage d id (fun p => if p.place.flashObj = loc.word then { p with place := { p.place with durable := true } } else p)
  | .chunk id _ loc => (mark s loc).modChunk d id (fun c => { c with parked := true })
  | .mapv _ _ _ _ loc => mark s loc
  | .seq q _ parked freed =>
    if freed then s
    else
      let was := match s.seqSlot? d q with | some (_, e) => e.parked | none => true
      let s := s.setClass d q parked
      if parked && !was then s.fadd STG_PARKS_COUNT d 1 else s
  | .reloc kind obj src dst =>
    -- the destination holds the object unless a later record, which follows, says otherwise
    let s := s.modFtl d (fun f =>
      { f with objs := f.objs.filter (fun o => o.loc != src), ghosts := f.ghosts.filter (fun o => o.loc != src) })
    let s := s.modCopies d dst (fun o => { o with src := none, durable := true })
    if kind = 1 then
      s.modPage d obj (fun p =>
        if p.place.flashObj = src.word then { p with place := { p.place with flashObj := dst.word } } else p)
    else s
  | .ckpt _ loc j =>
    if (s.ftl d).ckptRun then
      s.modFtl d (fun f =>
        let at_ := match f.journalBands.getLast? with | some e => (e.1, e.2.wp) | none => (0, 0)
        { f with anchorNo := f.anchorNo + 1, anchorRun := some ⟨f.anchorNo + 1, j, loc, at_.1, at_.2⟩ })
    else s
  | .nskey _ _ _ => match s.owner d with | some p => s.sealCheck p | none => s
  | _ => s

/-- Tasks whose last record is durable complete (R277 item 3); a class change counts a park. -/
def State.finishTasks (s : State) (d : Nat) : List DTask → State
  | [] => s
  | t :: r =>
    let s :=
      if t.todo.isEmpty && t.jwait != 0 && decide (t.jwait ≤ (s.ftl d).jdur) then
        let s := s.modFtl d (fun f => { f with tasks := delTask t f.tasks })
        match t.desc with
        | some (f, q, i) =>
          s.complete ⟨fnPart f, fnPort f, q, i, 0, false, false, false, false⟩ stOK
            (t.r0.getD (min t.sectors (2 ^ 32 - 1))) t.r1
        | none => s
      else s
    s.finishTasks d r

/-- Pages whose own programs passed become durable from the oldest on (R277 item 2), and their records take effect. -/
def State.jAdvance (s : State) (d : Nat) : Nat → State
  | 0 => s
  | n + 1 =>
    match (s.ftl d).jpages with
    | [] => s
    | pg :: r =>
      if pg.okA && pg.okB then
        let last := pg.recs.foldl (fun m x => max m x.jseq) (s.ftl d).jdur + pg.pads
        let s := s.modFtl d (fun f =>
          { f with jpages := r, jlog := f.jlog ++ pg.recs, jdur := last, ckptBytes := f.ckptBytes + 16384 })
        (pg.recs.foldl (fun s x => s.applyDurable d x) s).jAdvance d n
      else s

/-- What the PAGE record of a page says (R276). -/
def Page.record (p : Page) : PageRec :=
  ⟨p.ctx, p.layer, p.format, p.posBase, p.bytes, p.origin, p.fill, p.st == .open_ || p.st == .full⟩

/-- The record of an object whose programs have passed (R276, R277 item 1). -/
def FObj.record (o : FObj) : Option JWhat :=
  match o.data with
  | .page p => some (.page o.obj p.record o.loc)
  | .chunk c => some (.chunk o.obj c.ctx o.loc)
  | .mapv e => some (.mapv o.obj e.ctx e.parked e.body.version o.loc)
  | .ckpt b => some (.ckpt o.obj o.loc b.jseq)
  | .nskey _ g k => some (.nskey g k.isNone (some o.loc))
  | .parity b st => some (.parity b st o.loc)

/-- An earlier valid copy of the object that `o` replaces is dropped; for a page its RES bits and location follow. -/
def State.install (s : State) (d : Nat) (o : FObj) (spill : Bool) : State :=
  let old (x : FObj) : Bool := x.kind == o.kind && x.obj == o.obj && x.stands && x.loc != o.loc && o.kind != 7
  let s := s.modFtl d (fun f =>
    { f with
      ghosts := f.ghosts ++ f.objs.filter (fun x => old x && x.jseq != 0)
      objs := f.objs.filter (fun x => !old x) })
  if o.kind = 1 then
    s.modPage d o.obj (fun p =>
      let same := match o.data with | .page q => q.fill == p.fill && q.pos == p.pos | _ => true
      if same then { p with place := { p.place with flash := true, durable := false, flashObj := o.loc.word, flashDie := 0 } } else p)
  else if spill then s
  else s

/-- Whether a page is a tail page of a volatile sequence. -/
def State.volatileTail (s : State) (d : Nat) (p : Page) : Bool :=
  match p.st with
  | .open_ | .full => match s.seqSlot? d p.origin with | some (_, e) => !e.parked | none => true
  | _ => false

/-- Segments of a context's resident pages. -/
def State.residentSegs (s : State) (d c : Nat) : Nat :=
  sumNat ((s.pfx d).pages.map (fun e => if e.2.ctx = c && e.2.place.hbm then e.2.segs.length else 0))

/-- Whether the frame of a page may be given up, its copies aside (R233) (DEDUCED, log entry 135). -/
def State.movable (s : State) (d : Nat) (p : Page) : Bool :=
  let min := match s.dieCtx? d p.ctx with | some c => c.hbmMin | none => 0
  p.place.hbm && !p.pinned && !p.place.held && !p.place.staging && p.st != .suspect && p.st != .sealing && p.st != .limbo
    && !s.volatileTail d p && decide (min < s.residentSegs d p.ctx)

/-- A spilled page is released once its copy is written (R235) (DEDUCED, log entry 135). -/
def State.releaseFrame (s : State) (d id : Nat) : State :=
  match s.page? d id with
  | none => s
  | some p =>
    if p.place.hbm then (s.dropFrame d id).fadd STG_RELEASES_COUNT d 1 else s

/-- Every program of an object has passed: its record is appended, or a relocated one is read back (R277, R281) (DEDUCED, log entry 135). -/
def State.objPassed (s : State) (d : Nat) (o : FObj) : State :=
  match o.src with
  | some _ =>
    s.modFtl d (fun f => { f with objs := modObj o.loc (fun x => { x with st := .verifying, reads := x.loc.sectors }) f.objs })
  | none =>
    let spill := match tget (s.ftl d).bands o.loc.band with | some b => b.kind == .spill | none => false
    let s := s.modFtl d (fun f => { f with objs := modObj o.loc (fun x => { x with st := .passed }) f.objs })
    let s := s.install d o spill
    if spill then
      -- the page may still be given up (R233, R235)
      match s.page? d o.obj with
      | some p => if s.movable d p && p.place.flash then (s.releaseFrame d o.obj).fadd STG_SPILLS_COUNT d 1 else s
      | none => s
    else
      match o.record with
      | none => s
      | some w =>
        let (j, s) := s.journal d o.ns w
        let s := s.modFtl d (fun f => { f with objs := modObj o.loc (fun x => { x with jseq := j }) f.objs })
        match (s.ftl d).tasks.find? (fun t => match t.todo with | i :: _ => i.names o | [] => false) with
        | some t =>
          let t' := { t with todo := t.todo.drop 1, jwait := j }
          (s.modFtl d (fun f => { f with tasks := putTask t t' f.tasks })).runTask d t' (t'.todo.length + 1)
        | none => s

/-- Whether the object of a task's next item is being programmed. -/
def State.inFlight (s : State) (d : Nat) (i : FItem) : Bool :=
  (s.ftl d).objs.any (fun o => i.names o && o.src.isNone && o.st != .passed)

/-- Tasks whose next object is not being programmed go on: it was superseded or freed, or writes were held. -/
def State.resumeTasks (s : State) (d : Nat) : State :=
  (s.ftl d).tasks.foldl (fun (s : State) t =>
    match t.todo with
    | [] => s
    | i :: _ => if s.inFlight d i then s else s.runTask d t (t.todo.length + 1)) s

/-! ### Bring-up (R254 to R256) -/

/-- Whether a parameter page is within R254 and R256, its channel aside. -/
def LunPage.ok (l : LunPage) : Bool :=
  decide (l.iface ≤ 1) && l.bus == 8 && decide (16 ≤ l.rate) && decide (l.rate ≤ 144) && l.pageBytes == 16384 && decide (1632 ≤ l.spareBytes)
    && (l.planes == 1 || l.planes == 2 || l.planes == 4) && decide (l.cell ≤ 1) && l.pslc && l.features
    && decide (l.planes * l.blocks * l.pages * l.pageBytes ≤ 512 * 2 ^ 30) && decide (1 ≤ l.blocks) && decide (1 ≤ l.pages)
    && decide (l.tprog ≤ 2500) && decide (l.tprogSlc ≤ 400)

/-- Whether two LUNs report the same geometry, timing and endurance (R255). -/
def LunPage.like (a b : LunPage) : Bool := { a with chan := b.chan, lun := b.lun, ce := b.ce } == b

/-- The LUNs of a channel. -/
def Ftl.lunsOn (f : Ftl) (c : Nat) : List LunPage := f.luns.filter (fun l => l.chan == c)

/-- Whether a channel is within R254 and R256 by itself: 1 to 16 LUNs on 1 to 8 chip enables, at most 4 TiB, all alike (DEDUCED, log entry 151). -/
def Ftl.chanOk (f : Ftl) (c : Nat) : Bool :=
  match f.lunsOn c with
  | [] => false
  | l :: r =>
    let all := l :: r
    all.all (fun x => x.ok && x.like l) && decide (all.length ≤ 16) && decide ((all.map (·.ce)).eraseDups.length ≤ 8)
      && decide (all.length * (l.planes * l.blocks * l.pages * l.pageBytes) ≤ 4 * 2 ^ 40)

/-- The LUN that the others of the die are held to: the first one of the lowest channel that is within the rules by itself (DEDUCED, log entry 151). -/
def Ftl.refLun (f : Ftl) : Option LunPage :=
  ((List.range 16).find? f.chanOk).bind (fun c => (f.lunsOn c).head?)

/-- Channels that stay out of service: they break R254 to R256, or differ from the reference in their pages or in the number of
LUNs (DEDUCED, log entry 151). -/
def Ftl.chansOut (f : Ftl) : List Nat :=
  match f.refLun with
  | none => List.range 16
  | some l => (List.range 16).filter (fun c =>
      !f.chanOk c || !(f.lunsOn c).all (fun x => x.like l) || (f.lunsOn c).length != (f.lunsOn l.chan).length)

/-- The parameter pages are read: geometry, timing and the channels out of service (R255, R256, R305). -/
def State.bringUp (s : State) (d : Nat) : State :=
  let out := (s.ftl d).chansOut
  let s := match (s.ftl d).refLun with
    | none => s
    | some l =>
      let s := ((s.fset FTL_GEOM_BLOCKS_M1 d (l.blocks - 1)).fset FTL_GEOM_LUNS_M1 d (((s.ftl d).lunsOn l.chan).length - 1)).fset FTL_GEOM_PAGES_M1
        d (l.pages - 1)
      let s := ((s.fset FTL_DEVICE_RATE d l.rate).fset FTL_DEVICE_CELL d l.cell).fset FTL_DEVICE_PLANES d (l.planes / 2)
      ((s.fset FTL_DEVICE_IFACE d l.iface).fset FTL_TIMING_TPROG d l.tprog).fset FTL_TIMING_TPROG_SLC d l.tprogSlc
  let s := s.modFtl d (fun f => { f with outCh := out })
  if out.isEmpty then s.fset FTL_STATUS_GEOM_BAD d 0 else (s.fset FTL_STATUS_GEOM_BAD d 1).evtDie FTL_EVENT_GEOM_BAD d

end Sys2Proof.Machine
end

