-- ==== Sys2Proof/Machine/Aes.lean ====
section
/-!
DEFINITION. Sys2Proof/Machine/Aes.lean: AES-256 (FIPS 197), its Galois/Counter mode (SP 800-38D) and key wrap (SP 800-38F), and the
cyclic redundancy checks, as the flash engines and the fabric ports use them (R267, R275, R351, R389, R437).
-/
namespace Sys2Proof.Machine

/-- Bytes as numbers. -/
def natBytes (l : List Byte) : List Nat := l.map (·.toNat)

/-- Bytes filled with zeros to `n`. -/
def fillTo (n : Nat) (l : List Nat) : List Nat := (l ++ List.replicate (n - l.length) 0).take n

/-! ### AES-256 -/

/-- Product by x in GF(2⁸) of AES. -/
def xtime (a : Nat) : Nat := if 128 ≤ a then (2 * a) ^^^ 0x11B else 2 * a

/-- Product in GF(2⁸); `n` bounds the bits of `b`. -/
def gmul : Nat → Nat → Nat → Nat
  | 0, _, _ => 0
  | n + 1, a, b => (if b % 2 = 1 then a else 0) ^^^ gmul n (xtime a) (b / 2)

/-- The `n`-th power in GF(2⁸) by repeated product. -/
def gpow (a : Nat) : Nat → Nat
  | 0 => 1
  | n + 1 => gmul 8 (gpow a n) a

/-- A byte rotated left by `k`. -/
def rotl8 (k a : Nat) : Nat := (a * 2 ^ k ||| a / 2 ^ (8 - k)) % 256

/-- The S-box: the inverse (0 of 0), then the affine map. -/
def sbox (a : Nat) : Nat :=
  let b := if a = 0 then 0 else gpow a 254
  b ^^^ rotl8 1 b ^^^ rotl8 2 b ^^^ rotl8 3 b ^^^ rotl8 4 b ^^^ 0x63

/-- The bytes of a number, most significant first. -/
def beBytes (n : Nat) (v : Nat) : List Nat := (List.range n).map (fun i => v / 2 ^ (8 * (n - 1 - i)) % 256)

/-- The number that bytes spell, most significant first. -/
def beVal (l : List Nat) : Nat := l.foldl (fun v b => 256 * v + b) 0

def xorBytes (a b : List Nat) : List Nat := List.zipWith (· ^^^ ·) a b

/-- The words of the key schedule of a 256-bit key, the newest first; `n` more are made. -/
def keyWords : Nat → Nat → List (List Nat) → List (List Nat)
  | 0, _, l => l
  | n + 1, i, l =>
    let t := l.headD []
    let t := if i % 8 = 0 then
        xorBytes ((t.drop 1 ++ t.take 1).map sbox) [gpow 2 (i / 8 - 1), 0, 0, 0]
      else if i % 8 = 4 then t.map sbox else t
    keyWords n (i + 1) (xorBytes (l.getD 7 []) t :: l)

/-- The 15 round keys. -/
def roundKeys (key : Nat) : List (List Nat) :=
  let k := beBytes 32 key
  let w0 := (List.range 8).map (fun i => (k.drop (4 * i)).take 4)
  let w := (keyWords 52 8 w0.reverse).reverse
  (List.range 15).map (fun r => ((w.drop (4 * r)).take 4).flatten)

/-- ShiftRows on a state held column by column. -/
def shiftRows (l : List Nat) : List Nat := (List.range 16).map (fun i => l.getD ((i + 4 * (i % 4)) % 16) 0)

/-- MixColumns. -/
def mixColumns (l : List Nat) : List Nat :=
  (List.range 16).map (fun i =>
    let c := (l.drop (i / 4 * 4)).take 4
    let at_ (k : Nat) : Nat := c.getD ((i + k) % 4) 0
    gmul 8 (at_ 0) 2 ^^^ gmul 8 (at_ 1) 3 ^^^ at_ 2 ^^^ at_ 3)

/-- One block enciphered. -/
def aesBlock (keys : List (List Nat)) (b : List Nat) : List Nat :=
  let s := xorBytes b (keys.headD [])
  let s := ((keys.drop 1).take 13).foldl (fun s k => xorBytes (mixColumns (shiftRows (s.map sbox))) k) s
  xorBytes (shiftRows (s.map sbox)) (keys.getD 14 [])

/-! ### Galois/Counter mode -/

/-- The product of GHASH: `v` times the bits of `y` from the most significant on; `n` bits are left. -/
def ghMul : Nat → Nat → Nat → Nat → Nat
  | 0, z, _, _ => z
  | n + 1, z, v, y =>
    ghMul n (if y.testBit n then z ^^^ v else z) (if v % 2 = 1 then v / 2 ^^^ (0xE1 * 2 ^ 120) else v / 2) y

/-- Blocks of 16 bytes, the last filled with zeros; `n` bounds them. -/
def blocks16 : Nat → List Nat → List (List Nat)
  | 0, _ => []
  | n + 1, l => if l.isEmpty then [] else (l.take 16 ++ List.replicate (16 - (l.take 16).length) 0) :: blocks16 n (l.drop 16)

def ghash (h : Nat) (aad ct : List Nat) : Nat :=
  let blks := blocks16 (aad.length + 1) aad ++ blocks16 (ct.length + 1) ct ++ [beBytes 8 (8 * aad.length) ++ beBytes 8 (8 * ct.length)]
  blks.foldl (fun y b => ghMul 128 0 h (y ^^^ beVal b)) 0

/-- Text combined with the key stream from counter block `c` on. -/
def gctr (keys : List (List Nat)) (iv : List Nat) (c : Nat) (l : List Nat) : List Nat :=
  let bs := blocks16 (l.length + 1) l
  (((List.range bs.length).zip bs).flatMap (fun x => xorBytes (aesBlock keys (iv ++ beBytes 4 (c + x.1))) x.2)).take l.length

/-- The tag of a text. -/
def gcmTag (keys : List (List Nat)) (iv aad ct : List Nat) : List Nat :=
  let h := beVal (aesBlock keys (List.replicate 16 0))
  xorBytes (beBytes 16 (ghash h aad ct)) (aesBlock keys (iv ++ beBytes 4 1))

/-- AES-256-GCM with a 96-bit IV: ciphertext and tag. -/
def gcmSeal (key : Nat) (iv aad text : List Nat) : List Nat × List Nat :=
  let k := roundKeys key
  let ct := gctr k iv 2 text
  (ct, gcmTag k iv aad ct)

/-- The text of a ciphertext whose tag passes. -/
def gcmOpen (key : Nat) (iv aad ct tag : List Nat) : Option (List Nat) :=
  let k := roundKeys key
  if gcmTag k iv aad ct = tag then some (gctr k iv 2 ct) else none

/-! ### Key wrap -/

/-- One step of the wrap. -/
def kwStep (keys : List (List Nat)) (n : Nat) (x : List Nat × List (List Nat)) (t : Nat) : List Nat × List (List Nat) :=
  let i := (t - 1) % n
  let b := aesBlock keys (x.1 ++ x.2.getD i [])
  (xorBytes (b.take 8) (beBytes 8 t), x.2.set i (b.drop 8))

/-- AES-256-KW of a 256-bit key: 40 bytes. -/
def aesKw (kek key : Nat) : List Nat :=
  let k := beBytes 32 key
  let r := (List.range 4).map (fun i => (k.drop (8 * i)).take 8)
  let x := (List.range 24).foldl (fun x t => kwStep (roundKeys kek) 4 x (t + 1)) (List.replicate 8 0xA6, r)
  x.1 ++ x.2.flatten

/-! ### Cyclic redundancy checks -/

/-- One bit of a reflected 32-bit CRC. -/
def crcBit (poly c : Nat) : Nat := if c % 2 = 1 then c / 2 ^^^ poly else c / 2

/-- A reflected 32-bit CRC of some bytes. -/
def crcOf (poly : Nat) (l : List Nat) : Nat :=
  l.foldl (fun c b => (List.range 8).foldl (fun c _ => crcBit poly c) (c ^^^ b)) 0xFFFFFFFF ^^^ 0xFFFFFFFF

/-- CRC-32C of some bytes. -/
def crc32c (l : List Nat) : Nat := crcOf 0x82F63B78 l

end Sys2Proof.Machine
end

