-- ==== Sys2Proof/Machine/Frames.lean ====
section
/-!
DEFINITION. Sys2Proof/Machine/Frames.lean: the octets of the frames that a fabric port sends: NRT, RoCEv2, IP, UDP, Ethernet and
MACsec (R351, R352, R383, R389, R396). What the rules take from other standards (IEEE 802.3, 802.1AE, RFC 768, 791, 8200 and the
InfiniBand Architecture) is marked PRESUMED in log entry 128.
-/
namespace Sys2Proof.Machine

/-- The NRT header of a packet with `len` payload bytes (R352). -/
def NrtHdr.bytes (h : NrtHdr) (len : Nat) : List Nat :=
  natBytes (le 1 (h.typ + 16) ++ le 1 (h.retx.toNat + 2 * h.fence.toNat + 4 * h.ceEcho.toNat) ++ le 1 h.path
    ++ le 1 (h.segLog2 + 16 * (h.paths - 1)) ++ le 4 h.src ++ le 4 h.msg ++ le 4 h.total ++ le 4 h.off ++ le 2 len ++ le 1 h.status
    ++ zeros 1 ++ le 4 h.key ++ le 4 h.sigIndex ++ le 8 h.addr ++ le 4 h.sigAdd ++ le 4 h.dep)

/-- Opcodes of the reliable connected transport. -/
def RoceOp.code : RoceOp → Nat
  | .wFirst => 0x06 | .wMiddle => 0x07 | .wLast => 0x08 | .wLastImm => 0x09 | .wOnly => 0x0A | .wOnlyImm => 0x0B
  | .rReq => 0x0C | .rFirst => 0x0D | .rMiddle => 0x0E | .rLast => 0x0F | .rOnly => 0x10 | .ack => 0x11 | .nak => 0x11
  | .cnp => 0x81 | .other => 0x1F

/-- The headers of a RoCEv2 packet after UDP: the base header, then the extended headers of its operation (PRESUMED, log entry 128). -/
def RoceHdr.bytes (h : RoceHdr) : List Nat :=
  let bth := [h.op.code, 0x40, 0xFF, 0xFF, 0] ++ beBytes 3 h.qpn ++ [0] ++ beBytes 3 h.psn
  let reth := beBytes 8 h.va ++ beBytes 4 h.rkey ++ beBytes 4 h.len
  let aeth := [if h.op = .nak then h.syn else 0x1F] ++ beBytes 3 (Config.roceMsn h.qpn h.psn)
  bth ++ (match h.op with
    | .wFirst | .wOnly | .rReq => reth
    | .wOnlyImm => reth ++ beBytes 4 h.imm
    | .wLastImm => beBytes 4 h.imm
    | .ack | .nak | .rFirst | .rLast | .rOnly => aeth
    | .cnp => List.replicate 16 0
    | _ => [])

/-- The sum of 16-bit words in one's complement arithmetic; `n` bounds the words. -/
def sum16 : Nat → List Nat → Nat
  | 0, _ => 0
  | _, [] => 0
  | _, [a] => a * 256
  | n + 1, a :: b :: l => let v := a * 256 + b + sum16 n l; v % 65536 + v / 65536

/-- The Internet checksum of some octets (PRESUMED, log entry 128). -/
def inetSum (l : List Nat) : Nat := 65535 - sum16 (l.length + 1) l

/-- The addresses of a port and of the destination, in network order (R351, R386). -/
def State.ipAddrs (s : State) (d : Nat) (v4 : Bool) (to_ : Nat) : List Nat × List Nat :=
  if v4 then (beBytes 4 (s.fget NRT_IP4_ADDR d), beBytes 4 to_)
  else
    let own := (List.range 4).foldl (fun v k => v + s.fget (NRT_IP6_ADDR.nth k) d * 2 ^ (32 * k)) 0
    (beBytes 16 own, beBytes 16 to_)

/-- Whether a packet carries message bytes: its IP header then says ECT(0) (R351). -/
def Packet.isData : Packet → Bool
  | .nrt h _ => h.typ == 1 || h.typ == 2 || h.typ == 4
  | .roce h _ => !(h.op == .ack || h.op == .nak || h.op == .cnp || h.op == .rReq)
  | _ => false

/-- The IP header before `len` octets of UDP (R351, R396) (PRESUMED, log entry 128). -/
def ipHeader (v4 : Bool) (src dst : List Nat) (dscp ecn len : Nat) : List Nat :=
  let tc := dscp % 64 * 4 + ecn
  if v4 then
    let h (c : Nat) : List Nat := [0x45, tc] ++ beBytes 2 (len + 20) ++ [0, 0, 0x40, 0, 64, 17] ++ beBytes 2 c ++ src ++ dst
    h (inetSum (h 0))
  else beBytes 4 (6 * 2 ^ 28 + tc * 2 ^ 20) ++ beBytes 2 len ++ [17, 64] ++ src ++ dst

/-- The UDP datagram of a payload, its checksum computed over the pseudo-header; a sum of 0 is sent as all ones (PRESUMED, log entry 128). -/
def udpBytes (src dst : List Nat) (sport dport : Nat) (b : List Nat) : List Nat :=
  let len := 8 + b.length
  let h (c : Nat) : List Nat := beBytes 2 sport ++ beBytes 2 dport ++ beBytes 2 len ++ beBytes 2 c
  let c := inetSum (src ++ dst ++ beBytes 4 len ++ [0, 0, 0, 17] ++ h 0 ++ b)
  h (if c = 0 then 65535 else c) ++ b

/-- CRC-32 of IEEE 802.3, as its four octets go out. -/
def crc32 (l : List Nat) : List Nat :=
  leNats 4 (crcOf 0xEDB88320 l)

/-- The ICRC of a RoCEv2 packet: a CRC-32 over its headers from IP on, with the fields that switches change set to ones (PRESUMED, log entry 128). -/
def icrc (v4 : Bool) (src dst : List Nat) (len : Nat) (udp b : List Nat) : List Nat :=
  let ip := if v4 then [0x45, 0xFF] ++ beBytes 2 (len + 20) ++ [0, 0, 0x40, 0, 0xFF, 17, 0xFF, 0xFF] ++ src ++ dst
    else [0x6F, 0xFF, 0xFF, 0xFF] ++ beBytes 2 len ++ [17, 0xFF] ++ src ++ dst
  let mask (l : List Nat) (k : Nat) : List Nat := l.take k ++ [0xFF] ++ l.drop (k + 1)
  crc32 (List.replicate 8 0xFF ++ ip ++ udp.take 6 ++ [0xFF, 0xFF] ++ mask b 4)

/-- What follows the Ethernet addresses: the EtherType and what it names (R351, R383) (PRESUMED, log entry 128). -/
def State.inner (s : State) (d : Nat) (v4 : Bool) (to_ dscp : Nat) (p : Packet) : List Nat :=
  let a := s.ipAddrs d v4 to_
  let ecn := if p.isData then 2 else 0
  let etype := beBytes 2 (if v4 then 0x0800 else 0x86DD)
  match p with
  | .nrt h b =>
    let u := udpBytes a.1 a.2 (0xC000 + h.path) (s.fget NRT_CFG_UDP_PORT d) (h.bytes b.length ++ natBytes b)
    etype ++ ipHeader v4 a.1 a.2 dscp ecn u.length ++ u
  | .roce h b =>
    let body := h.bytes ++ natBytes b
    let len := 8 + body.length + 4
    let udp := beBytes 2 0xC000 ++ beBytes 2 4791 ++ beBytes 2 len
    let u := udpBytes a.1 a.2 0xC000 4791 (body ++ icrc v4 a.1 a.2 len udp body)
    etype ++ ipHeader v4 a.1 a.2 dscp ecn u.length ++ u
  | .mka k => beBytes 2 0x888E ++ (List.range 46).map (fun i => Config.netByte 0 k i % 256)
  | .ptp k => beBytes 2 0x88F7 ++ (List.range 46).map (fun i => Config.netByte 1 k i % 256)

/-- The destination and source MAC addresses (R351) (PRESUMED, log entry 128). -/
def State.macAddrs (s : State) (d : Nat) (p : Packet) : List Nat :=
  let mac (hi lo : Fld) : List Nat := beBytes 6 (s.fget hi d * 2 ^ 32 + s.fget lo d)
  let to_ : List Nat := match p with
    | .mka _ => [0x01, 0x80, 0xC2, 0, 0, 0x03]
    | .ptp _ => [0x01, 0x1B, 0x19, 0, 0, 0]
    | _ => mac NRT_GW_HI_ADDR_HI NRT_GW_LO_ADDR_LO
  to_ ++ mac NRT_MAC_HI_ADDR_HI NRT_MAC_LO_ADDR_LO

/-- The octets of a frame: protected under the association and packet number `sec`, if any, with the SecTAG after the addresses,
every octet behind it encrypted and the ICV at the end; then the FCS (R351, R389) (PRESUMED, log entry 128). -/
def State.frameOctets (s : State) (d : Nat) (sec : Option (Nat × Nat)) (v4 : Bool) (to_ dscp : Nat) (p : Packet) : List Nat :=
  let addrs := s.macAddrs d p
  let body := s.inner d v4 to_ dscp p
  let f := match sec with
    | none => addrs ++ body
    | some (an, pn) =>
      let sci := !s.fbit LNK_CTRL_SCI_OMIT d
      let sl := if body.length < 48 then body.length else 0
      let tag := beBytes 2 0x88E5 ++ [0x0C + 0x20 * sci.toNat + an % 4, sl] ++ beBytes 4 pn ++ (if sci then addrs.drop 6 ++ [0, 1] else [])
      let no := (s.lnk d).txSak
      let iv := xorBytes (beBytes 4 (Config.ssci d no) ++ beBytes 8 pn) (beBytes 12 (Config.salt d no))
      let c := gcmSeal (Config.sak d no) iv (addrs ++ tag) body
      addrs ++ tag ++ c.1 ++ c.2
  f ++ crc32 f

end Sys2Proof.Machine
end

