-- ==== Sys2Proof/Machine/Link.lean ====
section
/-!
DEFINITION. Sys2Proof/Machine/Link.lean: the fabric port: traffic classes, queues, credits, gates, policers, packet numbers
(R388 to R411).
-/
namespace Sys2Proof.Machine

/-- Whether frames are protected (R389). -/
def State.macsec (s : State) (d : Nat) : Bool := s.fbit LNK_CTRL_MACSEC_EN d

/-- READY of NRT_STATUS: EN = 1 and a port identity (R386). -/
def State.nrtReady (s : State) (d : Nat) : Bool := s.fbit NRT_CTRL_EN d && s.fget NRT_PORT_ID_ID d != 0

/-- SECURED of LNK_STATUS: MACsec is on, MKA has a live peer, and the transmit and receive SAs are installed (R393). -/
def State.securedNow (s : State) (d : Nat) : Bool :=
  let l := s.lnk d
  s.macsec d && !l.mkaPeers.isEmpty && l.txSa && !l.rxSas.isEmpty

/-- The controlled port is up: the link is trained, and secured when frames are protected (R393). -/
def State.portUp (s : State) (d : Nat) : Bool :=
  s.fbit LNK_STATUS_UP d && (!s.macsec d || s.fbit LNK_STATUS_SECURED d)

/-- LINK_STATE posted (R385). -/
def State.linkState (s : State) (d : Nat) (up : Bool) : State :=
  s.dieEvent d 0x40 (le 1 up.toNat ++ le 1 (s.fget LNK_STATUS_LANES d))

/-- SECURED and NRT_STATUS.LINK_UP brought in line with the port, with SECURED_LOST and LINK_STATE when they change
(R393). -/
def State.refreshPort (s : State) (d : Nat) : State :=
  let was := s.fbit LNK_STATUS_SECURED d
  let now := s.securedNow d
  let s := s.fput LNK_STATUS_SECURED d now
  let s := if was && !now then s.evtDie LNK_EVENT_SECURED_LOST d else s
  let up := s.portUp d
  if s.fbit NRT_STATUS_LINK_UP d == up then s else (s.fput NRT_STATUS_LINK_UP d up).linkState d up

/-! ### Classes and queues (R395, R396) -/

/-- The class of a kind of frame (R395). -/
def State.classOf (s : State) (d : Nat) : FKind → Nat
  | .result => s.fget LNK_TC_MAP_RESULT d
  | .step => s.fget LNK_TC_MAP_STEP d
  | .control => s.fget LNK_TC_MAP_CONTROL d
  | .read => s.fget LNK_TC_MAP_READ d
  | .bulk => s.fget LNK_TC_MAP_BULK d
  | .armed => s.fget LNK_TC_MAP_ARMED d
  | .other => s.fget LNK_TC_MAP_OTHER d
  | .net => 7
  | .as c => c

/-- The DSCP of a class (R396). -/
def State.dscpOf (s : State) (d c : Nat) : Nat :=
  let lo := [LNK_DSCP_LO_DSCP0, LNK_DSCP_LO_DSCP1, LNK_DSCP_LO_DSCP2, LNK_DSCP_LO_DSCP3]
  let hi := [LNK_DSCP_HI_DSCP0, LNK_DSCP_HI_DSCP1, LNK_DSCP_HI_DSCP2, LNK_DSCP_HI_DSCP3]
  match (lo ++ hi)[c]? with
  | some F => s.fget F d
  | none => 0

/-- The class of a received frame: the highest whose DSCP equals the frame's, TC0 when none does (R396). -/
def State.classOfDscp (s : State) (d dscp : Nat) : Nat :=
  (List.range 8).foldl (fun m c => if s.dscpOf d c = dscp then c else m) 0

/-- Bytes MACsec adds to a frame (R389). -/
def State.secBytes (s : State) (d : Nat) : Nat :=
  if !s.macsec d then 0 else if s.fbit LNK_CTRL_SCI_OMIT d then 24 else 32

/-- Bytes of the headers after UDP and of the trailer that a packet needs: the NRT header (R351), or the RoCEv2 BTH, its
extension headers and the ICRC. -/
def Packet.bytes : Packet → Nat
  | .nrt _ p => 48 + p.length
  | .roce h p =>
    16 + p.length + (match h.op with
      | .wFirst | .wOnly | .rReq => 16
      | .wOnlyImm => 20
      | .wLastImm | .ack | .nak | .rFirst | .rLast | .rOnly => 4
      | .cnp => 16
      | _ => 0)
  | .mka _ | .ptp _ => 46

/-- Frame bytes under R398: destination address to FCS, SecTAG and ICV included. -/
def State.frameBytes (s : State) (d : Nat) (v4 : Bool) (p : Packet) : Nat :=
  match p with
  | .mka _ => 18 + p.bytes
  | .ptp _ => 18 + s.secBytes d + p.bytes
  | _ => 18 + s.secBytes d + (if v4 then 20 else 40) + 8 + p.bytes

/-- A class's queue. -/
def Lnk.tc (l : Lnk) (c : Nat) : TcQueue := dget l.tcs TcQueue.init c

/-- The gates in force, bit n for TCn; TC7 is always open (R400, R403). -/
def State.gates (s : State) (d : Nat) : Nat :=
  if s.fbit LNK_SHUT_CTRL_EN d && !s.fbit LNK_STATUS_SHUT_HELD d then
    match (s.lnk d).shut.entries[(s.lnk d).entry]? with
    | some e => e.1 % 128 + 128
    | none => 255
  else 255

/-- Credit counted on to an instant (R398): it rises while frames wait and the gate is open, is held while the gate is
closed, and is 0 at most when the queue is empty. -/
def TcQueue.accrue (q : TcQueue) (open_ : Bool) (t200 : Nat) : TcQueue :=
  match q.frames with
  | [] => { q with credit := min q.credit 0, upTo := max q.upTo t200 }
  | f :: _ =>
    if !f.shaped then { q with upTo := max q.upTo t200 }
    else
      let lim : Int := f.limit * 16000
      let c := if open_ then q.credit + ((f.idle * (t200 - q.upTo) : Nat) : Int) else q.credit
      { q with credit := max (-lim) (min lim c), upTo := max q.upTo t200 }

/-- Every class's credit counted on to the present instant. -/
def State.accrueAll (s : State) (d : Nat) : State :=
  let t := s.clk.tNs * 200
  let g := s.gates d
  s.modLnk d (fun l => { l with
    tcs := (List.range 8).foldl (fun m c => dset m TcQueue.init c ((dget m TcQueue.init c).accrue (g.testBit c) t)) l.tcs })

/-- A frame put in the queue of its class (R395, R411). -/
def State.enqueue (s : State) (d : Nat) (k : FKind) (v4 : Bool) (addr : Nat) (p : Packet) : State :=
  let c := s.classOf d k
  let s := s.accrueAll d
  let f : QFrame :=
    { v4 := v4, addr := addr, pkt := p, bytes := s.frameBytes d v4 p, enqT := s.clk.tNs, deferred := false,
      idle := s.fget (LNK_CBS_IDLE.nth c) d, shaped := s.fbit (LNK_CBS_EN.nth c) d, limit := s.fget LNK_CBS_LIM_LIMIT d,
      dscp := s.dscpOf d c }
  s.modLnk d (fun l => { l with tcs := dset l.tcs TcQueue.init c { l.tc c with frames := (l.tc c).frames ++ [f] } })

/-- The instant at which the gate of a class next closes, in T_ns; none when it stays open (R401). -/
def closesAt (entries : List (Nat × Nat)) (c : Nat) : Nat → Nat → Nat → Option Nat
  | 0, _, _ => none
  | n + 1, i, t =>
    match entries[(i + 1) % max 1 entries.length]? with
    | none => none
    | some e => if e.1.testBit c then closesAt entries c n (i + 1) (t + e.2) else some t

/-- Wire time of a frame with the 20 bytes of R398, and of its bytes alone, in 1/200 ns (R388). -/
def State.wire200 (s : State) (d n : Nat) : Nat := if s.fget LNK_STATUS_LANES d = 4 then 2 * n else n

/-- Whether a frame fits before its gate closes (R401). -/
def State.fits (s : State) (d c : Nat) (f : QFrame) : Bool :=
  if !s.fbit LNK_SHUT_CTRL_EN d || s.fbit LNK_STATUS_SHUT_HELD d || c == 7 then true
  else
    let l := s.lnk d
    match closesAt l.shut.entries c l.shut.entries.length l.entry l.entryT with
    | none => true
    | some t => decide (s.clk.tNs * 200 + s.wire200 d (f.bytes + 20) ≤ t * 200)

/-- Whether the port may send a frame now: MKA frames whenever the link is trained, others while the controlled port is up
and packet numbers last, those of NRT and RoCEv2 while the port serves them (R386, R389, R391, R393). -/
def State.maySend (s : State) (d : Nat) (p : Packet) : Bool :=
  s.unitOn uFabric d 0 && !s.fbit LNK_STATUS_PN_STOP d &&
    (match p with
     | .mka _ => s.fbit LNK_STATUS_UP d
     | .ptp _ => s.portUp d
     | _ => s.portUp d && s.nrtReady d)

/-- The head frame of the highest class that may send (R397), with the held frames counted in GATE_DEFER on the way. -/
def State.pickClass (s : State) (d : Nat) : Nat → Option (Nat × QFrame) × State
  | 0 => (none, s)
  | n + 1 =>
    let q := (s.lnk d).tc n
    match q.frames with
    | [] => s.pickClass d n
    | f :: r =>
      if !s.maySend d f.pkt || !(s.gates d).testBit n || (f.shaped && decide (q.credit < 0)) then s.pickClass d n
      else if s.fits d n f then (some (n, f), s)
      else if f.deferred then s.pickClass d n
      else
        let s := s.modLnk d (fun l => { l with
          tcs := dset l.tcs TcQueue.init n { q with frames := { f with deferred := true } :: r } })
        (s.fadd LNK_GATE_DEFER_COUNT d 1).pickClass d n

/-- The next packet number used; at 2⁶³ the port stops (R391). -/
def State.usePn (s : State) (d : Nat) : State :=
  let s := s.modLnk d (fun l => { l with txPn := l.txPn + 1 })
  if 2 ^ 63 ≤ (s.lnk d).txPn then (s.fset LNK_STATUS_PN_STOP d 1).evtDie LNK_EVENT_PN_STOP d else s

/-- A frame's latency recorded (R409). -/
def State.noteLatency (s : State) (d c dt : Nat) : State :=
  let s := s.fmax (LNK_QLAT_HWM.nth c) d (dt / 100)
  let th := s.fget (LNK_QLAT_THRESH.nth c) d
  if th ≠ 0 ∧ th * 100 < dt then (s.fadd LNK_LAT_OVER_COUNT d 1).evtDie LNK_EVENT_LAT_OVER d else s

/-- What the counters take of a frame sent: its bytes, its packet and its queue latency (R527, R538, R540). -/
def State.countSent (s : State) (d c : Nat) (f : QFrame) : State :=
  let s := (s.bw d 0 f.bytes).hist d 5 c (s.clk.tNs - f.enqT)
  let (pkt, again) : Bool × Bool := match f.pkt with
    | .nrt h _ => (true, h.retx)
    | .roce _ _ => (true, false)
    | _ => (false, false)
  let s := if pkt then s.pmc d 0x16 1 f.bytes none else s
  if again then s.pmc d 0x17 1 f.bytes none else s

/-- A frame sent: its class's credit falls by its bytes, the medium is busy for its wire time, and what goes out is emitted
(R394, R397, R398). While it is sent its credit also rises at IDLE; when the queue is then empty that is counted at
once (DEDUCED, log entry 142). -/
def State.sendFrame (s : State) (d c : Nat) (f : QFrame) : State :=
  let t := s.clk.tNs * 200
  let dur := s.wire200 d f.bytes
  let q := (s.lnk d).tc c
  let rest := q.frames.drop 1
  let lim : Int := f.limit * 16000
  let down : Int := q.credit - ((16000 * f.bytes : Nat) : Int) + (if rest.isEmpty then ((f.idle * dur : Nat) : Int) else 0)
  let credit := if f.shaped then max (-lim) down else q.credit
  let credit := if rest.isEmpty then min credit 0 else credit
  let s := s.modLnk d (fun l => { l with
    tcs := dset l.tcs TcQueue.init c { frames := rest, credit := credit, upTo := q.upTo }
    busy := t + s.wire200 d (f.bytes + 20) })
  let s := (s.noteLatency d c (s.clk.tNs - f.enqT)).countSent d c f
  let prot := s.macsec d && (match f.pkt with | .mka _ => false | _ => true)
  let sec := if prot then some ((s.lnk d).txAn, (s.lnk d).txPn) else none
  let s := s.emit (.frame d c f.dscp sec f.addr f.pkt (s.frameOctets d sec f.v4 f.addr f.dscp f.pkt))
  if prot then s.usePn d else s

/-! ### Policing (R406, R407) -/

/-- The enabled policer that names an entry. -/
def Lnk.policer? (l : Lnk) (entry : Nat) : Option (Nat × Policer) :=
  l.policers.find? (fun p => p.2.en && p.2.entry == entry)

/-- A packet policed: whether it goes on, and whether it counts as marked CE (R407). -/
def State.police (s : State) (d key cost : Nat) : Bool × Bool × State :=
  if key / 2 ^ 21 % 8 ≠ d then (true, false, s)
  else
    match (s.lnk d).policer? (key % 2 ^ 21) with
    | none => (true, false, s)
    | some (k, p) =>
      let now := s.clk.tNs
      let full := min (p.burst * 800) (p.bucket + p.rate * (now - p.t))
      let put (b : Nat) (s : State) : State :=
        s.modLnk d (fun l => { l with policers := dset l.policers Policer.init k { p with bucket := b, t := now } })
      if full < cost * 800 then
        (false, false, ((put full s).fadd LNK_POL_DROPS_COUNT d 1).evtDie LNK_EVENT_POL_DROP d)
      else
        let left := full - cost * 800
        let mark := decide (left * 100 < s.fget LNK_POL_MARK_LEVEL d * p.burst * 800)
        let s := put left s
        (true, mark, if mark then s.fadd LNK_POL_MARKS_COUNT d 1 else s)

end Sys2Proof.Machine
end

