-- ==== Sys2Proof/Machine/NrtSend.lean ====
section
/-!
DEFINITION. Sys2Proof/Machine/NrtSend.lean: what the transport needs to send a message: regions and keys, peers and their rate,
packets, queue pairs, and a message that fails (R354, R355, R364, R366, R372, R374, R382, R383, R385).
-/
namespace Sys2Proof.Machine

/-- ADAPT_PINNED of a loop (R337) (DEDUCED, log entry 14). -/
def State.adaptPinned (s : State) (d loop ticks : Nat) : State := s.dieEvent d evAdaptPinned (le 1 loop ++ le 3 0 ++ le 4 ticks)

/-- A descriptor's completion by its function, SQ and index. -/
def State.completeKey (s : State) (k : Nat × Nat × Nat) (status r0 r1 : Nat) : State :=
  s.complete ⟨fnPart k.1, fnPort k.1, k.2.1, k.2.2, 0, false, false, false, false⟩ status r0 r1

/-! ### Regions (R366) -/

def Nrt.region (n : Nrt) (e : Nat) : Region := dget n.keys Region.init e
def State.region (s : State) (d e : Nat) : Region := (s.nrt d).region e
def State.modRegion (s : State) (d e : Nat) (f : Region → Region) : State :=
  s.modNrt d (fun n => { n with keys := dset n.keys Region.init e (f (n.region e)) })

/-- The key of an entry: generation, home die and entry (R366). -/
def keyOfEntry (d e gen : Nat) : Nat := gen * 2 ^ 24 + d * 2 ^ 21 + e

def keyGen (k : Nat) : Nat := k / 2 ^ 24
def keyDie (k : Nat) : Nat := k / 2 ^ 21 % 8
def keyEntry (k : Nat) : Nat := k % 2 ^ 21

/-- The generation of an entry: as set at random when the table was placed, plus one for each scrub and revocation since
(R366, R369, R371) (DESIGN CHOICE, log entry 50). -/
def State.entryGen (s : State) (d e : Nat) : Nat :=
  let n := s.nrt d
  (Config.keyGen n.genSeed (d * 2 ^ 21 + e) + n.genAdd + (n.region e).gen) % 256

/-- Whether a key is VALID on a die: the entry is VALID and the generation equal (R366). -/
def State.keyValid (s : State) (d k : Nat) : Bool :=
  let r := s.region d (keyEntry k)
  keyDie k == d && keyEntry k != 0 && r.st == .valid && s.entryGen d (keyEntry k) == keyGen k

/-- Bytes of a region. -/
def Region.read (r : Region) (off len : Nat) : List Byte := (List.range len).map (fun i => dget r.data 0 (off + i))

def Region.write (r : Region) (off : Nat) : List Byte → Region
  | [] => r
  | b :: l => Region.write { r with data := dset r.data 0 off b } (off + 1) l

/-! ### Peers and rate (R372, R374) -/

def State.peer? (s : State) (d i : Nat) : Option Peer := tget (s.nrt d).peers i
def State.modPeer (s : State) (d i : Nat) (f : Peer → Peer) : State :=
  s.modNrt d (fun n => { n with peers := tmod n.peers i f })

/-- The peer entry of an address (R372). -/
def State.peerAt (s : State) (d : Nat) (v4 : Bool) (addr : Nat) : Option (Nat × Peer) :=
  (s.nrt d).peers.find? (fun e => e.2.v4 == v4 && e.2.addr == addr)

/-- The rate of a peer falls to 7/8, at most once per 10 µs; below MIN it is held there, with ADAPT_PINNED once per tick
(R374). -/
def State.rateFall (s : State) (d i minRate : Nat) : State :=
  match s.peer? d i with
  | none => s
  | some p =>
    let now := s.clk.tNs
    let s := s.modPeer d i (fun p => { p with calmT := now })
    if now < p.fallT + 10000 ∧ p.fallT ≠ 0 then s
    else
      let r := p.rate * 7 / 8
      let lo := minRate * 1000000
      let s := s.modPeer d i (fun p => { p with rate := max r lo, fallT := now })
      if lo ≤ r then s
      else if (s.nrt d).pinned then s
      else
        let s := (s.modNrt d (fun n => { n with pinned := true })).fadd NRT_PINNED_TICKS d 1
        (s.adaptPinned d 4 (s.fget NRT_PINNED_TICKS d)).evtDie NRT_EVENT_PINNED d

/-! ### Occurrence events (R385) -/

/-- The payload of an occurrence event that counts `n` occurrences. -/
def State.occPayload (s : State) (d code peer n : Nat) : List Byte :=
  if code = 0x43 then le 2 peer ++ zeros 2 ++ le 4 n
  else if code = 0x45 then le 4 n
  else le 4 (s.nrt d).lastKey ++ le 4 (s.nrt d).lastSrc ++ le 4 n

/-- An occurrence: posted at most once per tick per code, with the count since the last one posted (R385). `peer` is the
peer of PEER_UNREACHABLE. -/
def State.nrtOccur (s : State) (d code peer : Nat) : State :=
  let n := dget (s.nrt d).occur 0 code + 1
  let s := if code = 0x43 then s.modNrt d (fun x => { x with lastPeer := peer }) else s
  if (s.nrt d).posted.contains code then s.modNrt d (fun x => { x with occur := dset x.occur 0 code n })
  else
    (s.modNrt d (fun x => { x with occur := dset x.occur 0 code 0, posted := code :: x.posted })).dieEvent d code
      (s.occPayload d code peer n)

/-- A new tick: occurrences that waited are posted (R385) (DEDUCED, log entry 13). -/
def State.nrtTick (s : State) (d : Nat) : State :=
  let late := (s.nrt d).occur.filter (fun e => e.2 != 0)
  let s := s.modNrt d (fun n => { n with posted := late.map (·.1), occur := [], pinned := false })
  late.foldl (fun s e => s.dieEvent d e.1 (s.occPayload d e.1 (s.nrt d).lastPeer e.2)) s

/-! ### Sending (R354, R355, R364) -/

/-- Packets of a message (R354). -/
def NrtHdr.count (h : NrtHdr) : Nat := if h.typ = 3 then 1 else ceilDiv h.total (2 ^ h.segLog2)

/-- The path a packet takes: the path of R354, or the next that has not been left out of spraying (R385) (DEDUCED, log entry 28). -/
def Peer.path (p : Peer) (i : Nat) : Nat :=
  let n := max 1 p.paths
  match (List.range n).find? (fun k => !thas p.down ((i + k) % n)) with
  | some k => (i + k) % n
  | none => i % n

/-- The payload of packet `i` of a message. -/
def Tx.payload (t : Tx) (i : Nat) : List Byte :=
  if t.hdr.typ = 3 then [] else (t.bytes.drop (i * 2 ^ t.hdr.segLog2)).take (2 ^ t.hdr.segLog2)

/-- Packet `i` of message `t`, resent `r` times, put in its class's queue. -/
def State.sendPkt (s : State) (d : Nat) (t : Tx) (i r : Nat) : State :=
  match s.peer? d t.peer with
  | none => s
  | some p =>
    let path := p.path (i + r)
    let h := { t.hdr with path := path, retx := decide (r ≠ 0), off := i * 2 ^ t.hdr.segLog2 }
    let s := s.enqueue d t.kind p.v4 p.addr (.nrt h (t.payload i))
    s.modNrt d (fun n => { n with
      tx := n.tx.map (fun x => if x.msg = t.msg then { x with lastT := s.clk.tNs, lastPath := path } else x) })

/-- A packet of a message resent: its resend count rises, and NRT_RETX with it (R354, R364). -/
def State.resend (s : State) (d : Nat) (t : Tx) (i : Nat) : State :=
  let r := dget t.sent 0 i + 1
  let s := s.modNrt d (fun n => { n with
    tx := n.tx.map (fun x => if x.msg = t.msg then { x with sent := dset x.sent 0 i r } else x) })
  (s.fadd NRT_RETX_COUNT d 1).sendPkt d t i r

/-- A message of an NRT peer started: it takes the next MSG_ID, and its packets go to their queue in order (R354, R355).
The identifier comes back (DESIGN CHOICE, log entry 22). -/
def State.startMsg (s : State) (d peer typ key addr total sigIndex sigAdd : Nat) (dep : Option Nat) (bytes : List Byte)
    (from_ : Option (Nat × Nat)) (use : TxFor) (kind : FKind) : Nat × State :=
  let msg := (Config.first d + (s.nrt d).nextMsg) % 2 ^ 32
  let paths := match s.peer? d peer with | some p => p.paths | none => 1
  let h : NrtHdr :=
    { typ := typ, retx := false, fence := dep.isSome, ceEcho := false, path := 0, segLog2 := s.fget NRT_CFG_SEG_LOG2 d,
      paths := paths, src := s.fget NRT_PORT_ID_ID d, msg := msg, total := total, off := 0, status := 0, key := key,
      sigIndex := sigIndex, addr := addr, sigAdd := sigAdd, dep := dep.getD 0 }
  let t : Tx :=
    { msg := msg, peer := peer, hdr := h, bytes := bytes, from_ := from_, use := use, kind := kind, sent := [], tmo := 0,
      lastT := s.clk.tNs, lastPath := 0, retry := max 1 (s.fget NRT_CFG_RETRY d), ackTmo := s.fget NRT_TMO_ACK_TMO d * 1000,
      minRate := s.fget NRT_RATE_MIN d }
  let s := (s.modNrt d (fun n => { n with nextMsg := n.nextMsg + 1, tx := n.tx ++ [t] })).fadd NRT_TX_MSGS_COUNT d 1
  (msg, (List.range h.count).foldl (fun s i => s.sendPkt d t i 0) s)

/-! ### RoCEv2 sending (R383) -/

/-- The packets of a WRITE on a QP: First, Middle, Last or Only, the last with an immediate when it signals. -/
def writePkts (q : Qp) (key addr : Nat) (imm : Option Nat) (bytes : List Byte) : List (RoceHdr × List Byte) :=
  let parts := if bytes.isEmpty then [[]] else groupsOf (2 ^ q.mtu) bytes.length bytes
  let n := parts.length
  (numbered' parts).map (fun e =>
    let last := e.1 + 1 = n
    let op := if n = 1 then (if imm.isSome then .wOnlyImm else .wOnly)
      else if e.1 = 0 then .wFirst else if last then (if imm.isSome then .wLastImm else .wLast) else .wMiddle
    (⟨op, q.remote, (q.sendPsn + e.1) % 2 ^ 24, if e.1 = 0 then key else 0, if e.1 = 0 then addr else 0,
      if e.1 = 0 then bytes.length else 0, if last then imm.getD 0 else 0, 0⟩, e.2))
where
  numbered' (l : List (List Byte)) : List (Nat × List Byte) := (List.range l.length).zip l

/-- The record of a sweep whose output message failed: its result is dropped, and no status entry follows it (R123, R382) (DESIGN CHOICE, log entry 117). -/
def State.refuseOut (s : State) (d sweep i : Nat) : State :=
  let s := (s.fadd CSM_RESDROP_COUNT d 1).evtDie CSM_EVENT_RESDROP d
  let mark (w : Sweep) : Sweep :=
    { w with recs := ((List.range w.recs.length).zip w.recs).map (fun x => if x.1 = i then { x.2 with outBad := true } else x.2) }
  s.modCsm d (fun c => { c with sweeps := c.sweeps.map (fun w => if w.id = sweep then mark w else w) })

/-- What the remote read of a staging task ended with (R250). -/
def State.gotStaged (s : State) (d page start status : Nat) (b : List Byte) : State :=
  s.modStg d (fun x => { x with
    tasks := x.tasks.map (fun t => if t.page = page ∧ t.startT = start then { t with got := some (status, b) } else t) })

/-- An import is dropped. -/
def State.endImport (s : State) (d : Nat) (k : Nat × Nat × Nat) : State :=
  s.modStg d (fun x => { x with imports := x.imports.filter (fun j => !(j.fn == k.1 && j.sq == k.2.1 && j.index == k.2.2)) })

/-- `p` written over the bytes of a buffer from `off`. -/
def putBytes (b : List Byte) (off : Nat) (p : List Byte) : List Byte := b.take off ++ p ++ b.drop (off + p.length)

/-- A message of the part fails: an output block drops its result (R123, R382), an export ends (R249), an armed request
completes (R378) (DESIGN CHOICE, log entry 117; DEDUCED, log entry 141). -/
def State.txFail (s : State) (d : Nat) (use : TxFor) (status : Nat) : State :=
  match use with
  | .output sweep i => s.refuseOut d sweep i
  | .status => s
  | .none_ => s
  | .exported f q i =>
    match (s.stg d).exports.find? (fun j => j.fn == f && j.sq == q && j.index == i) with
    | none => s
    | some j =>
      let s := s.modStg d (fun x => { x with exports := x.exports.filter (fun k => k != j) })
      (s.closeHolder d j.epoch).completeKey (f, q, i) status 0 0
  | .armed f q i _ => s.completeKey (f, q, i) status 0 0
  | .staged page start _ => s.gotStaged d page start status []
  | .imported f q i => (s.endImport d (f, q, i)).completeKey (f, q, i) status 0 0

/-- Sequence numbers that a work request takes: one for each packet, of a read one for each packet of its response. -/
def QpSend.psns (w : QpSend) (mtu : Nat) : Nat :=
  match w.pkts with
  | (h, _) :: _ => if h.op == .rReq then max 1 (ceilDiv h.len (2 ^ mtu)) else w.pkts.length
  | [] => 1

/-- A work request put on a peer's QP; its packets go out in order. A QP in the error state takes none: the request fails with
NOT_READY (DESIGN CHOICE, log entry 117; DEDUCED, log entry 141). -/
def State.qpPost (s : State) (d peer : Nat) (w : QpSend) : State :=
  match s.peer? d peer with
  | none => s
  | some p =>
    if (match p.qp with | some q => q.err | none => false) then s.txFail d w.use stNOT_READY
    else
    let s := s.modPeer d peer (fun p => { p with qp := p.qp.map (fun q =>
      { q with sendPsn := (q.sendPsn + w.psns q.mtu) % 2 ^ 24, sends := q.sends ++ [w], lastT := s.clk.tNs }) })
    w.pkts.foldl (fun s e => s.enqueue d w.kind p.v4 p.addr (.roce e.1 e.2)) (s.fadd NRT_TX_MSGS_COUNT d 1)

/-- A remote write to a peer over its transport: NRT, or its queue pair (R382, R383). `sig` is the signal counter. The
MSG_ID of an NRT message comes back. -/
def State.sendWrite (s : State) (d peer key addr : Nat) (sig : Option Nat) (dep : Option Nat) (bytes : List Byte)
    (from_ : Option (Nat × Nat)) (use : TxFor) (kind : FKind) : Nat × State :=
  match (s.peer? d peer).bind (·.qp) with
  | some q => (0, s.qpPost d peer ⟨writePkts q key addr sig bytes, use, kind, from_, [], 0⟩)
  | none =>
    s.startMsg d peer (if sig.isSome then 2 else 1) key addr bytes.length (sig.getD 0) (if sig.isSome then 1 else 0) dep bytes
      from_ use kind

/-- A remote read from a peer over its transport. -/
def State.sendRead (s : State) (d peer key addr total : Nat) (to_ : Option (Nat × Nat)) (use : TxFor) (kind : FKind) : State :=
  match (s.peer? d peer).bind (·.qp) with
  | some q =>
    let h : RoceHdr := ⟨.rReq, q.remote, q.sendPsn, key, addr, total, 0, 0⟩
    s.qpPost d peer ⟨[(h, [])], use, kind, to_, if to_.isNone then zeros total else [], 0⟩
  | none => (s.startMsg d peer 3 key addr total 0 0 none (if to_.isNone then zeros total else []) to_ use kind).2

end Sys2Proof.Machine
end

