-- ==== Sys2Proof/Machine/Staging.lean ====
section
/-!
DEFINITION. Sys2Proof/Machine/Staging.lean: where pages are and how they move: heat, release, spill, staging tasks, pins,
replicas, hints, lost pages and reclamation (R93, R211, R216 to R250).
-/
namespace Sys2Proof.Machine

/-! ### Reclamation (R93) -/

/-- An item of limbo returned to the free pools (R93). -/
def State.reclaim (s : State) (d : Nat) : LimboWhat → State
  | .page id =>
    match s.page? d id with
    | none => s
    | some p =>
      let s := (((s.giveSegs d p.segs).giveList d p.list).dropStore d id).freeObj d 1 id
      let s := ((s.stg d).tasks.filter (fun t => t.page == id && t.list != 0)).foldl (fun s t => s.giveList d t.list) s
      let s := s.modStg d (fun x => { x with tasks := x.tasks.filter (fun t => t.page != id) })
      s.modPfx d (fun x => { x with pages := tdel x.pages id })
  | .chunk id =>
    let s := (s.freeObj d 2 id).modPfx d (fun x => { x with chunks := tdel x.chunks id })
    let s := ((s.stg d).replicas.filter (fun e => e.2.chunk == id && e.2.kind == 1)).foldl (fun s e =>
      s.giveSegs e.2.die e.2.segs) s
    let s := ((s.stg d).loose.filter (fun r => r.chunk == id)).foldl (fun s r => s.giveSegs r.die r.segs) s
    s.modStg d (fun x =>
      { x with replicas := tfilter (fun _ r => r.chunk != id) x.replicas, loose := x.loose.filter (fun r => r.chunk != id) })
  | .segs l | .frame _ l => s.giveSegs d l

/-- Limbo reclaimed from its head while the release epoch is at or below `old` (R93); `n` bounds the items. -/
def State.reclaimRun (s : State) (d old : Nat) : Nat → State
  | 0 => s
  | n + 1 =>
    match (s.pfx d).limbo with
    | [] => s
    | l :: r =>
      if epochLe l.rel old then
        let n' := match l.what with | .segs g | .frame _ g => g.length | .page id => (match s.page? d id with | some p => p.segs.length | none => 0) | .chunk _ => 0
        (((s.modPfx d (fun x => { x with limbo := r })).reclaim d l.what).pmc d 0x18 1 n' none).reclaimRun d old n
      else s

/-- The epoch advances at a tick boundary, then limbo is reclaimed (R93). -/
def State.advanceEpoch (s : State) (d tick : Nat) : State :=
  let s := s.fset PFX_EPOCH_EPOCH d (tick % 2 ^ 32)
  s.reclaimRun d (s.oldest d) (s.pfx d).limbo.length

/-! ### Heat (R232) -/

/-- Present tick number of the partition that owns die `d`; 0 for a die in none. -/
def State.tickOf (s : State) (d : Nat) : Nat := match s.owner d with | some p => s.tickNo p | none => 0

/-- HEAT_TICK of now: bits [25:10] of the tick number (R216) (DEDUCED, log entry 43). -/
def State.heatTick (s : State) (d : Nat) : Nat := s.tickOf d / 1024 % 65536

/-- Effective heat of a page (R232). -/
def State.heat (s : State) (d : Nat) (p : Page) : Nat :=
  let half := max 1 (s.inForce STG_HEAT_HALF d)
  let a := (s.heatTick d + 65536 - p.place.heatTick) % 65536
  if 8 * half ≤ a then 0 else p.place.heat / 2 ^ (a / half)

/-- The first fetch of a page in a tick raises its heat (R232). -/
def State.heatUp (s : State) (d id : Nat) : State :=
  match s.page? d id with
  | none => s
  | some p =>
    if (s.stg d).heated.contains id then s
    else
      let h := min 255 (s.heat d p + s.inForce STG_HEAT_INC d)
      let t := s.heatTick d
      (s.modPage d id (fun p => { p with place := { p.place with heat := h, heatTick := t } })).modStg d
        (fun x => { x with heated := id :: x.heated })

/-! ### Lost pages (R211) -/

/-- Chunks whose PAGES list a page. -/
def State.chunksWith (s : State) (d id : Nat) : List Nat :=
  ((s.pfx d).chunks.filter (fun e => e.2.pages.contains id)).map (·.1)

/-- Slot of a chunk's entry in the tree. -/
def State.slotOfChunk (s : State) (d c : Nat) : Option Nat :=
  ((s.pfx d).tree.find? (fun e => e.2.chunk == c)).map (·.1)

/-- A page without a sound copy is lost (R211). -/
def State.losePage (s : State) (d id : Nat) : State :=
  match s.page? d id with
  | none => s
  | some p =>
    if p.st = .limbo then s
    else
      let s := s.modPage d id (fun p => { p with st := .suspect })
      let full := decide (65536 ≤ (s.pfx d).lost.length)
      let s := if full then s.evtDie ATM_EVENT_LOST_FULL d else s.modPfx d (fun x => { x with lost := insNat id x.lost })
      let s := (s.evtDie ATM_EVENT_LOST d).fadd ATM_LOSTPAGES_COUNT d 1
      let s := s.fsat ATM_LOST_COUNT d (s.pfx d).lost.length
      let s := (s.chunksWith d id).foldl (fun s c =>
        match s.slotOfChunk d c with | some k => (s.evictCascade d k).2 | none => s) s
      s.dieEvent d evPageLost (le 4 id ++ le 4 p.origin ++ le 4 p.posBase ++ le 1 p.layer ++ le 1 0 ++ le 2 p.ctx)

/-- Whether a page is on the lost-page list. -/
def State.isLost (s : State) (d id : Nat) : Bool := (s.pfx d).lost.contains id

/-! ### Replicas (R250) -/

/-- A replica entry freed, and RES.REPLICA cleared on its chunk's pages (R250). -/
def State.dropReplica (s : State) (d k : Nat) : State :=
  match tget (s.stg d).replicas k with
  | none => s
  | some r =>
    let pages := match s.chunk? d r.chunk with | some c => c.pages | none => []
    let s := (s.modStg d (fun x => { x with replicas := tdel x.replicas k })).giveSegs r.die r.segs
    let s := pages.foldl (fun s id => s.modPage d id (fun p =>
      if p.place.replicaIdx = k then { p with place := { p.place with replica := false, replicaIdx := 0 } } else p)) s
    (s.evtDie STG_EVENT_REPLICA_DROP d).fadd STG_REPLICA_DROPS_COUNT d 1

/-! ### Where a task reads its page from (R209, R241, R246, R250) -/

/-- Owned channels that are HOME and not fenced (R241). -/
def State.nOwn (s : State) (d : Nat) : Nat :=
  ((List.range 16).filter (fun c => (s.ftl d).chan c == .home && !s.fbitAt FTL_CH_FENCE_FENCED d c)).length

/-- Where a copy of a page stands: on flash, on another die of the partition, in a region of a peer, or nowhere. -/
inductive CopySrc where
  | flash
  | die (d : Nat)
  | fabric (key off : Nat)
  | none_
deriving DecidableEq, Repr

/-- The replica of a page. -/
def State.replicaSrc (s : State) (d : Nat) (p : Page) : CopySrc :=
  if !p.place.replica then .none_
  else
    match tget (s.stg d).replicas p.place.replicaIdx with
    | none => .none_
    | some r => if r.kind = 1 then .die r.die else .fabric r.key r.off

/-- The copy that a task reads: a rebuild that of its step; another task the flash copy, or the replica when there is none or
while the die owns no channel (R209, R241, R246). -/
def State.copySrc (s : State) (d : Nat) (t : StgTask) (p : Page) : CopySrc :=
  if t.prio = 1 then
    (if ((s.csm d).rebuilds.find? (fun x => x.1 == t.page)).any (fun x => x.2.1 == 3) then s.replicaSrc d p else .flash)
  else if p.place.flash && (s.nOwn d != 0 || !p.place.replica) then .flash
  else s.replicaSrc d p

/-- Location of the copy on the die's own channels that a task reads; 0 when it reads another one (R283). -/
def State.flashSrc (s : State) (d : Nat) (t : StgTask) (p : Page) : Nat :=
  if s.copySrc d t p == .flash && p.place.flashDie == 0 then p.place.flashObj else 0

/-- A task's remote read of a fabric replica: of the entry of the page table for its layer, or of the page image (R248, R250).
A port that is not READY, or a key that is not bound, ends it with NOT_READY. -/
def State.readReplica (s : State) (d : Nat) (t : StgTask) (key at_ n : Nat) (table : Bool) : State :=
  let s := s.modStg d (fun x =>
    { x with tasks := x.tasks.map (fun u => if u.page = t.page ∧ u.startT = t.startT then { u with sent := true } else u) })
  match (tget (s.nrt d).binds key).bind (fun i => (s.peer? d i).map (fun _ => i)) with
  | none => s.gotStaged d t.page t.startT stNOT_READY []
  | some i =>
    if s.nrtReady d then s.sendRead d i key at_ n none (.staged t.page t.startT table) .bulk
    else s.gotStaged d t.page t.startT stNOT_READY []

/-- The read of a task that has its frame begins when its copy is a fabric replica (R246 step 2, R250). -/
def State.startRead (s : State) (d page : Nat) : State :=
  match (s.stg d).tasks.find? (fun t => t.page == page && !t.segs.isEmpty && !t.sent), s.page? d page with
  | some t, some p =>
    match s.copySrc d t p with
    | .fabric key off => s.readReplica d t key (off + 576 + 8 * p.layer) 8 true
    | _ => s
  | _, _ => s

/-- A task reads another copy from now on. -/
def State.rereadTask (s : State) (d page : Nat) : State :=
  let at_ (u : StgTask) : Nat := match s.page? d page with | some p => s.flashSrc d u p | none => 0
  (s.modStg d (fun x =>
    { x with tasks := x.tasks.map (fun u =>
        if u.page = page then { u with sent := false, got := none, src := at_ u } else u) })).startRead d page

/-- What a task's read brought: of a fabric replica what its remote read did, none while it has not come (R250); of another
copy what the command says. -/
def State.readOf (s : State) (d : Nat) (t : StgTask) (p : Page) (read : CopyRead) : Option CopyRead :=
  match s.copySrc d t p with
  | .fabric _ _ =>
    t.got.map (fun x =>
      if x.1 = stOK then .bytes x.2 else if x.1 = stACCESS ∨ x.1 = stREVOKED then .refused else .failed)
  | .none_ => some .failed
  | _ => some read

/-! ### Staging tasks (R245, R246) -/

/-- Accepted hints not yet met, in deadline order. -/
def Staging.unmet (x : Staging) : List Hint := x.hints.filter (fun h => !h.met)

/-- Rank of a task in the order of R245: its priority, and among hints the accepted order (R243). -/
def Staging.rank (x : Staging) (t : StgTask) : Nat :=
  8192 * max 1 t.prio
    + (if t.prio = 3 then ((List.range x.unmet.length).zip x.unmet).foldr (fun h m => if h.2.pages.contains t.page then h.1 else m) 8191
       else 0)

/-- A task put behind those of its rank or a lower one. -/
def Staging.insTask (x : Staging) (t : StgTask) : List StgTask → List StgTask
  | [] => [t]
  | u :: r => if x.rank u ≤ x.rank t then u :: x.insTask t r else t :: u :: r

/-- The tasks in the order in which they are served: by rank, and within one in the order they were started (R245). -/
def Staging.ordered (x : Staging) : List StgTask := x.tasks.foldl (fun l t => x.insTask t l) []

/-- Hint staging runs one hint after another: a task of a hint begins when no earlier hint has one left (R243). -/
def Staging.hintTurn (x : Staging) (t : StgTask) : Bool :=
  t.prio != 3 || x.tasks.all (fun u => u.prio != 3 || decide (x.rank t ≤ x.rank u))

/-- The task that the flash serves: the first in order among those that have their frame and read a flash copy (R245) (DEDUCED, log entry 129). -/
def State.flashTask (s : State) (d : Nat) : Option StgTask :=
  (s.stg d).ordered.find? (fun t => !t.segs.isEmpty && (match s.page? d t.page with
    | some p => s.copySrc d t p == .flash
    | none => false))

/-- Whether it is a task's turn: tasks that read no flash wait for none, and no flash copy is read while staging stands
still (R288) (DEDUCED, log entry 129). -/
def State.turnOf (s : State) (d : Nat) (t : StgTask) (p : Page) : Bool :=
  s.copySrc d t p != .flash || (!(s.ftl d).stopped && match s.flashTask d with | some u => u.page == t.page && u.startT == t.startT | none => false)

/-- A frame taken outside every quota when the pool holds it (R209). -/
def State.poolFrame (s : State) (d n : Nat) : Option (List Nat × Nat × State) :=
  if s.freeSegs d < n + s.listNeed d then none
  else
    let (g, s) := s.takeList d
    let (l, s) := s.takeSegs d n
    some (l, g, s)

/-- Segments the frame of a page takes. -/
def State.frameSegs (s : State) (d : Nat) (p : Page) : Nat := max 1 (ceilDiv (s.storedBytes d p) 4096)

/-- A task tries to allocate its frame; one that cannot waits (R246 step 1). Quotas hold except for rebuilds (DEDUCED, log entry 129). -/
def State.allocTask (s : State) (d : Nat) (t : StgTask) : State :=
  if t.segs.isEmpty && (s.stg d).hintTurn t then
    match s.page? d t.page with
    | none => s
    | some p =>
      let n := s.frameSegs d p
      if p.st == .limbo then s
      else if t.prio != 1 && !s.quotaOk d p.ctx n then s
      else
        match s.poolFrame d n with
        | none => s.nomem d
        | some (l, g, s) =>
          (s.modStg d (fun x =>
            { x with tasks := x.tasks.map (fun u =>
                if u.page = t.page ∧ u.prio = t.prio then { u with segs := l, list := g, src := s.flashSrc d t p } else u) })).startRead d t.page
  else s

/-- A staging task for a page that is not resident, unless one already runs (R237). -/
def State.stageIn (s : State) (d id prio : Nat) : State :=
  match s.page? d id with
  | none => s
  | some p =>
    if p.place.hbm || (s.stg d).tasks.any (fun t => t.page == id) || s.isLost d id then s
    else
      let t : StgTask := ⟨id, prio, [], 0, s.clk.tNs, false, none, 0⟩
      let s := s.modStg d (fun x => { x with tasks := x.tasks ++ [t] })
      (s.modPage d id (fun p => { p with place := { p.place with staging := true } })).allocTask d t

/-- Waiting allocations retried, in the order of R245 (R246). -/
def State.retryTasks (s : State) (d : Nat) : State := (s.stg d).ordered.foldl (fun s t => s.allocTask d t) s

/-- The frame of a task released when it ends without use. -/
def State.endTask (s : State) (d id : Nat) : State :=
  match (s.stg d).tasks.find? (fun t => t.page == id) with
  | none => s
  | some t =>
    let s := s.modStg d (fun x => { x with tasks := x.tasks.filter (fun u => u.page != id) })
    let ctx := match s.page? d id with | some p => p.ctx | none => 0
    let s := s.modPage d id (fun p => { p with place := { p.place with staging := false } })
    (s.frameToLimbo d ctx t.segs).giveList d t.list

/-- A page made resident in the frame of its task (R246 step 4). -/
def State.makeResident (s : State) (d id : Nat) : State :=
  match (s.stg d).tasks.find? (fun t => t.page == id), s.page? d id with
  | some t, some p =>
    let h := max (s.heat d p) (s.inForce STG_HEAT_INC d)
    let tk := s.heatTick d
    let s := s.modStg d (fun x => { x with tasks := x.tasks.filter (fun u => u.page != id) })
    let s := (s.hist d 7 0 (s.clk.tNs - t.startT)).hbmWrite d p.bytes none
    s.modPage d id (fun p =>
      { p with
        segs := t.segs, list := t.list
        place := { p.place with hbm := true, staging := false, heat := h, heatTick := tk } })
  | _, _ => s

/-! ### Pins (R230) -/

/-- Pages of a sequence's current map in a layer range and a position range (R230, R239): chunks, then tail pages. -/
def State.rangePages (s : State) (d q layerFirst layers posFirst posCount : Nat) : List Nat :=
  match s.seqSlot? d q with
  | none => []
  | some (_, e) =>
    let inPos (base : Nat) : Bool := decide (posFirst < base + 128) && (posCount == 0 || decide (base < posFirst + posCount))
    let chunkPages := ((List.range e.body.chunks.length).zip e.body.chunks).flatMap (fun x =>
      if inPos (128 * x.1) then
        match s.chunk? d x.2 with
        | some c => (c.pages.drop layerFirst).take layers
        | none => []
      else [])
    let tails := ((e.tail.layers.drop layerFirst).take layers).flatMap (fun l =>
      (if l.full ≠ 0 ∧ inPos e.tail.base then [l.full] else [])
        ++ (if l.open_ ≠ 0 ∧ inPos (e.tail.base + if l.full ≠ 0 then 128 else 0) then [l.open_] else []))
    chunkPages ++ tails

def State.pinPages (s : State) (d : Nat) (p : Pin) : List Nat :=
  s.rangePages d p.seq p.layerFirst p.layers p.posFirst p.posCount

/-- FLAGS.PINNED recomputed on every page of a die, and pinned pages that are not resident staged in (R230). -/
def State.repin (s : State) (d : Nat) : State :=
  let l := ((s.stg d).pins.flatMap (fun e => s.pinPages d e.2)).eraseDups
  let s := s.modPfx d (fun x => { x with pages := tmap (fun id p => { p with pinned := l.contains id }) x.pages })
  l.foldl (fun s id => s.stageIn d id 2) s

/-- Pins looked at again after the map of a sequence changed (R230). -/
def State.repinSeq (s : State) (d q : Nat) : State :=
  if (s.stg d).pins.any (fun e => e.2.seq == q) then s.repin d else s

/-! ### Hints (R239 to R244) -/

/-- Pages that hints hold (R244). -/
def State.heldBy (s : State) (d id : Nat) : Bool := (s.stg d).hints.any (fun h => h.pages.contains id)

/-- RES.HELD recomputed for some pages. -/
def State.rehold (s : State) (d : Nat) (l : List Nat) : State :=
  l.foldl (fun s id =>
    let h := s.heldBy d id
    s.modPage d id (fun p => { p with place := { p.place with held := h } })) s

/-- Pages of a hint that are not resident and that no earlier unmet hint counts (R239). -/
def State.hintBytes (s : State) (d : Nat) (before : List Hint) (h : Hint) : Nat :=
  h.pages.foldl (fun n id =>
    match s.page? d id with
    | some p => if p.place.hbm || before.any (fun g => g.pages.contains id) then n else n + s.storedBytes d p
    | none => n) 0

/-- Unread bytes of a list of hints. -/
def State.bytesOf (s : State) (d : Nat) : List Hint → List Hint → List Nat
  | _, [] => []
  | before, h :: r => s.hintBytes d before h :: s.bytesOf d (before ++ [h]) r

/-- Unread bytes of accepted hints (STG_QUEUED). -/
def State.queued (s : State) (d : Nat) : Nat := sumNat (s.bytesOf d [] (s.stg d).unmet)

/-- A sequence met its pages: HINT_MET (R243). -/
def State.postMet (s : State) (d : Nat) (h : Hint) : State :=
  let t := s.tickOf d
  (s.fadd STG_HINTS_MET_COUNT d 1).dieEvent d evHintMet
    (le 4 h.tag ++ le 4 h.seq ++ le 4 h.deadline ++ le 1 (decide (h.deadline < t)).toNat)

/-- HINT_MISSED with its cause (R243). -/
def State.postMissed (s : State) (d : Nat) (h : Hint) (cause : Nat) : State :=
  let s := ((s.fadd STG_HINTS_MISSED_COUNT d 1).evtDie STG_EVENT_HINT_MISSED d)
  s.dieEvent d evHintMissed (le 4 h.tag ++ le 4 h.seq ++ le 4 (ceilDiv (s.hintBytes d [] h) 4096) ++ le 1 cause)

/-- STG_STATUS.HINTS refreshed. -/
def State.hintCount (s : State) (d : Nat) : State := s.fsat STG_STATUS_HINTS d (s.stg d).unmet.length

/-- A sequence made volatile: the class change is journaled and tail copies that are resident are released (R225). -/
def State.unpark (s : State) (d q : Nat) : State :=
  match s.seqSlot? d q with
  | none => s
  | some (k, e) =>
    if e.parked then
      let s := (s.journal d (s.nsOf d) (.seq q e.ctx false false)).2
      let s := s.setSlot d k { e with parked := false }
      let s := s.freeObj d 3 q
      e.tail.layers.foldl (fun s l =>
        [l.full, l.open_].foldl (fun s id =>
          match s.page? d id with
          | some p =>
            if p.place.hbm then s.freeFlash d id
            else s.modPage d id (fun p => { p with place := { p.place with durable := false } })
          | none => s) s) s
    else s

/-- Hints whose pages are all resident are met, the first first (R243); UNPARK follows. -/
def State.meetHints (s : State) (d : Nat) : List Hint → State
  | [] => s
  | h :: r =>
    let all := h.pages.all (fun id => match s.page? d id with | some p => p.place.hbm | none => true)
    if all && !h.met then
      let rel := max h.deadline (s.tickOf d) + h.hold
      let s := s.modStg d (fun x =>
        { x with hints := x.hints.map (fun g => if g = h then { g with met := true, release := rel } else g) })
      let s := (s.postMet d h).hintCount d
      (if h.unpark then s.unpark d h.seq else s).meetHints d r
    else s.meetHints d r

/-- Hints of a freed sequence end with HINT_MISSED (R243). -/
def State.freeHints (s : State) (d q : Nat) : State :=
  let l := (s.stg d).hints.filter (fun h => h.seq == q && !h.met)
  let s := l.foldl (fun s h => s.postMissed d h 1) s
  let s := s.modStg d (fun x => { x with hints := x.hints.filter (fun h => !(h.seq == q && !h.met)) })
  ((l.foldl (fun s h => s.rehold d h.pages) s)).hintCount d

/-! ### Release and spill (R233 to R236) -/

/-- Releasable (R233). -/
def State.releasable (s : State) (d : Nat) (p : Page) : Bool :=
  s.movable d p && (p.place.flash || p.place.replica)

/-- Order of release: effective heat, then older HEAT_TICK, then page ID (R234). -/
def State.colder (s : State) (d : Nat) (a b : Nat × Page) : Bool :=
  let ha := s.heat d a.2
  let hb := s.heat d b.2
  let aa := (s.heatTick d + 65536 - a.2.place.heatTick) % 65536
  let ab := (s.heatTick d + 65536 - b.2.place.heatTick) % 65536
  decide (ha < hb) || (ha == hb && (decide (ab < aa) || (aa == ab && decide (a.1 < b.1))))

/-- The coldest page that satisfies `ok`. -/
def State.coldest (s : State) (d : Nat) (ok : Page → Bool) : Option (Nat × Page) :=
  (s.pfx d).pages.foldl (fun b e =>
    if ok e.2 then
      match b with
      | none => some e
      | some x => if s.colder d e x then some e else some x
    else b) none

/-- Releases in order until `room` segments are free, those just sent to limbo included; `n` bounds the pages (R234). -/
def State.releaseTo (s : State) (d room : Nat) (extra : Nat) : Nat → Nat × State
  | 0 => (extra, s)
  | n + 1 =>
    if room ≤ s.freeSegs d + extra then (extra, s)
    else
      match s.coldest d (s.releasable d) with
      | none => (extra, s)
      | some (id, p) => (s.releaseFrame d id).releaseTo d room (extra + p.segs.length) n

/-- Whether a page may be spilled (R235). -/
def State.spillable (s : State) (d : Nat) (p : Page) : Bool :=
  s.movable d p && p.st == .sealed && !p.place.flash && decide (s.heat d p ≤ s.inForce STG_HEAT_COLD d)
    && !(s.ftl d).objs.any (fun o => o.kind == 1 && o.st == .programming && (match s.page? d o.obj with | some q => q == p | none => false))

/-- Whether a spill is being written. -/
def State.spilling (s : State) (d : Nat) : Bool :=
  (s.ftl d).objs.any (fun o => o.st == .programming && (match tget (s.ftl d).bands o.loc.band with
    | some b => b.kind == .spill
    | none => false))

/-- Spill writes started, coldest first, until they cover `need` segments; a refused one is skipped (R235). Answers whether one
is under way. -/
def State.spillRun (s : State) (d : Nat) (need : Nat) (started : Bool) (seen : List Nat) : Nat → Bool × State
  | 0 => (started, s)
  | n + 1 =>
    if need = 0 then (true, s)
    else
      match (s.pfx d).pages.foldl (fun b e =>
          if s.spillable d e.2 && !seen.contains e.1 then
            match b with
            | none => some e
            | some x => if s.colder d e x then some e else some x
          else b) (none : Option (Nat × Page)) with
      | none => (started, s)
      | some (id, p) =>
        let sec := sectorsOf (s.storedBytes d p)
        if !s.fbit FTL_STATUS_READY d || s.readOnly d || !s.flashOk d p.ctx sec [id] then
          (s.evtDie STG_EVENT_SPILL_REFUSED d).spillRun d need started (id :: seen) n
        else
          match s.writeObj d .spill 1 id (s.nsOf d) sec none (.page p) with
          | some (_, s) => s.spillRun d (need - p.segs.length) true (id :: seen) n
          | none => (s.evtDie STG_EVENT_SPILL_REFUSED d).spillRun d need started (id :: seen) n

/-- Pages of contexts above a lowered HBM_MAX released, coldest first (R228); `n` bounds the pages. -/
def State.overQuota (s : State) (d : Nat) (extra : List (Nat × Nat)) : Nat → State
  | 0 => s
  | n + 1 =>
    let excess (p : Page) : Bool :=
      match s.dieCtx? d p.ctx with
      | some c => c.hbmMax != 0 && decide (c.hbmMax + dget extra 0 p.ctx < s.charged d p.ctx)
      | none => false
    match s.coldest d (fun p => s.releasable d p && excess p) with
    | none => s
    | some (id, p) => (s.releaseFrame d id).overQuota d (dset extra 0 p.ctx (dget extra 0 p.ctx + p.segs.length)) n

/-- The check of the pool at a tick boundary (R234 to R236). -/
def State.poolCheck (s : State) (d : Nat) : State :=
  let low := s.inForce STG_POOL_LOW d * 1024
  let high := s.inForce STG_POOL_HIGH d * 1024
  let n := (s.pfx d).pages.length
  let s := s.overQuota d [] n
  let s := s.modStg d (fun x => { x with pinnedTick := false })
  if !s.fbit PFX_STATUS_READY d then s
  else if low ≤ s.freeSegs d then s.fset STG_STATUS_POOL_LOW d 0
  else
    let s := if s.fbit STG_STATUS_POOL_LOW d then s else (s.fset STG_STATUS_POOL_LOW d 1).evtDie STG_EVENT_POOL_LOW d
    let (extra, s) := if s.fbit STG_CTRL_RELEASE d then s.releaseTo d high 0 n else (0, s)
    let short := high - (s.freeSegs d + extra)
    let (spilled, s) := if short ≠ 0 && s.fbit STG_CTRL_SPILL d then s.spillRun d short (s.spilling d) [] n else (short == 0, s)
    if s.freeSegs d + extra < low && !spilled then
      let s := ((s.fadd STG_PINNED_TICKS d 1).evtDie STG_EVENT_PINNED d).modStg d (fun x => { x with pinnedTick := true })
      s.adaptPinned d 2 (s.fget STG_PINNED_TICKS d)
    else s

/-- Hints whose deadline tick begins with pages missing (R243). -/
def State.missHints (s : State) (d tick : Nat) : State :=
  let l := (s.stg d).hints.filter (fun h => !h.met && !h.missed && decide (h.deadline ≤ tick))
  let s := s.modStg d (fun x =>
    { x with hints := x.hints.map (fun h => if !h.met && decide (h.deadline ≤ tick) then { h with missed := true } else h) })
  l.foldl (fun s h => s.postMissed d h 0) s

end Sys2Proof.Machine
end

