-- ==== Sys2Proof/Machine/Plan.lean ====
section
/-!
DEFINITION. Sys2Proof/Machine/Plan.lean: what a sweep fetches and what it costs: masks and skips, plans, selection sets,
tiles and the estimate E (R105, R118, R126, R137 to R143, R158, R159, R161, R166, R173, R174, R178).
-/
namespace Sys2Proof.Machine

/-! ### A record under a descriptor -/

/-- Query heads of a context under its descriptor. -/
def Ctx.hq (c : Ctx) : Nat := c.desc.g * c.h

/-- Rows of a record (R114). -/
def StepRec.nRows (r : StepRec) (c : Ctx) : Nat := c.hq * r.qCount

/-- Bytes of one query row (R114). -/
def qRowBytes (c : Ctx) : Nat := if c.desc.qFmt = 0 then 2 * c.d else c.d + c.d / 32

/-- Query block bytes (R114, R175): a BACKWARD block holds three parts on 64-byte boundaries. -/
def StepRec.qBytes (r : StepRec) (c : Ctx) : Nat :=
  let q := r.nRows c * qRowBytes c
  if r.kind = 5 then roundUp 64 q + roundUp 64 (r.nRows c * 2 * c.d) + r.nRows c * 8 else q

/-- Working set of a record (R118, R174, R178). -/
def StepRec.workSet (r : StepRec) (c : Ctx) : Nat :=
  r.nRows c * ((if r.kind = 4 then 6 * c.w else 4 * c.d) + 8) + r.qBytes c

/-- Largest working set of a sweep, and most records in one (R118). -/
def workMax : Nat := 29360128
def recsMax : Nat := 4096

/-- Length of an inbox entry that a record's fields imply (R114, R115, R175, R381) (DEDUCED, log entry 20). -/
def StepRec.entryBytes (r : StepRec) (c : Ctx) : Nat :=
  if r.append then 64 + roundUp 64 (r.qBytes c) + roundUp 64 (4 * r.appendCount) + r.appendCount * c.posBytes
  else 64 + r.qBytes c

/-- Whether the mask in force is causal (R139). -/
def StepRec.causal (r : StepRec) (c : Ctx) : Bool :=
  if r.mask = 0 then c.desc.mask == 0 else r.mask == 1

/-- The window in force; none for no window (R113, R139). -/
def StepRec.windowIn (r : StepRec) (c : Ctx) : Option Nat :=
  let w := if r.window = 0 then c.desc.window else r.window
  if w = 0 ∨ r.window = 0xFFFFFFFF then none else some w

/-- Output format (0 FP32, 1 BF16) and statistics form (0 maximum and sum, 1 log-sum-exp) in force (R113). -/
def StepRec.outFmt (r : StepRec) (c : Ctx) : Nat := if r.out = 0 then c.desc.outFmt else r.out - 1
def StepRec.statFmt (r : StepRec) (c : Ctx) : Nat := if r.stats = 0 then c.desc.stats else r.stats - 1

/-- Effective K of a SELECTIVE record (R153). -/
def StepRec.effK (r : StepRec) (c : Ctx) : Nat := if r.extra = 0 then c.desc.kind.selK else r.extra

/-- Length of a snapshot (R80). -/
def Snap.len (n : Snap) : Nat := n.base + (if n.full ≠ 0 then 128 else 0) + n.fill

/-- Whether position `j` is admissible for a row at query position `q` (R139). -/
def StepRec.admits (r : StepRec) (c : Ctx) (len q j : Nat) : Bool :=
  decide (j < len) && decide (r.kvFirst ≤ j) && decide (j ≤ r.kvLast) && (!r.causal c || decide (j ≤ q))
    && (match r.windowIn c with | none => true | some w => decide (q < j + w))

/-- Whether a block of positions `b0` to `b1` is skipped for a record (R140). -/
def StepRec.skips (r : StepRec) (c : Ctx) (b0 b1 : Nat) : Bool :=
  let lo := max b0 r.kvFirst
  let lo := match r.windowIn c with | none => lo | some w => max lo (r.qPos + 1 - w)
  let hi := min b1 r.kvLast
  let hi := if r.causal c then min hi (r.qPos + r.qCount - 1) else hi
  decide (hi < lo)

/-! ### Blocks of a snapshot -/

/-- A block of a record's snapshot: page, token block, first position of the page, positions present, and whether it is
read raw from a tail or FULL page. -/
structure BlkRef where
  page : Nat
  blk : Nat
  posBase : Nat
  present : Nat
  tail : Bool
deriving DecidableEq, Repr

def BlkRef.b0 (b : BlkRef) : Nat := b.posBase + 16 * b.blk
def BlkRef.b1 (b : BlkRef) : Nat := b.b0 + b.present - 1

/-- Blocks of a tail page with `fill` positions. -/
def tailBlks (page posBase fill : Nat) : List BlkRef :=
  (List.range (ceilDiv fill 16)).map (fun k => ⟨page, k, posBase, min 16 (fill - 16 * k), true⟩)

/-- Blocks of a record's snapshot, in position order (R81). -/
def State.snapBlks (s : State) (d layer : Nat) (n : Snap) : List BlkRef :=
  let sealed := ((List.range n.chunks.length).zip n.chunks).flatMap (fun x =>
    match s.chunk? d x.2 with
    | some c => (List.range 8).map (fun k => (⟨c.pages.getD layer 0, k, 128 * x.1, 16, false⟩ : BlkRef))
    | none => [])
  let full := if n.full ≠ 0 then tailBlks n.full n.base 128 else []
  let opn := if n.open_ ≠ 0 then tailBlks n.open_ (if n.full ≠ 0 then n.base + 128 else n.base) n.fill else []
  sealed ++ full ++ opn

/-- Blocks a record does not skip (R140). -/
def State.recBlks (s : State) (d : Nat) (c : Ctx) (r : StepRec) (n : Snap) : List BlkRef :=
  (s.snapBlks d r.layer n).filter (fun b => !r.skips c b.b0 b.b1)

/-- Whether a page carries summary keys. -/
def State.hasSummary (s : State) (d page : Nat) : Bool := match s.page? d page with | some p => p.sumBytes != 0 | none => false

/-- The always set of a SELECTIVE record (R158). -/
def State.always (s : State) (d : Nat) (c : Ctx) (r : StepRec) (b : BlkRef) : Bool :=
  b.tail || !s.hasSummary d b.page || decide (b.b0 / 16 < c.desc.kind.selSink)
    || decide (r.kvLast < b.b1 + c.desc.kind.selRecent)

/-- Blocks a record surely fetches, and its candidates (R158). -/
def State.split (s : State) (d : Nat) (c : Ctx) (r : StepRec) (n : Snap) : List BlkRef × List BlkRef :=
  let l := s.recBlks d c r n
  if r.kind = 3 then (l.filter (s.always d c r), l.filter (fun b => !s.always d c r b)) else (l, [])

/-! ### Plans (R126, R141, R142) -/

/-- Bytes of a block, and whether it is coded (R142). -/
def State.blkSize (s : State) (d : Nat) (c : Ctx) (b : BlkRef) : Nat × Bool :=
  if b.tail then (b.present * c.posBytes, false)
  else
    match s.page? d b.page with
    | some p => match p.blks[b.blk]? with | some i => (i.bytes, !i.raw) | none => (0, false)
    | none => (0, false)

/-- Whether block `a` comes before `b` in plan order (R126) (DEDUCED, log entry 34). -/
def PlanBlk.before (a b : PlanBlk) : Bool :=
  decide (a.layer < b.layer) || (a.layer == b.layer && (decide (a.posBase < b.posBase) || (a.posBase == b.posBase
    && (decide (a.page < b.page) || (a.page == b.page && decide (a.blk < b.blk))))))

/-- A record's need of a block put into a plan: the block is listed once, with the largest fill (R142). -/
def addNeed (x : PlanBlk) : List PlanBlk → List PlanBlk
  | [] => [x]
  | y :: r =>
    if x.page = y.page ∧ x.blk = y.blk ∧ x.layer = y.layer then
      { y with need := y.need ++ x.need, present := max x.present y.present, bytes := max x.bytes y.bytes } :: r
    else if x.before y then x :: y :: r
    else y :: addNeed x r

/-- Block `b` as needed by record `i` for some heads. -/
def State.planBlk (s : State) (d : Nat) (c : Ctx) (i layer : Nat) (heads : List Nat) (b : BlkRef) : PlanBlk :=
  let z := s.blkSize d c b
  { layer := layer, page := b.page, blk := b.blk, posBase := b.posBase, present := b.present, bytes := z.1, coded := z.2,
    tail := b.tail, need := [(i, heads)], fetched := false, expanded := false, failed := false, atomizer := 0, tiles := [],
    committed := false, elems := none }

/-- Records with their snapshots, numbered. -/
def numbered {α : Type} (l : List α) : List (Nat × α) := (List.range l.length).zip l

/-- The plan of the blocks that records surely fetch (DEDUCED, log entry 34). -/
def State.planOf (s : State) (d : Nat) (c : Ctx) (recs : List (StepRec × Snap)) : List PlanBlk :=
  (numbered recs).foldl (fun pl x =>
    ((s.split d c x.2.1 x.2.2).1).foldl (fun pl b => addNeed (s.planBlk d c x.1 x.2.1.layer [] b) pl) pl) []

/-- The summary areas a sweep reads: one per page that holds a candidate of some record (R165). -/
def State.summaryPlan (s : State) (d : Nat) (c : Ctx) (recs : List (StepRec × Snap)) : List PlanBlk :=
  (numbered recs).foldl (fun pl x =>
    let pages := ((s.split d c x.2.1 x.2.2).2).foldl (fun (l : List BlkRef) b =>
      match l.getLast? with
      | some y => if y.page = b.page then l else l ++ [b]
      | none => [b]) []
    pages.foldl (fun pl b =>
      let sz := match s.page? d b.page with | some p => p.sumBytes | none => 0
      addNeed { s.planBlk d c x.1 x.2.1.layer [] { b with blk := 8 } with bytes := sz, coded := false, present := 8 } pl) pl) []

/-- Blocks of some record's snapshot, each once. -/
def State.allBlks (s : State) (d : Nat) (recs : List (StepRec × Snap)) : Nat :=
  ((recs.flatMap (fun x => (s.snapBlks d x.1.layer x.2).map (fun b => (b.page, b.blk)))).eraseDups).length

/-! ### Tiles (R105, R137, R173, R178) -/

/-- Which records share tiles: forward ones 0, BACKWARD without KV_GRAD 1, each with KV_GRAD its own. -/
def groupOf (i : Nat) (r : StepRec) : Nat := if r.kind ≠ 5 then 0 else if r.list then 2 + i else 1

/-- Rows of a record that need a block for a head: all rows for a latent context (R137, R173). -/
def recRows (c : Ctx) (r : StepRec) (head : Nat) : List Nat :=
  if c.latent then List.range (r.nRows c)
  else (List.range r.qCount).flatMap (fun i => (List.range c.desc.g).map (fun k => i * c.hq + head * c.desc.g + k))

/-- Heads of a context that tiles are made for. -/
def Ctx.tileHeads (c : Ctx) : Nat := if c.latent then 1 else c.h

/-- Query position of row `w` (R138). -/
def rowPos (c : Ctx) (r : StepRec) (w : Nat) : Nat := r.qPos + w / max 1 c.hq

/-- Whether a row takes part in the tiles of a block: a row of a SELECTIVE record only where it has an admissible position
(R161), a row of another record wherever the record does not skip the block (R141). -/
def PlanBlk.rowIn (b : PlanBlk) (c : Ctx) (x : StepRec × Snap) (w : Nat) : Bool :=
  x.1.kind != 3 || b.blk == 8
    || (List.range b.present).any (fun k => x.1.admits c x.2.len (rowPos c x.1 w) (b.posBase + 16 * b.blk + k))

/-- Rows of a tile class (head, group) of a block, as (record, row), in admission order. -/
def PlanBlk.rowsFor (b : PlanBlk) (c : Ctx) (recs : List (StepRec × Snap)) (head group : Nat) : List (Nat × Nat) :=
  b.need.flatMap (fun x =>
    match recs[x.1]? with
    | some r =>
      if groupOf x.1 r.1 = group ∧ (x.2 = [] ∨ head ∈ x.2) then ((recRows c r.1 head).filter (b.rowIn c r)).map (fun w => (x.1, w))
      else []
    | none => [])

/-- Rows of tile `n` of a class (DESIGN CHOICE, log entry 114). -/
def PlanBlk.tileRows (b : PlanBlk) (c : Ctx) (recs : List (StepRec × Snap)) (head group n : Nat) : List (Nat × Nat) :=
  ((b.rowsFor c recs head group).drop (256 * n)).take 256

/-- Code of a tile: head, group and number within them. -/
def tileCode (head group n : Nat) : Nat := head * 2 ^ 32 + group * 2 ^ 12 + n

/-- Groups of the records that need a block. -/
def PlanBlk.groups (b : PlanBlk) (recs : List (StepRec × Snap)) : List Nat :=
  (b.need.filterMap (fun x => (recs[x.1]?).map (fun r => groupOf x.1 r.1))).eraseDups

/-- Tiles of a block: head, group, number and rows. -/
def PlanBlk.tileList (b : PlanBlk) (c : Ctx) (recs : List (StepRec × Snap)) : List (Nat × Nat × Nat × Nat) :=
  (List.range c.tileHeads).flatMap (fun h => (b.groups recs).flatMap (fun g =>
    let n := (b.rowsFor c recs h g).length
    (List.range (ceilDiv n 256)).map (fun k => (h, g, k, min 256 (n - 256 * k)))))

/-- Whether the score product runs in FP8 mode, and the value product (R106). -/
def fp8Score (c : Ctx) (tail : Bool) : Bool :=
  !tail && isMX (c.format % 16) && (c.desc.qFmt != 0 || c.desc.qQuant != 0)
def fp8Value (c : Ctx) (tail : Bool) : Bool :=
  !tail && isMX (if c.latent then c.format % 16 else c.format / 16) && c.desc.pFmt == 0

/-- Cycles of one product on one pane (R105). -/
def prodCycles (fp8 : Bool) (macs : Nat) : Nat := ceilDiv ((if fp8 then 1 else 4) * macs) 65536

/-- Cycles of a tile of `rows` rows on a block (R105, R159, R173, R178). -/
def tileCycles (c : Ctx) (b : PlanBlk) (group rows : Nat) : Nat :=
  let macs := if c.latent then rows * 16 * c.w else rows * b.present * c.d
  if b.blk = 8 then prodCycles false macs
  else if group = 0 then prodCycles (fp8Score c b.tail) macs + prodCycles (fp8Value c b.tail) macs
  else if group = 1 then 3 * prodCycles false macs
  else 5 * prodCycles false macs

/-- Cycles of all tiles of a block. -/
def PlanBlk.cycles (b : PlanBlk) (c : Ctx) (recs : List (StepRec × Snap)) : Nat :=
  sumNat ((b.tileList c recs).map (fun t => tileCycles c b t.2.1 t.2.2.2))

/-! ### The estimate (R142, R143, R166, R174, R178)

Sums are exact, in units of 1/2359296 CA cycle, which every term divides. -/

/-- Units in a CA cycle (DEDUCED, log entry 90). -/
def cyc : Nat := 2359296

def bitCount (n k : Nat) : Nat := ((List.range n).filter (fun i => k.testBit i)).length

/-- Active panes and atomizers of a die, at least 1 each for the quotients. -/
def State.nPane (s : State) (d : Nat) : Nat := max 1 (bitCount 4 (s.fget CSM_STATUS_PANE_ACT d))
def State.nAtm (s : State) (d : Nat) : Nat := max 1 (bitCount 4 (s.fget CSM_STATUS_ATM_ACT d))

/-- The term of a block: max(a, m), with g for a BACKWARD record that adds gradients (DEDUCED, log entry 90). -/
def State.blkCost (s : State) (d : Nat) (c : Ctx) (recs : List (StepRec × Snap)) (b : PlanBlk) : Nat :=
  let a := b.bytes * (cyc / ((if b.coded then 1536 else 2048) * s.nAtm d))
  let m := b.cycles c recs * (cyc / s.nPane d)
  let g := if (b.groups recs).any (fun g => decide (2 ≤ g)) then 2 * b.present * c.h * 8 * c.d * (cyc / 4096) else 0
  max a (max m g)

/-- The kept-block term of one SELECTIVE record (R166). -/
def State.keptCost (s : State) (d : Nat) (c : Ctx) (r : StepRec) (cand : List BlkRef) : Nat :=
  let pages := (cand.map (·.page)).eraseDups
  let amax := pages.foldl (fun m id =>
    match s.page? d id with
    | some p =>
      let i := slowest p.blks
      match p.blks[i]? with
      | some x => max m (x.bytes * (cyc / ((if x.raw then 2048 else 1536) * s.nAtm d)))
      | none => m
    | none => m) 0
  let hk := c.h * r.effK c
  let macs := c.desc.g * r.qCount * 16 * c.d
  let m1 := (prodCycles (fp8Score c false) macs + prodCycles (fp8Value c false) macs) * (cyc / s.nPane d)
  max (min hk cand.length * amax) (hk * m1)

/-- Whether the query projection of a LATENT record runs in FP8 mode (R171). -/
def fp8Proj (c : Ctx) (r : StepRec) : Bool :=
  (match tget c.weights r.layer with | some w => w.fmt == 1 | none => false) && (c.desc.qFmt != 0 || c.desc.qQuant != 0)

/-- Projection terms of a LATENT record (R174). -/
def State.projCost (s : State) (d : Nat) (c : Ctx) (r : StepRec) : Nat :=
  r.nRows c * c.w * c.d * ((if fp8Proj c r then 1 else 4) + 4) * (36 / s.nPane d)

/-- E of a candidate run (R142, R166, R174, R178) (DEDUCED, log entry 90). -/
def State.estimate (s : State) (d : Nat) (c : Ctx) (recs : List (StepRec × Snap)) : Nat :=
  let rs := recs.map (·.1)
  let blocks := sumNat ((s.planOf d c recs).map (s.blkCost d c recs))
  let sums := s.summaryPlan d c recs
  let sel := if rs.any (fun r => r.kind == 3) then
      sumNat (sums.map (s.blkCost d c recs)) + 128 * cyc
        + sumNat ((recs.filter (fun x => x.1.kind == 3)).map (fun x => s.keptCost d c x.1 (s.split d c x.1 x.2).2))
    else 0
  let proj := sumNat ((rs.filter (fun r => r.kind == 4)).map (s.projCost d c))
  let q := sumNat (rs.map (fun r => r.qBytes c)) * (cyc / 512)
  let o := sumNat (rs.map (fun r => r.nRows c * c.d)) * (cyc / 4096)
  ceilDiv ((s.inForce CSM_EST_CFG_SETUP d + s.inForce CSM_EST_CFG_EMIT d) * cyc + q + blocks + sel + proj + o) cyc

/-- The remaining estimate of a sweep on the Casement (R143). -/
def State.remaining (s : State) (d : Nat) (w : Sweep) : Nat :=
  let c := w.shape
  let all := w.recs.map (fun r => (r.held.step, r.snap))
  let left := w.recs.filter (fun r => !r.finalised)
  let pairs := left.map (fun r => (r.held.step, r.snap))
  let blocks := if w.planned then w.blocks.filter (fun b => !b.committed) else s.planOf d c all
  let sums := if w.planned then w.summaries.filter (fun b => !b.committed) else s.summaryPlan d c all
  let b := sumNat (blocks.map (s.blkCost d c all))
  let sel := if w.selDone || !all.any (fun r => r.1.kind == 3) then 0
    else sumNat (sums.map (s.blkCost d c all)) + 128 * cyc
      + sumNat ((pairs.filter (fun x => x.1.kind == 3)).map (fun x => s.keptCost d c x.1 (s.split d c x.1 x.2).2))
  let proj := sumNat ((left.filter (fun r => r.held.step.kind == 4)).map (fun r => s.projCost d c r.held.step))
  let o := sumNat (left.map (fun r => r.held.step.nRows c * c.d)) * (cyc / 4096)
  ceilDiv (s.inForce CSM_EST_CFG_EMIT d * cyc + b + sel + proj + o) cyc

/-- The scaled estimate ceil(σ × E) (R37). -/
def State.scaleEst (s : State) (p e : Nat) : Nat := ceilDiv (s.fget TIK_SCALE_NOW_SCALE p * e) 4096

end Sys2Proof.Machine
end

