-- ==== Sys2Proof/Machine/Arith.lean ====
section
/-!
DEFINITION. Sys2Proof/Machine/Arith.lean: the arithmetic of a row: query operands, scores, the forward and backward row
updates, selection, finalisation and gradients (R127 to R134, R159 to R163, R171, R172, R176, R177, R180).
-/
namespace Sys2Proof.Machine

/-! ### Constants -/

/-- LOG2E of R129. -/
def log2e : Num := dec32 0x3FB8AA3B

/-- 1/√D rounded RNE to FP32 (R111). -/
def invSqrt (d : Nat) : Num :=
  let q := Nat.sqrt (2 ^ 160 / d)
  let st := if q * q * d = 2 ^ 160 then 0 else 1
  r32 (.fin false (2 * q + st) (-81))

/-- The softmax scale in force. -/
def Ctx.scale (c : Ctx) : Num := if c.desc.scale = 0 then invSqrt c.d else dec32 c.desc.scale

/-- A word of a value and minus infinity. -/
def negInf : Nat := 0xFF800000

/-! ### Query operands (R127, R171) -/

/-- Values of a query row as it arrived: BF16, or MXFP8 widened exactly. -/
def qArrived (c : Ctx) (p : Pos) : List Num :=
  if c.desc.qFmt = 0 then rowValues 8 p else rowValues c.desc.qFmt p

/-- A list of values quantised to MXFP8 (R127). -/
def qQuantised (code : Nat) (l : List Num) : List Num := rowValues code (quantRow code l)

/-- The score operand of a row against keys stored in an MX format (`mx`) or in 16 bits (R106, R127). -/
def qOperand (c : Ctx) (mx : Bool) (p : Pos) : List Num :=
  let v := qArrived c p
  if mx && c.desc.qFmt == 0 && c.desc.qQuant != 0 then qQuantised c.desc.qQuant v else v

/-- The projection of a LATENT row (R171): qL, then its score operand against sealed pages in an MX format or others. -/
def qLatent (c : Ctx) (w : Weights) (head : Nat) (mx : Bool) (p : Pos) : List Num :=
  let fp8 := w.fmt == 1 && (c.desc.qFmt != 0 || c.desc.qQuant != 0)
  let q := qOperand c fp8 p
  let uk := w.uk.getD head []
  let ql := uk.map (fun row => dot32 (rowValues w.fmt row) q)
  if mx && c.desc.qQuant != 0 then qQuantised c.desc.qQuant ql else ql.map fmtBF16.round

/-- The score of an operand against a key (R128). -/
def score (c : Ctx) (q k : List Num) : Num := mul32 (dot32 q k) c.scale

/-! ### The forward row update (R129 to R131) -/

/-- The weight operand of p (R131). -/
def weightOf (c : Ctx) (p : Num) : Num :=
  if c.desc.pFmt = 1 then fmtBF16.round p
  else
    match p with
    | .nan => .nan
    | p => (fmtE4M3.sat (p.mul (.fin false 1 8))).mul (.fin false 1 (-8))

/-- A row's state before its first block (R129): m = −∞, l = 0, acc = 0. -/
def Row.fresh (n : Nat) : Row := ⟨negInf, 0, List.replicate n 0, false⟩

/-- The update of a row with a block: `ps` are the admissible positions' keys and values (R129). -/
def Row.update (c : Ctx) (q : List Num) (x : Row) (ps : List (List Num × List Num)) : Row :=
  if ps.isEmpty then x
  else
    let ss := ps.map (fun p => score c q p.1)
    let bmax := ss.foldl Num.max (.inf true)
    let m := dec32 x.m
    let mn := Num.max m bmax
    let alpha := if m = .inf true then Num.zero else exp2 (mul32 (sub32 m mn) log2e)
    let ws := ss.map (fun s => weightOf c (exp2 (mul32 (sub32 s mn) log2e)))
    let bsum := r32 (Num.sum ws)
    let accNew := ((List.range x.acc.length).zip x.acc).map (fun e =>
      let b := r32 (Num.sum ((ws.zip ps).map (fun y => y.1.mul (y.2.2.getD e.1 .zero))))
      enc32 (add32 (mul32 (dec32 e.2) alpha) b))
    { m := enc32 mn, l := enc32 (add32 (mul32 (dec32 x.l) alpha) bsum), acc := accNew, seen := true }

/-! ### Positions of a block -/

/-- Admissible positions of a block for a row at query position `q`, as (position in the page, position). -/
def admissible (c : Ctx) (r : StepRec) (n : Snap) (b : PlanBlk) (q : Nat) : List Nat :=
  ((List.range b.present).map (fun k => 16 * b.blk + k)).filter (fun k => r.admits c n.len q (b.posBase + k))

/-- Stored key and value of head `h` at a position of a page: a tail page keeps the tail format. -/
def State.kvAt (s : State) (d : Nat) (c : Ctx) (b : PlanBlk) (head k : Nat) : List Num × List Num :=
  match s.page? d b.page with
  | none => ([], [])
  | some p =>
    let x := match b.elems with
      | some l => l.getD (k % 16) ⟨[], []⟩
      | none => p.pos.getD k ⟨[], []⟩
    let fmt := if b.tail then c.tailFmt * 17 else p.format
    (keyOf c.latent c.h c.d fmt head x, valOf c.latent c.h c.d fmt head x)

/-- Whether the stored keys of a block are in an MX format. -/
def keysMX (c : Ctx) (b : PlanBlk) : Bool := !b.tail && isMX (c.format % 16)

/-- Query operand of row `w` of a record for a block. -/
def rowOperand (c : Ctx) (r : StepRec) (b : PlanBlk) (w : Nat) : List Num :=
  let p := r.rows.getD w ⟨[], []⟩
  if c.latent then
    match tget c.weights r.layer with
    | some ws => qLatent c ws (w % c.hq) (keysMX c b) p
    | none => []
  else qOperand c (keysMX c b) p

/-- Key/value head of row `w` (R137). -/
def rowHead (c : Ctx) (w : Nat) : Nat := if c.latent then 0 else w % max 1 c.hq / max 1 c.desc.g

/-- A forward row updated with a block (R129). -/
def State.rowForward (s : State) (d : Nat) (c : Ctx) (r : StepRec) (n : Snap) (b : PlanBlk) (w : Nat) (x : Row) : Row :=
  let ks := admissible c r n b (rowPos c r w)
  x.update c (rowOperand c r b w) (ks.map (fun k => s.kvAt d c b (rowHead c w) k))

/-! ### Backward rows (R176, R177, R180) -/

/-- p, ds rounded to BF16, and p rounded to BF16, of a backward row against one position (R176). -/
def State.bwdTerm (s : State) (d : Nat) (c : Ctx) (r : StepRec) (b : PlanBlk) (w k : Nat) : Num × Num :=
  let kv := s.kvAt d c b (rowHead c w) k
  let sc := score c (rowOperand c r b w) kv.1
  let st := r.rowStats.getD w (0, 0)
  let dO := (r.dOut.getD w []).map fmtBF16.decode
  let a := mul32 (sub32 sc (dec32 st.1)) log2e
  let arg := if a.isNaN then a else if Num.zero.lt a then Num.zero else a
  let p := exp2 arg
  let dp := dot32 dO kv.2
  let ds := mul32 p (sub32 dp (dec32 st.2))
  (fmtBF16.round ds, fmtBF16.round p)

/-- A backward row updated with a block: dq gains (R176). -/
def State.rowBackward (s : State) (d : Nat) (c : Ctx) (r : StepRec) (n : Snap) (b : PlanBlk) (w : Nat) (x : Row) : Row :=
  let ks := admissible c r n b (rowPos c r w)
  if ks.isEmpty then x
  else
    let ts := ks.map (fun k => ((s.bwdTerm d c r b w k).1, (s.kvAt d c b (rowHead c w) k).1))
    { x with
      seen := true
      acc := ((List.range x.acc.length).zip x.acc).map (fun e =>
        enc32 (add32 (dec32 e.2) (r32 (Num.sum (ts.map (fun t => t.1.mul (t.2.getD e.1 .zero))))))) }

/-- Groups of 32 rows added in order, each exactly and rounded once (R180). -/
def groupSum (l : List Num) : Num := (by32 l).foldl (fun a g => add32 a (r32 (Num.sum g))) .zero

/-- Gradient entries that a record adds for one head of a block: (key of the entry's element, value to add) (R179, R180). -/
def State.gradTerms (s : State) (d : Nat) (c : Ctx) (r : StepRec) (n : Snap) (b : PlanBlk) (head : Nat) (g : Grad) :
    List (Nat × Num) :=
  let rows := recRows c r head
  (List.range b.present).flatMap (fun i =>
    let k := 16 * b.blk + i
    let j := b.posBase + k
    let live := rows.filter (fun w => r.admits c n.len (rowPos c r w) j)
    if live.isEmpty ∨ j < g.posFirst ∨ g.posFirst + g.positions ≤ j then []
    else
      let base := ((r.layer - g.layerFirst) * g.positions + (j - g.posFirst)) * 2 * c.h * c.d
      -- a row for which the position is not admissible keeps its place in its group and adds nothing (R176)
      let ts := rows.map (fun w => if live.contains w then
          some (s.bwdTerm d c r b w k, qArrived c (r.rows.getD w ⟨[], []⟩), (r.dOut.getD w []).map fmtBF16.decode)
        else none)
      (List.range c.d).flatMap (fun e =>
        let dk := groupSum (ts.map (fun y => match y with | some (t, q, _) => t.1.mul (q.getD e .zero) | none => .zero))
        let dv := groupSum (ts.map (fun y => match y with | some (t, _, o) => t.2.mul (o.getD e .zero) | none => .zero))
        [(base + head * c.d + e, mul32 dk c.scale), (base + c.h * c.d + head * c.d + e, dv)]))

/-- Terms added to a region's entries (R180); an entry that becomes +0 is not listed. -/
def addGrad (g : Grad) (l : List (Nat × Num)) : Grad :=
  { g with entries := l.foldl (fun t e => dset t 0 e.1 (enc32 (add32 (dec32 (dget t 0 e.1)) e.2))) g.entries }

/-! ### Selection (R159, R160) -/

/-- The summary score of a candidate for a head, by the summary areas as released (R159). -/
def State.sumScore (s : State) (d : Nat) (c : Ctx) (r : StepRec) (sums : List PlanBlk) (head : Nat) (b : BlkRef) : Num :=
  match s.page? d b.page with
  | none => .nan
  | some p =>
    let key := match (sums.find? (fun x => x.page == b.page)).bind (·.elems) with
      | some l => (l.getD (b.blk * c.h + head) ⟨[], []⟩).codes.map fmtBF16.decode
      | none => summaryKey c.h c.d p.format head b.blk p.pos
    ((recRows c r head).map (fun w => score c (qArrived c (r.rows.getD w ⟨[], []⟩)) key)).foldl
      (fun a x => match a with
        | none => some x
        | some y => some (y.max x)) (none : Option Num) |>.getD .nan

/-- Whether score `a` of block `x` ranks above score `b` of block `y` (R160). -/
def ranks (a : Num) (x : Nat) (b : Num) (y : Nat) : Bool :=
  if a.isNaN && b.isNaN then decide (y < x)
  else if a.isNaN then false
  else if b.isNaN then true
  else if b.lt a then true
  else if a.lt b then false
  else decide (y < x)

/-- A candidate put in its place among those ranked. -/
def insRank (e : Num × Nat) : List (Num × Nat) → List (Num × Nat)
  | [] => [e]
  | f :: r => if ranks e.1 e.2 f.1 f.2 then e :: f :: r else f :: insRank e r

/-- The kept blocks of each head, block numbers in rank order (R160). -/
def State.select (s : State) (d : Nat) (c : Ctx) (r : StepRec) (sums : List PlanBlk) (cand : List BlkRef) : List (List Nat) :=
  (List.range c.h).map (fun h =>
    ((cand.map (fun b => (s.sumScore d c r sums h b, b.b0 / 16))).foldl (fun l e => insRank e l) []).map (·.2)
      |>.take (r.effK c))

/-! ### Finalisation (R119, R132, R133, R163, R172, R177) -/

/-- Bytes of an output element. -/
def outBytes (fmt : Nat) (v : Num) : List Byte := if fmt = 1 then le 2 (fmtBF16.encode v) else le 4 (enc32 v)

/-- Output elements of a row (R132, R133, R172, R177). -/
def rowOutput (c : Ctx) (r : StepRec) (w : Nat) (x : Row) : List Num :=
  let fmt := r.outFmt c
  let rnd (v : Num) : Num := if fmt = 1 then fmtBF16.round v else v
  if !x.seen then List.replicate c.d .zero
  else if r.kind = 5 then x.acc.map (fun a => mul32 c.scale (dec32 a))
  else if c.latent then
    match tget c.weights r.layer with
    | none => []
    | some ws =>
      let ol := x.acc.map (fun a => fmtBF16.round (div32 (dec32 a) (dec32 x.l)))
      (ws.uv.getD (w % max 1 c.hq) []).map (fun row => rnd (dot32 (rowValues ws.fmt row) ol))
  else x.acc.map (fun a => rnd (div32 (dec32 a) (dec32 x.l)))

/-- Statistics of a row, as FP32 values (R132, R133). -/
def rowStat (c : Ctx) (r : StepRec) (x : Row) : List Num :=
  if r.kind = 5 then []
  else if r.statFmt c = 0 then [dec32 x.m, dec32 x.l]
  else [if x.seen then logSumExp (dec32 x.m) (dec32 x.l) else .inf true]

/-- The selection list of a record (R163). -/
def selList (c : Ctx) (r : StepRec) (sel : List (List Nat)) : List Byte :=
  (List.range c.h).flatMap (fun h =>
    let l := sel.getD h []
    l.flatMap (le 4) ++ (List.replicate (r.effK c - l.length) (le 4 0xFFFFFFFF)).flatten)

/-- The output block of a record, and its NONFINITE and EMPTY_ROW flags (R119, R120, R134). -/
def outBlock (c : Ctx) (r : StepRec) (rows : List Row) (sel : List (List Nat)) : List Byte × Bool × Bool :=
  let xs := numbered rows
  let outs := xs.map (fun x => rowOutput c r x.1 x.2)
  let stats := xs.map (fun x => rowStat c r x.2)
  let bad := (outs.any (fun l => l.any (fun v => !v.finite)))
    || ((xs.zip stats).any (fun y => y.1.2.seen && y.2.any (fun v => !v.finite)))
  let fmt := if r.kind = 5 then 0 else r.outFmt c
  let bytes := outs.flatMap (fun l => l.flatMap (outBytes fmt)) ++ stats.flatMap (fun l => l.flatMap (fun v => le 4 (enc32 v)))
    ++ (if r.kind = 3 && r.list then selList c r sel else [])
  (bytes, bad, rows.any (fun x => !x.seen))

end Sys2Proof.Machine
end

