-- ==== Sys2Proof/Machine/Edits.lean ====
section
/-!
DEFINITION. Sys2Proof/Machine/Edits.lean: sealing, chunk completion and the map edits (R74 to R78, R82, R94 to R98, R596,
R597), and the structures' placement (R103).
-/
namespace Sys2Proof.Machine

/-- How an edit ends otherwise than with its effect: a status and a state that is the one before it but for events, or
pages it must wait for (R597). -/
inductive EditStop where
  | fail (st : Nat) (s : State)
  | wait (pages : List Nat)

/-- What an edit that succeeds answers: the state, its result words, and the pages it created or changed (R220). -/
structure EditOk where
  s : State
  r0 : Nat
  r1 : Nat
  pages : List Nat

/-- An allocation of an edit, `s0` the state before the edit (R64). -/
def liftAlloc {α : Type} (s0 : State) (d : Nat) : Except AllocFail α → Except EditStop α
  | .ok a => .ok a
  | .error .quota => .error (.fail stQUOTA s0)
  | .error .nomem => .error (.fail stNOT_READY (s0.nomem d))

/-- The quota of everything an edit allocates for its context, before any of it (R64) (DEDUCED, log entry 108). -/
def State.quotaFirst (s0 : State) (d c n : Nat) : Except EditStop Unit :=
  if s0.quotaOk d c n then .ok () else .error (.fail stQUOTA s0)

/-- Whether the pages an edit must read can be read (R208, R211, R597). -/
def State.mustRead (s : State) (d : Nat) (l : List Nat) : Except EditStop Unit :=
  if l.any (s.isLost d) then .error (.fail stLOST s)
  else if l.any (fun id => match s.page? d id with | some p => p.st == .suspect | none => false) then
    .error (.fail stNOT_READY s)
  else
    let away := l.filter (fun id => match s.page? d id with | some p => !p.place.hbm | none => false)
    if away.isEmpty then .ok ()
    else if s.fbit STG_CTRL_DEMAND d then .error (.wait away)
    else .error (.fail stNOT_READY s)

/-! ### Pages, tails and sealing (R63, R77) -/

/-- Segments of a tail page of `n` positions (R63). -/
def tailFrame (c : Ctx) (n : Nat) : Nat := if n = 0 then 0 else ceilDiv (16 * ceilDiv n 16 * c.posBytes) 4096

/-- A tail page record. -/
def newTail (c : Ctx) (ctx layer posBase origin : Nat) (pos : List Pos) : Page :=
  { st := if pos.length = 128 then .full else .open_, format := c.tailFmt * 17, layer := layer, raw := false, pinned := false,
    fill := pos.length, segs := [], list := 0, refs := 0, rel := 0, bytes := pos.length * c.posBytes, posBase := posBase,
    origin := origin, ctx := ctx, place := Place.init, pos := pos, blks := [], sumBytes := 0, sealedAt := 0, stored := none }

/-- Whether pages sealed now in a context carry summary keys (R156). -/
def Ctx.summarises (c : Ctx) : Bool := !c.latent && !c.desc.kind.noSummary

/-- What sealing positions already in their sealed form gives: stored bytes, blocks and summary bytes (R187, R196). -/
def sealedShape (c : Ctx) (pos : List Pos) : Nat × List BlkInfo × Nat :=
  let sum := if c.summarises then 16 * c.h * c.d else 0
  let k := codePage c.latent c.h c.d c.w c.format pos
  (k.length sum, k.blks, sum)

/-- Positions of a FULL page converted to the sealed formats, saturated elements and groups of scale 0xFF (R195). -/
def sealConvert (c : Ctx) (pos : List Pos) : List Pos × Nat × Nat :=
  let cs := pos.map (sealPos c.latent c.h c.d c.format c.tailFmt)
  (cs.map (·.pos), sumNat (cs.map (·.sat)), sumNat (cs.map (·.nan)))

/-- The counts of a seal (R214). -/
def State.countSeal (s : State) (d raw sat nan : Nat) : State :=
  let s := (s.fadd ATM_SEALS_COUNT d 1).fadd ATM_SEAL_RAW_COUNT d raw
  (s.fadd ATM_SEAL_SAT_COUNT d sat).fadd ATM_SEAL_NAN_COUNT d nan

/-- A page record in state SEALING or SEALED for converted positions; its `rel` holds the epoch of the wicket task. -/
def sealedPage (c : Ctx) (ctx layer posBase origin epoch tick : Nat) (st : PageSt) (pos : List Pos) : Page :=
  let sh := sealedShape c pos
  { st := st, format := c.format, layer := layer, raw := sh.2.1.any (·.raw), pinned := false, fill := 128, segs := [],
    list := 0, refs := 0, rel := epoch, bytes := sh.1, posBase := posBase, origin := origin, ctx := ctx,
    place := Place.init, pos := pos, blks := sh.2.1, sumBytes := sh.2.2, sealedAt := tick, stored := none }

/-- A layer entry of a sequence's tail changed. -/
def State.modLayer (s : State) (d slot l : Nat) (f : LayerEnt → LayerEnt) : State :=
  match tget (s.pfx d).index slot with
  | none => s
  | some e =>
    s.setSlot d slot { e with tail := { e.tail with
      layers := ((List.range e.tail.layers.length).zip e.tail.layers).map (fun x => if x.1 = l then f x.2 else x.2) } }

/-- The seal of a layer's FULL page started: a page in state SEALING is allocated and the wicket task opens a holder; one
that cannot allocate waits (R65, R77, R92) (DESIGN CHOICE, log entry 100). -/
def State.startSeal (s : State) (d slot l : Nat) : State :=
  match tget (s.pfx d).index slot with
  | none => s
  | some e =>
    let le := e.tail.layers.getD l LayerEnt.init
    match s.page? d le.full, s.dieCtx? d e.ctx with
    | some p, some c =>
      if le.sealed ≠ 0 ∨ le.full = 0 then s
      else
        let conv := sealConvert c p.pos
        let pg := sealedPage c e.ctx l p.posBase 0 (s.epoch d) 0 .sealing conv.1
        let wait (s : State) : State := s.modPfx d (fun x => { x with sealWait := insNat le.full x.sealWait })
        if !p.place.hbm then wait s
        else
        match s.newPage d (ceilDiv pg.bytes 4096) pg with
        | .error _ => wait s
        | .ok (id, s) =>
          let s := s.modPfx d (fun x => { x with sealWait := x.sealWait.filter (· != le.full) })
          (s.openHolder d).modLayer d slot l (fun x => { x with sealed := id })
    | _, _ => s

/-- Seals of every layer of a sequence that holds a FULL page without one (R77, R78 step 5). -/
def State.startSeals (s : State) (d slot : Nat) : State :=
  match tget (s.pfx d).index slot with
  | none => s
  | some e => (List.range e.tail.layers.length).foldl (fun s l => s.startSeal d slot l) s

/-- A SEALING page abandoned: it enters limbo and its task's holder closes (R92, R96). -/
def State.dropSeal (s : State) (d id : Nat) : State :=
  match s.page? d id with
  | none => s
  | some p => if p.st = .sealing then (s.closeHolder d p.rel).limboPage d id else s.limboPage d id

/-- References of a tail record dropped, and its seals in progress with them (R91, R98). -/
def State.dropTail (s : State) (d : Nat) (t : Tail) : State :=
  t.layers.foldl (fun s l =>
    let s := if l.sealed ≠ 0 then s.dropSeal d l.sealed else s
    let s := if l.full ≠ 0 then s.dropRef d l.full else s
    if l.open_ ≠ 0 then s.dropRef d l.open_ else s) s

/-! ### Map versions (R72, R92) -/

/-- A new map version and tail record written and the index entry repointed; the old body and tail record enter limbo. -/
def State.newVersion (s s0 : State) (d slot : Nat) (e : SeqSlot) (chunks : List Nat) (tail : Tail) : Except EditStop State := do
  let (b, s) ← liftAlloc s0 d (s.poolSegs d (bodySegs chunks.length))
  let (t, s) ← liftAlloc s0 d (s.poolSegs d (tailSegs tail.layers.length))
  let s := (s.segsToLimbo d e.body.segs).segsToLimbo d e.tail.segs
  let body : MapBody :=
    { version := e.body.version + 1, chunks := chunks, written := s.tickOf d, prev := e.body.segs.headD 0, segs := b }
  return s.setSlot d slot { e with body := body, tail := { tail with segs := t } }

/-- Length of a layer (R73). -/
def SeqSlot.len (e : SeqSlot) (l : Nat) : Nat :=
  let x := e.tail.layers.getD l LayerEnt.init
  e.tail.base + (if x.full ≠ 0 then 128 else 0) + x.fill

def SeqSlot.lens (e : SeqSlot) : List Nat := (List.range e.tail.layers.length).map e.len
def maxOf (l : List Nat) : Nat := l.foldl max 0
def minOf : List Nat → Nat
  | [] => 0
  | x :: r => r.foldl min x

/-! ### Chunk completion (R78) -/

/-- Whether a chunk of a sequence may complete (R78). -/
def SeqSlot.complete? (e : SeqSlot) : Bool :=
  e.live && !e.tail.layers.isEmpty && e.tail.layers.all (·.done) && decide (128 ≤ e.tail.known.length)
    && decide (e.body.chunks.length < 8192)

/-- A layer entry carried over to the next chunk (R78 step 5). -/
def carryLayer (full128 : Bool) (l : LayerEnt) : LayerEnt :=
  if full128 then ⟨l.open_, 0, 0, false, 0⟩ else ⟨0, l.open_, l.fill, false, 0⟩

/-- The chunk of a completed tail: the one that the search hit, its sealed copies dropped, or a new record of the sequence's own,
which enters the tree unless its tokens were written (R78 steps 2 to 4). The pages are those that begin to seal. -/
def State.chunkFor (s0 : State) (d : Nat) (e : SeqSlot) (hit : Option Nat) (rec0 : Chunk) (tick : Nat) :
    Except EditStop (Nat × List Nat × State) :=
  let s := s0
  match hit with
  | some c =>
    let s := s.addHold d c
    let s := rec0.pages.foldl (fun s id => s.dropSeal d id) s
    .ok (c, [], s.fadd PFX_DEDUPS_COUNT d 1)
  | none =>
    if s.freeChunks d = 0 then .error (.fail stNOT_READY (s0.nomem d))
    else
      let (c, s) := s.pickId (tkeys (s.pfx d).chunks) (s.freeChunks d)
      let s := s.modPfx d (fun x => { x with chunks := tput x.chunks c { rec0 with depth := e.tail.base / 128, ctx := e.ctx } })
      let s := rec0.pages.foldl (fun s id => s.modPage d id (fun p => { p with origin := c })) s
      let s := s.addHold d c
      let s := if rec0.written then s.fadd PFX_PRIVATE_COUNT d 1 else s.treeInsert d c tick
      .ok (c, rec0.pages, s)

/-- The rest of a chunk completion, once its search is made (R78 steps 2 to 5). -/
def State.finishChunk (s0 : State) (d slot : Nat) (e : SeqSlot) (hit : Option Nat) (rec0 : Chunk) (tick : Nat) :
    Except EditStop EditOk := do
  let (cid, newPages, s) ← s0.chunkFor d e hit rec0 tick
  let isFull (l : LayerEnt) : Bool := l.fill == 128
  let tail : Tail :=
    { base := e.tail.base + 128, known := e.tail.known.drop 128,
      layers := e.tail.layers.map (fun l => carryLayer (isFull l) l), segs := [] }
  let s ← s.newVersion s0 d slot e (e.body.chunks ++ [cid]) tail
  let s := e.tail.layers.foldl (fun s l => s.dropRef d l.full) s
  let s := s.modPfx d (fun x => { x with chunkWait := x.chunkWait.filter (· != e.seq) })
  let s := s.startSeals d slot
  return ⟨s, 0, e.body.version + 1, newPages⟩

/-- Chunk completion of the sequence at an index slot (R78): a completion that waits has made its search (R87). -/
def State.completeChunk (s0 : State) (d slot : Nat) : Except EditStop EditOk :=
  let s := s0
  match tget (s.pfx d).index slot with
  | none => .error (.fail stMALFORMED s)
  | some e =>
    let model := match s.dieCtx? d e.ctx with | some c => c.model | none => 0
    let lastC := e.body.chunks.getLast?
    let last := match lastC with | some c => s.chunk? d c | none => none
    let parentKey := match last with | some c => c.chain | none => 0
    let written := match last with | some c => c.written | none => false
    let toks := e.tail.known.take 128
    let hash := chainHash parentKey model toks
    let tick := s.tickOf d
    let rec0 : Chunk :=
      { chain := hash, model := model, parent := lastC.getD 0, st := .priv, parked := false, written := written,
        holders := 0, children := 0, depth := 0, rel := 0, ctx := 0, created := tick,
        tokens := toks, pages := e.tail.layers.map (·.sealed) }
    let (hit, s) := if written then (none, s) else s.treeSearch d hash model tick toks
    s.finishChunk d slot e hit rec0 tick

/-- Whether an edit of a parked sequence may write flash (R298, R306). -/
def State.flashReady (s : State) (d : Nat) : Bool := s.fbit FTL_STATUS_READY d && !s.readOnly d

/-- The items that make a parked sequence's edit durable: its pages, chunks of its map not yet PARKED, and its map. -/
def State.durableItems (s : State) (d q : Nat) (pages : List Nat) : List FItem :=
  match s.seqSlot? d q with
  | none => []
  | some (_, e) =>
    let chunks := e.body.chunks.filter (fun c => match s.chunk? d c with | some k => !k.parked | none => false)
    let cp := chunks.flatMap (fun c =>
      (match s.chunk? d c with | some k => k.pages.map FItem.page | none => []) ++ [FItem.chunk c])
    pages.map FItem.fresh ++ cp ++ [.mapv q]

/-- A page's flash copy no longer holds its contents (R218); that of a parked sequence stands until the edit's new copy takes its
place (R220). -/
def State.staleFlash (s : State) (d id : Nat) : State :=
  match s.page? d id with
  | some p => if p.place.flash then s.freeFlash d id else s
  | none => s

/-- Whether the flash copies of pages keep every context within FLASH_MAX (R228). -/
def State.pagesQuota (s : State) (d : Nat) (pages : List Nat) : Bool :=
  let own := pages.filterMap (s.page? d)
  (own.map (·.ctx)).eraseDups.all (fun c =>
    s.flashOk d c (sumNat ((own.filter (fun p => p.ctx == c)).map (fun p => sectorsOf (s.storedBytes d p)))) pages)

/-- The status with which an edit is refused when its flash writes cannot be made: the flash quota (R228), or room (R101, R220);
none when they can (DEDUCED, log entry 111). -/
def State.parkStatus (s : State) (d q : Nat) (pages : List Nat) : Option Nat :=
  let items := s.durableItems d q pages
  let own := items.filterMap (fun i => match i with
    | .page id => if s.itemDone d i then none else some id
    | .fresh id => some id
    | _ => none)
  if !s.pagesQuota d own then some stQUOTA
  else if !s.flashFits d (s.nsOf d) items then some stNOT_READY
  else none

/-- An edit that has taken effect on sequence `q` completes: at once when the sequence is volatile, after its flash
writes and their record when it is parked (R82, R220); `j` is a record that the completion must wait for, or 0. -/
def State.finishEdit (d q : Nat) (desc : Option (Nat × Nat × Nat)) (j : Nat) (r : EditOk) : State :=
  let s1 := r.s.repinSeq d q
  let s1 := match (s1.seqSlot? d q) with | some (k, _) => s1.startSeals d k | none => s1
  let parked := match s1.seqSlot? d q with | some (_, e) => e.parked | none => false
  if parked || j != 0 then
    (s1.addTask d
      { desc := desc, seq := q, ns := s1.nsOf d, band := .park, todo := s1.durableItems d q r.pages, jwait := j,
        sectors := 0, r0 := some r.r0, r1 := r.r1, reads := false, epoch := 0 }).resumeTasks d
  else
    match desc with
    | some (f, sq, i) => s1.complete ⟨fnPart f, fnPort f, sq, i, 0, false, false, false, false⟩ stOK r.r0 r.r1
    | none => s1

/-- An edit that did not take effect completes with its status, or waits behind staging (R597). -/
def State.stopEdit (s : State) (d q : Nat) (desc : Option (Nat × Nat × Nat)) (edit : Edit) : EditStop → State
  | .fail st s1 =>
    match desc with
    | some (f, sq, i) => s1.complete ⟨fnPart f, fnPort f, sq, i, 0, false, false, false, false⟩ st 0 0
    | none => s1
  | .wait pages =>
    let s := pages.foldl (fun s id => s.stageIn d id 2) s
    match desc with
    | some _ => s.modPfx d (fun x => { x with edits := x.edits ++ [⟨desc, none, q, edit⟩] })
    | none => s

/-! ### Append (R74 to R76, R596) -/

/-- Positions as stored: a tail position has no scales. -/
def tailPos (l : List Nat) : Pos := ⟨l, []⟩

/-- An append to layer `l` of a sequence on die `d` (R596, R63, R77) (DEDUCED, log entry 79; DEDUCED, log entry 108). -/
def State.append (s0 : State) (d slot l pos : Nat) (toks : List Nat) (data : List (List Nat)) : Except EditStop EditOk := do
  let s := s0
  match tget (s.pfx d).index slot with
  | none => .error (.fail stMALFORMED s)
  | some e =>
  match s.dieCtx? d e.ctx with
  | none => .error (.fail stMALFORMED s)
  | some c =>
    let n := data.length
    if c.layers ≤ l ∨ n = 0 ∨ 128 < n ∨ toks.length ≠ n ∨ data.any (fun p => p.length != c.elems) ∨ 2 ^ 20 < pos + n then
      .error (.fail stMALFORMED s)
    else if pos ≠ e.len l then .error (.fail stMALFORMED s)
    else
      let off := pos - e.tail.base
      let same := ((List.range n).zip toks).all (fun x =>
        match e.tail.known[off + x.1]? with | some t => t == x.2 | none => true)
      if !same then .error (.fail stMALFORMED (s.tokenMiss d))
      else
        let x := e.tail.layers.getD l LayerEnt.init
        let room := (if x.full = 0 then 256 else 128) - x.fill
        if room < n then .error (.fail stNOT_READY s)
        else
          if x.open_ ≠ 0 then s.mustRead d [x.open_]
          let first := min n (128 - x.fill)
          let a := (data.take first).map tailPos
          let b := (data.drop first).map tailPos
          s0.quotaFirst d e.ctx (tailFrame c (x.fill + first) - tailFrame c x.fill + tailFrame c b.length)
          -- the OPEN page, new or grown
          let pbase := e.tail.base + (if x.full ≠ 0 then 128 else 0)
          let (id, s) ← (if x.open_ = 0 then do
              let (id, s) ← liftAlloc s0 d (s.newPage d (tailFrame c a.length) (newTail c e.ctx l pbase e.seq a))
              return (id, s.addRef d id)
            else do
              let s := if e.parked then s else s.staleFlash d x.open_
              let s ← liftAlloc s0 d (s.growPage d x.open_ (tailFrame c (x.fill + first) - tailFrame c x.fill))
              let s := s.modPage d x.open_ (fun p =>
                { p with
                  pos := p.pos ++ a, fill := p.fill + first, bytes := (p.fill + first) * c.posBytes
                  st := if p.fill + first = 128 then .full else .open_ })
              return (x.open_, s) : Except EditStop (Nat × State))
          let fill := x.fill + first
          let x1 : LayerEnt := if fill = 128 ∧ x.full = 0 then { x with full := id, open_ := 0, fill := 0 } else { x with open_ := id, fill := fill }
          -- a second page, when the first became FULL
          let (x2, more, s) ← (if b.isEmpty then return (x1, [], s)
            else do
              let (id2, s) ← liftAlloc s0 d (s.newPage d (tailFrame c b.length) (newTail c e.ctx l (e.tail.base + 128) e.seq b))
              return ({ x1 with open_ := id2, fill := b.length }, [id2], s.addRef d id2)
            : Except EditStop (LayerEnt × List Nat × State))
          let known := e.tail.known ++ toks.drop (e.tail.known.length - off)
          let layers := ((List.range e.tail.layers.length).zip e.tail.layers).map (fun y => if y.1 = l then x2 else y.2)
          let s := s.setSlot d slot { e with tail := { e.tail with known := known, layers := layers } }
          return ⟨s.hbmWrite d (n * c.posBytes) (some e.ctx), pos + n, e.body.version, id :: more⟩

/-! ### Write (R94, R95) -/

/-- Positions with `new` written from index `i` on. -/
def writePos (l : List Pos) (i : Nat) (new : List Pos) : List Pos := l.take i ++ new ++ l.drop (i + new.length)

/-- A write of positions of one page (R94, R95). The copy of a tail page counts in PFX_COWS as that of a sealed one does, and
the seal of a FULL page that is replaced, running or done, begins again on its copy (DESIGN CHOICE, log entry 101; DESIGN CHOICE, log entry 102; DEDUCED, log entry 108). -/
def State.writeMap (s0 : State) (d slot l pos : Nat) (data : List (List Nat)) : Except EditStop EditOk := do
  let s := s0
  match tget (s.pfx d).index slot with
  | none => .error (.fail stMALFORMED s)
  | some e =>
  match s.dieCtx? d e.ctx with
  | none => .error (.fail stMALFORMED s)
  | some c =>
    let n := data.length
    if c.layers ≤ l ∨ n = 0 ∨ 128 < n ∨ data.any (fun p => p.length != c.elems) ∨ pos / 128 ≠ (pos + n - 1) / 128
        ∨ e.len l < pos + n then .error (.fail stMALFORMED s)
    else if pos < e.tail.base then
      let cid := e.body.chunks.getD (pos / 128) 0
      match s.chunk? d cid with
      | none => .error (.fail stMALFORMED s)
      | some ch =>
        let old := ch.pages.getD l 0
        match s.page? d old with
        | none => .error (.fail stMALFORMED s)
        | some p =>
          s.mustRead d [old]
          let conv := sealConvert c (data.map tailPos)
          let stored := writePos p.pos (pos % 128) conv.1
          let pg := { sealedPage c e.ctx l p.posBase 0 0 (s.tickOf d) .sealed stored with rel := 0 }
          s0.quotaFirst d e.ctx (ceilDiv pg.bytes 4096)
          if s.freeChunks d = 0 then .error (.fail stNOT_READY (s0.nomem d))
          let (id, s) ← liftAlloc s0 d (s.newPage d (ceilDiv pg.bytes 4096) pg)
          let (nc, s) := s.pickId (tkeys (s.pfx d).chunks) (s.freeChunks d)
          let pages := ((List.range ch.pages.length).zip ch.pages).map (fun y => if y.1 = l then id else y.2)
          let rec0 : Chunk :=
            { ch with
              st := .priv, parked := false, written := true, holders := 0, children := 0, ctx := e.ctx
              created := s.tickOf d, pages := pages, rel := 0 }
          let s := s.modPfx d (fun x => { x with chunks := tput x.chunks nc rec0 })
          let s := (s.modPage d id (fun p => { p with origin := nc })).addHold d nc
          let k := pos / 128
          let chunks := ((List.range e.body.chunks.length).zip e.body.chunks).map (fun y => if y.1 = k then nc else y.2)
          let tailRefs := e.tail
          let s ← s.newVersion s0 d slot e chunks tailRefs
          let s := s.dropHold d cid
          let s := s.countSeal d (pg.blks.filter (·.raw)).length conv.2.1 conv.2.2
          return ⟨s.fadd PFX_COWS_COUNT d 1, id, e.body.version + 1, [id]⟩
    else
      let x := e.tail.layers.getD l LayerEnt.init
      let inFull := x.full ≠ 0 ∧ pos < e.tail.base + 128
      let old := if inFull then x.full else x.open_
      match s.page? d old with
      | none => .error (.fail stMALFORMED s)
      | some p =>
        s.mustRead d [old]
        let stored := writePos p.pos (pos % 128) (data.map tailPos)
        let (id, s) ← liftAlloc s0 d (s.newPage d (tailFrame c stored.length) (newTail c e.ctx l p.posBase e.seq stored))
        let s := s.addRef d id
        let s := if inFull && x.sealed != 0 then s.dropSeal d x.sealed else s
        let x1 : LayerEnt := if inFull then { x with full := id, sealed := 0, done := false } else { x with open_ := id }
        let layers := ((List.range e.tail.layers.length).zip e.tail.layers).map (fun y => if y.1 = l then x1 else y.2)
        let s ← s.newVersion s0 d slot e e.body.chunks { e.tail with layers := layers }
        return ⟨(s.dropRef d old).fadd PFX_COWS_COUNT d 1, id, e.body.version + 1, [id]⟩

/-! ### Truncate and fork (R96, R97) -/

/-- A part of a sealed position expanded to the tail format (R96): codes and saturated elements (DEDUCED, log entry 113). -/
def expandPart (tail : Nat) (part : Nat × List Nat × List Nat) : List Nat × Nat :=
  let f := fmtOf tail
  if part.1 = tail then (part.2.1, 0)
  else
    let vals := rowValues part.1 ⟨part.2.1, part.2.2⟩
    let one (v : Num) (c : Nat) : Nat × Bool :=
      match v with
      | .nan => (c / (fmtOf part.1).signBit % 2 * 32768 + (if tail = 8 then 0x7FC0 else 0x7E00), false)
      | .inf b => (f.encode (.inf b), false)
      | v => (f.encode (f.sat v), f.over (f.rne v))
    let r := (vals.zip part.2.1).map (fun x => one x.1 x.2)
    (r.map (·.1), (r.filter (·.2)).length)

/-- A sealed position expanded to the tail format: keys and values by their own formats (R96, R109). -/
def expandPos (c : Ctx) (fmt : Nat) (p : Pos) : Pos × Nat :=
  let hd := c.h * c.d
  let parts : List (Nat × List Nat × List Nat) :=
    if c.latent then [(fmt % 16, p.codes, p.scales)]
    else
      let ks := if isMX (fmt % 16) then hd / 32 else 0
      [(fmt % 16, p.codes.take hd, p.scales.take ks), (fmt / 16, p.codes.drop hd, p.scales.drop ks)]
  let r := parts.map (expandPart c.tailFmt)
  (⟨(r.map (·.1)).flatten, []⟩, sumNat (r.map (·.2)))

/-- The first `n` positions of each page of a chunk, expanded; pages, by layer, and the elements that saturated (R96). -/
def State.expandChunk (s : State) (d : Nat) (c : Ctx) (ch : Chunk) (n : Nat) : List (List Pos) × Nat :=
  let r := ch.pages.map (fun id => match s.page? d id with
    | some p => (p.pos.take n).map (expandPos c p.format)
    | none => [])
  (r.map (fun l => l.map (·.1)), sumNat (r.map (fun l => sumNat (l.map (·.2)))))

/-- Segments that the tail pages of `n` positions take. -/
def tailNeed (c : Ctx) (n : Nat) : Nat := tailFrame c (min n 128) + tailFrame c (n - 128)

/-- New tail pages for one layer's positions from `base` on: a FULL page when there are 128 or more, and an OPEN one. -/
def State.tailPages (s0 s : State) (d ctx : Nat) (c : Ctx) (q l base : Nat) (pos : List Pos) :
    Except EditStop (LayerEnt × List Nat × State) := do
  let (full, s) ← (if 128 ≤ pos.length then do
      let (id, s) ← liftAlloc s0 d (s.newPage d (tailFrame c 128) (newTail c ctx l base q (pos.take 128)))
      return (id, s.addRef d id)
    else return (0, s) : Except EditStop (Nat × State))
  let rest := if full ≠ 0 then pos.drop 128 else pos
  let (op, s) ← (if rest.isEmpty then return (0, s)
    else do
      let b := if full ≠ 0 then base + 128 else base
      let (id, s) ← liftAlloc s0 d (s.newPage d (tailFrame c rest.length) (newTail c ctx l b q rest))
      return (id, s.addRef d id) : Except EditStop (Nat × State))
  return (⟨full, op, rest.length, false, 0⟩, [full, op].filter (· != 0), s)

/-- New tail pages for every layer. -/
def State.tailLayers (s0 : State) (d ctx : Nat) (c : Ctx) (q base : Nat) :
    List (Nat × List Pos) → State → Except EditStop (List LayerEnt × List Nat × State)
  | [], s => .ok ([], [], s)
  | x :: r, s => do
    let (le, ids, s) ← State.tailPages s0 s d ctx c q x.1 base x.2
    let (les, more, s) ← State.tailLayers s0 d ctx c q base r s
    return (le :: les, ids ++ more, s)

/-- Saturated elements of an expansion counted (R96). -/
def State.countSat (s : State) (d n : Nat) : State :=
  if n = 0 then s else (s.fadd PFX_SAT_COUNT d n).evtDie PFX_EVENT_SAT d

/-- A layer cut to `keep` positions above the tail's base, `keep` below its length (R96, n ≥ TAIL_BASE): the new entry,
and the pages to copy from. -/
def State.cutLayer (s0 s : State) (d ctx : Nat) (c : Ctx) (q base l keep : Nat) (x : LayerEnt) :
    Except EditStop (LayerEnt × List Nat × State) := do
  let posOf (id : Nat) : List Pos := match s.page? d id with | some p => p.pos | none => []
  if x.full ≠ 0 ∧ 128 ≤ keep then
    let rest := keep - 128
    if rest = 0 then
      return ({ x with open_ := 0, fill := 0 }, [], s.dropRef d x.open_)
    else
      let (id, s) ← liftAlloc s0 d
        (s.newPage d (tailFrame c rest) (newTail c ctx l (base + 128) q ((posOf x.open_).take rest)))
      return ({ x with open_ := id, fill := rest }, [id], (s.addRef d id).dropRef d x.open_)
  else
    let src := if x.full ≠ 0 then x.full else x.open_
    let drop (s : State) : State :=
      let s := if x.sealed ≠ 0 then s.dropSeal d x.sealed else s
      let s := if x.full ≠ 0 then s.dropRef d x.full else s
      if x.open_ ≠ 0 then s.dropRef d x.open_ else s
    if keep = 0 then return (LayerEnt.init, [], drop s)
    else
      let (id, s) ← liftAlloc s0 d (s.newPage d (tailFrame c keep) (newTail c ctx l base q ((posOf src).take keep)))
      return (⟨0, id, keep, false, 0⟩, [id], drop (s.addRef d id))

/-- Every layer cut (R96, n ≥ TAIL_BASE). -/
def State.cutLayers (s0 : State) (d ctx : Nat) (c : Ctx) (q base keep : Nat) :
    List (Nat × LayerEnt) → State → Except EditStop (List LayerEnt × List Nat × State)
  | [], s => .ok ([], [], s)
  | x :: r, s => do
    let len := (if x.2.full ≠ 0 then 128 else 0) + x.2.fill
    let (le, ids, s) ← (if len ≤ keep then return (x.2, [], s)
      else State.cutLayer s0 s d ctx c q base x.1 keep x.2 : Except EditStop (LayerEnt × List Nat × State))
    let (les, more, s) ← State.cutLayers s0 d ctx c q base keep r s
    return (le :: les, ids ++ more, s)

/-- The tail page in which a cut to `keep` positions falls, if positions of it are kept, and how many (R96). -/
def LayerEnt.cutAt (x : LayerEnt) (keep : Nat) : Option (Nat × Nat) :=
  let n := if x.full ≠ 0 ∧ 128 ≤ keep then keep - 128 else keep
  if (if x.full ≠ 0 then 128 else 0) + x.fill ≤ keep ∨ n = 0 then none
  else some (if x.full ≠ 0 ∧ keep < 128 then x.full else x.open_, n)

/-- MAP_TRUNCATE of a sequence to length `n` (R96) (DEDUCED, log entry 79; DEDUCED, log entry 108). -/
def State.truncate (s0 : State) (d slot n : Nat) : Except EditStop EditOk := do
  let s := s0
  match tget (s.pfx d).index slot with
  | none => .error (.fail stMALFORMED s)
  | some e =>
  match s.dieCtx? d e.ctx with
  | none => .error (.fail stMALFORMED s)
  | some c =>
    let lens := e.lens
    if lens.all (fun x => decide (x ≤ n)) then return ⟨s, maxOf lens, e.body.version, []⟩
    else if e.tail.base ≤ n then
      let keep := n - e.tail.base
      let cuts := e.tail.layers.filterMap (fun x => x.cutAt keep)
      s0.mustRead d (cuts.map (·.1))
      s0.quotaFirst d e.ctx (sumNat (cuts.map (fun x => tailFrame c x.2)))
      let (layers, ids, s) ← State.cutLayers s0 d e.ctx c e.seq e.tail.base keep
        ((List.range e.tail.layers.length).zip e.tail.layers) s
      let most := min n (maxOf lens)
      let tail : Tail := { e.tail with layers := layers, known := e.tail.known.take (most - e.tail.base) }
      let s ← s.newVersion s0 d slot e e.body.chunks tail
      return ⟨s, most, e.body.version + 1, ids⟩
    else
      let k := n / 128
      let base := 128 * k
      let keep := n - base
      let cid := e.body.chunks.getD k 0
      match s.chunk? d cid with
      | none => .error (.fail stMALFORMED s)
      | some ch =>
        if keep ≠ 0 then s.mustRead d ch.pages
        let (rows, sat) := if keep = 0 then (ch.pages.map (fun _ => []), 0) else s.expandChunk d c ch keep
        s0.quotaFirst d e.ctx (sumNat (rows.map (fun l => tailNeed c l.length)))
        let (layers, ids, s) ← State.tailLayers s0 d e.ctx c e.seq base ((List.range rows.length).zip rows) s
        let tail : Tail := ⟨base, ch.tokens.take keep, layers, []⟩
        let s ← s.newVersion s0 d slot e (e.body.chunks.take k) tail
        let s := (e.body.chunks.drop k).foldl (fun s c => s.dropHold d c) s
        let s := s.dropTail d e.tail
        return ⟨s.countSat d sat, n, e.body.version + 1, ids⟩

/-- A new LIVE entry of version 1 (R71, R72): its body and tail record take segments. -/
def State.newSeq (s0 s : State) (d q ctx : Nat) (parked : Bool) (chunks : List Nat) (tail : Tail) :
    Except EditStop (Nat × State) := do
  match s.newSlot? d q with
  | none => .error (.fail stQUOTA (s0.evtDie PFX_EVENT_SEQ_FULL d))
  | some k =>
    let (b, s) ← liftAlloc s0 d (s.poolSegs d (bodySegs chunks.length))
    let (t, s) ← liftAlloc s0 d (s.poolSegs d (tailSegs tail.layers.length))
    let body : MapBody := { version := 1, chunks := chunks, written := s.tickOf d, prev := 0, segs := b }
    return (k, s.setSlot d k ⟨q, ctx, true, parked, body, { tail with segs := t }⟩)

/-- MAP_FORK: sequence `q` with the first `n` positions of the sequence at a slot (R97) (DESIGN CHOICE, log entry 103; DEDUCED, log entry 108). -/
def State.fork (s0 : State) (d slot q n : Nat) (parked : Bool) : Except EditStop EditOk := do
  let s := s0
  match tget (s.pfx d).index slot with
  | none => .error (.fail stMALFORMED s)
  | some e =>
  match s.dieCtx? d e.ctx with
  | none => .error (.fail stMALFORMED s)
  | some c =>
    if minOf e.lens < n then .error (.fail stMALFORMED s)
    else
      let k := min e.body.chunks.length (n / 128)
      let base := 128 * k
      let keep := n - base
      let (rows, known, sat) ← (match e.body.chunks[k]? with
        | some cid =>
          match s.chunk? d cid with
          | some ch =>
            if keep = 0 then .ok (ch.pages.map (fun _ => []), [], 0)
            else do
              s.mustRead d ch.pages
              let r := s.expandChunk d c ch keep
              return (r.1, ch.tokens.take keep, r.2)
          | none => .error (.fail stMALFORMED s)
        | none => do
          let ids := e.tail.layers.flatMap (fun x => [x.full, x.open_].filter (· != 0))
          if keep ≠ 0 then s.mustRead d ids
          let posOf (id : Nat) : List Pos := match s.page? d id with | some p => p.pos | none => []
          return (e.tail.layers.map (fun x => (posOf x.full ++ posOf x.open_).take keep), e.tail.known.take keep, 0)
        : Except EditStop (List (List Pos) × List Nat × Nat))
      s0.quotaFirst d e.ctx (sumNat (rows.map (fun l => tailNeed c l.length)))
      let (layers, ids, s) ← State.tailLayers s0 d e.ctx c q base ((List.range rows.length).zip rows) s
      let chunks := e.body.chunks.take k
      let (_, s) ← State.newSeq s0 s d q e.ctx parked chunks ⟨base, known, layers, []⟩
      let s := chunks.foldl (fun s c => s.addHold d c) s
      return ⟨s.countSat d sat, n, 1, ids⟩

/-! ### Free (R98) and create (R99) -/

/-- A sequence removed: its entry becomes a TOMBSTONE and its references are dropped (R98). -/
def State.freeSeq (s : State) (d slot : Nat) : State :=
  match tget (s.pfx d).index slot with
  | none => s
  | some e =>
    let dead : SeqSlot := { e with live := false, parked := false, body := ⟨0, [], 0, 0, []⟩, tail := ⟨0, [], [], []⟩ }
    let s := s.setSlot d slot dead
    let s := e.body.chunks.foldl (fun s c => s.dropHold d c) s
    let s := s.dropTail d e.tail
    let s := (s.segsToLimbo d e.body.segs).segsToLimbo d e.tail.segs
    let s := s.modPfx d (fun x => { x with chunkWait := x.chunkWait.filter (· != e.seq) })
    let s := if e.parked then ((s.journal d (s.nsOf d) (.seq e.seq e.ctx true true)).2).freeObj d 3 e.seq else s
    s.freeHints d e.seq

/-- An edit that fails leaves the structures of `s0`. -/
def keepPfx {α : Type} (s0 : State) : Except EditStop α → Except EditStop α
  | .error (.fail n t) => .error (.fail n { t with pfxs := s0.pfxs })
  | x => x

/-- A sequence created, its prompt matched in the tree (R75, R87, R99). -/
def State.create (s0 : State) (d q ctx : Nat) (lookup parked : Bool) (toks : List Nat) : Except EditStop EditOk := do
  let s := s0
  match s.dieCtx? d ctx with
  | none => .error (.fail stMALFORMED s)
  | some c =>
    let (chunks, s) := if lookup then s.lookupRun d c.model (s.tickOf d) 0 (chunksOf toks) else ([], s)
    let base := 128 * chunks.length
    let tail : Tail := ⟨base, (toks.drop base).take 256, List.replicate c.layers LayerEnt.init, []⟩
    -- when it fails the searches stay counted (R87) and the structures are as they were (R101)
    let (_, s) ← keepPfx s0 (State.newSeq s s d q ctx parked chunks tail)
    let s := chunks.foldl (fun s c => s.addHold d c) s
    return ⟨s, base, 1, []⟩

/-! ### Running an edit (R82, R597) -/

/-- An edit of an existing sequence applied on its die. -/
def State.applyEdit (s : State) (d slot : Nat) : Edit → Except EditStop EditOk
  | .append _ l pos toks data => s.append d slot l pos toks data
  | .write _ l pos data => s.writeMap d slot l pos data
  | .truncate _ n => s.truncate d slot n
  | .fork q _ n parked => s.fork d slot q n parked
  | .free _ =>
    match tget (s.pfx d).index slot with
    | none => .error (.fail stMALFORMED s)
    | some e => .ok ⟨s.freeSeq d slot, 0, e.body.version, []⟩
  | .class_ _ _ => .error (.fail stMALFORMED s)

/-- The sequence whose order an edit takes (R82), and the sequence that is durable after it. -/
def Edit.seqOf : Edit → Nat
  | .append q _ _ _ _ => q
  | .write q _ _ _ => q
  | .truncate q _ => q
  | .fork _ src _ _ => src
  | .free q => q
  | .class_ q _ => q
def Edit.result : Edit → Nat
  | .fork q _ _ _ => q
  | e => e.seqOf

/-- Whether an edit writes a parked sequence (R220). -/
def Edit.parks (parkedSeq : Bool) : Edit → Bool
  | .fork _ _ _ parked => parked
  | .free _ => false
  | .class_ _ parked => parkedSeq != parked
  | _ => parkedSeq

/-- A change of class (R224, R225): chunks that are not PARKED, then the tail pages, then the map and the class. A sequence
that has the class completes at once. -/
def State.changeClass (s : State) (d : Nat) (e : SeqSlot) (desc : Option (Nat × Nat × Nat)) (parked : Bool) : State :=
  let done (s : State) (st r0 r1 : Nat) : State :=
    match desc with
    | some (f, sq, i) => s.complete ⟨fnPart f, fnPort f, sq, i, 0, false, false, false, false⟩ st r0 r1
    | none => s
  if e.parked = parked then done s stOK 0 e.body.version
  else
    let task (todo : List FItem) (j : Nat) (r0 : Option Nat) : DTask :=
      { desc := desc, seq := e.seq, ns := s.nsOf d, band := .park, todo := todo, jwait := j, sectors := 0, r0 := r0,
        r1 := e.body.version, reads := false, epoch := 0 }
    if parked then
      let chunks := e.body.chunks.filter (fun c => match s.chunk? d c with | some k => !k.parked | none => false)
      let cp := chunks.map (fun c => (c, match s.chunk? d c with | some k => k.pages | none => []))
      let tails := e.tail.layers.flatMap (fun l => [l.full, l.open_].filter (· != 0))
      s.addTask d (task ((cp.flatMap (fun x => x.2.map FItem.page ++ [FItem.chunk x.1])) ++ tails.map FItem.page
        ++ [.mapv e.seq, .class_ e.seq true]) 0 none)
    else
      let s := s.unpark d e.seq
      s.addTask d (task [] (s.ftl d).jseq (some 0))

/-- The sequences whose edit an accepted descriptor is (R82). -/
def Outst.seqs (o : Outst) : List Nat :=
  let a := o.body0 % 2 ^ 32
  if o.op = 0x24 then [a, o.body0 / 2 ^ 32 % 2 ^ 32]
  else if (0x20 ≤ o.op ∧ o.op ≤ 0x25) ∨ o.op = 0x40 then [a]
  else []

/-- Whether an edit of some of the sequences was accepted before a descriptor and has not begun: edits are applied in the order
in which they were accepted (R82) (DEDUCED, log entry 107). -/
def State.editWait (s : State) (d : Desc) (qs : List Nat) : Bool :=
  ((s.part d.part).outst.takeWhile (fun o => !o.of d.fn d.sq d.index)).any (fun o => !o.started && o.seqs.any qs.contains)

/-- The command of an edit: nothing happens while an earlier edit of its sequences has not begun (R82). -/
def runSeqEdit (d : Desc) (op body0 : Nat) (qs : List Nat) (s : State) (go : State → State) : State :=
  if s.editWait d qs then s else runDesc d op body0 s go

/-- Whether an edit of the sequence is accepted and not complete: later ones wait behind it (R82, R220, R223, R597) (DEDUCED, log entry 107). -/
def State.seqBusy (s : State) (d q : Nat) : Bool :=
  (s.pfx d).edits.any (fun w => w.seq == q) || (s.ftl d).tasks.any (fun t => t.seq == q)

/-- An edit of a sequence on die `d`: behind earlier edits that are not complete, or at once (R82, R597) (DEDUCED, log entry 107). -/
def State.runEdit (s : State) (d : Nat) (desc : Option (Nat × Nat × Nat)) (edit : Edit) : State :=
  let q := edit.seqOf
  let fail (st : Nat) : State := s.stopEdit d q desc edit (.fail st s)
  match s.seqSlot? d q with
  | none => fail stMALFORMED
  | some (k, e) =>
    if s.seqBusy d q then
      match desc with
      | some _ => s.modPfx d (fun x => { x with edits := x.edits ++ [⟨desc, none, q, edit⟩] })
      | none => s
    else if edit.parks e.parked && !s.flashReady d then fail stNOT_READY
    else
      match edit with
      | .class_ _ parked => s.changeClass d e desc parked
      | _ =>
      match s.applyEdit d k edit with
      | .error x => s.stopEdit d q desc edit x
      | .ok r =>
        match (if edit.parks e.parked then r.s.parkStatus d edit.result r.pages else none) with
        | some st => fail st
        | none =>
          let freed := match edit with | .free _ => e.parked | _ => false
          State.finishEdit d edit.result desc (if freed then (r.s.ftl d).jseq else 0) r

/-- An append that a step record carries, when its turn has come: its status, none while it waits for staging (R115, R116,
R222, R597) (DEDUCED, log entry 17). -/
def State.runCarried (s : State) (d : Nat) (edit : Edit) : Option Nat × State :=
  match s.seqSlot? d edit.seqOf with
  | none => (some stMALFORMED, s)
  | some (k, e) =>
    if e.parked then (some stNOT_READY, s)
    else
      match s.applyEdit d k edit with
      | .ok x => (some stOK, State.finishEdit d edit.seqOf none 0 x)
      | .error (.fail st s1) => (some st, s1)
      | .error (.wait pages) => (none, pages.foldl (fun s id => s.stageIn d id 2) s)

/-- The status of a carried append that waited comes into its record (R120). -/
def State.settleAppend (s : State) (d sweep i st : Nat) : State :=
  s.modCsm d (fun c =>
    { c with sweeps := c.sweeps.map (fun w =>
        if w.id = sweep then
          { w with recs := ((List.range w.recs.length).zip w.recs).map (fun x =>
              if x.1 = i then { x.2 with appendStatus := st, appWait := false } else x.2) }
        else w) })

/-- An edit that waits tried in its turn; when it must wait on, it stands in the list again. -/
def State.retryEdit (s : State) (d : Nat) (w : WaitEdit) : State :=
  let back (s : State) : State := s.modPfx d (fun x => { x with edits := x.edits ++ [w] })
  if s.seqBusy d w.seq then back s
  else
    match w.rec_ with
    | none => s.runEdit d w.desc w.edit
    | some (sw, i) =>
      match s.runCarried d w.edit with
      | (some st, s) => s.settleAppend d sw i st
      | (none, s) => back s

/-- Edits that wait tried again in order, after a page came in, became SUSPECT or was lost, or an earlier edit completed (R82,
R597); `n` bounds them. -/
def State.retryEdits (s : State) (d : Nat) : Nat → State
  | 0 => s
  | n + 1 =>
    let l := (s.pfx d).edits
    match l with
    | [] => s
    | w :: r =>
      let s1 := (s.modPfx d (fun x => { x with edits := [] })).retryEdit d w
      let back := (s1.pfx d).edits
      let s2 := s1.modPfx d (fun x => { x with edits := if back.isEmpty then r else r.filter (fun v => v.seq != w.seq) })
      let s3 := s2.retryEdits d n
      s3.modPfx d (fun x =>
        { x with edits := back ++ (if back.isEmpty then [] else r.filter (fun v => v.seq == w.seq)) ++ x.edits })

end Sys2Proof.Machine
end

