-- ==== Sys2Proof/Machine/Imports.lean ====
section
/-!
DEFINITION. Sys2Proof/Machine/Imports.lean: what a remote read brings to a staging task or to an import, and replica entries
(R213, R249 to R251).
-/
namespace Sys2Proof.Machine

/-- A replica entry recorded: a free one of 1 to 65,535 (index 0 names none), and RES.REPLICA on the chunk's pages (R216, R249,
R250) (DEDUCED, log entry 42). -/
def State.addReplica (s : State) (d : Nat) (r : Replica) : Nat × State :=
  let used := tkeys (s.stg d).replicas
  let (k, s) := s.pickId used (65535 - used.length)
  let s := s.modStg d (fun x => { x with replicas := tput x.replicas k r })
  let pages := match s.chunk? d r.chunk with | some c => c.pages | none => []
  (k, pages.foldl (fun s id => s.modPage d id (fun p =>
    { p with place := { p.place with replica := true, replicaIdx := k } })) s)

/-- Whether no replica entry is free. -/
def State.replicasFull (s : State) (d : Nat) : Bool := decide (65535 ≤ (s.stg d).replicas.length)

/-! ### Staging from a fabric replica (R250) -/

/-- What a read of a staging task brought: after the page table of the replica its page image is read. -/
def State.stagedData (s : State) (d page start : Nat) (table : Bool) (b : List Byte) : State :=
  if !table then s.gotStaged d page start stOK b
  else
    match (s.stg d).tasks.find? (fun t => t.page == page && t.startT == start), s.page? d page with
    | some t, some p =>
      match s.copySrc d t p with
      | .fabric key off =>
        if numAt b 4 4 = p.bytes then s.readReplica d t key (off + numAt b 0 4) p.bytes false
        else s.gotStaged d page start stMALFORMED []
      | _ => s
    | _, _ => s

/-! ### Imports (R251) -/

/-- Identity of an import. -/
def ImportJob.key3 (j : ImportJob) : Nat × Nat × Nat := (j.fn, j.sq, j.index)

/-- An import ends with a status and its result words. -/
def State.doneImport (s : State) (d : Nat) (j : ImportJob) (st r0 r1 : Nat) : State :=
  (s.endImport d j.key3).completeKey j.key3 st r0 r1

/-- The next read of an import: bytes `at_` to `at_ + n` of the image. -/
def State.readImport (s : State) (d : Nat) (j : ImportJob) (at_ n : Nat) : State :=
  match (tget (s.nrt d).binds j.key).bind (fun i => (s.peer? d i).map (fun _ => i)) with
  | none => s.doneImport d j stMALFORMED 0 0
  | some i =>
    if !s.nrtReady d then s.doneImport d j stNOT_READY 0 0
    else s.sendRead d i j.key (j.off + at_) n none (.imported j.fn j.sq j.index) .bulk

/-- What an import has read so far. -/
def State.setImport (s : State) (d : Nat) (j : ImportJob) : State :=
  s.modStg d (fun x => { x with imports := x.imports.map (fun i => if i.key3 = j.key3 then j else i) })

/-- Fields of the header (R248). -/
def ImportJob.chain (j : ImportJob) : Nat := numAt j.head 16 16
def ImportJob.parent (j : ImportJob) : Nat := numAt j.head 32 16
def ImportJob.model (j : ImportJob) : Nat := numAt j.head 48 4
def ImportJob.depth (j : ImportJob) : Nat := numAt j.head 52 4
def ImportJob.tokens (j : ImportJob) : List Nat := numsAt j.head 64 4 128

/-- Offset and length of the page image of layer `l`. -/
def ImportJob.image (j : ImportJob) (l : Nat) : Nat × Nat := (numAt j.table (8 * l) 4, numAt j.table (8 * l + 4) 4)

/-- The parent that a chunk of the image takes: none when it is not in the tree with STATE VALID (R251 item 5). -/
def State.importParent (s : State) (d : Nat) (j : ImportJob) : Option Nat :=
  if j.depth = 0 then some 0
  else (s.treeFind d j.parent).bind (fun e => if e.2.st = .valid then some e.2.chunk else none)

/-- Items 1 to 5 of R251: the header and tokens have come. -/
def State.importHead (s : State) (d : Nat) (j : ImportJob) (c : Ctx) (b : List Byte) : State :=
  let j := { j with head := b }
  if numAt b 0 4 ≠ 0x45585031 ∨ numAt b 4 1 ≠ 1 ∨ numAt b 8 8 ≠ j.bytes ∨ numAt b 5 1 + 1 ≠ c.layers ∨ numAt b 6 1 ≠ c.format
      ∨ chainHash j.parent j.model j.tokens ≠ j.chain then s.doneImport d j stMALFORMED 0 0
  else
    match s.treeSearch d j.chain j.model (s.tickOf d) j.tokens with
    | (some id, s) => s.doneImport d j stOK id 0
    | (none, s) =>
      let (parent, s) := if j.depth = 0 then (some 0, s) else s.treeSearchFor d j.parent j.model (s.tickOf d) none
      match parent with
      | none => s.doneImport d j stNOT_READY 0 0
      | some _ => (s.setImport d j).readImport d j 576 (8 * c.layers)

/-- Segments that the pages of an image take. -/
def ImportJob.segs (j : ImportJob) (layers : Nat) : Nat :=
  sumNat ((List.range layers).map (fun l => max 1 (ceilDiv (j.image l).2 4096)))

/-- The page table has come: every image lies in the whole, at a multiple of 64; the quota and the replica table are looked at
before any page is read (R64, R248). -/
def State.importTable (s : State) (d : Nat) (j : ImportJob) (c : Ctx) (b : List Byte) : State :=
  let j := { j with table := b }
  let good (l : Nat) : Bool :=
    let x := j.image l
    x.1 % 64 == 0 && decide (576 + 8 * c.layers ≤ x.1) && decide (0 < x.2) && decide (x.1 + x.2 ≤ j.bytes)
  if !(List.range c.layers).all good then s.doneImport d j stMALFORMED 0 0
  else if !s.quotaOk d j.ctx (j.segs c.layers) || (j.keep && s.replicasFull d) then s.doneImport d j stQUOTA 0 0
  else (s.setImport d j).readImport d j (j.image 0).1 (j.image 0).2

/-- The page record of an image of layer `l`, its stored bytes unchanged (R213, R251 item 6). -/
def ImportJob.page (j : ImportJob) (c : Ctx) (l : Nat) (img : List Byte) : Page :=
  Page.withImage c img
    { st := .sealed, format := c.format, layer := l, raw := false, pinned := false, fill := 128, segs := [], list := 0, refs := 0,
      rel := 0, bytes := img.length, posBase := 128 * j.depth, origin := 0, ctx := j.ctx, place := Place.init, pos := [],
      blks := [], sumBytes := 0, sealedAt := 0, stored := none }

/-- The pages of an image put in new frames, layer by layer. -/
def State.importPages (s : State) (d : Nat) (j : ImportJob) (c : Ctx) (id : Nat) (l : Nat) :
    List (List Byte) → Except AllocFail (List Nat × State)
  | [] => .ok ([], s)
  | b :: r =>
    match s.newPage d (max 1 (ceilDiv b.length 4096)) { j.page c l b with origin := id } with
    | .error x => .error x
    | .ok (n, s) =>
      match s.importPages d j c id (l + 1) r with
      | .error x => .error x
      | .ok (ns, s) => .ok (n :: ns, s)

/-- Every image has come: the chunk takes its frames and its record and is inserted (R89, R251 items 6 and 7). A chunk of the
chain that came into the tree meanwhile answers for it, and a parent that left it fails the import. -/
def State.importChunk (s : State) (d : Nat) (j : ImportJob) (c : Ctx) : State :=
  match s.treeFind d j.chain, s.importParent d j with
  | some e, _ => s.doneImport d j stOK e.2.chunk 0
  | none, none => s.doneImport d j stNOT_READY 0 0
  | none, some pid =>
    if !s.quotaOk d j.ctx (j.segs c.layers) || (j.keep && s.replicasFull d) then s.doneImport d j stQUOTA 0 0
    else if s.freeChunks d = 0 then (s.nomem d).doneImport d j stNOT_READY 0 0
    else
      let s0 := s
      let (id, s) := s.pickId (tkeys (s.pfx d).chunks) (s.freeChunks d)
      match s.importPages d j c id 0 j.imgs with
      | .error x => let (st, s) := s0.allocStatus d x; s.doneImport d j st 0 0
      | .ok (pages, s) =>
        let ch : Chunk :=
          { chain := j.chain, model := j.model, parent := pid, st := .priv, parked := false, written := false,
            holders := 0, children := 0, depth := j.depth, rel := 0, ctx := j.ctx, created := s.tickOf d,
            tokens := j.tokens, pages := pages }
        let s := (s.modPfx d (fun x => { x with chunks := tput x.chunks id ch })).addHold d id
        let s := s.treeInsert d id (s.tickOf d)
        let s := if j.keep then (s.addReplica d ⟨2, 0, j.key, j.off, j.bytes, id, j.ctx, []⟩).2 else s
        ((s.dropHold d id).fadd STG_IMPORTS_COUNT d 1).doneImport d j stOK id pages.length

/-- A page image has come: its header and index table are checked (R213), and the next one is read. -/
def State.importImage (s : State) (d : Nat) (j : ImportJob) (c : Ctx) (b : List Byte) : State :=
  let l := j.imgs.length
  if !(j.page c l b).arrivalOk c b then s.doneImport d j stMALFORMED 0 0
  else
    let j := { j with imgs := j.imgs ++ [b] }
    if l + 1 < c.layers then (s.setImport d j).readImport d j (j.image (l + 1)).1 (j.image (l + 1)).2
    else s.importChunk d j c

/-- What a read of an import brought; an import whose context is gone fails. -/
def State.importData (s : State) (d : Nat) (k : Nat × Nat × Nat) (b : List Byte) : State :=
  match (s.stg d).imports.find? (fun j => j.key3 == k) with
  | none => s
  | some j =>
    match s.ctx? j.part j.ctx with
    | none => s.doneImport d j stMALFORMED 0 0
    | some c =>
      if j.head.isEmpty then s.importHead d j c b
      else if j.table.isEmpty then s.importTable d j c b
      else s.importImage d j c b

end Sys2Proof.Machine
end

