-- ==== Sys2Proof/Machine/Nrt.lean ====
section
/-!
DEFINITION. Sys2Proof/Machine/Nrt.lean: the transport as sender and as receiver: messages, their outcomes, regions,
counters, waits and armed requests (R351 to R387).
-/
namespace Sys2Proof.Machine

/-! ### Counters, waits and armed requests (R375 to R378) -/

/-- Whether a counter value satisfies a threshold (R375). -/
def meets (v x : Nat) : Bool := decide ((v + 2 ^ 64 - x) % 2 ^ 64 < 2 ^ 63)

def State.ctr (s : State) (d i : Nat) : Nat := dget (s.nrt d).ctrs 0 i

/-- An armed request whose trigger is met runs as one message (R378). A port that is not READY, a binding or a peer that is
gone completes it with NOT_READY. -/
def State.fire (s : State) (d : Nat) (a : Armed) : State :=
  let b := a.body
  let key := (a.fn, a.sq, a.index)
  match tget (s.nrt d).binds b.remoteKey with
  | none => s.completeKey key stNOT_READY 0 0
  | some p =>
    if !s.nrtReady d || (s.peer? d p).isNone then s.completeKey key stNOT_READY 0 0
    else if !s.keyValid d b.localKey then s.completeKey key stREVOKED 0 0
    else
      let e := keyEntry b.localKey
      let use := TxFor.armed a.fn a.sq a.index b
      match b.op with
      | .read => s.sendRead d p b.remoteKey b.remoteOff b.len (some (e, b.localOff)) use .read
      | .write =>
        (s.sendWrite d p b.remoteKey b.remoteOff none none ((s.region d e).read b.localOff b.len) (some (e, b.localOff)) use
          .armed).2
      | .writeSig =>
        (s.sendWrite d p b.remoteKey b.remoteOff (some b.sigIndex) none ((s.region d e).read b.localOff b.len)
          (some (e, b.localOff)) use .armed).2

/-- A counter set to `v`: waits that it satisfies complete, and armed requests that it satisfies run in acceptance order
(R375, R377, R378). -/
def State.setCtr (s : State) (d i v : Nat) : State :=
  let v := v % 2 ^ 64
  let s := s.modNrt d (fun n => { n with ctrs := dset n.ctrs 0 i v })
  let hit := (s.nrt d).waits.filter (fun w => w.ctr == i && meets v w.thresh)
  let s := s.modNrt d (fun n => { n with waits := n.waits.filter (fun w => !(w.ctr == i && meets v w.thresh)) })
  let s := hit.foldl (fun s w => s.completeKey (w.fn, w.sq, w.index) stOK (v % 2 ^ 32) (v / 2 ^ 32)) s
  let due := (s.nrt d).armed.filter (fun a => a.body.trigIndex == i && meets v a.body.trigValue)
  let s := s.modNrt d (fun n => { n with armed := n.armed.filter (fun a => !(a.body.trigIndex == i && meets v a.body.trigValue)) })
  due.foldl (fun s a => s.fire d a) s

/-- A signal applied: SIG_ADD added modulo 2⁶⁴ (R375). -/
def State.bumpCtr (s : State) (d i n : Nat) : State := s.setCtr d i (s.ctr d i + n)

/-! ### Outcomes at the sender (R356, R358) -/

/-- The outcome of a message: an output block that fails drops its result (R123, R382); an armed request completes, with its
byte count, and with DONE_EN adds 1 to its counter on OK (R378); a read of a staging task or of an import brings its bytes
(R250, R251). -/
def State.txOutcome (s : State) (d : Nat) (use : TxFor) (status : Nat) (b : List Byte) : State :=
  if status ≠ stOK then s.txFail d use status
  else
  match use with
  | .output _ _ => s
  | .status => s
  | .none_ => s
  | .exported f q i =>
    match (s.stg d).exports.find? (fun j => j.fn == f && j.sq == q && j.index == i) with
    | none => s
    | some j =>
      let s := s.modStg d (fun x => { x with exports := x.exports.filter (fun k => k != j) })
      if 1 < j.left then s.modStg d (fun x => { x with exports := x.exports ++ [{ j with left := j.left - 1 }] })
      else
        let s := (s.closeHolder d j.epoch).fadd STG_EXPORTS_COUNT d 1
        let (k, s) := if j.keep then s.addReplica d j.entry else (0, s)
        s.completeKey (f, q, i) stOK (j.entry.bytes % 2 ^ 32) k
  | .armed f q i b =>
    let s := s.completeKey (f, q, i) stOK b.len 0
    if b.doneEn then s.bumpCtr d b.doneIndex 1 else s
  | .staged page start table => s.stagedData d page start table b
  | .imported f q i => s.importData d (f, q, i) b

/-- Whether a queued packet belongs to message `msg` of the port `src`, as one of its sender's packets. -/
def QFrame.ofMsg (f : QFrame) (src msg : Nat) : Bool :=
  match f.pkt with
  | .nrt h _ => h.src == src && h.msg == msg && (h.typ == 1 || h.typ == 2 || h.typ == 3)
  | _ => false

/-- A message of the port ends with a status; packets of it that still wait are not sent (R356). -/
def State.finishTx (s : State) (d : Nat) (t : Tx) (status : Nat) : State :=
  let s := s.accrueAll d
  let s := s.modNrt d (fun n => { n with
    tx := n.tx.filter (fun x => x.msg != t.msg), rx := n.rx.filter (fun x => !(x.hdr.typ == 4 && x.hdr.msg == t.msg)) })
  let s := s.modLnk d (fun l => { l with
    tcs := tmap (fun _ q => { q with frames := q.frames.filter (fun f => !f.ofMsg t.hdr.src t.msg) }) l.tcs })
  let s := s.fset NRT_CTX_USED_CONTEXTS d (s.nrt d).rx.length
  s.txOutcome d t.use status t.bytes

/-- The timeouts in a row of a path of a peer cleared by an answer (R385). -/
def State.pathCalm (s : State) (d peer path : Nat) : State := s.modPeer d peer (fun p => { p with tmos := tdel p.tmos path })

/-! ### Answers at the receiver (R357, R362) -/

/-- An ACK or NAK of a message put in its queue: SRC_ID, MSG_ID and TOTAL_LEN are those of the message (R353). -/
def State.sendAnswer (s : State) (d : Nat) (v4 : Bool) (to_ : Nat) (h : NrtHdr) (status : Nat) (ce : Bool) : State :=
  let a : NrtHdr :=
    { h with typ := if status = stOK then 8 else 9, retx := false, fence := false, ceEcho := ce && status == stOK, path := 0,
             off := 0, status := status, key := 0, sigIndex := 0, addr := 0, sigAdd := 0, dep := 0 }
  s.enqueue d .control v4 to_ (.nrt a [])

/-- The address of a packet's source: IPv6, or IPv4 when even bit 128 is set. -/
def addrKey (v4 : Bool) (addr : Nat) : Nat := addr % 2 ^ 128 + (if v4 then 2 ^ 128 else 0)
def addrV4 (k : Nat) : Bool := decide (2 ^ 128 ≤ k)
def addrIp (k : Nat) : Nat := k % 2 ^ 128

/-- A message answered: the answer goes out and enters the filter, whose oldest entry leaves when it is full; the context
is freed (R357, R362) (DEDUCED, log entry 84). -/
def State.answer (s : State) (d : Nat) (x : Rx) (status : Nat) : State :=
  let s := s.sendAnswer d (addrV4 x.from_) (addrIp x.from_) x.hdr status x.ce
  let now := s.clk.tNs
  let e : Answered :=
    { src := x.hdr.src, msg := x.hdr.msg, from_ := x.from_, hdr := x.hdr, status := status, ce := x.ce, t := now,
      sentT := now, linger := x.linger, pathTmo := x.pathTmo }
  let full := decide (8192 ≤ (s.nrt d).filter.length)
  let s := s.modNrt d (fun n => { n with
    filter := (if full then n.filter.drop 1 else n.filter) ++ [e]
    rx := n.rx.filter (fun y => !(y.hdr.typ != 4 && y.hdr.src == x.hdr.src && y.hdr.msg == x.hdr.msg)) })
  let s := if full then s.fadd NRT_FILTER_EVICT_COUNT d 1 else s
  s.fset NRT_CTX_USED_CONTEXTS d (s.nrt d).rx.length

/-- An inbox entry that a failed message was filling goes FREE (R380). -/
def State.freeEntry (s : State) (d : Nat) (x : Rx) : State :=
  let e := keyEntry x.hdr.key
  let r := s.region d e
  if !r.inbox || r.st != .valid then s
  else
    let k := x.hdr.addr / 2 ^ r.entryLog2
    if tget r.ents k = some (.filling x.hdr.src x.hdr.msg) then s.modRegion d e (fun r => { r with ents := tdel r.ents k })
    else s

/-- A message fails at the receiver: one NAK, its signal never applied (R357, R367). -/
def State.failRx (s : State) (d : Nat) (x : Rx) (status : Nat) : State := (s.freeEntry d x).answer d x status

end Sys2Proof.Machine
end

