-- ==== Sys2Proof/Machine/Records.lean ====
section
/-!
DEFINITION. Sys2Proof/Machine/Records.lean: step records as read from their images (R113 to R115, R153, R175), and their
results as sent to a requester or a host (R119 to R123, R330, R382).
-/
namespace Sys2Proof.Machine

/-- One query row (R114). -/
def rowAt (c : Ctx) (b : List Byte) (off : Nat) : Pos :=
  if c.desc.qFmt = 0 then ⟨numsAt b off 2 c.d, []⟩ else ⟨numsAt b off 1 c.d, numsAt b (off + c.d) 1 (c.d / 32)⟩

/-- The 64 bytes of a step record (R113, R153). -/
def parseHead (b : List Byte) : StepRec :=
  let kind := numAt b 0 1
  let flags := numAt b 1 1
  let layer := numAt b 2 2
  let ctx := numAt b 8 2
  let forms := numAt b 29 1
  let extra := numAt b 30 2
  let list := flags / 8 % 2 == 1
  let sel := kind == 3
  let bwd := kind == 5
  let resv := decide (2 ^ 8 ≤ layer) || decide (2 ^ 12 ≤ ctx) || decide (16 ≤ forms) || decide (16 ≤ flags)
    || (list && !sel && !bwd) || (!sel && !bwd && extra != 0) || (bwd && decide (64 ≤ extra)) || (bwd && !list && extra != 0)
  { kind := kind, append := flags % 2 == 1, mask := flags / 2 % 4, list := list, layer := layer % 2 ^ 8,
    seq := numAt b 4 4, ctx := ctx % 2 ^ 12, qCount := numAt b 10 2, qPos := numAt b 12 4, kvFirst := numAt b 16 4,
    kvLast := numAt b 20 4, window := numAt b 24 4, appendCount := numAt b 28 1, out := forms % 4, stats := forms / 4 % 4,
    extra := extra, resultKey := numAt b 32 4, appendPos := numAt b 36 4, resultOff := numAt b 40 8,
    statusOff := numAt b 48 8, signal := numAt b 56 4, tag := numAt b 60 4, resv := resv,
    badLen := decide (b.length < 64), rows := [], dOut := [], rowStats := [], appToks := [], appData := [] }

/-- An inbox entry image read under a context: the step record, its query block and its append block; `badLen` when the
image is too short for them (R381) (DEDUCED, log entry 20). -/
def parseStep (c : Ctx) (b : List Byte) : StepRec :=
  let r := parseHead b
  let n := r.nRows c
  let bad := r.badLen || decide (b.length < r.entryBytes c) || decide (512 < r.qCount)
  if bad then { r with badLen := true }
  else
    let q := qRowBytes c
    let rows := (List.range n).map (fun i => rowAt c b (64 + q * i))
    let o1 := 64 + roundUp 64 (n * q)
    let o2 := o1 + roundUp 64 (n * 2 * c.d)
    let a := 64 + roundUp 64 (r.qBytes c)
    let a1 := a + roundUp 64 (4 * r.appendCount)
    { r with
      rows := rows
      dOut := if r.kind = 5 then (List.range n).map (fun i => numsAt b (o1 + 2 * c.d * i) 2 c.d) else []
      rowStats := if r.kind = 5 then (List.range n).map (fun i => (numAt b (o2 + 8 * i) 4, numAt b (o2 + 8 * i + 4) 4)) else []
      appToks := if r.append then numsAt b a 4 r.appendCount else []
      appData := if r.append then (List.range r.appendCount).map (fun i => numsAt b (a1 + c.posBytes * i) 2 c.elems) else [] }

/-- A record as it stands under the context it names, on its die. -/
def State.readStep (s : State) (d : Nat) (img : List Byte) : StepRec :=
  let r := parseHead img
  match s.dieCtx? d r.ctx with
  | some c => parseStep c img
  | none => r

/-- FLAGS of a status entry that are kept without an output block (R122). -/
def keepFlags (status flags : Nat) : Nat := if hasOutput status then flags else flags / 2 % 2 * 2

/-- The step status entry (R120) (DEDUCED, log entry 19). -/
def statusEntry (d : Nat) (h : Held) (status flags appSt lateness tick sweep : Nat) : List Byte :=
  le 1 status ++ le 1 (keepFlags status flags) ++ le 1 (min h.deferrals 255) ++ le 1 appSt ++ le 4 lateness ++ le 4 h.step.tag
    ++ le 4 h.step.seq ++ le 8 tick ++ le 4 sweep ++ le 1 h.step.layer ++ le 1 d ++ zeros 2

/-- A result dropped (R123). -/
def State.resDrop (s : State) (d : Nat) : State := (s.fadd CSM_RESDROP_COUNT d 1).evtDie CSM_EVENT_RESDROP d

/-- An inbox entry set to a state (R380). -/
def State.setEntry (s : State) (d e k : Nat) (st : InEnt) : State :=
  s.modRegion d e (fun r => { r with ents := dset r.ents .free k st })

/-- The inbox entry of a record goes to a state; that of a record rerun went with its die. -/
def State.setSrc (s : State) (d : Nat) (h : Held) (st : InEnt) : State :=
  match h.src with
  | .inbox e k _ => if h.recov.isSome then s else s.setEntry d e k st
  | .ring _ _ _ _ _ => s

/-- The peer through which a result of the record leaves: none when the die has no entry for the source address or its
port sends nothing (R382). -/
def State.resultPeer (s : State) (d from_ : Nat) : Option Nat :=
  if s.nrtReady d then (s.peerAt d (addrV4 from_) (addrIp from_)).map (·.1) else none

/-- Bytes of full copies that the ledger of a die keeps (R480). -/
def State.ledgerBytes (s : State) (d : Nat) : Nat :=
  let c := s.csm d
  let all := c.held ++ c.sweeps.flatMap (fun w => (w.recs.filter (fun r => !r.delivered)).map (·.held))
  sumNat (all.map (fun h => if h.copy = some true then h.img.length else 0))

/-- An inbox entry taken into the die's ledger: with a full copy while it fits, else its record alone (R480). -/
def State.ledgerIn (s : State) (d : Nat) (h : Held) : Held × State :=
  match h.src with
  | .ring _ _ _ _ _ => (h, s)
  | .inbox _ _ _ =>
    if s.fget RAS_DIE_STATE_LEDGER_DIE d = 0xFF ∨ s.fbit RAS_CTRL_LEDGER_EN 0 = false ∨ h.copy.isSome ∨ h.recov.isSome then (h, s)
    else
      let s1 := s.fset RAS_LEDGER_USED_ENTRIES d (s.fget RAS_LEDGER_USED_ENTRIES d + 1)
      if s.ledgerBytes d + h.img.length ≤ dget s.ras.ledgerMib 256 d * 2 ^ 20 then ({ h with copy := some true }, s1)
      else ({ h with copy := some false }, (s1.fadd RAS_LEDGER_SHORT_COUNT d 1).evtPkg RAS_EVENT_LEDGER_FULL)

/-- An entry leaves the ledger (R480). -/
def State.ledgerOut (s : State) (d : Nat) (h : Held) : State :=
  if h.copy.isSome then s.fset RAS_LEDGER_USED_ENTRIES d (s.fget RAS_LEDGER_USED_ENTRIES d - 1) else s

/-- The output block of a record sent: a remote write, or a host write (R330, R382). The MSG_ID of an NRT message comes
back, and whether the result was dropped because it has nowhere to go (R382). The record is number `i` of a sweep. -/
def State.sendOutput (s : State) (d sweep i : Nat) (h : Held) (out : List Byte) : Option Nat × Bool × State :=
  match h.src with
  | .inbox _ _ from_ =>
    match s.resultPeer d from_ with
    | none => (none, true, ((s.resDrop d).setSrc d h .free).ledgerOut d h)
    | some p =>
      let (m, s) := s.sendWrite d p h.step.resultKey h.step.resultOff none none out none (.output sweep i) .result
      (some m, false, s)
  | .ring f sq i output _ => (none, false, s.descWrite (f, sq, i) output out)

/-- The status entry of a record sent, and its completion through a ring (R330, R382). `out` is the MSG_ID of its output
message: the status message is then fenced behind it. -/
def State.sendStatus (s : State) (d : Nat) (h : Held) (out : Option Nat) (status lateness : Nat) (entry : List Byte) : State :=
  match h.src with
  | .inbox _ _ from_ =>
    let s := (s.setSrc d h .free).ledgerOut d h
    match s.resultPeer d from_ with
    | none => s.resDrop d
    | some p =>
      let roce := ((s.peer? d p).bind (·.qp)).isSome
      (s.sendWrite d p h.step.resultKey h.step.statusOff (some h.step.signal) (if roce then none else out) entry none .status
        .result).2
  | .ring f sq i _ addr =>
    (s.descWrite (f, sq, i) addr entry).completeKey (f, sq, i) status lateness h.step.tag

/-! ### Sillage records (R535 to R537) -/

/-- What a sillage record says of a record's sweep (R536): serial, instants of admission, start, first tile, last commit and
finalisation, scaled estimate, actual and stall cycles, records, and the counts of the record. -/
structure Trace where
  sweep : Nat
  times : List (Option Nat)
  est : Nat
  actual : Nat
  stall : Nat
  records : Nat
  reruns : Nat
  blocks : Nat
  skipped : Nat
  hits : Nat
  codedB : Nat
  rawB : Nat
  tick : Nat
deriving DecidableEq, Repr

/-- The trace of a record that entered no sweep: its sweep fields are 0. -/
def Trace.none_ : Trace := ⟨0, [none, none, none, none, none], 0, 0, 0, 0, 0, 0, 0, 0, 0, 0, 0⟩

/-- Bytes of a sillage record (R536). -/
def sillageBytes (serial d : Nat) (h : Held) (status flags lateness now : Nat) (w : Trace) : List Byte :=
  let delta (t : Option Nat) : List Byte :=
    match t with
    | some x => le 4 (min (x - h.tFirst) 0xFFFFFFFF)
    | none => le 4 0xFFFFFFFF
  le 4 serial ++ le 4 h.step.seq ++ le 4 h.step.tag ++ le 2 h.step.ctx ++ le 1 h.step.layer ++ le 1 h.step.kind ++ le 1 status
    ++ le 1 flags ++ le 1 d ++ le 1 (min h.deferrals 255) ++ le 4 w.sweep ++ le 8 h.tFirst
    ++ (([some h.tSig, if h.checked then some h.tElig else none] ++ w.times ++ [some now]).flatMap delta)
    ++ le 4 w.est ++ le 4 w.actual ++ le 4 w.stall ++ le 4 lateness ++ le 2 w.records ++ le 2 w.reruns ++ le 4 w.blocks
    ++ le 4 w.skipped ++ le 4 w.hits ++ le 4 w.codedB ++ le 4 w.rawB ++ le 8 w.tick ++ zeros 16

/-- A tagged record's sillage record written or dropped at its delivery (R536, R537). -/
def State.sillage (s : State) (d : Nat) (h : Held) (status flags lateness : Nat) (w : Trace) : State :=
  match s.owner d with
  | none => s
  | some p =>
    if !h.tagged || !s.fbit PMC_TRACE_EN p then s
    else
      let m := s.pmcOf p
      if s.fbit PMC_TRACE_STOP_FULL p ∧ 256 ≤ (m.traceWrite + 2 ^ 32 - m.traceRead) % 2 ^ 32 then
        (s.modPmc p (fun x => { x with traceDrops := min (x.traceDrops + 1) 0xFFFFFFFF })).evtPart PMC_PEVENT_TRACE_DROP p
      else
        let b := sillageBytes (m.traceWrite + 1) d h status flags lateness s.clk.tNs w
        s.modPmc p (fun x =>
          { x with ring := tput x.ring (x.traceWrite % 256) b, traceWrite := (x.traceWrite + 1) % 2 ^ 32 })

/-- What the monitors take of a result at its delivery (R527, R536, R540). -/
def State.noteResult (s : State) (d : Nat) (h : Held) (status flags lateness outBytes : Nat) (w : Trace) : State :=
  let s := (s.pmc d 0x0D 1 outBytes (some h.step.ctx)).hist d 2 0 (s.clk.tNs - h.tFirst)
  let s := if status = stLATE then s.pmc d 0x0C 1 lateness (some h.step.ctx) else s
  s.sillage d h status flags lateness w

/-- The next value of a tagging LFSR (R535) (DESIGN CHOICE, log entry 10). -/
def lfsrNext (v : Nat) : Nat :=
  if Config.lfsrRight then Nat.xor (v / 2) (if v % 2 = 1 then 0x80200003 else 0)
  else Nat.xor (v * 2 % 2 ^ 32) (if 2 ^ 31 ≤ v then 0x00400007 else 0)

/-- A record at the boundary at which it is first eligible: the LFSR advances, and the record is tagged or not (R530,
R535). -/
def State.tagRecord (s : State) (d p : Nat) : Bool × State :=
  if s.fget PMC_TAG_RATE p = 0 ∨ s.frozen p then (false, s)
  else
    let v := lfsrNext (dget (s.pmcOf p).lfsr 1 d)
    (decide (v % 65536 < s.fget PMC_TAG_RATE p), s.modPmc p (fun x => { x with lfsr := dset x.lfsr 1 d v }))

/-- A region poisoned for a record that fails (R183). -/
def State.poison (s : State) (d : Nat) (r : StepRec) : State :=
  if r.kind = 5 ∧ r.list then
    s.modCsm d (fun c => { c with grads := tmod c.grads r.extra (fun g =>
      if g.ctx = r.ctx ∧ g.seq = r.seq then { g with poisoned := true } else g) })
  else s

/-- A record that completes without entering a sweep: its status entry alone, LATENESS and TICK 0, and its append not
accepted (R49, R116, R122); a KV_GRAD record that ends so with INTEGRITY, FENCED or LOST poisons its region (R183). -/
def State.failHeld (s : State) (d : Nat) (h : Held) (status : Nat) : State :=
  let s := if status = stINTEGRITY ∨ status = stFENCED ∨ status = stLOST then s.poison d h.step else s
  (s.sendStatus d h none status 0 (statusEntry d h status 0 (if h.step.append then status else stOK) 0 0 0)).noteResult d h
    status 0 0 0 Trace.none_

/-- Whether the tick generator of the partition that owns a die runs (R34). -/
def State.genRuns (s : State) (d : Nat) : Bool := match s.owner d with | some p => (s.part p).genOn | none => false

/-- A step record becomes READY on a die: it is held for a slot boundary, or completes with NOT_READY while the tick
generator does not run (R32, R34). -/
def State.holdRecord (s : State) (d : Nat) (img : List Byte) (src : RecSrc) (tSig tFirst : Nat) : State :=
  let h : Held :=
    { img := img, step := s.readStep d img, src := src, tSig := tSig, deferrals := 0, checked := false, tagged := false,
      copy := none, tFirst := tFirst, tElig := 0, cutOff := false, recov := none }
  let (h, s) := s.ledgerIn d h
  if s.genRuns d then s.modCsm d (fun c => { c with held := c.held ++ [h] }) else s.failHeld d h stNOT_READY

end Sys2Proof.Machine
end

