-- ==== Sys2Proof/Machine/NrtRx.lean ====
section
/-!
DEFINITION. Sys2Proof/Machine/NrtRx.lean: packets received by NRT and by the RoCEv2 subset, and the timers of messages
(R356 to R367, R374, R379 to R386).
-/
namespace Sys2Proof.Machine

/-! ### Time with a gate open (R404) -/

/-- Open time of class `c` from the start of a cycle to `r` ns into it. -/
def openIn (c : Nat) : List (Nat × Nat) → Nat → Nat
  | [], _ => 0
  | e :: l, r =>
    let w := min r e.2
    (if e.1.testBit c then w else 0) + openIn c l (r - w)

/-- Time from `t0` to now during which the gate of a class is open on a port: the timers of R363 and R364 (R404). -/
def State.openNs (s : State) (d c t0 : Nat) : Nat :=
  let now := s.clk.tNs
  if c = 7 || !s.fbit LNK_SHUT_CTRL_EN d || s.fbit LNK_STATUS_SHUT_HELD d then now - t0
  else
    let l := (s.lnk d).shut
    let cy := max 1 l.cycle
    let upTo (t : Nat) : Nat := t / cy * openIn c l.entries cy + openIn c l.entries (t % cy)
    upTo now - upTo t0

/-! ### Checks (R367) -/

/-- Step 1 of R367 for a packet with `len` payload bytes: R352 to R354. `wf` says that the version is 1 and every Reserved
field is 0. A FENCE message is one packet long (R360) (DEDUCED, log entry 24). -/
def NrtHdr.ok (h : NrtHdr) (len : Nat) (wf : Bool) : Bool :=
  let S := 2 ^ h.segLog2
  wf && decide (h.path < 8) && decide (10 ≤ h.segLog2) && decide (h.segLog2 ≤ 13) && decide (1 ≤ h.paths) && decide (h.paths ≤ 8)
    && decide (1 ≤ h.total) && decide (h.total ≤ 2 ^ 24) && h.status == 0
    && (if h.typ = 3 then h.off == 0 && len == 0
        else (h.typ == 1 || h.typ == 2 || h.typ == 4) && h.off % S == 0 && decide (h.off < h.total) && len == min S (h.total - h.off))
    && (h.typ != 4 || h.key == 0) && (h.typ != 2 || decide (1 ≤ h.sigAdd)) && (!h.fence || decide (h.total ≤ S))

/-- Index of a packet. -/
def NrtHdr.idx (h : NrtHdr) : Nat := h.off / 2 ^ h.segLog2

/-- The fields of step 3 that a packet shares with its context. -/
def NrtHdr.same (a b : NrtHdr) : Bool :=
  a.typ == b.typ && a.fence == b.fence && a.segLog2 == b.segLog2 && a.paths == b.paths && a.total == b.total && a.key == b.key
    && a.addr == b.addr && a.sigIndex == b.sigIndex && a.sigAdd == b.sigAdd && a.dep == b.dep

/-- Steps 5 and 6 of R367 (R366, R370): whether the key admits the message. -/
def State.keyAdmits (s : State) (d : Nat) (h : NrtHdr) (roce : Bool) : Bool :=
  let r := s.region d (keyEntry h.key)
  let need := if h.typ = 3 then 1 else if h.typ = 1 then 2 else 6
  let need := if roce then need + 8 else need
  s.keyValid d h.key && (match s.owner d with | some p => s.sealed p | none => false)
    && (h.src &&& r.srcMask) == r.srcMatch && (r.rights &&& need) == need && decide (h.addr + h.total ≤ r.bytes)
    && (h.typ != 2 || r.inbox || (decide (r.ctrBase ≤ h.sigIndex) && decide (h.sigIndex < r.ctrBase + r.ctrCount)))

/-- Step 7 of R367: the rules of R379 for an INBOX key. -/
def State.inboxCheck (s : State) (d : Nat) (h : NrtHdr) (from_ : Nat) : Option Nat :=
  let r := s.region d (keyEntry h.key)
  if !r.inbox then none
  else
    let E := 2 ^ r.entryLog2
    if h.typ != 2 || h.sigIndex != 0 || h.sigAdd != 1 || h.fence then some stMALFORMED
    else if h.addr % E != 0 || decide (E < h.total) then some stMALFORMED
    else if (s.peerAt d (addrV4 from_) (addrIp from_)).isNone then some stACCESS
    else
      match tget r.ents (h.addr / E) with
      | none => none
      | some .free => none
      | some (.filling a b) => if a = h.src ∧ b = h.msg then none else some stNOT_READY
      | some _ => some stNOT_READY

/-- The status with which steps 5 to 7 fail a message, if they do. -/
def State.keyCheck (s : State) (d : Nat) (h : NrtHdr) (from_ : Nat) (roce : Bool) : Option Nat :=
  if s.keyAdmits d h roce then s.inboxCheck d h from_ else some stACCESS

/-- A failure counted: ACCESS adds to NRT_ACCESS, sets the event and is posted (R367, R385). -/
def State.noteFail (s : State) (d status key src : Nat) : State :=
  if status ≠ stACCESS then s
  else
    let s := (s.fadd NRT_ACCESS_COUNT d 1).evtDie NRT_EVENT_ACCESS d
    (s.modNrt d (fun n => { n with lastKey := key, lastSrc := src })).nrtOccur d 0x46 0

/-! ### Contexts (R361 to R363) -/

/-- Whether a context is that of a received write, of a message identity. -/
def Rx.isOf (x : Rx) (src msg : Nat) : Bool := x.hdr.typ != 4 && x.hdr.src == src && x.hdr.msg == msg

def State.setRx (s : State) (d : Nat) (x : Rx) : State :=
  s.modNrt d (fun n => { n with
    rx := n.rx.map (fun y => if y.hdr.typ = x.hdr.typ ∧ y.hdr.src = x.hdr.src ∧ y.hdr.msg = x.hdr.msg then x else y) })

/-- A new context for a message (R361), with the timeouts in force (R387). -/
def State.newRx (s : State) (d : Nat) (h : NrtHdr) (from_ cls : Nat) : Rx × State :=
  let x : Rx :=
    { hdr := h, from_ := from_, cover := [], arrivals := [], held := none, snackT := 0, ce := false, injected := false,
      cls := cls, pathTmo := max 1 (s.fget NRT_TMO_PATH_TMO d), linger := s.fget NRT_TMO2_LINGER d,
      holdTmo := s.fget NRT_TMO2_HOLD_TMO d }
  let s := s.modNrt d (fun n => { n with rx := n.rx ++ [x] })
  (x, s.fset NRT_CTX_USED_CONTEXTS d (s.nrt d).rx.length)

/-- Every byte of a message is covered: its signal is applied, then it is answered OK (R357, R359, R380). -/
def State.rxDone (s : State) (d : Nat) (x : Rx) : State :=
  let e := keyEntry x.hdr.key
  let r := s.region d e
  let s := s.fadd NRT_RX_MSGS_COUNT d 1
  if r.inbox then
    let k := x.hdr.addr / 2 ^ r.entryLog2
    let s := (s.setEntry d e k .ready).answer d x stOK
    s.holdRecord d (r.read x.hdr.addr x.hdr.total) (.inbox e k x.from_) s.clk.tNs
      (match x.arrivals with | a :: _ => a.2.2.2 | [] => s.clk.tNs)
  else
    let s := if x.hdr.typ = 2 then s.bumpCtr d x.hdr.sigIndex x.hdr.sigAdd else s
    s.answer d x stOK

/-- A packet's payload placed and its coverage bit set; the last one completes the message (R361, R367 step 8). -/
def State.rxPlace (s : State) (d : Nat) (x : Rx) (off : Nat) (p : List Byte) : State :=
  let s := s.modRegion d (keyEntry x.hdr.key) (fun r => r.write (x.hdr.addr + off) p)
  let x := { x with cover := insNat (off / 2 ^ x.hdr.segLog2) x.cover, held := none }
  let s := s.setRx d x
  if x.cover.length = x.hdr.count then s.rxDone d x else s

/-- The answer of a message, if the filter holds it. -/
def Nrt.answered? (n : Nrt) (src msg : Nat) : Option Answered := n.filter.find? (fun a => a.src == src && a.msg == msg)

/-- Whether a packet of a key that was checked before a revocation is still to be placed (R369). -/
def State.holdsKey (s : State) (d key : Nat) : Bool := (s.nrt d).rx.any (fun x => x.held.isSome && x.hdr.key == key)

/-- Whether a revocation is in progress: a KEY_REVOKE waits, or a region for its scrub (R369). -/
def State.revoking (s : State) (d : Nat) : Bool := (s.nrt d).keys.any (fun e => e.2.st == .dead) || !(s.nrt d).revokes.isEmpty

/-- KEY_REVOKE descriptors that wait for no placement any more complete (R369 step 3) (DEDUCED, log entry 140). -/
def State.settleRevokes (s : State) (d : Nat) : State :=
  let due := (s.nrt d).revokes.filter (fun r => !s.holdsKey d r.key)
  if due.isEmpty then s
  else
    let s := s.modNrt d (fun n => { n with revokes := n.revokes.filter (fun r => s.holdsKey d r.key) })
    let s := due.foldl (fun s r => s.completeKey (r.fn, r.sq, r.index) stOK r.r0 r.r1) s
    s.fput NRT_STATUS_REVOKING d (s.revoking d)

/-- Held FENCE messages whose dependency has been answered go on (R360): with OK they are placed, otherwise they fail with
the same status. -/
def State.releaseFences (s : State) (d : Nat) : Nat → State
  | 0 => s
  | n + 1 =>
    let due := (s.nrt d).rx.find? (fun x => x.held.isSome && ((s.nrt d).answered? x.hdr.src x.hdr.dep).isSome)
    match due with
    | none => s
    | some x =>
      let st := match (s.nrt d).answered? x.hdr.src x.hdr.dep with | some a => a.status | none => stOK
      let s := if st = stOK then s.rxPlace d x x.hdr.off (match x.held with | some h => h.1 | none => []) else s.failRx d x st
      s.releaseFences d n

/-- Every held FENCE message looked at again, and then the revocations that wait for them. -/
def State.fences (s : State) (d : Nat) : State := (s.releaseFences d ((s.nrt d).rx.length + 1)).settleRevokes d

/-- A packet of a message already answered: the answer is sent again, at most once per PATH_TMO (R362). -/
def State.answerAgain (s : State) (d : Nat) (a : Answered) : State :=
  let now := s.clk.tNs
  if now < a.sentT + a.pathTmo * 500 then s
  else
    let s := s.sendAnswer d (addrV4 a.from_) (addrIp a.from_) a.hdr a.status a.ce
    s.modNrt d (fun n => { n with
      filter := n.filter.map (fun b => if b.src = a.src ∧ b.msg = a.msg then { b with sentT := now } else b) })

/-- A packet that failed step 1 (R367). -/
def State.badHdr (s : State) (d : Nat) (h : NrtHdr) : State :=
  let s := (s.fadd NRT_MALFORMED_COUNT d 1).evtDie NRT_EVENT_MALFORMED d
  match (s.nrt d).rx.find? (·.isOf h.src h.msg) with
  | some x => (s.failRx d x stMALFORMED).fences d
  | none => s

/-- A message without a context, for its answer. -/
def State.bareRx (s : State) (d : Nat) (h : NrtHdr) (from_ : Nat) : Rx :=
  { hdr := h, from_ := from_, cover := [], arrivals := [], held := none, snackT := 0, ce := false, injected := false,
    cls := 0, pathTmo := max 1 (s.fget NRT_TMO_PATH_TMO d), linger := s.fget NRT_TMO2_LINGER d, holdTmo := 0 }

/-- A message that finds no context (R365). -/
def State.ctxFull (s : State) (d : Nat) (h : NrtHdr) (from_ : Nat) : State :=
  let s := ((s.fadd NRT_CTX_FULL_COUNT d 1).evtDie NRT_EVENT_CTX_FULL d).nrtOccur d 0x45 0
  s.answer d (s.bareRx d h from_) stNOT_READY

/-- Steps 4 to 8 of R367 for a packet of context `x`. -/
def State.rxChecked (s : State) (d : Nat) (x : Rx) (h : NrtHdr) (p : List Byte) : State :=
  let i := h.idx
  if x.cover.contains i || x.held.isSome then s.fadd NRT_DUPS_COUNT d 1
  else
    let x := { x with arrivals := x.arrivals ++ [(i, h.path, h.retx, s.clk.tNs)] }
    match s.keyCheck d h x.from_ false with
    | some st => (((s.setRx d x).noteFail d st h.key h.src).failRx d x st).fences d
    | none =>
      let r := s.region d (keyEntry h.key)
      let s := if r.inbox then s.setEntry d (keyEntry h.key) (h.addr / 2 ^ r.entryLog2) (.filling h.src h.msg) else s
      if (s.nrt d).inject then (s.setRx d { x with injected := true }).modNrt d (fun n => { n with inject := false })
      else if h.fence then ((s.setRx d { x with held := some (p, s.clk.tNs) })).fences d
      else (s.rxPlace d x h.off p).fences d

/-- A received WRITE or WRITE_SIG packet (R361, R367). `ce` says that it arrived marked CE; `cost` is its frame bytes for
the policers (R406, R407). -/
def State.rxWrite (s : State) (d : Nat) (h : NrtHdr) (p : List Byte) (from_ cls : Nat) (ce wf : Bool) (cost : Nat) : State :=
  if !h.ok p.length wf || !(h.typ == 1 || h.typ == 2) then s.badHdr d h
  else
    let (go, mark, s) := s.police d h.key cost
    if !go then s
    else
      match (s.nrt d).answered? h.src h.msg with
      | some a => s.answerAgain d a
      | none =>
        let ce := ce || mark
        match (s.nrt d).rx.find? (·.isOf h.src h.msg) with
        | some x =>
          let x := { x with ce := x.ce || ce }
          let s := s.setRx d x
          if x.hdr.same h then s.rxChecked d x h p else (s.failRx d x stMALFORMED).fences d
        | none =>
          if 1024 ≤ (s.nrt d).rx.length then s.ctxFull d h from_
          else
            let (x, s) := s.newRx d h from_ cls
            let x := { x with ce := ce }
            (s.setRx d x).rxChecked d x h p

/-! ### Remote reads (R358) -/

/-- A read fails: its NAK goes out and enters the filter, from which later packets of it are answered (R357, R367). -/
def State.nakRead (s : State) (d : Nat) (h : NrtHdr) (from_ status : Nat) : State :=
  (s.answer d (s.bareRx d h from_) status).fences d

/-- READ_RESP packets queued for the packet indices listed; the checks are run and the bytes read when each is sent (R358) (DEDUCED, log entry 25). -/
def State.servePkts (s : State) (d : Nat) (v : Serve) (retx : Bool) (idx : List Nat) : State :=
  let S := 2 ^ v.hdr.segLog2
  idx.foldl (fun s i =>
    let h : NrtHdr :=
      { v.hdr with typ := 4, retx := retx, fence := false, ceEcho := false,
                   path := (i + retx.toNat) % max 1 v.hdr.paths, off := i * S, status := 0, key := 0 }
    s.enqueue d (.as v.cls) (addrV4 v.from_) (addrIp v.from_) (.nrt h (zeros (min S (v.hdr.total - i * S))))) s

/-- The service of a read ends: its packets that still wait are not sent. -/
def State.endServe (s : State) (d src msg : Nat) : State :=
  let mine (f : QFrame) : Bool := match f.pkt with | .nrt h _ => h.typ == 4 && h.src == src && h.msg == msg | _ => false
  let s := s.accrueAll d
  let s := s.modLnk d (fun l => { l with tcs := tmap (fun _ q => { q with frames := q.frames.filter (fun f => !mine f) }) l.tcs })
  s.modNrt d (fun n => { n with serves := n.serves.filter (fun w => !(w.src == src && w.msg == msg)) })

/-- A frame about to be sent: a READ_RESP passes steps 5 to 7 of R367 again, and takes its bytes from memory; a check that fails ends the
service with a NAK (R358 items 3 and 4). None where the frame is not sent (DEDUCED, log entry 25; DEDUCED, log entry 142). -/
def State.readyFrame (s : State) (d : Nat) (f : QFrame) : Option QFrame × State :=
  match f.pkt with
  | .nrt h b =>
    if h.typ ≠ 4 then (some f, s)
    else
      match (s.nrt d).serves.find? (fun v => v.src == h.src && v.msg == h.msg) with
      | none => (none, s.endServe d h.src h.msg)
      | some v =>
        match s.keyCheck d v.hdr v.from_ false with
        | some st => (none, ((s.noteFail d st v.hdr.key v.src).endServe d h.src h.msg).nakRead d v.hdr v.from_ st)
        | none => (some { f with pkt := .nrt h ((s.region d (keyEntry v.hdr.key)).read (v.hdr.addr + h.off) b.length) }, s)
  | _ => (some f, s)

/-- Whether a READ_RESP of a read still waits to be sent. -/
def State.isServing (s : State) (d : Nat) (v : Serve) : Bool :=
  (s.lnk d).tcs.any (fun q => q.2.frames.any (fun f => match f.pkt with
    | .nrt h _ => h.typ == 4 && h.src == v.src && h.msg == v.msg
    | _ => false))

/-- Reads that are being served (R358). -/
def State.serving (s : State) (d : Nat) : Nat := ((s.nrt d).serves.filter (s.isServing d)).length

/-- A received READ_REQ (R358, R367) (DEDUCED, log entry 25). -/
def State.rxRead (s : State) (d : Nat) (h : NrtHdr) (from_ cls : Nat) (wf : Bool) (cost : Nat) : State :=
  if !h.ok 0 wf || h.typ != 3 then s.badHdr d h
  else
    let (go, _, s) := s.police d h.key cost
    if !go then s
    else
      match (s.nrt d).answered? h.src h.msg with
      | some a => s.answerAgain d a
      | none =>
        if 256 ≤ s.serving d then s.nakRead d h from_ stNOT_READY
        else
          match s.keyCheck d h from_ false with
          | some st => (s.noteFail d st h.key h.src).nakRead d h from_ st
          | none =>
            let v : Serve := ⟨h.src, h.msg, from_, h, cls, s.clk.tNs⟩
            let s := s.modNrt d (fun n => { n with
              serves := n.serves.filter (fun w => !(w.src == h.src && w.msg == h.msg)) ++ [v] })
            s.servePkts d v false (List.range (ceilDiv h.total (2 ^ h.segLog2)))

/-- A received READ_RESP of a read of this port (R358, R361): placed in the reader's region; the read completes when every
byte is covered. -/
def State.rxResp (s : State) (d : Nat) (h : NrtHdr) (p : List Byte) (from_ cls : Nat) (wf : Bool) : State :=
  let tx := (s.nrt d).tx.find? (fun t => t.hdr.typ == 3 && t.msg == h.msg && t.hdr.src == h.src)
  match tx with
  | none => if h.ok p.length wf then s else (s.fadd NRT_MALFORMED_COUNT d 1).evtDie NRT_EVENT_MALFORMED d
  | some t =>
    if !h.ok p.length wf || h.typ != 4 || h.total != t.hdr.total || h.segLog2 != t.hdr.segLog2 then
      (s.fadd NRT_MALFORMED_COUNT d 1).evtDie NRT_EVENT_MALFORMED d
    else
      let have_ := (s.nrt d).rx.find? (fun x => x.hdr.typ == 4 && x.hdr.msg == h.msg)
      let room := decide ((s.nrt d).rx.length < 1024)
      let start : Option (Rx × State) :=
        match have_ with
        | some x => some (x, s)
        | none => if room then some (s.newRx d h from_ cls) else none
      match start with
      | none => (s.fadd NRT_CTX_FULL_COUNT d 1).evtDie NRT_EVENT_CTX_FULL d
      | some (x, s) =>
        if x.cover.contains h.idx then s.fadd NRT_DUPS_COUNT d 1
        else
          let now := s.clk.tNs
          let s := s.modNrt d (fun n => { n with tx := n.tx.map (fun y => if y.msg = t.msg then { y with lastT := now } else y) })
          let x := { x with arrivals := x.arrivals ++ [(h.idx, h.path, h.retx, now)] }
          if (s.nrt d).inject then (s.setRx d { x with injected := true }).modNrt d (fun n => { n with inject := false })
          else
            let t := match t.from_ with | some _ => t | none => { t with bytes := putBytes t.bytes h.off p }
            let s := match t.from_ with
              | some (e, off) => s.modRegion d e (fun r => r.write (off + h.off) p)
              | none => s.modNrt d (fun n => { n with
                  tx := n.tx.map (fun (y : Tx) => if y.msg = t.msg then { y with bytes := t.bytes } else y) })
            let x := { x with cover := insNat h.idx x.cover }
            let s := s.setRx d x
            if x.cover.length = ceilDiv h.total (2 ^ h.segLog2) then (s.fadd NRT_RX_MSGS_COUNT d 1).finishTx d t stOK else s

/-! ### Answers and SNACKs at the sender (R356, R364, R374) -/

/-- A message of this port by an answer's identity. -/
def State.txOf (s : State) (d : Nat) (h : NrtHdr) : Option Tx :=
  (s.nrt d).tx.find? (fun t => t.msg == h.msg && t.hdr.src == h.src)

/-- A received ACK (R356, R374). -/
def State.rxAck (s : State) (d : Nat) (h : NrtHdr) : State :=
  match s.txOf d h with
  | none => s
  | some t =>
    if t.hdr.typ = 3 then s
    else
      let s := if h.ceEcho then s.rateFall d t.peer t.minRate else s
      (s.pathCalm d t.peer t.lastPath).finishTx d t stOK

/-- A received NAK (R356). -/
def State.rxNak (s : State) (d : Nat) (h : NrtHdr) : State :=
  match s.txOf d h with
  | none => s
  | some t => (s.pathCalm d t.peer t.lastPath).finishTx d t h.status

/-- Packet indices of the ranges of a SNACK. -/
def snackIdx (S n : Nat) (ranges : List (Nat × Nat)) : List Nat :=
  (List.range n).filter (fun i => ranges.any (fun r => decide (i * S < r.1 + r.2) && decide (r.1 < (i + 1) * S)))

/-- A received SNACK: the ranges are sent again and the rate falls (R358, R364, R374). -/
def State.rxSnack (s : State) (d : Nat) (h : NrtHdr) (ranges : List (Nat × Nat)) : State :=
  let s := s.fadd NRT_SNACKS_RX_COUNT d 1
  match s.txOf d h with
  | some t =>
    let idx := snackIdx (2 ^ t.hdr.segLog2) t.hdr.count ranges
    let s := s.modNrt d (fun n => { n with tx := n.tx.map (fun y => if y.msg = t.msg then { y with tmo := 0 } else y) })
    idx.foldl (fun s i => match s.txOf d h with | some t => s.resend d t i | none => s) (s.rateFall d t.peer t.minRate)
  | none =>
    match (s.nrt d).serves.find? (fun v => v.src == h.src && v.msg == h.msg) with
    | none => s
    | some v =>
      let idx := snackIdx (2 ^ v.hdr.segLog2) (ceilDiv v.hdr.total (2 ^ v.hdr.segLog2)) ranges
      let s := match s.peerAt d (addrV4 v.from_) (addrIp v.from_) with
        | some (i, _) => s.rateFall d i (s.fget NRT_RATE_MIN d)
        | none => s
      (s.fadd NRT_RETX_COUNT d idx.length).servePkts d v true idx

/-! ### Losses (R363) -/

/-- The instant from which a packet index counts as lost after PATH_TMO (R363). -/
def Rx.since (x : Rx) (i : Nat) : Nat :=
  let path := i % max 1 x.hdr.paths
  let on_ := x.arrivals.filter (fun a => a.2.1 == path && decide (i < a.1) && !a.2.2.1)
  let last (l : List (Nat × Nat × Bool × Nat)) : Nat := l.foldl (fun m a => max m a.2.2.2) 0
  if on_.isEmpty then last x.arrivals else min (last on_) (last x.arrivals)

/-- Indices merged to ranges of offset and length (R363). -/
def mergeIdx (S total : Nat) : List Nat → List (Nat × Nat)
  | [] => []
  | i :: l =>
    let len := min S (total - i * S)
    match mergeIdx S total l with
    | [] => [(i * S, len)]
    | r :: rs => if r.1 = (i + 1) * S then (i * S, len + r.2) :: rs else (i * S, len) :: r :: rs

/-- PATH_TMO passes on a context: a SNACK names the packets reported lost, at most once per PATH_TMO (R363). -/
def State.snack (s : State) (d : Nat) (x : Rx) : State :=
  let n := ceilDiv x.hdr.total (2 ^ x.hdr.segLog2)
  let tmo := x.pathTmo * 500
  let lost := (List.range n).filter (fun i => !x.cover.contains i && decide (tmo ≤ s.openNs d x.cls (x.since i)))
  if lost.isEmpty || x.held.isSome then s
  else if x.snackT ≠ 0 ∧ s.openNs d x.cls x.snackT < tmo then s
  else
    let ranges := (mergeIdx (2 ^ x.hdr.segLog2) x.hdr.total lost).take 16
    let h : NrtHdr :=
      { x.hdr with typ := 10, retx := false, fence := false, ceEcho := false, path := 0, off := 0, status := 0, key := 0,
                   sigIndex := 0, addr := 0, sigAdd := 0, dep := 0 }
    let body := ranges.flatMap (fun r => le 4 r.1 ++ le 4 r.2)
    let s := s.enqueue d .control (addrV4 x.from_) (addrIp x.from_) (.nrt h body)
    let s := (s.fadd NRT_SNACKS_TX_COUNT d 1).setRx d { x with snackT := s.clk.tNs, injected := false }
    if x.injected then s.evtDie NRT_EVENT_INJECT_SEEN d else s

/-! ### RoCEv2 (R383, R384) -/

def State.modQp (s : State) (d peer : Nat) (f : Qp → Qp) : State :=
  s.modPeer d peer (fun p => { p with qp := p.qp.map f })

/-- The peer whose queue pair has a number. -/
def State.qpPeer (s : State) (d qpn : Nat) : Option (Nat × Peer × Qp) :=
  match (s.nrt d).peers.find? (fun e => match e.2.qp with | some q => q.qpn == qpn | none => false) with
  | some (i, p) => p.qp.map (fun q => (i, p, q))
  | none => none

/-- A RoCEv2 packet sent to a peer. -/
def State.sendRoce (s : State) (d : Nat) (k : FKind) (p : Peer) (h : RoceHdr) (b : List Byte) : State :=
  s.enqueue d k p.v4 p.addr (.roce h b)

/-- Outcomes of work requests, in order. -/
def State.qpOutcomes (s : State) (d : Nat) (status : Nat) : List QpSend → State
  | [] => s
  | w :: l => (s.txOutcome d w.use status w.got).qpOutcomes d status l

/-- Whether a queued packet is a request of the queue pair `qpn` at an address. -/
def QFrame.ofQp (f : QFrame) (addr qpn : Nat) : Bool :=
  match f.pkt with
  | .roce h _ => f.addr == addr && h.qpn == qpn && !(h.op == .ack || h.op == .nak || h.op == .cnp)
  | _ => false

/-- The work of a queue pair dropped: its requests that still wait are not sent, and the inbox entry that a message was filling goes FREE
(R380). -/
def State.qpDrop (s : State) (d peer : Nat) (q : Qp) : State :=
  let s := s.accrueAll d
  let a := match s.peer? d peer with | some p => p.addr | none => 0
  let s := s.modLnk d (fun l => { l with tcs := tmap (fun _ c => { c with frames := c.frames.filter (fun f => !f.ofQp a q.remote) }) l.tcs })
  let s := match q.cur with
    | some (r, _) =>
      let e := keyEntry r.rkey
      let k := r.va / 2 ^ (s.region d e).entryLog2
      match tget (s.region d e).ents k with
      | some (.filling _ b) => if b = 2 ^ 32 + q.qpn then s.modRegion d e (fun x => { x with ents := tdel x.ents k }) else s
      | _ => s
    | none => s
  s.modQp d peer (fun q => { q with sends := [], cur := none })

/-- The queue pair enters the error state (R384): what it had sent fails, the first with `st` and the others with NOT_READY, and
ROCE_QP_ERROR is posted. -/
def State.qpError (s : State) (d peer : Nat) (q : Qp) (syn st : Nat) : State :=
  let s := (s.qpDrop d peer q).modQp d peer (fun q => { q with err := true })
  let s := (s.evtDie NRT_EVENT_ROCE_ERR d).dieEvent d 0x47 (le 2 peer ++ le 1 syn ++ zeros 1 ++ le 4 q.qpn)
  (s.qpOutcomes d st (q.sends.take 1)).qpOutcomes d stNOT_READY (q.sends.drop 1)

/-- The NRT form of a RoCEv2 message of queue pair `q`, for steps 5 to 7 (R384) (DEDUCED, log entry 27; DEDUCED, log entry 141). -/
def roceForm (p : Peer) (q : Qp) (h : RoceHdr) (typ imm : Nat) : NrtHdr :=
  { typ := typ, retx := false, fence := false, ceEcho := false, path := 0, segLog2 := 13, paths := 1, src := p.id, msg := 2 ^ 32 + q.qpn,
    total := h.len, off := 0, status := 0, key := h.rkey, sigIndex := imm, addr := h.va, sigAdd := 1, dep := 0 }

/-- NAK syndromes: sequence error, invalid request and remote access error (InfiniBand Architecture). -/
def synSeq : Nat := 0x60
def synInvalid : Nat := 0x61
def synAccess : Nat := 0x62

/-- A received WRITE packet of a queue pair: in sequence, within its RETH, and admitted by steps 5 to 7; the last one
signals, and is acknowledged (R383, R384). -/
def State.roceWrite (s : State) (d i : Nat) (p : Peer) (q : Qp) (h : RoceHdr) (b : List Byte) : State :=
  let first := h.op == .wFirst || h.op == .wOnly || h.op == .wOnlyImm
  let last := h.op == .wLast || h.op == .wOnly || h.op == .wLastImm || h.op == .wOnlyImm
  let imm := h.op == .wLastImm || h.op == .wOnlyImm
  let reth := if first then some (h, 0) else q.cur
  let nak (s : State) (syn : Nat) : State :=
    let s := s.sendRoce d .control p ⟨.nak, q.remote, h.psn, 0, 0, 0, 0, syn⟩ []
    s.qpError d i q syn stNOT_READY
  match reth with
  | none => nak s synInvalid
  | some (r, done) =>
    if (first && q.cur.isSome) || decide (r.len < done + b.length) || (last && done + b.length != r.len)
        || (!last && b.length != 2 ^ q.mtu) then nak s synInvalid
    else
      let from_ := addrKey p.v4 p.addr
      let t0 := if done = 0 then s.clk.tNs else q.curT
      let x := s.region d (keyEntry r.rkey)
      -- a message into an INBOX is a write with immediate from its first packet on (R384)
      let f := roceForm p q r (if imm || (!last && x.inbox) then 2 else 1) (if imm then h.imm else if x.inbox then 0 else h.imm)
      match s.keyCheck d f from_ true with
      | some st =>
        let s := s.noteFail d st r.rkey p.id
        nak s (if st = stMALFORMED then synInvalid else synAccess)
      | none =>
        let e := keyEntry r.rkey
        let s := s.modRegion d e (fun x => x.write (r.va + done) b)
        let s := if x.inbox then s.setEntry d e (r.va / 2 ^ x.entryLog2) (.filling f.src f.msg) else s
        let s := s.modQp d i (fun q => { q with
          recvPsn := (q.recvPsn + 1) % 2 ^ 24, cur := if last then none else some (r, done + b.length),
          curT := if done = 0 then s.clk.tNs else q.curT })
        if !last then s
        else
          let s := s.fadd NRT_RX_MSGS_COUNT d 1
          let x := s.region d e
          let ackNow (s : State) : State := s.sendRoce d .control p ⟨.ack, q.remote, h.psn, 0, 0, 0, 0, 0⟩ []
          if imm && x.inbox then
            let k := r.va / 2 ^ x.entryLog2
            let s := ackNow (s.setEntry d e k .ready)
            s.holdRecord d (x.read r.va r.len) (.inbox e k from_) s.clk.tNs t0
          else if imm then ackNow (s.bumpCtr d h.imm 1)
          else ackNow s

/-- A received READ Request of a queue pair (R383, R384): its bytes go back in READ Responses. One that comes `again` moves no sequence
number. -/
def State.roceRead (s : State) (d i : Nat) (p : Peer) (q : Qp) (h : RoceHdr) (cls : Nat) (again : Bool) : State :=
  match s.keyCheck d (roceForm p q h 3 0) (addrKey p.v4 p.addr) true with
  | some st =>
    let s := s.noteFail d st h.rkey p.id
    let syn := if st = stMALFORMED then synInvalid else synAccess
    (s.sendRoce d .control p ⟨.nak, q.remote, h.psn, 0, 0, 0, 0, syn⟩ []).qpError d i q syn stNOT_READY
  | none =>
    let bytes := (s.region d (keyEntry h.rkey)).read h.va h.len
    let parts := groupsOf (2 ^ q.mtu) bytes.length bytes
    let n := parts.length
    let s := if again then s else s.modQp d i (fun q => { q with recvPsn := (q.recvPsn + n) % 2 ^ 24 })
    ((List.range n).zip parts).foldl (fun s e =>
      let op := if n = 1 then .rOnly else if e.1 = 0 then .rFirst else if e.1 + 1 = n then .rLast else .rMiddle
      s.sendRoce d (.as cls) p ⟨op, q.remote, (h.psn + e.1) % 2 ^ 24, 0, 0, 0, 0, 0⟩ e.2) s

/-- Whether PSN `a` is at or after `b` within half the space. -/
def psnLe (b a : Nat) : Bool := decide ((a + 2 ^ 24 - b) % 2 ^ 24 < 2 ^ 23)

/-- Last PSN of a work request. -/
def QpSend.lastPsn (w : QpSend) : Nat := match w.pkts.getLast? with | some (h, _) => h.psn | none => 0

def QpSend.isRead (w : QpSend) : Bool := w.pkts.any (fun e => e.1.op == .rReq)

/-- Writes of a queue pair whose packets are all acknowledged complete with OK: those before the first read that have `done` (R356, R383). -/
def State.qpAcked (s : State) (d i : Nat) (q : Qp) (done : QpSend → Bool) : State :=
  let l := q.sends.takeWhile (fun w => !w.isRead && done w)
  let s := s.modQp d i (fun q => { q with sends := q.sends.drop l.length, tmo := 0, lastT := s.clk.tNs })
  s.qpOutcomes d stOK l

/-- A received Acknowledge: writes up to its PSN complete with OK (R356, R383). -/
def State.roceAck (s : State) (d i : Nat) (q : Qp) (h : RoceHdr) : State := s.qpAcked d i q (fun w => psnLe w.lastPsn h.psn)

/-- Every unacknowledged packet of a queue pair sent again: go-back-N (R383). -/
def State.goBack (s : State) (d i : Nat) : State :=
  match s.peer? d i with
  | none => s
  | some p =>
    match p.qp with
    | none => s
    | some q =>
      let s := s.modQp d i (fun q => { q with lastT := s.clk.tNs })
      q.sends.foldl (fun s w => w.pkts.foldl (fun s e =>
        (s.fadd NRT_RETX_COUNT d 1).sendRoce d w.kind p e.1 e.2) s) s

/-- A received NAK of a queue pair: a sequence error acknowledges what came before its PSN and sends the rest again; another one is an
error of the queue pair, and its first request fails with ACCESS or MALFORMED (R383, R384). -/
def State.roceNak (s : State) (d i : Nat) (q : Qp) (h : RoceHdr) : State :=
  if h.syn = synSeq then (s.qpAcked d i q (fun w => !psnLe h.psn w.lastPsn)).goBack d i
  else s.qpError d i q h.syn (if h.syn = synInvalid then stMALFORMED else stACCESS)

/-- The next response packet of the read at the head of a queue pair: placed in the reader's region; the last one completes the read. -/
def State.readPart (s : State) (d i : Nat) (q : Qp) (w : QpSend) (off : Nat) (b : List Byte) : State :=
  let s := match w.from_ with
    | some (e, o) => s.modRegion d e (fun r => r.write (o + off) b)
    | none => s
  let w := { w with got := if w.from_.isNone then putBytes w.got off b else w.got, next := w.next + 1 }
  let s := s.modQp d i (fun q => { q with lastT := s.clk.tNs, tmo := 0, sends := w :: q.sends.drop 1 })
  if w.next = w.psns q.mtu then
    let s := s.modQp d i (fun q => { q with sends := q.sends.drop 1 })
    (s.fadd NRT_RX_MSGS_COUNT d 1).txOutcome d w.use stOK w.got
  else s

/-- A received READ Response: it acknowledges the writes before the read. A packet that came before is dropped, and one that comes
early sends the read again (R383). -/
def State.roceResp (s : State) (d i : Nat) (q : Qp) (h : RoceHdr) (b : List Byte) : State :=
  match (q.sends.dropWhile (fun w => !w.isRead)).head? with
  | none => s
  | some w =>
    match w.pkts.head? with
    | none => s
    | some (rq, _) =>
      let k := (h.psn + 2 ^ 24 - rq.psn) % 2 ^ 24
      if w.psns q.mtu ≤ k ∨ k < w.next then s
      else
        let s := s.qpAcked d i q (fun _ => true)
        if k ≠ w.next ∨ b.length ≠ min (2 ^ q.mtu) (rq.len - k * 2 ^ q.mtu) then s.goBack d i
        else s.readPart d i q w (k * 2 ^ q.mtu) b

/-- A received RoCEv2 packet (R383, R384): packets of a queue pair in the error state, unsupported operations and unknown
queue pairs go no further. -/
def State.rxRoce (s : State) (d : Nat) (h : RoceHdr) (b : List Byte) (cls : Nat) (ce icrcOk : Bool) (cost : Nat) : State :=
  if !icrcOk || !s.fbit NRT_CTRL_ROCE_EN d then s
  else
    match s.qpPeer d h.qpn with
    | none => s
    | some (i, p, q) =>
      if q.err then s
      else
        let req := h.op == .wFirst || h.op == .wMiddle || h.op == .wLast || h.op == .wOnly || h.op == .wLastImm
          || h.op == .wOnlyImm || h.op == .rReq
        let rkey := match q.cur with | some (r, _) => if h.op == .wMiddle || h.op == .wLast || h.op == .wLastImm then r.rkey else h.rkey | none => h.rkey
        let (go, mark, s) := if req then s.police d rkey cost else (true, false, s)
        if !go then s
        else
          let s := if ce || mark then s.sendRoce d .control p ⟨.cnp, q.remote, 0, 0, 0, 0, 0, 0⟩ [] else s
          match h.op with
          | .ack => s.roceAck d i q h
          | .nak => s.roceNak d i q h
          | .cnp => s.rateFall d i (s.fget NRT_RATE_MIN d)
          | .rFirst | .rMiddle | .rLast | .rOnly => s.roceResp d i q h b
          | .other =>
            (s.sendRoce d .control p ⟨.nak, q.remote, h.psn, 0, 0, 0, 0, synInvalid⟩ []).qpError d i q synInvalid stNOT_READY
          | _ =>
            if h.psn = q.recvPsn then
              if h.op == .rReq then s.roceRead d i p q h cls false else s.roceWrite d i p q h b
            else if psnLe q.recvPsn h.psn then
              s.sendRoce d .control p ⟨.nak, q.remote, q.recvPsn, 0, 0, 0, 0, synSeq⟩ []
            else if h.op == .rReq then (s.fadd NRT_DUPS_COUNT d 1).roceRead d i p q h cls true
            else
              (s.fadd NRT_DUPS_COUNT d 1).sendRoce d .control p ⟨.ack, q.remote, (q.recvPsn + 2 ^ 24 - 1) % 2 ^ 24, 0, 0, 0, 0, 0⟩ []

/-! ### The commands -/

/-- A packet that reaches a READY port: counted, then handled (R351, R386). A packet whose UDP checksum fails is
dropped. -/
def State.rxPacket (s : State) (d t : Nat) (sum : UdpSum) (v4 : Bool) (p : Packet) (go : State → State) : State :=
  let s := s.advanceTo t
  if !s.nrtReady d || !sum.ok v4 then s
  else go ((s.fadd NRT_RX_PKTS_COUNT d 1).pmc d 0x15 1 (s.frameBytes d v4 p) none)

/-- A packet that reaches the port by its own command: its frame counts in the receive window (R538). -/
def State.rxDirect (s : State) (d t : Nat) (sum : UdpSum) (v4 : Bool) (p : Packet) (go : State → State) : State :=
  (s.bw d 1 (s.frameBytes d v4 p)).rxPacket d t sum v4 p go

/-- Whether the message that an answer names went to an IPv4 address. -/
def State.answerV4 (s : State) (d : Nat) (h : NrtHdr) : Bool :=
  match (s.nrt d).tx.find? (fun x => x.msg == h.msg) with
  | some x => (match tget (s.nrt d).peers x.peer with | some p => p.v4 | none => false)
  | none => false

/-- NRT_DATA_PACKET_RX (R361, R367). -/
def execNrtDataPacketRx (d : Nat) (h : NrtHdr) (p : List Byte) (v4 : Bool) (addr dscp : Nat) (ce wf : Bool) (sum : UdpSum) (t : Nat)
    (s : State) : Host.Outcome State Fault Refusal :=
  .next (s.rxDirect d t sum v4 (.nrt h p) (fun s =>
    s.rxWrite d h p (addrKey v4 addr) (s.classOfDscp d dscp) ce wf (s.frameBytes d v4 (.nrt h p))))

/-- READ_REQ_RX (R358, R367). -/
def execReadReqRx (d : Nat) (h : NrtHdr) (v4 : Bool) (addr dscp : Nat) (wf : Bool) (sum : UdpSum) (t : Nat) (s : State) :
    Host.Outcome State Fault Refusal :=
  .next (s.rxDirect d t sum v4 (.nrt h []) (fun s =>
    s.rxRead d h (addrKey v4 addr) (s.classOfDscp d dscp) wf (s.frameBytes d v4 (.nrt h []))))

/-- READ_RESP_RX (R358). -/
def execReadRespRx (d : Nat) (h : NrtHdr) (p : List Byte) (v4 : Bool) (addr dscp : Nat) (wf : Bool) (sum : UdpSum) (t : Nat) (s : State) :
    Host.Outcome State Fault Refusal :=
  .next (s.rxDirect d t sum v4 (.nrt h p) (fun s => s.rxResp d h p (addrKey v4 addr) (s.classOfDscp d dscp) wf))

/-- ACK_RX (R356). -/
def execAckRx (d : Nat) (h : NrtHdr) (wf : Bool) (sum : UdpSum) (t : Nat) (s : State) : Host.Outcome State Fault Refusal :=
  .next (s.rxDirect d t sum (s.answerV4 d h) (.nrt h []) (fun s => if wf then s.rxAck d h else (s.fadd NRT_MALFORMED_COUNT d 1).evtDie NRT_EVENT_MALFORMED d))

/-- NAK_RX (R356). -/
def execNakRx (d : Nat) (h : NrtHdr) (wf : Bool) (sum : UdpSum) (t : Nat) (s : State) : Host.Outcome State Fault Refusal :=
  .next (s.rxDirect d t sum (s.answerV4 d h) (.nrt h []) (fun s => if wf then s.rxNak d h else (s.fadd NRT_MALFORMED_COUNT d 1).evtDie NRT_EVENT_MALFORMED d))

/-- SNACK_RX (R358, R364): 1 to 16 ranges (R353). -/
def execSnackRx (d : Nat) (h : NrtHdr) (ranges : List (Nat × Nat)) (wf : Bool) (sum : UdpSum) (t : Nat) (s : State) :
    Host.Outcome State Fault Refusal :=
  .next (s.rxDirect d t sum (s.answerV4 d h) (.nrt h (zeros (8 * ranges.length))) (fun s =>
    if wf && decide (1 ≤ ranges.length) && decide (ranges.length ≤ 16) then s.rxSnack d h ranges
    else (s.fadd NRT_MALFORMED_COUNT d 1).evtDie NRT_EVENT_MALFORMED d))

/-- PATH_TMO_EXPIRY of a context, of a received write or of a read of this port (R363). -/
def execPathTmoExpiry (d src msg : Nat) (read : Bool) (t : Nat) (s : State) : Host.Outcome State Fault Refusal :=
  let s := s.advanceTo t
  match (s.nrt d).rx.find? (fun x => (x.hdr.typ == 4) == read && x.hdr.src == src && x.hdr.msg == msg) with
  | none => .next s
  | some x => .next (s.snack d x)

/-- A message that got no answer RETRY times in a row ends with NOT_READY (R364). -/
def State.unreach (s : State) (d peer : Nat) : State :=
  ((s.fadd NRT_UNREACH_COUNT d 1).evtDie NRT_EVENT_UNREACH d).nrtOccur d 0x43 peer

/-- A timeout on a path of a peer; RETRY in a row leave the path out of spraying (R385). -/
def State.pathTimeout (s : State) (d peer path retry : Nat) : State :=
  match s.peer? d peer with
  | none => s
  | some p =>
    let n := dget p.tmos 0 path + 1
    if n < retry then s.modPeer d peer (fun p => { p with tmos := dset p.tmos 0 path n })
    else
      let s := s.modPeer d peer (fun p => { p with tmos := tdel p.tmos path, down := tput p.down path s.clk.tNs })
      (s.evtDie NRT_EVENT_PATH_DOWN d).dieEvent d 0x41 (le 2 peer ++ le 1 path)

/-- ACK_TMO_EXPIRY of a message, or of the queue pair of peer `id` (R364, R383) (DEDUCED, log entry 21). -/
def execAckTmoExpiry (d : Nat) (roce : Bool) (id t : Nat) (s : State) : Host.Outcome State Fault Refusal :=
  let s := s.advanceTo t
  if roce then
    match (s.peer? d id).bind (·.qp) with
    | none => .next s
    | some q =>
      if q.sends.isEmpty || q.err || decide (s.clk.tNs < q.lastT + s.fget NRT_TMO_ACK_TMO d * 1000) then .next s
      else if 7 ≤ q.tmo then .next ((s.qpError d id q 0 stNOT_READY).unreach d id)
      else .next ((s.modQp d id (fun q => { q with tmo := q.tmo + 1 })).goBack d id)
  else
    match (s.nrt d).tx.find? (fun x => x.msg == id) with
    | none => .next s
    | some x =>
      if s.openNs d (s.classOf d x.kind) x.lastT < x.ackTmo then .next s
      else
        let s := s.pathTimeout d x.peer x.lastPath x.retry
        if x.retry ≤ x.tmo + 1 then .next ((s.finishTx d x stNOT_READY).unreach d x.peer)
        else
          let s := s.modNrt d (fun n => { n with tx := n.tx.map (fun y => if y.msg = x.msg then { y with tmo := y.tmo + 1 } else y) })
          .next (s.resend d x (x.hdr.count - 1))

/-- HOLD_TMO_EXPIRY of a held FENCE message (R360). -/
def execHoldTmoExpiry (d src msg t : Nat) (s : State) : Host.Outcome State Fault Refusal :=
  let s := s.advanceTo t
  match (s.nrt d).rx.find? (fun x => x.isOf src msg && x.held.isSome) with
  | none => .next s
  | some x =>
    match x.held with
    | none => .next s
    | some (_, t0) => if s.clk.tNs < t0 + x.holdTmo * 1000 then .next s else .next ((s.failRx d x stNOT_READY).fences d)

/-- LINGER_EXPIRY: answered messages older than LINGER leave the filter, and reads served before then are forgotten
(R362). -/
def execLingerExpiry (d t : Nat) (s : State) : Host.Outcome State Fault Refusal :=
  let s := s.advanceTo t
  let now := s.clk.tNs
  let linger := s.fget NRT_TMO2_LINGER d
  .next (s.modNrt d (fun n => { n with
    filter := n.filter.filter (fun a => decide (now < a.t + a.linger * 1000))
    serves := n.serves.filter (fun v => decide (now < v.t + linger * 1000) || s.isServing d v) }))

/-- RATE_STEP_TIMER: 20 µs without congestion raise a peer's rate by STEP, up to MAX (R374). -/
def execRateStepTimer (d peer t : Nat) (s : State) : Host.Outcome State Fault Refusal :=
  let s := s.advanceTo t
  match s.peer? d peer with
  | none => .next s
  | some p =>
    if s.clk.tNs < p.calmT + 20000 then .next s
    else
      .next (s.modPeer d peer (fun p => { p with
        calmT := s.clk.tNs
        rate := min (s.fget NRT_RATE_MAX d * 1000000) (p.rate + s.fget NRT_RATE_STEP d * 1000000) }))

/-- PATH_UP: a path left out for 1 ms returns (R385). -/
def execPathUp (d peer path t : Nat) (s : State) : Host.Outcome State Fault Refusal :=
  let s := s.advanceTo t
  match (s.peer? d peer).bind (fun p => tget p.down path) with
  | none => .next s
  | some t0 =>
    if s.clk.tNs < t0 + 1000000 then .next s
    else .next ((s.modPeer d peer (fun p => { p with down := tdel p.down path })).dieEvent d 0x42 (le 2 peer ++ le 1 path))

/-- ROCE_PACKET_RX (R383, R384). -/
def execRocePacketRx (d : Nat) (h : RoceHdr) (b : List Byte) (v4 : Bool) (dscp : Nat) (ce icrcOk : Bool) (t : Nat) (s : State) :
    Host.Outcome State Fault Refusal :=
  .next (s.rxDirect d t .good v4 (.roce h b) (fun s => s.rxRoce d h b (s.classOfDscp d dscp) ce icrcOk (s.frameBytes d v4 (.roce h b))))

/-- NRT_INJECT (R386). -/
def execNrtInject (d : Nat) (via : Via) (s : State) : Host.Outcome State Fault Refusal :=
  .next (regWrite via (NRT_CTRL_INJECT.at_ d) s (fun s =>
    if s.shadowed d then s else s.modNrt d (fun n => { n with inject := true })))

end Sys2Proof.Machine
end

