-- ==== Sys2Proof/Machine/NrtKeys.lean ====
section
/-!
DEFINITION. Sys2Proof/Machine/NrtKeys.lean: region keys, peers, remote keys, counters, waits and armed requests as
descriptors (R368 to R378).
-/
namespace Sys2Proof.Machine

/-- Entries of the INBOX regions of a die (R368). -/
def State.inboxEntries (s : State) (d : Nat) : Nat :=
  sumNat ((s.nrt d).keys.map (fun e => if e.2.st ≠ .free ∧ e.2.inbox then e.2.bytes / 2 ^ e.2.entryLog2 else 0))

/-- Whether the fields of a KEY_REGISTER are in range (R368). -/
def KeyBody.ok (b : KeyBody) : Bool :=
  decide (b.rights < 16) && decide (b.entry < 2 ^ 21) && decide (b.ctrBase < 65536) && decide (b.ctrBase + b.ctrCount ≤ 65536)
    && (if b.inbox then
          decide (16 ≤ b.entryLog2) && decide (b.entryLog2 ≤ 24) && b.bytes % 2 ^ b.entryLog2 == 0 && decide (1 ≤ b.bytes)
            && b.rights % 8 == 6 && b.ctrCount == 0
        else
          b.entryLog2 == 0 && b.bytes % 4096 == 0 && decide (4096 ≤ b.bytes) && decide (b.bytes ≤ 2 ^ 34))

/-- Entries of a die's key table that are not FREE, in order. -/
def Nrt.takenKeys (n : Nrt) : List Nat := (n.keys.filter (fun e => e.2.st != .free)).map (·.1)

/-- KEY_REGISTER (R366, R368) (DEDUCED, log entry 92). -/
def execKeyRegister (q : Desc) (b : KeyBody) (s : State) : Host.Outcome State Fault Refusal :=
  .next (runDesc q 0x50 (b.ctx + b.inbox.toNat * 2 ^ 16 + b.rights * 2 ^ 24 + b.entry * 2 ^ 32) s (fun s =>
    match s.ctx? q.part b.ctx with
    | none => s.fail q stMALFORMED
    | some c =>
      let d := c.home
      if !b.ok || c.destroying.isSome then s.fail q stMALFORMED
      else if s.dieDown d then s.fail q stFENCED
      else if b.entry ≠ 0 ∧ (s.region d b.entry).st ≠ .free then s.fail q stMALFORMED
      else
        let e := if b.entry ≠ 0 then b.entry else nthFree (s.nrt d).takenKeys 1 0
        if 2 ^ 21 ≤ e then s.fail q stQUOTA
        else if b.inbox && decide (8192 < s.inboxEntries d + b.bytes / 2 ^ b.entryLog2) then s.fail q stQUOTA
        else
          let n := ceilDiv b.bytes 4096
          match s.ctxSegs d b.ctx n with
          | .error x => let (st, s) := s.allocStatus d x; s.fail q st
          | .ok (segs, s) =>
            let gen := (s.region d e).gen
            let s := s.modRegion d e (fun _ =>
              { st := .valid, gen := gen, inbox := b.inbox, ctx := b.ctx, rights := b.rights, bytes := b.bytes,
                entryLog2 := b.entryLog2, srcMatch := b.srcMatch, srcMask := b.srcMask, ctrBase := b.ctrBase,
                ctrCount := b.ctrCount, segs := segs, data := [], ents := [], old := 0 })
            s.complete q stOK (keyOfEntry d e (s.entryGen d e)) n))

/-- Whether a work request takes its bytes from a region, or brings them there. -/
def QpSend.usesRegion (w : QpSend) (e : Nat) : Bool := match w.from_ with | some (r, _) => r == e | none => false

/-- Work requests of a queue pair with a revoked region end with REVOKED; its packet sequence cannot go on without them, and so the
queue pair enters the error state and the others fail with NOT_READY. -/
def State.qpRevoke (s : State) (d peer : Nat) (q : Qp) (e : Nat) : State :=
  let s := s.qpDrop d peer q
  let s := q.sends.foldl (fun s w => s.txOutcome d w.use (if w.usesRegion e then stREVOKED else stNOT_READY) w.got) s
  (s.modQp d peer (fun q => { q with sends := [] })).qpError d peer { q with sends := [], cur := none } 0 stNOT_READY

/-- The messages of a die whose local bytes are those of a region end with REVOKED (R356). -/
def State.revokeTx (s : State) (d e : Nat) : State :=
  let mine := (s.nrt d).tx.filter (fun t => match t.from_ with | some (r, _) => r == e | none => false)
  let s := mine.foldl (fun s t => s.finishTx d t stREVOKED) s
  let s := (s.nrt d).peers.foldl (fun s x => match x.2.qp with
    | some q => if q.sends.any (·.usesRegion e) then s.qpRevoke d x.1 q e else s
    | none => s) s
  let arm := (s.nrt d).armed.filter (fun a => keyEntry a.body.localKey == e)
  let s := s.modNrt d (fun n => { n with armed := n.armed.filter (fun a => keyEntry a.body.localKey != e) })
  arm.foldl (fun s a => s.completeKey (a.fn, a.sq, a.index) stREVOKED 0 0) s

/-- The revocation of a valid key (R369). But for a held FENCE packet a packet is checked and placed as one act (DEDUCED, log entry 23; DEDUCED, log entry 140). -/
def State.revokeKey (s : State) (d key : Nat) (keep : Bool) : State :=
  let e := keyEntry key
  let s := s.modRegion d e (fun r =>
    { r with gen := (r.gen + 1) % 256, st := if keep then .valid else .dead, old := if keep then 0 else key })
  let s := s.revokeTx d e
  s.fput NRT_STATUS_REVOKING d (s.revoking d)

/-- KEY_REVOKE (R369) (DEDUCED, log entry 23; DEDUCED, log entry 140). -/
def execKeyRevoke (q : Desc) (key : Nat) (keep : Bool) (s : State) : Host.Outcome State Fault Refusal :=
  .next (runDesc q 0x51 (key + keep.toNat * 2 ^ 32) s (fun s =>
    let d := keyDie key
    let e := keyEntry key
    if !(s.diesOf q.part).contains d then s.fail q stMALFORMED
    else if s.dieDown d then s.fail q stFENCED
    else if !s.keyValid d key then s.fail q stMALFORMED
    else
      let s := s.revokeKey d key keep
      -- the descriptor waits for the placement of packets checked before this instant (step 3)
      let w : RevokeWait := ⟨q.fn, q.sq, q.index, key, keyOfEntry d e (s.entryGen d e), s.clk.tNs % 2 ^ 32⟩
      let s := s.modNrt d (fun n => { n with revokes := n.revokes ++ [w] })
      (s.fput NRT_STATUS_REVOKING d (s.revoking d)).settleRevokes d))

/-- KEY_SCRUBBED (R369): the region is zero, its segments go to limbo, the entry is FREE with its generation kept (DEDUCED, log entry 23). -/
def execKeyScrubbed (d entry : Nat) (s : State) : Host.Outcome State Fault Refusal :=
  let r := s.region d entry
  if r.st ≠ .dead ∨ s.holdsKey d r.old = true then .next s
  else
    let s := (s.modRegion d entry (fun r => { Region.init with gen := r.gen })).segsToLimbo d r.segs
    let s := s.fput NRT_STATUS_REVOKING d (s.revoking d)
    .next ((s.evtDie NRT_EVENT_KEY_SCRUBBED d).dieEvent d 0x44 (le 4 r.old))

/-- Whether the fields of a PEER_SET are in range (R372). -/
def PeerBody.ok (b : PeerBody) : Bool :=
  decide (b.peer < 4096)
    && (b.transport == 255
      || (decide (b.transport ≤ 1) && (!b.ipv4 || decide (b.addr < 2 ^ 32))
          && (if b.transport = 0 then decide (1 ≤ b.shape) && decide (b.shape ≤ 8)
              else decide (10 ≤ b.shape) && decide (b.shape ≤ 12) && decide (b.id < 2 ^ 24) && decide (b.sendPsn < 2 ^ 24)
                && decide (b.recvPsn < 2 ^ 24))))

/-- The messages in flight to a peer end with NOT_READY (R372). -/
def State.dropPeerTx (s : State) (d i : Nat) : State :=
  let mine := (s.nrt d).tx.filter (fun t => t.peer == i)
  let s := mine.foldl (fun s t => s.finishTx d t stNOT_READY) s
  match (s.peer? d i).bind (·.qp) with
  | none => s
  | some q => (s.qpDrop d i q).qpOutcomes d stNOT_READY q.sends

/-- PEER_SET (R372) (DEDUCED, log entry 27). -/
def execPeerSet (q : Desc) (b : PeerBody) (s : State) : Host.Outcome State Fault Refusal :=
  .next (runDesc q 0x56 (b.peer + b.transport * 2 ^ 16 + b.ipv4.toNat * 2 ^ 24 + b.die * 2 ^ 32 + b.shape * 2 ^ 40) s (fun s =>
    let d := b.die
    if !(s.diesOf q.part).contains d || !b.ok then s.fail q stMALFORMED
    else if s.dieDown d then s.fail q stFENCED
    else if b.transport = 255 then
      let s := s.dropPeerTx d b.peer
      (s.modNrt d (fun n => { n with peers := tdel n.peers b.peer })).complete q stOK 0 0
    else if b.transport = 1 ∧ s.fbit NRT_CTRL_ROCE_EN d = false then s.fail q stMALFORMED
    else if (s.nrt d).peers.any (fun e => e.1 != b.peer && e.2.v4 == b.ipv4 && e.2.addr == b.addr) then s.fail q stMALFORMED
    else if b.transport = 1 ∧ 256 ≤ ((s.nrt d).peers.filter (fun e => e.2.qp.isSome && e.1 != b.peer)).length then s.fail q stQUOTA
    else
      let s := match (s.peer? d b.peer).bind (·.qp) with
        | some _ => s.dropPeerTx d b.peer
        | none => s
      let now := s.clk.tNs
      let (qp, s) : Option Qp × State :=
        if b.transport = 1 then
          let used := ((s.nrt d).peers.filterMap (fun e => e.2.qp.map (·.qpn))).foldl (fun l n => insNat n l) []
          let (n, s) := s.draw
          let qpn := nthFree used 0 (Config.pick n % (2 ^ 24 - 256))
          (some { qpn := qpn, remote := b.id, sendPsn := b.sendPsn, recvPsn := b.recvPsn, mtu := b.shape, err := false, cur := none, curT := 0,
                  sends := [], tmo := 0, lastT := now }, s)
        else (none, s)
      let p : Peer :=
        { roce := b.transport == 1, v4 := b.ipv4, addr := b.addr, paths := if b.transport = 0 then b.shape else 1, id := b.id,
          rate := s.fget NRT_RATE_MAX d * 1000000, fallT := 0, calmT := now, tmos := [], down := [], failed := 0, qp := qp }
      let s := s.modNrt d (fun n => { n with peers := tput n.peers b.peer p })
      s.complete q stOK (match qp with | some x => x.qpn | none => 0) 0))

/-- REMOTE_KEY (R373). -/
def execRemoteKey (q : Desc) (key peer : Nat) (unbind : Bool) (s : State) : Host.Outcome State Fault Refusal :=
  .next (runDesc q 0x57 (key + peer * 2 ^ 32 + unbind.toNat * 2 ^ 48) s (fun s =>
    let dies := s.diesOf q.part
    if unbind then
      let on_ := dies.filter (fun d => tget (s.nrt d).binds key == some peer)
      if on_.isEmpty then s.fail q stMALFORMED
      else (on_.foldl (fun s d => s.modNrt d (fun n => { n with binds := tdel n.binds key })) s).complete q stOK 0 0
    else
      let on_ := dies.filter (fun d => (s.peer? d peer).isSome)
      if on_.isEmpty then s.fail q stMALFORMED
      else if on_.any (fun d => !thas (s.nrt d).binds key && decide (16384 ≤ (s.nrt d).binds.length)) then s.fail q stQUOTA
      else (on_.foldl (fun s d => s.modNrt d (fun n => { n with binds := tput n.binds key peer })) s).complete q stOK 0 0))

/-- COUNTER_SET (R375, R376). -/
def execCounterSet (q : Desc) (d : Nat) (add : Bool) (index value : Nat) (s : State) : Host.Outcome State Fault Refusal :=
  .next (runDesc q 0x52 (d + add.toNat * 2 ^ 8 + index * 2 ^ 32) s (fun s =>
    if !(s.diesOf q.part).contains d || decide (65536 ≤ index) then s.fail q stMALFORMED
    else if s.dieDown d then s.fail q stFENCED
    else
      let v := s.ctr d index
      (s.setCtr d index (if add then v + value else value)).complete q stOK (v % 2 ^ 32) (v / 2 ^ 32)))

/-- COUNTER_WAIT (R375, R377). -/
def execCounterWait (q : Desc) (d index thresh timeout : Nat) (s : State) : Host.Outcome State Fault Refusal :=
  .next (runDesc q 0x53 (d + index * 2 ^ 32) s (fun s =>
    if !(s.diesOf q.part).contains d || decide (65536 ≤ index) then s.fail q stMALFORMED
    else if s.dieDown d then s.fail q stFENCED
    else
      let v := s.ctr d index
      if meets v thresh then s.complete q stOK (v % 2 ^ 32) (v / 2 ^ 32)
      else if 4096 ≤ (s.nrt d).waits.length then s.complete q stNOT_READY (v % 2 ^ 32) (v / 2 ^ 32)
      else
        let w : CtrWait := ⟨q.fn, q.sq, q.index, index, thresh, if timeout = 0 then 0 else s.tickNo q.part + timeout⟩
        s.modNrt d (fun n => { n with waits := n.waits ++ [w] })))

/-- COUNTER_WAIT_TIMEOUT: waits of a die whose TIMEOUT ticks have passed complete with NOT_READY (R377). -/
def execCounterWaitTimeout (d t : Nat) (s : State) : Host.Outcome State Fault Refusal :=
  let s := s.advanceTo t
  let ended (w : CtrWait) : Bool := w.endTick != 0 && decide (w.endTick ≤ s.tickOf d)
  let due := (s.nrt d).waits.filter ended
  let s := s.modNrt d (fun n => { n with waits := n.waits.filter (fun w => !ended w) })
  .next (due.foldl (fun s w =>
    s.completeKey (w.fn, w.sq, w.index) stNOT_READY (s.ctr d w.ctr % 2 ^ 32) (s.ctr d w.ctr / 2 ^ 32)) s)

/-- ARM (R378) (DEDUCED, log entry 26; DEDUCED, log entry 140). -/
def execArm (q : Desc) (b : ArmBody) (s : State) : Host.Outcome State Fault Refusal :=
  .next (runDesc q 0x54 ((match b.op with | .write => 1 | .writeSig => 2 | .read => 3) + b.die * 2 ^ 8 + b.trigIndex * 2 ^ 32) s
    (fun s =>
      let d := b.die
      let r := s.region d (keyEntry b.localKey)
      if !(s.diesOf q.part).contains d then s.fail q stMALFORMED
      else if s.dieDown d then s.fail q stFENCED
      else if !s.keyValid d b.localKey || r.inbox || decide (r.bytes < b.localOff + b.len) || decide (65536 ≤ b.trigIndex)
          || b.len == 0 || decide (2 ^ 24 < b.len) then s.fail q stMALFORMED
      else if ((tget (s.nrt d).binds b.remoteKey).bind (s.peer? d)).isNone then s.fail q stMALFORMED
      else if !s.nrtReady d then s.fail q stNOT_READY
      else
        let a : Armed := ⟨q.fn, q.sq, q.index, b⟩
        if meets (s.ctr d b.trigIndex) b.trigValue then s.fire d a
        else if 1024 ≤ (s.nrt d).armed.length then s.fail q stNOT_READY
        else s.modNrt d (fun n => { n with armed := n.armed ++ [a] })))

/-- ARM_CANCEL (R378). -/
def execArmCancel (q : Desc) (d index : Nat) (s : State) : Host.Outcome State Fault Refusal :=
  .next (runDesc q 0x55 (d + index * 2 ^ 32) s (fun s =>
    if !(s.diesOf q.part).contains d || decide (65536 ≤ index) then s.fail q stMALFORMED
    else if s.dieDown d then s.fail q stFENCED
    else
      let due := (s.nrt d).armed.filter (fun a => a.body.trigIndex == index)
      let s := s.modNrt d (fun n => { n with armed := n.armed.filter (fun a => a.body.trigIndex != index) })
      let s := due.foldl (fun s a => s.completeKey (a.fn, a.sq, a.index) stNOT_READY 0 0) s
      s.complete q stOK due.length 0))

end Sys2Proof.Machine
end

