-- ==== Sys2Proof/Machine/Fabric.lean ====
section
/-!
DEFINITION. Sys2Proof/Machine/Fabric.lean: the commands of the fabric port: frames, MACsec associations, training, shutter
lists and policers (R388 to R411).
-/
namespace Sys2Proof.Machine

/-! ### Associations (R390, R391) -/

/-- A new SAK under the next association number: installed for reception; transmission moves once the peer has it (R390).
LNK_MACSEC and LNK_MKA apply from it (R411). -/
def State.newSak (s : State) (d : Nat) : State :=
  let an := ((s.lnk d).txAn + 1) % 4
  let s := s.modLnk d (fun l => { l with
    rekey := some an, rxSas := (l.rxSas.filter (fun a => a.an == l.txAn)) ++ [⟨an, 1⟩], sakNo := l.sakNo + 1, asked := false,
    sakT := s.clk.tNs, rekeyS := s.fget LNK_MKA_REKEY_S d, rekeyLog2 := s.fget LNK_MACSEC_REKEY_LOG2 d,
    ksPrio := s.fget LNK_MKA_KS_PRIO d, replayWin := s.fget LNK_MACSEC_REPLAY_WIN d })
  (s.fadd LNK_REKEYS_COUNT d 1).evtDie LNK_EVENT_REKEY d

/-- Whether MKA can change the SAK of a port: it has a CAK and a live peer, protects frames, and no change is under way. -/
def State.mkaReady (s : State) (d : Nat) : Bool :=
  let l := s.lnk d
  l.cak.isSome && !l.mkaPeers.isEmpty && s.macsec d && l.rekey.isNone

/-- A rekey: as key server the part distributes a new SAK; otherwise it asks the key server for one, once (R390). -/
def State.startRekey (s : State) (d : Nat) : State :=
  if !s.mkaReady d then s
  else if (s.lnk d).mkaServers.isEmpty then (s.newSak d).enqueue d .net false 0 (.mka 1)
  else if (s.lnk d).asked then s
  else (s.modLnk d (fun l => { l with asked := true })).enqueue d .net false 0 (.mka 2)

/-- The next frame sent (R397); the packets of a read whose service ends on the way are not (R358) (DEDUCED, log entry 142). -/
def State.sendNext (s : State) (d : Nat) : Nat → State
  | 0 => s
  | n + 1 =>
    match s.pickClass d 8 with
    | (none, s) => s
    | (some (c, f), s) =>
      match s.readyFrame d f with
      | (some f, s) => s.sendFrame d c f
      | (none, s) => s.sendNext d n

/-- FRAME_TRANSMIT: the port sends the frame of R397, if the medium is free. -/
def execFrameTransmit (d t : Nat) (s : State) : Host.Outcome State Fault Refusal :=
  let s := s.advanceTo t
  if s.clk.tNs * 200 < (s.lnk d).busy then .next s
  else
    let s := (s.accrueAll d).sendNext d ((s.nrt d).serves.length + 1)
    if 2 ^ (s.lnk d).rekeyLog2 ≤ (s.lnk d).txPn then .next (s.startRekey d) else .next s

/-- Whether a received frame passes MACsec, with its drop counted when it does not (R389, R392) (DEDUCED, log entry 29). -/
def State.secCheck (s : State) (d : Nat) (k : FrameKind) (sec : Option (Nat × Nat)) (icvOk : Bool) : Bool × State :=
  if !s.macsec d then (sec.isNone, s)
  else
    match sec with
    | none => if k == .eapol then (true, s) else (false, s.fadd LNK_UNPROT_COUNT d 1)
    | some (an, pn) =>
      match (s.lnk d).rxSas.find? (fun a => a.an == an) with
      | none => (false, s.fadd LNK_NOSA_COUNT d 1)
      | some a =>
        if !icvOk then (false, (s.fadd LNK_ICV_FAIL_COUNT d 1).evtDie LNK_EVENT_ICV_FAIL d)
        else if pn + (s.lnk d).replayWin < a.next then (false, s.fadd LNK_REPLAY_COUNT d 1)
        else (true, s.modLnk d (fun l => { l with
          rxSas := l.rxSas.map (fun b => if b.an = an then { b with next := max b.next (pn + 1) } else b) }))

/-- What a frame carries goes to NRT, policed on the way (R367, R406). -/
def State.deliver (s : State) (d : Nat) (p : Packet) (v4 : Bool) (addr dscp : Nat) (ce wf : Bool) (sum : UdpSum) : State :=
  let t := s.clk.tNs
  let a := addrKey v4 addr
  let c := s.classOfDscp d dscp
  match p with
  | .nrt h b =>
    s.rxPacket d t sum v4 p (fun s =>
      if h.typ = 3 then s.rxRead d h a c wf (s.frameBytes d v4 p)
      else if h.typ = 4 then s.rxResp d h b a c wf
      else if h.typ = 8 ∧ wf then s.rxAck d h
      else if h.typ = 9 ∧ wf then s.rxNak d h
      else if h.typ = 10 ∧ wf then
        s.rxSnack d h ((List.range (b.length / 8)).map (fun i => (numAt b (8 * i) 4, numAt b (8 * i + 4) 4)))
      else s.rxWrite d h b a c ce wf (s.frameBytes d v4 p))
  | .roce h b => s.rxPacket d t .good v4 p (fun s => s.rxRoce d h b c ce wf (s.frameBytes d v4 p))
  | _ => s

/-- FRAME_RX (R388, R392, R406): a frame of another kind is dropped; one that passes MACsec goes to NRT (DESIGN CHOICE, log entry 86). -/
def execFrameRx (d : Nat) (k : FrameKind) (sec : Option (Nat × Nat)) (icvOk : Bool) (p : Packet) (v4 : Bool) (addr dscp : Nat)
    (ce wf : Bool) (sum : UdpSum) (t : Nat) (s : State) : Host.Outcome State Fault Refusal :=
  let s := s.advanceTo t
  let s := if s.fbit LNK_STATUS_UP d then s.bw d 1 (s.frameBytes d v4 p) else s
  if !s.fbit LNK_STATUS_UP d || !s.unitOn uFabric d 0 || k == .other then .next s
  else
    let (ok, s) := s.secCheck d k sec icvOk
    if ok && (k == .nrt || k == .roce) then .next (s.deliver d p v4 addr dscp ce wf sum) else .next s

/-- MKA_FRAME_RX: peer `mi`, of key server priority `prio`, joins, stays or leaves, asks for a SAK, or distributes one as key server; a
change of the peer set starts a rekey (R390). A frame not protected under the CAK counts for nothing. -/
def execMkaFrameRx (d mi prio : Nat) (first leave wantSak sak cakOk : Bool) (t : Nat) (s : State) : Host.Outcome State Fault Refusal :=
  let s := s.advanceTo t
  if !s.fbit LNK_STATUS_UP d || !s.unitOn uFabric d 0 || !cakOk || (s.lnk d).cak.isNone then .next s
  else
    let had := (s.lnk d).mkaPeers.contains mi
    let ranks := !leave && (decide (prio < (s.lnk d).ksPrio) || (prio == (s.lnk d).ksPrio && first))
    let s := s.modLnk d (fun l => { l with
      mkaPeers := if leave then l.mkaPeers.filter (· != mi) else if had then l.mkaPeers else l.mkaPeers ++ [mi]
      mkaServers := l.mkaServers.filter (· != mi) ++ (if ranks then [mi] else []) })
    let s := s.refreshPort d
    let s := if had == leave || (wantSak && (s.lnk d).mkaServers.isEmpty) then s.startRekey d else s
    if sak && ranks && s.mkaReady d then .next (s.newSak d) else .next s

/-- SAK_INSTALLED: the peer has the new SAK; transmission moves to its association, and a stopped port resumes. Frames that the peer
still sends under the old association are received (R390, R391). -/
def execSakInstalled (d : Nat) (s : State) : Host.Outcome State Fault Refusal :=
  match (s.lnk d).rekey with
  | none => .next s
  | some an =>
    let s := s.modLnk d (fun l => { l with
      rekey := none, txAn := an, txSa := true, txPn := 1, txSak := l.sakNo })
    let s := (s.fset LNK_STATUS_TX_AN d an).fset LNK_STATUS_PN_STOP d 0
    .next (s.refreshPort d)

/-- REKEY_TIMER: REKEY_S seconds have passed since the current SAK; 0 disables (R390). -/
def execRekeyTimer (d t : Nat) (s : State) : Host.Outcome State Fault Refusal :=
  let s := s.advanceTo t
  let l := s.lnk d
  if l.rekeyS ≠ 0 ∧ l.txSa ∧ l.sakT + l.rekeyS * secNs ≤ s.clk.tNs then .next (s.startRekey d) else .next s

/-- REKEY_NOW (R390). -/
def execRekeyNow (d : Nat) (via : Via) (s : State) : Host.Outcome State Fault Refusal :=
  .next (regWrite via (LNK_CTRL_REKEY_NOW.at_ d) s (fun s => if s.shadowed d then s else s.startRekey d))

/-- SECURED_LOST: MKA loses its peer, or an SA (R393). -/
def execSecuredLost (d : Nat) (sa : Bool) (s : State) : Host.Outcome State Fault Refusal :=
  let s := s.modLnk d (fun l => if sa then { l with txSa := false, rxSas := [], rekey := none, asked := false }
    else { l with mkaPeers := [], mkaServers := [], rekey := none, asked := false })
  .next (s.refreshPort d)

/-! ### Training (R388) -/

/-- Lanes that a set of working lanes trains on: 8, 4 or none (R388). -/
def trainedLanes (good : Nat) : Nat :=
  if good % 256 = 255 then 8 else if good % 16 = 15 ∨ good / 16 % 16 = 15 then 4 else 0

/-- What a fabric link reset loses: SAs, packet numbers and MKA state, reassembly contexts and the filter of answered messages;
TX_AN and PN_STOP return to 0 (R520, R521). -/
def State.linkZero (s : State) (d : Nat) : State :=
  let s := (s.nrt d).rx.foldl (fun s x => s.freeEntry d x) s
  let s := s.modNrt d (fun n => { n with rx := [], filter := [], serves := [] })
  let s := s.modLnk d (fun l => { l with mkaPeers := [], mkaServers := [], asked := false, rekey := none, txAn := 0, txSa := false, txPn := 1, rxSas := [] })
  (((s.fset LNK_STATUS_TX_AN d 0).fset LNK_STATUS_PN_STOP d 0).fset NRT_CTX_USED_CONTEXTS d 0).settleRevokes d

/-- LNK_STATUS and NRT_STATUS.LINK_UP set without an event of their own. -/
def State.setLink (s : State) (d lanes : Nat) : State :=
  let s := (s.fput LNK_STATUS_UP d (lanes != 0)).fset LNK_STATUS_LANES d lanes
  let s := if lanes = 0 then s.linkZero d else s
  let was := s.fbit LNK_STATUS_SECURED d
  let s := s.fput LNK_STATUS_SECURED d (s.securedNow d)
  let s := if was && !s.securedNow d then s.evtDie LNK_EVENT_SECURED_LOST d else s
  s.fput NRT_STATUS_LINK_UP d (s.portUp d)

/-- LNK_EN_WRITE: EN = 1 trains the link, EN = 0 takes it down (R388, R410). -/
def execLnkEnWrite (d : Nat) (en : Bool) (via : Via) (s : State) : Host.Outcome State Fault Refusal :=
  .next (regWrite via (LNK_CTRL_EN.at_ d) s (fun s =>
    let was := s.fbit LNK_STATUS_UP d
    let s := s.fput LNK_CTRL_EN d en
    if en || !was || s.shadowed d then s else (s.setLink d 0).linkState d false))

/-- LANE_FAILURE: the lanes in `bad` fail; the port retrains on a whole half, or the link is down (R388). -/
def execLaneFailure (d bad : Nat) (s : State) : Host.Outcome State Fault Refusal :=
  let good := (List.range 8).foldl (fun g k => if bad.testBit k then setBit g k false else g) (s.lnk d).lanes
  let s := s.modLnk d (fun l => { l with lanes := good })
  if !s.fbit LNK_STATUS_UP d || trainedLanes good == s.fget LNK_STATUS_LANES d then .next s
  else
    let n := trainedLanes good
    .next ((s.setLink d n).linkState d (n != 0))

/-- FABRIC_LINK_TRAINED on the lanes in `good` (R388); in ERROR every fabric port is stopped (R434), and a FENCED one
takes no link (R475). -/
def execFabricLinkTrained (d good : Nat) (s : State) : Host.Outcome State Fault Refusal :=
  let n := trainedLanes good
  if !s.fbit LNK_CTRL_EN d || n == 0 || s.fbit SEC_STATUS_ERROR 0 || s.unitState uFabric d 0 == usFENCED then .next s
  else .next (((s.modLnk d (fun l => { l with lanes := good % 256 })).setLink d n).linkState d true)

/-! ### Shutter lists (R400 to R405) -/

/-- The entry in force `r` ns into a cycle, and where it ends. -/
def entryAt : List (Nat × Nat) → Nat → Nat → Nat → Nat × Nat
  | [], i, from_, _ => (i, from_)
  | e :: l, i, from_, r => if r < e.2 ∨ l.isEmpty then (i, from_ + e.2) else entryAt l (i + 1) (from_ + e.2) (r - e.2)

/-- The list of a die that must not be applied (R403): EN = 1, ticks enabled, and a period that is no multiple of CYCLE. -/
def State.shutBad (s : State) (d cycle : Nat) : Bool :=
  match s.owner d with
  | some p => s.fbit TIK_PERIOD_EN p && s.periodNs p % max 1 cycle != 0
  | none => false

/-- SHUTTER_GATE_CHANGE: the next entry's gates take effect; at a cycle boundary a pending list becomes operating (R402), and
a list out of step is held open (R403). -/
def execShutterGateChange (d t : Nat) (s : State) : Host.Outcome State Fault Refusal :=
  let s := (s.advanceTo t).accrueAll d
  let now := s.clk.tNs
  let due := match (s.lnk d).pend with | some (_, t0) => decide (t0 ≤ now) | none => false
  let s := if due then
      let s := s.modLnk d (fun l => match l.pend with
        | some (n, _) => { l with shut := n, pend := none, entryT := 0 }
        | none => l)
      let s := (s.fset LNK_SHUT_CTRL_PENDING d 0).fset LNK_STATUS_SHUT_HELD d 0
      (s.fadd LNK_SHUT_SWAPS_COUNT d 1).evtDie LNK_EVENT_SWAPPED d
    else s
  let l := s.lnk d
  if now < l.entryT then .next s
  else
    let cy := max 1 l.shut.cycle
    let (i, e) := entryAt l.shut.entries 0 0 (now % cy)
    let s := s.modLnk d (fun l => { l with entry := i, entryT := now / cy * cy + e })
    if i = 0 ∧ s.fbit LNK_SHUT_CTRL_EN d ∧ s.shutBad d cy ∧ s.fbit LNK_STATUS_SHUT_HELD d = false then
      .next ((s.fset LNK_STATUS_SHUT_HELD d 1).evtDie LNK_EVENT_CFG_ERR d)
    else .next s

/-- The written entries of the list. -/
def State.shutEntries (s : State) (d n : Nat) : List (Nat × Nat) :=
  (List.range n).map (fun i =>
    if i = 0 then (s.fget LNK_SHUT_ENTRY0_GATES d, s.fget LNK_SHUT_ENTRY0_INTERVAL d)
    else (s.fget (LNK_SHUT_ENTRY_GATES.nth (i - 1)) d, s.fget (LNK_SHUT_ENTRY_INTERVAL.nth (i - 1)) d))

/-- SHUTTER_COMMIT (R402). -/
def execShutterCommit (d : Nat) (via : Via) (s : State) : Host.Outcome State Fault Refusal :=
  .next (regWrite via (LNK_SHUT_CTRL_COMMIT.at_ d) s (fun s =>
    if s.shadowed d then s
    else
      let cy := s.fget LNK_SHUT_CYCLE_CYCLE d
      let n := s.fget LNK_SHUT_LEN_LEN d
      let es := s.shutEntries d n
      if decide (1000 ≤ cy) && decide (cy ≤ 2000000) && decide (1 ≤ n) && decide (n ≤ 64) && sumNat (es.map (·.2)) == cy
          && !s.shutBad d cy then
        (s.modLnk d (fun l => { l with pend := some (⟨es, cy⟩, (s.clk.tNs / cy + 1) * cy) })).fset LNK_SHUT_CTRL_PENDING d 1
      else s.evtDie LNK_EVENT_CFG_ERR d))

/-- POLICER_COMMIT: LNK_POL_KEY written with `v` commits the selected policer and fills its bucket (R408) (DEDUCED, log entry 91). -/
def execPolicerCommit (d v : Nat) (via : Via) (s : State) : Host.Outcome State Fault Refusal :=
  .next (regWrite via (LNK_POL_KEY_EN.at_ d) s (fun s =>
    if s.shadowed d then s
    else
      let k := s.fget LNK_POL_SEL_POLICER d
      let en := v.testBit 31
      let e := v % 2 ^ 21
      if en && (s.lnk d).policers.any (fun p => p.1 != k && p.2.en && p.2.entry == e) then s.evtDie LNK_EVENT_CFG_ERR d
      else
        let b := s.fget LNK_POL_BURST_BURST d
        let p : Policer := ⟨en, e, s.fget LNK_POL_RATE_RATE d, b, b * 800, s.clk.tNs⟩
        let s := (s.fput LNK_POL_KEY_EN d en).fset LNK_POL_KEY_ENTRY d e
        s.modLnk d (fun l => { l with policers := dset l.policers Policer.init k p })))

/-- LAT_CLR (R409). -/
def execLatClr (d : Nat) (via : Via) (s : State) : Host.Outcome State Fault Refusal :=
  .next (regWrite via (LNK_CTRL_LAT_CLR.at_ d) s (fun s =>
    if s.shadowed d then s else (List.range 8).foldl (fun s n => s.fset (LNK_QLAT_HWM.nth n) d 0) s))

/-- LNK_TXPN_LO read: the transmit PN, its upper half latched (R410). -/
def State.readTxpn (s : State) (d : Nat) : Nat × State :=
  if s.shadowed d then (0, s)
  else
    let n := (s.lnk d).txPn
    (n % 2 ^ 32, (s.fset LNK_TXPN_LO_PN_LO d n).fset LNK_TXPN_HI_PN_HI d (n / 2 ^ 32))

/-- LNK_TXPN_LO_READ. -/
def execLnkTxpnLoRead (d : Nat) (via : Via) (s : State) : Host.Outcome State Fault Refusal :=
  .next (regRead via (LNK_TXPN_LO_PN_LO.at_ d) s (fun s => s.readTxpn d))

end Sys2Proof.Machine
end

