-- ==== Sys2Proof/Machine/Rebuild.lean ====
section
/-!
DEFINITION. Sys2Proof/Machine/Rebuild.lean: parked sequences rebuilt from the flash of a die after a replay (R293) or on
another die after a loss (R484).
-/
namespace Sys2Proof.Machine

/-- The valid durable object of a kind and identifier in the flash of a die. -/
def State.flashObj? (s : State) (src kind obj : Nat) : Option FObj :=
  (s.ftl src).objs.find? (fun o => o.kind == kind && o.obj == obj && o.src.isNone && o.durable)

/-- The durable objects of a kind in the flash of a die, of the namespace of its partition (R258). -/
def State.flashObjs (s : State) (src kind : Nat) : List FObj :=
  (s.ftl src).objs.filter (fun o => o.kind == kind && o.ns == s.nsOf src && o.src.isNone && o.durable)

/-- An identifier kept when it is free on the die, else another. -/
def State.keepId (s : State) (used : List Nat) (id n : Nat) : Nat × State :=
  if used.contains id then s.pickId used n else (id, s)

/-- A page record rebuilt from its object: on flash, durable, not resident; `away` is the die whose channels hold it when it
is not the page's own (R293, R484). -/
def State.restorePage (s : State) (home src origin : Nat) (id : Nat) : Option (Nat × State) :=
  match s.flashObj? src 1 id with
  | some o =>
    match o.data with
    | .page p =>
      let (n, s) := s.keepId (tkeys (s.pfx home).pages) id (s.freePages home)
      let q : Page :=
        { p with
          segs := [], list := 0, refs := 0, pinned := false, rel := 0, origin := origin
          place := { Place.init with
            hbm := false, flash := true, durable := true, flashObj := o.loc.word
            flashDie := if home = src then 0 else src + 1 } }
      some (n, s.modPfx home (fun x => { x with pages := tput x.pages n q }))
    | _ => none
  | none => none

/-- Several page records. -/
def State.restorePages (s : State) (home src origin : Nat) : List Nat → Option (List Nat × State)
  | [] => some ([], s)
  | id :: r =>
    match s.restorePage home src origin id with
    | none => none
    | some (n, s) =>
      match s.restorePages home src origin r with
      | none => none
      | some (l, s) => some (n :: l, s)

/-- What a restoration has done so far: chunk identifiers old to new, whether each holds a temporary holder, and the state. -/
structure Restore where
  map : List (Nat × Nat)
  held : List Nat
  s : State

/-- A chunk rebuilt (R293): replaced by a chunk of the same chain that is already VALID on a new die (R484). -/
def Restore.chunk (x : Restore) (home src : Nat) (id : Nat) (c : Chunk) : Restore :=
  let s := x.s
  let valid := (s.treeFind home c.chain).bind (fun e => if e.2.st = .valid then some e.2.chunk else none)
  match (if home = src then none else valid) with
  | some old => ⟨tput x.map id old, x.held ++ [old], s.addHold home old⟩
  | none =>
    if s.freeChunks home = 0 then x
    else
      let (n, s) := s.keepId (tkeys (s.pfx home).chunks) id (s.freeChunks home)
      match s.restorePages home src n c.pages with
      | none => x
      | some (pages, s) =>
        let was := c.st
        let d : Chunk :=
          { c with
            parent := if c.depth = 0 then 0 else dget x.map 0 c.parent
            st := .priv, parked := true, holders := 0, children := 0, rel := 0, pages := pages }
        let s := (s.modPfx home (fun x => { x with chunks := tput x.chunks n d })).addHold home n
        let s := if was = .tree then s.treeInsert home n (s.tickOf home) else s
        ⟨tput x.map id n, x.held ++ [n], s⟩

/-- The tail's pages rebuilt; a page being sealed is sealed again. -/
def State.restoreLayers (s : State) (home src q : Nat) : List LayerEnt → Option (List LayerEnt × State)
  | [] => some ([], s)
  | l :: r =>
    let one (s : State) (id : Nat) : Option (Nat × State) :=
      if id = 0 then some (0, s)
      else (s.restorePage home src q id).map (fun x => (x.1, x.2.addRef home x.1))
    match one s l.full with
    | none => none
    | some (f, s) =>
      match one s l.open_ with
      | none => none
      | some (o, s) =>
        let s := if f = 0 then s else s.modPfx home (fun x => { x with sealWait := insNat f x.sealWait })
        match s.restoreLayers home src q r with
        | none => none
        | some (t, s) => some ({ l with full := f, open_ := o, sealed := 0, done := false } :: t, s)

/-- A sequence rebuilt from its MAPV object; none when something of it is missing. -/
def Restore.seq (x : Restore) (home src : Nat) (e : SeqSlot) : Option State :=
  let s := x.s
  let chunks := e.body.chunks.map (dget x.map 0)
  match s.newSlot? home e.seq with
  | none => none
  | some k =>
    if chunks.contains 0 then none
    else
      match s.restoreLayers home src e.seq e.tail.layers with
      | none => none
      | some (layers, s) =>
        let n := bodySegs chunks.length
        let m := tailSegs layers.length
        let (b, s) := if n + m ≤ s.freeSegs home then s.takeSegs home n else ([], s)
        let (t, s) := if m ≤ s.freeSegs home ∧ b ≠ [] then s.takeSegs home m else ([], s)
        let s := chunks.foldl (fun s c => s.addHold home c) s
        some (s.setSlot home k
          { e with
            live := true, parked := true
            body := { e.body with chunks := chunks, prev := 0, segs := b }
            tail := { e.tail with layers := layers, segs := t } })

/-- Parked sequences of the flash of `src` rebuilt on `home`, for those that satisfy `sel`; answers those restored and those
that could not be. Chunks come in ascending DEPTH (R293, R484). -/
def State.restoreSeqs (s : State) (home src : Nat) (allChunks : Bool) (sel : SeqSlot → Bool) : List SeqSlot × List SeqSlot × State :=
  let seqs := (s.flashObjs src 3).filterMap (fun o => match o.data with | .mapv e => if sel e then some e else none | _ => none)
  let want := seqs.flatMap (fun e => e.body.chunks)
  let chunks := (s.flashObjs src 2).filterMap (fun o =>
    match o.data with | .chunk c => if allChunks || want.contains o.obj then some (o.obj, c) else none | _ => none)
  let depth := chunks.foldl (fun m c => max m (c.2.depth + 1)) 0
  let x := (List.range depth).foldl (fun x n =>
    (chunks.filter (fun c => c.2.depth == n)).foldl (fun x c => x.chunk home src c.1 c.2) x) ⟨[], [], s⟩
  let r := seqs.foldl (fun (acc : List SeqSlot × List SeqSlot × Restore) e =>
    match acc.2.2.seq home src e with
    | some s => (acc.1 ++ [e], acc.2.1, ⟨x.map, x.held, s⟩)
    | none => (acc.1, acc.2.1 ++ [e], acc.2.2)) (([], [], x) : List SeqSlot × List SeqSlot × Restore)
  (r.1, r.2.1, x.held.foldl (fun s c => s.dropHold home c) r.2.2.s)

/-- Every parked sequence of a die rebuilt from its own flash (R293). Those of a context that lives on another die, or that an
adoption not yet done rebuilds, are left to it (R484). Flash copies of volatile sequences are invalid (DEDUCED, log entry 43). -/
def State.restoreAll (s : State) (d : Nat) : State :=
  let mine (e : SeqSlot) : Bool :=
    match s.owner d with
    | none => true
    | some p => match s.ctx? p e.ctx with | some c => c.home == d | none => s.ptnState p != ptnSealed
  let s := if s.ras.losses.any (fun x => x.die == d) then s
    else (s.restoreSeqs d d true mine).2.2
  let parked := (s.flashObjs d 2 ++ s.flashObjs d 3).flatMap (fun o => match o.data with
    | .chunk c => c.pages
    | .mapv e => e.tail.layers.flatMap (fun l => [l.full, l.open_])
    | _ => [])
  s.modFtl d (fun f => { f with restored := true, objs := f.objs.filter (fun o => o.kind != 1 || parked.contains o.obj) })

end Sys2Proof.Machine
end

