-- ==== Sys2Proof/Machine/Maps.lean ====
section
/-!
DEFINITION. Sys2Proof/Machine/Maps.lean: the map-edit descriptors, sealing, chunk completion and the tree (R74 to R103).
-/
namespace Sys2Proof.Machine

/-- The key of a descriptor. -/
def Desc.key (d : Desc) : Option (Nat × Nat × Nat) := some (d.fn, d.sq, d.index)

/-- The status of an edit of a sequence that no die of the partition holds: NOT_READY while the structures of a die that is the
home of one of its contexts do not stand (R103), else MALFORMED (R100). -/
def State.noSeq (s : State) (p : Nat) : Nat :=
  if (s.part p).ctxs.any (fun e => !s.fbit PFX_STATUS_READY e.2.home) then stNOT_READY else stMALFORMED

/-- A map edit of an existing sequence: unknown, it is refused; on a fenced home die, FENCED (R101); before the
structures stand, NOT_READY (R103) (DESIGN CHOICE, log entry 105). -/
def mapEdit (d : Desc) (op body0 : Nat) (edit : Edit) (s : State) : State :=
  runSeqEdit d op body0 [edit.seqOf] s (fun s =>
    match s.seqDie? d.part edit.seqOf with
    | none => s.fail d (s.noSeq d.part)
    | some k =>
      if s.dieDown k then s.fail d stFENCED
      else if !s.fbit PFX_STATUS_READY k then s.fail d stNOT_READY
      else s.runEdit k d.key edit)

/-- MAP_CREATE (R71, R75, R87, R99, R100) (DEDUCED, log entry 92; DESIGN CHOICE, log entry 106). -/
def execMapCreate (d : Desc) (seq ctx : Nat) (lookup parked : Bool) (toks : List Nat) (s : State) :
    Host.Outcome State Fault Refusal :=
  .next (runSeqEdit d 0x20 (seq + ctx * 2 ^ 32) [seq] s (fun s =>
    match s.ctx? d.part ctx with
    | none => s.fail d stMALFORMED
    | some c =>
      let k := c.home
      if s.dieDown k then s.fail d stFENCED
      else if !s.fbit PFX_STATUS_READY k then s.fail d stNOT_READY
      else if (s.seqDie? d.part seq).isSome || decide (2 ^ 20 < toks.length) || c.destroying.isSome then s.fail d stMALFORMED
      else if parked && !s.flashReady k then s.fail d stNOT_READY
      else
        match s.create k seq ctx lookup parked toks with
        | .error x => s.stopEdit k seq d.key (.free seq) x
        | .ok r =>
          match (if parked then r.s.parkStatus k seq r.pages else none) with
          | some st => s.fail d st
          | none => State.finishEdit k seq d.key 0 r))

/-- MAP_APPEND (R74 to R77, R596). -/
def execMapAppend (d : Desc) (seq layer pos : Nat) (toks : List Nat) (data : List (List Nat)) (s : State) :
    Host.Outcome State Fault Refusal :=
  .next (mapEdit d 0x21 (seq + layer * 2 ^ 32) (.append seq layer pos toks data) s)

/-- MAP_WRITE (R94, R95). -/
def execMapWrite (d : Desc) (seq layer pos : Nat) (data : List (List Nat)) (s : State) :
    Host.Outcome State Fault Refusal :=
  .next (mapEdit d 0x22 (seq + layer * 2 ^ 32) (.write seq layer pos data) s)

/-- MAP_TRUNCATE (R96). -/
def execMapTruncate (d : Desc) (seq len : Nat) (s : State) : Host.Outcome State Fault Refusal :=
  .next (mapEdit d 0x23 (seq + len * 2 ^ 32) (.truncate seq len) s)

/-- MAP_FORK (R97): the new sequence must not exist (R100). -/
def execMapFork (d : Desc) (seq src len : Nat) (parked : Bool) (s : State) : Host.Outcome State Fault Refusal :=
  .next (runSeqEdit d 0x24 (seq + src * 2 ^ 32) [seq, src] s (fun s =>
    match s.seqDie? d.part src with
    | none => s.fail d (s.noSeq d.part)
    | some k =>
      if s.dieDown k then s.fail d stFENCED
      else if !s.fbit PFX_STATUS_READY k then s.fail d stNOT_READY
      else if (s.seqDie? d.part seq).isSome then s.fail d stMALFORMED
      else s.runEdit k d.key (.fork seq src len parked)))

/-- MAP_FREE (R98). -/
def execMapFree (d : Desc) (seq : Nat) (s : State) : Host.Outcome State Fault Refusal :=
  .next (mapEdit d 0x25 seq (.free seq) s)

/-- TREE_EVICT (R90, R99, R100). -/
def execTreeEvict (d : Desc) (ctx : Nat) (cascade : Bool) (chain : Nat) (s : State) : Host.Outcome State Fault Refusal :=
  .next (runDesc d 0x26 (ctx + cascade.toNat * 2 ^ 16) s (fun s =>
    match s.ctx? d.part ctx with
    | none => s.fail d stMALFORMED
    | some c =>
      if s.dieDown c.home then s.fail d stFENCED
      else if !s.fbit PFX_STATUS_READY c.home then s.fail d stNOT_READY
      else
        match s.treeFind c.home chain with
        | none => s.fail d stMALFORMED
        | some (k, e) =>
          let kids := match s.chunk? c.home e.chunk with | some x => x.children | none => 0
          if kids ≠ 0 && !cascade then s.fail d stNOT_READY
          else
            let (n, s) := s.evictCascade c.home k
            s.complete d stOK n 0))

/-- SEAL_COMPLETE (R77): the page goes to SEALED, SEALED_DONE is set and the wicket task's holder ends (R92); where the reference
decode disagrees, the task starts again (R470). -/
def execSealComplete (die page : Nat) (ok : Bool) (s : State) : Host.Outcome State Fault Refusal :=
  match s.page? die page with
  | none => .next s
  | some p =>
    if p.st ≠ .sealing then .next s
    else if !ok then .next (s.fadd RAS_TASK_RESTARTS_COUNT die 1)
    else
      let slot := (s.pfx die).index.find? (fun e => e.2.tail.layers.any (fun l => l.sealed == page && l.full != 0))
      match slot with
      | none => .next s
      | some (k, e) =>
        let full := match e.tail.layers.find? (fun l => l.sealed == page) with | some l => l.full | none => 0
        let conv := match s.page? die full, s.dieCtx? die e.ctx with
          | some q, some c => sealConvert c q.pos
          | _, _ => ([], 0, 0)
        let t := s.tickOf die
        let s := (s.closeHolder die p.rel).modPage die page (fun p => { p with st := .sealed, rel := 0, sealedAt := t })
        let s := s.countSeal die (p.blks.filter (·.raw)).length conv.2.1 conv.2.2
        .next (s.modPfx die (fun x =>
          { x with index := tmod x.index k (fun e => { e with tail := { e.tail with
              layers := e.tail.layers.map (fun l => if l.sealed = page then { l with done := true } else l) } }) }))

/-- Chunk completion of a sequence (R78), an edit of it; one that cannot allocate waits (R65) (DESIGN CHOICE, log entry 100). -/
def State.tryChunk (s : State) (die seq : Nat) : State :=
  match s.seqSlot? die seq with
  | none => s
  | some (k, e) =>
    if !e.complete? then s
    else
      let wait (s : State) : State := s.modPfx die (fun x => { x with chunkWait := insNat seq x.chunkWait })
      if (e.parked && !s.flashReady die) || s.seqBusy die seq then wait s
      else
      match s.completeChunk die k with
      | .ok r =>
        match (if e.parked then r.s.parkStatus die seq r.pages else none) with
        | some _ => wait s
        | none => State.finishEdit die seq none 0 r
      | .error (.fail _ s1) => wait s1
      | .error (.wait _) => s

/-- CHUNK_COMPLETION. -/
def execChunkCompletion (die seq : Nat) (s : State) : Host.Outcome State Fault Refusal := .next (s.tryChunk die seq)

/-- AUTO_EVICT (R90). -/
def execAutoEvict (die : Nat) (s : State) : Host.Outcome State Fault Refusal :=
  .next (s.autoEvict die (s.tickOf die))

/-- Bytes of the structures of a die (R69, R70, R85, R103). -/
def State.placeBytes (s : State) (d : Nat) : Nat :=
  let lmax := s.fget PFX_TREE_CFG_LMAX_M1 d + 1
  (s.mainBuckets d + s.ovfBuckets d) * 128 + s.fget PFX_CHUNK_CAP_CAP d * roundUp 64 (576 + 4 * lmax)
    + s.fget PFX_PAGE_CAP_CAP d * 64 + 2 ^ s.fget PFX_SEQ_CFG_SEQ_BITS d * 32

/-- A base register pair set to the address at which a structure was placed; which address is the part's choice (DESIGN CHOICE, log entry 9). -/
def State.setBase (s : State) (lo hi : Fld) (d : Nat) : State :=
  let (n, s) := s.draw
  let a := Config.place n % 2 ^ 38 / 64 * 64
  (s.fset lo d a).fset hi d (a / 2 ^ 32)

/-- The structures placed in the die's HBM, or CFG_ERR (R103) (DESIGN CHOICE, log entry 9). -/
def State.placePfx (s : State) (d : Nat) : State :=
  let n := ceilDiv (s.placeBytes d) 4096
  let room := (List.range 3).foldl (fun m k => if s.stackOn d k then m + s.stackSegs d else m) 0
  if room < n then s.fset PFX_STATUS_CFG_ERR d 1
  else
    let s := s.modPfx d (fun x => { x with placed := n })
    let s := (s.setBase PFX_TREE_BASE_LO_BASE_LO PFX_TREE_BASE_HI_BASE_HI d).setBase PFX_CHUNK_BASE_LO_BASE_LO
      PFX_CHUNK_BASE_HI_BASE_HI d
    let s := (s.setBase PFX_PAGE_BASE_LO_BASE_LO PFX_PAGE_BASE_HI_BASE_HI d).setBase PFX_SEQ_BASE_LO_BASE_LO
      PFX_SEQ_BASE_HI_BASE_HI d
    (s.fset PFX_STATUS_CFG_ERR d 0).fset PFX_STATUS_READY d 1

/-- PFX_ENABLE (R12, R103) (DESIGN CHOICE, log entry 104). -/
def execPfxEnable (die : Nat) (via : Via) (s : State) : Host.Outcome State Fault Refusal :=
  .next (regWrite via (PFX_CTRL_EN.at_ die) s (fun s =>
    if s.dieLocked die then s
    else if s.fbit PFX_CTRL_EN die then s
    else
      let s := s.fset PFX_CTRL_EN die 1
      if s.shadowed die then s
      else
        let s := s.placePfx die
        -- parked sequences whose replay is done come back once the structures stand (R293)
        if s.fbit PFX_STATUS_READY die && s.fbit FTL_STATUS_READY die && !(s.ftl die).restored then s.restoreAll die else s))

end Sys2Proof.Machine
end

