-- ==== Sys2Proof/Machine/Rings.lean ====
section
/-!
DEFINITION. Sys2Proof/Machine/Rings.lean: host functions, their rings and doorbells, and the partition binding
registers (R307 to R350).
-/
namespace Sys2Proof.Machine

/-- The function changed at one ring. -/
def State.setRing (s : State) (f page : Nat) (r : Ring) : State :=
  s.modFn f (fun h => { h with rings := tput h.rings page r })

/-- A doorbell write the part ignores (R319). -/
def State.dbErr (s : State) (f : Nat) : State := (s.fadd HRG_DB_ERRS_COUNT f 1).evtFn HRG_FEVENT_DB_ERR f

/-- SQ_TAIL_DOORBELL (R319) (DEDUCED, log entry 138). -/
def execSqTailDoorbell (p x n idx : Nat) (w32 : Bool) (s : State) : Host.Outcome State Fault Refusal :=
  let f := 2 * p + x
  match (s.fn f).active? n with
  | none => .next (s.dbErr f)
  | some r =>
    if w32 && decide (idx < r.size) && decide (n < 128) then .next (s.setRing f n { r with tail := idx })
    else .next (s.dbErr f)

/-- CQ_HEAD_DOORBELL (R319): slots free, and held events may post (R336). -/
def execCqHeadDoorbell (p x n idx : Nat) (w32 : Bool) (s : State) : Host.Outcome State Fault Refusal :=
  let f := 2 * p + x
  match (s.fn f).active? (cqPage n) with
  | none => .next (s.dbErr f)
  | some r =>
    let span := (idx + r.size - r.head) % r.size
    if w32 && decide (idx < r.size) && decide (span ≤ r.used) then
      let s := s.setRing f (cqPage n) { r with head := idx }
      .next (s.flushHeld f ((s.fn f).held.length + 1))
    else .next (s.dbErr f)

/-- Whether SQ `n` of function `f` may be fetched: ACTIVE, not empty, a slot free on its CQ, no ORDER descriptor
outstanding and no deletion under way (R317, R321, R328, R333), through a host port that takes new work (R475). -/
def State.fetchable (s : State) (f n : Nat) : Bool :=
  match (s.fn f).active? n with
  | none => false
  | some r =>
    decide (n < 128) && s.hostOn (fnPort f) && decide (r.used ≠ 0) && decide (0 < s.cqFree f r.link)
      && !(s.part (fnPart f)).outst.any (fun o => o.fn == f && o.sq == n && o.order)
      && !(s.part (fnPart f)).outst.any (fun o =>
        o.fn == f && o.op == 0x03 && o.started && o.body0 % 256 == 0 && o.body0 / 256 % 256 == n)

/-- The next of the listed rings after `last`, round robin. -/
def nextRing (l : List Nat) (last : Nat) : Option Nat :=
  match l.find? (fun n => decide (last < n)) with
  | some n => some n
  | none => l.head?

/-- The SQ served at this fetch opportunity (R322): URGENT ones first, each class in ring-number order, round robin. -/
def State.pickSq (s : State) (f : Nat) : Option (Nat × Bool) :=
  let h := s.fn f
  let cand (u : Bool) : List Nat :=
    (h.rings.filter (fun e => e.2.flags.testBit 0 == u && s.fetchable f e.1)).map (·.1)
  match nextRing (cand true) h.lastUrgent with
  | some n => some (n, true)
  | none =>
    match nextRing (cand false) h.lastNormal with
    | some n => some (n, false)
    | none => none

/-- Descriptors accepted one by one, as long as the ring may be fetched; `n` counts what the read may still take. -/
def State.acceptRun (s : State) (f sq : Nat) : Nat → List Fetched → State
  | 0, _ => s
  | _, [] => s
  | n + 1, x :: r =>
    if !s.fetchable f sq then s
    else
      match (s.fn f).ring? sq with
      | none => s
      | some q =>
        let d : Desc :=
          { part := fnPart f, port := fnPort f, sq := sq, index := q.head + 2 ^ 16 * (s.fn f).gen, tag := x.tag, order := x.order,
            intr := x.intr, resv := x.resv, readFail := false }
        let s := ((s.tlp f 7 64).accept d x.op x.body0).setRing f sq { q with head := (q.head + 1) % q.size }
        let s := if knownOp x.op then s else s.fail d stMALFORMED
        if q.head + 1 = q.size then s else s.acceptRun f sq n r

/-- Every ring of a function STOPPED (R341). -/
def State.stopRings (s : State) (f : Nat) : State :=
  s.modFn f (fun h => { h with rings := tmap (fun _ r => { r with st := .stopped }) h.rings })

/-- DESCRIPTOR_FETCH (R320 to R322): up to 16 descriptors of the SQ whose turn it is; a failed read stops it (R341). -/
def execDescriptorFetch (p x : Nat) (descs : List Fetched) (fail : Bool) (s : State) :
    Host.Outcome State Fault Refusal :=
  let f := 2 * p + x
  match s.pickSq f with
  | none => .next s
  | some (sq, urgent) =>
    let s := s.modFn f (fun h => if urgent then { h with lastUrgent := sq } else { h with lastNormal := sq })
    if fail then
      let idx := match (s.fn f).ring? sq with | some r => r.head | none => 0
      let pay := le 1 0 ++ le 1 sq ++ le 2 idx ++ le 1 1
      if sq = 0 then
        let s := s.raiseOn0 f evRingError 0xFF pay
        .next (((s.stopRings f).fset HRG_STATUS_CAUSE f 5).fset HRG_STATUS_STOPPED f 1)
      else
        let s := s.modFn f (fun h => { h with rings := tmod h.rings sq (fun r => { r with st := .stopped }) })
        .next (s.raiseEvent f evRingError 0xFF pay)
    else .next (s.acceptRun f sq 16 descs)

/-- NOP (R325): completes with OK and result words 0. -/
def execNop (d : Desc) (s : State) : Host.Outcome State Fault Refusal :=
  .next (runDesc d 0x00 0 s (fun s => s.complete d stOK 0 0))

/-- RESYNC (R342): waits for its snapshot at the first tick boundary; too small a buffer completes with MALFORMED. With
ADOPT the descriptors of the partition's other function are adopted (R344). -/
def execResync (d : Desc) (dest room : Nat) (adopt : Bool) (s : State) : Host.Outcome State Fault Refusal :=
  .next (runDesc d 0x01 dest s (fun s =>
    if room < 208 then s.fail d stMALFORMED
    else s.modFn d.fn (fun h => { h with resyncs := h.resyncs ++ [⟨d.fn, d.sq, d.index, dest, room, adopt⟩] })))

/-- Bytes 16 to 23 of a RING descriptor: KIND, RING_ID and the fields after them (R326). -/
def ringBody (cq : Bool) (id log2 flags link cc ct : Nat) : Nat :=
  cq.toNat + id % 256 * 2 ^ 8 + log2 % 256 * 2 ^ 16 + flags % 256 * 2 ^ 24 + link % 256 * 2 ^ 32 + cc % 256 * 2 ^ 40
    + ct % 256 * 2 ^ 48

/-- Whether a RING_CREATE is sound (R327). -/
def State.ringOk (s : State) (f : Nat) (cq : Bool) (id log2 flags link cc ct base : Nat) : Bool :=
  decide (1 ≤ id) && decide (id ≤ 127) && decide (6 ≤ log2) && decide (log2 ≤ 16) && base % 4096 == 0
    && decide (base + 2 ^ log2 * (if cq then 32 else 64) ≤ 2 ^ 64)
    && (((s.fn f).ring? (if cq then cqPage id else id)).isNone)
    && (if cq then decide (flags < 4) && decide (link < 128) && decide (cc < 256) && decide (ct < 256)
        else decide (flags < 2) && cc == 0 && ct == 0 && ((s.fn f).active? (cqPage link)).isSome
          && decide (link < 128))

/-- RING_CREATE (R326, R327) (DEDUCED, log entry 139). -/
def execRingCreate (d : Desc) (cq : Bool) (id log2 flags link cc ct base : Nat) (s : State) :
    Host.Outcome State Fault Refusal :=
  .next (runDesc d 0x02 (ringBody cq id log2 flags link cc ct) s (fun s =>
    let f := d.fn
    if s.lostDesc d then s.complete d stOK 0 0
    else if d.sq ≠ 0 ∨ s.ringOk f cq id log2 flags link cc ct base = false then s.fail d stMALFORMED
    else
      let r : Ring :=
        { st := .active, log2 := log2, base := base, flags := flags, link := link, coalCount := cc, coalTime := ct,
          head := 0, tail := 0, phase := true, since := 0, sinceT := 0, dropped := 0 }
      let s := s.setRing f (if cq then cqPage id else id) r
      let s := if cq && flags.testBit 1 then s.modFn f (fun h => { h with eventCq := id }) else s
      s.complete d stOK (2 ^ log2) 0))

/-- RING_DELETE (R328): an SQ stops being fetched at once and the deletion completes when none of its descriptors is
outstanding; a CQ with an SQ bound to it is kept. -/
def execRingDelete (d : Desc) (cq : Bool) (id : Nat) (s : State) : Host.Outcome State Fault Refusal :=
  .next (runDesc d 0x03 (ringBody cq id 0 0 0 0 0) s (fun s =>
    let f := d.fn
    let page := if cq then cqPage id else id
    if s.lostDesc d then s.complete d stOK 0 0
    else if d.sq ≠ 0 ∨ id = 0 ∨ 127 < id ∨ ((s.fn f).ring? page).isNone = true then s.fail d stMALFORMED
    else if cq then
      if (s.fn f).rings.any (fun e => decide (e.1 < 128) && e.2.link == id) then s.fail d stMALFORMED
      else
        let s := s.modFn f (fun h =>
          { h with rings := tdel h.rings page, eventCq := if h.eventCq = id then 0 else h.eventCq })
        s.complete d stOK 0 0
    else s.finishDeletes d.part (s.part d.part).outst))

/-- INTERRUPT_COALESCE_TIMEOUT (R334): COAL_TIME µs have passed since the first entry without an interrupt. -/
def execInterruptCoalesceTimeout (p x cq t : Nat) (s : State) : Host.Outcome State Fault Refusal :=
  let s := s.advanceTo t
  let f := 2 * p + x
  match (s.fn f).active? (cqPage cq) with
  | none => .next s
  | some r =>
    if r.since ≠ 0 ∧ r.coalTime ≠ 0 ∧ r.sinceT + r.coalTime * 1000 ≤ s.clk.tNs then .next (s.cqInterrupt f cq)
    else .next s

/-- VF of partition `p` on port `x` (R313). -/
def State.vfOf (s : State) (p x : Nat) : Nat := if x = 0 then s.fget PTN_BIND_A_VF p else s.fget PTN_BIND_B_VF p

/-- PORT_CHANGE of a function, posted to the partition's other bound function (R337, R339). -/
def State.portChange (s : State) (p x change : Nat) : State :=
  if s.bound p (1 - x) then
    s.raiseEvent (2 * p + (1 - x)) evPortChange 0xFF (le 1 x ++ le 1 (s.vfOf p x) ++ le 1 change)
  else s

/-- A function loses its host (R339): its rings are DISABLED, its held events discarded, and the writes of descriptors
accepted before are never issued. -/
def State.loseFn (s : State) (p x cause change : Nat) : State :=
  let f := 2 * p + x
  let s := s.modFn f (fun h =>
    { h with rings := tmap (fun _ r => { r with st := .disabled }) h.rings, held := [], lost := 0, gen := h.gen + 1 })
  let s := ((s.fset HRG_STATUS_CAUSE f cause).fset HRG_STATUS_READY f 0).fset HRG_STATUS_STOPPED f 0
  let s := s.fset HRG_CTRL_EN f 0
  s.portChange p x change

/-- Whether the admin pair of a function is sound (R316). -/
def State.adminOk (s : State) (f : Nat) : Bool :=
  let sq := s.fget HRG_ASQ_HI_BASE_HI f * 2 ^ 32 + s.fget HRG_ASQ_LO_BASE_LO f * 2 ^ 12
  let cq := s.fget HRG_ACQ_HI_BASE_HI f * 2 ^ 32 + s.fget HRG_ACQ_LO_BASE_LO f * 2 ^ 12
  let sqEnd := sq + 64 * 2 ^ s.fget HRG_ASIZE_ASQ_LOG2 f
  let cqEnd := cq + 32 * 2 ^ s.fget HRG_ASIZE_ACQ_LOG2 f
  decide (sq ≠ 0) && decide (cq ≠ 0) && decide (sqEnd ≤ 2 ^ 64) && decide (cqEnd ≤ 2 ^ 64)
    && (decide (sqEnd ≤ cq) || decide (cqEnd ≤ sq))

/-- A ring of the admin pair, its indices cleared (R316). -/
def adminRing (log2 base flags link : Nat) : Ring :=
  { st := .active, log2 := log2, base := base, flags := flags, link := link, coalCount := 0, coalTime := 0,
    head := 0, tail := 0, phase := true, since := 0, sinceT := 0, dropped := 0 }

/-- The function's rings become usable (R316); its counts start from 0 (R350). -/
def State.enableFn (s : State) (p x : Nat) : State :=
  let f := 2 * p + x
  let sq := s.fget HRG_ASQ_HI_BASE_HI f * 2 ^ 32 + s.fget HRG_ASQ_LO_BASE_LO f * 2 ^ 12
  let cq := s.fget HRG_ACQ_HI_BASE_HI f * 2 ^ 32 + s.fget HRG_ACQ_LO_BASE_LO f * 2 ^ 12
  let s := s.modFn f (fun h =>
    { h with
      rings := tput (tput [] 0 (adminRing (s.fget HRG_ASIZE_ASQ_LOG2 f) sq 0 0)) (cqPage 0)
        (adminRing (s.fget HRG_ASIZE_ACQ_LOG2 f) cq 2 (s.fget HRG_ASIZE_ACQ_VEC f))
      eventCq := 0, held := [], lost := 0 })
  let s := (s.fset HRG_STATUS_READY f 1).fset HRG_STATUS_STOPPED f 0
  let s := ((s.fset HRG_DROPPED_COUNT f 0).fset HRG_EVT_LOST_COUNT f 0).fset HRG_OUTSTANDING_COUNT f 0
  let s := ((s.fset HRG_DB_ERRS_COUNT f 0).fset HRG_VIOLATIONS_COUNT f 0).fset HRG_EVT_SEQ_NEXT f 0
  s.portChange p x 5

/-- HRG_EN_WRITE (R316, R339): EN is written; a bad admin pair leaves the rings disabled, with EN back at 0. -/
def execHrgEnWrite (p x : Nat) (en : Bool) (s : State) : Host.Outcome State Fault Refusal :=
  let f := 2 * p + x
  if en = s.fbit HRG_CTRL_EN f then .next s
  else if en then
    if s.adminOk f then .next ((s.fset HRG_CTRL_EN f 1).enableFn p x)
    else .next (s.evtFn HRG_FEVENT_CFG_ERR f)
  else .next (s.loseFn p x 4 4)

/-- The loss of every function of a port (R339). -/
def State.loseLink (s : State) (x : Nat) : State :=
  (List.range 8).foldl (fun s p => if s.bound p x || s.ready (2 * p + x) then s.loseFn p x 3 0 else s) s

/-- A function that never was bound and whose rings are not READY has nothing to lose. -/
def State.loseOne (s : State) (p x cause change : Nat) : State :=
  if s.bound p x || s.ready (2 * p + x) then s.loseFn p x cause change else s

/-- The link of a host port goes down (R339, R348) (DEDUCED, log entry 138). -/
def State.portDown (s : State) (port : Nat) : State :=
  if port = 0 then
    let s := ((s.fset HRG_PORT_A_UP 0 0).fset HRG_PORT_A_RATE 0 0).fset HRG_PORT_A_WIDTH 0 0
    (s.evtPkg HRG_EVENT_A_DOWN).loseLink 0
  else
    let s := ((s.fset HRG_PORT_B_UP 0 0).fset HRG_PORT_B_RATE 0 0).fset HRG_PORT_B_WIDTH 0 0
    (s.evtPkg HRG_EVENT_B_DOWN).loseLink 1

/-- HRG_PORT_A or HRG_PORT_B at its reset values (R516) (DEDUCED, log entry 138). -/
def State.portRegsReset (s : State) (port : Nat) : State :=
  if port = 0 then
    ((((s.fset HRG_PORT_A_UP 0 0).fset HRG_PORT_A_RATE 0 0).fset HRG_PORT_A_WIDTH 0 0).fset HRG_PORT_A_FLIT 0 0).fset HRG_PORT_A_VFS 0 0
  else
    ((((s.fset HRG_PORT_B_UP 0 0).fset HRG_PORT_B_RATE 0 0).fset HRG_PORT_B_WIDTH 0 0).fset HRG_PORT_B_FLIT 0 0).fset HRG_PORT_B_VFS 0 0

/-- The registers of a function that an FLR of its VF returns to their reset values (R521) (DEDUCED, log entry 138). -/
def State.flrRegs (s : State) (f : Nat) : State :=
  let s := ((s.fset HRG_ASQ_LO_BASE_LO f 0).fset HRG_ASQ_HI_BASE_HI f 0).fset HRG_ACQ_LO_BASE_LO f 0
  let s := ((s.fset HRG_ACQ_HI_BASE_HI f 0).fset HRG_ASIZE_ACQ_VEC f 0).fset HRG_CTRL_EN f 0
  (s.fset HRG_ASIZE_ACQ_LOG2 f 6).fset HRG_ASIZE_ASQ_LOG2 f 6

/-- HOST_FUNCTION_LOSS (R339, R340). An FLR of a VF also returns the set-up registers of its function (R521); one of the PF changes no
register and no partition state (R311) (DEDUCED, log entry 138). -/
def execHostFunctionLoss (loss : HostLoss) (s : State) : Host.Outcome State Fault Refusal :=
  match loss with
  | .linkDown port => .next (s.portDown port)
  | .portReset port => .next ((s.portDown port).portRegsReset port)
  | .flr p x => .next ((s.loseOne p x 1 2).flrRegs (2 * p + x))
  | .flrPf _ => .next s
  | .busMaster p x => .next (s.loseOne p x 2 3)

/-- HOST_LINK_UP: the link of a host port comes up (R348), unless the port's unit is FENCED (R475); PORT_CHANGE goes to the
other bound functions (R337). -/
def execHostLinkUp (port rate width : Nat) (flit : Bool) (vfs : Nat) (s : State) : Host.Outcome State Fault Refusal :=
  let post (s : State) : State :=
    (List.range 8).foldl (fun s p => if s.bound p port then s.portChange p port 1 else s) s
  if s.unitState uHost (if port = 0 then 0 else s.nDies / 2) 0 = usFENCED then .next s
  else if port = 0 then
    let s := ((s.fset HRG_PORT_A_UP 0 1).fset HRG_PORT_A_RATE 0 rate).fset HRG_PORT_A_WIDTH 0 width
    let s := (s.fput HRG_PORT_A_FLIT 0 flit).fset HRG_PORT_A_VFS 0 vfs
    .next (post (s.evtPkg HRG_EVENT_A_UP))
  else
    let s := ((s.fset HRG_PORT_B_UP 0 1).fset HRG_PORT_B_RATE 0 rate).fset HRG_PORT_B_WIDTH 0 width
    let s := (s.fput HRG_PORT_B_FLIT 0 flit).fset HRG_PORT_B_VFS 0 vfs
    .next (post (s.evtPkg HRG_EVENT_B_UP))

/-- AER_ERROR_LOGGED (R348). -/
def execAerErrorLogged (port : Nat) (s : State) : Host.Outcome State Fault Refusal :=
  .next (s.evtPkg (if port = 0 then HRG_EVENT_A_AER else HRG_EVENT_B_AER))

/-- PTN_BIND as a register word. -/
def State.bindWord (s : State) (p : Nat) : Nat :=
  s.fget PTN_BIND_B_EN p * 2 ^ 15 + s.fget PTN_BIND_B_VF p * 2 ^ 8 + s.fget PTN_BIND_A_EN p * 2 ^ 7
    + s.fget PTN_BIND_A_VF p

/-- Whether a write of PTN_BIND is refused for port `x` (R313): the VF is bound elsewhere, the port would be enabled with
VF 0, or the binding of an enabled function would change. -/
def State.bindBad (s : State) (p x : Nat) (en : Bool) (vf : Nat) : Bool :=
  (en && (List.range 8).any (fun q => q != p && s.bound q x && s.vfOf q x == vf))
    || (en && vf == 0)
    || (s.fbit HRG_CTRL_EN (2 * p + x) && (s.bound p x != en || s.vfOf p x != vf))

/-- PTN_BIND_WRITE (R313). -/
def execPtnBindWrite (p v : Nat) (s : State) : Host.Outcome State Fault Refusal :=
  let aEn := v.testBit 7
  let aVf := v % 16
  let bEn := v.testBit 15
  let bVf := v / 256 % 16
  if s.bindBad p 0 aEn aVf || s.bindBad p 1 bEn bVf then .next (s.evtPtn PTN_EVENT_BIND_REFUSED p)
  else
    .next ((((s.fput PTN_BIND_A_EN p aEn).fset PTN_BIND_A_VF p aVf).fput PTN_BIND_B_EN p bEn).fset PTN_BIND_B_VF p bVf)

end Sys2Proof.Machine
end

