-- ==== Sys2Proof/Machine/Reset.lean ====
section
/-!
DEFINITION. Sys2Proof/Machine/Reset.lean: what resets and power states lose and bring back: registers that return to their reset
values, volatile contents of a die, its start from the die shadow, and partition-wide scrubs (R371, R422, R514 to R521).
-/
namespace Sys2Proof.Machine

/-! ### Registers that return to their reset values (R521) -/

/-- Access code of the field at bit `lo` of the register at `off` (R10). -/
def accOf (off lo : Nat) : Option Acc :=
  match findReg allRegs off with
  | some (r, _, _) => (r.flds.find? (fun x => x.fld.lo == lo)).map (·.acc)
  | none => none

def isRo (off lo : Nat) : Bool := accOf off lo == some .ro
def isW1c (off lo : Nat) : Bool := accOf off lo == some .w1c

/-- Whether window offset `a` is that of a count (the counts that each block's rules start from 0 at partition reset). -/
def windowCount (a : Nat) : Bool :=
  let between (lo hi : Nat) : Bool := decide (lo ≤ a) && decide (a ≤ hi)
  between 0x28 0x48 || between 0x50 0x5C || between 0x10014 0x10034 || between 0x10040 0x1007C || between 0x20060 0x20084
    || between 0x30028 0x30058 || between 0x40060 0x4008C || between 0x60048 0x6007C || between 0x800C0 0x800E4
    || between 0xC0010 0xC0018 || between 0xE0020 0xE0028

/-- Whether an offset lies in the window of die `d`, and whether in its TIK per-die registers. -/
def inWindow (d off : Nat) : Bool := dieOfOff off == some d
def inTikDie (d off : Nat) : Bool := decide (0x10400 + 0x20 * d ≤ off) && decide (off < 0x10420 + 0x20 * d)

/-- The selected fields return to their reset values; event bits not yet posted go with their registers. -/
def State.clearRegs (s : State) (sel : Nat → Nat → Bool) : State :=
  { s with
    regs := tfilter (fun k _ => !sel (keyOff k) (keyLo k)) s.regs
    force := tfilter (fun k _ => !sel (keyOff k) (keyLo k)) s.force
    evNew := tfilter (fun o v => !(bitsOf 32 v).any (sel o)) s.evNew }

/-- Die reset and P3 exit: the RO status fields, counts and W1C EVENT registers of the window, and the TIK per-die
registers (R521). -/
def State.clearWindow (s : State) (d : Nat) : State :=
  s.clearRegs (fun off lo => (inWindow d off && (isRo off lo || isW1c off lo)) || inTikDie d off)

/-- Partition reset: the counts and W1C EVENT registers of the windows of its dies, and their TIK per-die registers (R521). -/
def State.clearCounts (s : State) (d : Nat) : State :=
  s.clearRegs (fun off lo =>
    (inWindow d off && (isW1c off lo || (isRo off lo && windowCount ((off - windowBase) % windowSize)))) || inTikDie d off)

/-! ### Rails of a die (R583 to R585) -/

/-- The level of a regulator enable: 0 EN_DIE_d, 1 EN_CAS_d, 2 EN_FLP_d (R583). -/
def State.enable (s : State) (d k : Nat) (up : Bool) : State :=
  let key := 8 * k + d
  if s.pwr.en.contains key == up then s
  else (s.modPwr (fun x => { x with en := if up then insNat key x.en else x.en.filter (· != key) })).emit (.pin (16 + key) up.toNat)

/-- Rails of a die that its power state has off: CAS and FLP in P2, all in P3, whose EN_DIE_d falls last and rises first (R583 to
R585) (DEDUCED, log entry 53). -/
def State.railsOff (s : State) (d st : Nat) : State :=
  let s := if st = 2 ∨ st = 3 then (s.enable d 1 false).enable d 2 false else s
  if st = 3 then s.enable d 0 false else s
def State.railsOn (s : State) (d : Nat) : State := ((s.enable d 0 true).enable d 1 true).enable d 2 true

/-- A setpoint commanded over the AVSBus where it changes (R583). -/
def State.avsTo (s : State) (d rail old new : Nat) : State := if old = new then s else s.emit (.avs d rail new)

/-- On the way to P0 a die's rails and voltages come back: EN_DIE_d first, the others with it from P2 and 2 ms later from P3 (R583,
R584). -/
def State.railsBack (s : State) (d now : Nat) : State :=
  let s := s.enable d 0 true
  if now = 3 then s
  else
    let s := (s.enable d 1 true).enable d 2 true
    if now = 2 then (s.avsTo d 1 600 (s.fget DPM_VOLT_LOG d)).avsTo d 2 650 800 else s

/-! ### Contents of a die (R481, R520) -/

/-- HBM of a die zero (log entry 7). -/
def hbmClear (d : Nat) (m : List Host.Cell) : List Host.Cell := tfilter (fun a _ => decide (a / 2 ^ 38 ≠ d)) m

/-- Static conditions of the console on a die end with its reset (R550). -/
def State.staticDie (s : State) (d : Nat) : State :=
  let pats := s.svc.patterns.filter (fun e => e.1 / 16 != d)
  let loops := s.svc.loops.filter (fun e => e.2.1 != d)
  let s := { s with
    svc := { s.svc with patterns := pats, loops := loops }
    pwr := { s.pwr with hold := s.pwr.hold.filter (· != d), pauseT := tdel s.pwr.pauseT d } }
  s.fput SVC_STATUS_STATIC 0 (!pats.isEmpty || !loops.isEmpty || !s.pwr.hold.isEmpty || s.fbit SVC_LEVEL_FORCED 0)

/-- HBM, SRAM and state of a die that the part no longer holds: nothing of them is left. The numbers of its messages go on. -/
def State.forgetDie (s : State) (d : Nat) : State :=
  let (n, s) := s.draw
  let m := (s.nrt d).nextMsg
  let s := { s with
    csms := tdel s.csms d, pfxs := tdel s.pfxs d, stgs := tdel s.stgs d, wkts := tdel s.wkts d
    nrts := tput s.nrts d { Nrt.init with nextMsg := m, genSeed := n + 1 }
    hbm := hbmClear d s.hbm }
  let s := s.modPfx d (fun x => { x with used := s.retiredSegs d })
  match s.owner d with
  | none => s
  | some p => s.modPart p (fun x => { x with ctxs := tmap (fun _ c => if c.home = d then { c with weights := [] } else c) x.ctxs })

/-- The scrub of a partition reset or a removal: all HBM, the operand store, the table cache, the staging buffers and the
wickets' local memories of a die are zero; every key table entry is FREE under its next generation (R371, R422, R424). The
structures stay where they were placed, empty (DEDUCED, log entry 51). -/
def State.scrubDie (s : State) (d : Nat) : State :=
  let placed := (s.pfx d).placed
  let serial := (s.csm d).serial
  let n := s.nrt d
  let s := { s with
    csms := tdel s.csms d, stgs := tdel s.stgs d, wkts := tdel s.wkts d, hbm := hbmClear d s.hbm
    nrts := tput s.nrts d { Nrt.init with nextMsg := n.nextMsg, genSeed := n.genSeed, genAdd := n.genAdd + 1 } }
  let s := { s with pfxs := tdel s.pfxs d }
  let s := (s.modPfx d (fun x => { x with placed := placed, used := s.retiredSegs d })).modCsm d (fun c => { c with serial := serial })
  let s := ((s.fset CSM_STATUS_BUSY d 0).fset NRT_STATUS_REVOKING d 0).fset WKT_QDEPTH_NOW d 0
  let s := (s.fset STG_STATUS_HINTS d 0).fset STG_STATUS_POOL_LOW d 0
  let s := (s.fset NRT_CTX_USED_CONTEXTS d 0).fset ATM_STATUS_REBUILDS d 0
  match s.owner d with
  | none => s
  | some p => s.modPart p (fun x => { x with ctxs := tmap (fun _ c => if c.home = d then { c with weights := [] } else c) x.ctxs })

/-- Flash work of a die that is dropped: tasks end, and objects not yet passed become orphans (R301, R425, R517). -/
def State.dropFlashWork (s : State) (d : Nat) : State :=
  s.modFtl d (fun f => { f with tasks := [], refresh := [] })

/-- The lanes' state, queues and buckets of a fabric port after a reset of its die: settings committed to it come back with
the shadow (R514, R520). -/
def State.portZero (s : State) (d : Nat) : State :=
  (s.setLink d 0).modLnk d (fun l =>
    { Lnk.init with shut := l.shut, cak := l.cak, policers := l.policers.map (fun e => (e.1, { e.2 with bucket := 0, t := 0 })) })

/-- A die's start from its shadow: HBM trains, the structures are placed when PFX_CTRL.EN = 1, and the parameter pages of the
channels it owns are read and their replay begins when FTL_CTRL.EN = 1 (R103, R255, R291, R515). -/
def State.dieBack (s : State) (d : Nat) : State :=
  let s := { s with pwr := { s.pwr with waitTick := if s.pwr.waitTick.contains d then s.pwr.waitTick else s.pwr.waitTick ++ [d] } }
  let s := (s.fset MEM_STATUS_TRAINED d 7).fset WKT_STATUS_READY d 1
  let s := if s.fbit PFX_CTRL_EN d then s.placePfx d else s
  let own := (s.ftl d).owned
  let s := s.fset FTL_OWN_OWNED d (own.foldl (fun v c => setBit v c true) 0)
  let s := s.fset FTL_OWN_ADOPTED d
    (((List.range 16).filter (fun c => (s.ftl (twin d)).chan c == .twinRo)).foldl (fun v c => setBit v c true) 0)
  let s := s.modFtl d (fun f => { f with restored := false })
  if s.fbit FTL_CTRL_EN d && !own.isEmpty then (s.bringUp d).fset FTL_STATUS_REPLAYING d 1
  else s.fput FTL_STATUS_TAKEN_OVER d ((List.range 16).any (fun c => (s.ftl d).chan c == .twinRo))

/-- What a die reset does to the die itself: contents lost, registers as R521 says (R516, R520). `power` says that power was
lost: journal records not yet written then leave HOLDUP to the replay (R291) (DEDUCED, log entry 51; DEDUCED, log entry 73). -/
def State.dieZero (s : State) (d : Nat) (power : Bool) : State :=
  let tail := !(s.ftl d).jpend.isEmpty || !(s.ftl d).jpages.isEmpty
  let s := (((s.staticDie d).portZero d).forgetDie d).clearWindow d
  (s.dropFlashWork d).modFtl d (fun f => { f with
    lostTail := f.lostTail || (tail && power), lun := [], anchorRun := none, util := [], crossed := [], occur := [], posted := [], chErr := [], cwLog := [], inject := false })

end Sys2Proof.Machine
end

