-- ==== Sys2Proof/Machine/Admit.lean ====
section
/-!
DEFINITION. Sys2Proof/Machine/Admit.lean: admission at a slot boundary: the checks of a record, the order of contexts and
records, the leading run, the budget, and the sweep admitted (R32 to R47, R79, R80, R112, R115 to R118, R154, R237).
-/
namespace Sys2Proof.Machine

/-! ### Checks of a record -/

/-- Most query positions of a kind (R113, R154). -/
def kindLimit (k : Nat) : Nat := if k = 1 ∨ k = 3 then 8 else if k = 5 then 256 else 512

/-- Whether a record is MALFORMED under a context's descriptor (R117, R154, R381); none when its CONTEXT is no context of
the die (DEDUCED, log entry 18). -/
def recordBad (c? : Option Ctx) (r : StepRec) : Bool :=
  match c? with
  | none => true
  | some c =>
    r.resv || r.badLen || r.kind == 0 || decide (5 < r.kind) || r.qCount == 0 || decide (kindLimit r.kind < r.qCount)
      || decide (r.kvLast < r.kvFirst) || decide (c.layers ≤ r.layer) || r.mask == 3 || r.out == 3 || r.stats == 3
      || (r.append != (r.appendCount != 0)) || decide (8 < r.appendCount) || decide (workMax < r.workSet c)
      || (c.latent != (r.kind == 4))
      || (r.kind == 3 && (r.effK c == 0 || decide (4096 < r.effK c) || (r.windowIn c).isSome))
      || (r.kind == 5 && (r.append || r.out != 0 || r.stats != 0 || (r.list && !c.desc.kind.gradEn)))

/-- The snapshot of a record: the sequence's current version and its copy of the layer entry (R79). -/
def SeqSlot.snap (e : SeqSlot) (layer : Nat) : Snap :=
  let l := e.tail.layers.getD layer LayerEnt.init
  ⟨e.body.chunks, e.tail.base, l.full, l.open_, l.fill⟩

/-- Whether a KV_GRAD record names an open region of its context and sequence that covers its layer (R154, R182); `g?` is the
region its GRAD_ID names. -/
def gradOpen (g? : Option Grad) (r : StepRec) : Bool :=
  r.kind != 5 || !r.list ||
    (match g? with
     | some g => g.ctx == r.ctx && g.seq == r.seq && g.closing.isEmpty && decide (g.layerFirst ≤ r.layer)
         && decide (r.layer < g.layerFirst + g.layers)
     | none => false)

/-- Whether a gradient region serves a record with its snapshot (R154). -/
def gradServes (g : Grad) (r : StepRec) (n : Snap) : Bool :=
  g.ctx == r.ctx && g.seq == r.seq && g.closing.isEmpty && decide (g.layerFirst ≤ r.layer)
    && decide (r.layer < g.layerFirst + g.layers) && decide (g.posFirst ≤ r.kvFirst)
    && decide (min r.kvLast (n.len - 1) < g.posFirst + g.positions)

/-- Pages whose blocks or summary areas a record's plan fetches. -/
def State.planPages (s : State) (d : Nat) (c : Ctx) (r : StepRec) (n : Snap) : List Nat :=
  let x := s.split d c r n
  ((x.1 ++ x.2).map (·.page)).eraseDups

/-- The status with which a record completes at admission, without entering a sweep; none when it may enter. A page that is
not resident counts an admission miss and may be staged (R80, R154, R170, R208, R211, R237) (DEDUCED, log entry 16). -/
def State.admitCheck (s : State) (d : Nat) (c : Ctx) (r : StepRec) : Option Nat × Snap × State :=
  let none_ : Snap := ⟨[], 0, 0, 0, 0⟩
  match s.seqSlot? d r.seq with
  | none => (some stMALFORMED, none_, s)
  | some (_, e) =>
    if e.ctx ≠ r.ctx ∨ e.live = false ∨ gradOpen (tget (s.csm d).grads r.extra) r = false then (some stMALFORMED, none_, s)
    else
      let n := e.snap r.layer
      let pages := s.planPages d c r n
      let away := pages.filter (fun id => match s.page? d id with | some p => !p.place.hbm | none => true)
      let bad := fun id => match s.page? d id with | some p => p.st == .suspect | none => false
      if n.len ≤ r.kvLast then (some stNOT_READY, n, s)
      else if pages.any (s.isLost d) then (some stLOST, n, s)
      else if r.kind = 5 ∧ r.list ∧ (match tget (s.csm d).grads r.extra with | some g => gradServes g r n | none => false) = false then
        (some stMALFORMED, n, s)
      else if r.kind = 4 ∧ (tget c.weights r.layer).isNone then (some stNOT_READY, n, s)
      else if away.isEmpty then (if pages.any bad then some stNOT_READY else none, n, s)
      else
        let s := (s.fadd STG_ADMIT_MISS_COUNT d 1).evtDie STG_EVENT_ADMIT_MISS d
        let s := if s.fbit STG_CTRL_DEMAND d then away.foldl (fun s id => s.stageIn d id 0) s else s
        (some stNOT_READY, n, s)

/-! ### Order (R38, R39, R46) -/

/-- Whether a record was carried into a later tick at least once, and whether it is forced (R44, R45). -/
def Held.deferred (h : Held) : Bool := h.deferrals != 0
def Held.forced (h : Held) (max_ : Nat) : Bool := decide (max_ ≤ h.deferrals) && h.deferrals != 0

/-- Whether a record is forced at a boundary: at slot 0 by its count (R45), and at every later boundary once R118 cut it off
(R46). -/
def Held.forcedAt (h : Held) (slot0 : Bool) (max_ : Nat) : Bool := h.cutOff || (slot0 && h.forced max_)

/-- Inbox entry index for ties: entry number, then key index (R381). Records of a host ring have none: among them, and between
them and inbox entries of that index, a tie goes to the one that arrived first (DESIGN CHOICE, log entry 95). -/
def Held.tie (h : Held) : Nat × Nat := match h.src with | .inbox e k _ => (k, e) | .ring _ _ _ _ _ => (0, 0)

/-- Whether record `a` comes before `b` within a context (R39, R46). -/
def Held.before (z : Bool) (m : Nat) (a b : Held) : Bool :=
  let ra := if a.forcedAt z m then 0 else if a.deferred then 1 else 2
  let rb := if b.forcedAt z m then 0 else if b.deferred then 1 else 2
  decide (ra < rb) || (ra == rb && (decide (a.tSig < b.tSig) || (a.tSig == b.tSig
    && (decide (a.tie.1 < b.tie.1) || (a.tie.1 == b.tie.1 && decide (a.tie.2 < b.tie.2))))))

/-- A value put in its place in an ordered list, behind its equals (DESIGN CHOICE, log entry 95). -/
def insBy {α : Type} (lt : α → α → Bool) (x : α) : List α → List α
  | [] => [x]
  | y :: r => if lt x y then x :: y :: r else y :: insBy lt x r

def sortBy {α : Type} (lt : α → α → Bool) (l : List α) : List α := l.foldl (fun r x => insBy lt x r) []

/-- The contexts of the eligible records, in the order of R38, each with its records in the order of R39. -/
def ctxOrder (z : Bool) (m : Nat) (l : List Held) : List (Nat × List Held) :=
  let ctxs := (l.map (fun h => h.step.ctx)).eraseDups
  let groups := ctxs.map (fun c => (c, sortBy (Held.before z m) (l.filter (fun h => h.step.ctx == c))))
  let oldest (g : Nat × List Held) : Nat := match g.2 with | [] => 0 | h :: t => t.foldl (fun x y => min x y.tSig) h.tSig
  let def_ (g : Nat × List Held) : Bool := g.2.any Held.deferred
  sortBy (fun a b =>
    (def_ a && !def_ b) || (def_ a == def_ b && (decide (oldest a < oldest b) || (oldest a == oldest b && decide (a.1 < b.1)))))
    groups

/-! ### The leading run (R39, R45 to R47, R118) -/

/-- A candidate run: its records with their snapshots, working set, estimate, scaled estimate, and that of its forced
records. -/
structure Run where
  recs : List (Held × Snap)
  ws : Nat
  est : Nat
  scaled : Nat
  forced : Option Nat

/-- Whether the run with one more record fits (R39, R45, R46, R47). `left` is the budget still unspent. -/
def Run.fits (r : Run) (left : Int) (force isForced : Bool) (scaled : Nat) : Bool :=
  force || isForced ||
    (match r.forced with
     | some f => decide (0 < left - (f : Int)) && decide ((scaled : Int) - f ≤ left - f)
     | none => decide ((scaled : Int) ≤ left))

/-- The leading run of a context's records: those that may not enter a sweep complete on the way, those behind the run stay
held, and forced ones among them that R118 cut off stay forced (R46). -/
def State.formRun (s : State) (d p : Nat) (c : Ctx) (left : Int) (force z : Bool) (m : Nat) (r : Run) : List Held → Run × List Held × State
  | [] => (r, [], s)
  | h :: l =>
    let st := h.step
    if recordBad (some c) st then (s.failHeld d h stMALFORMED).formRun d p c left force z m r l
    else if recsMax ≤ r.recs.length ∨ workMax < r.ws + st.workSet c then
      (r, (h :: l).map (fun h => { h with cutOff := h.forcedAt z m }), s)
    else
      match s.admitCheck d c st with
      | (some x, _, s) => (s.failHeld d h x).formRun d p c left force z m r l
      | (none, n, s) =>
        let recs := r.recs ++ [(h, n)]
        let e := s.estimate d c (recs.map (fun x => (x.1.step, x.2)))
        let sc := s.scaleEst p e
        if r.fits left force (h.forcedAt z m) sc then
          s.formRun d p c left force z m
            ⟨recs, r.ws + st.workSet c, e, sc, if h.forcedAt z m then some sc else r.forced⟩ l
        else (r, h :: l, s)

/-! ### A sweep admitted (R79, R82, R92, R112, R115, R116, R380) -/

/-- The append a record carries, accepted after every snapshot of the sweep was taken; its status (R82, R116, R222), none when
it waits behind an earlier edit of its sequence or for staging, as record `i` of sweep `n` (DEDUCED, log entry 17; DEDUCED, log entry 107). -/
def State.carryAppend (s : State) (d n i : Nat) (r : StepRec) : Option Nat × State :=
  if !r.append then (some stOK, s)
  else
    let edit : Edit := .append r.seq r.layer r.appendPos r.appToks r.appData
    let wait (s : State) : State := s.modPfx d (fun x => { x with edits := x.edits ++ [⟨none, some (n, i), r.seq, edit⟩] })
    if s.seqBusy d r.seq && (match s.seqSlot? d r.seq with | some (_, e) => !e.parked | none => false) then (none, wait s)
    else
      match s.runCarried d edit with
      | (some st, s) => (some st, s)
      | (none, s) => (none, wait s)

/-- Every record's append in turn, from record `i` of sweep `n` on. -/
def State.carryAppends (s : State) (d n i : Nat) : List (Held × Snap) → List SweepRec × State
  | [] => ([], s)
  | x :: l =>
    let (st, s) := s.carryAppend d n i x.1.step
    let s := s.setSrc d x.1 .admitted
    let (rs, s) := s.carryAppends d n (i + 1) l
    ({ held := x.1, snap := x.2, appendStatus := st.getD stOK, appWait := st.isNone, rows := [], sel := [], rerun := false, status := none,
       finalised := false, delivered := false, output := [], outMsg := none, flags := 0, tTile := none, tLast := none,
       tFin := none, reruns := 0, blocks := 0, skipped := 0, hits := 0, codedB := 0, rawB := 0, proj := [], outBad := false,
       traced := none } :: rs, s)

/-- A run admitted as a sweep on its die: descriptor copy, snapshots, holder, rows and appends (DEDUCED, log entry 19). -/
def State.launch (s : State) (d p : Nat) (c : Ctx) (r : Run) : State :=
  let ep := s.epoch d
  let n := ((s.csm d).serial + 1) % 2 ^ 32
  let (recs, s) := s.carryAppends d n 0 r.recs
  let s := s.openHolder d
  let width := if c.latent then c.w else c.d
  let recs := recs.map (fun x => { x with rows := List.replicate (x.held.step.nRows c) (Row.fresh width) })
  let w : Sweep :=
    { id := n, part := p, ctx := (match r.recs with | x :: _ => x.1.step.ctx | [] => 0), shape := c, recs := recs, est := r.est,
      scaled := r.scaled, admTick := s.tickNo p, admT := s.clk.tNs, endTick := s.nextTick p, epoch := ep, started := false, startT := 0, planned := false,
      selDone := false, summaries := [], blocks := [], retry := [], order := [], badTabs := [], paused := 0, endT := 0, ended := false, stall := 0, lateness := 0 }
  let s := recs.foldl (fun s x =>
    (s.pmc d 0x0A 1 (x.held.step.nRows c) (some x.held.step.ctx)).hist d 1 0 (s.clk.tNs - x.held.tFirst)) s
  s.modCsm d (fun x => { x with serial := n, sweeps := x.sweeps ++ [w] })

/-! ### A slot boundary on a die -/

/-- Committed work q (R36): a sweep admitted and not started counts with the scaled estimate of its admission (DEDUCED, log
entry 96) (DEDUCED, log entry 96). -/
def State.committedWork (s : State) (d p : Nat) : Nat :=
  sumNat ((s.csm d).sweeps.map (fun w =>
    if !w.started then w.scaled else if w.ended then 0 else s.scaleEst p (s.remaining d w)))

/-- The budget of a die at a boundary `t` (R35); in forced admission the debt is not subtracted (R47). -/
def State.budget (s : State) (d p t : Nat) (force : Bool) : Nat :=
  let rem := (s.nextTick p - t) * 8 / 5
  rem - s.committedWork d p - (if force then 0 else s.fget TIK_DEBT_DEBT d) - s.fget TIK_GUARD_GUARD p

/-- The runs of the contexts in turn (R38 to R40); records that stay held come back. -/
def State.admitCtxs (s : State) (d p : Nat) (force z : Bool) (m : Nat) (left : Int) : List (Nat × List Held) → List Held × State
  | [] => ([], s)
  | g :: l =>
    match s.dieCtx? d g.1 with
    | none =>
      let s := g.2.foldl (fun s h => s.failHeld d h stFENCED) s
      s.admitCtxs d p force z m left l
    | some c =>
      let (r, back, s) := s.formRun d p c left force z m ⟨[], 0, 0, 0, none⟩ g.2
      let s := if r.recs.isEmpty then s else s.launch d p c r
      let (more, s) := s.admitCtxs d p force z m (left - r.scaled) l
      (back ++ more, s)

/-- Records looked at for the first time at a boundary `t`: each may be tagged (R535), and MALFORMED ones complete (R117) (DEDUCED, log entry 16). -/
def State.firstCheck (s : State) (d p t : Nat) : List Held → List Held × State
  | [] => ([], s)
  | h :: l =>
    let h := { h with step := s.readStep d h.img }
    if h.checked then
      let (r, s) := s.firstCheck d p t l
      (h :: r, s)
    else
      let (tag, s) := s.tagRecord d p
      let h := { h with checked := true, tagged := tag, tElig := t }
      if recordBad (s.dieCtx? d h.step.ctx) h.step || !gradOpen (tget (s.csm d).grads h.step.extra) h.step then
        (s.failHeld d h stMALFORMED).firstCheck d p t l
      else
        let (r, s) := s.firstCheck d p t l
        (h :: r, s)

/-- Whether a context of the die is being destroyed (R419). -/
def State.closing (s : State) (d c : Nat) : Bool :=
  match s.dieCtx? d c with | some x => x.destroying.isSome | none => false

/-- Whether a record to rerun ends without a sweep (R485): the state after it; none when it goes on (DEDUCED, log entry 77). -/
def State.rerunOver (s : State) (d : Nat) (h : Held) : Option State :=
  let lose (s : State) : State := (s.failHeld d h stLOST).fadd RAS_LOST_RECORDS_COUNT 0 1
  match s.dieCtx? d h.step.ctx with
  | none => some (lose s)
  | some c =>
    let r := s.readStep d h.img
    if recordBad (some c) r then some (s.failHeld d h stMALFORMED)
    else
      match s.seqSlot? d r.seq with
      | none => some (lose s)
      | some (_, e) =>
        let n := e.snap r.layer
        if e.live = false ∨ e.ctx ≠ r.ctx ∨ n.len ≤ r.kvLast ∨ (s.planPages d c r n).any (s.isLost d) then some (lose s)
        else if (r.kind = 4 ∧ (tget c.weights r.layer).isNone) ∨ (r.kind = 5 ∧ (tget (s.csm d).grads r.extra).isNone) then
          some (s.failHeld d h stNOT_READY)
        else none

/-- A record to rerun with its snapshot, and the pages it waits for (DEDUCED, log entry 77). -/
def State.rerunPages (s : State) (d : Nat) (h : Held) : Held × Snap × List Nat :=
  let r := s.readStep d h.img
  let none_ : Snap := ⟨[], 0, 0, 0, 0⟩
  match s.dieCtx? d r.ctx, s.seqSlot? d r.seq with
  | some c, some (_, e) =>
    let n := e.snap r.layer
    ({ h with step := r }, n, (s.planPages d c r n).filter (fun id =>
      match s.page? d id with | some p => !p.place.hbm || p.st == .suspect | none => true))
  | _, _ => (h, none_, [])

/-- Records to rerun looked at in turn: those that end go, those whose pages are away wait and their pages are staged, and the
others come with their snapshots. A record waits behind one of its sequence that appends, whose positions it may cover (DEDUCED, log entry 99). -/
def State.sortReruns (s : State) (d : Nat) (app : List Nat) : List Held → List (Held × Snap) × List Held × State
  | [] => ([], [], s)
  | h :: l =>
    let app' := if h.step.append then h.step.seq :: app else app
    if app.contains h.step.seq then
      let (a, b, s) := s.sortReruns d app' l
      (a, h :: b, s)
    else
      match s.rerunOver d h with
      | some s => s.sortReruns d app l
      | none =>
        let x := s.rerunPages d h
        let s := x.2.2.foldl (fun (s : State) (id : Nat) =>
          match s.page? d id with | some p => if p.place.hbm then s else s.stageIn d id 0 | none => s) s
        let (a, b, s) := s.sortReruns d app' l
        if x.2.2.isEmpty then ((x.1, x.2.1) :: a, b, s) else (a, h :: b, s)

/-- The leading records that keep within R118, and those cut off. -/
def cutRun (c : Ctx) (r : Run) : List (Held × Snap) → Run × List Held
  | [] => (r, [])
  | x :: l =>
    if recsMax ≤ r.recs.length ∨ workMax < r.ws + x.1.step.workSet c then (r, (x :: l).map (·.1))
    else cutRun c { r with recs := r.recs ++ [x], ws := r.ws + x.1.step.workSet c } l

/-- One sweep for each context in turn (R40), of the records to rerun that may enter it; those cut off come back (DEDUCED, log entry 99). -/
def State.launchReruns (s : State) (d p : Nat) (recs : List (Held × Snap)) : List Nat → List Held × State
  | [] => ([], s)
  | k :: ks =>
    let (back, s) := match s.dieCtx? d k with
      | none => ([], s)
      | some c =>
        let (r, back) := cutRun c ⟨[], 0, 0, 0, none⟩ (recs.filter (fun x => x.1.step.ctx == k))
        let est := s.estimate d c (r.recs.map (fun (x : Held × Snap) => (x.1.step, x.2)))
        (back, s.launch d p c { r with est := est, scaled := s.scaleEst p est })
    let (more, s) := s.launchReruns d p recs ks
    (back ++ more, s)

/-- Records to rerun on a die at a slot boundary (R485): they are admitted outside R39 and the budget, in one sweep for each
context (R40). The contexts served, and the records that still wait (DEDUCED, log entry 99). -/
def State.admitReruns (s : State) (d p : Nat) (l : List Held) : List Nat × List Held × State :=
  let (ready, wait, s) := s.sortReruns d [] l
  let ctxs := (ready.map (fun x => x.1.step.ctx)).eraseDups
  let (back, s) := s.launchReruns d p ready ctxs
  (ctxs, back ++ wait, s)

/-- Admission of a die at the slot boundary `t` (R32 to R47, R150). A die that a supply warning pauses admits nothing
(R506) (DEDUCED, log entry 99). -/
def State.admitDie (s : State) (d p t : Nat) : State :=
  let force := s.inForce TIK_ADMIT_MODE p == 1
  let m := s.inForce TIK_ADMIT_DEFER_MAX p
  let z := t % s.periodNs p == 0
  let cut := s.inForce TIK_ADMIT_CUTOFF p * 10
  let held := (s.csm d).held
  let elig := held.filter (fun h => h.recov.isNone && decide (h.tSig + cut ≤ t))
  let again := held.filter (fun h => h.recov.isSome)
  let late := held.filter (fun h => h.recov.isNone && !decide (h.tSig + cut ≤ t))
  let b := s.budget d p t force
  let s := s.fsat TIK_BUDGET_BUDGET d b
  if s.fbit DPM_STATUS_PAUSED d || s.dieDown d then s
  else
    let s := s.modCsm d (fun x => { x with held := [] })
    let (served, again, s) := if s.fbit CSM_CTRL_EN d then s.admitReruns d p again else ([], again, s)
    let late := again ++ late
    let (ok, s) := s.firstCheck d p t elig
    let gone := ok.filter (fun h => s.closing d h.step.ctx)
    let s := gone.foldl (fun s h => s.failHeld d h stFENCED) s
    let ok := ok.filter (fun h => !s.closing d h.step.ctx)
    if !s.fbit CSM_CTRL_EN d then
      let s := ok.foldl (fun s h => s.failHeld d h stNOT_READY) s
      s.modCsm d (fun x => { x with held := late ++ x.held })
    else
      -- a context has one sweep per boundary (R40)
      let late := ok.filter (fun h => served.contains h.step.ctx) ++ late
      let ok := ok.filter (fun h => !served.contains h.step.ctx)
      let (back, s) := s.admitCtxs d p force z m (b : Int) (ctxOrder z m ok)
      s.modCsm d (fun x => { x with held := back ++ late ++ x.held })

/-- Unadmitted records carried into the new tick as deferred (R44); none is in forced admission (R47). Only records eligible
at `lastSlot`, the last boundary of the old tick, under the cutoff `cut` then in force, or earlier, count as unadmitted there. -/
def State.carryOver (s : State) (d p cut lastSlot : Nat) : State :=
  if s.inForce TIK_ADMIT_MODE p = 1 ∧ s.fbit DPM_STATUS_PAUSED d = false then s
  else
    let due (h : Held) : Bool := h.recov.isNone && decide (h.tSig + cut ≤ lastSlot)
    let n := ((s.csm d).held.filter due).length
    let s := ((s.csm d).held.filter due).foldl (fun s h => s.pmc d 0x0B 1 1 (some h.step.ctx)) s
    (s.modCsm d (fun x => { x with held := x.held.map (fun h => if due h then { h with deferrals := h.deferrals + 1 } else h) })).fadd
      TIK_DEFER_DEFER d n

end Sys2Proof.Machine
end

