-- ==== Sys2Proof/Machine/Results.lean ====
section
/-!
DEFINITION. Sys2Proof/Machine/Results.lean: what ends records and sweeps: failed records and their gradient regions, a
sweep's last tile, delivery with lateness and debt, and gradient regions closed (R48 to R53, R144, R182, R183).
-/
namespace Sys2Proof.Machine

/-- Whether a record still runs towards an output block (R122). -/
def SweepRec.live (r : SweepRec) : Bool := hasOutput (r.status.getD stOK) && !r.delivered

/-- The sweep on the Casement: started, its last tile not yet committed (R104). -/
def State.running? (s : State) (d : Nat) : Option Sweep := (s.csm d).sweeps.find? (fun w => w.started && !w.ended)

def State.sweep? (s : State) (d id : Nat) : Option Sweep := (s.csm d).sweeps.find? (fun w => w.id == id)

def State.modSweep (s : State) (d id : Nat) (f : Sweep → Sweep) : State :=
  s.modCsm d (fun c => { c with sweeps := c.sweeps.map (fun w => if w.id = id then f w else w) })

/-- An element of a list changed. -/
def modAt {α : Type} (l : List α) (i : Nat) (f : α → α) : List α := (numbered l).map (fun x => if x.1 = i then f x.2 else x.2)

def State.modRec (s : State) (d id i : Nat) (f : SweepRec → SweepRec) : State :=
  s.modSweep d id (fun w => { w with recs := modAt w.recs i f })

/-- CA cycles from `a` to `b` (R500: 0.625 ns each). -/
def caCycles (a b : Nat) : Nat := (b - a) * 8 / 5

/-- Actual cycles of a sweep (R41, R509). -/
def Sweep.actual (w : Sweep) : Nat := (w.endT - w.startT - w.paused) * 8 / 5

/-! ### Gradient regions (R179 to R183) -/

/-- Bytes of an entry of a region. -/
def gradEntry (c : Ctx) : Nat := c.h * 8 * c.d

/-- The contents of a region (R179). -/
def Grad.bytes (g : Grad) (c : Ctx) : List Byte :=
  (List.range (g.layers * g.positions * 2 * c.h * c.d)).flatMap (fun k => le 4 (dget g.entries 0 k))

/-- Whether an admitted record that names a region is still to be finalised (R182). -/
def State.gradBusy (s : State) (d g : Nat) : Bool :=
  (s.csm d).sweeps.any (fun w => w.recs.any (fun r => r.held.step.kind == 5 && r.held.step.list && r.held.step.extra == g
    && r.live && !r.finalised))

/-- The GRAD_CLOSE descriptors of a region that waits for no record, in the order of their acceptance (R182, R183): one that
releases the region leaves none for those behind it, which then name no open region (R181) (DESIGN CHOICE, log entry 122). -/
def State.gradClose (s : State) (d id : Nat) (g : Grad) : List (Nat × Nat × Nat × Bool × Nat) → State
  | [] => s.modCsm d (fun c => { c with grads := tmod c.grads id (fun g => { g with closing := [] }) })
  | (f, sq, i, keep, dest) :: l =>
    let rest (s : State) : State := l.foldl (fun s x => s.completeKey (x.1, x.2.1, x.2.2.1) stMALFORMED 0 0) s
    let drop (s : State) : State := s.modCsm d (fun c => { c with grads := tdel c.grads id })
    if g.poisoned then rest (((drop s).segsToLimbo d g.segs).completeKey (f, sq, i) stINTEGRITY 0 0)
    else
      let s := if dest = 0 then s else
        match s.dieCtx? d g.ctx with
        | some c => s.descWrite (f, sq, i) dest (g.bytes c)
        | none => s
      if keep then (s.completeKey (f, sq, i) stOK g.count 0).gradClose d id g l
      else
        let s := if dest = 0 then (drop s).giveSegs d g.segs else (drop s).segsToLimbo d g.segs
        rest (s.completeKey (f, sq, i) stOK g.count 0)

/-- GRAD_CLOSE descriptors that wait for nothing more complete (R182, R183) (DESIGN CHOICE, log entry 122). -/
def State.gradSettle (s : State) (d : Nat) : State :=
  (s.csm d).grads.foldl (fun s e =>
    if e.2.closing.isEmpty || s.gradBusy d e.1 then s else s.gradClose d e.1 e.2 e.2.closing) s

/-! ### Records that fail -/

/-- Record `i` of a sweep ends with a status and no output; KV_GRAD regions are poisoned (R146, R183, R207). -/
def State.failRec (s : State) (d id i st : Nat) : State :=
  match (s.sweep? d id).bind (fun w => w.recs[i]?) with
  | none => s
  | some r =>
    if r.live && !r.finalised then (s.modRec d id i (fun r => { r with status := some st })).poison d r.held.step else s

def State.failRecs (s : State) (d id st : Nat) (l : List Nat) : State := l.foldl (fun s i => s.failRec d id i st) s

/-- Live records of a sweep among those a list names. -/
def Sweep.liveOf (w : Sweep) (l : List Nat) : List Nat :=
  l.filter (fun i => match w.recs[i]? with | some r => r.live && !r.finalised | none => false)

/-! ### The last tile (R41, R104, R144) -/

/-- Whether record `i` of a sweep still takes part in its tiles. -/
def Sweep.recLive (w : Sweep) (i : Nat) : Bool := match w.recs[i]? with | some r => r.live && !r.finalised | none => false

/-- The projection tiles of a LATENT record on a side, 256 rows each (R171 to R173) (DESIGN CHOICE, log entry 121). -/
def projTiles (c : Ctx) (r : StepRec) (side : Nat) : List Nat :=
  if r.kind = 4 then (List.range (ceilDiv (r.nRows c) 256)).map (fun k => 0x10000 * side + k) else []

/-- Whether every projection tile of a side passed its checks (DESIGN CHOICE, log entry 121). -/
def SweepRec.projDone (r : SweepRec) (c : Ctx) (side : Nat) : Bool := (projTiles c r.held.step side).all (r.proj.contains ·)

/-- Whether a record has met its last block and, for a LATENT one that met any, its output projection is done (R126, R172) (DESIGN CHOICE, log entry 121). -/
def Sweep.recDone (w : Sweep) (i : Nat) : Bool :=
  let mine (b : PlanBlk) : Bool := b.need.any (fun x => x.1 == i)
  w.planned && w.selDone && w.blocks.all (fun b => b.committed || !mine b)
    && (!w.blocks.any mine || (match w.recs[i]? with | some r => r.projDone w.shape 1 | none => false))

/-- Whether a sweep has nothing left to compute. -/
def Sweep.allDone (w : Sweep) : Bool :=
  (w.planned && w.selDone && w.summaries.all (·.committed) && w.blocks.all (·.committed)
      && (List.range w.recs.length).all (fun i => !w.recLive i || w.recDone i))
    || w.recs.all (fun r => !r.live || r.finalised)

/-- Records that have become done take their places in the order of finalisation (R126) (DESIGN CHOICE, log entry 115). -/
def Sweep.noteDone (w : Sweep) : Sweep :=
  { w with order := w.order ++ (List.range w.recs.length).filter (fun i => w.recLive i && w.recDone i && !w.order.contains i) }

/-- Entries of the operand store that the rest of a sweep's plan uses are pinned from its start on (R202). -/
def State.pinPlan (s : State) (d id : Nat) : State :=
  match s.sweep? d id with
  | none => s
  | some w =>
    if !w.started || w.ended then s
    else
      let uses (e : StoreEnt) : Bool := (w.summaries ++ w.blocks).any (fun b => b.page == e.page && b.blk == e.blk && !b.committed)
      s.modCsm d (fun c => { c with store := c.store.map (fun e => if uses e then { e with pinned := true } else e) })

/-- Entries of the operand store unpinned, and the table cache without the tables of pages that have no block in flight, which
is all of them once no sweep holds the Casement (R201, R202) (DEDUCED, log entry 124). -/
def Casement.unpin (c : Casement) : Casement := { c with store := c.store.map (fun e => { e with pinned := false }), tables := [] }

/-- No sweep holds the Casement of `d` any more. -/
def State.sweepOff (s : State) (d : Nat) : State :=
  (s.fset CSM_STATUS_BUSY d 0).modCsm d (fun c => { c.unpin with freeT := s.clk.tNs })

/-- The actual and stall cycles of an ended sweep put into the sillage record of a record delivered before its last tile, while
its ring slot still holds that record (R144, R536) (DESIGN CHOICE, log entry 118). -/
def State.settleTrace (s : State) (d : Nat) (w : Sweep) (r : SweepRec) : State :=
  match r.traced with
  | none => s
  | some n =>
    let k := (n + 2 ^ 32 - 1) % 2 ^ 32 % 256
    match tget (s.pmcOf w.part).ring k with
    | none => s
    | some b =>
      if b.take 4 ≠ le 4 n ∨ (b.drop 20).take 4 ≠ le 4 w.id ∨ (b.drop 18).take 1 ≠ le 1 d then s
      else
        s.modPmc w.part (fun x => { x with ring := tput x.ring k (b.take 68 ++ le 4 w.actual ++ le 4 w.stall ++ b.drop 76) })

/-- A sweep that commits its last tile now leaves the Casement: its run, stall cycles and counts are recorded, and added to
the sillage records of the records it delivered before (R41, R144). -/
def State.lastTile (s : State) (d id : Nat) : State :=
  match s.sweep? d id with
  | none => s
  | some w =>
    if w.ended || !w.started || !w.allDone then s
    else
      let w := { w with ended := true, endT := s.clk.tNs }
      let s := (s.modSweep d id (fun _ => w)).sweepOff d
      let s := ((s.fsat CSM_SWEEP_RUN_CYCLES d w.actual).fsat CSM_STALL_LAST_STALL d w.stall).fadd CSM_STALL_SUM_CYCLES d w.stall
      let s := s.fadd CSM_SWEEPS_COUNT d 1
      let s := w.recs.foldl (fun (s : State) r => s.settleTrace d w r) s
      (s.pmc d 0x01 0 w.actual (some w.ctx)).hist d 3 0 w.actual

/-! ### Delivery (R48 to R51) -/

/-- The trace of a record in its sweep (R536) (DESIGN CHOICE, log entry 118). -/
def Sweep.trace (w : Sweep) (r : SweepRec) : Trace :=
  ⟨w.id, [some w.admT, if w.started then some w.startT else none, r.tTile, r.tLast, r.tFin], w.scaled,
   if w.ended then w.actual else 0, if w.ended then w.stall else 0, w.recs.length, r.reruns, r.blocks, r.skipped, r.hits, r.codedB, r.rawB, w.admTick⟩

/-- Lateness of a result delivered at `t` whose tick ends at `tb` (R49). -/
def latenessOf (tb t : Nat) : Nat := if tb ≤ t then min (max 1 (ceilDiv (8 * (t - tb)) 5)) (2 ^ 32 - 1) else 0

/-- A late sweep's last result charges the debt of its die (R51). -/
def State.chargeDebt (s : State) (d p lat : Nat) : State :=
  if lat = 0 then s
  else
    let add := ceilDiv (s.inForce TIK_ADMIT_DEBT_GAIN p * lat) 4
    let s := s.fset TIK_DEBT_DEBT d (min (s.fget TIK_DEBT_DEBT d + add) (s.inForce TIK_DEBT_MAX_DEBT_MAX p))
    ((s.fadd TIK_LATE_LATE d 1).fmax TIK_LATE_MAX_LATE_MAX d lat).hist d 4 0 lat

/-- A context that is being destroyed goes once no sweep of it is left and the scrub has run: its gradient regions and weights
are freed and its copy of the sweep descriptor is zeroed with it (R414, R419). -/
def State.finishDestroy (s : State) (p n : Nat) : State :=
  match s.ctx? p n with
  | none => s
  | some c =>
    match c.destroying with
    | none => s
    | some (f, sq, i, freed) =>
      let d := c.home
      if (s.csm d).sweeps.any (fun w => w.part == p && w.ctx == n) then s
      else
        let s := s.gradSettle d
        let g := (s.csm d).grads.filter (fun e => e.2.ctx == n)
        let s := s.modCsm d (fun x => { x with grads := tfilter (fun _ v => v.ctx != n) x.grads })
        let s := g.foldl (fun s e => s.giveSegs d e.2.segs) s
        let s := c.weights.foldl (fun s e => s.giveSegs d e.2.segs) s
        let s := s.modPart p (fun x => { x with ctxs := tdel x.ctxs n, lostGrads := x.lostGrads.filter (fun e => e.1 != n) })
        (s.fadd (SEC_SCRUBS_COUNT.nth d) 0 1).completeKey (f, sq, i) stOK freed 0

/-- A sweep whose last result was issued: its holder closes, its cycles enter σ's sums, and its lateness the debt. -/
def State.sweepOver (s : State) (d id : Nat) : State :=
  match s.sweep? d id with
  | none => s
  | some w =>
    if w.recs.any (fun r => !r.delivered) then s
    else
      let s := (s.closeHolder d w.epoch).chargeDebt d w.part w.lateness
      let s := s.modCsm d (fun c => { c with
        sweeps := c.sweeps.filter (fun v => v.id != id)
        sumActual := c.sumActual + w.actual
        sumEst := c.sumEst + w.est })
      s.finishDestroy w.part w.ctx

/-- The status, FLAGS and status entry of a record's result delivered at `t` (R48, R49, R116, R120, R122). -/
def resultOf (d : Nat) (w : Sweep) (r : SweepRec) (t : Nat) : Nat × Nat × Nat × List Byte :=
  let tb := match r.held.recov with | some x => if x = 0 then w.endTick else x | none => w.endTick
  let lat := latenessOf tb t
  let st := prevail (r.status.getD stOK) (if r.held.recov.isSome then stRECOVERED else if lat ≠ 0 then stLATE else if r.held.deferrals ≠ 0 then stDEFERRED else stOK)
  (st, lat, keepFlags st r.flags, statusEntry d r.held st r.flags r.appendStatus lat w.admTick w.id)

/-- Whether the results of every record finalised before record `i` were emitted (R126) (DESIGN CHOICE, log entry 115). -/
def Sweep.turn (w : Sweep) (i : Nat) : Bool :=
  match w.recs[i]? with
  | some r => !r.finalised || (w.order.takeWhile (· != i)).all (fun j =>
      match w.recs[j]? with | some x => !x.finalised || x.delivered | none => true)
  | none => true

/-- A finalised record whose output was refused: it has no status entry, and leaves its inbox entry and the ledger (R123) (DESIGN CHOICE, log entry 117). -/
def State.dropRec (s : State) (d id i : Nat) (h : Held) : State :=
  let s := (s.setSrc d h .free).ledgerOut d h
  let s := s.modRec d id i (fun r => { r with delivered := true })
  ((s.lastTile d id).sweepOver d id).gradSettle d

/-- The result of record `i` delivered now (R49), in its turn (R126) (DEDUCED, log entry 107). -/
def State.deliverRec (s : State) (d id i : Nat) : State :=
  match s.sweep? d id with
  | none => s
  | some w =>
    match w.recs[i]? with
    | none => s
    | some r =>
      if r.delivered || (r.live && !r.finalised) || r.appWait || !w.turn i then s
      else if r.outBad then s.dropRec d id i r.held
      else
        let (st, lat, fl, entry) := resultOf d w r s.clk.tNs
        let s := s.sendStatus d r.held r.outMsg st lat entry
        let n0 := (s.pmcOf w.part).traceWrite
        let s := s.noteResult d r.held st fl lat (if hasOutput st then r.output.length else 0) (w.trace r)
        let n1 := (s.pmcOf w.part).traceWrite
        let s := s.modSweep d id (fun w => { w with recs := modAt w.recs i (fun r => { r with delivered := true, traced := if n1 = n0 then none else some n1 }), lateness := latenessOf w.endTick s.clk.tNs })
        let s := if st = stRECOVERED then s.fadd RAS_RECOVERED_COUNT 0 1 else s
        ((s.lastTile d id).sweepOver d id).gradSettle d

/-- Every record of the sweep on the Casement that is not yet finalised completes with FENCED (R147, R210) (DEDUCED, log entry 35). -/
def State.fenceSweep (s : State) (d : Nat) : State :=
  match s.running? d with
  | none => s
  | some w =>
    let l := w.liveOf (List.range w.recs.length)
    l.foldl (fun s i => s.deliverRec d w.id i) (s.failRecs d w.id stFENCED l)

end Sys2Proof.Machine
end

