-- ==== Sys2Proof/Machine/Containment.lean ====
section
/-!
DEFINITION. Sys2Proof/Machine/Containment.lean: the unit-state table, what a fence does to each kind of unit, ledgers, and
the loss of a die (R461 to R464, R471 to R488, R493).
-/
namespace Sys2Proof.Machine

/-! ### Changes of unit-state rows (R473, R493) -/

/-- Tick number that a row's CHANGED field takes (R473). -/
def State.unitTick (s : State) (d : Nat) : Nat := s.tickNo ((s.owner d).getD 0) % 2 ^ 32

/-- UNIT_STATE posted for a row that changed, at most once per tick (R493). -/
def State.postUnit (s : State) (k d i old new cause : Nat) : State :=
  let t := s.unitTick d
  if (s.row k d i).postTick = some t then s
  else
    (s.modRow k d i (fun r => { r with postTick := some t })).dieEvent d 0x60
      (le 1 k ++ le 1 d ++ le 2 i ++ le 1 old ++ le 1 new ++ le 1 cause ++ le 1 0 ++ le 2 (s.row k d i).faults)

/-- Wickets of a die that are not ACTIVE (RAS_WKT_FENCED). -/
def State.countWickets (s : State) (d : Nat) : State :=
  let n := if s.ras.units.any (fun e => decide (e.1 / 2 ^ 24 ≤ 3) && e.1 / 2 ^ 16 % 256 == d) || (s.row uDie d 0).lost then
      ((List.range 256).filter (fun i => s.unitState uWicket d i != usACTIVE)).length
    else 0
  s.fset RAS_WKT_FENCED_WICKETS d n

/-- A row that changed: cause, tick, faults, RAS_EVENT.UNIT_FENCED and UNIT_STATE. -/
def State.noteUnit (s : State) (k d i old new cause : Nat) : State :=
  let s := s.modRow k d i (fun r =>
    { r with
      cause := cause, changed := s.unitTick d
      due := r.due || new == usDISPUTED
      faults := if new = usFENCED ∨ (new = usLOST ∧ old ≠ usFENCED) then min (r.faults + 1) 65535 else r.faults
      disputes := if new = usDISPUTED then min (r.disputes + 1) 65535 else r.disputes })
  let s := if new = usFENCED ∨ new = usLOST then s.evtPkg RAS_EVENT_UNIT_FENCED else s
  let s := if new = usDISPUTED then s.fadd RAS_DISPUTES_COUNT 0 1 else s
  let s := if k ≤ 3 then s.countWickets d else s
  s.postUnit k d i old new cause

/-! ### Losing a die (R480 to R488) -/

/-- Surviving dies of a partition. -/
def State.survivors (s : State) (p : Nat) : List Nat := (s.diesOf p).filter (fun d => !s.dieDown d)

/-- The ledger die of a die: the next surviving die of its partition in ascending order, wrapping (R480). -/
def State.ledgerDieOf (s : State) (p d : Nat) : Option Nat :=
  let l := (s.survivors p).filter (· != d)
  match l.find? (fun e => decide (d < e)) with
  | some e => some e
  | none => l.head?

/-- A function of every record of a die that awaits its result, held or in a sweep, in their order. -/
def State.mapHeld (s : State) (d : Nat) (f : State → Held → Held × State) : State :=
  let c := s.csm d
  let (l, s) := c.held.foldl (fun (acc : List Held × State) h => let (h, s) := f acc.2 h; (acc.1 ++ [h], s)) (([] : List Held), s)
  let s := s.modCsm d (fun c => { c with held := l })
  c.sweeps.foldl (fun (s : State) w =>
    ((List.range w.recs.length).zip w.recs).foldl (fun (s : State) x =>
      if x.2.delivered then s
      else
        let (h, s) := f s x.2.held
        s.modRec d w.id x.1 (fun r => { r with held := h })) s) s

/-- A die mirrors its entries to a ledger die newly assigned, or to none (R480). -/
def State.mirror (s : State) (d : Nat) (gone : Bool) : State :=
  if s.fget RAS_DIE_STATE_LEDGER_DIE d = 0xFF then
    (s.mapHeld d (fun s h => ({ h with copy := none }, s))).fset RAS_LEDGER_USED_ENTRIES d 0
  else
    let s := if gone then { s with ras := { s.ras with moved := tput s.ras.moved d s.clk.tNs } } else s
    s.mapHeld d (fun s h => s.ledgerIn d h)

/-- Ledger dies assigned anew for the dies of a partition; RAS_LEDGER takes effect (R480, R498). -/
def State.assignLedgers (s : State) (p : Nat) : State :=
  (s.survivors p).foldl (fun s d =>
    let l := (s.ledgerDieOf p d).getD 0xFF
    let old := s.fget RAS_DIE_STATE_LEDGER_DIE d
    if old = l then s
    else
      let s := s.fset RAS_DIE_STATE_LEDGER_DIE d l
      let s := { s with ras := { s.ras with ledgerMib := dset s.ras.ledgerMib 256 d (s.fget RAS_LEDGER_MIB 0) } }
      s.mirror d (s.row uDie old 0).lost) s

/-- Ledger entries of a die: its inbox records taken into the ledger and not yet delivered (R480). -/
def State.ledgerOf (s : State) (d : Nat) : List LedgerEnt :=
  let parked (h : Held) : Bool := match s.seqSlot? d h.step.seq with | some (_, e) => e.parked | none => false
  let inbox (h : Held) : Bool := h.copy.isSome
  let c := s.csm d
  ((c.held.filter inbox).map (fun h => ⟨h, none, parked h⟩))
    ++ c.sweeps.flatMap (fun w =>
      (w.recs.filter (fun r => inbox r.held && !r.delivered)).map (fun r => ⟨r.held, some (w.admTick, w.endTick, w.id), parked r.held⟩))

/-- The descriptor of an armed request that a message carries out. -/
def TxFor.armedKey : TxFor → Option (Nat × Nat × Nat)
  | .armed f sq i _ => some (f, sq, i)
  | _ => none

/-- Descriptors accepted for a die and not completed (R486). -/
def State.descsOf (s : State) (d : Nat) : List (Nat × Nat × Nat) :=
  let ring (h : Held) : List (Nat × Nat × Nat) := match h.src with | .ring f sq i _ _ => [(f, sq, i)] | .inbox _ _ _ => []
  let c := s.csm d
  (s.pfx d).edits.filterMap (·.desc)
    ++ (s.ftl d).tasks.filterMap (·.desc)
    ++ c.held.flatMap ring
    ++ c.sweeps.flatMap (fun w => (w.recs.filter (fun r => !r.delivered)).flatMap (fun r => ring r.held))
    ++ (s.nrt d).waits.map (fun w => (w.fn, w.sq, w.index))
    ++ (s.nrt d).armed.map (fun a => (a.fn, a.sq, a.index))
    ++ (s.stg d).exports.map (fun j => (j.fn, j.sq, j.index))
    ++ (s.stg d).imports.map (fun j => (j.fn, j.sq, j.index))
    ++ (s.nrt d).revokes.map (fun r => (r.fn, r.sq, r.index))
    ++ (s.nrt d).tx.filterMap (fun t => t.use.armedKey)
    ++ (s.nrt d).peers.flatMap (fun p => match p.2.qp with | some q => q.sends.filterMap (fun w => w.use.armedKey) | none => [])
    ++ c.grads.flatMap (fun g => g.2.closing.map (fun x => (x.1, x.2.1, x.2.2.1)))
    ++ (s.ras.units.filter (fun e => e.1 / 2 ^ 16 % 256 == d)).filterMap (fun e => e.2.desc)
    ++ (match s.owner d with
        | none => []
        | some p => (s.part p).ctxs.filterMap (fun e =>
            if e.2.home = d then e.2.destroying.map (fun x => (x.1, x.2.1, x.2.2.1)) else none))

/-- A ledger entry of die `d` that completes with LOST, from the port of die `ld` (R482, R485) (DEDUCED, log entry 37). -/
def State.loseEntry (s : State) (ld d : Nat) (e : LedgerEnt) : State :=
  let (tick, lat, id) := match e.adm with | some (k, tb, id) => (k, latenessOf tb s.clk.tNs, id) | none => (0, 0, 0)
  let s := s.fadd RAS_LOST_RECORDS_COUNT 0 1
  match e.held.src with
  | .ring _ _ _ _ _ => s
  | .inbox _ _ from_ =>
    match s.resultPeer ld from_ with
    | none => s.resDrop ld
    | some p =>
      let app := if e.held.step.append then stLOST else stOK
      (s.sendWrite ld p e.held.step.resultKey e.held.step.statusOff (some e.held.step.signal) none
        (statusEntry d e.held stLOST 0 app lat tick id) none .status .result).2

/-- Whether a context may live on a die (R85, R483). -/
def State.shapeFits (s : State) (p d : Nat) (c : Ctx) : Bool :=
  (s.part p).ctxs.all (fun e => e.2.home != d || e.2.model != c.model
    || (e.2.layers == c.layers && e.2.h == c.h && e.2.d == c.d && e.2.w == c.w && e.2.format == c.format && e.2.tailFmt == c.tailFmt))

/-- Live contexts of a die. -/
def State.liveCtxs (s : State) (p d : Nat) : Nat := ((s.part p).ctxs.filter (fun e => e.2.home == d)).length

/-- The least of a list under a measure, the first on ties. -/
def leastBy (f : Nat → Nat) : List Nat → Option Nat
  | [] => none
  | x :: l =>
    match leastBy f l with
    | none => some x
    | some y => if f y < f x then some y else some x

/-- Contexts of a lost die rehomed in ascending number (R482 event 3, R483): the new homes, by context. A rehomed latent
context has no weights (R484); one that fits nowhere goes. -/
def State.rehome (s : State) (p d : Nat) : List (Nat × Ctx) → List (Nat × Nat) × State
  | [] => ([], s)
  | (n, c) :: l =>
    if c.home ≠ d then s.rehome p d l
    else
      match leastBy (s.liveCtxs p) ((s.survivors p).filter (fun e => s.shapeFits p e c)) with
      | none => (s.modPart p (fun x => { x with ctxs := tdel x.ctxs n })).rehome p d l
      | some e =>
        let s := s.modCtx p n (fun c => { c with home := e, weights := [], destroying := none })
        let (r, s) := s.rehome p d l
        ((n, e) :: r, s)

/-- Event 3 and event 4 of R482 for a loss (R484, R486) (DEDUCED, log entry 76). -/
def State.rehomeLoss (s : State) (x : Loss) : Loss × State :=
  let p := x.part
  let s := x.descs.foldl (fun s k => s.completeKey k stFENCED 0 0) s
  let (homes, s) := s.rehome p x.die (s.part p).ctxs
  let gone := x.ledger.filter (fun e => !(e.parked && e.held.copy == some true))
  let s := match x.ledgerDie with
    | some ld => gone.foldl (fun (s : State) e => s.loseEntry ld x.die e) s
    | none => s
  let s := s.fset RAS_STATUS_ADOPTING 0 1
  ({ x with homes := homes, rehomed := true, descs := [], ledger := x.ledger.filter (fun e => e.parked && e.held.copy == some true) }, s)

/-- A host port's link goes down with its die. -/
def State.portOut (s : State) (x : Nat) : State :=
  if s.fbit (if x = 0 then HRG_PORT_A_UP else HRG_PORT_B_UP) 0 then s.portDown x else s

/-- The host port on a die, if it has one (R307). -/
def State.hostPortOf (s : State) (d : Nat) : Option Nat := if d = 0 then some 0 else if d = s.nDies / 2 then some 1 else none

/-- A fabric port goes down. -/
def State.fabricDown (s : State) (d : Nat) : State :=
  if s.fbit LNK_STATUS_UP d then (s.setLink d 0).linkState d false else s

/-- Whether a twin can take over: it is not down and in P0 or P1 (R301). -/
def State.canTake (s : State) (t : Nat) : Bool := decide (t < s.nDies) && !s.dieDown t && decide (s.fget DPM_STATUS_STATE t < 2)

/-- HOME channels of a lost die pass to its twin, or to FENCED (R301, R487); the twin's own adoption bits follow. -/
def State.takeOver (s : State) (d : Nat) : Bool × State :=
  let t := twin d
  let ok := s.canTake t
  let st : ChSt := if ok then .twinRo else .fenced
  let home := (s.ftl d).owned
  let s := s.modFtl d (fun f => { f with chans := home.foldl (fun l c => tput l c st) f.chans })
  let s := (s.fset FTL_OWN_OWNED d 0).fset FTL_STATUS_READY d 0
  if ok then
    let s := (s.fset FTL_STATUS_TAKEN_OVER d 1).modFtl d (fun f => { f with restored := false })
    let s := s.fset FTL_OWN_ADOPTED t (home.foldl (fun v c => setBit v c true) (s.fget FTL_OWN_ADOPTED t))
    (true, (s.evtDie FTL_EVENT_TAKEOVER t).healthOccur t 0x0C 0xFF)
  else (false, s)

/-- Gradient regions discarded: a later GRAD_CLOSE completes with LOST (R184). -/
def State.dropGrads (s : State) (p : Nat) (l : List (Nat × Nat)) : State :=
  s.modPart p (fun x => { x with lostGrads := l ++ x.lostGrads })

/-- The self-test of a die that was reset runs (R479, R516) (DEDUCED, log entry 75). -/
def State.dieTest (s : State) (d : Nat) : State := s.modRow uDie d 0 (fun r => { r with due := true, testing := true, passed := false })

/-- The rows of a die's units when the die is lost or leaves LOST: each one whose state changes takes the cause, and one that goes
to FENCED counts a fence (R473, R482). `was` are the states before (DEDUCED, log entry 146). -/
def State.dieUnits (s : State) (d cause : Nat) (was : List (Nat × Nat × Nat)) : State :=
  was.foldl (fun (s : State) x =>
    let now := s.unitIn x.1 d x.2.1
    if now = x.2.2 then s
    else s.modRow x.1 d x.2.1 (fun r => { r with
      cause := cause, changed := s.unitTick d
      faults := if now = usFENCED then min (r.faults + 1) 65535 else r.faults })) s

/-- The effective states of a die's units, the last ones first (DEDUCED, log entry 146). -/
def State.dieStates (s : State) (d : Nat) : List (Nat × Nat × Nat) :=
  ((List.range 11).map (fun k => 11 - k)).flatMap (fun k => (s.unitIdx k d).reverse.map (fun i => (k, i, s.unitIn k d i)))

/-- A die fenced for a cause of R493 is lost (R464, R482, R484, R486, R488); it is then
reset, and its self-test runs (R516) (DEDUCED, log entry 37; DEDUCED, log entry 75). -/
def State.loseDie (s : State) (d cause : Nat) : State :=
  if (s.row uDie d 0).lost ∨ s.nDies ≤ d then s
  else
    let old := s.unitState uDie d 0
    let grads := ((s.csm d).grads.flatMap (fun e => e.2.closing)).map (fun c => (c.1, c.2.1, c.2.2.1))
    let lost := ((s.csm d).grads.filter (fun e => e.2.closing.isEmpty)).map (fun e => (e.2.ctx, e.1))
    -- entries that were still being mirrored to a new ledger die are nowhere (R487)
    let moving : Bool := match tget s.ras.moved d with | some t => decide (s.clk.tNs < t + 1000000) | none => false
    let ledger := if moving then [] else s.ledgerOf d
    let units := s.dieStates d
    let descs := s.descsOf d
    let pins := (s.stg d).pins.length
    let seqs := ((s.pfx d).index.filter (fun e => e.2.live)).map (fun e => (e.2.seq, e.2.ctx))
    -- event 1
    let s := s.modRow uDie d 0 (fun r => { r with lost := true, testing := false, passed := false })
    let s := (s.noteUnit uDie d 0 old usLOST 7).dieUnits d 7 units
    let s := (s.fset RAS_DIE_STATE_STATE d usLOST).fputAt RAS_STATUS_DIES_LOST 0 d true
    let s := ((s.fadd RAS_DIE_LOSSES_COUNT 0 1).evtPkg RAS_EVENT_DIE_LOST).countWickets d
    let s := s.fabricDown d
    let s := match s.hostPortOf d with | some x => s.portOut x | none => s
    let (took, s) := s.takeOver d
    -- the twin of `d` held channels of its own twin's: they pass to FENCED (R487)
    let s := { s with ras := { s.ras with losses := s.ras.losses.map (fun (x : Loss) => { x with
      images := x.images.filter (fun i => i.1.die != d)
      ledger := if x.ledgerDie = some d ∧ s.clk.tNs < x.t + 1000000 then [] else x.ledger }) } }
    let s := s.modFtl (twin d) (fun f => { f with chans := tmap (fun _ c => if c = .twinRo then .fenced else c) f.chans })
    let s := s.fset FTL_OWN_ADOPTED d 0
    match s.owner d with
    | none => (s.dieZero d false).dieTest d
    | some p =>
      -- event 2
      let ld := s.ledgerDieOf p d
      let keep := (s.survivors p).isEmpty
      let frozen := match ld with | some _ => ledger | none => []
      let n := (s.rehome p d (s.part p).ctxs).1.length
      let s := s.partEvent p 0x61 d
        (le 1 d ++ le 1 cause ++ le 1 (!took).toNat ++ le 1 (ld.getD 0xFF) ++ le 4 (if keep then 0 else n) ++ le 4 frozen.length)
      let s := grads.foldl (fun s k => s.completeKey k stLOST 0 0) s
      let s := s.dropGrads p lost
      let imgs := ((s.stg d).replicas.filter (fun e => e.2.kind == 1 && !s.dieDown e.2.die)).filterMap (fun e =>
        (s.chunk? d e.2.chunk).map (fun c => (e.2, { c with parent := (match s.chunk? d c.parent with | some x => x.chain | none => 0) }, c.pages.filterMap (s.page? d))))
      -- images that its exports left on other dies belong to nothing now
      let s := (s.stg d).loose.foldl (fun s r => s.giveSegs r.die r.segs) s
      -- replicas that the lost die held (R250)
      let s := (s.survivors p).foldl (fun s e =>
        let s := s.modStg e (fun x => { x with loose := x.loose.filter (fun r => r.die != d) })
        ((s.stg e).replicas.filter (fun r => r.2.kind == 1 && r.2.die == d)).foldl (fun s r => s.dropReplica e r.1) s) s
      let x : Loss :=
        { die := d, part := p, ledgerDie := ld, ledger := frozen, descs := descs, pins := pins, homes := [], rehomed := false,
          assign := none, images := imgs, seqs := seqs, t := s.clk.tNs }
      let s := (s.dieZero d false).dieTest d
      -- dies that mirrored to `d` mirror to the next ledger die (R480)
      let s := s.assignLedgers p
      if keep then
        let s := { s with ras := { s.ras with losses := s.ras.losses ++ [x] } }
        let s := if s.sealed p then s.fset PTN_STATUS_STATE p ptnOrphaned else s
        (s.evtPkg RAS_EVENT_ORPHANED).partEvent p 0x63 d (le 1 d)
      else
        -- events 3 to 5
        let (x, s) := s.rehomeLoss x
        { s with ras := { s.ras with losses := s.ras.losses ++ [x] } }

/-! ### What a fence does (R147, R210, R463, R464, R471, R472) -/

/-- The Casement of a die fenced: its sweep's records end, and the die is lost (R147, R210) (DEDUCED, log entry 35). -/
def State.fenceCasement (s : State) (d : Nat) (F : Fld) : State := ((s.evtDie F d).fenceSweep d).loseDie d 1

/-- The panes and atomizers that take work of the sweep on the Casement: the active ones, but for those returned since it
started (R148). -/
def State.paneUse (s : State) (d : Nat) : Nat :=
  (List.range 4).foldl (fun v k =>
    setBit v k (s.fbitAt CSM_STATUS_PANE_ACT d k && !((s.running? d).isSome && (s.csm d).paneBack.testBit k))) 0
def State.atmUse (s : State) (d : Nat) : Nat :=
  (List.range 4).foldl (fun v k =>
    setBit v k (s.fbitAt CSM_STATUS_ATM_ACT d k && !((s.running? d).isSome && (s.csm d).atmBack.testBit k))) 0

/-- Whether the fence of a pane or an atomizer leaves the Casement without one: it was the last that took work, or every unit of
its kind is now FENCED (R147, R210) (DEDUCED, log entry 126). -/
def State.noneLeft (s : State) (k d use_ : Nat) (was : Bool) : Bool :=
  (was && use_ == 0) || (List.range 4).all (fun j => s.unitState k d j == usFENCED)

/-- A pane leaves service (R146 to R148) (DEDUCED, log entry 126). -/
def State.paneOff (s : State) (d i : Nat) : State :=
  let was := s.fbitAt CSM_STATUS_PANE_ACT d i
  let s := ((s.fputAt CSM_STATUS_PANE_ACT d i false).fputAt CSM_PANE_FENCE_FENCED d i true).modCsm d (fun c =>
    { c with paneBack := setBit c.paneBack i false, paneFence := setBit c.paneFence i false, injPane := setBit c.injPane i false })
  if s.noneLeft uPane d (s.paneUse d) was then s.fenceCasement d CSM_EVENT_CASEMENT_FENCED else s

/-- The uncorrectable-error count of an atomizer (R210). -/
def faultsFld (a : Nat) : Fld :=
  if a = 1 then ATM_FAULTS_FAULTS1 else if a = 2 then ATM_FAULTS_FAULTS2 else if a = 3 then ATM_FAULTS_FAULTS3
  else ATM_FAULTS_FAULTS0

/-- CA cycles a block occupies an atomizer (R203). -/
def PlanBlk.atmCycles (b : PlanBlk) : Nat := ceilDiv b.bytes (if b.coded then 1536 else 2048)

/-- The active atomizer that will first finish its queued work (R200); the lowest number on ties. -/
def State.pickAtm (s : State) (d : Nat) (blks : List PlanBlk) : Option Nat :=
  leastBy (fun a => sumNat ((blks.filter (fun b => b.fetched && !b.expanded && !b.failed && b.atomizer == a)).map PlanBlk.atmCycles))
    ((List.range 4).filter (fun a => (s.atmUse d).testBit a))

/-- Blocks queued at a fenced atomizer go to the others, in plan order (R200, R210). -/
def State.requeue (s : State) (d a : Nat) : State :=
  match s.running? d with
  | none => s
  | some w =>
    let queued (b : PlanBlk) : Bool := b.fetched && !b.expanded && !b.failed && b.atomizer == a
    let move (acc : List PlanBlk) (b : PlanBlk) : List PlanBlk :=
      if queued b then
        match s.pickAtm d acc with
        | some n => acc.map (fun x => if x.page = b.page ∧ x.blk = b.blk ∧ x.layer = b.layer then { x with atomizer := n } else x)
        | none => acc
      else acc
    let all := w.summaries ++ w.blocks
    let all := (all.filter queued).foldl move all
    s.modSweep d w.id (fun w => { w with summaries := all.take w.summaries.length, blocks := all.drop w.summaries.length })

/-- An atomizer leaves service (R210) (DEDUCED, log entry 126). -/
def State.atmOff (s : State) (d i : Nat) : State :=
  let was := s.fbitAt CSM_STATUS_ATM_ACT d i
  let s := ((s.fputAt CSM_STATUS_ATM_ACT d i false).fputAt ATM_FENCE_FENCED d i true).modCsm d (fun c =>
    { c with atmBack := setBit c.atmBack i false, atmFence := setBit c.atmFence i false, injAtm := setBit c.injAtm i false })
  let s := s.requeue d i
  if s.noneLeft uAtm d (s.atmUse d) was then s.fenceCasement d ATM_EVENT_ALL_FENCED else s

/-- Records of the sweep on the Casement that read a page complete with INTEGRITY (R468, R471). -/
def State.failReaders (s : State) (d page : Nat) : State :=
  match s.running? d with
  | none => s
  | some w =>
    let l := ((w.summaries ++ w.blocks).filter (fun b => b.page == page && !b.committed)).flatMap (fun b => b.need.map (·.1))
    s.failRecs d w.id stINTEGRITY (w.liveOf l.eraseDups)

/-- A tail or FULL page whose positions are lost: PAGE_LOST is posted with chunk ID 0 (R468) (DEDUCED, log entry 39). -/
def State.loseTail (s : State) (d id : Nat) : State :=
  match s.page? d id with
  | none => s
  | some p =>
    let s := s.modPfx d (fun x => { x with lost := insNat id x.lost })
    let s := (s.fsat ATM_LOST_COUNT d (s.pfx d).lost.length)
    s.dieEvent d evPageLost (le 4 id ++ le 4 0 ++ le 4 p.posBase ++ le 1 p.layer ++ le 1 0 ++ le 2 p.ctx)

/-- A page loses its frame with a stack (R471) (DEDUCED, log entry 39). -/
def State.loseFrame (s : State) (d id : Nat) : State :=
  match s.page? d id with
  | none => s
  | some p =>
    let s := (s.failReaders d id).dropStore d id
    let sealedPage := p.st == .sealed || p.st == .suspect
    let s := s.dropFrame d id
    if p.place.flash || (sealedPage && p.place.replica) then s
    else if sealedPage then s.losePage d id
    else s.loseTail d id

/-- A stack leaves service (R471) (DEDUCED, log entry 39). -/
def State.stackOff (s : State) (d k : Nat) : State :=
  let on (g : Nat) : Bool := g / 2 ^ 24 == k
  let s := s.fputAt RAS_DIE_STATE_STACKS d k false
  let hit := ((s.pfx d).pages.filter (fun e => e.2.st != .free && e.2.segs.any on)).map (·.1)
  let s := hit.foldl (fun s id => s.loseFrame d id) s
  let bad := (s.csm d).grads.filter (fun e => e.2.segs.any on)
  let s := match s.owner d with
    | some p => s.dropGrads p ((bad.filter (fun e => e.2.closing.isEmpty)).map (fun e => (e.2.ctx, e.1)))
    | none => s
  let s := bad.foldl (fun s e =>
    let s := e.2.closing.foldl (fun (s : State) x => s.completeKey (x.1, x.2.1, x.2.2.1) stLOST 0 0) s
    s.modCsm d (fun c => { c with grads := tdel c.grads e.1 })) s
  if bitCount 3 (s.fget RAS_DIE_STATE_STACKS d) ≤ 1 then s.loseDie d 4 else s

/-- The valid objects with a sector on a channel: they are relocated at the priority of rebuilds (R304). -/
def State.refreshOf (s : State) (d c : Nat) : List (Nat × Nat × Bool) :=
  let f := s.ftl d
  let has (l : FLoc) : Bool :=
    match tget f.bands l.band with
    | some b => l.sectors.any (fun a => (b.members[(s.posIn d b a).member]?).any (fun m => m.1 == c))
    | none => false
  (f.objs.filter (fun o => o.src.isNone && o.st == .passed && o.kind != 7 && has o.loc)).map (fun o => (o.kind, o.obj, true))

/-- A channel leaves service: it takes no new band, and objects with a sector on it are relocated (R304). -/
def State.chanOff (s : State) (d c : Nat) : State :=
  let s := (s.fputAt FTL_CH_FENCE_FENCED d c true).evtDie FTL_EVENT_CH_FENCED d
  let l := s.refreshOf d c
  let s := s.modFtl d (fun f => { f with refresh := (f.refresh ++ l).eraseDups })
  (s.healthOccur d 0x08 c).roCheck d

/-- WKT_QDEPTH follows the queues (R570). -/
def State.queueDepth (s : State) (d : Nat) : State :=
  let n := sumNat ((s.wkt d).queues.map (fun e => e.2.length))
  (s.fsat WKT_QDEPTH_NOW d n).fmax WKT_QDEPTH_MAX d n

/-- The cluster whose queue serves cluster `c`: itself while it is ACTIVE, else the lowest active one of its region, else the
lowest active one of the die (R461). -/
def State.queueOf (s : State) (d c : Nat) : Nat :=
  let act (c : Nat) : Bool := s.unitState uCluster d c == usACTIVE
  if act c then c
  else
    match ((List.range 8).map (fun k => c / 8 * 8 + k)).find? act with
    | some k => k
    | none => ((List.range 32).find? act).getD c

/-- The queue of a fenced cluster moved (R461) (DEDUCED, log entry 36). -/
def State.moveQueue (s : State) (d c : Nat) : State :=
  let q := dget (s.wkt d).queues [] c
  let k := s.queueOf d c
  if k = c ∨ q = [] then s
  else (s.modWkt d (fun x => { x with queues := dset (dset x.queues [] c []) [] k (dget x.queues [] k ++ q) })).queueDepth d

/-- A task restarted 3 times fails: what issued it completes with INTEGRITY (R462) (DEDUCED, log entry 77; DEDUCED, log entry 144). -/
def State.failTask (s : State) (d : Nat) (k : WTask) : State :=
  let s := match k.desc with | some x => s.completeKey x stINTEGRITY 0 0 | none => s
  match k.sweep with
  | none => s
  | some id =>
    match s.sweep? d id with
    | none => s
    | some w => s.failRecs d id stINTEGRITY (w.liveOf (List.range w.recs.length))

/-- The task of a wicket that is fenced starts again, at the head of its cluster's queue (R462) (DEDUCED, log entry 77; DEDUCED, log entry 144). -/
def State.restartTask (s : State) (d w : Nat) : State :=
  match tget (s.wkt d).running w with
  | none => s
  | some k =>
    let s := s.modWkt d (fun x => { x with running := tdel x.running w })
    let s := if k.reads then s.closeHolder d k.epoch else s
    if 3 ≤ k.restarts then s.failTask d k
    else
      let c := s.queueOf d (w / 8)
      let s := s.modWkt d (fun x =>
        { x with queues := dset x.queues [] c ({ k with restarts := k.restarts + 1 } :: dget x.queues [] c) })
      (s.fadd RAS_TASK_RESTARTS_COUNT d 1).queueDepth d

/-- What a fence of a wicket or a cluster does to tasks, its own or its parent's fence alike (R461, R462). -/
def State.tasksOff (s : State) (k d i : Nat) : State :=
  if k = uWicket then s.restartTask d i else if k = uCluster then s.moveQueue d i else s

/-- A pane that becomes ACTIVE: one that was fenced takes work only from the next sweep on (R148). -/
def State.paneOn (s : State) (d i : Nat) : State :=
  let s := s.fputAt CSM_STATUS_PANE_ACT d i true
  if !s.fbitAt CSM_PANE_FENCE_FENCED d i then s
  else
    let busy := (s.running? d).isSome
    (s.fputAt CSM_PANE_FENCE_FENCED d i false).modCsm d (fun c => { c with paneBack := setBit c.paneBack i busy })

/-- An atomizer that becomes ACTIVE: one that was fenced takes work only from the next sweep on, its fault count cleared (R210). -/
def State.atmOn (s : State) (d i : Nat) : State :=
  let s := s.fputAt CSM_STATUS_ATM_ACT d i true
  if !s.fbitAt ATM_FENCE_FENCED d i then s
  else
    let busy := (s.running? d).isSome
    ((s.fputAt ATM_FENCE_FENCED d i false).fset (faultsFld i) d 0).modCsm d (fun c => { c with atmBack := setBit c.atmBack i busy })

/-- What entering a state does to the unit itself (DEDUCED, log entry 36; DEDUCED, log entry 146). -/
def State.unitEffect (s : State) (k d i new : Nat) : State :=
  if k ≤ uCluster then (if new = usFENCED then s.tasksOff k d i else s)
  else if k = uPane then
    if new = usFENCED then s.paneOff d i
    else if new = usACTIVE then s.paneOn d i
    else s.fputAt CSM_STATUS_PANE_ACT d i false
  else if k = uAtm then
    if new = usFENCED then s.atmOff d i
    else if new = usACTIVE then s.atmOn d i
    else s.fputAt CSM_STATUS_ATM_ACT d i false
  else if k = uStack then
    if new = usFENCED then s.stackOff d i
    else if new = usACTIVE then s.fputAt RAS_DIE_STATE_STACKS d i true
    else s
  else if k = uChan then
    if new = usFENCED then s.chanOff d i
    else if new = usACTIVE then (s.fputAt FTL_CH_FENCE_FENCED d i false).roCheck d
    else s
  else if k = uFabric then (if new = usFENCED then s.fabricDown d else s)
  else if k = uHost then (if new = usFENCED then (match s.hostPortOf d with | some x => s.portOut x | none => s) else s)
  else if k = uLink then
    if new = usFENCED ∧ (s.unitIdx uLink d).all (fun e => s.unitState uLink d e == usFENCED) then s.loseDie d 6 else s
  else if k = uDie then
    if new = usFENCED then s.loseDie d 8 else s.fset RAS_DIE_STATE_STATE d new
  else s

/-- Whether the hold-off after a dispute settled by a pass runs for a unit (R478) (DEDUCED, log entry 38). -/
def State.heldOff (s : State) (k d i : Nat) : Bool :=
  match (s.row k d i).passT with
  | some t => decide (s.clk.tNs < t + s.inForce RAS_CFG_HOLDOFF 0 * secNs)
  | none => false

/-- Rows changed through reports: the state follows, with what it does to the unit, its children and its parents (R463,
R476). `fuel` bounds the levels (DEDUCED, log entry 36; DEDUCED, log entry 38). -/
def State.setUnit (s : State) (k d i cause : Nat) (f : UnitRow → UnitRow) : Nat → State
  | 0 => s
  | fuel + 1 =>
    if !s.unitExists k d i then s
    else
      let old := s.unitState k d i
      let kids := if k = uCluster then (List.range 8).map (fun w => (uWicket, 8 * i + w))
        else if k = uRegion then (List.range 8).map (fun c => (uCluster, 8 * i + c)) ++ (List.range 64).map (fun w => (uWicket, 64 * i + w))
        else []
      let before := kids.map (fun x => (x.1, x.2, s.unitState x.1 d x.2))
      let s := s.modRow k d i f
      let new := s.unitState k d i
      if old = new then s
      else
        let s := s.noteUnit k d i old new cause
        let s := before.foldl (fun s x =>
          let now := s.unitState x.1 d x.2.1
          if now = x.2.2 then s
          else
            let s := s.noteUnit x.1 d x.2.1 x.2.2 now 6
            if now = usFENCED then s.tasksOff x.1 d x.2.1 else s) s
        let s := s.unitEffect k d i new
        if new ≠ usFENCED then s
        else if k = uWicket then
          let c := i / 8
          if 4 ≤ ((List.range 8).filter (fun w => s.unitState uWicket d (8 * c + w) == usFENCED)).length
              ∧ s.unitState uCluster d c ≠ usFENCED then
            if s.heldOff uCluster d c then s.fadd RAS_DISPUTE_HOLD_COUNT 0 1
            else s.setUnit uCluster d c 1 (fun r => { r with data := 2 }) fuel
          else s
        else if k = uCluster then
          let g := i / 8
          if 5 ≤ ((List.range 8).filter (fun c => s.unitState uCluster d (8 * g + c) == usFENCED)).length
              ∧ s.unitState uRegion d g ≠ usFENCED then
            if s.heldOff uRegion d g then s.fadd RAS_DISPUTE_HOLD_COUNT 0 1
            else s.setUnit uRegion d g 1 (fun r => { r with data := 2 }) fuel
          else s
        else if k = uRegion then
          let s := s.setUnit uAtm d i 6 (fun r => { r with data := 2 }) fuel
          if 2 ≤ ((List.range 4).filter (fun g => s.unitState uRegion d g == usFENCED)).length then s.loseDie d 2 else s
        else s

/-- Hardware detection files DATA = FENCED (R476): a report of the data path (R473), discarded within the hold-off (R478). -/
def State.hwFence (s : State) (k d i : Nat) : State :=
  if s.heldOff k d i then s.fadd RAS_DISPUTE_HOLD_COUNT 0 1 else s.setUnit k d i 1 (fun r => { r with data := 2 }) 4

/-- A report of the data path (`mgmt` false) or the management path. Within HOLDOFF of a dispute settled by a pass, a FENCED
report is discarded (R478) (DEDUCED, log entry 38). -/
def State.report (s : State) (k d i : Nat) (mgmt : Bool) (v : Nat) : State :=
  if v = 2 ∧ s.heldOff k d i then s.fadd RAS_DISPUTE_HOLD_COUNT 0 1
  else if mgmt then s.setUnit k d i 3 (fun r => { r with mgmt := v, midTest := r.midTest || r.due }) 4
  else s.setUnit k d i 2 (fun r => { r with data := v }) 4

/-- A test outcome in the log of the latest 64 (R558) (DEDUCED, log entry 66). -/
def State.logTest (s : State) (k d i code : Nat) : State :=
  let l := s.svc.log ++ [(s.unitTick d, unitKey k d i, code)]
  ({ s with svc := { s.svc with log := l.drop (l.length - 64) } }).fset SVC_STATUS_LAST_CODE 0 code

/-- A self-test's outcome on a unit: a dispute is settled for both paths (R477), otherwise DATA is set, and a failure counts
as a fence (R476, R491). A unit whose parent is FENCED stays FENCED. -/
def State.testOutcome (s : State) (k d i : Nat) (disputed : Bool) (code : Nat) : State :=
  let pass := code == 0
  let v := if pass then 1 else 2
  let cause := if pass then 4 else 5
  let was := s.unitState k d i
  let s := s.logTest k d i code
  let s := s.setUnit k d i cause (fun r =>
    { r with
      testing := false, due := false, midTest := false, data := v, mgmt := if disputed then v else r.mgmt, code := code
      passed := pass, passT := if disputed && pass then some s.clk.tNs else r.passT }) 4
  let s := if !pass && was == usFENCED then s.modRow k d i (fun r => { r with faults := min (r.faults + 1) 65535 }) else s
  if disputed then
    let s := if pass then s.fadd RAS_DISPUTE_PASS_COUNT 0 1 else s.fadd RAS_DISPUTE_FAIL_COUNT 0 1
    (s.evtPkg RAS_EVENT_DISPUTE).dieEvent d 0x65
      (le 1 k ++ le 1 d ++ le 2 i ++ le 1 v ++ le 1 v ++ le 1 (if pass then 1 else 2))
  else s

end Sys2Proof.Machine
end

