-- ==== Sys2Proof/Machine/Casement.lean ====
section
/-!
DEFINITION. Sys2Proof/Machine/Casement.lean: the steps of a sweep: start, plan, fetch, expand, tile products, finalisation and
delivery (R104 to R107, R124 to R146, R155 to R166, R200 to R212, R468, R503).
-/
namespace Sys2Proof.Machine

/-! ### Power states as a sweep meets them (R502, R503) -/

/-- A die changes its power state: DPM_STATUS, STATE_CHANGE and POWER_STATE (R504, R522). -/
def State.powerTo (s : State) (d st cause : Nat) : State :=
  let old := s.fget DPM_STATUS_STATE d
  if old = st then s
  else ((s.fset DPM_STATUS_STATE d st).evtDie DPM_EVENT_STATE_CHANGE d).dieEvent d 0xA1 (le 1 old ++ le 1 st ++ le 1 cause)

/-! ### The start of a sweep (R104, R125, R148, R414, R503) -/

/-- Panes and atomizers returned by an unfence take work from this sweep on (R148, R210) (DEDUCED, log entry 30). -/
def State.returnUnits (s : State) (d : Nat) : State :=
  s.modCsm d (fun c => { c with paneBack := 0, atmBack := 0 })

/-- Fences written for panes and atomizers that no sweep keeps busy take effect: they stand at a boundary (R148, R214) (DESIGN CHOICE, log entry 120). -/
def State.settleFences (s : State) (d : Nat) : State :=
  if (s.running? d).isSome then s
  else
    let off (k : Nat) (s : State) (i : Nat) : State := s.setUnit k d i 2 (fun r => { r with data := 2 }) 4
    let s := (bitsOf 4 (s.csm d).paneFence).foldl (off uPane) s
    (bitsOf 4 (s.csm d).atmFence).foldl (off uAtm) s

/-- A sweep takes the Casement (DEDUCED, log entry 98). -/
def State.startSweep (s : State) (d : Nat) (w : Sweep) : State :=
  let s := if s.fget DPM_STATUS_STATE d = 1 then (s.powerTo d 0 0).fadd DPM_WAKES_COUNT d 1 else s
  let c := s.csm d
  let s := if c.ranAny && c.lastCtx != w.ctx then s.fadd (SEC_SCRUBS_COUNT.nth d) 0 1 else s
  let s := s.returnUnits d
  let s := s.modCsm d (fun c => { c with lastCtx := w.ctx, ranAny := true, idleTicks := 0 })
  let s := s.modSweep d w.id (fun w => { w with started := true, startT := max w.admT c.freeT })
  let s := ((s.fset CSM_STATUS_BUSY d 1).fset CSM_SWEEP_ID_SWEEP d w.id).fset CSM_SWEEP_RUN_CYCLES d 0
  let s := (s.fset CSM_SWEEP_INFO_RECORDS d w.recs.length).fset CSM_SWEEP_INFO_CONTEXT d w.ctx
  (((s.fsat CSM_SWEEP_EST_EST d w.scaled).pmc d 0x01 1 0 (some w.ctx)).pinPlan d w.id).lastTile d w.id

/-- SWEEP_START (R104, R125): the next admitted sweep takes the Casement when it is idle and not paused. -/
def execSweepStart (d t : Nat) (s : State) : Host.Outcome State Fault Refusal :=
  let s := (s.advanceTo t).settleFences d
  if (s.running? d).isSome || s.fbit DPM_STATUS_PAUSED d || s.dieDown d then .next s
  else
    match (s.csm d).sweeps.find? (fun w => !w.started) with
    | some w => .next (s.startSweep d w)
    | none => .next s

/-! ### The plan (R126, R141, R158, R165) -/

/-- Blocks of some record's snapshot that the finished plan does not fetch (R141). -/
def State.countSkips (s : State) (d : Nat) (w : Sweep) : State :=
  let n := s.allBlks d (w.recs.map (fun r => (r.held.step, r.snap))) - ((w.blocks.map (fun b => (b.page, b.blk))).eraseDups).length
  (s.fadd CSM_SKIPS_COUNT d n).pmc d 0x07 n n (some w.ctx)

/-- The plan of a sweep made; it is complete at once when no record has a candidate block. -/
def State.makePlan (s : State) (d : Nat) (w : Sweep) : State :=
  let pairs := w.recs.map (fun r => (r.held.step, r.snap))
  let sums := s.summaryPlan d w.shape pairs
  let recs := w.recs.map (fun r =>
    { r with skipped := (s.snapBlks d r.held.step.layer r.snap).length - (s.recBlks d w.shape r.held.step r.snap).length })
  let w := { w with planned := true, selDone := sums.isEmpty, summaries := sums, blocks := s.planOf d w.shape pairs, recs := recs }
  let s := s.modSweep d w.id (fun _ => w.noteDone)
  let s := if w.selDone then s.countSkips d w else s
  (s.pinPlan d w.id).lastTile d w.id

/-- PLAN_COMPLETE (R126). -/
def execPlanComplete (d sweep : Nat) (s : State) : Host.Outcome State Fault Refusal :=
  match s.sweep? d sweep with
  | some w => .next (if w.planned then s else s.makePlan d w)
  | none => .next s

/-! ### Committing blocks in plan order (R126, R129, R145, R165, R180) -/

/-- Live records that need a block. -/
def PlanBlk.liveNeed (b : PlanBlk) (w : Sweep) : List (Nat × List Nat) := b.need.filter (fun x => w.recLive x.1)

/-- The step records of a sweep with their snapshots. -/
def Sweep.steps (w : Sweep) : List (StepRec × Snap) := w.recs.map (fun r => (r.held.step, r.snap))

/-- Rows of a tile that take part in it: those of live records. A tile keeps its number when a record of it fails (DESIGN CHOICE, log entry 114). -/
def PlanBlk.liveRows (b : PlanBlk) (w : Sweep) (head group n : Nat) : List (Nat × Nat) :=
  (b.tileRows w.shape w.steps head group n).filter (fun x => w.recLive x.1)

/-- Tiles of a block that its live records still want, with the rows that take part (DESIGN CHOICE, log entry 114). -/
def PlanBlk.wanted (b : PlanBlk) (w : Sweep) : List (Nat × Nat × Nat × Nat) :=
  ((b.tileList w.shape w.steps).map (fun t => (t.1, t.2.1, t.2.2.1, (b.liveRows w t.1 t.2.1 t.2.2.1).length))).filter
    (fun t => t.2.2.2 != 0)

/-- Whether the panes are through with a block: every tile of it that has live rows is done (DEDUCED, log entry 125). -/
def PlanBlk.consumed (b : PlanBlk) (w : Sweep) : Bool :=
  b.failed || (b.liveNeed w).isEmpty
    || (b.expanded && (b.wanted w).all (fun t => b.tiles.contains (tileCode t.1 t.2.1 t.2.2.1)))

/-- Whether a block may commit: its tiles are done, and so are the query projections of its LATENT records (R145, R171) (DESIGN CHOICE, log entry 121). -/
def PlanBlk.done (b : PlanBlk) (w : Sweep) : Bool :=
  b.consumed w && (b.failed || (b.liveNeed w).all (fun x => match w.recs[x.1]? with | some r => r.projDone w.shape 0 | none => true))

/-- The rows of a record updated with a block, for the heads that need it (R129, R161, R176). -/
def State.recBlock (s : State) (d : Nat) (c : Ctx) (b : PlanBlk) (heads : List Nat) (r : SweepRec) : SweepRec :=
  let st := r.held.step
  let rows := (numbered r.rows).map (fun x =>
    if heads.isEmpty || heads.contains (rowHead c x.1) then
      (if st.kind = 5 then s.rowBackward d c st r.snap b x.1 x.2 else s.rowForward d c st r.snap b x.1 x.2)
    else x.2)
  { r with rows := rows, tLast := some s.clk.tNs }

/-- A record's gradient partials of a block added to its region (R180, R183). -/
def State.recGrad (s : State) (d : Nat) (c : Ctx) (b : PlanBlk) (r : SweepRec) : State :=
  let st := r.held.step
  if st.kind = 5 ∧ st.list then
    match tget (s.csm d).grads st.extra with
    | none => s
    | some g =>
      if g.poisoned then s
      else
        let g := (List.range c.h).foldl (fun g h => addGrad g (s.gradTerms d c st r.snap b h g)) g
        s.modCsm d (fun x => { x with grads := tput x.grads st.extra g })
  else s

/-- Records whose last block in plan order a block is take their places in the order of finalisation: `rest` are the blocks
behind it (R126) (DESIGN CHOICE, log entry 115). -/
def Sweep.noteLast (w : Sweep) (b : PlanBlk) (rest : List PlanBlk) : Sweep :=
  let last (i : Nat) : Bool := b.need.any (fun x => x.1 == i) && !rest.any (fun y => y.need.any (fun x => x.1 == i))
    && w.recLive i && !w.order.contains i && (match w.recs[i]? with | some r => r.projDone w.shape 1 | none => false)
  if w.selDone then { w with order := w.order ++ (List.range w.recs.length).filter last } else w

/-- A block commits: the rows of its live records, then their gradient partials, in admission order. -/
def State.commitBlk (s : State) (d id : Nat) (b : PlanBlk) (rest : List PlanBlk) : State :=
  match s.sweep? d id with
  | none => s
  | some w =>
    let need := if b.blk = 8 ∨ b.failed then [] else b.liveNeed w
    let s := need.foldl (fun s x => s.modRec d id x.1 (s.recBlock d w.shape b x.2)) s
    let s := need.foldl (fun s x =>
      match (s.sweep? d id).bind (fun w => w.recs[x.1]?) with
      | some r => s.recGrad d w.shape b r
      | none => s) s
    let s := s.modSweep d id (fun w => w.noteLast b rest)
    s.modCsm d (fun c => { c with store := c.store.map (fun e => if e.page = b.page ∧ e.blk = b.blk then { e with pinned := false } else e) })

/-- Blocks committed from the front of a list while they are done. -/
def State.commitFront (s : State) (d id : Nat) : List PlanBlk → List PlanBlk × State
  | [] => ([], s)
  | b :: l =>
    if b.committed then
      let (l, s) := s.commitFront d id l
      (b :: l, s)
    else
      match s.sweep? d id with
      | none => (b :: l, s)
      | some w =>
        if b.done w then
          let (l, s) := (s.commitBlk d id b l).commitFront d id l
          ({ b with committed := true } :: l, s)
        else (b :: l, s)

/-- The selection stage: each SELECTIVE record keeps its blocks, and the plan is completed with them (R160, R161, R165). -/
def State.selectAll (s : State) (d id : Nat) : State :=
  match s.sweep? d id with
  | none => s
  | some w =>
    let c := w.shape
    let one (acc : List PlanBlk × List SweepRec) (x : Nat × SweepRec) : List PlanBlk × List SweepRec :=
      let r := x.2
      if r.held.step.kind ≠ 3 ∨ r.live = false then (acc.1, acc.2 ++ [r])
      else
        let cand := (s.split d c r.held.step r.snap).2
        let sel := s.select d c r.held.step w.summaries cand
        let add (pl : List PlanBlk) (b : BlkRef) : List PlanBlk :=
          let heads := (List.range c.h).filter (fun h => (sel.getD h []).contains (b.b0 / 16))
          if heads.isEmpty then pl else addNeed (s.planBlk d c x.1 r.held.step.layer heads b) pl
        (cand.foldl add acc.1, acc.2 ++ [{ r with sel := sel }])
    let (blocks, recs) := (numbered w.recs).foldl one (w.blocks, [])
    let w := { w with selDone := true, blocks := blocks, recs := recs }
    ((s.modSweep d id (fun _ => w.noteDone)).countSkips d w).pinPlan d id

/-- Whatever the present stage of a sweep allows is committed; selection follows the last summary tile, and the sweep ends
with its last tile. -/
def State.advanceSweep (s : State) (d id : Nat) : State :=
  let stage (s : State) : State :=
    match s.sweep? d id with
    | none => s
    | some w =>
      if !w.planned then s
      else if !w.selDone then
        let (l, s) := s.commitFront d id w.summaries
        let s := s.modSweep d id (fun w => { w with summaries := l })
        if l.all (·.committed) then s.selectAll d id else s
      else
        let (l, s) := s.commitFront d id w.blocks
        s.modSweep d id (fun w => { w with blocks := l })
  ((((stage (stage s)).modSweep d id Sweep.noteDone).lastTile d id).gradSettle d).settleFences d

/-! ### Uncorrectable reads (R466, R468, R493) -/

/-- Payload of MEM_UE. -/
def uePayload (u : UeOcc) : List Byte := le 1 u.mem ++ le 1 u.unit ++ le 2 0 ++ le 4 u.count ++ le 4 (u.addr / 256)

/-- An uncorrectable line of a stack: more than 64 in one second fence it (R471). -/
def State.stackUe (s : State) (d k : Nat) : State :=
  let now := s.clk.tNs
  let l := (dget s.ras.ueT [] (4 * d + k)).filter (fun t => decide (now < t + secNs)) ++ [now]
  let s := { s with ras := { s.ras with ueT := dset s.ras.ueT [] (4 * d + k) (l.drop (l.length - 65)) } }
  if 64 < l.length then s.hwFence uStack d k else s

/-- An uncorrectable read counted and posted as MEM_UE, at most once per tick (R468, R493). `mem` is 1 HBM, 2 SRAM,
3 UCIe. -/
def State.noteUe (s : State) (d mem unit addr : Nat) : State :=
  let s := if mem = 1 then s.fadd RAS_UE_HBM_COUNT d 1 else if mem = 2 then s.fadd RAS_UE_SRAM_COUNT d 1 else s.fadd RAS_UE_D2D_COUNT d 1
  let s := s.evtPkg RAS_EVENT_UE
  let s := if mem = 1 then s.stackUe d unit else s
  let u := dget s.ras.ue UeOcc.init d
  let u := { u with mem := mem, unit := unit, count := u.count + 1, addr := addr }
  let put (s : State) (u : UeOcc) : State := { s with ras := { s.ras with ue := dset s.ras.ue UeOcc.init d u } }
  if u.posted then put s u else (put s { u with count := 0, posted := true }).dieEvent d 0x64 (uePayload u)

/-- Occurrences still to be posted, at a tick boundary (DEDUCED, log entry 13). -/
def State.ueTick (s : State) (d : Nat) : State :=
  let u := dget s.ras.ue UeOcc.init d
  let put (s : State) (u : UeOcc) : State := { s with ras := { s.ras with ue := dset s.ras.ue UeOcc.init d u } }
  if u.count = 0 then put s { u with posted := false }
  else (put s { u with count := 0, posted := true }).dieEvent d 0x64 (uePayload u)

/-- A segment retired: it never returns to the free pool (R466). -/
def State.retire (s : State) (d seg : Nat) : State :=
  if (s.retiredSegs d).contains seg then s
  else
    let s := { s with ras := { s.ras with retired := dset s.ras.retired [] d (insNat seg (s.retiredSegs d)) } }
    let s := s.modPfx d (fun x => if x.used.contains seg then x else { x with used := insNat seg x.used })
    (s.fadd RAS_RETIRED_SEGS d 1).evtPkg RAS_EVENT_RETIRED

/-! ### Failed blocks (R207, R208, R212) -/

/-- A rebuild task of a page (R208, R209); `atm` is the atomizer that failed the block, 4 for none. -/
def State.startRebuild (s : State) (d page atm : Nat) : State :=
  match s.page? d page with
  | none => s
  | some p =>
    if p.st = .sealed then
      let s := s.modPage d page (fun p => { p with st := .suspect })
      let s := s.modCsm d (fun c => { c with rebuilds := c.rebuilds ++ [(page, 1, atm)] })
      s.fsat ATM_STATUS_REBUILDS d (s.csm d).rebuilds.length
    else s

/-- A fault charged to an atomizer, which is fenced at FAULT_MAX: here, at its block boundary (R210). -/
def State.chargeAtm (s : State) (d a : Nat) : State :=
  if 4 ≤ a then s
  else
    let F := faultsFld a
    let s := s.fadd F d 1
    let m := s.inForce ATM_CFG_FAULT_MAX d
    if m ≠ 0 ∧ m ≤ s.fget F d ∧ s.fbitAt CSM_STATUS_ATM_ACT d a then
      (if s.heldOff uAtm d a then s else s.evtDie ATM_EVENT_ATM_FENCED d).hwFence uAtm d a
    else s

/-- The records of the sweep on the Casement that a block's failure ends (R207). -/
def State.failUsers (s : State) (d id : Nat) (b : PlanBlk) : State :=
  match s.sweep? d id with
  | none => s
  | some w =>
    let l := w.liveOf (b.need.map (·.1))
    (s.failRecs d id stINTEGRITY l).fadd ATM_INTEGRITY_COUNT d l.length

/-- A block of the running sweep changed. -/
def State.modBlk (s : State) (d id : Nat) (b : PlanBlk) (f : PlanBlk → PlanBlk) : State :=
  let g (x : PlanBlk) : PlanBlk := if x.page = b.page ∧ x.blk = b.blk ∧ x.layer = b.layer then f x else x
  s.modSweep d id (fun w => { w with summaries := w.summaries.map g, blocks := w.blocks.map g })

/-- The block that a command names in the running sweep, in its present stage. -/
def Sweep.blk? (w : Sweep) (page blk : Nat) : Option PlanBlk :=
  if !w.planned then none
  else if !w.selDone then w.summaries.find? (fun b => b.page == page && b.blk == blk && !b.committed)
  else w.blocks.find? (fun b => b.page == page && b.blk == blk && !b.committed)

/-! ### Fetching a block (R200 to R202, R232, R468) -/

/-- Size of the operand store (R202). -/
def storeMax : Nat := 134217728

/-- Least recently used unpinned entries dropped until the store holds at most `room` bytes; `n` bounds them. -/
def evictStore (room : Nat) : Nat → List StoreEnt → List StoreEnt
  | 0, l => l
  | n + 1, l =>
    if sumNat (l.map (·.bytes)) ≤ room then l
    else
      match l.find? (fun e => !e.pinned) with
      | some e => evictStore room n (l.filter (fun x => !(x.page == e.page && x.blk == e.blk)))
      | none => l

/-- A block used from the store, or put into it: it becomes the most recently used entry, pinned. -/
def Casement.useStore (c : Casement) (page blk bytes : Nat) : Casement :=
  let rest := c.store.filter (fun e => !(e.page == page && e.blk == blk))
  let rest := evictStore (storeMax - bytes) rest.length rest
  if storeMax < sumNat (rest.map (·.bytes)) + bytes then { c with store := rest }
  else { c with store := rest ++ [⟨page, blk, bytes, true⟩] }

/-- A sealed block, summary area or tail block whose HBM line cannot be read (R468). -/
def State.ueBlock (s : State) (d id : Nat) (b : PlanBlk) (addr : Nat) : State :=
  let s := (s.noteUe d 1 (addr / 2 ^ 36) addr).retire d (addr / 4096)
  let s := (s.failUsers d id b).modBlk d id b (fun x => { x with fetched := true, failed := true })
  if b.tail then
    match s.page? d b.page with
    | none => s
    | some p =>
      if p.place.flash then
        (s.dropFrame d b.page).stageIn d b.page 0
      else s.loseTail d b.page
  else (s.dropStore d b.page).startRebuild d b.page 4

/-- What a fetched block adds to the trace of a record that needs it (R536). -/
def SweepRec.fetch (r : SweepRec) (b : PlanBlk) (hit : Bool) : SweepRec :=
  { r with
    blocks := r.blocks + 1
    hits := r.hits + hit.toNat
    codedB := r.codedB + (if b.coded then b.bytes else 0)
    rawB := r.rawB + (if b.coded then 0 else b.bytes) }

/-- Bytes of a page's header, index and accord tables (R187, R192). -/
def Page.tableBytes (c : Ctx) (p : Page) : Nat :=
  192 + (if p.blks.all (·.raw) then 0 else 16 + sumNat ((p.strs c).map (fun s => alphabet s.1 / 2)))

/-- Size of the table cache (R201). -/
def tableMax : Nat := 33554432

/-- Least recently used entries dropped from a table cache until it holds at most `room` bytes, those of pages with a block in
flight aside; `n` bounds them (DEDUCED, log entry 124). -/
def evictTables (room : Nat) (busy : Nat → Bool) : Nat → List TabEnt → List TabEnt
  | 0, l => l
  | n + 1, l =>
    if sumNat (l.map (·.bytes)) ≤ room then l
    else
      match l.find? (fun e => !busy e.page) with
      | some e => evictTables room busy n (l.filter (fun x => x.page != e.page))
      | none => l

/-- Whether a block is in flight: fetched, and neither released nor discarded. -/
def PlanBlk.inFlight (b : PlanBlk) : Bool := b.fetched && !b.expanded && !b.failed

/-- The tables of a page loaded before its first block is expanded, and checked (R201, R206): `read` are their bytes where they
are not the stored ones. Tables that are in the cache are used again (DESIGN CHOICE, log entry 123; DEDUCED, log entry 124). -/
def State.loadTables (s : State) (d : Nat) (w : Sweep) (page : Nat) (read : Option (List Byte)) : State :=
  match s.page? d page with
  | none => s
  | some p =>
    let busy (id : Nat) : Bool := (w.summaries ++ w.blocks).any (fun b => b.page == id && b.inFlight)
    match (s.csm d).tables.find? (fun e => e.page == page) with
    | some e => s.modCsm d (fun c => { c with tables := c.tables.filter (fun x => x.page != page) ++ [e] })
    | none =>
      let e : TabEnt := ⟨page, p.tableBytes w.shape, read⟩
      let s := s.modCsm d (fun c => { c with tables := evictTables (tableMax - e.bytes) busy c.tables.length c.tables ++ [e] })
      let sound := match read.or p.stored with
        | none => true
        | some b => tablesOk w.shape.latent (p.strs w.shape) p.format p.bytes b
      if sound then s else s.modSweep d w.id (fun w => { w with badTabs := page :: w.badTabs })

/-- BLOCK_FETCH_DONE (R200 to R202): the next block of the stage in plan order is in the operand store and issued to an
atomizer. `tab` are the bytes of its page's tables as they were loaded with it, where they are not the stored ones; `ue` is
the HBM byte address of a line that could not be read (R468) (DEDUCED, log entry 34). -/
def execBlockFetchDone (d page blk : Nat) (tab : Option (List Byte)) (ue : Option Nat) (s : State) : Host.Outcome State Fault Refusal :=
  match s.running? d with
  | none => .next s
  | some w =>
    let list := if w.selDone then w.blocks else w.summaries
    match (if w.planned then list.find? (fun b => !b.fetched) else none) with
    | none => .next s
    | some b =>
      if b.page ≠ page ∨ b.blk ≠ blk then .next s
      else
        let hit := (s.csm d).store.any (fun e => e.page == page && e.blk == blk)
        let s := s.heatUp d page
        match ue with
        | some a => .next ((s.ueBlock d w.id b a).advanceSweep d w.id)
        | none =>
          let s := if hit then (s.fadd ATM_STORE_HITS_COUNT d 1).pmc d 0x06 1 b.bytes (some w.ctx)
            else
              let s := (s.fadd ATM_STORE_MISSES_COUNT d 1).pmc d 0x05 1 b.bytes (some w.ctx)
              s.hbmRead d b.bytes (some w.ctx)
          let s := if b.tail then s else (s.modCsm d (fun c => c.useStore page blk b.bytes)).loadTables d w page tab
          let a := (s.pickAtm d (w.summaries ++ w.blocks)).getD 0
          let s := s.modBlk d w.id b (fun x => { x with fetched := true, atomizer := a })
          let s := (b.liveNeed w).foldl (fun s x => s.modRec d w.id x.1 (fun r => r.fetch b hit)) s
          .next (s.advanceSweep d w.id)

/-! ### Expanding a block (R203 to R212, R215) -/

/-- Plain-form bytes of a block (R185, R189): those of a raw block, tail block or summary area are its own. -/
def State.plainBytes (s : State) (d : Nat) (c : Ctx) (b : PlanBlk) : Nat :=
  if !b.coded then b.bytes
  else
    match s.page? d b.page with
    | some p => plainSize (streamsOf c.latent c.h c.d c.w p.format)
    | none => b.bytes

/-- A block that passed its checks is released (R204); `elems` are its positions where they are not the stored ones. -/
def State.releaseBlk (s : State) (d id : Nat) (c : Ctx) (b : PlanBlk) (ctx : Nat) (elems : Option (List Pos)) : State :=
  let plain := s.plainBytes d c b
  let sat (a n : Nat) : Nat := min (a + n) (2 ^ 64 - 1)
  let s := s.modCsm d (fun x =>
    { x with
      coded := if b.coded then sat x.coded b.bytes else x.coded
      rawBytes := if b.coded then x.rawBytes else sat x.rawBytes b.bytes
      plain := sat x.plain plain })
  let s := if b.coded then (s.fadd ATM_BLOCKS_COUNT d 1).pmc d 0x08 1 b.bytes (some ctx)
    else
      let s := if !b.tail && b.blk != 8 then s.fadd ATM_RAWBLKS_COUNT d 1 else s
      s.pmc d 0x09 1 b.bytes (some ctx)
  s.modBlk d id b (fun x => { x with expanded := true, elems := elems })

/-- A block that failed is discarded at the port (R207, R208, R212). -/
def State.discardBlk (s : State) (d id : Nat) (b : PlanBlk) (pageCheck : Bool) : State :=
  let s := (s.fadd ATM_MISMATCH_COUNT d 1).evtDie ATM_EVENT_MISMATCH d
  let s := if pageCheck && !b.tail then s.evtDie ATM_EVENT_TABLE_BAD d else s
  let s := (s.failUsers d id b).modBlk d id b (fun x => { x with failed := true })
  if b.tail then s.chargeAtm d b.atomizer
  else (s.dropStore d b.page).startRebuild d b.page b.atomizer

/-- A fence written for an atomizer takes effect at its block boundary (R214) (DESIGN CHOICE, log entry 120). -/
def State.atmBoundary (s : State) (d a : Nat) : State :=
  if (s.csm d).atmFence.testBit a then s.setUnit uAtm d a 2 (fun r => { r with data := 2 }) 4 else s

/-- What the checks of R206 and R212 make of a block: failed, by a check of its page or not, or released with its elements,
none for the stored ones. -/
inductive Expanded where
  | failed (pageCheck : Bool)
  | released (elems : Option (List Pos))
deriving DecidableEq, Repr

/-- The positions of tail data, or the keys of a summary area, `n` 16-bit elements each. -/
def wordRows (n count : Nat) (b : List Byte) : List Pos := (List.range count).map (fun i => ⟨numsAt b (2 * n * i) 2 n, []⟩)

/-- A block expanded at its port and checked (R206, R212): `read` are the bytes delivered to the atomizer where they are not the
stored ones (DESIGN CHOICE, log entry 123). -/
def State.expandOf (s : State) (d : Nat) (w : Sweep) (b : PlanBlk) (read : Option (List Byte)) : Expanded :=
  let c := w.shape
  match s.page? d b.page with
  | none => .released none
  | some p =>
    if b.tail then
      match read with
      | none => .released none
      | some l => if l.length ≠ b.bytes then .failed false else .released (some (wordRows c.elems b.present l))
    else if w.badTabs.contains b.page then .failed true
    else if b.blk = 8 then
      match read with
      | none => .released none
      | some l => if l.length ≠ p.sumBytes then .failed false else .released (some (wordRows c.d (8 * c.h) l))
    else
      let tab := ((s.csm d).tables.find? (fun e => e.page == b.page)).bind (·.read)
      if read.isNone && tab.isNone && p.stored.isNone then .released none
      else
        let img := p.image c
        match expandAt (p.strs c) (tab.getD img) b.blk (read.getD (blkOf img b.blk)) with
        | some l => .released (some l)
        | none => .failed false

/-- Blocks that hold a slot of an atomizer's port buffer: released, and not yet consumed by the panes (R204) (DEDUCED, log entry 125). -/
def Sweep.portUse (w : Sweep) (a : Nat) : Nat :=
  ((w.summaries ++ w.blocks).filter (fun b => b.expanded && !b.committed && b.atomizer == a && !b.consumed w)).length

/-- BLOCK_EXPAND_DONE (R203 to R206): `read` are the bytes delivered to the atomizer where they are not the stored ones; `wait`
are the pane wait cycles charged to it (R205). An atomizer with both slots full waits. -/
def execBlockExpandDone (d page blk : Nat) (read : Option (List Byte)) (wait : Nat) (s : State) : Host.Outcome State Fault Refusal :=
  match s.running? d with
  | none => .next s
  | some w =>
    match w.blk? page blk with
    | none => .next s
    | some b =>
      if !b.inFlight || decide (2 ≤ w.portUse b.atomizer) then .next s
      else
        let a := b.atomizer
        let s := s.fadd (ATM_WAIT_CYCLES.nth a) d wait
        let s := if b.coded && (s.csm d).injAtm.testBit a then
            (s.evtDie ATM_EVENT_INJECT_SEEN d).modCsm d (fun c => { c with injAtm := setBit c.injAtm a false })
          else s
        let s := match s.expandOf d w b read with
          | .released elems => s.releaseBlk d w.id w.shape b w.ctx elems
          | .failed p => s.discardBlk d w.id b p
        .next ((s.atmBoundary d a).advanceSweep d w.id)

/-! ### Tile products (R105, R145 to R149, R164, R173) -/

/-- Live records with a row in a tile; block 9 stands for the projection tiles of record `head`, those of the query in group 0
and those of the output in group 1 (R173) (DESIGN CHOICE, log entry 114; DESIGN CHOICE, log entry 121). -/
def tileRecs (w : Sweep) (b : PlanBlk) (head group n : Nat) : List Nat :=
  if b.blk = 9 then
    match w.recs[head]? with
    | some r => if w.recLive head && (projTiles w.shape r.held.step group).contains (0x10000 * group + n) then [head] else []
    | none => []
  else ((b.liveRows w head group n).map (·.1)).eraseDups

/-- Whether a tile may be issued: a projection of the output follows the record's last block (DESIGN CHOICE, log entry 121). -/
def tileOpen (w : Sweep) (b : PlanBlk) (head group : Nat) : Bool :=
  b.blk != 9 || (w.planned && decide (group < 2) && (group == 0 || (w.selDone
    && w.blocks.all (fun x => x.committed || !x.need.any (fun y => y.1 == head)))))

/-- Whether a tile is done. -/
def tileIsDone (w : Sweep) (b : PlanBlk) (head group n : Nat) : Bool :=
  if b.blk = 9 then (match w.recs[head]? with | some r => r.proj.contains (0x10000 * group + n) | none => true)
  else b.tiles.contains (tileCode head group n)

/-- Product cycles of a tile (R105). -/
def tileCost (w : Sweep) (b : PlanBlk) (head group n : Nat) : Nat :=
  if b.blk = 9 then
    match w.recs[head]? with
    | some r => prodCycles (group == 0 && fp8Proj w.shape r.held.step) (min 256 (r.held.step.nRows w.shape - 256 * n) * w.shape.w * w.shape.d)
    | none => 0
  else
    match (b.wanted w).find? (fun t => t.1 == head && t.2.1 == group && t.2.2.1 == n) with
    | some t => tileCycles w.shape b group t.2.2.2
    | none => 0

/-- Projection tiles of a sweep have no block. -/
def projBlk : PlanBlk :=
  { layer := 0, page := 0, blk := 9, posBase := 0, present := 0, bytes := 0, coded := false, tail := false, need := [],
    fetched := true, expanded := true, failed := false, atomizer := 0, tiles := [], committed := false,
    elems := none }

/-- A tile that passed its checks, or whose records ended, is marked done. -/
def State.markTile (s : State) (d id : Nat) (b : PlanBlk) (head group n : Nat) : State :=
  if b.blk = 9 then s.modRec d id head (fun r => { r with proj := r.proj ++ [0x10000 * group + n] })
  else s.modBlk d id b (fun x => { x with tiles := tileCode head group n :: x.tiles })

/-- A tile is rerun: RERUN in every record with a row in it, and its cycles (R146). -/
def State.rerunTile (s : State) (d id : Nat) (ctx : Nat) (recs : List Nat) (cycles : Nat) : State :=
  let s := recs.foldl (fun s i => s.modRec d id i (fun r =>
    { r with rerun := true, flags := Nat.lor r.flags 2, reruns := r.reruns + 1 })) s
  (s.fadd CSM_RERUN_CYC_CYCLES d cycles).pmc d 0x04 1 cycles (some ctx)

/-- A tile of the running sweep as a command names it: block, head, group, number; its key and code in the list of reruns; and the
records with a row in it. -/
structure TileRef where
  b : PlanBlk
  head : Nat
  group : Nat
  n : Nat
  recs : List Nat

def TileRef.key (x : TileRef) : Nat := 16 * x.b.page + x.b.blk
def TileRef.code (x : TileRef) : Nat := tileCode x.head x.group x.n

/-- The rerun entry of a tile: its mismatches so far and the pane of the latest one. -/
def Sweep.seen (w : Sweep) (x : TileRef) : Option (Nat × Nat) :=
  (w.retry.find? (fun e => e.1 == x.key && e.2.1 == x.code)).map (fun e => (e.2.2.1, e.2.2.2))

/-- The reruns of a sweep with a tile's entry replaced or taken out. -/
def State.setRetry (s : State) (d id : Nat) (x : TileRef) (e : Option (Nat × Nat)) : State :=
  s.modSweep d id (fun w =>
    { w with retry := w.retry.filter (fun y => !(y.1 == x.key && y.2.1 == x.code)) ++ (e.toList.map (fun v => (x.key, x.code, v.1, v.2))) })

/-- The lowest-numbered active pane. -/
def State.lowPane (s : State) (d : Nat) : Option Nat := (List.range 4).find? (fun p => (s.paneUse d).testBit p)

/-- Whether a result of a tile may come from a pane: a first run from any pane that takes tiles, the first rerun from the same
pane while it does, any other rerun from the lowest-numbered active pane (R146) (DESIGN CHOICE, log entry 120). -/
def State.paneTakes (s : State) (d : Nat) (w : Sweep) (x : TileRef) (pane : Nat) : Bool :=
  (s.paneUse d).testBit pane &&
    (match w.seen x with
     | none => true
     | some (n, p) => if n = 1 ∧ (s.paneUse d).testBit p then pane == p else s.lowPane d == some pane)

/-- A mismatch of a tile on a pane (R146): rerun, fence, or failure of its records. An injected one is a first mismatch, of a
rerun too, and leaves the tile's count of mismatches (R149) (DEDUCED, log entry 119). -/
def State.tileMismatch (s : State) (d pane : Nat) (w : Sweep) (x : TileRef) (inj : Bool) (cycles : Nat) : State :=
  let seen := match w.seen x with | some e => e.1 | none => 0
  let s := (s.fadd CSM_MISMATCH_COUNT d 1).evtDie CSM_EVENT_MISMATCH d
  if seen = 0 ∨ inj then
    let s := s.fadd (CSM_PANE_RETRY_COUNT.nth pane) d 1
    (s.setRetry d w.id x (some (max 1 seen, pane))).rerunTile d w.id w.ctx x.recs cycles
  else if seen = 1 then
    let s := s.setRetry d w.id x (some (2, pane))
    let held := s.heldOff uPane d pane
    let alone := !held && setBit (s.paneUse d) pane false == 0
    let s := if alone then s else s.rerunTile d w.id w.ctx x.recs cycles
    (if held then s else s.evtDie CSM_EVENT_PANE_FENCED d).hwFence uPane d pane
  else
    let s := (s.setRetry d w.id x none).evtDie CSM_EVENT_DOUBLE d
    let l := w.liveOf x.recs
    let s := (s.failRecs d w.id stINTEGRITY l).fadd CSM_INTEGRITY_COUNT d l.length
    s.markTile d w.id x.b x.head x.group x.n

/-- A tile whose checks pass commits (R145). -/
def State.tileCommit (s : State) (d : Nat) (w : Sweep) (x : TileRef) (cycles issued : Nat) : State :=
  let s := s.setRetry d w.id x none
  let s := ((s.fadd CSM_TILES_COUNT d 1).pmc d 0x02 1 cycles (some w.ctx))
  let s := x.recs.foldl (fun s i => s.modRec d w.id i (fun r => { r with tTile := r.tTile.or (some issued) })) s
  s.markTile d w.id x.b x.head x.group x.n

/-- A fence written for a pane takes effect at its tile boundary (R148) (DESIGN CHOICE, log entry 120). -/
def State.paneBoundary (s : State) (d p : Nat) : State :=
  if (s.csm d).paneFence.testBit p then s.setUnit uPane d p 2 (fun r => { r with data := 2 }) 4 else s

/-- TILE_PRODUCT_DONE (R146): the tile `n` of a head and group of a block, issued at `issued` on a pane, whose residues match
or not; `stall` are the stall cycles before it (R144). An injected error is a mismatch (R149). -/
def execTileProductDone (d pane page blk head group n : Nat) (mismatch : Bool) (issued stall t : Nat) (s : State) :
    Host.Outcome State Fault Refusal :=
  let s := s.advanceTo t
  match s.running? d with
  | none => .next s
  | some w =>
    match (if blk = 9 then some projBlk else w.blk? page blk) with
    | none => .next s
    | some b =>
      let x : TileRef := ⟨b, head, group, n, tileRecs w b head group n⟩
      let since := tget s.pwr.pauseT d
      let late := match since with | some (q, _) => decide (q < issued) | none => false
      if !b.expanded || !tileOpen w b head group || tileIsDone w b head group n || x.recs.isEmpty || !s.paneTakes d w x pane || late then
        .next s
      else
        -- a paused Casement commits the tile in progress first (R506)
        let s := match since with
          | some (q, _) => { s with pwr := { s.pwr with pauseT := tput s.pwr.pauseT d (q, s.clk.tNs) } }
          | none => s
        let cycles := tileCost w b head group n
        let inj := (s.csm d).injPane.testBit pane
        let s := s.modCsm d (fun c => { c with injPane := setBit c.injPane pane false })
        let s := s.modSweep d w.id (fun w => { w with stall := w.stall + stall })
        let s := if stall = 0 then s else s.pmc d 0x03 1 stall (some w.ctx)
        let s := if mismatch || inj then s.tileMismatch d pane w x inj cycles else s.tileCommit d w x cycles issued
        .next ((s.paneBoundary d pane).advanceSweep d w.id)

/-! ### Finalisation and delivery (R119, R132 to R134, R470) -/

/-- Whether a record is the next to be finalised: it has met its last block, and those that met theirs before are finalised or
ended (R126) (DESIGN CHOICE, log entry 115). -/
def Sweep.mayFinalise (w : Sweep) (i : Nat) : Bool :=
  w.order.contains i && (w.order.takeWhile (· != i)).all (fun j => !w.recLive j)

/-- RECORD_FINALISE (R132): `bad` says that the finalise unit and its duplicate differ twice (R470). -/
def execRecordFinalise (d sweep i : Nat) (bad : Bool) (t : Nat) (s : State) : Host.Outcome State Fault Refusal :=
  let s := s.advanceTo t
  match s.sweep? d sweep with
  | none => .next s
  | some w =>
    match w.recs[i]? with
    | none => .next s
    | some r =>
      if !r.live || r.finalised || !w.started || !w.mayFinalise i then .next s
      else if bad then .next ((((s.failRec d sweep i stINTEGRITY).lastTile d sweep).gradSettle d).settleFences d)
      else
        let st := r.held.step
        let (out, nonfin, empty) := outBlock w.shape st r.rows r.sel
        let s := if nonfin then (s.fadd CSM_NONFINITE_COUNT d 1).evtDie CSM_EVENT_NONFINITE d else s
        let s := if st.kind = 5 ∧ st.list then
            s.modCsm d (fun c => { c with grads := tmod c.grads st.extra (fun g => if g.poisoned then g else { g with count := g.count + 1 }) })
          else s
        let (m, dropped, s) := s.sendOutput d sweep i r.held out
        let s := s.modRec d sweep i (fun r =>
          { r with
            finalised := true, output := out, outMsg := m, delivered := dropped, tFin := some s.clk.tNs
            flags := Nat.lor r.flags (nonfin.toNat + 4 * empty.toNat) })
        .next ((((s.lastTile d sweep).sweepOver d sweep).gradSettle d).settleFences d)

/-- RESULT_DELIVERED (R49 to R51). -/
def execResultDelivered (d sweep i t : Nat) (s : State) : Host.Outcome State Fault Refusal :=
  .next (((s.advanceTo t).deliverRec d sweep i).settleFences d)

end Sys2Proof.Machine
end

