-- ==== Sys2Proof/Machine/Counters.lean ====
section
/-!
DEFINITION. Sys2Proof/Machine/Counters.lean: the counters of chapter 15: freezes, snapshots, windows, histograms and the
counter page (R526 to R543).
-/
namespace Sys2Proof.Machine

/-! ### Freezes (R530) -/

/-- The partition's freeze bit written; PEVENT.FROZEN tells of a freeze that begins (DEDUCED, log entry 58). -/
def State.freezePart (s : State) (p : Nat) (on : Bool) : State :=
  let was := s.fbit PMC_SNAP_FREEZE p
  let s := s.fput PMC_SNAP_FREEZE p on
  if on && !was then s.evtPart PMC_PEVENT_FROZEN p else s

/-- PARTITION_FREEZE. -/
def execPartitionFreeze (p : Nat) (on : Bool) (via : Via) (s : State) : Host.Outcome State Fault Refusal :=
  .next (if p < 8 then regWrite via (PMC_SNAP_FREEZE.at_ p) s (fun s => s.freezePart p on) else s)

/-- The package's freeze bit written; PMC_STATUS shows the freeze. -/
def State.freezeAll (s : State) (on : Bool) : State := (s.fput PMC_CTRL_FREEZE 0 on).fput PMC_STATUS_FROZEN 0 on

/-- An armed freeze whose instant has come freezes the package; ARM_AT clears (R530) (DEDUCED, log entry 148). -/
def State.freezeDue (s : State) : State :=
  if s.freezeReached then (s.fset PMC_CTRL_ARM_AT 0 0).freezeAll true else s

/-- PACKAGE_FREEZE (DEDUCED, log entry 148). -/
def execPackageFreeze (on : Bool) (via : Via) (s : State) : Host.Outcome State Fault Refusal :=
  .next (regWrite via (PMC_CTRL_FREEZE.at_ 0) s (fun s => s.freezeDue.freezeAll on))

/-- FREEZE_AT_REACHED. -/
def execFreezeAtReached (t : Nat) (s : State) : Host.Outcome State Fault Refusal := .next (s.advanceTo t).freezeDue

/-! ### Selection of counters and histograms (R526, R539, R543) -/

/-- PMC_IDX_WRITE: a die outside the partition sets CFG_ERR and nothing else (R543). -/
def execPmcIdxWrite (p v : Nat) (via : Via) (s : State) : Host.Outcome State Fault Refusal :=
  .next (if p < 8 then
      regWrite via (PMC_IDX_UNIT.at_ p) s (fun s =>
        if (s.diesOf p).contains (v / 256 % 8) then (s.fset PMC_IDX_UNIT p (v % 16)).fset PMC_IDX_DIE p (v / 256 % 8)
        else s.evtPart PMC_PEVENT_CFG_ERR p)
    else s)

/-- The counter that PMC_IDX selects, as the page keys it. -/
def State.pmcCtrKey (s : State) (p : Nat) : Nat := 16 * s.fget PMC_IDX_DIE p + s.fget PMC_IDX_UNIT p

/-- The histogram unit that PMC_IDX selects, if there is one. -/
def State.histKey (s : State) (p : Nat) : Option Nat :=
  if s.fget PMC_IDX_UNIT p < 4 then some (4 * s.fget PMC_IDX_DIE p + s.fget PMC_IDX_UNIT p) else none

def State.pmcCtrOf (s : State) (p k : Nat) : PmcCtr := dget (s.pmcOf p).ctrs PmcCtr.init k
def State.setPmcCtr (s : State) (p k : Nat) (c : PmcCtr) : State :=
  s.modPmc p (fun x => { x with ctrs := dset x.ctrs PmcCtr.init k c })
def State.histOf (s : State) (p k : Nat) : PmcHist := dget (s.pmcOf p).hists PmcHist.init k
def State.setHist (s : State) (p k : Nat) (h : PmcHist) : State :=
  s.modPmc p (fun x => { x with hists := dset x.hists PmcHist.init k h })

/-- PMC_VALUE_WRITE: the live value is set at once (R526, R529). -/
def execPmcValueWrite (p v : Nat) (via : Via) (s : State) : Host.Outcome State Fault Refusal :=
  .next (if p < 8 then
      regWrite via (PMC_VALUE_VALUE.at_ p) s (fun s => s.setPmcCtr p (s.pmcCtrKey p) { s.pmcCtrOf p (s.pmcCtrKey p) with live := v % 2 ^ 32 })
    else s)

/-- PMC_EVSEL written: a selection takes effect at the next tick boundary (R526, R594). -/
def State.writeEvsel (s : State) (p v : Nat) : State :=
  let c := s.pmcCtrOf p (s.pmcCtrKey p)
  let v := v % 2 ^ 12 + v / 2 ^ 16 % 2 ^ 13 * 2 ^ 16
  s.setPmcCtr p (s.pmcCtrKey p) (if (s.part p).genOn then { c with next := v } else { c with next := v, sel := v })

/-- A unit cleared (R539). -/
def PmcHist.clear (h : PmcHist) : PmcHist := { h with lo := 0xFFFFFFFF, hi := 0, count := 0, sum := 0, bins := [] }

/-- Settings of a unit taken into force; a change clears it (R539). -/
def PmcHist.apply (h : PmcHist) : PmcHist :=
  if h.cfg = h.nextCfg ∧ h.base = h.nextBase then h else { h with cfg := h.nextCfg, base := h.nextBase }.clear

/-- HISTOGRAM_CLR. -/
def execHistogramClr (p : Nat) (via : Via) (s : State) : Host.Outcome State Fault Refusal :=
  .next (if p < 8 then
      regWrite via (PMC_HCFG_CLR.at_ p) s (fun s =>
        match s.histKey p with
        | some k => s.setHist p k (s.histOf p k).clear
        | none => s)
    else s)

/-- Whether a source's PARAM is one it can have (R540). -/
def State.paramOk (s : State) (p src par : Nat) : Bool :=
  if src = 5 then decide (par < 8)
  else if src = 10 then
    if par < 6 * s.nDies then (s.diesOf p).contains (par / 6) else decide (par < 6 * s.nDies + 2)
  else true

/-- The largest source code of R540. -/
def histSrcMax : Nat := 0x0A

/-- PMC_HCFG written without its CLR bit, which is a command of its own: a SRC outside the codes of R540 leaves that field
unchanged (R13), and a bad PARAM the whole register (R540) (DEDUCED, log entry 58). -/
def State.writeHcfg (s : State) (via : Via) (p v : Nat) : State :=
  match s.histKey p with
  | none => s
  | some k =>
    let h := s.histOf p k
    let known := decide (v / 2 ^ 16 % 256 ≤ histSrcMax)
    let src := if known then v / 2 ^ 16 % 256 else h.nextCfg / 2 ^ 16 % 256
    let s := if known then s else s.badField via (PMC_HCFG_LOG.at_ p)
    if !s.paramOk p src (v / 2 ^ 24 % 256) then s.evtPart PMC_PEVENT_CFG_ERR p
    else
      let h := { h with nextCfg := v % 2 + v / 256 % 32 * 256 + src * 2 ^ 16 + v / 2 ^ 24 % 256 * 2 ^ 24 }
      s.setHist p k (if (s.part p).genOn then h else h.apply)

/-- PMC_HBASE written (DEDUCED, log entry 58). -/
def State.writeHbase (s : State) (p v : Nat) : State :=
  match s.histKey p with
  | none => s
  | some k =>
    let h := { s.histOf p k with nextBase := v % 2 ^ 32 }
    s.setHist p k (if (s.part p).genOn then h else h.apply)

/-! ### Sillage and windows (R535 to R538) -/

/-- PMC_TAG_SEED_WRITE: every die's LFSR is loaded, a seed of 0 acting as 1 (R535). -/
def execPmcTagSeedWrite (p seed : Nat) (via : Via) (s : State) : Host.Outcome State Fault Refusal :=
  .next (if p < 8 then
      regWrite via (PMC_TAG_SEED_SEED.at_ p) s (fun s =>
        let v := if seed % 2 ^ 32 = 0 then 1 else seed % 2 ^ 32
        (s.fset PMC_TAG_SEED_SEED p seed).modPmc p (fun x =>
          { x with lfsr := (List.range s.nDies).foldl (fun l d => dset l 1 d v) x.lfsr }))
    else s)

/-- PMC_TRACE_EN_WRITE: 1 starts the trace at 0 (R537). -/
def execPmcTraceEnWrite (p : Nat) (en : Bool) (via : Via) (s : State) : Host.Outcome State Fault Refusal :=
  .next (if p < 8 then
      regWrite via (PMC_TRACE_EN.at_ p) s (fun s =>
        let s := s.fput PMC_TRACE_EN p en
        if en then s.modPmc p (fun x => { x with traceWrite := 0, traceRead := 0, traceDrops := 0 }) else s)
    else s)

/-- PEAK_CLR. -/
def execPeakClr (p : Nat) (via : Via) (s : State) : Host.Outcome State Fault Refusal :=
  .next (if p < 8 then
      regWrite via (PMC_BW_PEAK_CLR.at_ p) s (fun s =>
        s.modPmc p (fun x => { x with wins := dmap (0, 0, 0) (fun _ e => (e.1, e.2.1, 0)) x.wins }))
    else s)

/-- What a tick edge of partition `p` does to its page (R531, R538, R539): the snapshot, the windows that end, and the
selections that take effect. `tick` starts at `t` (DEDUCED, log entry 13). -/
def State.pmcEdge (s : State) (p tick t : Nat) : State :=
  let s := s.freezeDue
  let every := s.fget PMC_SNAP_EVERY p
  let s :=
    if every ≠ 0 ∧ tick % every = 0 then
      s.modPmc p (fun x =>
        { x with
          snapSeq := (x.snapSeq + 2) % 2 ^ 32, snapTick := tick, snapNs := t
          ctrs := dmap PmcCtr.init (fun _ e => { e with snap := e.live }) x.ctrs })
    else s
  let s :=
    if !s.frozen p && tick % max 1 (s.fget PMC_BW_TICKS p) == 0 then
      s.modPmc p (fun x =>
        { x with
          windows := (x.windows + 1) % 2 ^ 32
          wins := dmap (0, 0, 0) (fun _ e => (0, e.1, max e.2.2 e.1)) x.wins })
    else s
  s.modPmc p (fun x =>
    { x with
      ctrs := dmap PmcCtr.init (fun _ e => { e with sel := e.next }) x.ctrs
      hists := dmap PmcHist.init (fun _ e => e.apply) x.hists })

/-- Waiting selections take effect (R594). -/
def State.pmcApply (s : State) (p : Nat) : State :=
  s.modPmc p (fun x =>
    { x with
      ctrs := dmap PmcCtr.init (fun _ e => { e with sel := e.next }) x.ctrs
      hists := dmap PmcHist.init (fun _ e => e.apply) x.hists })

/-! ### The counter page (R533, R534) -/

/-- The 4-byte word of a histogram unit at offset `o` of it (R539). -/
def PmcHist.word (h : PmcHist) (o : Nat) : Nat :=
  if o = 0 then h.lo
  else if o = 4 then h.hi
  else if o = 8 then h.count % 2 ^ 32
  else if o = 12 then h.count / 2 ^ 32
  else if o = 16 then h.sum % 2 ^ 32
  else if o = 20 then h.sum / 2 ^ 32
  else if o < 128 then 0
  else dget h.bins 0 ((o - 128) / 4)

/-- A window port's entry: LAST and then PEAK, 8 bytes each (R538). -/
def winWord (w : Nat × Nat × Nat) (o : Nat) : Nat :=
  if o = 0 then w.2.1 % 2 ^ 32
  else if o = 4 then w.2.1 / 2 ^ 32 % 2 ^ 32
  else if o = 8 then w.2.2 % 2 ^ 32
  else w.2.2 / 2 ^ 32 % 2 ^ 32

/-- The 4-byte word of partition `p`'s counter page at an aligned offset. Slots of dies outside the partition read 0. -/
def State.pageWord (s : State) (p o : Nat) : Nat :=
  let x := s.pmcOf p
  let mine (d v : Nat) : Nat := if (s.diesOf p).contains d then v else 0
  if o = 0 then x.snapSeq
  else if o = 4 then (s.fget PMC_SNAP_FREEZE p) + 2 * s.pkgFrozen.toNat
  else if o = 8 then x.snapTick % 2 ^ 32
  else if o = 12 then x.snapTick / 2 ^ 32 % 2 ^ 32
  else if o = 0x10 then x.snapNs % 2 ^ 32
  else if o = 0x14 then x.snapNs / 2 ^ 32 % 2 ^ 32
  else if 0x20 ≤ o ∧ o < 0x30 then x.ovf / 2 ^ (8 * (o - 0x20)) % 2 ^ 32
  else if o = 0x30 then x.traceWrite
  else if o = 0x34 then x.traceRead
  else if o = 0x38 then x.traceDrops
  else if o = 0x3C then x.windows
  else if 0x100 ≤ o ∧ o < 0x300 then mine ((o - 0x100) / 64) (dget x.ctrs PmcCtr.init ((o - 0x100) / 4)).live
  else if 0x300 ≤ o ∧ o < 0x500 then mine ((o - 0x300) / 64) (dget x.ctrs PmcCtr.init ((o - 0x300) / 4)).snap
  else if 0x800 ≤ o ∧ o < 0x1000 then
    mine ((o - 0x800) / 256) (winWord (dget x.wins (0, 0, 0) ((o - 0x800) / 16)) (o % 16))
  else if 0x1000 ≤ o ∧ o < 0x3000 then
    mine ((o - 0x1000) / 1024) ((dget x.hists PmcHist.init ((o - 0x1000) / 256)).word (o % 256))
  else if 0x8000 ≤ o ∧ o < 0x10000 then
    match tget x.ring ((o - 0x8000) / 128) with
    | some b => numAt b (o % 128) 4
    | none => 0
  else 0

/-- A word written to OVF (W1C) or TRACE_READ; writes of other bytes are ignored (R533, R534). -/
def State.pageWrite (s : State) (p o v : Nat) : State :=
  if 0x20 ≤ o ∧ o < 0x30 ∧ o % 4 = 0 then
    s.modPmc p (fun x => { x with ovf := x.ovf - (x.ovf &&& ((v % 2 ^ 32) * 2 ^ (8 * (o - 0x20)))) })
  else if o = 0x34 then s.modPmc p (fun x => { x with traceRead := v % 2 ^ 32 })
  else s

end Sys2Proof.Machine
end

