-- ==== Sys2Proof/Machine/Sweeps.lean ====
section
/-!
DEFINITION. Sys2Proof/Machine/Sweeps.lean: sweep descriptors, latent weights, gradient regions, STEP, rebuilds, and the
registers of the Casement and the atomizers (R110, R148 to R151, R169, R170, R181 to R184, R209, R214, R215, R329, R330).
-/
namespace Sys2Proof.Machine

/-! ### SWEEP_SET and LATENT_LOAD -/

/-- Whether every field of a sweep descriptor is in range (R110, R111, R152, R418). -/
def SweepDesc.ok (b : SweepDesc) (c : Ctx) : Bool :=
  decide (1 ≤ b.g) && decide (b.g ≤ 16) && decide (b.qFmt ≤ 2) && decide (b.qQuant ≤ 2) && decide (b.pFmt ≤ 1)
    && decide (b.outFmt ≤ 1) && decide (b.stats ≤ 1) && decide (b.mask ≤ 1) && decide (b.kind.selK ≤ 4096)
    && decide (b.kind.selSink ≤ 16) && decide (b.kind.selRecent ≤ 65536) && decide (b.g * c.h ≤ 256)
    && (!c.latent || b.g == c.g)

/-- SWEEP_SET (R110, R111, R418). -/
def execSweepSet (q : Desc) (ctx : Nat) (b : SweepDesc) (s : State) : Host.Outcome State Fault Refusal :=
  .next (runDesc q 0x30 ctx s (fun s =>
    match s.ctx? q.part ctx with
    | none => s.fail q stMALFORMED
    | some c =>
      if !b.ok c then s.fail q stMALFORMED
      else if s.dieDown c.home then s.fail q stFENCED
      else (s.modCtx q.part ctx (fun c => { c with desc := b })).complete q stOK 0 0))

/-- Bytes of a row of `n` elements of a weight image (R168). -/
def weightRow (fmt n : Nat) : Nat := if fmt = 1 then n + n / 32 else 2 * n

/-- Bytes of one layer image (R168) (DEDUCED, log entry 32). -/
def layerBytes (c : Ctx) (fmt : Nat) : Nat := c.hq * (c.w * weightRow fmt c.d + c.d * weightRow fmt c.w)

/-- `rows` rows of `n` elements at an offset of an image. -/
def weightRows (fmt : Nat) (b : List Byte) (off rows n : Nat) : List Pos :=
  (List.range rows).map (fun r =>
    let o := off + r * weightRow fmt n
    if fmt = 1 then ⟨numsAt b o 1 n, numsAt b (o + n) 1 (n / 32)⟩ else ⟨numsAt b o 2 n, []⟩)

/-- The weights a layer image holds. -/
def parseWeights (c : Ctx) (fmt : Nat) (b : List Byte) (off : Nat) (segs : List Nat) : Weights :=
  let uk := c.w * weightRow fmt c.d
  let uv := c.d * weightRow fmt c.w
  { fmt := fmt
    uk := (List.range c.hq).map (fun h => weightRows fmt b (off + h * uk) c.w c.d)
    uv := (List.range c.hq).map (fun h => weightRows fmt b (off + c.hq * uk + h * uv) c.d c.w)
    segs := segs }

/-- Layers `l` to `l + n − 1` loaded from an image: new copies first, then the old ones released (R170) (DEDUCED, log entry 32). -/
def State.loadLayers (s : State) (d p ctx : Nat) (c : Ctx) (fmt : Nat) (b : List Byte) (off l : Nat) : Nat → Except AllocFail State
  | 0 => .ok s
  | n + 1 =>
    match s.ctxSegs d ctx (ceilDiv (layerBytes c fmt) 4096) with
    | .error e => .error e
    | .ok (g, s) =>
      let s := match tget c.weights l with | some w => s.segsToLimbo d w.segs | none => s
      let w := parseWeights c fmt b off g
      let s := s.modCtx p ctx (fun c => { c with weights := tput c.weights l w })
      s.loadLayers d p ctx c fmt b (off + layerBytes c fmt) (l + 1) n

/-- A failed authentication counted (R452, R460). -/
def State.authFail (s : State) : State := (s.fadd SEC_AUTH_FAILS_COUNT 0 1).evtPkg SEC_EVENT_AUTH_FAIL

/-- LATENT_LOAD (R169, R170, R452). -/
def execLatentLoad (q : Desc) (ctx first countM1 fmt bytes : Nat) (bundle : Option Bundle) (img : List Byte) (s : State) :
    Host.Outcome State Fault Refusal :=
  .next (runDesc q 0x31 ctx s (fun s =>
    match s.ctx? q.part ctx with
    | none => s.fail q stMALFORMED
    | some c =>
      let total := (countM1 + 1) * layerBytes c fmt
      if !c.latent || decide (c.layers < first + countM1 + 1) || (fmt != 1 && fmt != 8) then s.fail q stMALFORMED
      else if s.dieDown c.home then s.fail q stFENCED
      else
        let load (s : State) (bun : Bool) : State :=
          match s.loadLayers c.home q.part ctx c fmt img 0 first (countM1 + 1) with
          | .error e =>
            let (st, s) := s.allocStatus c.home e
            s.fail q st
          | .ok s =>
            let s := if bun then s.fadd SEC_BUNDLES_COUNT 0 1 else s
            s.complete q stOK (countM1 + 1) 0
        match bundle with
        | none => if bytes ≠ total ∨ img.length ≠ total then s.fail q stMALFORMED else load s false
        | some b =>
          if b.fmt ≠ fmt ∨ b.model ≠ c.model ∨ b.first ≠ first ∨ b.countM1 ≠ countM1 ∨ b.payload ≠ total ∨ b.sized = false then
            s.fail q stMALFORMED
          else if !b.proven then s.authFail.fail q stACCESS
          else if img.length ≠ total then s.fail q stMALFORMED
          else load s true))

/-! ### Gradient regions (R179 to R184) -/

/-- GRAD_OPEN (R181). Region numbers are those of the partition (R179) (DEDUCED, log entry 31). -/
def execGradOpen (q : Desc) (ctx grad seq first countM1 posFirst posCount : Nat) (s : State) : Host.Outcome State Fault Refusal :=
  .next (runDesc q 0x32 (ctx + grad * 2 ^ 16 + seq * 2 ^ 32) s (fun s =>
    match s.ctx? q.part ctx with
    | none => s.fail q stMALFORMED
    | some c =>
      let d := c.home
      let used := (s.diesOf q.part).any (fun e => (tget (s.csm e).grads grad).isSome)
      let known := match s.seqSlot? d seq with | some (_, e) => e.ctx == ctx | none => false
      if s.dieDown d then s.fail q stFENCED
      else if c.latent || used || decide (64 ≤ grad) || !known || decide (c.layers < first + countM1 + 1) || posCount == 0
          || decide (2 ^ 20 < posCount) || decide (2 ^ 20 < posFirst + posCount) then s.fail q stMALFORMED
      else
        let n := ceilDiv ((countM1 + 1) * posCount * gradEntry c) 4096
        match s.ctxSegs d ctx n with
        | .error e =>
          let (st, s) := s.allocStatus d e
          s.fail q st
        | .ok (g, s) =>
          let r : Grad :=
            { ctx := ctx, seq := seq, layerFirst := first, layers := countM1 + 1, posFirst := posFirst, positions := posCount,
              entries := [], count := 0, poisoned := false, segs := g, closing := [] }
          let s := s.modPart q.part (fun x => { x with lostGrads := x.lostGrads.filter (· != (ctx, grad)) })
          (s.modCsm d (fun x => { x with grads := tput x.grads grad r })).complete q stOK n 0))

/-- GRAD_CLOSE (R181 to R184). -/
def execGradClose (q : Desc) (ctx grad : Nat) (keep : Bool) (dest room : Nat) (s : State) : Host.Outcome State Fault Refusal :=
  .next (runDesc q 0x33 (ctx + grad * 2 ^ 16) s (fun s =>
    match s.ctx? q.part ctx with
    | none => s.fail q stMALFORMED
    | some c =>
      let d := c.home
      if (s.part q.part).lostGrads.contains (ctx, grad) then
        (s.modPart q.part (fun x => { x with lostGrads := x.lostGrads.filter (· != (ctx, grad)) })).fail q stLOST
      else if s.dieDown d then s.fail q stFENCED
      else
        match tget (s.csm d).grads grad with
        | none => s.fail q stMALFORMED
        | some g =>
          -- a poisoned region copies nothing, so that the room at DEST does not matter (R183)
          if g.ctx ≠ ctx ∨ (g.poisoned = false ∧ dest ≠ 0 ∧ room < g.layers * g.positions * gradEntry c) then s.fail q stMALFORMED
          else
            let s := s.modCsm d (fun x =>
              { x with grads := tput x.grads grad { g with closing := g.closing ++ [(q.fn, q.sq, q.index, keep, dest)] } })
            s.gradSettle d))

/-! ### STEP (R329, R330) -/

/-- STEP records of a die that are not completed (R330). -/
def State.ringRecs (s : State) (d : Nat) : Nat :=
  let ring (h : Held) : Bool := match h.src with | .ring _ _ _ _ _ => true | .inbox _ _ _ => false
  let c := s.csm d
  (c.held.filter ring).length + sumNat (c.sweeps.map (fun w => (w.recs.filter (fun r => ring r.held && !r.delivered)).length))

/-- STEP: the record's image is read into the part's buffers, and the record is held (R330). -/
def execStep (q : Desc) (img : List Byte) (output statusAddr t : Nat) (s : State) : Host.Outcome State Fault Refusal :=
  let t0 := s.clk.tNs
  .next (runDesc q 0x34 0 (s.advanceTo t) (fun s =>
    let h := parseHead img
    match s.ctx? q.part h.ctx with
    | none => s.complete q stMALFORMED 0 h.tag
    | some c =>
      let d := c.home
      let r := parseStep c img
      if s.dieDown d then s.complete q stFENCED 0 h.tag
      else if h.resultKey ≠ 0 ∨ h.resultOff ≠ 0 ∨ h.statusOff ≠ 0 ∨ h.signal ≠ 0 ∨ r.badLen ∨ img.length ≠ r.entryBytes c then
        s.complete q stMALFORMED 0 h.tag
      else if 1024 ≤ s.ringRecs d then s.complete q stNOT_READY 0 h.tag
      else s.holdRecord d img (.ring q.fn q.sq q.index output statusAddr) s.clk.tNs t0))

/-! ### Rebuilds (R209, R211) -/

/-- The rebuild task of a page ends. -/
def State.endRebuild (s : State) (d page : Nat) : State :=
  let s := s.modCsm d (fun c => { c with rebuilds := c.rebuilds.filter (fun x => x.1 != page) })
  let s := s.modStg d (fun x => { x with tasks := x.tasks.filter (fun t => !(t.page == page && t.prio == 1)) })
  s.fsat ATM_STATUS_REBUILDS d (s.csm d).rebuilds.length

/-- The task goes on to the next copy: flash (step 2), a replica (step 3), or the page is lost (R209 to R211). New segments
are asked for at once and, failing that, at each slot boundary. -/
def State.rebuildStep (s : State) (d page : Nat) (step : Nat) : State :=
  match s.page? d page with
  | none => s.endRebuild d page
  | some p =>
    let go (s : State) (n : Nat) : State :=
      let s := s.modCsm d (fun c => { c with rebuilds := c.rebuilds.map (fun x => if x.1 = page then (page, n, x.2.2) else x) })
      let t : StgTask := ⟨page, 1, [], 0, s.clk.tNs, false, none, 0⟩
      if (s.stg d).tasks.any (fun u => u.page == page && u.prio == 1) then s.rereadTask d page
      else (s.modStg d (fun x => { x with tasks := x.tasks ++ [t] })).allocTask d t
    if step ≤ 2 ∧ p.place.flash then go s 2
    else if step ≤ 3 ∧ p.place.replica then go s 3
    else
      let spare := (s.stg d).tasks.filter (fun t => t.page == page && t.prio == 1)
      let s := spare.foldl (fun s t => if t.segs.isEmpty then s else (s.giveSegs d t.segs).giveList d t.list) s
      (s.endRebuild d page).losePage d page

/-- REBUILD_DONE: the present step of a page's rebuild ends (R209): what its read brought goes through every check of R206. A
step that waits for the flash, or for a remote read that has not come, does not end. -/
def execRebuildDone (d page : Nat) (read : CopyRead) (s : State) : Host.Outcome State Fault Refusal :=
  match (s.csm d).rebuilds.find? (fun x => x.1 == page), s.page? d page with
  | some (_, step, atm), some p =>
    let img (r : CopyRead) : Option (Ctx × List Byte) :=
      match r, s.dieCtx? d p.ctx with
      | .stored, some c => if p.sound c (p.image c) then some (c, p.image c) else none
      | .bytes l, some c => if p.sound c l then some (c, l) else none
      | _, _ => none
    if p.st ≠ .suspect then .next (s.endRebuild d page)
    else if step = 1 then
      match img read with
      | some (c, l) =>
        let s := s.modPage d page (fun p => { p.withImage c l with st := .sealed })
        let s := (s.evtDie ATM_EVENT_CLEARED d).endRebuild d page
        let queued := match s.running? d with
          | some w => (w.summaries ++ w.blocks).any (fun b => b.fetched && !b.expanded && !b.failed && b.atomizer == atm)
          | none => false
        -- an atomizer with work in it is fenced at its next block boundary (R210)
        let before := s
        let s := s.chargeAtm d atm
        if queued && s.fbitAt ATM_FENCE_FENCED d atm && !before.fbitAt ATM_FENCE_FENCED d atm then
          let F := faultsFld atm
          .next (((before.fset F d (s.fget F d)).evtDie ATM_EVENT_ATM_FENCED d).modCsm d (fun c => { c with atmFence := setBit c.atmFence atm true }))
        else .next s
      | none => .next (s.rebuildStep d page 2)
    else
      match (s.stg d).tasks.find? (fun t => t.page == page && t.prio == 1 && !t.segs.isEmpty) with
      | none => .next s
      | some t =>
        if !s.turnOf d t p then .next s
        else
          match s.readOf d t p read with
          | none => .next s
          | some r =>
            let s0 := s
            let s := if r = .refused then s.dropReplica d p.place.replicaIdx else s
            match img r with
            | some (c, l) =>
              let s := ((s0.frameToLimbo d p.ctx p.segs).dropStore d page).giveList d p.list
              let s := s.modPage d page (fun p =>
                { p.withImage c l with st := .sealed, segs := t.segs, list := t.list, place := { p.place with hbm := true } })
              let s := (s.evtDie ATM_EVENT_REBUILT d).fadd ATM_REBUILDS_COUNT d 1
              .next ((s.endRebuild d page).retryTasks d)
            | none => .next ((s.rebuildStep d page (step + 1)).retryTasks d)
  | _, _ => .next s

/-! ### CSM and ATM registers (R148 to R151, R214, R215) -/

/-- CSM_EN_WRITE: EN takes effect at the next slot boundary (R150). -/
def execCsmEnWrite (d : Nat) (en : Bool) (via : Via) (s : State) : Host.Outcome State Fault Refusal :=
  .next (regWrite via (CSM_CTRL_EN.at_ d) s (fun s => s.fsetWhen CSM_CTRL_EN d en.toNat))

/-- CSM_INJECT: the checksum row of each named pane's next tile is corrupted; a fenced pane's bit does nothing (R149). -/
def execCsmInject (d mask : Nat) (via : Via) (s : State) : Host.Outcome State Fault Refusal :=
  .next (regWrite via (CSM_CTRL_INJECT.at_ d) s (fun s =>
    if s.shadowed d then s
    else s.modCsm d (fun c =>
      { c with injPane := (bitsOf 4 mask).foldl (fun v p => if s.fbitAt CSM_PANE_FENCE_FENCED d p then v else setBit v p true) c.injPane })))

/-- Bits of `a` that are not in `b`, of `n` (DEDUCED, log entry 30). -/
def bitsLess (n a b : Nat) : List Nat := (bitsOf n a).filter (fun k => !b.testBit k)

/-- Whether a sweep holds the Casement, so that fences wait for a boundary. -/
def State.busyNow (s : State) (d : Nat) : Bool := (s.running? d).isSome

/-- PANE_FENCE: FENCE bits of CSM_PANE_FENCE (R148, R151). -/
def execPaneFence (d fence unfence : Nat) (via : Via) (s : State) : Host.Outcome State Fault Refusal :=
  .next (regWrite via (CSM_PANE_FENCE_FENCE.at_ d) s (fun s =>
    if s.shadowed d then s
    else (bitsLess 4 fence unfence).foldl (fun s p =>
      if s.fbitAt CSM_PANE_FENCE_FENCED d p then s
      else if s.busyNow d && s.fbitAt CSM_STATUS_PANE_ACT d p then s.modCsm d (fun c => { c with paneFence := setBit c.paneFence p true })
      else s.report uPane d p false 2) s))

/-- PANE_UNFENCE: a fenced pane's self-test; on a pass it takes tiles from the next sweep on (R148). `pass` says which tests
pass (DEDUCED, log entry 30). -/
def execPaneUnfence (d fence unfence pass : Nat) (via : Via) (s : State) : Host.Outcome State Fault Refusal :=
  .next (regWrite via (CSM_PANE_FENCE_UNFENCE.at_ d) s (fun s =>
    if s.shadowed d then s
    else (bitsLess 4 unfence fence).foldl (fun s p =>
      if !s.fbitAt CSM_PANE_FENCE_FENCED d p then s
      else
        let ok := pass.testBit p
        let s := s.fputAt CSM_PANE_FENCE_TEST_FAIL d p (!ok)
        s.testOutcome uPane d p false (if ok then 0 else 8)) s))

/-- ATM_FENCE: FENCE bits of ATM_FENCE (R214, R215). -/
def execAtmFence (d fence unfence : Nat) (via : Via) (s : State) : Host.Outcome State Fault Refusal :=
  .next (regWrite via (ATM_FENCE_FENCE.at_ d) s (fun s =>
    if s.shadowed d then s
    else (bitsLess 4 fence unfence).foldl (fun s a =>
      if s.fbitAt ATM_FENCE_FENCED d a then s
      else if s.busyNow d && s.fbitAt CSM_STATUS_ATM_ACT d a then s.modCsm d (fun c => { c with atmFence := setBit c.atmFence a true })
      else s.report uAtm d a false 2) s))

/-- ATM_UNFENCE: a fenced atomizer's self-test; a returned one has its fault count cleared (R210, R214) (DEDUCED, log entry 30). -/
def execAtmUnfence (d fence unfence pass : Nat) (via : Via) (s : State) : Host.Outcome State Fault Refusal :=
  .next (regWrite via (ATM_FENCE_UNFENCE.at_ d) s (fun s =>
    if s.shadowed d then s
    else (bitsLess 4 unfence fence).foldl (fun s a =>
      if !s.fbitAt ATM_FENCE_FENCED d a then s
      else
        let ok := pass.testBit a
        let s := s.fputAt ATM_FENCE_TEST_FAIL d a (!ok)
        s.testOutcome uAtm d a false (if ok then 0 else 0xC)) s))

/-- ATM_INJECT (R215). -/
def execAtmInject (d mask : Nat) (via : Via) (s : State) : Host.Outcome State Fault Refusal :=
  .next (regWrite via (ATM_CTRL_INJECT.at_ d) s (fun s =>
    if s.shadowed d then s
    else s.modCsm d (fun c =>
      { c with injAtm := (bitsOf 4 mask).foldl (fun v a => if s.fbitAt ATM_FENCE_FENCED d a then v else setBit v a true) c.injAtm })))

/-- The byte counts of ATM by number: coded, raw, plain. -/
def atmLo (which : Nat) : Fld × Fld :=
  if which = 0 then (ATM_CODED_LO_BYTES, ATM_CODED_HI_BYTES)
  else if which = 1 then (ATM_RAW_LO_BYTES, ATM_RAW_HI_BYTES)
  else (ATM_PLAIN_LO_BYTES, ATM_PLAIN_HI_BYTES)

/-- A _LO register of ATM read: the live count, its upper half latched (R215). -/
def State.readAtmLo (s : State) (d which : Nat) : Nat × State :=
  if s.shadowed d then (0, s)
  else
    let c := s.csm d
    let n := if which = 0 then c.coded else if which = 1 then c.rawBytes else c.plain
    (n % 2 ^ 32, (s.fset (atmLo which).1 d n).fset (atmLo which).2 d (n / 2 ^ 32))

/-- ATM_LO_READ. -/
def execAtmLoRead (d which : Nat) (via : Via) (s : State) : Host.Outcome State Fault Refusal :=
  .next (regRead via ((atmLo which).1.at_ d) s (fun s => s.readAtmLo d which))

end Sys2Proof.Machine
end

