-- ==== Sys2Proof/Machine/Residency.lean ====
section
/-!
DEFINITION. Sys2Proof/Machine/Residency.lean: the commands of chapter 07: class, quotas, pins, hints, exports and imports,
staging reads and the placement scan.
-/
namespace Sys2Proof.Machine

/-- A descriptor about a sequence of a context (R225, R231, R242): unknown, or of another context, MALFORMED; on a fenced home
die FENCED. -/
def ofSeq (q : Desc) (seq ctx : Nat) (s : State) (go : Nat → SeqSlot → State) : State :=
  match s.seqDie? q.part seq with
  | none => s.fail q stMALFORMED
  | some d =>
    match s.seqSlot? d seq with
    | none => s.fail q stMALFORMED
    | some (_, e) =>
      if e.ctx ≠ ctx then s.fail q stMALFORMED
      else if s.dieDown d then s.fail q stFENCED
      else go d e

/-- A descriptor about a context: unknown, MALFORMED; on a fenced home die FENCED. -/
def ofCtx (q : Desc) (ctx : Nat) (s : State) (go : Ctx → State) : State :=
  match s.ctx? q.part ctx with
  | none => s.fail q stMALFORMED
  | some c => if s.dieDown c.home then s.fail q stFENCED else go c

/-- SEQ_CLASS (R82, R223 to R225) (DEDUCED, log entry 43). -/
def execSeqClass (d : Desc) (seq ctx : Nat) (parked : Bool) (s : State) : Host.Outcome State Fault Refusal :=
  .next (runSeqEdit d 0x40 (seq + ctx * 2 ^ 32 + parked.toNat * 2 ^ 48) [seq] s (fun s =>
    ofSeq d seq ctx s (fun k _ => s.runEdit k d.key (.class_ seq parked))))

/-- Segments of the die's pool: every segment in service that the structures do not take. -/
def State.poolSize (s : State) (d : Nat) : Nat :=
  sumNat ((List.range 3).map (fun k => if s.stackOn d k then s.stackSegs d - s.placedIn d k else 0))

/-- CTX_QUOTA (R226 to R229). -/
def execCtxQuota (d : Desc) (ctx hbmMax hbmMin flashMax : Nat) (s : State) : Host.Outcome State Fault Refusal :=
  .next (runDesc d 0x41 (ctx + hbmMax * 2 ^ 32) s (fun s =>
    ofCtx d ctx s (fun c =>
      let k := c.home
      let others := sumNat ((s.part d.part).ctxs.map (fun e => if e.2.home = k ∧ e.1 ≠ ctx then e.2.hbmMin else 0))
      if s.poolSize k - s.inForce STG_POOL_HIGH k * 1024 < others + hbmMin then s.fail d stQUOTA
      else
        let s := s.modCtx d.part ctx (fun c => { c with hbmMax := hbmMax, hbmMin := hbmMin, flashMax := flashMax })
        s.complete d stOK (s.charged k ctx) (ceilDiv (s.flashSectors k ctx []) 16))))

/-- Pages of a list that are not resident. -/
def State.away (s : State) (d : Nat) (l : List Nat) : List Nat :=
  l.filter (fun id => match s.page? d id with | some p => !p.place.hbm | none => false)

/-- Whether bringing pages in keeps every context within HBM_MAX (R231, R242). -/
def State.fitsHbm (s : State) (d : Nat) (l : List Nat) : Bool :=
  let own := l.filterMap (s.page? d)
  (own.map (·.ctx)).eraseDups.all (fun c =>
    s.quotaOk d c (sumNat ((own.filter (fun p => p.ctx == c)).map (s.frameSegs d))))

/-- PIN_SET (R230, R231) (DEDUCED, log entry 41). -/
def execPinSet (d : Desc) (id : Nat) (p : Pin) (s : State) : Host.Outcome State Fault Refusal :=
  .next (runDesc d 0x42 (id + p.ctx * 2 ^ 16 + p.seq * 2 ^ 32) s (fun s =>
    ofSeq d p.seq p.ctx s (fun k _ =>
      let l := s.pinPages k p
      let a := s.away k l
      if !s.fitsHbm k a then s.fail d stQUOTA
      else ((s.modStg k (fun x => { x with pins := tput x.pins id p })).repin k).complete d stOK l.length a.length)))

/-- PIN_CLEAR (R231) (DEDUCED, log entry 41). -/
def execPinClear (d : Desc) (id ctx : Nat) (s : State) : Host.Outcome State Fault Refusal :=
  .next (runDesc d 0x43 (id + ctx * 2 ^ 16) s (fun s =>
    ofCtx d ctx s (fun c =>
      let k := c.home
      let l := match tget (s.stg k).pins id with | some p => s.pinPages k p | none => []
      let s' := (s.modStg k (fun x => { x with pins := tdel x.pins id })).repin k
      s'.complete d stOK l.length (s.away k l).length)))

/-! ### Hints (R238 to R242) -/

/-- T_ns at which a descriptor was fetched from its ring (R240). -/
def State.fetchT (s : State) (d : Desc) : Nat :=
  match (s.part d.part).outst.find? (fun o => o.of d.fn d.sq d.index) with
  | some o => o.accT
  | none => s.clk.tNs

/-- u of R240, in 1/256. -/
def State.utilOf (s : State) (d : Nat) : Nat :=
  min (s.inForce STG_FLASH_UTIL_MAX d) (max (s.inForce STG_FLASH_UTIL_MIN d) (s.fget STG_UTIL_MEASURED d))

/-- The ticks at which the hints of a list are ready (R240). r is n_own × 3.6 × (256 − u) / 256 bytes per ns; `num` is the ready
time in units of 1 / (n_own × 36 × (256 − u)) ns. -/
def priceFrom (den per num : Nat) : List Nat → List Nat
  | [] => []
  | b :: r => let n := num + b * 2560; ceilDiv n (den * per) :: priceFrom den per n r

/-- The prices at the time `t` of a hint's fetch (R240). -/
def State.price (s : State) (d t : Nat) (l : List Hint) : List Nat :=
  let den := s.nOwn d * 36 * (256 - s.utilOf d)
  let per := match s.owner d with | some p => s.periodNs p | none => 100000
  priceFrom den per ((t + s.inForce STG_FLASH_FIRST d * 100) * den) (s.bytesOf d [] l)

/-- `x` put at place `i` of a list. -/
def insAt {α : Type} (i : Nat) (x : α) (l : List α) : List α := l.take i ++ x :: l.drop i

/-- Whether every hint of the list but the one at `i` keeps its deadline (R240). -/
def fitsAt (i : Nat) (ticks : List Nat) (l : List Hint) : Bool :=
  (List.range l.length).all (fun k => k == i || decide (ticks.getD k 0 ≤ (l.map (·.deadline)).getD k 0))

/-- The tick an insertion point promises, if it is a candidate; the end of the list always is one: there the hint breaks no
accepted one (R240) (DEDUCED, log entry 41). -/
def State.candidate (s : State) (d t : Nat) (l : List Hint) (x : Hint) (i : Nat) : Option Nat :=
  let m := insAt i x l
  let ticks := s.price d t m
  let dl := l.map (·.deadline)
  let lo := if i = 0 then 0 else dl.getD (i - 1) 0
  let v := max (ticks.getD i 0) lo
  if i == l.length || (fitsAt i ticks m && decide (v ≤ dl.getD i 0)) then some v else none

/-- The unmet hints of a die replaced. -/
def State.setUnmet (s : State) (d : Nat) (l : List Hint) : State :=
  (s.modStg d (fun x => { x with hints := x.hints.filter (·.met) ++ l })).hintCount d

/-- A hint accepted at a place of the list (R242): its pages are held and staged in. -/
def State.acceptHint (s : State) (d : Nat) (i : Nat) (x : Hint) : State :=
  let s := s.setUnmet d (insAt i x (s.stg d).unmet)
  let s := (s.rehold d x.pages).fadd STG_HINTS_OK_COUNT d 1
  x.pages.foldl (fun s id => s.stageIn d id 3) s

/-- PREFETCH (R238 to R242) (DEDUCED, log entry 41). -/
def execPrefetch (d : Desc) (h : HintBody) (s : State) : Host.Outcome State Fault Refusal :=
  .next (runDesc d 0x44 (h.seq + h.ctx * 2 ^ 32 + h.unpark.toNat * 2 ^ 48 + h.asap.toNat * 2 ^ 49) s (fun s =>
    ofSeq d h.seq h.ctx s (fun k e =>
      let len := maxOf (((e.lens).drop h.layerFirst).take h.layers)
      if h.deadline = 0 then
        match (s.stg k).unmet.find? (fun x => x.tag == h.tag && x.seq == h.seq) with
        | none => s.fail d stMALFORMED
        | some x =>
          let s := (s.setUnmet k ((s.stg k).unmet.erase x)).rehold k x.pages
          s.complete d stOK 0 0
      else if e.tail.layers.length < h.layerFirst + h.layers ∨ len < h.posFirst ∨ (h.posCount ≠ 0 ∧ len < h.posFirst + h.posCount) then
        s.fail d stMALFORMED
      else
        let pages := s.rangePages k h.seq h.layerFirst h.layers h.posFirst h.posCount
        let miss := s.away k pages
        let l := (s.stg k).unmet
        if !s.fitsHbm k miss then s.fail d stQUOTA
        else if 4096 ≤ l.length then s.fail d stNOT_READY
        else
          let x : Hint :=
            ⟨h.seq, h.ctx, h.tag, h.deadline, h.unpark, pages, false, false, 0, s.tickOf k, d.port, s.inForce STG_HINT_HOLD k⟩
          let at0 := s.fetchT d
          if miss.isEmpty then
            let now := s.tickOf k
            let x := if h.asap then { x with deadline := now } else x
            let at_ := (l.filter (fun g => decide (g.deadline ≤ x.deadline))).length
            ((s.acceptHint k at_ x).complete d stOK now 0).meetHints k [x]
          else if s.nOwn k = 0 then s.complete d stNOT_READY 0xFFFFFFFF 0
          else
            let cands := (List.range (l.length + 1)).filterMap (fun i => (s.candidate k at0 l x i).map (fun v => (i, v)))
            let earliest := cands.foldl (fun m c => min m c.2) (cands.headD (0, 0)).2
            let own := (l.filter (fun g => decide (g.deadline ≤ h.deadline))).length
            let (at_, dl, ok) :=
              if h.asap then (((cands.filter (fun c => c.2 == earliest)).getLastD (0, 0)).1, earliest, true)
              else
                let m := insAt own x l
                let ticks := s.price k at0 m
                (own, h.deadline, decide (earliest ≤ h.deadline) && decide (ticks.getD own 0 ≤ h.deadline)
                  && (own == l.length || fitsAt own ticks m))
            if ok then
              let x := { x with deadline := dl }
              let n := s.hintBytes k (l.take at_) x
              (s.acceptHint k at_ x).complete d stOK dl (ceilDiv n 4096)
            else (s.fadd STG_HINTS_REFUSED_COUNT k 1).complete d stNOT_READY earliest 0)))

/-! ### Exports and imports (R248 to R251) -/

/-- Offsets of the page images of an image of `n` layers, from `at_` (R248). -/
def imageOffsets (at_ : Nat) : List (List Byte) → List Nat
  | [] => []
  | b :: r => let o := roundUp 64 at_; o :: imageOffsets (o + b.length) r

/-- The export image of a chunk (R248). -/
def State.exportImage (s : State) (d : Nat) (c : Ctx) (ch : Chunk) : List Byte :=
  let imgs := (ch.pages.filterMap (s.page? d)).map (Page.image c)
  let n := ch.pages.length
  let offs := imageOffsets (576 + 8 * n) imgs
  let body := (offs.zip imgs).foldl (fun b x => b ++ zeros (x.1 - (576 + 8 * n) - b.length) ++ x.2) []
  let table := (offs.zip imgs).flatMap (fun x => le 4 x.1 ++ le 4 x.2.length)
  let parent := if ch.depth = 0 then 0 else match s.chunk? d ch.parent with | some x => x.chain | none => 0
  let total := 576 + 8 * n + body.length
  le 4 0x45585031 ++ le 1 1 ++ le 1 (n - 1) ++ le 1 c.format ++ le 1 0 ++ le 8 total ++ le 16 ch.chain ++ le 16 parent
    ++ le 4 ch.model ++ le 4 ch.depth ++ zeros 8 ++ ch.tokens.flatMap (le 4) ++ table ++ body

/-- Pieces of at most 2²⁴ bytes, the longest message (R352); `n` bounds them (DEDUCED, log entry 42). -/
def pieces (b : List Byte) (off : Nat) : Nat → List (Nat × List Byte)
  | 0 => []
  | n + 1 => if b.isEmpty then [] else (off, b.take (2 ^ 24)) :: pieces (b.drop (2 ^ 24)) (off + 2 ^ 24) n

/-- CHUNK_EXPORT (R247 to R250, R373) (DEDUCED, log entry 26; DEDUCED, log entry 42). -/
def execChunkExport (d : Desc) (ctx : Nat) (replica : Bool) (die : Option Nat) (key chain off room : Nat) (s : State) :
    Host.Outcome State Fault Refusal :=
  .next (runDesc d 0x45 (ctx + replica.toNat * 2 ^ 16 + die.isSome.toNat * 2 ^ 17 + die.getD 0 * 2 ^ 24 + key * 2 ^ 32) s (fun s =>
    ofCtx d ctx s (fun c =>
      let k := c.home
      match (s.treeFind k chain).bind (fun e => (s.chunk? k e.2.chunk).map (fun ch => (e.2.chunk, ch))) with
      | none => s.fail d stMALFORMED
      | some (id, ch) =>
        let good (p : Nat) : Bool := match s.page? k p with | some x => x.place.hbm && x.st == .sealed | none => false
        let full := replica && s.replicasFull k
        if !ch.pages.all good then s.fail d stNOT_READY
        else
          let img := s.exportImage k c ch
          if room < img.length then s.fail d stMALFORMED
          else
            match die with
            | some t =>
              if !(s.diesOf d.part).contains t then s.fail d stMALFORMED
              else if s.dieDown t then s.fail d stFENCED
              else
                let n := ceilDiv img.length 4096
                if full || !s.quotaOk k ctx n then s.fail d stQUOTA
                else if s.freeSegs t < n then (s.nomem t).fail d stNOT_READY
                else
                  let (g, s) := s.takeSegs t n
                  let r : Replica := ⟨1, t, 0, g.headD 0 * 4096, img.length, id, ctx, g⟩
                  let s := s.fadd STG_EXPORTS_COUNT k 1
                  if replica then
                    let (i, s) := s.addReplica k r
                    s.complete d stOK img.length i
                  else (s.modStg k (fun x => { x with loose := x.loose ++ [r] })).complete d stOK img.length 0
            | none =>
              match (tget (s.nrt k).binds key).bind (fun i => (s.peer? k i).map (fun _ => i)) with
              | none => s.fail d stMALFORMED
              | some peer =>
                if !s.nrtReady k then s.fail d stNOT_READY
                else if full then s.fail d stQUOTA
                else
                  let ps := pieces img off (img.length / 2 ^ 24 + 1)
                  let job : ExportJob :=
                    ⟨d.fn, d.sq, d.index, ps.length, ⟨2, 0, key, off, img.length, id, ctx, []⟩, replica, s.epoch k⟩
                  let s := (s.openHolder k).modStg k (fun x => { x with exports := x.exports ++ [job] })
                  ps.foldl (fun s x => (s.sendWrite k peer key x.1 none none x.2 none (.exported d.fn d.sq d.index) .bulk).2) s)))

/-- CHUNK_IMPORT (R251, R373): the reads of the image begin with its header and tokens (DEDUCED, log entry 26; DEDUCED, log entry 110). -/
def execChunkImport (d : Desc) (ctx : Nat) (replica : Bool) (key off bytes : Nat) (s : State) : Host.Outcome State Fault Refusal :=
  .next (runDesc d 0x46 (ctx + replica.toNat * 2 ^ 16 + key * 2 ^ 32) s (fun s =>
    ofCtx d ctx s (fun c =>
      let k := c.home
      if ((tget (s.nrt k).binds key).bind (s.peer? k)).isNone then s.fail d stMALFORMED
      else if !s.nrtReady k then s.fail d stNOT_READY
      else
        let j : ImportJob := ⟨d.fn, d.sq, d.index, d.part, ctx, replica, key, off, bytes, [], [], []⟩
        (s.modStg k (fun x => { x with imports := x.imports ++ [j] })).readImport k j 0 576)))

/-! ### Staging reads, HELD and the scan -/

/-- A page whose staged copy is not sound: handled as SUSPECT from step 3 of R209 on (R246). -/
def State.stageBad (s : State) (d page : Nat) : State :=
  let s := s.evtDie STG_EVENT_STAGE_FAIL d
  let s := (s.endTask d page).modPage d page (fun p => { p with st := if p.st = .sealed then .suspect else p.st })
  let s := s.modCsm d (fun c => { c with rebuilds := c.rebuilds ++ [(page, 3, 4)] })
  (s.fsat ATM_STATUS_REBUILDS d (s.csm d).rebuilds.length).rebuildStep d page 3

/-- What follows a task's end: waiting edits, hints that are met, and the tasks whose turn has come (R243, R597). -/
def State.afterTask (s : State) (d : Nat) : State :=
  let s := s.retryEdits d (s.pfx d).edits.length
  (s.meetHints d (s.stg d).unmet).retryTasks d

/-- STAGING_READ_DONE (R209, R217, R243, R245, R246, R250, R597): nothing happens while another task has the flash, or while a
remote read has not come. A tail page has no header to check (DEDUCED, log entry 43). -/
def execStagingReadDone (d page : Nat) (read : CopyRead) (s : State) : Host.Outcome State Fault Refusal :=
  match (s.stg d).tasks.find? (fun t => t.page == page && t.prio != 1 && !t.segs.isEmpty), s.page? d page with
  | some t, some p =>
    if !s.turnOf d t p then .next s
    else
      let tail := p.st == .open_ || p.st == .full
      let take (c : Ctx) (img : List Byte) : State :=
        if p.arrivalOk c img then
          ((s.makeResident d page).modPage d page (fun p => p.withImage c img)).afterTask d
        else (s.stageBad d page).afterTask d
      match s.readOf d t p read, s.dieCtx? d p.ctx with
      | none, _ => .next s
      | some .stored, some c => .next (if tail then (s.makeResident d page).afterTask d else take c (p.image c))
      | some (.bytes l), some c => .next (if tail then (s.stageBad d page).afterTask d else take c l)
      | some .refused, _ =>
        -- the entry is freed; the flash copy, if there is one, is read in its place (R250)
        let s := s.dropReplica d p.place.replicaIdx
        .next (if p.place.flash then s.rereadTask d page else (s.stageBad d page).afterTask d)
      | _, _ => .next ((s.stageBad d page).afterTask d)
  | _, _ => .next s

/-- HELD_EXPIRY (R244). -/
def execHeldExpiry (d t : Nat) (s : State) : Host.Outcome State Fault Refusal :=
  let s := s.advanceTo t
  let due := (s.stg d).hints.filter (fun h => h.met && decide (h.release ≤ s.tickOf d))
  let s := s.modStg d (fun x => { x with hints := x.hints.filter (fun h => !(due.contains h)) })
  .next (due.foldl (fun s h => s.rehold d h.pages) s)

/-- PLACEMENT_SCAN of a page (R232, R234). -/
def execPlacementScan (d page : Nat) (s : State) : Host.Outcome State Fault Refusal :=
  match s.page? d page with
  | none => .next s
  | some p =>
    let h := s.heat d p
    let tk := s.heatTick d
    let half := max 1 (s.inForce STG_HEAT_HALF d)
    let old := (tk + 65536 - p.place.heatTick) % 65536
    -- the HEAT_TICK that matches the effective heat: the latest halving (R232)
    let tk' := if h = 0 then tk else (tk + 65536 - old % half) % 65536
    let s := s.modPage d page (fun p => { p with place := { p.place with heat := h, heatTick := tk' } })
    if s.fbit STG_CTRL_IDLE_RELEASE d && h == 0 && s.releasable d p then .next (s.releaseFrame d page) else .next s

/-- STG_QUEUED_LO read: unread bytes of hints, the upper half latched (R253). -/
def State.readQueued (s : State) (d : Nat) : Nat × State :=
  if s.shadowed d then (0, s)
  else
    let n := s.queued d
    (n % 2 ^ 32, (s.fset STG_QUEUED_LO_BYTES d n).fset STG_QUEUED_HI_BYTES d (n / 2 ^ 32))

/-- STG_QUEUED_LO_READ. -/
def execStgQueuedLoRead (d : Nat) (via : Via) (s : State) : Host.Outcome State Fault Refusal :=
  .next (regRead via (STG_QUEUED_LO_BYTES.at_ d) s (fun s => s.readQueued d))

end Sys2Proof.Machine
end

