-- ==== Sys2Proof/Machine/Layout.lean ====
section
/-!
DEFINITION. Sys2Proof/Machine/Layout.lean: the records that the part keeps in HBM, byte by byte (R66, R67, R69, R70, R72, R73, R86,
R216). Bytes that a rule leaves without meaning are free (Config.recByte).
-/
namespace Sys2Proof.Machine

/-- Free bytes of record `id` of a kind: 0 page, 1 chunk, 2 tree bucket, 3 tail record, 4 checkpoint, 5 anchor; from byte `i` on (DESIGN CHOICE, log entry 134). -/
def freeBytes (kind id i n : Nat) : List Byte := (List.range n).map (fun k => Config.recByte kind id (i + k))

/-- HBM address of a segment within its die (R62). -/
def segAddr (g : Nat) : Nat := 4096 * g

/-- HBM address of a segment list: of one of the two slots of its segment (R65). -/
def listAddr (a : Nat) : Nat := 2048 * a

/-! ### Page records (R66, R67, R216) -/

/-- STATE of a page record (R67). -/
def PageSt.code : PageSt → Nat
  | .free => 0
  | .open_ => 1
  | .full => 2
  | .sealing => 3
  | .sealed => 4
  | .suspect => 5
  | .limbo => 6

/-- The PLACE field (R216). -/
def Place.bytes (p : Place) : List Byte :=
  le 1 (p.hbm.toNat + 2 * p.flash.toNat + 4 * p.durable.toNat + 8 * p.replica.toNat + 16 * p.staging.toNat + 32 * p.held.toNat)
    ++ le 1 p.heat ++ le 2 p.heatTick ++ le 4 p.replicaIdx ++ le 8 p.flashObj

/-- The item that follows the first one that satisfies `this` among those that `pick` selects. -/
def linkAfter (pick : LimboWhat → Option Nat) (id : Nat) : List Limbo → Nat
  | [] => 0
  | l :: r => if pick l.what = some id then (r.findSome? (fun x => pick x.what)).getD 0 else linkAfter pick id r

def LimboWhat.page? : LimboWhat → Option Nat
  | .page id => some id
  | _ => none

def LimboWhat.chunk? : LimboWhat → Option Nat
  | .chunk id => some id
  | _ => none

/-- A page record (R66): NEXT links the limbo list, whose last record has 0; in the free list and outside both lists it is free (DESIGN CHOICE, log entry 134). -/
def State.pageRecord (s : State) (d id : Nat) : List Byte :=
  match s.page? d id with
  | none => le 1 0 ++ freeBytes 0 id 1 59 ++ zeros 4
  | some p =>
    le 1 p.st.code ++ le 1 p.format ++ le 1 p.layer ++ le 1 (p.raw.toNat + 2 * p.pinned.toNat) ++ le 2 p.fill ++ le 2 p.segs.length
      ++ le 4 p.refs ++ le 4 p.rel ++ le 8 (listAddr p.list) ++ le 4 (s.storedBytes d p) ++ le 4 p.posBase ++ le 4 p.origin ++ le 2 p.ctx
      ++ zeros 2 ++ p.place.bytes
      ++ (if p.st = .limbo then le 4 (linkAfter LimboWhat.page? id (s.pfx d).limbo) else freeBytes 0 id 56 4) ++ zeros 4

/-- The segment list of a page: one segment number each. -/
def Page.segList (p : Page) : List Byte := p.segs.flatMap (le 4)

/-- The bytes of a tail page's frame: its positions, each its elements in order, of two bytes each (R61). -/
def Page.tailImage (p : Page) : List Byte := (p.pos.take p.fill).flatMap (fun x => x.codes.flatMap (le 2))

/-! ### Chunk records (R69) -/

def ChunkSt.code : ChunkSt → Nat
  | .tree => 1
  | .priv => 2
  | .limbo => 3

/-- LMAX of a die, and the stride of its chunk records (R69). -/
def State.lmax (s : State) (d : Nat) : Nat := s.fget PFX_TREE_CFG_LMAX_M1 d + 1
def State.chunkStride (s : State) (d : Nat) : Nat := roundUp 64 (576 + 4 * s.lmax d)

/-- A chunk record whose NEXT is `next`. -/
def Chunk.bytes (c : Chunk) (next : List Byte) : List Byte :=
  le 16 c.chain ++ le 4 c.model ++ le 4 c.parent ++ le 1 c.st.code ++ le 1 (c.pages.length - 1)
    ++ le 2 (c.parked.toNat + 2 * c.written.toNat) ++ le 4 c.holders ++ le 4 c.children ++ le 4 c.depth ++ le 4 c.rel ++ le 2 c.ctx
    ++ zeros 2 ++ le 8 c.created ++ next ++ zeros 4 ++ c.tokens.flatMap (le 4) ++ c.pages.flatMap (le 4)

/-- DESIGN CHOICE, log entry 134. -/
def State.chunkRecord (s : State) (d id : Nat) : List Byte :=
  match s.chunk? d id with
  | none => freeBytes 1 id 0 24 ++ le 1 0 ++ freeBytes 1 id 25 (551 + 4 * s.lmax d)
  | some c =>
    c.bytes (if c.st = .limbo then le 4 (linkAfter LimboWhat.chunk? id (s.pfx d).limbo) else freeBytes 1 id 56 4)

/-! ### Sequences, maps and tail records (R70, R72, R73) -/

/-- A LIVE entry of the sequence index, or a TOMBSTONE (R70). -/
def SeqSlot.bytes (e : SeqSlot) : List Byte :=
  le 4 e.seq ++ le 2 (e.ctx % 4096 + 4096 * (if e.live then 1 else 2) + 16384 * e.parked.toNat) ++ zeros 2 ++ le 4 e.body.version ++ zeros 4
    ++ le 8 (segAddr (e.body.segs.headD 0)) ++ le 8 (segAddr (e.tail.segs.headD 0))

/-- The body of the current map version of a sequence (R72). -/
def SeqSlot.bodyBytes (e : SeqSlot) : List Byte :=
  le 4 e.body.version ++ le 4 e.seq ++ le 2 e.ctx ++ zeros 2 ++ le 4 e.body.chunks.length ++ le 4 (128 * e.body.chunks.length) ++ zeros 4
    ++ le 8 (segAddr (e.tail.segs.headD 0)) ++ le 8 (segAddr e.body.prev) ++ le 8 e.body.written ++ zeros 16
    ++ e.body.chunks.flatMap (le 4)

/-- A layer entry (R73). -/
def LayerEnt.bytes (l : LayerEnt) : List Byte := le 4 l.full ++ le 4 l.open_ ++ le 2 l.fill ++ le 2 l.done.toNat ++ le 4 l.sealed

/-- The tail record of a sequence (R73); token identifiers beyond TOKENS_KNOWN are free. -/
def SeqSlot.tailBytes (e : SeqSlot) : List Byte :=
  le 4 e.seq ++ le 2 e.tail.layers.length ++ zeros 2 ++ le 4 e.tail.base ++ le 4 e.tail.known.length ++ zeros 48
    ++ e.tail.known.flatMap (le 4) ++ freeBytes 3 e.seq (64 + 4 * e.tail.known.length) (1024 - 4 * e.tail.known.length)
    ++ e.tail.layers.flatMap (·.bytes)

/-- The map version body, and the tail record at the next multiple of 64 bytes (R259). -/
def SeqSlot.mapvBytes (e : SeqSlot) : List Byte :=
  let n := 64 + 4 * e.body.chunks.length
  e.bodyBytes ++ zeros (roundUp 64 n - n) ++ e.tailBytes

/-! ### Tree buckets (R86) -/

def EntrySt.code : EntrySt → Nat
  | .valid => 1
  | .inserting => 2
  | .evicting => 3

def TreeEnt.bytes (e : TreeEnt) : List Byte :=
  le 16 e.chain ++ le 4 (e.chunk % 2 ^ 28 + 2 ^ 28 * e.st.code) ++ le 4 e.lastHit

/-- Bucket `b` of the tree: OCC, OVF and its five slots. -/
def Pfx.bucketBytes (x : Pfx) (b : Nat) : List Byte :=
  let slot (i : Nat) : Option TreeEnt := tget x.tree (5 * b + i)
  le 2 ((List.range 5).foldl (fun v i => setBit v i (slot i).isSome) 0) ++ zeros 2 ++ le 4 (dget x.ovf 0 b)
    ++ (List.range 5).flatMap (fun i => match slot i with | some e => e.bytes | none => freeBytes 2 b (8 + 24 * i) 24)

end Sys2Proof.Machine
end

