-- ==== Sys2Proof/Machine/Sector.lean ====
section
/-!
DEFINITION. Sys2Proof/Machine/Sector.lean: what stands on flash: object contents, sector metadata, encryption, codewords, NAND pages,
parity and journal pages, byte by byte (R257 to R259, R263, R267, R274 to R276, R279, R289, R437).
-/
namespace Sys2Proof.Machine

/-! ### Journal records and pages (R274 to R276) -/

/-- Code of a band kind in a BAND record, in the order of R261 (DEDUCED, log entry 130). -/
def BandKind.code : BandKind → Nat
  | .park => 0
  | .spill => 1
  | .gc => 2
  | .meta_ => 3
  | .journal => 4

/-- TYPE of a record. -/
def JWhat.code : JWhat → Nat
  | .pad => 0x00
  | .page _ _ _ => 0x01
  | .chunk _ _ _ => 0x02
  | .mapv _ _ _ _ _ => 0x03
  | .reloc _ _ _ _ => 0x04
  | .retire _ _ _ _ _ => 0x05
  | .band _ _ _ _ => 0x06
  | .free _ _ _ => 0x07
  | .seq _ _ _ _ => 0x08
  | .nskey _ _ _ => 0x09
  | .ckpt _ _ _ => 0x0A
  | .parity _ _ _ => 0x0B

/-- FLAGS of a record. -/
def JWhat.flags : JWhat → Nat
  | .band _ op k _ => op + 16 * k.code
  | _ => 0

/-- The members of a band in 20 bits for each channel. -/
def memberBits (l : List (Nat × Nat × Nat)) : Nat :=
  (List.range 16).foldl (fun v c =>
    let m := match l.find? (fun m => m.1 == c) with | some m => m.2.1 * 2 ^ 16 + m.2.2 | none => 0xFFFFF
    v + m * 2 ^ (20 * c)) 0

/-- PAYLOAD of a record, without the reserved bytes at its end. -/
def JWhat.payload : JWhat → List Byte
  | .pad => []
  | .page id p loc =>
    le 4 id ++ le 2 p.ctx ++ le 1 p.layer ++ le 1 p.format ++ le 4 p.posBase ++ le 4 p.bytes ++ le 8 loc.word ++ le 4 p.origin
      ++ le 2 p.fill ++ le 1 p.tail.toNat
  | .chunk id ctx loc => le 4 id ++ le 2 ctx ++ zeros 2 ++ le 8 loc.word
  | .mapv q ctx parked v loc => le 4 q ++ le 2 ctx ++ le 1 parked.toNat ++ zeros 1 ++ le 4 v ++ le 8 loc.word
  | .reloc kind obj src dst => le 1 kind ++ zeros 3 ++ le 4 obj ++ le 8 src.word ++ le 8 dst.word
  | .retire c lun block cause e => le 1 c ++ le 1 lun ++ le 1 cause ++ zeros 1 ++ le 4 block ++ le 4 e
  | .band n _ _ ms => le 4 n ++ le 40 (memberBits ms)
  | .free kind obj loc => le 1 kind ++ zeros 3 ++ le 4 obj ++ le 8 loc.word
  | .seq q ctx parked freed => le 4 q ++ le 2 ctx ++ le 1 (parked.toNat + 2 * freed.toNat)
  | .nskey g destroyed loc => le 1 g ++ le 1 destroyed.toNat ++ zeros 6 ++ le 8 (match loc with | some l => l.word | none => 0)
  | .ckpt n loc j => le 4 n ++ zeros 4 ++ le 8 loc.word ++ le 8 j
  | .parity n st loc => le 4 n ++ le 2 st ++ zeros 2 ++ le 8 loc.word

/-- A journal record of 64 bytes (R275). -/
def JRec.bytes (r : JRec) : List Nat :=
  let b := natBytes (le 1 r.what.code ++ le 1 r.ns ++ le 2 r.what.flags ++ zeros 4 ++ le 8 (r.jseq % 2 ^ 56)) ++ fillTo 44 (natBytes r.what.payload)
  b ++ natBytes (le 4 (crc32c b))

/-- The PAD records that follow the records of a page. -/
def JPage.padRecs (p : JPage) : List JRec :=
  let last := p.recs.foldl (fun m r => max m r.jseq) 0
  (List.range p.pads).map (fun i => ⟨last + 1 + i, 0xFF, .pad⟩)

/-- A journal page: 256 records (R274). -/
def JPage.bytes (p : JPage) : List Nat := (p.recs ++ p.padRecs).flatMap (·.bytes)

/-! ### Object contents (R259, R279, R437) -/

/-- An NSKEY object of die `d` (R437) (DESIGN CHOICE, log entry 134). -/
def nskeyBytes (d ns gen : Nat) (key : Option Nat) : List Nat :=
  natBytes (le 4 0x4E534B31 ++ le 1 ns ++ le 1 gen ++ le 1 (if key.isSome then 1 else 2) ++ zeros 1)
    ++ (match key with | some k => aesKw (Config.kek ns gen d) k | none => List.replicate 40 0) ++ List.replicate 16 0

/-- The contents of an object of die `d`. How a checkpoint lays out what it holds the spec leaves open (log entry 33). A PARITY object
has no contents of its own: its page is the parity page (`State.parityPage`). -/
def State.objContent (s : State) (d : Nat) (o : FObj) : List Nat :=
  match o.data with
  | .page p =>
    match p.st with
    | .open_ | .full => natBytes p.tailImage
    | _ => match s.dieCtx? d p.ctx with | some c => natBytes (p.image c) | none => natBytes (p.stored.getD [])
  | .chunk c => natBytes (c.bytes (freeBytes 1 o.obj 56 4))
  | .mapv e => natBytes e.mapvBytes
  | .ckpt _ => natBytes (freeBytes 4 o.obj 0 (4096 * o.loc.count))
  | .nskey ns g k => nskeyBytes d ns g k
  | .parity _ _ => []

/-- The 4,096 data bytes of sector `i` of some contents. -/
def sectorData (l : List Nat) (i : Nat) : List Nat := fillTo 4096 (l.drop (4096 * i))

/-! ### Sector metadata and encryption (R258, R267) -/

/-- The metadata of a sector. -/
structure SecMeta where
  kind : Nat
  ns : Nat
  gen : Nat
  last : Bool
  obj : Nat
  index : Nat
  bandSeq : Nat
deriving DecidableEq, Repr

/-- Its 24 bytes. -/
def SecMeta.bytes (m : SecMeta) : List Nat :=
  natBytes (le 1 m.kind ++ le 1 m.ns ++ le 1 m.gen ++ le 1 m.last.toNat ++ le 4 m.obj ++ le 2 m.index ++ zeros 2 ++ le 8 m.bandSeq ++ zeros 4)

/-- The metadata of sector `i` of an object in a band whose BAND record has JSEQ `q`. -/
def FObj.meta_ (o : FObj) (q i : Nat) : SecMeta := ⟨o.kind, o.ns, o.gen, i + 1 == o.loc.count, o.obj, i, q⟩

/-- The 96-bit IV of a sector. -/
def sectorIv (seq d : Nat) (a : SectorPos) : List Nat :=
  leNats 7 seq ++ [d % 256] ++ leNats 2 a.stripe ++ [a.member % 256, a.u % 256]

/-- The key of a namespace on die `d`: its current one, or the die's metadata key (R435). -/
def State.sectorKey (s : State) (d ns : Nat) : Option Nat := tget s.sec.keys (if ns = 0xFF then 256 + d else ns)

/-- The codeword of a sector: 4,096 encrypted bytes, metadata in clear, tag and 368 parity bytes (R257) (DESIGN CHOICE, log entry 134). -/
def codeword (key : Nat) (iv : List Nat) (m : SecMeta) (data : List Nat) : List Nat :=
  let x := gcmSeal key iv m.bytes data
  let b := x.1 ++ m.bytes ++ x.2
  b ++ (List.range 368).map (fun i => Config.ldpc b i % 256)

/-- Whether a codeword that decoded is accepted: the expected metadata, and the tag under them (R271). -/
def codewordOk (key : Nat) (iv : List Nat) (m : SecMeta) (b : List Nat) : Bool :=
  (b.drop 4096).take 24 == m.bytes && (gcmOpen key iv ((b.drop 4096).take 24) (b.take 4096) ((b.drop 4120).take 16)).isSome

/-- Whether the tag of a codeword fails, whatever its metadata. -/
def tagFails (key : Nat) (iv : List Nat) (b : List Nat) : Bool :=
  (gcmOpen key iv ((b.drop 4096).take 24) (b.take 4096) ((b.drop 4120).take 16)).isNone

/-! ### NAND pages, parity and journal pages -/

/-- The object that covers a sector, present or replaced. -/
def Ftl.objAt (f : Ftl) (n a : Nat) : Option FObj :=
  (f.objs ++ f.ghosts).find? (fun o => o.loc.band == n && decide (o.loc.sector ≤ a) && decide (a < o.loc.sector + o.loc.count))

/-- The codeword that sector `a` of a band holds; none where no object was written or its key is gone. -/
def State.codewordAt (s : State) (d n a : Nat) : Option (List Nat) :=
  match tget (s.ftl d).bands n, (s.ftl d).objAt n a with
  | some b, some o =>
    (s.sectorKey d o.ns).map (fun k =>
      codeword k (sectorIv b.seq d (s.posIn d b a)) (o.meta_ b.seq (a - o.loc.sector)) (sectorData (s.objContent d o) (a - o.loc.sector)))
  | _, _ => none

/-- Spare bytes of a plane page of the die's devices. -/
def State.spareBytes (s : State) (d : Nat) : Nat := match (s.ftl d).luns with | l :: _ => l.spareBytes | [] => 1632

/-- A plane page: four codewords, and 0xFF in the spare bytes beyond them (R257). -/
def planePage (spare : Nat) (cws : List (List Nat)) : List Nat := cws.flatten ++ List.replicate (spare - 1632) 0xFF

/-- The raw codeword images of one member's page of a stripe; a sector never written is all zeros (R263). -/
def State.rawPage (s : State) (d n stripe member : Nat) : List (List Nat) :=
  match tget (s.ftl d).bands n with
  | none => []
  | some b =>
    let spm := s.spm d
    let k := if member < stripe % max 1 b.members.length then member else member - 1
    let a := stripe * ((b.members.length - 1) * spm) + k * spm
    (List.range spm).map (fun u =>
      if b.done.contains (stripe * 64 + member) then (s.codewordAt d n (a + u)).getD (List.replicate 4504 0) else List.replicate 4504 0)

/-- The parity page of a stripe: the exclusive-or of the raw images of its data members' pages (R263, R289) (DEDUCED, log entry 127). -/
def State.parityPage (s : State) (d n stripe : Nat) : List (List Nat) :=
  match tget (s.ftl d).bands n with
  | none => []
  | some b =>
    let w := b.members.length
    (((List.range w).filter (· != stripe % max 1 w)).map (s.rawPage d n stripe)).foldl (fun acc p => List.zipWith xorBytes acc p)
      (List.replicate (s.spm d) (List.replicate 4504 0))

/-- The planes of a page of codeword images. -/
def State.planesOf (s : State) (d : Nat) (cws : List (List Nat)) : List (List Nat) :=
  (List.range (s.spm d / 4)).map (fun p => planePage (s.spareBytes d) ((cws.drop (4 * p)).take 4))

/-- What is programmed into the page of a member in a stripe of a data band: data, or the parity (R257, R263). -/
def State.programImage (s : State) (d n stripe member : Nat) : List (List Nat) :=
  match tget (s.ftl d).bands n with
  | none => []
  | some b =>
    s.planesOf d (if member = stripe % max 1 b.members.length then s.parityPage d n stripe else s.rawPage d n stripe member)

/-- The four codewords of a journal page in one of its slots (R259, R274); none while the die has no metadata key. -/
def State.journalImage (s : State) (d : Nat) (p : JPage) (slot : Nat) : Option (List (List Nat)) :=
  match tget (s.ftl d).bands p.band, s.sectorKey d 0xFF with
  | some b, some k =>
    let a := (2 * p.pair + slot) * s.spm d
    some ((List.range 4).map (fun i =>
      codeword k (sectorIv b.seq d (s.posIn d b (a + i))) ⟨6, 0xFF, 0, i == 3, p.no, i, b.seq⟩ (sectorData p.bytes i)))
  | _, _ => none

/-- What an anchor says, in an order the spec leaves open, as one sector; its place in no band leaves its IV open (R279) (DESIGN CHOICE, log entry 33). -/
def State.anchorSector (s : State) (d : Nat) (a : Anchor) : Option (List Nat) :=
  (s.sectorKey d 0xFF).map (fun k =>
    let iv := leNats 12 (Config.anchorIv a.serial)
    codeword k iv ⟨8, 0xFF, 0, true, a.serial, 0, Config.anchorIv a.serial % 2 ^ 56⟩ (sectorData (natBytes (freeBytes 5 a.serial 0 4096)) 0))

end Sys2Proof.Machine
end

