-- ==== Sys2Proof/Machine/Media.lean ====
section
/-!
DEFINITION. Sys2Proof/Machine/Media.lean: the commands of chapter 08: programs, reads and their recovery, the journal,
checkpoints, garbage collection, patrol, replay and the channels of twins (R254 to R306).
-/
namespace Sys2Proof.Machine

/-! ### What carries another key generation (R269) -/

/-- Whether an object carries a generation that is not its namespace's present one. -/
def State.stale (s : State) (o : FObj) : Bool := o.ns != 0xFF && o.gen != s.genOf o.ns

/-- Work of another generation dropped; the task that issued it ends with FENCED. -/
def State.dropStale (s : State) (d : Nat) (o : FObj) : State :=
  let s := s.dropObj d o.loc
  match (s.ftl d).tasks.find? (fun t => match t.todo with | i :: _ => i.names o | [] => false) with
  | some t => s.endTaskWith d t stFENCED
  | none => s

/-! ### Relocation (R273, R280 to R284, R304) -/

/-- A relocation of a valid object begins: destination sectors are taken and its source is read (R281). -/
def State.startReloc (s : State) (d : Nat) (o : FObj) (urgent : Bool) : Option State :=
  if (s.ftl d).objs.any (fun x => x.src == some o.loc) then some s
  else
    match s.writeObj d .gc o.kind o.obj o.ns o.loc.count (some o.loc) o.data with
    | none => none
    | some (loc, s) => some (s.modFtl d (fun f => { f with objs := modObj loc (fun x => { x with urgent := urgent }) f.objs }))

/-- FTL_STATUS.GC_ACTIVE (R305). -/
def State.gcStatus (s : State) (d : Nat) : State :=
  s.fput FTL_STATUS_GC_ACTIVE d ((s.ftl d).bands.any (fun e => e.2.gc == .copying || e.2.gc == .erasing))

/-- Queued refreshes and moves off fenced channels begin (R273, R304). -/
def State.runRefresh (s : State) (d : Nat) : State :=
  if (s.ftl d).hold != .free || !s.fbit FTL_STATUS_READY d then s
  else
    (s.ftl d).refresh.foldl (fun s x =>
      let done (s : State) : State := s.modFtl d (fun f => { f with refresh := f.refresh.filter (fun y => y != x) })
      match (s.ftl d).valid x.1 x.2.1 with
      | none => done s
      | some o =>
        match s.startReloc d o x.2.2 with
        | none => s
        | some s => if x.2.2 then done s else (done s).fadd FTL_REFRESHES_COUNT d 1) s

/-- Objects of victims whose location stands and that no relocation moves yet: one whose programs passed after the victim was
chosen among them. -/
def State.toMove (s : State) (d : Nat) : List FObj :=
  (s.ftl d).objs.filter (fun o =>
    o.src.isNone && o.st == .passed && !s.stale o
      && (match tget (s.ftl d).bands o.loc.band with | some b => b.gc == .copying | none => false)
      && !(s.ftl d).objs.any (fun x => x.src == some o.loc))

/-- Whether nothing of a victim is needed any more: no valid object, no copy in it whose fate is open, no relocation from it, and no
staging task that reads it (R283). -/
def State.copied (s : State) (d n : Nat) : Bool :=
  !(s.ftl d).objs.any (fun o => (o.loc.band == n && !s.stale o) || (match o.src with | some l => l.band == n | none => false))
    && !(s.stg d).tasks.any (fun t => !t.segs.isEmpty && t.src / 2 ^ 40 == n && t.src != 0)

/-- Collection goes on: the objects that are left begin to move, and victims of which nothing is needed any more go to ERASING (R281,
R283). -/
def State.gcAdvance (s : State) (d : Nat) : State :=
  let s := if (s.ftl d).hold ≠ .free then s else (s.toMove d).foldl (fun s o => (s.startReloc d o false).getD s) s
  let ready := (s.ftl d).bands.filter (fun e => e.2.gc == .copying && s.copied d e.1)
  ((ready.foldl (fun s e => s.modBand d e.1 (fun b => { b with gc := .erasing })) s).gcStatus d).serve d

/-- The victim: the closed band with the fewest valid sectors, ties to the lower JSEQ of its BAND record (R280). -/
def State.victim (s : State) (d : Nat) : Option (Nat × Band) :=
  ((s.ftl d).bands.filter (fun e => e.2.closed && e.2.kind != .journal && (e.2.gc == .none_ || e.2.gc == .victim))).foldl
    (fun b e =>
      match b with
      | none => some e
      | some x =>
        let v := s.validIn d e.1
        let w := s.validIn d x.1
        if v < w ∨ (v = w ∧ e.2.seq < x.2.seq) then some e else some x) none

/-- A victim is chosen and its valid objects are relocated; one with none goes straight to erase (R280, R281). -/
def State.gcPick (s : State) (d : Nat) : State :=
  match s.victim d with
  | none => s.roCheck d
  | some (n, _) => (s.modBand d n (fun b => { b with gc := .copying })).gcAdvance d

/-- Garbage collection goes on while it is due (R280). -/
def State.gcGo (s : State) (d : Nat) : State :=
  let free := s.freeBands d
  let on := if free < s.inForce FTL_GC_LOW d then true else if s.inForce FTL_GC_HIGH d ≤ free then false else (s.ftl d).gcOn
  let s := s.modFtl d (fun f => { f with gcOn := on })
  let busy := (s.ftl d).bands.any (fun e => e.2.gc == .copying || e.2.gc == .erasing)
  if on && !busy && s.fbit FTL_CTRL_GC_EN d then s.gcPick d else s

/-- GC_START (R273, R280, R281) (DESIGN CHOICE, log entry 88). -/
def execGcStart (d : Nat) (s : State) : Host.Outcome State Fault Refusal :=
  if (s.ftl d).hold != .free || !s.clockOn d 7 || !s.fbit FTL_STATUS_READY d then .next s
  else .next (((s.runRefresh d).gcGo d).roCheck d)

/-! ### Programs (R263, R265, R266, R269, R274, R277, R289) -/

/-- A member retired with its RETIRE record (R266, R285). -/
def State.retireMember (s : State) (d c lun block cause : Nat) : State :=
  let k := memKey c lun block
  let e := ((s.ftl d).member k).erases
  let s := s.modFtl d (fun f => f.modMember k (fun m => { m with bad := true, inUse := false }))
  ((s.journal d 0xFF (.retire c lun block cause e)).2).wearCheck d

/-- Whether an object counts as committed (R266): its record is durable, or it is a spilled copy, which has none (DEDUCED, log entry 78). -/
def State.committed (s : State) (d : Nat) (o : FObj) : Bool :=
  o.durable || (o.st == .passed && (match tget (s.ftl d).bands o.loc.band with | some b => b.kind == .spill | none => false))

/-- An object of a band that was closed for a failure written again: a relocation from its source, another from the staging
buffers. A copy that has passed stays until the new one has (R266). -/
def State.redo (s : State) (d : Nat) (k : BandKind) (o : FObj) : State :=
  match o.src with
  | some l =>
    let s := s.dropObj d o.loc
    match (s.ftl d).objs.find? (fun x => x.loc == l) with
    | some x => (s.startReloc d x o.urgent).getD s
    | none => s
  | none =>
    let s := if o.st = .passed then s else s.dropObj d o.loc
    match s.writeObj d k o.kind o.obj o.ns o.loc.count none o.data with
    | some (_, s) => s
    | none =>
      let s := s.roCheck d
      if o.kind = 4 then s.modFtl d (fun f => { f with ckptRun := false }) else s

/-- A PARITY object in the JOURNAL band: one page in the first slot of the next pair (R288; log entry 127). -/
def State.writeParity (s : State) (d band stripe : Nat) : State :=
  match s.journalSlot d with
  | none => s.roCheck d
  | some (n, p) =>
    let spm := s.spm d
    let loc : FLoc := ⟨n, 2 * p * spm, spm⟩
    let left := match tget (s.ftl d).bands n with
      | some b => ((b.slots p).take 1).map (fun x => x.1 * 64 + x.2)
      | none => []
    let o : FObj :=
      { kind := 7, obj := band, ns := 0xFF, gen := 0, loc := loc, st := .programming, left := left, reads := [], src := none,
        data := .parity band stripe, jseq := 0, durable := false, epoch := s.epoch d, urgent := false }
    let s := s.modFtl d (fun f => { f with objs := f.objs ++ [o], bands := tmod f.bands n (fun b => { b with wp := p + 1 }) })
    (s.rollJournal d n).serve d

/-- A program in a JOURNAL band that failed: its page, or the PARITY object, is written again in the next slot pair (R274). -/
def State.journalFail (s : State) (d band code : Nat) : State :=
  let hit (b : Band) (p : JPage) : Bool := p.band == band && (b.slots p.pair).any (fun x => x.1 * 64 + x.2 == code)
  match tget (s.ftl d).bands band with
  | none => s
  | some b =>
    let lost := (s.ftl d).objs.filter (fun o => o.loc.band == band && o.st == .programming && o.left.contains code)
    let s := s.modFtl d (fun f =>
      { f with
        jpages := f.jpages.map (fun p => if hit b p then { p with band := 0, pair := 0, okA := false, okB := false } else p)
        objs := f.objs.filter (fun o => !(o.loc.band == band && o.st == .programming && o.left.contains code)) })
    let s := s.placePages d
    (lost.foldl (fun s o => match o.data with | .parity n st => s.writeParity d n st | _ => s) s).roCheck d

/-- A page that cannot be relied on: its member is retired, and what is not safe in its band is written again (R266, R274, R281). -/
def State.progFail (s : State) (d band stripe member : Nat) : State :=
  match tget (s.ftl d).bands band with
  | none => s
  | some b =>
    let s := (s.fadd FTL_PROG_FAIL_COUNT d 1).evtDie FTL_EVENT_PROG_FAIL d
    let s := match b.members[member]? with
      | some m => s.retireMember d m.1 m.2.1 m.2.2 1
      | none => s
    if b.kind = .journal then s.journalFail d band (stripe * 64 + member)
    else
      let s := s.closeBand d band
      let inStripe (o : FObj) : Bool := (pagesOfRun b.members.length (s.spm d) o.loc.sector o.loc.count).any (fun p => p / 64 == stripe)
      let redo := (s.ftl d).objs.filter (fun o => o.loc.band == band && o.kind != 7 && (inStripe o || !s.committed d o))
      (redo.foldl (fun s o => s.redo d b.kind o) s).serve d

/-- Whether a data program is in progress on the die (R288 event 3). -/
def Ftl.programming (f : Ftl) : Bool :=
  f.lun.any (fun e => match e.2.1 with
    | .prog n _ _ => (match tget f.bands n with | some b => b.kind != .journal | none => false)
    | _ => false)

/-- The stripe of an open data band that is not complete, with at least one page of it programmed (R288 event 4). -/
def State.openStripe (s : State) (d : Nat) (b : Band) : Option Nat :=
  let n := (b.members.length - 1) * s.spm d
  let st := b.wp / max 1 n
  if b.closed || b.kind == .journal || b.wp % max 1 n == 0 || !(b.done.any (fun p => p / 64 == st)) then none else some st

/-- The partial parity of each open band's current stripe once the data programs of a power-loss warning are done, and the records
that they made eligible (R288 event 4, R289) (DEDUCED, log entry 136). -/
def State.partialParity (s : State) (d : Nat) : State :=
  let f := s.ftl d
  if f.hold != .loss || f.programming then s
  else
    let s := f.bands.foldl (fun s e =>
      match s.openStripe d e.2 with
      | some st =>
        if (s.ftl d).parNow.contains e.1 then s
        else (s.modFtl d (fun f => { f with parNow := e.1 :: f.parNow })).writeParity d e.1 st
      | none => s) s
    s.issueJournal d

/-- When the warning ends each band goes on past the stripe whose partial parity was written (R290). -/
def State.pastParity (s : State) (d : Nat) : State :=
  let s := (s.ftl d).parNow.foldl (fun (s : State) n =>
    s.modBand d n (fun b =>
      let m := (b.members.length - 1) * s.spm d
      if b.closed then b else { b with wp := ceilDiv b.wp (max 1 m) * m })) s
  s.modFtl d (fun f => { f with parNow := [] })

/-- Both programs of journal page `i` have passed: pages become durable in order, and what waits for them completes (R277, R278). -/
def State.pageDurable (s : State) (d i : Nat) : State :=
  let n := (s.ftl d).jpages.length
  let s := s.modFtl d (fun f =>
    { f with jpages := f.jpages.mapIdx (fun k p => if k = i then { p with okA := true, okB := true } else p) })
  let s := s.jAdvance d n
  let s := s.finishTasks d (s.ftl d).tasks
  -- edits behind one that completed (R82)
  let s := s.retryEdits d (s.pfx d).edits.length
  let s := if 256 ≤ (s.ftl d).jpend.length ∨ (s.ftl d).hold = .loss then s.issueJournal d else s
  s.gcAdvance d

/-- The LUN that works on something. -/
def Ftl.lunOf (f : Ftl) (op : FOp) : Option Nat := (f.lun.find? (fun e => e.2.1 == op)).map (·.1)

/-- The work of the two programs of a journal page. -/
def Ftl.pageOps (f : Ftl) (p : JPage) : List (FOp × Bool) :=
  match tget f.bands p.band with
  | some b => ((b.slots p.pair).map (fun x => FOp.prog p.band x.1 x.2)).zip [p.okA, p.okB]
  | none => []

/-- JOURNAL_PAGE_DURABLE says that both programs of a page pass: each of them has passed already or is what its LUN works on, which
is then free, after `ns` of channel time. -/
def State.journalPage (s : State) (d i ns : Nat) : State :=
  match (s.ftl d).jpages[i]? with
  | none => s
  | some p =>
    let ops := (s.ftl d).pageOps p
    let runs := ops.filterMap (fun x => if x.2 then none else (s.ftl d).lunOf x.1)
    if ops.length ≠ 2 ∨ (s.ftl d).still ∨ runs.length ≠ (ops.filter (fun x => !x.2)).length then s
    else
      let n := s.spm d
      let s := s.modFtl d (fun f => { f with lun := runs.foldl (fun l k => tdel l k) f.lun })
      let s := runs.foldl (fun s _ => (s.pmc d 0x13 n (4096 * n) none).chanTime d ns false false) s
      ((s.pageDurable d i).serve d).partialParity d

/-- The journal page that holds a slot of a band, by its place, and whether the slot is its second. -/
def Ftl.slotPage (f : Ftl) (band : Nat) (b : Band) (stripe member : Nat) : Option (Nat × Bool) :=
  ((List.range f.jpages.length).zip f.jpages).findSome? (fun x =>
    if x.2.band = band then
      match b.slots x.2.pair with
      | [p, q] => if p = (stripe, member) then some (x.1, false) else if q = (stripe, member) then some (x.1, true) else none
      | _ => none
    else none)

/-- A page of a JOURNAL band programmed: one of the two programs of a journal page, or a PARITY object (R274). -/
def State.journalOk (s : State) (d band : Nat) (b : Band) (stripe member : Nat) : State :=
  match (s.ftl d).slotPage band b stripe member with
  | some (i, second) =>
    let s := s.modFtl d (fun f =>
      { f with jpages := f.jpages.mapIdx (fun k p => if k = i then (if second then { p with okB := true } else { p with okA := true }) else p) })
    if (s.ftl d).jpages[i]?.any (fun p => p.okA && p.okB) then s.pageDurable d i else s
  | none =>
    let p := stripe * 64 + member
    match (s.ftl d).objs.find? (fun o => o.loc.band == band && o.st == .programming && o.left.contains p) with
    | some o =>
      let s := s.objPassed d o
      -- the tail goes out as soon as it can (R288)
      if (s.ftl d).hold = .loss then s.issueJournal d else s
    | none => s

/-- A page programmed: its stripe's parity has passed, or the objects it belongs to come nearer to passing (R263, R265, R277). -/
def State.progOk (s : State) (d band stripe member : Nat) : State :=
  match tget (s.ftl d).bands band with
  | none => s
  | some b =>
    let n := s.spm d
    let s := s.pmc d 0x13 n (4096 * n) none
    if b.kind = .journal then s.journalOk d band b stripe member
    else if member = stripe % max 1 b.members.length then s.modBand d band (fun b => { b with par := insNat stripe b.par })
    else
      let p := stripe * 64 + member
      let s := (s.bw d 5 (4096 * n)).modBand d band (fun b => { b with done := insNat p b.done })
      let mine := (s.ftl d).objs.filter (fun o => o.loc.band == band && o.st == .programming && o.left.contains p)
      let s := (mine.filter s.stale).foldl (fun s o => s.dropStale d o) s
      let s := s.modFtl d (fun f => { f with objs := f.objs.map (fun o =>
        if o.loc.band = band ∧ o.st = .programming then { o with left := o.left.filter (· != p) } else o) })
      let full := (s.ftl d).objs.filter (fun o => o.loc.band == band && o.st == .programming && o.left.isEmpty)
      full.foldl (fun s o => s.objPassed d o) s

/-- The anchor of a checkpoint has passed: journal bands with nothing newer than it are erased, and checkpoints that no anchor names
are freed (R279). -/
def State.anchorDone (s : State) (d : Nat) : State :=
  match (s.ftl d).anchorRun with
  | none => s
  | some a =>
    let s := s.modFtl d (fun f =>
      { f with
        anchors := tput f.anchors (a.serial % 2) a, anchorRun := none, ckptRun := false
        jlog := f.jlog.filter (fun r => decide (a.jseq < r.jseq))
        bands := tmap (fun _ b => if b.kind = .journal ∧ b.closed ∧ b.last ≤ a.jseq then { b with gc := .erasing } else b) f.bands })
    let old := (s.ftl d).objs.filter (fun o =>
      o.kind == 4 && o.durable && o.src.isNone && !(s.ftl d).anchors.any (fun e => e.2.loc == o.loc))
    ((old.foldl (fun s o => s.freeObj d 4 o.obj) s).gcStatus d).serve d

/-- Whether work is garbage collection's. -/
def Ftl.isGc (f : Ftl) : FOp → Bool
  | .prog n _ _ => (match tget f.bands n with | some b => b.kind == .gc | none => false)
  | .erase _ => true
  | .anchor => false

/-- A LUN is done with its work, which took `ns` of channel time. -/
def State.endOp (s : State) (d k : Nat) (op : FOp) (ns : Nat) : State :=
  (s.modFtl d (fun f => { f with lun := tdel f.lun k })).chanTime d ns false ((s.ftl d).isGc op)

/-- A page's program ends after `ns` of channel time (R263, R266, R274, R279, R286, R289): nothing happens for a page that no LUN is
programming, or while programs are suspended. An anchor that fails is programmed again. -/
def State.programDone (s : State) (d band stripe member : Nat) (ok : Bool) (ns : Nat) : State :=
  let op : FOp := if band = 0 then .anchor else .prog band stripe member
  match (if (s.ftl d).still then none else (s.ftl d).lunOf op) with
  | none => s
  | some k =>
    let s := s.endOp d k op ns
    let s :=
      if band = 0 then (if ok then s.anchorDone d else s)
      else if ok then s.progOk d band stripe member else s.progFail d band stripe member
    (s.serve d).partialParity d

/-! ### Reads (R269, R271 to R273, R281 to R284, R286, R295) -/

/-- Whether an object covers a sector. -/
def FLoc.covers (l : FLoc) (band sector : Nat) : Bool := l.band == band && decide (l.sector ≤ sector) && decide (sector < l.sector + l.count)

/-- The member that holds a sector of a band. -/
def State.memberAt (s : State) (d band sector : Nat) : Option (Nat × Nat × Nat) :=
  match tget (s.ftl d).bands band with
  | some b => b.members[(s.posIn d b sector).member]?
  | none => none

/-- The relocation that a read serves. -/
def Ftl.relocOf (f : Ftl) (use : ReadUse) (r : SectorRead) : Option FObj :=
  match use with
  | .source => f.objs.find? (fun o =>
      o.st == .reading && (match o.src with | some l => l.band == r.band && o.reads.contains r.sector | none => false))
  | .verify => f.objs.find? (fun o => o.st == .verifying && o.loc.band == r.band && o.reads.contains r.sector)
  | _ => none

/-- A read takes its LUN: one of priority 1 to 3 of R245 suspends a program or erase on it, at most four times; another one finds
it free, one of garbage collection within its share. No read is done for staging or garbage collection under a power-loss warning
(R286, R288). None where it is not done now (DEDUCED, log entry 131). -/
def State.takeRead (s : State) (d : Nat) (use : ReadUse) (r : SectorRead) : Option State :=
  let f := s.ftl d
  let reloc := f.relocOf use r
  let first := match use with
    | .staging _ => true
    | .source | .verify => reloc.any (·.urgent)
    | .other => false
  let gc := match use with | .source | .verify => !first | _ => false
  if f.hold == .error || (f.stopped && use != .other) then none
  else if gc && !s.gcMay d then none
  else
    match (s.memberAt d r.band r.sector).bind (fun m => (tget f.lun (lunKey m.1 m.2.1)).map (fun x => (lunKey m.1 m.2.1, x))) with
    | none => some s
    | some (k, op, n) =>
      if first && decide (n < 4) then some (s.modFtl d (fun f => { f with lun := tput f.lun k (op, n + 1) })) else none

/-- Key, IV and metadata that the reader of a sector expects; none where no object is known to stand (R267, R271) (DEDUCED, log entry 152). -/
def State.expects (s : State) (d band a : Nat) : Option (Nat × List Nat × SecMeta) :=
  match tget (s.ftl d).bands band, (s.ftl d).objAt band a with
  | some b, some o => (s.sectorKey d o.ns).map (fun k => (k, sectorIv b.seq d (s.posIn d b a), o.meta_ b.seq (a - o.loc.sector)))
  | _, _ => none

/-- Whether a codeword that decoded is accepted, and whether its tag fails (R271) (DEDUCED, log entry 152). -/
def Codeword.check (x : Option (Nat × List Nat × SecMeta)) : Codeword → Bool × Bool
  | .written => (true, false)
  | .other b =>
    match x with
    | some (k, iv, m) => (codewordOk k iv m (natBytes b), tagFails k iv (natBytes b))
    | none => (false, true)

/-- The step that ends a read, and the tag failures on the way: the codewords that decoded are looked at in the order of the steps; with
`skip` only stripe rebuild is left (R271, R304, R305) (DEDUCED, log entry 152). -/
def recoverSteps (x : Option (Nat × List Nat × SecMeta)) (l : List (Nat × Codeword)) (skip : Bool) : Nat × Nat :=
  let rec go : List (Nat × Codeword) → Nat → Nat × Nat
    | [], n => (5, n)
    | (k, c) :: r, n => let v := c.check x; if v.1 then (k, n) else go r (n + v.2.toNat)
  go ((if skip then [4] else [1, 2, 3, 4]).flatMap (fun k => l.filter (fun e => e.1 == k))) 0

/-- A sector read taken into account (R271 to R273, R295, R302, R304): counts, health events, the start entry, the member's reads and
the refresh queue. Answers the step that ended it. The next read of a sector in a band after INJECT fails steps 1 to 3, and so does
one on a fenced channel, where they are not run (DEDUCED, log entry 78; DEDUCED, log entry 152). -/
def State.readSector (s : State) (d : Nat) (r : SectorRead) : Nat × State :=
  let f := s.ftl d
  let mem := s.memberAt d r.band r.sector
  let off := mem.any (fun m => s.fbitAt FTL_CH_FENCE_FENCED d m.1)
  let inj := f.inject && (tget f.bands r.band).isSome
  let x := s.expects d r.band r.sector
  let (step, tags) := recoverSteps x r.decoded (inj || off)
  let retries := if off then 0 else r.retries
  let s := if inj then (s.modFtl d (fun f => { f with inject := false })).evtDie FTL_EVENT_INJECT_SEEN d else s
  let s := s.pmc d 0x12 1 4096 none
  let s := if retries = 0 then s else s.pmc d 0x14 1 retries none
  let s := (s.bw d 4 4096).hist d 8 0 (s.clk.tNs - r.issued)
  let s := (s.fadd FTL_RETRIES_COUNT d retries).fadd FTL_TAG_FAIL_COUNT d tags
  let s := if 3 ≤ step && !off then s.fadd FTL_SOFT_COUNT d 1 else s
  let s := if 4 ≤ step then s.fadd FTL_REBUILDS_COUNT d 1 else s
  let s := if step = 4 then (s.evtDie FTL_EVENT_REBUILT d).healthOccur d 0x06 0xFF else s
  let s := if 5 ≤ step then ((s.fadd FTL_UNCORR_COUNT d 1).evtDie FTL_EVENT_DATA_LOSS d).healthOccur d 0x07 0xFF else s
  match mem with
  | none => (step, s)
  | some m =>
    let k := memKey m.1 m.2.1 m.2.2
    let mb := (s.ftl d).member k
    let top := s.inForce FTL_RETRY_START_MAX d
    let lim := s.inForce FTL_PATROL_RD_LIMIT d * 1024
    let hit := decide (lim ≤ mb.reads + 1)
    let s := s.modFtl d (fun f =>
      { (f.modMember k (fun x =>
          { x with
            reads := if hit then 0 else x.reads + 1
            start := if step ≤ 3 then min r.entry top else x.start })) with
        disturb := if hit then insNat k f.disturb else f.disturb })
    let s :=
      if step ≤ 3 ∧ top < r.entry ∧ (s.ftl d).pinned = false then
        let s := ((s.modFtl d (fun f => { f with pinned := true })).fadd FTL_PINNED_COUNT d 1).evtDie FTL_EVENT_PINNED d
        s.adaptPinned d 3 (s.fget FTL_PINNED_COUNT d)
      else s
    if step = 3 ∨ step = 4 ∨ (step < 3 ∧ s.inForce FTL_RETRY_REFRESH_BITS d < r.bits) then
      match (s.ftl d).objs.find? (fun o => o.src.isNone && o.st == .passed && o.loc.covers r.band r.sector) with
      | none => (step, s)
      | some o =>
        if (s.ftl d).chan m.1 = .twinRo then (step, s.healthOccur (twin d) 0x0D m.1)
        else
          let q := (o.kind, o.obj, false)
          (step, (s.modFtl d (fun f => { f with refresh := if f.refresh.contains q then f.refresh else f.refresh ++ [q] })).runRefresh d)
    else (step, s)

/-- A relocation ends its verification: RELOC is appended, or the destination is discarded when the object has moved (R282). -/
def State.commitReloc (s : State) (d : Nat) (o : FObj) : State :=
  let cur := match o.src with
    | some l => (s.ftl d).objs.any (fun x => x.kind == o.kind && x.obj == o.obj && x.src.isNone && x.loc == l)
    | none => false
  if !cur then (s.dropObj d o.loc).fadd FTL_GC_DISCARD_COUNT d 1
  else
    let (j, s) := s.journal d o.ns (.reloc o.kind o.obj (o.src.getD ⟨0, 0, 0⟩) o.loc)
    s.modFtl d (fun f => { f with objs := modObj o.loc (fun x => { x with st := .passed, jseq := j }) f.objs })

/-- A checkpoint begins: a CKPT object goes to the META band (R279). How many sectors it takes the spec leaves open (DESIGN CHOICE, log entry 33). -/
def State.startCkpt (s : State) (d : Nat) : State :=
  let f := s.ftl d
  if f.ckptRun || f.hold != .free || !s.fbit FTL_STATUS_READY d then s
  else
    let (k, s) := s.draw
    let n := 1 + Config.pick k % 512
    let body : CkptBody :=
      { jseq := f.jdur, bands := f.bands, members := f.members
        objs := (f.objs.filter (fun o => o.durable && o.src.isNone && o.kind != 4 && o.kind != 7)).map (fun o => (o.kind, o.obj, o.loc)) }
    match s.writeObj d .meta_ 4 (f.ckptNo + 1) 0xFF n none (.ckpt body) with
    | none => s.roCheck d
    | some (_, s) =>
      s.modFtl d (fun f => { f with ckptRun := true, ckptNo := f.ckptNo + 1, ckptBytes := 0, ckptT := s.clk.tNs })

/-- A new copy of an object whose source cannot be read, in place of the relocation (DEDUCED, log entry 153). -/
def State.rewrite (s : State) (d : Nat) (o : FObj) (n : Nat) (data : FData) : State :=
  let k := if o.kind = 5 then BandKind.meta_ else .gc
  match s.writeObj d k o.kind o.obj o.ns n none data with
  | some (_, s) => s
  | none => s.roCheck d

/-- A source that cannot be read (R284): a page is written again from HBM, or its location is freed and the page goes to step 3 of
R209; a CHUNK or MAPV object is written again from its HBM structure, an NSKEY object from the key, and a checkpoint is taken anew (DEDUCED, log entry 153). -/
def State.sourceLost (s : State) (d : Nat) (o : FObj) : State :=
  let s := s.dropObj d o.loc
  if o.kind = 1 then
    match s.page? d o.obj with
    | none => s.freeObj d 1 o.obj
    | some p =>
      if p.place.hbm then s.rewrite d o (sectorsOf (s.storedBytes d p)) (.page p)
      else
        let s := match (s.ftl d).valid 1 o.obj with
          | some x => if x.jseq = 0 then (s.journal d o.ns (.free 1 o.obj x.loc)).2 else s
          | none => s
        let s := s.freeFlash d o.obj
        if p.st = .sealed then
          let s := s.modPage d o.obj (fun p => { p with st := .suspect })
          let s := s.modCsm d (fun c => { c with rebuilds := c.rebuilds ++ [(o.obj, 3, 4)] })
          (s.fsat ATM_STATUS_REBUILDS d (s.csm d).rebuilds.length).rebuildStep d o.obj 3
        else s.losePage d o.obj
  else if o.kind = 2 ∨ o.kind = 3 then
    match s.itemObj d (if o.kind = 2 then .chunk o.obj else .mapv o.obj) with
    | none => s.freeObj d o.kind o.obj
    | some (_, _, n, data) => s.rewrite d o n data
  else if o.kind = 4 then (s.freeObj d 4 o.obj).startCkpt d
  else s.rewrite d o o.loc.count o.data

/-- A sector of a relocation's source was read: the last one lets its programs begin (R281 items 1 to 3). -/
def State.sourceRead (s : State) (d step : Nat) (o : FObj) (r : SectorRead) : State :=
  if s.stale o then s.dropStale d o
  else if 5 ≤ step then s.sourceLost d o
  else
    (s.modFtl d (fun f => { f with objs := modObj o.loc (fun x =>
      let left := x.reads.filter (· != r.sector)
      { x with reads := left, st := if left.isEmpty then .programming else .reading }) f.objs })).serve d

/-- A sector of a destination was read back (R281 item 4): the last one commits the relocation; one that does not verify is a program
failure. -/
def State.verifyRead (s : State) (d step : Nat) (o : FObj) (r : SectorRead) : State :=
  if s.stale o then s.dropStale d o
  else if 4 ≤ step ∨ s.inForce FTL_RETRY_REFRESH_BITS d < r.bits then
    match tget (s.ftl d).bands r.band with
    | some b => let a := s.posIn d b r.sector; s.progFail d r.band a.stripe a.member
    | none => s
  else
    let left := o.reads.filter (· != r.sector)
    if left.isEmpty then s.commitReloc d o
    else s.modFtl d (fun f => { f with objs := modObj o.loc (fun x => { x with reads := left }) f.objs })

/-- SECTOR_READ_DONE (R269, R271 to R273, R281 to R284, R286). A read for a relocation that none waits for, or that its LUN does not do
now, has no effect. -/
def execSectorReadDone (d : Nat) (use : ReadUse) (r : SectorRead) (t : Nat) (s : State) : Host.Outcome State Fault Refusal :=
  let s := s.advanceTo t
  let reloc := (s.ftl d).relocOf use r
  let hint := match use with
    | .staging page => (s.stg d).tasks.any (fun t => t.page == page && t.prio == 3)
    | _ => false
  let gc := match use with | .source | .verify => true | _ => false
  if gc && reloc.isNone then .next s
  else
    match s.takeRead d use r with
    | none => .next s
    | some s =>
      let (step, s) := (s.chanTime d r.ns hint gc).readSector d r
      match use, reloc with
      | .source, some o => .next ((s.sourceRead d step o r).gcAdvance d)
      | .verify, some o => .next ((s.verifyRead d step o r).gcAdvance d)
      | _, _ => .next s

/-! ### The journal and checkpoints (R274 to R279) -/

/-- JOURNAL_WINDOW_EXPIRY (R277 item 4). -/
def execJournalWindowExpiry (d t : Nat) (s : State) : Host.Outcome State Fault Refusal :=
  let s := s.advanceTo t
  let f := s.ftl d
  if f.jpend.isEmpty ∨ s.clk.tNs < f.jpendT + s.inForce FTL_JNL_WINDOW d * 1000 then .next s else .next (s.issueJournal d)

/-- CHECKPOINT_START (R279). -/
def execCheckpointStart (d t : Nat) (s : State) : Host.Outcome State Fault Refusal :=
  let s := s.advanceTo t
  let f := s.ftl d
  let big := decide (s.inForce FTL_JNL_CKPT_MIB d * 2 ^ 20 ≤ f.ckptBytes)
  let old := decide (f.ckptT + s.inForce FTL_JNL_CKPT_MIN d * 60 * secNs ≤ s.clk.tNs)
  .next (if big || old then s.startCkpt d else s)

/-- CKPT_NOW (R279, R305). -/
def execCkptNow (d : Nat) (via : Via) (s : State) : Host.Outcome State Fault Refusal :=
  .next (regWrite via (FTL_CTRL_CKPT_NOW.at_ d) s (fun s => if s.shadowed d then s else s.startCkpt d))

/-! ### Erase, patrol (R270, R285, R294 to R297) -/

/-- ERASE_DONE (R270, R280, R285, R286, R298): of a band that every one of its members' LUNs erases, none of them suspended. -/
def execEraseDone (d band failed ns : Nat) (s : State) : Host.Outcome State Fault Refusal :=
  match tget (s.ftl d).bands band with
  | none => .next s
  | some b =>
    let luns := b.members.map (fun m => lunKey m.1 m.2.1)
    let runs (k : Nat) : Bool := match tget (s.ftl d).lun k with | some x => x.1 == .erase band | none => false
    if b.gc ≠ .erasing ∨ (s.ftl d).hold ≠ .free ∨ !luns.all runs then .next s
    else
      let s := luns.foldl (fun s k => s.endOp d k (.erase band) 0) s
      let s := s.chanTime d ns false true
      let s := b.members.foldl (fun s m =>
        if failed.testBit m.1 then
          ((s.retireMember d m.1 m.2.1 m.2.2 2).fadd FTL_ERASE_FAIL_COUNT d 1).evtDie FTL_EVENT_ERASE_FAIL d
        else
          s.modFtl d (fun f =>
            { (f.modMember (memKey m.1 m.2.1 m.2.2) (fun x => { x with erases := x.erases + 1, inUse := false, reads := 0 })) with
              disturb := f.disturb.filter (· != memKey m.1 m.2.1 m.2.2) })) s
      let s := (s.journal d b.ns (.band band 3 b.kind b.members)).2
      let was := (s.ftl d).dead
      let s := s.modFtl d (fun f =>
        { f with
          bands := tdel f.bands band, objs := f.objs.filter (fun o => o.loc.band != band)
          ghosts := f.ghosts.filter (fun o => o.loc.band != band), dead := f.dead.filter (fun e => e.1 != band) })
      let s := s.metaErased d band
      let s := if was ≠ [] ∧ (s.ftl d).dead = [] then (s.evtDie FTL_EVENT_CRYPTO_ERASED d).physErased d else s
      let s := (((s.fadd FTL_GC_BANDS_COUNT d 1).wearCheck d).gcStatus d).gcGo d
      .next ((s.roCheck d).serve d)

/-- Valid sectors of a die. -/
def State.validSectors (s : State) (d : Nat) : Nat := sumNat ((s.ftl d).bands.map (fun e => s.validIn d e.1))

/-- Whether patrol may read a sector now: its LUN has nothing to do (R286) (DEDUCED, log entry 131). -/
def State.patrolMay (s : State) (d : Nat) (r : SectorRead) : Bool :=
  match s.memberAt d r.band r.sector with
  | some m => !thas (s.ftl d).lun (lunKey m.1 m.2.1)
  | none => false

/-- The next sector of the patrol: the first one of a valid object after the last one read, bands and sectors in ascending order (R294). -/
def State.nextPatrol (s : State) (d : Nat) : Option (Nat × Nat) :=
  let f := s.ftl d
  let first (l : FLoc) : Option (Nat × Nat) :=
    if f.patBand < l.band then some (l.band, l.sector)
    else if l.band = f.patBand ∧ f.patStripe + 1 < l.sector + l.count then some (l.band, max l.sector (f.patStripe + 1))
    else none
  ((f.objs.filter (fun o => o.src.isNone && o.st == .passed && !s.stale o)).filterMap (fun o => first o.loc)).foldl (fun m x =>
    match m with
    | none => some x
    | some y => if x.1 < y.1 ∨ (x.1 = y.1 ∧ x.2 < y.2) then some x else some y) none

/-- Health event PATROL_BEHIND, looked at (R294, R297). -/
def State.patrolLag (s : State) (d : Nat) : State :=
  let f := s.ftl d
  let all := max 1 (s.validSectors d)
  let per := max 1 (s.inForce FTL_PATROL_PERIOD d * 3600 * secNs)
  s.healthCross d 0x0A (10000 * (s.clk.tNs - f.patT) / per - 10000 * min f.patRead all / all) 501 true

/-- One read of the patrol: the next sector of the pass, or one of a member that reached its read-disturb limit (R294, R295); answers
how many were read, and how many needed step 2 or later. -/
def State.patrolOne (acc : Nat × Nat × State) (d : Nat) (r : SectorRead) : Nat × Nat × State :=
  let s := acc.2.2
  let next := s.nextPatrol d == some (r.band, r.sector)
  let hot := (s.memberAt d r.band r.sector).any (fun m => (s.ftl d).disturb.contains (memKey m.1 m.2.1 m.2.2))
  if !s.patrolMay d r || !(next || hot) then acc
  else
    let (step, s) := (s.chanTime d r.ns false false).readSector d r
    let s := if next then
        s.modFtl d (fun f => { f with patBand := r.band, patStripe := r.sector, patRead := f.patRead + 1 })
      else s
    (acc.1 + 1, if 2 ≤ step then acc.2.1 + 1 else acc.2.1, s)

/-- PATROL_READ (R273, R286, R294 to R297, R302): sectors of the pass are read, in its order, from LUNs that are free. A member whose
read-disturb limit was reached is done with the command that reads its last listed sector. -/
def execPatrolRead (d : Nat) (reads : List SectorRead) (t : Nat) (s : State) : Host.Outcome State Fault Refusal :=
  let s := s.advanceTo t
  if !s.fbit FTL_CTRL_PATROL_EN d || !s.clockOn d 7 || (s.ftl d).stopped || (s.ftl d).bands.isEmpty then .next s
  else
    let (n, slow, s) := reads.foldl (fun acc r => State.patrolOne acc d r) (0, 0, s)
    let day := 86400 * secNs
    let now := s.clk.tNs
    let log := (s.ftl d).cwLog.filter (fun e => decide (now < e.1 + day)) ++ [(now, n, slow)]
    let read := reads.filterMap (fun r => (s.memberAt d r.band r.sector).map (fun m => memKey m.1 m.2.1 m.2.2))
    let s := s.modFtl d (fun f => { f with cwLog := log, disturb := f.disturb.filter (fun k => !read.contains k) })
    let m := max 1 (sumNat (log.map (fun e => e.2.1)))
    let s := s.healthCross d 0x05 (65536 * sumNat (log.map (fun e => e.2.2)) / m) (s.inForce FTL_HEALTH2_RETRY_WARN d) true
    let s := s.patrolLag d
    if (s.nextPatrol d).isNone then
      .next ((s.modFtl d (fun f => { f with patRead := 0, patT := now, patBand := 0, patStripe := 0 })).fset FTL_PATROL_POS_DONE d 0)
    else
      let all := max 1 (s.validSectors d)
      .next (s.fsat FTL_PATROL_POS_DONE d (100 * min (s.ftl d).patRead all / all))

/-! ### Bring-up and replay (R255, R256, R291 to R293, R301) -/

/-- FTL_ENABLE (R254 to R256, R291, R305): the channels come into service and the replay begins (DESIGN CHOICE, log entry 4; DEDUCED, log entry 78; DEDUCED, log entry 151). -/
def execFtlEnable (d : Nat) (en : Bool) (luns : List LunPage) (via : Via) (s : State) : Host.Outcome State Fault Refusal :=
  .next (regWrite via (FTL_CTRL_EN.at_ d) s (fun s =>
    if s.dieLocked d then s
    else
      let was := s.fbit FTL_CTRL_EN d
      let s := s.fput FTL_CTRL_EN d en
      if !en || was || s.shadowed d then s
      else
        let s := (s.modFtl d (fun f => { f with luns := luns, restored := false })).bringUp d
        let s := match (s.ftl d).refLun with | some l => s.fset FTL_PE_RATED_CYCLES d l.peRated | none => s
        let s := s.fset FTL_STATUS_REPLAYING d 1
        s.fset FTL_STRIPE_IN_SERVICE d ((s.chsUp d).foldl (fun v c => setBit v c true) 0)))

/-- What a replay leaves of a die's flash (R278, R291, R292): what durable records name, orphans counted, garbage collection
settled; a band whose BAND record was lost was never used and its members are free; JSEQ goes on above the highest seen (DEDUCED, log entry 43; DEDUCED, log entry 78). -/
def State.settleFlash (s : State) (d seen : Nat) : State :=
  let f := s.ftl d
  let orphan (o : FObj) : Bool :=
    !o.durable && o.st != .reading && (match tget f.bands o.loc.band with | some b => b.kind != .spill | none => false)
  let n := (f.objs.filter orphan).length
  let gone := f.bands.filter (fun e => decide (f.jdur < e.2.seq))
  let top := max f.jdur (min seen f.jseq)
  let objs := (f.objs.filter (·.durable)).map (fun o => { o with src := none, st := .passed, left := [], reads := [] })
    ++ f.ghosts.filter (·.durable)
  let s := s.modFtl d (fun f =>
    { f with
      objs := objs, ghosts := [], jpend := [], jpages := [], jdur := top, jseq := top
      bands := f.bands.filter (fun e => decide (e.2.seq ≤ f.jdur)), tasks := [], refresh := [], ckptRun := false, anchorRun := none
      lun := [], parNow := [], hold := s.holdOf d, lostTail := false, gcOn := false })
  let s := s.modFtl d (fun f =>
    (gone.flatMap (fun e => e.2.members)).foldl (fun f m => f.modMember (memKey m.1 m.2.1 m.2.2) (fun x => { x with inUse := false })) f)
  let s := s.modFtl d (fun g =>
    { g with bands := tmap (fun m b => if b.gc = .none_ then b else { b with gc := if s.validIn d m = 0 then .erasing else .victim }) g.bands })
  (s.fadd FTL_ORPHANS_COUNT d n).gcStatus d

/-- FTL_INJECT (R305). -/
def execFtlInject (d : Nat) (via : Via) (s : State) : Host.Outcome State Fault Refusal :=
  .next (regWrite via (FTL_CTRL_INJECT.at_ d) s (fun s =>
    if s.shadowed d then s else s.modFtl d (fun f => { f with inject := true })))

/-- FTL_JSEQ_LO read: the JSEQ, its upper half latched (R305). -/
def State.readJseq (s : State) (d : Nat) : Nat × State :=
  if s.shadowed d then (0, s)
  else
    let n := (s.ftl d).jseq
    (n % 2 ^ 32, (s.fset FTL_JSEQ_LO_JSEQ_LO d n).fset FTL_JSEQ_HI_JSEQ_HI d (n / 2 ^ 32))

/-- FTL_JSEQ_LO_READ. -/
def execFtlJseqLoRead (d : Nat) (via : Via) (s : State) : Host.Outcome State Fault Refusal :=
  .next (regRead via (FTL_JSEQ_LO_JSEQ_LO.at_ d) s (fun s => s.readJseq d))

/-! ### Channels (R299 to R304) -/

/-- CHANNEL_CMD_TIMEOUT (R304): the third channel error within 1 s fences the channel. -/
def execChannelCmdTimeout (d c t : Nat) (s : State) : Host.Outcome State Fault Refusal :=
  let s := s.advanceTo t
  let l := (dget (s.ftl d).chErr [] c).filter (fun x => decide (t < x + secNs)) ++ [t]
  let s := s.modFtl d (fun f => { f with chErr := tput f.chErr c l })
  if 3 ≤ l.length then
    .next (((s.modFtl d (fun f => { f with chErr := tdel f.chErr c })).hwFence uChan d c).runRefresh d)
  else .next s

/-- CHANNEL_FENCE (R304, R306). -/
def execChannelFence (d fence unfence : Nat) (via : Via) (s : State) : Host.Outcome State Fault Refusal :=
  .next (regWrite via (FTL_CH_CMD_FENCE.at_ d) s (fun s =>
    if s.shadowed d then s
    else ((bitsLess 16 fence unfence).foldl (fun s c =>
      if s.fbitAt FTL_CH_FENCE_FENCED d c then s else s.report uChan d c false 2) s).runRefresh d))

/-- CHANNEL_UNFENCE (R304, R306): `pass` says which self-tests pass. -/
def execChannelUnfence (d fence unfence pass : Nat) (via : Via) (s : State) : Host.Outcome State Fault Refusal :=
  .next (regWrite via (FTL_CH_CMD_UNFENCE.at_ d) s (fun s =>
    if s.shadowed d then s
    else (bitsLess 16 unfence fence).foldl (fun s c =>
      if s.fbitAt FTL_CH_FENCE_FENCED d c then s.testOutcome uChan d c false (if pass.testBit c then 0 else 0xC) else s) s))

/-- The channels of die `d` taken back (R303, R306): d in P0 with its self-test passed, the channels in TWIN_RO or FENCED. -/
def State.reclaimChans (s : State) (d : Nat) : State :=
  let f := s.ftl d
  let back := (List.range 16).filter (fun c => f.chan c == .twinRo || f.chan c == .fenced)
  if s.fget DPM_STATUS_STATE d ≠ 0 ∨ (s.row uDie d 0).passed = false ∨ back.isEmpty then s
  else
    let s := s.modFtl d (fun f => { f with chans := back.foldl (fun l c => tput l c .returning) f.chans, restored := false })
    let s := s.fset FTL_OWN_ADOPTED (twin d) 0
    let s := s.fset FTL_OWN_OWNED d ((s.ftl d).owned.foldl (fun v c => setBit v c true) 0)
    (s.fset FTL_STATUS_TAKEN_OVER d 0).fset FTL_STATUS_REPLAYING d 1

/-- RECLAIM (R303). -/
def execReclaim (d : Nat) (via : Via) (s : State) : Host.Outcome State Fault Refusal :=
  .next (regWrite via (FTL_OWN_CMD_RECLAIM.at_ d) s (fun s => s.reclaimChans d))

/-- RELEASE, written on the twin (R303). -/
def execRelease (d : Nat) (via : Via) (s : State) : Host.Outcome State Fault Refusal :=
  .next (regWrite via (FTL_OWN_CMD_RELEASE.at_ d) s (fun s =>
    let h := twin d
    let f := s.ftl h
    let l := (List.range 16).filter (fun c => f.chan c == .twinRo)
    if s.shadowed d ∨ l.isEmpty then s
    else
      (s.modFtl h (fun f => { f with chans := l.foldl (fun t c => tput t c .fenced) f.chans })).fset FTL_OWN_ADOPTED d 0
        |>.fset FTL_STATUS_TAKEN_OVER h 0))

end Sys2Proof.Machine
end

