-- ==== Sys2Proof/Machine/Tenancy.lean ====
section
/-!
DEFINITION. Sys2Proof/Machine/Tenancy.lean: partitions, contexts, seals and attestation (R314, R416 to R421, R447 to R453, R519).
-/
namespace Sys2Proof.Machine

/-! ### Partitions and seals (R261, R314, R420, R421, R519) -/

/-- Every open band of a namespace on a die closed: the die's partition changes (R261). -/
def State.closeBands (s : State) (d ns : Nat) : State :=
  ((s.ftl d).bands.filter (fun e => e.2.ns == ns && !e.2.closed && ns != 0xFF)).foldl (fun s e => s.closeBand d e.1) s

/-- PTN_DIES_WRITE (R314, R480): locked after the seal (R12); a conflicting write leaves the field. -/
def execPtnDiesWrite (p v : Nat) (s : State) : Host.Outcome State Fault Refusal :=
  if s.locked p ∨ 8 ≤ p then .next s
  else
    let l := bitsOf 8 v
    if l.any (fun d => decide (s.nDies ≤ d) || (match s.owner d with | some o => o != p | none => false)) then
      .next (s.evtPtn PTN_EVENT_CONFLICT p)
    else
      let gone := (s.diesOf p).filter (fun d => !l.contains d)
      let s := gone.foldl (fun s d => (s.closeBands d p).fset RAS_DIE_STATE_LEDGER_DIE d 0xFF) s
      let s := (s.fset PTN_DIES_DIES p (v % 256)).applyUnowned
      let s := s.fset PTN_STATUS_STATE p (if l.isEmpty then ptnFree else ptnOpen)
      .next (s.assignLedgers p)

/-- The next generation of a namespace key (R421). -/
def nextGen (g : Nat) : Nat := if g = 255 then 1 else g + 1

/-- Generations of a namespace's key that a die's flash holds LIVE (R420, R437). -/
def State.liveKeys (s : State) (d ns : Nat) : List (Nat × Nat) :=
  (s.ftl d).objs.filterMap (fun o =>
    match o.data with
    | .nskey n g (some k) => if n = ns ∧ o.durable then some (g, k) else none
    | _ => none)

/-- Whether a sector written under a generation may still stand unerased on a die (R421). -/
def State.genPending (s : State) (ns g : Nat) : Bool :=
  (match tget s.sec.rms ns with | some r => r.oldGen == g && !r.erase.isEmpty | none => false)
    || (List.range s.nDies).any (fun d => (s.ftl d).dead.any (fun e =>
        e.2 == g && (match tget (s.ftl d).bands e.1 with | some b => b.ns == ns | none => false)))

/-- Whether a restored sequence does not fit its context: the context is absent or its shape differs from the pages (R519). -/
def State.misfit (s : State) (d : Nat) (e : SeqSlot) : Bool :=
  match s.dieCtx? d e.ctx with
  | none => true
  | some c =>
    let pages := e.body.chunks.flatMap (fun k => match s.chunk? d k with | some x => x.pages | none => [])
      ++ e.tail.layers.flatMap (fun l => (if l.full = 0 then [] else [l.full]) ++ (if l.open_ = 0 then [] else [l.open_]))
    let bad (p : Page) : Bool :=
      let tail := p.st == .open_ || p.st == .full || p.st == .sealing
      p.format != (if tail then c.tailFmt * 17 else c.format)
        || (match p.pos with | x :: _ => x.codes.length != c.elems | [] => false)
    c.home != d || e.tail.layers.length != c.layers
      || pages.any (fun id => match s.page? d id with | some p => bad p | none => false)

/-- At the seal every restored sequence that does not fit is freed, with its SEQ record (R519). -/
def State.restoreFreed (s : State) (d : Nat) : State :=
  ((s.pfx d).index.filter (fun e => e.2.live && s.misfit d e.2)).foldl (fun s e =>
    ((s.freeSeq d e.1).fadd PWR_RESTORE_FREED_COUNT 0 1).evtPkg PWR_EVENT_RESTORE_FREED) s

/-- A die named in a removal that did not scrub it is scrubbed before it serves a partition (R428). -/
def State.scrubFirst (s : State) (d : Nat) : State :=
  if s.sec.rms.any (fun e => e.2.scrub.contains d) then
    (s.scrubDie d).modRemovals (fun r => { r with scrub := r.scrub.filter (· != d) })
  else s

/-- The namespace key's object written to the META band of a die (R420, R437) (DEDUCED, log entry 48; DEDUCED, log entry 137). -/
def State.writeNsKey (s : State) (d p g k : Nat) : State :=
  match s.writeObj d .meta_ 5 p 0xFF 1 none (.nskey p g (some k)) with
  | some (_, s) => s
  | none => s.roCheck d

/-- SEAL (R314, R420, R421, R519): the partition is SEALED once every object is durable (DEDUCED, log entry 48). -/
def execSeal (p : Nat) (s : State) : Host.Outcome State Fault Refusal :=
  let l := s.diesOf p
  let conflict : Host.Outcome State Fault Refusal := .next (s.evtPtn PTN_EVENT_CONFLICT p)
  if s.locked p ∨ (s.part p).sealing ∨ 8 ≤ p then .next s
  else if s.fbit SVC_STATUS_MODE 0 then conflict
  else if l.isEmpty || l.any (fun d => s.fget DPM_STATUS_STATE d != 0 || s.dieDown d || !s.fbit FTL_STATUS_READY d)
      || (s.fbit SEC_STATUS_APPROVED 0 && (tget s.sec.tenants p).isNone) then conflict
  else
    let live := (l.flatMap (fun d => s.liveKeys d p)).foldl (fun m x => match m with
      | none => some x
      | some y => if y.1 < x.1 then some x else some y) (none : Option (Nat × Nat))
    let fresh := match tget s.sec.lastDead p with | some g => nextGen g | none => 1
    if live.isNone && s.genPending p fresh then conflict
    else
      let (n, s) := s.draw
      let (g, k) := live.getD (fresh, Config.random n)
      let s := { s with sec := { s.sec with gens := tput s.sec.gens p g, keys := tput s.sec.keys p k } }
      let s := l.foldl (fun s d => (s.scrubFirst d).restoreFreed d) s
      let s := (s.fset PTN_CTRL_SEAL p 1).modPart p (fun x => { x with sealing := true })
      .next (l.foldl (fun s d => s.writeNsKey d p g k) s)

/-! ### Contexts (R416 to R419) -/

/-- Element format codes of a sealed page (R109, R416). -/
def fmtCode (f : Nat) : Bool := (decide (1 ≤ f) && decide (f ≤ 5)) || f == 8 || f == 9

/-- A multiple of 32 between 32 and `top`. -/
def dim32 (n top : Nat) : Bool := n % 32 == 0 && decide (32 ≤ n) && decide (n ≤ top)

/-- CTX_CREATE (R85, R111, R416, R417) (DEDUCED, log entry 32; DEDUCED, log entry 47). -/
def execCtxCreate (q : Desc) (ctx home : Nat) (latent : Bool) (model layersM1 h dim w g format tail : Nat) (s : State) :
    Host.Outcome State Fault Refusal :=
  .next (runDesc q 0x10 (ctx + home * 2 ^ 16 + latent.toNat * 2 ^ 24 + model * 2 ^ 32) s (fun s =>
    let p := q.part
    let dies := s.diesOf p
    let ok := decide (ctx < 4096) && decide (layersM1 < 256) && decide (1 ≤ h) && decide (h ≤ 16) && dim32 dim 256
      && (if latent then dim32 w 1024 && decide (1 ≤ g) && decide (g ≤ 16) && decide (g * h ≤ 256) else w == 0 && g == 0)
      && fmtCode (format % 16) && (if latent then format / 16 == 0 else fmtCode (format / 16))
      && (tail == 0x88 || tail == 0x99)
    let same := dies.filter (fun d => (s.part p).ctxs.any (fun e => e.2.home == d && e.2.model == model))
    let pick := match same with | d :: _ => some d | [] => leastBy (s.liveCtxs p) dies
    let die := if home = 0xFF then pick else if dies.contains home then some home else none
    match die with
    | none => s.fail q stMALFORMED
    | some d =>
      let c : Ctx :=
        { home := d, latent := latent, model := model, layers := layersM1 + 1, h := h, d := dim, w := w, g := g,
          format := format, tailFmt := tail % 16, desc := { SweepDesc.init with g := if latent then g else 1 }, weights := [],
          hbmMax := 0, hbmMin := 0, flashMax := 0, destroying := none }
      if !ok || (s.ctx? p ctx).isSome || decide (s.fget PFX_TREE_CFG_LMAX_M1 d < layersM1) || !s.shapeFits p d c then
        s.fail q stMALFORMED
      else if s.dieDown d then s.fail q stFENCED
      else if !s.fbit PFX_STATUS_READY d then s.fail q stNOT_READY
      else (s.modPart p (fun x => { x with ctxs := tput x.ctxs ctx c })).complete q stOK d 0))

/-- Whether a context still holds a live sequence, pin, gradient region, region key, accepted hint or current latent weights
(R419). -/
def State.ctxHolds (s : State) (d n : Nat) (c : Ctx) : Bool :=
  (s.pfx d).index.any (fun e => e.2.live && e.2.ctx == n) || (s.stg d).pins.any (fun e => e.2.ctx == n)
    || (s.csm d).grads.any (fun e => e.2.ctx == n) || (s.nrt d).keys.any (fun e => e.2.st != .free && e.2.ctx == n)
    || (s.stg d).unmet.any (fun h => h.ctx == n) || !c.weights.isEmpty

/-- What a context holds freed under FORCE; answers the sequences freed (R419). -/
def State.freeCtx (s : State) (d n : Nat) : Nat × State :=
  let seqs := (s.pfx d).index.filter (fun e => e.2.live && e.2.ctx == n)
  let hints := (s.stg d).unmet.filter (fun h => h.ctx == n)
  let s := hints.foldl (fun s h => (s.setUnmet d ((s.stg d).unmet.erase h)).rehold d h.pages) s
  let pins := (s.stg d).pins.filter (fun e => e.2.ctx == n)
  let s := (pins.foldl (fun s e => s.modStg d (fun x => { x with pins := tdel x.pins e.1 })) s).repin d
  let s := seqs.foldl (fun s e => s.freeSeq d e.1) s
  let keys := (s.nrt d).keys.filter (fun e => e.2.st == .valid && e.2.ctx == n)
  let s := keys.foldl (fun s e => s.revokeKey d (keyOfEntry d e.1 (s.entryGen d e.1)) false) s
  (seqs.length, s)

/-- CTX_DESTROY (R419): it completes once no sweep of the context is left (DEDUCED, log entry 47). -/
def execCtxDestroy (q : Desc) (ctx : Nat) (force : Bool) (s : State) : Host.Outcome State Fault Refusal :=
  .next (runDesc q 0x11 (ctx + force.toNat * 2 ^ 16) s (fun s =>
    match s.ctx? q.part ctx with
    | none => s.fail q stMALFORMED
    | some c =>
      if c.destroying.isSome then s.fail q stMALFORMED
      else if s.dieDown c.home then s.fail q stFENCED
      else if !force && s.ctxHolds c.home ctx c then s.fail q stNOT_READY
      else
        let (n, s) := s.freeCtx c.home ctx
        (s.modCtx q.part ctx (fun c => { c with destroying := some (q.fn, q.sq, q.index, n) })).finishDestroy q.part ctx))

/-! ### Identity and attestation (R447 to R450) -/

/-- Bytes `0` to `n − 1` of a digest, key or certificate the model does not hold (DESIGN CHOICE, log entry 49). -/
def digestBytes (kind id n : Nat) : List Byte := (List.range n).map (fun i => Config.digest kind id i)
/-- DESIGN CHOICE, log entry 49. -/
def signBytes (k n : Nat) : List Byte := (List.range n).map (fun i => Config.sign k i)
def octets (l : List Nat) : List Byte := l.map (fun b => BitVec.ofNat 8 b)

/-- The image of a layer's weights (R168). -/
def Weights.image (w : Weights) : List Nat :=
  let row (p : Pos) : List Nat := if w.fmt = 1 then p.codes ++ p.scales else p.codes.flatMap (leNats 2)
  (w.uk ++ w.uv).flatMap (fun m => m.flatMap row)

/-- The WEIGHTS field of a context (R450) (DEDUCED, log entry 32). -/
def Ctx.weightsField (c : Ctx) : List Byte :=
  if !c.latent then zeros 64
  else
    octets (shake256 ((List.range c.layers).flatMap (fun l =>
      match tget c.weights l with
      | some w => [1, w.fmt] ++ shake256 w.image 64
      | none => [0, 0] ++ List.replicate 64 0)) 64)

/-- SYS_IDENT as it reads (R5). -/
def State.identWord (s : State) : Nat :=
  (match s.variant with | .n820 => 0x820 | .n840 => 0x840 | .n880 => 0x880) * 2 ^ 16 + 0xB0 * 2 ^ 8 + s.nDies * 16

def State.serialBytes (s : State) : List Byte := (List.range 4).flatMap (fun i => le 4 (s.fget (SEC_SERIAL_SERIAL.nth i) 0))

/-- The attestation report of a partition, signed (R449). -/
def State.report449 (s : State) (p : Nat) (nonce : List Byte) : List Byte × State :=
  let id := match s.sec.running with | some i => i.id | none => 0
  let ctxs := (s.part p).ctxs
  let flags := s.fget SEC_STATUS_APPROVED 0 + 2 * s.fget SEC_STATUS_DEBUG_SEALED 0 + 4 * s.fget SEC_STATUS_BOOT_SLOT 0
  let head := le 4 0x41545331 ++ le 1 1 ++ le 1 p ++ le 2 flags ++ s.serialBytes ++ le 4 s.identWord
    ++ le 2 (s.fget SEC_SVN_SVN_RUN 0) ++ le 2 (s.fget SEC_SVN_SVN_MIN 0) ++ (nonce ++ zeros 32).take 32
    ++ le 8 (s.tickNo p) ++ le 8 s.clk.tNs
    ++ digestBytes 0 id 64 ++ digestBytes 1 id 64 ++ digestBytes 2 id 64 ++ digestBytes 3 id 64
    ++ le 1 (s.genOf p) ++ le 1 (s.fget PTN_DIES_DIES p) ++ le 2 ctxs.length
    ++ (match tget s.sec.tenants p with
        | some k => octets (shake256 (k.map (fun b => b.toNat)) 32)
        | none => zeros 32) ++ zeros 12
  let one (e : Nat × Ctx) : List Byte :=
    let c := e.2
    let all := c.latent && (List.range c.layers).all (fun l => (tget c.weights l).isSome)
    le 2 e.1 ++ le 1 c.home ++ le 1 (c.latent.toNat + 2 * all.toNat) ++ le 4 c.model ++ le 1 (c.layers - 1) ++ le 1 c.h ++ le 2 c.d
      ++ le 2 c.w ++ le 1 c.format ++ le 1 (c.tailFmt * 17) ++ c.weightsField
  let (k, s) := s.draw
  (head ++ ctxs.flatMap one ++ signBytes k 1280, s)

/-- The identity and alias certificates (R447). -/
def State.certificates (s : State) : List Byte :=
  let id := match s.sec.running with | some i => i.id | none => 0
  le 4 0x43455231 ++ le 1 1 ++ zeros 3 ++ s.serialBytes ++ le 4 s.identWord ++ le 4 0 ++ zeros 64
    ++ digestBytes 4 0 64 ++ digestBytes 5 0 1793 ++ digestBytes 6 0 1568 ++ digestBytes 7 0 1280
  ++ le 4 0x43455231 ++ le 1 2 ++ zeros 3 ++ s.serialBytes ++ le 4 s.identWord ++ le 4 (s.fget SEC_SVN_SVN_RUN 0) ++ digestBytes 0 id 64
    ++ digestBytes 8 0 64 ++ digestBytes 9 id 1793 ++ zeros 1568 ++ digestBytes 10 id 1280

/-- ATTEST (R448). -/
def execAttest (q : Desc) (dest room : Nat) (certs : Bool) (nonce : List Byte) (s : State) : Host.Outcome State Fault Refusal :=
  .next (runDesc q 0x12 dest s (fun s =>
    let need := 384 + 80 * (s.part q.part).ctxs.length + 1280 + (if certs then 2 * 4801 else 0)
    if room < need then s.complete q stMALFORMED need 0
    else
      let (b, s) := s.report449 q.part nonce
      let b := if certs then b ++ s.certificates else b
      ((s.descWrite (q.fn, q.sq, q.index) dest b).fadd SEC_ATTESTS_COUNT 0 1).complete q stOK need 0))

/-! ### Link keys (R453) -/

/-- CAK_SET (R433, R453): MKA restarts with the new CAK, and the port is not SECURED until it has. -/
def execCakSet (q : Desc) (die ckn bytes : Nat) (obj : CakObj) (s : State) : Host.Outcome State Fault Refusal :=
  .next (runDesc q 0x13 (die + obj.plain.toNat * 2 ^ 8 + ckn * 2 ^ 16 + bytes * 2 ^ 32) s (fun s =>
    if !(s.diesOf q.part).contains die || !obj.sizesOk || bytes != (if obj.plain then 64 else 2952) || ckn == 0 || decide (32 < ckn)
        || (obj.plain && s.fbit SEC_STATUS_APPROVED 0) then s.fail q stMALFORMED
    else if s.dieDown die then s.fail q stFENCED
    else if !obj.plain && (!obj.serialOk || decide (obj.counter ≤ dget s.sec.cakCtr 0 die) || !obj.sigOk || !obj.unwraps) then
      s.fail q stACCESS
    else
      let s := if obj.plain then s else { s with sec := { s.sec with cakCtr := dset s.sec.cakCtr 0 die obj.counter } }
      let (n, s) := s.draw
      let s := s.modLnk die (fun l =>
        { l with cak := some (Config.random n), mkaPeers := [], mkaServers := [], asked := false, rekey := none, txSa := false, rxSas := [], txPn := 1 })
      (s.refreshPort die).record.complete q stOK 0 0))

end Sys2Proof.Machine
end

