-- ==== Sys2Proof/Machine/Removal.lean ====
section
/-!
DEFINITION. Sys2Proof/Machine/Removal.lean: partition reset, tenant removal and what follows it on flash (R422 to R428, R517).
-/
namespace Sys2Proof.Machine

/-! ### What a fence of a partition drops (R424, R425, R517) -/

/-- Eligible records of a partition's dies complete with FENCED; answers how many (R424 step 1, R517 step 1). -/
def State.fenceEligible (s : State) (p t : Nat) : Nat × State :=
  let cut := s.inForce TIK_ADMIT_CUTOFF p * 10
  (s.diesOf p).foldl (fun acc d =>
    let elig := (acc.2.csm d).held.filter (fun h => decide (h.tSig + cut ≤ t))
    let s := acc.2.modCsm d (fun c => { c with held := c.held.filter (fun h => !decide (h.tSig + cut ≤ t)) })
    (acc.1 + elig.length, elig.foldl (fun s h => s.failHeld d h stFENCED) s)) (0, s)

/-- Records of a die held or in a sweep and not delivered. -/
def State.recordsOf (s : State) (d : Nat) : Nat :=
  (s.csm d).held.length + sumNat ((s.csm d).sweeps.map (fun w => (w.recs.filter (fun r => !r.delivered)).length))

/-- Work in flight on a partition's dies dropped: records go without a status entry, armed requests, waits and hints end, and
flash tasks stop; objects whose programs had not passed become orphans (R425). -/
def State.dropDieWork (s : State) (d : Nat) : State :=
  let s := (s.modCsm d (fun c => { c with held := [], sweeps := [], rebuilds := [] })).sweepOff d
  let s := s.modNrt d (fun n => { n with
    tx := [], waits := [], armed := [], serves := [], revokes := []
    peers := tmap (fun _ p => { p with qp := p.qp.map (fun q => { q with sends := [] }) }) n.peers })
  let s := s.modStg d (fun x => { x with hints := [], tasks := [], exports := [], imports := [] })
  -- the holders of the work that ends close with it (R92)
  let s := s.modPfx d (fun x => { x with sealWait := [], chunkWait := [], edits := [], open_ := [] })
  let s := s.hintCount d
  let orphan (o : FObj) : Bool := o.st != .passed && o.ns != 0xFF && o.src.isNone
  let n := ((s.ftl d).objs.filter orphan).length
  ((s.dropFlashWork d).modFtl d (fun f => { f with objs := f.objs.filter (fun o => !orphan o) })).fadd FTL_ORPHANS_COUNT d n

/-- Work in flight of a partition dropped: answers the records and descriptors that it ended (R425, R517 step 2). The
descriptor `keep`, if any, goes on. -/
def State.dropWork (s : State) (p : Nat) (keep : Option (Nat × Nat × Nat)) : Nat × Nat × State :=
  let n := sumNat ((s.diesOf p).map s.recordsOf)
  let out := (s.part p).outst.filter (fun o => keep != some (o.fn, o.sq, o.index))
  let s := (s.diesOf p).foldl (fun s d => s.dropDieWork d) s
  let s := s.modPart p (fun x => { x with ctxs := tmap (fun _ c => { c with destroying := none }) x.ctxs })
  let s := out.foldl (fun s o => s.completeKey (o.fn, o.sq, o.index) stFENCED 0 0) s
  (n, out.length, s)

/-- The bindings of a partition removed: its functions' rings stop with CAUSE 6 (R350). -/
def State.unbind (s : State) (p : Nat) : State :=
  let s := [0, 1].foldl (fun s x => if s.bound p x || s.ready (2 * p + x) then s.loseFn p x 6 4 else s) s
  (((s.fset PTN_BIND_A_EN p 0).fset PTN_BIND_A_VF p 0).fset PTN_BIND_B_EN p 0).fset PTN_BIND_B_VF p 0

/-- A step record of the partition's counter page and its registers' counts back at 0 (R517 step 5, R543). -/
def State.clearPage (s : State) (p : Nat) : State :=
  s.modPmc p (fun x =>
    { Pmc.init with
      ctrs := tmap (fun _ c => { c with live := 0, snap := 0 }) x.ctrs
      hists := tmap (fun _ h => { PmcHist.init with cfg := h.cfg, base := h.base, nextCfg := h.nextCfg, nextBase := h.nextBase }) x.hists
      lfsr := x.lfsr })

/-- A partition reset (R422, R427, R517), from its slot boundary on, as one act: work in flight is dropped and the scrub ends there (DEDUCED, log entry 54). -/
def State.resetPtn (s : State) (p : Nat) : State :=
  let s := s.modPart p (fun x => { x with resetDue := false })
  if s.ptnState p = ptnFree ∨ s.ptnState p = ptnRemoving then s
  else
    let (_, s) := s.fenceEligible p s.clk.tNs
    let (_, _, s) := s.dropWork p none
    let s := s.unbind p
    let s := ((s.fset PTN_CTRL_SEAL p 0).fset TIK_PERIOD_EN p 0).modPart p (fun x =>
      { x with genOn := false, sealing := false, lostGrads := [], evPkg := [] })
    let s := (s.applyWrites p (fun _ => false)).takePeriod p
    let s := s.fset PTN_STATUS_STATE p ptnOpen
    let dies := (s.diesOf p).filter (fun d => !s.dieDown d)
    let s := dies.foldl (fun s d => s.scrubDie d) s
    let s := (s.fset TIK_SCALE_NOW_SCALE p 0x1000).fset TIK_PINNED_PINNED p 0
    let s := (s.diesOf p).foldl (fun s d => s.clearCounts d) s
    let s := ((s.fset PTN_EVENT_CONFLICT p 0).fset PTN_EVENT_BIND_REFUSED p 0).clearPage p
    let s := s.clearRegs (fun off _ => decide (0x80100 + p * 0x40 ≤ off) && decide (off < 0x80100 + (p + 1) * 0x40) && isW1c off 0)
    dies.foldl (fun s d =>
      let s := s.modFtl d (fun f => { f with restored := false })
      if s.fbit FTL_STATUS_READY d then (s.fset FTL_STATUS_READY d 0).fset FTL_STATUS_REPLAYING d 1
      else s) s

/-- PTN_CTRL.RESET (R427, R517): the reset begins at the next slot boundary, at once where the generator does not run (DEDUCED, log entry 54). -/
def execPartitionReset (p t : Nat) (s : State) : Host.Outcome State Fault Refusal :=
  let s := s.advanceTo t
  if 8 ≤ p ∨ s.ptnState p = ptnFree ∨ s.ptnState p = ptnRemoving then .next s
  else if (s.part p).genOn then .next (s.modPart p (fun x => { x with resetDue := true }))
  else .next (s.resetPtn p)

/-! ### Cryptographic erase (R270, R424 step 5, R428) -/

/-- Whether an object is an NSKEY object of a namespace and generation. -/
def FObj.isKeyOf (o : FObj) (ns g : Nat) : Bool := match o.data with | .nskey n x _ => n == ns && x == g | _ => false

/-- The META bands `l` of a die emptied: their other live objects are relocated, and then they are erased. -/
def State.condemn (s : State) (d : Nat) (l : List Nat) : State :=
  (l.foldl (fun s b =>
    let s := (s.closeBand d b).modBand d b (fun x => { x with gc := .copying })
    let objs := (s.ftl d).objs.filter (fun o => o.loc.band == b && o.src.isNone && o.st == .passed)
    objs.foldl (fun s o => (s.startReloc d o false).getD s) s) s).gcAdvance d

/-- A generation of a namespace's key destroyed on a die: the NSKEY record marked DESTROYED makes every sector of it invalid.
Answers the META bands to erase. -/
def State.cryptoErase (s : State) (d p g : Nat) : List Nat × State :=
  let (_, s) := s.journal d p (.nskey g true none)
  let old (o : FObj) : Bool := o.ns == p && o.gen == g
  let held := ((s.ftl d).objs ++ (s.ftl d).ghosts).filter (fun o => o.isKeyOf p g)
  let metas := (held.map (fun o => o.loc.band)).eraseDups
  let data := ((s.ftl d).bands.filter (fun e => e.2.ns == p && e.2.kind != .journal && e.2.kind != .meta_)).map (·.1)
  let s := data.foldl (fun s b => s.closeBand d b) s
  let s := s.modFtl d (fun f =>
    { f with
      objs := f.objs.filter (fun o => !old o && !o.isKeyOf p g), ghosts := f.ghosts.filter (fun o => !old o && !o.isKeyOf p g) })
  let gone := data.filter (fun b => s.validIn d b == 0)
  let s := gone.foldl (fun s b => s.modBand d b (fun x => { x with gc := .erasing })) s
  let s := s.modFtl d (fun f => { f with dead := f.dead ++ (gone.filter (fun b => !f.dead.any (fun e => e.1 == b))).map (fun b => (b, g)) })
  let s := s.condemn d metas
  (metas, if (s.ftl d).dead = [] then s.evtDie FTL_EVENT_CRYPTO_ERASED d else s)

/-! ### Tenant removal (R423 to R428) -/

def State.modRm (s : State) (p : Nat) (f : Removal → Removal) : State :=
  { s with sec := { s.sec with rms := tmod s.sec.rms p f } }

/-- Step `n` of a removal ends now and the next begins. -/
def Removal.turn (r : Removal) (t : Nat) : Removal :=
  { r with
    step := r.step + 1
    steps := r.steps.dropLast ++ [((r.steps.getLast?.getD (t, t)).1, t), (t, t)] }

/-- The report of a removal (R426), written at `t`. -/
def Removal.report (r : Removal) (p t : Nat) : List Byte :=
  let steps := (List.range 5).flatMap (fun i => let x := r.steps.getD i (0, 0); le 8 x.1 ++ le 8 x.2)
  le 4 0x524D5631 ++ le 1 p ++ le 1 r.oldGen ++ le 1 (r.partial_.toNat + 2 * r.operator.toNat) ++ le 1 r.dies ++ le 8 r.accepted
    ++ steps ++ le 8 t ++ le 4 r.records ++ le 4 r.descs ++ le 4 r.bands ++ zeros 12

/-- Step 6: the report, the completion or the event, and the partition is FREE (R424, R428) (DEDUCED, log entry 44). -/
def State.removalEnd (s : State) (p : Nat) : State :=
  match tget s.sec.rms p with
  | none => s
  | some r =>
    let t := s.clk.tNs
    let r := { r with steps := r.steps.dropLast ++ [((r.steps.getLast?.getD (t, t)).1, t)], step := 6, durable := true, st := .erasePending }
    let s := { s with sec := { s.sec with rms := tput s.sec.rms p r } }
    let s := match r.desc with
      | some k => (if r.dest = 0 then s else s.descWrite k r.dest (r.report p t)).completeKey k stOK 0 0
      | none => (if r.dest = 0 then s else s.hostWrite r.writer r.dest (r.report p t)).evtPkg SEC_EVENT_REMOVED
    let dies := s.diesOf p
    let s := s.unbind p
    let s := dies.foldl (fun s d => s.fset RAS_DIE_STATE_LEDGER_DIE d 0xFF) s
    let s := ((s.fset PTN_DIES_DIES p 0).fset PTN_CTRL_SEAL p 0).fset PTN_STATUS_STATE p ptnFree
    let s := s.modPart p (fun x => { x with ctxs := [], lostGrads := [], sealing := false, outst := [] })
    let s := { s with sec := { s.sec with tenants := tdel s.sec.tenants p } }
    let s := (s.fputAt SEC_RM_STATUS_REMOVING 0 p false).fputAt SEC_RM_STATUS_ERASE_PENDING 0 p true
    (s.settleRemoval p).record

/-- Step 5: the module's copies of the key zeroized, and the record on every die that can take it (R424, R428). -/
def State.removalErase (s : State) (p : Nat) : State :=
  match tget s.sec.rms p with
  | none => s
  | some r =>
    let dies := bitsOf 8 r.dies
    let up := dies.filter (fun d => !s.dieDown d && s.fbit FTL_STATUS_READY d)
    let down := dies.filter (fun d => !up.contains d)
    let s := { s with sec := { s.sec with keys := tdel s.sec.keys p, lastDead := tput s.sec.lastDead p r.oldGen } }
    let s := s.modRm p (fun r => { r with destroy := down, erase := dies, partial_ := r.partial_ || !down.isEmpty })
    let (bands, s) := up.foldl (fun acc d =>
      let x := acc.2.cryptoErase d p r.oldGen
      (acc.1 ++ x.1.map (fun b => (d, b)), if (x.2.ftl d).dead = [] then x.2.physErased d else x.2)) (([] : List (Nat × Nat)), s)
    s.modRm p (fun r => { r with metaBands := bands })

/-- Step 4: every die that can be reached is scrubbed. -/
def State.removalScrub (s : State) (p : Nat) : State :=
  match tget s.sec.rms p with
  | none => s
  | some r =>
    let dies := bitsOf 8 r.dies
    let down := dies.filter s.dieDown
    let s := (dies.filter (fun d => !s.dieDown d)).foldl (fun s d => s.scrubDie d) s
    s.modRm p (fun r => { r with scrub := down, partial_ := r.partial_ || !down.isEmpty })

/-- Step 2: the generation is raised, and what carries the old one is dropped (R424, R425). -/
def State.removalFence (s : State) (p : Nat) : State :=
  match tget s.sec.rms p with
  | none => s
  | some r =>
    let s := { s with sec := { s.sec with gens := tput s.sec.gens p (nextGen r.oldGen) } }
    let (n, m, s) := s.dropWork p r.desc
    s.modRm p (fun r => { r with records := r.records + n, descs := r.descs + m })

/-- Step 1 at the first slot boundary after acceptance, and step 2 with it (R424) (DEDUCED, log entry 44). -/
def State.removalStop (s : State) (p t : Nat) : State :=
  match tget s.sec.rms p with
  | none => s
  | some r =>
    if r.step ≠ 1 ∨ r.st ≠ .removing then s
    else
      let (n, s) := s.fenceEligible p t
      let s := s.modRm p (fun r => { r.turn t with records := n })
      (s.removalFence p).modRm p (fun r => r.turn t)

/-- A removal accepted (R423, R427): steps 1 to 3 end at once where nothing runs (DEDUCED, log entry 44). -/
def State.removalStart (s : State) (p : Nat) (desc : Option (Nat × Nat × Nat)) (writer dest : Nat) : State :=
  let t := s.clk.tNs
  let st := s.ptnState p
  let old := match tget s.sec.rms p with | some r => r.erase | none => []
  let r : Removal :=
    { st := .removing, oldGen := s.genOf p, dies := s.fget PTN_DIES_DIES p, accepted := t, durable := false, operator := desc.isNone,
      desc := desc, writer := writer, dest := dest, step := 1, steps := [(t, t)], records := 0, descs := 0, bands := 0,
      partial_ := false, metaBands := [], scrub := [], destroy := [], erase := old }
  let s := { s with sec := { s.sec with rms := tput s.sec.rms p r } }
  let s := s.partEvent p 0x81 0xFF (le 1 desc.isNone.toNat ++ le 1 r.oldGen ++ zeros 6 ++ le 8 t)
  let s := (s.fset PTN_STATUS_STATE p ptnRemoving).fputAt SEC_RM_STATUS_REMOVING 0 p true
  if st = ptnSealed ∧ (s.part p).genOn = true then s
  else
    let s := s.removalStop p t
    if st = ptnSealed then s else s.modRm p (fun r => r.turn t)

/-- TENANT_REMOVE (R423). -/
def execTenantRemove (q : Desc) (dest t : Nat) (s : State) : Host.Outcome State Fault Refusal :=
  let s := s.advanceTo t
  .next (runDesc q 0x14 dest s (fun s => s.removalStart q.part (some (q.fn, q.sq, q.index)) q.fn dest))

/-- REMOVAL_STEP_END (R424): the present step, from 3 on, ends. A step 5 whose META bands are not all erased goes on (DEDUCED, log entry 44). -/
def execRemovalStepEnd (p t : Nat) (s : State) : Host.Outcome State Fault Refusal :=
  let s := s.advanceTo t
  match tget s.sec.rms p with
  | none => .next s
  | some r =>
    if r.st ≠ .removing then .next s
    else
      let s := (s.modRm p (fun r => { r with durable := true })).record
      if r.step = 3 then .next (s.modRm p (fun r => r.turn s.clk.tNs))
      else if r.step = 4 then .next (((s.removalScrub p).modRm p (fun r => r.turn s.clk.tNs)).removalErase p)
      else if r.step = 5 ∧ r.metaBands = [] then .next (s.removalEnd p)
      else .next s

/-- At the replay of a die's flash, keys of removals that name it and were not destroyed there are destroyed (R428). -/
def State.destroyPending (s : State) (d : Nat) : State :=
  s.sec.rms.foldl (fun s e =>
    if e.2.destroy.contains d then
      let (_, s) := s.cryptoErase d e.1 e.2.oldGen
      let s := s.modRm e.1 (fun r => { r with destroy := r.destroy.filter (· != d) })
      let s := if (s.ftl d).dead = [] then s.physErased d else s
      let s := match tget s.sec.rms e.1 with
        | some r => if r.destroy = [] ∧ r.st = RmSt.erasePending ∧ r.step < 6 then s.evtPkg SEC_EVENT_REMOVED else s
        | none => s
      (s.settleRemoval e.1).record
    else s) s

/-- What a power loss makes of removals (R427, R428): one whose log entry is not durable did not take place; of one that is,
every named die is to be scrubbed and the key destroyed at each replay. -/
def State.removalsLost (s : State) : State :=
  let live := s.sec.rms.filter (fun e => e.2.st != .removing || e.2.durable)
  let rms := tmap (fun _ (r : Removal) =>
    if r.st = .done then r
    else
      let dies := bitsOf 8 r.dies
      if r.st = .removing then
        { r with st := .erasePending, desc := none, dest := 0, scrub := dies, destroy := if r.step ≤ 5 then dies else r.destroy, erase := dies, metaBands := [] }
      else { r with scrub := dies }) live
  { s with sec := { s.sec with rms := rms } }

/-- SEC_RM_STATUS after a cold reset: every entry that is not DONE is ERASE_PENDING (R428). -/
def State.showRemovals (s : State) : State :=
  s.sec.rms.foldl (fun (s : State) (e : Nat × Removal) => if e.2.st = .erasePending then s.fputAt SEC_RM_STATUS_ERASE_PENDING 0 e.1 true else s) s

/-! ### The die's media key (R258, R435) -/

/-- The DMK of a die taken from its LIVE object at replay, or drawn and written at first use (DEDUCED, log entry 137). -/
def State.dmk (s : State) (d : Nat) : State :=
  match (s.liveKeys d 0xFF).head? with
  | some (_, k) => { s with sec := { s.sec with keys := tput s.sec.keys (256 + d) k } }
  | none =>
    if (tget s.sec.keys (256 + d)).isSome then s
    else
      let (n, s) := s.draw
      let k := Config.random n
      let s := { s with sec := { s.sec with keys := tput s.sec.keys (256 + d) k } }
      match s.writeObj d .meta_ 5 0xFF 0xFF 1 none (.nskey 0xFF 0 (some k)) with
      | some (_, s) => s
      | none => s.roCheck d

/-- The NSKEY object of a die that joined a partition in service is written to its META band (R490) (DEDUCED, log entry 137). -/
def State.nsKeyHere (s : State) (d : Nat) : State :=
  match s.owner d with
  | none => s
  | some p =>
    match tget s.sec.keys p with
    | none => s
    | some k =>
      if s.ptnState p ≠ ptnSealed ∨ (s.liveKeys d p).any (fun e => e.1 == s.genOf p) then s
      else s.writeNsKey d p (s.genOf p) k

/-- Key objects of a die that found no room, or were lost before they passed, are written again (R420, R435) (DEDUCED, log entry 137). -/
def State.keysHere (s : State) (d : Nat) : State :=
  let has (s : State) (ns g : Nat) : Bool := (s.ftl d).objs.any (fun o => o.isKeyOf ns g)
  if !s.fbit FTL_STATUS_READY d || (s.ftl d).hold != .free then s
  else
    let s := match tget s.sec.keys (256 + d) with
      | some k =>
        if has s 0xFF 0 then s
        else match s.writeObj d .meta_ 5 0xFF 0xFF 1 none (.nskey 0xFF 0 (some k)) with
          | some (_, s) => s
          | none => s
      | none => s
    match s.owner d with
    | none => s
    | some p =>
      match tget s.sec.keys p with
      | some k =>
        if (s.ptnState p ≠ ptnSealed ∧ (s.part p).sealing = false) ∨ has s p (s.genOf p) then s else s.writeNsKey d p (s.genOf p) k
      | none => s

/-- FTL_REPLAY (R291 to R293, R301, R303, R482 event 6) (DEDUCED, log entry 78). -/
def execFtlReplay (d seen t : Nat) (s : State) : Host.Outcome State Fault Refusal :=
  let s := s.advanceTo t
  if s.fbit SEC_STATUS_ERROR 0 then .next s
  else
  let f := s.ftl d
  let adopted := (List.range 16).any (fun c => f.chan c == .twinRo)
  if adopted then
    -- a removed namespace whose key is not yet destroyed is not served (R428)
    let s := (s.settleFlash d seen).modFtl d (fun f => { f with restored := true })
    .next (s.sec.rms.foldl (fun s e =>
      if e.2.destroy.contains d then
        s.modFtl d (fun f => { f with objs := f.objs.filter (fun o => !(o.ns == e.1 && o.gen == e.2.oldGen)) })
      else s) s)
  else if !s.fbit FTL_STATUS_REPLAYING d then .next s
  else
    let tail := f.lostTail
    let s := s.settleFlash d seen
    let s := if tail then (s.evtDie FTL_EVENT_HOLDUP d).healthOccur d 0x0B 0xFF else s
    let s := s.modFtl d (fun f => { f with chans := tfilter (fun _ c => c != .returning) f.chans })
    let s := s.fset FTL_OWN_OWNED d ((s.ftl d).owned.foldl (fun v c => setBit v c true) 0)
    let s := (s.fset FTL_STATUS_REPLAYING d 0).fset FTL_STATUS_READY d 1
    let s := s.modFtl d (fun f => { f with patT := t, ckptT := t })
    let s := if ((s.ftl d).openBand .journal).isNone then (match s.openBand d .journal 0xFF with | some (_, s) => s | none => s) else s
    let s := (s.fset FTL_STRIPE_IN_SERVICE d ((s.chsUp d).foldl (fun v c => setBit v c true) 0)).wearCheck d
    let s := (((s.roCheck d).destroyPending d).dmk d).nsKeyHere d
    .next (if s.fbit PFX_STATUS_READY d && !(s.ftl d).restored then s.restoreAll d else s)

end Sys2Proof.Machine
end

