-- ==== Sys2Proof/Machine/Mailbox.lean ====
section
/-!
DEFINITION. Sys2Proof/Machine/Mailbox.lean: the operator mailbox, the module's self-tests and its ERROR state (R433, R434, R440,
R444, R445, R454 to R460).
-/
namespace Sys2Proof.Machine

/-! ### ERROR and zeroization (R433 to R435, R441, R455) -/

/-- ERROR: every fabric port and flash channel stops, and the ROM console runs (R434, R546) (DEDUCED, log entry 68; DEDUCED, log entry 83). -/
def State.enterError (s : State) : State :=
  let s := (s.fset SEC_STATUS_ERROR 0 1).fset SVC_STATUS_ROM 0 1
  (List.range s.nDies).foldl (fun s d => (s.fabricDown d).modFtl d (fun f => { f with hold := s.holdOf d })) s

/-- The module enters ERROR with a self-test code (R434) (DEDUCED, log entry 83). -/
def State.moduleError (s : State) (code : Nat) : State :=
  let s := s.logTest 0 0 0 code
  let s := if s.fget SEC_SELFTEST_FAIL_CODE 0 = 0 then s.fset SEC_SELFTEST_FAIL_CODE 0 code else s
  ((s.evtPkg SEC_EVENT_SELFTEST_FAIL).sealedEvent 0x80 (le 1 code)).enterError

/-- A die's flash under ZEROIZE: the records and META bands of step 5 of R424 where it can be written, and nothing left of it
that a key reads. Answers the META bands to erase. -/
def State.zeroizeDie (s : State) (d : Nat) : List (Nat × Nat) × State :=
  let up := !s.dieDown d && s.fbit FTL_STATUS_READY d
  let (bands, s) := if up then
      (List.range 8).foldl (fun acc p =>
        (acc.2.liveKeys d p).foldl (fun acc k =>
          let x := acc.2.cryptoErase d p k.1
          (acc.1 ++ x.1.map (fun b => (d, b)), x.2)) acc) (([] : List (Nat × Nat)), s)
    else ([], s)
  let s := s.modFtl d (fun f => { f with objs := [], ghosts := [] })
  let s := { s with sec := { s.sec with keys := tdel s.sec.keys (256 + d) } }
  let s := if up then (s.dmk d).gcAdvance d else s
  (bands.eraseDups, s)

/-- Every namespace key, DMK and CAK destroyed (R433, R435, R455): answers the META bands whose erase is awaited (DEDUCED, log entry 45). -/
def State.zeroizeAll (s : State) : List (Nat × Nat) × State :=
  let dead := (List.range 8).foldl (fun l p => if (tget s.sec.keys p).isSome then tput l p (s.genOf p) else l) s.sec.lastDead
  let (bands, s) := (List.range s.nDies).foldl (fun acc d =>
    let x := acc.2.zeroizeDie d
    (acc.1 ++ x.1, x.2)) (([] : List (Nat × Nat)), s)
  let s := { s with sec := { s.sec with keys := s.sec.keys.filter (fun e => decide (256 ≤ e.1)), lastDead := dead } }
  let s := (List.range s.nDies).foldl (fun s d =>
    if (s.lnk d).cak.isSome then
      (s.modLnk d (fun l => { l with cak := none, mkaPeers := [], mkaServers := [], asked := false, rekey := none, txSa := false, rxSas := [], txPn := 1 })).refreshPort d
    else s) s
  (bands, s)

/-! ### Slots (R442 to R445) -/

/-- SYS_IDENT.PART (R5). -/
def State.partCode (s : State) : Nat := s.identWord / 2 ^ 16

/-- The signer, the signature and the SVN of an image (R444 step 3, R445). -/
def State.slotAuth (s : State) (i : FwImage) : Bool :=
  (match i.vendor with | some v => decide (v < 4) && !s.fbitAt SEC_FUSE_VENDOR_REVOKED 0 v | none => false)
    && i.sigOk && decide (s.fget SEC_SVN_SVN_MIN 0 ≤ i.svn)

/-- Whether an image passes R444 step 3. -/
def State.slotOk (s : State) (i : FwImage) : Bool :=
  i.magicOk && s.slotAuth i && i.digestsOk && (i.parts.1 == s.partCode || i.parts.2 == s.partCode)

/-! ### The mailbox (R454, R455) -/

/-- A mailbox command: GO while BUSY has no effect; a failed SERIAL, COUNTER or signature gives ACCESS (R454). `signed` says
whether the signature counts. `go` answers the status, none while the command runs on (DEDUCED, log entry 46). -/
def State.mailbox (s : State) (obj : MboxObj) (signed : Bool) (go : State → Option Nat × State) : State :=
  if s.fbit SEC_MBOX_STATUS_BUSY 0 then s
  else
    let s := (s.fset SEC_MBOX_STATUS_DONE 0 0).fset SEC_MBOX_STATUS_BUSY 0 1
    if !obj.readable || !obj.wellFormed then s.mboxDone stMALFORMED
    else if !obj.serialOk || decide (obj.counter ≤ s.sec.ownerCtr) || !obj.sigOk
        || (signed && s.fget SEC_FUSE_OWNER 0 == 0) then s.authFail.mboxDone stACCESS
    else
      let s := { s with sec := { s.sec with ownerCtr := obj.counter } }
      match go s with
      | (some st, s) => s.record.mboxDone st
      | (none, s) => s.record

/-- FW_STAGE (R445): the slot that is not running takes the image, whatever the check says. -/
def execFwStage (port : Nat) (obj : MboxObj) (img : FwImage) (s : State) : Host.Outcome State Fault Refusal :=
  if 2 ≤ port then .next s
  else .next (s.mailbox obj true (fun s =>
    let slot := 1 - s.fget SEC_STATUS_BOOT_SLOT 0
    let s := { s with sec := { s.sec with slots := tput s.sec.slots slot img } }
    if !s.slotAuth img then (some stACCESS, s)
    else if !s.slotOk img then (some stMALFORMED, s)
    else (some stOK, s.evtPkg SEC_EVENT_FW_STAGED)))

/-- FW_SELECT (R445, R455). -/
def execFwSelect (port : Nat) (obj : MboxObj) (slot : Nat) (s : State) : Host.Outcome State Fault Refusal :=
  if 2 ≤ port then .next s
  else .next (s.mailbox obj true (fun s =>
    if 2 ≤ slot then (some stMALFORMED, s)
    else
      match tget s.sec.slots slot with
      | some i => if s.slotOk i then (some stOK, { s with sec := { s.sec with fwSel := slot } }) else (some stNOT_READY, s)
      | none => (some stNOT_READY, s)))

/-- SVN_COMMIT (R445). -/
def execSvnCommit (port : Nat) (obj : MboxObj) (s : State) : Host.Outcome State Fault Refusal :=
  if 2 ≤ port then .next s
  else .next (s.mailbox obj true (fun s => (some stOK, s.fmax SEC_SVN_SVN_MIN 0 (s.fget SEC_SVN_SVN_RUN 0))))

/-- APPROVED_SET (R433). -/
def execApprovedSet (port : Nat) (obj : MboxObj) (mode : Nat) (s : State) : Host.Outcome State Fault Refusal :=
  if 2 ≤ port then .next s
  else .next (s.mailbox obj true (fun s =>
    if 2 ≤ mode then (some stMALFORMED, s)
    else
      let s := { s with sec := { s.sec with mode := mode == 1 } }
      (some stOK, s.fput SEC_STATUS_MODE_PENDING 0 (mode != s.fget SEC_STATUS_APPROVED 0))))

/-- TENANT_KEY (R455). -/
def execTenantKey (port : Nat) (obj : MboxObj) (p : Nat) (key : List Byte) (s : State) : Host.Outcome State Fault Refusal :=
  if 2 ≤ port then .next s
  else .next (s.mailbox obj true (fun s =>
    if 8 ≤ p ∨ (key.length ≠ 0 ∧ key.length ≠ 1793) then (some stMALFORMED, s)
    else if s.sealed p then (some stNOT_READY, s)
    else
      (some stOK, { s with sec := { s.sec with tenants := if key = [] then tdel s.sec.tenants p else tput s.sec.tenants p key } })))

/-- REMOVE (R423, R427, R455): the command completes once the removal is accepted (DEDUCED, log entry 46). -/
def execRemove (port : Nat) (obj : MboxObj) (p dest t : Nat) (s : State) : Host.Outcome State Fault Refusal :=
  let s := s.advanceTo t
  if 2 ≤ port then .next s
  else .next (s.mailbox obj true (fun s =>
    if 8 ≤ p then (some stMALFORMED, s)
    else if s.ptnState p = ptnFree ∨ s.ptnState p = ptnRemoving then (some stNOT_READY, s)
    else (some stOK, s.removalStart p none (16 + port) dest)))

/-- ZEROIZE (R455): it completes when the META bands of step 5 are erased (DEDUCED, log entry 45). -/
def execZeroize (port : Nat) (obj : MboxObj) (s : State) : Host.Outcome State Fault Refusal :=
  if 2 ≤ port then .next s
  else .next (s.mailbox obj true (fun s =>
    if (List.range 8).any (fun p => s.ptnState p != ptnFree) then (some stNOT_READY, s)
    else
      let (bands, s) := s.zeroizeAll
      let s := { s with sec := { s.sec with tenants := [], zeroBands := bands } }
      if bands = [] then (none, s.zeroized) else (none, s)))

/-- DEBUG_SEAL (R440). -/
def execDebugSeal (port : Nat) (obj : MboxObj) (s : State) : Host.Outcome State Fault Refusal :=
  if 2 ≤ port then .next s
  else .next (s.mailbox obj true (fun s => (some stOK, (s.fset SEC_FUSE_DEBUG_SEAL 0 1).fset SEC_STATUS_DEBUG_SEALED 0 1)))

/-- OWNER_PROVISION (R439, R455): the lower owner slot that is free takes the digest (DEDUCED, log entry 46). -/
def execOwnerProvision (port : Nat) (obj : MboxObj) (key : List Byte) (s : State) : Host.Outcome State Fault Refusal :=
  if 2 ≤ port then .next s
  else .next (s.mailbox obj false (fun s =>
    let o := s.fget SEC_FUSE_OWNER 0
    if key.length ≠ 1793 then (some stMALFORMED, s)
    else if o.testBit 1 then (some stNOT_READY, s)
    else
      let slot := if o = 0 then 0 else 1
      let s := { s with sec := { s.sec with ownerHash := tput s.sec.ownerHash slot (shake256 (natBytes key) 32) } }
      (some stOK, (s.fset SEC_FUSE_OWNER 0 (if o = 0 then 1 else 3)).fset SEC_STATUS_OWNER_SET 0 1)))

/-! ### Self-tests (R456, R457) -/

/-- SELFTEST_NOW (R457) (DEDUCED, log entry 66). -/
def execSelftestNow (via : Via) (code : Nat) (s : State) : Host.Outcome State Fault Refusal :=
  .next (regWrite via (SEC_CTRL_SELFTEST_NOW.at_ 0) s (fun s =>
    let s := s.fadd SEC_SELFTEST_RUNS 0 1
    if code = 0 then s.logTest 0 0 0 0 else s.moduleError code))

/-- ENTROPY_HEALTH_FAIL (R456). -/
def execEntropyHealthFail (s : State) : Host.Outcome State Fault Refusal := .next (s.moduleError 0x52)

end Sys2Proof.Machine
end

