-- ==== Sys2Proof/Machine/Units.lean ====
section
/-!
DEFINITION. Sys2Proof/Machine/Units.lean: wickets and their queues, the scrubber, unit tests, lost dies adopted or replaced, and
the management path (R461 to R498, R569).
-/
namespace Sys2Proof.Machine

/-! ### Registers as words -/

/-- The value that a register read gives by its fields alone: a WO field and every Reserved bit read 0 (R10, R11). -/
def State.rawWord (s : State) (off : Nat) : Nat :=
  match findReg allRegs off with
  | none => 0
  | some (r, i, k) =>
    sumNat (r.flds.map (fun f => if f.acc = .wo then 0 else s.fget (f.fld.nth k) i * 2 ^ f.fld.lo))

/-! ### Wickets (R124, R462, R569) -/

/-- Active wickets of a cluster, ascending. -/
def State.activeWickets (s : State) (d c : Nat) : List Nat :=
  ((List.range 8).map (fun k => 8 * c + k)).filter (fun w => s.unitState uWicket d w == usACTIVE)

/-- The first plan task of a queue taken out of it. -/
def takePlan : List WTask → Option (WTask × List WTask)
  | [] => none
  | k :: l => if k.plan then some (k, l) else (takePlan l).map (fun x => (x.1, k :: x.2))

/-- The tail task of a queue taken out of it. -/
def takeTail (l : List WTask) : Option (WTask × List WTask) :=
  match l.getLast? with
  | none => none
  | some k => some (k, l.dropLast)

/-- The first of the listed clusters whose queue holds at least `least` tasks, with its tail task taken. -/
def State.steal (s : State) (d least : Nat) : List Nat → Option (Nat × WTask × List WTask)
  | [] => none
  | c :: l =>
    let q := dget (s.wkt d).queues [] c
    if q.length < least then s.steal d least l
    else match takeTail q with
      | some (k, r) => some (c, k, r)
      | none => s.steal d least l

/-- Clusters in the order in which a wicket of cluster `c` looks at them: those of its region, then those of the others (R569
steps 3 and 4). -/
def nearClusters (c : Nat) : List Nat := (List.range 7).map (fun k => c / 8 * 8 + (c % 8 + k + 1) % 8)
def farClusters (c : Nat) : List Nat :=
  (List.range 3).flatMap (fun k => (List.range 8).map (fun j => (c / 8 + k + 1) % 4 * 8 + j))

/-- The task that an idle active wicket takes: cluster, task, what its queue is left with, and 0 for its own queue, 1 for
another of the region, 2 for another region (R569). -/
def State.nextTask (s : State) (d w : Nat) : Option (Nat × WTask × List WTask × Nat) :=
  let c := w / 8
  let own := dget (s.wkt d).queues [] c
  let first := ((s.activeWickets d c).take (min 4 (s.inForce WKT_CTRL_PLAN_RSV d))).contains w
  let least := max 1 (s.inForce WKT_CTRL_STEAL_MIN d)
  let far := s.inForce WKT_CTRL_STEAL d
  match (if first then takePlan own else none) with
  | some (k, r) => some (c, k, r, 0)
  | none =>
    match own with
    | k :: r => some (c, k, r, 0)
    | [] =>
      match (if 1 ≤ far then s.steal d least (nearClusters c) else none) with
      | some (e, k, r) => some (e, k, r, 1)
      | none =>
        match (if 2 ≤ far then s.steal d least (farClusters c) else none) with
        | some (e, k, r) => some (e, k, r, 2)
        | none => none

/-- A task queued at its cluster, or its producer waits (R569). -/
def State.queueTask (s : State) (d c : Nat) (k : WTask) : State :=
  let e := s.queueOf d c
  let q := dget (s.wkt d).queues [] e
  if 4096 ≤ q.length then
    (s.modWkt d (fun x => { x with waits := x.waits ++ [(c, k)] })).evtDie WKT_EVENT_QUEUE_FULL d
  else s.modWkt d (fun x => { x with queues := dset x.queues [] e (q ++ [k]) })

/-- Context of a task, for the counters. -/
def State.taskCtx (s : State) (d : Nat) (k : WTask) : Option Nat := (k.sweep.bind (s.sweep? d)).map (·.ctx)

/-- The task of a wicket ends, its effects committed (R462) (DEDUCED, log entry 81). -/
def State.wicketEnd (s : State) (d w : Nat) : State :=
  match tget (s.wkt d).running w with
  | none => s
  | some k =>
    let s := s.modWkt d (fun x => { x with running := tdel x.running w })
    let s := if k.reads then s.closeHolder d k.epoch else s
    (s.fadd WKT_TASKS_COUNT d 1).pmc d 0x0E 0 ((s.clk.tNs - k.startT) * 6 / 5) (s.taskCtx d k)

/-- WICKET_TAKE_TASK (R92, R569). -/
def execWicketTakeTask (d w : Nat) (fresh : List TaskReq) (t : Nat) (s : State) : Host.Outcome State Fault Refusal :=
  let s := s.advanceTo t
  if s.nDies ≤ d ∨ 256 ≤ w ∨ (s.row uDie d 0).lost ∨ s.clockOn d 2 = false then .next s
  else
    let s := s.wicketEnd d w
    let held := (s.wkt d).waits
    let s := s.modWkt d (fun x => { x with waits := [] })
    let s := held.foldl (fun (s : State) e => s.queueTask d e.1 e.2) s
    let s := fresh.foldl (fun (s : State) (r : TaskReq) =>
      if 32 ≤ r.cluster then s else s.queueTask d r.cluster ⟨r.plan, r.reads, r.desc, r.sweep, 0, 0, 0⟩) s
    let s := s.queueDepth d
    if !(s.unitOn uWicket d w && s.unitOn uCluster d (w / 8) && s.unitOn uRegion d (w / 64)) then .next s
    else
      match s.nextTask d w with
      | none => .next s
      | some (c, k, rest, far) =>
        let ctx := s.taskCtx d k
        let s := if k.reads then s.openHolder d else s
        let k := { k with epoch := s.epoch d, startT := s.clk.tNs }
        let s := s.modWkt d (fun x => { x with queues := dset x.queues [] c rest, running := tput x.running w k })
        let s := if far = 1 then s.fadd WKT_STEAL_CLU_COUNT d 1 else if far = 2 then s.fadd WKT_STEAL_REG_COUNT d 1 else s
        let s := if far = 0 then s else s.pmc d 0x0F 1 1 ctx
        .next ((s.pmc d 0x0E 1 0 ctx).queueDepth d)

/-- Period of the task watchdog, ns: RAS_CFG.WDOG × 10 µs, 0 acting as 1 (R462, R497). -/
def State.taskWdog (s : State) : Nat := max 1 (s.inForce RAS_CFG_WDOG 0) * 10000

/-- WICKET_WATCHDOG_EXPIRY (R462): a task that gave no progress mark for the watchdog's period fails; the wicket is fenced, and
the task starts again. It cannot have failed before that period has passed since its start (DESIGN CHOICE, log entry 93). -/
def execWicketWatchdogExpiry (d w t : Nat) (s : State) : Host.Outcome State Fault Refusal :=
  let s := s.advanceTo t
  match tget (s.wkt d).running w with
  | none => .next s
  | some k =>
    if s.clk.tNs < k.startT + s.taskWdog then .next s
    else .next ((s.hwFence uWicket d w).restartTask d w)

/-! ### The scrubber (R466 to R468) -/

/-- A retired segment's owner meets an uncorrectable line (R468). -/
def State.segLost (s : State) (d seg : Nat) : State :=
  match (s.pfx d).pages.find? (fun e => e.2.segs.contains seg) with
  | some (id, p) =>
    let s := s.failReaders d id
    if p.st = .sealed ∨ p.st = .suspect then (s.dropStore d id).startRebuild d id 4
    else if p.place.flash then (s.dropFrame d id).stageIn d id 0
    else s.loseTail d id
  | none =>
    s.modCsm d (fun c => { c with grads := tmap (fun _ g => if g.segs.contains seg then { g with poisoned := true } else g) c.grads })

/-- A line of HBM found by the scrubber (R466): a corrected one counts towards its segment's limit of the pass, an
uncorrectable one retires its segment at once (DEDUCED, log entry 81). -/
def State.scrubLine (s : State) (d : Nat) (l : ScrubLine) : State :=
  let seg := l.addr / 4096
  if s.stackOn d (l.addr / 2 ^ 36) = false ∨ (s.row uDie d 0).lost then s
  else if l.syms = 0 then s
  else if !eccCorrects l.syms then
    let s := (s.noteUe d 1 (l.addr / 2 ^ 36) l.addr).retire d seg
    if (s.row uDie d 0).lost then s
    else if l.both then s.loseDie d 5 else s.segLost d seg
  else
    let s := (s.fadd RAS_CE_HBM_COUNT d 1).pmc d 0x1A 1 1 none
    let c := dget s.ras.corrected [] d
    let n := dget c 0 seg + 1
    let s := { s with ras := { s.ras with corrected := dset s.ras.corrected [] d (dset c 0 seg n) } }
    if max 1 (s.inForce RAS_CFG_CE_RETIRE 0) ≤ n then s.retire d seg else s

/-- An uncorrectable line of SRAM (R461, R468). -/
def State.sramLost (s : State) (d : Nat) (l : SramLine) : State :=
  let s := s.noteUe d 2 0 0
  match l with
  | .store page blk =>
    -- the entry is dropped, and the block is fetched again
    let again (b : PlanBlk) : PlanBlk :=
      if b.page = page ∧ b.blk = blk ∧ b.fetched ∧ b.expanded = false ∧ b.failed = false then { b with fetched := false } else b
    let s := s.modCsm d (fun c => { c with store := c.store.filter (fun e => !(e.page == page && e.blk == blk)) })
    match s.running? d with
    | none => s
    | some w => s.modSweep d w.id (fun w => { w with summaries := w.summaries.map again, blocks := w.blocks.map again })
  | .rows i =>
    match s.running? d with
    | none => s
    | some w => s.failRecs d w.id stINTEGRITY (w.liveOf [i])
  | .wicket w => (s.hwFence uWicket d w).restartTask d w
  | .queue c => s.hwFence uCluster d c
  | .network r => s.hwFence uRegion d r
  | .other => s

/-- HBM_SCRUB_PASS (R466): nothing is scrubbed while SCRUB_EN is 0. -/
def execHbmScrubPass (d : Nat) (hbm : List ScrubLine) (sramCe : Nat) (sram : List SramLine) (last : Bool) (t : Nat) (s : State) :
    Host.Outcome State Fault Refusal :=
  let s := s.advanceTo t
  if !s.fbit RAS_CTRL_SCRUB_EN 0 ∨ s.nDies ≤ d ∨ s.shadowed d then .next s
  else
    let s := hbm.foldl (fun (s : State) l => s.scrubLine d l) s
    let s := (s.fadd RAS_CE_SRAM_COUNT d sramCe).pmc d 0x1A sramCe sramCe none
    let s := sram.foldl (fun (s : State) l => if (s.row uDie d 0).lost then s else s.sramLost d l) s
    .next (if last then { s with ras := { s.ras with corrected := dset s.ras.corrected [] d [] } } else s)

/-- A good flit from die `e`: its 64 bytes pass through the window ports of both ends, numbered by the dies at the other end
(R538). -/
def State.flitThrough (s : State) (d e : Nat) : State :=
  (s.bw d (12 + (s.linksOf d).idxOf e) 64).bw e (8 + (s.linksOf e).idxOf d) 64

/-- D2D_FLIT_RX (R465, R472): the first flit that fails is replayed, and the eighth failed replay in a row fences the link (DEDUCED, log entry 58; DEDUCED, log entry 80). -/
def execD2dFlitRx (d e : Nat) (rx : FlitRx) (s : State) : Host.Outcome State Fault Refusal :=
  if !s.unitExists uLink d e ∨ s.unitState uLink d e = usFENCED ∨ !(s.clockOn d 4 && s.clockOn e 4) then .next s
  else
    let k := 8 * d + e
    let put (s : State) (n : Nat) : State := { s with ras := { s.ras with replays := dset s.ras.replays 0 k n } }
    let fail (s : State) : State :=
      let n := dget s.ras.replays 0 k + 1
      if n ≤ 8 then put s n else ((put s 0).hwFence uLink d e).hwFence uLink e d
    match rx with
    | .crc => .next (fail s)
    | .line n =>
      if n = 0 then .next (put (s.flitThrough d e) 0)
      else if eccCorrects n then .next (put (((s.flitThrough d e).fadd RAS_CE_D2D_COUNT d 1).pmc d 0x1A 1 1 none) 0)
      else .next (fail (s.noteUe d 3 e 0))

/-! ### Self-tests (R476 to R479, R491, R516) -/

/-- The self-test of a unit starts: an ACTIVE unit goes to TESTING, another is tested where it stands (R491). -/
def State.startTest (s : State) (k d i : Nat) : State :=
  let act := s.unitState k d i == usACTIVE
  let s := s.modRow k d i (fun r => { r with due := true })
  if act then s.setUnit k d i 2 (fun r => { r with testing := true }) 4 else s

/-- What the unit-state table says of a die's units in the registers of its window (R515). -/
def State.reFence (s : State) (d : Nat) : State :=
  let bits (k n st : Nat) : Nat := (List.range n).foldl (fun v i => setBit v i (s.unitState k d i == st)) 0
  let act (k n : Nat) : Nat := (List.range n).foldl (fun v i => setBit v i (s.unitState k d i != usFENCED)) 0
  let s1 := (s.fset CSM_STATUS_PANE_ACT d (bits uPane 4 usACTIVE)).fset CSM_PANE_FENCE_FENCED d (bits uPane 4 usFENCED)
  let s1 := (s1.fset CSM_STATUS_ATM_ACT d (bits uAtm 4 usACTIVE)).fset ATM_FENCE_FENCED d (bits uAtm 4 usFENCED)
  let s1 := s1.fset FTL_CH_FENCE_FENCED d (bits uChan 16 usFENCED)
  let s1 := (s1.fset RAS_DIE_STATE_STACKS d (act uStack 3)).fset MEM_STATUS_TRAINED d (act uStack 3)
  s1.countWickets d

/-- A die starts from its shadow and the unit-state table (R515). -/
def State.dieStart (s : State) (d : Nat) : State := ((s.reFence d).dieBack d).reFence d

/-- A die leaves LOST (R490, R516) (DEDUCED, log entry 75). -/
def State.unLose (s : State) (d cause : Nat) : State :=
  let units := s.dieStates d
  let s := s.modRow uDie d 0 (fun r => { r with lost := false, testing := false })
  let now := s.unitState uDie d 0
  let s := ((s.noteUnit uDie d 0 usLOST now cause).dieUnits d cause units).fset RAS_DIE_STATE_STATE d now
  (s.fputAt RAS_STATUS_DIES_LOST 0 d false).countWickets d

/-- The test of a die that was lost and reset ends (R516): it stays LOST in a partition, and otherwise starts. The outcome
settles what either path reported (DEDUCED, log entry 75). -/
def State.dieOutcome (s : State) (d code : Nat) : State :=
  let pass := code == 0
  let v := if pass then 1 else 2
  let s := (s.logTest uDie d 0 code).modRow uDie d 0 (fun r =>
    { r with due := false, testing := false, midTest := false, passed := pass, code := code, data := v, mgmt := if r.mgmt = 0 then 0 else v })
  if pass && (s.owner d).isNone then (s.unLose d 4).dieStart d else s

/-- Whether the two reports of a row disagree. -/
def UnitRow.split (r : UnitRow) : Bool := (r.data == 2 && r.mgmt == 1) || (r.data == 1 && r.mgmt == 2)

/-- A self-test ends with a code: the unit's reports follow, and a UNIT_TEST that waits for it completes (R477, R491). -/
def State.endTest (s : State) (k d i code : Nat) : State :=
  let r := s.row k d i
  let s := s.modRow k d i (fun r => { r with desc := none })
  let s := if k = uDie ∧ r.lost then s.dieOutcome d code else s.testOutcome k d i (r.midTest || r.split) code
  match r.desc with
  | some x => s.completeKey x stOK code 0
  | none => s

/-! ### Adoption (R484 to R487) -/

/-- A chunk image that a surviving die holds enters the tree of the new home when its parent is there (R484). -/
def State.adoptImage (s : State) (p : Nat) (r : Replica) (c : Chunk) (pages : List Page) : State :=
  let drop (s : State) : State := s.giveSegs r.die r.segs
  match s.ctx? p c.ctx with
  | none => drop s
  | some x =>
    let h := x.home
    let parent := if c.depth = 0 then some 0 else
      (s.treeFind h c.parent).bind (fun e => if e.2.st = .valid then some e.2.chunk else none)
    match parent with
    | none => drop s
    | some pid =>
      if (s.treeFind h c.chain).isSome ∨ s.freeChunks h = 0 ∨ s.freePages h < pages.length ∨ s.replicasFull h then drop s
      else
        let (id, s) := s.pickId (tkeys (s.pfx h).chunks) (s.freeChunks h)
        let (ids, s) := pages.foldl (fun (acc : List Nat × State) (pg : Page) =>
          let (n, s) := acc.2.pickId (tkeys (acc.2.pfx h).pages) (acc.2.freePages h)
          let pg := { pg with
            segs := [], list := 0, refs := 0, pinned := false, rel := 0, origin := id
            place := { Place.init with hbm := false } }
          (acc.1 ++ [n], s.modPfx h (fun x => { x with pages := tput x.pages n pg }))) (([] : List Nat), s)
        let ch := { c with parent := pid, st := ChunkSt.priv, parked := false, holders := 0, children := 0, rel := 0, pages := ids }
        let s := (s.modPfx h (fun x => { x with chunks := tput x.chunks id ch })).addHold h id
        let s := (s.addReplica h { r with chunk := id }).2
        (s.treeInsert h id (s.tickOf h)).dropHold h id

/-- A ledger entry of an adopted sequence waits on the new home for its rerun (R485) (DEDUCED, log entry 77). -/
def State.rerun (s : State) (x : Loss) (e : LedgerEnt) : State :=
  match s.ctx? x.part e.held.step.ctx with
  | none => s.loseEntry (x.ledgerDie.getD x.die) x.die e
  | some c =>
    match s.seqSlot? c.home e.held.step.seq with
    | none => s.loseEntry c.home x.die e
    | some _ =>
      let h := { e.held with recov := some ((e.adm.map (·.2.1)).getD 0) }
      if s.genRuns c.home then s.modCsm c.home (fun k => { k with held := k.held ++ [h] }) else s.failHeld c.home h stNOT_READY

/-- Parked sequences of a lost die rebuilt on the new homes of their contexts: those adopted (R293, R484). -/
def State.adoptSeqs (s : State) (x : Loss) : List SeqSlot × State :=
  let home (q : SeqSlot) : Option Nat := (s.ctx? x.part q.ctx).map (·.home)
  (s.survivors x.part).foldl (fun (acc : List SeqSlot × State) e =>
    let (got, _, s) := acc.2.restoreSeqs e x.die false (fun q => home q == some e)
    (acc.1 ++ got, s)) (([] : List SeqSlot), s)

/-- ADOPTION (R482 event 7): once a lost die's contexts are rehomed and its flash is served, or none is in use (DEDUCED, log entry 76; DEDUCED, log entry 145). -/
def execAdoption (d t : Nat) (s : State) : Host.Outcome State Fault Refusal :=
  let s := s.advanceTo t
  let served := (s.ftl d).restored || s.fbit FTL_STATUS_READY d || !s.fbit FTL_CTRL_EN d
  match s.ras.losses.find? (fun x => x.die == d && x.rehomed) with
  | none => .next s
  | some x =>
    if !served then .next s
    else
      let p := x.part
      let (got, s) := s.adoptSeqs x
      let depth := x.images.foldl (fun m i => max m (i.2.1.depth + 1)) 0
      let s := (List.range depth).foldl (fun (s : State) n =>
        (x.images.filter (fun i => i.2.1.depth == n)).foldl (fun (s : State) i => s.adoptImage p i.1 i.2.1 i.2.2) s) s
      let lost := x.seqs.filter (fun q => !got.any (fun e => e.seq == q.1))
      let s := s.fadd RAS_SEQ_LOST_COUNT 0 lost.length
      let s := { s with ras := { s.ras with losses := s.ras.losses.erase x, lossList := tput s.ras.lossList p lost } }
      let s := x.ledger.foldl (fun (s : State) e => s.rerun x e) s
      let s := (s.evtPkg RAS_EVENT_ADOPTED).partEvent p 0x62 d
        (le 1 d ++ zeros 3 ++ le 4 got.length ++ le 4 lost.length ++ le 4 x.pins)
      let s := match x.assign with | some k => s.completeKey k stOK got.length lost.length | none => s
      .next (if s.ras.losses.any (·.rehomed) then s else s.fset RAS_STATUS_ADOPTING 0 0)

/-- DIE_FENCE (R464): the causes are those of R493. -/
def execDieFence (d cause t : Nat) (s : State) : Host.Outcome State Fault Refusal :=
  let s := s.advanceTo t
  if cause = 0 ∨ 8 < cause then .next s else .next (s.loseDie d cause)

/-! ### DIE_ASSIGN (R490) -/

/-- RW and RWL fields of a die's window taken from another die's shadow (R490, R514) (DEDUCED, log entry 76). -/
def State.copyShadow (s : State) (src d : Nat) : State :=
  allRegs.foldl (fun (s : State) r =>
    if r.off < windowBase then s
    else
      (r.flds.filter (fun f => f.acc == .rw || f.acc == .rwl)).foldl (fun (s : State) f =>
        (List.range r.reps).foldl (fun (s : State) k => s.fset (f.fld.nth k) d (s.fget (f.fld.nth k) src)) s) s) s

/-- Events 3 and 4 for the losses of a partition that waited for a die; a DIE_ASSIGN completes with the first adoption. -/
def State.rehomeAll (s : State) (p : Nat) (key : Option (Nat × Nat × Nat)) : List Loss → State
  | [] => s
  | x :: l =>
    if x.part ≠ p ∨ x.rehomed then s.rehomeAll p key l
    else
      let (y, s) := s.rehomeLoss x
      let y := { y with assign := key }
      ({ s with ras := { s.ras with losses := s.ras.losses.map (fun z => if z = x then y else z) } }).rehomeAll p none l

/-- A die joins a partition (R490) (DEDUCED, log entry 76; DEDUCED, log entry 145). -/
def State.assignDie (s : State) (q : Desc) (d : Nat) : State :=
  let p := q.part
  let mine := (s.row uDie d 0).lost
  let s := if 2 ≤ s.fget DPM_STATUS_STATE d then
      ((s.railsBack d (s.fget DPM_STATUS_STATE d)).railsOn d).powerTo d 0 2
    else s
  let s := if mine then (s.unLose d 4).dieStart d |>.reclaimChans d
    else
      let s := s.fset PTN_DIES_DIES p (setBit (s.fget PTN_DIES_DIES p) d true)
      let s := s.forgetDie d
      let s := match (s.diesOf p).find? (fun e => (s.row uDie e 0).lost) with
        | some e => s.copyShadow e d
        | none => s
      s.dieStart d
  let s := s.assignLedgers p
  let s := (s.setLink d 0).refreshPort d
  if s.ptnState p = ptnOrphaned ∧ s.ras.losses.any (fun x => x.part == p && !x.rehomed) then
    (s.rehomeAll p q.key s.ras.losses).fset PTN_STATUS_STATE p ptnSealed
  else s.complete q stOK 0 0

/-- DIE_ASSIGN (DEDUCED, log entry 76; DEDUCED, log entry 145). -/
def execDieAssign (q : Desc) (die : Nat) (s : State) : Host.Outcome State Fault Refusal :=
  .next (runDesc q 0x70 die s (fun s =>
    let r := s.row uDie die 0
    if s.nDies ≤ die then s.fail q stMALFORMED
    else
      match s.owner die with
      | none =>
        if r.due then s.fail q stNOT_READY
        else if s.unitState uDie die 0 ≠ usACTIVE then s.fail q stMALFORMED
        else s.assignDie q die
      | some o =>
        if o ≠ q.part ∨ r.lost = false then s.fail q stMALFORMED
        else if r.due then s.fail q stNOT_READY
        else if r.passed = false then s.fail q stMALFORMED
        else s.assignDie q die))

/-! ### Unit descriptors (R491, R492) -/

/-- Whether a kind of unit must be confirmed before it is fenced (R491, R496). -/
def mustConfirm (k : Nat) : Bool := k == uDie || k == uHost || k == uCtl

/-- UNIT_TEST (DEDUCED, log entry 62). -/
def execUnitTest (q : Desc) (kind die index : Nat) (s : State) : Host.Outcome State Fault Refusal :=
  .next (runDesc q 0x71 (kind + die * 2 ^ 8 + index * 2 ^ 16) s (fun s =>
    if !s.unitExists kind die index || !(s.diesOf q.part).contains die then s.fail q stMALFORMED
    else if kind ≠ uDie ∧ (s.row uDie die 0).lost then s.fail q stFENCED
    else if (s.row kind die index).desc.isSome then s.fail q stNOT_READY
    else (s.startTest kind die index).modRow kind die index (fun r => { r with desc := q.key })))

/-- UNIT_FENCE. -/
def execUnitFence (q : Desc) (kind die index : Nat) (s : State) : Host.Outcome State Fault Refusal :=
  .next (runDesc q 0x72 (kind + die * 2 ^ 8 + index * 2 ^ 16) s (fun s =>
    if !s.unitExists kind die index || !(s.diesOf q.part).contains die then s.fail q stMALFORMED
    else if mustConfirm kind && !q.order then s.fail q stNOT_READY
    else (s.complete q stOK 0 0).report kind die index false 2))

/-- LOSS_LIST. -/
def execLossList (q : Desc) (dest room : Nat) (s : State) : Host.Outcome State Fault Refusal :=
  .next (runDesc q 0x73 dest s (fun s =>
    if dest % 64 ≠ 0 then s.fail q stMALFORMED
    else
      let l := dget s.ras.lossList [] q.part
      let out := l.take (room / 8)
      let s := if out = [] then s else s.descWrite (q.fn, q.sq, q.index) dest (out.flatMap (fun e => le 4 e.1 ++ le 2 e.2 ++ zeros 2))
      s.complete q stOK out.length l.length))

/-! ### The RAS unit registers (R497, R498) -/

/-- The unit that RAS_UNIT_SEL names. -/
def State.selUnit (s : State) : Nat × Nat × Nat :=
  (s.fget RAS_UNIT_SEL_KIND 0, s.fget RAS_UNIT_SEL_DIE 0, s.fget RAS_UNIT_SEL_INDEX 0)

/-- RAS_UNIT_CMD on the selected row: none on a row that does not exist or of a die in LOST. -/
def State.unitCmd (s : State) (go : Nat → Nat → Nat → State) : State :=
  let (k, d, i) := s.selUnit
  if !s.unitExists k d i ∨ (s.row uDie d 0).lost then s else go k d i

/-- RAS_UNIT_CMD.OP = 1. -/
def execRasUnitFenceCmd (via : Via) (s : State) : Host.Outcome State Fault Refusal :=
  .next (regWrite via (RAS_UNIT_CMD_OP.at_ 0) s (fun s => s.unitCmd (fun k d i => s.report k d i false 2)))

/-- RAS_UNIT_CMD.OP = 2. -/
def execRasUnitTestCmd (via : Via) (s : State) : Host.Outcome State Fault Refusal :=
  .next (regWrite via (RAS_UNIT_CMD_OP.at_ 0) s (fun s => s.unitCmd (fun k d i => s.startTest k d i)))

/-- A row as it reads (R473). -/
def State.rowBytes (s : State) (k d i : Nat) : List Byte :=
  let r := s.row k d i
  le 1 k ++ le 1 d ++ le 2 i ++ le 1 (s.unitState k d i) ++ le 1 r.data ++ le 1 r.mgmt ++ le 1 r.cause ++ le 2 r.faults
    ++ le 2 r.disputes ++ le 4 r.changed

/-- RAS_UNIT_ROW0 read: ROW1 to ROW3 hold the rest of the row (R497). A row that does not exist reads 0. -/
def State.readRow0 (s : State) : Nat × State :=
  let (k, d, i) := s.selUnit
  let b := if s.unitExists k d i then s.rowBytes k d i else zeros 16
  let word (n : Nat) : Nat := numAt b (4 * n) 4
  let s := [1, 2, 3].foldl (fun (s : State) n => s.fset (RAS_UNIT_ROW_ROW.nth n) 0 (word n)) s
  (word 0, s.fset RAS_UNIT_ROW_ROW 0 (word 0))

/-- RAS_UNIT_ROW0_READ. -/
def execRasUnitRow0Read (via : Via) (s : State) : Host.Outcome State Fault Refusal :=
  .next (regRead via (RAS_UNIT_ROW_ROW.at_ 0) s State.readRow0)

/-! ### The management path (R494 to R496) -/

/-- A response of the vendor message type: status and fields (R496). -/
def State.mctp (s : State) (status : Nat) (b : List Byte) : State := s.emit (.mctp 0x7E (le 1 status ++ b))

/-- Every row of a die, in the order of R474. -/
def State.dieRows (s : State) (d : Nat) : List (Nat × Nat) :=
  ((List.range 12).map (· + 1)).flatMap (fun k => (s.unitIdx k d).map (fun i => (k, i)))

/-- GET_UNITS (DEDUCED, log entry 62). -/
def execGetUnits (die first count : Nat) (s : State) : Host.Outcome State Fault Refusal :=
  if s.nDies ≤ die ∨ count = 0 ∨ 16 < count then .next (s.mctp stMALFORMED [])
  else .next (s.mctp stOK ((((s.dieRows die).drop first).take count).flatMap (fun x => s.rowBytes x.1 die x.2)))

/-- REPORT_UNIT: a report that must be confirmed acts when it is repeated within 1 s (DEDUCED, log entry 62). -/
def execReportUnit (kind die index report t : Nat) (s : State) : Host.Outcome State Fault Refusal :=
  let s := s.advanceTo t
  if !s.unitExists kind die index ∨ 2 < report then .next (s.mctp stMALFORMED [])
  else
    let again : Bool := match (s.row kind die index).reportT with | some x => decide (s.clk.tNs ≤ x + secNs) | none => false
    if mustConfirm kind && report == 2 && !again then
      .next ((s.modRow kind die index (fun r => { r with reportT := some s.clk.tNs })).mctp stNOT_READY [])
    else
      let s := (s.modRow kind die index (fun r => { r with reportT := none })).report kind die index true report
      .next (s.mctp stOK (le 1 (s.unitState kind die index)))

/-- GET_ATTEST: requests that carry one NONCE share one report until its last byte is read. -/
def execGetAttest (part : Nat) (certs : Bool) (nonce : List Byte) (offset : Nat) (s : State) : Host.Outcome State Fault Refusal :=
  if 8 ≤ part ∨ nonce.length ≠ 32 then .next (s.mctp stMALFORMED [])
  else
    let (r, s) := match s.sec.reports.find? (fun r => r.part == part && r.certs == certs && r.nonce == nonce) with
      | some r => (r, s)
      | none =>
        let (b, s) := s.report449 part nonce
        let r : MgmtReport := ⟨part, certs, nonce, if certs then b ++ s.certificates else b⟩
        (r, ({ s with sec := { s.sec with reports := s.sec.reports ++ [r] } }).fadd SEC_ATTESTS_COUNT 0 1)
    let s := s.mctp stOK (le 4 r.bytes.length ++ (r.bytes.drop offset).take 1024)
    .next (if r.bytes.length ≤ offset + 1024 then
        { s with sec := { s.sec with reports := s.sec.reports.filter (fun x => x != r) } }
      else s)

/-- GET_RAS: the per-die registers in offset order (DEDUCED, log entry 62). -/
def execGetRas (die : Nat) (s : State) : Host.Outcome State Fault Refusal :=
  if s.nDies ≤ die then .next (s.mctp stMALFORMED [])
  else .next (s.mctp stOK ((List.range 12).flatMap (fun n => le 4 (s.rawWord (0x70100 + die * 0x40 + 4 * n)))))

/-- SET_ENDPOINT_ID (R494): the response gives completion, acceptance, the endpoint ID and no pool, as DSP0236 does; the ID 0 and
the broadcast ID are refused (PRESUMED, log entry 61). -/
def execSetEndpointId (pcie : Bool) (eid : Nat) (s : State) : Host.Outcome State Fault Refusal :=
  if eid = 0 ∨ 255 ≤ eid then .next (s.emit (.mctp 0 (le 1 2)))
  else
    let s := if pcie then s.fset RAS_MCTP_EID_PCIE 0 eid else s.fset RAS_MCTP_EID_SMB 0 eid
    .next (s.emit (.mctp 0 (le 1 0 ++ le 1 0 ++ le 1 eid ++ le 1 0)))

/-- PLDM_REQUEST (R495): a numeric sensor gives what it reads, a die's state sensor the code of R475 (DESIGN CHOICE, log entry 60). -/
def execPldmRequest (sensor : PldmSensor) (s : State) : Host.Outcome State Fault Refusal :=
  let ok (r : Nat × State) : Host.Outcome State Fault Refusal := .next (r.2.emit (.mctp 1 (le 1 0 ++ le 4 r.1)))
  let none_ : Host.Outcome State Fault Refusal := .next (s.emit (.mctp 1 (le 1 0x80)))
  match sensor with
  | .volts k => if k < 6 * s.nDies + 2 then ok (s.sensed 16) else none_
  | .amps k => if k < 6 * s.nDies + 2 then ok (s.sensed 32) else none_
  | .temp d n => if d < s.nDies ∧ n < 4 then ok (s.sensed 8) else none_
  | .power => ok (s.sensed 32)
  | .state d => if d < s.nDies then ok (s.unitState uDie d 0, s) else none_

end Sys2Proof.Machine
end

