-- ==== Sys2Proof/Machine/Testing.lean ====
section
/-!
DEFINITION. Sys2Proof/Machine/Testing.lean: the lines of the console, and the tests and loops it runs until their self-tests end
(R477, R547 to R551, R554 to R558).
-/
namespace Sys2Proof.Machine

/-! ### Words of a line -/

def hexDigit (n : Nat) : String :=
  ["0", "1", "2", "3", "4", "5", "6", "7", "8", "9", "A", "B", "C", "D", "E", "F"].getD n "0"

/-- `v` in `n` hexadecimal digits. -/
def hexN : Nat → Nat → String
  | 0, _ => ""
  | n + 1, v => hexN n (v / 16) ++ hexDigit (v % 16)

/-- `v` in decimal; `fuel` bounds the digits. -/
def decN : Nat → Nat → String
  | 0, _ => ""
  | n + 1, v => (if v < 10 then "" else decN n (v / 10)) ++ hexDigit (v % 10)

def decS (v : Nat) : String := decN 20 v
def hex2 (v : Nat) : String := "0x" ++ hexN 2 v
def hex8 (v : Nat) : String := "0x" ++ hexN 8 v

/-- A line of the console. -/
def State.say (s : State) (l : List String) : State := s.emit (.console l)

/-- The final lines of R547, each followed by the prompt. -/
def State.okLine (s : State) : State := (s.say ["OK"]).say ["chroat> "]
def State.errLine (s : State) (w : String) : State := (s.say ["E", w]).say ["chroat> "]

/-- Kind names of R549. -/
def kindName (k : Nat) : String :=
  ["SEC", "WICKET", "CLUSTER", "REGION", "PANE", "ATM", "STACK", "CHANNEL", "FABRIC", "HOST", "LINK", "CTL", "DIE"].getD k "SEC"

/-- Domain names of R549. -/
def State.domName (s : State) (k : Nat) : String :=
  if k = 6 * s.nDies then "AON" else if k = 6 * s.nDies + 1 then "SEC"
  else ["CAS", "LOG", "SRM", "HBP", "FLP", "XIO"].getD (k % 6) "CAS" ++ decS (k / 6)

/-- Names of the codes of R557; codes 0x40 to 0x52 are the module's (R456). -/
def codeName (c : Nat) : String :=
  match [(0x00, "PASS"), (0x01, "WKT_MEM"), (0x02, "WKT_EXEC"), (0x03, "CLU_QUEUE"), (0x04, "REG_NET"), (0x05, "CTL_CORE"),
      (0x06, "CTL_WDOG"), (0x08, "PANE_TILE"), (0x09, "PANE_RESIDUE"), (0x0A, "PANE_WEIGH"), (0x0C, "ATM_DECODE"), (0x0D, "ATM_CHECK"),
      (0x10, "HBM_TRAIN"), (0x11, "HBM_UE"), (0x12, "HBM_CE"), (0x14, "CH_PARAM"), (0x15, "CH_LOOP"), (0x16, "CH_TRAIN"),
      (0x18, "FAB_TRAIN"), (0x19, "FAB_BER"), (0x1C, "HOST_LOOP"), (0x1D, "HOST_TRAIN"), (0x20, "D2D_TRAIN"), (0x21, "D2D_FLIT"),
      (0x24, "SUPPLY"), (0x28, "TIMEOUT"), (0x2C, "ABORTED"), (0x30, "THERMAL"), (0xFE, "NOT_RUN")].find? (fun e => e.1 == c) with
  | some e => e.2
  | none => "MODULE"

def unitName (d i : Nat) : String := decS d ++ "." ++ decS i

/-- An ST line (R549, R551). -/
def State.stLine (s : State) (k d i code : Nat) : State := s.say ["ST", kindName k, unitName d i, hex2 code, codeName code]

/-- States of R475 as words. -/
def stateName (st : Nat) : String := ["ACTIVE", "FENCED", "DISPUTED", "TESTING", "LOST", "ABSENT"].getD st "ABSENT"

/-- A UNIT line (R549). -/
def State.unitLine (s : State) (k d i : Nat) : State :=
  let r := s.row k d i
  s.say ["UNIT", kindName k, unitName d i, stateName (s.unitState k d i), "DATA", decS r.data, "MGMT", decS r.mgmt,
    "CAUSE", decS r.cause, "FAULTS", decS r.faults]

/-! ### Counting (R551) -/

/-- A test of the console counted, with its code. -/
def State.countTest (s : State) (code : Nat) : State :=
  let s := s.fadd SVC_TESTS_COUNT 0 1
  if code = 0 then s else (s.fadd SVC_FAILS_COUNT 0 1).evtPkg SVC_EVENT_TEST_FAIL

def State.setRun (s : State) (r : Option SvcRun) : State := { s with svc := { s.svc with run := r } }

/-- SVC_STATUS.STATIC follows the static conditions (R550). -/
def State.staticBit (s : State) : State :=
  s.fput SVC_STATUS_STATIC 0 (!s.svc.patterns.isEmpty || !s.svc.loops.isEmpty || !s.pwr.hold.isEmpty || s.fbit SVC_LEVEL_FORCED 0)

/-- A test or loop of the console may not run on the unit: it is ABSENT, its die is not in P0, or its die is LOST and the reset
that follows the loss is not done, which it is once the die's self-test has passed (R516, R551) (DEDUCED, log entry 150). -/
def State.notRun (s : State) (k d i : Nat) : Bool :=
  !s.unitExists k d i || s.fget DPM_STATUS_STATE d != 0 || ((s.row uDie d 0).lost && !(s.row uDie d 0).passed)

/-! ### TEST DIE (R551) -/

/-- Pass bands of R555, in mV, by the k of R501. -/
def passBand (k : Nat) : Nat × Nat :=
  [(686, 714), (735, 765), (784, 816), (882, 918), (1176, 1224), (833, 867)].getD k (0, 0xFFFF)

/-- The supplies of a die compared with their pass bands: the first failure code, 0 for none. -/
def State.supplies (s : State) (d : Nat) : Nat × State :=
  let (bad, s) := (List.range 6).foldl (fun (acc : Nat × State) k =>
    let (mv, s) := acc.2.sensed 16
    let b := passBand k
    if b.1 ≤ mv ∧ mv ≤ b.2 then (acc.1, s)
    else (0x24, s.say ["ST", "SUPPLY", unitName d k, "0x24", s.domName (6 * d + k)])) (0, s)
  (bad, (s.logTest uDie d 0 bad).countTest bad)

/-- The unit whose failure keeps a unit from being tested. -/
def parentOf (k i : Nat) : Option (Nat × Nat) :=
  if k = uWicket then some (uCluster, i / 8) else if k = uCluster then some (uRegion, i / 8) else if k = uAtm then some (uRegion, i) else none

/-- Whether a unit's parent failed. -/
def parentBad (bad : List (Nat × Nat)) (k i : Nat) : Bool :=
  match parentOf k i with
  | none => false
  | some p => bad.contains p

/-- The next unit of a die's test starts; those that cannot run give 0xFE; with none left the summary is printed. -/
def State.nextOfDie (s : State) (d first : Nat) (bad : List (Nat × Nat)) : List (Nat × Nat) → State
  | [] =>
    let s := (s.setRun none).say ["ST", "DIE", decS d, hex2 first]
    if first = 0 then s.okLine else s.errLine "FAIL"
  | (k, i) :: l =>
    if s.notRun k d i || parentBad bad k i then
      let s := ((s.stLine k d i 0xFE).logTest k d i 0xFE).countTest 0xFE
      s.nextOfDie d (if first = 0 then 0xFE else first) ((k, i) :: bad) l
    else (s.startTest k d i).setRun (some (.die d ((k, i) :: l) first bad))

/-! ### Loops (R556) -/

/-- The code that the lanes of a loop give. -/
def lanesCode (k : Nat) (far : Bool) (l : List (Nat × Nat × Nat)) : Nat :=
  let beyond (n : Nat) : Bool := l.any (fun x => decide (n < x.2.1) || x.2.2 != 0)
  let err : Bool := l.any (fun x => x.2.1 != 0 || x.2.2 != 0)
  if k = uFabric then (if l.length ≠ 8 ∨ beyond 200000 then 0x19 else 0)
  else if k = uHost then (if l.length ≠ 8 ∨ beyond 6400 then 0x1C else 0)
  else if k = uChan then (if err then (if far then 0x14 else 0x15) else 0)
  else if k = uStack then (if l.any (fun x => x.2.2 != 0) then 0x11 else if beyond 4 then 0x12 else 0)
  else (if err then 0x21 else 0)

/-- The code with which a self-test ends: for a loop of the console that ends in time, what its lanes give. -/
def State.loopCode (s : State) (k d i code : Nat) : Nat :=
  match s.svc.run with
  | some (.loop a b c far lanes) => if a = k ∧ b = d ∧ c = i ∧ code = 0 then lanesCode k far lanes else code
  | _ => code

/-- One line for each lane (R556). -/
def State.laneLines (s : State) (k d i : Nat) (l : List (Nat × Nat × Nat)) : State :=
  ((List.range l.length).zip l).foldl (fun (s : State) x =>
    s.say ["LOOP", kindName k, unitName d i, "LANE", decS x.1, "BITS", decS x.2.1, "ERR", decS x.2.2.1, "UNCORR", decS x.2.2.2]) s

/-! ### The end of a self-test -/

def State.verdict (s : State) (code : Nat) : State := if code = 0 then s.okLine else s.errLine "FAIL"

/-- What the console prints, and runs next, when the self-test of a unit ends (DEDUCED, log entry 66; DEDUCED, log entry 150). -/
def State.svcStep (s : State) (k d i code : Nat) : State :=
  match s.svc.run with
  | none => s
  | some (.test a b c) =>
    if a = k ∧ b = d ∧ c = i then (((s.setRun none).stLine k d i code).countTest code).verdict code else s
  | some (.unfence a b c) =>
    if a = k ∧ b = d ∧ c = i then ((s.setRun none).unitLine k d i).verdict code else s
  | some (.loop a b c far lanes) =>
    if a = k ∧ b = d ∧ c = i then
      let s := (((s.setRun none).laneLines k d i lanes).stLine k d i code).countTest code
      let s := if far && (k == uFabric || k == uHost) && code != 0x2C then
          { s with svc := { s.svc with loops := s.svc.loops ++ [(k, d, i)] } }
        else s
      s.staticBit.verdict code
    else s
  | some (.die b left first bad) =>
    match left with
    | [] => s
    | x :: l =>
      if b ≠ d ∨ x ≠ (k, i) then s
      else
        let s := s.countTest code
        let s := if code = 0 then s else s.stLine k d i code
        let first := if first = 0 then code else first
        let bad := if code = 0 then bad else (k, i) :: bad
        s.nextOfDie d first bad (if code = 0x2C then [] else l)

/-- SELFTEST_COMPLETE (R477, R491, R516, R551). -/
def execSelftestComplete (k d i code t : Nat) (s : State) : Host.Outcome State Fault Refusal :=
  let s := s.advanceTo t
  if !(s.row k d i).due then .next s
  else
    let code := s.loopCode k d i (code % 256)
    .next ((s.endTest k d i code).svcStep k d i code)

/-- A test or loop that runs ends with 0x2C (R547, R551). -/
def State.svcAbort (s : State) : State :=
  let stop (k d i : Nat) : State := (s.endTest k d i 0x2C).svcStep k d i 0x2C
  match s.svc.run with
  | some (.test k d i) => stop k d i
  | some (.loop k d i _ _) => stop k d i
  | some (.die d ((k, i) :: _) _ _) => stop k d i
  | _ => s

/-! ### Static conditions (R550) -/

/-- A pattern on a channel ends, and the channel's self-test runs. -/
def State.endPattern (s : State) (key : Nat) : State :=
  if (tget s.svc.patterns key).isNone then s
  else
    let s := { s with svc := { s.svc with patterns := tdel s.svc.patterns key } }
    (s.startTest uChan (key / 16) (key % 16)).staticBit

/-- A FAR loop ends, and the port's self-test runs. -/
def State.endLoop (s : State) (x : Nat × Nat × Nat) : State :=
  let s := { s with svc := { s.svc with loops := s.svc.loops.filter (· != x) } }
  (s.startTest x.1 x.2.1 x.2.2).staticBit

/-- Every static condition ends. -/
def State.endStatics (s : State) : State :=
  let s := (tkeys s.svc.patterns).foldl (fun (s : State) k => s.endPattern k) s
  let s := s.svc.loops.foldl (fun (s : State) x => s.endLoop x) s
  let s := { s with pwr := { s.pwr with hold := [] } }
  (s.fset SVC_LEVEL_FORCED 0 0).staticBit

end Sys2Proof.Machine
end

