-- ==== Sys2Proof/Machine/Timekeeping.lean ====
section
/-!
DEFINITION. Sys2Proof/Machine/Timekeeping.lean: the time counter, its discipline to PTP and its registers (R17 to R28, R56,
R405, R586).
-/
namespace Sys2Proof.Machine

/-! ### The discipline (R21 to R26) -/

/-- The discipline enters a state (R22) (DEDUCED, log entry 84). -/
def State.discTo (s : State) (st : Nat) : State :=
  let s := s.fset TIK_STATUS_STATE 0 st
  let clk (s : State) (f : Clock → Clock) : State := { s with clk := f s.clk }
  if st = discFree then
    clk s (fun k => { k with inLock := 0, measured := false, adj := 0, corr := 0, holding := false, searching := false })
  else if st = discAcq then clk s (fun k => { k with inLock := 0, searching := false })
  else if st = discLocked then
    (clk (s.fset TIK_HOLD_TIME_HELD 0 0) (fun k => { k with lockedEver := true, holding := false, holdNs := 0 })).evtPkg TIK_EVENT_LOCK
  else if st = discHold then (clk s (fun k => { k with holding := true })).evtPkg TIK_EVENT_HOLDOVER
  else (clk s (fun k => { k with holding := true })).evtPkg TIK_EVENT_UNSYNC

/-- The announce interval in ns (R22). -/
def Clock.annNs (k : Clock) : Nat := if 0 ≤ k.annLog then secNs * 2 ^ k.annLog.toNat else secNs / 2 ^ (-k.annLog).toNat

/-- Whether TIK_HOLD_TIME exceeds TIK_HOLD_LIMIT (R22). -/
def State.holdOver (s : State) : Bool := decide (s.fget TIK_HOLD_LIMIT_LIMIT 0 * secNs < s.clk.holdNs)

/-- The active port loses its time transmitter (R26): until one is found, a search runs while FAILOVER = 1. -/
def State.loseSource (s : State) : State := { s with clk := { s.clk with searching := true } }

/-- The active port loses its time transmitter (R22). -/
def State.ptpLost (s : State) : State :=
  let st := s.fget TIK_STATUS_STATE 0
  if st = discAcq then
    if !s.clk.lockedEver then s.discTo discFree
    else (s.discTo (if s.holdOver then discUnsync else discHold)).loseSource
  else if st = discLocked then (s.discTo discHold).loseSource
  else s

/-- ANNOUNCE_TIMEOUT (R22): three intervals after the latest Announce message. -/
def execAnnounceTimeout (t : Nat) (s : State) : Host.Outcome State Fault Refusal :=
  let s := s.advanceTo t
  if s.clk.tNs < s.clk.annAt + 3 * s.clk.annNs then .next s else .next s.ptpLost

/-- PTP_ANNOUNCE_RX (R22, R26): the discipline leaves FREE_RUN on the port of SRC_DIE. -/
def execPtpAnnounceRx (d dom : Nat) (logInt : Int) (t : Nat) (s : State) : Host.Outcome State Fault Refusal :=
  let s := s.advanceTo t
  let st := s.fget TIK_STATUS_STATE 0
  let port := if st = discFree then s.fget TIK_CTRL_SRC_DIE 0 else s.fget TIK_STATUS_SRC_ACT 0
  if dom ≠ s.fget TIK_PTP_CFG_DOMAIN 0 ∨ d ≠ port ∨ !s.fbit TIK_CTRL_DISC_EN 0 then .next s
  else
    let s := { s with clk := { s.clk with annLog := logInt, annAt := s.clk.tNs } }
    let s := s.fset TIK_STATUS_SRC_ACT 0 port
    .next (if st = discAcq ∨ st = discLocked then s else s.discTo discAcq)

/-- A rate adjustment held within SLEW_MAX (R23) (DESIGN CHOICE, log entry 6). -/
def State.slew (s : State) (a : Int) : Int :=
  let lim : Int := s.fget TIK_SLEW_SLEW_MAX 0 * nsUnit / 1000000
  max (-lim) (min lim a)


/-- PTP_SYNC_RX (R21, R23, R24): the measured offset, the servo's next rate, and the lock criterion (DESIGN CHOICE, log entry 93). -/
def execPtpSyncRx (d : Nat) (offset : Int) (t : Nat) (s : State) : Host.Outcome State Fault Refusal :=
  let s := s.advanceTo t
  let st := s.fget TIK_STATUS_STATE 0
  if d ≠ s.fget TIK_STATUS_SRC_ACT 0 ∨ (st ≠ discAcq ∧ st ≠ discLocked) then .next s
  else
    let sat : Int := max (-2147483648) (min 2147483647 offset)
    let (n, s) := s.draw
    let near := decide (offset.natAbs ≤ s.fget TIK_PTP_CFG_LOCK_NS 0)
    let k := if near then s.clk.inLock + 1 else 0
    let s := (s.fset TIK_OFFSET_OFFSET 0 ((sat + 4294967296).toNat % 2 ^ 32))
    let s := { s with clk := { s.clk with measured := true, off := offset, corr := 0, inLock := k, adj := s.slew (Config.servo n) } }
    .next (if st = discAcq ∧ 16 ≤ k then s.discTo discLocked else s)

/-- The ports a search tries, in its order (R26): that of SRC_DIE unless it is the port lost, then those of the other dies,
ascending (DEDUCED, log entry 98). -/
def State.searchOrder (s : State) : List Nat :=
  let lost := s.fget TIK_STATUS_SRC_ACT 0
  let first := s.fget TIK_CTRL_SRC_DIE 0
  (if first = lost ∨ s.nDies ≤ first then [] else [first])
    ++ (List.range s.nDies).filter (fun d => d != first && d != lost)

/-- The port a search finds among those on which a time transmitter is heard, with its announce interval (R26). -/
def State.searchFinds (s : State) (heard : List (Nat × Int)) : Option (Nat × Int) :=
  (s.searchOrder.findSome? (fun d => heard.find? (fun e => e.1 == d)))

/-- SRC_CHANGE (R26): `heard` names the ports on which an Announce message of the domain is heard, with its
logMessageInterval (DEDUCED, log entry 98). -/
def execSrcChange (heard : List (Nat × Int)) (t : Nat) (s : State) : Host.Outcome State Fault Refusal :=
  let s := s.advanceTo t
  if !s.clk.searching || !s.fbit TIK_CTRL_FAILOVER 0 then .next s
  else
    match s.searchFinds heard with
    | none => .next s
    | some (d, logInt) =>
      let s := { s with clk := { s.clk with annLog := logInt, annAt := s.clk.tNs } }
      .next (((s.fset TIK_STATUS_SRC_ACT 0 d).evtPkg TIK_EVENT_SRC_CHANGE).discTo discAcq)

/-- HOLD_LIMIT_EXPIRY (R22, R27). -/
def execHoldLimitExpiry (t : Nat) (s : State) : Host.Outcome State Fault Refusal :=
  let s := s.advanceTo t
  if s.fget TIK_STATUS_STATE 0 = discHold ∧ s.holdOver = true then
    let looking := s.clk.searching
    let s := s.discTo discUnsync
    .next { s with clk := { s.clk with searching := looking } }
  else .next s

/-- DISC_EN_CLEAR (R22). -/
def execDiscEnClear (via : Via) (s : State) : Host.Outcome State Fault Refusal :=
  .next (regWrite via (TIK_CTRL_DISC_EN.at_ 0) s (fun s => (s.fset TIK_CTRL_DISC_EN 0 0).discTo discFree))

/-- STEP_NOW (R24): the counter loses what remains of the last measured offset; shutter lists begin again at the next multiple of
CYCLE of the new time (R405) (DEDUCED, log entry 84). -/
def execStepNow (via : Via) (s : State) : Host.Outcome State Fault Refusal :=
  .next (regWrite via (TIK_CTRL_STEP_NOW.at_ 0) s (fun s =>
    if s.anyGen || !s.clk.measured then s.evtPkg TIK_EVENT_STEP_REFUSED
    else
      let left : Int := s.clk.off * nsUnit + s.clk.corr
      let now : Int := max 0 (s.clk.total 0 - left)
      let t := (now / nsUnit).toNat
      let s := { s with clk := { s.clk with tNs := t, sub := (now % nsUnit).toNat, off := 0, corr := 0 } }
      let s := s.fset TIK_OFFSET_OFFSET 0 0
      (List.range s.nDies).foldl (fun (s : State) d =>
        let cy := (s.lnk d).shut.cycle
        if cy = 0 then s else s.modLnk d (fun l => { l with entryT := (t / cy + 1) * cy })) s))

/-! ### The reference clock (R586) -/

/-- TIME_REFCLK_LOSS: the counter runs from SYS_REFCLK, in the same discipline state. -/
def execTimeRefclkLoss (t : Nat) (s : State) : Host.Outcome State Fault Refusal :=
  let s := s.advanceTo t
  .next { s with clk := { s.clk with refLost := true } }

/-- TIME_REFCLK_RETURN. -/
def execTimeRefclkReturn (t : Nat) (s : State) : Host.Outcome State Fault Refusal :=
  let s := s.advanceTo t
  .next { s with clk := { s.clk with refLost := false } }

/-! ### Reading the counter (R56) -/

/-- TIK_TIME_NS read: the whole counter is latched. -/
def State.readTimeNs (s : State) : Nat × State :=
  let ns := (s.clk.total 0 / nsUnit).toNat
  let sec := ns / secNs
  let s := (s.fset TIK_TIME_SEC_LO_SEC_LO 0 sec).fset TIK_TIME_SEC_HI_SEC_HI 0 (sec / 2 ^ 32)
  (ns % secNs, s.fset TIK_TIME_FRAC_FRAC 0 ((s.clk.total 0 % nsUnit).toNat / 2 ^ 32))

/-- TIK_TIME_NS_READ. -/
def execTikTimeNsRead (via : Via) (s : State) : Host.Outcome State Fault Refusal :=
  .next (regRead via (TIK_TIME_NS_NS.at_ 0) s State.readTimeNs)

/-- TIK_TICK_LO read: TIK_TICK_HI of the partition is latched. -/
def State.readTickLo (s : State) (p : Nat) : Nat × State :=
  (s.tickNo p % 2 ^ 32, s.fset TIK_TICK_HI_TICK_HI p (s.tickNo p / 2 ^ 32))

/-- TIK_TICK_LO_READ. -/
def execTikTickLoRead (p : Nat) (via : Via) (s : State) : Host.Outcome State Fault Refusal :=
  if 8 ≤ p then .next s
  else .next (regRead via (TIK_TICK_LO_TICK_LO.at_ p) s (fun s => s.readTickLo p))

end Sys2Proof.Machine
end

