-- ==== Sys2Proof/Machine/Power.lean ====
section
/-!
DEFINITION. Sys2Proof/Machine/Power.lean: resets and boot, supply monitors, adaptive voltage, power states, hold-up, and the
sensors of the package (R287 to R290, R444, R499 to R525, R572, R573, R580, R587, R590).
-/
namespace Sys2Proof.Machine

/-! ### Boot (R433, R444, R445) -/

/-- Whether the recorded mode takes effect (R433). -/
def State.approvedNext (s : State) : Bool := s.sec.mode && s.fbit SEC_FUSE_DEBUG_SEAL 0 && s.fget SEC_FUSE_OWNER 0 != 0

/-- A stack that fails training is fenced (R471). -/
def State.trainFail (s : State) (d : Nat) (bad : Nat) : State :=
  (bitsOf 3 bad).foldl (fun (s : State) k => (s.evtDie MEM_EVENT_TRAIN_FAIL d).hwFence uStack d k) s

/-- Dies that the boot starts (R444, R584): one whose rails do not come up stays in P3, and DATA = FENCED is filed for it. -/
def State.startDies (s : State) : State :=
  let bad := s.pwr.railBad
  let s := s.modPwr (fun x => { x with railBad := 0 })
  (List.range s.nDies).foldl (fun (s : State) d =>
    let s := s.railsOn d
    if bad.testBit d then ((s.railsOff d 3).fset DPM_STATUS_STATE d 3).hwFence uDie d 0 else s.dieStart d) s

/-- The boot ROM's steps (R444). -/
def State.boot (s : State) (code : Nat) : State :=
  let fuse := s.fget SEC_FUSE_OWNER 0
  let s := (s.fput SEC_STATUS_OWNER_SET 0 (fuse != 0)).fset SEC_STATUS_DEBUG_SEALED 0 (s.fget SEC_FUSE_DEBUG_SEAL 0)
  if code ≠ 0 then s.moduleError code
  else
    let order := [s.sec.fwSel, 1 - s.sec.fwSel]
    match order.findSome? (fun k => (tget s.sec.slots k).bind (fun i => if s.slotOk i then some (k, i) else none)) with
    | none => s.moduleError 0x40
    | some (k, i) =>
      let ok := s.approvedNext
      let s := s.logTest 0 0 0 0
      let s := { s with sec := { s.sec with running := some i } }
      let s := ((s.fset SEC_STATUS_BOOT_SLOT 0 k).fset SEC_SVN_SVN_RUN 0 i.svn).fset SYS_FWVER_VERSION 0 i.fwVer
      let s := (s.fset SYS_RCPVER_VERSION 0 i.rcpVer).fput SEC_STATUS_APPROVED 0 ok
      let s := if s.sec.mode && !ok then s.evtPkg SEC_EVENT_AUTH_FAIL else s
      let s := (s.fput SEC_STATUS_MODE_PENDING 0 (s.sec.mode != ok)).fset SEC_STATUS_READY 0 1
      let s := (s.fset PWR_STATUS_READY 0 1).fset SVC_STATUS_ROM 0 0
      if s.pwr.bootWait then s else s.startDies

/-! ### Package resets (R516, R518, R520, R521) -/

/-- Fields that no reset returns to their reset values (R521) (DESIGN CHOICE, log entry 3). -/
def fusedField (off lo : Nat) : Bool :=
  off == SYS_IDENT_PART.off || off == SYS_CAPS_DIE_PRESENT.off || off == SYS_STRAP_SMB_ADDR.off
    || (off == RAS_MCTP_SMB_ADDR.off && lo == RAS_MCTP_SMB_ADDR.lo)
    || (decide (SEC_SERIAL_SERIAL.off ≤ off) && decide (off < SEC_SERIAL_SERIAL.off + 16)) || off == SEC_FUSE_OWNER.off
    || (off == SEC_SVN_SVN_MIN.off && lo == SEC_SVN_SVN_MIN.lo)

/-- A package cold or power-on reset, up to boot: `power` says that power was lost (R516, R519 to R521) (DESIGN CHOICE, log entry 3). -/
def State.coldClear (s : State) (power : Bool) : State :=
  let low := s.fbit PWR_STATUS_PWR_LOSS 0
  let last := s.fget PWR_STATUS_LAST_RESET 0
  let s := if s.approvedNext.toNat = s.fget SEC_STATUS_APPROVED 0 then s else s.zeroizeAll.2
  let s := s.removalsLost.recall
  let s := (List.range s.nDies).foldl (fun (s : State) d => s.dieZero d power) s
  let s := s.clearRegs (fun off lo => !fusedField off lo)
  let s := { s with
    parts := [], fns := [], csms := [], stgs := [], wkts := [], lnks := [], pmcs := [], evNew := [], force := [], hbm := []
    ftls := dmap Ftl.init (fun _ f => { f with chans := [], outCh := [], hold := .free, lun := [], restored := false, ckptRun := false }) s.ftls
    sec := { s.sec with gens := [], keys := [], running := none, reports := [], zeroBands := [] }
    ras := { Ras.init with retired := s.ras.retired }
    pwr := { Pwr.init with
      trip := s.pwr.trip && !power, pps := s.pwr.pps, lossT := s.pwr.lossT, bootWait := low, en := if power then [] else s.pwr.en
      railBad := s.pwr.railBad }
    svc := { Svc.init with
      log := if power then [] else s.svc.log
      tapIr := if power then 1 else s.svc.tapIr
      boundary := if power then [] else s.svc.boundary
      drive := if power then .normal else s.svc.drive } }
  let clk := { Clock.init with refLost := s.clk.refLost }
  let s := { s with clk := if power then clk else { clk with tNs := s.clk.tNs, sub := s.clk.sub } }
  let s := (s.fput PWR_STATUS_PWR_LOSS 0 low).showRemovals
  let s := if power then s else s.fset PWR_STATUS_LAST_RESET 0 last
  let l := match s.svc.log.getLast? with | some e => e.2.2 | none => 0
  s.fset SVC_STATUS_LAST_CODE 0 l

/-- A package cold reset; leaving ERROR is recorded as such (R434, R523) (DEDUCED, log entry 52). -/
def State.coldReset (s : State) (last code : Nat) : State :=
  let last := if s.fbit SEC_STATUS_ERROR 0 then 5 else last
  let s := s.coldClear false
  (if last = 0 then s else s.fset PWR_STATUS_LAST_RESET 0 last).boot code

/-- A strap as sampled: an open one reads a free value (R589). -/
def State.strap (s : State) (b : Option Bool) : Nat × State := match b with | some b => (b.toNat, s) | none => s.sensed 1

/-- The straps sampled at power-on (R589). -/
def State.sampleStraps (s : State) (x : Straps) : State :=
  let (a, s) := s.strap x.smb0
  let (b, s) := s.strap x.smb1
  let (c, s) := s.strap x.smb2
  let (q, s) := s.strap x.spiQuad
  (s.fset RAS_MCTP_SMB_ADDR 0 (0x58 + a + 2 * b + 4 * c)).fset SYS_STRAP_SPI_QUAD 0 q

/-- POWER_ON_RESET: THERMTRIP_N is released (R590), and the straps are sampled. -/
def execPowerOnReset (lossLow : Bool) (code : Nat) (straps : Straps) (rails : Nat) (s : State) : Host.Outcome State Fault Refusal :=
  let trip := s.pwr.trip
  let s := (s.fput PWR_STATUS_PWR_LOSS 0 lossLow).modPwr (fun x => { x with railBad := rails })
  let s := (s.coldClear true).sampleStraps straps
  let s := if trip then s.emit (.pin 0 1) else s
  .next ((s.fset PWR_STATUS_LAST_RESET 0 1).boot code)

/-- No flash program is in progress, no partial parity is left to program and no journal record waits (R288 event 5). -/
def State.quiescent (s : State) : Bool :=
  (List.range s.nDies).all (fun d =>
    let f := s.ftl d
    f.lun.all (fun e => match e.2.1 with | .prog _ _ _ | .anchor => false | .erase _ => true)
      && !f.objs.any (fun o => o.kind == 7 && o.st == .programming) && f.jpend.isEmpty && f.jpages.isEmpty)

/-- A cold reset deferred by PWR_LOSS_N takes place (R587). -/
def State.deferred (s : State) : State :=
  match s.pwr.coldWait with
  | none => s
  | some code => s.coldReset 2 code

/-- PACKAGE_COLD_RESET (R516, R587) (DEDUCED, log entry 52). -/
def execPackageColdReset (by_ : ColdBy) (code t : Nat) (s : State) : Host.Outcome State Fault Refusal :=
  let s := s.advanceTo t
  match by_ with
  | .write via key => .next (regWrite via (PWR_CTRL_COLD.at_ 0) s (fun s => if key = 0x5EB7 then s.coldReset 3 code else s))
  | .pin =>
    if s.fbit PWR_STATUS_PWR_LOSS 0 then
      let s := s.modPwr (fun x => { x with coldWait := some code })
      .next (if s.quiescent then s.deferred else s)
    else .next (s.coldReset 2 code)

/-- DEFERRED_COLD_RESET: 4 ms after qualification (R587). -/
def execDeferredColdReset (t : Nat) (s : State) : Host.Outcome State Fault Refusal :=
  let s := s.advanceTo t
  match s.pwr.lossT with
  | some q => if q + 4000000 ≤ s.clk.tNs then .next s.deferred else .next s
  | none => .next s.deferred

/-- FLASH_PROGRAM_DONE (R266): a deferred cold reset takes place once flash is quiescent (R587). -/
def execFlashProgramDone (d band stripe member : Nat) (ok : Bool) (ns : Nat) (s : State) : Host.Outcome State Fault Refusal :=
  let s := s.programDone d band stripe member ok ns
  .next (if s.quiescent then s.deferred else s)

/-- JOURNAL_PAGE_DURABLE (R277): a deferred cold reset takes place once flash is quiescent (R587). -/
def execJournalPageDurable (d i ns : Nat) (s : State) : Host.Outcome State Fault Refusal :=
  let s := s.journalPage d i ns
  .next (if s.quiescent then s.deferred else s)

/-- Registers that a package warm reset returns to their reset values, besides those of a die reset (R521). -/
def warmField (off lo : Nat) : Bool :=
  (decide (0x20000 ≤ off) && decide (off < 0x30000)) || (decide (0x80000 ≤ off) && decide (off < 0x90000))
    || (decide (0x70040 ≤ off) && decide (off < 0x70060))
    || (decide (0x70104 ≤ off) && decide (off < 0x70300) && (off - 0x70100) % 0x40 != 0 && isRo off lo)

/-- A package warm reset (R518): every die follows its P3 exit, host ports retrain, and the time counter goes to HOLDOVER (DEDUCED, log entry 54). -/
def State.warmReset (s : State) (last : Nat) : State :=
  let s := (s.svcAbort).endStatics
  let s := (List.range s.nDies).foldl (fun (s : State) d => s.dieZero d false) s
  let s := s.clearRegs warmField
  let s := { s with
    fns := [], pmcs := [], evNew := tfilter (fun o _ => decide (0x30000 ≤ o ∨ o < 0x20000)) s.evNew
    parts := dmap Part.init (fun _ p => { p with
      outst := [], lostGrads := [], sealing := false
      ctxs := tmap (fun _ c => { c with destroying := none }) p.ctxs }) s.parts
    ras := { s.ras with
      losses := s.ras.losses.map (fun x => { x with ledger := [], descs := [], images := [], assign := none })
      units := tmap (fun _ r => { r with desc := none }) s.ras.units
      corrected := [], ueT := [], ue := [], replays := [] } }
  let s := (List.range 8).foldl (fun (s : State) p => if s.sealed p then s else s.fset PTN_CTRL_SEAL p 0) s
  let s := (s.fset PWR_STATUS_LAST_RESET 0 last).fset PWR_STATUS_READY 0 1
  let s := s.ptpLost
  (List.range s.nDies).foldl (fun (s : State) d => if (s.row uDie d 0).lost then (s.dieTest d).countWickets d else s.dieStart d) s

/-- PACKAGE_WARM_RESET. -/
def execPackageWarmReset (via : Via) (key t : Nat) (s : State) : Host.Outcome State Fault Refusal :=
  let s := s.advanceTo t
  .next (regWrite via (PWR_CTRL_WARM.at_ 0) s (fun s => if key = 0x5EB7 then s.warmReset 6 else s))

/-! ### Die reset (R516) -/

/-- A die reset: a die of a partition is lost first; another is LOST until its self-test passes (DEDUCED, log entry 53). -/
def State.resetDie (s : State) (d bad : Nat) : State :=
  if s.nDies ≤ d then s
  else if (s.owner d).isSome then (s.loseDie d 8).trainFail d bad
  else
    let old := s.unitState uDie d 0
    let units := s.dieStates d
    let s := s.modRow uDie d 0 (fun r => { r with lost := true, testing := false, passed := false })
    let s := ((s.noteUnit uDie d 0 old usLOST 7).dieUnits d 7 units).fset RAS_DIE_STATE_STATE d usLOST
    let s := ((s.fputAt RAS_STATUS_DIES_LOST 0 d true).countWickets d).fabricDown d
    let s := match s.hostPortOf d with | some x => s.portOut x | none => s
    ((s.dieZero d false).dieTest d).trainFail d bad

/-- DIE_RESET: the keyed write; a die served from its shadow takes none (R566). -/
def execDieReset (d : Nat) (via : Via) (key bad t : Nat) (s : State) : Host.Outcome State Fault Refusal :=
  let s := s.advanceTo t
  .next (regWrite via (DPM_CTRL_RESET.at_ d) s (fun s => if key = 0x5EB7 ∧ s.shadowed d = false then s.resetDie d bad else s))

/-! ### Supply monitors (R505 to R510) -/

def State.dom (s : State) (k : Nat) : Dom := dget s.pwr.doms Dom.init k
def State.modDom (s : State) (k : Nat) (f : Dom → Dom) : State :=
  s.modPwr (fun x => { x with doms := dset x.doms Dom.init k (f (s.dom k)) })

/-- Setpoint in force of a domain, mV (R501); in P2 LOG and SRM stand at their retention values (R583). -/
def State.setpoint (s : State) (k : Nat) : Nat :=
  if 6 * s.nDies ≤ k then 800
  else if k % 6 = 0 then s.fget DPM_VOLT_CAS (k / 6)
  else if k % 6 = 1 then (if s.fget DPM_STATUS_STATE (k / 6) = 2 then 600 else s.fget DPM_VOLT_LOG (k / 6))
  else if k % 6 = 2 ∧ s.fget DPM_STATUS_STATE (k / 6) = 2 then 650
  else [700, 750, 800, 900, 1200, 850].getD (k % 6) 0

/-- Domains whose warning a die heeds: its own six, AON and SEC (R506, R507). -/
def State.domsOf (s : State) (d : Nat) : List Nat := (List.range 6).map (fun k => 6 * d + k) ++ [6 * s.nDies, 6 * s.nDies + 1]

/-- A die's flash is held, or goes on: bands past the stripes whose partial parity was written, and with what waited (R288, R290, R434,
R506, R508). -/
def State.holdFlash (s : State) (d : Nat) : State :=
  let s := s.modFtl d (fun f => { f with hold := s.holdOf d })
  if (s.ftl d).hold = .free then ((s.pastParity d).resumeTasks d).gcAdvance d else s

/-- A die pauses (R506) (DEDUCED, log entry 53). -/
def State.pauseDie (s : State) (d : Nat) : State :=
  let s := (s.fset DPM_STATUS_WARN d 1).evtDie DPM_EVENT_WARN d
  let s := if s.fbit DPM_STATUS_PAUSED d then s
    else (s.fset DPM_STATUS_PAUSED d 1).modPwr (fun x => { x with pauseT := tput x.pauseT d (s.clk.tNs, s.clk.tNs) })
  s.holdFlash d

/-- Whether `mv` lies below `pct` hundredths of a domain's setpoint in force: 96 is its warning level, 92 its reset level, 97 its
recovery level (R505) (DEDUCED, log entry 147). -/
def State.below (s : State) (k mv pct : Nat) : Bool := decide (100 * mv < pct * s.setpoint k)

/-- SUPPLY_WARNING, at its qualification: nothing happens above the warning level (R505) (DEDUCED, log entry 55; DEDUCED, log entry 147). -/
def execSupplyWarning (dom mv t : Nat) (s : State) : Host.Outcome State Fault Refusal :=
  let s := s.advanceTo t
  if 6 * s.nDies + 2 ≤ dom ∨ s.below dom mv 96 = false then .next s
  else
    let now := s.clk.tNs
    let s := s.modDom dom (fun x => { x with low := min x.low mv, cur := min x.cur mv, warn := true, warnT := if x.warn then x.warnT else now, lastT := now })
    let s := s.fset PWR_STATUS_WARN_ANY 0 1
    let dies := if 6 * s.nDies ≤ dom then List.range s.nDies else [dom / 6]
    .next (dies.foldl (fun (s : State) d => (s.pauseDie d).pmc d 0x1B 1 0 none) s)

/-- The Casement of a die resumes: paused cycles leave the sweep's actual cycles (R508, R509). -/
def State.resumeDie (s : State) (d : Nat) : State :=
  let s := match tget s.pwr.pauseT d with
    | none => s
    | some (_, p) =>
      let dt := s.clk.tNs - p
      let s := s.fadd DPM_PAUSE_CYC_CYCLES d (dt * 8 / 5)
      match s.running? d with
      | none => s
      | some w => s.modSweep d w.id (fun w => { w with paused := w.paused + (s.clk.tNs - max p w.startT) })
  let s := (s.fset DPM_STATUS_WARN d 0).fset DPM_STATUS_PAUSED d 0
  ((s.modPwr (fun x => { x with pauseT := tdel x.pauseT d })).modCsm d (fun c => { c with freeT := s.clk.tNs })).holdFlash d

/-- Payload of SUPPLY_DIP (R522). -/
def dipBytes (dom outcome mv ns set : Nat) : List Byte :=
  le 1 dom ++ le 1 outcome ++ le 2 (min mv 0xFFFF) ++ le 4 (min ns 0xFFFFFFFF) ++ le 2 set

/-- The domain of a list that went to warning first. -/
def State.firstWarned (s : State) (l : List Nat) : Option Nat := leastBy (fun k => (s.dom k).warnT) (l.filter (fun k => (s.dom k).warn))

/-- A domain's warning ends: its dip is captured (R508, R523), and the cycles of the monitor in warning counted (DEDUCED, log entry 147). -/
def State.endDip (s : State) (k : Nat) : State :=
  let x := s.dom k
  let dt := s.clk.tNs - x.warnT
  let s := s.modDom k (fun x => { x with warn := false, cur := 0xFFFF, dipDur := min (dt / 100) 0xFFFF, dipLow := x.cur })
  if k < 6 * s.nDies then s.pmc (k / 6) 0x1B 0 (dt / 20) none
  else (List.range s.nDies).foldl (fun (s : State) d => s.pmc d 0x1B 0 (dt / 20) none) s

/-- SUPPLY_RECOVERY: of the warned domains of a die, or of AON and SEC when `d` is the number of dies, once 10 µs have passed since
the latest warning and each has stayed above its recovery level (R508) (DEDUCED, log entry 55; DEDUCED, log entry 147). -/
def execSupplyRecovery (d : Nat) (lows : List (Nat × Nat × Nat)) (t : Nat) (s : State) : Host.Outcome State Fault Refusal :=
  let s := s.advanceTo t
  if s.nDies < d then .next s
  else
    let mine := if d = s.nDies then [6 * d, 6 * d + 1] else (List.range 6).map (fun k => 6 * d + k)
    let s := lows.foldl (fun (s : State) e =>
      if mine.contains e.1 && (s.dom e.1).warn then s.modDom e.1 (fun x => { x with low := min x.low e.2.1, cur := min x.cur e.2.1 }) else s) s
    let early := mine.any (fun k => (s.dom k).warn && decide (s.clk.tNs < (s.dom k).lastT + 10000))
    if early || lows.any (fun e => mine.contains e.1 && (s.dom e.1).warn && s.below e.1 e.2.2 97) then .next s
    else
    match s.firstWarned mine with
    | none => .next s
    | some k =>
      let x := s.dom k
      let b := dipBytes k 0 x.cur (s.clk.tNs - x.warnT) (s.setpoint k)
      let s := mine.foldl (fun (s : State) k => if (s.dom k).warn then s.endDip k else s) s
      let s := if d = s.nDies then s.sealedEvent 0xA0 b else s.dieEvent d 0xA0 b
      let s := (s.evtPkg PWR_EVENT_DIP).fadd PWR_DIPS_COUNT 0 1
      let s := s.fput PWR_STATUS_WARN_ANY 0 (s.pwr.doms.any (fun e => e.2.warn))
      let dies := if d = s.nDies then List.range s.nDies else [d]
      .next (dies.foldl (fun (s : State) e =>
        if s.fbit DPM_STATUS_WARN e && (s.domsOf e).all (fun k => !(s.dom k).warn) then s.resumeDie e else s) s)

/-- SUPPLY_RESET (R510): nothing happens above the reset level (R505) (DEDUCED, log entry 52). -/
def execSupplyReset (dom mv code t : Nat) (s : State) : Host.Outcome State Fault Refusal :=
  let s := s.advanceTo t
  if 6 * s.nDies + 2 ≤ dom ∨ s.below dom mv 92 = false then .next s
  else
    let x := s.dom dom
    let dur := if x.warn then s.clk.tNs - x.warnT else 0
    let s := s.modDom dom (fun x => { x with low := min x.low mv, dipLow := min x.cur mv, dipDur := min (dur / 100) 0xFFFF })
    let b := dipBytes dom 1 (min x.cur mv) dur (s.setpoint dom)
    let s := if dom < 6 * s.nDies then s.dieEvent (dom / 6) 0xA0 b else s.sealedEvent 0xA0 b
    let s := (s.evtPkg PWR_EVENT_SUPPLY_RESET).fadd PWR_SUPPLY_RESETS_COUNT 0 1
    if dom = 6 * s.nDies then .next (((s.coldClear true).fset PWR_STATUS_LAST_RESET 0 1).boot code)
    else if dom = 6 * s.nDies + 1 then .next (s.coldReset 0 code)
    else
      let d := dom / 6
      let s := ((List.range 6).map (fun k => 6 * d + k)).foldl (fun (s : State) k => s.modDom k (fun x => { x with warn := false, cur := 0xFFFF })) s
      let s := s.fput PWR_STATUS_WARN_ANY 0 (s.pwr.doms.any (fun e => e.2.warn))
      let s := if (s.owner d).isSome then s.loseDie d 7 else s.resetDie d 0
      .next (s.holdFlash d)

/-! ### Adaptive voltage (R511, R512) -/

/-- A setpoint moved toward the margin within its bounds, and whether it would have gone beyond one. -/
def avsMove (now vmin vmax step target margin : Nat) : Nat × Bool :=
  let want : Int := if margin < target then now + step else if target < margin then (now : Int) - step else now
  let held := max (vmin : Int) (min (vmax : Int) want)
  (held.toNat, held != want)

/-- The tick in which a die's VOLTAGE loop counts (R512), plus 1. -/
def State.avsNow (s : State) (d : Nat) : Nat := s.tickNo ((s.owner d).getD 0) + 1

/-- A level sensed and captured by the histogram units of a partition that watch domain `k` (R540). -/
def State.level (s : State) (d k : Nat) : State :=
  let (n, s) := s.draw
  s.hist d 10 k (Config.sense n % 2 ^ 16)

/-- Levels captured in the 10 µs of a step, one each 1 µs, for each domain that a unit of the die watches (R540) (DESIGN CHOICE, log entry 56). -/
def State.levels (s : State) (d : Nat) : State :=
  match s.owner d with
  | none => s
  | some p =>
    let ks := (((s.pmcOf p).hists.filter (fun e => e.1 / 4 == d && e.2.cfg / 2 ^ 16 % 256 == 10)).map (fun e => e.2.cfg / 2 ^ 24)).eraseDups
    ks.foldl (fun s k => (List.range 10).foldl (fun (s : State) _ => s.level d k) s) s

/-- The adaptive setpoints of a die (R511, R583). -/
def State.setVolts (s : State) (d cas log : Nat) : State :=
  let s := s.avsTo d 0 (s.fget DPM_VOLT_CAS d) cas
  let s := s.avsTo d 1 (s.fget DPM_VOLT_LOG d) log
  (s.fset DPM_VOLT_CAS d cas).fset DPM_VOLT_LOG d log

/-- AVS_STEP: writes of the DPM_AVS registers take effect here (R525) (DESIGN CHOICE, log entry 56). -/
def execAvsStep (d cas log t : Nat) (s : State) : Host.Outcome State Fault Refusal :=
  let s := s.advanceTo t
  if s.nDies ≤ d ∨ s.shadowed d then .next s
  else
    let keys := [DPM_AVS_CAS_VMIN, DPM_AVS_CAS_VMAX, DPM_AVS_LOG_VMIN, DPM_AVS_LOG_VMAX, DPM_AVS_CFG_EN, DPM_AVS_CFG_STEP, DPM_AVS_CFG_MARGIN]
    let s := s.applyForce (keys.map (fun F => F.key d))
    let s := s.levels d
    if s.fbit DPM_STATUS_WARN d then .next s
    else if !s.fbit DPM_AVS_CFG_EN d || s.pwr.hold.contains d then .next (s.setVolts d 700 750)
    else
      let step := s.fget DPM_AVS_CFG_STEP d
      let m := s.fget DPM_AVS_CFG_MARGIN d
      let a := avsMove (s.fget DPM_VOLT_CAS d) (s.fget DPM_AVS_CAS_VMIN d) (s.fget DPM_AVS_CAS_VMAX d) step m cas
      let b := avsMove (s.fget DPM_VOLT_LOG d) (s.fget DPM_AVS_LOG_VMIN d) (s.fget DPM_AVS_LOG_VMAX d) step m log
      let s := s.setVolts d a.1 b.1
      if (a.2 || b.2) && dget s.pwr.avsTick 0 d != s.avsNow d then
        let s := s.modPwr (fun x => { x with avsTick := dset x.avsTick 0 d (s.avsNow d) })
        let s := (s.fadd DPM_PINNED_TICKS d 1).evtDie DPM_EVENT_PINNED d
        .next (s.adaptPinned d 5 (s.fget DPM_PINNED_TICKS d))
      else .next s

/-! ### Power states (R502 to R504) -/

/-- Whether a request for P2 or P3 is refused (R504). -/
def State.refuseState (s : State) (d : Nat) : Bool :=
  (s.owner d).isSome || (s.hostPortOf d).isSome || (List.range 16).any (fun c => (s.ftl (twin d)).chan c == .twinRo)

/-- A change of power state requested; P1 and P0 answer a request for P0 alike. -/
def State.requestState (s : State) (d req : Nat) : State :=
  let want := if req = 1 then 0 else req
  let now := s.fget DPM_STATUS_STATE d
  if s.dieLost d ∨ s.nDies ≤ d then s
  else if 2 ≤ want && s.refuseState d then s.evtDie DPM_EVENT_REFUSED d
  else if (now = want ∨ (want = 0 ∧ now = 1)) ∧ (tget s.pwr.target d).isNone then s
  else
    let s := (s.fset DPM_STATUS_TRANSITION d 1).modPwr (fun x =>
      { x with target := tput x.target d (4 * want + 1), moveT := tput x.moveT d s.clk.tNs })
    if want = 0 then s.railsBack d now
    else if want = 3 then (s.enable d 1 false).enable d 2 false
    else s

/-- STATE_REQ. -/
def execStateReq (d req : Nat) (via : Via) (s : State) : Host.Outcome State Fault Refusal :=
  .next (regWrite via (DPM_CTRL_STATE_REQ.at_ d) s (fun s => (s.fset DPM_CTRL_STATE_REQ d (req % 4)).requestState d (req % 4)))

/-- A die enters P2 or P3: its ports stop, its rails fall, and P3 keeps nothing on it (R502, R520, R583, R585) (DEDUCED, log entry 53). -/
def State.sleepDie (s : State) (d st : Nat) : State :=
  let s := (s.fabricDown d).railsOff d st
  let s := if st = 2 then (s.avsTo d 1 (s.fget DPM_VOLT_LOG d) 600).avsTo d 2 800 650 else s
  if st = 3 then (s.staticDie d).forgetDie d else s

/-- A die wakes: from P3 it starts from its shadow (R515, R520, R521, R584). -/
def State.wakeDie (s : State) (d old code : Nat) : State :=
  let s := s.railsOn d
  if old = 3 then
    let s := (s.dieZero d true).dieStart d
    if code = 0 then s else s.moduleError code
  else s.modPwr (fun x => { x with waitTick := if x.waitTick.contains d then x.waitTick else x.waitTick ++ [d] })

/-- ns that a change of power state takes at least: 1 ms between the enables on the way to P3, 2 ms on the way from it (R584,
R585). -/
def moveNs (old st : Nat) : Nat := if st = 3 then 1000000 else if old = 3 then 2000000 else 0

/-- POWER_STATE_CHANGE: a change whose grounds for refusal have come up meanwhile is refused (R504). -/
def execPowerStateChange (d code t : Nat) (s : State) : Host.Outcome State Fault Refusal :=
  let s := s.advanceTo t
  match tget s.pwr.target d with
  | none => .next s
  | some x =>
    let old := s.fget DPM_STATUS_STATE d
    let st := x / 4
    if s.clk.tNs < (tget s.pwr.moveT d).getD 0 + moveNs old st then .next s
    else
    let s := (s.modPwr (fun x => { x with target := tdel x.target d, moveT := tdel x.moveT d })).fset DPM_STATUS_TRANSITION d 0
    if 2 ≤ st && s.refuseState d then .next ((s.railsOn d).evtDie DPM_EVENT_REFUSED d)
    else
    let s := if 2 ≤ st then s.sleepDie d st else s.wakeDie d old code
    .next ((s.fset DPM_STATUS_STATE d old).powerTo d st (x % 4))

/-- MIN_CLR (R523). -/
def execMinClr (via : Via) (s : State) : Host.Outcome State Fault Refusal :=
  .next (regWrite via (PWR_CTRL_MIN_CLR.at_ 0) s (fun s =>
    let k := s.fget PWR_SEL_DOMAIN 0
    if 6 * s.nDies + 2 ≤ k then s else s.modDom k (fun x => { x with low := 0xFFFF })))

/-! ### PWR_LOSS_N (R288 to R290, R587) -/

/-- PWR_LOSS_QUALIFIED: every die holds its flash, and the journal is written out (DESIGN CHOICE, log entry 86). -/
def execPwrLossQualified (t : Nat) (s : State) : Host.Outcome State Fault Refusal :=
  let s := s.advanceTo t
  if s.fbit PWR_STATUS_PWR_LOSS 0 then .next s
  else
    let s := ((s.fset PWR_STATUS_PWR_LOSS 0 1).evtPkg PWR_EVENT_PWR_LOSS).modPwr (fun x => { x with lossT := some s.clk.tNs })
    let s := s.svcAbort.endStatics
    .next ((List.range s.nDies).foldl (fun (s : State) d => (((s.pastParity d).holdFlash d).issueJournal d).partialParity d) s)

/-- PWR_LOSS_RELEASE: flash goes on; dies that a boot held back start. -/
def execPwrLossRelease (t : Nat) (s : State) : Host.Outcome State Fault Refusal :=
  let s := s.advanceTo t
  if !s.fbit PWR_STATUS_PWR_LOSS 0 then .next s
  else
    let wait := s.pwr.bootWait
    let s := (s.fset PWR_STATUS_PWR_LOSS 0 0).modPwr (fun x => { x with lossT := none, bootWait := false })
    let s := (List.range s.nDies).foldl (fun (s : State) d => s.holdFlash d) s
    .next (if wait && s.fbit SEC_STATUS_READY 0 then s.startDies else s)

/-! ### Package pins and sensors (R572, R573, R580, R590) -/

/-- THERMTRIP (R590): a junction sensor at 115 °C or a stack's sensor at 105 °C trips. -/
def execThermtrip (d n temp : Nat) (s : State) : Host.Outcome State Fault Refusal :=
  if s.pwr.trip ∨ s.nDies ≤ d ∨ 7 ≤ n ∨ temp < (if n < 4 then 115 else 105) then .next s else .next ((s.modPwr (fun x => { x with trip := true })).emit (.pin 0 0))

/-- PPS_OUT: high for 100 ms from each instant at which NS is 0 (R580). -/
def execPpsOut (t : Nat) (s : State) : Host.Outcome State Fault Refusal :=
  let s := s.advanceTo t
  let up := decide (s.clk.tNs % secNs < 100000000)
  if s.pwr.pps == up then .next s else .next ((s.modPwr (fun x => { x with pps := up })).emit (.pin 1 up.toNat))

/-- STACK_HOT (R572). -/
def execStackHot (d k temp t : Nat) (s : State) : Host.Outcome State Fault Refusal :=
  let s := s.advanceTo t
  let hot := s.inForce MEM_REFRESH_HOT_C d
  let low := hot - s.inForce MEM_REFRESH_HYST_C d
  if 3 ≤ k ∨ s.nDies ≤ d ∨ s.shadowed d then .next s
  else if hot ≤ temp ∧ s.fbitAt MEM_STATUS_HOT d k = false then .next ((s.fputAt MEM_STATUS_HOT d k true).evtDie MEM_EVENT_HOT d)
  else if temp < low then .next (s.fputAt MEM_STATUS_HOT d k false)
  else .next s

/-- MEM_INJECT (R573): the address of the test row is the part's (DEDUCED, log entry 57). -/
def execMemInject (d : Nat) (via : Via) (s : State) : Host.Outcome State Fault Refusal :=
  .next (regWrite via (MEM_CTRL_INJECT.at_ d) s (fun s =>
    let k := let v := s.fget MEM_CTRL_INJ_STACK d; if v = 3 then 0 else v
    let n := max 1 (s.fget MEM_CTRL_INJ_SYMBOLS d)
    if s.shadowed d || !s.stackOn d k then s
    else
      let s := if n ≤ 2 then (s.fadd RAS_CE_HBM_COUNT d 1).pmc d 0x1A 1 1 none
        else
          let (x, s) := s.draw
          s.noteUe d 1 k (k * 2 ^ 36 + Config.place x % 2 ^ 36)
      s.evtDie MEM_EVENT_INJECT_SEEN d))

end Sys2Proof.Machine
end

