-- ==== Sys2Proof/Machine/Summary.lean ====
section
/-!
DEFINITION. Sys2Proof/Machine/Summary.lean: the summary record that a RESYNC writes (R342 to R347).
-/
namespace Sys2Proof.Machine

/-- An event entry with the given PHASE (R335). -/
def Event.bytes (e : Event) (phase : Bool) : List Byte :=
  (e.payload ++ zeros (16 - e.payload.length)).take 16 ++ le 8 e.tick ++ le 2 e.code ++ le 1 e.die ++ zeros 1 ++ le 2 e.seq
    ++ zeros 1 ++ le 1 (2 + phase.toNat)

/-- A section of the record (R346): type, bytes of an entry, entries. -/
structure Section where
  typ : Nat
  size : Nat
  entries : List (List Byte)

/-- A register word from its fields. -/
def State.wordOf (s : State) (i : Nat) (fs : List Fld) : Nat := fs.foldl (fun v F => v + s.fget F i * 2 ^ F.lo) 0

/-- Live sequences of a die. -/
def State.liveSeqs (s : State) (d : Nat) : Nat := ((s.pfx d).index.filter (fun e => e.2.live)).length

/-- The PARTITION entry (R347). -/
def State.sumPartition (s : State) (f p : Nat) : List Byte :=
  let dies := s.diesOf p
  le 1 p ++ le 1 (s.ptnState p) ++ le 1 (s.fget PTN_DIES_DIES p) ++ le 1 (dget s.sec.gens 0 p)
    ++ le 4 (s.wordOf p [PTN_BIND_A_EN, PTN_BIND_A_VF, PTN_BIND_B_EN, PTN_BIND_B_VF])
    ++ le 4 (s.wordOf p [TIK_PERIOD_N, TIK_PERIOD_SLOTS, TIK_PERIOD_EN])
    ++ le 4 (s.wordOf p [TIK_ADMIT_MODE, TIK_ADMIT_DEBT_GAIN, TIK_ADMIT_DEFER_MAX, TIK_ADMIT_CUTOFF])
    ++ le 4 (s.fget TIK_SCALE_NOW_SCALE p) ++ le 4 (s.part p).ctxs.length
    ++ le 4 (sumNat (dies.map s.liveSeqs)) ++ le 4 (sumNat (dies.map (fun d => (s.csm d).grads.length)))
    ++ le 2 (s.fget HRG_EVT_SEQ_NEXT f) ++ zeros 30

/-- Two bits for the state of a channel (R300). -/
def chCode : ChSt → Nat
  | .home => 0 | .twinRo => 1 | .returning => 2 | .fenced => 3

/-- Fenced wickets of a die. -/
def State.wktsFenced (s : State) (d : Nat) : Nat :=
  ((s.unitIdx uWicket d).filter (fun i => s.unitState uWicket d i == usFENCED)).length

/-- A DIE entry (R347). -/
def State.sumDie (s : State) (d : Nat) : List Byte :=
  let bit (F : Fld) (k : Nat) : Nat := s.fget F d * 2 ^ k
  le 1 d ++ le 1 (s.fget DPM_STATUS_STATE d) ++ le 1 (s.fget CSM_STATUS_PANE_ACT d + 16 * s.fget CSM_STATUS_ATM_ACT d)
    ++ le 1 ((s.dieDown d).toNat + bit FTL_STATUS_READY 1 + bit FTL_STATUS_READ_ONLY 2 + bit FTL_STATUS_TAKEN_OVER 3)
    ++ le 4 ((List.range 16).foldl (fun v c => v + chCode ((s.ftl d).chan c) * 4 ^ c) 0)
    ++ le 4 (s.epoch d) ++ le 4 (s.oldest d) ++ le 4 (s.fget TIK_DEBT_DEBT d) ++ le 4 (s.fget TIK_BUDGET_BUDGET d)
    ++ le 4 (s.freeSegs d) ++ le 4 (s.limboSegs d) ++ le 8 (s.ftl d).jseq ++ le 4 (s.fget CSM_SWEEP_ID_SWEEP d)
    ++ le 1 (s.fget RAS_DIE_STATE_STACKS d) ++ zeros 1 ++ le 2 (s.wktsFenced d) ++ zeros 16

/-- States of a ring as the record codes them. -/
def ringCode : RingState → Nat
  | .disabled => 0 | .active => 1 | .stopped => 2

/-- A RING entry (R347). -/
def State.sumRing (s : State) (f page : Nat) (r : Ring) : List Byte :=
  let cq := decide (128 ≤ page)
  let n := page % 128
  let out := if cq then s.reserved f n
    else ((s.part (fnPart f)).outst.filter (fun o => o.fn == f && o.sq == n && o.gen == (s.fn f).gen)).length
  le 1 (fnPort f) ++ le 1 cq.toNat ++ le 1 n ++ le 1 (ringCode r.st) ++ le 1 r.log2 ++ le 1 r.flags ++ le 1 r.link ++ zeros 1
    ++ le 8 r.base ++ le 4 r.head ++ le 4 r.tail ++ le 1 (cq && r.phase).toNat ++ zeros 3 ++ le 4 out
    ++ le 4 (if cq then r.dropped else 0) ++ zeros 28

/-- An OUTSTANDING entry (R347). -/
def Outst.bytes (o : Outst) : List Byte :=
  le 1 (fnPort o.fn) ++ le 1 o.sq ++ le 2 o.index ++ le 2 o.tag ++ le 1 o.op ++ le 1 (o.started.toNat + 2 * o.adopted.toNat)
    ++ le 8 o.tick ++ le 8 o.body0 ++ zeros 8

/-- The HINTS entries of a die, in deadline order (R239, R347). -/
def State.sumHints (s : State) (d : Nat) : List (List Byte) :=
  let l := (s.stg d).unmet
  (l.zip (s.bytesOf d [] l)).map (fun x =>
    le 4 x.1.tag ++ le 4 x.1.seq ++ le 8 x.1.deadline ++ le 4 (ceilDiv x.2 4096) ++ le 2 x.1.ctx ++ le 1 d
      ++ le 1 (x.1.unpark.toNat + 2 * x.1.port) ++ le 8 x.1.accTick)

/-- The KEYS entries of a die: VALID keys, and those whose revocation has not ended (R347, R369). -/
def State.sumKeys (s : State) (d : Nat) : List (List Byte) :=
  ((s.nrt d).keys.filter (fun e => e.2.st != .free)).map (fun e =>
    let dead := e.2.st == .dead
    le 4 (if dead then e.2.old else keyOfEntry d e.1 (s.entryGen d e.1)) ++ le 1 dead.toNat ++ zeros 3)

/-- The count registers of a die window, as (field, registers of its run), by ascending offset (R346) (DEDUCED, log entry 59). -/
def countFlds : List (Fld × Nat) :=
  [(CSM_SWEEPS_COUNT, 1), (CSM_TILES_COUNT, 1), (CSM_SKIPS_COUNT, 1), (CSM_MISMATCH_COUNT, 1), (CSM_RERUN_CYC_CYCLES, 1),
    (CSM_INTEGRITY_COUNT, 1), (CSM_RESDROP_COUNT, 1), (CSM_NONFINITE_COUNT, 1), (CSM_STALL_SUM_CYCLES, 1),
    (CSM_PANE_RETRY_COUNT, 4)]
  ++ [(ATM_CODED_LO_BYTES, 1), (ATM_CODED_HI_BYTES, 1), (ATM_RAW_LO_BYTES, 1), (ATM_RAW_HI_BYTES, 1), (ATM_PLAIN_LO_BYTES, 1),
    (ATM_PLAIN_HI_BYTES, 1), (ATM_BLOCKS_COUNT, 1), (ATM_RAWBLKS_COUNT, 1), (ATM_MISMATCH_COUNT, 1), (ATM_INTEGRITY_COUNT, 1),
    (ATM_REBUILDS_COUNT, 1), (ATM_LOSTPAGES_COUNT, 1), (ATM_SEALS_COUNT, 1), (ATM_SEAL_RAW_COUNT, 1), (ATM_SEAL_SAT_COUNT, 1),
    (ATM_SEAL_NAN_COUNT, 1), (ATM_STORE_HITS_COUNT, 1), (ATM_STORE_MISSES_COUNT, 1), (ATM_WAIT_CYCLES, 4)]
  ++ [(PFX_LOOKUPS_COUNT, 1), (PFX_HITS_COUNT, 1), (PFX_INSERTS_COUNT, 1), (PFX_DEDUPS_COUNT, 1), (PFX_EVICTS_COUNT, 1),
    (PFX_COLLIDES_COUNT, 1), (PFX_COWS_COUNT, 1), (PFX_PRIVATE_COUNT, 1), (PFX_TOKMISS_COUNT, 1), (PFX_SAT_COUNT, 1)]
  ++ [(STG_PINNED_TICKS, 1), (STG_HINTS_OK_COUNT, 1), (STG_HINTS_REFUSED_COUNT, 1), (STG_HINTS_MET_COUNT, 1),
    (STG_HINTS_MISSED_COUNT, 1), (STG_ADMIT_MISS_COUNT, 1), (STG_RELEASES_COUNT, 1), (STG_SPILLS_COUNT, 1), (STG_PARKS_COUNT, 1),
    (STG_EXPORTS_COUNT, 1), (STG_IMPORTS_COUNT, 1), (STG_REPLICA_DROPS_COUNT, 1)]
  ++ [(FTL_RETRIES_COUNT, 1), (FTL_SOFT_COUNT, 1), (FTL_REBUILDS_COUNT, 1), (FTL_UNCORR_COUNT, 1), (FTL_TAG_FAIL_COUNT, 1),
    (FTL_PROG_FAIL_COUNT, 1), (FTL_ERASE_FAIL_COUNT, 1), (FTL_GC_BANDS_COUNT, 1), (FTL_GC_DISCARD_COUNT, 1),
    (FTL_REFRESHES_COUNT, 1), (FTL_ORPHANS_COUNT, 1), (FTL_PINNED_COUNT, 1)]
  ++ [(NRT_PINNED_TICKS, 1), (NRT_TX_MSGS_COUNT, 1), (NRT_RX_MSGS_COUNT, 1), (NRT_RX_PKTS_COUNT, 1), (NRT_DUPS_COUNT, 1),
    (NRT_SNACKS_TX_COUNT, 1), (NRT_SNACKS_RX_COUNT, 1), (NRT_RETX_COUNT, 1), (NRT_ACCESS_COUNT, 1), (NRT_MALFORMED_COUNT, 1),
    (NRT_CTX_FULL_COUNT, 1), (NRT_FILTER_EVICT_COUNT, 1), (NRT_UNREACH_COUNT, 1)]
  ++ [(LNK_ICV_FAIL_COUNT, 1), (LNK_REPLAY_COUNT, 1), (LNK_NOSA_COUNT, 1), (LNK_UNPROT_COUNT, 1), (LNK_REKEYS_COUNT, 1),
    (LNK_POL_MARKS_COUNT, 1), (LNK_POL_DROPS_COUNT, 1), (LNK_GATE_DEFER_COUNT, 1), (LNK_LAT_OVER_COUNT, 1),
    (LNK_SHUT_SWAPS_COUNT, 1)]

/-- The value a count register has now; the byte counts of ATM are live (R215). -/
def State.countNow (s : State) (F : Fld) (d : Nat) : Nat :=
  let c := s.csm d
  if F = ATM_CODED_LO_BYTES then c.coded % 2 ^ 32
  else if F = ATM_CODED_HI_BYTES then c.coded / 2 ^ 32
  else if F = ATM_RAW_LO_BYTES then c.rawBytes % 2 ^ 32
  else if F = ATM_RAW_HI_BYTES then c.rawBytes / 2 ^ 32
  else if F = ATM_PLAIN_LO_BYTES then c.plain % 2 ^ 32
  else if F = ATM_PLAIN_HI_BYTES then c.plain / 2 ^ 32
  else s.fget F d

/-- The COUNTERS entries: TIK_PINNED, the TIK per-die registers, and the counts of the die windows, by ascending offset
(R346) (DEDUCED, log entry 59). -/
def State.sumCounters (s : State) (p : Nat) : List (List Byte) :=
  let one (off v : Nat) : List Byte := le 4 off ++ le 4 v
  let dies := s.diesOf p
  [one (TIK_PINNED_PINNED.at_ p) (s.fget TIK_PINNED_PINNED p)]
    ++ dies.flatMap (fun d => [TIK_DEBT_DEBT, TIK_LATE_LATE, TIK_LATE_MAX_LATE_MAX, TIK_DEFER_DEFER, TIK_BUDGET_BUDGET].map
      (fun F => one (F.at_ d) (s.fget F d)))
    ++ dies.flatMap (fun d => countFlds.flatMap (fun x => (List.range x.2).map (fun n =>
      one ((x.1.nth n).at_ d) (s.countNow (x.1.nth n) d))))

/-- The sections in order (R346), for a RESYNC by function `f`. -/
def State.sections (s : State) (f : Nat) : List Section :=
  let p := fnPart f
  let dies := s.diesOf p
  let fns := ([0, 1].filter (fun x => s.bound p x)).map (fun x => 2 * p + x)
  [⟨1, 64, [s.sumPartition f p]⟩, ⟨2, 64, dies.map s.sumDie⟩,
    ⟨3, 64, fns.flatMap (fun g => (s.fn g).rings.map (fun e => s.sumRing g e.1 e.2))⟩,
    ⟨4, 32, (s.part p).outst.map Outst.bytes⟩, ⟨5, 32, dies.flatMap s.sumHints⟩,
    ⟨6, 16, dies.flatMap (fun d => (List.range 12).flatMap (fun k => (s.unitIdx (k + 1) d).map (fun i => s.rowBytes (k + 1) d i)))⟩,
    ⟨7, 8, dies.flatMap s.sumKeys⟩, ⟨8, 8, s.sumCounters p⟩, ⟨9, 32, (s.fn f).held.map (fun e => e.bytes false)⟩]

/-- The next multiple of 64. -/
def up64 (n : Nat) : Nat := ceilDiv n 64 * 64

/-- The directory entry and bytes of each section from offset `off` on, within `room`, and where the whole record and the
written part end. `stop` says that an entry did not fit (R347) (DEDUCED, log entry 59). -/
def laySections (room : Nat) : Nat → Nat → Bool → List Section → List Byte × List Byte × Nat × Nat
  | off, done, _, [] => ([], [], off, done)
  | off, done, stop, x :: r =>
    let at_ := up64 off
    let n := x.entries.length
    let w := if stop ∨ room < at_ then 0 else min n ((room - at_) / x.size)
    let fin := if n = 0 then off else at_ + n * x.size
    let done' := if w = 0 then done else at_ + w * x.size
    let (dir, body, total, last) := laySections room fin done' (stop || decide (w < n)) r
    (le 2 x.typ ++ le 2 x.size ++ le 4 n ++ le 4 w ++ le 4 (if w = 0 then 0 else at_) ++ dir,
      (if w = 0 then [] else zeros (at_ - done) ++ (x.entries.take w).flatMap id) ++ body, total, last)

/-- The summary record for a RESYNC by function `f` with `room` bytes at tick `tick` (R345) (DEDUCED, log entry 59). -/
def State.summary (s : State) (f room tick : Nat) (adopt : Bool) : List Byte × Nat :=
  let (dir, body, total, last) := laySections room 208 208 false (s.sections f)
  let flags := (decide (last < total)).toNat + 2 * adopt.toNat
  (le 4 0x53554D31 ++ le 1 1 ++ le 1 (fnPart f) ++ le 1 (fnPort f) ++ le 1 flags ++ le 8 tick ++ le 8 s.clk.tNs ++ le 4 total
    ++ le 4 last ++ le 2 9 ++ zeros 30 ++ dir ++ body, total)

/-- The first RESYNC of function `f` takes its snapshot: the descriptors of the other function are adopted, the record is
written, and it completes (R342, R344). -/
def State.takeResync (s : State) (f : Nat) : State :=
  match (s.fn f).resyncs with
  | [] => s
  | r :: rest =>
    let p := fnPart f
    let tick := s.tickNo p
    let s := s.modFn f (fun h => { h with resyncs := rest })
    let s := if r.adopt then s.modPart p (fun v =>
        { v with outst := v.outst.map (fun o => if o.fn = f then o else { o with adopted := true }) })
      else s
    let (b, total) := s.summary f r.room tick r.adopt
    (s.descWrite (f, r.sq, r.index) r.dest b).completeKey (f, r.sq, r.index) stOK total tick

end Sys2Proof.Machine
end

