-- ==== Sys2Proof/Machine/Ticks.lean ====
section
/-!
DEFINITION. Sys2Proof/Machine/Ticks.lean: ticks and slots: what each boundary does (R20, R29 to R55, R65, R92, R93, R338, R342,
R503, R594, R595), and a TIME cycle on which no command comes (R18).
-/
namespace Sys2Proof.Machine

/-! ### TIK_PERIOD (R34, R595) -/

/-- TIK_PERIOD.EN: the generator follows it at the next tick edge. -/
def execTikPeriodEnWrite (p : Nat) (en : Bool) (via : Via) (s : State) : Host.Outcome State Fault Refusal :=
  .next (if p < 8 then regWrite via (TIK_PERIOD_EN.at_ p) s (fun s => s.fput TIK_PERIOD_EN p en) else s)

/-- TIK_PERIOD.N and SLOTS written: at once while the generator does not run, and otherwise at their boundary; a later write
replaces one that waits. -/
def State.writePeriod (s : State) (p n slots : Nat) : State :=
  if s.locked p then s
  else
    let s := if 1 ≤ n ∧ n ≤ 40 then s.fset TIK_PERIOD_N p n else s.evtPkg TIK_EVENT_CFG_ERR
    let s := s.fset TIK_PERIOD_SLOTS p slots
    if (s.part p).genOn then
      s.modPart p (fun v =>
        { v with pendPer := decide (v.perN ≠ s.fget TIK_PERIOD_N p ∨ v.perSlots ≠ s.fget TIK_PERIOD_SLOTS p) })
    else s.takePeriod p

/-- TIK_PERIOD_WRITE. -/
def execTikPeriodWrite (p n slots t : Nat) (via : Via) (s : State) : Host.Outcome State Fault Refusal :=
  let s := s.advanceTo t
  .next (if p < 8 then regWrite via (TIK_PERIOD_N.at_ p) s (fun s => s.writePeriod p (n % 64) (slots % 4)) else s)

/-- A waiting change applies when the counter is at an edge of both periods that has not been taken (DEDUCED, log entry 15). -/
def State.periodDue (s : State) (p : Nat) : State :=
  let v := s.part p
  let t := s.clk.tNs
  if v.pendPer && t != v.slotT && t % s.periodNs p == 0 && t % (s.fget TIK_PERIOD_N p * 50000) == 0 then s.takePeriod p else s

/-- PERIOD_CHANGE_APPLY (DEDUCED, log entry 15). -/
def execPeriodChangeApply (p t : Nat) (s : State) : Host.Outcome State Fault Refusal :=
  let s := s.advanceTo t
  .next (if p < 8 then s.periodDue p else s)

/-! ### What every boundary does -/

/-- Seals that wait for room are tried again (R65). -/
def State.retrySeals (s : State) (d : Nat) : State :=
  (s.pfx d).sealWait.foldl (fun (s : State) id =>
    match (s.pfx d).index.find? (fun e => e.2.tail.layers.any (fun l => l.full == id)) with
    | some (k, e) =>
      (List.range e.tail.layers.length).foldl (fun (s : State) l =>
        if (e.tail.layers.getD l LayerEnt.init).full = id then s.startSeal d k l else s) s
    | none => s.modPfx d (fun x => { x with sealWait := x.sealWait.filter (· != id) })) s

/-- Chunk completions that wait are tried again (R65). -/
def State.retryChunks (s : State) (d : Nat) : State := (s.pfx d).chunkWait.foldl (fun (s : State) q => s.tryChunk d q) s

/-- Allocations that wait are tried again (R65, R209, R246, R597). -/
def State.retryAllocs (s : State) (d : Nat) : State :=
  let s := ((s.retryTasks d).retrySeals d).retryChunks d
  s.retryEdits d (s.pfx d).edits.length

/-- The dies of a partition that take its boundaries: a lost die takes none (R464) (DEDUCED, log entry 82). -/
def State.boundaryDies (s : State) (p : Nat) : List Nat := (s.diesOf p).filter (fun d => !s.dieLost d)

/-- A partition reset that waits for a slot boundary takes place (R517). -/
def State.resetIfDue (s : State) (p : Nat) : State := if (s.part p).resetDue then s.resetPtn p else s

/-- Admission at the boundary `t` on every die of the partition: none while it is REMOVING (R424), or its reset waits (R517), and
none on a die whose generator has not restarted (R20) (DEDUCED, log entry 82). -/
def State.admitAll (s : State) (p t : Nat) : State :=
  if s.ptnState p = ptnRemoving then s.removalStop p t
  else if (s.part p).resetDue then s
  else
    ((s.boundaryDies p).filter (fun d => !s.pwr.waitTick.contains d)).foldl (fun (s : State) d => s.admitDie d p t) s

/-- Whether a waiting write takes effect at slot boundaries: TIK_GUARD, TIK_DEBT_MAX, TIK_SCALE and TIK_ADMIT but for MODE
(R55), CSM_CTRL.EN, CSM_EST_CFG (R151) and ATM_CFG (R215) (DESIGN CHOICE, log entry 11). -/
def slotKey (k : Nat) : Bool :=
  [TIK_GUARD_GUARD, TIK_DEBT_MAX_DEBT_MAX, TIK_SCALE_SCALE_MIN, TIK_ADMIT_CUTOFF, CSM_CTRL_EN, CSM_EST_CFG_EMIT,
      ATM_CFG_FAULT_MAX].any
    (fun F => decide (F.off ≤ keyOff k) && (keyOff k - F.off) % F.stride == 0 && decide ((keyOff k - F.off) / F.stride < 8))
  && k != TIK_ADMIT_MODE.key ((keyOff k - TIK_ADMIT_MODE.off) / TIK_ADMIT_MODE.stride)

/-! ### SLOT_BOUNDARY (R35) -/

/-- SLOT_BOUNDARY: nothing happens at an instant that is no slot boundary after slot 0, or that was taken already (DEDUCED, log entry 12). -/
def execSlotBoundary (p t : Nat) (s : State) : Host.Outcome State Fault Refusal :=
  let s := s.advanceTo t
  let t := s.clk.tNs
  let v := s.part p
  let per := s.periodNs p
  if 8 ≤ p ∨ !v.genOn ∨ t = v.slotT ∨ t % per = 0 ∨ t % per * s.slotsOf p % per ≠ 0 then .next s
  else
    let s := s.modPart p (fun v => { v with slotT := t })
    let s := s.applyWrites p (fun k => !slotKey k)
    let s := (s.boundaryDies p).foldl (fun (s : State) d => s.retryAllocs d) s
    .next ((s.admitAll p t).resetIfDue p)

/-! ### TICK_BOUNDARY (R54, R93) -/

/-- The sums of R41 begin again, for the tick that begins. -/
def State.clearSums (s : State) (p : Nat) : State :=
  (s.diesOf p).foldl (fun (s : State) d => s.modCsm d (fun c => { c with sumActual := 0, sumEst := 0 })) s

/-- The estimate scale of the partition updated from the sweeps whose last result fell in the tick that ends (R41, R42) (DEDUCED, log entry 14). -/
def State.updateScale (s : State) (p : Nat) : State :=
  let dies := s.diesOf p
  let a := sumNat (dies.map (fun d => (s.csm d).sumActual))
  let e := sumNat (dies.map (fun d => (s.csm d).sumEst))
  let s := s.clearSums p
  if e = 0 then s
  else
    let g := s.fget TIK_SCALE_NOW_SCALE p
    let lo := s.inForce TIK_SCALE_SCALE_MIN p
    let hi := s.inForce TIK_SCALE_SCALE_MAX p
    let num := 15 * g * e + 4096 * a
    let den := 16 * e
    let s := s.fset TIK_SCALE_NOW_SCALE p (min (max (num / den) lo) hi)
    if num < lo * den ∨ hi * den < num then
      let s := s.fadd TIK_PINNED_PINNED p 1
      s.partEvent p evAdaptPinned 0xFF (le 1 1 ++ le 3 0 ++ le 4 (s.fget TIK_PINNED_PINNED p))
    else s

/-- What waits on the flash goes on in the new tick: FLASH_HEALTH occurrences are posted (R296), tasks and keys that found no room are
tried again, and collection goes on (DEDUCED, log entry 13). -/
def State.ftlTick (s : State) (d : Nat) : State :=
  let late := (s.ftl d).occur.filter (fun e => e.2 != 0)
  let s := (s.modFtl d (fun f => { f with posted := late.map (·.1), occur := [], pinned := false })).resumeTasks d
  let s := late.foldl (fun (s : State) e => s.postHealth d e.1 0xFF e.2 0) s
  let s := ((s.keysHere d).gcAdvance d).serve d
  if s.fbit FTL_CTRL_PATROL_EN d && s.fbit FTL_STATUS_READY d then s.patrolLag d else s

/-- A die of which no sweep held the Casement for PARK_TICKS ticks parks (R503) (DEDUCED, log entry 82). -/
def State.park (s : State) (d : Nat) : State :=
  let n := if s.fbit CSM_STATUS_BUSY d then 0 else (s.csm d).idleTicks + 1
  let s := s.modCsm d (fun c => { c with idleTicks := n })
  if s.fbit DPM_CTRL_AUTO_P1 d && s.fget DPM_STATUS_STATE d == 0 && !s.pwr.hold.contains d
      && decide (max 1 (s.inForce DPM_CFG_PARK_TICKS d) < n) then s.powerTo d 1 0
  else s

/-- STG_UTIL.MEASURED: the part of the owned channels' time, over the last 16 ticks, that went to anything other than hint staging, in
1/256; 0 while the die owns none (R240, R241). A tick begins (DESIGN CHOICE, log entry 132). -/
def State.measure (s : State) (d : Nat) : State :=
  let all := s.nOwn d * 16 * (match s.owner d with | some p => s.periodNs p | none => 100000)
  let busy := sumNat ((s.ftl d).util.map (·.1))
  let s := s.fset STG_UTIL_MEASURED d (if all = 0 then 0 else min 255 (256 * busy / all))
  s.modFtl d (fun f => { f with util := (0, 0) :: f.util.take 15 })

/-- EVENT_REG for every register with bits newly set in the tick (R338) (DEDUCED, log entry 13; DEDUCED, log entry 74). -/
def State.postRegs (s : State) (p : Nat) : State :=
  let own (off : Nat) : Bool :=
    (match dieOfOff off with | some d => s.owner d == some p | none => false)
      || off == PMC_PEVENT_OVF.at_ p || off == PTN_EVENT_CONFLICT.at_ p
  let l := tfilter (fun off _ => own off) s.evNew
  let pk := (s.part p).evPkg
  let s := { s with evNew := tfilter (fun off _ => !own off) s.evNew }
  let s := s.modPart p (fun v => { v with evPkg := [] })
  let post (s : State) (e : Nat × Nat) : State :=
    let b := le 4 e.1 ++ le 4 e.2
    match dieOfOff e.1 with
    | some d => s.partEvent p evEventReg d b
    | none => s.partEvent p evEventReg 0xFF b
  let s := pk.foldl post (l.foldl post s)
  [2 * p, 2 * p + 1].foldl (fun (s : State) f =>
    let v := (s.fn f).fevNew
    if v = 0 then s
    else (s.modFn f (fun h => { h with fevNew := 0 })).raiseEvent f evEventReg 0xFF (le 4 (HRG_FEVENT_VIOLATION.at_ f) ++ le 4 v)) s

/-- The generator stops: waiting writes take effect, and records not admitted complete with NOT_READY (R34, R594) (DEDUCED, log entry 13). -/
def State.stopGen (s : State) (p : Nat) : State :=
  let s := (s.applyWrites p (fun _ => false)).modPart p (fun v => { v with genOn := false })
  let s := s.takePeriod p
  (s.diesOf p).foldl (fun (s : State) d =>
    let l := (s.csm d).held
    let s := s.modCsm d (fun c => { c with held := [] })
    l.foldl (fun (s : State) h => s.failHeld d h stNOT_READY) s) s

/-- The steps of a tick edge while the generator runs, in the order of R93 and R54 (DEDUCED, log entry 13). -/
def State.tickSteps (s : State) (p tick t : Nat) : State :=
  let dies := s.boundaryDies p
  let last := (s.part p).slotT
  let cut := s.inForce TIK_ADMIT_CUTOFF p * 10
  let s := s.modPart p (fun v => { v with genOn := true, slotT := t })
  let s := { s with pwr := { s.pwr with waitTick := s.pwr.waitTick.filter (fun d => s.owner d != some p) } }
  let s := s.applyWrites p (fun k => k == TIK_ADMIT_MODE.key p)
  let s := dies.foldl (fun (s : State) d => (s.advanceEpoch d tick).tombClean d) s
  let s := dies.foldl (fun (s : State) d => s.fset TIK_DEBT_DEBT d 0) s
  let s := s.updateScale p
  let s := s.applyWrites p (fun _ => false)
  let s := if s.ptnState p = ptnRemoving then s else dies.foldl (fun (s : State) d => s.carryOver d p cut last) s
  let s := dies.foldl (fun (s : State) d =>
    let s := s.modStg d (fun x => { x with heated := [] })
    (((s.measure d).poolCheck d).missHints d tick).retryAllocs d) s
  let s := s.admitAll p t
  dies.foldl (fun (s : State) d => s.park d) s

/-- TICK_BOUNDARY: nothing happens at an instant that is no tick edge, or that was taken already (DEDUCED, log entry 12; DESIGN CHOICE, log entry 88). -/
def execTickBoundary (p t : Nat) (s : State) : Host.Outcome State Fault Refusal :=
  let s := s.advanceTo t
  if 8 ≤ p then .next s
  else
    let s := s.periodDue p
    let t := s.clk.tNs
    let v := s.part p
    if t % s.periodNs p ≠ 0 ∨ (v.genOn = true ∧ t = v.slotT) then .next s
    else
      let tick := t / s.periodNs p
      let s := s.pmcEdge p tick t
      let dies := s.boundaryDies p
      let s := dies.foldl (fun (s : State) d => ((s.nrtTick d).ueTick d).ftlTick d) s
      let s :=
        if s.fbit TIK_PERIOD_EN p && s.ticksAllowed then s.tickSteps p tick t
        else if v.genOn then (s.stopGen p).clearSums p
        else s.clearSums p
      let s := s.resetIfDue p
      let s := s.postRegs p
      .next ((s.takeResync (2 * p)).takeResync (2 * p + 1))

/-! ### Idling -/

/-- A step with no command waiting: one TIME cycle passes (R18; log entry 1). -/
def idle (s : State) : State :=
  let s := s.holdCount 1
  { s with clk := s.clk.cycles 1 }

end Sys2Proof.Machine
end

