-- ==== Sys2Proof/Machine/RegAccess.lean ====
section
/-!
DEFINITION. Sys2Proof/Machine/RegAccess.lean: register accesses: access codes, ranges and locks (R10 to R13, R566, R567), registers whose
words are made up as they are read, the counter pages (R532 to R534), and accesses that reach no register (R563, R564).
-/
namespace Sys2Proof.Machine

/-! ### Accesses recorded (R13, R563, R564) -/

/-! ### Which registers are there (R562, R563) -/

/-- Start of the offsets that stand for BAR2: offset `o` of BAR2 is `bar2 + o` (DEDUCED, log entry 71). -/
def bar2 : Nat := 2 ^ 26

/-- The counter page and the offset in it that a path reaches, with `write` for a write (R533, R534): none when the access is outside (DEDUCED, log entry 71). -/
def State.bar2At (s : State) (via : Via) (o : Nat) (write : Bool) : Option (Nat × Nat) :=
  match via with
  | .pf _ => if o < 8 * 65536 then some (o / 65536, o % 65536) else none
  | .console => none
  | .vf f =>
    let p := fnPart f
    let w := write && (decide (0x20 ≤ o) && decide (o < 0x30) || o == 0x34)
    if s.bound p (fnPort f) && decide (o < 65536) && s.fbit PMC_GRANT_USER p && (!write || !w || s.fbit PMC_GRANT_WRITE p) then some (p, o)
    else none

/-- The register at an offset; windows of absent dies hold none. -/
def State.reg? (s : State) (off : Nat) : Option (Reg × Nat × Nat) :=
  match dieOfOff off with
  | some d => if s.nDies ≤ d then none else findReg allRegs off
  | none => findReg allRegs off

/-- Whether an offset of BAR0 is a register or a doorbell (R563). -/
def State.mapped (s : State) (off : Nat) : Bool := (s.reg? off).isSome || (decide (0x3000000 ≤ off) && decide (off < bar2))

/-- Whether the window an offset lies in is served from its die's shadow (R566) (DEDUCED, log entry 73). -/
def State.shadowedAt (s : State) (off : Nat) : Bool :=
  match dieOfOff off with
  | some d => s.shadowed d
  | none => false

/-- Whether the RWL fields at an offset are locked (R12, R567). -/
def State.lockedAt (s : State) (off : Nat) : Bool :=
  match dieOfOff off with
  | some d => s.dieLocked d
  | none =>
    if 0x10100 ≤ off ∧ off < 0x10300 then s.locked ((off - 0x10100) / 0x40)
    else if 0xA0000 ≤ off ∧ off < 0xA0100 then s.locked ((off - 0xA0000) / 0x20)
    else false

/-! ### Plain fields (R10 to R13, R594) -/

/-- Registers, by the offset of instance 0, whose writes take effect at a boundary. -/
def boundaryRegs : List Nat :=
  ([TIK_ADMIT_MODE, TIK_GUARD_GUARD, TIK_DEBT_MAX_DEBT_MAX, TIK_SCALE_SCALE_MIN, CSM_EST_CFG_SETUP, ATM_CFG_FAULT_MAX, WKT_CTRL_STEAL,
    MEM_REFRESH_HOT_C, STG_HEAT_HALF, STG_POOL_LOW, STG_FLASH_FIRST, STG_HINT_HOLD, FTL_GC_LOW, FTL_PATROL_PERIOD, FTL_RETRY_START_MAX,
    FTL_HEALTH_BAD_WARN, FTL_HEALTH2_RETRY_WARN, FTL_JNL_WINDOW, DPM_CFG_PARK_TICKS, RAS_CFG_HOLDOFF, RAS_SCRUB_PERIOD] : List Fld).map (·.off)

/-- Registers whose writes take effect at the next step of the adaptive voltage loop (R525). -/
def avsRegs : List Nat := ([DPM_AVS_CAS_VMIN, DPM_AVS_LOG_VMIN, DPM_AVS_CFG_EN] : List Fld).map (·.off)

/-- A legal value given to a field. -/
def State.setField (s : State) (F : Fld) (i v : Nat) : State :=
  if s.shadowedAt (F.at_ i) then s.fset F i v
  else if avsRegs.contains F.off then s.fsetLater F i v
  else if boundaryRegs.contains F.off then s.fsetWhen F i v
  else s.fset F i v

/-- The bits of field `F` in a word. -/
def Fld.bitsIn (F : Fld) (w : Nat) : Nat := w / 2 ^ F.lo % 2 ^ F.w

/-- One field of a register written (R12, R13): a locked field is not judged against its range (DESIGN CHOICE, log entry 97). -/
def State.writeField (s : State) (via : Via) (off i k w : Nat) (r : FldRow) : State :=
  let F := r.fld.nth k
  let v := F.bitsIn w
  match r.acc with
  | .ro => s
  | .wo => s
  | .w1c => if s.shadowedAt off then s else s.fset F i (s.fget F i - (s.fget F i &&& v))
  | .rwl => if s.lockedAt off then s else if r.min ≤ v ∧ v ≤ r.max then s.setField F i v else s.badField via off
  | .rw => if r.min ≤ v ∧ v ≤ r.max then s.setField F i v else s.badField via off

/-- The fields of a register write but those that act. -/
def State.writeFields (s : State) (via : Via) (off i k w : Nat) (skip : List Fld) (l : List FldRow) : State :=
  l.foldl (fun s r => if skip.contains r.fld then s else s.writeField via off i k w r) s

/-! ### Fields that act -/

/-- The state a command leaves. -/
def stateOf (s : State) : Host.Outcome State Fault Refusal → State
  | .next t => t
  | _ => s

/-- `go` when bit `n` of the written word is set. -/
def State.onBit (s : State) (w n : Nat) (go : State → Host.Outcome State Fault Refusal) : State :=
  if w.testBit n then stateOf s (go s) else s

/-- What the acting fields of a package register do: those that a command of their own states and whose effect the written value fixes. -/
def State.actPkg (s : State) (via : Via) (F : Fld) (w : Nat) : State :=
  if F = TIK_CTRL_STEP_NOW then s.onBit w 7 (execStepNow via)
  else if F = TIK_CTRL_DISC_EN then
    if w.testBit 1 then s.fset F 0 1 else if s.fbit F 0 then stateOf s (execDiscEnClear via s) else s
  else if F = RAS_UNIT_CMD_OP then
    if w % 4 = 1 then stateOf s (execRasUnitFenceCmd via s) else if w % 4 = 2 then stateOf s (execRasUnitTestCmd via s) else s
  else if F = PWR_CTRL_MIN_CLR then s.onBit w 2 (execMinClr via)
  else if F = PWR_CTRL_WARM then s.onBit w 1 (execPackageWarmReset via (w / 2 ^ 16 % 2 ^ 16) s.clk.tNs)
  else if F = PMC_CTRL_FREEZE then if s.fbit F 0 = w.testBit 0 then s else stateOf s (execPackageFreeze (w.testBit 0) via s)
  else s

/-- The same of a partition's or a function's register. -/
def State.actPart (s : State) (via : Via) (F : Fld) (i w : Nat) : State :=
  if F = TIK_PERIOD_N then s.writePeriod i (w % 64) (w / 64 % 4)
  else if F = TIK_PERIOD_EN then stateOf s (execTikPeriodEnWrite i (w.testBit 31) via s)
  else if F = HRG_CTRL_EN then stateOf s (execHrgEnWrite (i / 2) (i % 2) (w.testBit 0) s)
  else if F = PTN_BIND_A_VF then stateOf s (execPtnBindWrite i w s)
  else if F = PTN_DIES_DIES then stateOf s (execPtnDiesWrite i w s)
  else if F = PTN_CTRL_SEAL then s.onBit w 0 (execSeal i)
  else if F = PTN_CTRL_RESET then s.onBit w 1 (execPartitionReset i s.clk.tNs)
  else if F = PMC_SNAP_FREEZE then if s.fbit F i = w.testBit 16 then s else stateOf s (execPartitionFreeze i (w.testBit 16) via s)
  else if F = PMC_TAG_SEED_SEED then stateOf s (execPmcTagSeedWrite i w via s)
  else if F = PMC_TRACE_EN then if s.fbit F i = w.testBit 0 then s else stateOf s (execPmcTraceEnWrite i (w.testBit 0) via s)
  else if F = PMC_BW_PEAK_CLR then s.onBit w 16 (execPeakClr i via)
  else if F = PMC_IDX_UNIT then stateOf s (execPmcIdxWrite i w via s)
  else if F = PMC_VALUE_VALUE then stateOf s (execPmcValueWrite i w via s)
  else if F = PMC_EVSEL_EVENT then s.writeEvsel i w
  else if F = PMC_HCFG_CLR then s.onBit w 1 (execHistogramClr i via)
  else if F = PMC_HCFG_LOG then s.writeHcfg via i w
  else if F = PMC_HBASE_BASE then s.writeHbase i w
  else s

/-- The same of a die's register, but for its link and channels (DESIGN CHOICE, log entry 104). -/
def State.actDie (s : State) (via : Via) (F : Fld) (d w : Nat) : State :=
  if F = PFX_CTRL_EN then if s.lockedAt (F.at_ d) then s else if w.testBit 0 then stateOf s (execPfxEnable d via s) else s.fset F d 0
  else if F = CSM_CTRL_EN then stateOf s (execCsmEnWrite d (w.testBit 0) via s)
  else if F = CSM_CTRL_INJECT then stateOf s (execCsmInject d (w / 16 % 16) via s)
  else if F = CSM_PANE_FENCE_FENCE then stateOf s (execPaneFence d (w / 2 ^ 8 % 16) (w / 2 ^ 16 % 16) via s)
  else if F = ATM_CTRL_INJECT then stateOf s (execAtmInject d (w / 16 % 16) via s)
  else if F = ATM_FENCE_FENCE then stateOf s (execAtmFence d (w / 2 ^ 8 % 16) (w / 2 ^ 16 % 16) via s)
  else if F = MEM_CTRL_INJECT then s.onBit w 8 (execMemInject d via)
  else if F = NRT_CTRL_INJECT then s.onBit w 2 (execNrtInject d via)
  else if F = DPM_CTRL_STATE_REQ then
    stateOf s (execStateReq d (w % 4) via s)
  else s

/-- The same of a die's flash channels and fabric port. -/
def State.actLink (s : State) (via : Via) (F : Fld) (d w : Nat) : State :=
  if F = FTL_CTRL_EN then
    if s.lockedAt (F.at_ d) || w.testBit 0 then s else s.fset F d 0
  else if F = FTL_CTRL_INJECT then s.onBit w 8 (execFtlInject d via)
  else if F = FTL_CTRL_CKPT_NOW then s.onBit w 4 (execCkptNow d via)
  else if F = FTL_OWN_CMD_RECLAIM then s.onBit w 0 (execReclaim d via)
  else if F = FTL_OWN_CMD_RELEASE then s.onBit w 1 (execRelease d via)
  else if F = FTL_CH_CMD_FENCE then stateOf s (execChannelFence d (w % 2 ^ 16) (w / 2 ^ 16 % 2 ^ 16) via s)
  else if F = LNK_CTRL_EN then stateOf s (execLnkEnWrite d (w.testBit 0) via s)
  else if F = LNK_CTRL_MACSEC_EN then
    if s.lockedAt (F.at_ d) || (!w.testBit 1 && s.fbit SEC_STATUS_APPROVED 0) then s
    else if s.shadowed d then s.fput F d (w.testBit 1)
    else (s.fput F d (w.testBit 1)).refreshPort d
  else if F = LNK_CTRL_REKEY_NOW then s.onBit w 3 (execRekeyNow d via)
  else if F = LNK_CTRL_LAT_CLR then s.onBit w 4 (execLatClr d via)
  else if F = LNK_SHUT_CTRL_COMMIT then s.onBit w 1 (execShutterCommit d via)
  else if F = LNK_POL_KEY_EN then stateOf s (execPolicerCommit d w via s)
  else s

/-- Fields that act, in the order in which one write acts: after the plain fields of the same write (DEDUCED, log entry 70). -/
def actFlds : List Fld :=
  [TIK_CTRL_STEP_NOW, TIK_CTRL_DISC_EN, RAS_UNIT_CMD_OP, PWR_CTRL_MIN_CLR, PWR_CTRL_WARM, PMC_CTRL_FREEZE,
    TIK_PERIOD_N, TIK_PERIOD_EN, HRG_CTRL_EN, PTN_BIND_A_VF, PTN_DIES_DIES, PTN_CTRL_SEAL, PTN_CTRL_RESET, PMC_SNAP_FREEZE,
    PMC_TAG_SEED_SEED, PMC_TRACE_EN, PMC_BW_PEAK_CLR, PMC_IDX_UNIT, PMC_VALUE_VALUE, PMC_EVSEL_EVENT, PMC_HCFG_LOG, PMC_HCFG_CLR, PMC_HBASE_BASE,
    PFX_CTRL_EN, CSM_CTRL_EN, CSM_CTRL_INJECT, CSM_PANE_FENCE_FENCE, ATM_CTRL_INJECT, ATM_FENCE_FENCE, MEM_CTRL_INJECT, NRT_CTRL_INJECT,
    DPM_CTRL_STATE_REQ, FTL_CTRL_EN, FTL_CTRL_INJECT, FTL_CTRL_CKPT_NOW, FTL_OWN_CMD_RECLAIM, FTL_OWN_CMD_RELEASE, FTL_CH_CMD_FENCE,
    LNK_CTRL_EN, LNK_CTRL_MACSEC_EN, LNK_CTRL_REKEY_NOW, LNK_CTRL_LAT_CLR, LNK_SHUT_CTRL_COMMIT, LNK_POL_KEY_EN]

/-- Fields that an acting field of the same register takes with it (DEDUCED, log entry 70). -/
def takenFlds : List Fld :=
  [TIK_PERIOD_SLOTS, PTN_BIND_A_EN, PTN_BIND_B_EN, PTN_BIND_B_VF, PMC_IDX_DIE, PMC_EVSEL_CTX_EN, PMC_EVSEL_CONTEXT, PMC_EVSEL_EN,
    PMC_EVSEL_FRZ_OVF, PMC_EVSEL_CHAIN, PMC_EVSEL_MODE, PMC_HCFG_PARAM, PMC_HCFG_SRC, PMC_HCFG_SHIFT, LNK_POL_KEY_ENTRY]

/-- Instance `i` of an acting field (DEDUCED, log entry 70). -/
def State.act (s : State) (via : Via) (F : Fld) (i w : Nat) : State :=
  if (0x1040000 ≤ F.off ∧ F.off < 0x1060000) ∨ (0x1080000 ≤ F.off ∧ F.off < 0x10A0000) then s.actLink via F i w
  else if windowBase ≤ F.off then s.actDie via F i w
  else if F.stride = 0 then s.actPkg via F w
  else s.actPart via F i w

/-! ### Registers whose writes have conditions -/

/-- Whether a write leaves the register unchanged: a set of values that the register refuses together, or a register held while a function
runs (R316, R454, R574, and the address registers of NRT) (DEDUCED, log entry 57). -/
def State.writeHeld (s : State) (r : Reg) (i w : Nat) : Bool :=
  let at_ (F : Fld) : Bool := r.off == F.off
  let hot := MEM_REFRESH_HOT_C.bitsIn w
  let hyst := MEM_REFRESH_HYST_C.bitsIn w
  (at_ MEM_REFRESH_HOT_C && (decide (hot < 60) || decide (95 < hot) || decide (hot - 60 < hyst)))
  || ((at_ NRT_MAC_LO_ADDR_LO || at_ NRT_MAC_HI_ADDR_HI || at_ NRT_GW_LO_ADDR_LO || at_ NRT_GW_HI_ADDR_HI || at_ NRT_IP6_ADDR
      || at_ NRT_IP4_ADDR) && s.fbit NRT_CTRL_EN i)
  || ((at_ HRG_ASQ_LO_BASE_LO || at_ HRG_ASQ_HI_BASE_HI || at_ HRG_ACQ_LO_BASE_LO || at_ HRG_ACQ_HI_BASE_HI || at_ HRG_ASIZE_ACQ_VEC)
      && s.fbit HRG_CTRL_EN i)
  || ((at_ SEC_MBOX_ADDR_LO_ADDR_LO || at_ SEC_MBOX_ADDR_HI_ADDR_HI || at_ SEC_MBOX_LEN_BYTES) && s.fbit SEC_MBOX_STATUS_BUSY 0)

/-- Whether bounds of the adaptive voltage loop are refused: VMIN above VMAX, or one outside 85 % to 115 % of nominal (R525). -/
def avsRefused (r : Reg) (w : Nat) : Bool :=
  let bad (nom : Nat) : Bool :=
    let lo := w % 2 ^ 16
    let hi := w / 2 ^ 16 % 2 ^ 16
    decide (hi < lo) || decide (100 * lo < 85 * nom) || decide (115 * nom < 100 * hi) || decide (115 * nom < 100 * lo) || decide (100 * hi < 85 * nom)
  (r.off == DPM_AVS_CAS_VMIN.off && bad 700) || (r.off == DPM_AVS_LOG_VMIN.off && bad 750)

/-- A write of the register `r` at `off`, instance `i`, `k`-th of its run (DEDUCED, log entry 70). -/
def State.writeReg (s : State) (via : Via) (off w : Nat) (r : Reg) (i k : Nat) : State :=
  if s.writeHeld r i w then (if r.off = MEM_REFRESH_HOT_C.off then s.badField via off else s)
  else if avsRefused r w then (if s.shadowedAt off then s else s.evtDie DPM_EVENT_REFUSED i)
  else
    let acting := actFlds.filter (fun F => F.off == r.off)
    let s := if r.off = PMC_CTRL_FREEZE.off ∨ r.off = PMC_FREEZE_AT_LO_T_NS.off ∨ r.off = PMC_FREEZE_AT_HI_T_NS.off then s.freezeDue else s
    let s := if 0x1080040 ≤ r.off ∧ r.off < 0x1080060 ∧ !s.shadowedAt off then s.accrueAll i else s
    let s := s.writeFields via off i k w (acting ++ takenFlds) r.flds
    -- the rate follows SLEW_MAX at once (R23)
    let s := if r.off = TIK_SLEW_SLEW_MAX.off then { s with clk := { s.clk with adj := s.slew s.clk.adj } } else s
    acting.foldl (fun s F => s.act via F i w) s

/-- A 4-byte write at an offset that holds a register. An offset that holds none, and RO registers, change nothing here (R563). -/
def State.regWriteWord (s : State) (via : Via) (off w : Nat) : State :=
  match s.reg? off with
  | none => s
  | some (r, i, k) => s.writeReg via off (w % 2 ^ 32) r i k

/-- REGISTER_WRITE: an aligned 4-byte write of BAR0 (R10 to R13), or of BAR2 at `bar2` and above (R534) (DEDUCED, log entry 70; DEDUCED, log entry 71). -/
def execRegisterWrite (via : Via) (off w : Nat) (s : State) : Host.Outcome State Fault Refusal :=
  if off % 4 ≠ 0 then .next s
  else if bar2 ≤ off then
    match s.bar2At via (off - bar2) true, via with
    | some (p, o), _ => .next (s.pageWrite p o w)
    | none, .vf f => .next (s.violation f)
    | none, _ => .next s
  else .next (regWrite via off s (fun s => s.regWriteWord via off w))

/-! ### Reads -/

/-- Levels on SVC_LVL7 to SVC_LVL0 (R553). -/
def State.pinsNow (s : State) : Nat :=
  if s.fbit SVC_LEVEL_FORCED 0 then s.fget SVC_LEVEL_PINS 0
  else
    s.fget SEC_STATUS_READY 0 + 2 * s.fget SEC_STATUS_ERROR 0 + 4 * s.fget PWR_STATUS_PWR_LOSS 0 + 8 * s.fget PWR_STATUS_WARN_ANY 0
      + 16 * s.svc.beat.toNat + 32 * (s.fget RAS_STATUS_DIES_LOST 0 != 0).toNat + 64 * s.fget SVC_STATUS_MODE 0

/-- The value a field reads as: what the state says now, for fields that follow the state. -/
def State.liveField (s : State) (F : Fld) (i : Nat) : Nat :=
  if F = SYS_CAPS_DIE_PRESENT then 2 ^ s.nDies - 1
  else if F = SYS_STRAP_SMB_ADDR then s.fget RAS_MCTP_SMB_ADDR 0
  else if F = PTN_STATUS_A_READY then (s.ready (2 * i)).toNat
  else if F = PTN_STATUS_B_READY then (s.ready (2 * i + 1)).toNat
  else if F = NRT_STATUS_READY then (s.nrtReady i).toNat
  else if F = PFX_STATUS_TREE_FULL then (s.fbit PFX_STATUS_READY i && decide (s.ovfBuckets i ≤ (s.ovfUsed i).length)).toNat
  else if F = PFX_EPOCH_MIN_OLDEST then s.oldest i
  else if F = PFX_LIMBO_SEGS then s.limboSegs i
  else if F = PFX_FREE_SEGS_SEGS then (if s.fbit PFX_STATUS_READY i then s.freeSegs i else 0)
  else if F = STG_STATUS_POOL_LOW then
    (s.fbit PFX_STATUS_READY i && decide (s.freeSegs i < s.inForce STG_POOL_LOW i * 1024)).toNat
  else if F = STG_UTIL_MEASURED then (if s.nOwn i = 0 then 0 else s.fget F i)
  else if F = PFX_TREE_USED_SLOTS then (s.pfx i).tree.length
  else if F = ATM_STATUS_ACTIVE then s.fget CSM_STATUS_ATM_ACT i
  else if F = CSM_SWEEP_RUN_CYCLES then
    match s.running? i with
    | some w => min ((s.clk.tNs - w.startT - w.paused) * 8 / 5) (2 ^ 32 - 1)
    | none => s.fget F i
  else if F = MEM_STATUS_IN_SERVICE then s.fget RAS_DIE_STATE_STACKS i
  else if F = WKT_STATUS_ACTIVE then (if s.fbit WKT_STATUS_READY i then 256 - s.wktsFenced i else 0)
  else if F = SVC_LEVEL_PINS then s.pinsNow
  else if F = PWR_MIN_WARN then (s.dom (s.fget PWR_SEL_DOMAIN 0)).warn.toNat
  else if F = PWR_MIN_MIN then 0
  else if F = PWR_DIP_DURATION then (s.dom (s.fget PWR_SEL_DOMAIN 0)).dipDur
  else if F = PWR_DIP_MIN then (s.dom (s.fget PWR_SEL_DOMAIN 0)).dipLow
  else if F = PWR_MON_SETPOINT then s.setpoint (s.fget PWR_SEL_DOMAIN 0)
  else s.fget F i

/-- A register's word, field by field: WO fields read 0; in a window served from its shadow only RW and RWL fields read (R10, R11, R566) (DEDUCED, log entry 73). -/
def State.plainWord (s : State) (off i k : Nat) (r : Reg) : Nat :=
  r.flds.foldl (fun v x =>
    let F := x.fld.nth k
    let n :=
      match x.acc with
      | .wo => 0
      | .rw => s.fget F i
      | .rwl => s.fget F i
      | _ => if s.shadowedAt off then 0 else s.liveField F i
    v + n * 2 ^ F.lo) 0

/-- The lowest voltage of a domain since MIN_CLR: what the monitor saw between the warnings is free, and never rises (R505, R523) (DESIGN CHOICE, log entry 56). -/
def State.senseLow (s : State) (k : Nat) : Nat × State :=
  let (n, s) := s.sensed 16
  let v := min n (s.dom k).low
  (v, if k < 6 * s.nDies + 2 then s.modDom k (fun x => { x with low := v }) else s)

/-- Sensed values that a word carries: PWR_MON.NOW, PWR_MIN.MIN and the temperatures of MEM_TEMP are free (DESIGN CHOICE, log entry 56). -/
def State.senseWord (s : State) (off : Nat) (r : Reg) : Nat × State :=
  if r.off = PWR_MON_NOW.off then s.sensed 16
  else if r.off = PWR_MIN_MIN.off then s.senseLow (s.fget PWR_SEL_DOMAIN 0)
  else if r.off = MEM_TEMP_TEMP0.off ∧ !s.shadowedAt off then s.sensed 24
  else (0, s)

/-- LNK_POL_RATE, LNK_POL_BURST and LNK_POL_KEY read the committed values of the policer that LNK_POL_SEL names (R410) (DEDUCED, log entry 91). -/
def State.polWord (s : State) (off d : Nat) : Nat :=
  let p := dget (s.lnk d).policers Policer.init (s.fget LNK_POL_SEL_POLICER d)
  if off = LNK_POL_RATE_RATE.off then p.rate
  else if off = LNK_POL_BURST_BURST.off then p.burst
  else p.entry + 2 ^ 31 * p.en.toNat

/-- The 4-byte word at an offset, and what the read latches (R10, R56, R215, R305, R410, R497, R526). -/
def State.readWord (s : State) (off : Nat) : Nat × State :=
  match s.reg? off with
  | none => (0, s)
  | some (r, i, k) =>
    if off = 0 then (s.identWord, s)
    else if r.off = TIK_TIME_NS_NS.off then s.readTimeNs
    else if r.off = TIK_TICK_LO_TICK_LO.off then s.readTickLo i
    else if r.off = ATM_CODED_LO_BYTES.off then s.readAtmLo i 0
    else if r.off = ATM_RAW_LO_BYTES.off then s.readAtmLo i 1
    else if r.off = ATM_PLAIN_LO_BYTES.off then s.readAtmLo i 2
    else if r.off = STG_QUEUED_LO_BYTES.off then s.readQueued i
    else if r.off = FTL_JSEQ_LO_JSEQ_LO.off then s.readJseq i
    else if r.off = LNK_TXPN_LO_PN_LO.off then s.readTxpn i
    else if r.off = RAS_UNIT_ROW_ROW.off ∧ k = 0 then s.readRow0
    else if r.off = PMC_EVSEL_EVENT.off then ((s.pmcCtrOf i (s.pmcCtrKey i)).next, s)
    else if r.off = PMC_VALUE_VALUE.off then ((s.pmcCtrOf i (s.pmcCtrKey i)).live, s)
    else if r.off = PMC_HCFG_LOG.off then ((match s.histKey i with | some h => (s.histOf i h).nextCfg | none => 0), s)
    else if r.off = PMC_HBASE_BASE.off then ((match s.histKey i with | some h => (s.histOf i h).nextBase | none => 0), s)
    else if (r.off = LNK_POL_RATE_RATE.off ∨ r.off = LNK_POL_BURST_BURST.off ∨ r.off = LNK_POL_KEY_EN.off) ∧ !s.shadowedAt off then
      (s.polWord r.off i, s)
    else
      -- an armed freeze whose instant has come is in force (R530)
      let s := if r.off = PMC_CTRL_FREEZE.off ∨ r.off = PMC_STATUS_FROZEN.off then s.freezeDue else s
      let (n, s) := s.senseWord off r
      (s.plainWord off i k r + n, s)

/-! ### Accesses that reach no register -/

/-- A value read goes out; a write has none. -/
def State.zeroRead (s : State) (off : Nat) (write : Bool) : State := if write then s else s.emit (.regValue off 0)

/-- UNMAPPED_ACCESS (R563); through a VF, R310. -/
def execUnmappedAccess (via : Via) (off : Nat) (write : Bool) (s : State) : Host.Outcome State Fault Refusal :=
  if bar2 ≤ off then
    match s.bar2At via (off - bar2) write, via with
    | some (p, o), _ => .next (if write then s else s.emit (.regValue off (BitVec.ofNat 32 (s.pageWord p o))))
    | none, .vf f => .next ((s.violation f).zeroRead off write)
    | none, _ => .next (s.zeroRead off write)
  else if s.mapped off then .next s
  else
    match via with
    | .vf f => .next ((s.violation f).zeroRead off write)
    | _ => .next (((s.evtPkg SYS_EVENT_UNMAPPED).badAddr via off).zeroRead off write)

/-- An aligned 8-byte read of a counter page: both words from one instant (R532); any other access of BAR2 by a wrong size or
alignment reads 0 or changes nothing. -/
def State.pageRead8 (s : State) (via : Via) (off : Nat) (write : Bool) : State :=
  let o := off - bar2
  match s.bar2At via o write, via with
  | some (p, o), _ =>
    if write then s
    else if o % 8 = 0 then
      (s.emit (.regValue off (BitVec.ofNat 32 (s.pageWord p o)))).emit (.regValue (off + 4) (BitVec.ofNat 32 (s.pageWord p (o + 4))))
    else s.zeroRead off write
  | none, .vf f => (s.violation f).zeroRead off write
  | none, _ => s.zeroRead off write

/-- BAD_ACCESS: a wrong size or alignment (R564), and an access of BAR2 that is not of 4 bytes (R532); outside a VF's view, R310. -/
def execBadAccess (via : Via) (off : Nat) (write : Bool) (s : State) : Host.Outcome State Fault Refusal :=
  if bar2 ≤ off then .next (s.pageRead8 via off write)
  else
  let s := match via with
    | .vf f => if s.vfView f (off / 4 * 4) = 0 then s.violation f else s
    | _ => s
  .next (((s.evtPkg SYS_EVENT_BAD_ACCESS).badAddr via off).zeroRead off write)

end Sys2Proof.Machine
end

