-- ==== Sys2Proof/Machine/Service.lean ====
section
/-!
DEFINITION. Sys2Proof/Machine/Service.lean: the commands of the service console (R441, R544 to R558).
-/
namespace Sys2Proof.Machine

/-- A command of the console: discarded while another runs (R547), E ROM outside the ROM command set while the ROM console runs
(R546), and E BUSY outside service mode for a command marked Service (R548) (DEDUCED, log entry 65). -/
def State.consoleCmd (s : State) (rom svc : Bool) (go : State → State) : State :=
  if s.svc.run.isSome then s
  else if s.fbit SVC_STATUS_ROM 0 && !rom then s.errLine "ROM"
  else if svc && !s.fbit SVC_STATUS_MODE 0 then s.errLine "BUSY"
  else go s

/-- A command about a die of the package: E RANGE for another. -/
def State.onDie (s : State) (d : Nat) (go : State → State) : State := if d < s.nDies then go s else s.errLine "RANGE"

/-! ### What the console shows -/

/-- Commands of the ROM console, and those that only the firmware console has (R546, R549). -/
def romNames : List String := ["HELP", "IDENT", "STATUS", "SENSE", "LOG", "LEVEL", "SVC", "BAUD", "RESET"]
def fwNames : List String :=
  ["HELP", "IDENT", "STATUS", "UNITS", "SENSE", "LOG", "REG", "MEM", "SVC", "HOLD", "LEVEL", "PATTERN", "LOOP", "TEST", "FENCE", "UNFENCE",
    "INJECT", "PSTATE", "RESET", "BAUD", "DEBUG"]

/-- HELP. -/
def execHelp (s : State) : Host.Outcome State Fault Refusal :=
  .next (s.consoleCmd true false (fun s =>
    ((if s.fbit SVC_STATUS_ROM 0 then romNames else fwNames).foldl (fun (s : State) n => s.say [n]) s).okLine))

/-- The serial number in eight groups of four digits, the most significant first (DEDUCED, log entry 63). -/
def State.serialText (s : State) : String :=
  ["-" , "-", "-", "-", "-", "-", "-", ""].zip (List.range 8) |>.foldl (fun a x =>
    let w := s.fget (SEC_SERIAL_SERIAL.nth ((7 - x.2) / 2)) 0
    a ++ hexN 4 (if x.2 % 2 = 0 then w / 2 ^ 16 else w) ++ x.1) ""

/-- IDENT (DEDUCED, log entry 63; DEDUCED, log entry 149). -/
def execIdent (s : State) : Host.Outcome State Fault Refusal :=
  .next (s.consoleCmd true false (fun s =>
    let part := match s.variant with | .n820 => "NKV-820" | .n840 => "NKV-840" | .n880 => "NKV-880"
    (s.say ["IDENT", part, "B0", "DIES", decS s.nDies, "SERIAL", s.serialText, "SVN",
      decS (s.fget SEC_SVN_SVN_RUN 0) ++ "/" ++ decS (s.fget SEC_SVN_SVN_MIN 0), "SLOT", if s.fbit SEC_STATUS_BOOT_SLOT 0 then "B" else "A",
      "SEAL", decS (s.fget SEC_STATUS_DEBUG_SEALED 0), "MODE", if s.fbit SEC_STATUS_APPROVED 0 then "APPROVED" else "NONAPPROVED"]).okLine))

/-- Letters of the channel states (R300). -/
def chLetter : ChSt → String
  | .home => "H"
  | .twinRo => "T"
  | .returning => "R"
  | .fenced => "F"

/-- A STATUS line (DEDUCED, log entry 63). -/
def State.statusLine (s : State) (d : Nat) : State :=
  s.say ["DIE", decS d, "P" ++ decS (s.fget DPM_STATUS_STATE d), stateName (s.unitState uDie d 0), "PTN",
    match s.owner d with | some p => decS p | none => "-", "PANES", hex2 (s.fget CSM_STATUS_PANE_ACT d), "ATM", hex2 (s.fget CSM_STATUS_ATM_ACT d),
    "STACKS", hex2 (s.fget RAS_DIE_STATE_STACKS d), "CH", (List.range 16).foldl (fun a c => a ++ chLetter ((s.ftl d).chan c)) "",
    "LANES", decS (s.fget LNK_STATUS_LANES d)]

/-- STATUS. -/
def execStatus (d : Option Nat) (s : State) : Host.Outcome State Fault Refusal :=
  .next (s.consoleCmd true false (fun s =>
    match d with
    | some d => s.onDie d (fun s => (s.statusLine d).okLine)
    | none => ((List.range s.nDies).foldl (fun (s : State) d => s.statusLine d) s).okLine))

/-- UNITS. -/
def execUnits (d : Nat) (s : State) : Host.Outcome State Fault Refusal :=
  .next (s.consoleCmd false false (fun s => s.onDie d (fun s =>
    ((s.dieRows d).foldl (fun (s : State) x => if s.unitState x.1 d x.2 = usACTIVE then s else s.unitLine x.1 d x.2) s).okLine)))

/-- A SENSE line of a domain (DEDUCED, log entry 63). -/
def State.senseLine (s : State) (k : Nat) : State :=
  let (now, s) := s.sensed 16
  let (low, s) := s.senseLow k
  s.say (["SENSE", s.domName k, "NOW", decS now, "SET", decS (s.setpoint k), "MIN", decS low] ++ (if (s.dom k).warn then ["WARN"] else []))

/-- SENSE. -/
def execSense (dom : Option Nat) (s : State) : Host.Outcome State Fault Refusal :=
  .next (s.consoleCmd true false (fun s =>
    match dom with
    | some k => if 6 * s.nDies + 2 ≤ k then s.errLine "RANGE" else (s.senseLine k).okLine
    | none => ((List.range (6 * s.nDies + 2)).foldl (fun (s : State) k => s.senseLine k) s).okLine))

/-- LOG: the latest entries, 16 by default (R558) (DEDUCED, log entry 63). -/
def execLog (n : Option Nat) (s : State) : Host.Outcome State Fault Refusal :=
  .next (s.consoleCmd true false (fun s =>
    let l := s.svc.log
    ((l.drop (l.length - n.getD 16)).foldl (fun (s : State) e =>
      let k := e.2.1 / 2 ^ 24
      let d := e.2.1 / 2 ^ 16 % 2 ^ 8
      s.say ["LOG", decS e.1, kindName k, unitName d (e.2.1 % 2 ^ 16), hex2 e.2.2, codeName e.2.2]) s).okLine))

/-! ### Registers and memory -/

/-- A REG line. -/
def State.regLine (_ : State) (off : Nat) (r : Nat × State) : State := (r.2.say ["REG", hex8 off, "=", hex8 (r.1 % 2 ^ 32)]).okLine

/-- A BAR0 register read as the PF reads it (DEDUCED, log entry 65). -/
def State.consoleRead (s : State) (off : Nat) : Nat × State :=
  if off % 4 ≠ 0 then (0, (s.evtPkg SYS_EVENT_BAD_ACCESS).badAddr .console off)
  else if !s.mapped off then (0, (s.evtPkg SYS_EVENT_UNMAPPED).badAddr .console off)
  else s.readWord off

/-- REG addr (DEDUCED, log entry 65). -/
def execRegRead (off : Nat) (s : State) : Host.Outcome State Fault Refusal :=
  .next (s.consoleCmd false false (fun s => if bar2 ≤ off then s.errLine "RANGE" else s.regLine off (s.consoleRead off)))

/-- REG addr value (R565): the SEC block is refused (DEDUCED, log entry 65). -/
def execRegWrite (off v : Nat) (s : State) : Host.Outcome State Fault Refusal :=
  .next (s.consoleCmd false true (fun s =>
    if bar2 ≤ off ∨ 2 ^ 32 ≤ v ∨ (0x40000 ≤ off ∧ off < 0x50000) then s.errLine "RANGE"
    else
      let s := if off % 4 = 0 then s.regWriteWord .console off v else s
      s.regLine off (s.consoleRead off)))

/-- Key of a byte of HBM. -/
def hbmKey (d a : Nat) : Nat := d * 2 ^ 38 + a

/-- The byte of HBM at `a`: 0 where the console wrote none (log entry 7). -/
def State.hbmByte (s : State) (d a : Nat) : Byte := dget s.hbm 0 (hbmKey d a)

/-- Words of HBM the console may reach: aligned, and on one of the three stacks (R571) (DESIGN CHOICE, log entry 7). -/
def hbmOk (a n : Nat) : Bool := decide (a % 8 = 0) && decide (1 ≤ n) && decide (n ≤ 64) && decide (a + 8 * n ≤ 3 * 2 ^ 36)

/-- A word of HBM, little-endian (DEDUCED, log entry 64). -/
def State.hbmWord (s : State) (d a : Nat) : Nat := (List.range 8).foldl (fun v i => v + (s.hbmByte d (a + i)).toNat * 2 ^ (8 * i)) 0

/-- A MEM line. -/
def State.memLine (s : State) (d a : Nat) : State := s.say ["MEM", "0x" ++ hexN 10 a, "0x" ++ hexN 16 (s.hbmWord d a)]

/-- MEM, which DEBUG_SEAL ends (R440, R552) (DEDUCED, log entry 64; DEDUCED, log entry 65). -/
def State.memCmd (s : State) (d a n : Nat) (go : State → State) : State :=
  if s.svc.run.isNone && !s.fbit SVC_STATUS_ROM 0 && s.fbit SEC_STATUS_DEBUG_SEALED 0 then s.errLine "SEALED"
  else s.consoleCmd false true (fun s => s.onDie d (fun s => if hbmOk a n then go s else s.errLine "RANGE"))

/-- MEM d addr [n]. -/
def execMemRead (d addr n : Nat) (s : State) : Host.Outcome State Fault Refusal :=
  .next (s.memCmd d addr n (fun s => ((List.range n).foldl (fun (s : State) i => s.memLine d (addr + 8 * i)) s).okLine))

/-- The eight bytes of a word stored (DEDUCED, log entry 64). -/
def State.hbmStore (s : State) (d a v : Nat) : State :=
  { s with hbm := (List.range 8).foldl (fun m i => dset m 0 (hbmKey d (a + i)) (BitVec.ofNat 8 (v / 2 ^ (8 * i)))) s.hbm }

/-- MEM d addr = value. -/
def execMemWrite (d addr v : Nat) (s : State) : Host.Outcome State Fault Refusal :=
  .next (s.memCmd d addr 1 (fun s => if 2 ^ 64 ≤ v then s.errLine "RANGE" else ((s.hbmStore d addr v).memLine d addr).okLine))

/-! ### Service mode and static conditions (R548, R550, R553, R554) -/

/-- SVC ON. -/
def execSvcOn (s : State) : Host.Outcome State Fault Refusal :=
  .next (s.consoleCmd true false (fun s =>
    if s.fbit SVC_STATUS_MODE 0 then s.okLine
    else if s.fbit SVC_CTRL_HOST_LOCK 0 || (List.range 8).any (fun p => s.ptnState p != ptnFree) then s.errLine "BUSY"
    else ((s.fset SVC_STATUS_MODE 0 1).evtPkg SVC_EVENT_SVC_ON).okLine))

/-- SVC OFF: static conditions end, and the TAP lets go of the pins (R550, R559) (DESIGN CHOICE, log entry 69). -/
def execSvcOff (s : State) : Host.Outcome State Fault Refusal :=
  .next (s.consoleCmd true false (fun s =>
    if !s.fbit SVC_STATUS_MODE 0 then s.okLine
    else
      let s := { s.endStatics with svc := { s.endStatics.svc with drive := .normal } }
      ((s.fset SVC_STATUS_MODE 0 0).evtPkg SVC_EVENT_SVC_OFF).okLine))

/-- A HOLD line. -/
def State.holdLine (s : State) (d : Nat) : State :=
  (s.say ["HOLD", decS d, "CAS", decS (s.fget DPM_VOLT_CAS d), "LOG", decS (s.fget DPM_VOLT_LOG d)]).okLine

/-- HOLD d ON: the die goes to P0, its setpoints to nominal (DEDUCED, log entry 53). -/
def execHoldOn (d : Nat) (s : State) : Host.Outcome State Fault Refusal :=
  .next (s.consoleCmd false true (fun s => s.onDie d (fun s =>
    let s := if s.fget DPM_STATUS_STATE d = 1 then s.powerTo d 0 1 else s.requestState d 0
    let s := { s with pwr := { s.pwr with hold := if s.pwr.hold.contains d then s.pwr.hold else s.pwr.hold ++ [d] } }
    ((s.setVolts d 700 750).staticBit).holdLine d)))

/-- HOLD d OFF. -/
def execHoldOff (d : Nat) (s : State) : Host.Outcome State Fault Refusal :=
  .next (s.consoleCmd false true (fun s => s.onDie d (fun s =>
    (({ s with pwr := { s.pwr with hold := s.pwr.hold.filter (· != d) } } : State).staticBit).holdLine d)))

/-- The level pins as they now are, driven and printed. -/
def State.levelLine (s : State) : State := ((s.emit (.pin 2 s.pinsNow)).say ["LEVEL", hex2 s.pinsNow]).okLine

/-- LEVEL value. -/
def execLevel (v : Nat) (s : State) : Host.Outcome State Fault Refusal :=
  .next (s.consoleCmd true true (fun s =>
    if 256 ≤ v then s.errLine "RANGE" else (((s.fset SVC_LEVEL_FORCED 0 1).fset SVC_LEVEL_PINS 0 v).staticBit).levelLine))

/-- LEVEL AUTO. -/
def execLevelAuto (s : State) : Host.Outcome State Fault Refusal :=
  .next (s.consoleCmd true false (fun s => ((s.fset SVC_LEVEL_FORCED 0 0).staticBit).levelLine))

/-- A PATTERN line. -/
def State.patternLine (s : State) (d c byte : Nat) : State :=
  (s.say ["PATTERN", unitName d c, "DQ", hex2 byte, "CE_N", "1"]).okLine

/-- PATTERN d c byte: E BUSY on a channel that the twin reads or that returns; DATA is filed FENCED first (DEDUCED, log entry 149). -/
def execPattern (d c byte : Nat) (s : State) : Host.Outcome State Fault Refusal :=
  .next (s.consoleCmd false true (fun s => s.onDie d (fun s =>
    if 16 ≤ c ∨ 256 ≤ byte then s.errLine "RANGE"
    else if (s.ftl d).chan c = .twinRo ∨ (s.ftl d).chan c = .returning then s.errLine "BUSY"
    else
      let s := s.report uChan d c false 2
      let s := { s with svc := { s.svc with patterns := tput s.svc.patterns (16 * d + c) byte } }
      s.staticBit.patternLine d c byte)))

/-- PATTERN d c OFF: the line names the byte that the channel drove, and none where it drove none (DEDUCED, log entry 149). -/
def execPatternOff (d c : Nat) (s : State) : Host.Outcome State Fault Refusal :=
  .next (s.consoleCmd false true (fun s => s.onDie d (fun s =>
    if 16 ≤ c then s.errLine "RANGE"
    else
      match tget s.svc.patterns (16 * d + c) with
      | some byte => (s.endPattern (16 * d + c)).patternLine d c byte
      | none => s.okLine)))

/-! ### Tests (R551, R556) -/

/-- A unit that may not run gives 0xFE. -/
def State.sayNotRun (s : State) (k d i : Nat) : State :=
  (((s.stLine k d i 0xFE).logTest k d i 0xFE).countTest 0xFE).errLine "FAIL"

/-- TEST kind d i. -/
def execTest (kind d i : Nat) (s : State) : Host.Outcome State Fault Refusal :=
  .next (s.consoleCmd false true (fun s => s.onDie d (fun s =>
    if kind = 0 ∨ 12 < kind then s.errLine "SYNTAX"
    else if s.notRun kind d i then s.sayNotRun kind d i
    else (s.startTest kind d i).setRun (some (.test kind d i)))))

/-- TEST DIE d: the supplies, then every unit in the order of R474 (DEDUCED, log entry 66; DEDUCED, log entry 150). -/
def execTestDie (d : Nat) (s : State) : Host.Outcome State Fault Refusal :=
  .next (s.consoleCmd false true (fun s => s.onDie d (fun s =>
    let (first, s) := s.supplies d
    s.nextOfDie d first [] ((s.dieRows d).filter (fun x => x.1 != uDie)))))

/-- LOOP kind d i NEAR or FAR: a FAR loop of a port takes its link down (DEDUCED, log entry 66). -/
def execLoop (kind d i : Nat) (far : Bool) (lanes : List (Nat × Nat × Nat)) (s : State) : Host.Outcome State Fault Refusal :=
  .next (s.consoleCmd false true (fun s => s.onDie d (fun s =>
    if !([uFabric, uHost, uChan, uStack, uLink].contains kind) then s.errLine "SYNTAX"
    else if s.notRun kind d i then s.sayNotRun kind d i
    else
      let s := if far && kind == uFabric then s.fabricDown d
        else if far && kind == uHost then (match s.hostPortOf d with | some x => s.portDown x | none => s)
        else s
      (s.startTest kind d i).setRun (some (.loop kind d i far lanes)))))

/-- A command on the row of a unit as RAS_UNIT_CMD acts on it: E RANGE where there is none. -/
def State.onUnit (s : State) (k d i : Nat) (go : State → State) : State :=
  if !s.unitExists k d i then s.errLine "RANGE" else if (s.row uDie d 0).lost then (s.unitLine k d i).okLine else go s

/-- FENCE kind d i (DEDUCED, log entry 67). -/
def execFence (kind d i : Nat) (s : State) : Host.Outcome State Fault Refusal :=
  .next (s.consoleCmd false true (fun s => s.onDie d (fun s => s.onUnit kind d i (fun s => ((s.report kind d i false 2).unitLine kind d i).okLine))))

/-- UNFENCE kind d i: the unit's self-test runs (DEDUCED, log entry 67). -/
def execUnfence (kind d i : Nat) (s : State) : Host.Outcome State Fault Refusal :=
  .next (s.consoleCmd false true (fun s => s.onDie d (fun s => s.onUnit kind d i (fun s =>
    (s.startTest kind d i).setRun (some (.unfence kind d i))))))

/-! ### Injections (R549) -/

/-- INJECT PANE d i: the test tile's first mismatch and its clean rerun (R146, R149). -/
def execInjectPane (d i : Nat) (seen : Bool) (s : State) : Host.Outcome State Fault Refusal :=
  .next (s.consoleCmd false true (fun s => s.onDie d (fun s =>
    if 4 ≤ i then s.errLine "RANGE"
    else if !seen || s.fbitAt CSM_PANE_FENCE_FENCED d i || s.shadowed d then s.errLine "FAIL"
    else
      let s := ((s.fadd CSM_MISMATCH_COUNT d 1).fadd (CSM_PANE_RETRY_COUNT.nth i) d 1).evtDie CSM_EVENT_MISMATCH d
      (s.say ["INJECT", "PANE", unitName d i, "SEEN", "RETRY", decS (s.fget (CSM_PANE_RETRY_COUNT.nth i) d)]).okLine)))

/-- INJECT ATM d i (R207, R215). -/
def execInjectAtm (d i : Nat) (seen : Bool) (s : State) : Host.Outcome State Fault Refusal :=
  .next (s.consoleCmd false true (fun s => s.onDie d (fun s =>
    if 4 ≤ i then s.errLine "RANGE"
    else if !seen || s.fbitAt ATM_FENCE_FENCED d i || s.shadowed d then s.errLine "FAIL"
    else ((s.evtDie ATM_EVENT_INJECT_SEEN d).say ["INJECT", "ATM", unitName d i, "SEEN"]).okLine)))

/-- INJECT FLASH d: a die without a checkpoint starts one first; `r` is the read of its first sector (R279) (DEDUCED, log entry 67). -/
def execInjectFlash (d : Nat) (r : SectorRead) (t : Nat) (s : State) : Host.Outcome State Fault Refusal :=
  let s := s.advanceTo t
  .next (s.consoleCmd false true (fun s => s.onDie d (fun s =>
    if !s.fbit FTL_STATUS_READY d || s.shadowed d then s.errLine "BUSY"
    else
      let s := if (s.ftl d).ckptNo = 0 then s.startCkpt d else s
      let s := s.modFtl d (fun f => { f with inject := true })
      let s := (s.readSector d r).2
      if s.fbit FTL_EVENT_INJECT_SEEN d then (s.say ["INJECT", "FLASH", decS d, "SEEN"]).okLine else s.errLine "FAIL")))

/-! ### Power, resets, rate, deep debug -/

/-- PSTATE d P0, P2 or P3 (R504) (DEDUCED, log entry 63). -/
def execPstate (d st : Nat) (s : State) : Host.Outcome State Fault Refusal :=
  .next (s.consoleCmd false true (fun s => s.onDie d (fun s =>
    if st = 1 ∨ 4 ≤ st then s.errLine "SYNTAX"
    else
      let s := (s.fset DPM_CTRL_STATE_REQ d st).requestState d st
      let now := match tget s.pwr.target d with | some x => x / 4 | none => s.fget DPM_STATUS_STATE d
      (s.say ["PSTATE", decS d, "P" ++ decS now]).okLine)))

/-- RESET COLD: in any mode in the ROM console (DEDUCED, log entry 67). -/
def execResetCold (code t : Nat) (s : State) : Host.Outcome State Fault Refusal :=
  let s := s.advanceTo t
  .next (s.consoleCmd true (!s.fbit SVC_STATUS_ROM 0) (fun s => s.okLine.coldReset 4 code))

/-- RESET WARM. -/
def execResetWarm (t : Nat) (s : State) : Host.Outcome State Fault Refusal :=
  let s := s.advanceTo t
  .next (s.consoleCmd false true (fun s => s.okLine.warmReset 7))

/-- RESET DIE d. -/
def execResetDie (d bad t : Nat) (s : State) : Host.Outcome State Fault Refusal :=
  let s := s.advanceTo t
  .next (s.consoleCmd false true (fun s => s.onDie d (fun s => s.okLine.resetDie d bad)))

/-- Rates of R544. -/
def baudRates : List Nat := [115200, 230400, 460800, 921600, 1000000, 2000000, 3000000]

/-- BAUD: OK goes out at the old rate. -/
def execBaud (rate : Nat) (s : State) : Host.Outcome State Fault Refusal :=
  .next (s.consoleCmd true false (fun s =>
    if baudRates.contains rate then { s.okLine with svc := { s.okLine.svc with baudNext := some (rate / 100) } } else s.errLine "RANGE"))

/-- BAUD_SWITCH: the line has been idle for 10 ms. -/
def execBaudSwitch (s : State) : Host.Outcome State Fault Refusal :=
  match s.svc.baudNext with
  | none => .next s
  | some r => .next ({ s.fset SVC_BAUD_RATE 0 r with svc := { s.svc with baudNext := none } })

/-- DEBUG OPEN: the keys of SEC RAM and of the engine key slots are zeroized, and the module stays in ERROR (R441) (DEDUCED, log entry 68). -/
def execDebugOpen (s : State) : Host.Outcome State Fault Refusal :=
  .next (if s.svc.run.isNone && !s.fbit SVC_STATUS_ROM 0 && s.fbit SEC_STATUS_DEBUG_SEALED 0 then s.errLine "SEALED"
    else s.consoleCmd false true (fun s =>
      let s := { s with sec := { s.sec with keys := [] } }
      let s := (List.range s.nDies).foldl (fun (s : State) d =>
        s.modLnk d (fun l => { l with cak := none, mkaPeers := [], mkaServers := [], asked := false, rekey := none, txSa := false, rxSas := [], txPn := 1 })) s
      (s.enterError.say ["DEBUG", "OPEN", "KEYS", "ZEROIZED"]).okLine))

/-- CONSOLE_ABORT: the byte 0x03 (R547) (DEDUCED, log entry 66). -/
def execConsoleAbort (s : State) : Host.Outcome State Fault Refusal := .next s.svcAbort

/-- CONSOLE_BREAK (R545) (DESIGN CHOICE, log entry 86). -/
def execConsoleBreak (s : State) : Host.Outcome State Fault Refusal :=
  .next ((({ s with svc := { s.svc with baudNext := none } } : State).fset SVC_BAUD_RATE 0 0x480).evtPkg SVC_EVENT_BREAK)

/-- AON_HEARTBEAT: each second (R553) (DESIGN CHOICE, log entry 69). -/
def execAonHeartbeat (s : State) : Host.Outcome State Fault Refusal :=
  let s := { s with svc := { s.svc with beat := !s.svc.beat } }
  .next (if s.fbit SVC_LEVEL_FORCED 0 then s else s.emit (.pin 2 s.pinsNow))

end Sys2Proof.Machine
end

