-- ==== Sys2Proof/Machine/Tap.lean ====
section
/-!
DEFINITION. Sys2Proof/Machine/Tap.lean: the instructions of the boundary-scan TAP (R440, R559).
-/
namespace Sys2Proof.Machine

/-- The TAP takes an instruction: what it drives from now on, and the bits shifted out. -/
def State.tapTake (s : State) (ir : Nat) (drive : TapDrive) (bits : List Bool) : State :=
  ({ s with svc := { s.svc with tapIr := ir, drive := drive } }).emit (.tap ir bits)

/-- Through the bypass register: a 0 first, then the bits shifted in. -/
def bypassed (din : List Bool) : List Bool := (false :: din).take din.length

/-- Capture and preload of the boundary register. -/
def State.tapSample (s : State) (ir : Nat) (drive : TapDrive) (captured din : List Bool) : State :=
  ({ s with svc := { s.svc with boundary := din } }).tapTake ir drive captured

/-- The IDCODE register (DESIGN CHOICE, log entry 69). -/
def State.idcodeWord (s : State) : Nat :=
  0xB * 2 ^ 28 + s.identWord / 2 ^ 16 * 2 ^ 12 + Config.jedec % 2 ^ 11 * 2 + 1

/-- IDCODE, bit 0 first. -/
def execIdcode (s : State) : Host.Outcome State Fault Refusal :=
  .next (s.tapTake 1 .normal ((List.range 32).map (fun i => s.idcodeWord.testBit i)))

/-- SAMPLE/PRELOAD. -/
def execSamplePreload (captured din : List Bool) (s : State) : Host.Outcome State Fault Refusal :=
  .next (s.tapSample 2 .normal captured din)

/-- EXTEST, in service mode; otherwise as SAMPLE/PRELOAD. -/
def execExtest (captured din : List Bool) (s : State) : Host.Outcome State Fault Refusal :=
  .next (s.tapSample 3 (if s.fbit SVC_STATUS_MODE 0 then .boundary else .normal) captured din)

/-- CLAMP, in service mode; otherwise as SAMPLE/PRELOAD. -/
def execClamp (captured din : List Bool) (s : State) : Host.Outcome State Fault Refusal :=
  .next (if s.fbit SVC_STATUS_MODE 0 then s.tapTake 4 .boundary (bypassed din) else s.tapSample 4 .normal captured din)

/-- HIGHZ, in service mode; otherwise as SAMPLE/PRELOAD. -/
def execHighz (captured din : List Bool) (s : State) : Host.Outcome State Fault Refusal :=
  .next (if s.fbit SVC_STATUS_MODE 0 then s.tapTake 5 .highz (bypassed din) else s.tapSample 5 .normal captured din)

/-- BYPASS. -/
def execBypass (din : List Bool) (s : State) : Host.Outcome State Fault Refusal := .next (s.tapTake 0xFF .normal (bypassed din))

/-- Internal scan: as BYPASS after DEBUG_SEAL; before it, what the chains shift out is free (DESIGN CHOICE, log entry 69). -/
def execInternalScan (code : Nat) (din : List Bool) (s : State) : Host.Outcome State Fault Refusal :=
  if code < 0x10 ∨ 0xFE < code then .next s
  else if s.fbit SEC_STATUS_DEBUG_SEALED 0 then .next (s.tapTake code .normal (bypassed din))
  else
    let n := s.free
    let bits := (List.range din.length).map (fun i => Config.scan (n + i))
    .next (({ s with free := n + din.length }).tapTake code .normal bits)

/-- TEST_LOGIC_RESET: IDCODE is selected, and the pins are the part's. -/
def execTestLogicReset (s : State) : Host.Outcome State Fault Refusal :=
  .next { s with svc := { s.svc with tapIr := 1, drive := .normal } }

end Sys2Proof.Machine
end

