-- ==== Sys2Proof/Machine/Dispatch.lean ====
section
/-!
DEFINITION. Sys2Proof/Machine/Dispatch.lean: the meaning of every command, one arm per constructor.
-/
namespace Sys2Proof.Machine
open Sys2Proof

/-- The effect of a command on everything but the queue. -/
def exec (i : Instr) (s : State) : Host.Outcome State Fault Refusal :=
  match i with
  | .tickBoundary p t => Sys2Proof.Machine.execTickBoundary p t s
  | .slotBoundary p t => Sys2Proof.Machine.execSlotBoundary p t s
  | .ptpSyncRx d offset t => Sys2Proof.Machine.execPtpSyncRx d offset t s
  | .ptpAnnounceRx d dom logInt t => Sys2Proof.Machine.execPtpAnnounceRx d dom logInt t s
  | .announceTimeout t => Sys2Proof.Machine.execAnnounceTimeout t s
  | .srcChange heard t => Sys2Proof.Machine.execSrcChange heard t s
  | .holdLimitExpiry t => Sys2Proof.Machine.execHoldLimitExpiry t s
  | .discEnClear via => Sys2Proof.Machine.execDiscEnClear via s
  | .stepNow via => Sys2Proof.Machine.execStepNow via s
  | .tikPeriodEnWrite p en via => Sys2Proof.Machine.execTikPeriodEnWrite p en via s
  | .tikPeriodWrite p n slots t via => Sys2Proof.Machine.execTikPeriodWrite p n slots t via s
  | .periodChangeApply p t => Sys2Proof.Machine.execPeriodChangeApply p t s
  | .tikTimeNsRead via => Sys2Proof.Machine.execTikTimeNsRead via s
  | .tikTickLoRead p via => Sys2Proof.Machine.execTikTickLoRead p via s
  | .sweepStart d t => Sys2Proof.Machine.execSweepStart d t s
  | .planComplete d sweep => Sys2Proof.Machine.execPlanComplete d sweep s
  | .blockFetchDone d page blk tab ue => Sys2Proof.Machine.execBlockFetchDone d page blk tab ue s
  | .blockExpandDone d page blk read wait => Sys2Proof.Machine.execBlockExpandDone d page blk read wait s
  | .tileProductDone d pane page blk head group n mismatch issued stall t => Sys2Proof.Machine.execTileProductDone d pane page blk head group n mismatch issued stall t s
  | .recordFinalise d sweep r bad t => Sys2Proof.Machine.execRecordFinalise d sweep r bad t s
  | .resultDelivered d sweep r t => Sys2Proof.Machine.execResultDelivered d sweep r t s
  | .mapCreate d seq ctx lookup parked toks => Sys2Proof.Machine.execMapCreate d seq ctx lookup parked toks s
  | .mapAppend d seq layer pos toks data => Sys2Proof.Machine.execMapAppend d seq layer pos toks data s
  | .sealComplete die page ok => Sys2Proof.Machine.execSealComplete die page ok s
  | .chunkCompletion die seq => Sys2Proof.Machine.execChunkCompletion die seq s
  | .mapWrite d seq layer pos data => Sys2Proof.Machine.execMapWrite d seq layer pos data s
  | .mapTruncate d seq len => Sys2Proof.Machine.execMapTruncate d seq len s
  | .mapFork d seq src len parked => Sys2Proof.Machine.execMapFork d seq src len parked s
  | .mapFree d seq => Sys2Proof.Machine.execMapFree d seq s
  | .treeEvict d ctx cascade chain => Sys2Proof.Machine.execTreeEvict d ctx cascade chain s
  | .autoEvict die => Sys2Proof.Machine.execAutoEvict die s
  | .pfxEnable die via => Sys2Proof.Machine.execPfxEnable die via s
  | .sweepSet q ctx b => Sys2Proof.Machine.execSweepSet q ctx b s
  | .csmEnWrite d en via => Sys2Proof.Machine.execCsmEnWrite d en via s
  | .csmInject d mask via => Sys2Proof.Machine.execCsmInject d mask via s
  | .paneFence d fence unfence via => Sys2Proof.Machine.execPaneFence d fence unfence via s
  | .paneUnfence d fence unfence pass via => Sys2Proof.Machine.execPaneUnfence d fence unfence pass via s
  | .latentLoad q ctx first countM1 fmt bytes bundle img => Sys2Proof.Machine.execLatentLoad q ctx first countM1 fmt bytes bundle img s
  | .gradOpen q ctx grad seq first countM1 posFirst posCount => Sys2Proof.Machine.execGradOpen q ctx grad seq first countM1 posFirst posCount s
  | .gradClose q ctx grad keep dest room => Sys2Proof.Machine.execGradClose q ctx grad keep dest room s
  | .rebuildDone d page read => Sys2Proof.Machine.execRebuildDone d page read s
  | .atmFence d fence unfence via => Sys2Proof.Machine.execAtmFence d fence unfence via s
  | .atmUnfence d fence unfence pass via => Sys2Proof.Machine.execAtmUnfence d fence unfence pass via s
  | .atmInject d mask via => Sys2Proof.Machine.execAtmInject d mask via s
  | .atmLoRead d which via => Sys2Proof.Machine.execAtmLoRead d which via s
  | .seqClass d seq ctx parked => Sys2Proof.Machine.execSeqClass d seq ctx parked s
  | .ctxQuota d ctx hbmMax hbmMin flashMax => Sys2Proof.Machine.execCtxQuota d ctx hbmMax hbmMin flashMax s
  | .pinSet d id p => Sys2Proof.Machine.execPinSet d id p s
  | .pinClear d id ctx => Sys2Proof.Machine.execPinClear d id ctx s
  | .prefetch d h => Sys2Proof.Machine.execPrefetch d h s
  | .chunkExport d ctx replica die key chain off room => Sys2Proof.Machine.execChunkExport d ctx replica die key chain off room s
  | .chunkImport d ctx replica key off bytes => Sys2Proof.Machine.execChunkImport d ctx replica key off bytes s
  | .stagingReadDone d page read => Sys2Proof.Machine.execStagingReadDone d page read s
  | .heldExpiry d t => Sys2Proof.Machine.execHeldExpiry d t s
  | .placementScan d page => Sys2Proof.Machine.execPlacementScan d page s
  | .flashProgramDone d band stripe member ok ns => Sys2Proof.Machine.execFlashProgramDone d band stripe member ok ns s
  | .sectorReadDone d use r t => Sys2Proof.Machine.execSectorReadDone d use r t s
  | .journalWindowExpiry d t => Sys2Proof.Machine.execJournalWindowExpiry d t s
  | .journalPageDurable d n ns => Sys2Proof.Machine.execJournalPageDurable d n ns s
  | .checkpointStart d t => Sys2Proof.Machine.execCheckpointStart d t s
  | .ckptNow d via => Sys2Proof.Machine.execCkptNow d via s
  | .gcStart d => Sys2Proof.Machine.execGcStart d s
  | .eraseDone d band failed ns => Sys2Proof.Machine.execEraseDone d band failed ns s
  | .pwrLossQualified t => Sys2Proof.Machine.execPwrLossQualified t s
  | .pwrLossRelease t => Sys2Proof.Machine.execPwrLossRelease t s
  | .ftlEnable d en luns via => Sys2Proof.Machine.execFtlEnable d en luns via s
  | .ftlReplay d seen t => Sys2Proof.Machine.execFtlReplay d seen t s
  | .patrolRead d reads t => Sys2Proof.Machine.execPatrolRead d reads t s
  | .channelCmdTimeout d c t => Sys2Proof.Machine.execChannelCmdTimeout d c t s
  | .channelFence d fence unfence via => Sys2Proof.Machine.execChannelFence d fence unfence via s
  | .channelUnfence d fence unfence pass via => Sys2Proof.Machine.execChannelUnfence d fence unfence pass via s
  | .reclaim d via => Sys2Proof.Machine.execReclaim d via s
  | .release d via => Sys2Proof.Machine.execRelease d via s
  | .ftlInject d via => Sys2Proof.Machine.execFtlInject d via s
  | .ftlJseqLoRead d via => Sys2Proof.Machine.execFtlJseqLoRead d via s
  | .sqTailDoorbell p x n idx w32 => Sys2Proof.Machine.execSqTailDoorbell p x n idx w32 s
  | .cqHeadDoorbell p x n idx w32 => Sys2Proof.Machine.execCqHeadDoorbell p x n idx w32 s
  | .descriptorFetch p x descs fail => Sys2Proof.Machine.execDescriptorFetch p x descs fail s
  | .nop d => Sys2Proof.Machine.execNop d s
  | .resync d dest room adopt => Sys2Proof.Machine.execResync d dest room adopt s
  | .ringCreate d cq id log2 flags link coalCount coalTime base => Sys2Proof.Machine.execRingCreate d cq id log2 flags link coalCount coalTime base s
  | .ringDelete d cq id => Sys2Proof.Machine.execRingDelete d cq id s
  | .step d img output statusAddr t => Sys2Proof.Machine.execStep d img output statusAddr t s
  | .interruptCoalesceTimeout p x cq t => Sys2Proof.Machine.execInterruptCoalesceTimeout p x cq t s
  | .hrgEnWrite p x en => Sys2Proof.Machine.execHrgEnWrite p x en s
  | .hostFunctionLoss loss => Sys2Proof.Machine.execHostFunctionLoss loss s
  | .ptnBindWrite p v => Sys2Proof.Machine.execPtnBindWrite p v s
  | .ptnDiesWrite p v => Sys2Proof.Machine.execPtnDiesWrite p v s
  | .seal p => Sys2Proof.Machine.execSeal p s
  | .partitionReset p t => Sys2Proof.Machine.execPartitionReset p t s
  | .nrtDataPacketRx d h p v4 addr dscp ce wf sum t => Sys2Proof.Machine.execNrtDataPacketRx d h p v4 addr dscp ce wf sum t s
  | .readReqRx d h v4 addr dscp wf sum t => Sys2Proof.Machine.execReadReqRx d h v4 addr dscp wf sum t s
  | .readRespRx d h p v4 addr dscp wf sum t => Sys2Proof.Machine.execReadRespRx d h p v4 addr dscp wf sum t s
  | .ackRx d h wf sum t => Sys2Proof.Machine.execAckRx d h wf sum t s
  | .nakRx d h wf sum t => Sys2Proof.Machine.execNakRx d h wf sum t s
  | .snackRx d h ranges wf sum t => Sys2Proof.Machine.execSnackRx d h ranges wf sum t s
  | .pathTmoExpiry d src msg read t => Sys2Proof.Machine.execPathTmoExpiry d src msg read t s
  | .ackTmoExpiry d roce id t => Sys2Proof.Machine.execAckTmoExpiry d roce id t s
  | .holdTmoExpiry d src msg t => Sys2Proof.Machine.execHoldTmoExpiry d src msg t s
  | .lingerExpiry d t => Sys2Proof.Machine.execLingerExpiry d t s
  | .rateStepTimer d peer t => Sys2Proof.Machine.execRateStepTimer d peer t s
  | .keyRegister q b => Sys2Proof.Machine.execKeyRegister q b s
  | .keyRevoke q key keep => Sys2Proof.Machine.execKeyRevoke q key keep s
  | .keyScrubbed d entry => Sys2Proof.Machine.execKeyScrubbed d entry s
  | .peerSet q b => Sys2Proof.Machine.execPeerSet q b s
  | .remoteKey q key peer unbind => Sys2Proof.Machine.execRemoteKey q key peer unbind s
  | .counterSet q d add index value => Sys2Proof.Machine.execCounterSet q d add index value s
  | .counterWait q d index thresh timeout => Sys2Proof.Machine.execCounterWait q d index thresh timeout s
  | .counterWaitTimeout d t => Sys2Proof.Machine.execCounterWaitTimeout d t s
  | .arm q b => Sys2Proof.Machine.execArm q b s
  | .armCancel q d index => Sys2Proof.Machine.execArmCancel q d index s
  | .rocePacketRx d h b v4 dscp ce icrcOk t => Sys2Proof.Machine.execRocePacketRx d h b v4 dscp ce icrcOk t s
  | .nrtInject d via => Sys2Proof.Machine.execNrtInject d via s
  | .frameTransmit d t => Sys2Proof.Machine.execFrameTransmit d t s
  | .frameRx d k sec icvOk p v4 addr dscp ce wf sum t => Sys2Proof.Machine.execFrameRx d k sec icvOk p v4 addr dscp ce wf sum t s
  | .mkaFrameRx d mi prio first leave wantSak sak cakOk t => Sys2Proof.Machine.execMkaFrameRx d mi prio first leave wantSak sak cakOk t s
  | .sakInstalled d => Sys2Proof.Machine.execSakInstalled d s
  | .rekeyTimer d t => Sys2Proof.Machine.execRekeyTimer d t s
  | .rekeyNow d via => Sys2Proof.Machine.execRekeyNow d via s
  | .securedLost d sa => Sys2Proof.Machine.execSecuredLost d sa s
  | .lnkEnWrite d en via => Sys2Proof.Machine.execLnkEnWrite d en via s
  | .laneFailure d bad => Sys2Proof.Machine.execLaneFailure d bad s
  | .shutterGateChange d t => Sys2Proof.Machine.execShutterGateChange d t s
  | .shutterCommit d via => Sys2Proof.Machine.execShutterCommit d via s
  | .policerCommit d v via => Sys2Proof.Machine.execPolicerCommit d v via s
  | .latClr d via => Sys2Proof.Machine.execLatClr d via s
  | .lnkTxpnLoRead d via => Sys2Proof.Machine.execLnkTxpnLoRead d via s
  | .ctxCreate q ctx home latent model layersM1 h dim w g format tail => Sys2Proof.Machine.execCtxCreate q ctx home latent model layersM1 h dim w g format tail s
  | .ctxDestroy q ctx force => Sys2Proof.Machine.execCtxDestroy q ctx force s
  | .attest q dest room certs nonce => Sys2Proof.Machine.execAttest q dest room certs nonce s
  | .cakSet q die ckn bytes obj => Sys2Proof.Machine.execCakSet q die ckn bytes obj s
  | .tenantRemove q dest t => Sys2Proof.Machine.execTenantRemove q dest t s
  | .removalStepEnd p t => Sys2Proof.Machine.execRemovalStepEnd p t s
  | .fwStage port obj img => Sys2Proof.Machine.execFwStage port obj img s
  | .fwSelect port obj slot => Sys2Proof.Machine.execFwSelect port obj slot s
  | .svnCommit port obj => Sys2Proof.Machine.execSvnCommit port obj s
  | .approvedSet port obj mode => Sys2Proof.Machine.execApprovedSet port obj mode s
  | .tenantKey port obj p key => Sys2Proof.Machine.execTenantKey port obj p key s
  | .remove port obj p dest t => Sys2Proof.Machine.execRemove port obj p dest t s
  | .zeroize port obj => Sys2Proof.Machine.execZeroize port obj s
  | .debugSeal port obj => Sys2Proof.Machine.execDebugSeal port obj s
  | .ownerProvision port obj key => Sys2Proof.Machine.execOwnerProvision port obj key s
  | .selftestNow via code => Sys2Proof.Machine.execSelftestNow via code s
  | .wicketWatchdogExpiry d w t => Sys2Proof.Machine.execWicketWatchdogExpiry d w t s
  | .wicketTakeTask d w fresh t => Sys2Proof.Machine.execWicketTakeTask d w fresh t s
  | .hbmScrubPass d hbm sramCe sram last t => Sys2Proof.Machine.execHbmScrubPass d hbm sramCe sram last t s
  | .d2dFlitRx d e rx => Sys2Proof.Machine.execD2dFlitRx d e rx s
  | .dieFence d cause t => Sys2Proof.Machine.execDieFence d cause t s
  | .adoption d t => Sys2Proof.Machine.execAdoption d t s
  | .dieAssign q die => Sys2Proof.Machine.execDieAssign q die s
  | .unitTest q kind die index => Sys2Proof.Machine.execUnitTest q kind die index s
  | .unitFence q kind die index => Sys2Proof.Machine.execUnitFence q kind die index s
  | .lossList q dest room => Sys2Proof.Machine.execLossList q dest room s
  | .selftestComplete k d u code t => Sys2Proof.Machine.execSelftestComplete k d u code t s
  | .rasUnitFenceCmd via => Sys2Proof.Machine.execRasUnitFenceCmd via s
  | .rasUnitTestCmd via => Sys2Proof.Machine.execRasUnitTestCmd via s
  | .rasUnitRow0Read via => Sys2Proof.Machine.execRasUnitRow0Read via s
  | .getUnits die first count => Sys2Proof.Machine.execGetUnits die first count s
  | .reportUnit kind die index report t => Sys2Proof.Machine.execReportUnit kind die index report t s
  | .getAttest part certs nonce offset => Sys2Proof.Machine.execGetAttest part certs nonce offset s
  | .getRas die => Sys2Proof.Machine.execGetRas die s
  | .setEndpointId pcie eid => Sys2Proof.Machine.execSetEndpointId pcie eid s
  | .pldmRequest sensor => Sys2Proof.Machine.execPldmRequest sensor s
  | .supplyWarning dom mv t => Sys2Proof.Machine.execSupplyWarning dom mv t s
  | .supplyRecovery d lows t => Sys2Proof.Machine.execSupplyRecovery d lows t s
  | .supplyReset dom mv code t => Sys2Proof.Machine.execSupplyReset dom mv code t s
  | .avsStep d cas log t => Sys2Proof.Machine.execAvsStep d cas log t s
  | .stateReq d req via => Sys2Proof.Machine.execStateReq d req via s
  | .powerStateChange d code t => Sys2Proof.Machine.execPowerStateChange d code t s
  | .dieReset d via key bad t => Sys2Proof.Machine.execDieReset d via key bad t s
  | .packageColdReset by_ code t => Sys2Proof.Machine.execPackageColdReset by_ code t s
  | .packageWarmReset via key t => Sys2Proof.Machine.execPackageWarmReset via key t s
  | .powerOnReset lossLow code straps rails => Sys2Proof.Machine.execPowerOnReset lossLow code straps rails s
  | .minClr via => Sys2Proof.Machine.execMinClr via s
  | .pmcValueWrite p v via => Sys2Proof.Machine.execPmcValueWrite p v via s
  | .partitionFreeze p on via => Sys2Proof.Machine.execPartitionFreeze p on via s
  | .packageFreeze on via => Sys2Proof.Machine.execPackageFreeze on via s
  | .freezeAtReached t => Sys2Proof.Machine.execFreezeAtReached t s
  | .pmcTagSeedWrite p seed via => Sys2Proof.Machine.execPmcTagSeedWrite p seed via s
  | .pmcTraceEnWrite p en via => Sys2Proof.Machine.execPmcTraceEnWrite p en via s
  | .peakClr p via => Sys2Proof.Machine.execPeakClr p via s
  | .histogramClr p via => Sys2Proof.Machine.execHistogramClr p via s
  | .pmcIdxWrite p v via => Sys2Proof.Machine.execPmcIdxWrite p v via s
  | .consoleBreak => Sys2Proof.Machine.execConsoleBreak s
  | .consoleAbort => Sys2Proof.Machine.execConsoleAbort s
  | .help => Sys2Proof.Machine.execHelp s
  | .ident => Sys2Proof.Machine.execIdent s
  | .status d => Sys2Proof.Machine.execStatus d s
  | .units d => Sys2Proof.Machine.execUnits d s
  | .sense dom => Sys2Proof.Machine.execSense dom s
  | .log n => Sys2Proof.Machine.execLog n s
  | .regRead off => Sys2Proof.Machine.execRegRead off s
  | .regWrite off v => Sys2Proof.Machine.execRegWrite off v s
  | .memRead d addr n => Sys2Proof.Machine.execMemRead d addr n s
  | .memWrite d addr v => Sys2Proof.Machine.execMemWrite d addr v s
  | .svcOn => Sys2Proof.Machine.execSvcOn s
  | .svcOff => Sys2Proof.Machine.execSvcOff s
  | .holdOn d => Sys2Proof.Machine.execHoldOn d s
  | .holdOff d => Sys2Proof.Machine.execHoldOff d s
  | .level v => Sys2Proof.Machine.execLevel v s
  | .levelAuto => Sys2Proof.Machine.execLevelAuto s
  | .pattern d c byte => Sys2Proof.Machine.execPattern d c byte s
  | .patternOff d c => Sys2Proof.Machine.execPatternOff d c s
  | .loop kind d u far lanes => Sys2Proof.Machine.execLoop kind d u far lanes s
  | .test kind d u => Sys2Proof.Machine.execTest kind d u s
  | .testDie d => Sys2Proof.Machine.execTestDie d s
  | .fence kind d u => Sys2Proof.Machine.execFence kind d u s
  | .unfence kind d u => Sys2Proof.Machine.execUnfence kind d u s
  | .injectPane d u seen => Sys2Proof.Machine.execInjectPane d u seen s
  | .injectAtm d u seen => Sys2Proof.Machine.execInjectAtm d u seen s
  | .injectFlash d r t => Sys2Proof.Machine.execInjectFlash d r t s
  | .pstate d st => Sys2Proof.Machine.execPstate d st s
  | .resetCold code t => Sys2Proof.Machine.execResetCold code t s
  | .resetWarm t => Sys2Proof.Machine.execResetWarm t s
  | .resetDie d bad t => Sys2Proof.Machine.execResetDie d bad t s
  | .baud rate => Sys2Proof.Machine.execBaud rate s
  | .debugOpen => Sys2Proof.Machine.execDebugOpen s
  | .idcode => Sys2Proof.Machine.execIdcode s
  | .samplePreload captured din => Sys2Proof.Machine.execSamplePreload captured din s
  | .extest captured din => Sys2Proof.Machine.execExtest captured din s
  | .clamp captured din => Sys2Proof.Machine.execClamp captured din s
  | .highz captured din => Sys2Proof.Machine.execHighz captured din s
  | .bypass din => Sys2Proof.Machine.execBypass din s
  | .internalScan code din => Sys2Proof.Machine.execInternalScan code din s
  | .memInject d via => Sys2Proof.Machine.execMemInject d via s
  | .stackHot d k temp t => Sys2Proof.Machine.execStackHot d k temp t s
  | .thermtrip d n temp => Sys2Proof.Machine.execThermtrip d n temp s
  | .timeRefclkLoss t => Sys2Proof.Machine.execTimeRefclkLoss t s
  | .unmappedAccess via off write => Sys2Proof.Machine.execUnmappedAccess via off write s
  | .badAccess via off write => Sys2Proof.Machine.execBadAccess via off write s
  | .registerWrite via off w => Sys2Proof.Machine.execRegisterWrite via off w s
  | .stgQueuedLoRead d via => Sys2Proof.Machine.execStgQueuedLoRead d via s
  | .timeRefclkReturn t => Sys2Proof.Machine.execTimeRefclkReturn t s
  | .pathUp d peer path t => Sys2Proof.Machine.execPathUp d peer path t s
  | .hostLinkUp port rate width flit vfs => Sys2Proof.Machine.execHostLinkUp port rate width flit vfs s
  | .aerErrorLogged port => Sys2Proof.Machine.execAerErrorLogged port s
  | .fabricLinkTrained d good => Sys2Proof.Machine.execFabricLinkTrained d good s
  | .entropyHealthFail => Sys2Proof.Machine.execEntropyHealthFail s
  | .ppsOut t => Sys2Proof.Machine.execPpsOut t s
  | .aonHeartbeat => Sys2Proof.Machine.execAonHeartbeat s
  | .baudSwitch => Sys2Proof.Machine.execBaudSwitch s
  | .testLogicReset => Sys2Proof.Machine.execTestLogicReset s
  | .deferredColdReset t => Sys2Proof.Machine.execDeferredColdReset t s

end Sys2Proof.Machine
end

