-- ==== Sys2Proof/WellFormed.lean ====
section
/-!
DEFINITION. Sys2Proof/WellFormed.lean: commands that name parts the largest package has: dies, partitions and ports in range
(R2, R309), unit kinds of R474, and contexts and layers in range (R416). The meanings need no such check: a command that names
another part finds nothing there.
-/
namespace Sys2Proof
open Sys2Proof.Machine

def lt2 (n : Nat) : Bool := decide (n < 2)
def lt4 (n : Nat) : Bool := decide (n < 4)
/-- Dies and partitions are numbered 0 to 7 (R2, R309). -/
def lt8 (n : Nat) : Bool := decide (n < 8)
def lt256 (n : Nat) : Bool := decide (n < 256)
def lt4096 (n : Nat) : Bool := decide (n < 4096)

/-- Unit kinds (R474). -/
def kindOk (k : Nat) : Bool := decide (1 ≤ k) && decide (k ≤ 12)

/-- A die, where one is named. -/
def optDie (d : Option Nat) : Bool := d.all lt8

/-- The path is the PF of a port, the VF of a function, or the console. -/
def Machine.Via.wf : Via → Bool
  | .pf x => lt2 x
  | .vf f => decide (f < 16)
  | .console => true

/-- A descriptor of a function's ring: SQs 0 to 127 (R315). -/
def Machine.Desc.wf (d : Desc) : Bool := lt8 d.part && lt2 d.port && decide (d.sq < 128) && decide (d.index < 65536)

/-- Whether a command is well formed. -/
def Instr.wf : Instr → Bool
  | .timeRefclkLoss _ => true
  | .timeRefclkReturn _ => true
  | .tickBoundary p _ => lt8 p
  | .slotBoundary p _ => lt8 p
  | .ptpSyncRx d _ _ => lt8 d
  | .ptpAnnounceRx d _ _ _ => lt8 d
  | .announceTimeout _ => true
  | .srcChange heard _ => heard.all (fun e => lt8 e.1)
  | .holdLimitExpiry _ => true
  | .discEnClear via => via.wf
  | .stepNow via => via.wf
  | .tikPeriodEnWrite p _ via => lt8 p && via.wf
  | .tikPeriodWrite p _ _ _ via => lt8 p && via.wf
  | .periodChangeApply p _ => lt8 p
  | .tikTimeNsRead via => via.wf
  | .tikTickLoRead p via => lt8 p && via.wf
  | .mapCreate d _ ctx _ _ _ => d.wf && lt4096 ctx
  | .mapAppend d _ layer _ _ _ => d.wf && lt256 layer
  | .sealComplete die _ _ => lt8 die
  | .chunkCompletion die _ => lt8 die
  | .mapWrite d _ layer _ _ => d.wf && lt256 layer
  | .mapTruncate d _ _ => d.wf
  | .mapFork d _ _ _ _ => d.wf
  | .mapFree d _ => d.wf
  | .treeEvict d ctx _ _ => d.wf && lt4096 ctx
  | .autoEvict die => lt8 die
  | .pfxEnable die via => lt8 die && via.wf
  | .sweepStart d _ => lt8 d
  | .planComplete d _ => lt8 d
  | .blockFetchDone d _ _ _ _ => lt8 d
  | .blockExpandDone d _ _ _ _ => lt8 d
  | .tileProductDone d pane _ _ _ _ _ _ _ _ _ => lt8 d && lt4 pane
  | .recordFinalise d _ _ _ _ => lt8 d
  | .resultDelivered d _ _ _ => lt8 d
  | .sweepSet q ctx _ => q.wf && lt4096 ctx
  | .csmEnWrite d _ via => lt8 d && via.wf
  | .csmInject d _ via => lt8 d && via.wf
  | .paneFence d _ _ via => lt8 d && via.wf
  | .paneUnfence d _ _ _ via => lt8 d && via.wf
  | .latentLoad q ctx _ _ _ _ _ _ => q.wf && lt4096 ctx
  | .gradOpen q ctx _ _ _ _ _ _ => q.wf && lt4096 ctx
  | .gradClose q ctx _ _ _ _ => q.wf && lt4096 ctx
  | .rebuildDone d _ _ => lt8 d
  | .atmFence d _ _ via => lt8 d && via.wf
  | .atmUnfence d _ _ _ via => lt8 d && via.wf
  | .atmInject d _ via => lt8 d && via.wf
  | .atmLoRead d _ via => lt8 d && via.wf
  | .seqClass d _ ctx _ => d.wf && lt4096 ctx
  | .ctxQuota d ctx _ _ _ => d.wf && lt4096 ctx
  | .pinSet d _ _ => d.wf
  | .pinClear d _ ctx => d.wf && lt4096 ctx
  | .prefetch d _ => d.wf
  | .chunkExport d ctx _ die _ _ _ _ => d.wf && lt4096 ctx && optDie die
  | .chunkImport d ctx _ _ _ _ => d.wf && lt4096 ctx
  | .stagingReadDone d _ _ => lt8 d
  | .heldExpiry d _ => lt8 d
  | .placementScan d _ => lt8 d
  | .stgQueuedLoRead d via => lt8 d && via.wf
  | .flashProgramDone d _ _ _ _ _ => lt8 d
  | .sectorReadDone d _ _ _ => lt8 d
  | .journalWindowExpiry d _ => lt8 d
  | .checkpointStart d _ => lt8 d
  | .ckptNow d via => lt8 d && via.wf
  | .gcStart d => lt8 d
  | .eraseDone d _ _ _ => lt8 d
  | .patrolRead d _ _ => lt8 d
  | .ftlEnable d _ _ via => lt8 d && via.wf
  | .ftlReplay d _ _ => lt8 d
  | .ftlInject d via => lt8 d && via.wf
  | .ftlJseqLoRead d via => lt8 d && via.wf
  | .channelCmdTimeout d _ _ => lt8 d
  | .channelFence d _ _ via => lt8 d && via.wf
  | .channelUnfence d _ _ _ via => lt8 d && via.wf
  | .reclaim d via => lt8 d && via.wf
  | .release d via => lt8 d && via.wf
  | .sqTailDoorbell p x _ _ _ => lt8 p && lt2 x
  | .cqHeadDoorbell p x _ _ _ => lt8 p && lt2 x
  | .descriptorFetch p x _ _ => lt8 p && lt2 x
  | .nop d => d.wf
  | .resync d _ _ _ => d.wf
  | .ringCreate d _ _ _ _ _ _ _ _ => d.wf
  | .ringDelete d _ _ => d.wf
  | .step d _ _ _ _ => d.wf
  | .interruptCoalesceTimeout p x _ _ => lt8 p && lt2 x
  | .hrgEnWrite p x _ => lt8 p && lt2 x
  | .hostFunctionLoss _ => true
  | .ptnBindWrite p _ => lt8 p
  | .ptnDiesWrite p _ => lt8 p
  | .seal p => lt8 p
  | .partitionReset p _ => lt8 p
  | .hostLinkUp port _ _ _ _ => lt2 port
  | .aerErrorLogged port => lt2 port
  | .nrtDataPacketRx d _ _ _ _ _ _ _ _ _ => lt8 d
  | .readReqRx d _ _ _ _ _ _ _ => lt8 d
  | .readRespRx d _ _ _ _ _ _ _ _ => lt8 d
  | .ackRx d _ _ _ _ => lt8 d
  | .nakRx d _ _ _ _ => lt8 d
  | .snackRx d _ _ _ _ _ => lt8 d
  | .pathTmoExpiry d _ _ _ _ => lt8 d
  | .ackTmoExpiry d _ _ _ => lt8 d
  | .holdTmoExpiry d _ _ _ => lt8 d
  | .lingerExpiry d _ => lt8 d
  | .rateStepTimer d _ _ => lt8 d
  | .keyRegister q _ => q.wf
  | .keyRevoke q _ _ => q.wf
  | .keyScrubbed d _ => lt8 d
  | .peerSet q _ => q.wf
  | .remoteKey q _ _ _ => q.wf
  | .counterSet q d _ _ _ => q.wf && lt8 d
  | .counterWait q d _ _ _ => q.wf && lt8 d
  | .counterWaitTimeout d _ => lt8 d
  | .arm q _ => q.wf
  | .armCancel q d _ => q.wf && lt8 d
  | .rocePacketRx d _ _ _ _ _ _ _ => lt8 d
  | .nrtInject d via => lt8 d && via.wf
  | .pathUp d _ _ _ => lt8 d
  | .frameTransmit d _ => lt8 d
  | .frameRx d _ _ _ _ _ _ _ _ _ _ _ => lt8 d
  | .mkaFrameRx d _ _ _ _ _ _ _ _ => lt8 d
  | .sakInstalled d => lt8 d
  | .rekeyTimer d _ => lt8 d
  | .rekeyNow d via => lt8 d && via.wf
  | .securedLost d _ => lt8 d
  | .lnkEnWrite d _ via => lt8 d && via.wf
  | .laneFailure d _ => lt8 d
  | .shutterGateChange d _ => lt8 d
  | .shutterCommit d via => lt8 d && via.wf
  | .policerCommit d _ via => lt8 d && via.wf
  | .latClr d via => lt8 d && via.wf
  | .lnkTxpnLoRead d via => lt8 d && via.wf
  | .fabricLinkTrained d _ => lt8 d
  | .ctxCreate q ctx _ _ _ _ _ _ _ _ _ _ => q.wf && lt4096 ctx
  | .ctxDestroy q ctx _ => q.wf && lt4096 ctx
  | .attest q _ _ _ _ => q.wf
  | .cakSet q die _ _ _ => q.wf && lt8 die
  | .tenantRemove q _ _ => q.wf
  | .removalStepEnd p _ => lt8 p
  | .remove port _ p _ _ => lt2 port && lt8 p
  | .fwStage port _ _ => lt2 port
  | .fwSelect port _ _ => lt2 port
  | .svnCommit port _ => lt2 port
  | .approvedSet port _ _ => lt2 port
  | .tenantKey port _ p _ => lt2 port && lt8 p
  | .zeroize port _ => lt2 port
  | .debugSeal port _ => lt2 port
  | .ownerProvision port _ _ => lt2 port
  | .selftestNow via _ => via.wf
  | .entropyHealthFail => true
  | .wicketTakeTask d w _ _ => lt8 d && lt256 w
  | .wicketWatchdogExpiry d w _ => lt8 d && lt256 w
  | .hbmScrubPass d _ _ _ _ _ => lt8 d
  | .d2dFlitRx d e _ => lt8 d && lt8 e
  | .dieFence d _ _ => lt8 d
  | .adoption d _ => lt8 d
  | .dieAssign q die => q.wf && lt8 die
  | .unitTest q kind die _ => q.wf && kindOk kind && lt8 die
  | .unitFence q kind die _ => q.wf && kindOk kind && lt8 die
  | .lossList q _ _ => q.wf
  | .selftestComplete _ d _ _ _ => lt8 d
  | .rasUnitFenceCmd via => via.wf
  | .rasUnitTestCmd via => via.wf
  | .rasUnitRow0Read via => via.wf
  | .getUnits die _ _ => lt8 die
  | .reportUnit kind die _ _ _ => kindOk kind && lt8 die
  | .getAttest part _ _ _ => lt8 part
  | .getRas die => lt8 die
  | .setEndpointId _ _ => true
  | .pldmRequest _ => true
  | .powerOnReset _ _ _ _ => true
  | .packageColdReset _ _ _ => true
  | .deferredColdReset _ => true
  | .packageWarmReset via _ _ => via.wf
  | .dieReset d via _ _ _ => lt8 d && via.wf
  | .supplyWarning _ _ _ => true
  | .supplyRecovery d _ _ => lt8 d
  | .supplyReset _ _ _ _ => true
  | .avsStep d _ _ _ => lt8 d
  | .stateReq d _ via => lt8 d && via.wf
  | .powerStateChange d _ _ => lt8 d
  | .minClr via => via.wf
  | .pwrLossQualified _ => true
  | .pwrLossRelease _ => true
  | .thermtrip d _ _ => lt8 d
  | .ppsOut _ => true
  | .stackHot d _ _ _ => lt8 d
  | .memInject d via => lt8 d && via.wf
  | .journalPageDurable d _ _ => lt8 d
  | .pmcValueWrite p _ via => lt8 p && via.wf
  | .partitionFreeze p _ via => lt8 p && via.wf
  | .packageFreeze _ via => via.wf
  | .freezeAtReached _ => true
  | .pmcTagSeedWrite p _ via => lt8 p && via.wf
  | .pmcTraceEnWrite p _ via => lt8 p && via.wf
  | .peakClr p via => lt8 p && via.wf
  | .histogramClr p via => lt8 p && via.wf
  | .pmcIdxWrite p _ via => lt8 p && via.wf
  | .registerWrite via _ _ => via.wf
  | .unmappedAccess via _ _ => via.wf
  | .badAccess via _ _ => via.wf
  | .help => true
  | .ident => true
  | .status d => optDie d
  | .units d => lt8 d
  | .sense _ => true
  | .log _ => true
  | .regRead _ => true
  | .regWrite _ _ => true
  | .memRead d _ _ => lt8 d
  | .memWrite d _ _ => lt8 d
  | .svcOn => true
  | .svcOff => true
  | .holdOn d => lt8 d
  | .holdOff d => lt8 d
  | .level _ => true
  | .levelAuto => true
  | .pattern d _ _ => lt8 d
  | .patternOff d _ => lt8 d
  | .loop kind d _ _ _ => kindOk kind && lt8 d
  | .test kind d _ => kindOk kind && lt8 d
  | .testDie d => lt8 d
  | .fence kind d _ => kindOk kind && lt8 d
  | .unfence kind d _ => kindOk kind && lt8 d
  | .injectPane d _ _ => lt8 d
  | .injectAtm d _ _ => lt8 d
  | .injectFlash d _ _ => lt8 d
  | .pstate d _ => lt8 d
  | .resetCold _ _ => true
  | .resetWarm _ => true
  | .resetDie d _ _ => lt8 d
  | .baud _ => true
  | .baudSwitch => true
  | .debugOpen => true
  | .consoleAbort => true
  | .consoleBreak => true
  | .aonHeartbeat => true
  | .idcode => true
  | .samplePreload _ _ => true
  | .extest _ _ => true
  | .clamp _ _ => true
  | .highz _ _ => true
  | .bypass _ => true
  | .internalScan _ _ => true
  | .testLogicReset => true

end Sys2Proof
end

