-- ==== Sys2Proof/Safety.lean ====
section
/-!
DEFINITION. Sys2Proof/Safety.lean: what counts as a safe step, the invariant of the state (its tables are in canonical form), and the
terms the statements use.
-/
namespace Sys2Proof.Machine

/-- A step that goes on: neither a fault nor a refusal. -/
def Goes (o : Host.Outcome State Fault Refusal) : Prop := ∃ t, o = .next t

/-- Everything the part sent out before is still there, in order. -/
def Sent (s t : State) : Prop := ∃ l, t.out = s.out ++ l

/-- The tables of the state are in canonical form: keys rising, and nothing listed that an unlisted key holds. -/
def State.wf (s : State) : Bool :=
  trising s.regs && trising s.force && trising s.evNew && dwf Part.init s.parts && dwf HostFn.init s.fns && dwf Casement.init s.csms
    && dwf Pfx.init s.pfxs && dwf Staging.init s.stgs && dwf Ftl.init s.ftls && dwf Nrt.init s.nrts && dwf Wkt.init s.wkts
    && dwf Lnk.init s.lnks && dwf Pmc.init s.pmcs && dwf 0 s.hbm

/-- The parts of the state a command may touch: everything sent, the free values drawn, the writes that wait for their boundary,
the newly set event bits, the clock, the records of the units, HBM, and the register blocks of R562. -/
inductive Area where
  | out | free | force | evNew | clk | parts | fns | csms | pfxs | stgs | ftls | nrts | wkts | lnks | sec | pmcs | ras | pwr | svc
  | hbm
  | regs (b : Blk)
deriving DecidableEq, Repr

/-- A number for each part of the state. -/
def Area.ix : Area → Nat
  | .out => 0 | .free => 1 | .force => 2 | .evNew => 3 | .clk => 4 | .parts => 5 | .fns => 6 | .csms => 7 | .pfxs => 8 | .stgs => 9
  | .ftls => 10 | .nrts => 11 | .wkts => 12 | .lnks => 13 | .sec => 14 | .pmcs => 15 | .ras => 16 | .pwr => 17 | .svc => 18
  | .hbm => 19
  | .regs b => 20 + b.ix

/-- `t` holds in this part of the state what `s` holds there; of a register block, every field of every instance reads the same. -/
def State.agree (s t : State) : Area → Prop
  | .out => t.out = s.out
  | .free => t.free = s.free
  | .force => t.force = s.force
  | .evNew => t.evNew = s.evNew
  | .clk => t.clk = s.clk
  | .parts => t.parts = s.parts
  | .fns => t.fns = s.fns
  | .csms => t.csms = s.csms
  | .pfxs => t.pfxs = s.pfxs
  | .stgs => t.stgs = s.stgs
  | .ftls => t.ftls = s.ftls
  | .nrts => t.nrts = s.nrts
  | .wkts => t.wkts = s.wkts
  | .lnks => t.lnks = s.lnks
  | .sec => t.sec = s.sec
  | .pmcs => t.pmcs = s.pmcs
  | .ras => t.ras = s.ras
  | .pwr => t.pwr = s.pwr
  | .svc => t.svc = s.svc
  | .hbm => t.hbm = s.hbm
  | .regs b => ∀ F i, F.blk = b → t.fget F i = s.fget F i

/-- The command completes: `exec` answers a next state, of which `P` holds. -/
def Runs (c : Instr) (s : State) (P : State → Prop) : Prop := ∃ t, exec c s = .next t ∧ P t

/-- Every register field reads as before but those under the listed keys. -/
def RegsOnly (s t : State) (l : List Nat) : Prop := ∀ F i, F.key i ∉ l → t.fget F i = s.fget F i

/-- A field of an event register is set. -/
def Raised (t : State) (F : Fld) (i : Nat) : Prop := t.fget F i ≠ 0

/-- A register write by this path reaches the register: a VF writes inside its view (R310). -/
def MayWrite (via : Via) (off : Nat) (s : State) : Prop := ∀ f, via = .vf f → s.vfView f off = 2

/-- A register read by this path reaches the register (R310). -/
def MayRead (via : Via) (off : Nat) (s : State) : Prop := ∀ f, via = .vf f → s.vfView f off ≠ 0

/-- What `t` sent out since `s`. -/
def SentBy (s t : State) (l : List Emit) : Prop := t.out = s.out ++ l

/-- `e` is among what `t` sent out since `s`. -/
def Emits (s t : State) (e : Emit) : Prop := ∃ l, t.out = s.out ++ l ∧ e ∈ l

/-- Nothing keeps a descriptor from its own rules (R324, R325, R333, R424, R434, R488): its function's partition is SEALED and
the part not in ERROR, no reserved field is set, its reads of host memory succeed, and no earlier ORDER descriptor holds it back. -/
def Open (d : Desc) (s : State) : Prop :=
  s.fbit SEC_STATUS_ERROR 0 = false ∧ s.ptnState d.part = ptnSealed ∧ d.resv = false ∧ d.readFail = false ∧ s.orderWait d = false

/-- The completion of a descriptor will reach its function (R316, R339): the descriptor is accepted now, by a function of a
partition of the part whose rings are READY and whose CQ is ACTIVE. -/
def Live (d : Desc) (s : State) : Prop :=
  d.wf = true ∧ s.outst? d = none ∧ s.ready d.fn = true ∧
    ((s.fn d.fn).active? (cqPage ((s.fn d.fn).cqOf d.sq))).isSome = true

/-- The completion of the descriptor goes out, with this opcode, status and result words (R330, R331). -/
def Posts (s t : State) (d : Desc) (op status r0 r1 : Nat) : Prop :=
  ∃ slot ph c, Emits s t (.completion d.fn ((s.fn d.fn).cqOf d.sq) slot ph c) ∧ c.op = op ∧ c.status = status ∧
    c.result0 = r0 % 2 ^ 32 ∧ c.result1 = r1 % 2 ^ 32 ∧ c.tag = d.tag ∧ c.sqId = d.sq

/-- No index entry of die `k` under this sequence number is parked. -/
def Volatile (k q : Nat) (s : State) : Prop := (s.pfx k).index.all (fun x => x.2.seq != q || !x.2.parked) = true

/-- A map edit finds its sequence (R100, R101, R103): LIVE on die `k` at index slot `j`, the die not fenced and its structures
standing, the sequence volatile and no earlier edit of it waiting or incomplete (R82). -/
def MapOpen (d : Desc) (q k j : Nat) (e : SeqSlot) (s : State) : Prop :=
  s.seqDie? d.part q = some k ∧ s.seqSlot? k q = some (j, e) ∧ s.dieDown k = false ∧ s.fbit PFX_STATUS_READY k = true ∧
    Volatile k q s ∧ e.parked = false ∧ s.seqBusy k q = false ∧ s.editWait d [q] = false

/-- The sequence-index entry at a slot of a die. -/
def SlotAt (t : State) (k j : Nat) : Option SeqSlot := tget (t.pfx k).index j

/-- The lanes of a port that still work when those in `bad` fail. -/
def lanesLeft (lanes bad : Nat) : Nat := (List.range 8).foldl (fun g k => if bad.testBit k then setBit g k false else g) lanes

/-- The context CTX_CREATE makes of its operands (R416): no weights, no bounds, the default sweep descriptor. -/
def newCtx (home : Nat) (latent : Bool) (model layersM1 h dim w g format tail : Nat) : Ctx :=
  { home := home, latent := latent, model := model, layers := layersM1 + 1, h := h, d := dim, w := w, g := g, format := format,
    tailFmt := tail % 16, desc := { SweepDesc.init with g := if latent then g else 1 }, weights := [], hbmMax := 0, hbmMin := 0,
    flashMax := 0, destroying := none }

/-- The console's answer ends in this line and the prompt (R547, R548). -/
def Ends (s t : State) (w : List String) : Prop := ∃ l, t.out = s.out ++ l ++ [.console w, .console ["chroat> "]]

/-- Outside rings, counters and events, `t` is `s`: the tables of the dies, the module, the units, power, the console and HBM. -/
def Idle (s t : State) : Prop :=
  t.csms = s.csms ∧ t.pfxs = s.pfxs ∧ t.stgs = s.stgs ∧ t.ftls = s.ftls ∧ t.nrts = s.nrts ∧ t.wkts = s.wkts ∧ t.lnks = s.lnks ∧
    t.sec = s.sec ∧ t.ras = s.ras ∧ t.pwr = s.pwr ∧ t.svc = s.svc ∧ t.hbm = s.hbm ∧ t.force = s.force

/-- The descriptor a ring command carries out, and its opcode (R323). -/
def descOf : Instr → Option (Desc × Nat)
  | .mapCreate q _ _ _ _ _ => some (q, 0x20)
  | .mapAppend q _ _ _ _ _ => some (q, 0x21)
  | .mapWrite q _ _ _ _ => some (q, 0x22)
  | .mapTruncate q _ _ => some (q, 0x23)
  | .mapFork q _ _ _ _ => some (q, 0x24)
  | .mapFree q _ => some (q, 0x25)
  | .treeEvict q _ _ _ => some (q, 0x26)
  | .sweepSet q _ _ => some (q, 0x30)
  | .latentLoad q _ _ _ _ _ _ _ => some (q, 0x31)
  | .gradOpen q _ _ _ _ _ _ _ => some (q, 0x32)
  | .gradClose q _ _ _ _ _ => some (q, 0x33)
  | .seqClass q _ _ _ => some (q, 0x40)
  | .ctxQuota q _ _ _ _ => some (q, 0x41)
  | .pinSet q _ _ => some (q, 0x42)
  | .pinClear q _ _ => some (q, 0x43)
  | .prefetch q _ => some (q, 0x44)
  | .chunkExport q _ _ _ _ _ _ _ => some (q, 0x45)
  | .chunkImport q _ _ _ _ _ => some (q, 0x46)
  | .nop q => some (q, 0x00)
  | .resync q _ _ _ => some (q, 0x01)
  | .ringCreate q _ _ _ _ _ _ _ _ => some (q, 0x02)
  | .ringDelete q _ _ => some (q, 0x03)
  | .step q _ _ _ _ => some (q, 0x34)
  | .keyRegister q _ => some (q, 0x50)
  | .keyRevoke q _ _ => some (q, 0x51)
  | .peerSet q _ => some (q, 0x56)
  | .remoteKey q _ _ _ => some (q, 0x57)
  | .counterSet q _ _ _ _ => some (q, 0x52)
  | .counterWait q _ _ _ _ => some (q, 0x53)
  | .arm q _ => some (q, 0x54)
  | .armCancel q _ _ => some (q, 0x55)
  | .ctxCreate q _ _ _ _ _ _ _ _ _ _ _ => some (q, 0x10)
  | .ctxDestroy q _ _ => some (q, 0x11)
  | .attest q _ _ _ _ => some (q, 0x12)
  | .cakSet q _ _ _ _ => some (q, 0x13)
  | .tenantRemove q _ _ => some (q, 0x14)
  | .dieAssign q _ => some (q, 0x70)
  | .unitTest q _ _ _ => some (q, 0x71)
  | .unitFence q _ _ _ => some (q, 0x72)
  | .lossList q _ _ => some (q, 0x73)
  | _ => none

/-- The register a command writes through a VF: the function and the offset (R310). -/
def vfWriteOf : Instr → Option (Nat × Nat)
  | .discEnClear (.vf f) => some (f, TIK_CTRL_DISC_EN.at_ 0)
  | .stepNow (.vf f) => some (f, TIK_CTRL_STEP_NOW.at_ 0)
  | .tikPeriodEnWrite p _ (.vf f) => some (f, TIK_PERIOD_EN.at_ p)
  | .tikPeriodWrite p _ _ _ (.vf f) => some (f, TIK_PERIOD_N.at_ p)
  | .pfxEnable die (.vf f) => some (f, PFX_CTRL_EN.at_ die)
  | .csmEnWrite d _ (.vf f) => some (f, CSM_CTRL_EN.at_ d)
  | .csmInject d _ (.vf f) => some (f, CSM_CTRL_INJECT.at_ d)
  | .paneFence d _ _ (.vf f) => some (f, CSM_PANE_FENCE_FENCE.at_ d)
  | .paneUnfence d _ _ _ (.vf f) => some (f, CSM_PANE_FENCE_UNFENCE.at_ d)
  | .atmFence d _ _ (.vf f) => some (f, ATM_FENCE_FENCE.at_ d)
  | .atmUnfence d _ _ _ (.vf f) => some (f, ATM_FENCE_UNFENCE.at_ d)
  | .atmInject d _ (.vf f) => some (f, ATM_CTRL_INJECT.at_ d)
  | .ckptNow d (.vf f) => some (f, FTL_CTRL_CKPT_NOW.at_ d)
  | .ftlEnable d _ _ (.vf f) => some (f, FTL_CTRL_EN.at_ d)
  | .ftlInject d (.vf f) => some (f, FTL_CTRL_INJECT.at_ d)
  | .channelFence d _ _ (.vf f) => some (f, FTL_CH_CMD_FENCE.at_ d)
  | .channelUnfence d _ _ _ (.vf f) => some (f, FTL_CH_CMD_UNFENCE.at_ d)
  | .reclaim d (.vf f) => some (f, FTL_OWN_CMD_RECLAIM.at_ d)
  | .release d (.vf f) => some (f, FTL_OWN_CMD_RELEASE.at_ d)
  | .nrtInject d (.vf f) => some (f, NRT_CTRL_INJECT.at_ d)
  | .rekeyNow d (.vf f) => some (f, LNK_CTRL_REKEY_NOW.at_ d)
  | .lnkEnWrite d _ (.vf f) => some (f, LNK_CTRL_EN.at_ d)
  | .shutterCommit d (.vf f) => some (f, LNK_SHUT_CTRL_COMMIT.at_ d)
  | .policerCommit d _ (.vf f) => some (f, LNK_POL_KEY_EN.at_ d)
  | .latClr d (.vf f) => some (f, LNK_CTRL_LAT_CLR.at_ d)
  | .selftestNow (.vf f) _ => some (f, SEC_CTRL_SELFTEST_NOW.at_ 0)
  | .rasUnitFenceCmd (.vf f) => some (f, RAS_UNIT_CMD_OP.at_ 0)
  | .rasUnitTestCmd (.vf f) => some (f, RAS_UNIT_CMD_OP.at_ 0)
  | .packageColdReset (.write (.vf f) _) _ _ => some (f, PWR_CTRL_COLD.at_ 0)
  | .packageWarmReset (.vf f) _ _ => some (f, PWR_CTRL_WARM.at_ 0)
  | .dieReset d (.vf f) _ _ _ => some (f, DPM_CTRL_RESET.at_ d)
  | .stateReq d _ (.vf f) => some (f, DPM_CTRL_STATE_REQ.at_ d)
  | .minClr (.vf f) => some (f, PWR_CTRL_MIN_CLR.at_ 0)
  | .memInject d (.vf f) => some (f, MEM_CTRL_INJECT.at_ d)
  | .pmcValueWrite p _ (.vf f) => some (f, PMC_VALUE_VALUE.at_ p)
  | .partitionFreeze p _ (.vf f) => some (f, PMC_SNAP_FREEZE.at_ p)
  | .packageFreeze _ (.vf f) => some (f, PMC_CTRL_FREEZE.at_ 0)
  | .pmcTagSeedWrite p _ (.vf f) => some (f, PMC_TAG_SEED_SEED.at_ p)
  | .pmcTraceEnWrite p _ (.vf f) => some (f, PMC_TRACE_EN.at_ p)
  | .peakClr p (.vf f) => some (f, PMC_BW_PEAK_CLR.at_ p)
  | .histogramClr p (.vf f) => some (f, PMC_HCFG_CLR.at_ p)
  | .pmcIdxWrite p _ (.vf f) => some (f, PMC_IDX_UNIT.at_ p)
  | .registerWrite (.vf f) off _ => if off % 4 = 0 ∧ off < bar2 then some (f, off) else none
  | _ => none

/-- The register a command reads through a VF: the function and the offset (R310). -/
def vfReadOf : Instr → Option (Nat × Nat)
  | .tikTimeNsRead (.vf f) => some (f, TIK_TIME_NS_NS.at_ 0)
  | .tikTickLoRead p (.vf f) => some (f, TIK_TICK_LO_TICK_LO.at_ p)
  | .atmLoRead d which (.vf f) => some (f, (atmLo which).1.at_ d)
  | .stgQueuedLoRead d (.vf f) => some (f, STG_QUEUED_LO_BYTES.at_ d)
  | .ftlJseqLoRead d (.vf f) => some (f, FTL_JSEQ_LO_JSEQ_LO.at_ d)
  | .lnkTxpnLoRead d (.vf f) => some (f, LNK_TXPN_LO_PN_LO.at_ d)
  | .rasUnitRow0Read (.vf f) => some (f, RAS_UNIT_ROW_ROW.at_ 0)
  | _ => none

/-- Every part of the state. -/
def everything : List Area :=
  [.out, .free, .force, .evNew, .clk, .parts, .fns, .csms, .pfxs, .stgs, .ftls, .nrts, .wkts, .lnks, .sec, .pmcs, .ras, .pwr,
    .svc, .hbm] ++ [.sys, .tik, .hrg, .sec, .pwr, .ras, .pmc, .svc, .ptn, .csm, .atm, .pfx, .stg, .ftl, .nrt, .lnk, .mem, .wkt,
    .dpm].map Area.regs

/-- Every part of the state but those listed. -/
def allBut (l : List Area) : List Area := everything.filter (fun a => !l.contains a)

/-- The parts of the state that a command may touch. What it leaves alone is the rest: every other table, register block and record. -/
def touches : Instr → List Area
  | .timeRefclkLoss _ | .timeRefclkReturn _ =>
    [.clk, .regs .tik]
  | .tickBoundary _ _ =>
    allBut [.svc]
  | .slotBoundary _ _ =>
    allBut [.ras, .pwr, .svc]
  | .ptpSyncRx _ _ _ =>
    [.out, .free, .clk, .parts, .regs .tik]
  | .ptpAnnounceRx _ _ _ _ | .announceTimeout _ | .srcChange _ _ | .holdLimitExpiry _ =>
    [.out, .clk, .parts, .regs .tik]
  | .discEnClear _ | .tikPeriodWrite _ _ _ _ _ =>
    [.out, .clk, .parts, .fns, .regs .tik, .regs .hrg]
  | .stepNow _ =>
    [.out, .clk, .parts, .fns, .lnks, .regs .tik, .regs .hrg]
  | .tikPeriodEnWrite _ _ _ =>
    [.fns, .regs .tik, .regs .hrg]
  | .periodChangeApply _ _ =>
    [.clk, .parts, .regs .tik]
  | .tikTimeNsRead _ | .tikTickLoRead _ _ =>
    [.out, .fns, .regs .tik, .regs .hrg]
  | .mapCreate _ _ _ _ _ _ =>
    [.out, .free, .evNew, .parts, .fns, .csms, .pfxs, .stgs, .ftls, .nrts, .lnks, .pmcs, .regs .hrg, .regs .pmc, .regs .csm,
      .regs .pfx, .regs .ftl, .regs .nrt]
  | .mapAppend _ _ _ _ _ _ | .mapWrite _ _ _ _ _ | .mapTruncate _ _ _ | .mapFork _ _ _ _ _ | .mapFree _ _
  | .seqClass _ _ _ _ | .stagingReadDone _ _ _ =>
    [.out, .free, .evNew, .parts, .fns, .csms, .pfxs, .stgs, .ftls, .nrts, .lnks, .pmcs, .regs .hrg, .regs .pmc, .regs .csm,
      .regs .atm, .regs .pfx, .regs .stg, .regs .ftl, .regs .nrt]
  | .sealComplete _ _ _ =>
    [.pfxs, .regs .ras, .regs .atm]
  | .chunkCompletion _ _ =>
    [.out, .free, .evNew, .parts, .fns, .csms, .pfxs, .stgs, .ftls, .nrts, .lnks, .pmcs, .regs .hrg, .regs .pmc, .regs .csm,
      .regs .atm, .regs .pfx, .regs .ftl, .regs .nrt]
  | .treeEvict _ _ _ _ =>
    [.out, .evNew, .parts, .fns, .csms, .pfxs, .stgs, .pmcs, .regs .hrg, .regs .pmc, .regs .atm, .regs .pfx]
  | .autoEvict _ =>
    [.csms, .pfxs, .stgs, .regs .atm, .regs .pfx]
  | .pfxEnable _ _ =>
    [.free, .evNew, .fns, .csms, .pfxs, .stgs, .ftls, .regs .hrg, .regs .atm, .regs .pfx]
  | .sweepStart _ _ | .tileProductDone _ _ _ _ _ _ _ _ _ _ _ | .recordFinalise _ _ _ _ _ | .resultDelivered _ _ _ _
  | .channelCmdTimeout _ _ _ | .wicketWatchdogExpiry _ _ _ | .hbmScrubPass _ _ _ _ _ _ | .dieFence _ _ _
  | .selftestComplete _ _ _ _ _ | .reportUnit _ _ _ _ _ | .dieReset _ _ _ _ _ | .pwrLossQualified _ | .pwrLossRelease _
  | .resetDie _ _ _ =>
    allBut [.sec]
  | .planComplete _ _ =>
    [.evNew, .csms, .pmcs, .regs .pmc, .regs .csm]
  | .blockFetchDone _ _ _ _ _ | .blockExpandDone _ _ _ _ _ | .paneFence _ _ _ _ | .paneUnfence _ _ _ _ _
  | .rebuildDone _ _ _ | .atmFence _ _ _ _ | .atmUnfence _ _ _ _ _ | .channelFence _ _ _ _ | .channelUnfence _ _ _ _ _
  | .d2dFlitRx _ _ _ | .unitTest _ _ _ _ | .unitFence _ _ _ _ | .rasUnitFenceCmd _ | .rasUnitTestCmd _ | .memInject _ _
  | .svcOff | .pattern _ _ _ | .patternOff _ _ | .loop _ _ _ _ _ | .test _ _ _ | .testDie _ | .fence _ _ _
  | .unfence _ _ _ | .consoleAbort =>
    allBut [.clk, .sec]
  | .sweepSet _ _ _ | .ctxQuota _ _ _ _ _ | .descriptorFetch _ _ _ _ | .nop _ | .resync _ _ _ _
  | .ringCreate _ _ _ _ _ _ _ _ _ | .ringDelete _ _ _ | .ctxCreate _ _ _ _ _ _ _ _ _ _ _ _ | .lossList _ _ _ =>
    [.out, .evNew, .parts, .fns, .pmcs, .regs .hrg, .regs .pmc]
  | .csmEnWrite _ _ _ =>
    [.force, .fns, .regs .hrg, .regs .csm]
  | .csmInject _ _ _ | .atmInject _ _ _ =>
    [.fns, .csms, .regs .hrg]
  | .latentLoad _ _ _ _ _ _ _ _ =>
    [.out, .free, .evNew, .parts, .fns, .pfxs, .pmcs, .regs .hrg, .regs .sec, .regs .pmc, .regs .pfx]
  | .gradOpen _ _ _ _ _ _ _ _ =>
    [.out, .free, .evNew, .parts, .fns, .csms, .pfxs, .pmcs, .regs .hrg, .regs .pmc, .regs .pfx]
  | .gradClose _ _ _ _ _ _ =>
    [.out, .evNew, .parts, .fns, .csms, .pfxs, .pmcs, .regs .hrg, .regs .pmc]
  | .atmLoRead _ _ _ =>
    [.out, .fns, .regs .hrg, .regs .atm]
  | .pinSet _ _ _ | .pinClear _ _ _ =>
    [.out, .free, .evNew, .parts, .fns, .csms, .pfxs, .stgs, .nrts, .lnks, .pmcs, .regs .hrg, .regs .pmc, .regs .csm,
      .regs .pfx, .regs .nrt]
  | .prefetch _ _ =>
    [.out, .free, .evNew, .parts, .fns, .csms, .pfxs, .stgs, .ftls, .nrts, .lnks, .pmcs, .regs .hrg, .regs .pmc, .regs .csm,
      .regs .pfx, .regs .stg, .regs .ftl, .regs .nrt]
  | .chunkExport _ _ _ _ _ _ _ _ =>
    [.out, .free, .evNew, .parts, .fns, .csms, .pfxs, .stgs, .nrts, .lnks, .pmcs, .regs .hrg, .regs .pmc, .regs .csm,
      .regs .pfx, .regs .stg, .regs .nrt]
  | .chunkImport _ _ _ _ _ _ | .counterSet _ _ _ _ _ | .arm _ _ =>
    [.out, .evNew, .parts, .fns, .csms, .pfxs, .stgs, .nrts, .lnks, .pmcs, .regs .hrg, .regs .pmc, .regs .csm, .regs .nrt]
  | .heldExpiry _ _ =>
    [.clk, .pfxs, .stgs, .regs .tik]
  | .placementScan _ _ =>
    [.pfxs, .regs .stg]
  | .stgQueuedLoRead _ _ =>
    [.out, .fns, .regs .hrg, .regs .stg]
  | .flashProgramDone _ _ _ _ _ _ | .powerOnReset _ _ _ _ | .packageColdReset _ _ _ | .deferredColdReset _
  | .packageWarmReset _ _ _ | .supplyReset _ _ _ _ | .journalPageDurable _ _ _ | .registerWrite _ _ _ | .regWrite _ _
  | .resetCold _ _ | .resetWarm _ =>
    everything
  | .sectorReadDone _ _ _ _ =>
    [.out, .free, .evNew, .clk, .parts, .fns, .csms, .pfxs, .stgs, .ftls, .nrts, .lnks, .pmcs, .regs .tik, .regs .hrg,
      .regs .pmc, .regs .csm, .regs .atm, .regs .pfx, .regs .ftl, .regs .nrt]
  | .journalWindowExpiry _ _ =>
    [.clk, .ftls, .regs .tik, .regs .ftl]
  | .checkpointStart _ _ =>
    [.out, .free, .evNew, .clk, .fns, .ftls, .pmcs, .regs .tik, .regs .hrg, .regs .ftl]
  | .ckptNow _ _ =>
    [.out, .free, .evNew, .fns, .ftls, .pmcs, .regs .hrg, .regs .ftl]
  | .gcStart _ =>
    [.out, .evNew, .fns, .ftls, .pmcs, .regs .hrg, .regs .ftl]
  | .eraseDone _ _ _ _ =>
    [.out, .evNew, .parts, .fns, .ftls, .sec, .pmcs, .regs .hrg, .regs .sec, .regs .ftl]
  | .patrolRead _ _ _ =>
    [.out, .evNew, .clk, .fns, .ftls, .pmcs, .regs .tik, .regs .hrg, .regs .pmc, .regs .ftl]
  | .ftlEnable _ _ _ _ =>
    [.evNew, .fns, .ftls, .regs .hrg, .regs .ftl]
  | .ftlReplay _ _ _ =>
    [.out, .free, .evNew, .clk, .parts, .fns, .csms, .pfxs, .stgs, .ftls, .sec, .pmcs, .regs .tik, .regs .hrg, .regs .sec,
      .regs .atm, .regs .pfx, .regs .ftl]
  | .ftlInject _ _ =>
    [.fns, .ftls, .regs .hrg]
  | .ftlJseqLoRead _ _ =>
    [.out, .fns, .regs .hrg, .regs .ftl]
  | .reclaim _ _ | .release _ _ =>
    [.fns, .ftls, .regs .hrg, .regs .ftl]
  | .sqTailDoorbell _ _ _ _ _ =>
    [.fns, .regs .hrg]
  | .cqHeadDoorbell _ _ _ _ _ | .hrgEnWrite _ _ _ =>
    [.out, .fns, .pmcs, .regs .hrg]
  | .step _ _ _ _ _ | .holdTmoExpiry _ _ _ _ =>
    [.out, .evNew, .clk, .parts, .fns, .csms, .pfxs, .stgs, .nrts, .lnks, .pmcs, .regs .tik, .regs .hrg, .regs .ras,
      .regs .pmc, .regs .csm, .regs .nrt]
  | .interruptCoalesceTimeout _ _ _ _ =>
    [.out, .clk, .fns, .regs .tik]
  | .hostFunctionLoss _ | .hostLinkUp _ _ _ _ _ =>
    [.out, .parts, .fns, .pmcs, .regs .hrg]
  | .ptnBindWrite _ _ =>
    [.out, .evNew, .regs .ptn]
  | .ptnDiesWrite _ _ =>
    [.out, .force, .evNew, .parts, .csms, .ftls, .ras, .regs .ras, .regs .ptn]
  | .seal _ =>
    [.out, .free, .evNew, .parts, .fns, .csms, .pfxs, .stgs, .ftls, .nrts, .wkts, .sec, .pmcs, .hbm, .regs .hrg, .regs .sec,
      .regs .pwr, .regs .ptn, .regs .csm, .regs .atm, .regs .stg, .regs .ftl, .regs .nrt, .regs .wkt]
  | .partitionReset _ _ =>
    allBut [.free, .sec, .ras, .pwr, .svc]
  | .aerErrorLogged _ =>
    [.out, .parts, .regs .hrg]
  | .nrtDataPacketRx _ _ _ _ _ _ _ _ _ _ | .readReqRx _ _ _ _ _ _ _ _ | .frameTransmit _ _ =>
    [.out, .evNew, .clk, .parts, .fns, .csms, .pfxs, .stgs, .nrts, .lnks, .pmcs, .regs .tik, .regs .hrg, .regs .ras,
      .regs .pmc, .regs .csm, .regs .nrt, .regs .lnk]
  | .readRespRx _ _ _ _ _ _ _ _ _ | .ackRx _ _ _ _ _ | .nakRx _ _ _ _ _ | .ackTmoExpiry _ _ _ _ =>
    [.out, .free, .evNew, .clk, .parts, .fns, .csms, .pfxs, .stgs, .nrts, .lnks, .pmcs, .regs .tik, .regs .hrg, .regs .pmc,
      .regs .csm, .regs .atm, .regs .pfx, .regs .stg, .regs .nrt]
  | .snackRx _ _ _ _ _ _ =>
    [.out, .evNew, .clk, .fns, .nrts, .lnks, .pmcs, .regs .tik, .regs .hrg, .regs .pmc, .regs .nrt]
  | .pathTmoExpiry _ _ _ _ _ =>
    [.evNew, .clk, .nrts, .lnks, .regs .tik, .regs .nrt]
  | .lingerExpiry _ _ | .rateStepTimer _ _ _ =>
    [.clk, .nrts, .regs .tik]
  | .keyRegister _ _ =>
    [.out, .free, .evNew, .parts, .fns, .pfxs, .nrts, .pmcs, .regs .hrg, .regs .pmc, .regs .pfx]
  | .keyRevoke _ _ _ | .peerSet _ _ =>
    [.out, .free, .evNew, .parts, .fns, .csms, .pfxs, .stgs, .nrts, .lnks, .pmcs, .regs .hrg, .regs .pmc, .regs .csm,
      .regs .atm, .regs .pfx, .regs .stg, .regs .nrt]
  | .keyScrubbed _ _ =>
    [.out, .evNew, .fns, .pfxs, .nrts, .pmcs, .regs .hrg, .regs .nrt]
  | .remoteKey _ _ _ _ | .counterWait _ _ _ _ _ | .armCancel _ _ _ =>
    [.out, .evNew, .parts, .fns, .nrts, .pmcs, .regs .hrg, .regs .pmc]
  | .counterWaitTimeout _ _ =>
    [.out, .evNew, .clk, .parts, .fns, .nrts, .pmcs, .regs .tik, .regs .hrg, .regs .pmc]
  | .rocePacketRx _ _ _ _ _ _ _ _ | .frameRx _ _ _ _ _ _ _ _ _ _ _ _ =>
    [.out, .free, .evNew, .clk, .parts, .fns, .csms, .pfxs, .stgs, .nrts, .lnks, .pmcs, .regs .tik, .regs .hrg, .regs .ras,
      .regs .pmc, .regs .csm, .regs .atm, .regs .pfx, .regs .stg, .regs .nrt, .regs .lnk]
  | .nrtInject _ _ =>
    [.fns, .nrts, .regs .hrg]
  | .pathUp _ _ _ _ =>
    [.out, .clk, .fns, .nrts, .pmcs, .regs .tik, .regs .hrg]
  | .mkaFrameRx _ _ _ _ _ _ _ _ _ =>
    [.out, .evNew, .clk, .fns, .lnks, .pmcs, .regs .tik, .regs .hrg, .regs .nrt, .regs .lnk]
  | .sakInstalled _ | .securedLost _ _ =>
    [.out, .evNew, .fns, .lnks, .pmcs, .regs .hrg, .regs .nrt, .regs .lnk]
  | .rekeyTimer _ _ | .shutterGateChange _ _ =>
    [.evNew, .clk, .lnks, .regs .tik, .regs .lnk]
  | .rekeyNow _ _ | .shutterCommit _ _ | .policerCommit _ _ _ =>
    [.evNew, .fns, .lnks, .regs .hrg, .regs .lnk]
  | .lnkEnWrite _ _ _ | .laneFailure _ _ | .fabricLinkTrained _ _ =>
    [.out, .evNew, .parts, .fns, .nrts, .lnks, .pmcs, .regs .hrg, .regs .pmc, .regs .nrt, .regs .lnk]
  | .latClr _ _ =>
    [.fns, .regs .hrg, .regs .lnk]
  | .lnkTxpnLoRead _ _ =>
    [.out, .fns, .regs .hrg, .regs .lnk]
  | .ctxDestroy _ _ _ =>
    [.out, .free, .evNew, .parts, .fns, .csms, .pfxs, .stgs, .ftls, .nrts, .lnks, .pmcs, .regs .hrg, .regs .sec, .regs .pmc,
      .regs .csm, .regs .atm, .regs .pfx, .regs .stg, .regs .ftl, .regs .nrt]
  | .attest _ _ _ _ _ =>
    [.out, .free, .evNew, .parts, .fns, .pmcs, .regs .hrg, .regs .sec, .regs .pmc]
  | .cakSet _ _ _ _ _ =>
    [.out, .free, .evNew, .parts, .fns, .lnks, .sec, .pmcs, .regs .hrg, .regs .pmc, .regs .nrt, .regs .lnk]
  | .tenantRemove _ _ _ | .remove _ _ _ _ _ =>
    [.out, .evNew, .clk, .parts, .fns, .csms, .pfxs, .stgs, .ftls, .nrts, .lnks, .sec, .pmcs, .regs .tik, .regs .hrg,
      .regs .sec, .regs .ras, .regs .pmc, .regs .ptn, .regs .csm, .regs .stg, .regs .ftl, .regs .nrt]
  | .removalStepEnd _ _ =>
    allBut [.free, .force, .lnks, .ras, .pwr, .svc, .regs .sys, .regs .pwr, .regs .svc, .regs .pfx, .regs .lnk, .regs .mem,
      .regs .dpm]
  | .fwStage _ _ _ | .fwSelect _ _ _ | .svnCommit _ _ | .approvedSet _ _ _ | .tenantKey _ _ _ _ | .debugSeal _ _
  | .ownerProvision _ _ _ =>
    [.out, .parts, .sec, .regs .sec]
  | .zeroize _ _ =>
    [.out, .free, .evNew, .parts, .fns, .ftls, .lnks, .sec, .pmcs, .regs .hrg, .regs .sec, .regs .ftl, .regs .nrt, .regs .lnk]
  | .selftestNow _ _ | .entropyHealthFail =>
    [.out, .evNew, .parts, .fns, .ftls, .nrts, .lnks, .pmcs, .svc, .regs .hrg, .regs .sec, .regs .pmc, .regs .svc, .regs .nrt,
      .regs .lnk]
  | .wicketTakeTask _ _ _ _ =>
    [.evNew, .clk, .pfxs, .wkts, .pmcs, .regs .tik, .regs .pmc, .regs .wkt]
  | .adoption _ _ =>
    [.out, .free, .evNew, .clk, .parts, .fns, .csms, .pfxs, .stgs, .nrts, .lnks, .pmcs, .ras, .regs .tik, .regs .hrg,
      .regs .ras, .regs .pmc, .regs .csm, .regs .atm, .regs .pfx, .regs .nrt]
  | .dieAssign _ _ =>
    allBut [.force, .clk, .sec, .svc]
  | .rasUnitRow0Read _ =>
    [.out, .fns, .regs .hrg, .regs .ras]
  | .getUnits _ _ _ | .getRas _ | .help | .ident | .status _ | .units _ | .log _ | .memRead _ _ _ =>
    [.out]
  | .getAttest _ _ _ _ =>
    [.out, .free, .sec, .regs .sec]
  | .setEndpointId _ _ =>
    [.out, .regs .ras]
  | .pldmRequest _ =>
    [.out, .free]
  | .supplyWarning _ _ _ =>
    [.out, .evNew, .clk, .parts, .fns, .ftls, .pmcs, .pwr, .regs .tik, .regs .hrg, .regs .pwr, .regs .pmc, .regs .ftl,
      .regs .dpm]
  | .supplyRecovery _ _ _ =>
    [.out, .evNew, .clk, .parts, .fns, .csms, .ftls, .pmcs, .pwr, .regs .tik, .regs .hrg, .regs .pwr, .regs .pmc, .regs .ftl,
      .regs .dpm]
  | .avsStep _ _ _ _ =>
    [.out, .free, .force, .evNew, .clk, .fns, .pmcs, .pwr, .regs .tik, .regs .hrg, .regs .dpm]
  | .stateReq _ _ _ =>
    [.out, .evNew, .fns, .pwr, .regs .hrg, .regs .dpm]
  | .powerStateChange _ _ _ =>
    allBut [.sec, .ras]
  | .minClr _ =>
    [.fns, .pwr, .regs .hrg]
  | .thermtrip _ _ _ =>
    [.out, .pwr]
  | .ppsOut _ =>
    [.out, .clk, .pwr, .regs .tik]
  | .stackHot _ _ _ _ =>
    [.evNew, .clk, .regs .tik, .regs .mem]
  | .pmcValueWrite _ _ _ | .peakClr _ _ | .histogramClr _ _ =>
    [.fns, .pmcs, .regs .hrg]
  | .partitionFreeze _ _ _ | .pmcIdxWrite _ _ _ =>
    [.evNew, .fns, .regs .hrg, .regs .pmc]
  | .packageFreeze _ _ =>
    [.fns, .regs .hrg, .regs .pmc]
  | .freezeAtReached _ =>
    [.clk, .regs .tik, .regs .pmc]
  | .pmcTagSeedWrite _ _ _ | .pmcTraceEnWrite _ _ _ =>
    [.fns, .pmcs, .regs .hrg, .regs .pmc]
  | .unmappedAccess _ _ _ | .badAccess _ _ _ =>
    [.out, .free, .parts, .fns, .regs .sys, .regs .hrg]
  | .sense _ =>
    [.out, .free, .pwr]
  | .regRead _ =>
    [.out, .free, .parts, .pwr, .regs .sys, .regs .tik, .regs .ras, .regs .pmc, .regs .atm, .regs .stg, .regs .ftl, .regs .lnk]
  | .memWrite _ _ _ =>
    [.out, .hbm]
  | .svcOn =>
    [.out, .parts, .regs .svc]
  | .holdOn _ =>
    [.out, .evNew, .fns, .pmcs, .pwr, .regs .hrg, .regs .svc, .regs .dpm]
  | .holdOff _ =>
    [.out, .pwr, .regs .svc]
  | .level _ | .levelAuto =>
    [.out, .regs .svc]
  | .injectPane _ _ _ =>
    [.out, .evNew, .regs .csm]
  | .injectAtm _ _ _ =>
    [.out, .evNew, .regs .atm]
  | .injectFlash _ _ _ =>
    [.out, .free, .evNew, .clk, .fns, .ftls, .pmcs, .regs .tik, .regs .hrg, .regs .pmc, .regs .ftl]
  | .pstate _ _ =>
    [.out, .evNew, .pwr, .regs .dpm]
  | .baud _ | .aonHeartbeat | .idcode | .samplePreload _ _ | .extest _ _ | .clamp _ _ | .highz _ _ | .bypass _ =>
    [.out, .svc]
  | .baudSwitch =>
    [.svc, .regs .svc]
  | .debugOpen =>
    [.out, .evNew, .parts, .fns, .ftls, .nrts, .lnks, .sec, .pmcs, .regs .hrg, .regs .sec, .regs .pmc, .regs .svc, .regs .nrt,
      .regs .lnk]
  | .consoleBreak =>
    [.out, .parts, .svc, .regs .svc]
  | .internalScan _ _ =>
    [.out, .free, .svc]
  | .testLogicReset =>
    [.svc]

end Sys2Proof.Machine
end

