-- ==== Sys2Proof/Certificates/Slice0/Obligations.lean ====
section
/-!
DEFINITION. Sys2Proof/Certificates/Slice0/Obligations.lean: the statements for the provers.
-/
open Sys2Proof Sys2Proof.Machine

/-- R21, R22, R24, R26: an Announce message of the configured domain on the port of SRC_DIE takes FREE_RUN to ACQUIRING; a Sync message on the active port measures OFFSET, and the sixteenth offset in a row within LOCK_NS takes ACQUIRING to LOCKED; three announce intervals without a message take LOCKED to HOLDOVER; TIK_HOLD_LIMIT takes HOLDOVER to UNSYNC; a port found by the search becomes the active one. Each sets its event bit; the register fields not listed keep their values. -/
def Obligations.DisciplineFollowsMessagesAndTimers : Prop :=
  (∀ (s : State) (d dom : Nat) (k : Int) (t : Nat),
    s.fget TIK_STATUS_STATE 0 = discFree →
    s.fget TIK_CTRL_DISC_EN 0 ≠ 0 →
    d = s.fget TIK_CTRL_SRC_DIE 0 →
    d < 8 →
    dom = s.fget TIK_PTP_CFG_DOMAIN 0 →
    Runs (.ptpAnnounceRx d dom k t) s (fun u =>
      u.fget TIK_STATUS_STATE 0 = discAcq ∧ u.fget TIK_STATUS_SRC_ACT 0 = d ∧ u.clk.annAt = max s.clk.tNs t ∧ u.clk.annLog = k ∧
      RegsOnly s u [TIK_STATUS_STATE.key 0, TIK_STATUS_SRC_ACT.key 0, TIK_HOLD_TIME_HELD.key 0])) ∧
  (∀ (s : State) (d : Nat) (o : Int) (t : Nat),
    s.fget TIK_STATUS_STATE 0 = discAcq →
    d = s.fget TIK_STATUS_SRC_ACT 0 →
    -2147483648 ≤ o →
    o < 2147483648 →
    Runs (.ptpSyncRx d o t) s (fun u =>
      u.fget TIK_OFFSET_OFFSET 0 = (o % 4294967296).toNat ∧ u.clk.measured = true ∧
      (if o.natAbs ≤ s.fget TIK_PTP_CFG_LOCK_NS 0 ∧ 15 ≤ s.clk.inLock then
        u.fget TIK_STATUS_STATE 0 = discLocked ∧ Raised u TIK_EVENT_LOCK 0
      else u.fget TIK_STATUS_STATE 0 = discAcq) ∧
      RegsOnly s u [TIK_OFFSET_OFFSET.key 0, TIK_STATUS_STATE.key 0, TIK_HOLD_TIME_HELD.key 0, TIK_EVENT_LOCK.key 0])) ∧
  (∀ (s : State) (t : Nat),
    s.fget TIK_STATUS_STATE 0 = discLocked →
    s.clk.annAt + 3 * s.clk.annNs ≤ t →
    Runs (.announceTimeout t) s (fun u =>
      u.fget TIK_STATUS_STATE 0 = discHold ∧ Raised u TIK_EVENT_HOLDOVER 0 ∧ u.clk.holding = true ∧
      RegsOnly s u [TIK_STATUS_STATE.key 0, TIK_HOLD_TIME_HELD.key 0, TIK_EVENT_HOLDOVER.key 0])) ∧
  (∀ (s : State) (t : Nat),
    s.fget TIK_STATUS_STATE 0 = discHold →
    s.fget TIK_HOLD_LIMIT_LIMIT 0 * secNs < s.clk.holdNs →
    Runs (.holdLimitExpiry t) s (fun u =>
      u.fget TIK_STATUS_STATE 0 = discUnsync ∧ Raised u TIK_EVENT_UNSYNC 0 ∧
      RegsOnly s u [TIK_STATUS_STATE.key 0, TIK_HOLD_TIME_HELD.key 0, TIK_EVENT_UNSYNC.key 0])) ∧
  (∀ (s : State) (heard : List (Nat × Int)) (d : Nat) (k : Int) (t : Nat),
    s.clk.searching = true →
    s.fbit TIK_CTRL_FAILOVER 0 = true →
    s.searchFinds heard = some (d, k) →
    d < 8 →
    Runs (.srcChange heard t) s (fun u =>
      u.fget TIK_STATUS_SRC_ACT 0 = d ∧ u.clk.annLog = k ∧ u.clk.annAt = max s.clk.tNs t ∧ u.clk.searching = false ∧ u.fget TIK_STATUS_STATE 0 = discAcq ∧ Raised u TIK_EVENT_SRC_CHANGE 0 ∧
      RegsOnly s u [TIK_STATUS_STATE.key 0, TIK_STATUS_SRC_ACT.key 0, TIK_HOLD_TIME_HELD.key 0, TIK_EVENT_SRC_CHANGE.key 0]))

/-- R22, R24, R56, R586: clearing DISC_EN enters FREE_RUN; STEP_NOW is refused while a generator runs or nothing was measured, and otherwise leaves TIK_OFFSET at 0; the read of TIK_TIME_NS and of TIK_TICK_LO answers the low part and latches the rest; the loss and return of TIME_REFCLK leave the discipline state as it is. -/
def Obligations.TimeRegistersAndReference : Prop :=
  (∀ (s : State) (via : Via),
    MayWrite via (TIK_CTRL_DISC_EN.at_ 0) s →
    Runs (.discEnClear via) s (fun u =>
      u.fget TIK_CTRL_DISC_EN 0 = 0 ∧ u.fget TIK_STATUS_STATE 0 = discFree ∧ u.clk.adj = 0 ∧ u.clk.tNs = s.clk.tNs ∧
      RegsOnly s u [TIK_CTRL_DISC_EN.key 0, TIK_STATUS_STATE.key 0])) ∧
  (∀ (s : State) (via : Via),
    MayWrite via (TIK_CTRL_STEP_NOW.at_ 0) s →
    Runs (.stepNow via) s (fun u =>
      if s.anyGen = true ∨ s.clk.measured = false then
        Raised u TIK_EVENT_STEP_REFUSED 0 ∧ u.clk = s.clk ∧ RegsOnly s u [TIK_EVENT_STEP_REFUSED.key 0]
      else u.clk.total 0 = max 0 (s.clk.total 0 - (s.clk.off * nsUnit + s.clk.corr)) ∧ u.fget TIK_OFFSET_OFFSET 0 = 0 ∧
        u.clk.corr = 0 ∧ u.clk.adj = s.clk.adj ∧ RegsOnly s u [TIK_OFFSET_OFFSET.key 0])) ∧
  (∀ (s : State) (via : Via),
    MayRead via (TIK_TIME_NS_NS.at_ 0) s →
    Runs (.tikTimeNsRead via) s (fun u =>
      SentBy s u [.regValue (TIK_TIME_NS_NS.at_ 0) (BitVec.ofNat 32 ((s.clk.total 0 / nsUnit).toNat % secNs))] ∧
      u.fget TIK_TIME_SEC_LO_SEC_LO 0 = (s.clk.total 0 / nsUnit).toNat / secNs % 2 ^ 32 ∧
      u.fget TIK_TIME_SEC_HI_SEC_HI 0 = (s.clk.total 0 / nsUnit).toNat / secNs / 2 ^ 32 % 2 ^ 16 ∧ u.clk = s.clk ∧
      RegsOnly s u [TIK_TIME_SEC_LO_SEC_LO.key 0, TIK_TIME_SEC_HI_SEC_HI.key 0, TIK_TIME_FRAC_FRAC.key 0])) ∧
  (∀ (s : State) (p : Nat) (via : Via),
    p < 8 →
    MayRead via (TIK_TICK_LO_TICK_LO.at_ p) s →
    Runs (.tikTickLoRead p via) s (fun u =>
      SentBy s u [.regValue (TIK_TICK_LO_TICK_LO.at_ p) (BitVec.ofNat 32 (s.tickNo p % 2 ^ 32))] ∧
      u.fget TIK_TICK_HI_TICK_HI p = s.tickNo p / 2 ^ 32 % 2 ^ 32 ∧ RegsOnly s u [TIK_TICK_HI_TICK_HI.key p])) ∧
  (∀ (s : State) (t : Nat),
    Runs (.timeRefclkLoss t) s (fun u =>
      u.clk.refLost = true ∧ u.clk.tNs = max s.clk.tNs t ∧ RegsOnly s u [TIK_HOLD_TIME_HELD.key 0])) ∧
  (∀ (s : State) (t : Nat),
    Runs (.timeRefclkReturn t) s (fun u =>
      u.clk.refLost = false ∧ u.clk.tNs = max s.clk.tNs t ∧ RegsOnly s u [TIK_HOLD_TIME_HELD.key 0]))

/-- R34, R54, R55, R594, R595: at an untaken tick edge of a partition whose generator runs or may run, every waiting write of the partition is in force afterwards but those that wait for the voltage loop; at an untaken slot boundary those of the slot registers are. TIK_PERIOD.EN is written alone; N and SLOTS written while the generator stands are in force at once; a waiting change applies at an edge of both periods. That an edge acts only once is the model's reading (log entry 12). -/
def Obligations.TicksAndSlots : Prop :=
  (∀ (s : State) (p t : Nat),
    p < 8 →
    (s.part p).pendPer = false →
    (s.part p).resetDue = false →
    max s.clk.tNs t % s.periodNs p = 0 →
    (s.part p).genOn = true →
    max s.clk.tNs t ≠ (s.part p).slotT →
    Runs (.tickBoundary p t) s (fun u =>
      u.clk.tNs = max s.clk.tNs t ∧
      ∀ k, s.boundaryOf (keyOff k) = some p → avsKey k = false → tget u.force k = none)) ∧
  (∀ (s : State) (p t : Nat),
    p < 8 →
    (s.part p).genOn = true →
    (s.part p).resetDue = false →
    max s.clk.tNs t ≠ (s.part p).slotT →
    max s.clk.tNs t % s.periodNs p ≠ 0 →
    max s.clk.tNs t % s.periodNs p * s.slotsOf p % s.periodNs p = 0 →
    Runs (.slotBoundary p t) s (fun u =>
      u.clk.tNs = max s.clk.tNs t ∧ (u.part p).slotT = max s.clk.tNs t ∧
      ∀ k, s.boundaryOf (keyOff k) = some p → slotKey k = true → avsKey k = false → tget u.force k = none)) ∧
  (∀ (s : State) (p : Nat) (en : Bool) (via : Via),
    p < 8 →
    MayWrite via (TIK_PERIOD_EN.at_ p) s →
    Runs (.tikPeriodEnWrite p en via) s (fun u =>
      u.fget TIK_PERIOD_EN p = en.toNat ∧ u.parts = s.parts ∧ RegsOnly s u [TIK_PERIOD_EN.key p])) ∧
  (∀ (s : State) (p n slots t : Nat) (via : Via),
    p < 8 →
    MayWrite via (TIK_PERIOD_N.at_ p) s →
    s.locked p = false →
    (s.part p).genOn = false →
    1 ≤ n →
    n ≤ 40 →
    slots < 4 →
    Runs (.tikPeriodWrite p n slots t via) s (fun u =>
      u.fget TIK_PERIOD_N p = n ∧ u.fget TIK_PERIOD_SLOTS p = slots ∧ u.periodNs p = n * 50000 ∧ u.slotsOf p = 2 ^ slots ∧
      RegsOnly s u [TIK_PERIOD_N.key p, TIK_PERIOD_SLOTS.key p, TIK_HOLD_TIME_HELD.key 0])) ∧
  (∀ (s : State) (p t : Nat),
    p < 8 →
    (s.part p).pendPer = true →
    max s.clk.tNs t ≠ (s.part p).slotT →
    max s.clk.tNs t % s.periodNs p = 0 →
    max s.clk.tNs t % (s.fget TIK_PERIOD_N p * 50000) = 0 →
    Runs (.periodChangeApply p t) s (fun u =>
      u.periodNs p = s.fget TIK_PERIOD_N p * 50000 ∧ u.slotsOf p = 2 ^ s.fget TIK_PERIOD_SLOTS p ∧ (u.part p).pendPer = false ∧
      RegsOnly s u [TIK_HOLD_TIME_HELD.key 0]))

/-- R82, R94 to R100: what the map edits of a volatile sequence answer; the premise on `applyEdit` says that the edit found its room and pages (R65, R597). MAP_FREE needs no such premise: its index entry becomes a TOMBSTONE. -/
def Obligations.MapEditsComplete : Prop :=
  (∀ (s : State) (q : Desc) (seq k j : Nat) (e : SeqSlot) (layer pos : Nat) (toks : List Nat) (data : List (List Nat)),
    Open q s →
    Live q s →
    MapOpen q seq k j e s →
    ((s.begin q 0x21 (seq + layer * 2 ^ 32)).applyEdit k j (.append seq layer pos toks data)).isOk = true →
    Runs (.mapAppend q seq layer pos toks data) s (fun u =>
      Posts s u q 0x21 stOK (pos + data.length) e.body.version ∧ pos = e.len layer ∧ 1 ≤ data.length ∧ data.length ≤ 128)) ∧
  (∀ (s : State) (q : Desc) (seq k j : Nat) (e : SeqSlot) (layer pos : Nat) (data : List (List Nat)),
    Open q s →
    Live q s →
    MapOpen q seq k j e s →
    ((s.begin q 0x22 (seq + layer * 2 ^ 32)).applyEdit k j (.write seq layer pos data)).isOk = true →
    Runs (.mapWrite q seq layer pos data) s (fun u =>
      (∃ id, Posts s u q 0x22 stOK id (e.body.version + 1)) ∧ pos + data.length ≤ e.len layer)) ∧
  (∀ (s : State) (q : Desc) (seq k j : Nat) (e : SeqSlot) (len : Nat),
    Open q s →
    Live q s →
    MapOpen q seq k j e s →
    ((s.begin q 0x23 (seq + len * 2 ^ 32)).applyEdit k j (.truncate seq len)).isOk = true →
    Runs (.mapTruncate q seq len) s (fun u =>
      Posts s u q 0x23 stOK (min len (maxOf e.lens)) (if e.lens.all (fun x => decide (x ≤ len)) then e.body.version else e.body.version + 1))) ∧
  (∀ (s : State) (q : Desc) (seq k j : Nat) (e : SeqSlot) (new len : Nat),
    Open q s →
    Live q s →
    MapOpen q seq k j e s →
    s.seqDie? q.part new = none →
    Volatile k new s →
    s.editWait q [new, seq] = false →
    ((s.begin q 0x24 (new + seq * 2 ^ 32)).applyEdit k j (.fork new seq len false)).isOk = true →
    Runs (.mapFork q new seq len false) s (fun u =>
      Posts s u q 0x24 stOK len 1 ∧ len ≤ minOf e.lens)) ∧
  (∀ (s : State) (q : Desc) (seq k j : Nat) (e : SeqSlot),
    Open q s →
    Live q s →
    MapOpen q seq k j e s →
    Runs (.mapFree q seq) s (fun u =>
      Posts s u q 0x25 stOK 0 e.body.version ∧ (SlotAt u k j).map (fun x => (x.live, x.body.chunks, x.tail.layers)) = some (false, [], [])))

/-- R71, R77, R78, R90, R99, R103, R214: MAP_CREATE, TREE_EVICT, SEAL_COMPLETE, CHUNK_COMPLETION, AUTO_EVICT and PFX_CTRL.EN. -/
def Obligations.SequencesTreeAndSeals : Prop :=
  (∀ (s : State) (q : Desc) (seq ctx : Nat) (toks : List Nat) (c : Ctx),
    Open q s →
    Live q s →
    s.ctx? q.part ctx = some c →
    s.dieDown c.home = false →
    s.fbit PFX_STATUS_READY c.home = true →
    s.seqDie? q.part seq = none →
    c.destroying = none →
    Volatile c.home seq s →
    s.editWait q [seq] = false →
    toks.length ≤ 2 ^ 20 →
    ((s.begin q 0x20 (seq + ctx * 2 ^ 32)).create c.home seq ctx false false toks).isOk = true →
    Runs (.mapCreate q seq ctx false false toks) s (fun u =>
      Posts s u q 0x20 stOK 0 1)) ∧
  (∀ (s : State) (q : Desc) (ctx : Nat) (cascade : Bool) (chain k : Nat) (c : Ctx) (e : TreeEnt),
    Open q s →
    Live q s →
    s.ctx? q.part ctx = some c →
    s.dieDown c.home = false →
    s.fbit PFX_STATUS_READY c.home = true →
    s.treeFind c.home chain = some (k, e) →
    (cascade = true ∨ (∀ x, s.chunk? c.home e.chunk = some x → x.children = 0)) →
    Runs (.treeEvict q ctx cascade chain) s (fun u =>
      Posts s u q 0x26 stOK (s.cascade c.home [k] (s.pfx c.home).tree.length).length 0 ∧ tget (u.pfx c.home).tree k = none ∧
      (u.pfx c.home).index = (s.pfx c.home).index)) ∧
  (∀ (s : State) (die page k : Nat) (p : Page) (e : SeqSlot),
    s.page? die page = some p →
    p.st = .sealing →
    (s.pfx die).index.find? (fun e => e.2.tail.layers.any (fun l => l.sealed == page && l.full != 0)) = some (k, e) →
    SlotAt s die k = some e →
    Runs (.sealComplete die page true) s (fun u =>
      (u.page? die page).map (fun p => (p.st, p.rel)) = some (.sealed, 0) ∧
      (SlotAt u die k).map (fun x => x.tail.layers) = some (e.tail.layers.map (fun l => if l.sealed = page then { l with done := true } else l)) ∧
      u.fget ATM_SEALS_COUNT die = min (s.fget ATM_SEALS_COUNT die + 1) (2 ^ ATM_SEALS_COUNT.w - 1) ∧ (∀ i, i ≠ page → u.page? die i = s.page? die i))) ∧
  (∀ (s : State) (die seq k : Nat) (e : SeqSlot),
    s.seqSlot? die seq = some (k, e) →
    e.complete? = true →
    e.parked = false →
    Volatile die seq s →
    s.seqBusy die seq = false →
    (s.completeChunk die k).isOk = true →
    Runs (.chunkCompletion die seq) s (fun u =>
      (SlotAt u die k).map (fun x => (x.body.version, x.body.chunks.length, x.tail.base)) = some (e.body.version + 1, e.body.chunks.length + 1, e.tail.base + 128) ∧ u.out = s.out)) ∧
  (∀ (s : State) (die : Nat),
    s.fbit PFX_CTRL_AUTO_EVICT die = true →
    s.fget PFX_EVICT_HWM die * s.treeSlots die ≤ 100 * (s.pfx die).tree.length →
    Runs (.autoEvict die) s (fun u =>
      (u.pfx die).tree.length ≤ (s.pfx die).tree.length ∧ (u.pfx die).index = (s.pfx die).index ∧
      (∀ e ∈ (u.pfx die).tree, e ∈ (s.pfx die).tree) ∧ u.out = s.out)) ∧
  (∀ (s : State) (die : Nat) (via : Via),
    MayWrite via (PFX_CTRL_EN.at_ die) s →
    s.dieLocked die = false →
    s.fbit PFX_CTRL_EN die = false →
    s.shadowed die = false →
    s.fbit FTL_STATUS_READY die = false ∨ (s.ftl die).restored = true →
    Runs (.pfxEnable die via) s (fun u =>
      u.fget PFX_CTRL_EN die = 1 ∧ (u.fget PFX_STATUS_READY die = 1 ∨ u.fget PFX_STATUS_CFG_ERR die = 1) ∧ u.out = s.out)) ∧
  (∀ (s : State) (die page : Nat) (p : Page),
    s.page? die page = some p →
    p.st = .sealing →
    Runs (.sealComplete die page false) s (fun u =>
      u.pfxs = s.pfxs ∧ u.fget RAS_TASK_RESTARTS_COUNT die = min (s.fget RAS_TASK_RESTARTS_COUNT die + 1) (2 ^ RAS_TASK_RESTARTS_COUNT.w - 1)))

/-- R110, R169, R181, R182, R330: what the descriptors of the Casement do when their conditions hold. -/
def Obligations.SweepDescriptorsComplete : Prop :=
  (∀ (s : State) (q : Desc) (ctx : Nat) (b : SweepDesc) (c : Ctx),
    Open q s →
    Live q s →
    s.ctx? q.part ctx = some c →
    s.dieDown c.home = false →
    b.ok c = true →
    Runs (.sweepSet q ctx b) s (fun u =>
      Posts s u q 0x30 stOK 0 0 ∧ u.ctx? q.part ctx = some { c with desc := b } ∧ u.csms = s.csms)) ∧
  (∀ (s : State) (q : Desc) (ctx first countM1 fmt bytes : Nat) (img : List Byte) (c : Ctx),
    Open q s →
    Live q s →
    s.ctx? q.part ctx = some c →
    s.dieDown c.home = false →
    c.latent = true →
    first + countM1 < c.layers →
    fmt = 1 ∨ fmt = 8 →
    bytes = (countM1 + 1) * layerBytes c fmt →
    img.length = bytes →
    ((s.begin q 0x31 ctx).loadLayers c.home q.part ctx c fmt img 0 first (countM1 + 1)).isOk = true →
    Runs (.latentLoad q ctx first countM1 fmt bytes none img) s (fun u =>
      Posts s u q 0x31 stOK (countM1 + 1) 0)) ∧
  (∀ (s : State) (q : Desc) (ctx grad seq first countM1 posFirst posCount j : Nat) (c : Ctx) (e : SeqSlot),
    Open q s →
    Live q s →
    s.ctx? q.part ctx = some c →
    s.dieDown c.home = false →
    c.latent = false →
    (s.diesOf q.part).all (fun d => (tget (s.csm d).grads grad).isNone) = true →
    grad < 64 →
    s.seqSlot? c.home seq = some (j, e) →
    e.ctx = ctx →
    first + countM1 < c.layers →
    1 ≤ posCount →
    posCount ≤ 2 ^ 20 →
    posFirst + posCount ≤ 2 ^ 20 →
    (s.begin q 0x32 (ctx + grad * 2 ^ 16 + seq * 2 ^ 32)).quotaOk c.home ctx (ceilDiv ((countM1 + 1) * posCount * gradEntry c) 4096) = true →
    ceilDiv ((countM1 + 1) * posCount * gradEntry c) 4096 ≤ s.freeSegs c.home →
    Runs (.gradOpen q ctx grad seq first countM1 posFirst posCount) s (fun u =>
      Posts s u q 0x32 stOK (ceilDiv ((countM1 + 1) * posCount * gradEntry c) 4096) 0 ∧
      (∃ g, tget (u.csm c.home).grads grad = some g ∧ g.ctx = ctx ∧ g.seq = seq ∧ g.layerFirst = first ∧ g.layers = countM1 + 1 ∧
        g.posFirst = posFirst ∧ g.positions = posCount ∧ g.entries = [] ∧ g.count = 0 ∧ g.poisoned = false))) ∧
  (∀ (s : State) (q : Desc) (ctx grad : Nat) (keep : Bool) (dest room : Nat) (c : Ctx),
    Open q s →
    Live q s →
    s.ctx? q.part ctx = some c →
    (s.part q.part).lostGrads.contains (ctx, grad) = true →
    Runs (.gradClose q ctx grad keep dest room) s (fun u =>
      Posts s u q 0x33 stLOST 0 0 ∧ (u.part q.part).lostGrads = (s.part q.part).lostGrads.filter (· != (ctx, grad)) ∧ u.csms = s.csms)) ∧
  (∀ (s : State) (q : Desc) (ctx grad : Nat) (keep : Bool) (dest room : Nat) (c : Ctx) (g : Grad),
    Open q s →
    Live q s →
    s.ctx? q.part ctx = some c →
    s.dieDown c.home = false →
    (s.part q.part).lostGrads.contains (ctx, grad) = false →
    tget (s.csm c.home).grads grad = some g →
    g.ctx = ctx →
    g.closing = [] →
    dest = 0 ∨ g.layers * g.positions * gradEntry c ≤ room →
    (s.csm c.home).grads.all (fun e => e.2.closing.isEmpty) = true →
    s.gradBusy c.home grad = false →
    g.poisoned = false →
    Runs (.gradClose q ctx grad keep dest room) s (fun u =>
      Posts s u q 0x33 stOK g.count 0 ∧ tget (u.csm c.home).grads grad = if keep then some g else none)) ∧
  (∀ (s : State) (q : Desc) (img : List Byte) (output statusAddr t : Nat) (c : Ctx),
    Open q s →
    Live q s →
    s.ctx? q.part (parseHead img).ctx = some c →
    s.dieDown c.home = false →
    (parseHead img).resultKey = 0 →
    (parseHead img).resultOff = 0 →
    (parseHead img).statusOff = 0 →
    (parseHead img).signal = 0 →
    (parseStep c img).badLen = false →
    img.length = (parseStep c img).entryBytes c →
    s.ringRecs c.home < 1024 →
    s.genRuns c.home = true →
    Runs (.step q img output statusAddr t) s (fun u =>
      ((u.csm c.home).held.map (fun h => (h.img, h.src))) =
        ((s.csm c.home).held.map (fun h => (h.img, h.src))) ++ [(img, .ring q.fn q.sq q.index output statusAddr)] ∧
      (u.outst? q).isSome = true ∧ u.clk.tNs = max s.clk.tNs t ∧ u.out = s.out))

/-- R104, R125, R126, R132, R145, R146, R150, R200 to R203: the steps of a sweep, for a pane and an atomizer that no fence waits for. -/
def Obligations.SweepStepsMoveTheSweep : Prop :=
  (∀ (s : State) (d t : Nat) (w : Sweep),
    s.running? d = none →
    s.fbit DPM_STATUS_PAUSED d = false →
    s.dieDown d = false →
    (s.csm d).sweeps.find? (fun w => !w.started) = some w →
    s.sweep? d w.id = some w →
    (s.csm d).paneFence = 0 →
    (s.csm d).atmFence = 0 →
    Runs (.sweepStart d t) s (fun u =>
      u.fget CSM_SWEEP_ID_SWEEP d = w.id % 2 ^ 32 ∧ u.fget CSM_SWEEP_INFO_CONTEXT d = w.ctx % 2 ^ 12 ∧ u.clk.tNs = max s.clk.tNs t ∧
      (∃ x, u.sweep? d w.id = some x ∧ x.started = true ∧ x.startT = max w.admT (s.csm d).freeT ∧ x.recs = w.recs))) ∧
  (∀ (s : State) (d sweep : Nat) (w : Sweep),
    s.sweep? d sweep = some w →
    w.planned = false →
    Runs (.planComplete d sweep) s (fun u =>
      ∃ x, u.sweep? d sweep = some x ∧ x.planned = true ∧ x.blocks = s.planOf d w.shape (w.recs.map (fun r => (r.held.step, r.snap))) ∧
        x.selDone = (s.summaryPlan d w.shape (w.recs.map (fun r => (r.held.step, r.snap)))).isEmpty)) ∧
  (∀ (s : State) (d page blk : Nat) (tab : Option (List Byte)) (w : Sweep) (b : PlanBlk),
    s.running? d = some w →
    s.sweep? d w.id = some w →
    w.planned = true →
    (if w.selDone then w.blocks else w.summaries).find? (fun b => !b.fetched) = some b →
    b.page = page →
    b.blk = blk →
    (s.csm d).paneFence = 0 →
    (s.csm d).atmFence = 0 →
    Runs (.blockFetchDone d page blk tab none) s (fun u =>
      (if (s.csm d).store.any (fun e => e.page == page && e.blk == blk) = true then u.fget ATM_STORE_HITS_COUNT d = min (s.fget ATM_STORE_HITS_COUNT d + 1) (2 ^ (ATM_STORE_HITS_COUNT).w - 1)
      else u.fget ATM_STORE_MISSES_COUNT d = min (s.fget ATM_STORE_MISSES_COUNT d + 1) (2 ^ (ATM_STORE_MISSES_COUNT).w - 1)) ∧
      (∃ x, u.sweep? d w.id = some x ∧ ∃ y, y ∈ (if w.selDone then x.blocks else x.summaries) ∧ y.page = page ∧ y.blk = blk ∧ y.fetched = true))) ∧
  (∀ (s : State) (d page blk : Nat) (read : Option (List Byte)) (wait : Nat) (w : Sweep) (b : PlanBlk) (elems : Option (List Pos)),
    s.running? d = some w →
    s.sweep? d w.id = some w →
    w.blk? page blk = some b →
    b.inFlight = true →
    w.portUse b.atomizer < 2 →
    b.coded = true →
    b.atomizer < 4 →
    s.expandOf d w b read = .released elems →
    (s.csm d).paneFence = 0 →
    (s.csm d).atmFence = 0 →
    Runs (.blockExpandDone d page blk read wait) s (fun u =>
      u.fget ATM_BLOCKS_COUNT d = min (s.fget ATM_BLOCKS_COUNT d + 1) (2 ^ (ATM_BLOCKS_COUNT).w - 1) ∧ u.fget (ATM_WAIT_CYCLES.nth b.atomizer) d = min (s.fget (ATM_WAIT_CYCLES.nth b.atomizer) d + wait) (2 ^ ((ATM_WAIT_CYCLES.nth b.atomizer)).w - 1) ∧ u.fget ATM_MISMATCH_COUNT d = s.fget ATM_MISMATCH_COUNT d ∧
      (∃ x, u.sweep? d w.id = some x ∧ ∃ y, y ∈ (if w.selDone then x.blocks else x.summaries) ∧ y.page = page ∧ y.blk = blk ∧ y.expanded = true))) ∧
  (∀ (s : State) (d pane page blk head group n : Nat) (mismatch : Bool) (issued stall t : Nat) (w : Sweep) (b : PlanBlk),
    s.running? d = some w →
    s.sweep? d w.id = some w →
    blk ≠ 9 →
    w.blk? page blk = some b →
    b.expanded = true →
    b.tiles.contains (tileCode head group n) = false →
    (tileRecs w b head group n).isEmpty = false →
    (s.paneUse d).testBit pane = true →
    pane < 4 →
    w.seen ⟨b, head, group, n, tileRecs w b head group n⟩ = none →
    tget s.pwr.pauseT d = none →
    (s.csm d).paneFence = 0 →
    (s.csm d).atmFence = 0 →
    Runs (.tileProductDone d pane page blk head group n mismatch issued stall t) s (fun u =>
      if mismatch = true ∨ (s.csm d).injPane.testBit pane = true then u.fget CSM_MISMATCH_COUNT d = min (s.fget CSM_MISMATCH_COUNT d + 1) (2 ^ (CSM_MISMATCH_COUNT).w - 1) ∧ u.fget (CSM_PANE_RETRY_COUNT.nth pane) d = min (s.fget (CSM_PANE_RETRY_COUNT.nth pane) d + 1) (2 ^ ((CSM_PANE_RETRY_COUNT.nth pane)).w - 1) ∧
        u.fget CSM_TILES_COUNT d = s.fget CSM_TILES_COUNT d ∧ Raised u CSM_EVENT_MISMATCH d
      else u.fget CSM_TILES_COUNT d = min (s.fget CSM_TILES_COUNT d + 1) (2 ^ (CSM_TILES_COUNT).w - 1) ∧ u.fget CSM_MISMATCH_COUNT d = s.fget CSM_MISMATCH_COUNT d ∧
        (∃ x, u.sweep? d w.id = some x ∧ ∃ y, y ∈ (if w.selDone then x.blocks else x.summaries) ∧ y.page = page ∧ y.blk = blk ∧
          y.tiles.contains (tileCode head group n) = true))) ∧
  (∀ (s : State) (d sweep i t : Nat) (w : Sweep) (r : SweepRec) (f sq k output addr : Nat),
    s.sweep? d sweep = some w →
    w.recs[i]? = some r →
    r.live = true →
    r.finalised = false →
    w.started = true →
    w.mayFinalise i = true →
    r.held.src = .ring f sq k output addr →
    (s.csm d).paneFence = 0 →
    (s.csm d).atmFence = 0 →
    Runs (.recordFinalise d sweep i false t) s (fun u =>
      u.clk.tNs = max s.clk.tNs t ∧ (∃ x, u.sweep? d sweep = some x ∧ ∃ y, x.recs[i]? = some y ∧ y.finalised = true ∧
        y.output = (outBlock w.shape r.held.step r.rows r.sel).1))) ∧
  (∀ (s : State) (d sweep i t : Nat) (w : Sweep) (r : SweepRec) (f sq k output addr : Nat) (o : Outst),
    s.sweep? d sweep = some w →
    w.recs[i]? = some r →
    r.delivered = false →
    r.live = false ∨ r.finalised = true →
    r.appWait = false →
    r.outBad = false →
    w.turn i = true →
    r.held.src = .ring f sq k output addr →
    (s.part (fnPart f)).outst.find? (fun o => o.of f sq k) = some o →
    o.gen = (s.fn f).gen →
    s.ready f = true →
    (s.csm d).paneFence = 0 →
    (s.csm d).atmFence = 0 →
    Runs (.resultDelivered d sweep i t) s (fun u =>
      u.clk.tNs = max s.clk.tNs t ∧ Emits s u (.hostWrite f addr (resultOf d w r (max s.clk.tNs t)).2.2.2)))

/-- R148, R149, R210, R214, R215: the FENCE, UNFENCE and INJECT bits of the panes and the atomizers. That an unfenced unit is ACTIVE at once and takes work from the next sweep on is a reading of R148 (log entry 30). -/
def Obligations.PanesFenceAndReturn : Prop :=
  (∀ (s : State) (d p : Nat) (via : Via),
    MayWrite via (CSM_PANE_FENCE_FENCE.at_ d) s →
    s.shadowed d = false →
    p < 4 →
    s.fbitAt CSM_PANE_FENCE_FENCED d p = false →
    (s.running? d).isSome = true →
    s.fbitAt CSM_STATUS_PANE_ACT d p = true →
    Runs (.paneFence d (2 ^ p) 0 via) s (fun u =>
      (u.csm d).paneFence.testBit p = true ∧ RegsOnly s u [] ∧ u.out = s.out ∧ u.ras = s.ras)) ∧
  (∀ (s : State) (d p : Nat) (via : Via),
    MayWrite via (CSM_PANE_FENCE_FENCE.at_ d) s →
    s.shadowed d = false →
    p < 4 →
    s.fbitAt CSM_PANE_FENCE_FENCED d p = false →
    s.running? d = none →
    s.unitExists uPane d p = true →
    (s.row uDie d 0).lost = false →
    (s.row uPane d p).own = usACTIVE →
    (s.row uPane d p).mgmt ≠ 1 →
    (s.row uPane d p).passT = none →
    (List.range 4).any (fun x => x != p && s.fbitAt CSM_STATUS_PANE_ACT d x) = true →
    Runs (.paneFence d (2 ^ p) 0 via) s (fun u =>
      u.unitState uPane d p = usFENCED ∧ u.fbitAt CSM_PANE_FENCE_FENCED d p = true ∧ u.fbitAt CSM_STATUS_PANE_ACT d p = false ∧ Raised u RAS_EVENT_UNIT_FENCED 0)) ∧
  (∀ (s : State) (d p pass : Nat) (via : Via),
    MayWrite via (CSM_PANE_FENCE_UNFENCE.at_ d) s →
    s.shadowed d = false →
    p < 4 →
    s.fbitAt CSM_PANE_FENCE_FENCED d p = true →
    s.unitExists uPane d p = true →
    (s.row uDie d 0).lost = false →
    s.unitState uPane d p = usFENCED →
    (s.row uPane d p).testing = false →
    (s.row uPane d p).mgmt = 0 →
    Runs (.paneUnfence d 0 (2 ^ p) pass via) s (fun u =>
      u.fbitAt CSM_PANE_FENCE_TEST_FAIL d p = !pass.testBit p ∧ u.fbitAt CSM_PANE_FENCE_FENCED d p = !pass.testBit p ∧
      u.unitState uPane d p = (if pass.testBit p then usACTIVE else usFENCED))) ∧
  (∀ (s : State) (d p : Nat) (via : Via),
    MayWrite via (ATM_FENCE_FENCE.at_ d) s →
    s.shadowed d = false →
    p < 4 →
    s.fbitAt ATM_FENCE_FENCED d p = false →
    (s.running? d).isSome = true →
    s.fbitAt CSM_STATUS_ATM_ACT d p = true →
    Runs (.atmFence d (2 ^ p) 0 via) s (fun u =>
      (u.csm d).atmFence.testBit p = true ∧ RegsOnly s u [] ∧ u.out = s.out ∧ u.ras = s.ras)) ∧
  (∀ (s : State) (d p : Nat) (via : Via),
    MayWrite via (ATM_FENCE_FENCE.at_ d) s →
    s.shadowed d = false →
    p < 4 →
    s.fbitAt ATM_FENCE_FENCED d p = false →
    s.running? d = none →
    s.unitExists uAtm d p = true →
    (s.row uDie d 0).lost = false →
    (s.row uAtm d p).own = usACTIVE →
    (s.row uAtm d p).mgmt ≠ 1 →
    (s.row uAtm d p).passT = none →
    (List.range 4).any (fun x => x != p && s.fbitAt CSM_STATUS_ATM_ACT d x) = true →
    Runs (.atmFence d (2 ^ p) 0 via) s (fun u =>
      u.unitState uAtm d p = usFENCED ∧ u.fbitAt ATM_FENCE_FENCED d p = true ∧ u.fbitAt CSM_STATUS_ATM_ACT d p = false ∧ Raised u RAS_EVENT_UNIT_FENCED 0)) ∧
  (∀ (s : State) (d p pass : Nat) (via : Via),
    MayWrite via (ATM_FENCE_UNFENCE.at_ d) s →
    s.shadowed d = false →
    p < 4 →
    s.fbitAt ATM_FENCE_FENCED d p = true →
    s.unitExists uAtm d p = true →
    (s.row uDie d 0).lost = false →
    s.unitState uAtm d p = usFENCED →
    (s.row uAtm d p).testing = false →
    (s.row uAtm d p).mgmt = 0 →
    Runs (.atmUnfence d 0 (2 ^ p) pass via) s (fun u =>
      u.fbitAt ATM_FENCE_TEST_FAIL d p = !pass.testBit p ∧ u.fbitAt ATM_FENCE_FENCED d p = !pass.testBit p ∧
      u.unitState uAtm d p = (if pass.testBit p then usACTIVE else usFENCED) ∧ (pass.testBit p = true → u.fget (faultsFld p) d = 0))) ∧
  (∀ (s : State) (d mask : Nat) (via : Via),
    MayWrite via (CSM_CTRL_INJECT.at_ d) s →
    s.shadowed d = false →
    Runs (.csmInject d mask via) s (fun u =>
      (∀ p, p < 4 → (u.csm d).injPane.testBit p = ((s.csm d).injPane.testBit p || (mask.testBit p && !s.fbitAt CSM_PANE_FENCE_FENCED d p))) ∧ u.regs = s.regs ∧ u.out = s.out)) ∧
  (∀ (s : State) (d mask : Nat) (via : Via),
    MayWrite via (ATM_CTRL_INJECT.at_ d) s →
    s.shadowed d = false →
    Runs (.atmInject d mask via) s (fun u =>
      (∀ p, p < 4 → (u.csm d).injAtm.testBit p = ((s.csm d).injAtm.testBit p || (mask.testBit p && !s.fbitAt ATM_FENCE_FENCED d p))) ∧ u.regs = s.regs ∧ u.out = s.out))

/-- R150, R209, R214, R594: the write of CSM_CTRL.EN, the reads of ATM_CODED_LO, ATM_RAW_LO and ATM_PLAIN_LO, and the first step of a rebuild when the copy in HBM is sound. -/
def Obligations.CasementRegistersAndRebuilds : Prop :=
  (∀ (s : State) (d : Nat) (en : Bool) (via : Via),
    MayWrite via (CSM_CTRL_EN.at_ d) s →
    Runs (.csmEnWrite d en via) s (fun u =>
      u.fget CSM_CTRL_EN d = en.toNat ∧ RegsOnly s u [CSM_CTRL_EN.key d] ∧
      (∀ p, s.boundaryOf (CSM_CTRL_EN.at_ d) = some p → (s.part p).genOn = true → u.inForce CSM_CTRL_EN d = s.inForce CSM_CTRL_EN d))) ∧
  (∀ (s : State) (d : Nat) (via : Via),
    MayRead via (ATM_CODED_LO_BYTES.at_ d) s →
    s.shadowed d = false →
    Runs (.atmLoRead d 0 via) s (fun u =>
      SentBy s u [.regValue (ATM_CODED_LO_BYTES.at_ d) (BitVec.ofNat 32 ((s.csm d).coded))] ∧ u.fget ATM_CODED_HI_BYTES d = (s.csm d).coded / 2 ^ 32 % 2 ^ 32 ∧ RegsOnly s u [ATM_CODED_LO_BYTES.key d, ATM_CODED_HI_BYTES.key d])) ∧
  (∀ (s : State) (d : Nat) (via : Via),
    MayRead via (ATM_RAW_LO_BYTES.at_ d) s →
    s.shadowed d = false →
    Runs (.atmLoRead d 1 via) s (fun u =>
      SentBy s u [.regValue (ATM_RAW_LO_BYTES.at_ d) (BitVec.ofNat 32 ((s.csm d).rawBytes))] ∧ u.fget ATM_RAW_HI_BYTES d = (s.csm d).rawBytes / 2 ^ 32 % 2 ^ 32 ∧ RegsOnly s u [ATM_RAW_LO_BYTES.key d, ATM_RAW_HI_BYTES.key d])) ∧
  (∀ (s : State) (d : Nat) (via : Via),
    MayRead via (ATM_PLAIN_LO_BYTES.at_ d) s →
    s.shadowed d = false →
    Runs (.atmLoRead d 2 via) s (fun u =>
      SentBy s u [.regValue (ATM_PLAIN_LO_BYTES.at_ d) (BitVec.ofNat 32 ((s.csm d).plain))] ∧ u.fget ATM_PLAIN_HI_BYTES d = (s.csm d).plain / 2 ^ 32 % 2 ^ 32 ∧ RegsOnly s u [ATM_PLAIN_LO_BYTES.key d, ATM_PLAIN_HI_BYTES.key d])) ∧
  (∀ (s : State) (d page a : Nat) (p : Page) (c : Ctx),
    (s.csm d).rebuilds.find? (fun x => x.1 == page) = some (page, 1, a) →
    s.page? d page = some p →
    p.st = .suspect →
    s.dieCtx? d p.ctx = some c →
    p.sound c (p.image c) = true →
    4 ≤ a ∨ s.inForce ATM_CFG_FAULT_MAX d = 0 ∨ s.fget (faultsFld a) d + 1 < s.inForce ATM_CFG_FAULT_MAX d →
    Runs (.rebuildDone d page .stored) s (fun u =>
      u.page? d page = some { p with st := .sealed } ∧ Raised u ATM_EVENT_CLEARED d ∧ (u.csm d).rebuilds = (s.csm d).rebuilds.filter (fun x => x.1 != page) ∧
      (a < 4 → u.fget (faultsFld a) d = min (s.fget (faultsFld a) d + 1) (2 ^ (faultsFld a).w - 1)) ∧ (∀ i, i ≠ page → u.page? d i = s.page? d i)))

/-- R223, R225 to R231: class, quotas and pins. The charges are read of the state just after the descriptor begins, where the premises are stated too. -/
def Obligations.QuotasPinsAndClasses : Prop :=
  (∀ (s : State) (q : Desc) (seq ctx k j : Nat) (e : SeqSlot),
    Open q s →
    Live q s →
    s.seqDie? q.part seq = some k →
    s.seqSlot? k seq = some (j, e) →
    e.ctx = ctx →
    s.dieDown k = false →
    e.parked = false →
    (s.pfx k).edits = [] →
    Runs (.seqClass q seq ctx false) s (fun u =>
      Posts s u q 0x40 stOK 0 e.body.version ∧ u.pfxs = s.pfxs)) ∧
  (∀ (s : State) (q : Desc) (ctx : Nat) (c : Ctx) (a b f : Nat),
    Open q s →
    Live q s →
    s.ctx? q.part ctx = some c →
    s.dieDown c.home = false →
    (sumNat ((s.part q.part).ctxs.map (fun e => if e.2.home = c.home ∧ e.1 ≠ ctx then e.2.hbmMin else 0)) + b ≤ s.poolSize c.home - s.inForce STG_POOL_HIGH c.home * 1024) →
    Runs (.ctxQuota q ctx a b f) s (fun u =>
      Posts s u q 0x41 stOK (s.charged c.home ctx) (ceilDiv (s.flashSectors c.home ctx []) 16) ∧ u.ctx? q.part ctx = some { c with hbmMax := a, hbmMin := b, flashMax := f } ∧ u.stgs = s.stgs ∧ u.pfxs = s.pfxs)) ∧
  (∀ (s : State) (q : Desc) (id : Nat) (p : Pin) (k j : Nat) (e : SeqSlot),
    Open q s →
    Live q s →
    s.seqDie? q.part p.seq = some k →
    s.seqSlot? k p.seq = some (j, e) →
    e.ctx = p.ctx →
    s.dieDown k = false →
    (s.begin q 0x42 (id + p.ctx * 2 ^ 16 + p.seq * 2 ^ 32)).fitsHbm k (s.away k (s.pinPages k p)) = true →
    Runs (.pinSet q id p) s (fun u =>
      Posts s u q 0x42 stOK (s.pinPages k p).length (s.away k (s.pinPages k p)).length ∧ tget (u.stg k).pins id = some p)) ∧
  (∀ (s : State) (q : Desc) (ctx : Nat) (c : Ctx) (id : Nat) (p : Pin),
    Open q s →
    Live q s →
    s.ctx? q.part ctx = some c →
    s.dieDown c.home = false →
    tget (s.stg c.home).pins id = some p →
    Runs (.pinClear q id ctx) s (fun u =>
      (∃ n, Posts s u q 0x43 stOK (s.pinPages c.home p).length n) ∧ tget (u.stg c.home).pins id = none))

/-- R232, R234, R239 to R252: hints, exports, imports, staging reads, holds and the placement scan. -/
def Obligations.HintsExportsAndStaging : Prop :=
  (∀ (s : State) (q : Desc) (h : HintBody) (k j : Nat) (e : SeqSlot) (x : Hint),
    Open q s →
    Live q s →
    s.seqDie? q.part h.seq = some k →
    s.seqSlot? k h.seq = some (j, e) →
    e.ctx = h.ctx →
    s.dieDown k = false →
    h.deadline = 0 →
    (s.stg k).unmet.find? (fun x => x.tag == h.tag && x.seq == h.seq) = some x →
    Runs (.prefetch q h) s (fun u =>
      Posts s u q 0x44 stOK 0 0 ∧ (u.stg k).unmet = (s.stg k).unmet.erase x)) ∧
  (∀ (s : State) (q : Desc) (h : HintBody) (k j : Nat) (e : SeqSlot),
    Open q s →
    Live q s →
    s.seqDie? q.part h.seq = some k →
    s.seqSlot? k h.seq = some (j, e) →
    e.ctx = h.ctx →
    s.dieDown k = false →
    h.deadline ≠ 0 →
    h.layerFirst + h.layers ≤ e.tail.layers.length →
    h.posFirst + h.posCount ≤ maxOf ((e.lens.drop h.layerFirst).take h.layers) →
    s.away k (s.rangePages k h.seq h.layerFirst h.layers h.posFirst h.posCount) = [] →
    (s.stg k).unmet.length < 4096 →
    Runs (.prefetch q h) s (fun u =>
      Posts s u q 0x44 stOK (s.tickOf k) 0)) ∧
  (∀ (s : State) (q : Desc) (ctx t key chain off room id : Nat) (c : Ctx) (x : Nat × TreeEnt) (ch : Chunk),
    Open q s →
    Live q s →
    s.ctx? q.part ctx = some c →
    s.dieDown c.home = false →
    s.treeFind c.home chain = some x →
    x.2.chunk = id →
    s.chunk? c.home id = some ch →
    (ch.pages.all (fun p => match s.page? c.home p with | some y => y.place.hbm && y.st == .sealed | none => false) = true) →
    (s.exportImage c.home c ch).length ≤ room →
    (s.diesOf q.part).contains t = true →
    s.dieDown t = false →
    (s.begin q 0x45 (ctx + 2 ^ 17 + t * 2 ^ 24 + key * 2 ^ 32)).quotaOk c.home ctx (ceilDiv (s.exportImage c.home c ch).length 4096) = true →
    ceilDiv (s.exportImage c.home c ch).length 4096 ≤ s.freeSegs t →
    Runs (.chunkExport q ctx false (some t) key chain off room) s (fun u =>
      Posts s u q 0x45 stOK (s.exportImage c.home c ch).length 0 ∧ u.fget STG_EXPORTS_COUNT c.home = min (s.fget STG_EXPORTS_COUNT c.home + 1) (2 ^ (STG_EXPORTS_COUNT).w - 1))) ∧
  (∀ (s : State) (q : Desc) (ctx : Nat) (c : Ctx) (replica : Bool) (key off bytes i : Nat) (p : Peer),
    Open q s →
    Live q s →
    s.ctx? q.part ctx = some c →
    s.dieDown c.home = false →
    tget (s.nrt c.home).binds key = some i →
    s.peer? c.home i = some p →
    p.qp = none →
    s.nrtReady c.home = true →
    Runs (.chunkImport q ctx replica key off bytes) s (fun u =>
      (u.stg c.home).imports = (s.stg c.home).imports ++ [⟨q.fn, q.sq, q.index, q.part, ctx, replica, key, off, bytes, [], [], []⟩] ∧
      (∃ x, (u.nrt c.home).tx.getLast? = some x ∧ x.peer = i ∧ x.hdr.typ = 3 ∧ x.hdr.key = key ∧ x.hdr.addr = off ∧ x.hdr.total = 576 ∧
        x.use = .imported q.fn q.sq q.index) ∧ (u.outst? q).isSome = true ∧ u.pfxs = s.pfxs)) ∧
  (∀ (s : State) (q : Desc) (ctx : Nat) (c : Ctx) (replica : Bool) (key off bytes : Nat),
    Open q s →
    Live q s →
    s.ctx? q.part ctx = some c →
    s.dieDown c.home = false →
    tget (s.nrt c.home).binds key = none →
    Runs (.chunkImport q ctx replica key off bytes) s (fun u =>
      Posts s u q 0x46 stMALFORMED 0 0 ∧ u.pfxs = s.pfxs ∧ (u.stg c.home).imports = (s.stg c.home).imports)) ∧
  (∀ (s : State) (d page : Nat) (t : StgTask) (p : Page) (c : Ctx),
    (s.stg d).tasks.find? (fun t => t.page == page && t.prio != 1 && !t.segs.isEmpty) = some t →
    (s.stg d).tasks.find? (fun t => t.page == page) = some t →
    s.page? d page = some p →
    s.turnOf d t p = true →
    s.readOf d t p .stored = some .stored →
    s.dieCtx? d p.ctx = some c →
    p.st = .open_ ∨ p.st = .full ∨ (p.st = .sealed ∧ p.arrivalOk c (p.image c) = true) →
    (s.pfx d).edits = [] →
    Runs (.stagingReadDone d page .stored) s (fun u =>
      (u.page? d page).map (fun x => (x.segs, x.list, x.place.hbm, x.place.staging)) = some (t.segs, t.list, true, false) ∧ (u.page? d page).map (fun x => (x.st, x.pos)) = some (p.st, p.pos))) ∧
  (∀ (s : State) (d t : Nat),
    Runs (.heldExpiry d t) s (fun u =>
      (u.stg d).hints = (s.stg d).hints.filter (fun h => !(h.met && decide (h.release ≤ u.tickOf d))) ∧ u.clk.tNs = max s.clk.tNs t ∧ u.out = s.out)) ∧
  (∀ (s : State) (d page : Nat) (p : Page),
    s.page? d page = some p →
    s.fbit STG_CTRL_IDLE_RELEASE d = false →
    Runs (.placementScan d page) s (fun u =>
      (u.page? d page).map (fun x => x.place.heat) = some (s.heat d p) ∧ (∀ i, i ≠ page → u.page? d i = s.page? d i) ∧ u.regs = s.regs ∧ u.out = s.out)) ∧
  (∀ (s : State) (d : Nat) (via : Via),
    MayRead via (STG_QUEUED_LO_BYTES.at_ d) s →
    s.shadowed d = false →
    Runs (.stgQueuedLoRead d via) s (fun u =>
      SentBy s u [.regValue (STG_QUEUED_LO_BYTES.at_ d) (BitVec.ofNat 32 (s.queued d))] ∧ u.fget STG_QUEUED_HI_BYTES d = s.queued d / 2 ^ 32 % 2 ^ 32 ∧ RegsOnly s u [STG_QUEUED_LO_BYTES.key d, STG_QUEUED_HI_BYTES.key d]))

/-- R263, R266, R271, R274, R277, R279, R280, R295, R305: programs, reads, journal and checkpoints. The size of a checkpoint object is a free value (log entry 33), at most 512 sectors here. -/
def Obligations.FlashWritesReadsAndJournal : Prop :=
  (∀ (s : State) (d : Nat) (band stripe member ns k : Nat) (b : Band),
    band ≠ 0 →
    tget (s.ftl d).bands band = some b →
    b.kind ≠ .journal →
    member = stripe % max 1 b.members.length →
    (s.ftl d).lunOf (.prog band stripe member) = some k →
    (s.ftl d).still = false →
    (s.ftl d).hold ≠ .loss →
    s.pwr.coldWait = none →
    Runs (.flashProgramDone d band stripe member true ns) s (fun u =>
      (tget (u.ftl d).bands band).map (fun x => x.par) = some (insNat stripe b.par) ∧ (u.ftl d).objs = (s.ftl d).objs ∧ (u.ftl d).jlog = (s.ftl d).jlog)) ∧
  (∀ (s : State) (d : Nat) (stripe member ns k : Nat) (a : Anchor),
    (s.ftl d).anchorRun = some a →
    (s.ftl d).lunOf .anchor = some k →
    (s.ftl d).still = false →
    (s.ftl d).hold ≠ .loss →
    s.pwr.coldWait = none →
    Runs (.flashProgramDone d 0 stripe member true ns) s (fun u =>
      (u.ftl d).ckptRun = false ∧ (u.ftl d).anchorRun = none ∧ tget (u.ftl d).anchors (a.serial % 2) = some a ∧
      (u.ftl d).jlog = (s.ftl d).jlog.filter (fun r => decide (a.jseq < r.jseq)))) ∧
  (∀ (s : State) (d : Nat) (r : SectorRead) (t : Nat) (x : Nat × Nat × Nat),
    (s.ftl d).inject = false →
    (s.ftl d).hold ≠ .error →
    recoverSteps (s.expects d r.band r.sector) r.decoded false = (1, 0) →
    r.bits ≤ s.inForce FTL_RETRY_REFRESH_BITS d →
    r.entry ≤ s.inForce FTL_RETRY_START_MAX d →
    s.memberAt d r.band r.sector = some x →
    tget (s.ftl d).lun (lunKey x.1 x.2.1) = none →
    s.fbitAt FTL_CH_FENCE_FENCED d x.1 = false →
    Runs (.sectorReadDone d .other r t) s (fun u =>
      u.fget FTL_RETRIES_COUNT d = min (s.fget FTL_RETRIES_COUNT d + r.retries) (2 ^ (FTL_RETRIES_COUNT).w - 1) ∧ ((u.ftl d).member (memKey x.1 x.2.1 x.2.2)).start = r.entry ∧ ((u.ftl d).member (memKey x.1 x.2.1 x.2.2)).reads =
        (if s.inForce FTL_PATROL_RD_LIMIT d * 1024 ≤ ((s.ftl d).member (memKey x.1 x.2.1 x.2.2)).reads + 1 then 0 else ((s.ftl d).member (memKey x.1 x.2.1 x.2.2)).reads + 1))) ∧
  (∀ (s : State) (d : Nat) (t n p : Nat) (b : Band),
    (s.ftl d).jpend.isEmpty = false →
    (s.ftl d).jpages.length < 4 →
    (s.ftl d).jpages.all (fun x => x.band != 0) = true →
    (s.ftl d).jpendT + s.inForce FTL_JNL_WINDOW d * 1000 ≤ t →
    (s.ftl d).journalBands.isEmpty = false →
    s.journalSlot d = some (n, p) →
    tget (s.ftl d).bands n = some b →
    p + 5 < s.pairsOf d b →
    Runs (.journalWindowExpiry d t) s (fun u =>
      (u.ftl d).jpages = (s.ftl d).jpages ++ [⟨(s.ftl d).jpageNo + 1, (s.ftl d).jpend.take 256, 256 - min 256 (s.ftl d).jpend.length, n, p, false, false⟩] ∧
      (u.ftl d).jpend = (s.ftl d).jpend.drop 256 ∧ (u.ftl d).jseq = (s.ftl d).jseq + (256 - min 256 (s.ftl d).jpend.length) ∧
      (tget (u.ftl d).bands n).map (fun x => x.wp) = some (p + 1) ∧ u.out = s.out)) ∧
  (∀ (s : State) (d : Nat) (t m : Nat) (b : Band),
    (s.ftl d).ckptRun = false →
    (s.ftl d).hold = .free →
    s.fbit FTL_STATUS_READY d = true →
    (s.ftl d).openBand .meta_ = some (m, b) →
    b.ns = 0xFF →
    tget (s.ftl d).bands m = some b →
    b.wp + 512 ≤ s.bandSectors d b →
    s.inForce FTL_JNL_CKPT_MIB d * 2 ^ 20 ≤ (s.ftl d).ckptBytes ∨ (s.ftl d).ckptT + s.inForce FTL_JNL_CKPT_MIN d * 60 * secNs ≤ t →
    Runs (.checkpointStart d t) s (fun u =>
      (u.ftl d).ckptRun = true ∧ (u.ftl d).ckptNo = (s.ftl d).ckptNo + 1 ∧ (u.ftl d).ckptBytes = 0 ∧
      (∃ o, o ∈ (u.ftl d).objs ∧ o.kind = 4 ∧ o.obj = (s.ftl d).ckptNo + 1 ∧ o.st = .programming ∧ o.loc.band = m ∧ o.loc.sector = b.wp) ∧ (u.ftl d).ckptT = max s.clk.tNs t)) ∧
  (∀ (s : State) (d : Nat) (m : Nat) (b : Band) (via : Via),
    MayWrite via (FTL_CTRL_CKPT_NOW.at_ d) s →
    s.shadowed d = false →
    (s.ftl d).ckptRun = false →
    (s.ftl d).hold = .free →
    s.fbit FTL_STATUS_READY d = true →
    (s.ftl d).openBand .meta_ = some (m, b) →
    b.ns = 0xFF →
    tget (s.ftl d).bands m = some b →
    b.wp + 512 ≤ s.bandSectors d b →
    Runs (.ckptNow d via) s (fun u =>
      (u.ftl d).ckptRun = true ∧ (u.ftl d).ckptNo = (s.ftl d).ckptNo + 1 ∧ (u.ftl d).ckptBytes = 0 ∧
      (∃ o, o ∈ (u.ftl d).objs ∧ o.kind = 4 ∧ o.obj = (s.ftl d).ckptNo + 1 ∧ o.st = .programming ∧ o.loc.band = m ∧ o.loc.sector = b.wp) ∧ u.out = s.out)) ∧
  (∀ (s : State) (d : Nat),
    (s.ftl d).hold = .free →
    s.clockOn d 7 = true →
    s.fbit FTL_STATUS_READY d = true →
    (s.ftl d).refresh = [] →
    Runs (.gcStart d) s (fun u =>
      (u.ftl d).gcOn = (if s.freeBands d < s.inForce FTL_GC_LOW d then true else if s.inForce FTL_GC_HIGH d ≤ s.freeBands d then false else (s.ftl d).gcOn))) ∧
  (∀ (s : State) (d : Nat) (via : Via),
    MayWrite via (FTL_CTRL_INJECT.at_ d) s →
    s.shadowed d = false →
    Runs (.ftlInject d via) s (fun u =>
      (u.ftl d).inject = true ∧ u.regs = s.regs ∧ u.out = s.out ∧ (u.ftl d).bands = (s.ftl d).bands)) ∧
  (∀ (s : State) (d : Nat) (via : Via),
    MayRead via (FTL_JSEQ_LO_JSEQ_LO.at_ d) s →
    s.shadowed d = false →
    Runs (.ftlJseqLoRead d via) s (fun u =>
      SentBy s u [.regValue (FTL_JSEQ_LO_JSEQ_LO.at_ d) (BitVec.ofNat 32 (s.ftl d).jseq)] ∧ u.fget FTL_JSEQ_HI_JSEQ_HI d = (s.ftl d).jseq / 2 ^ 32 % 2 ^ 32 ∧ RegsOnly s u [FTL_JSEQ_LO_JSEQ_LO.key d, FTL_JSEQ_HI_JSEQ_HI.key d])) ∧
  (∀ (s : State) (d : Nat) (band stripe member ns k : Nat) (b : Band),
    band ≠ 0 →
    tget (s.ftl d).bands band = some b →
    b.kind ≠ .journal →
    (s.ftl d).lunOf (.prog band stripe member) = some k →
    (s.ftl d).still = false →
    (s.ftl d).hold ≠ .loss →
    s.pwr.coldWait = none →
    Runs (.flashProgramDone d band stripe member false ns) s (fun u =>
      u.fget FTL_PROG_FAIL_COUNT d = min (s.fget FTL_PROG_FAIL_COUNT d + 1) (2 ^ (FTL_PROG_FAIL_COUNT).w - 1) ∧ Raised u FTL_EVENT_PROG_FAIL d ∧ (tget (u.ftl d).bands band).map (fun x => x.closed) = some true))

/-- R254, R255, R280, R285, R291, R294, R303 to R306: erases, patrol, enable, and the fences and owners of channels. That the device values come with the command that enables the flash is the model's choice (log entry 4). -/
def Obligations.FlashChannelsAndBands : Prop :=
  (∀ (s : State) (d : Nat) (band failed ns : Nat) (b : Band),
    tget (s.ftl d).bands band = some b →
    b.gc = .erasing →
    (s.ftl d).hold = .free →
    (s.ftl d).dead = [] →
    (b.members.all (fun m => match tget (s.ftl d).lun (lunKey m.1 m.2.1) with | some x => x.1 == .erase band | none => false) = true) →
    s.fbit FTL_CTRL_GC_EN d = false →
    s.sec.rms = [] →
    s.sec.zeroBands = [] →
    Runs (.eraseDone d band failed ns) s (fun u =>
      tget (u.ftl d).bands band = none ∧ u.fget FTL_GC_BANDS_COUNT d = min (s.fget FTL_GC_BANDS_COUNT d + 1) (2 ^ (FTL_GC_BANDS_COUNT).w - 1) ∧ (∀ o, o ∈ (u.ftl d).objs → o.loc.band ≠ band))) ∧
  (∀ (s : State) (d : Nat) (r : SectorRead) (t : Nat),
    s.fbit FTL_CTRL_PATROL_EN d = true →
    s.clockOn d 7 = true →
    (s.ftl d).stopped = false →
    (s.ftl d).bands.isEmpty = false →
    s.nextPatrol d = some (r.band, r.sector) →
    s.patrolMay d r = true →
    Runs (.patrolRead d [r] t) s (fun u =>
      (∃ n, n ≤ 1 ∧ (u.ftl d).cwLog.getLast? = some (max s.clk.tNs t, 1, n)) ∧ u.clk.tNs = max s.clk.tNs t ∧
      (((u.ftl d).patBand = r.band ∧ (u.ftl d).patStripe = r.sector ∧ (u.ftl d).patRead = (s.ftl d).patRead + 1) ∨
        ((u.ftl d).patBand = 0 ∧ (u.ftl d).patRead = 0 ∧ (u.ftl d).patT = max s.clk.tNs t)))) ∧
  (∀ (s : State) (d : Nat) (luns : List LunPage) (via : Via),
    MayWrite via (FTL_CTRL_EN.at_ d) s →
    s.dieLocked d = false →
    s.fbit FTL_CTRL_EN d = false →
    s.shadowed d = false →
    Runs (.ftlEnable d true luns via) s (fun u =>
      u.fget FTL_CTRL_EN d = 1 ∧ u.fget FTL_STATUS_REPLAYING d = 1 ∧ (u.ftl d).luns = luns ∧ (u.ftl d).outCh = ({ (s.ftl d) with luns := luns } : Ftl).chansOut ∧
      (u.fget FTL_STATUS_GEOM_BAD d = 0 ↔ ({ (s.ftl d) with luns := luns } : Ftl).chansOut = []) ∧
      (∀ l, ({ (s.ftl d) with luns := luns } : Ftl).refLun = some l → u.fget FTL_DEVICE_RATE d = l.rate % 2 ^ FTL_DEVICE_RATE.w ∧
        u.fget FTL_GEOM_BLOCKS_M1 d = (l.blocks - 1) % 2 ^ FTL_GEOM_BLOCKS_M1.w ∧ u.fget FTL_TIMING_TPROG d = l.tprog % 2 ^ FTL_TIMING_TPROG.w))) ∧
  (∀ (s : State) (d : Nat) (c t : Nat),
    ((dget (s.ftl d).chErr [] c).filter (fun x => decide (t < x + secNs))).length < 2 →
    Runs (.channelCmdTimeout d c t) s (fun u =>
      tget (u.ftl d).chErr c = some ((dget (s.ftl d).chErr [] c).filter (fun x => decide (t < x + secNs)) ++ [t]) ∧ (u.ftl d).bands = (s.ftl d).bands ∧ u.out = s.out)) ∧
  (∀ (s : State) (d : Nat) (c t : Nat),
    c < 16 →
    s.unitExists uChan d c = true →
    (s.row uDie d 0).lost = false →
    2 ≤ ((dget (s.ftl d).chErr [] c).filter (fun x => decide (t < x + secNs))).length →
    (s.ftl d).hold = .warn →
    (s.row uChan d c).own = usACTIVE →
    (s.row uChan d c).mgmt ≠ 1 →
    Runs (.channelCmdTimeout d c t) s (fun u =>
      u.unitState uChan d c = usFENCED ∧ u.fbitAt FTL_CH_FENCE_FENCED d c = true ∧ Raised u FTL_EVENT_CH_FENCED d ∧ tget (u.ftl d).chErr c = none)) ∧
  (∀ (s : State) (d : Nat) (c : Nat) (via : Via),
    MayWrite via (FTL_CH_CMD_FENCE.at_ d) s →
    s.shadowed d = false →
    c < 16 →
    s.unitExists uChan d c = true →
    (s.row uDie d 0).lost = false →
    s.fbitAt FTL_CH_FENCE_FENCED d c = false →
    (s.ftl d).hold ≠ .free ∨ s.fbit FTL_STATUS_READY d = false →
    (s.row uChan d c).own = usACTIVE →
    (s.row uChan d c).mgmt ≠ 1 →
    (s.row uChan d c).passT = none →
    Runs (.channelFence d (2 ^ c) 0 via) s (fun u =>
      u.unitState uChan d c = usFENCED ∧ u.fbitAt FTL_CH_FENCE_FENCED d c = true ∧ Raised u FTL_EVENT_CH_FENCED d)) ∧
  (∀ (s : State) (d : Nat) (c pass : Nat) (via : Via),
    MayWrite via (FTL_CH_CMD_UNFENCE.at_ d) s →
    s.shadowed d = false →
    c < 16 →
    s.unitExists uChan d c = true →
    (s.row uDie d 0).lost = false →
    s.fbitAt FTL_CH_FENCE_FENCED d c = true →
    s.unitState uChan d c = usFENCED →
    (s.row uChan d c).testing = false →
    (s.row uChan d c).mgmt = 0 →
    Runs (.channelUnfence d 0 (2 ^ c) pass via) s (fun u =>
      u.fbitAt FTL_CH_FENCE_FENCED d c = !pass.testBit c ∧ u.unitState uChan d c = (if pass.testBit c then usACTIVE else usFENCED))) ∧
  (∀ (s : State) (d : Nat) (via : Via),
    MayWrite via (FTL_OWN_CMD_RECLAIM.at_ d) s →
    s.fget DPM_STATUS_STATE d = 0 →
    (s.row uDie d 0).passed = true →
    ((List.range 16).filter (fun c => (s.ftl d).chan c == .twinRo || (s.ftl d).chan c == .fenced)).isEmpty = false →
    Runs (.reclaim d via) s (fun u =>
      (∀ c, c < 16 → (u.ftl d).chan c = if (s.ftl d).chan c = .twinRo ∨ (s.ftl d).chan c = .fenced then .returning else (s.ftl d).chan c) ∧
      u.fget FTL_STATUS_REPLAYING d = 1 ∧ u.fget FTL_STATUS_TAKEN_OVER d = 0)) ∧
  (∀ (s : State) (d : Nat) (via : Via),
    MayWrite via (FTL_OWN_CMD_RELEASE.at_ d) s →
    s.shadowed d = false →
    ((List.range 16).filter (fun c => (s.ftl (twin d)).chan c == .twinRo)).isEmpty = false →
    Runs (.release d via) s (fun u =>
      (∀ c, c < 16 → (u.ftl (twin d)).chan c = if (s.ftl (twin d)).chan c = .twinRo then .fenced else (s.ftl (twin d)).chan c) ∧
      u.fget FTL_OWN_ADOPTED d = 0 ∧ u.fget FTL_STATUS_TAKEN_OVER (twin d) = 0))

/-- R319, R336, R350: a 4-byte doorbell write with an index the ring has moves the tail of an ACTIVE SQ, or the head of an ACTIVE CQ up to its tail; any other is counted in HRG_DB_ERRS, sets HRG_FEVENT.DB_ERR and moves nothing. -/
def Obligations.DoorbellsMoveTheirRing : Prop :=
  (∀ (s : State) (p x n idx : Nat) (w32 : Bool) (r : Ring),
    (s.fn (2 * p + x)).active? n = some r →
    w32 = true →
    idx < r.size →
    n < 128 →
    Runs (.sqTailDoorbell p x n idx w32) s (fun u =>
      (u.fn (2 * p + x)).ring? n = some { r with tail := idx } ∧ u.regs = s.regs ∧ u.out = s.out ∧
      (∀ m, m ≠ n → (u.fn (2 * p + x)).ring? m = (s.fn (2 * p + x)).ring? m) ∧ (∀ g, g ≠ 2 * p + x → u.fn g = s.fn g))) ∧
  (∀ (s : State) (p x n idx : Nat) (w32 : Bool),
    (∀ r, (s.fn (2 * p + x)).active? n = some r → w32 = false ∨ r.size ≤ idx ∨ 128 ≤ n) →
    Runs (.sqTailDoorbell p x n idx w32) s (fun u =>
      u.fget HRG_DB_ERRS_COUNT (2 * p + x) = min (s.fget HRG_DB_ERRS_COUNT (2 * p + x) + 1) 0xFFFFFFFF ∧
      Raised u HRG_FEVENT_DB_ERR (2 * p + x) ∧ (∀ g, (u.fn g).rings = (s.fn g).rings) ∧ u.out = s.out ∧
      RegsOnly s u [HRG_DB_ERRS_COUNT.key (2 * p + x), HRG_FEVENT_DB_ERR.key (2 * p + x)])) ∧
  (∀ (s : State) (p x n idx : Nat) (w32 : Bool) (r : Ring),
    (s.fn (2 * p + x)).active? (cqPage n) = some r →
    w32 = true →
    idx < r.size →
    (idx + r.size - r.head) % r.size ≤ r.used →
    (s.fn (2 * p + x)).held = [] →
    (s.fn (2 * p + x)).lost = 0 →
    Runs (.cqHeadDoorbell p x n idx w32) s (fun u =>
      (u.fn (2 * p + x)).ring? (cqPage n) = some { r with head := idx } ∧ u.regs = s.regs ∧ u.out = s.out ∧
      (∀ g, g ≠ 2 * p + x → u.fn g = s.fn g))) ∧
  (∀ (s : State) (p x n idx : Nat) (w32 : Bool),
    (∀ r, (s.fn (2 * p + x)).active? (cqPage n) = some r → w32 = false ∨ r.size ≤ idx ∨ r.used < (idx + r.size - r.head) % r.size) →
    Runs (.cqHeadDoorbell p x n idx w32) s (fun u =>
      u.fget HRG_DB_ERRS_COUNT (2 * p + x) = min (s.fget HRG_DB_ERRS_COUNT (2 * p + x) + 1) 0xFFFFFFFF ∧
      Raised u HRG_FEVENT_DB_ERR (2 * p + x) ∧ (∀ g, (u.fn g).rings = (s.fn g).rings) ∧ u.out = s.out ∧
      RegsOnly s u [HRG_DB_ERRS_COUNT.key (2 * p + x), HRG_FEVENT_DB_ERR.key (2 * p + x)]))

/-- R325 to R328, R342: NOP completes with OK and result words 0; RING_CREATE makes an ACTIVE, empty ring and answers its size; RING_DELETE of a CQ without SQs removes it; RESYNC with room waits for its snapshot, and with too little room is MALFORMED. -/
def Obligations.RingCommandsComplete : Prop :=
  (∀ (s : State) (q : Desc),
    Open q s →
    Live q s →
    Runs (.nop q) s (fun u =>
      Posts s u q 0x00 stOK 0 0)) ∧
  (∀ (s : State) (q : Desc) (cq : Bool) (id log2 flags link cc ct base : Nat),
    Open q s →
    Live q s →
    q.sq = 0 →
    (s.part q.part).outst = [] →
    s.ringOk q.fn cq id log2 flags link cc ct base = true →
    Runs (.ringCreate q cq id log2 flags link cc ct base) s (fun u =>
      Posts s u q 0x02 stOK (2 ^ log2) 0 ∧
      (u.fn q.fn).ring? (if cq then cqPage id else id) = some { st := .active, log2 := log2, base := base, flags := flags, link := link, coalCount := cc, coalTime := ct, head := 0, tail := 0, phase := true, since := 0, sinceT := 0, dropped := 0 })) ∧
  (∀ (s : State) (q : Desc) (id : Nat),
    Open q s →
    Live q s →
    q.sq = 0 →
    (s.part q.part).outst = [] →
    1 ≤ id →
    id ≤ 127 →
    id ≠ (s.fn q.fn).cqOf 0 →
    ((s.fn q.fn).ring? (cqPage id)).isSome = true →
    (s.fn q.fn).rings.all (fun e => decide (128 ≤ e.1) || e.2.link != id) = true →
    Runs (.ringDelete q true id) s (fun u =>
      Posts s u q 0x03 stOK 0 0 ∧ (u.fn q.fn).ring? (cqPage id) = none)) ∧
  (∀ (s : State) (q : Desc) (dest room : Nat) (adopt : Bool),
    Open q s →
    Live q s →
    208 ≤ room →
    Runs (.resync q dest room adopt) s (fun u =>
      (u.fn q.fn).resyncs = (s.fn q.fn).resyncs ++ [⟨q.fn, q.sq, q.index, dest, room, adopt⟩] ∧ u.out = s.out ∧ (u.outst? q).isSome = true)) ∧
  (∀ (s : State) (q : Desc) (dest room : Nat) (adopt : Bool),
    Open q s →
    Live q s →
    room < 208 →
    Runs (.resync q dest room adopt) s (fun u =>
      Posts s u q 0x01 stMALFORMED 0 0 ∧ (∀ g, (u.fn g).resyncs = (s.fn g).resyncs)))

/-- R311, R316, R339, R350: HRG_CTRL.EN from 0 to 1 with a sound admin pair makes the rings READY, the admin pair empty and the counts 0; an unsound pair leaves EN at 0 and sets CFG_ERR. EN to 0, an FLR, bus master cleared and the link lost leave every ring DISABLED and the function not READY, with the cause in HRG_STATUS.CAUSE. -/
def Obligations.HostFunctionsEnableAndFall : Prop :=
  (∀ (s : State) (p x : Nat),
    x < 2 →
    p < 8 →
    s.fbit HRG_CTRL_EN (2 * p + x) = false →
    s.adminOk (2 * p + x) = true →
    s.bound p (1 - x) = false →
    Runs (.hrgEnWrite p x true) s (fun u =>
      u.fget HRG_CTRL_EN (2 * p + x) = 1 ∧ u.ready (2 * p + x) = true ∧ u.fget HRG_OUTSTANDING_COUNT (2 * p + x) = 0 ∧
      u.fget HRG_DB_ERRS_COUNT (2 * p + x) = 0 ∧ u.fget HRG_EVT_SEQ_NEXT (2 * p + x) = 0 ∧
      (∀ n r, (u.fn (2 * p + x)).ring? n = some r → r.head = 0 ∧ r.tail = 0 ∧ r.phase = true ∧ r.st = .active) ∧
      (u.fn (2 * p + x)).held = [] ∧ u.out = s.out)) ∧
  (∀ (s : State) (p x : Nat),
    s.fbit HRG_CTRL_EN (2 * p + x) = false →
    s.adminOk (2 * p + x) = false →
    Runs (.hrgEnWrite p x true) s (fun u =>
      Raised u HRG_FEVENT_CFG_ERR (2 * p + x) ∧ (∀ g, (u.fn g).rings = (s.fn g).rings) ∧ RegsOnly s u [HRG_FEVENT_CFG_ERR.key (2 * p + x)])) ∧
  (∀ (s : State) (p x : Nat),
    x < 2 →
    p < 8 →
    s.fbit HRG_CTRL_EN (2 * p + x) = true →
    s.bound p (1 - x) = false →
    Runs (.hrgEnWrite p x false) s (fun u =>
      u.fget HRG_CTRL_EN (2 * p + x) = 0 ∧ u.ready (2 * p + x) = false ∧ u.fget HRG_STATUS_CAUSE (2 * p + x) = 4 ∧
      (∀ n r, (u.fn (2 * p + x)).ring? n = some r → r.st = .disabled) ∧ (∀ g, g ≠ 2 * p + x → u.fn g = s.fn g) ∧ u.out = s.out)) ∧
  (∀ (s : State) (p x : Nat),
    x < 2 →
    p < 8 →
    s.ready (2 * p + x) = true →
    s.bound p (1 - x) = false →
    Runs (.hostFunctionLoss (.flr p x)) s (fun u =>
      u.ready (2 * p + x) = false ∧ u.fget HRG_STATUS_CAUSE (2 * p + x) = 1 ∧ (u.fn (2 * p + x)).gen = (s.fn (2 * p + x)).gen + 1 ∧
      (∀ n r, (u.fn (2 * p + x)).ring? n = some r → r.st = .disabled) ∧ (∀ g, g ≠ 2 * p + x → u.fn g = s.fn g))) ∧
  (∀ (s : State) (x : Nat),
    x = 0 →
    Runs (.hostFunctionLoss (.linkDown x)) s (fun u =>
      u.fget HRG_PORT_A_UP 0 = 0 ∧ u.fget HRG_PORT_A_RATE 0 = 0 ∧ u.fget HRG_PORT_A_WIDTH 0 = 0 ∧ Raised u HRG_EVENT_A_DOWN 0 ∧
      u.fget HRG_PORT_B_UP 0 = s.fget HRG_PORT_B_UP 0)) ∧
  (∀ (s : State) (p x : Nat),
    x < 2 →
    p < 8 →
    s.ready (2 * p + x) = true →
    s.bound p (1 - x) = false →
    Runs (.hostFunctionLoss (.busMaster p x)) s (fun u =>
      u.ready (2 * p + x) = false ∧ u.fget HRG_STATUS_CAUSE (2 * p + x) = 2 ∧ u.fget HRG_CTRL_EN (2 * p + x) = 0 ∧
      (∀ n r, (u.fn (2 * p + x)).ring? n = some r → r.st = .disabled) ∧ (∀ g, g ≠ 2 * p + x → u.fn g = s.fn g))) ∧
  (∀ (s : State) (x : Nat),
    x = 1 →
    Runs (.hostFunctionLoss (.portReset x)) s (fun u =>
      u.fget HRG_PORT_B_UP 0 = 0 ∧ u.fget HRG_PORT_B_RATE 0 = 0 ∧ u.fget HRG_PORT_B_FLIT 0 = 0 ∧ u.fget HRG_PORT_B_VFS 0 = 0 ∧ Raised u HRG_EVENT_B_DOWN 0 ∧
      u.fget HRG_PORT_A_UP 0 = s.fget HRG_PORT_A_UP 0)) ∧
  (∀ (s : State) (x : Nat),
    Runs (.hostFunctionLoss (.flrPf x)) s (fun u =>
      u.regs = s.regs ∧ u.fns = s.fns ∧ u.parts = s.parts ∧ u.out = s.out))

/-- R313, R322, R334, R341, R348: what a link coming up, an AER error, a write of PTN_BIND, the coalescing time and a failed descriptor read do. -/
def Obligations.PortsAndBindings : Prop :=
  (∀ (s : State) (port rate width : Nat) (flit : Bool) (vfs : Nat),
    port = 1 →
    rate < 16 →
    width < 16 →
    vfs < 16 →
    ∀ p, s.bound p 1 = false →
    s.unitState uHost (s.nDies / 2) 0 ≠ usFENCED →
    Runs (.hostLinkUp port rate width flit vfs) s (fun u =>
      u.fget HRG_PORT_B_UP 0 = 1 ∧ u.fget HRG_PORT_B_RATE 0 = rate ∧ u.fget HRG_PORT_B_WIDTH 0 = width ∧ u.fget HRG_PORT_B_FLIT 0 = flit.toNat ∧
      u.fget HRG_PORT_B_VFS 0 = vfs ∧ Raised u HRG_EVENT_B_UP 0 ∧ u.fns = s.fns ∧
      RegsOnly s u [HRG_PORT_B_UP.key 0, HRG_PORT_B_RATE.key 0, HRG_PORT_B_WIDTH.key 0, HRG_PORT_B_FLIT.key 0, HRG_PORT_B_VFS.key 0, HRG_EVENT_B_UP.key 0])) ∧
  (∀ (s : State) (port : Nat),
    port = 0 →
    s.fbit HRG_EVENT_A_AER 0 = false →
    Runs (.aerErrorLogged port) s (fun u =>
      Raised u HRG_EVENT_A_AER 0 ∧ SentBy s u [.pfVector 0, .pfVector 1] ∧ RegsOnly s u [HRG_EVENT_A_AER.key 0])) ∧
  (∀ (s : State) (p v : Nat),
    s.bindBad p 0 (v.testBit 7) (v % 16) = false →
    s.bindBad p 1 (v.testBit 15) (v / 256 % 16) = false →
    Runs (.ptnBindWrite p v) s (fun u =>
      u.fget PTN_BIND_A_EN p = (v.testBit 7).toNat ∧ u.fget PTN_BIND_A_VF p = v % 16 ∧ u.fget PTN_BIND_B_EN p = (v.testBit 15).toNat ∧
      u.fget PTN_BIND_B_VF p = v / 256 % 16 ∧ u.out = s.out ∧
      RegsOnly s u [PTN_BIND_A_EN.key p, PTN_BIND_A_VF.key p, PTN_BIND_B_EN.key p, PTN_BIND_B_VF.key p])) ∧
  (∀ (s : State) (p v : Nat),
    s.bindBad p 0 (v.testBit 7) (v % 16) = true →
    s.fbit PTN_EVENT_BIND_REFUSED p = false →
    Runs (.ptnBindWrite p v) s (fun u =>
      Raised u PTN_EVENT_BIND_REFUSED p ∧ SentBy s u [.pfVector 0, .pfVector 1] ∧ RegsOnly s u [PTN_EVENT_BIND_REFUSED.key p])) ∧
  (∀ (s : State) (p x cq t : Nat) (r : Ring),
    (s.fn (2 * p + x)).active? (cqPage cq) = some r →
    r.since ≠ 0 →
    r.coalTime ≠ 0 →
    r.sinceT + r.coalTime * 1000 ≤ t →
    r.flags.testBit 0 = false →
    (s.fn (2 * p + x)).masked.contains r.link = false →
    Runs (.interruptCoalesceTimeout p x cq t) s (fun u =>
      SentBy s u [.interrupt (2 * p + x) r.link] ∧ (u.fn (2 * p + x)).ring? (cqPage cq) = some { r with since := 0 } ∧
      RegsOnly s u [TIK_HOLD_TIME_HELD.key 0])) ∧
  (∀ (s : State) (p x : Nat) (descs : List Fetched) (fail : Bool) (sq : Nat),
    s.pickSq (2 * p + x) = some (sq, false) →
    fail = true →
    sq ≠ 0 →
    Runs (.descriptorFetch p x descs fail) s (fun u =>
      ((u.fn (2 * p + x)).ring? sq).map (fun r => r.st) = some .stopped ∧ u.parts = s.parts)) ∧
  (∀ (s : State) (p x : Nat) (d : Fetched) (sq : Nat) (r : Ring),
    x < 2 →
    s.pickSq (2 * p + x) = some (sq, false) →
    (s.fn (2 * p + x)).ring? sq = some r →
    knownOp d.op = true →
    Runs (.descriptorFetch p x [d] false) s (fun u =>
      (u.fn (2 * p + x)).ring? sq = some { r with head := (r.head + 1) % r.size } ∧
      ((u.part p).outst.map (fun o => (o.fn, o.sq, o.index, o.op, o.tag))) =
        (s.part p).outst.map (fun o => (o.fn, o.sq, o.index, o.op, o.tag)) ++ [(2 * p + x, sq, r.head, d.op, d.tag)]))

/-- R366, R368, R369, R372, R373: what the descriptors about keys, peers and bindings do. -/
def Obligations.KeysAndPeers : Prop :=
  (∀ (s : State) (q : Desc) (b : KeyBody) (c : Ctx) (x : Nat),
    Open q s →
    Live q s →
    s.ctx? q.part b.ctx = some c →
    s.dieDown c.home = false →
    b.ok = true →
    c.destroying = none →
    (b.entry ≠ 0 → (s.region c.home b.entry).st = .free) →
    (if b.entry ≠ 0 then b.entry else nthFree (s.nrt c.home).takenKeys 1 0) = x →
    x < 2 ^ 21 →
    (b.inbox = true → s.inboxEntries c.home + b.bytes / 2 ^ b.entryLog2 ≤ 8192) →
    (s.begin q 0x50 (b.ctx + b.inbox.toNat * 2 ^ 16 + b.rights * 2 ^ 24 + b.entry * 2 ^ 32)).quotaOk c.home b.ctx (ceilDiv b.bytes 4096) = true →
    ceilDiv b.bytes 4096 ≤ s.freeSegs c.home →
    Runs (.keyRegister q b) s (fun u =>
      Posts s u q 0x50 stOK (keyOfEntry c.home x (s.entryGen c.home x)) (ceilDiv b.bytes 4096) ∧
      (u.region c.home x).st = .valid ∧ (u.region c.home x).ctx = b.ctx ∧ (u.region c.home x).rights = b.rights ∧ (u.region c.home x).bytes = b.bytes ∧
      (u.region c.home x).inbox = b.inbox ∧ (u.region c.home x).data = [] ∧ (u.region c.home x).gen = (s.region c.home x).gen)) ∧
  (∀ (s : State) (q : Desc) (key : Nat) (keep : Bool),
    Open q s →
    Live q s →
    (s.diesOf q.part).contains (keyDie key) = true →
    s.dieDown (keyDie key) = false →
    s.keyValid (keyDie key) key = true →
    (s.nrt (keyDie key)).tx = [] →
    (s.nrt (keyDie key)).armed = [] →
    Runs (.keyRevoke q key keep) s (fun u =>
      Posts s u q 0x51 stOK (keyOfEntry (keyDie key) (keyEntry key) ((s.entryGen (keyDie key) (keyEntry key) + 1) % 256)) (s.clk.tNs % 2 ^ 32) ∧
      u.keyValid (keyDie key) key = false ∧ (u.region (keyDie key) (keyEntry key)).st = if keep then .valid else .dead)) ∧
  (∀ (s : State) (d entry : Nat),
    (s.region d entry).st = .dead →
    Runs (.keyScrubbed d entry) s (fun u =>
      u.region d entry = { Region.init with gen := (s.region d entry).gen } ∧ Raised u NRT_EVENT_KEY_SCRUBBED d ∧ (∀ e, e ≠ entry → u.region d e = s.region d e))) ∧
  (∀ (s : State) (q : Desc) (b : PeerBody),
    Open q s →
    Live q s →
    b.transport = 0 →
    (s.diesOf q.part).contains b.die = true →
    s.dieDown b.die = false →
    b.ok = true →
    (s.nrt b.die).peers.any (fun e => e.1 != b.peer && e.2.v4 == b.ipv4 && e.2.addr == b.addr) = false →
    (s.peer? b.die b.peer).bind (·.qp) = none →
    Runs (.peerSet q b) s (fun u =>
      Posts s u q 0x56 stOK 0 0 ∧ (u.peer? b.die b.peer).map (fun x => (x.roce, x.v4, x.addr, x.paths)) = some (false, b.ipv4, b.addr, b.shape) ∧
      (∀ e, e ≠ b.peer → u.peer? b.die e = s.peer? b.die e))) ∧
  (∀ (s : State) (q : Desc) (key peer : Nat),
    Open q s →
    Live q s →
    ((s.diesOf q.part).filter (fun d => (s.peer? d peer).isSome)).isEmpty = false →
    ((s.diesOf q.part).filter (fun d => (s.peer? d peer).isSome)).all (fun d => thas (s.nrt d).binds key || decide ((s.nrt d).binds.length < 16384)) = true →
    Runs (.remoteKey q key peer false) s (fun u =>
      Posts s u q 0x57 stOK 0 0 ∧ (∀ d, tget (u.nrt d).binds key = if (s.diesOf q.part).contains d && (s.peer? d peer).isSome then some peer else tget (s.nrt d).binds key)))

/-- R375 to R378: counters, waits and armed requests. COUNTER_SET is stated for a value that meets no wait and no armed request; ARM_CANCEL of a counter with requests ends them first, and its own completion is stated for a counter without. -/
def Obligations.CountersAndArmedRequests : Prop :=
  (∀ (s : State) (q : Desc) (d : Nat) (add : Bool) (index value : Nat),
    Open q s →
    Live q s →
    (s.diesOf q.part).contains d = true →
    s.dieDown d = false →
    index < 65536 →
    (s.nrt d).waits.all (fun w => !(w.ctr == index)) = true →
    (s.nrt d).armed.all (fun a => !(a.body.trigIndex == index)) = true →
    Runs (.counterSet q d add index value) s (fun u =>
      Posts s u q 0x52 stOK (s.ctr d index % 2 ^ 32) (s.ctr d index / 2 ^ 32) ∧ u.ctr d index = (if add then s.ctr d index + value else value) % 2 ^ 64 ∧
      (∀ i, i ≠ index → u.ctr d i = s.ctr d i))) ∧
  (∀ (s : State) (q : Desc) (d index thresh timeout : Nat),
    Open q s →
    Live q s →
    (s.diesOf q.part).contains d = true →
    s.dieDown d = false →
    index < 65536 →
    meets (s.ctr d index) thresh = true →
    Runs (.counterWait q d index thresh timeout) s (fun u =>
      Posts s u q 0x53 stOK (s.ctr d index % 2 ^ 32) (s.ctr d index / 2 ^ 32) ∧ u.nrts = s.nrts)) ∧
  (∀ (s : State) (q : Desc) (d index thresh timeout : Nat),
    Open q s →
    Live q s →
    (s.diesOf q.part).contains d = true →
    s.dieDown d = false →
    index < 65536 →
    meets (s.ctr d index) thresh = false →
    (s.nrt d).waits.length < 4096 →
    Runs (.counterWait q d index thresh timeout) s (fun u =>
      (u.nrt d).waits = (s.nrt d).waits ++ [⟨q.fn, q.sq, q.index, index, thresh, if timeout = 0 then 0 else s.tickNo q.part + timeout⟩] ∧ (u.outst? q).isSome = true ∧ u.out = s.out)) ∧
  (∀ (s : State) (d t : Nat),
    Runs (.counterWaitTimeout d t) s (fun u =>
      (u.nrt d).waits = (s.nrt d).waits.filter (fun w => !(w.endTick != 0 && decide (w.endTick ≤ u.tickOf d))) ∧ u.clk.tNs = max s.clk.tNs t ∧
      (u.nrt d).ctrs = (s.nrt d).ctrs)) ∧
  (∀ (s : State) (q : Desc) (b : ArmBody) (i : Nat),
    Open q s →
    Live q s →
    (s.diesOf q.part).contains b.die = true →
    s.dieDown b.die = false →
    s.keyValid b.die b.localKey = true →
    (s.region b.die (keyEntry b.localKey)).inbox = false →
    b.localOff + b.len ≤ (s.region b.die (keyEntry b.localKey)).bytes →
    b.trigIndex < 65536 →
    1 ≤ b.len →
    b.len ≤ 2 ^ 24 →
    tget (s.nrt b.die).binds b.remoteKey = some i →
    (s.peer? b.die i).isSome = true →
    s.nrtReady b.die = true →
    meets (s.ctr b.die b.trigIndex) b.trigValue = false →
    (s.nrt b.die).armed.length < 1024 →
    Runs (.arm q b) s (fun u =>
      (u.nrt b.die).armed = (s.nrt b.die).armed ++ [⟨q.fn, q.sq, q.index, b⟩] ∧ (u.outst? q).isSome = true ∧ u.out = s.out)) ∧
  (∀ (s : State) (q : Desc) (d index : Nat),
    Open q s →
    Live q s →
    (s.diesOf q.part).contains d = true →
    s.dieDown d = false →
    index < 65536 →
    Runs (.armCancel q d index) s (fun u =>
      (u.nrt d).armed = (s.nrt d).armed.filter (fun a => a.body.trigIndex != index) ∧
      ((s.nrt d).armed.all (fun a => a.body.trigIndex != index) = true → Posts s u q 0x55 stOK 0 0)))

/-- R351, R356 to R361, R367, R383, R384, R386: packets received by a READY port whose policers are not set, for keys that admit them. -/
def Obligations.ReceivedPackets : Prop :=
  (∀ (s : State) (d : Nat) (h : NrtHdr) (p : List Byte) (v4 : Bool) (addr dscp : Nat) (ce : Bool) (t : Nat),
    s.nrtReady d = true →
    (s.nrt d).answered? h.src h.msg = none →
    (s.lnk d).policers = [] →
    s.keyAdmits d h false = true →
    (s.region d (keyEntry h.key)).inbox = false →
    h.typ = 1 →
    h.fence = false →
    h.off = 0 →
    h.total ≤ 2 ^ h.segLog2 →
    h.ok p.length true = true →
    (s.nrt d).rx = [] →
    (s.nrt d).inject = false →
    Runs (.nrtDataPacketRx d h p v4 addr dscp ce true .good t) s (fun u =>
      u.region d (keyEntry h.key) = (s.region d (keyEntry h.key)).write h.addr p ∧ ((u.nrt d).answered? h.src h.msg).map (fun a => a.status) = some stOK ∧
      (u.nrt d).rx = [] ∧ u.fget NRT_RX_PKTS_COUNT d = min (s.fget NRT_RX_PKTS_COUNT d + 1) (2 ^ (NRT_RX_PKTS_COUNT).w - 1) ∧ u.fget NRT_RX_MSGS_COUNT d = min (s.fget NRT_RX_MSGS_COUNT d + 1) (2 ^ (NRT_RX_MSGS_COUNT).w - 1))) ∧
  (∀ (s : State) (d : Nat) (h : NrtHdr) (v4 : Bool) (addr dscp t : Nat),
    s.nrtReady d = true →
    (s.nrt d).answered? h.src h.msg = none →
    (s.lnk d).policers = [] →
    s.keyAdmits d h false = true →
    (s.region d (keyEntry h.key)).inbox = false →
    h.typ = 3 →
    h.ok 0 true = true →
    s.serving d < 256 →
    Runs (.readReqRx d h v4 addr dscp true .good t) s (fun u =>
      (∃ v, v ∈ (u.nrt d).serves ∧ v.src = h.src ∧ v.msg = h.msg ∧ v.hdr = h) ∧ (u.nrt d).keys = (s.nrt d).keys ∧ u.fget NRT_RX_PKTS_COUNT d = min (s.fget NRT_RX_PKTS_COUNT d + 1) (2 ^ (NRT_RX_PKTS_COUNT).w - 1))) ∧
  (∀ (s : State) (d : Nat) (h : NrtHdr) (p : List Byte) (v4 : Bool) (addr dscp t e off : Nat) (x : Tx),
    s.nrtReady d = true →
    (s.nrt d).tx.find? (fun t => t.hdr.typ == 3 && t.msg == h.msg && t.hdr.src == h.src) = some x →
    x.from_ = some (e, off) →
    h.typ = 4 →
    h.ok p.length true = true →
    h.total = x.hdr.total →
    h.segLog2 = x.hdr.segLog2 →
    (s.nrt d).rx = [] →
    (s.nrt d).inject = false →
    Runs (.readRespRx d h p v4 addr dscp true .good t) s (fun u =>
      u.region d e = (s.region d e).write (off + h.off) p ∧ u.fget NRT_RX_PKTS_COUNT d = min (s.fget NRT_RX_PKTS_COUNT d + 1) (2 ^ (NRT_RX_PKTS_COUNT).w - 1))) ∧
  (∀ (s : State) (d : Nat) (h : NrtHdr) (t : Nat) (x : Tx),
    s.nrtReady d = true →
    s.txOf d h = some x →
    x.hdr.typ ≠ 3 →
    (match x.use with | .none_ | .status | .output _ _ => true | _ => false) = true →
    Runs (.ackRx d h true .good t) s (fun u =>
      (u.nrt d).tx.all (fun y => y.msg != x.msg) = true ∧ u.fget NRT_RX_PKTS_COUNT d = min (s.fget NRT_RX_PKTS_COUNT d + 1) (2 ^ (NRT_RX_PKTS_COUNT).w - 1))) ∧
  (∀ (s : State) (d : Nat) (h : NrtHdr) (t : Nat) (x : Tx),
    s.nrtReady d = true →
    s.txOf d h = some x →
    (match x.use with | .none_ | .status | .output _ _ => true | _ => false) = true →
    Runs (.nakRx d h true .good t) s (fun u =>
      (u.nrt d).tx.all (fun y => y.msg != x.msg) = true ∧ u.fget NRT_RX_PKTS_COUNT d = min (s.fget NRT_RX_PKTS_COUNT d + 1) (2 ^ (NRT_RX_PKTS_COUNT).w - 1))) ∧
  (∀ (s : State) (d : Nat) (h : NrtHdr) (ranges : List (Nat × Nat)) (t : Nat),
    s.nrtReady d = true →
    1 ≤ ranges.length →
    ranges.length ≤ 16 →
    Runs (.snackRx d h ranges true .good t) s (fun u =>
      u.fget NRT_SNACKS_RX_COUNT d = min (s.fget NRT_SNACKS_RX_COUNT d + 1) (2 ^ (NRT_SNACKS_RX_COUNT).w - 1) ∧ u.fget NRT_RX_PKTS_COUNT d = min (s.fget NRT_RX_PKTS_COUNT d + 1) (2 ^ (NRT_RX_PKTS_COUNT).w - 1) ∧ (u.nrt d).keys = (s.nrt d).keys)) ∧
  (∀ (s : State) (d : Nat) (h : RoceHdr) (b : List Byte) (v4 : Bool) (dscp t i : Nat) (p : Peer) (x : Qp),
    s.nrtReady d = true →
    s.fbit NRT_CTRL_ROCE_EN d = true →
    s.qpPeer d h.qpn = some (i, p, x) →
    s.peer? d i = some p →
    x.err = false →
    (s.lnk d).policers = [] →
    h.op = .wOnly →
    h.psn = x.recvPsn →
    x.cur = none →
    h.len = b.length →
    s.keyAdmits d (roceForm p x h 1 0) true = true →
    (s.region d (keyEntry h.rkey)).inbox = false →
    Runs (.rocePacketRx d h b v4 dscp false true t) s (fun u =>
      u.region d (keyEntry h.rkey) = (s.region d (keyEntry h.rkey)).write h.va b ∧ u.fget NRT_RX_MSGS_COUNT d = min (s.fget NRT_RX_MSGS_COUNT d + 1) (2 ^ (NRT_RX_MSGS_COUNT).w - 1) ∧
      (((u.peer? d i).bind (·.qp)).map (fun y => y.recvPsn)) = some ((x.recvPsn + 1) % 2 ^ 24))) ∧
  (∀ (s : State) (d : Nat) (via : Via),
    MayWrite via (NRT_CTRL_INJECT.at_ d) s →
    s.shadowed d = false →
    Runs (.nrtInject d via) s (fun u =>
      (u.nrt d).inject = true ∧ u.regs = s.regs ∧ u.out = s.out ∧ (u.nrt d).keys = (s.nrt d).keys))

/-- R360, R362, R363, R364, R374, R385: the timers of NRT. That the RETRY-th timeout in a row ends the message is a reading of R364 (log entry 21). -/
def Obligations.MessageTimers : Prop :=
  (∀ (s : State) (d src msg : Nat) (read : Bool) (t : Nat) (x : Rx),
    (s.nrt d).rx.find? (fun x => (x.hdr.typ == 4) == read && x.hdr.src == src && x.hdr.msg == msg) = some x →
    x.cover = [] →
    x.arrivals = [] →
    x.held = none →
    x.snackT = 0 →
    x.cls = 7 →
    1 ≤ x.hdr.total →
    x.pathTmo * 500 ≤ max s.clk.tNs t →
    Runs (.pathTmoExpiry d src msg read t) s (fun u =>
      u.fget NRT_SNACKS_TX_COUNT d = min (s.fget NRT_SNACKS_TX_COUNT d + 1) (2 ^ (NRT_SNACKS_TX_COUNT).w - 1) ∧ u.clk.tNs = max s.clk.tNs t ∧ (u.nrt d).keys = (s.nrt d).keys)) ∧
  (∀ (s : State) (d id t : Nat) (x : Tx),
    (s.nrt d).tx.find? (fun x => x.msg == id) = some x →
    x.use = .none_ ∨ x.use = .status →
    s.fbit LNK_SHUT_CTRL_EN d = false →
    x.lastT + x.ackTmo ≤ max s.clk.tNs t →
    x.retry ≤ x.tmo + 1 →
    Runs (.ackTmoExpiry d false id t) s (fun u =>
      u.fget NRT_UNREACH_COUNT d = min (s.fget NRT_UNREACH_COUNT d + 1) (2 ^ (NRT_UNREACH_COUNT).w - 1) ∧ Raised u NRT_EVENT_UNREACH d ∧ (u.nrt d).tx.all (fun y => y.msg != id) = true)) ∧
  (∀ (s : State) (d src msg t t0 : Nat) (b : List Byte) (x : Rx),
    (s.nrt d).rx = [x] →
    x.isOf src msg = true →
    x.held = some (b, t0) →
    t0 + x.holdTmo * 1000 ≤ max s.clk.tNs t →
    (s.nrt d).answered? src msg = none →
    Runs (.holdTmoExpiry d src msg t) s (fun u =>
      ((u.nrt d).answered? src msg).map (fun a => a.status) = some stNOT_READY ∧ (u.nrt d).rx = [])) ∧
  (∀ (s : State) (d t : Nat),
    Runs (.lingerExpiry d t) s (fun u =>
      (u.nrt d).filter = (s.nrt d).filter.filter (fun a => decide (max s.clk.tNs t < a.t + a.linger * 1000)) ∧
      (u.nrt d).serves = (s.nrt d).serves.filter (fun v => decide (max s.clk.tNs t < v.t + s.fget NRT_TMO2_LINGER d * 1000)) ∧
      (u.nrt d).rx = (s.nrt d).rx ∧ u.out = s.out ∧ RegsOnly s u [TIK_HOLD_TIME_HELD.key 0])) ∧
  (∀ (s : State) (d peer t : Nat) (p : Peer),
    s.peer? d peer = some p →
    p.calmT + 20000 ≤ max s.clk.tNs t →
    Runs (.rateStepTimer d peer t) s (fun u =>
      (u.peer? d peer).map (fun x => (x.rate, x.calmT)) = some (min (s.fget NRT_RATE_MAX d * 1000000) (p.rate + s.fget NRT_RATE_STEP d * 1000000), max s.clk.tNs t) ∧
      RegsOnly s u [TIK_HOLD_TIME_HELD.key 0] ∧ u.out = s.out)) ∧
  (∀ (s : State) (d peer path t t0 : Nat) (p : Peer),
    s.peer? d peer = some p →
    tget p.down path = some t0 →
    t0 + 1000000 ≤ max s.clk.tNs t →
    Runs (.pathUp d peer path t) s (fun u =>
      (u.peer? d peer).map (fun x => tget x.down path) = some none ∧ (∀ e, e ≠ peer → u.peer? d e = s.peer? d e)))

/-- R388 to R393, R397: frames sent and received, MKA, and the rekey. The premise on `pickClass` says that the transmission selection of R397 gives this frame. -/
def Obligations.FramesAndMacsec : Prop :=
  (∀ (s : State) (d : Nat) (t c : Nat) (f g : QFrame),
    (s.lnk d).busy ≤ max s.clk.tNs t * 200 →
    (((s.advanceTo t).accrueAll d).pickClass d 8).1 = some (c, f) →
    ((((s.advanceTo t).accrueAll d).pickClass d 8).2.readyFrame d f).1 = some g →
    Runs (.frameTransmit d t) s (fun u =>
      (∃ octets, Emits s u (.frame d c g.dscp (if s.macsec d && (match g.pkt with | .mka _ => false | _ => true) then some ((s.lnk d).txAn, (s.lnk d).txPn) else none) g.addr g.pkt octets)) ∧
      u.clk.tNs = max s.clk.tNs t)) ∧
  (∀ (s : State) (d : Nat) (sec : Option (Nat × Nat)) (icvOk : Bool) (h : NrtHdr) (v4 : Bool) (addr dscp : Nat) (ce : Bool) (t : Nat) (x : Tx),
    s.fbit LNK_STATUS_UP d = true →
    s.unitOn uFabric d 0 = true →
    s.nrtReady d = true →
    (s.secCheck d .nrt sec icvOk).1 = true →
    h.typ = 8 →
    s.txOf d h = some x →
    x.hdr.typ ≠ 3 →
    x.use = .none_ ∨ x.use = .status →
    Runs (.frameRx d .nrt sec icvOk (.nrt h []) v4 addr dscp ce true .good t) s (fun u =>
      (u.nrt d).tx.all (fun y => y.msg != x.msg) = true ∧ u.fget NRT_RX_PKTS_COUNT d = min (s.fget NRT_RX_PKTS_COUNT d + 1) (2 ^ (NRT_RX_PKTS_COUNT).w - 1))) ∧
  (∀ (s : State) (d : Nat) (mi prio : Nat) (first leave wantSak sak : Bool) (t : Nat),
    s.fbit LNK_STATUS_UP d = true →
    s.unitOn uFabric d 0 = true →
    (s.lnk d).cak.isSome = true →
    Runs (.mkaFrameRx d mi prio first leave wantSak sak true t) s (fun u =>
      (u.lnk d).mkaPeers = (if leave then (s.lnk d).mkaPeers.filter (· != mi) else if (s.lnk d).mkaPeers.contains mi then (s.lnk d).mkaPeers else (s.lnk d).mkaPeers ++ [mi]) ∧
      (u.lnk d).mkaServers = (s.lnk d).mkaServers.filter (· != mi) ++ (if (!leave && (decide (prio < (s.lnk d).ksPrio) || (prio == (s.lnk d).ksPrio && first))) = true then [mi] else []) ∧
      u.clk.tNs = max s.clk.tNs t)) ∧
  (∀ (s : State) (d : Nat) (an : Nat),
    (s.lnk d).rekey = some an →
    Runs (.sakInstalled d) s (fun u =>
      (u.lnk d).rekey = none ∧ (u.lnk d).txAn = an ∧ (u.lnk d).txSa = true ∧ (u.lnk d).txPn = 1 ∧ (u.lnk d).txSak = (s.lnk d).sakNo ∧
      u.fget LNK_STATUS_TX_AN d = an % 4 ∧ u.fget LNK_STATUS_PN_STOP d = 0)) ∧
  (∀ (s : State) (d : Nat) (t : Nat),
    s.mkaReady d = true →
    (s.lnk d).mkaServers = [] →
    (s.lnk d).rekeyS ≠ 0 →
    (s.lnk d).txSa = true →
    (s.lnk d).sakT + (s.lnk d).rekeyS * secNs ≤ max s.clk.tNs t →
    Runs (.rekeyTimer d t) s (fun u =>
      (u.lnk d).rekey = some (((s.lnk d).txAn + 1) % 4) ∧ u.fget LNK_REKEYS_COUNT d = min (s.fget LNK_REKEYS_COUNT d + 1) (2 ^ (LNK_REKEYS_COUNT).w - 1) ∧ Raised u LNK_EVENT_REKEY d ∧ (u.lnk d).sakT = max s.clk.tNs t)) ∧
  (∀ (s : State) (d : Nat) (via : Via),
    MayWrite via (LNK_CTRL_REKEY_NOW.at_ d) s →
    s.shadowed d = false →
    s.mkaReady d = true →
    (s.lnk d).mkaServers = [] →
    Runs (.rekeyNow d via) s (fun u =>
      (u.lnk d).rekey = some (((s.lnk d).txAn + 1) % 4) ∧ u.fget LNK_REKEYS_COUNT d = min (s.fget LNK_REKEYS_COUNT d + 1) (2 ^ (LNK_REKEYS_COUNT).w - 1) ∧ Raised u LNK_EVENT_REKEY d ∧ (u.lnk d).rekeyS = s.fget LNK_MKA_REKEY_S d)) ∧
  (∀ (s : State) (d : Nat) (sa : Bool),
    Runs (.securedLost d sa) s (fun u =>
      (if sa then (u.lnk d).txSa = false ∧ (u.lnk d).rxSas = [] else (u.lnk d).mkaPeers = [] ∧ (u.lnk d).mkaServers = []) ∧ (u.lnk d).rekey = none ∧ u.fget LNK_STATUS_SECURED d = (u.securedNow d).toNat)) ∧
  (∀ (s : State) (d : Nat) (via : Via),
    MayRead via (LNK_TXPN_LO_PN_LO.at_ d) s →
    s.shadowed d = false →
    Runs (.lnkTxpnLoRead d via) s (fun u =>
      SentBy s u [.regValue (LNK_TXPN_LO_PN_LO.at_ d) (BitVec.ofNat 32 (s.lnk d).txPn)] ∧ u.fget LNK_TXPN_HI_PN_HI d = (s.lnk d).txPn / 2 ^ 32 % 2 ^ 32 ∧ RegsOnly s u [LNK_TXPN_LO_PN_LO.key d, LNK_TXPN_HI_PN_HI.key d]))

/-- R388, R402, R406, R408 to R410: link, shutter and policers. -/
def Obligations.LinkShutterAndPolicers : Prop :=
  (∀ (s : State) (d : Nat) (via : Via),
    MayWrite via (LNK_CTRL_EN.at_ d) s →
    s.fbit LNK_STATUS_UP d = true →
    s.shadowed d = false →
    Runs (.lnkEnWrite d false via) s (fun u =>
      u.fget LNK_CTRL_EN d = 0 ∧ u.fget LNK_STATUS_UP d = 0 ∧ u.fget LNK_STATUS_LANES d = 0)) ∧
  (∀ (s : State) (d : Nat) (via : Via),
    MayWrite via (LNK_CTRL_EN.at_ d) s →
    Runs (.lnkEnWrite d true via) s (fun u =>
      u.fget LNK_CTRL_EN d = 1 ∧ u.lnks = s.lnks ∧ RegsOnly s u [LNK_CTRL_EN.key d] ∧ u.out = s.out)) ∧
  (∀ (s : State) (d : Nat) (bad : Nat),
    s.fbit LNK_STATUS_UP d = true →
    trainedLanes (lanesLeft (s.lnk d).lanes bad) ≠ s.fget LNK_STATUS_LANES d →
    Runs (.laneFailure d bad) s (fun u =>
      u.fget LNK_STATUS_LANES d = trainedLanes (lanesLeft (s.lnk d).lanes bad) ∧ u.fget LNK_STATUS_UP d = (trainedLanes (lanesLeft (s.lnk d).lanes bad) != 0).toNat)) ∧
  (∀ (s : State) (d : Nat) (good : Nat),
    s.fbit LNK_CTRL_EN d = true →
    trainedLanes good ≠ 0 →
    s.fbit SEC_STATUS_ERROR 0 = false →
    s.unitState uFabric d 0 ≠ usFENCED →
    Runs (.fabricLinkTrained d good) s (fun u =>
      u.fget LNK_STATUS_UP d = 1 ∧ u.fget LNK_STATUS_LANES d = trainedLanes good ∧ (u.lnk d).lanes = good % 256)) ∧
  (∀ (s : State) (d : Nat) (t t0 : Nat) (n : Shutter),
    (s.lnk d).pend = some (n, t0) →
    t0 ≤ max s.clk.tNs t →
    Runs (.shutterGateChange d t) s (fun u =>
      (u.lnk d).shut = n ∧ (u.lnk d).pend = none ∧ u.fget LNK_SHUT_CTRL_PENDING d = 0 ∧ u.fget LNK_SHUT_SWAPS_COUNT d = min (s.fget LNK_SHUT_SWAPS_COUNT d + 1) (2 ^ (LNK_SHUT_SWAPS_COUNT).w - 1) ∧ Raised u LNK_EVENT_SWAPPED d)) ∧
  (∀ (s : State) (d : Nat) (via : Via),
    MayWrite via (LNK_SHUT_CTRL_COMMIT.at_ d) s →
    s.shadowed d = false →
    1000 ≤ s.fget LNK_SHUT_CYCLE_CYCLE d →
    s.fget LNK_SHUT_CYCLE_CYCLE d ≤ 2000000 →
    1 ≤ s.fget LNK_SHUT_LEN_LEN d →
    s.fget LNK_SHUT_LEN_LEN d ≤ 64 →
    sumNat ((s.shutEntries d (s.fget LNK_SHUT_LEN_LEN d)).map (·.2)) = s.fget LNK_SHUT_CYCLE_CYCLE d →
    s.shutBad d (s.fget LNK_SHUT_CYCLE_CYCLE d) = false →
    Runs (.shutterCommit d via) s (fun u =>
      (u.lnk d).pend = some (⟨s.shutEntries d (s.fget LNK_SHUT_LEN_LEN d), s.fget LNK_SHUT_CYCLE_CYCLE d⟩, (s.clk.tNs / s.fget LNK_SHUT_CYCLE_CYCLE d + 1) * s.fget LNK_SHUT_CYCLE_CYCLE d) ∧
      u.fget LNK_SHUT_CTRL_PENDING d = 1 ∧ RegsOnly s u [LNK_SHUT_CTRL_PENDING.key d] ∧ u.out = s.out)) ∧
  (∀ (s : State) (d : Nat) (v : Nat) (via : Via),
    MayWrite via (LNK_POL_KEY_EN.at_ d) s →
    s.shadowed d = false →
    Runs (.policerCommit d v via) s (fun u =>
      if (v.testBit 31 && (s.lnk d).policers.any (fun p => p.1 != s.fget LNK_POL_SEL_POLICER d && p.2.en && p.2.entry == v % 2 ^ 21)) = true then Raised u LNK_EVENT_CFG_ERR d ∧ u.lnks = s.lnks
      else dget (u.lnk d).policers Policer.init (s.fget LNK_POL_SEL_POLICER d) =
          ⟨v.testBit 31, v % 2 ^ 21, s.fget LNK_POL_RATE_RATE d, s.fget LNK_POL_BURST_BURST d, s.fget LNK_POL_BURST_BURST d * 800, s.clk.tNs⟩ ∧
        u.fget LNK_POL_KEY_EN d = (v.testBit 31).toNat ∧ u.fget LNK_POL_KEY_ENTRY d = v % 2 ^ 21)) ∧
  (∀ (s : State) (d : Nat) (via : Via),
    MayWrite via (LNK_CTRL_LAT_CLR.at_ d) s →
    s.shadowed d = false →
    Runs (.latClr d via) s (fun u =>
      (∀ n, n < 8 → u.fget (LNK_QLAT_HWM.nth n) d = 0) ∧ u.lnks = s.lnks ∧ u.out = s.out))

/-- R85, R111, R416, R417, R419, R433, R448, R453: contexts, the attestation and the CAK. -/
def Obligations.ContextsAndKeysOfATenant : Prop :=
  (∀ (s : State) (q : Desc) (ctx home : Nat) (latent : Bool) (model layersM1 h dim w g format tail : Nat),
    Open q s →
    Live q s →
    home ≠ 0xFF →
    (s.diesOf q.part).contains home = true →
    ctx < 4096 →
    layersM1 < 256 →
    1 ≤ h →
    h ≤ 16 →
    dim32 dim 256 = true →
    (if latent = true then dim32 w 1024 = true ∧ 1 ≤ g ∧ g ≤ 16 ∧ g * h ≤ 256 else w = 0 ∧ g = 0) →
    fmtCode (format % 16) = true →
    (if latent = true then format / 16 = 0 else fmtCode (format / 16) = true) →
    tail = 0x88 ∨ tail = 0x99 →
    s.ctx? q.part ctx = none →
    layersM1 ≤ s.fget PFX_TREE_CFG_LMAX_M1 home →
    s.shapeFits q.part home (newCtx home latent model layersM1 h dim w g format tail) = true →
    s.dieDown home = false →
    s.fbit PFX_STATUS_READY home = true →
    Runs (.ctxCreate q ctx home latent model layersM1 h dim w g format tail) s (fun u =>
      Posts s u q 0x10 stOK home 0 ∧ u.ctx? q.part ctx = some (newCtx home latent model layersM1 h dim w g format tail))) ∧
  (∀ (s : State) (q : Desc) (ctx : Nat) (c : Ctx),
    Open q s →
    Live q s →
    s.ctx? q.part ctx = some c →
    c.destroying = none →
    s.dieDown c.home = false →
    s.ctxHolds c.home ctx c = true →
    Runs (.ctxDestroy q ctx false) s (fun u =>
      Posts s u q 0x11 stNOT_READY 0 0 ∧ u.ctx? q.part ctx = some c)) ∧
  (∀ (s : State) (q : Desc) (ctx : Nat) (force : Bool) (c : Ctx),
    Open q s →
    Live q s →
    s.ctx? q.part ctx = some c →
    c.destroying = none →
    s.dieDown c.home = false →
    s.ctxHolds c.home ctx c = false →
    (s.csm c.home).sweeps.any (fun w => w.part == q.part && w.ctx == ctx) = false →
    Runs (.ctxDestroy q ctx force) s (fun u =>
      Posts s u q 0x11 stOK 0 0 ∧ u.ctx? q.part ctx = none ∧ u.fget (SEC_SCRUBS_COUNT.nth c.home) 0 = min (s.fget (SEC_SCRUBS_COUNT.nth c.home) 0 + 1) (2 ^ ((SEC_SCRUBS_COUNT.nth c.home)).w - 1))) ∧
  (∀ (s : State) (q : Desc) (dest room : Nat) (certs : Bool) (nonce : List Byte),
    Open q s →
    Live q s →
    Runs (.attest q dest room certs nonce) s (fun u =>
      Posts s u q 0x12 (if room < 1664 + 80 * (s.part q.part).ctxs.length + (if certs = true then 9602 else 0) then stMALFORMED else stOK) (1664 + 80 * (s.part q.part).ctxs.length + (if certs = true then 9602 else 0)) 0)) ∧
  (∀ (s : State) (q : Desc) (die ckn bytes : Nat) (obj : CakObj),
    Open q s →
    Live q s →
    (s.diesOf q.part).contains die = true →
    obj.sizesOk = true →
    (bytes = if obj.plain = true then 64 else 2952) →
    1 ≤ ckn →
    ckn ≤ 32 →
    s.dieDown die = false →
    (if obj.plain = true then s.fbit SEC_STATUS_APPROVED 0 = false else obj.serialOk = true ∧ dget s.sec.cakCtr 0 die < obj.counter ∧ obj.sigOk = true ∧ obj.unwraps = true) →
    Runs (.cakSet q die ckn bytes obj) s (fun u =>
      Posts s u q 0x13 stOK 0 0 ∧ (u.lnk die).cak.isSome = true ∧ (u.lnk die).mkaPeers = [] ∧ (u.lnk die).txSa = false ∧ u.fget LNK_STATUS_SECURED die = 0 ∧
      u.sec.cakCtr = if obj.plain = true then s.sec.cakCtr else dset s.sec.cakCtr 0 die obj.counter))

/-- R433, R445, R455: the signed commands of the mailbox on a part with an owner. -/
def Obligations.MailboxFirmwareAndMode : Prop :=
  (∀ (s : State) (port : Nat) (obj : MboxObj) (img : FwImage),
    port < 2 →
    s.fbit SEC_MBOX_STATUS_BUSY 0 = false →
    obj.readable = true →
    obj.wellFormed = true →
    obj.serialOk = true →
    s.sec.ownerCtr < obj.counter →
    obj.sigOk = true →
    s.fget SEC_FUSE_OWNER 0 ≠ 0 →
    Runs (.fwStage port obj img) s (fun u =>
      u.fget SEC_MBOX_STATUS_STATUS 0 = (if s.slotAuth img = true then (if s.slotOk img = true then stOK else stMALFORMED) else stACCESS) ∧ u.fget SEC_MBOX_STATUS_DONE 0 = 1 ∧ u.fget SEC_MBOX_STATUS_BUSY 0 = 0 ∧ Raised u SEC_EVENT_MBOX_DONE 0 ∧ u.sec.ownerCtr = obj.counter ∧ tget u.sec.slots (1 - s.fget SEC_STATUS_BOOT_SLOT 0) = some img)) ∧
  (∀ (s : State) (port : Nat) (obj : MboxObj) (slot : Nat) (img : FwImage),
    port < 2 →
    s.fbit SEC_MBOX_STATUS_BUSY 0 = false →
    obj.readable = true →
    obj.wellFormed = true →
    obj.serialOk = true →
    s.sec.ownerCtr < obj.counter →
    obj.sigOk = true →
    s.fget SEC_FUSE_OWNER 0 ≠ 0 →
    slot < 2 →
    tget s.sec.slots slot = some img →
    Runs (.fwSelect port obj slot) s (fun u =>
      u.fget SEC_MBOX_STATUS_STATUS 0 = (if s.slotOk img = true then stOK else stNOT_READY) ∧ u.fget SEC_MBOX_STATUS_DONE 0 = 1 ∧ u.fget SEC_MBOX_STATUS_BUSY 0 = 0 ∧ Raised u SEC_EVENT_MBOX_DONE 0 ∧ u.sec.ownerCtr = obj.counter ∧ u.sec.fwSel = if s.slotOk img = true then slot else s.sec.fwSel)) ∧
  (∀ (s : State) (port : Nat) (obj : MboxObj),
    port < 2 →
    s.fbit SEC_MBOX_STATUS_BUSY 0 = false →
    obj.readable = true →
    obj.wellFormed = true →
    obj.serialOk = true →
    s.sec.ownerCtr < obj.counter →
    obj.sigOk = true →
    s.fget SEC_FUSE_OWNER 0 ≠ 0 →
    Runs (.svnCommit port obj) s (fun u =>
      u.fget SEC_MBOX_STATUS_STATUS 0 = stOK ∧ u.fget SEC_MBOX_STATUS_DONE 0 = 1 ∧ u.fget SEC_MBOX_STATUS_BUSY 0 = 0 ∧ Raised u SEC_EVENT_MBOX_DONE 0 ∧ u.sec.ownerCtr = obj.counter ∧ u.fget SEC_SVN_SVN_MIN 0 = max (s.fget SEC_SVN_SVN_MIN 0) (s.fget SEC_SVN_SVN_RUN 0))) ∧
  (∀ (s : State) (port : Nat) (obj : MboxObj) (mode : Nat),
    port < 2 →
    s.fbit SEC_MBOX_STATUS_BUSY 0 = false →
    obj.readable = true →
    obj.wellFormed = true →
    obj.serialOk = true →
    s.sec.ownerCtr < obj.counter →
    obj.sigOk = true →
    s.fget SEC_FUSE_OWNER 0 ≠ 0 →
    mode < 2 →
    Runs (.approvedSet port obj mode) s (fun u =>
      u.fget SEC_MBOX_STATUS_STATUS 0 = stOK ∧ u.fget SEC_MBOX_STATUS_DONE 0 = 1 ∧ u.fget SEC_MBOX_STATUS_BUSY 0 = 0 ∧ Raised u SEC_EVENT_MBOX_DONE 0 ∧ u.sec.ownerCtr = obj.counter ∧ u.sec.mode = (mode == 1) ∧ u.fget SEC_STATUS_MODE_PENDING 0 = (mode != s.fget SEC_STATUS_APPROVED 0).toNat)) ∧
  (∀ (s : State) (port : Nat) (obj : MboxObj) (p : Nat) (key : List Byte),
    port < 2 →
    s.fbit SEC_MBOX_STATUS_BUSY 0 = false →
    obj.readable = true →
    obj.wellFormed = true →
    obj.serialOk = true →
    s.sec.ownerCtr < obj.counter →
    obj.sigOk = true →
    s.fget SEC_FUSE_OWNER 0 ≠ 0 →
    p < 8 →
    key = [] ∨ key.length = 1793 →
    s.sealed p = false →
    Runs (.tenantKey port obj p key) s (fun u =>
      u.fget SEC_MBOX_STATUS_STATUS 0 = stOK ∧ u.fget SEC_MBOX_STATUS_DONE 0 = 1 ∧ u.fget SEC_MBOX_STATUS_BUSY 0 = 0 ∧ Raised u SEC_EVENT_MBOX_DONE 0 ∧ u.sec.ownerCtr = obj.counter ∧ (∀ n, tget u.sec.tenants n = if n = p then (if key = [] then none else some key) else tget s.sec.tenants n)))

/-- R439, R440, R454 to R458: fuses, zeroize, and ERROR. When ZEROIZE ends is log entry 45. -/
def Obligations.OwnerDebugAndZeroize : Prop :=
  (∀ (s : State) (port : Nat) (obj : MboxObj) (key : List Byte),
    port < 2 →
    s.fbit SEC_MBOX_STATUS_BUSY 0 = false →
    obj.readable = true →
    obj.wellFormed = true →
    obj.serialOk = true →
    s.sec.ownerCtr < obj.counter →
    obj.sigOk = true →
    key.length = 1793 →
    (s.fget SEC_FUSE_OWNER 0).testBit 1 = false →
    Runs (.ownerProvision port obj key) s (fun u =>
      u.fget SEC_MBOX_STATUS_STATUS 0 = stOK ∧ u.fget SEC_MBOX_STATUS_DONE 0 = 1 ∧ u.fget SEC_MBOX_STATUS_BUSY 0 = 0 ∧ Raised u SEC_EVENT_MBOX_DONE 0 ∧ u.sec.ownerCtr = obj.counter ∧ u.fget SEC_FUSE_OWNER 0 = (if s.fget SEC_FUSE_OWNER 0 = 0 then 1 else 3) ∧ u.fget SEC_STATUS_OWNER_SET 0 = 1)) ∧
  (∀ (s : State) (port : Nat) (obj : MboxObj),
    port < 2 →
    s.fbit SEC_MBOX_STATUS_BUSY 0 = false →
    obj.readable = true →
    obj.wellFormed = true →
    obj.serialOk = true →
    s.sec.ownerCtr < obj.counter →
    obj.sigOk = true →
    s.fget SEC_FUSE_OWNER 0 ≠ 0 →
    Runs (.debugSeal port obj) s (fun u =>
      u.fget SEC_MBOX_STATUS_STATUS 0 = stOK ∧ u.fget SEC_MBOX_STATUS_DONE 0 = 1 ∧ u.fget SEC_MBOX_STATUS_BUSY 0 = 0 ∧ Raised u SEC_EVENT_MBOX_DONE 0 ∧ u.sec.ownerCtr = obj.counter ∧ u.fget SEC_FUSE_DEBUG_SEAL 0 = 1 ∧ u.fget SEC_STATUS_DEBUG_SEALED 0 = 1)) ∧
  (∀ (s : State) (port : Nat) (obj : MboxObj),
    port < 2 →
    s.fbit SEC_MBOX_STATUS_BUSY 0 = false →
    obj.readable = true →
    obj.wellFormed = true →
    obj.serialOk = true →
    s.sec.ownerCtr < obj.counter →
    obj.sigOk = true →
    s.fget SEC_FUSE_OWNER 0 ≠ 0 →
    (List.range 8).all (fun p => s.ptnState p == ptnFree) = true →
    Runs (.zeroize port obj) s (fun u =>
      u.sec.tenants = [] ∧ (∀ p, p < 256 → tget u.sec.keys p = none) ∧ u.sec.ownerCtr = obj.counter ∧
      (if u.sec.zeroBands = [] then u.fget SEC_MBOX_STATUS_STATUS 0 = stOK ∧ u.fget SEC_MBOX_STATUS_DONE 0 = 1 ∧ u.fget SEC_MBOX_STATUS_BUSY 0 = 0 ∧ Raised u SEC_EVENT_ZEROIZED 0
       else u.fget SEC_MBOX_STATUS_DONE 0 = 0 ∧ u.fget SEC_MBOX_STATUS_BUSY 0 = 1))) ∧
  (∀ (s : State) (via : Via) (code : Nat),
    MayWrite via (SEC_CTRL_SELFTEST_NOW.at_ 0) s →
    Runs (.selftestNow via code) s (fun u =>
      (∃ tick key, u.svc.log.getLast? = some (tick, key, code)) ∧ u.fget SVC_STATUS_LAST_CODE 0 = code % 2 ^ SVC_STATUS_LAST_CODE.w ∧ u.fget SEC_STATUS_ERROR 0 = (if code = 0 then s.fget SEC_STATUS_ERROR 0 else 1) ∧
      (code ≠ 0 → Raised u SEC_EVENT_SELFTEST_FAIL 0))) ∧
  (∀ (s : State),
    Runs (.entropyHealthFail) s (fun u =>
      u.fget SEC_STATUS_ERROR 0 = 1 ∧ u.fget SEC_SELFTEST_FAIL_CODE 0 = (if s.fget SEC_SELFTEST_FAIL_CODE 0 = 0 then 0x52 else s.fget SEC_SELFTEST_FAIL_CODE 0) ∧ Raised u SEC_EVENT_SELFTEST_FAIL 0 ∧
      (∀ d, d < s.nDies → (u.ftl d).hold = .error ∧ u.fget LNK_STATUS_UP d = 0)))

/-- R291, R292, R314, R420, R423, R424, R427, R455, R480, R517: the life of a partition. That steps 1 and 2 end at once without a generator is log entry 44. -/
def Obligations.PartitionsAreAssignedSealedAndRemoved : Prop :=
  (∀ (s : State) (p v : Nat),
    s.locked p = false →
    p < 8 →
    Runs (.ptnDiesWrite p v) s (fun u =>
      if (bitsOf 8 v).any (fun d => decide (s.nDies ≤ d) || (match s.owner d with | some o => o != p | none => false)) = true then
        Raised u PTN_EVENT_CONFLICT p ∧ u.fget PTN_DIES_DIES p = s.fget PTN_DIES_DIES p ∧ u.ptnState p = s.ptnState p
      else u.fget PTN_DIES_DIES p = v % 256 ∧ u.ptnState p = (if bitsOf 8 v = [] then ptnFree else ptnOpen))) ∧
  (∀ (s : State) (p : Nat),
    p < 8 →
    s.locked p = false →
    (s.part p).sealing = false →
    s.fbit SVC_STATUS_MODE 0 = false →
    s.diesOf p ≠ [] →
    (s.diesOf p).all (fun d => s.fget DPM_STATUS_STATE d == 0 && !s.dieDown d && s.fbit FTL_STATUS_READY d) = true →
    (s.fbit SEC_STATUS_APPROVED 0 = true → (tget s.sec.tenants p).isSome = true) →
    (s.diesOf p).flatMap (fun d => s.liveKeys d p) = [] →
    (s.genPending p (match tget s.sec.lastDead p with | some g => nextGen g | none => 1) = false) →
    Runs (.seal p) s (fun u =>
      (u.part p).sealing = true ∧ u.fget PTN_CTRL_SEAL p = 1 ∧ (tget u.sec.keys p).isSome = true ∧ tget u.sec.gens p = some (match tget s.sec.lastDead p with | some g => nextGen g | none => 1))) ∧
  (∀ (s : State) (p : Nat),
    p < 8 →
    s.locked p = false →
    (s.part p).sealing = false →
    s.fbit SVC_STATUS_MODE 0 = true →
    Runs (.seal p) s (fun u =>
      Raised u PTN_EVENT_CONFLICT p ∧ (u.part p).sealing = false ∧ u.ptnState p = s.ptnState p)) ∧
  (∀ (s : State) (p t : Nat),
    p < 8 →
    s.ptnState p ≠ ptnFree →
    s.ptnState p ≠ ptnRemoving →
    (s.part p).genOn = false →
    Runs (.partitionReset p t) s (fun u =>
      u.ptnState p = ptnOpen ∧ u.fget PTN_CTRL_SEAL p = 0 ∧ u.fget TIK_PERIOD_EN p = 0 ∧ u.fget PTN_BIND_A_EN p = 0 ∧ u.fget PTN_BIND_B_EN p = 0 ∧ (u.part p).genOn = false ∧ (u.part p).sealing = false ∧ u.clk.tNs = max s.clk.tNs t)) ∧
  (∀ (s : State) (q : Desc) (dest t : Nat),
    Open q s →
    Live q s →
    Runs (.tenantRemove q dest t) s (fun u =>
      u.ptnState q.part = ptnRemoving ∧ (∃ r, tget u.sec.rms q.part = some r ∧ r.st = .removing ∧ r.desc = some (q.fn, q.sq, q.index) ∧ r.operator = false ∧ r.dest = dest ∧ r.accepted = max s.clk.tNs t))) ∧
  (∀ (s : State) (port : Nat) (obj : MboxObj) (p dest t : Nat),
    port < 2 →
    s.fbit SEC_MBOX_STATUS_BUSY 0 = false →
    obj.readable = true →
    obj.wellFormed = true →
    obj.serialOk = true →
    s.sec.ownerCtr < obj.counter →
    obj.sigOk = true →
    s.fget SEC_FUSE_OWNER 0 ≠ 0 →
    p < 8 →
    s.ptnState p ≠ ptnFree →
    s.ptnState p ≠ ptnRemoving →
    Runs (.remove port obj p dest t) s (fun u =>
      u.fget SEC_MBOX_STATUS_STATUS 0 = stOK ∧ u.fget SEC_MBOX_STATUS_DONE 0 = 1 ∧ u.fget SEC_MBOX_STATUS_BUSY 0 = 0 ∧ Raised u SEC_EVENT_MBOX_DONE 0 ∧ u.sec.ownerCtr = obj.counter ∧ u.ptnState p = ptnRemoving ∧ (∃ r, tget u.sec.rms p = some r ∧ r.st = .removing ∧ r.desc = none ∧ r.operator = true ∧ r.dest = dest ∧ r.accepted = max s.clk.tNs t))) ∧
  (∀ (s : State) (p t : Nat) (r : Removal),
    tget s.sec.rms p = some r →
    r.st = .removing →
    r.step = 3 ∨ r.step = 4 →
    Runs (.removalStepEnd p t) s (fun u =>
      (∃ x, tget u.sec.rms p = some x ∧ x.step = r.step + 1 ∧ x.durable = true ∧ x.st = .removing) ∧ (r.step = 4 → tget u.sec.keys p = none ∧ tget u.sec.lastDead p = some r.oldGen))) ∧
  (∀ (s : State) (p t : Nat) (r : Removal),
    p < 8 →
    tget s.sec.rms p = some r →
    r.st = .removing →
    r.step = 5 →
    r.metaBands = [] →
    Runs (.removalStepEnd p t) s (fun u =>
      u.ptnState p = ptnFree ∧ u.fget PTN_DIES_DIES p = 0 ∧ u.fget PTN_CTRL_SEAL p = 0 ∧ (u.part p).ctxs = [] ∧ tget u.sec.tenants p = none ∧ u.fbitAt SEC_RM_STATUS_REMOVING 0 p = false)) ∧
  (∀ (s : State) (d seen t : Nat),
    s.fbit SEC_STATUS_ERROR 0 = false →
    (List.range 16).all (fun c => (s.ftl d).chan c != .twinRo) = true →
    s.fbit FTL_STATUS_REPLAYING d = true →
    Runs (.ftlReplay d seen t) s (fun u =>
      u.fget FTL_STATUS_READY d = 1 ∧ u.fget FTL_STATUS_REPLAYING d = 0 ∧ u.clk.tNs = max s.clk.tNs t)) ∧
  (∀ (s : State) (p t : Nat),
    p < 8 →
    s.ptnState p ≠ ptnFree →
    s.ptnState p ≠ ptnRemoving →
    (s.part p).genOn = true →
    Runs (.partitionReset p t) s (fun u =>
      (u.part p).resetDue = true ∧ u.ptnState p = s.ptnState p ∧ (u.part p).genOn = true ∧ u.clk.tNs = max s.clk.tNs t))

/-- R510, R516 to R518, R587, R590: resets. That a cold reset out of ERROR reports 5 is log entry 52. -/
def Obligations.PackageResets : Prop :=
  (∀ (s : State) (lossLow : Bool) (code : Nat) (straps : Straps) (rails : Nat),
    Runs (.powerOnReset lossLow code straps rails) s (fun u =>
      u.fget PWR_STATUS_LAST_RESET 0 = 1 ∧ (∀ p, p < 8 → u.ptnState p = ptnFree) ∧ u.fget SEC_FUSE_OWNER 0 = s.fget SEC_FUSE_OWNER 0 ∧ u.sec.slots = s.sec.slots ∧
      (u.fget SEC_STATUS_ERROR 0 = 1 ∨ (u.fget SEC_STATUS_READY 0 = 1 ∧ u.fget PWR_STATUS_READY 0 = 1)) ∧ (code ≠ 0 → u.fget SEC_STATUS_ERROR 0 = 1) ∧ u.clk.tNs = 0 ∧ u.pwr.trip = false ∧ (s.pwr.trip = true → Emits s u (.pin 0 1)))) ∧
  (∀ (s : State) (via : Via) (code t : Nat),
    MayWrite via (PWR_CTRL_COLD.at_ 0) s →
    Runs (.packageColdReset (.write via 0x5EB7) code t) s (fun u =>
      u.fget PWR_STATUS_LAST_RESET 0 = (if s.fbit SEC_STATUS_ERROR 0 = true then 5 else 3) ∧ (∀ p, p < 8 → u.ptnState p = ptnFree) ∧ u.fget SEC_FUSE_OWNER 0 = s.fget SEC_FUSE_OWNER 0 ∧ u.sec.slots = s.sec.slots ∧
      (u.fget SEC_STATUS_ERROR 0 = 1 ∨ (u.fget SEC_STATUS_READY 0 = 1 ∧ u.fget PWR_STATUS_READY 0 = 1)) ∧ u.clk.tNs = max s.clk.tNs t)) ∧
  (∀ (s : State) (code t : Nat),
    s.fbit PWR_STATUS_PWR_LOSS 0 = false →
    Runs (.packageColdReset .pin code t) s (fun u =>
      u.fget PWR_STATUS_LAST_RESET 0 = (if s.fbit SEC_STATUS_ERROR 0 = true then 5 else 2) ∧ (∀ p, p < 8 → u.ptnState p = ptnFree) ∧ u.fget SEC_FUSE_OWNER 0 = s.fget SEC_FUSE_OWNER 0 ∧ u.sec.slots = s.sec.slots ∧
      (u.fget SEC_STATUS_ERROR 0 = 1 ∨ (u.fget SEC_STATUS_READY 0 = 1 ∧ u.fget PWR_STATUS_READY 0 = 1)))) ∧
  (∀ (s : State) (code t : Nat),
    s.fbit PWR_STATUS_PWR_LOSS 0 = true →
    s.quiescent = false →
    Runs (.packageColdReset .pin code t) s (fun u =>
      u.pwr.coldWait = some code ∧ u.parts = s.parts ∧ u.out = s.out ∧ u.fget PWR_STATUS_LAST_RESET 0 = s.fget PWR_STATUS_LAST_RESET 0)) ∧
  (∀ (s : State) (code t : Nat),
    s.pwr.coldWait = some code →
    (∀ q, s.pwr.lossT = some q → q + 4000000 ≤ max s.clk.tNs t) →
    Runs (.deferredColdReset t) s (fun u =>
      u.fget PWR_STATUS_LAST_RESET 0 = (if s.fbit SEC_STATUS_ERROR 0 = true then 5 else 2) ∧ (∀ p, p < 8 → u.ptnState p = ptnFree) ∧ u.fget SEC_FUSE_OWNER 0 = s.fget SEC_FUSE_OWNER 0 ∧ u.sec.slots = s.sec.slots ∧
      (u.fget SEC_STATUS_ERROR 0 = 1 ∨ (u.fget SEC_STATUS_READY 0 = 1 ∧ u.fget PWR_STATUS_READY 0 = 1)))) ∧
  (∀ (s : State) (d i ns code : Nat),
    s.pwr.coldWait = some code →
    (s.journalPage d i ns).quiescent = true →
    s.fbit SEC_STATUS_ERROR 0 = false →
    Runs (.journalPageDurable d i ns) s (fun u =>
      u.fget PWR_STATUS_LAST_RESET 0 = 2 ∧ (∀ p, p < 8 → u.ptnState p = ptnFree))) ∧
  (∀ (s : State) (d i ns : Nat),
    s.pwr.coldWait = none →
    (s.ftl d).jpages.length ≤ i →
    Runs (.journalPageDurable d i ns) s (fun u =>
      u.ftls = s.ftls ∧ u.out = s.out)) ∧
  (∀ (s : State) (via : Via) (t : Nat),
    MayWrite via (PWR_CTRL_WARM.at_ 0) s →
    Runs (.packageWarmReset via 0x5EB7 t) s (fun u =>
      u.fget PWR_STATUS_LAST_RESET 0 = 6 ∧ u.fget PWR_STATUS_READY 0 = 1 ∧ (∀ p, p < 8 → (u.part p).outst = []) ∧ (∀ f, f < 16 → u.fget HRG_STATUS_READY f = 0) ∧ u.clk.tNs = max s.clk.tNs t)) ∧
  (∀ (s : State) (d : Nat) (via : Via) (bad t : Nat),
    MayWrite via (DPM_CTRL_RESET.at_ d) s →
    d < s.nDies →
    s.shadowed d = false →
    (s.row uDie d 0).lost = false →
    Runs (.dieReset d via 0x5EB7 bad t) s (fun u =>
      (u.row uDie d 0).lost = true ∧ u.fget RAS_DIE_STATE_STATE d = usLOST ∧ u.fget LNK_STATUS_UP d = 0)) ∧
  (∀ (s : State) (d ns k l : Nat) (p : JPage) (x y : FOp),
    s.pwr.coldWait = none →
    (s.ftl d).jpages = [p] →
    (s.ftl d).pageOps p = [(x, false), (y, false)] →
    (s.ftl d).lunOf x = some k →
    (s.ftl d).lunOf y = some l →
    (s.ftl d).still = false →
    Runs (.journalPageDurable d 0 ns) s (fun u =>
      (u.ftl d).jlog = (s.ftl d).jlog ++ p.recs ∧ (u.ftl d).jdur = p.recs.foldl (fun m r => max m r.jseq) (s.ftl d).jdur + p.pads)) ∧
  (∀ (s : State) (lossLow : Bool) (code : Nat) (q a b c : Bool) (rails : Nat),
    Runs (.powerOnReset lossLow code ⟨some q, some a, some b, some c⟩ rails) s (fun u =>
      u.fget RAS_MCTP_SMB_ADDR 0 = 0x58 + a.toNat + 2 * b.toNat + 4 * c.toNat ∧ u.fget SYS_STRAP_SPI_QUAD 0 = q.toNat ∧ u.fget PWR_STATUS_PWR_LOSS 0 = lossLow.toNat))

/-- R510, R523 to R526, R580, R587, R590: supplies and pins. -/
def Obligations.SupplyAndPowerLoss : Prop :=
  (∀ (s : State) (dom mv t : Nat),
    dom < 6 * s.nDies →
    s.below dom mv 96 = true →
    Runs (.supplyWarning dom mv t) s (fun u =>
      (u.dom dom).warn = true ∧ (u.dom dom).low = min (s.dom dom).low mv ∧ u.fget PWR_STATUS_WARN_ANY 0 = 1 ∧ u.fget DPM_STATUS_WARN (dom / 6) = 1 ∧ u.fget DPM_STATUS_PAUSED (dom / 6) = 1 ∧ Raised u DPM_EVENT_WARN (dom / 6) ∧ (u.ftl (dom / 6)).hold ≠ .free)) ∧
  (∀ (s : State) (d : Nat) (lows : List (Nat × Nat × Nat)) (t : Nat),
    d < s.nDies →
    ((List.range 6).any fun k => (s.dom (6 * d + k)).warn) = true →
    (List.range 6).all (fun k => !(s.dom (6 * d + k)).warn || decide ((s.dom (6 * d + k)).lastT + 10000 ≤ max s.clk.tNs t)) = true →
    lows.all (fun e => !s.below e.1 e.2.2 97) = true →
    Runs (.supplyRecovery d lows t) s (fun u =>
      (∀ k, k < 6 → (u.dom (6 * d + k)).warn = false) ∧ Raised u PWR_EVENT_DIP 0 ∧ u.fget PWR_DIPS_COUNT 0 = min (s.fget PWR_DIPS_COUNT 0 + 1) (2 ^ PWR_DIPS_COUNT.w - 1))) ∧
  (∀ (s : State) (dom mv code t : Nat),
    dom < 6 * s.nDies →
    s.below dom mv 92 = true →
    Runs (.supplyReset dom mv code t) s (fun u =>
      (u.row uDie (dom / 6) 0).lost = true ∧ (u.dom dom).warn = false ∧ u.fget PWR_SUPPLY_RESETS_COUNT 0 = min (s.fget PWR_SUPPLY_RESETS_COUNT 0 + 1) (2 ^ PWR_SUPPLY_RESETS_COUNT.w - 1))) ∧
  (∀ (s : State) (dom mv code t : Nat),
    dom = 6 * s.nDies →
    s.below dom mv 92 = true →
    Runs (.supplyReset dom mv code t) s (fun u =>
      u.fget PWR_STATUS_LAST_RESET 0 = 1 ∧ (∀ p, p < 8 → u.ptnState p = ptnFree) ∧ u.fget SEC_FUSE_OWNER 0 = s.fget SEC_FUSE_OWNER 0 ∧ u.sec.slots = s.sec.slots ∧
      (u.fget SEC_STATUS_ERROR 0 = 1 ∨ (u.fget SEC_STATUS_READY 0 = 1 ∧ u.fget PWR_STATUS_READY 0 = 1)) ∧ u.clk.tNs = 0)) ∧
  (∀ (s : State) (d cas log t : Nat),
    d < s.nDies →
    s.shadowed d = false →
    s.fbit DPM_STATUS_WARN d = false →
    s.force = [] →
    Runs (.avsStep d cas log t) s (fun u =>
      if s.fbit DPM_AVS_CFG_EN d = false ∨ s.pwr.hold.contains d = true then u.fget DPM_VOLT_CAS d = 700 ∧ u.fget DPM_VOLT_LOG d = 750
      else u.fget DPM_VOLT_CAS d = (avsMove (s.fget DPM_VOLT_CAS d) (s.fget DPM_AVS_CAS_VMIN d) (s.fget DPM_AVS_CAS_VMAX d) (s.fget DPM_AVS_CFG_STEP d) (s.fget DPM_AVS_CFG_MARGIN d) cas).1 ∧
        u.fget DPM_VOLT_LOG d = (avsMove (s.fget DPM_VOLT_LOG d) (s.fget DPM_AVS_LOG_VMIN d) (s.fget DPM_AVS_LOG_VMAX d) (s.fget DPM_AVS_CFG_STEP d) (s.fget DPM_AVS_CFG_MARGIN d) log).1)) ∧
  (∀ (s : State) (via : Via),
    MayWrite via (PWR_CTRL_MIN_CLR.at_ 0) s →
    Runs (.minClr via) s (fun u =>
      s.fget PWR_SEL_DOMAIN 0 < 6 * s.nDies + 2 → (u.dom (s.fget PWR_SEL_DOMAIN 0)).low = 0xFFFF ∧ (u.dom (s.fget PWR_SEL_DOMAIN 0)).warn = (s.dom (s.fget PWR_SEL_DOMAIN 0)).warn ∧ u.regs = s.regs)) ∧
  (∀ (s : State) (t : Nat),
    s.fbit PWR_STATUS_PWR_LOSS 0 = false →
    Runs (.pwrLossQualified t) s (fun u =>
      u.fget PWR_STATUS_PWR_LOSS 0 = 1 ∧ Raised u PWR_EVENT_PWR_LOSS 0 ∧ u.pwr.lossT = some (max s.clk.tNs t) ∧ (∀ d, d < s.nDies → (u.ftl d).hold = if s.fbit SEC_STATUS_ERROR 0 = true then .error else .loss))) ∧
  (∀ (s : State) (t : Nat),
    s.fbit PWR_STATUS_PWR_LOSS 0 = true →
    s.pwr.bootWait = false →
    Runs (.pwrLossRelease t) s (fun u =>
      u.fget PWR_STATUS_PWR_LOSS 0 = 0 ∧ u.pwr.lossT = none ∧ (∀ d, d < s.nDies → (u.ftl d).hold = if s.fbit SEC_STATUS_ERROR 0 = true then .error else if s.fbit DPM_STATUS_WARN d = true then .warn else .free))) ∧
  (∀ (s : State) (d n temp : Nat),
    d < s.nDies →
    n < 7 →
    (if n < 4 then 115 else 105) ≤ temp →
    Runs (.thermtrip d n temp) s (fun u =>
      u.pwr.trip = true ∧ u.regs = s.regs ∧ SentBy s u (if s.pwr.trip = true then [] else [.pin 0 0]))) ∧
  (∀ (s : State) (t : Nat),
    Runs (.ppsOut t) s (fun u =>
      u.pwr.pps = decide (max s.clk.tNs t % 1000000000 < 100000000) ∧ SentBy s u (if s.pwr.pps = decide (max s.clk.tNs t % 1000000000 < 100000000) then [] else [.pin 1 (if max s.clk.tNs t % 1000000000 < 100000000 then 1 else 0)])))

/-- R519, R520, R572, R573: power states and stacks. -/
def Obligations.PowerStatesAndMemory : Prop :=
  (∀ (s : State) (d req : Nat) (via : Via),
    MayWrite via (DPM_CTRL_STATE_REQ.at_ d) s →
    s.dieLost d = false →
    d < s.nDies →
    2 ≤ req →
    req < 4 →
    Runs (.stateReq d req via) s (fun u =>
      if s.refuseState d = true then Raised u DPM_EVENT_REFUSED d ∧ u.pwr = s.pwr
      else s.fget DPM_STATUS_STATE d ≠ req → u.fget DPM_STATUS_TRANSITION d = 1 ∧ tget u.pwr.target d = some (4 * req + 1))) ∧
  (∀ (s : State) (d code t x : Nat),
    tget s.pwr.target d = some x →
    x < 16 →
    d < 8 →
    code = 0 →
    (tget s.pwr.moveT d).getD 0 + moveNs (s.fget DPM_STATUS_STATE d) (x / 4) ≤ max s.clk.tNs t →
    x / 4 < 2 ∨ s.refuseState d = false →
    Runs (.powerStateChange d code t) s (fun u =>
      u.fget DPM_STATUS_STATE d = x / 4 ∧ (s.fget DPM_STATUS_STATE d ≠ x / 4 → Raised u DPM_EVENT_STATE_CHANGE d) ∧ tget u.pwr.target d = none ∧
      (x / 4 = 3 → u.pwr.en.contains d = false ∧ u.pwr.en.contains (8 + d) = false ∧ u.pwr.en.contains (16 + d) = false) ∧
      (x / 4 = 2 → u.pwr.en.contains (8 + d) = false ∧ u.pwr.en.contains (16 + d) = false))) ∧
  (∀ (s : State) (d k temp t : Nat),
    d < s.nDies →
    k < 3 →
    s.shadowed d = false →
    s.inForce MEM_REFRESH_HOT_C d ≤ temp →
    Runs (.stackHot d k temp t) s (fun u =>
      u.fbitAt MEM_STATUS_HOT d k = true ∧ (s.fbitAt MEM_STATUS_HOT d k = false → Raised u MEM_EVENT_HOT d))) ∧
  (∀ (s : State) (d k temp t : Nat),
    d < s.nDies →
    k < 3 →
    s.shadowed d = false →
    temp < s.inForce MEM_REFRESH_HOT_C d - s.inForce MEM_REFRESH_HYST_C d →
    Runs (.stackHot d k temp t) s (fun u =>
      u.fbitAt MEM_STATUS_HOT d k = false ∧ u.out = s.out)) ∧
  (∀ (s : State) (d : Nat) (via : Via),
    MayWrite via (MEM_CTRL_INJECT.at_ d) s →
    s.shadowed d = false →
    (s.stackOn d (if s.fget MEM_CTRL_INJ_STACK d = 3 then 0 else s.fget MEM_CTRL_INJ_STACK d) = true) →
    Runs (.memInject d via) s (fun u =>
      Raised u MEM_EVENT_INJECT_SEEN d ∧ (if s.fget MEM_CTRL_INJ_SYMBOLS d ≤ 2 then u.fget RAS_CE_HBM_COUNT d = min (s.fget RAS_CE_HBM_COUNT d + 1) (2 ^ RAS_CE_HBM_COUNT.w - 1)
      else u.fget RAS_UE_HBM_COUNT d = min (s.fget RAS_UE_HBM_COUNT d + 1) (2 ^ RAS_UE_HBM_COUNT.w - 1) ∧ Raised u RAS_EVENT_UE 0)))

/-- R526, R528, R529, R535, R537, R538, R543: counters. -/
def Obligations.CountersFreezeAndIndex : Prop :=
  (∀ (s : State) (p : Nat) (on : Bool) (via : Via),
    p < 8 →
    MayWrite via (PMC_SNAP_FREEZE.at_ p) s →
    Runs (.partitionFreeze p on via) s (fun u =>
      u.fget PMC_SNAP_FREEZE p = on.toNat ∧ u.pmcs = s.pmcs ∧ (on = true ∧ s.fbit PMC_SNAP_FREEZE p = false → Raised u PMC_PEVENT_FROZEN p))) ∧
  (∀ (s : State) (on : Bool) (via : Via),
    MayWrite via (PMC_CTRL_FREEZE.at_ 0) s →
    Runs (.packageFreeze on via) s (fun u =>
      u.fget PMC_CTRL_FREEZE 0 = on.toNat ∧ u.fget PMC_STATUS_FROZEN 0 = on.toNat ∧ RegsOnly s u [PMC_CTRL_FREEZE.key 0, PMC_STATUS_FROZEN.key 0, PMC_CTRL_ARM_AT.key 0] ∧ (s.freezeReached = false → u.fget PMC_CTRL_ARM_AT 0 = s.fget PMC_CTRL_ARM_AT 0) ∧ u.pmcs = s.pmcs ∧ u.out = s.out)) ∧
  (∀ (s : State) (t : Nat),
    s.fbit PMC_CTRL_ARM_AT 0 = true →
    s.freezeAt ≤ max s.clk.tNs t →
    Runs (.freezeAtReached t) s (fun u =>
      u.fget PMC_CTRL_ARM_AT 0 = 0 ∧ u.fget PMC_CTRL_FREEZE 0 = 1 ∧ u.fget PMC_STATUS_FROZEN 0 = 1 ∧ u.clk.tNs = max s.clk.tNs t)) ∧
  (∀ (s : State) (p v : Nat) (via : Via),
    p < 8 →
    MayWrite via (PMC_IDX_UNIT.at_ p) s →
    Runs (.pmcIdxWrite p v via) s (fun u =>
      if (s.diesOf p).contains (v / 256 % 8) = true then u.fget PMC_IDX_UNIT p = v % 16 ∧ u.fget PMC_IDX_DIE p = v / 256 % 8 ∧ RegsOnly s u [PMC_IDX_UNIT.key p, PMC_IDX_DIE.key p]
      else Raised u PMC_PEVENT_CFG_ERR p ∧ u.fget PMC_IDX_UNIT p = s.fget PMC_IDX_UNIT p ∧ u.fget PMC_IDX_DIE p = s.fget PMC_IDX_DIE p)) ∧
  (∀ (s : State) (p v : Nat) (via : Via),
    p < 8 →
    MayWrite via (PMC_VALUE_VALUE.at_ p) s →
    Runs (.pmcValueWrite p v via) s (fun u =>
      (∀ k, u.pmcCtrOf p k = if k = s.pmcCtrKey p then { s.pmcCtrOf p k with live := v % 2 ^ 32 } else s.pmcCtrOf p k) ∧ RegsOnly s u [] ∧ u.out = s.out)) ∧
  (∀ (s : State) (p : Nat) (via : Via) (k : Nat),
    p < 8 →
    MayWrite via (PMC_HCFG_CLR.at_ p) s →
    s.histKey p = some k →
    Runs (.histogramClr p via) s (fun u =>
      u.histOf p k = { s.histOf p k with lo := 0xFFFFFFFF, hi := 0, count := 0, sum := 0, bins := [] } ∧ (∀ j, j ≠ k → u.histOf p j = s.histOf p j) ∧ RegsOnly s u [] ∧ u.out = s.out)) ∧
  (∀ (s : State) (p seed : Nat) (via : Via),
    p < 8 →
    MayWrite via (PMC_TAG_SEED_SEED.at_ p) s →
    Runs (.pmcTagSeedWrite p seed via) s (fun u =>
      (∀ d, d < s.nDies → dget (u.pmcOf p).lfsr 1 d = if seed % 2 ^ 32 = 0 then 1 else seed % 2 ^ 32) ∧ u.fget PMC_TAG_SEED_SEED p = seed % 2 ^ 32 ∧ RegsOnly s u [PMC_TAG_SEED_SEED.key p])) ∧
  (∀ (s : State) (p : Nat) (en : Bool) (via : Via),
    p < 8 →
    MayWrite via (PMC_TRACE_EN.at_ p) s →
    Runs (.pmcTraceEnWrite p en via) s (fun u =>
      u.fget PMC_TRACE_EN p = en.toNat ∧ (if en = true then (u.pmcOf p).traceWrite = 0 ∧ (u.pmcOf p).traceRead = 0 ∧ (u.pmcOf p).traceDrops = 0 else u.pmcs = s.pmcs) ∧ RegsOnly s u [PMC_TRACE_EN.key p])) ∧
  (∀ (s : State) (p : Nat) (via : Via),
    p < 8 →
    MayWrite via (PMC_BW_PEAK_CLR.at_ p) s →
    Runs (.peakClr p via) s (fun u =>
      (∀ k, dget (u.pmcOf p).wins (0, 0, 0) k = ((dget (s.pmcOf p).wins (0, 0, 0) k).1, (dget (s.pmcOf p).wins (0, 0, 0) k).2.1, 0)) ∧ RegsOnly s u [] ∧ u.out = s.out))

/-- R92, R462, R465, R466, R472, R569, R570: hardware errors. -/
def Obligations.WicketsScrubAndLinks : Prop :=
  (∀ (s : State) (d w : Nat) (fresh : List TaskReq) (t : Nat),
    d < s.nDies →
    w < 256 →
    (s.row uDie d 0).lost = false →
    s.clockOn d 2 = true →
    s.unitState uWicket d w = usACTIVE →
    s.unitOn uCluster d (w / 8) = true →
    s.unitOn uRegion d (w / 64) = true →
    dget (s.wkt d).queues [] (w / 8) ≠ [] →
    Runs (.wicketTakeTask d w fresh t) s (fun u =>
      (tget (u.wkt d).running w).isSome = true ∧ u.fget WKT_STEAL_CLU_COUNT d = s.fget WKT_STEAL_CLU_COUNT d ∧ u.clk.tNs = max s.clk.tNs t ∧
      ((tget (s.wkt d).running w).isSome = true → u.fget WKT_TASKS_COUNT d = min (s.fget WKT_TASKS_COUNT d + 1) (2 ^ (WKT_TASKS_COUNT).w - 1)))) ∧
  (∀ (s : State) (d w t : Nat) (k : WTask),
    tget (s.wkt d).running w = some k →
    k.startT + s.taskWdog ≤ max s.clk.tNs t →
    s.heldOff uWicket d w = false →
    d < s.nDies →
    w < 256 →
    s.unitState uWicket d w = usACTIVE →
    (s.row uWicket d w).mgmt ≠ 1 →
    Runs (.wicketWatchdogExpiry d w t) s (fun u =>
      u.unitState uWicket d w = usFENCED ∧ Raised u RAS_EVENT_UNIT_FENCED 0 ∧ (u.row uWicket d w).data = 2)) ∧
  (∀ (s : State) (d sramCe : Nat) (last : Bool) (t : Nat),
    s.fbit RAS_CTRL_SCRUB_EN 0 = true →
    d < s.nDies →
    s.shadowed d = false →
    Runs (.hbmScrubPass d [] sramCe [] last t) s (fun u =>
      u.fget RAS_CE_SRAM_COUNT d = min (s.fget RAS_CE_SRAM_COUNT d + sramCe) (2 ^ (RAS_CE_SRAM_COUNT).w - 1) ∧ (last = true → dget u.ras.corrected [] d = []))) ∧
  (∀ (s : State) (d : Nat) (l : ScrubLine) (t : Nat),
    s.fbit RAS_CTRL_SCRUB_EN 0 = true →
    d < s.nDies →
    s.shadowed d = false →
    (s.row uDie d 0).lost = false →
    s.stackOn d (l.addr / 2 ^ 36) = true →
    l.syms ≠ 0 →
    Runs (.hbmScrubPass d [l] 0 [] false t) s (fun u =>
      if 3 ≤ l.syms then Raised u RAS_EVENT_UE 0 else u.fget RAS_CE_HBM_COUNT d = min (s.fget RAS_CE_HBM_COUNT d + 1) (2 ^ (RAS_CE_HBM_COUNT).w - 1))) ∧
  (∀ (s : State) (d : Nat) (hbm : List ScrubLine) (sramCe : Nat) (sram : List SramLine) (last : Bool) (t : Nat),
    s.fbit RAS_CTRL_SCRUB_EN 0 = false →
    Runs (.hbmScrubPass d hbm sramCe sram last t) s (fun u =>
      u.ras = s.ras ∧ u.hbm = s.hbm ∧ u.out = s.out ∧ u.csms = s.csms)) ∧
  (∀ (s : State) (d e : Nat) (rx : FlitRx),
    s.unitExists uLink d e = true →
    s.unitState uLink d e ≠ usFENCED →
    (s.clockOn d 4 && s.clockOn e 4) = true →
    dget s.ras.replays 0 (8 * d + e) < 8 →
    Runs (.d2dFlitRx d e rx) s (fun u =>
      match rx with
      | .crc => dget u.ras.replays 0 (8 * d + e) = dget s.ras.replays 0 (8 * d + e) + 1
      | .line n => (if n ≤ 2 then dget u.ras.replays 0 (8 * d + e) = 0 ∧ (n ≠ 0 → u.fget RAS_CE_D2D_COUNT d = min (s.fget RAS_CE_D2D_COUNT d + 1) (2 ^ (RAS_CE_D2D_COUNT).w - 1))
        else dget u.ras.replays 0 (8 * d + e) = dget s.ras.replays 0 (8 * d + e) + 1 ∧ u.fget RAS_UE_D2D_COUNT d = min (s.fget RAS_UE_D2D_COUNT d + 1) (2 ^ (RAS_UE_D2D_COUNT).w - 1) ∧ Raised u RAS_EVENT_UE 0)))

/-- R463, R467, R470, R471, R475, R477, R487, R492 to R494: reports, tests and rows. The hold-off is a premise. -/
def Obligations.UnitReportsAndTests : Prop :=
  (∀ (s : State) (q : Desc) (k d i : Nat),
    Open q s →
    Live q s →
    s.unitExists k d i = true →
    (s.diesOf q.part).contains d = true →
    (mustConfirm k = true → q.order = true) →
    (∀ x, (s.row k d i).passT = some x → x + s.inForce RAS_CFG_HOLDOFF 0 * secNs ≤ s.clk.tNs) →
    Runs (.unitFence q k d i) s (fun u =>
      Posts s u q 0x72 stOK 0 0 ∧ (u.row k d i).data = 2)) ∧
  (∀ (s : State) (via : Via) (k d i : Nat),
    MayWrite via (RAS_UNIT_CMD_OP.at_ 0) s →
    s.selUnit = (k, d, i) →
    s.unitExists k d i = true →
    (s.row uDie d 0).lost = false →
    (∀ x, (s.row k d i).passT = some x → x + s.inForce RAS_CFG_HOLDOFF 0 * secNs ≤ s.clk.tNs) →
    Runs (.rasUnitFenceCmd via) s (fun u =>
      (u.row k d i).data = 2)) ∧
  (∀ (s : State) (q : Desc) (k d i : Nat),
    Open q s →
    Live q s →
    s.unitExists k d i = true →
    (s.diesOf q.part).contains d = true →
    (k ≠ uDie → (s.row uDie d 0).lost = false) →
    (s.row k d i).desc = none →
    Runs (.unitTest q k d i) s (fun u =>
      (u.row k d i).due = true ∧ (u.row k d i).desc = some (q.fn, q.sq, q.index) ∧ (u.outst? q).isSome = true ∧ (s.unitState k d i = usACTIVE → u.unitState k d i = usTESTING))) ∧
  (∀ (s : State) (via : Via) (k d i : Nat),
    MayWrite via (RAS_UNIT_CMD_OP.at_ 0) s →
    s.selUnit = (k, d, i) →
    s.unitExists k d i = true →
    (s.row uDie d 0).lost = false →
    Runs (.rasUnitTestCmd via) s (fun u =>
      (u.row k d i).due = true ∧ (s.unitState k d i = usACTIVE → u.unitState k d i = usTESTING))) ∧
  (∀ (s : State) (k d i code t : Nat),
    (s.row k d i).due = true →
    s.unitExists k d i = true →
    s.svc.run = none →
    k ≠ uDie ∨ (s.row uDie d 0).lost = false →
    Runs (.selftestComplete k d i code t) s (fun u =>
      (u.row k d i).data = (if code % 256 = 0 then 1 else 2) ∧ (u.row k d i).code = code % 256 ∧ (u.row k d i).passed = (code % 256 == 0) ∧ (u.row k d i).desc = none ∧ u.fget SVC_STATUS_LAST_CODE 0 = code % 256)) ∧
  (∀ (s : State) (via : Via) (k d i : Nat),
    MayRead via (RAS_UNIT_ROW_ROW.at_ 0) s →
    s.selUnit = (k, d, i) →
    s.unitExists k d i = true →
    Runs (.rasUnitRow0Read via) s (fun u =>
      SentBy s u [.regValue (RAS_UNIT_ROW_ROW.at_ 0) (BitVec.ofNat 32 (numAt (s.rowBytes k d i) 0 4))] ∧ (∀ n, 1 ≤ n → n < 4 → u.fget (RAS_UNIT_ROW_ROW.nth n) 0 = numAt (s.rowBytes k d i) (4 * n) 4 % 2 ^ 32) ∧ u.ras = s.ras)) ∧
  (∀ (s : State) (q : Desc) (dest room : Nat),
    Open q s →
    Live q s →
    dest % 64 = 0 →
    Runs (.lossList q dest room) s (fun u =>
      Posts s u q 0x73 stOK (min (room / 8) (dget s.ras.lossList [] q.part).length) (dget s.ras.lossList [] q.part).length ∧ u.ras = s.ras)) ∧
  (∀ (s : State) (die first count : Nat),
    die < s.nDies →
    1 ≤ count →
    count ≤ 16 →
    Runs (.getUnits die first count) s (fun u =>
      SentBy s u [.mctp 0x7E (le 1 stOK ++ (((s.dieRows die).drop first).take count).flatMap (fun x => s.rowBytes x.1 die x.2))] ∧ u.regs = s.regs)) ∧
  (∀ (s : State) (k d i v t : Nat),
    s.unitExists k d i = true →
    v ≤ 2 →
    (mustConfirm k = true → v ≠ 2) →
    (∀ x, (s.row k d i).passT = some x → x + s.inForce RAS_CFG_HOLDOFF 0 * secNs ≤ max s.clk.tNs t) →
    Runs (.reportUnit k d i v t) s (fun u =>
      (u.row k d i).mgmt = v ∧ (∃ b, Emits s u (.mctp 0x7E (le 1 stOK ++ b))))) ∧
  (∀ (s : State) (k d i t : Nat),
    s.unitExists k d i = true →
    mustConfirm k = true →
    (s.row k d i).reportT = none →
    Runs (.reportUnit k d i 2 t) s (fun u =>
      SentBy s u [.mctp 0x7E (le 1 stNOT_READY ++ [])] ∧ (u.row k d i).reportT = some (max s.clk.tNs t) ∧ (u.row k d i).mgmt = (s.row k d i).mgmt ∧ u.regs = (s.advanceTo t).regs))

/-- R449, R494, R495, R497: the management port. The form of a PLDM answer is log entry 60. -/
def Obligations.ManagementPort : Prop :=
  (∀ (s : State) (part : Nat) (certs : Bool) (nonce : List Byte) (offset : Nat),
    part < 8 →
    nonce.length = 32 →
    s.sec.reports.find? (fun r => r.part == part && r.certs == certs && r.nonce == nonce) = none →
    Runs (.getAttest part certs nonce offset) s (fun u =>
      (∃ b, Emits s u (.mctp 0x7E (le 1 stOK ++ b))) ∧ u.fget SEC_ATTESTS_COUNT 0 = min (s.fget SEC_ATTESTS_COUNT 0 + 1) (2 ^ (SEC_ATTESTS_COUNT).w - 1) ∧ u.parts = s.parts)) ∧
  (∀ (s : State) (die : Nat),
    die < s.nDies →
    Runs (.getRas die) s (fun u =>
      SentBy s u [.mctp 0x7E (le 1 stOK ++ (List.range 12).flatMap (fun n => le 4 (s.rawWord (0x70100 + die * 0x40 + 4 * n))))] ∧ u.regs = s.regs)) ∧
  (∀ (s : State) (pcie : Bool) (eid : Nat),
    eid ≠ 0 →
    eid < 255 →
    Runs (.setEndpointId pcie eid) s (fun u =>
      SentBy s u [.mctp 0 (le 1 0 ++ le 1 0 ++ le 1 eid ++ le 1 0)] ∧ (if pcie = true then u.fget RAS_MCTP_EID_PCIE 0 = eid ∧ RegsOnly s u [RAS_MCTP_EID_PCIE.key 0] else u.fget RAS_MCTP_EID_SMB 0 = eid ∧ RegsOnly s u [RAS_MCTP_EID_SMB.key 0]))) ∧
  (∀ (s : State) (d : Nat),
    d < s.nDies →
    Runs (.pldmRequest (.state d)) s (fun u =>
      SentBy s u [.mctp 1 (le 1 0 ++ le 4 (s.unitState uDie d 0))] ∧ u.regs = s.regs)) ∧
  (∀ (s : State) (sensor : PldmSensor),
    Runs (.pldmRequest sensor) s (fun u =>
      (∃ b, SentBy s u [.mctp 1 b]) ∧ u.regs = s.regs))

/-- R464, R482, R484 to R486, R493: losing and replacing a die. -/
def Obligations.LosingAdoptingAndAssigningADie : Prop :=
  (∀ (s : State) (d cause t : Nat),
    d < s.nDies →
    1 ≤ cause →
    cause ≤ 8 →
    (s.row uDie d 0).lost = false →
    Runs (.dieFence d cause t) s (fun u =>
      (u.row uDie d 0).lost = true ∧ u.fget RAS_DIE_STATE_STATE d = usLOST ∧ u.fget RAS_DIE_LOSSES_COUNT 0 = min (s.fget RAS_DIE_LOSSES_COUNT 0 + 1) (2 ^ (RAS_DIE_LOSSES_COUNT).w - 1) ∧ Raised u RAS_EVENT_DIE_LOST 0 ∧ u.fbitAt RAS_STATUS_DIES_LOST 0 d = true)) ∧
  (∀ (s : State) (d t : Nat) (x : Loss),
    s.ras.losses.find? (fun x => x.die == d && x.rehomed) = some x →
    (s.ftl d).restored = true ∨ s.fbit FTL_STATUS_READY d = true ∨ s.fbit FTL_CTRL_EN d = false →
    Runs (.adoption d t) s (fun u =>
      Raised u RAS_EVENT_ADOPTED 0 ∧ (u.ras.losses.any (·.rehomed) = false → u.fget RAS_STATUS_ADOPTING 0 = 0))) ∧
  (∀ (s : State) (q : Desc) (die : Nat),
    Open q s →
    Live q s →
    die < s.nDies →
    s.owner die = none →
    (s.row uDie die 0).due = false →
    s.unitState uDie die 0 = usACTIVE →
    s.ras.losses = [] →
    Runs (.dieAssign q die) s (fun u =>
      (u.fget PTN_DIES_DIES q.part).testBit die = true)) ∧
  (∀ (s : State) (q : Desc) (die o : Nat),
    Open q s →
    Live q s →
    die < s.nDies →
    s.owner die = some o →
    o ≠ q.part →
    Runs (.dieAssign q die) s (fun u =>
      Posts s u q 0x70 stMALFORMED 0 0 ∧ u.ras = s.ras ∧ u.fget PTN_DIES_DIES q.part = s.fget PTN_DIES_DIES q.part))

/-- R547, R548, R554 to R558: inquiries. The exact words of IDENT are log entry 63. -/
def Obligations.ConsoleInquiries : Prop :=
  (∀ (s : State),
    s.svc.run = none →
    Runs (.help) s (fun u =>
      SentBy s u ((if s.fbit SVC_STATUS_ROM 0 = true then romNames else fwNames).map (fun n => .console [n]) ++ [.console ["OK"], .console ["chroat> "]]) ∧ u.regs = s.regs)) ∧
  (∀ (s : State),
    s.svc.run = none →
    Runs (.ident) s (fun u =>
      Ends s u ["OK"] ∧ (∃ l, Emits s u (.console ("IDENT" :: l))) ∧ u.regs = s.regs ∧ u.out.length = s.out.length + 3)) ∧
  (∀ (s : State),
    s.svc.run = none →
    Runs (.status none) s (fun u =>
      Ends s u ["OK"] ∧ u.out.length = s.out.length + s.nDies + 2 ∧ u.regs = s.regs)) ∧
  (∀ (s : State) (d : Nat),
    s.svc.run = none →
    Runs (.status (some d)) s (fun u =>
      (if d < s.nDies then Ends s u ["OK"] else Ends s u ["E", "RANGE"]) ∧ u.regs = s.regs)) ∧
  (∀ (s : State) (d : Nat),
    s.svc.run = none →
    s.fbit SVC_STATUS_ROM 0 = false →
    d < s.nDies →
    Runs (.units d) s (fun u =>
      Ends s u ["OK"] ∧ u.regs = s.regs ∧ u.ras = s.ras)) ∧
  (∀ (s : State) (k : Nat),
    s.svc.run = none →
    Runs (.sense (some k)) s (fun u =>
      (if k < 6 * s.nDies + 2 then Ends s u ["OK"] else Ends s u ["E", "RANGE"]) ∧ u.regs = s.regs)) ∧
  (∀ (s : State),
    s.svc.run = none →
    Runs (.sense none) s (fun u =>
      Ends s u ["OK"] ∧ u.regs = s.regs)) ∧
  (∀ (s : State) (n : Option Nat),
    s.svc.run = none →
    Runs (.log n) s (fun u =>
      Ends s u ["OK"] ∧ u.out.length = s.out.length + min (n.getD 16) s.svc.log.length + 2 ∧ u.regs = s.regs ∧ u.svc = s.svc))

/-- R146, R207, R215, R279, R441, R560, R565. The byte order of MEM is log entry 64; the answer of INJECT is carried by the command. -/
def Obligations.ConsoleReadsAndWrites : Prop :=
  (∀ (s : State) (off : Nat),
    s.svc.run = none →
    s.fbit SVC_STATUS_ROM 0 = false →
    off < bar2 →
    off % 4 = 0 →
    s.mapped off = true →
    Runs (.regRead off) s (fun u =>
      Ends s u ["OK"] ∧ Emits s u (.console ["REG", hex8 off, "=", hex8 ((s.readWord off).1 % 2 ^ 32)]))) ∧
  (∀ (s : State) (off v : Nat),
    s.svc.run = none →
    s.fbit SVC_STATUS_ROM 0 = false →
    s.fbit SVC_STATUS_MODE 0 = true →
    off < bar2 →
    v < 2 ^ 32 →
    Runs (.regWrite off v) s (fun u =>
      if 0x40000 ≤ off ∧ off < 0x50000 then Ends s u ["E", "RANGE"] ∧ u.regs = s.regs else Ends s u ["OK"])) ∧
  (∀ (s : State) (d addr n : Nat),
    s.fbit SEC_STATUS_DEBUG_SEALED 0 = false →
    s.svc.run = none →
    s.fbit SVC_STATUS_ROM 0 = false →
    s.fbit SVC_STATUS_MODE 0 = true →
    d < s.nDies →
    hbmOk addr n = true →
    Runs (.memRead d addr n) s (fun u =>
      SentBy s u ((List.range n).map (fun i => .console ["MEM", "0x" ++ hexN 10 (addr + 8 * i), "0x" ++ hexN 16 (s.hbmWord d (addr + 8 * i))]) ++ [.console ["OK"], .console ["chroat> "]]) ∧ u.hbm = s.hbm ∧ u.regs = s.regs)) ∧
  (∀ (s : State) (d addr v : Nat),
    s.fbit SEC_STATUS_DEBUG_SEALED 0 = false →
    s.svc.run = none →
    s.fbit SVC_STATUS_ROM 0 = false →
    s.fbit SVC_STATUS_MODE 0 = true →
    d < s.nDies →
    hbmOk addr 1 = true →
    v < 2 ^ 64 →
    Runs (.memWrite d addr v) s (fun u =>
      Ends s u ["OK"] ∧ (∀ i, i < 8 → dget u.hbm 0 (hbmKey d (addr + i)) = BitVec.ofNat 8 (v / 2 ^ (8 * i))) ∧
      (∀ k, (∀ i, i < 8 → k ≠ hbmKey d (addr + i)) → dget u.hbm 0 k = dget s.hbm 0 k) ∧ u.regs = s.regs)) ∧
  (∀ (s : State) (d i : Nat) (seen : Bool),
    s.svc.run = none →
    s.fbit SVC_STATUS_ROM 0 = false →
    s.fbit SVC_STATUS_MODE 0 = true →
    d < s.nDies →
    i < 4 →
    Runs (.injectPane d i seen) s (fun u =>
      if seen = true ∧ s.fbitAt CSM_PANE_FENCE_FENCED d i = false ∧ s.shadowed d = false then Ends s u ["OK"] ∧ Raised u CSM_EVENT_MISMATCH d ∧ u.fget (CSM_PANE_RETRY_COUNT.nth i) d = min (s.fget (CSM_PANE_RETRY_COUNT.nth i) d + 1) (2 ^ ((CSM_PANE_RETRY_COUNT.nth i)).w - 1) else Ends s u ["E", "FAIL"] ∧ u.regs = s.regs)) ∧
  (∀ (s : State) (d i : Nat) (seen : Bool),
    s.svc.run = none →
    s.fbit SVC_STATUS_ROM 0 = false →
    s.fbit SVC_STATUS_MODE 0 = true →
    d < s.nDies →
    i < 4 →
    Runs (.injectAtm d i seen) s (fun u =>
      if seen = true ∧ s.fbitAt ATM_FENCE_FENCED d i = false ∧ s.shadowed d = false then Ends s u ["OK"] ∧ Raised u ATM_EVENT_INJECT_SEEN d else Ends s u ["E", "FAIL"] ∧ u.regs = s.regs)) ∧
  (∀ (s : State) (d : Nat) (r : SectorRead) (t : Nat),
    s.svc.run = none →
    s.fbit SVC_STATUS_ROM 0 = false →
    s.fbit SVC_STATUS_MODE 0 = true →
    d < s.nDies →
    s.fbit FTL_STATUS_READY d = true →
    s.shadowed d = false →
    Runs (.injectFlash d r t) s (fun u =>
      if s.fbit FTL_EVENT_INJECT_SEEN d = true ∨ (tget (s.ftl d).bands r.band).isSome = true then Ends s u ["OK"] ∧ Raised u FTL_EVENT_INJECT_SEEN d else (Ends s u ["OK"] ∨ Ends s u ["E", "FAIL"])))

/-- R549, R550, R559 to R561: service mode and static conditions. -/
def Obligations.ServiceModeAndStatics : Prop :=
  (∀ (s : State),
    s.svc.run = none →
    s.fbit SVC_STATUS_MODE 0 = false →
    Runs (.svcOn) s (fun u =>
      if s.fbit SVC_CTRL_HOST_LOCK 0 = true ∨ (List.range 8).any (fun p => s.ptnState p != ptnFree) = true then Ends s u ["E", "BUSY"] ∧ u.regs = s.regs else u.fget SVC_STATUS_MODE 0 = 1 ∧ Raised u SVC_EVENT_SVC_ON 0 ∧ Ends s u ["OK"])) ∧
  (∀ (s : State),
    s.svc.run = none →
    s.fbit SVC_STATUS_MODE 0 = true →
    Runs (.svcOff) s (fun u =>
      u.fget SVC_STATUS_MODE 0 = 0 ∧ Raised u SVC_EVENT_SVC_OFF 0 ∧ u.pwr.hold = [] ∧ u.svc.drive = .normal ∧ u.fget SVC_LEVEL_FORCED 0 = 0 ∧ Ends s u ["OK"])) ∧
  (∀ (s : State) (d : Nat),
    s.svc.run = none →
    s.fbit SVC_STATUS_ROM 0 = false →
    s.fbit SVC_STATUS_MODE 0 = true →
    d < s.nDies →
    Runs (.holdOn d) s (fun u =>
      u.pwr.hold.contains d = true ∧ u.fget DPM_VOLT_CAS d = 700 ∧ u.fget DPM_VOLT_LOG d = 750 ∧
      (s.fget DPM_VOLT_CAS d ≠ 700 → Emits s u (.avs d 0 700)) ∧ (s.fget DPM_VOLT_LOG d ≠ 750 → Emits s u (.avs d 1 750)) ∧ u.fget SVC_STATUS_STATIC 0 = 1 ∧ Ends s u ["OK"])) ∧
  (∀ (s : State) (d : Nat),
    s.svc.run = none →
    s.fbit SVC_STATUS_ROM 0 = false →
    s.fbit SVC_STATUS_MODE 0 = true →
    d < s.nDies →
    Runs (.holdOff d) s (fun u =>
      u.pwr.hold = s.pwr.hold.filter (· != d) ∧ Ends s u ["OK"])) ∧
  (∀ (s : State) (v : Nat),
    s.svc.run = none →
    s.fbit SVC_STATUS_MODE 0 = true →
    Runs (.level v) s (fun u =>
      if v < 256 then u.fget SVC_LEVEL_FORCED 0 = 1 ∧ u.fget SVC_LEVEL_PINS 0 = v ∧ Emits s u (.pin 2 v) ∧ u.fget SVC_STATUS_STATIC 0 = 1 ∧ Ends s u ["OK"] else Ends s u ["E", "RANGE"] ∧ u.regs = s.regs)) ∧
  (∀ (s : State),
    s.svc.run = none →
    Runs (.levelAuto) s (fun u =>
      u.fget SVC_LEVEL_FORCED 0 = 0 ∧ RegsOnly s u [SVC_LEVEL_FORCED.key 0, SVC_STATUS_STATIC.key 0] ∧ Ends s u ["OK"])) ∧
  (∀ (s : State) (d c byte : Nat),
    s.svc.run = none →
    s.fbit SVC_STATUS_ROM 0 = false →
    s.fbit SVC_STATUS_MODE 0 = true →
    d < s.nDies →
    c < 16 →
    byte < 256 →
    (s.ftl d).chan c ≠ .twinRo →
    (s.ftl d).chan c ≠ .returning →
    (∀ x, (s.row uChan d c).passT = some x → x + s.inForce RAS_CFG_HOLDOFF 0 * secNs ≤ s.clk.tNs) →
    Runs (.pattern d c byte) s (fun u =>
      tget u.svc.patterns (16 * d + c) = some byte ∧ (u.row uChan d c).data = 2 ∧ Emits s u (.console ["PATTERN", unitName d c, "DQ", hex2 byte, "CE_N", "1"]) ∧ u.fget SVC_STATUS_STATIC 0 = 1 ∧ Ends s u ["OK"])) ∧
  (∀ (s : State) (d c : Nat),
    s.svc.run = none →
    s.fbit SVC_STATUS_ROM 0 = false →
    s.fbit SVC_STATUS_MODE 0 = true →
    d < s.nDies →
    c < 16 →
    Runs (.patternOff d c) s (fun u =>
      tget u.svc.patterns (16 * d + c) = none ∧ (∀ byte, tget s.svc.patterns (16 * d + c) = some byte → (u.row uChan d c).due = true ∧
        Emits s u (.console ["PATTERN", unitName d c, "DQ", hex2 byte, "CE_N", "1"])) ∧ Ends s u ["OK"]))

/-- R474, R477, R547, R551, R555, R560: tests of the console. -/
def Obligations.ConsoleTests : Prop :=
  (∀ (s : State) (kind d i : Nat),
    s.svc.run = none →
    s.fbit SVC_STATUS_ROM 0 = false →
    s.fbit SVC_STATUS_MODE 0 = true →
    d < s.nDies →
    1 ≤ kind →
    kind ≤ 12 →
    Runs (.test kind d i) s (fun u =>
      if s.notRun kind d i = true then Ends s u ["E", "FAIL"] ∧ u.svc.run = none else u.svc.run = some (.test kind d i) ∧ (u.row kind d i).due = true)) ∧
  (∀ (s : State) (d : Nat),
    s.svc.run = none →
    s.fbit SVC_STATUS_ROM 0 = false →
    s.fbit SVC_STATUS_MODE 0 = true →
    d < s.nDies →
    s.fget DPM_STATUS_STATE d = 0 →
    ((s.row uDie d 0).lost && !(s.row uDie d 0).passed) = false →
    Runs (.testDie d) s (fun u =>
      ∃ l first bad, u.svc.run = some (.die d l first bad))) ∧
  (∀ (s : State) (kind d i : Nat) (far : Bool) (lanes : List (Nat × Nat × Nat)),
    s.svc.run = none →
    s.fbit SVC_STATUS_ROM 0 = false →
    s.fbit SVC_STATUS_MODE 0 = true →
    d < s.nDies →
    kind = uFabric ∨ kind = uHost ∨ kind = uChan ∨ kind = uStack ∨ kind = uLink →
    s.notRun kind d i = false →
    Runs (.loop kind d i far lanes) s (fun u =>
      u.svc.run = some (.loop kind d i far lanes) ∧ (u.row kind d i).due = true ∧ (far = true ∧ kind = uFabric → u.fget LNK_STATUS_UP d = 0))) ∧
  (∀ (s : State) (k d i : Nat),
    s.svc.run = none →
    s.fbit SVC_STATUS_ROM 0 = false →
    s.fbit SVC_STATUS_MODE 0 = true →
    d < s.nDies →
    s.unitExists k d i = true →
    (s.row uDie d 0).lost = false →
    (∀ x, (s.row k d i).passT = some x → x + s.inForce RAS_CFG_HOLDOFF 0 * secNs ≤ s.clk.tNs) →
    Runs (.fence k d i) s (fun u =>
      (u.row k d i).data = 2 ∧ Ends s u ["OK"])) ∧
  (∀ (s : State) (k d i : Nat),
    s.svc.run = none →
    s.fbit SVC_STATUS_ROM 0 = false →
    s.fbit SVC_STATUS_MODE 0 = true →
    d < s.nDies →
    s.unitExists k d i = true →
    (s.row uDie d 0).lost = false →
    Runs (.unfence k d i) s (fun u =>
      u.svc.run = some (.unfence k d i) ∧ (u.row k d i).due = true)) ∧
  (∀ (s : State),
    ∀ d first bad, s.svc.run ≠ some (.die d [] first bad) →
    ∀ k d i, s.svc.run ≠ some (.unfence k d i) →
    Runs (.consoleAbort) s (fun u =>
      u.svc.run = none))

/-- R440, R441, R504, R510, R545, R546, R553, R561: the console. -/
def Obligations.ConsoleStatesResetsAndLine : Prop :=
  (∀ (s : State) (d x : Nat),
    s.svc.run = none →
    s.fbit SVC_STATUS_ROM 0 = false →
    s.fbit SVC_STATUS_MODE 0 = true →
    d < s.nDies →
    x = 0 ∨ x = 2 ∨ x = 3 →
    Runs (.pstate d x) s (fun u =>
      u.fget DPM_CTRL_STATE_REQ d = x ∧ Ends s u ["OK"] ∧ (2 ≤ x ∧ s.dieLost d = false ∧ s.refuseState d = true → Raised u DPM_EVENT_REFUSED d))) ∧
  (∀ (s : State) (code t : Nat),
    s.svc.run = none →
    (s.fbit SVC_STATUS_ROM 0 = false → s.fbit SVC_STATUS_MODE 0 = true) →
    Runs (.resetCold code t) s (fun u =>
      u.fget PWR_STATUS_LAST_RESET 0 = (if s.fbit SEC_STATUS_ERROR 0 = true then 5 else 4) ∧ (∀ p, p < 8 → u.ptnState p = ptnFree) ∧ u.fget SEC_FUSE_OWNER 0 = s.fget SEC_FUSE_OWNER 0 ∧ u.sec.slots = s.sec.slots ∧
      (u.fget SEC_STATUS_ERROR 0 = 1 ∨ (u.fget SEC_STATUS_READY 0 = 1 ∧ u.fget PWR_STATUS_READY 0 = 1)))) ∧
  (∀ (s : State) (t : Nat),
    s.svc.run = none →
    s.fbit SVC_STATUS_ROM 0 = false →
    s.fbit SVC_STATUS_MODE 0 = true →
    Runs (.resetWarm t) s (fun u =>
      u.fget PWR_STATUS_LAST_RESET 0 = 7 ∧ u.fget PWR_STATUS_READY 0 = 1 ∧ (∀ f, f < 16 → u.fget HRG_STATUS_READY f = 0))) ∧
  (∀ (s : State) (d bad t : Nat),
    s.svc.run = none →
    s.fbit SVC_STATUS_ROM 0 = false →
    s.fbit SVC_STATUS_MODE 0 = true →
    d < s.nDies →
    (s.row uDie d 0).lost = false →
    Runs (.resetDie d bad t) s (fun u =>
      (u.row uDie d 0).lost = true ∧ u.fget RAS_DIE_STATE_STATE d = usLOST ∧ Emits s u (.console ["OK"]))) ∧
  (∀ (s : State) (rate : Nat),
    s.svc.run = none →
    Runs (.baud rate) s (fun u =>
      (if baudRates.contains rate = true then u.svc.baudNext = some (rate / 100) ∧ Ends s u ["OK"] else u.svc.baudNext = s.svc.baudNext ∧ Ends s u ["E", "RANGE"]) ∧ u.regs = s.regs)) ∧
  (∀ (s : State) (r : Nat),
    s.svc.baudNext = some r →
    r < 2 ^ 15 →
    Runs (.baudSwitch) s (fun u =>
      u.fget SVC_BAUD_RATE 0 = r ∧ u.svc.baudNext = none ∧ RegsOnly s u [SVC_BAUD_RATE.key 0] ∧ u.out = s.out)) ∧
  (∀ (s : State),
    s.svc.run = none →
    s.fbit SVC_STATUS_ROM 0 = false →
    s.fbit SVC_STATUS_MODE 0 = true →
    Runs (.debugOpen) s (fun u =>
      if s.fbit SEC_STATUS_DEBUG_SEALED 0 = true then Ends s u ["E", "SEALED"] ∧ u.regs = s.regs ∧ u.sec = s.sec else Ends s u ["OK"] ∧ u.sec.keys = [] ∧ u.fget SEC_STATUS_ERROR 0 = 1 ∧ (∀ d, d < s.nDies → (u.lnk d).cak = none))) ∧
  (∀ (s : State),
    Runs (.consoleBreak) s (fun u =>
      u.fget SVC_BAUD_RATE 0 = 0x480 ∧ u.svc.baudNext = none ∧ Raised u SVC_EVENT_BREAK 0 ∧ u.svc.run = s.svc.run)) ∧
  (∀ (s : State),
    Runs (.aonHeartbeat) s (fun u =>
      u.svc.beat = !s.svc.beat ∧ u.regs = s.regs ∧ (s.fbit SVC_LEVEL_FORCED 0 = true → u.out = s.out)))

/-- R10 to R12, R310, R563, R564: register accesses. -/
def Obligations.RegisterAccess : Prop :=
  (∀ (s : State) (via : Via) (w : Nat),
    MayWrite via (PWR_SEL_DOMAIN.at_ 0) s →
    Runs (.registerWrite via (PWR_SEL_DOMAIN.at_ 0) w) s (fun u =>
      u.fget PWR_SEL_DOMAIN 0 = w % 64 ∧ RegsOnly s u [PWR_SEL_DOMAIN.key 0] ∧ u.out = s.out)) ∧
  (∀ (s : State) (via : Via) (w : Nat),
    MayWrite via (PWR_EVENT_DIP.at_ 0) s →
    Runs (.registerWrite via (PWR_EVENT_DIP.at_ 0) w) s (fun u =>
      u.fget PWR_EVENT_DIP 0 = (if w.testBit 0 then 0 else s.fget PWR_EVENT_DIP 0 % 2))) ∧
  (∀ (s : State) (via : Via) (off w i k : Nat) (r : Reg),
    off % 4 = 0 →
    off < bar2 →
    MayWrite via off s →
    s.reg? off = some (r, i, k) →
    r.flds.all (fun f => f.acc == .ro) = true →
    Runs (.registerWrite via off w) s (fun u =>
      RegsOnly s u [])) ∧
  (∀ (s : State) (via : Via) (off w : Nat),
    off % 4 ≠ 0 →
    Runs (.registerWrite via off w) s (fun u =>
      u = s)) ∧
  (∀ (s : State) (x off : Nat) (write : Bool),
    off < bar2 →
    s.mapped off = false →
    Runs (.unmappedAccess (.pf x) off write) s (fun u =>
      Raised u SYS_EVENT_UNMAPPED 0 ∧ u.fget SYS_BAD_ADDR_OFFSET 0 = off % 2 ^ 26 ∧ u.fget SYS_BAD_ADDR_PORT 0 = x % 2 ∧ (write = false → Emits s u (.regValue off 0)))) ∧
  (∀ (s : State) (x off : Nat) (write : Bool),
    off < bar2 →
    Runs (.badAccess (.pf x) off write) s (fun u =>
      Raised u SYS_EVENT_BAD_ACCESS 0 ∧ u.fget SYS_BAD_ADDR_OFFSET 0 = off % 2 ^ 26 ∧ u.fget SYS_BAD_ADDR_PORT 0 = x % 2 ∧ (write = false → Emits s u (.regValue off 0)))) ∧
  (∀ (s : State) (f off : Nat) (write : Bool),
    off < bar2 →
    s.mapped off = false →
    Runs (.unmappedAccess (.vf f) off write) s (fun u =>
      u.fget HRG_VIOLATIONS_COUNT f = min (s.fget HRG_VIOLATIONS_COUNT f + 1) (2 ^ (HRG_VIOLATIONS_COUNT).w - 1) ∧ (write = false → Emits s u (.regValue off 0)) ∧ u.fget SYS_BAD_ADDR_OFFSET 0 = s.fget SYS_BAD_ADDR_OFFSET 0)) ∧
  (∀ (s : State) (x off : Nat) (write : Bool),
    bar2 + 8 * 65536 ≤ off →
    Runs (.badAccess (.pf x) off write) s (fun u =>
      u.regs = s.regs ∧ (write = false → SentBy s u [.regValue off 0]) ∧ (write = true → u.out = s.out)))

/-- R552, R559: the TAP. The code of the manufacturer and what an open scan chain shifts out are free. -/
def Obligations.TestAccessPort : Prop :=
  (∀ (s : State),
    Runs (.idcode) s (fun u =>
      SentBy s u [.tap 1 ((List.range 32).map (fun n => s.idcodeWord.testBit n))] ∧ u.svc.tapIr = 1 ∧ u.svc.drive = .normal ∧ u.regs = s.regs)) ∧
  (∀ (s : State) (captured din : List Bool),
    Runs (.samplePreload captured din) s (fun u =>
      SentBy s u [.tap 2 (captured)] ∧ u.svc.tapIr = 2 ∧ u.svc.drive = .normal ∧ u.regs = s.regs ∧ u.svc.boundary = din)) ∧
  (∀ (s : State) (captured din : List Bool),
    Runs (.extest captured din) s (fun u =>
      SentBy s u [.tap 3 (captured)] ∧ u.svc.tapIr = 3 ∧ u.svc.drive = (if s.fbit SVC_STATUS_MODE 0 = true then .boundary else .normal) ∧ u.regs = s.regs ∧ u.svc.boundary = din)) ∧
  (∀ (s : State) (captured din : List Bool),
    Runs (.clamp captured din) s (fun u =>
      SentBy s u [.tap 4 (if s.fbit SVC_STATUS_MODE 0 = true then (false :: din).take din.length else captured)] ∧ u.svc.tapIr = 4 ∧ u.svc.drive = (if s.fbit SVC_STATUS_MODE 0 = true then .boundary else .normal) ∧ u.regs = s.regs ∧ u.svc.boundary = (if s.fbit SVC_STATUS_MODE 0 = true then s.svc.boundary else din))) ∧
  (∀ (s : State) (captured din : List Bool),
    Runs (.highz captured din) s (fun u =>
      SentBy s u [.tap 5 (if s.fbit SVC_STATUS_MODE 0 = true then (false :: din).take din.length else captured)] ∧ u.svc.tapIr = 5 ∧ u.svc.drive = (if s.fbit SVC_STATUS_MODE 0 = true then .highz else .normal) ∧ u.regs = s.regs ∧ u.svc.boundary = (if s.fbit SVC_STATUS_MODE 0 = true then s.svc.boundary else din))) ∧
  (∀ (s : State) (din : List Bool),
    Runs (.bypass din) s (fun u =>
      SentBy s u [.tap 0xFF ((false :: din).take din.length)] ∧ u.svc.tapIr = 0xFF ∧ u.svc.drive = .normal ∧ u.regs = s.regs ∧ u.svc.boundary = s.svc.boundary)) ∧
  (∀ (s : State) (code : Nat) (din : List Bool),
    0x10 ≤ code →
    code ≤ 0xFE →
    Runs (.internalScan code din) s (fun u =>
      u.svc.tapIr = code ∧ u.svc.drive = .normal ∧ u.regs = s.regs ∧ (s.fbit SEC_STATUS_DEBUG_SEALED 0 = true → SentBy s u [.tap code ((false :: din).take din.length)]))) ∧
  (∀ (s : State),
    Runs (.testLogicReset) s (fun u =>
      u.svc.tapIr = 1 ∧ u.svc.drive = .normal ∧ u.regs = s.regs ∧ u.out = s.out ∧ u.svc.boundary = s.svc.boundary))

/-- R312, R324, R325, R424, R434, R488: the general rules of descriptors, for every opcode. -/
def Obligations.DescriptorsAreGated : Prop :=
  (∀ (c : Instr) (s : State) (q : Desc) (op : Nat),
    descOf c = some (q, op) →
    Live q s →
    s.orderWait q = false →
    s.fbit SEC_STATUS_ERROR 0 = true →
    2 ≤ op →
    Runs (c) s (fun u =>
      Posts s u q op stNOT_READY 0 0 ∧ Idle s u)) ∧
  (∀ (c : Instr) (s : State) (q : Desc) (op : Nat),
    descOf c = some (q, op) →
    Live q s →
    s.orderWait q = false →
    s.fbit SEC_STATUS_ERROR 0 = false ∨ op ≤ 1 →
    s.ptnState q.part = ptnRemoving →
    Runs (c) s (fun u =>
      Posts s u q op stFENCED 0 0 ∧ Idle s u)) ∧
  (∀ (c : Instr) (s : State) (q : Desc) (op : Nat),
    descOf c = some (q, op) →
    Live q s →
    s.orderWait q = false →
    s.fbit SEC_STATUS_ERROR 0 = false ∨ op ≤ 1 →
    s.ptnState q.part = ptnOrphaned →
    4 ≤ op →
    op ≠ 0x14 →
    op ≠ 0x70 →
    op ≠ 0x73 →
    Runs (c) s (fun u =>
      Posts s u q op stFENCED 0 0 ∧ Idle s u)) ∧
  (∀ (c : Instr) (s : State) (q : Desc) (op : Nat),
    descOf c = some (q, op) →
    Live q s →
    s.orderWait q = false →
    s.fbit SEC_STATUS_ERROR 0 = false ∨ op ≤ 1 →
    s.ptnState q.part ≠ ptnRemoving →
    (s.ptnState q.part = ptnOrphaned → op ≤ 3 ∨ op = 0x14 ∨ op = 0x70 ∨ op = 0x73) →
    q.resv = true →
    Runs (c) s (fun u =>
      Posts s u q op stMALFORMED 0 0 ∧ Idle s u)) ∧
  (∀ (c : Instr) (s : State) (q : Desc) (op : Nat),
    descOf c = some (q, op) →
    Live q s →
    s.orderWait q = false →
    s.fbit SEC_STATUS_ERROR 0 = false →
    s.ptnState q.part = ptnFree ∨ s.ptnState q.part = ptnOpen →
    q.resv = false →
    4 ≤ op →
    op < 0x10 ∨ 0x1F < op →
    Runs (c) s (fun u =>
      Posts s u q op stNOT_READY 0 0 ∧ Idle s u)) ∧
  (∀ (c : Instr) (s : State) (q : Desc) (op : Nat),
    descOf c = some (q, op) →
    Live q s →
    s.orderWait q = false →
    s.fbit SEC_STATUS_ERROR 0 = false ∨ op ≤ 1 →
    s.ptnState q.part = ptnSealed →
    q.resv = false →
    q.readFail = true →
    Runs (c) s (fun u =>
      Posts s u q op stACCESS 0 0 ∧ Idle s u))

/-- R310, R313: the view of a VF. `vfWriteOf` and `vfReadOf` list the commands; the fields of a violation are its third clause. -/
def Obligations.VfAccessesOutsideTheView : Prop :=
  (∀ (c : Instr) (f off : Nat) (s : State),
    c.wf = true →
    vfWriteOf c = some (f, off) →
    s.vfView f off ≠ 2 →
    ∃ t, exec c s = .next ((s.advanceTo t).violation f)) ∧
  (∀ (c : Instr) (f off : Nat) (s : State),
    c.wf = true →
    vfReadOf c = some (f, off) →
    s.vfView f off = 0 →
    ∃ t, exec c s = .next (((s.advanceTo t).violation f).emit (.regValue off 0))) ∧
  (∀ (f : Nat) (s : State),
    (s.violation f).fget HRG_VIOLATIONS_COUNT f = min (s.fget HRG_VIOLATIONS_COUNT f + 1) (2 ^ HRG_VIOLATIONS_COUNT.w - 1) ∧
    Raised (s.violation f) HRG_FEVENT_VIOLATION f ∧ RegsOnly s (s.violation f) [HRG_VIOLATIONS_COUNT.key f, HRG_FEVENT_VIOLATION.key f] ∧ (s.violation f).out = s.out)

/-- R12: RWL fields. The lock of an offset is the lock of the partition its register belongs to, which for a die window is the owner of the die. -/
def Obligations.LockedFieldsKeepTheirValue : Prop :=
  (∀ (s : State) (via : Via) (off w n k : Nat) (r : Reg) (f : FldRow),
    MayWrite via off s →
    off < bar2 →
    s.reg? off = some (r, n, k) →
    f ∈ r.flds →
    f.acc = .rwl →
    s.lockedAt off = true →
    Runs (.registerWrite via off w) s (fun u =>
      u.fget (f.fld.nth k) n = s.fget (f.fld.nth k) n)) ∧
  (∀ (s : State) (p v : Nat),
    s.locked p = true →
    Runs (.ptnDiesWrite p v) s (fun u =>
      u.fget PTN_DIES_DIES p = s.fget PTN_DIES_DIES p)) ∧
  (∀ (s : State) (p n slots t : Nat) (via : Via),
    s.locked p = true →
    Runs (.tikPeriodWrite p n slots t via) s (fun u =>
      u.fget TIK_PERIOD_N p = s.fget TIK_PERIOD_N p ∧ u.fget TIK_PERIOD_SLOTS p = s.fget TIK_PERIOD_SLOTS p)) ∧
  (∀ (s : State) (via : Via) (d : Nat),
    s.dieLocked d = true →
    Runs (.pfxEnable d via) s (fun u =>
      u.fget PFX_CTRL_EN d = s.fget PFX_CTRL_EN d)) ∧
  (∀ (s : State) (via : Via) (d : Nat) (en : Bool) (luns : List LunPage),
    s.dieLocked d = true →
    Runs (.ftlEnable d en luns via) s (fun u =>
      u.fget FTL_CTRL_EN d = s.fget FTL_CTRL_EN d)) ∧
  (∀ (s : State) (p : Nat),
    s.locked p = true ↔ (s.ptnState p = ptnSealed ∨ s.ptnState p = ptnRemoving ∨ s.ptnState p = ptnOrphaned)) ∧
  (∀ (s : State) (via : Via) (d w : Nat),
    MayWrite via (NRT_CFG_UDP_PORT.at_ d) s →
    d < s.nDies →
    s.lockedAt (NRT_CFG_UDP_PORT.at_ d) = false →
    Runs (.registerWrite via (NRT_CFG_UDP_PORT.at_ d) w) s (fun u =>
      u.fget NRT_CFG_UDP_PORT d = NRT_CFG_UDP_PORT.bitsIn w))

/-- R418: SWEEP_SET of a latent context. -/
def Obligations.LatentSweepDescriptorsKeepTheirG : Prop :=
  ∀ (s : State) (q : Desc) (ctx : Nat) (b : SweepDesc) (c : Ctx),
    Open q s →
    Live q s →
    s.ctx? q.part ctx = some c →
    c.latent = true →
    b.g ≠ c.g →
    Runs (.sweepSet q ctx b) s (fun u =>
      Posts s u q 0x30 stMALFORMED 0 0 ∧ u.ctx? q.part ctx = some c)

/-- R76: the start of an append. `MapOpen` says that the sequence is found and no earlier edit of it waits. -/
def Obligations.AppendsStartAtTheLength : Prop :=
  ∀ (s : State) (q : Desc) (seq k j : Nat) (e : SeqSlot) (layer pos : Nat) (toks : List Nat) (data : List (List Nat)),
    Open q s →
    Live q s →
    MapOpen q seq k j e s →
    pos ≠ e.len layer →
    Runs (.mapAppend q seq layer pos toks data) s (fun u =>
      Posts s u q 0x21 stMALFORMED 0 0 ∧ u.pfxs = s.pfxs ∧ u.csms = s.csms ∧ u.ftls = s.ftls)

/-- The queue of waiting commands (R82 orders the edits it carries). The step on an empty queue is the choice of log entry 1. -/
def Obligations.AStepRunsTheFrontCommand : Prop :=
  (∀ (c : Instr) (l : List Instr) (s : State), step { s with pending := c :: l } = exec c { s with pending := l }) ∧
  (∀ s : State, s.pending = [] → ∃ t, step s = .next t ∧ t.pending = [] ∧ t.out = s.out ∧ (∀ a, a ≠ .clk → a ≠ .regs .tik → s.agree t a))

/-- No command of the table is without an effect in the spec, so none stops. -/
def Obligations.EveryCommandCompletes : Prop :=
  ∀ (c : Instr) (s : State), ∃ t, exec c s = .next t ∧ t.pending = s.pending ∧ t.variant = s.variant

/-- The invariant of the model, from every state that has it. The canonical form is the model's own. -/
def Obligations.StepsKeepTheInvariant : Prop :=
  ∀ s t : State, s.wf = true → step s = .next t → t.wf = true ∧ Sent s t ∧ s.free ≤ t.free ∧ t.pending = s.pending.tail ∧ t.variant = s.variant

/-- The frames of all commands at once: `touches` names what a command may change. The register blocks are those of R562. -/
def Obligations.CommandsTouchOnlyTheirParts : Prop :=
  ∀ (c : Instr) (s t : State) (a : Area), exec c s = .next t → a ∉ touches c → s.agree t a

/-- Reset (R10, R312). Where the manual gives no reset value the value is that of log entry 3. -/
def Obligations.ResetState : Prop :=
  (∀ F n, State.reset.fget F n = F.rst) ∧ (∀ p, State.reset.ptnState p = ptnFree) ∧ State.reset.pending = [] ∧ State.reset.out = [] ∧
  State.reset.hbm = [] ∧ State.reset.wf = true

/-- R3: the dies of a package and its host ports. -/
def Obligations.PortsSitOnTheirDies : Prop :=
  ∀ (s : State),
    s.hostDie 0 = 0 ∧ s.hostDie 1 = s.nDies / 2 ∧
    (s.variant = .n820 → s.nDies = 2 ∧ s.hostDie 1 = 1) ∧ (s.variant = .n840 → s.nDies = 4 ∧ s.hostDie 1 = 2) ∧ (s.variant = .n880 → s.nDies = 8 ∧ s.hostDie 1 = 4) ∧
    (∀ d, d < 8 → ((s.reg? (CSM_CTRL_EN.at_ d)).isSome = true ↔ d < s.nDies))

/-- R88: the check of a hit. -/
def Obligations.TreeHitsAreVerified : Prop :=
  (∀ (s : State) (d h model tick k : Nat) (tokens : List Nat) (e : TreeEnt) (c : Chunk),
    s.treeFind d h = some (k, e) →
    s.chunk? d e.chunk = some c →
    s.fbit PFX_CTRL_VERIFY d = true →
    c.model = model ∧ c.tokens = tokens →
    (s.treeSearch d h model tick tokens).1 = some e.chunk) ∧
  (∀ (s : State) (d h model tick k : Nat) (tokens : List Nat) (e : TreeEnt) (c : Chunk),
    s.treeFind d h = some (k, e) →
    s.chunk? d e.chunk = some c →
    s.fbit PFX_CTRL_VERIFY d = true →
    c.model ≠ model ∨ c.tokens ≠ tokens →
    (s.treeSearch d h model tick tokens).1 = none ∧
    (s.treeSearch d h model tick tokens).2.fget PFX_COLLIDES_COUNT d = min (s.fget PFX_COLLIDES_COUNT d + 1) (2 ^ PFX_COLLIDES_COUNT.w - 1) ∧
    Raised (s.treeSearch d h model tick tokens).2 PFX_EVENT_COLLIDE d ∧ (s.treeSearch d h model tick tokens).2.pfxs = s.pfxs) ∧
  (∀ (s : State) (d h model tick k : Nat) (tokens : List Nat) (e : TreeEnt),
    s.treeFind d h = some (k, e) →
    s.fbit PFX_CTRL_VERIFY d = false →
    (s.treeSearch d h model tick tokens).1 = some e.chunk) ∧
  (∀ (d : Nat),
    State.reset.fbit PFX_CTRL_VERIFY d = true)

/-- R51: the debt of late sweeps. `chargeDebt` is what the delivery of the last result of a sweep does with its lateness. -/
def Obligations.LateSweepsChargeDebt : Prop :=
  (∀ (s : State) (d p L : Nat),
    1 ≤ L →
    s.inForce TIK_DEBT_MAX_DEBT_MAX p < 2 ^ 24 →
    (s.chargeDebt d p L).fget TIK_DEBT_DEBT d = min (s.fget TIK_DEBT_DEBT d + (s.inForce TIK_ADMIT_DEBT_GAIN p * L + 3) / 4) (s.inForce TIK_DEBT_MAX_DEBT_MAX p)) ∧
  (∀ (s : State) (d p : Nat),
    s.chargeDebt d p 0 = s) ∧
  (∀ (p : Nat),
    State.reset.inForce TIK_DEBT_MAX_DEBT_MAX p = 160000 ∧ State.reset.inForce TIK_ADMIT_DEBT_GAIN p = 4)

/-- R13: values outside a field's range. The premises leave out the registers that R13 lets give another outcome: those with fields that act, those held while a function runs, and the bounds of the adaptive voltage loop (R316, R454, R525, R574). -/
def Obligations.ValuesOutOfRangeAreDropped : Prop :=
  ∀ (s : State) (via : Via) (off w i k : Nat) (r : Reg) (f : FldRow),
    off % 4 = 0 →
    off < bar2 →
    w < 2 ^ 32 →
    MayWrite via off s →
    s.reg? off = some (r, i, k) →
    f ∈ r.flds →
    f.acc = .rw →
    takenFlds.contains f.fld = false →
    actFlds.all (fun F => F.off != r.off) = true →
    s.writeHeld r i w = false →
    avsRefused r w = false →
    (f.fld.nth k).bitsIn w < f.min ∨ f.max < (f.fld.nth k).bitsIn w →
    Runs (.registerWrite via off w) s (fun u =>
      u.fget (f.fld.nth k) i = s.fget (f.fld.nth k) i ∧ ((∀ g, via ≠ .vf g) → Raised u SYS_EVENT_BAD_FIELD 0 ∧ u.fget SYS_BAD_ADDR_OFFSET 0 = off))
end

