-- ==== Sys2Proof/Laws/Tables.lean ====
section
/-!
SUPPORT. Sys2Proof/Laws/Tables.lean: the laws of the sparse tables: what reading after an update gives, and that every
update keeps the canonical form.
-/
namespace Sys2Proof.Machine
set_option Elab.async false

variable {α : Type}

/-! ### Reading after an update -/

theorem tget_tput (t : List (Nat × α)) (k j : Nat) (v : α) (h : trising t = true) :
    tget (tput t k v) j = if k = j then some v else tget t j := by
  induction t with
  | nil => simp [tput, tget]
  | cons e r ih =>
    have hr : trising r = true := by simp only [trising, Bool.and_eq_true] at h; exact h.2
    simp only [tput]
    split
    · simp [tget]
    · split
      · rename_i h1 h2
        subst h2
        by_cases hj : e.1 = j <;> simp [tget, hj]
      · rename_i h1 h2
        by_cases hj : e.1 = j
        · subst hj; simp [tget, Ne.symm h2]
        · simp [tget, hj, ih hr]

theorem tget_tput_self (t : List (Nat × α)) (k : Nat) (v : α) : tget (tput t k v) k = some v := by
  induction t with
  | nil => simp [tput, tget]
  | cons e r ih =>
    simp only [tput]
    split
    · simp [tget]
    · split
      · simp [tget]
      · rename_i h1 h2; simp [tget, h2, ih]

theorem tget_tput_other (t : List (Nat × α)) {k j : Nat} (v : α) (h : k ≠ j) : tget (tput t k v) j = tget t j := by
  induction t with
  | nil => simp [tput, tget, h]
  | cons e r ih =>
    simp only [tput]
    split
    · simp [tget, h]
    · split
      · rename_i h1 h2; subst h2; simp [tget, h]
      · by_cases hj : e.1 = j <;> simp [tget, hj, ih]

theorem tget_tdel_self (t : List (Nat × α)) (k : Nat) : tget (tdel t k) k = none := by
  induction t with
  | nil => rfl
  | cons e r ih =>
    simp only [tdel]
    split
    · exact ih
    · rename_i h; simp [tget, h, ih]

theorem tget_tdel_other (t : List (Nat × α)) {k j : Nat} (h : k ≠ j) : tget (tdel t k) j = tget t j := by
  induction t with
  | nil => rfl
  | cons e r ih =>
    simp only [tdel]
    split
    · rename_i h1; subst h1; simp [tget, h, ih]
    · by_cases hj : e.1 = j <;> simp [tget, hj, ih]

theorem dget_dset_self [DecidableEq α] (t : List (Nat × α)) (d : α) (k : Nat) (v : α) : dget (dset t d k v) d k = v := by
  unfold dset dget
  split
  · rename_i h; rw [tget_tdel_self]; simp [h]
  · rw [tget_tput_self]; rfl

theorem dget_dset_other [DecidableEq α] (t : List (Nat × α)) (d d' : α) {k j : Nat} (v : α) (h : k ≠ j) :
    dget (dset t d k v) d' j = dget t d' j := by
  unfold dset dget
  split
  · rw [tget_tdel_other _ h]
  · rw [tget_tput_other _ _ h]

/-! ### The canonical form -/

theorem trising_tail {e : Nat × α} {r : List (Nat × α)} (h : trising (e :: r) = true) : trising r = true := by
  simp only [trising, Bool.and_eq_true] at h; exact h.2

/-- Every key of a rising table is above the bound `b`. -/
theorem trising_cons (e : Nat × α) (r : List (Nat × α)) :
    trising (e :: r) = true ↔ (∀ x ∈ r, e.1 < x.1) ∧ trising r = true := by
  constructor
  · intro h
    refine ⟨?_, trising_tail h⟩
    induction r generalizing e with
    | nil => simp
    | cons f r ih =>
      have h1 : e.1 < f.1 := by simp only [trising, Bool.and_eq_true, decide_eq_true_eq] at h; exact h.1
      intro x hx
      rcases List.mem_cons.1 hx with hx | hx
      · subst hx; exact h1
      · exact Nat.lt_trans h1 (ih f (trising_tail h) x hx)
  · rintro ⟨h1, h2⟩
    cases r with
    | nil => rfl
    | cons f r =>
      show (decide (e.1 < f.1) && trising (f :: r)) = true
      rw [h2, Bool.and_true, decide_eq_true_eq]
      exact h1 f (List.mem_cons_self ..)

theorem mem_tput (t : List (Nat × α)) (k : Nat) (v : α) (x : Nat × α) (h : x ∈ tput t k v) : x = (k, v) ∨ x ∈ t := by
  induction t with
  | nil => simpa [tput] using h
  | cons e r ih =>
    simp only [tput] at h
    split at h
    · simpa using h
    · split at h
      · rcases List.mem_cons.1 h with h | h
        · exact .inl h
        · exact .inr (List.mem_cons_of_mem _ h)
      · rcases List.mem_cons.1 h with h | h
        · subst h; exact .inr (List.mem_cons_self ..)
        · rcases ih h with h | h
          · exact .inl h
          · exact .inr (List.mem_cons_of_mem _ h)

theorem trising_tput (t : List (Nat × α)) (k : Nat) (v : α) (h : trising t = true) : trising (tput t k v) = true := by
  induction t with
  | nil => rfl
  | cons e r ih =>
    have h' := (trising_cons e r).1 h
    simp only [tput]
    split
    · rename_i h1
      refine (trising_cons _ _).2 ⟨?_, h⟩
      intro x hx
      rcases List.mem_cons.1 hx with hx | hx
      · subst hx; exact h1
      · exact Nat.lt_trans h1 (h'.1 x hx)
    · split
      · rename_i h1 h2
        refine (trising_cons _ _).2 ⟨?_, h'.2⟩
        intro x hx
        have := h'.1 x hx
        simpa [← h2] using this
      · rename_i h1 h2
        refine (trising_cons _ _).2 ⟨?_, ih h'.2⟩
        intro x hx
        rcases mem_tput _ _ _ _ hx with hx | hx
        · subst hx; omega
        · exact h'.1 x hx

theorem mem_tdel (t : List (Nat × α)) (k : Nat) (x : Nat × α) (h : x ∈ tdel t k) : x ∈ t := by
  induction t with
  | nil => simp [tdel] at h
  | cons e r ih =>
    simp only [tdel] at h
    split at h
    · exact List.mem_cons_of_mem _ (ih h)
    · rcases List.mem_cons.1 h with h | h
      · subst h; exact List.mem_cons_self ..
      · exact List.mem_cons_of_mem _ (ih h)

theorem trising_tdel (t : List (Nat × α)) (k : Nat) (h : trising t = true) : trising (tdel t k) = true := by
  induction t with
  | nil => rfl
  | cons e r ih =>
    have h' := (trising_cons e r).1 h
    simp only [tdel]
    split
    · exact ih h'.2
    · exact (trising_cons _ _).2 ⟨fun x hx => h'.1 x (mem_tdel _ _ _ hx), ih h'.2⟩

theorem trising_dset [DecidableEq α] (t : List (Nat × α)) (d : α) (k : Nat) (v : α) (h : trising t = true) :
    trising (dset t d k v) = true := by
  unfold dset
  split
  · exact trising_tdel _ _ h
  · exact trising_tput _ _ _ h

theorem mem_tfilter (p : Nat → α → Bool) (t : List (Nat × α)) (x : Nat × α) (h : x ∈ tfilter p t) :
    x ∈ t ∧ p x.1 x.2 = true := by
  induction t with
  | nil => simp [tfilter] at h
  | cons e r ih =>
    simp only [tfilter] at h
    split at h
    · rename_i hp
      rcases List.mem_cons.1 h with h | h
      · subst h; exact ⟨List.mem_cons_self .., hp⟩
      · exact ⟨List.mem_cons_of_mem _ (ih h).1, (ih h).2⟩
    · exact ⟨List.mem_cons_of_mem _ (ih h).1, (ih h).2⟩

theorem trising_tfilter (p : Nat → α → Bool) (t : List (Nat × α)) (h : trising t = true) : trising (tfilter p t) = true := by
  induction t with
  | nil => rfl
  | cons e r ih =>
    have h' := (trising_cons e r).1 h
    simp only [tfilter]
    split
    · exact (trising_cons _ _).2 ⟨fun x hx => h'.1 x (mem_tfilter _ _ _ hx).1, ih h'.2⟩
    · exact ih h'.2

theorem mem_tmap (f : Nat → α → α) (t : List (Nat × α)) (x : Nat × α) (h : x ∈ tmap f t) : ∃ y ∈ t, x.1 = y.1 := by
  induction t with
  | nil => simp [tmap] at h
  | cons e r ih =>
    simp only [tmap] at h
    rcases List.mem_cons.1 h with h | h
    · exact ⟨e, List.mem_cons_self .., by rw [h]⟩
    · obtain ⟨y, hy, hk⟩ := ih h
      exact ⟨y, List.mem_cons_of_mem _ hy, hk⟩

theorem trising_tmap (f : Nat → α → α) (t : List (Nat × α)) (h : trising t = true) : trising (tmap f t) = true := by
  induction t with
  | nil => rfl
  | cons e r ih =>
    have h' := (trising_cons e r).1 h
    simp only [tmap]
    refine (trising_cons _ _).2 ⟨?_, ih h'.2⟩
    intro x hx
    obtain ⟨y, hy, hk⟩ := mem_tmap _ _ _ hx
    simpa [hk] using h'.1 y hy

variable [DecidableEq α]

theorem dwf_iff (d : α) (t : List (Nat × α)) : dwf d t = true ↔ trising t = true ∧ ∀ x ∈ t, x.2 ≠ d := by
  simp [dwf]

theorem dwf_dset (t : List (Nat × α)) (d : α) (k : Nat) (v : α) (h : dwf d t = true) : dwf d (dset t d k v) = true := by
  rw [dwf_iff] at *
  refine ⟨trising_dset _ _ _ _ h.1, ?_⟩
  intro x hx
  unfold dset at hx
  split at hx
  · exact h.2 x (mem_tdel _ _ _ hx)
  · rename_i hv
    rcases mem_tput _ _ _ _ hx with hx | hx
    · subst hx; exact hv
    · exact h.2 x hx

theorem dwf_tfilter (p : Nat → α → Bool) (d : α) (t : List (Nat × α)) (h : dwf d t = true) : dwf d (tfilter p t) = true := by
  rw [dwf_iff] at *
  exact ⟨trising_tfilter _ _ h.1, fun x hx => h.2 x (mem_tfilter _ _ _ hx).1⟩

theorem dwf_tdel (d : α) (t : List (Nat × α)) (k : Nat) (h : dwf d t = true) : dwf d (tdel t k) = true := by
  rw [dwf_iff] at *
  exact ⟨trising_tdel _ _ h.1, fun x hx => h.2 x (mem_tdel _ _ _ hx)⟩

theorem dwf_dmap (d : α) (f : Nat → α → α) (t : List (Nat × α)) (h : dwf d t = true) : dwf d (dmap d f t) = true := by
  rw [dwf_iff] at *
  refine ⟨trising_tfilter _ _ (trising_tmap _ _ h.1), ?_⟩
  intro x hx
  simpa using (mem_tfilter _ _ _ hx).2

/-- Two default-valued tables in canonical form that read alike are equal. -/
theorem dwf_ext (d : α) (a b : List (Nat × α)) (ha : dwf d a = true) (hb : dwf d b = true)
    (h : ∀ k, dget a d k = dget b d k) : a = b := by
  have low : ∀ (t : List (Nat × α)) (n : Nat), (∀ x ∈ t, n < x.1) → tget t n = none := by
    intro t
    induction t with
    | nil => intros; rfl
    | cons e r ih =>
      intro n hn
      have h1 : e.1 ≠ n := Nat.ne_of_gt (hn e (List.mem_cons_self ..))
      simp [tget, h1, ih n (fun x hx => hn x (List.mem_cons_of_mem _ hx))]
  induction a generalizing b with
  | nil =>
    cases b with
    | nil => rfl
    | cons e r =>
      have := h e.1
      have hb' := ((dwf_iff _ _).1 hb).2 e (List.mem_cons_self ..)
      simp [dget, tget] at this
      exact absurd this.symm hb'
  | cons e r ih =>
    have ha' := (dwf_iff _ _).1 ha
    cases b with
    | nil =>
      have := h e.1
      simp [dget, tget] at this
      exact absurd this (ha'.2 e (List.mem_cons_self ..))
    | cons f q =>
      have hb' := (dwf_iff _ _).1 hb
      have ra := (trising_cons e r).1 ha'.1
      have rb := (trising_cons f q).1 hb'.1
      have hk : e.1 = f.1 := by
        rcases Nat.lt_trichotomy e.1 f.1 with g | g | g
        · have := h e.1
          have z : tget (f :: q) e.1 = none := low _ _ (by
            intro x hx
            rcases List.mem_cons.1 hx with hx | hx
            · subst hx; exact g
            · exact Nat.lt_trans g (rb.1 x hx))
          simp [dget, z] at this
          simp [tget] at this
          exact absurd this (ha'.2 e (List.mem_cons_self ..))
        · exact g
        · have := h f.1
          have z : tget (e :: r) f.1 = none := low _ _ (by
            intro x hx
            rcases List.mem_cons.1 hx with hx | hx
            · subst hx; exact g
            · exact Nat.lt_trans g (ra.1 x hx))
          simp [dget, z] at this
          simp [tget] at this
          exact absurd this.symm (hb'.2 f (List.mem_cons_self ..))
      have hv : e.2 = f.2 := by
        have := h e.1
        simpa [dget, tget, hk] using this
      have he : e = f := Prod.ext hk hv
      subst he
      congr 1
      refine ih q ?_ ?_ ?_
      · exact (dwf_iff _ _).2 ⟨ra.2, fun x hx => ha'.2 x (List.mem_cons_of_mem _ hx)⟩
      · exact (dwf_iff _ _).2 ⟨rb.2, fun x hx => hb'.2 x (List.mem_cons_of_mem _ hx)⟩
      · intro k
        have := h k
        by_cases g : e.1 = k
        · subst g
          rw [dget, dget, low r _ ra.1, low q _ rb.1]
        · simpa [dget, tget, g] using this

end Sys2Proof.Machine
end

