-- ==== Sys2Proof/Laws/State.lean ====
section
/-!
SUPPORT. Sys2Proof/Laws/State.lean: one lemma per field per update of the state, and what reading a register field, a partition
record or a die record after an update gives.
-/
namespace Sys2Proof.Machine

/-! ### After `fset` -/
@[simp] theorem State.fset_pending (s : State) (F : Fld) (i v : Nat) : (s.fset F i v).pending = s.pending := rfl
@[simp] theorem State.fset_out (s : State) (F : Fld) (i v : Nat) : (s.fset F i v).out = s.out := rfl
@[simp] theorem State.fset_free (s : State) (F : Fld) (i v : Nat) : (s.fset F i v).free = s.free := rfl
@[simp] theorem State.fset_variant (s : State) (F : Fld) (i v : Nat) : (s.fset F i v).variant = s.variant := rfl
@[simp] theorem State.fset_force (s : State) (F : Fld) (i v : Nat) : (s.fset F i v).force = s.force := rfl
@[simp] theorem State.fset_evNew (s : State) (F : Fld) (i v : Nat) : (s.fset F i v).evNew = s.evNew := rfl
@[simp] theorem State.fset_clk (s : State) (F : Fld) (i v : Nat) : (s.fset F i v).clk = s.clk := rfl
@[simp] theorem State.fset_parts (s : State) (F : Fld) (i v : Nat) : (s.fset F i v).parts = s.parts := rfl
@[simp] theorem State.fset_fns (s : State) (F : Fld) (i v : Nat) : (s.fset F i v).fns = s.fns := rfl
@[simp] theorem State.fset_csms (s : State) (F : Fld) (i v : Nat) : (s.fset F i v).csms = s.csms := rfl
@[simp] theorem State.fset_pfxs (s : State) (F : Fld) (i v : Nat) : (s.fset F i v).pfxs = s.pfxs := rfl
@[simp] theorem State.fset_stgs (s : State) (F : Fld) (i v : Nat) : (s.fset F i v).stgs = s.stgs := rfl
@[simp] theorem State.fset_ftls (s : State) (F : Fld) (i v : Nat) : (s.fset F i v).ftls = s.ftls := rfl
@[simp] theorem State.fset_nrts (s : State) (F : Fld) (i v : Nat) : (s.fset F i v).nrts = s.nrts := rfl
@[simp] theorem State.fset_wkts (s : State) (F : Fld) (i v : Nat) : (s.fset F i v).wkts = s.wkts := rfl
@[simp] theorem State.fset_lnks (s : State) (F : Fld) (i v : Nat) : (s.fset F i v).lnks = s.lnks := rfl
@[simp] theorem State.fset_sec (s : State) (F : Fld) (i v : Nat) : (s.fset F i v).sec = s.sec := rfl
@[simp] theorem State.fset_pmcs (s : State) (F : Fld) (i v : Nat) : (s.fset F i v).pmcs = s.pmcs := rfl
@[simp] theorem State.fset_ras (s : State) (F : Fld) (i v : Nat) : (s.fset F i v).ras = s.ras := rfl
@[simp] theorem State.fset_pwr (s : State) (F : Fld) (i v : Nat) : (s.fset F i v).pwr = s.pwr := rfl
@[simp] theorem State.fset_svc (s : State) (F : Fld) (i v : Nat) : (s.fset F i v).svc = s.svc := rfl
@[simp] theorem State.fset_hbm (s : State) (F : Fld) (i v : Nat) : (s.fset F i v).hbm = s.hbm := rfl

/-! ### After `fput` -/
@[simp] theorem State.fput_pending (s : State) (F : Fld) (i : Nat) (b : Bool) : (s.fput F i b).pending = s.pending := rfl
@[simp] theorem State.fput_out (s : State) (F : Fld) (i : Nat) (b : Bool) : (s.fput F i b).out = s.out := rfl
@[simp] theorem State.fput_free (s : State) (F : Fld) (i : Nat) (b : Bool) : (s.fput F i b).free = s.free := rfl
@[simp] theorem State.fput_variant (s : State) (F : Fld) (i : Nat) (b : Bool) : (s.fput F i b).variant = s.variant := rfl
@[simp] theorem State.fput_force (s : State) (F : Fld) (i : Nat) (b : Bool) : (s.fput F i b).force = s.force := rfl
@[simp] theorem State.fput_evNew (s : State) (F : Fld) (i : Nat) (b : Bool) : (s.fput F i b).evNew = s.evNew := rfl
@[simp] theorem State.fput_clk (s : State) (F : Fld) (i : Nat) (b : Bool) : (s.fput F i b).clk = s.clk := rfl
@[simp] theorem State.fput_parts (s : State) (F : Fld) (i : Nat) (b : Bool) : (s.fput F i b).parts = s.parts := rfl
@[simp] theorem State.fput_fns (s : State) (F : Fld) (i : Nat) (b : Bool) : (s.fput F i b).fns = s.fns := rfl
@[simp] theorem State.fput_csms (s : State) (F : Fld) (i : Nat) (b : Bool) : (s.fput F i b).csms = s.csms := rfl
@[simp] theorem State.fput_pfxs (s : State) (F : Fld) (i : Nat) (b : Bool) : (s.fput F i b).pfxs = s.pfxs := rfl
@[simp] theorem State.fput_stgs (s : State) (F : Fld) (i : Nat) (b : Bool) : (s.fput F i b).stgs = s.stgs := rfl
@[simp] theorem State.fput_ftls (s : State) (F : Fld) (i : Nat) (b : Bool) : (s.fput F i b).ftls = s.ftls := rfl
@[simp] theorem State.fput_nrts (s : State) (F : Fld) (i : Nat) (b : Bool) : (s.fput F i b).nrts = s.nrts := rfl
@[simp] theorem State.fput_wkts (s : State) (F : Fld) (i : Nat) (b : Bool) : (s.fput F i b).wkts = s.wkts := rfl
@[simp] theorem State.fput_lnks (s : State) (F : Fld) (i : Nat) (b : Bool) : (s.fput F i b).lnks = s.lnks := rfl
@[simp] theorem State.fput_sec (s : State) (F : Fld) (i : Nat) (b : Bool) : (s.fput F i b).sec = s.sec := rfl
@[simp] theorem State.fput_pmcs (s : State) (F : Fld) (i : Nat) (b : Bool) : (s.fput F i b).pmcs = s.pmcs := rfl
@[simp] theorem State.fput_ras (s : State) (F : Fld) (i : Nat) (b : Bool) : (s.fput F i b).ras = s.ras := rfl
@[simp] theorem State.fput_pwr (s : State) (F : Fld) (i : Nat) (b : Bool) : (s.fput F i b).pwr = s.pwr := rfl
@[simp] theorem State.fput_svc (s : State) (F : Fld) (i : Nat) (b : Bool) : (s.fput F i b).svc = s.svc := rfl
@[simp] theorem State.fput_hbm (s : State) (F : Fld) (i : Nat) (b : Bool) : (s.fput F i b).hbm = s.hbm := rfl

/-! ### After `fadd` -/
@[simp] theorem State.fadd_pending (s : State) (F : Fld) (i n : Nat) : (s.fadd F i n).pending = s.pending := rfl
@[simp] theorem State.fadd_out (s : State) (F : Fld) (i n : Nat) : (s.fadd F i n).out = s.out := rfl
@[simp] theorem State.fadd_free (s : State) (F : Fld) (i n : Nat) : (s.fadd F i n).free = s.free := rfl
@[simp] theorem State.fadd_variant (s : State) (F : Fld) (i n : Nat) : (s.fadd F i n).variant = s.variant := rfl
@[simp] theorem State.fadd_force (s : State) (F : Fld) (i n : Nat) : (s.fadd F i n).force = s.force := rfl
@[simp] theorem State.fadd_evNew (s : State) (F : Fld) (i n : Nat) : (s.fadd F i n).evNew = s.evNew := rfl
@[simp] theorem State.fadd_clk (s : State) (F : Fld) (i n : Nat) : (s.fadd F i n).clk = s.clk := rfl
@[simp] theorem State.fadd_parts (s : State) (F : Fld) (i n : Nat) : (s.fadd F i n).parts = s.parts := rfl
@[simp] theorem State.fadd_fns (s : State) (F : Fld) (i n : Nat) : (s.fadd F i n).fns = s.fns := rfl
@[simp] theorem State.fadd_csms (s : State) (F : Fld) (i n : Nat) : (s.fadd F i n).csms = s.csms := rfl
@[simp] theorem State.fadd_pfxs (s : State) (F : Fld) (i n : Nat) : (s.fadd F i n).pfxs = s.pfxs := rfl
@[simp] theorem State.fadd_stgs (s : State) (F : Fld) (i n : Nat) : (s.fadd F i n).stgs = s.stgs := rfl
@[simp] theorem State.fadd_ftls (s : State) (F : Fld) (i n : Nat) : (s.fadd F i n).ftls = s.ftls := rfl
@[simp] theorem State.fadd_nrts (s : State) (F : Fld) (i n : Nat) : (s.fadd F i n).nrts = s.nrts := rfl
@[simp] theorem State.fadd_wkts (s : State) (F : Fld) (i n : Nat) : (s.fadd F i n).wkts = s.wkts := rfl
@[simp] theorem State.fadd_lnks (s : State) (F : Fld) (i n : Nat) : (s.fadd F i n).lnks = s.lnks := rfl
@[simp] theorem State.fadd_sec (s : State) (F : Fld) (i n : Nat) : (s.fadd F i n).sec = s.sec := rfl
@[simp] theorem State.fadd_pmcs (s : State) (F : Fld) (i n : Nat) : (s.fadd F i n).pmcs = s.pmcs := rfl
@[simp] theorem State.fadd_ras (s : State) (F : Fld) (i n : Nat) : (s.fadd F i n).ras = s.ras := rfl
@[simp] theorem State.fadd_pwr (s : State) (F : Fld) (i n : Nat) : (s.fadd F i n).pwr = s.pwr := rfl
@[simp] theorem State.fadd_svc (s : State) (F : Fld) (i n : Nat) : (s.fadd F i n).svc = s.svc := rfl
@[simp] theorem State.fadd_hbm (s : State) (F : Fld) (i n : Nat) : (s.fadd F i n).hbm = s.hbm := rfl

/-! ### After `fsat` -/
@[simp] theorem State.fsat_pending (s : State) (F : Fld) (i v : Nat) : (s.fsat F i v).pending = s.pending := rfl
@[simp] theorem State.fsat_out (s : State) (F : Fld) (i v : Nat) : (s.fsat F i v).out = s.out := rfl
@[simp] theorem State.fsat_free (s : State) (F : Fld) (i v : Nat) : (s.fsat F i v).free = s.free := rfl
@[simp] theorem State.fsat_variant (s : State) (F : Fld) (i v : Nat) : (s.fsat F i v).variant = s.variant := rfl
@[simp] theorem State.fsat_force (s : State) (F : Fld) (i v : Nat) : (s.fsat F i v).force = s.force := rfl
@[simp] theorem State.fsat_evNew (s : State) (F : Fld) (i v : Nat) : (s.fsat F i v).evNew = s.evNew := rfl
@[simp] theorem State.fsat_clk (s : State) (F : Fld) (i v : Nat) : (s.fsat F i v).clk = s.clk := rfl
@[simp] theorem State.fsat_parts (s : State) (F : Fld) (i v : Nat) : (s.fsat F i v).parts = s.parts := rfl
@[simp] theorem State.fsat_fns (s : State) (F : Fld) (i v : Nat) : (s.fsat F i v).fns = s.fns := rfl
@[simp] theorem State.fsat_csms (s : State) (F : Fld) (i v : Nat) : (s.fsat F i v).csms = s.csms := rfl
@[simp] theorem State.fsat_pfxs (s : State) (F : Fld) (i v : Nat) : (s.fsat F i v).pfxs = s.pfxs := rfl
@[simp] theorem State.fsat_stgs (s : State) (F : Fld) (i v : Nat) : (s.fsat F i v).stgs = s.stgs := rfl
@[simp] theorem State.fsat_ftls (s : State) (F : Fld) (i v : Nat) : (s.fsat F i v).ftls = s.ftls := rfl
@[simp] theorem State.fsat_nrts (s : State) (F : Fld) (i v : Nat) : (s.fsat F i v).nrts = s.nrts := rfl
@[simp] theorem State.fsat_wkts (s : State) (F : Fld) (i v : Nat) : (s.fsat F i v).wkts = s.wkts := rfl
@[simp] theorem State.fsat_lnks (s : State) (F : Fld) (i v : Nat) : (s.fsat F i v).lnks = s.lnks := rfl
@[simp] theorem State.fsat_sec (s : State) (F : Fld) (i v : Nat) : (s.fsat F i v).sec = s.sec := rfl
@[simp] theorem State.fsat_pmcs (s : State) (F : Fld) (i v : Nat) : (s.fsat F i v).pmcs = s.pmcs := rfl
@[simp] theorem State.fsat_ras (s : State) (F : Fld) (i v : Nat) : (s.fsat F i v).ras = s.ras := rfl
@[simp] theorem State.fsat_pwr (s : State) (F : Fld) (i v : Nat) : (s.fsat F i v).pwr = s.pwr := rfl
@[simp] theorem State.fsat_svc (s : State) (F : Fld) (i v : Nat) : (s.fsat F i v).svc = s.svc := rfl
@[simp] theorem State.fsat_hbm (s : State) (F : Fld) (i v : Nat) : (s.fsat F i v).hbm = s.hbm := rfl

/-! ### After `fmax` -/
@[simp] theorem State.fmax_pending (s : State) (F : Fld) (i v : Nat) : (s.fmax F i v).pending = s.pending := rfl
@[simp] theorem State.fmax_out (s : State) (F : Fld) (i v : Nat) : (s.fmax F i v).out = s.out := rfl
@[simp] theorem State.fmax_free (s : State) (F : Fld) (i v : Nat) : (s.fmax F i v).free = s.free := rfl
@[simp] theorem State.fmax_variant (s : State) (F : Fld) (i v : Nat) : (s.fmax F i v).variant = s.variant := rfl
@[simp] theorem State.fmax_force (s : State) (F : Fld) (i v : Nat) : (s.fmax F i v).force = s.force := rfl
@[simp] theorem State.fmax_evNew (s : State) (F : Fld) (i v : Nat) : (s.fmax F i v).evNew = s.evNew := rfl
@[simp] theorem State.fmax_clk (s : State) (F : Fld) (i v : Nat) : (s.fmax F i v).clk = s.clk := rfl
@[simp] theorem State.fmax_parts (s : State) (F : Fld) (i v : Nat) : (s.fmax F i v).parts = s.parts := rfl
@[simp] theorem State.fmax_fns (s : State) (F : Fld) (i v : Nat) : (s.fmax F i v).fns = s.fns := rfl
@[simp] theorem State.fmax_csms (s : State) (F : Fld) (i v : Nat) : (s.fmax F i v).csms = s.csms := rfl
@[simp] theorem State.fmax_pfxs (s : State) (F : Fld) (i v : Nat) : (s.fmax F i v).pfxs = s.pfxs := rfl
@[simp] theorem State.fmax_stgs (s : State) (F : Fld) (i v : Nat) : (s.fmax F i v).stgs = s.stgs := rfl
@[simp] theorem State.fmax_ftls (s : State) (F : Fld) (i v : Nat) : (s.fmax F i v).ftls = s.ftls := rfl
@[simp] theorem State.fmax_nrts (s : State) (F : Fld) (i v : Nat) : (s.fmax F i v).nrts = s.nrts := rfl
@[simp] theorem State.fmax_wkts (s : State) (F : Fld) (i v : Nat) : (s.fmax F i v).wkts = s.wkts := rfl
@[simp] theorem State.fmax_lnks (s : State) (F : Fld) (i v : Nat) : (s.fmax F i v).lnks = s.lnks := rfl
@[simp] theorem State.fmax_sec (s : State) (F : Fld) (i v : Nat) : (s.fmax F i v).sec = s.sec := rfl
@[simp] theorem State.fmax_pmcs (s : State) (F : Fld) (i v : Nat) : (s.fmax F i v).pmcs = s.pmcs := rfl
@[simp] theorem State.fmax_ras (s : State) (F : Fld) (i v : Nat) : (s.fmax F i v).ras = s.ras := rfl
@[simp] theorem State.fmax_pwr (s : State) (F : Fld) (i v : Nat) : (s.fmax F i v).pwr = s.pwr := rfl
@[simp] theorem State.fmax_svc (s : State) (F : Fld) (i v : Nat) : (s.fmax F i v).svc = s.svc := rfl
@[simp] theorem State.fmax_hbm (s : State) (F : Fld) (i v : Nat) : (s.fmax F i v).hbm = s.hbm := rfl

/-! ### After `frst` -/
@[simp] theorem State.frst_pending (s : State) (F : Fld) (i : Nat) : (s.frst F i).pending = s.pending := rfl
@[simp] theorem State.frst_out (s : State) (F : Fld) (i : Nat) : (s.frst F i).out = s.out := rfl
@[simp] theorem State.frst_free (s : State) (F : Fld) (i : Nat) : (s.frst F i).free = s.free := rfl
@[simp] theorem State.frst_variant (s : State) (F : Fld) (i : Nat) : (s.frst F i).variant = s.variant := rfl
@[simp] theorem State.frst_force (s : State) (F : Fld) (i : Nat) : (s.frst F i).force = s.force := rfl
@[simp] theorem State.frst_evNew (s : State) (F : Fld) (i : Nat) : (s.frst F i).evNew = s.evNew := rfl
@[simp] theorem State.frst_clk (s : State) (F : Fld) (i : Nat) : (s.frst F i).clk = s.clk := rfl
@[simp] theorem State.frst_parts (s : State) (F : Fld) (i : Nat) : (s.frst F i).parts = s.parts := rfl
@[simp] theorem State.frst_fns (s : State) (F : Fld) (i : Nat) : (s.frst F i).fns = s.fns := rfl
@[simp] theorem State.frst_csms (s : State) (F : Fld) (i : Nat) : (s.frst F i).csms = s.csms := rfl
@[simp] theorem State.frst_pfxs (s : State) (F : Fld) (i : Nat) : (s.frst F i).pfxs = s.pfxs := rfl
@[simp] theorem State.frst_stgs (s : State) (F : Fld) (i : Nat) : (s.frst F i).stgs = s.stgs := rfl
@[simp] theorem State.frst_ftls (s : State) (F : Fld) (i : Nat) : (s.frst F i).ftls = s.ftls := rfl
@[simp] theorem State.frst_nrts (s : State) (F : Fld) (i : Nat) : (s.frst F i).nrts = s.nrts := rfl
@[simp] theorem State.frst_wkts (s : State) (F : Fld) (i : Nat) : (s.frst F i).wkts = s.wkts := rfl
@[simp] theorem State.frst_lnks (s : State) (F : Fld) (i : Nat) : (s.frst F i).lnks = s.lnks := rfl
@[simp] theorem State.frst_sec (s : State) (F : Fld) (i : Nat) : (s.frst F i).sec = s.sec := rfl
@[simp] theorem State.frst_pmcs (s : State) (F : Fld) (i : Nat) : (s.frst F i).pmcs = s.pmcs := rfl
@[simp] theorem State.frst_ras (s : State) (F : Fld) (i : Nat) : (s.frst F i).ras = s.ras := rfl
@[simp] theorem State.frst_pwr (s : State) (F : Fld) (i : Nat) : (s.frst F i).pwr = s.pwr := rfl
@[simp] theorem State.frst_svc (s : State) (F : Fld) (i : Nat) : (s.frst F i).svc = s.svc := rfl
@[simp] theorem State.frst_hbm (s : State) (F : Fld) (i : Nat) : (s.frst F i).hbm = s.hbm := rfl

/-! ### After `fputAt` -/
@[simp] theorem State.fputAt_pending (s : State) (F : Fld) (i k : Nat) (b : Bool) : (s.fputAt F i k b).pending = s.pending := rfl
@[simp] theorem State.fputAt_out (s : State) (F : Fld) (i k : Nat) (b : Bool) : (s.fputAt F i k b).out = s.out := rfl
@[simp] theorem State.fputAt_free (s : State) (F : Fld) (i k : Nat) (b : Bool) : (s.fputAt F i k b).free = s.free := rfl
@[simp] theorem State.fputAt_variant (s : State) (F : Fld) (i k : Nat) (b : Bool) : (s.fputAt F i k b).variant = s.variant := rfl
@[simp] theorem State.fputAt_force (s : State) (F : Fld) (i k : Nat) (b : Bool) : (s.fputAt F i k b).force = s.force := rfl
@[simp] theorem State.fputAt_evNew (s : State) (F : Fld) (i k : Nat) (b : Bool) : (s.fputAt F i k b).evNew = s.evNew := rfl
@[simp] theorem State.fputAt_clk (s : State) (F : Fld) (i k : Nat) (b : Bool) : (s.fputAt F i k b).clk = s.clk := rfl
@[simp] theorem State.fputAt_parts (s : State) (F : Fld) (i k : Nat) (b : Bool) : (s.fputAt F i k b).parts = s.parts := rfl
@[simp] theorem State.fputAt_fns (s : State) (F : Fld) (i k : Nat) (b : Bool) : (s.fputAt F i k b).fns = s.fns := rfl
@[simp] theorem State.fputAt_csms (s : State) (F : Fld) (i k : Nat) (b : Bool) : (s.fputAt F i k b).csms = s.csms := rfl
@[simp] theorem State.fputAt_pfxs (s : State) (F : Fld) (i k : Nat) (b : Bool) : (s.fputAt F i k b).pfxs = s.pfxs := rfl
@[simp] theorem State.fputAt_stgs (s : State) (F : Fld) (i k : Nat) (b : Bool) : (s.fputAt F i k b).stgs = s.stgs := rfl
@[simp] theorem State.fputAt_ftls (s : State) (F : Fld) (i k : Nat) (b : Bool) : (s.fputAt F i k b).ftls = s.ftls := rfl
@[simp] theorem State.fputAt_nrts (s : State) (F : Fld) (i k : Nat) (b : Bool) : (s.fputAt F i k b).nrts = s.nrts := rfl
@[simp] theorem State.fputAt_wkts (s : State) (F : Fld) (i k : Nat) (b : Bool) : (s.fputAt F i k b).wkts = s.wkts := rfl
@[simp] theorem State.fputAt_lnks (s : State) (F : Fld) (i k : Nat) (b : Bool) : (s.fputAt F i k b).lnks = s.lnks := rfl
@[simp] theorem State.fputAt_sec (s : State) (F : Fld) (i k : Nat) (b : Bool) : (s.fputAt F i k b).sec = s.sec := rfl
@[simp] theorem State.fputAt_pmcs (s : State) (F : Fld) (i k : Nat) (b : Bool) : (s.fputAt F i k b).pmcs = s.pmcs := rfl
@[simp] theorem State.fputAt_ras (s : State) (F : Fld) (i k : Nat) (b : Bool) : (s.fputAt F i k b).ras = s.ras := rfl
@[simp] theorem State.fputAt_pwr (s : State) (F : Fld) (i k : Nat) (b : Bool) : (s.fputAt F i k b).pwr = s.pwr := rfl
@[simp] theorem State.fputAt_svc (s : State) (F : Fld) (i k : Nat) (b : Bool) : (s.fputAt F i k b).svc = s.svc := rfl
@[simp] theorem State.fputAt_hbm (s : State) (F : Fld) (i k : Nat) (b : Bool) : (s.fputAt F i k b).hbm = s.hbm := rfl

/-! ### After `fsetLater` -/
@[simp] theorem State.fsetLater_pending (s : State) (F : Fld) (i v : Nat) : (s.fsetLater F i v).pending = s.pending := rfl
@[simp] theorem State.fsetLater_out (s : State) (F : Fld) (i v : Nat) : (s.fsetLater F i v).out = s.out := rfl
@[simp] theorem State.fsetLater_free (s : State) (F : Fld) (i v : Nat) : (s.fsetLater F i v).free = s.free := rfl
@[simp] theorem State.fsetLater_variant (s : State) (F : Fld) (i v : Nat) : (s.fsetLater F i v).variant = s.variant := rfl
@[simp] theorem State.fsetLater_evNew (s : State) (F : Fld) (i v : Nat) : (s.fsetLater F i v).evNew = s.evNew := rfl
@[simp] theorem State.fsetLater_clk (s : State) (F : Fld) (i v : Nat) : (s.fsetLater F i v).clk = s.clk := rfl
@[simp] theorem State.fsetLater_parts (s : State) (F : Fld) (i v : Nat) : (s.fsetLater F i v).parts = s.parts := rfl
@[simp] theorem State.fsetLater_fns (s : State) (F : Fld) (i v : Nat) : (s.fsetLater F i v).fns = s.fns := rfl
@[simp] theorem State.fsetLater_csms (s : State) (F : Fld) (i v : Nat) : (s.fsetLater F i v).csms = s.csms := rfl
@[simp] theorem State.fsetLater_pfxs (s : State) (F : Fld) (i v : Nat) : (s.fsetLater F i v).pfxs = s.pfxs := rfl
@[simp] theorem State.fsetLater_stgs (s : State) (F : Fld) (i v : Nat) : (s.fsetLater F i v).stgs = s.stgs := rfl
@[simp] theorem State.fsetLater_ftls (s : State) (F : Fld) (i v : Nat) : (s.fsetLater F i v).ftls = s.ftls := rfl
@[simp] theorem State.fsetLater_nrts (s : State) (F : Fld) (i v : Nat) : (s.fsetLater F i v).nrts = s.nrts := rfl
@[simp] theorem State.fsetLater_wkts (s : State) (F : Fld) (i v : Nat) : (s.fsetLater F i v).wkts = s.wkts := rfl
@[simp] theorem State.fsetLater_lnks (s : State) (F : Fld) (i v : Nat) : (s.fsetLater F i v).lnks = s.lnks := rfl
@[simp] theorem State.fsetLater_sec (s : State) (F : Fld) (i v : Nat) : (s.fsetLater F i v).sec = s.sec := rfl
@[simp] theorem State.fsetLater_pmcs (s : State) (F : Fld) (i v : Nat) : (s.fsetLater F i v).pmcs = s.pmcs := rfl
@[simp] theorem State.fsetLater_ras (s : State) (F : Fld) (i v : Nat) : (s.fsetLater F i v).ras = s.ras := rfl
@[simp] theorem State.fsetLater_pwr (s : State) (F : Fld) (i v : Nat) : (s.fsetLater F i v).pwr = s.pwr := rfl
@[simp] theorem State.fsetLater_svc (s : State) (F : Fld) (i v : Nat) : (s.fsetLater F i v).svc = s.svc := rfl
@[simp] theorem State.fsetLater_hbm (s : State) (F : Fld) (i v : Nat) : (s.fsetLater F i v).hbm = s.hbm := rfl

/-! ### After `applyForce` -/
@[simp] theorem State.applyForce_pending (s : State) (l : List Nat) : (s.applyForce l).pending = s.pending := rfl
@[simp] theorem State.applyForce_out (s : State) (l : List Nat) : (s.applyForce l).out = s.out := rfl
@[simp] theorem State.applyForce_free (s : State) (l : List Nat) : (s.applyForce l).free = s.free := rfl
@[simp] theorem State.applyForce_variant (s : State) (l : List Nat) : (s.applyForce l).variant = s.variant := rfl
@[simp] theorem State.applyForce_regs (s : State) (l : List Nat) : (s.applyForce l).regs = s.regs := rfl
@[simp] theorem State.applyForce_evNew (s : State) (l : List Nat) : (s.applyForce l).evNew = s.evNew := rfl
@[simp] theorem State.applyForce_clk (s : State) (l : List Nat) : (s.applyForce l).clk = s.clk := rfl
@[simp] theorem State.applyForce_parts (s : State) (l : List Nat) : (s.applyForce l).parts = s.parts := rfl
@[simp] theorem State.applyForce_fns (s : State) (l : List Nat) : (s.applyForce l).fns = s.fns := rfl
@[simp] theorem State.applyForce_csms (s : State) (l : List Nat) : (s.applyForce l).csms = s.csms := rfl
@[simp] theorem State.applyForce_pfxs (s : State) (l : List Nat) : (s.applyForce l).pfxs = s.pfxs := rfl
@[simp] theorem State.applyForce_stgs (s : State) (l : List Nat) : (s.applyForce l).stgs = s.stgs := rfl
@[simp] theorem State.applyForce_ftls (s : State) (l : List Nat) : (s.applyForce l).ftls = s.ftls := rfl
@[simp] theorem State.applyForce_nrts (s : State) (l : List Nat) : (s.applyForce l).nrts = s.nrts := rfl
@[simp] theorem State.applyForce_wkts (s : State) (l : List Nat) : (s.applyForce l).wkts = s.wkts := rfl
@[simp] theorem State.applyForce_lnks (s : State) (l : List Nat) : (s.applyForce l).lnks = s.lnks := rfl
@[simp] theorem State.applyForce_sec (s : State) (l : List Nat) : (s.applyForce l).sec = s.sec := rfl
@[simp] theorem State.applyForce_pmcs (s : State) (l : List Nat) : (s.applyForce l).pmcs = s.pmcs := rfl
@[simp] theorem State.applyForce_ras (s : State) (l : List Nat) : (s.applyForce l).ras = s.ras := rfl
@[simp] theorem State.applyForce_pwr (s : State) (l : List Nat) : (s.applyForce l).pwr = s.pwr := rfl
@[simp] theorem State.applyForce_svc (s : State) (l : List Nat) : (s.applyForce l).svc = s.svc := rfl
@[simp] theorem State.applyForce_hbm (s : State) (l : List Nat) : (s.applyForce l).hbm = s.hbm := rfl

/-! ### After `emit` -/
@[simp] theorem State.emit_pending (s : State) (e : Emit) : (s.emit e).pending = s.pending := rfl
@[simp] theorem State.emit_free (s : State) (e : Emit) : (s.emit e).free = s.free := rfl
@[simp] theorem State.emit_variant (s : State) (e : Emit) : (s.emit e).variant = s.variant := rfl
@[simp] theorem State.emit_regs (s : State) (e : Emit) : (s.emit e).regs = s.regs := rfl
@[simp] theorem State.emit_force (s : State) (e : Emit) : (s.emit e).force = s.force := rfl
@[simp] theorem State.emit_evNew (s : State) (e : Emit) : (s.emit e).evNew = s.evNew := rfl
@[simp] theorem State.emit_clk (s : State) (e : Emit) : (s.emit e).clk = s.clk := rfl
@[simp] theorem State.emit_parts (s : State) (e : Emit) : (s.emit e).parts = s.parts := rfl
@[simp] theorem State.emit_fns (s : State) (e : Emit) : (s.emit e).fns = s.fns := rfl
@[simp] theorem State.emit_csms (s : State) (e : Emit) : (s.emit e).csms = s.csms := rfl
@[simp] theorem State.emit_pfxs (s : State) (e : Emit) : (s.emit e).pfxs = s.pfxs := rfl
@[simp] theorem State.emit_stgs (s : State) (e : Emit) : (s.emit e).stgs = s.stgs := rfl
@[simp] theorem State.emit_ftls (s : State) (e : Emit) : (s.emit e).ftls = s.ftls := rfl
@[simp] theorem State.emit_nrts (s : State) (e : Emit) : (s.emit e).nrts = s.nrts := rfl
@[simp] theorem State.emit_wkts (s : State) (e : Emit) : (s.emit e).wkts = s.wkts := rfl
@[simp] theorem State.emit_lnks (s : State) (e : Emit) : (s.emit e).lnks = s.lnks := rfl
@[simp] theorem State.emit_sec (s : State) (e : Emit) : (s.emit e).sec = s.sec := rfl
@[simp] theorem State.emit_pmcs (s : State) (e : Emit) : (s.emit e).pmcs = s.pmcs := rfl
@[simp] theorem State.emit_ras (s : State) (e : Emit) : (s.emit e).ras = s.ras := rfl
@[simp] theorem State.emit_pwr (s : State) (e : Emit) : (s.emit e).pwr = s.pwr := rfl
@[simp] theorem State.emit_svc (s : State) (e : Emit) : (s.emit e).svc = s.svc := rfl
@[simp] theorem State.emit_hbm (s : State) (e : Emit) : (s.emit e).hbm = s.hbm := rfl

/-! ### After `setPart` -/
@[simp] theorem State.setPart_pending (s : State) (p : Nat) (v : Part) : (s.setPart p v).pending = s.pending := rfl
@[simp] theorem State.setPart_out (s : State) (p : Nat) (v : Part) : (s.setPart p v).out = s.out := rfl
@[simp] theorem State.setPart_free (s : State) (p : Nat) (v : Part) : (s.setPart p v).free = s.free := rfl
@[simp] theorem State.setPart_variant (s : State) (p : Nat) (v : Part) : (s.setPart p v).variant = s.variant := rfl
@[simp] theorem State.setPart_regs (s : State) (p : Nat) (v : Part) : (s.setPart p v).regs = s.regs := rfl
@[simp] theorem State.setPart_force (s : State) (p : Nat) (v : Part) : (s.setPart p v).force = s.force := rfl
@[simp] theorem State.setPart_evNew (s : State) (p : Nat) (v : Part) : (s.setPart p v).evNew = s.evNew := rfl
@[simp] theorem State.setPart_clk (s : State) (p : Nat) (v : Part) : (s.setPart p v).clk = s.clk := rfl
@[simp] theorem State.setPart_fns (s : State) (p : Nat) (v : Part) : (s.setPart p v).fns = s.fns := rfl
@[simp] theorem State.setPart_csms (s : State) (p : Nat) (v : Part) : (s.setPart p v).csms = s.csms := rfl
@[simp] theorem State.setPart_pfxs (s : State) (p : Nat) (v : Part) : (s.setPart p v).pfxs = s.pfxs := rfl
@[simp] theorem State.setPart_stgs (s : State) (p : Nat) (v : Part) : (s.setPart p v).stgs = s.stgs := rfl
@[simp] theorem State.setPart_ftls (s : State) (p : Nat) (v : Part) : (s.setPart p v).ftls = s.ftls := rfl
@[simp] theorem State.setPart_nrts (s : State) (p : Nat) (v : Part) : (s.setPart p v).nrts = s.nrts := rfl
@[simp] theorem State.setPart_wkts (s : State) (p : Nat) (v : Part) : (s.setPart p v).wkts = s.wkts := rfl
@[simp] theorem State.setPart_lnks (s : State) (p : Nat) (v : Part) : (s.setPart p v).lnks = s.lnks := rfl
@[simp] theorem State.setPart_sec (s : State) (p : Nat) (v : Part) : (s.setPart p v).sec = s.sec := rfl
@[simp] theorem State.setPart_pmcs (s : State) (p : Nat) (v : Part) : (s.setPart p v).pmcs = s.pmcs := rfl
@[simp] theorem State.setPart_ras (s : State) (p : Nat) (v : Part) : (s.setPart p v).ras = s.ras := rfl
@[simp] theorem State.setPart_pwr (s : State) (p : Nat) (v : Part) : (s.setPart p v).pwr = s.pwr := rfl
@[simp] theorem State.setPart_svc (s : State) (p : Nat) (v : Part) : (s.setPart p v).svc = s.svc := rfl
@[simp] theorem State.setPart_hbm (s : State) (p : Nat) (v : Part) : (s.setPart p v).hbm = s.hbm := rfl

/-! ### After `modPart` -/
@[simp] theorem State.modPart_pending (s : State) (p : Nat) (f : Part → Part) : (s.modPart p f).pending = s.pending := rfl
@[simp] theorem State.modPart_out (s : State) (p : Nat) (f : Part → Part) : (s.modPart p f).out = s.out := rfl
@[simp] theorem State.modPart_free (s : State) (p : Nat) (f : Part → Part) : (s.modPart p f).free = s.free := rfl
@[simp] theorem State.modPart_variant (s : State) (p : Nat) (f : Part → Part) : (s.modPart p f).variant = s.variant := rfl
@[simp] theorem State.modPart_regs (s : State) (p : Nat) (f : Part → Part) : (s.modPart p f).regs = s.regs := rfl
@[simp] theorem State.modPart_force (s : State) (p : Nat) (f : Part → Part) : (s.modPart p f).force = s.force := rfl
@[simp] theorem State.modPart_evNew (s : State) (p : Nat) (f : Part → Part) : (s.modPart p f).evNew = s.evNew := rfl
@[simp] theorem State.modPart_clk (s : State) (p : Nat) (f : Part → Part) : (s.modPart p f).clk = s.clk := rfl
@[simp] theorem State.modPart_fns (s : State) (p : Nat) (f : Part → Part) : (s.modPart p f).fns = s.fns := rfl
@[simp] theorem State.modPart_csms (s : State) (p : Nat) (f : Part → Part) : (s.modPart p f).csms = s.csms := rfl
@[simp] theorem State.modPart_pfxs (s : State) (p : Nat) (f : Part → Part) : (s.modPart p f).pfxs = s.pfxs := rfl
@[simp] theorem State.modPart_stgs (s : State) (p : Nat) (f : Part → Part) : (s.modPart p f).stgs = s.stgs := rfl
@[simp] theorem State.modPart_ftls (s : State) (p : Nat) (f : Part → Part) : (s.modPart p f).ftls = s.ftls := rfl
@[simp] theorem State.modPart_nrts (s : State) (p : Nat) (f : Part → Part) : (s.modPart p f).nrts = s.nrts := rfl
@[simp] theorem State.modPart_wkts (s : State) (p : Nat) (f : Part → Part) : (s.modPart p f).wkts = s.wkts := rfl
@[simp] theorem State.modPart_lnks (s : State) (p : Nat) (f : Part → Part) : (s.modPart p f).lnks = s.lnks := rfl
@[simp] theorem State.modPart_sec (s : State) (p : Nat) (f : Part → Part) : (s.modPart p f).sec = s.sec := rfl
@[simp] theorem State.modPart_pmcs (s : State) (p : Nat) (f : Part → Part) : (s.modPart p f).pmcs = s.pmcs := rfl
@[simp] theorem State.modPart_ras (s : State) (p : Nat) (f : Part → Part) : (s.modPart p f).ras = s.ras := rfl
@[simp] theorem State.modPart_pwr (s : State) (p : Nat) (f : Part → Part) : (s.modPart p f).pwr = s.pwr := rfl
@[simp] theorem State.modPart_svc (s : State) (p : Nat) (f : Part → Part) : (s.modPart p f).svc = s.svc := rfl
@[simp] theorem State.modPart_hbm (s : State) (p : Nat) (f : Part → Part) : (s.modPart p f).hbm = s.hbm := rfl

/-! ### After `setFn` -/
@[simp] theorem State.setFn_pending (s : State) (k : Nat) (v : HostFn) : (s.setFn k v).pending = s.pending := rfl
@[simp] theorem State.setFn_out (s : State) (k : Nat) (v : HostFn) : (s.setFn k v).out = s.out := rfl
@[simp] theorem State.setFn_free (s : State) (k : Nat) (v : HostFn) : (s.setFn k v).free = s.free := rfl
@[simp] theorem State.setFn_variant (s : State) (k : Nat) (v : HostFn) : (s.setFn k v).variant = s.variant := rfl
@[simp] theorem State.setFn_regs (s : State) (k : Nat) (v : HostFn) : (s.setFn k v).regs = s.regs := rfl
@[simp] theorem State.setFn_force (s : State) (k : Nat) (v : HostFn) : (s.setFn k v).force = s.force := rfl
@[simp] theorem State.setFn_evNew (s : State) (k : Nat) (v : HostFn) : (s.setFn k v).evNew = s.evNew := rfl
@[simp] theorem State.setFn_clk (s : State) (k : Nat) (v : HostFn) : (s.setFn k v).clk = s.clk := rfl
@[simp] theorem State.setFn_parts (s : State) (k : Nat) (v : HostFn) : (s.setFn k v).parts = s.parts := rfl
@[simp] theorem State.setFn_csms (s : State) (k : Nat) (v : HostFn) : (s.setFn k v).csms = s.csms := rfl
@[simp] theorem State.setFn_pfxs (s : State) (k : Nat) (v : HostFn) : (s.setFn k v).pfxs = s.pfxs := rfl
@[simp] theorem State.setFn_stgs (s : State) (k : Nat) (v : HostFn) : (s.setFn k v).stgs = s.stgs := rfl
@[simp] theorem State.setFn_ftls (s : State) (k : Nat) (v : HostFn) : (s.setFn k v).ftls = s.ftls := rfl
@[simp] theorem State.setFn_nrts (s : State) (k : Nat) (v : HostFn) : (s.setFn k v).nrts = s.nrts := rfl
@[simp] theorem State.setFn_wkts (s : State) (k : Nat) (v : HostFn) : (s.setFn k v).wkts = s.wkts := rfl
@[simp] theorem State.setFn_lnks (s : State) (k : Nat) (v : HostFn) : (s.setFn k v).lnks = s.lnks := rfl
@[simp] theorem State.setFn_sec (s : State) (k : Nat) (v : HostFn) : (s.setFn k v).sec = s.sec := rfl
@[simp] theorem State.setFn_pmcs (s : State) (k : Nat) (v : HostFn) : (s.setFn k v).pmcs = s.pmcs := rfl
@[simp] theorem State.setFn_ras (s : State) (k : Nat) (v : HostFn) : (s.setFn k v).ras = s.ras := rfl
@[simp] theorem State.setFn_pwr (s : State) (k : Nat) (v : HostFn) : (s.setFn k v).pwr = s.pwr := rfl
@[simp] theorem State.setFn_svc (s : State) (k : Nat) (v : HostFn) : (s.setFn k v).svc = s.svc := rfl
@[simp] theorem State.setFn_hbm (s : State) (k : Nat) (v : HostFn) : (s.setFn k v).hbm = s.hbm := rfl

/-! ### After `modFn` -/
@[simp] theorem State.modFn_pending (s : State) (k : Nat) (f : HostFn → HostFn) : (s.modFn k f).pending = s.pending := rfl
@[simp] theorem State.modFn_out (s : State) (k : Nat) (f : HostFn → HostFn) : (s.modFn k f).out = s.out := rfl
@[simp] theorem State.modFn_free (s : State) (k : Nat) (f : HostFn → HostFn) : (s.modFn k f).free = s.free := rfl
@[simp] theorem State.modFn_variant (s : State) (k : Nat) (f : HostFn → HostFn) : (s.modFn k f).variant = s.variant := rfl
@[simp] theorem State.modFn_regs (s : State) (k : Nat) (f : HostFn → HostFn) : (s.modFn k f).regs = s.regs := rfl
@[simp] theorem State.modFn_force (s : State) (k : Nat) (f : HostFn → HostFn) : (s.modFn k f).force = s.force := rfl
@[simp] theorem State.modFn_evNew (s : State) (k : Nat) (f : HostFn → HostFn) : (s.modFn k f).evNew = s.evNew := rfl
@[simp] theorem State.modFn_clk (s : State) (k : Nat) (f : HostFn → HostFn) : (s.modFn k f).clk = s.clk := rfl
@[simp] theorem State.modFn_parts (s : State) (k : Nat) (f : HostFn → HostFn) : (s.modFn k f).parts = s.parts := rfl
@[simp] theorem State.modFn_csms (s : State) (k : Nat) (f : HostFn → HostFn) : (s.modFn k f).csms = s.csms := rfl
@[simp] theorem State.modFn_pfxs (s : State) (k : Nat) (f : HostFn → HostFn) : (s.modFn k f).pfxs = s.pfxs := rfl
@[simp] theorem State.modFn_stgs (s : State) (k : Nat) (f : HostFn → HostFn) : (s.modFn k f).stgs = s.stgs := rfl
@[simp] theorem State.modFn_ftls (s : State) (k : Nat) (f : HostFn → HostFn) : (s.modFn k f).ftls = s.ftls := rfl
@[simp] theorem State.modFn_nrts (s : State) (k : Nat) (f : HostFn → HostFn) : (s.modFn k f).nrts = s.nrts := rfl
@[simp] theorem State.modFn_wkts (s : State) (k : Nat) (f : HostFn → HostFn) : (s.modFn k f).wkts = s.wkts := rfl
@[simp] theorem State.modFn_lnks (s : State) (k : Nat) (f : HostFn → HostFn) : (s.modFn k f).lnks = s.lnks := rfl
@[simp] theorem State.modFn_sec (s : State) (k : Nat) (f : HostFn → HostFn) : (s.modFn k f).sec = s.sec := rfl
@[simp] theorem State.modFn_pmcs (s : State) (k : Nat) (f : HostFn → HostFn) : (s.modFn k f).pmcs = s.pmcs := rfl
@[simp] theorem State.modFn_ras (s : State) (k : Nat) (f : HostFn → HostFn) : (s.modFn k f).ras = s.ras := rfl
@[simp] theorem State.modFn_pwr (s : State) (k : Nat) (f : HostFn → HostFn) : (s.modFn k f).pwr = s.pwr := rfl
@[simp] theorem State.modFn_svc (s : State) (k : Nat) (f : HostFn → HostFn) : (s.modFn k f).svc = s.svc := rfl
@[simp] theorem State.modFn_hbm (s : State) (k : Nat) (f : HostFn → HostFn) : (s.modFn k f).hbm = s.hbm := rfl

/-! ### After `modCsm` -/
@[simp] theorem State.modCsm_pending (s : State) (d : Nat) (f : Casement → Casement) : (s.modCsm d f).pending = s.pending := rfl
@[simp] theorem State.modCsm_out (s : State) (d : Nat) (f : Casement → Casement) : (s.modCsm d f).out = s.out := rfl
@[simp] theorem State.modCsm_free (s : State) (d : Nat) (f : Casement → Casement) : (s.modCsm d f).free = s.free := rfl
@[simp] theorem State.modCsm_variant (s : State) (d : Nat) (f : Casement → Casement) : (s.modCsm d f).variant = s.variant := rfl
@[simp] theorem State.modCsm_regs (s : State) (d : Nat) (f : Casement → Casement) : (s.modCsm d f).regs = s.regs := rfl
@[simp] theorem State.modCsm_force (s : State) (d : Nat) (f : Casement → Casement) : (s.modCsm d f).force = s.force := rfl
@[simp] theorem State.modCsm_evNew (s : State) (d : Nat) (f : Casement → Casement) : (s.modCsm d f).evNew = s.evNew := rfl
@[simp] theorem State.modCsm_clk (s : State) (d : Nat) (f : Casement → Casement) : (s.modCsm d f).clk = s.clk := rfl
@[simp] theorem State.modCsm_parts (s : State) (d : Nat) (f : Casement → Casement) : (s.modCsm d f).parts = s.parts := rfl
@[simp] theorem State.modCsm_fns (s : State) (d : Nat) (f : Casement → Casement) : (s.modCsm d f).fns = s.fns := rfl
@[simp] theorem State.modCsm_pfxs (s : State) (d : Nat) (f : Casement → Casement) : (s.modCsm d f).pfxs = s.pfxs := rfl
@[simp] theorem State.modCsm_stgs (s : State) (d : Nat) (f : Casement → Casement) : (s.modCsm d f).stgs = s.stgs := rfl
@[simp] theorem State.modCsm_ftls (s : State) (d : Nat) (f : Casement → Casement) : (s.modCsm d f).ftls = s.ftls := rfl
@[simp] theorem State.modCsm_nrts (s : State) (d : Nat) (f : Casement → Casement) : (s.modCsm d f).nrts = s.nrts := rfl
@[simp] theorem State.modCsm_wkts (s : State) (d : Nat) (f : Casement → Casement) : (s.modCsm d f).wkts = s.wkts := rfl
@[simp] theorem State.modCsm_lnks (s : State) (d : Nat) (f : Casement → Casement) : (s.modCsm d f).lnks = s.lnks := rfl
@[simp] theorem State.modCsm_sec (s : State) (d : Nat) (f : Casement → Casement) : (s.modCsm d f).sec = s.sec := rfl
@[simp] theorem State.modCsm_pmcs (s : State) (d : Nat) (f : Casement → Casement) : (s.modCsm d f).pmcs = s.pmcs := rfl
@[simp] theorem State.modCsm_ras (s : State) (d : Nat) (f : Casement → Casement) : (s.modCsm d f).ras = s.ras := rfl
@[simp] theorem State.modCsm_pwr (s : State) (d : Nat) (f : Casement → Casement) : (s.modCsm d f).pwr = s.pwr := rfl
@[simp] theorem State.modCsm_svc (s : State) (d : Nat) (f : Casement → Casement) : (s.modCsm d f).svc = s.svc := rfl
@[simp] theorem State.modCsm_hbm (s : State) (d : Nat) (f : Casement → Casement) : (s.modCsm d f).hbm = s.hbm := rfl

/-! ### After `modPfx` -/
@[simp] theorem State.modPfx_pending (s : State) (d : Nat) (f : Pfx → Pfx) : (s.modPfx d f).pending = s.pending := rfl
@[simp] theorem State.modPfx_out (s : State) (d : Nat) (f : Pfx → Pfx) : (s.modPfx d f).out = s.out := rfl
@[simp] theorem State.modPfx_free (s : State) (d : Nat) (f : Pfx → Pfx) : (s.modPfx d f).free = s.free := rfl
@[simp] theorem State.modPfx_variant (s : State) (d : Nat) (f : Pfx → Pfx) : (s.modPfx d f).variant = s.variant := rfl
@[simp] theorem State.modPfx_regs (s : State) (d : Nat) (f : Pfx → Pfx) : (s.modPfx d f).regs = s.regs := rfl
@[simp] theorem State.modPfx_force (s : State) (d : Nat) (f : Pfx → Pfx) : (s.modPfx d f).force = s.force := rfl
@[simp] theorem State.modPfx_evNew (s : State) (d : Nat) (f : Pfx → Pfx) : (s.modPfx d f).evNew = s.evNew := rfl
@[simp] theorem State.modPfx_clk (s : State) (d : Nat) (f : Pfx → Pfx) : (s.modPfx d f).clk = s.clk := rfl
@[simp] theorem State.modPfx_parts (s : State) (d : Nat) (f : Pfx → Pfx) : (s.modPfx d f).parts = s.parts := rfl
@[simp] theorem State.modPfx_fns (s : State) (d : Nat) (f : Pfx → Pfx) : (s.modPfx d f).fns = s.fns := rfl
@[simp] theorem State.modPfx_csms (s : State) (d : Nat) (f : Pfx → Pfx) : (s.modPfx d f).csms = s.csms := rfl
@[simp] theorem State.modPfx_stgs (s : State) (d : Nat) (f : Pfx → Pfx) : (s.modPfx d f).stgs = s.stgs := rfl
@[simp] theorem State.modPfx_ftls (s : State) (d : Nat) (f : Pfx → Pfx) : (s.modPfx d f).ftls = s.ftls := rfl
@[simp] theorem State.modPfx_nrts (s : State) (d : Nat) (f : Pfx → Pfx) : (s.modPfx d f).nrts = s.nrts := rfl
@[simp] theorem State.modPfx_wkts (s : State) (d : Nat) (f : Pfx → Pfx) : (s.modPfx d f).wkts = s.wkts := rfl
@[simp] theorem State.modPfx_lnks (s : State) (d : Nat) (f : Pfx → Pfx) : (s.modPfx d f).lnks = s.lnks := rfl
@[simp] theorem State.modPfx_sec (s : State) (d : Nat) (f : Pfx → Pfx) : (s.modPfx d f).sec = s.sec := rfl
@[simp] theorem State.modPfx_pmcs (s : State) (d : Nat) (f : Pfx → Pfx) : (s.modPfx d f).pmcs = s.pmcs := rfl
@[simp] theorem State.modPfx_ras (s : State) (d : Nat) (f : Pfx → Pfx) : (s.modPfx d f).ras = s.ras := rfl
@[simp] theorem State.modPfx_pwr (s : State) (d : Nat) (f : Pfx → Pfx) : (s.modPfx d f).pwr = s.pwr := rfl
@[simp] theorem State.modPfx_svc (s : State) (d : Nat) (f : Pfx → Pfx) : (s.modPfx d f).svc = s.svc := rfl
@[simp] theorem State.modPfx_hbm (s : State) (d : Nat) (f : Pfx → Pfx) : (s.modPfx d f).hbm = s.hbm := rfl

/-! ### After `modStg` -/
@[simp] theorem State.modStg_pending (s : State) (d : Nat) (f : Staging → Staging) : (s.modStg d f).pending = s.pending := rfl
@[simp] theorem State.modStg_out (s : State) (d : Nat) (f : Staging → Staging) : (s.modStg d f).out = s.out := rfl
@[simp] theorem State.modStg_free (s : State) (d : Nat) (f : Staging → Staging) : (s.modStg d f).free = s.free := rfl
@[simp] theorem State.modStg_variant (s : State) (d : Nat) (f : Staging → Staging) : (s.modStg d f).variant = s.variant := rfl
@[simp] theorem State.modStg_regs (s : State) (d : Nat) (f : Staging → Staging) : (s.modStg d f).regs = s.regs := rfl
@[simp] theorem State.modStg_force (s : State) (d : Nat) (f : Staging → Staging) : (s.modStg d f).force = s.force := rfl
@[simp] theorem State.modStg_evNew (s : State) (d : Nat) (f : Staging → Staging) : (s.modStg d f).evNew = s.evNew := rfl
@[simp] theorem State.modStg_clk (s : State) (d : Nat) (f : Staging → Staging) : (s.modStg d f).clk = s.clk := rfl
@[simp] theorem State.modStg_parts (s : State) (d : Nat) (f : Staging → Staging) : (s.modStg d f).parts = s.parts := rfl
@[simp] theorem State.modStg_fns (s : State) (d : Nat) (f : Staging → Staging) : (s.modStg d f).fns = s.fns := rfl
@[simp] theorem State.modStg_csms (s : State) (d : Nat) (f : Staging → Staging) : (s.modStg d f).csms = s.csms := rfl
@[simp] theorem State.modStg_pfxs (s : State) (d : Nat) (f : Staging → Staging) : (s.modStg d f).pfxs = s.pfxs := rfl
@[simp] theorem State.modStg_ftls (s : State) (d : Nat) (f : Staging → Staging) : (s.modStg d f).ftls = s.ftls := rfl
@[simp] theorem State.modStg_nrts (s : State) (d : Nat) (f : Staging → Staging) : (s.modStg d f).nrts = s.nrts := rfl
@[simp] theorem State.modStg_wkts (s : State) (d : Nat) (f : Staging → Staging) : (s.modStg d f).wkts = s.wkts := rfl
@[simp] theorem State.modStg_lnks (s : State) (d : Nat) (f : Staging → Staging) : (s.modStg d f).lnks = s.lnks := rfl
@[simp] theorem State.modStg_sec (s : State) (d : Nat) (f : Staging → Staging) : (s.modStg d f).sec = s.sec := rfl
@[simp] theorem State.modStg_pmcs (s : State) (d : Nat) (f : Staging → Staging) : (s.modStg d f).pmcs = s.pmcs := rfl
@[simp] theorem State.modStg_ras (s : State) (d : Nat) (f : Staging → Staging) : (s.modStg d f).ras = s.ras := rfl
@[simp] theorem State.modStg_pwr (s : State) (d : Nat) (f : Staging → Staging) : (s.modStg d f).pwr = s.pwr := rfl
@[simp] theorem State.modStg_svc (s : State) (d : Nat) (f : Staging → Staging) : (s.modStg d f).svc = s.svc := rfl
@[simp] theorem State.modStg_hbm (s : State) (d : Nat) (f : Staging → Staging) : (s.modStg d f).hbm = s.hbm := rfl

/-! ### After `modFtl` -/
@[simp] theorem State.modFtl_pending (s : State) (d : Nat) (f : Ftl → Ftl) : (s.modFtl d f).pending = s.pending := rfl
@[simp] theorem State.modFtl_out (s : State) (d : Nat) (f : Ftl → Ftl) : (s.modFtl d f).out = s.out := rfl
@[simp] theorem State.modFtl_free (s : State) (d : Nat) (f : Ftl → Ftl) : (s.modFtl d f).free = s.free := rfl
@[simp] theorem State.modFtl_variant (s : State) (d : Nat) (f : Ftl → Ftl) : (s.modFtl d f).variant = s.variant := rfl
@[simp] theorem State.modFtl_regs (s : State) (d : Nat) (f : Ftl → Ftl) : (s.modFtl d f).regs = s.regs := rfl
@[simp] theorem State.modFtl_force (s : State) (d : Nat) (f : Ftl → Ftl) : (s.modFtl d f).force = s.force := rfl
@[simp] theorem State.modFtl_evNew (s : State) (d : Nat) (f : Ftl → Ftl) : (s.modFtl d f).evNew = s.evNew := rfl
@[simp] theorem State.modFtl_clk (s : State) (d : Nat) (f : Ftl → Ftl) : (s.modFtl d f).clk = s.clk := rfl
@[simp] theorem State.modFtl_parts (s : State) (d : Nat) (f : Ftl → Ftl) : (s.modFtl d f).parts = s.parts := rfl
@[simp] theorem State.modFtl_fns (s : State) (d : Nat) (f : Ftl → Ftl) : (s.modFtl d f).fns = s.fns := rfl
@[simp] theorem State.modFtl_csms (s : State) (d : Nat) (f : Ftl → Ftl) : (s.modFtl d f).csms = s.csms := rfl
@[simp] theorem State.modFtl_pfxs (s : State) (d : Nat) (f : Ftl → Ftl) : (s.modFtl d f).pfxs = s.pfxs := rfl
@[simp] theorem State.modFtl_stgs (s : State) (d : Nat) (f : Ftl → Ftl) : (s.modFtl d f).stgs = s.stgs := rfl
@[simp] theorem State.modFtl_nrts (s : State) (d : Nat) (f : Ftl → Ftl) : (s.modFtl d f).nrts = s.nrts := rfl
@[simp] theorem State.modFtl_wkts (s : State) (d : Nat) (f : Ftl → Ftl) : (s.modFtl d f).wkts = s.wkts := rfl
@[simp] theorem State.modFtl_lnks (s : State) (d : Nat) (f : Ftl → Ftl) : (s.modFtl d f).lnks = s.lnks := rfl
@[simp] theorem State.modFtl_sec (s : State) (d : Nat) (f : Ftl → Ftl) : (s.modFtl d f).sec = s.sec := rfl
@[simp] theorem State.modFtl_pmcs (s : State) (d : Nat) (f : Ftl → Ftl) : (s.modFtl d f).pmcs = s.pmcs := rfl
@[simp] theorem State.modFtl_ras (s : State) (d : Nat) (f : Ftl → Ftl) : (s.modFtl d f).ras = s.ras := rfl
@[simp] theorem State.modFtl_pwr (s : State) (d : Nat) (f : Ftl → Ftl) : (s.modFtl d f).pwr = s.pwr := rfl
@[simp] theorem State.modFtl_svc (s : State) (d : Nat) (f : Ftl → Ftl) : (s.modFtl d f).svc = s.svc := rfl
@[simp] theorem State.modFtl_hbm (s : State) (d : Nat) (f : Ftl → Ftl) : (s.modFtl d f).hbm = s.hbm := rfl

/-! ### After `modNrt` -/
@[simp] theorem State.modNrt_pending (s : State) (d : Nat) (f : Nrt → Nrt) : (s.modNrt d f).pending = s.pending := rfl
@[simp] theorem State.modNrt_out (s : State) (d : Nat) (f : Nrt → Nrt) : (s.modNrt d f).out = s.out := rfl
@[simp] theorem State.modNrt_free (s : State) (d : Nat) (f : Nrt → Nrt) : (s.modNrt d f).free = s.free := rfl
@[simp] theorem State.modNrt_variant (s : State) (d : Nat) (f : Nrt → Nrt) : (s.modNrt d f).variant = s.variant := rfl
@[simp] theorem State.modNrt_regs (s : State) (d : Nat) (f : Nrt → Nrt) : (s.modNrt d f).regs = s.regs := rfl
@[simp] theorem State.modNrt_force (s : State) (d : Nat) (f : Nrt → Nrt) : (s.modNrt d f).force = s.force := rfl
@[simp] theorem State.modNrt_evNew (s : State) (d : Nat) (f : Nrt → Nrt) : (s.modNrt d f).evNew = s.evNew := rfl
@[simp] theorem State.modNrt_clk (s : State) (d : Nat) (f : Nrt → Nrt) : (s.modNrt d f).clk = s.clk := rfl
@[simp] theorem State.modNrt_parts (s : State) (d : Nat) (f : Nrt → Nrt) : (s.modNrt d f).parts = s.parts := rfl
@[simp] theorem State.modNrt_fns (s : State) (d : Nat) (f : Nrt → Nrt) : (s.modNrt d f).fns = s.fns := rfl
@[simp] theorem State.modNrt_csms (s : State) (d : Nat) (f : Nrt → Nrt) : (s.modNrt d f).csms = s.csms := rfl
@[simp] theorem State.modNrt_pfxs (s : State) (d : Nat) (f : Nrt → Nrt) : (s.modNrt d f).pfxs = s.pfxs := rfl
@[simp] theorem State.modNrt_stgs (s : State) (d : Nat) (f : Nrt → Nrt) : (s.modNrt d f).stgs = s.stgs := rfl
@[simp] theorem State.modNrt_ftls (s : State) (d : Nat) (f : Nrt → Nrt) : (s.modNrt d f).ftls = s.ftls := rfl
@[simp] theorem State.modNrt_wkts (s : State) (d : Nat) (f : Nrt → Nrt) : (s.modNrt d f).wkts = s.wkts := rfl
@[simp] theorem State.modNrt_lnks (s : State) (d : Nat) (f : Nrt → Nrt) : (s.modNrt d f).lnks = s.lnks := rfl
@[simp] theorem State.modNrt_sec (s : State) (d : Nat) (f : Nrt → Nrt) : (s.modNrt d f).sec = s.sec := rfl
@[simp] theorem State.modNrt_pmcs (s : State) (d : Nat) (f : Nrt → Nrt) : (s.modNrt d f).pmcs = s.pmcs := rfl
@[simp] theorem State.modNrt_ras (s : State) (d : Nat) (f : Nrt → Nrt) : (s.modNrt d f).ras = s.ras := rfl
@[simp] theorem State.modNrt_pwr (s : State) (d : Nat) (f : Nrt → Nrt) : (s.modNrt d f).pwr = s.pwr := rfl
@[simp] theorem State.modNrt_svc (s : State) (d : Nat) (f : Nrt → Nrt) : (s.modNrt d f).svc = s.svc := rfl
@[simp] theorem State.modNrt_hbm (s : State) (d : Nat) (f : Nrt → Nrt) : (s.modNrt d f).hbm = s.hbm := rfl

/-! ### After `modWkt` -/
@[simp] theorem State.modWkt_pending (s : State) (d : Nat) (f : Wkt → Wkt) : (s.modWkt d f).pending = s.pending := rfl
@[simp] theorem State.modWkt_out (s : State) (d : Nat) (f : Wkt → Wkt) : (s.modWkt d f).out = s.out := rfl
@[simp] theorem State.modWkt_free (s : State) (d : Nat) (f : Wkt → Wkt) : (s.modWkt d f).free = s.free := rfl
@[simp] theorem State.modWkt_variant (s : State) (d : Nat) (f : Wkt → Wkt) : (s.modWkt d f).variant = s.variant := rfl
@[simp] theorem State.modWkt_regs (s : State) (d : Nat) (f : Wkt → Wkt) : (s.modWkt d f).regs = s.regs := rfl
@[simp] theorem State.modWkt_force (s : State) (d : Nat) (f : Wkt → Wkt) : (s.modWkt d f).force = s.force := rfl
@[simp] theorem State.modWkt_evNew (s : State) (d : Nat) (f : Wkt → Wkt) : (s.modWkt d f).evNew = s.evNew := rfl
@[simp] theorem State.modWkt_clk (s : State) (d : Nat) (f : Wkt → Wkt) : (s.modWkt d f).clk = s.clk := rfl
@[simp] theorem State.modWkt_parts (s : State) (d : Nat) (f : Wkt → Wkt) : (s.modWkt d f).parts = s.parts := rfl
@[simp] theorem State.modWkt_fns (s : State) (d : Nat) (f : Wkt → Wkt) : (s.modWkt d f).fns = s.fns := rfl
@[simp] theorem State.modWkt_csms (s : State) (d : Nat) (f : Wkt → Wkt) : (s.modWkt d f).csms = s.csms := rfl
@[simp] theorem State.modWkt_pfxs (s : State) (d : Nat) (f : Wkt → Wkt) : (s.modWkt d f).pfxs = s.pfxs := rfl
@[simp] theorem State.modWkt_stgs (s : State) (d : Nat) (f : Wkt → Wkt) : (s.modWkt d f).stgs = s.stgs := rfl
@[simp] theorem State.modWkt_ftls (s : State) (d : Nat) (f : Wkt → Wkt) : (s.modWkt d f).ftls = s.ftls := rfl
@[simp] theorem State.modWkt_nrts (s : State) (d : Nat) (f : Wkt → Wkt) : (s.modWkt d f).nrts = s.nrts := rfl
@[simp] theorem State.modWkt_lnks (s : State) (d : Nat) (f : Wkt → Wkt) : (s.modWkt d f).lnks = s.lnks := rfl
@[simp] theorem State.modWkt_sec (s : State) (d : Nat) (f : Wkt → Wkt) : (s.modWkt d f).sec = s.sec := rfl
@[simp] theorem State.modWkt_pmcs (s : State) (d : Nat) (f : Wkt → Wkt) : (s.modWkt d f).pmcs = s.pmcs := rfl
@[simp] theorem State.modWkt_ras (s : State) (d : Nat) (f : Wkt → Wkt) : (s.modWkt d f).ras = s.ras := rfl
@[simp] theorem State.modWkt_pwr (s : State) (d : Nat) (f : Wkt → Wkt) : (s.modWkt d f).pwr = s.pwr := rfl
@[simp] theorem State.modWkt_svc (s : State) (d : Nat) (f : Wkt → Wkt) : (s.modWkt d f).svc = s.svc := rfl
@[simp] theorem State.modWkt_hbm (s : State) (d : Nat) (f : Wkt → Wkt) : (s.modWkt d f).hbm = s.hbm := rfl

/-! ### After `modLnk` -/
@[simp] theorem State.modLnk_pending (s : State) (d : Nat) (f : Lnk → Lnk) : (s.modLnk d f).pending = s.pending := rfl
@[simp] theorem State.modLnk_out (s : State) (d : Nat) (f : Lnk → Lnk) : (s.modLnk d f).out = s.out := rfl
@[simp] theorem State.modLnk_free (s : State) (d : Nat) (f : Lnk → Lnk) : (s.modLnk d f).free = s.free := rfl
@[simp] theorem State.modLnk_variant (s : State) (d : Nat) (f : Lnk → Lnk) : (s.modLnk d f).variant = s.variant := rfl
@[simp] theorem State.modLnk_regs (s : State) (d : Nat) (f : Lnk → Lnk) : (s.modLnk d f).regs = s.regs := rfl
@[simp] theorem State.modLnk_force (s : State) (d : Nat) (f : Lnk → Lnk) : (s.modLnk d f).force = s.force := rfl
@[simp] theorem State.modLnk_evNew (s : State) (d : Nat) (f : Lnk → Lnk) : (s.modLnk d f).evNew = s.evNew := rfl
@[simp] theorem State.modLnk_clk (s : State) (d : Nat) (f : Lnk → Lnk) : (s.modLnk d f).clk = s.clk := rfl
@[simp] theorem State.modLnk_parts (s : State) (d : Nat) (f : Lnk → Lnk) : (s.modLnk d f).parts = s.parts := rfl
@[simp] theorem State.modLnk_fns (s : State) (d : Nat) (f : Lnk → Lnk) : (s.modLnk d f).fns = s.fns := rfl
@[simp] theorem State.modLnk_csms (s : State) (d : Nat) (f : Lnk → Lnk) : (s.modLnk d f).csms = s.csms := rfl
@[simp] theorem State.modLnk_pfxs (s : State) (d : Nat) (f : Lnk → Lnk) : (s.modLnk d f).pfxs = s.pfxs := rfl
@[simp] theorem State.modLnk_stgs (s : State) (d : Nat) (f : Lnk → Lnk) : (s.modLnk d f).stgs = s.stgs := rfl
@[simp] theorem State.modLnk_ftls (s : State) (d : Nat) (f : Lnk → Lnk) : (s.modLnk d f).ftls = s.ftls := rfl
@[simp] theorem State.modLnk_nrts (s : State) (d : Nat) (f : Lnk → Lnk) : (s.modLnk d f).nrts = s.nrts := rfl
@[simp] theorem State.modLnk_wkts (s : State) (d : Nat) (f : Lnk → Lnk) : (s.modLnk d f).wkts = s.wkts := rfl
@[simp] theorem State.modLnk_sec (s : State) (d : Nat) (f : Lnk → Lnk) : (s.modLnk d f).sec = s.sec := rfl
@[simp] theorem State.modLnk_pmcs (s : State) (d : Nat) (f : Lnk → Lnk) : (s.modLnk d f).pmcs = s.pmcs := rfl
@[simp] theorem State.modLnk_ras (s : State) (d : Nat) (f : Lnk → Lnk) : (s.modLnk d f).ras = s.ras := rfl
@[simp] theorem State.modLnk_pwr (s : State) (d : Nat) (f : Lnk → Lnk) : (s.modLnk d f).pwr = s.pwr := rfl
@[simp] theorem State.modLnk_svc (s : State) (d : Nat) (f : Lnk → Lnk) : (s.modLnk d f).svc = s.svc := rfl
@[simp] theorem State.modLnk_hbm (s : State) (d : Nat) (f : Lnk → Lnk) : (s.modLnk d f).hbm = s.hbm := rfl

/-! ### After `modPmc` -/
@[simp] theorem State.modPmc_pending (s : State) (p : Nat) (f : Pmc → Pmc) : (s.modPmc p f).pending = s.pending := rfl
@[simp] theorem State.modPmc_out (s : State) (p : Nat) (f : Pmc → Pmc) : (s.modPmc p f).out = s.out := rfl
@[simp] theorem State.modPmc_free (s : State) (p : Nat) (f : Pmc → Pmc) : (s.modPmc p f).free = s.free := rfl
@[simp] theorem State.modPmc_variant (s : State) (p : Nat) (f : Pmc → Pmc) : (s.modPmc p f).variant = s.variant := rfl
@[simp] theorem State.modPmc_regs (s : State) (p : Nat) (f : Pmc → Pmc) : (s.modPmc p f).regs = s.regs := rfl
@[simp] theorem State.modPmc_force (s : State) (p : Nat) (f : Pmc → Pmc) : (s.modPmc p f).force = s.force := rfl
@[simp] theorem State.modPmc_evNew (s : State) (p : Nat) (f : Pmc → Pmc) : (s.modPmc p f).evNew = s.evNew := rfl
@[simp] theorem State.modPmc_clk (s : State) (p : Nat) (f : Pmc → Pmc) : (s.modPmc p f).clk = s.clk := rfl
@[simp] theorem State.modPmc_parts (s : State) (p : Nat) (f : Pmc → Pmc) : (s.modPmc p f).parts = s.parts := rfl
@[simp] theorem State.modPmc_fns (s : State) (p : Nat) (f : Pmc → Pmc) : (s.modPmc p f).fns = s.fns := rfl
@[simp] theorem State.modPmc_csms (s : State) (p : Nat) (f : Pmc → Pmc) : (s.modPmc p f).csms = s.csms := rfl
@[simp] theorem State.modPmc_pfxs (s : State) (p : Nat) (f : Pmc → Pmc) : (s.modPmc p f).pfxs = s.pfxs := rfl
@[simp] theorem State.modPmc_stgs (s : State) (p : Nat) (f : Pmc → Pmc) : (s.modPmc p f).stgs = s.stgs := rfl
@[simp] theorem State.modPmc_ftls (s : State) (p : Nat) (f : Pmc → Pmc) : (s.modPmc p f).ftls = s.ftls := rfl
@[simp] theorem State.modPmc_nrts (s : State) (p : Nat) (f : Pmc → Pmc) : (s.modPmc p f).nrts = s.nrts := rfl
@[simp] theorem State.modPmc_wkts (s : State) (p : Nat) (f : Pmc → Pmc) : (s.modPmc p f).wkts = s.wkts := rfl
@[simp] theorem State.modPmc_lnks (s : State) (p : Nat) (f : Pmc → Pmc) : (s.modPmc p f).lnks = s.lnks := rfl
@[simp] theorem State.modPmc_sec (s : State) (p : Nat) (f : Pmc → Pmc) : (s.modPmc p f).sec = s.sec := rfl
@[simp] theorem State.modPmc_ras (s : State) (p : Nat) (f : Pmc → Pmc) : (s.modPmc p f).ras = s.ras := rfl
@[simp] theorem State.modPmc_pwr (s : State) (p : Nat) (f : Pmc → Pmc) : (s.modPmc p f).pwr = s.pwr := rfl
@[simp] theorem State.modPmc_svc (s : State) (p : Nat) (f : Pmc → Pmc) : (s.modPmc p f).svc = s.svc := rfl
@[simp] theorem State.modPmc_hbm (s : State) (p : Nat) (f : Pmc → Pmc) : (s.modPmc p f).hbm = s.hbm := rfl

/-! ### After `noteEvt` -/
@[simp] theorem State.noteEvt_pending (s : State) (off lo : Nat) : (s.noteEvt off lo).pending = s.pending := rfl
@[simp] theorem State.noteEvt_out (s : State) (off lo : Nat) : (s.noteEvt off lo).out = s.out := rfl
@[simp] theorem State.noteEvt_free (s : State) (off lo : Nat) : (s.noteEvt off lo).free = s.free := rfl
@[simp] theorem State.noteEvt_variant (s : State) (off lo : Nat) : (s.noteEvt off lo).variant = s.variant := rfl
@[simp] theorem State.noteEvt_regs (s : State) (off lo : Nat) : (s.noteEvt off lo).regs = s.regs := rfl
@[simp] theorem State.noteEvt_force (s : State) (off lo : Nat) : (s.noteEvt off lo).force = s.force := rfl
@[simp] theorem State.noteEvt_clk (s : State) (off lo : Nat) : (s.noteEvt off lo).clk = s.clk := rfl
@[simp] theorem State.noteEvt_parts (s : State) (off lo : Nat) : (s.noteEvt off lo).parts = s.parts := rfl
@[simp] theorem State.noteEvt_fns (s : State) (off lo : Nat) : (s.noteEvt off lo).fns = s.fns := rfl
@[simp] theorem State.noteEvt_csms (s : State) (off lo : Nat) : (s.noteEvt off lo).csms = s.csms := rfl
@[simp] theorem State.noteEvt_pfxs (s : State) (off lo : Nat) : (s.noteEvt off lo).pfxs = s.pfxs := rfl
@[simp] theorem State.noteEvt_stgs (s : State) (off lo : Nat) : (s.noteEvt off lo).stgs = s.stgs := rfl
@[simp] theorem State.noteEvt_ftls (s : State) (off lo : Nat) : (s.noteEvt off lo).ftls = s.ftls := rfl
@[simp] theorem State.noteEvt_nrts (s : State) (off lo : Nat) : (s.noteEvt off lo).nrts = s.nrts := rfl
@[simp] theorem State.noteEvt_wkts (s : State) (off lo : Nat) : (s.noteEvt off lo).wkts = s.wkts := rfl
@[simp] theorem State.noteEvt_lnks (s : State) (off lo : Nat) : (s.noteEvt off lo).lnks = s.lnks := rfl
@[simp] theorem State.noteEvt_sec (s : State) (off lo : Nat) : (s.noteEvt off lo).sec = s.sec := rfl
@[simp] theorem State.noteEvt_pmcs (s : State) (off lo : Nat) : (s.noteEvt off lo).pmcs = s.pmcs := rfl
@[simp] theorem State.noteEvt_ras (s : State) (off lo : Nat) : (s.noteEvt off lo).ras = s.ras := rfl
@[simp] theorem State.noteEvt_pwr (s : State) (off lo : Nat) : (s.noteEvt off lo).pwr = s.pwr := rfl
@[simp] theorem State.noteEvt_svc (s : State) (off lo : Nat) : (s.noteEvt off lo).svc = s.svc := rfl
@[simp] theorem State.noteEvt_hbm (s : State) (off lo : Nat) : (s.noteEvt off lo).hbm = s.hbm := rfl

/-! ### After `modPwr` -/
@[simp] theorem State.modPwr_pending (s : State) (f : Pwr → Pwr) : (s.modPwr f).pending = s.pending := rfl
@[simp] theorem State.modPwr_out (s : State) (f : Pwr → Pwr) : (s.modPwr f).out = s.out := rfl
@[simp] theorem State.modPwr_free (s : State) (f : Pwr → Pwr) : (s.modPwr f).free = s.free := rfl
@[simp] theorem State.modPwr_variant (s : State) (f : Pwr → Pwr) : (s.modPwr f).variant = s.variant := rfl
@[simp] theorem State.modPwr_regs (s : State) (f : Pwr → Pwr) : (s.modPwr f).regs = s.regs := rfl
@[simp] theorem State.modPwr_force (s : State) (f : Pwr → Pwr) : (s.modPwr f).force = s.force := rfl
@[simp] theorem State.modPwr_evNew (s : State) (f : Pwr → Pwr) : (s.modPwr f).evNew = s.evNew := rfl
@[simp] theorem State.modPwr_clk (s : State) (f : Pwr → Pwr) : (s.modPwr f).clk = s.clk := rfl
@[simp] theorem State.modPwr_parts (s : State) (f : Pwr → Pwr) : (s.modPwr f).parts = s.parts := rfl
@[simp] theorem State.modPwr_fns (s : State) (f : Pwr → Pwr) : (s.modPwr f).fns = s.fns := rfl
@[simp] theorem State.modPwr_csms (s : State) (f : Pwr → Pwr) : (s.modPwr f).csms = s.csms := rfl
@[simp] theorem State.modPwr_pfxs (s : State) (f : Pwr → Pwr) : (s.modPwr f).pfxs = s.pfxs := rfl
@[simp] theorem State.modPwr_stgs (s : State) (f : Pwr → Pwr) : (s.modPwr f).stgs = s.stgs := rfl
@[simp] theorem State.modPwr_ftls (s : State) (f : Pwr → Pwr) : (s.modPwr f).ftls = s.ftls := rfl
@[simp] theorem State.modPwr_nrts (s : State) (f : Pwr → Pwr) : (s.modPwr f).nrts = s.nrts := rfl
@[simp] theorem State.modPwr_wkts (s : State) (f : Pwr → Pwr) : (s.modPwr f).wkts = s.wkts := rfl
@[simp] theorem State.modPwr_lnks (s : State) (f : Pwr → Pwr) : (s.modPwr f).lnks = s.lnks := rfl
@[simp] theorem State.modPwr_sec (s : State) (f : Pwr → Pwr) : (s.modPwr f).sec = s.sec := rfl
@[simp] theorem State.modPwr_pmcs (s : State) (f : Pwr → Pwr) : (s.modPwr f).pmcs = s.pmcs := rfl
@[simp] theorem State.modPwr_ras (s : State) (f : Pwr → Pwr) : (s.modPwr f).ras = s.ras := rfl
@[simp] theorem State.modPwr_svc (s : State) (f : Pwr → Pwr) : (s.modPwr f).svc = s.svc := rfl
@[simp] theorem State.modPwr_hbm (s : State) (f : Pwr → Pwr) : (s.modPwr f).hbm = s.hbm := rfl

/-! ### Fields and records read after an update of another component -/
@[simp] theorem State.fset_part (s : State) (F : Fld) (i v : Nat) (x : Nat) : (s.fset F i v).part x = s.part x := rfl
@[simp] theorem State.fset_fn (s : State) (F : Fld) (i v : Nat) (x : Nat) : (s.fset F i v).fn x = s.fn x := rfl
@[simp] theorem State.fset_csm (s : State) (F : Fld) (i v : Nat) (x : Nat) : (s.fset F i v).csm x = s.csm x := rfl
@[simp] theorem State.fset_pfx (s : State) (F : Fld) (i v : Nat) (x : Nat) : (s.fset F i v).pfx x = s.pfx x := rfl
@[simp] theorem State.fset_stg (s : State) (F : Fld) (i v : Nat) (x : Nat) : (s.fset F i v).stg x = s.stg x := rfl
@[simp] theorem State.fset_ftl (s : State) (F : Fld) (i v : Nat) (x : Nat) : (s.fset F i v).ftl x = s.ftl x := rfl
@[simp] theorem State.fset_nrt (s : State) (F : Fld) (i v : Nat) (x : Nat) : (s.fset F i v).nrt x = s.nrt x := rfl
@[simp] theorem State.fset_wkt (s : State) (F : Fld) (i v : Nat) (x : Nat) : (s.fset F i v).wkt x = s.wkt x := rfl
@[simp] theorem State.fset_lnk (s : State) (F : Fld) (i v : Nat) (x : Nat) : (s.fset F i v).lnk x = s.lnk x := rfl
@[simp] theorem State.fset_pmcOf (s : State) (F : Fld) (i v : Nat) (x : Nat) : (s.fset F i v).pmcOf x = s.pmcOf x := rfl
@[simp] theorem State.fput_part (s : State) (F : Fld) (i : Nat) (b : Bool) (x : Nat) : (s.fput F i b).part x = s.part x := rfl
@[simp] theorem State.fput_fn (s : State) (F : Fld) (i : Nat) (b : Bool) (x : Nat) : (s.fput F i b).fn x = s.fn x := rfl
@[simp] theorem State.fput_csm (s : State) (F : Fld) (i : Nat) (b : Bool) (x : Nat) : (s.fput F i b).csm x = s.csm x := rfl
@[simp] theorem State.fput_pfx (s : State) (F : Fld) (i : Nat) (b : Bool) (x : Nat) : (s.fput F i b).pfx x = s.pfx x := rfl
@[simp] theorem State.fput_stg (s : State) (F : Fld) (i : Nat) (b : Bool) (x : Nat) : (s.fput F i b).stg x = s.stg x := rfl
@[simp] theorem State.fput_ftl (s : State) (F : Fld) (i : Nat) (b : Bool) (x : Nat) : (s.fput F i b).ftl x = s.ftl x := rfl
@[simp] theorem State.fput_nrt (s : State) (F : Fld) (i : Nat) (b : Bool) (x : Nat) : (s.fput F i b).nrt x = s.nrt x := rfl
@[simp] theorem State.fput_wkt (s : State) (F : Fld) (i : Nat) (b : Bool) (x : Nat) : (s.fput F i b).wkt x = s.wkt x := rfl
@[simp] theorem State.fput_lnk (s : State) (F : Fld) (i : Nat) (b : Bool) (x : Nat) : (s.fput F i b).lnk x = s.lnk x := rfl
@[simp] theorem State.fput_pmcOf (s : State) (F : Fld) (i : Nat) (b : Bool) (x : Nat) : (s.fput F i b).pmcOf x = s.pmcOf x := rfl
@[simp] theorem State.fadd_part (s : State) (F : Fld) (i n : Nat) (x : Nat) : (s.fadd F i n).part x = s.part x := rfl
@[simp] theorem State.fadd_fn (s : State) (F : Fld) (i n : Nat) (x : Nat) : (s.fadd F i n).fn x = s.fn x := rfl
@[simp] theorem State.fadd_csm (s : State) (F : Fld) (i n : Nat) (x : Nat) : (s.fadd F i n).csm x = s.csm x := rfl
@[simp] theorem State.fadd_pfx (s : State) (F : Fld) (i n : Nat) (x : Nat) : (s.fadd F i n).pfx x = s.pfx x := rfl
@[simp] theorem State.fadd_stg (s : State) (F : Fld) (i n : Nat) (x : Nat) : (s.fadd F i n).stg x = s.stg x := rfl
@[simp] theorem State.fadd_ftl (s : State) (F : Fld) (i n : Nat) (x : Nat) : (s.fadd F i n).ftl x = s.ftl x := rfl
@[simp] theorem State.fadd_nrt (s : State) (F : Fld) (i n : Nat) (x : Nat) : (s.fadd F i n).nrt x = s.nrt x := rfl
@[simp] theorem State.fadd_wkt (s : State) (F : Fld) (i n : Nat) (x : Nat) : (s.fadd F i n).wkt x = s.wkt x := rfl
@[simp] theorem State.fadd_lnk (s : State) (F : Fld) (i n : Nat) (x : Nat) : (s.fadd F i n).lnk x = s.lnk x := rfl
@[simp] theorem State.fadd_pmcOf (s : State) (F : Fld) (i n : Nat) (x : Nat) : (s.fadd F i n).pmcOf x = s.pmcOf x := rfl
@[simp] theorem State.fsat_part (s : State) (F : Fld) (i v : Nat) (x : Nat) : (s.fsat F i v).part x = s.part x := rfl
@[simp] theorem State.fsat_fn (s : State) (F : Fld) (i v : Nat) (x : Nat) : (s.fsat F i v).fn x = s.fn x := rfl
@[simp] theorem State.fsat_csm (s : State) (F : Fld) (i v : Nat) (x : Nat) : (s.fsat F i v).csm x = s.csm x := rfl
@[simp] theorem State.fsat_pfx (s : State) (F : Fld) (i v : Nat) (x : Nat) : (s.fsat F i v).pfx x = s.pfx x := rfl
@[simp] theorem State.fsat_stg (s : State) (F : Fld) (i v : Nat) (x : Nat) : (s.fsat F i v).stg x = s.stg x := rfl
@[simp] theorem State.fsat_ftl (s : State) (F : Fld) (i v : Nat) (x : Nat) : (s.fsat F i v).ftl x = s.ftl x := rfl
@[simp] theorem State.fsat_nrt (s : State) (F : Fld) (i v : Nat) (x : Nat) : (s.fsat F i v).nrt x = s.nrt x := rfl
@[simp] theorem State.fsat_wkt (s : State) (F : Fld) (i v : Nat) (x : Nat) : (s.fsat F i v).wkt x = s.wkt x := rfl
@[simp] theorem State.fsat_lnk (s : State) (F : Fld) (i v : Nat) (x : Nat) : (s.fsat F i v).lnk x = s.lnk x := rfl
@[simp] theorem State.fsat_pmcOf (s : State) (F : Fld) (i v : Nat) (x : Nat) : (s.fsat F i v).pmcOf x = s.pmcOf x := rfl
@[simp] theorem State.fmax_part (s : State) (F : Fld) (i v : Nat) (x : Nat) : (s.fmax F i v).part x = s.part x := rfl
@[simp] theorem State.fmax_fn (s : State) (F : Fld) (i v : Nat) (x : Nat) : (s.fmax F i v).fn x = s.fn x := rfl
@[simp] theorem State.fmax_csm (s : State) (F : Fld) (i v : Nat) (x : Nat) : (s.fmax F i v).csm x = s.csm x := rfl
@[simp] theorem State.fmax_pfx (s : State) (F : Fld) (i v : Nat) (x : Nat) : (s.fmax F i v).pfx x = s.pfx x := rfl
@[simp] theorem State.fmax_stg (s : State) (F : Fld) (i v : Nat) (x : Nat) : (s.fmax F i v).stg x = s.stg x := rfl
@[simp] theorem State.fmax_ftl (s : State) (F : Fld) (i v : Nat) (x : Nat) : (s.fmax F i v).ftl x = s.ftl x := rfl
@[simp] theorem State.fmax_nrt (s : State) (F : Fld) (i v : Nat) (x : Nat) : (s.fmax F i v).nrt x = s.nrt x := rfl
@[simp] theorem State.fmax_wkt (s : State) (F : Fld) (i v : Nat) (x : Nat) : (s.fmax F i v).wkt x = s.wkt x := rfl
@[simp] theorem State.fmax_lnk (s : State) (F : Fld) (i v : Nat) (x : Nat) : (s.fmax F i v).lnk x = s.lnk x := rfl
@[simp] theorem State.fmax_pmcOf (s : State) (F : Fld) (i v : Nat) (x : Nat) : (s.fmax F i v).pmcOf x = s.pmcOf x := rfl
@[simp] theorem State.frst_part (s : State) (F : Fld) (i : Nat) (x : Nat) : (s.frst F i).part x = s.part x := rfl
@[simp] theorem State.frst_fn (s : State) (F : Fld) (i : Nat) (x : Nat) : (s.frst F i).fn x = s.fn x := rfl
@[simp] theorem State.frst_csm (s : State) (F : Fld) (i : Nat) (x : Nat) : (s.frst F i).csm x = s.csm x := rfl
@[simp] theorem State.frst_pfx (s : State) (F : Fld) (i : Nat) (x : Nat) : (s.frst F i).pfx x = s.pfx x := rfl
@[simp] theorem State.frst_stg (s : State) (F : Fld) (i : Nat) (x : Nat) : (s.frst F i).stg x = s.stg x := rfl
@[simp] theorem State.frst_ftl (s : State) (F : Fld) (i : Nat) (x : Nat) : (s.frst F i).ftl x = s.ftl x := rfl
@[simp] theorem State.frst_nrt (s : State) (F : Fld) (i : Nat) (x : Nat) : (s.frst F i).nrt x = s.nrt x := rfl
@[simp] theorem State.frst_wkt (s : State) (F : Fld) (i : Nat) (x : Nat) : (s.frst F i).wkt x = s.wkt x := rfl
@[simp] theorem State.frst_lnk (s : State) (F : Fld) (i : Nat) (x : Nat) : (s.frst F i).lnk x = s.lnk x := rfl
@[simp] theorem State.frst_pmcOf (s : State) (F : Fld) (i : Nat) (x : Nat) : (s.frst F i).pmcOf x = s.pmcOf x := rfl
@[simp] theorem State.fputAt_part (s : State) (F : Fld) (i k : Nat) (b : Bool) (x : Nat) : (s.fputAt F i k b).part x = s.part x := rfl
@[simp] theorem State.fputAt_fn (s : State) (F : Fld) (i k : Nat) (b : Bool) (x : Nat) : (s.fputAt F i k b).fn x = s.fn x := rfl
@[simp] theorem State.fputAt_csm (s : State) (F : Fld) (i k : Nat) (b : Bool) (x : Nat) : (s.fputAt F i k b).csm x = s.csm x := rfl
@[simp] theorem State.fputAt_pfx (s : State) (F : Fld) (i k : Nat) (b : Bool) (x : Nat) : (s.fputAt F i k b).pfx x = s.pfx x := rfl
@[simp] theorem State.fputAt_stg (s : State) (F : Fld) (i k : Nat) (b : Bool) (x : Nat) : (s.fputAt F i k b).stg x = s.stg x := rfl
@[simp] theorem State.fputAt_ftl (s : State) (F : Fld) (i k : Nat) (b : Bool) (x : Nat) : (s.fputAt F i k b).ftl x = s.ftl x := rfl
@[simp] theorem State.fputAt_nrt (s : State) (F : Fld) (i k : Nat) (b : Bool) (x : Nat) : (s.fputAt F i k b).nrt x = s.nrt x := rfl
@[simp] theorem State.fputAt_wkt (s : State) (F : Fld) (i k : Nat) (b : Bool) (x : Nat) : (s.fputAt F i k b).wkt x = s.wkt x := rfl
@[simp] theorem State.fputAt_lnk (s : State) (F : Fld) (i k : Nat) (b : Bool) (x : Nat) : (s.fputAt F i k b).lnk x = s.lnk x := rfl
@[simp] theorem State.fputAt_pmcOf (s : State) (F : Fld) (i k : Nat) (b : Bool) (x : Nat) : (s.fputAt F i k b).pmcOf x = s.pmcOf x := rfl
@[simp] theorem State.fsetLater_part (s : State) (F : Fld) (i v : Nat) (x : Nat) : (s.fsetLater F i v).part x = s.part x := rfl
@[simp] theorem State.fsetLater_fn (s : State) (F : Fld) (i v : Nat) (x : Nat) : (s.fsetLater F i v).fn x = s.fn x := rfl
@[simp] theorem State.fsetLater_csm (s : State) (F : Fld) (i v : Nat) (x : Nat) : (s.fsetLater F i v).csm x = s.csm x := rfl
@[simp] theorem State.fsetLater_pfx (s : State) (F : Fld) (i v : Nat) (x : Nat) : (s.fsetLater F i v).pfx x = s.pfx x := rfl
@[simp] theorem State.fsetLater_stg (s : State) (F : Fld) (i v : Nat) (x : Nat) : (s.fsetLater F i v).stg x = s.stg x := rfl
@[simp] theorem State.fsetLater_ftl (s : State) (F : Fld) (i v : Nat) (x : Nat) : (s.fsetLater F i v).ftl x = s.ftl x := rfl
@[simp] theorem State.fsetLater_nrt (s : State) (F : Fld) (i v : Nat) (x : Nat) : (s.fsetLater F i v).nrt x = s.nrt x := rfl
@[simp] theorem State.fsetLater_wkt (s : State) (F : Fld) (i v : Nat) (x : Nat) : (s.fsetLater F i v).wkt x = s.wkt x := rfl
@[simp] theorem State.fsetLater_lnk (s : State) (F : Fld) (i v : Nat) (x : Nat) : (s.fsetLater F i v).lnk x = s.lnk x := rfl
@[simp] theorem State.fsetLater_pmcOf (s : State) (F : Fld) (i v : Nat) (x : Nat) : (s.fsetLater F i v).pmcOf x = s.pmcOf x := rfl
@[simp] theorem State.applyForce_fget (s : State) (l : List Nat) (G : Fld) (j : Nat) : (s.applyForce l).fget G j = s.fget G j := rfl
@[simp] theorem State.applyForce_fbit (s : State) (l : List Nat) (G : Fld) (j : Nat) : (s.applyForce l).fbit G j = s.fbit G j := rfl
@[simp] theorem State.applyForce_part (s : State) (l : List Nat) (x : Nat) : (s.applyForce l).part x = s.part x := rfl
@[simp] theorem State.applyForce_fn (s : State) (l : List Nat) (x : Nat) : (s.applyForce l).fn x = s.fn x := rfl
@[simp] theorem State.applyForce_csm (s : State) (l : List Nat) (x : Nat) : (s.applyForce l).csm x = s.csm x := rfl
@[simp] theorem State.applyForce_pfx (s : State) (l : List Nat) (x : Nat) : (s.applyForce l).pfx x = s.pfx x := rfl
@[simp] theorem State.applyForce_stg (s : State) (l : List Nat) (x : Nat) : (s.applyForce l).stg x = s.stg x := rfl
@[simp] theorem State.applyForce_ftl (s : State) (l : List Nat) (x : Nat) : (s.applyForce l).ftl x = s.ftl x := rfl
@[simp] theorem State.applyForce_nrt (s : State) (l : List Nat) (x : Nat) : (s.applyForce l).nrt x = s.nrt x := rfl
@[simp] theorem State.applyForce_wkt (s : State) (l : List Nat) (x : Nat) : (s.applyForce l).wkt x = s.wkt x := rfl
@[simp] theorem State.applyForce_lnk (s : State) (l : List Nat) (x : Nat) : (s.applyForce l).lnk x = s.lnk x := rfl
@[simp] theorem State.applyForce_pmcOf (s : State) (l : List Nat) (x : Nat) : (s.applyForce l).pmcOf x = s.pmcOf x := rfl
@[simp] theorem State.emit_fget (s : State) (e : Emit) (G : Fld) (j : Nat) : (s.emit e).fget G j = s.fget G j := rfl
@[simp] theorem State.emit_fbit (s : State) (e : Emit) (G : Fld) (j : Nat) : (s.emit e).fbit G j = s.fbit G j := rfl
@[simp] theorem State.emit_part (s : State) (e : Emit) (x : Nat) : (s.emit e).part x = s.part x := rfl
@[simp] theorem State.emit_fn (s : State) (e : Emit) (x : Nat) : (s.emit e).fn x = s.fn x := rfl
@[simp] theorem State.emit_csm (s : State) (e : Emit) (x : Nat) : (s.emit e).csm x = s.csm x := rfl
@[simp] theorem State.emit_pfx (s : State) (e : Emit) (x : Nat) : (s.emit e).pfx x = s.pfx x := rfl
@[simp] theorem State.emit_stg (s : State) (e : Emit) (x : Nat) : (s.emit e).stg x = s.stg x := rfl
@[simp] theorem State.emit_ftl (s : State) (e : Emit) (x : Nat) : (s.emit e).ftl x = s.ftl x := rfl
@[simp] theorem State.emit_nrt (s : State) (e : Emit) (x : Nat) : (s.emit e).nrt x = s.nrt x := rfl
@[simp] theorem State.emit_wkt (s : State) (e : Emit) (x : Nat) : (s.emit e).wkt x = s.wkt x := rfl
@[simp] theorem State.emit_lnk (s : State) (e : Emit) (x : Nat) : (s.emit e).lnk x = s.lnk x := rfl
@[simp] theorem State.emit_pmcOf (s : State) (e : Emit) (x : Nat) : (s.emit e).pmcOf x = s.pmcOf x := rfl
@[simp] theorem State.setPart_fget (s : State) (p : Nat) (v : Part) (G : Fld) (j : Nat) : (s.setPart p v).fget G j = s.fget G j := rfl
@[simp] theorem State.setPart_fbit (s : State) (p : Nat) (v : Part) (G : Fld) (j : Nat) : (s.setPart p v).fbit G j = s.fbit G j := rfl
@[simp] theorem State.setPart_fn (s : State) (p : Nat) (v : Part) (x : Nat) : (s.setPart p v).fn x = s.fn x := rfl
@[simp] theorem State.setPart_csm (s : State) (p : Nat) (v : Part) (x : Nat) : (s.setPart p v).csm x = s.csm x := rfl
@[simp] theorem State.setPart_pfx (s : State) (p : Nat) (v : Part) (x : Nat) : (s.setPart p v).pfx x = s.pfx x := rfl
@[simp] theorem State.setPart_stg (s : State) (p : Nat) (v : Part) (x : Nat) : (s.setPart p v).stg x = s.stg x := rfl
@[simp] theorem State.setPart_ftl (s : State) (p : Nat) (v : Part) (x : Nat) : (s.setPart p v).ftl x = s.ftl x := rfl
@[simp] theorem State.setPart_nrt (s : State) (p : Nat) (v : Part) (x : Nat) : (s.setPart p v).nrt x = s.nrt x := rfl
@[simp] theorem State.setPart_wkt (s : State) (p : Nat) (v : Part) (x : Nat) : (s.setPart p v).wkt x = s.wkt x := rfl
@[simp] theorem State.setPart_lnk (s : State) (p : Nat) (v : Part) (x : Nat) : (s.setPart p v).lnk x = s.lnk x := rfl
@[simp] theorem State.setPart_pmcOf (s : State) (p : Nat) (v : Part) (x : Nat) : (s.setPart p v).pmcOf x = s.pmcOf x := rfl
@[simp] theorem State.modPart_fget (s : State) (p : Nat) (f : Part → Part) (G : Fld) (j : Nat) : (s.modPart p f).fget G j = s.fget G j := rfl
@[simp] theorem State.modPart_fbit (s : State) (p : Nat) (f : Part → Part) (G : Fld) (j : Nat) : (s.modPart p f).fbit G j = s.fbit G j := rfl
@[simp] theorem State.modPart_fn (s : State) (p : Nat) (f : Part → Part) (x : Nat) : (s.modPart p f).fn x = s.fn x := rfl
@[simp] theorem State.modPart_csm (s : State) (p : Nat) (f : Part → Part) (x : Nat) : (s.modPart p f).csm x = s.csm x := rfl
@[simp] theorem State.modPart_pfx (s : State) (p : Nat) (f : Part → Part) (x : Nat) : (s.modPart p f).pfx x = s.pfx x := rfl
@[simp] theorem State.modPart_stg (s : State) (p : Nat) (f : Part → Part) (x : Nat) : (s.modPart p f).stg x = s.stg x := rfl
@[simp] theorem State.modPart_ftl (s : State) (p : Nat) (f : Part → Part) (x : Nat) : (s.modPart p f).ftl x = s.ftl x := rfl
@[simp] theorem State.modPart_nrt (s : State) (p : Nat) (f : Part → Part) (x : Nat) : (s.modPart p f).nrt x = s.nrt x := rfl
@[simp] theorem State.modPart_wkt (s : State) (p : Nat) (f : Part → Part) (x : Nat) : (s.modPart p f).wkt x = s.wkt x := rfl
@[simp] theorem State.modPart_lnk (s : State) (p : Nat) (f : Part → Part) (x : Nat) : (s.modPart p f).lnk x = s.lnk x := rfl
@[simp] theorem State.modPart_pmcOf (s : State) (p : Nat) (f : Part → Part) (x : Nat) : (s.modPart p f).pmcOf x = s.pmcOf x := rfl
@[simp] theorem State.setFn_fget (s : State) (k : Nat) (v : HostFn) (G : Fld) (j : Nat) : (s.setFn k v).fget G j = s.fget G j := rfl
@[simp] theorem State.setFn_fbit (s : State) (k : Nat) (v : HostFn) (G : Fld) (j : Nat) : (s.setFn k v).fbit G j = s.fbit G j := rfl
@[simp] theorem State.setFn_part (s : State) (k : Nat) (v : HostFn) (x : Nat) : (s.setFn k v).part x = s.part x := rfl
@[simp] theorem State.setFn_csm (s : State) (k : Nat) (v : HostFn) (x : Nat) : (s.setFn k v).csm x = s.csm x := rfl
@[simp] theorem State.setFn_pfx (s : State) (k : Nat) (v : HostFn) (x : Nat) : (s.setFn k v).pfx x = s.pfx x := rfl
@[simp] theorem State.setFn_stg (s : State) (k : Nat) (v : HostFn) (x : Nat) : (s.setFn k v).stg x = s.stg x := rfl
@[simp] theorem State.setFn_ftl (s : State) (k : Nat) (v : HostFn) (x : Nat) : (s.setFn k v).ftl x = s.ftl x := rfl
@[simp] theorem State.setFn_nrt (s : State) (k : Nat) (v : HostFn) (x : Nat) : (s.setFn k v).nrt x = s.nrt x := rfl
@[simp] theorem State.setFn_wkt (s : State) (k : Nat) (v : HostFn) (x : Nat) : (s.setFn k v).wkt x = s.wkt x := rfl
@[simp] theorem State.setFn_lnk (s : State) (k : Nat) (v : HostFn) (x : Nat) : (s.setFn k v).lnk x = s.lnk x := rfl
@[simp] theorem State.setFn_pmcOf (s : State) (k : Nat) (v : HostFn) (x : Nat) : (s.setFn k v).pmcOf x = s.pmcOf x := rfl
@[simp] theorem State.modFn_fget (s : State) (k : Nat) (f : HostFn → HostFn) (G : Fld) (j : Nat) : (s.modFn k f).fget G j = s.fget G j := rfl
@[simp] theorem State.modFn_fbit (s : State) (k : Nat) (f : HostFn → HostFn) (G : Fld) (j : Nat) : (s.modFn k f).fbit G j = s.fbit G j := rfl
@[simp] theorem State.modFn_part (s : State) (k : Nat) (f : HostFn → HostFn) (x : Nat) : (s.modFn k f).part x = s.part x := rfl
@[simp] theorem State.modFn_csm (s : State) (k : Nat) (f : HostFn → HostFn) (x : Nat) : (s.modFn k f).csm x = s.csm x := rfl
@[simp] theorem State.modFn_pfx (s : State) (k : Nat) (f : HostFn → HostFn) (x : Nat) : (s.modFn k f).pfx x = s.pfx x := rfl
@[simp] theorem State.modFn_stg (s : State) (k : Nat) (f : HostFn → HostFn) (x : Nat) : (s.modFn k f).stg x = s.stg x := rfl
@[simp] theorem State.modFn_ftl (s : State) (k : Nat) (f : HostFn → HostFn) (x : Nat) : (s.modFn k f).ftl x = s.ftl x := rfl
@[simp] theorem State.modFn_nrt (s : State) (k : Nat) (f : HostFn → HostFn) (x : Nat) : (s.modFn k f).nrt x = s.nrt x := rfl
@[simp] theorem State.modFn_wkt (s : State) (k : Nat) (f : HostFn → HostFn) (x : Nat) : (s.modFn k f).wkt x = s.wkt x := rfl
@[simp] theorem State.modFn_lnk (s : State) (k : Nat) (f : HostFn → HostFn) (x : Nat) : (s.modFn k f).lnk x = s.lnk x := rfl
@[simp] theorem State.modFn_pmcOf (s : State) (k : Nat) (f : HostFn → HostFn) (x : Nat) : (s.modFn k f).pmcOf x = s.pmcOf x := rfl
@[simp] theorem State.modCsm_fget (s : State) (d : Nat) (f : Casement → Casement) (G : Fld) (j : Nat) : (s.modCsm d f).fget G j = s.fget G j := rfl
@[simp] theorem State.modCsm_fbit (s : State) (d : Nat) (f : Casement → Casement) (G : Fld) (j : Nat) : (s.modCsm d f).fbit G j = s.fbit G j := rfl
@[simp] theorem State.modCsm_part (s : State) (d : Nat) (f : Casement → Casement) (x : Nat) : (s.modCsm d f).part x = s.part x := rfl
@[simp] theorem State.modCsm_fn (s : State) (d : Nat) (f : Casement → Casement) (x : Nat) : (s.modCsm d f).fn x = s.fn x := rfl
@[simp] theorem State.modCsm_pfx (s : State) (d : Nat) (f : Casement → Casement) (x : Nat) : (s.modCsm d f).pfx x = s.pfx x := rfl
@[simp] theorem State.modCsm_stg (s : State) (d : Nat) (f : Casement → Casement) (x : Nat) : (s.modCsm d f).stg x = s.stg x := rfl
@[simp] theorem State.modCsm_ftl (s : State) (d : Nat) (f : Casement → Casement) (x : Nat) : (s.modCsm d f).ftl x = s.ftl x := rfl
@[simp] theorem State.modCsm_nrt (s : State) (d : Nat) (f : Casement → Casement) (x : Nat) : (s.modCsm d f).nrt x = s.nrt x := rfl
@[simp] theorem State.modCsm_wkt (s : State) (d : Nat) (f : Casement → Casement) (x : Nat) : (s.modCsm d f).wkt x = s.wkt x := rfl
@[simp] theorem State.modCsm_lnk (s : State) (d : Nat) (f : Casement → Casement) (x : Nat) : (s.modCsm d f).lnk x = s.lnk x := rfl
@[simp] theorem State.modCsm_pmcOf (s : State) (d : Nat) (f : Casement → Casement) (x : Nat) : (s.modCsm d f).pmcOf x = s.pmcOf x := rfl
@[simp] theorem State.modPfx_fget (s : State) (d : Nat) (f : Pfx → Pfx) (G : Fld) (j : Nat) : (s.modPfx d f).fget G j = s.fget G j := rfl
@[simp] theorem State.modPfx_fbit (s : State) (d : Nat) (f : Pfx → Pfx) (G : Fld) (j : Nat) : (s.modPfx d f).fbit G j = s.fbit G j := rfl
@[simp] theorem State.modPfx_part (s : State) (d : Nat) (f : Pfx → Pfx) (x : Nat) : (s.modPfx d f).part x = s.part x := rfl
@[simp] theorem State.modPfx_fn (s : State) (d : Nat) (f : Pfx → Pfx) (x : Nat) : (s.modPfx d f).fn x = s.fn x := rfl
@[simp] theorem State.modPfx_csm (s : State) (d : Nat) (f : Pfx → Pfx) (x : Nat) : (s.modPfx d f).csm x = s.csm x := rfl
@[simp] theorem State.modPfx_stg (s : State) (d : Nat) (f : Pfx → Pfx) (x : Nat) : (s.modPfx d f).stg x = s.stg x := rfl
@[simp] theorem State.modPfx_ftl (s : State) (d : Nat) (f : Pfx → Pfx) (x : Nat) : (s.modPfx d f).ftl x = s.ftl x := rfl
@[simp] theorem State.modPfx_nrt (s : State) (d : Nat) (f : Pfx → Pfx) (x : Nat) : (s.modPfx d f).nrt x = s.nrt x := rfl
@[simp] theorem State.modPfx_wkt (s : State) (d : Nat) (f : Pfx → Pfx) (x : Nat) : (s.modPfx d f).wkt x = s.wkt x := rfl
@[simp] theorem State.modPfx_lnk (s : State) (d : Nat) (f : Pfx → Pfx) (x : Nat) : (s.modPfx d f).lnk x = s.lnk x := rfl
@[simp] theorem State.modPfx_pmcOf (s : State) (d : Nat) (f : Pfx → Pfx) (x : Nat) : (s.modPfx d f).pmcOf x = s.pmcOf x := rfl
@[simp] theorem State.modStg_fget (s : State) (d : Nat) (f : Staging → Staging) (G : Fld) (j : Nat) : (s.modStg d f).fget G j = s.fget G j := rfl
@[simp] theorem State.modStg_fbit (s : State) (d : Nat) (f : Staging → Staging) (G : Fld) (j : Nat) : (s.modStg d f).fbit G j = s.fbit G j := rfl
@[simp] theorem State.modStg_part (s : State) (d : Nat) (f : Staging → Staging) (x : Nat) : (s.modStg d f).part x = s.part x := rfl
@[simp] theorem State.modStg_fn (s : State) (d : Nat) (f : Staging → Staging) (x : Nat) : (s.modStg d f).fn x = s.fn x := rfl
@[simp] theorem State.modStg_csm (s : State) (d : Nat) (f : Staging → Staging) (x : Nat) : (s.modStg d f).csm x = s.csm x := rfl
@[simp] theorem State.modStg_pfx (s : State) (d : Nat) (f : Staging → Staging) (x : Nat) : (s.modStg d f).pfx x = s.pfx x := rfl
@[simp] theorem State.modStg_ftl (s : State) (d : Nat) (f : Staging → Staging) (x : Nat) : (s.modStg d f).ftl x = s.ftl x := rfl
@[simp] theorem State.modStg_nrt (s : State) (d : Nat) (f : Staging → Staging) (x : Nat) : (s.modStg d f).nrt x = s.nrt x := rfl
@[simp] theorem State.modStg_wkt (s : State) (d : Nat) (f : Staging → Staging) (x : Nat) : (s.modStg d f).wkt x = s.wkt x := rfl
@[simp] theorem State.modStg_lnk (s : State) (d : Nat) (f : Staging → Staging) (x : Nat) : (s.modStg d f).lnk x = s.lnk x := rfl
@[simp] theorem State.modStg_pmcOf (s : State) (d : Nat) (f : Staging → Staging) (x : Nat) : (s.modStg d f).pmcOf x = s.pmcOf x := rfl
@[simp] theorem State.modFtl_fget (s : State) (d : Nat) (f : Ftl → Ftl) (G : Fld) (j : Nat) : (s.modFtl d f).fget G j = s.fget G j := rfl
@[simp] theorem State.modFtl_fbit (s : State) (d : Nat) (f : Ftl → Ftl) (G : Fld) (j : Nat) : (s.modFtl d f).fbit G j = s.fbit G j := rfl
@[simp] theorem State.modFtl_part (s : State) (d : Nat) (f : Ftl → Ftl) (x : Nat) : (s.modFtl d f).part x = s.part x := rfl
@[simp] theorem State.modFtl_fn (s : State) (d : Nat) (f : Ftl → Ftl) (x : Nat) : (s.modFtl d f).fn x = s.fn x := rfl
@[simp] theorem State.modFtl_csm (s : State) (d : Nat) (f : Ftl → Ftl) (x : Nat) : (s.modFtl d f).csm x = s.csm x := rfl
@[simp] theorem State.modFtl_pfx (s : State) (d : Nat) (f : Ftl → Ftl) (x : Nat) : (s.modFtl d f).pfx x = s.pfx x := rfl
@[simp] theorem State.modFtl_stg (s : State) (d : Nat) (f : Ftl → Ftl) (x : Nat) : (s.modFtl d f).stg x = s.stg x := rfl
@[simp] theorem State.modFtl_nrt (s : State) (d : Nat) (f : Ftl → Ftl) (x : Nat) : (s.modFtl d f).nrt x = s.nrt x := rfl
@[simp] theorem State.modFtl_wkt (s : State) (d : Nat) (f : Ftl → Ftl) (x : Nat) : (s.modFtl d f).wkt x = s.wkt x := rfl
@[simp] theorem State.modFtl_lnk (s : State) (d : Nat) (f : Ftl → Ftl) (x : Nat) : (s.modFtl d f).lnk x = s.lnk x := rfl
@[simp] theorem State.modFtl_pmcOf (s : State) (d : Nat) (f : Ftl → Ftl) (x : Nat) : (s.modFtl d f).pmcOf x = s.pmcOf x := rfl
@[simp] theorem State.modNrt_fget (s : State) (d : Nat) (f : Nrt → Nrt) (G : Fld) (j : Nat) : (s.modNrt d f).fget G j = s.fget G j := rfl
@[simp] theorem State.modNrt_fbit (s : State) (d : Nat) (f : Nrt → Nrt) (G : Fld) (j : Nat) : (s.modNrt d f).fbit G j = s.fbit G j := rfl
@[simp] theorem State.modNrt_part (s : State) (d : Nat) (f : Nrt → Nrt) (x : Nat) : (s.modNrt d f).part x = s.part x := rfl
@[simp] theorem State.modNrt_fn (s : State) (d : Nat) (f : Nrt → Nrt) (x : Nat) : (s.modNrt d f).fn x = s.fn x := rfl
@[simp] theorem State.modNrt_csm (s : State) (d : Nat) (f : Nrt → Nrt) (x : Nat) : (s.modNrt d f).csm x = s.csm x := rfl
@[simp] theorem State.modNrt_pfx (s : State) (d : Nat) (f : Nrt → Nrt) (x : Nat) : (s.modNrt d f).pfx x = s.pfx x := rfl
@[simp] theorem State.modNrt_stg (s : State) (d : Nat) (f : Nrt → Nrt) (x : Nat) : (s.modNrt d f).stg x = s.stg x := rfl
@[simp] theorem State.modNrt_ftl (s : State) (d : Nat) (f : Nrt → Nrt) (x : Nat) : (s.modNrt d f).ftl x = s.ftl x := rfl
@[simp] theorem State.modNrt_wkt (s : State) (d : Nat) (f : Nrt → Nrt) (x : Nat) : (s.modNrt d f).wkt x = s.wkt x := rfl
@[simp] theorem State.modNrt_lnk (s : State) (d : Nat) (f : Nrt → Nrt) (x : Nat) : (s.modNrt d f).lnk x = s.lnk x := rfl
@[simp] theorem State.modNrt_pmcOf (s : State) (d : Nat) (f : Nrt → Nrt) (x : Nat) : (s.modNrt d f).pmcOf x = s.pmcOf x := rfl
@[simp] theorem State.modWkt_fget (s : State) (d : Nat) (f : Wkt → Wkt) (G : Fld) (j : Nat) : (s.modWkt d f).fget G j = s.fget G j := rfl
@[simp] theorem State.modWkt_fbit (s : State) (d : Nat) (f : Wkt → Wkt) (G : Fld) (j : Nat) : (s.modWkt d f).fbit G j = s.fbit G j := rfl
@[simp] theorem State.modWkt_part (s : State) (d : Nat) (f : Wkt → Wkt) (x : Nat) : (s.modWkt d f).part x = s.part x := rfl
@[simp] theorem State.modWkt_fn (s : State) (d : Nat) (f : Wkt → Wkt) (x : Nat) : (s.modWkt d f).fn x = s.fn x := rfl
@[simp] theorem State.modWkt_csm (s : State) (d : Nat) (f : Wkt → Wkt) (x : Nat) : (s.modWkt d f).csm x = s.csm x := rfl
@[simp] theorem State.modWkt_pfx (s : State) (d : Nat) (f : Wkt → Wkt) (x : Nat) : (s.modWkt d f).pfx x = s.pfx x := rfl
@[simp] theorem State.modWkt_stg (s : State) (d : Nat) (f : Wkt → Wkt) (x : Nat) : (s.modWkt d f).stg x = s.stg x := rfl
@[simp] theorem State.modWkt_ftl (s : State) (d : Nat) (f : Wkt → Wkt) (x : Nat) : (s.modWkt d f).ftl x = s.ftl x := rfl
@[simp] theorem State.modWkt_nrt (s : State) (d : Nat) (f : Wkt → Wkt) (x : Nat) : (s.modWkt d f).nrt x = s.nrt x := rfl
@[simp] theorem State.modWkt_lnk (s : State) (d : Nat) (f : Wkt → Wkt) (x : Nat) : (s.modWkt d f).lnk x = s.lnk x := rfl
@[simp] theorem State.modWkt_pmcOf (s : State) (d : Nat) (f : Wkt → Wkt) (x : Nat) : (s.modWkt d f).pmcOf x = s.pmcOf x := rfl
@[simp] theorem State.modLnk_fget (s : State) (d : Nat) (f : Lnk → Lnk) (G : Fld) (j : Nat) : (s.modLnk d f).fget G j = s.fget G j := rfl
@[simp] theorem State.modLnk_fbit (s : State) (d : Nat) (f : Lnk → Lnk) (G : Fld) (j : Nat) : (s.modLnk d f).fbit G j = s.fbit G j := rfl
@[simp] theorem State.modLnk_part (s : State) (d : Nat) (f : Lnk → Lnk) (x : Nat) : (s.modLnk d f).part x = s.part x := rfl
@[simp] theorem State.modLnk_fn (s : State) (d : Nat) (f : Lnk → Lnk) (x : Nat) : (s.modLnk d f).fn x = s.fn x := rfl
@[simp] theorem State.modLnk_csm (s : State) (d : Nat) (f : Lnk → Lnk) (x : Nat) : (s.modLnk d f).csm x = s.csm x := rfl
@[simp] theorem State.modLnk_pfx (s : State) (d : Nat) (f : Lnk → Lnk) (x : Nat) : (s.modLnk d f).pfx x = s.pfx x := rfl
@[simp] theorem State.modLnk_stg (s : State) (d : Nat) (f : Lnk → Lnk) (x : Nat) : (s.modLnk d f).stg x = s.stg x := rfl
@[simp] theorem State.modLnk_ftl (s : State) (d : Nat) (f : Lnk → Lnk) (x : Nat) : (s.modLnk d f).ftl x = s.ftl x := rfl
@[simp] theorem State.modLnk_nrt (s : State) (d : Nat) (f : Lnk → Lnk) (x : Nat) : (s.modLnk d f).nrt x = s.nrt x := rfl
@[simp] theorem State.modLnk_wkt (s : State) (d : Nat) (f : Lnk → Lnk) (x : Nat) : (s.modLnk d f).wkt x = s.wkt x := rfl
@[simp] theorem State.modLnk_pmcOf (s : State) (d : Nat) (f : Lnk → Lnk) (x : Nat) : (s.modLnk d f).pmcOf x = s.pmcOf x := rfl
@[simp] theorem State.modPmc_fget (s : State) (p : Nat) (f : Pmc → Pmc) (G : Fld) (j : Nat) : (s.modPmc p f).fget G j = s.fget G j := rfl
@[simp] theorem State.modPmc_fbit (s : State) (p : Nat) (f : Pmc → Pmc) (G : Fld) (j : Nat) : (s.modPmc p f).fbit G j = s.fbit G j := rfl
@[simp] theorem State.modPmc_part (s : State) (p : Nat) (f : Pmc → Pmc) (x : Nat) : (s.modPmc p f).part x = s.part x := rfl
@[simp] theorem State.modPmc_fn (s : State) (p : Nat) (f : Pmc → Pmc) (x : Nat) : (s.modPmc p f).fn x = s.fn x := rfl
@[simp] theorem State.modPmc_csm (s : State) (p : Nat) (f : Pmc → Pmc) (x : Nat) : (s.modPmc p f).csm x = s.csm x := rfl
@[simp] theorem State.modPmc_pfx (s : State) (p : Nat) (f : Pmc → Pmc) (x : Nat) : (s.modPmc p f).pfx x = s.pfx x := rfl
@[simp] theorem State.modPmc_stg (s : State) (p : Nat) (f : Pmc → Pmc) (x : Nat) : (s.modPmc p f).stg x = s.stg x := rfl
@[simp] theorem State.modPmc_ftl (s : State) (p : Nat) (f : Pmc → Pmc) (x : Nat) : (s.modPmc p f).ftl x = s.ftl x := rfl
@[simp] theorem State.modPmc_nrt (s : State) (p : Nat) (f : Pmc → Pmc) (x : Nat) : (s.modPmc p f).nrt x = s.nrt x := rfl
@[simp] theorem State.modPmc_wkt (s : State) (p : Nat) (f : Pmc → Pmc) (x : Nat) : (s.modPmc p f).wkt x = s.wkt x := rfl
@[simp] theorem State.modPmc_lnk (s : State) (p : Nat) (f : Pmc → Pmc) (x : Nat) : (s.modPmc p f).lnk x = s.lnk x := rfl
@[simp] theorem State.noteEvt_fget (s : State) (off lo : Nat) (G : Fld) (j : Nat) : (s.noteEvt off lo).fget G j = s.fget G j := rfl
@[simp] theorem State.noteEvt_fbit (s : State) (off lo : Nat) (G : Fld) (j : Nat) : (s.noteEvt off lo).fbit G j = s.fbit G j := rfl
@[simp] theorem State.noteEvt_part (s : State) (off lo : Nat) (x : Nat) : (s.noteEvt off lo).part x = s.part x := rfl
@[simp] theorem State.noteEvt_fn (s : State) (off lo : Nat) (x : Nat) : (s.noteEvt off lo).fn x = s.fn x := rfl
@[simp] theorem State.noteEvt_csm (s : State) (off lo : Nat) (x : Nat) : (s.noteEvt off lo).csm x = s.csm x := rfl
@[simp] theorem State.noteEvt_pfx (s : State) (off lo : Nat) (x : Nat) : (s.noteEvt off lo).pfx x = s.pfx x := rfl
@[simp] theorem State.noteEvt_stg (s : State) (off lo : Nat) (x : Nat) : (s.noteEvt off lo).stg x = s.stg x := rfl
@[simp] theorem State.noteEvt_ftl (s : State) (off lo : Nat) (x : Nat) : (s.noteEvt off lo).ftl x = s.ftl x := rfl
@[simp] theorem State.noteEvt_nrt (s : State) (off lo : Nat) (x : Nat) : (s.noteEvt off lo).nrt x = s.nrt x := rfl
@[simp] theorem State.noteEvt_wkt (s : State) (off lo : Nat) (x : Nat) : (s.noteEvt off lo).wkt x = s.wkt x := rfl
@[simp] theorem State.noteEvt_lnk (s : State) (off lo : Nat) (x : Nat) : (s.noteEvt off lo).lnk x = s.lnk x := rfl
@[simp] theorem State.noteEvt_pmcOf (s : State) (off lo : Nat) (x : Nat) : (s.noteEvt off lo).pmcOf x = s.pmcOf x := rfl
@[simp] theorem State.modPwr_fget (s : State) (f : Pwr → Pwr) (G : Fld) (j : Nat) : (s.modPwr f).fget G j = s.fget G j := rfl
@[simp] theorem State.modPwr_fbit (s : State) (f : Pwr → Pwr) (G : Fld) (j : Nat) : (s.modPwr f).fbit G j = s.fbit G j := rfl
@[simp] theorem State.modPwr_part (s : State) (f : Pwr → Pwr) (x : Nat) : (s.modPwr f).part x = s.part x := rfl
@[simp] theorem State.modPwr_fn (s : State) (f : Pwr → Pwr) (x : Nat) : (s.modPwr f).fn x = s.fn x := rfl
@[simp] theorem State.modPwr_csm (s : State) (f : Pwr → Pwr) (x : Nat) : (s.modPwr f).csm x = s.csm x := rfl
@[simp] theorem State.modPwr_pfx (s : State) (f : Pwr → Pwr) (x : Nat) : (s.modPwr f).pfx x = s.pfx x := rfl
@[simp] theorem State.modPwr_stg (s : State) (f : Pwr → Pwr) (x : Nat) : (s.modPwr f).stg x = s.stg x := rfl
@[simp] theorem State.modPwr_ftl (s : State) (f : Pwr → Pwr) (x : Nat) : (s.modPwr f).ftl x = s.ftl x := rfl
@[simp] theorem State.modPwr_nrt (s : State) (f : Pwr → Pwr) (x : Nat) : (s.modPwr f).nrt x = s.nrt x := rfl
@[simp] theorem State.modPwr_wkt (s : State) (f : Pwr → Pwr) (x : Nat) : (s.modPwr f).wkt x = s.wkt x := rfl
@[simp] theorem State.modPwr_lnk (s : State) (f : Pwr → Pwr) (x : Nat) : (s.modPwr f).lnk x = s.lnk x := rfl
@[simp] theorem State.modPwr_pmcOf (s : State) (f : Pwr → Pwr) (x : Nat) : (s.modPwr f).pmcOf x = s.pmcOf x := rfl

/-! ### A register field read after a write -/

theorem State.fget_fset_self (s : State) (F : Fld) (i v : Nat) : (s.fset F i v).fget F i = v % 2 ^ F.w := by
  unfold State.fget State.fset; exact dget_dset_self _ _ _ _

theorem State.fget_fset_other (s : State) (F G : Fld) (i j v : Nat) (h : F.key i ≠ G.key j) :
    (s.fset F i v).fget G j = s.fget G j := by
  unfold State.fget State.fset; exact dget_dset_other _ _ _ _ h

theorem State.fget_fput_self (s : State) (F : Fld) (i : Nat) (b : Bool) (h : 0 < F.w) : (s.fput F i b).fget F i = b.toNat := by
  unfold State.fput; rw [State.fget_fset_self]
  refine Nat.mod_eq_of_lt (Nat.lt_of_lt_of_le (Bool.toNat_lt b) ?_)
  exact Nat.le_self_pow (Nat.pos_iff_ne_zero.1 h) 2

theorem State.fget_fput_other (s : State) (F G : Fld) (i j : Nat) (b : Bool) (h : F.key i ≠ G.key j) :
    (s.fput F i b).fget G j = s.fget G j := State.fget_fset_other _ _ _ _ _ _ h

theorem State.fget_fadd_other (s : State) (F G : Fld) (i j n : Nat) (h : F.key i ≠ G.key j) :
    (s.fadd F i n).fget G j = s.fget G j := State.fget_fset_other _ _ _ _ _ _ h

theorem State.fget_fsat_self (s : State) (F : Fld) (i v : Nat) : (s.fsat F i v).fget F i = min v (2 ^ F.w - 1) := by
  unfold State.fsat; rw [State.fget_fset_self]
  refine Nat.mod_eq_of_lt (Nat.lt_of_le_of_lt (Nat.min_le_right ..) ?_)
  exact Nat.sub_lt (Nat.two_pow_pos _) Nat.one_pos

theorem State.fget_fsat_other (s : State) (F G : Fld) (i j v : Nat) (h : F.key i ≠ G.key j) :
    (s.fsat F i v).fget G j = s.fget G j := State.fget_fset_other _ _ _ _ _ _ h

/-- A count that saturates never exceeds its largest value (R575). -/
theorem State.fget_fadd_self (s : State) (F : Fld) (i n : Nat) : (s.fadd F i n).fget F i = min (s.fget F i + n) (2 ^ F.w - 1) :=
  State.fget_fsat_self _ _ _ _

theorem State.fget_fputAt_other (s : State) (F G : Fld) (i j k : Nat) (b : Bool) (h : F.key i ≠ G.key j) :
    (s.fputAt F i k b).fget G j = s.fget G j := State.fget_fset_other _ _ _ _ _ _ h

theorem State.fget_fsetLater_self (s : State) (F : Fld) (i v : Nat) : (s.fsetLater F i v).fget F i = v % 2 ^ F.w :=
  State.fget_fset_self _ _ _ _

/-- Until its boundary a waiting write leaves the value in force (R594). -/
theorem State.inForce_fsetLater (s : State) (F : Fld) (i v : Nat) : (s.fsetLater F i v).inForce F i = s.inForce F i := by
  unfold State.fsetLater
  simp only [State.inForce, tget_tput_self, Option.getD_some]

/-! ### A record read after its update -/

@[simp] theorem State.modPart_part_self (s : State) (k : Nat) (f : Part → Part) : (s.modPart k f).part k = f (s.part k) := dget_dset_self _ _ _ _
theorem State.modPart_part_other (s : State) {k j : Nat} (f : Part → Part) (h : k ≠ j) : (s.modPart k f).part j = s.part j :=
  dget_dset_other _ _ _ _ h

@[simp] theorem State.modFn_fn_self (s : State) (k : Nat) (f : HostFn → HostFn) : (s.modFn k f).fn k = f (s.fn k) := dget_dset_self _ _ _ _
theorem State.modFn_fn_other (s : State) {k j : Nat} (f : HostFn → HostFn) (h : k ≠ j) : (s.modFn k f).fn j = s.fn j :=
  dget_dset_other _ _ _ _ h

@[simp] theorem State.modCsm_csm_self (s : State) (k : Nat) (f : Casement → Casement) : (s.modCsm k f).csm k = f (s.csm k) := dget_dset_self _ _ _ _
theorem State.modCsm_csm_other (s : State) {k j : Nat} (f : Casement → Casement) (h : k ≠ j) : (s.modCsm k f).csm j = s.csm j :=
  dget_dset_other _ _ _ _ h

@[simp] theorem State.modPfx_pfx_self (s : State) (k : Nat) (f : Pfx → Pfx) : (s.modPfx k f).pfx k = f (s.pfx k) := dget_dset_self _ _ _ _
theorem State.modPfx_pfx_other (s : State) {k j : Nat} (f : Pfx → Pfx) (h : k ≠ j) : (s.modPfx k f).pfx j = s.pfx j :=
  dget_dset_other _ _ _ _ h

@[simp] theorem State.modStg_stg_self (s : State) (k : Nat) (f : Staging → Staging) : (s.modStg k f).stg k = f (s.stg k) := dget_dset_self _ _ _ _
theorem State.modStg_stg_other (s : State) {k j : Nat} (f : Staging → Staging) (h : k ≠ j) : (s.modStg k f).stg j = s.stg j :=
  dget_dset_other _ _ _ _ h

@[simp] theorem State.modFtl_ftl_self (s : State) (k : Nat) (f : Ftl → Ftl) : (s.modFtl k f).ftl k = f (s.ftl k) := dget_dset_self _ _ _ _
theorem State.modFtl_ftl_other (s : State) {k j : Nat} (f : Ftl → Ftl) (h : k ≠ j) : (s.modFtl k f).ftl j = s.ftl j :=
  dget_dset_other _ _ _ _ h

@[simp] theorem State.modNrt_nrt_self (s : State) (k : Nat) (f : Nrt → Nrt) : (s.modNrt k f).nrt k = f (s.nrt k) := dget_dset_self _ _ _ _
theorem State.modNrt_nrt_other (s : State) {k j : Nat} (f : Nrt → Nrt) (h : k ≠ j) : (s.modNrt k f).nrt j = s.nrt j :=
  dget_dset_other _ _ _ _ h

@[simp] theorem State.modWkt_wkt_self (s : State) (k : Nat) (f : Wkt → Wkt) : (s.modWkt k f).wkt k = f (s.wkt k) := dget_dset_self _ _ _ _
theorem State.modWkt_wkt_other (s : State) {k j : Nat} (f : Wkt → Wkt) (h : k ≠ j) : (s.modWkt k f).wkt j = s.wkt j :=
  dget_dset_other _ _ _ _ h

@[simp] theorem State.modLnk_lnk_self (s : State) (k : Nat) (f : Lnk → Lnk) : (s.modLnk k f).lnk k = f (s.lnk k) := dget_dset_self _ _ _ _
theorem State.modLnk_lnk_other (s : State) {k j : Nat} (f : Lnk → Lnk) (h : k ≠ j) : (s.modLnk k f).lnk j = s.lnk j :=
  dget_dset_other _ _ _ _ h

@[simp] theorem State.modPmc_pmcOf_self (s : State) (k : Nat) (f : Pmc → Pmc) : (s.modPmc k f).pmcOf k = f (s.pmcOf k) := dget_dset_self _ _ _ _
theorem State.modPmc_pmcOf_other (s : State) {k j : Nat} (f : Pmc → Pmc) (h : k ≠ j) : (s.modPmc k f).pmcOf j = s.pmcOf j :=
  dget_dset_other _ _ _ _ h

end Sys2Proof.Machine
end

