-- ==== Sys2Proof/Laws/Keeps.lean ====
section
/-!
SUPPORT. Sys2Proof/Laws/Keeps.lean: what every operation of the model keeps: the queue and the variant as they are, what was
sent, the count of free values drawn, the canonical form of every table of the state, and every part of the state outside a
set of parts the operation may touch (a mask with one bit per `Area`).
-/
namespace Sys2Proof.Machine
set_option Elab.async false

/-- The bit of a part of the state in a mask. -/
def Area.bit (a : Area) : Nat := 2 ^ a.ix
/-- The bit of the block of a field. -/
def Fld.bit (F : Fld) : Nat := 2 ^ (20 + F.blk.ix)

/-- `t` may follow `s`, with nothing touched outside the parts that `m` names: the waiting commands and the variant are the same,
nothing sent is taken back, free values are not drawn twice, and canonical tables stay canonical. -/
structure Keeps (m : Nat) (s t : State) : Prop where
  pending : t.pending = s.pending
  variant : t.variant = s.variant
  free : s.free ≤ t.free
  sent : Sent s t
  wf : s.wf = true → t.wf = true
  same : ∀ a : Area, m.testBit a.ix = false → s.agree t a

/-! ### Masks -/

theorem orSelf (a b : Nat) : a ||| (a ||| b) = a ||| b := by rw [← Nat.or_assoc, Nat.or_self]
theorem orRight {n c : Nat} (a : Nat) (h : n ||| c = c) : n ||| (a ||| c) = a ||| c := by
  rw [← Nat.or_assoc, Nat.or_comm n a, Nat.or_assoc, h]
theorem orBoth {b c : Nat} (a : Nat) (h : b ||| c = c) : (a ||| b) ||| (a ||| c) = a ||| c := by
  rw [Nat.or_assoc, orRight a h, orSelf]
theorem orSub {n c m : Nat} (h : c ||| m = m) (k : n ||| c = c) : n ||| m = m := by
  rw [← h, ← Nat.or_assoc, k]
theorem Fld.nth_bit (F : Fld) (n : Nat) : (F.nth n).bit = F.bit := rfl
theorem faultsFld_bit (a : Nat) : (faultsFld a).bit = ATM_FAULTS_FAULTS0.bit := by
  unfold faultsFld
  repeat' split
  all_goals rfl
theorem atmLo_bit1 (w : Nat) : (atmLo w).1.bit = ATM_CODED_LO_BYTES.bit := by
  unfold atmLo
  repeat' split
  all_goals rfl
theorem atmLo_bit2 (w : Nat) : (atmLo w).2.bit = ATM_CODED_LO_BYTES.bit := by
  unfold atmLo
  repeat' split
  all_goals rfl
theorem Fld.bit_top (F : Fld) : F.bit ||| 0x7FFFFFFFFF = 0x7FFFFFFFFF := by
  unfold Fld.bit
  cases F.blk <;> decide
theorem Fld.bit_regs (F : Fld) : F.bit ||| 0x7FFFF00000 = 0x7FFFF00000 := by
  unfold Fld.bit
  cases F.blk <;> decide
theorem Fld.bit_top2 (F : Fld) (c : Nat) (h : c ||| 0x7FFFFFFFFF = 0x7FFFFFFFFF) : (F.bit ||| c) ||| 0x7FFFFFFFFF = 0x7FFFFFFFFF := by
  rw [Nat.or_assoc, h, F.bit_top]

theorem testBit_sub {n m k : Nat} (h : n ||| m = m) (hm : m.testBit k = false) : n.testBit k = false := by
  rw [← h, Nat.testBit_or] at hm
  simp_all

theorem State.agree_refl (s : State) (a : Area) : s.agree s a := by
  cases a <;> simp [State.agree]

theorem State.agree_trans {s t u : State} {a : Area} (h : s.agree t a) (k : t.agree u a) : s.agree u a := by
  cases a <;> simp only [State.agree] at * <;> first | exact k.trans h | exact fun F i e => (k F i e).trans (h F i e)

theorem Keeps.refl {m : Nat} (s : State) : Keeps m s s :=
  ⟨rfl, rfl, Nat.le_refl _, ⟨[], (List.append_nil _).symm⟩, id, fun a _ => s.agree_refl a⟩

theorem Keeps.mono {m n : Nat} {a b : State} (h : Keeps n a b) (hm : n ||| m = m := by first | decide | exact Nat.or_self _ | (rw [Fld.nth_bit]; decide) | (rw [faultsFld_bit]; decide) | (rw [atmLo_bit1]; decide) | (rw [atmLo_bit2]; decide) | exact orSelf _ _ | exact orRight _ (by decide) | exact orRight _ (orSelf _ _) | exact orRight _ (orRight _ (by decide)) | exact orBoth _ (by decide) | exact Fld.bit_top _ | exact Fld.bit_regs _ | exact Fld.bit_top2 _ _ (by decide) | exact orSub (by assumption) (by decide) | (split <;> decide)) : Keeps m a b :=
  ⟨h.pending, h.variant, h.free, h.sent, h.wf, fun x hx => h.same x (testBit_sub hm hx)⟩

theorem Keeps.tr {m : Nat} {a b c : State} (h : Keeps m a b) (k : Keeps m b c) : Keeps m a c := by
  refine ⟨k.pending.trans h.pending, k.variant.trans h.variant, Nat.le_trans h.free k.free, ?_, fun w => k.wf (h.wf w),
    fun x hx => State.agree_trans (h.same x hx) (k.same x hx)⟩
  obtain ⟨l, hl⟩ := h.sent
  obtain ⟨r, hr⟩ := k.sent
  exact ⟨l ++ r, by rw [hr, hl, List.append_assoc]⟩

/-- One operation after another: what the second may touch must be among what the whole may touch. -/
theorem Keeps.trans {m n : Nat} {a b c : State} (h : Keeps m a b) (k : Keeps n b c) (hm : n ||| m = m := by first | decide | exact Nat.or_self _ | (rw [Fld.nth_bit]; decide) | (rw [faultsFld_bit]; decide) | (rw [atmLo_bit1]; decide) | (rw [atmLo_bit2]; decide) | exact orSelf _ _ | exact orRight _ (by decide) | exact orRight _ (orSelf _ _) | exact orRight _ (orRight _ (by decide)) | exact orBoth _ (by decide) | exact Fld.bit_top _ | exact Fld.bit_regs _ | exact Fld.bit_top2 _ _ (by decide) | exact orSub (by assumption) (by decide) | (split <;> decide)) :
    Keeps m a c := h.tr (k.mono hm)

theorem Keeps.ite {m : Nat} {a b c : State} {p : Prop} [Decidable p] (hb : Keeps m a b) (hc : Keeps m a c) :
    Keeps m a (if p then b else c) := by
  split <;> assumption

theorem Keeps.cut {m : Nat} {a b c : State} (h : Keeps m a b) (k : Keeps m a b → Keeps m a c) : Keeps m a c := k h

theorem Keeps.foldl {m : Nat} {α : Type} {a b : State} (f : State → α → State) (l : List α) (h : ∀ s x, Keeps m s (f s x))
    (k : Keeps m a b) : Keeps m a (l.foldl f b) := by
  induction l generalizing b with
  | nil => exact k
  | cons x l ih => exact ih (k.tr (h b x))

/-- A fold that carries a value beside the state. -/
theorem Keeps.foldl2 {m : Nat} {α β : Type} {a : State} (f : β × State → α → β × State) (l : List α)
    (h : ∀ y x, Keeps m y.2 (f y x).2) (y : β × State) (k : Keeps m a y.2) : Keeps m a (l.foldl f y).2 := by
  induction l generalizing y with
  | nil => exact k
  | cons x l ih => exact ih _ (k.tr (h y x))

theorem Keeps.foldl1 {m : Nat} {α β : Type} {a : State} (f : State × β → α → State × β) (l : List α)
    (h : ∀ y x, Keeps m y.1 (f y x).1) (y : State × β) (k : Keeps m a y.1) : Keeps m a (l.foldl f y).1 := by
  induction l generalizing y with
  | nil => exact k
  | cons x l ih => exact ih _ (k.tr (h y x))

/-! ### Updates of one component -/

theorem Keeps.clk {m : Nat} {a b : State} (h : Keeps m a b) (v : Clock) (hm : 0x10 ||| m = m := by first | decide | exact Nat.or_self _ | (rw [Fld.nth_bit]; decide) | (rw [faultsFld_bit]; decide) | (rw [atmLo_bit1]; decide) | (rw [atmLo_bit2]; decide) | exact orSelf _ _ | exact orRight _ (by decide) | exact orRight _ (orSelf _ _) | exact orRight _ (orRight _ (by decide)) | exact orBoth _ (by decide) | exact Fld.bit_top _ | exact Fld.bit_regs _ | exact Fld.bit_top2 _ _ (by decide) | exact orSub (by assumption) (by decide) | (split <;> decide)) :
    Keeps m a { b with clk := v } :=
  ⟨h.pending, h.variant, h.free, h.sent, h.wf, fun a ha => by cases a <;> first | exact h.same _ ha | exact absurd (testBit_sub hm ha) (by decide)⟩

theorem Keeps.sec {m : Nat} {a b : State} (h : Keeps m a b) (v : Sec) (hm : 0x4000 ||| m = m := by first | decide | exact Nat.or_self _ | (rw [Fld.nth_bit]; decide) | (rw [faultsFld_bit]; decide) | (rw [atmLo_bit1]; decide) | (rw [atmLo_bit2]; decide) | exact orSelf _ _ | exact orRight _ (by decide) | exact orRight _ (orSelf _ _) | exact orRight _ (orRight _ (by decide)) | exact orBoth _ (by decide) | exact Fld.bit_top _ | exact Fld.bit_regs _ | exact Fld.bit_top2 _ _ (by decide) | exact orSub (by assumption) (by decide) | (split <;> decide)) :
    Keeps m a { b with sec := v } :=
  ⟨h.pending, h.variant, h.free, h.sent, h.wf, fun a ha => by cases a <;> first | exact h.same _ ha | exact absurd (testBit_sub hm ha) (by decide)⟩

theorem Keeps.ras {m : Nat} {a b : State} (h : Keeps m a b) (v : Ras) (hm : 0x10000 ||| m = m := by first | decide | exact Nat.or_self _ | (rw [Fld.nth_bit]; decide) | (rw [faultsFld_bit]; decide) | (rw [atmLo_bit1]; decide) | (rw [atmLo_bit2]; decide) | exact orSelf _ _ | exact orRight _ (by decide) | exact orRight _ (orSelf _ _) | exact orRight _ (orRight _ (by decide)) | exact orBoth _ (by decide) | exact Fld.bit_top _ | exact Fld.bit_regs _ | exact Fld.bit_top2 _ _ (by decide) | exact orSub (by assumption) (by decide) | (split <;> decide)) :
    Keeps m a { b with ras := v } :=
  ⟨h.pending, h.variant, h.free, h.sent, h.wf, fun a ha => by cases a <;> first | exact h.same _ ha | exact absurd (testBit_sub hm ha) (by decide)⟩

theorem Keeps.pwr {m : Nat} {a b : State} (h : Keeps m a b) (v : Pwr) (hm : 0x20000 ||| m = m := by first | decide | exact Nat.or_self _ | (rw [Fld.nth_bit]; decide) | (rw [faultsFld_bit]; decide) | (rw [atmLo_bit1]; decide) | (rw [atmLo_bit2]; decide) | exact orSelf _ _ | exact orRight _ (by decide) | exact orRight _ (orSelf _ _) | exact orRight _ (orRight _ (by decide)) | exact orBoth _ (by decide) | exact Fld.bit_top _ | exact Fld.bit_regs _ | exact Fld.bit_top2 _ _ (by decide) | exact orSub (by assumption) (by decide) | (split <;> decide)) :
    Keeps m a { b with pwr := v } :=
  ⟨h.pending, h.variant, h.free, h.sent, h.wf, fun a ha => by cases a <;> first | exact h.same _ ha | exact absurd (testBit_sub hm ha) (by decide)⟩

theorem Keeps.svc {m : Nat} {a b : State} (h : Keeps m a b) (v : Svc) (hm : 0x40000 ||| m = m := by first | decide | exact Nat.or_self _ | (rw [Fld.nth_bit]; decide) | (rw [faultsFld_bit]; decide) | (rw [atmLo_bit1]; decide) | (rw [atmLo_bit2]; decide) | exact orSelf _ _ | exact orRight _ (by decide) | exact orRight _ (orSelf _ _) | exact orRight _ (orRight _ (by decide)) | exact orBoth _ (by decide) | exact Fld.bit_top _ | exact Fld.bit_regs _ | exact Fld.bit_top2 _ _ (by decide) | exact orSub (by assumption) (by decide) | (split <;> decide)) :
    Keeps m a { b with svc := v } :=
  ⟨h.pending, h.variant, h.free, h.sent, h.wf, fun a ha => by cases a <;> first | exact h.same _ ha | exact absurd (testBit_sub hm ha) (by decide)⟩

theorem State.wf_iff (s : State) : s.wf = true ↔
    trising s.regs = true ∧ trising s.force = true ∧ trising s.evNew = true ∧ dwf Part.init s.parts = true ∧
    dwf HostFn.init s.fns = true ∧ dwf Casement.init s.csms = true ∧
    dwf Pfx.init s.pfxs = true ∧ dwf Staging.init s.stgs = true ∧ dwf Ftl.init s.ftls = true ∧ dwf Nrt.init s.nrts = true ∧
    dwf Wkt.init s.wkts = true ∧ dwf Lnk.init s.lnks = true ∧ dwf Pmc.init s.pmcs = true ∧ dwf (0 : Byte) s.hbm = true := by
  simp [State.wf, and_assoc]

theorem Keeps.force {m : Nat} {a b : State} (h : Keeps m a b) (v : List (Nat × Nat)) (hv : trising b.force = true → trising v = true) (hm : 0x4 ||| m = m := by first | decide | exact Nat.or_self _ | (rw [Fld.nth_bit]; decide) | (rw [faultsFld_bit]; decide) | (rw [atmLo_bit1]; decide) | (rw [atmLo_bit2]; decide) | exact orSelf _ _ | exact orRight _ (by decide) | exact orRight _ (orSelf _ _) | exact orRight _ (orRight _ (by decide)) | exact orBoth _ (by decide) | exact Fld.bit_top _ | exact Fld.bit_regs _ | exact Fld.bit_top2 _ _ (by decide) | exact orSub (by assumption) (by decide) | (split <;> decide)) :
    Keeps m a { b with force := v } := by
  refine ⟨h.pending, h.variant, h.free, h.sent, fun w => ?_, fun a ha => by cases a <;> first | exact h.same _ ha | exact absurd (testBit_sub hm ha) (by decide)⟩
  have w := (State.wf_iff _).1 (h.wf w)
  simp_all [State.wf_iff]

theorem Keeps.evNew {m : Nat} {a b : State} (h : Keeps m a b) (v : List (Nat × Nat)) (hv : trising b.evNew = true → trising v = true) (hm : 0x8 ||| m = m := by first | decide | exact Nat.or_self _ | (rw [Fld.nth_bit]; decide) | (rw [faultsFld_bit]; decide) | (rw [atmLo_bit1]; decide) | (rw [atmLo_bit2]; decide) | exact orSelf _ _ | exact orRight _ (by decide) | exact orRight _ (orSelf _ _) | exact orRight _ (orRight _ (by decide)) | exact orBoth _ (by decide) | exact Fld.bit_top _ | exact Fld.bit_regs _ | exact Fld.bit_top2 _ _ (by decide) | exact orSub (by assumption) (by decide) | (split <;> decide)) :
    Keeps m a { b with evNew := v } := by
  refine ⟨h.pending, h.variant, h.free, h.sent, fun w => ?_, fun a ha => by cases a <;> first | exact h.same _ ha | exact absurd (testBit_sub hm ha) (by decide)⟩
  have w := (State.wf_iff _).1 (h.wf w)
  simp_all [State.wf_iff]

theorem Keeps.parts {m : Nat} {a b : State} (h : Keeps m a b) (v : List (Nat × Part)) (hv : dwf Part.init b.parts = true → dwf Part.init v = true) (hm : 0x20 ||| m = m := by first | decide | exact Nat.or_self _ | (rw [Fld.nth_bit]; decide) | (rw [faultsFld_bit]; decide) | (rw [atmLo_bit1]; decide) | (rw [atmLo_bit2]; decide) | exact orSelf _ _ | exact orRight _ (by decide) | exact orRight _ (orSelf _ _) | exact orRight _ (orRight _ (by decide)) | exact orBoth _ (by decide) | exact Fld.bit_top _ | exact Fld.bit_regs _ | exact Fld.bit_top2 _ _ (by decide) | exact orSub (by assumption) (by decide) | (split <;> decide)) :
    Keeps m a { b with parts := v } := by
  refine ⟨h.pending, h.variant, h.free, h.sent, fun w => ?_, fun a ha => by cases a <;> first | exact h.same _ ha | exact absurd (testBit_sub hm ha) (by decide)⟩
  have w := (State.wf_iff _).1 (h.wf w)
  simp_all [State.wf_iff]

theorem Keeps.fns {m : Nat} {a b : State} (h : Keeps m a b) (v : List (Nat × HostFn)) (hv : dwf HostFn.init b.fns = true → dwf HostFn.init v = true) (hm : 0x40 ||| m = m := by first | decide | exact Nat.or_self _ | (rw [Fld.nth_bit]; decide) | (rw [faultsFld_bit]; decide) | (rw [atmLo_bit1]; decide) | (rw [atmLo_bit2]; decide) | exact orSelf _ _ | exact orRight _ (by decide) | exact orRight _ (orSelf _ _) | exact orRight _ (orRight _ (by decide)) | exact orBoth _ (by decide) | exact Fld.bit_top _ | exact Fld.bit_regs _ | exact Fld.bit_top2 _ _ (by decide) | exact orSub (by assumption) (by decide) | (split <;> decide)) :
    Keeps m a { b with fns := v } := by
  refine ⟨h.pending, h.variant, h.free, h.sent, fun w => ?_, fun a ha => by cases a <;> first | exact h.same _ ha | exact absurd (testBit_sub hm ha) (by decide)⟩
  have w := (State.wf_iff _).1 (h.wf w)
  simp_all [State.wf_iff]

theorem Keeps.csms {m : Nat} {a b : State} (h : Keeps m a b) (v : List (Nat × Casement)) (hv : dwf Casement.init b.csms = true → dwf Casement.init v = true) (hm : 0x80 ||| m = m := by first | decide | exact Nat.or_self _ | (rw [Fld.nth_bit]; decide) | (rw [faultsFld_bit]; decide) | (rw [atmLo_bit1]; decide) | (rw [atmLo_bit2]; decide) | exact orSelf _ _ | exact orRight _ (by decide) | exact orRight _ (orSelf _ _) | exact orRight _ (orRight _ (by decide)) | exact orBoth _ (by decide) | exact Fld.bit_top _ | exact Fld.bit_regs _ | exact Fld.bit_top2 _ _ (by decide) | exact orSub (by assumption) (by decide) | (split <;> decide)) :
    Keeps m a { b with csms := v } := by
  refine ⟨h.pending, h.variant, h.free, h.sent, fun w => ?_, fun a ha => by cases a <;> first | exact h.same _ ha | exact absurd (testBit_sub hm ha) (by decide)⟩
  have w := (State.wf_iff _).1 (h.wf w)
  simp_all [State.wf_iff]

theorem Keeps.pfxs {m : Nat} {a b : State} (h : Keeps m a b) (v : List (Nat × Pfx)) (hv : dwf Pfx.init b.pfxs = true → dwf Pfx.init v = true) (hm : 0x100 ||| m = m := by first | decide | exact Nat.or_self _ | (rw [Fld.nth_bit]; decide) | (rw [faultsFld_bit]; decide) | (rw [atmLo_bit1]; decide) | (rw [atmLo_bit2]; decide) | exact orSelf _ _ | exact orRight _ (by decide) | exact orRight _ (orSelf _ _) | exact orRight _ (orRight _ (by decide)) | exact orBoth _ (by decide) | exact Fld.bit_top _ | exact Fld.bit_regs _ | exact Fld.bit_top2 _ _ (by decide) | exact orSub (by assumption) (by decide) | (split <;> decide)) :
    Keeps m a { b with pfxs := v } := by
  refine ⟨h.pending, h.variant, h.free, h.sent, fun w => ?_, fun a ha => by cases a <;> first | exact h.same _ ha | exact absurd (testBit_sub hm ha) (by decide)⟩
  have w := (State.wf_iff _).1 (h.wf w)
  simp_all [State.wf_iff]

theorem Keeps.stgs {m : Nat} {a b : State} (h : Keeps m a b) (v : List (Nat × Staging)) (hv : dwf Staging.init b.stgs = true → dwf Staging.init v = true) (hm : 0x200 ||| m = m := by first | decide | exact Nat.or_self _ | (rw [Fld.nth_bit]; decide) | (rw [faultsFld_bit]; decide) | (rw [atmLo_bit1]; decide) | (rw [atmLo_bit2]; decide) | exact orSelf _ _ | exact orRight _ (by decide) | exact orRight _ (orSelf _ _) | exact orRight _ (orRight _ (by decide)) | exact orBoth _ (by decide) | exact Fld.bit_top _ | exact Fld.bit_regs _ | exact Fld.bit_top2 _ _ (by decide) | exact orSub (by assumption) (by decide) | (split <;> decide)) :
    Keeps m a { b with stgs := v } := by
  refine ⟨h.pending, h.variant, h.free, h.sent, fun w => ?_, fun a ha => by cases a <;> first | exact h.same _ ha | exact absurd (testBit_sub hm ha) (by decide)⟩
  have w := (State.wf_iff _).1 (h.wf w)
  simp_all [State.wf_iff]

theorem Keeps.ftls {m : Nat} {a b : State} (h : Keeps m a b) (v : List (Nat × Ftl)) (hv : dwf Ftl.init b.ftls = true → dwf Ftl.init v = true) (hm : 0x400 ||| m = m := by first | decide | exact Nat.or_self _ | (rw [Fld.nth_bit]; decide) | (rw [faultsFld_bit]; decide) | (rw [atmLo_bit1]; decide) | (rw [atmLo_bit2]; decide) | exact orSelf _ _ | exact orRight _ (by decide) | exact orRight _ (orSelf _ _) | exact orRight _ (orRight _ (by decide)) | exact orBoth _ (by decide) | exact Fld.bit_top _ | exact Fld.bit_regs _ | exact Fld.bit_top2 _ _ (by decide) | exact orSub (by assumption) (by decide) | (split <;> decide)) :
    Keeps m a { b with ftls := v } := by
  refine ⟨h.pending, h.variant, h.free, h.sent, fun w => ?_, fun a ha => by cases a <;> first | exact h.same _ ha | exact absurd (testBit_sub hm ha) (by decide)⟩
  have w := (State.wf_iff _).1 (h.wf w)
  simp_all [State.wf_iff]

theorem Keeps.nrts {m : Nat} {a b : State} (h : Keeps m a b) (v : List (Nat × Nrt)) (hv : dwf Nrt.init b.nrts = true → dwf Nrt.init v = true) (hm : 0x800 ||| m = m := by first | decide | exact Nat.or_self _ | (rw [Fld.nth_bit]; decide) | (rw [faultsFld_bit]; decide) | (rw [atmLo_bit1]; decide) | (rw [atmLo_bit2]; decide) | exact orSelf _ _ | exact orRight _ (by decide) | exact orRight _ (orSelf _ _) | exact orRight _ (orRight _ (by decide)) | exact orBoth _ (by decide) | exact Fld.bit_top _ | exact Fld.bit_regs _ | exact Fld.bit_top2 _ _ (by decide) | exact orSub (by assumption) (by decide) | (split <;> decide)) :
    Keeps m a { b with nrts := v } := by
  refine ⟨h.pending, h.variant, h.free, h.sent, fun w => ?_, fun a ha => by cases a <;> first | exact h.same _ ha | exact absurd (testBit_sub hm ha) (by decide)⟩
  have w := (State.wf_iff _).1 (h.wf w)
  simp_all [State.wf_iff]

theorem Keeps.wkts {m : Nat} {a b : State} (h : Keeps m a b) (v : List (Nat × Wkt)) (hv : dwf Wkt.init b.wkts = true → dwf Wkt.init v = true) (hm : 0x1000 ||| m = m := by first | decide | exact Nat.or_self _ | (rw [Fld.nth_bit]; decide) | (rw [faultsFld_bit]; decide) | (rw [atmLo_bit1]; decide) | (rw [atmLo_bit2]; decide) | exact orSelf _ _ | exact orRight _ (by decide) | exact orRight _ (orSelf _ _) | exact orRight _ (orRight _ (by decide)) | exact orBoth _ (by decide) | exact Fld.bit_top _ | exact Fld.bit_regs _ | exact Fld.bit_top2 _ _ (by decide) | exact orSub (by assumption) (by decide) | (split <;> decide)) :
    Keeps m a { b with wkts := v } := by
  refine ⟨h.pending, h.variant, h.free, h.sent, fun w => ?_, fun a ha => by cases a <;> first | exact h.same _ ha | exact absurd (testBit_sub hm ha) (by decide)⟩
  have w := (State.wf_iff _).1 (h.wf w)
  simp_all [State.wf_iff]

theorem Keeps.lnks {m : Nat} {a b : State} (h : Keeps m a b) (v : List (Nat × Lnk)) (hv : dwf Lnk.init b.lnks = true → dwf Lnk.init v = true) (hm : 0x2000 ||| m = m := by first | decide | exact Nat.or_self _ | (rw [Fld.nth_bit]; decide) | (rw [faultsFld_bit]; decide) | (rw [atmLo_bit1]; decide) | (rw [atmLo_bit2]; decide) | exact orSelf _ _ | exact orRight _ (by decide) | exact orRight _ (orSelf _ _) | exact orRight _ (orRight _ (by decide)) | exact orBoth _ (by decide) | exact Fld.bit_top _ | exact Fld.bit_regs _ | exact Fld.bit_top2 _ _ (by decide) | exact orSub (by assumption) (by decide) | (split <;> decide)) :
    Keeps m a { b with lnks := v } := by
  refine ⟨h.pending, h.variant, h.free, h.sent, fun w => ?_, fun a ha => by cases a <;> first | exact h.same _ ha | exact absurd (testBit_sub hm ha) (by decide)⟩
  have w := (State.wf_iff _).1 (h.wf w)
  simp_all [State.wf_iff]

theorem Keeps.pmcs {m : Nat} {a b : State} (h : Keeps m a b) (v : List (Nat × Pmc)) (hv : dwf Pmc.init b.pmcs = true → dwf Pmc.init v = true) (hm : 0x8000 ||| m = m := by first | decide | exact Nat.or_self _ | (rw [Fld.nth_bit]; decide) | (rw [faultsFld_bit]; decide) | (rw [atmLo_bit1]; decide) | (rw [atmLo_bit2]; decide) | exact orSelf _ _ | exact orRight _ (by decide) | exact orRight _ (orSelf _ _) | exact orRight _ (orRight _ (by decide)) | exact orBoth _ (by decide) | exact Fld.bit_top _ | exact Fld.bit_regs _ | exact Fld.bit_top2 _ _ (by decide) | exact orSub (by assumption) (by decide) | (split <;> decide)) :
    Keeps m a { b with pmcs := v } := by
  refine ⟨h.pending, h.variant, h.free, h.sent, fun w => ?_, fun a ha => by cases a <;> first | exact h.same _ ha | exact absurd (testBit_sub hm ha) (by decide)⟩
  have w := (State.wf_iff _).1 (h.wf w)
  simp_all [State.wf_iff]

theorem Keeps.hbm {m : Nat} {a b : State} (h : Keeps m a b) (v : List Host.Cell) (hv : dwf (0 : Byte) b.hbm = true → dwf (0 : Byte) v = true) (hm : 0x80000 ||| m = m := by first | decide | exact Nat.or_self _ | (rw [Fld.nth_bit]; decide) | (rw [faultsFld_bit]; decide) | (rw [atmLo_bit1]; decide) | (rw [atmLo_bit2]; decide) | exact orSelf _ _ | exact orRight _ (by decide) | exact orRight _ (orSelf _ _) | exact orRight _ (orRight _ (by decide)) | exact orBoth _ (by decide) | exact Fld.bit_top _ | exact Fld.bit_regs _ | exact Fld.bit_top2 _ _ (by decide) | exact orSub (by assumption) (by decide) | (split <;> decide)) :
    Keeps m a { b with hbm := v } := by
  refine ⟨h.pending, h.variant, h.free, h.sent, fun w => ?_, fun a ha => by cases a <;> first | exact h.same _ ha | exact absurd (testBit_sub hm ha) (by decide)⟩
  have w := (State.wf_iff _).1 (h.wf w)
  simp_all [State.wf_iff]

theorem Keeps.outAppend {m : Nat} {a b : State} (h : Keeps m a b) (l : List Emit) (hm : 0x1 ||| m = m := by first | decide | exact Nat.or_self _ | (rw [Fld.nth_bit]; decide) | (rw [faultsFld_bit]; decide) | (rw [atmLo_bit1]; decide) | (rw [atmLo_bit2]; decide) | exact orSelf _ _ | exact orRight _ (by decide) | exact orRight _ (orSelf _ _) | exact orRight _ (orRight _ (by decide)) | exact orBoth _ (by decide) | exact Fld.bit_top _ | exact Fld.bit_regs _ | exact Fld.bit_top2 _ _ (by decide) | exact orSub (by assumption) (by decide) | (split <;> decide)) :
    Keeps m a { b with out := b.out ++ l } :=
  ⟨h.pending, h.variant, h.free, by obtain ⟨k, hk⟩ := h.sent; exact ⟨k ++ l, by simp [hk]⟩, h.wf, fun a ha => by cases a <;> first | exact h.same _ ha | exact absurd (testBit_sub hm ha) (by decide)⟩

theorem Keeps.freeUp {m : Nat} {a b : State} (h : Keeps m a b) (n : Nat) (hn : b.free ≤ n) (hm : 0x2 ||| m = m := by first | decide | exact Nat.or_self _ | (rw [Fld.nth_bit]; decide) | (rw [faultsFld_bit]; decide) | (rw [atmLo_bit1]; decide) | (rw [atmLo_bit2]; decide) | exact orSelf _ _ | exact orRight _ (by decide) | exact orRight _ (orSelf _ _) | exact orRight _ (orRight _ (by decide)) | exact orBoth _ (by decide) | exact Fld.bit_top _ | exact Fld.bit_regs _ | exact Fld.bit_top2 _ _ (by decide) | exact orSub (by assumption) (by decide) | (split <;> decide)) :
    Keeps m a { b with free := n } :=
  ⟨h.pending, h.variant, Nat.le_trans h.free hn, h.sent, h.wf, fun a ha => by cases a <;> first | exact h.same _ ha | exact absurd (testBit_sub hm ha) (by decide)⟩

/-! ### The basic updates -/

theorem Blk.ix_lt (b : Blk) : b.ix < 32 := by cases b <;> decide
theorem Blk.ix_inj {b c : Blk} (h : b.ix = c.ix) : b = c := by revert h; cases b <;> cases c <;> decide

/-- Fields of different blocks have different keys. -/
theorem Fld.key_ne {F G : Fld} (i j : Nat) (h : F.blk ≠ G.blk) : F.key i ≠ G.key j := by
  intro e
  refine h (Blk.ix_inj ?_)
  have := F.blk.ix_lt
  have := G.blk.ix_lt
  unfold Fld.key at e
  omega

theorem State.fset_keeps (s : State) (F : Fld) (i v : Nat) : Keeps F.bit s (s.fset F i v) := by
  refine ⟨rfl, rfl, Nat.le_refl _, ⟨[], (List.append_nil _).symm⟩, fun w => ?_, fun a ha => ?_⟩
  · have w := (State.wf_iff _).1 w
    have := trising_dset s.regs F.rst (F.key i) (v % 2 ^ F.w)
    simp_all [State.wf_iff, State.fset]
  · cases a with
    | regs b =>
      intro G j e
      refine State.fget_fset_other _ _ _ _ _ _ (Fld.key_ne _ _ ?_)
      intro k
      rw [Fld.bit, Nat.testBit_two_pow] at ha
      simp_all [Area.ix]
    | _ => rfl
theorem State.fput_keeps (s : State) (F : Fld) (i : Nat) (b : Bool) : Keeps F.bit s (s.fput F i b) := s.fset_keeps F i _
theorem State.fadd_keeps (s : State) (F : Fld) (i n : Nat) : Keeps F.bit s (s.fadd F i n) := s.fset_keeps F i _
theorem State.fsat_keeps (s : State) (F : Fld) (i v : Nat) : Keeps F.bit s (s.fsat F i v) := s.fset_keeps F i _
theorem State.fmax_keeps (s : State) (F : Fld) (i v : Nat) : Keeps F.bit s (s.fmax F i v) := s.fset_keeps F i _
theorem State.frst_keeps (s : State) (F : Fld) (i : Nat) : Keeps F.bit s (s.frst F i) := s.fset_keeps F i _
theorem State.fputAt_keeps (s : State) (F : Fld) (i k : Nat) (b : Bool) : Keeps F.bit s (s.fputAt F i k b) := s.fset_keeps F i _
theorem State.fsetLater_keeps (s : State) (F : Fld) (i v : Nat) : Keeps (F.bit ||| 0x4) s (s.fsetLater F i v) :=
  ((s.fset_keeps F i v).mono (by rw [← Nat.or_assoc, Nat.or_self])).force _ (trising_tput _ _ _) (orRight _ (by decide))
theorem State.applyForce_keeps (s : State) (l : List Nat) : Keeps 0x4 s (s.applyForce l) := by
  refine (Keeps.refl s).force _ (fun h => ?_)
  induction l generalizing s with
  | nil => exact h
  | cons k l ih => exact ih { s with force := tdel s.force k } (trising_tdel _ _ h)
theorem State.emit_keeps (s : State) (e : Emit) : Keeps 0x1 s (s.emit e) := (Keeps.refl s).outAppend [e]
theorem State.noteEvt_keeps (s : State) (off lo : Nat) : Keeps 0x8 s (s.noteEvt off lo) :=
  (Keeps.refl s).evNew _ (trising_tput _ _ _)
theorem State.modPart_keeps (s : State) (p : Nat) (f : Part → Part) : Keeps 0x20 s (s.modPart p f) :=
  (Keeps.refl s).parts _ (dwf_dset _ _ _ _)
theorem State.setPart_keeps (s : State) (p : Nat) (f : Part) : Keeps 0x20 s (s.setPart p f) :=
  (Keeps.refl s).parts _ (dwf_dset _ _ _ _)
theorem State.modFn_keeps (s : State) (p : Nat) (f : HostFn → HostFn) : Keeps 0x40 s (s.modFn p f) :=
  (Keeps.refl s).fns _ (dwf_dset _ _ _ _)
theorem State.setFn_keeps (s : State) (p : Nat) (f : HostFn) : Keeps 0x40 s (s.setFn p f) :=
  (Keeps.refl s).fns _ (dwf_dset _ _ _ _)
theorem State.modCsm_keeps (s : State) (p : Nat) (f : Casement → Casement) : Keeps 0x80 s (s.modCsm p f) :=
  (Keeps.refl s).csms _ (dwf_dset _ _ _ _)
theorem State.modPfx_keeps (s : State) (p : Nat) (f : Pfx → Pfx) : Keeps 0x100 s (s.modPfx p f) :=
  (Keeps.refl s).pfxs _ (dwf_dset _ _ _ _)
theorem State.modStg_keeps (s : State) (p : Nat) (f : Staging → Staging) : Keeps 0x200 s (s.modStg p f) :=
  (Keeps.refl s).stgs _ (dwf_dset _ _ _ _)
theorem State.modFtl_keeps (s : State) (p : Nat) (f : Ftl → Ftl) : Keeps 0x400 s (s.modFtl p f) :=
  (Keeps.refl s).ftls _ (dwf_dset _ _ _ _)
theorem State.modNrt_keeps (s : State) (p : Nat) (f : Nrt → Nrt) : Keeps 0x800 s (s.modNrt p f) :=
  (Keeps.refl s).nrts _ (dwf_dset _ _ _ _)
theorem State.modWkt_keeps (s : State) (p : Nat) (f : Wkt → Wkt) : Keeps 0x1000 s (s.modWkt p f) :=
  (Keeps.refl s).wkts _ (dwf_dset _ _ _ _)
theorem State.modLnk_keeps (s : State) (p : Nat) (f : Lnk → Lnk) : Keeps 0x2000 s (s.modLnk p f) :=
  (Keeps.refl s).lnks _ (dwf_dset _ _ _ _)
theorem State.modPmc_keeps (s : State) (p : Nat) (f : Pmc → Pmc) : Keeps 0x8000 s (s.modPmc p f) :=
  (Keeps.refl s).pmcs _ (dwf_dset _ _ _ _)

/-! ### Answers that hold a state -/

/-- The state of a pair keeps. -/
def KSnd {α : Type} (m : Nat) (a : State) (x : α × State) : Prop := Keeps m a x.2
def KSnd2 {α β : Type} (m : Nat) (a : State) (x : α × β × State) : Prop := Keeps m a x.2.2
def KFst {α : Type} (m : Nat) (a : State) (x : State × α) : Prop := Keeps m a x.1
/-- The state of what an option holds, if anything, keeps. -/
def KOpt {α : Type} (m : Nat) (g : α → State) (a : State) : Option α → Prop
  | none => True
  | some r => Keeps m a (g r)
/-- The state of an answer that is no error keeps. -/
def KExc {ε α : Type} (m : Nat) (g : α → State) (a : State) : Except ε α → Prop
  | .error _ => True
  | .ok r => Keeps m a (g r)

theorem KSnd.get {m : Nat} {α : Type} {a : State} {x : α × State} (h : KSnd m a x) : Keeps m a x.2 := h
theorem KSnd.eq {m : Nat} {α : Type} {a b : State} {x : α × State} {v : α} (e : x = (v, b)) (h : KSnd m a x) : Keeps m a b := by rw [e] at h; exact h
theorem KSnd.mk {m : Nat} {α : Type} {a b : State} {v : α} (h : Keeps m a b) : KSnd m a (v, b) := h
theorem KSnd.trans {m n : Nat} {α : Type} {a b : State} {x : α × State} (h : Keeps m a b) (k : KSnd n b x)
    (hm : n ||| m = m := by first | decide | exact Nat.or_self _ | (rw [Fld.nth_bit]; decide) | (rw [faultsFld_bit]; decide) | (rw [atmLo_bit1]; decide) | (rw [atmLo_bit2]; decide) | exact orSelf _ _ | exact orRight _ (by decide) | exact orRight _ (orSelf _ _) | exact orRight _ (orRight _ (by decide)) | exact orBoth _ (by decide) | exact Fld.bit_top _ | exact Fld.bit_regs _ | exact Fld.bit_top2 _ _ (by decide) | exact orSub (by assumption) (by decide) | (split <;> decide)) : KSnd m a x := Keeps.trans h k hm
theorem KSnd.tr {m : Nat} {α : Type} {a b : State} {x : α × State} (h : Keeps m a b) (k : KSnd m b x) : KSnd m a x := Keeps.tr h k
theorem KSnd.ite {m : Nat} {α : Type} {a : State} {p : Prop} [Decidable p] {x y : α × State} (h : KSnd m a x) (k : KSnd m a y) :
    KSnd m a (if p then x else y) := by split <;> assumption
theorem KSnd.cut {m : Nat} {α : Type} {a b : State} {x : α × State} (h : Keeps m a b) (k : Keeps m a b → KSnd m a x) : KSnd m a x := k h
theorem KSnd.foldl {m : Nat} {α β : Type} {a : State} (f : β × State → α → β × State) (l : List α) (h : ∀ y x, KSnd m y.2 (f y x))
    (y : β × State) (k : KSnd m a y) : KSnd m a (l.foldl f y) := Keeps.foldl2 f l h y k

theorem KSnd2.get {m : Nat} {α β : Type} {a : State} {x : α × β × State} (h : KSnd2 m a x) : Keeps m a x.2.2 := h
theorem KSnd2.eq {m : Nat} {α β : Type} {a b : State} {x : α × β × State} {v : α} {w : β} (e : x = (v, w, b)) (h : KSnd2 m a x) : Keeps m a b := by
  rw [e] at h; exact h
theorem KSnd2.mk {m : Nat} {α β : Type} {a b : State} {v : α} {w : β} (h : Keeps m a b) : KSnd2 m a (v, w, b) := h
theorem KSnd2.trans {m n : Nat} {α β : Type} {a b : State} {x : α × β × State} (h : Keeps m a b) (k : KSnd2 n b x)
    (hm : n ||| m = m := by first | decide | exact Nat.or_self _ | (rw [Fld.nth_bit]; decide) | (rw [faultsFld_bit]; decide) | (rw [atmLo_bit1]; decide) | (rw [atmLo_bit2]; decide) | exact orSelf _ _ | exact orRight _ (by decide) | exact orRight _ (orSelf _ _) | exact orRight _ (orRight _ (by decide)) | exact orBoth _ (by decide) | exact Fld.bit_top _ | exact Fld.bit_regs _ | exact Fld.bit_top2 _ _ (by decide) | exact orSub (by assumption) (by decide) | (split <;> decide)) : KSnd2 m a x := Keeps.trans h k hm
theorem KSnd2.tr {m : Nat} {α β : Type} {a b : State} {x : α × β × State} (h : Keeps m a b) (k : KSnd2 m b x) : KSnd2 m a x := Keeps.tr h k
theorem KSnd2.ite {m : Nat} {α β : Type} {a : State} {p : Prop} [Decidable p] {x y : α × β × State} (h : KSnd2 m a x) (k : KSnd2 m a y) :
    KSnd2 m a (if p then x else y) := by split <;> assumption
theorem KSnd2.cut {m : Nat} {α β : Type} {a b : State} {x : α × β × State} (h : Keeps m a b) (k : Keeps m a b → KSnd2 m a x) : KSnd2 m a x := k h
theorem KSnd2.foldl {m : Nat} {α β γ : Type} {a : State} (f : γ × β × State → α → γ × β × State) (l : List α)
    (h : ∀ y x, KSnd2 m y.2.2 (f y x)) (y : γ × β × State) (k : KSnd2 m a y) : KSnd2 m a (l.foldl f y) := by
  induction l generalizing y with
  | nil => exact k
  | cons x l ih => exact ih _ (Keeps.tr k (h y x))

theorem KFst.get {m : Nat} {α : Type} {a : State} {x : State × α} (h : KFst m a x) : Keeps m a x.1 := h
theorem KFst.eq {m : Nat} {α : Type} {a b : State} {x : State × α} {v : α} (e : x = (b, v)) (h : KFst m a x) : Keeps m a b := by rw [e] at h; exact h
theorem KFst.mk {m : Nat} {α : Type} {a b : State} {v : α} (h : Keeps m a b) : KFst m a (b, v) := h
theorem KFst.trans {m n : Nat} {α : Type} {a b : State} {x : State × α} (h : Keeps m a b) (k : KFst n b x)
    (hm : n ||| m = m := by first | decide | exact Nat.or_self _ | (rw [Fld.nth_bit]; decide) | (rw [faultsFld_bit]; decide) | (rw [atmLo_bit1]; decide) | (rw [atmLo_bit2]; decide) | exact orSelf _ _ | exact orRight _ (by decide) | exact orRight _ (orSelf _ _) | exact orRight _ (orRight _ (by decide)) | exact orBoth _ (by decide) | exact Fld.bit_top _ | exact Fld.bit_regs _ | exact Fld.bit_top2 _ _ (by decide) | exact orSub (by assumption) (by decide) | (split <;> decide)) : KFst m a x := Keeps.trans h k hm
theorem KFst.tr {m : Nat} {α : Type} {a b : State} {x : State × α} (h : Keeps m a b) (k : KFst m b x) : KFst m a x := Keeps.tr h k
theorem KFst.ite {m : Nat} {α : Type} {a : State} {p : Prop} [Decidable p] {x y : State × α} (h : KFst m a x) (k : KFst m a y) :
    KFst m a (if p then x else y) := by split <;> assumption
theorem KFst.cut {m : Nat} {α : Type} {a b : State} {x : State × α} (h : Keeps m a b) (k : Keeps m a b → KFst m a x) : KFst m a x := k h
theorem KFst.foldl {m : Nat} {α β : Type} {a : State} (f : State × β → α → State × β) (l : List α) (h : ∀ y x, KFst m y.1 (f y x))
    (y : State × β) (k : KFst m a y) : KFst m a (l.foldl f y) := Keeps.foldl1 f l h y k

theorem KOpt.eq {m : Nat} {α : Type} {g : α → State} {a : State} {x : Option α} {r : α} (e : x = some r) (h : KOpt m g a x) : Keeps m a (g r) := by
  rw [e] at h; exact h
theorem KOpt.mk {m : Nat} {α : Type} {g : α → State} {a : State} {r : α} (h : Keeps m a (g r)) : KOpt m g a (some r) := h
theorem KOpt.trans {m n : Nat} {α : Type} {g : α → State} {a b : State} {x : Option α} (h : Keeps m a b) (k : KOpt n g b x)
    (hm : n ||| m = m := by first | decide | exact Nat.or_self _ | (rw [Fld.nth_bit]; decide) | (rw [faultsFld_bit]; decide) | (rw [atmLo_bit1]; decide) | (rw [atmLo_bit2]; decide) | exact orSelf _ _ | exact orRight _ (by decide) | exact orRight _ (orSelf _ _) | exact orRight _ (orRight _ (by decide)) | exact orBoth _ (by decide) | exact Fld.bit_top _ | exact Fld.bit_regs _ | exact Fld.bit_top2 _ _ (by decide) | exact orSub (by assumption) (by decide) | (split <;> decide)) : KOpt m g a x := by
  cases x with
  | none => trivial
  | some r => exact Keeps.trans h k hm
theorem KOpt.tr {m : Nat} {α : Type} {g : α → State} {a b : State} {x : Option α} (h : Keeps m a b) (k : KOpt m g b x) :
    KOpt m g a x := KOpt.trans h k (Nat.or_self _)
theorem KOpt.ite {m : Nat} {α : Type} {g : α → State} {a : State} {p : Prop} [Decidable p] {x y : Option α} (h : KOpt m g a x)
    (k : KOpt m g a y) : KOpt m g a (if p then x else y) := by split <;> assumption
theorem KOpt.cut {m : Nat} {α : Type} {g : α → State} {a b : State} {x : Option α} (h : Keeps m a b) (k : Keeps m a b → KOpt m g a x) :
    KOpt m g a x := k h

theorem KOpt.getD {m : Nat} {a b : State} {x : Option State} (h : KOpt m (fun r => r) a x) (k : Keeps m a b) : Keeps m a (x.getD b) := by
  cases x with
  | none => exact k
  | some r => exact h

theorem KExc.eq {m : Nat} {ε α : Type} {g : α → State} {a : State} {x : Except ε α} {r : α} (e : x = .ok r) (h : KExc m g a x) :
    Keeps m a (g r) := by rw [e] at h; exact h
theorem KExc.mk {m : Nat} {ε α : Type} {g : α → State} {a : State} {r : α} (h : Keeps m a (g r)) : KExc (ε := ε) m g a (.ok r) := h
theorem KExc.trans {m n : Nat} {ε α : Type} {g : α → State} {a b : State} {x : Except ε α} (h : Keeps m a b) (k : KExc n g b x)
    (hm : n ||| m = m := by first | decide | exact Nat.or_self _ | (rw [Fld.nth_bit]; decide) | (rw [faultsFld_bit]; decide) | (rw [atmLo_bit1]; decide) | (rw [atmLo_bit2]; decide) | exact orSelf _ _ | exact orRight _ (by decide) | exact orRight _ (orSelf _ _) | exact orRight _ (orRight _ (by decide)) | exact orBoth _ (by decide) | exact Fld.bit_top _ | exact Fld.bit_regs _ | exact Fld.bit_top2 _ _ (by decide) | exact orSub (by assumption) (by decide) | (split <;> decide)) : KExc m g a x := by
  cases x with
  | error _ => trivial
  | ok r => exact Keeps.trans h k hm
theorem KExc.tr {m : Nat} {ε α : Type} {g : α → State} {a b : State} {x : Except ε α} (h : Keeps m a b) (k : KExc m g b x) :
    KExc m g a x := KExc.trans h k (Nat.or_self _)
theorem KExc.ite {m : Nat} {ε α : Type} {g : α → State} {a : State} {p : Prop} [Decidable p] {x y : Except ε α} (h : KExc m g a x)
    (k : KExc m g a y) : KExc m g a (if p then x else y) := by split <;> assumption
theorem KExc.cut {m : Nat} {ε α : Type} {g : α → State} {a b : State} {x : Except ε α} (h : Keeps m a b) (k : Keeps m a b → KExc m g a x) :
    KExc m g a x := k h
theorem KExc.bind {m : Nat} {ε α β : Type} {g : α → State} {k : β → State} {a : State} {x : Except ε α} {f : α → Except ε β}
    (h : KExc m g a x) (n : ∀ r, Keeps m a (g r) → KExc m k a (f r)) : KExc m k a (x >>= f) := by
  cases x with
  | error _ => trivial
  | ok r => exact n r h

/-- Whatever next state an outcome holds keeps. -/
def KNext (m : Nat) (a : State) (o : Host.Outcome State Fault Refusal) : Prop := ∀ t, o = .next t → Keeps m a t

theorem KNext.mk {m : Nat} {a b : State} (h : Keeps m a b) : KNext m a (.next b) := by
  intro t e
  cases e
  exact h
theorem KNext.trans {m n : Nat} {a b : State} {x : Host.Outcome State Fault Refusal} (h : Keeps m a b) (k : KNext n b x)
    (hm : n ||| m = m := by first | decide | exact Nat.or_self _ | (rw [Fld.nth_bit]; decide) | (rw [faultsFld_bit]; decide) | (rw [atmLo_bit1]; decide) | (rw [atmLo_bit2]; decide) | exact orSelf _ _ | exact orRight _ (by decide) | exact orRight _ (orSelf _ _) | exact orRight _ (orRight _ (by decide)) | exact orBoth _ (by decide) | exact Fld.bit_top _ | exact Fld.bit_regs _ | exact Fld.bit_top2 _ _ (by decide) | exact orSub (by assumption) (by decide) | (split <;> decide)) : KNext m a x := fun t e => Keeps.trans h (k t e) hm
theorem KNext.tr {m : Nat} {a b : State} {x : Host.Outcome State Fault Refusal} (h : Keeps m a b) (k : KNext m b x) : KNext m a x :=
  fun t e => Keeps.tr h (k t e)
theorem KNext.mono {m n : Nat} {a : State} {x : Host.Outcome State Fault Refusal} (k : KNext n a x)
    (hm : n ||| m = m := by first | decide | exact Nat.or_self _ | (rw [Fld.nth_bit]; decide) | (rw [faultsFld_bit]; decide) | (rw [atmLo_bit1]; decide) | (rw [atmLo_bit2]; decide) | exact orSelf _ _ | exact orRight _ (by decide) | exact orRight _ (orSelf _ _) | exact orRight _ (orRight _ (by decide)) | exact orBoth _ (by decide) | exact Fld.bit_top _ | exact Fld.bit_regs _ | exact Fld.bit_top2 _ _ (by decide) | exact orSub (by assumption) (by decide) | (split <;> decide)) : KNext m a x := fun t e => (k t e).mono hm
theorem KNext.ite {m : Nat} {a : State} {p : Prop} [Decidable p] {x y : Host.Outcome State Fault Refusal} (h : KNext m a x) (k : KNext m a y) :
    KNext m a (if p then x else y) := by split <;> assumption
theorem KNext.cut {m : Nat} {a b : State} {x : Host.Outcome State Fault Refusal} (h : Keeps m a b) (k : Keeps m a b → KNext m a x) : KNext m a x :=
  k h

theorem dwf_tput {α : Type} [DecidableEq α] (d : α) (t : List (Nat × α)) (k : Nat) (v : α) (h : dwf d t = true) (hv : v ≠ d) :
    dwf d (tput t k v) = true := by
  have := dwf_dset t d k v h
  unfold dset at this
  rwa [if_neg hv] at this

/-- Several components changed at once. -/
theorem Keeps.direct {m : Nat} {a b : State} (h1 : b.pending = a.pending) (h2 : b.variant = a.variant) (h3 : a.free ≤ b.free)
    (h4 : b.out = a.out) (h5 : a.wf = true → b.wf = true)
    (h6 : ∀ x : Area, m.testBit x.ix = false → a.agree b x := by
      intro x hx
      cases x <;> first
        | rfl
        | exact absurd hx (by decide)
        | exact fun F i e => rfl
        | (rename_i k; cases k <;> exact absurd hx (by decide))) : Keeps m a b :=
  ⟨h1, h2, h3, ⟨[], by rw [h4, List.append_nil]⟩, h5, h6⟩

theorem State.draw_keeps (s : State) : KSnd 0x2 s s.draw := (Keeps.refl s).freeUp _ (Nat.le_succ _)

end Sys2Proof.Machine
end

