-- ==== Sys2Proof/Laws/Alloc.lean ====
section
/-!
SUPPORT. Sys2Proof/Laws/Alloc.lean: when the allocations of a die's segments and pages succeed, and when the edits that rest on them do.
-/
namespace Sys2Proof.Machine
set_option Elab.async false

theorem insNat_filter_length (q : Nat → Bool) (g : Nat) (l : List Nat) :
    ((insNat g l).filter q).length ≤ (l.filter q).length + (q g).toNat := by
  induction l with
  | nil => unfold insNat; by_cases h : q g <;> simp [h]
  | cons x r ih =>
    unfold insNat
    split
    · by_cases h : q g <;> simp [h]
    · split
      · simp
      · by_cases hx : q x
        · simp only [List.filter_cons, hx, if_true, List.length_cons]; omega
        · simp only [List.filter_cons, hx]; simpa using ih

theorem State.freeIn_used (s : State) (d g k : Nat) :
    s.freeIn d k ≤ (s.modPfx d (fun x => { x with used := insNat g x.used })).freeIn d k + (g / 2 ^ 24 == k).toNat := by
  have h := insNat_filter_length (fun g => g / 2 ^ 24 == k) g (s.pfx d).used
  have e1 : (s.modPfx d (fun x => { x with used := insNat g x.used })).stackOn d k = s.stackOn d k := rfl
  have e2 : (s.modPfx d (fun x => { x with used := insNat g x.used })).stackSegs d = s.stackSegs d := rfl
  have e3 : (s.modPfx d (fun x => { x with used := insNat g x.used })).placedIn d k = s.placedIn d k := by
    unfold State.placedIn; rw [e2, State.modPfx_pfx_self]
  have e4 : (s.modPfx d (fun x => { x with used := insNat g x.used })).usedIn d k = (insNat g (s.pfx d).used).filter (fun g => g / 2 ^ 24 == k) := by
    unfold State.usedIn; rw [State.modPfx_pfx_self]
  have e5 : (s.modPfx d (fun x => { x with used := insNat g x.used })).unitOn uStack d k = s.unitOn uStack d k := rfl
  unfold State.freeIn
  rw [e1, e2, e3, e4, e5]
  unfold State.usedIn
  split <;> omega

theorem State.freeSegs_used (s : State) (d g : Nat) :
    s.freeSegs d ≤ (s.modPfx d (fun x => { x with used := insNat g x.used })).freeSegs d + 1 := by
  have h := s.freeIn_used d g
  have h0 := h 0; have h1 := h 1; have h2 := h 2
  unfold State.freeSegs
  have hs : (g / 2 ^ 24 == 0).toNat + (g / 2 ^ 24 == 1).toNat + (g / 2 ^ 24 == 2).toNat ≤ 1 := by
    rcases hg : g / 2 ^ 24 with _ | _ | _ | n <;> simp
  omega

/-- A die's stacks and the segments in use on it are the same. -/
def SameSegs (d : Nat) (s t : State) : Prop :=
  t.fget RAS_DIE_STATE_STACKS d = s.fget RAS_DIE_STATE_STACKS d ∧ t.fget MEM_RSVD_RSVD_MIB d = s.fget MEM_RSVD_RSVD_MIB d ∧
  (t.pfx d).used = (s.pfx d).used ∧ (t.pfx d).placed = (s.pfx d).placed ∧ ∀ k, t.unitOn uStack d k = s.unitOn uStack d k

theorem SameSegs.trans {d : Nat} {s t u : State} (h : SameSegs d s t) (k : SameSegs d t u) : SameSegs d s u :=
  ⟨k.1.trans h.1, k.2.1.trans h.2.1, k.2.2.1.trans h.2.2.1, k.2.2.2.1.trans h.2.2.2.1, fun j => (k.2.2.2.2 j).trans (h.2.2.2.2 j)⟩

theorem SameSegs.freeSegs {d : Nat} {s t : State} (h : SameSegs d s t) : t.freeSegs d = s.freeSegs d := by
  unfold State.freeSegs State.freeIn State.usedIn State.placedIn State.stackOn State.stackSegs
  simp only [h.1, h.2.1, h.2.2.1, h.2.2.2.1, h.2.2.2.2]

theorem SameSegs.modPfx (s : State) (d : Nat) (f : Pfx → Pfx) (h1 : (f (s.pfx d)).used = (s.pfx d).used)
    (h2 : (f (s.pfx d)).placed = (s.pfx d).placed) : SameSegs d s (s.modPfx d f) :=
  ⟨rfl, rfl, by rw [State.modPfx_pfx_self]; exact h1, by rw [State.modPfx_pfx_self]; exact h2, fun _ => rfl⟩

theorem SameSegs.foldl {d : Nat} {α : Type} {f : State → α → State} (l : List α) (h : ∀ s x, SameSegs d s (f s x)) (s : State) :
    SameSegs d s (l.foldl f s) := by
  induction l generalizing s with
  | nil => exact ⟨rfl, rfl, rfl, rfl, fun _ => rfl⟩
  | cons x r ih => exact (h s x).trans (ih _)

theorem SameSegs.addHold (s : State) (d id : Nat) : SameSegs d s (s.addHold d id) := by
  unfold State.addHold
  split
  · exact ⟨rfl, rfl, rfl, rfl, fun _ => rfl⟩
  · refine SameSegs.trans (t := s.modChunk d id (fun c => { c with holders := c.holders + 1 })) (SameSegs.modPfx _ _ _ rfl rfl) ?_
    unfold State.addRefs
    exact SameSegs.foldl _ (fun t x => SameSegs.modPfx t d (fun y => { y with
      pages := tmod y.pages x (fun p => { p with refs := p.refs + 1 }) }) rfl rfl) _

theorem SameSegs.fadd (s : State) (d i n : Nat) : SameSegs d s (s.fadd PFX_PRIVATE_COUNT i n) :=
  ⟨State.fget_fadd_other _ _ _ _ _ _ (by simp only [Fld.key, PFX_PRIVATE_COUNT, RAS_DIE_STATE_STACKS, Blk.ix]; omega), State.fget_fadd_other _ _ _ _ _ _ (by simp only [Fld.key, PFX_PRIVATE_COUNT, MEM_RSVD_RSVD_MIB, Blk.ix]; omega), rfl, rfl, fun _ => rfl⟩

theorem State.freeSegs_takeSeg (s : State) (d : Nat) : s.freeSegs d ≤ (s.takeSeg d).2.freeSegs d + 1 := by
  unfold State.takeSeg
  exact State.freeSegs_used { s with free := s.free + 1 } d _

theorem State.freeSegs_takeSegs (s : State) (d n : Nat) : s.freeSegs d ≤ (s.takeSegs d n).2.freeSegs d + n := by
  induction n with
  | zero => exact Nat.le_refl _
  | succ n ih =>
    unfold State.takeSegs
    have := (s.takeSegs d n).2.freeSegs_takeSeg d
    simp only
    omega

theorem State.freeSegs_modPfx (s : State) (d : Nat) (f : Pfx → Pfx) (h1 : (f (s.pfx d)).used = (s.pfx d).used)
    (h2 : (f (s.pfx d)).placed = (s.pfx d).placed) : (s.modPfx d f).freeSegs d = s.freeSegs d :=
  (SameSegs.modPfx s d f h1 h2).freeSegs

theorem State.freeSegs_takeList (s : State) (d : Nat) : s.freeSegs d ≤ (s.takeList d).2.freeSegs d + 1 := by
  unfold State.takeList
  split
  · rename_i g i _
    have h := s.freeSegs_modPfx d (fun x => { x with listSegs := tmod x.listSegs g (fun m => setBit m i true) }) rfl rfl
    exact Nat.le_succ_of_le (Nat.le_of_eq h.symm)
  · have h := (s.takeSeg d).2.freeSegs_modPfx d (fun x => { x with listSegs := tput x.listSegs (s.takeSeg d).1 1 }) rfl rfl
    exact Nat.le_trans (s.freeSegs_takeSeg d) (Nat.add_le_add_right (Nat.le_of_eq h.symm) 1)

/-- Segments of the structures are found while enough are free. -/
theorem State.poolSegs_ok (s : State) (d n : Nat) (h : n ≤ s.freeSegs d) : s.poolSegs d n = .ok (s.takeSegs d n) := by
  unfold State.poolSegs
  rw [if_neg (by omega)]

/-- A page finds its place while the quota holds, an entry of the page table is free and its segments are. -/
theorem State.newPage_ok (s : State) (d n : Nat) (pg : Page) (hq : s.quotaOk d pg.ctx n = true) (hp : s.freePages d ≠ 0)
    (h : n + 1 ≤ s.freeSegs d) : ∃ r, s.newPage d n pg = .ok r ∧ s.freeSegs d ≤ r.2.freeSegs d + (n + 1) := by
  unfold State.newPage
  have hl : n + (if n = 0 then 0 else s.listNeed d) ≤ s.freeSegs d := by
    unfold State.listNeed; split <;> (try split) <;> omega
  rw [if_neg (by simp [hq]), if_neg (by simp [hp]; omega)]
  have e0 : (s.pickId (tkeys (s.pfx d).pages) (s.freePages d)).2.freeSegs d = s.freeSegs d := SameSegs.freeSegs ⟨rfl, rfl, rfl, rfl, fun _ => rfl⟩
  by_cases hn : n = 0
  · subst hn
    refine ⟨_, rfl, ?_⟩
    have e2 := (s.pickId (tkeys (s.pfx d).pages) (s.freePages d)).2.freeSegs_modPfx d (fun x => { x with
      pages := tput x.pages (s.pickId (tkeys (s.pfx d).pages) (s.freePages d)).1 { pg with segs := [], list := 0 } }) rfl rfl
    exact Nat.le_succ_of_le (Nat.le_of_eq (e0.symm.trans e2.symm))
  · simp only [if_neg hn]
    refine ⟨_, rfl, ?_⟩
    have h1 := (s.pickId (tkeys (s.pfx d).pages) (s.freePages d)).2.freeSegs_takeList d
    have h2 := ((s.pickId (tkeys (s.pfx d).pages) (s.freePages d)).2.takeList d).2.freeSegs_takeSegs d n
    refine Nat.le_trans (Nat.le_trans (Nat.le_of_eq e0.symm) (Nat.le_trans h1 (Nat.add_le_add_right h2 1))) ?_
    simp only
    rw [State.freeSegs_modPfx _ _ _ rfl rfl]
    exact Nat.le_refl _

/-- A new version of a map finds the segments of its body and tail. -/
theorem State.newVersion_ok (s s0 : State) (d slot : Nat) (e : SeqSlot) (chunks : List Nat) (tail : Tail)
    (h : bodySegs chunks.length + tailSegs tail.layers.length ≤ s.freeSegs d) : (s.newVersion s0 d slot e chunks tail).isOk = true := by
  unfold State.newVersion
  rw [s.poolSegs_ok d _ (by omega)]
  have h1 := s.freeSegs_takeSegs d (bodySegs chunks.length)
  simp only [liftAlloc, bind, Except.bind]
  rw [State.poolSegs_ok _ d _ (by omega)]
  rfl

/-- A new sequence finds its index entry and the segments of its body and tail. -/
theorem State.newSeq_ok (s0 s : State) (d q ctx : Nat) (parked : Bool) (chunks : List Nat) (tail : Tail)
    (hs : (s.newSlot? d q).isSome = true) (h : bodySegs chunks.length + tailSegs tail.layers.length ≤ s.freeSegs d) :
    (State.newSeq s0 s d q ctx parked chunks tail).isOk = true := by
  unfold State.newSeq
  obtain ⟨k, hk⟩ := Option.isSome_iff_exists.1 hs
  rw [hk]
  simp only
  rw [s.poolSegs_ok d _ (by omega)]
  have h1 := s.freeSegs_takeSegs d (bodySegs chunks.length)
  simp only [liftAlloc, bind, Except.bind]
  rw [State.poolSegs_ok _ d _ (by omega)]
  rfl

/-- A sequence created without LOOKUP finds its place. -/
theorem State.create_ok (s : State) (d q ctx : Nat) (parked : Bool) (toks : List Nat) (c : Ctx) (hc : s.dieCtx? d ctx = some c)
    (hs : (s.newSlot? d q).isSome = true) (h : bodySegs 0 + tailSegs c.layers ≤ s.freeSegs d) :
    (s.create d q ctx false parked toks).isOk = true := by
  have hn := State.newSeq_ok s s d q ctx parked [] ⟨128 * ([] : List Nat).length, (toks.drop (128 * ([] : List Nat).length)).take 256,
    List.replicate c.layers LayerEnt.init, []⟩ hs (by simpa using h)
  unfold State.create
  simp only [hc, Bool.false_eq_true, if_false, bind, Except.bind]
  generalize State.newSeq s s d q ctx parked [] _ = r at hn ⊢
  cases r with
  | error x => cases hn
  | ok v => rfl

/-- A write of a page that is still in the tail finds its places. -/
theorem State.writeMap_tail_ok (s : State) (d slot l pos : Nat) (data : List (List Nat)) (e : SeqSlot) (c : Ctx) (p : Page)
    (he : tget (s.pfx d).index slot = some e) (hc : s.dieCtx? d e.ctx = some c)
    (hg : ¬ (c.layers ≤ l ∨ data.length = 0 ∨ 128 < data.length ∨ data.any (fun p => p.length != c.elems) = true
      ∨ pos / 128 ≠ (pos + data.length - 1) / 128 ∨ e.len l < pos + data.length))
    (hb : ¬ pos < e.tail.base) (hx : e.tail.layers.getD l LayerEnt.init = x) (hf : x.full = 0)
    (hp : s.page? d x.open_ = some p) (hm : (s.mustRead d [x.open_]).isOk = true)
    (hq : s.quotaOk d e.ctx (tailFrame c (writePos p.pos (pos % 128) (data.map tailPos)).length) = true) (hfp : s.freePages d ≠ 0)
    (h : tailFrame c (writePos p.pos (pos % 128) (data.map tailPos)).length + 1
      + (bodySegs e.body.chunks.length + tailSegs e.tail.layers.length) ≤ s.freeSegs d) :
    (s.writeMap d slot l pos data).isOk = true := by
  unfold State.writeMap
  simp only [he, hc]
  rw [if_neg hg, if_neg hb]
  subst hx
  simp only [hf, ne_eq, not_true, false_and, decide_false, Bool.false_eq_true, if_false, hp, bind, Except.bind, Bool.false_and]
  generalize s.mustRead d _ = r at hm ⊢
  cases r with
  | error x => cases hm
  | ok v =>
  simp only
  obtain ⟨r, hr, hle⟩ := s.newPage_ok d _ (newTail c e.ctx l p.posBase e.seq (writePos p.pos (pos % 128) (data.map tailPos))) hq hfp
    (Nat.le_trans (Nat.le_add_right _ _) h)
  rw [hr]
  simp only [liftAlloc]
  have ha : (r.2.addRef d r.1).freeSegs d = r.2.freeSegs d := State.freeSegs_modPfx _ _ _ rfl rfl
  split
  · rename_i hx
    have hv := State.newVersion_ok (r.2.addRef d r.1) s d slot e e.body.chunks { e.tail with
      layers := ((List.range e.tail.layers.length).zip e.tail.layers).map (fun y => if y.1 = l then
        (⟨0, r.1, (e.tail.layers.getD l LayerEnt.init).fill, (e.tail.layers.getD l LayerEnt.init).done,
          (e.tail.layers.getD l LayerEnt.init).sealed⟩ : LayerEnt) else y.2) } (by
      simp only [List.length_map, List.length_zip, List.length_range, Nat.min_self]
      omega)
    exact absurd ((congrArg Except.isOk hx).symm.trans hv) (by intro h; cases h)
  · rfl

/-- A fork of a sequence of one layer at length 0 without chunks. -/
theorem State.fork_zero_ok (s : State) (d slot q : Nat) (parked : Bool) (e : SeqSlot) (c : Ctx)
    (he : tget (s.pfx d).index slot = some e) (hc : s.dieCtx? d e.ctx = some c) (hb : e.body.chunks = [])
    (hl : e.tail.layers.length = 1) (hs : (s.newSlot? d q).isSome = true)
    (hq : s.quotaOk d e.ctx (sumNat [tailNeed c 0]) = true) (h : bodySegs 0 + tailSegs 1 ≤ s.freeSegs d) :
    (s.fork d slot q 0 parked).isOk = true := by
  unfold State.fork
  simp only [he, hc]
  rw [if_neg (Nat.not_lt_zero _)]
  obtain ⟨x, hx⟩ := List.length_eq_one_iff.1 hl
  simp only [hb, List.length_nil, Nat.zero_min, Nat.mul_zero, Nat.sub_zero, List.getElem?_nil, hx]
  simp only [bind, Except.bind, pure, Except.pure, List.map_cons, List.map_nil, List.take_zero, ne_eq, not_true, if_false]
  rw [show s.tailLayers d e.ctx c q 0 ((List.range [([] : List Pos)].length).zip [[]]) s = .ok ([⟨0, 0, 0, false, 0⟩], [], s) from rfl]
  rw [show s.quotaFirst d e.ctx (sumNat [tailNeed c ([] : List Pos).length]) = .ok () from by unfold State.quotaFirst; exact if_pos hq]
  simp only
  split
  · rename_i hx
    have hn := State.newSeq_ok s s d q e.ctx parked [] ⟨0, [], [⟨0, 0, 0, false, 0⟩], []⟩ hs h
    exact absurd ((congrArg Except.isOk hx).symm.trans hn) (by intro h; cases h)
  · rfl

/-- The last chunk's private copy completes without a search of the tree. -/
theorem State.completeChunk_written_ok (s : State) (d slot : Nat) (e : SeqSlot) (cid : Nat) (ch : Chunk)
    (he : tget (s.pfx d).index slot = some e) (hl : e.body.chunks.getLast? = some cid) (hc : s.chunk? d cid = some ch)
    (hw : ch.written = true) (hf : s.freeChunks d ≠ 0)
    (h : bodySegs (e.body.chunks.length + 1) + tailSegs e.tail.layers.length ≤ s.freeSegs d) :
    (s.completeChunk d slot).isOk = true := by
  unfold State.completeChunk State.finishChunk State.chunkFor
  simp only [he, hl, hc, hw, hf, if_true, if_false, bind, Except.bind, pure, Except.pure]
  split
  · rename_i hx
    exact absurd ((congrArg Except.isOk hx).symm.trans (State.newVersion_ok _ _ _ _ _ _ _ (by
      refine Nat.le_trans ?_ (Nat.le_of_eq (SameSegs.freeSegs (s := s) ?_).symm)
      · simpa using h
      · refine SameSegs.trans ?_ (SameSegs.fadd _ _ _ _)
        refine SameSegs.trans ?_ (SameSegs.addHold _ _ _)
        refine SameSegs.trans ?_ (SameSegs.foldl _ (fun _ _ => SameSegs.modPfx _ _ _ rfl rfl) _)
        exact SameSegs.trans (t := (s.pickId _ _).2) ⟨rfl, rfl, rfl, rfl, fun _ => rfl⟩ (SameSegs.modPfx _ _ _ rfl rfl)))) (by intro h; cases h)
  · rfl

end Sys2Proof.Machine
end

