-- ==== Sys2Proof/Laws/KeepsOps.lean ====
section
/-!
SUPPORT. Sys2Proof/Laws/KeepsOps.lean: each operation of Machine/Ops.lean keeps what `Keeps` says, with the parts of the state it may
touch.
-/
namespace Sys2Proof.Machine
set_option Elab.async false

theorem State.sensed_keeps (s : State) (n : Nat) : KSnd 0x2 s (State.sensed s n) := by
  unfold State.sensed
  split
  · rename_i z0 z1 z2 z3
    refine KSnd.cut (b := z2) ?_ ?_
    · refine KSnd.eq z3 ?_
      refine KSnd.trans ?_ (State.draw_keeps _)
      exact Keeps.refl _
    intro k4
    refine KSnd.mk ?_
    exact k4

theorem State.holdCount_keeps (s : State) (dt : Nat) : Keeps 0x200010 s (State.holdCount s dt) := by
  unfold State.holdCount
  refine Keeps.ite ?_ ?_
  · extract_lets +onlyGivenNames x0
    refine Keeps.trans ?_ (State.fsat_keeps _ _ _ _)
    refine Keeps.clk ?_ _
    exact Keeps.refl _
  · exact Keeps.refl _

theorem State.advanceTo_keeps (s : State) (t : Nat) : Keeps 0x200010 s (State.advanceTo s t) := by
  unfold State.advanceTo
  refine Keeps.ite ?_ ?_
  · extract_lets +onlyGivenNames x0
    refine Keeps.cut (b := x0) ?_ ?_
    · unfold x0
      refine Keeps.trans ?_ (State.holdCount_keeps _ _)
      exact Keeps.refl _
    intro k1
    clear_value x0
    refine Keeps.clk ?_ _
    exact k1
  · exact Keeps.refl _

theorem State.evtDie_keeps (s : State) (F : Fld) (d : Nat) : Keeps (F.bit ||| 0x8) s (State.evtDie s F d) := by
  unfold State.evtDie
  refine Keeps.ite ?_ ?_
  · exact Keeps.refl _
  · extract_lets +onlyGivenNames x0
    refine Keeps.cut (b := x0) ?_ ?_
    · unfold x0
      refine Keeps.trans ?_ (State.fset_keeps _ _ _ _)
      exact Keeps.refl _
    intro k1
    clear_value x0
    split
    · rename_i z2 z3
      exact k1
    · rename_i z4 z5 z6
      refine Keeps.trans ?_ (State.noteEvt_keeps _ _ _)
      exact k1

theorem State.evtPart_keeps (s : State) (F : Fld) (p : Nat) : Keeps (F.bit ||| 0x8) s (State.evtPart s F p) := by
  unfold State.evtPart
  refine Keeps.ite ?_ ?_
  · exact Keeps.refl _
  · refine Keeps.trans ?_ (State.noteEvt_keeps _ _ _)
    refine Keeps.trans ?_ (State.fset_keeps _ _ _ _)
    exact Keeps.refl _

theorem State.pf0_keeps (s : State) : Keeps 0x1 s (State.pf0 s) := by
  unfold State.pf0
  refine Keeps.trans ?_ (State.emit_keeps _ _)
  refine Keeps.trans ?_ (State.emit_keeps _ _)
  exact Keeps.refl _

theorem State.evtPkg_keeps (s : State) (F : Fld) : Keeps (F.bit ||| 0x21) s (State.evtPkg s F) := by
  unfold State.evtPkg
  refine Keeps.ite ?_ ?_
  · exact Keeps.refl _
  · extract_lets +onlyGivenNames x0
    refine Keeps.cut (b := x0) ?_ ?_
    · unfold x0
      refine Keeps.trans ?_ (State.fset_keeps _ _ _ _)
      exact Keeps.refl _
    intro k1
    clear_value x0
    extract_lets +onlyGivenNames x2
    refine Keeps.trans ?_ (State.pf0_keeps _)
    refine Keeps.foldl _ _ (fun s3 y4 => ?_) ?_
    · unfold x2
      refine Keeps.ite ?_ ?_
      · refine Keeps.trans ?_ (State.modPart_keeps _ _ _)
        exact Keeps.refl _
      · exact Keeps.refl _
    · exact k1

theorem State.evtFn_keeps (s : State) (F : Fld) (f : Nat) : Keeps (F.bit ||| 0x40) s (State.evtFn s F f) := by
  unfold State.evtFn
  refine Keeps.ite ?_ ?_
  · exact Keeps.refl _
  · refine Keeps.trans ?_ (State.modFn_keeps _ _ _)
    refine Keeps.trans ?_ (State.fset_keeps _ _ _ _)
    exact Keeps.refl _

theorem State.evtPtn_keeps (s : State) (F : Fld) (p : Nat) : Keeps (F.bit ||| 0x9) s (State.evtPtn s F p) := by
  unfold State.evtPtn
  refine Keeps.ite ?_ ?_
  · exact Keeps.refl _
  · refine Keeps.trans ?_ (State.pf0_keeps _)
    refine Keeps.trans ?_ (State.evtPart_keeps _ _ _)
    exact Keeps.refl _

theorem State.modPwr_keeps (s : State) (f : Pwr → Pwr) : Keeps 0x20000 s (State.modPwr s f) := by
  unfold State.modPwr
  refine Keeps.pwr ?_ _
  exact Keeps.refl _

theorem State.pmcAdd_keeps (s : State) (p d n v : Nat) (w0 : Nat) : Keeps 0x4008008 s (State.pmcAdd s p d n v w0) := by
  induction w0 generalizing s p d n v with
  | zero =>
    unfold State.pmcAdd
    exact Keeps.refl _
  | succ n0 ih =>
    unfold State.pmcAdd
    extract_lets +onlyGivenNames x0
    refine Keeps.ite ?_ ?_
    · exact Keeps.refl _
    · extract_lets +onlyGivenNames x1
      extract_lets +onlyGivenNames x2
      refine Keeps.cut (b := x2) ?_ ?_
      · unfold x2
        refine Keeps.trans ?_ (State.modPmc_keeps _ _ _)
        exact Keeps.refl _
      intro k3
      clear_value x2
      refine Keeps.ite ?_ ?_
      · exact k3
      · extract_lets +onlyGivenNames x4
        extract_lets +onlyGivenNames x5
        refine Keeps.cut (b := x5) ?_ ?_
        · unfold x5
          refine Keeps.ite ?_ ?_
          · refine Keeps.tr ?_ (ih _ _ _ _ _)
            exact k3
          · exact k3
        intro k6
        clear_value x5
        extract_lets +onlyGivenNames x7
        refine Keeps.cut (b := x7) ?_ ?_
        · unfold x7
          refine Keeps.trans ?_ (State.evtPart_keeps _ _ _)
          refine Keeps.trans ?_ (State.modPmc_keeps _ _ _)
          exact k6
        intro k8
        clear_value x7
        refine Keeps.ite ?_ ?_
        · refine Keeps.trans ?_ (State.evtPart_keeps _ _ _)
          refine Keeps.trans ?_ (State.fset_keeps _ _ _ _)
          exact k8
        · exact k8

theorem State.pmc_keeps (s : State) (d ev pulses weight : Nat) (ctx : Option Nat) : Keeps 0x4008008 s (State.pmc s d ev pulses weight ctx) := by
  unfold State.pmc
  split
  · rename_i z0 z1
    exact Keeps.refl _
  · rename_i z2 z3 z4
    refine Keeps.ite ?_ ?_
    · exact Keeps.refl _
    · refine Keeps.foldl _ _ (fun s5 y6 => ?_) ?_
      · refine Keeps.trans ?_ (State.pmcAdd_keeps _ _ _ _ _ _)
        exact Keeps.refl _
      · exact Keeps.refl _

theorem State.bw_keeps (s : State) (d port bytes : Nat) : Keeps 0x8000 s (State.bw s d port bytes) := by
  unfold State.bw
  split
  · rename_i z0 z1
    exact Keeps.refl _
  · rename_i z2 z3 z4
    refine Keeps.ite ?_ ?_
    · exact Keeps.refl _
    · refine Keeps.trans ?_ (State.modPmc_keeps _ _ _)
      exact Keeps.refl _

theorem State.hist_keeps (s : State) (d src param v : Nat) : Keeps 0x8000 s (State.hist s d src param v) := by
  unfold State.hist
  split
  · rename_i z0 z1
    exact Keeps.refl _
  · rename_i z2 z3 z4
    refine Keeps.ite ?_ ?_
    · exact Keeps.refl _
    · refine Keeps.trans ?_ (State.modPmc_keeps _ _ _)
      exact Keeps.refl _

theorem State.hbmRead_keeps (s : State) (d bytes : Nat) (ctx : Option Nat) : Keeps 0x400800A s (State.hbmRead s d bytes ctx) := by
  unfold State.hbmRead
  extract_lets +onlyGivenNames x0
  extract_lets +onlyGivenNames x1
  refine Keeps.cut (b := x1) ?_ ?_
  · unfold x1
    refine Keeps.trans ?_ (State.bw_keeps _ _ _ _)
    refine Keeps.trans ?_ (State.pmc_keeps _ _ _ _ _ _)
    exact Keeps.refl _
  intro k2
  clear_value x1
  extract_lets +onlyGivenNames x3
  refine Keeps.ite ?_ ?_
  · refine Keeps.foldl _ _ (fun s4 y5 => ?_) ?_
    · split
      · rename_i z6 z7 z8 z9
        refine Keeps.cut (b := z8) ?_ ?_
        · refine KSnd.eq z9 ?_
          refine KSnd.trans ?_ (State.draw_keeps _)
          exact Keeps.refl _
        intro k10
        refine Keeps.trans ?_ (State.hist_keeps _ _ _ _ _)
        exact k10
    · exact k2
  · exact k2

theorem State.hbmWrite_keeps (s : State) (d bytes : Nat) (ctx : Option Nat) : Keeps 0x4008008 s (State.hbmWrite s d bytes ctx) := by
  unfold State.hbmWrite
  extract_lets +onlyGivenNames x0
  refine Keeps.trans ?_ (State.bw_keeps _ _ _ _)
  refine Keeps.trans ?_ (State.pmc_keeps _ _ _ _ _ _)
  exact Keeps.refl _

theorem State.raiseVec_keeps (s : State) (f v : Nat) : Keeps 0x41 s (State.raiseVec s f v) := by
  unfold State.raiseVec
  refine Keeps.ite ?_ ?_
  · refine Keeps.trans ?_ (State.modFn_keeps _ _ _)
    exact Keeps.refl _
  · refine Keeps.trans ?_ (State.emit_keeps _ _)
    exact Keeps.refl _

theorem State.cqInterrupt_keeps (s : State) (f cq : Nat) : Keeps 0x41 s (State.cqInterrupt s f cq) := by
  unfold State.cqInterrupt
  split
  · rename_i z0 z1
    exact Keeps.refl _
  · rename_i z2 z3 z4
    extract_lets +onlyGivenNames x5
    refine Keeps.cut (b := x5) ?_ ?_
    · unfold x5
      refine Keeps.trans ?_ (State.modFn_keeps _ _ _)
      exact Keeps.refl _
    intro k6
    clear_value x5
    refine Keeps.ite ?_ ?_
    · exact k6
    · refine Keeps.trans ?_ (State.raiseVec_keeps _ _ _)
      exact k6

theorem State.tlp_keeps (s : State) (f dir bytes : Nat) : Keeps 0x8000 s (State.tlp s f dir bytes) := by
  unfold State.tlp
  refine Keeps.ite ?_ ?_
  · refine Keeps.trans ?_ (State.bw_keeps _ _ _ _)
    exact Keeps.refl _
  · exact Keeps.refl _

theorem State.hostWrite_keeps (s : State) (f addr : Nat) (b : List Byte) : Keeps 0x8001 s (State.hostWrite s f addr b) := by
  induction b generalizing s f addr with
  | nil =>
    unfold State.hostWrite
    refine Keeps.trans ?_ (State.emit_keeps _ _)
    refine Keeps.trans ?_ (State.tlp_keeps _ _ _ _)
    exact Keeps.refl _
  | cons hd0 tl0 ih =>
    unfold State.hostWrite
    refine Keeps.trans ?_ (State.emit_keeps _ _)
    refine Keeps.trans ?_ (State.tlp_keeps _ _ _ _)
    exact Keeps.refl _

theorem State.cqWrite_keeps (s : State) (f cq : Nat) (intr : Bool) (mk : Nat → Bool → Emit) : Keeps 0x8041 s (State.cqWrite s f cq intr mk) := by
  unfold State.cqWrite
  split
  · rename_i z0 z1
    exact Keeps.refl _
  · rename_i z2 z3 z4
    extract_lets +onlyGivenNames x5
    extract_lets +onlyGivenNames x6
    refine Keeps.cut (b := x6) ?_ ?_
    · unfold x6
      refine Keeps.trans ?_ (State.modFn_keeps _ _ _)
      refine Keeps.trans ?_ (State.emit_keeps _ _)
      refine Keeps.trans ?_ (State.tlp_keeps _ _ _ _)
      exact Keeps.refl _
    intro k7
    clear_value x6
    refine Keeps.ite ?_ ?_
    · refine Keeps.trans ?_ (State.cqInterrupt_keeps _ _ _)
      exact k7
    · exact k7

theorem State.nextSeq_keeps (s : State) (f : Nat) : KSnd 0x400000 s (State.nextSeq s f) := by
  unfold State.nextSeq
  extract_lets +onlyGivenNames x0
  refine KSnd.mk ?_
  refine Keeps.trans ?_ (State.fset_keeps _ _ _ _)
  exact Keeps.refl _

theorem State.raiseEvent_keeps (s : State) (f code die : Nat) (payload : List Byte) : Keeps 0x408041 s (State.raiseEvent s f code die payload) := by
  unfold State.raiseEvent
  refine Keeps.ite ?_ ?_
  · exact Keeps.refl _
  · split
    · rename_i z0 z1 z2 z3
      refine Keeps.cut (b := z2) ?_ ?_
      · refine KSnd.eq z3 ?_
        refine KSnd.trans ?_ (State.nextSeq_keeps _ _)
        exact Keeps.refl _
      intro k4
      extract_lets +onlyGivenNames x5
      extract_lets +onlyGivenNames x6
      refine Keeps.ite ?_ ?_
      · refine Keeps.trans ?_ (State.cqWrite_keeps _ _ _ _ _)
        exact k4
      · refine Keeps.ite ?_ ?_
        · refine Keeps.trans ?_ (State.modFn_keeps _ _ _)
          exact k4
        · refine Keeps.trans ?_ (State.evtFn_keeps _ _ _)
          refine Keeps.trans ?_ (State.fadd_keeps _ _ _ _)
          refine Keeps.trans ?_ (State.modFn_keeps _ _ _)
          exact k4

theorem State.raiseOn0_keeps (s : State) (f code die : Nat) (payload : List Byte) : Keeps 0x408041 s (State.raiseOn0 s f code die payload) := by
  unfold State.raiseOn0
  refine Keeps.ite ?_ ?_
  · split
    · rename_i z0 z1 z2 z3
      refine Keeps.cut (b := z2) ?_ ?_
      · refine KSnd.eq z3 ?_
        refine KSnd.trans ?_ (State.nextSeq_keeps _ _)
        exact Keeps.refl _
      intro k4
      extract_lets +onlyGivenNames x5
      refine Keeps.trans ?_ (State.cqWrite_keeps _ _ _ _ _)
      exact k4
  · refine Keeps.trans ?_ (State.raiseEvent_keeps _ _ _ _ _)
    exact Keeps.refl _

theorem State.flushHeld_keeps (s : State) (f : Nat) (w0 : Nat) : Keeps 0x408041 s (State.flushHeld s f w0) := by
  induction w0 generalizing s f with
  | zero =>
    unfold State.flushHeld
    exact Keeps.refl _
  | succ n0 ih =>
    unfold State.flushHeld
    extract_lets +onlyGivenNames x0
    refine Keeps.ite ?_ ?_
    · exact Keeps.refl _
    · refine Keeps.ite ?_ ?_
      · split
        · rename_i z1 z2 z3 z4
          refine Keeps.cut (b := z3) ?_ ?_
          · refine KSnd.eq z4 ?_
            refine KSnd.trans ?_ (State.nextSeq_keeps _ _)
            exact Keeps.refl _
          intro k5
          extract_lets +onlyGivenNames x6
          refine Keeps.tr ?_ (ih _ _)
          refine Keeps.trans ?_ (State.cqWrite_keeps _ _ _ _ _)
          refine Keeps.trans ?_ (State.modFn_keeps _ _ _)
          exact k5
      · split
        · rename_i z7 z8
          exact Keeps.refl _
        · rename_i z9 z10 z11 z12
          refine Keeps.tr ?_ (ih _ _)
          refine Keeps.trans ?_ (State.cqWrite_keeps _ _ _ _ _)
          refine Keeps.trans ?_ (State.modFn_keeps _ _ _)
          exact Keeps.refl _

theorem State.partEvent_keeps (s : State) (p code die : Nat) (payload : List Byte) : Keeps 0x408041 s (State.partEvent s p code die payload) := by
  unfold State.partEvent
  extract_lets +onlyGivenNames x0
  unfold x0
  refine Keeps.ite ?_ ?_
  · refine Keeps.trans ?_ (State.raiseEvent_keeps _ _ _ _ _)
    refine Keeps.ite ?_ ?_
    · refine Keeps.trans ?_ (State.raiseEvent_keeps _ _ _ _ _)
      exact Keeps.refl _
    · exact Keeps.refl _
  · refine Keeps.ite ?_ ?_
    · refine Keeps.trans ?_ (State.raiseEvent_keeps _ _ _ _ _)
      exact Keeps.refl _
    · exact Keeps.refl _

theorem State.dieEvent_keeps (s : State) (d code : Nat) (payload : List Byte) : Keeps 0x408041 s (State.dieEvent s d code payload) := by
  unfold State.dieEvent
  split
  · rename_i z0 z1 z2
    refine Keeps.trans ?_ (State.partEvent_keeps _ _ _ _ _)
    exact Keeps.refl _
  · rename_i z3 z4
    exact Keeps.refl _

theorem State.sealedEvent_keeps (s : State) (code : Nat) (payload : List Byte) : Keeps 0x408041 s (State.sealedEvent s code payload) := by
  unfold State.sealedEvent
  refine Keeps.foldl _ _ (fun s0 y1 => ?_) ?_
  · refine Keeps.ite ?_ ?_
    · refine Keeps.trans ?_ (State.partEvent_keeps _ _ _ _ _)
      exact Keeps.refl _
    · exact Keeps.refl _
  · exact Keeps.refl _

theorem State.completeOne_keeps (s : State) (o : Outst) (status r0 r1 : Nat) : Keeps 0x4408069 s (State.completeOne s o status r0 r1) := by
  unfold State.completeOne
  extract_lets +onlyGivenNames x0
  extract_lets +onlyGivenNames x1
  extract_lets +onlyGivenNames x2
  refine Keeps.cut (b := x2) ?_ ?_
  · unfold x2
    refine Keeps.trans ?_ (State.modPart_keeps _ _ _)
    exact Keeps.refl _
  intro k3
  clear_value x2
  extract_lets +onlyGivenNames x4
  extract_lets +onlyGivenNames x5
  refine Keeps.cut (b := x5) ?_ ?_
  · unfold x5
    refine Keeps.ite ?_ ?_
    · refine Keeps.trans ?_ (State.fset_keeps _ _ _ _)
      exact k3
    · exact k3
  intro k6
  clear_value x5
  extract_lets +onlyGivenNames x7
  extract_lets +onlyGivenNames x8
  extract_lets +onlyGivenNames x9
  extract_lets +onlyGivenNames x10
  extract_lets +onlyGivenNames x11
  refine Keeps.cut (b := x11) ?_ ?_
  · unfold x11
    refine Keeps.trans ?_ (State.cqWrite_keeps _ _ _ _ _)
    exact k6
  intro k12
  clear_value x11
  extract_lets +onlyGivenNames x13
  refine Keeps.cut (b := x13) ?_ ?_
  · unfold x13
    refine Keeps.trans ?_ (State.modFn_keeps _ _ _)
    exact k6
  intro k14
  clear_value x13
  extract_lets +onlyGivenNames x15
  refine Keeps.cut (b := x15) ?_ ?_
  · unfold x15
    refine Keeps.ite ?_ ?_
    · refine Keeps.ite ?_ ?_
      · refine Keeps.trans ?_ (State.hist_keeps _ _ _ _ _)
        refine Keeps.trans ?_ (State.pmc_keeps _ _ _ _ _ _)
        exact k12
      · exact k12
    · refine Keeps.trans ?_ (State.evtFn_keeps _ _ _)
      refine Keeps.trans ?_ (State.fadd_keeps _ _ _ _)
      exact k14
  intro k16
  clear_value x15
  refine Keeps.ite ?_ ?_
  · extract_lets +onlyGivenNames x17
    refine Keeps.trans ?_ (State.raiseEvent_keeps _ _ _ _ _)
    exact k16
  · exact k16

theorem State.finishDeletes_keeps (s : State) (p : Nat) (w0 : List Outst) : Keeps 0x4408069 s (State.finishDeletes s p w0) := by
  induction w0 generalizing s p with
  | nil =>
    unfold State.finishDeletes
    exact Keeps.refl _
  | cons hd0 tl0 ih =>
    unfold State.finishDeletes
    extract_lets +onlyGivenNames x0
    extract_lets +onlyGivenNames x1
    extract_lets +onlyGivenNames x2
    extract_lets +onlyGivenNames x3
    extract_lets +onlyGivenNames x4
    refine Keeps.cut (b := x4) ?_ ?_
    · unfold x4
      refine Keeps.ite ?_ ?_
      · refine Keeps.trans ?_ (State.completeOne_keeps _ _ _ _ _)
        exact Keeps.refl _
      · refine Keeps.ite ?_ ?_
        · refine Keeps.trans ?_ (State.completeOne_keeps _ _ _ _ _)
          refine Keeps.trans ?_ (State.modFn_keeps _ _ _)
          exact Keeps.refl _
        · exact Keeps.refl _
    intro k5
    clear_value x4
    refine Keeps.tr ?_ (ih _ _)
    exact k5

theorem State.descWrite_keeps (s : State) (k : Nat × Nat × Nat) (addr : Nat) (b : List Byte) : Keeps 0x8001 s (State.descWrite s k addr b) := by
  unfold State.descWrite
  split
  · rename_i z0 z1 z2
    refine Keeps.ite ?_ ?_
    · refine Keeps.trans ?_ (State.hostWrite_keeps _ _ _ _)
      exact Keeps.refl _
    · exact Keeps.refl _
  · rename_i z3 z4
    exact Keeps.refl _

theorem State.accept_keeps (s : State) (d : Desc) (op body0 : Nat) : Keeps 0x400020 s (State.accept s d op body0) := by
  unfold State.accept
  extract_lets +onlyGivenNames x0
  refine Keeps.trans ?_ (State.fadd_keeps _ _ _ _)
  refine Keeps.trans ?_ (State.modPart_keeps _ _ _)
  exact Keeps.refl _

theorem State.begin_keeps (s : State) (d : Desc) (op body0 : Nat) : Keeps 0x400020 s (State.begin s d op body0) := by
  unfold State.begin
  extract_lets +onlyGivenNames x0
  refine Keeps.cut (b := x0) ?_ ?_
  · unfold x0
    split
    · rename_i z1 z2 z3
      exact Keeps.refl _
    · rename_i z4 z5
      refine Keeps.trans ?_ (State.accept_keeps _ _ _ _)
      exact Keeps.refl _
  intro k6
  clear_value x0
  refine Keeps.trans ?_ (State.modPart_keeps _ _ _)
  exact k6

theorem State.complete_keeps (s : State) (d : Desc) (status r0 r1 : Nat) : Keeps 0x4408069 s (State.complete s d status r0 r1) := by
  unfold State.complete
  split
  · rename_i z0 z1
    exact Keeps.refl _
  · rename_i z2 z3 z4
    extract_lets +onlyGivenNames x5
    refine Keeps.cut (b := x5) ?_ ?_
    · unfold x5
      refine Keeps.trans ?_ (State.completeOne_keeps _ _ _ _ _)
      exact Keeps.refl _
    intro k6
    clear_value x5
    refine Keeps.trans ?_ (State.finishDeletes_keeps _ _ _)
    exact k6

theorem State.fail_keeps (s : State) (d : Desc) (status : Nat) : Keeps 0x4408069 s (State.fail s d status) := by
  unfold State.fail
  refine Keeps.trans ?_ (State.complete_keeps _ _ _ _ _)
  exact Keeps.refl _

end Sys2Proof.Machine
end

