-- ==== Sys2Proof/Laws/Events.lean ====
section
/-!
SUPPORT. Sys2Proof/Laws/Events.lean: what setting an event bit and moving the clock do to the register fields.
-/
namespace Sys2Proof.Machine
set_option Elab.async false

theorem State.fbit_iff (s : State) (F : Fld) (i : Nat) : s.fbit F i = true ↔ s.fget F i ≠ 0 := by simp [State.fbit]

theorem State.fget_noteEvt (s : State) (off lo : Nat) (G : Fld) (j : Nat) : (s.noteEvt off lo).fget G j = s.fget G j := rfl

theorem State.fget_evtDie_other (s : State) (F G : Fld) (d j : Nat) (h : F.key d ≠ G.key j) :
    (s.evtDie F d).fget G j = s.fget G j := by
  unfold State.evtDie
  split
  · rfl
  · extract_lets t
    have e : t.fget G j = s.fget G j := State.fget_fset_other _ _ _ _ _ _ h
    split <;> exact e

theorem State.fget_evtDie_self (s : State) (F : Fld) (d : Nat) (w : 0 < F.w) : (s.evtDie F d).fget F d ≠ 0 := by
  have : 1 < 2 ^ F.w := Nat.one_lt_two_pow (Nat.pos_iff_ne_zero.1 w)
  unfold State.evtDie
  split
  · rename_i h; exact (s.fbit_iff F d).1 h
  · extract_lets t
    have e : t.fget F d ≠ 0 := by simp [t, State.fget_fset_self, Nat.mod_eq_of_lt this]
    split <;> exact e

theorem State.fget_evtPart_other (s : State) (F G : Fld) (p j : Nat) (h : F.key p ≠ G.key j) :
    (s.evtPart F p).fget G j = s.fget G j := by
  unfold State.evtPart
  split <;> simp [State.fget_fset_other _ _ _ _ _ _ h]

theorem State.fget_evtPart_self (s : State) (F : Fld) (p : Nat) (w : 0 < F.w) : (s.evtPart F p).fget F p ≠ 0 := by
  have : 1 < 2 ^ F.w := Nat.one_lt_two_pow (Nat.pos_iff_ne_zero.1 w)
  unfold State.evtPart
  split
  · rename_i h; exact (s.fbit_iff F p).1 h
  · simp [State.fget_fset_self, Nat.mod_eq_of_lt this]

@[simp] theorem State.fget_modPart (s : State) (p : Nat) (f : Part → Part) (G : Fld) (j : Nat) :
    (s.modPart p f).fget G j = s.fget G j := rfl
@[simp] theorem State.fget_modFn (s : State) (p : Nat) (f : HostFn → HostFn) (G : Fld) (j : Nat) :
    (s.modFn p f).fget G j = s.fget G j := rfl
@[simp] theorem State.fget_emit (s : State) (e : Emit) (G : Fld) (j : Nat) : (s.emit e).fget G j = s.fget G j := rfl

theorem State.foldl_regs (f : State → Nat → State) (h : ∀ u p, (f u p).regs = u.regs) (l : List Nat) (u : State) :
    (l.foldl f u).regs = u.regs := by
  induction l generalizing u with
  | nil => rfl
  | cons p l ih => exact (ih _).trans (h u p)

theorem State.regs_evtPkg (s : State) (F : Fld) : (s.evtPkg F).regs = if s.fbit F 0 then s.regs else (s.fset F 0 1).regs := by
  unfold State.evtPkg
  split
  · rfl
  · extract_lets t note
    have hp (u : State) : u.pf0.regs = u.regs := rfl
    rw [hp]
    generalize List.range 8 = l
    refine State.foldl_regs note (fun u p => ?_) l t
    unfold note
    split <;> rfl

theorem State.fget_evtPkg_other (s : State) (F G : Fld) (j : Nat) (h : F.key 0 ≠ G.key j) :
    (s.evtPkg F).fget G j = s.fget G j := by
  unfold State.fget
  rw [State.regs_evtPkg]
  split
  · rfl
  · exact State.fget_fset_other s F G 0 j 1 h

theorem State.fget_evtPkg_self (s : State) (F : Fld) (w : 0 < F.w) : (s.evtPkg F).fget F 0 ≠ 0 := by
  have hw : 1 < 2 ^ F.w := Nat.one_lt_two_pow (Nat.pos_iff_ne_zero.1 w)
  unfold State.fget
  rw [State.regs_evtPkg]
  split
  · rename_i h; exact (s.fbit_iff F 0).1 h
  · have e := State.fget_fset_self s F 0 1
    unfold State.fget at e
    rw [e, Nat.mod_eq_of_lt hw]
    decide

theorem State.fget_evtFn_other (s : State) (F G : Fld) (f j : Nat) (h : F.key f ≠ G.key j) :
    (s.evtFn F f).fget G j = s.fget G j := by
  unfold State.evtFn
  split
  · rfl
  · simp [State.fget_fset_other _ _ _ _ _ _ h]

theorem State.fget_evtFn_self (s : State) (F : Fld) (f : Nat) (w : 0 < F.w) : (s.evtFn F f).fget F f ≠ 0 := by
  have hw : 1 < 2 ^ F.w := Nat.one_lt_two_pow (Nat.pos_iff_ne_zero.1 w)
  unfold State.evtFn
  split
  · rename_i h; exact (s.fbit_iff F f).1 h
  · simp [State.fget_fset_self, Nat.mod_eq_of_lt hw]

theorem State.fget_evtPtn_other (s : State) (F G : Fld) (p j : Nat) (h : F.key p ≠ G.key j) :
    (s.evtPtn F p).fget G j = s.fget G j := by
  unfold State.evtPtn
  split
  · rfl
  · exact s.fget_evtPart_other F G p j h

theorem State.fget_evtPtn_self (s : State) (F : Fld) (p : Nat) (w : 0 < F.w) : (s.evtPtn F p).fget F p ≠ 0 := by
  unfold State.evtPtn
  split
  · rename_i h; exact (s.fbit_iff F p).1 h
  · exact s.fget_evtPart_self F p w

/-! ### The clock brought forward (R18) -/

theorem State.advanceTo_tNs (s : State) (t : Nat) : (s.advanceTo t).clk.tNs = max s.clk.tNs t := by
  unfold State.advanceTo
  split
  · show t = _
    omega
  · omega

theorem State.fget_advanceTo (s : State) (t : Nat) (G : Fld) (j : Nat) (h : TIK_HOLD_TIME_HELD.key 0 ≠ G.key j) :
    (s.advanceTo t).fget G j = s.fget G j := by
  unfold State.advanceTo
  split
  · show (s.holdCount (t - s.clk.tNs)).fget G j = s.fget G j
    unfold State.holdCount
    split
    · extract_lets h'
      exact (State.fget_fsat_other _ _ _ _ _ _ h).trans rfl
    · rfl
  · rfl

end Sys2Proof.Machine
end

