-- ==== Sys2Proof/Laws/KeepsAccess.lean ====
section
/-!
SUPPORT. Sys2Proof/Laws/KeepsAccess.lean: each operation of Machine/Access.lean keeps what `Keeps` says, with the parts of the state it may
touch.
-/
namespace Sys2Proof.Machine
set_option Elab.async false

theorem State.violation_keeps (s : State) (f : Nat) : Keeps 0x400040 s (State.violation s f) := by
  unfold State.violation
  refine Keeps.trans ?_ (State.evtFn_keeps _ _ _)
  refine Keeps.trans ?_ (State.fadd_keeps _ _ _ _)
  exact Keeps.refl _

theorem regWrite_keeps {m : Nat} (via : Via) (off : Nat) (s : State) (go : State → State) (hgo : ∀ a0, Keeps m a0 (go a0)) (hm : 0x400040 ||| m = m := by first | decide | exact Nat.or_self _ | (rw [Fld.nth_bit]; decide) | (rw [faultsFld_bit]; decide) | (rw [atmLo_bit1]; decide) | (rw [atmLo_bit2]; decide) | exact orSelf _ _ | exact orRight _ (by decide) | exact orRight _ (orSelf _ _) | exact orRight _ (orRight _ (by decide)) | exact orBoth _ (by decide) | exact Fld.bit_top _ | exact Fld.bit_regs _ | exact Fld.bit_top2 _ _ (by decide) | exact orSub (by assumption) (by decide) | (split <;> decide)) : Keeps m s (regWrite via off s go) := by
  unfold regWrite
  split
  · rename_i z0 z1
    refine Keeps.ite ?_ ?_
    · refine Keeps.tr ?_ (hgo _)
      exact Keeps.refl _
    · refine Keeps.trans ?_ (State.violation_keeps _ _)
      exact Keeps.refl _
  · rename_i z2 z3
    refine Keeps.tr ?_ (hgo _)
    exact Keeps.refl _

theorem regRead_keeps {m : Nat} (via : Via) (off : Nat) (s : State) (go : State → Nat × State) (hgo : ∀ a0, KSnd m a0 (go a0)) (hm : 0x400041 ||| m = m := by first | decide | exact Nat.or_self _ | (rw [Fld.nth_bit]; decide) | (rw [faultsFld_bit]; decide) | (rw [atmLo_bit1]; decide) | (rw [atmLo_bit2]; decide) | exact orSelf _ _ | exact orRight _ (by decide) | exact orRight _ (orSelf _ _) | exact orRight _ (orRight _ (by decide)) | exact orBoth _ (by decide) | exact Fld.bit_top _ | exact Fld.bit_regs _ | exact Fld.bit_top2 _ _ (by decide) | exact orSub (by assumption) (by decide) | (split <;> decide)) : Keeps m s (regRead via off s go) := by
  unfold regRead
  extract_lets +onlyGivenNames x0
  split
  · rename_i z1 z2
    refine Keeps.ite ?_ ?_
    · unfold x0
      refine Keeps.trans ?_ (State.emit_keeps _ _)
      refine KSnd.get ?_
      refine KSnd.mk ?_
      refine Keeps.trans ?_ (State.violation_keeps _ _)
      exact Keeps.refl _
    · unfold x0
      refine Keeps.trans ?_ (State.emit_keeps _ _)
      refine KSnd.get ?_
      refine KSnd.tr ?_ (hgo _)
      exact Keeps.refl _
  · rename_i z3 z4
    unfold x0
    refine Keeps.trans ?_ (State.emit_keeps _ _)
    refine KSnd.get ?_
    refine KSnd.tr ?_ (hgo _)
    exact Keeps.refl _

theorem State.portOf_keeps (s : State) (w0 : Via) : KSnd 0x2 s (State.portOf s w0) := by
  unfold State.portOf
  split
  · rename_i z0 z1
    refine KSnd.mk ?_
    exact Keeps.refl _
  · rename_i z2 z3
    refine KSnd.mk ?_
    exact Keeps.refl _
  · rename_i z4
    refine KSnd.trans ?_ (State.sensed_keeps _ _)
    exact Keeps.refl _

theorem State.badAddr_keeps (s : State) (via : Via) (off : Nat) : Keeps 0x100002 s (State.badAddr s via off) := by
  unfold State.badAddr
  split
  · rename_i z0 z1 z2 z3
    refine Keeps.cut (b := z2) ?_ ?_
    · refine KSnd.eq z3 ?_
      refine KSnd.trans ?_ (State.portOf_keeps _ _)
      exact Keeps.refl _
    intro k4
    refine Keeps.trans ?_ (State.fset_keeps _ _ _ _)
    refine Keeps.trans ?_ (State.fset_keeps _ _ _ _)
    exact k4

theorem State.badField_keeps (s : State) (via : Via) (off : Nat) : Keeps 0x100023 s (State.badField s via off) := by
  unfold State.badField
  split
  · rename_i z0 z1
    exact Keeps.refl _
  · rename_i z2 z3
    refine Keeps.trans ?_ (State.badAddr_keeps _ _ _)
    refine Keeps.trans ?_ (State.evtPkg_keeps _ _)
    exact Keeps.refl _

theorem State.unforce_keeps (s : State) (k : Nat) : Keeps 0x4 s (State.unforce s k) :=
  (Keeps.refl s).force _ (trising_tdel _ _)

theorem State.fsetNow_keeps (s : State) (F : Fld) (i v : Nat) : Keeps (F.bit ||| 0x4) s (State.fsetNow s F i v) := by
  unfold State.fsetNow
  refine Keeps.trans ?_ (State.unforce_keeps _ _)
  refine Keeps.trans ?_ (State.fset_keeps _ _ _ _)
  exact Keeps.refl _

theorem State.fsetWhen_keeps (s : State) (F : Fld) (i v : Nat) : Keeps (F.bit ||| 0x4) s (State.fsetWhen s F i v) := by
  unfold State.fsetWhen
  split
  · rename_i z0 z1 z2
    refine Keeps.ite ?_ ?_
    · refine Keeps.trans ?_ (State.fsetLater_keeps _ _ _ _)
      exact Keeps.refl _
    · refine Keeps.trans ?_ (State.fsetNow_keeps _ _ _ _)
      exact Keeps.refl _
  · rename_i z3 z4
    refine Keeps.trans ?_ (State.fsetNow_keeps _ _ _ _)
    exact Keeps.refl _

theorem State.applyWrites_keeps (s : State) (p : Nat) (keep : Nat → Bool) : Keeps 0x4 s (State.applyWrites s p keep) := by
  unfold State.applyWrites
  refine Keeps.trans ?_ (State.applyForce_keeps _ _)
  exact Keeps.refl _

theorem State.applyUnowned_keeps (s : State) : Keeps 0x4 s (State.applyUnowned s) := by
  unfold State.applyUnowned
  refine Keeps.trans ?_ (State.applyForce_keeps _ _)
  exact Keeps.refl _

theorem State.takePeriod_keeps (s : State) (p : Nat) : Keeps 0x20 s (State.takePeriod s p) := by
  unfold State.takePeriod
  refine Keeps.trans ?_ (State.modPart_keeps _ _ _)
  exact Keeps.refl _

end Sys2Proof.Machine
end

