-- ==== Sys2Proof/Laws/KeepsUnitState.lean ====
section
/-!
SUPPORT. Sys2Proof/Laws/KeepsUnitState.lean: each operation of Machine/UnitState.lean keeps what `Keeps` says, with the parts of the state it may
touch.
-/
namespace Sys2Proof.Machine
set_option Elab.async false

theorem State.modRow_keeps (s : State) (k d i : Nat) (f : UnitRow → UnitRow) : Keeps 0x10000 s (State.modRow s k d i f) := by
  unfold State.modRow
  refine Keeps.ras ?_ _
  exact Keeps.refl _

end Sys2Proof.Machine
end

