-- ==== Sys2Proof/Laws/KeepsFlags.lean ====
section
/-!
SUPPORT. Sys2Proof/Laws/KeepsFlags.lean: each operation of Machine/Flags.lean keeps what `Keeps` says, with the parts of the state it may
touch.
-/
namespace Sys2Proof.Machine
set_option Elab.async false

theorem runDesc_keeps {m : Nat} (d : Desc) (op body0 : Nat) (s : State) (go : State → State) (hgo : ∀ a0, Keeps m a0 (go a0)) (hm : 0x4408069 ||| m = m := by first | decide | exact Nat.or_self _ | (rw [Fld.nth_bit]; decide) | (rw [faultsFld_bit]; decide) | (rw [atmLo_bit1]; decide) | (rw [atmLo_bit2]; decide) | exact orSelf _ _ | exact orRight _ (by decide) | exact orRight _ (orSelf _ _) | exact orRight _ (orRight _ (by decide)) | exact orBoth _ (by decide) | exact Fld.bit_top _ | exact Fld.bit_regs _ | exact Fld.bit_top2 _ _ (by decide) | exact orSub (by assumption) (by decide) | (split <;> decide)) : Keeps m s (runDesc d op body0 s go) := by
  unfold runDesc
  refine Keeps.ite ?_ ?_
  · exact Keeps.refl _
  · extract_lets +onlyGivenNames x0
    refine Keeps.cut (b := x0) ?_ ?_
    · unfold x0
      refine Keeps.trans ?_ (State.begin_keeps _ _ _ _)
      exact Keeps.refl _
    intro k1
    clear_value x0
    split
    · rename_i z2 z3 z4
      refine Keeps.trans ?_ (State.fail_keeps _ _ _)
      exact k1
    · rename_i z5 z6
      refine Keeps.tr ?_ (hgo _)
      exact k1

end Sys2Proof.Machine
end

