-- ==== Sys2Proof/Laws/Complete.lean ====
section
/-!
SUPPORT. Sys2Proof/Laws/Complete.lean: what accepting a descriptor and completing it do (R321, R330 to R333).
-/
namespace Sys2Proof.Machine
set_option Elab.async false

/-- The entry of a descriptor that is accepted now. -/
def State.entryOf (s : State) (d : Desc) (op body0 : Nat) : Outst :=
  { fn := d.fn, sq := d.sq, index := d.index, tag := d.tag, op := op, body0 := body0, tick := s.tickNo d.part, order := d.order,
    intr := d.intr, started := true, adopted := false, gen := (s.fn d.fn).gen, accT := s.clk.tNs }

theorem Outst.of_started (o : Outst) (f sq i : Nat) (b : Bool) : ({ o with started := b } : Outst).of f sq i = o.of f sq i := rfl

/-- A descriptor whose command comes and that no fetch accepted is outstanding and STARTED afterwards. -/
theorem State.outst_begin (s : State) (d : Desc) (op body0 : Nat) (h : s.outst? d = none) :
    (s.begin d op body0).outst? d = some (s.entryOf d op body0) := by
  unfold State.begin
  rw [h]
  unfold State.outst? at h
  simp only [State.accept, State.outst?, State.modPart_part_self, State.fadd_part, List.map_append, List.find?_append]
  have h2 : ∀ l : List Outst, l.find? (fun o => o.of d.fn d.sq d.index) = none →
      (l.map (fun o => if o.of d.fn d.sq d.index then { o with started := true } else o)).find? (fun o => o.of d.fn d.sq d.index) = none := by
    intro l hl
    rw [List.find?_eq_none] at hl ⊢
    intro x hx
    obtain ⟨y, hy, rfl⟩ := List.mem_map.1 hx
    have := hl y hy
    simp_all
  rw [h2 _ h]
  simp [Outst.of, State.entryOf]

theorem State.fn_begin (s : State) (d : Desc) (op body0 g : Nat) : (s.begin d op body0).fn g = s.fn g := by
  unfold State.begin
  split <;> rfl

theorem State.fget_begin (s : State) (d : Desc) (op body0 : Nat) (F : Fld) (i : Nat) (h : HRG_OUTSTANDING_COUNT.key d.fn ≠ F.key i) :
    (s.begin d op body0).fget F i = s.fget F i := by
  unfold State.begin
  split
  · rfl
  · show (s.accept d op body0).fget F i = s.fget F i
    exact State.fget_fadd_other _ _ _ _ _ _ h

/-- An entry written to a CQ that exists goes out first among what the write sends after its bytes are counted (R331). -/
theorem State.cqWrite_emits (s : State) (f cq : Nat) (intr : Bool) (mk : Nat → Bool → Emit) (r : Ring)
    (h : (s.fn f).ring? (cqPage cq) = some r) : ∃ l, (s.cqWrite f cq intr mk).out = s.out ++ l ∧ mk r.tail r.phase ∈ l := by
  unfold State.cqWrite
  split
  · rename_i e
    rw [h] at e
    exact absurd e (by simp)
  rename_i r2 e
  obtain rfl : r = r2 := by rw [h] at e; exact Option.some.inj e
  extract_lets r' t
  have ht : t.out = s.out ++ [mk r.tail r.phase] := by
    have e : (s.tlp f 6 32).out = s.out := by
      have k := (State.tlp_keeps s f 6 32).same .out (by decide)
      exact k
    show (s.tlp f 6 32).out ++ [mk r.tail r.phase] = _
    rw [e]
  have hk : ∀ v : State, Keeps 0x41 t v → ∃ l, v.out = s.out ++ l ∧ mk r.tail r.phase ∈ l := by
    intro v k
    obtain ⟨m, hm⟩ := k.sent
    exact ⟨mk r.tail r.phase :: m, by rw [hm, ht]; simp, by simp⟩
  split
  · exact hk _ ((State.cqInterrupt_keeps t f cq).mono)
  · exact hk _ (Keeps.refl t)

/-- Whether the completion of an entry reaches its function: it was accepted in the function's present generation, the rings are
READY and the CQ is ACTIVE (R330, R339). -/
def State.reaches (s : State) (o : Outst) : Prop :=
  o.gen = (s.fn o.fn).gen ∧ s.ready o.fn = true ∧ ((s.fn o.fn).active? (cqPage ((s.fn o.fn).cqOf o.sq))).isSome = true

theorem State.completeOne_emits (s : State) (o : Outst) (status r0 r1 : Nat) (h : s.reaches o) :
    ∃ l slot ph c, (s.completeOne o status r0 r1).out = s.out ++ l ∧
      Emit.completion o.fn ((s.fn o.fn).cqOf o.sq) slot ph c ∈ l ∧ c.status = status ∧ c.result0 = r0 % 2 ^ 32 ∧
      c.result1 = r1 % 2 ^ 32 ∧ c.tag = o.tag ∧ c.sqId = o.sq ∧ c.op = o.op := by
  obtain ⟨hg, hr, ha⟩ := h
  unfold State.completeOne
  extract_lets f p s1 fh s2 cq c live hd s4 sd s3 g
  have e1 : ∀ x, s2.fn x = s.fn x := by
    intro x
    unfold s2
    split <;> rfl
  have o2 : s2.out = s.out := by
    unfold s2
    split <;> rfl
  have r2 : s2.ready f = s.ready f := by
    unfold s2 State.ready State.fbit
    split
    · rw [State.fget_fset_other _ _ _ _ _ _ (by unfold Fld.key; simp [HRG_OUTSTANDING_COUNT, HRG_STATUS_READY, Blk.ix])]
      rfl
    · rfl
  have hf : fh = s.fn f := rfl
  have hl : live = true := by
    unfold live
    rw [r2, hf, hr]
    simp [hg, f, cq, hf, ha]
  have h3 : ∃ l slot ph, s3.out = s.out ++ l ∧ Emit.completion f cq slot ph c ∈ l := by
    unfold s3
    rw [if_pos hl]
    rw [Option.isSome_iff_exists] at ha
    obtain ⟨r, hra⟩ := ha
    have hring : (s2.fn f).ring? (cqPage cq) = some r := by
      rw [e1]
      unfold HostFn.active? at hra
      unfold HostFn.ring?
      split at hra
      · rename_i r' hr'
        split at hra
        · rw [← hra]; exact hr'
        · exact absurd hra (by simp)
      · exact absurd hra (by simp)
    obtain ⟨l, hl1, hl2⟩ := State.cqWrite_emits s2 f cq o.intr (fun slot ph => .completion f cq slot ph c) r hring
    rw [o2] at hl1
    have k : ∃ m, (if s4.owner hd = some p then (s4.pmc hd 25 1 1 none).hist hd 6 0 (s4.clk.tNs - o.accT) else s4).out = s4.out ++ m := by
      split
      · exact ((State.pmc_keeps s4 hd 25 1 1 none).mono (m := 0x4408069) |>.trans (State.hist_keeps _ _ _ _ _)).sent
      · exact ⟨[], by simp⟩
    obtain ⟨m, hm⟩ := k
    exact ⟨l ++ m, r.tail, r.phase, by rw [hm, show s4.out = _ from hl1]; simp, by simp [hl2]⟩
  obtain ⟨l, slot, ph, h4, h5⟩ := h3
  have k : ∃ m, (if o.adopted = true then s3.raiseEvent g evAdopted 0xFF
      (le 4 r0 ++ le 4 r1 ++ le 2 o.tag ++ le 2 o.index ++ le 1 o.sq ++ le 1 status ++ le 1 o.op ++ le 1 (fnPort f)) else s3).out = s3.out ++ m := by
    split
    · exact (State.raiseEvent_keeps _ _ _ _ _).sent
    · exact ⟨[], by simp⟩
  obtain ⟨m, hm⟩ := k
  exact ⟨l ++ m, slot, ph, c, by rw [hm, h4]; simp, List.mem_append_left _ h5, rfl, rfl, rfl, rfl, rfl, rfl⟩

/-- A descriptor whose entry is outstanding and whose function is reached completes with an entry in its CQ (R330). -/
theorem State.complete_emits (s : State) (d : Desc) (o : Outst) (status r0 r1 : Nat) (h : s.outst? d = some o) (hr : s.reaches o) :
    ∃ l slot ph c, (s.complete d status r0 r1).out = s.out ++ l ∧
      Emit.completion o.fn ((s.fn o.fn).cqOf o.sq) slot ph c ∈ l ∧ c.status = status ∧ c.result0 = r0 % 2 ^ 32 ∧
      c.result1 = r1 % 2 ^ 32 ∧ c.tag = o.tag ∧ c.sqId = o.sq ∧ c.op = o.op := by
  unfold State.complete
  split
  · rename_i e
    rw [h] at e
    exact absurd e (by simp)
  rename_i o2 e
  obtain rfl : o = o2 := by rw [h] at e; exact Option.some.inj e
  extract_lets t
  obtain ⟨l, slot, ph, c, h1, h2⟩ := State.completeOne_emits s o status r0 r1 hr
  obtain ⟨m, hm⟩ := (State.finishDeletes_keeps t d.part (t.part d.part).outst).sent
  exact ⟨l ++ m, slot, ph, c, by rw [hm, show t.out = _ from h1]; simp, by simp [h2.1], h2.2⟩

/-! ### Descriptors that reach their own rules -/

/-- A key outside a list differs from every key in it. -/
theorem key_ne_of_notMem {F G : Fld} {i j : Nat} {l : List Nat} (h : G.key j ∉ l) (k : F.key i ∈ l) : F.key i ≠ G.key j := fun e => h (e ▸ k)

theorem gate_open (s : State) (d : Desc) (op b : Nat) (h : Open d s) : (s.begin d op b).gate d op = none := by
  obtain ⟨h1, h2, h3, h4, h5⟩ := h
  unfold State.gate
  have e1 : (s.begin d op b).fbit SEC_STATUS_ERROR 0 = false := by
    unfold State.fbit at h1 ⊢
    rw [State.fget_begin _ _ _ _ _ _ (Fld.key_ne _ _ (by decide))]
    exact h1
  have e2 : (s.begin d op b).ptnState d.part = ptnSealed := by
    unfold State.ptnState at h2 ⊢
    rw [State.fget_begin _ _ _ _ _ _ (Fld.key_ne _ _ (by decide))]
    exact h2
  simp [e1, e2, h3, h4, ptnSealed, ptnRemoving, ptnOrphaned]

theorem runDesc_open (s : State) (d : Desc) (op b : Nat) (go : State → State) (h : Open d s) :
    runDesc d op b s go = go (s.begin d op b) := by
  unfold runDesc
  rw [h.2.2.2.2]
  simp [gate_open s d op b h]

theorem out_begin (s : State) (d : Desc) (op b : Nat) : (s.begin d op b).out = s.out :=
  (State.begin_keeps s d op b).same .out (by decide)

theorem live_begin (s : State) (d : Desc) (op b : Nat) (h : Live d s) : (s.begin d op b).reaches (s.entryOf d op b) := by
  obtain ⟨h1, h2, h3, h4⟩ := h
  refine ⟨?_, ?_, ?_⟩
  · rw [State.fn_begin]; rfl
  · unfold State.ready State.fbit at *
    rw [State.fget_begin _ _ _ _ _ _ (by unfold Fld.key; simp [HRG_OUTSTANDING_COUNT, HRG_STATUS_READY, Blk.ix]; omega)]
    exact h3
  · simp only [State.fn_begin]
    exact h4

/-- Completion of the descriptor in a state that has the begun descriptor's entry, functions and readiness. -/
theorem posts_of (s v : State) (d : Desc) (op b status r0 r1 : Nat) (h : Live d s)
    (h1 : v.parts = (s.begin d op b).parts) (h2 : v.fns = (s.begin d op b).fns) (h3 : ∀ i, v.fget HRG_STATUS_READY i = (s.begin d op b).fget HRG_STATUS_READY i)
    (h4 : ∃ l, v.out = s.out ++ l) : Posts s (v.complete d status r0 r1) d op status r0 r1 := by
  have hp : v.outst? d = some (s.entryOf d op b) := by
    rw [← State.outst_begin s d op b h.2.1]
    unfold State.outst? State.part
    rw [h1]
  have hr : v.reaches (s.entryOf d op b) := by
    obtain ⟨a, b', c⟩ := live_begin s d op b h
    refine ⟨?_, ?_, ?_⟩
    · unfold State.fn at *; rw [h2]; exact a
    · unfold State.ready State.fbit at *; rw [h3]; exact b'
    · unfold State.fn at *; rw [h2]; exact c
  obtain ⟨l, slot, ph, c, e1, e2, e3, e4, e5, e6, e7, e8⟩ := State.complete_emits v d _ status r0 r1 hp hr
  obtain ⟨l0, hl0⟩ := h4
  have hf : (v.fn d.fn).cqOf d.sq = (s.fn d.fn).cqOf d.sq := by
    have : v.fn d.fn = s.fn d.fn := by
      rw [← State.fn_begin s d op b d.fn]; unfold State.fn; rw [h2]
    rw [this]
  refine ⟨slot, ph, c, ⟨l0 ++ l, by rw [e1, hl0]; simp, ?_⟩, e8, e3, e4, e5, e6, e7⟩
  refine List.mem_append_right _ ?_
  have e2' : Emit.completion d.fn ((v.fn d.fn).cqOf d.sq) slot ph c ∈ l := e2
  rw [hf] at e2'
  exact e2'

end Sys2Proof.Machine
end

