-- ==== Sys2Proof/Laws/KeepsPages.lean ====
section
/-!
SUPPORT. Sys2Proof/Laws/KeepsPages.lean: each operation of Machine/Pages.lean keeps what `Keeps` says, with the parts of the state it may
touch.
-/
namespace Sys2Proof.Machine
set_option Elab.async false

theorem State.modCtx_keeps (s : State) (p c : Nat) (f : Ctx → Ctx) : Keeps 0x20 s (State.modCtx s p c f) := by
  unfold State.modCtx
  refine Keeps.trans ?_ (State.modPart_keeps _ _ _)
  exact Keeps.refl _

theorem State.takeSeg_keeps (s : State) (d : Nat) : KSnd 0x102 s (State.takeSeg s d) := by
  unfold State.takeSeg
  extract_lets +onlyGivenNames x0
  extract_lets +onlyGivenNames x1
  refine KSnd.cut (b := x1) ?_ ?_
  · unfold x1
    refine Keeps.freeUp ?_ _ (by omega)
    exact Keeps.refl _
  intro k2
  extract_lets +onlyGivenNames x3
  extract_lets +onlyGivenNames x4
  extract_lets +onlyGivenNames x5
  extract_lets +onlyGivenNames x6
  refine KSnd.mk ?_
  refine Keeps.trans ?_ (State.modPfx_keeps _ _ _)
  exact k2

theorem State.takeSegs_keeps (s : State) (d : Nat) (w0 : Nat) : KSnd 0x102 s (State.takeSegs s d w0) := by
  induction w0 generalizing s d with
  | zero =>
    unfold State.takeSegs
    refine KSnd.mk ?_
    exact Keeps.refl _
  | succ n0 ih =>
    unfold State.takeSegs
    split
    · rename_i z0 z1 z2 z3
      refine KSnd.cut (b := z2) ?_ ?_
      · refine KSnd.eq z3 ?_
        refine KSnd.tr ?_ (ih _ _)
        exact Keeps.refl _
      intro k4
      split
      · rename_i z5 z6 z7 z8
        refine KSnd.cut (b := z7) ?_ ?_
        · refine KSnd.eq z8 ?_
          refine KSnd.trans ?_ (State.takeSeg_keeps _ _)
          exact k4
        intro k9
        refine KSnd.mk ?_
        exact k9

theorem State.nomem_keeps (s : State) (d : Nat) : Keeps 0x80000008 s (State.nomem s d) := by
  unfold State.nomem
  refine Keeps.trans ?_ (State.evtDie_keeps _ _ _)
  exact Keeps.refl _

theorem State.giveSegs_keeps (s : State) (d : Nat) (l : List Nat) : Keeps 0x100 s (State.giveSegs s d l) := by
  unfold State.giveSegs
  extract_lets +onlyGivenNames x0
  refine Keeps.trans ?_ (State.modPfx_keeps _ _ _)
  exact Keeps.refl _

theorem State.modPage_keeps (s : State) (d id : Nat) (f : Page → Page) : Keeps 0x100 s (State.modPage s d id f) := by
  unfold State.modPage
  refine Keeps.trans ?_ (State.modPfx_keeps _ _ _)
  exact Keeps.refl _

theorem State.modChunk_keeps (s : State) (d id : Nat) (f : Chunk → Chunk) : Keeps 0x100 s (State.modChunk s d id f) := by
  unfold State.modChunk
  refine Keeps.trans ?_ (State.modPfx_keeps _ _ _)
  exact Keeps.refl _

theorem State.pickId_keeps (s : State) (used : List Nat) (n : Nat) : KSnd 0x2 s (State.pickId s used n) := by
  unfold State.pickId
  extract_lets +onlyGivenNames x0
  refine KSnd.mk ?_
  refine Keeps.freeUp ?_ _ (by omega)
  exact Keeps.refl _

theorem State.toLimbo_keeps (s : State) (d : Nat) (w : LimboWhat) : Keeps 0x100 s (State.toLimbo s d w) := by
  unfold State.toLimbo
  extract_lets +onlyGivenNames x0
  refine Keeps.trans ?_ (State.modPfx_keeps _ _ _)
  exact Keeps.refl _

theorem State.segsToLimbo_keeps (s : State) (d : Nat) (l : List Nat) : Keeps 0x100 s (State.segsToLimbo s d l) := by
  unfold State.segsToLimbo
  refine Keeps.ite ?_ ?_
  · exact Keeps.refl _
  · refine Keeps.trans ?_ (State.toLimbo_keeps _ _ _)
    exact Keeps.refl _

theorem State.frameToLimbo_keeps (s : State) (d c : Nat) (l : List Nat) : Keeps 0x100 s (State.frameToLimbo s d c l) := by
  unfold State.frameToLimbo
  refine Keeps.ite ?_ ?_
  · exact Keeps.refl _
  · refine Keeps.trans ?_ (State.toLimbo_keeps _ _ _)
    exact Keeps.refl _

theorem State.addRef_keeps (s : State) (d id : Nat) : Keeps 0x100 s (State.addRef s d id) := by
  unfold State.addRef
  refine Keeps.trans ?_ (State.modPage_keeps _ _ _ _)
  exact Keeps.refl _

theorem State.limboPage_keeps (s : State) (d id : Nat) : Keeps 0x40000380 s (State.limboPage s d id) := by
  unfold State.limboPage
  extract_lets +onlyGivenNames x0
  extract_lets +onlyGivenNames x1
  refine Keeps.cut (b := x1) ?_ ?_
  · unfold x1
    refine Keeps.trans ?_ (State.modPage_keeps _ _ _ _)
    exact Keeps.refl _
  intro k2
  clear_value x1
  extract_lets +onlyGivenNames x3
  refine Keeps.cut (b := x3) ?_ ?_
  · unfold x3
    refine Keeps.trans ?_ (State.modPfx_keeps _ _ _)
    exact k2
  intro k4
  clear_value x3
  extract_lets +onlyGivenNames x5
  refine Keeps.cut (b := x5) ?_ ?_
  · unfold x5
    refine Keeps.trans ?_ (State.fsat_keeps _ _ _ _)
    exact k4
  intro k6
  clear_value x5
  extract_lets +onlyGivenNames x7
  refine Keeps.cut (b := x7) ?_ ?_
  · unfold x7
    refine Keeps.trans ?_ (State.modCsm_keeps _ _ _)
    exact k6
  intro k8
  clear_value x7
  extract_lets +onlyGivenNames x9
  refine Keeps.cut (b := x9) ?_ ?_
  · unfold x9
    refine Keeps.trans ?_ (State.fsat_keeps _ _ _ _)
    exact k8
  intro k10
  clear_value x9
  extract_lets +onlyGivenNames x11
  extract_lets +onlyGivenNames x12
  extract_lets +onlyGivenNames x13
  refine Keeps.cut (b := x13) ?_ ?_
  · unfold x13
    refine Keeps.trans ?_ (State.modStg_keeps _ _ _)
    exact k10
  intro k14
  clear_value x13
  refine Keeps.trans ?_ (State.toLimbo_keeps _ _ _)
  refine Keeps.trans ?_ (State.frameToLimbo_keeps _ _ _ _)
  exact k14

theorem State.dropRef_keeps (s : State) (d id : Nat) : Keeps 0x40000380 s (State.dropRef s d id) := by
  unfold State.dropRef
  split
  · rename_i z0 z1
    exact Keeps.refl _
  · rename_i z2 z3 z4
    extract_lets +onlyGivenNames x5
    refine Keeps.cut (b := x5) ?_ ?_
    · unfold x5
      refine Keeps.trans ?_ (State.modPage_keeps _ _ _ _)
      exact Keeps.refl _
    intro k6
    clear_value x5
    refine Keeps.ite ?_ ?_
    · refine Keeps.trans ?_ (State.limboPage_keeps _ _ _)
      exact k6
    · exact k6

theorem State.addRefs_keeps (s : State) (d : Nat) (l : List Nat) : Keeps 0x100 s (State.addRefs s d l) := by
  unfold State.addRefs
  refine Keeps.foldl _ _ (fun s0 y1 => ?_) ?_
  · refine Keeps.trans ?_ (State.addRef_keeps _ _ _)
    exact Keeps.refl _
  · exact Keeps.refl _

theorem State.dropRefs_keeps (s : State) (d : Nat) (l : List Nat) : Keeps 0x40000380 s (State.dropRefs s d l) := by
  unfold State.dropRefs
  refine Keeps.foldl _ _ (fun s0 y1 => ?_) ?_
  · refine Keeps.trans ?_ (State.dropRef_keeps _ _ _)
    exact Keeps.refl _
  · exact Keeps.refl _

theorem State.addHold_keeps (s : State) (d id : Nat) : Keeps 0x100 s (State.addHold s d id) := by
  unfold State.addHold
  split
  · rename_i z0 z1
    exact Keeps.refl _
  · rename_i z2 z3 z4
    refine Keeps.trans ?_ (State.addRefs_keeps _ _ _)
    refine Keeps.trans ?_ (State.modChunk_keeps _ _ _ _)
    exact Keeps.refl _

theorem State.dropHold_keeps (s : State) (d id : Nat) : Keeps 0x40000380 s (State.dropHold s d id) := by
  unfold State.dropHold
  split
  · rename_i z0 z1
    exact Keeps.refl _
  · rename_i z2 z3 z4
    extract_lets +onlyGivenNames x5
    refine Keeps.cut (b := x5) ?_ ?_
    · unfold x5
      refine Keeps.trans ?_ (State.dropRefs_keeps _ _ _)
      refine Keeps.trans ?_ (State.modChunk_keeps _ _ _ _)
      exact Keeps.refl _
    intro k6
    clear_value x5
    refine Keeps.ite ?_ ?_
    · extract_lets +onlyGivenNames x7
      refine Keeps.trans ?_ (State.toLimbo_keeps _ _ _)
      refine Keeps.trans ?_ (State.modChunk_keeps _ _ _ _)
      exact k6
    · exact k6

theorem State.takeList_keeps (s : State) (d : Nat) : KSnd 0x102 s (State.takeList s d) := by
  unfold State.takeList
  split
  · rename_i z0 z1 z2 z3
    refine KSnd.mk ?_
    refine Keeps.trans ?_ (State.modPfx_keeps _ _ _)
    exact Keeps.refl _
  · rename_i z4 z5
    split
    · rename_i z6 z7 z8 z9
      refine KSnd.cut (b := z8) ?_ ?_
      · refine KSnd.eq z9 ?_
        refine KSnd.trans ?_ (State.takeSeg_keeps _ _)
        exact Keeps.refl _
      intro k10
      refine KSnd.mk ?_
      refine Keeps.trans ?_ (State.modPfx_keeps _ _ _)
      exact k10

theorem State.giveList_keeps (s : State) (d a : Nat) : Keeps 0x100 s (State.giveList s d a) := by
  unfold State.giveList
  refine Keeps.ite ?_ ?_
  · exact Keeps.refl _
  · extract_lets +onlyGivenNames x0
    split
    · rename_i z1 z2
      exact Keeps.refl _
    · rename_i z3 z4 z5
      extract_lets +onlyGivenNames x6
      refine Keeps.ite ?_ ?_
      · refine Keeps.trans ?_ (State.segsToLimbo_keeps _ _ _)
        refine Keeps.trans ?_ (State.modPfx_keeps _ _ _)
        exact Keeps.refl _
      · refine Keeps.trans ?_ (State.modPfx_keeps _ _ _)
        exact Keeps.refl _

theorem State.dropFrame_keeps (s : State) (d id : Nat) : Keeps 0x100 s (State.dropFrame s d id) := by
  unfold State.dropFrame
  split
  · rename_i z0 z1
    exact Keeps.refl _
  · rename_i z2 z3 z4
    extract_lets +onlyGivenNames x5
    refine Keeps.cut (b := x5) ?_ ?_
    · unfold x5
      refine Keeps.trans ?_ (State.modPage_keeps _ _ _ _)
      exact Keeps.refl _
    intro k6
    clear_value x5
    refine Keeps.trans ?_ (State.giveList_keeps _ _ _)
    refine Keeps.trans ?_ (State.frameToLimbo_keeps _ _ _ _)
    exact k6

theorem State.newPage_keeps (s : State) (d n : Nat) (pg : Page) : KExc 0x102 (fun r => r.2) s (State.newPage s d n pg) := by
  unfold State.newPage
  refine KExc.ite ?_ ?_
  · trivial
  · refine KExc.ite ?_ ?_
    · trivial
    · split
      · rename_i z0 z1 z2 z3
        refine KExc.cut (b := z2) ?_ ?_
        · refine KSnd.eq z3 ?_
          refine KSnd.trans ?_ (State.pickId_keeps _ _ _)
          exact Keeps.refl _
        intro k4
        split
        · rename_i z5 z6 z7 z8
          refine KExc.cut (b := z7) ?_ ?_
          · refine KSnd.eq z8 ?_
            refine KSnd.ite ?_ ?_
            · refine KSnd.mk ?_
              exact k4
            · refine KSnd.trans ?_ (State.takeList_keeps _ _)
              exact k4
          intro k9
          split
          · rename_i z10 z11 z12 z13
            refine KExc.cut (b := z12) ?_ ?_
            · refine KSnd.eq z13 ?_
              refine KSnd.trans ?_ (State.takeSegs_keeps _ _ _)
              exact k9
            intro k14
            refine KExc.mk ?_
            refine KSnd.get ?_
            refine KSnd.mk ?_
            refine Keeps.trans ?_ (State.modPfx_keeps _ _ _)
            exact k14

theorem State.growPage_keeps (s : State) (d id n : Nat) : KExc 0x102 (fun r => r) s (State.growPage s d id n) := by
  unfold State.growPage
  split
  · rename_i z0 z1
    refine KExc.mk ?_
    exact Keeps.refl _
  · rename_i z2 z3 z4
    refine KExc.ite ?_ ?_
    · refine KExc.mk ?_
      exact Keeps.refl _
    · refine KExc.ite ?_ ?_
      · trivial
      · refine KExc.ite ?_ ?_
        · trivial
        · split
          · rename_i z5 z6 z7 z8
            refine KExc.cut (b := z7) ?_ ?_
            · refine KSnd.eq z8 ?_
              refine KSnd.ite ?_ ?_
              · refine KSnd.trans ?_ (State.takeList_keeps _ _)
                exact Keeps.refl _
              · refine KSnd.mk ?_
                exact Keeps.refl _
            intro k9
            split
            · rename_i z10 z11 z12 z13
              refine KExc.cut (b := z12) ?_ ?_
              · refine KSnd.eq z13 ?_
                refine KSnd.trans ?_ (State.takeSegs_keeps _ _ _)
                exact k9
              intro k14
              refine KExc.mk ?_
              refine Keeps.trans ?_ (State.modPage_keeps _ _ _ _)
              exact k14

theorem State.ctxSegs_keeps (s : State) (d c n : Nat) : KExc 0x102 (fun r => r.2) s (State.ctxSegs s d c n) := by
  unfold State.ctxSegs
  refine KExc.ite ?_ ?_
  · trivial
  · refine KExc.ite ?_ ?_
    · trivial
    · refine KExc.mk ?_
      refine KSnd.get ?_
      refine KSnd.trans ?_ (State.takeSegs_keeps _ _ _)
      exact Keeps.refl _

theorem State.poolSegs_keeps (s : State) (d n : Nat) : KExc 0x102 (fun r => r.2) s (State.poolSegs s d n) := by
  unfold State.poolSegs
  refine KExc.ite ?_ ?_
  · trivial
  · refine KExc.mk ?_
    refine KSnd.get ?_
    refine KSnd.trans ?_ (State.takeSegs_keeps _ _ _)
    exact Keeps.refl _

theorem State.allocStatus_keeps (s : State) (d : Nat) (w0 : AllocFail) : KSnd 0x80000008 s (State.allocStatus s d w0) := by
  unfold State.allocStatus
  split
  · rename_i z0
    refine KSnd.mk ?_
    exact Keeps.refl _
  · rename_i z1
    refine KSnd.mk ?_
    refine Keeps.trans ?_ (State.nomem_keeps _ _)
    exact Keeps.refl _

theorem State.openHolder_keeps (s : State) (d : Nat) : Keeps 0x100 s (State.openHolder s d) := by
  unfold State.openHolder
  refine Keeps.trans ?_ (State.modPfx_keeps _ _ _)
  exact Keeps.refl _

theorem State.closeHolder_keeps (s : State) (d e : Nat) : Keeps 0x100 s (State.closeHolder s d e) := by
  unfold State.closeHolder
  refine Keeps.trans ?_ (State.modPfx_keeps _ _ _)
  exact Keeps.refl _

theorem State.dropStore_keeps (s : State) (d id : Nat) : Keeps 0x80 s (State.dropStore s d id) := by
  unfold State.dropStore
  refine Keeps.trans ?_ (State.modCsm_keeps _ _ _)
  exact Keeps.refl _

theorem State.setSlot_keeps (s : State) (d k : Nat) (e : SeqSlot) : Keeps 0x100 s (State.setSlot s d k e) := by
  unfold State.setSlot
  refine Keeps.trans ?_ (State.modPfx_keeps _ _ _)
  exact Keeps.refl _

theorem State.tombClean_keeps (s : State) (d : Nat) : Keeps 0x100 s (State.tombClean s d) := by
  unfold State.tombClean
  extract_lets +onlyGivenNames x0
  extract_lets +onlyGivenNames x1
  extract_lets +onlyGivenNames x2
  refine Keeps.ite ?_ ?_
  · refine Keeps.trans ?_ (State.modPfx_keeps _ _ _)
    exact Keeps.refl _
  · exact Keeps.refl _

theorem State.treeSearchFor_keeps (s : State) (d h model tick : Nat) (tokens : Option (List Nat)) : KSnd 0x80000108 s (State.treeSearchFor s d h model tick tokens) := by
  unfold State.treeSearchFor
  extract_lets +onlyGivenNames x0
  refine KSnd.cut (b := x0) ?_ ?_
  · unfold x0
    refine Keeps.trans ?_ (State.fadd_keeps _ _ _ _)
    exact Keeps.refl _
  intro k1
  clear_value x0
  split
  · rename_i z2 z3
    refine KSnd.mk ?_
    exact k1
  · rename_i z4 z5 z6 z7
    extract_lets +onlyGivenNames x8
    refine KSnd.ite ?_ ?_
    · refine KSnd.mk ?_
      refine Keeps.trans ?_ (State.evtDie_keeps _ _ _)
      refine Keeps.trans ?_ (State.fadd_keeps _ _ _ _)
      exact k1
    · extract_lets +onlyGivenNames x9
      refine KSnd.cut (b := x9) ?_ ?_
      · unfold x9
        refine Keeps.trans ?_ (State.modPfx_keeps _ _ _)
        exact k1
      intro k10
      clear_value x9
      refine KSnd.mk ?_
      refine Keeps.trans ?_ (State.fadd_keeps _ _ _ _)
      exact k10

theorem State.treeSearch_keeps (s : State) (d h model tick : Nat) (tokens : List Nat) : KSnd 0x80000108 s (State.treeSearch s d h model tick tokens) := by
  unfold State.treeSearch
  refine KSnd.trans ?_ (State.treeSearchFor_keeps _ _ _ _ _ _)
  exact Keeps.refl _

theorem State.trimOvf_keeps (s : State) (d k : Nat) : Keeps 0x100 s (State.trimOvf s d k) := by
  unfold State.trimOvf
  extract_lets +onlyGivenNames x0
  refine Keeps.ite ?_ ?_
  · exact Keeps.refl _
  · extract_lets +onlyGivenNames x1
    split
    · rename_i z2 z3
      exact Keeps.refl _
    · rename_i z4 z5 z6 z7
      refine Keeps.trans ?_ (State.modPfx_keeps _ _ _)
      exact Keeps.refl _

theorem State.evictSlot_keeps (s : State) (d k : Nat) : Keeps 0xC0000380 s (State.evictSlot s d k) := by
  unfold State.evictSlot
  split
  · rename_i z0 z1
    exact Keeps.refl _
  · rename_i z2 z3 z4
    extract_lets +onlyGivenNames x5
    extract_lets +onlyGivenNames x6
    refine Keeps.cut (b := x6) ?_ ?_
    · unfold x6
      refine Keeps.trans ?_ (State.modPfx_keeps _ _ _)
      exact Keeps.refl _
    intro k7
    clear_value x6
    extract_lets +onlyGivenNames x8
    refine Keeps.cut (b := x8) ?_ ?_
    · unfold x8
      refine Keeps.trans ?_ (State.modChunk_keeps _ _ _ _)
      exact k7
    intro k9
    clear_value x8
    extract_lets +onlyGivenNames x10
    refine Keeps.cut (b := x10) ?_ ?_
    · unfold x10
      refine Keeps.trans ?_ (State.modChunk_keeps _ _ _ _)
      exact k9
    intro k11
    clear_value x10
    refine Keeps.trans ?_ (State.trimOvf_keeps _ _ _)
    refine Keeps.trans ?_ (State.fadd_keeps _ _ _ _)
    refine Keeps.trans ?_ (State.dropHold_keeps _ _ _)
    exact k11

theorem State.evictCascade_keeps (s : State) (d k : Nat) : KSnd 0xC0000380 s (State.evictCascade s d k) := by
  unfold State.evictCascade
  extract_lets +onlyGivenNames x0
  refine KSnd.mk ?_
  refine Keeps.foldl _ _ (fun s1 y2 => ?_) ?_
  · refine Keeps.trans ?_ (State.evictSlot_keeps _ _ _)
    exact Keeps.refl _
  · exact Keeps.refl _

theorem State.evictPass_keeps (s : State) (d tick : Nat) (aged : Bool) (w0 : List Nat) : Keeps 0xC0000380 s (State.evictPass s d tick aged w0) := by
  induction w0 generalizing s d tick aged with
  | nil =>
    unfold State.evictPass
    exact Keeps.refl _
  | cons hd0 tl0 ih =>
    unfold State.evictPass
    refine Keeps.ite ?_ ?_
    · exact Keeps.refl _
    · extract_lets +onlyGivenNames x0
      refine Keeps.cut (b := x0) ?_ ?_
      · unfold x0
        split
        · rename_i z1 z2
          exact Keeps.refl _
        · rename_i z3 z4 z5
          extract_lets +onlyGivenNames x6
          extract_lets +onlyGivenNames x7
          refine Keeps.ite ?_ ?_
          · refine Keeps.trans ?_ (State.evictSlot_keeps _ _ _)
            exact Keeps.refl _
          · exact Keeps.refl _
      intro k8
      clear_value x0
      refine Keeps.tr ?_ (ih _ _ _ _)
      refine Keeps.trans ?_ (State.modPfx_keeps _ _ _)
      exact k8

theorem State.autoEvict_keeps (s : State) (d tick : Nat) : Keeps 0xC0000380 s (State.autoEvict s d tick) := by
  unfold State.autoEvict
  extract_lets +onlyGivenNames x0
  refine Keeps.ite ?_ ?_
  · extract_lets +onlyGivenNames x1
    refine Keeps.cut (b := x1) ?_ ?_
    · unfold x1
      refine Keeps.trans ?_ (State.evictPass_keeps _ _ _ _ _)
      exact Keeps.refl _
    intro k2
    clear_value x1
    refine Keeps.ite ?_ ?_
    · exact k2
    · refine Keeps.trans ?_ (State.evictPass_keeps _ _ _ _ _)
      exact k2
  · exact Keeps.refl _

theorem State.freeSlot_keeps (s : State) (d h : Nat) : KOpt 0x102 (fun r => r.2) s (State.freeSlot s d h) := by
  unfold State.freeSlot
  extract_lets +onlyGivenNames x0
  split
  · rename_i z1 z2 z3
    refine KOpt.mk ?_
    exact Keeps.refl _
  · rename_i z4 z5
    extract_lets +onlyGivenNames x6
    extract_lets +onlyGivenNames x7
    refine KOpt.ite ?_ ?_
    · trivial
    · split
      · rename_i z8 z9 z10 z11
        refine KOpt.cut (b := z10) ?_ ?_
        · refine KSnd.eq z11 ?_
          refine KSnd.trans ?_ (State.pickId_keeps _ _ _)
          exact Keeps.refl _
        intro k12
        extract_lets +onlyGivenNames x13
        refine KOpt.mk ?_
        refine KSnd.get ?_
        refine KSnd.mk ?_
        refine Keeps.trans ?_ (State.modPfx_keeps _ _ _)
        exact k12

theorem State.treeSlot_keeps (s : State) (d h : Nat) : KOpt 0x102 (fun r => r.2) s (State.treeSlot s d h) := by
  unfold State.treeSlot
  refine KOpt.ite ?_ ?_
  · refine KOpt.trans ?_ (State.freeSlot_keeps _ _ _)
    exact Keeps.refl _
  · trivial

theorem State.treeInsert_keeps (s : State) (d id tick : Nat) : Keeps 0xC000038A s (State.treeInsert s d id tick) := by
  unfold State.treeInsert
  extract_lets +onlyGivenNames x0
  refine Keeps.cut (b := x0) ?_ ?_
  · unfold x0
    refine Keeps.trans ?_ (State.autoEvict_keeps _ _ _)
    exact Keeps.refl _
  intro k1
  clear_value x0
  split
  · rename_i z2 z3
    exact k1
  · rename_i z4 z5 z6
    refine Keeps.ite ?_ ?_
    · refine Keeps.trans ?_ (State.fadd_keeps _ _ _ _)
      exact k1
    · split
      · rename_i z7 z8
        refine Keeps.trans ?_ (State.evtDie_keeps _ _ _)
        refine Keeps.trans ?_ (State.fadd_keeps _ _ _ _)
        exact k1
      · rename_i z9 z10 z11 z12
        refine Keeps.cut (b := z11) ?_ ?_
        · refine KOpt.eq (g := fun (r : Nat × Sys2Proof.Machine.State) => r.2) (r := (z10, z11)) z12 ?_
          refine KOpt.trans ?_ (State.treeSlot_keeps _ _ _)
          exact k1
        intro k13
        extract_lets +onlyGivenNames x14
        extract_lets +onlyGivenNames x15
        refine Keeps.cut (b := x15) ?_ ?_
        · unfold x15
          refine Keeps.trans ?_ (State.modPfx_keeps _ _ _)
          exact k13
        intro k16
        clear_value x15
        extract_lets +onlyGivenNames x17
        refine Keeps.cut (b := x17) ?_ ?_
        · unfold x17
          refine Keeps.trans ?_ (State.modChunk_keeps _ _ _ _)
          exact k16
        intro k18
        clear_value x17
        extract_lets +onlyGivenNames x19
        refine Keeps.cut (b := x19) ?_ ?_
        · unfold x19
          refine Keeps.trans ?_ (State.modChunk_keeps _ _ _ _)
          exact k18
        intro k20
        clear_value x19
        refine Keeps.trans ?_ (State.fadd_keeps _ _ _ _)
        refine Keeps.trans ?_ (State.addHold_keeps _ _ _)
        exact k20

theorem State.lookupRun_keeps (s : State) (d model tick : Nat) (parent : Nat) (w0 : List (List Nat)) : KSnd 0x80000108 s (State.lookupRun s d model tick parent w0) := by
  induction w0 generalizing s d model tick parent with
  | nil =>
    unfold State.lookupRun
    refine KSnd.mk ?_
    exact Keeps.refl _
  | cons hd0 tl0 ih =>
    unfold State.lookupRun
    extract_lets +onlyGivenNames x0
    split
    · rename_i z1 z2 z3
      refine KSnd.cut (b := z2) ?_ ?_
      · refine KSnd.eq z3 ?_
        refine KSnd.trans ?_ (State.treeSearch_keeps _ _ _ _ _ _)
        exact Keeps.refl _
      intro k4
      refine KSnd.mk ?_
      exact k4
    · rename_i z5 z6 z7 z8
      refine KSnd.cut (b := z7) ?_ ?_
      · refine KSnd.eq z8 ?_
        refine KSnd.trans ?_ (State.treeSearch_keeps _ _ _ _ _ _)
        exact Keeps.refl _
      intro k9
      split
      · rename_i z10 z11 z12 z13
        refine KSnd.cut (b := z12) ?_ ?_
        · refine KSnd.eq z13 ?_
          refine KSnd.tr ?_ (ih _ _ _ _ _)
          exact k9
        intro k14
        refine KSnd.mk ?_
        exact k14

theorem State.tokenMiss_keeps (s : State) (d : Nat) : Keeps 0x80000008 s (State.tokenMiss s d) := by
  unfold State.tokenMiss
  refine Keeps.trans ?_ (State.evtDie_keeps _ _ _)
  refine Keeps.trans ?_ (State.fadd_keeps _ _ _ _)
  exact Keeps.refl _

end Sys2Proof.Machine
end

