-- ==== Sys2Proof/Laws/KeepsFlash.lean ====
section
/-!
SUPPORT. Sys2Proof/Laws/KeepsFlash.lean: each operation of Machine/Flash.lean keeps what `Keeps` says, with the parts of the state it may
touch.
-/
namespace Sys2Proof.Machine
set_option Elab.async false

theorem State.postHealth_keeps (s : State) (d code ch n value : Nat) : Keeps 0x200408049 s (State.postHealth s d code ch n value) := by
  unfold State.postHealth
  refine Keeps.trans ?_ (State.dieEvent_keeps _ _ _ _)
  refine Keeps.trans ?_ (State.evtDie_keeps _ _ _)
  exact Keeps.refl _

theorem State.healthOccur_keeps (s : State) (d code ch : Nat) : Keeps 0x200408449 s (State.healthOccur s d code ch) := by
  unfold State.healthOccur
  extract_lets +onlyGivenNames x0
  extract_lets +onlyGivenNames x1
  refine Keeps.ite ?_ ?_
  · refine Keeps.trans ?_ (State.modFtl_keeps _ _ _)
    exact Keeps.refl _
  · refine Keeps.trans ?_ (State.postHealth_keeps _ _ _ _ _ _)
    refine Keeps.trans ?_ (State.modFtl_keeps _ _ _)
    exact Keeps.refl _

theorem State.healthCross_keeps (s : State) (d code value thresh : Nat) (again : Bool) : Keeps 0x200408449 s (State.healthCross s d code value thresh again) := by
  unfold State.healthCross
  extract_lets +onlyGivenNames x0
  refine Keeps.ite ?_ ?_
  · refine Keeps.trans ?_ (State.postHealth_keeps _ _ _ _ _ _)
    refine Keeps.trans ?_ (State.modFtl_keeps _ _ _)
    exact Keeps.refl _
  · refine Keeps.ite ?_ ?_
    · refine Keeps.trans ?_ (State.modFtl_keeps _ _ _)
      exact Keeps.refl _
    · exact Keeps.refl _

theorem State.wearCheck_keeps (s : State) (d : Nat) : Keeps 0x200408449 s (State.wearCheck s d) := by
  unfold State.wearCheck
  extract_lets +onlyGivenNames x0
  extract_lets +onlyGivenNames x1
  extract_lets +onlyGivenNames x2
  extract_lets +onlyGivenNames x3
  extract_lets +onlyGivenNames x4
  extract_lets +onlyGivenNames x5
  refine Keeps.cut (b := x5) ?_ ?_
  · unfold x5
    refine Keeps.trans ?_ (State.fsat_keeps _ _ _ _)
    refine Keeps.trans ?_ (State.fsat_keeps _ _ _ _)
    refine Keeps.trans ?_ (State.fsat_keeps _ _ _ _)
    exact Keeps.refl _
  intro k6
  clear_value x5
  extract_lets +onlyGivenNames x7
  refine Keeps.cut (b := x7) ?_ ?_
  · unfold x7
    refine Keeps.trans ?_ (State.fsat_keeps _ _ _ _)
    exact k6
  intro k8
  clear_value x7
  extract_lets +onlyGivenNames x9
  extract_lets +onlyGivenNames x10
  refine Keeps.cut (b := x10) ?_ ?_
  · unfold x10
    refine Keeps.trans ?_ (State.healthCross_keeps _ _ _ _ _ _)
    exact k8
  intro k11
  clear_value x10
  extract_lets +onlyGivenNames x12
  refine Keeps.cut (b := x12) ?_ ?_
  · unfold x12
    refine Keeps.trans ?_ (State.healthCross_keeps _ _ _ _ _ _)
    exact k11
  intro k13
  clear_value x12
  extract_lets +onlyGivenNames x14
  refine Keeps.ite ?_ ?_
  · exact k13
  · extract_lets +onlyGivenNames x15
    refine Keeps.cut (b := x15) ?_ ?_
    · unfold x15
      refine Keeps.trans ?_ (State.healthCross_keeps _ _ _ _ _ _)
      exact k13
    intro k16
    clear_value x15
    refine Keeps.trans ?_ (State.healthCross_keeps _ _ _ _ _ _)
    exact k16

theorem State.modBand_keeps (s : State) (d n : Nat) (g : Band → Band) : Keeps 0x400 s (State.modBand s d n g) := by
  unfold State.modBand
  refine Keeps.trans ?_ (State.modFtl_keeps _ _ _)
  exact Keeps.refl _

theorem State.appendRec_keeps (s : State) (d ns : Nat) (w : JWhat) : KSnd 0x400 s (State.appendRec s d ns w) := by
  unfold State.appendRec
  extract_lets +onlyGivenNames x0
  extract_lets +onlyGivenNames x1
  extract_lets +onlyGivenNames x2
  refine KSnd.mk ?_
  refine Keeps.trans ?_ (State.modFtl_keeps _ _ _)
  exact Keeps.refl _

theorem State.openBand_keeps (s : State) (d : Nat) (k : BandKind) (ns : Nat) : KOpt 0x200000400 (fun r => r.2) s (State.openBand s d k ns) := by
  unfold State.openBand
  extract_lets +onlyGivenNames x0
  extract_lets +onlyGivenNames x1
  refine KOpt.ite ?_ ?_
  · trivial
  · extract_lets +onlyGivenNames x2
    split
    · rename_i z3 z4 z5 z6
      refine KOpt.cut (b := z5) ?_ ?_
      · refine KSnd.eq z6 ?_
        refine KSnd.trans ?_ (State.appendRec_keeps _ _ _ _)
        exact Keeps.refl _
      intro k7
      extract_lets +onlyGivenNames x8
      extract_lets +onlyGivenNames x9
      refine KOpt.cut (b := x9) ?_ ?_
      · unfold x9
        refine Keeps.trans ?_ (State.modFtl_keeps _ _ _)
        exact k7
      intro k10
      clear_value x9
      refine KOpt.mk ?_
      refine KSnd.get ?_
      refine KSnd.mk ?_
      refine Keeps.trans ?_ (State.fsat_keeps _ _ _ _)
      refine Keeps.trans ?_ (State.fset_keeps _ _ _ _)
      exact k10

theorem State.closeBand_keeps (s : State) (d n : Nat) : Keeps 0x400 s (State.closeBand s d n) := by
  unfold State.closeBand
  split
  · rename_i z0 z1
    exact Keeps.refl _
  · rename_i z2 z3 z4
    refine Keeps.ite ?_ ?_
    · exact Keeps.refl _
    · refine KSnd.get ?_
      refine KSnd.trans ?_ (State.appendRec_keeps _ _ _ _)
      refine Keeps.trans ?_ (State.modBand_keeps _ _ _ _)
      exact Keeps.refl _

theorem State.rollJournal_keeps (s : State) (d n : Nat) : Keeps 0x200000400 s (State.rollJournal s d n) := by
  unfold State.rollJournal
  split
  · rename_i z0 z1
    exact Keeps.refl _
  · rename_i z2 z3 z4
    extract_lets +onlyGivenNames x5
    refine Keeps.ite ?_ ?_
    · exact Keeps.refl _
    · split
      · rename_i z6 z7 z8 z9
        refine Keeps.cut (b := z8) ?_ ?_
        · refine KOpt.eq (g := fun (r : Nat × Sys2Proof.Machine.State) => r.2) (r := (z7, z8)) z9 ?_
          refine KOpt.trans ?_ (State.openBand_keeps _ _ _ _)
          refine Keeps.trans ?_ (State.closeBand_keeps _ _ _)
          exact Keeps.refl _
        intro k10
        exact k10
      · rename_i z11 z12
        exact Keeps.refl _

theorem State.roCheck_keeps (s : State) (d : Nat) : Keeps 0x200408449 s (State.roCheck s d) := by
  unfold State.roCheck
  extract_lets +onlyGivenNames x0
  extract_lets +onlyGivenNames x1
  extract_lets +onlyGivenNames x2
  extract_lets +onlyGivenNames x3
  refine Keeps.ite ?_ ?_
  · exact Keeps.refl _
  · refine Keeps.ite ?_ ?_
    · refine Keeps.ite ?_ ?_
      · exact Keeps.refl _
      · refine Keeps.trans ?_ (State.healthOccur_keeps _ _ _ _)
        refine Keeps.trans ?_ (State.evtDie_keeps _ _ _)
        refine Keeps.trans ?_ (State.fset_keeps _ _ _ _)
        exact Keeps.refl _
    · refine Keeps.ite ?_ ?_
      · refine Keeps.trans ?_ (State.fset_keeps _ _ _ _)
        exact Keeps.refl _
      · exact Keeps.refl _

theorem State.serve_keeps (s : State) (d : Nat) : Keeps 0x400 s (State.serve s d) := by
  unfold State.serve
  extract_lets +onlyGivenNames x0
  extract_lets +onlyGivenNames x1
  extract_lets +onlyGivenNames x2
  extract_lets +onlyGivenNames x3
  refine Keeps.trans ?_ (State.modFtl_keeps _ _ _)
  exact Keeps.refl _

theorem State.chanTime_keeps (s : State) (d ns : Nat) (hint gc : Bool) : Keeps 0x400 s (State.chanTime s d ns hint gc) := by
  unfold State.chanTime
  refine Keeps.trans ?_ (State.modFtl_keeps _ _ _)
  exact Keeps.refl _

theorem State.placePages_keeps (s : State) (d : Nat) : Keeps 0x200000400 s (State.placePages s d) := by
  unfold State.placePages
  refine Keeps.foldl _ _ (fun s0 y1 => ?_) ?_
  · split
    · rename_i z2 z3
      exact Keeps.refl _
    · rename_i z4 z5 z6 z7
      extract_lets +onlyGivenNames x8
      refine Keeps.trans ?_ (State.rollJournal_keeps _ _ _)
      refine Keeps.trans ?_ (State.modFtl_keeps _ _ _)
      exact Keeps.refl _
  · exact Keeps.refl _

theorem State.issueJournal_keeps (s : State) (d : Nat) : Keeps 0x200000400 s (State.issueJournal s d) := by
  unfold State.issueJournal
  refine Keeps.ite ?_ ?_
  · exact Keeps.refl _
  · extract_lets +onlyGivenNames x0
    refine Keeps.cut (b := x0) ?_ ?_
    · unfold x0
      refine Keeps.ite ?_ ?_
      · split
        · rename_i z1 z2 z3 z4
          refine Keeps.cut (b := z3) ?_ ?_
          · refine KOpt.eq (g := fun (r : Nat × Sys2Proof.Machine.State) => r.2) (r := (z2, z3)) z4 ?_
            refine KOpt.trans ?_ (State.openBand_keeps _ _ _ _)
            exact Keeps.refl _
          intro k5
          exact k5
        · rename_i z6 z7
          exact Keeps.refl _
      · exact Keeps.refl _
    intro k8
    clear_value x0
    extract_lets +onlyGivenNames x9
    refine Keeps.cut (b := x9) ?_ ?_
    · unfold x9
      refine Keeps.trans ?_ (State.placePages_keeps _ _)
      exact k8
    intro k10
    clear_value x9
    split
    · rename_i z11 z12
      exact k10
    · rename_i z13 z14 z15 z16
      extract_lets +onlyGivenNames x17
      refine Keeps.cut (b := x17) ?_ ?_
      · unfold x17
        refine Keeps.trans ?_ (State.modFtl_keeps _ _ _)
        exact k10
      intro k18
      clear_value x17
      refine Keeps.trans ?_ (State.serve_keeps _ _)
      refine Keeps.trans ?_ (State.rollJournal_keeps _ _ _)
      exact k18

theorem State.journal_keeps (s : State) (d ns : Nat) (w : JWhat) : KSnd 0x200000400 s (State.journal s d ns w) := by
  unfold State.journal
  split
  · rename_i z0 z1 z2 z3
    refine KSnd.cut (b := z2) ?_ ?_
    · refine KSnd.eq z3 ?_
      refine KSnd.trans ?_ (State.appendRec_keeps _ _ _ _)
      exact Keeps.refl _
    intro k4
    refine KSnd.mk ?_
    refine Keeps.ite ?_ ?_
    · refine Keeps.trans ?_ (State.issueJournal_keeps _ _)
      exact k4
    · exact k4

theorem State.place_keeps (s : State) (d : Nat) (k : BandKind) (ns n : Nat) : KOpt 0x200000400 (fun r => r.2) s (State.place s d k ns n) := by
  unfold State.place
  extract_lets +onlyGivenNames x0
  extract_lets +onlyGivenNames x1
  split
  · rename_i z2 z3
    unfold x1
    split
    · rename_i z4 z5
      trivial
    · rename_i z6 z7 z8 z9
      refine KOpt.cut (b := z8) ?_ ?_
      · refine KOpt.eq (g := fun (r : Nat × Sys2Proof.Machine.State) => r.2) (r := (z7, z8)) z9 ?_
        refine KOpt.trans ?_ (State.openBand_keeps _ _ _ _)
        exact Keeps.refl _
      intro k10
      split
      · rename_i z11 z12 z13
        unfold x0
        refine KOpt.ite ?_ ?_
        · trivial
        · refine KOpt.mk ?_
          refine KSnd.get ?_
          refine KSnd.mk ?_
          refine Keeps.trans ?_ (State.modBand_keeps _ _ _ _)
          exact k10
      · rename_i z14 z15
        trivial
  · rename_i z16 z17 z18 z19
    refine KOpt.ite ?_ ?_
    · split
      · rename_i z20 z21 z22
        refine KOpt.cut (b := z21.2) ?_ ?_
        · refine KOpt.eq (g := fun (r : Sys2Proof.Machine.FLoc × Sys2Proof.Machine.State) => r.2) (r := z21) z22 ?_
          unfold x0
          refine KOpt.ite ?_ ?_
          · trivial
          · refine KOpt.mk ?_
            refine KSnd.get ?_
            refine KSnd.mk ?_
            refine Keeps.trans ?_ (State.modBand_keeps _ _ _ _)
            exact Keeps.refl _
        intro k23
        refine KOpt.mk ?_
        exact k23
      · rename_i z24 z25
        unfold x1
        split
        · rename_i z26 z27
          trivial
        · rename_i z28 z29 z30 z31
          refine KOpt.cut (b := z30) ?_ ?_
          · refine KOpt.eq (g := fun (r : Nat × Sys2Proof.Machine.State) => r.2) (r := (z29, z30)) z31 ?_
            refine KOpt.trans ?_ (State.openBand_keeps _ _ _ _)
            refine Keeps.trans ?_ (State.closeBand_keeps _ _ _)
            exact Keeps.refl _
          intro k32
          split
          · rename_i z33 z34 z35
            unfold x0
            refine KOpt.ite ?_ ?_
            · trivial
            · refine KOpt.mk ?_
              refine KSnd.get ?_
              refine KSnd.mk ?_
              refine Keeps.trans ?_ (State.modBand_keeps _ _ _ _)
              exact k32
          · rename_i z36 z37
            trivial
    · unfold x1
      split
      · rename_i z38 z39
        trivial
      · rename_i z40 z41 z42 z43
        refine KOpt.cut (b := z42) ?_ ?_
        · refine KOpt.eq (g := fun (r : Nat × Sys2Proof.Machine.State) => r.2) (r := (z41, z42)) z43 ?_
          refine KOpt.trans ?_ (State.openBand_keeps _ _ _ _)
          refine Keeps.trans ?_ (State.closeBand_keeps _ _ _)
          exact Keeps.refl _
        intro k44
        split
        · rename_i z45 z46 z47
          unfold x0
          refine KOpt.ite ?_ ?_
          · trivial
          · refine KOpt.mk ?_
            refine KSnd.get ?_
            refine KSnd.mk ?_
            refine Keeps.trans ?_ (State.modBand_keeps _ _ _ _)
            exact k44
        · rename_i z48 z49
          trivial

theorem State.writeObj_keeps (s : State) (d : Nat) (k : BandKind) (kind obj ns n : Nat) (src : Option FLoc) (data : FData) : KOpt 0x200000400 (fun r => r.2) s (State.writeObj s d k kind obj ns n src data) := by
  unfold State.writeObj
  split
  · rename_i z0 z1
    trivial
  · rename_i z2 z3 z4 z5
    refine KOpt.cut (b := z4) ?_ ?_
    · refine KOpt.eq (g := fun (r : Sys2Proof.Machine.FLoc × Sys2Proof.Machine.State) => r.2) (r := (z3, z4)) z5 ?_
      refine KOpt.ite ?_ ?_
      · trivial
      · refine KOpt.trans ?_ (State.place_keeps _ _ _ _ _)
        exact Keeps.refl _
    intro k6
    extract_lets +onlyGivenNames x7
    extract_lets +onlyGivenNames x8
    refine KOpt.mk ?_
    refine KSnd.get ?_
    refine KSnd.mk ?_
    refine Keeps.trans ?_ (State.serve_keeps _ _)
    refine Keeps.trans ?_ (State.modFtl_keeps _ _ _)
    exact k6

theorem State.dropObj_keeps (s : State) (d : Nat) (loc : FLoc) : Keeps 0x400 s (State.dropObj s d loc) := by
  unfold State.dropObj
  refine Keeps.trans ?_ (State.modFtl_keeps _ _ _)
  exact Keeps.refl _

theorem State.freeObj_keeps (s : State) (d kind obj : Nat) : Keeps 0x200000400 s (State.freeObj s d kind obj) := by
  unfold State.freeObj
  extract_lets +onlyGivenNames x0
  split
  · rename_i z1 z2
    refine Keeps.trans ?_ (State.modFtl_keeps _ _ _)
    exact Keeps.refl _
  · rename_i z3 z4 z5
    extract_lets +onlyGivenNames x6
    refine Keeps.cut (b := x6) ?_ ?_
    · unfold x6
      refine Keeps.ite ?_ ?_
      · exact Keeps.refl _
      · refine KSnd.get ?_
        refine KSnd.trans ?_ (State.journal_keeps _ _ _ _)
        exact Keeps.refl _
    intro k7
    clear_value x6
    refine Keeps.trans ?_ (State.modFtl_keeps _ _ _)
    exact k7

theorem State.freeFlash_keeps (s : State) (d id : Nat) : Keeps 0x200000500 s (State.freeFlash s d id) := by
  unfold State.freeFlash
  refine Keeps.trans ?_ (State.modPage_keeps _ _ _ _)
  refine Keeps.trans ?_ (State.freeObj_keeps _ _ _ _)
  exact Keeps.refl _

theorem State.endTaskWith_keeps (s : State) (d : Nat) (t : DTask) (st : Nat) : Keeps 0x4408469 s (State.endTaskWith s d t st) := by
  unfold State.endTaskWith
  extract_lets +onlyGivenNames x0
  refine Keeps.cut (b := x0) ?_ ?_
  · unfold x0
    refine Keeps.trans ?_ (State.modFtl_keeps _ _ _)
    exact Keeps.refl _
  intro k1
  clear_value x0
  split
  · rename_i z2 z3 z4 z5 z6
    refine Keeps.trans ?_ (State.complete_keeps _ _ _ _ _)
    exact k1
  · rename_i z7 z8
    exact k1

theorem State.runTask_keeps (s : State) (d : Nat) (t : DTask) (w0 : Nat) : Keeps 0x204408469 s (State.runTask s d t w0) := by
  induction w0 generalizing s d t with
  | zero =>
    unfold State.runTask
    exact Keeps.refl _
  | succ n0 ih =>
    unfold State.runTask
    split
    · rename_i z0 z1
      exact Keeps.refl _
    · rename_i z2 z3 z4 z5 z6
      extract_lets +onlyGivenNames x7
      split
      · rename_i z8 z9 z10 z11
        refine Keeps.cut (b := z10) ?_ ?_
        · refine KSnd.eq z11 ?_
          refine KSnd.trans ?_ (State.journal_keeps _ _ _ _)
          exact Keeps.refl _
        intro k12
        extract_lets +onlyGivenNames x13
        refine Keeps.tr ?_ (ih _ _ _)
        refine Keeps.trans ?_ (State.modFtl_keeps _ _ _)
        exact k12
    · rename_i z14 z15 z16 z17 z18
      refine Keeps.ite ?_ ?_
      · extract_lets +onlyGivenNames x19
        refine Keeps.tr ?_ (ih _ _ _)
        refine Keeps.trans ?_ (State.modFtl_keeps _ _ _)
        exact Keeps.refl _
      · refine Keeps.ite ?_ ?_
        · exact Keeps.refl _
        · split
          · rename_i z20 z21
            extract_lets +onlyGivenNames x22
            refine Keeps.tr ?_ (ih _ _ _)
            refine Keeps.trans ?_ (State.modFtl_keeps _ _ _)
            exact Keeps.refl _
          · rename_i z23 z24 z25 z26 z27 z28
            extract_lets +onlyGivenNames x29
            refine Keeps.ite ?_ ?_
            · refine Keeps.trans ?_ (State.endTaskWith_keeps _ _ _ _)
              exact Keeps.refl _
            · split
              · rename_i z30 z31 z32 z33
                refine Keeps.cut (b := z32) ?_ ?_
                · refine KOpt.eq (g := fun (r : Sys2Proof.Machine.FLoc × Sys2Proof.Machine.State) => r.2) (r := (z31, z32)) z33 ?_
                  refine KOpt.trans ?_ (State.writeObj_keeps _ _ _ _ _ _ _ _ _)
                  exact Keeps.refl _
                intro k34
                extract_lets +onlyGivenNames x35
                refine Keeps.trans ?_ (State.modFtl_keeps _ _ _)
                exact k34
              · rename_i z36 z37
                refine Keeps.ite ?_ ?_
                · exact Keeps.refl _
                · refine Keeps.trans ?_ (State.endTaskWith_keeps _ _ _ _)
                  exact Keeps.refl _

theorem State.addTask_keeps (s : State) (d : Nat) (t : DTask) : Keeps 0x204408469 s (State.addTask s d t) := by
  unfold State.addTask
  extract_lets +onlyGivenNames x0
  refine Keeps.trans ?_ (State.runTask_keeps _ _ _ _)
  refine Keeps.trans ?_ (State.modFtl_keeps _ _ _)
  exact Keeps.refl _

theorem State.setClass_keeps (s : State) (d q : Nat) (parked : Bool) : Keeps 0x100 s (State.setClass s d q parked) := by
  unfold State.setClass
  split
  · rename_i z0 z1 z2 z3
    refine Keeps.trans ?_ (State.setSlot_keeps _ _ _ _)
    exact Keeps.refl _
  · rename_i z4 z5
    exact Keeps.refl _

theorem State.sealCheck_keeps (s : State) (p : Nat) : Keeps 0x10000020 s (State.sealCheck s p) := by
  unfold State.sealCheck
  extract_lets +onlyGivenNames x0
  extract_lets +onlyGivenNames x1
  refine Keeps.ite ?_ ?_
  · refine Keeps.trans ?_ (State.fset_keeps _ _ _ _)
    refine Keeps.trans ?_ (State.modPart_keeps _ _ _)
    exact Keeps.refl _
  · exact Keeps.refl _

theorem State.mboxDone_keeps (s : State) (st : Nat) : Keeps 0x800021 s (State.mboxDone s st) := by
  unfold State.mboxDone
  refine Keeps.trans ?_ (State.evtPkg_keeps _ _)
  refine Keeps.trans ?_ (State.fset_keeps _ _ _ _)
  refine Keeps.trans ?_ (State.fset_keeps _ _ _ _)
  refine Keeps.trans ?_ (State.fset_keeps _ _ _ _)
  exact Keeps.refl _

theorem State.zeroized_keeps (s : State) : Keeps 0x800021 s (State.zeroized s) := by
  unfold State.zeroized
  refine Keeps.trans ?_ (State.mboxDone_keeps _ _)
  refine Keeps.trans ?_ (State.evtPkg_keeps _ _)
  exact Keeps.refl _

theorem State.settleRemoval_keeps (s : State) (p : Nat) : Keeps 0x804021 s (State.settleRemoval s p) := by
  unfold State.settleRemoval
  split
  · rename_i z0 z1
    exact Keeps.refl _
  · rename_i z2 z3 z4
    refine Keeps.ite ?_ ?_
    · extract_lets +onlyGivenNames x5
      extract_lets +onlyGivenNames x6
      refine Keeps.cut (b := x6) ?_ ?_
      · unfold x6
        refine Keeps.sec ?_ _
        exact Keeps.refl _
      intro k7
      clear_value x6
      refine Keeps.trans ?_ (State.evtPkg_keeps _ _)
      refine Keeps.trans ?_ (State.fputAt_keeps _ _ _ _ _)
      exact k7
    · exact Keeps.refl _

theorem State.record_keeps (s : State) : Keeps 0x4000 s (State.record s) := by
  unfold State.record
  split
  · rename_i z0 z1
    refine Keeps.sec ?_ _
    exact Keeps.refl _
  · rename_i z2 z3 z4 z5
    refine Keeps.ite ?_ ?_
    · exact Keeps.refl _
    · refine Keeps.sec ?_ _
      exact Keeps.refl _

theorem State.recall_keeps (s : State) : Keeps 0x4000 s (State.recall s) := by
  unfold State.recall
  split
  · rename_i z0 z1
    exact Keeps.refl _
  · rename_i z2 z3 z4 z5
    refine Keeps.sec ?_ _
    exact Keeps.refl _

theorem State.modRemovals_keeps (s : State) (f : Removal → Removal) : Keeps 0x804021 s (State.modRemovals s f) := by
  unfold State.modRemovals
  extract_lets +onlyGivenNames x0
  extract_lets +onlyGivenNames x1
  refine Keeps.cut (b := x1) ?_ ?_
  · unfold x1
    refine Keeps.sec ?_ _
    exact Keeps.refl _
  intro k2
  clear_value x1
  refine Keeps.trans ?_ (State.record_keeps _)
  refine Keeps.foldl _ _ (fun s3 y4 => ?_) ?_
  · refine Keeps.trans ?_ (State.settleRemoval_keeps _ _)
    exact Keeps.refl _
  · exact k2

theorem State.physErased_keeps (s : State) (d : Nat) : Keeps 0x804021 s (State.physErased s d) := by
  unfold State.physErased
  refine Keeps.trans ?_ (State.modRemovals_keeps _ _)
  exact Keeps.refl _

theorem State.metaErased_keeps (s : State) (d band : Nat) : Keeps 0x804021 s (State.metaErased s d band) := by
  unfold State.metaErased
  extract_lets +onlyGivenNames x0
  refine Keeps.cut (b := x0) ?_ ?_
  · unfold x0
    refine Keeps.trans ?_ (State.modRemovals_keeps _ _)
    exact Keeps.refl _
  intro k1
  clear_value x0
  refine Keeps.ite ?_ ?_
  · exact k1
  · extract_lets +onlyGivenNames x2
    extract_lets +onlyGivenNames x3
    extract_lets +onlyGivenNames x4
    refine Keeps.cut (b := x4) ?_ ?_
    · unfold x4
      refine Keeps.sec ?_ _
      exact k1
    intro k5
    clear_value x4
    refine Keeps.ite ?_ ?_
    · refine Keeps.trans ?_ (State.zeroized_keeps _)
      exact k5
    · exact k5

theorem State.modCopies_keeps (s : State) (d : Nat) (loc : FLoc) (g : FObj → FObj) : Keeps 0x400 s (State.modCopies s d loc g) := by
  unfold State.modCopies
  refine Keeps.trans ?_ (State.modFtl_keeps _ _ _)
  exact Keeps.refl _

theorem State.applyDurable_keeps (s : State) (d : Nat) (r : JRec) : Keeps 0x110000520 s (State.applyDurable s d r) := by
  unfold State.applyDurable
  extract_lets +onlyGivenNames x0
  refine Keeps.cut (b := x0) ?_ ?_
  · unfold x0
    refine Keeps.trans ?_ (State.modFtl_keeps _ _ _)
    exact Keeps.refl _
  intro k1
  clear_value x0
  extract_lets +onlyGivenNames x2
  extract_lets +onlyGivenNames x3
  refine Keeps.cut (b := x3) ?_ ?_
  · unfold x3
    split
    · rename_i z4 z5 z6
      refine Keeps.trans ?_ (State.modFtl_keeps _ _ _)
      exact k1
    · rename_i z7 z8
      exact k1
  intro k9
  clear_value x3
  split
  · rename_i z10 z11 z12 z13 z14
    refine Keeps.trans ?_ (State.modPage_keeps _ _ _ _)
    unfold x2
    refine Keeps.trans ?_ (State.modCopies_keeps _ _ _ _)
    exact k9
  · rename_i z15 z16 z17 z18 z19
    refine Keeps.trans ?_ (State.modChunk_keeps _ _ _ _)
    unfold x2
    refine Keeps.trans ?_ (State.modCopies_keeps _ _ _ _)
    exact k9
  · rename_i z20 z21 z22 z23 z24 z25 z26
    unfold x2
    refine Keeps.trans ?_ (State.modCopies_keeps _ _ _ _)
    exact k9
  · rename_i z27 z28 z29 z30 z31 z32
    refine Keeps.ite ?_ ?_
    · exact k9
    · extract_lets +onlyGivenNames x33
      extract_lets +onlyGivenNames x34
      refine Keeps.cut (b := x34) ?_ ?_
      · unfold x34
        refine Keeps.trans ?_ (State.setClass_keeps _ _ _ _)
        exact k9
      intro k35
      clear_value x34
      refine Keeps.ite ?_ ?_
      · refine Keeps.trans ?_ (State.fadd_keeps _ _ _ _)
        exact k35
      · exact k35
  · rename_i z36 z37 z38 z39 z40 z41
    extract_lets +onlyGivenNames x42
    refine Keeps.cut (b := x42) ?_ ?_
    · unfold x42
      refine Keeps.trans ?_ (State.modFtl_keeps _ _ _)
      exact k9
    intro k43
    clear_value x42
    extract_lets +onlyGivenNames x44
    refine Keeps.cut (b := x44) ?_ ?_
    · unfold x44
      refine Keeps.trans ?_ (State.modCopies_keeps _ _ _ _)
      exact k43
    intro k45
    clear_value x44
    refine Keeps.ite ?_ ?_
    · refine Keeps.trans ?_ (State.modPage_keeps _ _ _ _)
      exact k45
    · exact k45
  · rename_i z46 z47 z48 z49 z50
    refine Keeps.ite ?_ ?_
    · refine Keeps.trans ?_ (State.modFtl_keeps _ _ _)
      exact k9
    · exact k9
  · rename_i z51 z52 z53 z54 z55
    split
    · rename_i z56 z57 z58
      refine Keeps.trans ?_ (State.sealCheck_keeps _ _)
      exact k9
    · rename_i z59 z60
      exact k9
  · rename_i z61 z62 z63 z64 z65 z66 z67 z68
    exact k9

theorem State.finishTasks_keeps (s : State) (d : Nat) (w0 : List DTask) : Keeps 0x4408469 s (State.finishTasks s d w0) := by
  induction w0 generalizing s d with
  | nil =>
    unfold State.finishTasks
    exact Keeps.refl _
  | cons hd0 tl0 ih =>
    unfold State.finishTasks
    extract_lets +onlyGivenNames x0
    refine Keeps.cut (b := x0) ?_ ?_
    · unfold x0
      refine Keeps.trans ?_ (State.modFtl_keeps _ _ _)
      exact Keeps.refl _
    intro k1
    clear_value x0
    extract_lets +onlyGivenNames x2
    refine Keeps.cut (b := x2) ?_ ?_
    · unfold x2
      refine Keeps.ite ?_ ?_
      · split
        · rename_i z3 z4 z5 z6 z7
          refine Keeps.trans ?_ (State.complete_keeps _ _ _ _ _)
          exact k1
        · rename_i z8 z9
          exact k1
      · exact Keeps.refl _
    intro k10
    clear_value x2
    refine Keeps.tr ?_ (ih _ _)
    exact k10

theorem State.jAdvance_keeps (s : State) (d : Nat) (w0 : Nat) : Keeps 0x110000520 s (State.jAdvance s d w0) := by
  induction w0 generalizing s d with
  | zero =>
    unfold State.jAdvance
    exact Keeps.refl _
  | succ n0 ih =>
    unfold State.jAdvance
    split
    · rename_i z0 z1
      exact Keeps.refl _
    · rename_i z2 z3 z4 z5
      refine Keeps.ite ?_ ?_
      · extract_lets +onlyGivenNames x6
        extract_lets +onlyGivenNames x7
        refine Keeps.cut (b := x7) ?_ ?_
        · unfold x7
          refine Keeps.trans ?_ (State.modFtl_keeps _ _ _)
          exact Keeps.refl _
        intro k8
        clear_value x7
        refine Keeps.tr ?_ (ih _ _)
        refine Keeps.foldl _ _ (fun s9 y10 => ?_) ?_
        · refine Keeps.trans ?_ (State.applyDurable_keeps _ _ _)
          exact Keeps.refl _
        · exact k8
      · exact Keeps.refl _

theorem State.install_keeps (s : State) (d : Nat) (o : FObj) (spill : Bool) : Keeps 0x500 s (State.install s d o spill) := by
  unfold State.install
  extract_lets +onlyGivenNames x0
  extract_lets +onlyGivenNames x1
  refine Keeps.cut (b := x1) ?_ ?_
  · unfold x1
    refine Keeps.trans ?_ (State.modFtl_keeps _ _ _)
    exact Keeps.refl _
  intro k2
  clear_value x1
  refine Keeps.ite ?_ ?_
  · refine Keeps.trans ?_ (State.modPage_keeps _ _ _ _)
    exact k2
  · refine Keeps.ite ?_ ?_
    · exact k2
    · exact k2

theorem State.releaseFrame_keeps (s : State) (d id : Nat) : Keeps 0x100000100 s (State.releaseFrame s d id) := by
  unfold State.releaseFrame
  split
  · rename_i z0 z1
    exact Keeps.refl _
  · rename_i z2 z3 z4
    refine Keeps.ite ?_ ?_
    · refine Keeps.trans ?_ (State.fadd_keeps _ _ _ _)
      refine Keeps.trans ?_ (State.dropFrame_keeps _ _ _)
      exact Keeps.refl _
    · exact Keeps.refl _

theorem State.objPassed_keeps (s : State) (d : Nat) (o : FObj) : Keeps 0x304408569 s (State.objPassed s d o) := by
  unfold State.objPassed
  split
  · rename_i z0 z1 z2
    refine Keeps.trans ?_ (State.modFtl_keeps _ _ _)
    exact Keeps.refl _
  · rename_i z3 z4
    extract_lets +onlyGivenNames x5
    extract_lets +onlyGivenNames x6
    refine Keeps.cut (b := x6) ?_ ?_
    · unfold x6
      refine Keeps.trans ?_ (State.modFtl_keeps _ _ _)
      exact Keeps.refl _
    intro k7
    clear_value x6
    extract_lets +onlyGivenNames x8
    refine Keeps.cut (b := x8) ?_ ?_
    · unfold x8
      refine Keeps.trans ?_ (State.install_keeps _ _ _ _)
      exact k7
    intro k9
    clear_value x8
    refine Keeps.ite ?_ ?_
    · split
      · rename_i z10 z11 z12
        refine Keeps.ite ?_ ?_
        · refine Keeps.trans ?_ (State.fadd_keeps _ _ _ _)
          refine Keeps.trans ?_ (State.releaseFrame_keeps _ _ _)
          exact k9
        · exact k9
      · rename_i z13 z14
        exact k9
    · split
      · rename_i z15 z16
        exact k9
      · rename_i z17 z18 z19
        split
        · rename_i z20 z21 z22 z23
          refine Keeps.cut (b := z22) ?_ ?_
          · refine KSnd.eq z23 ?_
            refine KSnd.trans ?_ (State.journal_keeps _ _ _ _)
            exact k9
          intro k24
          extract_lets +onlyGivenNames x25
          refine Keeps.cut (b := x25) ?_ ?_
          · unfold x25
            refine Keeps.trans ?_ (State.modFtl_keeps _ _ _)
            exact k24
          intro k26
          clear_value x25
          split
          · rename_i z27 z28 z29
            extract_lets +onlyGivenNames x30
            refine Keeps.trans ?_ (State.runTask_keeps _ _ _ _)
            refine Keeps.trans ?_ (State.modFtl_keeps _ _ _)
            exact k26
          · rename_i z31 z32
            exact k26

theorem State.resumeTasks_keeps (s : State) (d : Nat) : Keeps 0x204408469 s (State.resumeTasks s d) := by
  unfold State.resumeTasks
  refine Keeps.foldl _ _ (fun s0 y1 => ?_) ?_
  · split
    · rename_i z2 z3
      exact Keeps.refl _
    · rename_i z4 z5 z6 z7
      refine Keeps.ite ?_ ?_
      · exact Keeps.refl _
      · refine Keeps.trans ?_ (State.runTask_keeps _ _ _ _)
        exact Keeps.refl _
  · exact Keeps.refl _

theorem State.bringUp_keeps (s : State) (d : Nat) : Keeps 0x200000408 s (State.bringUp s d) := by
  unfold State.bringUp
  extract_lets +onlyGivenNames x0
  extract_lets +onlyGivenNames x1
  refine Keeps.cut (b := x1) ?_ ?_
  · unfold x1
    split
    · rename_i z2 z3
      exact Keeps.refl _
    · rename_i z4 z5 z6
      extract_lets +onlyGivenNames x7
      refine Keeps.cut (b := x7) ?_ ?_
      · unfold x7
        refine Keeps.trans ?_ (State.fset_keeps _ _ _ _)
        refine Keeps.trans ?_ (State.fset_keeps _ _ _ _)
        refine Keeps.trans ?_ (State.fset_keeps _ _ _ _)
        exact Keeps.refl _
      intro k8
      clear_value x7
      extract_lets +onlyGivenNames x9
      refine Keeps.cut (b := x9) ?_ ?_
      · unfold x9
        refine Keeps.trans ?_ (State.fset_keeps _ _ _ _)
        refine Keeps.trans ?_ (State.fset_keeps _ _ _ _)
        refine Keeps.trans ?_ (State.fset_keeps _ _ _ _)
        exact k8
      intro k10
      clear_value x9
      refine Keeps.trans ?_ (State.fset_keeps _ _ _ _)
      refine Keeps.trans ?_ (State.fset_keeps _ _ _ _)
      refine Keeps.trans ?_ (State.fset_keeps _ _ _ _)
      exact k10
  intro k11
  clear_value x1
  extract_lets +onlyGivenNames x12
  refine Keeps.cut (b := x12) ?_ ?_
  · unfold x12
    refine Keeps.trans ?_ (State.modFtl_keeps _ _ _)
    exact k11
  intro k13
  clear_value x12
  refine Keeps.ite ?_ ?_
  · refine Keeps.trans ?_ (State.fset_keeps _ _ _ _)
    exact k13
  · refine Keeps.trans ?_ (State.evtDie_keeps _ _ _)
    refine Keeps.trans ?_ (State.fset_keeps _ _ _ _)
    exact k13

end Sys2Proof.Machine
end

