-- ==== Sys2Proof/Laws/KeepsLink.lean ====
section
/-!
SUPPORT. Sys2Proof/Laws/KeepsLink.lean: each operation of Machine/Link.lean keeps what `Keeps` says, with the parts of the state it may
touch.
-/
namespace Sys2Proof.Machine
set_option Elab.async false

theorem State.linkState_keeps (s : State) (d : Nat) (up : Bool) : Keeps 0x408041 s (State.linkState s d up) := by
  unfold State.linkState
  refine Keeps.trans ?_ (State.dieEvent_keeps _ _ _ _)
  exact Keeps.refl _

theorem State.refreshPort_keeps (s : State) (d : Nat) : Keeps 0xC00408049 s (State.refreshPort s d) := by
  unfold State.refreshPort
  extract_lets +onlyGivenNames x0
  extract_lets +onlyGivenNames x1
  extract_lets +onlyGivenNames x2
  refine Keeps.cut (b := x2) ?_ ?_
  · unfold x2
    refine Keeps.trans ?_ (State.fput_keeps _ _ _ _)
    exact Keeps.refl _
  intro k3
  clear_value x2
  extract_lets +onlyGivenNames x4
  refine Keeps.cut (b := x4) ?_ ?_
  · unfold x4
    refine Keeps.ite ?_ ?_
    · refine Keeps.trans ?_ (State.evtDie_keeps _ _ _)
      exact k3
    · exact k3
  intro k5
  clear_value x4
  extract_lets +onlyGivenNames x6
  refine Keeps.ite ?_ ?_
  · exact k5
  · refine Keeps.trans ?_ (State.linkState_keeps _ _ _)
    refine Keeps.trans ?_ (State.fput_keeps _ _ _ _)
    exact k5

theorem State.accrueAll_keeps (s : State) (d : Nat) : Keeps 0x2000 s (State.accrueAll s d) := by
  unfold State.accrueAll
  extract_lets +onlyGivenNames x0
  extract_lets +onlyGivenNames x1
  refine Keeps.trans ?_ (State.modLnk_keeps _ _ _)
  exact Keeps.refl _

theorem State.enqueue_keeps (s : State) (d : Nat) (k : FKind) (v4 : Bool) (addr : Nat) (p : Packet) : Keeps 0x2000 s (State.enqueue s d k v4 addr p) := by
  unfold State.enqueue
  extract_lets +onlyGivenNames x0
  extract_lets +onlyGivenNames x1
  refine Keeps.cut (b := x1) ?_ ?_
  · unfold x1
    refine Keeps.trans ?_ (State.accrueAll_keeps _ _)
    exact Keeps.refl _
  intro k2
  clear_value x1
  extract_lets +onlyGivenNames x3
  refine Keeps.trans ?_ (State.modLnk_keeps _ _ _)
  exact k2

theorem State.pickClass_keeps (s : State) (d : Nat) (w0 : Nat) : KSnd 0x800002000 s (State.pickClass s d w0) := by
  induction w0 generalizing s d with
  | zero =>
    unfold State.pickClass
    refine KSnd.mk ?_
    exact Keeps.refl _
  | succ n0 ih =>
    unfold State.pickClass
    extract_lets +onlyGivenNames x0
    split
    · rename_i z1 z2
      refine KSnd.tr ?_ (ih _ _)
      exact Keeps.refl _
    · rename_i z3 z4 z5 z6
      refine KSnd.ite ?_ ?_
      · refine KSnd.tr ?_ (ih _ _)
        exact Keeps.refl _
      · refine KSnd.ite ?_ ?_
        · refine KSnd.mk ?_
          exact Keeps.refl _
        · refine KSnd.ite ?_ ?_
          · refine KSnd.tr ?_ (ih _ _)
            exact Keeps.refl _
          · extract_lets +onlyGivenNames x7
            refine KSnd.cut (b := x7) ?_ ?_
            · unfold x7
              refine Keeps.trans ?_ (State.modLnk_keeps _ _ _)
              exact Keeps.refl _
            intro k8
            clear_value x7
            refine KSnd.tr ?_ (ih _ _)
            refine Keeps.trans ?_ (State.fadd_keeps _ _ _ _)
            exact k8

theorem State.usePn_keeps (s : State) (d : Nat) : Keeps 0x800002008 s (State.usePn s d) := by
  unfold State.usePn
  extract_lets +onlyGivenNames x0
  refine Keeps.cut (b := x0) ?_ ?_
  · unfold x0
    refine Keeps.trans ?_ (State.modLnk_keeps _ _ _)
    exact Keeps.refl _
  intro k1
  clear_value x0
  refine Keeps.ite ?_ ?_
  · refine Keeps.trans ?_ (State.evtDie_keeps _ _ _)
    refine Keeps.trans ?_ (State.fset_keeps _ _ _ _)
    exact k1
  · exact k1

theorem State.noteLatency_keeps (s : State) (d c dt : Nat) : Keeps 0x800000008 s (State.noteLatency s d c dt) := by
  unfold State.noteLatency
  extract_lets +onlyGivenNames x0
  refine Keeps.cut (b := x0) ?_ ?_
  · unfold x0
    refine Keeps.trans ?_ (State.fmax_keeps _ _ _ _)
    exact Keeps.refl _
  intro k1
  clear_value x0
  extract_lets +onlyGivenNames x2
  refine Keeps.ite ?_ ?_
  · refine Keeps.trans ?_ (State.evtDie_keeps _ _ _)
    refine Keeps.trans ?_ (State.fadd_keeps _ _ _ _)
    exact k1
  · exact k1

theorem State.countSent_keeps (s : State) (d c : Nat) (f : QFrame) : Keeps 0x4008008 s (State.countSent s d c f) := by
  unfold State.countSent
  extract_lets +onlyGivenNames x0
  refine Keeps.cut (b := x0) ?_ ?_
  · unfold x0
    refine Keeps.trans ?_ (State.hist_keeps _ _ _ _ _)
    refine Keeps.trans ?_ (State.bw_keeps _ _ _ _)
    exact Keeps.refl _
  intro k1
  clear_value x0
  split
  · rename_i z2 z3 z4 z5
    extract_lets +onlyGivenNames x6
    refine Keeps.cut (b := x6) ?_ ?_
    · unfold x6
      refine Keeps.ite ?_ ?_
      · refine Keeps.trans ?_ (State.pmc_keeps _ _ _ _ _ _)
        exact k1
      · exact k1
    intro k7
    clear_value x6
    refine Keeps.ite ?_ ?_
    · refine Keeps.trans ?_ (State.pmc_keeps _ _ _ _ _ _)
      exact k7
    · exact k7

theorem State.sendFrame_keeps (s : State) (d c : Nat) (f : QFrame) : Keeps 0x80400A009 s (State.sendFrame s d c f) := by
  unfold State.sendFrame
  extract_lets +onlyGivenNames x0
  extract_lets +onlyGivenNames x1
  extract_lets +onlyGivenNames x2
  extract_lets +onlyGivenNames x3
  extract_lets +onlyGivenNames x4
  extract_lets +onlyGivenNames x5
  extract_lets +onlyGivenNames x6
  extract_lets +onlyGivenNames x7
  extract_lets +onlyGivenNames x8
  refine Keeps.cut (b := x8) ?_ ?_
  · unfold x8
    refine Keeps.trans ?_ (State.modLnk_keeps _ _ _)
    exact Keeps.refl _
  intro k9
  clear_value x8
  extract_lets +onlyGivenNames x10
  refine Keeps.cut (b := x10) ?_ ?_
  · unfold x10
    refine Keeps.trans ?_ (State.countSent_keeps _ _ _ _)
    refine Keeps.trans ?_ (State.noteLatency_keeps _ _ _ _)
    exact k9
  intro k11
  clear_value x10
  extract_lets +onlyGivenNames x12
  extract_lets +onlyGivenNames x13
  extract_lets +onlyGivenNames x14
  refine Keeps.cut (b := x14) ?_ ?_
  · unfold x14
    refine Keeps.trans ?_ (State.emit_keeps _ _)
    exact k11
  intro k15
  clear_value x14
  refine Keeps.ite ?_ ?_
  · refine Keeps.trans ?_ (State.usePn_keeps _ _)
    exact k15
  · exact k15

theorem State.police_keeps (s : State) (d key cost : Nat) : KSnd2 0x800002008 s (State.police s d key cost) := by
  unfold State.police
  refine KSnd2.ite ?_ ?_
  · refine KSnd2.mk ?_
    exact Keeps.refl _
  · split
    · rename_i z0 z1
      refine KSnd2.mk ?_
      exact Keeps.refl _
    · rename_i z2 z3 z4 z5
      extract_lets +onlyGivenNames x6
      extract_lets +onlyGivenNames x7
      extract_lets +onlyGivenNames x8
      refine KSnd2.ite ?_ ?_
      · refine KSnd2.mk ?_
        refine Keeps.trans ?_ (State.evtDie_keeps _ _ _)
        refine Keeps.trans ?_ (State.fadd_keeps _ _ _ _)
        unfold x8
        refine Keeps.trans ?_ (State.modLnk_keeps _ _ _)
        exact Keeps.refl _
      · extract_lets +onlyGivenNames x9
        extract_lets +onlyGivenNames x10
        extract_lets +onlyGivenNames x11
        refine KSnd2.cut (b := x11) ?_ ?_
        · unfold x11
          unfold x8
          refine Keeps.trans ?_ (State.modLnk_keeps _ _ _)
          exact Keeps.refl _
        intro k12
        clear_value x11
        refine KSnd2.mk ?_
        refine Keeps.ite ?_ ?_
        · refine Keeps.trans ?_ (State.fadd_keeps _ _ _ _)
          exact k12
        · exact k12

end Sys2Proof.Machine
end

