-- ==== Sys2Proof/Laws/KeepsNrtSend.lean ====
section
/-!
SUPPORT. Sys2Proof/Laws/KeepsNrtSend.lean: each operation of Machine/NrtSend.lean keeps what `Keeps` says, with the parts of the state it may
touch.
-/
namespace Sys2Proof.Machine
set_option Elab.async false

theorem State.adaptPinned_keeps (s : State) (d loop ticks : Nat) : Keeps 0x408041 s (State.adaptPinned s d loop ticks) := by
  unfold State.adaptPinned
  refine Keeps.trans ?_ (State.dieEvent_keeps _ _ _ _)
  exact Keeps.refl _

theorem State.completeKey_keeps (s : State) (k : Nat × Nat × Nat) (status r0 r1 : Nat) : Keeps 0x4408069 s (State.completeKey s k status r0 r1) := by
  unfold State.completeKey
  refine Keeps.trans ?_ (State.complete_keeps _ _ _ _ _)
  exact Keeps.refl _

theorem State.modRegion_keeps (s : State) (d e : Nat) (f : Region → Region) : Keeps 0x800 s (State.modRegion s d e f) := by
  unfold State.modRegion
  refine Keeps.trans ?_ (State.modNrt_keeps _ _ _)
  exact Keeps.refl _

theorem State.modPeer_keeps (s : State) (d i : Nat) (f : Peer → Peer) : Keeps 0x800 s (State.modPeer s d i f) := by
  unfold State.modPeer
  refine Keeps.trans ?_ (State.modNrt_keeps _ _ _)
  exact Keeps.refl _

theorem State.rateFall_keeps (s : State) (d i minRate : Nat) : Keeps 0x400408849 s (State.rateFall s d i minRate) := by
  unfold State.rateFall
  split
  · rename_i z0 z1
    exact Keeps.refl _
  · rename_i z2 z3 z4
    extract_lets +onlyGivenNames x5
    extract_lets +onlyGivenNames x6
    refine Keeps.cut (b := x6) ?_ ?_
    · unfold x6
      refine Keeps.trans ?_ (State.modPeer_keeps _ _ _ _)
      exact Keeps.refl _
    intro k7
    clear_value x6
    refine Keeps.ite ?_ ?_
    · exact k7
    · extract_lets +onlyGivenNames x8
      extract_lets +onlyGivenNames x9
      extract_lets +onlyGivenNames x10
      refine Keeps.cut (b := x10) ?_ ?_
      · unfold x10
        refine Keeps.trans ?_ (State.modPeer_keeps _ _ _ _)
        exact k7
      intro k11
      clear_value x10
      refine Keeps.ite ?_ ?_
      · exact k11
      · refine Keeps.ite ?_ ?_
        · exact k11
        · extract_lets +onlyGivenNames x12
          refine Keeps.cut (b := x12) ?_ ?_
          · unfold x12
            refine Keeps.trans ?_ (State.fadd_keeps _ _ _ _)
            refine Keeps.trans ?_ (State.modNrt_keeps _ _ _)
            exact k11
          intro k13
          clear_value x12
          refine Keeps.trans ?_ (State.evtDie_keeps _ _ _)
          refine Keeps.trans ?_ (State.adaptPinned_keeps _ _ _ _)
          exact k13

theorem State.nrtOccur_keeps (s : State) (d code peer : Nat) : Keeps 0x408841 s (State.nrtOccur s d code peer) := by
  unfold State.nrtOccur
  extract_lets +onlyGivenNames x0
  extract_lets +onlyGivenNames x1
  refine Keeps.cut (b := x1) ?_ ?_
  · unfold x1
    refine Keeps.ite ?_ ?_
    · refine Keeps.trans ?_ (State.modNrt_keeps _ _ _)
      exact Keeps.refl _
    · exact Keeps.refl _
  intro k2
  clear_value x1
  refine Keeps.ite ?_ ?_
  · refine Keeps.trans ?_ (State.modNrt_keeps _ _ _)
    exact k2
  · refine Keeps.trans ?_ (State.dieEvent_keeps _ _ _ _)
    refine Keeps.trans ?_ (State.modNrt_keeps _ _ _)
    exact k2

theorem State.nrtTick_keeps (s : State) (d : Nat) : Keeps 0x408841 s (State.nrtTick s d) := by
  unfold State.nrtTick
  extract_lets +onlyGivenNames x0
  extract_lets +onlyGivenNames x1
  refine Keeps.cut (b := x1) ?_ ?_
  · unfold x1
    refine Keeps.trans ?_ (State.modNrt_keeps _ _ _)
    exact Keeps.refl _
  intro k2
  clear_value x1
  refine Keeps.foldl _ _ (fun s3 y4 => ?_) ?_
  · refine Keeps.trans ?_ (State.dieEvent_keeps _ _ _ _)
    exact Keeps.refl _
  · exact k2

theorem State.sendPkt_keeps (s : State) (d : Nat) (t : Tx) (i r : Nat) : Keeps 0x2800 s (State.sendPkt s d t i r) := by
  unfold State.sendPkt
  split
  · rename_i z0 z1
    exact Keeps.refl _
  · rename_i z2 z3 z4
    extract_lets +onlyGivenNames x5
    extract_lets +onlyGivenNames x6
    extract_lets +onlyGivenNames x7
    extract_lets +onlyGivenNames x8
    refine Keeps.cut (b := x8) ?_ ?_
    · unfold x8
      refine Keeps.trans ?_ (State.enqueue_keeps _ _ _ _ _ _)
      exact Keeps.refl _
    intro k9
    clear_value x8
    refine Keeps.trans ?_ (State.modNrt_keeps _ _ _)
    exact k9

theorem State.resend_keeps (s : State) (d : Nat) (t : Tx) (i : Nat) : Keeps 0x400002800 s (State.resend s d t i) := by
  unfold State.resend
  extract_lets +onlyGivenNames x0
  extract_lets +onlyGivenNames x1
  refine Keeps.cut (b := x1) ?_ ?_
  · unfold x1
    refine Keeps.trans ?_ (State.modNrt_keeps _ _ _)
    exact Keeps.refl _
  intro k2
  clear_value x1
  refine Keeps.trans ?_ (State.sendPkt_keeps _ _ _ _ _)
  refine Keeps.trans ?_ (State.fadd_keeps _ _ _ _)
  exact k2

theorem State.startMsg_keeps (s : State) (d peer typ key addr total sigIndex sigAdd : Nat) (dep : Option Nat) (bytes : List Byte)
    (from_ : Option (Nat × Nat)) (use : TxFor) (kind : FKind) : KSnd 0x400002800 s (State.startMsg s d peer typ key addr total sigIndex sigAdd dep bytes from_ use kind) := by
  unfold State.startMsg
  extract_lets +onlyGivenNames x0
  extract_lets +onlyGivenNames x1
  extract_lets +onlyGivenNames x2
  extract_lets +onlyGivenNames x3
  extract_lets +onlyGivenNames x4
  refine KSnd.cut (b := x4) ?_ ?_
  · unfold x4
    refine Keeps.trans ?_ (State.fadd_keeps _ _ _ _)
    refine Keeps.trans ?_ (State.modNrt_keeps _ _ _)
    exact Keeps.refl _
  intro k5
  clear_value x4
  refine KSnd.mk ?_
  refine Keeps.foldl _ _ (fun s6 y7 => ?_) ?_
  · refine Keeps.trans ?_ (State.sendPkt_keeps _ _ _ _ _)
    exact Keeps.refl _
  · exact k5

theorem State.refuseOut_keeps (s : State) (d sweep i : Nat) : Keeps 0x20000088 s (State.refuseOut s d sweep i) := by
  unfold State.refuseOut
  extract_lets +onlyGivenNames x0
  refine Keeps.cut (b := x0) ?_ ?_
  · unfold x0
    refine Keeps.trans ?_ (State.evtDie_keeps _ _ _)
    refine Keeps.trans ?_ (State.fadd_keeps _ _ _ _)
    exact Keeps.refl _
  intro k1
  clear_value x0
  extract_lets +onlyGivenNames x2
  refine Keeps.trans ?_ (State.modCsm_keeps _ _ _)
  exact k1

theorem State.gotStaged_keeps (s : State) (d page start status : Nat) (b : List Byte) : Keeps 0x200 s (State.gotStaged s d page start status b) := by
  unfold State.gotStaged
  refine Keeps.trans ?_ (State.modStg_keeps _ _ _)
  exact Keeps.refl _

theorem State.endImport_keeps (s : State) (d : Nat) (k : Nat × Nat × Nat) : Keeps 0x200 s (State.endImport s d k) := by
  unfold State.endImport
  refine Keeps.trans ?_ (State.modStg_keeps _ _ _)
  exact Keeps.refl _

theorem State.txFail_keeps (s : State) (d : Nat) (use : TxFor) (status : Nat) : Keeps 0x244083E9 s (State.txFail s d use status) := by
  unfold State.txFail
  split
  · rename_i z0 z1 z2
    refine Keeps.trans ?_ (State.refuseOut_keeps _ _ _ _)
    exact Keeps.refl _
  · rename_i z3
    exact Keeps.refl _
  · rename_i z4
    exact Keeps.refl _
  · rename_i z5 z6 z7 z8
    split
    · rename_i z9 z10
      exact Keeps.refl _
    · rename_i z11 z12 z13
      extract_lets +onlyGivenNames x14
      refine Keeps.cut (b := x14) ?_ ?_
      · unfold x14
        refine Keeps.trans ?_ (State.modStg_keeps _ _ _)
        exact Keeps.refl _
      intro k15
      clear_value x14
      refine Keeps.trans ?_ (State.completeKey_keeps _ _ _ _ _)
      refine Keeps.trans ?_ (State.closeHolder_keeps _ _ _)
      exact k15
  · rename_i z16 z17 z18 z19 z20
    refine Keeps.trans ?_ (State.completeKey_keeps _ _ _ _ _)
    exact Keeps.refl _
  · rename_i z21 z22 z23 z24
    refine Keeps.trans ?_ (State.gotStaged_keeps _ _ _ _ _ _)
    exact Keeps.refl _
  · rename_i z25 z26 z27 z28
    refine Keeps.trans ?_ (State.completeKey_keeps _ _ _ _ _)
    refine Keeps.trans ?_ (State.endImport_keeps _ _ _)
    exact Keeps.refl _

theorem State.qpPost_keeps (s : State) (d peer : Nat) (w : QpSend) : Keeps 0x42440ABE9 s (State.qpPost s d peer w) := by
  unfold State.qpPost
  split
  · rename_i z0 z1
    exact Keeps.refl _
  · rename_i z2 z3 z4
    refine Keeps.ite ?_ ?_
    · refine Keeps.trans ?_ (State.txFail_keeps _ _ _ _)
      exact Keeps.refl _
    · extract_lets +onlyGivenNames x5
      refine Keeps.cut (b := x5) ?_ ?_
      · unfold x5
        refine Keeps.trans ?_ (State.modPeer_keeps _ _ _ _)
        exact Keeps.refl _
      intro k6
      clear_value x5
      refine Keeps.foldl _ _ (fun s7 y8 => ?_) ?_
      · refine Keeps.trans ?_ (State.enqueue_keeps _ _ _ _ _ _)
        exact Keeps.refl _
      · refine Keeps.trans ?_ (State.fadd_keeps _ _ _ _)
        exact k6

theorem State.sendWrite_keeps (s : State) (d peer key addr : Nat) (sig : Option Nat) (dep : Option Nat) (bytes : List Byte)
    (from_ : Option (Nat × Nat)) (use : TxFor) (kind : FKind) : KSnd 0x42440ABE9 s (State.sendWrite s d peer key addr sig dep bytes from_ use kind) := by
  unfold State.sendWrite
  split
  · rename_i z0 z1 z2
    refine KSnd.mk ?_
    refine Keeps.trans ?_ (State.qpPost_keeps _ _ _ _)
    exact Keeps.refl _
  · rename_i z3 z4
    refine KSnd.trans ?_ (State.startMsg_keeps _ _ _ _ _ _ _ _ _ _ _ _ _ _)
    exact Keeps.refl _

theorem State.sendRead_keeps (s : State) (d peer key addr total : Nat) (to_ : Option (Nat × Nat)) (use : TxFor) (kind : FKind) : Keeps 0x42440ABE9 s (State.sendRead s d peer key addr total to_ use kind) := by
  unfold State.sendRead
  split
  · rename_i z0 z1 z2
    extract_lets +onlyGivenNames x3
    refine Keeps.trans ?_ (State.qpPost_keeps _ _ _ _)
    exact Keeps.refl _
  · rename_i z4 z5
    refine KSnd.get ?_
    refine KSnd.trans ?_ (State.startMsg_keeps _ _ _ _ _ _ _ _ _ _ _ _ _ _)
    exact Keeps.refl _

end Sys2Proof.Machine
end

