-- ==== Sys2Proof/Laws/KeepsStaging.lean ====
section
/-!
SUPPORT. Sys2Proof/Laws/KeepsStaging.lean: each operation of Machine/Staging.lean keeps what `Keeps` says, with the parts of the state it may
touch.
-/
namespace Sys2Proof.Machine
set_option Elab.async false

theorem State.reclaim_keeps (s : State) (d : Nat) (w0 : LimboWhat) : Keeps 0x200000780 s (State.reclaim s d w0) := by
  unfold State.reclaim
  split
  · rename_i z0 z1
    split
    · rename_i z2 z3
      exact Keeps.refl _
    · rename_i z4 z5 z6
      extract_lets +onlyGivenNames x7
      refine Keeps.cut (b := x7) ?_ ?_
      · unfold x7
        refine Keeps.trans ?_ (State.freeObj_keeps _ _ _ _)
        refine Keeps.trans ?_ (State.dropStore_keeps _ _ _)
        refine Keeps.trans ?_ (State.giveList_keeps _ _ _)
        refine Keeps.trans ?_ (State.giveSegs_keeps _ _ _)
        exact Keeps.refl _
      intro k8
      clear_value x7
      extract_lets +onlyGivenNames x9
      refine Keeps.cut (b := x9) ?_ ?_
      · unfold x9
        refine Keeps.foldl _ _ (fun s10 y11 => ?_) ?_
        · refine Keeps.trans ?_ (State.giveList_keeps _ _ _)
          exact Keeps.refl _
        · exact k8
      intro k12
      clear_value x9
      extract_lets +onlyGivenNames x13
      refine Keeps.cut (b := x13) ?_ ?_
      · unfold x13
        refine Keeps.trans ?_ (State.modStg_keeps _ _ _)
        exact k12
      intro k14
      clear_value x13
      refine Keeps.trans ?_ (State.modPfx_keeps _ _ _)
      exact k14
  · rename_i z15 z16
    extract_lets +onlyGivenNames x17
    refine Keeps.cut (b := x17) ?_ ?_
    · unfold x17
      refine Keeps.trans ?_ (State.modPfx_keeps _ _ _)
      refine Keeps.trans ?_ (State.freeObj_keeps _ _ _ _)
      exact Keeps.refl _
    intro k18
    clear_value x17
    extract_lets +onlyGivenNames x19
    refine Keeps.cut (b := x19) ?_ ?_
    · unfold x19
      refine Keeps.foldl _ _ (fun s20 y21 => ?_) ?_
      · refine Keeps.trans ?_ (State.giveSegs_keeps _ _ _)
        exact Keeps.refl _
      · exact k18
    intro k22
    clear_value x19
    extract_lets +onlyGivenNames x23
    refine Keeps.cut (b := x23) ?_ ?_
    · unfold x23
      refine Keeps.foldl _ _ (fun s24 y25 => ?_) ?_
      · refine Keeps.trans ?_ (State.giveSegs_keeps _ _ _)
        exact Keeps.refl _
      · exact k22
    intro k26
    clear_value x23
    refine Keeps.trans ?_ (State.modStg_keeps _ _ _)
    exact k26
  · rename_i z27 z28
    refine Keeps.trans ?_ (State.giveSegs_keeps _ _ _)
    exact Keeps.refl _
  · rename_i z29 z30 z31
    refine Keeps.trans ?_ (State.giveSegs_keeps _ _ _)
    exact Keeps.refl _

theorem State.reclaimRun_keeps (s : State) (d old : Nat) (w0 : Nat) : Keeps 0x204008788 s (State.reclaimRun s d old w0) := by
  induction w0 generalizing s d old with
  | zero =>
    unfold State.reclaimRun
    exact Keeps.refl _
  | succ n0 ih =>
    unfold State.reclaimRun
    split
    · rename_i z0 z1
      exact Keeps.refl _
    · rename_i z2 z3 z4 z5
      refine Keeps.ite ?_ ?_
      · extract_lets +onlyGivenNames x6
        refine Keeps.tr ?_ (ih _ _ _)
        refine Keeps.trans ?_ (State.pmc_keeps _ _ _ _ _ _)
        refine Keeps.trans ?_ (State.reclaim_keeps _ _ _)
        refine Keeps.trans ?_ (State.modPfx_keeps _ _ _)
        exact Keeps.refl _
      · exact Keeps.refl _

theorem State.advanceEpoch_keeps (s : State) (d tick : Nat) : Keeps 0x284008788 s (State.advanceEpoch s d tick) := by
  unfold State.advanceEpoch
  extract_lets +onlyGivenNames x0
  refine Keeps.cut (b := x0) ?_ ?_
  · unfold x0
    refine Keeps.trans ?_ (State.fset_keeps _ _ _ _)
    exact Keeps.refl _
  intro k1
  clear_value x0
  refine Keeps.trans ?_ (State.reclaimRun_keeps _ _ _ _)
  exact k1

theorem State.heatUp_keeps (s : State) (d id : Nat) : Keeps 0x300 s (State.heatUp s d id) := by
  unfold State.heatUp
  split
  · rename_i z0 z1
    exact Keeps.refl _
  · rename_i z2 z3 z4
    refine Keeps.ite ?_ ?_
    · exact Keeps.refl _
    · extract_lets +onlyGivenNames x5
      extract_lets +onlyGivenNames x6
      refine Keeps.trans ?_ (State.modStg_keeps _ _ _)
      refine Keeps.trans ?_ (State.modPage_keeps _ _ _ _)
      exact Keeps.refl _

theorem State.losePage_keeps (s : State) (d id : Nat) : Keeps 0xC04083C9 s (State.losePage s d id) := by
  unfold State.losePage
  split
  · rename_i z0 z1
    exact Keeps.refl _
  · rename_i z2 z3 z4
    refine Keeps.ite ?_ ?_
    · exact Keeps.refl _
    · extract_lets +onlyGivenNames x5
      refine Keeps.cut (b := x5) ?_ ?_
      · unfold x5
        refine Keeps.trans ?_ (State.modPage_keeps _ _ _ _)
        exact Keeps.refl _
      intro k6
      clear_value x5
      extract_lets +onlyGivenNames x7
      extract_lets +onlyGivenNames x8
      refine Keeps.cut (b := x8) ?_ ?_
      · unfold x8
        refine Keeps.ite ?_ ?_
        · refine Keeps.trans ?_ (State.evtDie_keeps _ _ _)
          exact k6
        · refine Keeps.trans ?_ (State.modPfx_keeps _ _ _)
          exact k6
      intro k9
      clear_value x8
      extract_lets +onlyGivenNames x10
      refine Keeps.cut (b := x10) ?_ ?_
      · unfold x10
        refine Keeps.trans ?_ (State.fadd_keeps _ _ _ _)
        refine Keeps.trans ?_ (State.evtDie_keeps _ _ _)
        exact k9
      intro k11
      clear_value x10
      extract_lets +onlyGivenNames x12
      refine Keeps.cut (b := x12) ?_ ?_
      · unfold x12
        refine Keeps.trans ?_ (State.fsat_keeps _ _ _ _)
        exact k11
      intro k13
      clear_value x12
      extract_lets +onlyGivenNames x14
      refine Keeps.cut (b := x14) ?_ ?_
      · unfold x14
        refine Keeps.foldl _ _ (fun s15 y16 => ?_) ?_
        · split
          · rename_i z17 z18 z19
            refine KSnd.get ?_
            refine KSnd.trans ?_ (State.evictCascade_keeps _ _ _)
            exact Keeps.refl _
          · rename_i z20 z21
            exact Keeps.refl _
        · exact k13
      intro k22
      clear_value x14
      refine Keeps.trans ?_ (State.dieEvent_keeps _ _ _ _)
      exact k22

theorem State.dropReplica_keeps (s : State) (d k : Nat) : Keeps 0x100000308 s (State.dropReplica s d k) := by
  unfold State.dropReplica
  split
  · rename_i z0 z1
    exact Keeps.refl _
  · rename_i z2 z3 z4
    extract_lets +onlyGivenNames x5
    extract_lets +onlyGivenNames x6
    refine Keeps.cut (b := x6) ?_ ?_
    · unfold x6
      refine Keeps.trans ?_ (State.giveSegs_keeps _ _ _)
      refine Keeps.trans ?_ (State.modStg_keeps _ _ _)
      exact Keeps.refl _
    intro k7
    clear_value x6
    extract_lets +onlyGivenNames x8
    refine Keeps.cut (b := x8) ?_ ?_
    · unfold x8
      refine Keeps.foldl _ _ (fun s9 y10 => ?_) ?_
      · refine Keeps.trans ?_ (State.modPage_keeps _ _ _ _)
        exact Keeps.refl _
      · exact k7
    intro k11
    clear_value x8
    refine Keeps.trans ?_ (State.fadd_keeps _ _ _ _)
    refine Keeps.trans ?_ (State.evtDie_keeps _ _ _)
    exact k11

theorem State.readReplica_keeps (s : State) (d : Nat) (t : StgTask) (key at_ n : Nat) (table : Bool) : Keeps 0x42440ABE9 s (State.readReplica s d t key at_ n table) := by
  unfold State.readReplica
  extract_lets +onlyGivenNames x0
  refine Keeps.cut (b := x0) ?_ ?_
  · unfold x0
    refine Keeps.trans ?_ (State.modStg_keeps _ _ _)
    exact Keeps.refl _
  intro k1
  clear_value x0
  split
  · rename_i z2 z3
    refine Keeps.trans ?_ (State.gotStaged_keeps _ _ _ _ _ _)
    exact k1
  · rename_i z4 z5 z6
    refine Keeps.ite ?_ ?_
    · refine Keeps.trans ?_ (State.sendRead_keeps _ _ _ _ _ _ _ _ _)
      exact k1
    · refine Keeps.trans ?_ (State.gotStaged_keeps _ _ _ _ _ _)
      exact k1

theorem State.startRead_keeps (s : State) (d page : Nat) : Keeps 0x42440ABE9 s (State.startRead s d page) := by
  unfold State.startRead
  split
  · rename_i z0 z1 z2 z3 z4 z5
    split
    · rename_i z6 z7 z8 z9
      refine Keeps.trans ?_ (State.readReplica_keeps _ _ _ _ _ _ _)
      exact Keeps.refl _
    · rename_i z10 z11
      exact Keeps.refl _
  · rename_i z12 z13 z14
    exact Keeps.refl _

theorem State.rereadTask_keeps (s : State) (d page : Nat) : Keeps 0x42440ABE9 s (State.rereadTask s d page) := by
  unfold State.rereadTask
  extract_lets +onlyGivenNames x0
  refine Keeps.trans ?_ (State.startRead_keeps _ _ _)
  refine Keeps.trans ?_ (State.modStg_keeps _ _ _)
  exact Keeps.refl _

theorem State.poolFrame_keeps (s : State) (d n : Nat) : KOpt 0x102 (fun r => r.2.2) s (State.poolFrame s d n) := by
  unfold State.poolFrame
  refine KOpt.ite ?_ ?_
  · trivial
  · split
    · rename_i z0 z1 z2 z3
      refine KOpt.cut (b := z2) ?_ ?_
      · refine KSnd.eq z3 ?_
        refine KSnd.trans ?_ (State.takeList_keeps _ _)
        exact Keeps.refl _
      intro k4
      split
      · rename_i z5 z6 z7 z8
        refine KOpt.cut (b := z7) ?_ ?_
        · refine KSnd.eq z8 ?_
          refine KSnd.trans ?_ (State.takeSegs_keeps _ _ _)
          exact k4
        intro k9
        refine KOpt.mk ?_
        exact k9

theorem State.allocTask_keeps (s : State) (d : Nat) (t : StgTask) : Keeps 0x4A440ABEB s (State.allocTask s d t) := by
  unfold State.allocTask
  refine Keeps.ite ?_ ?_
  · split
    · rename_i z0 z1
      exact Keeps.refl _
    · rename_i z2 z3 z4
      extract_lets +onlyGivenNames x5
      refine Keeps.ite ?_ ?_
      · exact Keeps.refl _
      · refine Keeps.ite ?_ ?_
        · exact Keeps.refl _
        · split
          · rename_i z6 z7
            refine Keeps.trans ?_ (State.nomem_keeps _ _)
            exact Keeps.refl _
          · rename_i z8 z9 z10 z11 z12
            refine Keeps.cut (b := z11) ?_ ?_
            · refine KOpt.eq (g := fun (r : List Nat × Nat × Sys2Proof.Machine.State) => r.2.2) (r := (z9, z10, z11)) z12 ?_
              refine KOpt.trans ?_ (State.poolFrame_keeps _ _ _)
              exact Keeps.refl _
            intro k13
            refine Keeps.trans ?_ (State.startRead_keeps _ _ _)
            refine Keeps.trans ?_ (State.modStg_keeps _ _ _)
            exact k13
  · exact Keeps.refl _

theorem State.stageIn_keeps (s : State) (d id prio : Nat) : Keeps 0x4A440ABEB s (State.stageIn s d id prio) := by
  unfold State.stageIn
  split
  · rename_i z0 z1
    exact Keeps.refl _
  · rename_i z2 z3 z4
    refine Keeps.ite ?_ ?_
    · exact Keeps.refl _
    · extract_lets +onlyGivenNames x5
      extract_lets +onlyGivenNames x6
      refine Keeps.cut (b := x6) ?_ ?_
      · unfold x6
        refine Keeps.trans ?_ (State.modStg_keeps _ _ _)
        exact Keeps.refl _
      intro k7
      clear_value x6
      refine Keeps.trans ?_ (State.allocTask_keeps _ _ _)
      refine Keeps.trans ?_ (State.modPage_keeps _ _ _ _)
      exact k7

theorem State.retryTasks_keeps (s : State) (d : Nat) : Keeps 0x4A440ABEB s (State.retryTasks s d) := by
  unfold State.retryTasks
  refine Keeps.foldl _ _ (fun s0 y1 => ?_) ?_
  · refine Keeps.trans ?_ (State.allocTask_keeps _ _ _)
    exact Keeps.refl _
  · exact Keeps.refl _

theorem State.endTask_keeps (s : State) (d id : Nat) : Keeps 0x300 s (State.endTask s d id) := by
  unfold State.endTask
  split
  · rename_i z0 z1
    exact Keeps.refl _
  · rename_i z2 z3 z4
    extract_lets +onlyGivenNames x5
    refine Keeps.cut (b := x5) ?_ ?_
    · unfold x5
      refine Keeps.trans ?_ (State.modStg_keeps _ _ _)
      exact Keeps.refl _
    intro k6
    clear_value x5
    extract_lets +onlyGivenNames x7
    extract_lets +onlyGivenNames x8
    refine Keeps.cut (b := x8) ?_ ?_
    · unfold x8
      refine Keeps.trans ?_ (State.modPage_keeps _ _ _ _)
      exact k6
    intro k9
    clear_value x8
    refine Keeps.trans ?_ (State.giveList_keeps _ _ _)
    refine Keeps.trans ?_ (State.frameToLimbo_keeps _ _ _ _)
    exact k9

theorem State.makeResident_keeps (s : State) (d id : Nat) : Keeps 0x4008308 s (State.makeResident s d id) := by
  unfold State.makeResident
  split
  · rename_i z0 z1 z2 z3 z4 z5
    extract_lets +onlyGivenNames x6
    extract_lets +onlyGivenNames x7
    extract_lets +onlyGivenNames x8
    refine Keeps.cut (b := x8) ?_ ?_
    · unfold x8
      refine Keeps.trans ?_ (State.modStg_keeps _ _ _)
      exact Keeps.refl _
    intro k9
    clear_value x8
    extract_lets +onlyGivenNames x10
    refine Keeps.cut (b := x10) ?_ ?_
    · unfold x10
      refine Keeps.trans ?_ (State.hbmWrite_keeps _ _ _ _)
      refine Keeps.trans ?_ (State.hist_keeps _ _ _ _ _)
      exact k9
    intro k11
    clear_value x10
    refine Keeps.trans ?_ (State.modPage_keeps _ _ _ _)
    exact k11
  · rename_i z12 z13 z14
    exact Keeps.refl _

theorem State.repin_keeps (s : State) (d : Nat) : Keeps 0x4A440ABEB s (State.repin s d) := by
  unfold State.repin
  extract_lets +onlyGivenNames x0
  extract_lets +onlyGivenNames x1
  refine Keeps.cut (b := x1) ?_ ?_
  · unfold x1
    refine Keeps.trans ?_ (State.modPfx_keeps _ _ _)
    exact Keeps.refl _
  intro k2
  clear_value x1
  refine Keeps.foldl _ _ (fun s3 y4 => ?_) ?_
  · refine Keeps.trans ?_ (State.stageIn_keeps _ _ _ _)
    exact Keeps.refl _
  · exact k2

theorem State.repinSeq_keeps (s : State) (d q : Nat) : Keeps 0x4A440ABEB s (State.repinSeq s d q) := by
  unfold State.repinSeq
  refine Keeps.ite ?_ ?_
  · refine Keeps.trans ?_ (State.repin_keeps _ _)
    exact Keeps.refl _
  · exact Keeps.refl _

theorem State.rehold_keeps (s : State) (d : Nat) (l : List Nat) : Keeps 0x100 s (State.rehold s d l) := by
  unfold State.rehold
  refine Keeps.foldl _ _ (fun s0 y1 => ?_) ?_
  · extract_lets +onlyGivenNames x2
    refine Keeps.trans ?_ (State.modPage_keeps _ _ _ _)
    exact Keeps.refl _
  · exact Keeps.refl _

theorem State.postMet_keeps (s : State) (d : Nat) (h : Hint) : Keeps 0x100408041 s (State.postMet s d h) := by
  unfold State.postMet
  extract_lets +onlyGivenNames x0
  refine Keeps.trans ?_ (State.dieEvent_keeps _ _ _ _)
  refine Keeps.trans ?_ (State.fadd_keeps _ _ _ _)
  exact Keeps.refl _

theorem State.postMissed_keeps (s : State) (d : Nat) (h : Hint) (cause : Nat) : Keeps 0x100408049 s (State.postMissed s d h cause) := by
  unfold State.postMissed
  extract_lets +onlyGivenNames x0
  refine Keeps.cut (b := x0) ?_ ?_
  · unfold x0
    refine Keeps.trans ?_ (State.evtDie_keeps _ _ _)
    refine Keeps.trans ?_ (State.fadd_keeps _ _ _ _)
    exact Keeps.refl _
  intro k1
  clear_value x0
  refine Keeps.trans ?_ (State.dieEvent_keeps _ _ _ _)
  exact k1

theorem State.hintCount_keeps (s : State) (d : Nat) : Keeps 0x100000000 s (State.hintCount s d) := by
  unfold State.hintCount
  refine Keeps.trans ?_ (State.fsat_keeps _ _ _ _)
  exact Keeps.refl _

theorem State.unpark_keeps (s : State) (d q : Nat) : Keeps 0x200000500 s (State.unpark s d q) := by
  unfold State.unpark
  split
  · rename_i z0 z1
    exact Keeps.refl _
  · rename_i z2 z3 z4 z5
    refine Keeps.ite ?_ ?_
    · extract_lets +onlyGivenNames x6
      refine Keeps.cut (b := x6) ?_ ?_
      · unfold x6
        refine KSnd.get ?_
        refine KSnd.trans ?_ (State.journal_keeps _ _ _ _)
        exact Keeps.refl _
      intro k7
      clear_value x6
      extract_lets +onlyGivenNames x8
      refine Keeps.cut (b := x8) ?_ ?_
      · unfold x8
        refine Keeps.trans ?_ (State.setSlot_keeps _ _ _ _)
        exact k7
      intro k9
      clear_value x8
      extract_lets +onlyGivenNames x10
      refine Keeps.cut (b := x10) ?_ ?_
      · unfold x10
        refine Keeps.trans ?_ (State.freeObj_keeps _ _ _ _)
        exact k9
      intro k11
      clear_value x10
      refine Keeps.foldl _ _ (fun s12 y13 => ?_) ?_
      · refine Keeps.foldl _ _ (fun s14 y15 => ?_) ?_
        · split
          · rename_i z16 z17 z18
            refine Keeps.ite ?_ ?_
            · refine Keeps.trans ?_ (State.freeFlash_keeps _ _ _)
              exact Keeps.refl _
            · refine Keeps.trans ?_ (State.modPage_keeps _ _ _ _)
              exact Keeps.refl _
          · rename_i z19 z20
            exact Keeps.refl _
        · exact Keeps.refl _
      · exact k11
    · exact Keeps.refl _

theorem State.meetHints_keeps (s : State) (d : Nat) (w0 : List Hint) : Keeps 0x300408741 s (State.meetHints s d w0) := by
  induction w0 generalizing s d with
  | nil =>
    unfold State.meetHints
    exact Keeps.refl _
  | cons hd0 tl0 ih =>
    unfold State.meetHints
    extract_lets +onlyGivenNames x0
    refine Keeps.ite ?_ ?_
    · extract_lets +onlyGivenNames x1
      extract_lets +onlyGivenNames x2
      refine Keeps.cut (b := x2) ?_ ?_
      · unfold x2
        refine Keeps.trans ?_ (State.modStg_keeps _ _ _)
        exact Keeps.refl _
      intro k3
      clear_value x2
      extract_lets +onlyGivenNames x4
      refine Keeps.cut (b := x4) ?_ ?_
      · unfold x4
        refine Keeps.trans ?_ (State.hintCount_keeps _ _)
        refine Keeps.trans ?_ (State.postMet_keeps _ _ _)
        exact k3
      intro k5
      clear_value x4
      refine Keeps.tr ?_ (ih _ _)
      refine Keeps.ite ?_ ?_
      · refine Keeps.trans ?_ (State.unpark_keeps _ _ _)
        exact k5
      · exact k5
    · refine Keeps.tr ?_ (ih _ _)
      exact Keeps.refl _

theorem State.freeHints_keeps (s : State) (d q : Nat) : Keeps 0x100408349 s (State.freeHints s d q) := by
  unfold State.freeHints
  extract_lets +onlyGivenNames x0
  extract_lets +onlyGivenNames x1
  refine Keeps.cut (b := x1) ?_ ?_
  · unfold x1
    refine Keeps.foldl _ _ (fun s2 y3 => ?_) ?_
    · refine Keeps.trans ?_ (State.postMissed_keeps _ _ _ _)
      exact Keeps.refl _
    · exact Keeps.refl _
  intro k4
  clear_value x1
  extract_lets +onlyGivenNames x5
  refine Keeps.cut (b := x5) ?_ ?_
  · unfold x5
    refine Keeps.trans ?_ (State.modStg_keeps _ _ _)
    exact k4
  intro k6
  clear_value x5
  refine Keeps.trans ?_ (State.hintCount_keeps _ _)
  refine Keeps.foldl _ _ (fun s7 y8 => ?_) ?_
  · refine Keeps.trans ?_ (State.rehold_keeps _ _ _)
    exact Keeps.refl _
  · exact k6

theorem State.releaseTo_keeps (s : State) (d room : Nat) (extra : Nat) (w0 : Nat) : KSnd 0x100000100 s (State.releaseTo s d room extra w0) := by
  induction w0 generalizing s d room extra with
  | zero =>
    unfold State.releaseTo
    refine KSnd.mk ?_
    exact Keeps.refl _
  | succ n0 ih =>
    unfold State.releaseTo
    refine KSnd.ite ?_ ?_
    · refine KSnd.mk ?_
      exact Keeps.refl _
    · split
      · rename_i z0 z1
        refine KSnd.mk ?_
        exact Keeps.refl _
      · rename_i z2 z3 z4 z5
        refine KSnd.tr ?_ (ih _ _ _ _)
        refine Keeps.trans ?_ (State.releaseFrame_keeps _ _ _)
        exact Keeps.refl _

theorem State.spillRun_keeps (s : State) (d : Nat) (need : Nat) (started : Bool) (seen : List Nat) (w0 : Nat) : KSnd 0x300000408 s (State.spillRun s d need started seen w0) := by
  induction w0 generalizing s d need started seen with
  | zero =>
    unfold State.spillRun
    refine KSnd.mk ?_
    exact Keeps.refl _
  | succ n0 ih =>
    unfold State.spillRun
    refine KSnd.ite ?_ ?_
    · refine KSnd.mk ?_
      exact Keeps.refl _
    · split
      · rename_i z0 z1
        refine KSnd.mk ?_
        exact Keeps.refl _
      · rename_i z2 z3 z4 z5
        extract_lets +onlyGivenNames x6
        refine KSnd.ite ?_ ?_
        · refine KSnd.tr ?_ (ih _ _ _ _ _)
          refine Keeps.trans ?_ (State.evtDie_keeps _ _ _)
          exact Keeps.refl _
        · split
          · rename_i z7 z8 z9 z10
            refine KSnd.cut (b := z9) ?_ ?_
            · refine KOpt.eq (g := fun (r : Sys2Proof.Machine.FLoc × Sys2Proof.Machine.State) => r.2) (r := (z8, z9)) z10 ?_
              refine KOpt.trans ?_ (State.writeObj_keeps _ _ _ _ _ _ _ _ _)
              exact Keeps.refl _
            intro k11
            refine KSnd.tr ?_ (ih _ _ _ _ _)
            exact k11
          · rename_i z12 z13
            refine KSnd.tr ?_ (ih _ _ _ _ _)
            refine Keeps.trans ?_ (State.evtDie_keeps _ _ _)
            exact Keeps.refl _

theorem State.overQuota_keeps (s : State) (d : Nat) (extra : List (Nat × Nat)) (w0 : Nat) : Keeps 0x100000100 s (State.overQuota s d extra w0) := by
  induction w0 generalizing s d extra with
  | zero =>
    unfold State.overQuota
    exact Keeps.refl _
  | succ n0 ih =>
    unfold State.overQuota
    extract_lets +onlyGivenNames x0
    split
    · rename_i z1 z2
      exact Keeps.refl _
    · rename_i z3 z4 z5 z6
      refine Keeps.tr ?_ (ih _ _ _)
      refine Keeps.trans ?_ (State.releaseFrame_keeps _ _ _)
      exact Keeps.refl _

theorem State.poolCheck_keeps (s : State) (d : Nat) : Keeps 0x300408749 s (State.poolCheck s d) := by
  unfold State.poolCheck
  extract_lets +onlyGivenNames x0
  extract_lets +onlyGivenNames x1
  extract_lets +onlyGivenNames x2
  extract_lets +onlyGivenNames x3
  refine Keeps.cut (b := x3) ?_ ?_
  · unfold x3
    refine Keeps.trans ?_ (State.overQuota_keeps _ _ _ _)
    exact Keeps.refl _
  intro k4
  clear_value x3
  extract_lets +onlyGivenNames x5
  refine Keeps.cut (b := x5) ?_ ?_
  · unfold x5
    refine Keeps.trans ?_ (State.modStg_keeps _ _ _)
    exact k4
  intro k6
  clear_value x5
  refine Keeps.ite ?_ ?_
  · exact k6
  · refine Keeps.ite ?_ ?_
    · refine Keeps.trans ?_ (State.fset_keeps _ _ _ _)
      exact k6
    · extract_lets +onlyGivenNames x7
      refine Keeps.cut (b := x7) ?_ ?_
      · unfold x7
        refine Keeps.ite ?_ ?_
        · exact k6
        · refine Keeps.trans ?_ (State.evtDie_keeps _ _ _)
          refine Keeps.trans ?_ (State.fset_keeps _ _ _ _)
          exact k6
      intro k8
      clear_value x7
      split
      · rename_i z9 z10 z11 z12
        refine Keeps.cut (b := z11) ?_ ?_
        · refine KSnd.eq z12 ?_
          refine KSnd.ite ?_ ?_
          · refine KSnd.trans ?_ (State.releaseTo_keeps _ _ _ _ _)
            exact k8
          · refine KSnd.mk ?_
            exact k8
        intro k13
        extract_lets +onlyGivenNames x14
        split
        · rename_i z15 z16 z17 z18
          refine Keeps.cut (b := z17) ?_ ?_
          · refine KSnd.eq z18 ?_
            refine KSnd.ite ?_ ?_
            · refine KSnd.trans ?_ (State.spillRun_keeps _ _ _ _ _ _)
              exact k13
            · refine KSnd.mk ?_
              exact k13
          intro k19
          refine Keeps.ite ?_ ?_
          · extract_lets +onlyGivenNames x20
            refine Keeps.cut (b := x20) ?_ ?_
            · unfold x20
              refine Keeps.trans ?_ (State.modStg_keeps _ _ _)
              refine Keeps.trans ?_ (State.evtDie_keeps _ _ _)
              refine Keeps.trans ?_ (State.fadd_keeps _ _ _ _)
              exact k19
            intro k21
            clear_value x20
            refine Keeps.trans ?_ (State.adaptPinned_keeps _ _ _ _)
            exact k21
          · exact k19

theorem State.missHints_keeps (s : State) (d tick : Nat) : Keeps 0x100408249 s (State.missHints s d tick) := by
  unfold State.missHints
  extract_lets +onlyGivenNames x0
  extract_lets +onlyGivenNames x1
  refine Keeps.cut (b := x1) ?_ ?_
  · unfold x1
    refine Keeps.trans ?_ (State.modStg_keeps _ _ _)
    exact Keeps.refl _
  intro k2
  clear_value x1
  refine Keeps.foldl _ _ (fun s3 y4 => ?_) ?_
  · refine Keeps.trans ?_ (State.postMissed_keeps _ _ _ _)
    exact Keeps.refl _
  · exact k2

end Sys2Proof.Machine
end

