-- ==== Sys2Proof/Laws/KeepsEdits.lean ====
section
/-!
SUPPORT. Sys2Proof/Laws/KeepsEdits.lean: each operation of Machine/Edits.lean keeps what `Keeps` says, with the parts of the state it may
touch.
-/
namespace Sys2Proof.Machine
set_option Elab.async false

/-- The state an edit answers, whichever way it ends, keeps. -/
def KEdit {α : Type} (m : Nat) (g : α → State) (a : State) : Except EditStop α → Prop
  | .error (.fail _ t) => Keeps m a t
  | .error (.wait _) => True
  | .ok r => Keeps m a (g r)

theorem KEdit.eq {m : Nat} {α : Type} {g : α → State} {a : State} {x : Except EditStop α} {r : α} (e : x = .ok r) (h : KEdit m g a x) :
    Keeps m a (g r) := by rw [e] at h; exact h
theorem KEdit.err {m : Nat} {α : Type} {g : α → State} {a t : State} {x : Except EditStop α} {n : Nat} (e : x = .error (.fail n t))
    (h : KEdit m g a x) : Keeps m a t := by rw [e] at h; exact h
theorem KEdit.mk {m : Nat} {α : Type} {g : α → State} {a : State} {r : α} (h : Keeps m a (g r)) : KEdit m g a (.ok r) := h
theorem KEdit.fail {m : Nat} {α : Type} {g : α → State} {a t : State} {n : Nat} (h : Keeps m a t) : KEdit m g a (.error (.fail n t)) := h
theorem KEdit.trans {m n : Nat} {α : Type} {g : α → State} {a b : State} {x : Except EditStop α} (h : Keeps m a b) (k : KEdit n g b x)
    (hm : n ||| m = m := by first | decide | exact Nat.or_self _ | (rw [Fld.nth_bit]; decide) | (rw [faultsFld_bit]; decide) | (rw [atmLo_bit1]; decide) | (rw [atmLo_bit2]; decide) | exact orSelf _ _ | exact orRight _ (by decide) | exact orRight _ (orSelf _ _) | exact orRight _ (orRight _ (by decide)) | exact orBoth _ (by decide) | exact Fld.bit_top _ | exact Fld.bit_regs _ | exact Fld.bit_top2 _ _ (by decide) | exact orSub (by assumption) (by decide) | (split <;> decide)) : KEdit m g a x := by
  match x, k with
  | .error (.fail _ _), k => exact Keeps.trans h k hm
  | .error (.wait _), _ => trivial
  | .ok _, k => exact Keeps.trans h k hm
theorem KEdit.tr {m : Nat} {α : Type} {g : α → State} {a b : State} {x : Except EditStop α} (h : Keeps m a b) (k : KEdit m g b x) :
    KEdit m g a x := KEdit.trans h k (Nat.or_self _)
theorem KEdit.ite {m : Nat} {α : Type} {g : α → State} {a : State} {p : Prop} [Decidable p] {x y : Except EditStop α} (h : KEdit m g a x)
    (k : KEdit m g a y) : KEdit m g a (if p then x else y) := by split <;> assumption
theorem KEdit.cut {m : Nat} {α : Type} {g : α → State} {a b : State} {x : Except EditStop α} (h : Keeps m a b) (k : Keeps m a b → KEdit m g a x) :
    KEdit m g a x := k h
theorem KEdit.bind {m : Nat} {α β : Type} {g : α → State} {k : β → State} {a : State} {x : Except EditStop α} {f : α → Except EditStop β}
    (h : KEdit m g a x) (n : ∀ r, Keeps m a (g r) → KEdit m k a (f r)) : KEdit m k a (x >>= f) := by
  match x, h with
  | .error (.fail _ _), h => exact h
  | .error (.wait _), _ => trivial
  | .ok r, h => exact n r h

theorem EditOk.keeps {m : Nat} {a s : State} {r0 r1 : Nat} {l : List Nat} (h : Keeps m a s) : Keeps m a (EditOk.mk s r0 r1 l).s := h

theorem liftAlloc_keeps {m : Nat} {α : Type} {g : α → State} {a : State} (s0 : State) (d : Nat) (x : Except AllocFail α)
    (h : Keeps m a s0) (k : KExc m g a x) (hm : 0x80000008 ||| m = m := by first | decide | exact Nat.or_self _ | (rw [Fld.nth_bit]; decide) | (rw [faultsFld_bit]; decide) | (rw [atmLo_bit1]; decide) | (rw [atmLo_bit2]; decide) | exact orSelf _ _ | exact orRight _ (by decide) | exact orRight _ (orSelf _ _) | exact orRight _ (orRight _ (by decide)) | exact orBoth _ (by decide) | exact Fld.bit_top _ | exact Fld.bit_regs _ | exact Fld.bit_top2 _ _ (by decide) | exact orSub (by assumption) (by decide) | (split <;> decide)) : KEdit m g a (liftAlloc s0 d x) := by
  cases x with
  | ok r => exact k
  | error e =>
    cases e with
    | quota => exact h
    | nomem => exact Keeps.trans h (State.nomem_keeps _ _) hm

theorem State.mustRead_keeps {m : Nat} {a : State} (s : State) (d : Nat) (l : List Nat) (h : Keeps m a s) :
    KEdit m (fun _ => a) a (s.mustRead d l) := by
  unfold State.mustRead
  refine KEdit.ite h (KEdit.ite h ?_)
  extract_lets away
  exact KEdit.ite (Keeps.refl a) (KEdit.ite trivial h)

theorem State.quotaFirst_keeps {m : Nat} {a : State} (s : State) (d c n : Nat) (h : Keeps m a s) :
    KEdit m (fun _ => a) a (s.quotaFirst d c n) := by
  unfold State.quotaFirst
  exact KEdit.ite (Keeps.refl a) h

theorem keepPfx_keeps {m : Nat} {α : Type} {g : α → State} {a : State} {x : Except EditStop α} (h : KEdit m g a x) (hm : 0x100 ||| m = m := by first | decide | exact Nat.or_self _ | (rw [Fld.nth_bit]; decide) | (rw [faultsFld_bit]; decide) | (rw [atmLo_bit1]; decide) | (rw [atmLo_bit2]; decide) | exact orSelf _ _ | exact orRight _ (by decide) | exact orRight _ (orSelf _ _) | exact orRight _ (orRight _ (by decide)) | exact orBoth _ (by decide) | exact Fld.bit_top _ | exact Fld.bit_regs _ | exact Fld.bit_top2 _ _ (by decide) | exact orSub (by assumption) (by decide) | (split <;> decide)) :
    KEdit m g a (keepPfx a x) := by
  match x, h with
  | .error (.fail _ t), h =>
    refine ⟨h.pending, h.variant, h.free, h.sent, fun w => ?_, fun x hx => ?_⟩
    · have w1 := (State.wf_iff _).1 (h.wf w)
      have w2 := (State.wf_iff _).1 w
      simp_all [State.wf_iff]
    · cases x <;> first | exact h.same _ hx | exact absurd (testBit_sub hm hx) (by decide)
  | .error (.wait _), h => exact h
  | .ok _, h => exact h

/-- The state of a stopped edit, if it holds one, keeps. -/
def KStop (m : Nat) (a : State) : EditStop → Prop
  | .fail _ t => Keeps m a t
  | .wait _ => True

theorem KStop.fail {m : Nat} {a t : State} {n : Nat} (h : Keeps m a t) : KStop m a (.fail n t) := h
theorem KStop.trans {m n : Nat} {a b : State} {x : EditStop} (h : Keeps m a b) (k : KStop n b x) (hm : n ||| m = m := by first | decide | exact Nat.or_self _ | (rw [Fld.nth_bit]; decide) | (rw [faultsFld_bit]; decide) | (rw [atmLo_bit1]; decide) | (rw [atmLo_bit2]; decide) | exact orSelf _ _ | exact orRight _ (by decide) | exact orRight _ (orSelf _ _) | exact orRight _ (orRight _ (by decide)) | exact orBoth _ (by decide) | exact Fld.bit_top _ | exact Fld.bit_regs _ | exact Fld.bit_top2 _ _ (by decide) | exact orSub (by assumption) (by decide) | (split <;> decide)) :
    KStop m a x := by
  cases x with
  | fail _ _ => exact Keeps.trans h k hm
  | wait _ => trivial
theorem KEdit.stop {m : Nat} {α : Type} {g : α → State} {a : State} {x : Except EditStop α} {r : EditStop} (e : x = .error r)
    (h : KEdit m g a x) : KStop m a r := by
  rw [e] at h
  cases r with
  | fail _ _ => exact h
  | wait _ => trivial

theorem State.countSeal_keeps (s : State) (d raw sat nan : Nat) : Keeps 0x40000000 s (State.countSeal s d raw sat nan) := by
  unfold State.countSeal
  extract_lets +onlyGivenNames x0
  refine Keeps.cut (b := x0) ?_ ?_
  · unfold x0
    refine Keeps.trans ?_ (State.fadd_keeps _ _ _ _)
    refine Keeps.trans ?_ (State.fadd_keeps _ _ _ _)
    exact Keeps.refl _
  intro k1
  clear_value x0
  refine Keeps.trans ?_ (State.fadd_keeps _ _ _ _)
  refine Keeps.trans ?_ (State.fadd_keeps _ _ _ _)
  exact k1

theorem State.modLayer_keeps (s : State) (d slot l : Nat) (f : LayerEnt → LayerEnt) : Keeps 0x100 s (State.modLayer s d slot l f) := by
  unfold State.modLayer
  split
  · rename_i z0 z1
    exact Keeps.refl _
  · rename_i z2 z3 z4
    refine Keeps.trans ?_ (State.setSlot_keeps _ _ _ _)
    exact Keeps.refl _

theorem State.startSeal_keeps (s : State) (d slot l : Nat) : Keeps 0x102 s (State.startSeal s d slot l) := by
  unfold State.startSeal
  split
  · rename_i z0 z1
    exact Keeps.refl _
  · rename_i z2 z3 z4
    extract_lets +onlyGivenNames x5
    split
    · rename_i z6 z7 z8 z9 z10 z11
      refine Keeps.ite ?_ ?_
      · exact Keeps.refl _
      · extract_lets +onlyGivenNames x12
        extract_lets +onlyGivenNames x13
        extract_lets +onlyGivenNames x14
        refine Keeps.ite ?_ ?_
        · unfold x14
          refine Keeps.trans ?_ (State.modPfx_keeps _ _ _)
          exact Keeps.refl _
        · split
          · rename_i z15 z16 z17
            unfold x14
            refine Keeps.trans ?_ (State.modPfx_keeps _ _ _)
            exact Keeps.refl _
          · rename_i z18 z19 z20 z21
            refine Keeps.cut (b := z20) ?_ ?_
            · refine KExc.eq (g := fun (r : Nat × Sys2Proof.Machine.State) => r.2) (r := (z19, z20)) z21 ?_
              refine KExc.trans ?_ (State.newPage_keeps _ _ _ _)
              exact Keeps.refl _
            intro k22
            extract_lets +onlyGivenNames x23
            refine Keeps.cut (b := x23) ?_ ?_
            · unfold x23
              refine Keeps.trans ?_ (State.modPfx_keeps _ _ _)
              exact k22
            intro k24
            clear_value x23
            refine Keeps.trans ?_ (State.modLayer_keeps _ _ _ _ _)
            refine Keeps.trans ?_ (State.openHolder_keeps _ _)
            exact k24
    · rename_i z25 z26 z27
      exact Keeps.refl _

theorem State.startSeals_keeps (s : State) (d slot : Nat) : Keeps 0x102 s (State.startSeals s d slot) := by
  unfold State.startSeals
  split
  · rename_i z0 z1
    exact Keeps.refl _
  · rename_i z2 z3 z4
    refine Keeps.foldl _ _ (fun s5 y6 => ?_) ?_
    · refine Keeps.trans ?_ (State.startSeal_keeps _ _ _ _)
      exact Keeps.refl _
    · exact Keeps.refl _

theorem State.dropSeal_keeps (s : State) (d id : Nat) : Keeps 0x40000380 s (State.dropSeal s d id) := by
  unfold State.dropSeal
  split
  · rename_i z0 z1
    exact Keeps.refl _
  · rename_i z2 z3 z4
    refine Keeps.ite ?_ ?_
    · refine Keeps.trans ?_ (State.limboPage_keeps _ _ _)
      refine Keeps.trans ?_ (State.closeHolder_keeps _ _ _)
      exact Keeps.refl _
    · refine Keeps.trans ?_ (State.limboPage_keeps _ _ _)
      exact Keeps.refl _

theorem State.dropTail_keeps (s : State) (d : Nat) (t : Tail) : Keeps 0x40000380 s (State.dropTail s d t) := by
  unfold State.dropTail
  refine Keeps.foldl _ _ (fun s0 y1 => ?_) ?_
  · extract_lets +onlyGivenNames x2
    refine Keeps.cut (b := x2) ?_ ?_
    · unfold x2
      refine Keeps.ite ?_ ?_
      · refine Keeps.trans ?_ (State.dropSeal_keeps _ _ _)
        exact Keeps.refl _
      · exact Keeps.refl _
    intro k3
    clear_value x2
    extract_lets +onlyGivenNames x4
    refine Keeps.cut (b := x4) ?_ ?_
    · unfold x4
      refine Keeps.ite ?_ ?_
      · refine Keeps.trans ?_ (State.dropRef_keeps _ _ _)
        exact k3
      · exact k3
    intro k5
    clear_value x4
    refine Keeps.ite ?_ ?_
    · refine Keeps.trans ?_ (State.dropRef_keeps _ _ _)
      exact k5
    · exact k5
  · exact Keeps.refl _

theorem State.newVersion_keeps {m : Nat} (s s0 : State) (d slot : Nat) (e : SeqSlot) (chunks : List Nat) (tail : Tail) (h0 : Keeps m s0 s) (hm : 0x8000010A ||| m = m := by first | decide | exact Nat.or_self _ | (rw [Fld.nth_bit]; decide) | (rw [faultsFld_bit]; decide) | (rw [atmLo_bit1]; decide) | (rw [atmLo_bit2]; decide) | exact orSelf _ _ | exact orRight _ (by decide) | exact orRight _ (orSelf _ _) | exact orRight _ (orRight _ (by decide)) | exact orBoth _ (by decide) | exact Fld.bit_top _ | exact Fld.bit_regs _ | exact Fld.bit_top2 _ _ (by decide) | exact orSub (by assumption) (by decide) | (split <;> decide)) : KEdit m (fun r => r) s0 (State.newVersion s s0 d slot e chunks tail) := by
  unfold State.newVersion
  refine KEdit.bind (g := (fun (r : List Nat × Sys2Proof.Machine.State) => r.2)) ?_ ?_
  · refine liftAlloc_keeps _ _ _ ?_ ?_
    · exact Keeps.refl _
    · refine KExc.trans ?_ (State.poolSegs_keeps _ _ _)
      exact h0
  rintro ⟨b0, b1⟩ k2
  split
  · rename_i z3 z4 z5 z6
    refine KEdit.cut (b := z5) ?_ ?_
    · refine KSnd.eq z6 ?_
      refine KSnd.mk ?_
      exact k2
    intro k7
    refine KEdit.bind (g := (fun (r : List Nat × Sys2Proof.Machine.State) => r.2)) ?_ ?_
    · refine liftAlloc_keeps _ _ _ ?_ ?_
      · exact Keeps.refl _
      · refine KExc.trans ?_ (State.poolSegs_keeps _ _ _)
        exact k7
    rintro ⟨b8, b9⟩ k10
    split
    · rename_i z11 z12 z13 z14
      refine KEdit.cut (b := z13) ?_ ?_
      · refine KSnd.eq z14 ?_
        refine KSnd.mk ?_
        exact k10
      intro k15
      extract_lets +onlyGivenNames x16
      refine KEdit.cut (b := x16) ?_ ?_
      · unfold x16
        refine Keeps.trans ?_ (State.segsToLimbo_keeps _ _ _)
        refine Keeps.trans ?_ (State.segsToLimbo_keeps _ _ _)
        exact k15
      intro k17
      clear_value x16
      extract_lets +onlyGivenNames x18
      refine KEdit.mk ?_
      refine Keeps.trans ?_ (State.setSlot_keeps _ _ _ _)
      exact k17

theorem State.chunkFor_keeps (s0 : State) (d : Nat) (e : SeqSlot) (hit : Option Nat) (rec0 : Chunk) (tick : Nat) : KEdit 0xC000038A (fun r => r.2.2) s0 (State.chunkFor s0 d e hit rec0 tick) := by
  unfold State.chunkFor
  extract_lets +onlyGivenNames x0
  refine KEdit.cut (b := x0) ?_ ?_
  · unfold x0
    exact Keeps.refl _
  intro k1
  clear_value x0
  split
  · rename_i z2 z3
    extract_lets +onlyGivenNames x4
    refine KEdit.cut (b := x4) ?_ ?_
    · unfold x4
      refine Keeps.trans ?_ (State.addHold_keeps _ _ _)
      exact k1
    intro k5
    clear_value x4
    extract_lets +onlyGivenNames x6
    refine KEdit.cut (b := x6) ?_ ?_
    · unfold x6
      refine Keeps.foldl _ _ (fun s7 y8 => ?_) ?_
      · refine Keeps.trans ?_ (State.dropSeal_keeps _ _ _)
        exact Keeps.refl _
      · exact k5
    intro k9
    clear_value x6
    refine KEdit.mk ?_
    refine KSnd2.get ?_
    refine KSnd2.mk ?_
    refine Keeps.trans ?_ (State.fadd_keeps _ _ _ _)
    exact k9
  · rename_i z10
    refine KEdit.ite ?_ ?_
    · refine KEdit.fail ?_
      refine Keeps.trans ?_ (State.nomem_keeps _ _)
      exact Keeps.refl _
    · split
      · rename_i z11 z12 z13 z14
        refine KEdit.cut (b := z13) ?_ ?_
        · refine KSnd.eq z14 ?_
          refine KSnd.trans ?_ (State.pickId_keeps _ _ _)
          exact k1
        intro k15
        extract_lets +onlyGivenNames x16
        refine KEdit.cut (b := x16) ?_ ?_
        · unfold x16
          refine Keeps.trans ?_ (State.modPfx_keeps _ _ _)
          exact k15
        intro k17
        clear_value x16
        extract_lets +onlyGivenNames x18
        refine KEdit.cut (b := x18) ?_ ?_
        · unfold x18
          refine Keeps.foldl _ _ (fun s19 y20 => ?_) ?_
          · refine Keeps.trans ?_ (State.modPage_keeps _ _ _ _)
            exact Keeps.refl _
          · exact k17
        intro k21
        clear_value x18
        extract_lets +onlyGivenNames x22
        refine KEdit.cut (b := x22) ?_ ?_
        · unfold x22
          refine Keeps.trans ?_ (State.addHold_keeps _ _ _)
          exact k21
        intro k23
        clear_value x22
        extract_lets +onlyGivenNames x24
        refine KEdit.cut (b := x24) ?_ ?_
        · unfold x24
          refine Keeps.ite ?_ ?_
          · refine Keeps.trans ?_ (State.fadd_keeps _ _ _ _)
            exact k23
          · refine Keeps.trans ?_ (State.treeInsert_keeps _ _ _ _)
            exact k23
        intro k25
        clear_value x24
        refine KEdit.mk ?_
        exact k25

theorem State.finishChunk_keeps (s0 : State) (d slot : Nat) (e : SeqSlot) (hit : Option Nat) (rec0 : Chunk) (tick : Nat) : KEdit 0xC000038A (fun r => r.s) s0 (State.finishChunk s0 d slot e hit rec0 tick) := by
  unfold State.finishChunk
  refine KEdit.bind (g := (fun (r : Nat × List Nat × Sys2Proof.Machine.State) => r.2.2)) ?_ ?_
  · refine KEdit.trans ?_ (State.chunkFor_keeps _ _ _ _ _ _)
    exact Keeps.refl _
  rintro ⟨b0, b1, b2⟩ k3
  split
  · rename_i z4 z5 z6 z7 z8
    refine KEdit.cut (b := z7) ?_ ?_
    · refine KSnd2.eq z8 ?_
      refine KSnd2.mk ?_
      exact k3
    intro k9
    extract_lets +onlyGivenNames x10
    extract_lets +onlyGivenNames x11
    refine KEdit.bind (g := (fun (r : Sys2Proof.Machine.State) => r)) ?_ ?_
    · refine KEdit.tr ?_ (State.newVersion_keeps _ _ _ _ _ _ _ ?_)
      · exact Keeps.refl _
      · exact k9
    rintro b12 k13
    extract_lets +onlyGivenNames x14
    refine KEdit.cut (b := x14) ?_ ?_
    · unfold x14
      refine Keeps.foldl _ _ (fun s15 y16 => ?_) ?_
      · refine Keeps.trans ?_ (State.dropRef_keeps _ _ _)
        exact Keeps.refl _
      · exact k13
    intro k17
    clear_value x14
    extract_lets +onlyGivenNames x18
    refine KEdit.cut (b := x18) ?_ ?_
    · unfold x18
      refine Keeps.trans ?_ (State.modPfx_keeps _ _ _)
      exact k17
    intro k19
    clear_value x18
    extract_lets +onlyGivenNames x20
    refine KEdit.cut (b := x20) ?_ ?_
    · unfold x20
      refine Keeps.trans ?_ (State.startSeals_keeps _ _ _)
      exact k19
    intro k21
    clear_value x20
    refine KEdit.mk ?_
    exact k21

theorem State.completeChunk_keeps (s0 : State) (d slot : Nat) : KEdit 0xC000038A (fun r => r.s) s0 (State.completeChunk s0 d slot) := by
  unfold State.completeChunk
  extract_lets +onlyGivenNames x0
  refine KEdit.cut (b := x0) ?_ ?_
  · unfold x0
    exact Keeps.refl _
  intro k1
  split
  · rename_i z2 z3
    refine KEdit.fail ?_
    exact k1
  · rename_i z4 z5 z6
    extract_lets +onlyGivenNames x7
    extract_lets +onlyGivenNames x8
    extract_lets +onlyGivenNames x9
    extract_lets +onlyGivenNames x10
    extract_lets +onlyGivenNames x11
    extract_lets +onlyGivenNames x12
    extract_lets +onlyGivenNames x13
    extract_lets +onlyGivenNames x14
    extract_lets +onlyGivenNames x15
    split
    · rename_i z16 z17 z18 z19
      refine KEdit.cut (b := z18) ?_ ?_
      · refine KSnd.eq z19 ?_
        refine KSnd.ite ?_ ?_
        · refine KSnd.mk ?_
          exact k1
        · refine KSnd.trans ?_ (State.treeSearch_keeps _ _ _ _ _ _)
          exact k1
      intro k20
      refine KEdit.trans ?_ (State.finishChunk_keeps _ _ _ _ _ _ _)
      exact k20

theorem State.staleFlash_keeps (s : State) (d id : Nat) : Keeps 0x200000500 s (State.staleFlash s d id) := by
  unfold State.staleFlash
  split
  · rename_i z0 z1 z2
    refine Keeps.ite ?_ ?_
    · refine Keeps.trans ?_ (State.freeFlash_keeps _ _ _)
      exact Keeps.refl _
    · exact Keeps.refl _
  · rename_i z3 z4
    exact Keeps.refl _

theorem State.finishEdit_keeps (d q : Nat) (desc : Option (Nat × Nat × Nat)) (j : Nat) (r : EditOk) :
    Keeps 0x6A440AFEB r.s (State.finishEdit d q desc j r) := by
  unfold State.finishEdit
  extract_lets u v p
  have hu : Keeps 0x6A440AFEB r.s u := (State.repinSeq_keeps _ _ _).mono
  have hv : Keeps 0x6A440AFEB r.s v := by
    unfold v
    split
    · exact hu.trans (State.startSeals_keeps _ _ _)
    · exact hu
  clear_value v
  refine Keeps.ite ((hv.trans (State.addTask_keeps _ _ _)).trans (State.resumeTasks_keeps _ _)) ?_
  split
  · exact hv.trans (State.complete_keeps _ _ _ _ _)
  · exact hv

theorem State.stopEdit_keeps {m : Nat} {a : State} (s : State) (d q : Nat) (desc : Option (Nat × Nat × Nat)) (edit : Edit) (x : EditStop)
    (h : Keeps m a s) (k : KStop m a x) (hm : 0x4A440ABEB ||| m = m := by first | decide | exact Nat.or_self _ | (rw [Fld.nth_bit]; decide) | (rw [faultsFld_bit]; decide) | (rw [atmLo_bit1]; decide) | (rw [atmLo_bit2]; decide) | exact orSelf _ _ | exact orRight _ (by decide) | exact orRight _ (orSelf _ _) | exact orRight _ (orRight _ (by decide)) | exact orBoth _ (by decide) | exact Fld.bit_top _ | exact Fld.bit_regs _ | exact Fld.bit_top2 _ _ (by decide) | exact orSub (by assumption) (by decide) | (split <;> decide)) : Keeps m a (State.stopEdit s d q desc edit x) := by
  unfold State.stopEdit
  split
  · split
    · exact Keeps.trans k (State.complete_keeps _ _ _ _ _)
    · exact k
  · extract_lets u
    refine Keeps.cut (b := u) (Keeps.foldl _ _ (fun t y => (State.stageIn_keeps _ _ _ _).mono) h) ?_
    intro g
    clear_value u
    split
    · exact g.trans (State.modPfx_keeps _ _ _)
    · exact g

theorem State.append_keeps (s0 : State) (d slot l pos : Nat) (toks : List Nat) (data : List (List Nat)) : KEdit 0x28400850A (fun r => r.s) s0 (State.append s0 d slot l pos toks data) := by
  unfold State.append
  extract_lets +onlyGivenNames x0
  refine KEdit.cut (b := x0) ?_ ?_
  · unfold x0
    exact Keeps.refl _
  intro k1
  clear_value x0
  split
  · rename_i z2 z3
    refine KEdit.fail ?_
    exact k1
  · rename_i z4 z5 z6
    split
    · rename_i z7 z8
      refine KEdit.fail ?_
      exact k1
    · rename_i z9 z10 z11
      extract_lets +onlyGivenNames x12
      refine KEdit.ite ?_ ?_
      · refine KEdit.fail ?_
        exact k1
      · refine KEdit.ite ?_ ?_
        · refine KEdit.fail ?_
          exact k1
        · extract_lets +onlyGivenNames x13
          extract_lets +onlyGivenNames x14
          refine KEdit.ite ?_ ?_
          · refine KEdit.fail ?_
            refine Keeps.trans ?_ (State.tokenMiss_keeps _ _)
            exact k1
          · extract_lets +onlyGivenNames x15
            extract_lets +onlyGivenNames x16
            refine KEdit.ite ?_ ?_
            · refine KEdit.fail ?_
              exact k1
            · extract_lets +onlyGivenNames x17
              extract_lets +onlyGivenNames x18
              extract_lets +onlyGivenNames x19
              extract_lets +onlyGivenNames x20
              extract_lets +onlyGivenNames x21
              refine KEdit.cut (b := x21) ?_ ?_
              · unfold x21
                refine Keeps.ite ?_ ?_
                · exact k1
                · refine Keeps.trans ?_ (State.staleFlash_keeps _ _ _)
                  exact k1
              intro k22
              clear_value x21
              extract_lets +onlyGivenNames x23
              extract_lets +onlyGivenNames x24
              extract_lets +onlyGivenNames x25
              extract_lets +onlyGivenNames x26
              refine KEdit.ite ?_ ?_
              · refine KEdit.bind (g := (fun _ => s0)) ?_ ?_
                · refine State.mustRead_keeps _ _ _ ?_
                  exact k1
                rintro b27 k28
                unfold x26
                refine KEdit.bind (g := (fun _ => s0)) ?_ ?_
                · refine State.quotaFirst_keeps _ _ _ _ ?_
                  exact k28
                rintro b29 k30
                refine KEdit.bind (g := (fun (r : Nat × Sys2Proof.Machine.State) => r.2)) ?_ ?_
                · refine KEdit.ite ?_ ?_
                  · refine KEdit.bind (g := (fun (r : Nat × Sys2Proof.Machine.State) => r.2)) ?_ ?_
                    · refine liftAlloc_keeps _ _ _ ?_ ?_
                      · exact k28
                      · refine KExc.trans ?_ (State.newPage_keeps _ _ _ _)
                        exact k1
                    rintro ⟨b34, b35⟩ k36
                    split
                    · rename_i z37 z38 z39 z40
                      refine KEdit.cut (b := z39) ?_ ?_
                      · refine KSnd.eq z40 ?_
                        refine KSnd.mk ?_
                        exact k36
                      intro k41
                      refine KEdit.mk ?_
                      refine KSnd.get ?_
                      refine KSnd.mk ?_
                      refine Keeps.trans ?_ (State.addRef_keeps _ _ _)
                      exact k41
                  · refine KEdit.bind (g := (fun (r : Sys2Proof.Machine.State) => r)) ?_ ?_
                    · refine liftAlloc_keeps _ _ _ ?_ ?_
                      · exact k28
                      · refine KExc.trans ?_ (State.growPage_keeps _ _ _ _)
                        exact k22
                    rintro b42 k43
                    extract_lets +onlyGivenNames x44
                    refine KEdit.cut (b := x44) ?_ ?_
                    · unfold x44
                      refine Keeps.trans ?_ (State.modPage_keeps _ _ _ _)
                      exact k43
                    intro k45
                    clear_value x44
                    refine KEdit.mk ?_
                    exact k45
                rintro ⟨b31, b32⟩ k33
                split
                · rename_i z46 z47 z48 z49
                  refine KEdit.cut (b := z48) ?_ ?_
                  · refine KSnd.eq z49 ?_
                    refine KSnd.mk ?_
                    exact k33
                  intro k50
                  extract_lets +onlyGivenNames x51
                  refine KEdit.bind (g := (fun (r : Sys2Proof.Machine.LayerEnt × List Nat × Sys2Proof.Machine.State) => r.2.2)) ?_ ?_
                  · refine KEdit.ite ?_ ?_
                    · refine KEdit.mk ?_
                      exact k50
                    · refine KEdit.bind (g := (fun (r : Nat × Sys2Proof.Machine.State) => r.2)) ?_ ?_
                      · refine liftAlloc_keeps _ _ _ ?_ ?_
                        · exact k28
                        · refine KExc.trans ?_ (State.newPage_keeps _ _ _ _)
                          exact k50
                      rintro ⟨b56, b57⟩ k58
                      split
                      · rename_i z59 z60 z61 z62
                        refine KEdit.cut (b := z61) ?_ ?_
                        · refine KSnd.eq z62 ?_
                          refine KSnd.mk ?_
                          exact k58
                        intro k63
                        refine KEdit.mk ?_
                        refine KSnd2.get ?_
                        refine KSnd2.mk ?_
                        refine Keeps.trans ?_ (State.addRef_keeps _ _ _)
                        exact k63
                  rintro ⟨b52, b53, b54⟩ k55
                  split
                  · rename_i z64 z65 z66 z67 z68
                    refine KEdit.cut (b := z67) ?_ ?_
                    · refine KSnd2.eq z68 ?_
                      refine KSnd2.mk ?_
                      exact k55
                    intro k69
                    extract_lets +onlyGivenNames x70
                    extract_lets +onlyGivenNames x71
                    refine KEdit.cut (b := x71) ?_ ?_
                    · unfold x71
                      refine Keeps.trans ?_ (State.setSlot_keeps _ _ _ _)
                      exact k69
                    intro k72
                    clear_value x71
                    refine KEdit.mk ?_
                    refine EditOk.keeps ?_
                    refine Keeps.trans ?_ (State.hbmWrite_keeps _ _ _ _)
                    exact k72
              · unfold x26
                refine KEdit.bind (g := (fun _ => s0)) ?_ ?_
                · refine State.quotaFirst_keeps _ _ _ _ ?_
                  exact Keeps.refl _
                rintro b73 k74
                refine KEdit.bind (g := (fun (r : Nat × Sys2Proof.Machine.State) => r.2)) ?_ ?_
                · refine KEdit.ite ?_ ?_
                  · refine KEdit.bind (g := (fun (r : Nat × Sys2Proof.Machine.State) => r.2)) ?_ ?_
                    · refine liftAlloc_keeps _ _ _ ?_ ?_
                      · exact k74
                      · refine KExc.trans ?_ (State.newPage_keeps _ _ _ _)
                        exact k1
                    rintro ⟨b78, b79⟩ k80
                    split
                    · rename_i z81 z82 z83 z84
                      refine KEdit.cut (b := z83) ?_ ?_
                      · refine KSnd.eq z84 ?_
                        refine KSnd.mk ?_
                        exact k80
                      intro k85
                      refine KEdit.mk ?_
                      refine KSnd.get ?_
                      refine KSnd.mk ?_
                      refine Keeps.trans ?_ (State.addRef_keeps _ _ _)
                      exact k85
                  · refine KEdit.bind (g := (fun (r : Sys2Proof.Machine.State) => r)) ?_ ?_
                    · refine liftAlloc_keeps _ _ _ ?_ ?_
                      · exact k74
                      · refine KExc.trans ?_ (State.growPage_keeps _ _ _ _)
                        exact k22
                    rintro b86 k87
                    extract_lets +onlyGivenNames x88
                    refine KEdit.cut (b := x88) ?_ ?_
                    · unfold x88
                      refine Keeps.trans ?_ (State.modPage_keeps _ _ _ _)
                      exact k87
                    intro k89
                    clear_value x88
                    refine KEdit.mk ?_
                    exact k89
                rintro ⟨b75, b76⟩ k77
                split
                · rename_i z90 z91 z92 z93
                  refine KEdit.cut (b := z92) ?_ ?_
                  · refine KSnd.eq z93 ?_
                    refine KSnd.mk ?_
                    exact k77
                  intro k94
                  extract_lets +onlyGivenNames x95
                  refine KEdit.bind (g := (fun (r : Sys2Proof.Machine.LayerEnt × List Nat × Sys2Proof.Machine.State) => r.2.2)) ?_ ?_
                  · refine KEdit.ite ?_ ?_
                    · refine KEdit.mk ?_
                      exact k94
                    · refine KEdit.bind (g := (fun (r : Nat × Sys2Proof.Machine.State) => r.2)) ?_ ?_
                      · refine liftAlloc_keeps _ _ _ ?_ ?_
                        · exact k74
                        · refine KExc.trans ?_ (State.newPage_keeps _ _ _ _)
                          exact k94
                      rintro ⟨b100, b101⟩ k102
                      split
                      · rename_i z103 z104 z105 z106
                        refine KEdit.cut (b := z105) ?_ ?_
                        · refine KSnd.eq z106 ?_
                          refine KSnd.mk ?_
                          exact k102
                        intro k107
                        refine KEdit.mk ?_
                        refine KSnd2.get ?_
                        refine KSnd2.mk ?_
                        refine Keeps.trans ?_ (State.addRef_keeps _ _ _)
                        exact k107
                  rintro ⟨b96, b97, b98⟩ k99
                  split
                  · rename_i z108 z109 z110 z111 z112
                    refine KEdit.cut (b := z111) ?_ ?_
                    · refine KSnd2.eq z112 ?_
                      refine KSnd2.mk ?_
                      exact k99
                    intro k113
                    extract_lets +onlyGivenNames x114
                    extract_lets +onlyGivenNames x115
                    refine KEdit.cut (b := x115) ?_ ?_
                    · unfold x115
                      refine Keeps.trans ?_ (State.setSlot_keeps _ _ _ _)
                      exact k113
                    intro k116
                    clear_value x115
                    refine KEdit.mk ?_
                    refine EditOk.keeps ?_
                    refine Keeps.trans ?_ (State.hbmWrite_keeps _ _ _ _)
                    exact k116

theorem State.writeMap_keeps (s0 : State) (d slot l pos : Nat) (data : List (List Nat)) : KEdit 0xC000038A (fun r => r.s) s0 (State.writeMap s0 d slot l pos data) := by
  unfold State.writeMap
  extract_lets +onlyGivenNames x0
  refine KEdit.cut (b := x0) ?_ ?_
  · unfold x0
    exact Keeps.refl _
  intro k1
  clear_value x0
  split
  · rename_i z2 z3
    refine KEdit.fail ?_
    exact k1
  · rename_i z4 z5 z6
    split
    · rename_i z7 z8
      refine KEdit.fail ?_
      exact k1
    · rename_i z9 z10 z11
      extract_lets +onlyGivenNames x12
      refine KEdit.ite ?_ ?_
      · refine KEdit.fail ?_
        exact k1
      · refine KEdit.ite ?_ ?_
        · extract_lets +onlyGivenNames x13
          split
          · rename_i z14 z15
            refine KEdit.fail ?_
            exact k1
          · rename_i z16 z17 z18
            extract_lets +onlyGivenNames x19
            split
            · rename_i z20 z21
              refine KEdit.fail ?_
              exact k1
            · rename_i z22 z23 z24
              refine KEdit.bind (g := (fun _ => s0)) ?_ ?_
              · refine State.mustRead_keeps _ _ _ ?_
                exact k1
              rintro b25 k26
              extract_lets +onlyGivenNames x27
              extract_lets +onlyGivenNames x28
              extract_lets +onlyGivenNames x29
              extract_lets +onlyGivenNames x30
              refine KEdit.bind (g := (fun _ => s0)) ?_ ?_
              · refine State.quotaFirst_keeps _ _ _ _ ?_
                exact k26
              rintro b31 k32
              extract_lets +onlyGivenNames x33
              extract_lets +onlyGivenNames x34
              extract_lets +onlyGivenNames x35
              refine KEdit.ite ?_ ?_
              · refine KEdit.bind (g := (fun _ => s0)) ?_ ?_
                · refine KEdit.fail ?_
                  refine Keeps.trans ?_ (State.nomem_keeps _ _)
                  exact k26
                rintro b36 k37
                unfold x35
                refine KEdit.bind (g := (fun (r : Nat × Sys2Proof.Machine.State) => r.2)) ?_ ?_
                · refine liftAlloc_keeps _ _ _ ?_ ?_
                  · exact k26
                  · refine KExc.trans ?_ (State.newPage_keeps _ _ _ _)
                    exact k1
                rintro ⟨b38, b39⟩ k40
                split
                · rename_i z41 z42 z43 z44
                  refine KEdit.cut (b := z43) ?_ ?_
                  · refine KSnd.eq z44 ?_
                    refine KSnd.mk ?_
                    exact k40
                  intro k45
                  split
                  · rename_i z46 z47 z48 z49
                    refine KEdit.cut (b := z48) ?_ ?_
                    · refine KSnd.eq z49 ?_
                      refine KSnd.trans ?_ (State.pickId_keeps _ _ _)
                      exact k45
                    intro k50
                    extract_lets +onlyGivenNames x51
                    extract_lets +onlyGivenNames x52
                    extract_lets +onlyGivenNames x53
                    refine KEdit.cut (b := x53) ?_ ?_
                    · unfold x53
                      refine Keeps.trans ?_ (State.modPfx_keeps _ _ _)
                      exact k50
                    intro k54
                    clear_value x53
                    extract_lets +onlyGivenNames x55
                    refine KEdit.cut (b := x55) ?_ ?_
                    · unfold x55
                      refine Keeps.trans ?_ (State.addHold_keeps _ _ _)
                      refine Keeps.trans ?_ (State.modPage_keeps _ _ _ _)
                      exact k54
                    intro k56
                    clear_value x55
                    extract_lets +onlyGivenNames x57
                    refine KEdit.bind (g := (fun (r : Sys2Proof.Machine.State) => r)) ?_ ?_
                    · refine KEdit.tr ?_ (State.newVersion_keeps _ _ _ _ _ _ _ ?_)
                      · exact k26
                      · exact k56
                    rintro b58 k59
                    extract_lets +onlyGivenNames x60
                    refine KEdit.cut (b := x60) ?_ ?_
                    · unfold x60
                      refine Keeps.trans ?_ (State.dropHold_keeps _ _ _)
                      exact k59
                    intro k61
                    clear_value x60
                    extract_lets +onlyGivenNames x62
                    refine KEdit.cut (b := x62) ?_ ?_
                    · unfold x62
                      refine Keeps.trans ?_ (State.countSeal_keeps _ _ _ _ _)
                      exact k61
                    intro k63
                    clear_value x62
                    refine KEdit.mk ?_
                    refine EditOk.keeps ?_
                    refine Keeps.trans ?_ (State.fadd_keeps _ _ _ _)
                    exact k63
              · unfold x35
                refine KEdit.bind (g := (fun (r : Nat × Sys2Proof.Machine.State) => r.2)) ?_ ?_
                · refine liftAlloc_keeps _ _ _ ?_ ?_
                  · exact k26
                  · refine KExc.trans ?_ (State.newPage_keeps _ _ _ _)
                    exact k1
                rintro ⟨b64, b65⟩ k66
                split
                · rename_i z67 z68 z69 z70
                  refine KEdit.cut (b := z69) ?_ ?_
                  · refine KSnd.eq z70 ?_
                    refine KSnd.mk ?_
                    exact k66
                  intro k71
                  split
                  · rename_i z72 z73 z74 z75
                    refine KEdit.cut (b := z74) ?_ ?_
                    · refine KSnd.eq z75 ?_
                      refine KSnd.trans ?_ (State.pickId_keeps _ _ _)
                      exact k71
                    intro k76
                    extract_lets +onlyGivenNames x77
                    extract_lets +onlyGivenNames x78
                    extract_lets +onlyGivenNames x79
                    refine KEdit.cut (b := x79) ?_ ?_
                    · unfold x79
                      refine Keeps.trans ?_ (State.modPfx_keeps _ _ _)
                      exact k76
                    intro k80
                    clear_value x79
                    extract_lets +onlyGivenNames x81
                    refine KEdit.cut (b := x81) ?_ ?_
                    · unfold x81
                      refine Keeps.trans ?_ (State.addHold_keeps _ _ _)
                      refine Keeps.trans ?_ (State.modPage_keeps _ _ _ _)
                      exact k80
                    intro k82
                    clear_value x81
                    extract_lets +onlyGivenNames x83
                    refine KEdit.bind (g := (fun (r : Sys2Proof.Machine.State) => r)) ?_ ?_
                    · refine KEdit.tr ?_ (State.newVersion_keeps _ _ _ _ _ _ _ ?_)
                      · exact k26
                      · exact k82
                    rintro b84 k85
                    extract_lets +onlyGivenNames x86
                    refine KEdit.cut (b := x86) ?_ ?_
                    · unfold x86
                      refine Keeps.trans ?_ (State.dropHold_keeps _ _ _)
                      exact k85
                    intro k87
                    clear_value x86
                    extract_lets +onlyGivenNames x88
                    refine KEdit.cut (b := x88) ?_ ?_
                    · unfold x88
                      refine Keeps.trans ?_ (State.countSeal_keeps _ _ _ _ _)
                      exact k87
                    intro k89
                    clear_value x88
                    refine KEdit.mk ?_
                    refine EditOk.keeps ?_
                    refine Keeps.trans ?_ (State.fadd_keeps _ _ _ _)
                    exact k89
        · extract_lets +onlyGivenNames x90
          extract_lets +onlyGivenNames x91
          extract_lets +onlyGivenNames x92
          split
          · rename_i z93 z94
            refine KEdit.fail ?_
            exact k1
          · rename_i z95 z96 z97
            refine KEdit.bind (g := (fun _ => s0)) ?_ ?_
            · refine State.mustRead_keeps _ _ _ ?_
              exact k1
            rintro b98 k99
            extract_lets +onlyGivenNames x100
            refine KEdit.bind (g := (fun (r : Nat × Sys2Proof.Machine.State) => r.2)) ?_ ?_
            · refine liftAlloc_keeps _ _ _ ?_ ?_
              · exact k99
              · refine KExc.trans ?_ (State.newPage_keeps _ _ _ _)
                exact k1
            rintro ⟨b101, b102⟩ k103
            split
            · rename_i z104 z105 z106 z107
              refine KEdit.cut (b := z106) ?_ ?_
              · refine KSnd.eq z107 ?_
                refine KSnd.mk ?_
                exact k103
              intro k108
              extract_lets +onlyGivenNames x109
              refine KEdit.cut (b := x109) ?_ ?_
              · unfold x109
                refine Keeps.trans ?_ (State.addRef_keeps _ _ _)
                exact k108
              intro k110
              clear_value x109
              extract_lets +onlyGivenNames x111
              refine KEdit.cut (b := x111) ?_ ?_
              · unfold x111
                refine Keeps.ite ?_ ?_
                · refine Keeps.trans ?_ (State.dropSeal_keeps _ _ _)
                  exact k110
                · exact k110
              intro k112
              clear_value x111
              extract_lets +onlyGivenNames x113
              extract_lets +onlyGivenNames x114
              refine KEdit.bind (g := (fun (r : Sys2Proof.Machine.State) => r)) ?_ ?_
              · refine KEdit.tr ?_ (State.newVersion_keeps _ _ _ _ _ _ _ ?_)
                · exact k99
                · exact k112
              rintro b115 k116
              refine KEdit.mk ?_
              refine EditOk.keeps ?_
              refine Keeps.trans ?_ (State.fadd_keeps _ _ _ _)
              refine Keeps.trans ?_ (State.dropRef_keeps _ _ _)
              exact k116

theorem State.tailPages_keeps {m : Nat} (s0 s : State) (d ctx : Nat) (c : Ctx) (q l base : Nat) (pos : List Pos) (h0 : Keeps m s0 s) (hm : 0x8000010A ||| m = m := by first | decide | exact Nat.or_self _ | (rw [Fld.nth_bit]; decide) | (rw [faultsFld_bit]; decide) | (rw [atmLo_bit1]; decide) | (rw [atmLo_bit2]; decide) | exact orSelf _ _ | exact orRight _ (by decide) | exact orRight _ (orSelf _ _) | exact orRight _ (orRight _ (by decide)) | exact orBoth _ (by decide) | exact Fld.bit_top _ | exact Fld.bit_regs _ | exact Fld.bit_top2 _ _ (by decide) | exact orSub (by assumption) (by decide) | (split <;> decide)) : KEdit m (fun r => r.2.2) s0 (State.tailPages s0 s d ctx c q l base pos) := by
  unfold State.tailPages
  refine KEdit.bind (g := (fun (r : Nat × Sys2Proof.Machine.State) => r.2)) ?_ ?_
  · refine KEdit.ite ?_ ?_
    · refine KEdit.bind (g := (fun (r : Nat × Sys2Proof.Machine.State) => r.2)) ?_ ?_
      · refine liftAlloc_keeps _ _ _ ?_ ?_
        · exact Keeps.refl _
        · refine KExc.trans ?_ (State.newPage_keeps _ _ _ _)
          exact h0
      rintro ⟨b3, b4⟩ k5
      split
      · rename_i z6 z7 z8 z9
        refine KEdit.cut (b := z8) ?_ ?_
        · refine KSnd.eq z9 ?_
          refine KSnd.mk ?_
          exact k5
        intro k10
        refine KEdit.mk ?_
        refine KSnd.get ?_
        refine KSnd.mk ?_
        refine Keeps.trans ?_ (State.addRef_keeps _ _ _)
        exact k10
    · refine KEdit.mk ?_
      exact h0
  rintro ⟨b0, b1⟩ k2
  split
  · rename_i z11 z12 z13 z14
    refine KEdit.cut (b := z13) ?_ ?_
    · refine KSnd.eq z14 ?_
      refine KSnd.mk ?_
      exact k2
    intro k15
    extract_lets +onlyGivenNames x16
    refine KEdit.bind (g := (fun (r : Nat × Sys2Proof.Machine.State) => r.2)) ?_ ?_
    · refine KEdit.ite ?_ ?_
      · refine KEdit.mk ?_
        exact k15
      · extract_lets +onlyGivenNames x20
        refine KEdit.bind (g := (fun (r : Nat × Sys2Proof.Machine.State) => r.2)) ?_ ?_
        · refine liftAlloc_keeps _ _ _ ?_ ?_
          · exact Keeps.refl _
          · refine KExc.trans ?_ (State.newPage_keeps _ _ _ _)
            exact k15
        rintro ⟨b21, b22⟩ k23
        split
        · rename_i z24 z25 z26 z27
          refine KEdit.cut (b := z26) ?_ ?_
          · refine KSnd.eq z27 ?_
            refine KSnd.mk ?_
            exact k23
          intro k28
          refine KEdit.mk ?_
          refine KSnd.get ?_
          refine KSnd.mk ?_
          refine Keeps.trans ?_ (State.addRef_keeps _ _ _)
          exact k28
    rintro ⟨b17, b18⟩ k19
    split
    · rename_i z29 z30 z31 z32
      refine KEdit.cut (b := z31) ?_ ?_
      · refine KSnd.eq z32 ?_
        refine KSnd.mk ?_
        exact k19
      intro k33
      refine KEdit.mk ?_
      exact k33

theorem State.tailLayers_keeps {m : Nat} (s0 : State) (d ctx : Nat) (c : Ctx) (q base : Nat) (w0 : List (Nat × List Pos)) (w1 : State) (h0 : Keeps m s0 w1) (hm : 0x8000010A ||| m = m := by first | decide | exact Nat.or_self _ | (rw [Fld.nth_bit]; decide) | (rw [faultsFld_bit]; decide) | (rw [atmLo_bit1]; decide) | (rw [atmLo_bit2]; decide) | exact orSelf _ _ | exact orRight _ (by decide) | exact orRight _ (orSelf _ _) | exact orRight _ (orRight _ (by decide)) | exact orBoth _ (by decide) | exact Fld.bit_top _ | exact Fld.bit_regs _ | exact Fld.bit_top2 _ _ (by decide) | exact orSub (by assumption) (by decide) | (split <;> decide)) : KEdit m (fun r => r.2.2) s0 (State.tailLayers s0 d ctx c q base w0 w1) := by
  induction w0 generalizing s0 d ctx c q base w1 with
  | nil =>
    unfold State.tailLayers
    refine KEdit.mk ?_
    exact h0
  | cons hd0 tl0 ih =>
    unfold State.tailLayers
    refine KEdit.bind (g := (fun (r : Sys2Proof.Machine.LayerEnt × List Nat × Sys2Proof.Machine.State) => r.2.2)) ?_ ?_
    · refine KEdit.tr ?_ (State.tailPages_keeps _ _ _ _ _ _ _ _ _ ?_)
      · exact Keeps.refl _
      · exact h0
    rintro ⟨b0, b1, b2⟩ k3
    split
    · rename_i z4 z5 z6 z7 z8
      refine KEdit.cut (b := z7) ?_ ?_
      · refine KSnd2.eq z8 ?_
        refine KSnd2.mk ?_
        exact k3
      intro k9
      refine KEdit.bind (g := (fun (r : List Sys2Proof.Machine.LayerEnt × List Nat × Sys2Proof.Machine.State) => r.2.2)) ?_ ?_
      · refine ih _ _ _ _ _ _ _ ?_
        exact k9
      rintro ⟨b10, b11, b12⟩ k13
      split
      · rename_i z14 z15 z16 z17 z18
        refine KEdit.cut (b := z17) ?_ ?_
        · refine KSnd2.eq z18 ?_
          refine KSnd2.mk ?_
          exact k13
        intro k19
        refine KEdit.mk ?_
        exact k19

theorem State.countSat_keeps (s : State) (d n : Nat) : Keeps 0x80000008 s (State.countSat s d n) := by
  unfold State.countSat
  refine Keeps.ite ?_ ?_
  · exact Keeps.refl _
  · refine Keeps.trans ?_ (State.evtDie_keeps _ _ _)
    refine Keeps.trans ?_ (State.fadd_keeps _ _ _ _)
    exact Keeps.refl _

theorem State.cutLayer_keeps {m : Nat} (s0 s : State) (d ctx : Nat) (c : Ctx) (q base l keep : Nat) (x : LayerEnt) (h0 : Keeps m s0 s) (hm : 0xC000038A ||| m = m := by first | decide | exact Nat.or_self _ | (rw [Fld.nth_bit]; decide) | (rw [faultsFld_bit]; decide) | (rw [atmLo_bit1]; decide) | (rw [atmLo_bit2]; decide) | exact orSelf _ _ | exact orRight _ (by decide) | exact orRight _ (orSelf _ _) | exact orRight _ (orRight _ (by decide)) | exact orBoth _ (by decide) | exact Fld.bit_top _ | exact Fld.bit_regs _ | exact Fld.bit_top2 _ _ (by decide) | exact orSub (by assumption) (by decide) | (split <;> decide)) :
    KEdit m (fun r => r.2.2) s0 (State.cutLayer s0 s d ctx c q base l keep x) := by
  unfold State.cutLayer
  extract_lets posOf rest src drop
  have hd : ∀ t, Keeps m t (drop t) := by
    intro t
    unfold drop
    extract_lets t1 t2
    have h1 : Keeps m t t1 := Keeps.ite (State.dropSeal_keeps _ _ _).mono (Keeps.refl _)
    have h2 : Keeps m t t2 := Keeps.ite (h1.trans (State.dropRef_keeps _ _ _)) h1
    exact Keeps.ite (h2.trans (State.dropRef_keeps _ _ _)) h2
  clear_value drop rest src
  have hp (n : Nat) (p : Page) : KExc m (fun (r : Nat × State) => r.2) s0 (s.newPage d n p) := KExc.trans h0 (State.newPage_keeps _ _ _ _)
  split
  all_goals split
  · exact h0.trans (State.dropRef_keeps _ _ _)
  · refine KEdit.bind (g := fun (r : Nat × State) => r.2) (liftAlloc_keeps _ _ _ (Keeps.refl _) (hp _ _)) ?_
    rintro ⟨id, t⟩ k
    exact (Keeps.trans k (State.addRef_keeps _ _ _)).trans (State.dropRef_keeps _ _ _)
  · exact h0.tr (hd _)
  · refine KEdit.bind (g := fun (r : Nat × State) => r.2) (liftAlloc_keeps _ _ _ (Keeps.refl _) (hp _ _)) ?_
    rintro ⟨id, t⟩ k
    exact (Keeps.trans k (State.addRef_keeps _ _ _)).tr (hd _)

theorem State.cutLayers_keeps {m : Nat} (s0 : State) (d ctx : Nat) (c : Ctx) (q base keep : Nat) (w0 : List (Nat × LayerEnt)) (w1 : State) (h0 : Keeps m s0 w1) (hm : 0xC000038A ||| m = m := by first | decide | exact Nat.or_self _ | (rw [Fld.nth_bit]; decide) | (rw [faultsFld_bit]; decide) | (rw [atmLo_bit1]; decide) | (rw [atmLo_bit2]; decide) | exact orSelf _ _ | exact orRight _ (by decide) | exact orRight _ (orSelf _ _) | exact orRight _ (orRight _ (by decide)) | exact orBoth _ (by decide) | exact Fld.bit_top _ | exact Fld.bit_regs _ | exact Fld.bit_top2 _ _ (by decide) | exact orSub (by assumption) (by decide) | (split <;> decide)) : KEdit m (fun r => r.2.2) s0 (State.cutLayers s0 d ctx c q base keep w0 w1) := by
  induction w0 generalizing s0 d ctx c q base keep w1 with
  | nil =>
    unfold State.cutLayers
    refine KEdit.mk ?_
    exact h0
  | cons hd0 tl0 ih =>
    unfold State.cutLayers
    extract_lets +onlyGivenNames x0
    refine KEdit.bind (g := (fun (r : Sys2Proof.Machine.LayerEnt × List Nat × Sys2Proof.Machine.State) => r.2.2)) ?_ ?_
    · refine KEdit.ite ?_ ?_
      · refine KEdit.mk ?_
        exact h0
      · refine KEdit.tr ?_ (State.cutLayer_keeps _ _ _ _ _ _ _ _ _ _ ?_)
        · exact Keeps.refl _
        · exact h0
    rintro ⟨b1, b2, b3⟩ k4
    split
    · rename_i z5 z6 z7 z8 z9
      refine KEdit.cut (b := z8) ?_ ?_
      · refine KSnd2.eq z9 ?_
        refine KSnd2.mk ?_
        exact k4
      intro k10
      refine KEdit.bind (g := (fun (r : List Sys2Proof.Machine.LayerEnt × List Nat × Sys2Proof.Machine.State) => r.2.2)) ?_ ?_
      · refine ih _ _ _ _ _ _ _ _ ?_
        exact k10
      rintro ⟨b11, b12, b13⟩ k14
      split
      · rename_i z15 z16 z17 z18 z19
        refine KEdit.cut (b := z18) ?_ ?_
        · refine KSnd2.eq z19 ?_
          refine KSnd2.mk ?_
          exact k14
        intro k20
        refine KEdit.mk ?_
        exact k20

theorem State.truncate_keeps (s0 : State) (d slot n : Nat) : KEdit 0xC000038A (fun r => r.s) s0 (State.truncate s0 d slot n) := by
  unfold State.truncate
  extract_lets +onlyGivenNames x0
  refine KEdit.cut (b := x0) ?_ ?_
  · unfold x0
    exact Keeps.refl _
  intro k1
  clear_value x0
  split
  · rename_i z2 z3
    refine KEdit.fail ?_
    exact k1
  · rename_i z4 z5 z6
    split
    · rename_i z7 z8
      refine KEdit.fail ?_
      exact k1
    · rename_i z9 z10 z11
      extract_lets +onlyGivenNames x12
      refine KEdit.ite ?_ ?_
      · refine KEdit.mk ?_
        exact k1
      · refine KEdit.ite ?_ ?_
        · extract_lets +onlyGivenNames x13
          extract_lets +onlyGivenNames x14
          refine KEdit.bind (g := (fun _ => s0)) ?_ ?_
          · refine State.mustRead_keeps _ _ _ ?_
            exact Keeps.refl _
          rintro b15 k16
          refine KEdit.bind (g := (fun _ => s0)) ?_ ?_
          · refine State.quotaFirst_keeps _ _ _ _ ?_
            exact k16
          rintro b17 k18
          refine KEdit.bind (g := (fun (r : List Sys2Proof.Machine.LayerEnt × List Nat × Sys2Proof.Machine.State) => r.2.2)) ?_ ?_
          · refine KEdit.tr ?_ (State.cutLayers_keeps _ _ _ _ _ _ _ _ _ ?_)
            · exact k16
            · exact k1
          rintro ⟨b19, b20, b21⟩ k22
          split
          · rename_i z23 z24 z25 z26 z27
            refine KEdit.cut (b := z26) ?_ ?_
            · refine KSnd2.eq z27 ?_
              refine KSnd2.mk ?_
              exact k22
            intro k28
            extract_lets +onlyGivenNames x29
            extract_lets +onlyGivenNames x30
            extract_lets +onlyGivenNames x31
            refine KEdit.bind (g := (fun (r : Sys2Proof.Machine.State) => r)) ?_ ?_
            · refine KEdit.tr ?_ (State.newVersion_keeps _ _ _ _ _ _ _ ?_)
              · exact k16
              · exact k28
            rintro b32 k33
            refine KEdit.mk ?_
            exact k33
        · extract_lets +onlyGivenNames x34
          extract_lets +onlyGivenNames x35
          extract_lets +onlyGivenNames x36
          extract_lets +onlyGivenNames x37
          split
          · rename_i z38 z39
            refine KEdit.fail ?_
            exact k1
          · rename_i z40 z41 z42
            extract_lets +onlyGivenNames x43
            refine KEdit.ite ?_ ?_
            · refine KEdit.bind (g := (fun _ => s0)) ?_ ?_
              · refine State.mustRead_keeps _ _ _ ?_
                exact k1
              rintro b44 k45
              unfold x43
              split
              · rename_i z46 z47 z48 z49
                refine KEdit.bind (g := (fun _ => s0)) ?_ ?_
                · refine State.quotaFirst_keeps _ _ _ _ ?_
                  exact k45
                rintro b50 k51
                refine KEdit.bind (g := (fun (r : List Sys2Proof.Machine.LayerEnt × List Nat × Sys2Proof.Machine.State) => r.2.2)) ?_ ?_
                · refine KEdit.tr ?_ (State.tailLayers_keeps _ _ _ _ _ _ _ _ ?_)
                  · exact k45
                  · exact k1
                rintro ⟨b52, b53, b54⟩ k55
                split
                · rename_i z56 z57 z58 z59 z60
                  refine KEdit.cut (b := z59) ?_ ?_
                  · refine KSnd2.eq z60 ?_
                    refine KSnd2.mk ?_
                    exact k55
                  intro k61
                  extract_lets +onlyGivenNames x62
                  refine KEdit.bind (g := (fun (r : Sys2Proof.Machine.State) => r)) ?_ ?_
                  · refine KEdit.tr ?_ (State.newVersion_keeps _ _ _ _ _ _ _ ?_)
                    · exact k45
                    · exact k61
                  rintro b63 k64
                  extract_lets +onlyGivenNames x65
                  refine KEdit.cut (b := x65) ?_ ?_
                  · unfold x65
                    refine Keeps.foldl _ _ (fun s66 y67 => ?_) ?_
                    · refine Keeps.trans ?_ (State.dropHold_keeps _ _ _)
                      exact Keeps.refl _
                    · exact k64
                  intro k68
                  clear_value x65
                  extract_lets +onlyGivenNames x69
                  refine KEdit.cut (b := x69) ?_ ?_
                  · unfold x69
                    refine Keeps.trans ?_ (State.dropTail_keeps _ _ _)
                    exact k68
                  intro k70
                  clear_value x69
                  refine KEdit.mk ?_
                  refine EditOk.keeps ?_
                  refine Keeps.trans ?_ (State.countSat_keeps _ _ _)
                  exact k70
            · unfold x43
              split
              · rename_i z71 z72 z73 z74
                refine KEdit.bind (g := (fun _ => s0)) ?_ ?_
                · refine State.quotaFirst_keeps _ _ _ _ ?_
                  exact Keeps.refl _
                rintro b75 k76
                refine KEdit.bind (g := (fun (r : List Sys2Proof.Machine.LayerEnt × List Nat × Sys2Proof.Machine.State) => r.2.2)) ?_ ?_
                · refine KEdit.tr ?_ (State.tailLayers_keeps _ _ _ _ _ _ _ _ ?_)
                  · exact k76
                  · exact k1
                rintro ⟨b77, b78, b79⟩ k80
                split
                · rename_i z81 z82 z83 z84 z85
                  refine KEdit.cut (b := z84) ?_ ?_
                  · refine KSnd2.eq z85 ?_
                    refine KSnd2.mk ?_
                    exact k80
                  intro k86
                  extract_lets +onlyGivenNames x87
                  refine KEdit.bind (g := (fun (r : Sys2Proof.Machine.State) => r)) ?_ ?_
                  · refine KEdit.tr ?_ (State.newVersion_keeps _ _ _ _ _ _ _ ?_)
                    · exact k76
                    · exact k86
                  rintro b88 k89
                  extract_lets +onlyGivenNames x90
                  refine KEdit.cut (b := x90) ?_ ?_
                  · unfold x90
                    refine Keeps.foldl _ _ (fun s91 y92 => ?_) ?_
                    · refine Keeps.trans ?_ (State.dropHold_keeps _ _ _)
                      exact Keeps.refl _
                    · exact k89
                  intro k93
                  clear_value x90
                  extract_lets +onlyGivenNames x94
                  refine KEdit.cut (b := x94) ?_ ?_
                  · unfold x94
                    refine Keeps.trans ?_ (State.dropTail_keeps _ _ _)
                    exact k93
                  intro k95
                  clear_value x94
                  refine KEdit.mk ?_
                  refine EditOk.keeps ?_
                  refine Keeps.trans ?_ (State.countSat_keeps _ _ _)
                  exact k95

theorem State.newSeq_keeps {m : Nat} (s0 s : State) (d q ctx : Nat) (parked : Bool) (chunks : List Nat) (tail : Tail) (h0 : Keeps m s0 s) (hm : 0x8000010A ||| m = m := by first | decide | exact Nat.or_self _ | (rw [Fld.nth_bit]; decide) | (rw [faultsFld_bit]; decide) | (rw [atmLo_bit1]; decide) | (rw [atmLo_bit2]; decide) | exact orSelf _ _ | exact orRight _ (by decide) | exact orRight _ (orSelf _ _) | exact orRight _ (orRight _ (by decide)) | exact orBoth _ (by decide) | exact Fld.bit_top _ | exact Fld.bit_regs _ | exact Fld.bit_top2 _ _ (by decide) | exact orSub (by assumption) (by decide) | (split <;> decide)) : KEdit m (fun r => r.2) s0 (State.newSeq s0 s d q ctx parked chunks tail) := by
  unfold State.newSeq
  split
  · rename_i z0 z1
    refine KEdit.fail ?_
    refine Keeps.trans ?_ (State.evtDie_keeps _ _ _)
    exact Keeps.refl _
  · rename_i z2 z3 z4
    refine KEdit.bind (g := (fun (r : List Nat × Sys2Proof.Machine.State) => r.2)) ?_ ?_
    · refine liftAlloc_keeps _ _ _ ?_ ?_
      · exact Keeps.refl _
      · refine KExc.trans ?_ (State.poolSegs_keeps _ _ _)
        exact h0
    rintro ⟨b5, b6⟩ k7
    split
    · rename_i z8 z9 z10 z11
      refine KEdit.cut (b := z10) ?_ ?_
      · refine KSnd.eq z11 ?_
        refine KSnd.mk ?_
        exact k7
      intro k12
      refine KEdit.bind (g := (fun (r : List Nat × Sys2Proof.Machine.State) => r.2)) ?_ ?_
      · refine liftAlloc_keeps _ _ _ ?_ ?_
        · exact Keeps.refl _
        · refine KExc.trans ?_ (State.poolSegs_keeps _ _ _)
          exact k12
      rintro ⟨b13, b14⟩ k15
      split
      · rename_i z16 z17 z18 z19
        refine KEdit.cut (b := z18) ?_ ?_
        · refine KSnd.eq z19 ?_
          refine KSnd.mk ?_
          exact k15
        intro k20
        extract_lets +onlyGivenNames x21
        refine KEdit.mk ?_
        refine KSnd.get ?_
        refine KSnd.mk ?_
        refine Keeps.trans ?_ (State.setSlot_keeps _ _ _ _)
        exact k20

theorem State.fork_keeps (s0 : State) (d slot q n : Nat) (parked : Bool) : KEdit 0x8000010A (fun r => r.s) s0 (State.fork s0 d slot q n parked) := by
  unfold State.fork
  extract_lets +onlyGivenNames x0
  refine KEdit.cut (b := x0) ?_ ?_
  · unfold x0
    exact Keeps.refl _
  intro k1
  clear_value x0
  split
  · rename_i z2 z3
    refine KEdit.fail ?_
    exact k1
  · rename_i z4 z5 z6
    split
    · rename_i z7 z8
      refine KEdit.fail ?_
      exact k1
    · rename_i z9 z10 z11
      refine KEdit.ite ?_ ?_
      · refine KEdit.fail ?_
        exact k1
      · extract_lets +onlyGivenNames x12
        extract_lets +onlyGivenNames x13
        extract_lets +onlyGivenNames x14
        refine KEdit.bind (g := (fun _ => s0)) ?_ ?_
        · split
          · rename_i z19 z20 z21
            split
            · rename_i z22 z23 z24
              refine KEdit.ite ?_ ?_
              · refine KEdit.mk ?_
                exact Keeps.refl _
              · refine KEdit.bind (g := (fun _ => s0)) ?_ ?_
                · refine State.mustRead_keeps _ _ _ ?_
                  exact k1
                rintro b25 k26
                extract_lets +onlyGivenNames x27
                refine KEdit.mk ?_
                exact k26
            · rename_i z28 z29
              refine KEdit.fail ?_
              exact k1
          · rename_i z30 z31
            extract_lets +onlyGivenNames x32
            extract_lets +onlyGivenNames x33
            extract_lets +onlyGivenNames x34
            refine KEdit.ite ?_ ?_
            · refine KEdit.bind (g := (fun _ => s0)) ?_ ?_
              · refine State.mustRead_keeps _ _ _ ?_
                exact k1
              rintro b35 k36
              unfold x34
              refine KEdit.mk ?_
              exact k36
            · unfold x34
              refine KEdit.mk ?_
              exact Keeps.refl _
        rintro ⟨b15, b16, b17⟩ k18
        split
        · rename_i z37 z38 z39 z40 z41
          refine KEdit.bind (g := (fun _ => s0)) ?_ ?_
          · refine State.quotaFirst_keeps _ _ _ _ ?_
            exact k18
          rintro b42 k43
          refine KEdit.bind (g := (fun (r : List Sys2Proof.Machine.LayerEnt × List Nat × Sys2Proof.Machine.State) => r.2.2)) ?_ ?_
          · refine KEdit.tr ?_ (State.tailLayers_keeps _ _ _ _ _ _ _ _ ?_)
            · exact k18
            · exact k1
          rintro ⟨b44, b45, b46⟩ k47
          split
          · rename_i z48 z49 z50 z51 z52
            refine KEdit.cut (b := z51) ?_ ?_
            · refine KSnd2.eq z52 ?_
              refine KSnd2.mk ?_
              exact k47
            intro k53
            extract_lets +onlyGivenNames x54
            refine KEdit.bind (g := (fun (r : Nat × Sys2Proof.Machine.State) => r.2)) ?_ ?_
            · refine KEdit.tr ?_ (State.newSeq_keeps _ _ _ _ _ _ _ _ ?_)
              · exact k18
              · exact k53
            rintro ⟨b55, b56⟩ k57
            split
            · rename_i z58 z59 z60 z61
              refine KEdit.cut (b := z60) ?_ ?_
              · refine KSnd.eq z61 ?_
                refine KSnd.mk ?_
                exact k57
              intro k62
              extract_lets +onlyGivenNames x63
              refine KEdit.cut (b := x63) ?_ ?_
              · unfold x63
                refine Keeps.foldl _ _ (fun s64 y65 => ?_) ?_
                · refine Keeps.trans ?_ (State.addHold_keeps _ _ _)
                  exact Keeps.refl _
                · exact k62
              intro k66
              clear_value x63
              refine KEdit.mk ?_
              refine EditOk.keeps ?_
              refine Keeps.trans ?_ (State.countSat_keeps _ _ _)
              exact k66

theorem State.freeSeq_keeps (s : State) (d slot : Nat) : Keeps 0x3404087C9 s (State.freeSeq s d slot) := by
  unfold State.freeSeq
  split
  · rename_i z0 z1
    exact Keeps.refl _
  · rename_i z2 z3 z4
    extract_lets +onlyGivenNames x5
    extract_lets +onlyGivenNames x6
    refine Keeps.cut (b := x6) ?_ ?_
    · unfold x6
      refine Keeps.trans ?_ (State.setSlot_keeps _ _ _ _)
      exact Keeps.refl _
    intro k7
    clear_value x6
    extract_lets +onlyGivenNames x8
    refine Keeps.cut (b := x8) ?_ ?_
    · unfold x8
      refine Keeps.foldl _ _ (fun s9 y10 => ?_) ?_
      · refine Keeps.trans ?_ (State.dropHold_keeps _ _ _)
        exact Keeps.refl _
      · exact k7
    intro k11
    clear_value x8
    extract_lets +onlyGivenNames x12
    refine Keeps.cut (b := x12) ?_ ?_
    · unfold x12
      refine Keeps.trans ?_ (State.dropTail_keeps _ _ _)
      exact k11
    intro k13
    clear_value x12
    extract_lets +onlyGivenNames x14
    refine Keeps.cut (b := x14) ?_ ?_
    · unfold x14
      refine Keeps.trans ?_ (State.segsToLimbo_keeps _ _ _)
      refine Keeps.trans ?_ (State.segsToLimbo_keeps _ _ _)
      exact k13
    intro k15
    clear_value x14
    extract_lets +onlyGivenNames x16
    refine Keeps.cut (b := x16) ?_ ?_
    · unfold x16
      refine Keeps.trans ?_ (State.modPfx_keeps _ _ _)
      exact k15
    intro k17
    clear_value x16
    extract_lets +onlyGivenNames x18
    refine Keeps.cut (b := x18) ?_ ?_
    · unfold x18
      refine Keeps.ite ?_ ?_
      · refine Keeps.trans ?_ (State.freeObj_keeps _ _ _ _)
        refine KSnd.get ?_
        refine KSnd.trans ?_ (State.journal_keeps _ _ _ _)
        exact k17
      · exact k17
    intro k19
    clear_value x18
    refine Keeps.trans ?_ (State.freeHints_keeps _ _ _)
    exact k19

theorem State.create_keeps (s0 : State) (d q ctx : Nat) (lookup parked : Bool) (toks : List Nat) :
    KEdit 0x8000010A (fun r => r.s) s0 (State.create s0 d q ctx lookup parked toks) := by
  unfold State.create
  extract_lets s
  split
  · exact KEdit.fail (Keeps.refl s0)
  · rename_i c _
    split
    rename_i chunks t e
    have h : Keeps 0x8000010A s0 t := by
      split at e
      · exact KSnd.eq e (State.lookupRun_keeps _ _ _ _ _ _).mono
      · cases e; exact Keeps.refl _
    extract_lets base tail
    refine KEdit.bind (g := fun (r : Nat × State) => r.2) (keepPfx_keeps (KEdit.tr h (State.newSeq_keeps _ _ _ _ _ _ _ _ (Keeps.refl _)))) ?_
    rintro ⟨k, u⟩ hu
    refine KEdit.mk ?_
    exact Keeps.foldl _ _ (fun x y => (State.addHold_keeps _ _ _).mono) hu

theorem State.applyEdit_keeps (s : State) (d slot : Nat) (w0 : Edit) : KEdit 0x3C44087CB (fun r => r.s) s (State.applyEdit s d slot w0) := by
  unfold State.applyEdit
  split
  · rename_i z0 z1 z2 z3 z4 z5
    refine KEdit.trans ?_ (State.append_keeps _ _ _ _ _ _ _)
    exact Keeps.refl _
  · rename_i z6 z7 z8 z9 z10
    refine KEdit.trans ?_ (State.writeMap_keeps _ _ _ _ _ _)
    exact Keeps.refl _
  · rename_i z11 z12 z13
    refine KEdit.trans ?_ (State.truncate_keeps _ _ _ _)
    exact Keeps.refl _
  · rename_i z14 z15 z16 z17 z18
    refine KEdit.trans ?_ (State.fork_keeps _ _ _ _ _ _)
    exact Keeps.refl _
  · rename_i z19 z20
    split
    · rename_i z21 z22
      refine KEdit.fail ?_
      exact Keeps.refl _
    · rename_i z23 z24 z25
      refine KEdit.mk ?_
      refine EditOk.keeps ?_
      refine Keeps.trans ?_ (State.freeSeq_keeps _ _ _)
      exact Keeps.refl _
  · rename_i z26 z27 z28
    refine KEdit.fail ?_
    exact Keeps.refl _

theorem State.changeClass_keeps (s : State) (d : Nat) (e : SeqSlot) (desc : Option (Nat × Nat × Nat)) (parked : Bool) : Keeps 0x204408569 s (State.changeClass s d e desc parked) := by
  unfold State.changeClass
  extract_lets +onlyGivenNames x0
  refine Keeps.ite ?_ ?_
  · unfold x0
    split
    · rename_i z1 z2 z3 z4
      refine Keeps.trans ?_ (State.complete_keeps _ _ _ _ _)
      exact Keeps.refl _
    · rename_i z5
      exact Keeps.refl _
  · extract_lets +onlyGivenNames x6
    refine Keeps.ite ?_ ?_
    · extract_lets +onlyGivenNames x7
      extract_lets +onlyGivenNames x8
      extract_lets +onlyGivenNames x9
      refine Keeps.trans ?_ (State.addTask_keeps _ _ _)
      exact Keeps.refl _
    · extract_lets +onlyGivenNames x10
      refine Keeps.cut (b := x10) ?_ ?_
      · unfold x10
        refine Keeps.trans ?_ (State.unpark_keeps _ _ _)
        exact Keeps.refl _
      intro k11
      clear_value x10
      refine Keeps.trans ?_ (State.addTask_keeps _ _ _)
      exact k11

theorem runSeqEdit_keeps {m : Nat} (d : Desc) (op body0 : Nat) (qs : List Nat) (s : State) (go : State → State) (hgo : ∀ a0, Keeps m a0 (go a0)) (hm : 0x4408069 ||| m = m := by first | decide | exact Nat.or_self _ | (rw [Fld.nth_bit]; decide) | (rw [faultsFld_bit]; decide) | (rw [atmLo_bit1]; decide) | (rw [atmLo_bit2]; decide) | exact orSelf _ _ | exact orRight _ (by decide) | exact orRight _ (orSelf _ _) | exact orRight _ (orRight _ (by decide)) | exact orBoth _ (by decide) | exact Fld.bit_top _ | exact Fld.bit_regs _ | exact Fld.bit_top2 _ _ (by decide) | exact orSub (by assumption) (by decide) | (split <;> decide)) : Keeps m s (runSeqEdit d op body0 qs s go) := by
  unfold runSeqEdit
  refine Keeps.ite ?_ ?_
  · exact Keeps.refl _
  · refine Keeps.tr ?_ (runDesc_keeps _ _ _ _ _ (fun v0 => ?_))
    · exact Keeps.refl _
    · refine Keeps.tr ?_ (hgo _)
      exact Keeps.refl _

theorem State.runEdit_keeps (s : State) (d : Nat) (desc : Option (Nat × Nat × Nat)) (edit : Edit) : Keeps 0x7E440AFEB s (State.runEdit s d desc edit) := by
  unfold State.runEdit
  extract_lets +onlyGivenNames x0
  extract_lets +onlyGivenNames x1
  split
  · rename_i z2 z3
    unfold x1
    refine State.stopEdit_keeps _ _ _ _ _ _ ?_ ?_
    · exact Keeps.refl _
    · refine KStop.fail ?_
      exact Keeps.refl _
  · rename_i z4 z5 z6 z7
    refine Keeps.ite ?_ ?_
    · split
      · rename_i z8 z9
        refine Keeps.trans ?_ (State.modPfx_keeps _ _ _)
        exact Keeps.refl _
      · rename_i z10
        exact Keeps.refl _
    · refine Keeps.ite ?_ ?_
      · unfold x1
        refine State.stopEdit_keeps _ _ _ _ _ _ ?_ ?_
        · exact Keeps.refl _
        · refine KStop.fail ?_
          exact Keeps.refl _
      · split
        · rename_i z11 z12 z13
          refine Keeps.trans ?_ (State.changeClass_keeps _ _ _ _ _)
          exact Keeps.refl _
        · rename_i z14 z15
          split
          · rename_i z16 z17 z18
            refine State.stopEdit_keeps _ _ _ _ _ _ ?_ ?_
            · exact Keeps.refl _
            · refine KEdit.stop (g := fun (r : EditOk) => r.s) z18 ?_
              refine KEdit.trans ?_ (State.applyEdit_keeps _ _ _ _)
              exact Keeps.refl _
          · rename_i z19 z20 z21
            refine Keeps.cut (b := z20.s) ?_ ?_
            · refine KEdit.eq (g := fun (r : Sys2Proof.Machine.EditOk) => r.s) (r := z20) z21 ?_
              refine KEdit.trans ?_ (State.applyEdit_keeps _ _ _ _)
              exact Keeps.refl _
            intro k22
            split
            · rename_i z23 z24 z25
              unfold x1
              refine State.stopEdit_keeps _ _ _ _ _ _ ?_ ?_
              · exact Keeps.refl _
              · refine KStop.fail ?_
                exact Keeps.refl _
            · rename_i z26 z27
              extract_lets +onlyGivenNames x28
              refine Keeps.trans ?_ (State.finishEdit_keeps _ _ _ _ _)
              exact k22

theorem State.runCarried_keeps (s : State) (d : Nat) (edit : Edit) : KSnd 0x7E440AFEB s (State.runCarried s d edit) := by
  unfold State.runCarried
  split
  · rename_i z0 z1
    refine KSnd.mk ?_
    exact Keeps.refl _
  · rename_i z2 z3 z4 z5
    refine KSnd.ite ?_ ?_
    · refine KSnd.mk ?_
      exact Keeps.refl _
    · split
      · rename_i z6 z7 z8
        refine KSnd.cut (b := z7.s) ?_ ?_
        · refine KEdit.eq (g := fun (r : Sys2Proof.Machine.EditOk) => r.s) (r := z7) z8 ?_
          refine KEdit.trans ?_ (State.applyEdit_keeps _ _ _ _)
          exact Keeps.refl _
        intro k9
        refine KSnd.mk ?_
        refine Keeps.trans ?_ (State.finishEdit_keeps _ _ _ _ _)
        exact k9
      · rename_i z10 z11 z12 z13
        refine KSnd.cut (b := z12) ?_ ?_
        · refine KEdit.err (g := fun (r : EditOk) => r.s) z13 ?_
          refine KEdit.trans ?_ (State.applyEdit_keeps _ _ _ _)
          exact Keeps.refl _
        intro k14
        refine KSnd.mk ?_
        exact k14
      · rename_i z15 z16 z17
        refine KSnd.mk ?_
        refine Keeps.foldl _ _ (fun s18 y19 => ?_) ?_
        · refine Keeps.trans ?_ (State.stageIn_keeps _ _ _ _)
          exact Keeps.refl _
        · exact Keeps.refl _

theorem State.settleAppend_keeps (s : State) (d sweep i st : Nat) : Keeps 0x80 s (State.settleAppend s d sweep i st) := by
  unfold State.settleAppend
  refine Keeps.trans ?_ (State.modCsm_keeps _ _ _)
  exact Keeps.refl _

theorem State.retryEdit_keeps (s : State) (d : Nat) (w : WaitEdit) : Keeps 0x7E440AFEB s (State.retryEdit s d w) := by
  unfold State.retryEdit
  extract_lets +onlyGivenNames x0
  refine Keeps.ite ?_ ?_
  · unfold x0
    refine Keeps.trans ?_ (State.modPfx_keeps _ _ _)
    exact Keeps.refl _
  · split
    · rename_i z1 z2
      refine Keeps.trans ?_ (State.runEdit_keeps _ _ _ _)
      exact Keeps.refl _
    · rename_i z3 z4 z5 z6
      split
      · rename_i z7 z8 z9 z10
        refine Keeps.cut (b := z9) ?_ ?_
        · refine KSnd.eq z10 ?_
          refine KSnd.trans ?_ (State.runCarried_keeps _ _ _)
          exact Keeps.refl _
        intro k11
        refine Keeps.trans ?_ (State.settleAppend_keeps _ _ _ _ _)
        exact k11
      · rename_i z12 z13 z14
        refine Keeps.cut (b := z13) ?_ ?_
        · refine KSnd.eq z14 ?_
          refine KSnd.trans ?_ (State.runCarried_keeps _ _ _)
          exact Keeps.refl _
        intro k15
        unfold x0
        refine Keeps.trans ?_ (State.modPfx_keeps _ _ _)
        exact k15

theorem State.retryEdits_keeps (s : State) (d : Nat) (w0 : Nat) : Keeps 0x7E440AFEB s (State.retryEdits s d w0) := by
  induction w0 generalizing s d with
  | zero =>
    unfold State.retryEdits
    exact Keeps.refl _
  | succ n0 ih =>
    unfold State.retryEdits
    extract_lets +onlyGivenNames x0
    unfold x0
    split
    · rename_i z1 z2
      exact Keeps.refl _
    · rename_i z3 z4 z5 z6
      extract_lets +onlyGivenNames x7
      refine Keeps.cut (b := x7) ?_ ?_
      · unfold x7
        refine Keeps.trans ?_ (State.retryEdit_keeps _ _ _)
        refine Keeps.trans ?_ (State.modPfx_keeps _ _ _)
        exact Keeps.refl _
      intro k8
      clear_value x7
      extract_lets +onlyGivenNames x9
      extract_lets +onlyGivenNames x10
      refine Keeps.cut (b := x10) ?_ ?_
      · unfold x10
        refine Keeps.trans ?_ (State.modPfx_keeps _ _ _)
        exact k8
      intro k11
      clear_value x10
      extract_lets +onlyGivenNames x12
      refine Keeps.cut (b := x12) ?_ ?_
      · unfold x12
        refine Keeps.tr ?_ (ih _ _)
        exact k11
      intro k13
      clear_value x12
      refine Keeps.trans ?_ (State.modPfx_keeps _ _ _)
      exact k13

end Sys2Proof.Machine
end

