-- ==== Sys2Proof/Laws/KeepsImports.lean ====
section
/-!
SUPPORT. Sys2Proof/Laws/KeepsImports.lean: each operation of Machine/Imports.lean keeps what `Keeps` says, with the parts of the state it may
touch.
-/
namespace Sys2Proof.Machine
set_option Elab.async false

theorem State.addReplica_keeps (s : State) (d : Nat) (r : Replica) : KSnd 0x302 s (State.addReplica s d r) := by
  unfold State.addReplica
  extract_lets +onlyGivenNames x0
  split
  · rename_i z1 z2 z3 z4
    refine KSnd.cut (b := z3) ?_ ?_
    · refine KSnd.eq z4 ?_
      refine KSnd.trans ?_ (State.pickId_keeps _ _ _)
      exact Keeps.refl _
    intro k5
    extract_lets +onlyGivenNames x6
    refine KSnd.cut (b := x6) ?_ ?_
    · unfold x6
      refine Keeps.trans ?_ (State.modStg_keeps _ _ _)
      exact k5
    intro k7
    clear_value x6
    extract_lets +onlyGivenNames x8
    refine KSnd.mk ?_
    refine Keeps.foldl _ _ (fun s9 y10 => ?_) ?_
    · refine Keeps.trans ?_ (State.modPage_keeps _ _ _ _)
      exact Keeps.refl _
    · exact k7

theorem State.stagedData_keeps (s : State) (d page start : Nat) (table : Bool) (b : List Byte) : Keeps 0x42440ABE9 s (State.stagedData s d page start table b) := by
  unfold State.stagedData
  refine Keeps.ite ?_ ?_
  · refine Keeps.trans ?_ (State.gotStaged_keeps _ _ _ _ _ _)
    exact Keeps.refl _
  · split
    · rename_i z0 z1 z2 z3 z4 z5
      split
      · rename_i z6 z7 z8 z9
        refine Keeps.ite ?_ ?_
        · refine Keeps.trans ?_ (State.readReplica_keeps _ _ _ _ _ _ _)
          exact Keeps.refl _
        · refine Keeps.trans ?_ (State.gotStaged_keeps _ _ _ _ _ _)
          exact Keeps.refl _
      · rename_i z10 z11
        exact Keeps.refl _
    · rename_i z12 z13 z14
      exact Keeps.refl _

theorem State.doneImport_keeps (s : State) (d : Nat) (j : ImportJob) (st r0 r1 : Nat) : Keeps 0x4408269 s (State.doneImport s d j st r0 r1) := by
  unfold State.doneImport
  refine Keeps.trans ?_ (State.completeKey_keeps _ _ _ _ _)
  refine Keeps.trans ?_ (State.endImport_keeps _ _ _)
  exact Keeps.refl _

theorem State.readImport_keeps (s : State) (d : Nat) (j : ImportJob) (at_ n : Nat) : Keeps 0x42440ABE9 s (State.readImport s d j at_ n) := by
  unfold State.readImport
  split
  · rename_i z0 z1
    refine Keeps.trans ?_ (State.doneImport_keeps _ _ _ _ _ _)
    exact Keeps.refl _
  · rename_i z2 z3 z4
    refine Keeps.ite ?_ ?_
    · refine Keeps.trans ?_ (State.doneImport_keeps _ _ _ _ _ _)
      exact Keeps.refl _
    · refine Keeps.trans ?_ (State.sendRead_keeps _ _ _ _ _ _ _ _ _)
      exact Keeps.refl _

theorem State.setImport_keeps (s : State) (d : Nat) (j : ImportJob) : Keeps 0x200 s (State.setImport s d j) := by
  unfold State.setImport
  refine Keeps.trans ?_ (State.modStg_keeps _ _ _)
  exact Keeps.refl _

theorem State.importHead_keeps (s : State) (d : Nat) (j : ImportJob) (c : Ctx) (b : List Byte) : Keeps 0x4A440ABE9 s (State.importHead s d j c b) := by
  unfold State.importHead
  extract_lets +onlyGivenNames x0
  refine Keeps.ite ?_ ?_
  · refine Keeps.trans ?_ (State.doneImport_keeps _ _ _ _ _ _)
    exact Keeps.refl _
  · split
    · rename_i z1 z2 z3 z4
      refine Keeps.cut (b := z3) ?_ ?_
      · refine KSnd.eq z4 ?_
        refine KSnd.trans ?_ (State.treeSearch_keeps _ _ _ _ _ _)
        exact Keeps.refl _
      intro k5
      refine Keeps.trans ?_ (State.doneImport_keeps _ _ _ _ _ _)
      exact k5
    · rename_i z6 z7 z8
      refine Keeps.cut (b := z7) ?_ ?_
      · refine KSnd.eq z8 ?_
        refine KSnd.trans ?_ (State.treeSearch_keeps _ _ _ _ _ _)
        exact Keeps.refl _
      intro k9
      split
      · rename_i z10 z11 z12 z13
        refine Keeps.cut (b := z12) ?_ ?_
        · refine KSnd.eq z13 ?_
          refine KSnd.ite ?_ ?_
          · refine KSnd.mk ?_
            exact k9
          · refine KSnd.trans ?_ (State.treeSearchFor_keeps _ _ _ _ _ _)
            exact k9
        intro k14
        split
        · rename_i z15
          refine Keeps.cut (b := z12) ?_ ?_
          · refine KSnd.eq z13 ?_
            refine KSnd.ite ?_ ?_
            · refine KSnd.mk ?_
              exact k9
            · refine KSnd.trans ?_ (State.treeSearchFor_keeps _ _ _ _ _ _)
              exact k9
          intro k16
          refine Keeps.trans ?_ (State.doneImport_keeps _ _ _ _ _ _)
          exact k14
        · rename_i z17 z18
          refine Keeps.cut (b := z12) ?_ ?_
          · refine KSnd.eq z13 ?_
            refine KSnd.ite ?_ ?_
            · refine KSnd.mk ?_
              exact k9
            · refine KSnd.trans ?_ (State.treeSearchFor_keeps _ _ _ _ _ _)
              exact k9
          intro k19
          refine Keeps.trans ?_ (State.readImport_keeps _ _ _ _ _)
          refine Keeps.trans ?_ (State.setImport_keeps _ _ _)
          exact k14

theorem State.importTable_keeps (s : State) (d : Nat) (j : ImportJob) (c : Ctx) (b : List Byte) : Keeps 0x42440ABE9 s (State.importTable s d j c b) := by
  unfold State.importTable
  extract_lets +onlyGivenNames x0
  extract_lets +onlyGivenNames x1
  refine Keeps.ite ?_ ?_
  · refine Keeps.trans ?_ (State.doneImport_keeps _ _ _ _ _ _)
    exact Keeps.refl _
  · refine Keeps.ite ?_ ?_
    · refine Keeps.trans ?_ (State.doneImport_keeps _ _ _ _ _ _)
      exact Keeps.refl _
    · refine Keeps.trans ?_ (State.readImport_keeps _ _ _ _ _)
      refine Keeps.trans ?_ (State.setImport_keeps _ _ _)
      exact Keeps.refl _

theorem State.importPages_keeps (s : State) (d : Nat) (j : ImportJob) (c : Ctx) (id : Nat) (l : Nat) (w0 : List (List Byte)) : KExc 0x102 (fun r => r.2) s (State.importPages s d j c id l w0) := by
  induction w0 generalizing s d j c id l with
  | nil =>
    unfold State.importPages
    refine KExc.mk ?_
    exact Keeps.refl _
  | cons hd0 tl0 ih =>
    unfold State.importPages
    split
    · rename_i z0 z1 z2
      trivial
    · rename_i z3 z4 z5 z6
      refine KExc.cut (b := z5) ?_ ?_
      · refine KExc.eq (g := fun (r : Nat × Sys2Proof.Machine.State) => r.2) (r := (z4, z5)) z6 ?_
        refine KExc.trans ?_ (State.newPage_keeps _ _ _ _)
        exact Keeps.refl _
      intro k7
      split
      · rename_i z8 z9 z10
        trivial
      · rename_i z11 z12 z13 z14
        refine KExc.cut (b := z13) ?_ ?_
        · refine KExc.eq (g := fun (r : List Nat × Sys2Proof.Machine.State) => r.2) (r := (z12, z13)) z14 ?_
          refine KExc.tr ?_ (ih _ _ _ _ _ _)
          exact k7
        intro k15
        refine KExc.mk ?_
        exact k15

theorem State.importChunk_keeps (s : State) (d : Nat) (j : ImportJob) (c : Ctx) : Keeps 0x1C44083EB s (State.importChunk s d j c) := by
  unfold State.importChunk
  split
  · rename_i z0 z1 z2 z3
    refine Keeps.trans ?_ (State.doneImport_keeps _ _ _ _ _ _)
    exact Keeps.refl _
  · rename_i z4 z5 z6 z7
    refine Keeps.trans ?_ (State.doneImport_keeps _ _ _ _ _ _)
    exact Keeps.refl _
  · rename_i z8 z9 z10 z11 z12
    refine Keeps.ite ?_ ?_
    · refine Keeps.trans ?_ (State.doneImport_keeps _ _ _ _ _ _)
      exact Keeps.refl _
    · refine Keeps.ite ?_ ?_
      · refine Keeps.trans ?_ (State.doneImport_keeps _ _ _ _ _ _)
        refine Keeps.trans ?_ (State.nomem_keeps _ _)
        exact Keeps.refl _
      · extract_lets +onlyGivenNames x13
        refine Keeps.cut (b := x13) ?_ ?_
        · unfold x13
          exact Keeps.refl _
        intro k14
        clear_value x13
        split
        · rename_i z15 z16 z17 z18
          refine Keeps.cut (b := z17) ?_ ?_
          · refine KSnd.eq z18 ?_
            refine KSnd.trans ?_ (State.pickId_keeps _ _ _)
            exact Keeps.refl _
          intro k19
          split
          · rename_i z20 z21 z22
            split
            · rename_i z23 z24 z25 z26
              refine Keeps.cut (b := z25) ?_ ?_
              · refine KSnd.eq z26 ?_
                refine KSnd.trans ?_ (State.allocStatus_keeps _ _ _)
                exact k14
              intro k27
              refine Keeps.trans ?_ (State.doneImport_keeps _ _ _ _ _ _)
              exact k27
          · rename_i z28 z29 z30 z31
            refine Keeps.cut (b := z30) ?_ ?_
            · refine KExc.eq (g := fun (r : List Nat × Sys2Proof.Machine.State) => r.2) (r := (z29, z30)) z31 ?_
              refine KExc.trans ?_ (State.importPages_keeps _ _ _ _ _ _ _)
              exact k19
            intro k32
            extract_lets +onlyGivenNames x33
            extract_lets +onlyGivenNames x34
            refine Keeps.cut (b := x34) ?_ ?_
            · unfold x34
              refine Keeps.trans ?_ (State.addHold_keeps _ _ _)
              refine Keeps.trans ?_ (State.modPfx_keeps _ _ _)
              exact k32
            intro k35
            clear_value x34
            extract_lets +onlyGivenNames x36
            refine Keeps.cut (b := x36) ?_ ?_
            · unfold x36
              refine Keeps.trans ?_ (State.treeInsert_keeps _ _ _ _)
              exact k35
            intro k37
            clear_value x36
            extract_lets +onlyGivenNames x38
            refine Keeps.cut (b := x38) ?_ ?_
            · unfold x38
              refine Keeps.ite ?_ ?_
              · refine KSnd.get ?_
                refine KSnd.trans ?_ (State.addReplica_keeps _ _ _)
                exact k37
              · exact k37
            intro k39
            clear_value x38
            refine Keeps.trans ?_ (State.doneImport_keeps _ _ _ _ _ _)
            refine Keeps.trans ?_ (State.fadd_keeps _ _ _ _)
            refine Keeps.trans ?_ (State.dropHold_keeps _ _ _)
            exact k39

theorem State.importImage_keeps (s : State) (d : Nat) (j : ImportJob) (c : Ctx) (b : List Byte) : Keeps 0x5E440ABEB s (State.importImage s d j c b) := by
  unfold State.importImage
  extract_lets +onlyGivenNames x0
  refine Keeps.ite ?_ ?_
  · refine Keeps.trans ?_ (State.doneImport_keeps _ _ _ _ _ _)
    exact Keeps.refl _
  · extract_lets +onlyGivenNames x1
    refine Keeps.ite ?_ ?_
    · refine Keeps.trans ?_ (State.readImport_keeps _ _ _ _ _)
      refine Keeps.trans ?_ (State.setImport_keeps _ _ _)
      exact Keeps.refl _
    · refine Keeps.trans ?_ (State.importChunk_keeps _ _ _ _)
      exact Keeps.refl _

theorem State.importData_keeps (s : State) (d : Nat) (k : Nat × Nat × Nat) (b : List Byte) : Keeps 0x5E440ABEB s (State.importData s d k b) := by
  unfold State.importData
  split
  · rename_i z0 z1
    exact Keeps.refl _
  · rename_i z2 z3 z4
    split
    · rename_i z5 z6
      refine Keeps.trans ?_ (State.doneImport_keeps _ _ _ _ _ _)
      exact Keeps.refl _
    · rename_i z7 z8 z9
      refine Keeps.ite ?_ ?_
      · refine Keeps.trans ?_ (State.importHead_keeps _ _ _ _ _)
        exact Keeps.refl _
      · refine Keeps.ite ?_ ?_
        · refine Keeps.trans ?_ (State.importTable_keeps _ _ _ _ _)
          exact Keeps.refl _
        · refine Keeps.trans ?_ (State.importImage_keeps _ _ _ _ _)
          exact Keeps.refl _

end Sys2Proof.Machine
end

