-- ==== Sys2Proof/Laws/KeepsNrt.lean ====
section
/-!
SUPPORT. Sys2Proof/Laws/KeepsNrt.lean: each operation of Machine/Nrt.lean keeps what `Keeps` says, with the parts of the state it may
touch.
-/
namespace Sys2Proof.Machine
set_option Elab.async false

theorem State.fire_keeps (s : State) (d : Nat) (a : Armed) : Keeps 0x42440ABE9 s (State.fire s d a) := by
  unfold State.fire
  extract_lets +onlyGivenNames x0
  extract_lets +onlyGivenNames x1
  split
  · rename_i z2 z3
    refine Keeps.trans ?_ (State.completeKey_keeps _ _ _ _ _)
    exact Keeps.refl _
  · rename_i z4 z5 z6
    refine Keeps.ite ?_ ?_
    · refine Keeps.trans ?_ (State.completeKey_keeps _ _ _ _ _)
      exact Keeps.refl _
    · refine Keeps.ite ?_ ?_
      · refine Keeps.trans ?_ (State.completeKey_keeps _ _ _ _ _)
        exact Keeps.refl _
      · extract_lets +onlyGivenNames x7
        extract_lets +onlyGivenNames x8
        split
        · rename_i z9 z10
          refine Keeps.trans ?_ (State.sendRead_keeps _ _ _ _ _ _ _ _ _)
          exact Keeps.refl _
        · rename_i z11 z12
          refine KSnd.get ?_
          refine KSnd.trans ?_ (State.sendWrite_keeps _ _ _ _ _ _ _ _ _ _ _)
          exact Keeps.refl _
        · rename_i z13 z14
          refine KSnd.get ?_
          refine KSnd.trans ?_ (State.sendWrite_keeps _ _ _ _ _ _ _ _ _ _ _)
          exact Keeps.refl _

theorem State.setCtr_keeps (s : State) (d i v : Nat) : Keeps 0x42440ABE9 s (State.setCtr s d i v) := by
  unfold State.setCtr
  extract_lets +onlyGivenNames x0
  extract_lets +onlyGivenNames x1
  refine Keeps.cut (b := x1) ?_ ?_
  · unfold x1
    refine Keeps.trans ?_ (State.modNrt_keeps _ _ _)
    exact Keeps.refl _
  intro k2
  clear_value x1
  extract_lets +onlyGivenNames x3
  extract_lets +onlyGivenNames x4
  refine Keeps.cut (b := x4) ?_ ?_
  · unfold x4
    refine Keeps.trans ?_ (State.modNrt_keeps _ _ _)
    exact k2
  intro k5
  clear_value x4
  extract_lets +onlyGivenNames x6
  refine Keeps.cut (b := x6) ?_ ?_
  · unfold x6
    refine Keeps.foldl _ _ (fun s7 y8 => ?_) ?_
    · refine Keeps.trans ?_ (State.completeKey_keeps _ _ _ _ _)
      exact Keeps.refl _
    · exact k5
  intro k9
  clear_value x6
  extract_lets +onlyGivenNames x10
  extract_lets +onlyGivenNames x11
  refine Keeps.cut (b := x11) ?_ ?_
  · unfold x11
    refine Keeps.trans ?_ (State.modNrt_keeps _ _ _)
    exact k9
  intro k12
  clear_value x11
  refine Keeps.foldl _ _ (fun s13 y14 => ?_) ?_
  · refine Keeps.trans ?_ (State.fire_keeps _ _ _)
    exact Keeps.refl _
  · exact k12

theorem State.bumpCtr_keeps (s : State) (d i n : Nat) : Keeps 0x42440ABE9 s (State.bumpCtr s d i n) := by
  unfold State.bumpCtr
  refine Keeps.trans ?_ (State.setCtr_keeps _ _ _ _)
  exact Keeps.refl _

theorem State.txOutcome_keeps (s : State) (d : Nat) (use : TxFor) (status : Nat) (b : List Byte) : Keeps 0x5E440ABEB s (State.txOutcome s d use status b) := by
  unfold State.txOutcome
  refine Keeps.ite ?_ ?_
  · refine Keeps.trans ?_ (State.txFail_keeps _ _ _ _)
    exact Keeps.refl _
  · split
    · rename_i z0 z1 z2
      exact Keeps.refl _
    · rename_i z3
      exact Keeps.refl _
    · rename_i z4
      exact Keeps.refl _
    · rename_i z5 z6 z7 z8
      split
      · rename_i z9 z10
        exact Keeps.refl _
      · rename_i z11 z12 z13
        extract_lets +onlyGivenNames x14
        refine Keeps.cut (b := x14) ?_ ?_
        · unfold x14
          refine Keeps.trans ?_ (State.modStg_keeps _ _ _)
          exact Keeps.refl _
        intro k15
        clear_value x14
        refine Keeps.ite ?_ ?_
        · refine Keeps.trans ?_ (State.modStg_keeps _ _ _)
          exact k15
        · extract_lets +onlyGivenNames x16
          refine Keeps.cut (b := x16) ?_ ?_
          · unfold x16
            refine Keeps.trans ?_ (State.fadd_keeps _ _ _ _)
            refine Keeps.trans ?_ (State.closeHolder_keeps _ _ _)
            exact k15
          intro k17
          clear_value x16
          split
          · rename_i z18 z19 z20 z21
            refine Keeps.cut (b := z20) ?_ ?_
            · refine KSnd.eq z21 ?_
              refine KSnd.ite ?_ ?_
              · refine KSnd.trans ?_ (State.addReplica_keeps _ _ _)
                exact k17
              · refine KSnd.mk ?_
                exact k17
            intro k22
            refine Keeps.trans ?_ (State.completeKey_keeps _ _ _ _ _)
            exact k22
    · rename_i z23 z24 z25 z26 z27
      extract_lets +onlyGivenNames x28
      refine Keeps.cut (b := x28) ?_ ?_
      · unfold x28
        refine Keeps.trans ?_ (State.completeKey_keeps _ _ _ _ _)
        exact Keeps.refl _
      intro k29
      clear_value x28
      refine Keeps.ite ?_ ?_
      · refine Keeps.trans ?_ (State.bumpCtr_keeps _ _ _ _)
        exact k29
      · exact k29
    · rename_i z30 z31 z32 z33
      refine Keeps.trans ?_ (State.stagedData_keeps _ _ _ _ _ _)
      exact Keeps.refl _
    · rename_i z34 z35 z36 z37
      refine Keeps.trans ?_ (State.importData_keeps _ _ _ _)
      exact Keeps.refl _

theorem State.finishTx_keeps (s : State) (d : Nat) (t : Tx) (status : Nat) : Keeps 0x5E440ABEB s (State.finishTx s d t status) := by
  unfold State.finishTx
  extract_lets +onlyGivenNames x0
  refine Keeps.cut (b := x0) ?_ ?_
  · unfold x0
    refine Keeps.trans ?_ (State.accrueAll_keeps _ _)
    exact Keeps.refl _
  intro k1
  clear_value x0
  extract_lets +onlyGivenNames x2
  refine Keeps.cut (b := x2) ?_ ?_
  · unfold x2
    refine Keeps.trans ?_ (State.modNrt_keeps _ _ _)
    exact k1
  intro k3
  clear_value x2
  extract_lets +onlyGivenNames x4
  refine Keeps.cut (b := x4) ?_ ?_
  · unfold x4
    refine Keeps.trans ?_ (State.modLnk_keeps _ _ _)
    exact k3
  intro k5
  clear_value x4
  extract_lets +onlyGivenNames x6
  refine Keeps.cut (b := x6) ?_ ?_
  · unfold x6
    refine Keeps.trans ?_ (State.fset_keeps _ _ _ _)
    exact k5
  intro k7
  clear_value x6
  refine Keeps.trans ?_ (State.txOutcome_keeps _ _ _ _ _)
  exact k7

theorem State.pathCalm_keeps (s : State) (d peer path : Nat) : Keeps 0x800 s (State.pathCalm s d peer path) := by
  unfold State.pathCalm
  refine Keeps.trans ?_ (State.modPeer_keeps _ _ _ _)
  exact Keeps.refl _

theorem State.sendAnswer_keeps (s : State) (d : Nat) (v4 : Bool) (to_ : Nat) (h : NrtHdr) (status : Nat) (ce : Bool) : Keeps 0x2000 s (State.sendAnswer s d v4 to_ h status ce) := by
  unfold State.sendAnswer
  extract_lets +onlyGivenNames x0
  refine Keeps.trans ?_ (State.enqueue_keeps _ _ _ _ _ _)
  exact Keeps.refl _

theorem State.answer_keeps (s : State) (d : Nat) (x : Rx) (status : Nat) : Keeps 0x400002800 s (State.answer s d x status) := by
  unfold State.answer
  extract_lets +onlyGivenNames x0
  refine Keeps.cut (b := x0) ?_ ?_
  · unfold x0
    refine Keeps.trans ?_ (State.sendAnswer_keeps _ _ _ _ _ _ _)
    exact Keeps.refl _
  intro k1
  clear_value x0
  extract_lets +onlyGivenNames x2
  extract_lets +onlyGivenNames x3
  extract_lets +onlyGivenNames x4
  extract_lets +onlyGivenNames x5
  refine Keeps.cut (b := x5) ?_ ?_
  · unfold x5
    refine Keeps.trans ?_ (State.modNrt_keeps _ _ _)
    exact k1
  intro k6
  clear_value x5
  extract_lets +onlyGivenNames x7
  refine Keeps.cut (b := x7) ?_ ?_
  · unfold x7
    refine Keeps.ite ?_ ?_
    · refine Keeps.trans ?_ (State.fadd_keeps _ _ _ _)
      exact k6
    · exact k6
  intro k8
  clear_value x7
  refine Keeps.trans ?_ (State.fset_keeps _ _ _ _)
  exact k8

theorem State.freeEntry_keeps (s : State) (d : Nat) (x : Rx) : Keeps 0x800 s (State.freeEntry s d x) := by
  unfold State.freeEntry
  extract_lets +onlyGivenNames x0
  extract_lets +onlyGivenNames x1
  refine Keeps.ite ?_ ?_
  · exact Keeps.refl _
  · extract_lets +onlyGivenNames x2
    refine Keeps.ite ?_ ?_
    · refine Keeps.trans ?_ (State.modRegion_keeps _ _ _ _)
      exact Keeps.refl _
    · exact Keeps.refl _

theorem State.failRx_keeps (s : State) (d : Nat) (x : Rx) (status : Nat) : Keeps 0x400002800 s (State.failRx s d x status) := by
  unfold State.failRx
  refine Keeps.trans ?_ (State.answer_keeps _ _ _ _)
  refine Keeps.trans ?_ (State.freeEntry_keeps _ _ _)
  exact Keeps.refl _

end Sys2Proof.Machine
end

