-- ==== Sys2Proof/Laws/KeepsRecords.lean ====
section
/-!
SUPPORT. Sys2Proof/Laws/KeepsRecords.lean: each operation of Machine/Records.lean keeps what `Keeps` says, with the parts of the state it may
touch.
-/
namespace Sys2Proof.Machine
set_option Elab.async false

theorem State.resDrop_keeps (s : State) (d : Nat) : Keeps 0x20000008 s (State.resDrop s d) := by
  unfold State.resDrop
  refine Keeps.trans ?_ (State.evtDie_keeps _ _ _)
  refine Keeps.trans ?_ (State.fadd_keeps _ _ _ _)
  exact Keeps.refl _

theorem State.setEntry_keeps (s : State) (d e k : Nat) (st : InEnt) : Keeps 0x800 s (State.setEntry s d e k st) := by
  unfold State.setEntry
  refine Keeps.trans ?_ (State.modRegion_keeps _ _ _ _)
  exact Keeps.refl _

theorem State.setSrc_keeps (s : State) (d : Nat) (h : Held) (st : InEnt) : Keeps 0x800 s (State.setSrc s d h st) := by
  unfold State.setSrc
  split
  · rename_i z0 z1 z2 z3 z4
    refine Keeps.ite ?_ ?_
    · exact Keeps.refl _
    · refine Keeps.trans ?_ (State.setEntry_keeps _ _ _ _ _)
      exact Keeps.refl _
  · rename_i z5 z6 z7 z8 z9 z10 z11
    exact Keeps.refl _

theorem State.ledgerIn_keeps (s : State) (d : Nat) (h : Held) : KSnd 0x2000021 s (State.ledgerIn s d h) := by
  unfold State.ledgerIn
  split
  · rename_i z0 z1 z2 z3 z4 z5 z6
    refine KSnd.mk ?_
    exact Keeps.refl _
  · rename_i z7 z8 z9 z10 z11
    refine KSnd.ite ?_ ?_
    · refine KSnd.mk ?_
      exact Keeps.refl _
    · extract_lets +onlyGivenNames x12
      refine KSnd.cut (b := x12) ?_ ?_
      · unfold x12
        refine Keeps.trans ?_ (State.fset_keeps _ _ _ _)
        exact Keeps.refl _
      intro k13
      clear_value x12
      refine KSnd.ite ?_ ?_
      · refine KSnd.mk ?_
        exact k13
      · refine KSnd.mk ?_
        refine Keeps.trans ?_ (State.evtPkg_keeps _ _)
        refine Keeps.trans ?_ (State.fadd_keeps _ _ _ _)
        exact k13

theorem State.ledgerOut_keeps (s : State) (d : Nat) (h : Held) : Keeps 0x2000000 s (State.ledgerOut s d h) := by
  unfold State.ledgerOut
  refine Keeps.ite ?_ ?_
  · refine Keeps.trans ?_ (State.fset_keeps _ _ _ _)
    exact Keeps.refl _
  · exact Keeps.refl _

theorem State.sendOutput_keeps (s : State) (d sweep i : Nat) (h : Held) (out : List Byte) : KSnd2 0x42640ABE9 s (State.sendOutput s d sweep i h out) := by
  unfold State.sendOutput
  split
  · rename_i z0 z1 z2 z3 z4
    split
    · rename_i z5 z6
      refine KSnd2.mk ?_
      refine Keeps.trans ?_ (State.ledgerOut_keeps _ _ _)
      refine Keeps.trans ?_ (State.setSrc_keeps _ _ _ _)
      refine Keeps.trans ?_ (State.resDrop_keeps _ _)
      exact Keeps.refl _
    · rename_i z7 z8 z9
      split
      · rename_i z10 z11 z12 z13
        refine KSnd2.cut (b := z12) ?_ ?_
        · refine KSnd.eq z13 ?_
          refine KSnd.trans ?_ (State.sendWrite_keeps _ _ _ _ _ _ _ _ _ _ _)
          exact Keeps.refl _
        intro k14
        refine KSnd2.mk ?_
        exact k14
  · rename_i z15 z16 z17 z18 z19 z20 z21
    refine KSnd2.mk ?_
    refine Keeps.trans ?_ (State.descWrite_keeps _ _ _ _)
    exact Keeps.refl _

theorem State.sendStatus_keeps (s : State) (d : Nat) (h : Held) (out : Option Nat) (status lateness : Nat) (entry : List Byte) : Keeps 0x42640ABE9 s (State.sendStatus s d h out status lateness entry) := by
  unfold State.sendStatus
  split
  · rename_i z0 z1 z2 z3 z4
    extract_lets +onlyGivenNames x5
    refine Keeps.cut (b := x5) ?_ ?_
    · unfold x5
      refine Keeps.trans ?_ (State.ledgerOut_keeps _ _ _)
      refine Keeps.trans ?_ (State.setSrc_keeps _ _ _ _)
      exact Keeps.refl _
    intro k6
    clear_value x5
    split
    · rename_i z7 z8
      refine Keeps.trans ?_ (State.resDrop_keeps _ _)
      exact k6
    · rename_i z9 z10 z11
      extract_lets +onlyGivenNames x12
      refine KSnd.get ?_
      refine KSnd.trans ?_ (State.sendWrite_keeps _ _ _ _ _ _ _ _ _ _ _)
      exact k6
  · rename_i z13 z14 z15 z16 z17 z18 z19
    refine Keeps.trans ?_ (State.completeKey_keeps _ _ _ _ _)
    refine Keeps.trans ?_ (State.descWrite_keeps _ _ _ _)
    exact Keeps.refl _

theorem State.sillage_keeps (s : State) (d : Nat) (h : Held) (status flags lateness : Nat) (w : Trace) : Keeps 0x4008008 s (State.sillage s d h status flags lateness w) := by
  unfold State.sillage
  split
  · rename_i z0 z1
    exact Keeps.refl _
  · rename_i z2 z3 z4
    refine Keeps.ite ?_ ?_
    · exact Keeps.refl _
    · extract_lets +onlyGivenNames x5
      refine Keeps.ite ?_ ?_
      · refine Keeps.trans ?_ (State.evtPart_keeps _ _ _)
        refine Keeps.trans ?_ (State.modPmc_keeps _ _ _)
        exact Keeps.refl _
      · extract_lets +onlyGivenNames x6
        refine Keeps.trans ?_ (State.modPmc_keeps _ _ _)
        exact Keeps.refl _

theorem State.noteResult_keeps (s : State) (d : Nat) (h : Held) (status flags lateness outBytes : Nat) (w : Trace) : Keeps 0x4008008 s (State.noteResult s d h status flags lateness outBytes w) := by
  unfold State.noteResult
  extract_lets +onlyGivenNames x0
  refine Keeps.cut (b := x0) ?_ ?_
  · unfold x0
    refine Keeps.trans ?_ (State.hist_keeps _ _ _ _ _)
    refine Keeps.trans ?_ (State.pmc_keeps _ _ _ _ _ _)
    exact Keeps.refl _
  intro k1
  clear_value x0
  extract_lets +onlyGivenNames x2
  refine Keeps.cut (b := x2) ?_ ?_
  · unfold x2
    refine Keeps.ite ?_ ?_
    · refine Keeps.trans ?_ (State.pmc_keeps _ _ _ _ _ _)
      exact k1
    · exact k1
  intro k3
  clear_value x2
  refine Keeps.trans ?_ (State.sillage_keeps _ _ _ _ _ _ _)
  exact k3

theorem State.tagRecord_keeps (s : State) (d p : Nat) : KSnd 0x8000 s (State.tagRecord s d p) := by
  unfold State.tagRecord
  refine KSnd.ite ?_ ?_
  · refine KSnd.mk ?_
    exact Keeps.refl _
  · extract_lets +onlyGivenNames x0
    refine KSnd.mk ?_
    refine Keeps.trans ?_ (State.modPmc_keeps _ _ _)
    exact Keeps.refl _

theorem State.poison_keeps (s : State) (d : Nat) (r : StepRec) : Keeps 0x80 s (State.poison s d r) := by
  unfold State.poison
  refine Keeps.ite ?_ ?_
  · refine Keeps.trans ?_ (State.modCsm_keeps _ _ _)
    exact Keeps.refl _
  · exact Keeps.refl _

theorem State.failHeld_keeps (s : State) (d : Nat) (h : Held) (status : Nat) : Keeps 0x42640ABE9 s (State.failHeld s d h status) := by
  unfold State.failHeld
  extract_lets +onlyGivenNames x0
  refine Keeps.cut (b := x0) ?_ ?_
  · unfold x0
    refine Keeps.ite ?_ ?_
    · refine Keeps.trans ?_ (State.poison_keeps _ _ _)
      exact Keeps.refl _
    · exact Keeps.refl _
  intro k1
  clear_value x0
  refine Keeps.trans ?_ (State.noteResult_keeps _ _ _ _ _ _ _ _)
  refine Keeps.trans ?_ (State.sendStatus_keeps _ _ _ _ _ _ _)
  exact k1

theorem State.holdRecord_keeps (s : State) (d : Nat) (img : List Byte) (src : RecSrc) (tSig tFirst : Nat) : Keeps 0x42640ABE9 s (State.holdRecord s d img src tSig tFirst) := by
  unfold State.holdRecord
  extract_lets +onlyGivenNames x0
  split
  · rename_i z1 z2 z3 z4
    refine Keeps.cut (b := z3) ?_ ?_
    · refine KSnd.eq z4 ?_
      refine KSnd.trans ?_ (State.ledgerIn_keeps _ _ _)
      exact Keeps.refl _
    intro k5
    refine Keeps.ite ?_ ?_
    · refine Keeps.trans ?_ (State.modCsm_keeps _ _ _)
      exact k5
    · refine Keeps.trans ?_ (State.failHeld_keeps _ _ _ _)
      exact k5

end Sys2Proof.Machine
end

