-- ==== Sys2Proof/Laws/KeepsAdmit.lean ====
section
/-!
SUPPORT. Sys2Proof/Laws/KeepsAdmit.lean: each operation of Machine/Admit.lean keeps what `Keeps` says, with the parts of the state it may
touch.
-/
namespace Sys2Proof.Machine
set_option Elab.async false

theorem State.admitCheck_keeps (s : State) (d : Nat) (c : Ctx) (r : StepRec) : KSnd2 0x5A440ABEB s (State.admitCheck s d c r) := by
  unfold State.admitCheck
  extract_lets +onlyGivenNames x0
  split
  · rename_i z1 z2
    refine KSnd2.mk ?_
    exact Keeps.refl _
  · rename_i z3 z4 z5 z6
    refine KSnd2.ite ?_ ?_
    · refine KSnd2.mk ?_
      exact Keeps.refl _
    · extract_lets +onlyGivenNames x7
      extract_lets +onlyGivenNames x8
      extract_lets +onlyGivenNames x9
      extract_lets +onlyGivenNames x10
      refine KSnd2.ite ?_ ?_
      · refine KSnd2.mk ?_
        exact Keeps.refl _
      · refine KSnd2.ite ?_ ?_
        · refine KSnd2.mk ?_
          exact Keeps.refl _
        · refine KSnd2.ite ?_ ?_
          · refine KSnd2.mk ?_
            exact Keeps.refl _
          · refine KSnd2.ite ?_ ?_
            · refine KSnd2.mk ?_
              exact Keeps.refl _
            · refine KSnd2.ite ?_ ?_
              · refine KSnd2.mk ?_
                exact Keeps.refl _
              · extract_lets +onlyGivenNames x11
                refine KSnd2.cut (b := x11) ?_ ?_
                · unfold x11
                  refine Keeps.trans ?_ (State.evtDie_keeps _ _ _)
                  refine Keeps.trans ?_ (State.fadd_keeps _ _ _ _)
                  exact Keeps.refl _
                intro k12
                clear_value x11
                extract_lets +onlyGivenNames x13
                refine KSnd2.cut (b := x13) ?_ ?_
                · unfold x13
                  refine Keeps.ite ?_ ?_
                  · refine Keeps.foldl _ _ (fun s14 y15 => ?_) ?_
                    · refine Keeps.trans ?_ (State.stageIn_keeps _ _ _ _)
                      exact Keeps.refl _
                    · exact k12
                  · exact k12
                intro k16
                clear_value x13
                refine KSnd2.mk ?_
                exact k16

theorem State.formRun_keeps (s : State) (d p : Nat) (c : Ctx) (left : Int) (force z : Bool) (m : Nat) (r : Run) (w0 : List Held) : KSnd2 0x5A640ABEB s (State.formRun s d p c left force z m r w0) := by
  induction w0 generalizing s d p c left force z m r with
  | nil =>
    unfold State.formRun
    refine KSnd2.mk ?_
    exact Keeps.refl _
  | cons hd0 tl0 ih =>
    unfold State.formRun
    extract_lets +onlyGivenNames x0
    refine KSnd2.ite ?_ ?_
    · refine KSnd2.tr ?_ (ih _ _ _ _ _ _ _ _ _)
      refine Keeps.trans ?_ (State.failHeld_keeps _ _ _ _)
      exact Keeps.refl _
    · refine KSnd2.ite ?_ ?_
      · refine KSnd2.mk ?_
        exact Keeps.refl _
      · split
        · rename_i z1 z2 z3 z4 z5
          refine KSnd2.cut (b := z4) ?_ ?_
          · refine KSnd2.eq z5 ?_
            refine KSnd2.trans ?_ (State.admitCheck_keeps _ _ _ _)
            exact Keeps.refl _
          intro k6
          refine KSnd2.tr ?_ (ih _ _ _ _ _ _ _ _ _)
          refine Keeps.trans ?_ (State.failHeld_keeps _ _ _ _)
          exact k6
        · rename_i z7 z8 z9 z10
          refine KSnd2.cut (b := z9) ?_ ?_
          · refine KSnd2.eq z10 ?_
            refine KSnd2.trans ?_ (State.admitCheck_keeps _ _ _ _)
            exact Keeps.refl _
          intro k11
          extract_lets +onlyGivenNames x12
          extract_lets +onlyGivenNames x13
          extract_lets +onlyGivenNames x14
          refine KSnd2.ite ?_ ?_
          · refine KSnd2.tr ?_ (ih _ _ _ _ _ _ _ _ _)
            exact k11
          · refine KSnd2.mk ?_
            exact k11

theorem State.carryAppend_keeps (s : State) (d n i : Nat) (r : StepRec) : KSnd 0x7E440AFEB s (State.carryAppend s d n i r) := by
  unfold State.carryAppend
  refine KSnd.ite ?_ ?_
  · refine KSnd.mk ?_
    exact Keeps.refl _
  · extract_lets +onlyGivenNames x0
    extract_lets +onlyGivenNames x1
    refine KSnd.ite ?_ ?_
    · refine KSnd.mk ?_
      unfold x1
      refine Keeps.trans ?_ (State.modPfx_keeps _ _ _)
      exact Keeps.refl _
    · split
      · rename_i z2 z3 z4 z5
        refine KSnd.cut (b := z4) ?_ ?_
        · refine KSnd.eq z5 ?_
          refine KSnd.trans ?_ (State.runCarried_keeps _ _ _)
          exact Keeps.refl _
        intro k6
        refine KSnd.mk ?_
        exact k6
      · rename_i z7 z8 z9
        refine KSnd.cut (b := z8) ?_ ?_
        · refine KSnd.eq z9 ?_
          refine KSnd.trans ?_ (State.runCarried_keeps _ _ _)
          exact Keeps.refl _
        intro k10
        refine KSnd.mk ?_
        unfold x1
        refine Keeps.trans ?_ (State.modPfx_keeps _ _ _)
        exact k10

theorem State.carryAppends_keeps (s : State) (d n i : Nat) (w0 : List (Held × Snap)) : KSnd 0x7E440AFEB s (State.carryAppends s d n i w0) := by
  induction w0 generalizing s d n i with
  | nil =>
    unfold State.carryAppends
    refine KSnd.mk ?_
    exact Keeps.refl _
  | cons hd0 tl0 ih =>
    unfold State.carryAppends
    split
    · rename_i z0 z1 z2 z3
      refine KSnd.cut (b := z2) ?_ ?_
      · refine KSnd.eq z3 ?_
        refine KSnd.trans ?_ (State.carryAppend_keeps _ _ _ _ _)
        exact Keeps.refl _
      intro k4
      extract_lets +onlyGivenNames x5
      refine KSnd.cut (b := x5) ?_ ?_
      · unfold x5
        refine Keeps.trans ?_ (State.setSrc_keeps _ _ _ _)
        exact k4
      intro k6
      clear_value x5
      split
      · rename_i z7 z8 z9 z10
        refine KSnd.cut (b := z9) ?_ ?_
        · refine KSnd.eq z10 ?_
          refine KSnd.tr ?_ (ih _ _ _ _)
          exact k6
        intro k11
        refine KSnd.mk ?_
        exact k11

theorem State.launch_keeps (s : State) (d p : Nat) (c : Ctx) (r : Run) : Keeps 0x7E440AFEB s (State.launch s d p c r) := by
  unfold State.launch
  extract_lets +onlyGivenNames x0
  extract_lets +onlyGivenNames x1
  split
  · rename_i z2 z3 z4 z5
    refine Keeps.cut (b := z4) ?_ ?_
    · refine KSnd.eq z5 ?_
      refine KSnd.trans ?_ (State.carryAppends_keeps _ _ _ _ _)
      exact Keeps.refl _
    intro k6
    extract_lets +onlyGivenNames x7
    refine Keeps.cut (b := x7) ?_ ?_
    · unfold x7
      refine Keeps.trans ?_ (State.openHolder_keeps _ _)
      exact k6
    intro k8
    clear_value x7
    extract_lets +onlyGivenNames x9
    extract_lets +onlyGivenNames x10
    extract_lets +onlyGivenNames x11
    extract_lets +onlyGivenNames x12
    refine Keeps.cut (b := x12) ?_ ?_
    · unfold x12
      refine Keeps.foldl _ _ (fun s13 y14 => ?_) ?_
      · refine Keeps.trans ?_ (State.hist_keeps _ _ _ _ _)
        refine Keeps.trans ?_ (State.pmc_keeps _ _ _ _ _ _)
        exact Keeps.refl _
      · exact k8
    intro k15
    clear_value x12
    refine Keeps.trans ?_ (State.modCsm_keeps _ _ _)
    exact k15

theorem State.admitCtxs_keeps (s : State) (d p : Nat) (force z : Bool) (m : Nat) (left : Int) (w0 : List (Nat × List Held)) : KSnd 0x7E640AFEB s (State.admitCtxs s d p force z m left w0) := by
  induction w0 generalizing s d p force z m left with
  | nil =>
    unfold State.admitCtxs
    refine KSnd.mk ?_
    exact Keeps.refl _
  | cons hd0 tl0 ih =>
    unfold State.admitCtxs
    split
    · rename_i z0 z1
      extract_lets +onlyGivenNames x2
      refine KSnd.cut (b := x2) ?_ ?_
      · unfold x2
        refine Keeps.foldl _ _ (fun s3 y4 => ?_) ?_
        · refine Keeps.trans ?_ (State.failHeld_keeps _ _ _ _)
          exact Keeps.refl _
        · exact Keeps.refl _
      intro k5
      clear_value x2
      refine KSnd.tr ?_ (ih _ _ _ _ _ _ _)
      exact k5
    · rename_i z6 z7 z8
      split
      · rename_i z9 z10 z11 z12 z13
        refine KSnd.cut (b := z12) ?_ ?_
        · refine KSnd2.eq z13 ?_
          refine KSnd2.trans ?_ (State.formRun_keeps _ _ _ _ _ _ _ _ _ _)
          exact Keeps.refl _
        intro k14
        extract_lets +onlyGivenNames x15
        refine KSnd.cut (b := x15) ?_ ?_
        · unfold x15
          refine Keeps.ite ?_ ?_
          · exact k14
          · refine Keeps.trans ?_ (State.launch_keeps _ _ _ _ _)
            exact k14
        intro k16
        clear_value x15
        split
        · rename_i z17 z18 z19 z20
          refine KSnd.cut (b := z19) ?_ ?_
          · refine KSnd.eq z20 ?_
            refine KSnd.tr ?_ (ih _ _ _ _ _ _ _)
            exact k16
          intro k21
          refine KSnd.mk ?_
          exact k21

theorem State.firstCheck_keeps (s : State) (d p t : Nat) (w0 : List Held) : KSnd 0x42640ABE9 s (State.firstCheck s d p t w0) := by
  induction w0 generalizing s d p t with
  | nil =>
    unfold State.firstCheck
    refine KSnd.mk ?_
    exact Keeps.refl _
  | cons hd0 tl0 ih =>
    unfold State.firstCheck
    extract_lets +onlyGivenNames x0
    refine KSnd.ite ?_ ?_
    · split
      · rename_i z1 z2 z3 z4
        refine KSnd.cut (b := z3) ?_ ?_
        · refine KSnd.eq z4 ?_
          refine KSnd.tr ?_ (ih _ _ _ _)
          exact Keeps.refl _
        intro k5
        refine KSnd.mk ?_
        exact k5
    · split
      · rename_i z6 z7 z8 z9
        refine KSnd.cut (b := z8) ?_ ?_
        · refine KSnd.eq z9 ?_
          refine KSnd.trans ?_ (State.tagRecord_keeps _ _ _)
          exact Keeps.refl _
        intro k10
        extract_lets +onlyGivenNames x11
        refine KSnd.ite ?_ ?_
        · refine KSnd.tr ?_ (ih _ _ _ _)
          refine Keeps.trans ?_ (State.failHeld_keeps _ _ _ _)
          exact k10
        · split
          · rename_i z12 z13 z14 z15
            refine KSnd.cut (b := z14) ?_ ?_
            · refine KSnd.eq z15 ?_
              refine KSnd.tr ?_ (ih _ _ _ _)
              exact k10
            intro k16
            refine KSnd.mk ?_
            exact k16

theorem State.rerunOver_keeps (s : State) (d : Nat) (h : Held) : KOpt 0x42640ABE9 (fun r => r) s (State.rerunOver s d h) := by
  unfold State.rerunOver
  extract_lets +onlyGivenNames x0
  split
  · rename_i z1 z2
    refine KOpt.mk ?_
    unfold x0
    refine Keeps.trans ?_ (State.fadd_keeps _ _ _ _)
    refine Keeps.trans ?_ (State.failHeld_keeps _ _ _ _)
    exact Keeps.refl _
  · rename_i z3 z4 z5
    extract_lets +onlyGivenNames x6
    refine KOpt.ite ?_ ?_
    · refine KOpt.mk ?_
      refine Keeps.trans ?_ (State.failHeld_keeps _ _ _ _)
      exact Keeps.refl _
    · split
      · rename_i z7 z8
        refine KOpt.mk ?_
        unfold x0
        refine Keeps.trans ?_ (State.fadd_keeps _ _ _ _)
        refine Keeps.trans ?_ (State.failHeld_keeps _ _ _ _)
        exact Keeps.refl _
      · rename_i z9 z10 z11 z12
        extract_lets +onlyGivenNames x13
        refine KOpt.ite ?_ ?_
        · refine KOpt.mk ?_
          unfold x0
          refine Keeps.trans ?_ (State.fadd_keeps _ _ _ _)
          refine Keeps.trans ?_ (State.failHeld_keeps _ _ _ _)
          exact Keeps.refl _
        · refine KOpt.ite ?_ ?_
          · refine KOpt.mk ?_
            refine Keeps.trans ?_ (State.failHeld_keeps _ _ _ _)
            exact Keeps.refl _
          · trivial

theorem State.sortReruns_keeps (s : State) (d : Nat) (app : List Nat) (w0 : List Held) : KSnd2 0x4A640ABEB s (State.sortReruns s d app w0) := by
  induction w0 generalizing s d app with
  | nil =>
    unfold State.sortReruns
    refine KSnd2.mk ?_
    exact Keeps.refl _
  | cons hd0 tl0 ih =>
    unfold State.sortReruns
    extract_lets +onlyGivenNames x0
    refine KSnd2.ite ?_ ?_
    · split
      · rename_i z1 z2 z3 z4 z5
        refine KSnd2.cut (b := z4) ?_ ?_
        · refine KSnd2.eq z5 ?_
          refine KSnd2.tr ?_ (ih _ _ _)
          exact Keeps.refl _
        intro k6
        refine KSnd2.mk ?_
        exact k6
    · split
      · rename_i z7 z8 z9
        refine KSnd2.cut (b := z8) ?_ ?_
        · refine KOpt.eq (g := fun (r : Sys2Proof.Machine.State) => r) (r := z8) z9 ?_
          refine KOpt.trans ?_ (State.rerunOver_keeps _ _ _)
          exact Keeps.refl _
        intro k10
        refine KSnd2.tr ?_ (ih _ _ _)
        exact k10
      · rename_i z11 z12
        extract_lets +onlyGivenNames x13
        extract_lets +onlyGivenNames x14
        refine KSnd2.cut (b := x14) ?_ ?_
        · unfold x14
          refine Keeps.foldl _ _ (fun s15 y16 => ?_) ?_
          · split
            · rename_i z17 z18 z19
              refine Keeps.ite ?_ ?_
              · exact Keeps.refl _
              · refine Keeps.trans ?_ (State.stageIn_keeps _ _ _ _)
                exact Keeps.refl _
            · rename_i z20 z21
              exact Keeps.refl _
          · exact Keeps.refl _
        intro k22
        clear_value x14
        split
        · rename_i z23 z24 z25 z26 z27
          refine KSnd2.cut (b := z26) ?_ ?_
          · refine KSnd2.eq z27 ?_
            refine KSnd2.tr ?_ (ih _ _ _)
            exact k22
          intro k28
          refine KSnd2.ite ?_ ?_
          · refine KSnd2.mk ?_
            exact k28
          · refine KSnd2.mk ?_
            exact k28

theorem State.launchReruns_keeps (s : State) (d p : Nat) (recs : List (Held × Snap)) (w0 : List Nat) : KSnd 0x7E440AFEB s (State.launchReruns s d p recs w0) := by
  induction w0 generalizing s d p recs with
  | nil =>
    unfold State.launchReruns
    refine KSnd.mk ?_
    exact Keeps.refl _
  | cons hd0 tl0 ih =>
    unfold State.launchReruns
    split
    · rename_i z0 z1 z2 z3
      refine KSnd.cut (b := z2) ?_ ?_
      · refine KSnd.eq z3 ?_
        split
        · rename_i z4 z5
          refine KSnd.mk ?_
          exact Keeps.refl _
        · rename_i z6 z7 z8
          split
          · rename_i z9 z10 z11 z12
            extract_lets +onlyGivenNames x13
            refine KSnd.mk ?_
            refine Keeps.trans ?_ (State.launch_keeps _ _ _ _ _)
            exact Keeps.refl _
      intro k14
      split
      · rename_i z15 z16 z17 z18
        refine KSnd.cut (b := z17) ?_ ?_
        · refine KSnd.eq z18 ?_
          refine KSnd.tr ?_ (ih _ _ _ _)
          exact k14
        intro k19
        refine KSnd.mk ?_
        exact k19

theorem State.admitReruns_keeps (s : State) (d p : Nat) (l : List Held) : KSnd2 0x7E640AFEB s (State.admitReruns s d p l) := by
  unfold State.admitReruns
  split
  · rename_i z0 z1 z2 z3 z4
    refine KSnd2.cut (b := z3) ?_ ?_
    · refine KSnd2.eq z4 ?_
      refine KSnd2.trans ?_ (State.sortReruns_keeps _ _ _ _)
      exact Keeps.refl _
    intro k5
    extract_lets +onlyGivenNames x6
    split
    · rename_i z7 z8 z9 z10
      refine KSnd2.cut (b := z9) ?_ ?_
      · refine KSnd.eq z10 ?_
        refine KSnd.trans ?_ (State.launchReruns_keeps _ _ _ _ _)
        exact k5
      intro k11
      refine KSnd2.mk ?_
      exact k11

theorem State.admitDie_keeps (s : State) (d p t : Nat) : Keeps 0x7E660AFEB s (State.admitDie s d p t) := by
  unfold State.admitDie
  extract_lets +onlyGivenNames x0
  extract_lets +onlyGivenNames x1
  extract_lets +onlyGivenNames x2
  extract_lets +onlyGivenNames x3
  extract_lets +onlyGivenNames x4
  extract_lets +onlyGivenNames x5
  extract_lets +onlyGivenNames x6
  extract_lets +onlyGivenNames x7
  extract_lets +onlyGivenNames x8
  extract_lets +onlyGivenNames x9
  refine Keeps.cut (b := x9) ?_ ?_
  · unfold x9
    refine Keeps.trans ?_ (State.fsat_keeps _ _ _ _)
    exact Keeps.refl _
  intro k10
  clear_value x9
  refine Keeps.ite ?_ ?_
  · exact k10
  · extract_lets +onlyGivenNames x11
    refine Keeps.cut (b := x11) ?_ ?_
    · unfold x11
      refine Keeps.trans ?_ (State.modCsm_keeps _ _ _)
      exact k10
    intro k12
    clear_value x11
    split
    · rename_i z13 z14 z15 z16 z17
      refine Keeps.cut (b := z16) ?_ ?_
      · refine KSnd2.eq z17 ?_
        refine KSnd2.ite ?_ ?_
        · refine KSnd2.trans ?_ (State.admitReruns_keeps _ _ _ _)
          exact k12
        · refine KSnd2.mk ?_
          exact k12
      intro k18
      extract_lets +onlyGivenNames x19
      split
      · rename_i z20 z21 z22 z23
        refine Keeps.cut (b := z22) ?_ ?_
        · refine KSnd.eq z23 ?_
          refine KSnd.trans ?_ (State.firstCheck_keeps _ _ _ _ _)
          exact k18
        intro k24
        extract_lets +onlyGivenNames x25
        extract_lets +onlyGivenNames x26
        refine Keeps.cut (b := x26) ?_ ?_
        · unfold x26
          refine Keeps.foldl _ _ (fun s27 y28 => ?_) ?_
          · refine Keeps.trans ?_ (State.failHeld_keeps _ _ _ _)
            exact Keeps.refl _
          · exact k24
        intro k29
        clear_value x26
        extract_lets +onlyGivenNames x30
        refine Keeps.ite ?_ ?_
        · extract_lets +onlyGivenNames x31
          refine Keeps.cut (b := x31) ?_ ?_
          · unfold x31
            refine Keeps.foldl _ _ (fun s32 y33 => ?_) ?_
            · refine Keeps.trans ?_ (State.failHeld_keeps _ _ _ _)
              exact Keeps.refl _
            · exact k29
          intro k34
          clear_value x31
          refine Keeps.trans ?_ (State.modCsm_keeps _ _ _)
          exact k34
        · extract_lets +onlyGivenNames x35
          extract_lets +onlyGivenNames x36
          split
          · rename_i z37 z38 z39 z40
            refine Keeps.cut (b := z39) ?_ ?_
            · refine KSnd.eq z40 ?_
              refine KSnd.trans ?_ (State.admitCtxs_keeps _ _ _ _ _ _ _ _)
              exact k29
            intro k41
            refine Keeps.trans ?_ (State.modCsm_keeps _ _ _)
            exact k41

theorem State.carryOver_keeps (s : State) (d p cut lastSlot : Nat) : Keeps 0x4208088 s (State.carryOver s d p cut lastSlot) := by
  unfold State.carryOver
  refine Keeps.ite ?_ ?_
  · exact Keeps.refl _
  · extract_lets +onlyGivenNames x0
    extract_lets +onlyGivenNames x1
    extract_lets +onlyGivenNames x2
    refine Keeps.cut (b := x2) ?_ ?_
    · unfold x2
      refine Keeps.foldl _ _ (fun s3 y4 => ?_) ?_
      · refine Keeps.trans ?_ (State.pmc_keeps _ _ _ _ _ _)
        exact Keeps.refl _
      · exact Keeps.refl _
    intro k5
    clear_value x2
    refine Keeps.trans ?_ (State.fadd_keeps _ _ _ _)
    refine Keeps.trans ?_ (State.modCsm_keeps _ _ _)
    exact k5

end Sys2Proof.Machine
end

