-- ==== Sys2Proof/Laws/KeepsResults.lean ====
section
/-!
SUPPORT. Sys2Proof/Laws/KeepsResults.lean: each operation of Machine/Results.lean keeps what `Keeps` says, with the parts of the state it may
touch.
-/
namespace Sys2Proof.Machine
set_option Elab.async false

theorem State.modSweep_keeps (s : State) (d id : Nat) (f : Sweep → Sweep) : Keeps 0x80 s (State.modSweep s d id f) := by
  unfold State.modSweep
  refine Keeps.trans ?_ (State.modCsm_keeps _ _ _)
  exact Keeps.refl _

theorem State.modRec_keeps (s : State) (d id i : Nat) (f : SweepRec → SweepRec) : Keeps 0x80 s (State.modRec s d id i f) := by
  unfold State.modRec
  refine Keeps.trans ?_ (State.modSweep_keeps _ _ _ _)
  exact Keeps.refl _

theorem State.gradClose_keeps (s : State) (d id : Nat) (g : Grad) (w0 : List (Nat × Nat × Nat × Bool × Nat)) : Keeps 0x44081E9 s (State.gradClose s d id g w0) := by
  induction w0 generalizing s d id g with
  | nil =>
    unfold State.gradClose
    refine Keeps.trans ?_ (State.modCsm_keeps _ _ _)
    exact Keeps.refl _
  | cons hd0 tl0 ih =>
    unfold State.gradClose
    extract_lets +onlyGivenNames x0
    extract_lets +onlyGivenNames x1
    refine Keeps.ite ?_ ?_
    · unfold x0
      refine Keeps.foldl _ _ (fun s2 y3 => ?_) ?_
      · refine Keeps.trans ?_ (State.completeKey_keeps _ _ _ _ _)
        exact Keeps.refl _
      · refine Keeps.trans ?_ (State.completeKey_keeps _ _ _ _ _)
        refine Keeps.trans ?_ (State.segsToLimbo_keeps _ _ _)
        unfold x1
        refine Keeps.trans ?_ (State.modCsm_keeps _ _ _)
        exact Keeps.refl _
    · extract_lets +onlyGivenNames x4
      refine Keeps.cut (b := x4) ?_ ?_
      · unfold x4
        refine Keeps.ite ?_ ?_
        · exact Keeps.refl _
        · split
          · rename_i z5 z6 z7
            refine Keeps.trans ?_ (State.descWrite_keeps _ _ _ _)
            exact Keeps.refl _
          · rename_i z8 z9
            exact Keeps.refl _
      intro k10
      clear_value x4
      refine Keeps.ite ?_ ?_
      · refine Keeps.tr ?_ (ih _ _ _ _)
        refine Keeps.trans ?_ (State.completeKey_keeps _ _ _ _ _)
        exact k10
      · extract_lets +onlyGivenNames x11
        refine Keeps.cut (b := x11) ?_ ?_
        · unfold x11
          refine Keeps.ite ?_ ?_
          · refine Keeps.trans ?_ (State.giveSegs_keeps _ _ _)
            unfold x1
            refine Keeps.trans ?_ (State.modCsm_keeps _ _ _)
            exact k10
          · refine Keeps.trans ?_ (State.segsToLimbo_keeps _ _ _)
            unfold x1
            refine Keeps.trans ?_ (State.modCsm_keeps _ _ _)
            exact k10
        intro k12
        clear_value x11
        unfold x0
        refine Keeps.foldl _ _ (fun s13 y14 => ?_) ?_
        · refine Keeps.trans ?_ (State.completeKey_keeps _ _ _ _ _)
          exact Keeps.refl _
        · refine Keeps.trans ?_ (State.completeKey_keeps _ _ _ _ _)
          exact k12

theorem State.gradSettle_keeps (s : State) (d : Nat) : Keeps 0x44081E9 s (State.gradSettle s d) := by
  unfold State.gradSettle
  refine Keeps.foldl _ _ (fun s0 y1 => ?_) ?_
  · refine Keeps.ite ?_ ?_
    · exact Keeps.refl _
    · refine Keeps.trans ?_ (State.gradClose_keeps _ _ _ _ _)
      exact Keeps.refl _
  · exact Keeps.refl _

theorem State.failRec_keeps (s : State) (d id i st : Nat) : Keeps 0x80 s (State.failRec s d id i st) := by
  unfold State.failRec
  split
  · rename_i z0 z1
    exact Keeps.refl _
  · rename_i z2 z3 z4
    refine Keeps.ite ?_ ?_
    · refine Keeps.trans ?_ (State.poison_keeps _ _ _)
      refine Keeps.trans ?_ (State.modRec_keeps _ _ _ _ _)
      exact Keeps.refl _
    · exact Keeps.refl _

theorem State.failRecs_keeps (s : State) (d id st : Nat) (l : List Nat) : Keeps 0x80 s (State.failRecs s d id st l) := by
  unfold State.failRecs
  refine Keeps.foldl _ _ (fun s0 y1 => ?_) ?_
  · refine Keeps.trans ?_ (State.failRec_keeps _ _ _ _ _)
    exact Keeps.refl _
  · exact Keeps.refl _

theorem State.pinPlan_keeps (s : State) (d id : Nat) : Keeps 0x80 s (State.pinPlan s d id) := by
  unfold State.pinPlan
  split
  · rename_i z0 z1
    exact Keeps.refl _
  · rename_i z2 z3 z4
    refine Keeps.ite ?_ ?_
    · exact Keeps.refl _
    · extract_lets +onlyGivenNames x5
      refine Keeps.trans ?_ (State.modCsm_keeps _ _ _)
      exact Keeps.refl _

theorem State.sweepOff_keeps (s : State) (d : Nat) : Keeps 0x20000080 s (State.sweepOff s d) := by
  unfold State.sweepOff
  refine Keeps.trans ?_ (State.modCsm_keeps _ _ _)
  refine Keeps.trans ?_ (State.fset_keeps _ _ _ _)
  exact Keeps.refl _

theorem State.settleTrace_keeps (s : State) (d : Nat) (w : Sweep) (r : SweepRec) : Keeps 0x8000 s (State.settleTrace s d w r) := by
  unfold State.settleTrace
  split
  · rename_i z0 z1
    exact Keeps.refl _
  · rename_i z2 z3 z4
    extract_lets +onlyGivenNames x5
    split
    · rename_i z6 z7
      exact Keeps.refl _
    · rename_i z8 z9 z10
      refine Keeps.ite ?_ ?_
      · exact Keeps.refl _
      · refine Keeps.trans ?_ (State.modPmc_keeps _ _ _)
        exact Keeps.refl _

theorem State.lastTile_keeps (s : State) (d id : Nat) : Keeps 0x24008088 s (State.lastTile s d id) := by
  unfold State.lastTile
  split
  · rename_i z0 z1
    exact Keeps.refl _
  · rename_i z2 z3 z4
    refine Keeps.ite ?_ ?_
    · exact Keeps.refl _
    · extract_lets +onlyGivenNames x5
      extract_lets +onlyGivenNames x6
      refine Keeps.cut (b := x6) ?_ ?_
      · unfold x6
        refine Keeps.trans ?_ (State.sweepOff_keeps _ _)
        refine Keeps.trans ?_ (State.modSweep_keeps _ _ _ _)
        exact Keeps.refl _
      intro k7
      clear_value x6
      extract_lets +onlyGivenNames x8
      refine Keeps.cut (b := x8) ?_ ?_
      · unfold x8
        refine Keeps.trans ?_ (State.fadd_keeps _ _ _ _)
        refine Keeps.trans ?_ (State.fsat_keeps _ _ _ _)
        refine Keeps.trans ?_ (State.fsat_keeps _ _ _ _)
        exact k7
      intro k9
      clear_value x8
      extract_lets +onlyGivenNames x10
      refine Keeps.cut (b := x10) ?_ ?_
      · unfold x10
        refine Keeps.trans ?_ (State.fadd_keeps _ _ _ _)
        exact k9
      intro k11
      clear_value x10
      extract_lets +onlyGivenNames x12
      refine Keeps.cut (b := x12) ?_ ?_
      · unfold x12
        refine Keeps.foldl _ _ (fun s13 y14 => ?_) ?_
        · refine Keeps.trans ?_ (State.settleTrace_keeps _ _ _ _)
          exact Keeps.refl _
        · exact k11
      intro k15
      clear_value x12
      refine Keeps.trans ?_ (State.hist_keeps _ _ _ _ _)
      refine Keeps.trans ?_ (State.pmc_keeps _ _ _ _ _ _)
      exact k15

theorem State.chargeDebt_keeps (s : State) (d p lat : Nat) : Keeps 0x208000 s (State.chargeDebt s d p lat) := by
  unfold State.chargeDebt
  refine Keeps.ite ?_ ?_
  · exact Keeps.refl _
  · extract_lets +onlyGivenNames x0
    extract_lets +onlyGivenNames x1
    refine Keeps.cut (b := x1) ?_ ?_
    · unfold x1
      refine Keeps.trans ?_ (State.fset_keeps _ _ _ _)
      exact Keeps.refl _
    intro k2
    clear_value x1
    refine Keeps.trans ?_ (State.hist_keeps _ _ _ _ _)
    refine Keeps.trans ?_ (State.fmax_keeps _ _ _ _)
    refine Keeps.trans ?_ (State.fadd_keeps _ _ _ _)
    exact k2

theorem State.finishDestroy_keeps (s : State) (p n : Nat) : Keeps 0x4C081E9 s (State.finishDestroy s p n) := by
  unfold State.finishDestroy
  split
  · rename_i z0 z1
    exact Keeps.refl _
  · rename_i z2 z3 z4
    split
    · rename_i z5 z6
      exact Keeps.refl _
    · rename_i z7 z8 z9 z10 z11 z12
      extract_lets +onlyGivenNames x13
      refine Keeps.ite ?_ ?_
      · exact Keeps.refl _
      · extract_lets +onlyGivenNames x14
        refine Keeps.cut (b := x14) ?_ ?_
        · unfold x14
          refine Keeps.trans ?_ (State.gradSettle_keeps _ _)
          exact Keeps.refl _
        intro k15
        clear_value x14
        extract_lets +onlyGivenNames x16
        extract_lets +onlyGivenNames x17
        refine Keeps.cut (b := x17) ?_ ?_
        · unfold x17
          refine Keeps.trans ?_ (State.modCsm_keeps _ _ _)
          exact k15
        intro k18
        clear_value x17
        extract_lets +onlyGivenNames x19
        refine Keeps.cut (b := x19) ?_ ?_
        · unfold x19
          refine Keeps.foldl _ _ (fun s20 y21 => ?_) ?_
          · refine Keeps.trans ?_ (State.giveSegs_keeps _ _ _)
            exact Keeps.refl _
          · exact k18
        intro k22
        clear_value x19
        extract_lets +onlyGivenNames x23
        refine Keeps.cut (b := x23) ?_ ?_
        · unfold x23
          refine Keeps.foldl _ _ (fun s24 y25 => ?_) ?_
          · refine Keeps.trans ?_ (State.giveSegs_keeps _ _ _)
            exact Keeps.refl _
          · exact k22
        intro k26
        clear_value x23
        extract_lets +onlyGivenNames x27
        refine Keeps.cut (b := x27) ?_ ?_
        · unfold x27
          refine Keeps.trans ?_ (State.modPart_keeps _ _ _)
          exact k26
        intro k28
        clear_value x27
        refine Keeps.trans ?_ (State.completeKey_keeps _ _ _ _ _)
        refine Keeps.trans ?_ (State.fadd_keeps _ _ _ _)
        exact k28

theorem State.sweepOver_keeps (s : State) (d id : Nat) : Keeps 0x4E081E9 s (State.sweepOver s d id) := by
  unfold State.sweepOver
  split
  · rename_i z0 z1
    exact Keeps.refl _
  · rename_i z2 z3 z4
    refine Keeps.ite ?_ ?_
    · exact Keeps.refl _
    · extract_lets +onlyGivenNames x5
      refine Keeps.cut (b := x5) ?_ ?_
      · unfold x5
        refine Keeps.trans ?_ (State.chargeDebt_keeps _ _ _ _)
        refine Keeps.trans ?_ (State.closeHolder_keeps _ _ _)
        exact Keeps.refl _
      intro k6
      clear_value x5
      extract_lets +onlyGivenNames x7
      refine Keeps.cut (b := x7) ?_ ?_
      · unfold x7
        refine Keeps.trans ?_ (State.modCsm_keeps _ _ _)
        exact k6
      intro k8
      clear_value x7
      refine Keeps.trans ?_ (State.finishDestroy_keeps _ _ _)
      exact k8

theorem State.dropRec_keeps (s : State) (d id i : Nat) (h : Held) : Keeps 0x26E089E9 s (State.dropRec s d id i h) := by
  unfold State.dropRec
  extract_lets +onlyGivenNames x0
  refine Keeps.cut (b := x0) ?_ ?_
  · unfold x0
    refine Keeps.trans ?_ (State.ledgerOut_keeps _ _ _)
    refine Keeps.trans ?_ (State.setSrc_keeps _ _ _ _)
    exact Keeps.refl _
  intro k1
  clear_value x0
  extract_lets +onlyGivenNames x2
  refine Keeps.cut (b := x2) ?_ ?_
  · unfold x2
    refine Keeps.trans ?_ (State.modRec_keeps _ _ _ _ _)
    exact k1
  intro k3
  clear_value x2
  refine Keeps.trans ?_ (State.gradSettle_keeps _ _)
  refine Keeps.trans ?_ (State.sweepOver_keeps _ _ _)
  refine Keeps.trans ?_ (State.lastTile_keeps _ _ _)
  exact k3

theorem State.deliverRec_keeps (s : State) (d id i : Nat) : Keeps 0x426E0ABE9 s (State.deliverRec s d id i) := by
  unfold State.deliverRec
  split
  · rename_i z0 z1
    exact Keeps.refl _
  · rename_i z2 z3 z4
    split
    · rename_i z5 z6
      exact Keeps.refl _
    · rename_i z7 z8 z9
      refine Keeps.ite ?_ ?_
      · exact Keeps.refl _
      · refine Keeps.ite ?_ ?_
        · refine Keeps.trans ?_ (State.dropRec_keeps _ _ _ _ _)
          exact Keeps.refl _
        · split
          · rename_i z10 z11 z12 z13 z14 z15
            extract_lets +onlyGivenNames x16
            refine Keeps.cut (b := x16) ?_ ?_
            · unfold x16
              refine Keeps.trans ?_ (State.sendStatus_keeps _ _ _ _ _ _ _)
              exact Keeps.refl _
            intro k17
            clear_value x16
            extract_lets +onlyGivenNames x18
            extract_lets +onlyGivenNames x19
            refine Keeps.cut (b := x19) ?_ ?_
            · unfold x19
              refine Keeps.trans ?_ (State.noteResult_keeps _ _ _ _ _ _ _ _)
              exact k17
            intro k20
            clear_value x19
            extract_lets +onlyGivenNames x21
            extract_lets +onlyGivenNames x22
            refine Keeps.cut (b := x22) ?_ ?_
            · unfold x22
              refine Keeps.trans ?_ (State.modSweep_keeps _ _ _ _)
              exact k20
            intro k23
            clear_value x22
            extract_lets +onlyGivenNames x24
            refine Keeps.cut (b := x24) ?_ ?_
            · unfold x24
              refine Keeps.ite ?_ ?_
              · refine Keeps.trans ?_ (State.fadd_keeps _ _ _ _)
                exact k23
              · exact k23
            intro k25
            clear_value x24
            refine Keeps.trans ?_ (State.gradSettle_keeps _ _)
            refine Keeps.trans ?_ (State.sweepOver_keeps _ _ _)
            refine Keeps.trans ?_ (State.lastTile_keeps _ _ _)
            exact k25

theorem State.fenceSweep_keeps (s : State) (d : Nat) : Keeps 0x426E0ABE9 s (State.fenceSweep s d) := by
  unfold State.fenceSweep
  split
  · rename_i z0 z1
    exact Keeps.refl _
  · rename_i z2 z3 z4
    extract_lets +onlyGivenNames x5
    refine Keeps.foldl _ _ (fun s6 y7 => ?_) ?_
    · refine Keeps.trans ?_ (State.deliverRec_keeps _ _ _ _)
      exact Keeps.refl _
    · refine Keeps.trans ?_ (State.failRecs_keeps _ _ _ _ _)
      exact Keeps.refl _

end Sys2Proof.Machine
end

