-- ==== Sys2Proof/Laws/KeepsNrtRx.lean ====
section
/-!
SUPPORT. Sys2Proof/Laws/KeepsNrtRx.lean: each operation of Machine/NrtRx.lean keeps what `Keeps` says, with the parts of the state it may
touch.
-/
namespace Sys2Proof.Machine
set_option Elab.async false

theorem State.noteFail_keeps (s : State) (d status key src : Nat) : Keeps 0x400408849 s (State.noteFail s d status key src) := by
  unfold State.noteFail
  refine Keeps.ite ?_ ?_
  · exact Keeps.refl _
  · extract_lets +onlyGivenNames x0
    refine Keeps.cut (b := x0) ?_ ?_
    · unfold x0
      refine Keeps.trans ?_ (State.evtDie_keeps _ _ _)
      refine Keeps.trans ?_ (State.fadd_keeps _ _ _ _)
      exact Keeps.refl _
    intro k1
    clear_value x0
    refine Keeps.trans ?_ (State.nrtOccur_keeps _ _ _ _)
    refine Keeps.trans ?_ (State.modNrt_keeps _ _ _)
    exact k1

theorem State.setRx_keeps (s : State) (d : Nat) (x : Rx) : Keeps 0x800 s (State.setRx s d x) := by
  unfold State.setRx
  refine Keeps.trans ?_ (State.modNrt_keeps _ _ _)
  exact Keeps.refl _

theorem State.newRx_keeps (s : State) (d : Nat) (h : NrtHdr) (from_ cls : Nat) : KSnd 0x400000800 s (State.newRx s d h from_ cls) := by
  unfold State.newRx
  extract_lets +onlyGivenNames x0
  extract_lets +onlyGivenNames x1
  refine KSnd.cut (b := x1) ?_ ?_
  · unfold x1
    refine Keeps.trans ?_ (State.modNrt_keeps _ _ _)
    exact Keeps.refl _
  intro k2
  clear_value x1
  refine KSnd.mk ?_
  refine Keeps.trans ?_ (State.fset_keeps _ _ _ _)
  exact k2

theorem State.rxDone_keeps (s : State) (d : Nat) (x : Rx) : Keeps 0x42640ABE9 s (State.rxDone s d x) := by
  unfold State.rxDone
  extract_lets +onlyGivenNames x0
  extract_lets +onlyGivenNames x1
  extract_lets +onlyGivenNames x2
  refine Keeps.cut (b := x2) ?_ ?_
  · unfold x2
    refine Keeps.trans ?_ (State.fadd_keeps _ _ _ _)
    exact Keeps.refl _
  intro k3
  clear_value x2
  refine Keeps.ite ?_ ?_
  · extract_lets +onlyGivenNames x4
    extract_lets +onlyGivenNames x5
    refine Keeps.cut (b := x5) ?_ ?_
    · unfold x5
      refine Keeps.trans ?_ (State.answer_keeps _ _ _ _)
      refine Keeps.trans ?_ (State.setEntry_keeps _ _ _ _ _)
      exact k3
    intro k6
    clear_value x5
    refine Keeps.trans ?_ (State.holdRecord_keeps _ _ _ _ _ _)
    exact k6
  · extract_lets +onlyGivenNames x7
    refine Keeps.cut (b := x7) ?_ ?_
    · unfold x7
      refine Keeps.ite ?_ ?_
      · refine Keeps.trans ?_ (State.bumpCtr_keeps _ _ _ _)
        exact k3
      · exact k3
    intro k8
    clear_value x7
    refine Keeps.trans ?_ (State.answer_keeps _ _ _ _)
    exact k8

theorem State.rxPlace_keeps (s : State) (d : Nat) (x : Rx) (off : Nat) (p : List Byte) : Keeps 0x42640ABE9 s (State.rxPlace s d x off p) := by
  unfold State.rxPlace
  extract_lets +onlyGivenNames x0
  refine Keeps.cut (b := x0) ?_ ?_
  · unfold x0
    refine Keeps.trans ?_ (State.modRegion_keeps _ _ _ _)
    exact Keeps.refl _
  intro k1
  clear_value x0
  extract_lets +onlyGivenNames x2
  extract_lets +onlyGivenNames x3
  refine Keeps.cut (b := x3) ?_ ?_
  · unfold x3
    refine Keeps.trans ?_ (State.setRx_keeps _ _ _)
    exact k1
  intro k4
  clear_value x3
  refine Keeps.ite ?_ ?_
  · refine Keeps.trans ?_ (State.rxDone_keeps _ _ _)
    exact k4
  · exact k4

theorem State.settleRevokes_keeps (s : State) (d : Nat) : Keeps 0x404408869 s (State.settleRevokes s d) := by
  unfold State.settleRevokes
  extract_lets +onlyGivenNames x0
  refine Keeps.ite ?_ ?_
  · exact Keeps.refl _
  · extract_lets +onlyGivenNames x1
    refine Keeps.cut (b := x1) ?_ ?_
    · unfold x1
      refine Keeps.trans ?_ (State.modNrt_keeps _ _ _)
      exact Keeps.refl _
    intro k2
    clear_value x1
    extract_lets +onlyGivenNames x3
    refine Keeps.cut (b := x3) ?_ ?_
    · unfold x3
      refine Keeps.foldl _ _ (fun s4 y5 => ?_) ?_
      · refine Keeps.trans ?_ (State.completeKey_keeps _ _ _ _ _)
        exact Keeps.refl _
      · exact k2
    intro k6
    clear_value x3
    refine Keeps.trans ?_ (State.fput_keeps _ _ _ _)
    exact k6

theorem State.releaseFences_keeps (s : State) (d : Nat) (w0 : Nat) : Keeps 0x42640ABE9 s (State.releaseFences s d w0) := by
  induction w0 generalizing s d with
  | zero =>
    unfold State.releaseFences
    exact Keeps.refl _
  | succ n0 ih =>
    unfold State.releaseFences
    extract_lets +onlyGivenNames x0
    unfold x0
    split
    · rename_i z1 z2
      exact Keeps.refl _
    · rename_i z3 z4 z5
      extract_lets +onlyGivenNames x6
      extract_lets +onlyGivenNames x7
      refine Keeps.cut (b := x7) ?_ ?_
      · unfold x7
        refine Keeps.ite ?_ ?_
        · refine Keeps.trans ?_ (State.rxPlace_keeps _ _ _ _ _)
          exact Keeps.refl _
        · refine Keeps.trans ?_ (State.failRx_keeps _ _ _ _)
          exact Keeps.refl _
      intro k8
      clear_value x7
      refine Keeps.tr ?_ (ih _ _)
      exact k8

theorem State.fences_keeps (s : State) (d : Nat) : Keeps 0x42640ABE9 s (State.fences s d) := by
  unfold State.fences
  refine Keeps.trans ?_ (State.settleRevokes_keeps _ _)
  refine Keeps.trans ?_ (State.releaseFences_keeps _ _ _)
  exact Keeps.refl _

theorem State.answerAgain_keeps (s : State) (d : Nat) (a : Answered) : Keeps 0x2800 s (State.answerAgain s d a) := by
  unfold State.answerAgain
  extract_lets +onlyGivenNames x0
  refine Keeps.ite ?_ ?_
  · exact Keeps.refl _
  · extract_lets +onlyGivenNames x1
    refine Keeps.cut (b := x1) ?_ ?_
    · unfold x1
      refine Keeps.trans ?_ (State.sendAnswer_keeps _ _ _ _ _ _ _)
      exact Keeps.refl _
    intro k2
    clear_value x1
    refine Keeps.trans ?_ (State.modNrt_keeps _ _ _)
    exact k2

theorem State.badHdr_keeps (s : State) (d : Nat) (h : NrtHdr) : Keeps 0x42640ABE9 s (State.badHdr s d h) := by
  unfold State.badHdr
  extract_lets +onlyGivenNames x0
  refine Keeps.cut (b := x0) ?_ ?_
  · unfold x0
    refine Keeps.trans ?_ (State.evtDie_keeps _ _ _)
    refine Keeps.trans ?_ (State.fadd_keeps _ _ _ _)
    exact Keeps.refl _
  intro k1
  clear_value x0
  split
  · rename_i z2 z3 z4
    refine Keeps.trans ?_ (State.fences_keeps _ _)
    refine Keeps.trans ?_ (State.failRx_keeps _ _ _ _)
    exact k1
  · rename_i z5 z6
    exact k1

theorem State.ctxFull_keeps (s : State) (d : Nat) (h : NrtHdr) (from_ : Nat) : Keeps 0x40040A849 s (State.ctxFull s d h from_) := by
  unfold State.ctxFull
  extract_lets +onlyGivenNames x0
  refine Keeps.cut (b := x0) ?_ ?_
  · unfold x0
    refine Keeps.trans ?_ (State.nrtOccur_keeps _ _ _ _)
    refine Keeps.trans ?_ (State.evtDie_keeps _ _ _)
    refine Keeps.trans ?_ (State.fadd_keeps _ _ _ _)
    exact Keeps.refl _
  intro k1
  clear_value x0
  refine Keeps.trans ?_ (State.answer_keeps _ _ _ _)
  exact k1

theorem State.rxChecked_keeps (s : State) (d : Nat) (x : Rx) (h : NrtHdr) (p : List Byte) : Keeps 0x42640ABE9 s (State.rxChecked s d x h p) := by
  unfold State.rxChecked
  extract_lets +onlyGivenNames x0
  refine Keeps.ite ?_ ?_
  · refine Keeps.trans ?_ (State.fadd_keeps _ _ _ _)
    exact Keeps.refl _
  · extract_lets +onlyGivenNames x1
    split
    · rename_i z2 z3 z4
      refine Keeps.trans ?_ (State.fences_keeps _ _)
      refine Keeps.trans ?_ (State.failRx_keeps _ _ _ _)
      refine Keeps.trans ?_ (State.noteFail_keeps _ _ _ _ _)
      refine Keeps.trans ?_ (State.setRx_keeps _ _ _)
      exact Keeps.refl _
    · rename_i z5 z6
      extract_lets +onlyGivenNames x7
      extract_lets +onlyGivenNames x8
      refine Keeps.cut (b := x8) ?_ ?_
      · unfold x8
        refine Keeps.ite ?_ ?_
        · refine Keeps.trans ?_ (State.setEntry_keeps _ _ _ _ _)
          exact Keeps.refl _
        · exact Keeps.refl _
      intro k9
      clear_value x8
      refine Keeps.ite ?_ ?_
      · refine Keeps.trans ?_ (State.modNrt_keeps _ _ _)
        refine Keeps.trans ?_ (State.setRx_keeps _ _ _)
        exact k9
      · refine Keeps.ite ?_ ?_
        · refine Keeps.trans ?_ (State.fences_keeps _ _)
          refine Keeps.trans ?_ (State.setRx_keeps _ _ _)
          exact k9
        · refine Keeps.trans ?_ (State.fences_keeps _ _)
          refine Keeps.trans ?_ (State.rxPlace_keeps _ _ _ _ _)
          exact k9

theorem State.rxWrite_keeps (s : State) (d : Nat) (h : NrtHdr) (p : List Byte) (from_ cls : Nat) (ce wf : Bool) (cost : Nat) : Keeps 0xC2640ABE9 s (State.rxWrite s d h p from_ cls ce wf cost) := by
  unfold State.rxWrite
  refine Keeps.ite ?_ ?_
  · refine Keeps.trans ?_ (State.badHdr_keeps _ _ _)
    exact Keeps.refl _
  · split
    · rename_i z0 z1 z2 z3 z4
      refine Keeps.cut (b := z3) ?_ ?_
      · refine KSnd2.eq z4 ?_
        refine KSnd2.trans ?_ (State.police_keeps _ _ _ _)
        exact Keeps.refl _
      intro k5
      refine Keeps.ite ?_ ?_
      · exact k5
      · split
        · rename_i z6 z7 z8
          refine Keeps.trans ?_ (State.answerAgain_keeps _ _ _)
          exact k5
        · rename_i z9 z10
          extract_lets +onlyGivenNames x11
          split
          · rename_i z12 z13 z14
            extract_lets +onlyGivenNames x15
            extract_lets +onlyGivenNames x16
            refine Keeps.cut (b := x16) ?_ ?_
            · unfold x16
              refine Keeps.trans ?_ (State.setRx_keeps _ _ _)
              exact k5
            intro k17
            clear_value x16
            refine Keeps.ite ?_ ?_
            · refine Keeps.trans ?_ (State.rxChecked_keeps _ _ _ _ _)
              exact k17
            · refine Keeps.trans ?_ (State.fences_keeps _ _)
              refine Keeps.trans ?_ (State.failRx_keeps _ _ _ _)
              exact k17
          · rename_i z18 z19
            refine Keeps.ite ?_ ?_
            · refine Keeps.trans ?_ (State.ctxFull_keeps _ _ _ _)
              exact k5
            · split
              · rename_i z20 z21 z22 z23
                refine Keeps.cut (b := z22) ?_ ?_
                · refine KSnd.eq z23 ?_
                  refine KSnd.trans ?_ (State.newRx_keeps _ _ _ _ _)
                  exact k5
                intro k24
                extract_lets +onlyGivenNames x25
                refine Keeps.trans ?_ (State.rxChecked_keeps _ _ _ _ _)
                refine Keeps.trans ?_ (State.setRx_keeps _ _ _)
                exact k24

theorem State.nakRead_keeps (s : State) (d : Nat) (h : NrtHdr) (from_ status : Nat) : Keeps 0x42640ABE9 s (State.nakRead s d h from_ status) := by
  unfold State.nakRead
  refine Keeps.trans ?_ (State.fences_keeps _ _)
  refine Keeps.trans ?_ (State.answer_keeps _ _ _ _)
  exact Keeps.refl _

theorem State.servePkts_keeps (s : State) (d : Nat) (v : Serve) (retx : Bool) (idx : List Nat) : Keeps 0x2000 s (State.servePkts s d v retx idx) := by
  unfold State.servePkts
  extract_lets +onlyGivenNames x0
  refine Keeps.foldl _ _ (fun s1 y2 => ?_) ?_
  · extract_lets +onlyGivenNames x3
    extract_lets +onlyGivenNames x4
    refine Keeps.trans ?_ (State.enqueue_keeps _ _ _ _ _ _)
    exact Keeps.refl _
  · exact Keeps.refl _

theorem State.endServe_keeps (s : State) (d src msg : Nat) : Keeps 0x2800 s (State.endServe s d src msg) := by
  unfold State.endServe
  extract_lets +onlyGivenNames x0
  extract_lets +onlyGivenNames x1
  refine Keeps.cut (b := x1) ?_ ?_
  · unfold x1
    refine Keeps.trans ?_ (State.accrueAll_keeps _ _)
    exact Keeps.refl _
  intro k2
  clear_value x1
  extract_lets +onlyGivenNames x3
  refine Keeps.cut (b := x3) ?_ ?_
  · unfold x3
    refine Keeps.trans ?_ (State.modLnk_keeps _ _ _)
    exact k2
  intro k4
  clear_value x3
  refine Keeps.trans ?_ (State.modNrt_keeps _ _ _)
  exact k4

theorem State.readyFrame_keeps (s : State) (d : Nat) (f : QFrame) : KSnd 0x42640ABE9 s (State.readyFrame s d f) := by
  unfold State.readyFrame
  split
  · rename_i z0 z1 z2 z3
    refine KSnd.ite ?_ ?_
    · refine KSnd.mk ?_
      exact Keeps.refl _
    · split
      · rename_i z4 z5
        refine KSnd.mk ?_
        refine Keeps.trans ?_ (State.endServe_keeps _ _ _ _)
        exact Keeps.refl _
      · rename_i z6 z7 z8
        split
        · rename_i z9 z10 z11
          refine KSnd.mk ?_
          refine Keeps.trans ?_ (State.nakRead_keeps _ _ _ _ _)
          refine Keeps.trans ?_ (State.endServe_keeps _ _ _ _)
          refine Keeps.trans ?_ (State.noteFail_keeps _ _ _ _ _)
          exact Keeps.refl _
        · rename_i z12 z13
          refine KSnd.mk ?_
          exact Keeps.refl _
  · rename_i z14 z15
    refine KSnd.mk ?_
    exact Keeps.refl _

theorem State.rxRead_keeps (s : State) (d : Nat) (h : NrtHdr) (from_ cls : Nat) (wf : Bool) (cost : Nat) : Keeps 0xC2640ABE9 s (State.rxRead s d h from_ cls wf cost) := by
  unfold State.rxRead
  refine Keeps.ite ?_ ?_
  · refine Keeps.trans ?_ (State.badHdr_keeps _ _ _)
    exact Keeps.refl _
  · split
    · rename_i z0 z1 z2 z3 z4
      refine Keeps.cut (b := z3) ?_ ?_
      · refine KSnd2.eq z4 ?_
        refine KSnd2.trans ?_ (State.police_keeps _ _ _ _)
        exact Keeps.refl _
      intro k5
      refine Keeps.ite ?_ ?_
      · exact k5
      · split
        · rename_i z6 z7 z8
          refine Keeps.trans ?_ (State.answerAgain_keeps _ _ _)
          exact k5
        · rename_i z9 z10
          refine Keeps.ite ?_ ?_
          · refine Keeps.trans ?_ (State.nakRead_keeps _ _ _ _ _)
            exact k5
          · split
            · rename_i z11 z12 z13
              refine Keeps.trans ?_ (State.nakRead_keeps _ _ _ _ _)
              refine Keeps.trans ?_ (State.noteFail_keeps _ _ _ _ _)
              exact k5
            · rename_i z14 z15
              extract_lets +onlyGivenNames x16
              extract_lets +onlyGivenNames x17
              refine Keeps.cut (b := x17) ?_ ?_
              · unfold x17
                refine Keeps.trans ?_ (State.modNrt_keeps _ _ _)
                exact k5
              intro k18
              clear_value x17
              refine Keeps.trans ?_ (State.servePkts_keeps _ _ _ _ _)
              exact k18

theorem State.rxResp_keeps (s : State) (d : Nat) (h : NrtHdr) (p : List Byte) (from_ cls : Nat) (wf : Bool) : Keeps 0x5E440ABEB s (State.rxResp s d h p from_ cls wf) := by
  unfold State.rxResp
  extract_lets +onlyGivenNames x0
  unfold x0
  split
  · rename_i z1 z2
    refine Keeps.ite ?_ ?_
    · exact Keeps.refl _
    · refine Keeps.trans ?_ (State.evtDie_keeps _ _ _)
      refine Keeps.trans ?_ (State.fadd_keeps _ _ _ _)
      exact Keeps.refl _
  · rename_i z3 z4 z5
    refine Keeps.ite ?_ ?_
    · refine Keeps.trans ?_ (State.evtDie_keeps _ _ _)
      refine Keeps.trans ?_ (State.fadd_keeps _ _ _ _)
      exact Keeps.refl _
    · extract_lets +onlyGivenNames x6
      extract_lets +onlyGivenNames x7
      extract_lets +onlyGivenNames x8
      split
      · rename_i z9 z10 z11
        unfold x8
        split
        · rename_i z12 z13
          refine Keeps.trans ?_ (State.evtDie_keeps _ _ _)
          refine Keeps.trans ?_ (State.fadd_keeps _ _ _ _)
          exact Keeps.refl _
        · rename_i z14 z15 z16 z17
          refine Keeps.cut (b := z16) ?_ ?_
          · refine KOpt.eq (g := fun (r : Sys2Proof.Machine.Rx × Sys2Proof.Machine.State) => r.2) (r := (z15, z16)) z17 ?_
            unfold x6
            split
            · rename_i z18 z19 z20
              refine KOpt.mk ?_
              exact Keeps.refl _
            · rename_i z21 z22
              refine KOpt.ite ?_ ?_
              · refine KOpt.mk ?_
                refine KSnd.get ?_
                refine KSnd.trans ?_ (State.newRx_keeps _ _ _ _ _)
                exact Keeps.refl _
              · trivial
          intro k23
          refine Keeps.ite ?_ ?_
          · refine Keeps.trans ?_ (State.fadd_keeps _ _ _ _)
            exact k23
          · extract_lets +onlyGivenNames x24
            extract_lets +onlyGivenNames x25
            refine Keeps.cut (b := x25) ?_ ?_
            · unfold x25
              refine Keeps.trans ?_ (State.modNrt_keeps _ _ _)
              exact k23
            intro k26
            clear_value x25
            extract_lets +onlyGivenNames x27
            refine Keeps.ite ?_ ?_
            · refine Keeps.trans ?_ (State.modNrt_keeps _ _ _)
              refine Keeps.trans ?_ (State.setRx_keeps _ _ _)
              exact k26
            · extract_lets +onlyGivenNames x28
              extract_lets +onlyGivenNames x29
              refine Keeps.cut (b := x29) ?_ ?_
              · unfold x29
                split
                · rename_i z30 z31 z32 z33
                  refine Keeps.trans ?_ (State.modRegion_keeps _ _ _ _)
                  exact k26
                · rename_i z34 z35
                  refine Keeps.trans ?_ (State.modNrt_keeps _ _ _)
                  exact k26
              intro k36
              clear_value x29
              extract_lets +onlyGivenNames x37
              extract_lets +onlyGivenNames x38
              refine Keeps.cut (b := x38) ?_ ?_
              · unfold x38
                refine Keeps.trans ?_ (State.setRx_keeps _ _ _)
                exact k36
              intro k39
              clear_value x38
              refine Keeps.ite ?_ ?_
              · refine Keeps.trans ?_ (State.finishTx_keeps _ _ _ _)
                refine Keeps.trans ?_ (State.fadd_keeps _ _ _ _)
                exact k39
              · exact k39
      · rename_i z40 z41
        unfold x8
        split
        · rename_i z42 z43
          refine Keeps.trans ?_ (State.evtDie_keeps _ _ _)
          refine Keeps.trans ?_ (State.fadd_keeps _ _ _ _)
          exact Keeps.refl _
        · rename_i z44 z45 z46 z47
          refine Keeps.cut (b := z46) ?_ ?_
          · refine KOpt.eq (g := fun (r : Sys2Proof.Machine.Rx × Sys2Proof.Machine.State) => r.2) (r := (z45, z46)) z47 ?_
            unfold x6
            split
            · rename_i z48 z49 z50
              refine KOpt.mk ?_
              exact Keeps.refl _
            · rename_i z51 z52
              refine KOpt.ite ?_ ?_
              · refine KOpt.mk ?_
                refine KSnd.get ?_
                refine KSnd.trans ?_ (State.newRx_keeps _ _ _ _ _)
                exact Keeps.refl _
              · trivial
          intro k53
          refine Keeps.ite ?_ ?_
          · refine Keeps.trans ?_ (State.fadd_keeps _ _ _ _)
            exact k53
          · extract_lets +onlyGivenNames x54
            extract_lets +onlyGivenNames x55
            refine Keeps.cut (b := x55) ?_ ?_
            · unfold x55
              refine Keeps.trans ?_ (State.modNrt_keeps _ _ _)
              exact k53
            intro k56
            clear_value x55
            extract_lets +onlyGivenNames x57
            refine Keeps.ite ?_ ?_
            · refine Keeps.trans ?_ (State.modNrt_keeps _ _ _)
              refine Keeps.trans ?_ (State.setRx_keeps _ _ _)
              exact k56
            · extract_lets +onlyGivenNames x58
              extract_lets +onlyGivenNames x59
              refine Keeps.cut (b := x59) ?_ ?_
              · unfold x59
                split
                · rename_i z60 z61 z62 z63
                  refine Keeps.trans ?_ (State.modRegion_keeps _ _ _ _)
                  exact k56
                · rename_i z64 z65
                  refine Keeps.trans ?_ (State.modNrt_keeps _ _ _)
                  exact k56
              intro k66
              clear_value x59
              extract_lets +onlyGivenNames x67
              extract_lets +onlyGivenNames x68
              refine Keeps.cut (b := x68) ?_ ?_
              · unfold x68
                refine Keeps.trans ?_ (State.setRx_keeps _ _ _)
                exact k66
              intro k69
              clear_value x68
              refine Keeps.ite ?_ ?_
              · refine Keeps.trans ?_ (State.finishTx_keeps _ _ _ _)
                refine Keeps.trans ?_ (State.fadd_keeps _ _ _ _)
                exact k69
              · exact k69

theorem State.rxAck_keeps (s : State) (d : Nat) (h : NrtHdr) : Keeps 0x5E440ABEB s (State.rxAck s d h) := by
  unfold State.rxAck
  split
  · rename_i z0 z1
    exact Keeps.refl _
  · rename_i z2 z3 z4
    refine Keeps.ite ?_ ?_
    · exact Keeps.refl _
    · extract_lets +onlyGivenNames x5
      refine Keeps.cut (b := x5) ?_ ?_
      · unfold x5
        refine Keeps.ite ?_ ?_
        · refine Keeps.trans ?_ (State.rateFall_keeps _ _ _ _)
          exact Keeps.refl _
        · exact Keeps.refl _
      intro k6
      clear_value x5
      refine Keeps.trans ?_ (State.finishTx_keeps _ _ _ _)
      refine Keeps.trans ?_ (State.pathCalm_keeps _ _ _ _)
      exact k6

theorem State.rxNak_keeps (s : State) (d : Nat) (h : NrtHdr) : Keeps 0x5E440ABEB s (State.rxNak s d h) := by
  unfold State.rxNak
  split
  · rename_i z0 z1
    exact Keeps.refl _
  · rename_i z2 z3 z4
    refine Keeps.trans ?_ (State.finishTx_keeps _ _ _ _)
    refine Keeps.trans ?_ (State.pathCalm_keeps _ _ _ _)
    exact Keeps.refl _

theorem State.rxSnack_keeps (s : State) (d : Nat) (h : NrtHdr) (ranges : List (Nat × Nat)) : Keeps 0x40040A849 s (State.rxSnack s d h ranges) := by
  unfold State.rxSnack
  extract_lets +onlyGivenNames x0
  refine Keeps.cut (b := x0) ?_ ?_
  · unfold x0
    refine Keeps.trans ?_ (State.fadd_keeps _ _ _ _)
    exact Keeps.refl _
  intro k1
  clear_value x0
  split
  · rename_i z2 z3 z4
    extract_lets +onlyGivenNames x5
    extract_lets +onlyGivenNames x6
    refine Keeps.cut (b := x6) ?_ ?_
    · unfold x6
      refine Keeps.trans ?_ (State.modNrt_keeps _ _ _)
      exact k1
    intro k7
    clear_value x6
    refine Keeps.foldl _ _ (fun s8 y9 => ?_) ?_
    · split
      · rename_i z10 z11 z12
        refine Keeps.trans ?_ (State.resend_keeps _ _ _ _)
        exact Keeps.refl _
      · rename_i z13 z14
        exact Keeps.refl _
    · refine Keeps.trans ?_ (State.rateFall_keeps _ _ _ _)
      exact k7
  · rename_i z15 z16
    split
    · rename_i z17 z18
      exact k1
    · rename_i z19 z20 z21
      extract_lets +onlyGivenNames x22
      extract_lets +onlyGivenNames x23
      refine Keeps.cut (b := x23) ?_ ?_
      · unfold x23
        split
        · rename_i z24 z25 z26 z27
          refine Keeps.trans ?_ (State.rateFall_keeps _ _ _ _)
          exact k1
        · rename_i z28 z29
          exact k1
      intro k30
      clear_value x23
      refine Keeps.trans ?_ (State.servePkts_keeps _ _ _ _ _)
      refine Keeps.trans ?_ (State.fadd_keeps _ _ _ _)
      exact k30

theorem State.snack_keeps (s : State) (d : Nat) (x : Rx) : Keeps 0x400002808 s (State.snack s d x) := by
  unfold State.snack
  extract_lets +onlyGivenNames x0
  extract_lets +onlyGivenNames x1
  extract_lets +onlyGivenNames x2
  refine Keeps.ite ?_ ?_
  · exact Keeps.refl _
  · refine Keeps.ite ?_ ?_
    · exact Keeps.refl _
    · extract_lets +onlyGivenNames x3
      extract_lets +onlyGivenNames x4
      extract_lets +onlyGivenNames x5
      extract_lets +onlyGivenNames x6
      extract_lets +onlyGivenNames x7
      refine Keeps.cut (b := x7) ?_ ?_
      · unfold x7
        refine Keeps.trans ?_ (State.enqueue_keeps _ _ _ _ _ _)
        exact Keeps.refl _
      intro k8
      clear_value x7
      extract_lets +onlyGivenNames x9
      refine Keeps.cut (b := x9) ?_ ?_
      · unfold x9
        refine Keeps.trans ?_ (State.setRx_keeps _ _ _)
        refine Keeps.trans ?_ (State.fadd_keeps _ _ _ _)
        exact k8
      intro k10
      clear_value x9
      refine Keeps.ite ?_ ?_
      · refine Keeps.trans ?_ (State.evtDie_keeps _ _ _)
        exact k10
      · exact k10

theorem State.modQp_keeps (s : State) (d peer : Nat) (f : Qp → Qp) : Keeps 0x800 s (State.modQp s d peer f) := by
  unfold State.modQp
  refine Keeps.trans ?_ (State.modPeer_keeps _ _ _ _)
  exact Keeps.refl _

theorem State.sendRoce_keeps (s : State) (d : Nat) (k : FKind) (p : Peer) (h : RoceHdr) (b : List Byte) : Keeps 0x2000 s (State.sendRoce s d k p h b) := by
  unfold State.sendRoce
  refine Keeps.trans ?_ (State.enqueue_keeps _ _ _ _ _ _)
  exact Keeps.refl _

theorem State.qpOutcomes_keeps (s : State) (d : Nat) (status : Nat) (w0 : List QpSend) : Keeps 0x5E440ABEB s (State.qpOutcomes s d status w0) := by
  induction w0 generalizing s d status with
  | nil =>
    unfold State.qpOutcomes
    exact Keeps.refl _
  | cons hd0 tl0 ih =>
    unfold State.qpOutcomes
    refine Keeps.tr ?_ (ih _ _ _)
    refine Keeps.trans ?_ (State.txOutcome_keeps _ _ _ _ _)
    exact Keeps.refl _

theorem State.qpDrop_keeps (s : State) (d peer : Nat) (q : Qp) : Keeps 0x2800 s (State.qpDrop s d peer q) := by
  unfold State.qpDrop
  extract_lets +onlyGivenNames x0
  refine Keeps.cut (b := x0) ?_ ?_
  · unfold x0
    refine Keeps.trans ?_ (State.accrueAll_keeps _ _)
    exact Keeps.refl _
  intro k1
  clear_value x0
  extract_lets +onlyGivenNames x2
  extract_lets +onlyGivenNames x3
  refine Keeps.cut (b := x3) ?_ ?_
  · unfold x3
    refine Keeps.trans ?_ (State.modLnk_keeps _ _ _)
    exact k1
  intro k4
  clear_value x3
  extract_lets +onlyGivenNames x5
  refine Keeps.cut (b := x5) ?_ ?_
  · unfold x5
    split
    · rename_i z6 z7 z8 z9
      extract_lets +onlyGivenNames x10
      extract_lets +onlyGivenNames x11
      split
      · rename_i z12 z13 z14 z15
        refine Keeps.ite ?_ ?_
        · refine Keeps.trans ?_ (State.modRegion_keeps _ _ _ _)
          exact k4
        · exact k4
      · rename_i z16 z17
        exact k4
    · rename_i z18 z19
      exact k4
  intro k20
  clear_value x5
  refine Keeps.trans ?_ (State.modQp_keeps _ _ _ _)
  exact k20

theorem State.qpError_keeps (s : State) (d peer : Nat) (q : Qp) (syn st : Nat) : Keeps 0x5E440ABEB s (State.qpError s d peer q syn st) := by
  unfold State.qpError
  extract_lets +onlyGivenNames x0
  refine Keeps.cut (b := x0) ?_ ?_
  · unfold x0
    refine Keeps.trans ?_ (State.modQp_keeps _ _ _ _)
    refine Keeps.trans ?_ (State.qpDrop_keeps _ _ _ _)
    exact Keeps.refl _
  intro k1
  clear_value x0
  extract_lets +onlyGivenNames x2
  refine Keeps.cut (b := x2) ?_ ?_
  · unfold x2
    refine Keeps.trans ?_ (State.dieEvent_keeps _ _ _ _)
    refine Keeps.trans ?_ (State.evtDie_keeps _ _ _)
    exact k1
  intro k3
  clear_value x2
  refine Keeps.trans ?_ (State.qpOutcomes_keeps _ _ _ _)
  refine Keeps.trans ?_ (State.qpOutcomes_keeps _ _ _ _)
  exact k3

theorem State.roceWrite_keeps (s : State) (d i : Nat) (p : Peer) (q : Qp) (h : RoceHdr) (b : List Byte) : Keeps 0x5E640ABEB s (State.roceWrite s d i p q h b) := by
  unfold State.roceWrite
  extract_lets +onlyGivenNames x0
  extract_lets +onlyGivenNames x1
  extract_lets +onlyGivenNames x2
  extract_lets +onlyGivenNames x3
  extract_lets +onlyGivenNames x4
  unfold x3
  split
  · rename_i z5 z6
    unfold x4
    extract_lets +onlyGivenNames x7
    refine Keeps.cut (b := x7) ?_ ?_
    · unfold x7
      refine Keeps.trans ?_ (State.sendRoce_keeps _ _ _ _ _ _)
      exact Keeps.refl _
    intro k8
    clear_value x7
    refine Keeps.trans ?_ (State.qpError_keeps _ _ _ _ _ _)
    exact k8
  · rename_i z9 z10 z11 z12
    refine Keeps.ite ?_ ?_
    · unfold x4
      extract_lets +onlyGivenNames x13
      refine Keeps.cut (b := x13) ?_ ?_
      · unfold x13
        refine Keeps.trans ?_ (State.sendRoce_keeps _ _ _ _ _ _)
        exact Keeps.refl _
      intro k14
      clear_value x13
      refine Keeps.trans ?_ (State.qpError_keeps _ _ _ _ _ _)
      exact k14
    · extract_lets +onlyGivenNames x15
      extract_lets +onlyGivenNames x16
      extract_lets +onlyGivenNames x17
      extract_lets +onlyGivenNames x18
      split
      · rename_i z19 z20 z21
        extract_lets +onlyGivenNames x22
        refine Keeps.cut (b := x22) ?_ ?_
        · unfold x22
          refine Keeps.trans ?_ (State.noteFail_keeps _ _ _ _ _)
          exact Keeps.refl _
        intro k23
        clear_value x22
        unfold x4
        extract_lets +onlyGivenNames x24
        refine Keeps.cut (b := x24) ?_ ?_
        · unfold x24
          refine Keeps.trans ?_ (State.sendRoce_keeps _ _ _ _ _ _)
          exact k23
        intro k25
        clear_value x24
        refine Keeps.trans ?_ (State.qpError_keeps _ _ _ _ _ _)
        exact k25
      · rename_i z26 z27
        extract_lets +onlyGivenNames x28
        extract_lets +onlyGivenNames x29
        refine Keeps.cut (b := x29) ?_ ?_
        · unfold x29
          refine Keeps.trans ?_ (State.modRegion_keeps _ _ _ _)
          exact Keeps.refl _
        intro k30
        clear_value x29
        extract_lets +onlyGivenNames x31
        refine Keeps.cut (b := x31) ?_ ?_
        · unfold x31
          refine Keeps.ite ?_ ?_
          · refine Keeps.trans ?_ (State.setEntry_keeps _ _ _ _ _)
            exact k30
          · exact k30
        intro k32
        clear_value x31
        extract_lets +onlyGivenNames x33
        refine Keeps.cut (b := x33) ?_ ?_
        · unfold x33
          refine Keeps.trans ?_ (State.modQp_keeps _ _ _ _)
          exact k32
        intro k34
        clear_value x33
        refine Keeps.ite ?_ ?_
        · exact k34
        · extract_lets +onlyGivenNames x35
          refine Keeps.cut (b := x35) ?_ ?_
          · unfold x35
            refine Keeps.trans ?_ (State.fadd_keeps _ _ _ _)
            exact k34
          intro k36
          clear_value x35
          extract_lets +onlyGivenNames x37
          extract_lets +onlyGivenNames x38
          refine Keeps.ite ?_ ?_
          · extract_lets +onlyGivenNames x39
            extract_lets +onlyGivenNames x40
            refine Keeps.cut (b := x40) ?_ ?_
            · unfold x40
              unfold x38
              refine Keeps.trans ?_ (State.sendRoce_keeps _ _ _ _ _ _)
              refine Keeps.trans ?_ (State.setEntry_keeps _ _ _ _ _)
              exact k36
            intro k41
            clear_value x40
            refine Keeps.trans ?_ (State.holdRecord_keeps _ _ _ _ _ _)
            exact k41
          · refine Keeps.ite ?_ ?_
            · unfold x38
              refine Keeps.trans ?_ (State.sendRoce_keeps _ _ _ _ _ _)
              refine Keeps.trans ?_ (State.bumpCtr_keeps _ _ _ _)
              exact k36
            · unfold x38
              refine Keeps.trans ?_ (State.sendRoce_keeps _ _ _ _ _ _)
              exact k36

theorem State.roceRead_keeps (s : State) (d i : Nat) (p : Peer) (q : Qp) (h : RoceHdr) (cls : Nat) (again : Bool) : Keeps 0x5E440ABEB s (State.roceRead s d i p q h cls again) := by
  unfold State.roceRead
  split
  · rename_i z0 z1 z2
    extract_lets +onlyGivenNames x3
    refine Keeps.cut (b := x3) ?_ ?_
    · unfold x3
      refine Keeps.trans ?_ (State.noteFail_keeps _ _ _ _ _)
      exact Keeps.refl _
    intro k4
    clear_value x3
    extract_lets +onlyGivenNames x5
    refine Keeps.trans ?_ (State.qpError_keeps _ _ _ _ _ _)
    refine Keeps.trans ?_ (State.sendRoce_keeps _ _ _ _ _ _)
    exact k4
  · rename_i z6 z7
    extract_lets +onlyGivenNames x8
    extract_lets +onlyGivenNames x9
    extract_lets +onlyGivenNames x10
    extract_lets +onlyGivenNames x11
    refine Keeps.cut (b := x11) ?_ ?_
    · unfold x11
      refine Keeps.ite ?_ ?_
      · exact Keeps.refl _
      · refine Keeps.trans ?_ (State.modQp_keeps _ _ _ _)
        exact Keeps.refl _
    intro k12
    clear_value x11
    refine Keeps.foldl _ _ (fun s13 y14 => ?_) ?_
    · extract_lets +onlyGivenNames x15
      refine Keeps.trans ?_ (State.sendRoce_keeps _ _ _ _ _ _)
      exact Keeps.refl _
    · exact k12

theorem State.qpAcked_keeps (s : State) (d i : Nat) (q : Qp) (done : QpSend → Bool) : Keeps 0x5E440ABEB s (State.qpAcked s d i q done) := by
  unfold State.qpAcked
  extract_lets +onlyGivenNames x0
  extract_lets +onlyGivenNames x1
  refine Keeps.cut (b := x1) ?_ ?_
  · unfold x1
    refine Keeps.trans ?_ (State.modQp_keeps _ _ _ _)
    exact Keeps.refl _
  intro k2
  clear_value x1
  refine Keeps.trans ?_ (State.qpOutcomes_keeps _ _ _ _)
  exact k2

theorem State.roceAck_keeps (s : State) (d i : Nat) (q : Qp) (h : RoceHdr) : Keeps 0x5E440ABEB s (State.roceAck s d i q h) := by
  unfold State.roceAck
  refine Keeps.trans ?_ (State.qpAcked_keeps _ _ _ _ _)
  exact Keeps.refl _

theorem State.goBack_keeps (s : State) (d i : Nat) : Keeps 0x400002800 s (State.goBack s d i) := by
  unfold State.goBack
  split
  · rename_i z0 z1
    exact Keeps.refl _
  · rename_i z2 z3 z4
    split
    · rename_i z5 z6
      exact Keeps.refl _
    · rename_i z7 z8 z9
      extract_lets +onlyGivenNames x10
      refine Keeps.cut (b := x10) ?_ ?_
      · unfold x10
        refine Keeps.trans ?_ (State.modQp_keeps _ _ _ _)
        exact Keeps.refl _
      intro k11
      clear_value x10
      refine Keeps.foldl _ _ (fun s12 y13 => ?_) ?_
      · refine Keeps.foldl _ _ (fun s14 y15 => ?_) ?_
        · refine Keeps.trans ?_ (State.sendRoce_keeps _ _ _ _ _ _)
          refine Keeps.trans ?_ (State.fadd_keeps _ _ _ _)
          exact Keeps.refl _
        · exact Keeps.refl _
      · exact k11

theorem State.roceNak_keeps (s : State) (d i : Nat) (q : Qp) (h : RoceHdr) : Keeps 0x5E440ABEB s (State.roceNak s d i q h) := by
  unfold State.roceNak
  refine Keeps.ite ?_ ?_
  · refine Keeps.trans ?_ (State.goBack_keeps _ _ _)
    refine Keeps.trans ?_ (State.qpAcked_keeps _ _ _ _ _)
    exact Keeps.refl _
  · refine Keeps.trans ?_ (State.qpError_keeps _ _ _ _ _ _)
    exact Keeps.refl _

theorem State.readPart_keeps (s : State) (d i : Nat) (q : Qp) (w : QpSend) (off : Nat) (b : List Byte) : Keeps 0x5E440ABEB s (State.readPart s d i q w off b) := by
  unfold State.readPart
  extract_lets +onlyGivenNames x0
  refine Keeps.cut (b := x0) ?_ ?_
  · unfold x0
    split
    · rename_i z1 z2 z3 z4
      refine Keeps.trans ?_ (State.modRegion_keeps _ _ _ _)
      exact Keeps.refl _
    · rename_i z5 z6
      exact Keeps.refl _
  intro k7
  clear_value x0
  extract_lets +onlyGivenNames x8
  extract_lets +onlyGivenNames x9
  refine Keeps.cut (b := x9) ?_ ?_
  · unfold x9
    refine Keeps.trans ?_ (State.modQp_keeps _ _ _ _)
    exact k7
  intro k10
  clear_value x9
  refine Keeps.ite ?_ ?_
  · extract_lets +onlyGivenNames x11
    refine Keeps.cut (b := x11) ?_ ?_
    · unfold x11
      refine Keeps.trans ?_ (State.modQp_keeps _ _ _ _)
      exact k10
    intro k12
    clear_value x11
    refine Keeps.trans ?_ (State.txOutcome_keeps _ _ _ _ _)
    refine Keeps.trans ?_ (State.fadd_keeps _ _ _ _)
    exact k12
  · exact k10

theorem State.roceResp_keeps (s : State) (d i : Nat) (q : Qp) (h : RoceHdr) (b : List Byte) : Keeps 0x5E440ABEB s (State.roceResp s d i q h b) := by
  unfold State.roceResp
  split
  · rename_i z0 z1
    exact Keeps.refl _
  · rename_i z2 z3 z4
    split
    · rename_i z5 z6
      exact Keeps.refl _
    · rename_i z7 z8 z9 z10
      extract_lets +onlyGivenNames x11
      refine Keeps.ite ?_ ?_
      · exact Keeps.refl _
      · extract_lets +onlyGivenNames x12
        refine Keeps.cut (b := x12) ?_ ?_
        · unfold x12
          refine Keeps.trans ?_ (State.qpAcked_keeps _ _ _ _ _)
          exact Keeps.refl _
        intro k13
        clear_value x12
        refine Keeps.ite ?_ ?_
        · refine Keeps.trans ?_ (State.goBack_keeps _ _ _)
          exact k13
        · refine Keeps.trans ?_ (State.readPart_keeps _ _ _ _ _ _ _)
          exact k13

theorem State.rxRoce_keeps (s : State) (d : Nat) (h : RoceHdr) (b : List Byte) (cls : Nat) (ce icrcOk : Bool) (cost : Nat) : Keeps 0xDE640ABEB s (State.rxRoce s d h b cls ce icrcOk cost) := by
  unfold State.rxRoce
  refine Keeps.ite ?_ ?_
  · exact Keeps.refl _
  · split
    · rename_i z0 z1
      exact Keeps.refl _
    · rename_i z2 z3 z4 z5 z6
      refine Keeps.ite ?_ ?_
      · exact Keeps.refl _
      · extract_lets +onlyGivenNames x7
        extract_lets +onlyGivenNames x8
        split
        · rename_i z9 z10 z11 z12 z13
          refine Keeps.cut (b := z12) ?_ ?_
          · refine KSnd2.eq z13 ?_
            refine KSnd2.ite ?_ ?_
            · refine KSnd2.trans ?_ (State.police_keeps _ _ _ _)
              exact Keeps.refl _
            · refine KSnd2.mk ?_
              exact Keeps.refl _
          intro k14
          refine Keeps.ite ?_ ?_
          · exact k14
          · extract_lets +onlyGivenNames x15
            refine Keeps.cut (b := x15) ?_ ?_
            · unfold x15
              refine Keeps.ite ?_ ?_
              · refine Keeps.trans ?_ (State.sendRoce_keeps _ _ _ _ _ _)
                exact k14
              · exact k14
            intro k16
            clear_value x15
            split
            · rename_i z17 z18
              refine Keeps.trans ?_ (State.roceAck_keeps _ _ _ _ _)
              exact k16
            · rename_i z19 z20
              refine Keeps.trans ?_ (State.roceNak_keeps _ _ _ _ _)
              exact k16
            · rename_i z21 z22
              refine Keeps.trans ?_ (State.rateFall_keeps _ _ _ _)
              exact k16
            · rename_i z23 z24
              refine Keeps.trans ?_ (State.roceResp_keeps _ _ _ _ _ _)
              exact k16
            · rename_i z25 z26
              refine Keeps.trans ?_ (State.roceResp_keeps _ _ _ _ _ _)
              exact k16
            · rename_i z27 z28
              refine Keeps.trans ?_ (State.roceResp_keeps _ _ _ _ _ _)
              exact k16
            · rename_i z29 z30
              refine Keeps.trans ?_ (State.roceResp_keeps _ _ _ _ _ _)
              exact k16
            · rename_i z31 z32
              refine Keeps.trans ?_ (State.qpError_keeps _ _ _ _ _ _)
              refine Keeps.trans ?_ (State.sendRoce_keeps _ _ _ _ _ _)
              exact k16
            · rename_i z33 z34 z35 z36 z37 z38 z39 z40 z41
              refine Keeps.ite ?_ ?_
              · refine Keeps.ite ?_ ?_
                · refine Keeps.trans ?_ (State.roceRead_keeps _ _ _ _ _ _ _ _)
                  exact k16
                · refine Keeps.trans ?_ (State.roceWrite_keeps _ _ _ _ _ _ _)
                  exact k16
              · refine Keeps.ite ?_ ?_
                · refine Keeps.trans ?_ (State.sendRoce_keeps _ _ _ _ _ _)
                  exact k16
                · refine Keeps.ite ?_ ?_
                  · refine Keeps.trans ?_ (State.roceRead_keeps _ _ _ _ _ _ _ _)
                    refine Keeps.trans ?_ (State.fadd_keeps _ _ _ _)
                    exact k16
                  · refine Keeps.trans ?_ (State.sendRoce_keeps _ _ _ _ _ _)
                    refine Keeps.trans ?_ (State.fadd_keeps _ _ _ _)
                    exact k16

theorem State.rxPacket_keeps {m : Nat} (s : State) (d t : Nat) (sum : UdpSum) (v4 : Bool) (p : Packet) (go : State → State) (hgo : ∀ a0, Keeps m a0 (go a0)) (hm : 0x404208018 ||| m = m := by first | decide | exact Nat.or_self _ | (rw [Fld.nth_bit]; decide) | (rw [faultsFld_bit]; decide) | (rw [atmLo_bit1]; decide) | (rw [atmLo_bit2]; decide) | exact orSelf _ _ | exact orRight _ (by decide) | exact orRight _ (orSelf _ _) | exact orRight _ (orRight _ (by decide)) | exact orBoth _ (by decide) | exact Fld.bit_top _ | exact Fld.bit_regs _ | exact Fld.bit_top2 _ _ (by decide) | exact orSub (by assumption) (by decide) | (split <;> decide)) : Keeps m s (State.rxPacket s d t sum v4 p go) := by
  unfold State.rxPacket
  extract_lets +onlyGivenNames x0
  refine Keeps.cut (b := x0) ?_ ?_
  · unfold x0
    refine Keeps.trans ?_ (State.advanceTo_keeps _ _)
    exact Keeps.refl _
  intro k1
  clear_value x0
  refine Keeps.ite ?_ ?_
  · exact k1
  · refine Keeps.tr ?_ (hgo _)
    refine Keeps.trans ?_ (State.pmc_keeps _ _ _ _ _ _)
    refine Keeps.trans ?_ (State.fadd_keeps _ _ _ _)
    exact k1

theorem State.rxDirect_keeps {m : Nat} (s : State) (d t : Nat) (sum : UdpSum) (v4 : Bool) (p : Packet) (go : State → State) (hgo : ∀ a0, Keeps m a0 (go a0)) (hm : 0x404208018 ||| m = m := by first | decide | exact Nat.or_self _ | (rw [Fld.nth_bit]; decide) | (rw [faultsFld_bit]; decide) | (rw [atmLo_bit1]; decide) | (rw [atmLo_bit2]; decide) | exact orSelf _ _ | exact orRight _ (by decide) | exact orRight _ (orSelf _ _) | exact orRight _ (orRight _ (by decide)) | exact orBoth _ (by decide) | exact Fld.bit_top _ | exact Fld.bit_regs _ | exact Fld.bit_top2 _ _ (by decide) | exact orSub (by assumption) (by decide) | (split <;> decide)) : Keeps m s (State.rxDirect s d t sum v4 p go) := by
  unfold State.rxDirect
  refine Keeps.tr ?_ (State.rxPacket_keeps _ _ _ _ _ _ _ (fun v0 => ?_))
  · refine Keeps.trans ?_ (State.bw_keeps _ _ _ _)
    exact Keeps.refl _
  · refine Keeps.tr ?_ (hgo _)
    exact Keeps.refl _

theorem execNrtDataPacketRx_keeps (d : Nat) (h : NrtHdr) (p : List Byte) (v4 : Bool) (addr dscp : Nat) (ce wf : Bool) (sum : UdpSum) (t : Nat)
    (s : State) : KNext 0xC2660ABF9 s (execNrtDataPacketRx d h p v4 addr dscp ce wf sum t s) := by
  unfold execNrtDataPacketRx
  refine KNext.mk ?_
  refine Keeps.tr ?_ (State.rxDirect_keeps _ _ _ _ _ _ _ (fun v0 => ?_))
  · exact Keeps.refl _
  · refine Keeps.trans ?_ (State.rxWrite_keeps _ _ _ _ _ _ _ _ _)
    exact Keeps.refl _

theorem execReadReqRx_keeps (d : Nat) (h : NrtHdr) (v4 : Bool) (addr dscp : Nat) (wf : Bool) (sum : UdpSum) (t : Nat) (s : State) : KNext 0xC2660ABF9 s (execReadReqRx d h v4 addr dscp wf sum t s) := by
  unfold execReadReqRx
  refine KNext.mk ?_
  refine Keeps.tr ?_ (State.rxDirect_keeps _ _ _ _ _ _ _ (fun v0 => ?_))
  · exact Keeps.refl _
  · refine Keeps.trans ?_ (State.rxRead_keeps _ _ _ _ _ _ _)
    exact Keeps.refl _

theorem execReadRespRx_keeps (d : Nat) (h : NrtHdr) (p : List Byte) (v4 : Bool) (addr dscp : Nat) (wf : Bool) (sum : UdpSum) (t : Nat) (s : State) : KNext 0x5E460ABFB s (execReadRespRx d h p v4 addr dscp wf sum t s) := by
  unfold execReadRespRx
  refine KNext.mk ?_
  refine Keeps.tr ?_ (State.rxDirect_keeps _ _ _ _ _ _ _ (fun v0 => ?_))
  · exact Keeps.refl _
  · refine Keeps.trans ?_ (State.rxResp_keeps _ _ _ _ _ _ _)
    exact Keeps.refl _

theorem execAckRx_keeps (d : Nat) (h : NrtHdr) (wf : Bool) (sum : UdpSum) (t : Nat) (s : State) : KNext 0x5E460ABFB s (execAckRx d h wf sum t s) := by
  unfold execAckRx
  refine KNext.mk ?_
  refine Keeps.tr ?_ (State.rxDirect_keeps _ _ _ _ _ _ _ (fun v0 => ?_))
  · exact Keeps.refl _
  · refine Keeps.ite ?_ ?_
    · refine Keeps.trans ?_ (State.rxAck_keeps _ _ _)
      exact Keeps.refl _
    · refine Keeps.trans ?_ (State.evtDie_keeps _ _ _)
      refine Keeps.trans ?_ (State.fadd_keeps _ _ _ _)
      exact Keeps.refl _

theorem execNakRx_keeps (d : Nat) (h : NrtHdr) (wf : Bool) (sum : UdpSum) (t : Nat) (s : State) : KNext 0x5E460ABFB s (execNakRx d h wf sum t s) := by
  unfold execNakRx
  refine KNext.mk ?_
  refine Keeps.tr ?_ (State.rxDirect_keeps _ _ _ _ _ _ _ (fun v0 => ?_))
  · exact Keeps.refl _
  · refine Keeps.ite ?_ ?_
    · refine Keeps.trans ?_ (State.rxNak_keeps _ _ _)
      exact Keeps.refl _
    · refine Keeps.trans ?_ (State.evtDie_keeps _ _ _)
      refine Keeps.trans ?_ (State.fadd_keeps _ _ _ _)
      exact Keeps.refl _

theorem execSnackRx_keeps (d : Nat) (h : NrtHdr) (ranges : List (Nat × Nat)) (wf : Bool) (sum : UdpSum) (t : Nat) (s : State) : KNext 0x40460A859 s (execSnackRx d h ranges wf sum t s) := by
  unfold execSnackRx
  refine KNext.mk ?_
  refine Keeps.tr ?_ (State.rxDirect_keeps _ _ _ _ _ _ _ (fun v0 => ?_))
  · exact Keeps.refl _
  · refine Keeps.ite ?_ ?_
    · refine Keeps.trans ?_ (State.rxSnack_keeps _ _ _ _)
      exact Keeps.refl _
    · refine Keeps.trans ?_ (State.evtDie_keeps _ _ _)
      refine Keeps.trans ?_ (State.fadd_keeps _ _ _ _)
      exact Keeps.refl _

theorem execPathTmoExpiry_keeps (d src msg : Nat) (read : Bool) (t : Nat) (s : State) : KNext 0x400202818 s (execPathTmoExpiry d src msg read t s) := by
  unfold execPathTmoExpiry
  extract_lets +onlyGivenNames x0
  refine KNext.cut (b := x0) ?_ ?_
  · unfold x0
    refine Keeps.trans ?_ (State.advanceTo_keeps _ _)
    exact Keeps.refl _
  intro k1
  clear_value x0
  split
  · rename_i z2 z3
    refine KNext.mk ?_
    exact k1
  · rename_i z4 z5 z6
    refine KNext.mk ?_
    refine Keeps.trans ?_ (State.snack_keeps _ _ _)
    exact k1

theorem State.unreach_keeps (s : State) (d peer : Nat) : Keeps 0x400408849 s (State.unreach s d peer) := by
  unfold State.unreach
  refine Keeps.trans ?_ (State.nrtOccur_keeps _ _ _ _)
  refine Keeps.trans ?_ (State.evtDie_keeps _ _ _)
  refine Keeps.trans ?_ (State.fadd_keeps _ _ _ _)
  exact Keeps.refl _

theorem State.pathTimeout_keeps (s : State) (d peer path retry : Nat) : Keeps 0x400408849 s (State.pathTimeout s d peer path retry) := by
  unfold State.pathTimeout
  split
  · rename_i z0 z1
    exact Keeps.refl _
  · rename_i z2 z3 z4
    extract_lets +onlyGivenNames x5
    refine Keeps.ite ?_ ?_
    · refine Keeps.trans ?_ (State.modPeer_keeps _ _ _ _)
      exact Keeps.refl _
    · extract_lets +onlyGivenNames x6
      refine Keeps.cut (b := x6) ?_ ?_
      · unfold x6
        refine Keeps.trans ?_ (State.modPeer_keeps _ _ _ _)
        exact Keeps.refl _
      intro k7
      clear_value x6
      refine Keeps.trans ?_ (State.dieEvent_keeps _ _ _ _)
      refine Keeps.trans ?_ (State.evtDie_keeps _ _ _)
      exact k7

theorem execAckTmoExpiry_keeps (d : Nat) (roce : Bool) (id t : Nat) (s : State) : KNext 0x5E460ABFB s (execAckTmoExpiry d roce id t s) := by
  unfold execAckTmoExpiry
  extract_lets +onlyGivenNames x0
  refine KNext.cut (b := x0) ?_ ?_
  · unfold x0
    refine Keeps.trans ?_ (State.advanceTo_keeps _ _)
    exact Keeps.refl _
  intro k1
  clear_value x0
  refine KNext.ite ?_ ?_
  · split
    · rename_i z2 z3
      refine KNext.mk ?_
      exact k1
    · rename_i z4 z5 z6
      refine KNext.ite ?_ ?_
      · refine KNext.mk ?_
        exact k1
      · refine KNext.ite ?_ ?_
        · refine KNext.mk ?_
          refine Keeps.trans ?_ (State.unreach_keeps _ _ _)
          refine Keeps.trans ?_ (State.qpError_keeps _ _ _ _ _ _)
          exact k1
        · refine KNext.mk ?_
          refine Keeps.trans ?_ (State.goBack_keeps _ _ _)
          refine Keeps.trans ?_ (State.modQp_keeps _ _ _ _)
          exact k1
  · split
    · rename_i z7 z8
      refine KNext.mk ?_
      exact k1
    · rename_i z9 z10 z11
      refine KNext.ite ?_ ?_
      · refine KNext.mk ?_
        exact k1
      · extract_lets +onlyGivenNames x12
        refine KNext.cut (b := x12) ?_ ?_
        · unfold x12
          refine Keeps.trans ?_ (State.pathTimeout_keeps _ _ _ _ _)
          exact k1
        intro k13
        clear_value x12
        refine KNext.ite ?_ ?_
        · refine KNext.mk ?_
          refine Keeps.trans ?_ (State.unreach_keeps _ _ _)
          refine Keeps.trans ?_ (State.finishTx_keeps _ _ _ _)
          exact k13
        · extract_lets +onlyGivenNames x14
          refine KNext.cut (b := x14) ?_ ?_
          · unfold x14
            refine Keeps.trans ?_ (State.modNrt_keeps _ _ _)
            exact k13
          intro k15
          clear_value x14
          refine KNext.mk ?_
          refine Keeps.trans ?_ (State.resend_keeps _ _ _ _)
          exact k15

theorem execHoldTmoExpiry_keeps (d src msg t : Nat) (s : State) : KNext 0x42660ABF9 s (execHoldTmoExpiry d src msg t s) := by
  unfold execHoldTmoExpiry
  extract_lets +onlyGivenNames x0
  refine KNext.cut (b := x0) ?_ ?_
  · unfold x0
    refine Keeps.trans ?_ (State.advanceTo_keeps _ _)
    exact Keeps.refl _
  intro k1
  clear_value x0
  split
  · rename_i z2 z3
    refine KNext.mk ?_
    exact k1
  · rename_i z4 z5 z6
    split
    · rename_i z7 z8
      refine KNext.mk ?_
      exact k1
    · rename_i z9 z10 z11 z12
      refine KNext.ite ?_ ?_
      · refine KNext.mk ?_
        exact k1
      · refine KNext.mk ?_
        refine Keeps.trans ?_ (State.fences_keeps _ _)
        refine Keeps.trans ?_ (State.failRx_keeps _ _ _ _)
        exact k1

theorem execLingerExpiry_keeps (d t : Nat) (s : State) : KNext 0x200810 s (execLingerExpiry d t s) := by
  unfold execLingerExpiry
  extract_lets +onlyGivenNames x0
  refine KNext.cut (b := x0) ?_ ?_
  · unfold x0
    refine Keeps.trans ?_ (State.advanceTo_keeps _ _)
    exact Keeps.refl _
  intro k1
  clear_value x0
  extract_lets +onlyGivenNames x2
  extract_lets +onlyGivenNames x3
  refine KNext.mk ?_
  refine Keeps.trans ?_ (State.modNrt_keeps _ _ _)
  exact k1

theorem execRateStepTimer_keeps (d peer t : Nat) (s : State) : KNext 0x200810 s (execRateStepTimer d peer t s) := by
  unfold execRateStepTimer
  extract_lets +onlyGivenNames x0
  refine KNext.cut (b := x0) ?_ ?_
  · unfold x0
    refine Keeps.trans ?_ (State.advanceTo_keeps _ _)
    exact Keeps.refl _
  intro k1
  clear_value x0
  split
  · rename_i z2 z3
    refine KNext.mk ?_
    exact k1
  · rename_i z4 z5 z6
    refine KNext.ite ?_ ?_
    · refine KNext.mk ?_
      exact k1
    · refine KNext.mk ?_
      refine Keeps.trans ?_ (State.modPeer_keeps _ _ _ _)
      exact k1

theorem execPathUp_keeps (d peer path t : Nat) (s : State) : KNext 0x608851 s (execPathUp d peer path t s) := by
  unfold execPathUp
  extract_lets +onlyGivenNames x0
  refine KNext.cut (b := x0) ?_ ?_
  · unfold x0
    refine Keeps.trans ?_ (State.advanceTo_keeps _ _)
    exact Keeps.refl _
  intro k1
  clear_value x0
  split
  · rename_i z2 z3
    refine KNext.mk ?_
    exact k1
  · rename_i z4 z5 z6
    refine KNext.ite ?_ ?_
    · refine KNext.mk ?_
      exact k1
    · refine KNext.mk ?_
      refine Keeps.trans ?_ (State.dieEvent_keeps _ _ _ _)
      refine Keeps.trans ?_ (State.modPeer_keeps _ _ _ _)
      exact k1

theorem execRocePacketRx_keeps (d : Nat) (h : RoceHdr) (b : List Byte) (v4 : Bool) (dscp : Nat) (ce icrcOk : Bool) (t : Nat) (s : State) : KNext 0xDE660ABFB s (execRocePacketRx d h b v4 dscp ce icrcOk t s) := by
  unfold execRocePacketRx
  refine KNext.mk ?_
  refine Keeps.tr ?_ (State.rxDirect_keeps _ _ _ _ _ _ _ (fun v0 => ?_))
  · exact Keeps.refl _
  · refine Keeps.trans ?_ (State.rxRoce_keeps _ _ _ _ _ _ _ _)
    exact Keeps.refl _

theorem execNrtInject_keeps (d : Nat) (via : Via) (s : State) : KNext 0x400840 s (execNrtInject d via s) := by
  unfold execNrtInject
  refine KNext.mk ?_
  refine Keeps.tr ?_ (regWrite_keeps _ _ _ _ (fun v0 => ?_))
  · exact Keeps.refl _
  · refine Keeps.ite ?_ ?_
    · exact Keeps.refl _
    · refine Keeps.trans ?_ (State.modNrt_keeps _ _ _)
      exact Keeps.refl _

end Sys2Proof.Machine
end

