-- ==== Sys2Proof/Laws/KeepsNrtKeys.lean ====
section
/-!
SUPPORT. Sys2Proof/Laws/KeepsNrtKeys.lean: each operation of Machine/NrtKeys.lean keeps what `Keeps` says, with the parts of the state it may
touch.
-/
namespace Sys2Proof.Machine
set_option Elab.async false

theorem execKeyRegister_keeps (q : Desc) (b : KeyBody) (s : State) : KNext 0x8440896B s (execKeyRegister q b s) := by
  unfold execKeyRegister
  refine KNext.mk ?_
  refine Keeps.tr ?_ (runDesc_keeps _ _ _ _ _ (fun v0 => ?_))
  · exact Keeps.refl _
  · split
    · rename_i z1 z2
      refine Keeps.trans ?_ (State.fail_keeps _ _ _)
      exact Keeps.refl _
    · rename_i z3 z4 z5
      extract_lets +onlyGivenNames x6
      refine Keeps.ite ?_ ?_
      · refine Keeps.trans ?_ (State.fail_keeps _ _ _)
        exact Keeps.refl _
      · refine Keeps.ite ?_ ?_
        · refine Keeps.trans ?_ (State.fail_keeps _ _ _)
          exact Keeps.refl _
        · refine Keeps.ite ?_ ?_
          · refine Keeps.trans ?_ (State.fail_keeps _ _ _)
            exact Keeps.refl _
          · extract_lets +onlyGivenNames x7
            refine Keeps.ite ?_ ?_
            · refine Keeps.trans ?_ (State.fail_keeps _ _ _)
              exact Keeps.refl _
            · refine Keeps.ite ?_ ?_
              · refine Keeps.trans ?_ (State.fail_keeps _ _ _)
                exact Keeps.refl _
              · extract_lets +onlyGivenNames x8
                split
                · rename_i z9 z10 z11
                  split
                  · rename_i z12 z13 z14 z15
                    refine Keeps.cut (b := z14) ?_ ?_
                    · refine KSnd.eq z15 ?_
                      refine KSnd.trans ?_ (State.allocStatus_keeps _ _ _)
                      exact Keeps.refl _
                    intro k16
                    refine Keeps.trans ?_ (State.fail_keeps _ _ _)
                    exact k16
                · rename_i z17 z18 z19 z20
                  refine Keeps.cut (b := z19) ?_ ?_
                  · refine KExc.eq (g := fun (r : List Nat × Sys2Proof.Machine.State) => r.2) (r := (z18, z19)) z20 ?_
                    refine KExc.trans ?_ (State.ctxSegs_keeps _ _ _ _)
                    exact Keeps.refl _
                  intro k21
                  extract_lets +onlyGivenNames x22
                  extract_lets +onlyGivenNames x23
                  refine Keeps.cut (b := x23) ?_ ?_
                  · unfold x23
                    refine Keeps.trans ?_ (State.modRegion_keeps _ _ _ _)
                    exact k21
                  intro k24
                  clear_value x23
                  refine Keeps.trans ?_ (State.complete_keeps _ _ _ _ _)
                  exact k24

theorem State.qpRevoke_keeps (s : State) (d peer : Nat) (q : Qp) (e : Nat) : Keeps 0x5E440ABEB s (State.qpRevoke s d peer q e) := by
  unfold State.qpRevoke
  extract_lets +onlyGivenNames x0
  refine Keeps.cut (b := x0) ?_ ?_
  · unfold x0
    refine Keeps.trans ?_ (State.qpDrop_keeps _ _ _ _)
    exact Keeps.refl _
  intro k1
  clear_value x0
  extract_lets +onlyGivenNames x2
  refine Keeps.cut (b := x2) ?_ ?_
  · unfold x2
    refine Keeps.foldl _ _ (fun s3 y4 => ?_) ?_
    · refine Keeps.trans ?_ (State.txOutcome_keeps _ _ _ _ _)
      exact Keeps.refl _
    · exact k1
  intro k5
  clear_value x2
  refine Keeps.trans ?_ (State.qpError_keeps _ _ _ _ _ _)
  refine Keeps.trans ?_ (State.modQp_keeps _ _ _ _)
  exact k5

theorem State.revokeTx_keeps (s : State) (d e : Nat) : Keeps 0x5E440ABEB s (State.revokeTx s d e) := by
  unfold State.revokeTx
  extract_lets +onlyGivenNames x0
  extract_lets +onlyGivenNames x1
  refine Keeps.cut (b := x1) ?_ ?_
  · unfold x1
    refine Keeps.foldl _ _ (fun s2 y3 => ?_) ?_
    · refine Keeps.trans ?_ (State.finishTx_keeps _ _ _ _)
      exact Keeps.refl _
    · exact Keeps.refl _
  intro k4
  clear_value x1
  extract_lets +onlyGivenNames x5
  refine Keeps.cut (b := x5) ?_ ?_
  · unfold x5
    refine Keeps.foldl _ _ (fun s6 y7 => ?_) ?_
    · split
      · rename_i z8 z9 z10
        refine Keeps.ite ?_ ?_
        · refine Keeps.trans ?_ (State.qpRevoke_keeps _ _ _ _ _)
          exact Keeps.refl _
        · exact Keeps.refl _
      · rename_i z11 z12
        exact Keeps.refl _
    · exact k4
  intro k13
  clear_value x5
  extract_lets +onlyGivenNames x14
  extract_lets +onlyGivenNames x15
  refine Keeps.cut (b := x15) ?_ ?_
  · unfold x15
    refine Keeps.trans ?_ (State.modNrt_keeps _ _ _)
    exact k13
  intro k16
  clear_value x15
  refine Keeps.foldl _ _ (fun s17 y18 => ?_) ?_
  · refine Keeps.trans ?_ (State.completeKey_keeps _ _ _ _ _)
    exact Keeps.refl _
  · exact k16

theorem State.revokeKey_keeps (s : State) (d key : Nat) (keep : Bool) : Keeps 0x5E440ABEB s (State.revokeKey s d key keep) := by
  unfold State.revokeKey
  extract_lets +onlyGivenNames x0
  extract_lets +onlyGivenNames x1
  refine Keeps.cut (b := x1) ?_ ?_
  · unfold x1
    refine Keeps.trans ?_ (State.modRegion_keeps _ _ _ _)
    exact Keeps.refl _
  intro k2
  clear_value x1
  extract_lets +onlyGivenNames x3
  refine Keeps.cut (b := x3) ?_ ?_
  · unfold x3
    refine Keeps.trans ?_ (State.revokeTx_keeps _ _ _)
    exact k2
  intro k4
  clear_value x3
  refine Keeps.trans ?_ (State.fput_keeps _ _ _ _)
  exact k4

theorem execKeyRevoke_keeps (q : Desc) (key : Nat) (keep : Bool) (s : State) : KNext 0x5E440ABEB s (execKeyRevoke q key keep s) := by
  unfold execKeyRevoke
  refine KNext.mk ?_
  refine Keeps.tr ?_ (runDesc_keeps _ _ _ _ _ (fun v0 => ?_))
  · exact Keeps.refl _
  · extract_lets +onlyGivenNames x1
    extract_lets +onlyGivenNames x2
    refine Keeps.ite ?_ ?_
    · refine Keeps.trans ?_ (State.fail_keeps _ _ _)
      exact Keeps.refl _
    · refine Keeps.ite ?_ ?_
      · refine Keeps.trans ?_ (State.fail_keeps _ _ _)
        exact Keeps.refl _
      · refine Keeps.ite ?_ ?_
        · refine Keeps.trans ?_ (State.fail_keeps _ _ _)
          exact Keeps.refl _
        · extract_lets +onlyGivenNames x3
          refine Keeps.cut (b := x3) ?_ ?_
          · unfold x3
            refine Keeps.trans ?_ (State.revokeKey_keeps _ _ _ _)
            exact Keeps.refl _
          intro k4
          clear_value x3
          extract_lets +onlyGivenNames x5
          extract_lets +onlyGivenNames x6
          refine Keeps.cut (b := x6) ?_ ?_
          · unfold x6
            refine Keeps.trans ?_ (State.modNrt_keeps _ _ _)
            exact k4
          intro k7
          clear_value x6
          refine Keeps.trans ?_ (State.settleRevokes_keeps _ _)
          refine Keeps.trans ?_ (State.fput_keeps _ _ _ _)
          exact k7

theorem execKeyScrubbed_keeps (d entry : Nat) (s : State) : KNext 0x400408949 s (execKeyScrubbed d entry s) := by
  unfold execKeyScrubbed
  extract_lets +onlyGivenNames x0
  refine KNext.ite ?_ ?_
  · refine KNext.mk ?_
    exact Keeps.refl _
  · extract_lets +onlyGivenNames x1
    extract_lets +onlyGivenNames x2
    refine KNext.cut (b := x2) ?_ ?_
    · unfold x2
      refine Keeps.trans ?_ (State.segsToLimbo_keeps _ _ _)
      refine Keeps.trans ?_ (State.modRegion_keeps _ _ _ _)
      exact Keeps.refl _
    intro k3
    clear_value x2
    extract_lets +onlyGivenNames x4
    refine KNext.cut (b := x4) ?_ ?_
    · unfold x4
      refine Keeps.trans ?_ (State.fput_keeps _ _ _ _)
      exact k3
    intro k5
    clear_value x4
    refine KNext.mk ?_
    refine Keeps.trans ?_ (State.dieEvent_keeps _ _ _ _)
    refine Keeps.trans ?_ (State.evtDie_keeps _ _ _)
    exact k5

theorem State.dropPeerTx_keeps (s : State) (d i : Nat) : Keeps 0x5E440ABEB s (State.dropPeerTx s d i) := by
  unfold State.dropPeerTx
  extract_lets +onlyGivenNames x0
  extract_lets +onlyGivenNames x1
  refine Keeps.cut (b := x1) ?_ ?_
  · unfold x1
    refine Keeps.foldl _ _ (fun s2 y3 => ?_) ?_
    · refine Keeps.trans ?_ (State.finishTx_keeps _ _ _ _)
      exact Keeps.refl _
    · exact Keeps.refl _
  intro k4
  clear_value x1
  split
  · rename_i z5 z6
    exact k4
  · rename_i z7 z8 z9
    refine Keeps.trans ?_ (State.qpOutcomes_keeps _ _ _ _)
    refine Keeps.trans ?_ (State.qpDrop_keeps _ _ _ _)
    exact k4

theorem execPeerSet_keeps (q : Desc) (b : PeerBody) (s : State) : KNext 0x5E440ABEB s (execPeerSet q b s) := by
  unfold execPeerSet
  refine KNext.mk ?_
  refine Keeps.tr ?_ (runDesc_keeps _ _ _ _ _ (fun v0 => ?_))
  · exact Keeps.refl _
  · extract_lets +onlyGivenNames x1
    refine Keeps.ite ?_ ?_
    · refine Keeps.trans ?_ (State.fail_keeps _ _ _)
      exact Keeps.refl _
    · refine Keeps.ite ?_ ?_
      · refine Keeps.trans ?_ (State.fail_keeps _ _ _)
        exact Keeps.refl _
      · refine Keeps.ite ?_ ?_
        · extract_lets +onlyGivenNames x2
          refine Keeps.cut (b := x2) ?_ ?_
          · unfold x2
            refine Keeps.trans ?_ (State.dropPeerTx_keeps _ _ _)
            exact Keeps.refl _
          intro k3
          clear_value x2
          refine Keeps.trans ?_ (State.complete_keeps _ _ _ _ _)
          refine Keeps.trans ?_ (State.modNrt_keeps _ _ _)
          exact k3
        · refine Keeps.ite ?_ ?_
          · refine Keeps.trans ?_ (State.fail_keeps _ _ _)
            exact Keeps.refl _
          · refine Keeps.ite ?_ ?_
            · refine Keeps.trans ?_ (State.fail_keeps _ _ _)
              exact Keeps.refl _
            · refine Keeps.ite ?_ ?_
              · refine Keeps.trans ?_ (State.fail_keeps _ _ _)
                exact Keeps.refl _
              · extract_lets +onlyGivenNames x4
                refine Keeps.cut (b := x4) ?_ ?_
                · unfold x4
                  split
                  · rename_i z5 z6 z7
                    refine Keeps.trans ?_ (State.dropPeerTx_keeps _ _ _)
                    exact Keeps.refl _
                  · rename_i z8 z9
                    exact Keeps.refl _
                intro k10
                clear_value x4
                extract_lets +onlyGivenNames x11
                split
                · rename_i z12 z13 z14 z15
                  refine Keeps.cut (b := z14) ?_ ?_
                  · refine KSnd.eq z15 ?_
                    refine KSnd.ite ?_ ?_
                    · extract_lets +onlyGivenNames x16
                      split
                      · rename_i z17 z18 z19 z20
                        refine KSnd.cut (b := z19) ?_ ?_
                        · refine KSnd.eq z20 ?_
                          refine KSnd.trans ?_ (State.draw_keeps _)
                          exact k10
                        intro k21
                        extract_lets +onlyGivenNames x22
                        refine KSnd.mk ?_
                        exact k21
                    · refine KSnd.mk ?_
                      exact k10
                  intro k23
                  extract_lets +onlyGivenNames x24
                  extract_lets +onlyGivenNames x25
                  refine Keeps.cut (b := x25) ?_ ?_
                  · unfold x25
                    refine Keeps.trans ?_ (State.modNrt_keeps _ _ _)
                    exact k23
                  intro k26
                  clear_value x25
                  refine Keeps.trans ?_ (State.complete_keeps _ _ _ _ _)
                  exact k26

theorem execRemoteKey_keeps (q : Desc) (key peer : Nat) (unbind : Bool) (s : State) : KNext 0x4408869 s (execRemoteKey q key peer unbind s) := by
  unfold execRemoteKey
  refine KNext.mk ?_
  refine Keeps.tr ?_ (runDesc_keeps _ _ _ _ _ (fun v0 => ?_))
  · exact Keeps.refl _
  · extract_lets +onlyGivenNames x1
    refine Keeps.ite ?_ ?_
    · extract_lets +onlyGivenNames x2
      refine Keeps.ite ?_ ?_
      · refine Keeps.trans ?_ (State.fail_keeps _ _ _)
        exact Keeps.refl _
      · refine Keeps.trans ?_ (State.complete_keeps _ _ _ _ _)
        refine Keeps.foldl _ _ (fun s3 y4 => ?_) ?_
        · refine Keeps.trans ?_ (State.modNrt_keeps _ _ _)
          exact Keeps.refl _
        · exact Keeps.refl _
    · extract_lets +onlyGivenNames x5
      refine Keeps.ite ?_ ?_
      · refine Keeps.trans ?_ (State.fail_keeps _ _ _)
        exact Keeps.refl _
      · refine Keeps.ite ?_ ?_
        · refine Keeps.trans ?_ (State.fail_keeps _ _ _)
          exact Keeps.refl _
        · refine Keeps.trans ?_ (State.complete_keeps _ _ _ _ _)
          refine Keeps.foldl _ _ (fun s6 y7 => ?_) ?_
          · refine Keeps.trans ?_ (State.modNrt_keeps _ _ _)
            exact Keeps.refl _
          · exact Keeps.refl _

theorem execCounterSet_keeps (q : Desc) (d : Nat) (add : Bool) (index value : Nat) (s : State) : KNext 0x42440ABE9 s (execCounterSet q d add index value s) := by
  unfold execCounterSet
  refine KNext.mk ?_
  refine Keeps.tr ?_ (runDesc_keeps _ _ _ _ _ (fun v0 => ?_))
  · exact Keeps.refl _
  · refine Keeps.ite ?_ ?_
    · refine Keeps.trans ?_ (State.fail_keeps _ _ _)
      exact Keeps.refl _
    · refine Keeps.ite ?_ ?_
      · refine Keeps.trans ?_ (State.fail_keeps _ _ _)
        exact Keeps.refl _
      · extract_lets +onlyGivenNames x1
        refine Keeps.trans ?_ (State.complete_keeps _ _ _ _ _)
        refine Keeps.trans ?_ (State.setCtr_keeps _ _ _ _)
        exact Keeps.refl _

theorem execCounterWait_keeps (q : Desc) (d index thresh timeout : Nat) (s : State) : KNext 0x4408869 s (execCounterWait q d index thresh timeout s) := by
  unfold execCounterWait
  refine KNext.mk ?_
  refine Keeps.tr ?_ (runDesc_keeps _ _ _ _ _ (fun v0 => ?_))
  · exact Keeps.refl _
  · refine Keeps.ite ?_ ?_
    · refine Keeps.trans ?_ (State.fail_keeps _ _ _)
      exact Keeps.refl _
    · refine Keeps.ite ?_ ?_
      · refine Keeps.trans ?_ (State.fail_keeps _ _ _)
        exact Keeps.refl _
      · extract_lets +onlyGivenNames x1
        refine Keeps.ite ?_ ?_
        · refine Keeps.trans ?_ (State.complete_keeps _ _ _ _ _)
          exact Keeps.refl _
        · refine Keeps.ite ?_ ?_
          · refine Keeps.trans ?_ (State.complete_keeps _ _ _ _ _)
            exact Keeps.refl _
          · extract_lets +onlyGivenNames x2
            refine Keeps.trans ?_ (State.modNrt_keeps _ _ _)
            exact Keeps.refl _

theorem execCounterWaitTimeout_keeps (d t : Nat) (s : State) : KNext 0x4608879 s (execCounterWaitTimeout d t s) := by
  unfold execCounterWaitTimeout
  extract_lets +onlyGivenNames x0
  refine KNext.cut (b := x0) ?_ ?_
  · unfold x0
    refine Keeps.trans ?_ (State.advanceTo_keeps _ _)
    exact Keeps.refl _
  intro k1
  clear_value x0
  extract_lets +onlyGivenNames x2
  extract_lets +onlyGivenNames x3
  extract_lets +onlyGivenNames x4
  refine KNext.cut (b := x4) ?_ ?_
  · unfold x4
    refine Keeps.trans ?_ (State.modNrt_keeps _ _ _)
    exact k1
  intro k5
  clear_value x4
  refine KNext.mk ?_
  refine Keeps.foldl _ _ (fun s6 y7 => ?_) ?_
  · refine Keeps.trans ?_ (State.completeKey_keeps _ _ _ _ _)
    exact Keeps.refl _
  · exact k5

theorem execArm_keeps (q : Desc) (b : ArmBody) (s : State) : KNext 0x42440ABE9 s (execArm q b s) := by
  unfold execArm
  refine KNext.mk ?_
  refine Keeps.tr ?_ (runDesc_keeps _ _ _ _ _ (fun v0 => ?_))
  · exact Keeps.refl _
  · extract_lets +onlyGivenNames x1
    extract_lets +onlyGivenNames x2
    refine Keeps.ite ?_ ?_
    · refine Keeps.trans ?_ (State.fail_keeps _ _ _)
      exact Keeps.refl _
    · refine Keeps.ite ?_ ?_
      · refine Keeps.trans ?_ (State.fail_keeps _ _ _)
        exact Keeps.refl _
      · refine Keeps.ite ?_ ?_
        · refine Keeps.trans ?_ (State.fail_keeps _ _ _)
          exact Keeps.refl _
        · refine Keeps.ite ?_ ?_
          · refine Keeps.trans ?_ (State.fail_keeps _ _ _)
            exact Keeps.refl _
          · refine Keeps.ite ?_ ?_
            · refine Keeps.trans ?_ (State.fail_keeps _ _ _)
              exact Keeps.refl _
            · extract_lets +onlyGivenNames x3
              refine Keeps.ite ?_ ?_
              · refine Keeps.trans ?_ (State.fire_keeps _ _ _)
                exact Keeps.refl _
              · refine Keeps.ite ?_ ?_
                · refine Keeps.trans ?_ (State.fail_keeps _ _ _)
                  exact Keeps.refl _
                · refine Keeps.trans ?_ (State.modNrt_keeps _ _ _)
                  exact Keeps.refl _

theorem execArmCancel_keeps (q : Desc) (d index : Nat) (s : State) : KNext 0x4408869 s (execArmCancel q d index s) := by
  unfold execArmCancel
  refine KNext.mk ?_
  refine Keeps.tr ?_ (runDesc_keeps _ _ _ _ _ (fun v0 => ?_))
  · exact Keeps.refl _
  · refine Keeps.ite ?_ ?_
    · refine Keeps.trans ?_ (State.fail_keeps _ _ _)
      exact Keeps.refl _
    · refine Keeps.ite ?_ ?_
      · refine Keeps.trans ?_ (State.fail_keeps _ _ _)
        exact Keeps.refl _
      · extract_lets +onlyGivenNames x1
        extract_lets +onlyGivenNames x2
        refine Keeps.cut (b := x2) ?_ ?_
        · unfold x2
          refine Keeps.trans ?_ (State.modNrt_keeps _ _ _)
          exact Keeps.refl _
        intro k3
        clear_value x2
        extract_lets +onlyGivenNames x4
        refine Keeps.cut (b := x4) ?_ ?_
        · unfold x4
          refine Keeps.foldl _ _ (fun s5 y6 => ?_) ?_
          · refine Keeps.trans ?_ (State.completeKey_keeps _ _ _ _ _)
            exact Keeps.refl _
          · exact k3
        intro k7
        clear_value x4
        refine Keeps.trans ?_ (State.complete_keeps _ _ _ _ _)
        exact k7

end Sys2Proof.Machine
end

