-- ==== Sys2Proof/Laws/KeepsFabric.lean ====
section
/-!
SUPPORT. Sys2Proof/Laws/KeepsFabric.lean: each operation of Machine/Fabric.lean keeps what `Keeps` says, with the parts of the state it may
touch.
-/
namespace Sys2Proof.Machine
set_option Elab.async false

theorem State.newSak_keeps (s : State) (d : Nat) : Keeps 0x800002008 s (State.newSak s d) := by
  unfold State.newSak
  extract_lets +onlyGivenNames x0
  extract_lets +onlyGivenNames x1
  refine Keeps.cut (b := x1) ?_ ?_
  · unfold x1
    refine Keeps.trans ?_ (State.modLnk_keeps _ _ _)
    exact Keeps.refl _
  intro k2
  clear_value x1
  refine Keeps.trans ?_ (State.evtDie_keeps _ _ _)
  refine Keeps.trans ?_ (State.fadd_keeps _ _ _ _)
  exact k2

theorem State.startRekey_keeps (s : State) (d : Nat) : Keeps 0x800002008 s (State.startRekey s d) := by
  unfold State.startRekey
  refine Keeps.ite ?_ ?_
  · exact Keeps.refl _
  · refine Keeps.ite ?_ ?_
    · refine Keeps.trans ?_ (State.enqueue_keeps _ _ _ _ _ _)
      refine Keeps.trans ?_ (State.newSak_keeps _ _)
      exact Keeps.refl _
    · refine Keeps.ite ?_ ?_
      · exact Keeps.refl _
      · refine Keeps.trans ?_ (State.enqueue_keeps _ _ _ _ _ _)
        refine Keeps.trans ?_ (State.modLnk_keeps _ _ _)
        exact Keeps.refl _

theorem State.sendNext_keeps (s : State) (d : Nat) (w0 : Nat) : Keeps 0xC2640ABE9 s (State.sendNext s d w0) := by
  induction w0 generalizing s d with
  | zero =>
    unfold State.sendNext
    exact Keeps.refl _
  | succ n0 ih =>
    unfold State.sendNext
    split
    · rename_i z0 z1 z2
      refine Keeps.cut (b := z1) ?_ ?_
      · refine KSnd.eq z2 ?_
        refine KSnd.trans ?_ (State.pickClass_keeps _ _ _)
        exact Keeps.refl _
      intro k3
      exact k3
    · rename_i z4 z5 z6 z7 z8
      refine Keeps.cut (b := z7) ?_ ?_
      · refine KSnd.eq z8 ?_
        refine KSnd.trans ?_ (State.pickClass_keeps _ _ _)
        exact Keeps.refl _
      intro k9
      split
      · rename_i z10 z11 z12 z13
        refine Keeps.cut (b := z12) ?_ ?_
        · refine KSnd.eq z13 ?_
          refine KSnd.trans ?_ (State.readyFrame_keeps _ _ _)
          exact k9
        intro k14
        refine Keeps.trans ?_ (State.sendFrame_keeps _ _ _ _)
        exact k14
      · rename_i z15 z16 z17
        refine Keeps.cut (b := z16) ?_ ?_
        · refine KSnd.eq z17 ?_
          refine KSnd.trans ?_ (State.readyFrame_keeps _ _ _)
          exact k9
        intro k18
        refine Keeps.tr ?_ (ih _ _)
        exact k18

theorem execFrameTransmit_keeps (d t : Nat) (s : State) : KNext 0xC2660ABF9 s (execFrameTransmit d t s) := by
  unfold execFrameTransmit
  extract_lets +onlyGivenNames x0
  refine KNext.cut (b := x0) ?_ ?_
  · unfold x0
    refine Keeps.trans ?_ (State.advanceTo_keeps _ _)
    exact Keeps.refl _
  intro k1
  clear_value x0
  refine KNext.ite ?_ ?_
  · refine KNext.mk ?_
    exact k1
  · extract_lets +onlyGivenNames x2
    refine KNext.cut (b := x2) ?_ ?_
    · unfold x2
      refine Keeps.trans ?_ (State.sendNext_keeps _ _ _)
      refine Keeps.trans ?_ (State.accrueAll_keeps _ _)
      exact k1
    intro k3
    clear_value x2
    refine KNext.ite ?_ ?_
    · refine KNext.mk ?_
      refine Keeps.trans ?_ (State.startRekey_keeps _ _)
      exact k3
    · refine KNext.mk ?_
      exact k3

theorem State.secCheck_keeps (s : State) (d : Nat) (k : FrameKind) (sec : Option (Nat × Nat)) (icvOk : Bool) : KSnd 0x800002008 s (State.secCheck s d k sec icvOk) := by
  unfold State.secCheck
  refine KSnd.ite ?_ ?_
  · refine KSnd.mk ?_
    exact Keeps.refl _
  · split
    · rename_i z0
      refine KSnd.ite ?_ ?_
      · refine KSnd.mk ?_
        exact Keeps.refl _
      · refine KSnd.mk ?_
        refine Keeps.trans ?_ (State.fadd_keeps _ _ _ _)
        exact Keeps.refl _
    · rename_i z1 z2 z3
      split
      · rename_i z4 z5
        refine KSnd.mk ?_
        refine Keeps.trans ?_ (State.fadd_keeps _ _ _ _)
        exact Keeps.refl _
      · rename_i z6 z7 z8
        refine KSnd.ite ?_ ?_
        · refine KSnd.mk ?_
          refine Keeps.trans ?_ (State.evtDie_keeps _ _ _)
          refine Keeps.trans ?_ (State.fadd_keeps _ _ _ _)
          exact Keeps.refl _
        · refine KSnd.ite ?_ ?_
          · refine KSnd.mk ?_
            refine Keeps.trans ?_ (State.fadd_keeps _ _ _ _)
            exact Keeps.refl _
          · refine KSnd.mk ?_
            refine Keeps.trans ?_ (State.modLnk_keeps _ _ _)
            exact Keeps.refl _

theorem State.deliver_keeps (s : State) (d : Nat) (p : Packet) (v4 : Bool) (addr dscp : Nat) (ce wf : Bool) (sum : UdpSum) : Keeps 0xDE660ABFB s (State.deliver s d p v4 addr dscp ce wf sum) := by
  unfold State.deliver
  extract_lets +onlyGivenNames x0
  extract_lets +onlyGivenNames x1
  extract_lets +onlyGivenNames x2
  split
  · rename_i z3 z4 z5
    refine Keeps.tr ?_ (State.rxPacket_keeps _ _ _ _ _ _ _ (fun v6 => ?_))
    · exact Keeps.refl _
    · refine Keeps.ite ?_ ?_
      · refine Keeps.trans ?_ (State.rxRead_keeps _ _ _ _ _ _ _)
        exact Keeps.refl _
      · refine Keeps.ite ?_ ?_
        · refine Keeps.trans ?_ (State.rxResp_keeps _ _ _ _ _ _ _)
          exact Keeps.refl _
        · refine Keeps.ite ?_ ?_
          · refine Keeps.trans ?_ (State.rxAck_keeps _ _ _)
            exact Keeps.refl _
          · refine Keeps.ite ?_ ?_
            · refine Keeps.trans ?_ (State.rxNak_keeps _ _ _)
              exact Keeps.refl _
            · refine Keeps.ite ?_ ?_
              · refine Keeps.trans ?_ (State.rxSnack_keeps _ _ _ _)
                exact Keeps.refl _
              · refine Keeps.trans ?_ (State.rxWrite_keeps _ _ _ _ _ _ _ _ _)
                exact Keeps.refl _
  · rename_i z7 z8 z9
    refine Keeps.tr ?_ (State.rxPacket_keeps _ _ _ _ _ _ _ (fun v10 => ?_))
    · exact Keeps.refl _
    · refine Keeps.trans ?_ (State.rxRoce_keeps _ _ _ _ _ _ _ _)
      exact Keeps.refl _
  · rename_i z11 z12 z13
    exact Keeps.refl _

theorem execFrameRx_keeps (d : Nat) (k : FrameKind) (sec : Option (Nat × Nat)) (icvOk : Bool) (p : Packet) (v4 : Bool) (addr dscp : Nat)
    (ce wf : Bool) (sum : UdpSum) (t : Nat) (s : State) : KNext 0xDE660ABFB s (execFrameRx d k sec icvOk p v4 addr dscp ce wf sum t s) := by
  unfold execFrameRx
  extract_lets +onlyGivenNames x0
  refine KNext.cut (b := x0) ?_ ?_
  · unfold x0
    refine Keeps.trans ?_ (State.advanceTo_keeps _ _)
    exact Keeps.refl _
  intro k1
  clear_value x0
  extract_lets +onlyGivenNames x2
  refine KNext.cut (b := x2) ?_ ?_
  · unfold x2
    refine Keeps.ite ?_ ?_
    · refine Keeps.trans ?_ (State.bw_keeps _ _ _ _)
      exact k1
    · exact k1
  intro k3
  clear_value x2
  refine KNext.ite ?_ ?_
  · refine KNext.mk ?_
    exact k3
  · split
    · rename_i z4 z5 z6 z7
      refine KNext.cut (b := z6) ?_ ?_
      · refine KSnd.eq z7 ?_
        refine KSnd.trans ?_ (State.secCheck_keeps _ _ _ _ _)
        exact k3
      intro k8
      refine KNext.ite ?_ ?_
      · refine KNext.mk ?_
        refine Keeps.trans ?_ (State.deliver_keeps _ _ _ _ _ _ _ _ _)
        exact k8
      · refine KNext.mk ?_
        exact k8

theorem execMkaFrameRx_keeps (d mi prio : Nat) (first leave wantSak sak cakOk : Bool) (t : Nat) (s : State) : KNext 0xC0060A059 s (execMkaFrameRx d mi prio first leave wantSak sak cakOk t s) := by
  unfold execMkaFrameRx
  extract_lets +onlyGivenNames x0
  refine KNext.cut (b := x0) ?_ ?_
  · unfold x0
    refine Keeps.trans ?_ (State.advanceTo_keeps _ _)
    exact Keeps.refl _
  intro k1
  clear_value x0
  refine KNext.ite ?_ ?_
  · refine KNext.mk ?_
    exact k1
  · extract_lets +onlyGivenNames x2
    extract_lets +onlyGivenNames x3
    extract_lets +onlyGivenNames x4
    refine KNext.cut (b := x4) ?_ ?_
    · unfold x4
      refine Keeps.trans ?_ (State.modLnk_keeps _ _ _)
      exact k1
    intro k5
    clear_value x4
    extract_lets +onlyGivenNames x6
    refine KNext.cut (b := x6) ?_ ?_
    · unfold x6
      refine Keeps.trans ?_ (State.refreshPort_keeps _ _)
      exact k5
    intro k7
    clear_value x6
    extract_lets +onlyGivenNames x8
    refine KNext.cut (b := x8) ?_ ?_
    · unfold x8
      refine Keeps.ite ?_ ?_
      · refine Keeps.trans ?_ (State.startRekey_keeps _ _)
        exact k7
      · exact k7
    intro k9
    clear_value x8
    refine KNext.ite ?_ ?_
    · refine KNext.mk ?_
      refine Keeps.trans ?_ (State.newSak_keeps _ _)
      exact k9
    · refine KNext.mk ?_
      exact k9

theorem execSakInstalled_keeps (d : Nat) (s : State) : KNext 0xC0040A049 s (execSakInstalled d s) := by
  unfold execSakInstalled
  split
  · rename_i z0 z1
    refine KNext.mk ?_
    exact Keeps.refl _
  · rename_i z2 z3 z4
    extract_lets +onlyGivenNames x5
    refine KNext.cut (b := x5) ?_ ?_
    · unfold x5
      refine Keeps.trans ?_ (State.modLnk_keeps _ _ _)
      exact Keeps.refl _
    intro k6
    clear_value x5
    extract_lets +onlyGivenNames x7
    refine KNext.cut (b := x7) ?_ ?_
    · unfold x7
      refine Keeps.trans ?_ (State.fset_keeps _ _ _ _)
      refine Keeps.trans ?_ (State.fset_keeps _ _ _ _)
      exact k6
    intro k8
    clear_value x7
    refine KNext.mk ?_
    refine Keeps.trans ?_ (State.refreshPort_keeps _ _)
    exact k8

theorem execRekeyTimer_keeps (d t : Nat) (s : State) : KNext 0x800202018 s (execRekeyTimer d t s) := by
  unfold execRekeyTimer
  extract_lets +onlyGivenNames x0
  refine KNext.cut (b := x0) ?_ ?_
  · unfold x0
    refine Keeps.trans ?_ (State.advanceTo_keeps _ _)
    exact Keeps.refl _
  intro k1
  clear_value x0
  extract_lets +onlyGivenNames x2
  refine KNext.ite ?_ ?_
  · refine KNext.mk ?_
    refine Keeps.trans ?_ (State.startRekey_keeps _ _)
    exact k1
  · refine KNext.mk ?_
    exact k1

theorem execRekeyNow_keeps (d : Nat) (via : Via) (s : State) : KNext 0x800402048 s (execRekeyNow d via s) := by
  unfold execRekeyNow
  refine KNext.mk ?_
  refine Keeps.tr ?_ (regWrite_keeps _ _ _ _ (fun v0 => ?_))
  · exact Keeps.refl _
  · refine Keeps.ite ?_ ?_
    · exact Keeps.refl _
    · refine Keeps.trans ?_ (State.startRekey_keeps _ _)
      exact Keeps.refl _

theorem execSecuredLost_keeps (d : Nat) (sa : Bool) (s : State) : KNext 0xC0040A049 s (execSecuredLost d sa s) := by
  unfold execSecuredLost
  extract_lets +onlyGivenNames x0
  refine KNext.cut (b := x0) ?_ ?_
  · unfold x0
    refine Keeps.trans ?_ (State.modLnk_keeps _ _ _)
    exact Keeps.refl _
  intro k1
  clear_value x0
  refine KNext.mk ?_
  refine Keeps.trans ?_ (State.refreshPort_keeps _ _)
  exact k1

theorem State.linkZero_keeps (s : State) (d : Nat) : Keeps 0xC0440A869 s (State.linkZero s d) := by
  unfold State.linkZero
  extract_lets +onlyGivenNames x0
  refine Keeps.cut (b := x0) ?_ ?_
  · unfold x0
    refine Keeps.foldl _ _ (fun s1 y2 => ?_) ?_
    · refine Keeps.trans ?_ (State.freeEntry_keeps _ _ _)
      exact Keeps.refl _
    · exact Keeps.refl _
  intro k3
  clear_value x0
  extract_lets +onlyGivenNames x4
  refine Keeps.cut (b := x4) ?_ ?_
  · unfold x4
    refine Keeps.trans ?_ (State.modNrt_keeps _ _ _)
    exact k3
  intro k5
  clear_value x4
  extract_lets +onlyGivenNames x6
  refine Keeps.cut (b := x6) ?_ ?_
  · unfold x6
    refine Keeps.trans ?_ (State.modLnk_keeps _ _ _)
    exact k5
  intro k7
  clear_value x6
  refine Keeps.trans ?_ (State.settleRevokes_keeps _ _)
  refine Keeps.trans ?_ (State.fset_keeps _ _ _ _)
  refine Keeps.trans ?_ (State.fset_keeps _ _ _ _)
  refine Keeps.trans ?_ (State.fset_keeps _ _ _ _)
  exact k7

theorem State.setLink_keeps (s : State) (d lanes : Nat) : Keeps 0xC0440A869 s (State.setLink s d lanes) := by
  unfold State.setLink
  extract_lets +onlyGivenNames x0
  refine Keeps.cut (b := x0) ?_ ?_
  · unfold x0
    refine Keeps.trans ?_ (State.fset_keeps _ _ _ _)
    refine Keeps.trans ?_ (State.fput_keeps _ _ _ _)
    exact Keeps.refl _
  intro k1
  clear_value x0
  extract_lets +onlyGivenNames x2
  refine Keeps.cut (b := x2) ?_ ?_
  · unfold x2
    refine Keeps.ite ?_ ?_
    · refine Keeps.trans ?_ (State.linkZero_keeps _ _)
      exact k1
    · exact k1
  intro k3
  clear_value x2
  extract_lets +onlyGivenNames x4
  extract_lets +onlyGivenNames x5
  refine Keeps.cut (b := x5) ?_ ?_
  · unfold x5
    refine Keeps.trans ?_ (State.fput_keeps _ _ _ _)
    exact k3
  intro k6
  clear_value x5
  extract_lets +onlyGivenNames x7
  refine Keeps.cut (b := x7) ?_ ?_
  · unfold x7
    refine Keeps.ite ?_ ?_
    · refine Keeps.trans ?_ (State.evtDie_keeps _ _ _)
      exact k6
    · exact k6
  intro k8
  clear_value x7
  refine Keeps.trans ?_ (State.fput_keeps _ _ _ _)
  exact k8

theorem execLnkEnWrite_keeps (d : Nat) (en : Bool) (via : Via) (s : State) : KNext 0xC0440A869 s (execLnkEnWrite d en via s) := by
  unfold execLnkEnWrite
  refine KNext.mk ?_
  refine Keeps.tr ?_ (regWrite_keeps _ _ _ _ (fun v0 => ?_))
  · exact Keeps.refl _
  · extract_lets +onlyGivenNames x1
    extract_lets +onlyGivenNames x2
    refine Keeps.cut (b := x2) ?_ ?_
    · unfold x2
      refine Keeps.trans ?_ (State.fput_keeps _ _ _ _)
      exact Keeps.refl _
    intro k3
    clear_value x2
    refine Keeps.ite ?_ ?_
    · exact k3
    · refine Keeps.trans ?_ (State.linkState_keeps _ _ _)
      refine Keeps.trans ?_ (State.setLink_keeps _ _ _)
      exact k3

theorem execLaneFailure_keeps (d bad : Nat) (s : State) : KNext 0xC0440A869 s (execLaneFailure d bad s) := by
  unfold execLaneFailure
  extract_lets +onlyGivenNames x0
  extract_lets +onlyGivenNames x1
  refine KNext.cut (b := x1) ?_ ?_
  · unfold x1
    refine Keeps.trans ?_ (State.modLnk_keeps _ _ _)
    exact Keeps.refl _
  intro k2
  clear_value x1
  refine KNext.ite ?_ ?_
  · refine KNext.mk ?_
    exact k2
  · extract_lets +onlyGivenNames x3
    refine KNext.mk ?_
    refine Keeps.trans ?_ (State.linkState_keeps _ _ _)
    refine Keeps.trans ?_ (State.setLink_keeps _ _ _)
    exact k2

theorem execFabricLinkTrained_keeps (d good : Nat) (s : State) : KNext 0xC0440A869 s (execFabricLinkTrained d good s) := by
  unfold execFabricLinkTrained
  extract_lets +onlyGivenNames x0
  refine KNext.ite ?_ ?_
  · refine KNext.mk ?_
    exact Keeps.refl _
  · refine KNext.mk ?_
    refine Keeps.trans ?_ (State.linkState_keeps _ _ _)
    refine Keeps.trans ?_ (State.setLink_keeps _ _ _)
    refine Keeps.trans ?_ (State.modLnk_keeps _ _ _)
    exact Keeps.refl _

theorem execShutterGateChange_keeps (d t : Nat) (s : State) : KNext 0x800202018 s (execShutterGateChange d t s) := by
  unfold execShutterGateChange
  extract_lets +onlyGivenNames x0
  refine KNext.cut (b := x0) ?_ ?_
  · unfold x0
    refine Keeps.trans ?_ (State.accrueAll_keeps _ _)
    refine Keeps.trans ?_ (State.advanceTo_keeps _ _)
    exact Keeps.refl _
  intro k1
  clear_value x0
  extract_lets +onlyGivenNames x2
  extract_lets +onlyGivenNames x3
  extract_lets +onlyGivenNames x4
  refine KNext.cut (b := x4) ?_ ?_
  · unfold x4
    refine Keeps.trans ?_ (State.modLnk_keeps _ _ _)
    exact k1
  intro k5
  clear_value x4
  extract_lets +onlyGivenNames x6
  refine KNext.cut (b := x6) ?_ ?_
  · unfold x6
    refine Keeps.trans ?_ (State.fset_keeps _ _ _ _)
    refine Keeps.trans ?_ (State.fset_keeps _ _ _ _)
    exact k5
  intro k7
  clear_value x6
  extract_lets +onlyGivenNames x8
  refine KNext.cut (b := x8) ?_ ?_
  · unfold x8
    refine Keeps.ite ?_ ?_
    · refine Keeps.trans ?_ (State.evtDie_keeps _ _ _)
      refine Keeps.trans ?_ (State.fadd_keeps _ _ _ _)
      exact k7
    · exact k1
  intro k9
  clear_value x8
  extract_lets +onlyGivenNames x10
  refine KNext.ite ?_ ?_
  · refine KNext.mk ?_
    exact k9
  · extract_lets +onlyGivenNames x11
    split
    · rename_i z12 z13 z14 z15
      extract_lets +onlyGivenNames x16
      refine KNext.cut (b := x16) ?_ ?_
      · unfold x16
        refine Keeps.trans ?_ (State.modLnk_keeps _ _ _)
        exact k9
      intro k17
      clear_value x16
      refine KNext.ite ?_ ?_
      · refine KNext.mk ?_
        refine Keeps.trans ?_ (State.evtDie_keeps _ _ _)
        refine Keeps.trans ?_ (State.fset_keeps _ _ _ _)
        exact k17
      · refine KNext.mk ?_
        exact k17

theorem execShutterCommit_keeps (d : Nat) (via : Via) (s : State) : KNext 0x800402048 s (execShutterCommit d via s) := by
  unfold execShutterCommit
  refine KNext.mk ?_
  refine Keeps.tr ?_ (regWrite_keeps _ _ _ _ (fun v0 => ?_))
  · exact Keeps.refl _
  · refine Keeps.ite ?_ ?_
    · exact Keeps.refl _
    · extract_lets +onlyGivenNames x1
      extract_lets +onlyGivenNames x2
      extract_lets +onlyGivenNames x3
      refine Keeps.ite ?_ ?_
      · refine Keeps.trans ?_ (State.fset_keeps _ _ _ _)
        refine Keeps.trans ?_ (State.modLnk_keeps _ _ _)
        exact Keeps.refl _
      · refine Keeps.trans ?_ (State.evtDie_keeps _ _ _)
        exact Keeps.refl _

theorem execPolicerCommit_keeps (d v : Nat) (via : Via) (s : State) : KNext 0x800402048 s (execPolicerCommit d v via s) := by
  unfold execPolicerCommit
  refine KNext.mk ?_
  refine Keeps.tr ?_ (regWrite_keeps _ _ _ _ (fun v0 => ?_))
  · exact Keeps.refl _
  · refine Keeps.ite ?_ ?_
    · exact Keeps.refl _
    · extract_lets +onlyGivenNames x1
      extract_lets +onlyGivenNames x2
      extract_lets +onlyGivenNames x3
      refine Keeps.ite ?_ ?_
      · refine Keeps.trans ?_ (State.evtDie_keeps _ _ _)
        exact Keeps.refl _
      · extract_lets +onlyGivenNames x4
        extract_lets +onlyGivenNames x5
        extract_lets +onlyGivenNames x6
        refine Keeps.cut (b := x6) ?_ ?_
        · unfold x6
          refine Keeps.trans ?_ (State.fset_keeps _ _ _ _)
          refine Keeps.trans ?_ (State.fput_keeps _ _ _ _)
          exact Keeps.refl _
        intro k7
        clear_value x6
        refine Keeps.trans ?_ (State.modLnk_keeps _ _ _)
        exact k7

theorem execLatClr_keeps (d : Nat) (via : Via) (s : State) : KNext 0x800400040 s (execLatClr d via s) := by
  unfold execLatClr
  refine KNext.mk ?_
  refine Keeps.tr ?_ (regWrite_keeps _ _ _ _ (fun v0 => ?_))
  · exact Keeps.refl _
  · refine Keeps.ite ?_ ?_
    · exact Keeps.refl _
    · refine Keeps.foldl _ _ (fun s1 y2 => ?_) ?_
      · refine Keeps.trans ?_ (State.fset_keeps _ _ _ _)
        exact Keeps.refl _
      · exact Keeps.refl _

theorem State.readTxpn_keeps (s : State) (d : Nat) : KSnd 0x800000000 s (State.readTxpn s d) := by
  unfold State.readTxpn
  refine KSnd.ite ?_ ?_
  · refine KSnd.mk ?_
    exact Keeps.refl _
  · extract_lets +onlyGivenNames x0
    refine KSnd.mk ?_
    refine Keeps.trans ?_ (State.fset_keeps _ _ _ _)
    refine Keeps.trans ?_ (State.fset_keeps _ _ _ _)
    exact Keeps.refl _

theorem execLnkTxpnLoRead_keeps (d : Nat) (via : Via) (s : State) : KNext 0x800400041 s (execLnkTxpnLoRead d via s) := by
  unfold execLnkTxpnLoRead
  refine KNext.mk ?_
  refine Keeps.tr ?_ (regRead_keeps _ _ _ _ (fun v0 => ?_))
  · exact Keeps.refl _
  · refine KSnd.trans ?_ (State.readTxpn_keeps _ _)
    exact Keeps.refl _

end Sys2Proof.Machine
end

