-- ==== Sys2Proof/Laws/KeepsRings.lean ====
section
/-!
SUPPORT. Sys2Proof/Laws/KeepsRings.lean: each operation of Machine/Rings.lean keeps what `Keeps` says, with the parts of the state it may
touch.
-/
namespace Sys2Proof.Machine
set_option Elab.async false

theorem State.setRing_keeps (s : State) (f page : Nat) (r : Ring) : Keeps 0x40 s (State.setRing s f page r) := by
  unfold State.setRing
  refine Keeps.trans ?_ (State.modFn_keeps _ _ _)
  exact Keeps.refl _

theorem State.dbErr_keeps (s : State) (f : Nat) : Keeps 0x400040 s (State.dbErr s f) := by
  unfold State.dbErr
  refine Keeps.trans ?_ (State.evtFn_keeps _ _ _)
  refine Keeps.trans ?_ (State.fadd_keeps _ _ _ _)
  exact Keeps.refl _

theorem execSqTailDoorbell_keeps (p x n idx : Nat) (w32 : Bool) (s : State) : KNext 0x400040 s (execSqTailDoorbell p x n idx w32 s) := by
  unfold execSqTailDoorbell
  extract_lets +onlyGivenNames x0
  split
  · rename_i z1 z2
    refine KNext.mk ?_
    refine Keeps.trans ?_ (State.dbErr_keeps _ _)
    exact Keeps.refl _
  · rename_i z3 z4 z5
    refine KNext.ite ?_ ?_
    · refine KNext.mk ?_
      refine Keeps.trans ?_ (State.setRing_keeps _ _ _ _)
      exact Keeps.refl _
    · refine KNext.mk ?_
      refine Keeps.trans ?_ (State.dbErr_keeps _ _)
      exact Keeps.refl _

theorem execCqHeadDoorbell_keeps (p x n idx : Nat) (w32 : Bool) (s : State) : KNext 0x408041 s (execCqHeadDoorbell p x n idx w32 s) := by
  unfold execCqHeadDoorbell
  extract_lets +onlyGivenNames x0
  split
  · rename_i z1 z2
    refine KNext.mk ?_
    refine Keeps.trans ?_ (State.dbErr_keeps _ _)
    exact Keeps.refl _
  · rename_i z3 z4 z5
    extract_lets +onlyGivenNames x6
    refine KNext.ite ?_ ?_
    · extract_lets +onlyGivenNames x7
      refine KNext.cut (b := x7) ?_ ?_
      · unfold x7
        refine Keeps.trans ?_ (State.setRing_keeps _ _ _ _)
        exact Keeps.refl _
      intro k8
      clear_value x7
      refine KNext.mk ?_
      refine Keeps.trans ?_ (State.flushHeld_keeps _ _ _)
      exact k8
    · refine KNext.mk ?_
      refine Keeps.trans ?_ (State.dbErr_keeps _ _)
      exact Keeps.refl _

theorem State.acceptRun_keeps (s : State) (f sq n : Nat) (l : List Fetched) : Keeps 0x4408069 s (State.acceptRun s f sq n l) := by
  induction n generalizing s l with
  | zero => unfold State.acceptRun; exact Keeps.refl _
  | succ n ih =>
    cases l with
    | nil => unfold State.acceptRun; exact Keeps.refl _
    | cons x r =>
      unfold State.acceptRun
      refine Keeps.ite (Keeps.refl _) ?_
      split
      · exact Keeps.refl _
      · rename_i q _
        extract_lets e t u
        have ht : Keeps 0x4408069 s t :=
          ((State.tlp_keeps _ _ _ _).mono.trans (State.accept_keeps _ _ _ _)).trans (State.setRing_keeps _ _ _ _)
        clear_value t
        have hu : Keeps 0x4408069 s u := Keeps.ite ht (ht.trans (State.fail_keeps _ _ _))
        clear_value u
        exact Keeps.ite hu (hu.trans (ih _ _))

theorem State.stopRings_keeps (s : State) (f : Nat) : Keeps 0x40 s (State.stopRings s f) := by
  unfold State.stopRings
  refine Keeps.trans ?_ (State.modFn_keeps _ _ _)
  exact Keeps.refl _

theorem execDescriptorFetch_keeps (p x : Nat) (descs : List Fetched) (fail : Bool) (s : State) : KNext 0x4408069 s (execDescriptorFetch p x descs fail s) := by
  unfold execDescriptorFetch
  extract_lets +onlyGivenNames x0
  split
  · rename_i z1 z2
    refine KNext.mk ?_
    exact Keeps.refl _
  · rename_i z3 z4 z5 z6
    extract_lets +onlyGivenNames x7
    refine KNext.cut (b := x7) ?_ ?_
    · unfold x7
      refine Keeps.trans ?_ (State.modFn_keeps _ _ _)
      exact Keeps.refl _
    intro k8
    clear_value x7
    refine KNext.ite ?_ ?_
    · extract_lets +onlyGivenNames x9
      extract_lets +onlyGivenNames x10
      refine KNext.ite ?_ ?_
      · extract_lets +onlyGivenNames x11
        refine KNext.cut (b := x11) ?_ ?_
        · unfold x11
          refine Keeps.trans ?_ (State.raiseOn0_keeps _ _ _ _ _)
          exact k8
        intro k12
        clear_value x11
        refine KNext.mk ?_
        refine Keeps.trans ?_ (State.fset_keeps _ _ _ _)
        refine Keeps.trans ?_ (State.fset_keeps _ _ _ _)
        refine Keeps.trans ?_ (State.stopRings_keeps _ _)
        exact k12
      · extract_lets +onlyGivenNames x13
        refine KNext.cut (b := x13) ?_ ?_
        · unfold x13
          refine Keeps.trans ?_ (State.modFn_keeps _ _ _)
          exact k8
        intro k14
        clear_value x13
        refine KNext.mk ?_
        refine Keeps.trans ?_ (State.raiseEvent_keeps _ _ _ _ _)
        exact k14
    · refine KNext.mk ?_
      refine Keeps.trans ?_ (State.acceptRun_keeps _ _ _ _ _)
      exact k8

theorem execNop_keeps (d : Desc) (s : State) : KNext 0x4408069 s (execNop d s) := by
  unfold execNop
  refine KNext.mk ?_
  refine Keeps.tr ?_ (runDesc_keeps _ _ _ _ _ (fun v0 => ?_))
  · exact Keeps.refl _
  · refine Keeps.trans ?_ (State.complete_keeps _ _ _ _ _)
    exact Keeps.refl _

theorem execResync_keeps (d : Desc) (dest room : Nat) (adopt : Bool) (s : State) : KNext 0x4408069 s (execResync d dest room adopt s) := by
  unfold execResync
  refine KNext.mk ?_
  refine Keeps.tr ?_ (runDesc_keeps _ _ _ _ _ (fun v0 => ?_))
  · exact Keeps.refl _
  · refine Keeps.ite ?_ ?_
    · refine Keeps.trans ?_ (State.fail_keeps _ _ _)
      exact Keeps.refl _
    · refine Keeps.trans ?_ (State.modFn_keeps _ _ _)
      exact Keeps.refl _

theorem execRingCreate_keeps (d : Desc) (cq : Bool) (id log2 flags link cc ct base : Nat) (s : State) : KNext 0x4408069 s (execRingCreate d cq id log2 flags link cc ct base s) := by
  unfold execRingCreate
  refine KNext.mk ?_
  refine Keeps.tr ?_ (runDesc_keeps _ _ _ _ _ (fun v0 => ?_))
  · exact Keeps.refl _
  · extract_lets +onlyGivenNames x1
    refine Keeps.ite ?_ ?_
    · refine Keeps.trans ?_ (State.complete_keeps _ _ _ _ _)
      exact Keeps.refl _
    · refine Keeps.ite ?_ ?_
      · refine Keeps.trans ?_ (State.fail_keeps _ _ _)
        exact Keeps.refl _
      · extract_lets +onlyGivenNames x2
        extract_lets +onlyGivenNames x3
        refine Keeps.cut (b := x3) ?_ ?_
        · unfold x3
          refine Keeps.trans ?_ (State.setRing_keeps _ _ _ _)
          exact Keeps.refl _
        intro k4
        clear_value x3
        extract_lets +onlyGivenNames x5
        refine Keeps.cut (b := x5) ?_ ?_
        · unfold x5
          refine Keeps.ite ?_ ?_
          · refine Keeps.trans ?_ (State.modFn_keeps _ _ _)
            exact k4
          · exact k4
        intro k6
        clear_value x5
        refine Keeps.trans ?_ (State.complete_keeps _ _ _ _ _)
        exact k6

theorem execRingDelete_keeps (d : Desc) (cq : Bool) (id : Nat) (s : State) : KNext 0x4408069 s (execRingDelete d cq id s) := by
  unfold execRingDelete
  refine KNext.mk ?_
  refine Keeps.tr ?_ (runDesc_keeps _ _ _ _ _ (fun v0 => ?_))
  · exact Keeps.refl _
  · extract_lets +onlyGivenNames x1
    extract_lets +onlyGivenNames x2
    refine Keeps.ite ?_ ?_
    · refine Keeps.trans ?_ (State.complete_keeps _ _ _ _ _)
      exact Keeps.refl _
    · refine Keeps.ite ?_ ?_
      · refine Keeps.trans ?_ (State.fail_keeps _ _ _)
        exact Keeps.refl _
      · refine Keeps.ite ?_ ?_
        · refine Keeps.ite ?_ ?_
          · refine Keeps.trans ?_ (State.fail_keeps _ _ _)
            exact Keeps.refl _
          · extract_lets +onlyGivenNames x3
            refine Keeps.cut (b := x3) ?_ ?_
            · unfold x3
              refine Keeps.trans ?_ (State.modFn_keeps _ _ _)
              exact Keeps.refl _
            intro k4
            clear_value x3
            refine Keeps.trans ?_ (State.complete_keeps _ _ _ _ _)
            exact k4
        · refine Keeps.trans ?_ (State.finishDeletes_keeps _ _ _)
          exact Keeps.refl _

theorem execInterruptCoalesceTimeout_keeps (p x cq t : Nat) (s : State) : KNext 0x200051 s (execInterruptCoalesceTimeout p x cq t s) := by
  unfold execInterruptCoalesceTimeout
  extract_lets +onlyGivenNames x0
  refine KNext.cut (b := x0) ?_ ?_
  · unfold x0
    refine Keeps.trans ?_ (State.advanceTo_keeps _ _)
    exact Keeps.refl _
  intro k1
  clear_value x0
  extract_lets +onlyGivenNames x2
  split
  · rename_i z3 z4
    refine KNext.mk ?_
    exact k1
  · rename_i z5 z6 z7
    refine KNext.ite ?_ ?_
    · refine KNext.mk ?_
      refine Keeps.trans ?_ (State.cqInterrupt_keeps _ _ _)
      exact k1
    · refine KNext.mk ?_
      exact k1

theorem State.portChange_keeps (s : State) (p x change : Nat) : Keeps 0x408041 s (State.portChange s p x change) := by
  unfold State.portChange
  refine Keeps.ite ?_ ?_
  · refine Keeps.trans ?_ (State.raiseEvent_keeps _ _ _ _ _)
    exact Keeps.refl _
  · exact Keeps.refl _

theorem State.loseFn_keeps (s : State) (p x cause change : Nat) : Keeps 0x408041 s (State.loseFn s p x cause change) := by
  unfold State.loseFn
  extract_lets +onlyGivenNames x0
  extract_lets +onlyGivenNames x1
  refine Keeps.cut (b := x1) ?_ ?_
  · unfold x1
    refine Keeps.trans ?_ (State.modFn_keeps _ _ _)
    exact Keeps.refl _
  intro k2
  clear_value x1
  extract_lets +onlyGivenNames x3
  refine Keeps.cut (b := x3) ?_ ?_
  · unfold x3
    refine Keeps.trans ?_ (State.fset_keeps _ _ _ _)
    refine Keeps.trans ?_ (State.fset_keeps _ _ _ _)
    refine Keeps.trans ?_ (State.fset_keeps _ _ _ _)
    exact k2
  intro k4
  clear_value x3
  extract_lets +onlyGivenNames x5
  refine Keeps.cut (b := x5) ?_ ?_
  · unfold x5
    refine Keeps.trans ?_ (State.fset_keeps _ _ _ _)
    exact k4
  intro k6
  clear_value x5
  refine Keeps.trans ?_ (State.portChange_keeps _ _ _ _)
  exact k6

theorem State.enableFn_keeps (s : State) (p x : Nat) : Keeps 0x408041 s (State.enableFn s p x) := by
  unfold State.enableFn
  extract_lets +onlyGivenNames x0
  extract_lets +onlyGivenNames x1
  extract_lets +onlyGivenNames x2
  extract_lets +onlyGivenNames x3
  refine Keeps.cut (b := x3) ?_ ?_
  · unfold x3
    refine Keeps.trans ?_ (State.modFn_keeps _ _ _)
    exact Keeps.refl _
  intro k4
  clear_value x3
  extract_lets +onlyGivenNames x5
  refine Keeps.cut (b := x5) ?_ ?_
  · unfold x5
    refine Keeps.trans ?_ (State.fset_keeps _ _ _ _)
    refine Keeps.trans ?_ (State.fset_keeps _ _ _ _)
    exact k4
  intro k6
  clear_value x5
  extract_lets +onlyGivenNames x7
  refine Keeps.cut (b := x7) ?_ ?_
  · unfold x7
    refine Keeps.trans ?_ (State.fset_keeps _ _ _ _)
    refine Keeps.trans ?_ (State.fset_keeps _ _ _ _)
    refine Keeps.trans ?_ (State.fset_keeps _ _ _ _)
    exact k6
  intro k8
  clear_value x7
  extract_lets +onlyGivenNames x9
  refine Keeps.cut (b := x9) ?_ ?_
  · unfold x9
    refine Keeps.trans ?_ (State.fset_keeps _ _ _ _)
    refine Keeps.trans ?_ (State.fset_keeps _ _ _ _)
    refine Keeps.trans ?_ (State.fset_keeps _ _ _ _)
    exact k8
  intro k10
  clear_value x9
  refine Keeps.trans ?_ (State.portChange_keeps _ _ _ _)
  exact k10

theorem execHrgEnWrite_keeps (p x : Nat) (en : Bool) (s : State) : KNext 0x408041 s (execHrgEnWrite p x en s) := by
  unfold execHrgEnWrite
  extract_lets +onlyGivenNames x0
  refine KNext.ite ?_ ?_
  · refine KNext.mk ?_
    exact Keeps.refl _
  · refine KNext.ite ?_ ?_
    · refine KNext.ite ?_ ?_
      · refine KNext.mk ?_
        refine Keeps.trans ?_ (State.enableFn_keeps _ _ _)
        refine Keeps.trans ?_ (State.fset_keeps _ _ _ _)
        exact Keeps.refl _
      · refine KNext.mk ?_
        refine Keeps.trans ?_ (State.evtFn_keeps _ _ _)
        exact Keeps.refl _
    · refine KNext.mk ?_
      refine Keeps.trans ?_ (State.loseFn_keeps _ _ _ _ _)
      exact Keeps.refl _

theorem State.loseLink_keeps (s : State) (x : Nat) : Keeps 0x408041 s (State.loseLink s x) := by
  unfold State.loseLink
  refine Keeps.foldl _ _ (fun s0 y1 => ?_) ?_
  · refine Keeps.ite ?_ ?_
    · refine Keeps.trans ?_ (State.loseFn_keeps _ _ _ _ _)
      exact Keeps.refl _
    · exact Keeps.refl _
  · exact Keeps.refl _

theorem State.loseOne_keeps (s : State) (p x cause change : Nat) : Keeps 0x408041 s (State.loseOne s p x cause change) := by
  unfold State.loseOne
  refine Keeps.ite ?_ ?_
  · refine Keeps.trans ?_ (State.loseFn_keeps _ _ _ _ _)
    exact Keeps.refl _
  · exact Keeps.refl _

theorem State.portDown_keeps (s : State) (port : Nat) : Keeps 0x408061 s (State.portDown s port) := by
  unfold State.portDown
  refine Keeps.ite ?_ ?_
  · extract_lets +onlyGivenNames x0
    refine Keeps.cut (b := x0) ?_ ?_
    · unfold x0
      refine Keeps.trans ?_ (State.fset_keeps _ _ _ _)
      refine Keeps.trans ?_ (State.fset_keeps _ _ _ _)
      refine Keeps.trans ?_ (State.fset_keeps _ _ _ _)
      exact Keeps.refl _
    intro k1
    clear_value x0
    refine Keeps.trans ?_ (State.loseLink_keeps _ _)
    refine Keeps.trans ?_ (State.evtPkg_keeps _ _)
    exact k1
  · extract_lets +onlyGivenNames x2
    refine Keeps.cut (b := x2) ?_ ?_
    · unfold x2
      refine Keeps.trans ?_ (State.fset_keeps _ _ _ _)
      refine Keeps.trans ?_ (State.fset_keeps _ _ _ _)
      refine Keeps.trans ?_ (State.fset_keeps _ _ _ _)
      exact Keeps.refl _
    intro k3
    clear_value x2
    refine Keeps.trans ?_ (State.loseLink_keeps _ _)
    refine Keeps.trans ?_ (State.evtPkg_keeps _ _)
    exact k3

theorem State.portRegsReset_keeps (s : State) (port : Nat) : Keeps 0x400000 s (State.portRegsReset s port) := by
  unfold State.portRegsReset
  refine Keeps.ite ?_ ?_
  · refine Keeps.trans ?_ (State.fset_keeps _ _ _ _)
    refine Keeps.trans ?_ (State.fset_keeps _ _ _ _)
    refine Keeps.trans ?_ (State.fset_keeps _ _ _ _)
    refine Keeps.trans ?_ (State.fset_keeps _ _ _ _)
    refine Keeps.trans ?_ (State.fset_keeps _ _ _ _)
    exact Keeps.refl _
  · refine Keeps.trans ?_ (State.fset_keeps _ _ _ _)
    refine Keeps.trans ?_ (State.fset_keeps _ _ _ _)
    refine Keeps.trans ?_ (State.fset_keeps _ _ _ _)
    refine Keeps.trans ?_ (State.fset_keeps _ _ _ _)
    refine Keeps.trans ?_ (State.fset_keeps _ _ _ _)
    exact Keeps.refl _

theorem State.flrRegs_keeps (s : State) (f : Nat) : Keeps 0x400000 s (State.flrRegs s f) := by
  unfold State.flrRegs
  extract_lets +onlyGivenNames x0
  refine Keeps.cut (b := x0) ?_ ?_
  · unfold x0
    refine Keeps.trans ?_ (State.fset_keeps _ _ _ _)
    refine Keeps.trans ?_ (State.fset_keeps _ _ _ _)
    refine Keeps.trans ?_ (State.fset_keeps _ _ _ _)
    exact Keeps.refl _
  intro k1
  clear_value x0
  extract_lets +onlyGivenNames x2
  refine Keeps.cut (b := x2) ?_ ?_
  · unfold x2
    refine Keeps.trans ?_ (State.fset_keeps _ _ _ _)
    refine Keeps.trans ?_ (State.fset_keeps _ _ _ _)
    refine Keeps.trans ?_ (State.fset_keeps _ _ _ _)
    exact k1
  intro k3
  clear_value x2
  refine Keeps.trans ?_ (State.fset_keeps _ _ _ _)
  refine Keeps.trans ?_ (State.fset_keeps _ _ _ _)
  exact k3

theorem execHostFunctionLoss_keeps (loss : HostLoss) (s : State) : KNext 0x408061 s (execHostFunctionLoss loss s) := by
  unfold execHostFunctionLoss
  split
  · rename_i z0 z1
    refine KNext.mk ?_
    refine Keeps.trans ?_ (State.portDown_keeps _ _)
    exact Keeps.refl _
  · rename_i z2 z3
    refine KNext.mk ?_
    refine Keeps.trans ?_ (State.portRegsReset_keeps _ _)
    refine Keeps.trans ?_ (State.portDown_keeps _ _)
    exact Keeps.refl _
  · rename_i z4 z5 z6
    refine KNext.mk ?_
    refine Keeps.trans ?_ (State.flrRegs_keeps _ _)
    refine Keeps.trans ?_ (State.loseOne_keeps _ _ _ _ _)
    exact Keeps.refl _
  · rename_i z7 z8
    refine KNext.mk ?_
    exact Keeps.refl _
  · rename_i z9 z10 z11
    refine KNext.mk ?_
    refine Keeps.trans ?_ (State.loseOne_keeps _ _ _ _ _)
    exact Keeps.refl _

theorem execHostLinkUp_keeps (port rate width : Nat) (flit : Bool) (vfs : Nat) (s : State) : KNext 0x408061 s (execHostLinkUp port rate width flit vfs s) := by
  unfold execHostLinkUp
  extract_lets +onlyGivenNames x0
  refine KNext.ite ?_ ?_
  · refine KNext.mk ?_
    exact Keeps.refl _
  · refine KNext.ite ?_ ?_
    · extract_lets +onlyGivenNames x1
      refine KNext.cut (b := x1) ?_ ?_
      · unfold x1
        refine Keeps.trans ?_ (State.fset_keeps _ _ _ _)
        refine Keeps.trans ?_ (State.fset_keeps _ _ _ _)
        refine Keeps.trans ?_ (State.fset_keeps _ _ _ _)
        exact Keeps.refl _
      intro k2
      clear_value x1
      extract_lets +onlyGivenNames x3
      refine KNext.cut (b := x3) ?_ ?_
      · unfold x3
        refine Keeps.trans ?_ (State.fset_keeps _ _ _ _)
        refine Keeps.trans ?_ (State.fput_keeps _ _ _ _)
        exact k2
      intro k4
      clear_value x3
      refine KNext.mk ?_
      unfold x0
      refine Keeps.foldl _ _ (fun s5 y6 => ?_) ?_
      · refine Keeps.ite ?_ ?_
        · refine Keeps.trans ?_ (State.portChange_keeps _ _ _ _)
          exact Keeps.refl _
        · exact Keeps.refl _
      · refine Keeps.trans ?_ (State.evtPkg_keeps _ _)
        exact k4
    · extract_lets +onlyGivenNames x7
      refine KNext.cut (b := x7) ?_ ?_
      · unfold x7
        refine Keeps.trans ?_ (State.fset_keeps _ _ _ _)
        refine Keeps.trans ?_ (State.fset_keeps _ _ _ _)
        refine Keeps.trans ?_ (State.fset_keeps _ _ _ _)
        exact Keeps.refl _
      intro k8
      clear_value x7
      extract_lets +onlyGivenNames x9
      refine KNext.cut (b := x9) ?_ ?_
      · unfold x9
        refine Keeps.trans ?_ (State.fset_keeps _ _ _ _)
        refine Keeps.trans ?_ (State.fput_keeps _ _ _ _)
        exact k8
      intro k10
      clear_value x9
      refine KNext.mk ?_
      unfold x0
      refine Keeps.foldl _ _ (fun s11 y12 => ?_) ?_
      · refine Keeps.ite ?_ ?_
        · refine Keeps.trans ?_ (State.portChange_keeps _ _ _ _)
          exact Keeps.refl _
        · exact Keeps.refl _
      · refine Keeps.trans ?_ (State.evtPkg_keeps _ _)
        exact k10

theorem execAerErrorLogged_keeps (port : Nat) (s : State) : KNext 0x400021 s (execAerErrorLogged port s) := by
  unfold execAerErrorLogged
  refine KNext.mk ?_
  refine Keeps.trans ?_ (State.evtPkg_keeps _ _)
  exact Keeps.refl _

theorem execPtnBindWrite_keeps (p v : Nat) (s : State) : KNext 0x10000009 s (execPtnBindWrite p v s) := by
  unfold execPtnBindWrite
  extract_lets +onlyGivenNames x0
  extract_lets +onlyGivenNames x1
  extract_lets +onlyGivenNames x2
  extract_lets +onlyGivenNames x3
  refine KNext.ite ?_ ?_
  · refine KNext.mk ?_
    refine Keeps.trans ?_ (State.evtPtn_keeps _ _ _)
    exact Keeps.refl _
  · refine KNext.mk ?_
    refine Keeps.trans ?_ (State.fset_keeps _ _ _ _)
    refine Keeps.trans ?_ (State.fput_keeps _ _ _ _)
    refine Keeps.trans ?_ (State.fset_keeps _ _ _ _)
    refine Keeps.trans ?_ (State.fput_keeps _ _ _ _)
    exact Keeps.refl _

end Sys2Proof.Machine
end

