-- ==== Sys2Proof/Laws/KeepsRebuild.lean ====
section
/-!
SUPPORT. Sys2Proof/Laws/KeepsRebuild.lean: each operation of Machine/Rebuild.lean keeps what `Keeps` says, with the parts of the state it may
touch.
-/
namespace Sys2Proof.Machine
set_option Elab.async false

theorem State.keepId_keeps (s : State) (used : List Nat) (id n : Nat) : KSnd 0x2 s (State.keepId s used id n) := by
  unfold State.keepId
  refine KSnd.ite ?_ ?_
  · refine KSnd.trans ?_ (State.pickId_keeps _ _ _)
    exact Keeps.refl _
  · refine KSnd.mk ?_
    exact Keeps.refl _

theorem State.restorePage_keeps (s : State) (home src origin : Nat) (id : Nat) : KOpt 0x102 (fun r => r.2) s (State.restorePage s home src origin id) := by
  unfold State.restorePage
  split
  · rename_i z0 z1 z2
    split
    · rename_i z3 z4 z5
      split
      · rename_i z6 z7 z8 z9
        refine KOpt.cut (b := z8) ?_ ?_
        · refine KSnd.eq z9 ?_
          refine KSnd.trans ?_ (State.keepId_keeps _ _ _ _)
          exact Keeps.refl _
        intro k10
        extract_lets +onlyGivenNames x11
        extract_lets +onlyGivenNames x12
        refine KOpt.mk ?_
        refine KSnd.get ?_
        refine KSnd.mk ?_
        refine Keeps.trans ?_ (State.modPfx_keeps _ _ _)
        exact k10
    · rename_i z13 z14
      trivial
  · rename_i z15 z16
    trivial

theorem State.restorePages_keeps (s : State) (home src origin : Nat) (w0 : List Nat) : KOpt 0x102 (fun r => r.2) s (State.restorePages s home src origin w0) := by
  induction w0 generalizing s home src origin with
  | nil =>
    unfold State.restorePages
    refine KOpt.mk ?_
    exact Keeps.refl _
  | cons hd0 tl0 ih =>
    unfold State.restorePages
    split
    · rename_i z0 z1
      trivial
    · rename_i z2 z3 z4 z5
      refine KOpt.cut (b := z4) ?_ ?_
      · refine KOpt.eq (g := fun (r : Nat × Sys2Proof.Machine.State) => r.2) (r := (z3, z4)) z5 ?_
        refine KOpt.trans ?_ (State.restorePage_keeps _ _ _ _ _)
        exact Keeps.refl _
      intro k6
      split
      · rename_i z7 z8
        trivial
      · rename_i z9 z10 z11 z12
        refine KOpt.cut (b := z11) ?_ ?_
        · refine KOpt.eq (g := fun (r : List Nat × Sys2Proof.Machine.State) => r.2) (r := (z10, z11)) z12 ?_
          refine KOpt.tr ?_ (ih _ _ _ _)
          exact k6
        intro k13
        refine KOpt.mk ?_
        exact k13

theorem Restore.chunk_keeps (x : Restore) (home src id : Nat) (c : Chunk) : Keeps 0xC000038A x.s (Restore.chunk x home src id c).s := by
  unfold Restore.chunk
  extract_lets s valid
  split
  · exact (State.addHold_keeps _ _ _).mono
  · split
    · exact Keeps.refl _
    · split
      rename_i n t e
      have h1 : Keeps 0xC000038A s t := Keeps.mono (KSnd.eq e (State.keepId_keeps _ _ _ _))
      have h2 := State.restorePages_keeps t home src n c.pages
      split
      · exact Keeps.refl _
      · rename_i pages u e2
        extract_lets d v w
        have hu : Keeps 0xC000038A s u := h1.trans (KOpt.eq e2 h2)
        have hv : Keeps 0xC000038A s v := by
          unfold v
          exact (hu.trans (State.modPfx_keeps _ _ _)).trans (State.addHold_keeps _ _ _)
        exact Keeps.ite (hv.trans (State.treeInsert_keeps _ _ _ _)) hv

theorem State.restoreOne_keeps (s : State) (home src q id : Nat) :
    KOpt 0x102 (fun (r : Nat × State) => r.2) s (if id = 0 then some (0, s)
      else (s.restorePage home src q id).map (fun x => (x.1, x.2.addRef home x.1))) := by
  refine KOpt.ite (Keeps.refl s) ?_
  have h := State.restorePage_keeps s home src q id
  cases hx : s.restorePage home src q id with
  | none => trivial
  | some r =>
    rw [hx] at h
    exact Keeps.trans (Keeps.mono (n := 0x102) h) (State.addRef_keeps _ _ _)

theorem State.restoreLayers_keeps (s : State) (home src q : Nat) (l : List LayerEnt) :
    KOpt 0x102 (fun r => r.2) s (State.restoreLayers s home src q l) := by
  induction l generalizing s with
  | nil => exact Keeps.refl s
  | cons l r ih =>
    unfold State.restoreLayers
    extract_lets one
    split
    · trivial
    · rename_i f s1 e1
      have h1 : Keeps 0x102 s s1 := KOpt.eq e1 (State.restoreOne_keeps s home src q l.full)
      split
      · trivial
      · rename_i o s2 e2
        have h2 : Keeps 0x102 s s2 := h1.trans (KOpt.eq e2 (State.restoreOne_keeps s1 home src q l.open_))
        extract_lets s3
        have h3 : Keeps 0x102 s s3 := Keeps.ite h2 (h2.trans (State.modPfx_keeps _ _ _))
        clear_value s3
        have h4 := ih s3
        split
        · trivial
        · rename_i t s4 e4
          have h5 : Keeps 0x102 s3 s4 := KOpt.eq e4 h4
          exact h3.trans h5

theorem Restore.seq_keeps (x : Restore) (home src : Nat) (e : SeqSlot) : KOpt 0x102 (fun r => r) x.s (Restore.seq x home src e) := by
  unfold Restore.seq
  extract_lets s chunks
  split
  · trivial
  · rename_i k _
    refine KOpt.ite trivial ?_
    have h1 := State.restoreLayers_keeps s home src e.seq e.tail.layers
    split
    · trivial
    · rename_i layers s1 e1
      have h1 : Keeps 0x102 s s1 := Keeps.mono (KOpt.eq e1 h1)
      extract_lets n m
      split
      rename_i b s2 e2
      have h2 : Keeps 0x102 s s2 := KSnd.eq e2 (KSnd.ite (KSnd.trans h1 (State.takeSegs_keeps _ _ _)) h1)
      split
      rename_i t s3 e3
      have h3 : Keeps 0x102 s s3 := KSnd.eq e3 (KSnd.ite (KSnd.trans h2 (State.takeSegs_keeps _ _ _)) h2)
      exact (h3.tr (Keeps.foldl _ _ (fun _ _ => (State.addHold_keeps _ _ _).mono) (Keeps.refl _))).trans (State.setSlot_keeps _ _ _ _)

theorem Restore.foldl_keeps {m : Nat} {α : Type} {a : State} (f : Restore → α → Restore) (l : List α) (h : ∀ x y, Keeps m x.s (f x y).s)
    (x : Restore) (k : Keeps m a x.s) : Keeps m a (l.foldl f x).s := by
  induction l generalizing x with
  | nil => exact k
  | cons y l ih => exact ih _ (k.tr (h x y))

theorem State.restoreSeqs_keeps (s : State) (home src : Nat) (allChunks : Bool) (sel : SeqSlot → Bool) :
    KSnd2 0xC000038A s (State.restoreSeqs s home src allChunks sel) := by
  unfold State.restoreSeqs
  extract_lets seqs want chunks depth x r
  have hx : Keeps 0xC000038A s x.s :=
    Restore.foldl_keeps _ _ (fun y _ => Restore.foldl_keeps _ _ (fun z _ => (Restore.chunk_keeps z _ _ _ _).mono) _ (Keeps.refl _)) _
      (Keeps.refl _)
  clear_value x
  have hr : ∀ (l : List SeqSlot) (acc : List SeqSlot × List SeqSlot × Restore), Keeps 0xC000038A s acc.2.2.s →
      Keeps 0xC000038A s (l.foldl (fun (acc : List SeqSlot × List SeqSlot × Restore) e =>
        match acc.2.2.seq home src e with
        | some s => (acc.1 ++ [e], acc.2.1, ⟨x.map, x.held, s⟩)
        | none => (acc.1, acc.2.1 ++ [e], acc.2.2)) acc).2.2.s := by
    intro l
    induction l with
    | nil => exact fun _ h => h
    | cons e l ih =>
      intro acc h
      refine ih _ ?_
      have k := Restore.seq_keeps acc.2.2 home src e
      beta_reduce
      split
      · rename_i t et
        have h2 := KOpt.eq et k
        exact h.trans h2
      · exact h
  exact Keeps.foldl _ _ (fun _ _ => (State.dropHold_keeps _ _ _).mono) (hr _ _ hx)

theorem State.restoreAll_keeps (s : State) (d : Nat) : Keeps 0xC000078A s (State.restoreAll s d) := by
  unfold State.restoreAll
  extract_lets +onlyGivenNames x0
  extract_lets +onlyGivenNames x1
  refine Keeps.cut (b := x1) ?_ ?_
  · unfold x1
    refine Keeps.ite ?_ ?_
    · exact Keeps.refl _
    · refine KSnd2.get ?_
      refine KSnd2.trans ?_ (State.restoreSeqs_keeps _ _ _ _ _)
      exact Keeps.refl _
  intro k2
  clear_value x1
  extract_lets +onlyGivenNames x3
  refine Keeps.trans ?_ (State.modFtl_keeps _ _ _)
  exact k2

end Sys2Proof.Machine
end

