-- ==== Sys2Proof/Laws/KeepsMaps.lean ====
section
/-!
SUPPORT. Sys2Proof/Laws/KeepsMaps.lean: each operation of Machine/Maps.lean keeps what `Keeps` says, with the parts of the state it may
touch.
-/
namespace Sys2Proof.Machine
set_option Elab.async false

theorem mapEdit_keeps (d : Desc) (op body0 : Nat) (edit : Edit) (s : State) : Keeps 0x7E440AFEB s (mapEdit d op body0 edit s) := by
  unfold mapEdit
  refine Keeps.tr ?_ (runSeqEdit_keeps _ _ _ _ _ _ (fun v0 => ?_))
  · exact Keeps.refl _
  · split
    · rename_i z1 z2
      refine Keeps.trans ?_ (State.fail_keeps _ _ _)
      exact Keeps.refl _
    · rename_i z3 z4 z5
      refine Keeps.ite ?_ ?_
      · refine Keeps.trans ?_ (State.fail_keeps _ _ _)
        exact Keeps.refl _
      · refine Keeps.ite ?_ ?_
        · refine Keeps.trans ?_ (State.fail_keeps _ _ _)
          exact Keeps.refl _
        · refine Keeps.trans ?_ (State.runEdit_keeps _ _ _ _)
          exact Keeps.refl _

theorem execMapCreate_keeps (d : Desc) (seq ctx : Nat) (lookup parked : Bool) (toks : List Nat) (s : State) : KNext 0x6A440AFEB s (execMapCreate d seq ctx lookup parked toks s) := by
  unfold execMapCreate
  refine KNext.mk ?_
  refine Keeps.tr ?_ (runSeqEdit_keeps _ _ _ _ _ _ (fun v0 => ?_))
  · exact Keeps.refl _
  · split
    · rename_i z1 z2
      refine Keeps.trans ?_ (State.fail_keeps _ _ _)
      exact Keeps.refl _
    · rename_i z3 z4 z5
      extract_lets +onlyGivenNames x6
      refine Keeps.ite ?_ ?_
      · refine Keeps.trans ?_ (State.fail_keeps _ _ _)
        exact Keeps.refl _
      · refine Keeps.ite ?_ ?_
        · refine Keeps.trans ?_ (State.fail_keeps _ _ _)
          exact Keeps.refl _
        · refine Keeps.ite ?_ ?_
          · refine Keeps.trans ?_ (State.fail_keeps _ _ _)
            exact Keeps.refl _
          · refine Keeps.ite ?_ ?_
            · refine Keeps.trans ?_ (State.fail_keeps _ _ _)
              exact Keeps.refl _
            · split
              · rename_i z7 z8 z9
                refine State.stopEdit_keeps _ _ _ _ _ _ ?_ ?_
                · exact Keeps.refl _
                · refine KEdit.stop (g := fun (r : EditOk) => r.s) z9 ?_
                  refine KEdit.trans ?_ (State.create_keeps _ _ _ _ _ _ _)
                  exact Keeps.refl _
              · rename_i z10 z11 z12
                refine Keeps.cut (b := z11.s) ?_ ?_
                · refine KEdit.eq (g := fun (r : Sys2Proof.Machine.EditOk) => r.s) (r := z11) z12 ?_
                  refine KEdit.trans ?_ (State.create_keeps _ _ _ _ _ _ _)
                  exact Keeps.refl _
                intro k13
                split
                · rename_i z14 z15 z16
                  refine Keeps.trans ?_ (State.fail_keeps _ _ _)
                  exact Keeps.refl _
                · rename_i z17 z18
                  refine Keeps.trans ?_ (State.finishEdit_keeps _ _ _ _ _)
                  exact k13

theorem execMapAppend_keeps (d : Desc) (seq layer pos : Nat) (toks : List Nat) (data : List (List Nat)) (s : State) : KNext 0x7E440AFEB s (execMapAppend d seq layer pos toks data s) := by
  unfold execMapAppend
  refine KNext.mk ?_
  refine Keeps.trans ?_ (mapEdit_keeps _ _ _ _ _)
  exact Keeps.refl _

theorem execMapWrite_keeps (d : Desc) (seq layer pos : Nat) (data : List (List Nat)) (s : State) : KNext 0x7E440AFEB s (execMapWrite d seq layer pos data s) := by
  unfold execMapWrite
  refine KNext.mk ?_
  refine Keeps.trans ?_ (mapEdit_keeps _ _ _ _ _)
  exact Keeps.refl _

theorem execMapTruncate_keeps (d : Desc) (seq len : Nat) (s : State) : KNext 0x7E440AFEB s (execMapTruncate d seq len s) := by
  unfold execMapTruncate
  refine KNext.mk ?_
  refine Keeps.trans ?_ (mapEdit_keeps _ _ _ _ _)
  exact Keeps.refl _

theorem execMapFork_keeps (d : Desc) (seq src len : Nat) (parked : Bool) (s : State) : KNext 0x7E440AFEB s (execMapFork d seq src len parked s) := by
  unfold execMapFork
  refine KNext.mk ?_
  refine Keeps.tr ?_ (runSeqEdit_keeps _ _ _ _ _ _ (fun v0 => ?_))
  · exact Keeps.refl _
  · split
    · rename_i z1 z2
      refine Keeps.trans ?_ (State.fail_keeps _ _ _)
      exact Keeps.refl _
    · rename_i z3 z4 z5
      refine Keeps.ite ?_ ?_
      · refine Keeps.trans ?_ (State.fail_keeps _ _ _)
        exact Keeps.refl _
      · refine Keeps.ite ?_ ?_
        · refine Keeps.trans ?_ (State.fail_keeps _ _ _)
          exact Keeps.refl _
        · refine Keeps.ite ?_ ?_
          · refine Keeps.trans ?_ (State.fail_keeps _ _ _)
            exact Keeps.refl _
          · refine Keeps.trans ?_ (State.runEdit_keeps _ _ _ _)
            exact Keeps.refl _

theorem execMapFree_keeps (d : Desc) (seq : Nat) (s : State) : KNext 0x7E440AFEB s (execMapFree d seq s) := by
  unfold execMapFree
  refine KNext.mk ?_
  refine Keeps.trans ?_ (mapEdit_keeps _ _ _ _ _)
  exact Keeps.refl _

theorem execTreeEvict_keeps (d : Desc) (ctx : Nat) (cascade : Bool) (chain : Nat) (s : State) : KNext 0xC44083E9 s (execTreeEvict d ctx cascade chain s) := by
  unfold execTreeEvict
  refine KNext.mk ?_
  refine Keeps.tr ?_ (runDesc_keeps _ _ _ _ _ (fun v0 => ?_))
  · exact Keeps.refl _
  · split
    · rename_i z1 z2
      refine Keeps.trans ?_ (State.fail_keeps _ _ _)
      exact Keeps.refl _
    · rename_i z3 z4 z5
      refine Keeps.ite ?_ ?_
      · refine Keeps.trans ?_ (State.fail_keeps _ _ _)
        exact Keeps.refl _
      · refine Keeps.ite ?_ ?_
        · refine Keeps.trans ?_ (State.fail_keeps _ _ _)
          exact Keeps.refl _
        · split
          · rename_i z6 z7
            refine Keeps.trans ?_ (State.fail_keeps _ _ _)
            exact Keeps.refl _
          · rename_i z8 z9 z10 z11
            extract_lets +onlyGivenNames x12
            refine Keeps.ite ?_ ?_
            · refine Keeps.trans ?_ (State.fail_keeps _ _ _)
              exact Keeps.refl _
            · split
              · rename_i z13 z14 z15 z16
                refine Keeps.cut (b := z15) ?_ ?_
                · refine KSnd.eq z16 ?_
                  refine KSnd.trans ?_ (State.evictCascade_keeps _ _ _)
                  exact Keeps.refl _
                intro k17
                refine Keeps.trans ?_ (State.complete_keeps _ _ _ _ _)
                exact k17

theorem execSealComplete_keeps (die page : Nat) (ok : Bool) (s : State) : KNext 0x42000100 s (execSealComplete die page ok s) := by
  unfold execSealComplete
  split
  · rename_i z0 z1
    refine KNext.mk ?_
    exact Keeps.refl _
  · rename_i z2 z3 z4
    refine KNext.ite ?_ ?_
    · refine KNext.mk ?_
      exact Keeps.refl _
    · refine KNext.ite ?_ ?_
      · refine KNext.mk ?_
        refine Keeps.trans ?_ (State.fadd_keeps _ _ _ _)
        exact Keeps.refl _
      · extract_lets +onlyGivenNames x5
        unfold x5
        split
        · rename_i z6 z7
          refine KNext.mk ?_
          exact Keeps.refl _
        · rename_i z8 z9 z10 z11
          extract_lets +onlyGivenNames x12
          extract_lets +onlyGivenNames x13
          extract_lets +onlyGivenNames x14
          extract_lets +onlyGivenNames x15
          refine KNext.cut (b := x15) ?_ ?_
          · unfold x15
            refine Keeps.trans ?_ (State.modPage_keeps _ _ _ _)
            refine Keeps.trans ?_ (State.closeHolder_keeps _ _ _)
            exact Keeps.refl _
          intro k16
          clear_value x15
          extract_lets +onlyGivenNames x17
          refine KNext.cut (b := x17) ?_ ?_
          · unfold x17
            refine Keeps.trans ?_ (State.countSeal_keeps _ _ _ _ _)
            exact k16
          intro k18
          clear_value x17
          refine KNext.mk ?_
          refine Keeps.trans ?_ (State.modPfx_keeps _ _ _)
          exact k18

theorem State.tryChunk_keeps (s : State) (die seq : Nat) : Keeps 0x6E440AFEB s (State.tryChunk s die seq) := by
  unfold State.tryChunk
  split
  · rename_i z0 z1
    exact Keeps.refl _
  · rename_i z2 z3 z4 z5
    refine Keeps.ite ?_ ?_
    · exact Keeps.refl _
    · extract_lets +onlyGivenNames x6
      refine Keeps.ite ?_ ?_
      · unfold x6
        refine Keeps.trans ?_ (State.modPfx_keeps _ _ _)
        exact Keeps.refl _
      · split
        · rename_i z7 z8 z9
          refine Keeps.cut (b := z8.s) ?_ ?_
          · refine KEdit.eq (g := fun (r : Sys2Proof.Machine.EditOk) => r.s) (r := z8) z9 ?_
            refine KEdit.trans ?_ (State.completeChunk_keeps _ _ _)
            exact Keeps.refl _
          intro k10
          split
          · rename_i z11 z12 z13
            unfold x6
            refine Keeps.trans ?_ (State.modPfx_keeps _ _ _)
            exact Keeps.refl _
          · rename_i z14 z15
            refine Keeps.trans ?_ (State.finishEdit_keeps _ _ _ _ _)
            exact k10
        · rename_i z16 z17 z18 z19
          refine Keeps.cut (b := z18) ?_ ?_
          · refine KEdit.err (g := fun (r : EditOk) => r.s) z19 ?_
            refine KEdit.trans ?_ (State.completeChunk_keeps _ _ _)
            exact Keeps.refl _
          intro k20
          unfold x6
          refine Keeps.trans ?_ (State.modPfx_keeps _ _ _)
          exact k20
        · rename_i z21 z22 z23
          exact Keeps.refl _

theorem execChunkCompletion_keeps (die seq : Nat) (s : State) : KNext 0x6E440AFEB s (execChunkCompletion die seq s) := by
  unfold execChunkCompletion
  refine KNext.mk ?_
  refine Keeps.trans ?_ (State.tryChunk_keeps _ _ _)
  exact Keeps.refl _

theorem execAutoEvict_keeps (die : Nat) (s : State) : KNext 0xC0000380 s (execAutoEvict die s) := by
  unfold execAutoEvict
  refine KNext.mk ?_
  refine Keeps.trans ?_ (State.autoEvict_keeps _ _ _)
  exact Keeps.refl _

theorem State.setBase_keeps (s : State) (lo hi : Fld) (d : Nat) : Keeps (lo.bit ||| (hi.bit ||| 0x2)) s (State.setBase s lo hi d) := by
  unfold State.setBase
  split
  · rename_i z0 z1 z2 z3
    refine Keeps.cut (b := z2) ?_ ?_
    · refine KSnd.eq z3 ?_
      refine KSnd.trans ?_ (State.draw_keeps _)
      exact Keeps.refl _
    intro k4
    extract_lets +onlyGivenNames x5
    refine Keeps.trans ?_ (State.fset_keeps _ _ _ _)
    refine Keeps.trans ?_ (State.fset_keeps _ _ _ _)
    exact k4

theorem State.placePfx_keeps (s : State) (d : Nat) : Keeps 0x80000102 s (State.placePfx s d) := by
  unfold State.placePfx
  extract_lets +onlyGivenNames x0
  extract_lets +onlyGivenNames x1
  refine Keeps.ite ?_ ?_
  · refine Keeps.trans ?_ (State.fset_keeps _ _ _ _)
    exact Keeps.refl _
  · extract_lets +onlyGivenNames x2
    refine Keeps.cut (b := x2) ?_ ?_
    · unfold x2
      refine Keeps.trans ?_ (State.modPfx_keeps _ _ _)
      exact Keeps.refl _
    intro k3
    clear_value x2
    extract_lets +onlyGivenNames x4
    refine Keeps.cut (b := x4) ?_ ?_
    · unfold x4
      refine Keeps.trans ?_ (State.setBase_keeps _ _ _ _)
      refine Keeps.trans ?_ (State.setBase_keeps _ _ _ _)
      exact k3
    intro k5
    clear_value x4
    extract_lets +onlyGivenNames x6
    refine Keeps.cut (b := x6) ?_ ?_
    · unfold x6
      refine Keeps.trans ?_ (State.setBase_keeps _ _ _ _)
      refine Keeps.trans ?_ (State.setBase_keeps _ _ _ _)
      exact k5
    intro k7
    clear_value x6
    refine Keeps.trans ?_ (State.fset_keeps _ _ _ _)
    refine Keeps.trans ?_ (State.fset_keeps _ _ _ _)
    exact k7

theorem execPfxEnable_keeps (die : Nat) (via : Via) (s : State) : KNext 0xC04007CA s (execPfxEnable die via s) := by
  unfold execPfxEnable
  refine KNext.mk ?_
  refine Keeps.tr ?_ (regWrite_keeps _ _ _ _ (fun v0 => ?_))
  · exact Keeps.refl _
  · refine Keeps.ite ?_ ?_
    · exact Keeps.refl _
    · refine Keeps.ite ?_ ?_
      · exact Keeps.refl _
      · extract_lets +onlyGivenNames x1
        refine Keeps.cut (b := x1) ?_ ?_
        · unfold x1
          refine Keeps.trans ?_ (State.fset_keeps _ _ _ _)
          exact Keeps.refl _
        intro k2
        clear_value x1
        refine Keeps.ite ?_ ?_
        · exact k2
        · extract_lets +onlyGivenNames x3
          refine Keeps.cut (b := x3) ?_ ?_
          · unfold x3
            refine Keeps.trans ?_ (State.placePfx_keeps _ _)
            exact k2
          intro k4
          clear_value x3
          refine Keeps.ite ?_ ?_
          · refine Keeps.trans ?_ (State.restoreAll_keeps _ _)
            exact k4
          · exact k4

end Sys2Proof.Machine
end

