-- ==== Sys2Proof/Laws/KeepsReset.lean ====
section
/-!
SUPPORT. Sys2Proof/Laws/KeepsReset.lean: each operation of Machine/Reset.lean keeps what `Keeps` says, with the parts of the state it may
touch.
-/
namespace Sys2Proof.Machine
set_option Elab.async false

theorem State.clearRegs_keeps (s : State) (sel : Nat → Nat → Bool) : Keeps 0x7FFFF0000C s (State.clearRegs s sel) := by
  unfold State.clearRegs
  refine Keeps.tr (b := s) ?_ (Keeps.direct rfl rfl (Nat.le_refl _) rfl ?_)
  · exact Keeps.refl _
  · intro w
    rw [State.wf_iff] at w ⊢
    obtain ⟨a1, a2, a3, a4, a5, a6, a7, a8, a9, a10, a11, a12, a13, a14⟩ := w
    exact ⟨trising_tfilter _ _ a1, trising_tfilter _ _ a2, trising_tfilter _ _ a3, a4, a5, a6, a7, a8, a9, a10, a11, a12, a13, a14⟩

theorem State.clearWindow_keeps (s : State) (d : Nat) : Keeps 0x7FFFF0000C s (State.clearWindow s d) := by
  unfold State.clearWindow
  refine Keeps.trans ?_ (State.clearRegs_keeps _ _)
  exact Keeps.refl _

theorem State.clearCounts_keeps (s : State) (d : Nat) : Keeps 0x7FFFF0000C s (State.clearCounts s d) := by
  unfold State.clearCounts
  refine Keeps.trans ?_ (State.clearRegs_keeps _ _)
  exact Keeps.refl _

theorem State.enable_keeps (s : State) (d k : Nat) (up : Bool) : Keeps 0x20001 s (State.enable s d k up) := by
  unfold State.enable
  extract_lets +onlyGivenNames x0
  refine Keeps.ite ?_ ?_
  · exact Keeps.refl _
  · refine Keeps.trans ?_ (State.emit_keeps _ _)
    refine Keeps.trans ?_ (State.modPwr_keeps _ _)
    exact Keeps.refl _

theorem State.railsOff_keeps (s : State) (d st : Nat) : Keeps 0x20001 s (State.railsOff s d st) := by
  unfold State.railsOff
  extract_lets +onlyGivenNames x0
  refine Keeps.cut (b := x0) ?_ ?_
  · unfold x0
    refine Keeps.ite ?_ ?_
    · refine Keeps.trans ?_ (State.enable_keeps _ _ _ _)
      refine Keeps.trans ?_ (State.enable_keeps _ _ _ _)
      exact Keeps.refl _
    · exact Keeps.refl _
  intro k1
  clear_value x0
  refine Keeps.ite ?_ ?_
  · refine Keeps.trans ?_ (State.enable_keeps _ _ _ _)
    exact k1
  · exact k1

theorem State.railsOn_keeps (s : State) (d : Nat) : Keeps 0x20001 s (State.railsOn s d) := by
  unfold State.railsOn
  refine Keeps.trans ?_ (State.enable_keeps _ _ _ _)
  refine Keeps.trans ?_ (State.enable_keeps _ _ _ _)
  refine Keeps.trans ?_ (State.enable_keeps _ _ _ _)
  exact Keeps.refl _

theorem State.avsTo_keeps (s : State) (d rail old new : Nat) : Keeps 0x1 s (State.avsTo s d rail old new) := by
  unfold State.avsTo
  refine Keeps.ite ?_ ?_
  · exact Keeps.refl _
  · refine Keeps.trans ?_ (State.emit_keeps _ _)
    exact Keeps.refl _

theorem State.railsBack_keeps (s : State) (d now : Nat) : Keeps 0x20001 s (State.railsBack s d now) := by
  unfold State.railsBack
  extract_lets +onlyGivenNames x0
  refine Keeps.cut (b := x0) ?_ ?_
  · unfold x0
    refine Keeps.trans ?_ (State.enable_keeps _ _ _ _)
    exact Keeps.refl _
  intro k1
  clear_value x0
  refine Keeps.ite ?_ ?_
  · exact k1
  · extract_lets +onlyGivenNames x2
    refine Keeps.cut (b := x2) ?_ ?_
    · unfold x2
      refine Keeps.trans ?_ (State.enable_keeps _ _ _ _)
      refine Keeps.trans ?_ (State.enable_keeps _ _ _ _)
      exact k1
    intro k3
    clear_value x2
    refine Keeps.ite ?_ ?_
    · refine Keeps.trans ?_ (State.avsTo_keeps _ _ _ _ _)
      refine Keeps.trans ?_ (State.avsTo_keeps _ _ _ _ _)
      exact k3
    · exact k3

theorem State.staticDie_keeps (s : State) (d : Nat) : Keeps 0x8060000 s (State.staticDie s d) := by
  unfold State.staticDie
  extract_lets +onlyGivenNames x0
  extract_lets +onlyGivenNames x1
  extract_lets +onlyGivenNames x2
  extract_lets +onlyGivenNames x3
  extract_lets +onlyGivenNames x4
  refine Keeps.cut (b := x4) ?_ ?_
  · unfold x4
    refine Keeps.tr (b := s) ?_ (Keeps.direct rfl rfl (Nat.le_refl _) rfl ?_)
    · exact Keeps.refl _
    · intro w
      rw [State.wf_iff] at w ⊢
      obtain ⟨a1, a2, a3, a4, a5, a6, a7, a8, a9, a10, a11, a12, a13, a14⟩ := w
      exact ⟨a1, a2, a3, a4, a5, a6, a7, a8, a9, a10, a11, a12, a13, a14⟩
  intro k5
  clear_value x4
  refine Keeps.trans ?_ (State.fput_keeps _ _ _ _)
  exact k5

theorem State.forgetDie_keeps (s : State) (d : Nat) : Keeps 0x81BA2 s (State.forgetDie s d) := by
  unfold State.forgetDie
  split
  · rename_i z0 z1 z2 z3
    refine Keeps.cut (b := z2) ?_ ?_
    · refine KSnd.eq z3 ?_
      refine KSnd.trans ?_ (State.draw_keeps _)
      exact Keeps.refl _
    intro k4
    extract_lets +onlyGivenNames x5
    extract_lets +onlyGivenNames x6
    extract_lets +onlyGivenNames x7
    refine Keeps.cut (b := x7) ?_ ?_
    · unfold x7
      refine Keeps.tr (b := z2) ?_ (Keeps.direct rfl rfl (Nat.le_refl _) rfl ?_)
      · exact k4
      · intro w
        rw [State.wf_iff] at w ⊢
        obtain ⟨a1, a2, a3, a4, a5, a6, a7, a8, a9, a10, a11, a12, a13, a14⟩ := w
        exact ⟨a1, a2, a3, a4, a5, dwf_tdel _ _ _ a6, dwf_tdel _ _ _ a7, dwf_tdel _ _ _ a8, a9, dwf_tput _ _ _ _ a10 (by simp [Nrt.init]), dwf_tdel _ _ _ a11, a12, a13, dwf_tfilter _ _ _ a14⟩
    intro k8
    clear_value x7
    extract_lets +onlyGivenNames x9
    refine Keeps.cut (b := x9) ?_ ?_
    · unfold x9
      refine Keeps.trans ?_ (State.modPfx_keeps _ _ _)
      exact k8
    intro k10
    clear_value x9
    split
    · rename_i z11 z12
      exact k10
    · rename_i z13 z14 z15
      refine Keeps.trans ?_ (State.modPart_keeps _ _ _)
      exact k10

theorem State.scrubDie_keeps (s : State) (d : Nat) : Keeps 0x2560081BA0 s (State.scrubDie s d) := by
  unfold State.scrubDie
  extract_lets placed serial n n0 s1 s2 s3 s4 s5 s6
  have h1 : Keeps 0x2560081BA0 s s1 := by
    refine Keeps.direct rfl rfl (Nat.le_refl _) rfl ?_
    intro w
    rw [State.wf_iff] at w ⊢
    obtain ⟨a1, a2, a3, a4, a5, a6, a7, a8, a9, a10, a11, a12, a13, a14⟩ := w
    refine ⟨a1, a2, a3, a4, a5, dwf_tdel _ _ _ a6, a7, dwf_tdel _ _ _ a8, a9, dwf_tput _ _ _ _ a10 ?_, dwf_tdel _ _ _ a11, a12, a13,
      dwf_tfilter _ _ _ a14⟩
    simp [Nrt.init]
  have h2 : Keeps 0x2560081BA0 s s2 := h1.pfxs _ (fun k => dwf_tdel _ _ _ k)
  have h3 : Keeps 0x2560081BA0 s s3 := (h2.trans (State.modPfx_keeps _ _ _)).trans (State.modCsm_keeps _ _ _)
  have h4 : Keeps 0x2560081BA0 s s4 := ((h3.trans (State.fset_keeps _ _ _ _)).trans (State.fset_keeps _ _ _ _)).trans (State.fset_keeps _ _ _ _)
  have h5 : Keeps 0x2560081BA0 s s5 := (h4.trans (State.fset_keeps _ _ _ _)).trans (State.fset_keeps _ _ _ _)
  have h6 : Keeps 0x2560081BA0 s s6 := (h5.trans (State.fset_keeps _ _ _ _)).trans (State.fset_keeps _ _ _ _)
  clear_value s6
  split
  · exact h6
  · exact h6.trans (State.modPart_keeps _ _ _)

theorem State.dropFlashWork_keeps (s : State) (d : Nat) : Keeps 0x400 s (State.dropFlashWork s d) := by
  unfold State.dropFlashWork
  refine Keeps.trans ?_ (State.modFtl_keeps _ _ _)
  exact Keeps.refl _

theorem State.portZero_keeps (s : State) (d : Nat) : Keeps 0xC0440A869 s (State.portZero s d) := by
  unfold State.portZero
  refine Keeps.trans ?_ (State.modLnk_keeps _ _ _)
  refine Keeps.trans ?_ (State.setLink_keeps _ _ _)
  exact Keeps.refl _

theorem State.dieBack_keeps (s : State) (d : Nat) : Keeps 0x328002050A s (State.dieBack s d) := by
  unfold State.dieBack
  extract_lets +onlyGivenNames x0
  extract_lets +onlyGivenNames x1
  refine Keeps.cut (b := x1) ?_ ?_
  · unfold x1
    refine Keeps.pwr ?_ _
    exact Keeps.refl _
  intro k2
  clear_value x1
  extract_lets +onlyGivenNames x3
  refine Keeps.cut (b := x3) ?_ ?_
  · unfold x3
    refine Keeps.trans ?_ (State.fset_keeps _ _ _ _)
    refine Keeps.trans ?_ (State.fset_keeps _ _ _ _)
    exact k2
  intro k4
  clear_value x3
  extract_lets +onlyGivenNames x5
  refine Keeps.cut (b := x5) ?_ ?_
  · unfold x5
    refine Keeps.ite ?_ ?_
    · refine Keeps.trans ?_ (State.placePfx_keeps _ _)
      exact k4
    · exact k4
  intro k6
  clear_value x5
  extract_lets +onlyGivenNames x7
  extract_lets +onlyGivenNames x8
  refine Keeps.cut (b := x8) ?_ ?_
  · unfold x8
    refine Keeps.trans ?_ (State.fset_keeps _ _ _ _)
    exact k6
  intro k9
  clear_value x8
  extract_lets +onlyGivenNames x10
  refine Keeps.cut (b := x10) ?_ ?_
  · unfold x10
    refine Keeps.trans ?_ (State.fset_keeps _ _ _ _)
    exact k9
  intro k11
  clear_value x10
  extract_lets +onlyGivenNames x12
  refine Keeps.cut (b := x12) ?_ ?_
  · unfold x12
    refine Keeps.trans ?_ (State.modFtl_keeps _ _ _)
    exact k11
  intro k13
  clear_value x12
  refine Keeps.ite ?_ ?_
  · refine Keeps.trans ?_ (State.fset_keeps _ _ _ _)
    refine Keeps.trans ?_ (State.bringUp_keeps _ _)
    exact k13
  · refine Keeps.trans ?_ (State.fput_keeps _ _ _ _)
    exact k13

theorem State.dieZero_keeps (s : State) (d : Nat) (power : Bool) : Keeps 0x7FFFFEBFEF s (State.dieZero s d power) := by
  unfold State.dieZero
  extract_lets +onlyGivenNames x0
  extract_lets +onlyGivenNames x1
  refine Keeps.cut (b := x1) ?_ ?_
  · unfold x1
    refine Keeps.trans ?_ (State.clearWindow_keeps _ _)
    refine Keeps.trans ?_ (State.forgetDie_keeps _ _)
    refine Keeps.trans ?_ (State.portZero_keeps _ _)
    refine Keeps.trans ?_ (State.staticDie_keeps _ _)
    exact Keeps.refl _
  intro k2
  clear_value x1
  refine Keeps.trans ?_ (State.modFtl_keeps _ _ _)
  refine Keeps.trans ?_ (State.dropFlashWork_keeps _ _)
  exact k2

end Sys2Proof.Machine
end

