-- ==== Sys2Proof/Laws/KeepsContainment.lean ====
section
/-!
SUPPORT. Sys2Proof/Laws/KeepsContainment.lean: each operation of Machine/Containment.lean keeps what `Keeps` says, with the parts of the state it may
touch.
-/
namespace Sys2Proof.Machine
set_option Elab.async false

theorem State.postUnit_keeps (s : State) (k d i old new cause : Nat) : Keeps 0x418041 s (State.postUnit s k d i old new cause) := by
  unfold State.postUnit
  extract_lets +onlyGivenNames x0
  refine Keeps.ite ?_ ?_
  · exact Keeps.refl _
  · refine Keeps.trans ?_ (State.dieEvent_keeps _ _ _ _)
    refine Keeps.trans ?_ (State.modRow_keeps _ _ _ _ _)
    exact Keeps.refl _

theorem State.countWickets_keeps (s : State) (d : Nat) : Keeps 0x2000000 s (State.countWickets s d) := by
  unfold State.countWickets
  extract_lets +onlyGivenNames x0
  refine Keeps.trans ?_ (State.fset_keeps _ _ _ _)
  exact Keeps.refl _

theorem State.noteUnit_keeps (s : State) (k d i old new cause : Nat) : Keeps 0x2418061 s (State.noteUnit s k d i old new cause) := by
  unfold State.noteUnit
  extract_lets +onlyGivenNames x0
  refine Keeps.cut (b := x0) ?_ ?_
  · unfold x0
    refine Keeps.trans ?_ (State.modRow_keeps _ _ _ _ _)
    exact Keeps.refl _
  intro k1
  clear_value x0
  extract_lets +onlyGivenNames x2
  refine Keeps.cut (b := x2) ?_ ?_
  · unfold x2
    refine Keeps.ite ?_ ?_
    · refine Keeps.trans ?_ (State.evtPkg_keeps _ _)
      exact k1
    · exact k1
  intro k3
  clear_value x2
  extract_lets +onlyGivenNames x4
  refine Keeps.cut (b := x4) ?_ ?_
  · unfold x4
    refine Keeps.ite ?_ ?_
    · refine Keeps.trans ?_ (State.fadd_keeps _ _ _ _)
      exact k3
    · exact k3
  intro k5
  clear_value x4
  extract_lets +onlyGivenNames x6
  refine Keeps.cut (b := x6) ?_ ?_
  · unfold x6
    refine Keeps.ite ?_ ?_
    · refine Keeps.trans ?_ (State.countWickets_keeps _ _)
      exact k5
    · exact k5
  intro k7
  clear_value x6
  refine Keeps.trans ?_ (State.postUnit_keeps _ _ _ _ _ _ _)
  exact k7

theorem State.mapHeld_keeps {m : Nat} (s : State) (d : Nat) (f : State → Held → Held × State) (hf : ∀ a0 a1, KSnd m a0 (f a0 a1)) (hm : 0x80 ||| m = m := by first | decide | exact Nat.or_self _ | (rw [Fld.nth_bit]; decide) | (rw [faultsFld_bit]; decide) | (rw [atmLo_bit1]; decide) | (rw [atmLo_bit2]; decide) | exact orSelf _ _ | exact orRight _ (by decide) | exact orRight _ (orSelf _ _) | exact orRight _ (orRight _ (by decide)) | exact orBoth _ (by decide) | exact Fld.bit_top _ | exact Fld.bit_regs _ | exact Fld.bit_top2 _ _ (by decide) | exact orSub (by assumption) (by decide) | (split <;> decide)) : Keeps m s (State.mapHeld s d f) := by
  unfold State.mapHeld
  extract_lets +onlyGivenNames x0
  split
  · rename_i z1 z2 z3 z4
    refine Keeps.cut (b := z3) ?_ ?_
    · refine KSnd.eq z4 ?_
      refine KSnd.foldl _ _ (fun s5 y6 => ?_) _ ?_
      · split
        · rename_i z7 z8 z9 z10
          refine KSnd.cut (b := z9) ?_ ?_
          · refine KSnd.eq z10 ?_
            refine KSnd.tr ?_ (hf _ _)
            exact Keeps.refl _
          intro k11
          refine KSnd.mk ?_
          exact k11
      · refine KSnd.mk ?_
        exact Keeps.refl _
    intro k12
    extract_lets +onlyGivenNames x13
    refine Keeps.cut (b := x13) ?_ ?_
    · unfold x13
      refine Keeps.trans ?_ (State.modCsm_keeps _ _ _)
      exact k12
    intro k14
    clear_value x13
    refine Keeps.foldl _ _ (fun s15 y16 => ?_) ?_
    · refine Keeps.foldl _ _ (fun s17 y18 => ?_) ?_
      · refine Keeps.ite ?_ ?_
        · exact Keeps.refl _
        · split
          · rename_i z19 z20 z21 z22
            refine Keeps.cut (b := z21) ?_ ?_
            · refine KSnd.eq z22 ?_
              refine KSnd.tr ?_ (hf _ _)
              exact Keeps.refl _
            intro k23
            refine Keeps.trans ?_ (State.modRec_keeps _ _ _ _ _)
            exact k23
      · exact Keeps.refl _
    · exact k14

theorem State.mirror_keeps (s : State) (d : Nat) (gone : Bool) : Keeps 0x20100A1 s (State.mirror s d gone) := by
  unfold State.mirror
  refine Keeps.ite ?_ ?_
  · refine Keeps.trans ?_ (State.fset_keeps _ _ _ _)
    refine Keeps.tr ?_ (State.mapHeld_keeps _ _ _ (fun v0 v1 => ?_))
    · exact Keeps.refl _
    · refine KSnd.mk ?_
      exact Keeps.refl _
  · extract_lets +onlyGivenNames x2
    extract_lets +onlyGivenNames x3
    refine Keeps.cut (b := x3) ?_ ?_
    · unfold x3
      refine Keeps.ite ?_ ?_
      · refine Keeps.ras ?_ _
        exact Keeps.refl _
      · exact Keeps.refl _
    intro k4
    clear_value x3
    refine Keeps.tr ?_ (State.mapHeld_keeps _ _ _ (fun v5 v6 => ?_))
    · exact k4
    · refine KSnd.trans ?_ (State.ledgerIn_keeps _ _ _)
      exact Keeps.refl _

theorem State.assignLedgers_keeps (s : State) (p : Nat) : Keeps 0x20100A1 s (State.assignLedgers s p) := by
  unfold State.assignLedgers
  refine Keeps.foldl _ _ (fun s0 y1 => ?_) ?_
  · extract_lets +onlyGivenNames x2
    extract_lets +onlyGivenNames x3
    refine Keeps.ite ?_ ?_
    · exact Keeps.refl _
    · extract_lets +onlyGivenNames x4
      refine Keeps.cut (b := x4) ?_ ?_
      · unfold x4
        refine Keeps.trans ?_ (State.fset_keeps _ _ _ _)
        exact Keeps.refl _
      intro k5
      clear_value x4
      extract_lets +onlyGivenNames x6
      extract_lets +onlyGivenNames x7
      refine Keeps.cut (b := x7) ?_ ?_
      · unfold x7
        refine Keeps.ras ?_ _
        exact k5
      intro k8
      clear_value x7
      refine Keeps.trans ?_ (State.mirror_keeps _ _ _)
      exact k8
  · exact Keeps.refl _

theorem State.loseEntry_keeps (s : State) (ld d : Nat) (e : LedgerEnt) : Keeps 0x42640ABE9 s (State.loseEntry s ld d e) := by
  unfold State.loseEntry
  split
  · rename_i z0 z1 z2 z3 z4
    extract_lets +onlyGivenNames x5
    refine Keeps.cut (b := x5) ?_ ?_
    · unfold x5
      refine Keeps.trans ?_ (State.fadd_keeps _ _ _ _)
      exact Keeps.refl _
    intro k6
    clear_value x5
    split
    · rename_i z7 z8 z9 z10 z11 z12 z13
      exact k6
    · rename_i z14 z15 z16 z17 z18
      split
      · rename_i z19 z20
        refine Keeps.trans ?_ (State.resDrop_keeps _ _)
        exact k6
      · rename_i z21 z22 z23
        extract_lets +onlyGivenNames x24
        refine KSnd.get ?_
        refine KSnd.trans ?_ (State.sendWrite_keeps _ _ _ _ _ _ _ _ _ _ _)
        exact k6

theorem State.rehome_keeps (s : State) (p d : Nat) (w0 : List (Nat × Ctx)) : KSnd 0x20 s (State.rehome s p d w0) := by
  induction w0 generalizing s p d with
  | nil =>
    unfold State.rehome
    refine KSnd.mk ?_
    exact Keeps.refl _
  | cons hd0 tl0 ih =>
    unfold State.rehome
    refine KSnd.ite ?_ ?_
    · refine KSnd.tr ?_ (ih _ _ _)
      exact Keeps.refl _
    · split
      · rename_i z0 z1
        refine KSnd.tr ?_ (ih _ _ _)
        refine Keeps.trans ?_ (State.modPart_keeps _ _ _)
        exact Keeps.refl _
      · rename_i z2 z3 z4
        extract_lets +onlyGivenNames x5
        refine KSnd.cut (b := x5) ?_ ?_
        · unfold x5
          refine Keeps.trans ?_ (State.modCtx_keeps _ _ _ _)
          exact Keeps.refl _
        intro k6
        clear_value x5
        split
        · rename_i z7 z8 z9 z10
          refine KSnd.cut (b := z9) ?_ ?_
          · refine KSnd.eq z10 ?_
            refine KSnd.tr ?_ (ih _ _ _)
            exact k6
          intro k11
          refine KSnd.mk ?_
          exact k11

theorem State.rehomeLoss_keeps (s : State) (x : Loss) : KSnd 0x42640ABE9 s (State.rehomeLoss s x) := by
  unfold State.rehomeLoss
  extract_lets +onlyGivenNames x0
  extract_lets +onlyGivenNames x1
  refine KSnd.cut (b := x1) ?_ ?_
  · unfold x1
    refine Keeps.foldl _ _ (fun s2 y3 => ?_) ?_
    · refine Keeps.trans ?_ (State.completeKey_keeps _ _ _ _ _)
      exact Keeps.refl _
    · exact Keeps.refl _
  intro k4
  clear_value x1
  split
  · rename_i z5 z6 z7 z8
    refine KSnd.cut (b := z7) ?_ ?_
    · refine KSnd.eq z8 ?_
      refine KSnd.trans ?_ (State.rehome_keeps _ _ _ _)
      exact k4
    intro k9
    extract_lets +onlyGivenNames x10
    extract_lets +onlyGivenNames x11
    refine KSnd.cut (b := x11) ?_ ?_
    · unfold x11
      split
      · rename_i z12 z13 z14
        refine Keeps.foldl _ _ (fun s15 y16 => ?_) ?_
        · refine Keeps.trans ?_ (State.loseEntry_keeps _ _ _ _)
          exact Keeps.refl _
        · exact k9
      · rename_i z17 z18
        exact k9
    intro k19
    clear_value x11
    extract_lets +onlyGivenNames x20
    refine KSnd.cut (b := x20) ?_ ?_
    · unfold x20
      refine Keeps.trans ?_ (State.fset_keeps _ _ _ _)
      exact k19
    intro k21
    clear_value x20
    refine KSnd.mk ?_
    exact k21

theorem State.portOut_keeps (s : State) (x : Nat) : Keeps 0x408061 s (State.portOut s x) := by
  unfold State.portOut
  refine Keeps.ite ?_ ?_
  · refine Keeps.trans ?_ (State.portDown_keeps _ _)
    exact Keeps.refl _
  · exact Keeps.refl _

theorem State.fabricDown_keeps (s : State) (d : Nat) : Keeps 0xC0440A869 s (State.fabricDown s d) := by
  unfold State.fabricDown
  refine Keeps.ite ?_ ?_
  · refine Keeps.trans ?_ (State.linkState_keeps _ _ _)
    refine Keeps.trans ?_ (State.setLink_keeps _ _ _)
    exact Keeps.refl _
  · exact Keeps.refl _

theorem State.takeOver_keeps (s : State) (d : Nat) : KSnd 0x200408449 s (State.takeOver s d) := by
  unfold State.takeOver
  extract_lets +onlyGivenNames x0
  extract_lets +onlyGivenNames x1
  extract_lets +onlyGivenNames x2
  extract_lets +onlyGivenNames x3
  extract_lets +onlyGivenNames x4
  refine KSnd.cut (b := x4) ?_ ?_
  · unfold x4
    refine Keeps.trans ?_ (State.modFtl_keeps _ _ _)
    exact Keeps.refl _
  intro k5
  clear_value x4
  extract_lets +onlyGivenNames x6
  refine KSnd.cut (b := x6) ?_ ?_
  · unfold x6
    refine Keeps.trans ?_ (State.fset_keeps _ _ _ _)
    refine Keeps.trans ?_ (State.fset_keeps _ _ _ _)
    exact k5
  intro k7
  clear_value x6
  refine KSnd.ite ?_ ?_
  · extract_lets +onlyGivenNames x8
    refine KSnd.cut (b := x8) ?_ ?_
    · unfold x8
      refine Keeps.trans ?_ (State.modFtl_keeps _ _ _)
      refine Keeps.trans ?_ (State.fset_keeps _ _ _ _)
      exact k7
    intro k9
    clear_value x8
    extract_lets +onlyGivenNames x10
    refine KSnd.cut (b := x10) ?_ ?_
    · unfold x10
      refine Keeps.trans ?_ (State.fset_keeps _ _ _ _)
      exact k9
    intro k11
    clear_value x10
    refine KSnd.mk ?_
    refine Keeps.trans ?_ (State.healthOccur_keeps _ _ _ _)
    refine Keeps.trans ?_ (State.evtDie_keeps _ _ _)
    exact k11
  · refine KSnd.mk ?_
    exact k7

theorem State.dropGrads_keeps (s : State) (p : Nat) (l : List (Nat × Nat)) : Keeps 0x20 s (State.dropGrads s p l) := by
  unfold State.dropGrads
  refine Keeps.trans ?_ (State.modPart_keeps _ _ _)
  exact Keeps.refl _

theorem State.dieTest_keeps (s : State) (d : Nat) : Keeps 0x10000 s (State.dieTest s d) := by
  unfold State.dieTest
  refine Keeps.trans ?_ (State.modRow_keeps _ _ _ _ _)
  exact Keeps.refl _

theorem State.dieUnits_keeps (s : State) (d cause : Nat) (was : List (Nat × Nat × Nat)) : Keeps 0x10000 s (State.dieUnits s d cause was) := by
  unfold State.dieUnits
  refine Keeps.foldl _ _ (fun s0 y1 => ?_) ?_
  · extract_lets +onlyGivenNames x2
    refine Keeps.ite ?_ ?_
    · exact Keeps.refl _
    · refine Keeps.trans ?_ (State.modRow_keeps _ _ _ _ _)
      exact Keeps.refl _
  · exact Keeps.refl _

theorem State.loseDie_keeps (s : State) (d cause : Nat) : Keeps 0x7FFFFFBFEF s (State.loseDie s d cause) := by
  unfold State.loseDie
  refine Keeps.ite ?_ ?_
  · exact Keeps.refl _
  · extract_lets +onlyGivenNames x0
    extract_lets +onlyGivenNames x1
    extract_lets +onlyGivenNames x2
    extract_lets +onlyGivenNames x3
    extract_lets +onlyGivenNames x4
    extract_lets +onlyGivenNames x5
    extract_lets +onlyGivenNames x6
    extract_lets +onlyGivenNames x7
    extract_lets +onlyGivenNames x8
    extract_lets +onlyGivenNames x9
    refine Keeps.cut (b := x9) ?_ ?_
    · unfold x9
      refine Keeps.trans ?_ (State.modRow_keeps _ _ _ _ _)
      exact Keeps.refl _
    intro k10
    clear_value x9
    extract_lets +onlyGivenNames x11
    refine Keeps.cut (b := x11) ?_ ?_
    · unfold x11
      refine Keeps.trans ?_ (State.dieUnits_keeps _ _ _ _)
      refine Keeps.trans ?_ (State.noteUnit_keeps _ _ _ _ _ _ _)
      exact k10
    intro k12
    clear_value x11
    extract_lets +onlyGivenNames x13
    refine Keeps.cut (b := x13) ?_ ?_
    · unfold x13
      refine Keeps.trans ?_ (State.fputAt_keeps _ _ _ _ _)
      refine Keeps.trans ?_ (State.fset_keeps _ _ _ _)
      exact k12
    intro k14
    clear_value x13
    extract_lets +onlyGivenNames x15
    refine Keeps.cut (b := x15) ?_ ?_
    · unfold x15
      refine Keeps.trans ?_ (State.countWickets_keeps _ _)
      refine Keeps.trans ?_ (State.evtPkg_keeps _ _)
      refine Keeps.trans ?_ (State.fadd_keeps _ _ _ _)
      exact k14
    intro k16
    clear_value x15
    extract_lets +onlyGivenNames x17
    refine Keeps.cut (b := x17) ?_ ?_
    · unfold x17
      refine Keeps.trans ?_ (State.fabricDown_keeps _ _)
      exact k16
    intro k18
    clear_value x17
    extract_lets +onlyGivenNames x19
    refine Keeps.cut (b := x19) ?_ ?_
    · unfold x19
      split
      · rename_i z20 z21 z22
        refine Keeps.trans ?_ (State.portOut_keeps _ _)
        exact k18
      · rename_i z23 z24
        exact k18
    intro k25
    clear_value x19
    split
    · rename_i z26 z27 z28 z29
      refine Keeps.cut (b := z28) ?_ ?_
      · refine KSnd.eq z29 ?_
        refine KSnd.trans ?_ (State.takeOver_keeps _ _)
        exact k25
      intro k30
      extract_lets +onlyGivenNames x31
      extract_lets +onlyGivenNames x32
      refine Keeps.cut (b := x32) ?_ ?_
      · unfold x32
        refine Keeps.ras ?_ _
        exact k30
      intro k33
      clear_value x32
      extract_lets +onlyGivenNames x34
      refine Keeps.cut (b := x34) ?_ ?_
      · unfold x34
        refine Keeps.trans ?_ (State.modFtl_keeps _ _ _)
        exact k33
      intro k35
      clear_value x34
      extract_lets +onlyGivenNames x36
      refine Keeps.cut (b := x36) ?_ ?_
      · unfold x36
        refine Keeps.trans ?_ (State.fset_keeps _ _ _ _)
        exact k35
      intro k37
      clear_value x36
      split
      · rename_i z38 z39
        refine Keeps.trans ?_ (State.dieTest_keeps _ _)
        refine Keeps.trans ?_ (State.dieZero_keeps _ _ _)
        exact k37
      · rename_i z40 z41 z42
        extract_lets +onlyGivenNames x43
        extract_lets +onlyGivenNames x44
        extract_lets +onlyGivenNames x45
        extract_lets +onlyGivenNames x46
        extract_lets +onlyGivenNames x47
        refine Keeps.cut (b := x47) ?_ ?_
        · unfold x47
          refine Keeps.trans ?_ (State.partEvent_keeps _ _ _ _ _)
          exact k37
        intro k48
        clear_value x47
        extract_lets +onlyGivenNames x49
        refine Keeps.cut (b := x49) ?_ ?_
        · unfold x49
          refine Keeps.foldl _ _ (fun s50 y51 => ?_) ?_
          · refine Keeps.trans ?_ (State.completeKey_keeps _ _ _ _ _)
            exact Keeps.refl _
          · exact k48
        intro k52
        clear_value x49
        extract_lets +onlyGivenNames x53
        refine Keeps.cut (b := x53) ?_ ?_
        · unfold x53
          refine Keeps.trans ?_ (State.dropGrads_keeps _ _ _)
          exact k52
        intro k54
        clear_value x53
        extract_lets +onlyGivenNames x55
        extract_lets +onlyGivenNames x56
        refine Keeps.cut (b := x56) ?_ ?_
        · unfold x56
          refine Keeps.foldl _ _ (fun s57 y58 => ?_) ?_
          · refine Keeps.trans ?_ (State.giveSegs_keeps _ _ _)
            exact Keeps.refl _
          · exact k54
        intro k59
        clear_value x56
        extract_lets +onlyGivenNames x60
        refine Keeps.cut (b := x60) ?_ ?_
        · unfold x60
          refine Keeps.foldl _ _ (fun s61 y62 => ?_) ?_
          · extract_lets +onlyGivenNames x63
            refine Keeps.cut (b := x63) ?_ ?_
            · unfold x63
              refine Keeps.trans ?_ (State.modStg_keeps _ _ _)
              exact Keeps.refl _
            intro k64
            clear_value x63
            refine Keeps.foldl _ _ (fun s65 y66 => ?_) ?_
            · refine Keeps.trans ?_ (State.dropReplica_keeps _ _ _)
              exact Keeps.refl _
            · exact k64
          · exact k59
        intro k67
        clear_value x60
        extract_lets +onlyGivenNames x68
        extract_lets +onlyGivenNames x69
        refine Keeps.cut (b := x69) ?_ ?_
        · unfold x69
          refine Keeps.trans ?_ (State.dieTest_keeps _ _)
          refine Keeps.trans ?_ (State.dieZero_keeps _ _ _)
          exact k67
        intro k70
        clear_value x69
        extract_lets +onlyGivenNames x71
        refine Keeps.cut (b := x71) ?_ ?_
        · unfold x71
          refine Keeps.trans ?_ (State.assignLedgers_keeps _ _)
          exact k70
        intro k72
        clear_value x71
        refine Keeps.ite ?_ ?_
        · extract_lets +onlyGivenNames x73
          extract_lets +onlyGivenNames x74
          refine Keeps.cut (b := x74) ?_ ?_
          · unfold x74
            refine Keeps.ras ?_ _
            exact k72
          intro k75
          clear_value x74
          extract_lets +onlyGivenNames x76
          refine Keeps.cut (b := x76) ?_ ?_
          · unfold x76
            refine Keeps.ite ?_ ?_
            · refine Keeps.trans ?_ (State.fset_keeps _ _ _ _)
              exact k75
            · exact k75
          intro k77
          clear_value x76
          refine Keeps.trans ?_ (State.partEvent_keeps _ _ _ _ _)
          refine Keeps.trans ?_ (State.evtPkg_keeps _ _)
          exact k77
        · split
          · rename_i z78 z79 z80 z81
            refine Keeps.cut (b := z80) ?_ ?_
            · refine KSnd.eq z81 ?_
              refine KSnd.trans ?_ (State.rehomeLoss_keeps _ _)
              exact k72
            intro k82
            refine Keeps.ras ?_ _
            exact k82

theorem State.fenceCasement_keeps (s : State) (d : Nat) (F : Fld) : Keeps (F.bit ||| 0x7FFFFFBFEF) s (State.fenceCasement s d F) := by
  unfold State.fenceCasement
  refine Keeps.trans ?_ (State.loseDie_keeps _ _ _)
  refine Keeps.trans ?_ (State.fenceSweep_keeps _ _)
  refine Keeps.trans ?_ (State.evtDie_keeps _ _ _)
  exact Keeps.refl _

theorem State.paneOff_keeps (s : State) (d i : Nat) : Keeps 0x7FFFFFBFEF s (State.paneOff s d i) := by
  unfold State.paneOff
  extract_lets +onlyGivenNames x0
  extract_lets +onlyGivenNames x1
  refine Keeps.cut (b := x1) ?_ ?_
  · unfold x1
    refine Keeps.trans ?_ (State.modCsm_keeps _ _ _)
    refine Keeps.trans ?_ (State.fputAt_keeps _ _ _ _ _)
    refine Keeps.trans ?_ (State.fputAt_keeps _ _ _ _ _)
    exact Keeps.refl _
  intro k2
  clear_value x1
  refine Keeps.ite ?_ ?_
  · refine Keeps.trans ?_ (State.fenceCasement_keeps _ _ _)
    exact k2
  · exact k2

theorem State.requeue_keeps (s : State) (d a : Nat) : Keeps 0x80 s (State.requeue s d a) := by
  unfold State.requeue
  split
  · rename_i z0 z1
    exact Keeps.refl _
  · rename_i z2 z3 z4
    extract_lets +onlyGivenNames x5
    extract_lets +onlyGivenNames x6
    extract_lets +onlyGivenNames x7
    extract_lets +onlyGivenNames x8
    refine Keeps.trans ?_ (State.modSweep_keeps _ _ _ _)
    exact Keeps.refl _

theorem State.atmOff_keeps (s : State) (d i : Nat) : Keeps 0x7FFFFFBFEF s (State.atmOff s d i) := by
  unfold State.atmOff
  extract_lets +onlyGivenNames x0
  extract_lets +onlyGivenNames x1
  refine Keeps.cut (b := x1) ?_ ?_
  · unfold x1
    refine Keeps.trans ?_ (State.modCsm_keeps _ _ _)
    refine Keeps.trans ?_ (State.fputAt_keeps _ _ _ _ _)
    refine Keeps.trans ?_ (State.fputAt_keeps _ _ _ _ _)
    exact Keeps.refl _
  intro k2
  clear_value x1
  extract_lets +onlyGivenNames x3
  refine Keeps.cut (b := x3) ?_ ?_
  · unfold x3
    refine Keeps.trans ?_ (State.requeue_keeps _ _ _)
    exact k2
  intro k4
  clear_value x3
  refine Keeps.ite ?_ ?_
  · refine Keeps.trans ?_ (State.fenceCasement_keeps _ _ _)
    exact k4
  · exact k4

theorem State.failReaders_keeps (s : State) (d page : Nat) : Keeps 0x80 s (State.failReaders s d page) := by
  unfold State.failReaders
  split
  · rename_i z0 z1
    exact Keeps.refl _
  · rename_i z2 z3 z4
    extract_lets +onlyGivenNames x5
    refine Keeps.trans ?_ (State.failRecs_keeps _ _ _ _ _)
    exact Keeps.refl _

theorem State.loseTail_keeps (s : State) (d id : Nat) : Keeps 0x40408141 s (State.loseTail s d id) := by
  unfold State.loseTail
  split
  · rename_i z0 z1
    exact Keeps.refl _
  · rename_i z2 z3 z4
    extract_lets +onlyGivenNames x5
    refine Keeps.cut (b := x5) ?_ ?_
    · unfold x5
      refine Keeps.trans ?_ (State.modPfx_keeps _ _ _)
      exact Keeps.refl _
    intro k6
    clear_value x5
    extract_lets +onlyGivenNames x7
    refine Keeps.cut (b := x7) ?_ ?_
    · unfold x7
      refine Keeps.trans ?_ (State.fsat_keeps _ _ _ _)
      exact k6
    intro k8
    clear_value x7
    refine Keeps.trans ?_ (State.dieEvent_keeps _ _ _ _)
    exact k8

theorem State.loseFrame_keeps (s : State) (d id : Nat) : Keeps 0xC04083C9 s (State.loseFrame s d id) := by
  unfold State.loseFrame
  split
  · rename_i z0 z1
    exact Keeps.refl _
  · rename_i z2 z3 z4
    extract_lets +onlyGivenNames x5
    refine Keeps.cut (b := x5) ?_ ?_
    · unfold x5
      refine Keeps.trans ?_ (State.dropStore_keeps _ _ _)
      refine Keeps.trans ?_ (State.failReaders_keeps _ _ _)
      exact Keeps.refl _
    intro k6
    clear_value x5
    extract_lets +onlyGivenNames x7
    extract_lets +onlyGivenNames x8
    refine Keeps.cut (b := x8) ?_ ?_
    · unfold x8
      refine Keeps.trans ?_ (State.dropFrame_keeps _ _ _)
      exact k6
    intro k9
    clear_value x8
    refine Keeps.ite ?_ ?_
    · exact k9
    · refine Keeps.ite ?_ ?_
      · refine Keeps.trans ?_ (State.losePage_keeps _ _ _)
        exact k9
      · refine Keeps.trans ?_ (State.loseTail_keeps _ _ _)
        exact k9

theorem State.stackOff_keeps (s : State) (d k : Nat) : Keeps 0x7FFFFFBFEF s (State.stackOff s d k) := by
  unfold State.stackOff
  extract_lets +onlyGivenNames x0
  extract_lets +onlyGivenNames x1
  refine Keeps.cut (b := x1) ?_ ?_
  · unfold x1
    refine Keeps.trans ?_ (State.fputAt_keeps _ _ _ _ _)
    exact Keeps.refl _
  intro k2
  clear_value x1
  extract_lets +onlyGivenNames x3
  extract_lets +onlyGivenNames x4
  refine Keeps.cut (b := x4) ?_ ?_
  · unfold x4
    refine Keeps.foldl _ _ (fun s5 y6 => ?_) ?_
    · refine Keeps.trans ?_ (State.loseFrame_keeps _ _ _)
      exact Keeps.refl _
    · exact k2
  intro k7
  clear_value x4
  extract_lets +onlyGivenNames x8
  extract_lets +onlyGivenNames x9
  refine Keeps.cut (b := x9) ?_ ?_
  · unfold x9
    split
    · rename_i z10 z11 z12
      refine Keeps.trans ?_ (State.dropGrads_keeps _ _ _)
      exact k7
    · rename_i z13 z14
      exact k7
  intro k15
  clear_value x9
  extract_lets +onlyGivenNames x16
  refine Keeps.cut (b := x16) ?_ ?_
  · unfold x16
    refine Keeps.foldl _ _ (fun s17 y18 => ?_) ?_
    · extract_lets +onlyGivenNames x19
      refine Keeps.cut (b := x19) ?_ ?_
      · unfold x19
        refine Keeps.foldl _ _ (fun s20 y21 => ?_) ?_
        · refine Keeps.trans ?_ (State.completeKey_keeps _ _ _ _ _)
          exact Keeps.refl _
        · exact Keeps.refl _
      intro k22
      clear_value x19
      refine Keeps.trans ?_ (State.modCsm_keeps _ _ _)
      exact k22
    · exact k15
  intro k23
  clear_value x16
  refine Keeps.ite ?_ ?_
  · refine Keeps.trans ?_ (State.loseDie_keeps _ _ _)
    exact k23
  · exact k23

theorem State.chanOff_keeps (s : State) (d c : Nat) : Keeps 0x200408449 s (State.chanOff s d c) := by
  unfold State.chanOff
  extract_lets +onlyGivenNames x0
  refine Keeps.cut (b := x0) ?_ ?_
  · unfold x0
    refine Keeps.trans ?_ (State.evtDie_keeps _ _ _)
    refine Keeps.trans ?_ (State.fputAt_keeps _ _ _ _ _)
    exact Keeps.refl _
  intro k1
  clear_value x0
  extract_lets +onlyGivenNames x2
  extract_lets +onlyGivenNames x3
  refine Keeps.cut (b := x3) ?_ ?_
  · unfold x3
    refine Keeps.trans ?_ (State.modFtl_keeps _ _ _)
    exact k1
  intro k4
  clear_value x3
  refine Keeps.trans ?_ (State.roCheck_keeps _ _)
  refine Keeps.trans ?_ (State.healthOccur_keeps _ _ _ _)
  exact k4

theorem State.queueDepth_keeps (s : State) (d : Nat) : Keeps 0x2000000000 s (State.queueDepth s d) := by
  unfold State.queueDepth
  extract_lets +onlyGivenNames x0
  refine Keeps.trans ?_ (State.fmax_keeps _ _ _ _)
  refine Keeps.trans ?_ (State.fsat_keeps _ _ _ _)
  exact Keeps.refl _

theorem State.moveQueue_keeps (s : State) (d c : Nat) : Keeps 0x2000001000 s (State.moveQueue s d c) := by
  unfold State.moveQueue
  extract_lets +onlyGivenNames x0
  extract_lets +onlyGivenNames x1
  refine Keeps.ite ?_ ?_
  · exact Keeps.refl _
  · refine Keeps.trans ?_ (State.queueDepth_keeps _ _)
    refine Keeps.trans ?_ (State.modWkt_keeps _ _ _)
    exact Keeps.refl _

theorem State.failTask_keeps (s : State) (d : Nat) (k : WTask) : Keeps 0x44080E9 s (State.failTask s d k) := by
  unfold State.failTask
  extract_lets +onlyGivenNames x0
  refine Keeps.cut (b := x0) ?_ ?_
  · unfold x0
    split
    · rename_i z1 z2 z3
      refine Keeps.trans ?_ (State.completeKey_keeps _ _ _ _ _)
      exact Keeps.refl _
    · rename_i z4 z5
      exact Keeps.refl _
  intro k6
  clear_value x0
  split
  · rename_i z7 z8
    exact k6
  · rename_i z9 z10 z11
    split
    · rename_i z12 z13
      exact k6
    · rename_i z14 z15 z16
      refine Keeps.trans ?_ (State.failRecs_keeps _ _ _ _ _)
      exact k6

theorem State.restartTask_keeps (s : State) (d w : Nat) : Keeps 0x20064091E9 s (State.restartTask s d w) := by
  unfold State.restartTask
  split
  · rename_i z0 z1
    exact Keeps.refl _
  · rename_i z2 z3 z4
    extract_lets +onlyGivenNames x5
    refine Keeps.cut (b := x5) ?_ ?_
    · unfold x5
      refine Keeps.trans ?_ (State.modWkt_keeps _ _ _)
      exact Keeps.refl _
    intro k6
    clear_value x5
    extract_lets +onlyGivenNames x7
    refine Keeps.cut (b := x7) ?_ ?_
    · unfold x7
      refine Keeps.ite ?_ ?_
      · refine Keeps.trans ?_ (State.closeHolder_keeps _ _ _)
        exact k6
      · exact k6
    intro k8
    clear_value x7
    refine Keeps.ite ?_ ?_
    · refine Keeps.trans ?_ (State.failTask_keeps _ _ _)
      exact k8
    · extract_lets +onlyGivenNames x9
      extract_lets +onlyGivenNames x10
      refine Keeps.cut (b := x10) ?_ ?_
      · unfold x10
        refine Keeps.trans ?_ (State.modWkt_keeps _ _ _)
        exact k8
      intro k11
      clear_value x10
      refine Keeps.trans ?_ (State.queueDepth_keeps _ _)
      refine Keeps.trans ?_ (State.fadd_keeps _ _ _ _)
      exact k11

theorem State.tasksOff_keeps (s : State) (k d i : Nat) : Keeps 0x20064091E9 s (State.tasksOff s k d i) := by
  unfold State.tasksOff
  refine Keeps.ite ?_ ?_
  · refine Keeps.trans ?_ (State.restartTask_keeps _ _ _)
    exact Keeps.refl _
  · refine Keeps.ite ?_ ?_
    · refine Keeps.trans ?_ (State.moveQueue_keeps _ _ _)
      exact Keeps.refl _
    · exact Keeps.refl _

theorem State.paneOn_keeps (s : State) (d i : Nat) : Keeps 0x20000080 s (State.paneOn s d i) := by
  unfold State.paneOn
  extract_lets +onlyGivenNames x0
  refine Keeps.cut (b := x0) ?_ ?_
  · unfold x0
    refine Keeps.trans ?_ (State.fputAt_keeps _ _ _ _ _)
    exact Keeps.refl _
  intro k1
  clear_value x0
  refine Keeps.ite ?_ ?_
  · exact k1
  · extract_lets +onlyGivenNames x2
    refine Keeps.trans ?_ (State.modCsm_keeps _ _ _)
    refine Keeps.trans ?_ (State.fputAt_keeps _ _ _ _ _)
    exact k1

theorem State.atmOn_keeps (s : State) (d i : Nat) : Keeps 0x60000080 s (State.atmOn s d i) := by
  unfold State.atmOn
  extract_lets +onlyGivenNames x0
  refine Keeps.cut (b := x0) ?_ ?_
  · unfold x0
    refine Keeps.trans ?_ (State.fputAt_keeps _ _ _ _ _)
    exact Keeps.refl _
  intro k1
  clear_value x0
  refine Keeps.ite ?_ ?_
  · exact k1
  · extract_lets +onlyGivenNames x2
    refine Keeps.trans ?_ (State.modCsm_keeps _ _ _)
    refine Keeps.trans ?_ (State.fset_keeps _ _ _ _)
    refine Keeps.trans ?_ (State.fputAt_keeps _ _ _ _ _)
    exact k1

theorem State.unitEffect_keeps (s : State) (k d i new : Nat) : Keeps 0x7FFFFFBFEF s (State.unitEffect s k d i new) := by
  unfold State.unitEffect
  refine Keeps.ite ?_ ?_
  · refine Keeps.ite ?_ ?_
    · refine Keeps.trans ?_ (State.tasksOff_keeps _ _ _ _)
      exact Keeps.refl _
    · exact Keeps.refl _
  · refine Keeps.ite ?_ ?_
    · refine Keeps.ite ?_ ?_
      · refine Keeps.trans ?_ (State.paneOff_keeps _ _ _)
        exact Keeps.refl _
      · refine Keeps.ite ?_ ?_
        · refine Keeps.trans ?_ (State.paneOn_keeps _ _ _)
          exact Keeps.refl _
        · refine Keeps.trans ?_ (State.fputAt_keeps _ _ _ _ _)
          exact Keeps.refl _
    · refine Keeps.ite ?_ ?_
      · refine Keeps.ite ?_ ?_
        · refine Keeps.trans ?_ (State.atmOff_keeps _ _ _)
          exact Keeps.refl _
        · refine Keeps.ite ?_ ?_
          · refine Keeps.trans ?_ (State.atmOn_keeps _ _ _)
            exact Keeps.refl _
          · refine Keeps.trans ?_ (State.fputAt_keeps _ _ _ _ _)
            exact Keeps.refl _
      · refine Keeps.ite ?_ ?_
        · refine Keeps.ite ?_ ?_
          · refine Keeps.trans ?_ (State.stackOff_keeps _ _ _)
            exact Keeps.refl _
          · refine Keeps.ite ?_ ?_
            · refine Keeps.trans ?_ (State.fputAt_keeps _ _ _ _ _)
              exact Keeps.refl _
            · exact Keeps.refl _
        · refine Keeps.ite ?_ ?_
          · refine Keeps.ite ?_ ?_
            · refine Keeps.trans ?_ (State.chanOff_keeps _ _ _)
              exact Keeps.refl _
            · refine Keeps.ite ?_ ?_
              · refine Keeps.trans ?_ (State.roCheck_keeps _ _)
                refine Keeps.trans ?_ (State.fputAt_keeps _ _ _ _ _)
                exact Keeps.refl _
              · exact Keeps.refl _
          · refine Keeps.ite ?_ ?_
            · refine Keeps.ite ?_ ?_
              · refine Keeps.trans ?_ (State.fabricDown_keeps _ _)
                exact Keeps.refl _
              · exact Keeps.refl _
            · refine Keeps.ite ?_ ?_
              · refine Keeps.ite ?_ ?_
                · split
                  · rename_i z0 z1 z2
                    refine Keeps.trans ?_ (State.portOut_keeps _ _)
                    exact Keeps.refl _
                  · rename_i z3 z4
                    exact Keeps.refl _
                · exact Keeps.refl _
              · refine Keeps.ite ?_ ?_
                · refine Keeps.ite ?_ ?_
                  · refine Keeps.trans ?_ (State.loseDie_keeps _ _ _)
                    exact Keeps.refl _
                  · exact Keeps.refl _
                · refine Keeps.ite ?_ ?_
                  · refine Keeps.ite ?_ ?_
                    · refine Keeps.trans ?_ (State.loseDie_keeps _ _ _)
                      exact Keeps.refl _
                    · refine Keeps.trans ?_ (State.fset_keeps _ _ _ _)
                      exact Keeps.refl _
                  · exact Keeps.refl _

theorem State.setUnit_keeps (s : State) (k d i cause : Nat) (f : UnitRow → UnitRow) (w0 : Nat) : Keeps 0x7FFFFFBFEF s (State.setUnit s k d i cause f w0) := by
  induction w0 generalizing s k d i cause f with
  | zero =>
    unfold State.setUnit
    exact Keeps.refl _
  | succ n0 ih =>
    unfold State.setUnit
    refine Keeps.ite ?_ ?_
    · exact Keeps.refl _
    · extract_lets +onlyGivenNames x0
      extract_lets +onlyGivenNames x1
      extract_lets +onlyGivenNames x2
      extract_lets +onlyGivenNames x3
      refine Keeps.cut (b := x3) ?_ ?_
      · unfold x3
        refine Keeps.trans ?_ (State.modRow_keeps _ _ _ _ _)
        exact Keeps.refl _
      intro k4
      clear_value x3
      extract_lets +onlyGivenNames x5
      refine Keeps.ite ?_ ?_
      · exact k4
      · extract_lets +onlyGivenNames x6
        refine Keeps.cut (b := x6) ?_ ?_
        · unfold x6
          refine Keeps.trans ?_ (State.noteUnit_keeps _ _ _ _ _ _ _)
          exact k4
        intro k7
        clear_value x6
        extract_lets +onlyGivenNames x8
        refine Keeps.cut (b := x8) ?_ ?_
        · unfold x8
          refine Keeps.foldl _ _ (fun s9 y10 => ?_) ?_
          · extract_lets +onlyGivenNames x11
            refine Keeps.ite ?_ ?_
            · exact Keeps.refl _
            · extract_lets +onlyGivenNames x12
              refine Keeps.cut (b := x12) ?_ ?_
              · unfold x12
                refine Keeps.trans ?_ (State.noteUnit_keeps _ _ _ _ _ _ _)
                exact Keeps.refl _
              intro k13
              clear_value x12
              refine Keeps.ite ?_ ?_
              · refine Keeps.trans ?_ (State.tasksOff_keeps _ _ _ _)
                exact k13
              · exact k13
          · exact k7
        intro k14
        clear_value x8
        extract_lets +onlyGivenNames x15
        refine Keeps.cut (b := x15) ?_ ?_
        · unfold x15
          refine Keeps.trans ?_ (State.unitEffect_keeps _ _ _ _ _)
          exact k14
        intro k16
        clear_value x15
        refine Keeps.ite ?_ ?_
        · exact k16
        · refine Keeps.ite ?_ ?_
          · extract_lets +onlyGivenNames x17
            refine Keeps.ite ?_ ?_
            · refine Keeps.ite ?_ ?_
              · refine Keeps.trans ?_ (State.fadd_keeps _ _ _ _)
                exact k16
              · refine Keeps.tr ?_ (ih _ _ _ _ _ _)
                exact k16
            · exact k16
          · refine Keeps.ite ?_ ?_
            · extract_lets +onlyGivenNames x18
              refine Keeps.ite ?_ ?_
              · refine Keeps.ite ?_ ?_
                · refine Keeps.trans ?_ (State.fadd_keeps _ _ _ _)
                  exact k16
                · refine Keeps.tr ?_ (ih _ _ _ _ _ _)
                  exact k16
              · exact k16
            · refine Keeps.ite ?_ ?_
              · extract_lets +onlyGivenNames x19
                refine Keeps.cut (b := x19) ?_ ?_
                · unfold x19
                  refine Keeps.tr ?_ (ih _ _ _ _ _ _)
                  exact k16
                intro k20
                clear_value x19
                refine Keeps.ite ?_ ?_
                · refine Keeps.trans ?_ (State.loseDie_keeps _ _ _)
                  exact k20
                · exact k20
              · exact k16

theorem State.hwFence_keeps (s : State) (k d i : Nat) : Keeps 0x7FFFFFBFEF s (State.hwFence s k d i) := by
  unfold State.hwFence
  refine Keeps.ite ?_ ?_
  · refine Keeps.trans ?_ (State.fadd_keeps _ _ _ _)
    exact Keeps.refl _
  · refine Keeps.trans ?_ (State.setUnit_keeps _ _ _ _ _ _ _)
    exact Keeps.refl _

theorem State.report_keeps (s : State) (k d i : Nat) (mgmt : Bool) (v : Nat) : Keeps 0x7FFFFFBFEF s (State.report s k d i mgmt v) := by
  unfold State.report
  refine Keeps.ite ?_ ?_
  · refine Keeps.trans ?_ (State.fadd_keeps _ _ _ _)
    exact Keeps.refl _
  · refine Keeps.ite ?_ ?_
    · refine Keeps.trans ?_ (State.setUnit_keeps _ _ _ _ _ _ _)
      exact Keeps.refl _
    · refine Keeps.trans ?_ (State.setUnit_keeps _ _ _ _ _ _ _)
      exact Keeps.refl _

theorem State.logTest_keeps (s : State) (k d i code : Nat) : Keeps 0x8040000 s (State.logTest s k d i code) := by
  unfold State.logTest
  extract_lets +onlyGivenNames x0
  refine Keeps.trans ?_ (State.fset_keeps _ _ _ _)
  refine Keeps.svc ?_ _
  exact Keeps.refl _

theorem State.testOutcome_keeps (s : State) (k d i : Nat) (disputed : Bool) (code : Nat) : Keeps 0x7FFFFFBFEF s (State.testOutcome s k d i disputed code) := by
  unfold State.testOutcome
  extract_lets +onlyGivenNames x0
  extract_lets +onlyGivenNames x1
  extract_lets +onlyGivenNames x2
  extract_lets +onlyGivenNames x3
  extract_lets +onlyGivenNames x4
  refine Keeps.cut (b := x4) ?_ ?_
  · unfold x4
    refine Keeps.trans ?_ (State.logTest_keeps _ _ _ _ _)
    exact Keeps.refl _
  intro k5
  clear_value x4
  extract_lets +onlyGivenNames x6
  refine Keeps.cut (b := x6) ?_ ?_
  · unfold x6
    refine Keeps.trans ?_ (State.setUnit_keeps _ _ _ _ _ _ _)
    exact k5
  intro k7
  clear_value x6
  extract_lets +onlyGivenNames x8
  refine Keeps.cut (b := x8) ?_ ?_
  · unfold x8
    refine Keeps.ite ?_ ?_
    · refine Keeps.trans ?_ (State.modRow_keeps _ _ _ _ _)
      exact k7
    · exact k7
  intro k9
  clear_value x8
  refine Keeps.ite ?_ ?_
  · extract_lets +onlyGivenNames x10
    refine Keeps.cut (b := x10) ?_ ?_
    · unfold x10
      refine Keeps.ite ?_ ?_
      · refine Keeps.trans ?_ (State.fadd_keeps _ _ _ _)
        exact k9
      · refine Keeps.trans ?_ (State.fadd_keeps _ _ _ _)
        exact k9
    intro k11
    clear_value x10
    refine Keeps.trans ?_ (State.dieEvent_keeps _ _ _ _)
    refine Keeps.trans ?_ (State.evtPkg_keeps _ _)
    exact k11
  · exact k9

end Sys2Proof.Machine
end

