-- ==== Sys2Proof/Laws/KeepsCasement.lean ====
section
/-!
SUPPORT. Sys2Proof/Laws/KeepsCasement.lean: each operation of Machine/Casement.lean keeps what `Keeps` says, with the parts of the state it may
touch.
-/
namespace Sys2Proof.Machine
set_option Elab.async false

theorem State.powerTo_keeps (s : State) (d st cause : Nat) : Keeps 0x4000408049 s (State.powerTo s d st cause) := by
  unfold State.powerTo
  extract_lets +onlyGivenNames x0
  refine Keeps.ite ?_ ?_
  · exact Keeps.refl _
  · refine Keeps.trans ?_ (State.dieEvent_keeps _ _ _ _)
    refine Keeps.trans ?_ (State.evtDie_keeps _ _ _)
    refine Keeps.trans ?_ (State.fset_keeps _ _ _ _)
    exact Keeps.refl _

theorem State.returnUnits_keeps (s : State) (d : Nat) : Keeps 0x80 s (State.returnUnits s d) := by
  unfold State.returnUnits
  refine Keeps.trans ?_ (State.modCsm_keeps _ _ _)
  exact Keeps.refl _

theorem State.settleFences_keeps (s : State) (d : Nat) : Keeps 0x7FFFFFBFEF s (State.settleFences s d) := by
  unfold State.settleFences
  refine Keeps.ite ?_ ?_
  · exact Keeps.refl _
  · extract_lets +onlyGivenNames x0
    extract_lets +onlyGivenNames x1
    refine Keeps.cut (b := x1) ?_ ?_
    · unfold x1
      refine Keeps.foldl _ _ (fun s2 y3 => ?_) ?_
      · unfold x0
        refine Keeps.trans ?_ (State.setUnit_keeps _ _ _ _ _ _ _)
        exact Keeps.refl _
      · exact Keeps.refl _
    intro k4
    clear_value x1
    refine Keeps.foldl _ _ (fun s5 y6 => ?_) ?_
    · unfold x0
      refine Keeps.trans ?_ (State.setUnit_keeps _ _ _ _ _ _ _)
      exact Keeps.refl _
    · exact k4

theorem State.startSweep_keeps (s : State) (d : Nat) (w : Sweep) : Keeps 0x4024C080C9 s (State.startSweep s d w) := by
  unfold State.startSweep
  extract_lets +onlyGivenNames x0
  refine Keeps.cut (b := x0) ?_ ?_
  · unfold x0
    refine Keeps.ite ?_ ?_
    · refine Keeps.trans ?_ (State.fadd_keeps _ _ _ _)
      refine Keeps.trans ?_ (State.powerTo_keeps _ _ _ _)
      exact Keeps.refl _
    · exact Keeps.refl _
  intro k1
  clear_value x0
  extract_lets +onlyGivenNames x2
  extract_lets +onlyGivenNames x3
  refine Keeps.cut (b := x3) ?_ ?_
  · unfold x3
    refine Keeps.ite ?_ ?_
    · refine Keeps.trans ?_ (State.fadd_keeps _ _ _ _)
      exact k1
    · exact k1
  intro k4
  clear_value x3
  extract_lets +onlyGivenNames x5
  refine Keeps.cut (b := x5) ?_ ?_
  · unfold x5
    refine Keeps.trans ?_ (State.returnUnits_keeps _ _)
    exact k4
  intro k6
  clear_value x5
  extract_lets +onlyGivenNames x7
  refine Keeps.cut (b := x7) ?_ ?_
  · unfold x7
    refine Keeps.trans ?_ (State.modCsm_keeps _ _ _)
    exact k6
  intro k8
  clear_value x7
  extract_lets +onlyGivenNames x9
  refine Keeps.cut (b := x9) ?_ ?_
  · unfold x9
    refine Keeps.trans ?_ (State.modSweep_keeps _ _ _ _)
    exact k8
  intro k10
  clear_value x9
  extract_lets +onlyGivenNames x11
  refine Keeps.cut (b := x11) ?_ ?_
  · unfold x11
    refine Keeps.trans ?_ (State.fset_keeps _ _ _ _)
    refine Keeps.trans ?_ (State.fset_keeps _ _ _ _)
    refine Keeps.trans ?_ (State.fset_keeps _ _ _ _)
    exact k10
  intro k12
  clear_value x11
  extract_lets +onlyGivenNames x13
  refine Keeps.cut (b := x13) ?_ ?_
  · unfold x13
    refine Keeps.trans ?_ (State.fset_keeps _ _ _ _)
    refine Keeps.trans ?_ (State.fset_keeps _ _ _ _)
    exact k12
  intro k14
  clear_value x13
  refine Keeps.trans ?_ (State.lastTile_keeps _ _ _)
  refine Keeps.trans ?_ (State.pinPlan_keeps _ _ _)
  refine Keeps.trans ?_ (State.pmc_keeps _ _ _ _ _ _)
  refine Keeps.trans ?_ (State.fsat_keeps _ _ _ _)
  exact k14

theorem execSweepStart_keeps (d t : Nat) (s : State) : KNext 0x7FFFFFBFFF s (execSweepStart d t s) := by
  unfold execSweepStart
  extract_lets +onlyGivenNames x0
  refine KNext.cut (b := x0) ?_ ?_
  · unfold x0
    refine Keeps.trans ?_ (State.settleFences_keeps _ _)
    refine Keeps.trans ?_ (State.advanceTo_keeps _ _)
    exact Keeps.refl _
  intro k1
  clear_value x0
  refine KNext.ite ?_ ?_
  · refine KNext.mk ?_
    exact k1
  · split
    · rename_i z2 z3 z4
      refine KNext.mk ?_
      refine Keeps.trans ?_ (State.startSweep_keeps _ _ _)
      exact k1
    · rename_i z5 z6
      refine KNext.mk ?_
      exact k1

theorem State.countSkips_keeps (s : State) (d : Nat) (w : Sweep) : Keeps 0x24008008 s (State.countSkips s d w) := by
  unfold State.countSkips
  extract_lets +onlyGivenNames x0
  refine Keeps.trans ?_ (State.pmc_keeps _ _ _ _ _ _)
  refine Keeps.trans ?_ (State.fadd_keeps _ _ _ _)
  exact Keeps.refl _

theorem State.makePlan_keeps (s : State) (d : Nat) (w : Sweep) : Keeps 0x24008088 s (State.makePlan s d w) := by
  unfold State.makePlan
  extract_lets +onlyGivenNames x0
  extract_lets +onlyGivenNames x1
  extract_lets +onlyGivenNames x2
  extract_lets +onlyGivenNames x3
  extract_lets +onlyGivenNames x4
  refine Keeps.cut (b := x4) ?_ ?_
  · unfold x4
    refine Keeps.trans ?_ (State.modSweep_keeps _ _ _ _)
    exact Keeps.refl _
  intro k5
  clear_value x4
  extract_lets +onlyGivenNames x6
  refine Keeps.cut (b := x6) ?_ ?_
  · unfold x6
    refine Keeps.ite ?_ ?_
    · refine Keeps.trans ?_ (State.countSkips_keeps _ _ _)
      exact k5
    · exact k5
  intro k7
  clear_value x6
  refine Keeps.trans ?_ (State.lastTile_keeps _ _ _)
  refine Keeps.trans ?_ (State.pinPlan_keeps _ _ _)
  exact k7

theorem execPlanComplete_keeps (d sweep : Nat) (s : State) : KNext 0x24008088 s (execPlanComplete d sweep s) := by
  unfold execPlanComplete
  split
  · rename_i z0 z1 z2
    refine KNext.mk ?_
    refine Keeps.ite ?_ ?_
    · exact Keeps.refl _
    · refine Keeps.trans ?_ (State.makePlan_keeps _ _ _)
      exact Keeps.refl _
  · rename_i z3 z4
    refine KNext.mk ?_
    exact Keeps.refl _

theorem State.recGrad_keeps (s : State) (d : Nat) (c : Ctx) (b : PlanBlk) (r : SweepRec) : Keeps 0x80 s (State.recGrad s d c b r) := by
  unfold State.recGrad
  extract_lets +onlyGivenNames x0
  refine Keeps.ite ?_ ?_
  · split
    · rename_i z1 z2
      exact Keeps.refl _
    · rename_i z3 z4 z5
      refine Keeps.ite ?_ ?_
      · exact Keeps.refl _
      · extract_lets +onlyGivenNames x6
        refine Keeps.trans ?_ (State.modCsm_keeps _ _ _)
        exact Keeps.refl _
  · exact Keeps.refl _

theorem State.commitBlk_keeps (s : State) (d id : Nat) (b : PlanBlk) (rest : List PlanBlk) : Keeps 0x80 s (State.commitBlk s d id b rest) := by
  unfold State.commitBlk
  split
  · rename_i z0 z1
    exact Keeps.refl _
  · rename_i z2 z3 z4
    extract_lets +onlyGivenNames x5
    extract_lets +onlyGivenNames x6
    refine Keeps.cut (b := x6) ?_ ?_
    · unfold x6
      refine Keeps.foldl _ _ (fun s7 y8 => ?_) ?_
      · refine Keeps.trans ?_ (State.modRec_keeps _ _ _ _ _)
        exact Keeps.refl _
      · exact Keeps.refl _
    intro k9
    clear_value x6
    extract_lets +onlyGivenNames x10
    refine Keeps.cut (b := x10) ?_ ?_
    · unfold x10
      refine Keeps.foldl _ _ (fun s11 y12 => ?_) ?_
      · split
        · rename_i z13 z14 z15
          refine Keeps.trans ?_ (State.recGrad_keeps _ _ _ _ _)
          exact Keeps.refl _
        · rename_i z16 z17
          exact Keeps.refl _
      · exact k9
    intro k18
    clear_value x10
    extract_lets +onlyGivenNames x19
    refine Keeps.cut (b := x19) ?_ ?_
    · unfold x19
      refine Keeps.trans ?_ (State.modSweep_keeps _ _ _ _)
      exact k18
    intro k20
    clear_value x19
    refine Keeps.trans ?_ (State.modCsm_keeps _ _ _)
    exact k20

theorem State.commitFront_keeps (s : State) (d id : Nat) (w0 : List PlanBlk) : KSnd 0x80 s (State.commitFront s d id w0) := by
  induction w0 generalizing s d id with
  | nil =>
    unfold State.commitFront
    refine KSnd.mk ?_
    exact Keeps.refl _
  | cons hd0 tl0 ih =>
    unfold State.commitFront
    refine KSnd.ite ?_ ?_
    · split
      · rename_i z0 z1 z2 z3
        refine KSnd.cut (b := z2) ?_ ?_
        · refine KSnd.eq z3 ?_
          refine KSnd.tr ?_ (ih _ _ _)
          exact Keeps.refl _
        intro k4
        refine KSnd.mk ?_
        exact k4
    · split
      · rename_i z5 z6
        refine KSnd.mk ?_
        exact Keeps.refl _
      · rename_i z7 z8 z9
        refine KSnd.ite ?_ ?_
        · split
          · rename_i z10 z11 z12 z13
            refine KSnd.cut (b := z12) ?_ ?_
            · refine KSnd.eq z13 ?_
              refine KSnd.tr ?_ (ih _ _ _)
              refine Keeps.trans ?_ (State.commitBlk_keeps _ _ _ _ _)
              exact Keeps.refl _
            intro k14
            refine KSnd.mk ?_
            exact k14
        · refine KSnd.mk ?_
          exact Keeps.refl _

theorem State.selectAll_keeps (s : State) (d id : Nat) : Keeps 0x24008088 s (State.selectAll s d id) := by
  unfold State.selectAll
  split
  · rename_i z0 z1
    exact Keeps.refl _
  · rename_i z2 z3 z4
    extract_lets +onlyGivenNames x5
    extract_lets +onlyGivenNames x6
    split
    · rename_i z7 z8 z9 z10
      extract_lets +onlyGivenNames x11
      refine Keeps.trans ?_ (State.pinPlan_keeps _ _ _)
      refine Keeps.trans ?_ (State.countSkips_keeps _ _ _)
      refine Keeps.trans ?_ (State.modSweep_keeps _ _ _ _)
      exact Keeps.refl _

theorem State.advanceSweep_keeps (s : State) (d id : Nat) : Keeps 0x7FFFFFBFEF s (State.advanceSweep s d id) := by
  unfold State.advanceSweep
  extract_lets +onlyGivenNames x0
  refine Keeps.trans ?_ (State.settleFences_keeps _ _)
  refine Keeps.trans ?_ (State.gradSettle_keeps _ _)
  refine Keeps.trans ?_ (State.lastTile_keeps _ _ _)
  refine Keeps.trans ?_ (State.modSweep_keeps _ _ _ _)
  unfold x0
  split
  · rename_i z1 z2
    split
    · rename_i z3 z4
      exact Keeps.refl _
    · rename_i z5 z6 z7
      refine Keeps.ite ?_ ?_
      · exact Keeps.refl _
      · refine Keeps.ite ?_ ?_
        · split
          · rename_i z8 z9 z10 z11
            refine Keeps.cut (b := z10) ?_ ?_
            · refine KSnd.eq z11 ?_
              refine KSnd.trans ?_ (State.commitFront_keeps _ _ _ _)
              exact Keeps.refl _
            intro k12
            extract_lets +onlyGivenNames x13
            refine Keeps.cut (b := x13) ?_ ?_
            · unfold x13
              refine Keeps.trans ?_ (State.modSweep_keeps _ _ _ _)
              exact k12
            intro k14
            clear_value x13
            refine Keeps.ite ?_ ?_
            · refine Keeps.trans ?_ (State.selectAll_keeps _ _ _)
              exact k14
            · exact k14
        · split
          · rename_i z15 z16 z17 z18
            refine Keeps.cut (b := z17) ?_ ?_
            · refine KSnd.eq z18 ?_
              refine KSnd.trans ?_ (State.commitFront_keeps _ _ _ _)
              exact Keeps.refl _
            intro k19
            refine Keeps.trans ?_ (State.modSweep_keeps _ _ _ _)
            exact k19
  · rename_i z20 z21 z22
    refine Keeps.ite ?_ ?_
    · split
      · rename_i z23 z24
        exact Keeps.refl _
      · rename_i z25 z26 z27
        refine Keeps.ite ?_ ?_
        · exact Keeps.refl _
        · refine Keeps.ite ?_ ?_
          · split
            · rename_i z28 z29 z30 z31
              refine Keeps.cut (b := z30) ?_ ?_
              · refine KSnd.eq z31 ?_
                refine KSnd.trans ?_ (State.commitFront_keeps _ _ _ _)
                exact Keeps.refl _
              intro k32
              extract_lets +onlyGivenNames x33
              refine Keeps.cut (b := x33) ?_ ?_
              · unfold x33
                refine Keeps.trans ?_ (State.modSweep_keeps _ _ _ _)
                exact k32
              intro k34
              clear_value x33
              refine Keeps.ite ?_ ?_
              · refine Keeps.trans ?_ (State.selectAll_keeps _ _ _)
                exact k34
              · exact k34
          · split
            · rename_i z35 z36 z37 z38
              refine Keeps.cut (b := z37) ?_ ?_
              · refine KSnd.eq z38 ?_
                refine KSnd.trans ?_ (State.commitFront_keeps _ _ _ _)
                exact Keeps.refl _
              intro k39
              refine Keeps.trans ?_ (State.modSweep_keeps _ _ _ _)
              exact k39
    · refine Keeps.ite ?_ ?_
      · split
        · rename_i z40 z41 z42 z43
          refine Keeps.cut (b := z42) ?_ ?_
          · refine KSnd.eq z43 ?_
            refine KSnd.trans ?_ (State.commitFront_keeps _ _ _ _)
            split
            · rename_i z44 z45
              exact Keeps.refl _
            · rename_i z46 z47 z48
              refine Keeps.ite ?_ ?_
              · exact Keeps.refl _
              · refine Keeps.ite ?_ ?_
                · split
                  · rename_i z49 z50 z51 z52
                    refine Keeps.cut (b := z51) ?_ ?_
                    · refine KSnd.eq z52 ?_
                      refine KSnd.trans ?_ (State.commitFront_keeps _ _ _ _)
                      exact Keeps.refl _
                    intro k53
                    extract_lets +onlyGivenNames x54
                    refine Keeps.cut (b := x54) ?_ ?_
                    · unfold x54
                      refine Keeps.trans ?_ (State.modSweep_keeps _ _ _ _)
                      exact k53
                    intro k55
                    clear_value x54
                    refine Keeps.ite ?_ ?_
                    · refine Keeps.trans ?_ (State.selectAll_keeps _ _ _)
                      exact k55
                    · exact k55
                · split
                  · rename_i z56 z57 z58 z59
                    refine Keeps.cut (b := z58) ?_ ?_
                    · refine KSnd.eq z59 ?_
                      refine KSnd.trans ?_ (State.commitFront_keeps _ _ _ _)
                      exact Keeps.refl _
                    intro k60
                    refine Keeps.trans ?_ (State.modSweep_keeps _ _ _ _)
                    exact k60
          intro k61
          extract_lets +onlyGivenNames x62
          refine Keeps.cut (b := x62) ?_ ?_
          · unfold x62
            refine Keeps.trans ?_ (State.modSweep_keeps _ _ _ _)
            exact k61
          intro k63
          clear_value x62
          refine Keeps.ite ?_ ?_
          · refine Keeps.trans ?_ (State.selectAll_keeps _ _ _)
            exact k63
          · exact k63
      · split
        · rename_i z64 z65 z66 z67
          refine Keeps.cut (b := z66) ?_ ?_
          · refine KSnd.eq z67 ?_
            refine KSnd.trans ?_ (State.commitFront_keeps _ _ _ _)
            split
            · rename_i z68 z69
              exact Keeps.refl _
            · rename_i z70 z71 z72
              refine Keeps.ite ?_ ?_
              · exact Keeps.refl _
              · refine Keeps.ite ?_ ?_
                · split
                  · rename_i z73 z74 z75 z76
                    refine Keeps.cut (b := z75) ?_ ?_
                    · refine KSnd.eq z76 ?_
                      refine KSnd.trans ?_ (State.commitFront_keeps _ _ _ _)
                      exact Keeps.refl _
                    intro k77
                    extract_lets +onlyGivenNames x78
                    refine Keeps.cut (b := x78) ?_ ?_
                    · unfold x78
                      refine Keeps.trans ?_ (State.modSweep_keeps _ _ _ _)
                      exact k77
                    intro k79
                    clear_value x78
                    refine Keeps.ite ?_ ?_
                    · refine Keeps.trans ?_ (State.selectAll_keeps _ _ _)
                      exact k79
                    · exact k79
                · split
                  · rename_i z80 z81 z82 z83
                    refine Keeps.cut (b := z82) ?_ ?_
                    · refine KSnd.eq z83 ?_
                      refine KSnd.trans ?_ (State.commitFront_keeps _ _ _ _)
                      exact Keeps.refl _
                    intro k84
                    refine Keeps.trans ?_ (State.modSweep_keeps _ _ _ _)
                    exact k84
          intro k85
          refine Keeps.trans ?_ (State.modSweep_keeps _ _ _ _)
          exact k85

theorem State.stackUe_keeps (s : State) (d k : Nat) : Keeps 0x7FFFFFBFEF s (State.stackUe s d k) := by
  unfold State.stackUe
  extract_lets +onlyGivenNames x0
  extract_lets +onlyGivenNames x1
  extract_lets +onlyGivenNames x2
  extract_lets +onlyGivenNames x3
  refine Keeps.cut (b := x3) ?_ ?_
  · unfold x3
    refine Keeps.ras ?_ _
    exact Keeps.refl _
  intro k4
  clear_value x3
  refine Keeps.ite ?_ ?_
  · refine Keeps.trans ?_ (State.hwFence_keeps _ _ _ _)
    exact k4
  · exact k4

theorem State.noteUe_keeps (s : State) (d mem unit addr : Nat) : Keeps 0x7FFFFFBFEF s (State.noteUe s d mem unit addr) := by
  unfold State.noteUe
  extract_lets +onlyGivenNames x0
  refine Keeps.cut (b := x0) ?_ ?_
  · unfold x0
    refine Keeps.ite ?_ ?_
    · refine Keeps.trans ?_ (State.fadd_keeps _ _ _ _)
      exact Keeps.refl _
    · refine Keeps.ite ?_ ?_
      · refine Keeps.trans ?_ (State.fadd_keeps _ _ _ _)
        exact Keeps.refl _
      · refine Keeps.trans ?_ (State.fadd_keeps _ _ _ _)
        exact Keeps.refl _
  intro k1
  clear_value x0
  extract_lets +onlyGivenNames x2
  refine Keeps.cut (b := x2) ?_ ?_
  · unfold x2
    refine Keeps.trans ?_ (State.evtPkg_keeps _ _)
    exact k1
  intro k3
  clear_value x2
  extract_lets +onlyGivenNames x4
  refine Keeps.cut (b := x4) ?_ ?_
  · unfold x4
    refine Keeps.ite ?_ ?_
    · refine Keeps.trans ?_ (State.stackUe_keeps _ _ _)
      exact k3
    · exact k3
  intro k5
  clear_value x4
  extract_lets +onlyGivenNames x6
  extract_lets +onlyGivenNames x7
  extract_lets +onlyGivenNames x8
  refine Keeps.ite ?_ ?_
  · unfold x8
    refine Keeps.ras ?_ _
    exact k5
  · refine Keeps.trans ?_ (State.dieEvent_keeps _ _ _ _)
    unfold x8
    refine Keeps.ras ?_ _
    exact k5

theorem State.ueTick_keeps (s : State) (d : Nat) : Keeps 0x418041 s (State.ueTick s d) := by
  unfold State.ueTick
  extract_lets +onlyGivenNames x0
  extract_lets +onlyGivenNames x1
  refine Keeps.ite ?_ ?_
  · unfold x1
    refine Keeps.ras ?_ _
    exact Keeps.refl _
  · refine Keeps.trans ?_ (State.dieEvent_keeps _ _ _ _)
    unfold x1
    refine Keeps.ras ?_ _
    exact Keeps.refl _

theorem State.retire_keeps (s : State) (d seg : Nat) : Keeps 0x2010121 s (State.retire s d seg) := by
  unfold State.retire
  refine Keeps.ite ?_ ?_
  · exact Keeps.refl _
  · extract_lets +onlyGivenNames x0
    extract_lets +onlyGivenNames x1
    refine Keeps.cut (b := x1) ?_ ?_
    · unfold x1
      refine Keeps.ras ?_ _
      exact Keeps.refl _
    intro k2
    clear_value x1
    extract_lets +onlyGivenNames x3
    refine Keeps.cut (b := x3) ?_ ?_
    · unfold x3
      refine Keeps.trans ?_ (State.modPfx_keeps _ _ _)
      exact k2
    intro k4
    clear_value x3
    refine Keeps.trans ?_ (State.evtPkg_keeps _ _)
    refine Keeps.trans ?_ (State.fadd_keeps _ _ _ _)
    exact k4

theorem State.startRebuild_keeps (s : State) (d page atm : Nat) : Keeps 0x40000180 s (State.startRebuild s d page atm) := by
  unfold State.startRebuild
  split
  · rename_i z0 z1
    exact Keeps.refl _
  · rename_i z2 z3 z4
    refine Keeps.ite ?_ ?_
    · extract_lets +onlyGivenNames x5
      refine Keeps.cut (b := x5) ?_ ?_
      · unfold x5
        refine Keeps.trans ?_ (State.modPage_keeps _ _ _ _)
        exact Keeps.refl _
      intro k6
      clear_value x5
      extract_lets +onlyGivenNames x7
      refine Keeps.cut (b := x7) ?_ ?_
      · unfold x7
        refine Keeps.trans ?_ (State.modCsm_keeps _ _ _)
        exact k6
      intro k8
      clear_value x7
      refine Keeps.trans ?_ (State.fsat_keeps _ _ _ _)
      exact k8
    · exact Keeps.refl _

theorem State.chargeAtm_keeps (s : State) (d a : Nat) : Keeps 0x7FFFFFBFEF s (State.chargeAtm s d a) := by
  unfold State.chargeAtm
  refine Keeps.ite ?_ ?_
  · exact Keeps.refl _
  · extract_lets +onlyGivenNames x0
    extract_lets +onlyGivenNames x1
    refine Keeps.cut (b := x1) ?_ ?_
    · unfold x1
      refine Keeps.trans ?_ (State.fadd_keeps _ _ _ _)
      exact Keeps.refl _
    intro k2
    clear_value x1
    extract_lets +onlyGivenNames x3
    refine Keeps.ite ?_ ?_
    · refine Keeps.trans ?_ (State.hwFence_keeps _ _ _ _)
      refine Keeps.ite ?_ ?_
      · exact k2
      · refine Keeps.trans ?_ (State.evtDie_keeps _ _ _)
        exact k2
    · exact k2

theorem State.failUsers_keeps (s : State) (d id : Nat) (b : PlanBlk) : Keeps 0x40000080 s (State.failUsers s d id b) := by
  unfold State.failUsers
  split
  · rename_i z0 z1
    exact Keeps.refl _
  · rename_i z2 z3 z4
    extract_lets +onlyGivenNames x5
    refine Keeps.trans ?_ (State.fadd_keeps _ _ _ _)
    refine Keeps.trans ?_ (State.failRecs_keeps _ _ _ _ _)
    exact Keeps.refl _

theorem State.modBlk_keeps (s : State) (d id : Nat) (b : PlanBlk) (f : PlanBlk → PlanBlk) : Keeps 0x80 s (State.modBlk s d id b f) := by
  unfold State.modBlk
  extract_lets +onlyGivenNames x0
  refine Keeps.trans ?_ (State.modSweep_keeps _ _ _ _)
  exact Keeps.refl _

theorem State.ueBlock_keeps (s : State) (d id : Nat) (b : PlanBlk) (addr : Nat) : Keeps 0x7FFFFFBFEF s (State.ueBlock s d id b addr) := by
  unfold State.ueBlock
  extract_lets +onlyGivenNames x0
  refine Keeps.cut (b := x0) ?_ ?_
  · unfold x0
    refine Keeps.trans ?_ (State.retire_keeps _ _ _)
    refine Keeps.trans ?_ (State.noteUe_keeps _ _ _ _ _)
    exact Keeps.refl _
  intro k1
  clear_value x0
  extract_lets +onlyGivenNames x2
  refine Keeps.cut (b := x2) ?_ ?_
  · unfold x2
    refine Keeps.trans ?_ (State.modBlk_keeps _ _ _ _ _)
    refine Keeps.trans ?_ (State.failUsers_keeps _ _ _ _)
    exact k1
  intro k3
  clear_value x2
  refine Keeps.ite ?_ ?_
  · split
    · rename_i z4 z5
      exact k3
    · rename_i z6 z7 z8
      refine Keeps.ite ?_ ?_
      · refine Keeps.trans ?_ (State.stageIn_keeps _ _ _ _)
        refine Keeps.trans ?_ (State.dropFrame_keeps _ _ _)
        exact k3
      · refine Keeps.trans ?_ (State.loseTail_keeps _ _ _)
        exact k3
  · refine Keeps.trans ?_ (State.startRebuild_keeps _ _ _ _)
    refine Keeps.trans ?_ (State.dropStore_keeps _ _ _)
    exact k3

theorem State.loadTables_keeps (s : State) (d : Nat) (w : Sweep) (page : Nat) (read : Option (List Byte)) : Keeps 0x80 s (State.loadTables s d w page read) := by
  unfold State.loadTables
  split
  · rename_i z0 z1
    exact Keeps.refl _
  · rename_i z2 z3 z4
    extract_lets +onlyGivenNames x5
    split
    · rename_i z6 z7 z8
      refine Keeps.trans ?_ (State.modCsm_keeps _ _ _)
      exact Keeps.refl _
    · rename_i z9 z10
      extract_lets +onlyGivenNames x11
      extract_lets +onlyGivenNames x12
      refine Keeps.cut (b := x12) ?_ ?_
      · unfold x12
        refine Keeps.trans ?_ (State.modCsm_keeps _ _ _)
        exact Keeps.refl _
      intro k13
      clear_value x12
      extract_lets +onlyGivenNames x14
      refine Keeps.ite ?_ ?_
      · exact k13
      · refine Keeps.trans ?_ (State.modSweep_keeps _ _ _ _)
        exact k13

theorem execBlockFetchDone_keeps (d page blk : Nat) (tab : Option (List Byte)) (ue : Option Nat) (s : State) : KNext 0x7FFFFFBFEF s (execBlockFetchDone d page blk tab ue s) := by
  unfold execBlockFetchDone
  split
  · rename_i z0 z1
    refine KNext.mk ?_
    exact Keeps.refl _
  · rename_i z2 z3 z4
    extract_lets +onlyGivenNames x5
    split
    · rename_i z6 z7
      refine KNext.mk ?_
      exact Keeps.refl _
    · rename_i z8 z9 z10
      refine KNext.ite ?_ ?_
      · refine KNext.mk ?_
        exact Keeps.refl _
      · extract_lets +onlyGivenNames x11
        extract_lets +onlyGivenNames x12
        refine KNext.cut (b := x12) ?_ ?_
        · unfold x12
          refine Keeps.trans ?_ (State.heatUp_keeps _ _ _)
          exact Keeps.refl _
        intro k13
        clear_value x12
        split
        · rename_i z14 z15
          refine KNext.mk ?_
          refine Keeps.trans ?_ (State.advanceSweep_keeps _ _ _)
          refine Keeps.trans ?_ (State.ueBlock_keeps _ _ _ _ _)
          exact k13
        · rename_i z16
          extract_lets +onlyGivenNames x17
          refine KNext.cut (b := x17) ?_ ?_
          · unfold x17
            refine Keeps.trans ?_ (State.pmc_keeps _ _ _ _ _ _)
            refine Keeps.trans ?_ (State.fadd_keeps _ _ _ _)
            exact k13
          intro k18
          clear_value x17
          extract_lets +onlyGivenNames x19
          refine KNext.cut (b := x19) ?_ ?_
          · unfold x19
            refine Keeps.ite ?_ ?_
            · refine Keeps.trans ?_ (State.pmc_keeps _ _ _ _ _ _)
              refine Keeps.trans ?_ (State.fadd_keeps _ _ _ _)
              exact k13
            · refine Keeps.trans ?_ (State.hbmRead_keeps _ _ _ _)
              exact k18
          intro k20
          clear_value x19
          extract_lets +onlyGivenNames x21
          refine KNext.cut (b := x21) ?_ ?_
          · unfold x21
            refine Keeps.ite ?_ ?_
            · exact k20
            · refine Keeps.trans ?_ (State.loadTables_keeps _ _ _ _ _)
              refine Keeps.trans ?_ (State.modCsm_keeps _ _ _)
              exact k20
          intro k22
          clear_value x21
          extract_lets +onlyGivenNames x23
          extract_lets +onlyGivenNames x24
          refine KNext.cut (b := x24) ?_ ?_
          · unfold x24
            refine Keeps.trans ?_ (State.modBlk_keeps _ _ _ _ _)
            exact k22
          intro k25
          clear_value x24
          extract_lets +onlyGivenNames x26
          refine KNext.cut (b := x26) ?_ ?_
          · unfold x26
            refine Keeps.foldl _ _ (fun s27 y28 => ?_) ?_
            · refine Keeps.trans ?_ (State.modRec_keeps _ _ _ _ _)
              exact Keeps.refl _
            · exact k25
          intro k29
          clear_value x26
          refine KNext.mk ?_
          refine Keeps.trans ?_ (State.advanceSweep_keeps _ _ _)
          exact k29

theorem State.releaseBlk_keeps (s : State) (d id : Nat) (c : Ctx) (b : PlanBlk) (ctx : Nat) (elems : Option (List Pos)) : Keeps 0x44008088 s (State.releaseBlk s d id c b ctx elems) := by
  unfold State.releaseBlk
  extract_lets +onlyGivenNames x0
  extract_lets +onlyGivenNames x1
  extract_lets +onlyGivenNames x2
  refine Keeps.cut (b := x2) ?_ ?_
  · unfold x2
    refine Keeps.trans ?_ (State.modCsm_keeps _ _ _)
    exact Keeps.refl _
  intro k3
  clear_value x2
  extract_lets +onlyGivenNames x4
  refine Keeps.cut (b := x4) ?_ ?_
  · unfold x4
    refine Keeps.ite ?_ ?_
    · refine Keeps.trans ?_ (State.fadd_keeps _ _ _ _)
      exact k3
    · exact k3
  intro k5
  clear_value x4
  extract_lets +onlyGivenNames x6
  refine Keeps.cut (b := x6) ?_ ?_
  · unfold x6
    refine Keeps.ite ?_ ?_
    · refine Keeps.trans ?_ (State.pmc_keeps _ _ _ _ _ _)
      refine Keeps.trans ?_ (State.fadd_keeps _ _ _ _)
      exact k3
    · refine Keeps.trans ?_ (State.pmc_keeps _ _ _ _ _ _)
      exact k5
  intro k7
  clear_value x6
  refine Keeps.trans ?_ (State.modBlk_keeps _ _ _ _ _)
  exact k7

theorem State.discardBlk_keeps (s : State) (d id : Nat) (b : PlanBlk) (pageCheck : Bool) : Keeps 0x7FFFFFBFEF s (State.discardBlk s d id b pageCheck) := by
  unfold State.discardBlk
  extract_lets +onlyGivenNames x0
  refine Keeps.cut (b := x0) ?_ ?_
  · unfold x0
    refine Keeps.trans ?_ (State.evtDie_keeps _ _ _)
    refine Keeps.trans ?_ (State.fadd_keeps _ _ _ _)
    exact Keeps.refl _
  intro k1
  clear_value x0
  extract_lets +onlyGivenNames x2
  refine Keeps.cut (b := x2) ?_ ?_
  · unfold x2
    refine Keeps.ite ?_ ?_
    · refine Keeps.trans ?_ (State.evtDie_keeps _ _ _)
      exact k1
    · exact k1
  intro k3
  clear_value x2
  extract_lets +onlyGivenNames x4
  refine Keeps.cut (b := x4) ?_ ?_
  · unfold x4
    refine Keeps.trans ?_ (State.modBlk_keeps _ _ _ _ _)
    refine Keeps.trans ?_ (State.failUsers_keeps _ _ _ _)
    exact k3
  intro k5
  clear_value x4
  refine Keeps.ite ?_ ?_
  · refine Keeps.trans ?_ (State.chargeAtm_keeps _ _ _)
    exact k5
  · refine Keeps.trans ?_ (State.startRebuild_keeps _ _ _ _)
    refine Keeps.trans ?_ (State.dropStore_keeps _ _ _)
    exact k5

theorem State.atmBoundary_keeps (s : State) (d a : Nat) : Keeps 0x7FFFFFBFEF s (State.atmBoundary s d a) := by
  unfold State.atmBoundary
  refine Keeps.ite ?_ ?_
  · refine Keeps.trans ?_ (State.setUnit_keeps _ _ _ _ _ _ _)
    exact Keeps.refl _
  · exact Keeps.refl _

theorem execBlockExpandDone_keeps (d page blk : Nat) (read : Option (List Byte)) (wait : Nat) (s : State) : KNext 0x7FFFFFBFEF s (execBlockExpandDone d page blk read wait s) := by
  unfold execBlockExpandDone
  split
  · rename_i z0 z1
    refine KNext.mk ?_
    exact Keeps.refl _
  · rename_i z2 z3 z4
    split
    · rename_i z5 z6
      refine KNext.mk ?_
      exact Keeps.refl _
    · rename_i z7 z8 z9
      refine KNext.ite ?_ ?_
      · refine KNext.mk ?_
        exact Keeps.refl _
      · extract_lets +onlyGivenNames x10
        extract_lets +onlyGivenNames x11
        refine KNext.cut (b := x11) ?_ ?_
        · unfold x11
          refine Keeps.trans ?_ (State.fadd_keeps _ _ _ _)
          exact Keeps.refl _
        intro k12
        clear_value x11
        extract_lets +onlyGivenNames x13
        refine KNext.cut (b := x13) ?_ ?_
        · unfold x13
          refine Keeps.ite ?_ ?_
          · refine Keeps.trans ?_ (State.modCsm_keeps _ _ _)
            refine Keeps.trans ?_ (State.evtDie_keeps _ _ _)
            exact k12
          · exact k12
        intro k14
        clear_value x13
        extract_lets +onlyGivenNames x15
        refine KNext.cut (b := x15) ?_ ?_
        · unfold x15
          split
          · rename_i z16 z17 z18
            refine Keeps.trans ?_ (State.releaseBlk_keeps _ _ _ _ _ _ _)
            exact k14
          · rename_i z19 z20 z21
            refine Keeps.trans ?_ (State.discardBlk_keeps _ _ _ _ _)
            exact k14
        intro k22
        clear_value x15
        refine KNext.mk ?_
        refine Keeps.trans ?_ (State.advanceSweep_keeps _ _ _)
        refine Keeps.trans ?_ (State.atmBoundary_keeps _ _ _)
        exact k22

theorem State.markTile_keeps (s : State) (d id : Nat) (b : PlanBlk) (head group n : Nat) : Keeps 0x80 s (State.markTile s d id b head group n) := by
  unfold State.markTile
  refine Keeps.ite ?_ ?_
  · refine Keeps.trans ?_ (State.modRec_keeps _ _ _ _ _)
    exact Keeps.refl _
  · refine Keeps.trans ?_ (State.modBlk_keeps _ _ _ _ _)
    exact Keeps.refl _

theorem State.rerunTile_keeps (s : State) (d id : Nat) (ctx : Nat) (recs : List Nat) (cycles : Nat) : Keeps 0x24008088 s (State.rerunTile s d id ctx recs cycles) := by
  unfold State.rerunTile
  extract_lets +onlyGivenNames x0
  refine Keeps.cut (b := x0) ?_ ?_
  · unfold x0
    refine Keeps.foldl _ _ (fun s1 y2 => ?_) ?_
    · refine Keeps.trans ?_ (State.modRec_keeps _ _ _ _ _)
      exact Keeps.refl _
    · exact Keeps.refl _
  intro k3
  clear_value x0
  refine Keeps.trans ?_ (State.pmc_keeps _ _ _ _ _ _)
  refine Keeps.trans ?_ (State.fadd_keeps _ _ _ _)
  exact k3

theorem State.setRetry_keeps (s : State) (d id : Nat) (x : TileRef) (e : Option (Nat × Nat)) : Keeps 0x80 s (State.setRetry s d id x e) := by
  unfold State.setRetry
  refine Keeps.trans ?_ (State.modSweep_keeps _ _ _ _)
  exact Keeps.refl _

theorem State.tileMismatch_keeps (s : State) (d pane : Nat) (w : Sweep) (x : TileRef) (inj : Bool) (cycles : Nat) : Keeps 0x7FFFFFBFEF s (State.tileMismatch s d pane w x inj cycles) := by
  unfold State.tileMismatch
  extract_lets +onlyGivenNames x0
  extract_lets +onlyGivenNames x1
  refine Keeps.cut (b := x1) ?_ ?_
  · unfold x1
    refine Keeps.trans ?_ (State.evtDie_keeps _ _ _)
    refine Keeps.trans ?_ (State.fadd_keeps _ _ _ _)
    exact Keeps.refl _
  intro k2
  clear_value x1
  refine Keeps.ite ?_ ?_
  · extract_lets +onlyGivenNames x3
    refine Keeps.cut (b := x3) ?_ ?_
    · unfold x3
      refine Keeps.trans ?_ (State.fadd_keeps _ _ _ _)
      exact k2
    intro k4
    clear_value x3
    refine Keeps.trans ?_ (State.rerunTile_keeps _ _ _ _ _ _)
    refine Keeps.trans ?_ (State.setRetry_keeps _ _ _ _ _)
    exact k4
  · refine Keeps.ite ?_ ?_
    · extract_lets +onlyGivenNames x5
      refine Keeps.cut (b := x5) ?_ ?_
      · unfold x5
        refine Keeps.trans ?_ (State.setRetry_keeps _ _ _ _ _)
        exact k2
      intro k6
      clear_value x5
      extract_lets +onlyGivenNames x7
      extract_lets +onlyGivenNames x8
      extract_lets +onlyGivenNames x9
      refine Keeps.cut (b := x9) ?_ ?_
      · unfold x9
        refine Keeps.ite ?_ ?_
        · exact k6
        · refine Keeps.trans ?_ (State.rerunTile_keeps _ _ _ _ _ _)
          exact k6
      intro k10
      clear_value x9
      refine Keeps.trans ?_ (State.hwFence_keeps _ _ _ _)
      refine Keeps.ite ?_ ?_
      · exact k10
      · refine Keeps.trans ?_ (State.evtDie_keeps _ _ _)
        exact k10
    · extract_lets +onlyGivenNames x11
      refine Keeps.cut (b := x11) ?_ ?_
      · unfold x11
        refine Keeps.trans ?_ (State.evtDie_keeps _ _ _)
        refine Keeps.trans ?_ (State.setRetry_keeps _ _ _ _ _)
        exact k2
      intro k12
      clear_value x11
      extract_lets +onlyGivenNames x13
      extract_lets +onlyGivenNames x14
      refine Keeps.cut (b := x14) ?_ ?_
      · unfold x14
        refine Keeps.trans ?_ (State.fadd_keeps _ _ _ _)
        refine Keeps.trans ?_ (State.failRecs_keeps _ _ _ _ _)
        exact k12
      intro k15
      clear_value x14
      refine Keeps.trans ?_ (State.markTile_keeps _ _ _ _ _ _ _)
      exact k15

theorem State.tileCommit_keeps (s : State) (d : Nat) (w : Sweep) (x : TileRef) (cycles issued : Nat) : Keeps 0x24008088 s (State.tileCommit s d w x cycles issued) := by
  unfold State.tileCommit
  extract_lets +onlyGivenNames x0
  refine Keeps.cut (b := x0) ?_ ?_
  · unfold x0
    refine Keeps.trans ?_ (State.setRetry_keeps _ _ _ _ _)
    exact Keeps.refl _
  intro k1
  clear_value x0
  extract_lets +onlyGivenNames x2
  refine Keeps.cut (b := x2) ?_ ?_
  · unfold x2
    refine Keeps.trans ?_ (State.pmc_keeps _ _ _ _ _ _)
    refine Keeps.trans ?_ (State.fadd_keeps _ _ _ _)
    exact k1
  intro k3
  clear_value x2
  extract_lets +onlyGivenNames x4
  refine Keeps.cut (b := x4) ?_ ?_
  · unfold x4
    refine Keeps.foldl _ _ (fun s5 y6 => ?_) ?_
    · refine Keeps.trans ?_ (State.modRec_keeps _ _ _ _ _)
      exact Keeps.refl _
    · exact k3
  intro k7
  clear_value x4
  refine Keeps.trans ?_ (State.markTile_keeps _ _ _ _ _ _ _)
  exact k7

theorem State.paneBoundary_keeps (s : State) (d p : Nat) : Keeps 0x7FFFFFBFEF s (State.paneBoundary s d p) := by
  unfold State.paneBoundary
  refine Keeps.ite ?_ ?_
  · refine Keeps.trans ?_ (State.setUnit_keeps _ _ _ _ _ _ _)
    exact Keeps.refl _
  · exact Keeps.refl _

theorem execTileProductDone_keeps (d pane page blk head group n : Nat) (mismatch : Bool) (issued stall t : Nat) (s : State) : KNext 0x7FFFFFBFFF s (execTileProductDone d pane page blk head group n mismatch issued stall t s) := by
  unfold execTileProductDone
  extract_lets +onlyGivenNames x0
  refine KNext.cut (b := x0) ?_ ?_
  · unfold x0
    refine Keeps.trans ?_ (State.advanceTo_keeps _ _)
    exact Keeps.refl _
  intro k1
  clear_value x0
  split
  · rename_i z2 z3
    refine KNext.mk ?_
    exact k1
  · rename_i z4 z5 z6
    split
    · rename_i z7 z8
      refine KNext.mk ?_
      exact k1
    · rename_i z9 z10 z11
      extract_lets +onlyGivenNames x12
      extract_lets +onlyGivenNames x13
      extract_lets +onlyGivenNames x14
      refine KNext.ite ?_ ?_
      · refine KNext.mk ?_
        exact k1
      · extract_lets +onlyGivenNames x15
        extract_lets +onlyGivenNames x16
        refine KNext.cut (b := x16) ?_ ?_
        · unfold x16
          unfold x13
          split
          · rename_i z17 z18 z19 z20
            refine Keeps.pwr ?_ _
            exact k1
          · rename_i z21 z22
            exact k1
        intro k23
        clear_value x16
        extract_lets +onlyGivenNames x24
        extract_lets +onlyGivenNames x25
        extract_lets +onlyGivenNames x26
        refine KNext.cut (b := x26) ?_ ?_
        · unfold x26
          refine Keeps.trans ?_ (State.modCsm_keeps _ _ _)
          exact k23
        intro k27
        clear_value x26
        extract_lets +onlyGivenNames x28
        refine KNext.cut (b := x28) ?_ ?_
        · unfold x28
          refine Keeps.trans ?_ (State.modSweep_keeps _ _ _ _)
          exact k27
        intro k29
        clear_value x28
        extract_lets +onlyGivenNames x30
        refine KNext.cut (b := x30) ?_ ?_
        · unfold x30
          refine Keeps.ite ?_ ?_
          · exact k29
          · refine Keeps.trans ?_ (State.pmc_keeps _ _ _ _ _ _)
            exact k29
        intro k31
        clear_value x30
        extract_lets +onlyGivenNames x32
        refine KNext.cut (b := x32) ?_ ?_
        · unfold x32
          refine Keeps.ite ?_ ?_
          · refine Keeps.trans ?_ (State.tileMismatch_keeps _ _ _ _ _ _ _)
            exact k31
          · refine Keeps.trans ?_ (State.tileCommit_keeps _ _ _ _ _ _)
            exact k31
        intro k33
        clear_value x32
        refine KNext.mk ?_
        refine Keeps.trans ?_ (State.advanceSweep_keeps _ _ _)
        refine Keeps.trans ?_ (State.paneBoundary_keeps _ _ _)
        exact k33

theorem execRecordFinalise_keeps (d sweep i : Nat) (bad : Bool) (t : Nat) (s : State) : KNext 0x7FFFFFBFFF s (execRecordFinalise d sweep i bad t s) := by
  unfold execRecordFinalise
  extract_lets +onlyGivenNames x0
  refine KNext.cut (b := x0) ?_ ?_
  · unfold x0
    refine Keeps.trans ?_ (State.advanceTo_keeps _ _)
    exact Keeps.refl _
  intro k1
  clear_value x0
  split
  · rename_i z2 z3
    refine KNext.mk ?_
    exact k1
  · rename_i z4 z5 z6
    split
    · rename_i z7 z8
      refine KNext.mk ?_
      exact k1
    · rename_i z9 z10 z11
      refine KNext.ite ?_ ?_
      · refine KNext.mk ?_
        exact k1
      · refine KNext.ite ?_ ?_
        · refine KNext.mk ?_
          refine Keeps.trans ?_ (State.settleFences_keeps _ _)
          refine Keeps.trans ?_ (State.gradSettle_keeps _ _)
          refine Keeps.trans ?_ (State.lastTile_keeps _ _ _)
          refine Keeps.trans ?_ (State.failRec_keeps _ _ _ _ _)
          exact k1
        · extract_lets +onlyGivenNames x12
          split
          · rename_i z13 z14 z15 z16 z17
            extract_lets +onlyGivenNames x18
            refine KNext.cut (b := x18) ?_ ?_
            · unfold x18
              refine Keeps.ite ?_ ?_
              · refine Keeps.trans ?_ (State.evtDie_keeps _ _ _)
                refine Keeps.trans ?_ (State.fadd_keeps _ _ _ _)
                exact k1
              · exact k1
            intro k19
            clear_value x18
            extract_lets +onlyGivenNames x20
            refine KNext.cut (b := x20) ?_ ?_
            · unfold x20
              refine Keeps.ite ?_ ?_
              · refine Keeps.trans ?_ (State.modCsm_keeps _ _ _)
                exact k19
              · exact k19
            intro k21
            clear_value x20
            split
            · rename_i z22 z23 z24 z25 z26
              refine KNext.cut (b := z25) ?_ ?_
              · refine KSnd2.eq z26 ?_
                refine KSnd2.trans ?_ (State.sendOutput_keeps _ _ _ _ _ _)
                exact k21
              intro k27
              extract_lets +onlyGivenNames x28
              refine KNext.cut (b := x28) ?_ ?_
              · unfold x28
                refine Keeps.trans ?_ (State.modRec_keeps _ _ _ _ _)
                exact k27
              intro k29
              clear_value x28
              refine KNext.mk ?_
              refine Keeps.trans ?_ (State.settleFences_keeps _ _)
              refine Keeps.trans ?_ (State.gradSettle_keeps _ _)
              refine Keeps.trans ?_ (State.sweepOver_keeps _ _ _)
              refine Keeps.trans ?_ (State.lastTile_keeps _ _ _)
              exact k29

theorem execResultDelivered_keeps (d sweep i t : Nat) (s : State) : KNext 0x7FFFFFBFFF s (execResultDelivered d sweep i t s) := by
  unfold execResultDelivered
  refine KNext.mk ?_
  refine Keeps.trans ?_ (State.settleFences_keeps _ _)
  refine Keeps.trans ?_ (State.deliverRec_keeps _ _ _ _)
  refine Keeps.trans ?_ (State.advanceTo_keeps _ _)
  exact Keeps.refl _

end Sys2Proof.Machine
end

