-- ==== Sys2Proof/Laws/KeepsCounters.lean ====
section
/-!
SUPPORT. Sys2Proof/Laws/KeepsCounters.lean: each operation of Machine/Counters.lean keeps what `Keeps` says, with the parts of the state it may
touch.
-/
namespace Sys2Proof.Machine
set_option Elab.async false

theorem State.freezePart_keeps (s : State) (p : Nat) (on : Bool) : Keeps 0x4000008 s (State.freezePart s p on) := by
  unfold State.freezePart
  extract_lets +onlyGivenNames x0
  extract_lets +onlyGivenNames x1
  refine Keeps.cut (b := x1) ?_ ?_
  · unfold x1
    refine Keeps.trans ?_ (State.fput_keeps _ _ _ _)
    exact Keeps.refl _
  intro k2
  clear_value x1
  refine Keeps.ite ?_ ?_
  · refine Keeps.trans ?_ (State.evtPart_keeps _ _ _)
    exact k2
  · exact k2

theorem execPartitionFreeze_keeps (p : Nat) (on : Bool) (via : Via) (s : State) : KNext 0x4400048 s (execPartitionFreeze p on via s) := by
  unfold execPartitionFreeze
  refine KNext.mk ?_
  refine Keeps.ite ?_ ?_
  · refine Keeps.tr ?_ (regWrite_keeps _ _ _ _ (fun v0 => ?_))
    · exact Keeps.refl _
    · refine Keeps.trans ?_ (State.freezePart_keeps _ _ _)
      exact Keeps.refl _
  · exact Keeps.refl _

theorem State.freezeAll_keeps (s : State) (on : Bool) : Keeps 0x4000000 s (State.freezeAll s on) := by
  unfold State.freezeAll
  refine Keeps.trans ?_ (State.fput_keeps _ _ _ _)
  refine Keeps.trans ?_ (State.fput_keeps _ _ _ _)
  exact Keeps.refl _

theorem State.freezeDue_keeps (s : State) : Keeps 0x4000000 s (State.freezeDue s) := by
  unfold State.freezeDue
  refine Keeps.ite ?_ ?_
  · refine Keeps.trans ?_ (State.freezeAll_keeps _ _)
    refine Keeps.trans ?_ (State.fset_keeps _ _ _ _)
    exact Keeps.refl _
  · exact Keeps.refl _

theorem execPackageFreeze_keeps (on : Bool) (via : Via) (s : State) : KNext 0x4400040 s (execPackageFreeze on via s) := by
  unfold execPackageFreeze
  refine KNext.mk ?_
  refine Keeps.tr ?_ (regWrite_keeps _ _ _ _ (fun v0 => ?_))
  · exact Keeps.refl _
  · refine Keeps.trans ?_ (State.freezeAll_keeps _ _)
    refine Keeps.trans ?_ (State.freezeDue_keeps _)
    exact Keeps.refl _

theorem execFreezeAtReached_keeps (t : Nat) (s : State) : KNext 0x4200010 s (execFreezeAtReached t s) := by
  unfold execFreezeAtReached
  refine KNext.mk ?_
  refine Keeps.trans ?_ (State.freezeDue_keeps _)
  refine Keeps.trans ?_ (State.advanceTo_keeps _ _)
  exact Keeps.refl _

theorem execPmcIdxWrite_keeps (p v : Nat) (via : Via) (s : State) : KNext 0x4400048 s (execPmcIdxWrite p v via s) := by
  unfold execPmcIdxWrite
  refine KNext.mk ?_
  refine Keeps.ite ?_ ?_
  · refine Keeps.tr ?_ (regWrite_keeps _ _ _ _ (fun v0 => ?_))
    · exact Keeps.refl _
    · refine Keeps.ite ?_ ?_
      · refine Keeps.trans ?_ (State.fset_keeps _ _ _ _)
        refine Keeps.trans ?_ (State.fset_keeps _ _ _ _)
        exact Keeps.refl _
      · refine Keeps.trans ?_ (State.evtPart_keeps _ _ _)
        exact Keeps.refl _
  · exact Keeps.refl _

theorem State.setPmcCtr_keeps (s : State) (p k : Nat) (c : PmcCtr) : Keeps 0x8000 s (State.setPmcCtr s p k c) := by
  unfold State.setPmcCtr
  refine Keeps.trans ?_ (State.modPmc_keeps _ _ _)
  exact Keeps.refl _

theorem State.setHist_keeps (s : State) (p k : Nat) (h : PmcHist) : Keeps 0x8000 s (State.setHist s p k h) := by
  unfold State.setHist
  refine Keeps.trans ?_ (State.modPmc_keeps _ _ _)
  exact Keeps.refl _

theorem execPmcValueWrite_keeps (p v : Nat) (via : Via) (s : State) : KNext 0x408040 s (execPmcValueWrite p v via s) := by
  unfold execPmcValueWrite
  refine KNext.mk ?_
  refine Keeps.ite ?_ ?_
  · refine Keeps.tr ?_ (regWrite_keeps _ _ _ _ (fun v0 => ?_))
    · exact Keeps.refl _
    · refine Keeps.trans ?_ (State.setPmcCtr_keeps _ _ _ _)
      exact Keeps.refl _
  · exact Keeps.refl _

theorem State.writeEvsel_keeps (s : State) (p v : Nat) : Keeps 0x8000 s (State.writeEvsel s p v) := by
  unfold State.writeEvsel
  extract_lets +onlyGivenNames x0
  extract_lets +onlyGivenNames x1
  refine Keeps.trans ?_ (State.setPmcCtr_keeps _ _ _ _)
  exact Keeps.refl _

theorem execHistogramClr_keeps (p : Nat) (via : Via) (s : State) : KNext 0x408040 s (execHistogramClr p via s) := by
  unfold execHistogramClr
  refine KNext.mk ?_
  refine Keeps.ite ?_ ?_
  · refine Keeps.tr ?_ (regWrite_keeps _ _ _ _ (fun v0 => ?_))
    · exact Keeps.refl _
    · split
      · rename_i z1 z2 z3
        refine Keeps.trans ?_ (State.setHist_keeps _ _ _ _)
        exact Keeps.refl _
      · rename_i z4 z5
        exact Keeps.refl _
  · exact Keeps.refl _

theorem State.writeHcfg_keeps (s : State) (via : Via) (p v : Nat) : Keeps 0x410802B s (State.writeHcfg s via p v) := by
  unfold State.writeHcfg
  split
  · rename_i z0 z1
    exact Keeps.refl _
  · rename_i z2 z3 z4
    extract_lets +onlyGivenNames x5
    extract_lets +onlyGivenNames x6
    extract_lets +onlyGivenNames x7
    extract_lets +onlyGivenNames x8
    refine Keeps.cut (b := x8) ?_ ?_
    · unfold x8
      refine Keeps.ite ?_ ?_
      · exact Keeps.refl _
      · refine Keeps.trans ?_ (State.badField_keeps _ _ _)
        exact Keeps.refl _
    intro k9
    clear_value x8
    refine Keeps.ite ?_ ?_
    · refine Keeps.trans ?_ (State.evtPart_keeps _ _ _)
      exact k9
    · extract_lets +onlyGivenNames x10
      refine Keeps.trans ?_ (State.setHist_keeps _ _ _ _)
      exact k9

theorem State.writeHbase_keeps (s : State) (p v : Nat) : Keeps 0x8000 s (State.writeHbase s p v) := by
  unfold State.writeHbase
  split
  · rename_i z0 z1
    exact Keeps.refl _
  · rename_i z2 z3 z4
    extract_lets +onlyGivenNames x5
    extract_lets +onlyGivenNames x6
    refine Keeps.trans ?_ (State.setHist_keeps _ _ _ _)
    exact Keeps.refl _

theorem execPmcTagSeedWrite_keeps (p seed : Nat) (via : Via) (s : State) : KNext 0x4408040 s (execPmcTagSeedWrite p seed via s) := by
  unfold execPmcTagSeedWrite
  refine KNext.mk ?_
  refine Keeps.ite ?_ ?_
  · refine Keeps.tr ?_ (regWrite_keeps _ _ _ _ (fun v0 => ?_))
    · exact Keeps.refl _
    · extract_lets +onlyGivenNames x1
      refine Keeps.trans ?_ (State.modPmc_keeps _ _ _)
      refine Keeps.trans ?_ (State.fset_keeps _ _ _ _)
      exact Keeps.refl _
  · exact Keeps.refl _

theorem execPmcTraceEnWrite_keeps (p : Nat) (en : Bool) (via : Via) (s : State) : KNext 0x4408040 s (execPmcTraceEnWrite p en via s) := by
  unfold execPmcTraceEnWrite
  refine KNext.mk ?_
  refine Keeps.ite ?_ ?_
  · refine Keeps.tr ?_ (regWrite_keeps _ _ _ _ (fun v0 => ?_))
    · exact Keeps.refl _
    · extract_lets +onlyGivenNames x1
      refine Keeps.cut (b := x1) ?_ ?_
      · unfold x1
        refine Keeps.trans ?_ (State.fput_keeps _ _ _ _)
        exact Keeps.refl _
      intro k2
      clear_value x1
      refine Keeps.ite ?_ ?_
      · refine Keeps.trans ?_ (State.modPmc_keeps _ _ _)
        exact k2
      · exact k2
  · exact Keeps.refl _

theorem execPeakClr_keeps (p : Nat) (via : Via) (s : State) : KNext 0x408040 s (execPeakClr p via s) := by
  unfold execPeakClr
  refine KNext.mk ?_
  refine Keeps.ite ?_ ?_
  · refine Keeps.tr ?_ (regWrite_keeps _ _ _ _ (fun v0 => ?_))
    · exact Keeps.refl _
    · refine Keeps.trans ?_ (State.modPmc_keeps _ _ _)
      exact Keeps.refl _
  · exact Keeps.refl _

theorem State.pmcEdge_keeps (s : State) (p tick t : Nat) : Keeps 0x4008000 s (State.pmcEdge s p tick t) := by
  unfold State.pmcEdge
  extract_lets +onlyGivenNames x0
  refine Keeps.cut (b := x0) ?_ ?_
  · unfold x0
    refine Keeps.trans ?_ (State.freezeDue_keeps _)
    exact Keeps.refl _
  intro k1
  clear_value x0
  extract_lets +onlyGivenNames x2
  extract_lets +onlyGivenNames x3
  refine Keeps.cut (b := x3) ?_ ?_
  · unfold x3
    refine Keeps.ite ?_ ?_
    · refine Keeps.trans ?_ (State.modPmc_keeps _ _ _)
      exact k1
    · exact k1
  intro k4
  clear_value x3
  extract_lets +onlyGivenNames x5
  refine Keeps.cut (b := x5) ?_ ?_
  · unfold x5
    refine Keeps.ite ?_ ?_
    · refine Keeps.trans ?_ (State.modPmc_keeps _ _ _)
      exact k4
    · exact k4
  intro k6
  clear_value x5
  refine Keeps.trans ?_ (State.modPmc_keeps _ _ _)
  exact k6

theorem State.pmcApply_keeps (s : State) (p : Nat) : Keeps 0x8000 s (State.pmcApply s p) := by
  unfold State.pmcApply
  refine Keeps.trans ?_ (State.modPmc_keeps _ _ _)
  exact Keeps.refl _

theorem State.pageWrite_keeps (s : State) (p o v : Nat) : Keeps 0x8000 s (State.pageWrite s p o v) := by
  unfold State.pageWrite
  refine Keeps.ite ?_ ?_
  · refine Keeps.trans ?_ (State.modPmc_keeps _ _ _)
    exact Keeps.refl _
  · refine Keeps.ite ?_ ?_
    · refine Keeps.trans ?_ (State.modPmc_keeps _ _ _)
      exact Keeps.refl _
    · exact Keeps.refl _

end Sys2Proof.Machine
end

