-- ==== Sys2Proof/Laws/KeepsSweeps.lean ====
section
/-!
SUPPORT. Sys2Proof/Laws/KeepsSweeps.lean: each operation of Machine/Sweeps.lean keeps what `Keeps` says, with the parts of the state it may
touch.
-/
namespace Sys2Proof.Machine
set_option Elab.async false

theorem execSweepSet_keeps (q : Desc) (ctx : Nat) (b : SweepDesc) (s : State) : KNext 0x4408069 s (execSweepSet q ctx b s) := by
  unfold execSweepSet
  refine KNext.mk ?_
  refine Keeps.tr ?_ (runDesc_keeps _ _ _ _ _ (fun v0 => ?_))
  · exact Keeps.refl _
  · split
    · rename_i z1 z2
      refine Keeps.trans ?_ (State.fail_keeps _ _ _)
      exact Keeps.refl _
    · rename_i z3 z4 z5
      refine Keeps.ite ?_ ?_
      · refine Keeps.trans ?_ (State.fail_keeps _ _ _)
        exact Keeps.refl _
      · refine Keeps.ite ?_ ?_
        · refine Keeps.trans ?_ (State.fail_keeps _ _ _)
          exact Keeps.refl _
        · refine Keeps.trans ?_ (State.complete_keeps _ _ _ _ _)
          refine Keeps.trans ?_ (State.modCtx_keeps _ _ _ _)
          exact Keeps.refl _

theorem State.loadLayers_keeps (s : State) (d p ctx : Nat) (c : Ctx) (fmt : Nat) (b : List Byte) (off l : Nat) (w0 : Nat) : KExc 0x122 (fun r => r) s (State.loadLayers s d p ctx c fmt b off l w0) := by
  induction w0 generalizing s d p ctx c fmt b off l with
  | zero =>
    unfold State.loadLayers
    refine KExc.mk ?_
    exact Keeps.refl _
  | succ n0 ih =>
    unfold State.loadLayers
    split
    · rename_i z0 z1 z2
      trivial
    · rename_i z3 z4 z5 z6
      refine KExc.cut (b := z5) ?_ ?_
      · refine KExc.eq (g := fun (r : List Nat × Sys2Proof.Machine.State) => r.2) (r := (z4, z5)) z6 ?_
        refine KExc.trans ?_ (State.ctxSegs_keeps _ _ _ _)
        exact Keeps.refl _
      intro k7
      extract_lets +onlyGivenNames x8
      refine KExc.cut (b := x8) ?_ ?_
      · unfold x8
        split
        · rename_i z9 z10 z11
          refine Keeps.trans ?_ (State.segsToLimbo_keeps _ _ _)
          exact k7
        · rename_i z12 z13
          exact k7
      intro k14
      clear_value x8
      extract_lets +onlyGivenNames x15
      extract_lets +onlyGivenNames x16
      refine KExc.cut (b := x16) ?_ ?_
      · unfold x16
        refine Keeps.trans ?_ (State.modCtx_keeps _ _ _ _)
        exact k14
      intro k17
      clear_value x16
      refine KExc.tr ?_ (ih _ _ _ _ _ _ _ _ _)
      exact k17

theorem State.authFail_keeps (s : State) : Keeps 0x800021 s (State.authFail s) := by
  unfold State.authFail
  refine Keeps.trans ?_ (State.evtPkg_keeps _ _)
  refine Keeps.trans ?_ (State.fadd_keeps _ _ _ _)
  exact Keeps.refl _

theorem execLatentLoad_keeps (q : Desc) (ctx first countM1 fmt bytes : Nat) (bundle : Option Bundle) (img : List Byte) (s : State) : KNext 0x84C0816B s (execLatentLoad q ctx first countM1 fmt bytes bundle img s) := by
  unfold execLatentLoad
  refine KNext.mk ?_
  refine Keeps.tr ?_ (runDesc_keeps _ _ _ _ _ (fun v0 => ?_))
  · exact Keeps.refl _
  · split
    · rename_i z1 z2
      refine Keeps.trans ?_ (State.fail_keeps _ _ _)
      exact Keeps.refl _
    · rename_i z3 z4 z5
      extract_lets +onlyGivenNames x6
      refine Keeps.ite ?_ ?_
      · refine Keeps.trans ?_ (State.fail_keeps _ _ _)
        exact Keeps.refl _
      · refine Keeps.ite ?_ ?_
        · refine Keeps.trans ?_ (State.fail_keeps _ _ _)
          exact Keeps.refl _
        · extract_lets +onlyGivenNames x7
          split
          · rename_i z8
            refine Keeps.ite ?_ ?_
            · refine Keeps.trans ?_ (State.fail_keeps _ _ _)
              exact Keeps.refl _
            · unfold x7
              split
              · rename_i z9 z10 z11
                split
                · rename_i z12 z13 z14 z15
                  refine Keeps.cut (b := z14) ?_ ?_
                  · refine KSnd.eq z15 ?_
                    refine KSnd.trans ?_ (State.allocStatus_keeps _ _ _)
                    exact Keeps.refl _
                  intro k16
                  refine Keeps.trans ?_ (State.fail_keeps _ _ _)
                  exact k16
              · rename_i z17 z18 z19
                refine Keeps.cut (b := z18) ?_ ?_
                · refine KExc.eq (g := fun (r : Sys2Proof.Machine.State) => r) (r := z18) z19 ?_
                  refine KExc.trans ?_ (State.loadLayers_keeps _ _ _ _ _ _ _ _ _ _)
                  exact Keeps.refl _
                intro k20
                extract_lets +onlyGivenNames x21
                refine Keeps.cut (b := x21) ?_ ?_
                · unfold x21
                  refine Keeps.ite ?_ ?_
                  · refine Keeps.trans ?_ (State.fadd_keeps _ _ _ _)
                    exact k20
                  · exact k20
                intro k22
                clear_value x21
                refine Keeps.trans ?_ (State.complete_keeps _ _ _ _ _)
                exact k22
          · rename_i z23 z24
            refine Keeps.ite ?_ ?_
            · refine Keeps.trans ?_ (State.fail_keeps _ _ _)
              exact Keeps.refl _
            · refine Keeps.ite ?_ ?_
              · refine Keeps.trans ?_ (State.fail_keeps _ _ _)
                refine Keeps.trans ?_ (State.authFail_keeps _)
                exact Keeps.refl _
              · refine Keeps.ite ?_ ?_
                · refine Keeps.trans ?_ (State.fail_keeps _ _ _)
                  exact Keeps.refl _
                · unfold x7
                  split
                  · rename_i z25 z26 z27
                    split
                    · rename_i z28 z29 z30 z31
                      refine Keeps.cut (b := z30) ?_ ?_
                      · refine KSnd.eq z31 ?_
                        refine KSnd.trans ?_ (State.allocStatus_keeps _ _ _)
                        exact Keeps.refl _
                      intro k32
                      refine Keeps.trans ?_ (State.fail_keeps _ _ _)
                      exact k32
                  · rename_i z33 z34 z35
                    refine Keeps.cut (b := z34) ?_ ?_
                    · refine KExc.eq (g := fun (r : Sys2Proof.Machine.State) => r) (r := z34) z35 ?_
                      refine KExc.trans ?_ (State.loadLayers_keeps _ _ _ _ _ _ _ _ _ _)
                      exact Keeps.refl _
                    intro k36
                    extract_lets +onlyGivenNames x37
                    refine Keeps.cut (b := x37) ?_ ?_
                    · unfold x37
                      refine Keeps.ite ?_ ?_
                      · refine Keeps.trans ?_ (State.fadd_keeps _ _ _ _)
                        exact k36
                      · exact k36
                    intro k38
                    clear_value x37
                    refine Keeps.trans ?_ (State.complete_keeps _ _ _ _ _)
                    exact k38

theorem execGradOpen_keeps (q : Desc) (ctx grad seq first countM1 posFirst posCount : Nat) (s : State) : KNext 0x844081EB s (execGradOpen q ctx grad seq first countM1 posFirst posCount s) := by
  unfold execGradOpen
  refine KNext.mk ?_
  refine Keeps.tr ?_ (runDesc_keeps _ _ _ _ _ (fun v0 => ?_))
  · exact Keeps.refl _
  · split
    · rename_i z1 z2
      refine Keeps.trans ?_ (State.fail_keeps _ _ _)
      exact Keeps.refl _
    · rename_i z3 z4 z5
      extract_lets +onlyGivenNames x6
      extract_lets +onlyGivenNames x7
      extract_lets +onlyGivenNames x8
      refine Keeps.ite ?_ ?_
      · refine Keeps.trans ?_ (State.fail_keeps _ _ _)
        exact Keeps.refl _
      · refine Keeps.ite ?_ ?_
        · refine Keeps.trans ?_ (State.fail_keeps _ _ _)
          exact Keeps.refl _
        · extract_lets +onlyGivenNames x9
          split
          · rename_i z10 z11 z12
            split
            · rename_i z13 z14 z15 z16
              refine Keeps.cut (b := z15) ?_ ?_
              · refine KSnd.eq z16 ?_
                refine KSnd.trans ?_ (State.allocStatus_keeps _ _ _)
                exact Keeps.refl _
              intro k17
              refine Keeps.trans ?_ (State.fail_keeps _ _ _)
              exact k17
          · rename_i z18 z19 z20 z21
            refine Keeps.cut (b := z20) ?_ ?_
            · refine KExc.eq (g := fun (r : List Nat × Sys2Proof.Machine.State) => r.2) (r := (z19, z20)) z21 ?_
              refine KExc.trans ?_ (State.ctxSegs_keeps _ _ _ _)
              exact Keeps.refl _
            intro k22
            extract_lets +onlyGivenNames x23
            extract_lets +onlyGivenNames x24
            refine Keeps.cut (b := x24) ?_ ?_
            · unfold x24
              refine Keeps.trans ?_ (State.modPart_keeps _ _ _)
              exact k22
            intro k25
            clear_value x24
            refine Keeps.trans ?_ (State.complete_keeps _ _ _ _ _)
            refine Keeps.trans ?_ (State.modCsm_keeps _ _ _)
            exact k25

theorem execGradClose_keeps (q : Desc) (ctx grad : Nat) (keep : Bool) (dest room : Nat) (s : State) : KNext 0x44081E9 s (execGradClose q ctx grad keep dest room s) := by
  unfold execGradClose
  refine KNext.mk ?_
  refine Keeps.tr ?_ (runDesc_keeps _ _ _ _ _ (fun v0 => ?_))
  · exact Keeps.refl _
  · split
    · rename_i z1 z2
      refine Keeps.trans ?_ (State.fail_keeps _ _ _)
      exact Keeps.refl _
    · rename_i z3 z4 z5
      extract_lets +onlyGivenNames x6
      refine Keeps.ite ?_ ?_
      · refine Keeps.trans ?_ (State.fail_keeps _ _ _)
        refine Keeps.trans ?_ (State.modPart_keeps _ _ _)
        exact Keeps.refl _
      · refine Keeps.ite ?_ ?_
        · refine Keeps.trans ?_ (State.fail_keeps _ _ _)
          exact Keeps.refl _
        · split
          · rename_i z7 z8
            refine Keeps.trans ?_ (State.fail_keeps _ _ _)
            exact Keeps.refl _
          · rename_i z9 z10 z11
            refine Keeps.ite ?_ ?_
            · refine Keeps.trans ?_ (State.fail_keeps _ _ _)
              exact Keeps.refl _
            · extract_lets +onlyGivenNames x12
              refine Keeps.cut (b := x12) ?_ ?_
              · unfold x12
                refine Keeps.trans ?_ (State.modCsm_keeps _ _ _)
                exact Keeps.refl _
              intro k13
              clear_value x12
              refine Keeps.trans ?_ (State.gradSettle_keeps _ _)
              exact k13

theorem execStep_keeps (q : Desc) (img : List Byte) (output statusAddr t : Nat) (s : State) : KNext 0x42660ABF9 s (execStep q img output statusAddr t s) := by
  unfold execStep
  extract_lets +onlyGivenNames x0
  refine KNext.mk ?_
  refine Keeps.tr ?_ (runDesc_keeps _ _ _ _ _ (fun v1 => ?_))
  · refine Keeps.trans ?_ (State.advanceTo_keeps _ _)
    exact Keeps.refl _
  · extract_lets +onlyGivenNames x2
    split
    · rename_i z3 z4
      refine Keeps.trans ?_ (State.complete_keeps _ _ _ _ _)
      exact Keeps.refl _
    · rename_i z5 z6 z7
      extract_lets +onlyGivenNames x8
      extract_lets +onlyGivenNames x9
      refine Keeps.ite ?_ ?_
      · refine Keeps.trans ?_ (State.complete_keeps _ _ _ _ _)
        exact Keeps.refl _
      · refine Keeps.ite ?_ ?_
        · refine Keeps.trans ?_ (State.complete_keeps _ _ _ _ _)
          exact Keeps.refl _
        · refine Keeps.ite ?_ ?_
          · refine Keeps.trans ?_ (State.complete_keeps _ _ _ _ _)
            exact Keeps.refl _
          · refine Keeps.trans ?_ (State.holdRecord_keeps _ _ _ _ _ _)
            exact Keeps.refl _

theorem State.endRebuild_keeps (s : State) (d page : Nat) : Keeps 0x40000280 s (State.endRebuild s d page) := by
  unfold State.endRebuild
  extract_lets +onlyGivenNames x0
  refine Keeps.cut (b := x0) ?_ ?_
  · unfold x0
    refine Keeps.trans ?_ (State.modCsm_keeps _ _ _)
    exact Keeps.refl _
  intro k1
  clear_value x0
  extract_lets +onlyGivenNames x2
  refine Keeps.cut (b := x2) ?_ ?_
  · unfold x2
    refine Keeps.trans ?_ (State.modStg_keeps _ _ _)
    exact k1
  intro k3
  clear_value x2
  refine Keeps.trans ?_ (State.fsat_keeps _ _ _ _)
  exact k3

theorem State.rebuildStep_keeps (s : State) (d page : Nat) (step : Nat) : Keeps 0x4E440ABEB s (State.rebuildStep s d page step) := by
  unfold State.rebuildStep
  split
  · rename_i z0 z1
    refine Keeps.trans ?_ (State.endRebuild_keeps _ _ _)
    exact Keeps.refl _
  · rename_i z2 z3 z4
    extract_lets +onlyGivenNames x5
    refine Keeps.ite ?_ ?_
    · unfold x5
      extract_lets +onlyGivenNames x6
      refine Keeps.cut (b := x6) ?_ ?_
      · unfold x6
        refine Keeps.trans ?_ (State.modCsm_keeps _ _ _)
        exact Keeps.refl _
      intro k7
      clear_value x6
      extract_lets +onlyGivenNames x8
      refine Keeps.ite ?_ ?_
      · refine Keeps.trans ?_ (State.rereadTask_keeps _ _ _)
        exact k7
      · refine Keeps.trans ?_ (State.allocTask_keeps _ _ _)
        refine Keeps.trans ?_ (State.modStg_keeps _ _ _)
        exact k7
    · refine Keeps.ite ?_ ?_
      · unfold x5
        extract_lets +onlyGivenNames x9
        refine Keeps.cut (b := x9) ?_ ?_
        · unfold x9
          refine Keeps.trans ?_ (State.modCsm_keeps _ _ _)
          exact Keeps.refl _
        intro k10
        clear_value x9
        extract_lets +onlyGivenNames x11
        refine Keeps.ite ?_ ?_
        · refine Keeps.trans ?_ (State.rereadTask_keeps _ _ _)
          exact k10
        · refine Keeps.trans ?_ (State.allocTask_keeps _ _ _)
          refine Keeps.trans ?_ (State.modStg_keeps _ _ _)
          exact k10
      · extract_lets +onlyGivenNames x12
        extract_lets +onlyGivenNames x13
        refine Keeps.cut (b := x13) ?_ ?_
        · unfold x13
          refine Keeps.foldl _ _ (fun s14 y15 => ?_) ?_
          · refine Keeps.ite ?_ ?_
            · exact Keeps.refl _
            · refine Keeps.trans ?_ (State.giveList_keeps _ _ _)
              refine Keeps.trans ?_ (State.giveSegs_keeps _ _ _)
              exact Keeps.refl _
          · exact Keeps.refl _
        intro k16
        clear_value x13
        refine Keeps.trans ?_ (State.losePage_keeps _ _ _)
        refine Keeps.trans ?_ (State.endRebuild_keeps _ _ _)
        exact k16

theorem execRebuildDone_keeps (d page : Nat) (read : CopyRead) (s : State) : KNext 0x7FFFFFBFEF s (execRebuildDone d page read s) := by
  unfold execRebuildDone
  split
  · rename_i z0 z1 z2 z3 z4 z5 z6 z7
    extract_lets +onlyGivenNames x8
    refine KNext.ite ?_ ?_
    · refine KNext.mk ?_
      refine Keeps.trans ?_ (State.endRebuild_keeps _ _ _)
      exact Keeps.refl _
    · refine KNext.ite ?_ ?_
      · split
        · rename_i z9 z10 z11 z12
          extract_lets +onlyGivenNames x13
          refine KNext.cut (b := x13) ?_ ?_
          · unfold x13
            refine Keeps.trans ?_ (State.modPage_keeps _ _ _ _)
            exact Keeps.refl _
          intro k14
          clear_value x13
          extract_lets +onlyGivenNames x15
          refine KNext.cut (b := x15) ?_ ?_
          · unfold x15
            refine Keeps.trans ?_ (State.endRebuild_keeps _ _ _)
            refine Keeps.trans ?_ (State.evtDie_keeps _ _ _)
            exact k14
          intro k16
          clear_value x15
          extract_lets +onlyGivenNames x17
          extract_lets +onlyGivenNames x18
          refine KNext.cut (b := x18) ?_ ?_
          · unfold x18
            exact k16
          intro k19
          clear_value x18
          extract_lets +onlyGivenNames x20
          refine KNext.cut (b := x20) ?_ ?_
          · unfold x20
            refine Keeps.trans ?_ (State.chargeAtm_keeps _ _ _)
            exact k16
          intro k21
          clear_value x20
          refine KNext.ite ?_ ?_
          · extract_lets +onlyGivenNames x22
            refine KNext.mk ?_
            refine Keeps.trans ?_ (State.modCsm_keeps _ _ _)
            refine Keeps.trans ?_ (State.evtDie_keeps _ _ _)
            refine Keeps.trans ?_ (State.fset_keeps _ _ _ _)
            exact k19
          · refine KNext.mk ?_
            exact k21
        · rename_i z23 z24
          refine KNext.mk ?_
          refine Keeps.trans ?_ (State.rebuildStep_keeps _ _ _ _)
          exact Keeps.refl _
      · split
        · rename_i z25 z26
          refine KNext.mk ?_
          exact Keeps.refl _
        · rename_i z27 z28 z29
          refine KNext.ite ?_ ?_
          · refine KNext.mk ?_
            exact Keeps.refl _
          · split
            · rename_i z30 z31
              refine KNext.mk ?_
              exact Keeps.refl _
            · rename_i z32 z33 z34
              extract_lets +onlyGivenNames x35
              refine KNext.cut (b := x35) ?_ ?_
              · unfold x35
                exact Keeps.refl _
              intro k36
              clear_value x35
              extract_lets +onlyGivenNames x37
              refine KNext.cut (b := x37) ?_ ?_
              · unfold x37
                refine Keeps.ite ?_ ?_
                · refine Keeps.trans ?_ (State.dropReplica_keeps _ _ _)
                  exact Keeps.refl _
                · exact Keeps.refl _
              intro k38
              clear_value x37
              split
              · rename_i z39 z40 z41 z42
                extract_lets +onlyGivenNames x43
                refine KNext.cut (b := x43) ?_ ?_
                · unfold x43
                  refine Keeps.trans ?_ (State.giveList_keeps _ _ _)
                  refine Keeps.trans ?_ (State.dropStore_keeps _ _ _)
                  refine Keeps.trans ?_ (State.frameToLimbo_keeps _ _ _ _)
                  exact k36
                intro k44
                clear_value x43
                extract_lets +onlyGivenNames x45
                refine KNext.cut (b := x45) ?_ ?_
                · unfold x45
                  refine Keeps.trans ?_ (State.modPage_keeps _ _ _ _)
                  exact k44
                intro k46
                clear_value x45
                extract_lets +onlyGivenNames x47
                refine KNext.cut (b := x47) ?_ ?_
                · unfold x47
                  refine Keeps.trans ?_ (State.fadd_keeps _ _ _ _)
                  refine Keeps.trans ?_ (State.evtDie_keeps _ _ _)
                  exact k46
                intro k48
                clear_value x47
                refine KNext.mk ?_
                refine Keeps.trans ?_ (State.retryTasks_keeps _ _)
                refine Keeps.trans ?_ (State.endRebuild_keeps _ _ _)
                exact k48
              · rename_i z49 z50
                refine KNext.mk ?_
                refine Keeps.trans ?_ (State.retryTasks_keeps _ _)
                refine Keeps.trans ?_ (State.rebuildStep_keeps _ _ _ _)
                exact k38
  · rename_i z51 z52 z53
    refine KNext.mk ?_
    exact Keeps.refl _

theorem execCsmEnWrite_keeps (d : Nat) (en : Bool) (via : Via) (s : State) : KNext 0x20400044 s (execCsmEnWrite d en via s) := by
  unfold execCsmEnWrite
  refine KNext.mk ?_
  refine Keeps.tr ?_ (regWrite_keeps _ _ _ _ (fun v0 => ?_))
  · exact Keeps.refl _
  · refine Keeps.trans ?_ (State.fsetWhen_keeps _ _ _ _)
    exact Keeps.refl _

theorem execCsmInject_keeps (d mask : Nat) (via : Via) (s : State) : KNext 0x4000C0 s (execCsmInject d mask via s) := by
  unfold execCsmInject
  refine KNext.mk ?_
  refine Keeps.tr ?_ (regWrite_keeps _ _ _ _ (fun v0 => ?_))
  · exact Keeps.refl _
  · refine Keeps.ite ?_ ?_
    · exact Keeps.refl _
    · refine Keeps.trans ?_ (State.modCsm_keeps _ _ _)
      exact Keeps.refl _

theorem execPaneFence_keeps (d fence unfence : Nat) (via : Via) (s : State) : KNext 0x7FFFFFBFEF s (execPaneFence d fence unfence via s) := by
  unfold execPaneFence
  refine KNext.mk ?_
  refine Keeps.tr ?_ (regWrite_keeps _ _ _ _ (fun v0 => ?_))
  · exact Keeps.refl _
  · refine Keeps.ite ?_ ?_
    · exact Keeps.refl _
    · refine Keeps.foldl _ _ (fun s1 y2 => ?_) ?_
      · refine Keeps.ite ?_ ?_
        · exact Keeps.refl _
        · refine Keeps.ite ?_ ?_
          · refine Keeps.trans ?_ (State.modCsm_keeps _ _ _)
            exact Keeps.refl _
          · refine Keeps.trans ?_ (State.report_keeps _ _ _ _ _ _)
            exact Keeps.refl _
      · exact Keeps.refl _

theorem execPaneUnfence_keeps (d fence unfence pass : Nat) (via : Via) (s : State) : KNext 0x7FFFFFBFEF s (execPaneUnfence d fence unfence pass via s) := by
  unfold execPaneUnfence
  refine KNext.mk ?_
  refine Keeps.tr ?_ (regWrite_keeps _ _ _ _ (fun v0 => ?_))
  · exact Keeps.refl _
  · refine Keeps.ite ?_ ?_
    · exact Keeps.refl _
    · refine Keeps.foldl _ _ (fun s1 y2 => ?_) ?_
      · refine Keeps.ite ?_ ?_
        · exact Keeps.refl _
        · extract_lets +onlyGivenNames x3
          extract_lets +onlyGivenNames x4
          refine Keeps.cut (b := x4) ?_ ?_
          · unfold x4
            refine Keeps.trans ?_ (State.fputAt_keeps _ _ _ _ _)
            exact Keeps.refl _
          intro k5
          clear_value x4
          refine Keeps.trans ?_ (State.testOutcome_keeps _ _ _ _ _ _)
          exact k5
      · exact Keeps.refl _

theorem execAtmFence_keeps (d fence unfence : Nat) (via : Via) (s : State) : KNext 0x7FFFFFBFEF s (execAtmFence d fence unfence via s) := by
  unfold execAtmFence
  refine KNext.mk ?_
  refine Keeps.tr ?_ (regWrite_keeps _ _ _ _ (fun v0 => ?_))
  · exact Keeps.refl _
  · refine Keeps.ite ?_ ?_
    · exact Keeps.refl _
    · refine Keeps.foldl _ _ (fun s1 y2 => ?_) ?_
      · refine Keeps.ite ?_ ?_
        · exact Keeps.refl _
        · refine Keeps.ite ?_ ?_
          · refine Keeps.trans ?_ (State.modCsm_keeps _ _ _)
            exact Keeps.refl _
          · refine Keeps.trans ?_ (State.report_keeps _ _ _ _ _ _)
            exact Keeps.refl _
      · exact Keeps.refl _

theorem execAtmUnfence_keeps (d fence unfence pass : Nat) (via : Via) (s : State) : KNext 0x7FFFFFBFEF s (execAtmUnfence d fence unfence pass via s) := by
  unfold execAtmUnfence
  refine KNext.mk ?_
  refine Keeps.tr ?_ (regWrite_keeps _ _ _ _ (fun v0 => ?_))
  · exact Keeps.refl _
  · refine Keeps.ite ?_ ?_
    · exact Keeps.refl _
    · refine Keeps.foldl _ _ (fun s1 y2 => ?_) ?_
      · refine Keeps.ite ?_ ?_
        · exact Keeps.refl _
        · extract_lets +onlyGivenNames x3
          extract_lets +onlyGivenNames x4
          refine Keeps.cut (b := x4) ?_ ?_
          · unfold x4
            refine Keeps.trans ?_ (State.fputAt_keeps _ _ _ _ _)
            exact Keeps.refl _
          intro k5
          clear_value x4
          refine Keeps.trans ?_ (State.testOutcome_keeps _ _ _ _ _ _)
          exact k5
      · exact Keeps.refl _

theorem execAtmInject_keeps (d mask : Nat) (via : Via) (s : State) : KNext 0x4000C0 s (execAtmInject d mask via s) := by
  unfold execAtmInject
  refine KNext.mk ?_
  refine Keeps.tr ?_ (regWrite_keeps _ _ _ _ (fun v0 => ?_))
  · exact Keeps.refl _
  · refine Keeps.ite ?_ ?_
    · exact Keeps.refl _
    · refine Keeps.trans ?_ (State.modCsm_keeps _ _ _)
      exact Keeps.refl _

theorem State.readAtmLo_keeps (s : State) (d which : Nat) : KSnd 0x40000000 s (State.readAtmLo s d which) := by
  unfold State.readAtmLo
  refine KSnd.ite ?_ ?_
  · refine KSnd.mk ?_
    exact Keeps.refl _
  · extract_lets +onlyGivenNames x0
    extract_lets +onlyGivenNames x1
    refine KSnd.mk ?_
    refine Keeps.trans ?_ (State.fset_keeps _ _ _ _)
    refine Keeps.trans ?_ (State.fset_keeps _ _ _ _)
    exact Keeps.refl _

theorem execAtmLoRead_keeps (d which : Nat) (via : Via) (s : State) : KNext 0x40400041 s (execAtmLoRead d which via s) := by
  unfold execAtmLoRead
  refine KNext.mk ?_
  refine Keeps.tr ?_ (regRead_keeps _ _ _ _ (fun v0 => ?_))
  · exact Keeps.refl _
  · refine KSnd.trans ?_ (State.readAtmLo_keeps _ _ _)
    exact Keeps.refl _

end Sys2Proof.Machine
end

