-- ==== Sys2Proof/Laws/KeepsResidency.lean ====
section
/-!
SUPPORT. Sys2Proof/Laws/KeepsResidency.lean: each operation of Machine/Residency.lean keeps what `Keeps` says, with the parts of the state it may
touch.
-/
namespace Sys2Proof.Machine
set_option Elab.async false

theorem ofSeq_keeps {m : Nat} (q : Desc) (seq ctx : Nat) (s : State) (go : Nat → SeqSlot → State) (h : ∀ d e, Keeps m s (go d e)) (hm : 0x4408069 ||| m = m := by first | decide | exact Nat.or_self _ | (rw [Fld.nth_bit]; decide) | (rw [faultsFld_bit]; decide) | (rw [atmLo_bit1]; decide) | (rw [atmLo_bit2]; decide) | exact orSelf _ _ | exact orRight _ (by decide) | exact orRight _ (orSelf _ _) | exact orRight _ (orRight _ (by decide)) | exact orBoth _ (by decide) | exact Fld.bit_top _ | exact Fld.bit_regs _ | exact Fld.bit_top2 _ _ (by decide) | exact orSub (by assumption) (by decide) | (split <;> decide)) :
    Keeps m s (ofSeq q seq ctx s go) := by
  unfold ofSeq
  split
  · exact (State.fail_keeps _ _ _).mono
  · split
    · exact (State.fail_keeps _ _ _).mono
    · exact Keeps.ite (State.fail_keeps _ _ _).mono (Keeps.ite (State.fail_keeps _ _ _).mono (h _ _))

theorem ofCtx_keeps {m : Nat} (q : Desc) (ctx : Nat) (s : State) (go : Ctx → State) (h : ∀ c, Keeps m s (go c)) (hm : 0x4408069 ||| m = m := by first | decide | exact Nat.or_self _ | (rw [Fld.nth_bit]; decide) | (rw [faultsFld_bit]; decide) | (rw [atmLo_bit1]; decide) | (rw [atmLo_bit2]; decide) | exact orSelf _ _ | exact orRight _ (by decide) | exact orRight _ (orSelf _ _) | exact orRight _ (orRight _ (by decide)) | exact orBoth _ (by decide) | exact Fld.bit_top _ | exact Fld.bit_regs _ | exact Fld.bit_top2 _ _ (by decide) | exact orSub (by assumption) (by decide) | (split <;> decide)) :
    Keeps m s (ofCtx q ctx s go) := by
  unfold ofCtx
  split
  · exact (State.fail_keeps _ _ _).mono
  · exact Keeps.ite (State.fail_keeps _ _ _).mono (h _)

theorem execSeqClass_keeps (d : Desc) (seq ctx : Nat) (parked : Bool) (s : State) : KNext 0x7E440AFEB s (execSeqClass d seq ctx parked s) := by
  unfold execSeqClass
  refine KNext.mk ?_
  refine Keeps.tr ?_ (runSeqEdit_keeps _ _ _ _ _ _ (fun v0 => ?_))
  · exact Keeps.refl _
  · refine Keeps.tr ?_ (ofSeq_keeps _ _ _ _ _ (fun v1 v2 => ?_))
    · exact Keeps.refl _
    · refine Keeps.trans ?_ (State.runEdit_keeps _ _ _ _)
      exact Keeps.refl _

theorem execCtxQuota_keeps (d : Desc) (ctx hbmMax hbmMin flashMax : Nat) (s : State) : KNext 0x4408069 s (execCtxQuota d ctx hbmMax hbmMin flashMax s) := by
  unfold execCtxQuota
  refine KNext.mk ?_
  refine Keeps.tr ?_ (runDesc_keeps _ _ _ _ _ (fun v0 => ?_))
  · exact Keeps.refl _
  · refine Keeps.tr ?_ (ofCtx_keeps _ _ _ _ (fun v1 => ?_))
    · exact Keeps.refl _
    · extract_lets +onlyGivenNames x2
      extract_lets +onlyGivenNames x3
      refine Keeps.ite ?_ ?_
      · refine Keeps.trans ?_ (State.fail_keeps _ _ _)
        exact Keeps.refl _
      · extract_lets +onlyGivenNames x4
        refine Keeps.cut (b := x4) ?_ ?_
        · unfold x4
          refine Keeps.trans ?_ (State.modCtx_keeps _ _ _ _)
          exact Keeps.refl _
        intro k5
        clear_value x4
        refine Keeps.trans ?_ (State.complete_keeps _ _ _ _ _)
        exact k5

theorem execPinSet_keeps (d : Desc) (id : Nat) (p : Pin) (s : State) : KNext 0x4A440ABEB s (execPinSet d id p s) := by
  unfold execPinSet
  refine KNext.mk ?_
  refine Keeps.tr ?_ (runDesc_keeps _ _ _ _ _ (fun v0 => ?_))
  · exact Keeps.refl _
  · refine Keeps.tr ?_ (ofSeq_keeps _ _ _ _ _ (fun v1 v2 => ?_))
    · exact Keeps.refl _
    · extract_lets +onlyGivenNames x3
      extract_lets +onlyGivenNames x4
      refine Keeps.ite ?_ ?_
      · refine Keeps.trans ?_ (State.fail_keeps _ _ _)
        exact Keeps.refl _
      · refine Keeps.trans ?_ (State.complete_keeps _ _ _ _ _)
        refine Keeps.trans ?_ (State.repin_keeps _ _)
        refine Keeps.trans ?_ (State.modStg_keeps _ _ _)
        exact Keeps.refl _

theorem execPinClear_keeps (d : Desc) (id ctx : Nat) (s : State) : KNext 0x4A440ABEB s (execPinClear d id ctx s) := by
  unfold execPinClear
  refine KNext.mk ?_
  refine Keeps.tr ?_ (runDesc_keeps _ _ _ _ _ (fun v0 => ?_))
  · exact Keeps.refl _
  · refine Keeps.tr ?_ (ofCtx_keeps _ _ _ _ (fun v1 => ?_))
    · exact Keeps.refl _
    · extract_lets +onlyGivenNames x2
      extract_lets +onlyGivenNames x3
      extract_lets +onlyGivenNames x4
      refine Keeps.cut (b := x4) ?_ ?_
      · unfold x4
        refine Keeps.trans ?_ (State.repin_keeps _ _)
        refine Keeps.trans ?_ (State.modStg_keeps _ _ _)
        exact Keeps.refl _
      intro k5
      clear_value x4
      refine Keeps.trans ?_ (State.complete_keeps _ _ _ _ _)
      exact k5

theorem State.setUnmet_keeps (s : State) (d : Nat) (l : List Hint) : Keeps 0x100000200 s (State.setUnmet s d l) := by
  unfold State.setUnmet
  refine Keeps.trans ?_ (State.hintCount_keeps _ _)
  refine Keeps.trans ?_ (State.modStg_keeps _ _ _)
  exact Keeps.refl _

theorem State.acceptHint_keeps (s : State) (d : Nat) (i : Nat) (x : Hint) : Keeps 0x5A440ABEB s (State.acceptHint s d i x) := by
  unfold State.acceptHint
  extract_lets +onlyGivenNames x0
  refine Keeps.cut (b := x0) ?_ ?_
  · unfold x0
    refine Keeps.trans ?_ (State.setUnmet_keeps _ _ _)
    exact Keeps.refl _
  intro k1
  clear_value x0
  extract_lets +onlyGivenNames x2
  refine Keeps.cut (b := x2) ?_ ?_
  · unfold x2
    refine Keeps.trans ?_ (State.fadd_keeps _ _ _ _)
    refine Keeps.trans ?_ (State.rehold_keeps _ _ _)
    exact k1
  intro k3
  clear_value x2
  refine Keeps.foldl _ _ (fun s4 y5 => ?_) ?_
  · refine Keeps.trans ?_ (State.stageIn_keeps _ _ _ _)
    exact Keeps.refl _
  · exact k3

theorem execPrefetch_keeps (d : Desc) (h : HintBody) (s : State) : KNext 0x7A440AFEB s (execPrefetch d h s) := by
  unfold execPrefetch
  refine KNext.mk ?_
  refine Keeps.tr ?_ (runDesc_keeps _ _ _ _ _ (fun v0 => ?_))
  · exact Keeps.refl _
  · refine Keeps.tr ?_ (ofSeq_keeps _ _ _ _ _ (fun v1 v2 => ?_))
    · exact Keeps.refl _
    · extract_lets +onlyGivenNames x3
      refine Keeps.ite ?_ ?_
      · split
        · rename_i z4 z5
          refine Keeps.trans ?_ (State.fail_keeps _ _ _)
          exact Keeps.refl _
        · rename_i z6 z7 z8
          extract_lets +onlyGivenNames x9
          refine Keeps.cut (b := x9) ?_ ?_
          · unfold x9
            refine Keeps.trans ?_ (State.rehold_keeps _ _ _)
            refine Keeps.trans ?_ (State.setUnmet_keeps _ _ _)
            exact Keeps.refl _
          intro k10
          clear_value x9
          refine Keeps.trans ?_ (State.complete_keeps _ _ _ _ _)
          exact k10
      · refine Keeps.ite ?_ ?_
        · refine Keeps.trans ?_ (State.fail_keeps _ _ _)
          exact Keeps.refl _
        · extract_lets +onlyGivenNames x11
          extract_lets +onlyGivenNames x12
          extract_lets +onlyGivenNames x13
          refine Keeps.ite ?_ ?_
          · refine Keeps.trans ?_ (State.fail_keeps _ _ _)
            exact Keeps.refl _
          · refine Keeps.ite ?_ ?_
            · refine Keeps.trans ?_ (State.fail_keeps _ _ _)
              exact Keeps.refl _
            · extract_lets +onlyGivenNames x14
              extract_lets +onlyGivenNames x15
              refine Keeps.ite ?_ ?_
              · extract_lets +onlyGivenNames x16
                extract_lets +onlyGivenNames x17
                extract_lets +onlyGivenNames x18
                refine Keeps.trans ?_ (State.meetHints_keeps _ _ _)
                refine Keeps.trans ?_ (State.complete_keeps _ _ _ _ _)
                refine Keeps.trans ?_ (State.acceptHint_keeps _ _ _ _)
                exact Keeps.refl _
              · refine Keeps.ite ?_ ?_
                · refine Keeps.trans ?_ (State.complete_keeps _ _ _ _ _)
                  exact Keeps.refl _
                · extract_lets +onlyGivenNames x19
                  extract_lets +onlyGivenNames x20
                  extract_lets +onlyGivenNames x21
                  split
                  · rename_i z22 z23 z24 z25 z26
                    refine Keeps.ite ?_ ?_
                    · extract_lets +onlyGivenNames x27
                      extract_lets +onlyGivenNames x28
                      refine Keeps.trans ?_ (State.complete_keeps _ _ _ _ _)
                      refine Keeps.trans ?_ (State.acceptHint_keeps _ _ _ _)
                      exact Keeps.refl _
                    · refine Keeps.trans ?_ (State.complete_keeps _ _ _ _ _)
                      refine Keeps.trans ?_ (State.fadd_keeps _ _ _ _)
                      exact Keeps.refl _

theorem execChunkExport_keeps (d : Desc) (ctx : Nat) (replica : Bool) (die : Option Nat) (key chain off room : Nat) (s : State) : KNext 0x5A440ABEB s (execChunkExport d ctx replica die key chain off room s) := by
  unfold execChunkExport
  refine KNext.mk ?_
  refine Keeps.tr ?_ (runDesc_keeps _ _ _ _ _ (fun v0 => ?_))
  · exact Keeps.refl _
  · refine Keeps.tr ?_ (ofCtx_keeps _ _ _ _ (fun v1 => ?_))
    · exact Keeps.refl _
    · extract_lets +onlyGivenNames x2
      split
      · rename_i z3 z4
        refine Keeps.trans ?_ (State.fail_keeps _ _ _)
        exact Keeps.refl _
      · rename_i z5 z6 z7 z8
        extract_lets +onlyGivenNames x9
        extract_lets +onlyGivenNames x10
        refine Keeps.ite ?_ ?_
        · refine Keeps.trans ?_ (State.fail_keeps _ _ _)
          exact Keeps.refl _
        · extract_lets +onlyGivenNames x11
          refine Keeps.ite ?_ ?_
          · refine Keeps.trans ?_ (State.fail_keeps _ _ _)
            exact Keeps.refl _
          · split
            · rename_i z12 z13
              refine Keeps.ite ?_ ?_
              · refine Keeps.trans ?_ (State.fail_keeps _ _ _)
                exact Keeps.refl _
              · refine Keeps.ite ?_ ?_
                · refine Keeps.trans ?_ (State.fail_keeps _ _ _)
                  exact Keeps.refl _
                · extract_lets +onlyGivenNames x14
                  refine Keeps.ite ?_ ?_
                  · refine Keeps.trans ?_ (State.fail_keeps _ _ _)
                    exact Keeps.refl _
                  · refine Keeps.ite ?_ ?_
                    · refine Keeps.trans ?_ (State.fail_keeps _ _ _)
                      refine Keeps.trans ?_ (State.nomem_keeps _ _)
                      exact Keeps.refl _
                    · split
                      · rename_i z15 z16 z17 z18
                        refine Keeps.cut (b := z17) ?_ ?_
                        · refine KSnd.eq z18 ?_
                          refine KSnd.trans ?_ (State.takeSegs_keeps _ _ _)
                          exact Keeps.refl _
                        intro k19
                        extract_lets +onlyGivenNames x20
                        extract_lets +onlyGivenNames x21
                        refine Keeps.cut (b := x21) ?_ ?_
                        · unfold x21
                          refine Keeps.trans ?_ (State.fadd_keeps _ _ _ _)
                          exact k19
                        intro k22
                        clear_value x21
                        refine Keeps.ite ?_ ?_
                        · split
                          · rename_i z23 z24 z25 z26
                            refine Keeps.cut (b := z25) ?_ ?_
                            · refine KSnd.eq z26 ?_
                              refine KSnd.trans ?_ (State.addReplica_keeps _ _ _)
                              exact k22
                            intro k27
                            refine Keeps.trans ?_ (State.complete_keeps _ _ _ _ _)
                            exact k27
                        · refine Keeps.trans ?_ (State.complete_keeps _ _ _ _ _)
                          refine Keeps.trans ?_ (State.modStg_keeps _ _ _)
                          exact k22
            · rename_i z28
              split
              · rename_i z29 z30
                refine Keeps.trans ?_ (State.fail_keeps _ _ _)
                exact Keeps.refl _
              · rename_i z31 z32 z33
                refine Keeps.ite ?_ ?_
                · refine Keeps.trans ?_ (State.fail_keeps _ _ _)
                  exact Keeps.refl _
                · refine Keeps.ite ?_ ?_
                  · refine Keeps.trans ?_ (State.fail_keeps _ _ _)
                    exact Keeps.refl _
                  · extract_lets +onlyGivenNames x34
                    extract_lets +onlyGivenNames x35
                    extract_lets +onlyGivenNames x36
                    refine Keeps.cut (b := x36) ?_ ?_
                    · unfold x36
                      refine Keeps.trans ?_ (State.modStg_keeps _ _ _)
                      refine Keeps.trans ?_ (State.openHolder_keeps _ _)
                      exact Keeps.refl _
                    intro k37
                    clear_value x36
                    refine Keeps.foldl _ _ (fun s38 y39 => ?_) ?_
                    · refine KSnd.get ?_
                      refine KSnd.trans ?_ (State.sendWrite_keeps _ _ _ _ _ _ _ _ _ _ _)
                      exact Keeps.refl _
                    · exact k37

theorem execChunkImport_keeps (d : Desc) (ctx : Nat) (replica : Bool) (key off bytes : Nat) (s : State) : KNext 0x42440ABE9 s (execChunkImport d ctx replica key off bytes s) := by
  unfold execChunkImport
  refine KNext.mk ?_
  refine Keeps.tr ?_ (runDesc_keeps _ _ _ _ _ (fun v0 => ?_))
  · exact Keeps.refl _
  · refine Keeps.tr ?_ (ofCtx_keeps _ _ _ _ (fun v1 => ?_))
    · exact Keeps.refl _
    · extract_lets +onlyGivenNames x2
      refine Keeps.ite ?_ ?_
      · refine Keeps.trans ?_ (State.fail_keeps _ _ _)
        exact Keeps.refl _
      · refine Keeps.ite ?_ ?_
        · refine Keeps.trans ?_ (State.fail_keeps _ _ _)
          exact Keeps.refl _
        · extract_lets +onlyGivenNames x3
          refine Keeps.trans ?_ (State.readImport_keeps _ _ _ _ _)
          refine Keeps.trans ?_ (State.modStg_keeps _ _ _)
          exact Keeps.refl _

theorem State.stageBad_keeps (s : State) (d page : Nat) : Keeps 0x5E440ABEB s (State.stageBad s d page) := by
  unfold State.stageBad
  extract_lets +onlyGivenNames x0
  refine Keeps.cut (b := x0) ?_ ?_
  · unfold x0
    refine Keeps.trans ?_ (State.evtDie_keeps _ _ _)
    exact Keeps.refl _
  intro k1
  clear_value x0
  extract_lets +onlyGivenNames x2
  refine Keeps.cut (b := x2) ?_ ?_
  · unfold x2
    refine Keeps.trans ?_ (State.modPage_keeps _ _ _ _)
    refine Keeps.trans ?_ (State.endTask_keeps _ _ _)
    exact k1
  intro k3
  clear_value x2
  extract_lets +onlyGivenNames x4
  refine Keeps.cut (b := x4) ?_ ?_
  · unfold x4
    refine Keeps.trans ?_ (State.modCsm_keeps _ _ _)
    exact k3
  intro k5
  clear_value x4
  refine Keeps.trans ?_ (State.rebuildStep_keeps _ _ _ _)
  refine Keeps.trans ?_ (State.fsat_keeps _ _ _ _)
  exact k5

theorem State.afterTask_keeps (s : State) (d : Nat) : Keeps 0x7E440AFEB s (State.afterTask s d) := by
  unfold State.afterTask
  extract_lets +onlyGivenNames x0
  refine Keeps.cut (b := x0) ?_ ?_
  · unfold x0
    refine Keeps.trans ?_ (State.retryEdits_keeps _ _ _)
    exact Keeps.refl _
  intro k1
  clear_value x0
  refine Keeps.trans ?_ (State.retryTasks_keeps _ _)
  refine Keeps.trans ?_ (State.meetHints_keeps _ _ _)
  exact k1

theorem execStagingReadDone_keeps (d page : Nat) (read : CopyRead) (s : State) : KNext 0x7E440AFEB s (execStagingReadDone d page read s) := by
  unfold execStagingReadDone
  split
  · rename_i z0 z1 z2 z3 z4 z5
    refine KNext.ite ?_ ?_
    · refine KNext.mk ?_
      exact Keeps.refl _
    · extract_lets +onlyGivenNames x6
      extract_lets +onlyGivenNames x7
      split
      · rename_i z8 z9 z10
        refine KNext.mk ?_
        exact Keeps.refl _
      · rename_i z11 z12 z13 z14 z15
        refine KNext.mk ?_
        refine Keeps.ite ?_ ?_
        · refine Keeps.trans ?_ (State.afterTask_keeps _ _)
          refine Keeps.trans ?_ (State.makeResident_keeps _ _ _)
          exact Keeps.refl _
        · unfold x7
          refine Keeps.ite ?_ ?_
          · refine Keeps.trans ?_ (State.afterTask_keeps _ _)
            refine Keeps.trans ?_ (State.modPage_keeps _ _ _ _)
            refine Keeps.trans ?_ (State.makeResident_keeps _ _ _)
            exact Keeps.refl _
          · refine Keeps.trans ?_ (State.afterTask_keeps _ _)
            refine Keeps.trans ?_ (State.stageBad_keeps _ _ _)
            exact Keeps.refl _
      · rename_i z16 z17 z18 z19 z20 z21
        refine KNext.mk ?_
        refine Keeps.ite ?_ ?_
        · refine Keeps.trans ?_ (State.afterTask_keeps _ _)
          refine Keeps.trans ?_ (State.stageBad_keeps _ _ _)
          exact Keeps.refl _
        · unfold x7
          refine Keeps.ite ?_ ?_
          · refine Keeps.trans ?_ (State.afterTask_keeps _ _)
            refine Keeps.trans ?_ (State.modPage_keeps _ _ _ _)
            refine Keeps.trans ?_ (State.makeResident_keeps _ _ _)
            exact Keeps.refl _
          · refine Keeps.trans ?_ (State.afterTask_keeps _ _)
            refine Keeps.trans ?_ (State.stageBad_keeps _ _ _)
            exact Keeps.refl _
      · rename_i z22 z23 z24
        extract_lets +onlyGivenNames x25
        refine KNext.cut (b := x25) ?_ ?_
        · unfold x25
          refine Keeps.trans ?_ (State.dropReplica_keeps _ _ _)
          exact Keeps.refl _
        intro k26
        clear_value x25
        refine KNext.mk ?_
        refine Keeps.ite ?_ ?_
        · refine Keeps.trans ?_ (State.rereadTask_keeps _ _ _)
          exact k26
        · refine Keeps.trans ?_ (State.afterTask_keeps _ _)
          refine Keeps.trans ?_ (State.stageBad_keeps _ _ _)
          exact k26
      · rename_i z27 z28 z29 z30 z31 z32
        refine KNext.mk ?_
        refine Keeps.trans ?_ (State.afterTask_keeps _ _)
        refine Keeps.trans ?_ (State.stageBad_keeps _ _ _)
        exact Keeps.refl _
  · rename_i z33 z34 z35
    refine KNext.mk ?_
    exact Keeps.refl _

theorem execHeldExpiry_keeps (d t : Nat) (s : State) : KNext 0x200310 s (execHeldExpiry d t s) := by
  unfold execHeldExpiry
  extract_lets +onlyGivenNames x0
  refine KNext.cut (b := x0) ?_ ?_
  · unfold x0
    refine Keeps.trans ?_ (State.advanceTo_keeps _ _)
    exact Keeps.refl _
  intro k1
  clear_value x0
  extract_lets +onlyGivenNames x2
  extract_lets +onlyGivenNames x3
  refine KNext.cut (b := x3) ?_ ?_
  · unfold x3
    refine Keeps.trans ?_ (State.modStg_keeps _ _ _)
    exact k1
  intro k4
  clear_value x3
  refine KNext.mk ?_
  refine Keeps.foldl _ _ (fun s5 y6 => ?_) ?_
  · refine Keeps.trans ?_ (State.rehold_keeps _ _ _)
    exact Keeps.refl _
  · exact k4

theorem execPlacementScan_keeps (d page : Nat) (s : State) : KNext 0x100000100 s (execPlacementScan d page s) := by
  unfold execPlacementScan
  split
  · rename_i z0 z1
    refine KNext.mk ?_
    exact Keeps.refl _
  · rename_i z2 z3 z4
    extract_lets +onlyGivenNames x5
    extract_lets +onlyGivenNames x6
    extract_lets +onlyGivenNames x7
    extract_lets +onlyGivenNames x8
    extract_lets +onlyGivenNames x9
    extract_lets +onlyGivenNames x10
    refine KNext.cut (b := x10) ?_ ?_
    · unfold x10
      refine Keeps.trans ?_ (State.modPage_keeps _ _ _ _)
      exact Keeps.refl _
    intro k11
    clear_value x10
    refine KNext.ite ?_ ?_
    · refine KNext.mk ?_
      refine Keeps.trans ?_ (State.releaseFrame_keeps _ _ _)
      exact k11
    · refine KNext.mk ?_
      exact k11

theorem State.readQueued_keeps (s : State) (d : Nat) : KSnd 0x100000000 s (State.readQueued s d) := by
  unfold State.readQueued
  refine KSnd.ite ?_ ?_
  · refine KSnd.mk ?_
    exact Keeps.refl _
  · extract_lets +onlyGivenNames x0
    refine KSnd.mk ?_
    refine Keeps.trans ?_ (State.fset_keeps _ _ _ _)
    refine Keeps.trans ?_ (State.fset_keeps _ _ _ _)
    exact Keeps.refl _

theorem execStgQueuedLoRead_keeps (d : Nat) (via : Via) (s : State) : KNext 0x100400041 s (execStgQueuedLoRead d via s) := by
  unfold execStgQueuedLoRead
  refine KNext.mk ?_
  refine Keeps.tr ?_ (regRead_keeps _ _ _ _ (fun v0 => ?_))
  · exact Keeps.refl _
  · refine KSnd.trans ?_ (State.readQueued_keeps _ _)
    exact Keeps.refl _

end Sys2Proof.Machine
end

