-- ==== Sys2Proof/Laws/KeepsMedia.lean ====
section
/-!
SUPPORT. Sys2Proof/Laws/KeepsMedia.lean: each operation of Machine/Media.lean keeps what `Keeps` says, with the parts of the state it may
touch.
-/
namespace Sys2Proof.Machine
set_option Elab.async false

theorem State.dropStale_keeps (s : State) (d : Nat) (o : FObj) : Keeps 0x4408469 s (State.dropStale s d o) := by
  unfold State.dropStale
  extract_lets +onlyGivenNames x0
  refine Keeps.cut (b := x0) ?_ ?_
  · unfold x0
    refine Keeps.trans ?_ (State.dropObj_keeps _ _ _)
    exact Keeps.refl _
  intro k1
  clear_value x0
  split
  · rename_i z2 z3 z4
    refine Keeps.trans ?_ (State.endTaskWith_keeps _ _ _ _)
    exact k1
  · rename_i z5 z6
    exact k1

theorem State.startReloc_keeps (s : State) (d : Nat) (o : FObj) (urgent : Bool) : KOpt 0x200000400 (fun r => r) s (State.startReloc s d o urgent) := by
  unfold State.startReloc
  refine KOpt.ite ?_ ?_
  · refine KOpt.mk ?_
    exact Keeps.refl _
  · split
    · rename_i z0 z1
      trivial
    · rename_i z2 z3 z4 z5
      refine KOpt.cut (b := z4) ?_ ?_
      · refine KOpt.eq (g := fun (r : Sys2Proof.Machine.FLoc × Sys2Proof.Machine.State) => r.2) (r := (z3, z4)) z5 ?_
        refine KOpt.trans ?_ (State.writeObj_keeps _ _ _ _ _ _ _ _ _)
        exact Keeps.refl _
      intro k6
      refine KOpt.mk ?_
      refine Keeps.trans ?_ (State.modFtl_keeps _ _ _)
      exact k6

theorem State.gcStatus_keeps (s : State) (d : Nat) : Keeps 0x200000000 s (State.gcStatus s d) := by
  unfold State.gcStatus
  refine Keeps.trans ?_ (State.fput_keeps _ _ _ _)
  exact Keeps.refl _

theorem State.runRefresh_keeps (s : State) (d : Nat) : Keeps 0x200000400 s (State.runRefresh s d) := by
  unfold State.runRefresh
  refine Keeps.ite ?_ ?_
  · exact Keeps.refl _
  · refine Keeps.foldl _ _ (fun s0 y1 => ?_) ?_
    · extract_lets +onlyGivenNames x2
      split
      · rename_i z3 z4
        unfold x2
        refine Keeps.trans ?_ (State.modFtl_keeps _ _ _)
        exact Keeps.refl _
      · rename_i z5 z6 z7
        split
        · rename_i z8 z9
          exact Keeps.refl _
        · rename_i z10 z11 z12
          refine Keeps.cut (b := z11) ?_ ?_
          · refine KOpt.eq (g := fun (r : Sys2Proof.Machine.State) => r) (r := z11) z12 ?_
            refine KOpt.trans ?_ (State.startReloc_keeps _ _ _ _)
            exact Keeps.refl _
          intro k13
          refine Keeps.ite ?_ ?_
          · unfold x2
            refine Keeps.trans ?_ (State.modFtl_keeps _ _ _)
            exact k13
          · refine Keeps.trans ?_ (State.fadd_keeps _ _ _ _)
            unfold x2
            refine Keeps.trans ?_ (State.modFtl_keeps _ _ _)
            exact k13
    · exact Keeps.refl _

theorem State.gcAdvance_keeps (s : State) (d : Nat) : Keeps 0x200000400 s (State.gcAdvance s d) := by
  unfold State.gcAdvance
  extract_lets +onlyGivenNames x0
  refine Keeps.cut (b := x0) ?_ ?_
  · unfold x0
    refine Keeps.ite ?_ ?_
    · exact Keeps.refl _
    · refine Keeps.foldl _ _ (fun s1 y2 => ?_) ?_
      · refine KOpt.getD ?_ ?_
        · refine KOpt.trans ?_ (State.startReloc_keeps _ _ _ _)
          exact Keeps.refl _
        · exact Keeps.refl _
      · exact Keeps.refl _
  intro k3
  clear_value x0
  extract_lets +onlyGivenNames x4
  refine Keeps.trans ?_ (State.serve_keeps _ _)
  refine Keeps.trans ?_ (State.gcStatus_keeps _ _)
  refine Keeps.foldl _ _ (fun s5 y6 => ?_) ?_
  · refine Keeps.trans ?_ (State.modBand_keeps _ _ _ _)
    exact Keeps.refl _
  · exact k3

theorem State.gcPick_keeps (s : State) (d : Nat) : Keeps 0x200408449 s (State.gcPick s d) := by
  unfold State.gcPick
  split
  · rename_i z0 z1
    refine Keeps.trans ?_ (State.roCheck_keeps _ _)
    exact Keeps.refl _
  · rename_i z2 z3 z4 z5
    refine Keeps.trans ?_ (State.gcAdvance_keeps _ _)
    refine Keeps.trans ?_ (State.modBand_keeps _ _ _ _)
    exact Keeps.refl _

theorem State.gcGo_keeps (s : State) (d : Nat) : Keeps 0x200408449 s (State.gcGo s d) := by
  unfold State.gcGo
  extract_lets +onlyGivenNames x0
  extract_lets +onlyGivenNames x1
  extract_lets +onlyGivenNames x2
  refine Keeps.cut (b := x2) ?_ ?_
  · unfold x2
    refine Keeps.trans ?_ (State.modFtl_keeps _ _ _)
    exact Keeps.refl _
  intro k3
  clear_value x2
  extract_lets +onlyGivenNames x4
  refine Keeps.ite ?_ ?_
  · refine Keeps.trans ?_ (State.gcPick_keeps _ _)
    exact k3
  · exact k3

theorem execGcStart_keeps (d : Nat) (s : State) : KNext 0x200408449 s (execGcStart d s) := by
  unfold execGcStart
  refine KNext.ite ?_ ?_
  · refine KNext.mk ?_
    exact Keeps.refl _
  · refine KNext.mk ?_
    refine Keeps.trans ?_ (State.roCheck_keeps _ _)
    refine Keeps.trans ?_ (State.gcGo_keeps _ _)
    refine Keeps.trans ?_ (State.runRefresh_keeps _ _)
    exact Keeps.refl _

theorem State.retireMember_keeps (s : State) (d c lun block cause : Nat) : Keeps 0x200408449 s (State.retireMember s d c lun block cause) := by
  unfold State.retireMember
  extract_lets +onlyGivenNames x0
  extract_lets +onlyGivenNames x1
  extract_lets +onlyGivenNames x2
  refine Keeps.cut (b := x2) ?_ ?_
  · unfold x2
    refine Keeps.trans ?_ (State.modFtl_keeps _ _ _)
    exact Keeps.refl _
  intro k3
  clear_value x2
  refine Keeps.trans ?_ (State.wearCheck_keeps _ _)
  refine KSnd.get ?_
  refine KSnd.trans ?_ (State.journal_keeps _ _ _ _)
  exact k3

theorem State.redo_keeps (s : State) (d : Nat) (k : BandKind) (o : FObj) : Keeps 0x200408449 s (State.redo s d k o) := by
  unfold State.redo
  split
  · rename_i z0 z1 z2
    extract_lets +onlyGivenNames x3
    refine Keeps.cut (b := x3) ?_ ?_
    · unfold x3
      refine Keeps.trans ?_ (State.dropObj_keeps _ _ _)
      exact Keeps.refl _
    intro k4
    clear_value x3
    split
    · rename_i z5 z6 z7
      refine KOpt.getD ?_ ?_
      · refine KOpt.trans ?_ (State.startReloc_keeps _ _ _ _)
        exact k4
      · exact k4
    · rename_i z8 z9
      exact k4
  · rename_i z10 z11
    extract_lets +onlyGivenNames x12
    refine Keeps.cut (b := x12) ?_ ?_
    · unfold x12
      refine Keeps.ite ?_ ?_
      · exact Keeps.refl _
      · refine Keeps.trans ?_ (State.dropObj_keeps _ _ _)
        exact Keeps.refl _
    intro k13
    clear_value x12
    split
    · rename_i z14 z15 z16 z17
      refine Keeps.cut (b := z16) ?_ ?_
      · refine KOpt.eq (g := fun (r : Sys2Proof.Machine.FLoc × Sys2Proof.Machine.State) => r.2) (r := (z15, z16)) z17 ?_
        refine KOpt.trans ?_ (State.writeObj_keeps _ _ _ _ _ _ _ _ _)
        exact k13
      intro k18
      exact k18
    · rename_i z19 z20
      extract_lets +onlyGivenNames x21
      refine Keeps.cut (b := x21) ?_ ?_
      · unfold x21
        refine Keeps.trans ?_ (State.roCheck_keeps _ _)
        exact k13
      intro k22
      clear_value x21
      refine Keeps.ite ?_ ?_
      · refine Keeps.trans ?_ (State.modFtl_keeps _ _ _)
        exact k22
      · exact k22

theorem State.writeParity_keeps (s : State) (d band stripe : Nat) : Keeps 0x200408449 s (State.writeParity s d band stripe) := by
  unfold State.writeParity
  split
  · rename_i z0 z1
    refine Keeps.trans ?_ (State.roCheck_keeps _ _)
    exact Keeps.refl _
  · rename_i z2 z3 z4 z5
    extract_lets +onlyGivenNames x6
    extract_lets +onlyGivenNames x7
    extract_lets +onlyGivenNames x8
    extract_lets +onlyGivenNames x9
    extract_lets +onlyGivenNames x10
    refine Keeps.cut (b := x10) ?_ ?_
    · unfold x10
      refine Keeps.trans ?_ (State.modFtl_keeps _ _ _)
      exact Keeps.refl _
    intro k11
    clear_value x10
    refine Keeps.trans ?_ (State.serve_keeps _ _)
    refine Keeps.trans ?_ (State.rollJournal_keeps _ _ _)
    exact k11

theorem State.journalFail_keeps (s : State) (d band code : Nat) : Keeps 0x200408449 s (State.journalFail s d band code) := by
  unfold State.journalFail
  extract_lets +onlyGivenNames x0
  split
  · rename_i z1 z2
    exact Keeps.refl _
  · rename_i z3 z4 z5
    extract_lets +onlyGivenNames x6
    extract_lets +onlyGivenNames x7
    refine Keeps.cut (b := x7) ?_ ?_
    · unfold x7
      refine Keeps.trans ?_ (State.modFtl_keeps _ _ _)
      exact Keeps.refl _
    intro k8
    clear_value x7
    extract_lets +onlyGivenNames x9
    refine Keeps.cut (b := x9) ?_ ?_
    · unfold x9
      refine Keeps.trans ?_ (State.placePages_keeps _ _)
      exact k8
    intro k10
    clear_value x9
    refine Keeps.trans ?_ (State.roCheck_keeps _ _)
    refine Keeps.foldl _ _ (fun s11 y12 => ?_) ?_
    · split
      · rename_i z13 z14 z15 z16
        refine Keeps.trans ?_ (State.writeParity_keeps _ _ _ _)
        exact Keeps.refl _
      · rename_i z17 z18
        exact Keeps.refl _
    · exact k10

theorem State.progFail_keeps (s : State) (d band stripe member : Nat) : Keeps 0x200408449 s (State.progFail s d band stripe member) := by
  unfold State.progFail
  split
  · rename_i z0 z1
    exact Keeps.refl _
  · rename_i z2 z3 z4
    extract_lets +onlyGivenNames x5
    refine Keeps.cut (b := x5) ?_ ?_
    · unfold x5
      refine Keeps.trans ?_ (State.evtDie_keeps _ _ _)
      refine Keeps.trans ?_ (State.fadd_keeps _ _ _ _)
      exact Keeps.refl _
    intro k6
    clear_value x5
    extract_lets +onlyGivenNames x7
    refine Keeps.cut (b := x7) ?_ ?_
    · unfold x7
      split
      · rename_i z8 z9 z10
        refine Keeps.trans ?_ (State.retireMember_keeps _ _ _ _ _ _)
        exact k6
      · rename_i z11 z12
        exact k6
    intro k13
    clear_value x7
    refine Keeps.ite ?_ ?_
    · refine Keeps.trans ?_ (State.journalFail_keeps _ _ _ _)
      exact k13
    · extract_lets +onlyGivenNames x14
      refine Keeps.cut (b := x14) ?_ ?_
      · unfold x14
        refine Keeps.trans ?_ (State.closeBand_keeps _ _ _)
        exact k13
      intro k15
      clear_value x14
      extract_lets +onlyGivenNames x16
      extract_lets +onlyGivenNames x17
      refine Keeps.trans ?_ (State.serve_keeps _ _)
      refine Keeps.foldl _ _ (fun s18 y19 => ?_) ?_
      · refine Keeps.trans ?_ (State.redo_keeps _ _ _ _)
        exact Keeps.refl _
      · exact k15

theorem State.partialParity_keeps (s : State) (d : Nat) : Keeps 0x200408449 s (State.partialParity s d) := by
  unfold State.partialParity
  extract_lets +onlyGivenNames x0
  refine Keeps.ite ?_ ?_
  · exact Keeps.refl _
  · extract_lets +onlyGivenNames x1
    refine Keeps.cut (b := x1) ?_ ?_
    · unfold x1
      refine Keeps.foldl _ _ (fun s2 y3 => ?_) ?_
      · split
        · rename_i z4 z5 z6
          refine Keeps.ite ?_ ?_
          · exact Keeps.refl _
          · refine Keeps.trans ?_ (State.writeParity_keeps _ _ _ _)
            refine Keeps.trans ?_ (State.modFtl_keeps _ _ _)
            exact Keeps.refl _
        · rename_i z7 z8
          exact Keeps.refl _
      · exact Keeps.refl _
    intro k9
    clear_value x1
    refine Keeps.trans ?_ (State.issueJournal_keeps _ _)
    exact k9

theorem State.pastParity_keeps (s : State) (d : Nat) : Keeps 0x400 s (State.pastParity s d) := by
  unfold State.pastParity
  extract_lets +onlyGivenNames x0
  refine Keeps.cut (b := x0) ?_ ?_
  · unfold x0
    refine Keeps.foldl _ _ (fun s1 y2 => ?_) ?_
    · refine Keeps.trans ?_ (State.modBand_keeps _ _ _ _)
      exact Keeps.refl _
    · exact Keeps.refl _
  intro k3
  clear_value x0
  refine Keeps.trans ?_ (State.modFtl_keeps _ _ _)
  exact k3

theorem State.pageDurable_keeps (s : State) (d i : Nat) : Keeps 0x7F440AFEB s (State.pageDurable s d i) := by
  unfold State.pageDurable
  extract_lets +onlyGivenNames x0
  extract_lets +onlyGivenNames x1
  refine Keeps.cut (b := x1) ?_ ?_
  · unfold x1
    refine Keeps.trans ?_ (State.modFtl_keeps _ _ _)
    exact Keeps.refl _
  intro k2
  clear_value x1
  extract_lets +onlyGivenNames x3
  refine Keeps.cut (b := x3) ?_ ?_
  · unfold x3
    refine Keeps.trans ?_ (State.jAdvance_keeps _ _ _)
    exact k2
  intro k4
  clear_value x3
  extract_lets +onlyGivenNames x5
  refine Keeps.cut (b := x5) ?_ ?_
  · unfold x5
    refine Keeps.trans ?_ (State.finishTasks_keeps _ _ _)
    exact k4
  intro k6
  clear_value x5
  extract_lets +onlyGivenNames x7
  refine Keeps.cut (b := x7) ?_ ?_
  · unfold x7
    refine Keeps.trans ?_ (State.retryEdits_keeps _ _ _)
    exact k6
  intro k8
  clear_value x7
  extract_lets +onlyGivenNames x9
  refine Keeps.cut (b := x9) ?_ ?_
  · unfold x9
    refine Keeps.ite ?_ ?_
    · refine Keeps.trans ?_ (State.issueJournal_keeps _ _)
      exact k8
    · exact k8
  intro k10
  clear_value x9
  refine Keeps.trans ?_ (State.gcAdvance_keeps _ _)
  exact k10

theorem State.journalPage_keeps (s : State) (d i ns : Nat) : Keeps 0x7F440AFEB s (State.journalPage s d i ns) := by
  unfold State.journalPage
  split
  · rename_i z0 z1
    exact Keeps.refl _
  · rename_i z2 z3 z4
    extract_lets +onlyGivenNames x5
    extract_lets +onlyGivenNames x6
    refine Keeps.ite ?_ ?_
    · exact Keeps.refl _
    · extract_lets +onlyGivenNames x7
      extract_lets +onlyGivenNames x8
      refine Keeps.cut (b := x8) ?_ ?_
      · unfold x8
        refine Keeps.trans ?_ (State.modFtl_keeps _ _ _)
        exact Keeps.refl _
      intro k9
      clear_value x8
      extract_lets +onlyGivenNames x10
      refine Keeps.cut (b := x10) ?_ ?_
      · unfold x10
        refine Keeps.foldl _ _ (fun s11 y12 => ?_) ?_
        · refine Keeps.trans ?_ (State.chanTime_keeps _ _ _ _ _)
          refine Keeps.trans ?_ (State.pmc_keeps _ _ _ _ _ _)
          exact Keeps.refl _
        · exact k9
      intro k13
      clear_value x10
      refine Keeps.trans ?_ (State.partialParity_keeps _ _)
      refine Keeps.trans ?_ (State.serve_keeps _ _)
      refine Keeps.trans ?_ (State.pageDurable_keeps _ _ _)
      exact k13

theorem State.journalOk_keeps (s : State) (d band : Nat) (b : Band) (stripe member : Nat) : Keeps 0x7F440AFEB s (State.journalOk s d band b stripe member) := by
  unfold State.journalOk
  split
  · rename_i z0 z1 z2 z3
    extract_lets +onlyGivenNames x4
    refine Keeps.cut (b := x4) ?_ ?_
    · unfold x4
      refine Keeps.trans ?_ (State.modFtl_keeps _ _ _)
      exact Keeps.refl _
    intro k5
    clear_value x4
    refine Keeps.ite ?_ ?_
    · refine Keeps.trans ?_ (State.pageDurable_keeps _ _ _)
      exact k5
    · exact k5
  · rename_i z6 z7
    extract_lets +onlyGivenNames x8
    split
    · rename_i z9 z10 z11
      extract_lets +onlyGivenNames x12
      refine Keeps.cut (b := x12) ?_ ?_
      · unfold x12
        refine Keeps.trans ?_ (State.objPassed_keeps _ _ _)
        exact Keeps.refl _
      intro k13
      clear_value x12
      refine Keeps.ite ?_ ?_
      · refine Keeps.trans ?_ (State.issueJournal_keeps _ _)
        exact k13
      · exact k13
    · rename_i z14 z15
      exact Keeps.refl _

theorem State.progOk_keeps (s : State) (d band stripe member : Nat) : Keeps 0x7F440AFEB s (State.progOk s d band stripe member) := by
  unfold State.progOk
  split
  · rename_i z0 z1
    exact Keeps.refl _
  · rename_i z2 z3 z4
    extract_lets +onlyGivenNames x5
    extract_lets +onlyGivenNames x6
    refine Keeps.cut (b := x6) ?_ ?_
    · unfold x6
      refine Keeps.trans ?_ (State.pmc_keeps _ _ _ _ _ _)
      exact Keeps.refl _
    intro k7
    clear_value x6
    refine Keeps.ite ?_ ?_
    · refine Keeps.trans ?_ (State.journalOk_keeps _ _ _ _ _ _)
      exact k7
    · refine Keeps.ite ?_ ?_
      · refine Keeps.trans ?_ (State.modBand_keeps _ _ _ _)
        exact k7
      · extract_lets +onlyGivenNames x8
        extract_lets +onlyGivenNames x9
        refine Keeps.cut (b := x9) ?_ ?_
        · unfold x9
          refine Keeps.trans ?_ (State.modBand_keeps _ _ _ _)
          refine Keeps.trans ?_ (State.bw_keeps _ _ _ _)
          exact k7
        intro k10
        clear_value x9
        extract_lets +onlyGivenNames x11
        extract_lets +onlyGivenNames x12
        refine Keeps.cut (b := x12) ?_ ?_
        · unfold x12
          refine Keeps.foldl _ _ (fun s13 y14 => ?_) ?_
          · refine Keeps.trans ?_ (State.dropStale_keeps _ _ _)
            exact Keeps.refl _
          · exact k10
        intro k15
        clear_value x12
        extract_lets +onlyGivenNames x16
        refine Keeps.cut (b := x16) ?_ ?_
        · unfold x16
          refine Keeps.trans ?_ (State.modFtl_keeps _ _ _)
          exact k15
        intro k17
        clear_value x16
        extract_lets +onlyGivenNames x18
        refine Keeps.foldl _ _ (fun s19 y20 => ?_) ?_
        · refine Keeps.trans ?_ (State.objPassed_keeps _ _ _)
          exact Keeps.refl _
        · exact k17

theorem State.anchorDone_keeps (s : State) (d : Nat) : Keeps 0x200000400 s (State.anchorDone s d) := by
  unfold State.anchorDone
  split
  · rename_i z0 z1
    exact Keeps.refl _
  · rename_i z2 z3 z4
    extract_lets +onlyGivenNames x5
    refine Keeps.cut (b := x5) ?_ ?_
    · unfold x5
      refine Keeps.trans ?_ (State.modFtl_keeps _ _ _)
      exact Keeps.refl _
    intro k6
    clear_value x5
    extract_lets +onlyGivenNames x7
    refine Keeps.trans ?_ (State.serve_keeps _ _)
    refine Keeps.trans ?_ (State.gcStatus_keeps _ _)
    refine Keeps.foldl _ _ (fun s8 y9 => ?_) ?_
    · refine Keeps.trans ?_ (State.freeObj_keeps _ _ _ _)
      exact Keeps.refl _
    · exact k6

theorem State.endOp_keeps (s : State) (d k : Nat) (op : FOp) (ns : Nat) : Keeps 0x400 s (State.endOp s d k op ns) := by
  unfold State.endOp
  refine Keeps.trans ?_ (State.chanTime_keeps _ _ _ _ _)
  refine Keeps.trans ?_ (State.modFtl_keeps _ _ _)
  exact Keeps.refl _

theorem State.programDone_keeps (s : State) (d band stripe member : Nat) (ok : Bool) (ns : Nat) : Keeps 0x7F440AFEB s (State.programDone s d band stripe member ok ns) := by
  unfold State.programDone
  extract_lets +onlyGivenNames x0
  split
  · rename_i z1 z2
    exact Keeps.refl _
  · rename_i z3 z4 z5
    extract_lets +onlyGivenNames x6
    refine Keeps.cut (b := x6) ?_ ?_
    · unfold x6
      refine Keeps.trans ?_ (State.endOp_keeps _ _ _ _ _)
      exact Keeps.refl _
    intro k7
    clear_value x6
    extract_lets +onlyGivenNames x8
    refine Keeps.cut (b := x8) ?_ ?_
    · unfold x8
      refine Keeps.ite ?_ ?_
      · refine Keeps.ite ?_ ?_
        · refine Keeps.trans ?_ (State.anchorDone_keeps _ _)
          exact k7
        · exact k7
      · refine Keeps.ite ?_ ?_
        · refine Keeps.trans ?_ (State.progOk_keeps _ _ _ _ _)
          exact k7
        · refine Keeps.trans ?_ (State.progFail_keeps _ _ _ _ _)
          exact k7
    intro k9
    clear_value x8
    refine Keeps.trans ?_ (State.partialParity_keeps _ _)
    refine Keeps.trans ?_ (State.serve_keeps _ _)
    exact k9

theorem State.takeRead_keeps (s : State) (d : Nat) (use : ReadUse) (r : SectorRead) : KOpt 0x400 (fun r => r) s (State.takeRead s d use r) := by
  unfold State.takeRead
  extract_lets +onlyGivenNames x0
  extract_lets +onlyGivenNames x1
  extract_lets +onlyGivenNames x2
  extract_lets +onlyGivenNames x3
  refine KOpt.ite ?_ ?_
  · trivial
  · refine KOpt.ite ?_ ?_
    · trivial
    · split
      · rename_i z4 z5
        refine KOpt.mk ?_
        exact Keeps.refl _
      · rename_i z6 z7 z8 z9 z10
        refine KOpt.ite ?_ ?_
        · refine KOpt.mk ?_
          refine Keeps.trans ?_ (State.modFtl_keeps _ _ _)
          exact Keeps.refl _
        · trivial

theorem State.readSector_keeps (s : State) (d : Nat) (r : SectorRead) : KSnd 0x204408449 s (State.readSector s d r) := by
  unfold State.readSector
  extract_lets +onlyGivenNames x0
  extract_lets +onlyGivenNames x1
  extract_lets +onlyGivenNames x2
  extract_lets +onlyGivenNames x3
  extract_lets +onlyGivenNames x4
  split
  · rename_i z5 z6 z7 z8
    extract_lets +onlyGivenNames x9
    extract_lets +onlyGivenNames x10
    refine KSnd.cut (b := x10) ?_ ?_
    · unfold x10
      refine Keeps.ite ?_ ?_
      · refine Keeps.trans ?_ (State.evtDie_keeps _ _ _)
        refine Keeps.trans ?_ (State.modFtl_keeps _ _ _)
        exact Keeps.refl _
      · exact Keeps.refl _
    intro k11
    clear_value x10
    extract_lets +onlyGivenNames x12
    refine KSnd.cut (b := x12) ?_ ?_
    · unfold x12
      refine Keeps.trans ?_ (State.pmc_keeps _ _ _ _ _ _)
      exact k11
    intro k13
    clear_value x12
    extract_lets +onlyGivenNames x14
    refine KSnd.cut (b := x14) ?_ ?_
    · unfold x14
      refine Keeps.ite ?_ ?_
      · exact k13
      · refine Keeps.trans ?_ (State.pmc_keeps _ _ _ _ _ _)
        exact k13
    intro k15
    clear_value x14
    extract_lets +onlyGivenNames x16
    refine KSnd.cut (b := x16) ?_ ?_
    · unfold x16
      refine Keeps.trans ?_ (State.hist_keeps _ _ _ _ _)
      refine Keeps.trans ?_ (State.bw_keeps _ _ _ _)
      exact k15
    intro k17
    clear_value x16
    extract_lets +onlyGivenNames x18
    refine KSnd.cut (b := x18) ?_ ?_
    · unfold x18
      refine Keeps.trans ?_ (State.fadd_keeps _ _ _ _)
      refine Keeps.trans ?_ (State.fadd_keeps _ _ _ _)
      exact k17
    intro k19
    clear_value x18
    extract_lets +onlyGivenNames x20
    refine KSnd.cut (b := x20) ?_ ?_
    · unfold x20
      refine Keeps.ite ?_ ?_
      · refine Keeps.trans ?_ (State.fadd_keeps _ _ _ _)
        exact k19
      · exact k19
    intro k21
    clear_value x20
    extract_lets +onlyGivenNames x22
    refine KSnd.cut (b := x22) ?_ ?_
    · unfold x22
      refine Keeps.ite ?_ ?_
      · refine Keeps.trans ?_ (State.fadd_keeps _ _ _ _)
        exact k21
      · exact k21
    intro k23
    clear_value x22
    extract_lets +onlyGivenNames x24
    refine KSnd.cut (b := x24) ?_ ?_
    · unfold x24
      refine Keeps.ite ?_ ?_
      · refine Keeps.trans ?_ (State.healthOccur_keeps _ _ _ _)
        refine Keeps.trans ?_ (State.evtDie_keeps _ _ _)
        exact k23
      · exact k23
    intro k25
    clear_value x24
    extract_lets +onlyGivenNames x26
    refine KSnd.cut (b := x26) ?_ ?_
    · unfold x26
      refine Keeps.ite ?_ ?_
      · refine Keeps.trans ?_ (State.healthOccur_keeps _ _ _ _)
        refine Keeps.trans ?_ (State.evtDie_keeps _ _ _)
        refine Keeps.trans ?_ (State.fadd_keeps _ _ _ _)
        exact k25
      · exact k25
    intro k27
    clear_value x26
    unfold x1
    split
    · rename_i z28 z29
      refine KSnd.mk ?_
      exact k27
    · rename_i z30 z31 z32
      extract_lets +onlyGivenNames x33
      extract_lets +onlyGivenNames x34
      extract_lets +onlyGivenNames x35
      extract_lets +onlyGivenNames x36
      extract_lets +onlyGivenNames x37
      extract_lets +onlyGivenNames x38
      refine KSnd.cut (b := x38) ?_ ?_
      · unfold x38
        refine Keeps.trans ?_ (State.modFtl_keeps _ _ _)
        exact k27
      intro k39
      clear_value x38
      extract_lets +onlyGivenNames x40
      refine KSnd.cut (b := x40) ?_ ?_
      · unfold x40
        refine Keeps.trans ?_ (State.evtDie_keeps _ _ _)
        refine Keeps.trans ?_ (State.fadd_keeps _ _ _ _)
        refine Keeps.trans ?_ (State.modFtl_keeps _ _ _)
        exact k39
      intro k41
      clear_value x40
      extract_lets +onlyGivenNames x42
      refine KSnd.cut (b := x42) ?_ ?_
      · unfold x42
        refine Keeps.ite ?_ ?_
        · refine Keeps.trans ?_ (State.adaptPinned_keeps _ _ _ _)
          exact k41
        · exact k39
      intro k43
      clear_value x42
      refine KSnd.ite ?_ ?_
      · split
        · rename_i z44 z45
          refine KSnd.mk ?_
          exact k43
        · rename_i z46 z47 z48
          refine KSnd.ite ?_ ?_
          · refine KSnd.mk ?_
            refine Keeps.trans ?_ (State.healthOccur_keeps _ _ _ _)
            exact k43
          · extract_lets +onlyGivenNames x49
            refine KSnd.mk ?_
            refine Keeps.trans ?_ (State.runRefresh_keeps _ _)
            refine Keeps.trans ?_ (State.modFtl_keeps _ _ _)
            exact k43
      · refine KSnd.mk ?_
        exact k43

theorem State.commitReloc_keeps (s : State) (d : Nat) (o : FObj) : Keeps 0x200000400 s (State.commitReloc s d o) := by
  unfold State.commitReloc
  extract_lets +onlyGivenNames x0
  refine Keeps.ite ?_ ?_
  · refine Keeps.trans ?_ (State.fadd_keeps _ _ _ _)
    refine Keeps.trans ?_ (State.dropObj_keeps _ _ _)
    exact Keeps.refl _
  · split
    · rename_i z1 z2 z3 z4
      refine Keeps.cut (b := z3) ?_ ?_
      · refine KSnd.eq z4 ?_
        refine KSnd.trans ?_ (State.journal_keeps _ _ _ _)
        exact Keeps.refl _
      intro k5
      refine Keeps.trans ?_ (State.modFtl_keeps _ _ _)
      exact k5

theorem State.startCkpt_keeps (s : State) (d : Nat) : Keeps 0x20040844B s (State.startCkpt s d) := by
  unfold State.startCkpt
  extract_lets +onlyGivenNames x0
  refine Keeps.ite ?_ ?_
  · exact Keeps.refl _
  · split
    · rename_i z1 z2 z3 z4
      refine Keeps.cut (b := z3) ?_ ?_
      · refine KSnd.eq z4 ?_
        refine KSnd.trans ?_ (State.draw_keeps _)
        exact Keeps.refl _
      intro k5
      extract_lets +onlyGivenNames x6
      extract_lets +onlyGivenNames x7
      split
      · rename_i z8 z9
        refine Keeps.trans ?_ (State.roCheck_keeps _ _)
        exact k5
      · rename_i z10 z11 z12 z13
        refine Keeps.cut (b := z12) ?_ ?_
        · refine KOpt.eq (g := fun (r : Sys2Proof.Machine.FLoc × Sys2Proof.Machine.State) => r.2) (r := (z11, z12)) z13 ?_
          refine KOpt.trans ?_ (State.writeObj_keeps _ _ _ _ _ _ _ _ _)
          exact k5
        intro k14
        refine Keeps.trans ?_ (State.modFtl_keeps _ _ _)
        exact k14

theorem State.rewrite_keeps (s : State) (d : Nat) (o : FObj) (n : Nat) (data : FData) : Keeps 0x200408449 s (State.rewrite s d o n data) := by
  unfold State.rewrite
  extract_lets +onlyGivenNames x0
  split
  · rename_i z1 z2 z3 z4
    refine Keeps.cut (b := z3) ?_ ?_
    · refine KOpt.eq (g := fun (r : Sys2Proof.Machine.FLoc × Sys2Proof.Machine.State) => r.2) (r := (z2, z3)) z4 ?_
      refine KOpt.trans ?_ (State.writeObj_keeps _ _ _ _ _ _ _ _ _)
      exact Keeps.refl _
    intro k5
    exact k5
  · rename_i z6 z7
    refine Keeps.trans ?_ (State.roCheck_keeps _ _)
    exact Keeps.refl _

theorem State.sourceLost_keeps (s : State) (d : Nat) (o : FObj) : Keeps 0x6E440AFEB s (State.sourceLost s d o) := by
  unfold State.sourceLost
  extract_lets +onlyGivenNames x0
  refine Keeps.cut (b := x0) ?_ ?_
  · unfold x0
    refine Keeps.trans ?_ (State.dropObj_keeps _ _ _)
    exact Keeps.refl _
  intro k1
  clear_value x0
  refine Keeps.ite ?_ ?_
  · split
    · rename_i z2 z3
      refine Keeps.trans ?_ (State.freeObj_keeps _ _ _ _)
      exact k1
    · rename_i z4 z5 z6
      refine Keeps.ite ?_ ?_
      · refine Keeps.trans ?_ (State.rewrite_keeps _ _ _ _ _)
        exact k1
      · extract_lets +onlyGivenNames x7
        refine Keeps.cut (b := x7) ?_ ?_
        · unfold x7
          split
          · rename_i z8 z9 z10
            refine Keeps.ite ?_ ?_
            · refine KSnd.get ?_
              refine KSnd.trans ?_ (State.journal_keeps _ _ _ _)
              exact k1
            · exact k1
          · rename_i z11 z12
            exact k1
        intro k13
        clear_value x7
        extract_lets +onlyGivenNames x14
        refine Keeps.cut (b := x14) ?_ ?_
        · unfold x14
          refine Keeps.trans ?_ (State.freeFlash_keeps _ _ _)
          exact k13
        intro k15
        clear_value x14
        refine Keeps.ite ?_ ?_
        · extract_lets +onlyGivenNames x16
          refine Keeps.cut (b := x16) ?_ ?_
          · unfold x16
            refine Keeps.trans ?_ (State.modPage_keeps _ _ _ _)
            exact k15
          intro k17
          clear_value x16
          extract_lets +onlyGivenNames x18
          refine Keeps.cut (b := x18) ?_ ?_
          · unfold x18
            refine Keeps.trans ?_ (State.modCsm_keeps _ _ _)
            exact k17
          intro k19
          clear_value x18
          refine Keeps.trans ?_ (State.rebuildStep_keeps _ _ _ _)
          refine Keeps.trans ?_ (State.fsat_keeps _ _ _ _)
          exact k19
        · refine Keeps.trans ?_ (State.losePage_keeps _ _ _)
          exact k15
  · refine Keeps.ite ?_ ?_
    · split
      · rename_i z20 z21
        refine Keeps.trans ?_ (State.freeObj_keeps _ _ _ _)
        exact k1
      · rename_i z22 z23 z24 z25 z26 z27
        refine Keeps.trans ?_ (State.rewrite_keeps _ _ _ _ _)
        exact k1
    · refine Keeps.ite ?_ ?_
      · refine Keeps.trans ?_ (State.startCkpt_keeps _ _)
        refine Keeps.trans ?_ (State.freeObj_keeps _ _ _ _)
        exact k1
      · refine Keeps.trans ?_ (State.rewrite_keeps _ _ _ _ _)
        exact k1

theorem State.sourceRead_keeps (s : State) (d step : Nat) (o : FObj) (r : SectorRead) : Keeps 0x6E440AFEB s (State.sourceRead s d step o r) := by
  unfold State.sourceRead
  refine Keeps.ite ?_ ?_
  · refine Keeps.trans ?_ (State.dropStale_keeps _ _ _)
    exact Keeps.refl _
  · refine Keeps.ite ?_ ?_
    · refine Keeps.trans ?_ (State.sourceLost_keeps _ _ _)
      exact Keeps.refl _
    · refine Keeps.trans ?_ (State.serve_keeps _ _)
      refine Keeps.trans ?_ (State.modFtl_keeps _ _ _)
      exact Keeps.refl _

theorem State.verifyRead_keeps (s : State) (d step : Nat) (o : FObj) (r : SectorRead) : Keeps 0x204408469 s (State.verifyRead s d step o r) := by
  unfold State.verifyRead
  refine Keeps.ite ?_ ?_
  · refine Keeps.trans ?_ (State.dropStale_keeps _ _ _)
    exact Keeps.refl _
  · refine Keeps.ite ?_ ?_
    · split
      · rename_i z0 z1 z2
        extract_lets +onlyGivenNames x3
        refine Keeps.trans ?_ (State.progFail_keeps _ _ _ _ _)
        exact Keeps.refl _
      · rename_i z4 z5
        exact Keeps.refl _
    · extract_lets +onlyGivenNames x6
      refine Keeps.ite ?_ ?_
      · refine Keeps.trans ?_ (State.commitReloc_keeps _ _ _)
        exact Keeps.refl _
      · refine Keeps.trans ?_ (State.modFtl_keeps _ _ _)
        exact Keeps.refl _

theorem execSectorReadDone_keeps (d : Nat) (use : ReadUse) (r : SectorRead) (t : Nat) (s : State) : KNext 0x6E460AFFB s (execSectorReadDone d use r t s) := by
  unfold execSectorReadDone
  extract_lets +onlyGivenNames x0
  refine KNext.cut (b := x0) ?_ ?_
  · unfold x0
    refine Keeps.trans ?_ (State.advanceTo_keeps _ _)
    exact Keeps.refl _
  intro k1
  clear_value x0
  extract_lets +onlyGivenNames x2
  extract_lets +onlyGivenNames x3
  extract_lets +onlyGivenNames x4
  refine KNext.ite ?_ ?_
  · refine KNext.mk ?_
    exact k1
  · split
    · rename_i z5 z6
      refine KNext.mk ?_
      exact k1
    · rename_i z7 z8 z9
      refine KNext.cut (b := z8) ?_ ?_
      · refine KOpt.eq (g := fun (r : Sys2Proof.Machine.State) => r) (r := z8) z9 ?_
        refine KOpt.trans ?_ (State.takeRead_keeps _ _ _ _)
        exact k1
      intro k10
      split
      · rename_i z11 z12 z13 z14
        refine KNext.cut (b := z13) ?_ ?_
        · refine KSnd.eq z14 ?_
          refine KSnd.trans ?_ (State.readSector_keeps _ _ _)
          refine Keeps.trans ?_ (State.chanTime_keeps _ _ _ _ _)
          exact k10
        intro k15
        unfold x2
        split
        · rename_i z16 z17 z18 z19
          refine KNext.cut (b := z8) ?_ ?_
          · refine KOpt.eq (g := fun (r : Sys2Proof.Machine.State) => r) (r := z8) z9 ?_
            refine KOpt.trans ?_ (State.takeRead_keeps _ _ _ _)
            exact k1
          intro k20
          refine KNext.cut (b := z13) ?_ ?_
          · refine KSnd.eq z14 ?_
            refine KSnd.trans ?_ (State.readSector_keeps _ _ _)
            refine Keeps.trans ?_ (State.chanTime_keeps _ _ _ _ _)
            exact k10
          intro k21
          refine KNext.mk ?_
          refine Keeps.trans ?_ (State.gcAdvance_keeps _ _)
          refine Keeps.trans ?_ (State.sourceRead_keeps _ _ _ _ _)
          exact k15
        · rename_i z22 z23 z24 z25
          refine KNext.cut (b := z8) ?_ ?_
          · refine KOpt.eq (g := fun (r : Sys2Proof.Machine.State) => r) (r := z8) z9 ?_
            refine KOpt.trans ?_ (State.takeRead_keeps _ _ _ _)
            exact k1
          intro k26
          refine KNext.cut (b := z13) ?_ ?_
          · refine KSnd.eq z14 ?_
            refine KSnd.trans ?_ (State.readSector_keeps _ _ _)
            refine Keeps.trans ?_ (State.chanTime_keeps _ _ _ _ _)
            exact k10
          intro k27
          refine KNext.mk ?_
          refine Keeps.trans ?_ (State.gcAdvance_keeps _ _)
          refine Keeps.trans ?_ (State.verifyRead_keeps _ _ _ _ _)
          exact k15
        · rename_i z28 z29 z30 z31 z32
          refine KNext.cut (b := z8) ?_ ?_
          · refine KOpt.eq (g := fun (r : Sys2Proof.Machine.State) => r) (r := z8) z9 ?_
            refine KOpt.trans ?_ (State.takeRead_keeps _ _ _ _)
            exact k1
          intro k33
          refine KNext.cut (b := z13) ?_ ?_
          · refine KSnd.eq z14 ?_
            refine KSnd.trans ?_ (State.readSector_keeps _ _ _)
            refine Keeps.trans ?_ (State.chanTime_keeps _ _ _ _ _)
            exact k10
          intro k34
          refine KNext.mk ?_
          exact k15

theorem execJournalWindowExpiry_keeps (d t : Nat) (s : State) : KNext 0x200200410 s (execJournalWindowExpiry d t s) := by
  unfold execJournalWindowExpiry
  extract_lets +onlyGivenNames x0
  refine KNext.cut (b := x0) ?_ ?_
  · unfold x0
    refine Keeps.trans ?_ (State.advanceTo_keeps _ _)
    exact Keeps.refl _
  intro k1
  clear_value x0
  extract_lets +onlyGivenNames x2
  refine KNext.ite ?_ ?_
  · refine KNext.mk ?_
    exact k1
  · refine KNext.mk ?_
    refine Keeps.trans ?_ (State.issueJournal_keeps _ _)
    exact k1

theorem execCheckpointStart_keeps (d t : Nat) (s : State) : KNext 0x20060845B s (execCheckpointStart d t s) := by
  unfold execCheckpointStart
  extract_lets +onlyGivenNames x0
  refine KNext.cut (b := x0) ?_ ?_
  · unfold x0
    refine Keeps.trans ?_ (State.advanceTo_keeps _ _)
    exact Keeps.refl _
  intro k1
  clear_value x0
  extract_lets +onlyGivenNames x2
  extract_lets +onlyGivenNames x3
  extract_lets +onlyGivenNames x4
  refine KNext.mk ?_
  refine Keeps.ite ?_ ?_
  · refine Keeps.trans ?_ (State.startCkpt_keeps _ _)
    exact k1
  · exact k1

theorem execCkptNow_keeps (d : Nat) (via : Via) (s : State) : KNext 0x20040844B s (execCkptNow d via s) := by
  unfold execCkptNow
  refine KNext.mk ?_
  refine Keeps.tr ?_ (regWrite_keeps _ _ _ _ (fun v0 => ?_))
  · exact Keeps.refl _
  · refine Keeps.ite ?_ ?_
    · exact Keeps.refl _
    · refine Keeps.trans ?_ (State.startCkpt_keeps _ _)
      exact Keeps.refl _

theorem execEraseDone_keeps (d band failed ns : Nat) (s : State) : KNext 0x200C0C469 s (execEraseDone d band failed ns s) := by
  unfold execEraseDone
  split
  · rename_i z0 z1
    refine KNext.mk ?_
    exact Keeps.refl _
  · rename_i z2 z3 z4
    extract_lets +onlyGivenNames x5
    extract_lets +onlyGivenNames x6
    refine KNext.ite ?_ ?_
    · refine KNext.mk ?_
      exact Keeps.refl _
    · extract_lets +onlyGivenNames x7
      refine KNext.cut (b := x7) ?_ ?_
      · unfold x7
        refine Keeps.foldl _ _ (fun s8 y9 => ?_) ?_
        · refine Keeps.trans ?_ (State.endOp_keeps _ _ _ _ _)
          exact Keeps.refl _
        · exact Keeps.refl _
      intro k10
      clear_value x7
      extract_lets +onlyGivenNames x11
      refine KNext.cut (b := x11) ?_ ?_
      · unfold x11
        refine Keeps.trans ?_ (State.chanTime_keeps _ _ _ _ _)
        exact k10
      intro k12
      clear_value x11
      extract_lets +onlyGivenNames x13
      refine KNext.cut (b := x13) ?_ ?_
      · unfold x13
        refine Keeps.foldl _ _ (fun s14 y15 => ?_) ?_
        · refine Keeps.ite ?_ ?_
          · refine Keeps.trans ?_ (State.evtDie_keeps _ _ _)
            refine Keeps.trans ?_ (State.fadd_keeps _ _ _ _)
            refine Keeps.trans ?_ (State.retireMember_keeps _ _ _ _ _ _)
            exact Keeps.refl _
          · refine Keeps.trans ?_ (State.modFtl_keeps _ _ _)
            exact Keeps.refl _
        · exact k12
      intro k16
      clear_value x13
      extract_lets +onlyGivenNames x17
      refine KNext.cut (b := x17) ?_ ?_
      · unfold x17
        refine KSnd.get ?_
        refine KSnd.trans ?_ (State.journal_keeps _ _ _ _)
        exact k16
      intro k18
      clear_value x17
      extract_lets +onlyGivenNames x19
      extract_lets +onlyGivenNames x20
      refine KNext.cut (b := x20) ?_ ?_
      · unfold x20
        refine Keeps.trans ?_ (State.modFtl_keeps _ _ _)
        exact k18
      intro k21
      clear_value x20
      extract_lets +onlyGivenNames x22
      refine KNext.cut (b := x22) ?_ ?_
      · unfold x22
        refine Keeps.trans ?_ (State.metaErased_keeps _ _ _)
        exact k21
      intro k23
      clear_value x22
      extract_lets +onlyGivenNames x24
      refine KNext.cut (b := x24) ?_ ?_
      · unfold x24
        refine Keeps.ite ?_ ?_
        · refine Keeps.trans ?_ (State.physErased_keeps _ _)
          refine Keeps.trans ?_ (State.evtDie_keeps _ _ _)
          exact k23
        · exact k23
      intro k25
      clear_value x24
      extract_lets +onlyGivenNames x26
      refine KNext.cut (b := x26) ?_ ?_
      · unfold x26
        refine Keeps.trans ?_ (State.gcGo_keeps _ _)
        refine Keeps.trans ?_ (State.gcStatus_keeps _ _)
        refine Keeps.trans ?_ (State.wearCheck_keeps _ _)
        refine Keeps.trans ?_ (State.fadd_keeps _ _ _ _)
        exact k25
      intro k27
      clear_value x26
      refine KNext.mk ?_
      refine Keeps.trans ?_ (State.serve_keeps _ _)
      refine Keeps.trans ?_ (State.roCheck_keeps _ _)
      exact k27

theorem State.patrolLag_keeps (s : State) (d : Nat) : Keeps 0x200408449 s (State.patrolLag s d) := by
  unfold State.patrolLag
  extract_lets +onlyGivenNames x0
  extract_lets +onlyGivenNames x1
  extract_lets +onlyGivenNames x2
  refine Keeps.trans ?_ (State.healthCross_keeps _ _ _ _ _ _)
  exact Keeps.refl _

theorem State.patrolOne_keeps (acc : Nat × Nat × State) (d : Nat) (r : SectorRead) : KSnd2 0x204408449 acc.2.2 (State.patrolOne acc d r) := by
  unfold State.patrolOne
  extract_lets s next hot
  split
  · exact Keeps.refl _
  · split
    rename_i step t e
    have h : Keeps 0x204408449 s t := (State.chanTime_keeps _ _ _ _ _).mono.trans (KSnd.eq e (State.readSector_keeps _ _ _))
    extract_lets u
    exact Keeps.ite (h.trans (State.modFtl_keeps _ _ _)) h

theorem execPatrolRead_keeps (d : Nat) (reads : List SectorRead) (t : Nat) (s : State) : KNext 0x204608459 s (execPatrolRead d reads t s) := by
  unfold execPatrolRead
  extract_lets +onlyGivenNames x0
  refine KNext.cut (b := x0) ?_ ?_
  · unfold x0
    refine Keeps.trans ?_ (State.advanceTo_keeps _ _)
    exact Keeps.refl _
  intro k1
  clear_value x0
  refine KNext.ite ?_ ?_
  · refine KNext.mk ?_
    exact k1
  · split
    · rename_i z2 z3 z4 z5 z6
      refine KNext.cut (b := z5) ?_ ?_
      · refine KSnd2.eq z6 ?_
        refine KSnd2.foldl _ _ (fun s7 y8 => ?_) _ ?_
        · refine KSnd2.trans ?_ (State.patrolOne_keeps _ _ _)
          exact Keeps.refl _
        · refine KSnd2.mk ?_
          exact k1
      intro k9
      extract_lets +onlyGivenNames x10
      extract_lets +onlyGivenNames x11
      extract_lets +onlyGivenNames x12
      extract_lets +onlyGivenNames x13
      extract_lets +onlyGivenNames x14
      refine KNext.cut (b := x14) ?_ ?_
      · unfold x14
        refine Keeps.trans ?_ (State.modFtl_keeps _ _ _)
        exact k9
      intro k15
      clear_value x14
      extract_lets +onlyGivenNames x16
      extract_lets +onlyGivenNames x17
      refine KNext.cut (b := x17) ?_ ?_
      · unfold x17
        refine Keeps.trans ?_ (State.healthCross_keeps _ _ _ _ _ _)
        exact k15
      intro k18
      clear_value x17
      extract_lets +onlyGivenNames x19
      refine KNext.cut (b := x19) ?_ ?_
      · unfold x19
        refine Keeps.trans ?_ (State.patrolLag_keeps _ _)
        exact k18
      intro k20
      clear_value x19
      refine KNext.ite ?_ ?_
      · refine KNext.mk ?_
        refine Keeps.trans ?_ (State.fset_keeps _ _ _ _)
        refine Keeps.trans ?_ (State.modFtl_keeps _ _ _)
        exact k20
      · extract_lets +onlyGivenNames x21
        refine KNext.mk ?_
        refine Keeps.trans ?_ (State.fsat_keeps _ _ _ _)
        exact k20

theorem execFtlEnable_keeps (d : Nat) (en : Bool) (luns : List LunPage) (via : Via) (s : State) : KNext 0x200400448 s (execFtlEnable d en luns via s) := by
  unfold execFtlEnable
  refine KNext.mk ?_
  refine Keeps.tr ?_ (regWrite_keeps _ _ _ _ (fun v0 => ?_))
  · exact Keeps.refl _
  · refine Keeps.ite ?_ ?_
    · exact Keeps.refl _
    · extract_lets +onlyGivenNames x1
      extract_lets +onlyGivenNames x2
      refine Keeps.cut (b := x2) ?_ ?_
      · unfold x2
        refine Keeps.trans ?_ (State.fput_keeps _ _ _ _)
        exact Keeps.refl _
      intro k3
      clear_value x2
      refine Keeps.ite ?_ ?_
      · exact k3
      · extract_lets +onlyGivenNames x4
        refine Keeps.cut (b := x4) ?_ ?_
        · unfold x4
          refine Keeps.trans ?_ (State.bringUp_keeps _ _)
          refine Keeps.trans ?_ (State.modFtl_keeps _ _ _)
          exact k3
        intro k5
        clear_value x4
        extract_lets +onlyGivenNames x6
        refine Keeps.cut (b := x6) ?_ ?_
        · unfold x6
          split
          · rename_i z7 z8 z9
            refine Keeps.trans ?_ (State.fset_keeps _ _ _ _)
            exact k5
          · rename_i z10 z11
            exact k5
        intro k12
        clear_value x6
        extract_lets +onlyGivenNames x13
        refine Keeps.cut (b := x13) ?_ ?_
        · unfold x13
          refine Keeps.trans ?_ (State.fset_keeps _ _ _ _)
          exact k12
        intro k14
        clear_value x13
        refine Keeps.trans ?_ (State.fset_keeps _ _ _ _)
        exact k14

theorem State.settleFlash_keeps (s : State) (d seen : Nat) : Keeps 0x200000400 s (State.settleFlash s d seen) := by
  unfold State.settleFlash
  extract_lets +onlyGivenNames x0
  extract_lets +onlyGivenNames x1
  extract_lets +onlyGivenNames x2
  extract_lets +onlyGivenNames x3
  extract_lets +onlyGivenNames x4
  extract_lets +onlyGivenNames x5
  extract_lets +onlyGivenNames x6
  refine Keeps.cut (b := x6) ?_ ?_
  · unfold x6
    refine Keeps.trans ?_ (State.modFtl_keeps _ _ _)
    exact Keeps.refl _
  intro k7
  clear_value x6
  extract_lets +onlyGivenNames x8
  refine Keeps.cut (b := x8) ?_ ?_
  · unfold x8
    refine Keeps.trans ?_ (State.modFtl_keeps _ _ _)
    exact k7
  intro k9
  clear_value x8
  extract_lets +onlyGivenNames x10
  refine Keeps.cut (b := x10) ?_ ?_
  · unfold x10
    refine Keeps.trans ?_ (State.modFtl_keeps _ _ _)
    exact k9
  intro k11
  clear_value x10
  refine Keeps.trans ?_ (State.gcStatus_keeps _ _)
  refine Keeps.trans ?_ (State.fadd_keeps _ _ _ _)
  exact k11

theorem execFtlInject_keeps (d : Nat) (via : Via) (s : State) : KNext 0x400440 s (execFtlInject d via s) := by
  unfold execFtlInject
  refine KNext.mk ?_
  refine Keeps.tr ?_ (regWrite_keeps _ _ _ _ (fun v0 => ?_))
  · exact Keeps.refl _
  · refine Keeps.ite ?_ ?_
    · exact Keeps.refl _
    · refine Keeps.trans ?_ (State.modFtl_keeps _ _ _)
      exact Keeps.refl _

theorem State.readJseq_keeps (s : State) (d : Nat) : KSnd 0x200000000 s (State.readJseq s d) := by
  unfold State.readJseq
  refine KSnd.ite ?_ ?_
  · refine KSnd.mk ?_
    exact Keeps.refl _
  · extract_lets +onlyGivenNames x0
    refine KSnd.mk ?_
    refine Keeps.trans ?_ (State.fset_keeps _ _ _ _)
    refine Keeps.trans ?_ (State.fset_keeps _ _ _ _)
    exact Keeps.refl _

theorem execFtlJseqLoRead_keeps (d : Nat) (via : Via) (s : State) : KNext 0x200400041 s (execFtlJseqLoRead d via s) := by
  unfold execFtlJseqLoRead
  refine KNext.mk ?_
  refine Keeps.tr ?_ (regRead_keeps _ _ _ _ (fun v0 => ?_))
  · exact Keeps.refl _
  · refine KSnd.trans ?_ (State.readJseq_keeps _ _)
    exact Keeps.refl _

theorem execChannelCmdTimeout_keeps (d c t : Nat) (s : State) : KNext 0x7FFFFFBFFF s (execChannelCmdTimeout d c t s) := by
  unfold execChannelCmdTimeout
  extract_lets +onlyGivenNames x0
  refine KNext.cut (b := x0) ?_ ?_
  · unfold x0
    refine Keeps.trans ?_ (State.advanceTo_keeps _ _)
    exact Keeps.refl _
  intro k1
  clear_value x0
  extract_lets +onlyGivenNames x2
  extract_lets +onlyGivenNames x3
  refine KNext.cut (b := x3) ?_ ?_
  · unfold x3
    refine Keeps.trans ?_ (State.modFtl_keeps _ _ _)
    exact k1
  intro k4
  clear_value x3
  refine KNext.ite ?_ ?_
  · refine KNext.mk ?_
    refine Keeps.trans ?_ (State.runRefresh_keeps _ _)
    refine Keeps.trans ?_ (State.hwFence_keeps _ _ _ _)
    refine Keeps.trans ?_ (State.modFtl_keeps _ _ _)
    exact k4
  · refine KNext.mk ?_
    exact k4

theorem execChannelFence_keeps (d fence unfence : Nat) (via : Via) (s : State) : KNext 0x7FFFFFBFEF s (execChannelFence d fence unfence via s) := by
  unfold execChannelFence
  refine KNext.mk ?_
  refine Keeps.tr ?_ (regWrite_keeps _ _ _ _ (fun v0 => ?_))
  · exact Keeps.refl _
  · refine Keeps.ite ?_ ?_
    · exact Keeps.refl _
    · refine Keeps.trans ?_ (State.runRefresh_keeps _ _)
      refine Keeps.foldl _ _ (fun s1 y2 => ?_) ?_
      · refine Keeps.ite ?_ ?_
        · exact Keeps.refl _
        · refine Keeps.trans ?_ (State.report_keeps _ _ _ _ _ _)
          exact Keeps.refl _
      · exact Keeps.refl _

theorem execChannelUnfence_keeps (d fence unfence pass : Nat) (via : Via) (s : State) : KNext 0x7FFFFFBFEF s (execChannelUnfence d fence unfence pass via s) := by
  unfold execChannelUnfence
  refine KNext.mk ?_
  refine Keeps.tr ?_ (regWrite_keeps _ _ _ _ (fun v0 => ?_))
  · exact Keeps.refl _
  · refine Keeps.ite ?_ ?_
    · exact Keeps.refl _
    · refine Keeps.foldl _ _ (fun s1 y2 => ?_) ?_
      · refine Keeps.ite ?_ ?_
        · refine Keeps.trans ?_ (State.testOutcome_keeps _ _ _ _ _ _)
          exact Keeps.refl _
        · exact Keeps.refl _
      · exact Keeps.refl _

theorem State.reclaimChans_keeps (s : State) (d : Nat) : Keeps 0x200000400 s (State.reclaimChans s d) := by
  unfold State.reclaimChans
  extract_lets +onlyGivenNames x0
  extract_lets +onlyGivenNames x1
  refine Keeps.ite ?_ ?_
  · exact Keeps.refl _
  · extract_lets +onlyGivenNames x2
    refine Keeps.cut (b := x2) ?_ ?_
    · unfold x2
      refine Keeps.trans ?_ (State.modFtl_keeps _ _ _)
      exact Keeps.refl _
    intro k3
    clear_value x2
    extract_lets +onlyGivenNames x4
    refine Keeps.cut (b := x4) ?_ ?_
    · unfold x4
      refine Keeps.trans ?_ (State.fset_keeps _ _ _ _)
      exact k3
    intro k5
    clear_value x4
    extract_lets +onlyGivenNames x6
    refine Keeps.cut (b := x6) ?_ ?_
    · unfold x6
      refine Keeps.trans ?_ (State.fset_keeps _ _ _ _)
      exact k5
    intro k7
    clear_value x6
    refine Keeps.trans ?_ (State.fset_keeps _ _ _ _)
    refine Keeps.trans ?_ (State.fset_keeps _ _ _ _)
    exact k7

theorem execReclaim_keeps (d : Nat) (via : Via) (s : State) : KNext 0x200400440 s (execReclaim d via s) := by
  unfold execReclaim
  refine KNext.mk ?_
  refine Keeps.tr ?_ (regWrite_keeps _ _ _ _ (fun v0 => ?_))
  · exact Keeps.refl _
  · refine Keeps.trans ?_ (State.reclaimChans_keeps _ _)
    exact Keeps.refl _

theorem execRelease_keeps (d : Nat) (via : Via) (s : State) : KNext 0x200400440 s (execRelease d via s) := by
  unfold execRelease
  refine KNext.mk ?_
  refine Keeps.tr ?_ (regWrite_keeps _ _ _ _ (fun v0 => ?_))
  · exact Keeps.refl _
  · extract_lets +onlyGivenNames x1
    extract_lets +onlyGivenNames x2
    extract_lets +onlyGivenNames x3
    refine Keeps.ite ?_ ?_
    · exact Keeps.refl _
    · refine Keeps.trans ?_ (State.fset_keeps _ _ _ _)
      refine Keeps.trans ?_ (State.fset_keeps _ _ _ _)
      refine Keeps.trans ?_ (State.modFtl_keeps _ _ _)
      exact Keeps.refl _

end Sys2Proof.Machine
end

