-- ==== Sys2Proof/Laws/KeepsTenancy.lean ====
section
/-!
SUPPORT. Sys2Proof/Laws/KeepsTenancy.lean: each operation of Machine/Tenancy.lean keeps what `Keeps` says, with the parts of the state it may
touch.
-/
namespace Sys2Proof.Machine
set_option Elab.async false

theorem State.closeBands_keeps (s : State) (d ns : Nat) : Keeps 0x400 s (State.closeBands s d ns) := by
  unfold State.closeBands
  refine Keeps.foldl _ _ (fun s0 y1 => ?_) ?_
  · refine Keeps.trans ?_ (State.closeBand_keeps _ _ _)
    exact Keeps.refl _
  · exact Keeps.refl _

theorem execPtnDiesWrite_keeps (p v : Nat) (s : State) : KNext 0x120104AD s (execPtnDiesWrite p v s) := by
  unfold execPtnDiesWrite
  refine KNext.ite ?_ ?_
  · refine KNext.mk ?_
    exact Keeps.refl _
  · extract_lets +onlyGivenNames x0
    refine KNext.ite ?_ ?_
    · refine KNext.mk ?_
      refine Keeps.trans ?_ (State.evtPtn_keeps _ _ _)
      exact Keeps.refl _
    · extract_lets +onlyGivenNames x1
      extract_lets +onlyGivenNames x2
      refine KNext.cut (b := x2) ?_ ?_
      · unfold x2
        refine Keeps.foldl _ _ (fun s3 y4 => ?_) ?_
        · refine Keeps.trans ?_ (State.fset_keeps _ _ _ _)
          refine Keeps.trans ?_ (State.closeBands_keeps _ _ _)
          exact Keeps.refl _
        · exact Keeps.refl _
      intro k5
      clear_value x2
      extract_lets +onlyGivenNames x6
      refine KNext.cut (b := x6) ?_ ?_
      · unfold x6
        refine Keeps.trans ?_ (State.applyUnowned_keeps _)
        refine Keeps.trans ?_ (State.fset_keeps _ _ _ _)
        exact k5
      intro k7
      clear_value x6
      extract_lets +onlyGivenNames x8
      refine KNext.cut (b := x8) ?_ ?_
      · unfold x8
        refine Keeps.trans ?_ (State.fset_keeps _ _ _ _)
        exact k7
      intro k9
      clear_value x8
      refine KNext.mk ?_
      refine Keeps.trans ?_ (State.assignLedgers_keeps _ _)
      exact k9

theorem State.restoreFreed_keeps (s : State) (d : Nat) : Keeps 0x3414087E9 s (State.restoreFreed s d) := by
  unfold State.restoreFreed
  refine Keeps.foldl _ _ (fun s0 y1 => ?_) ?_
  · refine Keeps.trans ?_ (State.evtPkg_keeps _ _)
    refine Keeps.trans ?_ (State.fadd_keeps _ _ _ _)
    refine Keeps.trans ?_ (State.freeSeq_keeps _ _ _)
    exact Keeps.refl _
  · exact Keeps.refl _

theorem State.scrubFirst_keeps (s : State) (d : Nat) : Keeps 0x2560885BA1 s (State.scrubFirst s d) := by
  unfold State.scrubFirst
  refine Keeps.ite ?_ ?_
  · refine Keeps.trans ?_ (State.modRemovals_keeps _ _)
    refine Keeps.trans ?_ (State.scrubDie_keeps _ _)
    exact Keeps.refl _
  · exact Keeps.refl _

theorem State.writeNsKey_keeps (s : State) (d p g k : Nat) : Keeps 0x200408449 s (State.writeNsKey s d p g k) := by
  unfold State.writeNsKey
  split
  · rename_i z0 z1 z2 z3
    refine Keeps.cut (b := z2) ?_ ?_
    · refine KOpt.eq (g := fun (r : Sys2Proof.Machine.FLoc × Sys2Proof.Machine.State) => r.2) (r := (z1, z2)) z3 ?_
      refine KOpt.trans ?_ (State.writeObj_keeps _ _ _ _ _ _ _ _ _)
      exact Keeps.refl _
    intro k4
    exact k4
  · rename_i z5 z6
    refine Keeps.trans ?_ (State.roCheck_keeps _ _)
    exact Keeps.refl _

theorem execSeal_keeps (p : Nat) (s : State) : KNext 0x2771C8DFEB s (execSeal p s) := by
  unfold execSeal
  extract_lets +onlyGivenNames x0
  extract_lets +onlyGivenNames x1
  refine KNext.ite ?_ ?_
  · refine KNext.mk ?_
    exact Keeps.refl _
  · refine KNext.ite ?_ ?_
    · unfold x1
      refine KNext.mk ?_
      refine Keeps.trans ?_ (State.evtPtn_keeps _ _ _)
      exact Keeps.refl _
    · refine KNext.ite ?_ ?_
      · unfold x1
        refine KNext.mk ?_
        refine Keeps.trans ?_ (State.evtPtn_keeps _ _ _)
        exact Keeps.refl _
      · extract_lets +onlyGivenNames x2
        extract_lets +onlyGivenNames x3
        refine KNext.ite ?_ ?_
        · unfold x1
          refine KNext.mk ?_
          refine Keeps.trans ?_ (State.evtPtn_keeps _ _ _)
          exact Keeps.refl _
        · split
          · rename_i z4 z5 z6 z7
            refine KNext.cut (b := z6) ?_ ?_
            · refine KSnd.eq z7 ?_
              refine KSnd.trans ?_ (State.draw_keeps _)
              exact Keeps.refl _
            intro k8
            split
            · rename_i z9 z10 z11 z12
              extract_lets +onlyGivenNames x13
              extract_lets +onlyGivenNames x14
              refine KNext.cut (b := x14) ?_ ?_
              · unfold x14
                refine Keeps.sec ?_ _
                exact k8
              intro k15
              clear_value x14
              extract_lets +onlyGivenNames x16
              refine KNext.cut (b := x16) ?_ ?_
              · unfold x16
                refine Keeps.foldl _ _ (fun s17 y18 => ?_) ?_
                · refine Keeps.trans ?_ (State.restoreFreed_keeps _ _)
                  refine Keeps.trans ?_ (State.scrubFirst_keeps _ _)
                  exact Keeps.refl _
                · exact k15
              intro k19
              clear_value x16
              extract_lets +onlyGivenNames x20
              refine KNext.cut (b := x20) ?_ ?_
              · unfold x20
                refine Keeps.trans ?_ (State.modPart_keeps _ _ _)
                refine Keeps.trans ?_ (State.fset_keeps _ _ _ _)
                exact k19
              intro k21
              clear_value x20
              refine KNext.mk ?_
              refine Keeps.foldl _ _ (fun s22 y23 => ?_) ?_
              · refine Keeps.trans ?_ (State.writeNsKey_keeps _ _ _ _ _)
                exact Keeps.refl _
              · exact k21

theorem execCtxCreate_keeps (q : Desc) (ctx home : Nat) (latent : Bool) (model layersM1 h dim w g format tail : Nat) (s : State) : KNext 0x4408069 s (execCtxCreate q ctx home latent model layersM1 h dim w g format tail s) := by
  unfold execCtxCreate
  refine KNext.mk ?_
  refine Keeps.tr ?_ (runDesc_keeps _ _ _ _ _ (fun v0 => ?_))
  · exact Keeps.refl _
  · extract_lets +onlyGivenNames x1
    extract_lets +onlyGivenNames x2
    extract_lets +onlyGivenNames x3
    extract_lets +onlyGivenNames x4
    extract_lets +onlyGivenNames x5
    extract_lets +onlyGivenNames x6
    unfold x6
    split
    · rename_i z7 z8
      refine Keeps.trans ?_ (State.fail_keeps _ _ _)
      exact Keeps.refl _
    · rename_i z9 z10 z11
      extract_lets +onlyGivenNames x12
      extract_lets +onlyGivenNames x13
      refine Keeps.ite ?_ ?_
      · refine Keeps.trans ?_ (State.fail_keeps _ _ _)
        exact Keeps.refl _
      · refine Keeps.ite ?_ ?_
        · refine Keeps.trans ?_ (State.fail_keeps _ _ _)
          exact Keeps.refl _
        · refine Keeps.ite ?_ ?_
          · refine Keeps.trans ?_ (State.fail_keeps _ _ _)
            exact Keeps.refl _
          · refine Keeps.trans ?_ (State.complete_keeps _ _ _ _ _)
            refine Keeps.trans ?_ (State.modPart_keeps _ _ _)
            exact Keeps.refl _

theorem State.freeCtx_keeps (s : State) (d n : Nat) : KSnd 0x7E440AFEB s (State.freeCtx s d n) := by
  unfold State.freeCtx
  extract_lets +onlyGivenNames x0
  extract_lets +onlyGivenNames x1
  extract_lets +onlyGivenNames x2
  refine KSnd.cut (b := x2) ?_ ?_
  · unfold x2
    refine Keeps.foldl _ _ (fun s3 y4 => ?_) ?_
    · refine Keeps.trans ?_ (State.rehold_keeps _ _ _)
      refine Keeps.trans ?_ (State.setUnmet_keeps _ _ _)
      exact Keeps.refl _
    · exact Keeps.refl _
  intro k5
  clear_value x2
  extract_lets +onlyGivenNames x6
  extract_lets +onlyGivenNames x7
  refine KSnd.cut (b := x7) ?_ ?_
  · unfold x7
    refine Keeps.trans ?_ (State.repin_keeps _ _)
    refine Keeps.foldl _ _ (fun s8 y9 => ?_) ?_
    · refine Keeps.trans ?_ (State.modStg_keeps _ _ _)
      exact Keeps.refl _
    · exact k5
  intro k10
  clear_value x7
  extract_lets +onlyGivenNames x11
  refine KSnd.cut (b := x11) ?_ ?_
  · unfold x11
    refine Keeps.foldl _ _ (fun s12 y13 => ?_) ?_
    · refine Keeps.trans ?_ (State.freeSeq_keeps _ _ _)
      exact Keeps.refl _
    · exact k10
  intro k14
  clear_value x11
  extract_lets +onlyGivenNames x15
  extract_lets +onlyGivenNames x16
  refine KSnd.cut (b := x16) ?_ ?_
  · unfold x16
    refine Keeps.foldl _ _ (fun s17 y18 => ?_) ?_
    · refine Keeps.trans ?_ (State.revokeKey_keeps _ _ _ _)
      exact Keeps.refl _
    · exact k14
  intro k19
  clear_value x16
  refine KSnd.mk ?_
  exact k19

theorem execCtxDestroy_keeps (q : Desc) (ctx : Nat) (force : Bool) (s : State) : KNext 0x7E4C0AFEB s (execCtxDestroy q ctx force s) := by
  unfold execCtxDestroy
  refine KNext.mk ?_
  refine Keeps.tr ?_ (runDesc_keeps _ _ _ _ _ (fun v0 => ?_))
  · exact Keeps.refl _
  · split
    · rename_i z1 z2
      refine Keeps.trans ?_ (State.fail_keeps _ _ _)
      exact Keeps.refl _
    · rename_i z3 z4 z5
      refine Keeps.ite ?_ ?_
      · refine Keeps.trans ?_ (State.fail_keeps _ _ _)
        exact Keeps.refl _
      · refine Keeps.ite ?_ ?_
        · refine Keeps.trans ?_ (State.fail_keeps _ _ _)
          exact Keeps.refl _
        · refine Keeps.ite ?_ ?_
          · refine Keeps.trans ?_ (State.fail_keeps _ _ _)
            exact Keeps.refl _
          · split
            · rename_i z6 z7 z8 z9
              refine Keeps.cut (b := z8) ?_ ?_
              · refine KSnd.eq z9 ?_
                refine KSnd.trans ?_ (State.freeCtx_keeps _ _ _)
                exact Keeps.refl _
              intro k10
              refine Keeps.trans ?_ (State.finishDestroy_keeps _ _ _)
              refine Keeps.trans ?_ (State.modCtx_keeps _ _ _ _)
              exact k10

theorem State.report449_keeps (s : State) (p : Nat) (nonce : List Byte) : KSnd 0x2 s (State.report449 s p nonce) := by
  unfold State.report449
  extract_lets +onlyGivenNames x0
  extract_lets +onlyGivenNames x1
  extract_lets +onlyGivenNames x2
  extract_lets +onlyGivenNames x3
  extract_lets +onlyGivenNames x4
  split
  · rename_i z5 z6 z7 z8
    refine KSnd.cut (b := z7) ?_ ?_
    · refine KSnd.eq z8 ?_
      refine KSnd.trans ?_ (State.draw_keeps _)
      exact Keeps.refl _
    intro k9
    refine KSnd.mk ?_
    exact k9

theorem execAttest_keeps (q : Desc) (dest room : Nat) (certs : Bool) (nonce : List Byte) (s : State) : KNext 0x4C0806B s (execAttest q dest room certs nonce s) := by
  unfold execAttest
  refine KNext.mk ?_
  refine Keeps.tr ?_ (runDesc_keeps _ _ _ _ _ (fun v0 => ?_))
  · exact Keeps.refl _
  · extract_lets +onlyGivenNames x1
    refine Keeps.ite ?_ ?_
    · refine Keeps.trans ?_ (State.complete_keeps _ _ _ _ _)
      exact Keeps.refl _
    · split
      · rename_i z2 z3 z4 z5
        refine Keeps.cut (b := z4) ?_ ?_
        · refine KSnd.eq z5 ?_
          refine KSnd.trans ?_ (State.report449_keeps _ _ _)
          exact Keeps.refl _
        intro k6
        extract_lets +onlyGivenNames x7
        refine Keeps.trans ?_ (State.complete_keeps _ _ _ _ _)
        refine Keeps.trans ?_ (State.fadd_keeps _ _ _ _)
        refine Keeps.trans ?_ (State.descWrite_keeps _ _ _ _)
        exact k6

theorem execCakSet_keeps (q : Desc) (die ckn bytes : Nat) (obj : CakObj) (s : State) : KNext 0xC0440E06B s (execCakSet q die ckn bytes obj s) := by
  unfold execCakSet
  refine KNext.mk ?_
  refine Keeps.tr ?_ (runDesc_keeps _ _ _ _ _ (fun v0 => ?_))
  · exact Keeps.refl _
  · refine Keeps.ite ?_ ?_
    · refine Keeps.trans ?_ (State.fail_keeps _ _ _)
      exact Keeps.refl _
    · refine Keeps.ite ?_ ?_
      · refine Keeps.trans ?_ (State.fail_keeps _ _ _)
        exact Keeps.refl _
      · refine Keeps.ite ?_ ?_
        · refine Keeps.trans ?_ (State.fail_keeps _ _ _)
          exact Keeps.refl _
        · extract_lets +onlyGivenNames x1
          extract_lets +onlyGivenNames x2
          refine Keeps.cut (b := x2) ?_ ?_
          · unfold x2
            refine Keeps.ite ?_ ?_
            · exact Keeps.refl _
            · refine Keeps.sec ?_ _
              exact Keeps.refl _
          intro k3
          clear_value x2
          split
          · rename_i z4 z5 z6 z7
            refine Keeps.cut (b := z6) ?_ ?_
            · refine KSnd.eq z7 ?_
              refine KSnd.trans ?_ (State.draw_keeps _)
              exact k3
            intro k8
            extract_lets +onlyGivenNames x9
            refine Keeps.cut (b := x9) ?_ ?_
            · unfold x9
              refine Keeps.trans ?_ (State.modLnk_keeps _ _ _)
              exact k8
            intro k10
            clear_value x9
            refine Keeps.trans ?_ (State.complete_keeps _ _ _ _ _)
            refine Keeps.trans ?_ (State.record_keeps _)
            refine Keeps.trans ?_ (State.refreshPort_keeps _ _)
            exact k10

end Sys2Proof.Machine
end

