-- ==== Sys2Proof/Laws/KeepsRemoval.lean ====
section
/-!
SUPPORT. Sys2Proof/Laws/KeepsRemoval.lean: each operation of Machine/Removal.lean keeps what `Keeps` says, with the parts of the state it may
touch.
-/
namespace Sys2Proof.Machine
set_option Elab.async false

theorem State.fenceEligible_keeps (s : State) (p t : Nat) : KSnd 0x42640ABE9 s (State.fenceEligible s p t) := by
  unfold State.fenceEligible
  extract_lets +onlyGivenNames x0
  refine KSnd.foldl _ _ (fun s1 y2 => ?_) _ ?_
  · extract_lets +onlyGivenNames x3
    extract_lets +onlyGivenNames x4
    refine KSnd.cut (b := x4) ?_ ?_
    · unfold x4
      refine Keeps.trans ?_ (State.modCsm_keeps _ _ _)
      exact Keeps.refl _
    intro k5
    clear_value x4
    refine KSnd.mk ?_
    refine Keeps.foldl _ _ (fun s6 y7 => ?_) ?_
    · refine Keeps.trans ?_ (State.failHeld_keeps _ _ _ _)
      exact Keeps.refl _
    · exact k5
  · refine KSnd.mk ?_
    exact Keeps.refl _

theorem State.dropDieWork_keeps (s : State) (d : Nat) : Keeps 0x320000F80 s (State.dropDieWork s d) := by
  unfold State.dropDieWork
  extract_lets +onlyGivenNames x0
  refine Keeps.cut (b := x0) ?_ ?_
  · unfold x0
    refine Keeps.trans ?_ (State.sweepOff_keeps _ _)
    refine Keeps.trans ?_ (State.modCsm_keeps _ _ _)
    exact Keeps.refl _
  intro k1
  clear_value x0
  extract_lets +onlyGivenNames x2
  refine Keeps.cut (b := x2) ?_ ?_
  · unfold x2
    refine Keeps.trans ?_ (State.modNrt_keeps _ _ _)
    exact k1
  intro k3
  clear_value x2
  extract_lets +onlyGivenNames x4
  refine Keeps.cut (b := x4) ?_ ?_
  · unfold x4
    refine Keeps.trans ?_ (State.modStg_keeps _ _ _)
    exact k3
  intro k5
  clear_value x4
  extract_lets +onlyGivenNames x6
  refine Keeps.cut (b := x6) ?_ ?_
  · unfold x6
    refine Keeps.trans ?_ (State.modPfx_keeps _ _ _)
    exact k5
  intro k7
  clear_value x6
  extract_lets +onlyGivenNames x8
  refine Keeps.cut (b := x8) ?_ ?_
  · unfold x8
    refine Keeps.trans ?_ (State.hintCount_keeps _ _)
    exact k7
  intro k9
  clear_value x8
  extract_lets +onlyGivenNames x10
  extract_lets +onlyGivenNames x11
  refine Keeps.trans ?_ (State.fadd_keeps _ _ _ _)
  refine Keeps.trans ?_ (State.modFtl_keeps _ _ _)
  refine Keeps.trans ?_ (State.dropFlashWork_keeps _ _)
  exact k9

theorem State.dropWork_keeps (s : State) (p : Nat) (keep : Option (Nat × Nat × Nat)) : KSnd2 0x324408FE9 s (State.dropWork s p keep) := by
  unfold State.dropWork
  extract_lets +onlyGivenNames x0
  extract_lets +onlyGivenNames x1
  extract_lets +onlyGivenNames x2
  refine KSnd2.cut (b := x2) ?_ ?_
  · unfold x2
    refine Keeps.foldl _ _ (fun s3 y4 => ?_) ?_
    · refine Keeps.trans ?_ (State.dropDieWork_keeps _ _)
      exact Keeps.refl _
    · exact Keeps.refl _
  intro k5
  clear_value x2
  extract_lets +onlyGivenNames x6
  refine KSnd2.cut (b := x6) ?_ ?_
  · unfold x6
    refine Keeps.trans ?_ (State.modPart_keeps _ _ _)
    exact k5
  intro k7
  clear_value x6
  extract_lets +onlyGivenNames x8
  refine KSnd2.cut (b := x8) ?_ ?_
  · unfold x8
    refine Keeps.foldl _ _ (fun s9 y10 => ?_) ?_
    · refine Keeps.trans ?_ (State.completeKey_keeps _ _ _ _ _)
      exact Keeps.refl _
    · exact k7
  intro k11
  clear_value x8
  refine KSnd2.mk ?_
  exact k11

theorem State.unbind_keeps (s : State) (p : Nat) : Keeps 0x10408041 s (State.unbind s p) := by
  unfold State.unbind
  extract_lets +onlyGivenNames x0
  refine Keeps.cut (b := x0) ?_ ?_
  · unfold x0
    refine Keeps.foldl _ _ (fun s1 y2 => ?_) ?_
    · refine Keeps.ite ?_ ?_
      · refine Keeps.trans ?_ (State.loseFn_keeps _ _ _ _ _)
        exact Keeps.refl _
      · exact Keeps.refl _
    · exact Keeps.refl _
  intro k3
  clear_value x0
  refine Keeps.trans ?_ (State.fset_keeps _ _ _ _)
  refine Keeps.trans ?_ (State.fset_keeps _ _ _ _)
  refine Keeps.trans ?_ (State.fset_keeps _ _ _ _)
  refine Keeps.trans ?_ (State.fset_keeps _ _ _ _)
  exact k3

theorem State.clearPage_keeps (s : State) (p : Nat) : Keeps 0x8000 s (State.clearPage s p) := by
  unfold State.clearPage
  refine Keeps.trans ?_ (State.modPmc_keeps _ _ _)
  exact Keeps.refl _

theorem State.resetPtn_keeps (s : State) (p : Nat) : Keeps 0x7FFFF8BFED s (State.resetPtn s p) := by
  unfold State.resetPtn
  extract_lets +onlyGivenNames x0
  refine Keeps.cut (b := x0) ?_ ?_
  · unfold x0
    refine Keeps.trans ?_ (State.modPart_keeps _ _ _)
    exact Keeps.refl _
  intro k1
  clear_value x0
  refine Keeps.ite ?_ ?_
  · exact k1
  · split
    · rename_i z2 z3 z4 z5
      refine Keeps.cut (b := z4) ?_ ?_
      · refine KSnd.eq z5 ?_
        refine KSnd.trans ?_ (State.fenceEligible_keeps _ _ _)
        exact k1
      intro k6
      split
      · rename_i z7 z8 z9 z10 z11
        refine Keeps.cut (b := z10) ?_ ?_
        · refine KSnd2.eq z11 ?_
          refine KSnd2.trans ?_ (State.dropWork_keeps _ _ _)
          exact k6
        intro k12
        extract_lets +onlyGivenNames x13
        refine Keeps.cut (b := x13) ?_ ?_
        · unfold x13
          refine Keeps.trans ?_ (State.unbind_keeps _ _)
          exact k12
        intro k14
        clear_value x13
        extract_lets +onlyGivenNames x15
        refine Keeps.cut (b := x15) ?_ ?_
        · unfold x15
          refine Keeps.trans ?_ (State.modPart_keeps _ _ _)
          refine Keeps.trans ?_ (State.fset_keeps _ _ _ _)
          refine Keeps.trans ?_ (State.fset_keeps _ _ _ _)
          exact k14
        intro k16
        clear_value x15
        extract_lets +onlyGivenNames x17
        refine Keeps.cut (b := x17) ?_ ?_
        · unfold x17
          refine Keeps.trans ?_ (State.takePeriod_keeps _ _)
          refine Keeps.trans ?_ (State.applyWrites_keeps _ _ _)
          exact k16
        intro k18
        clear_value x17
        extract_lets +onlyGivenNames x19
        refine Keeps.cut (b := x19) ?_ ?_
        · unfold x19
          refine Keeps.trans ?_ (State.fset_keeps _ _ _ _)
          exact k18
        intro k20
        clear_value x19
        extract_lets +onlyGivenNames x21
        extract_lets +onlyGivenNames x22
        refine Keeps.cut (b := x22) ?_ ?_
        · unfold x22
          refine Keeps.foldl _ _ (fun s23 y24 => ?_) ?_
          · refine Keeps.trans ?_ (State.scrubDie_keeps _ _)
            exact Keeps.refl _
          · exact k20
        intro k25
        clear_value x22
        extract_lets +onlyGivenNames x26
        refine Keeps.cut (b := x26) ?_ ?_
        · unfold x26
          refine Keeps.trans ?_ (State.fset_keeps _ _ _ _)
          refine Keeps.trans ?_ (State.fset_keeps _ _ _ _)
          exact k25
        intro k27
        clear_value x26
        extract_lets +onlyGivenNames x28
        refine Keeps.cut (b := x28) ?_ ?_
        · unfold x28
          refine Keeps.foldl _ _ (fun s29 y30 => ?_) ?_
          · refine Keeps.trans ?_ (State.clearCounts_keeps _ _)
            exact Keeps.refl _
          · exact k27
        intro k31
        clear_value x28
        extract_lets +onlyGivenNames x32
        refine Keeps.cut (b := x32) ?_ ?_
        · unfold x32
          refine Keeps.trans ?_ (State.clearPage_keeps _ _)
          refine Keeps.trans ?_ (State.fset_keeps _ _ _ _)
          refine Keeps.trans ?_ (State.fset_keeps _ _ _ _)
          exact k31
        intro k33
        clear_value x32
        extract_lets +onlyGivenNames x34
        refine Keeps.cut (b := x34) ?_ ?_
        · unfold x34
          refine Keeps.trans ?_ (State.clearRegs_keeps _ _)
          exact k33
        intro k35
        clear_value x34
        refine Keeps.foldl _ _ (fun s36 y37 => ?_) ?_
        · extract_lets +onlyGivenNames x38
          refine Keeps.cut (b := x38) ?_ ?_
          · unfold x38
            refine Keeps.trans ?_ (State.modFtl_keeps _ _ _)
            exact Keeps.refl _
          intro k39
          clear_value x38
          refine Keeps.ite ?_ ?_
          · refine Keeps.trans ?_ (State.fset_keeps _ _ _ _)
            refine Keeps.trans ?_ (State.fset_keeps _ _ _ _)
            exact k39
          · exact k39
        · exact k35

theorem execPartitionReset_keeps (p t : Nat) (s : State) : KNext 0x7FFFF8BFFD s (execPartitionReset p t s) := by
  unfold execPartitionReset
  extract_lets +onlyGivenNames x0
  refine KNext.cut (b := x0) ?_ ?_
  · unfold x0
    refine Keeps.trans ?_ (State.advanceTo_keeps _ _)
    exact Keeps.refl _
  intro k1
  clear_value x0
  refine KNext.ite ?_ ?_
  · refine KNext.mk ?_
    exact k1
  · refine KNext.ite ?_ ?_
    · refine KNext.mk ?_
      refine Keeps.trans ?_ (State.modPart_keeps _ _ _)
      exact k1
    · refine KNext.mk ?_
      refine Keeps.trans ?_ (State.resetPtn_keeps _ _)
      exact k1

theorem State.condemn_keeps (s : State) (d : Nat) (l : List Nat) : Keeps 0x200000400 s (State.condemn s d l) := by
  unfold State.condemn
  refine Keeps.trans ?_ (State.gcAdvance_keeps _ _)
  refine Keeps.foldl _ _ (fun s0 y1 => ?_) ?_
  · extract_lets +onlyGivenNames x2
    refine Keeps.cut (b := x2) ?_ ?_
    · unfold x2
      refine Keeps.trans ?_ (State.modBand_keeps _ _ _ _)
      refine Keeps.trans ?_ (State.closeBand_keeps _ _ _)
      exact Keeps.refl _
    intro k3
    clear_value x2
    extract_lets +onlyGivenNames x4
    refine Keeps.foldl _ _ (fun s5 y6 => ?_) ?_
    · refine KOpt.getD ?_ ?_
      · refine KOpt.trans ?_ (State.startReloc_keeps _ _ _ _)
        exact Keeps.refl _
      · exact Keeps.refl _
    · exact k3
  · exact Keeps.refl _

theorem State.cryptoErase_keeps (s : State) (d p g : Nat) : KSnd 0x200000408 s (State.cryptoErase s d p g) := by
  unfold State.cryptoErase
  split
  · rename_i z0 z1 z2 z3
    refine KSnd.cut (b := z2) ?_ ?_
    · refine KSnd.eq z3 ?_
      refine KSnd.trans ?_ (State.journal_keeps _ _ _ _)
      exact Keeps.refl _
    intro k4
    extract_lets +onlyGivenNames x5
    extract_lets +onlyGivenNames x6
    extract_lets +onlyGivenNames x7
    extract_lets +onlyGivenNames x8
    extract_lets +onlyGivenNames x9
    refine KSnd.cut (b := x9) ?_ ?_
    · unfold x9
      refine Keeps.foldl _ _ (fun s10 y11 => ?_) ?_
      · refine Keeps.trans ?_ (State.closeBand_keeps _ _ _)
        exact Keeps.refl _
      · exact k4
    intro k12
    clear_value x9
    extract_lets +onlyGivenNames x13
    refine KSnd.cut (b := x13) ?_ ?_
    · unfold x13
      refine Keeps.trans ?_ (State.modFtl_keeps _ _ _)
      exact k12
    intro k14
    clear_value x13
    extract_lets +onlyGivenNames x15
    extract_lets +onlyGivenNames x16
    refine KSnd.cut (b := x16) ?_ ?_
    · unfold x16
      refine Keeps.foldl _ _ (fun s17 y18 => ?_) ?_
      · refine Keeps.trans ?_ (State.modBand_keeps _ _ _ _)
        exact Keeps.refl _
      · exact k14
    intro k19
    clear_value x16
    extract_lets +onlyGivenNames x20
    refine KSnd.cut (b := x20) ?_ ?_
    · unfold x20
      refine Keeps.trans ?_ (State.modFtl_keeps _ _ _)
      exact k19
    intro k21
    clear_value x20
    extract_lets +onlyGivenNames x22
    refine KSnd.cut (b := x22) ?_ ?_
    · unfold x22
      refine Keeps.trans ?_ (State.condemn_keeps _ _ _)
      exact k21
    intro k23
    clear_value x22
    refine KSnd.mk ?_
    refine Keeps.ite ?_ ?_
    · refine Keeps.trans ?_ (State.evtDie_keeps _ _ _)
      exact k23
    · exact k23

theorem State.modRm_keeps (s : State) (p : Nat) (f : Removal → Removal) : Keeps 0x4000 s (State.modRm s p f) := by
  unfold State.modRm
  refine Keeps.sec ?_ _
  exact Keeps.refl _

theorem State.removalEnd_keeps (s : State) (p : Nat) : Keeps 0x16C0C069 s (State.removalEnd s p) := by
  unfold State.removalEnd
  split
  · rename_i z0 z1
    exact Keeps.refl _
  · rename_i z2 z3 z4
    extract_lets +onlyGivenNames x5
    extract_lets +onlyGivenNames x6
    extract_lets +onlyGivenNames x7
    extract_lets +onlyGivenNames x8
    refine Keeps.cut (b := x8) ?_ ?_
    · unfold x8
      refine Keeps.sec ?_ _
      exact Keeps.refl _
    intro k9
    clear_value x8
    extract_lets +onlyGivenNames x10
    refine Keeps.cut (b := x10) ?_ ?_
    · unfold x10
      split
      · rename_i z11 z12 z13
        refine Keeps.trans ?_ (State.completeKey_keeps _ _ _ _ _)
        refine Keeps.ite ?_ ?_
        · exact k9
        · refine Keeps.trans ?_ (State.descWrite_keeps _ _ _ _)
          exact k9
      · rename_i z14 z15
        refine Keeps.trans ?_ (State.evtPkg_keeps _ _)
        refine Keeps.ite ?_ ?_
        · exact k9
        · refine Keeps.trans ?_ (State.hostWrite_keeps _ _ _ _)
          exact k9
    intro k16
    clear_value x10
    extract_lets +onlyGivenNames x17
    extract_lets +onlyGivenNames x18
    refine Keeps.cut (b := x18) ?_ ?_
    · unfold x18
      refine Keeps.trans ?_ (State.unbind_keeps _ _)
      exact k16
    intro k19
    clear_value x18
    extract_lets +onlyGivenNames x20
    refine Keeps.cut (b := x20) ?_ ?_
    · unfold x20
      refine Keeps.foldl _ _ (fun s21 y22 => ?_) ?_
      · refine Keeps.trans ?_ (State.fset_keeps _ _ _ _)
        exact Keeps.refl _
      · exact k19
    intro k23
    clear_value x20
    extract_lets +onlyGivenNames x24
    refine Keeps.cut (b := x24) ?_ ?_
    · unfold x24
      refine Keeps.trans ?_ (State.fset_keeps _ _ _ _)
      refine Keeps.trans ?_ (State.fset_keeps _ _ _ _)
      refine Keeps.trans ?_ (State.fset_keeps _ _ _ _)
      exact k23
    intro k25
    clear_value x24
    extract_lets +onlyGivenNames x26
    refine Keeps.cut (b := x26) ?_ ?_
    · unfold x26
      refine Keeps.trans ?_ (State.modPart_keeps _ _ _)
      exact k25
    intro k27
    clear_value x26
    extract_lets +onlyGivenNames x28
    extract_lets +onlyGivenNames x29
    refine Keeps.cut (b := x29) ?_ ?_
    · unfold x29
      refine Keeps.sec ?_ _
      exact k27
    intro k30
    clear_value x29
    extract_lets +onlyGivenNames x31
    refine Keeps.cut (b := x31) ?_ ?_
    · unfold x31
      refine Keeps.trans ?_ (State.fputAt_keeps _ _ _ _ _)
      refine Keeps.trans ?_ (State.fputAt_keeps _ _ _ _ _)
      exact k30
    intro k32
    clear_value x31
    refine Keeps.trans ?_ (State.record_keeps _)
    refine Keeps.trans ?_ (State.settleRemoval_keeps _ _)
    exact k32

theorem State.removalErase_keeps (s : State) (p : Nat) : Keeps 0x200804429 s (State.removalErase s p) := by
  unfold State.removalErase
  split
  · rename_i z0 z1
    exact Keeps.refl _
  · rename_i z2 z3 z4
    extract_lets +onlyGivenNames x5
    extract_lets +onlyGivenNames x6
    extract_lets +onlyGivenNames x7
    extract_lets +onlyGivenNames x8
    extract_lets +onlyGivenNames x9
    refine Keeps.cut (b := x9) ?_ ?_
    · unfold x9
      refine Keeps.sec ?_ _
      exact Keeps.refl _
    intro k10
    clear_value x9
    extract_lets +onlyGivenNames x11
    refine Keeps.cut (b := x11) ?_ ?_
    · unfold x11
      refine Keeps.trans ?_ (State.modRm_keeps _ _ _)
      exact k10
    intro k12
    clear_value x11
    split
    · rename_i z13 z14 z15 z16
      refine Keeps.cut (b := z15) ?_ ?_
      · refine KSnd.eq z16 ?_
        refine KSnd.foldl _ _ (fun s17 y18 => ?_) _ ?_
        · extract_lets +onlyGivenNames x19
          refine KSnd.mk ?_
          refine Keeps.ite ?_ ?_
          · refine Keeps.trans ?_ (State.physErased_keeps _ _)
            refine KSnd.get ?_
            unfold x19
            refine KSnd.trans ?_ (State.cryptoErase_keeps _ _ _ _)
            exact Keeps.refl _
          · refine KSnd.get ?_
            unfold x19
            refine KSnd.trans ?_ (State.cryptoErase_keeps _ _ _ _)
            exact Keeps.refl _
        · refine KSnd.mk ?_
          exact k12
      intro k20
      refine Keeps.trans ?_ (State.modRm_keeps _ _ _)
      exact k20

theorem State.removalScrub_keeps (s : State) (p : Nat) : Keeps 0x2560085BA0 s (State.removalScrub s p) := by
  unfold State.removalScrub
  split
  · rename_i z0 z1
    exact Keeps.refl _
  · rename_i z2 z3 z4
    extract_lets +onlyGivenNames x5
    extract_lets +onlyGivenNames x6
    extract_lets +onlyGivenNames x7
    refine Keeps.cut (b := x7) ?_ ?_
    · unfold x7
      refine Keeps.foldl _ _ (fun s8 y9 => ?_) ?_
      · refine Keeps.trans ?_ (State.scrubDie_keeps _ _)
        exact Keeps.refl _
      · exact Keeps.refl _
    intro k10
    clear_value x7
    refine Keeps.trans ?_ (State.modRm_keeps _ _ _)
    exact k10

theorem State.removalFence_keeps (s : State) (p : Nat) : Keeps 0x32440CFE9 s (State.removalFence s p) := by
  unfold State.removalFence
  split
  · rename_i z0 z1
    exact Keeps.refl _
  · rename_i z2 z3 z4
    extract_lets +onlyGivenNames x5
    extract_lets +onlyGivenNames x6
    refine Keeps.cut (b := x6) ?_ ?_
    · unfold x6
      refine Keeps.sec ?_ _
      exact Keeps.refl _
    intro k7
    clear_value x6
    split
    · rename_i z8 z9 z10 z11 z12
      refine Keeps.cut (b := z11) ?_ ?_
      · refine KSnd2.eq z12 ?_
        refine KSnd2.trans ?_ (State.dropWork_keeps _ _ _)
        exact k7
      intro k13
      refine Keeps.trans ?_ (State.modRm_keeps _ _ _)
      exact k13

theorem State.removalStop_keeps (s : State) (p t : Nat) : Keeps 0x72640EFE9 s (State.removalStop s p t) := by
  unfold State.removalStop
  split
  · rename_i z0 z1
    exact Keeps.refl _
  · rename_i z2 z3 z4
    refine Keeps.ite ?_ ?_
    · exact Keeps.refl _
    · split
      · rename_i z5 z6 z7 z8
        refine Keeps.cut (b := z7) ?_ ?_
        · refine KSnd.eq z8 ?_
          refine KSnd.trans ?_ (State.fenceEligible_keeps _ _ _)
          exact Keeps.refl _
        intro k9
        extract_lets +onlyGivenNames x10
        refine Keeps.cut (b := x10) ?_ ?_
        · unfold x10
          refine Keeps.trans ?_ (State.modRm_keeps _ _ _)
          exact k9
        intro k11
        clear_value x10
        refine Keeps.trans ?_ (State.modRm_keeps _ _ _)
        refine Keeps.trans ?_ (State.removalFence_keeps _ _)
        exact k11

theorem State.removalStart_keeps (s : State) (p : Nat) (desc : Option (Nat × Nat × Nat)) (writer dest : Nat) : Keeps 0x736C0EFE9 s (State.removalStart s p desc writer dest) := by
  unfold State.removalStart
  extract_lets +onlyGivenNames x0
  extract_lets +onlyGivenNames x1
  extract_lets +onlyGivenNames x2
  extract_lets +onlyGivenNames x3
  extract_lets +onlyGivenNames x4
  extract_lets +onlyGivenNames x5
  refine Keeps.cut (b := x5) ?_ ?_
  · unfold x5
    refine Keeps.sec ?_ _
    exact Keeps.refl _
  intro k6
  extract_lets +onlyGivenNames x7
  refine Keeps.cut (b := x7) ?_ ?_
  · unfold x7
    refine Keeps.trans ?_ (State.partEvent_keeps _ _ _ _ _)
    exact k6
  intro k8
  extract_lets +onlyGivenNames x9
  refine Keeps.cut (b := x9) ?_ ?_
  · unfold x9
    refine Keeps.trans ?_ (State.fputAt_keeps _ _ _ _ _)
    refine Keeps.trans ?_ (State.fset_keeps _ _ _ _)
    exact k8
  intro k10
  refine Keeps.ite ?_ ?_
  · exact k10
  · extract_lets +onlyGivenNames x11
    refine Keeps.cut (b := x11) ?_ ?_
    · unfold x11
      refine Keeps.trans ?_ (State.removalStop_keeps _ _ _)
      exact k10
    intro k12
    clear_value x11
    refine Keeps.ite ?_ ?_
    · exact k12
    · refine Keeps.trans ?_ (State.modRm_keeps _ _ _)
      exact k12

theorem execTenantRemove_keeps (q : Desc) (dest t : Nat) (s : State) : KNext 0x736E0EFF9 s (execTenantRemove q dest t s) := by
  unfold execTenantRemove
  extract_lets +onlyGivenNames x0
  refine KNext.cut (b := x0) ?_ ?_
  · unfold x0
    refine Keeps.trans ?_ (State.advanceTo_keeps _ _)
    exact Keeps.refl _
  intro k1
  clear_value x0
  refine KNext.mk ?_
  refine Keeps.tr ?_ (runDesc_keeps _ _ _ _ _ (fun v2 => ?_))
  · exact k1
  · refine Keeps.trans ?_ (State.removalStart_keeps _ _ _ _ _)
    exact Keeps.refl _

theorem execRemovalStepEnd_keeps (p t : Nat) (s : State) : KNext 0x2776E8DFF9 s (execRemovalStepEnd p t s) := by
  unfold execRemovalStepEnd
  extract_lets +onlyGivenNames x0
  refine KNext.cut (b := x0) ?_ ?_
  · unfold x0
    refine Keeps.trans ?_ (State.advanceTo_keeps _ _)
    exact Keeps.refl _
  intro k1
  clear_value x0
  split
  · rename_i z2 z3
    refine KNext.mk ?_
    exact k1
  · rename_i z4 z5 z6
    refine KNext.ite ?_ ?_
    · refine KNext.mk ?_
      exact k1
    · extract_lets +onlyGivenNames x7
      refine KNext.cut (b := x7) ?_ ?_
      · unfold x7
        refine Keeps.trans ?_ (State.record_keeps _)
        refine Keeps.trans ?_ (State.modRm_keeps _ _ _)
        exact k1
      intro k8
      clear_value x7
      refine KNext.ite ?_ ?_
      · refine KNext.mk ?_
        refine Keeps.trans ?_ (State.modRm_keeps _ _ _)
        exact k8
      · refine KNext.ite ?_ ?_
        · refine KNext.mk ?_
          refine Keeps.trans ?_ (State.removalErase_keeps _ _)
          refine Keeps.trans ?_ (State.modRm_keeps _ _ _)
          refine Keeps.trans ?_ (State.removalScrub_keeps _ _)
          exact k8
        · refine KNext.ite ?_ ?_
          · refine KNext.mk ?_
            refine Keeps.trans ?_ (State.removalEnd_keeps _ _)
            exact k8
          · refine KNext.mk ?_
            exact k8

theorem State.destroyPending_keeps (s : State) (d : Nat) : Keeps 0x200804429 s (State.destroyPending s d) := by
  unfold State.destroyPending
  refine Keeps.foldl _ _ (fun s0 y1 => ?_) ?_
  · refine Keeps.ite ?_ ?_
    · split
      · rename_i z2 z3 z4 z5
        refine Keeps.cut (b := z4) ?_ ?_
        · refine KSnd.eq z5 ?_
          refine KSnd.trans ?_ (State.cryptoErase_keeps _ _ _ _)
          exact Keeps.refl _
        intro k6
        extract_lets +onlyGivenNames x7
        refine Keeps.cut (b := x7) ?_ ?_
        · unfold x7
          refine Keeps.trans ?_ (State.modRm_keeps _ _ _)
          exact k6
        intro k8
        clear_value x7
        extract_lets +onlyGivenNames x9
        refine Keeps.cut (b := x9) ?_ ?_
        · unfold x9
          refine Keeps.ite ?_ ?_
          · refine Keeps.trans ?_ (State.physErased_keeps _ _)
            exact k8
          · exact k8
        intro k10
        clear_value x9
        extract_lets +onlyGivenNames x11
        refine Keeps.cut (b := x11) ?_ ?_
        · unfold x11
          split
          · rename_i z12 z13 z14
            refine Keeps.ite ?_ ?_
            · refine Keeps.trans ?_ (State.evtPkg_keeps _ _)
              exact k10
            · exact k10
          · rename_i z15 z16
            exact k10
        intro k17
        clear_value x11
        refine Keeps.trans ?_ (State.record_keeps _)
        refine Keeps.trans ?_ (State.settleRemoval_keeps _ _)
        exact k17
    · exact Keeps.refl _
  · exact Keeps.refl _

theorem State.removalsLost_keeps (s : State) : Keeps 0x4000 s (State.removalsLost s) := by
  unfold State.removalsLost
  extract_lets +onlyGivenNames x0
  extract_lets +onlyGivenNames x1
  refine Keeps.sec ?_ _
  exact Keeps.refl _

theorem State.showRemovals_keeps (s : State) : Keeps 0x800000 s (State.showRemovals s) := by
  unfold State.showRemovals
  refine Keeps.foldl _ _ (fun s0 y1 => ?_) ?_
  · refine Keeps.ite ?_ ?_
    · refine Keeps.trans ?_ (State.fputAt_keeps _ _ _ _ _)
      exact Keeps.refl _
    · exact Keeps.refl _
  · exact Keeps.refl _

theorem State.dmk_keeps (s : State) (d : Nat) : Keeps 0x20040C44B s (State.dmk s d) := by
  unfold State.dmk
  split
  · rename_i z0 z1 z2 z3
    refine Keeps.sec ?_ _
    exact Keeps.refl _
  · rename_i z4 z5
    refine Keeps.ite ?_ ?_
    · exact Keeps.refl _
    · split
      · rename_i z6 z7 z8 z9
        refine Keeps.cut (b := z8) ?_ ?_
        · refine KSnd.eq z9 ?_
          refine KSnd.trans ?_ (State.draw_keeps _)
          exact Keeps.refl _
        intro k10
        extract_lets +onlyGivenNames x11
        extract_lets +onlyGivenNames x12
        extract_lets +onlyGivenNames x13
        refine Keeps.cut (b := x13) ?_ ?_
        · unfold x13
          refine Keeps.sec ?_ _
          exact k10
        intro k14
        clear_value x13
        split
        · rename_i z15 z16 z17 z18
          refine Keeps.cut (b := z17) ?_ ?_
          · refine KOpt.eq (g := fun (r : Sys2Proof.Machine.FLoc × Sys2Proof.Machine.State) => r.2) (r := (z16, z17)) z18 ?_
            refine KOpt.trans ?_ (State.writeObj_keeps _ _ _ _ _ _ _ _ _)
            exact k14
          intro k19
          exact k19
        · rename_i z20 z21
          refine Keeps.trans ?_ (State.roCheck_keeps _ _)
          exact k14

theorem State.nsKeyHere_keeps (s : State) (d : Nat) : Keeps 0x200408449 s (State.nsKeyHere s d) := by
  unfold State.nsKeyHere
  split
  · rename_i z0 z1
    exact Keeps.refl _
  · rename_i z2 z3 z4
    split
    · rename_i z5 z6
      exact Keeps.refl _
    · rename_i z7 z8 z9
      refine Keeps.ite ?_ ?_
      · exact Keeps.refl _
      · refine Keeps.trans ?_ (State.writeNsKey_keeps _ _ _ _ _)
        exact Keeps.refl _

theorem State.keysHere_keeps (s : State) (d : Nat) : Keeps 0x200408449 s (State.keysHere s d) := by
  unfold State.keysHere
  extract_lets +onlyGivenNames x0
  refine Keeps.ite ?_ ?_
  · exact Keeps.refl _
  · extract_lets +onlyGivenNames x1
    refine Keeps.cut (b := x1) ?_ ?_
    · unfold x1
      split
      · rename_i z2 z3 z4
        refine Keeps.ite ?_ ?_
        · exact Keeps.refl _
        · split
          · rename_i z5 z6 z7 z8
            refine Keeps.cut (b := z7) ?_ ?_
            · refine KOpt.eq (g := fun (r : Sys2Proof.Machine.FLoc × Sys2Proof.Machine.State) => r.2) (r := (z6, z7)) z8 ?_
              refine KOpt.trans ?_ (State.writeObj_keeps _ _ _ _ _ _ _ _ _)
              exact Keeps.refl _
            intro k9
            exact k9
          · rename_i z10 z11
            exact Keeps.refl _
      · rename_i z12 z13
        exact Keeps.refl _
    intro k14
    clear_value x1
    split
    · rename_i z15 z16
      exact k14
    · rename_i z17 z18 z19
      split
      · rename_i z20 z21 z22
        refine Keeps.ite ?_ ?_
        · exact k14
        · refine Keeps.trans ?_ (State.writeNsKey_keeps _ _ _ _ _)
          exact k14
      · rename_i z23 z24
        exact k14

theorem execFtlReplay_keeps (d seen t : Nat) (s : State) : KNext 0x2C0E0C7FB s (execFtlReplay d seen t s) := by
  unfold execFtlReplay
  extract_lets +onlyGivenNames x0
  refine KNext.cut (b := x0) ?_ ?_
  · unfold x0
    refine Keeps.trans ?_ (State.advanceTo_keeps _ _)
    exact Keeps.refl _
  intro k1
  clear_value x0
  refine KNext.ite ?_ ?_
  · refine KNext.mk ?_
    exact k1
  · extract_lets +onlyGivenNames x2
    extract_lets +onlyGivenNames x3
    refine KNext.ite ?_ ?_
    · extract_lets +onlyGivenNames x4
      refine KNext.cut (b := x4) ?_ ?_
      · unfold x4
        refine Keeps.trans ?_ (State.modFtl_keeps _ _ _)
        refine Keeps.trans ?_ (State.settleFlash_keeps _ _ _)
        exact k1
      intro k5
      clear_value x4
      refine KNext.mk ?_
      refine Keeps.foldl _ _ (fun s6 y7 => ?_) ?_
      · refine Keeps.ite ?_ ?_
        · refine Keeps.trans ?_ (State.modFtl_keeps _ _ _)
          exact Keeps.refl _
        · exact Keeps.refl _
      · exact k5
    · refine KNext.ite ?_ ?_
      · refine KNext.mk ?_
        exact k1
      · extract_lets +onlyGivenNames x8
        extract_lets +onlyGivenNames x9
        refine KNext.cut (b := x9) ?_ ?_
        · unfold x9
          refine Keeps.trans ?_ (State.settleFlash_keeps _ _ _)
          exact k1
        intro k10
        clear_value x9
        extract_lets +onlyGivenNames x11
        refine KNext.cut (b := x11) ?_ ?_
        · unfold x11
          refine Keeps.ite ?_ ?_
          · refine Keeps.trans ?_ (State.healthOccur_keeps _ _ _ _)
            refine Keeps.trans ?_ (State.evtDie_keeps _ _ _)
            exact k10
          · exact k10
        intro k12
        clear_value x11
        extract_lets +onlyGivenNames x13
        refine KNext.cut (b := x13) ?_ ?_
        · unfold x13
          refine Keeps.trans ?_ (State.modFtl_keeps _ _ _)
          exact k12
        intro k14
        clear_value x13
        extract_lets +onlyGivenNames x15
        refine KNext.cut (b := x15) ?_ ?_
        · unfold x15
          refine Keeps.trans ?_ (State.fset_keeps _ _ _ _)
          exact k14
        intro k16
        clear_value x15
        extract_lets +onlyGivenNames x17
        refine KNext.cut (b := x17) ?_ ?_
        · unfold x17
          refine Keeps.trans ?_ (State.fset_keeps _ _ _ _)
          refine Keeps.trans ?_ (State.fset_keeps _ _ _ _)
          exact k16
        intro k18
        clear_value x17
        extract_lets +onlyGivenNames x19
        refine KNext.cut (b := x19) ?_ ?_
        · unfold x19
          refine Keeps.trans ?_ (State.modFtl_keeps _ _ _)
          exact k18
        intro k20
        clear_value x19
        extract_lets +onlyGivenNames x21
        refine KNext.cut (b := x21) ?_ ?_
        · unfold x21
          refine Keeps.ite ?_ ?_
          · split
            · rename_i z22 z23 z24 z25
              refine Keeps.cut (b := z24) ?_ ?_
              · refine KOpt.eq (g := fun (r : Nat × Sys2Proof.Machine.State) => r.2) (r := (z23, z24)) z25 ?_
                refine KOpt.trans ?_ (State.openBand_keeps _ _ _ _)
                exact k20
              intro k26
              exact k26
            · rename_i z27 z28
              exact k20
          · exact k20
        intro k29
        clear_value x21
        extract_lets +onlyGivenNames x30
        refine KNext.cut (b := x30) ?_ ?_
        · unfold x30
          refine Keeps.trans ?_ (State.wearCheck_keeps _ _)
          refine Keeps.trans ?_ (State.fset_keeps _ _ _ _)
          exact k29
        intro k31
        clear_value x30
        extract_lets +onlyGivenNames x32
        refine KNext.cut (b := x32) ?_ ?_
        · unfold x32
          refine Keeps.trans ?_ (State.nsKeyHere_keeps _ _)
          refine Keeps.trans ?_ (State.dmk_keeps _ _)
          refine Keeps.trans ?_ (State.destroyPending_keeps _ _)
          refine Keeps.trans ?_ (State.roCheck_keeps _ _)
          exact k31
        intro k33
        clear_value x32
        refine KNext.mk ?_
        refine Keeps.ite ?_ ?_
        · refine Keeps.trans ?_ (State.restoreAll_keeps _ _)
          exact k33
        · exact k33

end Sys2Proof.Machine
end

