-- ==== Sys2Proof/Laws/KeepsMailbox.lean ====
section
/-!
SUPPORT. Sys2Proof/Laws/KeepsMailbox.lean: each operation of Machine/Mailbox.lean keeps what `Keeps` says, with the parts of the state it may
touch.
-/
namespace Sys2Proof.Machine
set_option Elab.async false

theorem State.enterError_keeps (s : State) : Keeps 0xC0CC0AC69 s (State.enterError s) := by
  unfold State.enterError
  extract_lets +onlyGivenNames x0
  refine Keeps.cut (b := x0) ?_ ?_
  · unfold x0
    refine Keeps.trans ?_ (State.fset_keeps _ _ _ _)
    refine Keeps.trans ?_ (State.fset_keeps _ _ _ _)
    exact Keeps.refl _
  intro k1
  clear_value x0
  refine Keeps.foldl _ _ (fun s2 y3 => ?_) ?_
  · refine Keeps.trans ?_ (State.modFtl_keeps _ _ _)
    refine Keeps.trans ?_ (State.fabricDown_keeps _ _)
    exact Keeps.refl _
  · exact k1

theorem State.moduleError_keeps (s : State) (code : Nat) : Keeps 0xC0CC4AC69 s (State.moduleError s code) := by
  unfold State.moduleError
  extract_lets +onlyGivenNames x0
  refine Keeps.cut (b := x0) ?_ ?_
  · unfold x0
    refine Keeps.trans ?_ (State.logTest_keeps _ _ _ _ _)
    exact Keeps.refl _
  intro k1
  clear_value x0
  extract_lets +onlyGivenNames x2
  refine Keeps.cut (b := x2) ?_ ?_
  · unfold x2
    refine Keeps.ite ?_ ?_
    · refine Keeps.trans ?_ (State.fset_keeps _ _ _ _)
      exact k1
    · exact k1
  intro k3
  clear_value x2
  refine Keeps.trans ?_ (State.enterError_keeps _)
  refine Keeps.trans ?_ (State.sealedEvent_keeps _ _ _)
  refine Keeps.trans ?_ (State.evtPkg_keeps _ _)
  exact k3

theorem State.zeroizeDie_keeps (s : State) (d : Nat) : KSnd 0x20040C44B s (State.zeroizeDie s d) := by
  unfold State.zeroizeDie
  extract_lets +onlyGivenNames x0
  split
  · rename_i z1 z2 z3 z4
    refine KSnd.cut (b := z3) ?_ ?_
    · refine KSnd.eq z4 ?_
      refine KSnd.ite ?_ ?_
      · refine KSnd.foldl _ _ (fun s5 y6 => ?_) _ ?_
        · refine KSnd.foldl _ _ (fun s7 y8 => ?_) _ ?_
          · extract_lets +onlyGivenNames x9
            refine KSnd.mk ?_
            refine KSnd.get ?_
            unfold x9
            refine KSnd.trans ?_ (State.cryptoErase_keeps _ _ _ _)
            exact Keeps.refl _
          · exact Keeps.refl _
        · refine KSnd.mk ?_
          exact Keeps.refl _
      · refine KSnd.mk ?_
        exact Keeps.refl _
    intro k10
    extract_lets +onlyGivenNames x11
    refine KSnd.cut (b := x11) ?_ ?_
    · unfold x11
      refine Keeps.trans ?_ (State.modFtl_keeps _ _ _)
      exact k10
    intro k12
    clear_value x11
    extract_lets +onlyGivenNames x13
    extract_lets +onlyGivenNames x14
    refine KSnd.cut (b := x14) ?_ ?_
    · unfold x14
      refine Keeps.sec ?_ _
      exact k12
    intro k15
    clear_value x14
    extract_lets +onlyGivenNames x16
    refine KSnd.cut (b := x16) ?_ ?_
    · unfold x16
      refine Keeps.ite ?_ ?_
      · refine Keeps.trans ?_ (State.gcAdvance_keeps _ _)
        refine Keeps.trans ?_ (State.dmk_keeps _ _)
        exact k15
      · exact k15
    intro k17
    clear_value x16
    refine KSnd.mk ?_
    exact k17

theorem State.zeroizeAll_keeps (s : State) : KSnd 0xE0040E44B s (State.zeroizeAll s) := by
  unfold State.zeroizeAll
  extract_lets +onlyGivenNames x0
  split
  · rename_i z1 z2 z3 z4
    refine KSnd.cut (b := z3) ?_ ?_
    · refine KSnd.eq z4 ?_
      refine KSnd.foldl _ _ (fun s5 y6 => ?_) _ ?_
      · extract_lets +onlyGivenNames x7
        refine KSnd.mk ?_
        refine KSnd.get ?_
        unfold x7
        refine KSnd.trans ?_ (State.zeroizeDie_keeps _ _)
        exact Keeps.refl _
      · refine KSnd.mk ?_
        exact Keeps.refl _
    intro k8
    extract_lets +onlyGivenNames x9
    extract_lets +onlyGivenNames x10
    refine KSnd.cut (b := x10) ?_ ?_
    · unfold x10
      refine Keeps.sec ?_ _
      exact k8
    intro k11
    clear_value x10
    extract_lets +onlyGivenNames x12
    refine KSnd.cut (b := x12) ?_ ?_
    · unfold x12
      refine Keeps.foldl _ _ (fun s13 y14 => ?_) ?_
      · refine Keeps.ite ?_ ?_
        · refine Keeps.trans ?_ (State.refreshPort_keeps _ _)
          refine Keeps.trans ?_ (State.modLnk_keeps _ _ _)
          exact Keeps.refl _
        · exact Keeps.refl _
      · exact k11
    intro k15
    clear_value x12
    refine KSnd.mk ?_
    exact k15

theorem State.mailbox_keeps {m : Nat} (s : State) (obj : MboxObj) (signed : Bool) (go : State → Option Nat × State) (hgo : ∀ a0, KSnd m a0 (go a0)) (hm : 0x804021 ||| m = m := by first | decide | exact Nat.or_self _ | (rw [Fld.nth_bit]; decide) | (rw [faultsFld_bit]; decide) | (rw [atmLo_bit1]; decide) | (rw [atmLo_bit2]; decide) | exact orSelf _ _ | exact orRight _ (by decide) | exact orRight _ (orSelf _ _) | exact orRight _ (orRight _ (by decide)) | exact orBoth _ (by decide) | exact Fld.bit_top _ | exact Fld.bit_regs _ | exact Fld.bit_top2 _ _ (by decide) | exact orSub (by assumption) (by decide) | (split <;> decide)) : Keeps m s (State.mailbox s obj signed go) := by
  unfold State.mailbox
  refine Keeps.ite ?_ ?_
  · exact Keeps.refl _
  · extract_lets +onlyGivenNames x0
    refine Keeps.cut (b := x0) ?_ ?_
    · unfold x0
      refine Keeps.trans ?_ (State.fset_keeps _ _ _ _)
      refine Keeps.trans ?_ (State.fset_keeps _ _ _ _)
      exact Keeps.refl _
    intro k1
    clear_value x0
    refine Keeps.ite ?_ ?_
    · refine Keeps.trans ?_ (State.mboxDone_keeps _ _)
      exact k1
    · refine Keeps.ite ?_ ?_
      · refine Keeps.trans ?_ (State.mboxDone_keeps _ _)
        refine Keeps.trans ?_ (State.authFail_keeps _)
        exact k1
      · extract_lets +onlyGivenNames x2
        extract_lets +onlyGivenNames x3
        refine Keeps.cut (b := x3) ?_ ?_
        · unfold x3
          refine Keeps.sec ?_ _
          exact k1
        intro k4
        clear_value x3
        split
        · rename_i z5 z6 z7 z8
          refine Keeps.cut (b := z7) ?_ ?_
          · refine KSnd.eq z8 ?_
            refine KSnd.tr ?_ (hgo _)
            exact k4
          intro k9
          refine Keeps.trans ?_ (State.mboxDone_keeps _ _)
          refine Keeps.trans ?_ (State.record_keeps _)
          exact k9
        · rename_i z10 z11 z12
          refine Keeps.cut (b := z11) ?_ ?_
          · refine KSnd.eq z12 ?_
            refine KSnd.tr ?_ (hgo _)
            exact k4
          intro k13
          refine Keeps.trans ?_ (State.record_keeps _)
          exact k13

theorem execFwStage_keeps (port : Nat) (obj : MboxObj) (img : FwImage) (s : State) : KNext 0x804021 s (execFwStage port obj img s) := by
  unfold execFwStage
  refine KNext.ite ?_ ?_
  · refine KNext.mk ?_
    exact Keeps.refl _
  · refine KNext.mk ?_
    refine Keeps.tr ?_ (State.mailbox_keeps _ _ _ _ (fun v0 => ?_))
    · exact Keeps.refl _
    · extract_lets +onlyGivenNames x1
      extract_lets +onlyGivenNames x2
      extract_lets +onlyGivenNames x3
      refine KSnd.cut (b := x3) ?_ ?_
      · unfold x3
        refine Keeps.sec ?_ _
        exact Keeps.refl _
      intro k4
      clear_value x3
      refine KSnd.ite ?_ ?_
      · refine KSnd.mk ?_
        exact k4
      · refine KSnd.ite ?_ ?_
        · refine KSnd.mk ?_
          exact k4
        · refine KSnd.mk ?_
          refine Keeps.trans ?_ (State.evtPkg_keeps _ _)
          exact k4

theorem execFwSelect_keeps (port : Nat) (obj : MboxObj) (slot : Nat) (s : State) : KNext 0x804021 s (execFwSelect port obj slot s) := by
  unfold execFwSelect
  refine KNext.ite ?_ ?_
  · refine KNext.mk ?_
    exact Keeps.refl _
  · refine KNext.mk ?_
    refine Keeps.tr ?_ (State.mailbox_keeps _ _ _ _ (fun v0 => ?_))
    · exact Keeps.refl _
    · refine KSnd.ite ?_ ?_
      · refine KSnd.mk ?_
        exact Keeps.refl _
      · split
        · rename_i z1 z2 z3
          refine KSnd.ite ?_ ?_
          · refine KSnd.mk ?_
            refine Keeps.sec ?_ _
            exact Keeps.refl _
          · refine KSnd.mk ?_
            exact Keeps.refl _
        · rename_i z4 z5
          refine KSnd.mk ?_
          exact Keeps.refl _

theorem execSvnCommit_keeps (port : Nat) (obj : MboxObj) (s : State) : KNext 0x804021 s (execSvnCommit port obj s) := by
  unfold execSvnCommit
  refine KNext.ite ?_ ?_
  · refine KNext.mk ?_
    exact Keeps.refl _
  · refine KNext.mk ?_
    refine Keeps.tr ?_ (State.mailbox_keeps _ _ _ _ (fun v0 => ?_))
    · exact Keeps.refl _
    · refine KSnd.mk ?_
      refine Keeps.trans ?_ (State.fmax_keeps _ _ _ _)
      exact Keeps.refl _

theorem execApprovedSet_keeps (port : Nat) (obj : MboxObj) (mode : Nat) (s : State) : KNext 0x804021 s (execApprovedSet port obj mode s) := by
  unfold execApprovedSet
  refine KNext.ite ?_ ?_
  · refine KNext.mk ?_
    exact Keeps.refl _
  · refine KNext.mk ?_
    refine Keeps.tr ?_ (State.mailbox_keeps _ _ _ _ (fun v0 => ?_))
    · exact Keeps.refl _
    · refine KSnd.ite ?_ ?_
      · refine KSnd.mk ?_
        exact Keeps.refl _
      · extract_lets +onlyGivenNames x1
        extract_lets +onlyGivenNames x2
        refine KSnd.cut (b := x2) ?_ ?_
        · unfold x2
          refine Keeps.sec ?_ _
          exact Keeps.refl _
        intro k3
        clear_value x2
        refine KSnd.mk ?_
        refine Keeps.trans ?_ (State.fput_keeps _ _ _ _)
        exact k3

theorem execTenantKey_keeps (port : Nat) (obj : MboxObj) (p : Nat) (key : List Byte) (s : State) : KNext 0x804021 s (execTenantKey port obj p key s) := by
  unfold execTenantKey
  refine KNext.ite ?_ ?_
  · refine KNext.mk ?_
    exact Keeps.refl _
  · refine KNext.mk ?_
    refine Keeps.tr ?_ (State.mailbox_keeps _ _ _ _ (fun v0 => ?_))
    · exact Keeps.refl _
    · refine KSnd.ite ?_ ?_
      · refine KSnd.mk ?_
        exact Keeps.refl _
      · refine KSnd.ite ?_ ?_
        · refine KSnd.mk ?_
          exact Keeps.refl _
        · refine KSnd.mk ?_
          refine Keeps.sec ?_ _
          exact Keeps.refl _

theorem execRemove_keeps (port : Nat) (obj : MboxObj) (p dest t : Nat) (s : State) : KNext 0x736E0EFF9 s (execRemove port obj p dest t s) := by
  unfold execRemove
  extract_lets +onlyGivenNames x0
  refine KNext.cut (b := x0) ?_ ?_
  · unfold x0
    refine Keeps.trans ?_ (State.advanceTo_keeps _ _)
    exact Keeps.refl _
  intro k1
  clear_value x0
  refine KNext.ite ?_ ?_
  · refine KNext.mk ?_
    exact k1
  · refine KNext.mk ?_
    refine Keeps.tr ?_ (State.mailbox_keeps _ _ _ _ (fun v2 => ?_))
    · exact k1
    · refine KSnd.ite ?_ ?_
      · refine KSnd.mk ?_
        exact Keeps.refl _
      · refine KSnd.ite ?_ ?_
        · refine KSnd.mk ?_
          exact Keeps.refl _
        · refine KSnd.mk ?_
          refine Keeps.trans ?_ (State.removalStart_keeps _ _ _ _ _)
          exact Keeps.refl _

theorem execZeroize_keeps (port : Nat) (obj : MboxObj) (s : State) : KNext 0xE00C0E46B s (execZeroize port obj s) := by
  unfold execZeroize
  refine KNext.ite ?_ ?_
  · refine KNext.mk ?_
    exact Keeps.refl _
  · refine KNext.mk ?_
    refine Keeps.tr ?_ (State.mailbox_keeps _ _ _ _ (fun v0 => ?_))
    · exact Keeps.refl _
    · refine KSnd.ite ?_ ?_
      · refine KSnd.mk ?_
        exact Keeps.refl _
      · split
        · rename_i z1 z2 z3 z4
          refine KSnd.cut (b := z3) ?_ ?_
          · refine KSnd.eq z4 ?_
            refine KSnd.trans ?_ (State.zeroizeAll_keeps _)
            exact Keeps.refl _
          intro k5
          extract_lets +onlyGivenNames x6
          extract_lets +onlyGivenNames x7
          refine KSnd.cut (b := x7) ?_ ?_
          · unfold x7
            refine Keeps.sec ?_ _
            exact k5
          intro k8
          clear_value x7
          refine KSnd.ite ?_ ?_
          · refine KSnd.mk ?_
            refine Keeps.trans ?_ (State.zeroized_keeps _)
            exact k8
          · refine KSnd.mk ?_
            exact k8

theorem execDebugSeal_keeps (port : Nat) (obj : MboxObj) (s : State) : KNext 0x804021 s (execDebugSeal port obj s) := by
  unfold execDebugSeal
  refine KNext.ite ?_ ?_
  · refine KNext.mk ?_
    exact Keeps.refl _
  · refine KNext.mk ?_
    refine Keeps.tr ?_ (State.mailbox_keeps _ _ _ _ (fun v0 => ?_))
    · exact Keeps.refl _
    · refine KSnd.mk ?_
      refine Keeps.trans ?_ (State.fset_keeps _ _ _ _)
      refine Keeps.trans ?_ (State.fset_keeps _ _ _ _)
      exact Keeps.refl _

theorem execOwnerProvision_keeps (port : Nat) (obj : MboxObj) (key : List Byte) (s : State) : KNext 0x804021 s (execOwnerProvision port obj key s) := by
  unfold execOwnerProvision
  refine KNext.ite ?_ ?_
  · refine KNext.mk ?_
    exact Keeps.refl _
  · refine KNext.mk ?_
    refine Keeps.tr ?_ (State.mailbox_keeps _ _ _ _ (fun v0 => ?_))
    · exact Keeps.refl _
    · extract_lets +onlyGivenNames x1
      refine KSnd.ite ?_ ?_
      · refine KSnd.mk ?_
        exact Keeps.refl _
      · refine KSnd.ite ?_ ?_
        · refine KSnd.mk ?_
          exact Keeps.refl _
        · extract_lets +onlyGivenNames x2
          extract_lets +onlyGivenNames x3
          extract_lets +onlyGivenNames x4
          refine KSnd.cut (b := x4) ?_ ?_
          · unfold x4
            refine Keeps.sec ?_ _
            exact Keeps.refl _
          intro k5
          clear_value x4
          refine KSnd.mk ?_
          refine Keeps.trans ?_ (State.fset_keeps _ _ _ _)
          refine Keeps.trans ?_ (State.fset_keeps _ _ _ _)
          exact k5

theorem execSelftestNow_keeps (via : Via) (code : Nat) (s : State) : KNext 0xC0CC4AC69 s (execSelftestNow via code s) := by
  unfold execSelftestNow
  refine KNext.mk ?_
  refine Keeps.tr ?_ (regWrite_keeps _ _ _ _ (fun v0 => ?_))
  · exact Keeps.refl _
  · extract_lets +onlyGivenNames x1
    refine Keeps.cut (b := x1) ?_ ?_
    · unfold x1
      refine Keeps.trans ?_ (State.fadd_keeps _ _ _ _)
      exact Keeps.refl _
    intro k2
    clear_value x1
    refine Keeps.ite ?_ ?_
    · refine Keeps.trans ?_ (State.logTest_keeps _ _ _ _ _)
      exact k2
    · refine Keeps.trans ?_ (State.moduleError_keeps _ _)
      exact k2

theorem execEntropyHealthFail_keeps (s : State) : KNext 0xC0CC4AC69 s (execEntropyHealthFail s) := by
  unfold execEntropyHealthFail
  refine KNext.mk ?_
  refine Keeps.trans ?_ (State.moduleError_keeps _ _)
  exact Keeps.refl _

end Sys2Proof.Machine
end

