-- ==== Sys2Proof/Laws/KeepsUnits.lean ====
section
/-!
SUPPORT. Sys2Proof/Laws/KeepsUnits.lean: each operation of Machine/Units.lean keeps what `Keeps` says, with the parts of the state it may
touch.
-/
namespace Sys2Proof.Machine
set_option Elab.async false

theorem State.queueTask_keeps (s : State) (d c : Nat) (k : WTask) : Keeps 0x2000001008 s (State.queueTask s d c k) := by
  unfold State.queueTask
  extract_lets +onlyGivenNames x0
  extract_lets +onlyGivenNames x1
  refine Keeps.ite ?_ ?_
  · refine Keeps.trans ?_ (State.evtDie_keeps _ _ _)
    refine Keeps.trans ?_ (State.modWkt_keeps _ _ _)
    exact Keeps.refl _
  · refine Keeps.trans ?_ (State.modWkt_keeps _ _ _)
    exact Keeps.refl _

theorem State.wicketEnd_keeps (s : State) (d w : Nat) : Keeps 0x2004009108 s (State.wicketEnd s d w) := by
  unfold State.wicketEnd
  split
  · rename_i z0 z1
    exact Keeps.refl _
  · rename_i z2 z3 z4
    extract_lets +onlyGivenNames x5
    refine Keeps.cut (b := x5) ?_ ?_
    · unfold x5
      refine Keeps.trans ?_ (State.modWkt_keeps _ _ _)
      exact Keeps.refl _
    intro k6
    clear_value x5
    extract_lets +onlyGivenNames x7
    refine Keeps.cut (b := x7) ?_ ?_
    · unfold x7
      refine Keeps.ite ?_ ?_
      · refine Keeps.trans ?_ (State.closeHolder_keeps _ _ _)
        exact k6
      · exact k6
    intro k8
    clear_value x7
    refine Keeps.trans ?_ (State.pmc_keeps _ _ _ _ _ _)
    refine Keeps.trans ?_ (State.fadd_keeps _ _ _ _)
    exact k8

theorem execWicketTakeTask_keeps (d w : Nat) (fresh : List TaskReq) (t : Nat) (s : State) : KNext 0x2004209118 s (execWicketTakeTask d w fresh t s) := by
  unfold execWicketTakeTask
  extract_lets +onlyGivenNames x0
  refine KNext.cut (b := x0) ?_ ?_
  · unfold x0
    refine Keeps.trans ?_ (State.advanceTo_keeps _ _)
    exact Keeps.refl _
  intro k1
  clear_value x0
  refine KNext.ite ?_ ?_
  · refine KNext.mk ?_
    exact k1
  · extract_lets +onlyGivenNames x2
    refine KNext.cut (b := x2) ?_ ?_
    · unfold x2
      refine Keeps.trans ?_ (State.wicketEnd_keeps _ _ _)
      exact k1
    intro k3
    clear_value x2
    extract_lets +onlyGivenNames x4
    extract_lets +onlyGivenNames x5
    refine KNext.cut (b := x5) ?_ ?_
    · unfold x5
      refine Keeps.trans ?_ (State.modWkt_keeps _ _ _)
      exact k3
    intro k6
    clear_value x5
    extract_lets +onlyGivenNames x7
    refine KNext.cut (b := x7) ?_ ?_
    · unfold x7
      refine Keeps.foldl _ _ (fun s8 y9 => ?_) ?_
      · refine Keeps.trans ?_ (State.queueTask_keeps _ _ _ _)
        exact Keeps.refl _
      · exact k6
    intro k10
    clear_value x7
    extract_lets +onlyGivenNames x11
    refine KNext.cut (b := x11) ?_ ?_
    · unfold x11
      refine Keeps.foldl _ _ (fun s12 y13 => ?_) ?_
      · refine Keeps.ite ?_ ?_
        · exact Keeps.refl _
        · refine Keeps.trans ?_ (State.queueTask_keeps _ _ _ _)
          exact Keeps.refl _
      · exact k10
    intro k14
    clear_value x11
    extract_lets +onlyGivenNames x15
    refine KNext.cut (b := x15) ?_ ?_
    · unfold x15
      refine Keeps.trans ?_ (State.queueDepth_keeps _ _)
      exact k14
    intro k16
    clear_value x15
    refine KNext.ite ?_ ?_
    · refine KNext.mk ?_
      exact k16
    · split
      · rename_i z17 z18
        refine KNext.mk ?_
        exact k16
      · rename_i z19 z20 z21 z22 z23 z24
        extract_lets +onlyGivenNames x25
        extract_lets +onlyGivenNames x26
        refine KNext.cut (b := x26) ?_ ?_
        · unfold x26
          refine Keeps.ite ?_ ?_
          · refine Keeps.trans ?_ (State.openHolder_keeps _ _)
            exact k16
          · exact k16
        intro k27
        clear_value x26
        extract_lets +onlyGivenNames x28
        extract_lets +onlyGivenNames x29
        refine KNext.cut (b := x29) ?_ ?_
        · unfold x29
          refine Keeps.trans ?_ (State.modWkt_keeps _ _ _)
          exact k27
        intro k30
        clear_value x29
        extract_lets +onlyGivenNames x31
        refine KNext.cut (b := x31) ?_ ?_
        · unfold x31
          refine Keeps.ite ?_ ?_
          · refine Keeps.trans ?_ (State.fadd_keeps _ _ _ _)
            exact k30
          · refine Keeps.ite ?_ ?_
            · refine Keeps.trans ?_ (State.fadd_keeps _ _ _ _)
              exact k30
            · exact k30
        intro k32
        clear_value x31
        extract_lets +onlyGivenNames x33
        refine KNext.cut (b := x33) ?_ ?_
        · unfold x33
          refine Keeps.ite ?_ ?_
          · exact k32
          · refine Keeps.trans ?_ (State.pmc_keeps _ _ _ _ _ _)
            exact k32
        intro k34
        clear_value x33
        refine KNext.mk ?_
        refine Keeps.trans ?_ (State.queueDepth_keeps _ _)
        refine Keeps.trans ?_ (State.pmc_keeps _ _ _ _ _ _)
        exact k34

theorem execWicketWatchdogExpiry_keeps (d w t : Nat) (s : State) : KNext 0x7FFFFFBFFF s (execWicketWatchdogExpiry d w t s) := by
  unfold execWicketWatchdogExpiry
  extract_lets +onlyGivenNames x0
  refine KNext.cut (b := x0) ?_ ?_
  · unfold x0
    refine Keeps.trans ?_ (State.advanceTo_keeps _ _)
    exact Keeps.refl _
  intro k1
  clear_value x0
  split
  · rename_i z2 z3
    refine KNext.mk ?_
    exact k1
  · rename_i z4 z5 z6
    refine KNext.ite ?_ ?_
    · refine KNext.mk ?_
      exact k1
    · refine KNext.mk ?_
      refine Keeps.trans ?_ (State.restartTask_keeps _ _ _)
      refine Keeps.trans ?_ (State.hwFence_keeps _ _ _ _)
      exact k1

theorem State.segLost_keeps (s : State) (d seg : Nat) : Keeps 0x4E440ABEB s (State.segLost s d seg) := by
  unfold State.segLost
  split
  · rename_i z0 z1 z2 z3
    extract_lets +onlyGivenNames x4
    refine Keeps.cut (b := x4) ?_ ?_
    · unfold x4
      refine Keeps.trans ?_ (State.failReaders_keeps _ _ _)
      exact Keeps.refl _
    intro k5
    clear_value x4
    refine Keeps.ite ?_ ?_
    · refine Keeps.trans ?_ (State.startRebuild_keeps _ _ _ _)
      refine Keeps.trans ?_ (State.dropStore_keeps _ _ _)
      exact k5
    · refine Keeps.ite ?_ ?_
      · refine Keeps.trans ?_ (State.stageIn_keeps _ _ _ _)
        refine Keeps.trans ?_ (State.dropFrame_keeps _ _ _)
        exact k5
      · refine Keeps.trans ?_ (State.loseTail_keeps _ _ _)
        exact k5
  · rename_i z6 z7
    refine Keeps.trans ?_ (State.modCsm_keeps _ _ _)
    exact Keeps.refl _

theorem State.scrubLine_keeps (s : State) (d : Nat) (l : ScrubLine) : Keeps 0x7FFFFFBFEF s (State.scrubLine s d l) := by
  unfold State.scrubLine
  extract_lets +onlyGivenNames x0
  refine Keeps.ite ?_ ?_
  · exact Keeps.refl _
  · refine Keeps.ite ?_ ?_
    · exact Keeps.refl _
    · refine Keeps.ite ?_ ?_
      · extract_lets +onlyGivenNames x1
        refine Keeps.cut (b := x1) ?_ ?_
        · unfold x1
          refine Keeps.trans ?_ (State.retire_keeps _ _ _)
          refine Keeps.trans ?_ (State.noteUe_keeps _ _ _ _ _)
          exact Keeps.refl _
        intro k2
        clear_value x1
        refine Keeps.ite ?_ ?_
        · exact k2
        · refine Keeps.ite ?_ ?_
          · refine Keeps.trans ?_ (State.loseDie_keeps _ _ _)
            exact k2
          · refine Keeps.trans ?_ (State.segLost_keeps _ _ _)
            exact k2
      · extract_lets +onlyGivenNames x3
        refine Keeps.cut (b := x3) ?_ ?_
        · unfold x3
          refine Keeps.trans ?_ (State.pmc_keeps _ _ _ _ _ _)
          refine Keeps.trans ?_ (State.fadd_keeps _ _ _ _)
          exact Keeps.refl _
        intro k4
        clear_value x3
        extract_lets +onlyGivenNames x5
        extract_lets +onlyGivenNames x6
        extract_lets +onlyGivenNames x7
        extract_lets +onlyGivenNames x8
        refine Keeps.cut (b := x8) ?_ ?_
        · unfold x8
          refine Keeps.ras ?_ _
          exact k4
        intro k9
        clear_value x8
        refine Keeps.ite ?_ ?_
        · refine Keeps.trans ?_ (State.retire_keeps _ _ _)
          exact k9
        · exact k9

theorem State.sramLost_keeps (s : State) (d : Nat) (l : SramLine) : Keeps 0x7FFFFFBFEF s (State.sramLost s d l) := by
  unfold State.sramLost
  extract_lets +onlyGivenNames x0
  refine Keeps.cut (b := x0) ?_ ?_
  · unfold x0
    refine Keeps.trans ?_ (State.noteUe_keeps _ _ _ _ _)
    exact Keeps.refl _
  intro k1
  clear_value x0
  split
  · rename_i z2 z3 z4
    extract_lets +onlyGivenNames x5
    extract_lets +onlyGivenNames x6
    refine Keeps.cut (b := x6) ?_ ?_
    · unfold x6
      refine Keeps.trans ?_ (State.modCsm_keeps _ _ _)
      exact k1
    intro k7
    clear_value x6
    split
    · rename_i z8 z9
      exact k7
    · rename_i z10 z11 z12
      refine Keeps.trans ?_ (State.modSweep_keeps _ _ _ _)
      exact k7
  · rename_i z13 z14
    split
    · rename_i z15 z16
      exact k1
    · rename_i z17 z18 z19
      refine Keeps.trans ?_ (State.failRecs_keeps _ _ _ _ _)
      exact k1
  · rename_i z20 z21
    refine Keeps.trans ?_ (State.restartTask_keeps _ _ _)
    refine Keeps.trans ?_ (State.hwFence_keeps _ _ _ _)
    exact k1
  · rename_i z22 z23
    refine Keeps.trans ?_ (State.hwFence_keeps _ _ _ _)
    exact k1
  · rename_i z24 z25
    refine Keeps.trans ?_ (State.hwFence_keeps _ _ _ _)
    exact k1
  · rename_i z26
    exact k1

theorem execHbmScrubPass_keeps (d : Nat) (hbm : List ScrubLine) (sramCe : Nat) (sram : List SramLine) (last : Bool) (t : Nat) (s : State) : KNext 0x7FFFFFBFFF s (execHbmScrubPass d hbm sramCe sram last t s) := by
  unfold execHbmScrubPass
  extract_lets +onlyGivenNames x0
  refine KNext.cut (b := x0) ?_ ?_
  · unfold x0
    refine Keeps.trans ?_ (State.advanceTo_keeps _ _)
    exact Keeps.refl _
  intro k1
  clear_value x0
  refine KNext.ite ?_ ?_
  · refine KNext.mk ?_
    exact k1
  · extract_lets +onlyGivenNames x2
    refine KNext.cut (b := x2) ?_ ?_
    · unfold x2
      refine Keeps.foldl _ _ (fun s3 y4 => ?_) ?_
      · refine Keeps.trans ?_ (State.scrubLine_keeps _ _ _)
        exact Keeps.refl _
      · exact k1
    intro k5
    clear_value x2
    extract_lets +onlyGivenNames x6
    refine KNext.cut (b := x6) ?_ ?_
    · unfold x6
      refine Keeps.trans ?_ (State.pmc_keeps _ _ _ _ _ _)
      refine Keeps.trans ?_ (State.fadd_keeps _ _ _ _)
      exact k5
    intro k7
    clear_value x6
    extract_lets +onlyGivenNames x8
    refine KNext.cut (b := x8) ?_ ?_
    · unfold x8
      refine Keeps.foldl _ _ (fun s9 y10 => ?_) ?_
      · refine Keeps.ite ?_ ?_
        · exact Keeps.refl _
        · refine Keeps.trans ?_ (State.sramLost_keeps _ _ _)
          exact Keeps.refl _
      · exact k7
    intro k11
    clear_value x8
    refine KNext.mk ?_
    refine Keeps.ite ?_ ?_
    · refine Keeps.ras ?_ _
      exact k11
    · exact k11

theorem State.flitThrough_keeps (s : State) (d e : Nat) : Keeps 0x8000 s (State.flitThrough s d e) := by
  unfold State.flitThrough
  refine Keeps.trans ?_ (State.bw_keeps _ _ _ _)
  refine Keeps.trans ?_ (State.bw_keeps _ _ _ _)
  exact Keeps.refl _

theorem execD2dFlitRx_keeps (d e : Nat) (rx : FlitRx) (s : State) : KNext 0x7FFFFFBFEF s (execD2dFlitRx d e rx s) := by
  unfold execD2dFlitRx
  refine KNext.ite ?_ ?_
  · refine KNext.mk ?_
    exact Keeps.refl _
  · extract_lets +onlyGivenNames x0
    extract_lets +onlyGivenNames x1
    extract_lets +onlyGivenNames x2
    split
    · rename_i z3
      refine KNext.mk ?_
      unfold x2
      extract_lets +onlyGivenNames x4
      refine Keeps.ite ?_ ?_
      · unfold x1
        refine Keeps.ras ?_ _
        exact Keeps.refl _
      · refine Keeps.trans ?_ (State.hwFence_keeps _ _ _ _)
        refine Keeps.trans ?_ (State.hwFence_keeps _ _ _ _)
        unfold x1
        refine Keeps.ras ?_ _
        exact Keeps.refl _
    · rename_i z5 z6
      refine KNext.ite ?_ ?_
      · refine KNext.mk ?_
        unfold x1
        refine Keeps.ras ?_ _
        refine Keeps.trans ?_ (State.flitThrough_keeps _ _ _)
        exact Keeps.refl _
      · refine KNext.ite ?_ ?_
        · refine KNext.mk ?_
          unfold x1
          refine Keeps.ras ?_ _
          refine Keeps.trans ?_ (State.pmc_keeps _ _ _ _ _ _)
          refine Keeps.trans ?_ (State.fadd_keeps _ _ _ _)
          refine Keeps.trans ?_ (State.flitThrough_keeps _ _ _)
          exact Keeps.refl _
        · refine KNext.mk ?_
          unfold x2
          extract_lets +onlyGivenNames x7
          refine Keeps.ite ?_ ?_
          · unfold x1
            refine Keeps.ras ?_ _
            refine Keeps.trans ?_ (State.noteUe_keeps _ _ _ _ _)
            exact Keeps.refl _
          · refine Keeps.trans ?_ (State.hwFence_keeps _ _ _ _)
            refine Keeps.trans ?_ (State.hwFence_keeps _ _ _ _)
            unfold x1
            refine Keeps.ras ?_ _
            refine Keeps.trans ?_ (State.noteUe_keeps _ _ _ _ _)
            exact Keeps.refl _

theorem State.startTest_keeps (s : State) (k d i : Nat) : Keeps 0x7FFFFFBFEF s (State.startTest s k d i) := by
  unfold State.startTest
  extract_lets +onlyGivenNames x0
  extract_lets +onlyGivenNames x1
  refine Keeps.cut (b := x1) ?_ ?_
  · unfold x1
    refine Keeps.trans ?_ (State.modRow_keeps _ _ _ _ _)
    exact Keeps.refl _
  intro k2
  clear_value x1
  refine Keeps.ite ?_ ?_
  · refine Keeps.trans ?_ (State.setUnit_keeps _ _ _ _ _ _ _)
    exact k2
  · exact k2

theorem State.reFence_keeps (s : State) (d : Nat) : Keeps 0x1262000000 s (State.reFence s d) := by
  unfold State.reFence
  extract_lets +onlyGivenNames x0
  extract_lets +onlyGivenNames x1
  extract_lets +onlyGivenNames x2
  refine Keeps.cut (b := x2) ?_ ?_
  · unfold x2
    refine Keeps.trans ?_ (State.fset_keeps _ _ _ _)
    refine Keeps.trans ?_ (State.fset_keeps _ _ _ _)
    exact Keeps.refl _
  intro k3
  clear_value x2
  extract_lets +onlyGivenNames x4
  refine Keeps.cut (b := x4) ?_ ?_
  · unfold x4
    refine Keeps.trans ?_ (State.fset_keeps _ _ _ _)
    refine Keeps.trans ?_ (State.fset_keeps _ _ _ _)
    exact k3
  intro k5
  clear_value x4
  extract_lets +onlyGivenNames x6
  refine Keeps.cut (b := x6) ?_ ?_
  · unfold x6
    refine Keeps.trans ?_ (State.fset_keeps _ _ _ _)
    exact k5
  intro k7
  clear_value x6
  extract_lets +onlyGivenNames x8
  refine Keeps.cut (b := x8) ?_ ?_
  · unfold x8
    refine Keeps.trans ?_ (State.fset_keeps _ _ _ _)
    refine Keeps.trans ?_ (State.fset_keeps _ _ _ _)
    exact k7
  intro k9
  clear_value x8
  refine Keeps.trans ?_ (State.countWickets_keeps _ _)
  exact k9

theorem State.dieStart_keeps (s : State) (d : Nat) : Keeps 0x32E202050A s (State.dieStart s d) := by
  unfold State.dieStart
  refine Keeps.trans ?_ (State.reFence_keeps _ _)
  refine Keeps.trans ?_ (State.dieBack_keeps _ _)
  refine Keeps.trans ?_ (State.reFence_keeps _ _)
  exact Keeps.refl _

theorem State.unLose_keeps (s : State) (d cause : Nat) : Keeps 0x2418061 s (State.unLose s d cause) := by
  unfold State.unLose
  extract_lets +onlyGivenNames x0
  extract_lets +onlyGivenNames x1
  refine Keeps.cut (b := x1) ?_ ?_
  · unfold x1
    refine Keeps.trans ?_ (State.modRow_keeps _ _ _ _ _)
    exact Keeps.refl _
  intro k2
  clear_value x1
  extract_lets +onlyGivenNames x3
  extract_lets +onlyGivenNames x4
  refine Keeps.cut (b := x4) ?_ ?_
  · unfold x4
    refine Keeps.trans ?_ (State.fset_keeps _ _ _ _)
    refine Keeps.trans ?_ (State.dieUnits_keeps _ _ _ _)
    refine Keeps.trans ?_ (State.noteUnit_keeps _ _ _ _ _ _ _)
    exact k2
  intro k5
  clear_value x4
  refine Keeps.trans ?_ (State.countWickets_keeps _ _)
  refine Keeps.trans ?_ (State.fputAt_keeps _ _ _ _ _)
  exact k5

theorem State.dieOutcome_keeps (s : State) (d code : Nat) : Keeps 0x32EA47856B s (State.dieOutcome s d code) := by
  unfold State.dieOutcome
  extract_lets +onlyGivenNames x0
  extract_lets +onlyGivenNames x1
  extract_lets +onlyGivenNames x2
  refine Keeps.cut (b := x2) ?_ ?_
  · unfold x2
    refine Keeps.trans ?_ (State.modRow_keeps _ _ _ _ _)
    refine Keeps.trans ?_ (State.logTest_keeps _ _ _ _ _)
    exact Keeps.refl _
  intro k3
  clear_value x2
  refine Keeps.ite ?_ ?_
  · refine Keeps.trans ?_ (State.dieStart_keeps _ _)
    refine Keeps.trans ?_ (State.unLose_keeps _ _ _)
    exact k3
  · exact k3

theorem State.endTest_keeps (s : State) (k d i code : Nat) : Keeps 0x7FFFFFBFEF s (State.endTest s k d i code) := by
  unfold State.endTest
  extract_lets +onlyGivenNames x0
  extract_lets +onlyGivenNames x1
  refine Keeps.cut (b := x1) ?_ ?_
  · unfold x1
    refine Keeps.trans ?_ (State.modRow_keeps _ _ _ _ _)
    exact Keeps.refl _
  intro k2
  clear_value x1
  extract_lets +onlyGivenNames x3
  refine Keeps.cut (b := x3) ?_ ?_
  · unfold x3
    refine Keeps.ite ?_ ?_
    · refine Keeps.trans ?_ (State.dieOutcome_keeps _ _ _)
      exact k2
    · refine Keeps.trans ?_ (State.testOutcome_keeps _ _ _ _ _ _)
      exact k2
  intro k4
  clear_value x3
  split
  · rename_i z5 z6 z7
    refine Keeps.trans ?_ (State.completeKey_keeps _ _ _ _ _)
    exact k4
  · rename_i z8 z9
    exact k4

theorem State.adoptImage_keeps (s : State) (p : Nat) (r : Replica) (c : Chunk) (pages : List Page) : Keeps 0xC000038A s (State.adoptImage s p r c pages) := by
  unfold State.adoptImage
  extract_lets +onlyGivenNames x0
  split
  · rename_i z1 z2
    unfold x0
    refine Keeps.trans ?_ (State.giveSegs_keeps _ _ _)
    exact Keeps.refl _
  · rename_i z3 z4 z5
    extract_lets +onlyGivenNames x6
    extract_lets +onlyGivenNames x7
    unfold x7
    split
    · rename_i z8 z9
      unfold x0
      refine Keeps.trans ?_ (State.giveSegs_keeps _ _ _)
      exact Keeps.refl _
    · rename_i z10 z11 z12
      refine Keeps.ite ?_ ?_
      · unfold x0
        refine Keeps.trans ?_ (State.giveSegs_keeps _ _ _)
        exact Keeps.refl _
      · split
        · rename_i z13 z14 z15 z16
          refine Keeps.cut (b := z15) ?_ ?_
          · refine KSnd.eq z16 ?_
            refine KSnd.trans ?_ (State.pickId_keeps _ _ _)
            exact Keeps.refl _
          intro k17
          split
          · rename_i z18 z19 z20 z21
            refine Keeps.cut (b := z20) ?_ ?_
            · refine KSnd.eq z21 ?_
              refine KSnd.foldl _ _ (fun s22 y23 => ?_) _ ?_
              · split
                · rename_i z24 z25 z26 z27
                  refine KSnd.cut (b := z26) ?_ ?_
                  · refine KSnd.eq z27 ?_
                    refine KSnd.trans ?_ (State.pickId_keeps _ _ _)
                    exact Keeps.refl _
                  intro k28
                  extract_lets +onlyGivenNames x29
                  extract_lets +onlyGivenNames x30
                  refine KSnd.mk ?_
                  refine Keeps.trans ?_ (State.modPfx_keeps _ _ _)
                  exact k28
              · refine KSnd.mk ?_
                exact k17
            intro k31
            extract_lets +onlyGivenNames x32
            extract_lets +onlyGivenNames x33
            refine Keeps.cut (b := x33) ?_ ?_
            · unfold x33
              refine Keeps.trans ?_ (State.addHold_keeps _ _ _)
              refine Keeps.trans ?_ (State.modPfx_keeps _ _ _)
              exact k31
            intro k34
            clear_value x33
            extract_lets +onlyGivenNames x35
            refine Keeps.cut (b := x35) ?_ ?_
            · unfold x35
              refine KSnd.get ?_
              refine KSnd.trans ?_ (State.addReplica_keeps _ _ _)
              exact k34
            intro k36
            clear_value x35
            refine Keeps.trans ?_ (State.dropHold_keeps _ _ _)
            refine Keeps.trans ?_ (State.treeInsert_keeps _ _ _ _)
            exact k36

theorem State.rerun_keeps (s : State) (x : Loss) (e : LedgerEnt) : Keeps 0x42640ABE9 s (State.rerun s x e) := by
  unfold State.rerun
  split
  · rename_i z0 z1
    refine Keeps.trans ?_ (State.loseEntry_keeps _ _ _ _)
    exact Keeps.refl _
  · rename_i z2 z3 z4
    split
    · rename_i z5 z6
      refine Keeps.trans ?_ (State.loseEntry_keeps _ _ _ _)
      exact Keeps.refl _
    · rename_i z7 z8 z9
      extract_lets +onlyGivenNames x10
      extract_lets +onlyGivenNames x11
      refine Keeps.ite ?_ ?_
      · refine Keeps.trans ?_ (State.modCsm_keeps _ _ _)
        exact Keeps.refl _
      · refine Keeps.trans ?_ (State.failHeld_keeps _ _ _ _)
        exact Keeps.refl _

theorem State.adoptSeqs_keeps (s : State) (x : Loss) : KSnd 0xC000038A s (State.adoptSeqs s x) := by
  unfold State.adoptSeqs
  extract_lets +onlyGivenNames x0
  refine KSnd.foldl _ _ (fun s1 y2 => ?_) _ ?_
  · split
    · rename_i z3 z4 z5 z6 z7
      refine KSnd.cut (b := z6) ?_ ?_
      · refine KSnd2.eq z7 ?_
        refine KSnd2.trans ?_ (State.restoreSeqs_keeps _ _ _ _ _)
        exact Keeps.refl _
      intro k8
      refine KSnd.mk ?_
      exact k8
  · refine KSnd.mk ?_
    exact Keeps.refl _

theorem execAdoption_keeps (d t : Nat) (s : State) : KNext 0x4E661ABFB s (execAdoption d t s) := by
  unfold execAdoption
  extract_lets +onlyGivenNames x0
  refine KNext.cut (b := x0) ?_ ?_
  · unfold x0
    refine Keeps.trans ?_ (State.advanceTo_keeps _ _)
    exact Keeps.refl _
  intro k1
  clear_value x0
  extract_lets +onlyGivenNames x2
  split
  · rename_i z3 z4
    refine KNext.mk ?_
    exact k1
  · rename_i z5 z6 z7
    refine KNext.ite ?_ ?_
    · refine KNext.mk ?_
      exact k1
    · extract_lets +onlyGivenNames x8
      split
      · rename_i z9 z10 z11 z12
        refine KNext.cut (b := z11) ?_ ?_
        · refine KSnd.eq z12 ?_
          refine KSnd.trans ?_ (State.adoptSeqs_keeps _ _)
          exact k1
        intro k13
        extract_lets +onlyGivenNames x14
        extract_lets +onlyGivenNames x15
        refine KNext.cut (b := x15) ?_ ?_
        · unfold x15
          refine Keeps.foldl _ _ (fun s16 y17 => ?_) ?_
          · refine Keeps.foldl _ _ (fun s18 y19 => ?_) ?_
            · refine Keeps.trans ?_ (State.adoptImage_keeps _ _ _ _ _)
              exact Keeps.refl _
            · exact Keeps.refl _
          · exact k13
        intro k20
        clear_value x15
        extract_lets +onlyGivenNames x21
        extract_lets +onlyGivenNames x22
        refine KNext.cut (b := x22) ?_ ?_
        · unfold x22
          refine Keeps.trans ?_ (State.fadd_keeps _ _ _ _)
          exact k20
        intro k23
        clear_value x22
        extract_lets +onlyGivenNames x24
        extract_lets +onlyGivenNames x25
        refine KNext.cut (b := x25) ?_ ?_
        · unfold x25
          refine Keeps.ras ?_ _
          exact k23
        intro k26
        clear_value x25
        extract_lets +onlyGivenNames x27
        refine KNext.cut (b := x27) ?_ ?_
        · unfold x27
          refine Keeps.foldl _ _ (fun s28 y29 => ?_) ?_
          · refine Keeps.trans ?_ (State.rerun_keeps _ _ _)
            exact Keeps.refl _
          · exact k26
        intro k30
        clear_value x27
        extract_lets +onlyGivenNames x31
        refine KNext.cut (b := x31) ?_ ?_
        · unfold x31
          refine Keeps.trans ?_ (State.partEvent_keeps _ _ _ _ _)
          refine Keeps.trans ?_ (State.evtPkg_keeps _ _)
          exact k30
        intro k32
        clear_value x31
        extract_lets +onlyGivenNames x33
        refine KNext.cut (b := x33) ?_ ?_
        · unfold x33
          split
          · rename_i z34 z35 z36
            refine Keeps.trans ?_ (State.completeKey_keeps _ _ _ _ _)
            exact k32
          · rename_i z37 z38
            exact k32
        intro k39
        clear_value x33
        refine KNext.mk ?_
        refine Keeps.ite ?_ ?_
        · exact k39
        · refine Keeps.trans ?_ (State.fset_keeps _ _ _ _)
          exact k39

theorem execDieFence_keeps (d cause t : Nat) (s : State) : KNext 0x7FFFFFBFFF s (execDieFence d cause t s) := by
  unfold execDieFence
  extract_lets +onlyGivenNames x0
  refine KNext.cut (b := x0) ?_ ?_
  · unfold x0
    refine Keeps.trans ?_ (State.advanceTo_keeps _ _)
    exact Keeps.refl _
  intro k1
  clear_value x0
  refine KNext.ite ?_ ?_
  · refine KNext.mk ?_
    exact k1
  · refine KNext.mk ?_
    refine Keeps.trans ?_ (State.loseDie_keeps _ _ _)
    exact k1

theorem State.copyShadow_keeps (s : State) (src d : Nat) : Keeps 0x7FFFF00000 s (State.copyShadow s src d) := by
  unfold State.copyShadow
  refine Keeps.foldl _ _ (fun s0 y1 => ?_) ?_
  · refine Keeps.ite ?_ ?_
    · exact Keeps.refl _
    · refine Keeps.foldl _ _ (fun s2 y3 => ?_) ?_
      · refine Keeps.foldl _ _ (fun s4 y5 => ?_) ?_
        · refine Keeps.trans ?_ (State.fset_keeps _ _ _ _)
          exact Keeps.refl _
        · exact Keeps.refl _
      · exact Keeps.refl _
  · exact Keeps.refl _

theorem State.rehomeAll_keeps (s : State) (p : Nat) (key : Option (Nat × Nat × Nat)) (w0 : List Loss) : Keeps 0x42641ABE9 s (State.rehomeAll s p key w0) := by
  induction w0 generalizing s p key with
  | nil =>
    unfold State.rehomeAll
    exact Keeps.refl _
  | cons hd0 tl0 ih =>
    unfold State.rehomeAll
    refine Keeps.ite ?_ ?_
    · refine Keeps.tr ?_ (ih _ _ _)
      exact Keeps.refl _
    · split
      · rename_i z0 z1 z2 z3
        refine Keeps.cut (b := z2) ?_ ?_
        · refine KSnd.eq z3 ?_
          refine KSnd.trans ?_ (State.rehomeLoss_keeps _ _)
          exact Keeps.refl _
        intro k4
        extract_lets +onlyGivenNames x5
        refine Keeps.tr ?_ (ih _ _ _)
        refine Keeps.ras ?_ _
        exact k4

theorem State.assignDie_keeps (s : State) (q : Desc) (d : Nat) : Keeps 0x7FFFFBBFEB s (State.assignDie s q d) := by
  unfold State.assignDie
  extract_lets +onlyGivenNames x0
  extract_lets +onlyGivenNames x1
  extract_lets +onlyGivenNames x2
  refine Keeps.cut (b := x2) ?_ ?_
  · unfold x2
    refine Keeps.ite ?_ ?_
    · refine Keeps.trans ?_ (State.powerTo_keeps _ _ _ _)
      refine Keeps.trans ?_ (State.railsOn_keeps _ _)
      refine Keeps.trans ?_ (State.railsBack_keeps _ _ _)
      exact Keeps.refl _
    · exact Keeps.refl _
  intro k3
  clear_value x2
  extract_lets +onlyGivenNames x4
  refine Keeps.cut (b := x4) ?_ ?_
  · unfold x4
    refine Keeps.trans ?_ (State.fset_keeps _ _ _ _)
    exact k3
  intro k5
  clear_value x4
  extract_lets +onlyGivenNames x6
  refine Keeps.cut (b := x6) ?_ ?_
  · unfold x6
    refine Keeps.trans ?_ (State.forgetDie_keeps _ _)
    exact k5
  intro k7
  clear_value x6
  extract_lets +onlyGivenNames x8
  refine Keeps.cut (b := x8) ?_ ?_
  · unfold x8
    split
    · rename_i z9 z10 z11
      refine Keeps.trans ?_ (State.copyShadow_keeps _ _ _)
      exact k7
    · rename_i z12 z13
      exact k7
  intro k14
  clear_value x8
  extract_lets +onlyGivenNames x15
  refine Keeps.cut (b := x15) ?_ ?_
  · unfold x15
    refine Keeps.ite ?_ ?_
    · refine Keeps.trans ?_ (State.reclaimChans_keeps _ _)
      refine Keeps.trans ?_ (State.dieStart_keeps _ _)
      refine Keeps.trans ?_ (State.unLose_keeps _ _ _)
      exact k3
    · refine Keeps.trans ?_ (State.dieStart_keeps _ _)
      exact k14
  intro k16
  clear_value x15
  extract_lets +onlyGivenNames x17
  refine Keeps.cut (b := x17) ?_ ?_
  · unfold x17
    refine Keeps.trans ?_ (State.assignLedgers_keeps _ _)
    exact k16
  intro k18
  clear_value x17
  extract_lets +onlyGivenNames x19
  refine Keeps.cut (b := x19) ?_ ?_
  · unfold x19
    refine Keeps.trans ?_ (State.refreshPort_keeps _ _)
    refine Keeps.trans ?_ (State.setLink_keeps _ _ _)
    exact k18
  intro k20
  clear_value x19
  refine Keeps.ite ?_ ?_
  · refine Keeps.trans ?_ (State.fset_keeps _ _ _ _)
    refine Keeps.trans ?_ (State.rehomeAll_keeps _ _ _ _)
    exact k20
  · refine Keeps.trans ?_ (State.complete_keeps _ _ _ _ _)
    exact k20

theorem execDieAssign_keeps (q : Desc) (die : Nat) (s : State) : KNext 0x7FFFFBBFEB s (execDieAssign q die s) := by
  unfold execDieAssign
  refine KNext.mk ?_
  refine Keeps.tr ?_ (runDesc_keeps _ _ _ _ _ (fun v0 => ?_))
  · exact Keeps.refl _
  · extract_lets +onlyGivenNames x1
    refine Keeps.ite ?_ ?_
    · refine Keeps.trans ?_ (State.fail_keeps _ _ _)
      exact Keeps.refl _
    · split
      · rename_i z2 z3
        refine Keeps.ite ?_ ?_
        · refine Keeps.trans ?_ (State.fail_keeps _ _ _)
          exact Keeps.refl _
        · refine Keeps.ite ?_ ?_
          · refine Keeps.trans ?_ (State.fail_keeps _ _ _)
            exact Keeps.refl _
          · refine Keeps.trans ?_ (State.assignDie_keeps _ _ _)
            exact Keeps.refl _
      · rename_i z4 z5 z6
        refine Keeps.ite ?_ ?_
        · refine Keeps.trans ?_ (State.fail_keeps _ _ _)
          exact Keeps.refl _
        · refine Keeps.ite ?_ ?_
          · refine Keeps.trans ?_ (State.fail_keeps _ _ _)
            exact Keeps.refl _
          · refine Keeps.ite ?_ ?_
            · refine Keeps.trans ?_ (State.fail_keeps _ _ _)
              exact Keeps.refl _
            · refine Keeps.trans ?_ (State.assignDie_keeps _ _ _)
              exact Keeps.refl _

theorem execUnitTest_keeps (q : Desc) (kind die index : Nat) (s : State) : KNext 0x7FFFFFBFEF s (execUnitTest q kind die index s) := by
  unfold execUnitTest
  refine KNext.mk ?_
  refine Keeps.tr ?_ (runDesc_keeps _ _ _ _ _ (fun v0 => ?_))
  · exact Keeps.refl _
  · refine Keeps.ite ?_ ?_
    · refine Keeps.trans ?_ (State.fail_keeps _ _ _)
      exact Keeps.refl _
    · refine Keeps.ite ?_ ?_
      · refine Keeps.trans ?_ (State.fail_keeps _ _ _)
        exact Keeps.refl _
      · refine Keeps.ite ?_ ?_
        · refine Keeps.trans ?_ (State.fail_keeps _ _ _)
          exact Keeps.refl _
        · refine Keeps.trans ?_ (State.modRow_keeps _ _ _ _ _)
          refine Keeps.trans ?_ (State.startTest_keeps _ _ _ _)
          exact Keeps.refl _

theorem execUnitFence_keeps (q : Desc) (kind die index : Nat) (s : State) : KNext 0x7FFFFFBFEF s (execUnitFence q kind die index s) := by
  unfold execUnitFence
  refine KNext.mk ?_
  refine Keeps.tr ?_ (runDesc_keeps _ _ _ _ _ (fun v0 => ?_))
  · exact Keeps.refl _
  · refine Keeps.ite ?_ ?_
    · refine Keeps.trans ?_ (State.fail_keeps _ _ _)
      exact Keeps.refl _
    · refine Keeps.ite ?_ ?_
      · refine Keeps.trans ?_ (State.fail_keeps _ _ _)
        exact Keeps.refl _
      · refine Keeps.trans ?_ (State.report_keeps _ _ _ _ _ _)
        refine Keeps.trans ?_ (State.complete_keeps _ _ _ _ _)
        exact Keeps.refl _

theorem execLossList_keeps (q : Desc) (dest room : Nat) (s : State) : KNext 0x4408069 s (execLossList q dest room s) := by
  unfold execLossList
  refine KNext.mk ?_
  refine Keeps.tr ?_ (runDesc_keeps _ _ _ _ _ (fun v0 => ?_))
  · exact Keeps.refl _
  · refine Keeps.ite ?_ ?_
    · refine Keeps.trans ?_ (State.fail_keeps _ _ _)
      exact Keeps.refl _
    · extract_lets +onlyGivenNames x1
      extract_lets +onlyGivenNames x2
      extract_lets +onlyGivenNames x3
      refine Keeps.cut (b := x3) ?_ ?_
      · unfold x3
        refine Keeps.ite ?_ ?_
        · exact Keeps.refl _
        · refine Keeps.trans ?_ (State.descWrite_keeps _ _ _ _)
          exact Keeps.refl _
      intro k4
      clear_value x3
      refine Keeps.trans ?_ (State.complete_keeps _ _ _ _ _)
      exact k4

theorem State.unitCmd_keeps {m : Nat} (s : State) (go : Nat → Nat → Nat → State) (h : ∀ k d i, Keeps m s (go k d i)) :
    Keeps m s (State.unitCmd s go) := by
  unfold State.unitCmd
  split
  exact Keeps.ite (Keeps.refl _) (h _ _ _)

theorem execRasUnitFenceCmd_keeps (via : Via) (s : State) : KNext 0x7FFFFFBFEF s (execRasUnitFenceCmd via s) := by
  unfold execRasUnitFenceCmd
  refine KNext.mk ?_
  refine Keeps.tr ?_ (regWrite_keeps _ _ _ _ (fun v0 => ?_))
  · exact Keeps.refl _
  · refine Keeps.tr ?_ (State.unitCmd_keeps _ _ (fun v1 v2 v3 => ?_))
    · exact Keeps.refl _
    · refine Keeps.trans ?_ (State.report_keeps _ _ _ _ _ _)
      exact Keeps.refl _

theorem execRasUnitTestCmd_keeps (via : Via) (s : State) : KNext 0x7FFFFFBFEF s (execRasUnitTestCmd via s) := by
  unfold execRasUnitTestCmd
  refine KNext.mk ?_
  refine Keeps.tr ?_ (regWrite_keeps _ _ _ _ (fun v0 => ?_))
  · exact Keeps.refl _
  · refine Keeps.tr ?_ (State.unitCmd_keeps _ _ (fun v1 v2 v3 => ?_))
    · exact Keeps.refl _
    · refine Keeps.trans ?_ (State.startTest_keeps _ _ _ _)
      exact Keeps.refl _

theorem State.readRow0_keeps (s : State) : KSnd 0x2000000 s (State.readRow0 s) := by
  unfold State.readRow0
  split
  · rename_i z0 z1 z2 z3 z4
    extract_lets +onlyGivenNames x5
    extract_lets +onlyGivenNames x6
    extract_lets +onlyGivenNames x7
    refine KSnd.cut (b := x7) ?_ ?_
    · unfold x7
      refine Keeps.foldl _ _ (fun s8 y9 => ?_) ?_
      · refine Keeps.trans ?_ (State.fset_keeps _ _ _ _)
        exact Keeps.refl _
      · exact Keeps.refl _
    intro k10
    clear_value x7
    refine KSnd.mk ?_
    refine Keeps.trans ?_ (State.fset_keeps _ _ _ _)
    exact k10

theorem execRasUnitRow0Read_keeps (via : Via) (s : State) : KNext 0x2400041 s (execRasUnitRow0Read via s) := by
  unfold execRasUnitRow0Read
  refine KNext.mk ?_
  refine Keeps.tr ?_ (regRead_keeps _ _ _ _ (fun v0 => ?_))
  · exact Keeps.refl _
  · refine KSnd.trans ?_ (State.readRow0_keeps _)
    exact Keeps.refl _

theorem State.mctp_keeps (s : State) (status : Nat) (b : List Byte) : Keeps 0x1 s (State.mctp s status b) := by
  induction b generalizing s status with
  | nil =>
    unfold State.mctp
    refine Keeps.trans ?_ (State.emit_keeps _ _)
    exact Keeps.refl _
  | cons hd0 tl0 ih =>
    unfold State.mctp
    refine Keeps.trans ?_ (State.emit_keeps _ _)
    exact Keeps.refl _

theorem execGetUnits_keeps (die first count : Nat) (s : State) : KNext 0x1 s (execGetUnits die first count s) := by
  unfold execGetUnits
  refine KNext.ite ?_ ?_
  · refine KNext.mk ?_
    refine Keeps.trans ?_ (State.mctp_keeps _ _ _)
    exact Keeps.refl _
  · refine KNext.mk ?_
    refine Keeps.trans ?_ (State.mctp_keeps _ _ _)
    exact Keeps.refl _

theorem execReportUnit_keeps (kind die index report t : Nat) (s : State) : KNext 0x7FFFFFBFFF s (execReportUnit kind die index report t s) := by
  unfold execReportUnit
  extract_lets +onlyGivenNames x0
  refine KNext.cut (b := x0) ?_ ?_
  · unfold x0
    refine Keeps.trans ?_ (State.advanceTo_keeps _ _)
    exact Keeps.refl _
  intro k1
  clear_value x0
  refine KNext.ite ?_ ?_
  · refine KNext.mk ?_
    refine Keeps.trans ?_ (State.mctp_keeps _ _ _)
    exact k1
  · extract_lets +onlyGivenNames x2
    refine KNext.ite ?_ ?_
    · refine KNext.mk ?_
      refine Keeps.trans ?_ (State.mctp_keeps _ _ _)
      refine Keeps.trans ?_ (State.modRow_keeps _ _ _ _ _)
      exact k1
    · extract_lets +onlyGivenNames x3
      refine KNext.cut (b := x3) ?_ ?_
      · unfold x3
        refine Keeps.trans ?_ (State.report_keeps _ _ _ _ _ _)
        refine Keeps.trans ?_ (State.modRow_keeps _ _ _ _ _)
        exact k1
      intro k4
      clear_value x3
      refine KNext.mk ?_
      refine Keeps.trans ?_ (State.mctp_keeps _ _ _)
      exact k4

theorem execGetAttest_keeps (part : Nat) (certs : Bool) (nonce : List Byte) (offset : Nat) (s : State) : KNext 0x804003 s (execGetAttest part certs nonce offset s) := by
  unfold execGetAttest
  refine KNext.ite ?_ ?_
  · refine KNext.mk ?_
    refine Keeps.trans ?_ (State.mctp_keeps _ _ _)
    exact Keeps.refl _
  · split
    · rename_i z0 z1 z2 z3
      refine KNext.cut (b := z2) ?_ ?_
      · refine KSnd.eq z3 ?_
        split
        · rename_i z4 z5 z6
          refine KSnd.mk ?_
          exact Keeps.refl _
        · rename_i z7 z8
          split
          · rename_i z9 z10 z11 z12
            refine KSnd.cut (b := z11) ?_ ?_
            · refine KSnd.eq z12 ?_
              refine KSnd.trans ?_ (State.report449_keeps _ _ _)
              exact Keeps.refl _
            intro k13
            extract_lets +onlyGivenNames x14
            refine KSnd.mk ?_
            refine Keeps.trans ?_ (State.fadd_keeps _ _ _ _)
            refine Keeps.sec ?_ _
            exact k13
      intro k15
      extract_lets +onlyGivenNames x16
      refine KNext.cut (b := x16) ?_ ?_
      · unfold x16
        refine Keeps.trans ?_ (State.mctp_keeps _ _ _)
        exact k15
      intro k17
      clear_value x16
      refine KNext.mk ?_
      refine Keeps.ite ?_ ?_
      · refine Keeps.sec ?_ _
        exact k17
      · exact k17

theorem execGetRas_keeps (die : Nat) (s : State) : KNext 0x1 s (execGetRas die s) := by
  unfold execGetRas
  refine KNext.ite ?_ ?_
  · refine KNext.mk ?_
    refine Keeps.trans ?_ (State.mctp_keeps _ _ _)
    exact Keeps.refl _
  · refine KNext.mk ?_
    refine Keeps.trans ?_ (State.mctp_keeps _ _ _)
    exact Keeps.refl _

theorem execSetEndpointId_keeps (pcie : Bool) (eid : Nat) (s : State) : KNext 0x2000001 s (execSetEndpointId pcie eid s) := by
  unfold execSetEndpointId
  refine KNext.ite ?_ ?_
  · refine KNext.mk ?_
    refine Keeps.trans ?_ (State.emit_keeps _ _)
    exact Keeps.refl _
  · extract_lets +onlyGivenNames x0
    refine KNext.cut (b := x0) ?_ ?_
    · unfold x0
      refine Keeps.ite ?_ ?_
      · refine Keeps.trans ?_ (State.fset_keeps _ _ _ _)
        exact Keeps.refl _
      · refine Keeps.trans ?_ (State.fset_keeps _ _ _ _)
        exact Keeps.refl _
    intro k1
    clear_value x0
    refine KNext.mk ?_
    refine Keeps.trans ?_ (State.emit_keeps _ _)
    exact k1

theorem execPldmRequest_keeps (sensor : PldmSensor) (s : State) : KNext 0x3 s (execPldmRequest sensor s) := by
  unfold execPldmRequest
  extract_lets +onlyGivenNames x0
  extract_lets +onlyGivenNames x1
  split
  · rename_i z2 z3
    refine KNext.ite ?_ ?_
    · unfold x0
      refine KNext.mk ?_
      refine Keeps.trans ?_ (State.emit_keeps _ _)
      refine KSnd.get ?_
      refine KSnd.trans ?_ (State.sensed_keeps _ _)
      exact Keeps.refl _
    · unfold x1
      refine KNext.mk ?_
      refine Keeps.trans ?_ (State.emit_keeps _ _)
      exact Keeps.refl _
  · rename_i z4 z5
    refine KNext.ite ?_ ?_
    · unfold x0
      refine KNext.mk ?_
      refine Keeps.trans ?_ (State.emit_keeps _ _)
      refine KSnd.get ?_
      refine KSnd.trans ?_ (State.sensed_keeps _ _)
      exact Keeps.refl _
    · unfold x1
      refine KNext.mk ?_
      refine Keeps.trans ?_ (State.emit_keeps _ _)
      exact Keeps.refl _
  · rename_i z6 z7 z8
    refine KNext.ite ?_ ?_
    · unfold x0
      refine KNext.mk ?_
      refine Keeps.trans ?_ (State.emit_keeps _ _)
      refine KSnd.get ?_
      refine KSnd.trans ?_ (State.sensed_keeps _ _)
      exact Keeps.refl _
    · unfold x1
      refine KNext.mk ?_
      refine Keeps.trans ?_ (State.emit_keeps _ _)
      exact Keeps.refl _
  · rename_i z9
    unfold x0
    refine KNext.mk ?_
    refine Keeps.trans ?_ (State.emit_keeps _ _)
    refine KSnd.get ?_
    refine KSnd.trans ?_ (State.sensed_keeps _ _)
    exact Keeps.refl _
  · rename_i z10 z11
    refine KNext.ite ?_ ?_
    · unfold x0
      refine KNext.mk ?_
      refine Keeps.trans ?_ (State.emit_keeps _ _)
      exact Keeps.refl _
    · unfold x1
      refine KNext.mk ?_
      refine Keeps.trans ?_ (State.emit_keeps _ _)
      exact Keeps.refl _

end Sys2Proof.Machine
end

