-- ==== Sys2Proof/Laws/KeepsTesting.lean ====
section
/-!
SUPPORT. Sys2Proof/Laws/KeepsTesting.lean: each operation of Machine/Testing.lean keeps what `Keeps` says, with the parts of the state it may
touch.
-/
namespace Sys2Proof.Machine
set_option Elab.async false

theorem State.say_keeps (s : State) (l : List String) : Keeps 0x1 s (State.say s l) := by
  unfold State.say
  refine Keeps.trans ?_ (State.emit_keeps _ _)
  exact Keeps.refl _

theorem State.okLine_keeps (s : State) : Keeps 0x1 s (State.okLine s) := by
  unfold State.okLine
  refine Keeps.trans ?_ (State.say_keeps _ _)
  refine Keeps.trans ?_ (State.say_keeps _ _)
  exact Keeps.refl _

theorem State.errLine_keeps (s : State) (w : String) : Keeps 0x1 s (State.errLine s w) := by
  unfold State.errLine
  refine Keeps.trans ?_ (State.say_keeps _ _)
  refine Keeps.trans ?_ (State.say_keeps _ _)
  exact Keeps.refl _

theorem State.stLine_keeps (s : State) (k d i code : Nat) : Keeps 0x1 s (State.stLine s k d i code) := by
  unfold State.stLine
  refine Keeps.trans ?_ (State.say_keeps _ _)
  exact Keeps.refl _

theorem State.unitLine_keeps (s : State) (k d i : Nat) : Keeps 0x1 s (State.unitLine s k d i) := by
  unfold State.unitLine
  extract_lets +onlyGivenNames x0
  refine Keeps.trans ?_ (State.say_keeps _ _)
  exact Keeps.refl _

theorem State.countTest_keeps (s : State) (code : Nat) : Keeps 0x8000021 s (State.countTest s code) := by
  unfold State.countTest
  extract_lets +onlyGivenNames x0
  refine Keeps.cut (b := x0) ?_ ?_
  · unfold x0
    refine Keeps.trans ?_ (State.fadd_keeps _ _ _ _)
    exact Keeps.refl _
  intro k1
  clear_value x0
  refine Keeps.ite ?_ ?_
  · exact k1
  · refine Keeps.trans ?_ (State.evtPkg_keeps _ _)
    refine Keeps.trans ?_ (State.fadd_keeps _ _ _ _)
    exact k1

theorem State.setRun_keeps (s : State) (r : Option SvcRun) : Keeps 0x40000 s (State.setRun s r) := by
  unfold State.setRun
  refine Keeps.svc ?_ _
  exact Keeps.refl _

theorem State.staticBit_keeps (s : State) : Keeps 0x8000000 s (State.staticBit s) := by
  unfold State.staticBit
  refine Keeps.trans ?_ (State.fput_keeps _ _ _ _)
  exact Keeps.refl _

theorem State.supplies_keeps (s : State) (d : Nat) : KSnd 0x8040023 s (State.supplies s d) := by
  unfold State.supplies
  split
  · rename_i z0 z1 z2 z3
    refine KSnd.cut (b := z2) ?_ ?_
    · refine KSnd.eq z3 ?_
      refine KSnd.foldl _ _ (fun s4 y5 => ?_) _ ?_
      · split
        · rename_i z6 z7 z8 z9
          refine KSnd.cut (b := z8) ?_ ?_
          · refine KSnd.eq z9 ?_
            refine KSnd.trans ?_ (State.sensed_keeps _ _)
            exact Keeps.refl _
          intro k10
          extract_lets +onlyGivenNames x11
          refine KSnd.ite ?_ ?_
          · refine KSnd.mk ?_
            exact k10
          · refine KSnd.mk ?_
            refine Keeps.trans ?_ (State.say_keeps _ _)
            exact k10
      · refine KSnd.mk ?_
        exact Keeps.refl _
    intro k12
    refine KSnd.mk ?_
    refine Keeps.trans ?_ (State.countTest_keeps _ _)
    refine Keeps.trans ?_ (State.logTest_keeps _ _ _ _ _)
    exact k12

theorem State.nextOfDie_keeps (s : State) (d first : Nat) (bad : List (Nat × Nat)) (w0 : List (Nat × Nat)) : Keeps 0x7FFFFFBFEF s (State.nextOfDie s d first bad w0) := by
  induction w0 generalizing s d first bad with
  | nil =>
    unfold State.nextOfDie
    extract_lets +onlyGivenNames x0
    refine Keeps.cut (b := x0) ?_ ?_
    · unfold x0
      refine Keeps.trans ?_ (State.say_keeps _ _)
      refine Keeps.trans ?_ (State.setRun_keeps _ _)
      exact Keeps.refl _
    intro k1
    clear_value x0
    refine Keeps.ite ?_ ?_
    · refine Keeps.trans ?_ (State.okLine_keeps _)
      exact k1
    · refine Keeps.trans ?_ (State.errLine_keeps _ _)
      exact k1
  | cons hd0 tl0 ih =>
    unfold State.nextOfDie
    refine Keeps.ite ?_ ?_
    · extract_lets +onlyGivenNames x0
      refine Keeps.cut (b := x0) ?_ ?_
      · unfold x0
        refine Keeps.trans ?_ (State.countTest_keeps _ _)
        refine Keeps.trans ?_ (State.logTest_keeps _ _ _ _ _)
        refine Keeps.trans ?_ (State.stLine_keeps _ _ _ _ _)
        exact Keeps.refl _
      intro k1
      clear_value x0
      refine Keeps.tr ?_ (ih _ _ _ _)
      exact k1
    · refine Keeps.trans ?_ (State.setRun_keeps _ _)
      refine Keeps.trans ?_ (State.startTest_keeps _ _ _ _)
      exact Keeps.refl _

theorem State.laneLines_keeps (s : State) (k d i : Nat) (l : List (Nat × Nat × Nat)) : Keeps 0x1 s (State.laneLines s k d i l) := by
  unfold State.laneLines
  refine Keeps.foldl _ _ (fun s0 y1 => ?_) ?_
  · refine Keeps.trans ?_ (State.say_keeps _ _)
    exact Keeps.refl _
  · exact Keeps.refl _

theorem State.verdict_keeps (s : State) (code : Nat) : Keeps 0x1 s (State.verdict s code) := by
  unfold State.verdict
  refine Keeps.ite ?_ ?_
  · refine Keeps.trans ?_ (State.okLine_keeps _)
    exact Keeps.refl _
  · refine Keeps.trans ?_ (State.errLine_keeps _ _)
    exact Keeps.refl _

theorem State.svcStep_keeps (s : State) (k d i code : Nat) : Keeps 0x7FFFFFBFEF s (State.svcStep s k d i code) := by
  unfold State.svcStep
  split
  · rename_i z0 z1
    exact Keeps.refl _
  · rename_i z2 z3 z4 z5 z6
    refine Keeps.ite ?_ ?_
    · refine Keeps.trans ?_ (State.verdict_keeps _ _)
      refine Keeps.trans ?_ (State.countTest_keeps _ _)
      refine Keeps.trans ?_ (State.stLine_keeps _ _ _ _ _)
      refine Keeps.trans ?_ (State.setRun_keeps _ _)
      exact Keeps.refl _
    · exact Keeps.refl _
  · rename_i z7 z8 z9 z10 z11
    refine Keeps.ite ?_ ?_
    · refine Keeps.trans ?_ (State.verdict_keeps _ _)
      refine Keeps.trans ?_ (State.unitLine_keeps _ _ _ _)
      refine Keeps.trans ?_ (State.setRun_keeps _ _)
      exact Keeps.refl _
    · exact Keeps.refl _
  · rename_i z12 z13 z14 z15 z16 z17 z18
    refine Keeps.ite ?_ ?_
    · extract_lets +onlyGivenNames x19
      refine Keeps.cut (b := x19) ?_ ?_
      · unfold x19
        refine Keeps.trans ?_ (State.countTest_keeps _ _)
        refine Keeps.trans ?_ (State.stLine_keeps _ _ _ _ _)
        refine Keeps.trans ?_ (State.laneLines_keeps _ _ _ _ _)
        refine Keeps.trans ?_ (State.setRun_keeps _ _)
        exact Keeps.refl _
      intro k20
      clear_value x19
      extract_lets +onlyGivenNames x21
      extract_lets +onlyGivenNames x22
      refine Keeps.cut (b := x22) ?_ ?_
      · unfold x22
        refine Keeps.ite ?_ ?_
        · refine Keeps.svc ?_ _
          exact k20
        · exact k20
      intro k23
      clear_value x22
      refine Keeps.trans ?_ (State.verdict_keeps _ _)
      refine Keeps.trans ?_ (State.staticBit_keeps _)
      exact k23
    · exact Keeps.refl _
  · rename_i z24 z25 z26 z27 z28 z29
    split
    · rename_i z30
      exact Keeps.refl _
    · rename_i z31 z32 z33
      refine Keeps.ite ?_ ?_
      · exact Keeps.refl _
      · extract_lets +onlyGivenNames x34
        refine Keeps.cut (b := x34) ?_ ?_
        · unfold x34
          refine Keeps.trans ?_ (State.countTest_keeps _ _)
          exact Keeps.refl _
        intro k35
        clear_value x34
        extract_lets +onlyGivenNames x36
        refine Keeps.cut (b := x36) ?_ ?_
        · unfold x36
          refine Keeps.ite ?_ ?_
          · exact k35
          · refine Keeps.trans ?_ (State.stLine_keeps _ _ _ _ _)
            exact k35
        intro k37
        clear_value x36
        extract_lets +onlyGivenNames x38
        extract_lets +onlyGivenNames x39
        refine Keeps.trans ?_ (State.nextOfDie_keeps _ _ _ _ _)
        exact k37

theorem execSelftestComplete_keeps (k d i code t : Nat) (s : State) : KNext 0x7FFFFFBFFF s (execSelftestComplete k d i code t s) := by
  unfold execSelftestComplete
  extract_lets +onlyGivenNames x0
  refine KNext.cut (b := x0) ?_ ?_
  · unfold x0
    refine Keeps.trans ?_ (State.advanceTo_keeps _ _)
    exact Keeps.refl _
  intro k1
  clear_value x0
  refine KNext.ite ?_ ?_
  · refine KNext.mk ?_
    exact k1
  · extract_lets +onlyGivenNames x2
    refine KNext.mk ?_
    refine Keeps.trans ?_ (State.svcStep_keeps _ _ _ _ _)
    refine Keeps.trans ?_ (State.endTest_keeps _ _ _ _ _)
    exact k1

theorem State.svcAbort_keeps (s : State) : Keeps 0x7FFFFFBFEF s (State.svcAbort s) := by
  unfold State.svcAbort
  extract_lets +onlyGivenNames x0
  split
  · rename_i z1 z2 z3 z4 z5
    unfold x0
    refine Keeps.trans ?_ (State.svcStep_keeps _ _ _ _ _)
    refine Keeps.trans ?_ (State.endTest_keeps _ _ _ _ _)
    exact Keeps.refl _
  · rename_i z6 z7 z8 z9 z10 z11 z12
    unfold x0
    refine Keeps.trans ?_ (State.svcStep_keeps _ _ _ _ _)
    refine Keeps.trans ?_ (State.endTest_keeps _ _ _ _ _)
    exact Keeps.refl _
  · rename_i z13 z14 z15 z16 z17 z18 z19 z20
    unfold x0
    refine Keeps.trans ?_ (State.svcStep_keeps _ _ _ _ _)
    refine Keeps.trans ?_ (State.endTest_keeps _ _ _ _ _)
    exact Keeps.refl _
  · rename_i z21 z22 z23 z24
    exact Keeps.refl _

theorem State.endPattern_keeps (s : State) (key : Nat) : Keeps 0x7FFFFFBFEF s (State.endPattern s key) := by
  unfold State.endPattern
  refine Keeps.ite ?_ ?_
  · exact Keeps.refl _
  · extract_lets +onlyGivenNames x0
    extract_lets +onlyGivenNames x1
    refine Keeps.cut (b := x1) ?_ ?_
    · unfold x1
      refine Keeps.svc ?_ _
      exact Keeps.refl _
    intro k2
    clear_value x1
    refine Keeps.trans ?_ (State.staticBit_keeps _)
    refine Keeps.trans ?_ (State.startTest_keeps _ _ _ _)
    exact k2

theorem State.endLoop_keeps (s : State) (x : Nat × Nat × Nat) : Keeps 0x7FFFFFBFEF s (State.endLoop s x) := by
  unfold State.endLoop
  extract_lets +onlyGivenNames x0
  extract_lets +onlyGivenNames x1
  refine Keeps.cut (b := x1) ?_ ?_
  · unfold x1
    refine Keeps.svc ?_ _
    exact Keeps.refl _
  intro k2
  clear_value x1
  refine Keeps.trans ?_ (State.staticBit_keeps _)
  refine Keeps.trans ?_ (State.startTest_keeps _ _ _ _)
  exact k2

theorem State.endStatics_keeps (s : State) : Keeps 0x7FFFFFBFEF s (State.endStatics s) := by
  unfold State.endStatics
  extract_lets +onlyGivenNames x0
  refine Keeps.cut (b := x0) ?_ ?_
  · unfold x0
    refine Keeps.foldl _ _ (fun s1 y2 => ?_) ?_
    · refine Keeps.trans ?_ (State.endPattern_keeps _ _)
      exact Keeps.refl _
    · exact Keeps.refl _
  intro k3
  clear_value x0
  extract_lets +onlyGivenNames x4
  refine Keeps.cut (b := x4) ?_ ?_
  · unfold x4
    refine Keeps.foldl _ _ (fun s5 y6 => ?_) ?_
    · refine Keeps.trans ?_ (State.endLoop_keeps _ _)
      exact Keeps.refl _
    · exact k3
  intro k7
  clear_value x4
  extract_lets +onlyGivenNames x8
  extract_lets +onlyGivenNames x9
  refine Keeps.cut (b := x9) ?_ ?_
  · unfold x9
    refine Keeps.pwr ?_ _
    exact k7
  intro k10
  clear_value x9
  refine Keeps.trans ?_ (State.staticBit_keeps _)
  refine Keeps.trans ?_ (State.fset_keeps _ _ _ _)
  exact k10

end Sys2Proof.Machine
end

