-- ==== Sys2Proof/Laws/KeepsTimekeeping.lean ====
section
/-!
SUPPORT. Sys2Proof/Laws/KeepsTimekeeping.lean: each operation of Machine/Timekeeping.lean keeps what `Keeps` says, with the parts of the state it may
touch.
-/
namespace Sys2Proof.Machine
set_option Elab.async false

theorem State.discTo_keeps (s : State) (st : Nat) : Keeps 0x200031 s (State.discTo s st) := by
  unfold State.discTo
  extract_lets +onlyGivenNames x0
  refine Keeps.cut (b := x0) ?_ ?_
  · unfold x0
    refine Keeps.trans ?_ (State.fset_keeps _ _ _ _)
    exact Keeps.refl _
  intro k1
  clear_value x0
  extract_lets +onlyGivenNames x2
  refine Keeps.ite ?_ ?_
  · unfold x2
    refine Keeps.clk ?_ _
    exact k1
  · refine Keeps.ite ?_ ?_
    · unfold x2
      refine Keeps.clk ?_ _
      exact k1
    · refine Keeps.ite ?_ ?_
      · refine Keeps.trans ?_ (State.evtPkg_keeps _ _)
        unfold x2
        refine Keeps.clk ?_ _
        refine Keeps.trans ?_ (State.fset_keeps _ _ _ _)
        exact k1
      · refine Keeps.ite ?_ ?_
        · refine Keeps.trans ?_ (State.evtPkg_keeps _ _)
          unfold x2
          refine Keeps.clk ?_ _
          exact k1
        · refine Keeps.trans ?_ (State.evtPkg_keeps _ _)
          unfold x2
          refine Keeps.clk ?_ _
          exact k1

theorem State.loseSource_keeps (s : State) : Keeps 0x10 s (State.loseSource s) := by
  unfold State.loseSource
  refine Keeps.clk ?_ _
  exact Keeps.refl _

theorem State.ptpLost_keeps (s : State) : Keeps 0x200031 s (State.ptpLost s) := by
  unfold State.ptpLost
  extract_lets +onlyGivenNames x0
  refine Keeps.ite ?_ ?_
  · refine Keeps.ite ?_ ?_
    · refine Keeps.trans ?_ (State.discTo_keeps _ _)
      exact Keeps.refl _
    · refine Keeps.trans ?_ (State.loseSource_keeps _)
      refine Keeps.trans ?_ (State.discTo_keeps _ _)
      exact Keeps.refl _
  · refine Keeps.ite ?_ ?_
    · refine Keeps.trans ?_ (State.loseSource_keeps _)
      refine Keeps.trans ?_ (State.discTo_keeps _ _)
      exact Keeps.refl _
    · exact Keeps.refl _

theorem execAnnounceTimeout_keeps (t : Nat) (s : State) : KNext 0x200031 s (execAnnounceTimeout t s) := by
  unfold execAnnounceTimeout
  extract_lets +onlyGivenNames x0
  refine KNext.cut (b := x0) ?_ ?_
  · unfold x0
    refine Keeps.trans ?_ (State.advanceTo_keeps _ _)
    exact Keeps.refl _
  intro k1
  clear_value x0
  refine KNext.ite ?_ ?_
  · refine KNext.mk ?_
    exact k1
  · refine KNext.mk ?_
    refine Keeps.trans ?_ (State.ptpLost_keeps _)
    exact k1

theorem execPtpAnnounceRx_keeps (d dom : Nat) (logInt : Int) (t : Nat) (s : State) : KNext 0x200031 s (execPtpAnnounceRx d dom logInt t s) := by
  unfold execPtpAnnounceRx
  extract_lets +onlyGivenNames x0
  refine KNext.cut (b := x0) ?_ ?_
  · unfold x0
    refine Keeps.trans ?_ (State.advanceTo_keeps _ _)
    exact Keeps.refl _
  intro k1
  clear_value x0
  extract_lets +onlyGivenNames x2
  extract_lets +onlyGivenNames x3
  refine KNext.ite ?_ ?_
  · refine KNext.mk ?_
    exact k1
  · extract_lets +onlyGivenNames x4
    extract_lets +onlyGivenNames x5
    refine KNext.cut (b := x5) ?_ ?_
    · unfold x5
      refine Keeps.clk ?_ _
      exact k1
    intro k6
    clear_value x5
    extract_lets +onlyGivenNames x7
    refine KNext.cut (b := x7) ?_ ?_
    · unfold x7
      refine Keeps.trans ?_ (State.fset_keeps _ _ _ _)
      exact k6
    intro k8
    clear_value x7
    refine KNext.mk ?_
    refine Keeps.ite ?_ ?_
    · exact k8
    · refine Keeps.trans ?_ (State.discTo_keeps _ _)
      exact k8

theorem execPtpSyncRx_keeps (d : Nat) (offset : Int) (t : Nat) (s : State) : KNext 0x200033 s (execPtpSyncRx d offset t s) := by
  unfold execPtpSyncRx
  extract_lets +onlyGivenNames x0
  refine KNext.cut (b := x0) ?_ ?_
  · unfold x0
    refine Keeps.trans ?_ (State.advanceTo_keeps _ _)
    exact Keeps.refl _
  intro k1
  clear_value x0
  extract_lets +onlyGivenNames x2
  refine KNext.ite ?_ ?_
  · refine KNext.mk ?_
    exact k1
  · extract_lets +onlyGivenNames x3
    split
    · rename_i z4 z5 z6 z7
      refine KNext.cut (b := z6) ?_ ?_
      · refine KSnd.eq z7 ?_
        refine KSnd.trans ?_ (State.draw_keeps _)
        exact k1
      intro k8
      extract_lets +onlyGivenNames x9
      extract_lets +onlyGivenNames x10
      extract_lets +onlyGivenNames x11
      refine KNext.cut (b := x11) ?_ ?_
      · unfold x11
        refine Keeps.trans ?_ (State.fset_keeps _ _ _ _)
        exact k8
      intro k12
      clear_value x11
      extract_lets +onlyGivenNames x13
      extract_lets +onlyGivenNames x14
      refine KNext.cut (b := x14) ?_ ?_
      · unfold x14
        refine Keeps.clk ?_ _
        exact k12
      intro k15
      clear_value x14
      refine KNext.mk ?_
      refine Keeps.ite ?_ ?_
      · refine Keeps.trans ?_ (State.discTo_keeps _ _)
        exact k15
      · exact k15

theorem execSrcChange_keeps (heard : List (Nat × Int)) (t : Nat) (s : State) : KNext 0x200031 s (execSrcChange heard t s) := by
  unfold execSrcChange
  extract_lets +onlyGivenNames x0
  refine KNext.cut (b := x0) ?_ ?_
  · unfold x0
    refine Keeps.trans ?_ (State.advanceTo_keeps _ _)
    exact Keeps.refl _
  intro k1
  clear_value x0
  refine KNext.ite ?_ ?_
  · refine KNext.mk ?_
    exact k1
  · split
    · rename_i z2 z3
      refine KNext.mk ?_
      exact k1
    · rename_i z4 z5 z6 z7
      extract_lets +onlyGivenNames x8
      extract_lets +onlyGivenNames x9
      refine KNext.cut (b := x9) ?_ ?_
      · unfold x9
        refine Keeps.clk ?_ _
        exact k1
      intro k10
      clear_value x9
      refine KNext.mk ?_
      refine Keeps.trans ?_ (State.discTo_keeps _ _)
      refine Keeps.trans ?_ (State.evtPkg_keeps _ _)
      refine Keeps.trans ?_ (State.fset_keeps _ _ _ _)
      exact k10

theorem execHoldLimitExpiry_keeps (t : Nat) (s : State) : KNext 0x200031 s (execHoldLimitExpiry t s) := by
  unfold execHoldLimitExpiry
  extract_lets +onlyGivenNames x0
  refine KNext.cut (b := x0) ?_ ?_
  · unfold x0
    refine Keeps.trans ?_ (State.advanceTo_keeps _ _)
    exact Keeps.refl _
  intro k1
  clear_value x0
  refine KNext.ite ?_ ?_
  · extract_lets +onlyGivenNames x2
    extract_lets +onlyGivenNames x3
    refine KNext.cut (b := x3) ?_ ?_
    · unfold x3
      refine Keeps.trans ?_ (State.discTo_keeps _ _)
      exact k1
    intro k4
    clear_value x3
    refine KNext.mk ?_
    refine Keeps.clk ?_ _
    exact k4
  · refine KNext.mk ?_
    exact k1

theorem execDiscEnClear_keeps (via : Via) (s : State) : KNext 0x600071 s (execDiscEnClear via s) := by
  unfold execDiscEnClear
  refine KNext.mk ?_
  refine Keeps.tr ?_ (regWrite_keeps _ _ _ _ (fun v0 => ?_))
  · exact Keeps.refl _
  · refine Keeps.trans ?_ (State.discTo_keeps _ _)
    refine Keeps.trans ?_ (State.fset_keeps _ _ _ _)
    exact Keeps.refl _

theorem execStepNow_keeps (via : Via) (s : State) : KNext 0x602071 s (execStepNow via s) := by
  unfold execStepNow
  refine KNext.mk ?_
  refine Keeps.tr ?_ (regWrite_keeps _ _ _ _ (fun v0 => ?_))
  · exact Keeps.refl _
  · refine Keeps.ite ?_ ?_
    · refine Keeps.trans ?_ (State.evtPkg_keeps _ _)
      exact Keeps.refl _
    · extract_lets +onlyGivenNames x1
      extract_lets +onlyGivenNames x2
      extract_lets +onlyGivenNames x3
      extract_lets +onlyGivenNames x4
      extract_lets +onlyGivenNames x5
      refine Keeps.cut (b := x5) ?_ ?_
      · unfold x5
        refine Keeps.clk ?_ _
        exact Keeps.refl _
      intro k6
      clear_value x5
      extract_lets +onlyGivenNames x7
      refine Keeps.cut (b := x7) ?_ ?_
      · unfold x7
        refine Keeps.trans ?_ (State.fset_keeps _ _ _ _)
        exact k6
      intro k8
      clear_value x7
      refine Keeps.foldl _ _ (fun s9 y10 => ?_) ?_
      · extract_lets +onlyGivenNames x11
        refine Keeps.ite ?_ ?_
        · exact Keeps.refl _
        · refine Keeps.trans ?_ (State.modLnk_keeps _ _ _)
          exact Keeps.refl _
      · exact k8

theorem execTimeRefclkLoss_keeps (t : Nat) (s : State) : KNext 0x200010 s (execTimeRefclkLoss t s) := by
  unfold execTimeRefclkLoss
  extract_lets +onlyGivenNames x0
  refine KNext.cut (b := x0) ?_ ?_
  · unfold x0
    refine Keeps.trans ?_ (State.advanceTo_keeps _ _)
    exact Keeps.refl _
  intro k1
  clear_value x0
  refine KNext.mk ?_
  refine Keeps.clk ?_ _
  exact k1

theorem execTimeRefclkReturn_keeps (t : Nat) (s : State) : KNext 0x200010 s (execTimeRefclkReturn t s) := by
  unfold execTimeRefclkReturn
  extract_lets +onlyGivenNames x0
  refine KNext.cut (b := x0) ?_ ?_
  · unfold x0
    refine Keeps.trans ?_ (State.advanceTo_keeps _ _)
    exact Keeps.refl _
  intro k1
  clear_value x0
  refine KNext.mk ?_
  refine Keeps.clk ?_ _
  exact k1

theorem State.readTimeNs_keeps (s : State) : KSnd 0x200000 s (State.readTimeNs s) := by
  unfold State.readTimeNs
  extract_lets +onlyGivenNames x0
  extract_lets +onlyGivenNames x1
  extract_lets +onlyGivenNames x2
  refine KSnd.cut (b := x2) ?_ ?_
  · unfold x2
    refine Keeps.trans ?_ (State.fset_keeps _ _ _ _)
    refine Keeps.trans ?_ (State.fset_keeps _ _ _ _)
    exact Keeps.refl _
  intro k3
  clear_value x2
  refine KSnd.mk ?_
  refine Keeps.trans ?_ (State.fset_keeps _ _ _ _)
  exact k3

theorem execTikTimeNsRead_keeps (via : Via) (s : State) : KNext 0x600041 s (execTikTimeNsRead via s) := by
  unfold execTikTimeNsRead
  refine KNext.mk ?_
  refine Keeps.tr ?_ (regRead_keeps _ _ _ _ (fun v0 => ?_))
  · exact Keeps.refl _
  · refine KSnd.trans ?_ (State.readTimeNs_keeps _)
    exact Keeps.refl _

theorem State.readTickLo_keeps (s : State) (p : Nat) : KSnd 0x200000 s (State.readTickLo s p) := by
  unfold State.readTickLo
  refine KSnd.mk ?_
  refine Keeps.trans ?_ (State.fset_keeps _ _ _ _)
  exact Keeps.refl _

theorem execTikTickLoRead_keeps (p : Nat) (via : Via) (s : State) : KNext 0x600041 s (execTikTickLoRead p via s) := by
  unfold execTikTickLoRead
  refine KNext.ite ?_ ?_
  · refine KNext.mk ?_
    exact Keeps.refl _
  · refine KNext.mk ?_
    refine Keeps.tr ?_ (regRead_keeps _ _ _ _ (fun v0 => ?_))
    · exact Keeps.refl _
    · refine KSnd.trans ?_ (State.readTickLo_keeps _ _)
      exact Keeps.refl _

end Sys2Proof.Machine
end

