-- ==== Sys2Proof/Laws/KeepsPower.lean ====
section
/-!
SUPPORT. Sys2Proof/Laws/KeepsPower.lean: each operation of Machine/Power.lean keeps what `Keeps` says, with the parts of the state it may
touch.
-/
namespace Sys2Proof.Machine
set_option Elab.async false

theorem State.trainFail_keeps (s : State) (d : Nat) (bad : Nat) : Keeps 0x7FFFFFBFEF s (State.trainFail s d bad) := by
  unfold State.trainFail
  refine Keeps.foldl _ _ (fun s0 y1 => ?_) ?_
  · refine Keeps.trans ?_ (State.hwFence_keeps _ _ _ _)
    refine Keeps.trans ?_ (State.evtDie_keeps _ _ _)
    exact Keeps.refl _
  · exact Keeps.refl _

theorem State.startDies_keeps (s : State) : Keeps 0x7FFFFFBFEF s (State.startDies s) := by
  unfold State.startDies
  extract_lets +onlyGivenNames x0
  extract_lets +onlyGivenNames x1
  refine Keeps.cut (b := x1) ?_ ?_
  · unfold x1
    refine Keeps.trans ?_ (State.modPwr_keeps _ _)
    exact Keeps.refl _
  intro k2
  clear_value x1
  refine Keeps.foldl _ _ (fun s3 y4 => ?_) ?_
  · extract_lets +onlyGivenNames x5
    refine Keeps.cut (b := x5) ?_ ?_
    · unfold x5
      refine Keeps.trans ?_ (State.railsOn_keeps _ _)
      exact Keeps.refl _
    intro k6
    clear_value x5
    refine Keeps.ite ?_ ?_
    · refine Keeps.trans ?_ (State.hwFence_keeps _ _ _ _)
      refine Keeps.trans ?_ (State.fset_keeps _ _ _ _)
      refine Keeps.trans ?_ (State.railsOff_keeps _ _ _)
      exact k6
    · refine Keeps.trans ?_ (State.dieStart_keeps _ _)
      exact k6
  · exact k2

theorem State.boot_keeps (s : State) (code : Nat) : Keeps 0x7FFFFFFFEF s (State.boot s code) := by
  unfold State.boot
  extract_lets +onlyGivenNames x0
  extract_lets +onlyGivenNames x1
  refine Keeps.cut (b := x1) ?_ ?_
  · unfold x1
    refine Keeps.trans ?_ (State.fset_keeps _ _ _ _)
    refine Keeps.trans ?_ (State.fput_keeps _ _ _ _)
    exact Keeps.refl _
  intro k2
  clear_value x1
  refine Keeps.ite ?_ ?_
  · refine Keeps.trans ?_ (State.moduleError_keeps _ _)
    exact k2
  · extract_lets +onlyGivenNames x3
    split
    · rename_i z4 z5
      refine Keeps.trans ?_ (State.moduleError_keeps _ _)
      exact k2
    · rename_i z6 z7 z8 z9
      extract_lets +onlyGivenNames x10
      extract_lets +onlyGivenNames x11
      refine Keeps.cut (b := x11) ?_ ?_
      · unfold x11
        refine Keeps.trans ?_ (State.logTest_keeps _ _ _ _ _)
        exact k2
      intro k12
      clear_value x11
      extract_lets +onlyGivenNames x13
      extract_lets +onlyGivenNames x14
      refine Keeps.cut (b := x14) ?_ ?_
      · unfold x14
        refine Keeps.sec ?_ _
        exact k12
      intro k15
      clear_value x14
      extract_lets +onlyGivenNames x16
      refine Keeps.cut (b := x16) ?_ ?_
      · unfold x16
        refine Keeps.trans ?_ (State.fset_keeps _ _ _ _)
        refine Keeps.trans ?_ (State.fset_keeps _ _ _ _)
        refine Keeps.trans ?_ (State.fset_keeps _ _ _ _)
        exact k15
      intro k17
      clear_value x16
      extract_lets +onlyGivenNames x18
      refine Keeps.cut (b := x18) ?_ ?_
      · unfold x18
        refine Keeps.trans ?_ (State.fput_keeps _ _ _ _)
        refine Keeps.trans ?_ (State.fset_keeps _ _ _ _)
        exact k17
      intro k19
      clear_value x18
      extract_lets +onlyGivenNames x20
      refine Keeps.cut (b := x20) ?_ ?_
      · unfold x20
        refine Keeps.ite ?_ ?_
        · refine Keeps.trans ?_ (State.evtPkg_keeps _ _)
          exact k19
        · exact k19
      intro k21
      clear_value x20
      extract_lets +onlyGivenNames x22
      refine Keeps.cut (b := x22) ?_ ?_
      · unfold x22
        refine Keeps.trans ?_ (State.fset_keeps _ _ _ _)
        refine Keeps.trans ?_ (State.fput_keeps _ _ _ _)
        exact k21
      intro k23
      clear_value x22
      extract_lets +onlyGivenNames x24
      refine Keeps.cut (b := x24) ?_ ?_
      · unfold x24
        refine Keeps.trans ?_ (State.fset_keeps _ _ _ _)
        refine Keeps.trans ?_ (State.fset_keeps _ _ _ _)
        exact k23
      intro k25
      clear_value x24
      refine Keeps.ite ?_ ?_
      · exact k25
      · refine Keeps.trans ?_ (State.startDies_keeps _)
        exact k25

theorem State.coldClear_keeps (s : State) (power : Bool) : Keeps 0x7FFFFFFFFF s (State.coldClear s power) := by
  unfold State.coldClear
  extract_lets +onlyGivenNames x0
  extract_lets +onlyGivenNames x1
  extract_lets +onlyGivenNames x2
  refine Keeps.cut (b := x2) ?_ ?_
  · unfold x2
    refine Keeps.ite ?_ ?_
    · exact Keeps.refl _
    · refine KSnd.get ?_
      refine KSnd.trans ?_ (State.zeroizeAll_keeps _)
      exact Keeps.refl _
  intro k3
  clear_value x2
  extract_lets +onlyGivenNames x4
  refine Keeps.cut (b := x4) ?_ ?_
  · unfold x4
    refine Keeps.trans ?_ (State.recall_keeps _)
    refine Keeps.trans ?_ (State.removalsLost_keeps _)
    exact k3
  intro k5
  clear_value x4
  extract_lets +onlyGivenNames x6
  refine Keeps.cut (b := x6) ?_ ?_
  · unfold x6
    refine Keeps.foldl _ _ (fun s7 y8 => ?_) ?_
    · refine Keeps.trans ?_ (State.dieZero_keeps _ _ _)
      exact Keeps.refl _
    · exact k5
  intro k9
  clear_value x6
  extract_lets +onlyGivenNames x10
  refine Keeps.cut (b := x10) ?_ ?_
  · unfold x10
    refine Keeps.trans ?_ (State.clearRegs_keeps _ _)
    exact k9
  intro k11
  clear_value x10
  extract_lets +onlyGivenNames x12
  extract_lets +onlyGivenNames x13
  extract_lets +onlyGivenNames x14
  extract_lets +onlyGivenNames x15
  extract_lets +onlyGivenNames x16
  refine Keeps.cut (b := x16) ?_ ?_
  · unfold x16
    refine Keeps.tr (b := x10) ?_ (Keeps.direct rfl rfl (Nat.le_refl _) rfl ?_)
    · exact k11
    · intro w
      rw [State.wf_iff] at w ⊢
      obtain ⟨a1, a2, a3, a4, a5, a6, a7, a8, a9, a10, a11, a12, a13, a14⟩ := w
      exact ⟨a1, rfl, rfl, rfl, rfl, rfl, a7, rfl, dwf_dmap _ _ _ a9, a10, rfl, rfl, rfl, rfl⟩
  intro k17
  clear_value x16
  extract_lets +onlyGivenNames x18
  extract_lets +onlyGivenNames x19
  extract_lets +onlyGivenNames x20
  refine Keeps.cut (b := x20) ?_ ?_
  · unfold x20
    refine Keeps.clk ?_ _
    exact k17
  intro k21
  clear_value x20
  extract_lets +onlyGivenNames x22
  refine Keeps.cut (b := x22) ?_ ?_
  · unfold x22
    refine Keeps.trans ?_ (State.showRemovals_keeps _)
    refine Keeps.trans ?_ (State.fput_keeps _ _ _ _)
    exact k21
  intro k23
  clear_value x22
  extract_lets +onlyGivenNames x24
  refine Keeps.cut (b := x24) ?_ ?_
  · unfold x24
    refine Keeps.ite ?_ ?_
    · exact k23
    · refine Keeps.trans ?_ (State.fset_keeps _ _ _ _)
      exact k23
  intro k25
  clear_value x24
  extract_lets +onlyGivenNames x26
  refine Keeps.trans ?_ (State.fset_keeps _ _ _ _)
  exact k25

theorem State.coldReset_keeps (s : State) (last code : Nat) : Keeps 0x7FFFFFFFFF s (State.coldReset s last code) := by
  unfold State.coldReset
  extract_lets +onlyGivenNames x0
  extract_lets +onlyGivenNames x1
  refine Keeps.cut (b := x1) ?_ ?_
  · unfold x1
    refine Keeps.trans ?_ (State.coldClear_keeps _ _)
    exact Keeps.refl _
  intro k2
  clear_value x1
  refine Keeps.trans ?_ (State.boot_keeps _ _)
  refine Keeps.ite ?_ ?_
  · exact k2
  · refine Keeps.trans ?_ (State.fset_keeps _ _ _ _)
    exact k2

theorem State.strap_keeps (s : State) (b : Option Bool) : KSnd 0x2 s (State.strap s b) := by
  unfold State.strap
  split
  · rename_i z0 z1
    refine KSnd.mk ?_
    exact Keeps.refl _
  · rename_i z2
    refine KSnd.trans ?_ (State.sensed_keeps _ _)
    exact Keeps.refl _

theorem State.sampleStraps_keeps (s : State) (x : Straps) : Keeps 0x2100002 s (State.sampleStraps s x) := by
  unfold State.sampleStraps
  split
  · rename_i z0 z1 z2 z3
    refine Keeps.cut (b := z2) ?_ ?_
    · refine KSnd.eq z3 ?_
      refine KSnd.trans ?_ (State.strap_keeps _ _)
      exact Keeps.refl _
    intro k4
    split
    · rename_i z5 z6 z7 z8
      refine Keeps.cut (b := z7) ?_ ?_
      · refine KSnd.eq z8 ?_
        refine KSnd.trans ?_ (State.strap_keeps _ _)
        exact k4
      intro k9
      split
      · rename_i z10 z11 z12 z13
        refine Keeps.cut (b := z12) ?_ ?_
        · refine KSnd.eq z13 ?_
          refine KSnd.trans ?_ (State.strap_keeps _ _)
          exact k9
        intro k14
        split
        · rename_i z15 z16 z17 z18
          refine Keeps.cut (b := z17) ?_ ?_
          · refine KSnd.eq z18 ?_
            refine KSnd.trans ?_ (State.strap_keeps _ _)
            exact k14
          intro k19
          refine Keeps.trans ?_ (State.fset_keeps _ _ _ _)
          refine Keeps.trans ?_ (State.fset_keeps _ _ _ _)
          exact k19

theorem execPowerOnReset_keeps (lossLow : Bool) (code : Nat) (straps : Straps) (rails : Nat) (s : State) : KNext 0x7FFFFFFFFF s (execPowerOnReset lossLow code straps rails s) := by
  unfold execPowerOnReset
  extract_lets +onlyGivenNames x0
  extract_lets +onlyGivenNames x1
  refine KNext.cut (b := x1) ?_ ?_
  · unfold x1
    refine Keeps.trans ?_ (State.modPwr_keeps _ _)
    refine Keeps.trans ?_ (State.fput_keeps _ _ _ _)
    exact Keeps.refl _
  intro k2
  clear_value x1
  extract_lets +onlyGivenNames x3
  refine KNext.cut (b := x3) ?_ ?_
  · unfold x3
    refine Keeps.trans ?_ (State.sampleStraps_keeps _ _)
    refine Keeps.trans ?_ (State.coldClear_keeps _ _)
    exact k2
  intro k4
  clear_value x3
  extract_lets +onlyGivenNames x5
  refine KNext.cut (b := x5) ?_ ?_
  · unfold x5
    refine Keeps.ite ?_ ?_
    · refine Keeps.trans ?_ (State.emit_keeps _ _)
      exact k4
    · exact k4
  intro k6
  clear_value x5
  refine KNext.mk ?_
  refine Keeps.trans ?_ (State.boot_keeps _ _)
  refine Keeps.trans ?_ (State.fset_keeps _ _ _ _)
  exact k6

theorem State.deferred_keeps (s : State) : Keeps 0x7FFFFFFFFF s (State.deferred s) := by
  unfold State.deferred
  split
  · rename_i z0 z1
    exact Keeps.refl _
  · rename_i z2 z3 z4
    refine Keeps.trans ?_ (State.coldReset_keeps _ _ _)
    exact Keeps.refl _

theorem execPackageColdReset_keeps (by_ : ColdBy) (code t : Nat) (s : State) : KNext 0x7FFFFFFFFF s (execPackageColdReset by_ code t s) := by
  unfold execPackageColdReset
  extract_lets +onlyGivenNames x0
  refine KNext.cut (b := x0) ?_ ?_
  · unfold x0
    refine Keeps.trans ?_ (State.advanceTo_keeps _ _)
    exact Keeps.refl _
  intro k1
  clear_value x0
  split
  · rename_i z2 z3 z4
    refine KNext.mk ?_
    refine Keeps.tr ?_ (regWrite_keeps _ _ _ _ (fun v5 => ?_))
    · exact k1
    · refine Keeps.ite ?_ ?_
      · refine Keeps.trans ?_ (State.coldReset_keeps _ _ _)
        exact Keeps.refl _
      · exact Keeps.refl _
  · rename_i z6
    refine KNext.ite ?_ ?_
    · extract_lets +onlyGivenNames x7
      refine KNext.cut (b := x7) ?_ ?_
      · unfold x7
        refine Keeps.trans ?_ (State.modPwr_keeps _ _)
        exact k1
      intro k8
      clear_value x7
      refine KNext.mk ?_
      refine Keeps.ite ?_ ?_
      · refine Keeps.trans ?_ (State.deferred_keeps _)
        exact k8
      · exact k8
    · refine KNext.mk ?_
      refine Keeps.trans ?_ (State.coldReset_keeps _ _ _)
      exact k1

theorem execDeferredColdReset_keeps (t : Nat) (s : State) : KNext 0x7FFFFFFFFF s (execDeferredColdReset t s) := by
  unfold execDeferredColdReset
  extract_lets +onlyGivenNames x0
  refine KNext.cut (b := x0) ?_ ?_
  · unfold x0
    refine Keeps.trans ?_ (State.advanceTo_keeps _ _)
    exact Keeps.refl _
  intro k1
  clear_value x0
  split
  · rename_i z2 z3 z4
    refine KNext.ite ?_ ?_
    · refine KNext.mk ?_
      refine Keeps.trans ?_ (State.deferred_keeps _)
      exact k1
    · refine KNext.mk ?_
      exact k1
  · rename_i z5 z6
    refine KNext.mk ?_
    refine Keeps.trans ?_ (State.deferred_keeps _)
    exact k1

theorem execFlashProgramDone_keeps (d band stripe member : Nat) (ok : Bool) (ns : Nat) (s : State) : KNext 0x7FFFFFFFFF s (execFlashProgramDone d band stripe member ok ns s) := by
  unfold execFlashProgramDone
  extract_lets +onlyGivenNames x0
  refine KNext.cut (b := x0) ?_ ?_
  · unfold x0
    refine Keeps.trans ?_ (State.programDone_keeps _ _ _ _ _ _ _)
    exact Keeps.refl _
  intro k1
  clear_value x0
  refine KNext.mk ?_
  refine Keeps.ite ?_ ?_
  · refine Keeps.trans ?_ (State.deferred_keeps _)
    exact k1
  · exact k1

theorem execJournalPageDurable_keeps (d i ns : Nat) (s : State) : KNext 0x7FFFFFFFFF s (execJournalPageDurable d i ns s) := by
  unfold execJournalPageDurable
  extract_lets +onlyGivenNames x0
  refine KNext.cut (b := x0) ?_ ?_
  · unfold x0
    refine Keeps.trans ?_ (State.journalPage_keeps _ _ _ _)
    exact Keeps.refl _
  intro k1
  clear_value x0
  refine KNext.mk ?_
  refine Keeps.ite ?_ ?_
  · refine Keeps.trans ?_ (State.deferred_keeps _)
    exact k1
  · exact k1

theorem State.warmReset_keeps (s : State) (last : Nat) : Keeps 0x7FFFFFFFFF s (State.warmReset s last) := by
  unfold State.warmReset
  extract_lets +onlyGivenNames x0
  refine Keeps.cut (b := x0) ?_ ?_
  · unfold x0
    refine Keeps.trans ?_ (State.endStatics_keeps _)
    refine Keeps.trans ?_ (State.svcAbort_keeps _)
    exact Keeps.refl _
  intro k1
  clear_value x0
  extract_lets +onlyGivenNames x2
  refine Keeps.cut (b := x2) ?_ ?_
  · unfold x2
    refine Keeps.foldl _ _ (fun s3 y4 => ?_) ?_
    · refine Keeps.trans ?_ (State.dieZero_keeps _ _ _)
      exact Keeps.refl _
    · exact k1
  intro k5
  clear_value x2
  extract_lets +onlyGivenNames x6
  refine Keeps.cut (b := x6) ?_ ?_
  · unfold x6
    refine Keeps.trans ?_ (State.clearRegs_keeps _ _)
    exact k5
  intro k7
  clear_value x6
  extract_lets +onlyGivenNames x8
  extract_lets +onlyGivenNames x9
  refine Keeps.cut (b := x9) ?_ ?_
  · unfold x9
    refine Keeps.tr (b := x6) ?_ (Keeps.direct rfl rfl (Nat.le_refl _) rfl ?_)
    · exact k7
    · intro w
      rw [State.wf_iff] at w ⊢
      obtain ⟨a1, a2, a3, a4, a5, a6, a7, a8, a9, a10, a11, a12, a13, a14⟩ := w
      exact ⟨a1, a2, trising_tfilter _ _ a3, dwf_dmap _ _ _ a4, rfl, a6, a7, a8, a9, a10, a11, a12, rfl, a14⟩
  intro k10
  clear_value x9
  extract_lets +onlyGivenNames x11
  refine Keeps.cut (b := x11) ?_ ?_
  · unfold x11
    refine Keeps.foldl _ _ (fun s12 y13 => ?_) ?_
    · refine Keeps.ite ?_ ?_
      · exact Keeps.refl _
      · refine Keeps.trans ?_ (State.fset_keeps _ _ _ _)
        exact Keeps.refl _
    · exact k10
  intro k14
  clear_value x11
  extract_lets +onlyGivenNames x15
  refine Keeps.cut (b := x15) ?_ ?_
  · unfold x15
    refine Keeps.trans ?_ (State.fset_keeps _ _ _ _)
    refine Keeps.trans ?_ (State.fset_keeps _ _ _ _)
    exact k14
  intro k16
  clear_value x15
  extract_lets +onlyGivenNames x17
  refine Keeps.cut (b := x17) ?_ ?_
  · unfold x17
    refine Keeps.trans ?_ (State.ptpLost_keeps _)
    exact k16
  intro k18
  clear_value x17
  refine Keeps.foldl _ _ (fun s19 y20 => ?_) ?_
  · refine Keeps.ite ?_ ?_
    · refine Keeps.trans ?_ (State.countWickets_keeps _ _)
      refine Keeps.trans ?_ (State.dieTest_keeps _ _)
      exact Keeps.refl _
    · refine Keeps.trans ?_ (State.dieStart_keeps _ _)
      exact Keeps.refl _
  · exact k18

theorem execPackageWarmReset_keeps (via : Via) (key t : Nat) (s : State) : KNext 0x7FFFFFFFFF s (execPackageWarmReset via key t s) := by
  unfold execPackageWarmReset
  extract_lets +onlyGivenNames x0
  refine KNext.cut (b := x0) ?_ ?_
  · unfold x0
    refine Keeps.trans ?_ (State.advanceTo_keeps _ _)
    exact Keeps.refl _
  intro k1
  clear_value x0
  refine KNext.mk ?_
  refine Keeps.tr ?_ (regWrite_keeps _ _ _ _ (fun v2 => ?_))
  · exact k1
  · refine Keeps.ite ?_ ?_
    · refine Keeps.trans ?_ (State.warmReset_keeps _ _)
      exact Keeps.refl _
    · exact Keeps.refl _

theorem State.resetDie_keeps (s : State) (d bad : Nat) : Keeps 0x7FFFFFBFEF s (State.resetDie s d bad) := by
  unfold State.resetDie
  refine Keeps.ite ?_ ?_
  · exact Keeps.refl _
  · refine Keeps.ite ?_ ?_
    · refine Keeps.trans ?_ (State.trainFail_keeps _ _ _)
      refine Keeps.trans ?_ (State.loseDie_keeps _ _ _)
      exact Keeps.refl _
    · extract_lets +onlyGivenNames x0
      extract_lets +onlyGivenNames x1
      extract_lets +onlyGivenNames x2
      refine Keeps.cut (b := x2) ?_ ?_
      · unfold x2
        refine Keeps.trans ?_ (State.modRow_keeps _ _ _ _ _)
        exact Keeps.refl _
      intro k3
      clear_value x2
      extract_lets +onlyGivenNames x4
      refine Keeps.cut (b := x4) ?_ ?_
      · unfold x4
        refine Keeps.trans ?_ (State.fset_keeps _ _ _ _)
        refine Keeps.trans ?_ (State.dieUnits_keeps _ _ _ _)
        refine Keeps.trans ?_ (State.noteUnit_keeps _ _ _ _ _ _ _)
        exact k3
      intro k5
      clear_value x4
      extract_lets +onlyGivenNames x6
      refine Keeps.cut (b := x6) ?_ ?_
      · unfold x6
        refine Keeps.trans ?_ (State.fabricDown_keeps _ _)
        refine Keeps.trans ?_ (State.countWickets_keeps _ _)
        refine Keeps.trans ?_ (State.fputAt_keeps _ _ _ _ _)
        exact k5
      intro k7
      clear_value x6
      extract_lets +onlyGivenNames x8
      refine Keeps.cut (b := x8) ?_ ?_
      · unfold x8
        split
        · rename_i z9 z10 z11
          refine Keeps.trans ?_ (State.portOut_keeps _ _)
          exact k7
        · rename_i z12 z13
          exact k7
      intro k14
      clear_value x8
      refine Keeps.trans ?_ (State.trainFail_keeps _ _ _)
      refine Keeps.trans ?_ (State.dieTest_keeps _ _)
      refine Keeps.trans ?_ (State.dieZero_keeps _ _ _)
      exact k14

theorem execDieReset_keeps (d : Nat) (via : Via) (key bad t : Nat) (s : State) : KNext 0x7FFFFFBFFF s (execDieReset d via key bad t s) := by
  unfold execDieReset
  extract_lets +onlyGivenNames x0
  refine KNext.cut (b := x0) ?_ ?_
  · unfold x0
    refine Keeps.trans ?_ (State.advanceTo_keeps _ _)
    exact Keeps.refl _
  intro k1
  clear_value x0
  refine KNext.mk ?_
  refine Keeps.tr ?_ (regWrite_keeps _ _ _ _ (fun v2 => ?_))
  · exact k1
  · refine Keeps.ite ?_ ?_
    · refine Keeps.trans ?_ (State.resetDie_keeps _ _ _)
      exact Keeps.refl _
    · exact Keeps.refl _

theorem State.modDom_keeps (s : State) (k : Nat) (f : Dom → Dom) : Keeps 0x20000 s (State.modDom s k f) := by
  unfold State.modDom
  refine Keeps.trans ?_ (State.modPwr_keeps _ _)
  exact Keeps.refl _

theorem State.holdFlash_keeps (s : State) (d : Nat) : Keeps 0x204408469 s (State.holdFlash s d) := by
  unfold State.holdFlash
  extract_lets +onlyGivenNames x0
  refine Keeps.cut (b := x0) ?_ ?_
  · unfold x0
    refine Keeps.trans ?_ (State.modFtl_keeps _ _ _)
    exact Keeps.refl _
  intro k1
  clear_value x0
  refine Keeps.ite ?_ ?_
  · refine Keeps.trans ?_ (State.gcAdvance_keeps _ _)
    refine Keeps.trans ?_ (State.resumeTasks_keeps _ _)
    refine Keeps.trans ?_ (State.pastParity_keeps _ _)
    exact k1
  · exact k1

theorem State.pauseDie_keeps (s : State) (d : Nat) : Keeps 0x4204428469 s (State.pauseDie s d) := by
  unfold State.pauseDie
  extract_lets +onlyGivenNames x0
  refine Keeps.cut (b := x0) ?_ ?_
  · unfold x0
    refine Keeps.trans ?_ (State.evtDie_keeps _ _ _)
    refine Keeps.trans ?_ (State.fset_keeps _ _ _ _)
    exact Keeps.refl _
  intro k1
  clear_value x0
  extract_lets +onlyGivenNames x2
  refine Keeps.cut (b := x2) ?_ ?_
  · unfold x2
    refine Keeps.ite ?_ ?_
    · exact k1
    · refine Keeps.trans ?_ (State.modPwr_keeps _ _)
      refine Keeps.trans ?_ (State.fset_keeps _ _ _ _)
      exact k1
  intro k3
  clear_value x2
  refine Keeps.trans ?_ (State.holdFlash_keeps _ _)
  exact k3

theorem execSupplyWarning_keeps (dom mv t : Nat) (s : State) : KNext 0x4205628479 s (execSupplyWarning dom mv t s) := by
  unfold execSupplyWarning
  extract_lets +onlyGivenNames x0
  refine KNext.cut (b := x0) ?_ ?_
  · unfold x0
    refine Keeps.trans ?_ (State.advanceTo_keeps _ _)
    exact Keeps.refl _
  intro k1
  clear_value x0
  refine KNext.ite ?_ ?_
  · refine KNext.mk ?_
    exact k1
  · extract_lets +onlyGivenNames x2
    extract_lets +onlyGivenNames x3
    refine KNext.cut (b := x3) ?_ ?_
    · unfold x3
      refine Keeps.trans ?_ (State.modDom_keeps _ _ _)
      exact k1
    intro k4
    clear_value x3
    extract_lets +onlyGivenNames x5
    refine KNext.cut (b := x5) ?_ ?_
    · unfold x5
      refine Keeps.trans ?_ (State.fset_keeps _ _ _ _)
      exact k4
    intro k6
    clear_value x5
    extract_lets +onlyGivenNames x7
    refine KNext.mk ?_
    refine Keeps.foldl _ _ (fun s8 y9 => ?_) ?_
    · refine Keeps.trans ?_ (State.pmc_keeps _ _ _ _ _ _)
      refine Keeps.trans ?_ (State.pauseDie_keeps _ _)
      exact Keeps.refl _
    · exact k6

theorem State.resumeDie_keeps (s : State) (d : Nat) : Keeps 0x42044284E9 s (State.resumeDie s d) := by
  unfold State.resumeDie
  extract_lets +onlyGivenNames x0
  refine Keeps.cut (b := x0) ?_ ?_
  · unfold x0
    split
    · rename_i z1 z2
      exact Keeps.refl _
    · rename_i z3 z4 z5 z6
      extract_lets +onlyGivenNames x7
      extract_lets +onlyGivenNames x8
      refine Keeps.cut (b := x8) ?_ ?_
      · unfold x8
        refine Keeps.trans ?_ (State.fadd_keeps _ _ _ _)
        exact Keeps.refl _
      intro k9
      clear_value x8
      split
      · rename_i z10 z11
        exact k9
      · rename_i z12 z13 z14
        refine Keeps.trans ?_ (State.modSweep_keeps _ _ _ _)
        exact k9
  intro k15
  clear_value x0
  extract_lets +onlyGivenNames x16
  refine Keeps.cut (b := x16) ?_ ?_
  · unfold x16
    refine Keeps.trans ?_ (State.fset_keeps _ _ _ _)
    refine Keeps.trans ?_ (State.fset_keeps _ _ _ _)
    exact k15
  intro k17
  clear_value x16
  refine Keeps.trans ?_ (State.holdFlash_keeps _ _)
  refine Keeps.trans ?_ (State.modCsm_keeps _ _ _)
  refine Keeps.trans ?_ (State.modPwr_keeps _ _)
  exact k17

theorem State.endDip_keeps (s : State) (k : Nat) : Keeps 0x4028008 s (State.endDip s k) := by
  unfold State.endDip
  extract_lets +onlyGivenNames x0
  extract_lets +onlyGivenNames x1
  extract_lets +onlyGivenNames x2
  refine Keeps.cut (b := x2) ?_ ?_
  · unfold x2
    refine Keeps.trans ?_ (State.modDom_keeps _ _ _)
    exact Keeps.refl _
  intro k3
  clear_value x2
  refine Keeps.ite ?_ ?_
  · refine Keeps.trans ?_ (State.pmc_keeps _ _ _ _ _ _)
    exact k3
  · refine Keeps.foldl _ _ (fun s4 y5 => ?_) ?_
    · refine Keeps.trans ?_ (State.pmc_keeps _ _ _ _ _ _)
      exact Keeps.refl _
    · exact k3

theorem execSupplyRecovery_keeps (d : Nat) (lows : List (Nat × Nat × Nat)) (t : Nat) (s : State) : KNext 0x42056284F9 s (execSupplyRecovery d lows t s) := by
  unfold execSupplyRecovery
  extract_lets +onlyGivenNames x0
  refine KNext.cut (b := x0) ?_ ?_
  · unfold x0
    refine Keeps.trans ?_ (State.advanceTo_keeps _ _)
    exact Keeps.refl _
  intro k1
  clear_value x0
  refine KNext.ite ?_ ?_
  · refine KNext.mk ?_
    exact k1
  · extract_lets +onlyGivenNames x2
    extract_lets +onlyGivenNames x3
    refine KNext.cut (b := x3) ?_ ?_
    · unfold x3
      refine Keeps.foldl _ _ (fun s4 y5 => ?_) ?_
      · refine Keeps.ite ?_ ?_
        · refine Keeps.trans ?_ (State.modDom_keeps _ _ _)
          exact Keeps.refl _
        · exact Keeps.refl _
      · exact k1
    intro k6
    clear_value x3
    extract_lets +onlyGivenNames x7
    refine KNext.ite ?_ ?_
    · refine KNext.mk ?_
      exact k6
    · split
      · rename_i z8 z9
        refine KNext.mk ?_
        exact k6
      · rename_i z10 z11 z12
        extract_lets +onlyGivenNames x13
        extract_lets +onlyGivenNames x14
        extract_lets +onlyGivenNames x15
        refine KNext.cut (b := x15) ?_ ?_
        · unfold x15
          refine Keeps.foldl _ _ (fun s16 y17 => ?_) ?_
          · refine Keeps.ite ?_ ?_
            · refine Keeps.trans ?_ (State.endDip_keeps _ _)
              exact Keeps.refl _
            · exact Keeps.refl _
          · exact k6
        intro k18
        clear_value x15
        extract_lets +onlyGivenNames x19
        refine KNext.cut (b := x19) ?_ ?_
        · unfold x19
          refine Keeps.ite ?_ ?_
          · refine Keeps.trans ?_ (State.sealedEvent_keeps _ _ _)
            exact k18
          · refine Keeps.trans ?_ (State.dieEvent_keeps _ _ _ _)
            exact k18
        intro k20
        clear_value x19
        extract_lets +onlyGivenNames x21
        refine KNext.cut (b := x21) ?_ ?_
        · unfold x21
          refine Keeps.trans ?_ (State.fadd_keeps _ _ _ _)
          refine Keeps.trans ?_ (State.evtPkg_keeps _ _)
          exact k20
        intro k22
        clear_value x21
        extract_lets +onlyGivenNames x23
        refine KNext.cut (b := x23) ?_ ?_
        · unfold x23
          refine Keeps.trans ?_ (State.fput_keeps _ _ _ _)
          exact k22
        intro k24
        clear_value x23
        extract_lets +onlyGivenNames x25
        refine KNext.mk ?_
        refine Keeps.foldl _ _ (fun s26 y27 => ?_) ?_
        · refine Keeps.ite ?_ ?_
          · refine Keeps.trans ?_ (State.resumeDie_keeps _ _)
            exact Keeps.refl _
          · exact Keeps.refl _
        · exact k24

theorem execSupplyReset_keeps (dom mv code t : Nat) (s : State) : KNext 0x7FFFFFFFFF s (execSupplyReset dom mv code t s) := by
  unfold execSupplyReset
  extract_lets +onlyGivenNames x0
  refine KNext.cut (b := x0) ?_ ?_
  · unfold x0
    refine Keeps.trans ?_ (State.advanceTo_keeps _ _)
    exact Keeps.refl _
  intro k1
  clear_value x0
  refine KNext.ite ?_ ?_
  · refine KNext.mk ?_
    exact k1
  · extract_lets +onlyGivenNames x2
    extract_lets +onlyGivenNames x3
    extract_lets +onlyGivenNames x4
    refine KNext.cut (b := x4) ?_ ?_
    · unfold x4
      refine Keeps.trans ?_ (State.modDom_keeps _ _ _)
      exact k1
    intro k5
    clear_value x4
    extract_lets +onlyGivenNames x6
    extract_lets +onlyGivenNames x7
    refine KNext.cut (b := x7) ?_ ?_
    · unfold x7
      refine Keeps.ite ?_ ?_
      · refine Keeps.trans ?_ (State.dieEvent_keeps _ _ _ _)
        exact k5
      · refine Keeps.trans ?_ (State.sealedEvent_keeps _ _ _)
        exact k5
    intro k8
    clear_value x7
    extract_lets +onlyGivenNames x9
    refine KNext.cut (b := x9) ?_ ?_
    · unfold x9
      refine Keeps.trans ?_ (State.fadd_keeps _ _ _ _)
      refine Keeps.trans ?_ (State.evtPkg_keeps _ _)
      exact k8
    intro k10
    clear_value x9
    refine KNext.ite ?_ ?_
    · refine KNext.mk ?_
      refine Keeps.trans ?_ (State.boot_keeps _ _)
      refine Keeps.trans ?_ (State.fset_keeps _ _ _ _)
      refine Keeps.trans ?_ (State.coldClear_keeps _ _)
      exact k10
    · refine KNext.ite ?_ ?_
      · refine KNext.mk ?_
        refine Keeps.trans ?_ (State.coldReset_keeps _ _ _)
        exact k10
      · extract_lets +onlyGivenNames x11
        extract_lets +onlyGivenNames x12
        refine KNext.cut (b := x12) ?_ ?_
        · unfold x12
          refine Keeps.foldl _ _ (fun s13 y14 => ?_) ?_
          · refine Keeps.trans ?_ (State.modDom_keeps _ _ _)
            exact Keeps.refl _
          · exact k10
        intro k15
        clear_value x12
        extract_lets +onlyGivenNames x16
        refine KNext.cut (b := x16) ?_ ?_
        · unfold x16
          refine Keeps.trans ?_ (State.fput_keeps _ _ _ _)
          exact k15
        intro k17
        clear_value x16
        extract_lets +onlyGivenNames x18
        refine KNext.cut (b := x18) ?_ ?_
        · unfold x18
          refine Keeps.ite ?_ ?_
          · refine Keeps.trans ?_ (State.loseDie_keeps _ _ _)
            exact k17
          · refine Keeps.trans ?_ (State.resetDie_keeps _ _ _)
            exact k17
        intro k19
        clear_value x18
        refine KNext.mk ?_
        refine Keeps.trans ?_ (State.holdFlash_keeps _ _)
        exact k19

theorem State.level_keeps (s : State) (d k : Nat) : Keeps 0x8002 s (State.level s d k) := by
  unfold State.level
  split
  · rename_i z0 z1 z2 z3
    refine Keeps.cut (b := z2) ?_ ?_
    · refine KSnd.eq z3 ?_
      refine KSnd.trans ?_ (State.draw_keeps _)
      exact Keeps.refl _
    intro k4
    refine Keeps.trans ?_ (State.hist_keeps _ _ _ _ _)
    exact k4

theorem State.levels_keeps (s : State) (d : Nat) : Keeps 0x8002 s (State.levels s d) := by
  unfold State.levels
  split
  · rename_i z0 z1
    exact Keeps.refl _
  · rename_i z2 z3 z4
    extract_lets +onlyGivenNames x5
    refine Keeps.foldl _ _ (fun s6 y7 => ?_) ?_
    · refine Keeps.foldl _ _ (fun s8 y9 => ?_) ?_
      · refine Keeps.trans ?_ (State.level_keeps _ _ _)
        exact Keeps.refl _
      · exact Keeps.refl _
    · exact Keeps.refl _

theorem State.setVolts_keeps (s : State) (d cas log : Nat) : Keeps 0x4000000001 s (State.setVolts s d cas log) := by
  unfold State.setVolts
  extract_lets +onlyGivenNames x0
  refine Keeps.cut (b := x0) ?_ ?_
  · unfold x0
    refine Keeps.trans ?_ (State.avsTo_keeps _ _ _ _ _)
    exact Keeps.refl _
  intro k1
  clear_value x0
  extract_lets +onlyGivenNames x2
  refine Keeps.cut (b := x2) ?_ ?_
  · unfold x2
    refine Keeps.trans ?_ (State.avsTo_keeps _ _ _ _ _)
    exact k1
  intro k3
  clear_value x2
  refine Keeps.trans ?_ (State.fset_keeps _ _ _ _)
  refine Keeps.trans ?_ (State.fset_keeps _ _ _ _)
  exact k3

theorem execAvsStep_keeps (d cas log t : Nat) (s : State) : KNext 0x400062805F s (execAvsStep d cas log t s) := by
  unfold execAvsStep
  extract_lets +onlyGivenNames x0
  refine KNext.cut (b := x0) ?_ ?_
  · unfold x0
    refine Keeps.trans ?_ (State.advanceTo_keeps _ _)
    exact Keeps.refl _
  intro k1
  clear_value x0
  refine KNext.ite ?_ ?_
  · refine KNext.mk ?_
    exact k1
  · extract_lets +onlyGivenNames x2
    extract_lets +onlyGivenNames x3
    refine KNext.cut (b := x3) ?_ ?_
    · unfold x3
      refine Keeps.trans ?_ (State.applyForce_keeps _ _)
      exact k1
    intro k4
    clear_value x3
    extract_lets +onlyGivenNames x5
    refine KNext.cut (b := x5) ?_ ?_
    · unfold x5
      refine Keeps.trans ?_ (State.levels_keeps _ _)
      exact k4
    intro k6
    clear_value x5
    refine KNext.ite ?_ ?_
    · refine KNext.mk ?_
      exact k6
    · refine KNext.ite ?_ ?_
      · refine KNext.mk ?_
        refine Keeps.trans ?_ (State.setVolts_keeps _ _ _ _)
        exact k6
      · extract_lets +onlyGivenNames x7
        extract_lets +onlyGivenNames x8
        extract_lets +onlyGivenNames x9
        extract_lets +onlyGivenNames x10
        extract_lets +onlyGivenNames x11
        refine KNext.cut (b := x11) ?_ ?_
        · unfold x11
          refine Keeps.trans ?_ (State.setVolts_keeps _ _ _ _)
          exact k6
        intro k12
        clear_value x11
        refine KNext.ite ?_ ?_
        · extract_lets +onlyGivenNames x13
          refine KNext.cut (b := x13) ?_ ?_
          · unfold x13
            refine Keeps.trans ?_ (State.modPwr_keeps _ _)
            exact k12
          intro k14
          clear_value x13
          extract_lets +onlyGivenNames x15
          refine KNext.cut (b := x15) ?_ ?_
          · unfold x15
            refine Keeps.trans ?_ (State.evtDie_keeps _ _ _)
            refine Keeps.trans ?_ (State.fadd_keeps _ _ _ _)
            exact k14
          intro k16
          clear_value x15
          refine KNext.mk ?_
          refine Keeps.trans ?_ (State.adaptPinned_keeps _ _ _ _)
          exact k16
        · refine KNext.mk ?_
          exact k12

theorem State.requestState_keeps (s : State) (d req : Nat) : Keeps 0x4000020009 s (State.requestState s d req) := by
  unfold State.requestState
  extract_lets +onlyGivenNames x0
  extract_lets +onlyGivenNames x1
  refine Keeps.ite ?_ ?_
  · exact Keeps.refl _
  · refine Keeps.ite ?_ ?_
    · refine Keeps.trans ?_ (State.evtDie_keeps _ _ _)
      exact Keeps.refl _
    · refine Keeps.ite ?_ ?_
      · exact Keeps.refl _
      · extract_lets +onlyGivenNames x2
        refine Keeps.cut (b := x2) ?_ ?_
        · unfold x2
          refine Keeps.trans ?_ (State.modPwr_keeps _ _)
          refine Keeps.trans ?_ (State.fset_keeps _ _ _ _)
          exact Keeps.refl _
        intro k3
        clear_value x2
        refine Keeps.ite ?_ ?_
        · refine Keeps.trans ?_ (State.railsBack_keeps _ _ _)
          exact k3
        · refine Keeps.ite ?_ ?_
          · refine Keeps.trans ?_ (State.enable_keeps _ _ _ _)
            refine Keeps.trans ?_ (State.enable_keeps _ _ _ _)
            exact k3
          · exact k3

theorem execStateReq_keeps (d req : Nat) (via : Via) (s : State) : KNext 0x4000420049 s (execStateReq d req via s) := by
  unfold execStateReq
  refine KNext.mk ?_
  refine Keeps.tr ?_ (regWrite_keeps _ _ _ _ (fun v0 => ?_))
  · exact Keeps.refl _
  · refine Keeps.trans ?_ (State.requestState_keeps _ _ _)
    refine Keeps.trans ?_ (State.fset_keeps _ _ _ _)
    exact Keeps.refl _

theorem State.sleepDie_keeps (s : State) (d st : Nat) : Keeps 0xC0C4EBBEB s (State.sleepDie s d st) := by
  unfold State.sleepDie
  extract_lets +onlyGivenNames x0
  refine Keeps.cut (b := x0) ?_ ?_
  · unfold x0
    refine Keeps.trans ?_ (State.railsOff_keeps _ _ _)
    refine Keeps.trans ?_ (State.fabricDown_keeps _ _)
    exact Keeps.refl _
  intro k1
  clear_value x0
  extract_lets +onlyGivenNames x2
  refine Keeps.cut (b := x2) ?_ ?_
  · unfold x2
    refine Keeps.ite ?_ ?_
    · refine Keeps.trans ?_ (State.avsTo_keeps _ _ _ _ _)
      refine Keeps.trans ?_ (State.avsTo_keeps _ _ _ _ _)
      exact k1
    · exact k1
  intro k3
  clear_value x2
  refine Keeps.ite ?_ ?_
  · refine Keeps.trans ?_ (State.forgetDie_keeps _ _)
    refine Keeps.trans ?_ (State.staticDie_keeps _ _)
    exact k3
  · exact k3

theorem State.wakeDie_keeps (s : State) (d old code : Nat) : Keeps 0x7FFFFEBFEF s (State.wakeDie s d old code) := by
  unfold State.wakeDie
  extract_lets +onlyGivenNames x0
  refine Keeps.cut (b := x0) ?_ ?_
  · unfold x0
    refine Keeps.trans ?_ (State.railsOn_keeps _ _)
    exact Keeps.refl _
  intro k1
  clear_value x0
  refine Keeps.ite ?_ ?_
  · extract_lets +onlyGivenNames x2
    refine Keeps.cut (b := x2) ?_ ?_
    · unfold x2
      refine Keeps.trans ?_ (State.dieStart_keeps _ _)
      refine Keeps.trans ?_ (State.dieZero_keeps _ _ _)
      exact k1
    intro k3
    clear_value x2
    refine Keeps.ite ?_ ?_
    · exact k3
    · refine Keeps.trans ?_ (State.moduleError_keeps _ _)
      exact k3
  · refine Keeps.trans ?_ (State.modPwr_keeps _ _)
    exact k1

theorem execPowerStateChange_keeps (d code t : Nat) (s : State) : KNext 0x7FFFFEBFFF s (execPowerStateChange d code t s) := by
  unfold execPowerStateChange
  extract_lets +onlyGivenNames x0
  refine KNext.cut (b := x0) ?_ ?_
  · unfold x0
    refine Keeps.trans ?_ (State.advanceTo_keeps _ _)
    exact Keeps.refl _
  intro k1
  clear_value x0
  split
  · rename_i z2 z3
    refine KNext.mk ?_
    exact k1
  · rename_i z4 z5 z6
    extract_lets +onlyGivenNames x7
    extract_lets +onlyGivenNames x8
    refine KNext.ite ?_ ?_
    · refine KNext.mk ?_
      exact k1
    · extract_lets +onlyGivenNames x9
      refine KNext.cut (b := x9) ?_ ?_
      · unfold x9
        refine Keeps.trans ?_ (State.fset_keeps _ _ _ _)
        refine Keeps.trans ?_ (State.modPwr_keeps _ _)
        exact k1
      intro k10
      clear_value x9
      refine KNext.ite ?_ ?_
      · refine KNext.mk ?_
        refine Keeps.trans ?_ (State.evtDie_keeps _ _ _)
        refine Keeps.trans ?_ (State.railsOn_keeps _ _)
        exact k10
      · extract_lets +onlyGivenNames x11
        refine KNext.cut (b := x11) ?_ ?_
        · unfold x11
          refine Keeps.ite ?_ ?_
          · refine Keeps.trans ?_ (State.sleepDie_keeps _ _ _)
            exact k10
          · refine Keeps.trans ?_ (State.wakeDie_keeps _ _ _ _)
            exact k10
        intro k12
        clear_value x11
        refine KNext.mk ?_
        refine Keeps.trans ?_ (State.powerTo_keeps _ _ _ _)
        refine Keeps.trans ?_ (State.fset_keeps _ _ _ _)
        exact k12

theorem execMinClr_keeps (via : Via) (s : State) : KNext 0x420040 s (execMinClr via s) := by
  unfold execMinClr
  refine KNext.mk ?_
  refine Keeps.tr ?_ (regWrite_keeps _ _ _ _ (fun v0 => ?_))
  · exact Keeps.refl _
  · extract_lets +onlyGivenNames x1
    refine Keeps.ite ?_ ?_
    · exact Keeps.refl _
    · refine Keeps.trans ?_ (State.modDom_keeps _ _ _)
      exact Keeps.refl _

theorem execPwrLossQualified_keeps (t : Nat) (s : State) : KNext 0x7FFFFFBFFF s (execPwrLossQualified t s) := by
  unfold execPwrLossQualified
  extract_lets +onlyGivenNames x0
  refine KNext.cut (b := x0) ?_ ?_
  · unfold x0
    refine Keeps.trans ?_ (State.advanceTo_keeps _ _)
    exact Keeps.refl _
  intro k1
  clear_value x0
  refine KNext.ite ?_ ?_
  · refine KNext.mk ?_
    exact k1
  · extract_lets +onlyGivenNames x2
    refine KNext.cut (b := x2) ?_ ?_
    · unfold x2
      refine Keeps.trans ?_ (State.modPwr_keeps _ _)
      refine Keeps.trans ?_ (State.evtPkg_keeps _ _)
      refine Keeps.trans ?_ (State.fset_keeps _ _ _ _)
      exact k1
    intro k3
    clear_value x2
    extract_lets +onlyGivenNames x4
    refine KNext.cut (b := x4) ?_ ?_
    · unfold x4
      refine Keeps.trans ?_ (State.endStatics_keeps _)
      refine Keeps.trans ?_ (State.svcAbort_keeps _)
      exact k3
    intro k5
    clear_value x4
    refine KNext.mk ?_
    refine Keeps.foldl _ _ (fun s6 y7 => ?_) ?_
    · refine Keeps.trans ?_ (State.partialParity_keeps _ _)
      refine Keeps.trans ?_ (State.issueJournal_keeps _ _)
      refine Keeps.trans ?_ (State.holdFlash_keeps _ _)
      refine Keeps.trans ?_ (State.pastParity_keeps _ _)
      exact Keeps.refl _
    · exact k5

theorem execPwrLossRelease_keeps (t : Nat) (s : State) : KNext 0x7FFFFFBFFF s (execPwrLossRelease t s) := by
  unfold execPwrLossRelease
  extract_lets +onlyGivenNames x0
  refine KNext.cut (b := x0) ?_ ?_
  · unfold x0
    refine Keeps.trans ?_ (State.advanceTo_keeps _ _)
    exact Keeps.refl _
  intro k1
  clear_value x0
  refine KNext.ite ?_ ?_
  · refine KNext.mk ?_
    exact k1
  · extract_lets +onlyGivenNames x2
    extract_lets +onlyGivenNames x3
    refine KNext.cut (b := x3) ?_ ?_
    · unfold x3
      refine Keeps.trans ?_ (State.modPwr_keeps _ _)
      refine Keeps.trans ?_ (State.fset_keeps _ _ _ _)
      exact k1
    intro k4
    clear_value x3
    extract_lets +onlyGivenNames x5
    refine KNext.cut (b := x5) ?_ ?_
    · unfold x5
      refine Keeps.foldl _ _ (fun s6 y7 => ?_) ?_
      · refine Keeps.trans ?_ (State.holdFlash_keeps _ _)
        exact Keeps.refl _
      · exact k4
    intro k8
    clear_value x5
    refine KNext.mk ?_
    refine Keeps.ite ?_ ?_
    · refine Keeps.trans ?_ (State.startDies_keeps _)
      exact k8
    · exact k8

theorem execThermtrip_keeps (d n temp : Nat) (s : State) : KNext 0x20001 s (execThermtrip d n temp s) := by
  unfold execThermtrip
  refine KNext.ite ?_ ?_
  · refine KNext.mk ?_
    exact Keeps.refl _
  · refine KNext.mk ?_
    refine Keeps.trans ?_ (State.emit_keeps _ _)
    refine Keeps.trans ?_ (State.modPwr_keeps _ _)
    exact Keeps.refl _

theorem execPpsOut_keeps (t : Nat) (s : State) : KNext 0x220011 s (execPpsOut t s) := by
  unfold execPpsOut
  extract_lets +onlyGivenNames x0
  refine KNext.cut (b := x0) ?_ ?_
  · unfold x0
    refine Keeps.trans ?_ (State.advanceTo_keeps _ _)
    exact Keeps.refl _
  intro k1
  clear_value x0
  extract_lets +onlyGivenNames x2
  refine KNext.ite ?_ ?_
  · refine KNext.mk ?_
    exact k1
  · refine KNext.mk ?_
    refine Keeps.trans ?_ (State.emit_keeps _ _)
    refine Keeps.trans ?_ (State.modPwr_keeps _ _)
    exact k1

theorem execStackHot_keeps (d k temp t : Nat) (s : State) : KNext 0x1000200018 s (execStackHot d k temp t s) := by
  unfold execStackHot
  extract_lets +onlyGivenNames x0
  refine KNext.cut (b := x0) ?_ ?_
  · unfold x0
    refine Keeps.trans ?_ (State.advanceTo_keeps _ _)
    exact Keeps.refl _
  intro k1
  clear_value x0
  extract_lets +onlyGivenNames x2
  extract_lets +onlyGivenNames x3
  refine KNext.ite ?_ ?_
  · refine KNext.mk ?_
    exact k1
  · refine KNext.ite ?_ ?_
    · refine KNext.mk ?_
      refine Keeps.trans ?_ (State.evtDie_keeps _ _ _)
      refine Keeps.trans ?_ (State.fputAt_keeps _ _ _ _ _)
      exact k1
    · refine KNext.ite ?_ ?_
      · refine KNext.mk ?_
        refine Keeps.trans ?_ (State.fputAt_keeps _ _ _ _ _)
        exact k1
      · refine KNext.mk ?_
        exact k1

theorem execMemInject_keeps (d : Nat) (via : Via) (s : State) : KNext 0x7FFFFFBFEF s (execMemInject d via s) := by
  unfold execMemInject
  refine KNext.mk ?_
  refine Keeps.tr ?_ (regWrite_keeps _ _ _ _ (fun v0 => ?_))
  · exact Keeps.refl _
  · extract_lets +onlyGivenNames x1
    extract_lets +onlyGivenNames x2
    extract_lets +onlyGivenNames x3
    refine Keeps.ite ?_ ?_
    · exact Keeps.refl _
    · extract_lets +onlyGivenNames x4
      refine Keeps.cut (b := x4) ?_ ?_
      · unfold x4
        refine Keeps.ite ?_ ?_
        · refine Keeps.trans ?_ (State.pmc_keeps _ _ _ _ _ _)
          refine Keeps.trans ?_ (State.fadd_keeps _ _ _ _)
          exact Keeps.refl _
        · split
          · rename_i z5 z6 z7 z8
            refine Keeps.cut (b := z7) ?_ ?_
            · refine KSnd.eq z8 ?_
              refine KSnd.trans ?_ (State.draw_keeps _)
              exact Keeps.refl _
            intro k9
            refine Keeps.trans ?_ (State.noteUe_keeps _ _ _ _ _)
            exact k9
      intro k10
      clear_value x4
      refine Keeps.trans ?_ (State.evtDie_keeps _ _ _)
      exact k10

end Sys2Proof.Machine
end

