-- ==== Sys2Proof/Laws/KeepsSummary.lean ====
section
/-!
SUPPORT. Sys2Proof/Laws/KeepsSummary.lean: each operation of Machine/Summary.lean keeps what `Keeps` says, with the parts of the state it may
touch.
-/
namespace Sys2Proof.Machine
set_option Elab.async false

theorem State.takeResync_keeps (s : State) (f : Nat) : Keeps 0x4408069 s (State.takeResync s f) := by
  unfold State.takeResync
  split
  · rename_i z0 z1
    exact Keeps.refl _
  · rename_i z2 z3 z4 z5
    extract_lets +onlyGivenNames x6
    extract_lets +onlyGivenNames x7
    extract_lets +onlyGivenNames x8
    refine Keeps.cut (b := x8) ?_ ?_
    · unfold x8
      refine Keeps.trans ?_ (State.modFn_keeps _ _ _)
      exact Keeps.refl _
    intro k9
    clear_value x8
    extract_lets +onlyGivenNames x10
    refine Keeps.cut (b := x10) ?_ ?_
    · unfold x10
      refine Keeps.ite ?_ ?_
      · refine Keeps.trans ?_ (State.modPart_keeps _ _ _)
        exact k9
      · exact k9
    intro k11
    clear_value x10
    split
    · rename_i z12 z13 z14 z15
      refine Keeps.trans ?_ (State.completeKey_keeps _ _ _ _ _)
      refine Keeps.trans ?_ (State.descWrite_keeps _ _ _ _)
      exact k11

end Sys2Proof.Machine
end

