-- ==== Sys2Proof/Laws/KeepsTicks.lean ====
section
/-!
SUPPORT. Sys2Proof/Laws/KeepsTicks.lean: each operation of Machine/Ticks.lean keeps what `Keeps` says, with the parts of the state it may
touch.
-/
namespace Sys2Proof.Machine
set_option Elab.async false

theorem execTikPeriodEnWrite_keeps (p : Nat) (en : Bool) (via : Via) (s : State) : KNext 0x600040 s (execTikPeriodEnWrite p en via s) := by
  unfold execTikPeriodEnWrite
  refine KNext.mk ?_
  refine Keeps.ite ?_ ?_
  · refine Keeps.tr ?_ (regWrite_keeps _ _ _ _ (fun v0 => ?_))
    · exact Keeps.refl _
    · refine Keeps.trans ?_ (State.fput_keeps _ _ _ _)
      exact Keeps.refl _
  · exact Keeps.refl _

theorem State.writePeriod_keeps (s : State) (p n slots : Nat) : Keeps 0x200021 s (State.writePeriod s p n slots) := by
  unfold State.writePeriod
  refine Keeps.ite ?_ ?_
  · exact Keeps.refl _
  · extract_lets +onlyGivenNames x0
    refine Keeps.cut (b := x0) ?_ ?_
    · unfold x0
      refine Keeps.ite ?_ ?_
      · refine Keeps.trans ?_ (State.fset_keeps _ _ _ _)
        exact Keeps.refl _
      · refine Keeps.trans ?_ (State.evtPkg_keeps _ _)
        exact Keeps.refl _
    intro k1
    clear_value x0
    extract_lets +onlyGivenNames x2
    refine Keeps.cut (b := x2) ?_ ?_
    · unfold x2
      refine Keeps.trans ?_ (State.fset_keeps _ _ _ _)
      exact k1
    intro k3
    clear_value x2
    refine Keeps.ite ?_ ?_
    · refine Keeps.trans ?_ (State.modPart_keeps _ _ _)
      exact k3
    · refine Keeps.trans ?_ (State.takePeriod_keeps _ _)
      exact k3

theorem execTikPeriodWrite_keeps (p n slots t : Nat) (via : Via) (s : State) : KNext 0x600071 s (execTikPeriodWrite p n slots t via s) := by
  unfold execTikPeriodWrite
  extract_lets +onlyGivenNames x0
  refine KNext.cut (b := x0) ?_ ?_
  · unfold x0
    refine Keeps.trans ?_ (State.advanceTo_keeps _ _)
    exact Keeps.refl _
  intro k1
  clear_value x0
  refine KNext.mk ?_
  refine Keeps.ite ?_ ?_
  · refine Keeps.tr ?_ (regWrite_keeps _ _ _ _ (fun v2 => ?_))
    · exact k1
    · refine Keeps.trans ?_ (State.writePeriod_keeps _ _ _ _)
      exact Keeps.refl _
  · exact k1

theorem State.periodDue_keeps (s : State) (p : Nat) : Keeps 0x20 s (State.periodDue s p) := by
  unfold State.periodDue
  extract_lets +onlyGivenNames x0
  extract_lets +onlyGivenNames x1
  refine Keeps.ite ?_ ?_
  · refine Keeps.trans ?_ (State.takePeriod_keeps _ _)
    exact Keeps.refl _
  · exact Keeps.refl _

theorem execPeriodChangeApply_keeps (p t : Nat) (s : State) : KNext 0x200030 s (execPeriodChangeApply p t s) := by
  unfold execPeriodChangeApply
  extract_lets +onlyGivenNames x0
  refine KNext.cut (b := x0) ?_ ?_
  · unfold x0
    refine Keeps.trans ?_ (State.advanceTo_keeps _ _)
    exact Keeps.refl _
  intro k1
  clear_value x0
  refine KNext.mk ?_
  refine Keeps.ite ?_ ?_
  · refine Keeps.trans ?_ (State.periodDue_keeps _ _)
    exact k1
  · exact k1

theorem State.retrySeals_keeps (s : State) (d : Nat) : Keeps 0x102 s (State.retrySeals s d) := by
  unfold State.retrySeals
  refine Keeps.foldl _ _ (fun s0 y1 => ?_) ?_
  · split
    · rename_i z2 z3 z4 z5
      refine Keeps.foldl _ _ (fun s6 y7 => ?_) ?_
      · refine Keeps.ite ?_ ?_
        · refine Keeps.trans ?_ (State.startSeal_keeps _ _ _ _)
          exact Keeps.refl _
        · exact Keeps.refl _
      · exact Keeps.refl _
    · rename_i z8 z9
      refine Keeps.trans ?_ (State.modPfx_keeps _ _ _)
      exact Keeps.refl _
  · exact Keeps.refl _

theorem State.retryChunks_keeps (s : State) (d : Nat) : Keeps 0x6E440AFEB s (State.retryChunks s d) := by
  unfold State.retryChunks
  refine Keeps.foldl _ _ (fun s0 y1 => ?_) ?_
  · refine Keeps.trans ?_ (State.tryChunk_keeps _ _ _)
    exact Keeps.refl _
  · exact Keeps.refl _

theorem State.retryAllocs_keeps (s : State) (d : Nat) : Keeps 0x7E440AFEB s (State.retryAllocs s d) := by
  unfold State.retryAllocs
  extract_lets +onlyGivenNames x0
  refine Keeps.cut (b := x0) ?_ ?_
  · unfold x0
    refine Keeps.trans ?_ (State.retryChunks_keeps _ _)
    refine Keeps.trans ?_ (State.retrySeals_keeps _ _)
    refine Keeps.trans ?_ (State.retryTasks_keeps _ _)
    exact Keeps.refl _
  intro k1
  clear_value x0
  refine Keeps.trans ?_ (State.retryEdits_keeps _ _ _)
  exact k1

theorem State.resetIfDue_keeps (s : State) (p : Nat) : Keeps 0x7FFFF8BFED s (State.resetIfDue s p) := by
  unfold State.resetIfDue
  refine Keeps.ite ?_ ?_
  · refine Keeps.trans ?_ (State.resetPtn_keeps _ _)
    exact Keeps.refl _
  · exact Keeps.refl _

theorem State.admitAll_keeps (s : State) (p t : Nat) : Keeps 0x7E660EFEB s (State.admitAll s p t) := by
  unfold State.admitAll
  refine Keeps.ite ?_ ?_
  · refine Keeps.trans ?_ (State.removalStop_keeps _ _ _)
    exact Keeps.refl _
  · refine Keeps.ite ?_ ?_
    · exact Keeps.refl _
    · refine Keeps.foldl _ _ (fun s0 y1 => ?_) ?_
      · refine Keeps.trans ?_ (State.admitDie_keeps _ _ _ _)
        exact Keeps.refl _
      · exact Keeps.refl _

theorem execSlotBoundary_keeps (p t : Nat) (s : State) : KNext 0x7FFFF8FFFF s (execSlotBoundary p t s) := by
  unfold execSlotBoundary
  extract_lets +onlyGivenNames x0
  refine KNext.cut (b := x0) ?_ ?_
  · unfold x0
    refine Keeps.trans ?_ (State.advanceTo_keeps _ _)
    exact Keeps.refl _
  intro k1
  clear_value x0
  extract_lets +onlyGivenNames x2
  extract_lets +onlyGivenNames x3
  extract_lets +onlyGivenNames x4
  refine KNext.ite ?_ ?_
  · refine KNext.mk ?_
    exact k1
  · extract_lets +onlyGivenNames x5
    refine KNext.cut (b := x5) ?_ ?_
    · unfold x5
      refine Keeps.trans ?_ (State.modPart_keeps _ _ _)
      exact k1
    intro k6
    clear_value x5
    extract_lets +onlyGivenNames x7
    refine KNext.cut (b := x7) ?_ ?_
    · unfold x7
      refine Keeps.trans ?_ (State.applyWrites_keeps _ _ _)
      exact k6
    intro k8
    clear_value x7
    extract_lets +onlyGivenNames x9
    refine KNext.cut (b := x9) ?_ ?_
    · unfold x9
      refine Keeps.foldl _ _ (fun s10 y11 => ?_) ?_
      · refine Keeps.trans ?_ (State.retryAllocs_keeps _ _)
        exact Keeps.refl _
      · exact k8
    intro k12
    clear_value x9
    refine KNext.mk ?_
    refine Keeps.trans ?_ (State.resetIfDue_keeps _ _)
    refine Keeps.trans ?_ (State.admitAll_keeps _ _ _)
    exact k12

theorem State.clearSums_keeps (s : State) (p : Nat) : Keeps 0x80 s (State.clearSums s p) := by
  unfold State.clearSums
  refine Keeps.foldl _ _ (fun s0 y1 => ?_) ?_
  · refine Keeps.trans ?_ (State.modCsm_keeps _ _ _)
    exact Keeps.refl _
  · exact Keeps.refl _

theorem State.updateScale_keeps (s : State) (p : Nat) : Keeps 0x6080C1 s (State.updateScale s p) := by
  unfold State.updateScale
  extract_lets +onlyGivenNames x0
  extract_lets +onlyGivenNames x1
  extract_lets +onlyGivenNames x2
  extract_lets +onlyGivenNames x3
  refine Keeps.cut (b := x3) ?_ ?_
  · unfold x3
    refine Keeps.trans ?_ (State.clearSums_keeps _ _)
    exact Keeps.refl _
  intro k4
  clear_value x3
  refine Keeps.ite ?_ ?_
  · exact k4
  · extract_lets +onlyGivenNames x5
    extract_lets +onlyGivenNames x6
    extract_lets +onlyGivenNames x7
    extract_lets +onlyGivenNames x8
    extract_lets +onlyGivenNames x9
    extract_lets +onlyGivenNames x10
    refine Keeps.cut (b := x10) ?_ ?_
    · unfold x10
      refine Keeps.trans ?_ (State.fset_keeps _ _ _ _)
      exact k4
    intro k11
    clear_value x10
    refine Keeps.ite ?_ ?_
    · extract_lets +onlyGivenNames x12
      refine Keeps.cut (b := x12) ?_ ?_
      · unfold x12
        refine Keeps.trans ?_ (State.fadd_keeps _ _ _ _)
        exact k11
      intro k13
      clear_value x12
      refine Keeps.trans ?_ (State.partEvent_keeps _ _ _ _ _)
      exact k13
    · exact k11

theorem State.ftlTick_keeps (s : State) (d : Nat) : Keeps 0x204408469 s (State.ftlTick s d) := by
  unfold State.ftlTick
  extract_lets +onlyGivenNames x0
  extract_lets +onlyGivenNames x1
  refine Keeps.cut (b := x1) ?_ ?_
  · unfold x1
    refine Keeps.trans ?_ (State.resumeTasks_keeps _ _)
    refine Keeps.trans ?_ (State.modFtl_keeps _ _ _)
    exact Keeps.refl _
  intro k2
  clear_value x1
  extract_lets +onlyGivenNames x3
  refine Keeps.cut (b := x3) ?_ ?_
  · unfold x3
    refine Keeps.foldl _ _ (fun s4 y5 => ?_) ?_
    · refine Keeps.trans ?_ (State.postHealth_keeps _ _ _ _ _ _)
      exact Keeps.refl _
    · exact k2
  intro k6
  clear_value x3
  extract_lets +onlyGivenNames x7
  refine Keeps.cut (b := x7) ?_ ?_
  · unfold x7
    refine Keeps.trans ?_ (State.serve_keeps _ _)
    refine Keeps.trans ?_ (State.gcAdvance_keeps _ _)
    refine Keeps.trans ?_ (State.keysHere_keeps _ _)
    exact k6
  intro k8
  clear_value x7
  refine Keeps.ite ?_ ?_
  · refine Keeps.trans ?_ (State.patrolLag_keeps _ _)
    exact k8
  · exact k8

theorem State.park_keeps (s : State) (d : Nat) : Keeps 0x40004080C9 s (State.park s d) := by
  unfold State.park
  extract_lets +onlyGivenNames x0
  extract_lets +onlyGivenNames x1
  refine Keeps.cut (b := x1) ?_ ?_
  · unfold x1
    refine Keeps.trans ?_ (State.modCsm_keeps _ _ _)
    exact Keeps.refl _
  intro k2
  clear_value x1
  refine Keeps.ite ?_ ?_
  · refine Keeps.trans ?_ (State.powerTo_keeps _ _ _ _)
    exact k2
  · exact k2

theorem State.measure_keeps (s : State) (d : Nat) : Keeps 0x100000400 s (State.measure s d) := by
  unfold State.measure
  extract_lets +onlyGivenNames x0
  extract_lets +onlyGivenNames x1
  extract_lets +onlyGivenNames x2
  refine Keeps.cut (b := x2) ?_ ?_
  · unfold x2
    refine Keeps.trans ?_ (State.fset_keeps _ _ _ _)
    exact Keeps.refl _
  intro k3
  clear_value x2
  refine Keeps.trans ?_ (State.modFtl_keeps _ _ _)
  exact k3

theorem State.postRegs_keeps (s : State) (p : Nat) : Keeps 0x408069 s (State.postRegs s p) := by
  unfold State.postRegs
  extract_lets +onlyGivenNames x0
  extract_lets +onlyGivenNames x1
  extract_lets +onlyGivenNames x2
  extract_lets +onlyGivenNames x3
  refine Keeps.cut (b := x3) ?_ ?_
  · unfold x3
    refine Keeps.evNew ?_ _ (trising_tfilter _ _)
    exact Keeps.refl _
  intro k4
  clear_value x3
  extract_lets +onlyGivenNames x5
  refine Keeps.cut (b := x5) ?_ ?_
  · unfold x5
    refine Keeps.trans ?_ (State.modPart_keeps _ _ _)
    exact k4
  intro k6
  clear_value x5
  extract_lets +onlyGivenNames x7
  extract_lets +onlyGivenNames x8
  refine Keeps.cut (b := x8) ?_ ?_
  · unfold x8
    refine Keeps.foldl _ _ (fun s9 y10 => ?_) ?_
    · unfold x7
      extract_lets +onlyGivenNames x11
      split
      · rename_i z12 z13 z14
        refine Keeps.trans ?_ (State.partEvent_keeps _ _ _ _ _)
        exact Keeps.refl _
      · rename_i z15 z16
        refine Keeps.trans ?_ (State.partEvent_keeps _ _ _ _ _)
        exact Keeps.refl _
    · refine Keeps.foldl _ _ (fun s17 y18 => ?_) ?_
      · unfold x7
        extract_lets +onlyGivenNames x19
        split
        · rename_i z20 z21 z22
          refine Keeps.trans ?_ (State.partEvent_keeps _ _ _ _ _)
          exact Keeps.refl _
        · rename_i z23 z24
          refine Keeps.trans ?_ (State.partEvent_keeps _ _ _ _ _)
          exact Keeps.refl _
      · exact k6
  intro k25
  clear_value x8
  refine Keeps.foldl _ _ (fun s26 y27 => ?_) ?_
  · extract_lets +onlyGivenNames x28
    refine Keeps.ite ?_ ?_
    · exact Keeps.refl _
    · refine Keeps.trans ?_ (State.raiseEvent_keeps _ _ _ _ _)
      refine Keeps.trans ?_ (State.modFn_keeps _ _ _)
      exact Keeps.refl _
  · exact k25

theorem State.stopGen_keeps (s : State) (p : Nat) : Keeps 0x42640ABED s (State.stopGen s p) := by
  unfold State.stopGen
  extract_lets +onlyGivenNames x0
  refine Keeps.cut (b := x0) ?_ ?_
  · unfold x0
    refine Keeps.trans ?_ (State.modPart_keeps _ _ _)
    refine Keeps.trans ?_ (State.applyWrites_keeps _ _ _)
    exact Keeps.refl _
  intro k1
  clear_value x0
  extract_lets +onlyGivenNames x2
  refine Keeps.cut (b := x2) ?_ ?_
  · unfold x2
    refine Keeps.trans ?_ (State.takePeriod_keeps _ _)
    exact k1
  intro k3
  clear_value x2
  refine Keeps.foldl _ _ (fun s4 y5 => ?_) ?_
  · extract_lets +onlyGivenNames x6
    extract_lets +onlyGivenNames x7
    refine Keeps.cut (b := x7) ?_ ?_
    · unfold x7
      refine Keeps.trans ?_ (State.modCsm_keeps _ _ _)
      exact Keeps.refl _
    intro k8
    clear_value x7
    refine Keeps.foldl _ _ (fun s9 y10 => ?_) ?_
    · refine Keeps.trans ?_ (State.failHeld_keeps _ _ _ _)
      exact Keeps.refl _
    · exact k8
  · exact k3

theorem State.tickSteps_keeps (s : State) (p tick t : Nat) : Keeps 0x47E662EFEF s (State.tickSteps s p tick t) := by
  unfold State.tickSteps
  extract_lets +onlyGivenNames x0
  extract_lets +onlyGivenNames x1
  extract_lets +onlyGivenNames x2
  extract_lets +onlyGivenNames x3
  refine Keeps.cut (b := x3) ?_ ?_
  · unfold x3
    refine Keeps.trans ?_ (State.modPart_keeps _ _ _)
    exact Keeps.refl _
  intro k4
  clear_value x3
  extract_lets +onlyGivenNames x5
  extract_lets +onlyGivenNames x6
  refine Keeps.cut (b := x6) ?_ ?_
  · unfold x6
    refine Keeps.pwr ?_ _
    exact k4
  intro k7
  clear_value x6
  extract_lets +onlyGivenNames x8
  refine Keeps.cut (b := x8) ?_ ?_
  · unfold x8
    refine Keeps.trans ?_ (State.applyWrites_keeps _ _ _)
    exact k7
  intro k9
  clear_value x8
  extract_lets +onlyGivenNames x10
  refine Keeps.cut (b := x10) ?_ ?_
  · unfold x10
    refine Keeps.foldl _ _ (fun s11 y12 => ?_) ?_
    · refine Keeps.trans ?_ (State.tombClean_keeps _ _)
      refine Keeps.trans ?_ (State.advanceEpoch_keeps _ _ _)
      exact Keeps.refl _
    · exact k9
  intro k13
  clear_value x10
  extract_lets +onlyGivenNames x14
  refine Keeps.cut (b := x14) ?_ ?_
  · unfold x14
    refine Keeps.foldl _ _ (fun s15 y16 => ?_) ?_
    · refine Keeps.trans ?_ (State.fset_keeps _ _ _ _)
      exact Keeps.refl _
    · exact k13
  intro k17
  clear_value x14
  extract_lets +onlyGivenNames x18
  refine Keeps.cut (b := x18) ?_ ?_
  · unfold x18
    refine Keeps.trans ?_ (State.updateScale_keeps _ _)
    exact k17
  intro k19
  clear_value x18
  extract_lets +onlyGivenNames x20
  refine Keeps.cut (b := x20) ?_ ?_
  · unfold x20
    refine Keeps.trans ?_ (State.applyWrites_keeps _ _ _)
    exact k19
  intro k21
  clear_value x20
  extract_lets +onlyGivenNames x22
  refine Keeps.cut (b := x22) ?_ ?_
  · unfold x22
    refine Keeps.ite ?_ ?_
    · exact k21
    · refine Keeps.foldl _ _ (fun s23 y24 => ?_) ?_
      · refine Keeps.trans ?_ (State.carryOver_keeps _ _ _ _ _)
        exact Keeps.refl _
      · exact k21
  intro k25
  clear_value x22
  extract_lets +onlyGivenNames x26
  refine Keeps.cut (b := x26) ?_ ?_
  · unfold x26
    refine Keeps.foldl _ _ (fun s27 y28 => ?_) ?_
    · extract_lets +onlyGivenNames x29
      refine Keeps.cut (b := x29) ?_ ?_
      · unfold x29
        refine Keeps.trans ?_ (State.modStg_keeps _ _ _)
        exact Keeps.refl _
      intro k30
      clear_value x29
      refine Keeps.trans ?_ (State.retryAllocs_keeps _ _)
      refine Keeps.trans ?_ (State.missHints_keeps _ _ _)
      refine Keeps.trans ?_ (State.poolCheck_keeps _ _)
      refine Keeps.trans ?_ (State.measure_keeps _ _)
      exact k30
    · exact k25
  intro k31
  clear_value x26
  extract_lets +onlyGivenNames x32
  refine Keeps.cut (b := x32) ?_ ?_
  · unfold x32
    refine Keeps.trans ?_ (State.admitAll_keeps _ _ _)
    exact k31
  intro k33
  clear_value x32
  refine Keeps.foldl _ _ (fun s34 y35 => ?_) ?_
  · refine Keeps.trans ?_ (State.park_keeps _ _)
    exact Keeps.refl _
  · exact k33

theorem execTickBoundary_keeps (p t : Nat) (s : State) : KNext 0x7FFFFBFFFF s (execTickBoundary p t s) := by
  unfold execTickBoundary
  extract_lets +onlyGivenNames x0
  refine KNext.cut (b := x0) ?_ ?_
  · unfold x0
    refine Keeps.trans ?_ (State.advanceTo_keeps _ _)
    exact Keeps.refl _
  intro k1
  clear_value x0
  refine KNext.ite ?_ ?_
  · refine KNext.mk ?_
    exact k1
  · extract_lets +onlyGivenNames x2
    refine KNext.cut (b := x2) ?_ ?_
    · unfold x2
      refine Keeps.trans ?_ (State.periodDue_keeps _ _)
      exact k1
    intro k3
    clear_value x2
    extract_lets +onlyGivenNames x4
    extract_lets +onlyGivenNames x5
    refine KNext.ite ?_ ?_
    · refine KNext.mk ?_
      exact k3
    · extract_lets +onlyGivenNames x6
      extract_lets +onlyGivenNames x7
      refine KNext.cut (b := x7) ?_ ?_
      · unfold x7
        refine Keeps.trans ?_ (State.pmcEdge_keeps _ _ _ _)
        exact k3
      intro k8
      clear_value x7
      extract_lets +onlyGivenNames x9
      extract_lets +onlyGivenNames x10
      refine KNext.cut (b := x10) ?_ ?_
      · unfold x10
        refine Keeps.foldl _ _ (fun s11 y12 => ?_) ?_
        · refine Keeps.trans ?_ (State.ftlTick_keeps _ _)
          refine Keeps.trans ?_ (State.ueTick_keeps _ _)
          refine Keeps.trans ?_ (State.nrtTick_keeps _ _)
          exact Keeps.refl _
        · exact k8
      intro k13
      clear_value x10
      extract_lets +onlyGivenNames x14
      refine KNext.cut (b := x14) ?_ ?_
      · unfold x14
        refine Keeps.ite ?_ ?_
        · refine Keeps.trans ?_ (State.tickSteps_keeps _ _ _ _)
          exact k13
        · refine Keeps.ite ?_ ?_
          · refine Keeps.trans ?_ (State.clearSums_keeps _ _)
            refine Keeps.trans ?_ (State.stopGen_keeps _ _)
            exact k13
          · refine Keeps.trans ?_ (State.clearSums_keeps _ _)
            exact k13
      intro k15
      clear_value x14
      extract_lets +onlyGivenNames x16
      refine KNext.cut (b := x16) ?_ ?_
      · unfold x16
        refine Keeps.trans ?_ (State.resetIfDue_keeps _ _)
        exact k15
      intro k17
      clear_value x16
      extract_lets +onlyGivenNames x18
      refine KNext.cut (b := x18) ?_ ?_
      · unfold x18
        refine Keeps.trans ?_ (State.postRegs_keeps _ _)
        exact k17
      intro k19
      clear_value x18
      refine KNext.mk ?_
      refine Keeps.trans ?_ (State.takeResync_keeps _ _)
      refine Keeps.trans ?_ (State.takeResync_keeps _ _)
      exact k19

theorem idle_keeps (s : State) : Keeps 0x200010 s (idle s) := by
  unfold idle
  extract_lets +onlyGivenNames x0
  refine Keeps.cut (b := x0) ?_ ?_
  · unfold x0
    refine Keeps.trans ?_ (State.holdCount_keeps _ _)
    exact Keeps.refl _
  intro k1
  clear_value x0
  refine Keeps.clk ?_ _
  exact k1

end Sys2Proof.Machine
end

