-- ==== Sys2Proof/Laws/KeepsRegAccess.lean ====
section
/-!
SUPPORT. Sys2Proof/Laws/KeepsRegAccess.lean: each operation of Machine/RegAccess.lean keeps what `Keeps` says, with the parts of the state it may
touch.
-/
namespace Sys2Proof.Machine
set_option Elab.async false

theorem State.setField_keeps (s : State) (F : Fld) (i v : Nat) : Keeps 0x7FFFFFFFFF s (State.setField s F i v) := by
  unfold State.setField
  refine Keeps.ite ?_ ?_
  · refine Keeps.trans ?_ (State.fset_keeps _ _ _ _)
    exact Keeps.refl _
  · refine Keeps.ite ?_ ?_
    · refine Keeps.trans ?_ (State.fsetLater_keeps _ _ _ _)
      exact Keeps.refl _
    · refine Keeps.ite ?_ ?_
      · refine Keeps.trans ?_ (State.fsetWhen_keeps _ _ _ _)
        exact Keeps.refl _
      · refine Keeps.trans ?_ (State.fset_keeps _ _ _ _)
        exact Keeps.refl _

theorem State.writeField_keeps (s : State) (via : Via) (off i k w : Nat) (r : FldRow) : Keeps 0x7FFFFFFFFF s (State.writeField s via off i k w r) := by
  unfold State.writeField
  extract_lets +onlyGivenNames x0
  extract_lets +onlyGivenNames x1
  split
  · rename_i z2 z3
    exact Keeps.refl _
  · rename_i z4 z5
    exact Keeps.refl _
  · rename_i z6 z7
    refine Keeps.ite ?_ ?_
    · exact Keeps.refl _
    · refine Keeps.trans ?_ (State.fset_keeps _ _ _ _)
      exact Keeps.refl _
  · rename_i z8 z9
    refine Keeps.ite ?_ ?_
    · exact Keeps.refl _
    · refine Keeps.ite ?_ ?_
      · refine Keeps.trans ?_ (State.setField_keeps _ _ _ _)
        exact Keeps.refl _
      · refine Keeps.trans ?_ (State.badField_keeps _ _ _)
        exact Keeps.refl _
  · rename_i z10 z11
    refine Keeps.ite ?_ ?_
    · refine Keeps.trans ?_ (State.setField_keeps _ _ _ _)
      exact Keeps.refl _
    · refine Keeps.trans ?_ (State.badField_keeps _ _ _)
      exact Keeps.refl _

theorem State.writeFields_keeps (s : State) (via : Via) (off i k w : Nat) (skip : List Fld) (l : List FldRow) : Keeps 0x7FFFFFFFFF s (State.writeFields s via off i k w skip l) := by
  unfold State.writeFields
  refine Keeps.foldl _ _ (fun s0 y1 => ?_) ?_
  · refine Keeps.ite ?_ ?_
    · exact Keeps.refl _
    · refine Keeps.trans ?_ (State.writeField_keeps _ _ _ _ _ _ _)
      exact Keeps.refl _
  · exact Keeps.refl _

theorem stateOf_keeps {m : Nat} (s : State) (o : Host.Outcome State Fault Refusal) (h : KNext m s o) : Keeps m s (stateOf s o) := by
  unfold stateOf
  split
  · exact h _ rfl
  · exact Keeps.refl _

theorem State.onBit_keeps {m : Nat} (s : State) (w n : Nat) (go : State → Host.Outcome State Fault Refusal) (hgo : ∀ a0, KNext m a0 (go a0)) : Keeps m s (State.onBit s w n go) := by
  unfold State.onBit
  refine Keeps.ite ?_ ?_
  · refine Keeps.tr ?_ (stateOf_keeps _ _ ?_)
    · exact Keeps.refl _
    · refine KNext.tr ?_ (hgo _)
      exact Keeps.refl _
  · exact Keeps.refl _

theorem State.actPkg_keeps (s : State) (via : Via) (F : Fld) (w : Nat) : Keeps 0x7FFFFFFFFF s (State.actPkg s via F w) := by
  unfold State.actPkg
  refine Keeps.ite ?_ ?_
  · refine Keeps.tr ?_ (State.onBit_keeps _ _ _ _ (fun v0 => ?_))
    · exact Keeps.refl _
    · refine KNext.trans ?_ (execStepNow_keeps _ _)
      exact Keeps.refl _
  · refine Keeps.ite ?_ ?_
    · refine Keeps.ite ?_ ?_
      · refine Keeps.trans ?_ (State.fset_keeps _ _ _ _)
        exact Keeps.refl _
      · refine Keeps.ite ?_ ?_
        · refine Keeps.tr ?_ (stateOf_keeps _ _ ?_)
          · exact Keeps.refl _
          · refine KNext.trans ?_ (execDiscEnClear_keeps _ _)
            exact Keeps.refl _
        · exact Keeps.refl _
    · refine Keeps.ite ?_ ?_
      · refine Keeps.ite ?_ ?_
        · refine Keeps.tr ?_ (stateOf_keeps _ _ ?_)
          · exact Keeps.refl _
          · refine KNext.trans ?_ (execRasUnitFenceCmd_keeps _ _)
            exact Keeps.refl _
        · refine Keeps.ite ?_ ?_
          · refine Keeps.tr ?_ (stateOf_keeps _ _ ?_)
            · exact Keeps.refl _
            · refine KNext.trans ?_ (execRasUnitTestCmd_keeps _ _)
              exact Keeps.refl _
          · exact Keeps.refl _
      · refine Keeps.ite ?_ ?_
        · refine Keeps.tr ?_ (State.onBit_keeps _ _ _ _ (fun v1 => ?_))
          · exact Keeps.refl _
          · refine KNext.trans ?_ (execMinClr_keeps _ _)
            exact Keeps.refl _
        · refine Keeps.ite ?_ ?_
          · refine Keeps.tr ?_ (State.onBit_keeps _ _ _ _ (fun v2 => ?_))
            · exact Keeps.refl _
            · refine KNext.trans ?_ (execPackageWarmReset_keeps _ _ _ _)
              exact Keeps.refl _
          · refine Keeps.ite ?_ ?_
            · refine Keeps.ite ?_ ?_
              · exact Keeps.refl _
              · refine Keeps.tr ?_ (stateOf_keeps _ _ ?_)
                · exact Keeps.refl _
                · refine KNext.trans ?_ (execPackageFreeze_keeps _ _ _)
                  exact Keeps.refl _
            · exact Keeps.refl _

theorem State.actPart_keeps (s : State) (via : Via) (F : Fld) (i w : Nat) : Keeps 0x7FFFFFFFFF s (State.actPart s via F i w) := by
  unfold State.actPart
  refine Keeps.ite ?_ ?_
  · refine Keeps.trans ?_ (State.writePeriod_keeps _ _ _ _)
    exact Keeps.refl _
  · refine Keeps.ite ?_ ?_
    · refine Keeps.tr ?_ (stateOf_keeps _ _ ?_)
      · exact Keeps.refl _
      · refine KNext.trans ?_ (execTikPeriodEnWrite_keeps _ _ _ _)
        exact Keeps.refl _
    · refine Keeps.ite ?_ ?_
      · refine Keeps.tr ?_ (stateOf_keeps _ _ ?_)
        · exact Keeps.refl _
        · refine KNext.trans ?_ (execHrgEnWrite_keeps _ _ _ _)
          exact Keeps.refl _
      · refine Keeps.ite ?_ ?_
        · refine Keeps.tr ?_ (stateOf_keeps _ _ ?_)
          · exact Keeps.refl _
          · refine KNext.trans ?_ (execPtnBindWrite_keeps _ _ _)
            exact Keeps.refl _
        · refine Keeps.ite ?_ ?_
          · refine Keeps.tr ?_ (stateOf_keeps _ _ ?_)
            · exact Keeps.refl _
            · refine KNext.trans ?_ (execPtnDiesWrite_keeps _ _ _)
              exact Keeps.refl _
          · refine Keeps.ite ?_ ?_
            · refine Keeps.tr ?_ (State.onBit_keeps _ _ _ _ (fun v0 => ?_))
              · exact Keeps.refl _
              · refine KNext.trans ?_ (execSeal_keeps _ _)
                exact Keeps.refl _
            · refine Keeps.ite ?_ ?_
              · refine Keeps.tr ?_ (State.onBit_keeps _ _ _ _ (fun v1 => ?_))
                · exact Keeps.refl _
                · refine KNext.trans ?_ (execPartitionReset_keeps _ _ _)
                  exact Keeps.refl _
              · refine Keeps.ite ?_ ?_
                · refine Keeps.ite ?_ ?_
                  · exact Keeps.refl _
                  · refine Keeps.tr ?_ (stateOf_keeps _ _ ?_)
                    · exact Keeps.refl _
                    · refine KNext.trans ?_ (execPartitionFreeze_keeps _ _ _ _)
                      exact Keeps.refl _
                · refine Keeps.ite ?_ ?_
                  · refine Keeps.tr ?_ (stateOf_keeps _ _ ?_)
                    · exact Keeps.refl _
                    · refine KNext.trans ?_ (execPmcTagSeedWrite_keeps _ _ _ _)
                      exact Keeps.refl _
                  · refine Keeps.ite ?_ ?_
                    · refine Keeps.ite ?_ ?_
                      · exact Keeps.refl _
                      · refine Keeps.tr ?_ (stateOf_keeps _ _ ?_)
                        · exact Keeps.refl _
                        · refine KNext.trans ?_ (execPmcTraceEnWrite_keeps _ _ _ _)
                          exact Keeps.refl _
                    · refine Keeps.ite ?_ ?_
                      · refine Keeps.tr ?_ (State.onBit_keeps _ _ _ _ (fun v2 => ?_))
                        · exact Keeps.refl _
                        · refine KNext.trans ?_ (execPeakClr_keeps _ _ _)
                          exact Keeps.refl _
                      · refine Keeps.ite ?_ ?_
                        · refine Keeps.tr ?_ (stateOf_keeps _ _ ?_)
                          · exact Keeps.refl _
                          · refine KNext.trans ?_ (execPmcIdxWrite_keeps _ _ _ _)
                            exact Keeps.refl _
                        · refine Keeps.ite ?_ ?_
                          · refine Keeps.tr ?_ (stateOf_keeps _ _ ?_)
                            · exact Keeps.refl _
                            · refine KNext.trans ?_ (execPmcValueWrite_keeps _ _ _ _)
                              exact Keeps.refl _
                          · refine Keeps.ite ?_ ?_
                            · refine Keeps.trans ?_ (State.writeEvsel_keeps _ _ _)
                              exact Keeps.refl _
                            · refine Keeps.ite ?_ ?_
                              · refine Keeps.tr ?_ (State.onBit_keeps _ _ _ _ (fun v3 => ?_))
                                · exact Keeps.refl _
                                · refine KNext.trans ?_ (execHistogramClr_keeps _ _ _)
                                  exact Keeps.refl _
                              · refine Keeps.ite ?_ ?_
                                · refine Keeps.trans ?_ (State.writeHcfg_keeps _ _ _ _)
                                  exact Keeps.refl _
                                · refine Keeps.ite ?_ ?_
                                  · refine Keeps.trans ?_ (State.writeHbase_keeps _ _ _)
                                    exact Keeps.refl _
                                  · exact Keeps.refl _

theorem State.actDie_keeps (s : State) (via : Via) (F : Fld) (d w : Nat) : Keeps 0x7FFFFFFFFF s (State.actDie s via F d w) := by
  unfold State.actDie
  refine Keeps.ite ?_ ?_
  · refine Keeps.ite ?_ ?_
    · exact Keeps.refl _
    · refine Keeps.ite ?_ ?_
      · refine Keeps.tr ?_ (stateOf_keeps _ _ ?_)
        · exact Keeps.refl _
        · refine KNext.trans ?_ (execPfxEnable_keeps _ _ _)
          exact Keeps.refl _
      · refine Keeps.trans ?_ (State.fset_keeps _ _ _ _)
        exact Keeps.refl _
  · refine Keeps.ite ?_ ?_
    · refine Keeps.tr ?_ (stateOf_keeps _ _ ?_)
      · exact Keeps.refl _
      · refine KNext.trans ?_ (execCsmEnWrite_keeps _ _ _ _)
        exact Keeps.refl _
    · refine Keeps.ite ?_ ?_
      · refine Keeps.tr ?_ (stateOf_keeps _ _ ?_)
        · exact Keeps.refl _
        · refine KNext.trans ?_ (execCsmInject_keeps _ _ _ _)
          exact Keeps.refl _
      · refine Keeps.ite ?_ ?_
        · refine Keeps.tr ?_ (stateOf_keeps _ _ ?_)
          · exact Keeps.refl _
          · refine KNext.trans ?_ (execPaneFence_keeps _ _ _ _ _)
            exact Keeps.refl _
        · refine Keeps.ite ?_ ?_
          · refine Keeps.tr ?_ (stateOf_keeps _ _ ?_)
            · exact Keeps.refl _
            · refine KNext.trans ?_ (execAtmInject_keeps _ _ _ _)
              exact Keeps.refl _
          · refine Keeps.ite ?_ ?_
            · refine Keeps.tr ?_ (stateOf_keeps _ _ ?_)
              · exact Keeps.refl _
              · refine KNext.trans ?_ (execAtmFence_keeps _ _ _ _ _)
                exact Keeps.refl _
            · refine Keeps.ite ?_ ?_
              · refine Keeps.tr ?_ (State.onBit_keeps _ _ _ _ (fun v0 => ?_))
                · exact Keeps.refl _
                · refine KNext.trans ?_ (execMemInject_keeps _ _ _)
                  exact Keeps.refl _
              · refine Keeps.ite ?_ ?_
                · refine Keeps.tr ?_ (State.onBit_keeps _ _ _ _ (fun v1 => ?_))
                  · exact Keeps.refl _
                  · refine KNext.trans ?_ (execNrtInject_keeps _ _ _)
                    exact Keeps.refl _
                · refine Keeps.ite ?_ ?_
                  · refine Keeps.tr ?_ (stateOf_keeps _ _ ?_)
                    · exact Keeps.refl _
                    · refine KNext.trans ?_ (execStateReq_keeps _ _ _ _)
                      exact Keeps.refl _
                  · exact Keeps.refl _

theorem State.actLink_keeps (s : State) (via : Via) (F : Fld) (d w : Nat) : Keeps 0x7FFFFFFFFF s (State.actLink s via F d w) := by
  unfold State.actLink
  refine Keeps.ite ?_ ?_
  · refine Keeps.ite ?_ ?_
    · exact Keeps.refl _
    · refine Keeps.trans ?_ (State.fset_keeps _ _ _ _)
      exact Keeps.refl _
  · refine Keeps.ite ?_ ?_
    · refine Keeps.tr ?_ (State.onBit_keeps _ _ _ _ (fun v0 => ?_))
      · exact Keeps.refl _
      · refine KNext.trans ?_ (execFtlInject_keeps _ _ _)
        exact Keeps.refl _
    · refine Keeps.ite ?_ ?_
      · refine Keeps.tr ?_ (State.onBit_keeps _ _ _ _ (fun v1 => ?_))
        · exact Keeps.refl _
        · refine KNext.trans ?_ (execCkptNow_keeps _ _ _)
          exact Keeps.refl _
      · refine Keeps.ite ?_ ?_
        · refine Keeps.tr ?_ (State.onBit_keeps _ _ _ _ (fun v2 => ?_))
          · exact Keeps.refl _
          · refine KNext.trans ?_ (execReclaim_keeps _ _ _)
            exact Keeps.refl _
        · refine Keeps.ite ?_ ?_
          · refine Keeps.tr ?_ (State.onBit_keeps _ _ _ _ (fun v3 => ?_))
            · exact Keeps.refl _
            · refine KNext.trans ?_ (execRelease_keeps _ _ _)
              exact Keeps.refl _
          · refine Keeps.ite ?_ ?_
            · refine Keeps.tr ?_ (stateOf_keeps _ _ ?_)
              · exact Keeps.refl _
              · refine KNext.trans ?_ (execChannelFence_keeps _ _ _ _ _)
                exact Keeps.refl _
            · refine Keeps.ite ?_ ?_
              · refine Keeps.tr ?_ (stateOf_keeps _ _ ?_)
                · exact Keeps.refl _
                · refine KNext.trans ?_ (execLnkEnWrite_keeps _ _ _ _)
                  exact Keeps.refl _
              · refine Keeps.ite ?_ ?_
                · refine Keeps.ite ?_ ?_
                  · exact Keeps.refl _
                  · refine Keeps.ite ?_ ?_
                    · refine Keeps.trans ?_ (State.fput_keeps _ _ _ _)
                      exact Keeps.refl _
                    · refine Keeps.trans ?_ (State.refreshPort_keeps _ _)
                      refine Keeps.trans ?_ (State.fput_keeps _ _ _ _)
                      exact Keeps.refl _
                · refine Keeps.ite ?_ ?_
                  · refine Keeps.tr ?_ (State.onBit_keeps _ _ _ _ (fun v4 => ?_))
                    · exact Keeps.refl _
                    · refine KNext.trans ?_ (execRekeyNow_keeps _ _ _)
                      exact Keeps.refl _
                  · refine Keeps.ite ?_ ?_
                    · refine Keeps.tr ?_ (State.onBit_keeps _ _ _ _ (fun v5 => ?_))
                      · exact Keeps.refl _
                      · refine KNext.trans ?_ (execLatClr_keeps _ _ _)
                        exact Keeps.refl _
                    · refine Keeps.ite ?_ ?_
                      · refine Keeps.tr ?_ (State.onBit_keeps _ _ _ _ (fun v6 => ?_))
                        · exact Keeps.refl _
                        · refine KNext.trans ?_ (execShutterCommit_keeps _ _ _)
                          exact Keeps.refl _
                      · refine Keeps.ite ?_ ?_
                        · refine Keeps.tr ?_ (stateOf_keeps _ _ ?_)
                          · exact Keeps.refl _
                          · refine KNext.trans ?_ (execPolicerCommit_keeps _ _ _ _)
                            exact Keeps.refl _
                        · exact Keeps.refl _

theorem State.act_keeps (s : State) (via : Via) (F : Fld) (i w : Nat) : Keeps 0x7FFFFFFFFF s (State.act s via F i w) := by
  unfold State.act
  refine Keeps.ite ?_ ?_
  · refine Keeps.trans ?_ (State.actLink_keeps _ _ _ _ _)
    exact Keeps.refl _
  · refine Keeps.ite ?_ ?_
    · refine Keeps.trans ?_ (State.actDie_keeps _ _ _ _ _)
      exact Keeps.refl _
    · refine Keeps.ite ?_ ?_
      · refine Keeps.trans ?_ (State.actPkg_keeps _ _ _ _)
        exact Keeps.refl _
      · refine Keeps.trans ?_ (State.actPart_keeps _ _ _ _ _)
        exact Keeps.refl _

theorem State.writeReg_keeps (s : State) (via : Via) (off w : Nat) (r : Reg) (i k : Nat) : Keeps 0x7FFFFFFFFF s (State.writeReg s via off w r i k) := by
  unfold State.writeReg
  refine Keeps.ite ?_ ?_
  · refine Keeps.ite ?_ ?_
    · refine Keeps.trans ?_ (State.badField_keeps _ _ _)
      exact Keeps.refl _
    · exact Keeps.refl _
  · refine Keeps.ite ?_ ?_
    · refine Keeps.ite ?_ ?_
      · exact Keeps.refl _
      · refine Keeps.trans ?_ (State.evtDie_keeps _ _ _)
        exact Keeps.refl _
    · extract_lets +onlyGivenNames x0
      extract_lets +onlyGivenNames x1
      refine Keeps.cut (b := x1) ?_ ?_
      · unfold x1
        refine Keeps.ite ?_ ?_
        · refine Keeps.trans ?_ (State.freezeDue_keeps _)
          exact Keeps.refl _
        · exact Keeps.refl _
      intro k2
      clear_value x1
      extract_lets +onlyGivenNames x3
      refine Keeps.cut (b := x3) ?_ ?_
      · unfold x3
        refine Keeps.ite ?_ ?_
        · refine Keeps.trans ?_ (State.accrueAll_keeps _ _)
          exact k2
        · exact k2
      intro k4
      clear_value x3
      extract_lets +onlyGivenNames x5
      refine Keeps.cut (b := x5) ?_ ?_
      · unfold x5
        refine Keeps.trans ?_ (State.writeFields_keeps _ _ _ _ _ _ _ _)
        exact k4
      intro k6
      clear_value x5
      extract_lets +onlyGivenNames x7
      extract_lets +onlyGivenNames x8
      refine Keeps.cut (b := x8) ?_ ?_
      · unfold x8
        refine Keeps.ite ?_ ?_
        · refine Keeps.clk ?_ _
          exact k6
        · exact k6
      intro k9
      clear_value x8
      refine Keeps.foldl _ _ (fun s10 y11 => ?_) ?_
      · refine Keeps.trans ?_ (State.act_keeps _ _ _ _ _)
        exact Keeps.refl _
      · exact k9

theorem State.regWriteWord_keeps (s : State) (via : Via) (off w : Nat) : Keeps 0x7FFFFFFFFF s (State.regWriteWord s via off w) := by
  unfold State.regWriteWord
  split
  · rename_i z0 z1
    exact Keeps.refl _
  · rename_i z2 z3 z4 z5 z6
    refine Keeps.trans ?_ (State.writeReg_keeps _ _ _ _ _ _ _)
    exact Keeps.refl _

theorem execRegisterWrite_keeps (via : Via) (off w : Nat) (s : State) : KNext 0x7FFFFFFFFF s (execRegisterWrite via off w s) := by
  unfold execRegisterWrite
  refine KNext.ite ?_ ?_
  · refine KNext.mk ?_
    exact Keeps.refl _
  · refine KNext.ite ?_ ?_
    · split
      · rename_i z0 z1 z2 z3 z4 z5
        refine KNext.mk ?_
        refine Keeps.trans ?_ (State.pageWrite_keeps _ _ _ _)
        exact Keeps.refl _
      · rename_i z6 z7 z8 z9
        refine KNext.mk ?_
        refine Keeps.trans ?_ (State.violation_keeps _ _)
        exact Keeps.refl _
      · rename_i z10 z11 z12 z13 z14
        refine KNext.mk ?_
        exact Keeps.refl _
    · refine KNext.mk ?_
      refine Keeps.tr ?_ (regWrite_keeps _ _ _ _ (fun v15 => ?_))
      · exact Keeps.refl _
      · refine Keeps.trans ?_ (State.regWriteWord_keeps _ _ _ _)
        exact Keeps.refl _

theorem State.senseLow_keeps (s : State) (k : Nat) : KSnd 0x20002 s (State.senseLow s k) := by
  unfold State.senseLow
  split
  · rename_i z0 z1 z2 z3
    refine KSnd.cut (b := z2) ?_ ?_
    · refine KSnd.eq z3 ?_
      refine KSnd.trans ?_ (State.sensed_keeps _ _)
      exact Keeps.refl _
    intro k4
    extract_lets +onlyGivenNames x5
    refine KSnd.mk ?_
    refine Keeps.ite ?_ ?_
    · refine Keeps.trans ?_ (State.modDom_keeps _ _ _)
      exact k4
    · exact k4

theorem State.senseWord_keeps (s : State) (off : Nat) (r : Reg) : KSnd 0x20002 s (State.senseWord s off r) := by
  unfold State.senseWord
  refine KSnd.ite ?_ ?_
  · refine KSnd.trans ?_ (State.sensed_keeps _ _)
    exact Keeps.refl _
  · refine KSnd.ite ?_ ?_
    · refine KSnd.trans ?_ (State.senseLow_keeps _ _)
      exact Keeps.refl _
    · refine KSnd.ite ?_ ?_
      · refine KSnd.trans ?_ (State.sensed_keeps _ _)
        exact Keeps.refl _
      · refine KSnd.mk ?_
        exact Keeps.refl _

theorem State.readWord_keeps (s : State) (off : Nat) : KSnd 0xB46220002 s (State.readWord s off) := by
  unfold State.readWord
  split
  · rename_i z0 z1
    refine KSnd.mk ?_
    exact Keeps.refl _
  · rename_i z2 z3 z4 z5 z6
    refine KSnd.ite ?_ ?_
    · refine KSnd.mk ?_
      exact Keeps.refl _
    · refine KSnd.ite ?_ ?_
      · refine KSnd.trans ?_ (State.readTimeNs_keeps _)
        exact Keeps.refl _
      · refine KSnd.ite ?_ ?_
        · refine KSnd.trans ?_ (State.readTickLo_keeps _ _)
          exact Keeps.refl _
        · refine KSnd.ite ?_ ?_
          · refine KSnd.trans ?_ (State.readAtmLo_keeps _ _ _)
            exact Keeps.refl _
          · refine KSnd.ite ?_ ?_
            · refine KSnd.trans ?_ (State.readAtmLo_keeps _ _ _)
              exact Keeps.refl _
            · refine KSnd.ite ?_ ?_
              · refine KSnd.trans ?_ (State.readAtmLo_keeps _ _ _)
                exact Keeps.refl _
              · refine KSnd.ite ?_ ?_
                · refine KSnd.trans ?_ (State.readQueued_keeps _ _)
                  exact Keeps.refl _
                · refine KSnd.ite ?_ ?_
                  · refine KSnd.trans ?_ (State.readJseq_keeps _ _)
                    exact Keeps.refl _
                  · refine KSnd.ite ?_ ?_
                    · refine KSnd.trans ?_ (State.readTxpn_keeps _ _)
                      exact Keeps.refl _
                    · refine KSnd.ite ?_ ?_
                      · refine KSnd.trans ?_ (State.readRow0_keeps _)
                        exact Keeps.refl _
                      · refine KSnd.ite ?_ ?_
                        · refine KSnd.mk ?_
                          exact Keeps.refl _
                        · refine KSnd.ite ?_ ?_
                          · refine KSnd.mk ?_
                            exact Keeps.refl _
                          · refine KSnd.ite ?_ ?_
                            · refine KSnd.mk ?_
                              exact Keeps.refl _
                            · refine KSnd.ite ?_ ?_
                              · refine KSnd.mk ?_
                                exact Keeps.refl _
                              · refine KSnd.ite ?_ ?_
                                · refine KSnd.mk ?_
                                  exact Keeps.refl _
                                · extract_lets +onlyGivenNames x7
                                  refine KSnd.cut (b := x7) ?_ ?_
                                  · unfold x7
                                    refine Keeps.ite ?_ ?_
                                    · refine Keeps.trans ?_ (State.freezeDue_keeps _)
                                      exact Keeps.refl _
                                    · exact Keeps.refl _
                                  intro k8
                                  clear_value x7
                                  split
                                  · rename_i z9 z10 z11 z12
                                    refine KSnd.cut (b := z11) ?_ ?_
                                    · refine KSnd.eq z12 ?_
                                      refine KSnd.trans ?_ (State.senseWord_keeps _ _ _)
                                      exact k8
                                    intro k13
                                    refine KSnd.mk ?_
                                    exact k13

theorem State.zeroRead_keeps (s : State) (off : Nat) (write : Bool) : Keeps 0x1 s (State.zeroRead s off write) := by
  unfold State.zeroRead
  refine Keeps.ite ?_ ?_
  · exact Keeps.refl _
  · refine Keeps.trans ?_ (State.emit_keeps _ _)
    exact Keeps.refl _

theorem execUnmappedAccess_keeps (via : Via) (off : Nat) (write : Bool) (s : State) : KNext 0x500063 s (execUnmappedAccess via off write s) := by
  unfold execUnmappedAccess
  refine KNext.ite ?_ ?_
  · split
    · rename_i z0 z1 z2 z3 z4 z5
      refine KNext.mk ?_
      refine Keeps.ite ?_ ?_
      · exact Keeps.refl _
      · refine Keeps.trans ?_ (State.emit_keeps _ _)
        exact Keeps.refl _
    · rename_i z6 z7 z8 z9
      refine KNext.mk ?_
      refine Keeps.trans ?_ (State.zeroRead_keeps _ _ _)
      refine Keeps.trans ?_ (State.violation_keeps _ _)
      exact Keeps.refl _
    · rename_i z10 z11 z12 z13 z14
      refine KNext.mk ?_
      refine Keeps.trans ?_ (State.zeroRead_keeps _ _ _)
      exact Keeps.refl _
  · refine KNext.ite ?_ ?_
    · refine KNext.mk ?_
      exact Keeps.refl _
    · split
      · rename_i z15 z16
        refine KNext.mk ?_
        refine Keeps.trans ?_ (State.zeroRead_keeps _ _ _)
        refine Keeps.trans ?_ (State.violation_keeps _ _)
        exact Keeps.refl _
      · rename_i z17 z18
        refine KNext.mk ?_
        refine Keeps.trans ?_ (State.zeroRead_keeps _ _ _)
        refine Keeps.trans ?_ (State.badAddr_keeps _ _ _)
        refine Keeps.trans ?_ (State.evtPkg_keeps _ _)
        exact Keeps.refl _

theorem State.pageRead8_keeps (s : State) (via : Via) (off : Nat) (write : Bool) : Keeps 0x400041 s (State.pageRead8 s via off write) := by
  unfold State.pageRead8
  extract_lets +onlyGivenNames x0
  split
  · rename_i z1 z2 z3 z4 z5 z6
    refine Keeps.ite ?_ ?_
    · exact Keeps.refl _
    · refine Keeps.ite ?_ ?_
      · refine Keeps.trans ?_ (State.emit_keeps _ _)
        refine Keeps.trans ?_ (State.emit_keeps _ _)
        exact Keeps.refl _
      · refine Keeps.trans ?_ (State.zeroRead_keeps _ _ _)
        exact Keeps.refl _
  · rename_i z7 z8 z9 z10
    refine Keeps.trans ?_ (State.zeroRead_keeps _ _ _)
    refine Keeps.trans ?_ (State.violation_keeps _ _)
    exact Keeps.refl _
  · rename_i z11 z12 z13 z14 z15
    refine Keeps.trans ?_ (State.zeroRead_keeps _ _ _)
    exact Keeps.refl _

theorem execBadAccess_keeps (via : Via) (off : Nat) (write : Bool) (s : State) : KNext 0x500063 s (execBadAccess via off write s) := by
  unfold execBadAccess
  refine KNext.ite ?_ ?_
  · refine KNext.mk ?_
    refine Keeps.trans ?_ (State.pageRead8_keeps _ _ _ _)
    exact Keeps.refl _
  · extract_lets +onlyGivenNames x0
    refine KNext.cut (b := x0) ?_ ?_
    · unfold x0
      split
      · rename_i z1 z2
        refine Keeps.ite ?_ ?_
        · refine Keeps.trans ?_ (State.violation_keeps _ _)
          exact Keeps.refl _
        · exact Keeps.refl _
      · rename_i z3 z4
        exact Keeps.refl _
    intro k5
    clear_value x0
    refine KNext.mk ?_
    refine Keeps.trans ?_ (State.zeroRead_keeps _ _ _)
    refine Keeps.trans ?_ (State.badAddr_keeps _ _ _)
    refine Keeps.trans ?_ (State.evtPkg_keeps _ _)
    exact k5

end Sys2Proof.Machine
end

