-- ==== Sys2Proof/Laws/KeepsService.lean ====
section
/-!
SUPPORT. Sys2Proof/Laws/KeepsService.lean: each operation of Machine/Service.lean keeps what `Keeps` says, with the parts of the state it may
touch.
-/
namespace Sys2Proof.Machine
set_option Elab.async false

theorem State.consoleCmd_keeps {m : Nat} (s : State) (rom svc : Bool) (go : State → State) (hgo : ∀ a0, Keeps m a0 (go a0)) (hm : 0x1 ||| m = m := by first | decide | exact Nat.or_self _ | (rw [Fld.nth_bit]; decide) | (rw [faultsFld_bit]; decide) | (rw [atmLo_bit1]; decide) | (rw [atmLo_bit2]; decide) | exact orSelf _ _ | exact orRight _ (by decide) | exact orRight _ (orSelf _ _) | exact orRight _ (orRight _ (by decide)) | exact orBoth _ (by decide) | exact Fld.bit_top _ | exact Fld.bit_regs _ | exact Fld.bit_top2 _ _ (by decide) | exact orSub (by assumption) (by decide) | (split <;> decide)) : Keeps m s (State.consoleCmd s rom svc go) := by
  unfold State.consoleCmd
  refine Keeps.ite ?_ ?_
  · exact Keeps.refl _
  · refine Keeps.ite ?_ ?_
    · refine Keeps.trans ?_ (State.errLine_keeps _ _)
      exact Keeps.refl _
    · refine Keeps.ite ?_ ?_
      · refine Keeps.trans ?_ (State.errLine_keeps _ _)
        exact Keeps.refl _
      · refine Keeps.tr ?_ (hgo _)
        exact Keeps.refl _

theorem State.onDie_keeps {m : Nat} (s : State) (d : Nat) (go : State → State) (hgo : ∀ a0, Keeps m a0 (go a0)) (hm : 0x1 ||| m = m := by first | decide | exact Nat.or_self _ | (rw [Fld.nth_bit]; decide) | (rw [faultsFld_bit]; decide) | (rw [atmLo_bit1]; decide) | (rw [atmLo_bit2]; decide) | exact orSelf _ _ | exact orRight _ (by decide) | exact orRight _ (orSelf _ _) | exact orRight _ (orRight _ (by decide)) | exact orBoth _ (by decide) | exact Fld.bit_top _ | exact Fld.bit_regs _ | exact Fld.bit_top2 _ _ (by decide) | exact orSub (by assumption) (by decide) | (split <;> decide)) : Keeps m s (State.onDie s d go) := by
  unfold State.onDie
  refine Keeps.ite ?_ ?_
  · refine Keeps.tr ?_ (hgo _)
    exact Keeps.refl _
  · refine Keeps.trans ?_ (State.errLine_keeps _ _)
    exact Keeps.refl _

theorem execHelp_keeps (s : State) : KNext 0x1 s (execHelp s) := by
  unfold execHelp
  refine KNext.mk ?_
  refine Keeps.tr ?_ (State.consoleCmd_keeps _ _ _ _ (fun v0 => ?_))
  · exact Keeps.refl _
  · refine Keeps.trans ?_ (State.okLine_keeps _)
    refine Keeps.foldl _ _ (fun s1 y2 => ?_) ?_
    · refine Keeps.trans ?_ (State.say_keeps _ _)
      exact Keeps.refl _
    · exact Keeps.refl _

theorem execIdent_keeps (s : State) : KNext 0x1 s (execIdent s) := by
  unfold execIdent
  refine KNext.mk ?_
  refine Keeps.tr ?_ (State.consoleCmd_keeps _ _ _ _ (fun v0 => ?_))
  · exact Keeps.refl _
  · extract_lets +onlyGivenNames x1
    refine Keeps.trans ?_ (State.okLine_keeps _)
    refine Keeps.trans ?_ (State.say_keeps _ _)
    exact Keeps.refl _

theorem State.statusLine_keeps (s : State) (d : Nat) : Keeps 0x1 s (State.statusLine s d) := by
  unfold State.statusLine
  refine Keeps.trans ?_ (State.say_keeps _ _)
  exact Keeps.refl _

theorem execStatus_keeps (d : Option Nat) (s : State) : KNext 0x1 s (execStatus d s) := by
  unfold execStatus
  refine KNext.mk ?_
  refine Keeps.tr ?_ (State.consoleCmd_keeps _ _ _ _ (fun v0 => ?_))
  · exact Keeps.refl _
  · split
    · rename_i z1 z2
      refine Keeps.tr ?_ (State.onDie_keeps _ _ _ (fun v3 => ?_))
      · exact Keeps.refl _
      · refine Keeps.trans ?_ (State.okLine_keeps _)
        refine Keeps.trans ?_ (State.statusLine_keeps _ _)
        exact Keeps.refl _
    · rename_i z4
      refine Keeps.trans ?_ (State.okLine_keeps _)
      refine Keeps.foldl _ _ (fun s5 y6 => ?_) ?_
      · refine Keeps.trans ?_ (State.statusLine_keeps _ _)
        exact Keeps.refl _
      · exact Keeps.refl _

theorem execUnits_keeps (d : Nat) (s : State) : KNext 0x1 s (execUnits d s) := by
  unfold execUnits
  refine KNext.mk ?_
  refine Keeps.tr ?_ (State.consoleCmd_keeps _ _ _ _ (fun v0 => ?_))
  · exact Keeps.refl _
  · refine Keeps.tr ?_ (State.onDie_keeps _ _ _ (fun v1 => ?_))
    · exact Keeps.refl _
    · refine Keeps.trans ?_ (State.okLine_keeps _)
      refine Keeps.foldl _ _ (fun s2 y3 => ?_) ?_
      · refine Keeps.ite ?_ ?_
        · exact Keeps.refl _
        · refine Keeps.trans ?_ (State.unitLine_keeps _ _ _ _)
          exact Keeps.refl _
      · exact Keeps.refl _

theorem State.senseLine_keeps (s : State) (k : Nat) : Keeps 0x20003 s (State.senseLine s k) := by
  unfold State.senseLine
  split
  · rename_i z0 z1 z2 z3
    refine Keeps.cut (b := z2) ?_ ?_
    · refine KSnd.eq z3 ?_
      refine KSnd.trans ?_ (State.sensed_keeps _ _)
      exact Keeps.refl _
    intro k4
    split
    · rename_i z5 z6 z7 z8
      refine Keeps.cut (b := z7) ?_ ?_
      · refine KSnd.eq z8 ?_
        refine KSnd.trans ?_ (State.senseLow_keeps _ _)
        exact k4
      intro k9
      refine Keeps.trans ?_ (State.say_keeps _ _)
      exact k9

theorem execSense_keeps (dom : Option Nat) (s : State) : KNext 0x20003 s (execSense dom s) := by
  unfold execSense
  refine KNext.mk ?_
  refine Keeps.tr ?_ (State.consoleCmd_keeps _ _ _ _ (fun v0 => ?_))
  · exact Keeps.refl _
  · split
    · rename_i z1 z2
      refine Keeps.ite ?_ ?_
      · refine Keeps.trans ?_ (State.errLine_keeps _ _)
        exact Keeps.refl _
      · refine Keeps.trans ?_ (State.okLine_keeps _)
        refine Keeps.trans ?_ (State.senseLine_keeps _ _)
        exact Keeps.refl _
    · rename_i z3
      refine Keeps.trans ?_ (State.okLine_keeps _)
      refine Keeps.foldl _ _ (fun s4 y5 => ?_) ?_
      · refine Keeps.trans ?_ (State.senseLine_keeps _ _)
        exact Keeps.refl _
      · exact Keeps.refl _

theorem execLog_keeps (n : Option Nat) (s : State) : KNext 0x1 s (execLog n s) := by
  unfold execLog
  refine KNext.mk ?_
  refine Keeps.tr ?_ (State.consoleCmd_keeps _ _ _ _ (fun v0 => ?_))
  · exact Keeps.refl _
  · extract_lets +onlyGivenNames x1
    refine Keeps.trans ?_ (State.okLine_keeps _)
    refine Keeps.foldl _ _ (fun s2 y3 => ?_) ?_
    · extract_lets +onlyGivenNames x4
      extract_lets +onlyGivenNames x5
      refine Keeps.trans ?_ (State.say_keeps _ _)
      exact Keeps.refl _
    · exact Keeps.refl _

theorem State.regLine_keeps (u : State) (off : Nat) (r : Nat × State) : Keeps 0x1 r.2 (State.regLine u off r) := by
  unfold State.regLine
  exact (State.say_keeps _ _).mono.trans (State.okLine_keeps _)

theorem State.consoleRead_keeps (s : State) (off : Nat) : KSnd 0xB46320023 s (State.consoleRead s off) := by
  unfold State.consoleRead
  refine KSnd.ite ?_ ?_
  · refine KSnd.mk ?_
    refine Keeps.trans ?_ (State.badAddr_keeps _ _ _)
    refine Keeps.trans ?_ (State.evtPkg_keeps _ _)
    exact Keeps.refl _
  · refine KSnd.ite ?_ ?_
    · refine KSnd.mk ?_
      refine Keeps.trans ?_ (State.badAddr_keeps _ _ _)
      refine Keeps.trans ?_ (State.evtPkg_keeps _ _)
      exact Keeps.refl _
    · refine KSnd.trans ?_ (State.readWord_keeps _ _)
      exact Keeps.refl _

theorem execRegRead_keeps (off : Nat) (s : State) : KNext 0xB46320023 s (execRegRead off s) := by
  unfold execRegRead
  refine KNext.mk ?_
  refine Keeps.tr ?_ (State.consoleCmd_keeps _ _ _ _ (fun v0 => ?_))
  · exact Keeps.refl _
  · refine Keeps.ite ?_ ?_
    · refine Keeps.trans ?_ (State.errLine_keeps _ _)
      exact Keeps.refl _
    · refine Keeps.trans ?_ (State.regLine_keeps _ _ _)
      refine KSnd.get ?_
      refine KSnd.trans ?_ (State.consoleRead_keeps _ _)
      exact Keeps.refl _

theorem execRegWrite_keeps (off v : Nat) (s : State) : KNext 0x7FFFFFFFFF s (execRegWrite off v s) := by
  unfold execRegWrite
  refine KNext.mk ?_
  refine Keeps.tr ?_ (State.consoleCmd_keeps _ _ _ _ (fun v0 => ?_))
  · exact Keeps.refl _
  · refine Keeps.ite ?_ ?_
    · refine Keeps.trans ?_ (State.errLine_keeps _ _)
      exact Keeps.refl _
    · extract_lets +onlyGivenNames x1
      refine Keeps.cut (b := x1) ?_ ?_
      · unfold x1
        refine Keeps.ite ?_ ?_
        · refine Keeps.trans ?_ (State.regWriteWord_keeps _ _ _ _)
          exact Keeps.refl _
        · exact Keeps.refl _
      intro k2
      clear_value x1
      refine Keeps.trans ?_ (State.regLine_keeps _ _ _)
      refine KSnd.get ?_
      refine KSnd.trans ?_ (State.consoleRead_keeps _ _)
      exact k2

theorem State.memLine_keeps (s : State) (d a : Nat) : Keeps 0x1 s (State.memLine s d a) := by
  unfold State.memLine
  refine Keeps.trans ?_ (State.say_keeps _ _)
  exact Keeps.refl _

theorem State.memCmd_keeps {m : Nat} (s : State) (d a n : Nat) (go : State → State) (hgo : ∀ a0, Keeps m a0 (go a0)) (hm : 0x1 ||| m = m := by first | decide | exact Nat.or_self _ | (rw [Fld.nth_bit]; decide) | (rw [faultsFld_bit]; decide) | (rw [atmLo_bit1]; decide) | (rw [atmLo_bit2]; decide) | exact orSelf _ _ | exact orRight _ (by decide) | exact orRight _ (orSelf _ _) | exact orRight _ (orRight _ (by decide)) | exact orBoth _ (by decide) | exact Fld.bit_top _ | exact Fld.bit_regs _ | exact Fld.bit_top2 _ _ (by decide) | exact orSub (by assumption) (by decide) | (split <;> decide)) : Keeps m s (State.memCmd s d a n go) := by
  unfold State.memCmd
  refine Keeps.ite ?_ ?_
  · refine Keeps.trans ?_ (State.errLine_keeps _ _)
    exact Keeps.refl _
  · refine Keeps.tr ?_ (State.consoleCmd_keeps _ _ _ _ (fun v0 => ?_))
    · exact Keeps.refl _
    · refine Keeps.tr ?_ (State.onDie_keeps _ _ _ (fun v1 => ?_))
      · exact Keeps.refl _
      · refine Keeps.ite ?_ ?_
        · refine Keeps.tr ?_ (hgo _)
          exact Keeps.refl _
        · refine Keeps.trans ?_ (State.errLine_keeps _ _)
          exact Keeps.refl _

theorem execMemRead_keeps (d addr n : Nat) (s : State) : KNext 0x1 s (execMemRead d addr n s) := by
  unfold execMemRead
  refine KNext.mk ?_
  refine Keeps.tr ?_ (State.memCmd_keeps _ _ _ _ _ (fun v0 => ?_))
  · exact Keeps.refl _
  · refine Keeps.trans ?_ (State.okLine_keeps _)
    refine Keeps.foldl _ _ (fun s1 y2 => ?_) ?_
    · refine Keeps.trans ?_ (State.memLine_keeps _ _ _)
      exact Keeps.refl _
    · exact Keeps.refl _

theorem State.hbmStore_keeps (s : State) (d a v : Nat) : Keeps 0x80000 s (State.hbmStore s d a v) := by
  unfold State.hbmStore
  refine Keeps.hbm (Keeps.refl s) _ (fun h => ?_)
  generalize List.range 8 = l
  revert h
  generalize s.hbm = m
  induction l generalizing m with
  | nil => exact id
  | cons i l ih => exact fun h => ih _ (dwf_dset _ _ _ _ h)

theorem execMemWrite_keeps (d addr v : Nat) (s : State) : KNext 0x80001 s (execMemWrite d addr v s) := by
  unfold execMemWrite
  refine KNext.mk ?_
  refine Keeps.tr ?_ (State.memCmd_keeps _ _ _ _ _ (fun v0 => ?_))
  · exact Keeps.refl _
  · refine Keeps.ite ?_ ?_
    · refine Keeps.trans ?_ (State.errLine_keeps _ _)
      exact Keeps.refl _
    · refine Keeps.trans ?_ (State.okLine_keeps _)
      refine Keeps.trans ?_ (State.memLine_keeps _ _ _)
      refine Keeps.trans ?_ (State.hbmStore_keeps _ _ _ _)
      exact Keeps.refl _

theorem execSvcOn_keeps (s : State) : KNext 0x8000021 s (execSvcOn s) := by
  unfold execSvcOn
  refine KNext.mk ?_
  refine Keeps.tr ?_ (State.consoleCmd_keeps _ _ _ _ (fun v0 => ?_))
  · exact Keeps.refl _
  · refine Keeps.ite ?_ ?_
    · refine Keeps.trans ?_ (State.okLine_keeps _)
      exact Keeps.refl _
    · refine Keeps.ite ?_ ?_
      · refine Keeps.trans ?_ (State.errLine_keeps _ _)
        exact Keeps.refl _
      · refine Keeps.trans ?_ (State.okLine_keeps _)
        refine Keeps.trans ?_ (State.evtPkg_keeps _ _)
        refine Keeps.trans ?_ (State.fset_keeps _ _ _ _)
        exact Keeps.refl _

theorem execSvcOff_keeps (s : State) : KNext 0x7FFFFFBFEF s (execSvcOff s) := by
  unfold execSvcOff
  refine KNext.mk ?_
  refine Keeps.tr ?_ (State.consoleCmd_keeps _ _ _ _ (fun v0 => ?_))
  · exact Keeps.refl _
  · refine Keeps.ite ?_ ?_
    · refine Keeps.trans ?_ (State.okLine_keeps _)
      exact Keeps.refl _
    · extract_lets +onlyGivenNames x1
      refine Keeps.cut (b := x1) ?_ ?_
      · unfold x1
        refine Keeps.trans ?_ (State.endStatics_keeps _)
        exact Keeps.refl _
      intro k2
      clear_value x1
      extract_lets +onlyGivenNames x3
      extract_lets +onlyGivenNames x4
      refine Keeps.cut (b := x4) ?_ ?_
      · unfold x4
        refine Keeps.svc ?_ _
        exact k2
      intro k5
      clear_value x4
      refine Keeps.trans ?_ (State.okLine_keeps _)
      refine Keeps.trans ?_ (State.evtPkg_keeps _ _)
      refine Keeps.trans ?_ (State.fset_keeps _ _ _ _)
      exact k5

theorem State.holdLine_keeps (s : State) (d : Nat) : Keeps 0x1 s (State.holdLine s d) := by
  unfold State.holdLine
  refine Keeps.trans ?_ (State.okLine_keeps _)
  refine Keeps.trans ?_ (State.say_keeps _ _)
  exact Keeps.refl _

theorem execHoldOn_keeps (d : Nat) (s : State) : KNext 0x4008428049 s (execHoldOn d s) := by
  unfold execHoldOn
  refine KNext.mk ?_
  refine Keeps.tr ?_ (State.consoleCmd_keeps _ _ _ _ (fun v0 => ?_))
  · exact Keeps.refl _
  · refine Keeps.tr ?_ (State.onDie_keeps _ _ _ (fun v1 => ?_))
    · exact Keeps.refl _
    · extract_lets +onlyGivenNames x2
      refine Keeps.cut (b := x2) ?_ ?_
      · unfold x2
        refine Keeps.ite ?_ ?_
        · refine Keeps.trans ?_ (State.powerTo_keeps _ _ _ _)
          exact Keeps.refl _
        · refine Keeps.trans ?_ (State.requestState_keeps _ _ _)
          exact Keeps.refl _
      intro k3
      clear_value x2
      extract_lets +onlyGivenNames x4
      extract_lets +onlyGivenNames x5
      refine Keeps.cut (b := x5) ?_ ?_
      · unfold x5
        refine Keeps.pwr ?_ _
        exact k3
      intro k6
      clear_value x5
      refine Keeps.trans ?_ (State.holdLine_keeps _ _)
      refine Keeps.trans ?_ (State.staticBit_keeps _)
      refine Keeps.trans ?_ (State.setVolts_keeps _ _ _ _)
      exact k6

theorem execHoldOff_keeps (d : Nat) (s : State) : KNext 0x8020001 s (execHoldOff d s) := by
  unfold execHoldOff
  refine KNext.mk ?_
  refine Keeps.tr ?_ (State.consoleCmd_keeps _ _ _ _ (fun v0 => ?_))
  · exact Keeps.refl _
  · refine Keeps.tr ?_ (State.onDie_keeps _ _ _ (fun v1 => ?_))
    · exact Keeps.refl _
    · refine Keeps.trans ?_ (State.holdLine_keeps _ _)
      refine Keeps.trans ?_ (State.staticBit_keeps _)
      refine Keeps.pwr ?_ _
      exact Keeps.refl _

theorem State.levelLine_keeps (s : State) : Keeps 0x1 s (State.levelLine s) := by
  unfold State.levelLine
  refine Keeps.trans ?_ (State.okLine_keeps _)
  refine Keeps.trans ?_ (State.say_keeps _ _)
  refine Keeps.trans ?_ (State.emit_keeps _ _)
  exact Keeps.refl _

theorem execLevel_keeps (v : Nat) (s : State) : KNext 0x8000001 s (execLevel v s) := by
  unfold execLevel
  refine KNext.mk ?_
  refine Keeps.tr ?_ (State.consoleCmd_keeps _ _ _ _ (fun v0 => ?_))
  · exact Keeps.refl _
  · refine Keeps.ite ?_ ?_
    · refine Keeps.trans ?_ (State.errLine_keeps _ _)
      exact Keeps.refl _
    · refine Keeps.trans ?_ (State.levelLine_keeps _)
      refine Keeps.trans ?_ (State.staticBit_keeps _)
      refine Keeps.trans ?_ (State.fset_keeps _ _ _ _)
      refine Keeps.trans ?_ (State.fset_keeps _ _ _ _)
      exact Keeps.refl _

theorem execLevelAuto_keeps (s : State) : KNext 0x8000001 s (execLevelAuto s) := by
  unfold execLevelAuto
  refine KNext.mk ?_
  refine Keeps.tr ?_ (State.consoleCmd_keeps _ _ _ _ (fun v0 => ?_))
  · exact Keeps.refl _
  · refine Keeps.trans ?_ (State.levelLine_keeps _)
    refine Keeps.trans ?_ (State.staticBit_keeps _)
    refine Keeps.trans ?_ (State.fset_keeps _ _ _ _)
    exact Keeps.refl _

theorem State.patternLine_keeps (s : State) (d c byte : Nat) : Keeps 0x1 s (State.patternLine s d c byte) := by
  unfold State.patternLine
  refine Keeps.trans ?_ (State.okLine_keeps _)
  refine Keeps.trans ?_ (State.say_keeps _ _)
  exact Keeps.refl _

theorem execPattern_keeps (d c byte : Nat) (s : State) : KNext 0x7FFFFFBFEF s (execPattern d c byte s) := by
  unfold execPattern
  refine KNext.mk ?_
  refine Keeps.tr ?_ (State.consoleCmd_keeps _ _ _ _ (fun v0 => ?_))
  · exact Keeps.refl _
  · refine Keeps.tr ?_ (State.onDie_keeps _ _ _ (fun v1 => ?_))
    · exact Keeps.refl _
    · refine Keeps.ite ?_ ?_
      · refine Keeps.trans ?_ (State.errLine_keeps _ _)
        exact Keeps.refl _
      · refine Keeps.ite ?_ ?_
        · refine Keeps.trans ?_ (State.errLine_keeps _ _)
          exact Keeps.refl _
        · extract_lets +onlyGivenNames x2
          refine Keeps.cut (b := x2) ?_ ?_
          · unfold x2
            refine Keeps.trans ?_ (State.report_keeps _ _ _ _ _ _)
            exact Keeps.refl _
          intro k3
          clear_value x2
          extract_lets +onlyGivenNames x4
          extract_lets +onlyGivenNames x5
          refine Keeps.cut (b := x5) ?_ ?_
          · unfold x5
            refine Keeps.svc ?_ _
            exact k3
          intro k6
          clear_value x5
          refine Keeps.trans ?_ (State.patternLine_keeps _ _ _ _)
          refine Keeps.trans ?_ (State.staticBit_keeps _)
          exact k6

theorem execPatternOff_keeps (d c : Nat) (s : State) : KNext 0x7FFFFFBFEF s (execPatternOff d c s) := by
  unfold execPatternOff
  refine KNext.mk ?_
  refine Keeps.tr ?_ (State.consoleCmd_keeps _ _ _ _ (fun v0 => ?_))
  · exact Keeps.refl _
  · refine Keeps.tr ?_ (State.onDie_keeps _ _ _ (fun v1 => ?_))
    · exact Keeps.refl _
    · refine Keeps.ite ?_ ?_
      · refine Keeps.trans ?_ (State.errLine_keeps _ _)
        exact Keeps.refl _
      · split
        · rename_i z2 z3 z4
          refine Keeps.trans ?_ (State.patternLine_keeps _ _ _ _)
          refine Keeps.trans ?_ (State.endPattern_keeps _ _)
          exact Keeps.refl _
        · rename_i z5 z6
          refine Keeps.trans ?_ (State.okLine_keeps _)
          exact Keeps.refl _

theorem State.sayNotRun_keeps (s : State) (k d i : Nat) : Keeps 0x8040021 s (State.sayNotRun s k d i) := by
  unfold State.sayNotRun
  refine Keeps.trans ?_ (State.errLine_keeps _ _)
  refine Keeps.trans ?_ (State.countTest_keeps _ _)
  refine Keeps.trans ?_ (State.logTest_keeps _ _ _ _ _)
  refine Keeps.trans ?_ (State.stLine_keeps _ _ _ _ _)
  exact Keeps.refl _

theorem execTest_keeps (kind d i : Nat) (s : State) : KNext 0x7FFFFFBFEF s (execTest kind d i s) := by
  unfold execTest
  refine KNext.mk ?_
  refine Keeps.tr ?_ (State.consoleCmd_keeps _ _ _ _ (fun v0 => ?_))
  · exact Keeps.refl _
  · refine Keeps.tr ?_ (State.onDie_keeps _ _ _ (fun v1 => ?_))
    · exact Keeps.refl _
    · refine Keeps.ite ?_ ?_
      · refine Keeps.trans ?_ (State.errLine_keeps _ _)
        exact Keeps.refl _
      · refine Keeps.ite ?_ ?_
        · refine Keeps.trans ?_ (State.sayNotRun_keeps _ _ _ _)
          exact Keeps.refl _
        · refine Keeps.trans ?_ (State.setRun_keeps _ _)
          refine Keeps.trans ?_ (State.startTest_keeps _ _ _ _)
          exact Keeps.refl _

theorem execTestDie_keeps (d : Nat) (s : State) : KNext 0x7FFFFFBFEF s (execTestDie d s) := by
  unfold execTestDie
  refine KNext.mk ?_
  refine Keeps.tr ?_ (State.consoleCmd_keeps _ _ _ _ (fun v0 => ?_))
  · exact Keeps.refl _
  · refine Keeps.tr ?_ (State.onDie_keeps _ _ _ (fun v1 => ?_))
    · exact Keeps.refl _
    · split
      · rename_i z2 z3 z4 z5
        refine Keeps.cut (b := z4) ?_ ?_
        · refine KSnd.eq z5 ?_
          refine KSnd.trans ?_ (State.supplies_keeps _ _)
          exact Keeps.refl _
        intro k6
        refine Keeps.trans ?_ (State.nextOfDie_keeps _ _ _ _ _)
        exact k6

theorem execLoop_keeps (kind d i : Nat) (far : Bool) (lanes : List (Nat × Nat × Nat)) (s : State) : KNext 0x7FFFFFBFEF s (execLoop kind d i far lanes s) := by
  unfold execLoop
  refine KNext.mk ?_
  refine Keeps.tr ?_ (State.consoleCmd_keeps _ _ _ _ (fun v0 => ?_))
  · exact Keeps.refl _
  · refine Keeps.tr ?_ (State.onDie_keeps _ _ _ (fun v1 => ?_))
    · exact Keeps.refl _
    · refine Keeps.ite ?_ ?_
      · refine Keeps.trans ?_ (State.errLine_keeps _ _)
        exact Keeps.refl _
      · refine Keeps.ite ?_ ?_
        · refine Keeps.trans ?_ (State.sayNotRun_keeps _ _ _ _)
          exact Keeps.refl _
        · extract_lets +onlyGivenNames x2
          refine Keeps.cut (b := x2) ?_ ?_
          · unfold x2
            refine Keeps.ite ?_ ?_
            · refine Keeps.trans ?_ (State.fabricDown_keeps _ _)
              exact Keeps.refl _
            · refine Keeps.ite ?_ ?_
              · split
                · rename_i z3 z4 z5
                  refine Keeps.trans ?_ (State.portDown_keeps _ _)
                  exact Keeps.refl _
                · rename_i z6 z7
                  exact Keeps.refl _
              · exact Keeps.refl _
          intro k8
          clear_value x2
          refine Keeps.trans ?_ (State.setRun_keeps _ _)
          refine Keeps.trans ?_ (State.startTest_keeps _ _ _ _)
          exact k8

theorem State.onUnit_keeps {m : Nat} (s : State) (k d i : Nat) (go : State → State) (hgo : ∀ a0, Keeps m a0 (go a0)) (hm : 0x1 ||| m = m := by first | decide | exact Nat.or_self _ | (rw [Fld.nth_bit]; decide) | (rw [faultsFld_bit]; decide) | (rw [atmLo_bit1]; decide) | (rw [atmLo_bit2]; decide) | exact orSelf _ _ | exact orRight _ (by decide) | exact orRight _ (orSelf _ _) | exact orRight _ (orRight _ (by decide)) | exact orBoth _ (by decide) | exact Fld.bit_top _ | exact Fld.bit_regs _ | exact Fld.bit_top2 _ _ (by decide) | exact orSub (by assumption) (by decide) | (split <;> decide)) : Keeps m s (State.onUnit s k d i go) := by
  unfold State.onUnit
  refine Keeps.ite ?_ ?_
  · refine Keeps.trans ?_ (State.errLine_keeps _ _)
    exact Keeps.refl _
  · refine Keeps.ite ?_ ?_
    · refine Keeps.trans ?_ (State.okLine_keeps _)
      refine Keeps.trans ?_ (State.unitLine_keeps _ _ _ _)
      exact Keeps.refl _
    · refine Keeps.tr ?_ (hgo _)
      exact Keeps.refl _

theorem execFence_keeps (kind d i : Nat) (s : State) : KNext 0x7FFFFFBFEF s (execFence kind d i s) := by
  unfold execFence
  refine KNext.mk ?_
  refine Keeps.tr ?_ (State.consoleCmd_keeps _ _ _ _ (fun v0 => ?_))
  · exact Keeps.refl _
  · refine Keeps.tr ?_ (State.onDie_keeps _ _ _ (fun v1 => ?_))
    · exact Keeps.refl _
    · refine Keeps.tr ?_ (State.onUnit_keeps _ _ _ _ _ (fun v2 => ?_))
      · exact Keeps.refl _
      · refine Keeps.trans ?_ (State.okLine_keeps _)
        refine Keeps.trans ?_ (State.unitLine_keeps _ _ _ _)
        refine Keeps.trans ?_ (State.report_keeps _ _ _ _ _ _)
        exact Keeps.refl _

theorem execUnfence_keeps (kind d i : Nat) (s : State) : KNext 0x7FFFFFBFEF s (execUnfence kind d i s) := by
  unfold execUnfence
  refine KNext.mk ?_
  refine Keeps.tr ?_ (State.consoleCmd_keeps _ _ _ _ (fun v0 => ?_))
  · exact Keeps.refl _
  · refine Keeps.tr ?_ (State.onDie_keeps _ _ _ (fun v1 => ?_))
    · exact Keeps.refl _
    · refine Keeps.tr ?_ (State.onUnit_keeps _ _ _ _ _ (fun v2 => ?_))
      · exact Keeps.refl _
      · refine Keeps.trans ?_ (State.setRun_keeps _ _)
        refine Keeps.trans ?_ (State.startTest_keeps _ _ _ _)
        exact Keeps.refl _

theorem execInjectPane_keeps (d i : Nat) (seen : Bool) (s : State) : KNext 0x20000009 s (execInjectPane d i seen s) := by
  unfold execInjectPane
  refine KNext.mk ?_
  refine Keeps.tr ?_ (State.consoleCmd_keeps _ _ _ _ (fun v0 => ?_))
  · exact Keeps.refl _
  · refine Keeps.tr ?_ (State.onDie_keeps _ _ _ (fun v1 => ?_))
    · exact Keeps.refl _
    · refine Keeps.ite ?_ ?_
      · refine Keeps.trans ?_ (State.errLine_keeps _ _)
        exact Keeps.refl _
      · refine Keeps.ite ?_ ?_
        · refine Keeps.trans ?_ (State.errLine_keeps _ _)
          exact Keeps.refl _
        · extract_lets +onlyGivenNames x2
          refine Keeps.cut (b := x2) ?_ ?_
          · unfold x2
            refine Keeps.trans ?_ (State.evtDie_keeps _ _ _)
            refine Keeps.trans ?_ (State.fadd_keeps _ _ _ _)
            refine Keeps.trans ?_ (State.fadd_keeps _ _ _ _)
            exact Keeps.refl _
          intro k3
          clear_value x2
          refine Keeps.trans ?_ (State.okLine_keeps _)
          refine Keeps.trans ?_ (State.say_keeps _ _)
          exact k3

theorem execInjectAtm_keeps (d i : Nat) (seen : Bool) (s : State) : KNext 0x40000009 s (execInjectAtm d i seen s) := by
  unfold execInjectAtm
  refine KNext.mk ?_
  refine Keeps.tr ?_ (State.consoleCmd_keeps _ _ _ _ (fun v0 => ?_))
  · exact Keeps.refl _
  · refine Keeps.tr ?_ (State.onDie_keeps _ _ _ (fun v1 => ?_))
    · exact Keeps.refl _
    · refine Keeps.ite ?_ ?_
      · refine Keeps.trans ?_ (State.errLine_keeps _ _)
        exact Keeps.refl _
      · refine Keeps.ite ?_ ?_
        · refine Keeps.trans ?_ (State.errLine_keeps _ _)
          exact Keeps.refl _
        · refine Keeps.trans ?_ (State.okLine_keeps _)
          refine Keeps.trans ?_ (State.say_keeps _ _)
          refine Keeps.trans ?_ (State.evtDie_keeps _ _ _)
          exact Keeps.refl _

theorem execInjectFlash_keeps (d : Nat) (r : SectorRead) (t : Nat) (s : State) : KNext 0x20460845B s (execInjectFlash d r t s) := by
  unfold execInjectFlash
  extract_lets +onlyGivenNames x0
  refine KNext.cut (b := x0) ?_ ?_
  · unfold x0
    refine Keeps.trans ?_ (State.advanceTo_keeps _ _)
    exact Keeps.refl _
  intro k1
  clear_value x0
  refine KNext.mk ?_
  refine Keeps.tr ?_ (State.consoleCmd_keeps _ _ _ _ (fun v2 => ?_))
  · exact k1
  · refine Keeps.tr ?_ (State.onDie_keeps _ _ _ (fun v3 => ?_))
    · exact Keeps.refl _
    · refine Keeps.ite ?_ ?_
      · refine Keeps.trans ?_ (State.errLine_keeps _ _)
        exact Keeps.refl _
      · extract_lets +onlyGivenNames x4
        refine Keeps.cut (b := x4) ?_ ?_
        · unfold x4
          refine Keeps.ite ?_ ?_
          · refine Keeps.trans ?_ (State.startCkpt_keeps _ _)
            exact Keeps.refl _
          · exact Keeps.refl _
        intro k5
        clear_value x4
        extract_lets +onlyGivenNames x6
        refine Keeps.cut (b := x6) ?_ ?_
        · unfold x6
          refine Keeps.trans ?_ (State.modFtl_keeps _ _ _)
          exact k5
        intro k7
        clear_value x6
        extract_lets +onlyGivenNames x8
        refine Keeps.cut (b := x8) ?_ ?_
        · unfold x8
          refine KSnd.get ?_
          refine KSnd.trans ?_ (State.readSector_keeps _ _ _)
          exact k7
        intro k9
        clear_value x8
        refine Keeps.ite ?_ ?_
        · refine Keeps.trans ?_ (State.okLine_keeps _)
          refine Keeps.trans ?_ (State.say_keeps _ _)
          exact k9
        · refine Keeps.trans ?_ (State.errLine_keeps _ _)
          exact k9

theorem execPstate_keeps (d st : Nat) (s : State) : KNext 0x4000020009 s (execPstate d st s) := by
  unfold execPstate
  refine KNext.mk ?_
  refine Keeps.tr ?_ (State.consoleCmd_keeps _ _ _ _ (fun v0 => ?_))
  · exact Keeps.refl _
  · refine Keeps.tr ?_ (State.onDie_keeps _ _ _ (fun v1 => ?_))
    · exact Keeps.refl _
    · refine Keeps.ite ?_ ?_
      · refine Keeps.trans ?_ (State.errLine_keeps _ _)
        exact Keeps.refl _
      · extract_lets +onlyGivenNames x2
        refine Keeps.cut (b := x2) ?_ ?_
        · unfold x2
          refine Keeps.trans ?_ (State.requestState_keeps _ _ _)
          refine Keeps.trans ?_ (State.fset_keeps _ _ _ _)
          exact Keeps.refl _
        intro k3
        clear_value x2
        extract_lets +onlyGivenNames x4
        refine Keeps.trans ?_ (State.okLine_keeps _)
        refine Keeps.trans ?_ (State.say_keeps _ _)
        exact k3

theorem execResetCold_keeps (code t : Nat) (s : State) : KNext 0x7FFFFFFFFF s (execResetCold code t s) := by
  unfold execResetCold
  extract_lets +onlyGivenNames x0
  refine KNext.cut (b := x0) ?_ ?_
  · unfold x0
    refine Keeps.trans ?_ (State.advanceTo_keeps _ _)
    exact Keeps.refl _
  intro k1
  clear_value x0
  refine KNext.mk ?_
  refine Keeps.tr ?_ (State.consoleCmd_keeps _ _ _ _ (fun v2 => ?_))
  · exact k1
  · refine Keeps.trans ?_ (State.coldReset_keeps _ _ _)
    refine Keeps.trans ?_ (State.okLine_keeps _)
    exact Keeps.refl _

theorem execResetWarm_keeps (t : Nat) (s : State) : KNext 0x7FFFFFFFFF s (execResetWarm t s) := by
  unfold execResetWarm
  extract_lets +onlyGivenNames x0
  refine KNext.cut (b := x0) ?_ ?_
  · unfold x0
    refine Keeps.trans ?_ (State.advanceTo_keeps _ _)
    exact Keeps.refl _
  intro k1
  clear_value x0
  refine KNext.mk ?_
  refine Keeps.tr ?_ (State.consoleCmd_keeps _ _ _ _ (fun v2 => ?_))
  · exact k1
  · refine Keeps.trans ?_ (State.warmReset_keeps _ _)
    refine Keeps.trans ?_ (State.okLine_keeps _)
    exact Keeps.refl _

theorem execResetDie_keeps (d bad t : Nat) (s : State) : KNext 0x7FFFFFBFFF s (execResetDie d bad t s) := by
  unfold execResetDie
  extract_lets +onlyGivenNames x0
  refine KNext.cut (b := x0) ?_ ?_
  · unfold x0
    refine Keeps.trans ?_ (State.advanceTo_keeps _ _)
    exact Keeps.refl _
  intro k1
  clear_value x0
  refine KNext.mk ?_
  refine Keeps.tr ?_ (State.consoleCmd_keeps _ _ _ _ (fun v2 => ?_))
  · exact k1
  · refine Keeps.tr ?_ (State.onDie_keeps _ _ _ (fun v3 => ?_))
    · exact Keeps.refl _
    · refine Keeps.trans ?_ (State.resetDie_keeps _ _ _)
      refine Keeps.trans ?_ (State.okLine_keeps _)
      exact Keeps.refl _

theorem execBaud_keeps (rate : Nat) (s : State) : KNext 0x40001 s (execBaud rate s) := by
  unfold execBaud
  refine KNext.mk ?_
  refine Keeps.tr ?_ (State.consoleCmd_keeps _ _ _ _ (fun v0 => ?_))
  · exact Keeps.refl _
  · refine Keeps.ite ?_ ?_
    · extract_lets +onlyGivenNames x1
      refine Keeps.cut (b := x1) ?_ ?_
      · unfold x1
        refine Keeps.trans ?_ (State.okLine_keeps _)
        exact Keeps.refl _
      intro k2
      clear_value x1
      refine Keeps.svc ?_ _
      exact k2
    · refine Keeps.trans ?_ (State.errLine_keeps _ _)
      exact Keeps.refl _

theorem execBaudSwitch_keeps (s : State) : KNext 0x8040000 s (execBaudSwitch s) := by
  unfold execBaudSwitch
  split
  · rename_i z0 z1
    refine KNext.mk ?_
    exact Keeps.refl _
  · rename_i z2 z3 z4
    refine KNext.mk ?_
    extract_lets +onlyGivenNames x5
    refine Keeps.cut (b := x5) ?_ ?_
    · unfold x5
      refine Keeps.trans ?_ (State.fset_keeps _ _ _ _)
      exact Keeps.refl _
    intro k6
    clear_value x5
    refine Keeps.svc ?_ _
    exact k6

theorem execDebugOpen_keeps (s : State) : KNext 0xC0CC0EC69 s (execDebugOpen s) := by
  unfold execDebugOpen
  refine KNext.mk ?_
  refine Keeps.ite ?_ ?_
  · refine Keeps.trans ?_ (State.errLine_keeps _ _)
    exact Keeps.refl _
  · refine Keeps.tr ?_ (State.consoleCmd_keeps _ _ _ _ (fun v0 => ?_))
    · exact Keeps.refl _
    · extract_lets +onlyGivenNames x1
      extract_lets +onlyGivenNames x2
      refine Keeps.cut (b := x2) ?_ ?_
      · unfold x2
        refine Keeps.sec ?_ _
        exact Keeps.refl _
      intro k3
      clear_value x2
      extract_lets +onlyGivenNames x4
      refine Keeps.cut (b := x4) ?_ ?_
      · unfold x4
        refine Keeps.foldl _ _ (fun s5 y6 => ?_) ?_
        · refine Keeps.trans ?_ (State.modLnk_keeps _ _ _)
          exact Keeps.refl _
        · exact k3
      intro k7
      clear_value x4
      refine Keeps.trans ?_ (State.okLine_keeps _)
      refine Keeps.trans ?_ (State.say_keeps _ _)
      refine Keeps.trans ?_ (State.enterError_keeps _)
      exact k7

theorem execConsoleAbort_keeps (s : State) : KNext 0x7FFFFFBFEF s (execConsoleAbort s) := by
  unfold execConsoleAbort
  refine KNext.mk ?_
  refine Keeps.trans ?_ (State.svcAbort_keeps _)
  exact Keeps.refl _

theorem execConsoleBreak_keeps (s : State) : KNext 0x8040021 s (execConsoleBreak s) := by
  unfold execConsoleBreak
  refine KNext.mk ?_
  refine Keeps.trans ?_ (State.evtPkg_keeps _ _)
  refine Keeps.trans ?_ (State.fset_keeps _ _ _ _)
  refine Keeps.svc ?_ _
  exact Keeps.refl _

theorem execAonHeartbeat_keeps (s : State) : KNext 0x40001 s (execAonHeartbeat s) := by
  unfold execAonHeartbeat
  extract_lets +onlyGivenNames x0
  extract_lets +onlyGivenNames x1
  refine KNext.cut (b := x1) ?_ ?_
  · unfold x1
    refine Keeps.svc ?_ _
    exact Keeps.refl _
  intro k2
  clear_value x1
  refine KNext.mk ?_
  refine Keeps.ite ?_ ?_
  · exact k2
  · refine Keeps.trans ?_ (State.emit_keeps _ _)
    exact k2

end Sys2Proof.Machine
end

