-- ==== Sys2Proof/Laws/KeepsTap.lean ====
section
/-!
SUPPORT. Sys2Proof/Laws/KeepsTap.lean: each operation of Machine/Tap.lean keeps what `Keeps` says, with the parts of the state it may
touch.
-/
namespace Sys2Proof.Machine
set_option Elab.async false

theorem State.tapTake_keeps (s : State) (ir : Nat) (drive : TapDrive) (bits : List Bool) : Keeps 0x40001 s (State.tapTake s ir drive bits) := by
  unfold State.tapTake
  refine Keeps.trans ?_ (State.emit_keeps _ _)
  refine Keeps.svc ?_ _
  exact Keeps.refl _

theorem State.tapSample_keeps (s : State) (ir : Nat) (drive : TapDrive) (captured din : List Bool) : Keeps 0x40001 s (State.tapSample s ir drive captured din) := by
  unfold State.tapSample
  refine Keeps.trans ?_ (State.tapTake_keeps _ _ _ _)
  refine Keeps.svc ?_ _
  exact Keeps.refl _

theorem execIdcode_keeps (s : State) : KNext 0x40001 s (execIdcode s) := by
  unfold execIdcode
  refine KNext.mk ?_
  refine Keeps.trans ?_ (State.tapTake_keeps _ _ _ _)
  exact Keeps.refl _

theorem execSamplePreload_keeps (captured din : List Bool) (s : State) : KNext 0x40001 s (execSamplePreload captured din s) := by
  unfold execSamplePreload
  refine KNext.mk ?_
  refine Keeps.trans ?_ (State.tapSample_keeps _ _ _ _ _)
  exact Keeps.refl _

theorem execExtest_keeps (captured din : List Bool) (s : State) : KNext 0x40001 s (execExtest captured din s) := by
  unfold execExtest
  refine KNext.mk ?_
  refine Keeps.trans ?_ (State.tapSample_keeps _ _ _ _ _)
  exact Keeps.refl _

theorem execClamp_keeps (captured din : List Bool) (s : State) : KNext 0x40001 s (execClamp captured din s) := by
  unfold execClamp
  refine KNext.mk ?_
  refine Keeps.ite ?_ ?_
  · refine Keeps.trans ?_ (State.tapTake_keeps _ _ _ _)
    exact Keeps.refl _
  · refine Keeps.trans ?_ (State.tapSample_keeps _ _ _ _ _)
    exact Keeps.refl _

theorem execHighz_keeps (captured din : List Bool) (s : State) : KNext 0x40001 s (execHighz captured din s) := by
  unfold execHighz
  refine KNext.mk ?_
  refine Keeps.ite ?_ ?_
  · refine Keeps.trans ?_ (State.tapTake_keeps _ _ _ _)
    exact Keeps.refl _
  · refine Keeps.trans ?_ (State.tapSample_keeps _ _ _ _ _)
    exact Keeps.refl _

theorem execBypass_keeps (din : List Bool) (s : State) : KNext 0x40001 s (execBypass din s) := by
  unfold execBypass
  refine KNext.mk ?_
  refine Keeps.trans ?_ (State.tapTake_keeps _ _ _ _)
  exact Keeps.refl _

theorem execInternalScan_keeps (code : Nat) (din : List Bool) (s : State) : KNext 0x40003 s (execInternalScan code din s) := by
  unfold execInternalScan
  refine KNext.ite ?_ ?_
  · refine KNext.mk ?_
    exact Keeps.refl _
  · refine KNext.ite ?_ ?_
    · refine KNext.mk ?_
      refine Keeps.trans ?_ (State.tapTake_keeps _ _ _ _)
      exact Keeps.refl _
    · extract_lets +onlyGivenNames x0
      extract_lets +onlyGivenNames x1
      refine KNext.mk ?_
      refine Keeps.trans ?_ (State.tapTake_keeps _ _ _ _)
      refine Keeps.freeUp ?_ _ (by omega)
      exact Keeps.refl _

theorem execTestLogicReset_keeps (s : State) : KNext 0x40000 s (execTestLogicReset s) := by
  unfold execTestLogicReset
  refine KNext.mk ?_
  refine Keeps.svc ?_ _
  exact Keeps.refl _

end Sys2Proof.Machine
end

