-- ==== Sys2Proof/Tests/Base.lean ====
section
/-!
SUPPORT. Sys2Proof/Tests/Base.lean: the small states the tests use.
-/
namespace Sys2Proof.Machine
set_option Elab.async false

/-- A state with the listed fields set: field, instance, value. -/
def withFlds (s : State) (l : List (Fld × Nat × Nat)) : State := l.foldl (fun s e => s.fset e.1 e.2.1 e.2.2) s

/-- The machine after reset with the listed fields set. -/
def st (l : List (Fld × Nat × Nat)) : State := withFlds State.reset l

/-- The admin pair of a function, of 64 entries each, and a second pair of 64. -/
def testRings : List (Nat × Ring) :=
  [(0, adminRing 6 0x10000 0 0), (1, adminRing 6 0x20000 0 1), (cqPage 0, adminRing 6 0x30000 2 0), (cqPage 1, adminRing 6 0x40000 0 1)]

/-- Partition 0 SEALED with dies 0 and 1, its function on port A bound to VF 1 and READY. -/
def sealedSt (l : List (Fld × Nat × Nat)) : State :=
  { st ([(PTN_STATUS_STATE, 0, 2), (PTN_DIES_DIES, 0, 3), (PTN_BIND_A_EN, 0, 1), (PTN_BIND_A_VF, 0, 1), (HRG_CTRL_EN, 0, 1),
      (HRG_STATUS_READY, 0, 1)] ++ l) with
    fns := [(0, { HostFn.init with rings := testRings })] }

/-- A descriptor of SQ 1 of function 0. -/
def td : Desc := { part := 0, port := 0, sq := 1, index := 0, tag := 7, order := false, intr := false, resv := false, readFail := false }

/-- A context of one layer on die 0, GQA with one key/value head of dimension 1, BF16 tails and sealed pages. -/
def tctx : Ctx :=
  { home := 0, latent := false, model := 9, layers := 1, h := 1, d := 1, w := 0, g := 1, format := 0x88, tailFmt := 8,
    desc := SweepDesc.init, weights := [], hbmMax := 0, hbmMin := 0, flashMax := 0, destroying := none }

/-- An empty sequence 1 of context 5, map version 3. -/
def tslot : SeqSlot := ⟨1, 5, true, false, ⟨3, [], 0, 0, [20]⟩, ⟨0, [], [LayerEnt.init], [21]⟩⟩

/-- `sealedSt` with context 5 and the sequence index of die 0 given. -/
def seqSt (l : List (Fld × Nat × Nat)) (x : Pfx) : State :=
  ((sealedSt ((PFX_STATUS_READY, 0, 1) :: l)).modPart 0 (fun v => { v with ctxs := [(5, tctx)] })).modPfx 0 (fun _ => x)

/-- One sequence in the index of die 0. -/
def onePfx (e : SeqSlot) : Pfx := { Pfx.init with index := [(homeSlot 20 1, e)], used := [20, 21] }

/-- A sealed page of context 5 whose 128 positions are zero. -/
def tsealed : Page :=
  { sealedPage tctx 5 0 0 0 0 0 .sealed (List.replicate 128 ⟨[0, 0], [127, 127]⟩) with refs := 1, segs := [31] }

/-- The same page found SUSPECT. -/
def tsuspect : Page := { tsealed with st := .suspect }

/-- The page SUSPECT on die 0, and its rebuild at the first step, read through atomizer 2. -/
def rebuildSt : State :=
  (seqSt [] { Pfx.init with pages := [(7, tsuspect)] }).modCsm 0 (fun c => { c with rebuilds := [(7, 1, 2)] })

/-- A DECODE step record for sequence 1 of context 5. -/
def tstep : StepRec := parseHead (le 4 0 ++ le 4 1 ++ le 2 5 ++ le 2 1 ++ zeros 52)

/-- A record held from a STEP of SQ 1 of function 0. -/
def theld : Held :=
  { img := [], step := tstep, src := .ring 0 1 0 0x1000 0x2000, tSig := 0, deferrals := 0, checked := true, tagged := false,
    copy := none, tFirst := 0, tElig := 0, cutOff := false, recov := none }

/-- A running record without rows. -/
def trec : SweepRec :=
  { held := theld, snap := ⟨[], 0, 0, 0, 0⟩, appendStatus := 0, appWait := false, rows := [], sel := [], rerun := false, status := none,
    finalised := false, delivered := false, output := [], outMsg := none, flags := 0, tTile := none, tLast := none, tFin := none,
    reruns := 0, blocks := 0, skipped := 0, hits := 0, codedB := 0, rawB := 0,
    proj := [], outBad := false, traced := none }

/-- A sweep of one record of context 5, admitted on die 0. -/
def tsweep : Sweep :=
  { id := 1, part := 0, ctx := 5, shape := tctx, recs := [trec], est := 10, scaled := 10, admTick := 0, admT := 0, endTick := 100000,
    epoch := 0, started := false, startT := 0, planned := false, selDone := false, summaries := [], blocks := [], retry := [], order := [], badTabs := [],
    paused := 0, endT := 0, ended := false, stall := 0, lateness := 0 }

/-- A plan block of page 7 of layer 0 that record 0 needs. -/
def tblk : PlanBlk :=
  { layer := 0, page := 7, blk := 0, posBase := 0, present := 1, bytes := 64, coded := true, tail := false, need := [(0, [])],
    fetched := false, expanded := false, failed := false, atomizer := 0, tiles := [], committed := false,
    elems := none }

/-- `seqSt` with one sweep on die 0. -/
def sweepSt (l : List (Fld × Nat × Nat)) (w : Sweep) : State :=
  (seqSt l Pfx.init).modCsm 0 (fun c => { c with sweeps := [w] })

/-- An NRT peer without a queue pair. -/
def tpeer : Peer :=
  { roce := false, v4 := true, addr := 0x0A000001, paths := 1, id := 0, rate := 400000000, fallT := 0, calmT := 0, tmos := [], down := [],
    failed := 0, qp := none }

/-- A valid region of 4096 bytes of context 5, all rights. -/
def tregion : Region :=
  { st := .valid, gen := 0, inbox := false, ctx := 5, rights := 15, bytes := 4096, entryLog2 := 0, srcMatch := 0, srcMask := 0, ctrBase := 0,
    ctrCount := 8, segs := [60], data := [], ents := [], old := 0 }

/-- The fabric port of die 0 READY, with a peer 1, a bound key 7, and region 5. -/
def nrtSt (l : List (Fld × Nat × Nat)) : State :=
  (seqSt ([(NRT_CTRL_EN, 0, 1), (NRT_PORT_ID_ID, 0, 9)] ++ l) Pfx.init).modNrt 0 (fun n =>
    { n with keys := [(5, tregion)], peers := [(1, tpeer)], binds := [(7, 1)] })

/-- The key of region `e` of die 0. -/
def tkey (s : State) (e : Nat) : Nat := keyOfEntry 0 e (s.entryGen 0 e)

/-- A RoCE queue pair. -/
def tqp : Qp :=
  { qpn := 4, remote := 5, sendPsn := 0, recvPsn := 9, mtu := 10, err := false, cur := none, curT := 0, sends := [], tmo := 0, lastT := 0 }

/-- A RoCE peer. -/
def troce : Peer := { tpeer with roce := true, qp := some tqp }

/-- `nrtSt` with RoCE on and peer 1 a RoCE peer. -/
def roceSt : State := (nrtSt [(NRT_CTRL_ROCE_EN, 0, 1)]).modNrt 0 (fun n => { n with peers := [(1, troce)] })

/-- The header of a message of one packet of 2 bytes for a key. -/
def thdr (typ key : Nat) : NrtHdr :=
  { typ := typ, retx := false, fence := false, ceEcho := false, path := 0, segLog2 := 12, paths := 1, src := 3, msg := 8, total := 2,
    off := 0, status := 0, key := key, sigIndex := 0, addr := 16, sigAdd := 0, dep := 0 }

/-- A message of die 0 under way to peer 1. -/
def ttx (typ : Nat) (f : Option (Nat × Nat)) : Tx :=
  { msg := 8, peer := 1, hdr := thdr typ 7, bytes := [1, 2], from_ := f, use := .none_, kind := .result, sent := [], tmo := 0, lastT := 0,
    lastPath := 0, retry := 8, ackTmo := 1000, minRate := 0 }

/-- An open META band of three channels. -/
def tband : Band := ⟨.meta_, 0xFF, 0, [(0, 0, 1), (1, 0, 1), (2, 0, 1)], 0, false, .none_, [], [], 0⟩

/-- An object of one sector at the start of band 1, passed and durable. -/
def tobj : FObj :=
  { kind := 3, obj := 7, ns := 0xFF, gen := 0, loc := ⟨1, 0, 1⟩, st := .passed, left := [], reads := [], src := none, data := .nskey 0 0 none,
    jseq := 1, durable := true, epoch := 0, urgent := false }

/-- The parameter page of LUN 0 of a channel, as R254 and the device table admit it. -/
def tlun (c : Nat) : LunPage :=
  { chan := c, lun := 0, ce := 0, iface := 1, bus := 8, rate := 96, pageBytes := 16384, spareBytes := 2048, planes := 4, blocks := 512,
    pages := 2048, cell := 1, pslc := true, features := true, tprog := 900, tprogSlc := 100, peRated := 3000 }

/-- An anchor of serial 3 that covers the records up to 5. -/
def tanchor : Anchor := ⟨3, 5, ⟨1, 0, 1⟩, 2, 0⟩

/-- An open JOURNAL band of three channels with one slot pair written, and the page of one record in it. -/
def tjband : Band := ⟨.journal, 0xFF, 0, [(0, 0, 1), (1, 0, 1), (2, 0, 1)], 1, false, .none_, [], [], 256⟩

def tjpage : JPage := ⟨1, [⟨1, 0xFF, .band 1 1 .journal []⟩], 255, 1, 0, false, false⟩

/-- The flash of die 0 READY, with band 1. -/
def flashSt (l : List (Fld × Nat × Nat)) (b : Band) : State :=
  (seqSt ([(FTL_CTRL_EN, 0, 1), (FTL_STATUS_READY, 0, 1), (FTL_GEOM_BLOCKS_M1, 0, 511), (FTL_GEOM_PAGES_M1, 0, 2047)] ++ l) Pfx.init).modFtl 0
    (fun f => { f with bands := [(1, b)] })

end Sys2Proof.Machine
end

