-- ==== Sys2Proof/Tests/Slice0.lean ====
section
/-!
SUPPORT. Sys2Proof/Tests/Slice0.lean: well-formedness refuses a wrong term for each of its checks, and small tests whose results
the spec's own examples and tables give.
-/
namespace Sys2Proof.Machine
set_option Elab.async false
open Sys2Proof

/-! ### An ill-formed term for each check -/

theorem test_wf_die : (Instr.gcStart 8).wf = false := by decide
theorem test_wf_partition : (Instr.seal 8).wf = false := by decide
theorem test_wf_port : (Instr.hostLinkUp 2 5 8 true 8).wf = false := by decide
theorem test_wf_kind : (Instr.test 13 0 0).wf = false := by decide
theorem test_wf_kind_zero : (Instr.test 0 0 0).wf = false := by decide
theorem test_wf_optional_die : (Instr.status (some 8)).wf = false := by decide
theorem test_wf_function : (Instr.minClr (.vf 16)).wf = false := by decide
theorem test_wf_pf_port : (Instr.minClr (.pf 2)).wf = false := by decide
theorem test_wf_sq : (Instr.nop { td with sq := 128 }).wf = false := by decide
theorem test_wf_index : (Instr.nop { td with index := 65536 }).wf = false := by decide
theorem test_wf_desc_partition : (Instr.nop { td with part := 8 }).wf = false := by decide
theorem test_wf_desc_port : (Instr.nop { td with port := 2 }).wf = false := by decide
theorem test_wf_context : (Instr.mapCreate td 1 4096 false false []).wf = false := by decide
theorem test_wf_layer : (Instr.mapAppend td 1 256 0 [] []).wf = false := by decide
theorem test_wf_pane : (Instr.tileProductDone 0 4 1 0 0 0 0 false 0 0 0).wf = false := by decide
theorem test_wf_good : (Instr.mapAppend td 1 0 0 [7] [[1, 2]]).wf = true := by decide

/-! ### The table of the commands gives no bits -/

theorem test_no_word : decodeTableWord 32 0 = none := by decide
theorem test_reset_wf : State.reset.wf = true := by decide

/-! ### The example of the page coder (chapter 6: stream 0 of the worked page) -/

/-- Counts of the page's key symbols in the example's table. -/
def exCounts : List (Nat × Nat) :=
  [(0, 60), (1, 420), (2, 700), (3, 560), (4, 300), (5, 50), (6, 14), (7, 4), (8, 20), (9, 400), (10, 680), (11, 540), (12, 290),
   (13, 46), (14, 10), (15, 2)]

/-- Lengths in the example's table. -/
def exLens : List (Nat × Nat) :=
  [(0, 6), (1, 3), (2, 3), (3, 3), (4, 3), (5, 6), (6, 8), (7, 10), (8, 7), (9, 3), (10, 3), (11, 3), (12, 4), (13, 6), (14, 9), (15, 10)]

theorem test_code_lengths :
    (((joinNodes 16 0 (exCounts.foldl (fun l e => insNode ⟨e.2, e.1, [(e.1, 0)]⟩ l) [])).flatMap (·.syms)).foldl
      (fun t e => tput t e.1 e.2) []) = exLens := by decide +kernel

theorem test_kraft_sum : kraft exLens = 32768 := by decide

theorem test_codes : codesOf exLens =
    [(1, 3, 0), (2, 3, 1), (3, 3, 2), (4, 3, 3), (9, 3, 4), (10, 3, 5), (11, 3, 6), (12, 4, 0xE), (0, 6, 0x3C), (5, 6, 0x3D),
     (13, 6, 0x3E), (8, 7, 0x7E), (6, 8, 0xFE), (14, 9, 0x1FE), (7, 10, 0x3FE), (15, 10, 0x3FF)] := by decide +kernel

/-- Elements 0 to 4 of stream 0 pack to the bytes 0xAC and 0x2E. -/
theorem test_packed_bits :
    packBits 2 ([2, 10, 3, 12, 9].flatMap (elemBits 4 (codesOf exLens))) = [0xAC, 0x2E] := by decide +kernel

/-! ### Values the chapters name -/

/-- The histogram example of chapter 15: SRC 0x02, LOG = 1, BASE 0. -/
theorem test_histogram_log : histBin true 0 0 57852 = 16 := by decide
theorem test_histogram_linear : histBin false 640 1 702 = 31 ∧ histBin false 640 1 640 = 0 := by decide
/-- 215,296 bytes of a sealed page fill 53 sectors (chapter 1). -/
theorem test_page_sectors : ceilDiv 215296 4096 = 53 := by decide

/-- The first lane of the permutation of FIPS 202 on zeros, which the chain values rest on. -/
theorem test_keccak : (keccakF (List.replicate 25 0)).getD 0 0 = 0xF1258F7940E1DDE7 := by decide +kernel

/-! ### Functions of other standards, on the vectors those standards publish -/

/-- FIPS 197: the S-box of 00 and 53 (section 5.1.1). -/
theorem test_sbox : sbox 0 = 0x63 ∧ sbox 0x53 = 0xED := by decide +kernel

/-- A column of MixColumns. -/
theorem test_mix_columns :
    (mixColumns ([0xDB, 0x13, 0x53, 0x45] ++ List.replicate 12 0)).take 4 = [0x8E, 0x4D, 0xA1, 0xBC] := by decide +kernel

/-- The σ of the worked tick of chapter 2: 194,060 CA cycles against 189,000 estimated take 1.000 to 0x1006. -/
theorem test_scale : ((((st [(PTN_DIES_DIES, 0, 1)]).modCsm 0 (fun c => { c with sumActual := 194060, sumEst := 189000 })).updateScale 0).fget
    TIK_SCALE_NOW_SCALE 0) = 0x1006 := by decide +kernel

/-! ### One step -/

/-- An idle step passes one cycle of the TIME domain and takes no command. -/
theorem test_idle : (match step State.reset with | .next t => decide (t.pending = []) && decide (t.out = []) | _ => false) = true := by
  decide +kernel

/-- NOP of a live descriptor completes with OK. -/
theorem test_nop : (match exec (.nop td) (sealedSt []) with
    | .next t => t.out.any (fun e => match e with | .completion _ 1 _ _ c => c.status == stOK && c.tag == 7 | _ => false)
    | _ => false) = true := by decide +kernel

/-- NOP runs in an OPEN partition too. -/
theorem test_nop_open : (match exec (.nop td) ((sealedSt []).fset PTN_STATUS_STATE 0 1) with
    | .next t => t.out.any (fun e => match e with | .completion _ 1 _ _ c => c.status == stOK | _ => false)
    | _ => false) = true := by decide +kernel

/-- In a partition being removed it completes with FENCED. -/
theorem test_nop_removing : (match exec (.nop td) ((sealedSt []).fset PTN_STATUS_STATE 0 3) with
    | .next t => t.out.any (fun e => match e with | .completion _ 1 _ _ c => c.status == stFENCED | _ => false)
    | _ => false) = true := by decide +kernel

end Sys2Proof.Machine
end

