-- ==== Sys2Proof/Tests/Witnesses.lean ====
section
/-!
SUPPORT. Sys2Proof/Tests/Witnesses.lean: for every statement with hypotheses, a state and operands that meet them together.
-/
namespace Sys2Proof.Machine
open Sys2Proof
set_option Elab.async false
set_option linter.unusedVariables false

theorem allNone {α : Type} {o : Option α} {P : α → Prop} (h : o = none) : ∀ x, o = some x → P x := by
  subst h
  exact fun _ h => nomatch h

theorem tkey_die (s : State) : keyDie (tkey s 5) = 0 := by unfold keyDie tkey keyOfEntry; omega
theorem tkey_entry (s : State) : keyEntry (tkey s 5) = 5 := by unfold keyEntry tkey keyOfEntry; omega
theorem tkey_gen (s : State) : keyGen (tkey s 5) = s.entryGen 0 5 := by unfold keyGen tkey keyOfEntry; omega

/-- A key of region 5 is valid in every state that holds the region with its generation. -/
theorem tkey_valid (s t : State) (h : (t.region 0 5).st = .valid) (hg : t.entryGen 0 5 = s.entryGen 0 5) :
    t.keyValid 0 (tkey s 5) = true := by
  unfold State.keyValid
  rw [tkey_die, tkey_entry, tkey_gen]
  simp [h, hg]

theorem applyEdit_write (s : State) (d k q l pos : Nat) (data : List (List Nat)) (h : (s.writeMap d k l pos data).isOk = true) :
    (s.applyEdit d k (.write q l pos data)).isOk = true := h

theorem applyEdit_fork (s : State) (d k q p n : Nat) (b : Bool) (h : (s.fork d k q n b).isOk = true) :
    (s.applyEdit d k (.fork q p n b)).isOk = true := h

/-- The generations of a die's keys rest on three values. -/
theorem entryGen_same {s t : State} {d e : Nat} (h1 : (t.nrt d).genSeed = (s.nrt d).genSeed) (h2 : (t.nrt d).genAdd = (s.nrt d).genAdd)
    (h3 : ((t.nrt d).region e).gen = ((s.nrt d).region e).gen) : t.entryGen d e = s.entryGen d e := by
  unfold State.entryGen
  simp only [h1, h2, h3]

theorem roce_gen : roceSt.entryGen 0 5 = (nrtSt []).entryGen 0 5 :=
  entryGen_same (by decide +kernel) (by decide +kernel) (by decide +kernel)

theorem witness_DisciplineFollowsMessagesAndTimers_1 : ∃ (s : State) (d dom : Nat) (k : Int) (t : Nat),
    (s.fget TIK_STATUS_STATE 0 = discFree) ∧ (s.fget TIK_CTRL_DISC_EN 0 ≠ 0) ∧ (d = s.fget TIK_CTRL_SRC_DIE 0) ∧ (d < 8) ∧ (dom = s.fget TIK_PTP_CFG_DOMAIN 0) :=
  ⟨st [(TIK_CTRL_SRC_DIE, 0, 7)], 7, 0, -1, 5,
    (by decide +kernel),
    (by decide +kernel),
    (by decide +kernel),
    (by decide +kernel),
    (by decide +kernel)⟩

theorem witness_DisciplineFollowsMessagesAndTimers_2 : ∃ (s : State) (d : Nat) (o : Int) (t : Nat),
    (s.fget TIK_STATUS_STATE 0 = discAcq) ∧ (d = s.fget TIK_STATUS_SRC_ACT 0) ∧ (-2147483648 ≤ o) ∧ (o < 2147483648) :=
  ⟨{ (st [(TIK_STATUS_STATE, 0, discAcq)]) with clk := { ((st [(TIK_STATUS_STATE, 0, discAcq)])).clk with inLock := 15 } }, 0, -100, 5,
    (by decide +kernel),
    (by decide +kernel),
    (by decide +kernel),
    (by decide +kernel)⟩

theorem witness_DisciplineFollowsMessagesAndTimers_3 : ∃ (s : State) (t : Nat),
    (s.fget TIK_STATUS_STATE 0 = discLocked) ∧ (s.clk.annAt + 3 * s.clk.annNs ≤ t) :=
  ⟨st [(TIK_STATUS_STATE, 0, discLocked)], 3000000000,
    (by decide +kernel),
    (by decide +kernel)⟩

theorem witness_DisciplineFollowsMessagesAndTimers_4 : ∃ (s : State) (t : Nat),
    (s.fget TIK_STATUS_STATE 0 = discHold) ∧ (s.fget TIK_HOLD_LIMIT_LIMIT 0 * secNs < s.clk.holdNs) :=
  ⟨{ (st [(TIK_STATUS_STATE, 0, discHold)]) with clk := { ((st [(TIK_STATUS_STATE, 0, discHold)])).clk with holdNs := 600000000001 } }, 0,
    (by decide +kernel),
    (by decide +kernel)⟩

theorem witness_DisciplineFollowsMessagesAndTimers_5 : ∃ (s : State) (heard : List (Nat × Int)) (d : Nat) (k : Int) (t : Nat),
    (s.clk.searching = true) ∧ (s.fbit TIK_CTRL_FAILOVER 0 = true) ∧ (s.searchFinds heard = some (d, k)) ∧ (d < 8) :=
  ⟨{ State.reset with clk := { (State.reset).clk with searching := true } }, [(2, 0), (1, -3)], 1, -3, 0,
    (by decide +kernel),
    (by decide +kernel),
    (by decide +kernel),
    (by decide +kernel)⟩

theorem witness_TimeRegistersAndReference_1 : ∃ (s : State) (via : Via),
    (MayWrite via (TIK_CTRL_DISC_EN.at_ 0) s) :=
  ⟨st [(TIK_STATUS_STATE, 0, discLocked)], .pf 0,
    (fun _ h => nomatch h)⟩

theorem witness_TimeRegistersAndReference_2 : ∃ (s : State) (via : Via),
    (MayWrite via (TIK_CTRL_STEP_NOW.at_ 0) s) :=
  ⟨{ State.reset with clk := { (State.reset).clk with measured := true } }, .pf 0,
    (fun _ h => nomatch h)⟩

theorem witness_TimeRegistersAndReference_3 : ∃ (s : State) (via : Via),
    (MayRead via (TIK_TIME_NS_NS.at_ 0) s) :=
  ⟨{ State.reset with clk := { (State.reset).clk with tNs := 5000000007 } }, .pf 1,
    (fun _ h => nomatch h)⟩

theorem witness_TimeRegistersAndReference_4 : ∃ (s : State) (p : Nat) (via : Via),
    (p < 8) ∧ (MayRead via (TIK_TICK_LO_TICK_LO.at_ p) s) :=
  ⟨{ State.reset with clk := { (State.reset).clk with tNs := 5000000007 } }, 7, .console,
    (by decide +kernel),
    (fun _ h => nomatch h)⟩

theorem witness_TicksAndSlots_1 : ∃ (s : State) (p t : Nat),
    (p < 8) ∧ ((s.part p).pendPer = false) ∧ ((s.part p).resetDue = false) ∧ (max s.clk.tNs t % s.periodNs p = 0) ∧ ((s.part p).genOn = true) ∧ (max s.clk.tNs t ≠ (s.part p).slotT) :=
  ⟨((st [(TIK_PERIOD_EN, 0, 1)])).modPart 0 (fun v => { v with genOn := true }), 0, 100000,
    (by decide +kernel),
    (by decide +kernel),
    (by decide +kernel),
    (by decide +kernel),
    (by decide +kernel),
    (by decide +kernel)⟩

theorem witness_TicksAndSlots_2 : ∃ (s : State) (p t : Nat),
    (p < 8) ∧ ((s.part p).genOn = true) ∧ ((s.part p).resetDue = false) ∧ (max s.clk.tNs t ≠ (s.part p).slotT) ∧ (max s.clk.tNs t % s.periodNs p ≠ 0) ∧ (max s.clk.tNs t % s.periodNs p * s.slotsOf p % s.periodNs p = 0) :=
  ⟨((st [(TIK_PERIOD_EN, 0, 1)])).modPart 0 (fun v => { v with genOn := true }), 0, 125000,
    (by decide +kernel),
    (by decide +kernel),
    (by decide +kernel),
    (by decide +kernel),
    (by decide +kernel),
    (by decide +kernel)⟩

theorem witness_TicksAndSlots_3 : ∃ (s : State) (p : Nat) (en : Bool) (via : Via),
    (p < 8) ∧ (MayWrite via (TIK_PERIOD_EN.at_ p) s) :=
  ⟨State.reset, 7, true, .pf 0,
    (by decide +kernel),
    (fun _ h => nomatch h)⟩

theorem witness_TicksAndSlots_4 : ∃ (s : State) (p n slots t : Nat) (via : Via),
    (p < 8) ∧ (MayWrite via (TIK_PERIOD_N.at_ p) s) ∧ (s.locked p = false) ∧ ((s.part p).genOn = false) ∧ (1 ≤ n) ∧ (n ≤ 40) ∧ (slots < 4) :=
  ⟨State.reset, 7, 40, 3, 5, .console,
    (by decide +kernel),
    (fun _ h => nomatch h),
    (by decide +kernel),
    (by decide +kernel),
    (by decide +kernel),
    (by decide +kernel),
    (by decide +kernel)⟩

theorem witness_TicksAndSlots_5 : ∃ (s : State) (p t : Nat),
    (p < 8) ∧ ((s.part p).pendPer = true) ∧ (max s.clk.tNs t ≠ (s.part p).slotT) ∧ (max s.clk.tNs t % s.periodNs p = 0) ∧ (max s.clk.tNs t % (s.fget TIK_PERIOD_N p * 50000) = 0) :=
  ⟨((st [(TIK_PERIOD_N, 3, 4)])).modPart 3 (fun v => { v with pendPer := true }), 3, 200000,
    (by decide +kernel),
    (by decide +kernel),
    (by decide +kernel),
    (by decide +kernel),
    (by decide +kernel)⟩

theorem witness_MapEditsComplete_1 : ∃ (s : State) (q : Desc) (seq k j : Nat) (e : SeqSlot) (layer pos : Nat) (toks : List Nat) (data : List (List Nat)),
    (Open q s) ∧ (Live q s) ∧ (MapOpen q seq k j e s) ∧ (((s.begin q 0x21 (seq + layer * 2 ^ 32)).applyEdit k j (.append seq layer pos toks data)).isOk = true) :=
  ⟨seqSt [] (onePfx tslot), td, 1, 0, homeSlot 20 1, tslot, 0, 0, [7], [[1,2]],
    (by unfold Open; decide +kernel),
    (by unfold Live; decide +kernel),
    (by unfold MapOpen Volatile; decide +kernel),
    (by decide +kernel)⟩

theorem witness_MapEditsComplete_2 : ∃ (s : State) (q : Desc) (seq k j : Nat) (e : SeqSlot) (layer pos : Nat) (data : List (List Nat)),
    (Open q s) ∧ (Live q s) ∧ (MapOpen q seq k j e s) ∧ (((s.begin q 0x22 (seq + layer * 2 ^ 32)).applyEdit k j (.write seq layer pos data)).isOk = true) :=
  ⟨seqSt [] { onePfx { tslot with tail := ⟨0, [4], [⟨0, 6, 1, false, 0⟩], [21]⟩ } with pages := [(6, { newTail tctx 5 0 0 1 [⟨[1, 2], []⟩] with refs := 1, segs := [30] })] }, td, 1, 0, homeSlot 20 1, { tslot with tail := ⟨0, [4], [⟨0, 6, 1, false, 0⟩], [21]⟩ }, 0, 0, [[8, 9]],
    (by unfold Open; decide +kernel),
    (by unfold Live; decide +kernel),
    (by unfold MapOpen Volatile; decide +kernel),
    (by
      refine applyEdit_write _ _ _ _ _ _ _ (State.writeMap_tail_ok _ _ _ _ _ _ { tslot with tail := ⟨0, [4], [⟨0, 6, 1, false, 0⟩], [21]⟩ }
        tctx { newTail tctx 5 0 0 1 [⟨[1, 2], []⟩] with refs := 1, segs := [30] } ?_ ?_ ?_ ?_ rfl rfl ?_ ?_ ?_ ?_ ?_) <;> decide +kernel)⟩

theorem witness_MapEditsComplete_3 : ∃ (s : State) (q : Desc) (seq k j : Nat) (e : SeqSlot) (len : Nat),
    (Open q s) ∧ (Live q s) ∧ (MapOpen q seq k j e s) ∧ (((s.begin q 0x23 (seq + len * 2 ^ 32)).applyEdit k j (.truncate seq len)).isOk = true) :=
  ⟨seqSt [] (onePfx tslot), td, 1, 0, homeSlot 20 1, tslot, 0,
    (by unfold Open; decide +kernel),
    (by unfold Live; decide +kernel),
    (by unfold MapOpen Volatile; decide +kernel),
    (by decide +kernel)⟩

theorem witness_MapEditsComplete_4 : ∃ (s : State) (q : Desc) (seq k j : Nat) (e : SeqSlot) (new len : Nat),
    (Open q s) ∧ (Live q s) ∧ (MapOpen q seq k j e s) ∧ (s.seqDie? q.part new = none) ∧ (Volatile k new s) ∧ (s.editWait q [new, seq] = false) ∧ (((s.begin q 0x24 (new + seq * 2 ^ 32)).applyEdit k j (.fork new seq len false)).isOk = true) :=
  ⟨seqSt [] (onePfx tslot), td, 1, 0, homeSlot 20 1, tslot, 2, 0,
    (by unfold Open; decide +kernel),
    (by unfold Live; decide +kernel),
    (by unfold MapOpen Volatile; decide +kernel),
    (by decide +kernel),
    (by unfold Volatile; decide +kernel),
    (by decide +kernel),
    (by
      refine applyEdit_fork _ _ _ _ _ _ _ (State.fork_zero_ok _ _ _ _ _ tslot tctx ?_ ?_ rfl rfl ?_ ?_ ?_) <;> decide +kernel)⟩

theorem witness_MapEditsComplete_5 : ∃ (s : State) (q : Desc) (seq k j : Nat) (e : SeqSlot),
    (Open q s) ∧ (Live q s) ∧ (MapOpen q seq k j e s) :=
  ⟨seqSt [] (onePfx tslot), td, 1, 0, homeSlot 20 1, tslot,
    (by unfold Open; decide +kernel),
    (by unfold Live; decide +kernel),
    (by unfold MapOpen Volatile; decide +kernel)⟩

theorem witness_SequencesTreeAndSeals_1 : ∃ (s : State) (q : Desc) (seq ctx : Nat) (toks : List Nat) (c : Ctx),
    (Open q s) ∧ (Live q s) ∧ (s.ctx? q.part ctx = some c) ∧ (s.dieDown c.home = false) ∧ (s.fbit PFX_STATUS_READY c.home = true) ∧ (s.seqDie? q.part seq = none) ∧ (c.destroying = none) ∧ (Volatile c.home seq s) ∧ (s.editWait q [seq] = false) ∧ (toks.length ≤ 2 ^ 20) ∧ (((s.begin q 0x20 (seq + ctx * 2 ^ 32)).create c.home seq ctx false false toks).isOk = true) :=
  ⟨seqSt [] Pfx.init, td, 1, 5, [3,4], tctx,
    (by unfold Open; decide +kernel),
    (by unfold Live; decide +kernel),
    (by decide +kernel),
    (by decide +kernel),
    (by decide +kernel),
    (by decide +kernel),
    (by decide +kernel),
    (by unfold Volatile; decide +kernel),
    (by decide +kernel),
    (by decide +kernel),
    (by
      refine State.create_ok _ _ _ _ _ _ tctx ?_ ?_ ?_ <;> decide +kernel)⟩

theorem witness_SequencesTreeAndSeals_2 : ∃ (s : State) (q : Desc) (ctx : Nat) (cascade : Bool) (chain k : Nat) (c : Ctx) (e : TreeEnt),
    (Open q s) ∧ (Live q s) ∧ (s.ctx? q.part ctx = some c) ∧ (s.dieDown c.home = false) ∧ (s.fbit PFX_STATUS_READY c.home = true) ∧ (s.treeFind c.home chain = some (k, e)) ∧ (cascade = true ∨ (∀ x, s.chunk? c.home e.chunk = some x → x.children = 0)) :=
  ⟨seqSt [] { Pfx.init with tree := [(5 * (77 % 2 ^ 20), ⟨77, 3, .valid, 0⟩)] }, td, 5, true, 77, 5 * 77, tctx, ⟨77, 3, .valid, 0⟩,
    (by unfold Open; decide +kernel),
    (by unfold Live; decide +kernel),
    (by decide +kernel),
    (by decide +kernel),
    (by decide +kernel),
    (by decide +kernel),
    (by decide +kernel)⟩

theorem witness_SequencesTreeAndSeals_3 : ∃ (s : State) (die page k : Nat) (p : Page) (e : SeqSlot),
    (s.page? die page = some p) ∧ (p.st = .sealing) ∧ ((s.pfx die).index.find? (fun e => e.2.tail.layers.any (fun l => l.sealed == page && l.full != 0)) = some (k, e)) ∧ (SlotAt s die k = some e) :=
  ⟨seqSt [] { onePfx { tslot with tail := ⟨0, [4], [⟨6, 0, 0, false, 7⟩], [21]⟩ } with pages := [(6, { newTail tctx 5 0 0 1 [⟨[1, 2], []⟩] with refs := 1, segs := [30] }), (7, { newTail tctx 5 0 0 1 [⟨[1, 2], []⟩] with st := .sealing, refs := 1, segs := [31] })] }, 0, 7, homeSlot 20 1, { newTail tctx 5 0 0 1 [⟨[1, 2], []⟩] with st := .sealing, refs := 1, segs := [31] }, { tslot with tail := ⟨0, [4], [⟨6, 0, 0, false, 7⟩], [21]⟩ },
    (by decide +kernel),
    (by decide +kernel),
    (by decide +kernel),
    (by decide +kernel)⟩

theorem witness_SequencesTreeAndSeals_4 : ∃ (s : State) (die seq k : Nat) (e : SeqSlot),
    (s.seqSlot? die seq = some (k, e)) ∧ (e.complete? = true) ∧ (e.parked = false) ∧ (Volatile die seq s) ∧ (s.seqBusy die seq = false) ∧ ((s.completeChunk die k).isOk = true) :=
  ⟨seqSt [(RAS_DIE_STATE_STACKS, 0, 7), (PFX_CHUNK_CAP_CAP, 0, 100)] { onePfx { tslot with body := ⟨3, [9], 0, 0, [20]⟩, tail := ⟨128, List.replicate 128 4, [⟨6, 0, 0, true, 7⟩], [21]⟩ } with chunks := [(9, { chain := 77, model := 9, parent := 0, st := .priv, parked := false, written := true, holders := 1, children := 0, depth := 0, rel := 0, ctx := 5, created := 0, tokens := List.replicate 128 1, pages := [8] })], pages := [(7, { newTail tctx 5 0 0 1 [⟨[1, 2], []⟩] with st := .sealed, refs := 1, segs := [31] })] }, 0, 1, homeSlot 20 1, { tslot with body := ⟨3, [9], 0, 0, [20]⟩, tail := ⟨128, List.replicate 128 4, [⟨6, 0, 0, true, 7⟩], [21]⟩ },
    (by decide +kernel),
    (by decide +kernel),
    (by decide +kernel),
    (by unfold Volatile; decide +kernel),
    (by decide +kernel),
    (by
      refine State.completeChunk_written_ok _ _ _ { tslot with body := ⟨3, [9], 0, 0, [20]⟩, tail := ⟨128, List.replicate 128 4, [⟨6, 0, 0, true, 7⟩], [21]⟩ } 9 { chain := 77, model := 9, parent := 0, st := .priv, parked := false, written := true, holders := 1, children := 0, depth := 0, rel := 0, ctx := 5, created := 0, tokens := List.replicate 128 1, pages := [8] } ?_ rfl ?_ rfl ?_ ?_ <;> decide +kernel)⟩

theorem witness_SequencesTreeAndSeals_5 : ∃ (s : State) (die : Nat),
    (s.fbit PFX_CTRL_AUTO_EVICT die = true) ∧ (s.fget PFX_EVICT_HWM die * s.treeSlots die ≤ 100 * (s.pfx die).tree.length) :=
  ⟨st [(PFX_CTRL_AUTO_EVICT,0,1),(PFX_EVICT_HWM,0,0)], 0,
    (by decide +kernel),
    (by decide +kernel)⟩

theorem witness_SequencesTreeAndSeals_6 : ∃ (s : State) (die : Nat) (via : Via),
    (MayWrite via (PFX_CTRL_EN.at_ die) s) ∧ (s.dieLocked die = false) ∧ (s.fbit PFX_CTRL_EN die = false) ∧ (s.shadowed die = false) ∧ (s.fbit FTL_STATUS_READY die = false ∨ (s.ftl die).restored = true) :=
  ⟨st [(RAS_DIE_STATE_STACKS,0,7)], 0, .pf 0,
    (fun _ h => nomatch h),
    (by decide +kernel),
    (by decide +kernel),
    (by decide +kernel),
    (by decide +kernel)⟩

theorem witness_SequencesTreeAndSeals_7 : ∃ (s : State) (die page : Nat) (p : Page),
    (s.page? die page = some p) ∧ (p.st = .sealing) :=
  ⟨seqSt [] { Pfx.init with pages := [(7, { newTail tctx 5 0 0 1 [⟨[1, 2], []⟩] with st := .sealing, refs := 1, segs := [31] })] }, 0, 7, { newTail tctx 5 0 0 1 [⟨[1, 2], []⟩] with st := .sealing, refs := 1, segs := [31] },
    (by decide +kernel),
    (by decide +kernel)⟩

theorem witness_SweepDescriptorsComplete_1 : ∃ (s : State) (q : Desc) (ctx : Nat) (b : SweepDesc) (c : Ctx),
    (Open q s) ∧ (Live q s) ∧ (s.ctx? q.part ctx = some c) ∧ (s.dieDown c.home = false) ∧ (b.ok c = true) :=
  ⟨seqSt [] (onePfx tslot), td, 5, { SweepDesc.init with g := 2 }, tctx,
    (by unfold Open; decide +kernel),
    (by unfold Live; decide +kernel),
    (by decide +kernel),
    (by decide +kernel),
    (by decide +kernel)⟩

theorem witness_SweepDescriptorsComplete_2 : ∃ (s : State) (q : Desc) (ctx first countM1 fmt bytes : Nat) (img : List Byte) (c : Ctx),
    (Open q s) ∧ (Live q s) ∧ (s.ctx? q.part ctx = some c) ∧ (s.dieDown c.home = false) ∧ (c.latent = true) ∧ (first + countM1 < c.layers) ∧ (fmt = 1 ∨ fmt = 8) ∧ (bytes = (countM1 + 1) * layerBytes c fmt) ∧ (img.length = bytes) ∧ (((s.begin q 0x31 ctx).loadLayers c.home q.part ctx c fmt img 0 first (countM1 + 1)).isOk = true) :=
  ⟨(seqSt [] (onePfx tslot)).modPart 0 (fun v => { v with ctxs := [(5, { tctx with latent := true })] }), td, 5, 0, 0, 8, 0, [], { tctx with latent := true },
    (by unfold Open; decide +kernel),
    (by unfold Live; decide +kernel),
    (by decide +kernel),
    (by decide +kernel),
    (by decide +kernel),
    (by decide +kernel),
    (by decide +kernel),
    (by decide +kernel),
    (by decide +kernel),
    (by decide +kernel)⟩

theorem witness_SweepDescriptorsComplete_3 : ∃ (s : State) (q : Desc) (ctx grad seq first countM1 posFirst posCount j : Nat) (c : Ctx) (e : SeqSlot),
    (Open q s) ∧ (Live q s) ∧ (s.ctx? q.part ctx = some c) ∧ (s.dieDown c.home = false) ∧ (c.latent = false) ∧ ((s.diesOf q.part).all (fun d => (tget (s.csm d).grads grad).isNone) = true) ∧ (grad < 64) ∧ (s.seqSlot? c.home seq = some (j, e)) ∧ (e.ctx = ctx) ∧ (first + countM1 < c.layers) ∧ (1 ≤ posCount) ∧ (posCount ≤ 2 ^ 20) ∧ (posFirst + posCount ≤ 2 ^ 20) ∧ ((s.begin q 0x32 (ctx + grad * 2 ^ 16 + seq * 2 ^ 32)).quotaOk c.home ctx (ceilDiv ((countM1 + 1) * posCount * gradEntry c) 4096) = true) ∧ (ceilDiv ((countM1 + 1) * posCount * gradEntry c) 4096 ≤ s.freeSegs c.home) :=
  ⟨seqSt [(RAS_DIE_STATE_STACKS,0,7)] (onePfx tslot), td, 5, 63, 1, 0, 0, 0, 128, homeSlot 20 1, tctx, tslot,
    (by unfold Open; decide +kernel),
    (by unfold Live; decide +kernel),
    (by decide +kernel),
    (by decide +kernel),
    (by decide +kernel),
    (by decide +kernel),
    (by decide +kernel),
    (by decide +kernel),
    (by decide +kernel),
    (by decide +kernel),
    (by decide +kernel),
    (by decide +kernel),
    (by decide +kernel),
    (by decide +kernel),
    (by decide +kernel)⟩

theorem witness_SweepDescriptorsComplete_4 : ∃ (s : State) (q : Desc) (ctx grad : Nat) (keep : Bool) (dest room : Nat) (c : Ctx),
    (Open q s) ∧ (Live q s) ∧ (s.ctx? q.part ctx = some c) ∧ ((s.part q.part).lostGrads.contains (ctx, grad) = true) :=
  ⟨(seqSt [] (onePfx tslot)).modPart 0 (fun v => { v with lostGrads := [(5, 3)] }), td, 5, 3, false, 0, 0, tctx,
    (by unfold Open; decide +kernel),
    (by unfold Live; decide +kernel),
    (by decide +kernel),
    (by decide +kernel)⟩

theorem witness_SweepDescriptorsComplete_5 : ∃ (s : State) (q : Desc) (ctx grad : Nat) (keep : Bool) (dest room : Nat) (c : Ctx) (g : Grad),
    (Open q s) ∧ (Live q s) ∧ (s.ctx? q.part ctx = some c) ∧ (s.dieDown c.home = false) ∧ ((s.part q.part).lostGrads.contains (ctx, grad) = false) ∧ (tget (s.csm c.home).grads grad = some g) ∧ (g.ctx = ctx) ∧ (g.closing = []) ∧ (dest = 0 ∨ g.layers * g.positions * gradEntry c ≤ room) ∧ ((s.csm c.home).grads.all (fun e => e.2.closing.isEmpty) = true) ∧ (s.gradBusy c.home grad = false) ∧ (g.poisoned = false) :=
  ⟨(seqSt [] (onePfx tslot)).modCsm 0 (fun x => { x with grads := [(3, { ctx := 5, seq := 1, layerFirst := 0, layers := 1, posFirst := 0, positions := 1, entries := [], count := 4, poisoned := false, segs := [40], closing := [] })] }), td, 5, 3, false, 0x40, 8, tctx, { ctx := 5, seq := 1, layerFirst := 0, layers := 1, posFirst := 0, positions := 1, entries := [], count := 4, poisoned := false, segs := [40], closing := [] },
    (by unfold Open; decide +kernel),
    (by unfold Live; decide +kernel),
    (by decide +kernel),
    (by decide +kernel),
    (by decide +kernel),
    (by decide +kernel),
    (by decide +kernel),
    (by decide +kernel),
    (by decide +kernel),
    (by decide +kernel),
    (by decide +kernel),
    (by decide +kernel)⟩

theorem witness_SweepDescriptorsComplete_6 : ∃ (s : State) (q : Desc) (img : List Byte) (output statusAddr t : Nat) (c : Ctx),
    (Open q s) ∧ (Live q s) ∧ (s.ctx? q.part (parseHead img).ctx = some c) ∧ (s.dieDown c.home = false) ∧ ((parseHead img).resultKey = 0) ∧ ((parseHead img).resultOff = 0) ∧ ((parseHead img).statusOff = 0) ∧ ((parseHead img).signal = 0) ∧ ((parseStep c img).badLen = false) ∧ (img.length = (parseStep c img).entryBytes c) ∧ (s.ringRecs c.home < 1024) ∧ (s.genRuns c.home = true) :=
  ⟨(seqSt [] (onePfx tslot)).modPart 0 (fun v => { v with genOn := true }), td, le 4 0 ++ le 4 1 ++ le 2 5 ++ le 2 1 ++ zeros 54, 0x1000, 0x2000, 9, tctx,
    (by unfold Open; decide +kernel),
    (by unfold Live; decide +kernel),
    (by decide +kernel),
    (by decide +kernel),
    (by decide +kernel),
    (by decide +kernel),
    (by decide +kernel),
    (by decide +kernel),
    (by decide +kernel),
    (by decide +kernel),
    (by decide +kernel),
    (by decide +kernel)⟩

theorem witness_SweepStepsMoveTheSweep_1 : ∃ (s : State) (d t : Nat) (w : Sweep),
    (s.running? d = none) ∧ (s.fbit DPM_STATUS_PAUSED d = false) ∧ (s.dieDown d = false) ∧ ((s.csm d).sweeps.find? (fun w => !w.started) = some w) ∧ (s.sweep? d w.id = some w) ∧ ((s.csm d).paneFence = 0) ∧ ((s.csm d).atmFence = 0) :=
  ⟨sweepSt [] tsweep, 0, 5, tsweep,
    (by decide +kernel),
    (by decide +kernel),
    (by decide +kernel),
    (by decide +kernel),
    (by decide +kernel),
    (by decide +kernel),
    (by decide +kernel)⟩

theorem witness_SweepStepsMoveTheSweep_2 : ∃ (s : State) (d sweep : Nat) (w : Sweep),
    (s.sweep? d sweep = some w) ∧ (w.planned = false) :=
  ⟨sweepSt [] { tsweep with started := true }, 0, 1, { tsweep with started := true },
    (by decide +kernel),
    (by decide +kernel)⟩

theorem witness_SweepStepsMoveTheSweep_3 : ∃ (s : State) (d page blk : Nat) (tab : Option (List Byte)) (w : Sweep) (b : PlanBlk),
    (s.running? d = some w) ∧ (s.sweep? d w.id = some w) ∧ (w.planned = true) ∧ ((if w.selDone then w.blocks else w.summaries).find? (fun b => !b.fetched) = some b) ∧ (b.page = page) ∧ (b.blk = blk) ∧ ((s.csm d).paneFence = 0) ∧ ((s.csm d).atmFence = 0) :=
  ⟨sweepSt [] { tsweep with started := true, planned := true, selDone := true, blocks := [tblk] }, 0, 7, 0, none, { tsweep with started := true, planned := true, selDone := true, blocks := [tblk] }, tblk,
    (by decide +kernel),
    (by decide +kernel),
    (by decide +kernel),
    (by decide +kernel),
    (by decide +kernel),
    (by decide +kernel),
    (by decide +kernel),
    (by decide +kernel)⟩

theorem witness_SweepStepsMoveTheSweep_4 : ∃ (s : State) (d page blk : Nat) (read : Option (List Byte)) (wait : Nat) (w : Sweep) (b : PlanBlk) (elems : Option (List Pos)),
    (s.running? d = some w) ∧ (s.sweep? d w.id = some w) ∧ (w.blk? page blk = some b) ∧ (b.inFlight = true) ∧ (w.portUse b.atomizer < 2) ∧ (b.coded = true) ∧ (b.atomizer < 4) ∧ (s.expandOf d w b read = .released elems) ∧ ((s.csm d).paneFence = 0) ∧ ((s.csm d).atmFence = 0) :=
  ⟨sweepSt [] { tsweep with started := true, planned := true, selDone := true, blocks := [{ tblk with fetched := true }] }, 0, 7, 0, none, 3, { tsweep with started := true, planned := true, selDone := true, blocks := [{ tblk with fetched := true }] }, { tblk with fetched := true }, none,
    (by decide +kernel),
    (by decide +kernel),
    (by decide +kernel),
    (by decide +kernel),
    (by decide +kernel),
    (by decide +kernel),
    (by decide +kernel),
    (by decide +kernel),
    (by decide +kernel),
    (by decide +kernel)⟩

theorem witness_SweepStepsMoveTheSweep_5 : ∃ (s : State) (d pane page blk head group n : Nat) (mismatch : Bool) (issued stall t : Nat) (w : Sweep) (b : PlanBlk),
    (s.running? d = some w) ∧ (s.sweep? d w.id = some w) ∧ (blk ≠ 9) ∧ (w.blk? page blk = some b) ∧ (b.expanded = true) ∧ (b.tiles.contains (tileCode head group n) = false) ∧ ((tileRecs w b head group n).isEmpty = false) ∧ ((s.paneUse d).testBit pane = true) ∧ (pane < 4) ∧ (w.seen ⟨b, head, group, n, tileRecs w b head group n⟩ = none) ∧ (tget s.pwr.pauseT d = none) ∧ ((s.csm d).paneFence = 0) ∧ ((s.csm d).atmFence = 0) :=
  ⟨sweepSt [] { tsweep with started := true, planned := true, selDone := true, blocks := [{ tblk with fetched := true, expanded := true }], recs := [{ trec with rows := [⟨0, 0, [0], false⟩] }] }, 0, 3, 7, 0, 0, 0, 0, false, 0, 0, 5, { tsweep with started := true, planned := true, selDone := true, blocks := [{ tblk with fetched := true, expanded := true }], recs := [{ trec with rows := [⟨0, 0, [0], false⟩] }] }, { tblk with fetched := true, expanded := true },
    (by decide +kernel),
    (by decide +kernel),
    (by decide +kernel),
    (by decide +kernel),
    (by decide +kernel),
    (by decide +kernel),
    (by decide +kernel),
    (by decide +kernel),
    (by decide +kernel),
    (by decide +kernel),
    (by decide +kernel),
    (by decide +kernel),
    (by decide +kernel)⟩

theorem witness_SweepStepsMoveTheSweep_6 : ∃ (s : State) (d sweep i t : Nat) (w : Sweep) (r : SweepRec) (f sq k output addr : Nat),
    (s.sweep? d sweep = some w) ∧ (w.recs[i]? = some r) ∧ (r.live = true) ∧ (r.finalised = false) ∧ (w.started = true) ∧ (w.mayFinalise i = true) ∧ (r.held.src = .ring f sq k output addr) ∧ ((s.csm d).paneFence = 0) ∧ ((s.csm d).atmFence = 0) :=
  ⟨sweepSt [] { tsweep with started := true, planned := true, selDone := true, order := [0], blocks := [] }, 0, 1, 0, 7, { tsweep with started := true, planned := true, selDone := true, order := [0], blocks := [] }, trec, 0, 1, 0, 0x1000, 0x2000,
    (by decide +kernel),
    (by decide +kernel),
    (by decide +kernel),
    (by decide +kernel),
    (by decide +kernel),
    (by decide +kernel),
    (by decide +kernel),
    (by decide +kernel),
    (by decide +kernel)⟩

theorem witness_SweepStepsMoveTheSweep_7 : ∃ (s : State) (d sweep i t : Nat) (w : Sweep) (r : SweepRec) (f sq k output addr : Nat) (o : Outst),
    (s.sweep? d sweep = some w) ∧ (w.recs[i]? = some r) ∧ (r.delivered = false) ∧ (r.live = false ∨ r.finalised = true) ∧ (r.appWait = false) ∧ (r.outBad = false) ∧ (w.turn i = true) ∧ (r.held.src = .ring f sq k output addr) ∧ ((s.part (fnPart f)).outst.find? (fun o => o.of f sq k) = some o) ∧ (o.gen = (s.fn f).gen) ∧ (s.ready f = true) ∧ ((s.csm d).paneFence = 0) ∧ ((s.csm d).atmFence = 0) :=
  ⟨(sweepSt [] { tsweep with started := true, recs := [{ trec with finalised := true }, trec] }).modPart 0 (fun v => { v with outst := [{ fn := 0, sq := 1, index := 0, tag := 7, op := 0x34, body0 := 0, tick := 0, order := false, intr := false, started := true, adopted := false, gen := 0, accT := 0 }] }), 0, 1, 0, 7, { tsweep with started := true, recs := [{ trec with finalised := true }, trec] }, { trec with finalised := true }, 0, 1, 0, 0x1000, 0x2000, { fn := 0, sq := 1, index := 0, tag := 7, op := 0x34, body0 := 0, tick := 0, order := false, intr := false, started := true, adopted := false, gen := 0, accT := 0 },
    (by decide +kernel),
    (by decide +kernel),
    (by decide +kernel),
    (by decide +kernel),
    (by decide +kernel),
    (by decide +kernel),
    (by decide +kernel),
    (by decide +kernel),
    (by decide +kernel),
    (by decide +kernel),
    (by decide +kernel),
    (by decide +kernel),
    (by decide +kernel)⟩

theorem witness_PanesFenceAndReturn_1 : ∃ (s : State) (d p : Nat) (via : Via),
    (MayWrite via (CSM_PANE_FENCE_FENCE.at_ d) s) ∧ (s.shadowed d = false) ∧ (p < 4) ∧ (s.fbitAt CSM_PANE_FENCE_FENCED d p = false) ∧ ((s.running? d).isSome = true) ∧ (s.fbitAt CSM_STATUS_PANE_ACT d p = true) :=
  ⟨sweepSt [] { tsweep with started := true }, 0, 3, .pf 0,
    (fun _ h => nomatch h),
    (by decide +kernel),
    (by decide +kernel),
    (by decide +kernel),
    (by decide +kernel),
    (by decide +kernel)⟩

theorem witness_PanesFenceAndReturn_2 : ∃ (s : State) (d p : Nat) (via : Via),
    (MayWrite via (CSM_PANE_FENCE_FENCE.at_ d) s) ∧ (s.shadowed d = false) ∧ (p < 4) ∧ (s.fbitAt CSM_PANE_FENCE_FENCED d p = false) ∧ (s.running? d = none) ∧ (s.unitExists uPane d p = true) ∧ ((s.row uDie d 0).lost = false) ∧ ((s.row uPane d p).own = usACTIVE) ∧ ((s.row uPane d p).mgmt ≠ 1) ∧ ((s.row uPane d p).passT = none) ∧ ((List.range 4).any (fun x => x != p && s.fbitAt CSM_STATUS_PANE_ACT d x) = true) :=
  ⟨st [], 0, 3, .console,
    (fun _ h => nomatch h),
    (by decide +kernel),
    (by decide +kernel),
    (by decide +kernel),
    (by decide +kernel),
    (by decide +kernel),
    (by decide +kernel),
    (by decide +kernel),
    (by decide +kernel),
    (by decide +kernel),
    (by decide +kernel)⟩

theorem witness_PanesFenceAndReturn_3 : ∃ (s : State) (d p pass : Nat) (via : Via),
    (MayWrite via (CSM_PANE_FENCE_UNFENCE.at_ d) s) ∧ (s.shadowed d = false) ∧ (p < 4) ∧ (s.fbitAt CSM_PANE_FENCE_FENCED d p = true) ∧ (s.unitExists uPane d p = true) ∧ ((s.row uDie d 0).lost = false) ∧ (s.unitState uPane d p = usFENCED) ∧ ((s.row uPane d p).testing = false) ∧ ((s.row uPane d p).mgmt = 0) :=
  ⟨{ st [(CSM_PANE_FENCE_FENCED,1,4)] with ras := { (st []).ras with units := [(unitKey uPane 1 2, { UnitRow.init with data := 2 })] } }, 1, 2, 4, .pf 1,
    (fun _ h => nomatch h),
    (by decide +kernel),
    (by decide +kernel),
    (by decide +kernel),
    (by decide +kernel),
    (by decide +kernel),
    (by decide +kernel),
    (by decide +kernel),
    (by decide +kernel)⟩

theorem witness_PanesFenceAndReturn_4 : ∃ (s : State) (d p : Nat) (via : Via),
    (MayWrite via (ATM_FENCE_FENCE.at_ d) s) ∧ (s.shadowed d = false) ∧ (p < 4) ∧ (s.fbitAt ATM_FENCE_FENCED d p = false) ∧ ((s.running? d).isSome = true) ∧ (s.fbitAt CSM_STATUS_ATM_ACT d p = true) :=
  ⟨sweepSt [] { tsweep with started := true }, 0, 3, .pf 0,
    (fun _ h => nomatch h),
    (by decide +kernel),
    (by decide +kernel),
    (by decide +kernel),
    (by decide +kernel),
    (by decide +kernel)⟩

theorem witness_PanesFenceAndReturn_5 : ∃ (s : State) (d p : Nat) (via : Via),
    (MayWrite via (ATM_FENCE_FENCE.at_ d) s) ∧ (s.shadowed d = false) ∧ (p < 4) ∧ (s.fbitAt ATM_FENCE_FENCED d p = false) ∧ (s.running? d = none) ∧ (s.unitExists uAtm d p = true) ∧ ((s.row uDie d 0).lost = false) ∧ ((s.row uAtm d p).own = usACTIVE) ∧ ((s.row uAtm d p).mgmt ≠ 1) ∧ ((s.row uAtm d p).passT = none) ∧ ((List.range 4).any (fun x => x != p && s.fbitAt CSM_STATUS_ATM_ACT d x) = true) :=
  ⟨st [], 0, 3, .console,
    (fun _ h => nomatch h),
    (by decide +kernel),
    (by decide +kernel),
    (by decide +kernel),
    (by decide +kernel),
    (by decide +kernel),
    (by decide +kernel),
    (by decide +kernel),
    (by decide +kernel),
    (by decide +kernel),
    (by decide +kernel)⟩

theorem witness_PanesFenceAndReturn_6 : ∃ (s : State) (d p pass : Nat) (via : Via),
    (MayWrite via (ATM_FENCE_UNFENCE.at_ d) s) ∧ (s.shadowed d = false) ∧ (p < 4) ∧ (s.fbitAt ATM_FENCE_FENCED d p = true) ∧ (s.unitExists uAtm d p = true) ∧ ((s.row uDie d 0).lost = false) ∧ (s.unitState uAtm d p = usFENCED) ∧ ((s.row uAtm d p).testing = false) ∧ ((s.row uAtm d p).mgmt = 0) :=
  ⟨{ st [(ATM_FENCE_FENCED,1,4)] with ras := { (st []).ras with units := [(unitKey uAtm 1 2, { UnitRow.init with data := 2 })] } }, 1, 2, 4, .pf 1,
    (fun _ h => nomatch h),
    (by decide +kernel),
    (by decide +kernel),
    (by decide +kernel),
    (by decide +kernel),
    (by decide +kernel),
    (by decide +kernel),
    (by decide +kernel),
    (by decide +kernel)⟩

theorem witness_PanesFenceAndReturn_7 : ∃ (s : State) (d mask : Nat) (via : Via),
    (MayWrite via (CSM_CTRL_INJECT.at_ d) s) ∧ (s.shadowed d = false) :=
  ⟨st [(CSM_PANE_FENCE_FENCED,0,2)], 0, 7, .pf 0,
    (fun _ h => nomatch h),
    (by decide +kernel)⟩

theorem witness_PanesFenceAndReturn_8 : ∃ (s : State) (d mask : Nat) (via : Via),
    (MayWrite via (ATM_CTRL_INJECT.at_ d) s) ∧ (s.shadowed d = false) :=
  ⟨st [(ATM_FENCE_FENCED,0,2)], 0, 7, .pf 0,
    (fun _ h => nomatch h),
    (by decide +kernel)⟩

theorem witness_CasementRegistersAndRebuilds_1 : ∃ (s : State) (d : Nat) (en : Bool) (via : Via),
    (MayWrite via (CSM_CTRL_EN.at_ d) s) :=
  ⟨(sealedSt []).modPart 0 (fun v => { v with genOn := true }), 0, false, .vf 0,
    (fun f h => by cases h; decide +kernel)⟩

theorem witness_CasementRegistersAndRebuilds_2 : ∃ (s : State) (d : Nat) (via : Via),
    (MayRead via (ATM_CODED_LO_BYTES.at_ d) s) ∧ (s.shadowed d = false) :=
  ⟨(st []).modCsm 0 (fun c => { c with coded := 5000000007, rawBytes := 5000000008, plain := 5000000009 }), 0, .pf 0,
    (fun _ h => nomatch h),
    (by decide +kernel)⟩

theorem witness_CasementRegistersAndRebuilds_3 : ∃ (s : State) (d : Nat) (via : Via),
    (MayRead via (ATM_RAW_LO_BYTES.at_ d) s) ∧ (s.shadowed d = false) :=
  ⟨(st []).modCsm 0 (fun c => { c with coded := 5000000007, rawBytes := 5000000008, plain := 5000000009 }), 0, .pf 0,
    (fun _ h => nomatch h),
    (by decide +kernel)⟩

theorem witness_CasementRegistersAndRebuilds_4 : ∃ (s : State) (d : Nat) (via : Via),
    (MayRead via (ATM_PLAIN_LO_BYTES.at_ d) s) ∧ (s.shadowed d = false) :=
  ⟨(st []).modCsm 0 (fun c => { c with coded := 5000000007, rawBytes := 5000000008, plain := 5000000009 }), 0, .pf 0,
    (fun _ h => nomatch h),
    (by decide +kernel)⟩

theorem witness_CasementRegistersAndRebuilds_5 : ∃ (s : State) (d page a : Nat) (p : Page) (c : Ctx),
    ((s.csm d).rebuilds.find? (fun x => x.1 == page) = some (page, 1, a)) ∧ (s.page? d page = some p) ∧ (p.st = .suspect) ∧ (s.dieCtx? d p.ctx = some c) ∧ (p.sound c (p.image c) = true) ∧ (4 ≤ a ∨ s.inForce ATM_CFG_FAULT_MAX d = 0 ∨ s.fget (faultsFld a) d + 1 < s.inForce ATM_CFG_FAULT_MAX d) :=
  ⟨rebuildSt, 0, 7, 2, tsuspect, tctx,
    (by decide +kernel),
    (by decide +kernel),
    (by decide +kernel),
    (by decide +kernel),
    (by decide +kernel),
    (by decide +kernel)⟩

theorem witness_QuotasPinsAndClasses_1 : ∃ (s : State) (q : Desc) (seq ctx k j : Nat) (e : SeqSlot),
    (Open q s) ∧ (Live q s) ∧ (s.seqDie? q.part seq = some k) ∧ (s.seqSlot? k seq = some (j, e)) ∧ (e.ctx = ctx) ∧ (s.dieDown k = false) ∧ (e.parked = false) ∧ ((s.pfx k).edits = []) :=
  ⟨seqSt [] (onePfx tslot), td, 1, 5, 0, homeSlot 20 1, tslot,
    (by unfold Open; decide +kernel),
    (by unfold Live; decide +kernel),
    (by decide +kernel),
    (by decide +kernel),
    (by decide +kernel),
    (by decide +kernel),
    (by decide +kernel),
    (by decide +kernel)⟩

theorem witness_QuotasPinsAndClasses_2 : ∃ (s : State) (q : Desc) (ctx : Nat) (c : Ctx) (a b f : Nat),
    (Open q s) ∧ (Live q s) ∧ (s.ctx? q.part ctx = some c) ∧ (s.dieDown c.home = false) ∧ (sumNat ((s.part q.part).ctxs.map (fun e => if e.2.home = c.home ∧ e.1 ≠ ctx then e.2.hbmMin else 0)) + b ≤ s.poolSize c.home - s.inForce STG_POOL_HIGH c.home * 1024) :=
  ⟨seqSt [(RAS_DIE_STATE_STACKS, 0, 7)] Pfx.init, td, 5, tctx, 9, 3, 4,
    (by unfold Open; decide +kernel),
    (by unfold Live; decide +kernel),
    (by decide +kernel),
    (by decide +kernel),
    (by decide +kernel)⟩

theorem witness_QuotasPinsAndClasses_3 : ∃ (s : State) (q : Desc) (id : Nat) (p : Pin) (k j : Nat) (e : SeqSlot),
    (Open q s) ∧ (Live q s) ∧ (s.seqDie? q.part p.seq = some k) ∧ (s.seqSlot? k p.seq = some (j, e)) ∧ (e.ctx = p.ctx) ∧ (s.dieDown k = false) ∧ ((s.begin q 0x42 (id + p.ctx * 2 ^ 16 + p.seq * 2 ^ 32)).fitsHbm k (s.away k (s.pinPages k p)) = true) :=
  ⟨seqSt [] (onePfx tslot), td, 9, ⟨1, 5, 0, 1, 0, 0⟩, 0, homeSlot 20 1, tslot,
    (by unfold Open; decide +kernel),
    (by unfold Live; decide +kernel),
    (by decide +kernel),
    (by decide +kernel),
    (by decide +kernel),
    (by decide +kernel),
    (by decide +kernel)⟩

theorem witness_QuotasPinsAndClasses_4 : ∃ (s : State) (q : Desc) (ctx : Nat) (c : Ctx) (id : Nat) (p : Pin),
    (Open q s) ∧ (Live q s) ∧ (s.ctx? q.part ctx = some c) ∧ (s.dieDown c.home = false) ∧ (tget (s.stg c.home).pins id = some p) :=
  ⟨(seqSt [] (onePfx tslot)).modStg 0 (fun x => { x with pins := [(9, ⟨1, 5, 0, 1, 0, 0⟩)] }), td, 5, tctx, 9, ⟨1, 5, 0, 1, 0, 0⟩,
    (by unfold Open; decide +kernel),
    (by unfold Live; decide +kernel),
    (by decide +kernel),
    (by decide +kernel),
    (by decide +kernel)⟩

theorem witness_HintsExportsAndStaging_1 : ∃ (s : State) (q : Desc) (h : HintBody) (k j : Nat) (e : SeqSlot) (x : Hint),
    (Open q s) ∧ (Live q s) ∧ (s.seqDie? q.part h.seq = some k) ∧ (s.seqSlot? k h.seq = some (j, e)) ∧ (e.ctx = h.ctx) ∧ (s.dieDown k = false) ∧ (h.deadline = 0) ∧ ((s.stg k).unmet.find? (fun x => x.tag == h.tag && x.seq == h.seq) = some x) :=
  ⟨(seqSt [] (onePfx tslot)).modStg 0 (fun x => { x with hints := [{ seq := 1, ctx := 5, tag := 6, deadline := 3, unpark := false, pages := [], met := false, missed := false, release := 4, accTick := 0, port := 0, hold := 4 : Hint }] }), td, ⟨1, 5, false, false, 0, 6, 0, 1, 0, 0⟩, 0, homeSlot 20 1, tslot, { seq := 1, ctx := 5, tag := 6, deadline := 3, unpark := false, pages := [], met := false, missed := false, release := 4, accTick := 0, port := 0, hold := 4 : Hint },
    (by unfold Open; decide +kernel),
    (by unfold Live; decide +kernel),
    (by decide +kernel),
    (by decide +kernel),
    (by decide +kernel),
    (by decide +kernel),
    (by decide +kernel),
    (by decide +kernel)⟩

theorem witness_HintsExportsAndStaging_2 : ∃ (s : State) (q : Desc) (h : HintBody) (k j : Nat) (e : SeqSlot),
    (Open q s) ∧ (Live q s) ∧ (s.seqDie? q.part h.seq = some k) ∧ (s.seqSlot? k h.seq = some (j, e)) ∧ (e.ctx = h.ctx) ∧ (s.dieDown k = false) ∧ (h.deadline ≠ 0) ∧ (h.layerFirst + h.layers ≤ e.tail.layers.length) ∧ (h.posFirst + h.posCount ≤ maxOf ((e.lens.drop h.layerFirst).take h.layers)) ∧ (s.away k (s.rangePages k h.seq h.layerFirst h.layers h.posFirst h.posCount) = []) ∧ ((s.stg k).unmet.length < 4096) :=
  ⟨seqSt [] (onePfx tslot), td, ⟨1, 5, false, false, 30, 6, 0, 1, 0, 0⟩, 0, homeSlot 20 1, tslot,
    (by unfold Open; decide +kernel),
    (by unfold Live; decide +kernel),
    (by decide +kernel),
    (by decide +kernel),
    (by decide +kernel),
    (by decide +kernel),
    (by decide +kernel),
    (by decide +kernel),
    (by decide +kernel),
    (by decide +kernel),
    (by decide +kernel)⟩

theorem witness_HintsExportsAndStaging_3 : ∃ (s : State) (q : Desc) (ctx t key chain off room id : Nat) (c : Ctx) (x : Nat × TreeEnt) (ch : Chunk),
    (Open q s) ∧ (Live q s) ∧ (s.ctx? q.part ctx = some c) ∧ (s.dieDown c.home = false) ∧ (s.treeFind c.home chain = some x) ∧ (x.2.chunk = id) ∧ (s.chunk? c.home id = some ch) ∧ (ch.pages.all (fun p => match s.page? c.home p with | some y => y.place.hbm && y.st == .sealed | none => false) = true) ∧ ((s.exportImage c.home c ch).length ≤ room) ∧ ((s.diesOf q.part).contains t = true) ∧ (s.dieDown t = false) ∧ ((s.begin q 0x45 (ctx + 2 ^ 17 + t * 2 ^ 24 + key * 2 ^ 32)).quotaOk c.home ctx (ceilDiv (s.exportImage c.home c ch).length 4096) = true) ∧ (ceilDiv (s.exportImage c.home c ch).length 4096 ≤ s.freeSegs t) :=
  ⟨seqSt [(RAS_DIE_STATE_STACKS, 0, 7), (RAS_DIE_STATE_STACKS, 1, 7)] { Pfx.init with tree := [(5 * 77, ⟨77, 3, .valid, 0⟩)], chunks := [(3, { chain := 77, model := 9, parent := 0, st := .tree, parked := false, written := false, holders := 1, children := 0, depth := 0, rel := 0, ctx := 5, created := 0, tokens := [], pages := [7] })], pages := [(7, { newTail tctx 5 0 0 0 [] with st := .sealed, refs := 1, segs := [31], format := 0x88 })] }, td, 5, 1, 0, 77, 0, 1000000, 3, tctx, (5 * 77, ⟨77, 3, .valid, 0⟩), { chain := 77, model := 9, parent := 0, st := .tree, parked := false, written := false, holders := 1, children := 0, depth := 0, rel := 0, ctx := 5, created := 0, tokens := [], pages := [7] },
    (by unfold Open; decide +kernel),
    (by unfold Live; decide +kernel),
    (by decide +kernel),
    (by decide +kernel),
    (by decide +kernel),
    (by decide +kernel),
    (by decide +kernel),
    (by decide +kernel),
    (by decide +kernel),
    (by decide +kernel),
    (by decide +kernel),
    (by decide +kernel),
    (by decide +kernel)⟩

theorem witness_HintsExportsAndStaging_4 : ∃ (s : State) (q : Desc) (ctx : Nat) (c : Ctx) (replica : Bool) (key off bytes i : Nat) (p : Peer),
    (Open q s) ∧ (Live q s) ∧ (s.ctx? q.part ctx = some c) ∧ (s.dieDown c.home = false) ∧ (tget (s.nrt c.home).binds key = some i) ∧ (s.peer? c.home i = some p) ∧ (p.qp = none) ∧ (s.nrtReady c.home = true) :=
  ⟨nrtSt [], td, 5, tctx, true, 7, 0x40, 9000, 1, tpeer,
    (by unfold Open; decide +kernel),
    (by unfold Live; decide +kernel),
    (by decide +kernel),
    (by decide +kernel),
    (by decide +kernel),
    (by decide +kernel),
    (by decide +kernel),
    (by decide +kernel)⟩

theorem witness_HintsExportsAndStaging_5 : ∃ (s : State) (q : Desc) (ctx : Nat) (c : Ctx) (replica : Bool) (key off bytes : Nat),
    (Open q s) ∧ (Live q s) ∧ (s.ctx? q.part ctx = some c) ∧ (s.dieDown c.home = false) ∧ (tget (s.nrt c.home).binds key = none) :=
  ⟨nrtSt [], td, 5, tctx, true, 8, 0x40, 9000,
    (by unfold Open; decide +kernel),
    (by unfold Live; decide +kernel),
    (by decide +kernel),
    (by decide +kernel),
    (by decide +kernel)⟩

theorem witness_HintsExportsAndStaging_6 : ∃ (s : State) (d page : Nat) (t : StgTask) (p : Page) (c : Ctx),
    ((s.stg d).tasks.find? (fun t => t.page == page && t.prio != 1 && !t.segs.isEmpty) = some t) ∧ ((s.stg d).tasks.find? (fun t => t.page == page) = some t) ∧ (s.page? d page = some p) ∧ (s.turnOf d t p = true) ∧ (s.readOf d t p .stored = some .stored) ∧ (s.dieCtx? d p.ctx = some c) ∧ (p.st = .open_ ∨ p.st = .full ∨ (p.st = .sealed ∧ p.arrivalOk c (p.image c) = true)) ∧ ((s.pfx d).edits = []) :=
  ⟨(seqSt [] { Pfx.init with pages := [(7, { tsealed with segs := [], place := { Place.init with hbm := false, flash := true, staging := true } })] }).modStg 0 (fun x => { x with tasks := [⟨7, 2, [50], 0, 0, false, none, 0⟩] }), 0, 7, ⟨7, 2, [50], 0, 0, false, none, 0⟩, { tsealed with segs := [], place := { Place.init with hbm := false, flash := true, staging := true } }, tctx,
    (by decide +kernel),
    (by decide +kernel),
    (by decide +kernel),
    (by decide +kernel),
    (by decide +kernel),
    (by decide +kernel),
    (by decide +kernel),
    (by decide +kernel)⟩

theorem witness_HintsExportsAndStaging_8 : ∃ (s : State) (d page : Nat) (p : Page),
    (s.page? d page = some p) ∧ (s.fbit STG_CTRL_IDLE_RELEASE d = false) :=
  ⟨(seqSt [(STG_CTRL_IDLE_RELEASE,0,0)] { Pfx.init with pages := [(7, { newTail tctx 5 0 0 0 [] with st := .sealed, refs := 1, segs := [31], format := 0x88 })] }), 0, 7, { newTail tctx 5 0 0 0 [] with st := .sealed, refs := 1, segs := [31], format := 0x88 },
    (by decide +kernel),
    (by decide +kernel)⟩

theorem witness_HintsExportsAndStaging_9 : ∃ (s : State) (d : Nat) (via : Via),
    (MayRead via (STG_QUEUED_LO_BYTES.at_ d) s) ∧ (s.shadowed d = false) :=
  ⟨State.reset, 0, .console,
    (fun _ h => nomatch h),
    (by decide +kernel)⟩

theorem witness_FlashWritesReadsAndJournal_1 : ∃ (s : State) (d : Nat) (band stripe member ns k : Nat) (b : Band),
    (band ≠ 0) ∧ (tget (s.ftl d).bands band = some b) ∧ (b.kind ≠ .journal) ∧ (member = stripe % max 1 b.members.length) ∧ ((s.ftl d).lunOf (.prog band stripe member) = some k) ∧ ((s.ftl d).still = false) ∧ ((s.ftl d).hold ≠ .loss) ∧ (s.pwr.coldWait = none) :=
  ⟨(flashSt [] tband).modFtl 0 (fun f => { f with lun := [(17, .prog 1 4 1, 0)] }), 0, 1, 4, 1, 600, 17, tband,
    (by decide +kernel),
    (by decide +kernel),
    (by decide +kernel),
    (by decide +kernel),
    (by decide +kernel),
    (by decide +kernel),
    (by decide +kernel),
    (by decide +kernel)⟩

theorem witness_FlashWritesReadsAndJournal_2 : ∃ (s : State) (d : Nat) (stripe member ns k : Nat) (a : Anchor),
    ((s.ftl d).anchorRun = some a) ∧ ((s.ftl d).lunOf .anchor = some k) ∧ ((s.ftl d).still = false) ∧ ((s.ftl d).hold ≠ .loss) ∧ (s.pwr.coldWait = none) :=
  ⟨(flashSt [] tband).modFtl 0 (fun f => { f with ckptRun := true, anchorRun := some tanchor, lun := [(17, .anchor, 0)], jlog := [⟨1, 2, .band 1 1 .meta_ []⟩, ⟨1, 9, .band 1 1 .meta_ []⟩] }), 0, 0, 0, 600, 17, tanchor,
    (by decide +kernel),
    (by decide +kernel),
    (by decide +kernel),
    (by decide +kernel),
    (by decide +kernel)⟩

theorem witness_FlashWritesReadsAndJournal_3 : ∃ (s : State) (d : Nat) (r : SectorRead) (t : Nat) (x : Nat × Nat × Nat),
    ((s.ftl d).inject = false) ∧ ((s.ftl d).hold ≠ .error) ∧ (recoverSteps (s.expects d r.band r.sector) r.decoded false = (1, 0)) ∧ (r.bits ≤ s.inForce FTL_RETRY_REFRESH_BITS d) ∧ (r.entry ≤ s.inForce FTL_RETRY_START_MAX d) ∧ (s.memberAt d r.band r.sector = some x) ∧ (tget (s.ftl d).lun (lunKey x.1 x.2.1) = none) ∧ (s.fbitAt FTL_CH_FENCE_FENCED d x.1 = false) :=
  ⟨flashSt [] tband, 0, ⟨1, 0, [(1, .written)], 2, 0, 3, 0, 0⟩, 9, (1, 0, 1),
    (by decide +kernel),
    (by decide +kernel),
    (by decide +kernel),
    (by decide +kernel),
    (by decide +kernel),
    (by decide +kernel),
    (by decide +kernel),
    (by decide +kernel)⟩

theorem witness_FlashWritesReadsAndJournal_4 : ∃ (s : State) (d : Nat) (t n p : Nat) (b : Band),
    ((s.ftl d).jpend.isEmpty = false) ∧ ((s.ftl d).jpages.length < 4) ∧ ((s.ftl d).jpages.all (fun x => x.band != 0) = true) ∧ ((s.ftl d).jpendT + s.inForce FTL_JNL_WINDOW d * 1000 ≤ t) ∧ ((s.ftl d).journalBands.isEmpty = false) ∧ (s.journalSlot d = some (n, p)) ∧ (tget (s.ftl d).bands n = some b) ∧ (p + 5 < s.pairsOf d b) :=
  ⟨(flashSt [] { tband with kind := .journal }).modFtl 0 (fun f => { f with jpend := [⟨1, 0, .band 1 1 .meta_ []⟩] }), 0, 900000000, 1, 0, { tband with kind := .journal },
    (by decide +kernel),
    (by decide +kernel),
    (by decide +kernel),
    (by decide +kernel),
    (by decide +kernel),
    (by decide +kernel),
    (by decide +kernel),
    (by decide +kernel)⟩

theorem witness_FlashWritesReadsAndJournal_5 : ∃ (s : State) (d : Nat) (t m : Nat) (b : Band),
    ((s.ftl d).ckptRun = false) ∧ ((s.ftl d).hold = .free) ∧ (s.fbit FTL_STATUS_READY d = true) ∧ ((s.ftl d).openBand .meta_ = some (m, b)) ∧ (b.ns = 0xFF) ∧ (tget (s.ftl d).bands m = some b) ∧ (b.wp + 512 ≤ s.bandSectors d b) ∧ (s.inForce FTL_JNL_CKPT_MIB d * 2 ^ 20 ≤ (s.ftl d).ckptBytes ∨ (s.ftl d).ckptT + s.inForce FTL_JNL_CKPT_MIN d * 60 * secNs ≤ t) :=
  ⟨flashSt [] tband, 0, 9000000000000, 1, tband,
    (by decide +kernel),
    (by decide +kernel),
    (by decide +kernel),
    (by decide +kernel),
    (by decide +kernel),
    (by decide +kernel),
    (by decide +kernel),
    (by decide +kernel)⟩

theorem witness_FlashWritesReadsAndJournal_6 : ∃ (s : State) (d : Nat) (m : Nat) (b : Band) (via : Via),
    (MayWrite via (FTL_CTRL_CKPT_NOW.at_ d) s) ∧ (s.shadowed d = false) ∧ ((s.ftl d).ckptRun = false) ∧ ((s.ftl d).hold = .free) ∧ (s.fbit FTL_STATUS_READY d = true) ∧ ((s.ftl d).openBand .meta_ = some (m, b)) ∧ (b.ns = 0xFF) ∧ (tget (s.ftl d).bands m = some b) ∧ (b.wp + 512 ≤ s.bandSectors d b) :=
  ⟨flashSt [] tband, 0, 1, tband, .console,
    (fun _ h => nomatch h),
    (by decide +kernel),
    (by decide +kernel),
    (by decide +kernel),
    (by decide +kernel),
    (by decide +kernel),
    (by decide +kernel),
    (by decide +kernel),
    (by decide +kernel)⟩

theorem witness_FlashWritesReadsAndJournal_7 : ∃ (s : State) (d : Nat),
    ((s.ftl d).hold = .free) ∧ (s.clockOn d 7 = true) ∧ (s.fbit FTL_STATUS_READY d = true) ∧ ((s.ftl d).refresh = []) :=
  ⟨flashSt [] tband, 0,
    (by decide +kernel),
    (by decide +kernel),
    (by decide +kernel),
    (by decide +kernel)⟩

theorem witness_FlashWritesReadsAndJournal_8 : ∃ (s : State) (d : Nat) (via : Via),
    (MayWrite via (FTL_CTRL_INJECT.at_ d) s) ∧ (s.shadowed d = false) :=
  ⟨flashSt [] tband, 0, .pf 0,
    (fun _ h => nomatch h),
    (by decide +kernel)⟩

theorem witness_FlashWritesReadsAndJournal_9 : ∃ (s : State) (d : Nat) (via : Via),
    (MayRead via (FTL_JSEQ_LO_JSEQ_LO.at_ d) s) ∧ (s.shadowed d = false) :=
  ⟨(flashSt [] tband).modFtl 0 (fun f => { f with jseq := 5000000007 }), 0, .pf 0,
    (fun _ h => nomatch h),
    (by decide +kernel)⟩

theorem witness_FlashWritesReadsAndJournal_10 : ∃ (s : State) (d : Nat) (band stripe member ns k : Nat) (b : Band),
    (band ≠ 0) ∧ (tget (s.ftl d).bands band = some b) ∧ (b.kind ≠ .journal) ∧ ((s.ftl d).lunOf (.prog band stripe member) = some k) ∧ ((s.ftl d).still = false) ∧ ((s.ftl d).hold ≠ .loss) ∧ (s.pwr.coldWait = none) :=
  ⟨(flashSt [] tband).modFtl 0 (fun f => { f with lun := [(17, .prog 1 4 2, 0)] }), 0, 1, 4, 2, 600, 17, tband,
    (by decide +kernel),
    (by decide +kernel),
    (by decide +kernel),
    (by decide +kernel),
    (by decide +kernel),
    (by decide +kernel),
    (by decide +kernel)⟩

theorem witness_FlashChannelsAndBands_1 : ∃ (s : State) (d : Nat) (band failed ns : Nat) (b : Band),
    (tget (s.ftl d).bands band = some b) ∧ (b.gc = .erasing) ∧ ((s.ftl d).hold = .free) ∧ ((s.ftl d).dead = []) ∧ (b.members.all (fun m => match tget (s.ftl d).lun (lunKey m.1 m.2.1) with | some x => x.1 == .erase band | none => false) = true) ∧ (s.fbit FTL_CTRL_GC_EN d = false) ∧ (s.sec.rms = []) ∧ (s.sec.zeroBands = []) :=
  ⟨(flashSt [(FTL_CTRL_GC_EN,0,0)] { tband with gc := .erasing, closed := true }).modFtl 0 (fun f => { f with lun := [(0, .erase 1, 0), (16, .erase 1, 0), (32, .erase 1, 0)] }), 0, 1, 2, 900, { tband with gc := .erasing, closed := true },
    (by decide +kernel),
    (by decide +kernel),
    (by decide +kernel),
    (by decide +kernel),
    (by decide +kernel),
    (by decide +kernel),
    (by decide +kernel),
    (by decide +kernel)⟩

theorem witness_FlashChannelsAndBands_2 : ∃ (s : State) (d : Nat) (r : SectorRead) (t : Nat),
    (s.fbit FTL_CTRL_PATROL_EN d = true) ∧ (s.clockOn d 7 = true) ∧ ((s.ftl d).stopped = false) ∧ ((s.ftl d).bands.isEmpty = false) ∧ (s.nextPatrol d = some (r.band, r.sector)) ∧ (s.patrolMay d r = true) :=
  ⟨(flashSt [(FTL_CTRL_PATROL_EN,0,1)] tband).modFtl 0 (fun f => { f with objs := [tobj, { tobj with obj := 8, loc := ⟨1, 2, 1⟩ }] }), 0, ⟨1, 0, [(2, .written)], 2, 0, 3, 0, 0⟩, 9,
    (by decide +kernel),
    (by decide +kernel),
    (by decide +kernel),
    (by decide +kernel),
    (by decide +kernel),
    (by decide +kernel)⟩

theorem witness_FlashChannelsAndBands_3 : ∃ (s : State) (d : Nat) (luns : List LunPage) (via : Via),
    (MayWrite via (FTL_CTRL_EN.at_ d) s) ∧ (s.dieLocked d = false) ∧ (s.fbit FTL_CTRL_EN d = false) ∧ (s.shadowed d = false) :=
  ⟨State.reset, 0, (List.range 16).map (fun c => tlun c), .pf 0,
    (fun _ h => nomatch h),
    (by decide +kernel),
    (by decide +kernel),
    (by decide +kernel)⟩

theorem witness_FlashChannelsAndBands_4 : ∃ (s : State) (d : Nat) (c t : Nat),
    (((dget (s.ftl d).chErr [] c).filter (fun x => decide (t < x + secNs))).length < 2) :=
  ⟨flashSt [] tband, 0, 3, 9,
    (by decide +kernel)⟩

theorem witness_FlashChannelsAndBands_5 : ∃ (s : State) (d : Nat) (c t : Nat),
    (c < 16) ∧ (s.unitExists uChan d c = true) ∧ ((s.row uDie d 0).lost = false) ∧ (2 ≤ ((dget (s.ftl d).chErr [] c).filter (fun x => decide (t < x + secNs))).length) ∧ ((s.ftl d).hold = .warn) ∧ ((s.row uChan d c).own = usACTIVE) ∧ ((s.row uChan d c).mgmt ≠ 1) :=
  ⟨(flashSt [] tband).modFtl 0 (fun f => { f with chErr := [(3, [1, 2])], hold := .warn }), 0, 3, 9,
    (by decide +kernel),
    (by decide +kernel),
    (by decide +kernel),
    (by decide +kernel),
    (by decide +kernel),
    (by decide +kernel),
    (by decide +kernel)⟩

theorem witness_FlashChannelsAndBands_6 : ∃ (s : State) (d : Nat) (c : Nat) (via : Via),
    (MayWrite via (FTL_CH_CMD_FENCE.at_ d) s) ∧ (s.shadowed d = false) ∧ (c < 16) ∧ (s.unitExists uChan d c = true) ∧ ((s.row uDie d 0).lost = false) ∧ (s.fbitAt FTL_CH_FENCE_FENCED d c = false) ∧ ((s.ftl d).hold ≠ .free ∨ s.fbit FTL_STATUS_READY d = false) ∧ ((s.row uChan d c).own = usACTIVE) ∧ ((s.row uChan d c).mgmt ≠ 1) ∧ ((s.row uChan d c).passT = none) :=
  ⟨State.reset, 0, 15, .pf 0,
    (fun _ h => nomatch h),
    (by decide +kernel),
    (by decide +kernel),
    (by decide +kernel),
    (by decide +kernel),
    (by decide +kernel),
    (by decide +kernel),
    (by decide +kernel),
    (by decide +kernel),
    (by decide +kernel)⟩

theorem witness_FlashChannelsAndBands_7 : ∃ (s : State) (d : Nat) (c pass : Nat) (via : Via),
    (MayWrite via (FTL_CH_CMD_UNFENCE.at_ d) s) ∧ (s.shadowed d = false) ∧ (c < 16) ∧ (s.unitExists uChan d c = true) ∧ ((s.row uDie d 0).lost = false) ∧ (s.fbitAt FTL_CH_FENCE_FENCED d c = true) ∧ (s.unitState uChan d c = usFENCED) ∧ ((s.row uChan d c).testing = false) ∧ ((s.row uChan d c).mgmt = 0) :=
  ⟨{ st [(FTL_CH_FENCE_FENCED,1,4)] with ras := { (st []).ras with units := [(unitKey uChan 1 2, { UnitRow.init with data := 2 })] } }, 1, 2, 4, .pf 1,
    (fun _ h => nomatch h),
    (by decide +kernel),
    (by decide +kernel),
    (by decide +kernel),
    (by decide +kernel),
    (by decide +kernel),
    (by decide +kernel),
    (by decide +kernel),
    (by decide +kernel)⟩

theorem witness_FlashChannelsAndBands_8 : ∃ (s : State) (d : Nat) (via : Via),
    (MayWrite via (FTL_OWN_CMD_RECLAIM.at_ d) s) ∧ (s.fget DPM_STATUS_STATE d = 0) ∧ ((s.row uDie d 0).passed = true) ∧ (((List.range 16).filter (fun c => (s.ftl d).chan c == .twinRo || (s.ftl d).chan c == .fenced)).isEmpty = false) :=
  ⟨{ (flashSt [] tband).modFtl 0 (fun f => { f with chans := [(3, .twinRo), (4, .fenced)] }) with ras := { (st []).ras with units := [(unitKey uDie 0 0, { UnitRow.init with passed := true })] } }, 0, .pf 0,
    (fun _ h => nomatch h),
    (by decide +kernel),
    (by decide +kernel),
    (by decide +kernel)⟩

theorem witness_FlashChannelsAndBands_9 : ∃ (s : State) (d : Nat) (via : Via),
    (MayWrite via (FTL_OWN_CMD_RELEASE.at_ d) s) ∧ (s.shadowed d = false) ∧ (((List.range 16).filter (fun c => (s.ftl (twin d)).chan c == .twinRo)).isEmpty = false) :=
  ⟨(flashSt [] tband).modFtl 0 (fun f => { f with chans := [(3, .twinRo), (4, .fenced)] }), 1, .pf 0,
    (fun _ h => nomatch h),
    (by decide +kernel),
    (by decide +kernel)⟩

theorem witness_DoorbellsMoveTheirRing_1 : ∃ (s : State) (p x n idx : Nat) (w32 : Bool) (r : Ring),
    ((s.fn (2 * p + x)).active? n = some r) ∧ (w32 = true) ∧ (idx < r.size) ∧ (n < 128) :=
  ⟨sealedSt [], 0, 0, 1, 63, true, adminRing 6 0x20000 0 1,
    (by decide +kernel),
    (by decide +kernel),
    (by decide +kernel),
    (by decide +kernel)⟩

theorem witness_DoorbellsMoveTheirRing_2 : ∃ (s : State) (p x n idx : Nat) (w32 : Bool),
    ∀ r, (s.fn (2 * p + x)).active? n = some r → w32 = false ∨ r.size ≤ idx ∨ 128 ≤ n :=
  ⟨State.reset, 0, 0, 1, 0, false, fun _ _ => .inl rfl⟩

theorem witness_DoorbellsMoveTheirRing_3 : ∃ (s : State) (p x n idx : Nat) (w32 : Bool) (r : Ring),
    ((s.fn (2 * p + x)).active? (cqPage n) = some r) ∧ (w32 = true) ∧ (idx < r.size) ∧ ((idx + r.size - r.head) % r.size ≤ r.used) ∧ ((s.fn (2 * p + x)).held = []) ∧ ((s.fn (2 * p + x)).lost = 0) :=
  ⟨sealedSt [], 0, 0, 1, 0, true, adminRing 6 0x40000 0 1,
    (by decide +kernel),
    (by decide +kernel),
    (by decide +kernel),
    (by decide +kernel),
    (by decide +kernel),
    (by decide +kernel)⟩

theorem witness_DoorbellsMoveTheirRing_4 : ∃ (s : State) (p x n idx : Nat) (w32 : Bool),
    ∀ r, (s.fn (2 * p + x)).active? (cqPage n) = some r → w32 = false ∨ r.size ≤ idx ∨ r.used < (idx + r.size - r.head) % r.size :=
  ⟨State.reset, 0, 0, 1, 0, false, fun _ _ => .inl rfl⟩

theorem witness_RingCommandsComplete_1 : ∃ (s : State) (q : Desc),
    (Open q s) ∧ (Live q s) :=
  ⟨sealedSt [], td,
    (by unfold Open; decide +kernel),
    (by unfold Live; decide +kernel)⟩

theorem witness_RingCommandsComplete_2 : ∃ (s : State) (q : Desc) (cq : Bool) (id log2 flags link cc ct base : Nat),
    (Open q s) ∧ (Live q s) ∧ (q.sq = 0) ∧ ((s.part q.part).outst = []) ∧ (s.ringOk q.fn cq id log2 flags link cc ct base = true) :=
  ⟨sealedSt [], { td with sq := 0 }, false, 5, 8, 1, 1, 0, 0, 0x50000,
    (by unfold Open; decide +kernel),
    (by unfold Live; decide +kernel),
    (by decide +kernel),
    (by decide +kernel),
    (by decide +kernel)⟩

theorem witness_RingCommandsComplete_3 : ∃ (s : State) (q : Desc) (id : Nat),
    (Open q s) ∧ (Live q s) ∧ (q.sq = 0) ∧ ((s.part q.part).outst = []) ∧ (1 ≤ id) ∧ (id ≤ 127) ∧ (id ≠ (s.fn q.fn).cqOf 0) ∧ (((s.fn q.fn).ring? (cqPage id)).isSome = true) ∧ ((s.fn q.fn).rings.all (fun e => decide (128 ≤ e.1) || e.2.link != id) = true) :=
  ⟨{ sealedSt [] with fns := [(0, { HostFn.init with rings := testRings ++ [(cqPage 2, adminRing 6 0x50000 0 1)] })] }, { td with sq := 0 }, 2,
    (by unfold Open; decide +kernel),
    (by unfold Live; decide +kernel),
    (by decide +kernel),
    (by decide +kernel),
    (by decide +kernel),
    (by decide +kernel),
    (by decide +kernel),
    (by decide +kernel),
    (by decide +kernel)⟩

theorem witness_RingCommandsComplete_4 : ∃ (s : State) (q : Desc) (dest room : Nat) (adopt : Bool),
    (Open q s) ∧ (Live q s) ∧ (208 ≤ room) :=
  ⟨sealedSt [], td, 0x1000, 208, true,
    (by unfold Open; decide +kernel),
    (by unfold Live; decide +kernel),
    (by decide +kernel)⟩

theorem witness_RingCommandsComplete_5 : ∃ (s : State) (q : Desc) (dest room : Nat) (adopt : Bool),
    (Open q s) ∧ (Live q s) ∧ (room < 208) :=
  ⟨sealedSt [], td, 0x1000, 207, true,
    (by unfold Open; decide +kernel),
    (by unfold Live; decide +kernel),
    (by decide +kernel)⟩

theorem witness_HostFunctionsEnableAndFall_1 : ∃ (s : State) (p x : Nat),
    (x < 2) ∧ (p < 8) ∧ (s.fbit HRG_CTRL_EN (2 * p + x) = false) ∧ (s.adminOk (2 * p + x) = true) ∧ (s.bound p (1 - x) = false) :=
  ⟨st [(HRG_ASQ_LO_BASE_LO,0,1),(HRG_ACQ_LO_BASE_LO,0,2),(HRG_ASIZE_ASQ_LOG2,0,6),(HRG_ASIZE_ACQ_LOG2,0,6)], 0, 0,
    (by decide +kernel),
    (by decide +kernel),
    (by decide +kernel),
    (by decide +kernel),
    (by decide +kernel)⟩

theorem witness_HostFunctionsEnableAndFall_2 : ∃ (s : State) (p x : Nat),
    (s.fbit HRG_CTRL_EN (2 * p + x) = false) ∧ (s.adminOk (2 * p + x) = false) :=
  ⟨State.reset, 0, 0,
    (by decide +kernel),
    (by decide +kernel)⟩

theorem witness_HostFunctionsEnableAndFall_3 : ∃ (s : State) (p x : Nat),
    (x < 2) ∧ (p < 8) ∧ (s.fbit HRG_CTRL_EN (2 * p + x) = true) ∧ (s.bound p (1 - x) = false) :=
  ⟨sealedSt [], 0, 0,
    (by decide +kernel),
    (by decide +kernel),
    (by decide +kernel),
    (by decide +kernel)⟩

theorem witness_HostFunctionsEnableAndFall_4 : ∃ (s : State) (p x : Nat),
    (x < 2) ∧ (p < 8) ∧ (s.ready (2 * p + x) = true) ∧ (s.bound p (1 - x) = false) :=
  ⟨sealedSt [], 0, 0,
    (by decide +kernel),
    (by decide +kernel),
    (by decide +kernel),
    (by decide +kernel)⟩

theorem witness_HostFunctionsEnableAndFall_5 : ∃ (s : State) (x : Nat),
    (x = 0) :=
  ⟨sealedSt [(HRG_PORT_A_UP,0,1)], 0,
    (by decide +kernel)⟩

theorem witness_HostFunctionsEnableAndFall_6 : ∃ (s : State) (p x : Nat),
    (x < 2) ∧ (p < 8) ∧ (s.ready (2 * p + x) = true) ∧ (s.bound p (1 - x) = false) :=
  ⟨sealedSt [], 0, 0,
    (by decide +kernel),
    (by decide +kernel),
    (by decide +kernel),
    (by decide +kernel)⟩

theorem witness_HostFunctionsEnableAndFall_7 : ∃ (s : State) (x : Nat),
    (x = 1) :=
  ⟨sealedSt [(HRG_PORT_B_UP,0,1)], 1,
    (by decide +kernel)⟩

theorem witness_PortsAndBindings_1 : ∃ (s : State) (port rate width : Nat) (flit : Bool) (vfs : Nat),
    port = 1 ∧ rate < 16 ∧ width < 16 ∧ vfs < 16 ∧ (∀ p, s.bound p 1 = false) ∧ s.unitState uHost (s.nDies / 2) 0 ≠ usFENCED :=
  ⟨State.reset, 1, 5, 8, true, 8, rfl, by decide, by decide, by decide, fun _ => rfl, by decide +kernel⟩

theorem witness_PortsAndBindings_2 : ∃ (s : State) (port : Nat),
    (port = 0) ∧ (s.fbit HRG_EVENT_A_AER 0 = false) :=
  ⟨State.reset, 0,
    (by decide +kernel),
    (by decide +kernel)⟩

theorem witness_PortsAndBindings_3 : ∃ (s : State) (p v : Nat),
    (s.bindBad p 0 (v.testBit 7) (v % 16) = false) ∧ (s.bindBad p 1 (v.testBit 15) (v / 256 % 16) = false) :=
  ⟨State.reset, 7, 0x8381,
    (by decide +kernel),
    (by decide +kernel)⟩

theorem witness_PortsAndBindings_4 : ∃ (s : State) (p v : Nat),
    (s.bindBad p 0 (v.testBit 7) (v % 16) = true) ∧ (s.fbit PTN_EVENT_BIND_REFUSED p = false) :=
  ⟨State.reset, 7, 0x80,
    (by decide +kernel),
    (by decide +kernel)⟩

theorem witness_PortsAndBindings_5 : ∃ (s : State) (p x cq t : Nat) (r : Ring),
    ((s.fn (2 * p + x)).active? (cqPage cq) = some r) ∧ (r.since ≠ 0) ∧ (r.coalTime ≠ 0) ∧ (r.sinceT + r.coalTime * 1000 ≤ t) ∧ (r.flags.testBit 0 = false) ∧ ((s.fn (2 * p + x)).masked.contains r.link = false) :=
  ⟨{ sealedSt [] with fns := [(0, { HostFn.init with rings := [(cqPage 1, { adminRing 6 0x40000 0 1 with since := 2, coalTime := 3, sinceT := 10 })] })] }, 0, 0, 1, 3010, { adminRing 6 0x40000 0 1 with since := 2, coalTime := 3, sinceT := 10 },
    (by decide +kernel),
    (by decide +kernel),
    (by decide +kernel),
    (by decide +kernel),
    (by decide +kernel),
    (by decide +kernel)⟩

theorem witness_PortsAndBindings_6 : ∃ (s : State) (p x : Nat) (descs : List Fetched) (fail : Bool) (sq : Nat),
    (s.pickSq (2 * p + x) = some (sq, false)) ∧ (fail = true) ∧ (sq ≠ 0) :=
  ⟨{ sealedSt [] with fns := [(0, { HostFn.init with rings := [(1, { adminRing 6 0x20000 0 1 with tail := 2 }), (cqPage 1, adminRing 6 0x40000 0 1)] })] }, 0, 0, [], true, 1,
    (by decide +kernel),
    (by decide +kernel),
    (by decide +kernel)⟩

theorem witness_PortsAndBindings_7 : ∃ (s : State) (p x : Nat) (d : Fetched) (sq : Nat) (r : Ring),
    (x < 2) ∧ (s.pickSq (2 * p + x) = some (sq, false)) ∧ ((s.fn (2 * p + x)).ring? sq = some r) ∧ (knownOp d.op = true) :=
  ⟨{ sealedSt [] with fns := [(0, { HostFn.init with rings := [(1, { adminRing 6 0x20000 0 1 with tail := 2 }), (cqPage 1, adminRing 6 0x40000 0 1)] })] }, 0, 0, ⟨0, 7, false, false, false, 0⟩, 1, { adminRing 6 0x20000 0 1 with tail := 2 },
    (by decide +kernel),
    (by decide +kernel),
    (by decide +kernel),
    (by decide +kernel)⟩

theorem witness_KeysAndPeers_1 : ∃ (s : State) (q : Desc) (b : KeyBody) (c : Ctx) (x : Nat),
    (Open q s) ∧ (Live q s) ∧ (s.ctx? q.part b.ctx = some c) ∧ (s.dieDown c.home = false) ∧ (b.ok = true) ∧ (c.destroying = none) ∧ (b.entry ≠ 0 → (s.region c.home b.entry).st = .free) ∧ ((if b.entry ≠ 0 then b.entry else nthFree (s.nrt c.home).takenKeys 1 0) = x) ∧ (x < 2 ^ 21) ∧ (b.inbox = true → s.inboxEntries c.home + b.bytes / 2 ^ b.entryLog2 ≤ 8192) ∧ ((s.begin q 0x50 (b.ctx + b.inbox.toNat * 2 ^ 16 + b.rights * 2 ^ 24 + b.entry * 2 ^ 32)).quotaOk c.home b.ctx (ceilDiv b.bytes 4096) = true) ∧ (ceilDiv b.bytes 4096 ≤ s.freeSegs c.home) :=
  ⟨nrtSt [(RAS_DIE_STATE_STACKS, 0, 7)], td, ⟨5, false, 2, 6, 4096, 0, 0, 0, 0, 0⟩, tctx, 6,
    (by unfold Open; decide +kernel),
    (by unfold Live; decide +kernel),
    (by decide +kernel),
    (by decide +kernel),
    (by decide +kernel),
    (by decide +kernel),
    (by decide +kernel),
    (by decide +kernel),
    (by decide +kernel),
    (by decide +kernel),
    (by decide +kernel),
    (by decide +kernel)⟩

theorem witness_KeysAndPeers_2 : ∃ (s : State) (q : Desc) (key : Nat) (keep : Bool),
    (Open q s) ∧ (Live q s) ∧ ((s.diesOf q.part).contains (keyDie key) = true) ∧ (s.dieDown (keyDie key) = false) ∧ (s.keyValid (keyDie key) key = true) ∧ ((s.nrt (keyDie key)).tx = []) ∧ ((s.nrt (keyDie key)).armed = []) :=
  ⟨nrtSt [], td, (tkey (nrtSt []) 5), false,
    (by unfold Open; decide +kernel),
    (by unfold Live; decide +kernel),
    (by rw [tkey_die]; decide +kernel),
    (by rw [tkey_die]; decide +kernel),
    (by
      rw [tkey_die]
      exact tkey_valid _ _ (by decide +kernel) rfl),
    (by rw [tkey_die]; decide +kernel),
    (by rw [tkey_die]; decide +kernel)⟩

theorem witness_KeysAndPeers_3 : ∃ (s : State) (d entry : Nat),
    ((s.region d entry).st = .dead) :=
  ⟨(nrtSt []).modNrt 0 (fun n => { n with keys := [(5, { tregion with st := .dead })] }), 0, 5,
    (by decide +kernel)⟩

theorem witness_KeysAndPeers_4 : ∃ (s : State) (q : Desc) (b : PeerBody),
    (Open q s) ∧ (Live q s) ∧ (b.transport = 0) ∧ ((s.diesOf q.part).contains b.die = true) ∧ (s.dieDown b.die = false) ∧ (b.ok = true) ∧ ((s.nrt b.die).peers.any (fun e => e.1 != b.peer && e.2.v4 == b.ipv4 && e.2.addr == b.addr) = false) ∧ ((s.peer? b.die b.peer).bind (·.qp) = none) :=
  ⟨nrtSt [], td, ⟨2, 0, true, 0, 3, 0x0A000002, 0, 0, 0⟩,
    (by unfold Open; decide +kernel),
    (by unfold Live; decide +kernel),
    (by decide +kernel),
    (by decide +kernel),
    (by decide +kernel),
    (by decide +kernel),
    (by decide +kernel),
    (by decide +kernel)⟩

theorem witness_KeysAndPeers_5 : ∃ (s : State) (q : Desc) (key peer : Nat),
    (Open q s) ∧ (Live q s) ∧ (((s.diesOf q.part).filter (fun d => (s.peer? d peer).isSome)).isEmpty = false) ∧ (((s.diesOf q.part).filter (fun d => (s.peer? d peer).isSome)).all (fun d => thas (s.nrt d).binds key || decide ((s.nrt d).binds.length < 16384)) = true) :=
  ⟨nrtSt [], td, 8, 1,
    (by unfold Open; decide +kernel),
    (by unfold Live; decide +kernel),
    (by decide +kernel),
    (by decide +kernel)⟩

theorem witness_CountersAndArmedRequests_1 : ∃ (s : State) (q : Desc) (d : Nat) (add : Bool) (index value : Nat),
    (Open q s) ∧ (Live q s) ∧ ((s.diesOf q.part).contains d = true) ∧ (s.dieDown d = false) ∧ (index < 65536) ∧ ((s.nrt d).waits.all (fun w => !(w.ctr == index)) = true) ∧ ((s.nrt d).armed.all (fun a => !(a.body.trigIndex == index)) = true) :=
  ⟨nrtSt [], td, 0, true, 3, 0xFFFFFFFFFFFFFFFF,
    (by unfold Open; decide +kernel),
    (by unfold Live; decide +kernel),
    (by decide +kernel),
    (by decide +kernel),
    (by decide +kernel),
    (by decide +kernel),
    (by decide +kernel)⟩

theorem witness_CountersAndArmedRequests_2 : ∃ (s : State) (q : Desc) (d index thresh timeout : Nat),
    (Open q s) ∧ (Live q s) ∧ ((s.diesOf q.part).contains d = true) ∧ (s.dieDown d = false) ∧ (index < 65536) ∧ (meets (s.ctr d index) thresh = true) :=
  ⟨nrtSt [], td, 0, 3, 0, 9,
    (by unfold Open; decide +kernel),
    (by unfold Live; decide +kernel),
    (by decide +kernel),
    (by decide +kernel),
    (by decide +kernel),
    (by decide +kernel)⟩

theorem witness_CountersAndArmedRequests_3 : ∃ (s : State) (q : Desc) (d index thresh timeout : Nat),
    (Open q s) ∧ (Live q s) ∧ ((s.diesOf q.part).contains d = true) ∧ (s.dieDown d = false) ∧ (index < 65536) ∧ (meets (s.ctr d index) thresh = false) ∧ ((s.nrt d).waits.length < 4096) :=
  ⟨nrtSt [], td, 0, 3, 5, 9,
    (by unfold Open; decide +kernel),
    (by unfold Live; decide +kernel),
    (by decide +kernel),
    (by decide +kernel),
    (by decide +kernel),
    (by decide +kernel),
    (by decide +kernel)⟩

theorem witness_CountersAndArmedRequests_5 : ∃ (s : State) (q : Desc) (b : ArmBody) (i : Nat),
    (Open q s) ∧ (Live q s) ∧ ((s.diesOf q.part).contains b.die = true) ∧ (s.dieDown b.die = false) ∧ (s.keyValid b.die b.localKey = true) ∧ ((s.region b.die (keyEntry b.localKey)).inbox = false) ∧ (b.localOff + b.len ≤ (s.region b.die (keyEntry b.localKey)).bytes) ∧ (b.trigIndex < 65536) ∧ (1 ≤ b.len) ∧ (b.len ≤ 2 ^ 24) ∧ (tget (s.nrt b.die).binds b.remoteKey = some i) ∧ ((s.peer? b.die i).isSome = true) ∧ (s.nrtReady b.die = true) ∧ (meets (s.ctr b.die b.trigIndex) b.trigValue = false) ∧ ((s.nrt b.die).armed.length < 1024) :=
  ⟨nrtSt [], td, ⟨.write, 0, 3, 5, (tkey (nrtSt []) 5), 7, 0, 0, 64, false, 0, 0⟩, 1,
    (by unfold Open; decide +kernel),
    (by unfold Live; decide +kernel),
    (by decide +kernel),
    (by decide +kernel),
    tkey_valid _ _ (by decide +kernel) rfl,
    (by
      show ((nrtSt []).region 0 (keyEntry (tkey (nrtSt []) 5))).inbox = false
      rw [tkey_entry]
      decide +kernel),
    (by
      show 0 + 64 ≤ ((nrtSt []).region 0 (keyEntry (tkey (nrtSt []) 5))).bytes
      rw [tkey_entry]
      decide +kernel),
    (by decide +kernel),
    (by decide +kernel),
    (by decide +kernel),
    (by decide +kernel),
    (by decide +kernel),
    (by decide +kernel),
    (by decide +kernel),
    (by decide +kernel)⟩

theorem witness_CountersAndArmedRequests_6 : ∃ (s : State) (q : Desc) (d index : Nat),
    (Open q s) ∧ (Live q s) ∧ ((s.diesOf q.part).contains d = true) ∧ (s.dieDown d = false) ∧ (index < 65536) :=
  ⟨nrtSt [], td, 0, 3,
    (by unfold Open; decide +kernel),
    (by unfold Live; decide +kernel),
    (by decide +kernel),
    (by decide +kernel),
    (by decide +kernel)⟩

theorem witness_ReceivedPackets_1 : ∃ (s : State) (d : Nat) (h : NrtHdr) (p : List Byte) (v4 : Bool) (addr dscp : Nat) (ce : Bool) (t : Nat),
    (s.nrtReady d = true) ∧ ((s.nrt d).answered? h.src h.msg = none) ∧ ((s.lnk d).policers = []) ∧ (s.keyAdmits d h false = true) ∧ ((s.region d (keyEntry h.key)).inbox = false) ∧ (h.typ = 1) ∧ (h.fence = false) ∧ (h.off = 0) ∧ (h.total ≤ 2 ^ h.segLog2) ∧ (h.ok p.length true = true) ∧ ((s.nrt d).rx = []) ∧ ((s.nrt d).inject = false) :=
  ⟨nrtSt [], 0, thdr 1 (tkey (nrtSt []) 5), [1, 2], true, 0x0A000001, 0, false, 9,
    (by decide +kernel),
    (by decide +kernel),
    (by decide +kernel),
    (by
      unfold State.keyAdmits
      rw [show (thdr 1 (tkey (nrtSt []) 5)).key = tkey (nrtSt []) 5 from rfl, tkey_valid (nrtSt []) _ (by decide +kernel) rfl, tkey_entry]
      decide +kernel),
    (by
      rw [show (thdr 1 (tkey (nrtSt []) 5)).key = tkey (nrtSt []) 5 from rfl, tkey_entry]
      decide +kernel),
    (by decide +kernel),
    (by decide +kernel),
    (by decide +kernel),
    (by decide +kernel),
    (by decide +kernel),
    (by decide +kernel),
    (by decide +kernel)⟩

theorem witness_ReceivedPackets_2 : ∃ (s : State) (d : Nat) (h : NrtHdr) (v4 : Bool) (addr dscp t : Nat),
    (s.nrtReady d = true) ∧ ((s.nrt d).answered? h.src h.msg = none) ∧ ((s.lnk d).policers = []) ∧ (s.keyAdmits d h false = true) ∧ ((s.region d (keyEntry h.key)).inbox = false) ∧ (h.typ = 3) ∧ (h.ok 0 true = true) ∧ (s.serving d < 256) :=
  ⟨nrtSt [], 0, thdr 3 (tkey (nrtSt []) 5), true, 0x0A000001, 0, 9,
    (by decide +kernel),
    (by decide +kernel),
    (by decide +kernel),
    (by
      unfold State.keyAdmits
      rw [show (thdr 3 (tkey (nrtSt []) 5)).key = tkey (nrtSt []) 5 from rfl, tkey_valid (nrtSt []) _ (by decide +kernel) rfl, tkey_entry]
      decide +kernel),
    (by
      rw [show (thdr 3 (tkey (nrtSt []) 5)).key = tkey (nrtSt []) 5 from rfl, tkey_entry]
      decide +kernel),
    (by decide +kernel),
    (by decide +kernel),
    (by decide +kernel)⟩

theorem witness_ReceivedPackets_3 : ∃ (s : State) (d : Nat) (h : NrtHdr) (p : List Byte) (v4 : Bool) (addr dscp t e off : Nat) (x : Tx),
    (s.nrtReady d = true) ∧ ((s.nrt d).tx.find? (fun t => t.hdr.typ == 3 && t.msg == h.msg && t.hdr.src == h.src) = some x) ∧ (x.from_ = some (e, off)) ∧ (h.typ = 4) ∧ (h.ok p.length true = true) ∧ (h.total = x.hdr.total) ∧ (h.segLog2 = x.hdr.segLog2) ∧ ((s.nrt d).rx = []) ∧ ((s.nrt d).inject = false) :=
  ⟨(nrtSt []).modNrt 0 (fun n => { n with tx := [ttx 3 (some (5, 32))] }), 0, thdr 4 0, [1, 2], true, 0x0A000001, 0, 9, 5, 32, ttx 3 (some (5, 32)),
    (by decide +kernel),
    (by decide +kernel),
    (by decide +kernel),
    (by decide +kernel),
    (by decide +kernel),
    (by decide +kernel),
    (by decide +kernel),
    (by decide +kernel),
    (by decide +kernel)⟩

theorem witness_ReceivedPackets_4 : ∃ (s : State) (d : Nat) (h : NrtHdr) (t : Nat) (x : Tx),
    (s.nrtReady d = true) ∧ (s.txOf d h = some x) ∧ (x.hdr.typ ≠ 3) ∧ ((match x.use with | .none_ | .status | .output _ _ => true | _ => false) = true) :=
  ⟨(nrtSt []).modNrt 0 (fun n => { n with tx := [ttx 1 none] }), 0, thdr 8 0, 9, ttx 1 none,
    (by decide +kernel),
    (by decide +kernel),
    (by decide +kernel),
    (by decide +kernel)⟩

theorem witness_ReceivedPackets_5 : ∃ (s : State) (d : Nat) (h : NrtHdr) (t : Nat) (x : Tx),
    (s.nrtReady d = true) ∧ (s.txOf d h = some x) ∧ ((match x.use with | .none_ | .status | .output _ _ => true | _ => false) = true) :=
  ⟨(nrtSt []).modNrt 0 (fun n => { n with tx := [ttx 1 none] }), 0, { thdr 9 0 with status := 6 }, 9, ttx 1 none,
    (by decide +kernel),
    (by decide +kernel),
    (by decide +kernel)⟩

theorem witness_ReceivedPackets_6 : ∃ (s : State) (d : Nat) (h : NrtHdr) (ranges : List (Nat × Nat)) (t : Nat),
    (s.nrtReady d = true) ∧ (1 ≤ ranges.length) ∧ (ranges.length ≤ 16) :=
  ⟨(nrtSt []).modNrt 0 (fun n => { n with tx := [ttx 1 none] }), 0, thdr 10 0, [(0, 2)], 9,
    (by decide +kernel),
    (by decide +kernel),
    (by decide +kernel)⟩

theorem witness_ReceivedPackets_7 : ∃ (s : State) (d : Nat) (h : RoceHdr) (b : List Byte) (v4 : Bool) (dscp t i : Nat) (p : Peer) (x : Qp),
    (s.nrtReady d = true) ∧ (s.fbit NRT_CTRL_ROCE_EN d = true) ∧ (s.qpPeer d h.qpn = some (i, p, x)) ∧ (s.peer? d i = some p) ∧ (x.err = false) ∧ ((s.lnk d).policers = []) ∧ (h.op = .wOnly) ∧ (h.psn = x.recvPsn) ∧ (x.cur = none) ∧ (h.len = b.length) ∧ (s.keyAdmits d (roceForm p x h 1 0) true = true) ∧ ((s.region d (keyEntry h.rkey)).inbox = false) :=
  ⟨roceSt, 0, (⟨.wOnly, 4, 9, tkey (nrtSt []) 5, 16, 2, 0, 0⟩ : RoceHdr), [1, 2], true, 0, 9, 1, troce, tqp,
    (by decide +kernel),
    (by decide +kernel),
    (by decide +kernel),
    (by decide +kernel),
    (by decide +kernel),
    (by decide +kernel),
    (by decide +kernel),
    (by decide +kernel),
    (by decide +kernel),
    (by decide +kernel),
    (by
      unfold State.keyAdmits
      rw [show (roceForm troce tqp (⟨.wOnly, 4, 9, tkey (nrtSt []) 5, 16, 2, 0, 0⟩ : RoceHdr) 1 0).key = tkey (nrtSt []) 5 from rfl, tkey_valid (nrtSt []) roceSt (by decide +kernel) roce_gen, tkey_entry]
      decide +kernel),
    (by
      rw [show (⟨.wOnly, 4, 9, tkey (nrtSt []) 5, 16, 2, 0, 0⟩ : RoceHdr).rkey = tkey (nrtSt []) 5 from rfl, tkey_entry]
      decide +kernel)⟩

theorem witness_ReceivedPackets_8 : ∃ (s : State) (d : Nat) (via : Via),
    (MayWrite via (NRT_CTRL_INJECT.at_ d) s) ∧ (s.shadowed d = false) :=
  ⟨nrtSt [], 0, .pf 0,
    (fun _ h => nomatch h),
    (by decide +kernel)⟩

theorem witness_MessageTimers_1 : ∃ (s : State) (d src msg : Nat) (read : Bool) (t : Nat) (x : Rx),
    ((s.nrt d).rx.find? (fun x => (x.hdr.typ == 4) == read && x.hdr.src == src && x.hdr.msg == msg) = some x) ∧ (x.cover = []) ∧ (x.arrivals = []) ∧ (x.held = none) ∧ (x.snackT = 0) ∧ (x.cls = 7) ∧ (1 ≤ x.hdr.total) ∧ (x.pathTmo * 500 ≤ max s.clk.tNs t) :=
  ⟨(nrtSt []).modNrt 0 (fun n => { n with rx := [{ hdr := { thdr 1 7 with total := 5000, dep := 2 }, from_ := 2 ^ 128 + 1, cover := [], arrivals := [], held := none, snackT := 0, ce := false, injected := false, cls := 7, pathTmo := 10, linger := 10, holdTmo := 5 : Rx }] }), 0, 3, 8, false, 5000, { hdr := { thdr 1 7 with total := 5000, dep := 2 }, from_ := 2 ^ 128 + 1, cover := [], arrivals := [], held := none, snackT := 0, ce := false, injected := false, cls := 7, pathTmo := 10, linger := 10, holdTmo := 5 : Rx },
    (by decide +kernel),
    (by decide +kernel),
    (by decide +kernel),
    (by decide +kernel),
    (by decide +kernel),
    (by decide +kernel),
    (by decide +kernel),
    (by decide +kernel)⟩

theorem witness_MessageTimers_2 : ∃ (s : State) (d id t : Nat) (x : Tx),
    ((s.nrt d).tx.find? (fun x => x.msg == id) = some x) ∧ (x.use = .none_ ∨ x.use = .status) ∧ (s.fbit LNK_SHUT_CTRL_EN d = false) ∧ (x.lastT + x.ackTmo ≤ max s.clk.tNs t) ∧ (x.retry ≤ x.tmo + 1) :=
  ⟨(nrtSt []).modNrt 0 (fun n => { n with tx := [{ ttx 1 none with tmo := 7 }] }), 0, 8, 5000, { ttx 1 none with tmo := 7 },
    (by decide +kernel),
    (by decide +kernel),
    (by decide +kernel),
    (by decide +kernel),
    (by decide +kernel)⟩

theorem witness_MessageTimers_3 : ∃ (s : State) (d src msg t t0 : Nat) (b : List Byte) (x : Rx),
    ((s.nrt d).rx = [x]) ∧ (x.isOf src msg = true) ∧ (x.held = some (b, t0)) ∧ (t0 + x.holdTmo * 1000 ≤ max s.clk.tNs t) ∧ ((s.nrt d).answered? src msg = none) :=
  ⟨(nrtSt []).modNrt 0 (fun n => { n with rx := [{ hdr := { thdr 1 7 with total := 5000, dep := 2 }, from_ := 2 ^ 128 + 1, cover := [], arrivals := [], held := some ([1], 0), snackT := 0, ce := false, injected := false, cls := 7, pathTmo := 10, linger := 10, holdTmo := 5 : Rx }] }), 0, 3, 8, 5000, 0, [1], { hdr := { thdr 1 7 with total := 5000, dep := 2 }, from_ := 2 ^ 128 + 1, cover := [], arrivals := [], held := some ([1], 0), snackT := 0, ce := false, injected := false, cls := 7, pathTmo := 10, linger := 10, holdTmo := 5 : Rx },
    (by decide +kernel),
    (by decide +kernel),
    (by decide +kernel),
    (by decide +kernel),
    (by decide +kernel)⟩

theorem witness_MessageTimers_5 : ∃ (s : State) (d peer t : Nat) (p : Peer),
    (s.peer? d peer = some p) ∧ (p.calmT + 20000 ≤ max s.clk.tNs t) :=
  ⟨nrtSt [], 0, 1, 30000, tpeer,
    (by decide +kernel),
    (by decide +kernel)⟩

theorem witness_MessageTimers_6 : ∃ (s : State) (d peer path t t0 : Nat) (p : Peer),
    (s.peer? d peer = some p) ∧ (tget p.down path = some t0) ∧ (t0 + 1000000 ≤ max s.clk.tNs t) :=
  ⟨(nrtSt []).modNrt 0 (fun n => { n with peers := [(1, { tpeer with down := [(2, 5)] })] }), 0, 1, 2, 1000005, 5, { tpeer with down := [(2, 5)] },
    (by decide +kernel),
    (by decide +kernel),
    (by decide +kernel)⟩

theorem witness_FramesAndMacsec_1 : ∃ (s : State) (d : Nat) (t c : Nat) (f g : QFrame),
    ((s.lnk d).busy ≤ max s.clk.tNs t * 200) ∧ ((((s.advanceTo t).accrueAll d).pickClass d 8).1 = some (c, f)) ∧ (((((s.advanceTo t).accrueAll d).pickClass d 8).2.readyFrame d f).1 = some g) :=
  ⟨(nrtSt [(LNK_CTRL_MACSEC_EN,0,0),(LNK_STATUS_UP,0,1),(LNK_STATUS_LANES,0,8),(LNK_CTRL_EN,0,1),(NRT_STATUS_LINK_UP,0,1)]).modLnk 0 (fun l => { l with tcs := [(7, { frames := [{ addr := 3, pkt := .nrt (thdr 8 0) [], bytes := 80, enqT := 0, deferred := false, idle := 0, shaped := false, limit := 0, dscp := 0, v4 := true : QFrame }], credit := 0, upTo := 0 })] }), 0, 9, 7, { addr := 3, pkt := .nrt (thdr 8 0) [], bytes := 80, enqT := 0, deferred := false, idle := 0, shaped := false, limit := 0, dscp := 0, v4 := true : QFrame }, { addr := 3, pkt := .nrt (thdr 8 0) [], bytes := 80, enqT := 0, deferred := false, idle := 0, shaped := false, limit := 0, dscp := 0, v4 := true : QFrame },
    (by decide +kernel),
    (by decide +kernel),
    (by decide +kernel)⟩

theorem witness_FramesAndMacsec_2 : ∃ (s : State) (d : Nat) (sec : Option (Nat × Nat)) (icvOk : Bool) (h : NrtHdr) (v4 : Bool) (addr dscp : Nat) (ce : Bool) (t : Nat) (x : Tx),
    (s.fbit LNK_STATUS_UP d = true) ∧ (s.unitOn uFabric d 0 = true) ∧ (s.nrtReady d = true) ∧ ((s.secCheck d .nrt sec icvOk).1 = true) ∧ (h.typ = 8) ∧ (s.txOf d h = some x) ∧ (x.hdr.typ ≠ 3) ∧ (x.use = .none_ ∨ x.use = .status) :=
  ⟨(nrtSt [(LNK_CTRL_MACSEC_EN,0,0),(LNK_STATUS_UP,0,1)]).modNrt 0 (fun n => { n with tx := [ttx 1 none] }), 0, none, true, thdr 8 0, true, 3, 0, false, 9, ttx 1 none,
    (by decide +kernel),
    (by decide +kernel),
    (by decide +kernel),
    (by decide +kernel),
    (by decide +kernel),
    (by decide +kernel),
    (by decide +kernel),
    (by decide +kernel)⟩

theorem witness_FramesAndMacsec_3 : ∃ (s : State) (d : Nat) (mi prio : Nat) (first leave wantSak sak : Bool) (t : Nat),
    (s.fbit LNK_STATUS_UP d = true) ∧ (s.unitOn uFabric d 0 = true) ∧ ((s.lnk d).cak.isSome = true) :=
  ⟨(nrtSt [(LNK_STATUS_UP,0,1),(LNK_CTRL_MACSEC_EN,0,1)]).modLnk 0 (fun l => { l with cak := some 1, mkaPeers := [4], txSa := true, txPn := 5 }), 0, 6, 0, false, false, false, true, 9,
    (by decide +kernel),
    (by decide +kernel),
    (by decide +kernel)⟩

theorem witness_FramesAndMacsec_4 : ∃ (s : State) (d : Nat) (an : Nat),
    ((s.lnk d).rekey = some an) :=
  ⟨(nrtSt [(LNK_STATUS_UP,0,1),(LNK_CTRL_MACSEC_EN,0,1)]).modLnk 0 (fun l => { l with cak := some 1, mkaPeers := [4], txSa := true, txPn := 5, rekey := some 1, rxSas := [⟨0, 3⟩, ⟨1, 1⟩] }), 0, 1,
    (by decide +kernel)⟩

theorem witness_FramesAndMacsec_5 : ∃ (s : State) (d : Nat) (t : Nat),
    (s.mkaReady d = true) ∧ ((s.lnk d).mkaServers = []) ∧ ((s.lnk d).rekeyS ≠ 0) ∧ ((s.lnk d).txSa = true) ∧ ((s.lnk d).sakT + (s.lnk d).rekeyS * secNs ≤ max s.clk.tNs t) :=
  ⟨(nrtSt [(LNK_STATUS_UP,0,1),(LNK_CTRL_MACSEC_EN,0,1)]).modLnk 0 (fun l => { l with cak := some 1, mkaPeers := [4], txSa := true, txPn := 5, rekeyS := 1 }), 0, 1000000000,
    (by decide +kernel),
    (by decide +kernel),
    (by decide +kernel),
    (by decide +kernel),
    (by decide +kernel)⟩

theorem witness_FramesAndMacsec_6 : ∃ (s : State) (d : Nat) (via : Via),
    (MayWrite via (LNK_CTRL_REKEY_NOW.at_ d) s) ∧ (s.shadowed d = false) ∧ (s.mkaReady d = true) ∧ ((s.lnk d).mkaServers = []) :=
  ⟨(nrtSt [(LNK_STATUS_UP,0,1),(LNK_CTRL_MACSEC_EN,0,1)]).modLnk 0 (fun l => { l with cak := some 1, mkaPeers := [4], txSa := true, txPn := 5 }), 0, .pf 0,
    (fun _ h => nomatch h),
    (by decide +kernel),
    (by decide +kernel),
    (by decide +kernel)⟩

theorem witness_FramesAndMacsec_8 : ∃ (s : State) (d : Nat) (via : Via),
    (MayRead via (LNK_TXPN_LO_PN_LO.at_ d) s) ∧ (s.shadowed d = false) :=
  ⟨(nrtSt [(LNK_STATUS_UP,0,1),(LNK_CTRL_MACSEC_EN,0,1)]).modLnk 0 (fun l => { l with txPn := 5000000007 }), 0, .console,
    (fun _ h => nomatch h),
    (by decide +kernel)⟩

theorem witness_LinkShutterAndPolicers_1 : ∃ (s : State) (d : Nat) (via : Via),
    (MayWrite via (LNK_CTRL_EN.at_ d) s) ∧ (s.fbit LNK_STATUS_UP d = true) ∧ (s.shadowed d = false) :=
  ⟨nrtSt [(LNK_STATUS_UP,0,1),(LNK_CTRL_MACSEC_EN,0,1)], 0, .pf 0,
    (fun _ h => nomatch h),
    (by decide +kernel),
    (by decide +kernel)⟩

theorem witness_LinkShutterAndPolicers_2 : ∃ (s : State) (d : Nat) (via : Via),
    (MayWrite via (LNK_CTRL_EN.at_ d) s) :=
  ⟨State.reset, 3, .pf 0,
    (fun _ h => nomatch h)⟩

theorem witness_LinkShutterAndPolicers_3 : ∃ (s : State) (d : Nat) (bad : Nat),
    (s.fbit LNK_STATUS_UP d = true) ∧ (trainedLanes (lanesLeft (s.lnk d).lanes bad) ≠ s.fget LNK_STATUS_LANES d) :=
  ⟨nrtSt [(LNK_CTRL_MACSEC_EN,0,0),(LNK_STATUS_UP,0,1),(LNK_STATUS_LANES,0,8)], 0, 0x81,
    (by decide +kernel),
    (by decide +kernel)⟩

theorem witness_LinkShutterAndPolicers_4 : ∃ (s : State) (d : Nat) (good : Nat),
    (s.fbit LNK_CTRL_EN d = true) ∧ (trainedLanes good ≠ 0) ∧ (s.fbit SEC_STATUS_ERROR 0 = false) ∧ (s.unitState uFabric d 0 ≠ usFENCED) :=
  ⟨st [(LNK_CTRL_EN,0,1)], 0, 0x0F,
    (by decide +kernel),
    (by decide +kernel),
    (by decide +kernel),
    (by decide +kernel)⟩

theorem witness_LinkShutterAndPolicers_5 : ∃ (s : State) (d : Nat) (t t0 : Nat) (n : Shutter),
    ((s.lnk d).pend = some (n, t0)) ∧ (t0 ≤ max s.clk.tNs t) :=
  ⟨(nrtSt [(LNK_SHUT_CYCLE_CYCLE,0,1000),(LNK_SHUT_LEN_LEN,0,1),(LNK_SHUT_ENTRY0_GATES,0,255),(LNK_SHUT_ENTRY0_INTERVAL,0,1000)]).modLnk 0 (fun l => { l with pend := some (⟨[(255, 1000)], 1000⟩, 2000) }), 0, 2000, 2000, ⟨[(255, 1000)], 1000⟩,
    (by decide +kernel),
    (by decide +kernel)⟩

theorem witness_LinkShutterAndPolicers_6 : ∃ (s : State) (d : Nat) (via : Via),
    (MayWrite via (LNK_SHUT_CTRL_COMMIT.at_ d) s) ∧ (s.shadowed d = false) ∧ (1000 ≤ s.fget LNK_SHUT_CYCLE_CYCLE d) ∧ (s.fget LNK_SHUT_CYCLE_CYCLE d ≤ 2000000) ∧ (1 ≤ s.fget LNK_SHUT_LEN_LEN d) ∧ (s.fget LNK_SHUT_LEN_LEN d ≤ 64) ∧ (sumNat ((s.shutEntries d (s.fget LNK_SHUT_LEN_LEN d)).map (·.2)) = s.fget LNK_SHUT_CYCLE_CYCLE d) ∧ (s.shutBad d (s.fget LNK_SHUT_CYCLE_CYCLE d) = false) :=
  ⟨nrtSt [(LNK_SHUT_CYCLE_CYCLE,0,1000),(LNK_SHUT_LEN_LEN,0,1),(LNK_SHUT_ENTRY0_GATES,0,255),(LNK_SHUT_ENTRY0_INTERVAL,0,1000)], 0, .pf 0,
    (fun _ h => nomatch h),
    (by decide +kernel),
    (by decide +kernel),
    (by decide +kernel),
    (by decide +kernel),
    (by decide +kernel),
    (by decide +kernel),
    (by decide +kernel)⟩

theorem witness_LinkShutterAndPolicers_7 : ∃ (s : State) (d : Nat) (v : Nat) (via : Via),
    (MayWrite via (LNK_POL_KEY_EN.at_ d) s) ∧ (s.shadowed d = false) :=
  ⟨nrtSt [], 0, 0x80000005, .pf 0,
    (fun _ h => nomatch h),
    (by decide +kernel)⟩

theorem witness_LinkShutterAndPolicers_8 : ∃ (s : State) (d : Nat) (via : Via),
    (MayWrite via (LNK_CTRL_LAT_CLR.at_ d) s) ∧ (s.shadowed d = false) :=
  ⟨st [(LNK_QLAT_HWM,0,9)], 0, .pf 0,
    (fun _ h => nomatch h),
    (by decide +kernel)⟩

theorem witness_ContextsAndKeysOfATenant_1 : ∃ (s : State) (q : Desc) (ctx home : Nat) (latent : Bool) (model layersM1 h dim w g format tail : Nat),
    (Open q s) ∧ (Live q s) ∧ (home ≠ 0xFF) ∧ ((s.diesOf q.part).contains home = true) ∧ (ctx < 4096) ∧ (layersM1 < 256) ∧ (1 ≤ h) ∧ (h ≤ 16) ∧ (dim32 dim 256 = true) ∧ (if latent = true then dim32 w 1024 = true ∧ 1 ≤ g ∧ g ≤ 16 ∧ g * h ≤ 256 else w = 0 ∧ g = 0) ∧ (fmtCode (format % 16) = true) ∧ (if latent = true then format / 16 = 0 else fmtCode (format / 16) = true) ∧ (tail = 0x88 ∨ tail = 0x99) ∧ (s.ctx? q.part ctx = none) ∧ (layersM1 ≤ s.fget PFX_TREE_CFG_LMAX_M1 home) ∧ (s.shapeFits q.part home (newCtx home latent model layersM1 h dim w g format tail) = true) ∧ (s.dieDown home = false) ∧ (s.fbit PFX_STATUS_READY home = true) :=
  ⟨seqSt [] Pfx.init, td, 6, 0, false, 4, 0, 2, 64, 0, 0, 0x88, 0x88,
    (by unfold Open; decide +kernel),
    (by unfold Live; decide +kernel),
    (by decide +kernel),
    (by decide +kernel),
    (by decide +kernel),
    (by decide +kernel),
    (by decide +kernel),
    (by decide +kernel),
    (by decide +kernel),
    (by decide +kernel),
    (by decide +kernel),
    (by decide +kernel),
    (by decide +kernel),
    (by decide +kernel),
    (by decide +kernel),
    (by decide +kernel),
    (by decide +kernel),
    (by decide +kernel)⟩

theorem witness_ContextsAndKeysOfATenant_2 : ∃ (s : State) (q : Desc) (ctx : Nat) (c : Ctx),
    (Open q s) ∧ (Live q s) ∧ (s.ctx? q.part ctx = some c) ∧ (c.destroying = none) ∧ (s.dieDown c.home = false) ∧ (s.ctxHolds c.home ctx c = true) :=
  ⟨seqSt [] (onePfx tslot), td, 5, tctx,
    (by unfold Open; decide +kernel),
    (by unfold Live; decide +kernel),
    (by decide +kernel),
    (by decide +kernel),
    (by decide +kernel),
    (by decide +kernel)⟩

theorem witness_ContextsAndKeysOfATenant_3 : ∃ (s : State) (q : Desc) (ctx : Nat) (force : Bool) (c : Ctx),
    (Open q s) ∧ (Live q s) ∧ (s.ctx? q.part ctx = some c) ∧ (c.destroying = none) ∧ (s.dieDown c.home = false) ∧ (s.ctxHolds c.home ctx c = false) ∧ ((s.csm c.home).sweeps.any (fun w => w.part == q.part && w.ctx == ctx) = false) :=
  ⟨seqSt [] Pfx.init, td, 5, true, tctx,
    (by unfold Open; decide +kernel),
    (by unfold Live; decide +kernel),
    (by decide +kernel),
    (by decide +kernel),
    (by decide +kernel),
    (by decide +kernel),
    (by decide +kernel)⟩

theorem witness_ContextsAndKeysOfATenant_4 : ∃ (s : State) (q : Desc) (dest room : Nat) (certs : Bool) (nonce : List Byte),
    (Open q s) ∧ (Live q s) :=
  ⟨seqSt [] Pfx.init, td, 0x1000, 100, true, [],
    (by unfold Open; decide +kernel),
    (by unfold Live; decide +kernel)⟩

theorem witness_ContextsAndKeysOfATenant_5 : ∃ (s : State) (q : Desc) (die ckn bytes : Nat) (obj : CakObj),
    (Open q s) ∧ (Live q s) ∧ ((s.diesOf q.part).contains die = true) ∧ (obj.sizesOk = true) ∧ (bytes = if obj.plain = true then 64 else 2952) ∧ (1 ≤ ckn) ∧ (ckn ≤ 32) ∧ (s.dieDown die = false) ∧ (if obj.plain = true then s.fbit SEC_STATUS_APPROVED 0 = false else obj.serialOk = true ∧ dget s.sec.cakCtr 0 die < obj.counter ∧ obj.sigOk = true ∧ obj.unwraps = true) :=
  ⟨sealedSt [], td, 0, 4, 2952, ⟨false, true, true, 3, true, true⟩,
    (by unfold Open; decide +kernel),
    (by unfold Live; decide +kernel),
    (by decide +kernel),
    (by decide +kernel),
    (by decide +kernel),
    (by decide +kernel),
    (by decide +kernel),
    (by decide +kernel),
    (by decide +kernel)⟩

theorem witness_MailboxFirmwareAndMode_1 : ∃ (s : State) (port : Nat) (obj : MboxObj) (img : FwImage),
    (port < 2) ∧ (s.fbit SEC_MBOX_STATUS_BUSY 0 = false) ∧ (obj.readable = true) ∧ (obj.wellFormed = true) ∧ (obj.serialOk = true) ∧ (s.sec.ownerCtr < obj.counter) ∧ (obj.sigOk = true) ∧ (s.fget SEC_FUSE_OWNER 0 ≠ 0) :=
  ⟨st [(SEC_FUSE_OWNER,0,1)], 0, ⟨true, true, true, 1, true⟩, { magicOk := true, vendor := some 1, sigOk := true, svn := 4, parts := (9, 9), digestsOk := true, fwVer := 3, rcpVer := 2, id := 5 : FwImage },
    (by decide +kernel),
    (by decide +kernel),
    (by decide +kernel),
    (by decide +kernel),
    (by decide +kernel),
    (by decide +kernel),
    (by decide +kernel),
    (by decide +kernel)⟩

theorem witness_MailboxFirmwareAndMode_2 : ∃ (s : State) (port : Nat) (obj : MboxObj) (slot : Nat) (img : FwImage),
    (port < 2) ∧ (s.fbit SEC_MBOX_STATUS_BUSY 0 = false) ∧ (obj.readable = true) ∧ (obj.wellFormed = true) ∧ (obj.serialOk = true) ∧ (s.sec.ownerCtr < obj.counter) ∧ (obj.sigOk = true) ∧ (s.fget SEC_FUSE_OWNER 0 ≠ 0) ∧ (slot < 2) ∧ (tget s.sec.slots slot = some img) :=
  ⟨{ (st [(SEC_FUSE_OWNER,0,1)]) with sec := { (st [(SEC_FUSE_OWNER,0,1)]).sec with slots := [(1, { magicOk := true, vendor := some 1, sigOk := true, svn := 4, parts := (9, 9), digestsOk := true, fwVer := 3, rcpVer := 2, id := 5 : FwImage })] } }, 1, ⟨true, true, true, 1, true⟩, 1, { magicOk := true, vendor := some 1, sigOk := true, svn := 4, parts := (9, 9), digestsOk := true, fwVer := 3, rcpVer := 2, id := 5 : FwImage },
    (by decide +kernel),
    (by decide +kernel),
    (by decide +kernel),
    (by decide +kernel),
    (by decide +kernel),
    (by decide +kernel),
    (by decide +kernel),
    (by decide +kernel),
    (by decide +kernel),
    (by decide +kernel)⟩

theorem witness_MailboxFirmwareAndMode_3 : ∃ (s : State) (port : Nat) (obj : MboxObj),
    (port < 2) ∧ (s.fbit SEC_MBOX_STATUS_BUSY 0 = false) ∧ (obj.readable = true) ∧ (obj.wellFormed = true) ∧ (obj.serialOk = true) ∧ (s.sec.ownerCtr < obj.counter) ∧ (obj.sigOk = true) ∧ (s.fget SEC_FUSE_OWNER 0 ≠ 0) :=
  ⟨st [(SEC_FUSE_OWNER,0,1), (SEC_SVN_SVN_RUN,0,7), (SEC_SVN_SVN_MIN,0,5)], 0, ⟨true, true, true, 1, true⟩,
    (by decide +kernel),
    (by decide +kernel),
    (by decide +kernel),
    (by decide +kernel),
    (by decide +kernel),
    (by decide +kernel),
    (by decide +kernel),
    (by decide +kernel)⟩

theorem witness_MailboxFirmwareAndMode_4 : ∃ (s : State) (port : Nat) (obj : MboxObj) (mode : Nat),
    (port < 2) ∧ (s.fbit SEC_MBOX_STATUS_BUSY 0 = false) ∧ (obj.readable = true) ∧ (obj.wellFormed = true) ∧ (obj.serialOk = true) ∧ (s.sec.ownerCtr < obj.counter) ∧ (obj.sigOk = true) ∧ (s.fget SEC_FUSE_OWNER 0 ≠ 0) ∧ (mode < 2) :=
  ⟨st [(SEC_FUSE_OWNER,0,1)], 0, ⟨true, true, true, 1, true⟩, 1,
    (by decide +kernel),
    (by decide +kernel),
    (by decide +kernel),
    (by decide +kernel),
    (by decide +kernel),
    (by decide +kernel),
    (by decide +kernel),
    (by decide +kernel),
    (by decide +kernel)⟩

theorem witness_MailboxFirmwareAndMode_5 : ∃ (s : State) (port : Nat) (obj : MboxObj) (p : Nat) (key : List Byte),
    (port < 2) ∧ (s.fbit SEC_MBOX_STATUS_BUSY 0 = false) ∧ (obj.readable = true) ∧ (obj.wellFormed = true) ∧ (obj.serialOk = true) ∧ (s.sec.ownerCtr < obj.counter) ∧ (obj.sigOk = true) ∧ (s.fget SEC_FUSE_OWNER 0 ≠ 0) ∧ (p < 8) ∧ (key = [] ∨ key.length = 1793) ∧ (s.sealed p = false) :=
  ⟨st [(SEC_FUSE_OWNER,0,1)], 0, ⟨true, true, true, 1, true⟩, 3, [],
    (by decide +kernel),
    (by decide +kernel),
    (by decide +kernel),
    (by decide +kernel),
    (by decide +kernel),
    (by decide +kernel),
    (by decide +kernel),
    (by decide +kernel),
    (by decide +kernel),
    (by decide +kernel),
    (by decide +kernel)⟩

theorem witness_OwnerDebugAndZeroize_1 : ∃ (s : State) (port : Nat) (obj : MboxObj) (key : List Byte),
    (port < 2) ∧ (s.fbit SEC_MBOX_STATUS_BUSY 0 = false) ∧ (obj.readable = true) ∧ (obj.wellFormed = true) ∧ (obj.serialOk = true) ∧ (s.sec.ownerCtr < obj.counter) ∧ (obj.sigOk = true) ∧ (key.length = 1793) ∧ ((s.fget SEC_FUSE_OWNER 0).testBit 1 = false) :=
  ⟨State.reset, 0, ⟨true, true, true, 1, true⟩, List.replicate 1793 7,
    (by decide +kernel),
    (by decide +kernel),
    (by decide +kernel),
    (by decide +kernel),
    (by decide +kernel),
    (by decide +kernel),
    (by decide +kernel),
    (by decide +kernel),
    (by decide +kernel)⟩

theorem witness_OwnerDebugAndZeroize_2 : ∃ (s : State) (port : Nat) (obj : MboxObj),
    (port < 2) ∧ (s.fbit SEC_MBOX_STATUS_BUSY 0 = false) ∧ (obj.readable = true) ∧ (obj.wellFormed = true) ∧ (obj.serialOk = true) ∧ (s.sec.ownerCtr < obj.counter) ∧ (obj.sigOk = true) ∧ (s.fget SEC_FUSE_OWNER 0 ≠ 0) :=
  ⟨st [(SEC_FUSE_OWNER,0,1)], 0, ⟨true, true, true, 1, true⟩,
    (by decide +kernel),
    (by decide +kernel),
    (by decide +kernel),
    (by decide +kernel),
    (by decide +kernel),
    (by decide +kernel),
    (by decide +kernel),
    (by decide +kernel)⟩

theorem witness_OwnerDebugAndZeroize_3 : ∃ (s : State) (port : Nat) (obj : MboxObj),
    (port < 2) ∧ (s.fbit SEC_MBOX_STATUS_BUSY 0 = false) ∧ (obj.readable = true) ∧ (obj.wellFormed = true) ∧ (obj.serialOk = true) ∧ (s.sec.ownerCtr < obj.counter) ∧ (obj.sigOk = true) ∧ (s.fget SEC_FUSE_OWNER 0 ≠ 0) ∧ ((List.range 8).all (fun p => s.ptnState p == ptnFree) = true) :=
  ⟨st [(SEC_FUSE_OWNER,0,1)], 0, ⟨true, true, true, 1, true⟩,
    (by decide +kernel),
    (by decide +kernel),
    (by decide +kernel),
    (by decide +kernel),
    (by decide +kernel),
    (by decide +kernel),
    (by decide +kernel),
    (by decide +kernel),
    (by decide +kernel)⟩

theorem witness_OwnerDebugAndZeroize_4 : ∃ (s : State) (via : Via) (code : Nat),
    (MayWrite via (SEC_CTRL_SELFTEST_NOW.at_ 0) s) :=
  ⟨State.reset, .pf 0, 0,
    (fun _ h => nomatch h)⟩

theorem witness_PartitionsAreAssignedSealedAndRemoved_1 : ∃ (s : State) (p v : Nat),
    (s.locked p = false) ∧ (p < 8) :=
  ⟨State.reset, 2, 3,
    (by decide +kernel),
    (by decide +kernel)⟩

theorem witness_PartitionsAreAssignedSealedAndRemoved_2 : ∃ (s : State) (p : Nat),
    (p < 8) ∧ (s.locked p = false) ∧ ((s.part p).sealing = false) ∧ (s.fbit SVC_STATUS_MODE 0 = false) ∧ (s.diesOf p ≠ []) ∧ ((s.diesOf p).all (fun d => s.fget DPM_STATUS_STATE d == 0 && !s.dieDown d && s.fbit FTL_STATUS_READY d) = true) ∧ (s.fbit SEC_STATUS_APPROVED 0 = true → (tget s.sec.tenants p).isSome = true) ∧ ((s.diesOf p).flatMap (fun d => s.liveKeys d p) = []) ∧ (s.genPending p (match tget s.sec.lastDead p with | some g => nextGen g | none => 1) = false) :=
  ⟨st [(PTN_DIES_DIES,2,1),(PTN_STATUS_STATE,2,1),(FTL_STATUS_READY,0,1)], 2,
    (by decide +kernel),
    (by decide +kernel),
    (by decide +kernel),
    (by decide +kernel),
    (by decide +kernel),
    (by decide +kernel),
    (by decide +kernel),
    (by decide +kernel),
    (by decide +kernel)⟩

theorem witness_PartitionsAreAssignedSealedAndRemoved_3 : ∃ (s : State) (p : Nat),
    (p < 8) ∧ (s.locked p = false) ∧ ((s.part p).sealing = false) ∧ (s.fbit SVC_STATUS_MODE 0 = true) :=
  ⟨st [(SVC_STATUS_MODE,0,1)], 2,
    (by decide +kernel),
    (by decide +kernel),
    (by decide +kernel),
    (by decide +kernel)⟩

theorem witness_PartitionsAreAssignedSealedAndRemoved_4 : ∃ (s : State) (p t : Nat),
    (p < 8) ∧ (s.ptnState p ≠ ptnFree) ∧ (s.ptnState p ≠ ptnRemoving) ∧ ((s.part p).genOn = false) :=
  ⟨sealedSt [], 0, 5,
    (by decide +kernel),
    (by decide +kernel),
    (by decide +kernel),
    (by decide +kernel)⟩

theorem witness_PartitionsAreAssignedSealedAndRemoved_5 : ∃ (s : State) (q : Desc) (dest t : Nat),
    (Open q s) ∧ (Live q s) :=
  ⟨sealedSt [], td, 0x1000, 5,
    (by unfold Open; decide +kernel),
    (by unfold Live; decide +kernel)⟩

theorem witness_PartitionsAreAssignedSealedAndRemoved_6 : ∃ (s : State) (port : Nat) (obj : MboxObj) (p dest t : Nat),
    (port < 2) ∧ (s.fbit SEC_MBOX_STATUS_BUSY 0 = false) ∧ (obj.readable = true) ∧ (obj.wellFormed = true) ∧ (obj.serialOk = true) ∧ (s.sec.ownerCtr < obj.counter) ∧ (obj.sigOk = true) ∧ (s.fget SEC_FUSE_OWNER 0 ≠ 0) ∧ (p < 8) ∧ (s.ptnState p ≠ ptnFree) ∧ (s.ptnState p ≠ ptnRemoving) :=
  ⟨sealedSt [(SEC_FUSE_OWNER,0,1)], 0, ⟨true, true, true, 1, true⟩, 0, 0x1000, 5,
    (by decide +kernel),
    (by decide +kernel),
    (by decide +kernel),
    (by decide +kernel),
    (by decide +kernel),
    (by decide +kernel),
    (by decide +kernel),
    (by decide +kernel),
    (by decide +kernel),
    (by decide +kernel),
    (by decide +kernel)⟩

theorem witness_PartitionsAreAssignedSealedAndRemoved_7 : ∃ (s : State) (p t : Nat) (r : Removal),
    (tget s.sec.rms p = some r) ∧ (r.st = .removing) ∧ (r.step = 3 ∨ r.step = 4) :=
  ⟨({ sealedSt [(PTN_STATUS_STATE,0,5)] with sec := { State.reset.sec with rms := [(0, { st := .removing, oldGen := 1, dies := 3, accepted := 4, durable := false, operator := false, desc := none, writer := 0, dest := 0, step := 3, steps := [(4, 4)], records := 0, descs := 0, bands := 0, partial_ := false, metaBands := [], scrub := [], destroy := [], erase := [] : Removal })], keys := [(0, 3)] } } : State), 0, 9, { st := .removing, oldGen := 1, dies := 3, accepted := 4, durable := false, operator := false, desc := none, writer := 0, dest := 0, step := 3, steps := [(4, 4)], records := 0, descs := 0, bands := 0, partial_ := false, metaBands := [], scrub := [], destroy := [], erase := [] : Removal },
    (by decide +kernel),
    (by decide +kernel),
    (by decide +kernel)⟩

theorem witness_PartitionsAreAssignedSealedAndRemoved_8 : ∃ (s : State) (p t : Nat) (r : Removal),
    (p < 8) ∧ (tget s.sec.rms p = some r) ∧ (r.st = .removing) ∧ (r.step = 5) ∧ (r.metaBands = []) :=
  ⟨({ sealedSt [(PTN_STATUS_STATE,0,5)] with sec := { State.reset.sec with rms := [(0, { st := .removing, oldGen := 1, dies := 3, accepted := 4, durable := false, operator := false, desc := none, writer := 0, dest := 0, step := 5, steps := [(4, 4)], records := 0, descs := 0, bands := 0, partial_ := false, metaBands := [], scrub := [], destroy := [], erase := [] : Removal })], keys := [(0, 3)] } } : State), 0, 9, { st := .removing, oldGen := 1, dies := 3, accepted := 4, durable := false, operator := false, desc := none, writer := 0, dest := 0, step := 5, steps := [(4, 4)], records := 0, descs := 0, bands := 0, partial_ := false, metaBands := [], scrub := [], destroy := [], erase := [] : Removal },
    (by decide +kernel),
    (by decide +kernel),
    (by decide +kernel),
    (by decide +kernel),
    (by decide +kernel)⟩

theorem witness_PartitionsAreAssignedSealedAndRemoved_9 : ∃ (s : State) (d seen t : Nat),
    (s.fbit SEC_STATUS_ERROR 0 = false) ∧ ((List.range 16).all (fun c => (s.ftl d).chan c != .twinRo) = true) ∧ (s.fbit FTL_STATUS_REPLAYING d = true) :=
  ⟨st [(FTL_STATUS_REPLAYING,0,1)], 0, 0, 5,
    (by decide +kernel),
    (by decide +kernel),
    (by decide +kernel)⟩

theorem witness_PartitionsAreAssignedSealedAndRemoved_10 : ∃ (s : State) (p t : Nat),
    (p < 8) ∧ (s.ptnState p ≠ ptnFree) ∧ (s.ptnState p ≠ ptnRemoving) ∧ ((s.part p).genOn = true) :=
  ⟨(sealedSt []).modPart 0 (fun v => { v with genOn := true }), 0, 5,
    (by decide +kernel),
    (by decide +kernel),
    (by decide +kernel),
    (by decide +kernel)⟩

theorem witness_PackageResets_2 : ∃ (s : State) (via : Via) (code t : Nat),
    (MayWrite via (PWR_CTRL_COLD.at_ 0) s) :=
  ⟨({ (sealedSt []) with sec := { (sealedSt []).sec with slots := [(0, { magicOk := true, vendor := some 1, sigOk := true, svn := 4, parts := (9, 9), digestsOk := true, fwVer := 3, rcpVer := 2, id := 5 : FwImage })] } } : State), .pf 0, 0, 4,
    (fun _ h => nomatch h)⟩

theorem witness_PackageResets_3 : ∃ (s : State) (code t : Nat),
    (s.fbit PWR_STATUS_PWR_LOSS 0 = false) :=
  ⟨sealedSt [], 0, 4,
    (by decide +kernel)⟩

theorem witness_PackageResets_4 : ∃ (s : State) (code t : Nat),
    (s.fbit PWR_STATUS_PWR_LOSS 0 = true) ∧ (s.quiescent = false) :=
  ⟨(flashSt [(PWR_STATUS_PWR_LOSS,0,1)] tband).modFtl 0 (fun f => { f with jpages := [⟨1, [], 256, 1, 0, false, false⟩] }), 0, 4,
    (by decide +kernel),
    (by decide +kernel)⟩

theorem witness_PackageResets_5 : ∃ (s : State) (code t : Nat),
    (s.pwr.coldWait = some code) ∧ (∀ q, s.pwr.lossT = some q → q + 4000000 ≤ max s.clk.tNs t) :=
  ⟨((sealedSt []).modPwr (fun x => { x with coldWait := some 0, lossT := some 5 })), 0, 4000005,
    (by decide +kernel),
    (by decide +kernel)⟩

theorem witness_PackageResets_6 : ∃ (s : State) (d i ns code : Nat),
    (s.pwr.coldWait = some code) ∧ ((s.journalPage d i ns).quiescent = true) ∧ (s.fbit SEC_STATUS_ERROR 0 = false) :=
  ⟨(((flashSt [(PWR_STATUS_PWR_LOSS,0,1)] tband).modFtl 0 (fun f => { f with hold := .loss, bands := [(1, tjband)], jpages := [tjpage], lun := [(0, .prog 1 0 0, 0), (16, .prog 1 0 1, 0)] })).modPwr (fun x => { x with coldWait := some 0 })), 0, 0, 500, 0,
    (by decide +kernel),
    (by decide +kernel),
    (by decide +kernel)⟩

theorem witness_PackageResets_7 : ∃ (s : State) (d i ns : Nat),
    (s.pwr.coldWait = none) ∧ ((s.ftl d).jpages.length ≤ i) :=
  ⟨flashSt [] tband, 0, 0, 500,
    (by decide +kernel),
    (by decide +kernel)⟩

theorem witness_PackageResets_8 : ∃ (s : State) (via : Via) (t : Nat),
    (MayWrite via (PWR_CTRL_WARM.at_ 0) s) :=
  ⟨sealedSt [], .console, 4,
    (fun _ h => nomatch h)⟩

theorem witness_PackageResets_9 : ∃ (s : State) (d : Nat) (via : Via) (bad t : Nat),
    (MayWrite via (DPM_CTRL_RESET.at_ d) s) ∧ (d < s.nDies) ∧ (s.shadowed d = false) ∧ ((s.row uDie d 0).lost = false) :=
  ⟨sealedSt [], 0, .pf 0, 0, 4,
    (fun _ h => nomatch h),
    (by decide +kernel),
    (by decide +kernel),
    (by decide +kernel)⟩

theorem witness_PackageResets_10 : ∃ (s : State) (d ns k l : Nat) (p : JPage) (x y : FOp),
    (s.pwr.coldWait = none) ∧ ((s.ftl d).jpages = [p]) ∧ ((s.ftl d).pageOps p = [(x, false), (y, false)]) ∧ ((s.ftl d).lunOf x = some k) ∧ ((s.ftl d).lunOf y = some l) ∧ ((s.ftl d).still = false) :=
  ⟨(flashSt [] tjband).modFtl 0 (fun f => { f with jpages := [tjpage], lun := [(0, .prog 1 0 0, 0), (16, .prog 1 0 1, 0)] }), 0, 500, 0, 16, tjpage, .prog 1 0 0, .prog 1 0 1,
    (by decide +kernel),
    (by decide +kernel),
    (by decide +kernel),
    (by decide +kernel),
    (by decide +kernel),
    (by decide +kernel)⟩

theorem witness_SupplyAndPowerLoss_1 : ∃ (s : State) (dom mv t : Nat),
    (dom < 6 * s.nDies) ∧ (s.below dom mv 96 = true) :=
  ⟨sealedSt [], 7, 600, 5,
    (by decide +kernel),
    (by decide +kernel)⟩

theorem witness_SupplyAndPowerLoss_2 : ∃ (s : State) (d : Nat) (lows : List (Nat × Nat × Nat)) (t : Nat),
    (d < s.nDies) ∧ (((List.range 6).any fun k => (s.dom (6 * d + k)).warn) = true) ∧ ((List.range 6).all (fun k => !(s.dom (6 * d + k)).warn || decide ((s.dom (6 * d + k)).lastT + 10000 ≤ max s.clk.tNs t)) = true) ∧ (lows.all (fun e => !s.below e.1 e.2.2 97) = true) :=
  ⟨(sealedSt [(DPM_STATUS_WARN,1,1),(DPM_STATUS_PAUSED,1,1)]).modDom 7 (fun x => { x with warn := true, warnT := 10, low := 600, cur := 600 }), 1, [(7, 590, 760)], 10500,
    (by decide +kernel),
    (by decide +kernel),
    (by decide +kernel),
    (by decide +kernel)⟩

theorem witness_SupplyAndPowerLoss_3 : ∃ (s : State) (dom mv code t : Nat),
    (dom < 6 * s.nDies) ∧ (s.below dom mv 92 = true) :=
  ⟨sealedSt [], 7, 400, 0, 5,
    (by decide +kernel),
    (by decide +kernel)⟩

theorem witness_SupplyAndPowerLoss_4 : ∃ (s : State) (dom mv code t : Nat),
    (dom = 6 * s.nDies) ∧ (s.below dom mv 92 = true) :=
  ⟨sealedSt [], 48, 400, 0, 5,
    (by decide +kernel),
    (by decide +kernel)⟩

theorem witness_SupplyAndPowerLoss_5 : ∃ (s : State) (d cas log t : Nat),
    (d < s.nDies) ∧ (s.shadowed d = false) ∧ (s.fbit DPM_STATUS_WARN d = false) ∧ (s.force = []) :=
  ⟨sealedSt [(DPM_AVS_CFG_EN,0,1)], 0, 9, 300, 5,
    (by decide +kernel),
    (by decide +kernel),
    (by decide +kernel),
    (by decide +kernel)⟩

theorem witness_SupplyAndPowerLoss_6 : ∃ (s : State) (via : Via),
    (MayWrite via (PWR_CTRL_MIN_CLR.at_ 0) s) :=
  ⟨(sealedSt [(PWR_SEL_DOMAIN,0,7)]).modDom 7 (fun x => { x with warn := true, warnT := 10, low := 600, cur := 600 }), .pf 1,
    (fun _ h => nomatch h)⟩

theorem witness_SupplyAndPowerLoss_7 : ∃ (s : State) (t : Nat),
    (s.fbit PWR_STATUS_PWR_LOSS 0 = false) :=
  ⟨sealedSt [], 4,
    (by decide +kernel)⟩

theorem witness_SupplyAndPowerLoss_8 : ∃ (s : State) (t : Nat),
    (s.fbit PWR_STATUS_PWR_LOSS 0 = true) ∧ (s.pwr.bootWait = false) :=
  ⟨sealedSt [(PWR_STATUS_PWR_LOSS,0,1)], 4,
    (by decide +kernel),
    (by decide +kernel)⟩

theorem witness_SupplyAndPowerLoss_9 : ∃ (s : State) (d n temp : Nat),
    (d < s.nDies) ∧ (n < 7) ∧ ((if n < 4 then 115 else 105) ≤ temp) :=
  ⟨State.reset, 0, 3, 115,
    (by decide +kernel),
    (by decide +kernel),
    (by decide +kernel)⟩

theorem witness_PowerStatesAndMemory_1 : ∃ (s : State) (d req : Nat) (via : Via),
    (MayWrite via (DPM_CTRL_STATE_REQ.at_ d) s) ∧ (s.dieLost d = false) ∧ (d < s.nDies) ∧ (2 ≤ req) ∧ (req < 4) :=
  ⟨sealedSt [], 0, 2, .pf 0,
    (fun _ h => nomatch h),
    (by decide +kernel),
    (by decide +kernel),
    (by decide +kernel),
    (by decide +kernel)⟩

theorem witness_PowerStatesAndMemory_2 : ∃ (s : State) (d code t x : Nat),
    (tget s.pwr.target d = some x) ∧ (x < 16) ∧ (d < 8) ∧ (code = 0) ∧ ((tget s.pwr.moveT d).getD 0 + moveNs (s.fget DPM_STATUS_STATE d) (x / 4) ≤ max s.clk.tNs t) ∧ (x / 4 < 2 ∨ s.refuseState d = false) :=
  ⟨((st [(DPM_STATUS_TRANSITION,1,1)]).modPwr (fun x => { x with target := [(1, 13)], en := [0, 1, 9, 17] })), 1, 0, 1000009, 13,
    (by decide +kernel),
    (by decide +kernel),
    (by decide +kernel),
    (by decide +kernel),
    (by decide +kernel),
    (by decide +kernel)⟩

theorem witness_PowerStatesAndMemory_3 : ∃ (s : State) (d k temp t : Nat),
    (d < s.nDies) ∧ (k < 3) ∧ (s.shadowed d = false) ∧ (s.inForce MEM_REFRESH_HOT_C d ≤ temp) :=
  ⟨sealedSt [], 0, 2, 120, 5,
    (by decide +kernel),
    (by decide +kernel),
    (by decide +kernel),
    (by decide +kernel)⟩

theorem witness_PowerStatesAndMemory_4 : ∃ (s : State) (d k temp t : Nat),
    (d < s.nDies) ∧ (k < 3) ∧ (s.shadowed d = false) ∧ (temp < s.inForce MEM_REFRESH_HOT_C d - s.inForce MEM_REFRESH_HYST_C d) :=
  ⟨sealedSt [(MEM_STATUS_HOT,0,4)], 0, 2, 20, 5,
    (by decide +kernel),
    (by decide +kernel),
    (by decide +kernel),
    (by decide +kernel)⟩

theorem witness_PowerStatesAndMemory_5 : ∃ (s : State) (d : Nat) (via : Via),
    (MayWrite via (MEM_CTRL_INJECT.at_ d) s) ∧ (s.shadowed d = false) ∧ (s.stackOn d (if s.fget MEM_CTRL_INJ_STACK d = 3 then 0 else s.fget MEM_CTRL_INJ_STACK d) = true) :=
  ⟨st [(RAS_DIE_STATE_STACKS,0,7),(MEM_CTRL_INJ_SYMBOLS,0,2)], 0, .pf 0,
    (fun _ h => nomatch h),
    (by decide +kernel),
    (by decide +kernel)⟩

theorem witness_CountersFreezeAndIndex_1 : ∃ (s : State) (p : Nat) (on : Bool) (via : Via),
    (p < 8) ∧ (MayWrite via (PMC_SNAP_FREEZE.at_ p) s) :=
  ⟨sealedSt [], 0, true, .vf 0,
    (by decide +kernel),
    (fun f h => by cases h; decide +kernel)⟩

theorem witness_CountersFreezeAndIndex_2 : ∃ (s : State) (on : Bool) (via : Via),
    (MayWrite via (PMC_CTRL_FREEZE.at_ 0) s) :=
  ⟨sealedSt [], true, .pf 1,
    (fun _ h => nomatch h)⟩

theorem witness_CountersFreezeAndIndex_3 : ∃ (s : State) (t : Nat),
    (s.fbit PMC_CTRL_ARM_AT 0 = true) ∧ (s.freezeAt ≤ max s.clk.tNs t) :=
  ⟨st [(PMC_CTRL_ARM_AT,0,1)], 5,
    (by decide +kernel),
    (by decide +kernel)⟩

theorem witness_CountersFreezeAndIndex_4 : ∃ (s : State) (p v : Nat) (via : Via),
    (p < 8) ∧ (MayWrite via (PMC_IDX_UNIT.at_ p) s) :=
  ⟨sealedSt [], 0, 0x105, .pf 0,
    (by decide +kernel),
    (fun _ h => nomatch h)⟩

theorem witness_CountersFreezeAndIndex_5 : ∃ (s : State) (p v : Nat) (via : Via),
    (p < 8) ∧ (MayWrite via (PMC_VALUE_VALUE.at_ p) s) :=
  ⟨sealedSt [(PMC_IDX_UNIT,0,5)], 0, 77, .vf 0,
    (by decide +kernel),
    (fun f h => by cases h; decide +kernel)⟩

theorem witness_CountersFreezeAndIndex_6 : ∃ (s : State) (p : Nat) (via : Via) (k : Nat),
    (p < 8) ∧ (MayWrite via (PMC_HCFG_CLR.at_ p) s) ∧ (s.histKey p = some k) :=
  ⟨(sealedSt []).modPmc 0 (fun x => { x with hists := [(0, { PmcHist.init with count := 4 })] }), 0, .pf 0, 0,
    (by decide +kernel),
    (fun _ h => nomatch h),
    (by decide +kernel)⟩

theorem witness_CountersFreezeAndIndex_7 : ∃ (s : State) (p seed : Nat) (via : Via),
    (p < 8) ∧ (MayWrite via (PMC_TAG_SEED_SEED.at_ p) s) :=
  ⟨sealedSt [], 0, 77, .vf 0,
    (by decide +kernel),
    (fun f h => by cases h; decide +kernel)⟩

theorem witness_CountersFreezeAndIndex_8 : ∃ (s : State) (p : Nat) (en : Bool) (via : Via),
    (p < 8) ∧ (MayWrite via (PMC_TRACE_EN.at_ p) s) :=
  ⟨(sealedSt []).modPmc 0 (fun x => { x with traceWrite := 9 }), 0, true, .pf 0,
    (by decide +kernel),
    (fun _ h => nomatch h)⟩

theorem witness_CountersFreezeAndIndex_9 : ∃ (s : State) (p : Nat) (via : Via),
    (p < 8) ∧ (MayWrite via (PMC_BW_PEAK_CLR.at_ p) s) :=
  ⟨(sealedSt []).modPmc 0 (fun x => { x with wins := [(0, (1, 2, 3))] }), 0, .pf 0,
    (by decide +kernel),
    (fun _ h => nomatch h)⟩

theorem witness_WicketsScrubAndLinks_1 : ∃ (s : State) (d w : Nat) (fresh : List TaskReq) (t : Nat),
    (d < s.nDies) ∧ (w < 256) ∧ ((s.row uDie d 0).lost = false) ∧ (s.clockOn d 2 = true) ∧ (s.unitState uWicket d w = usACTIVE) ∧ (s.unitOn uCluster d (w / 8) = true) ∧ (s.unitOn uRegion d (w / 64) = true) ∧ (dget (s.wkt d).queues [] (w / 8) ≠ []) :=
  ⟨(sealedSt []).modWkt 0 (fun x => { x with queues := [(0, [{ plan := false, reads := false, desc := none, sweep := none, restarts := 0, epoch := 0, startT := 0 : WTask }])], running := [(3, { plan := false, reads := false, desc := none, sweep := none, restarts := 0, epoch := 0, startT := 0 : WTask })] }), 0, 3, [⟨1, true, true, none, none⟩], 5,
    (by decide +kernel),
    (by decide +kernel),
    (by decide +kernel),
    (by decide +kernel),
    (by decide +kernel),
    (by decide +kernel),
    (by decide +kernel),
    (by decide +kernel)⟩

theorem witness_WicketsScrubAndLinks_2 : ∃ (s : State) (d w t : Nat) (k : WTask),
    (tget (s.wkt d).running w = some k) ∧ (k.startT + s.taskWdog ≤ max s.clk.tNs t) ∧ (s.heldOff uWicket d w = false) ∧ (d < s.nDies) ∧ (w < 256) ∧ (s.unitState uWicket d w = usACTIVE) ∧ ((s.row uWicket d w).mgmt ≠ 1) :=
  ⟨(sealedSt []).modWkt 0 (fun x => { x with running := [(3, { plan := false, reads := false, desc := none, sweep := none, restarts := 0, epoch := 0, startT := 0 : WTask })] }), 0, 3, 500000, { plan := false, reads := false, desc := none, sweep := none, restarts := 0, epoch := 0, startT := 0 : WTask },
    (by decide +kernel),
    (by decide +kernel),
    (by decide +kernel),
    (by decide +kernel),
    (by decide +kernel),
    (by decide +kernel),
    (by decide +kernel)⟩

theorem witness_WicketsScrubAndLinks_3 : ∃ (s : State) (d sramCe : Nat) (last : Bool) (t : Nat),
    (s.fbit RAS_CTRL_SCRUB_EN 0 = true) ∧ (d < s.nDies) ∧ (s.shadowed d = false) :=
  ⟨sealedSt [(RAS_CTRL_SCRUB_EN,0,1)], 0, 3, true, 9,
    (by decide +kernel),
    (by decide +kernel),
    (by decide +kernel)⟩

theorem witness_WicketsScrubAndLinks_4 : ∃ (s : State) (d : Nat) (l : ScrubLine) (t : Nat),
    (s.fbit RAS_CTRL_SCRUB_EN 0 = true) ∧ (d < s.nDies) ∧ (s.shadowed d = false) ∧ ((s.row uDie d 0).lost = false) ∧ (s.stackOn d (l.addr / 2 ^ 36) = true) ∧ (l.syms ≠ 0) :=
  ⟨sealedSt [(RAS_CTRL_SCRUB_EN,0,1),(RAS_DIE_STATE_STACKS,0,7)], 0, ⟨0x5000, 2, false⟩, 9,
    (by decide +kernel),
    (by decide +kernel),
    (by decide +kernel),
    (by decide +kernel),
    (by decide +kernel),
    (by decide +kernel)⟩

theorem witness_WicketsScrubAndLinks_5 : ∃ (s : State) (d : Nat) (hbm : List ScrubLine) (sramCe : Nat) (sram : List SramLine) (last : Bool) (t : Nat),
    (s.fbit RAS_CTRL_SCRUB_EN 0 = false) :=
  ⟨sealedSt [(RAS_CTRL_SCRUB_EN,0,0)], 0, [], 3, [], true, 9,
    (by decide +kernel)⟩

theorem witness_WicketsScrubAndLinks_6 : ∃ (s : State) (d e : Nat) (rx : FlitRx),
    (s.unitExists uLink d e = true) ∧ (s.unitState uLink d e ≠ usFENCED) ∧ ((s.clockOn d 4 && s.clockOn e 4) = true) ∧ (dget s.ras.replays 0 (8 * d + e) < 8) :=
  ⟨sealedSt [], 0, 1, .crc,
    (by decide +kernel),
    (by decide +kernel),
    (by decide +kernel),
    (by decide +kernel)⟩

theorem witness_UnitReportsAndTests_1 : ∃ (s : State) (q : Desc) (k d i : Nat),
    (Open q s) ∧ (Live q s) ∧ (s.unitExists k d i = true) ∧ ((s.diesOf q.part).contains d = true) ∧ (mustConfirm k = true → q.order = true) ∧ (∀ x, (s.row k d i).passT = some x → x + s.inForce RAS_CFG_HOLDOFF 0 * secNs ≤ s.clk.tNs) :=
  ⟨sealedSt [], td, uPane, 0, 3,
    (by unfold Open; decide +kernel),
    (by unfold Live; decide +kernel),
    (by decide +kernel),
    (by decide +kernel),
    (by decide +kernel),
    allNone (by decide +kernel)⟩

theorem witness_UnitReportsAndTests_2 : ∃ (s : State) (via : Via) (k d i : Nat),
    (MayWrite via (RAS_UNIT_CMD_OP.at_ 0) s) ∧ (s.selUnit = (k, d, i)) ∧ (s.unitExists k d i = true) ∧ ((s.row uDie d 0).lost = false) ∧ (∀ x, (s.row k d i).passT = some x → x + s.inForce RAS_CFG_HOLDOFF 0 * secNs ≤ s.clk.tNs) :=
  ⟨sealedSt [(RAS_UNIT_SEL_KIND,0,4),(RAS_UNIT_SEL_INDEX,0,2)], .pf 0, 4, 0, 2,
    (fun _ h => nomatch h),
    (by decide +kernel),
    (by decide +kernel),
    (by decide +kernel),
    allNone (by decide +kernel)⟩

theorem witness_UnitReportsAndTests_3 : ∃ (s : State) (q : Desc) (k d i : Nat),
    (Open q s) ∧ (Live q s) ∧ (s.unitExists k d i = true) ∧ ((s.diesOf q.part).contains d = true) ∧ (k ≠ uDie → (s.row uDie d 0).lost = false) ∧ ((s.row k d i).desc = none) :=
  ⟨sealedSt [], td, uPane, 0, 3,
    (by unfold Open; decide +kernel),
    (by unfold Live; decide +kernel),
    (by decide +kernel),
    (by decide +kernel),
    (by decide +kernel),
    (by decide +kernel)⟩

theorem witness_UnitReportsAndTests_4 : ∃ (s : State) (via : Via) (k d i : Nat),
    (MayWrite via (RAS_UNIT_CMD_OP.at_ 0) s) ∧ (s.selUnit = (k, d, i)) ∧ (s.unitExists k d i = true) ∧ ((s.row uDie d 0).lost = false) :=
  ⟨sealedSt [(RAS_UNIT_SEL_KIND,0,4),(RAS_UNIT_SEL_INDEX,0,2)], .pf 0, 4, 0, 2,
    (fun _ h => nomatch h),
    (by decide +kernel),
    (by decide +kernel),
    (by decide +kernel)⟩

theorem witness_UnitReportsAndTests_5 : ∃ (s : State) (k d i code t : Nat),
    ((s.row k d i).due = true) ∧ (s.unitExists k d i = true) ∧ (s.svc.run = none) ∧ (k ≠ uDie ∨ (s.row uDie d 0).lost = false) :=
  ⟨{ (sealedSt []) with ras := { (sealedSt []).ras with units := [(unitKey 4 0 2, { UnitRow.init with due := true, testing := true })] } }, 4, 0, 2, 3, 9,
    (by decide +kernel),
    (by decide +kernel),
    (by decide +kernel),
    (by decide +kernel)⟩

theorem witness_UnitReportsAndTests_6 : ∃ (s : State) (via : Via) (k d i : Nat),
    (MayRead via (RAS_UNIT_ROW_ROW.at_ 0) s) ∧ (s.selUnit = (k, d, i)) ∧ (s.unitExists k d i = true) :=
  ⟨sealedSt [(RAS_UNIT_SEL_KIND,0,4),(RAS_UNIT_SEL_INDEX,0,2)], .pf 0, 4, 0, 2,
    (fun _ h => nomatch h),
    (by decide +kernel),
    (by decide +kernel)⟩

theorem witness_UnitReportsAndTests_7 : ∃ (s : State) (q : Desc) (dest room : Nat),
    (Open q s) ∧ (Live q s) ∧ (dest % 64 = 0) :=
  ⟨{ (sealedSt []) with ras := { (sealedSt []).ras with lossList := [(0, [(3, 5), (4, 5)])] } }, td, 0x1000, 8,
    (by unfold Open; decide +kernel),
    (by unfold Live; decide +kernel),
    (by decide +kernel)⟩

theorem witness_UnitReportsAndTests_8 : ∃ (s : State) (die first count : Nat),
    (die < s.nDies) ∧ (1 ≤ count) ∧ (count ≤ 16) :=
  ⟨State.reset, 0, 2, 3,
    (by decide +kernel),
    (by decide +kernel),
    (by decide +kernel)⟩

theorem witness_UnitReportsAndTests_9 : ∃ (s : State) (k d i v t : Nat),
    (s.unitExists k d i = true) ∧ (v ≤ 2) ∧ (mustConfirm k = true → v ≠ 2) ∧ (∀ x, (s.row k d i).passT = some x → x + s.inForce RAS_CFG_HOLDOFF 0 * secNs ≤ max s.clk.tNs t) :=
  ⟨sealedSt [], 4, 0, 2, 2, 9,
    (by decide +kernel),
    (by decide +kernel),
    (by decide +kernel),
    allNone (by decide +kernel)⟩

theorem witness_UnitReportsAndTests_10 : ∃ (s : State) (k d i t : Nat),
    (s.unitExists k d i = true) ∧ (mustConfirm k = true) ∧ ((s.row k d i).reportT = none) :=
  ⟨sealedSt [], uHost, 0, 0, 9,
    (by decide +kernel),
    (by decide +kernel),
    (by decide +kernel)⟩

theorem witness_ManagementPort_1 : ∃ (s : State) (part : Nat) (certs : Bool) (nonce : List Byte) (offset : Nat),
    (part < 8) ∧ (nonce.length = 32) ∧ (s.sec.reports.find? (fun r => r.part == part && r.certs == certs && r.nonce == nonce) = none) :=
  ⟨State.reset, 0, false, List.replicate 32 7, 0,
    (by decide +kernel),
    (by decide +kernel),
    (by decide +kernel)⟩

theorem witness_ManagementPort_2 : ∃ (s : State) (die : Nat),
    (die < s.nDies) :=
  ⟨State.reset, 1,
    (by decide +kernel)⟩

theorem witness_ManagementPort_3 : ∃ (s : State) (pcie : Bool) (eid : Nat),
    (eid ≠ 0) ∧ (eid < 255) :=
  ⟨State.reset, true, 9,
    (by decide +kernel),
    (by decide +kernel)⟩

theorem witness_ManagementPort_4 : ∃ (s : State) (d : Nat),
    (d < s.nDies) :=
  ⟨State.reset, 1,
    (by decide +kernel)⟩

theorem witness_LosingAdoptingAndAssigningADie_1 : ∃ (s : State) (d cause t : Nat),
    (d < s.nDies) ∧ (1 ≤ cause) ∧ (cause ≤ 8) ∧ ((s.row uDie d 0).lost = false) :=
  ⟨sealedSt [], 1, 3, 9,
    (by decide +kernel),
    (by decide +kernel),
    (by decide +kernel),
    (by decide +kernel)⟩

theorem witness_LosingAdoptingAndAssigningADie_2 : ∃ (s : State) (d t : Nat) (x : Loss),
    (s.ras.losses.find? (fun x => x.die == d && x.rehomed) = some x) ∧ ((s.ftl d).restored = true ∨ s.fbit FTL_STATUS_READY d = true ∨ s.fbit FTL_CTRL_EN d = false) :=
  ⟨{ (sealedSt [(RAS_STATUS_ADOPTING,0,1)]) with ras := { (sealedSt []).ras with losses := [({ die := 1, part := 0, ledgerDie := none, ledger := [], descs := [], pins := 0, homes := [], rehomed := true, assign := none, images := [], seqs := [(3, 5)], t := 0 } : Loss)] } }, 1, 9, ({ die := 1, part := 0, ledgerDie := none, ledger := [], descs := [], pins := 0, homes := [], rehomed := true, assign := none, images := [], seqs := [(3, 5)], t := 0 } : Loss),
    (by decide +kernel),
    (by decide +kernel)⟩

theorem witness_LosingAdoptingAndAssigningADie_3 : ∃ (s : State) (q : Desc) (die : Nat),
    (Open q s) ∧ (Live q s) ∧ (die < s.nDies) ∧ (s.owner die = none) ∧ ((s.row uDie die 0).due = false) ∧ (s.unitState uDie die 0 = usACTIVE) ∧ (s.ras.losses = []) :=
  ⟨sealedSt [], td, 2,
    (by unfold Open; decide +kernel),
    (by unfold Live; decide +kernel),
    (by decide +kernel),
    (by decide +kernel),
    (by decide +kernel),
    (by decide +kernel),
    (by decide +kernel)⟩

theorem witness_LosingAdoptingAndAssigningADie_4 : ∃ (s : State) (q : Desc) (die o : Nat),
    (Open q s) ∧ (Live q s) ∧ (die < s.nDies) ∧ (s.owner die = some o) ∧ (o ≠ q.part) :=
  ⟨sealedSt [(PTN_DIES_DIES,1,4)], td, 2, 1,
    (by unfold Open; decide +kernel),
    (by unfold Live; decide +kernel),
    (by decide +kernel),
    (by decide +kernel),
    (by decide +kernel)⟩

theorem witness_ConsoleInquiries_1 : ∃ (s : State),
    (s.svc.run = none) :=
  ⟨State.reset,
    (by decide +kernel)⟩

theorem witness_ConsoleInquiries_2 : ∃ (s : State),
    (s.svc.run = none) :=
  ⟨State.reset,
    (by decide +kernel)⟩

theorem witness_ConsoleInquiries_3 : ∃ (s : State),
    (s.svc.run = none) :=
  ⟨State.reset,
    (by decide +kernel)⟩

theorem witness_ConsoleInquiries_4 : ∃ (s : State) (d : Nat),
    (s.svc.run = none) :=
  ⟨State.reset, 1,
    (by decide +kernel)⟩

theorem witness_ConsoleInquiries_5 : ∃ (s : State) (d : Nat),
    (s.svc.run = none) ∧ (s.fbit SVC_STATUS_ROM 0 = false) ∧ (d < s.nDies) :=
  ⟨st [(SVC_STATUS_ROM,0,0),(SVC_STATUS_MODE,0,1)], 1,
    (by decide +kernel),
    (by decide +kernel),
    (by decide +kernel)⟩

theorem witness_ConsoleInquiries_6 : ∃ (s : State) (k : Nat),
    (s.svc.run = none) :=
  ⟨State.reset, 4,
    (by decide +kernel)⟩

theorem witness_ConsoleInquiries_7 : ∃ (s : State),
    (s.svc.run = none) :=
  ⟨State.reset,
    (by decide +kernel)⟩

theorem witness_ConsoleInquiries_8 : ∃ (s : State) (n : Option Nat),
    (s.svc.run = none) :=
  ⟨({ State.reset with svc := { State.reset.svc with log := [(1, 2, 3), (4, 5, 0)] } } : State), some 1,
    (by decide +kernel)⟩

theorem witness_ConsoleReadsAndWrites_1 : ∃ (s : State) (off : Nat),
    (s.svc.run = none) ∧ (s.fbit SVC_STATUS_ROM 0 = false) ∧ (off < bar2) ∧ (off % 4 = 0) ∧ (s.mapped off = true) :=
  ⟨st [(SVC_STATUS_ROM,0,0),(SVC_STATUS_MODE,0,1)], PWR_STATUS_READY.at_ 0,
    (by decide +kernel),
    (by decide +kernel),
    (by decide +kernel),
    (by decide +kernel),
    (by decide +kernel)⟩

theorem witness_ConsoleReadsAndWrites_2 : ∃ (s : State) (off v : Nat),
    (s.svc.run = none) ∧ (s.fbit SVC_STATUS_ROM 0 = false) ∧ (s.fbit SVC_STATUS_MODE 0 = true) ∧ (off < bar2) ∧ (v < 2 ^ 32) :=
  ⟨st [(SVC_STATUS_ROM,0,0),(SVC_STATUS_MODE,0,1)], PWR_SEL_DOMAIN.at_ 0, 5,
    (by decide +kernel),
    (by decide +kernel),
    (by decide +kernel),
    (by decide +kernel),
    (by decide +kernel)⟩

theorem witness_ConsoleReadsAndWrites_3 : ∃ (s : State) (d addr n : Nat),
    (s.fbit SEC_STATUS_DEBUG_SEALED 0 = false) ∧ (s.svc.run = none) ∧ (s.fbit SVC_STATUS_ROM 0 = false) ∧ (s.fbit SVC_STATUS_MODE 0 = true) ∧ (d < s.nDies) ∧ (hbmOk addr n = true) :=
  ⟨st [(SVC_STATUS_ROM,0,0),(SVC_STATUS_MODE,0,1)], 0, 0x1000, 2,
    (by decide +kernel),
    (by decide +kernel),
    (by decide +kernel),
    (by decide +kernel),
    (by decide +kernel),
    (by decide +kernel)⟩

theorem witness_ConsoleReadsAndWrites_4 : ∃ (s : State) (d addr v : Nat),
    (s.fbit SEC_STATUS_DEBUG_SEALED 0 = false) ∧ (s.svc.run = none) ∧ (s.fbit SVC_STATUS_ROM 0 = false) ∧ (s.fbit SVC_STATUS_MODE 0 = true) ∧ (d < s.nDies) ∧ (hbmOk addr 1 = true) ∧ (v < 2 ^ 64) :=
  ⟨st [(SVC_STATUS_ROM,0,0),(SVC_STATUS_MODE,0,1)], 0, 0x1000, 0x123456789ABCDEF0,
    (by decide +kernel),
    (by decide +kernel),
    (by decide +kernel),
    (by decide +kernel),
    (by decide +kernel),
    (by decide +kernel),
    (by decide +kernel)⟩

theorem witness_ConsoleReadsAndWrites_5 : ∃ (s : State) (d i : Nat) (seen : Bool),
    (s.svc.run = none) ∧ (s.fbit SVC_STATUS_ROM 0 = false) ∧ (s.fbit SVC_STATUS_MODE 0 = true) ∧ (d < s.nDies) ∧ (i < 4) :=
  ⟨st [(SVC_STATUS_ROM,0,0),(SVC_STATUS_MODE,0,1)], 0, 2, true,
    (by decide +kernel),
    (by decide +kernel),
    (by decide +kernel),
    (by decide +kernel),
    (by decide +kernel)⟩

theorem witness_ConsoleReadsAndWrites_6 : ∃ (s : State) (d i : Nat) (seen : Bool),
    (s.svc.run = none) ∧ (s.fbit SVC_STATUS_ROM 0 = false) ∧ (s.fbit SVC_STATUS_MODE 0 = true) ∧ (d < s.nDies) ∧ (i < 4) :=
  ⟨st [(SVC_STATUS_ROM,0,0),(SVC_STATUS_MODE,0,1)], 0, 2, true,
    (by decide +kernel),
    (by decide +kernel),
    (by decide +kernel),
    (by decide +kernel),
    (by decide +kernel)⟩

theorem witness_ConsoleReadsAndWrites_7 : ∃ (s : State) (d : Nat) (r : SectorRead) (t : Nat),
    (s.svc.run = none) ∧ (s.fbit SVC_STATUS_ROM 0 = false) ∧ (s.fbit SVC_STATUS_MODE 0 = true) ∧ (d < s.nDies) ∧ (s.fbit FTL_STATUS_READY d = true) ∧ (s.shadowed d = false) :=
  ⟨flashSt [(SVC_STATUS_MODE,0,1),(SVC_STATUS_ROM,0,0)] tband, 0, ⟨1, 0, [(1, .written)], 2, 0, 3, 0, 0⟩, 9,
    (by decide +kernel),
    (by decide +kernel),
    (by decide +kernel),
    (by decide +kernel),
    (by decide +kernel),
    (by decide +kernel)⟩

theorem witness_ServiceModeAndStatics_1 : ∃ (s : State),
    (s.svc.run = none) ∧ (s.fbit SVC_STATUS_MODE 0 = false) :=
  ⟨State.reset,
    (by decide +kernel),
    (by decide +kernel)⟩

theorem witness_ServiceModeAndStatics_2 : ∃ (s : State),
    (s.svc.run = none) ∧ (s.fbit SVC_STATUS_MODE 0 = true) :=
  ⟨((st [(SVC_STATUS_ROM,0,0),(SVC_STATUS_MODE,0,1)]).modPwr (fun x => { x with hold := [1] })),
    (by decide +kernel),
    (by decide +kernel)⟩

theorem witness_ServiceModeAndStatics_3 : ∃ (s : State) (d : Nat),
    (s.svc.run = none) ∧ (s.fbit SVC_STATUS_ROM 0 = false) ∧ (s.fbit SVC_STATUS_MODE 0 = true) ∧ (d < s.nDies) :=
  ⟨st [(SVC_STATUS_ROM,0,0),(SVC_STATUS_MODE,0,1)], 1,
    (by decide +kernel),
    (by decide +kernel),
    (by decide +kernel),
    (by decide +kernel)⟩

theorem witness_ServiceModeAndStatics_4 : ∃ (s : State) (d : Nat),
    (s.svc.run = none) ∧ (s.fbit SVC_STATUS_ROM 0 = false) ∧ (s.fbit SVC_STATUS_MODE 0 = true) ∧ (d < s.nDies) :=
  ⟨((st [(SVC_STATUS_ROM,0,0),(SVC_STATUS_MODE,0,1)]).modPwr (fun x => { x with hold := [1, 2] })), 1,
    (by decide +kernel),
    (by decide +kernel),
    (by decide +kernel),
    (by decide +kernel)⟩

theorem witness_ServiceModeAndStatics_5 : ∃ (s : State) (v : Nat),
    (s.svc.run = none) ∧ (s.fbit SVC_STATUS_MODE 0 = true) :=
  ⟨st [(SVC_STATUS_ROM,0,0),(SVC_STATUS_MODE,0,1)], 0x55,
    (by decide +kernel),
    (by decide +kernel)⟩

theorem witness_ServiceModeAndStatics_6 : ∃ (s : State),
    (s.svc.run = none) :=
  ⟨st [(SVC_STATUS_ROM,0,0),(SVC_STATUS_MODE,0,1),(SVC_LEVEL_FORCED,0,1)],
    (by decide +kernel)⟩

theorem witness_ServiceModeAndStatics_7 : ∃ (s : State) (d c byte : Nat),
    (s.svc.run = none) ∧ (s.fbit SVC_STATUS_ROM 0 = false) ∧ (s.fbit SVC_STATUS_MODE 0 = true) ∧ (d < s.nDies) ∧ (c < 16) ∧ (byte < 256) ∧ ((s.ftl d).chan c ≠ .twinRo) ∧ ((s.ftl d).chan c ≠ .returning) ∧ (∀ x, (s.row uChan d c).passT = some x → x + s.inForce RAS_CFG_HOLDOFF 0 * secNs ≤ s.clk.tNs) :=
  ⟨st [(SVC_STATUS_ROM,0,0),(SVC_STATUS_MODE,0,1)], 0, 3, 0xAA,
    (by decide +kernel),
    (by decide +kernel),
    (by decide +kernel),
    (by decide +kernel),
    (by decide +kernel),
    (by decide +kernel),
    (by decide +kernel),
    (by decide +kernel),
    allNone (by decide +kernel)⟩

theorem witness_ServiceModeAndStatics_8 : ∃ (s : State) (d c : Nat),
    (s.svc.run = none) ∧ (s.fbit SVC_STATUS_ROM 0 = false) ∧ (s.fbit SVC_STATUS_MODE 0 = true) ∧ (d < s.nDies) ∧ (c < 16) :=
  ⟨({ (st [(SVC_STATUS_ROM,0,0),(SVC_STATUS_MODE,0,1)]) with svc := { (st [(SVC_STATUS_ROM,0,0),(SVC_STATUS_MODE,0,1)]).svc with patterns := [(3, 5)] } } : State), 0, 3,
    (by decide +kernel),
    (by decide +kernel),
    (by decide +kernel),
    (by decide +kernel),
    (by decide +kernel)⟩

theorem witness_ConsoleTests_1 : ∃ (s : State) (kind d i : Nat),
    (s.svc.run = none) ∧ (s.fbit SVC_STATUS_ROM 0 = false) ∧ (s.fbit SVC_STATUS_MODE 0 = true) ∧ (d < s.nDies) ∧ (1 ≤ kind) ∧ (kind ≤ 12) :=
  ⟨st [(SVC_STATUS_ROM,0,0),(SVC_STATUS_MODE,0,1)], uPane, 0, 2,
    (by decide +kernel),
    (by decide +kernel),
    (by decide +kernel),
    (by decide +kernel),
    (by decide +kernel),
    (by decide +kernel)⟩

theorem witness_ConsoleTests_2 : ∃ (s : State) (d : Nat),
    (s.svc.run = none) ∧ (s.fbit SVC_STATUS_ROM 0 = false) ∧ (s.fbit SVC_STATUS_MODE 0 = true) ∧ (d < s.nDies) ∧ (s.fget DPM_STATUS_STATE d = 0) ∧ (((s.row uDie d 0).lost && !(s.row uDie d 0).passed) = false) :=
  ⟨st [(SVC_STATUS_ROM,0,0),(SVC_STATUS_MODE,0,1)], 0,
    (by decide +kernel),
    (by decide +kernel),
    (by decide +kernel),
    (by decide +kernel),
    (by decide +kernel),
    (by decide +kernel)⟩

theorem witness_ConsoleTests_3 : ∃ (s : State) (kind d i : Nat) (far : Bool) (lanes : List (Nat × Nat × Nat)),
    (s.svc.run = none) ∧ (s.fbit SVC_STATUS_ROM 0 = false) ∧ (s.fbit SVC_STATUS_MODE 0 = true) ∧ (d < s.nDies) ∧ (kind = uFabric ∨ kind = uHost ∨ kind = uChan ∨ kind = uStack ∨ kind = uLink) ∧ (s.notRun kind d i = false) :=
  ⟨st [(SVC_STATUS_ROM,0,0),(SVC_STATUS_MODE,0,1),(LNK_STATUS_UP,0,1)], uFabric, 0, 0, true, [],
    (by decide +kernel),
    (by decide +kernel),
    (by decide +kernel),
    (by decide +kernel),
    (by decide +kernel),
    (by decide +kernel)⟩

theorem witness_ConsoleTests_4 : ∃ (s : State) (k d i : Nat),
    (s.svc.run = none) ∧ (s.fbit SVC_STATUS_ROM 0 = false) ∧ (s.fbit SVC_STATUS_MODE 0 = true) ∧ (d < s.nDies) ∧ (s.unitExists k d i = true) ∧ ((s.row uDie d 0).lost = false) ∧ (∀ x, (s.row k d i).passT = some x → x + s.inForce RAS_CFG_HOLDOFF 0 * secNs ≤ s.clk.tNs) :=
  ⟨st [(SVC_STATUS_ROM,0,0),(SVC_STATUS_MODE,0,1)], uPane, 0, 2,
    (by decide +kernel),
    (by decide +kernel),
    (by decide +kernel),
    (by decide +kernel),
    (by decide +kernel),
    (by decide +kernel),
    allNone (by decide +kernel)⟩

theorem witness_ConsoleTests_5 : ∃ (s : State) (k d i : Nat),
    (s.svc.run = none) ∧ (s.fbit SVC_STATUS_ROM 0 = false) ∧ (s.fbit SVC_STATUS_MODE 0 = true) ∧ (d < s.nDies) ∧ (s.unitExists k d i = true) ∧ ((s.row uDie d 0).lost = false) :=
  ⟨st [(SVC_STATUS_ROM,0,0),(SVC_STATUS_MODE,0,1)], uPane, 0, 2,
    (by decide +kernel),
    (by decide +kernel),
    (by decide +kernel),
    (by decide +kernel),
    (by decide +kernel),
    (by decide +kernel)⟩

theorem witness_ConsoleTests_6 : ∃ (s : State),
    (∀ d first bad, s.svc.run ≠ some (.die d [] first bad)) ∧ (∀ k d i, s.svc.run ≠ some (.unfence k d i)) :=
  ⟨({ (st [(SVC_STATUS_ROM,0,0),(SVC_STATUS_MODE,0,1)]) with svc := { (st [(SVC_STATUS_ROM,0,0),(SVC_STATUS_MODE,0,1)]).svc with run := some (.test uPane 0 2) } } : State),
    (fun _ _ _ h => by injection h with h; cases h),
    (fun _ _ _ h => by injection h with h; cases h)⟩

theorem witness_ConsoleStatesResetsAndLine_1 : ∃ (s : State) (d x : Nat),
    (s.svc.run = none) ∧ (s.fbit SVC_STATUS_ROM 0 = false) ∧ (s.fbit SVC_STATUS_MODE 0 = true) ∧ (d < s.nDies) ∧ (x = 0 ∨ x = 2 ∨ x = 3) :=
  ⟨st [(SVC_STATUS_ROM,0,0),(SVC_STATUS_MODE,0,1)], 1, 3,
    (by decide +kernel),
    (by decide +kernel),
    (by decide +kernel),
    (by decide +kernel),
    (by decide +kernel)⟩

theorem witness_ConsoleStatesResetsAndLine_2 : ∃ (s : State) (code t : Nat),
    (s.svc.run = none) ∧ (s.fbit SVC_STATUS_ROM 0 = false → s.fbit SVC_STATUS_MODE 0 = true) :=
  ⟨st [(SVC_STATUS_ROM,0,0),(SVC_STATUS_MODE,0,1)], 0, 9,
    (by decide +kernel),
    (by decide +kernel)⟩

theorem witness_ConsoleStatesResetsAndLine_3 : ∃ (s : State) (t : Nat),
    (s.svc.run = none) ∧ (s.fbit SVC_STATUS_ROM 0 = false) ∧ (s.fbit SVC_STATUS_MODE 0 = true) :=
  ⟨st [(SVC_STATUS_ROM,0,0),(SVC_STATUS_MODE,0,1)], 9,
    (by decide +kernel),
    (by decide +kernel),
    (by decide +kernel)⟩

theorem witness_ConsoleStatesResetsAndLine_4 : ∃ (s : State) (d bad t : Nat),
    (s.svc.run = none) ∧ (s.fbit SVC_STATUS_ROM 0 = false) ∧ (s.fbit SVC_STATUS_MODE 0 = true) ∧ (d < s.nDies) ∧ ((s.row uDie d 0).lost = false) :=
  ⟨st [(SVC_STATUS_ROM,0,0),(SVC_STATUS_MODE,0,1)], 1, 0, 9,
    (by decide +kernel),
    (by decide +kernel),
    (by decide +kernel),
    (by decide +kernel),
    (by decide +kernel)⟩

theorem witness_ConsoleStatesResetsAndLine_5 : ∃ (s : State) (rate : Nat),
    (s.svc.run = none) :=
  ⟨State.reset, 921600,
    (by decide +kernel)⟩

theorem witness_ConsoleStatesResetsAndLine_6 : ∃ (s : State) (r : Nat),
    (s.svc.baudNext = some r) ∧ (r < 2 ^ 15) :=
  ⟨({ State.reset with svc := { State.reset.svc with baudNext := some 9216 } } : State), 9216,
    (by decide +kernel),
    (by decide +kernel)⟩

theorem witness_ConsoleStatesResetsAndLine_7 : ∃ (s : State),
    (s.svc.run = none) ∧ (s.fbit SVC_STATUS_ROM 0 = false) ∧ (s.fbit SVC_STATUS_MODE 0 = true) :=
  ⟨st [(SVC_STATUS_ROM,0,0),(SVC_STATUS_MODE,0,1)],
    (by decide +kernel),
    (by decide +kernel),
    (by decide +kernel)⟩

theorem witness_RegisterAccess_1 : ∃ (s : State) (via : Via) (w : Nat),
    (MayWrite via (PWR_SEL_DOMAIN.at_ 0) s) :=
  ⟨State.reset, .pf 0, 0x45,
    (fun _ h => nomatch h)⟩

theorem witness_RegisterAccess_2 : ∃ (s : State) (via : Via) (w : Nat),
    (MayWrite via (PWR_EVENT_DIP.at_ 0) s) :=
  ⟨st [(PWR_EVENT_DIP,0,1)], .pf 0, 1,
    (fun _ h => nomatch h)⟩

theorem witness_RegisterAccess_3 : ∃ (s : State) (via : Via) (off w i k : Nat) (r : Reg),
    (off % 4 = 0) ∧ (off < bar2) ∧ (MayWrite via off s) ∧ (s.reg? off = some (r, i, k)) ∧ (r.flds.all (fun f => f.acc == .ro) = true) :=
  ⟨State.reset, .pf 0, PWR_STATUS_READY.at_ 0, 0xFFFFFFFF, 0, 0, ((findReg allRegs (PWR_STATUS_READY.at_ 0)).map (·.1)).getD ⟨0, 0, 0, 0, []⟩,
    (by decide +kernel),
    (by decide +kernel),
    (fun _ h => nomatch h),
    (by decide +kernel),
    (by decide +kernel)⟩

theorem witness_RegisterAccess_4 : ∃ (s : State) (via : Via) (off w : Nat),
    (off % 4 ≠ 0) :=
  ⟨State.reset, .pf 0, 0x60001, 7,
    (by decide +kernel)⟩

theorem witness_RegisterAccess_5 : ∃ (s : State) (x off : Nat) (write : Bool),
    (off < bar2) ∧ (s.mapped off = false) :=
  ⟨State.reset, 1, 0xFFFF0, false,
    (by decide +kernel),
    (by decide +kernel)⟩

theorem witness_RegisterAccess_6 : ∃ (s : State) (x off : Nat) (write : Bool),
    (off < bar2) :=
  ⟨State.reset, 1, 0x60005, false,
    (by decide +kernel)⟩

theorem witness_RegisterAccess_7 : ∃ (s : State) (f off : Nat) (write : Bool),
    (off < bar2) ∧ (s.mapped off = false) :=
  ⟨sealedSt [], 0, 0xFFFF0, false,
    (by decide +kernel),
    (by decide +kernel)⟩

theorem witness_RegisterAccess_8 : ∃ (s : State) (x off : Nat) (write : Bool),
    (bar2 + 8 * 65536 ≤ off) :=
  ⟨State.reset, 1, bar2 + 0x90000, false,
    (by decide +kernel)⟩

theorem witness_TestAccessPort_7 : ∃ (s : State) (code : Nat) (din : List Bool),
    (0x10 ≤ code) ∧ (code ≤ 0xFE) :=
  ⟨State.reset, 0x20, [true],
    (by decide +kernel),
    (by decide +kernel)⟩

theorem witness_DescriptorsAreGated_1 : ∃ (c : Instr) (s : State) (q : Desc) (op : Nat),
    (descOf c = some (q, op)) ∧ (Live q s) ∧ (s.orderWait q = false) ∧ (s.fbit SEC_STATUS_ERROR 0 = true) ∧ (2 ≤ op) :=
  ⟨.sweepSet td 5 SweepDesc.init, sealedSt [(SEC_STATUS_ERROR,0,1)], td, 0x30,
    (by decide +kernel),
    (by unfold Live; decide +kernel),
    (by decide +kernel),
    (by decide +kernel),
    (by decide +kernel)⟩

theorem witness_DescriptorsAreGated_2 : ∃ (c : Instr) (s : State) (q : Desc) (op : Nat),
    (descOf c = some (q, op)) ∧ (Live q s) ∧ (s.orderWait q = false) ∧ (s.fbit SEC_STATUS_ERROR 0 = false ∨ op ≤ 1) ∧ (s.ptnState q.part = ptnRemoving) :=
  ⟨.sweepSet td 5 SweepDesc.init, sealedSt [(PTN_STATUS_STATE,0,3)], td, 0x30,
    (by decide +kernel),
    (by unfold Live; decide +kernel),
    (by decide +kernel),
    (by decide +kernel),
    (by decide +kernel)⟩

theorem witness_DescriptorsAreGated_3 : ∃ (c : Instr) (s : State) (q : Desc) (op : Nat),
    (descOf c = some (q, op)) ∧ (Live q s) ∧ (s.orderWait q = false) ∧ (s.fbit SEC_STATUS_ERROR 0 = false ∨ op ≤ 1) ∧ (s.ptnState q.part = ptnOrphaned) ∧ (4 ≤ op) ∧ (op ≠ 0x14) ∧ (op ≠ 0x70) ∧ (op ≠ 0x73) :=
  ⟨.sweepSet td 5 SweepDesc.init, sealedSt [(PTN_STATUS_STATE,0,4)], td, 0x30,
    (by decide +kernel),
    (by unfold Live; decide +kernel),
    (by decide +kernel),
    (by decide +kernel),
    (by decide +kernel),
    (by decide +kernel),
    (by decide +kernel),
    (by decide +kernel),
    (by decide +kernel)⟩

theorem witness_DescriptorsAreGated_4 : ∃ (c : Instr) (s : State) (q : Desc) (op : Nat),
    (descOf c = some (q, op)) ∧ (Live q s) ∧ (s.orderWait q = false) ∧ (s.fbit SEC_STATUS_ERROR 0 = false ∨ op ≤ 1) ∧ (s.ptnState q.part ≠ ptnRemoving) ∧ (s.ptnState q.part = ptnOrphaned → op ≤ 3 ∨ op = 0x14 ∨ op = 0x70 ∨ op = 0x73) ∧ (q.resv = true) :=
  ⟨.sweepSet { td with resv := true } 5 SweepDesc.init, sealedSt [], { td with resv := true }, 0x30,
    (by decide +kernel),
    (by unfold Live; decide +kernel),
    (by decide +kernel),
    (by decide +kernel),
    (by decide +kernel),
    (by decide +kernel),
    (by decide +kernel)⟩

theorem witness_DescriptorsAreGated_5 : ∃ (c : Instr) (s : State) (q : Desc) (op : Nat),
    (descOf c = some (q, op)) ∧ (Live q s) ∧ (s.orderWait q = false) ∧ (s.fbit SEC_STATUS_ERROR 0 = false) ∧ (s.ptnState q.part = ptnFree ∨ s.ptnState q.part = ptnOpen) ∧ (q.resv = false) ∧ (4 ≤ op) ∧ (op < 0x10 ∨ 0x1F < op) :=
  ⟨.sweepSet td 5 SweepDesc.init, sealedSt [(PTN_STATUS_STATE,0,1)], td, 0x30,
    (by decide +kernel),
    (by unfold Live; decide +kernel),
    (by decide +kernel),
    (by decide +kernel),
    (by decide +kernel),
    (by decide +kernel),
    (by decide +kernel),
    (by decide +kernel)⟩

theorem witness_DescriptorsAreGated_6 : ∃ (c : Instr) (s : State) (q : Desc) (op : Nat),
    (descOf c = some (q, op)) ∧ (Live q s) ∧ (s.orderWait q = false) ∧ (s.fbit SEC_STATUS_ERROR 0 = false ∨ op ≤ 1) ∧ (s.ptnState q.part = ptnSealed) ∧ (q.resv = false) ∧ (q.readFail = true) :=
  ⟨.sweepSet { td with readFail := true } 5 SweepDesc.init, sealedSt [], { td with readFail := true }, 0x30,
    (by decide +kernel),
    (by unfold Live; decide +kernel),
    (by decide +kernel),
    (by decide +kernel),
    (by decide +kernel),
    (by decide +kernel),
    (by decide +kernel)⟩

theorem witness_VfAccessesOutsideTheView_1 : ∃ (c : Instr) (f off : Nat) (s : State),
    (c.wf = true) ∧ (vfWriteOf c = some (f, off)) ∧ (s.vfView f off ≠ 2) :=
  ⟨.rekeyNow 2 (.vf 0), 0, LNK_CTRL_REKEY_NOW.at_ 2, sealedSt [],
    (by decide +kernel),
    (by decide +kernel),
    (by decide +kernel)⟩

theorem witness_VfAccessesOutsideTheView_2 : ∃ (c : Instr) (f off : Nat) (s : State),
    (c.wf = true) ∧ (vfReadOf c = some (f, off)) ∧ (s.vfView f off = 0) :=
  ⟨.lnkTxpnLoRead 2 (.vf 0), 0, LNK_TXPN_LO_PN_LO.at_ 2, sealedSt [],
    (by decide +kernel),
    (by decide +kernel),
    (by decide +kernel)⟩

theorem witness_LockedFieldsKeepTheirValue_1 : ∃ (s : State) (via : Via) (off w n k : Nat) (r : Reg) (f : FldRow),
    (MayWrite via off s) ∧ (off < bar2) ∧ (s.reg? off = some (r, n, k)) ∧ (f ∈ r.flds) ∧ (f.acc = .rwl) ∧ (s.lockedAt off = true) :=
  ⟨sealedSt [], .pf 0, PTN_DIES_DIES.at_ 0, 7, 0, 0, ((findReg allRegs (PTN_DIES_DIES.at_ 0)).map (·.1)).getD ⟨0, 0, 0, 0, []⟩, ⟨PTN_DIES_DIES, .rwl, 0, 0xFF⟩,
    (fun _ h => nomatch h),
    (by decide +kernel),
    (by decide +kernel),
    (by decide +kernel),
    (by decide +kernel),
    (by decide +kernel)⟩

theorem witness_LockedFieldsKeepTheirValue_2 : ∃ (s : State) (p v : Nat),
    (s.locked p = true) :=
  ⟨sealedSt [], 0, 7,
    (by decide +kernel)⟩

theorem witness_LockedFieldsKeepTheirValue_3 : ∃ (s : State) (p n slots t : Nat) (via : Via),
    (s.locked p = true) :=
  ⟨sealedSt [], 0, 2, 1, 9, .pf 0,
    (by decide +kernel)⟩

theorem witness_LockedFieldsKeepTheirValue_4 : ∃ (s : State) (via : Via) (d : Nat),
    (s.dieLocked d = true) :=
  ⟨sealedSt [], .pf 0, 1,
    (by decide +kernel)⟩

theorem witness_LockedFieldsKeepTheirValue_5 : ∃ (s : State) (via : Via) (d : Nat) (en : Bool) (luns : List LunPage),
    (s.dieLocked d = true) :=
  ⟨sealedSt [], .pf 0, 1, true, [tlun 0],
    (by decide +kernel)⟩

theorem witness_LockedFieldsKeepTheirValue_7 : ∃ (s : State) (via : Via) (d w : Nat),
    (MayWrite via (NRT_CFG_UDP_PORT.at_ d) s) ∧ (d < s.nDies) ∧ (s.lockedAt (NRT_CFG_UDP_PORT.at_ d) = false) :=
  ⟨State.reset, .pf 0, 1, 0x12345,
    (fun _ h => nomatch h),
    (by decide +kernel),
    (by decide +kernel)⟩

theorem witness_LatentSweepDescriptorsKeepTheirG_1 : ∃ (s : State) (q : Desc) (ctx : Nat) (b : SweepDesc) (c : Ctx),
    (Open q s) ∧ (Live q s) ∧ (s.ctx? q.part ctx = some c) ∧ (c.latent = true) ∧ (b.g ≠ c.g) :=
  ⟨(seqSt [] (onePfx tslot)).modPart 0 (fun v => { v with ctxs := [(5, { tctx with latent := true })] }), td, 5, { SweepDesc.init with g := 2 }, { tctx with latent := true },
    (by unfold Open; decide +kernel),
    (by unfold Live; decide +kernel),
    (by decide +kernel),
    (by decide +kernel),
    (by decide +kernel)⟩

theorem witness_AppendsStartAtTheLength_1 : ∃ (s : State) (q : Desc) (seq k j : Nat) (e : SeqSlot) (layer pos : Nat) (toks : List Nat) (data : List (List Nat)),
    (Open q s) ∧ (Live q s) ∧ (MapOpen q seq k j e s) ∧ (pos ≠ e.len layer) :=
  ⟨seqSt [] (onePfx tslot), td, 1, 0, homeSlot 20 1, tslot, 0, 3, [7], [[1,2]],
    (by unfold Open; decide +kernel),
    (by unfold Live; decide +kernel),
    (by unfold MapOpen Volatile; decide +kernel),
    (by decide +kernel)⟩

theorem witness_AStepRunsTheFrontCommand_1 : ∃ s : State, s.pending = [] :=
  ⟨State.reset, rfl⟩

theorem witness_StepsKeepTheInvariant_1 : ∃ s t : State, s.wf = true ∧ step s = .next t :=
  ⟨State.reset, _, by decide, rfl⟩

theorem witness_CommandsTouchOnlyTheirParts_1 : ∃ (c : Instr) (s t : State) (a : Area), exec c s = .next t ∧ a ∉ touches c :=
  ⟨.idcode, State.reset, _, .hbm, rfl, by decide⟩

theorem witness_TreeHitsAreVerified_1 : ∃ (s : State) (d h model tick k : Nat) (tokens : List Nat) (e : TreeEnt) (c : Chunk),
    (s.treeFind d h = some (k, e)) ∧ (s.chunk? d e.chunk = some c) ∧ (s.fbit PFX_CTRL_VERIFY d = true) ∧ (c.model = model ∧ c.tokens = tokens) :=
  ⟨seqSt [(PFX_CTRL_VERIFY, 0, 1)] { Pfx.init with tree := [(5 * 77, ⟨77, 3, .valid, 0⟩)], chunks := [(3, { chain := 77, model := 9, parent := 0, st := .tree, parked := false, written := false, holders := 1, children := 0, depth := 0, rel := 0, ctx := 5, created := 0, tokens := List.replicate 128 1, pages := [7] })] }, 0, 77, 9, 3, 5 * 77, List.replicate 128 1, ⟨77, 3, .valid, 0⟩, { chain := 77, model := 9, parent := 0, st := .tree, parked := false, written := false, holders := 1, children := 0, depth := 0, rel := 0, ctx := 5, created := 0, tokens := List.replicate 128 1, pages := [7] },
    (by decide +kernel),
    (by decide +kernel),
    (by decide +kernel),
    (by decide +kernel)⟩

theorem witness_TreeHitsAreVerified_2 : ∃ (s : State) (d h model tick k : Nat) (tokens : List Nat) (e : TreeEnt) (c : Chunk),
    (s.treeFind d h = some (k, e)) ∧ (s.chunk? d e.chunk = some c) ∧ (s.fbit PFX_CTRL_VERIFY d = true) ∧ (c.model ≠ model ∨ c.tokens ≠ tokens) :=
  ⟨seqSt [(PFX_CTRL_VERIFY, 0, 1)] { Pfx.init with tree := [(5 * 77, ⟨77, 3, .valid, 0⟩)], chunks := [(3, { chain := 77, model := 9, parent := 0, st := .tree, parked := false, written := false, holders := 1, children := 0, depth := 0, rel := 0, ctx := 5, created := 0, tokens := List.replicate 128 1, pages := [7] })] }, 0, 77, 8, 3, 5 * 77, List.replicate 128 1, ⟨77, 3, .valid, 0⟩, { chain := 77, model := 9, parent := 0, st := .tree, parked := false, written := false, holders := 1, children := 0, depth := 0, rel := 0, ctx := 5, created := 0, tokens := List.replicate 128 1, pages := [7] },
    (by decide +kernel),
    (by decide +kernel),
    (by decide +kernel),
    (by decide +kernel)⟩

theorem witness_TreeHitsAreVerified_3 : ∃ (s : State) (d h model tick k : Nat) (tokens : List Nat) (e : TreeEnt),
    (s.treeFind d h = some (k, e)) ∧ (s.fbit PFX_CTRL_VERIFY d = false) :=
  ⟨seqSt [(PFX_CTRL_VERIFY, 0, 0)] { Pfx.init with tree := [(5 * 77, ⟨77, 3, .valid, 0⟩)], chunks := [(3, { chain := 77, model := 9, parent := 0, st := .tree, parked := false, written := false, holders := 1, children := 0, depth := 0, rel := 0, ctx := 5, created := 0, tokens := List.replicate 128 1, pages := [7] })] }, 0, 77, 8, 3, 5 * 77, [], ⟨77, 3, .valid, 0⟩,
    (by decide +kernel),
    (by decide +kernel)⟩

theorem witness_LateSweepsChargeDebt_1 : ∃ (s : State) (d p L : Nat),
    (1 ≤ L) ∧ (s.inForce TIK_DEBT_MAX_DEBT_MAX p < 2 ^ 24) :=
  ⟨State.reset, 0, 0, 7,
    (by decide +kernel),
    (by decide +kernel)⟩

theorem witness_ValuesOutOfRangeAreDropped_1 : ∃ (s : State) (via : Via) (off w i k : Nat) (r : Reg) (f : FldRow),
    (off % 4 = 0) ∧ (off < bar2) ∧ (w < 2 ^ 32) ∧ (MayWrite via off s) ∧ (s.reg? off = some (r, i, k)) ∧ (f ∈ r.flds) ∧ (f.acc = .rw) ∧ (takenFlds.contains f.fld = false) ∧ (actFlds.all (fun F => F.off != r.off) = true) ∧ (s.writeHeld r i w = false) ∧ (avsRefused r w = false) ∧ ((f.fld.nth k).bitsIn w < f.min ∨ f.max < (f.fld.nth k).bitsIn w) :=
  ⟨State.reset, .pf 0, TIK_ADMIT_CUTOFF.at_ 0, 0x1000040, 0, 0, ((findReg allRegs (TIK_ADMIT_CUTOFF.at_ 0)).map (·.1)).getD ⟨0, 0, 0, 0, []⟩, ⟨TIK_ADMIT_CUTOFF, .rw, 0x32, 0x1F4⟩,
    (by decide +kernel),
    (by decide +kernel),
    (by decide +kernel),
    (fun _ h => nomatch h),
    (by decide +kernel),
    (by decide +kernel),
    (by decide +kernel),
    (by decide +kernel),
    (by decide +kernel),
    (by decide +kernel),
    (by decide +kernel),
    (by decide +kernel)⟩

end Sys2Proof.Machine
end

section
/-!
The RWL lock and the range of a register field (R12, R13, R567), the state after reset (R10, R312) and the dies of a package (R3).
-/
namespace Sys2Proof.Machine

/-! ### Keys of register fields -/

/-- The key of a field names the offset of its register. -/
theorem Fld.keyOff_key (F : Fld) (i : Nat) : keyOff (F.key i) = F.at_ i := by
  have := F.blk.ix_lt
  unfold keyOff Fld.key Fld.at_
  omega

theorem Fld.key_ne_of_at {F G : Fld} {i j : Nat} (h : F.at_ i ≠ G.at_ j) : F.key i ≠ G.key j := fun e =>
  h (by rw [← F.keyOff_key, ← G.keyOff_key, e])

theorem Fld.key_ne_of_lo {F G : Fld} {i j : Nat} (h : F.lo % 32 ≠ G.lo % 32) : F.key i ≠ G.key j := by
  unfold Fld.key
  omega

/-! ### The register at an offset (R562) -/

theorem Reg.at?_eq_some {r : Reg} {a i k : Nat} (h : r.at? a = some (i, k)) :
    a = r.off + i * r.stride + 4 * k ∧ i < r.insts ∧ k < r.reps := by
  unfold Reg.at? at h
  split at h
  · cases h
  · extract_lets n e at h
    split at h
    next hlt hin =>
      obtain ⟨hi, he, hk⟩ := hin
      obtain ⟨rfl, rfl⟩ := Prod.mk.inj (Option.some.inj h)
      have hle : n * r.stride ≤ a - r.off := by
        unfold n
        split
        · simp
        · exact Nat.div_mul_le_self _ _
      refine ⟨?_, hi, hk⟩
      unfold e at he ⊢
      omega
    · cases h

theorem findReg_eq_some {l : List Reg} {a i k : Nat} {r : Reg} (h : findReg l a = some (r, i, k)) :
    r ∈ l ∧ r.at? a = some (i, k) := by
  induction l with
  | nil => cases h
  | cons x l ih =>
    unfold findReg at h
    split at h
    next e => cases h; exact ⟨List.mem_cons_self, e⟩
    next => exact ⟨List.mem_cons_of_mem _ (ih h).1, (ih h).2⟩

theorem State.findReg_of_reg? {s : State} {off : Nat} {x : Reg × Nat × Nat} (h : s.reg? off = some x) : findReg allRegs off = some x := by
  unfold State.reg? at h
  split at h
  · split at h
    · cases h
    · exact h
  · exact h

theorem dieOfOff_of_window {off d e : Nat} (hd : d < 8) (he : e < 0x400000) (h : off = 0x1000000 + e + d * 0x400000) :
    dieOfOff off = some d := by
  unfold dieOfOff windowBase windowSize
  rw [h, if_pos (by omega)]
  congr 1
  omega

theorem dieOfOff_of_lt {off : Nat} (h : off < 0x1000000) : dieOfOff off = none := by
  unfold dieOfOff windowBase
  rw [if_neg (by omega)]

/-- The windows of absent dies hold no register. -/
theorem State.reg?_window (s : State) {off d : Nat} (h : dieOfOff off = some d) :
    s.reg? off = if s.nDies ≤ d then none else findReg allRegs off := by
  unfold State.reg?
  rw [h]

theorem State.nDies_le (s : State) : s.nDies ≤ 8 := by
  unfold State.nDies
  cases s.variant <;> decide

/-- Every field of the register map lies in its register, and no two of one register share a lowest bit. -/
theorem allRegs_flds : ∀ r ∈ allRegs, ∀ f ∈ r.flds,
    f.fld.off = r.off ∧ f.fld.stride = r.stride ∧ f.fld.lo < 32 ∧ ∀ g ∈ r.flds, g.fld.lo = f.fld.lo → g = f := by decide +kernel

/-- What the search for a register says of its fields. -/
theorem State.fld_of_reg? {s : State} {off i k : Nat} {r : Reg} {f : FldRow} (h : s.reg? off = some (r, i, k)) (hf : f ∈ r.flds) :
    r ∈ allRegs ∧ (f.fld.nth k).at_ i = off := by
  obtain ⟨hr, ha⟩ := findReg_eq_some (State.findReg_of_reg? h)
  obtain ⟨hoff, -, -⟩ := Reg.at?_eq_some ha
  obtain ⟨ho, hs, -⟩ := allRegs_flds r hr f hf
  refine ⟨hr, ?_⟩
  simp only [Fld.at_, Fld.nth, ho, hs]
  omega

/-- Different fields of one register have different keys. -/
theorem FldRow.key_ne {r : Reg} {f g : FldRow} (hr : r ∈ allRegs) (hf : f ∈ r.flds) (hg : g ∈ r.flds) (h : g ≠ f) (i k : Nat) :
    (g.fld.nth k).key i ≠ (f.fld.nth k).key i := by
  obtain ⟨-, -, hfl, hinj⟩ := allRegs_flds r hr f hf
  obtain ⟨-, -, hgl, -⟩ := allRegs_flds r hr g hg
  have hlo : g.fld.lo ≠ f.fld.lo := fun e => h (hinj g hg e)
  refine Fld.key_ne_of_lo ?_
  simp only [Fld.nth]
  omega

/-! ### What a write of one field can change -/

theorem Keeps.fget {m : Nat} {s t : State} (h : Keeps m s t) {b : Blk} (hm : m.testBit (Area.regs b).ix = false) {G : Fld}
    (hG : G.blk = b) (j : Nat) : t.fget G j = s.fget G j := h.same (.regs b) hm G j hG

/-- The fields in which the part reports a value out of range (R13). -/
def badFieldKeys : List Nat := [SYS_EVENT_BAD_FIELD.key 0, SYS_BAD_ADDR_PORT.key 0, SYS_BAD_ADDR_OFFSET.key 0]

theorem Fld.key_notMem_badFieldKeys_of_blk {G : Fld} (h : G.blk ≠ .sys) (j : Nat) : G.key j ∉ badFieldKeys := by
  simp only [badFieldKeys, List.mem_cons, List.not_mem_nil, or_false, not_or]
  exact ⟨Fld.key_ne _ _ h, Fld.key_ne _ _ h, Fld.key_ne _ _ h⟩

theorem State.fget_portOf (s : State) (via : Via) (G : Fld) (j : Nat) : (s.portOf via).2.fget G j = s.fget G j := by
  cases via <;> rfl

theorem State.fget_badAddr_other (s : State) (via : Via) (off : Nat) {G : Fld} {j : Nat} (hp : SYS_BAD_ADDR_PORT.key 0 ≠ G.key j)
    (ho : SYS_BAD_ADDR_OFFSET.key 0 ≠ G.key j) : (s.badAddr via off).fget G j = s.fget G j := by
  unfold State.badAddr
  exact (State.fget_fset_other _ _ _ _ _ _ ho).trans ((State.fget_fset_other _ _ _ _ _ _ hp).trans (s.fget_portOf via G j))

theorem State.fget_badAddr_offset (s : State) (via : Via) {off : Nat} (h : off < bar2) :
    (s.badAddr via off).fget SYS_BAD_ADDR_OFFSET 0 = off := by
  unfold State.badAddr
  exact (State.fget_fset_self _ _ _ _).trans (Nat.mod_eq_of_lt h)

theorem State.badField_regsOnly (s : State) (via : Via) (off : Nat) : RegsOnly s (s.badField via off) badFieldKeys := by
  intro G j h
  simp only [badFieldKeys, List.mem_cons, List.not_mem_nil, or_false, not_or] at h
  obtain ⟨he, hp, ho⟩ := h
  cases via with
  | vf g => rfl
  | pf x => exact (State.fget_badAddr_other _ _ _ (Ne.symm hp) (Ne.symm ho)).trans (s.fget_evtPkg_other _ _ _ (Ne.symm he))
  | console => exact (State.fget_badAddr_other _ _ _ (Ne.symm hp) (Ne.symm ho)).trans (s.fget_evtPkg_other _ _ _ (Ne.symm he))

theorem State.fget_fsetWhen (s : State) (F : Fld) (i v : Nat) (G : Fld) (j : Nat) :
    (s.fsetWhen F i v).fget G j = (s.fset F i v).fget G j := by
  unfold State.fsetWhen
  split
  · split <;> rfl
  · rfl

/-- A legal value stands in its field at once, whichever boundary its effect waits for. -/
theorem State.fget_setField (s : State) (F : Fld) (i v : Nat) (G : Fld) (j : Nat) :
    (s.setField F i v).fget G j = (s.fset F i v).fget G j := by
  unfold State.setField
  split
  · rfl
  · split
    · rfl
    · split
      · exact s.fget_fsetWhen F i v G j
      · rfl

/-- One field written: the value is reported as out of range, or only the field may change. -/
theorem State.writeField_cases (s : State) (via : Via) (off i k w : Nat) (x : FldRow) :
    s.writeField via off i k w x = s.badField via off ∨ RegsOnly s (s.writeField via off i k w x) [(x.fld.nth k).key i] := by
  have hset : ∀ v, RegsOnly s (s.fset (x.fld.nth k) i v) [(x.fld.nth k).key i] := fun v G j h =>
    s.fget_fset_other _ _ _ _ _ (Ne.symm (List.ne_of_not_mem_cons h))
  have hfld : ∀ v, RegsOnly s (s.setField (x.fld.nth k) i v) [(x.fld.nth k).key i] := fun v G j h =>
    (s.fget_setField _ _ _ _ _).trans (hset v G j h)
  have hnone : RegsOnly s s [(x.fld.nth k).key i] := fun _ _ _ => rfl
  unfold State.writeField
  extract_lets F v
  cases x.acc with
  | ro => exact .inr hnone
  | wo => exact .inr hnone
  | w1c => dsimp only; split; exacts [.inr hnone, .inr (hset _)]
  | rwl =>
    dsimp only
    split
    · exact .inr hnone
    · split; exacts [.inr (hfld _), .inl rfl]
  | rw => dsimp only; split; exacts [.inr (hfld _), .inl rfl]

theorem State.writeField_regsOnly (s : State) (via : Via) (off i k w : Nat) (x : FldRow) :
    RegsOnly s (s.writeField via off i k w x) ((x.fld.nth k).key i :: badFieldKeys) := by
  intro G j h
  obtain ⟨hx, hb⟩ := not_or.1 (fun e => h (List.mem_cons.2 e))
  rcases s.writeField_cases via off i k w x with e | e
  · rw [e]; exact s.badField_regsOnly via off G j hb
  · exact e G j (by simpa using hx)

/-- A locked field is left as it is, whatever value is written (R12). -/
theorem State.writeField_locked {s : State} {off : Nat} {x : FldRow} (via : Via) (i k w : Nat) (hx : x.acc = .rwl)
    (h : s.lockedAt off = true) : s.writeField via off i k w x = s := by
  unfold State.writeField
  rw [hx]
  exact if_pos h

/-- A value out of range is reported and dropped (R13). -/
theorem State.writeField_outOfRange {x : FldRow} (s : State) (via : Via) (off i k w : Nat) (hx : x.acc = .rw)
    (h : (x.fld.nth k).bitsIn w < x.min ∨ x.max < (x.fld.nth k).bitsIn w) : s.writeField via off i k w x = s.badField via off := by
  unfold State.writeField
  rw [hx]
  exact if_neg (by omega)

/-- A register's fields are written in the order of its table. -/
theorem State.writeFields_append_cons (s : State) (via : Via) (off i k w : Nat) {skip : List Fld} (l₁ l₂ : List FldRow) {x : FldRow}
    (hx : skip.contains x.fld = false) : s.writeFields via off i k w skip (l₁ ++ x :: l₂) =
      ((s.writeFields via off i k w skip l₁).writeField via off i k w x).writeFields via off i k w skip l₂ := by
  unfold State.writeFields
  rw [List.foldl_append, List.foldl_cons, if_neg (by rw [hx]; exact Bool.false_ne_true)]

/-- What the writes of single fields keep, the write of a register's fields keeps. -/
theorem State.writeFields_induct {P : State → Prop} {s : State} {via : Via} {off i k w : Nat} {skip : List Fld} {l : List FldRow}
    (h0 : P s) (h : ∀ u, P u → ∀ x ∈ l, skip.contains x.fld = false → P (u.writeField via off i k w x)) :
    P (s.writeFields via off i k w skip l) := by
  unfold State.writeFields
  refine List.foldlRecOn l _ h0 (fun u hu x hx => ?_)
  split
  next => exact hu
  next hs => exact h u hu x hx (Bool.eq_false_iff.2 hs)

/-! ### What a register write does -/

/-- The fields of a register that act. -/
def Reg.acts (r : Reg) : List Fld := actFlds.filter (fun F => F.off == r.off)

/-- What is brought up to date before the fields of a register are written: an armed freeze (R530), the credits of the classes (R398). -/
def State.preWrite (s : State) (off : Nat) (r : Reg) (i : Nat) : State :=
  let s := if r.off = PMC_CTRL_FREEZE.off ∨ r.off = PMC_FREEZE_AT_LO_T_NS.off ∨ r.off = PMC_FREEZE_AT_HI_T_NS.off then s.freezeDue else s
  if 0x1080040 ≤ r.off ∧ r.off < 0x1080060 ∧ !s.shadowedAt off then s.accrueAll i else s

/-- What follows the plain fields of a register at once: the rate stays within SLEW_MAX (R23). -/
def State.postWrite (s : State) (r : Reg) : State :=
  if r.off = TIK_SLEW_SLEW_MAX.off then { s with clk := { s.clk with adj := s.slew s.clk.adj } } else s

theorem State.writeReg_eq {s : State} {r : Reg} {i w : Nat} (via : Via) (off k : Nat) (hh : s.writeHeld r i w = false)
    (ha : avsRefused r w = false) : s.writeReg via off w r i k =
      r.acts.foldl (fun s F => s.act via F i w)
        (((s.preWrite off r i).writeFields via off i k w (r.acts ++ takenFlds) r.flds).postWrite r) := by
  unfold State.writeReg
  rw [hh, ha]
  rfl

/-- The fields that an armed freeze sets when its instant has come (R530). -/
def freezeKeys : List Nat := [PMC_CTRL_ARM_AT.key 0, PMC_CTRL_FREEZE.key 0, PMC_STATUS_FROZEN.key 0]

theorem State.freezeDue_regsOnly (s : State) : RegsOnly s s.freezeDue freezeKeys := by
  intro G j h
  simp only [freezeKeys, List.mem_cons, List.not_mem_nil, or_false, not_or] at h
  obtain ⟨ha, hf, hz⟩ := h
  unfold State.freezeDue
  split
  · exact (State.fget_fput_other _ _ _ _ _ _ (Ne.symm hz)).trans ((State.fget_fput_other _ _ _ _ _ _ (Ne.symm hf)).trans
      (State.fget_fset_other _ _ _ _ _ _ (Ne.symm ha)))
  · rfl

theorem State.fget_accrueAll (s : State) (d : Nat) (G : Fld) (j : Nat) : (s.accrueAll d).fget G j = s.fget G j := by
  unfold State.accrueAll
  exact State.modLnk_fget _ _ _ _ _

theorem State.preWrite_regsOnly (s : State) (off : Nat) (r : Reg) (i : Nat) : RegsOnly s (s.preWrite off r i) freezeKeys := by
  intro G j h
  have hf : (if r.off = PMC_CTRL_FREEZE.off ∨ r.off = PMC_FREEZE_AT_LO_T_NS.off ∨ r.off = PMC_FREEZE_AT_HI_T_NS.off
      then s.freezeDue else s).fget G j = s.fget G j := by
    split
    · exact s.freezeDue_regsOnly G j h
    · rfl
  unfold State.preWrite
  extract_lets u
  split
  · exact (u.fget_accrueAll i G j).trans hf
  · exact hf

@[simp] theorem State.fget_postWrite (s : State) (r : Reg) (G : Fld) (j : Nat) : (s.postWrite r).fget G j = s.fget G j := by
  unfold State.postWrite
  split <;> rfl

/-- A register write on a path that reaches the register. -/
theorem runs_registerWrite {s : State} {via : Via} {off w i k : Nat} {r : Reg} {P : State → Prop} (ha : off % 4 = 0) (hb : off < bar2)
    (hv : MayWrite via off s) (hr : s.reg? off = some (r, i, k)) (h : P (s.writeReg via off (w % 2 ^ 32) r i k)) :
    Runs (.registerWrite via off w) s P := by
  have hgo : s.regWriteWord via off w = s.writeReg via off (w % 2 ^ 32) r i k := by
    unfold State.regWriteWord
    rw [hr]
  have hex : exec (.registerWrite via off w) s = .next (regWrite via off s (fun s => s.regWriteWord via off w)) := by
    show execRegisterWrite via off w s = _
    unfold execRegisterWrite
    rw [if_neg (not_not.2 ha), if_neg (Nat.not_le.2 hb)]
  refine ⟨_, hex, ?_⟩
  unfold Machine.regWrite
  cases via with
  | pf x => dsimp only; rwa [hgo]
  | console => dsimp only; rwa [hgo]
  | vf f => dsimp only; rwa [if_pos (hv f rfl), hgo]

/-! ### Locks (R12, R567) -/

theorem State.owner_congr {s t : State} (h : s.agree t (.regs .ptn)) (d : Nat) : t.owner d = s.owner d := by
  unfold State.owner
  congr 1
  funext p
  rw [h PTN_DIES_DIES p rfl]

theorem State.locked_congr {s t : State} (h : s.agree t (.regs .ptn)) (p : Nat) : t.locked p = s.locked p := by
  unfold State.locked State.ptnState
  rw [h PTN_STATUS_STATE p rfl]

theorem State.dieLocked_congr {s t : State} (h : s.agree t (.regs .ptn)) (d : Nat) : t.dieLocked d = s.dieLocked d := by
  unfold State.dieLocked
  rw [State.owner_congr h]
  split
  · exact State.locked_congr h _
  · rfl

/-- The lock of an offset is decided by PTN_DIES and PTN_STATUS. -/
theorem State.lockedAt_congr {s t : State} (h : s.agree t (.regs .ptn)) (off : Nat) : t.lockedAt off = s.lockedAt off := by
  unfold State.lockedAt
  split
  · exact State.dieLocked_congr h _
  · simp only [State.locked_congr h]

theorem State.locked_iff (s : State) (p : Nat) :
    s.locked p = true ↔ s.ptnState p = ptnSealed ∨ s.ptnState p = ptnRemoving ∨ s.ptnState p = ptnOrphaned := by
  unfold State.locked
  rw [Bool.and_eq_true, decide_eq_true_eq, decide_eq_true_eq]
  unfold ptnSealed ptnRemoving ptnOrphaned
  omega

theorem State.lockedAt_tikPeriod (s : State) {p : Nat} (h : p < 8) : s.lockedAt (TIK_PERIOD_N.at_ p) = s.locked p := by
  have e : TIK_PERIOD_N.at_ p = 0x10100 + p * 0x40 := rfl
  unfold State.lockedAt
  rw [e, dieOfOff_of_lt (by omega)]
  dsimp only
  rw [if_pos (by omega)]
  congr 1
  omega

theorem State.lockedAt_ptnDies (s : State) {p : Nat} (h : p < 8) : s.lockedAt (PTN_DIES_DIES.at_ p) = s.locked p := by
  have e : PTN_DIES_DIES.at_ p = 0xA0004 + p * 0x20 := rfl
  unfold State.lockedAt
  rw [e, dieOfOff_of_lt (by omega)]
  dsimp only
  rw [if_neg (by omega), if_pos (by omega)]
  congr 1
  omega

/-- `t` has the locks of `s`, and the field `G` with index `j` as `s` has it. -/
structure Spares (G : Fld) (j : Nat) (s t : State) : Prop where
  ptn : s.agree t (.regs .ptn)
  fld : t.fget G j = s.fget G j

section
variable {G : Fld} {j : Nat} {s t u : State}

theorem Spares.refl (s : State) : Spares G j s s := ⟨s.agree_refl _, rfl⟩

theorem Spares.trans (h : Spares G j s t) (k : Spares G j t u) : Spares G j s u := ⟨State.agree_trans h.ptn k.ptn, k.fld.trans h.fld⟩

theorem Spares.lockedAt (h : Spares G j s t) (off : Nat) : t.lockedAt off = s.lockedAt off := State.lockedAt_congr h.ptn off

theorem Spares.ofKeeps {m : Nat} (h : Keeps m s t) (hp : m.testBit (Area.regs .ptn).ix = false)
    (hG : m.testBit (Area.regs G.blk).ix = false) : Spares G j s t := ⟨h.same _ hp, h.fget hG rfl j⟩

theorem Spares.ofRegsOnly {l : List Nat} (h : RegsOnly s t l) (hp : ∀ (F : Fld) (i : Nat), F.blk = .ptn → F.key i ∉ l) (hG : G.key j ∉ l) :
    Spares G j s t := ⟨fun F i e => h F i (hp F i e), h G j hG⟩

/-- Operations that each keep the locks and the field while the lock stands keep them together. -/
theorem Spares.foldl {α : Type} {f : State → α → State} {l : List α} {off : Nat}
    (h : ∀ u x, x ∈ l → u.lockedAt off = true → Spares G j u (f u x)) (hs : s.lockedAt off = true) : Spares G j s (l.foldl f s) := by
  induction l generalizing s with
  | nil => exact Spares.refl s
  | cons x l ih =>
    have hx := h s x List.mem_cons_self hs
    exact hx.trans (ih (fun u y hy => h u y (List.mem_cons_of_mem _ hy)) ((hx.lockedAt off).trans hs))

/-- A write by a path that an operation makes again, or the violation it is instead. -/
theorem Spares.regWrite {via : Via} {off : Nat} {go : State → State} (hG : G.blk ≠ .hrg) (h : Spares G j s (go s)) :
    Spares G j s (regWrite via off s go) := by
  have hv : ∀ f, Spares G j s (s.violation f) := fun f =>
    Spares.ofKeeps (s.violation_keeps f) (by decide) (by revert hG; cases G.blk <;> decide)
  unfold Machine.regWrite
  cases via with
  | pf x => exact h
  | console => exact h
  | vf f => dsimp only; split; exacts [h, hv f]

end

/-! ### Values out of range (R13) -/

/-- A report of a value out of range names the offset of the access. -/
theorem State.badField_reports (s : State) {via : Via} {off : Nat} (hv : ∀ g, via ≠ .vf g) (hb : off < bar2) :
    Raised (s.badField via off) SYS_EVENT_BAD_FIELD 0 ∧ (s.badField via off).fget SYS_BAD_ADDR_OFFSET 0 = off := by
  have hr : Raised ((s.evtPkg SYS_EVENT_BAD_FIELD).badAddr via off) SYS_EVENT_BAD_FIELD 0 := by
    unfold Raised
    rw [State.fget_badAddr_other _ _ _ (by decide) (by decide)]
    exact s.fget_evtPkg_self _ (by decide)
  have ho := (s.evtPkg SYS_EVENT_BAD_FIELD).fget_badAddr_offset via hb
  cases via with
  | vf g => exact absurd rfl (hv g)
  | pf x => exact ⟨hr, ho⟩
  | console => exact ⟨hr, ho⟩

/-- The offsets of SYS_EVENT, SYS_BAD_ADDR, PMC_CTRL and PMC_STATUS. -/
def reportOffs : List Nat := (badFieldKeys ++ freezeKeys).map keyOff

/-- None of them holds a register whose plain fields software writes without an effect of their own. -/
theorem reportOffs_noPlainField : ∀ off ∈ reportOffs,
    (findReg allRegs off).all (fun x => x.1.flds.all (fun f => f.acc != .rw) || !x.1.acts.isEmpty) = true := by decide +kernel

theorem State.off_notMem_reportOffs {s : State} {off i k : Nat} {r : Reg} {f : FldRow} (h : s.reg? off = some (r, i, k))
    (hf : f ∈ r.flds) (hacc : f.acc = .rw) (hact : r.acts = []) : off ∉ reportOffs := by
  intro hm
  have hall := reportOffs_noPlainField off hm
  rw [State.findReg_of_reg? h, Option.all_some, hact, Bool.or_eq_true, List.all_eq_true] at hall
  rcases hall with hall | hall
  · have := hall f hf
    rw [hacc] at this
    exact absurd this (by decide)
  · exact absurd hall (by decide)

theorem Fld.key_notMem_of_at {F : Fld} {i : Nat} {l : List Nat} (h : F.at_ i ∉ l.map keyOff) : F.key i ∉ l := fun hm =>
  h (F.keyOff_key i ▸ List.mem_map_of_mem hm)

section
variable {s : State} {via : Via} {off w i k : Nat} {r : Reg} {f : FldRow} {skip : List Fld}

/-- A field that is given a value out of range keeps its value, whatever the other fields of its register are given. -/
theorem State.fget_writeFields_outOfRange (hr : r ∈ allRegs) (hf : f ∈ r.flds) (hacc : f.acc = .rw)
    (hout : (f.fld.nth k).bitsIn w < f.min ∨ f.max < (f.fld.nth k).bitsIn w) (hkey : (f.fld.nth k).key i ∉ badFieldKeys) :
    (s.writeFields via off i k w skip r.flds).fget (f.fld.nth k) i = s.fget (f.fld.nth k) i := by
  refine State.writeFields_induct (P := fun u => u.fget (f.fld.nth k) i = s.fget (f.fld.nth k) i) rfl (fun u hu x hx _ => ?_)
  by_cases e : x = f
  · rw [e, u.writeField_outOfRange via off i k w hacc hout]
    exact (u.badField_regsOnly via off _ _ hkey).trans hu
  · refine (u.writeField_regsOnly via off i k w x _ _ ?_).trans hu
    rw [List.mem_cons, not_or]
    exact ⟨Ne.symm (FldRow.key_ne hr hf hx e i k), hkey⟩

/-- The report of the field stands when the whole register is written: its later fields leave SYS_EVENT and SYS_BAD_ADDR, or report
the same offset. -/
theorem State.writeFields_reports (hf : f ∈ r.flds) (hacc : f.acc = .rw) (hskip : skip.contains f.fld = false)
    (hout : (f.fld.nth k).bitsIn w < f.min ∨ f.max < (f.fld.nth k).bitsIn w) (hv : ∀ g, via ≠ .vf g) (hb : off < bar2)
    (hat : ∀ x ∈ r.flds, (x.fld.nth k).at_ i = off) (hoff : off ∉ badFieldKeys.map keyOff) :
    Raised (s.writeFields via off i k w skip r.flds) SYS_EVENT_BAD_FIELD 0 ∧
      (s.writeFields via off i k w skip r.flds).fget SYS_BAD_ADDR_OFFSET 0 = off := by
  obtain ⟨l₁, l₂, hl⟩ := List.append_of_mem hf
  have hmem : ∀ x ∈ l₂, x ∈ r.flds := fun x hx => hl ▸ List.mem_append_right _ (List.mem_cons_of_mem _ hx)
  rw [hl, State.writeFields_append_cons _ _ _ _ _ _ _ _ hskip, State.writeField_outOfRange _ _ _ _ _ _ hacc hout]
  refine State.writeFields_induct (P := fun u => Raised u SYS_EVENT_BAD_FIELD 0 ∧ u.fget SYS_BAD_ADDR_OFFSET 0 = off)
    (State.badField_reports _ hv hb) (fun u hu x hx _ => ?_)
  have hne : ∀ F : Fld, F.key 0 ∈ badFieldKeys → F.key 0 ∉ [(x.fld.nth k).key i] := fun F hF e => hoff (by
    rw [← hat x (hmem x hx), ← Fld.keyOff_key, ← List.mem_singleton.1 e]
    exact List.mem_map_of_mem hF)
  rcases u.writeField_cases via off i k w x with e | e
  · rw [e]
    exact u.badField_reports hv hb
  · unfold Raised
    rw [e SYS_EVENT_BAD_FIELD 0 (hne _ (by decide)), e SYS_BAD_ADDR_OFFSET 0 (hne _ (by decide))]
    exact hu

end

/-- Settles O56: the field is not written (R13), and no other field of its register is it or is a field of the report. -/
theorem valuesOutOfRangeAreDropped : Obligations.ValuesOutOfRangeAreDropped := by
  unfold Obligations.ValuesOutOfRangeAreDropped
  intro s via off w i k r f ha hb hw hv hr hf hacc htaken hact hheld havs hout
  have hacts : r.acts = [] := List.filter_eq_nil_iff.2 fun F hF e =>
    absurd (List.all_eq_true.1 hact F hF) (by simpa using e)
  have hoff := State.off_notMem_reportOffs hr hf hacc hacts
  rw [reportOffs, List.map_append, List.mem_append, not_or] at hoff
  obtain ⟨hbad, hfrz⟩ := hoff
  have hmem := (State.fld_of_reg? hr hf).1
  have hat : ∀ x ∈ r.flds, (x.fld.nth k).at_ i = off := fun x hx => (State.fld_of_reg? hr hx).2
  have hkb : (f.fld.nth k).key i ∉ badFieldKeys := Fld.key_notMem_of_at (by rwa [hat f hf])
  have hkf : (f.fld.nth k).key i ∉ freezeKeys := Fld.key_notMem_of_at (by rwa [hat f hf])
  refine runs_registerWrite ha hb hv hr ?_
  rw [Nat.mod_eq_of_lt hw, State.writeReg_eq via off k hheld havs, hacts, List.foldl_nil, List.nil_append]
  simp only [Raised, State.fget_postWrite]
  refine ⟨?_, fun hvf => State.writeFields_reports hf hacc htaken hout hvf hb hat hbad⟩
  rw [State.fget_writeFields_outOfRange hmem hf hacc hout hkb]
  exact s.preWrite_regsOnly off r i _ _ hkf

/-! ### The state after reset (R10, R312) and the dies of a package (R3) -/

/-- Settles O52: the register file of the reset state lists nothing, so every field reads as its table gives it. -/
theorem resetState : Obligations.ResetState := by
  unfold Obligations.ResetState
  have hfld : ∀ F n, State.reset.fget F n = F.rst := fun _ _ => rfl
  exact ⟨hfld, fun p => hfld PTN_STATUS_STATE p, rfl, rfl, rfl, by decide⟩

/-- The register map lists CSM_CTRL in the window of each of eight dies. -/
theorem findReg_csmCtrl : ∀ d < 8, (findReg allRegs (CSM_CTRL_EN.at_ d)).isSome = true := by decide +kernel

theorem State.reg?_csmCtrl_isSome (s : State) {d : Nat} (hd : d < 8) : (s.reg? (CSM_CTRL_EN.at_ d)).isSome = true ↔ d < s.nDies := by
  have hwin : dieOfOff (CSM_CTRL_EN.at_ d) = some d := dieOfOff_of_window hd (e := 0) (by decide) rfl
  rw [s.reg?_window hwin]
  by_cases h : s.nDies ≤ d
  · rw [if_pos h]
    exact iff_of_false (by decide) (Nat.not_lt.2 h)
  · rw [if_neg h]
    exact iff_of_true (findReg_csmCtrl d hd) (Nat.not_le.1 h)

/-- Settles O53: N is that of the variant, and port B sits half the dies on from port A. -/
theorem portsSitOnTheirDies : Obligations.PortsSitOnTheirDies := by
  unfold Obligations.PortsSitOnTheirDies
  intro s
  have hport : s.hostDie 1 = s.nDies / 2 := rfl
  have hvar : ∀ v, s.variant = v → s.nDies = v.dies := fun v h => congrArg Variant.dies h
  refine ⟨rfl, hport, fun h => ?_, fun h => ?_, fun h => ?_, fun d hd => s.reg?_csmCtrl_isSome hd⟩
  all_goals
    rw [hport, hvar _ h]
    exact ⟨rfl, rfl⟩

/-! ### A checkpoint and the registers of the flash (R279, R296, R298) -/

section
variable {G : Fld} {j : Nat} {s t : State} {d : Nat}

theorem State.fget_openBand {k : BandKind} {ns n : Nat} (h : s.openBand d k ns = some (n, t)) (hw : G.at_ j ≠ FTL_STRIPE_WIDTH.at_ d)
    (hf : G.at_ j ≠ FTL_FREE_BANDS_BANDS.at_ d) : t.fget G j = s.fget G j := by
  unfold State.openBand at h
  extract_lets chs ms at h
  split at h
  · cases h
  · obtain ⟨-, rfl⟩ := Prod.mk.inj (Option.some.inj h)
    exact (State.fget_fsat_other _ _ _ _ _ _ (Fld.key_ne_of_at (Ne.symm hf))).trans
      (State.fget_fset_other _ _ _ _ _ _ (Fld.key_ne_of_at (Ne.symm hw)))

theorem State.fget_closeBand (s : State) (d n : Nat) (hG : G.blk = .ftl) : (s.closeBand d n).fget G j = s.fget G j :=
  (s.closeBand_keeps d n).fget (by decide) hG j

theorem State.fget_place {k : BandKind} {ns n : Nat} {l : FLoc} (h : s.place d k ns n = some (l, t)) (hG : G.blk = .ftl)
    (hw : G.at_ j ≠ FTL_STRIPE_WIDTH.at_ d) (hf : G.at_ j ≠ FTL_FREE_BANDS_BANDS.at_ d) : t.fget G j = s.fget G j := by
  unfold State.place at h
  extract_lets take fresh at h
  have htake : ∀ {u m b l t}, take u m b = some (l, t) → t.fget G j = u.fget G j := by
    intro u m b l t h
    unfold take at h
    split at h
    · cases h
    · cases h; rfl
  have hfresh : ∀ {u l t}, fresh u = some (l, t) → t.fget G j = u.fget G j := by
    intro u l t h
    unfold fresh at h
    split at h
    · cases h
    next ho =>
      split at h
      · exact (htake h).trans (State.fget_openBand ho hw hf)
      · cases h
  split at h
  · exact hfresh h
  next m b _ =>
    have hclose : ∀ {l t}, fresh (s.closeBand d m) = some (l, t) → t.fget G j = s.fget G j := fun h =>
      (hfresh h).trans (s.fget_closeBand d m hG)
    split at h
    · split at h
      next ht => cases h; exact htake ht
      · exact hclose h
    · exact hclose h

theorem State.fget_writeObj {k : BandKind} {kind obj ns n : Nat} {src : Option FLoc} {data : FData} {l : FLoc}
    (h : s.writeObj d k kind obj ns n src data = some (l, t)) (hG : G.blk = .ftl)
    (hw : G.at_ j ≠ FTL_STRIPE_WIDTH.at_ d) (hf : G.at_ j ≠ FTL_FREE_BANDS_BANDS.at_ d) : t.fget G j = s.fget G j := by
  unfold State.writeObj at h
  split at h
  · cases h
  next hp =>
    cases h
    split at hp
    · cases hp
    · exact ((State.serve_keeps _ d).fget (by decide) hG j).trans
        ((State.modFtl_fget _ _ _ _ _).trans (State.fget_place hp hG hw hf))

theorem State.fget_healthOccur (s : State) (d code ch : Nat) (hG : G.blk = .ftl) (he : G.at_ j ≠ FTL_EVENT_HEALTH.at_ d) :
    (s.healthOccur d code ch).fget G j = s.fget G j := by
  unfold State.healthOccur
  extract_lets f n
  split
  · rfl
  · unfold State.postHealth
    exact ((State.dieEvent_keeps _ _ _ _).fget (by decide) hG j).trans
      (State.fget_evtDie_other _ _ _ _ _ (Fld.key_ne_of_at (Ne.symm he)))

theorem State.fget_roCheck (s : State) (d : Nat) (hG : G.blk = .ftl) (hs : G.at_ j ≠ FTL_STATUS_READ_ONLY.at_ d)
    (he : G.at_ j ≠ FTL_EVENT_HEALTH.at_ d) : (s.roCheck d).fget G j = s.fget G j := by
  have hset : ∀ v, (s.fset FTL_STATUS_READ_ONLY d v).fget G j = s.fget G j := fun v =>
    s.fget_fset_other _ _ _ _ _ (Fld.key_ne_of_at (Ne.symm hs))
  have hro : FTL_EVENT_READ_ONLY.key d ≠ G.key j := Fld.key_ne_of_at (Ne.symm he)
  unfold State.roCheck
  extract_lets f few starved stuck
  split
  · rfl
  · split
    · split
      · rfl
      · exact (State.fget_healthOccur _ _ _ _ hG he).trans ((State.fget_evtDie_other _ _ _ _ _ hro).trans (hset 1))
    · split
      · exact hset 0
      · rfl

/-- A checkpoint changes of the registers of the flash only FTL_STATUS, FTL_EVENT, FTL_STRIPE and FTL_FREE_BANDS. -/
theorem State.fget_startCkpt (s : State) (d : Nat) (hG : G.blk = .ftl) (hs : G.at_ j ≠ FTL_STATUS_READ_ONLY.at_ d)
    (he : G.at_ j ≠ FTL_EVENT_HEALTH.at_ d) (hw : G.at_ j ≠ FTL_STRIPE_WIDTH.at_ d) (hf : G.at_ j ≠ FTL_FREE_BANDS_BANDS.at_ d) :
    (s.startCkpt d).fget G j = s.fget G j := by
  have hdraw : s.draw.2.fget G j = s.fget G j := rfl
  unfold State.startCkpt
  extract_lets f
  split
  · rfl
  · dsimp only
    split
    · exact (State.fget_roCheck _ d hG hs he).trans hdraw
    next ho => exact (State.modFtl_fget _ _ _ _ _).trans ((State.fget_writeObj ho hG hw hf).trans hdraw)

/-! ### A link taken down and the registers of the fabric port (R388, R390, R393) -/

theorem State.fget_linkZero (s : State) (d : Nat) (hG : G.blk = .lnk) (hs : G.at_ j ≠ LNK_STATUS_UP.at_ d) :
    (s.linkZero d).fget G j = s.fget G j := by
  have han : LNK_STATUS_TX_AN.key d ≠ G.key j := Fld.key_ne_of_at (Ne.symm hs)
  have hpn : LNK_STATUS_PN_STOP.key d ≠ G.key j := Fld.key_ne_of_at (Ne.symm hs)
  have hctx : NRT_CTX_USED_CONTEXTS.key d ≠ G.key j := Fld.key_ne _ _ (by rw [hG]; decide)
  unfold State.linkZero
  extract_lets u v x
  have hu : u.fget G j = s.fget G j :=
    (Keeps.foldl (m := 0x800) _ (s.nrt d).rx (fun a x => a.freeEntry_keeps d x) (Keeps.refl s)).fget (by decide) hG j
  calc ((((x.fset LNK_STATUS_TX_AN d 0).fset LNK_STATUS_PN_STOP d 0).fset NRT_CTX_USED_CONTEXTS d 0).settleRevokes d).fget G j
      = (((x.fset LNK_STATUS_TX_AN d 0).fset LNK_STATUS_PN_STOP d 0).fset NRT_CTX_USED_CONTEXTS d 0).fget G j :=
        (State.settleRevokes_keeps _ d).fget (by decide) hG j
    _ = x.fget G j := (State.fget_fset_other _ _ _ _ _ _ hctx).trans
        ((State.fget_fset_other _ _ _ _ _ _ hpn).trans (State.fget_fset_other _ _ _ _ _ _ han))
    _ = s.fget G j := hu

theorem State.fget_setLink (s : State) (d lanes : Nat) (hG : G.blk = .lnk) (hs : G.at_ j ≠ LNK_STATUS_UP.at_ d)
    (he : G.at_ j ≠ LNK_EVENT_SECURED_LOST.at_ d) : (s.setLink d lanes).fget G j = s.fget G j := by
  have hup : LNK_STATUS_UP.key d ≠ G.key j := Fld.key_ne_of_at (Ne.symm hs)
  have hlanes : LNK_STATUS_LANES.key d ≠ G.key j := Fld.key_ne_of_at (Ne.symm hs)
  have hsec : LNK_STATUS_SECURED.key d ≠ G.key j := Fld.key_ne_of_at (Ne.symm hs)
  have hev : LNK_EVENT_SECURED_LOST.key d ≠ G.key j := Fld.key_ne_of_at (Ne.symm he)
  have hlink : NRT_STATUS_LINK_UP.key d ≠ G.key j := Fld.key_ne _ _ (by rw [hG]; decide)
  unfold State.setLink
  extract_lets a b was c e
  have ha : a.fget G j = s.fget G j :=
    (State.fget_fset_other _ _ _ _ _ _ hlanes).trans (State.fget_fput_other _ _ _ _ _ _ hup)
  have hb : b.fget G j = a.fget G j := by
    unfold b
    split
    · exact a.fget_linkZero d hG hs
    · rfl
  have hc : c.fget G j = b.fget G j := State.fget_fput_other _ _ _ _ _ _ hsec
  have hee : e.fget G j = c.fget G j := by
    unfold e
    split
    · exact c.fget_evtDie_other _ _ _ _ hev
    · rfl
  exact (State.fget_fput_other _ _ _ _ _ _ hlink).trans (hee.trans (hc.trans (hb.trans ha)))

theorem State.fget_startRekey (s : State) (d : Nat) (hG : G.blk = .lnk) (hr : G.at_ j ≠ LNK_REKEYS_COUNT.at_ d)
    (he : G.at_ j ≠ LNK_EVENT_REKEY.at_ d) : (s.startRekey d).fget G j = s.fget G j := by
  have henq : ∀ (u : State) p, (u.enqueue d .net false 0 p).fget G j = u.fget G j := fun u p =>
    (u.enqueue_keeps d .net false 0 p).fget (by decide) hG j
  have hsak : (s.newSak d).fget G j = s.fget G j :=
    (State.fget_evtDie_other _ _ _ _ _ (Fld.key_ne_of_at (Ne.symm he))).trans
      (State.fget_fadd_other _ _ _ _ _ _ (Fld.key_ne_of_at (Ne.symm hr)))
  unfold State.startRekey
  split
  · rfl
  · split
    · exact (henq _ _).trans hsak
    · split
      · rfl
      · exact henq _ _

end

/-! ### Fields that act and the lock -/

theorem Fld.at_ne {F G : Fld} (hs : F.stride = G.stride) (h : F.off ≠ G.off) (i : Nat) : F.at_ i ≠ G.at_ i := by
  unfold Fld.at_
  rw [hs]
  omega

section
variable (s : State) (via : Via) (d w : Nat)

/-- Acting fields of the flash channels and the fabric port. -/
theorem State.act_link {F : Fld} (h : (0x1040000 ≤ F.off ∧ F.off < 0x1060000) ∨ (0x1080000 ≤ F.off ∧ F.off < 0x10A0000)) :
    s.act via F d w = s.actLink via F d w := if_pos h

/-- Acting fields of the other blocks of a die window. -/
theorem State.act_die {F : Fld} (h : ¬((0x1040000 ≤ F.off ∧ F.off < 0x1060000) ∨ (0x1080000 ≤ F.off ∧ F.off < 0x10A0000)))
    (hw : windowBase ≤ F.off) : s.act via F d w = s.actDie via F d w := (if_neg h).trans (if_pos hw)

/-- Acting fields of a partition or a function. -/
theorem State.act_part {F : Fld} (hw : F.off < windowBase) (hs : F.stride ≠ 0) : s.act via F d w = s.actPart via F d w := by
  have hb : F.off < 0x1000000 := hw
  unfold State.act
  rw [if_neg (by omega), if_neg (Nat.not_le.2 hw), if_neg hs]

theorem State.act_pfxEn : s.act via PFX_CTRL_EN d w = if s.lockedAt (PFX_CTRL_EN.at_ d) then s
    else if w.testBit 0 then stateOf s (execPfxEnable d via s) else s.fset PFX_CTRL_EN d 0 := by
  rw [s.act_die via d w (by decide) (by decide)]
  exact if_pos rfl

theorem State.act_ftlEn : s.act via FTL_CTRL_EN d w =
    if s.lockedAt (FTL_CTRL_EN.at_ d) || w.testBit 0 then s else s.fset FTL_CTRL_EN d 0 := by
  rw [s.act_link via d w (by decide)]
  exact if_pos rfl

theorem State.act_ftlInject : s.act via FTL_CTRL_INJECT d w = s.onBit w 8 (execFtlInject d via) := by
  rw [s.act_link via d w (by decide)]
  rfl

theorem State.act_ckptNow : s.act via FTL_CTRL_CKPT_NOW d w = s.onBit w 4 (execCkptNow d via) := by
  rw [s.act_link via d w (by decide)]
  rfl

theorem State.act_nrtInject : s.act via NRT_CTRL_INJECT d w = s.onBit w 2 (execNrtInject d via) := by
  rw [s.act_die via d w (by decide) (by decide)]
  rfl

theorem State.act_lnkEn : s.act via LNK_CTRL_EN d w = stateOf s (execLnkEnWrite d (w.testBit 0) via s) := by
  rw [s.act_link via d w (by decide)]
  rfl

theorem State.act_macsecEn_locked (h : s.lockedAt (LNK_CTRL_MACSEC_EN.at_ d) = true) : s.act via LNK_CTRL_MACSEC_EN d w = s := by
  rw [s.act_link via d w (by decide)]
  unfold State.actLink
  iterate 7 rw [if_neg (by decide)]
  rw [if_pos rfl, h]
  rfl

theorem State.act_rekeyNow : s.act via LNK_CTRL_REKEY_NOW d w = s.onBit w 3 (execRekeyNow d via) := by
  rw [s.act_link via d w (by decide)]
  rfl

theorem State.act_latClr : s.act via LNK_CTRL_LAT_CLR d w = s.onBit w 4 (execLatClr d via) := by
  rw [s.act_link via d w (by decide)]
  rfl

theorem State.act_tikPeriodN : s.act via TIK_PERIOD_N d w = s.writePeriod d (w % 64) (w / 64 % 4) := by
  rw [s.act_part via d w (by decide) (by decide)]
  rfl

theorem State.act_tikPeriodEn : s.act via TIK_PERIOD_EN d w = stateOf s (execTikPeriodEnWrite d (w.testBit 31) via s) := by
  rw [s.act_part via d w (by decide) (by decide)]
  rfl

theorem State.act_ptnDies : s.act via PTN_DIES_DIES d w = stateOf s (execPtnDiesWrite d w s) := by
  rw [s.act_part via d w (by decide) (by decide)]
  rfl

end

/-- Acting fields that are RWL. -/
def rwlActs : List Fld := [PFX_CTRL_EN, FTL_CTRL_EN, LNK_CTRL_MACSEC_EN, TIK_PERIOD_N, PTN_DIES_DIES]

/-- Acting fields that are not, in a register with an RWL field. -/
def rwlMates : List Fld :=
  [FTL_CTRL_INJECT, FTL_CTRL_CKPT_NOW, NRT_CTRL_INJECT, LNK_CTRL_EN, LNK_CTRL_REKEY_NOW, LNK_CTRL_LAT_CLR, TIK_PERIOD_EN]

/-- A locked field does not act (R12). -/
theorem State.act_locked {s : State} {F : Fld} {i : Nat} (via : Via) (w : Nat) (hF : F ∈ rwlActs) (hi : i < 8)
    (hl : s.lockedAt (F.at_ i) = true) : s.act via F i w = s := by
  simp only [rwlActs, List.mem_cons, List.not_mem_nil, or_false] at hF
  rcases hF with rfl | rfl | rfl | rfl | rfl
  · rw [State.act_pfxEn, if_pos hl]
  · rw [State.act_ftlEn, hl, Bool.true_or, if_pos rfl]
  · exact s.act_macsecEn_locked via i w hl
  · rw [s.lockedAt_tikPeriod hi] at hl
    rw [State.act_tikPeriodN]
    exact if_pos hl
  · rw [s.lockedAt_ptnDies hi] at hl
    rw [State.act_ptnDies, execPtnDiesWrite, if_pos (Or.inl hl)]
    rfl

section
variable {G : Fld} {j : Nat} {s : State} {d w : Nat} {via : Via}

theorem Spares.ite {p : Prop} [Decidable p] {t u : State} (h : Spares G j s t) (k : Spares G j s u) : Spares G j s (if p then t else u) := by
  split <;> assumption

theorem Spares.fset {F : Fld} {i : Nat} (v : Nat) (hp : F.blk ≠ .ptn) (h : F.key i ≠ G.key j) : Spares G j s (s.fset F i v) :=
  ⟨fun _ _ e => s.fget_fset_other _ _ _ _ _ (Fld.key_ne _ _ (by rwa [e])), s.fget_fset_other _ _ _ _ _ h⟩

theorem Spares.stateOf {go : State → Host.Outcome State Fault Refusal} (h : ∀ t, go s = .next t → Spares G j s t) :
    Spares G j s (stateOf s (go s)) := by
  unfold Machine.stateOf
  split
  next e => exact h _ e
  next => exact Spares.refl s

theorem Spares.onBit {n : Nat} {go : State → Host.Outcome State Fault Refusal} (h : ∀ t, go s = .next t → Spares G j s t) :
    Spares G j s (s.onBit w n go) := Spares.ite (Spares.stateOf h) (Spares.refl s)

theorem Spares.act_ftlInject (hG : G.blk = .ftl) : Spares G j s (s.act via FTL_CTRL_INJECT d w) := by
  rw [State.act_ftlInject]
  exact Spares.onBit fun t e => Spares.ofKeeps (execFtlInject_keeps d via s t e) (by decide) (by rw [hG]; decide)

theorem Spares.act_nrtInject (hG : G.blk = .nrt) : Spares G j s (s.act via NRT_CTRL_INJECT d w) := by
  rw [State.act_nrtInject]
  exact Spares.onBit fun t e => Spares.ofKeeps (execNrtInject_keeps d via s t e) (by decide) (by rw [hG]; decide)

theorem Spares.act_ckptNow (hG : G.blk = .ftl) (hat : G.at_ j = FTL_CTRL_CKPT_NOW.at_ d) :
    Spares G j s (s.act via FTL_CTRL_CKPT_NOW d w) := by
  have hne : ∀ F : Fld, FTL_CTRL_CKPT_NOW.stride = F.stride → FTL_CTRL_CKPT_NOW.off ≠ F.off → G.at_ j ≠ F.at_ d := fun F hs ho =>
    hat ▸ Fld.at_ne hs ho d
  rw [State.act_ckptNow]
  refine Spares.onBit fun t e => ?_
  cases e
  refine Spares.regWrite (by rw [hG]; decide) (Spares.ite (Spares.refl s) ⟨(s.startCkpt_keeps d).same _ (by decide), ?_⟩)
  exact s.fget_startCkpt d hG (hne _ rfl (by decide)) (hne _ rfl (by decide)) (hne _ rfl (by decide)) (hne _ rfl (by decide))

theorem Spares.act_lnkEn (hG : G.blk = .lnk) (hat : G.at_ j = LNK_CTRL_EN.at_ d) (hlo : G.lo % 32 ≠ LNK_CTRL_EN.lo % 32) :
    Spares G j s (s.act via LNK_CTRL_EN d w) := by
  have hne : ∀ F : Fld, LNK_CTRL_EN.stride = F.stride → LNK_CTRL_EN.off ≠ F.off → G.at_ j ≠ F.at_ d := fun F hs ho =>
    hat ▸ Fld.at_ne hs ho d
  have hput : Spares G j s (s.fput LNK_CTRL_EN d (w.testBit 0)) := Spares.fset _ (by decide) (Fld.key_ne_of_lo (Ne.symm hlo))
  have hlink : ∀ u : State, Spares G j u (u.setLink d 0) := fun u =>
    ⟨(u.setLink_keeps d 0).same _ (by decide), u.fget_setLink d 0 hG (hne _ rfl (by decide)) (hne _ rfl (by decide))⟩
  have hstate : ∀ u : State, Spares G j u (u.linkState d false) := fun u =>
    Spares.ofKeeps (u.linkState_keeps d false) (by decide) (by rw [hG]; decide)
  rw [State.act_lnkEn]
  refine Spares.stateOf fun t e => ?_
  cases e
  exact Spares.regWrite (by rw [hG]; decide) (Spares.ite hput (hput.trans ((hlink _).trans (hstate _))))

theorem Spares.act_rekeyNow (hG : G.blk = .lnk) (hat : G.at_ j = LNK_CTRL_REKEY_NOW.at_ d) :
    Spares G j s (s.act via LNK_CTRL_REKEY_NOW d w) := by
  have hne : ∀ F : Fld, LNK_CTRL_REKEY_NOW.stride = F.stride → LNK_CTRL_REKEY_NOW.off ≠ F.off → G.at_ j ≠ F.at_ d :=
    fun F hs ho => hat ▸ Fld.at_ne hs ho d
  rw [State.act_rekeyNow]
  refine Spares.onBit fun t e => ?_
  cases e
  refine Spares.regWrite (by rw [hG]; decide) (Spares.ite (Spares.refl s) ⟨(s.startRekey_keeps d).same _ (by decide), ?_⟩)
  exact s.fget_startRekey d hG (hne _ rfl (by decide)) (hne _ rfl (by decide))

theorem Spares.act_latClr (hG : G.blk = .lnk) (hat : G.at_ j = LNK_CTRL_LAT_CLR.at_ d)
    (hl : s.lockedAt (LNK_CTRL_LAT_CLR.at_ d) = true) : Spares G j s (s.act via LNK_CTRL_LAT_CLR d w) := by
  have hne : ∀ n, (LNK_QLAT_HWM.nth n).at_ d ≠ G.at_ j := fun n => by
    have hoff : LNK_CTRL_LAT_CLR.off < (LNK_QLAT_HWM.nth n).off :=
      Nat.lt_of_lt_of_le (show LNK_CTRL_LAT_CLR.off < LNK_QLAT_HWM.off by decide) (Nat.le_add_right _ _)
    rw [hat]
    exact Fld.at_ne (F := LNK_QLAT_HWM.nth n) (G := LNK_CTRL_LAT_CLR) rfl (Nat.ne_of_gt hoff) d
  rw [State.act_latClr]
  refine Spares.onBit fun t e => ?_
  cases e
  refine Spares.regWrite (by rw [hG]; decide) (Spares.ite (Spares.refl s) (Spares.foldl (fun u n _ _ => ?_) hl))
  exact Spares.fset (F := LNK_QLAT_HWM.nth n) 0 (show LNK_QLAT_HWM.blk ≠ .ptn by decide) (Fld.key_ne_of_at (hne n))

theorem Spares.act_tikPeriodEn (hG : G.blk = .tik) (hlo : G.lo % 32 ≠ TIK_PERIOD_EN.lo % 32) :
    Spares G j s (s.act via TIK_PERIOD_EN d w) := by
  have hput : Spares G j s (s.fput TIK_PERIOD_EN d (w.testBit 31)) := Spares.fset _ (by decide) (Fld.key_ne_of_lo (Ne.symm hlo))
  rw [State.act_tikPeriodEn]
  refine Spares.stateOf fun t e => ?_
  cases e
  exact Spares.ite (Spares.regWrite (by rw [hG]; decide) hput) (Spares.refl s)

/-- An acting field leaves the locked fields of its register. -/
theorem Spares.act {F : Fld} {i : Nat} (hF : F ∈ rwlActs ++ rwlMates) (hG : G.blk = F.blk) (hat : G.at_ i = F.at_ i)
    (hlo : F ∈ [LNK_CTRL_EN, TIK_PERIOD_EN] → G.lo % 32 ≠ F.lo % 32) (hi : i < 8) (hl : s.lockedAt (F.at_ i) = true) :
    Spares G i s (s.act via F i w) := by
  rcases List.mem_append.1 hF with hF | hF
  · rw [State.act_locked via w hF hi hl]
    exact Spares.refl s
  · simp only [rwlMates, List.mem_cons, List.not_mem_nil, or_false] at hF
    rcases hF with rfl | rfl | rfl | rfl | rfl | rfl | rfl
    · exact Spares.act_ftlInject hG
    · exact Spares.act_ckptNow hG hat
    · exact Spares.act_nrtInject hG
    · exact Spares.act_lnkEn hG hat (hlo (by decide))
    · exact Spares.act_rekeyNow hG hat
    · exact Spares.act_latClr hG hat hl
    · exact Spares.act_tikPeriodEn hG (hlo (by decide))

end

/-! ### Locked fields (R12) -/

/-- What the register map says of a register with an RWL field `f`: it stands eight times and alone at each place, no field of it that a
write reaches in spite of the lock is one the lock rests on, and the fields that act in it are those listed. -/
theorem allRegs_rwl : ∀ r ∈ allRegs, ∀ f ∈ r.flds, f.acc = .rwl →
    r.insts = 8 ∧ r.reps = 1 ∧ f.fld.blk ∉ [Blk.sys, .pmc, .dpm] ∧ (∀ x ∈ r.flds, x.fld.blk = .ptn → x.acc = .rwl) ∧
      ∀ F ∈ r.acts, F ∈ rwlActs ++ rwlMates ∧ F.blk = f.fld.blk ∧ F.stride = r.stride ∧
        (F ∈ [LNK_CTRL_EN, TIK_PERIOD_EN] → f.fld.lo % 32 ≠ F.lo % 32) := by decide +kernel

theorem Fld.key_notMem_freezeKeys_of_blk {G : Fld} (h : G.blk ≠ .pmc) (j : Nat) : G.key j ∉ freezeKeys := by
  simp only [freezeKeys, List.mem_cons, List.not_mem_nil, or_false, not_or]
  exact ⟨Fld.key_ne _ _ h, Fld.key_ne _ _ h, Fld.key_ne _ _ h⟩

section
variable {s : State} {off w i k : Nat} {r : Reg} {f x : FldRow}

/-- One field of a register written while the lock stands: a locked field is left, and another one is none the lock rests on. -/
theorem Spares.writeField (via : Via) (hr : r ∈ allRegs) (hf : f ∈ r.flds) (hx : x ∈ r.flds) (hacc : f.acc = .rwl)
    (hsys : f.fld.blk ≠ .sys) (hptn : x.fld.blk = .ptn → x.acc = .rwl) (hl : s.lockedAt off = true) :
    Spares (f.fld.nth k) i s (s.writeField via off i k w x) := by
  by_cases ha : x.acc = .rwl
  · rw [State.writeField_locked via i k w ha hl]
    exact Spares.refl s
  · refine Spares.ofRegsOnly (s.writeField_regsOnly via off i k w x) (fun F n e => ?_) ?_
    · have hblk : F.blk ≠ x.fld.blk := fun h => ha (hptn (h.symm.trans e))
      rw [List.mem_cons, not_or]
      exact ⟨Fld.key_ne _ _ hblk, Fld.key_notMem_badFieldKeys_of_blk (by rw [e]; decide) n⟩
    · have hne : x ≠ f := fun e => ha (e ▸ hacc)
      rw [List.mem_cons, not_or]
      exact ⟨Ne.symm (FldRow.key_ne hr hf hx hne i k), Fld.key_notMem_badFieldKeys_of_blk (G := f.fld.nth k) hsys i⟩

/-- A write of a register leaves its locked fields. -/
theorem State.fget_writeReg_locked (via : Via) (h : s.reg? off = some (r, i, k)) (hf : f ∈ r.flds) (hacc : f.acc = .rwl)
    (hl : s.lockedAt off = true) : (s.writeReg via off w r i k).fget (f.fld.nth k) i = s.fget (f.fld.nth k) i := by
  obtain ⟨hr, hat⟩ := State.fld_of_reg? h hf
  obtain ⟨hinst, hreps, hblk, hptn, hacts⟩ := allRegs_rwl r hr f hf hacc
  obtain ⟨hoff, hi, hk⟩ := Reg.at?_eq_some (findReg_eq_some (State.findReg_of_reg? h)).2
  simp only [List.mem_cons, List.not_mem_nil, or_false, not_or] at hblk
  obtain ⟨hsys, hpmc, hdpm⟩ := hblk
  by_cases hheld : s.writeHeld r i w = true
  · unfold State.writeReg
    rw [if_pos hheld]
    split
    · exact s.badField_regsOnly via off _ _ (Fld.key_notMem_badFieldKeys_of_blk (G := f.fld.nth k) hsys i)
    · rfl
  by_cases havs : avsRefused r w = true
  · unfold State.writeReg
    rw [if_neg hheld, if_pos havs]
    split
    · rfl
    · exact s.fget_evtDie_other _ _ _ _ (Fld.key_ne _ _ (Ne.symm hdpm))
  rw [State.writeReg_eq via off k (Bool.eq_false_iff.2 hheld) (Bool.eq_false_iff.2 havs)]
  have hpre : Spares (f.fld.nth k) i s (s.preWrite off r i) := Spares.ofRegsOnly (s.preWrite_regsOnly off r i)
    (fun F n e => Fld.key_notMem_freezeKeys_of_blk (by rw [e]; decide) n) (Fld.key_notMem_freezeKeys_of_blk (G := f.fld.nth k) hpmc i)
  have hflds : ∀ u : State, u.lockedAt off = true →
      Spares (f.fld.nth k) i u ((u.writeFields via off i k w (r.acts ++ takenFlds) r.flds).postWrite r) := fun u hu =>
    Spares.trans (Spares.foldl (fun v x hx hv => Spares.ite (Spares.refl v)
        (Spares.writeField via hr hf hx hacc hsys (hptn x hx) hv)) hu)
      ⟨fun F n _ => State.fget_postWrite _ r F n, State.fget_postWrite _ r _ _⟩
  have hplain := hpre.trans (hflds _ ((hpre.lockedAt off).trans hl))
  have hact : ∀ u F, F ∈ r.acts → u.lockedAt off = true → Spares (f.fld.nth k) i u (u.act via F i w) := by
    intro u F hF hu
    obtain ⟨hmem, hFblk, hFstr, hFlo⟩ := hacts F hF
    have hFoff : F.off = r.off := by simpa using (List.mem_filter.1 hF).2
    have hFat : F.at_ i = off := by
      unfold Fld.at_
      rw [hFoff, hFstr]
      omega
    exact Spares.act hmem hFblk.symm (hat.trans hFat.symm) hFlo (hinst ▸ hi) (hFat ▸ hu)
  exact (hplain.trans (Spares.foldl hact ((hplain.lockedAt off).trans hl))).fld

end

/-- A command that writes a register of its own through a path: a write that changes nothing leaves a field outside HRG. -/
theorem fget_regWrite_same {s : State} {via : Via} {off : Nat} {go : State → State} {G : Fld} {j : Nat} (hG : G.blk ≠ .hrg)
    (h : go s = s) : (regWrite via off s go).fget G j = s.fget G j :=
  (Spares.regWrite hG (by rw [h]; exact Spares.refl s)).fld

section
variable {s : State} {p d : Nat}

theorem runs_ptnDiesWrite_locked (v : Nat) (h : s.locked p = true) : Runs (.ptnDiesWrite p v) s (fun u => u = s) :=
  ⟨s, if_pos (Or.inl h), rfl⟩

theorem runs_tikPeriodWrite_locked (n slots t : Nat) (via : Via) (h : s.locked p = true) :
    Runs (.tikPeriodWrite p n slots t via) s (fun u =>
      u.fget TIK_PERIOD_N p = s.fget TIK_PERIOD_N p ∧ u.fget TIK_PERIOD_SLOTS p = s.fget TIK_PERIOD_SLOTS p) := by
  have hclk : ∀ G : Fld, G.off = 0x10100 → G.stride = 0x40 → (s.advanceTo t).fget G p = s.fget G p := fun G ho hs =>
    s.fget_advanceTo t G p (Fld.key_ne_of_at (by
      have : TIK_HOLD_TIME_HELD.at_ 0 < 0x10100 := by decide
      unfold Fld.at_ at *
      omega))
  have hptn : s.agree (s.advanceTo t) (.regs .ptn) := (s.advanceTo_keeps t).same _ (by decide)
  have hper : (s.advanceTo t).writePeriod p (n % 64) (slots % 4) = s.advanceTo t :=
    if_pos ((State.locked_congr hptn p).trans h)
  have hfld : ∀ G : Fld, G.blk = .tik → G.off = 0x10100 → G.stride = 0x40 → (if p < 8 then
      regWrite via (TIK_PERIOD_N.at_ p) (s.advanceTo t) (fun s => s.writePeriod p (n % 64) (slots % 4))
        else s.advanceTo t).fget G p = s.fget G p := fun G hb ho hs => by
    rw [← hclk G ho hs]
    split
    · exact fget_regWrite_same (by rw [hb]; decide) hper
    · rfl
  exact ⟨_, rfl, hfld _ rfl rfl rfl, hfld _ rfl rfl rfl⟩

theorem runs_pfxEnable_locked (via : Via) (h : s.dieLocked d = true) :
    Runs (.pfxEnable d via) s (fun u => u.fget PFX_CTRL_EN d = s.fget PFX_CTRL_EN d) :=
  ⟨_, rfl, fget_regWrite_same (by decide) (if_pos h)⟩

theorem runs_ftlEnable_locked (via : Via) (en : Bool) (luns : List LunPage) (h : s.dieLocked d = true) :
    Runs (.ftlEnable d en luns via) s (fun u => u.fget FTL_CTRL_EN d = s.fget FTL_CTRL_EN d) :=
  ⟨_, rfl, fget_regWrite_same (by decide) (if_pos h)⟩

end

/-! ### A write in OPEN or FREE -/

/-- The register NRT_CFG of a die. -/
def nrtCfg : Reg := ⟨NRT_CFG_UDP_PORT.off, NRT_CFG_UDP_PORT.stride, 8, 1,
  [⟨NRT_CFG_UDP_PORT, .rwl, 0x0, 0xFFFF⟩, ⟨NRT_CFG_SEG_LOG2, .rw, 0xA, 0xD⟩, ⟨NRT_CFG_RETRY, .rw, 0x0, 0xFF⟩]⟩

theorem findReg_nrtCfg : ∀ d < 8, findReg allRegs (NRT_CFG_UDP_PORT.at_ d) = some (nrtCfg, d, 0) := by decide +kernel

theorem State.reg?_nrtCfg {s : State} {d : Nat} (hd : d < s.nDies) : s.reg? (NRT_CFG_UDP_PORT.at_ d) = some (nrtCfg, d, 0) := by
  have hle := s.nDies_le
  have hd8 : d < 8 := by omega
  have hwin : dieOfOff (NRT_CFG_UDP_PORT.at_ d) = some d := dieOfOff_of_window hd8 (e := 0x60008) (by decide) rfl
  rw [s.reg?_window hwin, if_neg (Nat.not_le.2 hd), findReg_nrtCfg d hd8]

/-- A legal value given to an RWL field that is not locked stands in it. -/
theorem State.fget_writeField_unlocked {s : State} {off : Nat} {x : FldRow} (via : Via) (i k w : Nat) (hx : x.acc = .rwl)
    (h : s.lockedAt off = false) (hin : x.min ≤ (x.fld.nth k).bitsIn w ∧ (x.fld.nth k).bitsIn w ≤ x.max) :
    (s.writeField via off i k w x).fget (x.fld.nth k) i = (x.fld.nth k).bitsIn w := by
  unfold State.writeField
  rw [hx]
  dsimp only
  rw [h, if_neg Bool.false_ne_true, if_pos hin, State.fget_setField, State.fget_fset_self]
  exact Nat.mod_mod _ _

theorem State.lockedAt_writeField {s : State} {x : FldRow} (via : Via) (off i k w : Nat) (hx : x.fld.blk ≠ .ptn) :
    (s.writeField via off i k w x).lockedAt off = s.lockedAt off :=
  State.lockedAt_congr (fun F n e => s.writeField_regsOnly via off i k w x F n (by
    rw [List.mem_cons, not_or]
    exact ⟨Fld.key_ne _ _ (fun h => hx (h.symm.trans e)), Fld.key_notMem_badFieldKeys_of_blk (by rw [e]; decide) n⟩)) off

/-- An RWL field that is not locked takes a legal value, whatever the other fields of its register are given. -/
theorem State.fget_writeFields_unlocked {s : State} {off i k w : Nat} {r : Reg} {f : FldRow} {skip : List Fld} (via : Via)
    (hr : r ∈ allRegs) (hf : f ∈ r.flds) (hacc : f.acc = .rwl) (hskip : skip.contains f.fld = false)
    (hin : f.min ≤ (f.fld.nth k).bitsIn w ∧ (f.fld.nth k).bitsIn w ≤ f.max) (hsys : f.fld.blk ≠ .sys)
    (hptn : ∀ x ∈ r.flds, x.fld.blk ≠ .ptn) (hl : s.lockedAt off = false) :
    (s.writeFields via off i k w skip r.flds).fget (f.fld.nth k) i = (f.fld.nth k).bitsIn w := by
  obtain ⟨l₁, l₂, hsplit⟩ := List.append_of_mem hf
  have hmem₁ : ∀ x ∈ l₁, x ∈ r.flds := fun x hx => hsplit ▸ List.mem_append_left _ hx
  have hmem₂ : ∀ x ∈ l₂, x ∈ r.flds := fun x hx => hsplit ▸ List.mem_append_right _ (List.mem_cons_of_mem _ hx)
  have hlock : ∀ u : State, u.lockedAt off = false → ∀ x ∈ r.flds, (u.writeField via off i k w x).lockedAt off = false :=
    fun u hu x hx => (State.lockedAt_writeField via off i k w (hptn x hx)).trans hu
  have htake : ∀ u : State, u.lockedAt off = false → (u.writeField via off i k w f).fget (f.fld.nth k) i = (f.fld.nth k).bitsIn w :=
    fun u hu => State.fget_writeField_unlocked via i k w hacc hu hin
  have hbefore : (s.writeFields via off i k w skip l₁).lockedAt off = false :=
    State.writeFields_induct (P := fun u => u.lockedAt off = false) hl fun u hu x hx _ => hlock u hu x (hmem₁ x hx)
  rw [hsplit, State.writeFields_append_cons _ _ _ _ _ _ _ _ hskip]
  refine (State.writeFields_induct
    (P := fun u => u.lockedAt off = false ∧ u.fget (f.fld.nth k) i = (f.fld.nth k).bitsIn w)
    ⟨hlock _ hbefore f hf, htake _ hbefore⟩ fun u ⟨hu, hv⟩ x hx _ => ⟨hlock u hu x (hmem₂ x hx), ?_⟩).2
  by_cases e : x = f
  · rw [e]
    exact htake u hu
  · refine (u.writeField_regsOnly via off i k w x _ _ ?_).trans hv
    rw [List.mem_cons, not_or]
    exact ⟨Ne.symm (FldRow.key_ne hr hf (hmem₂ x hx) e i k), Fld.key_notMem_badFieldKeys_of_blk (G := f.fld.nth k) hsys i⟩

/-- A write of NRT_CFG meets no condition of R316, R454, R525 or R574, and nothing is brought up to date for it. -/
theorem nrtCfg_unconditional (s : State) (d w off : Nat) :
    s.writeHeld nrtCfg d w = false ∧ avsRefused nrtCfg w = false ∧ s.preWrite off nrtCfg d = s := by
  have hoff : nrtCfg.off = 0x1060008 := rfl
  refine ⟨?_, ?_, ?_⟩
  · simp [State.writeHeld, hoff, MEM_REFRESH_HOT_C, NRT_MAC_LO_ADDR_LO, NRT_MAC_HI_ADDR_HI, NRT_GW_LO_ADDR_LO, NRT_GW_HI_ADDR_HI,
      NRT_IP6_ADDR, NRT_IP4_ADDR, HRG_ASQ_LO_BASE_LO, HRG_ASQ_HI_BASE_HI, HRG_ACQ_LO_BASE_LO, HRG_ACQ_HI_BASE_HI, HRG_ASIZE_ACQ_VEC,
      SEC_MBOX_ADDR_LO_ADDR_LO, SEC_MBOX_ADDR_HI_ADDR_HI, SEC_MBOX_LEN_BYTES]
  · simp [avsRefused, hoff, DPM_AVS_CAS_VMIN, DPM_AVS_LOG_VMIN]
  · simp [State.preWrite, hoff, PMC_CTRL_FREEZE, PMC_FREEZE_AT_LO_T_NS, PMC_FREEZE_AT_HI_T_NS]

/-- A legal value given to UDP_PORT of NRT_CFG while its die is not locked takes effect, whatever the other fields are given. -/
theorem State.fget_writeReg_udpPort {s : State} {d : Nat} (via : Via) (w : Nat) (h : s.lockedAt (NRT_CFG_UDP_PORT.at_ d) = false) :
    (s.writeReg via (NRT_CFG_UDP_PORT.at_ d) w nrtCfg d 0).fget NRT_CFG_UDP_PORT d = NRT_CFG_UDP_PORT.bitsIn w := by
  have hacts : nrtCfg.acts = [] := by decide
  have hmem : nrtCfg ∈ allRegs := (findReg_eq_some (findReg_nrtCfg 0 (by decide))).1
  have hport : NRT_CFG_UDP_PORT.bitsIn w ≤ 0xFFFF := by
    show w / 2 ^ 16 % 2 ^ 16 ≤ 0xFFFF
    omega
  obtain ⟨hheld, havs, hpre⟩ := nrtCfg_unconditional s d w (NRT_CFG_UDP_PORT.at_ d)
  rw [State.writeReg_eq via _ 0 hheld havs, hacts, List.foldl_nil, State.fget_postWrite, hpre]
  exact State.fget_writeFields_unlocked (f := ⟨NRT_CFG_UDP_PORT, .rwl, 0x0, 0xFFFF⟩) via hmem (by decide) rfl (by decide)
    ⟨Nat.zero_le _, hport⟩ (by decide) (by decide) h

/-- Settles O45: a locked field is skipped when its register is written, what acts in its register leaves it, and the commands that
write an RWL field by name change nothing while the lock stands. -/
theorem lockedFieldsKeepTheirValue : Obligations.LockedFieldsKeepTheirValue := by
  unfold Obligations.LockedFieldsKeepTheirValue
  refine ⟨?_, fun s p v h => ?_, fun s p n slots t via h => runs_tikPeriodWrite_locked n slots t via h,
    fun s via d h => runs_pfxEnable_locked via h, fun s via d en luns h => runs_ftlEnable_locked via en luns h,
    fun s p => s.locked_iff p, ?_⟩
  · intro s via off w n k r f hv hb hr hf hacc hl
    by_cases ha : off % 4 = 0
    · exact runs_registerWrite ha hb hv hr (State.fget_writeReg_locked via hr hf hacc hl)
    · exact ⟨s, if_pos ha, rfl⟩
  · obtain ⟨t, he, rfl⟩ := runs_ptnDiesWrite_locked v h
    exact ⟨t, he, rfl⟩
  · intro s via d w hv hd hl
    have hat : NRT_CFG_UDP_PORT.at_ d = 0x1060008 + d * 0x400000 := rfl
    have hmod : NRT_CFG_UDP_PORT.bitsIn (w % 2 ^ 32) = NRT_CFG_UDP_PORT.bitsIn w := by
      show w % 2 ^ 32 / 2 ^ 16 % 2 ^ 16 = w / 2 ^ 16 % 2 ^ 16
      omega
    have hdies := s.nDies_le
    refine runs_registerWrite (by rw [hat]; omega) (by rw [hat]; unfold bar2; omega) hv (State.reg?_nrtCfg hd) ?_
    rw [← hmod]
    exact State.fget_writeReg_udpPort via _ hl

end Sys2Proof.Machine
end

section
/-!
The time discipline, the time registers, tick edges and slot boundaries, and the debt of late sweeps (R18 to R56, R586, R594, R595).
-/
namespace Sys2Proof.Machine
set_option Elab.async false

/-! ### Register fields named by a list of keys -/

section
variable {s t : State} {l : List Nat}

theorem RegsOnly.refl (s : State) (l : List Nat) : RegsOnly s s l := fun _ _ _ => rfl

/-- An update that leaves every field outside the list. -/
theorem RegsOnly.trans {u : State} (h : RegsOnly s t l) (k : RegsOnly t u l) : RegsOnly s u l := fun G j hG => (k G j hG).trans (h G j hG)

theorem RegsOnly.mono {k : List Nat} (h : RegsOnly s t k) (hk : k ⊆ l) : RegsOnly s t l := fun G j hG => h G j fun e => hG (hk e)

theorem State.fset_regsOnly (s : State) (F : Fld) (i v : Nat) : RegsOnly s (s.fset F i v) [F.key i] := fun _ _ hG =>
  s.fget_fset_other _ _ _ _ _ (key_ne_of_notMem hG List.mem_cons_self)

theorem State.evtPkg_regsOnly (s : State) (F : Fld) : RegsOnly s (s.evtPkg F) [F.key 0] := fun _ _ hG =>
  s.fget_evtPkg_other _ _ _ (key_ne_of_notMem hG List.mem_cons_self)

theorem State.advanceTo_regsOnly (s : State) (t : Nat) : RegsOnly s (s.advanceTo t) [TIK_HOLD_TIME_HELD.key 0] := fun _ _ hG =>
  s.fget_advanceTo _ _ _ (key_ne_of_notMem hG List.mem_cons_self)

theorem RegsOnly.fset {F : Fld} {i : Nat} (h : RegsOnly s t l) (v : Nat) (hF : F.key i ∈ l) : RegsOnly s (t.fset F i v) l :=
  h.trans ((t.fset_regsOnly F i v).mono (List.cons_subset.2 ⟨hF, List.nil_subset _⟩))

theorem RegsOnly.evtPkg {F : Fld} (h : RegsOnly s t l) (hF : F.key 0 ∈ l) : RegsOnly s (t.evtPkg F) l :=
  h.trans ((t.evtPkg_regsOnly F).mono (List.cons_subset.2 ⟨hF, List.nil_subset _⟩))

end

/-! ### The clock replaced -/

/-- The state with another clock. -/
def State.withClk (s : State) (k : Clock) : State := { s with clk := k }

@[simp] theorem State.withClk_clk (s : State) (k : Clock) : (s.withClk k).clk = k := rfl
@[simp] theorem State.withClk_fget (s : State) (k : Clock) (G : Fld) (j : Nat) : (s.withClk k).fget G j = s.fget G j := rfl

theorem RegsOnly.withClk {s t : State} {l : List Nat} (h : RegsOnly s t l) (k : Clock) : RegsOnly s (t.withClk k) l := h

theorem State.evtPkg_clk (s : State) (F : Fld) : (s.evtPkg F).clk = s.clk := by
  refine (s.evtPkg_keeps F).same .clk ?_
  have hbit : F.bit.testBit 4 = false := by
    rw [Fld.bit, Nat.testBit_two_pow]
    exact decide_eq_false (by omega)
  show (F.bit ||| 0x21).testBit 4 = false
  rw [Nat.testBit_or, hbit]
  rfl

/-! ### What a command that carries an instant finds (R18) -/

section
variable (s : State) (t : Nat)

theorem State.advanceTo_parts : (s.advanceTo t).parts = s.parts := (s.advanceTo_keeps t).same .parts (by decide)

@[simp] theorem State.advanceTo_part (p : Nat) : (s.advanceTo t).part p = s.part p := by
  unfold State.part
  rw [State.advanceTo_parts]

/-- Of the clock only the counter, the correction and the hold time move on the way to an instant. -/
theorem State.advanceTo_clk_congr {α : Type} (f : Clock → α)
    (hf : ∀ (k : Clock) n sub c h, f { k with tNs := n, sub := sub, corr := c, holdNs := h } = f k) : f (s.advanceTo t).clk = f s.clk := by
  unfold State.advanceTo
  split
  · show f ((s.holdCount (t - s.clk.tNs)).clk.reach t) = f s.clk
    unfold State.holdCount
    split
    · exact hf s.clk _ _ _ _
    · exact hf s.clk _ _ _ _
  · rfl

/-- The hold time does not fall. -/
theorem State.holdNs_le_advanceTo : s.clk.holdNs ≤ (s.advanceTo t).clk.holdNs := by
  unfold State.advanceTo
  split
  · show s.clk.holdNs ≤ (s.holdCount (t - s.clk.tNs)).clk.holdNs
    unfold State.holdCount
    split
    · exact Nat.le_add_right _ _
    · exact Nat.le_refl _
  · exact Nat.le_refl _

end

/-! ### The states of the discipline (R22) -/

section
variable (s : State)

theorem State.discTo_free : s.discTo discFree = (s.fset TIK_STATUS_STATE 0 discFree).withClk
    { s.clk with inLock := 0, measured := false, adj := 0, corr := 0, holding := false, searching := false } := rfl

theorem State.discTo_acq : s.discTo discAcq =
    (s.fset TIK_STATUS_STATE 0 discAcq).withClk { s.clk with inLock := 0, searching := false } := rfl

theorem State.discTo_locked : s.discTo discLocked = (((s.fset TIK_STATUS_STATE 0 discLocked).fset TIK_HOLD_TIME_HELD 0 0).withClk
    { s.clk with lockedEver := true, holding := false, holdNs := 0 }).evtPkg TIK_EVENT_LOCK := rfl

theorem State.discTo_hold : s.discTo discHold =
    ((s.fset TIK_STATUS_STATE 0 discHold).withClk { s.clk with holding := true }).evtPkg TIK_EVENT_HOLDOVER := rfl

theorem State.discTo_unsync : s.discTo discUnsync =
    ((s.fset TIK_STATUS_STATE 0 discUnsync).withClk { s.clk with holding := true }).evtPkg TIK_EVENT_UNSYNC := rfl

/-- The field that a state of the discipline sets beside TIK_STATUS: its event bit, and in LOCKED TIK_HOLD_TIME. -/
def discKeys (st : Nat) : List Nat :=
  if st = discLocked then [TIK_HOLD_TIME_HELD.key 0, TIK_EVENT_LOCK.key 0]
  else if st = discHold then [TIK_EVENT_HOLDOVER.key 0]
  else if st = discUnsync then [TIK_EVENT_UNSYNC.key 0]
  else []

theorem disc_cases {st : Nat} (h : st ≤ discUnsync) :
    st = discFree ∨ st = discAcq ∨ st = discLocked ∨ st = discHold ∨ st = discUnsync := by
  unfold discFree discAcq discLocked discHold discUnsync at *
  omega

theorem State.discTo_regsOnly {st : Nat} (h : st ≤ discUnsync) : RegsOnly s (s.discTo st) (TIK_STATUS_STATE.key 0 :: discKeys st) := by
  have hst : RegsOnly s (s.fset TIK_STATUS_STATE 0 st) (TIK_STATUS_STATE.key 0 :: discKeys st) :=
    (RegsOnly.refl _ _).fset _ List.mem_cons_self
  rcases disc_cases h with rfl | rfl | rfl | rfl | rfl
  · rw [State.discTo_free]
    exact hst.withClk _
  · rw [State.discTo_acq]
    exact hst.withClk _
  · rw [State.discTo_locked]
    exact ((hst.fset _ (by decide)).withClk _).evtPkg (by decide)
  · rw [State.discTo_hold]
    exact (hst.withClk _).evtPkg (by decide)
  · rw [State.discTo_unsync]
    exact (hst.withClk _).evtPkg (by decide)

theorem State.fget_discTo_state {st : Nat} (h : st ≤ discUnsync) : (s.discTo st).fget TIK_STATUS_STATE 0 = st := by
  have hst : (s.fset TIK_STATUS_STATE 0 st).fget TIK_STATUS_STATE 0 = st :=
    (s.fget_fset_self _ _ _).trans (Nat.mod_eq_of_lt (Nat.lt_of_le_of_lt h (by decide)))
  rcases disc_cases h with rfl | rfl | rfl | rfl | rfl
  · rw [State.discTo_free, State.withClk_fget, hst]
  · rw [State.discTo_acq, State.withClk_fget, hst]
  · rw [State.discTo_locked, State.fget_evtPkg_other _ _ _ _ (by decide), State.withClk_fget,
      State.fget_fset_other _ _ _ _ _ _ (by decide), hst]
  · rw [State.discTo_hold, State.fget_evtPkg_other _ _ _ _ (by decide), State.withClk_fget, hst]
  · rw [State.discTo_unsync, State.fget_evtPkg_other _ _ _ _ (by decide), State.withClk_fget, hst]

end

/-! ### Messages and timers of the discipline (R21, R22, R24, R26) -/

section
variable {s : State} {t : Nat}

/-- The active port loses its time transmitter in LOCKED: the discipline holds over and a search begins. -/
theorem State.ptpLost_locked (h : s.fget TIK_STATUS_STATE 0 = discLocked) : s.ptpLost = (s.discTo discHold).loseSource := by
  unfold State.ptpLost
  rw [h]
  rfl

theorem runs_announceTimeout_locked (hst : s.fget TIK_STATUS_STATE 0 = discLocked) (ht : s.clk.annAt + 3 * s.clk.annNs ≤ t) :
    Runs (.announceTimeout t) s (fun u => u = ((s.advanceTo t).discTo discHold).loseSource) := by
  have hat : (s.advanceTo t).clk.annAt + 3 * (s.advanceTo t).clk.annNs = s.clk.annAt + 3 * s.clk.annNs :=
    s.advanceTo_clk_congr t (fun k => k.annAt + 3 * k.annNs) fun _ _ _ _ _ => rfl
  have hlate : ¬ (s.advanceTo t).clk.tNs < (s.advanceTo t).clk.annAt + 3 * (s.advanceTo t).clk.annNs := by
    rw [hat, s.advanceTo_tNs]
    omega
  refine ⟨_, ?_, rfl⟩
  show execAnnounceTimeout t s = _
  unfold execAnnounceTimeout
  rw [if_neg hlate, State.ptpLost_locked ((s.fget_advanceTo t TIK_STATUS_STATE 0 (by decide)).trans hst)]

/-- R22: the third announce interval without a message. -/
theorem announceTimeout_holds (hst : s.fget TIK_STATUS_STATE 0 = discLocked) (ht : s.clk.annAt + 3 * s.clk.annNs ≤ t) :
    Runs (.announceTimeout t) s (fun u => u.fget TIK_STATUS_STATE 0 = discHold ∧ Raised u TIK_EVENT_HOLDOVER 0 ∧ u.clk.holding = true ∧
      RegsOnly s u [TIK_STATUS_STATE.key 0, TIK_HOLD_TIME_HELD.key 0, TIK_EVENT_HOLDOVER.key 0]) := by
  obtain ⟨u, hu, rfl⟩ := runs_announceTimeout_locked hst ht
  refine ⟨_, hu, State.fget_discTo_state _ (by decide), ?_, ?_, ?_⟩
  · exact State.fget_evtPkg_self _ _ (by decide)
  · show ((s.advanceTo t).discTo discHold).clk.holding = true
    rw [State.discTo_hold, State.evtPkg_clk]
    rfl
  · exact ((s.advanceTo_regsOnly t).mono (by decide)).trans ((State.discTo_regsOnly _ (by decide)).mono (by decide))

/-- A time transmitter heard on port `d`, which becomes the active one (R22, R26). -/
def State.heardOn (s : State) (d : Nat) (k : Int) : State :=
  ({ s with clk := { s.clk with annLog := k, annAt := s.clk.tNs } } : State).fset TIK_STATUS_SRC_ACT 0 d

theorem State.heardOn_regsOnly (s : State) (d : Nat) (k : Int) : RegsOnly s (s.heardOn d k) [TIK_STATUS_SRC_ACT.key 0] :=
  State.fset_regsOnly { s with clk := { s.clk with annLog := k, annAt := s.clk.tNs } } _ _ _

theorem State.fget_heardOn (s : State) {d : Nat} (k : Int) (h : d < 8) : (s.heardOn d k).fget TIK_STATUS_SRC_ACT 0 = d :=
  (State.fget_fset_self _ _ _ _).trans (Nat.mod_eq_of_lt h)

/-- R21, R26: the discipline leaves FREE_RUN on the port of SRC_DIE. -/
theorem ptpAnnounceRx_leavesFreeRun {d dom : Nat} {k : Int} (hst : s.fget TIK_STATUS_STATE 0 = discFree)
    (hen : s.fget TIK_CTRL_DISC_EN 0 ≠ 0) (hd : d = s.fget TIK_CTRL_SRC_DIE 0) (hd8 : d < 8) (hdom : dom = s.fget TIK_PTP_CFG_DOMAIN 0) :
    Runs (.ptpAnnounceRx d dom k t) s (fun u => u.fget TIK_STATUS_STATE 0 = discAcq ∧ u.fget TIK_STATUS_SRC_ACT 0 = d ∧
      u.clk.annAt = max s.clk.tNs t ∧ u.clk.annLog = k ∧
      RegsOnly s u [TIK_STATUS_STATE.key 0, TIK_STATUS_SRC_ACT.key 0, TIK_HOLD_TIME_HELD.key 0]) := by
  have hst' : (s.advanceTo t).fget TIK_STATUS_STATE 0 = discFree := (s.fget_advanceTo t TIK_STATUS_STATE 0 (by decide)).trans hst
  have hsrc : (s.advanceTo t).fget TIK_CTRL_SRC_DIE 0 = d := (s.fget_advanceTo t TIK_CTRL_SRC_DIE 0 (by decide)).trans hd.symm
  have hdom' : (s.advanceTo t).fget TIK_PTP_CFG_DOMAIN 0 = dom := (s.fget_advanceTo t TIK_PTP_CFG_DOMAIN 0 (by decide)).trans hdom.symm
  have hen' : (s.advanceTo t).fbit TIK_CTRL_DISC_EN 0 = true :=
    (State.fbit_iff _ _ _).2 (by rwa [s.fget_advanceTo t TIK_CTRL_DISC_EN 0 (by decide)])
  have hrun : exec (.ptpAnnounceRx d dom k t) s = .next (((s.advanceTo t).heardOn d k).discTo discAcq) := by
    show execPtpAnnounceRx d dom k t s = _
    unfold execPtpAnnounceRx
    simp only [hst', hsrc, hdom', hen']
    exact (if_neg (by simp)).trans (congrArg _ (if_neg (by decide)))
  refine ⟨_, hrun, State.fget_discTo_state _ (by decide), ?_, s.advanceTo_tNs t, rfl, ?_⟩
  · exact (State.discTo_regsOnly _ (by decide) TIK_STATUS_SRC_ACT 0 (by decide)).trans (State.fget_heardOn _ k hd8)
  · exact ((s.advanceTo_regsOnly t).mono (by decide)).trans
      (((State.heardOn_regsOnly _ d k).mono (by decide)).trans ((State.discTo_regsOnly _ (by decide)).mono (by decide)))

/-- R22: TIK_HOLD_TIME beyond TIK_HOLD_LIMIT. -/
theorem holdLimitExpiry_unsyncs (hst : s.fget TIK_STATUS_STATE 0 = discHold)
    (hlim : s.fget TIK_HOLD_LIMIT_LIMIT 0 * secNs < s.clk.holdNs) :
    Runs (.holdLimitExpiry t) s (fun u => u.fget TIK_STATUS_STATE 0 = discUnsync ∧ Raised u TIK_EVENT_UNSYNC 0 ∧
      RegsOnly s u [TIK_STATUS_STATE.key 0, TIK_HOLD_TIME_HELD.key 0, TIK_EVENT_UNSYNC.key 0]) := by
  let a := s.advanceTo t
  have hst' : a.fget TIK_STATUS_STATE 0 = discHold := (s.fget_advanceTo t TIK_STATUS_STATE 0 (by decide)).trans hst
  have hover : a.holdOver = true := by
    refine decide_eq_true ?_
    rw [s.fget_advanceTo t TIK_HOLD_LIMIT_LIMIT 0 (by decide)]
    exact Nat.lt_of_lt_of_le hlim (s.holdNs_le_advanceTo t)
  have hrun : exec (.holdLimitExpiry t) s =
      .next ((a.discTo discUnsync).withClk { (a.discTo discUnsync).clk with searching := a.clk.searching }) := by
    show execHoldLimitExpiry t s = _
    unfold execHoldLimitExpiry
    exact if_pos ⟨hst', hover⟩
  refine ⟨_, hrun, a.fget_discTo_state (by decide), State.fget_evtPkg_self _ _ (by decide), ?_⟩
  exact ((s.advanceTo_regsOnly t).mono (by decide)).trans (RegsOnly.withClk ((a.discTo_regsOnly (by decide)).mono (by decide)) _)

/-- The search goes by TIK_CTRL, TIK_STATUS and the dies of the part. -/
theorem State.searchFinds_advanceTo (s : State) (t : Nat) (heard : List (Nat × Int)) :
    (s.advanceTo t).searchFinds heard = s.searchFinds heard := by
  have hn : (s.advanceTo t).nDies = s.nDies := congrArg Variant.dies (s.advanceTo_keeps t).variant
  unfold State.searchFinds State.searchOrder
  rw [hn, s.fget_advanceTo t TIK_STATUS_SRC_ACT 0 (by decide), s.fget_advanceTo t TIK_CTRL_SRC_DIE 0 (by decide)]

/-- R26: the search ends at the first port in its order on which a time transmitter is heard. -/
theorem srcChange_acquires {heard : List (Nat × Int)} {d : Nat} {k : Int} (hs : s.clk.searching = true)
    (hf : s.fbit TIK_CTRL_FAILOVER 0 = true) (hfind : s.searchFinds heard = some (d, k)) (hd8 : d < 8) :
    Runs (.srcChange heard t) s (fun u => u.fget TIK_STATUS_SRC_ACT 0 = d ∧ u.clk.annLog = k ∧ u.clk.annAt = max s.clk.tNs t ∧
      u.clk.searching = false ∧ u.fget TIK_STATUS_STATE 0 = discAcq ∧ Raised u TIK_EVENT_SRC_CHANGE 0 ∧
      RegsOnly s u [TIK_STATUS_STATE.key 0, TIK_STATUS_SRC_ACT.key 0, TIK_HOLD_TIME_HELD.key 0, TIK_EVENT_SRC_CHANGE.key 0]) := by
  have hs' : (s.advanceTo t).clk.searching = true := (s.advanceTo_clk_congr t (·.searching) fun _ _ _ _ _ => rfl).trans hs
  have hf' : (s.advanceTo t).fbit TIK_CTRL_FAILOVER 0 = true := by
    unfold State.fbit at hf ⊢
    rwa [s.fget_advanceTo t TIK_CTRL_FAILOVER 0 (by decide)]
  have hrun : exec (.srcChange heard t) s =
      .next ((((s.advanceTo t).heardOn d k).evtPkg TIK_EVENT_SRC_CHANGE).discTo discAcq) := by
    show execSrcChange heard t s = _
    unfold execSrcChange
    simp only [hs', hf', s.searchFinds_advanceTo, hfind, State.heardOn, Bool.not_true, Bool.or_false, Bool.false_eq_true, if_false]
  generalize hw : (s.advanceTo t).heardOn d k = w at hrun
  have hclk : ((w.evtPkg TIK_EVENT_SRC_CHANGE).discTo discAcq).clk = { w.clk with inLock := 0, searching := false } := by
    rw [State.discTo_acq, State.withClk_clk, State.evtPkg_clk]
  have hother : ∀ (G : Fld) (j : Nat), TIK_STATUS_STATE.key 0 ≠ G.key j →
      ((w.evtPkg TIK_EVENT_SRC_CHANGE).discTo discAcq).fget G j = (w.evtPkg TIK_EVENT_SRC_CHANGE).fget G j := fun G j h =>
    State.discTo_regsOnly _ (by decide) G j (fun e => h (List.mem_singleton.1 e).symm)
  refine ⟨_, hrun, ?_, ?_, ?_, ?_, State.fget_discTo_state _ (by decide), ?_, ?_⟩
  · rw [hother _ _ (by decide), State.fget_evtPkg_other _ _ _ _ (by decide), ← hw, State.fget_heardOn _ k hd8]
  · rw [hclk, ← hw]
    rfl
  · rw [hclk, ← hw]
    exact s.advanceTo_tNs t
  · rw [hclk]
  · unfold Raised
    rw [hother _ _ (by decide)]
    exact w.fget_evtPkg_self _ (by decide)
  · have hheard : RegsOnly s w [TIK_STATUS_SRC_ACT.key 0, TIK_HOLD_TIME_HELD.key 0] :=
      hw ▸ ((s.advanceTo_regsOnly t).mono (by decide)).trans ((State.heardOn_regsOnly _ d k).mono (by decide))
    exact ((hheard.mono (by decide)).evtPkg (by decide)).trans ((State.discTo_regsOnly _ (by decide)).mono (by decide))

/-- An offset that TIK_OFFSET holds is stored in two's complement (R24). -/
theorem offset_word {o : Int} (hlo : -2147483648 ≤ o) (hhi : o < 2147483648) :
    (max (-2147483648) (min 2147483647 o) + 4294967296).toNat % 2 ^ 32 = (o % 4294967296).toNat := by
  omega

/-- Offsets in a row within LOCK_NS, with one more of `o` (R21). -/
def State.inLockWith (s : State) (o : Int) : Nat := if decide (o.natAbs ≤ s.fget TIK_PTP_CFG_LOCK_NS 0) then s.clk.inLock + 1 else 0

theorem State.sixteen_le_inLockWith (s : State) (o : Int) :
    16 ≤ s.inLockWith o ↔ o.natAbs ≤ s.fget TIK_PTP_CFG_LOCK_NS 0 ∧ 15 ≤ s.clk.inLock := by
  unfold State.inLockWith
  split <;> simp_all

/-- The offset `o` measured, and the servo's next rate (R21, R23, R24). -/
def State.measuredAs (s : State) (o : Int) : State :=
  let v := s.draw.2.fset TIK_OFFSET_OFFSET 0 ((max (-2147483648) (min 2147483647 o) + 4294967296).toNat % 2 ^ 32)
  { v with clk := { v.clk with measured := true, off := o, corr := 0, inLock := s.inLockWith o, adj := v.slew (Config.servo s.free) } }

theorem State.measuredAs_regsOnly (s : State) (o : Int) : RegsOnly s (s.measuredAs o) [TIK_OFFSET_OFFSET.key 0] :=
  State.fset_regsOnly s.draw.2 _ _ _

theorem State.fget_measuredAs (s : State) {o : Int} (hlo : -2147483648 ≤ o) (hhi : o < 2147483648) :
    (s.measuredAs o).fget TIK_OFFSET_OFFSET 0 = (o % 4294967296).toNat := by
  refine (s.draw.2.fget_fset_self TIK_OFFSET_OFFSET 0 _).trans ?_
  rw [show TIK_OFFSET_OFFSET.w = 32 from rfl, Nat.mod_mod, offset_word hlo hhi]

/-- R21, R23, R24: a Sync message on the active port in ACQUIRING. -/
theorem exec_ptpSyncRx {d : Nat} {o : Int} (hst : s.fget TIK_STATUS_STATE 0 = discAcq) (hd : d = s.fget TIK_STATUS_SRC_ACT 0) :
    exec (.ptpSyncRx d o t) s = .next (if 16 ≤ (s.advanceTo t).inLockWith o then ((s.advanceTo t).measuredAs o).discTo discLocked
      else (s.advanceTo t).measuredAs o) := by
  have hst' : (s.advanceTo t).fget TIK_STATUS_STATE 0 = discAcq := (s.fget_advanceTo t TIK_STATUS_STATE 0 (by decide)).trans hst
  have hd' : (s.advanceTo t).fget TIK_STATUS_SRC_ACT 0 = d := (s.fget_advanceTo t TIK_STATUS_SRC_ACT 0 (by decide)).trans hd.symm
  show execPtpSyncRx d o t s = _
  unfold execPtpSyncRx
  simp only [hst', hd']
  refine (if_neg (by simp)).trans ?_
  simp only [true_and]
  rfl

/-- R21, R24: OFFSET is measured, and the sixteenth offset in a row within LOCK_NS locks. -/
theorem ptpSyncRx_measures {d : Nat} {o : Int} (hst : s.fget TIK_STATUS_STATE 0 = discAcq) (hd : d = s.fget TIK_STATUS_SRC_ACT 0)
    (hlo : -2147483648 ≤ o) (hhi : o < 2147483648) :
    Runs (.ptpSyncRx d o t) s (fun u => u.fget TIK_OFFSET_OFFSET 0 = (o % 4294967296).toNat ∧ u.clk.measured = true ∧
      (if o.natAbs ≤ s.fget TIK_PTP_CFG_LOCK_NS 0 ∧ 15 ≤ s.clk.inLock then
        u.fget TIK_STATUS_STATE 0 = discLocked ∧ Raised u TIK_EVENT_LOCK 0
      else u.fget TIK_STATUS_STATE 0 = discAcq) ∧
      RegsOnly s u [TIK_OFFSET_OFFSET.key 0, TIK_STATUS_STATE.key 0, TIK_HOLD_TIME_HELD.key 0, TIK_EVENT_LOCK.key 0]) := by
  have hlock : (o.natAbs ≤ s.fget TIK_PTP_CFG_LOCK_NS 0 ∧ 15 ≤ s.clk.inLock) ↔ 16 ≤ (s.advanceTo t).inLockWith o := by
    rw [State.sixteen_le_inLockWith, s.fget_advanceTo t TIK_PTP_CFG_LOCK_NS 0 (by decide),
      s.advanceTo_clk_congr t (·.inLock) fun _ _ _ _ _ => rfl]
  have hmeas : RegsOnly s ((s.advanceTo t).measuredAs o) [TIK_OFFSET_OFFSET.key 0, TIK_HOLD_TIME_HELD.key 0] :=
    ((s.advanceTo_regsOnly t).mono (by decide)).trans ((State.measuredAs_regsOnly _ o).mono (by decide))
  have hoff := (s.advanceTo t).fget_measuredAs hlo hhi
  have hrun := exec_ptpSyncRx (t := t) (o := o) hst hd
  simp only [hlock]
  split at hrun
  next hk =>
    refine ⟨_, hrun, (State.discTo_regsOnly _ (by decide) TIK_OFFSET_OFFSET 0 (by decide)).trans hoff, ?_, ?_, ?_⟩
    · rw [State.discTo_locked, State.evtPkg_clk]
      rfl
    · rw [if_pos hk]
      exact ⟨State.fget_discTo_state _ (by decide), State.fget_evtPkg_self _ _ (by decide)⟩
    · exact (hmeas.mono (by decide)).trans ((State.discTo_regsOnly _ (by decide)).mono (by decide))
  next hk =>
    refine ⟨_, hrun, hoff, rfl, ?_, hmeas.mono (by decide)⟩
    rw [if_neg hk, hmeas TIK_STATUS_STATE 0 (by decide), hst]

end

/-- Settles O1: each message and timer is one transition of the discipline from the state found at its instant. -/
theorem disciplineFollowsMessagesAndTimers : Obligations.DisciplineFollowsMessagesAndTimers := by
  unfold Obligations.DisciplineFollowsMessagesAndTimers
  exact ⟨fun s d dom k t hst hen hd hd8 hdom => ptpAnnounceRx_leavesFreeRun hst hen hd hd8 hdom,
    fun s d o t hst hd hlo hhi => ptpSyncRx_measures hst hd hlo hhi,
    fun s t hst ht => announceTimeout_holds hst ht,
    fun s t hst hlim => holdLimitExpiry_unsyncs hst hlim,
    fun s heard d k t hs hf hfind hd8 => srcChange_acquires hs hf hfind hd8⟩

end Sys2Proof.Machine
end

section
/-!
The time registers, the step of the counter and the reference clock (R22, R24, R56, R586), the queue of commands (log entry 1) and the
debt of late sweeps (R51).
-/
namespace Sys2Proof.Machine
set_option Elab.async false

/-! ### Registers reached by a path (R310) -/

section
variable {s : State} {via : Via} {off : Nat}

/-- A write by a path that reaches the register. -/
theorem regWrite_reaches {go : State → State} (h : MayWrite via off s) : regWrite via off s go = go s := by
  unfold Machine.regWrite
  cases via with
  | pf x => rfl
  | console => rfl
  | vf f => exact if_pos (h f rfl)

/-- A read by a path that reaches the register: the value goes out. -/
theorem regRead_reaches {go : State → Nat × State} (h : MayRead via off s) :
    regRead via off s go = (go s).2.emit (.regValue off (BitVec.ofNat 32 (go s).1)) := by
  unfold Machine.regRead
  cases via with
  | pf x => rfl
  | console => rfl
  | vf f => exact if_neg (h f rfl)

end

/-! ### The discipline switched off, and the step of the counter (R22, R24) -/

section
variable {s : State} {via : Via}

theorem discEnClear_leavesFree (h : MayWrite via (TIK_CTRL_DISC_EN.at_ 0) s) :
    Runs (.discEnClear via) s (fun u => u.fget TIK_CTRL_DISC_EN 0 = 0 ∧ u.fget TIK_STATUS_STATE 0 = discFree ∧ u.clk.adj = 0 ∧
      u.clk.tNs = s.clk.tNs ∧ RegsOnly s u [TIK_CTRL_DISC_EN.key 0, TIK_STATUS_STATE.key 0]) := by
  have hrun : exec (.discEnClear via) s = .next ((s.fset TIK_CTRL_DISC_EN 0 0).discTo discFree) :=
    congrArg Host.Outcome.next (regWrite_reaches h)
  refine ⟨_, hrun, ?_, State.fget_discTo_state _ (by decide), rfl, rfl, ?_⟩
  · exact (State.discTo_regsOnly _ (by decide) TIK_CTRL_DISC_EN 0 (by decide)).trans (State.fget_fset_self _ _ _ _)
  · exact ((s.fset_regsOnly _ _ _).mono (by decide)).trans ((State.discTo_regsOnly _ (by decide)).mono (by decide))

/-- Shutter lists begin again at the next multiple of CYCLE after the instant `t` (R405). -/
def State.shuttersFrom (s : State) (t : Nat) : State :=
  (List.range s.nDies).foldl (fun (s : State) d =>
    let cy := (s.lnk d).shut.cycle
    if cy = 0 then s else s.modLnk d (fun l => { l with entryT := (t / cy + 1) * cy })) s

/-- They are a matter of the fabric ports. -/
theorem State.shuttersFrom_keeps (s : State) (t : Nat) : Keeps 0x2000 s (s.shuttersFrom t) :=
  Keeps.foldl _ _ (fun u d => Keeps.ite (Keeps.refl u) (u.modLnk_keeps d _)) (Keeps.refl s)

theorem State.shuttersFrom_clk (s : State) (t : Nat) : (s.shuttersFrom t).clk = s.clk := (s.shuttersFrom_keeps t).same .clk (by decide)

theorem State.fget_shuttersFrom (s : State) (t : Nat) (G : Fld) (j : Nat) : (s.shuttersFrom t).fget G j = s.fget G j :=
  (s.shuttersFrom_keeps t).fget (by cases G.blk <;> decide) rfl j

/-- The counter set to `now`, in 2⁻⁴⁸ ns (R18). -/
def Clock.setTo (k : Clock) (now : Int) : Clock :=
  { k with tNs := (now / nsUnit).toNat, sub := (now % nsUnit).toNat, off := 0, corr := 0 }

theorem Clock.total_setTo (k : Clock) {now : Int} (h : 0 ≤ now) : (k.setTo now).total 0 = now := by
  have hu : (0 : Int) < nsUnit := by decide
  have hq : 0 ≤ now / nsUnit := Int.ediv_nonneg h hu.le
  have hr : 0 ≤ now % nsUnit := Int.emod_nonneg _ hu.ne'
  have hsum := Int.ediv_mul_add_emod now nsUnit
  unfold Clock.setTo Clock.total
  simp only [Int.toNat_of_nonneg hq, Int.toNat_of_nonneg hr]
  omega

theorem exec_stepNow_taken (h : MayWrite via (TIK_CTRL_STEP_NOW.at_ 0) s) (hg : s.anyGen = false) (hm : s.clk.measured = true) :
    exec (.stepNow via) s = .next (
      let now := max 0 (s.clk.total 0 - (s.clk.off * nsUnit + s.clk.corr))
      (({ s with clk := s.clk.setTo now } : State).fset TIK_OFFSET_OFFSET 0 0).shuttersFrom (now / nsUnit).toNat) := by
  refine congrArg Host.Outcome.next ((regWrite_reaches h).trans (if_neg ?_))
  rw [hg, hm]
  decide

theorem exec_stepNow_refused (h : MayWrite via (TIK_CTRL_STEP_NOW.at_ 0) s) (hr : s.anyGen = true ∨ s.clk.measured = false) :
    exec (.stepNow via) s = .next (s.evtPkg TIK_EVENT_STEP_REFUSED) := by
  refine congrArg Host.Outcome.next ((regWrite_reaches h).trans (if_pos ?_))
  simpa using hr

/-- R24: the step is refused while a generator runs or nothing was measured; otherwise the counter takes what remains of the offset. -/
theorem stepNow_refusedOrTaken (h : MayWrite via (TIK_CTRL_STEP_NOW.at_ 0) s) :
    Runs (.stepNow via) s (fun u =>
      if s.anyGen = true ∨ s.clk.measured = false then
        Raised u TIK_EVENT_STEP_REFUSED 0 ∧ u.clk = s.clk ∧ RegsOnly s u [TIK_EVENT_STEP_REFUSED.key 0]
      else u.clk.total 0 = max 0 (s.clk.total 0 - (s.clk.off * nsUnit + s.clk.corr)) ∧ u.fget TIK_OFFSET_OFFSET 0 = 0 ∧
        u.clk.corr = 0 ∧ u.clk.adj = s.clk.adj ∧ RegsOnly s u [TIK_OFFSET_OFFSET.key 0]) := by
  by_cases hr : s.anyGen = true ∨ s.clk.measured = false
  · simp only [if_pos hr]
    exact ⟨_, exec_stepNow_refused h hr, s.fget_evtPkg_self _ (by decide), s.evtPkg_clk _, s.evtPkg_regsOnly _⟩
  · simp only [if_neg hr]
    obtain ⟨hg, hm⟩ := not_or.1 hr
    refine ⟨_, exec_stepNow_taken h (by simpa using hg) (by simpa using hm), ?_, ?_, ?_, ?_, ?_⟩
    · rw [State.shuttersFrom_clk]
      exact s.clk.total_setTo (le_max_left _ _)
    · rw [State.fget_shuttersFrom, State.fget_fset_self]
      rfl
    · rw [State.shuttersFrom_clk]
      rfl
    · rw [State.shuttersFrom_clk]
      rfl
    · intro G j hG
      rw [State.fget_shuttersFrom]
      exact State.fset_regsOnly { s with clk := s.clk.setTo _ } _ _ _ G j hG

end

/-! ### The counter and the tick number read (R56) -/

section
variable {s : State} {via : Via}

theorem tikTimeNsRead_latches (h : MayRead via (TIK_TIME_NS_NS.at_ 0) s) :
    Runs (.tikTimeNsRead via) s (fun u =>
      SentBy s u [.regValue (TIK_TIME_NS_NS.at_ 0) (BitVec.ofNat 32 ((s.clk.total 0 / nsUnit).toNat % secNs))] ∧
      u.fget TIK_TIME_SEC_LO_SEC_LO 0 = (s.clk.total 0 / nsUnit).toNat / secNs % 2 ^ 32 ∧
      u.fget TIK_TIME_SEC_HI_SEC_HI 0 = (s.clk.total 0 / nsUnit).toNat / secNs / 2 ^ 32 % 2 ^ 16 ∧ u.clk = s.clk ∧
      RegsOnly s u [TIK_TIME_SEC_LO_SEC_LO.key 0, TIK_TIME_SEC_HI_SEC_HI.key 0, TIK_TIME_FRAC_FRAC.key 0]) := by
  refine ⟨_, congrArg Host.Outcome.next (regRead_reaches h), rfl, ?_, ?_, rfl, ?_⟩
  · unfold State.readTimeNs
    rw [State.emit_fget, State.fget_fset_other _ _ _ _ _ _ (by decide), State.fget_fset_other _ _ _ _ _ _ (by decide),
      State.fget_fset_self]
    rfl
  · unfold State.readTimeNs
    rw [State.emit_fget, State.fget_fset_other _ _ _ _ _ _ (by decide), State.fget_fset_self]
    rfl
  · exact (((RegsOnly.refl s _).fset _ (by decide)).fset _ (by decide)).fset _ (by decide)

theorem tikTickLoRead_latches {p : Nat} (hp : p < 8) (h : MayRead via (TIK_TICK_LO_TICK_LO.at_ p) s) :
    Runs (.tikTickLoRead p via) s (fun u =>
      SentBy s u [.regValue (TIK_TICK_LO_TICK_LO.at_ p) (BitVec.ofNat 32 (s.tickNo p % 2 ^ 32))] ∧
      u.fget TIK_TICK_HI_TICK_HI p = s.tickNo p / 2 ^ 32 % 2 ^ 32 ∧ RegsOnly s u [TIK_TICK_HI_TICK_HI.key p]) := by
  have hrun : exec (.tikTickLoRead p via) s = .next (((s.readTickLo p).2).emit
      (.regValue (TIK_TICK_LO_TICK_LO.at_ p) (BitVec.ofNat 32 (s.readTickLo p).1))) := by
    show execTikTickLoRead p via s = _
    unfold execTikTickLoRead
    rw [if_neg (Nat.not_le.2 hp), regRead_reaches h]
  exact ⟨_, hrun, rfl, s.fget_fset_self _ _ _, s.fset_regsOnly _ _ _⟩

/-- R586: the counter runs on from the other clock; only whether TIME_REFCLK is lost has changed. -/
theorem timeRefclk_lostOrBack (s : State) (t : Nat) (lost : Bool) :
    (((s.advanceTo t).withClk { (s.advanceTo t).clk with refLost := lost }).clk.tNs = max s.clk.tNs t) ∧
      RegsOnly s ((s.advanceTo t).withClk { (s.advanceTo t).clk with refLost := lost }) [TIK_HOLD_TIME_HELD.key 0] :=
  ⟨s.advanceTo_tNs t, s.advanceTo_regsOnly t⟩

end

/-- Settles O2: each register is one update of the state it finds, and the reference clock changes `refLost` alone. -/
theorem timeRegistersAndReference : Obligations.TimeRegistersAndReference := by
  unfold Obligations.TimeRegistersAndReference
  exact ⟨fun s via h => discEnClear_leavesFree h, fun s via h => stepNow_refusedOrTaken h, fun s via h => tikTimeNsRead_latches h,
    fun s p via hp h => tikTickLoRead_latches hp h, fun s t => ⟨_, rfl, rfl, timeRefclk_lostOrBack s t true⟩,
    fun s t => ⟨_, rfl, rfl, timeRefclk_lostOrBack s t false⟩⟩

/-! ### The queue of commands (log entry 1) -/

/-- Settles O48: a step with a command is that command's effect, and one without moves only the clock and TIK_HOLD_TIME. -/
theorem aStepRunsTheFrontCommand : Obligations.AStepRunsTheFrontCommand := by
  unfold Obligations.AStepRunsTheFrontCommand
  refine ⟨fun c l s => rfl, fun s hempty => ?_⟩
  have hstep : step s = .next (idle s) := by
    unfold step
    rw [hempty]
  have hkeep := idle_keeps s
  have hmask : ∀ a : Area, a ≠ .clk → a ≠ .regs .tik → (0x200010 : Nat).testBit a.ix = false := by
    intro a
    cases a with
    | regs b => cases b <;> decide
    | _ => decide
  exact ⟨idle s, hstep, hkeep.pending.trans hempty, hkeep.same .out (by decide), fun a hc hr => hkeep.same a (hmask a hc hr)⟩

/-! ### The debt of late sweeps (R51) -/

section
variable (s : State) (d p : Nat)

theorem State.chargeDebt_zero : s.chargeDebt d p 0 = s := rfl

theorem State.fget_chargeDebt {L : Nat} (hL : 1 ≤ L) (hmax : s.inForce TIK_DEBT_MAX_DEBT_MAX p < 2 ^ 24) :
    (s.chargeDebt d p L).fget TIK_DEBT_DEBT d =
      min (s.fget TIK_DEBT_DEBT d + (s.inForce TIK_ADMIT_DEBT_GAIN p * L + 3) / 4) (s.inForce TIK_DEBT_MAX_DEBT_MAX p) := by
  have hkey : ∀ G : Fld, G.stride = TIK_DEBT_DEBT.stride → G.off ≠ TIK_DEBT_DEBT.off → G.key d ≠ TIK_DEBT_DEBT.key d := fun G hs ho =>
    Fld.key_ne_of_at (Fld.at_ne hs ho d)
  unfold State.chargeDebt
  rw [if_neg (Nat.one_le_iff_ne_zero.1 hL)]
  extract_lets add v
  have hv : v.fget TIK_DEBT_DEBT d = min (s.fget TIK_DEBT_DEBT d + add) (s.inForce TIK_DEBT_MAX_DEBT_MAX p) := by
    unfold v
    rw [State.fget_fset_self]
    exact Nat.mod_eq_of_lt (Nat.lt_of_le_of_lt (Nat.min_le_right _ _) hmax)
  rw [(State.hist_keeps _ _ _ _ _).fget (by decide) rfl d, State.fmax,
    State.fget_fsat_other _ _ _ _ _ _ (hkey TIK_LATE_MAX_LATE_MAX rfl (by decide)),
    State.fget_fadd_other _ _ _ _ _ _ (hkey TIK_LATE_LATE rfl (by decide)), hv]
  rfl

end

/-- Settles O55: the charge is one write of TIK_DEBT, and the counts that follow are of other registers. -/
theorem lateSweepsChargeDebt : Obligations.LateSweepsChargeDebt := by
  unfold Obligations.LateSweepsChargeDebt
  exact ⟨fun s d p L hL hmax => s.fget_chargeDebt d p hL hmax, fun s d p => s.chargeDebt_zero d p, fun p => ⟨rfl, rfl⟩⟩

end Sys2Proof.Machine
end

section
/-!
What the work at a slot boundary leaves of a partition's record: all but its outstanding descriptors and its contexts. A boundary taken
stays taken, and no reset begins to wait (R35, R65, R424, R517).
-/
namespace Sys2Proof.Machine
set_option Elab.async false

/-! ### The record of a partition without its descriptors and contexts -/

/-- A partition's record with its outstanding descriptors and its contexts left out. -/
def Part.standing (v : Part) : Part := { v with outst := [], ctxs := [] }

/-- Of every partition's record only the outstanding descriptors and the contexts may have changed. -/
def SameStanding (s t : State) : Prop := ∀ p, (t.part p).standing = (s.part p).standing

section
variable {s t u : State}

theorem SameStanding.refl (s : State) : SameStanding s s := fun _ => rfl

theorem SameStanding.trans (h : SameStanding s t) (k : SameStanding t u) : SameStanding s u := fun p => (k p).trans (h p)

theorem SameStanding.ofParts (h : t.parts = s.parts) : SameStanding s t := fun p => by
  unfold State.part
  rw [h]

theorem SameStanding.ofKeeps {m : Nat} (h : Keeps m s t) (hm : m.testBit 5 = false := by decide) : SameStanding s t :=
  .ofParts (h.same .parts hm)

/-- An operation that leaves the partitions' records alone. -/
theorem SameStanding.keeps {m : Nat} (h : SameStanding s t) (k : Keeps m t u) (hm : m.testBit 5 = false := by decide) :
    SameStanding s u := h.trans (.ofKeeps k hm)

theorem SameStanding.modPart (s : State) (p : Nat) {f : Part → Part} (hf : ∀ v, (f v).standing = v.standing) :
    SameStanding s (s.modPart p f) := fun q => by
  by_cases e : p = q
  · subst e
    rw [State.modPart_part_self]
    exact hf _
  · rw [State.modPart_part_other _ _ e]

theorem SameStanding.ite {p : Prop} [Decidable p] (h : SameStanding s t) (k : SameStanding s u) :
    SameStanding s (if p then t else u) := by
  split <;> assumption

/-- A choice between two answers. -/
theorem SameStanding.iteSnd {α : Type} {p : Prop} [Decidable p] {x y : α × State} (h : SameStanding s x.2) (k : SameStanding s y.2) :
    SameStanding s (if p then x else y).2 := by
  split <;> assumption

theorem SameStanding.iteSnd2 {α β : Type} {p : Prop} [Decidable p] {x y : α × β × State} (h : SameStanding s x.2.2)
    (k : SameStanding s y.2.2) : SameStanding s (if p then x else y).2.2 := by
  split <;> assumption

theorem SameStanding.some (h : SameStanding s t) : ∀ u, Option.some t = Option.some u → SameStanding s u := by
  rintro _ ⟨⟩
  exact h

theorem SameStanding.iteSome {p : Prop} [Decidable p] {x y : Option State} (h : ∀ u, x = Option.some u → SameStanding s u)
    (k : ∀ u, y = Option.some u → SameStanding s u) : ∀ u, (if p then x else y) = Option.some u → SameStanding s u := by
  split <;> assumption

theorem SameStanding.foldl {α : Type} {f : State → α → State} (h : ∀ u x, SameStanding u (f u x)) (l : List α) (s : State) :
    SameStanding s (l.foldl f s) := by
  induction l generalizing s with
  | nil => exact .refl s
  | cons x l ih => exact (h s x).trans (ih _)

/-- The state of an answer that is known to be a pair. -/
theorem SameStanding.snd {α : Type} {x : α × State} {v : α} (h : SameStanding s x.2) (e : x = (v, t)) : SameStanding s t := by
  rw [e] at h
  exact h

theorem SameStanding.snd2 {α β : Type} {x : α × β × State} {v : α} {w : β} (h : SameStanding s x.2.2) (e : x = (v, w, t)) :
    SameStanding s t := by
  rw [e] at h
  exact h

end

/-! ### Completions (R330 to R339) -/

theorem State.completeOne_standing (s : State) (o : Outst) (status r0 r1 : Nat) : SameStanding s (s.completeOne o status r0 r1) := by
  unfold State.completeOne
  extract_lets f p s1 h s2 cq c live hd s4 sd s3 g
  have h1 : SameStanding s s1 := .modPart s p fun _ => rfl
  have h2 : SameStanding s s2 := .ite h1 h1
  have h4 : SameStanding s s4 := h2.keeps (State.cqWrite_keeps _ _ _ _ _)
  have hd : SameStanding s sd := h2.trans (.ofParts rfl)
  have h3 : SameStanding s s3 :=
    .ite (.ite ((h4.keeps (State.pmc_keeps _ _ _ _ _ _)).keeps (State.hist_keeps _ _ _ _ _)) h4)
      ((hd.keeps (State.fadd_keeps _ _ _ _)).keeps (State.evtFn_keeps _ _ _))
  exact .ite (h3.keeps (State.raiseEvent_keeps _ _ _ _ _)) h3

theorem State.finishDeletes_standing (s : State) (p : Nat) (l : List Outst) : SameStanding s (s.finishDeletes p l) := by
  induction l generalizing s with
  | nil => exact .refl s
  | cons o l ih =>
    unfold State.finishDeletes
    refine SameStanding.trans ?_ (ih _)
    refine .ite (s.completeOne_standing _ _ _ _) (.ite ?_ (.refl s))
    exact (SameStanding.ofKeeps (s.modFn_keeps _ _)).trans (State.completeOne_standing _ _ _ _ _)

theorem State.complete_standing (s : State) (d : Desc) (status r0 r1 : Nat) : SameStanding s (s.complete d status r0 r1) := by
  unfold State.complete
  split
  · exact .refl s
  · exact (s.completeOne_standing _ _ _ _).trans (State.finishDeletes_standing _ _ _)

theorem State.completeKey_standing (s : State) (k : Nat × Nat × Nat) (status r0 r1 : Nat) :
    SameStanding s (s.completeKey k status r0 r1) := s.complete_standing _ _ _ _

/-! ### Flash tasks (R224, R225) -/

theorem State.endTaskWith_standing (s : State) (d : Nat) (t : DTask) (st : Nat) : SameStanding s (s.endTaskWith d t st) := by
  unfold State.endTaskWith
  split
  · exact (SameStanding.ofKeeps (s.modFtl_keeps _ _)).trans (State.complete_standing _ _ _ _ _)
  · exact .ofKeeps (s.modFtl_keeps _ _)

theorem State.runTask_standing (s : State) (d : Nat) (t : DTask) (n : Nat) : SameStanding s (s.runTask d t n) := by
  induction n generalizing s t with
  | zero => exact .refl s
  | succ n ih =>
    have hnext : ∀ (u : State) (t' : DTask), SameStanding s u →
        SameStanding s ((u.modFtl d (fun f => { f with tasks := putTask t t' f.tasks })).runTask d t' n) := fun u t' h =>
      (h.keeps (u.modFtl_keeps d _)).trans (ih _ _)
    unfold State.runTask
    split
    · exact .refl s
    · extract_lets ctx
      split
      next e => exact hnext _ _ (SameStanding.snd (.ofKeeps (s.journal_keeps _ _ _).get) e)
    · split
      · exact hnext _ _ (.refl s)
      · split
        · exact .refl s
        · split
          · exact hnext _ _ (.refl s)
          · extract_lets refused
            split
            · exact s.endTaskWith_standing _ _ _
            · split
              next e =>
                exact (SameStanding.ofKeeps (KOpt.eq e (s.writeObj_keeps _ _ _ _ _ _ _ _))).keeps (State.modFtl_keeps _ _ _)
              · exact .ite (.refl s) (s.endTaskWith_standing _ _ _)

theorem State.addTask_standing (s : State) (d : Nat) (t : DTask) : SameStanding s (s.addTask d t) :=
  (SameStanding.ofKeeps (s.modFtl_keeps _ _)).trans (State.runTask_standing _ _ _ _)

theorem State.resumeTasks_standing (s : State) (d : Nat) : SameStanding s (s.resumeTasks d) := by
  unfold State.resumeTasks
  refine .foldl (fun u t => ?_) _ s
  split
  · exact .refl u
  · exact .ite (.refl u) (u.runTask_standing _ _ _)

/-! ### Messages and staging (R246, R250, R382) -/

theorem State.txFail_standing (s : State) (d : Nat) (use : TxFor) (status : Nat) : SameStanding s (s.txFail d use status) := by
  unfold State.txFail
  split
  · exact .ofKeeps (s.refuseOut_keeps _ _ _)
  · exact .refl s
  · exact .refl s
  · split
    · exact .refl s
    · extract_lets u
      have hu : SameStanding s u := .ofKeeps (s.modStg_keeps _ _)
      exact (hu.keeps (u.closeHolder_keeps _ _)).trans (State.completeKey_standing _ _ _ _ _)
  · exact s.completeKey_standing _ _ _ _
  · exact .ofKeeps (s.gotStaged_keeps _ _ _ _ _)
  · exact (SameStanding.ofKeeps (s.endImport_keeps _ _)).trans (State.completeKey_standing _ _ _ _ _)

theorem State.qpPost_standing (s : State) (d peer : Nat) (w : QpSend) : SameStanding s (s.qpPost d peer w) := by
  unfold State.qpPost
  split
  · exact .refl s
  · refine .ite (s.txFail_standing _ _ _) ?_
    extract_lets u
    have hu : SameStanding s u := .ofKeeps (s.modPeer_keeps _ _ _)
    exact (hu.keeps (u.fadd_keeps _ _ _)).trans (.foldl (fun v e => .ofKeeps (v.enqueue_keeps _ _ _ _ _)) _ _)

theorem State.sendWrite_standing (s : State) (d peer key addr : Nat) (sig dep : Option Nat) (bytes : List Byte)
    (from_ : Option (Nat × Nat)) (use : TxFor) (kind : FKind) :
    SameStanding s (s.sendWrite d peer key addr sig dep bytes from_ use kind).2 := by
  unfold State.sendWrite
  split
  · exact s.qpPost_standing _ _ _
  · exact .ofKeeps (s.startMsg_keeps _ _ _ _ _ _ _ _ _ _ _ _ _).get

theorem State.sendRead_standing (s : State) (d peer key addr total : Nat) (to_ : Option (Nat × Nat)) (use : TxFor) (kind : FKind) :
    SameStanding s (s.sendRead d peer key addr total to_ use kind) := by
  unfold State.sendRead
  split
  · exact s.qpPost_standing _ _ _
  · exact .ofKeeps (s.startMsg_keeps _ _ _ _ _ _ _ _ _ _ _ _ _).get

theorem State.readReplica_standing (s : State) (d : Nat) (t : StgTask) (key at_ n : Nat) (table : Bool) :
    SameStanding s (s.readReplica d t key at_ n table) := by
  unfold State.readReplica
  extract_lets u
  have hu : SameStanding s u := .ofKeeps (s.modStg_keeps _ _)
  split
  · exact hu.keeps (u.gotStaged_keeps _ _ _ _ _)
  · exact .ite (hu.trans (u.sendRead_standing _ _ _ _ _ _ _ _)) (hu.keeps (u.gotStaged_keeps _ _ _ _ _))

theorem State.startRead_standing (s : State) (d page : Nat) : SameStanding s (s.startRead d page) := by
  unfold State.startRead
  split
  · split
    · exact s.readReplica_standing _ _ _ _ _ _
    · exact .refl s
  · exact .refl s

theorem State.allocTask_standing (s : State) (d : Nat) (t : StgTask) : SameStanding s (s.allocTask d t) := by
  unfold State.allocTask
  refine .ite ?_ (.refl s)
  split
  · exact .refl s
  · extract_lets n
    refine .ite (.refl s) (.ite (.refl s) ?_)
    split
    · exact .ofKeeps (s.nomem_keeps _)
    next e =>
      have hframe := SameStanding.ofKeeps (KOpt.eq e (s.poolFrame_keeps _ _))
      exact (hframe.keeps (State.modStg_keeps _ _ _)).trans (State.startRead_standing _ _ _)

theorem State.stageIn_standing (s : State) (d id prio : Nat) : SameStanding s (s.stageIn d id prio) := by
  unfold State.stageIn
  split
  · exact .refl s
  · refine .ite (.refl s) ?_
    extract_lets t u
    have hu : SameStanding s u := .ofKeeps (s.modStg_keeps _ _)
    exact (hu.keeps (u.modPage_keeps _ _ _)).trans (State.allocTask_standing _ _ _)

theorem State.stageAll_standing (s : State) (d prio : Nat) (l : List Nat) : SameStanding s (l.foldl (fun s id => s.stageIn d id prio) s) :=
  .foldl (fun u _ => u.stageIn_standing _ _ _) l s

theorem State.retryTasks_standing (s : State) (d : Nat) : SameStanding s (s.retryTasks d) :=
  .foldl (fun u _ => u.allocTask_standing _ _) _ s

theorem State.repinSeq_standing (s : State) (d q : Nat) : SameStanding s (s.repinSeq d q) := by
  unfold State.repinSeq State.repin
  refine .ite ?_ (.refl s)
  extract_lets l u
  have hu : SameStanding s u := .ofKeeps (s.modPfx_keeps _ _)
  exact hu.trans (u.stageAll_standing _ _ _)

/-! ### Edits of a sequence (R82, R220, R597) -/

theorem State.finishEdit_standing (d q : Nat) (desc : Option (Nat × Nat × Nat)) (j : Nat) (r : EditOk) :
    SameStanding r.s (State.finishEdit d q desc j r) := by
  unfold State.finishEdit
  extract_lets u v parked
  have hu : SameStanding r.s u := r.s.repinSeq_standing d q
  have hv : SameStanding r.s v := by
    unfold v
    split
    · exact hu.keeps (u.startSeals_keeps _ _)
    · exact hu
  refine .ite ((hv.trans (v.addTask_standing _ _)).trans (State.resumeTasks_standing _ _)) ?_
  split
  · exact hv.trans (v.complete_standing _ _ _ _)
  · exact hv

/-- What the answer of an edit says of the partitions' records, when the edit itself leaves them. -/
theorem State.stopEdit_standing {a : State} (s : State) (d q : Nat) (desc : Option (Nat × Nat × Nat)) (edit : Edit) {x : EditStop}
    (h : SameStanding a s) (hx : ∀ st u, x = .fail st u → SameStanding a u) : SameStanding a (s.stopEdit d q desc edit x) := by
  unfold State.stopEdit
  split
  next st u =>
    have hu := hx st u rfl
    split
    · exact hu.trans (u.complete_standing _ _ _ _)
    · exact hu
  next pages =>
    extract_lets u
    have hu : SameStanding a u := h.trans (s.stageAll_standing d 2 pages)
    split
    · exact hu.keeps (u.modPfx_keeps _ _)
    · exact hu

theorem State.applyEdit_fail_standing {s u : State} {d k st : Nat} {edit : Edit} (e : s.applyEdit d k edit = .error (.fail st u)) :
    SameStanding s u := .ofKeeps (KEdit.err e (s.applyEdit_keeps d k edit))

theorem State.applyEdit_ok_standing {s : State} {d k : Nat} {edit : Edit} {r : EditOk} (e : s.applyEdit d k edit = .ok r) :
    SameStanding s r.s := .ofKeeps (KEdit.eq e (s.applyEdit_keeps d k edit))

theorem State.changeClass_standing (s : State) (d : Nat) (e : SeqSlot) (desc : Option (Nat × Nat × Nat)) (parked : Bool) :
    SameStanding s (s.changeClass d e desc parked) := by
  unfold State.changeClass
  extract_lets done task chunks cp tails u
  refine .ite ?_ (.ite (s.addTask_standing _ _) ?_)
  · unfold done
    split
    · exact s.complete_standing _ _ _ _
    · exact .refl s
  · have hu : SameStanding s u := .ofKeeps (s.unpark_keeps _ _)
    exact hu.trans (u.addTask_standing _ _)

theorem State.runEdit_standing (s : State) (d : Nat) (desc : Option (Nat × Nat × Nat)) (edit : Edit) :
    SameStanding s (s.runEdit d desc edit) := by
  have hfail : ∀ st q, SameStanding s (s.stopEdit d q desc edit (.fail st s)) := fun st q =>
    State.stopEdit_standing s d q desc edit (.refl s) (by rintro _ _ ⟨⟩; exact .refl s)
  unfold State.runEdit
  extract_lets q fail
  split
  · exact hfail _ _
  · refine .ite ?_ (.ite (hfail _ _) ?_)
    · split
      · exact .ofKeeps (s.modPfx_keeps _ _)
      · exact .refl s
    · split
      · exact s.changeClass_standing _ _ _ _
      · split
        next e =>
          exact State.stopEdit_standing s d q desc edit (.refl s) fun st u hx => State.applyEdit_fail_standing (hx ▸ e)
        next e =>
          split
          · exact hfail _ _
          · exact (State.applyEdit_ok_standing e).trans (State.finishEdit_standing _ _ _ _ _)

theorem State.runCarried_standing (s : State) (d : Nat) (edit : Edit) : SameStanding s (s.runCarried d edit).2 := by
  unfold State.runCarried
  split
  · exact .refl s
  · split
    · exact .refl s
    · split
      next r e =>
        have hr := State.applyEdit_ok_standing e
        exact hr.trans (State.finishEdit_standing d _ none 0 r)
      next e =>
        have hu := State.applyEdit_fail_standing e
        exact hu
      · exact s.stageAll_standing d 2 _

theorem State.retryEdit_standing (s : State) (d : Nat) (w : WaitEdit) : SameStanding s (s.retryEdit d w) := by
  unfold State.retryEdit
  extract_lets back
  have hback : ∀ u : State, SameStanding u (back u) := fun u => .ofKeeps (u.modPfx_keeps _ _)
  refine .ite (hback s) ?_
  split
  · exact s.runEdit_standing _ _ _
  · split
    next e => exact (SameStanding.snd (s.runCarried_standing _ _) e).keeps (State.settleAppend_keeps _ _ _ _ _)
    next e => exact (SameStanding.snd (s.runCarried_standing _ _) e).trans (hback _)

theorem State.retryEdits_standing (s : State) (d n : Nat) : SameStanding s (s.retryEdits d n) := by
  induction n generalizing s with
  | zero => exact .refl s
  | succ n ih =>
    unfold State.retryEdits
    extract_lets l
    unfold l
    split
    · exact .refl s
    next w r _ =>
      extract_lets s1 back s2 s3
      have h1 : SameStanding s s1 := (SameStanding.ofKeeps (s.modPfx_keeps _ _)).trans (State.retryEdit_standing _ _ _)
      have h2 : SameStanding s s2 := h1.keeps (s1.modPfx_keeps _ _)
      exact (h2.trans (ih s2)).keeps (s3.modPfx_keeps _ _)

theorem State.tryChunk_standing (s : State) (d q : Nat) : SameStanding s (s.tryChunk d q) := by
  unfold State.tryChunk
  split
  · exact .refl s
  next k e _ =>
    refine .ite (.refl s) ?_
    extract_lets wait
    have hwait : ∀ u : State, SameStanding u (wait u) := fun u => .ofKeeps (u.modPfx_keeps _ _)
    refine .ite (hwait s) ?_
    split
    next r hr =>
      split
      · exact hwait s
      · exact (SameStanding.ofKeeps (KEdit.eq hr (s.completeChunk_keeps _ _))).trans (State.finishEdit_standing _ _ _ _ _)
    next st u hu => exact (SameStanding.ofKeeps (KEdit.err hu (s.completeChunk_keeps _ _))).trans (hwait u)
    · exact .refl s

/-- Allocations tried again at a boundary (R65). -/
theorem State.retryAllocs_standing (s : State) (d : Nat) : SameStanding s (s.retryAllocs d) := by
  unfold State.retryAllocs
  have htasks := (s.retryTasks_standing d).keeps (State.retrySeals_keeps _ d)
  have hchunks : ∀ u : State, SameStanding u (u.retryChunks d) := fun u => .foldl (fun v q => v.tryChunk_standing d q) _ u
  exact (htasks.trans (hchunks _)).trans (State.retryEdits_standing _ _ _)

end Sys2Proof.Machine
end

section
/-!
Admission and the fence of a partition leave of its record all but its descriptors and contexts (R32 to R47, R424, R485).
-/
namespace Sys2Proof.Machine
set_option Elab.async false

/-! ### Records that end without a sweep (R49) -/

theorem State.sendStatus_standing (s : State) (d : Nat) (h : Held) (out : Option Nat) (status lateness : Nat) (entry : List Byte) :
    SameStanding s (s.sendStatus d h out status lateness entry) := by
  unfold State.sendStatus
  split
  · extract_lets u
    have hu : SameStanding s u := (SameStanding.ofKeeps (s.setSrc_keeps _ _ _)).keeps (State.ledgerOut_keeps _ _ _)
    split
    · exact hu.keeps (u.resDrop_keeps _)
    · exact hu.trans (u.sendWrite_standing _ _ _ _ _ _ _ _ _ _)
  · exact (SameStanding.ofKeeps (s.descWrite_keeps _ _ _)).trans (State.completeKey_standing _ _ _ _ _)

theorem State.failHeld_standing (s : State) (d : Nat) (h : Held) (status : Nat) : SameStanding s (s.failHeld d h status) := by
  unfold State.failHeld
  extract_lets u
  have hu : SameStanding s u := .ite (.ofKeeps (s.poison_keeps _ _)) (.refl s)
  exact (hu.trans (u.sendStatus_standing _ _ _ _ _ _)).keeps (State.noteResult_keeps _ _ _ _ _ _ _ _)

theorem State.failAll_standing (s : State) (d st : Nat) (l : List Held) : SameStanding s (l.foldl (fun s h => s.failHeld d h st) s) :=
  .foldl (fun u _ => u.failHeld_standing _ _ _) l s

/-! ### The leading run (R39) -/

theorem State.admitCheck_standing (s : State) (d : Nat) (c : Ctx) (r : StepRec) : SameStanding s (s.admitCheck d c r).2.2 := by
  unfold State.admitCheck
  extract_lets +onlyGivenNames none_
  split
  · exact .refl s
  · refine .iteSnd2 (.refl s) ?_
    extract_lets +onlyGivenNames n pages away bad
    refine .iteSnd2 (.refl s) (.iteSnd2 (.refl s) (.iteSnd2 (.refl s) (.iteSnd2 (.refl s) (.iteSnd2 (.refl s) ?_))))
    extract_lets +onlyGivenNames u
    have hu : SameStanding s u := (SameStanding.ofKeeps (s.fadd_keeps STG_ADMIT_MISS_COUNT d 1)).keeps (State.evtDie_keeps _ _ _)
    exact .ite (hu.trans (u.stageAll_standing d 0 away)) hu

theorem State.formRun_standing (s : State) (d p : Nat) (c : Ctx) (left : Int) (force z : Bool) (m : Nat) (r : Run) (l : List Held) :
    SameStanding s (s.formRun d p c left force z m r l).2.2 := by
  induction l generalizing s r with
  | nil => exact .refl s
  | cons h l ih =>
    unfold State.formRun
    extract_lets st
    split
    · exact (s.failHeld_standing _ _ _).trans (ih _ _)
    · split
      · exact .refl s
      · split
        next e =>
          exact ((SameStanding.snd2 (s.admitCheck_standing _ _ _) e).trans (State.failHeld_standing _ _ _ _)).trans (ih _ _)
        next e =>
          have hu := SameStanding.snd2 (s.admitCheck_standing _ _ _) e
          extract_lets recs est sc
          split
          · exact hu.trans (ih _ _)
          · exact hu

/-! ### A sweep admitted (R79, R82) -/

theorem State.carryAppend_standing (s : State) (d n i : Nat) (r : StepRec) : SameStanding s (s.carryAppend d n i r).2 := by
  unfold State.carryAppend
  split
  · exact .refl s
  · extract_lets edit wait
    have hwait : ∀ u : State, SameStanding u (wait u) := fun u => .ofKeeps (u.modPfx_keeps _ _)
    refine .iteSnd (hwait s) ?_
    split
    next e => exact SameStanding.snd (s.runCarried_standing _ _) e
    next e => exact (SameStanding.snd (s.runCarried_standing _ _) e).trans (hwait _)

theorem State.carryAppends_standing (s : State) (d n i : Nat) (l : List (Held × Snap)) : SameStanding s (s.carryAppends d n i l).2 := by
  induction l generalizing s i with
  | nil => exact .refl s
  | cons x l ih =>
    unfold State.carryAppends
    split
    next u hu =>
      extract_lets v
      have hv : SameStanding s v := (SameStanding.snd (s.carryAppend_standing _ _ _ _) hu).keeps (u.setSrc_keeps _ _ _)
      exact hv.trans (ih v _)

theorem State.launch_standing (s : State) (d p : Nat) (c : Ctx) (r : Run) : SameStanding s (s.launch d p c r) := by
  unfold State.launch
  extract_lets +onlyGivenNames ep n
  split
  next recs u hu =>
    extract_lets v width recs' w x
    have hv : SameStanding s v := (SameStanding.snd (s.carryAppends_standing _ _ _ _) hu).keeps (u.openHolder_keeps _)
    have hx : SameStanding v x := .foldl (fun y e => (SameStanding.ofKeeps (y.pmc_keeps _ _ _ _ _)).keeps (State.hist_keeps _ _ _ _ _)) _ _
    exact (hv.trans hx).keeps (x.modCsm_keeps _ _)

theorem State.admitCtxs_standing (s : State) (d p : Nat) (force z : Bool) (m : Nat) (left : Int) (l : List (Nat × List Held)) :
    SameStanding s (s.admitCtxs d p force z m left l).2 := by
  induction l generalizing s left with
  | nil => exact .refl s
  | cons g l ih =>
    unfold State.admitCtxs
    split
    · exact (s.failAll_standing d stFENCED g.2).trans (ih _ _)
    · split
      next r back u hu =>
        extract_lets v
        have hrun := SameStanding.snd2 (s.formRun_standing _ _ _ _ _ _ _ _ _) hu
        have hv : SameStanding s v := .ite hrun (hrun.trans (u.launch_standing _ _ _ _))
        exact hv.trans (ih v _)

theorem State.firstCheck_standing (s : State) (d p t : Nat) (l : List Held) : SameStanding s (s.firstCheck d p t l).2 := by
  induction l generalizing s with
  | nil => exact .refl s
  | cons h l ih =>
    unfold State.firstCheck
    extract_lets h'
    split
    · exact ih s
    · split
      next tag u hu =>
        extract_lets h''
        have htag := SameStanding.snd (.ofKeeps (s.tagRecord_keeps _ _).get) hu
        split
        · exact (htag.trans (u.failHeld_standing _ _ _)).trans (ih _)
        · exact htag.trans (ih u)

/-! ### Records to rerun (R485) -/

theorem State.rerunOver_standing (s : State) (d : Nat) (h : Held) : ∀ u, s.rerunOver d h = some u → SameStanding s u := by
  have hfail : ∀ st, SameStanding s (s.failHeld d h st) := fun st => s.failHeld_standing d h st
  unfold State.rerunOver
  extract_lets +onlyGivenNames lose
  have hlose : SameStanding s (lose s) := (hfail _).keeps (State.fadd_keeps _ _ _ _)
  split
  · exact .some hlose
  · extract_lets +onlyGivenNames r
    refine .iteSome (.some (hfail _)) ?_
    split
    · exact .some hlose
    · extract_lets +onlyGivenNames n
      exact .iteSome (.some hlose) (.iteSome (.some (hfail _)) (by rintro _ ⟨⟩))

theorem State.sortReruns_standing (s : State) (d : Nat) (app : List Nat) (l : List Held) :
    SameStanding s (s.sortReruns d app l).2.2 := by
  induction l generalizing s app with
  | nil => exact .refl s
  | cons h l ih =>
    unfold State.sortReruns
    extract_lets +onlyGivenNames app'
    split
    · exact ih s _
    · split
      next e => exact (s.rerunOver_standing _ _ _ e).trans (ih _ _)
      next =>
        extract_lets +onlyGivenNames x u
        have hu : SameStanding s u := by
          refine .foldl (fun v id => ?_) _ s
          split
          · exact .ite (.refl v) (v.stageIn_standing _ _ _)
          · exact .refl v
        have hrest := hu.trans (ih u app')
        split
        next e =>
          have hw := SameStanding.snd2 hrest e
          split
          · exact hw
          · exact hw

theorem State.launchReruns_standing (s : State) (d p : Nat) (recs : List (Held × Snap)) (ks : List Nat) :
    SameStanding s (s.launchReruns d p recs ks).2 := by
  induction ks generalizing s with
  | nil => exact .refl s
  | cons k ks ih =>
    unfold State.launchReruns
    split
    next back u hu =>
      have hlaunch : SameStanding s u := by
        refine SameStanding.snd ?_ hu
        split
        · exact .refl s
        · exact s.launch_standing _ _ _ _
      exact hlaunch.trans (ih u)

theorem State.admitReruns_standing (s : State) (d p : Nat) (l : List Held) : SameStanding s (s.admitReruns d p l).2.2 := by
  unfold State.admitReruns
  split
  next e => exact (SameStanding.snd2 (s.sortReruns_standing _ _ _) e).trans (State.launchReruns_standing _ _ _ _ _)

/-! ### A boundary on a die, and on a partition (R35, R424) -/

theorem State.admitDie_standing (s : State) (d p t : Nat) : SameStanding s (s.admitDie d p t) := by
  unfold State.admitDie
  extract_lets force m z cut held elig again late b u v
  have hu : SameStanding s u := .ofKeeps (s.fsat_keeps _ _ _)
  refine .ite hu ?_
  have hv : SameStanding s v := hu.keeps (u.modCsm_keeps _ _)
  split
  next served again' w hw =>
    have hreruns : SameStanding v w := by
      refine SameStanding.snd2 ?_ hw
      split
      · exact v.admitReruns_standing _ _ _
      · exact .refl v
    extract_lets late'
    split
    next ok x hx =>
      extract_lets gone y ok' a late'' ok''
      have hx' : SameStanding s x := (hv.trans hreruns).trans (SameStanding.snd (w.firstCheck_standing _ _ _ _) hx)
      have hy : SameStanding s y := hx'.trans (x.failAll_standing d stFENCED gone)
      refine .ite ((hy.trans (y.failAll_standing d stNOT_READY ok')).keeps (State.modCsm_keeps _ _ _)) ?_
      split
      next e => exact (hy.trans (SameStanding.snd (y.admitCtxs_standing _ _ _ _ _ _ _) e)).keeps (State.modCsm_keeps _ _ _)

theorem State.fenceEligible_standing (s : State) (p t : Nat) : SameStanding s (s.fenceEligible p t).2 := by
  unfold State.fenceEligible
  extract_lets cut
  suffices h : ∀ (l : List Nat) (acc : Nat × State), SameStanding acc.2 (l.foldl (fun acc d =>
      let elig := (acc.2.csm d).held.filter (fun h => decide (h.tSig + cut ≤ t))
      let s := acc.2.modCsm d (fun c => { c with held := c.held.filter (fun h => !decide (h.tSig + cut ≤ t)) })
      (acc.1 + elig.length, elig.foldl (fun s h => s.failHeld d h stFENCED) s)) acc).2 from h _ (0, s)
  intro l
  induction l with
  | nil => exact fun acc => .refl _
  | cons d l ih =>
    exact fun acc => ((SameStanding.ofKeeps (acc.2.modCsm_keeps _ _)).trans (State.failAll_standing _ _ _ _)).trans (ih _)

theorem State.dropWork_standing (s : State) (p : Nat) (keep : Option (Nat × Nat × Nat)) : SameStanding s (s.dropWork p keep).2.2 := by
  unfold State.dropWork
  extract_lets n out u v w
  have hu : SameStanding s u := .foldl (fun x d => .ofKeeps (x.dropDieWork_keeps d)) _ s
  have hv : SameStanding s v := hu.trans (.modPart u p fun _ => rfl)
  exact hv.trans (.foldl (fun x o => x.completeKey_standing _ _ _ _) _ v)

theorem State.removalFence_standing (s : State) (p : Nat) : SameStanding s (s.removalFence p) := by
  unfold State.removalFence
  split
  · exact .refl s
  · extract_lets +onlyGivenNames src u
    have hu : SameStanding s u := .ofParts rfl
    split
    next e => exact (hu.trans (SameStanding.snd2 (u.dropWork_standing _ _) e)).keeps (State.modRm_keeps _ _ _)

theorem State.removalStop_standing (s : State) (p t : Nat) : SameStanding s (s.removalStop p t) := by
  unfold State.removalStop
  split
  · exact .refl s
  · refine .ite (.refl s) ?_
    split
    next n u hu =>
      extract_lets v
      have hv : SameStanding s v := (SameStanding.snd (s.fenceEligible_standing _ _) hu).keeps (u.modRm_keeps _ _)
      exact (hv.trans (v.removalFence_standing _)).keeps (State.modRm_keeps _ _ _)

theorem State.admitAll_standing (s : State) (p t : Nat) : SameStanding s (s.admitAll p t) := by
  unfold State.admitAll
  exact .ite (s.removalStop_standing _ _) (.ite (.refl s) (.foldl (fun u d => u.admitDie_standing d p t) _ s))

end Sys2Proof.Machine
end

section
/-!
Waiting writes at tick edges and slot boundaries, and TIK_PERIOD (R34, R54, R55, R594, R595).
-/
namespace Sys2Proof.Machine
set_option Elab.async false

/-! ### Writes that wait for a boundary (R594) -/

theorem mem_tkeys_of_tget {α : Type} {t : List (Nat × α)} {k : Nat} (h : tget t k ≠ none) : k ∈ tkeys t := by
  induction t with
  | nil => exact absurd rfl h
  | cons e r ih =>
    unfold tget at h
    split at h
    next he => exact he ▸ List.mem_cons_self
    next => exact List.mem_cons_of_mem _ (ih h)

theorem tget_tdel_of_none {α : Type} {t : List (Nat × α)} {k : Nat} (j : Nat) (h : tget t k = none) : tget (tdel t j) k = none := by
  by_cases e : j = k
  · rw [e, tget_tdel_self]
  · rw [tget_tdel_other _ e, h]

theorem tget_tfilter_of_none {α : Type} {t : List (Nat × α)} {k : Nat} (p : Nat → α → Bool) (h : tget t k = none) :
    tget (tfilter p t) k = none := by
  induction t with
  | nil => rfl
  | cons e r ih =>
    unfold tget at h
    split at h
    · cases h
    next he =>
      unfold tfilter
      split
      · exact (if_neg he).trans (ih h)
      · exact ih h

theorem tget_foldl_tdel_of_none {α : Type} {t : List (Nat × α)} {k : Nat} (l : List Nat) (h : tget t k = none) :
    tget (l.foldl tdel t) k = none := by
  induction l generalizing t with
  | nil => exact h
  | cons j l ih => exact ih (tget_tdel_of_none j h)

theorem tget_foldl_tdel_of_mem {α : Type} (t : List (Nat × α)) {k : Nat} {l : List Nat} (h : k ∈ l) : tget (l.foldl tdel t) k = none := by
  induction l generalizing t with
  | nil => cases h
  | cons j l ih =>
    rcases List.mem_cons.1 h with rfl | h
    · exact tget_foldl_tdel_of_none l (tget_tdel_self t k)
    · exact ih (tdel t j) h

/-- The boundary of a register goes by PTN_DIES. -/
theorem State.boundaryOf_congr {s t : State} (h : s.agree t (.regs .ptn)) (off : Nat) : t.boundaryOf off = s.boundaryOf off := by
  unfold State.boundaryOf
  simp only [State.owner_congr h]

/-- The writes of a partition's registers are in force once they are applied, but those kept back and those of the voltage loop. -/
theorem State.applyWrites_applies (s : State) {p k : Nat} {keep : Nat → Bool} (hb : s.boundaryOf (keyOff k) = some p)
    (ha : avsKey k = false) (hk : keep k = false) : tget (s.applyWrites p keep).force k = none := by
  show tget (((tkeys s.force).filter _).foldl tdel s.force) k = none
  by_cases h : tget s.force k = none
  · exact tget_foldl_tdel_of_none _ h
  · refine tget_foldl_tdel_of_mem _ (List.mem_filter.2 ⟨mem_tkeys_of_tget h, ?_⟩)
    simp [hb, ha, hk]

/-- No write that `s` does not know waits in `t`. -/
def NoNewWaits (s t : State) : Prop := ∀ k, tget s.force k = none → tget t.force k = none

section
variable {s t u : State}

theorem NoNewWaits.refl (s : State) : NoNewWaits s s := fun _ h => h

theorem NoNewWaits.trans (h : NoNewWaits s t) (k : NoNewWaits t u) : NoNewWaits s u := fun j e => k j (h j e)

theorem NoNewWaits.ofKeeps {m : Nat} (h : Keeps m s t) (hm : m.testBit 2 = false := by decide) : NoNewWaits s t := fun k e => by
  rw [show t.force = s.force from h.same .force hm]
  exact e

theorem NoNewWaits.keeps {m : Nat} (h : NoNewWaits s t) (k : Keeps m t u) (hm : m.testBit 2 = false := by decide) : NoNewWaits s u :=
  h.trans (.ofKeeps k hm)

theorem NoNewWaits.foldl {α : Type} {f : State → α → State} (h : ∀ u x, NoNewWaits u (f u x)) (l : List α) (s : State) :
    NoNewWaits s (l.foldl f s) := by
  induction l generalizing s with
  | nil => exact .refl s
  | cons x l ih => exact (h s x).trans (ih _)

theorem State.applyWrites_noNewWaits (s : State) (p : Nat) (keep : Nat → Bool) : NoNewWaits s (s.applyWrites p keep) := fun _ h =>
  tget_foldl_tdel_of_none _ h

theorem State.clearRegs_noNewWaits (s : State) (sel : Nat → Nat → Bool) : NoNewWaits s (s.clearRegs sel) := fun _ h =>
  tget_tfilter_of_none _ h

end

/-- A partition reset takes waiting writes away and leaves none behind (R517). -/
theorem State.resetPtn_noNewWaits (s : State) (p : Nat) : NoNewWaits s (s.resetPtn p) := by
  unfold State.resetPtn
  extract_lets +onlyGivenNames s1
  have h1 : NoNewWaits s s1 := .ofKeeps (s.modPart_keeps _ _)
  split
  · exact h1
  · split
    next n s2 e2 =>
      split
      next n' m s3 e3 =>
        extract_lets +onlyGivenNames s4 s5 s6 s7 dies s8 s9 s10 s11 s12
        have h2 : NoNewWaits s s2 := h1.keeps (KSnd.eq e2 (s1.fenceEligible_keeps _ _))
        have h3 : NoNewWaits s s3 := h2.keeps (KSnd2.eq e3 (s2.dropWork_keeps _ _))
        have h4 : NoNewWaits s s4 := h3.keeps (s3.unbind_keeps _)
        have h5 : NoNewWaits s s5 := ((h4.keeps (s4.fset_keeps PTN_CTRL_SEAL p 0)).keeps
          (State.fset_keeps _ TIK_PERIOD_EN p 0)).keeps (State.modPart_keeps _ _ _)
        have h6 : NoNewWaits s s6 := (h5.trans (s5.applyWrites_noNewWaits _ _)).keeps (State.takePeriod_keeps _ _)
        have h7 : NoNewWaits s s7 := h6.keeps (s6.fset_keeps PTN_STATUS_STATE p ptnOpen)
        have h8 : NoNewWaits s s8 := h7.trans (.foldl (fun u d => .ofKeeps (u.scrubDie_keeps d)) _ _)
        have h9 : NoNewWaits s s9 := (h8.keeps (s8.fset_keeps TIK_SCALE_NOW_SCALE p 0x1000)).keeps
          (State.fset_keeps _ TIK_PINNED_PINNED p 0)
        have h10 : NoNewWaits s s10 := h9.trans (.foldl (fun u d => u.clearRegs_noNewWaits _) _ _)
        have h11 : NoNewWaits s s11 := ((h10.keeps (s10.fset_keeps PTN_EVENT_CONFLICT p 0)).keeps
          (State.fset_keeps _ PTN_EVENT_BIND_REFUSED p 0)).keeps (State.clearPage_keeps _ _)
        have h12 : NoNewWaits s s12 := h11.trans (s11.clearRegs_noNewWaits _)
        refine h12.trans (.foldl (fun u d => ?_) _ _)
        extract_lets v
        split <;> exact fun _ h => h

theorem State.resetIfDue_noNewWaits (s : State) (p : Nat) : NoNewWaits s (s.resetIfDue p) := by
  unfold State.resetIfDue
  split
  · exact s.resetPtn_noNewWaits p
  · exact .refl s

end Sys2Proof.Machine
end

section
/-!
Tick edges, slot boundaries and changes of period (R29 to R35, R54, R55, R594, R595).
-/
namespace Sys2Proof.Machine
set_option Elab.async false

/-! ### The instant of a boundary (R29) -/

section
variable {s : State} {p t : Nat}

theorem State.periodNs_congr {s t : State} {p : Nat} (h : t.part p = s.part p) : t.periodNs p = s.periodNs p := by
  unfold State.periodNs
  rw [h]

theorem State.slotsOf_congr {s t : State} {p : Nat} (h : t.part p = s.part p) : t.slotsOf p = s.slotsOf p := by
  unfold State.slotsOf
  rw [h]

@[simp] theorem State.periodNs_advanceTo (s : State) (t p : Nat) : (s.advanceTo t).periodNs p = s.periodNs p :=
  State.periodNs_congr (s.advanceTo_part t p)

@[simp] theorem State.slotsOf_advanceTo (s : State) (t p : Nat) : (s.advanceTo t).slotsOf p = s.slotsOf p :=
  State.slotsOf_congr (s.advanceTo_part t p)

theorem State.advanceTo_ptn (s : State) (t : Nat) : s.agree (s.advanceTo t) (.regs .ptn) := (s.advanceTo_keeps t).same _ (by decide)

theorem State.periodDue_settled (h : (s.part p).pendPer = false) : s.periodDue p = s := by
  unfold State.periodDue
  simp only [h, Bool.false_and, Bool.false_eq_true, if_false]

/-! ### A tick edge (R54, R93) -/

/-- What a tick edge does whether the generator runs or not, before the generator's steps (R54). -/
def State.edgeWork (s : State) (p : Nat) : State :=
  let u := s.pmcEdge p (s.clk.tNs / s.periodNs p) s.clk.tNs
  (u.boundaryDies p).foldl (fun (s : State) d => ((s.nrtTick d).ueTick d).ftlTick d) u

theorem State.edgeWork_keeps (s : State) (p : Nat) : Keeps 0x20441ECE9 s (s.edgeWork p) := by
  refine Keeps.foldl _ _ (fun u d => ?_) (s.pmcEdge_keeps p _ _).mono
  exact ((u.nrtTick_keeps d).mono.trans (State.ueTick_keeps _ d)).trans (State.ftlTick_keeps _ d)

/-- The generator's steps at a tick edge that it takes, or its stop (R34, R54). -/
def State.genWork (s : State) (p tick t : Nat) : State :=
  if s.fbit TIK_PERIOD_EN p && s.ticksAllowed then s.tickSteps p tick t else (s.stopGen p).clearSums p

/-- What ends a tick edge: a reset that waited, the events of the tick and the answers to RESYNC (R338, R342, R517). -/
def State.closeEdge (s : State) (p : Nat) : State := (((s.resetIfDue p).postRegs p).takeResync (2 * p)).takeResync (2 * p + 1)

theorem State.postEvents_keeps (s : State) (p : Nat) : Keeps 0x4408069 s (((s.postRegs p).takeResync (2 * p)).takeResync (2 * p + 1)) :=
  ((s.postRegs_keeps p).mono.trans (State.takeResync_keeps _ _)).trans (State.takeResync_keeps _ _)

theorem State.closeEdge_clk (s : State) (p : Nat) : (s.closeEdge p).clk = s.clk :=
  ((State.postEvents_keeps _ p).same .clk (by decide)).trans ((s.resetIfDue_keeps p).same .clk (by decide))

theorem State.closeEdge_noNewWaits (s : State) (p : Nat) : NoNewWaits s (s.closeEdge p) :=
  (s.resetIfDue_noNewWaits p).keeps (State.postEvents_keeps _ p)

theorem exec_tickBoundary (hp : p < 8) (hpend : (s.part p).pendPer = false) (hedge : max s.clk.tNs t % s.periodNs p = 0)
    (hgen : (s.part p).genOn = true) (hnew : max s.clk.tNs t ≠ (s.part p).slotT) :
    exec (.tickBoundary p t) s = .next (
      let a := s.advanceTo t
      ((a.edgeWork p).genWork p (a.clk.tNs / a.periodNs p) a.clk.tNs).closeEdge p) := by
  have hdue : (s.advanceTo t).periodDue p = s.advanceTo t := State.periodDue_settled (by rw [State.advanceTo_part, hpend])
  have hact : ¬ ((s.advanceTo t).clk.tNs % (s.advanceTo t).periodNs p ≠ 0 ∨
      ((s.advanceTo t).part p).genOn = true ∧ (s.advanceTo t).clk.tNs = ((s.advanceTo t).part p).slotT) := by
    rw [s.advanceTo_tNs, s.periodNs_advanceTo, s.advanceTo_part]
    rintro (h | ⟨-, h⟩)
    · exact h hedge
    · exact hnew h
  show execTickBoundary p t s = _
  unfold execTickBoundary
  simp only [hdue]
  rw [if_neg (Nat.not_le.2 hp), if_neg hact]
  simp only [State.advanceTo_part, hgen, if_true]
  rfl

theorem State.tickSteps_applies {k : Nat} (s : State) (tick t : Nat) (hb : s.boundaryOf (keyOff k) = some p) (ha : avsKey k = false) :
    tget (s.tickSteps p tick t).force k = none := by
  unfold State.tickSteps
  extract_lets +onlyGivenNames dies last cut s1 pw s2 s3 s4 s5 s6 s7 s8 s9 s10
  have h1 : Keeps 0x20 s s1 := s.modPart_keeps _ _
  have h2 : Keeps 0x20020 s s2 := h1.mono.pwr _
  have h3 : Keeps 0x20024 s s3 := h2.mono.trans (s2.applyWrites_keeps _ _)
  have h4 : Keeps 0x2840287AC s s4 :=
    Keeps.foldl _ _ (fun u d => (u.advanceEpoch_keeps d _).mono.trans (State.tombClean_keeps _ d)) h3.mono
  have h5 : Keeps 0x2842287AC s s5 := Keeps.foldl _ _ (fun u d => (u.fset_keeps _ _ _).mono) h4.mono
  have h6 : Keeps 0x28462A7ED s s6 := h5.mono.trans (s5.updateScale_keeps _)
  have happlied : tget s7.force k = none :=
    s6.applyWrites_applies ((State.boundaryOf_congr (h6.same (.regs .ptn) (by decide)) _).trans hb) ha rfl
  have h8 : NoNewWaits s7 s8 := by
    unfold s8
    split
    · exact .refl s7
    · exact .foldl (fun u d => .ofKeeps (u.carryOver_keeps _ _ _ _)) _ _
  have h9 : NoNewWaits s8 s9 := .foldl (fun u d => by
    extract_lets v
    exact (NoNewWaits.ofKeeps (u.modStg_keeps _ _)).trans (((((NoNewWaits.refl v).keeps (v.measure_keeps d)).keeps
      (State.poolCheck_keeps _ d)).keeps (State.missHints_keeps _ d _)).keeps (State.retryAllocs_keeps _ d))) _ _
  have h10 : NoNewWaits s9 s10 := .ofKeeps (s9.admitAll_keeps _ _)
  exact (h8.trans (h9.trans (h10.trans (.foldl (fun u d => .ofKeeps (u.park_keeps d)) _ _)))) k happlied

theorem State.stopGen_applies {k : Nat} (s : State) (hb : s.boundaryOf (keyOff k) = some p) (ha : avsKey k = false) :
    tget (s.stopGen p).force k = none := by
  unfold State.stopGen
  extract_lets +onlyGivenNames s1 s2
  have happlied : tget s1.force k = none := s.applyWrites_applies hb ha rfl
  have h2 : NoNewWaits s1 s2 := .ofKeeps (s1.takePeriod_keeps _)
  refine (h2.trans (.foldl (fun u d => ?_) _ _)) k happlied
  extract_lets +onlyGivenNames l v
  exact (NoNewWaits.ofKeeps (u.modCsm_keeps _ _)).trans (.foldl (fun w h => .ofKeeps (w.failHeld_keeps _ _ _)) _ _)

theorem State.genWork_applies {k : Nat} (s : State) (tick t : Nat) (hb : s.boundaryOf (keyOff k) = some p) (ha : avsKey k = false) :
    tget (s.genWork p tick t).force k = none := by
  unfold State.genWork
  split
  · exact s.tickSteps_applies tick t hb ha
  · exact (NoNewWaits.ofKeeps ((s.stopGen p).clearSums_keeps p)) k (s.stopGen_applies hb ha)

theorem State.genWork_clk (s : State) (p tick t : Nat) : (s.genWork p tick t).clk = s.clk := by
  unfold State.genWork
  split
  · exact (s.tickSteps_keeps p tick t).same .clk (by decide)
  · exact ((s.stopGen_keeps p).mono.trans (m := 0x42640ABED) (State.clearSums_keeps _ p)).same .clk (by decide)

/-- R54, R55, R594: at an untaken tick edge of a partition that runs every waiting write of its registers comes into force. -/
theorem tickBoundary_applies (hp : p < 8) (hpend : (s.part p).pendPer = false) (hedge : max s.clk.tNs t % s.periodNs p = 0)
    (hgen : (s.part p).genOn = true) (hnew : max s.clk.tNs t ≠ (s.part p).slotT) :
    Runs (.tickBoundary p t) s (fun u => u.clk.tNs = max s.clk.tNs t ∧
      ∀ k, s.boundaryOf (keyOff k) = some p → avsKey k = false → tget u.force k = none) := by
  refine ⟨_, exec_tickBoundary hp hpend hedge hgen hnew, ?_, fun k hb ha => ?_⟩
  · rw [State.closeEdge_clk, State.genWork_clk, show State.clk (State.edgeWork _ p) = _ from (State.edgeWork_keeps _ p).same .clk (by decide),
      s.advanceTo_tNs]
  · have hptn : s.agree ((s.advanceTo t).edgeWork p) (.regs .ptn) :=
      State.agree_trans (s.advanceTo_ptn t) ((State.edgeWork_keeps _ p).same _ (by decide))
    exact State.closeEdge_noNewWaits _ p k (State.genWork_applies _ _ _ ((State.boundaryOf_congr hptn _).trans hb) ha)

/-! ### A slot boundary (R35, R55) -/

/-- What a slot boundary does before a reset that waited takes place. -/
def State.slotWork (s : State) (p : Nat) : State :=
  let u := (s.modPart p (fun v => { v with slotT := s.clk.tNs })).applyWrites p (fun k => !slotKey k)
  ((u.boundaryDies p).foldl (fun (s : State) d => s.retryAllocs d) u).admitAll p s.clk.tNs

theorem exec_slotBoundary (hp : p < 8) (hgen : (s.part p).genOn = true) (hnew : max s.clk.tNs t ≠ (s.part p).slotT)
    (htick : max s.clk.tNs t % s.periodNs p ≠ 0) (hslot : max s.clk.tNs t % s.periodNs p * s.slotsOf p % s.periodNs p = 0) :
    exec (.slotBoundary p t) s = .next (((s.advanceTo t).slotWork p).resetIfDue p) := by
  show execSlotBoundary p t s = _
  unfold execSlotBoundary
  simp only [s.advanceTo_tNs, s.advanceTo_part, s.periodNs_advanceTo, s.slotsOf_advanceTo, hgen]
  refine (if_neg ?_).trans ?_
  · rintro (h | h | h | h | h)
    · exact Nat.not_le.2 hp h
    · exact absurd h (by decide)
    · exact hnew h
    · exact htick h
    · exact h hslot
  · unfold State.slotWork
    simp only [s.advanceTo_tNs]

/-- After the boundary is taken, its writes applied: what follows draws on the partitions' records and the clock alone. -/
theorem State.slotWork_spec (s : State) (p : Nat) :
    Keeps 0x7E660EFEB ((s.modPart p (fun v => { v with slotT := s.clk.tNs })).applyWrites p (fun k => !slotKey k)) (s.slotWork p) ∧
      SameStanding (s.modPart p (fun v => { v with slotT := s.clk.tNs })) (s.slotWork p) := by
  unfold State.slotWork
  extract_lets u
  have hu : SameStanding (s.modPart p (fun v => { v with slotT := s.clk.tNs })) u := .ofKeeps (State.applyWrites_keeps _ _ _)
  refine ⟨(Keeps.foldl _ _ (fun v d => (v.retryAllocs_keeps d).mono) (Keeps.refl u)).trans (State.admitAll_keeps _ _ _), ?_⟩
  exact (hu.trans (.foldl (fun v d => v.retryAllocs_standing d) _ u)).trans (State.admitAll_standing _ _ _)

theorem State.slotWork_part (s : State) (p : Nat) :
    ((s.slotWork p).part p).slotT = s.clk.tNs ∧ ((s.slotWork p).part p).resetDue = (s.part p).resetDue := by
  have h := (s.slotWork_spec p).2 p
  rw [State.modPart_part_self] at h
  have hslot := congrArg Part.slotT h
  have hreset := congrArg Part.resetDue h
  exact ⟨hslot, hreset⟩

theorem State.slotWork_clk (s : State) (p : Nat) : (s.slotWork p).clk = s.clk := (s.slotWork_spec p).1.same .clk (by decide)

theorem State.slotWork_applies {k : Nat} (s : State) (hb : s.boundaryOf (keyOff k) = some p) (hs : slotKey k = true)
    (ha : avsKey k = false) : tget (s.slotWork p).force k = none := by
  refine NoNewWaits.ofKeeps (s.slotWork_spec p).1 (by decide) k (State.applyWrites_applies _ hb ha ?_)
  rw [hs]
  rfl

/-- R35, R55, R594: at an untaken slot boundary of a partition that runs the waiting writes of the slot registers come into force. -/
theorem slotBoundary_applies (hp : p < 8) (hgen : (s.part p).genOn = true) (hreset : (s.part p).resetDue = false)
    (hnew : max s.clk.tNs t ≠ (s.part p).slotT) (htick : max s.clk.tNs t % s.periodNs p ≠ 0)
    (hslot : max s.clk.tNs t % s.periodNs p * s.slotsOf p % s.periodNs p = 0) :
    Runs (.slotBoundary p t) s (fun u => u.clk.tNs = max s.clk.tNs t ∧ (u.part p).slotT = max s.clk.tNs t ∧
      ∀ k, s.boundaryOf (keyOff k) = some p → slotKey k = true → avsKey k = false → tget u.force k = none) := by
  obtain ⟨htaken, hdue⟩ := (s.advanceTo t).slotWork_part p
  have hstays : ((s.advanceTo t).slotWork p).resetIfDue p = (s.advanceTo t).slotWork p := by
    unfold State.resetIfDue
    rw [hdue, s.advanceTo_part, hreset]
    rfl
  refine ⟨_, (exec_slotBoundary hp hgen hnew htick hslot).trans (congrArg _ hstays), ?_, ?_, fun k hb hs ha => ?_⟩
  · rw [State.slotWork_clk, s.advanceTo_tNs]
  · rw [htaken, s.advanceTo_tNs]
  · exact State.slotWork_applies _ ((State.boundaryOf_congr (s.advanceTo_ptn t) _).trans hb) hs ha

/-! ### TIK_PERIOD (R34, R595) -/

/-- What a VF sees goes by PTN_DIES and PTN_BIND. -/
theorem State.vfView_congr {s t : State} (h : s.agree t (.regs .ptn)) (f off : Nat) : t.vfView f off = s.vfView f off := by
  have hbound : ∀ p x, t.bound p x = s.bound p x := fun p x => by
    unfold State.bound State.fbit
    rw [h PTN_BIND_A_EN p rfl, h PTN_BIND_B_EN p rfl]
  have hdies : ∀ p, t.diesOf p = s.diesOf p := fun p => by
    unfold State.diesOf
    rw [h PTN_DIES_DIES p rfl]
  unfold State.vfView
  simp only [hbound, hdies]

theorem MayWrite.advanceTo {via : Via} {off : Nat} (h : MayWrite via off s) (t : Nat) : MayWrite via off (s.advanceTo t) := fun f e =>
  (State.vfView_congr (s.advanceTo_ptn t) f off).trans (h f e)

theorem tikPeriodEnWrite_writesEn {en : Bool} {via : Via} (hp : p < 8) (h : MayWrite via (TIK_PERIOD_EN.at_ p) s) :
    Runs (.tikPeriodEnWrite p en via) s (fun u =>
      u.fget TIK_PERIOD_EN p = en.toNat ∧ u.parts = s.parts ∧ RegsOnly s u [TIK_PERIOD_EN.key p]) := by
  have hrun : exec (.tikPeriodEnWrite p en via) s = .next (s.fput TIK_PERIOD_EN p en) :=
    congrArg Host.Outcome.next ((if_pos hp).trans (regWrite_reaches h))
  exact ⟨_, hrun, s.fget_fput_self _ _ _ (by decide), rfl, s.fset_regsOnly _ _ _⟩

theorem State.takePeriod_part (s : State) (p : Nat) : (s.takePeriod p).part p =
    { s.part p with perN := s.fget TIK_PERIOD_N p, perSlots := s.fget TIK_PERIOD_SLOTS p, pendPer := false } :=
  s.modPart_part_self p _

theorem State.takePeriod_regsOnly (s : State) (p : Nat) : RegsOnly s (s.takePeriod p) [] := fun _ _ _ => rfl

/-- N and SLOTS written while the generator does not run come into force at once. -/
theorem State.writePeriod_stopped {n slots : Nat} (hl : s.locked p = false) (hgen : (s.part p).genOn = false) (h1 : 1 ≤ n)
    (h40 : n ≤ 40) : s.writePeriod p n slots = ((s.fset TIK_PERIOD_N p n).fset TIK_PERIOD_SLOTS p slots).takePeriod p := by
  unfold State.writePeriod
  simp only [hl, Bool.false_eq_true, if_false, if_pos (And.intro h1 h40), State.fset_part, hgen]

theorem tikPeriodWrite_stopped {n slots : Nat} {via : Via} (hp : p < 8) (h : MayWrite via (TIK_PERIOD_N.at_ p) s)
    (hl : s.locked p = false) (hgen : (s.part p).genOn = false) (h1 : 1 ≤ n) (h40 : n ≤ 40) (hs : slots < 4) :
    Runs (.tikPeriodWrite p n slots t via) s (fun u =>
      u.fget TIK_PERIOD_N p = n ∧ u.fget TIK_PERIOD_SLOTS p = slots ∧ u.periodNs p = n * 50000 ∧ u.slotsOf p = 2 ^ slots ∧
      RegsOnly s u [TIK_PERIOD_N.key p, TIK_PERIOD_SLOTS.key p, TIK_HOLD_TIME_HELD.key 0]) := by
  have hrun : exec (.tikPeriodWrite p n slots t via) s =
      .next ((((s.advanceTo t).fset TIK_PERIOD_N p n).fset TIK_PERIOD_SLOTS p slots).takePeriod p) := by
    refine congrArg Host.Outcome.next ((if_pos hp).trans ((regWrite_reaches (h.advanceTo t)).trans ?_))
    rw [Nat.mod_eq_of_lt (show n < 64 by omega), Nat.mod_eq_of_lt hs]
    exact State.writePeriod_stopped ((State.locked_congr (s.advanceTo_ptn t) p).trans hl) (by rw [s.advanceTo_part, hgen]) h1 h40
  generalize hu : ((s.advanceTo t).fset TIK_PERIOD_N p n).fset TIK_PERIOD_SLOTS p slots = u at hrun
  have hkey : TIK_PERIOD_SLOTS.key p ≠ TIK_PERIOD_N.key p := Fld.key_ne_of_lo (by decide)
  have hn : u.fget TIK_PERIOD_N p = n := by
    rw [← hu, State.fget_fset_other _ _ _ _ _ _ hkey, State.fget_fset_self]
    exact Nat.mod_eq_of_lt (show n < 64 by omega)
  have hslots : u.fget TIK_PERIOD_SLOTS p = slots := by
    rw [← hu, State.fget_fset_self]
    exact Nat.mod_eq_of_lt hs
  refine ⟨_, hrun, hn, hslots, ?_, ?_, ?_⟩
  · unfold State.periodNs
    rw [State.takePeriod_part, hn]
  · unfold State.slotsOf
    rw [State.takePeriod_part, hslots]
  · rw [← hu]
    exact ((((s.advanceTo_regsOnly t).mono (by simp)).fset _ (by simp)).fset _ (by simp)).trans
      ((State.takePeriod_regsOnly _ p).mono (List.nil_subset _))

/-- R595: a waiting change applies at an untaken instant that is an edge of both periods. -/
theorem periodChangeApply_applies (hp : p < 8) (hpend : (s.part p).pendPer = true) (hnew : max s.clk.tNs t ≠ (s.part p).slotT)
    (hold : max s.clk.tNs t % s.periodNs p = 0) (hnext : max s.clk.tNs t % (s.fget TIK_PERIOD_N p * 50000) = 0) :
    Runs (.periodChangeApply p t) s (fun u =>
      u.periodNs p = s.fget TIK_PERIOD_N p * 50000 ∧ u.slotsOf p = 2 ^ s.fget TIK_PERIOD_SLOTS p ∧ (u.part p).pendPer = false ∧
      RegsOnly s u [TIK_HOLD_TIME_HELD.key 0]) := by
  have hheld : ∀ G : Fld, G.off = 0x10100 → G.stride = 0x40 → (s.advanceTo t).fget G p = s.fget G p := fun G ho hs =>
    s.fget_advanceTo t G p (Fld.key_ne_of_at (by
      have : TIK_HOLD_TIME_HELD.at_ 0 < 0x10100 := by decide
      unfold Fld.at_ at *
      omega))
  have hn := hheld TIK_PERIOD_N rfl rfl
  have hslots := hheld TIK_PERIOD_SLOTS rfl rfl
  have hrun : exec (.periodChangeApply p t) s = .next ((s.advanceTo t).takePeriod p) := by
    refine congrArg Host.Outcome.next ((if_pos hp).trans (if_pos ?_))
    simp [s.advanceTo_part, s.advanceTo_tNs, hn, hpend, hnew, hold, hnext]
  refine ⟨_, hrun, ?_, ?_, ?_, (s.advanceTo_regsOnly t).trans ((State.takePeriod_regsOnly _ p).mono (List.nil_subset _))⟩
  · unfold State.periodNs
    rw [State.takePeriod_part, hn]
  · unfold State.slotsOf
    rw [State.takePeriod_part, hslots]
  · rw [State.takePeriod_part]

end

/-- Settles O3: the writes are applied at the boundary and what follows adds none; the slot boundary taken stays so, as admission leaves
the partition's record but for its descriptors and contexts. -/
theorem ticksAndSlots : Obligations.TicksAndSlots := by
  unfold Obligations.TicksAndSlots
  exact ⟨fun s p t hp hpend _ hedge hgen hnew => tickBoundary_applies hp hpend hedge hgen hnew,
    fun s p t hp hgen hreset hnew htick hslot => slotBoundary_applies hp hgen hreset hnew htick hslot,
    fun s p en via hp h => tikPeriodEnWrite_writesEn hp h,
    fun s p n slots t via hp h hl hgen h1 h40 hs => tikPeriodWrite_stopped hp h hl hgen h1 h40 hs,
    fun s p t hp hpend hnew hold hnext => periodChangeApply_applies hp hpend hnew hold hnext⟩

end Sys2Proof.Machine
end

section
/-!
CSM_CTRL.EN, the byte counts of ATM, and the end of a rebuild step (R150, R209, R214, R594).
-/
namespace Sys2Proof.Machine
set_option Elab.async false

/-! ### An entry of a table changed -/

section
variable {α : Type} {t : List (Nat × α)} {k j : Nat}

theorem tget_tmod_self {v : α} (f : α → α) (h : tget t k = some v) : tget (tmod t k f) k = some (f v) := by
  unfold tmod
  rw [h]
  exact tget_tput_self _ _ _

theorem tget_tmod_other (f : α → α) (h : k ≠ j) : tget (tmod t k f) j = tget t j := by
  unfold tmod
  split
  · rfl
  · exact tget_tput_other _ _ h

end

theorem State.page?_modPage_self {s : State} {d id : Nat} {p : Page} (f : Page → Page) (h : s.page? d id = some p) :
    (s.modPage d id f).page? d id = some (f p) := by
  unfold State.page? State.modPage
  rw [State.modPfx_pfx_self]
  exact tget_tmod_self f h

theorem State.page?_modPage_other (s : State) {d id j : Nat} (f : Page → Page) (h : id ≠ j) :
    (s.modPage d id f).page? d j = s.page? d j := by
  unfold State.page? State.modPage
  rw [State.modPfx_pfx_self]
  exact tget_tmod_other f h

theorem State.page?_congr {s t : State} (h : t.pfxs = s.pfxs) (d id : Nat) : t.page? d id = s.page? d id := by
  unfold State.page? State.pfx
  rw [h]

/-! ### Registers of one window -/

/-- Two fields of registers that repeat alike, at different offsets or from different lowest bits. -/
def Fld.apart (F G : Fld) : Bool := F.stride == G.stride && (F.off != G.off || F.lo % 32 != G.lo % 32)

theorem Fld.key_ne_of_apart (F : Fld) {G : Fld} (h : F.apart G = true) (i : Nat) : F.key i ≠ G.key i := by
  unfold Fld.apart at h
  simp only [Bool.and_eq_true, Bool.or_eq_true, beq_iff_eq, bne_iff_ne] at h
  obtain ⟨hs, ho | hl⟩ := h
  · exact Fld.key_ne_of_at (Fld.at_ne hs ho i)
  · exact Fld.key_ne_of_lo hl

/-! ### Event bits of a die window -/

theorem State.evtDie_regsOnly (s : State) (F : Fld) (d : Nat) : RegsOnly s (s.evtDie F d) [F.key d] := fun _ _ hG =>
  s.fget_evtDie_other _ _ _ _ (key_ne_of_notMem hG List.mem_cons_self)

theorem State.evtDie_csms (s : State) (F : Fld) (d : Nat) : (s.evtDie F d).csms = s.csms := by
  unfold State.evtDie
  split
  · rfl
  · extract_lets t
    split <;> rfl

theorem State.evtDie_pfxs (s : State) (F : Fld) (d : Nat) : (s.evtDie F d).pfxs = s.pfxs := by
  unfold State.evtDie
  split
  · rfl
  · extract_lets t
    split <;> rfl

theorem State.evtDie_force (s : State) (F : Fld) (d : Nat) : (s.evtDie F d).force = s.force := by
  unfold State.evtDie
  split
  · rfl
  · extract_lets t
    split <;> rfl

/-! ### The registers (R150, R214, R594) -/

section
variable {s : State} {d : Nat} {via : Via}

/-- While the generator runs the value in force stays (R594). -/
theorem State.inForce_fsetWhen {F : Fld} {i p : Nat} (v : Nat) (hb : s.boundaryOf (F.at_ i) = some p) (hg : (s.part p).genOn = true) :
    (s.fsetWhen F i v).inForce F i = s.inForce F i := by
  unfold State.fsetWhen
  rw [hb]
  dsimp only
  rw [if_pos hg]
  exact s.inForce_fsetLater F i v

theorem csmEnWrite_writesEn {en : Bool} (h : MayWrite via (CSM_CTRL_EN.at_ d) s) :
    Runs (.csmEnWrite d en via) s (fun u =>
      u.fget CSM_CTRL_EN d = en.toNat ∧ RegsOnly s u [CSM_CTRL_EN.key d] ∧
      (∀ p, s.boundaryOf (CSM_CTRL_EN.at_ d) = some p → (s.part p).genOn = true → u.inForce CSM_CTRL_EN d = s.inForce CSM_CTRL_EN d)) := by
  refine ⟨_, congrArg Host.Outcome.next (regWrite_reaches h), ?_, fun G j hG => ?_, fun p hb hg => State.inForce_fsetWhen _ hb hg⟩
  · rw [State.fget_fsetWhen]
    exact s.fget_fput_self CSM_CTRL_EN d en (by decide)
  · rw [State.fget_fsetWhen]
    exact s.fset_regsOnly _ _ _ G j hG

/-- The byte count of ATM by number (R214): coded, raw, plain. -/
def Casement.atmBytes (c : Casement) (which : Nat) : Nat := if which = 0 then c.coded else if which = 1 then c.rawBytes else c.plain

/-- R214: the live count goes out, its upper half latched. -/
theorem atmLoRead_latches {which : Nat} (h : MayRead via ((atmLo which).1.at_ d) s) (hs : s.shadowed d = false)
    (hw : (atmLo which).2.w = 32) :
    Runs (.atmLoRead d which via) s (fun u =>
      SentBy s u [.regValue ((atmLo which).1.at_ d) (BitVec.ofNat 32 ((s.csm d).atmBytes which))] ∧
      u.fget (atmLo which).2 d = (s.csm d).atmBytes which / 2 ^ 32 % 2 ^ 32 ∧
      RegsOnly s u [(atmLo which).1.key d, (atmLo which).2.key d]) := by
  have hread : s.readAtmLo d which = ((s.csm d).atmBytes which % 2 ^ 32,
      (s.fset (atmLo which).1 d ((s.csm d).atmBytes which)).fset (atmLo which).2 d ((s.csm d).atmBytes which / 2 ^ 32)) := by
    unfold State.readAtmLo
    rw [hs]
    rfl
  have hrun : exec (.atmLoRead d which via) s = .next (((s.fset (atmLo which).1 d ((s.csm d).atmBytes which)).fset (atmLo which).2 d
      ((s.csm d).atmBytes which / 2 ^ 32)).emit (.regValue ((atmLo which).1.at_ d) (BitVec.ofNat 32 ((s.csm d).atmBytes which)))) := by
    show execAtmLoRead d which via s = _
    unfold execAtmLoRead
    rw [regRead_reaches h, hread]
    congr 3
    exact BitVec.eq_of_toNat_eq (by simp)
  refine ⟨_, hrun, rfl, ?_, ?_⟩
  · rw [State.emit_fget, State.fget_fset_self, hw]
  · exact ((RegsOnly.refl s _).fset _ List.mem_cons_self).fset _ (List.mem_cons_of_mem _ List.mem_cons_self)

end

/-! ### A rebuild that finds its copy in HBM sound (R209) -/

section
variable {s : State} {d page a : Nat}

theorem faultsFld_cases (a : Nat) : faultsFld a ∈ [ATM_FAULTS_FAULTS0, ATM_FAULTS_FAULTS1, ATM_FAULTS_FAULTS2, ATM_FAULTS_FAULTS3] := by
  unfold faultsFld
  split
  · decide
  · split
    · decide
    · split <;> decide

/-- The fault counts have registers of their own. -/
theorem faultsFld_apart {G : Fld} (h : [ATM_FAULTS_FAULTS0, ATM_FAULTS_FAULTS1, ATM_FAULTS_FAULTS2, ATM_FAULTS_FAULTS3].all (·.apart G) = true)
    (a d : Nat) : (faultsFld a).key d ≠ G.key d :=
  Fld.key_ne_of_apart _ (List.all_eq_true.1 h _ (faultsFld_cases a)) d

/-- A fault charged to an atomizer short of FAULT_MAX is only counted (R210). -/
theorem State.chargeAtm_counts (ha : a < 4)
    (hm : s.inForce ATM_CFG_FAULT_MAX d = 0 ∨ s.fget (faultsFld a) d + 1 < s.inForce ATM_CFG_FAULT_MAX d) :
    s.chargeAtm d a = s.fadd (faultsFld a) d 1 := by
  have hkey : (faultsFld a).key d ≠ ATM_CFG_FAULT_MAX.key d := faultsFld_apart (by decide) a d
  have hmax : (s.fadd (faultsFld a) d 1).inForce ATM_CFG_FAULT_MAX d = s.inForce ATM_CFG_FAULT_MAX d := by
    unfold State.inForce
    rw [State.fget_fadd_other _ _ _ _ _ _ hkey, State.fadd_force]
  unfold State.chargeAtm
  rw [if_neg (by omega)]
  dsimp only
  rw [hmax, State.fget_fadd_self, if_neg]
  rintro ⟨h0, hle, -⟩
  omega

theorem State.endRebuild_csm (s : State) (d page : Nat) :
    ((s.endRebuild d page).csm d).rebuilds = (s.csm d).rebuilds.filter (fun x => x.1 != page) := by
  unfold State.endRebuild
  simp

theorem State.endRebuild_pfxs (s : State) (d page : Nat) : (s.endRebuild d page).pfxs = s.pfxs := rfl

theorem State.endRebuild_regsOnly (s : State) (d page : Nat) : RegsOnly s (s.endRebuild d page) [ATM_STATUS_REBUILDS.key d] := fun _ _ hG =>
  State.fget_fsat_other _ _ _ _ _ _ (key_ne_of_notMem hG List.mem_cons_self)

theorem State.modPage_congr {d id : Nat} {p : Page} {f g : Page → Page} (h : s.page? d id = some p) (hf : f p = g p) :
    s.modPage d id f = s.modPage d id g := by
  have hd : tmod (s.pfx d).pages id f = tmod (s.pfx d).pages id g := by
    unfold State.page? at h
    unfold tmod
    rw [h]
    exact congrArg _ hf
  unfold State.modPage State.modPfx
  dsimp only
  rw [hd]

/-- Bytes that are the page's own leave its record as it is (R213). -/
theorem Page.withImage_image (c : Ctx) (p : Page) : p.withImage c (p.image c) = p := if_pos rfl

/-- The state in which a rebuild from HBM ends: the page SEALED again, the task gone (R209). -/
def State.rebuiltFromHbm (s : State) (d page : Nat) : State :=
  ((s.modPage d page (fun p => { p with st := .sealed })).evtDie ATM_EVENT_CLEARED d).endRebuild d page

theorem State.rebuiltFromHbm_regsOnly (s : State) (d page : Nat) :
    RegsOnly s (s.rebuiltFromHbm d page) [ATM_EVENT_CLEARED.key d, ATM_STATUS_REBUILDS.key d] :=
  ((State.evtDie_regsOnly (s.modPage d page _) ATM_EVENT_CLEARED d).mono (by simp)).trans
    ((State.endRebuild_regsOnly _ d page).mono (by simp))

theorem State.rebuiltFromHbm_force (s : State) (d page : Nat) : (s.rebuiltFromHbm d page).force = s.force :=
  (State.evtDie_force _ _ _).trans rfl

/-- The rebuild writes none of the registers that count faults. -/
theorem faultsFld_key_notMem (a d : Nat) : (faultsFld a).key d ∉ [ATM_EVENT_CLEARED.key d, ATM_STATUS_REBUILDS.key d] := by
  simp only [List.mem_cons, List.not_mem_nil, or_false, not_or]
  exact ⟨faultsFld_apart (by decide) a d, faultsFld_apart (by decide) a d⟩

theorem State.rebuiltFromHbm_chargeAtm {page : Nat}
    (hm : 4 ≤ a ∨ s.inForce ATM_CFG_FAULT_MAX d = 0 ∨ s.fget (faultsFld a) d + 1 < s.inForce ATM_CFG_FAULT_MAX d) :
    (s.rebuiltFromHbm d page).chargeAtm d a =
      if a < 4 then (s.rebuiltFromHbm d page).fadd (faultsFld a) d 1 else s.rebuiltFromHbm d page := by
  split
  next ha =>
    refine State.chargeAtm_counts ha ?_
    have hmax : (s.rebuiltFromHbm d page).inForce ATM_CFG_FAULT_MAX d = s.inForce ATM_CFG_FAULT_MAX d := by
      unfold State.inForce
      rw [s.rebuiltFromHbm_force, s.rebuiltFromHbm_regsOnly d page ATM_CFG_FAULT_MAX d ?_]
      simp only [List.mem_cons, List.not_mem_nil, or_false, not_or]
      exact ⟨ATM_CFG_FAULT_MAX.key_ne_of_apart (by decide) d, ATM_CFG_FAULT_MAX.key_ne_of_apart (by decide) d⟩
    rw [hmax, s.rebuiltFromHbm_regsOnly d page _ d (faultsFld_key_notMem a d)]
    exact hm.resolve_left (by omega)
  next ha => exact if_pos (Nat.le_of_not_lt ha)

theorem exec_rebuildDone_sound {p : Page} {c : Ctx} (ht : (s.csm d).rebuilds.find? (fun x => x.1 == page) = some (page, 1, a))
    (hp : s.page? d page = some p) (hst : p.st = .suspect) (hc : s.dieCtx? d p.ctx = some c) (hs : p.sound c (p.image c) = true)
    (hm : 4 ≤ a ∨ s.inForce ATM_CFG_FAULT_MAX d = 0 ∨ s.fget (faultsFld a) d + 1 < s.inForce ATM_CFG_FAULT_MAX d) :
    exec (.rebuildDone d page .stored) s =
      .next (if a < 4 then (s.rebuiltFromHbm d page).fadd (faultsFld a) d 1 else s.rebuiltFromHbm d page) := by
  have hpage : s.modPage d page (fun x => { x.withImage c (p.image c) with st := .sealed }) =
      s.modPage d page (fun x => { x with st := .sealed }) :=
    State.modPage_congr hp (by rw [Page.withImage_image])
  have hfenced : ((s.rebuiltFromHbm d page).chargeAtm d a).fbitAt ATM_FENCE_FENCED d a =
      (s.rebuiltFromHbm d page).fbitAt ATM_FENCE_FENCED d a := by
    rw [State.rebuiltFromHbm_chargeAtm hm]
    split
    · unfold State.fbitAt
      rw [State.fget_fadd_other _ _ _ _ _ _ (faultsFld_apart (by decide) a d)]
    · rfl
  rw [← State.rebuiltFromHbm_chargeAtm hm]
  show execRebuildDone d page .stored s = _
  unfold execRebuildDone
  simp only [ht, hp, hst, hc, hs, if_true, ne_eq, not_true, if_false, hpage]
  refine if_neg ?_
  rw [Bool.and_eq_true, Bool.and_eq_true]
  rintro ⟨⟨-, h1⟩, h2⟩
  exact absurd (hfenced.symm.trans h1) (by simpa [State.rebuiltFromHbm] using h2)

/-- R209, R210: a sound copy in HBM returns the page to SEALED and ends the task. -/
theorem rebuildDone_clears {p : Page} {c : Ctx} (ht : (s.csm d).rebuilds.find? (fun x => x.1 == page) = some (page, 1, a))
    (hp : s.page? d page = some p) (hst : p.st = .suspect) (hc : s.dieCtx? d p.ctx = some c) (hs : p.sound c (p.image c) = true)
    (hm : 4 ≤ a ∨ s.inForce ATM_CFG_FAULT_MAX d = 0 ∨ s.fget (faultsFld a) d + 1 < s.inForce ATM_CFG_FAULT_MAX d) :
    Runs (.rebuildDone d page .stored) s (fun u => u.page? d page = some { p with st := .sealed } ∧ Raised u ATM_EVENT_CLEARED d ∧
      (u.csm d).rebuilds = (s.csm d).rebuilds.filter (fun x => x.1 != page) ∧
      (a < 4 → u.fget (faultsFld a) d = min (s.fget (faultsFld a) d + 1) (2 ^ (faultsFld a).w - 1)) ∧
      (∀ i, i ≠ page → u.page? d i = s.page? d i)) := by
  have hrun := exec_rebuildDone_sound ht hp hst hc hs hm
  generalize hu : (if a < 4 then (s.rebuiltFromHbm d page).fadd (faultsFld a) d 1 else s.rebuiltFromHbm d page) = u at hrun
  have hpfx : u.pfxs = (s.modPage d page (fun p => { p with st := .sealed })).pfxs := by
    have h : (s.rebuiltFromHbm d page).pfxs = _ := State.evtDie_pfxs _ _ _
    rw [← hu, ← h]
    split <;> rfl
  have hcsm : u.csm d = (s.rebuiltFromHbm d page).csm d := by
    rw [← hu]
    split <;> rfl
  have hcleared : u.fget ATM_EVENT_CLEARED d = (s.rebuiltFromHbm d page).fget ATM_EVENT_CLEARED d := by
    rw [← hu]
    split
    · exact State.fget_fadd_other _ _ _ _ _ _ fun e => faultsFld_key_notMem a d (e ▸ List.mem_cons_self)
    · rfl
  refine ⟨u, hrun, ?_, ?_, ?_, fun ha => ?_, fun i hi => ?_⟩
  · rw [State.page?_congr hpfx]
    exact State.page?_modPage_self _ hp
  · unfold Raised
    rw [hcleared]
    refine (State.endRebuild_regsOnly _ d page ATM_EVENT_CLEARED d ?_).trans_ne (State.fget_evtDie_self _ _ _ (by decide))
    exact fun e => ATM_EVENT_CLEARED.key_ne_of_apart (by decide) d (List.mem_singleton.1 e)
  · rw [hcsm]
    refine (State.endRebuild_csm _ d page).trans ?_
    rw [show ∀ x, (State.evtDie x ATM_EVENT_CLEARED d).csm d = x.csm d from fun x => congrArg (fun l => dget l Casement.init d) (x.evtDie_csms _ _)]
    rfl
  · rw [← hu, if_pos ha, State.fget_fadd_self, s.rebuiltFromHbm_regsOnly d page _ d (faultsFld_key_notMem a d)]
  · rw [State.page?_congr hpfx]
    exact State.page?_modPage_other _ _ (Ne.symm hi)

end

/-- Settles O9: the writes and reads of the registers are one update each, and a sound copy ends the rebuild at its first step. -/
theorem casementRegistersAndRebuilds : Obligations.CasementRegistersAndRebuilds := by
  unfold Obligations.CasementRegistersAndRebuilds
  exact ⟨fun s d en via h => csmEnWrite_writesEn h, fun s d via h hs => atmLoRead_latches (which := 0) h hs rfl,
    fun s d via h hs => atmLoRead_latches (which := 1) h hs rfl, fun s d via h hs => atmLoRead_latches (which := 2) h hs rfl,
    fun s d page a p c ht hp hst hc hs hm => rebuildDone_clears ht hp hst hc hs hm⟩

end Sys2Proof.Machine
end

section
/-!
A pane fenced while the unit-state table has every other pane of its Casement FENCED (R147, R148, R516, R521).
-/
namespace Sys2Proof.Machine
set_option Elab.async false

/-- The machine after reset, but for the unit-state rows of panes 1, 2 and 3 of die 0, which are FENCED. CSM_STATUS still shows the
four panes as active. -/
def onePaneLeft : State := [1, 2, 3].foldl (fun s i => s.modRow uPane 0 i (fun r => { r with data := 2 })) State.reset

/-- What FENCE of pane 0 leaves of `onePaneLeft`. -/
def noPaneLeft : State := stateOf onePaneLeft (execPaneFence 0 1 0 (.pf 0) onePaneLeft)

theorem exec_paneFence (d fence unfence : Nat) (via : Via) (s : State) :
    exec (.paneFence d fence unfence via) s = .next (stateOf s (execPaneFence d fence unfence via s)) := rfl

/-- The premises on the pane and on the other active panes hold. -/
theorem onePaneLeft_idle : onePaneLeft.shadowed 0 = false ∧ onePaneLeft.fbitAt CSM_PANE_FENCE_FENCED 0 0 = false ∧
    onePaneLeft.running? 0 = none ∧ onePaneLeft.unitExists uPane 0 0 = true ∧ (onePaneLeft.row uDie 0 0).lost = false ∧
    (onePaneLeft.row uPane 0 0).own = usACTIVE ∧ (onePaneLeft.row uPane 0 0).mgmt ≠ 1 ∧ (onePaneLeft.row uPane 0 0).passT = none ∧
    (List.range 4).any (fun x => x != 0 && onePaneLeft.fbitAt CSM_STATUS_PANE_ACT 0 x) = true := by decide +kernel

/-- The die is lost with its last pane, and its reset clears CSM_PANE_FENCE.FENCED. -/
theorem noPaneLeft_notFenced : noPaneLeft.fbitAt CSM_PANE_FENCE_FENCED 0 0 = false := by
  decide +kernel

/-- Refutes O8: the premises of FENCE ask for another pane that CSM_STATUS shows as active, not for one whose unit-state row is. Where
every other row is FENCED the Casement is fenced with the pane (R147), and the reset of the lost die leaves FENCED clear. -/
theorem not_panesFenceAndReturn : ¬ Obligations.PanesFenceAndReturn := by
  unfold Obligations.PanesFenceAndReturn
  rintro ⟨-, hidle, -⟩
  obtain ⟨hsh, hf, hrun, hex, hlost, hown, hmgmt, hpass, hother⟩ := onePaneLeft_idle
  obtain ⟨u, hu, -, hfenced, -⟩ := hidle onePaneLeft 0 0 (.pf 0) (fun _ e => nomatch e) hsh (by decide) hf hrun hex hlost hown hmgmt hpass hother
  obtain rfl : noPaneLeft = u := Host.Outcome.next.inj ((exec_paneFence 0 1 0 (.pf 0) onePaneLeft).symm.trans hu)
  rw [noPaneLeft_notFenced] at hfenced
  exact Bool.false_ne_true hfenced

end Sys2Proof.Machine
end

section
/-!
The descriptors of the Casement: SWEEP_SET, LATENT_LOAD, GRAD_OPEN, GRAD_CLOSE and STEP (R110, R169, R181, R182, R330).
-/
namespace Sys2Proof.Machine
set_option Elab.async false

/-! ### A part of the partitions' records that stays -/

/-- `f` of every partition's record is as before. -/
def PartsAgree {α : Type} (f : Part → α) (s t : State) : Prop := ∀ p, f (t.part p) = f (s.part p)

section
variable {α : Type} {f : Part → α} {s t u : State}

theorem PartsAgree.refl (s : State) : PartsAgree f s s := fun _ => rfl

theorem PartsAgree.trans (h : PartsAgree f s t) (k : PartsAgree f t u) : PartsAgree f s u := fun p => (k p).trans (h p)

theorem PartsAgree.ofParts (h : t.parts = s.parts) : PartsAgree f s t := fun p => by
  unfold State.part
  rw [h]

theorem PartsAgree.ofKeeps {m : Nat} (h : Keeps m s t) (hm : m.testBit 5 = false := by decide) : PartsAgree f s t :=
  .ofParts (h.same .parts hm)

theorem PartsAgree.modPart (s : State) (p : Nat) {g : Part → Part} (hg : ∀ v, f (g v) = f v) : PartsAgree f s (s.modPart p g) := fun q => by
  by_cases e : p = q
  · subst e
    rw [State.modPart_part_self]
    exact hg _
  · rw [State.modPart_part_other _ _ e]

theorem PartsAgree.ite {p : Prop} [Decidable p] (h : PartsAgree f s t) (k : PartsAgree f s u) : PartsAgree f s (if p then t else u) := by
  split <;> assumption

section
variable (hf : ∀ v l, f { v with outst := l } = f v)
include hf

/-- A completion changes of the partitions' records only the outstanding descriptors (R330). -/
theorem State.completeOne_partsAgree (s : State) (o : Outst) (status r0 r1 : Nat) : PartsAgree f s (s.completeOne o status r0 r1) := by
  unfold State.completeOne
  extract_lets k p s1 h s2 cq c live hd s4 sd s3 g
  have h2 : PartsAgree f s s2 := .ite (.modPart s p fun v => hf v _) (.modPart s p fun v => hf v _)
  have h4 : PartsAgree f s s4 := h2.trans (.ofKeeps (State.cqWrite_keeps _ _ _ _ _))
  have h3 : PartsAgree f s s3 :=
    .ite (.ite ((h4.trans (.ofKeeps (State.pmc_keeps _ _ _ _ _ _))).trans (.ofKeeps (State.hist_keeps _ _ _ _ _))) h4)
      ((h2.trans (.ofKeeps (State.modFn_keeps _ _ _))).trans
        ((PartsAgree.ofKeeps (State.fadd_keeps _ _ _ _)).trans (.ofKeeps (State.evtFn_keeps _ _ _))))
  exact .ite (h3.trans (.ofKeeps (State.raiseEvent_keeps _ _ _ _ _))) h3

theorem State.finishDeletes_partsAgree (s : State) (p : Nat) (l : List Outst) : PartsAgree f s (s.finishDeletes p l) := by
  induction l generalizing s with
  | nil => exact .refl s
  | cons o l ih =>
    unfold State.finishDeletes
    refine PartsAgree.trans ?_ (ih _)
    refine .ite (State.completeOne_partsAgree hf _ _ _ _ _) (.ite ?_ (.refl s))
    exact (PartsAgree.ofKeeps (s.modFn_keeps _ _)).trans (State.completeOne_partsAgree hf _ _ _ _ _)

theorem State.complete_partsAgree (s : State) (d : Desc) (status r0 r1 : Nat) : PartsAgree f s (s.complete d status r0 r1) := by
  unfold State.complete
  split
  · exact .refl s
  · exact (State.completeOne_partsAgree hf _ _ _ _ _).trans (State.finishDeletes_partsAgree hf _ _ _)

/-- A descriptor accepted and marked STARTED changes no more (R321). -/
theorem State.begin_partsAgree (s : State) (d : Desc) (op b : Nat) : PartsAgree f s (s.begin d op b) := by
  unfold State.begin
  refine PartsAgree.trans ?_ (.modPart _ _ fun v => hf v _)
  split
  · exact .refl s
  · exact (PartsAgree.modPart s _ fun v => hf v _).trans (.ofParts rfl)

end
end

/-! ### What a descriptor finds when it begins (R321, R346) -/

section
variable (s : State) (q : Desc) (op b : Nat)

@[simp] theorem State.begin_ctx? (p c : Nat) : (s.begin q op b).ctx? p c = s.ctx? p c := by
  unfold State.ctx?
  rw [State.begin_partsAgree (f := Part.ctxs) (fun _ _ => rfl) s q op b p]

@[simp] theorem State.begin_lostGrads (p : Nat) : ((s.begin q op b).part p).lostGrads = (s.part p).lostGrads :=
  State.begin_partsAgree (f := Part.lostGrads) (fun _ _ => rfl) s q op b p

@[simp] theorem State.begin_genOn (p : Nat) : ((s.begin q op b).part p).genOn = (s.part p).genOn :=
  State.begin_partsAgree (f := Part.genOn) (fun _ _ => rfl) s q op b p

/-- Registers outside HRG are as they were. -/
theorem State.fget_begin_of_blk {F : Fld} (i : Nat) (h : F.blk ≠ .hrg) : (s.begin q op b).fget F i = s.fget F i :=
  State.fget_begin _ _ _ _ _ _ (Fld.key_ne _ _ (Ne.symm h))

@[simp] theorem State.begin_csms : (s.begin q op b).csms = s.csms := (s.begin_keeps q op b).same .csms (by decide)
@[simp] theorem State.begin_pfxs : (s.begin q op b).pfxs = s.pfxs := (s.begin_keeps q op b).same .pfxs (by decide)
@[simp] theorem State.begin_ras : (s.begin q op b).ras = s.ras := (s.begin_keeps q op b).same .ras (by decide)
@[simp] theorem State.begin_clk : (s.begin q op b).clk = s.clk := (s.begin_keeps q op b).same .clk (by decide)

@[simp] theorem State.begin_csm (d : Nat) : (s.begin q op b).csm d = s.csm d := by
  unfold State.csm
  rw [State.begin_csms]

@[simp] theorem State.begin_pfx (d : Nat) : (s.begin q op b).pfx d = s.pfx d := by
  unfold State.pfx
  rw [State.begin_pfxs]

@[simp] theorem State.begin_dieDown (d : Nat) : (s.begin q op b).dieDown d = s.dieDown d := by
  unfold State.dieDown
  rw [State.fget_begin_of_blk _ _ _ _ _ (by decide)]

@[simp] theorem State.begin_diesOf (p : Nat) : (s.begin q op b).diesOf p = s.diesOf p := by
  unfold State.diesOf
  rw [State.fget_begin_of_blk _ _ _ _ _ (by decide)]

@[simp] theorem State.begin_owner (d : Nat) : (s.begin q op b).owner d = s.owner d :=
  State.owner_congr ((s.begin_keeps q op b).same (.regs .ptn) (by decide)) d

@[simp] theorem State.begin_seqSlot? (d n : Nat) : (s.begin q op b).seqSlot? d n = s.seqSlot? d n := by
  unfold State.seqSlot? State.probe
  rw [State.begin_pfx, State.fget_begin_of_blk _ _ _ _ _ (by decide)]

@[simp] theorem State.begin_gradBusy (d g : Nat) : (s.begin q op b).gradBusy d g = s.gradBusy d g := by
  unfold State.gradBusy
  rw [State.begin_csm]

@[simp] theorem State.begin_freeSegs (d : Nat) : (s.begin q op b).freeSegs d = s.freeSegs d := by
  refine SameSegs.freeSegs ⟨State.fget_begin_of_blk _ _ _ _ _ (by decide), State.fget_begin_of_blk _ _ _ _ _ (by decide), ?_, ?_, fun k => ?_⟩
  · rw [State.begin_pfx]
  · rw [State.begin_pfx]
  · unfold State.begin
    split <;> rfl

end

/-! ### Completions of begun descriptors (R330, R331) -/

section
variable {s v : State} {q : Desc} {op b : Nat}

/-- The completion of a begun descriptor goes out, whatever its own rules touched besides rings and functions. -/
theorem posts_after {m : Nat} (h : Live q s) (k : Keeps m (s.begin q op b) v) (ho : PartsAgree Part.outst (s.begin q op b) v)
    (status r0 r1 : Nat) (hfn : m.testBit 6 = false := by decide) (hrg : m.testBit 22 = false := by decide) :
    Posts s (v.complete q status r0 r1) q op status r0 r1 := by
  have hfns : v.fns = (s.begin q op b).fns := k.same .fns hfn
  have hfn' : ∀ g, v.fn g = (s.begin q op b).fn g := fun g => by
    unfold State.fn
    rw [hfns]
  have hout : v.outst? q = some (s.entryOf q op b) := by
    rw [← State.outst_begin s q op b h.2.1]
    unfold State.outst?
    rw [ho]
  have hreach : v.reaches (s.entryOf q op b) := by
    obtain ⟨hgen, hready, hcq⟩ := live_begin s q op b h
    unfold State.reaches
    rw [hfn']
    refine ⟨hgen, ?_, hcq⟩
    unfold State.ready State.fbit at *
    rwa [k.fget (b := .hrg) hrg rfl]
  obtain ⟨l, slot, ph, c, hl, hc, hst, h0, h1, htag, hsq, hop⟩ := State.complete_emits v q _ status r0 r1 hout hreach
  obtain ⟨l0, hl0⟩ := k.sent
  have hcq : (v.fn q.fn).cqOf q.sq = (s.fn q.fn).cqOf q.sq := by rw [hfn', State.fn_begin]
  rw [out_begin] at hl0
  refine ⟨slot, ph, c, ⟨l0 ++ l, by rw [hl, hl0, List.append_assoc], List.mem_append_right _ ?_⟩, hop, hst, h0, h1, htag, hsq⟩
  rw [← hcq]
  exact hc

theorem State.complete_csms (s : State) (status r0 r1 : Nat) : (s.complete q status r0 r1).csms = s.csms :=
  (s.complete_keeps q status r0 r1).same .csms (by decide)

end

/-! ### SWEEP_SET (R110) -/

section
variable {s : State} {q : Desc} {ctx : Nat} {c : Ctx}

theorem State.ctx?_modCtx_self {p n : Nat} (f : Ctx → Ctx) (h : s.ctx? p n = some c) : (s.modCtx p n f).ctx? p n = some (f c) := by
  unfold State.ctx? State.modCtx
  rw [State.modPart_part_self]
  exact tget_tmod_self f h

theorem sweepSet_setsDesc {b : SweepDesc} (ho : Open q s) (hl : Live q s) (hc : s.ctx? q.part ctx = some c)
    (hd : s.dieDown c.home = false) (hb : b.ok c = true) :
    Runs (.sweepSet q ctx b) s (fun u =>
      Posts s u q 0x30 stOK 0 0 ∧ u.ctx? q.part ctx = some { c with desc := b } ∧ u.csms = s.csms) := by
  let v := (s.begin q 0x30 ctx).modCtx q.part ctx (fun c => { c with desc := b })
  have hrun : exec (.sweepSet q ctx b) s = .next (v.complete q stOK 0 0) := by
    refine congrArg Host.Outcome.next ((runDesc_open s q 0x30 ctx _ ho).trans ?_)
    simp only [State.begin_ctx?, hc, hb, State.begin_dieDown, hd, Bool.not_true, Bool.false_eq_true, if_false]
    rfl
  refine ⟨_, hrun, posts_after hl (State.modCtx_keeps _ _ _ _) (.modPart _ _ fun _ => rfl) _ _ _, ?_, ?_⟩
  · have hcomp := State.complete_partsAgree (f := Part.ctxs) (fun _ _ => rfl) v q stOK 0 0 q.part
    unfold State.ctx?
    rw [hcomp]
    exact State.ctx?_modCtx_self _ (by rw [State.begin_ctx?, hc])
  · exact (State.complete_csms v _ _ _).trans (State.begin_csms s q _ _)

end

/-! ### LATENT_LOAD (R169, R170) -/

/-- Layers loaded leave the outstanding descriptors alone. -/
theorem State.loadLayers_outst {s t : State} {d p ctx : Nat} {c : Ctx} {fmt : Nat} {img : List Byte} {off l n : Nat}
    (h : s.loadLayers d p ctx c fmt img off l n = .ok t) : PartsAgree Part.outst s t := by
  induction n generalizing s off l with
  | zero =>
    cases h
    exact .refl _
  | succ n ih =>
    unfold State.loadLayers at h
    split at h
    · cases h
    next g s1 hseg =>
      have hsegs : PartsAgree Part.outst s s1 := .ofKeeps (KExc.eq hseg (s.ctxSegs_keeps _ _ _))
      refine hsegs.trans (PartsAgree.trans ?_ (ih h))
      refine PartsAgree.trans ?_ (.modPart _ _ fun _ => rfl)
      split
      · exact .ofKeeps (State.segsToLimbo_keeps _ _ _)
      · exact .refl s1

theorem latentLoad_loads {s : State} {q : Desc} {ctx first countM1 fmt bytes : Nat} {img : List Byte} {c : Ctx} (ho : Open q s)
    (hl : Live q s) (hc : s.ctx? q.part ctx = some c) (hd : s.dieDown c.home = false) (hlat : c.latent = true)
    (hlay : first + countM1 < c.layers) (hfmt : fmt = 1 ∨ fmt = 8) (hbytes : bytes = (countM1 + 1) * layerBytes c fmt)
    (himg : img.length = bytes)
    (hok : ((s.begin q 0x31 ctx).loadLayers c.home q.part ctx c fmt img 0 first (countM1 + 1)).isOk = true) :
    Runs (.latentLoad q ctx first countM1 fmt bytes none img) s (fun u => Posts s u q 0x31 stOK (countM1 + 1) 0) := by
  obtain ⟨v, hv⟩ : ∃ v, (s.begin q 0x31 ctx).loadLayers c.home q.part ctx c fmt img 0 first (countM1 + 1) = .ok v := by
    generalize State.loadLayers _ _ _ _ _ _ _ _ _ _ = r at hok
    cases r with
    | error _ => cases hok
    | ok v => exact ⟨v, rfl⟩
  have hform : (fmt != 1 && fmt != 8) = false := by rcases hfmt with rfl | rfl <;> rfl
  have hrun : exec (.latentLoad q ctx first countM1 fmt bytes none img) s = .next (v.complete q stOK (countM1 + 1) 0) := by
    refine congrArg Host.Outcome.next ((runDesc_open s q 0x31 ctx _ ho).trans ?_)
    simp only [State.begin_ctx?, hc, State.begin_dieDown, hd, hlat, hform, hv]
    rw [if_neg (by simp; omega), if_neg Bool.false_ne_true, if_neg (by omega)]
    rfl
  exact ⟨_, hrun, posts_after hl (KExc.eq hv (State.loadLayers_keeps _ _ _ _ _ _ _ _ _ _)) (State.loadLayers_outst hv) _ _ _⟩

/-! ### GRAD_OPEN (R181) -/

/-- Segments charged to a context are found while its quota and the pool allow them (R64). -/
theorem State.ctxSegs_ok {s : State} {d c n : Nat} (hq : s.quotaOk d c n = true) (hn : n ≤ s.freeSegs d) :
    s.ctxSegs d c n = .ok (s.takeSegs d n) := by
  unfold State.ctxSegs
  rw [if_neg (by simp [hq]), if_neg (by omega)]

theorem gradOpen_opens {s : State} {q : Desc} {ctx grad seq first countM1 posFirst posCount j : Nat} {c : Ctx} {e : SeqSlot}
    (ho : Open q s) (hl : Live q s) (hc : s.ctx? q.part ctx = some c) (hd : s.dieDown c.home = false) (hlat : c.latent = false)
    (hfree : (s.diesOf q.part).all (fun d => (tget (s.csm d).grads grad).isNone) = true) (hgrad : grad < 64)
    (hseq : s.seqSlot? c.home seq = some (j, e)) (hctx : e.ctx = ctx) (hlay : first + countM1 < c.layers) (h1 : 1 ≤ posCount)
    (hmax : posCount ≤ 2 ^ 20) (hend : posFirst + posCount ≤ 2 ^ 20)
    (hq : (s.begin q 0x32 (ctx + grad * 2 ^ 16 + seq * 2 ^ 32)).quotaOk c.home ctx (ceilDiv ((countM1 + 1) * posCount * gradEntry c) 4096) = true)
    (hsegs : ceilDiv ((countM1 + 1) * posCount * gradEntry c) 4096 ≤ s.freeSegs c.home) :
    Runs (.gradOpen q ctx grad seq first countM1 posFirst posCount) s (fun u =>
      Posts s u q 0x32 stOK (ceilDiv ((countM1 + 1) * posCount * gradEntry c) 4096) 0 ∧
      (∃ g, tget (u.csm c.home).grads grad = some g ∧ g.ctx = ctx ∧ g.seq = seq ∧ g.layerFirst = first ∧ g.layers = countM1 + 1 ∧
        g.posFirst = posFirst ∧ g.positions = posCount ∧ g.entries = [] ∧ g.count = 0 ∧ g.poisoned = false)) := by
  generalize hn : ceilDiv ((countM1 + 1) * posCount * gradEntry c) 4096 = n at *
  have hused : (s.diesOf q.part).any (fun d => (tget (s.csm d).grads grad).isSome) = false := by
    rw [List.any_eq_false]
    intro d hmem
    simpa using List.all_eq_true.1 hfree d hmem
  have hshape : decide (c.layers < first + countM1 + 1) = false ∧ (posCount == 0) = false ∧ decide (64 ≤ grad) = false ∧
      decide (2 ^ 20 < posCount) = false ∧ decide (2 ^ 20 < posFirst + posCount) = false := by
    simp only [decide_eq_false_iff_not, beq_eq_false_iff_ne]
    omega
  obtain ⟨hlay', hpos', hgrad', hmax', hend'⟩ := hshape
  let a := s.begin q 0x32 (ctx + grad * 2 ^ 16 + seq * 2 ^ 32)
  let g : Grad :=
    { ctx := ctx, seq := seq, layerFirst := first, layers := countM1 + 1, posFirst := posFirst, positions := posCount, entries := [],
      count := 0, poisoned := false, segs := (a.takeSegs c.home n).1, closing := [] }
  let v := (((a.takeSegs c.home n).2.modPart q.part (fun x => { x with lostGrads := x.lostGrads.filter (· != (ctx, grad)) })).modCsm
    c.home (fun x => { x with grads := tput x.grads grad g }))
  have hrun : exec (.gradOpen q ctx grad seq first countM1 posFirst posCount) s = .next (v.complete q stOK n 0) := by
    refine congrArg Host.Outcome.next ((runDesc_open s q 0x32 _ _ ho).trans ?_)
    have hsegs' := State.ctxSegs_ok hq (by rwa [State.begin_freeSegs])
    simp only [State.begin_ctx?, hc, State.begin_dieDown, hd, State.begin_diesOf, State.begin_csm, hused, State.begin_seqSlot?, hseq,
      hctx, hlat, hlay', hpos', hgrad', hmax', hend', hn, hsegs', beq_self_eq_true, Bool.not_true, Bool.or_false, Bool.false_eq_true,
      if_false]
    rfl
  have htake : Keeps 0x102 a (a.takeSegs c.home n).2 := State.takeSegs_keeps _ _ _
  have hkeeps : Keeps 0x1A2 a v := (htake.mono.trans (State.modPart_keeps _ _ _)).trans (State.modCsm_keeps _ _ _)
  have houtst : PartsAgree Part.outst a v :=
    (PartsAgree.ofKeeps htake).trans ((PartsAgree.modPart _ q.part
      (g := fun x => { x with lostGrads := x.lostGrads.filter (· != (ctx, grad)) }) fun _ => rfl).trans (.ofKeeps (State.modCsm_keeps _ _ _)))
  refine ⟨_, hrun, posts_after hl hkeeps houtst _ _ _, g, ?_, rfl, rfl, rfl, rfl, rfl, rfl, rfl, rfl, rfl⟩
  unfold State.csm
  rw [State.complete_csms]
  show tget (State.csm v c.home).grads grad = some g
  rw [State.modCsm_csm_self]
  exact tget_tput_self _ _ _

/-! ### GRAD_CLOSE (R182 to R184) -/

theorem gradClose_lost {s : State} {q : Desc} {ctx grad : Nat} {keep : Bool} {dest room : Nat} {c : Ctx} (ho : Open q s) (hl : Live q s)
    (hc : s.ctx? q.part ctx = some c) (hlost : (s.part q.part).lostGrads.contains (ctx, grad) = true) :
    Runs (.gradClose q ctx grad keep dest room) s (fun u =>
      Posts s u q 0x33 stLOST 0 0 ∧ (u.part q.part).lostGrads = (s.part q.part).lostGrads.filter (· != (ctx, grad)) ∧ u.csms = s.csms) := by
  let v := (s.begin q 0x33 (ctx + grad * 2 ^ 16)).modPart q.part (fun x => { x with lostGrads := x.lostGrads.filter (· != (ctx, grad)) })
  have hrun : exec (.gradClose q ctx grad keep dest room) s = .next (v.complete q stLOST 0 0) := by
    refine congrArg Host.Outcome.next ((runDesc_open s q 0x33 _ _ ho).trans ?_)
    simp only [State.begin_ctx?, hc, State.begin_lostGrads, hlost, if_true]
    rfl
  have hkeeps : Keeps 0x20 (s.begin q 0x33 (ctx + grad * 2 ^ 16)) v := State.modPart_keeps _ _ _
  have houtst : PartsAgree Part.outst (s.begin q 0x33 (ctx + grad * 2 ^ 16)) v := .modPart _ _ fun _ => rfl
  refine ⟨_, hrun, posts_after hl hkeeps houtst _ _ _, ?_, ?_⟩
  · have hcomp := State.complete_partsAgree (f := Part.lostGrads) (fun _ _ => rfl) v q stLOST 0 0 q.part
    rw [hcomp, State.modPart_part_self, State.begin_lostGrads]
  · exact (State.complete_csms v _ _ _).trans (State.begin_csms s q _ _)

/-- An entry put into a table, with what stands before and behind it. -/
theorem tput_split {α : Type} (t : List (Nat × α)) (k : Nat) (v : α) :
    ∃ l₁ l₂, tput t k v = l₁ ++ (k, v) :: l₂ ∧ l₁ ⊆ t ∧ l₂ ⊆ t := by
  induction t with
  | nil => exact ⟨[], [], rfl, List.Subset.refl _, List.Subset.refl _⟩
  | cons e r ih =>
    unfold tput
    split
    · exact ⟨[], e :: r, rfl, List.nil_subset _, List.Subset.refl _⟩
    · split
      · exact ⟨[], r, rfl, List.nil_subset _, List.subset_cons_self _ _⟩
      · obtain ⟨l₁, l₂, h, h₁, h₂⟩ := ih
        exact ⟨e :: l₁, l₂, by rw [h]; rfl, List.cons_subset_cons _ h₁, List.Subset.trans h₂ (List.subset_cons_self _ _)⟩

/-- Only regions that a GRAD_CLOSE waits for are settled. -/
theorem foldl_gradClose_idle {d : Nat} {l : List (Nat × Grad)} (h : ∀ e ∈ l, e.2.closing.isEmpty = true) (s : State) :
    l.foldl (fun s e => if e.2.closing.isEmpty || s.gradBusy d e.1 then s else s.gradClose d e.1 e.2 e.2.closing) s = s := by
  induction l generalizing s with
  | nil => rfl
  | cons e l ih =>
    rw [List.foldl_cons, h e List.mem_cons_self, Bool.true_or, if_pos rfl]
    exact ih (fun x hx => h x (List.mem_cons_of_mem _ hx)) s

/-- One GRAD_CLOSE waits on the die, and for no record: it completes (R182). -/
theorem State.gradSettle_one {s : State} {d id : Nat} {g : Grad} {t : List (Nat × Grad)} (hl : (s.csm d).grads = tput t id g)
    (ht : ∀ e ∈ t, e.2.closing.isEmpty = true) (hg : g.closing.isEmpty = false) (hb : s.gradBusy d id = false) :
    s.gradSettle d = s.gradClose d id g g.closing := by
  obtain ⟨l₁, l₂, hsplit, h₁, h₂⟩ := tput_split t id g
  unfold State.gradSettle
  rw [hl, hsplit, List.foldl_append, List.foldl_cons, foldl_gradClose_idle (fun e he => ht e (h₁ he)), hg, hb,
    Bool.false_or, if_neg Bool.false_ne_true]
  exact foldl_gradClose_idle (fun e he => ht e (h₂ he)) _

/-- The completion by function, SQ and index is that of the descriptor. -/
theorem State.completeKey_desc (s : State) {q : Desc} (h : q.port < 2) (status r0 r1 : Nat) :
    s.completeKey (q.fn, q.sq, q.index) status r0 r1 = s.complete q status r0 r1 := by
  have hpart : fnPart q.fn = q.part := by unfold fnPart Desc.fn; omega
  have hport : fnPort q.fn = q.port := by unfold fnPort Desc.fn; omega
  unfold State.completeKey
  dsimp only
  rw [hpart, hport]
  rfl

/-- The host gets the copy of a region that a GRAD_CLOSE asks for (R182). -/
def State.gradCopy (s : State) (d : Nat) (g : Grad) (k : Nat × Nat × Nat) (dest : Nat) : State :=
  if dest = 0 then s else match s.dieCtx? d g.ctx with | some c => s.descWrite k dest (g.bytes c) | none => s

theorem State.gradCopy_keeps (s : State) (d : Nat) (g : Grad) (k : Nat × Nat × Nat) (dest : Nat) : Keeps 0x8001 s (s.gradCopy d g k dest) := by
  unfold State.gradCopy
  split
  · exact .refl s
  · split
    · exact s.descWrite_keeps _ _ _
    · exact .refl s

/-- A region released: forgotten, and its segments given back or in limbo (R183). -/
def State.gradRelease (s : State) (d id : Nat) (g : Grad) (dest : Nat) : State :=
  if dest = 0 then (s.modCsm d (fun c => { c with grads := tdel c.grads id })).giveSegs d g.segs
  else (s.modCsm d (fun c => { c with grads := tdel c.grads id })).segsToLimbo d g.segs

theorem State.gradRelease_keeps (s : State) (d id : Nat) (g : Grad) (dest : Nat) : Keeps 0x180 s (s.gradRelease d id g dest) := by
  have hdel : Keeps 0x80 s (s.modCsm d (fun c => { c with grads := tdel c.grads id })) := State.modCsm_keeps _ _ _
  unfold State.gradRelease
  split
  · exact hdel.mono.trans ((State.giveSegs_keeps _ _ _).mono)
  · exact hdel.mono.trans ((State.segsToLimbo_keeps _ _ _).mono)

/-- The region is gone. -/
theorem State.gradRelease_grads (s : State) (d id : Nat) (g : Grad) (dest : Nat) : tget ((s.gradRelease d id g dest).csm d).grads id = none := by
  have hcsm : (s.gradRelease d id g dest).csm d = (s.modCsm d (fun c => { c with grads := tdel c.grads id })).csm d := by
    unfold State.csm State.gradRelease
    split
    · rw [(State.giveSegs_keeps _ _ _).same .csms (by decide)]
    · rw [(State.segsToLimbo_keeps _ _ _).same .csms (by decide)]
  rw [hcsm, State.modCsm_csm_self]
  exact tget_tdel_self _ _

/-- One GRAD_CLOSE that keeps its region copies it and completes (R182). -/
theorem State.gradClose_keep (s : State) (d id : Nat) {g : Grad} (f sq i dest : Nat) (h : g.poisoned = false) :
    s.gradClose d id g [(f, sq, i, true, dest)] =
      ((s.gradCopy d g (f, sq, i) dest).completeKey (f, sq, i) stOK g.count 0).modCsm d
        (fun c => { c with grads := tmod c.grads id (fun g => { g with closing := [] }) }) := by
  unfold State.gradClose
  rw [h, if_neg Bool.false_ne_true, if_pos rfl]
  rfl

/-- One GRAD_CLOSE that releases its region copies it, drops it and completes (R182, R183). -/
theorem State.gradClose_release (s : State) (d id : Nat) {g : Grad} (f sq i dest : Nat) (h : g.poisoned = false) :
    s.gradClose d id g [(f, sq, i, false, dest)] =
      ((s.gradCopy d g (f, sq, i) dest).gradRelease d id g dest).completeKey (f, sq, i) stOK g.count 0 := by
  unfold State.gradClose
  rw [h, if_neg Bool.false_ne_true, if_neg Bool.false_ne_true]
  rfl

theorem gradClose_closes {s : State} {q : Desc} {ctx grad : Nat} {keep : Bool} {dest room : Nat} {c : Ctx} {g : Grad} (ho : Open q s)
    (hl : Live q s) (hc : s.ctx? q.part ctx = some c) (hd : s.dieDown c.home = false)
    (hlost : (s.part q.part).lostGrads.contains (ctx, grad) = false) (hg : tget (s.csm c.home).grads grad = some g) (hctx : g.ctx = ctx)
    (hclosing : g.closing = []) (hroom : dest = 0 ∨ g.layers * g.positions * gradEntry c ≤ room)
    (hidle : (s.csm c.home).grads.all (fun e => e.2.closing.isEmpty) = true) (hbusy : s.gradBusy c.home grad = false)
    (hpois : g.poisoned = false) :
    Runs (.gradClose q ctx grad keep dest room) s (fun u =>
      Posts s u q 0x33 stOK g.count 0 ∧ tget (u.csm c.home).grads grad = if keep then some g else none) := by
  have hport : q.port < 2 := by
    have := hl.1
    simp [Desc.wf, lt2] at this
    omega
  let g' : Grad := { g with closing := [(q.fn, q.sq, q.index, keep, dest)] }
  let a := s.begin q 0x33 (ctx + grad * 2 ^ 16)
  let v := a.modCsm c.home (fun x => { x with grads := tput x.grads grad g' })
  have hv : v.csm c.home = { s.csm c.home with grads := tput (s.csm c.home).grads grad g' } := by
    show (State.modCsm _ _ _).csm _ = _
    rw [State.modCsm_csm_self, State.begin_csm]
  have hkv : Keeps 0x80 a v := State.modCsm_keeps _ _ _
  have hrun : exec (.gradClose q ctx grad keep dest room) s = .next (v.gradSettle c.home) := by
    refine congrArg Host.Outcome.next ((runDesc_open s q 0x33 _ _ ho).trans ?_)
    have hfits : ¬(g.ctx ≠ ctx ∨ g.poisoned = false ∧ dest ≠ 0 ∧ room < g.layers * g.positions * gradEntry c) := by
      simp only [hctx, hpois]
      omega
    simp only [State.begin_ctx?, hc, State.begin_lostGrads, hlost, State.begin_dieDown, hd, State.begin_csm, hg, hclosing,
      List.nil_append, Bool.false_eq_true, if_false]
    rw [if_neg hfits]
  have hsettle : v.gradSettle c.home = v.gradClose c.home grad g' [(q.fn, q.sq, q.index, keep, dest)] := by
    refine State.gradSettle_one (t := (s.csm c.home).grads) (by rw [hv]) (List.all_eq_true.1 hidle) rfl ?_
    unfold State.gradBusy at hbusy ⊢
    rwa [hv]
  rw [hsettle] at hrun
  have hpois' : g'.poisoned = false := hpois
  let w := v.gradCopy c.home g' (q.fn, q.sq, q.index) dest
  have hkw : Keeps 0x8081 a w := hkv.mono.trans (State.gradCopy_keeps _ _ _ _ _).mono
  refine ⟨_, hrun, ?_⟩
  cases keep with
  | true =>
    rw [State.gradClose_keep _ _ _ _ _ _ _ hpois', State.completeKey_desc _ hport]
    refine ⟨posts_after hl hkw (.ofKeeps hkw) _ _ _, ?_⟩
    have hcsm : (w.complete q stOK g.count 0).csm c.home = v.csm c.home := by
      unfold State.csm
      rw [State.complete_csms, (State.gradCopy_keeps _ _ _ _ _).same .csms (by decide)]
    have hkept : g = { g' with closing := [] } := by rw [← hclosing]
    rw [State.modCsm_csm_self]
    show tget (tmod ((w.complete q stOK g.count 0).csm c.home).grads grad _) grad = some g
    rw [hcsm, hv, hkept]
    exact tget_tmod_self _ (tget_tput_self _ _ _)
  | false =>
    rw [State.gradClose_release _ _ _ _ _ _ _ hpois', State.completeKey_desc _ hport]
    have hk : Keeps 0x8181 a (w.gradRelease c.home grad g' dest) := hkw.mono.trans (State.gradRelease_keeps _ _ _ _ _).mono
    refine ⟨posts_after hl hk (.ofKeeps hk) _ _ _, ?_⟩
    unfold State.csm
    rw [State.complete_csms]
    exact State.gradRelease_grads _ _ _ _ _

/-! ### STEP (R330) -/

section
variable {s : State} {q : Desc} (t : Nat)

theorem Open.advanceTo (h : Open q s) : Open q (s.advanceTo t) := by
  obtain ⟨herr, hseal, hres, hread, hord⟩ := h
  refine ⟨?_, ?_, hres, hread, ?_⟩
  · unfold State.fbit at herr ⊢
    rwa [(s.advanceTo_keeps t).fget (b := .sec) (by decide) rfl]
  · unfold State.ptnState at hseal ⊢
    rwa [(s.advanceTo_keeps t).fget (b := .ptn) (by decide) rfl]
  · unfold State.orderWait at hord ⊢
    rwa [State.advanceTo_part]

theorem Live.advanceTo (h : Live q s) : Live q (s.advanceTo t) := by
  obtain ⟨hwf, hnone, hready, hcq⟩ := h
  have hfns : (s.advanceTo t).fns = s.fns := (s.advanceTo_keeps t).same .fns (by decide)
  have hrdy : (s.advanceTo t).ready q.fn = s.ready q.fn := by
    unfold State.ready State.fbit
    rw [(s.advanceTo_keeps t).fget (b := .hrg) (by decide) rfl]
  refine ⟨hwf, ?_, hrdy.trans hready, ?_⟩
  · unfold State.outst? at hnone ⊢
    rwa [State.advanceTo_part]
  · unfold State.fn at hcq ⊢
    rwa [hfns]

@[simp] theorem State.advanceTo_csm (d : Nat) : (s.advanceTo t).csm d = s.csm d := by
  unfold State.csm
  rw [(s.advanceTo_keeps t).same .csms (by decide)]

@[simp] theorem State.advanceTo_out : (s.advanceTo t).out = s.out := (s.advanceTo_keeps t).same .out (by decide)

@[simp] theorem State.advanceTo_dieDown (d : Nat) : (s.advanceTo t).dieDown d = s.dieDown d := by
  unfold State.dieDown
  rw [(s.advanceTo_keeps t).fget (b := .ras) (by decide) rfl]

@[simp] theorem State.advanceTo_ctx? (p c : Nat) : (s.advanceTo t).ctx? p c = s.ctx? p c := by
  unfold State.ctx?
  rw [State.advanceTo_part]

@[simp] theorem State.advanceTo_owner (d : Nat) : (s.advanceTo t).owner d = s.owner d :=
  State.owner_congr ((s.advanceTo_keeps t).same (.regs .ptn) (by decide)) d


/-- A record from a ring is held as it came while the generator of its die runs (R330). -/
theorem State.holdRecord_ring (d : Nat) (img : List Byte) (f sq i out st tSig tFirst : Nat) (h : s.genRuns d = true) :
    ∃ x : Held, x.img = img ∧ x.src = .ring f sq i out st ∧
      s.holdRecord d img (.ring f sq i out st) tSig tFirst = s.modCsm d (fun c => { c with held := c.held ++ [x] }) :=
  ⟨⟨img, s.readStep d img, .ring f sq i out st, tSig, 0, false, false, none, tFirst, 0, false, none⟩, rfl, rfl, if_pos h⟩

end

theorem step_held {s : State} {q : Desc} {img : List Byte} {output statusAddr t : Nat} {c : Ctx} (ho : Open q s) (hl : Live q s)
    (hc : s.ctx? q.part (parseHead img).ctx = some c) (hd : s.dieDown c.home = false) (hkey : (parseHead img).resultKey = 0)
    (hoff : (parseHead img).resultOff = 0) (hstat : (parseHead img).statusOff = 0) (hsig : (parseHead img).signal = 0)
    (hlen : (parseStep c img).badLen = false) (himg : img.length = (parseStep c img).entryBytes c) (hroom : s.ringRecs c.home < 1024)
    (hgen : s.genRuns c.home = true) :
    Runs (.step q img output statusAddr t) s (fun u =>
      ((u.csm c.home).held.map (fun h => (h.img, h.src))) =
        ((s.csm c.home).held.map (fun h => (h.img, h.src))) ++ [(img, .ring q.fn q.sq q.index output statusAddr)] ∧
      (u.outst? q).isSome = true ∧ u.clk.tNs = max s.clk.tNs t ∧ u.out = s.out) := by
  let a := (s.advanceTo t).begin q 0x34 0
  have hcsm : a.csm c.home = s.csm c.home := by rw [State.begin_csm, State.advanceTo_csm]
  have hgen' : a.genRuns c.home = true := by
    unfold State.genRuns at hgen ⊢
    simp only [a, State.begin_owner, State.advanceTo_owner, State.begin_genOn, State.advanceTo_part]
    exact hgen
  have hroom' : ¬1024 ≤ a.ringRecs c.home := by
    unfold State.ringRecs at hroom ⊢
    rw [hcsm]
    omega
  obtain ⟨x, hximg, hxsrc, hheld⟩ :=
    State.holdRecord_ring c.home img q.fn q.sq q.index output statusAddr a.clk.tNs s.clk.tNs hgen'
  have hrun : exec (.step q img output statusAddr t) s = .next (a.modCsm c.home (fun c => { c with held := c.held ++ [x] })) := by
    refine congrArg Host.Outcome.next ((runDesc_open _ q 0x34 _ _ (ho.advanceTo t)).trans ?_)
    simp only [State.begin_ctx?, State.advanceTo_ctx?, hc, State.begin_dieDown, State.advanceTo_dieDown, hd, hkey, hoff, hstat, hsig,
      hlen, ← himg, Bool.false_eq_true, ne_eq, not_true_eq_false, or_self, if_false]
    rw [if_neg hroom']
    exact hheld
  refine ⟨_, hrun, ?_, ?_, ?_, ?_⟩
  · rw [State.modCsm_csm_self, hcsm, List.map_append, List.map_singleton, hximg, hxsrc]
  · have hout : a.outst? q = some _ := State.outst_begin _ q 0x34 0 (hl.advanceTo t).2.1
    exact congrArg Option.isSome hout
  · exact (congrArg Clock.tNs (State.begin_clk _ q 0x34 0)).trans (s.advanceTo_tNs t)
  · exact (out_begin _ q 0x34 0).trans (State.advanceTo_out t)

/-- Settles O6: each descriptor, begun and past the checks, runs its own rules to the end and its completion goes out; a STEP is held. -/
theorem sweepDescriptorsComplete : Obligations.SweepDescriptorsComplete :=
  ⟨fun _ _ _ _ _ => sweepSet_setsDesc,
   fun _ _ _ _ _ _ _ _ _ => latentLoad_loads,
   fun _ _ _ _ _ _ _ _ _ _ _ _ => gradOpen_opens,
   fun _ _ _ _ _ _ _ _ => gradClose_lost,
   fun _ _ _ _ _ _ _ _ _ => gradClose_closes,
   fun _ _ _ _ _ _ _ => step_held⟩

end Sys2Proof.Machine
end

section
/-!
REG, MEM and INJECT of the service console (R146, R207, R215, R279, R441, R560, R565).
-/
namespace Sys2Proof.Machine
set_option Elab.async false

/-! ### What a flash injection relies on (R279) -/

/-- FTL_EVENT.INJECT_SEEN of die `d` is as before, and the die has the bands it had. -/
def FlashKept (d : Nat) (s t : State) : Prop :=
  t.fget FTL_EVENT_INJECT_SEEN d = s.fget FTL_EVENT_INJECT_SEEN d ∧
    ∀ b, (tget (s.ftl d).bands b).isSome = true → (tget (t.ftl d).bands b).isSome = true

theorem isSome_tget_tput {α : Type} {t : List (Nat × α)} {b : Nat} (k : Nat) (v : α) (h : (tget t b).isSome = true) :
    (tget (tput t k v) b).isSome = true := by
  by_cases e : k = b
  · rw [e, tget_tput_self]
    rfl
  · rwa [tget_tput_other _ _ e]

theorem isSome_tget_tmod {α : Type} {t : List (Nat × α)} {b : Nat} (k : Nat) (f : α → α) (h : (tget t b).isSome = true) :
    (tget (tmod t k f) b).isSome = true := by
  unfold tmod
  split
  · exact h
  · exact isSome_tget_tput _ _ h

section
variable {d : Nat} {s t u : State}

theorem FlashKept.refl (s : State) : FlashKept d s s := ⟨rfl, fun _ h => h⟩

theorem FlashKept.trans (h : FlashKept d s t) (k : FlashKept d t u) : FlashKept d s u :=
  ⟨k.1.trans h.1, fun b hb => k.2 b (h.2 b hb)⟩

theorem FlashKept.ite {p : Prop} [Decidable p] (h : FlashKept d s t) (k : FlashKept d s u) : FlashKept d s (if p then t else u) := by
  split <;> assumption

theorem FlashKept.foldl {α : Type} (f : State → α → State) (l : List α) (h : ∀ s x, FlashKept d s (f s x)) : FlashKept d s (l.foldl f s) := by
  induction l generalizing s with
  | nil => exact .refl s
  | cons x l ih => exact (h s x).trans ih

theorem FlashKept.ofKeeps {m : Nat} (h : Keeps m s t) (hf : m.testBit 10 = false := by decide) (hm : m.testBit 33 = false := by decide) :
    FlashKept d s t := by
  refine ⟨h.fget (b := .ftl) hm rfl d, fun b hb => ?_⟩
  unfold State.ftl at hb ⊢
  rwa [h.same .ftls hf]

/-- Other fields of the flash's registers. -/
theorem FlashKept.ofRegs (h : t.fget FTL_EVENT_INJECT_SEEN d = s.fget FTL_EVENT_INJECT_SEEN d) (hf : t.ftls = s.ftls) : FlashKept d s t := by
  refine ⟨h, fun b hb => ?_⟩
  unfold State.ftl at hb ⊢
  rwa [hf]

theorem FlashKept.fset (F : Fld) (v : Nat) (h : F.apart FTL_EVENT_INJECT_SEEN = true := by decide) : FlashKept d s (s.fset F d v) :=
  .ofRegs (State.fget_fset_other _ _ _ _ _ _ (F.key_ne_of_apart h d)) rfl

theorem FlashKept.fadd (F : Fld) (n : Nat) (h : F.apart FTL_EVENT_INJECT_SEEN = true := by decide) : FlashKept d s (s.fadd F d n) :=
  .ofRegs (State.fget_fadd_other _ _ _ _ _ _ (F.key_ne_of_apart h d)) rfl

theorem FlashKept.fsat (F : Fld) (n : Nat) (h : F.apart FTL_EVENT_INJECT_SEEN = true := by decide) : FlashKept d s (s.fsat F d n) :=
  .ofRegs (State.fget_fsat_other _ _ _ _ _ _ (F.key_ne_of_apart h d)) rfl

/-- Another event of the flash of this die or another. -/
theorem FlashKept.evtDie (F : Fld) (e : Nat) (h : F.lo % 32 ≠ FTL_EVENT_INJECT_SEEN.lo % 32 := by decide)
    (hb : (F.bit ||| 0x8).testBit 10 = false := by decide) : FlashKept d s (s.evtDie F e) :=
  .ofRegs (State.fget_evtDie_other _ _ _ _ _ (Fld.key_ne_of_lo h)) ((State.evtDie_keeps _ _ _).same .ftls hb)

theorem FlashKept.modFtl (e : Nat) (f : Ftl → Ftl)
    (h : ∀ x b, (tget x.bands b).isSome = true → (tget (f x).bands b).isSome = true := by exact fun _ _ h => h) :
    FlashKept d s (s.modFtl e f) := by
  refine ⟨rfl, fun b hb => ?_⟩
  by_cases he : e = d
  · subst he
    rw [State.modFtl_ftl_self]
    exact h _ _ hb
  · rwa [State.modFtl_ftl_other _ _ he]

theorem FlashKept.modBand (e n : Nat) (f : Band → Band) : FlashKept d s (s.modBand e n f) :=
  .modFtl e _ fun _ _ h => isSome_tget_tmod _ _ h

theorem FlashKept.fbit (h : FlashKept d s t) (hs : s.fbit FTL_EVENT_INJECT_SEEN d = true) : t.fbit FTL_EVENT_INJECT_SEEN d = true := by
  unfold State.fbit at hs ⊢
  rwa [h.1]

end

/-! ### Records, bands and objects (R258 to R265) -/

section
variable (d : Nat) (s : State) {t : State}

theorem State.healthOccur_flash (e code ch : Nat) : FlashKept d s (s.healthOccur e code ch) := by
  unfold State.healthOccur State.postHealth
  dsimp only
  split
  · exact .modFtl e _
  · refine FlashKept.trans ?_ (.ofKeeps (State.dieEvent_keeps _ _ _ _))
    refine FlashKept.trans ?_ (.evtDie FTL_EVENT_HEALTH e)
    exact .modFtl e _

theorem State.appendRec_flash (ns : Nat) (w : JWhat) : FlashKept d s (s.appendRec d ns w).2 := .modFtl d _

/-- Members taken for a band leave the bands of their die. -/
theorem bands_foldl_modMember {α : Type} (k : α → Nat) (g : Member → Member) (l : List α) (f : Ftl) :
    (l.foldl (fun f m => f.modMember (k m) g) f).bands = f.bands := by
  induction l generalizing f with
  | nil => rfl
  | cons m l ih => exact ih _

theorem State.openBand_flash {k : BandKind} {ns m : Nat} (h : s.openBand d k ns = some (m, t)) : FlashKept d s t := by
  unfold State.openBand at h
  dsimp only at h
  split at h
  · cases h
  · cases h
    refine FlashKept.trans ?_ (.fsat FTL_FREE_BANDS_BANDS _)
    refine FlashKept.trans ?_ (.fset FTL_STRIPE_WIDTH _)
    refine FlashKept.trans (State.appendRec_flash d s ns _) (.modFtl d _ fun x b hb => ?_)
    rw [bands_foldl_modMember (fun m : Nat × Nat × Nat => memKey m.1 m.2.1 m.2.2)]
    exact isSome_tget_tput _ _ hb

theorem State.closeBand_flash (n : Nat) : FlashKept d s (s.closeBand d n) := by
  unfold State.closeBand
  split
  · exact .refl s
  · exact .ite (.refl s) ((FlashKept.modBand d n _).trans (State.appendRec_flash d _ _ _))

/-- Sectors at the end of the band `m` (R265). -/
def State.placeIn (s : State) (d n m : Nat) (b : Band) : Option (FLoc × State) :=
  if s.bandSectors d b < b.wp + n then none else some (⟨m, b.wp, n⟩, s.modBand d m (fun b => { b with wp := b.wp + n }))

/-- Sectors in a new band (R265). -/
def State.placeNew (s : State) (d : Nat) (k : BandKind) (ns n : Nat) : Option (FLoc × State) :=
  match s.openBand d k ns with
  | none => none
  | some (m, s) =>
    match tget (s.ftl d).bands m with
    | some b => s.placeIn d n m b
    | none => none

theorem State.place_eq (k : BandKind) (ns n : Nat) :
    s.place d k ns n =
      match (s.ftl d).openBand k with
      | none => s.placeNew d k ns n
      | some (m, b) =>
        if b.ns = ns then
          match s.placeIn d n m b with
          | some r => some r
          | none => (s.closeBand d m).placeNew d k ns n
        else (s.closeBand d m).placeNew d k ns n := rfl

theorem State.placeIn_flash {n m : Nat} {b : Band} {l : FLoc} (h : s.placeIn d n m b = some (l, t)) : FlashKept d s t := by
  unfold State.placeIn at h
  split at h
  · cases h
  · cases h
    exact .modBand d m _

theorem State.placeNew_flash {k : BandKind} {ns n : Nat} {l : FLoc} (h : s.placeNew d k ns n = some (l, t)) : FlashKept d s t := by
  unfold State.placeNew at h
  split at h
  · cases h
  next m u hopen =>
    refine (State.openBand_flash d s hopen).trans ?_
    split at h
    · exact State.placeIn_flash d u h
    · cases h

theorem State.place_flash {k : BandKind} {ns n : Nat} {l : FLoc} (h : s.place d k ns n = some (l, t)) : FlashKept d s t := by
  rw [State.place_eq] at h
  split at h
  · exact State.placeNew_flash d s h
  next m b _ =>
    have hnew : (s.closeBand d m).placeNew d k ns n = some (l, t) → FlashKept d s t := fun hn =>
      (State.closeBand_flash d s m).trans (State.placeNew_flash d _ hn)
    split at h
    · split at h
      next r hr =>
        cases h
        exact State.placeIn_flash d s hr
      · exact hnew h
    · exact hnew h

theorem State.writeObj_flash {k : BandKind} {kind obj ns n : Nat} {src : Option FLoc} {data : FData} {l : FLoc}
    (h : s.writeObj d k kind obj ns n src data = some (l, t)) : FlashKept d s t := by
  unfold State.writeObj at h
  split at h
  · cases h
  next l' u hplace =>
    cases h
    have hu : FlashKept d s u := by
      split at hplace
      · cases hplace
      · exact State.place_flash d s hplace
    exact (hu.trans (.modFtl d _)).trans (.modFtl d _)

theorem State.roCheck_flash : FlashKept d s (s.roCheck d) := by
  unfold State.roCheck
  dsimp only
  refine .ite (.refl s) (.ite (.ite (.refl s) ?_) (.ite (.fset FTL_STATUS_READ_ONLY 0) (.refl s)))
  refine FlashKept.trans ?_ (State.healthOccur_flash d _ _ _ _)
  exact (FlashKept.fset FTL_STATUS_READ_ONLY 1).trans (.evtDie FTL_EVENT_READ_ONLY d)

theorem State.startCkpt_flash : FlashKept d s (s.startCkpt d) := by
  unfold State.startCkpt
  dsimp only
  refine .ite (.refl s) ?_
  have hdraw : FlashKept d s s.draw.2 := .ofKeeps (State.draw_keeps s)
  split
  · exact hdraw.trans (State.roCheck_flash d _)
  next l u hw =>
    exact (hdraw.trans (State.writeObj_flash d _ hw)).trans (.modFtl d _)

theorem State.startReloc_flash {o : FObj} {urgent : Bool} (h : s.startReloc d o urgent = some t) : FlashKept d s t := by
  unfold State.startReloc at h
  split at h
  · cases h
    exact .refl s
  · split at h
    · cases h
    next l u hw =>
      cases h
      exact (State.writeObj_flash d s hw).trans (.modFtl d _)

theorem State.runRefresh_flash : FlashKept d s (s.runRefresh d) := by
  unfold State.runRefresh
  refine .ite (.refl s) (.foldl _ _ fun s x => ?_)
  dsimp only
  split
  · exact .modFtl d _
  · split
    · exact .refl s
    next u hr =>
      refine (State.startReloc_flash d s hr).trans (.ite (.modFtl d _) ?_)
      exact (FlashKept.modFtl d _).trans (.fadd FTL_REFRESHES_COUNT 1)

/-! ### A sector read (R271 to R273, R279) -/

/-- The injected error of the band read, seen (R279). -/
def State.seenInject (s : State) (d band : Nat) : State :=
  if (s.ftl d).inject && (tget (s.ftl d).bands band).isSome then
    (s.modFtl d (fun f => { f with inject := false })).evtDie FTL_EVENT_INJECT_SEEN d
  else s

theorem State.readSector_flash (r : SectorRead) : FlashKept d (s.seenInject d r.band) (s.readSector d r).2 := by
  unfold State.readSector
  extract_lets f mem off inj x retries s1 s2 s3 s4
  change FlashKept d s1 _
  have h4 : FlashKept d s1 s4 := by
    refine FlashKept.trans (.ofKeeps (State.pmc_keeps s1 d 0x12 1 4096 none)) ?_
    have h3 : FlashKept d s2 s3 := .ite (.refl s2) (.ofKeeps (State.pmc_keeps s2 d 0x14 1 retries none))
    refine h3.trans ?_
    exact (FlashKept.ofKeeps (State.bw_keeps s3 d 4 4096)).trans (.ofKeeps (State.hist_keeps _ _ _ _ _))
  refine h4.trans ?_
  split
  next step tags _ =>
  extract_lets s5 s6 s7 s8 s9 top lim
  have h5 : FlashKept d s4 s5 := (FlashKept.fadd FTL_RETRIES_COUNT retries).trans (.fadd FTL_TAG_FAIL_COUNT tags)
  have h6 : FlashKept d s5 s6 := .ite (.fadd FTL_SOFT_COUNT 1) (.refl s5)
  have h7 : FlashKept d s6 s7 := .ite (.fadd FTL_REBUILDS_COUNT 1) (.refl s6)
  have h8 : FlashKept d s7 s8 := .ite ((FlashKept.evtDie FTL_EVENT_REBUILT d).trans (State.healthOccur_flash d _ _ _ _)) (.refl s7)
  have h9 : FlashKept d s8 s9 := by
    refine .ite (FlashKept.trans ?_ (State.healthOccur_flash d _ _ _ _)) (.refl s8)
    exact (FlashKept.fadd FTL_UNCORR_COUNT 1).trans (.evtDie FTL_EVENT_DATA_LOSS d)
  refine ((((h5.trans h6).trans h7).trans h8).trans h9).trans ?_
  clear_value s9 mem
  split
  · exact .refl s9
  next m =>
  extract_lets k mb hit s10 s11 s12
  have h10 : FlashKept d s9 s10 := .modFtl d _
  have h12 : FlashKept d s10 s12 := by
    refine .ite ?_ (.refl s10)
    refine FlashKept.trans ?_ (.ofKeeps (State.adaptPinned_keeps _ _ _ _))
    exact ((FlashKept.modFtl d _).trans (.fadd FTL_PINNED_COUNT 1)).trans (.evtDie FTL_EVENT_PINNED d)
  refine (h10.trans h12).trans ?_
  split
  · split
    · exact .refl s12
    · split
      · exact State.healthOccur_flash d _ _ _ _
      · exact (FlashKept.modFtl d _).trans (State.runRefresh_flash d _)
  · exact .refl s12

end

/-! ### The console (R547, R548) -/

section
variable {s t : State} {go : State → State}

/-- A command that nothing keeps from its own effect. -/
theorem State.consoleCmd_go {rom svc : Bool} (hrun : s.svc.run = none) (hrom : s.fbit SVC_STATUS_ROM 0 = false)
    (hmode : svc = true → s.fbit SVC_STATUS_MODE 0 = true) : s.consoleCmd rom svc go = go s := by
  unfold State.consoleCmd
  rw [hrun, if_neg (by simp), hrom, if_neg (by simp), if_neg]
  cases svc with
  | false => simp
  | true => simp [hmode rfl]

/-- A line of the console touches no register. -/
theorem State.okLine_say_fget (s : State) (l : List String) (F : Fld) (i : Nat) : (s.say l).okLine.fget F i = s.fget F i := rfl

theorem State.onDie_go {d : Nat} (h : d < s.nDies) : s.onDie d go = go s := if_pos h

/-- A Service command about a die of the package. -/
theorem State.dieCmd_go {d : Nat} (hrun : s.svc.run = none) (hrom : s.fbit SVC_STATUS_ROM 0 = false)
    (hmode : s.fbit SVC_STATUS_MODE 0 = true) (hd : d < s.nDies) : s.consoleCmd false true (fun s => s.onDie d go) = go s :=
  (State.consoleCmd_go hrun hrom fun _ => hmode).trans (State.onDie_go hd)

theorem ends_okLine (h : ∃ l, t.out = s.out ++ l) : Ends s t.okLine ["OK"] := by
  obtain ⟨l, hl⟩ := h
  refine ⟨l, ?_⟩
  unfold State.okLine State.say State.emit
  simp [hl]

/-- A line shown and OK. -/
theorem ends_say_okLine (w : List String) (h : ∃ l, t.out = s.out ++ l) : Ends s (t.say w).okLine ["OK"] := by
  obtain ⟨l, hl⟩ := h
  refine ends_okLine ⟨l ++ [.console w], ?_⟩
  rw [← List.append_assoc, ← hl]
  rfl

theorem ends_errLine (w : String) (h : ∃ l, t.out = s.out ++ l) : Ends s (t.errLine w) ["E", w] := by
  obtain ⟨l, hl⟩ := h
  refine ⟨l, ?_⟩
  unfold State.errLine State.say State.emit
  simp [hl]

/-- A REG line ends in OK and shows the word read. -/
theorem regLine_says (off : Nat) (r : Nat × State) (h : ∃ l, r.2.out = s.out ++ l) :
    Ends s (t.regLine off r) ["OK"] ∧ Emits s (t.regLine off r) (.console ["REG", hex8 off, "=", hex8 (r.1 % 2 ^ 32)]) := by
  obtain ⟨l, hl⟩ := h
  have hout : (r.2.say ["REG", hex8 off, "=", hex8 (r.1 % 2 ^ 32)]).out = s.out ++ (l ++ [.console ["REG", hex8 off, "=", hex8 (r.1 % 2 ^ 32)]]) := by
    rw [← List.append_assoc, ← hl]
    rfl
  refine ⟨ends_okLine ⟨_, hout⟩, (l ++ [.console ["REG", hex8 off, "=", hex8 (r.1 % 2 ^ 32)]]) ++ [.console ["OK"], .console ["chroat> "]], ?_, ?_⟩
  · rw [← List.append_assoc, ← hout]
    simp [State.regLine, State.okLine, State.say, State.emit]
  · simp

/-! ### REG (R441, R565) -/

theorem regRead_shows {off : Nat} (hrun : s.svc.run = none) (hrom : s.fbit SVC_STATUS_ROM 0 = false) (hoff : off < bar2)
    (hal : off % 4 = 0) (hmap : s.mapped off = true) :
    Runs (.regRead off) s (fun u =>
      Ends s u ["OK"] ∧ Emits s u (.console ["REG", hex8 off, "=", hex8 ((s.readWord off).1 % 2 ^ 32)])) := by
  have hread : s.consoleRead off = s.readWord off := by
    unfold State.consoleRead
    rw [if_neg (by omega), if_neg (by simp [hmap])]
  have hstep : exec (.regRead off) s = .next (s.regLine off (s.readWord off)) := by
    refine congrArg Host.Outcome.next ((State.consoleCmd_go hrun hrom (by simp)).trans ((if_neg (by omega)).trans ?_))
    rw [hread]
  exact ⟨_, hstep, regLine_says off _ (State.readWord_keeps s off).get.sent⟩

theorem regWrite_answers {off v : Nat} (hrun : s.svc.run = none) (hrom : s.fbit SVC_STATUS_ROM 0 = false)
    (hmode : s.fbit SVC_STATUS_MODE 0 = true) (hoff : off < bar2) (hv : v < 2 ^ 32) :
    Runs (.regWrite off v) s (fun u =>
      if 0x40000 ≤ off ∧ off < 0x50000 then Ends s u ["E", "RANGE"] ∧ u.regs = s.regs else Ends s u ["OK"]) := by
  by_cases hsec : 0x40000 ≤ off ∧ off < 0x50000
  · have hstep : exec (.regWrite off v) s = .next (s.errLine "RANGE") :=
      congrArg Host.Outcome.next ((State.consoleCmd_go hrun hrom fun _ => hmode).trans (if_pos (.inr (.inr hsec))))
    refine ⟨_, hstep, ?_⟩
    beta_reduce
    rw [if_pos hsec]
    exact ⟨ends_errLine "RANGE" ⟨[], (List.append_nil _).symm⟩, rfl⟩
  · let w := if off % 4 = 0 then s.regWriteWord .console off v else s
    have hstep : exec (.regWrite off v) s = .next (w.regLine off (w.consoleRead off)) := by
      refine congrArg Host.Outcome.next ((State.consoleCmd_go hrun hrom fun _ => hmode).trans (if_neg ?_))
      omega
    refine ⟨_, hstep, ?_⟩
    beta_reduce
    rw [if_neg hsec]
    have hw : Keeps 0x7FFFFFFFFF s w := .ite (State.regWriteWord_keeps _ _ _ _) (.refl s)
    exact (regLine_says off _ (hw.trans (State.consoleRead_keeps w off).get).sent).1

/-! ### MEM (R560) -/

theorem State.memCmd_go {d a n : Nat} (hseal : s.fbit SEC_STATUS_DEBUG_SEALED 0 = false) (hrun : s.svc.run = none)
    (hrom : s.fbit SVC_STATUS_ROM 0 = false) (hmode : s.fbit SVC_STATUS_MODE 0 = true) (hd : d < s.nDies) (hok : hbmOk a n = true) :
    s.memCmd d a n go = go s := by
  unfold State.memCmd
  rw [hseal, Bool.and_false, if_neg Bool.false_ne_true]
  exact (State.dieCmd_go hrun hrom hmode hd).trans (if_pos hok)

/-- Words shown change nothing. -/
theorem foldl_memLine (s : State) (d a : Nat) (l : List Nat) :
    l.foldl (fun (s : State) i => s.memLine d (a + 8 * i)) s =
      { s with out := s.out ++ l.map (fun i => .console ["MEM", "0x" ++ hexN 10 (a + 8 * i), "0x" ++ hexN 16 (s.hbmWord d (a + 8 * i))]) } := by
  induction l generalizing s with
  | nil => simp
  | cons i l ih =>
    rw [List.foldl_cons, ih, List.map_cons, List.append_cons]
    rfl

theorem memRead_shows {d addr n : Nat} (hseal : s.fbit SEC_STATUS_DEBUG_SEALED 0 = false) (hrun : s.svc.run = none)
    (hrom : s.fbit SVC_STATUS_ROM 0 = false) (hmode : s.fbit SVC_STATUS_MODE 0 = true) (hd : d < s.nDies) (hok : hbmOk addr n = true) :
    Runs (.memRead d addr n) s (fun u =>
      SentBy s u ((List.range n).map (fun i => .console ["MEM", "0x" ++ hexN 10 (addr + 8 * i), "0x" ++ hexN 16 (s.hbmWord d (addr + 8 * i))]) ++ [.console ["OK"], .console ["chroat> "]]) ∧ u.hbm = s.hbm ∧ u.regs = s.regs) := by
  let v := (List.range n).foldl (fun (s : State) i => s.memLine d (addr + 8 * i)) s
  have hstep : exec (.memRead d addr n) s = .next v.okLine :=
    congrArg Host.Outcome.next (State.memCmd_go hseal hrun hrom hmode hd hok)
  have hv := foldl_memLine s d addr (List.range n)
  refine ⟨_, hstep, ?_⟩
  rw [show v = _ from hv]
  refine ⟨?_, rfl, rfl⟩
  unfold SentBy State.okLine State.say State.emit
  simp

theorem hbmKey_inj {d a i j : Nat} (h : hbmKey d (a + i) = hbmKey d (a + j)) : i = j := by
  unfold hbmKey at h
  omega

/-- Cells under other keys stay. -/
theorem dget_foldl_dset_other {k : Nat} (key : Nat → Nat) (val : Nat → Byte) (l : List Nat) (m : List Host.Cell) (h : ∀ i ∈ l, k ≠ key i) :
    dget (l.foldl (fun m i => dset m 0 (key i) (val i)) m) 0 k = dget m 0 k := by
  induction l generalizing m with
  | nil => rfl
  | cons i l ih =>
    rw [List.foldl_cons, ih _ fun j hj => h j (List.mem_cons_of_mem _ hj)]
    exact dget_dset_other _ _ _ _ (Ne.symm (h i List.mem_cons_self))

/-- Cells stored under different keys hold what was stored. -/
theorem dget_foldl_dset_self {key : Nat → Nat} (val : Nat → Byte) {l : List Nat} (hl : l.Nodup) (hkey : ∀ i j, key i = key j → i = j)
    {i : Nat} (hi : i ∈ l) (m : List Host.Cell) : dget (l.foldl (fun m i => dset m 0 (key i) (val i)) m) 0 (key i) = val i := by
  induction l generalizing m with
  | nil => cases hi
  | cons j l ih =>
    obtain ⟨hj, hl'⟩ := List.nodup_cons.1 hl
    rw [List.foldl_cons]
    rcases List.mem_cons.1 hi with rfl | hi'
    · have hother : ∀ j ∈ l, key i ≠ key j := fun j hj' e => by
        rw [hkey _ _ e] at hj
        exact hj hj'
      rw [dget_foldl_dset_other key val l _ hother]
      exact dget_dset_self _ _ _ _
    · exact ih hl' hi' _

theorem memWrite_stores {d addr v : Nat} (hseal : s.fbit SEC_STATUS_DEBUG_SEALED 0 = false) (hrun : s.svc.run = none)
    (hrom : s.fbit SVC_STATUS_ROM 0 = false) (hmode : s.fbit SVC_STATUS_MODE 0 = true) (hd : d < s.nDies) (hok : hbmOk addr 1 = true)
    (hv : v < 2 ^ 64) :
    Runs (.memWrite d addr v) s (fun u =>
      Ends s u ["OK"] ∧ (∀ i, i < 8 → dget u.hbm 0 (hbmKey d (addr + i)) = BitVec.ofNat 8 (v / 2 ^ (8 * i))) ∧
      (∀ k, (∀ i, i < 8 → k ≠ hbmKey d (addr + i)) → dget u.hbm 0 k = dget s.hbm 0 k) ∧ u.regs = s.regs) := by
  have hstep : exec (.memWrite d addr v) s = .next (((s.hbmStore d addr v).memLine d addr).okLine) :=
    congrArg Host.Outcome.next ((State.memCmd_go hseal hrun hrom hmode hd hok).trans (if_neg (by omega)))
  refine ⟨_, hstep, ends_okLine ⟨_, rfl⟩, fun i hi => ?_, fun k hk => ?_, rfl⟩
  · exact dget_foldl_dset_self (key := fun i => hbmKey d (addr + i)) (fun i => BitVec.ofNat 8 (v / 2 ^ (8 * i))) List.nodup_range
      (fun _ _ => hbmKey_inj) (List.mem_range.2 hi) s.hbm
  · exact dget_foldl_dset_other (fun i => hbmKey d (addr + i)) _ _ _ fun i hi => hk i (List.mem_range.1 hi)

/-! ### INJECT (R146, R215, R279) -/

theorem paneRetry_apart : ∀ i < 4, CSM_MISMATCH_COUNT.apart (CSM_PANE_RETRY_COUNT.nth i) = true ∧
    CSM_EVENT_MISMATCH.apart (CSM_PANE_RETRY_COUNT.nth i) = true := by decide

theorem injectPane_answers {d i : Nat} {seen : Bool} (hrun : s.svc.run = none) (hrom : s.fbit SVC_STATUS_ROM 0 = false)
    (hmode : s.fbit SVC_STATUS_MODE 0 = true) (hd : d < s.nDies) (hi : i < 4) :
    Runs (.injectPane d i seen) s (fun u =>
      if seen = true ∧ s.fbitAt CSM_PANE_FENCE_FENCED d i = false ∧ s.shadowed d = false then Ends s u ["OK"] ∧ Raised u CSM_EVENT_MISMATCH d ∧ u.fget (CSM_PANE_RETRY_COUNT.nth i) d = min (s.fget (CSM_PANE_RETRY_COUNT.nth i) d + 1) (2 ^ ((CSM_PANE_RETRY_COUNT.nth i)).w - 1) else Ends s u ["E", "FAIL"] ∧ u.regs = s.regs) := by
  by_cases h : seen = true ∧ s.fbitAt CSM_PANE_FENCE_FENCED d i = false ∧ s.shadowed d = false
  · obtain ⟨rfl, hf, hs⟩ := h
    let v := ((s.fadd CSM_MISMATCH_COUNT d 1).fadd (CSM_PANE_RETRY_COUNT.nth i) d 1).evtDie CSM_EVENT_MISMATCH d
    have hstep : exec (.injectPane d i true) s =
        .next ((v.say ["INJECT", "PANE", unitName d i, "SEEN", "RETRY", decS (v.fget (CSM_PANE_RETRY_COUNT.nth i) d)]).okLine) := by
      refine congrArg Host.Outcome.next ((State.dieCmd_go hrun hrom hmode hd).trans ((if_neg (by omega)).trans (if_neg ?_)))
      simp [hf, hs]
    refine ⟨_, hstep, ?_⟩
    beta_reduce
    rw [if_pos ⟨rfl, hf, hs⟩]
    obtain ⟨hmis, hevt⟩ := paneRetry_apart i hi
    have hk : Keeps 0x20000008 s v :=
      ((State.fadd_keeps s _ _ _).mono.trans (State.fadd_keeps _ _ _ _)).trans (State.evtDie_keeps _ _ _)
    refine ⟨ends_say_okLine _ hk.sent, ?_, ?_⟩
    · exact ne_of_eq_of_ne (State.okLine_say_fget v _ _ _) (State.fget_evtDie_self _ _ _ (by decide))
    rw [State.okLine_say_fget]
    rw [State.fget_evtDie_other _ _ _ _ _ (Fld.key_ne_of_apart _ hevt d), State.fget_fadd_self,
      State.fget_fadd_other _ _ _ _ _ _ (Fld.key_ne_of_apart _ hmis d)]
  · have hstep : exec (.injectPane d i seen) s = .next (s.errLine "FAIL") := by
      refine congrArg Host.Outcome.next ((State.dieCmd_go hrun hrom hmode hd).trans ((if_neg (by omega)).trans (if_pos ?_)))
      by_contra hc
      exact h (by simpa [and_assoc] using hc)
    refine ⟨_, hstep, ?_⟩
    beta_reduce
    rw [if_neg h]
    exact ⟨ends_errLine "FAIL" ⟨[], (List.append_nil _).symm⟩, rfl⟩

theorem injectAtm_answers {d i : Nat} {seen : Bool} (hrun : s.svc.run = none) (hrom : s.fbit SVC_STATUS_ROM 0 = false)
    (hmode : s.fbit SVC_STATUS_MODE 0 = true) (hd : d < s.nDies) (hi : i < 4) :
    Runs (.injectAtm d i seen) s (fun u =>
      if seen = true ∧ s.fbitAt ATM_FENCE_FENCED d i = false ∧ s.shadowed d = false then Ends s u ["OK"] ∧ Raised u ATM_EVENT_INJECT_SEEN d else Ends s u ["E", "FAIL"] ∧ u.regs = s.regs) := by
  by_cases h : seen = true ∧ s.fbitAt ATM_FENCE_FENCED d i = false ∧ s.shadowed d = false
  · obtain ⟨rfl, hf, hs⟩ := h
    let v := s.evtDie ATM_EVENT_INJECT_SEEN d
    have hstep : exec (.injectAtm d i true) s = .next ((v.say ["INJECT", "ATM", unitName d i, "SEEN"]).okLine) := by
      refine congrArg Host.Outcome.next ((State.dieCmd_go hrun hrom hmode hd).trans ((if_neg (by omega)).trans (if_neg ?_)))
      simp [hf, hs]
    refine ⟨_, hstep, ?_⟩
    beta_reduce
    rw [if_pos ⟨rfl, hf, hs⟩]
    refine ⟨ends_say_okLine _ (State.evtDie_keeps s ATM_EVENT_INJECT_SEEN d).sent, ?_⟩
    exact ne_of_eq_of_ne (State.okLine_say_fget v _ _ _) (State.fget_evtDie_self _ _ _ (by decide))
  · have hstep : exec (.injectAtm d i seen) s = .next (s.errLine "FAIL") := by
      refine congrArg Host.Outcome.next ((State.dieCmd_go hrun hrom hmode hd).trans ((if_neg (by omega)).trans (if_pos ?_)))
      by_contra hc
      exact h (by simpa [and_assoc] using hc)
    refine ⟨_, hstep, ?_⟩
    beta_reduce
    rw [if_neg h]
    exact ⟨ends_errLine "FAIL" ⟨[], (List.append_nil _).symm⟩, rfl⟩

/-- An injected error that the band read meets is seen, and one seen before stays seen. -/
theorem State.seenInject_seen {d band : Nat} (hinj : (s.ftl d).inject = true)
    (h : s.fbit FTL_EVENT_INJECT_SEEN d = true ∨ (tget (s.ftl d).bands band).isSome = true) :
    (s.seenInject d band).fbit FTL_EVENT_INJECT_SEEN d = true := by
  unfold State.seenInject
  split
  · exact (State.fbit_iff _ _ _).2 (State.fget_evtDie_self _ _ _ (by decide))
  next hno =>
    refine h.resolve_right fun hband => hno ?_
    rw [hinj, hband]
    rfl

/-- The state in which INJECT FLASH reads its sector: with a checkpoint, and the injection armed. -/
def State.flashArmed (s : State) (d : Nat) : State :=
  (if (s.ftl d).ckptNo = 0 then s.startCkpt d else s).modFtl d (fun f => { f with inject := true })

theorem State.flashArmed_flash (s : State) (d : Nat) : FlashKept d s (s.flashArmed d) := by
  unfold State.flashArmed
  exact (FlashKept.ite (State.startCkpt_flash d s) (.refl s)).trans (.modFtl d _)

theorem State.flashArmed_keeps (s : State) (d : Nat) : Keeps 0x20040844B s (s.flashArmed d) := by
  unfold State.flashArmed
  refine Keeps.trans ?_ (State.modFtl_keeps _ _ _)
  exact .ite (State.startCkpt_keeps s d) (.refl s)

theorem State.flashArmed_inject (s : State) (d : Nat) : ((s.flashArmed d).ftl d).inject = true := by
  unfold State.flashArmed
  rw [State.modFtl_ftl_self]

/-- What INJECT FLASH answers. -/
def State.flashAnswer (s : State) (d : Nat) : State :=
  if s.fbit FTL_EVENT_INJECT_SEEN d then (s.say ["INJECT", "FLASH", decS d, "SEEN"]).okLine else s.errLine "FAIL"

theorem injectFlash_answers {d : Nat} {r : SectorRead} {t : Nat} (hrun : s.svc.run = none) (hrom : s.fbit SVC_STATUS_ROM 0 = false)
    (hmode : s.fbit SVC_STATUS_MODE 0 = true) (hd : d < s.nDies) (hready : s.fbit FTL_STATUS_READY d = true)
    (hsh : s.shadowed d = false) :
    Runs (.injectFlash d r t) s (fun u =>
      if s.fbit FTL_EVENT_INJECT_SEEN d = true ∨ (tget (s.ftl d).bands r.band).isSome = true then Ends s u ["OK"] ∧ Raised u FTL_EVENT_INJECT_SEEN d else (Ends s u ["OK"] ∨ Ends s u ["E", "FAIL"])) := by
  let a := s.advanceTo t
  let v := a.flashArmed d
  let w := (v.readSector d r).2
  have hk : Keeps 0x200010 s a := s.advanceTo_keeps t
  have hsvc : ∀ F : Fld, F.blk = .svc → a.fbit F 0 = s.fbit F 0 := fun F hF => by
    unfold State.fbit
    rw [hk.fget (b := .svc) (by decide) hF]
  have hready' : a.fbit FTL_STATUS_READY d = true := by
    unfold State.fbit at hready ⊢
    rwa [hk.fget (b := .ftl) (by decide) rfl]
  have hsh' : a.shadowed d = false := by
    unfold State.shadowed State.dieLost at hsh ⊢
    rwa [hk.fget (b := .dpm) (by decide) rfl, hk.fget (b := .ras) (by decide) rfl]
  have hd' : d < a.nDies := by
    unfold State.nDies at hd ⊢
    rwa [hk.variant]
  have hrun' : a.svc.run = none := by rwa [hk.same .svc (by decide)]
  have hrom' : a.fbit SVC_STATUS_ROM 0 = false := (hsvc SVC_STATUS_ROM rfl).trans hrom
  have hmode' : a.fbit SVC_STATUS_MODE 0 = true := (hsvc SVC_STATUS_MODE rfl).trans hmode
  have hgo : (!a.fbit FTL_STATUS_READY d || a.shadowed d) ≠ true := by simp [hready', hsh']
  have hstep : exec (.injectFlash d r t) s = .next (w.flashAnswer d) :=
    congrArg Host.Outcome.next ((State.dieCmd_go hrun' hrom' hmode' hd').trans (if_neg hgo))
  have hout : ∃ l, w.out = s.out ++ l := by
    have hw : Keeps 0x20460845B s w :=
      (hk.mono.trans (State.flashArmed_keeps a d)).trans (State.readSector_keeps v d r).get
    exact hw.sent
  refine ⟨_, hstep, ?_⟩
  beta_reduce
  split
  next h =>
    have hv : FlashKept d s v := (FlashKept.ofKeeps hk).trans (State.flashArmed_flash a d)
    have hseen : w.fbit FTL_EVENT_INJECT_SEEN d = true :=
      (State.readSector_flash d v r).fbit (State.seenInject_seen (State.flashArmed_inject a d) (h.imp hv.fbit (hv.2 _)))
    have hans : w.flashAnswer d = (w.say ["INJECT", "FLASH", decS d, "SEEN"]).okLine := if_pos hseen
    rw [hans]
    exact ⟨ends_say_okLine _ hout, ne_of_eq_of_ne (State.okLine_say_fget w _ _ _) ((State.fbit_iff _ _ _).1 hseen)⟩
  · unfold State.flashAnswer
    split
    · exact .inl (ends_say_okLine _ hout)
    · exact .inr (ends_errLine _ hout)

end

/-- Settles O37: each command reaches its own effect, and what it sends out follows what was sent before. -/
theorem consoleReadsAndWrites : Obligations.ConsoleReadsAndWrites :=
  ⟨fun _ _ => regRead_shows,
   fun _ _ _ => regWrite_answers,
   fun _ _ _ _ => memRead_shows,
   fun _ _ _ _ => memWrite_stores,
   fun _ _ _ _ => injectPane_answers,
   fun _ _ _ _ => injectAtm_answers,
   fun _ _ _ _ => injectFlash_answers⟩

end Sys2Proof.Machine
end

section
/-!
The steps of a sweep: start, plan, fetch, expansion, tiles, finalisation and delivery (R104, R125, R126, R132, R145, R146, R200 to R203).
-/
namespace Sys2Proof.Machine
set_option Elab.async false

/-! ### Sweeps of a Casement changed -/

section
variable (s : State) (d id : Nat)

theorem State.sweep?_congr {s t : State} {d : Nat} (h : (t.csm d).sweeps = (s.csm d).sweeps) (id : Nat) : t.sweep? d id = s.sweep? d id := by
  unfold State.sweep?
  rw [h]

theorem State.sweep?_id {s : State} {d id : Nat} {w : Sweep} (h : s.sweep? d id = some w) : w.id = id := by
  simpa using List.find?_some h

theorem State.modSweep_csm (f : Sweep → Sweep) :
    (s.modSweep d id f).csm d = { s.csm d with sweeps := (s.csm d).sweeps.map (fun w => if w.id = id then f w else w) } :=
  State.modCsm_csm_self _ _ _

/-- A sweep changed, looked up: every other sweep is as it was. -/
theorem State.sweep?_modSweep {f : Sweep → Sweep} (hf : ∀ w, w.id = id → (f w).id = id) (j : Nat) :
    (s.modSweep d id f).sweep? d j = (s.sweep? d j).map (fun w => if w.id = id then f w else w) := by
  have hpred : ((fun w : Sweep => w.id == j) ∘ fun w => if w.id = id then f w else w) = fun w => w.id == j := by
    funext w
    by_cases h : w.id = id
    · simp [h, hf w h]
    · simp [h]
  unfold State.sweep?
  rw [State.modSweep_csm, List.find?_map, hpred]

theorem State.sweep?_modSweep_self {s : State} {d id : Nat} {f : Sweep → Sweep} {w : Sweep} (hf : ∀ w, w.id = id → (f w).id = id)
    (h : s.sweep? d id = some w) : (s.modSweep d id f).sweep? d id = some (f w) := by
  rw [State.sweep?_modSweep _ _ _ hf, h, Option.map_some, if_pos (State.sweep?_id h)]

end

/-! ### What a sweep keeps on its way -/

/-- A record of a sweep on its way: its finalisation, its delivery and its output block are as before. -/
def RecKept (r y : SweepRec) : Prop := y.finalised = r.finalised ∧ y.delivered = r.delivered ∧ y.output = r.output

/-- Every block of a plan is in another, but that it may have been committed. -/
def BlksKept (l m : List PlanBlk) : Prop := ∀ b ∈ l, ∃ c, { b with committed := c } ∈ m

/-- A sweep and what becomes of it while blocks are committed and blocks selected: its records and the blocks of its present stage stay. -/
structure Sweep.Onward (w x : Sweep) : Prop where
  recs : List.Forall₂ RecKept w.recs x.recs
  sums : BlksKept w.summaries x.summaries
  sel : w.selDone = true → x.selDone = true ∧ BlksKept w.blocks x.blocks

theorem RecKept.refl (r : SweepRec) : RecKept r r := ⟨rfl, rfl, rfl⟩

theorem RecKept.trans {a b c : SweepRec} (h : RecKept a b) (k : RecKept b c) : RecKept a c :=
  ⟨k.1.trans h.1, k.2.1.trans h.2.1, k.2.2.trans h.2.2⟩

theorem recsKept_refl (l : List SweepRec) : List.Forall₂ RecKept l l := List.forall₂_same.2 fun r _ => .refl r

theorem recsKept_trans {l m n : List SweepRec} (h : List.Forall₂ RecKept l m) (k : List.Forall₂ RecKept m n) : List.Forall₂ RecKept l n := by
  induction h generalizing n with
  | nil => exact k
  | cons hr _ ih =>
    cases k with
    | cons kr kt => exact .cons (hr.trans kr) (ih kt)

theorem recsKept_get {l m : List SweepRec} (h : List.Forall₂ RecKept l m) {i : Nat} {r : SweepRec} (hi : l[i]? = some r) :
    ∃ y, m[i]? = some y ∧ RecKept r y := by
  induction h generalizing i with
  | nil => cases hi
  | @cons a b l m hr _ ih =>
    cases i with
    | zero =>
      cases hi
      exact ⟨b, rfl, hr⟩
    | succ i => exact ih hi

theorem BlksKept.refl (l : List PlanBlk) : BlksKept l l := fun b hb => ⟨b.committed, hb⟩

theorem BlksKept.trans {l m n : List PlanBlk} (h : BlksKept l m) (k : BlksKept m n) : BlksKept l n := fun b hb => by
  obtain ⟨c, hc⟩ := h b hb
  obtain ⟨c', hc'⟩ := k _ hc
  exact ⟨c', hc'⟩

theorem BlksKept.cons {l m : List PlanBlk} (b : PlanBlk) (c : Bool) (h : BlksKept l m) : BlksKept (b :: l) ({ b with committed := c } :: m) := by
  intro x hx
  rcases List.mem_cons.1 hx with rfl | hx
  · exact ⟨c, List.mem_cons_self⟩
  · obtain ⟨c', hc'⟩ := h x hx
    exact ⟨c', List.mem_cons_of_mem _ hc'⟩

theorem Sweep.Onward.refl (w : Sweep) : w.Onward w := ⟨recsKept_refl _, .refl _, fun h => ⟨h, .refl _⟩⟩

theorem Sweep.Onward.trans {w x y : Sweep} (h : w.Onward x) (k : x.Onward y) : w.Onward y :=
  ⟨recsKept_trans h.recs k.recs, h.sums.trans k.sums, fun hs =>
    ⟨(k.sel (h.sel hs).1).1, (h.sel hs).2.trans (k.sel (h.sel hs).1).2⟩⟩

/-- Elements of a list changed at a place. -/
theorem recsKept_modAt (l : List SweepRec) (i : Nat) {f : SweepRec → SweepRec} (hf : ∀ r, RecKept r (f r)) :
    List.Forall₂ RecKept l (modAt l i f) := by
  unfold modAt numbered
  rw [List.map_zip_eq_zipWith, List.forall₂_iff_get]
  refine ⟨by simp, fun j h₁ h₂ => ?_⟩
  simp only [List.get_eq_getElem, List.getElem_zipWith, List.getElem_range]
  show RecKept l[j] (if j = i then f l[j] else l[j])
  split
  · exact hf _
  · exact .refl _

theorem Sweep.Onward.ofRecs {w x : Sweep} (h : List.Forall₂ RecKept w.recs x.recs) (hs : x.summaries = w.summaries := by rfl)
    (hd : x.selDone = w.selDone := by rfl) (hb : x.blocks = w.blocks := by rfl) : w.Onward x :=
  ⟨h, hs ▸ .refl _, fun hsel => ⟨hd.trans hsel, hb ▸ .refl _⟩⟩

/-- The fields that steps of a sweep write at its end, at selection and at a rerun. -/
def sweepFields : List Fld :=
  [CSM_STATUS_BUSY, CSM_SWEEP_RUN_CYCLES, CSM_STALL_LAST_STALL, CSM_STALL_SUM_CYCLES, CSM_SWEEPS_COUNT, CSM_SKIPS_COUNT, CSM_RERUN_CYC_CYCLES]

/-- The fences that wait on die `d` are the same, and every sweep of it is on its way. -/
structure SweepsGoOn (d : Nat) (s t : State) : Prop where
  pane : (t.csm d).paneFence = (s.csm d).paneFence
  atm : (t.csm d).atmFence = (s.csm d).atmFence
  sweeps : ∀ id w, s.sweep? d id = some w → ∃ x, t.sweep? d id = some x ∧ w.Onward x

/-- `t` follows `s` on die `d`: its sweeps go on, and the counts of the Casement and the atomizers are as before, but for those of
`sweepFields`. -/
structure Follows (d : Nat) (s t : State) : Prop extends SweepsGoOn d s t where
  regs : ∀ G : Fld, G.blk = .csm ∨ G.blk = .atm → sweepFields.all (·.apart G) = true → t.fget G d = s.fget G d

section
variable {d id : Nat} {s t u : State}

theorem Follows.refl (s : State) : Follows d s s :=
  ⟨⟨rfl, rfl, fun _ w h => ⟨w, h, .refl w⟩⟩, fun _ _ _ => rfl⟩

theorem SweepsGoOn.trans (h : SweepsGoOn d s t) (k : SweepsGoOn d t u) : SweepsGoOn d s u where
  pane := k.pane.trans h.pane
  atm := k.atm.trans h.atm
  sweeps id w hw := by
    obtain ⟨x, hx, hwx⟩ := h.sweeps id w hw
    obtain ⟨y, hy, hxy⟩ := k.sweeps id x hx
    exact ⟨y, hy, hwx.trans hxy⟩

theorem SweepsGoOn.ofCsm (hc : t.csm d = s.csm d) : SweepsGoOn d s t where
  pane := by rw [hc]
  atm := by rw [hc]
  sweeps id w hw := ⟨w, (State.sweep?_congr (by rw [hc]) id).trans hw, .refl w⟩

theorem Follows.trans (h : Follows d s t) (k : Follows d t u) : Follows d s u where
  toSweepsGoOn := h.toSweepsGoOn.trans k.toSweepsGoOn
  regs G hG hF := (k.regs G hG hF).trans (h.regs G hG hF)

theorem Follows.ite {p : Prop} [Decidable p] (h : Follows d s t) (k : Follows d s u) : Follows d s (if p then t else u) := by
  split <;> assumption

theorem Follows.foldl {α : Type} (f : State → α → State) (l : List α) (h : ∀ s x, Follows d s (f s x)) : Follows d s (l.foldl f s) := by
  induction l generalizing s with
  | nil => exact .refl s
  | cons x l ih => exact (h s x).trans ih

/-- The Casement's record is the same, and the fields read the same. -/
theorem Follows.ofCsm (hc : t.csm d = s.csm d)
    (hr : ∀ G : Fld, G.blk = .csm ∨ G.blk = .atm → sweepFields.all (·.apart G) = true → t.fget G d = s.fget G d) : Follows d s t where
  toSweepsGoOn := .ofCsm hc
  regs := hr

theorem Follows.ofKeeps {m : Nat} (h : Keeps m s t) (hc : m.testBit 7 = false := by decide) (h1 : m.testBit 29 = false := by decide)
    (h2 : m.testBit 30 = false := by decide) : Follows d s t := by
  refine .ofCsm ?_ fun G hG _ => ?_
  · unfold State.csm
    rw [h.same .csms hc]
  · rcases hG with hG | hG
    · exact h.fget (b := .csm) h1 hG d
    · exact h.fget (b := .atm) h2 hG d

/-- One of the fields that steps write. -/
theorem Follows.fset (F : Fld) (v : Nat) (hF : F ∈ sweepFields := by decide) : Follows d s (s.fset F d v) :=
  .ofCsm rfl fun _ _ hG => State.fget_fset_other _ _ _ _ _ _ (F.key_ne_of_apart (List.all_eq_true.1 hG F hF) d)

theorem Follows.fadd (F : Fld) (v : Nat) (hF : F ∈ sweepFields := by decide) : Follows d s (s.fadd F d v) := .fset F _ hF

theorem Follows.fsat (F : Fld) (v : Nat) (hF : F ∈ sweepFields := by decide) : Follows d s (s.fsat F d v) := .fset F _ hF

/-- Changes of the Casement's record beside its sweeps and fences. -/
theorem Follows.modCsm (f : Casement → Casement) (hs : ∀ c, (f c).sweeps = c.sweeps := by exact fun _ => rfl)
    (hp : ∀ c, (f c).paneFence = c.paneFence := by exact fun _ => rfl) (ha : ∀ c, (f c).atmFence = c.atmFence := by exact fun _ => rfl) :
    Follows d s (s.modCsm d f) where
  pane := by rw [State.modCsm_csm_self, hp]
  atm := by rw [State.modCsm_csm_self, ha]
  sweeps id w hw := ⟨w, (State.sweep?_congr (by rw [State.modCsm_csm_self, hs]) id).trans hw, .refl w⟩
  regs _ _ _ := rfl

/-- A change of a sweep that is onward from where it was in `s`. -/
theorem Follows.thenModSweep (h : Follows d s t) {f : Sweep → Sweep} (hid : ∀ w, w.id = id → (f w).id = id)
    (hf : ∀ w x, s.sweep? d id = some w → t.sweep? d id = some x → w.Onward x → w.Onward (f x)) : Follows d s (t.modSweep d id f) where
  pane := by rw [State.modSweep_csm]; exact h.pane
  atm := by rw [State.modSweep_csm]; exact h.atm
  sweeps j w hw := by
    obtain ⟨x, hx, hwx⟩ := h.sweeps j w hw
    refine ⟨_, by rw [State.sweep?_modSweep _ _ _ hid, hx]; rfl, ?_⟩
    beta_reduce
    split
    next e =>
      have hj : j = id := (State.sweep?_id hx).symm.trans e
      subst hj
      exact hf w x hw hx hwx
    · exact hwx
  regs := h.regs

theorem Follows.modSweep (id : Nat) (f : Sweep → Sweep) (hf : ∀ w : Sweep, w.Onward (f w)) (hid : ∀ w : Sweep, (f w).id = w.id := by exact fun _ => rfl) :
    Follows d s (s.modSweep d id f) :=
  (Follows.refl s).thenModSweep (fun w h => (hid w).trans h) fun w x hw hx _ => by
    rw [hw] at hx
    cases hx
    exact hf w

theorem Follows.modRec (id i : Nat) (f : SweepRec → SweepRec) (hf : ∀ r, RecKept r (f r) := by exact fun _ => ⟨rfl, rfl, rfl⟩) :
    Follows d s (s.modRec d id i f) :=
  .modSweep id _ fun w => .ofRecs (recsKept_modAt w.recs i hf)

end

/-! ### The steps behind a stage -/

/-- A sweep whose last tile is committed at an instant. -/
def Sweep.endAt (w : Sweep) (t : Nat) : Sweep := { w with ended := true, endT := t }

section
variable (s : State) (d id : Nat)

theorem State.sweepOff_sweeps : ((s.sweepOff d).csm d).sweeps = (s.csm d).sweeps := by
  unfold State.sweepOff
  rw [State.modCsm_csm_self]
  rfl

/-- Once the last tile is committed only marks of the end stand in the sweep (R41, R104). -/
theorem State.lastTile_sweeps {w : Sweep} (h : s.sweep? d id = some w) (he : w.ended = false) (hs : w.started = true) (ha : w.allDone = true) :
    ((s.lastTile d id).csm d).sweeps = ((s.modSweep d id (fun _ => w.endAt s.clk.tNs)).csm d).sweeps := by
  unfold State.lastTile
  split
  next hno => cases h.symm.trans hno
  next w0 hw0 =>
  cases h.symm.trans hw0
  rw [if_neg (by rw [he, hs, ha]; decide)]
  extract_lets w' s1 s2 s3 s4
  have h1 : (s1.csm d).sweeps = ((s.modSweep d id (fun _ => w')).csm d).sweeps := State.sweepOff_sweeps _ d
  have h4 : Keeps 0x8000 s3 s4 := Keeps.foldl _ _ (fun s r => s.settleTrace_keeps d w' r) (.refl s3)
  have hcsms : ((s4.pmc d 0x01 0 w'.actual (some w'.ctx)).hist d 3 0 w'.actual).csms = s1.csms := by
    rw [(State.hist_keeps _ _ _ _ _).same .csms (by decide), (State.pmc_keeps _ _ _ _ _ _).same .csms (by decide),
      h4.same .csms (by decide)]
    rfl
  refine Eq.trans ?_ h1
  unfold State.csm
  rw [hcsms]

/-- A sweep may have ended with its last tile; nothing else of it changed. -/
theorem State.sweep?_lastTile {w : Sweep} (h : s.sweep? d id = some w) :
    ∃ e t, (s.lastTile d id).sweep? d id = some { w with ended := e, endT := t } := by
  by_cases hend : w.ended = false ∧ w.started = true ∧ w.allDone = true
  · obtain ⟨he, hs, ha⟩ := hend
    refine ⟨true, s.clk.tNs, ?_⟩
    refine (State.sweep?_congr (s.lastTile_sweeps d id h he hs ha) id).trans ?_
    have hid : w.id = id := State.sweep?_id h
    exact State.sweep?_modSweep_self (f := fun _ => w.endAt s.clk.tNs) (fun _ _ => hid) h
  · refine ⟨w.ended, w.endT, ?_⟩
    have hno : s.lastTile d id = s := by
      unfold State.lastTile
      simp only [h]
      refine if_pos ?_
      by_contra hc
      exact hend (by simpa [and_assoc] using hc)
    rw [hno]
    exact h

theorem State.sweepOff_follows : Follows d s (s.sweepOff d) := by
  unfold State.sweepOff
  refine Follows.trans (.fset CSM_STATUS_BUSY 0) ?_
  exact .modCsm _

theorem State.lastTile_follows : Follows d s (s.lastTile d id) := by
  unfold State.lastTile
  split
  · exact .refl s
  next w hw =>
    refine .ite (.refl s) ?_
    extract_lets w' s1 s2 s3 s4
    have h1 : Follows d s s1 := by
      refine Follows.trans ?_ (State.sweepOff_follows _ d)
      have hid : w.id = id := State.sweep?_id hw
      refine Follows.thenModSweep (.refl s) (fun _ _ => hid) fun v x hv hx _ => ?_
      rw [hw] at hv
      cases hv
      exact .ofRecs (recsKept_refl _)
    have h3 : Follows d s1 s3 :=
      (((Follows.fsat CSM_SWEEP_RUN_CYCLES _).trans (.fsat CSM_STALL_LAST_STALL _)).trans (.fadd CSM_STALL_SUM_CYCLES _)).trans
        (.fadd CSM_SWEEPS_COUNT 1)
    have h4 : Follows d s3 s4 := .foldl _ _ fun s r => .ofKeeps (s.settleTrace_keeps d w' r)
    exact ((h1.trans h3).trans h4).trans ((Follows.ofKeeps (State.pmc_keeps _ _ _ _ _ _)).trans (.ofKeeps (State.hist_keeps _ _ _ _ _)))

theorem State.pinPlan_sweeps : ((s.pinPlan d id).csm d).sweeps = (s.csm d).sweeps := by
  unfold State.pinPlan
  split
  · rfl
  · split
    · rfl
    · rw [State.modCsm_csm_self]

theorem State.pinPlan_follows : Follows d s (s.pinPlan d id) := by
  unfold State.pinPlan
  split
  · exact .refl s
  · exact .ite (.refl s) (.modCsm _)

theorem State.countSkips_follows (w : Sweep) : Follows d s (s.countSkips d w) :=
  (Follows.fadd CSM_SKIPS_COUNT _).trans (.ofKeeps (State.pmc_keeps _ _ _ _ _ _))

theorem State.completeKey_follows (k : Nat × Nat × Nat) (st r0 r1 : Nat) : Follows d s (s.completeKey k st r0 r1) :=
  .ofKeeps (State.completeKey_keeps _ _ _ _ _)

theorem State.gradClose_follows (g : Grad) (l : List (Nat × Nat × Nat × Bool × Nat)) : Follows d s (s.gradClose d id g l) := by
  induction l generalizing s with
  | nil => exact .modCsm _
  | cons e l ih =>
    obtain ⟨f, sq, i, keep, dest⟩ := e
    unfold State.gradClose
    extract_lets rest drop s1 s2
    have hrest : ∀ a, Follows d a (rest a) := fun a => .foldl _ _ fun s x => State.completeKey_follows s d _ _ _ _
    have hdrop : ∀ a, Follows d a (drop a) := fun a => .modCsm _
    refine .ite ?_ ?_
    · exact (((hdrop s).trans (.ofKeeps (State.segsToLimbo_keeps _ _ _))).trans (State.completeKey_follows _ d _ _ _ _)).trans (hrest _)
    · have h2 : Follows d s1 s2 := .ite ((hdrop s1).trans (.ofKeeps (State.giveSegs_keeps _ _ _)))
        ((hdrop s1).trans (.ofKeeps (State.segsToLimbo_keeps _ _ _)))
      have h1 : Follows d s s1 := .ite (.refl s) (by
        split
        · exact .ofKeeps (State.descWrite_keeps _ _ _ _)
        · exact .refl s)
      refine h1.trans (.ite ((State.completeKey_follows _ d _ _ _ _).trans (ih _)) ?_)
      exact (h2.trans (State.completeKey_follows _ d _ _ _ _)).trans (hrest _)

theorem State.gradSettle_follows : Follows d s (s.gradSettle d) :=
  .foldl _ _ fun s e => .ite (.refl s) (State.gradClose_follows s d e.1 e.2 _)

/-! ### Blocks committed and selected (R126, R160) -/

theorem State.recGrad_follows (c : Ctx) (b : PlanBlk) (r : SweepRec) : Follows d s (s.recGrad d c b r) := by
  unfold State.recGrad
  dsimp only
  refine .ite ?_ (.refl s)
  split
  · exact .refl s
  · exact .ite (.refl s) (.modCsm _)

theorem Sweep.noteLast_onward (w : Sweep) (b : PlanBlk) (rest : List PlanBlk) : w.Onward (w.noteLast b rest) := by
  unfold Sweep.noteLast
  dsimp only
  split
  · exact .ofRecs (recsKept_refl _)
  · exact .refl w

theorem Sweep.noteLast_id (w : Sweep) (b : PlanBlk) (rest : List PlanBlk) : (w.noteLast b rest).id = w.id := by
  unfold Sweep.noteLast
  dsimp only
  split <;> rfl

theorem State.commitBlk_follows (b : PlanBlk) (rest : List PlanBlk) : Follows d s (s.commitBlk d id b rest) := by
  unfold State.commitBlk
  split
  · exact .refl s
  next w _ =>
    extract_lets need s1 s2
    have h1 : Follows d s s1 := .foldl _ _ fun s x => .modRec id x.1 _
    have h2 : Follows d s1 s2 := .foldl _ _ fun s x => by
      split
      · exact State.recGrad_follows _ d _ _ _
      · exact .refl s
    exact (h1.trans h2).trans ((Follows.modSweep id _ (fun w => w.noteLast_onward b rest) (fun w => w.noteLast_id b rest)).trans (.modCsm _))

/-- Blocks committed from the front stay in the list. -/
theorem State.commitFront_follows (l : List PlanBlk) :
    Follows d s (s.commitFront d id l).2 ∧ BlksKept l (s.commitFront d id l).1 := by
  induction l generalizing s with
  | nil => exact ⟨.refl s, .refl _⟩
  | cons b l ih =>
    unfold State.commitFront
    split
    · obtain ⟨hf, hb⟩ := ih s
      exact ⟨hf, hb.cons b b.committed⟩
    · split
      · exact ⟨.refl s, .refl _⟩
      · split
        · obtain ⟨hf, hb⟩ := ih (s.commitBlk d id b l)
          exact ⟨(State.commitBlk_follows s d id b l).trans hf, hb.cons b true⟩
        · exact ⟨.refl s, .refl _⟩

/-- The records of a list, folded through with what they choose, keep their places. -/
theorem recsKept_foldl {α : Type} (one : α × List SweepRec → Nat × SweepRec → α × List SweepRec)
    (h : ∀ a x, ∃ y, (one a x).2 = a.2 ++ [y] ∧ RecKept x.2 y) (l : List (Nat × SweepRec)) (a : α × List SweepRec) :
    ∃ m, (l.foldl one a).2 = a.2 ++ m ∧ List.Forall₂ RecKept (l.map Prod.snd) m := by
  induction l generalizing a with
  | nil => exact ⟨[], (List.append_nil _).symm, .nil⟩
  | cons x l ih =>
    obtain ⟨y, hy, hk⟩ := h a x
    obtain ⟨m, hm, hl⟩ := ih (one a x)
    refine ⟨y :: m, ?_, .cons hk hl⟩
    rw [List.foldl_cons, hm, hy, List.append_assoc]
    rfl

theorem numbered_map_snd {α : Type} (l : List α) : (numbered l).map Prod.snd = l := by
  unfold numbered
  exact List.map_snd_zip (by simp)

/-- Selection, on the way from a sweep whose selection was open. -/
theorem Follows.thenSelectAll {t : State} (h : Follows d s t) {w : Sweep} (hw : s.sweep? d id = some w) (hsel : w.selDone = false) :
    Follows d s (t.selectAll d id) := by
  unfold State.selectAll
  split
  · exact h
  next x hx =>
    extract_lets c one
    split
    next blocks recs hfold =>
    extract_lets x'
    refine Follows.trans ?_ (State.pinPlan_follows _ d id)
    refine Follows.trans ?_ (State.countSkips_follows _ d x')
    have hid : x.id = id := State.sweep?_id hx
    refine h.thenModSweep (fun _ _ => hid) fun w0 x0 hw0 hx0 hon => ?_
    rw [hw] at hw0
    cases hw0
    rw [hx] at hx0
    cases hx0
    have hone : ∀ a y, ∃ z, (one a y).2 = a.2 ++ [z] ∧ RecKept y.2 z := fun a y => by
      by_cases hk : y.2.held.step.kind ≠ 3 ∨ y.2.live = false
      · exact ⟨y.2, congrArg Prod.snd (if_pos hk), .refl _⟩
      · exact ⟨_, congrArg Prod.snd (if_neg hk), rfl, rfl, rfl⟩
    obtain ⟨m, hm, hkept⟩ := recsKept_foldl one hone (numbered x.recs) (x.blocks, [])
    rw [hfold, List.nil_append] at hm
    rw [numbered_map_snd] at hkept
    subst hm
    exact ⟨recsKept_trans hon.recs hkept, hon.sums, fun hs => absurd (hsel.symm.trans hs) Bool.false_ne_true⟩

/-- One stage of a sweep taken as far as it goes. -/
def State.stageSweep (s : State) (d id : Nat) : State :=
  match s.sweep? d id with
  | none => s
  | some w =>
    if !w.planned then s
    else if !w.selDone then
      let (l, s) := s.commitFront d id w.summaries
      let s := s.modSweep d id (fun w => { w with summaries := l })
      if l.all (·.committed) then s.selectAll d id else s
    else
      let (l, s) := s.commitFront d id w.blocks
      s.modSweep d id (fun w => { w with blocks := l })

theorem State.advanceSweep_eq : s.advanceSweep d id =
    (((((s.stageSweep d id).stageSweep d id).modSweep d id Sweep.noteDone).lastTile d id).gradSettle d).settleFences d := rfl

theorem State.stageSweep_follows : Follows d s (s.stageSweep d id) := by
  unfold State.stageSweep
  split
  · exact .refl s
  next w hw =>
    split
    · exact .refl s
    · split
      next hsel =>
        obtain ⟨hf, hb⟩ := State.commitFront_follows s d id w.summaries
        have hmod : Follows d s ((s.commitFront d id w.summaries).2.modSweep d id
            (fun x => { x with summaries := (s.commitFront d id w.summaries).1 })) := by
          refine hf.thenModSweep (fun _ h => h) fun w0 x hw0 _ hon => ?_
          rw [hw] at hw0
          cases hw0
          exact ⟨hon.recs, hb, hon.sel⟩
        exact .ite (hmod.thenSelectAll s d id hw (by simpa using hsel)) hmod
      next hsel =>
        obtain ⟨hf, hb⟩ := State.commitFront_follows s d id w.blocks
        refine hf.thenModSweep (fun _ h => h) fun w0 x hw0 _ hon => ?_
        rw [hw] at hw0
        cases hw0
        exact ⟨hon.recs, hon.sums, fun hs => ⟨(hon.sel hs).1, hb⟩⟩

/-- No fence waits, so none takes effect. -/
theorem State.settleFences_idle (hp : (s.csm d).paneFence = 0) (ha : (s.csm d).atmFence = 0) : s.settleFences d = s := by
  unfold State.settleFences
  split
  · rfl
  · extract_lets off s1
    have h1 : s1 = s := by
      show (bitsOf 4 (s.csm d).paneFence).foldl (off uPane) s = s
      rw [hp]
      rfl
    rw [h1, ha]
    rfl

theorem State.advanceSweep_follows (hp : (s.csm d).paneFence = 0) (ha : (s.csm d).atmFence = 0) : Follows d s (s.advanceSweep d id) := by
  have h : Follows d s (((((s.stageSweep d id).stageSweep d id).modSweep d id Sweep.noteDone).lastTile d id).gradSettle d) := by
    refine Follows.trans ?_ (State.gradSettle_follows _ d)
    refine Follows.trans ?_ (State.lastTile_follows _ d id)
    refine Follows.trans ((State.stageSweep_follows s d id).trans (State.stageSweep_follows _ d id)) ?_
    exact .modSweep id _ fun w => .ofRecs (recsKept_refl _)
  rw [State.advanceSweep_eq, State.settleFences_idle _ d (h.pane.trans hp) (h.atm.trans ha)]
  exact h

end

/-! ### SWEEP_START and PLAN_COMPLETE (R104, R125, R126) -/

section
variable {s : State} {d : Nat} {w : Sweep}

/-- The fields of a sweep that takes the Casement (R125). -/
def State.showSweep (s : State) (d : Nat) (w : Sweep) : State :=
  (((((s.fset CSM_STATUS_BUSY d 1).fset CSM_SWEEP_ID_SWEEP d w.id).fset CSM_SWEEP_RUN_CYCLES d 0).fset CSM_SWEEP_INFO_RECORDS d
    w.recs.length).fset CSM_SWEEP_INFO_CONTEXT d w.ctx).fsat CSM_SWEEP_EST_EST d w.scaled

theorem State.showSweep_id (s : State) (d : Nat) (w : Sweep) : (s.showSweep d w).fget CSM_SWEEP_ID_SWEEP d = w.id % 2 ^ 32 := by
  unfold State.showSweep
  rw [State.fget_fsat_other _ _ _ _ _ _ (Fld.key_ne_of_apart _ (by decide) d),
    State.fget_fset_other _ _ _ _ _ _ (Fld.key_ne_of_apart _ (by decide) d),
    State.fget_fset_other _ _ _ _ _ _ (Fld.key_ne_of_apart _ (by decide) d),
    State.fget_fset_other _ _ _ _ _ _ (Fld.key_ne_of_apart _ (by decide) d)]
  exact State.fget_fset_self _ _ _ _

theorem State.showSweep_ctx (s : State) (d : Nat) (w : Sweep) : (s.showSweep d w).fget CSM_SWEEP_INFO_CONTEXT d = w.ctx % 2 ^ 12 := by
  unfold State.showSweep
  rw [State.fget_fsat_other _ _ _ _ _ _ (Fld.key_ne_of_apart _ (by decide) d)]
  exact State.fget_fset_self _ _ _ _

/-- The state in which the sweep that takes the Casement is marked started. -/
theorem State.startSweep_eq (s : State) (d : Nat) (w : Sweep) :
    ∃ a : State,
      (a.csm d).sweeps = (s.csm d).sweeps.map (fun v => if v.id = w.id then { v with started := true, startT := max v.admT (s.csm d).freeT } else v) ∧
      s.startSweep d w = (((a.showSweep d w).pmc d 0x01 1 0 (some w.ctx)).pinPlan d w.id).lastTile d w.id := by
  unfold State.startSweep
  extract_lets s1 c s2 s3 s4 s5 s6 s7
  refine ⟨s5, ?_, rfl⟩
  have h1 : s1.csm d = s.csm d := by
    have hk : Keeps 0x4000408049 s s1 := .ite ((State.powerTo_keeps s d 0 0).mono.trans (State.fadd_keeps _ _ _ _)) (.refl s)
    unfold State.csm
    rw [hk.same .csms (by decide)]
  have h2 : s2.csm d = s1.csm d := by
    unfold s2
    split <;> rfl
  have h4 : (s4.csm d).sweeps = (s2.csm d).sweeps := by
    show ((State.modCsm (State.modCsm s2 d _) d _).csm d).sweeps = _
    rw [State.modCsm_csm_self, State.modCsm_csm_self]
  show ((s4.modSweep d w.id _).csm d).sweeps = _
  rw [State.modSweep_csm, h4, h2, show c = s.csm d from h1, h1]

theorem sweepStart_starts {t : Nat} (hrun : s.running? d = none) (hpause : s.fbit DPM_STATUS_PAUSED d = false)
    (hdown : s.dieDown d = false) (hfind : (s.csm d).sweeps.find? (fun w => !w.started) = some w) (hw : s.sweep? d w.id = some w)
    (hp : (s.csm d).paneFence = 0) (ha : (s.csm d).atmFence = 0) :
    Runs (.sweepStart d t) s (fun u =>
      u.fget CSM_SWEEP_ID_SWEEP d = w.id % 2 ^ 32 ∧ u.fget CSM_SWEEP_INFO_CONTEXT d = w.ctx % 2 ^ 12 ∧ u.clk.tNs = max s.clk.tNs t ∧
      (∃ x, u.sweep? d w.id = some x ∧ x.started = true ∧ x.startT = max w.admT (s.csm d).freeT ∧ x.recs = w.recs)) := by
  have hcsm : (s.advanceTo t).csm d = s.csm d := State.advanceTo_csm t d
  have hstep : exec (.sweepStart d t) s = .next ((s.advanceTo t).startSweep d w) := by
    show execSweepStart d t s = _
    unfold execSweepStart
    have hpause' : (s.advanceTo t).fbit DPM_STATUS_PAUSED d = false := by
      unfold State.fbit at hpause ⊢
      rwa [(s.advanceTo_keeps t).fget (b := .dpm) (by decide) rfl]
    have hrun' : (s.advanceTo t).running? d = none := by
      unfold State.running? at hrun ⊢
      rwa [hcsm]
    rw [State.settleFences_idle _ d (by rwa [hcsm]) (by rwa [hcsm])]
    simp only [hrun', hpause', State.advanceTo_dieDown, hdown, hcsm, hfind]
    rfl
  refine ⟨_, hstep, ?_⟩
  obtain ⟨a, hsweeps, heq⟩ := State.startSweep_eq (s.advanceTo t) d w
  rw [hcsm] at hsweeps
  let v := (a.showSweep d w).pmc d 0x01 1 0 (some w.ctx)
  have hv : Keeps 0x4008008 (a.showSweep d w) v := State.pmc_keeps _ _ _ _ _ _
  have hend : Follows d v ((s.advanceTo t).startSweep d w) := by
    rw [heq]
    exact (State.pinPlan_follows v d w.id).trans (State.lastTile_follows _ d w.id)
  refine ⟨?_, ?_, ?_, ?_⟩
  · rw [hend.regs _ (.inl rfl) (by decide), hv.fget (b := .csm) (by decide) rfl, State.showSweep_id]
  · rw [hend.regs _ (.inl rfl) (by decide), hv.fget (b := .csm) (by decide) rfl, State.showSweep_ctx]
  · exact (congrArg Clock.tNs ((State.startSweep_keeps _ _ _).same .clk (by decide))).trans (s.advanceTo_tNs t)
  · have hlook : (v.pinPlan d w.id).sweep? d w.id = some { w with started := true, startT := max w.admT (s.csm d).freeT } := by
      have hvs : ((v.pinPlan d w.id).csm d).sweeps = (a.csm d).sweeps := by
        rw [State.pinPlan_sweeps]
        unfold State.csm
        rw [hv.same .csms (by decide)]
        rfl
      have hmod : (a.csm d).sweeps = ((s.modSweep d w.id (fun v => { v with started := true, startT := max v.admT (s.csm d).freeT })).csm d).sweeps := by
        rw [hsweeps, State.modSweep_csm]
      refine (State.sweep?_congr (hvs.trans hmod) w.id).trans ?_
      exact State.sweep?_modSweep_self (fun _ h => h) hw
    obtain ⟨e, te, hx⟩ := State.sweep?_lastTile _ d w.id hlook
    rw [heq]
    exact ⟨_, hx, rfl, rfl, rfl⟩

theorem planComplete_plans {sweep : Nat} (hw : s.sweep? d sweep = some w) (hplan : w.planned = false) :
    Runs (.planComplete d sweep) s (fun u =>
      ∃ x, u.sweep? d sweep = some x ∧ x.planned = true ∧ x.blocks = s.planOf d w.shape (w.recs.map (fun r => (r.held.step, r.snap))) ∧
        x.selDone = (s.summaryPlan d w.shape (w.recs.map (fun r => (r.held.step, r.snap)))).isEmpty) := by
  have hstep : exec (.planComplete d sweep) s = .next (s.makePlan d w) := by
    show execPlanComplete d sweep s = _
    unfold execPlanComplete
    simp only [hw, hplan]
    rfl
  refine ⟨_, hstep, ?_⟩
  unfold State.makePlan
  extract_lets pairs sums recs x s1 s2
  have hid : w.id = sweep := State.sweep?_id hw
  have h1 : s1.sweep? d sweep = some x.noteDone := by
    show (s.modSweep d w.id _).sweep? d sweep = _
    rw [hid]
    exact State.sweep?_modSweep_self (f := fun _ => x.noteDone) (fun _ _ => hid) hw
  have h2 : (s2.csm d).sweeps = (s1.csm d).sweeps := by
    have hk : Keeps 0x24008008 s1 s2 := .ite (State.countSkips_keeps _ _ _) (.refl s1)
    unfold State.csm
    rw [hk.same .csms (by decide)]
  have h3 : (s2.pinPlan d x.id).sweep? d sweep = some x.noteDone :=
    (State.sweep?_congr ((State.pinPlan_sweeps s2 d x.id).trans h2) sweep).trans h1
  obtain ⟨e, te, hx⟩ := State.sweep?_lastTile _ d sweep h3
  rw [show x.id = sweep from hid] at hx ⊢
  exact ⟨_, hx, rfl, rfl, rfl⟩

end

/-! ### A block of the stage that a command marks -/

/-- The blocks of the stage before (`sel` false) or after selection. -/
def Sweep.stageBlks (w : Sweep) (sel : Bool) : List PlanBlk := if sel then w.blocks else w.summaries

theorem Sweep.Onward.stage {w x : Sweep} (h : w.Onward x) {sel : Bool} (hs : sel = true → w.selDone = true) :
    BlksKept (w.stageBlks sel) (x.stageBlks sel) := by
  cases sel with
  | false => exact h.sums
  | true => exact (h.sel (hs rfl)).2

theorem Sweep.blk?_mem {w : Sweep} {page blk : Nat} {b : PlanBlk} (h : w.blk? page blk = some b) :
    b ∈ w.stageBlks w.selDone ∧ b.page = page ∧ b.blk = blk := by
  unfold Sweep.blk? at h
  unfold Sweep.stageBlks
  split at h
  · cases h
  · split at h
    next hsel =>
      have hf : w.selDone = false := by simpa using hsel
      have hk := List.find?_some h
      simp only [Bool.and_eq_true, beq_iff_eq] at hk
      obtain ⟨⟨hp, hb⟩, -⟩ := hk
      rw [hf, if_neg Bool.false_ne_true]
      exact ⟨List.mem_of_find?_eq_some h, hp, hb⟩
    next hsel =>
      have ht : w.selDone = true := by simpa using hsel
      have hk := List.find?_some h
      simp only [Bool.and_eq_true, beq_iff_eq] at hk
      obtain ⟨⟨hp, hb⟩, -⟩ := hk
      rw [ht, if_pos rfl]
      exact ⟨List.mem_of_find?_eq_some h, hp, hb⟩

section
variable {s t u : State} {d id : Nat} {w : Sweep} {b : PlanBlk} {f : PlanBlk → PlanBlk}

/-- A block of the stage, changed by a command that names it, is found so in what follows. -/
theorem modBlk_found (h : SweepsGoOn d s t) (hw : s.sweep? d id = some w) (hb : b ∈ w.stageBlks w.selDone)
    (k : SweepsGoOn d (t.modBlk d id b f) u) :
    ∃ x, u.sweep? d id = some x ∧ ∃ c c', { f { b with committed := c } with committed := c' } ∈ x.stageBlks w.selDone := by
  obtain ⟨x, hx, hon⟩ := h.sweeps id w hw
  obtain ⟨c, hc⟩ := hon.stage (sel := w.selDone) (fun h => h) b hb
  let g (y : PlanBlk) : PlanBlk := if y.page = b.page ∧ y.blk = b.blk ∧ y.layer = b.layer then f y else y
  let x' : Sweep := { x with summaries := x.summaries.map g, blocks := x.blocks.map g }
  have hx' : (t.modBlk d id b f).sweep? d id = some x' :=
    State.sweep?_modSweep_self (f := fun w => { w with summaries := w.summaries.map g, blocks := w.blocks.map g }) (fun _ h => h) hx
  have hmem : f { b with committed := c } ∈ x'.stageBlks w.selDone := by
    have hg : g { b with committed := c } = f { b with committed := c } := if_pos ⟨rfl, rfl, rfl⟩
    rw [← hg]
    unfold Sweep.stageBlks at hc ⊢
    split at hc
    next h => rw [if_pos h]; exact List.mem_map_of_mem hc
    next h => rw [if_neg h]; exact List.mem_map_of_mem hc
  obtain ⟨y, hy, hon'⟩ := k.sweeps id x' hx'
  have hsel : w.selDone = true → x'.selDone = true := fun h => (hon.sel h).1
  obtain ⟨c', hc'⟩ := hon'.stage hsel _ hmem
  exact ⟨y, hy, c, c', hc'⟩

theorem State.modBlk_fences (s : State) (d id : Nat) (b : PlanBlk) (f : PlanBlk → PlanBlk) :
    ((s.modBlk d id b f).csm d).paneFence = (s.csm d).paneFence ∧ ((s.modBlk d id b f).csm d).atmFence = (s.csm d).atmFence := by
  unfold State.modBlk
  rw [State.modSweep_csm]
  exact ⟨rfl, rfl⟩

/-! ### BLOCK_FETCH_DONE (R200 to R202) -/

theorem State.loadTables_follows (s : State) (d : Nat) (w : Sweep) (page : Nat) (read : Option (List Byte)) :
    Follows d s (s.loadTables d w page read) := by
  unfold State.loadTables
  split
  · exact .refl s
  · extract_lets busy e s1 sound
    split
    · exact .modCsm _
    · have h1 : Follows d s s1 := .modCsm _
      exact h1.trans (.ite (.refl s1) (.modSweep w.id _ fun w => .ofRecs (recsKept_refl _)))

/-- The operand store is all of the Casement's record that a block used changes. -/
theorem Casement.useStore_eq (c : Casement) (page blk bytes : Nat) : ∃ l, c.useStore page blk bytes = { c with store := l } := by
  unfold Casement.useStore
  extract_lets rest rest'
  split
  · exact ⟨_, rfl⟩
  · exact ⟨_, rfl⟩

theorem State.useStore_follows (s : State) (d page blk bytes : Nat) : Follows d s (s.modCsm d (fun c => c.useStore page blk bytes)) := by
  refine .modCsm _ (fun c => ?_) (fun c => ?_) (fun c => ?_)
  · obtain ⟨l, hl⟩ := c.useStore_eq page blk bytes
    rw [hl]
  · obtain ⟨l, hl⟩ := c.useStore_eq page blk bytes
    rw [hl]
  · obtain ⟨l, hl⟩ := c.useStore_eq page blk bytes
    rw [hl]

/-- The fetch of a block counted: a hit of the operand store, or a miss and the read of its bytes. -/
def State.countFetch (s : State) (d : Nat) (hit : Bool) (bytes ctx : Nat) : State :=
  if hit then (s.fadd ATM_STORE_HITS_COUNT d 1).pmc d 0x06 1 bytes (some ctx)
  else ((s.fadd ATM_STORE_MISSES_COUNT d 1).pmc d 0x05 1 bytes (some ctx)).hbmRead d bytes (some ctx)

theorem State.countFetch_keeps (s : State) (d : Nat) (hit : Bool) (bytes ctx : Nat) : Keeps 0x4400800A s (s.countFetch d hit bytes ctx) := by
  unfold State.countFetch
  split
  · exact (State.fadd_keeps s _ _ _).mono.trans (State.pmc_keeps _ _ _ _ _ _)
  · exact ((State.fadd_keeps s _ _ _).mono.trans (State.pmc_keeps _ _ _ _ _ _)).trans (State.hbmRead_keeps _ _ _ _)

theorem State.countFetch_hit (s : State) (d bytes ctx : Nat) :
    (s.countFetch d true bytes ctx).fget ATM_STORE_HITS_COUNT d = min (s.fget ATM_STORE_HITS_COUNT d + 1) (2 ^ ATM_STORE_HITS_COUNT.w - 1) := by
  unfold State.countFetch
  rw [if_pos rfl, (State.pmc_keeps _ _ _ _ _ _).fget (b := .atm) (by decide) rfl, State.fget_fadd_self]

theorem State.countFetch_miss (s : State) (d bytes ctx : Nat) :
    (s.countFetch d false bytes ctx).fget ATM_STORE_MISSES_COUNT d = min (s.fget ATM_STORE_MISSES_COUNT d + 1) (2 ^ ATM_STORE_MISSES_COUNT.w - 1) := by
  unfold State.countFetch
  rw [if_neg Bool.false_ne_true, (State.hbmRead_keeps _ _ _ _).fget (b := .atm) (by decide) rfl,
    (State.pmc_keeps _ _ _ _ _ _).fget (b := .atm) (by decide) rfl, State.fget_fadd_self]

theorem blockFetchDone_fetches {page blk : Nat} {tab : Option (List Byte)} (hrun : s.running? d = some w) (hw : s.sweep? d w.id = some w)
    (hplan : w.planned = true) (hfind : (if w.selDone then w.blocks else w.summaries).find? (fun b => !b.fetched) = some b)
    (hpage : b.page = page) (hblk : b.blk = blk) (hp : (s.csm d).paneFence = 0) (ha : (s.csm d).atmFence = 0) :
    Runs (.blockFetchDone d page blk tab none) s (fun u =>
      (if (s.csm d).store.any (fun e => e.page == page && e.blk == blk) = true then u.fget ATM_STORE_HITS_COUNT d = min (s.fget ATM_STORE_HITS_COUNT d + 1) (2 ^ (ATM_STORE_HITS_COUNT).w - 1)
      else u.fget ATM_STORE_MISSES_COUNT d = min (s.fget ATM_STORE_MISSES_COUNT d + 1) (2 ^ (ATM_STORE_MISSES_COUNT).w - 1)) ∧
      (∃ x, u.sweep? d w.id = some x ∧ ∃ y, y ∈ (if w.selDone then x.blocks else x.summaries) ∧ y.page = page ∧ y.blk = blk ∧ y.fetched = true)) := by
  generalize hhit : (s.csm d).store.any (fun e => e.page == page && e.blk == blk) = hit
  let s2 := (s.heatUp d page).countFetch d hit b.bytes w.ctx
  let s3 := if b.tail then s2 else (s2.modCsm d (fun c => c.useStore page blk b.bytes)).loadTables d w page tab
  let f := fun x : PlanBlk => { x with fetched := true, atomizer := (s3.pickAtm d (w.summaries ++ w.blocks)).getD 0 }
  let s5 := (b.liveNeed w).foldl (fun s x => s.modRec d w.id x.1 (fun r => r.fetch b hit)) (s3.modBlk d w.id b f)
  have hstep : exec (.blockFetchDone d page blk tab none) s = .next (s5.advanceSweep d w.id) := by
    show execBlockFetchDone d page blk tab none s = _
    unfold execBlockFetchDone
    simp only [hrun, hplan, hfind, if_true, hpage, hblk, ne_eq, not_true_eq_false, or_self, if_false, hhit]
    rfl
  have h2 : s2.csm d = s.csm d := by
    have hk : Keeps 0x4400830A s s2 := (State.heatUp_keeps s d page).mono.trans (State.countFetch_keeps _ _ _ _ _)
    unfold State.csm
    rw [hk.same .csms (by decide)]
  have h3 : Follows d s2 s3 :=
    .ite (.refl s2) ((State.useStore_follows s2 d page blk b.bytes).trans (State.loadTables_follows _ d w page tab))
  have h5 : Follows d (s3.modBlk d w.id b f) s5 := .foldl _ _ fun s x => .modRec w.id x.1 _
  obtain ⟨hpm, ham⟩ := State.modBlk_fences s3 d w.id b f
  have hend : Follows d (s3.modBlk d w.id b f) (s5.advanceSweep d w.id) := by
    refine h5.trans (State.advanceSweep_follows _ d w.id ?_ ?_)
    · rw [h5.pane, hpm, h3.pane, h2, hp]
    · rw [h5.atm, ham, h3.atm, h2, ha]
  refine ⟨_, hstep, ?_, ?_⟩
  · have hregs : ∀ G : Fld, G.blk = .atm → sweepFields.all (·.apart G) = true → (s5.advanceSweep d w.id).fget G d = s2.fget G d :=
      fun G hG hF => (hend.regs G (.inr hG) hF).trans (h3.regs G (.inr hG) hF)
    have hheat : ∀ G : Fld, G.blk = .atm → (s.heatUp d page).fget G d = s.fget G d := fun G hG =>
      (State.heatUp_keeps s d page).fget (b := .atm) (by decide) hG d
    cases hit with
    | true =>
      rw [if_pos rfl, hregs _ rfl (by decide), State.countFetch_hit, hheat _ rfl]
    | false =>
      rw [if_neg Bool.false_ne_true, hregs _ rfl (by decide), State.countFetch_miss, hheat _ rfl]
  · have hw2 : s2.sweep? d w.id = some w := (State.sweep?_congr (by rw [h2]) w.id).trans hw
    obtain ⟨x, hx, c, c', hy⟩ := modBlk_found h3.toSweepsGoOn hw2 (List.mem_of_find?_eq_some hfind) hend.toSweepsGoOn
    exact ⟨x, hx, _, hy, hpage, hblk, rfl⟩

/-! ### BLOCK_EXPAND_DONE (R203 to R206) -/

theorem State.atmBoundary_idle (a : Nat) (h : (s.csm d).atmFence = 0) : s.atmBoundary d a = s := by
  unfold State.atmBoundary
  rw [h, Nat.zero_testBit]
  rfl

theorem State.paneBoundary_idle (p : Nat) (h : (s.csm d).paneFence = 0) : s.paneBoundary d p = s := by
  unfold State.paneBoundary
  rw [h, Nat.zero_testBit]
  rfl

/-- What a block expanded depends on: its page and the tables loaded for it. -/
theorem State.expandOf_congr (hp : t.pfxs = s.pfxs) (hc : (t.csm d).tables = (s.csm d).tables) (read : Option (List Byte)) :
    t.expandOf d w b read = s.expandOf d w b read := by
  have hpage : t.page? d b.page = s.page? d b.page := State.page?_congr hp _ _
  unfold State.expandOf
  rw [hpage, hc]

theorem State.evtDie_csm (s : State) (F : Fld) (e d : Nat) : (s.evtDie F e).csm d = s.csm d := by
  unfold State.csm
  rw [State.evtDie_csms]

/-- The wait cycles of an expansion counted, and an injected error of the atomizer seen and spent (R205, R215). -/
def State.meetInjected (s : State) (d : Nat) (b : PlanBlk) (wait : Nat) : State :=
  let s := s.fadd (ATM_WAIT_CYCLES.nth b.atomizer) d wait
  if b.coded && (s.csm d).injAtm.testBit b.atomizer then
    (s.evtDie ATM_EVENT_INJECT_SEEN d).modCsm d (fun c => { c with injAtm := setBit c.injAtm b.atomizer false })
  else s

theorem State.meetInjected_csm (s : State) (d : Nat) (b : PlanBlk) (wait : Nat) :
    ∃ n, (s.meetInjected d b wait).csm d = { s.csm d with injAtm := n } := by
  unfold State.meetInjected
  extract_lets s1
  split
  · refine ⟨setBit (s.csm d).injAtm b.atomizer false, ?_⟩
    rw [State.modCsm_csm_self, State.evtDie_csm]
    rfl
  · exact ⟨(s.csm d).injAtm, rfl⟩

theorem State.meetInjected_keeps (s : State) (d : Nat) (b : PlanBlk) (wait : Nat) : Keeps 0x40000088 s (s.meetInjected d b wait) := by
  have hadd : Keeps 0x40000088 s (s.fadd (ATM_WAIT_CYCLES.nth b.atomizer) d wait) :=
    (State.fadd_keeps s _ _ _).mono (by rw [Fld.nth_bit]; decide)
  unfold State.meetInjected
  extract_lets s1
  exact .ite ((hadd.trans (State.evtDie_keeps _ _ _)).trans (State.modCsm_keeps _ _ _)) hadd

theorem State.meetInjected_regsOnly (s : State) (d : Nat) (b : PlanBlk) (wait : Nat) :
    RegsOnly (s.fadd (ATM_WAIT_CYCLES.nth b.atomizer) d wait) (s.meetInjected d b wait) [ATM_EVENT_INJECT_SEEN.key d] := by
  unfold State.meetInjected
  extract_lets s1
  split
  · exact s1.evtDie_regsOnly _ _
  · exact fun _ _ _ => rfl

/-- A coded block counted when it is released (R204, R215). -/
def State.countCoded (s : State) (d : Nat) (c : Ctx) (b : PlanBlk) (ctx : Nat) : State :=
  ((s.modCsm d (fun x => { x with coded := min (x.coded + b.bytes) (2 ^ 64 - 1), plain := min (x.plain + s.plainBytes d c b) (2 ^ 64 - 1) })).fadd
    ATM_BLOCKS_COUNT d 1).pmc d 0x08 1 b.bytes (some ctx)

theorem State.releaseBlk_coded (s : State) (d id : Nat) (c : Ctx) (ctx : Nat) (elems : Option (List Pos)) (h : b.coded = true) :
    s.releaseBlk d id c b ctx elems = (s.countCoded d c b ctx).modBlk d id b (fun x => { x with expanded := true, elems := elems }) := by
  unfold State.releaseBlk
  simp only [h, if_true]
  rfl

theorem State.countCoded_csm (s : State) (d : Nat) (c : Ctx) (b : PlanBlk) (ctx : Nat) :
    ∃ m n, (s.countCoded d c b ctx).csm d = { s.csm d with coded := m, plain := n } := by
  unfold State.countCoded
  generalize hx : State.modCsm _ _ _ = x
  refine ⟨_, _, Eq.trans (b := x.csm d) ?_ (by rw [← hx, State.modCsm_csm_self])⟩
  unfold State.csm
  rw [(State.pmc_keeps _ _ _ _ _ _).same .csms (by decide)]
  rfl

theorem State.countCoded_fget (s : State) (d : Nat) (c : Ctx) (b : PlanBlk) (ctx : Nat) {G : Fld} (hG : G.blk = .atm) :
    (s.countCoded d c b ctx).fget G d = (s.fadd ATM_BLOCKS_COUNT d 1).fget G d := by
  unfold State.countCoded
  rw [(State.pmc_keeps _ _ _ _ _ _).fget (b := .atm) (by decide) hG]
  rfl

theorem atmWait_apart : ∀ a < 4, (ATM_WAIT_CYCLES.nth a).apart ATM_BLOCKS_COUNT = true ∧ (ATM_WAIT_CYCLES.nth a).apart ATM_MISMATCH_COUNT = true ∧
    ATM_BLOCKS_COUNT.apart (ATM_WAIT_CYCLES.nth a) = true ∧ ATM_EVENT_INJECT_SEEN.apart (ATM_WAIT_CYCLES.nth a) = true ∧
    sweepFields.all (·.apart (ATM_WAIT_CYCLES.nth a)) = true := by decide

theorem blockExpandDone_expands {page blk : Nat} {read : Option (List Byte)} {wait : Nat} {elems : Option (List Pos)}
    (hrun : s.running? d = some w) (hw : s.sweep? d w.id = some w) (hb : w.blk? page blk = some b) (hfly : b.inFlight = true)
    (hport : w.portUse b.atomizer < 2) (hcoded : b.coded = true) (hatm : b.atomizer < 4) (hexp : s.expandOf d w b read = .released elems)
    (hp : (s.csm d).paneFence = 0) (ha : (s.csm d).atmFence = 0) :
    Runs (.blockExpandDone d page blk read wait) s (fun u =>
      u.fget ATM_BLOCKS_COUNT d = min (s.fget ATM_BLOCKS_COUNT d + 1) (2 ^ (ATM_BLOCKS_COUNT).w - 1) ∧ u.fget (ATM_WAIT_CYCLES.nth b.atomizer) d = min (s.fget (ATM_WAIT_CYCLES.nth b.atomizer) d + wait) (2 ^ ((ATM_WAIT_CYCLES.nth b.atomizer)).w - 1) ∧ u.fget ATM_MISMATCH_COUNT d = s.fget ATM_MISMATCH_COUNT d ∧
      (∃ x, u.sweep? d w.id = some x ∧ ∃ y, y ∈ (if w.selDone then x.blocks else x.summaries) ∧ y.page = page ∧ y.blk = blk ∧ y.expanded = true)) := by
  obtain ⟨hmem, hpage, hblk⟩ := Sweep.blk?_mem hb
  let s1 := s.meetInjected d b wait
  let s2 := s1.countCoded d w.shape b w.ctx
  let f := fun x : PlanBlk => { x with expanded := true, elems := elems }
  obtain ⟨n, h1⟩ := s.meetInjected_csm d b wait
  obtain ⟨m, k, h2⟩ := s1.countCoded_csm d w.shape b w.ctx
  obtain ⟨hpm, ham⟩ := State.modBlk_fences s2 d w.id b f
  have hp3 : ((s2.modBlk d w.id b f).csm d).paneFence = 0 := by rw [hpm, h2, h1]; exact hp
  have ha3 : ((s2.modBlk d w.id b f).csm d).atmFence = 0 := by rw [ham, h2, h1]; exact ha
  have hexp' : s1.expandOf d w b read = .released elems :=
    (State.expandOf_congr ((s.meetInjected_keeps d b wait).same .pfxs (by decide)) (by rw [h1]) read).trans hexp
  have hstep : exec (.blockExpandDone d page blk read wait) s = .next ((s2.modBlk d w.id b f).advanceSweep d w.id) := by
    have hrel : execBlockExpandDone d page blk read wait s =
        .next (((s1.releaseBlk d w.id w.shape b w.ctx elems).atmBoundary d b.atomizer).advanceSweep d w.id) := by
      unfold execBlockExpandDone
      simp only [hrun, hb, hfly]
      rw [if_neg (by simp; omega)]
      show Host.Outcome.next ((State.atmBoundary (match s1.expandOf d w b read with
        | .released elems => s1.releaseBlk d w.id w.shape b w.ctx elems
        | .failed p => s1.discardBlk d w.id b p) d b.atomizer).advanceSweep d w.id) = _
      rw [hexp']
    rw [State.releaseBlk_coded _ _ _ _ _ _ hcoded, State.atmBoundary_idle _ ha3] at hrel
    exact hrel
  have hend : Follows d (s2.modBlk d w.id b f) ((s2.modBlk d w.id b f).advanceSweep d w.id) :=
    State.advanceSweep_follows _ d w.id hp3 ha3
  have hregs : ∀ G : Fld, G.blk = .atm → sweepFields.all (·.apart G) = true →
      ((s2.modBlk d w.id b f).advanceSweep d w.id).fget G d = (s1.fadd ATM_BLOCKS_COUNT d 1).fget G d := fun G hG hF =>
    (hend.regs G (.inr hG) hF).trans (s1.countCoded_fget d w.shape b w.ctx hG)
  have hmeet : ∀ G : Fld, ATM_EVENT_INJECT_SEEN.apart G = true → s1.fget G d = (s.fadd (ATM_WAIT_CYCLES.nth b.atomizer) d wait).fget G d :=
    fun G hG => s.meetInjected_regsOnly d b wait G d fun e => Fld.key_ne_of_apart _ hG d (List.mem_singleton.1 e).symm
  obtain ⟨hw1, hw2, hw3, hw4, hw5⟩ := atmWait_apart _ hatm
  refine ⟨_, hstep, ?_, ?_, ?_, ?_⟩
  · rw [hregs _ rfl (by decide), State.fget_fadd_self, hmeet _ (by decide), State.fget_fadd_other _ _ _ _ _ _ (Fld.key_ne_of_apart _ hw1 d)]
  · rw [hregs (ATM_WAIT_CYCLES.nth b.atomizer) rfl hw5, State.fget_fadd_other _ _ _ _ _ _ (Fld.key_ne_of_apart _ hw3 d), hmeet _ hw4, State.fget_fadd_self]
  · rw [hregs _ rfl (by decide), State.fget_fadd_other _ _ _ _ _ _ (Fld.key_ne_of_apart _ (by decide) d), hmeet _ (by decide),
      State.fget_fadd_other _ _ _ _ _ _ (Fld.key_ne_of_apart _ hw2 d)]
  · have hsw : s2.sweep? d w.id = some w := (State.sweep?_congr (by rw [h2, h1]) w.id).trans hw
    obtain ⟨x, hx, c, c', hy⟩ := modBlk_found (.ofCsm rfl) hsw hmem hend.toSweepsGoOn
    exact ⟨x, hx, _, hy, hpage, hblk, rfl⟩

/-! ### TILE_PRODUCT_DONE (R145, R146, R149) -/

theorem State.setRetry_follows (s : State) (d id : Nat) (x : TileRef) (e : Option (Nat × Nat)) : Follows d s (s.setRetry d id x e) :=
  .modSweep id _ fun _ => .ofRecs (recsKept_refl _)

theorem State.rerunTile_follows (s : State) (d id ctx : Nat) (recs : List Nat) (cycles : Nat) : Follows d s (s.rerunTile d id ctx recs cycles) := by
  unfold State.rerunTile
  extract_lets s1
  have h1 : Follows d s s1 := .foldl _ _ fun s i => .modRec id i _
  exact (h1.trans (.fadd CSM_RERUN_CYC_CYCLES cycles)).trans (.ofKeeps (State.pmc_keeps _ _ _ _ _ _))

/-- A mismatch counted, and the retry of its pane (R146). -/
def State.countMismatch (s : State) (d pane : Nat) : State :=
  ((s.fadd CSM_MISMATCH_COUNT d 1).evtDie CSM_EVENT_MISMATCH d).fadd (CSM_PANE_RETRY_COUNT.nth pane) d 1

/-- The first mismatch of a tile: it runs again on its pane (R146). -/
theorem State.tileMismatch_first (s : State) (d pane : Nat) {w : Sweep} {x : TileRef} (inj : Bool) (cycles : Nat) (h : w.seen x = none) :
    s.tileMismatch d pane w x inj cycles =
      ((s.countMismatch d pane).setRetry d w.id x (some (1, pane))).rerunTile d w.id w.ctx x.recs cycles := by
  unfold State.tileMismatch
  rw [h]
  rfl

theorem State.countMismatch_csm (s : State) (pane : Nat) : (s.countMismatch d pane).csm d = s.csm d :=
  State.evtDie_csm (s.fadd CSM_MISMATCH_COUNT d 1) CSM_EVENT_MISMATCH d d

theorem paneRetry_fields : ∀ p < 4, (CSM_PANE_RETRY_COUNT.nth p).apart CSM_MISMATCH_COUNT = true ∧ (CSM_PANE_RETRY_COUNT.nth p).apart CSM_TILES_COUNT = true ∧
    (CSM_PANE_RETRY_COUNT.nth p).apart CSM_EVENT_MISMATCH = true ∧ CSM_MISMATCH_COUNT.apart (CSM_PANE_RETRY_COUNT.nth p) = true ∧
    CSM_EVENT_MISMATCH.apart (CSM_PANE_RETRY_COUNT.nth p) = true ∧ sweepFields.all (·.apart (CSM_PANE_RETRY_COUNT.nth p)) = true := by decide

/-- What a counted mismatch leaves in the counts. -/
theorem State.countMismatch_fget (s : State) {pane : Nat} (hp : pane < 4) :
    (s.countMismatch d pane).fget CSM_MISMATCH_COUNT d = min (s.fget CSM_MISMATCH_COUNT d + 1) (2 ^ CSM_MISMATCH_COUNT.w - 1) ∧
    (s.countMismatch d pane).fget (CSM_PANE_RETRY_COUNT.nth pane) d =
      min (s.fget (CSM_PANE_RETRY_COUNT.nth pane) d + 1) (2 ^ (CSM_PANE_RETRY_COUNT.nth pane).w - 1) ∧
    (s.countMismatch d pane).fget CSM_TILES_COUNT d = s.fget CSM_TILES_COUNT d ∧
    (s.countMismatch d pane).fget CSM_EVENT_MISMATCH d ≠ 0 := by
  obtain ⟨h1, h2, h3, h4, h5, -⟩ := paneRetry_fields pane hp
  unfold State.countMismatch
  refine ⟨?_, ?_, ?_, ?_⟩
  · rw [State.fget_fadd_other _ _ _ _ _ _ (Fld.key_ne_of_apart _ h1 d), State.fget_evtDie_other _ _ _ _ _ (Fld.key_ne_of_apart _ (by decide) d),
      State.fget_fadd_self]
  · rw [State.fget_fadd_self, State.fget_evtDie_other _ _ _ _ _ (Fld.key_ne_of_apart _ h5 d),
      State.fget_fadd_other _ _ _ _ _ _ (Fld.key_ne_of_apart _ h4 d)]
  · rw [State.fget_fadd_other _ _ _ _ _ _ (Fld.key_ne_of_apart _ h2 d), State.fget_evtDie_other _ _ _ _ _ (Fld.key_ne_of_apart _ (by decide) d),
      State.fget_fadd_other _ _ _ _ _ _ (Fld.key_ne_of_apart _ (by decide) d)]
  · rw [State.fget_fadd_other _ _ _ _ _ _ (Fld.key_ne_of_apart _ h3 d)]
    exact State.fget_evtDie_self _ _ _ (by decide)

/-- A tile that commits counted, with the issue instants of its records (R145). -/
def State.countTile (s : State) (d : Nat) (w : Sweep) (x : TileRef) (cycles issued : Nat) : State :=
  x.recs.foldl (fun s i => s.modRec d w.id i (fun r => { r with tTile := r.tTile.or (some issued) }))
    (((s.setRetry d w.id x none).fadd CSM_TILES_COUNT d 1).pmc d 0x02 1 cycles (some w.ctx))

theorem State.tileCommit_blk (s : State) {x : TileRef} (cycles issued : Nat) (h : x.b.blk ≠ 9) :
    s.tileCommit d w x cycles issued =
      (s.countTile d w x cycles issued).modBlk d w.id x.b (fun y => { y with tiles := tileCode x.head x.group x.n :: y.tiles }) := by
  unfold State.tileCommit State.markTile
  exact if_neg h

theorem State.countTile_goesOn (s : State) (x : TileRef) (cycles issued : Nat) : SweepsGoOn d s (s.countTile d w x cycles issued) := by
  have h1 : Follows d s (s.setRetry d w.id x none) := s.setRetry_follows d w.id x none
  refine h1.toSweepsGoOn.trans (SweepsGoOn.trans (t := ((s.setRetry d w.id x none).fadd CSM_TILES_COUNT d 1)) (.ofCsm rfl) ?_)
  refine SweepsGoOn.trans (Follows.ofKeeps (State.pmc_keeps _ d 0x02 1 cycles (some w.ctx))).toSweepsGoOn ?_
  exact (Follows.foldl _ _ fun s i => .modRec w.id i _).toSweepsGoOn

theorem State.countTile_fget (s : State) (x : TileRef) (cycles issued : Nat) {G : Fld} (hG : G.blk = .csm) (hF : sweepFields.all (·.apart G) = true) :
    (s.countTile d w x cycles issued).fget G d = ((s.setRetry d w.id x none).fadd CSM_TILES_COUNT d 1).fget G d := by
  have hfold : Follows d (((s.setRetry d w.id x none).fadd CSM_TILES_COUNT d 1).pmc d 0x02 1 cycles (some w.ctx)) (s.countTile d w x cycles issued) :=
    .foldl _ _ fun s i => .modRec w.id i _
  rw [hfold.regs G (.inl hG) hF, (State.pmc_keeps _ _ _ _ _ _).fget (b := .csm) (by decide) hG]

/-- A tile's product taken: its pane's injected error is spent, and the stall before it counted (R144, R149). -/
def State.takeTile (s : State) (d pane : Nat) (w : Sweep) (stall : Nat) : State :=
  let s := (s.modCsm d (fun c => { c with injPane := setBit c.injPane pane false })).modSweep d w.id (fun w => { w with stall := w.stall + stall })
  if stall = 0 then s else s.pmc d 0x03 1 stall (some w.ctx)

theorem State.takeTile_follows (s : State) (pane stall : Nat) : Follows d s (s.takeTile d pane w stall) := by
  unfold State.takeTile
  extract_lets s1
  have h1 : Follows d s s1 := by
    refine Follows.trans (.modCsm _) (.modSweep w.id _ fun _ => .ofRecs (recsKept_refl _))
  exact h1.trans (.ite (.refl s1) (.ofKeeps (State.pmc_keeps _ _ _ _ _ _)))

/-- Time alone changes nothing of a Casement's sweeps. -/
theorem State.advanceTo_follows (s : State) (d t : Nat) : Follows d s (s.advanceTo t) := .ofKeeps (s.advanceTo_keeps t)

theorem State.advanceTo_running? (s : State) (d t : Nat) : (s.advanceTo t).running? d = s.running? d := by
  unfold State.running?
  rw [State.advanceTo_csm]

theorem State.advanceTo_paneUse (s : State) (d t : Nat) : (s.advanceTo t).paneUse d = s.paneUse d := by
  unfold State.paneUse State.fbitAt
  simp only [State.advanceTo_running?, State.advanceTo_csm, (s.advanceTo_keeps t).fget (b := .csm) (by decide) (G := CSM_STATUS_PANE_ACT) rfl]

/-- A tile that may be issued, on a pane that takes it, is taken. -/
theorem exec_tileProductDone {pane page blk head group n issued stall t : Nat} {mismatch : Bool} (hrun : s.running? d = some w)
    (hb9 : blk ≠ 9) (hb : w.blk? page blk = some b) (hexp : b.expanded = true) (htile : b.tiles.contains (tileCode head group n) = false)
    (hrecs : (tileRecs w b head group n).isEmpty = false) (huse : (s.paneUse d).testBit pane = true)
    (hseen : w.seen ⟨b, head, group, n, tileRecs w b head group n⟩ = none) (hpause : tget s.pwr.pauseT d = none) :
    exec (.tileProductDone d pane page blk head group n mismatch issued stall t) s =
      .next (((if mismatch || (s.csm d).injPane.testBit pane then
          ((s.advanceTo t).takeTile d pane w stall).tileMismatch d pane w ⟨b, head, group, n, tileRecs w b head group n⟩
            ((s.csm d).injPane.testBit pane) (tileCost w b head group n)
        else ((s.advanceTo t).takeTile d pane w stall).tileCommit d w ⟨b, head, group, n, tileRecs w b head group n⟩
            (tileCost w b head group n) issued).paneBoundary d pane).advanceSweep d w.id) := by
  obtain ⟨-, -, hblk⟩ := Sweep.blk?_mem hb
  have hne : b.blk ≠ 9 := fun e => hb9 (hblk.symm.trans e)
  have hpause' : tget (s.advanceTo t).pwr.pauseT d = none := by rwa [(s.advanceTo_keeps t).same .pwr (by decide)]
  have hopen : tileOpen w b head group = true := by simp [tileOpen, hne]
  have hdone : tileIsDone w b head group n = false := by
    unfold tileIsDone
    rw [if_neg hne]
    exact htile
  have htakes : (s.advanceTo t).paneTakes d w ⟨b, head, group, n, tileRecs w b head group n⟩ pane = true := by
    unfold State.paneTakes
    rw [State.advanceTo_paneUse, huse, hseen]
    rfl
  show execTileProductDone d pane page blk head group n mismatch issued stall t s = _
  unfold execTileProductDone
  simp only [State.advanceTo_running?, hrun, if_neg hb9, hb, hpause', hexp, hopen, hdone, hrecs, htakes]
  rw [← State.advanceTo_csm (s := s) t d]
  rfl

theorem tileProductDone_counts {pane page blk head group n issued stall t : Nat} {mismatch : Bool} (hrun : s.running? d = some w)
    (hw : s.sweep? d w.id = some w) (hb9 : blk ≠ 9) (hb : w.blk? page blk = some b) (hexp : b.expanded = true)
    (htile : b.tiles.contains (tileCode head group n) = false) (hrecs : (tileRecs w b head group n).isEmpty = false)
    (huse : (s.paneUse d).testBit pane = true) (hpane : pane < 4)
    (hseen : w.seen ⟨b, head, group, n, tileRecs w b head group n⟩ = none) (hpause : tget s.pwr.pauseT d = none)
    (hp : (s.csm d).paneFence = 0) (ha : (s.csm d).atmFence = 0) :
    Runs (.tileProductDone d pane page blk head group n mismatch issued stall t) s (fun u =>
      if mismatch = true ∨ (s.csm d).injPane.testBit pane = true then u.fget CSM_MISMATCH_COUNT d = min (s.fget CSM_MISMATCH_COUNT d + 1) (2 ^ (CSM_MISMATCH_COUNT).w - 1) ∧ u.fget (CSM_PANE_RETRY_COUNT.nth pane) d = min (s.fget (CSM_PANE_RETRY_COUNT.nth pane) d + 1) (2 ^ ((CSM_PANE_RETRY_COUNT.nth pane)).w - 1) ∧
        u.fget CSM_TILES_COUNT d = s.fget CSM_TILES_COUNT d ∧ Raised u CSM_EVENT_MISMATCH d
      else u.fget CSM_TILES_COUNT d = min (s.fget CSM_TILES_COUNT d + 1) (2 ^ (CSM_TILES_COUNT).w - 1) ∧ u.fget CSM_MISMATCH_COUNT d = s.fget CSM_MISMATCH_COUNT d ∧
        (∃ x, u.sweep? d w.id = some x ∧ ∃ y, y ∈ (if w.selDone then x.blocks else x.summaries) ∧ y.page = page ∧ y.blk = blk ∧
          y.tiles.contains (tileCode head group n) = true)) := by
  refine ⟨_, exec_tileProductDone hrun hb9 hb hexp htile hrecs huse hseen hpause, ?_⟩
  obtain ⟨hmem, hpage, hblk⟩ := Sweep.blk?_mem hb
  have hne : b.blk ≠ 9 := fun e => hb9 (hblk.symm.trans e)
  let x : TileRef := ⟨b, head, group, n, tileRecs w b head group n⟩
  let a := (s.advanceTo t).takeTile d pane w stall
  have hsa : Follows d s a := (s.advanceTo_follows d t).trans ((s.advanceTo t).takeTile_follows pane stall)
  have hreg : ∀ G : Fld, G.blk = .csm → sweepFields.all (·.apart G) = true → a.fget G d = s.fget G d := fun G hG hF => hsa.regs G (.inl hG) hF
  by_cases hmis : mismatch = true ∨ (s.csm d).injPane.testBit pane = true
  · rw [if_pos hmis, if_pos (by simpa using hmis), State.tileMismatch_first a d pane _ _ hseen]
    let v := a.countMismatch d pane
    have hvr : Follows d v ((v.setRetry d w.id x (some (1, pane))).rerunTile d w.id w.ctx x.recs (tileCost w b head group n)) :=
      (v.setRetry_follows d w.id x _).trans (State.rerunTile_follows _ d w.id w.ctx _ _)
    have hpv : (v.csm d).paneFence = 0 := by rw [a.countMismatch_csm, hsa.pane, hp]
    have hav : (v.csm d).atmFence = 0 := by rw [a.countMismatch_csm, hsa.atm, ha]
    rw [State.paneBoundary_idle pane (hvr.pane.trans hpv)]
    have hend := hvr.trans (State.advanceSweep_follows _ d w.id (hvr.pane.trans hpv) (hvr.atm.trans hav))
    obtain ⟨hm, hr, hti, he⟩ := a.countMismatch_fget (d := d) hpane
    obtain ⟨-, -, -, -, -, hfields⟩ := paneRetry_fields pane hpane
    refine ⟨?_, ?_, ?_, ?_⟩
    · rw [hend.regs _ (.inl rfl) (by decide), hm, hreg _ rfl (by decide)]
    · rw [hend.regs (CSM_PANE_RETRY_COUNT.nth pane) (.inl rfl) hfields, hr, hreg _ rfl hfields]
    · rw [hend.regs _ (.inl rfl) (by decide), hti, hreg _ rfl (by decide)]
    · exact ne_of_eq_of_ne (hend.regs _ (.inl rfl) (by decide)) he
  · rw [if_neg hmis, if_neg (by simpa using hmis), State.tileCommit_blk a (x := x) _ _ hne]
    let f := fun y : PlanBlk => { y with tiles := tileCode head group n :: y.tiles }
    let v := a.countTile d w x (tileCost w b head group n) issued
    have hav : SweepsGoOn d a v := a.countTile_goesOn x _ issued
    obtain ⟨hpm, ham⟩ := State.modBlk_fences v d w.id b f
    have hp0 : ((v.modBlk d w.id b f).csm d).paneFence = 0 := by rw [hpm, hav.pane, hsa.pane, hp]
    have ha0 : ((v.modBlk d w.id b f).csm d).atmFence = 0 := by rw [ham, hav.atm, hsa.atm, ha]
    rw [State.paneBoundary_idle pane hp0]
    have hend := State.advanceSweep_follows _ d w.id hp0 ha0
    have hcount : ∀ G : Fld, G.blk = .csm → sweepFields.all (·.apart G) = true →
        ((v.modBlk d w.id b f).advanceSweep d w.id).fget G d = ((a.setRetry d w.id x none).fadd CSM_TILES_COUNT d 1).fget G d :=
      fun G hG hF => (hend.regs G (.inl hG) hF).trans (a.countTile_fget x _ issued hG hF)
    have hretry : ∀ G : Fld, (a.setRetry d w.id x none).fget G d = a.fget G d := fun _ => rfl
    refine ⟨?_, ?_, ?_⟩
    · rw [hcount _ rfl (by decide), State.fget_fadd_self, hretry, hreg _ rfl (by decide)]
    · rw [hcount _ rfl (by decide), State.fget_fadd_other _ _ _ _ _ _ (Fld.key_ne_of_apart _ (by decide) d), hretry, hreg _ rfl (by decide)]
    · obtain ⟨y, hy, c, c', hz⟩ := modBlk_found (hsa.toSweepsGoOn.trans hav) hw hmem hend.toSweepsGoOn
      exact ⟨y, hy, _, hz, hpage, hblk, by simp [f]⟩

/-! ### RECORD_FINALISE (R132) -/

theorem modAt_get (l : List SweepRec) (i : Nat) (f : SweepRec → SweepRec) {r : SweepRec} (h : l[i]? = some r) :
    (modAt l i f)[i]? = some (f r) := by
  obtain ⟨hi, hr⟩ := List.getElem?_eq_some_iff.1 h
  have hlen : i < (modAt l i f).length := by
    unfold modAt numbered
    simpa using hi
  rw [List.getElem?_eq_getElem hlen]
  refine congrArg some ((List.getElem_map _).trans ?_)
  unfold numbered
  rw [List.getElem_zip, List.getElem_range, if_pos rfl, hr]

/-- A sweep with a result still to be delivered is not over. -/
theorem State.sweepOver_idle {i : Nat} {r : SweepRec} (hw : s.sweep? d id = some w) (hr : w.recs[i]? = some r) (hdel : r.delivered = false) :
    s.sweepOver d id = s := by
  have hany : w.recs.any (fun r => !r.delivered) = true :=
    List.any_eq_true.2 ⟨r, List.mem_of_getElem? hr, by rw [hdel]; rfl⟩
  unfold State.sweepOver
  split
  · rfl
  next x hx =>
    cases hw.symm.trans hx
    exact if_pos hany

/-- A record finalised now, before its sweep is looked after: NONFINITE noted, its region's count raised, and its output block sent. -/
def State.sendFinal (s : State) (d : Nat) (r : SweepRec) (k : Nat × Nat × Nat) (addr : Nat) (out : List Byte) (nonfin : Bool) : State :=
  let s := if nonfin then (s.fadd CSM_NONFINITE_COUNT d 1).evtDie CSM_EVENT_NONFINITE d else s
  let s := if r.held.step.kind = 5 ∧ r.held.step.list then
      s.modCsm d (fun c => { c with grads := tmod c.grads r.held.step.extra (fun g => if g.poisoned then g else { g with count := g.count + 1 }) })
    else s
  s.descWrite k addr out

theorem State.sendFinal_goesOn (s : State) (d : Nat) (r : SweepRec) (k : Nat × Nat × Nat) (addr : Nat) (out : List Byte) (nonfin : Bool) :
    SweepsGoOn d s (s.sendFinal d r k addr out nonfin) := by
  unfold State.sendFinal
  extract_lets s1 s2
  have h1 : SweepsGoOn d s s1 := by
    refine .ofCsm ?_
    unfold s1
    split
    · exact State.evtDie_csm (s.fadd CSM_NONFINITE_COUNT d 1) CSM_EVENT_NONFINITE d d
    · rfl
  have h2 : Follows d s1 s2 := .ite (.modCsm _) (.refl s1)
  exact (h1.trans h2.toSweepsGoOn).trans (Follows.ofKeeps (State.descWrite_keeps _ _ _ _)).toSweepsGoOn

theorem State.sendFinal_keeps (s : State) (d : Nat) (r : SweepRec) (k : Nat × Nat × Nat) (addr : Nat) (out : List Byte) (nonfin : Bool) :
    Keeps 0x20008089 s (s.sendFinal d r k addr out nonfin) := by
  unfold State.sendFinal
  extract_lets s1 s2
  have h1 : Keeps 0x20008089 s s1 := .ite ((State.fadd_keeps s _ _ _).mono.trans (State.evtDie_keeps _ _ _)) (.refl s)
  have h2 : Keeps 0x20008089 s1 s2 := .ite (State.modCsm_keeps _ _ _).mono (.refl s1)
  exact (h1.trans h2).trans (State.descWrite_keeps _ _ _ _)

/-- What finalisation writes into the record. -/
def SweepRec.finalise (r : SweepRec) (out : List Byte) (t : Nat) (nonfin empty : Bool) : SweepRec :=
  { r with
    finalised := true, output := out, outMsg := none, delivered := false, tFin := some t
    flags := Nat.lor r.flags (nonfin.toNat + 4 * empty.toNat) }

theorem State.sendOutput_ring (s : State) (d sweep i : Nat) {h : Held} {f sq k output addr : Nat} (out : List Byte)
    (hsrc : h.src = .ring f sq k output addr) : s.sendOutput d sweep i h out = (none, false, s.descWrite (f, sq, k) output out) := by
  unfold State.sendOutput
  rw [hsrc]

theorem exec_recordFinalise {sweep i t f sq k output addr : Nat} {r : SweepRec} {out : List Byte} {nonfin empty : Bool}
    (hw : s.sweep? d sweep = some w) (hr : w.recs[i]? = some r)
    (hlive : r.live = true) (hfin : r.finalised = false) (hstart : w.started = true) (hmay : w.mayFinalise i = true)
    (hsrc : r.held.src = .ring f sq k output addr) (hout : outBlock w.shape r.held.step r.rows r.sel = (out, nonfin, empty)) :
    exec (.recordFinalise d sweep i false t) s =
      .next (((((((s.advanceTo t).sendFinal d r (f, sq, k) output out nonfin).modRec d sweep i
        (fun y => y.finalise out ((s.advanceTo t).sendFinal d r (f, sq, k) output out nonfin).clk.tNs nonfin empty)).lastTile d sweep).sweepOver d
          sweep).gradSettle d).settleFences d) := by
  have hw' : (s.advanceTo t).sweep? d sweep = some w := (State.sweep?_congr (by rw [State.advanceTo_csm]) sweep).trans hw
  show execRecordFinalise d sweep i false t s = _
  unfold execRecordFinalise
  simp only [hw', hr, hlive, hfin, hstart, hmay, hout, State.sendOutput_ring _ _ _ _ _ hsrc]
  rw [if_neg (by decide), if_neg Bool.false_ne_true]
  rfl

theorem recordFinalise_finalises {sweep i t f sq k output addr : Nat} {r : SweepRec} (hw : s.sweep? d sweep = some w)
    (hr : w.recs[i]? = some r) (hlive : r.live = true) (hfin : r.finalised = false) (hstart : w.started = true)
    (hmay : w.mayFinalise i = true) (hsrc : r.held.src = .ring f sq k output addr) (hp : (s.csm d).paneFence = 0)
    (ha : (s.csm d).atmFence = 0) :
    Runs (.recordFinalise d sweep i false t) s (fun u =>
      u.clk.tNs = max s.clk.tNs t ∧ (∃ x, u.sweep? d sweep = some x ∧ ∃ y, x.recs[i]? = some y ∧ y.finalised = true ∧
        y.output = (outBlock w.shape r.held.step r.rows r.sel).1)) := by
  rcases hout : outBlock w.shape r.held.step r.rows r.sel with ⟨out, nonfin, empty⟩
  let a := s.advanceTo t
  let v := a.sendFinal d r (f, sq, k) output out nonfin
  let m := v.modRec d sweep i (fun r => r.finalise out v.clk.tNs nonfin empty)
  have hsv : SweepsGoOn d s v := (s.advanceTo_follows d t).toSweepsGoOn.trans (State.sendFinal_goesOn a d r _ _ _ _)
  obtain ⟨x, hx, hon⟩ := hsv.sweeps sweep w hw
  obtain ⟨y, hy, -⟩ := recsKept_get hon.recs hr
  let z := y.finalise out v.clk.tNs nonfin empty
  have hm : m.sweep? d sweep = some { x with recs := modAt x.recs i (fun r => r.finalise out v.clk.tNs nonfin empty) } :=
    State.sweep?_modSweep_self (fun _ h => h) hx
  have hz : (modAt x.recs i (fun r => r.finalise out v.clk.tNs nonfin empty))[i]? = some z := modAt_get _ _ _ hy
  obtain ⟨e, te, hlast⟩ := State.sweep?_lastTile m d sweep hm
  have hover : (m.lastTile d sweep).sweepOver d sweep = m.lastTile d sweep := State.sweepOver_idle hlast hz rfl
  have hlastF := State.lastTile_follows m d sweep
  have hsettle := State.gradSettle_follows (m.lastTile d sweep) d
  have hmcsm : (m.csm d).paneFence = (v.csm d).paneFence ∧ (m.csm d).atmFence = (v.csm d).atmFence := by
    show ((State.modSweep v d sweep _).csm d).paneFence = _ ∧ ((State.modSweep v d sweep _).csm d).atmFence = _
    rw [State.modSweep_csm]
    exact ⟨rfl, rfl⟩
  have hp0 : (((m.lastTile d sweep).gradSettle d).csm d).paneFence = 0 := by
    rw [hsettle.pane, hlastF.pane, hmcsm.1, hsv.pane, hp]
  have ha0 : (((m.lastTile d sweep).gradSettle d).csm d).atmFence = 0 := by
    rw [hsettle.atm, hlastF.atm, hmcsm.2, hsv.atm, ha]
  have hstep := exec_recordFinalise (t := t) hw hr hlive hfin hstart hmay hsrc hout
  rw [hover, State.settleFences_idle _ d hp0 ha0] at hstep
  refine ⟨_, hstep, ?_, ?_⟩
  · have hk : Keeps 0x244081E9 a ((m.lastTile d sweep).gradSettle d) :=
      (((State.sendFinal_keeps a d r _ _ _ _).mono.trans (State.modRec_keeps _ _ _ _ _)).trans (State.lastTile_keeps _ _ _)).trans
        (State.gradSettle_keeps _ _)
    exact (congrArg Clock.tNs (hk.same .clk (by decide))).trans (s.advanceTo_tNs t)
  · obtain ⟨x', hx', hon'⟩ := hsettle.sweeps sweep _ hlast
    obtain ⟨z', hz', hfin', -, hout'⟩ := recsKept_get hon'.recs hz
    exact ⟨x', hx', z', hz', hfin', hout'⟩

/-! ### RESULT_DELIVERED (R49 to R51) -/

/-- A write of host memory by a descriptor whose function was not lost goes out (R339). -/
theorem State.descWrite_sends (s : State) {f sq k addr : Nat} {o : Outst} (l : List Byte)
    (ho : (s.part (fnPart f)).outst.find? (fun o => o.of f sq k) = some o) (hgen : o.gen = (s.fn f).gen) (hready : s.ready f = true) :
    s.descWrite (f, sq, k) addr l = s.hostWrite f addr l := by
  unfold State.descWrite
  simp only [ho]
  exact if_pos ⟨hgen, hready⟩

theorem State.hostWrite_emits (s : State) (f addr : Nat) (l : List Byte) : Emits s (s.hostWrite f addr l) (.hostWrite f addr l) := by
  obtain ⟨m, hm⟩ := (State.tlp_keeps s f 6 l.length).sent
  refine ⟨m ++ [.hostWrite f addr l], ?_, List.mem_append_right _ (List.mem_singleton.2 rfl)⟩
  rw [← List.append_assoc, ← hm]
  rfl

theorem Emits.trans_keeps {m : Nat} {e : Emit} (h : Emits s t e) (k : Keeps m t u) : Emits s u e := by
  obtain ⟨l, hl, he⟩ := h
  obtain ⟨l', hl'⟩ := k.sent
  exact ⟨l ++ l', by rw [hl', hl, List.append_assoc], List.mem_append_left _ he⟩

theorem Emits.of_out {e : Emit} (hs : t.out = s.out) (h : Emits t u e) : Emits s u e := by
  obtain ⟨l, hl, he⟩ := h
  exact ⟨l, by rw [hl, hs], he⟩

/-- The delivery of a record that came through a ring begins with its status entry. -/
theorem State.deliverRec_ring {i f sq k output addr : Nat} {r : SweepRec} (hw : s.sweep? d id = some w) (hr : w.recs[i]? = some r)
    (hdel : r.delivered = false) (hdone : r.live = false ∨ r.finalised = true) (happ : r.appWait = false) (hbad : r.outBad = false)
    (hturn : w.turn i = true) (hsrc : r.held.src = .ring f sq k output addr) :
    Keeps 0x426E0ABE9 (s.descWrite (f, sq, k) addr (resultOf d w r s.clk.tNs).2.2.2) (s.deliverRec d id i) := by
  have hgo : ¬(r.delivered || (r.live && !r.finalised) || r.appWait || !w.turn i) = true := by
    rw [hdel, happ, hturn]
    rcases hdone with h | h <;> simp [h]
  unfold State.deliverRec
  split
  next hno => cases hw.symm.trans hno
  next w0 hw0 =>
  cases hw.symm.trans hw0
  split
  next hno => cases hr.symm.trans hno
  next r0 hr0 =>
  cases hr.symm.trans hr0
  rw [if_neg hgo, hbad, if_neg Bool.false_ne_true]
  split
  next st lat fl entry hres =>
  rw [hres]
  extract_lets s1 n0 s2 n1 s3 s4
  have h1 : Keeps 0x4408069 (s.descWrite (f, sq, k) addr entry) s1 := by
    show Keeps _ _ (s.sendStatus d r.held r.outMsg st lat entry)
    unfold State.sendStatus
    rw [hsrc]
    exact State.completeKey_keeps _ _ _ _ _
  have h2 : Keeps 0x4008008 s1 s2 := State.noteResult_keeps _ _ _ _ _ _ _ _
  have h3 : Keeps 0x80 s2 s3 := State.modSweep_keeps _ _ _ _
  have h4 : Keeps 0x2000000 s3 s4 := .ite (State.fadd_keeps s3 RAS_RECOVERED_COUNT 0 1).mono (.refl s3)
  have h5 : Keeps 0x24E081E9 s4 (((s4.lastTile d id).sweepOver d id).gradSettle d) :=
    ((State.lastTile_keeps s4 d id).mono.trans (State.sweepOver_keeps _ _ _)).trans (State.gradSettle_keeps _ _)
  exact (((h1.mono.trans h2).trans h3).trans h4).trans h5

theorem resultDelivered_writes {sweep i t f sq k output addr : Nat} {r : SweepRec} {o : Outst} (hw : s.sweep? d sweep = some w)
    (hr : w.recs[i]? = some r) (hdel : r.delivered = false) (hdone : r.live = false ∨ r.finalised = true) (happ : r.appWait = false)
    (hbad : r.outBad = false) (hturn : w.turn i = true) (hsrc : r.held.src = .ring f sq k output addr)
    (ho : (s.part (fnPart f)).outst.find? (fun o => o.of f sq k) = some o) (hgen : o.gen = (s.fn f).gen) (hready : s.ready f = true) :
    Runs (.resultDelivered d sweep i t) s (fun u =>
      u.clk.tNs = max s.clk.tNs t ∧ Emits s u (.hostWrite f addr (resultOf d w r (max s.clk.tNs t)).2.2.2)) := by
  let a := s.advanceTo t
  have hclk : a.clk.tNs = max s.clk.tNs t := s.advanceTo_tNs t
  have hk : Keeps 0x200010 s a := s.advanceTo_keeps t
  have hw' : a.sweep? d sweep = some w := (State.sweep?_congr (by rw [State.advanceTo_csm]) sweep).trans hw
  have hdel' := State.deliverRec_ring hw' hr hdel hdone happ hbad hturn hsrc
  have hfn : a.fn f = s.fn f := by
    unfold State.fn
    rw [hk.same .fns (by decide)]
  have hready' : a.ready f = true := by
    unfold State.ready State.fbit at hready ⊢
    rwa [hk.fget (b := .hrg) (by decide) rfl]
  rw [State.descWrite_sends a _ (by rwa [State.advanceTo_part]) (hgen.trans (by rw [hfn])) hready', hclk] at hdel'
  have hrest : Keeps 0x7FFFFFBFEF (a.hostWrite f addr (resultOf d w r (max s.clk.tNs t)).2.2.2) ((a.deliverRec d sweep i).settleFences d) :=
    hdel'.mono.trans (State.settleFences_keeps _ _)
  refine ⟨_, rfl, ?_, ?_⟩
  · exact (congrArg Clock.tNs (hrest.same .clk (by decide))).trans
      ((congrArg Clock.tNs ((State.hostWrite_keeps a f addr _).same .clk (by decide))).trans hclk)
  · exact .of_out (State.advanceTo_out t) ((a.hostWrite_emits f addr _).trans_keeps hrest)

end

/-- Settles O7: each step marks its block or record, and whatever the stage then allows keeps the mark; no fence waits, so none comes between. -/
theorem sweepStepsMoveTheSweep : Obligations.SweepStepsMoveTheSweep :=
  ⟨fun _ _ _ _ => sweepStart_starts,
   fun _ _ _ _ => planComplete_plans,
   fun _ _ _ _ _ _ _ => blockFetchDone_fetches,
   fun _ _ _ _ _ _ _ _ _ => blockExpandDone_expands,
   fun _ _ _ _ _ _ _ _ _ _ _ _ _ _ => tileProductDone_counts,
   fun _ _ _ _ _ _ _ _ _ _ _ _ => recordFinalise_finalises,
   fun _ _ _ _ _ _ _ _ _ _ _ _ _ hw hr hdel hdone happ hbad hturn hsrc ho hgen hready _ _ =>
    resultDelivered_writes hw hr hdel hdone happ hbad hturn hsrc ho hgen hready⟩

end Sys2Proof.Machine
end

section
/-!
A SEQ_CLASS that an earlier edit of its sequence, accepted and not begun, holds back (R82, R223 to R225).
-/
namespace Sys2Proof.Machine
set_option Elab.async false

/-- The command of an edit does nothing while an earlier edit of its sequences has not begun (R82). -/
theorem runSeqEdit_waits {s : State} {q : Desc} {qs : List Nat} (op body0 : Nat) (go : State → State) (h : s.editWait q qs = true) :
    runSeqEdit q op body0 qs s go = s := if_pos h

/-- Nothing goes out in a step that changes nothing, a completion as little as anything else. -/
theorem not_posts_self (s : State) (q : Desc) (op status r0 r1 : Nat) : ¬ Posts s s q op status r0 r1 := by
  rintro ⟨slot, ph, c, ⟨l, hl, hmem⟩, -⟩
  rw [List.self_eq_append_right.1 hl] at hmem
  exact absurd hmem List.not_mem_nil

/-- A MAP_APPEND (opcode 0x21) to sequence 1 at index 5 of SQ 1 of function 0, accepted and not begun. -/
def waitingAppend : Outst :=
  { fn := 0, sq := 1, index := 5, tag := 3, op := 0x21, body0 := 1, tick := 0, order := false, intr := false, started := false,
    adopted := false, gen := 0, accT := 0 }

/-- Partition 0 with the volatile sequence 1 of context 5 on die 0, and the append to it outstanding. -/
def appendWaits : State := (seqSt [] (onePfx tslot)).modPart 0 (fun v => { v with outst := [waitingAppend] })

theorem appendWaits_open : Open td appendWaits := by
  unfold Open
  decide +kernel

theorem appendWaits_live : Live td appendWaits := by
  unfold Live
  decide +kernel

/-- The premises on the sequence and its die hold. -/
theorem appendWaits_seq : appendWaits.seqDie? td.part 1 = some 0 ∧ appendWaits.seqSlot? 0 1 = some (homeSlot 20 1, tslot) ∧
    tslot.ctx = 5 ∧ appendWaits.dieDown 0 = false ∧ tslot.parked = false ∧ (appendWaits.pfx 0).edits = [] := by
  decide +kernel

theorem appendWaits_editWait : appendWaits.editWait td [1] = true := by
  decide +kernel

/-- Refutes O10: no premise of SEQ_CLASS excludes an earlier edit of its sequence that is accepted and has not begun. Edits are applied
in the order of acceptance (R82), so behind such a MAP_APPEND the SEQ_CLASS does nothing yet, and no completion goes out. -/
theorem not_quotasPinsAndClasses : ¬ Obligations.QuotasPinsAndClasses := by
  unfold Obligations.QuotasPinsAndClasses
  rintro ⟨hclass, -⟩
  obtain ⟨hdie, hslot, hctx, hdown, hparked, hedits⟩ := appendWaits_seq
  obtain ⟨u, hu, hposts, -⟩ :=
    hclass appendWaits td 1 5 0 (homeSlot 20 1) tslot appendWaits_open appendWaits_live hdie hslot hctx hdown hparked hedits
  have hwaits : exec (.seqClass td 1 5 false) appendWaits = .next appendWaits :=
    congrArg Host.Outcome.next (runSeqEdit_waits _ _ _ appendWaits_editWait)
  obtain rfl : appendWaits = u := Host.Outcome.next.inj (hwaits.symm.trans hu)
  exact not_posts_self _ _ _ _ _ _ hposts

end Sys2Proof.Machine
end

section
/-!
What a descriptor that begins leaves as it is in the tables of its die, descriptors about a sequence or a context past their checks, and
the part of the page records that an operation keeps (R217, R418).
-/
namespace Sys2Proof.Machine
set_option Elab.async false

section
variable (s : State) (q : Desc) (op b : Nat)

@[simp] theorem State.begin_stgs : (s.begin q op b).stgs = s.stgs := (s.begin_keeps q op b).same .stgs (by decide)
@[simp] theorem State.begin_nrts : (s.begin q op b).nrts = s.nrts := (s.begin_keeps q op b).same .nrts (by decide)

@[simp] theorem State.begin_stg (d : Nat) : (s.begin q op b).stg d = s.stg d := by
  unfold State.stg
  rw [State.begin_stgs]

@[simp] theorem State.begin_nrt (d : Nat) : (s.begin q op b).nrt d = s.nrt d := by
  unfold State.nrt
  rw [State.begin_nrts]

@[simp] theorem State.begin_peer? (d i : Nat) : (s.begin q op b).peer? d i = s.peer? d i := by
  unfold State.peer?
  rw [State.begin_nrt]

@[simp] theorem State.begin_nrtReady (d : Nat) : (s.begin q op b).nrtReady d = s.nrtReady d := by
  unfold State.nrtReady State.fbit
  rw [State.fget_begin_of_blk _ _ _ _ _ (by decide), State.fget_begin_of_blk _ _ _ _ _ (by decide)]

@[simp] theorem State.begin_page? (d id : Nat) : (s.begin q op b).page? d id = s.page? d id := by
  unfold State.page?
  rw [State.begin_pfx]

@[simp] theorem State.begin_chunk? (d id : Nat) : (s.begin q op b).chunk? d id = s.chunk? d id := by
  unfold State.chunk?
  rw [State.begin_pfx]

@[simp] theorem State.begin_seqDie? (p n : Nat) : (s.begin q op b).seqDie? p n = s.seqDie? p n := by
  unfold State.seqDie?
  simp only [State.begin_diesOf, State.begin_seqSlot?]

@[simp] theorem State.begin_tickOf (d : Nat) : (s.begin q op b).tickOf d = s.tickOf d := by
  unfold State.tickOf State.tickNo State.periodNs
  simp only [State.begin_owner, State.begin_clk, State.begin_partsAgree (f := Part.perN) (fun _ _ => rfl) s q op b _]

@[simp] theorem State.begin_mainBuckets (d : Nat) : (s.begin q op b).mainBuckets d = s.mainBuckets d := by
  unfold State.mainBuckets
  rw [State.fget_begin_of_blk _ _ _ _ _ (by decide)]

@[simp] theorem State.begin_bucketChain (d k n : Nat) : (s.begin q op b).bucketChain d k n = s.bucketChain d k n := by
  induction n generalizing k with
  | zero => rfl
  | succ n ih =>
    unfold State.bucketChain State.ovfIdx
    simp only [State.begin_pfx, State.begin_mainBuckets, ih]

@[simp] theorem State.begin_treeFind (d h : Nat) : (s.begin q op b).treeFind d h = s.treeFind d h := by
  unfold State.treeFind State.chainOf
  simp only [State.begin_pfx, State.begin_mainBuckets, State.begin_bucketChain]

@[simp] theorem State.begin_away (d : Nat) (l : List Nat) : (s.begin q op b).away d l = s.away d l := by
  unfold State.away
  simp only [State.begin_page?]

@[simp] theorem State.begin_rangePages (d n l1 l2 p1 p2 : Nat) :
    (s.begin q op b).rangePages d n l1 l2 p1 p2 = s.rangePages d n l1 l2 p1 p2 := by
  unfold State.rangePages
  simp only [State.begin_seqSlot?, State.begin_chunk?]

@[simp] theorem State.begin_exportImage (d : Nat) (c : Ctx) (ch : Chunk) :
    (s.begin q op b).exportImage d c ch = s.exportImage d c ch := by
  unfold State.exportImage
  simp only [State.begin_page?, State.begin_chunk?]

end

section
variable {s : State} {q : Desc}

theorem ofSeq_go {seq ctx k j : Nat} {e : SeqSlot} (go : Nat → SeqSlot → State) (hk : s.seqDie? q.part seq = some k)
    (he : s.seqSlot? k seq = some (j, e)) (hc : e.ctx = ctx) (hd : s.dieDown k = false) : ofSeq q seq ctx s go = go k e := by
  unfold ofSeq
  simp only [hk, he, hc, hd, ne_eq, not_true_eq_false, if_false, Bool.false_eq_true]

theorem ofCtx_go {ctx : Nat} {c : Ctx} (go : Ctx → State) (hc : s.ctx? q.part ctx = some c) (hd : s.dieDown c.home = false) :
    ofCtx q ctx s go = go c := by
  unfold ofCtx
  simp only [hc, hd, if_false, Bool.false_eq_true]

/-- A descriptor about a sequence that is begun and past the checks runs its own rules. -/
theorem runDesc_ofSeq {seq ctx k j : Nat} {e : SeqSlot} (op b : Nat) (go : State → Nat → SeqSlot → State) (ho : Open q s)
    (hk : s.seqDie? q.part seq = some k) (he : s.seqSlot? k seq = some (j, e)) (hc : e.ctx = ctx) (hd : s.dieDown k = false) :
    runDesc q op b s (fun s => ofSeq q seq ctx s (go s)) = go (s.begin q op b) k e :=
  (runDesc_open s q op b _ ho).trans (ofSeq_go _ (by rwa [State.begin_seqDie?]) (by rwa [State.begin_seqSlot?]) hc (by rwa [State.begin_dieDown]))

theorem runDesc_ofCtx {ctx : Nat} {c : Ctx} (op b : Nat) (go : State → Ctx → State) (ho : Open q s) (hc : s.ctx? q.part ctx = some c)
    (hd : s.dieDown c.home = false) : runDesc q op b s (fun s => ofCtx q ctx s (go s)) = go (s.begin q op b) c :=
  (runDesc_open s q op b _ ho).trans (ofCtx_go _ (by rwa [State.begin_ctx?]) (by rwa [State.begin_dieDown]))

end

/-! ### A part of the page records that stays -/

/-- `f` of every page record of die `d` is as before. -/
def PagesAgree {α : Type} (f : Page → α) (d : Nat) (s t : State) : Prop := ∀ id, (t.page? d id).map f = (s.page? d id).map f

section
variable {α : Type} {f : Page → α} {d : Nat} {s t u : State}

theorem PagesAgree.refl (s : State) : PagesAgree f d s s := fun _ => rfl

theorem PagesAgree.trans (h : PagesAgree f d s t) (k : PagesAgree f d t u) : PagesAgree f d s u := fun id => (k id).trans (h id)

theorem PagesAgree.ofPages (h : (t.pfx d).pages = (s.pfx d).pages) : PagesAgree f d s t := fun id => by
  unfold State.page?
  rw [h]

theorem PagesAgree.ofKeeps {m : Nat} (h : Keeps m s t) (hm : m.testBit 8 = false := by decide) : PagesAgree f d s t :=
  .ofPages (by unfold State.pfx; rw [h.same .pfxs hm])

theorem PagesAgree.ite {p : Prop} [Decidable p] (h : PagesAgree f d s t) (k : PagesAgree f d s u) :
    PagesAgree f d s (if p then t else u) := by
  split <;> assumption

theorem PagesAgree.foldl {β : Type} {g : State → β → State} (h : ∀ u x, PagesAgree f d u (g u x)) (l : List β) (s : State) :
    PagesAgree f d s (l.foldl g s) := by
  induction l generalizing s with
  | nil => exact .refl s
  | cons x l ih => exact (h s x).trans (ih _)

/-- A change of the die's tables other than its page records. -/
theorem PagesAgree.modPfx (s : State) (g : Pfx → Pfx) (hg : ∀ x, (g x).pages = x.pages := by exact fun _ => rfl) :
    PagesAgree f d s (s.modPfx d g) := .ofPages (by rw [State.modPfx_pfx_self, hg])

/-- A change of a page record outside `f`. -/
theorem PagesAgree.modPage (s : State) (id : Nat) (g : Page → Page) (hg : ∀ p, f (g p) = f p := by exact fun _ => rfl) :
    PagesAgree f d s (s.modPage d id g) := fun j => by
  by_cases e : id = j
  · subst e
    cases h : s.page? d id with
    | none =>
      have hnone : (s.modPage d id g).page? d id = none := by
        unfold State.page? State.modPage at *
        rw [State.modPfx_pfx_self]
        unfold tmod
        rw [h]
        exact h
      rw [hnone]
    | some p =>
      rw [State.page?_modPage_self g h]
      exact congrArg some (hg p)
  · rw [s.page?_modPage_other g e]

theorem PagesAgree.some {id : Nat} {p : Page} (h : PagesAgree f d s t) (hp : s.page? d id = some p) : (t.page? d id).map f = some (f p) := by
  rw [h id, hp]
  rfl

end
end Sys2Proof.Machine
end

section
/-!
PREFETCH: a hint withdrawn, and a hint whose pages are all resident (R239, R240, R242, R243).
-/
namespace Sys2Proof.Machine
set_option Elab.async false

section
variable {s : State} {q : Desc} {h : HintBody} {k j : Nat} {e : SeqSlot}

/-- The unmet hints of a die are those put in their place. -/
theorem State.setUnmet_unmet (s : State) (d : Nat) {l : List Hint} (hl : ∀ g ∈ l, g.met = false) : ((s.setUnmet d l).stg d).unmet = l := by
  have hstg : (s.setUnmet d l).stg d = { s.stg d with hints := (s.stg d).hints.filter (·.met) ++ l } := by
    unfold State.setUnmet State.hintCount
    rw [State.fsat_stg, State.modStg_stg_self]
  have hmet : ((s.stg d).hints.filter (·.met)).filter (fun h => !h.met) = [] := by simp
  rw [hstg]
  unfold Staging.unmet
  dsimp only
  rw [List.filter_append, hmet, List.nil_append, List.filter_eq_self]
  intro g hg
  rw [hl g hg]
  rfl

theorem Staging.met_of_mem_unmet {x : Staging} {g : Hint} (h : g ∈ x.unmet) : g.met = false := by
  simpa using (List.mem_filter.1 h).2

/-- An unmet hint withdrawn, and what it held looked at again (R242). -/
def State.withdrawHint (s : State) (d : Nat) (x : Hint) : State := (s.setUnmet d ((s.stg d).unmet.erase x)).rehold d x.pages

theorem State.withdrawHint_unmet (s : State) (d : Nat) (x : Hint) : ((s.withdrawHint d x).stg d).unmet = (s.stg d).unmet.erase x := by
  unfold State.withdrawHint State.stg
  rw [(State.rehold_keeps _ _ _).same .stgs (by decide)]
  exact s.setUnmet_unmet d fun g hg => Staging.met_of_mem_unmet (List.mem_of_mem_erase hg)

theorem State.withdrawHint_keeps (s : State) (d : Nat) (x : Hint) : Keeps 0x100000300 s (s.withdrawHint d x) :=
  (State.setUnmet_keeps s d _).mono.trans (State.rehold_keeps _ _ _)

/-- The word of a PREFETCH that its outstanding entry carries. -/
def HintBody.word (h : HintBody) : Nat := h.seq + h.ctx * 2 ^ 32 + h.unpark.toNat * 2 ^ 48 + h.asap.toNat * 2 ^ 49

theorem prefetch_withdraws {x : Hint} (ho : Open q s) (hl : Live q s) (hk : s.seqDie? q.part h.seq = some k)
    (he : s.seqSlot? k h.seq = some (j, e)) (hc : e.ctx = h.ctx) (hd : s.dieDown k = false) (h0 : h.deadline = 0)
    (hx : (s.stg k).unmet.find? (fun x => x.tag == h.tag && x.seq == h.seq) = some x) :
    Runs (.prefetch q h) s (fun u => Posts s u q 0x44 stOK 0 0 ∧ (u.stg k).unmet = (s.stg k).unmet.erase x) := by
  let a := s.begin q 0x44 h.word
  have hrun : exec (.prefetch q h) s = .next ((a.withdrawHint k x).complete q stOK 0 0) := by
    refine congrArg Host.Outcome.next ((runDesc_ofSeq 0x44 h.word _ ho hk he hc hd).trans ?_)
    simp only [h0, if_true, State.begin_stg, hx]
    unfold State.withdrawHint
    rw [State.begin_stg]
  have hkeeps := a.withdrawHint_keeps k x
  refine ⟨_, hrun, posts_after hl hkeeps (.ofKeeps hkeeps) _ _ _, ?_⟩
  unfold State.stg
  rw [(State.complete_keeps _ _ _ _ _).same .stgs (by decide)]
  exact (a.withdrawHint_unmet k x).trans (by rw [s.begin_stg]; rfl)

/-- Every page of a list that has a record is resident. -/
def State.AllResident (s : State) (d : Nat) (l : List Nat) : Prop := ∀ id ∈ l, ∀ p, s.page? d id = some p → p.place.hbm = true

theorem State.allResident_of_away {d : Nat} {l : List Nat} (h : s.away d l = []) : s.AllResident d l := by
  intro id hid p hp
  have := List.filter_eq_nil_iff.1 h id hid
  simpa [hp] using this

theorem State.AllResident.of_agree {t : State} {d : Nat} {l : List Nat} (h : s.AllResident d l)
    (k : PagesAgree (fun p => p.place.hbm) d s t) : t.AllResident d l := by
  intro id hid p hp
  have hs := k id
  rw [hp, Option.map_some] at hs
  obtain ⟨p', hp', he⟩ := Option.map_eq_some_iff.1 hs.symm
  exact he.symm.trans (h id hid p' hp')

/-- No staging task begins for pages that are all resident (R237). -/
theorem State.stageAll_resident {d prio : Nat} {l : List Nat} (h : s.AllResident d l) :
    l.foldl (fun s id => s.stageIn d id prio) s = s := by
  induction l with
  | nil => rfl
  | cons id l ih =>
    have hid : s.stageIn d id prio = s := by
      unfold State.stageIn
      split
      · rfl
      next p hp =>
        rw [h id List.mem_cons_self p hp]
        rfl
    rw [List.foldl_cons, hid]
    exact ih fun i hi => h i (List.mem_cons_of_mem _ hi)

theorem State.rehold_pagesAgree {α : Type} {f : Page → α} (s : State) (d : Nat) (l : List Nat)
    (hf : ∀ p b, f { p with place := { p.place with held := b } } = f p) : PagesAgree f d s (s.rehold d l) :=
  .foldl (fun u id => .modPage u id _ fun p => hf p _) l s

/-- An accepted hint in its place and counted, its pages held (R242). -/
def State.listHint (s : State) (d i : Nat) (x : Hint) : State :=
  ((s.setUnmet d (insAt i x (s.stg d).unmet)).rehold d x.pages).fadd STG_HINTS_OK_COUNT d 1

theorem State.listHint_keeps (s : State) (d i : Nat) (x : Hint) : Keeps 0x100000300 s (s.listHint d i x) :=
  ((State.setUnmet_keeps s d _).mono.trans (State.rehold_keeps _ _ _)).trans (State.fadd_keeps _ _ _ _)

theorem State.acceptHint_resident {d : Nat} (i : Nat) {x : Hint} (h : s.AllResident d x.pages) : s.acceptHint d i x = s.listHint d i x := by
  refine State.stageAll_resident (s := s.listHint d i x) (h.of_agree ?_)
  have hset : PagesAgree (fun p => p.place.hbm) d s (s.setUnmet d (insAt i x (s.stg d).unmet)) := .ofKeeps (State.setUnmet_keeps _ _ _)
  exact (hset.trans (State.rehold_pagesAgree _ d _ fun _ _ => rfl)).trans (.ofKeeps (State.fadd_keeps _ _ _ _))

/-- The hint that a PREFETCH whose pages are all resident becomes: with ASAP its deadline is now (R240). -/
def State.hintNow (s : State) (q : Desc) (k : Nat) (h : HintBody) : Hint :=
  { seq := h.seq, ctx := h.ctx, tag := h.tag, deadline := if h.asap then s.tickOf k else h.deadline, unpark := h.unpark,
    pages := s.rangePages k h.seq h.layerFirst h.layers h.posFirst h.posCount, met := false, missed := false, release := 0,
    accTick := s.tickOf k, port := q.port, hold := s.inForce STG_HINT_HOLD k }

theorem State.fitsHbm_nil (s : State) (d : Nat) : s.fitsHbm d [] = true := rfl

/-- What goes out with a completion is not taken back. -/
theorem Posts.trans_keeps {t u : State} {op st r0 r1 m : Nat} (h : Posts s t q op st r0 r1) (k : Keeps m t u) : Posts s u q op st r0 r1 := by
  obtain ⟨slot, ph, c, hem, hc⟩ := h
  exact ⟨slot, ph, c, hem.trans_keeps k, hc⟩

theorem prefetch_resident (ho : Open q s) (hl : Live q s) (hk : s.seqDie? q.part h.seq = some k)
    (he : s.seqSlot? k h.seq = some (j, e)) (hc : e.ctx = h.ctx) (hd : s.dieDown k = false) (h0 : h.deadline ≠ 0)
    (hlay : h.layerFirst + h.layers ≤ e.tail.layers.length)
    (hpos : h.posFirst + h.posCount ≤ maxOf ((e.lens.drop h.layerFirst).take h.layers))
    (haway : s.away k (s.rangePages k h.seq h.layerFirst h.layers h.posFirst h.posCount) = [])
    (hroom : (s.stg k).unmet.length < 4096) :
    Runs (.prefetch q h) s (fun u => Posts s u q 0x44 stOK (s.tickOf k) 0) := by
  let a := s.begin q 0x44 h.word
  let x := a.hintNow q k h
  let i := (((a.stg k).unmet).filter (fun g => decide (g.deadline ≤ x.deadline))).length
  have hpages : x.pages = s.rangePages k h.seq h.layerFirst h.layers h.posFirst h.posCount := by
    show State.rangePages a k _ _ _ _ _ = _
    rw [State.begin_rangePages]
  have hrun : exec (.prefetch q h) s = .next (((a.acceptHint k i x).complete q stOK (a.tickOf k) 0).meetHints k [x]) := by
    refine congrArg Host.Outcome.next ((runDesc_ofSeq 0x44 h.word _ ho hk he hc hd).trans ?_)
    have hmiss : a.away k (a.rangePages k h.seq h.layerFirst h.layers h.posFirst h.posCount) = [] := by
      rw [State.begin_rangePages, State.begin_away, haway]
    have hroom' : ¬4096 ≤ (a.stg k).unmet.length := by
      rw [State.begin_stg]
      omega
    dsimp only
    rw [if_neg h0, if_neg (by omega), hmiss, State.fitsHbm_nil, if_neg (by decide), if_neg hroom', List.isEmpty_nil, if_pos rfl]
    cases hasap : h.asap <;> simp only [i, x, State.hintNow, hasap, Bool.false_eq_true, if_true, if_false] <;> rfl
  have hres : a.AllResident k x.pages := by
    rw [hpages]
    refine State.allResident_of_away ?_
    rwa [State.begin_away]
  rw [State.acceptHint_resident i hres, State.begin_tickOf] at hrun
  have hkeeps := a.listHint_keeps k i x
  exact ⟨_, hrun, (posts_after hl hkeeps (.ofKeeps hkeeps) _ _ _).trans_keeps (State.meetHints_keeps _ _ _)⟩

end
end Sys2Proof.Machine
end

section
/-!
CHUNK_EXPORT to a die and CHUNK_IMPORT (R247 to R251).
-/
namespace Sys2Proof.Machine
set_option Elab.async false

/-! ### CHUNK_EXPORT to a die (R247 to R249) -/

section
variable {s : State} {q : Desc} {ctx : Nat} {c : Ctx}

/-- The image of a chunk taken to a die of the partition: its segments there, counted (R249). -/
def State.exportTo (s : State) (k t id ctx n bytes : Nat) : State :=
  ((s.takeSegs t n).2.fadd STG_EXPORTS_COUNT k 1).modStg k (fun x =>
    { x with loose := x.loose ++ [⟨1, t, 0, (s.takeSegs t n).1.headD 0 * 4096, bytes, id, ctx, (s.takeSegs t n).1⟩] })

theorem State.exportTo_keeps (s : State) (k t id ctx n bytes : Nat) : Keeps 0x100000302 s (s.exportTo k t id ctx n bytes) :=
  ((State.takeSegs_keeps s t n).get.mono.trans (State.fadd_keeps _ _ _ _)).trans (State.modStg_keeps _ _ _)

theorem State.exportTo_count (s : State) (k t id ctx n bytes : Nat) :
    (s.exportTo k t id ctx n bytes).fget STG_EXPORTS_COUNT k = min (s.fget STG_EXPORTS_COUNT k + 1) (2 ^ STG_EXPORTS_COUNT.w - 1) := by
  unfold State.exportTo
  rw [State.modStg_fget, State.fget_fadd_self, (State.takeSegs_keeps s t n).get.fget (b := .stg) (by decide) rfl]

theorem chunkExport_exports {t key chain off room id : Nat} {x : Nat × TreeEnt} {ch : Chunk} (ho : Open q s) (hl : Live q s)
    (hc : s.ctx? q.part ctx = some c) (hd : s.dieDown c.home = false) (hx : s.treeFind c.home chain = some x) (hid : x.2.chunk = id)
    (hch : s.chunk? c.home id = some ch)
    (hgood : (ch.pages.all (fun p => match s.page? c.home p with | some y => y.place.hbm && y.st == .sealed | none => false) = true))
    (hroom : (s.exportImage c.home c ch).length ≤ room) (hdie : (s.diesOf q.part).contains t = true) (ht : s.dieDown t = false)
    (hq : (s.begin q 0x45 (ctx + 2 ^ 17 + t * 2 ^ 24 + key * 2 ^ 32)).quotaOk c.home ctx (ceilDiv (s.exportImage c.home c ch).length 4096) = true)
    (hsegs : ceilDiv (s.exportImage c.home c ch).length 4096 ≤ s.freeSegs t) :
    Runs (.chunkExport q ctx false (some t) key chain off room) s (fun u =>
      Posts s u q 0x45 stOK (s.exportImage c.home c ch).length 0 ∧
      u.fget STG_EXPORTS_COUNT c.home = min (s.fget STG_EXPORTS_COUNT c.home + 1) (2 ^ (STG_EXPORTS_COUNT).w - 1)) := by
  generalize hbytes : (s.exportImage c.home c ch).length = bytes at *
  let word := ctx + false.toNat * 2 ^ 16 + (some t).isSome.toNat * 2 ^ 17 + (some t).getD 0 * 2 ^ 24 + key * 2 ^ 32
  have hword : word = ctx + 2 ^ 17 + t * 2 ^ 24 + key * 2 ^ 32 := by simp [word]
  obtain ⟨a, ha⟩ : ∃ a, s.begin q 0x45 word = a := ⟨_, rfl⟩
  have hfind : (a.treeFind c.home chain).bind (fun e => (a.chunk? c.home e.2.chunk).map (fun ch => (e.2.chunk, ch))) = some (id, ch) := by
    rw [← ha, State.begin_treeFind, hx, Option.bind_some, State.begin_chunk?, hid, hch, Option.map_some]
  have hpages : a.page? c.home = s.page? c.home := funext fun i => by rw [← ha, State.begin_page?]
  have himg : (a.exportImage c.home c ch).length = bytes := by rw [← ha, State.begin_exportImage, hbytes]
  have hdies : (a.diesOf q.part).contains t = true := by rwa [← ha, State.begin_diesOf]
  have hup : a.dieDown t = false := by rwa [← ha, State.begin_dieDown]
  have hquota : a.quotaOk c.home ctx (ceilDiv bytes 4096) = true := by rwa [← ha, hword]
  have hfree : ¬a.freeSegs t < ceilDiv bytes 4096 := by
    rw [← ha, State.begin_freeSegs]
    omega
  have hrun : exec (.chunkExport q ctx false (some t) key chain off room) s =
      .next ((a.exportTo c.home t id ctx (ceilDiv bytes 4096) bytes).complete q stOK bytes 0) := by
    refine congrArg Host.Outcome.next ((runDesc_ofCtx 0x45 word _ ho hc hd).trans ?_)
    rw [ha]
    split
    next t' hsome =>
      cases hsome
      extract_lets k good full
      split
      next hnone => cases hnone.symm.trans hfind
      next found id' ch' hsome =>
      cases hsome.symm.trans hfind
      rw [if_neg (by rw [Bool.not_eq_true', Bool.not_eq_false]; unfold good; rw [hpages]; exact hgood)]
      extract_lets img n
      have hlen : img.length = bytes := himg
      rw [hlen, if_neg (by omega), if_neg (by rw [hdies]; decide), if_neg (by rw [hup]; decide)]
      have hn : n = ceilDiv bytes 4096 := congrArg (ceilDiv · 4096) himg
      have hfits : (full || !a.quotaOk k ctx (ceilDiv bytes 4096)) = false := by
        show (full || !a.quotaOk c.home ctx (ceilDiv bytes 4096)) = false
        rw [hquota]
        rfl
      rw [hn, hfits, if_neg Bool.false_ne_true, if_neg hfree]
      unfold State.exportTo
      -- The segments taken go behind a variable: the kernel would unfold the taking in each place of the record they fill.
      generalize a.takeSegs t (ceilDiv bytes 4096) = gv
      obtain ⟨g, v⟩ := gv
      rfl
    next hnone => cases hnone
  have hkeeps := a.exportTo_keeps c.home t id ctx (ceilDiv bytes 4096) bytes
  subst ha
  refine ⟨_, hrun, posts_after hl hkeeps (.ofKeeps hkeeps) _ _ _, ?_⟩
  rw [(State.complete_keeps _ _ _ _ _).fget (b := .stg) (by decide) rfl, State.exportTo_count,
    State.fget_begin_of_blk _ _ _ _ _ (by decide)]

/-! ### CHUNK_IMPORT (R251) -/

/-- What a message asks of its peer, and for whom. -/
def Tx.request (x : Tx) : Nat × NrtHdr × TxFor := (x.peer, x.hdr, x.use)

theorem State.sendPkt_requests (s : State) (d : Nat) (t : Tx) (i r : Nat) :
    ((s.sendPkt d t i r).nrt d).tx.map Tx.request = (s.nrt d).tx.map Tx.request := by
  unfold State.sendPkt
  split
  · rfl
  · extract_lets path src h u
    have hu : u.nrt d = s.nrt d := by
      unfold State.nrt
      rw [(State.enqueue_keeps _ _ _ _ _ _).same .nrts (by decide)]
    rw [State.modNrt_nrt_self, hu, List.map_map]
    refine List.map_congr_left fun x _ => ?_
    simp only [Function.comp_apply]
    split <;> rfl

theorem State.sendPkts_requests (s : State) (d : Nat) (t : Tx) (l : List Nat) :
    ((l.foldl (fun s i => s.sendPkt d t i 0) s).nrt d).tx.map Tx.request = (s.nrt d).tx.map Tx.request := by
  induction l generalizing s with
  | nil => rfl
  | cons i l ih => exact (ih _).trans (s.sendPkt_requests d t i 0)

/-- The last message of a port is the one just started (R354). -/
theorem State.startMsg_last (s : State) (d peer typ key addr total sigIndex sigAdd : Nat) (dep : Option Nat) (bytes : List Byte)
    (from_ : Option (Nat × Nat)) (use : TxFor) (kind : FKind) :
    ∃ x, ((s.startMsg d peer typ key addr total sigIndex sigAdd dep bytes from_ use kind).2.nrt d).tx.getLast? = some x ∧
      x.peer = peer ∧ x.hdr.typ = typ ∧ x.hdr.key = key ∧ x.hdr.addr = addr ∧ x.hdr.total = total ∧ x.use = use := by
  unfold State.startMsg
  extract_lets msg paths h t u
  have hu : (u.nrt d).tx = (s.nrt d).tx ++ [t] := by
    unfold u
    rw [State.fadd_nrt, State.modNrt_nrt_self]
  have hmap := u.sendPkts_requests d t (List.range h.count)
  rw [hu] at hmap
  have hlast := congrArg List.getLast? hmap
  rw [List.getLast?_map, List.map_append, List.map_singleton, List.getLast?_concat] at hlast
  obtain ⟨x, hx, hreq⟩ := Option.map_eq_some_iff.1 hlast
  obtain ⟨hpeer, hhdr, huse⟩ : x.peer = t.peer ∧ x.hdr = t.hdr ∧ x.use = t.use := by simpa [Tx.request] using hreq
  exact ⟨x, hx, hpeer, by rw [hhdr], by rw [hhdr], by rw [hhdr], by rw [hhdr], huse⟩

theorem chunkImport_asks {replica : Bool} {key off bytes i : Nat} {p : Peer} (ho : Open q s) (hl : Live q s)
    (hc : s.ctx? q.part ctx = some c) (hd : s.dieDown c.home = false) (hb : tget (s.nrt c.home).binds key = some i)
    (hp : s.peer? c.home i = some p) (hqp : p.qp = none) (hr : s.nrtReady c.home = true) :
    Runs (.chunkImport q ctx replica key off bytes) s (fun u =>
      (u.stg c.home).imports = (s.stg c.home).imports ++ [⟨q.fn, q.sq, q.index, q.part, ctx, replica, key, off, bytes, [], [], []⟩] ∧
      (∃ x, (u.nrt c.home).tx.getLast? = some x ∧ x.peer = i ∧ x.hdr.typ = 3 ∧ x.hdr.key = key ∧ x.hdr.addr = off ∧ x.hdr.total = 576 ∧
        x.use = .imported q.fn q.sq q.index) ∧ (u.outst? q).isSome = true ∧ u.pfxs = s.pfxs) := by
  let word := ctx + replica.toNat * 2 ^ 16 + key * 2 ^ 32
  let j : ImportJob := ⟨q.fn, q.sq, q.index, q.part, ctx, replica, key, off, bytes, [], [], []⟩
  let a := s.begin q 0x46 word
  let v := a.modStg c.home (fun x => { x with imports := x.imports ++ [j] })
  let u := (v.startMsg c.home i 3 key (off + 0) 576 0 0 none (zeros 576) none (.imported q.fn q.sq q.index) .bulk).2
  have hread : v.readImport c.home j 0 576 = u := by
    have hb' : tget (v.nrt c.home).binds j.key = some i := by
      rw [State.modStg_nrt, State.begin_nrt]
      exact hb
    have hp' : v.peer? c.home i = some p := by
      unfold State.peer? at hp ⊢
      rwa [State.modStg_nrt, State.begin_nrt]
    have hr' : v.nrtReady c.home = true := (s.begin_nrtReady q 0x46 word c.home).trans hr
    unfold State.readImport
    simp only [hb', hp', hr', Option.bind_some, Option.map_some, Bool.not_true, Bool.false_eq_true, if_false]
    unfold State.sendRead
    simp only [hp', hqp, Option.bind_some]
    rfl
  have hrun : exec (.chunkImport q ctx replica key off bytes) s = .next u := by
    rw [← hread]
    refine congrArg Host.Outcome.next ((runDesc_ofCtx 0x46 word _ ho hc hd).trans ?_)
    simp only [State.begin_nrt, hb, Option.bind_some, State.begin_peer?, hp, Option.isNone_some, State.begin_nrtReady, hr, Bool.not_true,
      Bool.false_eq_true, if_false]
    rfl
  have hstart : Keeps 0x400002800 v u := (State.startMsg_keeps _ _ _ _ _ _ _ _ _ _ _ _ _ _).get
  refine ⟨u, hrun, ?_, v.startMsg_last _ _ _ _ _ _ _ _ _ _ _ _ _, ?_, ?_⟩
  · have hstg : u.stg c.home = v.stg c.home := by
      unfold State.stg
      rw [hstart.same .stgs (by decide)]
    rw [hstg, State.modStg_stg_self, State.begin_stg]
  · have hout : u.outst? q = a.outst? q := by
      unfold State.outst? State.part
      rw [hstart.same .parts (by decide)]
      rfl
    rw [hout, State.outst_begin s q _ _ hl.2.1]
    rfl
  · exact (hstart.same .pfxs (by decide)).trans (s.begin_pfxs q _ _)

theorem chunkImport_unbound {replica : Bool} {key off bytes : Nat} (ho : Open q s) (hl : Live q s) (hc : s.ctx? q.part ctx = some c)
    (hd : s.dieDown c.home = false) (hb : tget (s.nrt c.home).binds key = none) :
    Runs (.chunkImport q ctx replica key off bytes) s (fun u =>
      Posts s u q 0x46 stMALFORMED 0 0 ∧ u.pfxs = s.pfxs ∧ (u.stg c.home).imports = (s.stg c.home).imports) := by
  let a := s.begin q 0x46 (ctx + replica.toNat * 2 ^ 16 + key * 2 ^ 32)
  have hrun : exec (.chunkImport q ctx replica key off bytes) s = .next (a.complete q stMALFORMED 0 0) := by
    refine congrArg Host.Outcome.next ((runDesc_ofCtx 0x46 _ _ ho hc hd).trans ?_)
    simp only [State.begin_nrt, hb, Option.bind_none, Option.isNone_none, if_true]
    rfl
  have hcomp := a.complete_keeps q stMALFORMED 0 0
  refine ⟨_, hrun, posts_after (m := 0) hl (.refl a) (.refl a) _ _ _, (hcomp.same .pfxs (by decide)).trans (s.begin_pfxs q _ _), ?_⟩
  unfold State.stg
  rw [hcomp.same .stgs (by decide), State.begin_stgs]

end
end Sys2Proof.Machine
end

section
/-!
STAGING_READ_DONE: the page stands in the frame of its task, and what follows the task's end leaves it there (R246).
-/
namespace Sys2Proof.Machine
set_option Elab.async false

/-- Frame, residency and contents of a page: what a staging read leaves as it is once it has made the page resident. -/
def Page.placed (p : Page) : List Nat × Nat × Bool × Bool × PageSt × List Pos :=
  (p.segs, p.list, p.place.hbm, p.place.staging, p.st, p.pos)

section
variable {α : Type} {f : Page → α} {d : Nat}

theorem State.takeSeg_pagesAgree (s : State) : PagesAgree f d s (s.takeSeg d).2 := by
  unfold State.takeSeg
  extract_lets c u on k lo g
  exact .modPfx u _

theorem State.takeSegs_pagesAgree (s : State) (n : Nat) : PagesAgree f d s (s.takeSegs d n).2 := by
  induction n with
  | zero => exact .refl s
  | succ n ih => exact ih.trans (State.takeSeg_pagesAgree _)

theorem State.takeList_pagesAgree (s : State) : PagesAgree f d s (s.takeList d).2 := by
  unfold State.takeList
  split
  · exact .modPfx s _
  · exact s.takeSeg_pagesAgree.trans (.modPfx _ _)

theorem State.poolFrame_pagesAgree {s u : State} {n g : Nat} {l : List Nat} (h : s.poolFrame d n = some (l, g, u)) : PagesAgree f d s u := by
  unfold State.poolFrame at h
  split at h
  · cases h
  · cases h
    exact s.takeList_pagesAgree.trans (State.takeSegs_pagesAgree _ _)

theorem State.txFail_pagesAgree (s : State) (use : TxFor) (status : Nat) : PagesAgree f d s (s.txFail d use status) := by
  unfold State.txFail
  split
  · exact .ofKeeps (s.refuseOut_keeps _ _ _)
  · exact .refl s
  · exact .refl s
  · split
    · exact .refl s
    · extract_lets u
      have hu : PagesAgree f d s u := .ofKeeps (s.modStg_keeps _ _)
      exact (hu.trans (.modPfx u _)).trans (.ofKeeps (State.completeKey_keeps _ _ _ _ _))
  · exact .ofKeeps (s.completeKey_keeps _ _ _ _)
  · exact .ofKeeps (s.gotStaged_keeps _ _ _ _ _)
  · exact (PagesAgree.ofKeeps (s.endImport_keeps _ _)).trans (.ofKeeps (State.completeKey_keeps _ _ _ _ _))

theorem State.qpPost_pagesAgree (s : State) (peer : Nat) (w : QpSend) : PagesAgree f d s (s.qpPost d peer w) := by
  unfold State.qpPost
  split
  · exact .refl s
  · refine .ite (s.txFail_pagesAgree _ _) ?_
    extract_lets u
    have hu : PagesAgree f d s u := .ofKeeps (s.modPeer_keeps _ _ _)
    exact (hu.trans (.ofKeeps (u.fadd_keeps _ _ _))).trans (.foldl (fun v e => .ofKeeps (v.enqueue_keeps _ _ _ _ _)) _ _)

theorem State.sendRead_pagesAgree (s : State) (peer key addr total : Nat) (to_ : Option (Nat × Nat)) (use : TxFor) (kind : FKind) :
    PagesAgree f d s (s.sendRead d peer key addr total to_ use kind) := by
  unfold State.sendRead
  split
  · exact s.qpPost_pagesAgree _ _
  · exact .ofKeeps (s.startMsg_keeps _ _ _ _ _ _ _ _ _ _ _ _ _).get

theorem State.readReplica_pagesAgree (s : State) (t : StgTask) (key at_ n : Nat) (table : Bool) :
    PagesAgree f d s (s.readReplica d t key at_ n table) := by
  unfold State.readReplica
  extract_lets u
  have hu : PagesAgree f d s u := .ofKeeps (s.modStg_keeps _ _)
  have hrefused : PagesAgree f d u (u.gotStaged d t.page t.startT stNOT_READY []) := .ofKeeps (u.gotStaged_keeps _ _ _ _ _)
  split
  · exact hu.trans hrefused
  · exact hu.trans (.ite (u.sendRead_pagesAgree _ _ _ _ _ _ _) hrefused)

theorem State.startRead_pagesAgree (s : State) (page : Nat) : PagesAgree f d s (s.startRead d page) := by
  unfold State.startRead
  split
  · split
    · exact s.readReplica_pagesAgree _ _ _ _ _
    · exact .refl s
  · exact .refl s

theorem State.allocTask_pagesAgree (s : State) (t : StgTask) : PagesAgree f d s (s.allocTask d t) := by
  unfold State.allocTask
  refine .ite ?_ (.refl s)
  split
  · exact .refl s
  · extract_lets n
    refine .ite (.refl s) (.ite (.refl s) ?_)
    split
    · exact .ofKeeps (s.nomem_keeps _)
    next e =>
      have hframe := State.poolFrame_pagesAgree (f := f) e
      exact (hframe.trans (.ofKeeps (State.modStg_keeps _ _ _))).trans (State.startRead_pagesAgree _ _)

theorem State.retryTasks_pagesAgree (s : State) : PagesAgree f d s (s.retryTasks d) := .foldl (fun u _ => u.allocTask_pagesAgree _) _ s

end

section
variable {d : Nat}

theorem State.freeFlash_placed (s : State) (id : Nat) : PagesAgree Page.placed d s (s.freeFlash d id) :=
  (PagesAgree.ofKeeps (s.freeObj_keeps _ _ _)).trans (.modPage _ _ _)

theorem State.unpark_placed (s : State) (q : Nat) : PagesAgree Page.placed d s (s.unpark d q) := by
  unfold State.unpark
  split
  · exact .refl s
  · refine .ite ?_ (.refl s)
    extract_lets t u v
    have ht : PagesAgree Page.placed d s t := .ofKeeps (s.journal_keeps _ _ _).get
    have hv : PagesAgree Page.placed d s v := (ht.trans (.modPfx t _)).trans (.ofKeeps (u.freeObj_keeps _ _ _))
    refine hv.trans (.foldl (fun w l => .foldl (fun x id => ?_) _ w) _ v)
    split
    · exact .ite (x.freeFlash_placed id) (.modPage x id _)
    · exact .refl x

theorem State.meetHints_placed (s : State) (l : List Hint) : PagesAgree Page.placed d s (s.meetHints d l) := by
  induction l generalizing s with
  | nil => exact .refl s
  | cons h r ih =>
    unfold State.meetHints
    extract_lets all rel t u
    refine .ite ?_ (ih s)
    have ht : PagesAgree Page.placed d s t := .ofKeeps (s.modStg_keeps _ _)
    have hu : PagesAgree Page.placed d s u :=
      (ht.trans (.ofKeeps (t.postMet_keeps _ _))).trans (.ofKeeps (State.hintCount_keeps _ _))
    exact (hu.trans (.ite (u.unpark_placed _) (.refl u))).trans (ih _)

/-- The end of a task with no edit waiting leaves every page where it is. -/
theorem State.afterTask_placed {s : State} (h : (s.pfx d).edits = []) : PagesAgree Page.placed d s (s.afterTask d) := by
  unfold State.afterTask
  rw [h]
  exact (s.meetHints_placed _).trans (State.retryTasks_pagesAgree _)

/-! ### STAGING_READ_DONE (R246) -/

/-- The record of a page made resident in the frame of task `t`, with its heat and the tick of it (R246 step 4). -/
def Page.inFrame (p : Page) (t : StgTask) (heat tick : Nat) : Page :=
  { p with segs := t.segs, list := t.list, place := { p.place with hbm := true, staging := false, heat := heat, heatTick := tick } }

variable {s : State} {page : Nat} {t : StgTask} {p : Page} {c : Ctx}

theorem State.makeResident_page (ht : (s.stg d).tasks.find? (fun t => t.page == page) = some t) (hp : s.page? d page = some p) :
    (s.makeResident d page).page? d page = some (p.inFrame t (max (s.heat d p) (s.inForce STG_HEAT_INC d)) (s.heatTick d)) := by
  unfold State.makeResident
  simp only [ht, hp]
  refine State.page?_modPage_self _ ?_
  unfold State.page? State.pfx
  rw [(State.hbmWrite_keeps _ _ _ _).same .pfxs (by decide), (State.hist_keeps _ _ _ _ _).same .pfxs (by decide)]
  exact hp

theorem State.modPage_edits (s : State) (id : Nat) (g : Page → Page) : ((s.modPage d id g).pfx d).edits = (s.pfx d).edits := by
  unfold State.modPage
  rw [State.modPfx_pfx_self]

theorem State.makeResident_edits (s : State) (id : Nat) : ((s.makeResident d id).pfx d).edits = (s.pfx d).edits := by
  unfold State.makeResident
  split
  · extract_lets h tk u v
    rw [State.modPage_edits]
    unfold State.pfx v
    rw [(State.hbmWrite_keeps _ _ _ _).same .pfxs (by decide), (State.hist_keeps _ _ _ _ _).same .pfxs (by decide)]
    rfl
  · rfl

/-- A page that comes back with the stored bytes it had keeps its contents (R217). -/
theorem Page.withImage_inFrame (heat tick : Nat) : (p.inFrame t heat tick).withImage c (p.image c) = p.inFrame t heat tick :=
  Page.withImage_image c (p.inFrame t heat tick)

theorem stagingReadDone_resident
    (hread : (s.stg d).tasks.find? (fun t => t.page == page && t.prio != 1 && !t.segs.isEmpty) = some t)
    (ht : (s.stg d).tasks.find? (fun t => t.page == page) = some t) (hp : s.page? d page = some p) (hturn : s.turnOf d t p = true)
    (hcopy : s.readOf d t p .stored = some .stored) (hc : s.dieCtx? d p.ctx = some c)
    (hst : p.st = .open_ ∨ p.st = .full ∨ (p.st = .sealed ∧ p.arrivalOk c (p.image c) = true)) (hedits : (s.pfx d).edits = []) :
    Runs (.stagingReadDone d page .stored) s (fun u =>
      (u.page? d page).map (fun x => (x.segs, x.list, x.place.hbm, x.place.staging)) = some (t.segs, t.list, true, false) ∧
      (u.page? d page).map (fun x => (x.st, x.pos)) = some (p.st, p.pos)) := by
  let a := s.makeResident d page
  let p' := p.inFrame t (max (s.heat d p) (s.inForce STG_HEAT_INC d)) (s.heatTick d)
  have ha : a.page? d page = some p' := State.makeResident_page ht hp
  have hae : (a.pfx d).edits = [] := (s.makeResident_edits page).trans hedits
  have hrun : ∃ v : State, exec (.stagingReadDone d page .stored) s = .next (v.afterTask d) ∧ v.page? d page = some p' ∧ (v.pfx d).edits = [] := by
    show ∃ v : State, execStagingReadDone d page .stored s = _ ∧ _
    unfold execStagingReadDone
    simp only [hread, hp, hturn, hcopy, hc, Bool.not_true, Bool.false_eq_true, if_false]
    obtain hopen | hfull | ⟨hsealed, hsound⟩ := hst
    · refine ⟨a, ?_, ha, hae⟩
      rw [hopen]
      rfl
    · refine ⟨a, ?_, ha, hae⟩
      rw [hfull]
      rfl
    · refine ⟨a.modPage d page (fun x => x.withImage c (p.image c)), ?_, ?_, (a.modPage_edits page _).trans hae⟩
      · rw [hsealed, hsound]
        rfl
      · rw [State.page?_modPage_self _ ha]
        exact congrArg some (Page.withImage_inFrame _ _)
  obtain ⟨v, hv, hpage, he⟩ := hrun
  have hstand := (State.afterTask_placed he).some hpage
  obtain ⟨x, hx, hxe⟩ := Option.map_eq_some_iff.1 hstand
  refine ⟨_, hv, ?_, ?_⟩ <;> rw [hx]
  · exact congrArg (fun y => some (y.1, y.2.1, y.2.2.1, y.2.2.2.1)) hxe
  · exact congrArg (fun y => some y.2.2.2.2) hxe

end
end Sys2Proof.Machine
end

section
/-!
The expiry of holds, the placement scan and the read of the bytes queued (R232, R244, R252, R253).
-/
namespace Sys2Proof.Machine
set_option Elab.async false

section
variable {s : State} {d : Nat}

/-! ### HELD_EXPIRY (R244) -/

/-- Whether a hint has been met and its release tick is reached at tick `n`. -/
def Hint.due (n : Nat) (h : Hint) : Bool := h.met && decide (h.release ≤ n)

theorem filter_notMem_filter {α : Type} [DecidableEq α] (p : α → Bool) (l : List α) :
    l.filter (fun x => !((l.filter p).contains x)) = l.filter (fun x => !p x) := by
  refine List.filter_congr fun x hx => ?_
  rw [List.contains_eq_mem]
  simp [List.mem_filter, hx]

theorem Keeps.tickOf {m : Nat} {t : State} (h : Keeps m s t) (d : Nat) (hclk : m.testBit 4 = false := by decide)
    (hparts : m.testBit 5 = false := by decide) (hptn : m.testBit (Area.regs .ptn).ix = false := by decide) : t.tickOf d = s.tickOf d := by
  unfold State.tickOf State.tickNo State.periodNs State.part
  rw [State.owner_congr (h.same _ hptn), h.same .clk hclk, h.same .parts hparts]

/-- The holds of the pages of a list of hints looked at again. -/
def State.reholdAll (s : State) (d : Nat) (l : List Hint) : State := l.foldl (fun s h => s.rehold d h.pages) s

theorem State.reholdAll_keeps (s : State) (d : Nat) (l : List Hint) : Keeps 0x100 s (s.reholdAll d l) :=
  Keeps.foldl _ _ (fun u h => u.rehold_keeps d h.pages) (.refl s)

theorem heldExpiry_ends (t : Nat) :
    Runs (.heldExpiry d t) s (fun u =>
      (u.stg d).hints = (s.stg d).hints.filter (fun h => !(h.met && decide (h.release ≤ u.tickOf d))) ∧ u.clk.tNs = max s.clk.tNs t ∧
      u.out = s.out) := by
  let a := s.advanceTo t
  let due := (a.stg d).hints.filter (Hint.due (a.tickOf d))
  let v := a.modStg d (fun x => { x with hints := x.hints.filter (fun h => !(due.contains h)) })
  let u := v.reholdAll d due
  have hrun : exec (.heldExpiry d t) s = .next u := rfl
  have hkeeps : Keeps 0x300 a u := (a.modStg_keeps d _).mono.trans (v.reholdAll_keeps d due)
  have htick : u.tickOf d = a.tickOf d := hkeeps.tickOf d
  have hstg : u.stg d = v.stg d := by
    unfold State.stg
    rw [(v.reholdAll_keeps d due).same .stgs (by decide)]
  have hold : a.stg d = s.stg d := by
    unfold State.stg
    rw [(s.advanceTo_keeps t).same .stgs (by decide)]
  refine ⟨u, hrun, ?_, ?_, ?_⟩
  · rw [hstg, htick, State.modStg_stg_self]
    refine (filter_notMem_filter _ _).trans ?_
    rw [hold]
    rfl
  · rw [hkeeps.same .clk (by decide)]
    exact s.advanceTo_tNs t
  · exact (hkeeps.same .out (by decide)).trans (s.advanceTo_out t)

/-! ### PLACEMENT_SCAN (R232) -/

/-- The HEAT_TICK that goes with the effective heat of a page: the latest halving, or now when nothing is left (R232). -/
def State.scanTick (s : State) (d : Nat) (p : Page) : Nat :=
  if s.heat d p = 0 then s.heatTick d
  else (s.heatTick d + 65536 - (s.heatTick d + 65536 - p.place.heatTick) % 65536 % max 1 (s.inForce STG_HEAT_HALF d)) % 65536

theorem placementScan_storesHeat {page : Nat} {p : Page} (hp : s.page? d page = some p) (hidle : s.fbit STG_CTRL_IDLE_RELEASE d = false) :
    Runs (.placementScan d page) s (fun u =>
      (u.page? d page).map (fun x => x.place.heat) = some (s.heat d p) ∧ (∀ i, i ≠ page → u.page? d i = s.page? d i) ∧
      u.regs = s.regs ∧ u.out = s.out) := by
  have hrun : exec (.placementScan d page) s =
      .next (s.modPage d page (fun x => { x with place := { x.place with heat := s.heat d p, heatTick := s.scanTick d p } })) := by
    show execPlacementScan d page s = _
    unfold execPlacementScan
    rw [hp]
    refine if_neg ?_
    rw [show (s.modPage d page _).fbit STG_CTRL_IDLE_RELEASE d = false from hidle]
    exact Bool.false_ne_true
  refine ⟨_, hrun, ?_, fun i hi => s.page?_modPage_other _ hi.symm, rfl, rfl⟩
  rw [State.page?_modPage_self _ hp]
  rfl

/-! ### The bytes queued (R252, R253) -/

theorem stgQueuedLoRead_latches {via : Via} (h : MayRead via (STG_QUEUED_LO_BYTES.at_ d) s) (hs : s.shadowed d = false) :
    Runs (.stgQueuedLoRead d via) s (fun u =>
      SentBy s u [.regValue (STG_QUEUED_LO_BYTES.at_ d) (BitVec.ofNat 32 (s.queued d))] ∧
      u.fget STG_QUEUED_HI_BYTES d = s.queued d / 2 ^ 32 % 2 ^ 32 ∧
      RegsOnly s u [STG_QUEUED_LO_BYTES.key d, STG_QUEUED_HI_BYTES.key d]) := by
  let u := (s.fset STG_QUEUED_LO_BYTES d (s.queued d)).fset STG_QUEUED_HI_BYTES d (s.queued d / 2 ^ 32)
  have hread : s.readQueued d = (s.queued d % 2 ^ 32, u) := by
    unfold State.readQueued
    rw [hs]
    rfl
  have hrun : exec (.stgQueuedLoRead d via) s = .next (u.emit (.regValue (STG_QUEUED_LO_BYTES.at_ d) (BitVec.ofNat 32 (s.queued d)))) := by
    show execStgQueuedLoRead d via s = _
    unfold execStgQueuedLoRead
    rw [regRead_reaches h, hread]
    congr 3
    exact BitVec.eq_of_toNat_eq (by simp)
  refine ⟨_, hrun, rfl, ?_, ?_⟩
  · rw [State.emit_fget, State.fget_fset_self]
    rfl
  · exact ((RegsOnly.refl s _).fset _ List.mem_cons_self).fset _ (List.mem_cons_of_mem _ List.mem_cons_self)

end

/-- Settles O11: hints, exports and imports end as R242 to R251 say, a staged page stands in the frame of its task (R246), and the scan,
the expiry and the read of the bytes queued have their own effects (R232, R244, R253). -/
theorem hintsExportsAndStaging : Obligations.HintsExportsAndStaging :=
  ⟨fun _ _ _ _ _ _ _ ho hl hk he hc hd h0 hx => prefetch_withdraws ho hl hk he hc hd h0 hx,
    fun _ _ _ _ _ _ ho hl hk he hc hd h0 hlay hpos haway hroom => prefetch_resident ho hl hk he hc hd h0 hlay hpos haway hroom,
    fun _ _ _ _ _ _ _ _ _ _ _ _ ho hl hc hd hx hid hch hgood hroom hdie ht hq hsegs =>
      chunkExport_exports ho hl hc hd hx hid hch hgood hroom hdie ht hq hsegs,
    fun _ _ _ _ _ _ _ _ _ _ ho hl hc hd hb hp hqp hr => chunkImport_asks ho hl hc hd hb hp hqp hr,
    fun _ _ _ _ _ _ _ _ ho hl hc hd hb => chunkImport_unbound ho hl hc hd hb,
    fun _ _ _ _ _ _ hread ht hp hturn hcopy hc hst hedits => stagingReadDone_resident hread ht hp hturn hcopy hc hst hedits,
    fun _ _ t => heldExpiry_ends t,
    fun _ _ _ _ hp hidle => placementScan_storesHeat hp hidle,
    fun _ _ _ h hs => stgQueuedLoRead_latches h hs⟩

end Sys2Proof.Machine
end

section
/-!
The journal sequence read past 56 bits (R268, R305), and a third channel error while the hold-off of a settled dispute runs (R304, R478).
-/
namespace Sys2Proof.Machine
set_option Elab.async false

/-! ### FTL_JSEQ (R268, R305) -/

/-- The machine after reset, but for the journal sequence of die 0, which stands at 2⁵⁶. -/
def longJournal : State := State.reset.modFtl 0 (fun f => { f with jseq := 2 ^ 56 })

/-- FTL_JSEQ_HI latches 24 bits, so the read leaves 0 of the upper half, which is 2²⁴. -/
theorem longJournal_latched : (longJournal.readJseq 0).2.fget FTL_JSEQ_HI_JSEQ_HI 0 ≠ (longJournal.ftl 0).jseq / 2 ^ 32 % 2 ^ 32 := by
  decide +kernel

/-- Refutes O12: FTL_JSEQ_HI holds bits 55 to 32 of JSEQ, and the last clause of the read asks for bits 63 to 32. No premise bounds JSEQ,
and at 2⁵⁶ the two differ. -/
theorem not_flashWritesReadsAndJournal : ¬ Obligations.FlashWritesReadsAndJournal := by
  unfold Obligations.FlashWritesReadsAndJournal
  rintro ⟨-, -, -, -, -, -, -, -, hread, -⟩
  have hpath : MayRead .console (FTL_JSEQ_LO_JSEQ_LO.at_ 0) longJournal := fun _ e => nomatch e
  obtain ⟨u, hu, -, hhigh, -⟩ := hread longJournal 0 .console hpath (by decide +kernel)
  have hrun : exec (.ftlJseqLoRead 0 .console) longJournal = .next ((longJournal.readJseq 0).2.emit _) :=
    congrArg Host.Outcome.next (regRead_reaches hpath)
  obtain rfl := Host.Outcome.next.inj (hrun.symm.trans hu)
  exact longJournal_latched hhigh

/-! ### Channel errors within the hold-off of a dispute (R304, R478) -/

/-- Die 0 under a supply warning, with two errors of channel 3 just behind it, whose last dispute a self-test settled by a pass at the
present instant. -/
def settledChannel : State :=
  (State.reset.modFtl 0 (fun f => { f with chErr := [(3, [0, 0])], hold := .warn })).modRow uChan 0 3 (fun r => { r with passT := some 0 })

/-- The premises on the die, the channel and its errors hold. -/
theorem settledChannel_errs : settledChannel.unitExists uChan 0 3 = true ∧ (settledChannel.row uDie 0 0).lost = false ∧
    2 ≤ ((dget (settledChannel.ftl 0).chErr [] 3).filter (fun x => decide (0 < x + secNs))).length ∧
    (settledChannel.ftl 0).hold = .warn ∧ (settledChannel.row uChan 0 3).own = usACTIVE ∧ (settledChannel.row uChan 0 3).mgmt ≠ 1 := by
  decide +kernel

/-- What the third error leaves of `settledChannel`. -/
def heldOffChannel : State := stateOf settledChannel (execChannelCmdTimeout 0 3 0 settledChannel)

/-- The report of the third error is discarded (R478). -/
theorem heldOffChannel_active : heldOffChannel.unitState uChan 0 3 = usACTIVE := by
  decide +kernel

theorem exec_channelCmdTimeout (d c t : Nat) (s : State) :
    exec (.channelCmdTimeout d c t) s = .next (stateOf s (execChannelCmdTimeout d c t s)) := by
  show execChannelCmdTimeout d c t s = _
  unfold execChannelCmdTimeout
  dsimp only
  split <;> rfl

/-- Refutes O13: no premise of the third CHANNEL_CMD_TIMEOUT excludes the hold-off of a dispute settled by a pass. While it runs the report
is discarded (R478), and the channel stays ACTIVE. -/
theorem not_flashChannelsAndBands : ¬ Obligations.FlashChannelsAndBands := by
  unfold Obligations.FlashChannelsAndBands
  rintro ⟨-, -, -, -, hthird, -⟩
  obtain ⟨hex, hlost, herrs, hhold, hown, hmgmt⟩ := settledChannel_errs
  obtain ⟨u, hu, hfenced, -⟩ := hthird settledChannel 0 3 0 (by decide) hex hlost herrs hhold hown hmgmt
  obtain rfl : heldOffChannel = u := Host.Outcome.next.inj ((exec_channelCmdTimeout 0 3 0 settledChannel).symm.trans hu)
  rw [heldOffChannel_active] at hfenced
  exact absurd hfenced (by decide)

end Sys2Proof.Machine
end

section
/-!
PROOFS. What folds over the state and the clearing of registers leave (R521).
-/
namespace Sys2Proof.Machine
set_option Elab.async false

/-! ### What a fold leaves of the state -/

theorem foldl_leaves_of_mem {α β : Type} (f : State → α) {g : State → β → State} (l : List β) (h : ∀ u, ∀ x ∈ l, f (g u x) = f u)
    (s : State) : f (l.foldl g s) = f s := by
  induction l generalizing s with
  | nil => rfl
  | cons x l ih =>
    exact (ih (fun u y hy => h u y (List.mem_cons_of_mem x hy)) (g s x)).trans (h s x List.mem_cons_self)

/-- What each step of a fold leaves as it is, the fold does. -/
theorem foldl_leaves {α β : Type} (f : State → α) {g : State → β → State} (h : ∀ u x, f (g u x) = f u) (l : List β) (s : State) :
    f (l.foldl g s) = f s := foldl_leaves_of_mem f l (fun u x _ => h u x) s

/-! ### Registers that return to their reset values (R521) -/

theorem tget_tfilter_keys {α : Type} (p : Nat → Bool) (t : List (Nat × α)) (k : Nat) :
    tget (tfilter (fun j _ => p j) t) k = if p k = true then tget t k else none := by
  induction t with
  | nil => exact (ite_self _).symm
  | cons e r ih =>
    unfold tfilter
    by_cases he : e.1 = k
    · subst he
      by_cases hp : p e.1 = true
      · simp [hp, tget]
      · simpa [hp] using ih
    · by_cases hp : p e.1 = true
      · simpa [hp, tget, he] using ih
      · simpa [hp, tget, he] using ih

theorem Fld.keyLo_key (F : Fld) (i : Nat) : keyLo (F.key i) = F.lo % 32 := by
  unfold keyLo Fld.key
  omega

theorem State.fget_clearRegs (s : State) (sel : Nat → Nat → Bool) (G : Fld) (j : Nat) :
    (s.clearRegs sel).fget G j = if sel (G.at_ j) (G.lo % 32) = true then G.rst else s.fget G j := by
  have h : (s.clearRegs sel).fget G j = (tget (tfilter (fun k _ => !sel (keyOff k) (keyLo k)) s.regs) (G.key j)).getD G.rst := rfl
  rw [h, tget_tfilter_keys, Fld.keyOff_key, Fld.keyLo_key]
  cases sel (G.at_ j) (G.lo % 32) <;> rfl

/-- Whether an offset lies outside every die's window and TIK registers: a register of the package. -/
def ofPackage (a : Nat) : Bool := decide (a < 0x10400) || (decide (0x10500 ≤ a) && decide (a < 0x1000000))

theorem inWindow_ofPackage {a : Nat} (h : ofPackage a = true) (d : Nat) : inWindow d a = false := by
  unfold ofPackage at h
  unfold inWindow dieOfOff windowBase
  rw [if_neg (by simp at h; omega)]
  rfl

theorem inTikDie_ofPackage {a d : Nat} (h : ofPackage a = true) (hd : d < 8) : inTikDie d a = false := by
  unfold ofPackage at h
  unfold inTikDie
  simp at h ⊢
  omega

section
variable (s : State) {d : Nat} {G : Fld} {j : Nat}

theorem State.fget_clearCounts (hd : d < 8) (h : ofPackage (G.at_ j) = true) : (s.clearCounts d).fget G j = s.fget G j := by
  unfold State.clearCounts
  rw [State.fget_clearRegs, inWindow_ofPackage h, inTikDie_ofPackage h hd]
  rfl

theorem State.fget_clearWindow (hd : d < 8) (h : ofPackage (G.at_ j) = true) : (s.clearWindow d).fget G j = s.fget G j := by
  unfold State.clearWindow
  rw [State.fget_clearRegs, inWindow_ofPackage h, inTikDie_ofPackage h hd]
  rfl

end

theorem lt_of_mem_bitsOf {n v d : Nat} (h : d ∈ bitsOf n v) : d < n := by
  unfold bitsOf at h
  exact List.mem_range.1 (List.mem_filter.1 h).1

end Sys2Proof.Machine
end

section
/-!
PROOFS. Operations of a die's flash that append records and place objects: FTL_STATUS.READY and REPLAYING stand, and the durable
journal is as it was (R268, R274 to R282).
-/
namespace Sys2Proof.Machine
set_option Elab.async false

/-! ### The durable journal -/

/-- The durable records of a die and the JSEQ below which everything is durable (R277). -/
def Ftl.log (f : Ftl) : List JRec × Nat := (f.jlog, f.jdur)

/-- The durable journal of every die is as it was. -/
def SameLogs (s t : State) : Prop := ∀ e, (t.ftl e).log = (s.ftl e).log

section
variable {s t u : State}

theorem SameLogs.refl (s : State) : SameLogs s s := fun _ => rfl

theorem SameLogs.trans (h : SameLogs s t) (k : SameLogs t u) : SameLogs s u := fun e => (k e).trans (h e)

theorem SameLogs.ofFtls (h : t.ftls = s.ftls) : SameLogs s t := fun e => by
  unfold State.ftl
  rw [h]

theorem SameLogs.ofKeeps {m : Nat} (h : Keeps m s t) (hm : m.testBit 10 = false := by decide) : SameLogs s t :=
  .ofFtls (h.same .ftls hm)

theorem SameLogs.keeps {m : Nat} (h : SameLogs s t) (k : Keeps m t u) (hm : m.testBit 10 = false := by decide) : SameLogs s u :=
  h.trans (.ofKeeps k hm)

theorem SameLogs.modFtl (s : State) (d : Nat) {g : Ftl → Ftl} (hg : ∀ f, (g f).log = f.log := by exact fun _ => rfl) : SameLogs s (s.modFtl d g) := fun e => by
  by_cases h : d = e
  · subst h
    rw [State.modFtl_ftl_self]
    exact hg _
  · rw [State.modFtl_ftl_other _ _ h]

theorem SameLogs.ite {p : Prop} [Decidable p] (h : SameLogs s t) (k : SameLogs s u) : SameLogs s (if p then t else u) := by
  split <;> assumption

theorem SameLogs.foldl {α : Type} {f : State → α → State} (h : ∀ u x, SameLogs u (f u x)) (l : List α) (s : State) :
    SameLogs s (l.foldl f s) := fun e => foldl_leaves (fun u => (u.ftl e).log) (fun u x => h u x e) l s

end

/-! ### Flash work that leaves the durable journal and the readiness of its die -/

/-- Nothing becomes durable, and the die's flash is READY or REPLAYING as before. -/
structure FlashQuiet (d : Nat) (s t : State) : Prop where
  ready : t.fget FTL_STATUS_READY d = s.fget FTL_STATUS_READY d
  replaying : t.fget FTL_STATUS_REPLAYING d = s.fget FTL_STATUS_REPLAYING d
  logs : SameLogs s t

section
variable {d : Nat} {s t u : State}

theorem FlashQuiet.refl (d : Nat) (s : State) : FlashQuiet d s s := ⟨rfl, rfl, .refl s⟩

theorem FlashQuiet.trans (h : FlashQuiet d s t) (k : FlashQuiet d t u) : FlashQuiet d s u :=
  ⟨k.ready.trans h.ready, k.replaying.trans h.replaying, h.logs.trans k.logs⟩

theorem FlashQuiet.ite {p : Prop} [Decidable p] (h : FlashQuiet d s t) (k : FlashQuiet d s u) : FlashQuiet d s (if p then t else u) := by
  split <;> assumption

theorem FlashQuiet.foldl {α : Type} {f : State → α → State} (h : ∀ u x, FlashQuiet d u (f u x)) (l : List α) (s : State) :
    FlashQuiet d s (l.foldl f s) :=
  ⟨foldl_leaves (·.fget FTL_STATUS_READY d) (fun u x => (h u x).ready) l s,
    foldl_leaves (·.fget FTL_STATUS_REPLAYING d) (fun u x => (h u x).replaying) l s, .foldl (fun u x => (h u x).logs) l s⟩

theorem FlashQuiet.ofKeeps {m : Nat} (h : Keeps m s t) (hr : m.testBit 33 = false := by decide) (hm : m.testBit 10 = false := by decide) :
    FlashQuiet d s t :=
  ⟨h.fget (b := .ftl) hr rfl d, h.fget (b := .ftl) hr rfl d, .ofKeeps h hm⟩

theorem FlashQuiet.keeps {m : Nat} (h : FlashQuiet d s t) (k : Keeps m t u) (hr : m.testBit 33 = false := by decide)
    (hm : m.testBit 10 = false := by decide) : FlashQuiet d s u := h.trans (.ofKeeps k hr hm)

theorem FlashQuiet.modFtl (s : State) (e : Nat) {g : Ftl → Ftl} (hg : ∀ f, (g f).log = f.log := by exact fun _ => rfl) :
    FlashQuiet d s (s.modFtl e g) :=
  ⟨rfl, rfl, .modFtl s e hg⟩

/-- Fields of the flash registers other than READY and REPLAYING: of another register, or higher in FTL_STATUS. -/
def quietField (F : Fld) : Bool := F.apart FTL_STATUS_READY && F.apart FTL_STATUS_REPLAYING

theorem FlashQuiet.fset (s : State) {F : Fld} (hF : quietField F = true) (v : Nat) : FlashQuiet d s (s.fset F d v) := by
  obtain ⟨hr, hp⟩ := Bool.and_eq_true_iff.1 hF
  exact ⟨State.fget_fset_other _ _ _ _ _ _ (F.key_ne_of_apart hr d), State.fget_fset_other _ _ _ _ _ _ (F.key_ne_of_apart hp d), .ofFtls rfl⟩

theorem FlashQuiet.evtDie (s : State) {F : Fld} (hF : quietField F = true) (hb : (F.bit ||| 0x8).testBit 10 = false) :
    FlashQuiet d s (s.evtDie F d) := by
  obtain ⟨hr, hp⟩ := Bool.and_eq_true_iff.1 hF
  exact ⟨State.fget_evtDie_other _ _ _ _ _ (F.key_ne_of_apart hr d), State.fget_evtDie_other _ _ _ _ _ (F.key_ne_of_apart hp d),
    .ofKeeps (s.evtDie_keeps F d) hb⟩

/-! #### Records and bands -/

theorem State.modBand_quiet (s : State) (n : Nat) (g : Band → Band) : FlashQuiet d s (s.modBand d n g) := .modFtl s d

theorem State.appendRec_quiet (s : State) (ns : Nat) (w : JWhat) : FlashQuiet d s (s.appendRec d ns w).2 := by
  unfold State.appendRec
  dsimp only
  exact .modFtl s d

theorem Ftl.modMember_log (f : Ftl) (k : Nat) (g : Member → Member) : (f.modMember k g).log = f.log := rfl

theorem Ftl.foldl_log {α : Type} {g : Ftl → α → Ftl} (h : ∀ f x, (g f x).log = f.log) (l : List α) (f : Ftl) : (l.foldl g f).log = f.log := by
  induction l generalizing f with
  | nil => rfl
  | cons x l ih => exact (ih (g f x)).trans (h f x)

theorem State.openBand_quiet {k : BandKind} {ns n : Nat} (h : s.openBand d k ns = some (n, t)) : FlashQuiet d s t := by
  unfold State.openBand at h
  extract_lets chs ms at h
  split at h
  · cases h
  · obtain ⟨-, rfl⟩ := Prod.mk.inj (Option.some.inj h)
    refine ((s.appendRec_quiet _ _).trans (.modFtl _ d fun f => ?_)).trans ((FlashQuiet.fset _ rfl _).trans (.fset _ rfl _))
    exact Ftl.foldl_log (fun f m => f.modMember_log _ _) _ _

theorem State.closeBand_quiet (s : State) (n : Nat) : FlashQuiet d s (s.closeBand d n) := by
  unfold State.closeBand
  split
  · exact .refl d s
  · exact .ite (.refl d s) ((s.modBand_quiet n _).trans (State.appendRec_quiet _ _ _))

theorem State.serve_quiet (s : State) : FlashQuiet d s (s.serve d) := by
  unfold State.serve
  exact .modFtl s d

theorem State.rollJournal_quiet (s : State) (n : Nat) : FlashQuiet d s (s.rollJournal d n) := by
  unfold State.rollJournal
  split
  · exact .refl d s
  · refine .ite (.refl d s) ?_
    split
    next h => exact (s.closeBand_quiet n).trans (State.openBand_quiet h)
    · exact .refl d s

theorem State.placePages_quiet (s : State) : FlashQuiet d s (s.placePages d) :=
  .foldl (fun u pg => by
    dsimp only
    split
    · exact .refl d u
    · exact (FlashQuiet.modFtl u d).trans (State.rollJournal_quiet _ _)) _ s

theorem State.issueJournal_quiet (s : State) : FlashQuiet d s (s.issueJournal d) := by
  unfold State.issueJournal
  refine .ite (.refl d s) ?_
  extract_lets s1 s2
  have h1 : FlashQuiet d s s1 := by
    refine .ite ?_ (.refl d s)
    split
    next h => exact State.openBand_quiet h
    · exact .refl d s
  have h2 : FlashQuiet d s s2 := h1.trans s1.placePages_quiet
  split
  · exact h2
  · exact h2.trans ((FlashQuiet.modFtl s2 d).trans ((State.rollJournal_quiet _ _).trans (State.serve_quiet _)))

theorem State.journal_quiet (s : State) (ns : Nat) (w : JWhat) : FlashQuiet d s (s.journal d ns w).2 :=
  .trans (s.appendRec_quiet ns w) (.ite (State.issueJournal_quiet (s.appendRec d ns w).2) (.refl d (s.appendRec d ns w).2))

end

section
variable {d : Nat} {s t u : State}

/-! #### Health and READ_ONLY (R296 to R298) -/

theorem State.postHealth_quiet (s : State) (code ch n value : Nat) : FlashQuiet d s (s.postHealth d code ch n value) := by
  unfold State.postHealth
  exact (FlashQuiet.evtDie s (F := FTL_EVENT_HEALTH) rfl (by decide)).keeps (State.dieEvent_keeps _ _ _ _)

theorem State.healthOccur_quiet (s : State) (code ch : Nat) : FlashQuiet d s (s.healthOccur d code ch) := by
  unfold State.healthOccur
  exact .ite (.modFtl s d) (.trans (.modFtl s d) (State.postHealth_quiet _ _ _ _ _))

theorem State.healthCross_quiet (s : State) (code value thresh : Nat) (again : Bool) :
    FlashQuiet d s (s.healthCross d code value thresh again) := by
  unfold State.healthCross
  exact .ite (.trans (.modFtl s d) (State.postHealth_quiet _ _ _ _ _)) (.ite (.modFtl s d) (.refl d s))

theorem State.fsat_quiet (s : State) {F : Fld} (hF : quietField F = true) (v : Nat) : FlashQuiet d s (s.fsat F d v) := .fset s hF _

theorem State.wearCheck_quiet (s : State) : FlashQuiet d s (s.wearCheck d) := by
  unfold State.wearCheck
  extract_lets f bad all mx sum s1 s2 pm s3 s4 pe s5
  have h1 : FlashQuiet d s s1 := (s.fsat_quiet rfl _).trans ((State.fsat_quiet _ rfl _).trans (State.fsat_quiet _ rfl _))
  have h4 : FlashQuiet d s s4 :=
    h1.trans ((s1.fsat_quiet rfl _).trans ((s2.healthCross_quiet _ _ _ _).trans (s3.healthCross_quiet _ _ _ _)))
  exact .ite h4 (h4.trans ((s4.healthCross_quiet _ _ _ _).trans (s5.healthCross_quiet _ _ _ _)))

theorem State.roCheck_quiet (s : State) : FlashQuiet d s (s.roCheck d) := by
  unfold State.roCheck
  extract_lets f few starved stuck
  exact .ite (.refl d s) (.ite (.ite (.refl d s)
    ((FlashQuiet.fset s (F := FTL_STATUS_READ_ONLY) rfl 1).trans
      ((FlashQuiet.evtDie _ (F := FTL_EVENT_READ_ONLY) rfl (by decide)).trans (State.healthOccur_quiet _ _ _))))
    (.ite (.fset s rfl 0) (.refl d s)))

/-! #### Objects placed (R262 to R265, R282) -/

theorem State.place_quiet {k : BandKind} {ns n : Nat} {l : FLoc} (h : s.place d k ns n = some (l, t)) : FlashQuiet d s t := by
  unfold State.place at h
  extract_lets take fresh at h
  have htake : ∀ {u m b l t}, take u m b = some (l, t) → FlashQuiet d u t := by
    intro u m b l t h
    unfold take at h
    split at h
    · cases h
    · cases h
      exact u.modBand_quiet _ _
  have hfresh : ∀ {u l t}, fresh u = some (l, t) → FlashQuiet d u t := by
    intro u l t h
    unfold fresh at h
    split at h
    · cases h
    next ho =>
      split at h
      · exact (State.openBand_quiet ho).trans (htake h)
      · cases h
  split at h
  · exact hfresh h
  next m b _ =>
    have hclose : ∀ {l t}, fresh (s.closeBand d m) = some (l, t) → FlashQuiet d s t := fun h => (s.closeBand_quiet m).trans (hfresh h)
    split at h
    · split at h
      next ht =>
        cases h
        exact htake ht
      · exact hclose h
    · exact hclose h

theorem State.writeObj_quiet {k : BandKind} {kind obj ns n : Nat} {src : Option FLoc} {data : FData} {l : FLoc}
    (h : s.writeObj d k kind obj ns n src data = some (l, t)) : FlashQuiet d s t := by
  unfold State.writeObj at h
  split at h
  · cases h
  next hp =>
    cases h
    split at hp
    · cases hp
    · exact (State.place_quiet hp).trans (.trans (.modFtl _ d) (State.serve_quiet _))

theorem State.writeNsKey_quiet (s : State) (p g k : Nat) : FlashQuiet d s (s.writeNsKey d p g k) := by
  unfold State.writeNsKey
  split
  next h => exact State.writeObj_quiet h
  · exact s.roCheck_quiet

theorem State.startReloc_quiet {o : FObj} {urgent : Bool} (h : s.startReloc d o urgent = some t) : FlashQuiet d s t := by
  unfold State.startReloc at h
  split at h
  · cases h
    exact .refl d s
  · split at h
    · cases h
    next hw =>
      cases h
      exact (State.writeObj_quiet hw).trans (.modFtl _ d)

theorem State.tryReloc_quiet (s : State) (o : FObj) (urgent : Bool) : FlashQuiet d s ((s.startReloc d o urgent).getD s) := by
  cases h : s.startReloc d o urgent with
  | none => exact .refl d s
  | some t => exact State.startReloc_quiet h

theorem State.gcStatus_quiet (s : State) : FlashQuiet d s (s.gcStatus d) := by
  unfold State.gcStatus
  exact .fset s rfl _

theorem State.gcAdvance_quiet (s : State) : FlashQuiet d s (s.gcAdvance d) := by
  unfold State.gcAdvance
  extract_lets s1 ready
  have h1 : FlashQuiet d s s1 := .ite (.refl d s) (.foldl (fun u o => u.tryReloc_quiet o false) _ s)
  exact h1.trans ((FlashQuiet.foldl (fun u e => u.modBand_quiet _ _) ready s1).trans ((State.gcStatus_quiet _).trans (State.serve_quiet _)))

/-! #### Keys destroyed and written (R424, R428, R435, R490) -/

theorem State.condemn_quiet (s : State) (l : List Nat) : FlashQuiet d s (s.condemn d l) := by
  unfold State.condemn
  refine (FlashQuiet.foldl (fun u b => ?_) l s).trans (State.gcAdvance_quiet _)
  extract_lets u1 objs
  have h1 : FlashQuiet d u u1 := (u.closeBand_quiet b).trans (State.modBand_quiet _ _ _)
  exact h1.trans (.foldl (fun v o => v.tryReloc_quiet o false) objs u1)

theorem State.cryptoErase_quiet (s : State) (p g : Nat) : FlashQuiet d s (s.cryptoErase d p g).2 := by
  unfold State.cryptoErase
  dsimp only
  refine .trans (t := State.condemn _ d _) ?_ (.ite (.evtDie _ rfl (by decide)) (.refl d _))
  refine .trans ?_ (State.condemn_quiet _ _)
  refine .trans ?_ (.modFtl _ d)
  refine .trans ?_ (.foldl (fun u b => u.modBand_quiet b _) _ _)
  refine .trans ?_ (.modFtl _ d)
  exact (s.journal_quiet p _).trans (.foldl (fun u b => u.closeBand_quiet b) _ _)

theorem State.destroyPending_quiet (s : State) : FlashQuiet d s (s.destroyPending d) := by
  unfold State.destroyPending
  refine .foldl (fun u e => .ite ?_ (.refl d u)) _ s
  have h1 := u.cryptoErase_quiet (d := d) e.1 e.2.oldGen
  generalize u.cryptoErase d e.1 e.2.oldGen = c at h1 ⊢
  obtain ⟨bands, u1⟩ := c
  dsimp -zeta only
  extract_lets u2 u3 u4
  have h2 : FlashQuiet d u u2 := h1.keeps (State.modRm_keeps _ _ _)
  have h3 : FlashQuiet d u u3 := .ite (h2.keeps (u2.physErased_keeps d)) h2
  have h4 : FlashQuiet d u u4 := by
    unfold u4
    split
    · exact .ite (h3.keeps (State.evtPkg_keeps _ SEC_EVENT_REMOVED)) h3
    · exact h3
  exact (h4.keeps (State.settleRemoval_keeps _ _)).keeps (State.record_keeps _)

/-- A key entered. -/
def State.putKey (s : State) (n k : Nat) : State := { s with sec := { s.sec with keys := tput s.sec.keys n k } }

theorem State.dmk_quiet (s : State) : FlashQuiet d s (s.dmk d) := by
  unfold State.dmk
  split
  · exact ⟨rfl, rfl, .ofFtls rfl⟩
  · split
    · exact .refl d s
    · have h1 : FlashQuiet d s (s.draw.2.putKey (256 + d) (Config.random s.draw.1)) := ⟨rfl, rfl, .ofFtls rfl⟩
      dsimp only
      split
      next h => exact h1.trans (State.writeObj_quiet h)
      · exact h1.trans (State.roCheck_quiet _)

theorem State.nsKeyHere_quiet (s : State) : FlashQuiet d s (s.nsKeyHere d) := by
  unfold State.nsKeyHere
  split
  · exact .refl d s
  · split
    · exact .refl d s
    · exact .ite (.refl d s) (s.writeNsKey_quiet _ _ _)

end

end Sys2Proof.Machine
end

section
/-!
PROOFS. The life of a partition: PTN_DIES, SEAL, PTN_CTRL.RESET and the removal of a tenant (R291, R292, R314, R420, R423, R424, R427,
R455, R480).
-/
namespace Sys2Proof.Machine
set_option Elab.async false

section
variable {s : State} {p : Nat}

/-! ### PTN_DIES (R314, R480) -/

/-- Whether PTN_DIES of a partition would take a die that the variant lacks or that another partition has. -/
def State.diesClash (s : State) (p v : Nat) : Bool :=
  (bitsOf 8 v).any (fun d => decide (s.nDies ≤ d) || (match s.owner d with | some o => o != p | none => false))

theorem exec_ptnDiesWrite_clash {v : Nat} (hl : s.locked p = false) (hp : p < 8) (h : s.diesClash p v = true) :
    exec (.ptnDiesWrite p v) s = .next (s.evtPtn PTN_EVENT_CONFLICT p) :=
  (if_neg (by simp [hl, hp])).trans (if_pos h)

/-- PTN_DIES of a partition with the dies it loses given up. -/
def State.takeDies (s : State) (p v : Nat) : State :=
  let gone := (s.diesOf p).filter (fun d => !(bitsOf 8 v).contains d)
  let s := gone.foldl (fun s d => (s.closeBands d p).fset RAS_DIE_STATE_LEDGER_DIE d 0xFF) s
  (s.fset PTN_DIES_DIES p (v % 256)).applyUnowned

theorem exec_ptnDiesWrite_free {v : Nat} (hl : s.locked p = false) (hp : p < 8) (h : s.diesClash p v = false) :
    exec (.ptnDiesWrite p v) s =
      .next (((s.takeDies p v).fset PTN_STATUS_STATE p (if (bitsOf 8 v).isEmpty then ptnFree else ptnOpen)).assignLedgers p) :=
  (if_neg (by simp [hl, hp])).trans (if_neg (ne_true_of_eq_false h))

theorem State.fget_takeDies (s : State) (p v : Nat) : (s.takeDies p v).fget PTN_DIES_DIES p = v % 256 :=
  ((State.applyUnowned_keeps _).fget (b := .ptn) (by decide) rfl p).trans
    ((State.fget_fset_self _ _ _ _).trans (Nat.mod_mod _ _))

theorem ptnDiesWrite_assigns (v : Nat) (hl : s.locked p = false) (hp : p < 8) :
    Runs (.ptnDiesWrite p v) s (fun u =>
      if s.diesClash p v = true then
        Raised u PTN_EVENT_CONFLICT p ∧ u.fget PTN_DIES_DIES p = s.fget PTN_DIES_DIES p ∧ u.ptnState p = s.ptnState p
      else u.fget PTN_DIES_DIES p = v % 256 ∧ u.ptnState p = (if bitsOf 8 v = [] then ptnFree else ptnOpen)) := by
  split
  · rename_i h
    exact ⟨_, exec_ptnDiesWrite_clash hl hp h, State.fget_evtPtn_self _ _ _ (by decide),
      State.fget_evtPtn_other _ _ _ _ _ (Fld.key_ne_of_apart _ (by decide) _),
      State.fget_evtPtn_other _ _ _ _ _ (Fld.key_ne_of_apart _ (by decide) _)⟩
  · rename_i h
    have hkeep := State.assignLedgers_keeps
      ((s.takeDies p v).fset PTN_STATUS_STATE p (if (bitsOf 8 v).isEmpty then ptnFree else ptnOpen)) p
    refine ⟨_, exec_ptnDiesWrite_free hl hp (by simpa using h), ?_, ?_⟩
    · exact (hkeep.fget (b := .ptn) (by decide) rfl p).trans
        ((State.fget_fset_other _ _ _ _ _ _ (Fld.key_ne_of_apart _ (by decide) _)).trans (s.fget_takeDies p v))
    · refine (hkeep.fget (b := .ptn) (by decide) rfl p).trans ((State.fget_fset_self _ _ _ _).trans ?_)
      cases bitsOf 8 v <;> rfl

/-! ### SEAL (R314, R420) -/

theorem exec_seal_service (hp : p < 8) (hl : s.locked p = false) (hs : (s.part p).sealing = false) (hm : s.fbit SVC_STATUS_MODE 0 = true) :
    exec (.seal p) s = .next (s.evtPtn PTN_EVENT_CONFLICT p) :=
  (if_neg (by simp [hl, hs, hp])).trans (if_pos hm)

theorem seal_refusedInService (hp : p < 8) (hl : s.locked p = false) (hs : (s.part p).sealing = false)
    (hm : s.fbit SVC_STATUS_MODE 0 = true) :
    Runs (.seal p) s (fun u => Raised u PTN_EVENT_CONFLICT p ∧ (u.part p).sealing = false ∧ u.ptnState p = s.ptnState p) :=
  ⟨_, exec_seal_service hp hl hs hm, State.fget_evtPtn_self _ _ _ (by decide),
    (PartsAgree.ofKeeps (f := Part.sealing) (s.evtPtn_keeps PTN_EVENT_CONFLICT p) (by decide) p).trans hs,
    State.fget_evtPtn_other _ _ _ _ _ (Fld.key_ne_of_apart _ (by decide) _)⟩

/-- The partition can be sealed: it has dies, each in P0 and READY, and an approved module knows its tenant (R420). -/
def State.sealable (s : State) (p : Nat) : Bool :=
  !((s.diesOf p).isEmpty
    || (s.diesOf p).any (fun d => s.fget DPM_STATUS_STATE d != 0 || s.dieDown d || !s.fbit FTL_STATUS_READY d)
    || (s.fbit SEC_STATUS_APPROVED 0 && (tget s.sec.tenants p).isNone))

theorem State.sealable_of {s : State} (hdies : s.diesOf p ≠ [])
    (hup : (s.diesOf p).all (fun d => s.fget DPM_STATUS_STATE d == 0 && !s.dieDown d && s.fbit FTL_STATUS_READY d) = true)
    (hten : s.fbit SEC_STATUS_APPROVED 0 = true → (tget s.sec.tenants p).isSome = true) : s.sealable p = true := by
  unfold State.sealable
  have hany : (s.diesOf p).any (fun d => s.fget DPM_STATUS_STATE d != 0 || s.dieDown d || !s.fbit FTL_STATUS_READY d) = false := by
    rw [List.any_eq_false]
    intro d hd
    have := List.all_eq_true.1 hup d hd
    simp_all
  cases ha : s.fbit SEC_STATUS_APPROVED 0 <;> simp_all

/-- The generation of a new key of a namespace (R421). -/
def State.freshGen (s : State) (p : Nat) : Nat := match tget s.sec.lastDead p with | some g => nextGen g | none => 1

/-- The key and its generation entered, and the partition's dies made ready for it. -/
def State.keyed (s : State) (p : Nat) : State :=
  let s' := { s with free := s.free + 1 }
  let s' := { s' with sec := { s'.sec with gens := tput s'.sec.gens p (s.freshGen p), keys := tput s'.sec.keys p (Config.random s.free) } }
  (s.diesOf p).foldl (fun s d => (s.scrubFirst d).restoreFreed d) s'

/-- The partition marked as being sealed. -/
def State.sealBegun (s : State) (p : Nat) : State := ((s.keyed p).fset PTN_CTRL_SEAL p 1).modPart p (fun x => { x with sealing := true })

theorem exec_seal_fresh (hp : p < 8) (hl : s.locked p = false) (hs : (s.part p).sealing = false) (hm : s.fbit SVC_STATUS_MODE 0 = false)
    (hok : s.sealable p = true) (hlive : (s.diesOf p).flatMap (fun d => s.liveKeys d p) = [])
    (hgen : s.genPending p (s.freshGen p) = false) :
    exec (.seal p) s = .next ((s.diesOf p).foldl (fun u d => u.writeNsKey d p (s.freshGen p) (Config.random s.free))
      (s.sealBegun p)) := by
  show execSeal p s = _
  unfold execSeal
  rw [if_neg (by simp [hl, hs, hp]), if_neg (by simp [hm]), if_neg (ne_true_of_eq_false (Bool.not_eq_eq_eq_not.1 hok))]
  rw [hlive]
  exact if_neg (ne_true_of_eq_false hgen)

/-! #### The keys of the namespaces -/

/-- The keys of the part, their generations and the generations destroyed last (R420, R421). -/
def State.keyring (s : State) : List (Nat × Nat) × List (Nat × Nat) × List (Nat × Nat) := (s.sec.keys, s.sec.gens, s.sec.lastDead)

theorem Keeps.keyring {m : Nat} {s t : State} (h : Keeps m s t) (hm : m.testBit 14 = false := by decide) : t.keyring = s.keyring := by
  unfold State.keyring
  rw [h.same .sec hm]

theorem State.record_keyring (s : State) : s.record.keyring = s.keyring := by
  unfold State.record
  split
  · rfl
  · split <;> rfl

theorem State.settleRemoval_keyring (s : State) (p : Nat) : (s.settleRemoval p).keyring = s.keyring := by
  unfold State.settleRemoval
  split
  · rfl
  · split
    · exact (State.evtPkg_keeps _ SEC_EVENT_PHYS_ERASED).keyring
    · rfl

theorem State.modRemovals_keyring (s : State) (f : Removal → Removal) : (s.modRemovals f).keyring = s.keyring :=
  (State.record_keyring _).trans (foldl_leaves State.keyring (fun u q => u.settleRemoval_keyring q) _ _)

theorem State.scrubFirst_keyring (s : State) (d : Nat) : (s.scrubFirst d).keyring = s.keyring := by
  unfold State.scrubFirst
  split
  · exact (State.modRemovals_keyring _ _).trans (s.scrubDie_keeps d).keyring
  · rfl

theorem State.keyed_keyring (s : State) (p : Nat) :
    (s.keyed p).keyring = (tput s.sec.keys p (Config.random s.free), tput s.sec.gens p (s.freshGen p), s.sec.lastDead) :=
  foldl_leaves State.keyring (fun u d => (State.restoreFreed_keeps _ d).keyring.trans (u.scrubFirst_keyring d)) _ _

theorem State.writeNsKeys_keeps (s : State) (l : List Nat) (p g k : Nat) :
    Keeps 0x200408449 s (l.foldl (fun u d => u.writeNsKey d p g k) s) :=
  Keeps.foldl _ l (fun u d => u.writeNsKey_keeps d p g k) (Keeps.refl s)

theorem seal_starts (hp : p < 8) (hl : s.locked p = false) (hs : (s.part p).sealing = false) (hm : s.fbit SVC_STATUS_MODE 0 = false)
    (hok : s.sealable p = true) (hlive : (s.diesOf p).flatMap (fun d => s.liveKeys d p) = [])
    (hgen : s.genPending p (s.freshGen p) = false) :
    Runs (.seal p) s (fun u =>
      (u.part p).sealing = true ∧ u.fget PTN_CTRL_SEAL p = 1 ∧ (tget u.sec.keys p).isSome = true ∧
        tget u.sec.gens p = some (s.freshGen p)) := by
  refine ⟨_, exec_seal_fresh hp hl hs hm hok hlive hgen, ?_⟩
  have hkeep := (s.sealBegun p).writeNsKeys_keeps (s.diesOf p) p (s.freshGen p) (Config.random s.free)
  have hring := hkeep.keyring.trans (s.keyed_keyring p)
  refine ⟨?_, ?_, ?_, ?_⟩
  · exact (PartsAgree.ofKeeps (f := Part.sealing) hkeep (by decide) p).trans (congrArg Part.sealing (State.modPart_part_self _ _ _))
  · exact (hkeep.fget (b := .ptn) (by decide) rfl p).trans (State.fget_fset_self (s.keyed p) PTN_CTRL_SEAL p 1)
  · exact (congrArg (fun x => (tget x.1 p).isSome) hring).trans (congrArg Option.isSome (tget_tput_self _ _ _))
  · exact (congrArg (fun x => tget x.2.1 p) hring).trans (tget_tput_self _ _ _)

end

/-! ### PTN_CTRL.RESET (R427, R517) -/

section
variable {s : State} {p : Nat}

/-- A partition's seal and generator off, and what waited for its ticks dropped. -/
def State.genOff (s : State) (p : Nat) : State :=
  ((s.fset PTN_CTRL_SEAL p 0).fset TIK_PERIOD_EN p 0).modPart p (fun x =>
    { x with genOn := false, sealing := false, lostGrads := [], evPkg := [] })

/-- The work of a partition stopped, its functions unbound and its generator off (R517 steps 1 to 3). -/
def State.stopPtn (s : State) (p : Nat) : State := (((s.fenceEligible p s.clk.tNs).2.dropWork p none).2.2.unbind p).genOff p

/-- A die's flash is to be replayed again. -/
def State.replayAgain (s : State) (d : Nat) : State :=
  let s := s.modFtl d (fun f => { f with restored := false })
  if s.fbit FTL_STATUS_READY d then (s.fset FTL_STATUS_READY d 0).fset FTL_STATUS_REPLAYING d 1
  else s

/-- The counts and event registers of a partition cleared, and its counter page with them (R517 step 5). -/
def State.clearPtn (s : State) (p : Nat) : State :=
  let s := (s.fset TIK_SCALE_NOW_SCALE p 0x1000).fset TIK_PINNED_PINNED p 0
  let s := (s.diesOf p).foldl (fun s d => s.clearCounts d) s
  let s := ((s.fset PTN_EVENT_CONFLICT p 0).fset PTN_EVENT_BIND_REFUSED p 0).clearPage p
  s.clearRegs (fun off _ => decide (0x80100 + p * 0x40 ≤ off) && decide (off < 0x80100 + (p + 1) * 0x40) && isW1c off 0)

/-- The dies of a partition scrubbed and its counts and event registers cleared (R517 steps 4 and 5). -/
def State.scrubPtn (s : State) (p : Nat) : State :=
  let dies := (s.diesOf p).filter (fun d => !s.dieDown d)
  dies.foldl (fun s d => s.replayAgain d) ((dies.foldl (fun s d => s.scrubDie d) s).clearPtn p)

theorem State.resetPtn_eq (hf : s.ptnState p ≠ ptnFree) (hr : s.ptnState p ≠ ptnRemoving) :
    s.resetPtn p = (((((s.modPart p (fun x => { x with resetDue := false })).stopPtn p).applyWrites p (fun _ => false)).takePeriod p).fset
      PTN_STATUS_STATE p ptnOpen).scrubPtn p :=
  if_neg (not_or.2 ⟨hf, hr⟩)

theorem State.fget_replayAgain (s : State) (d : Nat) {G : Fld} (hG : G.blk ≠ .ftl) (j : Nat) : (s.replayAgain d).fget G j = s.fget G j := by
  unfold State.replayAgain
  dsimp only
  split
  · rw [State.fget_fset_other _ _ _ _ _ _ (Fld.key_ne _ _ hG.symm), State.fget_fset_other _ _ _ _ _ _ (Fld.key_ne _ _ hG.symm)]
    rfl
  · rfl

theorem State.replayAgain_parts (s : State) (d : Nat) : (s.replayAgain d).parts = s.parts := by
  unfold State.replayAgain
  dsimp only
  split <;> rfl

/-- The fields of the package's registers that the clearing of partition `p` leaves: no scale, no event of its, not its counter page. -/
def clearKeeps (p : Nat) (G : Fld) (j : Nat) : Bool :=
  ofPackage (G.at_ j) && [TIK_SCALE_NOW_SCALE, TIK_PINNED_PINNED, PTN_EVENT_CONFLICT, PTN_EVENT_BIND_REFUSED].all (fun F => G.at_ j != F.at_ p)
    && (decide (G.at_ j < 0x80100) || decide (0x80300 ≤ G.at_ j))

theorem State.fget_clearPtn (s : State) (hp : p < 8) {G : Fld} {j : Nat} (h : clearKeeps p G j = true) :
    (s.clearPtn p).fget G j = s.fget G j := by
  unfold clearKeeps at h
  simp only [Bool.and_eq_true, List.all_cons, List.all_nil, bne_iff_ne, Bool.or_eq_true, decide_eq_true_eq] at h
  obtain ⟨⟨hpkg, hscale, hpin, hcon, hbind, -⟩, hpage⟩ := h
  unfold State.clearPtn
  extract_lets s2 s3 s4
  have h2 : s2.fget G j = s.fget G j :=
    (State.fget_fset_other _ _ _ _ _ _ (Fld.key_ne_of_at (Ne.symm hpin))).trans
      (State.fget_fset_other _ _ _ _ _ _ (Fld.key_ne_of_at (Ne.symm hscale)))
  have h3 : s3.fget G j = s2.fget G j :=
    foldl_leaves_of_mem (·.fget G j) (s2.diesOf p) (fun u d hd => u.fget_clearCounts (lt_of_mem_bitsOf hd) hpkg) s2
  have h4 : s4.fget G j = s3.fget G j :=
    (State.fget_fset_other (s3.fset PTN_EVENT_CONFLICT p 0) PTN_EVENT_BIND_REFUSED _ _ _ 0 (Fld.key_ne_of_at (Ne.symm hbind))).trans
      (State.fget_fset_other _ _ _ _ _ _ (Fld.key_ne_of_at (Ne.symm hcon)))
  refine (State.fget_clearRegs s4 _ G j).trans ((if_neg ?_).trans (h4.trans (h3.trans h2)))
  simp
  omega

theorem State.clearPtn_parts (s : State) (p : Nat) : (s.clearPtn p).parts = s.parts :=
  foldl_leaves (g := fun u d => u.clearCounts d) (·.parts) (fun _ _ => rfl) _ _

theorem State.fget_scrubPtn (s : State) (hp : p < 8) {G : Fld} {j : Nat} (hblk : G.blk = .ptn ∨ G.blk = .tik) (h : clearKeeps p G j = true) :
    (s.scrubPtn p).fget G j = s.fget G j := by
  have hscrub : ∀ (u : State) d, (u.scrubDie d).fget G j = u.fget G j := fun u d => by
    rcases hblk with e | e
    · exact (u.scrubDie_keeps d).fget (b := .ptn) (by decide) e j
    · exact (u.scrubDie_keeps d).fget (b := .tik) (by decide) e j
  have hftl : G.blk ≠ .ftl := by rcases hblk with e | e <;> rw [e] <;> decide
  exact (foldl_leaves (·.fget G j) (fun u d => u.fget_replayAgain d hftl j) _ _).trans
    ((State.fget_clearPtn _ hp h).trans (foldl_leaves (·.fget G j) hscrub _ s))

theorem State.scrubDie_partsAgree (s : State) (d : Nat) {α : Type} {f : Part → α} (hf : ∀ v l, f { v with ctxs := l } = f v) :
    PartsAgree f s (s.scrubDie d) := by
  unfold State.scrubDie
  extract_lets placed serial n s1 s2 s3 s4 s5 s6 s7
  have h3 : PartsAgree f s s3 := .ofParts rfl
  clear_value s3
  have h4 : PartsAgree f s s4 := h3.trans (.ofParts rfl)
  clear_value s4
  have h5 : PartsAgree f s s5 := h4.trans (.ofParts rfl)
  clear_value s5
  have h6 : PartsAgree f s s6 := h5.trans (.ofParts rfl)
  clear_value s6
  have h7 : PartsAgree f s s7 := h6.trans (.ofParts rfl)
  clear_value s7
  split
  · exact h7
  · exact h7.trans (.modPart _ _ fun v => hf v _)

theorem State.scrubPtn_partsAgree (s : State) (p : Nat) {α : Type} {f : Part → α} (hf : ∀ v l, f { v with ctxs := l } = f v) :
    PartsAgree f s (s.scrubPtn p) := by
  intro q
  have hscrub := foldl_leaves (fun u => f (u.part q)) (fun u d => u.scrubDie_partsAgree d hf q)
    ((s.diesOf p).filter (fun d => !s.dieDown d)) s
  have hclear := PartsAgree.ofParts (f := f) (State.clearPtn_parts (((s.diesOf p).filter (fun d => !s.dieDown d)).foldl (fun s d => s.scrubDie d) s) p) q
  exact (foldl_leaves (fun u => f (u.part q)) (fun u d => PartsAgree.ofParts (u.replayAgain_parts d) q) _ _).trans (hclear.trans hscrub)

/-! #### The generator off and the functions unbound -/

theorem State.fget_genOff_seal (s : State) (p : Nat) : (s.genOff p).fget PTN_CTRL_SEAL p = 0 :=
  (State.fget_fset_other (s.fset PTN_CTRL_SEAL p 0) TIK_PERIOD_EN PTN_CTRL_SEAL p p 0 (Fld.key_ne _ _ (by decide))).trans
    (State.fget_fset_self _ _ _ _)

theorem State.fget_genOff_en (s : State) (p : Nat) : (s.genOff p).fget TIK_PERIOD_EN p = 0 :=
  State.fget_fset_self (s.fset PTN_CTRL_SEAL p 0) TIK_PERIOD_EN p 0

theorem State.fget_genOff_other (s : State) (p : Nat) {G : Fld} {j : Nat} (hs : PTN_CTRL_SEAL.key p ≠ G.key j)
    (he : TIK_PERIOD_EN.key p ≠ G.key j) : (s.genOff p).fget G j = s.fget G j :=
  (State.fget_fset_other (s.fset PTN_CTRL_SEAL p 0) TIK_PERIOD_EN _ _ _ 0 he).trans (State.fget_fset_other _ _ _ _ _ _ hs)

theorem State.genOff_part (s : State) (p : Nat) : ((s.genOff p).part p).genOn = false ∧ ((s.genOff p).part p).sealing = false := by
  unfold State.genOff
  rw [State.modPart_part_self]
  exact ⟨rfl, rfl⟩

/-- The BIND register of a partition cleared. -/
def State.bindNone (s : State) (p : Nat) : State :=
  (((s.fset PTN_BIND_A_EN p 0).fset PTN_BIND_A_VF p 0).fset PTN_BIND_B_EN p 0).fset PTN_BIND_B_VF p 0

theorem State.fget_bindNone (s : State) (p : Nat) :
    (s.bindNone p).fget PTN_BIND_A_EN p = 0 ∧ (s.bindNone p).fget PTN_BIND_B_EN p = 0 := by
  unfold State.bindNone
  constructor
  · rw [State.fget_fset_other _ _ _ _ _ _ (Fld.key_ne_of_apart _ (by decide) _),
      State.fget_fset_other _ _ _ _ _ _ (Fld.key_ne_of_apart _ (by decide) _),
      State.fget_fset_other _ _ _ _ _ _ (Fld.key_ne_of_apart _ (by decide) _), State.fget_fset_self]
    rfl
  · rw [State.fget_fset_other _ _ _ _ _ _ (Fld.key_ne_of_apart _ (by decide) _), State.fget_fset_self]
    rfl

theorem State.fget_unbind (s : State) (p : Nat) : (s.unbind p).fget PTN_BIND_A_EN p = 0 ∧ (s.unbind p).fget PTN_BIND_B_EN p = 0 :=
  State.fget_bindNone _ p

/-! #### The reset as a whole -/

theorem State.ptnState_advanceTo (s : State) (t q : Nat) : (s.advanceTo t).ptnState q = s.ptnState q :=
  (s.advanceTo_keeps t).fget (b := .ptn) (by decide) rfl q

theorem clearKeeps_ptnFields (hp : p < 8) : clearKeeps p PTN_CTRL_SEAL p = true ∧ clearKeeps p PTN_STATUS_STATE p = true ∧
    clearKeeps p PTN_BIND_A_EN p = true ∧ clearKeeps p PTN_BIND_B_EN p = true ∧ clearKeeps p TIK_PERIOD_EN p = true := by
  have h : ∀ p < 8, clearKeeps p PTN_CTRL_SEAL p = true ∧ clearKeeps p PTN_STATUS_STATE p = true ∧
    clearKeeps p PTN_BIND_A_EN p = true ∧ clearKeeps p PTN_BIND_B_EN p = true ∧ clearKeeps p TIK_PERIOD_EN p = true := by decide
  exact h p hp

/-- The partition OPEN again, with what waited for its boundary in force (R517). -/
def State.openPtn (s : State) (p : Nat) : State := ((s.applyWrites p (fun _ => false)).takePeriod p).fset PTN_STATUS_STATE p ptnOpen

theorem State.fget_openPtn_other (s : State) (p : Nat) {G : Fld} {j : Nat} (h : PTN_STATUS_STATE.key p ≠ G.key j) :
    (s.openPtn p).fget G j = s.fget G j := State.fget_fset_other ((s.applyWrites p (fun _ => false)).takePeriod p) _ _ _ _ _ h

theorem State.openPtn_part (s : State) (p : Nat) :
    ((s.openPtn p).part p).genOn = (s.part p).genOn ∧ ((s.openPtn p).part p).sealing = (s.part p).sealing := by
  have h : (s.openPtn p).part p = ((s.applyWrites p (fun _ => false)).takePeriod p).part p := rfl
  rw [h]
  unfold State.takePeriod
  rw [State.modPart_part_self]
  exact ⟨rfl, rfl⟩

theorem resetPtn_opens (hp : p < 8) (hf : s.ptnState p ≠ ptnFree) (hr : s.ptnState p ≠ ptnRemoving) :
    (s.resetPtn p).ptnState p = ptnOpen ∧ (s.resetPtn p).fget PTN_CTRL_SEAL p = 0 ∧ (s.resetPtn p).fget TIK_PERIOD_EN p = 0 ∧
      (s.resetPtn p).fget PTN_BIND_A_EN p = 0 ∧ (s.resetPtn p).fget PTN_BIND_B_EN p = 0 ∧ ((s.resetPtn p).part p).genOn = false ∧
      ((s.resetPtn p).part p).sealing = false := by
  obtain ⟨kseal, kstate, ka, kb, ken⟩ := clearKeeps_ptnFields hp
  rw [State.resetPtn_eq hf hr]
  obtain ⟨w, hw⟩ : ∃ w : State, (s.modPart p (fun x => { x with resetDue := false })).stopPtn p = (w.unbind p).genOff p := ⟨_, rfl⟩
  rw [hw]
  obtain ⟨hgen, hsealing⟩ := (w.unbind p).genOff_part p
  obtain ⟨hogen, hosealing⟩ := ((w.unbind p).genOff p).openPtn_part p
  obtain ⟨ha, hb⟩ := w.fget_unbind p
  show (((w.unbind p).genOff p).openPtn p |>.scrubPtn p).fget PTN_STATUS_STATE p = ptnOpen ∧ _
  refine ⟨?_, ?_, ?_, ?_, ?_, ?_, ?_⟩
  · exact (State.fget_scrubPtn _ hp (.inl rfl) kstate).trans (State.fget_fset_self _ _ _ _)
  · exact (State.fget_scrubPtn _ hp (.inl rfl) kseal).trans
      ((State.fget_openPtn_other _ _ (Fld.key_ne_of_apart _ (by decide) _)).trans (State.fget_genOff_seal _ _))
  · exact (State.fget_scrubPtn _ hp (.inr rfl) ken).trans
      ((State.fget_openPtn_other _ _ (Fld.key_ne _ _ (by decide))).trans (State.fget_genOff_en _ _))
  · exact (State.fget_scrubPtn _ hp (.inl rfl) ka).trans
      ((State.fget_openPtn_other _ _ (Fld.key_ne_of_apart _ (by decide) _)).trans
        ((State.fget_genOff_other _ _ (Fld.key_ne_of_apart _ (by decide) _) (Fld.key_ne _ _ (by decide))).trans ha))
  · exact (State.fget_scrubPtn _ hp (.inl rfl) kb).trans
      ((State.fget_openPtn_other _ _ (Fld.key_ne_of_apart _ (by decide) _)).trans
        ((State.fget_genOff_other _ _ (Fld.key_ne_of_apart _ (by decide) _) (Fld.key_ne _ _ (by decide))).trans hb))
  · exact (State.scrubPtn_partsAgree (f := Part.genOn) _ p (fun _ _ => rfl) p).trans (hogen.trans hgen)
  · exact (State.scrubPtn_partsAgree (f := Part.sealing) _ p (fun _ _ => rfl) p).trans (hosealing.trans hsealing)

theorem partitionReset_opens (t : Nat) (hp : p < 8) (hf : s.ptnState p ≠ ptnFree) (hr : s.ptnState p ≠ ptnRemoving)
    (hg : (s.part p).genOn = false) :
    Runs (.partitionReset p t) s (fun u =>
      u.ptnState p = ptnOpen ∧ u.fget PTN_CTRL_SEAL p = 0 ∧ u.fget TIK_PERIOD_EN p = 0 ∧ u.fget PTN_BIND_A_EN p = 0 ∧
        u.fget PTN_BIND_B_EN p = 0 ∧ (u.part p).genOn = false ∧ (u.part p).sealing = false ∧ u.clk.tNs = max s.clk.tNs t) := by
  rw [← s.ptnState_advanceTo t] at hf hr
  have hex : exec (.partitionReset p t) s = .next ((s.advanceTo t).resetPtn p) := by
    refine (if_neg (by simp only [hf, hr, or_false]; omega)).trans (if_neg ?_)
    rw [State.advanceTo_part, hg]
    decide
  obtain ⟨hstate, hseal, hen, ha, hb, hgen, hsealing⟩ := resetPtn_opens hp hf hr
  refine ⟨_, hex, hstate, hseal, hen, ha, hb, hgen, hsealing, ?_⟩
  rw [((s.advanceTo t).resetPtn_keeps p).same .clk (by decide), State.advanceTo_tNs]

theorem partitionReset_waits (t : Nat) (hp : p < 8) (hf : s.ptnState p ≠ ptnFree) (hr : s.ptnState p ≠ ptnRemoving)
    (hg : (s.part p).genOn = true) :
    Runs (.partitionReset p t) s (fun u =>
      (u.part p).resetDue = true ∧ u.ptnState p = s.ptnState p ∧ (u.part p).genOn = true ∧ u.clk.tNs = max s.clk.tNs t) := by
  rw [← s.ptnState_advanceTo t] at hf hr
  have hex : exec (.partitionReset p t) s = .next ((s.advanceTo t).modPart p (fun x => { x with resetDue := true })) := by
    refine (if_neg (by simp only [hf, hr, or_false]; omega)).trans (if_pos ?_)
    rw [State.advanceTo_part, hg]
  refine ⟨_, hex, ?_, s.ptnState_advanceTo t p, ?_, s.advanceTo_tNs t⟩
  · rw [State.modPart_part_self]
  · rw [State.modPart_part_self, State.advanceTo_part]
    exact hg

end

/-! ### The removal of a tenant is accepted (R423, R427) -/

section
variable {s : State} {p : Nat}

/-- What the request of a removal fixes of its record. -/
def Removal.request (r : Removal) : RmSt × Option (Nat × Nat × Nat) × Bool × Nat × Nat := (r.st, r.desc, r.operator, r.dest, r.accepted)

/-- The owner counter, and what the request of the partition's removal fixed. -/
def State.rmRequest (s : State) (p : Nat) : Nat × Option (RmSt × Option (Nat × Nat × Nat) × Bool × Nat × Nat) :=
  (s.sec.ownerCtr, (tget s.sec.rms p).map Removal.request)

theorem Keeps.rmRequest {m : Nat} {t : State} (h : Keeps m s t) (p : Nat) (hm : m.testBit 14 = false := by decide) :
    t.rmRequest p = s.rmRequest p := by
  unfold State.rmRequest
  rw [h.same .sec hm]

theorem tget_tmod {α : Type} (t : List (Nat × α)) (k : Nat) (f : α → α) : tget (tmod t k f) k = (tget t k).map f := by
  cases h : tget t k with
  | none =>
    unfold tmod
    rw [h]
    exact h
  | some v => exact tget_tmod_self f h

theorem State.modRm_rmRequest (s : State) (p : Nat) {f : Removal → Removal} (hf : ∀ r, (f r).request = r.request) :
    (s.modRm p f).rmRequest p = s.rmRequest p := by
  unfold State.rmRequest State.modRm
  rw [tget_tmod, Option.map_map]
  exact congrArg (fun g => (s.sec.ownerCtr, (tget s.sec.rms p).map g)) (funext hf)

/-- A namespace's generation raised. -/
def State.putGen (s : State) (p g : Nat) : State := { s with sec := { s.sec with gens := tput s.sec.gens p g } }

theorem State.removalFence_rmRequest (s : State) (p : Nat) : (s.removalFence p).rmRequest p = s.rmRequest p := by
  unfold State.removalFence
  split
  · rfl
  · rename_i r _
    refine (State.modRm_rmRequest _ p ?_).trans ((State.dropWork_keeps (s.putGen p (nextGen r.oldGen)) p r.desc).rmRequest p)
    exact fun _ => rfl

theorem State.removalStop_rmRequest (s : State) (p t : Nat) : (s.removalStop p t).rmRequest p = s.rmRequest p := by
  unfold State.removalStop
  split
  · rfl
  · split
    · rfl
    · refine (State.modRm_rmRequest _ p ?_).trans ((State.removalFence_rmRequest _ p).trans
        ((State.modRm_rmRequest _ p ?_).trans ((s.fenceEligible_keeps p t).rmRequest p)))
      · exact fun _ => rfl
      · exact fun _ => rfl

/-- A removal's record entered. -/
def State.putRm (s : State) (p : Nat) (r : Removal) : State := { s with sec := { s.sec with rms := tput s.sec.rms p r } }

theorem State.putRm_rmRequest (s : State) (p : Nat) (r : Removal) : (s.putRm p r).rmRequest p = (s.sec.ownerCtr, some r.request) :=
  congrArg (fun x => (s.sec.ownerCtr, x.map Removal.request)) (tget_tput_self s.sec.rms p r)

/-- The removal entered in the log, and the partition REMOVING (R423). -/
def State.removalBegun (s : State) (p : Nat) (desc : Option (Nat × Nat × Nat)) (writer dest : Nat) : State :=
  let t := s.clk.tNs
  let old := match tget s.sec.rms p with | some r => r.erase | none => []
  let r : Removal :=
    { st := .removing, oldGen := s.genOf p, dies := s.fget PTN_DIES_DIES p, accepted := t, durable := false, operator := desc.isNone,
      desc := desc, writer := writer, dest := dest, step := 1, steps := [(t, t)], records := 0, descs := 0, bands := 0,
      partial_ := false, metaBands := [], scrub := [], destroy := [], erase := old }
  let s := s.putRm p r
  let s := s.partEvent p 0x81 0xFF (le 1 desc.isNone.toNat ++ le 1 r.oldGen ++ zeros 6 ++ le 8 t)
  (s.fset PTN_STATUS_STATE p ptnRemoving).fputAt SEC_RM_STATUS_REMOVING 0 p true

theorem State.removalStart_eq (s : State) (p : Nat) (desc : Option (Nat × Nat × Nat)) (writer dest : Nat) :
    s.removalStart p desc writer dest =
      let v := s.removalBegun p desc writer dest
      if s.ptnState p = ptnSealed ∧ (v.part p).genOn = true then v
      else
        let w := v.removalStop p s.clk.tNs
        if s.ptnState p = ptnSealed then w else w.modRm p (fun r => r.turn s.clk.tNs) := rfl

theorem State.removalBegun_rmRequest (s : State) (p : Nat) (desc : Option (Nat × Nat × Nat)) (writer dest : Nat) :
    (s.removalBegun p desc writer dest).rmRequest p = (s.sec.ownerCtr, some (.removing, desc, desc.isNone, dest, s.clk.tNs)) := by
  unfold State.removalBegun
  extract_lets t old r s1 s2
  have h2 : s2.rmRequest p = s1.rmRequest p := (s1.partEvent_keeps _ _ _ _).rmRequest p
  exact h2.trans (s.putRm_rmRequest p r)

theorem State.ptnState_removalBegun (s : State) (p : Nat) (desc : Option (Nat × Nat × Nat)) (writer dest : Nat) :
    (s.removalBegun p desc writer dest).ptnState p = ptnRemoving := by
  unfold State.removalBegun
  extract_lets t old r s1 s2
  exact (State.fget_fputAt_other _ _ _ _ _ _ _ (Fld.key_ne _ _ (by decide))).trans (State.fget_fset_self _ _ _ _)

theorem State.removalStart_rmRequest (s : State) (p : Nat) (desc : Option (Nat × Nat × Nat)) (writer dest : Nat) :
    (s.removalStart p desc writer dest).rmRequest p = (s.sec.ownerCtr, some (.removing, desc, desc.isNone, dest, s.clk.tNs)) := by
  rw [State.removalStart_eq]
  dsimp only
  have hv := s.removalBegun_rmRequest p desc writer dest
  have hw := (State.removalStop_rmRequest (s.removalBegun p desc writer dest) p s.clk.tNs).trans hv
  split
  · exact hv
  · split
    · exact hw
    · refine (State.modRm_rmRequest _ p ?_).trans hw
      exact fun _ => rfl

theorem State.ptnState_removalStart (s : State) (p : Nat) (desc : Option (Nat × Nat × Nat)) (writer dest : Nat) :
    (s.removalStart p desc writer dest).ptnState p = ptnRemoving := by
  rw [State.removalStart_eq]
  dsimp only
  have hv := s.ptnState_removalBegun p desc writer dest
  have hw := ((State.removalStop_keeps (s.removalBegun p desc writer dest) p s.clk.tNs).fget (b := .ptn) (by decide) rfl p).trans hv
  split
  · exact hv
  · split
    · exact hw
    · exact hw

theorem exists_removal_of_rmRequest {u : State} {c : Nat} {desc : Option (Nat × Nat × Nat)} {op : Bool} {dest acc : Nat}
    (h : u.rmRequest p = (c, some (.removing, desc, op, dest, acc))) :
    ∃ r, tget u.sec.rms p = some r ∧ r.st = .removing ∧ r.desc = desc ∧ r.operator = op ∧ r.dest = dest ∧ r.accepted = acc := by
  obtain ⟨r, hr, hreq⟩ := Option.map_eq_some_iff.1 (congrArg Prod.snd h)
  refine ⟨r, hr, ?_⟩
  unfold Removal.request at hreq
  simpa using hreq

theorem tenantRemove_starts {q : Desc} (dest t : Nat) (ho : Open q s) :
    Runs (.tenantRemove q dest t) s (fun u =>
      u.ptnState q.part = ptnRemoving ∧ (∃ r, tget u.sec.rms q.part = some r ∧ r.st = .removing ∧ r.desc = some (q.fn, q.sq, q.index) ∧
        r.operator = false ∧ r.dest = dest ∧ r.accepted = max s.clk.tNs t)) := by
  have hex : exec (.tenantRemove q dest t) s =
      .next (((s.advanceTo t).begin q 0x14 dest).removalStart q.part (some (q.fn, q.sq, q.index)) q.fn dest) :=
    congrArg Host.Outcome.next (runDesc_open _ q _ _ _ (ho.advanceTo t))
  refine ⟨_, hex, State.ptnState_removalStart _ _ _ _ _, ?_⟩
  have hreq := State.removalStart_rmRequest ((s.advanceTo t).begin q 0x14 dest) q.part (some (q.fn, q.sq, q.index)) q.fn dest
  rw [((s.advanceTo t).begin_keeps q 0x14 dest).same .clk (by decide), State.advanceTo_tNs] at hreq
  exact exists_removal_of_rmRequest hreq

/-! #### REMOVE over the mailbox (R455) -/

/-- An object under way in the mailbox, its counter taken (R455). -/
def State.mboxTaken (s : State) (n : Nat) : State :=
  let s := (s.fset SEC_MBOX_STATUS_DONE 0 0).fset SEC_MBOX_STATUS_BUSY 0 1
  { s with sec := { s.sec with ownerCtr := n } }

theorem State.mailbox_accepts {obj : MboxObj} {signed : Bool} {st : Nat} {v : State} {go : State → Option Nat × State}
    (hb : s.fbit SEC_MBOX_STATUS_BUSY 0 = false) (hread : obj.readable = true) (hform : obj.wellFormed = true)
    (hser : obj.serialOk = true) (hctr : s.sec.ownerCtr < obj.counter) (hsig : obj.sigOk = true) (hown : s.fget SEC_FUSE_OWNER 0 ≠ 0)
    (hgo : go (s.mboxTaken obj.counter) = (some st, v)) :
    s.mailbox obj signed go = v.record.mboxDone st := by
  have hown' : ((s.fset SEC_MBOX_STATUS_DONE 0 0).fset SEC_MBOX_STATUS_BUSY 0 1).fget SEC_FUSE_OWNER 0 ≠ 0 := by
    rwa [State.fget_fset_other _ _ _ _ _ _ (Fld.key_ne_of_apart _ (by decide) _),
      State.fget_fset_other _ _ _ _ _ _ (Fld.key_ne_of_apart _ (by decide) _)]
  have hauth : (!obj.serialOk || decide (obj.counter ≤ s.sec.ownerCtr) || !obj.sigOk
      || (signed && ((s.fset SEC_MBOX_STATUS_DONE 0 0).fset SEC_MBOX_STATUS_BUSY 0 1).fget SEC_FUSE_OWNER 0 == 0)) = false := by
    simp [hser, hsig, hctr, hown']
  unfold State.mailbox
  rw [if_neg (by simp [hb]), if_neg (by simp [hread, hform])]
  refine (if_neg (ne_true_of_eq_false hauth)).trans ?_
  show (match go (s.mboxTaken obj.counter) with
    | (some st, s) => s.record.mboxDone st
    | (none, s) => s.record) = _
  rw [hgo]

theorem State.fget_mboxDone (s : State) (st : Nat) : (s.mboxDone st).fget SEC_MBOX_STATUS_STATUS 0 = st % 256 ∧
    (s.mboxDone st).fget SEC_MBOX_STATUS_DONE 0 = 1 ∧ (s.mboxDone st).fget SEC_MBOX_STATUS_BUSY 0 = 0 := by
  unfold State.mboxDone
  refine ⟨?_, ?_, ?_⟩
  · rw [State.fget_evtPkg_other _ _ _ _ (Fld.key_ne_of_apart _ (by decide) _),
      State.fget_fset_other _ _ _ _ _ _ (Fld.key_ne_of_apart _ (by decide) _),
      State.fget_fset_other _ _ _ _ _ _ (Fld.key_ne_of_apart _ (by decide) _), State.fget_fset_self]
    rfl
  · rw [State.fget_evtPkg_other _ _ _ _ (Fld.key_ne_of_apart _ (by decide) _),
      State.fget_fset_other _ _ _ _ _ _ (Fld.key_ne_of_apart _ (by decide) _), State.fget_fset_self]
    rfl
  · rw [State.fget_evtPkg_other _ _ _ _ (Fld.key_ne_of_apart _ (by decide) _), State.fget_fset_self]
    rfl

theorem State.record_rmRequest (s : State) (p : Nat) : s.record.rmRequest p = s.rmRequest p := by
  unfold State.record
  split
  · rfl
  · split <;> rfl

theorem remove_starts {port dest t : Nat} {obj : MboxObj} (hport : port < 2) (hb : s.fbit SEC_MBOX_STATUS_BUSY 0 = false)
    (hread : obj.readable = true) (hform : obj.wellFormed = true) (hser : obj.serialOk = true) (hctr : s.sec.ownerCtr < obj.counter)
    (hsig : obj.sigOk = true) (hown : s.fget SEC_FUSE_OWNER 0 ≠ 0) (hp : p < 8) (hf : s.ptnState p ≠ ptnFree)
    (hr : s.ptnState p ≠ ptnRemoving) :
    Runs (.remove port obj p dest t) s (fun u =>
      u.fget SEC_MBOX_STATUS_STATUS 0 = stOK ∧ u.fget SEC_MBOX_STATUS_DONE 0 = 1 ∧ u.fget SEC_MBOX_STATUS_BUSY 0 = 0 ∧
        Raised u SEC_EVENT_MBOX_DONE 0 ∧ u.sec.ownerCtr = obj.counter ∧ u.ptnState p = ptnRemoving ∧
        (∃ r, tget u.sec.rms p = some r ∧ r.st = .removing ∧ r.desc = none ∧ r.operator = true ∧ r.dest = dest ∧
          r.accepted = max s.clk.tNs t)) := by
  have hsec : (s.advanceTo t).sec = s.sec := (s.advanceTo_keeps t).same .sec (by decide)
  have hfget : ∀ G : Fld, G.blk = .sec → ∀ j, (s.advanceTo t).fget G j = s.fget G j := fun G hG j =>
    (s.advanceTo_keeps t).fget (b := .sec) (by decide) hG j
  set a := s.advanceTo t with ha
  set w := a.mboxTaken obj.counter with hw
  have hstate : w.ptnState p = s.ptnState p := by
    refine Eq.trans ?_ (s.ptnState_advanceTo t p)
    exact (State.fget_fset_other (a.fset SEC_MBOX_STATUS_DONE 0 0) SEC_MBOX_STATUS_BUSY _ _ _ 1 (Fld.key_ne _ _ (by decide))).trans
      (State.fget_fset_other _ _ _ _ _ _ (Fld.key_ne _ _ (by decide)))
  have hgo : (if 8 ≤ p then (some stMALFORMED, w) else if w.ptnState p = ptnFree ∨ w.ptnState p = ptnRemoving then (some stNOT_READY, w)
      else (some stOK, w.removalStart p none (16 + port) dest)) = (some stOK, w.removalStart p none (16 + port) dest) := by
    rw [if_neg (by omega), if_neg (by rw [hstate]; exact not_or.2 ⟨hf, hr⟩)]
  have hex : exec (.remove port obj p dest t) s = .next ((w.removalStart p none (16 + port) dest).record.mboxDone stOK) := by
    refine (if_neg (by omega)).trans (congrArg Host.Outcome.next ?_)
    exact State.mailbox_accepts (by rw [State.fbit, hfget _ rfl]; exact hb) hread hform hser (by rw [hsec]; exact hctr) hsig
      (by rw [hfget _ rfl]; exact hown) hgo
  obtain ⟨hst, hdone, hbusy⟩ := State.fget_mboxDone ((w.removalStart p none (16 + port) dest).record) stOK
  have hreq : (((w.removalStart p none (16 + port) dest).record).mboxDone stOK).rmRequest p =
      (obj.counter, some (.removing, none, true, dest, max s.clk.tNs t)) := by
    rw [(State.mboxDone_keeps _ stOK).rmRequest p, State.record_rmRequest, State.removalStart_rmRequest]
    rw [← s.advanceTo_tNs t]
    rfl
  refine ⟨_, hex, hst, hdone, hbusy, State.fget_evtPkg_self _ _ (by decide), congrArg Prod.fst hreq, ?_, exists_removal_of_rmRequest hreq⟩
  exact ((State.mboxDone_keeps _ stOK).fget (b := .ptn) (by decide) rfl p).trans
    (((State.record_keeps _).fget (b := .ptn) (by decide) rfl p).trans (State.ptnState_removalStart _ _ _ _ _))

end

/-! ### The steps of a removal end (R424) -/

section
variable {s : State} {p : Nat} {x : Nat × Bool × RmSt × Nat}

/-- How far a removal is, and the generation it destroys. -/
def Removal.progress (r : Removal) : Nat × Bool × RmSt × Nat := (r.step, r.durable, r.st, r.oldGen)

/-- How far the partition's removal is. -/
def State.rmProgress (s : State) (p : Nat) : Option (Nat × Bool × RmSt × Nat) := (tget s.sec.rms p).map Removal.progress

theorem Keeps.rmProgress {m : Nat} {t : State} (h : Keeps m s t) (p : Nat) (hm : m.testBit 14 = false := by decide) :
    t.rmProgress p = s.rmProgress p := by
  unfold State.rmProgress
  rw [h.same .sec hm]

theorem State.modRm_rmProgress (s : State) (p : Nat) {f : Removal → Removal} (hf : ∀ r, (f r).progress = r.progress) :
    (s.modRm p f).rmProgress p = s.rmProgress p := by
  unfold State.rmProgress State.modRm
  rw [tget_tmod, Option.map_map]
  exact congrArg (fun g => (tget s.sec.rms p).map g) (funext hf)

theorem State.record_rmProgress (s : State) (p : Nat) : s.record.rmProgress p = s.rmProgress p := by
  unfold State.record
  split
  · rfl
  · split <;> rfl

/-- A removal that still runs is not settled (R424, R428). -/
theorem State.settleRemoval_rmProgress (q : Nat) (h : s.rmProgress p = some x) (hx : x.2.2.1 = .removing) :
    (s.settleRemoval q).rmProgress p = some x := by
  unfold State.settleRemoval
  split
  · exact h
  · rename_i r hr
    split
    · rename_i hdone
      have hqp : q ≠ p := by
        rintro rfl
        unfold State.rmProgress at h
        rw [hr] at h
        obtain rfl := Option.some.inj h
        exact absurd (hdone.1.symm.trans hx) (by decide)
      refine ((State.evtPkg_keeps _ SEC_EVENT_PHYS_ERASED).rmProgress p).trans ?_
      exact (congrArg (Option.map Removal.progress) (tget_tput_other s.sec.rms { r with st := .done } hqp)).trans h
    · exact h

theorem tget_tmap {α : Type} (f : Nat → α → α) (t : List (Nat × α)) (k : Nat) : tget (tmap f t) k = (tget t k).map (f k) := by
  induction t with
  | nil => rfl
  | cons e r ih =>
    unfold tmap tget
    split
    next he => exact congrArg (fun j => some (f j e.2)) he
    next => exact ih

theorem State.modRemovals_rmProgress {f : Removal → Removal} (hf : ∀ r, (f r).progress = r.progress) (h : s.rmProgress p = some x)
    (hx : x.2.2.1 = .removing) : (s.modRemovals f).rmProgress p = some x := by
  refine (State.record_rmProgress _ p).trans ?_
  refine List.foldlRecOn (motive := fun u => State.rmProgress u p = some x) (List.range 8) _ ?_ (fun u hu q _ => State.settleRemoval_rmProgress q hu hx)
  refine Eq.trans ?_ h
  unfold State.rmProgress
  rw [tget_tmap, Option.map_map]
  exact congrArg (fun g => (tget s.sec.rms p).map g) (funext hf)

/-! #### Steps 3 and 4 -/

theorem State.physErased_rmProgress (d : Nat) (h : s.rmProgress p = some x) (hx : x.2.2.1 = .removing) :
    (s.physErased d).rmProgress p = some x :=
  State.modRemovals_rmProgress (fun r => by split <;> rfl) h hx

theorem State.removalScrub_rmProgress (s : State) (p : Nat) : (s.removalScrub p).rmProgress p = s.rmProgress p := by
  unfold State.removalScrub
  split
  · rfl
  · refine (State.modRm_rmProgress _ p ?_).trans (foldl_leaves (·.rmProgress p) (fun u d => (u.scrubDie_keeps d).rmProgress p) _ s)
    exact fun _ => rfl

/-- One die's part of step 5: the key destroyed there, and the die erased at once where nothing of it is left. -/
def State.eraseOn (s : State) (d p g : Nat) : State :=
  if (((s.cryptoErase d p g).2.ftl d).dead) = [] then (s.cryptoErase d p g).2.physErased d else (s.cryptoErase d p g).2

theorem State.eraseOn_keyring (s : State) (d p g : Nat) : (s.eraseOn d p g).keyring = s.keyring := by
  have h : (s.cryptoErase d p g).2.keyring = s.keyring := (s.cryptoErase_keeps d p g).keyring
  unfold State.eraseOn
  split
  · exact (State.modRemovals_keyring _ _).trans h
  · exact h

theorem State.eraseOn_rmProgress (d g : Nat) (h : s.rmProgress p = some x) (hx : x.2.2.1 = .removing) :
    (s.eraseOn d p g).rmProgress p = some x := by
  have hc : (s.cryptoErase d p g).2.rmProgress p = some x := ((s.cryptoErase_keeps d p g).rmProgress p).trans h
  unfold State.eraseOn
  split
  · exact State.physErased_rmProgress d hc hx
  · exact hc

/-- The module's copies of the partition's key zeroized (R424 step 5). -/
def State.keyGone (s : State) (p g : Nat) : State :=
  { s with sec := { s.sec with keys := tdel s.sec.keys p, lastDead := tput s.sec.lastDead p g } }

/-- The META bands still to be erased, with one die more. -/
def State.eraseMore (p g : Nat) (acc : List (Nat × Nat) × State) (d : Nat) : List (Nat × Nat) × State :=
  (acc.1 ++ (acc.2.cryptoErase d p g).1.map (fun b => (d, b)), acc.2.eraseOn d p g)

theorem State.eraseMore_snd (p g : Nat) (acc : List (Nat × Nat) × State) (d : Nat) :
    (State.eraseMore p g acc d).2 = acc.2.eraseOn d p g := by
  rw [State.eraseMore]

/-- The dies of a removal on which its key can be destroyed now. -/
def State.eraseUp (s : State) (r : Removal) : List Nat := (bitsOf 8 r.dies).filter (fun d => !s.dieDown d && s.fbit FTL_STATUS_READY d)

/-- The dies on which a removal's key cannot be destroyed yet. -/
def State.eraseDown (s : State) (r : Removal) : List Nat := (bitsOf 8 r.dies).filter (fun d => !(s.eraseUp r).contains d)

/-- The record of a removal when its step 5 begins. -/
def Removal.erasing (x r : Removal) (down : List Nat) : Removal :=
  { x with destroy := down, erase := bitsOf 8 r.dies, partial_ := x.partial_ || !down.isEmpty }

theorem State.removalErase_eq {r : Removal} (hr : tget s.sec.rms p = some r) :
    s.removalErase p =
      let acc := (s.eraseUp r).foldl (State.eraseMore p r.oldGen) ([], (s.keyGone p r.oldGen).modRm p (fun x => x.erasing r (s.eraseDown r)))
      acc.2.modRm p (fun x => { x with metaBands := acc.1 }) := by
  unfold State.removalErase
  rw [hr]
  rfl

theorem State.removalErase_stands {r : Removal} (hr : tget s.sec.rms p = some r) (hst : r.st = .removing) :
    (s.removalErase p).rmProgress p = some r.progress ∧ tget (s.removalErase p).sec.keys p = none ∧
      tget (s.removalErase p).sec.lastDead p = some r.oldGen := by
  have hprog : (s.keyGone p r.oldGen).rmProgress p = some r.progress := congrArg (Option.map Removal.progress) hr
  obtain ⟨hp, hk⟩ := List.foldlRecOn
    (motive := fun b : List (Nat × Nat) × State => b.2.rmProgress p = some r.progress ∧ b.2.keyring = (s.keyGone p r.oldGen).keyring)
    (s.eraseUp r) (State.eraseMore p r.oldGen) (b := ([], (s.keyGone p r.oldGen).modRm p (fun x => x.erasing r (s.eraseDown r))))
    ⟨(State.modRm_rmProgress _ p (f := fun x => x.erasing r (s.eraseDown r)) fun _ => rfl).trans hprog, rfl⟩
    (fun b ⟨hp, hk⟩ d _ => by
      rw [State.eraseMore_snd]
      exact ⟨State.eraseOn_rmProgress d r.oldGen hp hst, (State.eraseOn_keyring b.2 d p r.oldGen).trans hk⟩)
  rw [State.removalErase_eq hr]
  dsimp only
  generalize (s.eraseUp r).foldl (State.eraseMore p r.oldGen) _ = acc at hp hk ⊢
  refine ⟨(State.modRm_rmProgress _ p ?_).trans hp, (congrArg (fun k => tget k.1 p) hk).trans (tget_tdel_self _ _),
    (congrArg (fun k => tget k.2.2 p) hk).trans (tget_tput_self _ _ _)⟩
  exact fun _ => rfl

/-- A removal's record durable, as the end of a step leaves it (R424). -/
def State.stepDurable (s : State) (p : Nat) : State := (s.modRm p (fun r => { r with durable := true })).record

theorem State.record_rms (s : State) : s.record.sec.rms = s.sec.rms := by
  unfold State.record
  split
  · rfl
  · split <;> rfl

theorem State.stepDurable_rm {r : Removal} (hr : tget s.sec.rms p = some r) :
    tget (s.stepDurable p).sec.rms p = some { r with durable := true } := by
  unfold State.stepDurable
  rw [State.record_rms]
  exact (tget_tmod s.sec.rms p _).trans (congrArg (Option.map _) hr)

theorem exec_removalStepEnd {r : Removal} (t : Nat) (hr : tget s.sec.rms p = some r) (hst : r.st = .removing) :
    exec (.removalStepEnd p t) s =
      let v := (s.advanceTo t).stepDurable p
      if r.step = 3 then .next (v.modRm p (fun r => r.turn v.clk.tNs))
      else if r.step = 4 then .next (((v.removalScrub p).modRm p (fun r => r.turn v.clk.tNs)).removalErase p)
      else if r.step = 5 ∧ r.metaBands = [] then .next (v.removalEnd p)
      else .next v := by
  have hr' : tget (s.advanceTo t).sec.rms p = some r := by
    rw [(s.advanceTo_keeps t).same .sec (by decide)]
    exact hr
  show execRemovalStepEnd p t s = _
  unfold execRemovalStepEnd
  dsimp only
  rw [hr']
  exact if_neg (not_not.2 hst)

theorem exists_removal_of_rmProgress {u : State} (h : u.rmProgress p = some x) :
    ∃ r, tget u.sec.rms p = some r ∧ r.step = x.1 ∧ r.durable = x.2.1 ∧ r.st = x.2.2.1 ∧ r.oldGen = x.2.2.2 := by
  obtain ⟨r, hr, rfl⟩ := Option.map_eq_some_iff.1 h
  exact ⟨r, hr, rfl, rfl, rfl, rfl⟩

theorem removalStepEnd_goesOn {r : Removal} (t : Nat) (hr : tget s.sec.rms p = some r) (hst : r.st = .removing)
    (hstep : r.step = 3 ∨ r.step = 4) :
    Runs (.removalStepEnd p t) s (fun u =>
      (∃ x, tget u.sec.rms p = some x ∧ x.step = r.step + 1 ∧ x.durable = true ∧ x.st = .removing) ∧
        (r.step = 4 → tget u.sec.keys p = none ∧ tget u.sec.lastDead p = some r.oldGen)) := by
  have hv : tget ((s.advanceTo t).stepDurable p).sec.rms p = some { r with durable := true } := by
    refine State.stepDurable_rm ?_
    rw [(s.advanceTo_keeps t).same .sec (by decide)]
    exact hr
  have hex := exec_removalStepEnd t hr hst
  dsimp only at hex
  generalize (s.advanceTo t).stepDurable p = v at hv hex
  rcases hstep with h3 | h4
  · rw [if_pos h3] at hex
    refine ⟨_, hex, ⟨_, (tget_tmod v.sec.rms p _).trans (congrArg (Option.map _) hv), rfl, rfl, hst⟩, fun h => absurd (h3.symm.trans h) (by decide)⟩
  · rw [if_neg (by omega), if_pos h4] at hex
    have hscrub : (v.removalScrub p).rmProgress p = some (r.step, true, r.st, r.oldGen) :=
      (v.removalScrub_rmProgress p).trans (congrArg (Option.map Removal.progress) hv)
    obtain ⟨y, hy, hstep, hdur, hsty, hgen⟩ := exists_removal_of_rmProgress hscrub
    have hturn : tget ((v.removalScrub p).modRm p (fun r => r.turn v.clk.tNs)).sec.rms p = some (y.turn v.clk.tNs) :=
      (tget_tmod _ p _).trans (congrArg (Option.map _) hy)
    obtain ⟨hprog, hkeys, hdead⟩ := State.removalErase_stands hturn (hsty.trans hst)
    obtain ⟨x, hx, hxstep, hxdur, hxst, -⟩ := exists_removal_of_rmProgress hprog
    refine ⟨_, hex, ⟨x, hx, ?_, hxdur.trans hdur, hxst.trans (hsty.trans hst)⟩, fun _ => ⟨hkeys, hdead.trans (congrArg some hgen)⟩⟩
    exact hxstep.trans (congrArg (· + 1) hstep)

/-! #### Step 5, and the partition FREE (R424, R428) -/

/-- The partition FREE: no die, no context and no tenant (R424). -/
def State.freePtn (s : State) (p : Nat) : State :=
  let s := ((s.fset PTN_DIES_DIES p 0).fset PTN_CTRL_SEAL p 0).fset PTN_STATUS_STATE p ptnFree
  let s := s.modPart p (fun x => { x with ctxs := [], lostGrads := [], sealing := false, outst := [] })
  let s := { s with sec := { s.sec with tenants := tdel s.sec.tenants p } }
  (s.fputAt SEC_RM_STATUS_REMOVING 0 p false).fputAt SEC_RM_STATUS_ERASE_PENDING 0 p true

theorem State.removalEnd_eq {r : Removal} (hr : tget s.sec.rms p = some r) :
    ∃ w : State, s.removalEnd p = ((w.freePtn p).settleRemoval p).record := by
  unfold State.removalEnd
  rw [hr]
  exact ⟨_, rfl⟩

theorem testBit_setBit_false (v k : Nat) : (setBit v k false).testBit k = false := by
  unfold setBit
  split
  · assumption
  · rename_i h
    have h1 : v.testBit k = true := by simpa using h
    rw [if_neg (by decide)]
    have hle : 2 ^ k ≤ v := Nat.ge_two_pow_of_testBit h1
    have := Nat.testBit_two_pow_add_eq (v - 2 ^ k) k
    rw [Nat.add_sub_cancel' hle, h1] at this
    simpa using this

theorem State.fbitAt_fputAt_false (s : State) (F : Fld) (i k : Nat) : (s.fputAt F i k false).fbitAt F i k = false := by
  unfold State.fbitAt State.fputAt
  rw [State.fget_fset_self, Nat.testBit_mod_two_pow, testBit_setBit_false, Bool.and_false]

theorem State.fget_freePtn (s : State) (p : Nat) : (s.freePtn p).ptnState p = ptnFree ∧ (s.freePtn p).fget PTN_DIES_DIES p = 0 ∧
    (s.freePtn p).fget PTN_CTRL_SEAL p = 0 := by
  have h : ∀ G : Fld, G.blk = .ptn → (s.freePtn p).fget G p =
      (((s.fset PTN_DIES_DIES p 0).fset PTN_CTRL_SEAL p 0).fset PTN_STATUS_STATE p ptnFree).fget G p := by
    intro G hG
    have hne : ∀ F : Fld, F.blk = .sec → F.key 0 ≠ G.key p := fun F hF => Fld.key_ne _ _ (by rw [hF, hG]; decide)
    unfold State.freePtn
    dsimp only
    rw [State.fget_fputAt_other _ _ _ _ _ _ _ (hne SEC_RM_STATUS_ERASE_PENDING rfl),
      State.fget_fputAt_other _ _ _ _ _ _ _ (hne SEC_RM_STATUS_REMOVING rfl)]
    rfl
  refine ⟨?_, ?_, ?_⟩
  · exact (h _ rfl).trans (State.fget_fset_self _ _ _ _)
  · rw [h _ rfl, State.fget_fset_other _ _ _ _ _ _ (Fld.key_ne_of_apart _ (by decide) _),
      State.fget_fset_other _ _ _ _ _ _ (Fld.key_ne_of_apart _ (by decide) _), State.fget_fset_self]
    rfl
  · rw [h _ rfl, State.fget_fset_other _ _ _ _ _ _ (Fld.key_ne_of_apart _ (by decide) _), State.fget_fset_self]
    rfl

theorem State.fbitAt_freePtn (s : State) (p : Nat) : (s.freePtn p).fbitAt SEC_RM_STATUS_REMOVING 0 p = false := by
  unfold State.freePtn
  extract_lets s1 s2 x s3
  unfold State.fbitAt
  rw [State.fget_fputAt_other _ _ _ _ _ _ _ (Fld.key_ne_of_apart _ (by decide) _)]
  exact State.fbitAt_fputAt_false s3 _ _ _

theorem State.freePtn_ctxs (s : State) (p : Nat) : ((s.freePtn p).part p).ctxs = [] := by
  have h : (s.freePtn p).parts = ((((s.fset PTN_DIES_DIES p 0).fset PTN_CTRL_SEAL p 0).fset PTN_STATUS_STATE p ptnFree).modPart p
    (fun x => { x with ctxs := [], lostGrads := [], sealing := false, outst := [] })).parts := rfl
  unfold State.part
  rw [h]
  exact congrArg Part.ctxs (State.modPart_part_self _ _ _)

/-- A removal's log entry is settled, or nothing changes. -/
theorem State.settleRemoval_cases (s : State) (q : Nat) : s.settleRemoval q = s ∨
    ∃ r, s.settleRemoval q = ((s.putRm q r).fputAt SEC_RM_STATUS_ERASE_PENDING 0 q false).evtPkg SEC_EVENT_PHYS_ERASED := by
  unfold State.settleRemoval
  split
  · exact .inl rfl
  · split
    · exact .inr ⟨_, rfl⟩
    · exact .inl rfl

theorem State.settleRemoval_tenants (s : State) (q : Nat) : (s.settleRemoval q).sec.tenants = s.sec.tenants := by
  rcases s.settleRemoval_cases q with h | ⟨r, h⟩ <;> rw [h]
  rw [(State.evtPkg_keeps _ SEC_EVENT_PHYS_ERASED).same .sec (by decide)]
  rfl

theorem State.record_tenants (s : State) : s.record.sec.tenants = s.sec.tenants := by
  unfold State.record
  split
  · rfl
  · split <;> rfl

theorem State.evtPkg_ctxs (s : State) (F : Fld) : PartsAgree Part.ctxs s (s.evtPkg F) := by
  intro q
  unfold State.evtPkg
  split
  · rfl
  · extract_lets s1 note
    have hnote : ∀ u p, ((note u p).part q).ctxs = (u.part q).ctxs := fun u p => by
      unfold note
      split
      · refine PartsAgree.modPart (f := Part.ctxs) u p ?_ q
        exact fun _ => rfl
      · rfl
    clear_value note
    exact foldl_leaves (g := note) (fun u => (u.part q).ctxs) hnote (List.range 8) s1

theorem State.settleRemoval_ctxs (s : State) (q : Nat) : PartsAgree Part.ctxs s (s.settleRemoval q) := by
  rcases s.settleRemoval_cases q with h | ⟨r, h⟩ <;> rw [h]
  · exact .refl s
  · exact PartsAgree.trans (.ofParts rfl) (State.evtPkg_ctxs _ _)

theorem State.settleRemoval_removing (s : State) (q : Nat) :
    (s.settleRemoval q).fget SEC_RM_STATUS_REMOVING 0 = s.fget SEC_RM_STATUS_REMOVING 0 := by
  rcases s.settleRemoval_cases q with h | ⟨r, h⟩ <;> rw [h]
  rw [State.fget_evtPkg_other _ _ _ _ (Fld.key_ne_of_apart _ (by decide) _),
    State.fget_fputAt_other _ _ _ _ _ _ _ (Fld.key_ne_of_apart _ (by decide) _)]
  rfl

theorem removalStepEnd_frees {r : Removal} (t : Nat) (hr : tget s.sec.rms p = some r) (hst : r.st = .removing) (hstep : r.step = 5)
    (hmeta : r.metaBands = []) :
    Runs (.removalStepEnd p t) s (fun u =>
      u.ptnState p = ptnFree ∧ u.fget PTN_DIES_DIES p = 0 ∧ u.fget PTN_CTRL_SEAL p = 0 ∧ (u.part p).ctxs = [] ∧
        tget u.sec.tenants p = none ∧ u.fbitAt SEC_RM_STATUS_REMOVING 0 p = false) := by
  have hv : tget ((s.advanceTo t).stepDurable p).sec.rms p = some { r with durable := true } := by
    refine State.stepDurable_rm ?_
    rw [(s.advanceTo_keeps t).same .sec (by decide)]
    exact hr
  obtain ⟨w, hw⟩ := State.removalEnd_eq hv
  have hex := exec_removalStepEnd t hr hst
  dsimp only at hex
  rw [if_neg (by omega), if_neg (by omega), if_pos ⟨hstep, hmeta⟩, hw] at hex
  obtain ⟨hstate, hdies, hseal⟩ := w.fget_freePtn p
  have hptn : ∀ G : Fld, G.blk = .ptn → (((w.freePtn p).settleRemoval p).record).fget G p = (w.freePtn p).fget G p := fun G hG =>
    ((State.record_keeps _).fget (b := .ptn) (by decide) hG p).trans ((State.settleRemoval_keeps _ p).fget (b := .ptn) (by decide) hG p)
  refine ⟨_, hex, (hptn _ rfl).trans hstate, (hptn _ rfl).trans hdies, (hptn _ rfl).trans hseal, ?_, ?_, ?_⟩
  · exact (PartsAgree.ofKeeps (f := Part.ctxs) (State.record_keeps _) (by decide) p).trans
      ((State.settleRemoval_ctxs _ p p).trans (w.freePtn_ctxs p))
  · rw [State.record_tenants, State.settleRemoval_tenants]
    exact tget_tdel_self _ _
  · refine Eq.trans (congrArg (fun v => Nat.testBit v p) ?_) (w.fbitAt_freePtn p)
    exact ((State.record_keeps _).fget (b := .sec) (by decide) rfl 0).trans (State.settleRemoval_removing _ p)

end

/-! ### FTL_REPLAY (R291, R292) -/

section
variable {s t : State} {d : Nat}

/-- The die's flash READY at the end of a replay, its channels that return back home (R291, R303). -/
def State.flashUp (s : State) (d seen t : Nat) : State :=
  let tail := (s.ftl d).lostTail
  let s := s.settleFlash d seen
  let s := if tail then (s.evtDie FTL_EVENT_HOLDUP d).healthOccur d 0x0B 0xFF else s
  let s := s.modFtl d (fun f => { f with chans := tfilter (fun _ c => c != .returning) f.chans })
  let s := s.fset FTL_OWN_OWNED d ((s.ftl d).owned.foldl (fun v c => setBit v c true) 0)
  let s := (s.fset FTL_STATUS_REPLAYING d 0).fset FTL_STATUS_READY d 1
  s.modFtl d (fun f => { f with patT := t, ckptT := t })

/-- The first JOURNAL band opened, where one can be. -/
def State.openJournal (s : State) (d : Nat) : State :=
  if ((s.ftl d).openBand .journal).isNone then ((s.openBand d .journal 0xFF).map Prod.snd).getD s else s

theorem State.openJournal_quiet (s : State) : FlashQuiet d s (s.openJournal d) := by
  unfold State.openJournal
  refine .ite ?_ (.refl d s)
  cases h : s.openBand d .journal 0xFF with
  | none => exact .refl d s
  | some x => exact State.openBand_quiet h

theorem State.openJournal_clk (s : State) (d : Nat) : (s.openJournal d).clk = s.clk := by
  unfold State.openJournal
  split
  · have hopen := s.openBand_keeps d .journal 0xFF
    cases h : s.openBand d .journal 0xFF with
    | none => rfl
    | some x =>
      rw [h] at hopen
      exact Keeps.same hopen .clk (by decide)
  · rfl

/-- What follows on a flash that is READY: a JOURNAL band, wear and READ_ONLY looked at, keys destroyed and written (R291, R428). -/
def State.readyWork (s : State) (d : Nat) : State :=
  let s := s.openJournal d
  let s := (s.fset FTL_STRIPE_IN_SERVICE d ((s.chsUp d).foldl (fun v c => setBit v c true) 0)).wearCheck d
  (((s.roCheck d).destroyPending d).dmk d).nsKeyHere d

/-- The objects of the flash restored, where the die's structures stand (R291). -/
def State.restoreReady (s : State) (d : Nat) : State := if s.fbit PFX_STATUS_READY d && !(s.ftl d).restored then s.restoreAll d else s

theorem exec_ftlReplay {seen t : Nat} (he : s.fbit SEC_STATUS_ERROR 0 = false)
    (hc : (List.range 16).all (fun c => (s.ftl d).chan c != .twinRo) = true) (hr : s.fbit FTL_STATUS_REPLAYING d = true) :
    exec (.ftlReplay d seen t) s = .next ((((s.advanceTo t).flashUp d seen t).readyWork d).restoreReady d) := by
  have he' : ¬ (s.advanceTo t).fbit SEC_STATUS_ERROR 0 = true := by
    unfold State.fbit at he ⊢
    rw [(s.advanceTo_keeps t).fget (b := .sec) (by decide) rfl, he]
    decide
  have hftl : (s.advanceTo t).ftl d = s.ftl d := by
    unfold State.ftl
    rw [(s.advanceTo_keeps t).same .ftls (by decide)]
  have hadopt : ¬ (List.range 16).any (fun c => ((s.advanceTo t).ftl d).chan c == .twinRo) = true := by
    rw [hftl]
    simpa using hc
  have hr' : ¬ (!(s.advanceTo t).fbit FTL_STATUS_REPLAYING d) = true := by
    unfold State.fbit at hr ⊢
    rw [(s.advanceTo_keeps t).fget (b := .ftl) (by decide) rfl, hr]
    decide
  show execFtlReplay d seen t s = _
  unfold execFtlReplay
  rw [if_neg he', if_neg hadopt, if_neg hr']
  extract_lets tail v1 v2 v3 v4 v5 v6 v7 v8 v9
  have h7 : v7 = v6.openJournal d := by
    unfold v7 State.openJournal
    split
    · cases v6.openBand d .journal 0xFF <;> rfl
    · rfl
  have h9 : v9 = v6.readyWork d := by
    unfold State.readyWork
    rw [← h7]
  exact congrArg (fun w => Host.Outcome.next (State.restoreReady w d)) h9

theorem State.fget_flashUp (s : State) (d seen t : Nat) : (s.flashUp d seen t).fget FTL_STATUS_READY d = 1 ∧
    (s.flashUp d seen t).fget FTL_STATUS_REPLAYING d = 0 := by
  unfold State.flashUp
  extract_lets tail s1 s2 s3 s4 s5
  clear_value s4
  constructor
  · exact State.fget_fset_self (s4.fset FTL_STATUS_REPLAYING d 0) FTL_STATUS_READY d 1
  · exact (State.fget_fset_other (s4.fset FTL_STATUS_REPLAYING d 0) FTL_STATUS_READY _ _ _ 1 (Fld.key_ne_of_apart _ (by decide) _)).trans
      (State.fget_fset_self _ _ _ _)

theorem State.flashUp_clk (s : State) (d seen t : Nat) : (s.flashUp d seen t).clk = s.clk := by
  unfold State.flashUp
  extract_lets tail s1 s2 s3 s4 s5
  have h1 : s1.clk = s.clk := (s.settleFlash_keeps d seen).same .clk (by decide)
  have h2 : s2.clk = s1.clk := by
    unfold s2
    split
    · exact ((State.healthOccur_keeps _ d 0x0B 0xFF).same .clk (by decide)).trans ((s1.evtDie_keeps FTL_EVENT_HOLDUP d).same .clk (by decide))
    · rfl
  have h4 : s4.clk = s2.clk := rfl
  clear_value s4
  exact h4.trans (h2.trans h1)

theorem State.readyWork_quiet (s : State) : FlashQuiet d s (s.readyWork d) := by
  unfold State.readyWork
  extract_lets s1 s2
  have h1 : FlashQuiet d s s1 := s.openJournal_quiet
  have h2 : FlashQuiet d s s2 := h1.trans ((FlashQuiet.fset s1 (F := FTL_STRIPE_IN_SERVICE) rfl _).trans (State.wearCheck_quiet _))
  exact h2.trans (s2.roCheck_quiet.trans ((State.destroyPending_quiet _).trans ((State.dmk_quiet _).trans (State.nsKeyHere_quiet _))))

theorem State.readyWork_clk (s : State) (d : Nat) : (s.readyWork d).clk = s.clk := by
  unfold State.readyWork
  extract_lets s1 s2
  have h1 : s1.clk = s.clk := s.openJournal_clk d
  have h2 : s2.clk = s.clk := ((State.wearCheck_keeps _ d).same .clk (by decide)).trans h1
  exact ((State.nsKeyHere_keeps _ d).same .clk (by decide)).trans (((State.dmk_keeps _ d).same .clk (by decide)).trans
    (((State.destroyPending_keeps _ d).same .clk (by decide)).trans (((s2.roCheck_keeps d).same .clk (by decide)).trans h2)))

theorem State.restoreReady_keeps (s : State) (d : Nat) : Keeps 0xC000078A s (s.restoreReady d) := by
  unfold State.restoreReady
  exact .ite (s.restoreAll_keeps d) (.refl s)

theorem ftlReplay_readies {seen t : Nat} (he : s.fbit SEC_STATUS_ERROR 0 = false)
    (hc : (List.range 16).all (fun c => (s.ftl d).chan c != .twinRo) = true) (hr : s.fbit FTL_STATUS_REPLAYING d = true) :
    Runs (.ftlReplay d seen t) s (fun u =>
      u.fget FTL_STATUS_READY d = 1 ∧ u.fget FTL_STATUS_REPLAYING d = 0 ∧ u.clk.tNs = max s.clk.tNs t) := by
  obtain ⟨hready, hplay⟩ := (s.advanceTo t).fget_flashUp d seen t
  have hwork := ((s.advanceTo t).flashUp d seen t).readyWork_quiet (d := d)
  have hrest := State.restoreReady_keeps (((s.advanceTo t).flashUp d seen t).readyWork d) d
  refine ⟨_, exec_ftlReplay he hc hr, ?_, ?_, ?_⟩
  · exact (hrest.fget (b := .ftl) (by decide) rfl d).trans (hwork.ready.trans hready)
  · exact (hrest.fget (b := .ftl) (by decide) rfl d).trans (hwork.replaying.trans hplay)
  · rw [hrest.same .clk (by decide), State.readyWork_clk, State.flashUp_clk, State.advanceTo_tNs]

end

/-- Settles O27, clause by clause: what each command leaves of the partition's registers and of its removal's record. -/
theorem partitionsAreAssignedSealedAndRemoved : Obligations.PartitionsAreAssignedSealedAndRemoved :=
  ⟨fun _ _ v hl hp => ptnDiesWrite_assigns v hl hp,
    fun _ _ hp hl hs hm hdies hup hten hlive hgen => seal_starts hp hl hs hm (State.sealable_of hdies hup hten) hlive hgen,
    fun _ _ hp hl hs hm => seal_refusedInService hp hl hs hm,
    fun _ _ t hp hf hr hg => partitionReset_opens t hp hf hr hg,
    fun _ _ dest t ho _ => tenantRemove_starts dest t ho,
    fun _ _ _ _ _ _ hport hb hread hform hser hctr hsig hown hp hf hr =>
      remove_starts hport hb hread hform hser hctr hsig hown hp hf hr,
    fun _ _ t _ hr hst hstep => removalStepEnd_goesOn t hr hst hstep,
    fun _ _ t _ _ hr hst hstep hmeta => removalStepEnd_frees t hr hst hstep hmeta,
    fun _ _ _ _ he hc hr => ftlReplay_readies he hc hr,
    fun _ _ t hp hf hr hg => partitionReset_waits t hp hf hr hg⟩

end Sys2Proof.Machine
end

section
/-!
PROOFS. Package and die resets: what they clear, what stands, and what the boot leaves (R277, R510, R516 to R518, R587, R590).
-/
namespace Sys2Proof.Machine
set_option Elab.async false

/-! ### What the start of the dies leaves (R444, R584) -/

/-- A field that no die's start or loss changes: the SMBus address, or one of the package's registers in PTN, SEC, PWR or SYS. -/
def bootKept (G : Fld) (j : Nat) : Prop :=
  (G = RAS_MCTP_SMB_ADDR ∧ j = 0) ∨ (ofPackage (G.at_ j) = true ∧ (G.blk = .ptn ∨ G.blk = .sec ∨ G.blk = .pwr ∨ G.blk = .sys))

/-- Those fields, and THERMTRIP_N, are as before. -/
structure BootFrame (s t : State) : Prop where
  fld : ∀ G j, bootKept G j → t.fget G j = s.fget G j
  trip : t.pwr.trip = s.pwr.trip

theorem bootKept.ofPackage {G : Fld} {j : Nat} (h : bootKept G j) : ofPackage (G.at_ j) = true := by
  rcases h with ⟨rfl, rfl⟩ | ⟨h, -⟩
  · decide
  · exact h

theorem testBit_of_and_eq_zero {m c k : Nat} (h : m &&& c = 0) (hc : c.testBit k = true) : m.testBit k = false := by
  have := congrArg (Nat.testBit · k) h
  simpa [Nat.testBit_and, hc] using this

section
variable {s t u : State}

theorem BootFrame.refl (s : State) : BootFrame s s := ⟨fun _ _ _ => rfl, rfl⟩

theorem BootFrame.trans (h : BootFrame s t) (k : BootFrame t u) : BootFrame s u :=
  ⟨fun G j hG => (k.fld G j hG).trans (h.fld G j hG), k.trip.trans h.trip⟩

theorem BootFrame.ite {p : Prop} [Decidable p] (h : BootFrame s t) (k : BootFrame s u) : BootFrame s (if p then t else u) := by
  split <;> assumption

theorem BootFrame.foldl {α : Type} {f : State → α → State} (h : ∀ u x, BootFrame u (f u x)) (l : List α) (s : State) :
    BootFrame s (l.foldl f s) :=
  ⟨fun G j hG => foldl_leaves (·.fget G j) (fun u x => (h u x).fld G j hG) l s, foldl_leaves (·.pwr.trip) (fun u x => (h u x).trip) l s⟩

/-- An operation that touches none of PTN, SEC, PWR, SYS and RAS. -/
theorem BootFrame.regsOfKeeps {m : Nat} (h : Keeps m s t) (hm : m &&& 0x13900000 = 0 := by decide) (hr : m.testBit 25 = false := by decide)
    (hp : t.pwr.trip = s.pwr.trip) : BootFrame s t := by
  refine ⟨fun G j hG => ?_, hp⟩
  rcases hG with ⟨rfl, rfl⟩ | ⟨-, hb | hb | hb | hb⟩
  · exact h.fget (b := .ras) hr rfl 0
  · exact h.fget (b := .ptn) (testBit_of_and_eq_zero hm (by decide)) hb j
  · exact h.fget (b := .sec) (testBit_of_and_eq_zero hm (by decide)) hb j
  · exact h.fget (b := .pwr) (testBit_of_and_eq_zero hm (by decide)) hb j
  · exact h.fget (b := .sys) (testBit_of_and_eq_zero hm (by decide)) hb j

theorem BootFrame.ofKeeps {m : Nat} (h : Keeps m s t) (hm : m &&& 0x13920000 = 0 := by decide) (hr : m.testBit 25 = false := by decide) :
    BootFrame s t := by
  refine .regsOfKeeps h ?_ hr (congrArg Pwr.trip (h.same .pwr (testBit_of_and_eq_zero hm (by decide))))
  refine Nat.eq_of_testBit_eq fun i => ?_
  have hc : (0x13900000 : Nat) = 0x13920000 &&& 0x13900000 := by decide
  rw [hc, ← Nat.land_assoc, hm]
  simp

theorem BootFrame.keeps {m : Nat} (h : BootFrame s t) (k : Keeps m t u) (hm : m &&& 0x13920000 = 0 := by decide)
    (hr : m.testBit 25 = false := by decide) : BootFrame s u := h.trans (.ofKeeps k hm hr)

/-! #### The fields of RAS that the start of a die writes -/

/-- A field of RAS in another register than RAS_MCTP. -/
def rasField (F : Fld) (i : Nat) : Prop := F.blk = .ras ∧ F.at_ i ≠ RAS_MCTP_SMB_ADDR.off

theorem rasField.key_ne {F G : Fld} {i j : Nat} (hF : rasField F i) (hG : bootKept G j) : F.key i ≠ G.key j := by
  obtain ⟨hb, hat⟩ := hF
  rcases hG with ⟨rfl, rfl⟩ | ⟨-, h | h | h | h⟩
  · exact Fld.key_ne_of_at hat
  all_goals exact Fld.key_ne _ _ (by rw [hb, h]; decide)

theorem BootFrame.fset (s : State) {F : Fld} {i : Nat} (hF : rasField F i) (v : Nat) : BootFrame s (s.fset F i v) :=
  ⟨fun _ _ hG => State.fget_fset_other _ _ _ _ _ _ (hF.key_ne hG), rfl⟩

theorem BootFrame.evtPkg (s : State) {F : Fld} (hF : rasField F 0) (hp : (F.bit ||| 0x21).testBit 17 = false) : BootFrame s (s.evtPkg F) :=
  ⟨fun _ _ hG => State.fget_evtPkg_other _ _ _ _ (hF.key_ne hG), congrArg Pwr.trip ((s.evtPkg_keeps F).same .pwr hp)⟩

theorem rasField_perDie {F : Fld} (hb : F.blk = .ras) (ho : RAS_MCTP_SMB_ADDR.off < F.off) (d : Nat) : rasField F d :=
  ⟨hb, by unfold Fld.at_; omega⟩

theorem State.countWickets_frame (s : State) (d : Nat) : BootFrame s (s.countWickets d) := by
  unfold State.countWickets
  exact .fset s (rasField_perDie rfl (by decide) d) _

theorem State.modRow_frame (s : State) (k d i : Nat) (f : UnitRow → UnitRow) : BootFrame s (s.modRow k d i f) :=
  .ofKeeps (s.modRow_keeps k d i f)

theorem State.noteUnit_frame (s : State) (k d i old new cause : Nat) : BootFrame s (s.noteUnit k d i old new cause) := by
  unfold State.noteUnit
  extract_lets s1 s2 s3 s4
  have h1 : BootFrame s s1 := s.modRow_frame _ _ _ _
  have h2 : BootFrame s s2 := .ite (h1.trans (.evtPkg s1 (F := RAS_EVENT_UNIT_FENCED) ⟨rfl, by decide⟩ (by decide))) h1
  have h3 : BootFrame s s3 := .ite (h2.trans (.fset s2 (F := RAS_DISPUTES_COUNT) ⟨rfl, by decide⟩ _)) h2
  have h4 : BootFrame s s4 := .ite (h3.trans (s3.countWickets_frame d)) h3
  exact h4.keeps (s4.postUnit_keeps _ _ _ _ _ _)

theorem State.reFence_frame (s : State) (d : Nat) : BootFrame s (s.reFence d) := by
  unfold State.reFence
  extract_lets bits act s1 s2 s3 s4
  have h1 : BootFrame s s1 := (BootFrame.ofKeeps (s.fset_keeps _ _ _)).trans (.ofKeeps (State.fset_keeps _ _ _ _))
  have h2 : BootFrame s s2 := h1.trans ((BootFrame.ofKeeps (s1.fset_keeps _ _ _)).trans (.ofKeeps (State.fset_keeps _ _ _ _)))
  have h3 : BootFrame s s3 := h2.trans (.ofKeeps (s2.fset_keeps _ _ _))
  have h4 : BootFrame s s4 := h3.trans ((BootFrame.fset s3 (rasField_perDie rfl (by decide) d) _).trans (.ofKeeps (State.fset_keeps _ _ _ _)))
  exact h4.trans (s4.countWickets_frame d)

/-! #### A die's rails and its start (R515, R583) -/

theorem State.enable_frame (s : State) (d k : Nat) (up : Bool) : BootFrame s (s.enable d k up) := by
  refine .regsOfKeeps (s.enable_keeps d k up) (hp := ?_)
  unfold State.enable
  dsimp only
  split <;> rfl

theorem State.railsOn_frame (s : State) (d : Nat) : BootFrame s (s.railsOn d) :=
  (s.enable_frame d 0 true).trans ((State.enable_frame _ d 1 true).trans (State.enable_frame _ d 2 true))

theorem State.railsOff_frame (s : State) (d st : Nat) : BootFrame s (s.railsOff d st) := by
  unfold State.railsOff
  extract_lets s1
  have h1 : BootFrame s s1 := .ite ((s.enable_frame d 1 false).trans (State.enable_frame _ d 2 false)) (.refl s)
  exact .ite (h1.trans (s1.enable_frame d 0 false)) h1

theorem State.dieBack_frame (s : State) (d : Nat) : BootFrame s (s.dieBack d) := by
  refine .regsOfKeeps (s.dieBack_keeps d) (hp := ?_)
  unfold State.dieBack
  extract_lets p0 s1 s2 s3 own s4 s5 s6
  have h2 : s2.pwr.trip = s.pwr.trip := rfl
  have h3 : s3.pwr.trip = s2.pwr.trip := by
    unfold s3
    split
    · exact congrArg Pwr.trip ((s2.placePfx_keeps d).same .pwr (by decide))
    · rfl
  clear_value s3
  have h6 : s6.pwr.trip = s3.pwr.trip := rfl
  clear_value s6
  split
  · exact (congrArg Pwr.trip ((s6.bringUp_keeps d).same .pwr (by decide))).trans (h6.trans (h3.trans h2))
  · exact h6.trans (h3.trans h2)

theorem State.dieStart_frame (s : State) (d : Nat) : BootFrame s (s.dieStart d) :=
  (s.reFence_frame d).trans ((State.dieBack_frame _ d).trans (State.reFence_frame _ d))

/-! #### A die without a partition lost (R482, R516) -/

theorem State.dieZero_frame (s : State) {d : Nat} (hd : d < 8) (power : Bool) : BootFrame s (s.dieZero d power) := by
  unfold State.dieZero
  extract_lets tail s1
  have h0 : BootFrame s (s.staticDie d) := .regsOfKeeps (s.staticDie_keeps d) (hp := rfl)
  have h1 : BootFrame s s1 := (h0.keeps (State.portZero_keeps _ d)).keeps (State.forgetDie_keeps _ d) |>.trans
    ⟨fun G j hG => State.fget_clearWindow _ hd hG.ofPackage, rfl⟩
  exact h1.trans ⟨fun _ _ _ => rfl, rfl⟩

end

section
variable {s t u : State} {d : Nat}

/-- No partition has a die. -/
def State.noDies (s : State) : Prop := ∀ p, p < 8 → s.fget PTN_DIES_DIES p = 0

theorem bootKept_ptn {G : Fld} (hG : G.blk = .ptn) (hoff : 0xA0000 ≤ G.off) (hst : G.off + 8 * G.stride < 0x1000000) {p : Nat} (hp : p < 8) :
    bootKept G p := by
  refine .inr ⟨?_, .inl hG⟩
  unfold ofPackage Fld.at_
  have : p * G.stride ≤ 8 * G.stride := Nat.mul_le_mul_right _ hp.le
  simp
  omega

theorem bootKept_dies {p : Nat} (hp : p < 8) : bootKept PTN_DIES_DIES p := bootKept_ptn rfl (by decide) (by decide) hp

theorem BootFrame.noDies (h : BootFrame s t) (hs : s.noDies) : t.noDies := fun p hp => (h.fld _ _ (bootKept_dies hp)).trans (hs p hp)

theorem State.noDies.owner (hs : s.noDies) (d : Nat) : s.owner d = none := by
  unfold State.owner
  rw [List.find?_eq_none]
  intro p hp
  rw [hs p (List.mem_range.1 hp), Nat.zero_testBit]
  decide

/-- A die without a partition lost: neither the package's registers nor THERMTRIP_N change (R482, R516). -/
theorem State.loseDie_frame (hs : s.noDies) (hd : d < 8) (cause : Nat) : BootFrame s (s.loseDie d cause) := by
  unfold State.loseDie
  refine .ite (.refl s) ?_
  extract_lets old grads lost moving ledger units descs pins seqs s1 s2 s3 s4 s5 s6
  have h1 : BootFrame s s1 := s.modRow_frame _ _ _ _
  have h2 : BootFrame s s2 := (h1.trans (s1.noteUnit_frame _ _ _ _ _ _)).keeps (State.dieUnits_keeps _ _ _ _)
  have h3 : BootFrame s s3 := h2.trans ((BootFrame.fset s2 (rasField_perDie rfl (by decide) d) _).trans
    (.fset _ (F := RAS_STATUS_DIES_LOST) ⟨rfl, by decide⟩ _))
  have h4 : BootFrame s s4 := h3.trans ((BootFrame.fset s3 (F := RAS_DIE_LOSSES_COUNT) ⟨rfl, by decide⟩ _).trans
    ((BootFrame.evtPkg _ (F := RAS_EVENT_DIE_LOST) ⟨rfl, by decide⟩ (by decide)).trans (State.countWickets_frame _ d)))
  have h5 : BootFrame s s5 := h4.keeps (s4.fabricDown_keeps d)
  have h6 : BootFrame s s6 := by
    unfold s6
    split
    · exact h5.keeps (s5.portOut_keeps _)
    · exact h5
  clear_value s6
  have h7 : BootFrame s (s6.takeOver d).2 := h6.keeps (s6.takeOver_keeps d)
  generalize s6.takeOver d = x at h7 ⊢
  obtain ⟨took, s7⟩ := x
  dsimp -zeta only at h7 ⊢
  extract_lets r0 s8 s9 s10
  have h8 : BootFrame s s8 := h7.trans ⟨fun _ _ _ => rfl, rfl⟩
  have h9 : BootFrame s s9 := h8.trans ⟨fun _ _ _ => rfl, rfl⟩
  have h10 : BootFrame s s10 := h9.keeps (s9.fset_keeps _ _ _)
  clear_value s10
  rw [(h10.noDies hs).owner d]
  exact h10.trans ((s10.dieZero_frame hd false).trans (State.modRow_frame _ _ _ _ _))

theorem State.unitEffect_die (s : State) (d i new : Nat) :
    s.unitEffect uDie d i new = if new = usFENCED then s.loseDie d 8 else s.fset RAS_DIE_STATE_STATE d new := rfl

theorem State.setUnit_die_frame (hs : s.noDies) (hd : d < 8) (i cause : Nat) (f : UnitRow → UnitRow) (fuel : Nat) :
    BootFrame s (s.setUnit uDie d i cause f fuel) := by
  cases fuel with
  | zero => exact .refl s
  | succ n =>
    unfold State.setUnit
    refine .ite (.refl s) ?_
    extract_lets old kids before s1 new s2 s3 s4
    have h1 : BootFrame s s1 := s.modRow_frame _ _ _ _
    have h2 : BootFrame s s2 := h1.trans (s1.noteUnit_frame _ _ _ _ _ _)
    have h3 : s3 = s2 := rfl
    have h4 : BootFrame s s4 := by
      unfold s4
      rw [h3, State.unitEffect_die]
      exact .ite (h2.trans (State.loseDie_frame (h2.noDies hs) hd 8)) (h2.trans (.fset s2 (rasField_perDie rfl (by decide) d) _))
    exact .ite h1 (.ite h4 h4)

theorem State.hwFence_die_frame (hs : s.noDies) (hd : d < 8) : BootFrame s (s.hwFence uDie d 0) := by
  unfold State.hwFence
  exact .ite (.fset s (F := RAS_DISPUTE_HOLD_COUNT) ⟨rfl, by decide⟩ _) (State.setUnit_die_frame hs hd _ _ _ _)

theorem BootFrame.foldl_of_mem {α : Type} {f : State → α → State} (P : State → Prop) (l : List α)
    (h : ∀ u, P u → ∀ x ∈ l, BootFrame u (f u x)) (hP : ∀ u v, P u → BootFrame u v → P v) (hs : P s) : BootFrame s (l.foldl f s) := by
  induction l generalizing s with
  | nil => exact .refl s
  | cons x l ih =>
    have hx := h s hs x List.mem_cons_self
    exact hx.trans (ih (fun u hu y hy => h u hu y (List.mem_cons_of_mem x hy)) (hP _ _ hs hx))

theorem State.startDies_frame (hs : s.noDies) : BootFrame s s.startDies := by
  unfold State.startDies
  extract_lets bad s1
  have h1 : BootFrame s s1 := .regsOfKeeps (s.modPwr_keeps _) (hp := rfl)
  refine h1.trans (.foldl_of_mem State.noDies _ (fun v hv d hd => ?_) (fun _ _ hv h => h.noDies hv) (h1.noDies hs))
  have hd8 : d < 8 := lt_of_lt_of_le (List.mem_range.1 hd) (State.nDies_le _)
  have hon : BootFrame v (v.railsOn d) := v.railsOn_frame d
  refine .ite ?_ (hon.trans (State.dieStart_frame _ d))
  have hoff : BootFrame v (((v.railsOn d).railsOff d 3).fset DPM_STATUS_STATE d 3) :=
    hon.trans ((State.railsOff_frame _ d 3).trans (.ofKeeps (State.fset_keeps _ _ _ _)))
  exact hoff.trans (State.hwFence_die_frame (hoff.noDies hv) hd8)

end

/-! ### The boot (R433, R444) -/

section
variable {s t u : State}

/-- The fields of the package that a reset leaves: what it says of itself, the fuses, the straps and PWR_LOSS. -/
def resetFlds : List Fld := [SEC_FUSE_OWNER, PWR_STATUS_LAST_RESET, PWR_STATUS_PWR_LOSS, RAS_MCTP_SMB_ADDR, SYS_STRAP_SPI_QUAD]

/-- Those fields, and the states and dies of the partitions. -/
def resetKept (G : Fld) (j : Nat) : Prop := (G ∈ resetFlds ∧ j = 0) ∨ ((G = PTN_STATUS_STATE ∨ G = PTN_DIES_DIES) ∧ j < 8)

theorem resetKept.bootKept {G : Fld} {j : Nat} (h : resetKept G j) : bootKept G j := by
  rcases h with ⟨hG, rfl⟩ | ⟨rfl | rfl, hj⟩
  · have : ∀ G ∈ resetFlds, (G = RAS_MCTP_SMB_ADDR ∧ (0 : Nat) = 0) ∨
        (ofPackage (G.at_ 0) = true ∧ (G.blk = .ptn ∨ G.blk = .sec ∨ G.blk = .pwr ∨ G.blk = .sys)) := by decide
    exact this G hG
  · exact bootKept_ptn rfl (by decide) (by decide) hj
  · exact bootKept_ptn rfl (by decide) (by decide) hj

/-- Those fields, THERMTRIP_N and the firmware slots are as before. -/
structure ResetKeeps (s t : State) : Prop where
  fld : ∀ G j, resetKept G j → t.fget G j = s.fget G j
  trip : t.pwr.trip = s.pwr.trip
  slots : t.sec.slots = s.sec.slots

theorem ResetKeeps.trans (h : ResetKeeps s t) (k : ResetKeeps t u) : ResetKeeps s u :=
  ⟨fun G j hG => (k.fld G j hG).trans (h.fld G j hG), k.trip.trans h.trip, k.slots.trans h.slots⟩

theorem ResetKeeps.ite {p : Prop} [Decidable p] (h : ResetKeeps s t) (k : ResetKeeps s u) : ResetKeeps s (if p then t else u) := by
  split <;> assumption

theorem BootFrame.resetKeeps (h : BootFrame s t) (hs : t.sec.slots = s.sec.slots) : ResetKeeps s t :=
  ⟨fun G j hG => h.fld G j hG.bootKept, h.trip, hs⟩

theorem ResetKeeps.ofKeeps {m : Nat} (h : Keeps m s t) (hm : m &&& 0x13924000 = 0 := by decide) (hr : m.testBit 25 = false := by decide) :
    ResetKeeps s t := by
  refine (BootFrame.ofKeeps h ?_ hr).resetKeeps (congrArg Sec.slots (h.same .sec (testBit_of_and_eq_zero hm (by decide))))
  have hc : (0x13920000 : Nat) = 0x13924000 &&& 0x13920000 := by decide
  rw [hc, ← Nat.land_assoc, hm, Nat.zero_and]

theorem ResetKeeps.noDies (h : ResetKeeps s t) (hs : s.noDies) : t.noDies := fun p hp =>
  (h.fld _ _ (.inr ⟨.inr rfl, hp⟩)).trans (hs p hp)

/-- A field of the package that is none of those. -/
def resetFree (F : Fld) : Bool := F.blk != .ptn && resetFlds.all (fun G => F.key 0 != G.key 0)

theorem resetFree.key_ne {F G : Fld} {j : Nat} (hF : resetFree F = true) (hG : resetKept G j) : F.key 0 ≠ G.key j := by
  obtain ⟨hb, hk⟩ := Bool.and_eq_true_iff.1 hF
  rcases hG with ⟨hG, rfl⟩ | ⟨rfl | rfl, -⟩
  · exact bne_iff_ne.1 (List.all_eq_true.1 hk G hG)
  · exact Fld.key_ne _ _ (bne_iff_ne.1 hb)
  · exact Fld.key_ne _ _ (bne_iff_ne.1 hb)

theorem ResetKeeps.fset (s : State) {F : Fld} (hF : resetFree F = true) (v : Nat) : ResetKeeps s (s.fset F 0 v) :=
  ⟨fun _ _ hG => State.fget_fset_other _ _ _ _ _ _ (resetFree.key_ne hF hG), rfl, rfl⟩

theorem ResetKeeps.evtPkg (s : State) {F : Fld} (hF : resetFree F = true) (hp : (F.bit ||| 0x21) &&& 0x24000 = 0) :
    ResetKeeps s (s.evtPkg F) :=
  ⟨fun _ _ hG => State.fget_evtPkg_other _ _ _ _ (resetFree.key_ne hF hG),
    congrArg Pwr.trip ((s.evtPkg_keeps F).same .pwr (testBit_of_and_eq_zero hp (by decide))),
    congrArg Sec.slots ((s.evtPkg_keeps F).same .sec (testBit_of_and_eq_zero hp (by decide)))⟩

/-! #### ERROR (R434) -/

theorem State.stopFlash_keeps (s : State) (l : List Nat) :
    Keeps 0xC0440AC69 s (l.foldl (fun s d => (s.fabricDown d).modFtl d (fun f => { f with hold := s.holdOf d })) s) :=
  Keeps.foldl _ l (fun u d => Keeps.trans (u.fabricDown_keeps d).mono (State.modFtl_keeps _ _ _)) (Keeps.refl s)

theorem State.enterError_keepsReset (s : State) : ResetKeeps s s.enterError := by
  unfold State.enterError
  extract_lets s1
  have h1 : ResetKeeps s s1 := (ResetKeeps.fset s (F := SEC_STATUS_ERROR) (by decide) 1).trans (.fset _ (by decide) 1)
  exact h1.trans (.ofKeeps (s1.stopFlash_keeps _))

theorem State.fget_enterError (s : State) : s.enterError.fget SEC_STATUS_ERROR 0 = 1 := by
  unfold State.enterError
  extract_lets s1
  exact ((s1.stopFlash_keeps _).fget (b := .sec) (by decide) rfl 0).trans
    ((State.fget_fset_other (s.fset SEC_STATUS_ERROR 0 1) SVC_STATUS_ROM _ _ _ 1 (Fld.key_ne _ _ (by decide))).trans
      (State.fget_fset_self _ _ _ _))

theorem State.moduleError_keepsReset (s : State) (code : Nat) : ResetKeeps s (s.moduleError code) := by
  unfold State.moduleError
  extract_lets s1 s2
  have h1 : ResetKeeps s s1 := .ofKeeps (s.logTest_keeps 0 0 0 code)
  have h2 : ResetKeeps s s2 := .ite (h1.trans (.fset s1 (by decide) _)) h1
  exact h2.trans ((ResetKeeps.evtPkg s2 (F := SEC_EVENT_SELFTEST_FAIL) (by decide) (by decide)).trans
    ((ResetKeeps.ofKeeps (State.sealedEvent_keeps _ _ _)).trans (State.enterError_keepsReset _)))

theorem State.fget_moduleError (s : State) (code : Nat) : (s.moduleError code).fget SEC_STATUS_ERROR 0 = 1 := State.fget_enterError _

/-! #### The steps of the boot ROM (R444) -/

/-- What the fuses say, shown. -/
def State.showFuses (s : State) : State :=
  (s.fput SEC_STATUS_OWNER_SET 0 (s.fget SEC_FUSE_OWNER 0 != 0)).fset SEC_STATUS_DEBUG_SEALED 0 (s.fget SEC_FUSE_DEBUG_SEAL 0)

/-- An image that runs from slot `k`: the module READY. -/
def State.runImage (s : State) (k : Nat) (i : FwImage) : State :=
  let ok := s.approvedNext
  let s := s.logTest 0 0 0 0
  let s := { s with sec := { s.sec with running := some i } }
  let s := ((s.fset SEC_STATUS_BOOT_SLOT 0 k).fset SEC_SVN_SVN_RUN 0 i.svn).fset SYS_FWVER_VERSION 0 i.fwVer
  let s := (s.fset SYS_RCPVER_VERSION 0 i.rcpVer).fput SEC_STATUS_APPROVED 0 ok
  let s := if s.sec.mode && !ok then s.evtPkg SEC_EVENT_AUTH_FAIL else s
  let s := (s.fput SEC_STATUS_MODE_PENDING 0 (s.sec.mode != ok)).fset SEC_STATUS_READY 0 1
  (s.fset PWR_STATUS_READY 0 1).fset SVC_STATUS_ROM 0 0

/-- The boot ends in ERROR, or an image runs and the dies start. -/
theorem State.boot_cases (s : State) (code : Nat) : (∃ c, s.boot code = s.showFuses.moduleError c) ∨
    (code = 0 ∧ ∃ k i, s.boot code = (s.showFuses.runImage k i) ∨ s.boot code = (s.showFuses.runImage k i).startDies) := by
  unfold State.boot
  extract_lets fuse s1 order ok s2 r0
  split
  · exact .inl ⟨_, rfl⟩
  next hc =>
    split
    · exact .inl ⟨_, rfl⟩
    next k i _ =>
      refine .inr ⟨not_not.1 hc, k, i, ?_⟩
      extract_lets s3 s4 s5 s6 s7 s8
      have h8 : s8 = s1.runImage k i := rfl
      clear_value s8
      split
      · exact .inl h8
      · exact .inr (congrArg State.startDies h8)

theorem State.showFuses_keepsReset (s : State) : ResetKeeps s s.showFuses :=
  (ResetKeeps.fset s (F := SEC_STATUS_OWNER_SET) (by decide) _).trans (.fset _ (F := SEC_STATUS_DEBUG_SEALED) (by decide) _)

theorem State.runImage_keepsReset (s : State) (k : Nat) (i : FwImage) : ResetKeeps s (s.runImage k i) := by
  unfold State.runImage
  extract_lets ok s2 r0 s3 s4 s5 s6 s7
  have h2 : ResetKeeps s s2 := .ofKeeps (s.logTest_keeps 0 0 0 0)
  have h3 : ResetKeeps s s3 := h2.trans ⟨fun _ _ _ => rfl, rfl, rfl⟩
  have h4 : ResetKeeps s s4 := h3.trans ((ResetKeeps.fset s3 (F := SEC_STATUS_BOOT_SLOT) (by decide) _).trans
    ((ResetKeeps.fset _ (F := SEC_SVN_SVN_RUN) (by decide) _).trans (.fset _ (F := SYS_FWVER_VERSION) (by decide) _)))
  have h5 : ResetKeeps s s5 := h4.trans ((ResetKeeps.fset s4 (F := SYS_RCPVER_VERSION) (by decide) _).trans
    (.fset _ (F := SEC_STATUS_APPROVED) (by decide) _))
  have h6 : ResetKeeps s s6 := .ite (h5.trans (.evtPkg s5 (F := SEC_EVENT_AUTH_FAIL) (by decide) (by decide))) h5
  have h7 : ResetKeeps s s7 := h6.trans ((ResetKeeps.fset s6 (F := SEC_STATUS_MODE_PENDING) (by decide) _).trans
    (.fset _ (F := SEC_STATUS_READY) (by decide) _))
  exact h7.trans ((ResetKeeps.fset s7 (F := PWR_STATUS_READY) (by decide) _).trans (.fset _ (F := SVC_STATUS_ROM) (by decide) _))

theorem State.fget_runImage (s : State) (k : Nat) (i : FwImage) : (s.runImage k i).fget SEC_STATUS_READY 0 = 1 ∧
    (s.runImage k i).fget PWR_STATUS_READY 0 = 1 := by
  unfold State.runImage
  extract_lets ok s2 r0 s3 s4 s5 s6 s7
  have h7 : s7.fget SEC_STATUS_READY 0 = 1 := State.fget_fset_self (s6.fput SEC_STATUS_MODE_PENDING 0 (s6.sec.mode != ok)) SEC_STATUS_READY 0 1
  clear_value s7
  constructor
  · rw [State.fget_fset_other _ _ _ _ _ _ (Fld.key_ne _ _ (by decide)), State.fget_fset_other _ _ _ _ _ _ (Fld.key_ne _ _ (by decide)), h7]
  · rw [State.fget_fset_other _ _ _ _ _ _ (Fld.key_ne _ _ (by decide)), State.fget_fset_self]
    rfl

/-- The module READY, or in ERROR (R444). -/
def State.upOrError (s : State) : Prop :=
  s.fget SEC_STATUS_ERROR 0 = 1 ∨ (s.fget SEC_STATUS_READY 0 = 1 ∧ s.fget PWR_STATUS_READY 0 = 1)

theorem State.boot_keepsReset (hs : s.noDies) (code : Nat) : ResetKeeps s (s.boot code) := by
  have h0 := s.showFuses_keepsReset
  rcases s.boot_cases code with ⟨c, h⟩ | ⟨-, k, i, h | h⟩ <;> rw [h]
  · exact h0.trans (State.moduleError_keepsReset _ c)
  · exact h0.trans (State.runImage_keepsReset _ k i)
  · have h1 := h0.trans (State.runImage_keepsReset _ k i)
    exact h1.trans ((State.startDies_frame (h1.noDies hs)).resetKeeps
      (congrArg Sec.slots ((State.startDies_keeps _).same .sec (by decide))))

theorem State.boot_upOrError (hs : s.noDies) (code : Nat) : (s.boot code).upOrError := by
  rcases s.boot_cases code with ⟨c, h⟩ | ⟨-, k, i, h | h⟩ <;> rw [h]
  · exact .inl (State.fget_moduleError _ c)
  · exact .inr (State.fget_runImage _ k i)
  · obtain ⟨hsec, hpwr⟩ := s.showFuses.fget_runImage k i
    have h1 := s.showFuses_keepsReset.trans (State.runImage_keepsReset _ k i)
    have h2 := State.startDies_frame (h1.noDies hs)
    exact .inr ⟨(h2.fld _ _ (.inr ⟨by decide, .inr (.inl rfl)⟩)).trans hsec, (h2.fld _ _ (.inr ⟨by decide, .inr (.inr (.inl rfl))⟩)).trans hpwr⟩

theorem State.fget_boot_error {code : Nat} (hc : code ≠ 0) : (s.boot code).fget SEC_STATUS_ERROR 0 = 1 := by
  rcases s.boot_cases code with ⟨c, h⟩ | ⟨h0, -⟩
  · rw [h]
    exact State.fget_moduleError _ c
  · exact absurd h0 hc

end

end Sys2Proof.Machine
end

section
/-!
PROOFS. Power-on and cold resets: the firmware slots stand, every partition is FREE, and the module boots (R433, R516, R519 to R523, R587, R589).
-/
namespace Sys2Proof.Machine
set_option Elab.async false

/-! ### What a cold reset clears (R516, R519 to R521) -/

section
variable {s t u : State}

/-! #### The firmware slots under a zeroization (R433, R442) -/

theorem Keeps.slots {m : Nat} (h : Keeps m s t) (hm : m.testBit 14 = false := by decide) : t.sec.slots = s.sec.slots :=
  congrArg Sec.slots (h.same .sec hm)

/-- A view of the state unchanged by every step of a fold that gathers answers beside the state. -/
theorem foldl_snd_leaves {α β γ : Type} (g : State → α) {f : β × State → γ → β × State} (h : ∀ x y, g (f x y).2 = g x.2)
    (l : List γ) (x : β × State) : g (l.foldl f x).2 = g x.2 :=
  List.foldlRecOn (motive := fun x' => g x'.2 = g x.2) l f rfl fun y hy z _ => (h y z).trans hy

theorem State.writeObj_slots {d : Nat} {k : BandKind} {kind obj ns n : Nat} {src : Option FLoc} {data : FData} {l : FLoc}
    (h : s.writeObj d k kind obj ns n src data = some (l, t)) : t.sec.slots = s.sec.slots := by
  have hw := s.writeObj_keeps d k kind obj ns n src data
  rw [h] at hw
  exact Keeps.slots hw

theorem State.dmk_slots (s : State) (d : Nat) : (s.dmk d).sec.slots = s.sec.slots := by
  unfold State.dmk
  split
  · rfl
  · split
    · rfl
    · have h1 : (s.draw.2.putKey (256 + d) (Config.random s.draw.1)).sec.slots = s.sec.slots := rfl
      dsimp only
      split
      next h => exact (State.writeObj_slots h).trans h1
      · exact (State.roCheck_keeps _ d).slots.trans h1

/-- One key that a die's flash holds LIVE destroyed there: the META bands to erase, with those before. -/
def State.eraseKey (d p : Nat) (acc : List (Nat × Nat) × State) (k : Nat × Nat) : List (Nat × Nat) × State :=
  let x := acc.2.cryptoErase d p k.1
  (acc.1 ++ x.1.map (fun b => (d, b)), x.2)

theorem State.eraseKey_snd (d p : Nat) (acc : List (Nat × Nat) × State) (k : Nat × Nat) :
    (State.eraseKey d p acc k).2 = (acc.2.cryptoErase d p k.1).2 := by
  rw [State.eraseKey]

/-- The LIVE keys of one namespace on a die destroyed. -/
def State.eraseKeys (d : Nat) (acc : List (Nat × Nat) × State) (p : Nat) : List (Nat × Nat) × State :=
  (acc.2.liveKeys d p).foldl (State.eraseKey d p) acc

theorem State.eraseKeys_slots (d : Nat) (acc : List (Nat × Nat) × State) (p : Nat) :
    (State.eraseKeys d acc p).2.sec.slots = acc.2.sec.slots := by
  rw [State.eraseKeys]
  refine foldl_snd_leaves (fun u => u.sec.slots) (fun c k => ?_) _ acc
  rw [State.eraseKey_snd]
  exact Keeps.slots (c.2.cryptoErase_keeps d p k.1)

/-- A die's flash under ZEROIZE once its keys are destroyed: its objects and its DMK gone, and a new DMK where it can be written. -/
def State.flashZeroed (s : State) (d : Nat) (up : Bool) : State :=
  let s := s.modFtl d (fun f => { f with objs := [], ghosts := [] })
  let s := { s with sec := { s.sec with keys := tdel s.sec.keys (256 + d) } }
  if up then (s.dmk d).gcAdvance d else s

theorem State.flashZeroed_slots (s : State) (d : Nat) (up : Bool) : (s.flashZeroed d up).sec.slots = s.sec.slots := by
  unfold State.flashZeroed
  extract_lets s1 x0 s2
  have h2 : s2.sec.slots = s.sec.slots := rfl
  clear_value s2
  split
  · exact (State.gcAdvance_keeps _ d).slots.trans ((s2.dmk_slots d).trans h2)
  · exact h2

theorem State.zeroizeDie_snd (s : State) (d : Nat) : (s.zeroizeDie d).2 =
    let up := !s.dieDown d && s.fbit FTL_STATUS_READY d
    ((if up then (List.range 8).foldl (State.eraseKeys d) ([], s) else ([], s)).2).flashZeroed d up := rfl

theorem State.zeroizeDie_slots (s : State) (d : Nat) : (s.zeroizeDie d).2.sec.slots = s.sec.slots := by
  rw [State.zeroizeDie_snd]
  dsimp only
  refine (State.flashZeroed_slots _ d _).trans ?_
  split
  · exact foldl_snd_leaves (fun u => u.sec.slots) (State.eraseKeys_slots d) (List.range 8) ([], s)
  · rfl

/-- One die more zeroized: the META bands to erase, with those before. -/
def State.zeroizeMore (acc : List (Nat × Nat) × State) (d : Nat) : List (Nat × Nat) × State :=
  let x := acc.2.zeroizeDie d
  (acc.1 ++ x.1, x.2)

theorem State.zeroizeMore_snd (acc : List (Nat × Nat) × State) (d : Nat) :
    (State.zeroizeMore acc d).2 = (acc.2.zeroizeDie d).2 := by
  rw [State.zeroizeMore]

/-- The namespace keys and the CAKs gone (R433, R435). -/
def State.keysZeroed (s : State) (dead : List (Nat × Nat)) : State :=
  let s := { s with sec := { s.sec with keys := s.sec.keys.filter (fun e => decide (256 ≤ e.1)), lastDead := dead } }
  (List.range s.nDies).foldl (fun s d =>
    if (s.lnk d).cak.isSome then
      (s.modLnk d (fun l => { l with cak := none, mkaPeers := [], mkaServers := [], asked := false, rekey := none, txSa := false, rxSas := [], txPn := 1 })).refreshPort d
    else s) s

theorem State.keysZeroed_slots (s : State) (dead : List (Nat × Nat)) : (s.keysZeroed dead).sec.slots = s.sec.slots := by
  unfold State.keysZeroed
  extract_lets x0 s1
  refine Eq.trans ?_ (show s1.sec.slots = s.sec.slots from rfl)
  refine foldl_leaves (fun u : State => u.sec.slots) (fun u d => ?_) _ s1
  split
  · exact (State.refreshPort_keeps _ d).slots
  · rfl

theorem State.zeroizeAll_snd (s : State) : s.zeroizeAll.2 =
    (((List.range s.nDies).foldl State.zeroizeMore ([], s)).2).keysZeroed
      ((List.range 8).foldl (fun l p => if (tget s.sec.keys p).isSome then tput l p (s.genOf p) else l) s.sec.lastDead) := rfl

theorem State.zeroizeAll_slots (s : State) : s.zeroizeAll.2.sec.slots = s.sec.slots := by
  rw [State.zeroizeAll_snd]
  refine (State.keysZeroed_slots _ _).trans ?_
  refine foldl_snd_leaves (fun u => u.sec.slots) (fun x d => ?_) (List.range s.nDies) ([], s)
  rw [State.zeroizeMore_snd]
  exact x.2.zeroizeDie_slots d

theorem State.recall_slots (s : State) : s.recall.sec.slots = s.sec.slots := by
  unfold State.recall
  split <;> rfl

/-! #### The registers and records wiped (R521) -/

/-- What a cold reset drops before its registers clear: keys where the mode changes, and what every die held (R433, R516). -/
def State.coldDrop (s : State) (power : Bool) : State :=
  let s := if s.approvedNext.toNat = s.fget SEC_STATUS_APPROVED 0 then s else s.zeroizeAll.2
  let s := s.removalsLost.recall
  (List.range s.nDies).foldl (fun (s : State) d => s.dieZero d power) s

theorem State.coldDrop_frame (s : State) (power : Bool) : BootFrame s (s.coldDrop power) := by
  unfold State.coldDrop
  extract_lets s1 s2
  have h1 : BootFrame s s1 := .ite (.refl s) (.ofKeeps s.zeroizeAll_keeps)
  have h2 : BootFrame s s2 := (h1.keeps (State.removalsLost_keeps _)).keeps (State.recall_keeps _)
  exact h2.trans (.foldl_of_mem (fun _ => True) _
    (fun u _ d hd => u.dieZero_frame (lt_of_lt_of_le (List.mem_range.1 hd) (State.nDies_le _)) power) (fun _ _ _ _ => trivial) trivial)

theorem State.coldDrop_sec (s : State) (power : Bool) : (s.coldDrop power).sec.slots = s.sec.slots ∧ (s.coldDrop power).clk = s.clk := by
  unfold State.coldDrop
  extract_lets s1 s2
  have h1 : s1.sec.slots = s.sec.slots ∧ s1.clk = s.clk := by
    unfold s1
    split
    · exact ⟨rfl, rfl⟩
    · exact ⟨s.zeroizeAll_slots, Keeps.same s.zeroizeAll_keeps .clk (by decide)⟩
  have h2 : s2.sec.slots = s.sec.slots ∧ s2.clk = s.clk :=
    ⟨(State.recall_slots _).trans h1.1, ((State.recall_keeps _).same .clk (by decide)).trans h1.2⟩
  exact ⟨(foldl_leaves (fun u => u.sec.slots) (fun u d => (u.dieZero_keeps d power).slots) _ s2).trans h2.1,
    (foldl_leaves (fun u => u.clk) (fun u d => (u.dieZero_keeps d power).same .clk (by decide)) _ s2).trans h2.2⟩

/-- The registers cleared and the volatile records gone (R521). -/
def State.coldWipe (s : State) (power low : Bool) : State :=
  let s := s.clearRegs (fun off lo => !fusedField off lo)
  let s := { s with
    parts := [], fns := [], csms := [], stgs := [], wkts := [], lnks := [], pmcs := [], evNew := [], force := [], hbm := []
    ftls := dmap Ftl.init (fun _ f => { f with chans := [], outCh := [], hold := .free, lun := [], restored := false, ckptRun := false }) s.ftls
    sec := { s.sec with gens := [], keys := [], running := none, reports := [], zeroBands := [] }
    ras := { Ras.init with retired := s.ras.retired }
    pwr := { Pwr.init with
      trip := s.pwr.trip && !power, pps := s.pwr.pps, lossT := s.pwr.lossT, bootWait := low, en := if power then [] else s.pwr.en
      railBad := s.pwr.railBad }
    svc := { Svc.init with
      log := if power then [] else s.svc.log
      tapIr := if power then 1 else s.svc.tapIr
      boundary := if power then [] else s.svc.boundary
      drive := if power then .normal else s.svc.drive } }
  let clk := { Clock.init with refLost := s.clk.refLost }
  { s with clk := if power then clk else { clk with tNs := s.clk.tNs, sub := s.clk.sub } }

theorem State.fget_coldWipe (s : State) (power low : Bool) (G : Fld) (j : Nat) :
    (s.coldWipe power low).fget G j = if fusedField (G.at_ j) (G.lo % 32) = true then s.fget G j else G.rst := by
  refine (s.fget_clearRegs (fun off lo => !fusedField off lo) G j).trans ?_
  cases fusedField (G.at_ j) (G.lo % 32) <;> rfl

/-- What a cold reset then shows: PWR_LOSS_N, the removals, the last reset and the last self-test (R428, R523). -/
def State.coldShow (s : State) (power low : Bool) (last : Nat) : State :=
  let s := (s.fput PWR_STATUS_PWR_LOSS 0 low).showRemovals
  let s := if power then s else s.fset PWR_STATUS_LAST_RESET 0 last
  let l := match s.svc.log.getLast? with | some e => e.2.2 | none => 0
  s.fset SVC_STATUS_LAST_CODE 0 l

theorem State.coldClear_eq (s : State) (power : Bool) :
    s.coldClear power = ((s.coldDrop power).coldWipe power (s.fbit PWR_STATUS_PWR_LOSS 0)).coldShow power (s.fbit PWR_STATUS_PWR_LOSS 0)
      (s.fget PWR_STATUS_LAST_RESET 0) := rfl

end

section
variable {s t u : State}

/-! #### What a cold reset leaves before the boot -/

/-- What stands over a cold reset before its boot (R516, R519 to R521): the fuses, the slots, and PWR_LOSS_N; no partition has a die or any state. -/
structure ColdKeeps (power : Bool) (s t : State) : Prop where
  fuse : t.fget SEC_FUSE_OWNER 0 = s.fget SEC_FUSE_OWNER 0
  slots : t.sec.slots = s.sec.slots
  loss : t.fget PWR_STATUS_PWR_LOSS 0 = (s.fbit PWR_STATUS_PWR_LOSS 0).toNat
  free : ∀ p, p < 8 → t.ptnState p = ptnFree
  dies : t.noDies
  trip : t.pwr.trip = (s.pwr.trip && !power)
  tNs : t.clk.tNs = if power then 0 else s.clk.tNs

theorem State.showRemovals_keepsReset (s : State) : ResetKeeps s s.showRemovals := by
  unfold State.showRemovals
  refine ⟨fun G j hG => foldl_leaves (·.fget G j) (fun u x => ?_) _ s, foldl_leaves (·.pwr.trip) (fun u x => ?_) _ s,
    foldl_leaves (·.sec.slots) (fun u x => ?_) _ s⟩
  · split
    · exact State.fget_fputAt_other _ _ _ _ _ _ _ (resetFree.key_ne (F := SEC_RM_STATUS_ERASE_PENDING) (by decide) hG)
    · rfl
  · split <;> rfl
  · split <;> rfl

theorem State.coldShow_showsLoss (s : State) (power low : Bool) (last : Nat) :
    (s.coldShow power low last).fget PWR_STATUS_PWR_LOSS 0 = low.toNat := by
  unfold State.coldShow
  extract_lets s1 s2 l
  have h1 : s1.fget PWR_STATUS_PWR_LOSS 0 = low.toNat :=
    ((State.showRemovals_keepsReset _).fld _ _ (.inl ⟨by decide, rfl⟩)).trans (State.fget_fput_self _ _ _ _ (by decide))
  have h2 : s2.fget PWR_STATUS_PWR_LOSS 0 = low.toNat := by
    unfold s2
    split
    · exact h1
    · exact (State.fget_fset_other _ _ _ _ _ _ (by decide)).trans h1
  exact (State.fget_fset_other _ _ _ _ _ _ (by decide)).trans h2

/-- Any other field that stands over a reset stands over the end of the clearing. -/
theorem State.coldShow_leaves (s : State) (power low : Bool) (last : Nat) {G : Fld} {j : Nat} (hG : resetKept G j)
    (hloss : PWR_STATUS_PWR_LOSS.key 0 ≠ G.key j) (hlast : PWR_STATUS_LAST_RESET.key 0 ≠ G.key j) :
    (s.coldShow power low last).fget G j = s.fget G j := by
  unfold State.coldShow
  extract_lets s1 s2 l
  have h1 : s1.fget G j = s.fget G j :=
    ((State.showRemovals_keepsReset _).fld _ _ hG).trans (State.fget_fput_other _ _ _ _ _ _ hloss)
  have h2 : s2.fget G j = s.fget G j := by
    unfold s2
    split
    · exact h1
    · exact (State.fget_fset_other _ _ _ _ _ _ hlast).trans h1
  exact (State.fget_fset_other _ _ _ _ _ _ (resetFree.key_ne (F := SVC_STATUS_LAST_CODE) (by decide) hG)).trans h2

theorem State.coldShow_records (s : State) (power low : Bool) (last : Nat) :
    (s.coldShow power low last).pwr = s.pwr ∧ (s.coldShow power low last).sec = s.sec ∧ (s.coldShow power low last).clk = s.clk := by
  unfold State.coldShow
  extract_lets s1 s2 l
  have h1 : Keeps 0x800000 (s.fput PWR_STATUS_PWR_LOSS 0 low) s1 := State.showRemovals_keeps _
  have h2 : s2.pwr = s.pwr ∧ s2.sec = s.sec ∧ s2.clk = s.clk := by
    have h : s1.pwr = s.pwr ∧ s1.sec = s.sec ∧ s1.clk = s.clk :=
      ⟨h1.same .pwr (by decide), h1.same .sec (by decide), h1.same .clk (by decide)⟩
    unfold s2
    split <;> exact h
  exact h2

theorem State.fget_coldWipe_ptn (s : State) (power low : Bool) {G : Fld} (hG : G = PTN_STATUS_STATE ∨ G = PTN_DIES_DIES) {p : Nat}
    (hp : p < 8) : (s.coldWipe power low).fget G p = 0 := by
  rw [State.fget_coldWipe]
  rcases hG with rfl | rfl <;> interval_cases p <;> rfl

theorem State.coldClear_keepsCold (s : State) (power : Bool) : ColdKeeps power s (s.coldClear power) := by
  obtain ⟨hslots, hclk⟩ := s.coldDrop_sec power
  have hdrop := s.coldDrop_frame power
  rw [State.coldClear_eq]
  generalize s.coldDrop power = v at hslots hclk hdrop ⊢
  generalize hlow : s.fbit PWR_STATUS_PWR_LOSS 0 = low
  obtain ⟨hpwr, hsec, hck⟩ := (v.coldWipe power low).coldShow_records power low (s.fget PWR_STATUS_LAST_RESET 0)
  have hfree : ∀ G, (G = PTN_STATUS_STATE ∨ G = PTN_DIES_DIES) → ∀ p, p < 8 →
      ((v.coldWipe power low).coldShow power low (s.fget PWR_STATUS_LAST_RESET 0)).fget G p = 0 := fun G hG p hp =>
    ((v.coldWipe power low).coldShow_leaves power low _ (.inr ⟨hG, hp⟩)
      (Fld.key_ne _ _ (by rcases hG with rfl | rfl <;> decide)) (Fld.key_ne _ _ (by rcases hG with rfl | rfl <;> decide))).trans
      (v.fget_coldWipe_ptn power low hG hp)
  refine ⟨?_, ?_, ?_, fun p hp => hfree _ (.inl rfl) p hp, fun p hp => hfree _ (.inr rfl) p hp, ?_, ?_⟩
  · rw [State.coldShow_leaves _ _ _ _ (.inl ⟨by decide, rfl⟩) (by decide) (by decide), State.fget_coldWipe, if_pos (by decide)]
    exact hdrop.fld _ _ (resetKept.bootKept (.inl ⟨by decide, rfl⟩))
  · exact (congrArg Sec.slots hsec).trans hslots
  · rw [State.coldShow_showsLoss, hlow]
  · exact (congrArg Pwr.trip hpwr).trans (congrArg (· && !power) hdrop.trip)
  · refine (congrArg Clock.tNs hck).trans ?_
    cases power
    · exact (show (v.coldWipe false low).clk.tNs = v.clk.tNs from rfl).trans (congrArg Clock.tNs hclk)
    · rfl

/-! #### The module after a cold reset (R516, R523) -/

/-- What every cold reset leaves: the code of the reset, no partition, the fuses and the slots, and the module up or in ERROR. -/
structure ColdStart (last : Nat) (s t : State) : Prop where
  last : t.fget PWR_STATUS_LAST_RESET 0 = last
  free : ∀ p, p < 8 → t.ptnState p = ptnFree
  fuse : t.fget SEC_FUSE_OWNER 0 = s.fget SEC_FUSE_OWNER 0
  slots : t.sec.slots = s.sec.slots
  up : t.upOrError

theorem ColdStart.boot (hlast : t.fget PWR_STATUS_LAST_RESET 0 = n) (hfree : ∀ p, p < 8 → t.ptnState p = ptnFree) (hdies : t.noDies)
    (hfuse : t.fget SEC_FUSE_OWNER 0 = s.fget SEC_FUSE_OWNER 0) (hslots : t.sec.slots = s.sec.slots) (code : Nat) :
    ColdStart n s (t.boot code) := by
  have hb := State.boot_keepsReset hdies code
  exact ⟨(hb.fld _ _ (.inl ⟨by decide, rfl⟩)).trans hlast, fun p hp => (hb.fld _ _ (.inr ⟨.inl rfl, hp⟩)).trans (hfree p hp),
    (hb.fld _ _ (.inl ⟨by decide, rfl⟩)).trans hfuse, hb.slots.trans hslots, State.boot_upOrError hdies code⟩

theorem State.fset_lastReset_noDies (hs : s.noDies) (n : Nat) : (s.fset PWR_STATUS_LAST_RESET 0 n).noDies := fun p hp =>
  (State.fget_fset_other s PWR_STATUS_LAST_RESET PTN_DIES_DIES 0 p n (Fld.key_ne _ _ (by decide))).trans (hs p hp)

theorem State.fset_lastReset_free (hs : ∀ p, p < 8 → s.ptnState p = ptnFree) (n : Nat) :
    ∀ p, p < 8 → (s.fset PWR_STATUS_LAST_RESET 0 n).ptnState p = ptnFree := fun p hp =>
  (State.fget_fset_other s PWR_STATUS_LAST_RESET PTN_STATUS_STATE 0 p n (Fld.key_ne _ _ (by decide))).trans (hs p hp)

/-- What a cold reset's code is: 5 where the module leaves ERROR. -/
theorem State.coldReset_starts (s : State) {last : Nat} (h0 : last ≠ 0) (h16 : last < 16) (code : Nat) :
    ColdStart (if s.fbit SEC_STATUS_ERROR 0 = true then 5 else last) s (s.coldReset last code) ∧
      (s.coldReset last code).clk.tNs = s.clk.tNs := by
  unfold State.coldReset
  extract_lets l s1
  have hl : l ≠ 0 ∧ l < 16 := by
    unfold l
    split
    · decide
    · exact ⟨h0, h16⟩
  have h1 : ColdKeeps false s s1 := s.coldClear_keepsCold false
  change ColdStart l s _ ∧ _
  clear_value l s1
  rw [if_neg hl.1]
  refine ⟨.boot ((State.fget_fset_self s1 _ 0 l).trans (Nat.mod_eq_of_lt hl.2)) (State.fset_lastReset_free h1.free l)
    (State.fset_lastReset_noDies h1.dies l)
    ((State.fget_fset_other s1 PWR_STATUS_LAST_RESET SEC_FUSE_OWNER 0 0 l (by decide)).trans h1.fuse) h1.slots code, ?_⟩
  exact (congrArg Clock.tNs ((State.boot_keeps _ code).same .clk (by decide))).trans h1.tNs

end

section
variable {s t u : State}

/-! ### Power-on (R516, R587, R589, R590) -/

theorem State.fget_sampleStraps_other (s : State) (x : Straps) {G : Fld} {j : Nat} (hG : RAS_MCTP_SMB_ADDR.key 0 ≠ G.key j)
    (hq : SYS_STRAP_SPI_QUAD.key 0 ≠ G.key j) : (s.sampleStraps x).fget G j = s.fget G j := by
  unfold State.sampleStraps State.strap
  cases x.smb0 <;> cases x.smb1 <;> cases x.smb2 <;> cases x.spiQuad <;>
    exact (State.fget_fset_other _ _ _ _ _ _ hq).trans (State.fget_fset_other _ _ _ _ _ _ hG)

theorem State.sampleStraps_records (s : State) (x : Straps) :
    (s.sampleStraps x).pwr = s.pwr ∧ (s.sampleStraps x).sec = s.sec ∧ (s.sampleStraps x).clk = s.clk :=
  ⟨(s.sampleStraps_keeps x).same .pwr (by decide), (s.sampleStraps_keeps x).same .sec (by decide),
    (s.sampleStraps_keeps x).same .clk (by decide)⟩

/-- The pins read at power-on (R587). -/
def State.atPowerOn (s : State) (lossLow : Bool) (rails : Nat) : State :=
  (s.fput PWR_STATUS_PWR_LOSS 0 lossLow).modPwr (fun x => { x with railBad := rails })

/-- THERMTRIP_N released where it was asserted (R590). -/
def State.releaseTrip (s : State) (trip : Bool) : State := if trip then s.emit (.pin 0 1) else s

/-- The module at power-on, before the boot. -/
def State.powerUp (s : State) (lossLow : Bool) (straps : Straps) (rails : Nat) : State :=
  ((((s.atPowerOn lossLow rails).coldClear true).sampleStraps straps).releaseTrip s.pwr.trip).fset PWR_STATUS_LAST_RESET 0 1

theorem exec_powerOnReset (lossLow : Bool) (code : Nat) (straps : Straps) (rails : Nat) (s : State) :
    exec (.powerOnReset lossLow code straps rails) s = .next ((s.powerUp lossLow straps rails).boot code) := rfl

theorem State.fget_releaseTrip (s : State) (trip : Bool) (G : Fld) (j : Nat) : (s.releaseTrip trip).fget G j = s.fget G j := by
  cases trip <;> rfl

theorem State.fget_atPowerOn_other (s : State) (lossLow : Bool) (rails : Nat) {G : Fld} {j : Nat}
    (hG : PWR_STATUS_PWR_LOSS.key 0 ≠ G.key j) : (s.atPowerOn lossLow rails).fget G j = s.fget G j :=
  State.fget_fput_other _ _ _ _ _ _ hG

/-- A field that neither the straps nor the code of the reset change between the clearing and the boot. -/
theorem State.fget_powerUp (s : State) (lossLow : Bool) (straps : Straps) (rails : Nat) {G : Fld} {j : Nat}
    (hlast : PWR_STATUS_LAST_RESET.key 0 ≠ G.key j) (hsmb : RAS_MCTP_SMB_ADDR.key 0 ≠ G.key j) (hq : SYS_STRAP_SPI_QUAD.key 0 ≠ G.key j) :
    (s.powerUp lossLow straps rails).fget G j = ((s.atPowerOn lossLow rails).coldClear true).fget G j :=
  (State.fget_fset_other _ _ _ _ _ _ hlast).trans ((State.fget_releaseTrip _ _ _ _).trans (State.fget_sampleStraps_other _ _ hsmb hq))

theorem State.powerUp_records (s : State) (lossLow : Bool) (straps : Straps) (rails : Nat) :
    (s.powerUp lossLow straps rails).sec.slots = s.sec.slots ∧ (s.powerUp lossLow straps rails).pwr.trip = false ∧
      (s.powerUp lossLow straps rails).clk.tNs = 0 := by
  have hc := (s.atPowerOn lossLow rails).coldClear_keepsCold true
  unfold State.powerUp
  obtain ⟨hpwr, hsec, hclk⟩ := ((s.atPowerOn lossLow rails).coldClear true).sampleStraps_records straps
  generalize ((s.atPowerOn lossLow rails).coldClear true).sampleStraps straps = v at hpwr hsec hclk ⊢
  have hr : (v.releaseTrip s.pwr.trip).sec = v.sec ∧ (v.releaseTrip s.pwr.trip).pwr = v.pwr ∧ (v.releaseTrip s.pwr.trip).clk = v.clk := by
    cases s.pwr.trip <;> exact ⟨rfl, rfl, rfl⟩
  obtain ⟨hs, hp, hk⟩ := hr
  exact ⟨(congrArg Sec.slots (hs.trans hsec)).trans hc.slots, (congrArg Pwr.trip (hp.trans hpwr)).trans (hc.trip.trans (Bool.and_false _)),
    (congrArg Clock.tNs (hk.trans hclk)).trans hc.tNs⟩

theorem State.powerUp_noDies (s : State) (lossLow : Bool) (straps : Straps) (rails : Nat) : (s.powerUp lossLow straps rails).noDies :=
  fun p hp => (s.fget_powerUp lossLow straps rails (Fld.key_ne _ _ (by decide)) (Fld.key_ne _ _ (by decide)) (Fld.key_ne _ _ (by decide))).trans
    (((s.atPowerOn lossLow rails).coldClear_keepsCold true).dies p hp)

theorem State.powerOn_starts (s : State) (lossLow : Bool) (code : Nat) (straps : Straps) (rails : Nat) :
    ColdStart 1 s ((s.powerUp lossLow straps rails).boot code) := by
  have hc := (s.atPowerOn lossLow rails).coldClear_keepsCold true
  refine .boot (State.fget_fset_self _ PWR_STATUS_LAST_RESET 0 1) (fun p hp => ?_) (s.powerUp_noDies lossLow straps rails) ?_
    (s.powerUp_records lossLow straps rails).1 code
  · exact (s.fget_powerUp lossLow straps rails (Fld.key_ne _ _ (by decide)) (Fld.key_ne _ _ (by decide)) (Fld.key_ne _ _ (by decide))).trans
      (hc.free p hp)
  · exact (s.fget_powerUp lossLow straps rails (by decide) (by decide) (by decide)).trans
      (hc.fuse.trans (s.fget_atPowerOn_other lossLow rails (by decide)))

/-- What is sent stays sent. -/
theorem Sent.emits_left {s t u : State} {e : Emit} (h : Emits s t e) (k : Sent t u) : Emits s u e := by
  obtain ⟨l, hl, he⟩ := h
  obtain ⟨m, hm⟩ := k
  exact ⟨l ++ m, by rw [hm, hl, List.append_assoc], List.mem_append_left m he⟩

theorem State.powerUp_releases (s : State) (lossLow : Bool) (straps : Straps) (rails : Nat) (h : s.pwr.trip = true) :
    Emits s (s.powerUp lossLow straps rails) (.pin 0 1) := by
  obtain ⟨l, hl⟩ := ((((s.atPowerOn lossLow rails).coldClear_keeps true).trans
    (State.sampleStraps_keeps _ straps)).sent : Sent (s.atPowerOn lossLow rails) (((s.atPowerOn lossLow rails).coldClear true).sampleStraps straps))
  refine ⟨l ++ [.pin 0 1], ?_, by simp⟩
  unfold State.powerUp
  rw [h]
  exact (congrArg (· ++ [Emit.pin 0 1]) hl).trans (List.append_assoc _ _ _)

theorem State.powerUp_straps (s : State) (lossLow q a b c : Bool) (rails : Nat) :
    (s.powerUp lossLow ⟨some q, some a, some b, some c⟩ rails).fget RAS_MCTP_SMB_ADDR 0 = 0x58 + a.toNat + 2 * b.toNat + 4 * c.toNat ∧
      (s.powerUp lossLow ⟨some q, some a, some b, some c⟩ rails).fget SYS_STRAP_SPI_QUAD 0 = q.toNat := by
  unfold State.powerUp State.sampleStraps State.strap
  dsimp only
  generalize (s.atPowerOn lossLow rails).coldClear true = v
  constructor
  · refine (State.fget_fset_other _ _ _ _ _ _ (by decide)).trans ((State.fget_releaseTrip _ _ _ _).trans
      ((State.fget_fset_other _ _ _ _ _ _ (by decide)).trans ((State.fget_fset_self v RAS_MCTP_SMB_ADDR 0 _).trans ?_)))
    cases a <;> cases b <;> cases c <;> rfl
  · refine (State.fget_fset_other _ _ _ _ _ _ (by decide)).trans ((State.fget_releaseTrip _ _ _ _).trans
      ((State.fget_fset_self _ SYS_STRAP_SPI_QUAD 0 _).trans ?_))
    cases q <;> rfl

/-- Clause of PackageResets: POWER_ON_RESET. -/
theorem powerOnReset_starts (s : State) (lossLow : Bool) (code : Nat) (straps : Straps) (rails : Nat) :
    Runs (.powerOnReset lossLow code straps rails) s (fun u =>
      u.fget PWR_STATUS_LAST_RESET 0 = 1 ∧ (∀ p, p < 8 → u.ptnState p = ptnFree) ∧ u.fget SEC_FUSE_OWNER 0 = s.fget SEC_FUSE_OWNER 0 ∧ u.sec.slots = s.sec.slots ∧
      (u.fget SEC_STATUS_ERROR 0 = 1 ∨ (u.fget SEC_STATUS_READY 0 = 1 ∧ u.fget PWR_STATUS_READY 0 = 1)) ∧ (code ≠ 0 → u.fget SEC_STATUS_ERROR 0 = 1) ∧ u.clk.tNs = 0 ∧ u.pwr.trip = false ∧ (s.pwr.trip = true → Emits s u (.pin 0 1))) := by
  obtain ⟨-, htrip, htNs⟩ := s.powerUp_records lossLow straps rails
  obtain ⟨hlast, hfree, hfuse, hslots, hup⟩ := s.powerOn_starts lossLow code straps rails
  exact ⟨_, exec_powerOnReset lossLow code straps rails s, hlast, hfree, hfuse, hslots, hup, State.fget_boot_error,
    (congrArg Clock.tNs ((State.boot_keeps _ code).same .clk (by decide))).trans htNs,
    (State.boot_keepsReset (s.powerUp_noDies lossLow straps rails) code).trip.trans htrip,
    fun h => Sent.emits_left (s.powerUp_releases lossLow straps rails h) (State.boot_keeps _ code).sent⟩

/-- Clause of PackageResets: the straps and PWR_LOSS_N at power-on (R587, R589). -/
theorem powerOnReset_samples (s : State) (lossLow : Bool) (code : Nat) (q a b c : Bool) (rails : Nat) :
    Runs (.powerOnReset lossLow code ⟨some q, some a, some b, some c⟩ rails) s (fun u =>
      u.fget RAS_MCTP_SMB_ADDR 0 = 0x58 + a.toNat + 2 * b.toNat + 4 * c.toNat ∧ u.fget SYS_STRAP_SPI_QUAD 0 = q.toNat ∧ u.fget PWR_STATUS_PWR_LOSS 0 = lossLow.toNat) := by
  have hb := State.boot_keepsReset (s.powerUp_noDies lossLow ⟨some q, some a, some b, some c⟩ rails) code
  obtain ⟨hsmb, hquad⟩ := s.powerUp_straps lossLow q a b c rails
  refine ⟨_, exec_powerOnReset lossLow code _ rails s, (hb.fld _ _ (.inl ⟨by decide, rfl⟩)).trans hsmb,
    (hb.fld _ _ (.inl ⟨by decide, rfl⟩)).trans hquad, (hb.fld _ _ (.inl ⟨by decide, rfl⟩)).trans ?_⟩
  refine (s.fget_powerUp lossLow _ rails (by decide) (by decide) (by decide)).trans
    (((s.atPowerOn lossLow rails).coldClear_keepsCold true).loss.trans ?_)
  have h : (s.atPowerOn lossLow rails).fget PWR_STATUS_PWR_LOSS 0 = lossLow.toNat := State.fget_fput_self _ _ _ _ (by decide)
  unfold State.fbit
  rw [h]
  cases lossLow <;> rfl

/-! ### Cold resets (R516, R523, R587) -/

theorem State.deferred_of_coldWait {code : Nat} (h : s.pwr.coldWait = some code) : s.deferred = s.coldReset 2 code := by
  unfold State.deferred
  rw [h]

theorem State.deferred_of_none (h : s.pwr.coldWait = none) : s.deferred = s := by
  unfold State.deferred
  rw [h]

theorem ColdStart.of_advanceTo {n time : Nat} (h : ColdStart n (s.advanceTo time) t) : ColdStart n s t :=
  have hk := s.advanceTo_keeps time
  ⟨h.last, h.free, h.fuse.trans (hk.fget (b := .sec) (by decide) rfl 0), h.slots.trans (congrArg Sec.slots (hk.same .sec (by decide))), h.up⟩

theorem State.fbit_advanceTo (s : State) (t : Nat) {F : Fld} {i : Nat} (hF : F.blk ≠ .tik) : (s.advanceTo t).fbit F i = s.fbit F i := by
  unfold State.fbit
  rw [(s.advanceTo_keeps t).fget (b := F.blk) (by revert hF; cases F.blk <;> decide) rfl i]

/-- A cold reset after some time: the code of the reset goes by the ERROR of the state before. -/
theorem State.coldReset_advanceTo (s : State) (time : Nat) {last : Nat} (h0 : last ≠ 0) (h16 : last < 16) (code : Nat) :
    ColdStart (if s.fbit SEC_STATUS_ERROR 0 = true then 5 else last) s ((s.advanceTo time).coldReset last code) := by
  rw [← s.fbit_advanceTo time (F := SEC_STATUS_ERROR) (i := 0) (by decide)]
  exact ((s.advanceTo time).coldReset_starts h0 h16 code).1.of_advanceTo

/-- Clause of PackageResets: PACKAGE_COLD_RESET by the keyed write. -/
theorem coldResetWrite_starts (s : State) (via : Via) (code t : Nat) (h : MayWrite via (PWR_CTRL_COLD.at_ 0) s) :
    Runs (.packageColdReset (.write via 0x5EB7) code t) s (fun u =>
      u.fget PWR_STATUS_LAST_RESET 0 = (if s.fbit SEC_STATUS_ERROR 0 = true then 5 else 3) ∧ (∀ p, p < 8 → u.ptnState p = ptnFree) ∧ u.fget SEC_FUSE_OWNER 0 = s.fget SEC_FUSE_OWNER 0 ∧ u.sec.slots = s.sec.slots ∧
      (u.fget SEC_STATUS_ERROR 0 = 1 ∨ (u.fget SEC_STATUS_READY 0 = 1 ∧ u.fget PWR_STATUS_READY 0 = 1)) ∧ u.clk.tNs = max s.clk.tNs t) := by
  have he : exec (.packageColdReset (.write via 0x5EB7) code t) s = .next ((s.advanceTo t).coldReset 3 code) :=
    congrArg Host.Outcome.next (regWrite_reaches (h.advanceTo t))
  obtain ⟨hlast, hfree, hfuse, hslots, hup⟩ := s.coldReset_advanceTo t (last := 3) (by decide) (by decide) code
  exact ⟨_, he, hlast, hfree, hfuse, hslots, hup,
    ((s.advanceTo t).coldReset_starts (last := 3) (by decide) (by decide) code).2.trans (s.advanceTo_tNs t)⟩

/-- Clause of PackageResets: PACKAGE_COLD_RESET by the pin. -/
theorem coldResetPin_starts (s : State) (code t : Nat) (h : s.fbit PWR_STATUS_PWR_LOSS 0 = false) :
    Runs (.packageColdReset .pin code t) s (fun u =>
      u.fget PWR_STATUS_LAST_RESET 0 = (if s.fbit SEC_STATUS_ERROR 0 = true then 5 else 2) ∧ (∀ p, p < 8 → u.ptnState p = ptnFree) ∧ u.fget SEC_FUSE_OWNER 0 = s.fget SEC_FUSE_OWNER 0 ∧ u.sec.slots = s.sec.slots ∧
      (u.fget SEC_STATUS_ERROR 0 = 1 ∨ (u.fget SEC_STATUS_READY 0 = 1 ∧ u.fget PWR_STATUS_READY 0 = 1))) := by
  have hl : ¬ (s.advanceTo t).fbit PWR_STATUS_PWR_LOSS 0 = true := by
    rw [s.fbit_advanceTo t (by decide), h]
    decide
  have he : exec (.packageColdReset .pin code t) s = .next ((s.advanceTo t).coldReset 2 code) := if_neg hl
  obtain ⟨hlast, hfree, hfuse, hslots, hup⟩ := s.coldReset_advanceTo t (last := 2) (by decide) (by decide) code
  exact ⟨_, he, hlast, hfree, hfuse, hslots, hup⟩

/-- Clause of PackageResets: a cold reset by the pin during a power loss waits. -/
theorem coldResetPin_waits (s : State) (code t : Nat) (h : s.fbit PWR_STATUS_PWR_LOSS 0 = true) (hq : s.quiescent = false) :
    Runs (.packageColdReset .pin code t) s (fun u =>
      u.pwr.coldWait = some code ∧ u.parts = s.parts ∧ u.out = s.out ∧ u.fget PWR_STATUS_LAST_RESET 0 = s.fget PWR_STATUS_LAST_RESET 0) := by
  have hk := s.advanceTo_keeps t
  have hq' : ((s.advanceTo t).modPwr fun x => { x with coldWait := some code }).quiescent = s.quiescent := by
    unfold State.quiescent State.nDies State.ftl State.modPwr
    rw [hk.variant, show (s.advanceTo t).ftls = s.ftls from hk.same .ftls (by decide)]
  have he : exec (.packageColdReset .pin code t) s = .next ((s.advanceTo t).modPwr fun x => { x with coldWait := some code }) := by
    refine (if_pos (show (s.advanceTo t).fbit PWR_STATUS_PWR_LOSS 0 = true by rw [s.fbit_advanceTo t (by decide), h])).trans ?_
    refine congrArg Host.Outcome.next (if_neg ?_)
    rw [hq', hq]
    decide
  exact ⟨_, he, rfl, hk.same .parts (by decide), hk.same .out (by decide), hk.fget (b := .pwr) (by decide) rfl 0⟩

/-- Clause of PackageResets: DEFERRED_COLD_RESET. -/
theorem deferredColdReset_starts (s : State) (code t : Nat) (h : s.pwr.coldWait = some code)
    (hl : ∀ q, s.pwr.lossT = some q → q + 4000000 ≤ max s.clk.tNs t) :
    Runs (.deferredColdReset t) s (fun u =>
      u.fget PWR_STATUS_LAST_RESET 0 = (if s.fbit SEC_STATUS_ERROR 0 = true then 5 else 2) ∧ (∀ p, p < 8 → u.ptnState p = ptnFree) ∧ u.fget SEC_FUSE_OWNER 0 = s.fget SEC_FUSE_OWNER 0 ∧ u.sec.slots = s.sec.slots ∧
      (u.fget SEC_STATUS_ERROR 0 = 1 ∨ (u.fget SEC_STATUS_READY 0 = 1 ∧ u.fget PWR_STATUS_READY 0 = 1))) := by
  have hp : (s.advanceTo t).pwr = s.pwr := (s.advanceTo_keeps t).same .pwr (by decide)
  have hd : (s.advanceTo t).deferred = (s.advanceTo t).coldReset 2 code := State.deferred_of_coldWait (by rw [hp, h])
  have he : exec (.deferredColdReset t) s = .next ((s.advanceTo t).coldReset 2 code) := by
    change execDeferredColdReset t s = _
    unfold execDeferredColdReset
    dsimp only
    rw [hp, hd, s.advanceTo_tNs]
    split
    next q hq => rw [if_pos (hl q hq)]
    next => rfl
  obtain ⟨hlast, hfree, hfuse, hslots, hup⟩ := s.coldReset_advanceTo t (last := 2) (by decide) (by decide) code
  exact ⟨_, he, hlast, hfree, hfuse, hslots, hup⟩

/-! ### JOURNAL_PAGE_DURABLE and a reset that waits (R277, R587) -/

theorem exec_journalPageDurable (d i ns : Nat) (s : State) : exec (.journalPageDurable d i ns) s =
    .next (if (s.journalPage d i ns).quiescent = true then (s.journalPage d i ns).deferred else s.journalPage d i ns) := rfl

theorem exec_journalPageDurable_of_none {d i ns : Nat} (h : s.pwr.coldWait = none) :
    exec (.journalPageDurable d i ns) s = .next (s.journalPage d i ns) := by
  rw [exec_journalPageDurable, State.deferred_of_none, ite_self]
  rw [show (s.journalPage d i ns).pwr = s.pwr from (s.journalPage_keeps d i ns).same .pwr (by decide), h]

/-- Clause of PackageResets: the last page that a power loss left lets the cold reset that waits run. -/
theorem journalPageDurable_resets (s : State) (d i ns code : Nat) (h : s.pwr.coldWait = some code)
    (hq : (s.journalPage d i ns).quiescent = true) (herr : s.fbit SEC_STATUS_ERROR 0 = false) :
    Runs (.journalPageDurable d i ns) s (fun u =>
      u.fget PWR_STATUS_LAST_RESET 0 = 2 ∧ (∀ p, p < 8 → u.ptnState p = ptnFree)) := by
  have hk := s.journalPage_keeps d i ns
  have hp : (s.journalPage d i ns).pwr = s.pwr := hk.same .pwr (by decide)
  have he : (s.journalPage d i ns).fbit SEC_STATUS_ERROR 0 = false := by
    unfold State.fbit at herr ⊢
    rw [hk.fget (b := .sec) (by decide) rfl 0, herr]
  have hx : exec (.journalPageDurable d i ns) s = .next ((s.journalPage d i ns).coldReset 2 code) := by
    rw [exec_journalPageDurable, if_pos hq, State.deferred_of_coldWait (by rw [hp, h])]
  obtain ⟨hlast, hfree, -⟩ := ((s.journalPage d i ns).coldReset_starts (last := 2) (by decide) (by decide) code).1
  exact ⟨_, hx, hlast.trans (by rw [he]; decide), hfree⟩

end

end Sys2Proof.Machine
end

section
/-!
PROOFS. The edits of sequences, which a journal page that becomes durable lets run, make nothing durable themselves (R82, R220, R224, R277, R597).
-/
namespace Sys2Proof.Machine
set_option Elab.async false

section
variable {s t u a : State} {d : Nat}

theorem SameLogs.snd {α : Type} {x : α × State} {v : α} (h : SameLogs s x.2) (e : x = (v, t)) : SameLogs s t := by
  rw [e] at h
  exact h

/-! ### Flash copies given up (R218, R220, R225) -/

theorem State.journal_logs (s : State) (d ns : Nat) (w : JWhat) : SameLogs s (s.journal d ns w).2 := (s.journal_quiet ns w).logs

theorem State.freeObj_logs (s : State) (d kind obj : Nat) : SameLogs s (s.freeObj d kind obj) := by
  unfold State.freeObj
  extract_lets mine
  split
  · exact .modFtl s d
  next o _ =>
    extract_lets s1
    have h1 : SameLogs s s1 := .ite (.refl s) (s.journal_logs d _ _)
    exact h1.trans (.modFtl s1 d)

theorem State.freeFlash_logs (s : State) (d id : Nat) : SameLogs s (s.freeFlash d id) :=
  (s.freeObj_logs d 1 id).keeps (State.modPage_keeps _ _ _ _)

theorem State.staleFlash_logs (s : State) (d id : Nat) : SameLogs s (s.staleFlash d id) := by
  unfold State.staleFlash
  split
  · exact .ite (s.freeFlash_logs d id) (.refl s)
  · exact .refl s

theorem State.unpark_logs (s : State) (d q : Nat) : SameLogs s (s.unpark d q) := by
  unfold State.unpark
  split
  · exact .refl s
  next k e _ =>
    refine .ite ?_ (.refl s)
    extract_lets s1 s2 s3
    have h3 : SameLogs s s3 := ((s.journal_logs d _ _).keeps (State.setSlot_keeps _ _ _ _)).trans (State.freeObj_logs _ _ _ _)
    refine h3.trans (.foldl (fun u l => .foldl (fun v id => ?_) _ u) _ s3)
    split
    · exact .ite (v.freeFlash_logs d id) (.ofKeeps (v.modPage_keeps _ _ _))
    · exact .refl v

theorem State.freeSeq_logs (s : State) (d slot : Nat) : SameLogs s (s.freeSeq d slot) := by
  unfold State.freeSeq
  split
  · exact .refl s
  next e _ =>
    extract_lets dead s1 s2 s3 s4 s5 s6
    have h2 : SameLogs s s2 := (SameLogs.ofKeeps (s.setSlot_keeps _ _ _)).trans (.foldl (fun u c => .ofKeeps (u.dropHold_keeps d c)) _ s1)
    have h4 : SameLogs s s4 := ((h2.keeps (s2.dropTail_keeps d _)).keeps (s3.segsToLimbo_keeps d _)).keeps (State.segsToLimbo_keeps _ d _)
    have h5 : SameLogs s s5 := h4.keeps (s4.modPfx_keeps d _)
    have h6 : SameLogs s s6 := .ite (h5.trans ((s5.journal_logs d _ _).trans (State.freeObj_logs _ _ _ _))) h5
    exact h6.keeps (s6.freeHints_keeps d _)

/-! ### Flash tasks (R224, R225) -/

theorem State.endTaskWith_logs (s : State) (d : Nat) (t : DTask) (st : Nat) : SameLogs s (s.endTaskWith d t st) := by
  have h1 : SameLogs s (s.modFtl d fun f => { f with tasks := delTask t f.tasks }) := .modFtl s d
  unfold State.endTaskWith
  split
  · exact h1.keeps (State.complete_keeps _ _ _ _ _)
  · exact h1

theorem State.runTask_logs (s : State) (d : Nat) (t : DTask) (n : Nat) : SameLogs s (s.runTask d t n) := by
  induction n generalizing s t with
  | zero => exact .refl s
  | succ n ih =>
    have hnext : ∀ (u : State) (t' : DTask), SameLogs s u →
        SameLogs s ((u.modFtl d (fun f => { f with tasks := putTask t t' f.tasks })).runTask d t' n) := fun u t' h =>
      (h.trans (.modFtl u d)).trans (ih _ _)
    unfold State.runTask
    split
    · exact .refl s
    next q parked r _ =>
      extract_lets ctx
      exact hnext _ _ (s.journal_logs d t.ns (.seq q ctx parked false))
    next i r _ _ =>
      refine .ite (hnext _ _ (.refl s)) (.ite (.refl s) ?_)
      split
      · exact hnext _ _ (.refl s)
      next kind obj sec data _ =>
        extract_lets refused
        refine .ite (s.endTaskWith_logs _ _ _) ?_
        split
        next hw => exact (State.writeObj_quiet hw).logs.trans (.modFtl _ d)
        · exact .ite (.refl s) (s.endTaskWith_logs _ _ _)

theorem State.addTask_logs (s : State) (d : Nat) (t : DTask) : SameLogs s (s.addTask d t) :=
  .trans (t := s.modFtl d fun f => { f with tasks := f.tasks ++ [{ t with reads := !t.todo.isEmpty, epoch := s.epoch d }] }) (.modFtl s d)
    (State.runTask_logs _ d _ _)

theorem State.resumeTasks_logs (s : State) (d : Nat) : SameLogs s (s.resumeTasks d) := by
  unfold State.resumeTasks
  refine .foldl (fun u t => ?_) _ s
  split
  · exact .refl u
  · exact .ite (.refl u) (u.runTask_logs _ _ _)

/-! ### Edits (R82, R596, R597) -/

/-- The durable journals of the state that an edit answers, if it answers one. -/
def EditLogs {α : Type} (g : α → State) (a : State) : Except EditStop α → Prop
  | .error (.fail _ t) => SameLogs a t
  | .error (.wait _) => True
  | .ok r => SameLogs a (g r)

theorem EditLogs.ofKeeps {m : Nat} {α : Type} {g : α → State} {x : Except EditStop α} (h : KEdit m g a x)
    (hm : m.testBit 10 = false := by decide) : EditLogs g a x := by
  match x, h with
  | .error (.fail _ _), h => exact SameLogs.ofKeeps h hm
  | .error (.wait _), _ => trivial
  | .ok _, h => exact SameLogs.ofKeeps h hm

theorem EditLogs.ite {α : Type} {g : α → State} {p : Prop} [Decidable p] {x y : Except EditStop α} (h : EditLogs g a x)
    (k : EditLogs g a y) : EditLogs g a (if p then x else y) := by
  split <;> assumption

theorem EditLogs.bind {α β : Type} {g : α → State} {k : β → State} {x : Except EditStop α} {f : α → Except EditStop β}
    (h : EditLogs g a x) (n : ∀ r, SameLogs a (g r) → EditLogs k a (f r)) : EditLogs k a (x >>= f) := by
  match x, h with
  | .error (.fail _ _), h => exact h
  | .error (.wait _), _ => trivial
  | .ok r, h => exact n r h

/-- An allocation for an edit of `a`, made in a state `u` on its way. -/
theorem EditLogs.alloc {m : Nat} {α : Type} {g : α → State} {x : Except AllocFail α} (h : SameLogs a u) (k : KExc m g u x)
    (hm : m.testBit 10 = false := by decide) : EditLogs g a (liftAlloc a d x) := by
  cases x with
  | ok r => exact h.keeps k hm
  | error e =>
    cases e with
    | quota => exact .refl a
    | nomem => exact .ofKeeps (a.nomem_keeps d)

theorem State.append_logs (s : State) (d slot l pos : Nat) (toks : List Nat) (data : List (List Nat)) :
    EditLogs (fun r => r.s) s (s.append d slot l pos toks data) := by
  have hstop : ∀ n, EditLogs (α := EditOk) (fun r => r.s) s (.error (.fail n s)) := fun _ => SameLogs.refl s
  unfold State.append
  extract_lets s0 n
  split
  · exact hstop _
  next e _ =>
  split
  · exact hstop _
  next c _ =>
  extract_lets off same x room first b0 b pbase s1 fill known src rest
  refine .ite (hstop _) (.ite (hstop _) (.ite (show SameLogs s (s.tokenMiss d) from .ofKeeps (s.tokenMiss_keeps d)) (.ite (hstop _) ?_)))
  have h1 : SameLogs s s1 := .ite (.refl s) (s.staleFlash_logs d _)
  have hnew : ∀ {u n pg}, SameLogs s u →
      EditLogs (fun r : Nat × State => r.2) s (liftAlloc s d (u.newPage d n pg)) := fun {u n pg} h => .alloc h (u.newPage_keeps d n pg)
  have hrest : ∀ y, EditLogs (fun r => r.s) s (rest y) := fun y => by
    refine .bind (g := fun _ => s) (.ofKeeps (State.quotaFirst_keeps s d _ _ (Keeps.refl (m := 0) s))) fun _ _ => ?_
    refine .bind (g := fun r : Nat × State => r.2) (.ite (.bind (hnew (.refl s)) fun p hp => ?_)
      (.bind (g := fun u => u) (.alloc h1 (s1.growPage_keeps d _ _)) fun u hu => ?_)) fun p hp => ?_
    · exact SameLogs.keeps hp (State.addRef_keeps _ d _)
    · exact SameLogs.keeps hu (State.modPage_keeps _ d _ _)
    · refine .bind (g := fun r : LayerEnt × List Nat × State => r.2.2) (.ite hp (.bind (hnew hp) fun q hq => ?_)) fun q hq => ?_
      · exact SameLogs.keeps hq (State.addRef_keeps _ d _)
      · exact (SameLogs.keeps hq (State.setSlot_keeps _ d _ _)).keeps (State.hbmWrite_keeps _ d _ _)
  exact .ite (.bind (g := fun _ => s) (.ofKeeps (State.mustRead_keeps s d _ (Keeps.refl (m := 0) s))) fun y _ => hrest y) (hrest ())

theorem State.applyEdit_logs (s : State) (d slot : Nat) (edit : Edit) : EditLogs (fun r => r.s) s (s.applyEdit d slot edit) := by
  have hstop : ∀ n, EditLogs (α := EditOk) (fun r => r.s) s (.error (.fail n s)) := fun _ => SameLogs.refl s
  cases edit with
  | append q l pos toks data => exact s.append_logs d slot l pos toks data
  | write q l pos data => exact .ofKeeps (s.writeMap_keeps d slot l pos data)
  | truncate q n => exact .ofKeeps (s.truncate_keeps d slot n)
  | fork q src n parked => exact .ofKeeps (s.fork_keeps d slot q n parked)
  | free q =>
    change EditLogs _ s (match tget (s.pfx d).index slot with
      | none => _
      | some e => _)
    split
    · exact hstop _
    · exact (s.freeSeq_logs d slot : SameLogs s _)
  | class_ q parked => exact hstop _

theorem EditLogs.fail {α : Type} {g : α → State} {x : Except EditStop α} {n : Nat} (h : EditLogs g a x) (e : x = .error (.fail n t)) :
    SameLogs a t := by
  rw [e] at h
  exact h

theorem EditLogs.ok {α : Type} {g : α → State} {x : Except EditStop α} {r : α} (h : EditLogs g a x) (e : x = .ok r) :
    SameLogs a (g r) := by
  rw [e] at h
  exact h

theorem State.finishEdit_logs (d q : Nat) (desc : Option (Nat × Nat × Nat)) (j : Nat) (r : EditOk) :
    SameLogs r.s (State.finishEdit d q desc j r) := by
  unfold State.finishEdit
  extract_lets u v parked
  have hu : SameLogs r.s u := .ofKeeps (r.s.repinSeq_keeps d q)
  have hv : SameLogs r.s v := by
    unfold v
    split
    · exact hu.keeps (u.startSeals_keeps _ _)
    · exact hu
  refine .ite ((hv.trans (v.addTask_logs _ _)).trans (State.resumeTasks_logs _ _)) ?_
  split
  · exact hv.keeps (v.complete_keeps _ _ _ _)
  · exact hv

theorem State.stageAll_logs (s : State) (d prio : Nat) (l : List Nat) : SameLogs s (l.foldl (fun s id => s.stageIn d id prio) s) :=
  .foldl (fun u _ => .ofKeeps (u.stageIn_keeps _ _ _)) l s

/-- An edit that did not take effect makes nothing durable if what it leaves does not. -/
theorem State.stopEdit_logs (s : State) (d q : Nat) (desc : Option (Nat × Nat × Nat)) (edit : Edit) {x : EditStop}
    (hx : ∀ st u, x = .fail st u → SameLogs s u) : SameLogs s (s.stopEdit d q desc edit x) := by
  unfold State.stopEdit
  split
  next st u =>
    have hu := hx st u rfl
    split
    · exact hu.keeps (u.complete_keeps _ _ _ _)
    · exact hu
  next pages =>
    extract_lets u
    have hu : SameLogs s u := s.stageAll_logs d 2 pages
    split
    · exact hu.keeps (u.modPfx_keeps _ _)
    · exact hu

theorem State.changeClass_logs (s : State) (d : Nat) (e : SeqSlot) (desc : Option (Nat × Nat × Nat)) (parked : Bool) :
    SameLogs s (s.changeClass d e desc parked) := by
  unfold State.changeClass
  extract_lets done task chunks cp tails u
  refine .ite ?_ (.ite (s.addTask_logs _ _) ?_)
  · unfold done
    split
    · exact .ofKeeps (s.complete_keeps _ _ _ _)
    · exact .refl s
  · have hu : SameLogs s u := s.unpark_logs _ _
    exact hu.trans (u.addTask_logs _ _)

theorem State.runEdit_logs (s : State) (d : Nat) (desc : Option (Nat × Nat × Nat)) (edit : Edit) : SameLogs s (s.runEdit d desc edit) := by
  have hfail : ∀ st q, SameLogs s (s.stopEdit d q desc edit (.fail st s)) := fun st q =>
    s.stopEdit_logs d q desc edit (by rintro _ _ ⟨⟩; exact .refl s)
  unfold State.runEdit
  extract_lets q fail
  split
  · exact hfail _ _
  next slot e _ =>
    refine .ite ?_ (.ite (hfail _ _) ?_)
    · split
      · exact .ofKeeps (s.modPfx_keeps _ _)
      · exact .refl s
    · split
      · exact s.changeClass_logs _ _ _ _
      · split
        next he => exact s.stopEdit_logs d q desc edit fun st u hx => (s.applyEdit_logs d slot edit).fail (hx ▸ he)
        next he =>
          split
          · exact hfail _ _
          · exact ((s.applyEdit_logs d slot edit).ok he).trans (State.finishEdit_logs _ _ _ _ _)

theorem State.runCarried_logs (s : State) (d : Nat) (edit : Edit) : SameLogs s (s.runCarried d edit).2 := by
  unfold State.runCarried
  split
  · exact .refl s
  next slot e _ =>
    split
    · exact .refl s
    · split
      next he => exact ((s.applyEdit_logs d slot edit).ok he).trans (State.finishEdit_logs d _ none 0 _)
      next he => exact (s.applyEdit_logs d slot edit).fail he
      · exact s.stageAll_logs d 2 _

theorem State.retryEdit_logs (s : State) (d : Nat) (w : WaitEdit) : SameLogs s (s.retryEdit d w) := by
  unfold State.retryEdit
  extract_lets back
  have hback : ∀ u : State, SameLogs u (back u) := fun u => .ofKeeps (u.modPfx_keeps _ _)
  refine .ite (hback s) ?_
  split
  · exact s.runEdit_logs _ _ _
  · split
    next e => exact (SameLogs.snd (s.runCarried_logs _ _) e).keeps (State.settleAppend_keeps _ _ _ _ _)
    next e => exact (SameLogs.snd (s.runCarried_logs _ _) e).trans (hback _)

theorem State.retryEdits_logs (s : State) (d n : Nat) : SameLogs s (s.retryEdits d n) := by
  induction n generalizing s with
  | zero => exact .refl s
  | succ n ih =>
    unfold State.retryEdits
    extract_lets l
    unfold l
    split
    · exact .refl s
    next w r _ =>
      extract_lets s1 back s2 s3
      have h1 : SameLogs s s1 := (SameLogs.ofKeeps (s.modPfx_keeps _ _)).trans (State.retryEdit_logs _ _ _)
      have h2 : SameLogs s s2 := h1.keeps (s1.modPfx_keeps _ _)
      exact (h2.trans (ih s2)).keeps (s3.modPfx_keeps _ _)

end

end Sys2Proof.Machine
end

section
/-!
PROOFS. JOURNAL_PAGE_DURABLE: the oldest page in flight joins the durable journal (R277, R278).
-/
namespace Sys2Proof.Machine
set_option Elab.async false

section
variable {s t u : State} {d : Nat}

/-! ### A journal page becomes durable (R277, R278) -/

theorem State.modCopies_logs (s : State) (d : Nat) (loc : FLoc) (g : FObj → FObj) : SameLogs s (s.modCopies d loc g) := .modFtl s d

theorem State.applyDurable_logs (s : State) (d : Nat) (r : JRec) : SameLogs s (s.applyDurable d r) := by
  unfold State.applyDurable
  extract_lets s1 mark s2
  have h1 : SameLogs s s1 := .modFtl s d
  have h2 : SameLogs s s2 := by
    unfold s2
    split
    · exact h1.trans (.modFtl s1 d)
    · exact h1
  have hmark : ∀ loc, SameLogs s (mark s2 loc) := fun loc => h2.trans (s2.modCopies_logs d loc _)
  clear_value s2 mark
  split
  · exact (hmark _).keeps (State.modPage_keeps _ _ _ _)
  · exact (hmark _).keeps (State.modChunk_keeps _ _ _ _)
  · exact hmark _
  · refine .ite h2 ?_
    extract_lets was s3
    have h3 : SameLogs s s3 := h2.keeps (s2.setClass_keeps _ _ _)
    exact .ite (h3.keeps (s3.fadd_keeps _ _ _)) h3
  next kind obj src dst _ =>
    extract_lets s3 s4
    have h3 : SameLogs s s3 := h2.trans (.modFtl s2 d)
    have h4 : SameLogs s s4 := h3.trans (s3.modCopies_logs d dst _)
    exact .ite (h4.keeps (s4.modPage_keeps _ _ _)) h4
  · exact .ite (h2.trans (.modFtl s2 d)) h2
  · split
    · exact h2.keeps (s2.sealCheck_keeps _)
    · exact h2
  · exact h2

theorem State.finishTasks_logs (s : State) (d : Nat) (l : List DTask) : SameLogs s (s.finishTasks d l) := by
  induction l generalizing s with
  | nil => exact .refl s
  | cons t l ih =>
    unfold State.finishTasks
    refine SameLogs.trans ?_ (ih _)
    refine .ite ?_ (.refl s)
    extract_lets s1
    have h1 : SameLogs s s1 := .modFtl s d
    split
    · exact h1.keeps (s1.complete_keeps _ _ _ _)
    · exact h1

/-- The durable journal after the oldest page in flight. -/
def Ftl.logWith (f : Ftl) (p : JPage) : List JRec × Nat := (f.jlog ++ p.recs, p.recs.foldl (fun m r => max m r.jseq) f.jdur + p.pads)

/-- The one page in flight, both of whose programs passed, becomes durable. -/
theorem State.jAdvance_log {p : JPage} (h : (s.ftl d).jpages = [p]) (hA : p.okA = true) (hB : p.okB = true) :
    ((s.jAdvance d 1).ftl d).log = (s.ftl d).logWith p := by
  unfold State.jAdvance
  rw [h]
  dsimp only
  rw [if_pos (by rw [hA, hB]; rfl)]
  unfold State.jAdvance
  refine ((SameLogs.foldl (fun u r => u.applyDurable_logs d r) p.recs _) d).trans ?_
  rw [State.modFtl_ftl_self]
  rfl

/-! #### What follows a durable page: tasks, edits, collection (R82, R277, R280) -/

theorem State.pageDurable_log {p : JPage} (h : (s.ftl d).jpages = [p]) : ((s.pageDurable d 0).ftl d).log = (s.ftl d).logWith p := by
  unfold State.pageDurable
  extract_lets n s1 s2 s3 s4 s5
  have hn : n = 1 := congrArg List.length h
  have h1 : s1.ftl d = { s.ftl d with jpages := [{ p with okA := true, okB := true }] } := by
    unfold s1
    rw [State.modFtl_ftl_self, h]
    rfl
  have h2 : (s2.ftl d).log = (s.ftl d).logWith p := by
    unfold s2
    rw [hn, State.jAdvance_log (congrArg Ftl.jpages h1) rfl rfl, h1]
    rfl
  have h5 : SameLogs s2 s5 := by
    have h4 : SameLogs s2 s4 := (s2.finishTasks_logs d _).trans (s3.retryEdits_logs d _)
    exact .ite (h4.trans (State.issueJournal_quiet s4).logs) h4
  exact ((h5.trans (State.gcAdvance_quiet (d := d) s5).logs) d).trans h2

theorem State.writeParity_quiet (s : State) (band stripe : Nat) : FlashQuiet d s (s.writeParity d band stripe) := by
  unfold State.writeParity
  split
  · exact s.roCheck_quiet
  · exact (FlashQuiet.modFtl s d).trans ((State.rollJournal_quiet _ _).trans (State.serve_quiet _))

theorem State.partialParity_quiet (s : State) : FlashQuiet d s (s.partialParity d) := by
  unfold State.partialParity
  refine .ite (.refl d s) ((FlashQuiet.foldl (fun u e => ?_) _ s).trans (State.issueJournal_quiet _))
  split
  · exact .ite (.refl d u) ((FlashQuiet.modFtl u d).trans (State.writeParity_quiet _ _ _))
  · exact .refl d u

/-! #### JOURNAL_PAGE_DURABLE (R277) -/

theorem State.journalPage_none {i ns : Nat} (h : (s.ftl d).jpages.length ≤ i) : s.journalPage d i ns = s := by
  unfold State.journalPage
  rw [List.getElem?_eq_none h]

/-- The time of a program counted: the pages in flight and the durable journal stand. -/
theorem State.countProgram_pages (s : State) (d ev n w ns : Nat) :
    (((s.pmc d ev n w none).chanTime d ns false false).ftl d).jpages = (s.ftl d).jpages ∧
      (((s.pmc d ev n w none).chanTime d ns false false).ftl d).log = (s.ftl d).log := by
  have h : (s.pmc d ev n w none).ftls = s.ftls := (s.pmc_keeps d ev n w none).same .ftls (by decide)
  have hf : (s.pmc d ev n w none).ftl d = s.ftl d := by
    unfold State.ftl
    rw [h]
  unfold State.chanTime
  rw [State.modFtl_ftl_self, hf]
  exact ⟨rfl, rfl⟩

theorem State.journalPage_log {p : JPage} {x y : FOp} {k l : Nat} (ns : Nat) (hp : (s.ftl d).jpages = [p])
    (hops : (s.ftl d).pageOps p = [(x, false), (y, false)]) (hx : (s.ftl d).lunOf x = some k) (hy : (s.ftl d).lunOf y = some l)
    (hst : (s.ftl d).still = false) : ((s.journalPage d 0 ns).ftl d).log = (s.ftl d).logWith p := by
  have hruns : ((s.ftl d).pageOps p).filterMap (fun x => if x.2 then none else (s.ftl d).lunOf x.1) = [k, l] := by
    rw [hops]
    simp [hx, hy]
  unfold State.journalPage
  rw [show (s.ftl d).jpages[0]? = some p by rw [hp]; rfl]
  dsimp -zeta only
  extract_lets ops runs n s1 s2
  rw [if_neg (by
    unfold runs ops
    rw [hruns, hops, hst]
    simp)]
  have h1 : (s1.ftl d).jpages = [p] ∧ (s1.ftl d).log = (s.ftl d).log := by
    unfold s1
    rw [State.modFtl_ftl_self]
    exact ⟨hp, rfl⟩
  have h2 : (s2.ftl d).jpages = [p] ∧ (s2.ftl d).log = (s.ftl d).log :=
    ⟨(foldl_leaves (fun u => (u.ftl d).jpages) (fun u _ => (u.countProgram_pages d 0x13 n (4096 * n) ns).1) runs s1).trans h1.1,
      (foldl_leaves (fun u => (u.ftl d).log) (fun u _ => (u.countProgram_pages d 0x13 n (4096 * n) ns).2) runs s1).trans h1.2⟩
  clear_value s2
  obtain ⟨hpages, hlog⟩ := h2
  obtain ⟨hjlog, hjdur⟩ := Prod.mk.inj hlog
  have h3 : ((s2.pageDurable d 0).ftl d).log = (s.ftl d).logWith p := by
    rw [State.pageDurable_log hpages, Ftl.logWith, Ftl.logWith, hjlog, hjdur]
  exact (((State.serve_quiet (d := d) _).trans (State.partialParity_quiet _)).logs d).trans h3

/-- Clause of PackageResets: JOURNAL_PAGE_DURABLE of no page in flight. -/
theorem journalPageDurable_nothing (s : State) (d i ns : Nat) (hw : s.pwr.coldWait = none) (h : (s.ftl d).jpages.length ≤ i) :
    Runs (.journalPageDurable d i ns) s (fun u => u.ftls = s.ftls ∧ u.out = s.out) := by
  refine ⟨_, exec_journalPageDurable_of_none hw, ?_⟩
  rw [State.journalPage_none h]
  exact ⟨rfl, rfl⟩

/-- Clause of PackageResets: JOURNAL_PAGE_DURABLE of the one page in flight. -/
theorem journalPageDurable_appends (s : State) (d ns k l : Nat) (p : JPage) (x y : FOp) (hw : s.pwr.coldWait = none)
    (hp : (s.ftl d).jpages = [p]) (hops : (s.ftl d).pageOps p = [(x, false), (y, false)]) (hx : (s.ftl d).lunOf x = some k)
    (hy : (s.ftl d).lunOf y = some l) (hst : (s.ftl d).still = false) :
    Runs (.journalPageDurable d 0 ns) s (fun u =>
      (u.ftl d).jlog = (s.ftl d).jlog ++ p.recs ∧ (u.ftl d).jdur = p.recs.foldl (fun m r => max m r.jseq) (s.ftl d).jdur + p.pads) := by
  refine ⟨_, exec_journalPageDurable_of_none hw, ?_⟩
  exact Prod.mk.inj (State.journalPage_log ns hp hops hx hy hst)

end

end Sys2Proof.Machine
end

section
/-!
PROOFS. The package warm reset: no outstanding descriptor, no function READY (R518, R521).
-/
namespace Sys2Proof.Machine
set_option Elab.async false

section
variable {s t u : State}

/-! ### PACKAGE_WARM_RESET (R518, R521) -/

/-- What holds of the default and of every mapped value holds of every entry. -/
theorem dget_dmap_of {α : Type} [DecidableEq α] {P : α → Prop} {d : α} {f : Nat → α → α} (hd : P d) (hf : ∀ k v, P (f k v))
    (t : List (Nat × α)) (k : Nat) : P (dget (dmap d f t) d k) := by
  induction t with
  | nil => exact hd
  | cons e r ih =>
    unfold dmap dnorm tmap tfilter
    by_cases hv : f e.1 e.2 = d
    · rw [if_neg (by simp [hv])]
      exact ih
    · rw [if_pos (by simp [hv])]
      unfold dget tget
      by_cases hk : e.1 = k
      · rw [if_pos hk]
        exact hf _ _
      · rw [if_neg hk]
        exact ih

/-- The function blocks' READY reads 0, and no partition has an outstanding descriptor. -/
structure HostsDown (s : State) : Prop where
  outst : ∀ p, (s.part p).outst = []
  ready : ∀ f, f < 16 → s.fget HRG_STATUS_READY f = 0

theorem HostsDown.ofKeeps {m : Nat} (hs : HostsDown s) (h : Keeps m s t) (hp : m.testBit 5 = false := by decide)
    (hr : m.testBit 22 = false := by decide) : HostsDown t := by
  refine ⟨fun p => ?_, fun f hf => (h.fget (b := .hrg) hr rfl f).trans (hs.ready f hf)⟩
  rw [show t.part p = s.part p from congrArg (fun l => dget l Part.init p) (h.same .parts hp)]
  exact hs.outst p

theorem HostsDown.foldl {α : Type} {f : State → α → State} (hf : ∀ u x, HostsDown u → HostsDown (f u x)) (l : List α) (hs : HostsDown s) :
    HostsDown (l.foldl f s) := List.foldlRecOn l f hs fun u hu x _ => hf u x hu

theorem State.outst_congr (h : t.parts = s.parts) (p : Nat) : (t.part p).outst = (s.part p).outst := by
  unfold State.part
  rw [h]

/-- An event of the package leaves the outstanding descriptors. -/
theorem State.evtPkg_outst (s : State) (F : Fld) (p : Nat) : ((s.evtPkg F).part p).outst = (s.part p).outst := by
  unfold State.evtPkg
  split
  · rfl
  · extract_lets s1 note
    refine (State.outst_congr ((State.pf0_keeps _).same .parts (by decide)) p).trans
      ((foldl_leaves (fun u => (u.part p).outst) (fun u q => ?_) _ s1).trans rfl)
    unfold note
    split
    · by_cases hq : q = p
      · subst hq
        rw [State.modPart_part_self]
      · rw [State.modPart_part_other _ _ hq]
    · rfl

/-- No time passes, and the outstanding descriptors stand. -/
def TimeQuiet (s t : State) : Prop := t.clk.tNs = s.clk.tNs ∧ ∀ p, (t.part p).outst = (s.part p).outst

theorem TimeQuiet.withClk (hp : t.parts = s.parts) {k : Clock} (hk : k.tNs = s.clk.tNs) : TimeQuiet s (t.withClk k) :=
  ⟨hk, State.outst_congr hp⟩

theorem TimeQuiet.evtPkg (h : TimeQuiet s t) {F : Fld} (hF : (F.bit ||| 0x21).testBit 4 = false) : TimeQuiet s (t.evtPkg F) :=
  ⟨(congrArg Clock.tNs ((t.evtPkg_keeps F).same .clk hF)).trans h.1, fun p => (t.evtPkg_outst F p).trans (h.2 p)⟩

theorem State.ptpLost_quiet (s : State) : TimeQuiet s s.ptpLost := by
  have hhold : TimeQuiet s (s.discTo discHold) := by
    rw [State.discTo_hold]
    refine TimeQuiet.evtPkg ?_ (by decide)
    exact .withClk rfl rfl
  have hunsync : TimeQuiet s (s.discTo discUnsync) := by
    rw [State.discTo_unsync]
    refine TimeQuiet.evtPkg ?_ (by decide)
    exact .withClk rfl rfl
  have hfree : TimeQuiet s (s.discTo discFree) := by
    rw [State.discTo_free]
    exact .withClk rfl rfl
  unfold State.ptpLost
  extract_lets st
  split
  · split
    · exact hfree
    · split
      · exact hunsync
      · exact hhold
  · split
    · exact hhold
    · exact ⟨rfl, fun _ => rfl⟩

theorem State.ptpLost_hostsDown (hs : HostsDown s) : HostsDown s.ptpLost :=
  ⟨fun p => (s.ptpLost_quiet.2 p).trans (hs.outst p),
    fun f hf => (s.ptpLost_keeps.fget (b := .hrg) (by decide) rfl f).trans (hs.ready f hf)⟩

/-! #### The parts of a warm reset -/

/-- What a warm reset stops and clears, up to the partitions' SEAL. -/
def State.warmClear (s : State) : State :=
  let s := (s.svcAbort).endStatics
  let s := (List.range s.nDies).foldl (fun (s : State) d => s.dieZero d false) s
  let s := s.clearRegs warmField
  { s with
    fns := [], pmcs := [], evNew := tfilter (fun o _ => decide (0x30000 ≤ o ∨ o < 0x20000)) s.evNew
    parts := dmap Part.init (fun _ p => { p with
      outst := [], lostGrads := [], sealing := false
      ctxs := tmap (fun _ c => { c with destroying := none }) p.ctxs }) s.parts
    ras := { s.ras with
      losses := s.ras.losses.map (fun x => { x with ledger := [], descs := [], images := [], assign := none })
      units := tmap (fun _ r => { r with desc := none }) s.ras.units
      corrected := [], ueT := [], ue := [], replays := [] } }

/-- SEAL cleared where the partition is not SEALED. -/
def State.warmSeals (s : State) : State :=
  (List.range 8).foldl (fun (s : State) p => if s.sealed p then s else s.fset PTN_CTRL_SEAL p 0) s

/-- A die after a warm reset: started, or on its way to its self-test if it is lost. -/
def State.warmDie (s : State) (d : Nat) : State := if (s.row uDie d 0).lost then (s.dieTest d).countWickets d else s.dieStart d

/-- The module after a warm reset, before its dies start. -/
def State.warmHalt (s : State) (last : Nat) : State :=
  (((s.warmClear.warmSeals).fset PWR_STATUS_LAST_RESET 0 last).fset PWR_STATUS_READY 0 1).ptpLost

theorem State.warmReset_eq (s : State) (last : Nat) :
    s.warmReset last = (List.range (s.warmHalt last).nDies).foldl State.warmDie (s.warmHalt last) := rfl

theorem State.warmClear_hostsDown (s : State) : HostsDown s.warmClear := by
  unfold State.warmClear
  extract_lets s1 s2 s3
  refine ⟨fun p => dget_dmap_of (P := fun v : Part => v.outst = []) rfl (fun _ _ => rfl) s3.parts p, fun f hf => ?_⟩
  have h3 : s3.fget HRG_STATUS_READY f = 0 := by
    refine (s2.fget_clearRegs warmField HRG_STATUS_READY f).trans (if_pos ?_)
    interval_cases f <;> decide
  exact h3

theorem State.warmClear_tNs (s : State) : s.warmClear.clk.tNs = s.clk.tNs := by
  unfold State.warmClear
  extract_lets s1 s2 s3
  have h1 : s1.clk = s.clk := ((State.endStatics_keeps _).same .clk (by decide)).trans (s.svcAbort_keeps.same .clk (by decide))
  have h2 : s2.clk = s1.clk := foldl_leaves (fun u => u.clk) (fun u d => (u.dieZero_keeps d false).same .clk (by decide)) _ s1
  exact congrArg Clock.tNs (h2.trans h1)

theorem State.warmSeals_keeps (s : State) : Keeps 0x10000000 s s.warmSeals := by
  refine Keeps.foldl _ _ (fun u p => ?_) (Keeps.refl s)
  exact Keeps.ite (Keeps.refl u) (show Keeps 0x10000000 u _ from u.fset_keeps PTN_CTRL_SEAL p 0)

theorem State.warmDie_frame (s : State) (d : Nat) : BootFrame s (s.warmDie d) :=
  .ite ((BootFrame.ofKeeps (s.dieTest_keeps d)).trans (State.countWickets_frame _ d)) (s.dieStart_frame d)

theorem State.warmDie_keeps (s : State) (d : Nat) : Keeps 0x32E203050A s (s.warmDie d) :=
  Keeps.ite (((s.dieTest_keeps d).mono (by decide)).tr ((State.countWickets_keeps _ d).mono (by decide)))
    ((s.dieStart_keeps d).mono (by decide))

/-- What a warm reset leaves before its dies start. -/
theorem State.warmHalt_leaves (s : State) (last : Nat) (hl : last < 16) : HostsDown (s.warmHalt last) ∧
    (s.warmHalt last).fget PWR_STATUS_LAST_RESET 0 = last ∧ (s.warmHalt last).fget PWR_STATUS_READY 0 = 1 ∧
    (s.warmHalt last).clk.tNs = s.clk.tNs := by
  have hseal := s.warmClear.warmSeals_keeps
  have hdown : HostsDown s.warmClear.warmSeals := s.warmClear_hostsDown.ofKeeps hseal
  have htNs : s.warmClear.warmSeals.clk.tNs = s.clk.tNs := (congrArg Clock.tNs (hseal.same .clk (by decide))).trans s.warmClear_tNs
  unfold State.warmHalt
  generalize s.warmClear.warmSeals = v at hdown htNs ⊢
  have hset : HostsDown ((v.fset PWR_STATUS_LAST_RESET 0 last).fset PWR_STATUS_READY 0 1) :=
    (hdown.ofKeeps (v.fset_keeps PWR_STATUS_LAST_RESET 0 last)).ofKeeps (State.fset_keeps _ PWR_STATUS_READY 0 1)
  have hk := ((v.fset PWR_STATUS_LAST_RESET 0 last).fset PWR_STATUS_READY 0 1).ptpLost_keeps
  refine ⟨State.ptpLost_hostsDown hset, ?_, ?_, (State.ptpLost_quiet _).1.trans htNs⟩
  · exact (hk.fget (b := .pwr) (by decide) rfl 0).trans ((State.fget_fset_other _ _ _ _ _ _ (by decide)).trans
      ((State.fget_fset_self v PWR_STATUS_LAST_RESET 0 last).trans (Nat.mod_eq_of_lt hl)))
  · exact (hk.fget (b := .pwr) (by decide) rfl 0).trans (State.fget_fset_self _ PWR_STATUS_READY 0 1)

theorem State.warmReset_leaves (s : State) (last : Nat) (hl : last < 16) : HostsDown (s.warmReset last) ∧
    (s.warmReset last).fget PWR_STATUS_LAST_RESET 0 = last ∧ (s.warmReset last).fget PWR_STATUS_READY 0 = 1 ∧
    (s.warmReset last).clk.tNs = s.clk.tNs := by
  obtain ⟨hdown, hlast, hready, htNs⟩ := s.warmHalt_leaves last hl
  rw [State.warmReset_eq]
  generalize s.warmHalt last = v at hdown hlast hready htNs ⊢
  have hf : BootFrame v ((List.range v.nDies).foldl State.warmDie v) := .foldl (fun u d => u.warmDie_frame d) _ v
  refine ⟨hdown.foldl (fun u d hu => hu.ofKeeps (u.warmDie_keeps d)) _, (hf.fld _ _ (.inr ⟨by decide, .inr (.inr (.inl rfl))⟩)).trans hlast,
    (hf.fld _ _ (.inr ⟨by decide, .inr (.inr (.inl rfl))⟩)).trans hready, ?_⟩
  exact (congrArg Clock.tNs (foldl_leaves (fun u => u.clk) (fun u d => (u.warmDie_keeps d).same .clk (by decide)) _ v)).trans htNs

/-- Clause of PackageResets: PACKAGE_WARM_RESET. -/
theorem packageWarmReset_leaves (s : State) (via : Via) (t : Nat) (h : MayWrite via (PWR_CTRL_WARM.at_ 0) s) :
    Runs (.packageWarmReset via 0x5EB7 t) s (fun u =>
      u.fget PWR_STATUS_LAST_RESET 0 = 6 ∧ u.fget PWR_STATUS_READY 0 = 1 ∧ (∀ p, p < 8 → (u.part p).outst = []) ∧ (∀ f, f < 16 → u.fget HRG_STATUS_READY f = 0) ∧ u.clk.tNs = max s.clk.tNs t) := by
  have he : exec (.packageWarmReset via 0x5EB7 t) s = .next ((s.advanceTo t).warmReset 6) :=
    congrArg Host.Outcome.next (regWrite_reaches (h.advanceTo t))
  obtain ⟨hdown, hlast, hready, htNs⟩ := (s.advanceTo t).warmReset_leaves 6 (by decide)
  exact ⟨_, he, hlast, hready, fun p _ => hdown.outst p, hdown.ready, htNs.trans (s.advanceTo_tNs t)⟩

end

end Sys2Proof.Machine
end

section
/-!
PROOFS. The loss and the reset of a die: it is LOST, its link is down, and nothing that follows brings it back (R471, R480 to R488, R516).
-/
namespace Sys2Proof.Machine
set_option Elab.async false

section
variable {d : Nat} {s t u : State}

/-! ### A die that is LOST stays so (R482, R516) -/

/-- Whether the die is lost, and RAS_DIE_STATE.STATE, are as before. -/
structure LossKept (d : Nat) (s t : State) : Prop where
  lost : (t.row uDie d 0).lost = (s.row uDie d 0).lost
  state : t.fget RAS_DIE_STATE_STATE d = s.fget RAS_DIE_STATE_STATE d

theorem LossKept.refl (d : Nat) (s : State) : LossKept d s s := ⟨rfl, rfl⟩

theorem LossKept.trans (h : LossKept d s t) (k : LossKept d t u) : LossKept d s u := ⟨k.lost.trans h.lost, k.state.trans h.state⟩

theorem LossKept.ite {p : Prop} [Decidable p] (h : LossKept d s t) (k : LossKept d s u) : LossKept d s (if p then t else u) := by
  split <;> assumption

theorem LossKept.foldl {α : Type} {f : State → α → State} (h : ∀ u x, LossKept d u (f u x)) (l : List α) (s : State) :
    LossKept d s (l.foldl f s) :=
  ⟨foldl_leaves (fun u => (u.row uDie d 0).lost) (fun u x => (h u x).lost) l s,
    foldl_leaves (·.fget RAS_DIE_STATE_STATE d) (fun u x => (h u x).state) l s⟩

/-- A change of neither the units' rows nor the registers of RAS. -/
theorem LossKept.ofUnits (hu : t.ras.units = s.ras.units) (hr : t.fget RAS_DIE_STATE_STATE d = s.fget RAS_DIE_STATE_STATE d) :
    LossKept d s t := ⟨by unfold State.row; rw [hu], hr⟩

theorem LossKept.ofKeeps {m : Nat} (h : Keeps m s t) (hm : m.testBit 16 = false := by decide) (hr : m.testBit 25 = false := by decide) :
    LossKept d s t := .ofUnits (congrArg (fun r => r.units) (h.same .ras hm)) (h.fget (b := .ras) hr rfl d)

theorem LossKept.keeps {m : Nat} (h : LossKept d s t) (k : Keeps m t u) (hm : m.testBit 16 = false := by decide)
    (hr : m.testBit 25 = false := by decide) : LossKept d s u := h.trans (.ofKeeps k hm hr)

theorem LossKept.modRow (s : State) (k e i : Nat) {f : UnitRow → UnitRow} (hf : ∀ r, (f r).lost = r.lost := by exact fun _ => rfl) :
    LossKept d s (s.modRow k e i f) := by
  refine ⟨?_, rfl⟩
  unfold State.modRow State.row
  by_cases hk : unitKey k e i = unitKey uDie d 0
  · rw [← hk, dget_dset_self, hf]
  · rw [dget_dset_other _ _ _ _ hk]

/-- A field that is RAS_DIE_STATE.STATE of no die: of another block, from another bit, of the package, or further on in a die's registers. -/
def besideState (F : Fld) : Bool :=
  F.blk != .ras || F.lo % 32 != 0 || (F.stride == 0 && decide (F.off < 0x70100))
    || (F.stride == 0x40 && decide (0x70100 < F.off) && decide (F.off < 0x70140))

theorem besideState.key_ne {F : Fld} (h : besideState F = true) (i d : Nat) : F.key i ≠ RAS_DIE_STATE_STATE.key d := by
  unfold besideState at h
  simp only [Bool.or_eq_true, Bool.and_eq_true, bne_iff_ne, beq_iff_eq, decide_eq_true_eq] at h
  rcases h with ((hb | hl) | ⟨hs, ho⟩) | ⟨⟨hs, ho⟩, ho'⟩
  · exact Fld.key_ne _ _ hb
  · exact Fld.key_ne_of_lo hl
  all_goals
    refine Fld.key_ne_of_at ?_
    unfold Fld.at_
    rw [hs]
    simp only [RAS_DIE_STATE_STATE]
    omega

theorem LossKept.fset (s : State) {F : Fld} (hF : besideState F = true) (i v : Nat) : LossKept d s (s.fset F i v) :=
  ⟨rfl, State.fget_fset_other _ _ _ _ _ _ (besideState.key_ne hF i d)⟩

theorem LossKept.evtPkg (s : State) {F : Fld} (hF : besideState F = true) (hb : (F.bit ||| 0x21).testBit 16 = false) :
    LossKept d s (s.evtPkg F) :=
  .ofUnits (congrArg (fun r => r.units) ((s.evtPkg_keeps F).same .ras hb)) (State.fget_evtPkg_other _ _ _ _ (besideState.key_ne hF 0 d))

theorem State.countWickets_loss (s : State) (e : Nat) : LossKept d s (s.countWickets e) := by
  unfold State.countWickets
  exact .fset s (by decide) _ _

theorem State.noteUnit_loss (s : State) (k i old new cause : Nat) : LossKept d s (s.noteUnit k d i old new cause) := by
  unfold State.noteUnit
  extract_lets s1 s2 s3 s4
  have h1 : LossKept d s s1 := .modRow s k d i
  have h2 : LossKept d s s2 := .ite (h1.trans (.evtPkg s1 (by decide) (by decide))) h1
  have h3 : LossKept d s s3 := .ite (h2.trans (.fset s2 (by decide) _ _)) h2
  have h4 : LossKept d s s4 := .ite (h3.trans (s3.countWickets_loss d)) h3
  refine h4.trans ?_
  unfold State.postUnit
  exact .ite (.refl d s4) ((LossKept.modRow s4 k d i).keeps (State.dieEvent_keeps _ _ _ _))

theorem State.dieUnits_loss (s : State) (cause : Nat) (was : List (Nat × Nat × Nat)) : LossKept d s (s.dieUnits d cause was) :=
  .foldl (fun u _ => .ite (.refl d u) (.modRow u _ _ _)) was s

/-! #### The parts of a loss (R480 to R488) -/

/-- One record held, mapped. -/
def Held.mapMore (f : State → Held → Held × State) (acc : List Held × State) (h : Held) : List Held × State :=
  let (h, s) := f acc.2 h
  (acc.1 ++ [h], s)

theorem Held.mapMore_snd (f : State → Held → Held × State) (acc : List Held × State) (h : Held) :
    (Held.mapMore f acc h).2 = (f acc.2 h).2 := by
  rw [Held.mapMore]

/-- One record of a sweep, mapped in its place. -/
def State.mapRec (s : State) (e id i : Nat) (f : State → Held → Held × State) (r : SweepRec) : State :=
  if r.delivered then s
  else
    let (h, s) := f s r.held
    s.modRec e id i (fun r => { r with held := h })

theorem State.mapHeld_eq (s : State) (e : Nat) (f : State → Held → Held × State) : s.mapHeld e f =
    let x := (s.csm e).held.foldl (Held.mapMore f) ([], s)
    (s.csm e).sweeps.foldl (fun u w => ((List.range w.recs.length).zip w.recs).foldl (fun u y => u.mapRec e w.id y.1 f y.2) u)
      (x.2.modCsm e (fun c => { c with held := x.1 })) := rfl

theorem State.mapRec_loss (s : State) (e id i : Nat) {f : State → Held → Held × State} (hf : ∀ u h, LossKept d u (f u h).2)
    (r : SweepRec) : LossKept d s (s.mapRec e id i f r) := by
  unfold State.mapRec
  refine .ite (.refl d s) ?_
  have h1 := hf s r.held
  generalize f s r.held = x at h1 ⊢
  obtain ⟨h, t⟩ := x
  exact h1.keeps (State.modRec_keeps _ _ _ _ _)

theorem State.mapHeld_loss (s : State) (e : Nat) {f : State → Held → Held × State} (hf : ∀ u h, LossKept d u (f u h).2) :
    LossKept d s (s.mapHeld e f) := by
  rw [State.mapHeld_eq]
  extract_lets x
  have h1 : LossKept d s x.2 := List.foldlRecOn (motive := fun y => LossKept d s y.2) (s.csm e).held (Held.mapMore f) (.refl d s)
    fun y hy h _ => hy.trans (by rw [Held.mapMore_snd]; exact hf y.2 h)
  refine (h1.keeps (State.modCsm_keeps _ e _)).trans
    (.foldl (fun u (w : Sweep) => .foldl (fun v (y : Nat × SweepRec) => v.mapRec_loss e w.id y.1 hf y.2) _ u) _ _)

theorem State.ledgerIn_loss (s : State) (e : Nat) (h : Held) : LossKept d s (s.ledgerIn e h).2 := by
  unfold State.ledgerIn
  split
  · exact .refl d s
  · split
    · exact .refl d s
    · extract_lets s1
      have h1 : LossKept d s s1 := .fset s (by decide) _ _
      split
      · exact h1
      · exact h1.trans ((LossKept.fset s1 (F := RAS_LEDGER_SHORT_COUNT) (by decide) _ _).trans (.evtPkg _ (by decide) (by decide)))

theorem State.mirror_loss (s : State) (e : Nat) (gone : Bool) : LossKept d s (s.mirror e gone) := by
  unfold State.mirror
  refine .ite ((s.mapHeld_loss e fun u _ => .refl d u).trans (.fset _ (by decide) _ _)) ?_
  extract_lets r0 s1
  have h1 : LossKept d s s1 := .ite (.ofUnits rfl rfl) (.refl d s)
  exact h1.trans (s1.mapHeld_loss e fun u h => u.ledgerIn_loss e h)

theorem State.assignLedgers_loss (s : State) (p : Nat) : LossKept d s (s.assignLedgers p) := by
  unfold State.assignLedgers
  refine .foldl (fun u e => ?_) _ s
  extract_lets l old u1 r0 u2
  have h1 : LossKept d u u1 := .fset u (by decide) _ _
  have h2 : LossKept d u u2 := h1.trans (.ofUnits rfl rfl)
  exact .ite (.refl d u) (h2.trans (u2.mirror_loss _ _))

theorem State.loseEntry_loss (s : State) (ld e : Nat) (x : LedgerEnt) : LossKept d s (s.loseEntry ld e x) := by
  have h1 : LossKept d s (s.fadd RAS_LOST_RECORDS_COUNT 0 1) := .fset s (by decide) _ _
  unfold State.loseEntry
  split
  extract_lets s1
  split
  · exact h1
  · split
    · exact h1.keeps (State.resDrop_keeps _ _)
    · exact h1.keeps (State.sendWrite_keeps s1 _ _ _ _ _ _ _ _ _ _).get

theorem State.rehomeLoss_loss (s : State) (x : Loss) : LossKept d s (s.rehomeLoss x).2 := by
  unfold State.rehomeLoss
  extract_lets p s1 gone
  have h1 : LossKept d s s1 := .foldl (fun u k => .ofKeeps (u.completeKey_keeps k _ _ _)) _ s
  have h2 : LossKept d s (s1.rehome p x.die (s1.part p).ctxs).2 := h1.keeps (s1.rehome_keeps p x.die _).get
  generalize s1.rehome p x.die (s1.part p).ctxs = y at h2 ⊢
  obtain ⟨homes, s2⟩ := y
  dsimp -zeta only at h2 ⊢
  extract_lets s3 s4
  have h3 : LossKept d s s3 := by
    unfold s3
    split
    · exact h2.trans (.foldl (fun u e => u.loseEntry_loss _ _ e) _ _)
    · exact h2
  exact h3.trans (.fset s3 (by decide) _ _)

/-! #### The die itself (R516, R520) -/

/-- The die is lost, and RAS_DIE_STATE says so. -/
structure DieOff (d : Nat) (s : State) : Prop where
  lost : (s.row uDie d 0).lost = true
  state : s.fget RAS_DIE_STATE_STATE d = usLOST

theorem DieOff.of (h : DieOff d s) (k : LossKept d s t) : DieOff d t := ⟨k.lost.trans h.lost, k.state.trans h.state⟩

/-- And its link is down. -/
structure DieDown (d : Nat) (s : State) : Prop extends DieOff d s where
  link : s.fget LNK_STATUS_UP d = 0

theorem DieDown.of {m : Nat} (h : DieDown d s) (k : LossKept d s t) (hk : Keeps m s t) (hm : m.testBit 35 = false := by decide) :
    DieDown d t := ⟨h.toDieOff.of k, (hk.fget (b := .lnk) hm rfl d).trans h.link⟩

theorem DieDown.keeps {m : Nat} (h : DieDown d s) (k : Keeps m s t) (hm : m.testBit 16 = false := by decide)
    (hr : m.testBit 25 = false := by decide) (hl : m.testBit 35 = false := by decide) : DieDown d t := h.of (.ofKeeps k hm hr) k hl

theorem State.linkZero_up (s : State) (d : Nat) : (s.linkZero d).fget LNK_STATUS_UP d = s.fget LNK_STATUS_UP d := by
  unfold State.linkZero
  extract_lets s1 s2 s3
  have h1 : s1.fget LNK_STATUS_UP d = s.fget LNK_STATUS_UP d :=
    foldl_leaves (·.fget LNK_STATUS_UP d) (fun u x => (u.freeEntry_keeps d x).fget (b := .lnk) (by decide) rfl d) _ s
  refine ((State.settleRevokes_keeps _ d).fget (b := .lnk) (by decide) rfl d).trans ?_
  refine (State.fget_fset_other _ NRT_CTX_USED_CONTEXTS LNK_STATUS_UP d d 0 (Fld.key_ne _ _ (by decide))).trans ?_
  refine (State.fget_fset_other _ LNK_STATUS_PN_STOP LNK_STATUS_UP d d 0 (Fld.key_ne_of_lo (by decide))).trans ?_
  exact (State.fget_fset_other s3 LNK_STATUS_TX_AN LNK_STATUS_UP d d 0 (Fld.key_ne_of_lo (by decide))).trans h1

/-- A fabric port without lanes is down. -/
theorem State.setLink_zero_up (s : State) (d : Nat) : (s.setLink d 0).fget LNK_STATUS_UP d = 0 := by
  unfold State.setLink
  extract_lets s1 s2 was s3 s4
  have h1 : s1.fget LNK_STATUS_UP d = 0 :=
    (State.fget_fset_other _ LNK_STATUS_LANES LNK_STATUS_UP d d 0 (Fld.key_ne_of_lo (by decide))).trans
      (State.fget_fput_self s LNK_STATUS_UP d (0 != 0) (by decide))
  have h2 : s2.fget LNK_STATUS_UP d = 0 := by
    unfold s2
    rw [if_pos rfl, State.linkZero_up, h1]
  have h3 : s3.fget LNK_STATUS_UP d = 0 := (State.fget_fput_other s2 _ _ d d _ (Fld.key_ne_of_lo (by decide))).trans h2
  have h4 : s4.fget LNK_STATUS_UP d = 0 := by
    unfold s4
    split
    · exact (State.fget_evtDie_other s3 _ _ d d (Fld.key_ne_of_lo (by decide))).trans h3
    · exact h3
  exact (State.fget_fput_other s4 NRT_STATUS_LINK_UP LNK_STATUS_UP d d _ (Fld.key_ne _ _ (by decide))).trans h4

theorem State.portZero_up (s : State) (d : Nat) : (s.portZero d).fget LNK_STATUS_UP d = 0 := by
  unfold State.portZero
  exact ((State.modLnk_keeps _ d _).fget (b := .lnk) (by decide) rfl d).trans (s.setLink_zero_up d)

theorem State.dieZero_up (s : State) (d : Nat) (power : Bool) : (s.dieZero d power).fget LNK_STATUS_UP d = 0 := by
  unfold State.dieZero
  extract_lets tail s1
  have hp : ((s.staticDie d).portZero d).fget LNK_STATUS_UP d = 0 := (s.staticDie d).portZero_up d
  have hf : (((s.staticDie d).portZero d).forgetDie d).fget LNK_STATUS_UP d = 0 :=
    ((State.forgetDie_keeps _ d).fget (b := .lnk) (by decide) rfl d).trans hp
  have h1 : s1.fget LNK_STATUS_UP d = 0 := by
    refine (State.fget_clearRegs _ _ LNK_STATUS_UP d).trans ?_
    split
    · rfl
    · exact hf
  exact h1

theorem ofPackage_dieState (hd : d < 8) : ofPackage (RAS_DIE_STATE_STATE.at_ d) = true := by
  unfold ofPackage Fld.at_
  have h : (RAS_DIE_STATE_STATE.off = 0x70100) ∧ RAS_DIE_STATE_STATE.stride = 0x40 := ⟨rfl, rfl⟩
  rw [h.1, h.2]
  simp only [Bool.or_eq_true, Bool.and_eq_true, decide_eq_true_eq]
  omega

theorem State.dieZero_loss (s : State) (hd : d < 8) (power : Bool) : LossKept d s (s.dieZero d power) := by
  unfold State.dieZero
  extract_lets tail s1
  have h0 : LossKept d s (((s.staticDie d).portZero d).forgetDie d) :=
    ((LossKept.ofKeeps (s.staticDie_keeps d)).keeps (State.portZero_keeps _ d)).keeps (State.forgetDie_keeps _ d)
  have h1 : LossKept d s s1 := h0.trans (.ofUnits rfl (State.fget_clearWindow _ hd (ofPackage_dieState hd)))
  exact h1.trans (.ofUnits rfl rfl)

/-- The contents of a lost die go, and its self-test is to run. -/
theorem State.dieZero_dieTest_down (hd : d < 8) (h : DieOff d s) : DieDown d ((s.dieZero d false).dieTest d) :=
  DieDown.of ⟨h.of (s.dieZero_loss hd false), s.dieZero_up d false⟩ (.modRow _ _ _ _) (State.dieTest_keeps _ d)

/-- The row of the die and those of its units, once the die is lost. -/
def State.markLost (s : State) (d cause old : Nat) (units : List (Nat × Nat × Nat)) : State :=
  ((s.modRow uDie d 0 (fun r => { r with lost := true, testing := false, passed := false })).noteUnit uDie d 0 old usLOST cause).dieUnits d cause units

theorem State.markLost_off (s : State) (d cause old : Nat) (units : List (Nat × Nat × Nat)) :
    DieOff d ((s.markLost d cause old units).fset RAS_DIE_STATE_STATE d usLOST) := by
  refine ⟨?_, State.fget_fset_self _ RAS_DIE_STATE_STATE d usLOST⟩
  have h1 : ((s.modRow uDie d 0 (fun r => { r with lost := true, testing := false, passed := false })).row uDie d 0).lost = true := by
    unfold State.modRow State.row
    rw [dget_dset_self]
  exact ((State.noteUnit_loss (d := d) _ uDie 0 old usLOST cause).trans (State.dieUnits_loss _ cause units)).lost.trans h1

/-- The link and the host port of a lost die. -/
def State.portsOff (s : State) (d : Nat) : State :=
  match (s.fabricDown d).hostPortOf d with | some x => (s.fabricDown d).portOut x | none => s.fabricDown d

theorem State.portsOff_loss (s : State) (d : Nat) : LossKept d s (s.portsOff d) := by
  have h1 : LossKept d s (s.fabricDown d) := .ofKeeps (s.fabricDown_keeps d)
  unfold State.portsOff
  split
  · exact h1.keeps (State.portOut_keeps _ _)
  · exact h1

end

section
variable {d : Nat} {s t u : State}

/-! ### The loss and the reset of a die (R482, R516) -/

/-- The end of a loss: the partition ORPHANED, or events 3 to 5 of R482 begun; the record of the loss kept. -/
def State.settleLoss (s : State) (d p : Nat) (keep : Bool) (x : Loss) : State :=
  if keep then
    let s := { s with ras := { s.ras with losses := s.ras.losses ++ [x] } }
    let s := if s.sealed p then s.fset PTN_STATUS_STATE p ptnOrphaned else s
    (s.evtPkg RAS_EVENT_ORPHANED).partEvent p 0x63 d (le 1 d)
  else
    let (x, s) := s.rehomeLoss x
    { s with ras := { s.ras with losses := s.ras.losses ++ [x] } }

theorem State.settleLoss_down (h : DieDown d s) (p : Nat) (keep : Bool) (x : Loss) : DieDown d (s.settleLoss d p keep x) := by
  have h2 : DieDown d (s.rehomeLoss x).2 := h.of (s.rehomeLoss_loss x) (s.rehomeLoss_keeps x).get
  unfold State.settleLoss
  generalize s.rehomeLoss x = y at h2 ⊢
  obtain ⟨x', t⟩ := y
  dsimp -zeta only at h2 ⊢
  extract_lets r1 s1 s2 r2
  split
  · have h1 : DieDown d s1 := ⟨h.toDieOff.of (.ofUnits rfl rfl), h.link⟩
    have h2 : DieDown d s2 := by
      unfold s2
      split
      · exact h1.keeps (s1.fset_keeps PTN_STATUS_STATE p ptnOrphaned)
      · exact h1
    have h3 : DieDown d (s2.evtPkg RAS_EVENT_ORPHANED) :=
      h2.of (.evtPkg s2 (by decide) (by decide)) (s2.evtPkg_keeps RAS_EVENT_ORPHANED)
    exact h3.keeps (State.partEvent_keeps _ _ _ _ _)
  · exact ⟨h2.toDieOff.of (.ofUnits rfl rfl), h2.link⟩

/-- A die that is lost goes DOWN whatever it leaves behind (R480 to R488). -/
theorem State.loseDie_down (hd : d < s.nDies) (h : (s.row uDie d 0).lost = false) (cause : Nat) : DieDown d (s.loseDie d cause) := by
  have hd8 : d < 8 := lt_of_lt_of_le hd s.nDies_le
  unfold State.loseDie
  rw [if_neg (by rw [h]; simp [hd])]
  extract_lets old grads lost moving ledger units descs pins seqs s1 s2 s3 s4 s5 s6
  have h3 : DieOff d s3 :=
    (State.markLost_off s d 7 old units).of (.fset _ (F := RAS_STATUS_DIES_LOST) (by decide) _ _)
  have h4 : DieOff d s4 := h3.of ((LossKept.fset s3 (F := RAS_DIE_LOSSES_COUNT) (by decide) _ _).trans
    ((LossKept.evtPkg _ (F := RAS_EVENT_DIE_LOST) (by decide) (by decide)).trans (State.countWickets_loss _ d)))
  have h6 : DieOff d s6 := h4.of (s4.portsOff_loss d)
  clear_value s6
  have h7 : DieOff d (s6.takeOver d).2 := h6.of (.ofKeeps (s6.takeOver_keeps d))
  generalize s6.takeOver d = x at h7 ⊢
  obtain ⟨took, s7⟩ := x
  dsimp -zeta only at h7 ⊢
  extract_lets r0 s8 s9 s10
  have h8 : LossKept d s7 s8 := .ofUnits rfl rfl
  have h9 : LossKept d s7 s9 := h8.keeps (s8.modFtl_keeps _ _)
  have h10 : DieOff d s10 := h7.of (h9.keeps (s9.fset_keeps FTL_OWN_ADOPTED d 0))
  clear_value s10
  split
  · exact State.dieZero_dieTest_down hd8 h10
  next p _ =>
    extract_lets +onlyGivenNames ld keep frozen n s11 s12 s13 imgs s14 s15 l s16 s17
    have h11 : DieOff d s11 := h10.of (.ofKeeps (s10.partEvent_keeps _ _ _ _))
    have h13 : DieOff d s13 := (h11.of (.foldl (fun u k => .ofKeeps (u.completeKey_keeps k _ _ _)) _ s11)).of
      (.ofKeeps (s12.dropGrads_keeps p lost))
    have h14 : DieOff d s14 := h13.of (.foldl (fun u r => .ofKeeps (u.giveSegs_keeps _ _)) _ s13)
    have h15 : DieOff d s15 := h14.of (.foldl (fun u e => (LossKept.ofKeeps (u.modStg_keeps e _)).trans
      (.foldl (fun v (r : Nat × Replica) => .ofKeeps (v.dropReplica_keeps e r.1)) _ _)) _ s14)
    have h17 : DieDown d s17 := (State.dieZero_dieTest_down hd8 h15).of (s16.assignLedgers_loss p) (s16.assignLedgers_keeps p)
    clear_value s17 l keep
    exact State.settleLoss_down h17 p keep l

/-! #### A stack that does not train on a die that is lost (R471) -/

/-- A unit of a lost die is FENCED (R482). -/
theorem State.unitState_of_lost (h : (s.row uDie d 0).lost = true) {k : Nat} (hk : k ≠ uDie) (i : Nat) :
    s.unitState k d i = if s.unitExists k d i = true then usFENCED else usABSENT := by
  unfold State.unitState State.unitIn
  dsimp only
  rw [if_pos (show k ≠ uDie ∧ (s.row uDie d 0).lost = true from ⟨hk, h⟩)]

theorem State.setUnit_down (h : DieDown d s) {k : Nat} (hk : k ≠ uDie) (i cause n : Nat) {f : UnitRow → UnitRow}
    (hf : ∀ r, (f r).lost = r.lost) : DieDown d (s.setUnit k d i cause f (n + 1)) := by
  unfold State.setUnit
  split
  · exact h
  · extract_lets old kids before s1 new s2 s3 s4
    have h1 : DieDown d s1 := h.of (.modRow s k d i hf) (s.modRow_keeps k d i f)
    have hsame : old = new := by
      unfold old new
      rw [State.unitState_of_lost h.lost hk, State.unitState_of_lost h1.lost hk]
      rfl
    rw [if_pos hsame]
    exact h1

theorem State.trainFail_down (h : DieDown d s) (bad : Nat) : DieDown d (s.trainFail d bad) := by
  unfold State.trainFail
  refine List.foldlRecOn (bitsOf 3 bad) _ h fun u hu k _ => ?_
  have h1 : DieDown d (u.evtDie MEM_EVENT_TRAIN_FAIL d) := hu.keeps (u.evtDie_keeps MEM_EVENT_TRAIN_FAIL d)
  unfold State.hwFence
  split
  · exact h1.of (.fset _ (F := RAS_DISPUTE_HOLD_COUNT) (by decide) _ _) (State.fadd_keeps _ RAS_DISPUTE_HOLD_COUNT 0 1)
  · exact State.setUnit_down h1 (by decide) k 1 3 fun _ => rfl

theorem State.resetDie_down (hd : d < s.nDies) (h : (s.row uDie d 0).lost = false) (bad : Nat) : DieDown d (s.resetDie d bad) := by
  have hd8 : d < 8 := lt_of_lt_of_le hd s.nDies_le
  unfold State.resetDie
  rw [if_neg (by omega)]
  split
  · exact State.trainFail_down (State.loseDie_down hd h 8) bad
  · extract_lets old units s1 s2 s3 s4
    have h2 : DieOff d s2 := State.markLost_off s d 7 old units
    have h4 : DieOff d s4 := h2.of ((LossKept.fset s2 (F := RAS_STATUS_DIES_LOST) (by decide) _ _).trans
      ((State.countWickets_loss _ d).trans (State.portsOff_loss _ d)))
    exact State.trainFail_down (State.dieZero_dieTest_down hd8 h4) bad

/-- Clause of PackageResets: DIE_RESET. -/
theorem dieReset_loses (s : State) (d : Nat) (via : Via) (bad t : Nat) (hw : MayWrite via (DPM_CTRL_RESET.at_ d) s) (hd : d < s.nDies)
    (hs : s.shadowed d = false) (hl : (s.row uDie d 0).lost = false) :
    Runs (.dieReset d via 0x5EB7 bad t) s (fun u =>
      (u.row uDie d 0).lost = true ∧ u.fget RAS_DIE_STATE_STATE d = usLOST ∧ u.fget LNK_STATUS_UP d = 0) := by
  have hk := s.advanceTo_keeps t
  have hrow : (s.advanceTo t).row uDie d 0 = s.row uDie d 0 := by
    unfold State.row
    rw [show (s.advanceTo t).ras = s.ras from hk.same .ras (by decide)]
  have hshadow : (s.advanceTo t).shadowed d = false := by
    unfold State.shadowed State.dieLost at hs ⊢
    rw [hk.fget (b := .dpm) (by decide) rfl d, hk.fget (b := .ras) (by decide) rfl d, hs]
  have hn : (s.advanceTo t).nDies = s.nDies := by
    unfold State.nDies
    rw [hk.variant]
  have he : exec (.dieReset d via 0x5EB7 bad t) s = .next ((s.advanceTo t).resetDie d bad) :=
    congrArg Host.Outcome.next ((regWrite_reaches (hw.advanceTo t)).trans (if_pos ⟨rfl, hshadow⟩))
  have h := State.resetDie_down (s := s.advanceTo t) (by rw [hn]; exact hd) (by rw [hrow]; exact hl) bad
  exact ⟨_, he, h.lost, h.state, h.link⟩

end

end Sys2Proof.Machine
end

section
/-!
PROOFS. The package's resets (R277, R510, R516 to R518, R587, R590).
-/
namespace Sys2Proof.Machine
set_option Elab.async false

/-- Settles O28: clause by clause. A cold reset and power-on clear every partition and boot; the rest follows from what each command leaves. -/
theorem packageResets : Obligations.PackageResets := by
  unfold Obligations.PackageResets
  exact ⟨powerOnReset_starts, coldResetWrite_starts, coldResetPin_starts, coldResetPin_waits, deferredColdReset_starts,
    journalPageDurable_resets, journalPageDurable_nothing, packageWarmReset_leaves, dieReset_loses, journalPageDurable_appends,
    powerOnReset_samples⟩

end Sys2Proof.Machine
end
